-- ==== Sys2Proof/Word.lean ====
section
/-! DEFINITION. Word.lean: the word and byte types of the model and their plainest arithmetic (spec 00_scope.md R6, R869). -/

namespace Sys2Proof

/-- One 32-bit register word (R6). -/
abbrev Word := BitVec 32

/-- One byte of a frame, a payload or a memory. -/
abbrev Byte := BitVec 8

end Sys2Proof
end

