-- ==== Sys2Proof/Syntax.lean ====
section
/-! DEFINITION. Syntax.lean: the commands of the block, one constructor per row of spec/opcode_table.json in the
table's order. The operands of each are what the event brings with it: who acts, on which instance, with what value. -/

namespace Sys2Proof

/-- How a received frame arrives at a MAC: whole (also an express frame), or as one fragment of a preempted frame with
whether its mCRC matched (R115, R129). -/
inductive RxPart where
  | whole
  | first
  | middle (ok : Bool)
  | last (ok : Bool)
  deriving DecidableEq, Repr

/-- What crosses the Band (R14): a frame with its descriptor, of the express class or another; a table request or result; host DMA; a
register access or control message. -/
inductive BandMsg where
  | frame (express : Bool) (bytes : List Byte)
  | table (bytes : List Byte)
  | hostDma (bytes : List Byte)
  | register (bytes : List Byte)
  deriving DecidableEq, Repr

/-- The overhead that one member PHY of a FlexE group receives (R189, R190): its slot, overhead and overhead-multiframe lock, group
number, PHY number and the PHY numbers of its PHY map. -/
structure FlexePhy where
  slot : Nat
  locked : Bool := true
  mfLocked : Bool := true
  group : Nat
  num : Nat
  map : List Nat
  deriving DecidableEq, Repr

/-- The overhead that a FlexE group receives (R189 to R191): each PHY's, client calendars A and B as the client number at each
position (0 unused), RPF, the measured member skew in ns, and the overhead CRC errors and idle blocks inserted and deleted since the
overhead before. -/
structure FlexeOh where
  phys : List FlexePhy := []
  calA : List Nat := []
  calB : List Nat := []
  rpf : Bool := false
  skew : Nat := 0
  crcErrs : Nat := 0
  idleIns : Nat := 0
  idleDel : Nat := 0
  deriving DecidableEq, Repr

/-- The overhead of a received frame of one OTUC slice (R203, R206, R212, R215): the payload that BIP-8 covers and the BIP-8 bytes of
SM and PM, the BEI of each, section and path BDI, maintenance signals, the slice's MSI where the frame completes it (for each of
its 20 slots the tributary port, none where it is free), the skew of the slices in ns, the APS/PCC bytes, and the payload of the
frame that the slice sends. -/
structure OtnOh where
  payload : List Byte := []
  smBip : Nat := 0
  smBei : Nat := 0
  pmBip : Nat := 0
  pmBei : Nat := 0
  smBdi : Bool := false
  bdi : Bool := false
  otuAis : Bool := false
  oduAis : Bool := false
  oci : Bool := false
  lck : Bool := false
  msi : Option (List (Option Nat)) := none
  skew : Nat := 0
  aps : Nat := 0
  txPayload : List Byte := []
  deriving DecidableEq, Repr

/-- How a staging command's transfer goes (R744, R759): the bytes that the host memory gives, a host error, a flash error after
them, or none of these yet, so that the command still runs and an ABORT can reach it. -/
inductive FlashIo where
  | data (bytes : List Byte)
  | hostError
  | flashError
  | running
  deriving DecidableEq, Repr

/-- How a dump to host memory goes (R794, R799): written, failed by the host, or still running, so that an ABORT can reach it. -/
inductive DmaEnd where
  | written
  | hostError
  | running
  deriving DecidableEq, Repr

/-- A command of the block. -/
inductive Instr where
  /-- REGISTER_WRITE (R7). A register write to a field that has no row of its own stores, clears or sets the field according to its access code. -/
  | registerWrite (who page off v : Nat) (parity : Bool)
  /-- MALFORMED_SP_ACCESS (R44). A service-processor access that is not one aligned 32-bit access reads all ones or is discarded, and crown cause bit 4 is set. -/
  | malformedSpAccess (who page off : Nat) (write : Bool)
  /-- UNMAPPED_PAGE_ACCESS (R45). An access to an unpopulated page reads 0 or is discarded, is counted in UNMAP_CNT and sets crown cause bit 0. -/
  | unmappedPageAccess (who page off : Nat) (write : Bool)
  /-- REGISTER_ACCESS_TIMEOUT (R46). A block that has not answered an access within 2 µs ends it with all ones or a discarded write, and crown cause bit 3 is set. -/
  | registerAccessTimeout (who page off : Nat) (write : Bool)
  /-- RC_FIELD_READ (R8). A read of an RC field returns its value and then clears it. -/
  | rcFieldRead (who page off : Nat) (parity : Bool)
  /-- COUNTER_LO_READ (R57). A read of the LO word of a counter pair latches the HI word into the requester's holding register. -/
  | counterLoRead (who page off : Nat)
  /-- RESULT_ALIAS_READ (R63). A read of RES_STS at the clear-on-read alias of a result set returns it and then clears VALID. -/
  | resultAliasRead (who page off : Nat)
  /-- INT_FORCE_WRITE (R52). A write of 1 to INT_FORCE sets the matching cause bits. -/
  | intForceWrite (who page v : Nat)
  /-- INT_REARM (R70). A write to INT_REARM signals the named vector again while its pages or a fatal cause are still pending. -/
  | intRearm (who v : Nat)
  /-- CNT_CLEAR_ALL (R59). CNT_CTL.CLEAR_ALL clears CYC_CNT and PMC0 to PMC7 of the page. -/
  | cntClearAll (who page : Nat)
  /-- SOFT_RESET (R864). A write of 1 to PAGE_CTL.SOFT_RESET clears the block's counters and operating state and keeps its configuration. -/
  | softReset (who page : Nat)
  /-- SOFT_RESET_COMPLETE (R864). The soft reset finishes, and SOFT_RESET and BUSY clear. -/
  | softResetComplete (page : Nat)
  /-- LOCAL_STROBE (R776). SNAP_CTL.LOCAL_STROBE latches the shadow of its own page only. -/
  | localStrobe (page : Nat)
  /-- STROBE_FIRE (R769). A write of STROBE_CTL.FIRE requests the common strobe. -/
  | strobeFire
  /-- SNAP_IN_EDGE (R769). A rising edge of SNAP_IN requests the common strobe while PIN_EN is 1. -/
  | snapInEdge
  /-- GFREEZE_WRITE (R768). A write of FREEZE_ALL freezes or releases the native counters of every page on both dies. -/
  | gfreezeWrite (v : Bool)
  /-- BAND_FLIT_SEND (R16). The Band sends the next flit, VC0 first when it is strict, and the other channels by weight. -/
  | bandFlitSend (toQd : Bool) (waiting : List BandMsg)
  /-- BAND_FLIT_RECEIVE (R15). A flit received with a good CRC is delivered in channel order, and ACK_SEQ frees retained flits. -/
  | bandFlitReceive (toQd : Bool) (flit : List Byte)
  /-- BAND_CRC_MISMATCH (R17). A flit with a CRC mismatch is discarded together with every later flit, and a replay request is sent. -/
  | bandCrcMismatch (toQd : Bool)
  /-- BAND_REPLAY_REQUEST (R17). A received replay request makes the sender resend its retained flits from the named sequence number. -/
  | bandReplayRequest (toQd : Bool) (seq : Nat)
  /-- BAND_RETRY_LIMIT (R19). When one sequence number fails RETRY_LIMIT consecutive replays, the Band starts to retrain its links. -/
  | bandRetryLimit (toQd : Bool)
  /-- BAND_RETRAIN (R19). A write of BAND_CTL.RETRAIN starts a retrain attempt, also while FAILED is 1. -/
  | bandRetrain
  /-- BAND_RETRAIN_DONE (R19). A successful retrain clears FAILED, sets UP and performs the QD-page accesses that waited. -/
  | bandRetrainDone
  /-- BAND_RETRAIN_FAIL (R19). A failed retrain sets FAILED and a fatal cause, and the waiting QD-page accesses end at once. -/
  | bandRetrainFail
  /-- MAC_RX_FRAME (R115). The MSC receives a frame, timestamps it, reassembles it, checks it, decrypts it, sums it, taps the Bonnet and hands it to the ingress hold. -/
  | macRxFrame (slot : Nat) (part : RxPart) (bytes : List Byte) (fcs : Nat) (errs : List Nat) (cut : Bool)
  /-- DEAL_FRAME (R239). The dealer hands a frame whose parse window is complete to the next pipeline with the next sequence number of its context. -/
  | dealFrame
  /-- PARK_RESUME (R244). A parked frame re-enters its pipeline when its HBM lookup result returns. -/
  | parkResume (ctx seq : Nat) (poisoned : Bool)
  /-- RSU_SEARCH_RESULT (R336). A queued range search returns its winner, miss or parity error to stage 100. -/
  | rsuSearchResult (parity : Option (Nat × Nat))
  /-- PMM_SCAN_DONE (R261). A steered frame's payload scan completes and the frame leaves stage 104 with its match result. -/
  | pmmScanDone (ctx seq : Nat)
  /-- ORD_RESULT (R246). ORD takes a pipeline result or drop token, holds it, and releases the run of its context in sequence order. -/
  | ordResult (ctx seq : Nat)
  /-- ORD_GAP_TIMEOUT (R246). When a context's gap timer reaches GAP_TIMEOUT, ORD skips to the nearest held sequence number and counts the skip. -/
  | ordGapTimeout (ctx : Nat)
  /-- QD_ADMIT_FRAME (R376). The QD chooses the queue, applies the express limit and admission, and stores or drops the frame. -/
  | qdAdmitFrame (fromFabric badWord : Bool)
  /-- SPILL_WRITE_COMPLETE (R371). A spilled frame's bytes leave the write staging buffer for its HBM buffer. -/
  | spillWriteComplete (pool buf : Nat)
  /-- BRM_READBACK (R373). The BRM requests the read-back of the next HBM frame of a queue into the read-back buffer. -/
  | brmReadback (queue : Nat)
  /-- READBACK_COMPLETE (R374). A read-back completes, the HBM buffer is freed, and the frame becomes eligible or is poisoned. -/
  | readbackComplete (queue : Nat) (poisoned : Bool)
  /-- SCHED_DECISION (R412). The QSU picks a queue for a port through the hierarchy and grants whole frames up to SLOT_BYTES. -/
  | schedDecision (port : Nat) (halted : Bool)
  /-- MSC_TAKE_FRAME (R413). The MSC selects a granted frame from a MAC queue, which frees grant credit for that MACQ. -/
  | mscTakeFrame (slot : Nat)
  /-- EPP_DEAL (R241). A frame from the QD is dealt to the next egress pipeline and is rewritten in 53 clocks. -/
  | eppDeal (poisoned : Bool) (marks : Nat)
  /-- MAC_TX_FRAME (R116). The MSC shapes, edits, encrypts, computes the FCS, taps the Bonnet, fragments and transmits a frame. -/
  | macTxFrame (slot : Nat)
  /-- BUFFER_FREE (R366). A free request releases a buffer only when the requester equals OWNER, and otherwise is refused and captured. -/
  | bufferFree (pool buf requester : Nat)
  /-- VOQ_DECISION (R420). The VOQ arbiter picks a VOQ and grants whole frames for spraying up to 81,920 bytes. -/
  | voqDecision
  /-- SPRAY_CELL (R462). The sprayer gives a cell its SEQ and places it on the next masked link in SPRAY_ORDER, and waits when that FIFO is full. -/
  | sprayCell
  /-- FEL_CELL_ARRIVE (R463). A fabric element stores an arriving cell in a partition and output queue, or discards it. -/
  | felCellArrive (link : Nat) (cell : List Byte) (errs : List (Nat × Bool))
  /-- FEL_SLOT_SEND (R466). In each cell slot an output link sends its express head, the head of the partition's queue, or an idle cell. -/
  | felSlotSend (link : Nat) (poisoned : Bool)
  /-- LINER_CELL (R473). The Liner holds an arriving cell in its context, skips where the window or store forces it, and releases the run in order. -/
  | linerCell (link : Nat) (cell : List Byte) (errs : List (Nat × Bool)) (storeBad : Bool)
  /-- LINER_TIMEOUT (R473). When a context's oldest cell has waited the time bound, the Liner skips the gap. -/
  | linerTimeout (source cls : Nat)
  /-- LINER_CTX_IDLE (R476). A context that has held and received no cell for CTX_IDLE_US becomes idle. -/
  | linerCtxIdle (source cls : Nat)
  /-- LINK_ENABLE (R440). LINK_CTL.EN = 1 starts idle superframes and moves the link to ADAPT. -/
  | linkEnable (link : Nat)
  /-- LINK_DISABLE (R440). LINK_CTL.EN = 0 idles the transmitter and moves the link to OFF. -/
  | linkDisable (link : Nat)
  /-- LINK_ADAPT_DONE (R440). Receive adaptation completes and the link moves to LOCK. -/
  | linkAdaptDone (link snr : Nat)
  /-- LINK_ADAPT_TIMEOUT (R440). ADAPT_MS elapses and the link goes DOWN with cause 1. -/
  | linkAdaptTimeout (link : Nat)
  /-- SUPERFRAME_LOCK (R437). The receiver finds the marker in three consecutive superframes and the link moves to HELLO. -/
  | superframeLock (link : Nat)
  /-- LINK_LOCK_TIMEOUT (R440). LOCK_MS elapses and the link goes DOWN with cause 2. -/
  | linkLockTimeout (link : Nat)
  /-- SUPERFRAME_LOCK_LOSS (R437). Four superframes without the marker end lock, and an ACTIVE link goes DOWN with cause 5. -/
  | superframeLockLoss (link : Nat)
  /-- UNCORR_THRESHOLD (R438). Uncorrectable codewords reach UNCORR_DOWN within 1,024 codewords and the link goes DOWN with cause 6. -/
  | uncorrThreshold (link : Nat)
  /-- HELLO_RECEIVE (R443). A received HELLO is checked, and the link enters ACTIVE, goes DOWN, or refreshes its ACK and RX_OK state. -/
  | helloReceive (link : Nat) (cell : List Byte)
  /-- HELLO_SEND (R441). A link sends a HELLO each interval and on any change of RX_OK or ACK. -/
  | helloSend (link : Nat)
  /-- HELLO_TIMEOUT (R440). HELLO_MS or HELLO_MISS intervals pass without a HELLO and the link goes DOWN with cause 3. -/
  | helloTimeout (link : Nat)
  /-- LINK_FORCE_DOWN (R440). FORCE_DOWN = 1 moves an ACTIVE link to DOWN with cause 8. -/
  | linkForceDown (link : Nat)
  /-- LINK_HOLDDOWN_EXPIRY (R440). HOLDDOWN_MS elapses with EN = 1 and the link returns to ADAPT. -/
  | linkHolddownExpiry (link : Nat)
  /-- LINK_DOZE_REQUEST (R445). LINK_CTL.DOZE = 1 removes the link from the masks, drains it and sends DOZE_REQ, repeating while not answered. -/
  | linkDozeRequest (link : Nat)
  /-- DOZE_REQ_RECEIVE (R446). A far end that allows doze drains the link and answers DOZE_ACK. -/
  | dozeReqReceive (link : Nat) (cell : List Byte)
  /-- DOZE_ACK_RECEIVE (R446). On DOZE_ACK both ends quiet their transmitters and the link enters DOZE. -/
  | dozeAckReceive (link : Nat) (cell : List Byte)
  /-- LINK_WAKE (R447). DOZE = 0 or a detected signal resumes transmission and the link enters WAKE. -/
  | linkWake (link : Nat) (signal : Bool)
  /-- LINK_WAKE_DONE (R440). Lock and a HELLO with ACK return the link from WAKE to ACTIVE. -/
  | linkWakeDone (link : Nat)
  /-- LINK_WAKE_TIMEOUT (R440). 10 µs in WAKE without success sends the link DOWN with cause 9. -/
  | linkWakeTimeout (link : Nat)
  /-- REACH_SEND (R458). An element sends REACH on every ACTIVE link each interval and on any change. -/
  | reachSend (link : Nat)
  /-- REACH_RECEIVE (R458). A received REACH updates the masks or reach lists within 1 µs. -/
  | reachReceive (link : Nat) (cell : List Byte)
  /-- FC_SEND (R459). An element sends its XOFF bitmap in FC every FC_INT_US and within 200 ns of a change. -/
  | fcSend
  /-- FC_RECEIVE (R460). A received FC holds or releases the non-express VOQs of the flagged destinations. -/
  | fcReceive (link : Nat) (cell : List Byte)
  /-- UNKNOWN_CONTROL_CELL (R454). A control cell of unknown CTYPE is counted and ignored, and FAB cause bit 3 is set. -/
  | unknownControlCell (link : Nat) (cell : List Byte)
  /-- FAB_SNAP_SEND (R481). SNAP_CMD.SEND sends a STROBE cell on every ACTIVE link and schedules the local strobe at T. -/
  | fabSnapSend
  /-- STROBE_CELL_RECEIVE (R482). A STROBE with a new ID is accepted, forwarded by elements and scheduled when FABRIC_EN is 1. -/
  | strobeCellReceive (link : Nat) (cell : List Byte)
  /-- FABRIC_STROBE_TARGET (R483). A scheduled fabric strobe reaches its target and fires the common strobe, late if already passed. -/
  | fabricStrobeTarget
  /-- MCR_REPLICATE (R386). A multicast frame takes an MCD and its replicas are enqueued or held as residue in list order. -/
  | mcrReplicate (badWord : Bool)
  /-- RESIDUE_READY (R386). A residue replica whose queue has changed is enqueued once admission would accept it. -/
  | residueReady (mcd rep : Nat)
  /-- RESIDUE_TIMEOUT (R386). The residue timer expires, every residue replica is dropped, and the owner naming moves. -/
  | residueTimeout (mcd : Nat)
  /-- RESIDUE_PRESSURE (R388). Under buffer pressure the MCR ends the wait of the oldest affected MCD every 8 QD clocks. -/
  | residuePressure
  /-- REPLICA_COMPLETION (R386). A replica sent or dropped decrements REMAIN, and at 0 the buffer is freed in the owner's name. -/
  | replicaCompletion (mcd rep : Nat) (dropped : Bool)
  /-- QSU_FLUSH (R426). FLUSH makes a queue ineligible and drops its ungranted frames, optionally sweeping descriptors. -/
  | qsuFlush (sweep : Bool) (tag : Nat)
  /-- QSU_FLUSH_COMPLETE (R427). The flush walk and any sweep end, HALTED clears and the result is written. -/
  | qsuFlushComplete
  /-- QSU_ABORT (R428). An ABORT ends a flush before its first drop, or is held until the flush ends. -/
  | qsuAbort (tag : Nat)
  /-- NODE_WRITE (R424). A staged node write applies at the next decision, or ends ERROR. -/
  | nodeWrite (level tag : Nat)
  /-- NODE_READ (R430). A node read returns the node words, eligibility, deficit and tokens. -/
  | nodeRead (level tag : Nat)
  /-- SHP_PROFILE_WRITE (R425). A shaper profile word applies to later refills, and invalidating a profile in use is refused. -/
  | shpProfileWrite (profile word value : Nat)
  /-- ADM_PROFILE_WRITE (R381). An admission profile word applies to later decisions, and an inconsistent write is refused. -/
  | admProfileWrite (profile word value : Nat)
  /-- MCR_GROUP_WRITE (R396). A GRP_DATA write atomically updates a multicast group, or is refused when out of range. -/
  | mcrGroupWrite (value : Nat)
  /-- MCR_LIST_WRITE (R396). A LIST_DATA write atomically updates a replica entry. -/
  | mcrListWrite (value : Nat)
  /-- LANE_CTL_WRITE (R102). A LANE_CTL write sets a lane's rate and enables, or is ignored for a bad rate or quad mismatch. -/
  | laneCtlWrite (lane v : Nat)
  /-- LANE_ADAPT (R150). LANE_CTL.ADAPT restarts receive adaptation of the lane. -/
  | laneAdapt (lane : Nat)
  /-- TX_FIR_WRITE (R150). A TX_FIR write sets the taps, or is ignored when their sum exceeds 63. -/
  | txFirWrite (lane v : Nat)
  /-- PORT_APPLY (R106). PORT_CFG.APPLY activates a checked port configuration, or removes the slot's port when MODE is 00. -/
  | portApply (slot v : Nat)
  /-- SER_WINDOW_END (R111). At the end of each SER_WINDOW the LNP sets or clears DEGRADE from the symbol-error count. -/
  | serWindowEnd (slot corr uncorr syms : Nat)
  /-- LINK_TRAINING_DONE (R113). Copper link training of a lane succeeds or fails. -/
  | linkTrainingDone (lane : Nat) (ok : Bool)
  /-- CDR_LOCK_LOSS (R151). A lane loses CDR lock and LNP cause bit 0 is set. -/
  | cdrLockLoss (lane : Nat)
  /-- PAUSE_WD_TRIP (R123). A transmitter paused for TIMEOUT_MS trips the watchdog and received pause is ignored. -/
  | pauseWdTrip (slot prio : Nat)
  /-- PAUSE_WD_RECOVER_END (R123). After RECOVER_MS the MSC honours received pause again. -/
  | pauseWdRecoverEnd (slot prio : Nat)
  /-- PREEMPT_VERIFY (R130). The 802.3br verify exchange runs each VERIFY_MS and succeeds or fails. -/
  | preemptVerify (slot : Nat) (ok : Bool)
  /-- LPI_ENTER (R134). After TX_IDLE_US of empty MAC queues the MSC asserts LPI. -/
  | lpiEnter (slot : Nat)
  /-- TS_POP (R141). TS_POP removes the head timestamp record. -/
  | tsPop (msc : Nat)
  /-- MSC_SA_WRITE (R148). SA_CMD write stores the staged SA, or ends ERROR for the current transmit SA. -/
  | mscSaWrite (msc tag : Nat)
  /-- MSC_SA_READ (R152). SA_CMD read returns the SA's PN, counters and IN_USE. -/
  | mscSaRead (msc tag : Nat)
  /-- MSC_SA_INVALIDATE (R148). SA_CMD invalidate disables the selected SA. -/
  | mscSaInvalidate (msc tag : Nat)
  /-- CSB_FRAME (R155). The CAGE sends one cage sideband frame, latching outputs and loading and processing every cage's inputs. -/
  | csbFrame (inputs : List Nat)
  /-- CAGE_DEBOUNCE_DONE (R162). A cage present for DEBOUNCE_MS waits for a power slot. -/
  | cageDebounceDone (cage : Nat)
  /-- CAGE_POWER_SLOT (R163). Once per STAGGER_MS the lowest waiting cage moves from DEBOUNCE to POWERING. -/
  | cagePowerSlot
  /-- CAGE_PG_TIMEOUT (R162). No PWR_GOOD within PG_TIMEOUT_MS moves the cage to FAULT with code 1. -/
  | cagePgTimeout (cage : Nat)
  /-- CAGE_RESET_HOLD_DONE (R162). After RESET_HOLD_MS the module's reset is released and the cage enters INIT. -/
  | cageResetHoldDone (cage : Nat)
  /-- CAGE_INIT_TIMEOUT (R162). INIT_TIMEOUT_MS elapses and the cage enters FAULT with code 2. -/
  | cageInitTimeout (cage : Nat)
  /-- CAGE_DATAPATH_ACTIVATED (R172). With AUTO, CMIS bring-up reaches DataPathActivated and the cage enters READY with squelch released. -/
  | cageDatapathActivated (cage : Nat) (matched : Bool)
  /-- CAGE_MANUAL_READY (R162). MANUAL_READY moves a cage from INIT to READY. -/
  | cageManualReady (cage : Nat)
  /-- CAGE_FORCE_LPMODE (R162). A change of FORCE_LPMODE moves a cage between READY and LOW_POWER. -/
  | cageForceLpmode (cage : Nat) (v : Bool)
  /-- CAGE_POWER_CYCLE (R162). POWER_CYCLE drives EMPTY outputs for 100 ms. -/
  | cagePowerCycle (cage : Nat)
  /-- CAGE_POWER_CYCLE_END (R162). After 100 ms of power cycle the cage returns to DEBOUNCE. -/
  | cagePowerCycleEnd (cage : Nat)
  /-- CAGE_FAULT_CLR (R162). FAULT_CLR on a present cage in FAULT moves it to DEBOUNCE. -/
  | cageFaultClr (cage : Nat)
  /-- CAGE_REMOVAL_DONE (R162). A cage absent for DEBOUNCE_MS in REMOVING turns power off and becomes EMPTY. -/
  | cageRemovalDone (cage : Nat)
  /-- MM_READ (R169). A management-master read command is queued and run whole in order. -/
  | mmRead (master cage tag : Nat)
  /-- MM_WRITE (R170). A management-master write command runs, or is refused for protected bytes under AUTO. -/
  | mmWrite (master cage tag : Nat)
  /-- MM_ABORT (R176). A management-master abort ends the running transaction, or resolves late by R64. -/
  | mmAbort (master tag : Nat)
  /-- MM_TRANSACTION_DONE (R169). A management-master transaction completes and writes its result set. -/
  | mmTransactionDone (master : Nat) (data : List Byte) (nack : Bool)
  /-- MM_STRETCH_TIMEOUT (R171). A clock stretch longer than STRETCH_MS ends the transaction with TIMEOUT. -/
  | mmStretchTimeout (master : Nat)
  /-- MM_SDA_STUCK (R171). SDA held low for 35 ms sets STUCK, and the master sends nine clocks and a STOP. -/
  | mmSdaStuck (master : Nat)
  /-- LFU_CLIENT_WRITE (R183). A client entry word-0 write with VALID is stored or refused. -/
  | lfuClientWrite (lfu entry value : Nat)
  /-- FLEXE_SWITCH_TRIGGER (R192). A calendar switch trigger is checked and sets FLEXE_PENDING, or is refused. -/
  | flexeSwitchTrigger (lfu : Nat)
  /-- FLEXE_OH_FRAME (R193). At an overhead-frame boundary the LFU sends C for a pending switch and then adopts the new transmit calendar. -/
  | flexeOhFrame (lfu : Nat)
  /-- FLEXE_OH_RECEIVE (R190). Received overhead is checked for lock, group, PHY map and calendar match. -/
  | flexeOhReceive (lfu : Nat) (phys : List FlexePhy) (calA calB : List Nat) (rpf : Bool) (skew crcErrs idleIns idleDel : Nat)
  /-- FLEXE_CA_RECEIVE (R194). A received CA naming the new calendar lets a CR-CA switch proceed. -/
  | flexeCaReceive (lfu : Nat) (cal : Nat)
  /-- FLEXE_CA_TIMEOUT (R194). No CA within CA_TIMEOUT_MS abandons the switch. -/
  | flexeCaTimeout (lfu : Nat)
  /-- FLEXE_CR_RECEIVE (R195). With CA_AUTO a received CR is answered with CA. -/
  | flexeCrReceive (lfu : Nat) (cal : Nat)
  /-- FLEXE_RX_C_CHANGE (R195). A change of received C switches the receive calendar from the next calendar slot. -/
  | flexeRxCChange (lfu : Nat) (cal : Nat)
  /-- OTN_ENABLE (R199). A write of OTN_EN = 1 starts the framer, or is refused when the lanes cannot carry n slices. -/
  | otnEnable (lfu : Nat)
  /-- OTN_SWITCH_TRIGGER (R204). A map switch trigger is checked and sets OTN_PENDING, or is refused. -/
  | otnSwitchTrigger (lfu : Nat)
  /-- OTN_TX_MAP_SWITCH (R205). At the next transmitted MFAS = 0 the new map and MSI take effect. -/
  | otnTxMapSwitch (lfu : Nat)
  /-- OTN_RX_MAP_SWITCH (R205). At the next received MFAS = 0 the receive map switches and the switch completes. -/
  | otnRxMapSwitch (lfu : Nat)
  /-- OTN_FRAME (R209). A received OTUC frame updates alignment trackers, in-frame and out-of-frame state, MSI, APS and overhead monitors. -/
  | otnFrame (lfu slice : Nat) (hits : List (Nat × Nat)) (oh : OtnOh)
  /-- OTN_LOF_DECLARE (R211). Out-of-frame or MFAS loss persisting for LOF_MS declares LOF or LOM. -/
  | otnLofDeclare (lfu : Nat)
  /-- OTN_LOF_CLEAR (R211). In-frame persisting for LOF_MS clears LOF. -/
  | otnLofClear (lfu : Nat)
  /-- PROT_COMMAND (R217). A PROT_CMD enters the G.873.1 request logic. -/
  | protCommand (lfu cmd : Nat)
  /-- PROT_HOLDOFF_EXPIRY (R216). After HOLDOFF, SF or SD enters the request logic. -/
  | protHoldoffExpiry (lfu which : Nat)
  /-- PROT_WTR_EXPIRY (R217). The wait-to-restore timer expires in revertive operation. -/
  | protWtrExpiry (lfu : Nat)
  /-- PROT_FAIL_TIMEOUT (R219). Sent and accepted requests disagreeing for 50 ms set PROT_FAIL. -/
  | protFailTimeout (lfu : Nat)
  /-- PM_SECOND_LATCH (R220). At each network-time second the LFU latches and clears its PM counters. -/
  | pmSecondLatch (lfu : Nat)
  /-- PM_LATCH (R221). PM_CTL.LATCH or a timed latch latches at once and sets PARTIAL. -/
  | pmLatch (lfu : Nat)
  /-- PM_LATCH_FREE_RUN (R222). Without valid network time the LFU latches after each 10^9 ns of its own count. -/
  | pmLatchFreeRun (lfu : Nat)
  /-- TPL_COMMIT (R238). TPL_CMD commit writes the staged template, or refuses a bad NK_MODE or MARK. -/
  | tplCommit (index tag : Nat)
  /-- TPL_READ (R266). TPL_CMD read copies a template into the staging registers. -/
  | tplRead (index tag : Nat)
  /-- TPL_INVALIDATE (R266). TPL_CMD invalidate removes a template. -/
  | tplInvalidate (index tag : Nat)
  /-- CLS_INSERT (R252). An insert finds a relocation path and applies it directly or through pauses, or ends NO_ROOM. -/
  | clsInsert (profile : Nat) (replace : Bool) (tag : Nat)
  /-- CLS_PAUSE (R254). Once spacing and the hold allow, the CLS pauses one copy's pipelines and writes the path to that copy. -/
  | clsPause
  /-- CLS_DELETE (R267). A classifier delete removes an entry. -/
  | clsDelete (profile tag : Nat)
  /-- CLS_READ (R267). A classifier read returns an entry's action. -/
  | clsRead (profile tag : Nat)
  /-- CLS_ABORT (R257). An abort ends an insert before its first move, or resolves late. -/
  | clsAbort (tag : Nat)
  /-- PAT_WRITE (R263). PAT_CMD write commits a staged pattern for later scans. -/
  | patWrite (index tag : Nat)
  /-- PAT_READ (R268). PAT_CMD read copies a pattern into the staging registers. -/
  | patRead (index tag : Nat)
  /-- PAT_ABORT (R268). PAT_CMD abort ends the running pattern command. -/
  | patAbort (tag : Nat)
  /-- EPOCH_COMMIT_CMD (R309). EPOCH_CMD.COMMIT requests a commit of the open group; with DISCARD also set it is ignored. -/
  | epochCommitCmd (discard : Bool)
  /-- EPOCH_DISCARD (R310). EPOCH_CMD.DISCARD empties the open group and clears its failure. -/
  | epochDiscard
  /-- EPOCH_COMMIT_EFFECT (R313). A waiting commit takes effect once drained: CURRENT increments, or a failed group is refused. -/
  | epochCommitEffect
  /-- EPOCH_DRAINED (R312). Every frame of earlier epochs has passed ORD, EPOCH_DRAINED rises and LKP cause bit 0 is set. -/
  | epochDrained
  /-- EPOCH_WRITE_BACK (R314). After the drain the committed rows are written from the version store into table memory. -/
  | epochWriteBack (rows : Nat)
  /-- FENCE_CMD (R292). FENCE_CMD.FENCE flips the fence generation and sets BUSY. -/
  | fenceCmd
  /-- FENCE_COMPLETE (R292). The last frame of the previous generation leaves or drops, and BUSY clears. -/
  | fenceComplete
  /-- AGE_SWEEP_START (R295). An aging sweep of a table starts each period, at once after an overrun, which is counted. -/
  | ageSweepStart (table : Nat)
  /-- AGE_SWEEP_VISIT (R294). The sweeper visits a row and clears HIT, sets OLD or removes it with a report. -/
  | ageSweepVisit (table : Nat)
  /-- SHD_COMPARE (R297). The SHD compares a table row with its host shadow. -/
  | shdCompare (table row : Nat) (image : Option (List Nat))
  /-- SHD_RECHECK (R298). After RECHECK_US a difference is re-read and reported, and repaired when REPAIR is 1. -/
  | shdRecheck (table row : Nat) (image : Option (List Nat))
  /-- SHD_MM_POP (R320). MM_POP removes the head mismatch report. -/
  | shdMmPop
  /-- TDMA_DOORBELL (R300). A doorbell adds COUNT descriptors to a ring, or returns FULL. -/
  | tdmaDoorbell (ring count tag : Nat)
  /-- TDMA_READ (R302). A READ descriptor copies table rows to host memory. -/
  | tdmaRead (ring : Nat) (desc : List Nat)
  /-- TDMA_WRITE (R304). A WRITE descriptor commits up to 64 rows in one clock, or stages them. -/
  | tdmaWrite (ring : Nat) (desc : List Nat) (data : Option (List Nat))
  /-- TDMA_INSERT (R282). An INSERT places a key in the emptier candidate bucket, or ends NO_ROOM. -/
  | tdmaInsert (ring : Nat) (desc : List Nat) (data : Option (List Nat))
  /-- TDMA_DELETE (R302). A DELETE removes a key. -/
  | tdmaDelete (ring : Nat) (desc : List Nat) (data : Option (List Nat))
  /-- TDMA_SEARCH (R302). A SEARCH finds a key and returns its row. -/
  | tdmaSearch (ring : Nat) (desc : List Nat) (data : Option (List Nat))
  /-- TDMA_LOCK (R306). A LOCK locks one row so that further writes are staged. -/
  | tdmaLock (ring : Nat) (desc : List Nat)
  /-- TDMA_UNLOCK (R306). An UNLOCK commits the staged content atomically and clears the lock. -/
  | tdmaUnlock (ring : Nat) (desc : List Nat)
  /-- TDMA_UNLOCK_DISCARD (R306). An UNLOCK_DISCARD clears the lock and drops the staged content. -/
  | tdmaUnlockDiscard (ring : Nat) (desc : List Nat)
  /-- TDMA_EPOCH_COMMIT (R309). An EPOCH_COMMIT descriptor requests a commit of the open group. -/
  | tdmaEpochCommit (ring : Nat) (desc : List Nat)
  /-- TDMA_ABORT (R307). ABORT ends the descriptors of a ring that have not reached their commit clock. -/
  | tdmaAbort (ring : Nat) (tags : List Nat)
  /-- TDMA_RING_DISABLE (R307). RING_CTL.EN = 0 aborts the ring and resets HEAD and the tail. -/
  | tdmaRingDisable (ring : Nat) (tags : List Nat)
  /-- RS_WRITE (R344). RS_CMD WRITE commits the staged entry in one clock. -/
  | rsWrite (rsu bank tag : Nat)
  /-- RS_READ (R345). RS_CMD READ copies an entry into staging and the result set. -/
  | rsRead (rsu bank tag : Nat)
  /-- RS_INVALIDATE (R344). RS_CMD INVALIDATE clears an entry in one clock. -/
  | rsInvalidate (rsu bank tag : Nat)
  /-- MOVE_WINDOW (R348). MOVE_WINDOW shifts entries toward a hole to open the target index. -/
  | moveWindow (rsu bank tag : Nat)
  /-- RS_ABORT (R351). RS_CMD ABORT ends a command before its commit, or is held to the end of the window. -/
  | rsAbort (rsu tag : Nat)
  /-- HBM_READ_COMPLETE (R504). An HBM read completes after its alert window, corrected or poisoned. -/
  | hbmReadComplete (channel result : Nat)
  /-- HBM_WRITE_DRAIN (R507). A channel starts draining writes at WR_HI, with no read waiting, or for a due refresh. -/
  | hbmWriteDrain (channel : Nat)
  /-- HBM_PARITY_ALERT (R516). A command parity alert stops the channel and replays its retained commands. -/
  | hbmParityAlert (channel : Nat) (again : Bool)
  /-- HBM_REFRESH (R513). The HBC issues the next per-bank refresh command. -/
  | hbmRefresh (channel : Nat)
  /-- HBM_TEMP_READ (R514). Every 1 ms the HBC reads each stack temperature, enters or leaves the doubled state, and trips at 105 °C. -/
  | hbmTempRead (stack temp : Nat)
  /-- HBM_SCRUB (R521). The scrubber reads a burst and writes back corrected data. -/
  | hbmScrub (stack result : Nat) (superseded : Bool)
  /-- HBM_WINDOW_ACCESS (R523). A register access to the HBC0 window becomes a 4-byte HBM access. -/
  | hbmWindowAccess (offset : Nat) (write : Option Nat)
  /-- PCIE_LINK_TRAIN (R529). The endpoint trains the link at the allowed speed and width, or returns to Detect when only narrower widths are possible. -/
  | pcieLinkTrain (speed lanes : Nat) (reversed : Bool)
  /-- PCIE_RETRAIN (R565). LINK_CTL.RETRAIN retrains the link. -/
  | pcieRetrain
  /-- PCIE_CONFIG_REQUEST (R535). A configuration request is completed, with RRS before endpoint release or during FLR. -/
  | pcieConfigRequest (fn offset enables : Nat) (write : Option Nat)
  /-- PCIE_MEM_WRITE (R547). An inbound memory write to a BAR is accepted in order or rejected. -/
  | pcieMemWrite (fn bar offset : Nat) (words : List Nat) (full poisoned ecrc atomic : Bool)
  /-- PCIE_MEM_READ (R547). An inbound memory read is completed after earlier writes, or with UR or CA. -/
  | pcieMemRead (fn bar offset count : Nat) (full ecrc : Bool)
  /-- PCIE_COMPLETION (R548). A received completion is delivered by tag, or discarded as late, unexpected, poisoned or squashed. -/
  | pcieCompletion (fn tag completer status : Nat) (data : List Byte) (poisoned ecrc : Bool)
  /-- PCIE_COMPLETION_TIMEOUT (R554). A read times out, ends as a host error and its tag is quarantined. -/
  | pcieCompletionTimeout (fn tag : Nat)
  /-- TAG_QUARANTINE_EXPIRY (R554). A quarantined tag slot becomes free after 1 s. -/
  | tagQuarantineExpiry (fn tag : Nat)
  /-- BME_CLEAR (R559). Bus Master Enable going to 0 stops requests, discards posted writes and squashes reads. -/
  | bmeClear (fn posted : Nat)
  /-- FLR_START (R561). An FLR runs the BME actions and shortens read deadlines. -/
  | flrStart (fn posted : Nat)
  /-- FLR_DEADLINE (R560). A read reaches its shortened deadline and its slot goes to quarantine. -/
  | flrDeadline (fn tag : Nat)
  /-- FLR_COMPLETE (R561). When all tags of the function are gone, its configuration, MSI-X table and PBA reset. -/
  | flrComplete (fn : Nat)
  /-- PCIE_HOT_RESET (R564). A hot reset or link loss acts as an FLR of PF0 and PF1. -/
  | pcieHotReset
  /-- PERST (R564). PERST_N low resets the whole endpoint except SUBSYS. -/
  | perst
  /-- VF_ENABLE (R537). Setting VF Enable brings up NumVFs VFs that answer after 1 ms. -/
  | vfEnable (numVfs : Nat)
  /-- VF_REMOVE (R593). Clearing VF Enable or lowering NumVFs drains and removes the VFs. -/
  | vfRemove (numVfs posted : Nat)
  /-- MSIX_UNMASK (R543). Unmasking a pending vector with BME set sends one message and clears the pending bit. -/
  | msixUnmask (fn vec : Nat)
  /-- PCIE_L1_EXIT (R532). A host-path transfer finding the link in L1 waits for the L1 exit. -/
  | pcieL1Exit
  /-- TX_TAIL_WRITE (R571). A TX_TAIL doorbell advances the transmit tail, or is ignored when it overfills the ring. -/
  | txTailWrite (qp index : Nat)
  /-- RX_TAIL_WRITE (R571). An RX_TAIL doorbell posts receive buffers, or is ignored when it overfills the ring. -/
  | rxTailWrite (qp index : Nat)
  /-- CQ_HEAD_WRITE (R571). A CQ_HEAD write releases CQ entries, or is ignored past the device tail. -/
  | cqHeadWrite (qp index : Nat)
  /-- CQ_ARM (R585). CQ_HEAD.ARM arms the queue pair's interrupt. -/
  | cqArm (qp : Nat)
  /-- TX_DESCRIPTOR_FETCH (R576). The device fetches and checks TX descriptors, and halts the queue pair on a bad one. -/
  | txDescriptorFetch (qp : Nat) (descs : Option (List (List Nat)))
  /-- TX_FRAME_COMPLETE (R579). A TX frame whose data reads are complete is offloaded, handed to dealing and completed in the CQ. -/
  | txFrameComplete (qp : Nat)
  /-- RX_FRAME_PLACE (R580). A frame for a queue pair is placed in RX buffers with its CQ entry, or dropped. -/
  | rxFramePlace (descs : Option (List (List Nat))) (entries : List (Option (List Nat))) (logWords : List (Option Nat))
  /-- CQ_MODERATION_TIMEOUT (R585). MOD_US after the first unsignalled entry the armed vector is signalled. -/
  | cqModerationTimeout (qp : Nat)
  /-- MBX_SEND (R573). A VF's SEND copies its request to PF0, sets BUSY and the pending bit. -/
  | mbxSend (vf : Nat)
  /-- VF_MBX_TAKE (R572). The VF's MBX_ACK clears its REPLY bit. -/
  | vfMbxTake (vf : Nat)
  /-- VFM_MBX_ACK (R574). The VFM command MBX_ACK clears BUSY and the pending bit of a VF. -/
  | vfmMbxAck (tag : Nat)
  /-- VFM_MBX_REPLY (R574). MBX_REPLY copies the reply to the VF, sets REPLY and signals its vector. -/
  | vfmMbxReply (tag : Nat)
  /-- ASSIGN_QP (R589). ASSIGN_QP gives a queue pair to a function and local index, or ends IN_USE. -/
  | assignQp (tag : Nat)
  /-- RELEASE_QP (R589). RELEASE_QP unassigns a disabled queue pair. -/
  | releaseQp (tag : Nat)
  /-- VF_FREEZE (R600). FREEZE holds every queue pair of a VF and drops its RX frames. -/
  | vfFreeze (tag : Nat)
  /-- VF_FREEZE_COMPLETE (R600). FREEZE reports DONE once fetched frames, placements and tags of the VF have finished. -/
  | vfFreezeComplete
  /-- VF_UNFREEZE (R602). UNFREEZE resumes the VF and acts on tails written while frozen. -/
  | vfUnfreeze (tag : Nat)
  /-- VF_SAVE (R601). SAVE writes the frozen VF's image, header last. -/
  | vfSave (tag : Nat)
  /-- VF_RESTORE (R602). RESTORE loads a checked image into a frozen VF, or ends BAD_IMAGE. -/
  | vfRestore (tag : Nat) (image : Option (List Byte))
  /-- LOG_START (R595). LOG_START begins dirty-page logging of a VF into buffer A. -/
  | logStart (tag : Nat)
  /-- LOG_SWAP (R599). LOG_SWAP flushes pending log bits and makes the other buffer active. -/
  | logSwap (tag : Nat) (logWords : List (Option Nat))
  /-- LOG_STOP (R599). LOG_STOP flushes pending log bits and ends logging. -/
  | logStop (tag : Nat) (logWords : List (Option Nat))
  /-- VFM_ABORT (R606). The VFM command ABORT ends the running VFM command. -/
  | vfmAbort
  /-- WRITE_CTX (R587). WRITE_CTX loads a disabled queue pair's context, or ends NOT_DISABLED or BAD_CTX. -/
  | writeCtx (tag : Nat)
  /-- READ_CTX (R608). READ_CTX returns the queue pair's context words. -/
  | readCtx (tag : Nat)
  /-- QP_ENABLE (R587). ENABLE starts fetching on doorbells. -/
  | qpEnable (tag : Nat)
  /-- QP_DISABLE (R588). DISABLE stops fetching, ends incomplete frames as DROPPED and enters DRAINING. -/
  | qpDisable (tag : Nat)
  /-- QP_DRAIN_COMPLETE (R587). A draining queue pair whose frames and placements have finished becomes DISABLED. -/
  | qpDrainComplete (qp : Nat)
  /-- QP_ABORT (R587). QP_CMD ABORT ends the running queue-pair command. -/
  | qpAbort
  /-- IPS_ENCRYPT (R623). An ESP outbound pass encrypts a queued frame with the SA's next sequence number. -/
  | ipsEncrypt
  /-- IPS_DECRYPT (R625). An ESP inbound pass checks SA, replay and ICV, and decrypts the frame. -/
  | ipsDecrypt
  /-- IPS_SA_WRITE (R627). SA_CMD WRITE stores an SA, or ends IN_USE for a valid SA. -/
  | ipsSaWrite (tag : Nat)
  /-- IPS_SA_READ (R652). SA_CMD READ returns the SA's SPI, sequence and configuration. -/
  | ipsSaRead (tag : Nat)
  /-- IPS_SA_INVALIDATE (R627). SA_CMD INVALIDATE disables an SA for later frames. -/
  | ipsSaInvalidate (tag : Nat)
  /-- IPS_SA_ABORT (R652). SA_CMD ABORT ends the running SA command. -/
  | ipsSaAbort
  /-- KW_WRAP (R635). WRAP wraps a plaintext key under a KEK slot. -/
  | kwWrap (kek tag : Nat) (len32 : Bool)
  /-- KW_UNWRAP (R635). UNWRAP checks integrity and writes the key to its target, or ends INTEGRITY. -/
  | kwUnwrap (kek target msc tag : Nat) (len32 : Bool)
  /-- KW_CHECK (R635). CHECK unwraps and compares, returning only MATCH. -/
  | kwCheck (kek tag : Nat) (len32 : Bool)
  /-- KW_LOAD_KEK (R634). LOAD_KEK loads a KEK slot 1 to 15, and is refused for slot 0. -/
  | kwLoadKek (kek tag : Nat)
  /-- KW_ABORT (R635). KW_CMD ABORT ends a key-wrap command, or resolves late. -/
  | kwAbort
  /-- NV_WRITE (R650). NV_CMD WRITE stores an NVMe/TCP connection context. -/
  | nvWrite (tag : Nat)
  /-- NV_READ (R650). NV_CMD READ returns a connection context. -/
  | nvRead (tag : Nat)
  /-- NV_RESYNC_RX (R632). RESYNC_RX sets the receive sequence and PDU offset and sets RX_SYNC. -/
  | nvResyncRx (tag : Nat)
  /-- NV_RESYNC_TX (R632). RESYNC_TX sets the transmit sequence and PDU offset and sets TX_SYNC. -/
  | nvResyncTx (tag : Nat)
  /-- BFD_TX_TIMER (R639). A session's jittered transmit interval expires and a control packet is sent. -/
  | bfdTxTimer (session : Nat)
  /-- BFD_RX_PACKET (R640). A received BFD packet restarts detection and is consumed, sets Down, or passes to the processor. -/
  | bfdRxPacket
  /-- BFD_DETECT_TIMEOUT (R641). The detection time passes without a packet and the session goes Down with an event. -/
  | bfdDetectTimeout (session : Nat)
  /-- SESS_WRITE (R643). SESS_CMD WRITE commits a session, conditionally on its state. -/
  | sessWrite (cond : Bool) (expect tag : Nat)
  /-- SESS_READ (R654). SESS_CMD READ returns a session. -/
  | sessRead (tag : Nat)
  /-- SESS_DELETE (R654). SESS_CMD DELETE removes a session. -/
  | sessDelete (tag : Nat)
  /-- TPL_WRITE_SVC (R654). SESS_CMD TPL_WRITE stores a packet template. -/
  | tplWriteSvc (tag : Nat)
  /-- TPL_READ_SVC (R654). SESS_CMD TPL_READ returns a packet template. -/
  | tplReadSvc (tag : Nat)
  /-- EVT_POP (R642). EVT_POP removes the head BFD event. -/
  | evtPop (byHost : Bool)
  /-- IPFIX_UPDATE (R646). A queued flow update reads two candidate entries and writes one, or drops when both hold other flows. -/
  | ipfixUpdate
  /-- IPFIX_SWEEP (R647). The sweeper visits flow entries once a second and exports records on active, idle, FIN or disable. -/
  | ipfixSweep
  /-- IPFIX_TEMPLATE_SEND (R648). Templates 256 and 257 are sent at start and every EXP_TPL_S seconds. -/
  | ipfixTemplateSend
  /-- RESPONDER_FRAME (R649). A SERVICE 2 frame produces an ARP reply or Neighbor Advertisement, or passes to the processor. -/
  | responderFrame
  /-- RSP_WRITE (R654). RSP_CMD WRITE stores a responder entry. -/
  | rspWrite (tag : Nat)
  /-- RSP_READ (R654). RSP_CMD READ returns a responder entry. -/
  | rspRead (tag : Nat)
  /-- RSP_INVALIDATE (R654). RSP_CMD INVALIDATE removes a responder entry. -/
  | rspInvalidate (tag : Nat)
  /-- NT_SET_NOW (R660). SET_NOW loads NT_SET and clears FRAC in one tick. -/
  | ntSetNow
  /-- NT_SET_AT_PPS (R660). SET_AT_PPS makes a set pending for the next PPS_IN edge. -/
  | ntSetAtPps
  /-- NT_SET_FROM_TOD (R660). SET_FROM_TOD makes a set pending for a PPS edge with an accepted ToD message. -/
  | ntSetFromTod
  /-- NT_STEP (R661). STEP adds the signed step, or is ignored when STEP_NS is out of range. -/
  | ntStep
  /-- NT_CANCEL (R660). CANCEL clears a pending set. -/
  | ntCancel
  /-- NTM_VALID_WRITE (R664). A write of NTM_CTL.VALID raises or lowers network-time validity, and a rise fires overdue actions. -/
  | ntmValidWrite (v : Nat)
  /-- NT_NOW_READ (R685). A read of NT_NOW_NS or PPS_CAP_NS latches the seconds and fraction for that requester. -/
  | ntNowRead (who : Nat) (capture : Bool)
  /-- PPS_IN_EDGE (R667). A PPS_IN edge captures network time and applies any pending set. -/
  | ppsInEdge
  /-- PPS_LOSS (R667). No PPS_IN edge for 1.1 s clears PPS_SEEN. -/
  | ppsLoss
  /-- PPS_LOSS_INVALIDATE (R664). No PPS_IN edge for PPS_LOSS_S seconds with PPS_LOSS_INVAL clears VALID. -/
  | ppsLossInvalidate
  /-- PPS_OUT_PULSE (R668). PPS_OUT rises OUT_COMP ns before each second and stays high PPS_WIDTH µs. -/
  | ppsOutPulse
  /-- TOD_TX_MESSAGE (R670). 200 ms after each PPS_OUT edge the device sends a ToD message. -/
  | todTxMessage
  /-- TOD_RX_MESSAGE (R671). A received ToD message is accepted into TOD_RX, or counted as rejected. -/
  | todRxMessage (bytes : List Byte)
  /-- SYNCE_SQUELCH (R673). Loss of CDR lock or link holds the SyncE output low. -/
  | synceSquelch (k : Nat)
  /-- SYNCE_RESUME (R673). 10 ms after lock and link return the SyncE output resumes. -/
  | synceResume (k : Nat)
  /-- TAQ_POST (R676). POST adds a timed action, or ends FULL, LATE, BAD_TYPE or BAD_ADDR. -/
  | taqPost (tag : Nat)
  /-- TAQ_CANCEL (R683). CANCEL removes a pending entry, resolves late, or ends NOT_PENDING. -/
  | taqCancel (index tag : Nat)
  /-- TAQ_READ (R687). READ returns the staged words of a pending entry. -/
  | taqRead (index tag : Nat)
  /-- TAQ_FIRE (R678). An entry reaches its target, fires at its block and retires. -/
  | taqFire
  /-- BON_REPORT_NOW (R704). REPORT_NOW requests a report, or ends BUSY. -/
  | bonReportNow (tag : Nat)
  /-- BON_SELECT_WIN (R710). SELECT_WIN chooses the page and ring index the window shows. -/
  | bonSelectWin (tag : Nat)
  /-- BON_CFG_TAP (R695). CFG_TAP writes a tap entry, or ends LOCKED once sealed. -/
  | bonCfgTap (tag : Nat)
  /-- BON_CFG_REPORT (R695). CFG_REPORT sets the report interval, or ends LOCKED once sealed. -/
  | bonCfgReport (tag : Nat)
  /-- BON_SEAL (R697). SEAL programs the configuration and digest, blows the seal fuse and issues a seal report. -/
  | bonSeal (tag : Nat)
  /-- BON_INTERVAL_REPORT (R704). At a second where SEC mod INTERVAL_S is 0 a report is requested. -/
  | bonIntervalReport
  /-- BON_REPORT_COMPLETE (R706). The signed record is written into the ring and LAST_SEQ set. -/
  | bonReportComplete
  /-- BON_CHANGE_ATTEMPT (R698). A configuration access after sealing is refused and counted in CHANGE_ATTEMPTS. -/
  | bonChangeAttempt
  /-- BON_POWER_UP (R702). BON_VDD rising draws a new session, clears meters and ring, and loads a sealed configuration. -/
  | bonPowerUp (storeGood : Bool)
  /-- SP_GRANT_REQUEST (R716). A verified processor requests the grant and gets it when none is active, or enters SYNC. -/
  | spGrantRequest (sp : Nat)
  /-- SP_HEARTBEAT (R717). The active processor writes HEARTBEAT; other heartbeats are discarded. -/
  | spHeartbeat (sp : Nat)
  /-- SP_HEARTBEAT_TIMEOUT (R718). No heartbeat for 10 ms revokes the grant, holds outputs and grants to a healthy standby. -/
  | spHeartbeatTimeout
  /-- SP_SWITCHOVER (R720). SP_CMD SWITCHOVER revokes the active grant and grants to a healthy standby, or ends ERROR. -/
  | spSwitchover (tag : Nat)
  /-- SP_RESTART_STANDBY (R730). RESTART_STANDBY holds the standby in reset for 1 ms. -/
  | spRestartStandby (tag : Nat)
  /-- SP_RESTART_RELEASE (R716). After its 1 ms hold the restarted processor is released to BOOT. -/
  | spRestartRelease (sp : Nat)
  /-- SP_TAKEOVER_DONE (R721). TAKEOVER_DONE clears OUT_HOLD, applies held cage changes and records the gap. -/
  | spTakeoverDone (sp : Nat)
  /-- SP_TAKEOVER_TIMEOUT (R722). No TAKEOVER_DONE within the takeover time revokes that grant as well. -/
  | spTakeoverTimeout
  /-- SP_HELD_RELEASE (R718). 1 ms after takeover or revocation the held processor is released to BOOT. -/
  | spHeldRelease (sp : Nat)
  /-- SP_SYNC_COMPLETE (R729). State copy and the first Gauntlet pass complete and the processor enters STANDBY. -/
  | spSyncComplete (sp : Nat)
  /-- SP_HEALTH_POST (R727). The standby posts its health word every 100 ms. -/
  | spHealthPost (sp : Nat)
  /-- SP_HEALTH_STALE (R728). No health post for 300 ms drops HEALTHY of the standby. -/
  | spHealthStale (sp : Nat)
  /-- GAUNTLET_STEP (R728). A Gauntlet step completes and a failure is counted and logged. -/
  | gauntletStep (sp : Nat) (passed : Bool)
  /-- FAILSAFE_FAN (R725). After FAILSAFE_S seconds with no active processor, fans run at FAILSAFE_DUTY. -/
  | failsafeFan
  /-- BOOT_SLOT_SELECT (R736). At release from reset the boot ROM checks slots in order and boots one or halts. -/
  | bootSlotSelect (sp : Nat) (flashOk : Bool) (migrated : List Byte)
  /-- FW_STAGE (R744). STAGE writes an image from host memory into a slot and checks it. -/
  | fwStage (slot tag : Nat) (io : FlashIo)
  /-- FW_STAGE_CONFIG (R742). STAGE with SLOT 3 writes a configuration bank and makes it govern, or ends BAD_CONFIG. -/
  | fwStageConfig (tag : Nat) (io : FlashIo)
  /-- FW_VERIFY (R759). VERIFY rechecks a slot and updates SLOT_INFO. -/
  | fwVerify (slot tag : Nat) (flashOk : Bool)
  /-- FW_ARM (R745). ARM marks a checked slot for activation, or ends IN_TRIAL. -/
  | fwArm (slot tag : Nat)
  /-- FW_DISARM (R745). DISARM clears ARMED, or resolves late after the firing. -/
  | fwDisarm (tag : Nat)
  /-- FW_ACTIVATE_NOW (R747). ACTIVATE_NOW triggers activation of the armed slot. -/
  | fwActivateNow (tag : Nat)
  /-- FW_REJECT (R750). REJECT causes a fallback, or resolves late after confirmation. -/
  | fwReject (tag : Nat)
  /-- FW_TRIAL_TIMEOUT (R750). The 900 s trial timer expires and the device falls back. -/
  | fwTrialTimeout
  /-- FW_CONFIRM (R749). Once migration, takeover and a healthy standby hold, the trial image confirms itself. -/
  | fwConfirm
  /-- SVN_ADVANCE (R740). SVN_ADVANCE blows fuse steps up to the running SVN, or ends ERROR. -/
  | svnAdvance (tag : Nat) (flashOk : Bool)
  /-- FLASH_READ (R759). FLASH_READ reads flash from STG_OFF to host memory. -/
  | flashRead (tag : Nat) (flashOk : Bool)
  /-- FWU_ABORT (R744). FWU_CMD ABORT ends the running firmware command. -/
  | fwuAbort (tag : Nat)
  /-- SEC_QUOTE (R755). QUOTE writes a signed attestation record over the nonce. -/
  | secQuote (tag : Nat)
  /-- SEC_CHALLENGE (R757). CHALLENGE writes 32 fresh random bytes. -/
  | secChallenge (tag : Nat)
  /-- SEC_UNLOCK (R758). UNLOCK checks a factory token, erases customer keys and opens factory mode, or ends ERROR. -/
  | secUnlock (tag : Nat)
  /-- OBS_FLUSH (R777). After a common strobe the OBS writes an image of all shadows to the flush slot, or skips it. -/
  | obsFlush
  /-- OBS_FLUSH_COMPLETE (R778). The flush image is written and LAST_SEQ is set. -/
  | obsFlushComplete (dmaOk : Bool)
  /-- BW_WINDOW_END (R782). At each window end the OBS replaces all port bandwidth results and increments BW_SEQ. -/
  | bwWindowEnd
  /-- TRACE_CLEAR (R788). TRACE_CMD CLEAR empties the trace buffer and resumes recording. -/
  | traceClear (tag : Nat)
  /-- TRACE_DUMP (R799). TRACE_CMD DUMP writes the trace buffer to DUMP_ADDR. -/
  | traceDump (tag : Nat) (ends : DmaEnd)
  /-- TRACE_ABORT (R799). TRACE_CMD ABORT ends a running trace command. -/
  | traceAbort (tag : Nat)
  /-- LOG_APPEND (R793). APPEND writes a software entry, or ends BAD_CLASS. -/
  | logAppend (tag : Nat)
  /-- LOG_DUMP (R794). DUMP writes the log entries in sequence order to host memory. -/
  | logDump (tag : Nat) (ends : DmaEnd)
  /-- LOG_ABORT (R801). LOG_CMD ABORT ends a running log command. -/
  | logAbort (tag : Nat)
  /-- LEG_GATHER (R795). Each GATHER_US the central reader copies every LEG entry from its source. -/
  | legGather (late : Bool)
  /-- LEG_ALIAS_READ (R798). A read of an LEG alias returns the increase since its previous read. -/
  | legAliasRead (who entry : Nat)
  /-- DOM_POWER_ON (R811). DOM_CTL.ON = 1 powers a domain up, or is refused. -/
  | domPowerOn (dom : Nat)
  /-- DOM_POWER_OFF (R809). DOM_CTL.ON = 0 isolates and powers a domain down, or is refused. -/
  | domPowerOff (dom : Nat)
  /-- DOM_TRANSITION_COMPLETE (R811). A domain power transition finishes and any held write applies. -/
  | domTransitionComplete (dom : Nat)
  /-- THERM_READ (R831). Every 100 µs the die temperatures are read, WARN is updated and a trip powers domains off. -/
  | thermRead (fd qd : Nat)
  /-- HBM_TRIP_ESCALATE (R832). An HBM trip still present after 30 s forces the device thermal trip. -/
  | hbmTripEscalate
  /-- SYSCLK_LOSS (R819). SYSCLK without edges for 1 µs holds the PLLs and clears SYSCLK_OK. -/
  | sysclkLoss
  /-- REF_OUT_OF_RANGE (R819). A reference beyond PPM_LIMIT from SYSCLK sets CLK cause bit 2. -/
  | refOutOfRange (ref ppm : Nat)
  /-- PLL_LOCK_LOSS (R820). A locked PLL losing lock sets PLL_LOSS and a fatal cause. -/
  | pllLockLoss (pll : Nat)
  /-- PLL_RELOCK (R820). A PLL relocks by itself and CLK cause bit 3 is set. -/
  | pllRelock (pll : Nat)
  /-- POWER_ON_RESET (R824). PWRGOOD rising releases power-on reset, samples straps and begins start-up. -/
  | powerOnReset (fabmode : Bool) (devid : Nat)
  /-- PWRGOOD_FALL (R830). PWRGOOD falling ends any step or reset in a power-on reset. -/
  | pwrgoodFall
  /-- STARTUP_STEP (R824). Start-up reaches its next step and reports it in START_STS. -/
  | startupStep
  /-- STARTUP_FAIL (R827). A failed step stops start-up with a FAIL code. -/
  | startupFail (code : Nat)
  /-- ENDPOINT_RELEASE (R825). At the later of step 4 and 1 ms after PERST_N the endpoint is released with SUBSYS. -/
  | endpointRelease
  /-- WARM_RESET (R829). RST_CMD WARM with the key resets the cleared domains and restarts from step 2, or is refused. -/
  | warmReset (key : Nat)
  /-- STRAP_CHANGE (R823). A live strap level differing from the sampled value sets RST cause bit 3. -/
  | strapChange (fabmode : Bool) (devid : Nat)
  /-- RAIL_FAULT (R836). A rail leaving regulation while PWRGOOD is high sets a fatal PWR cause. -/
  | railFault (rail : Nat)
  /-- JTAG_TRST (R828). TRST_N low resets the JTAG TAP. -/
  | jtagTrst
  /-- PORT_LINK_STATE_CHANGE (R112). A line port's PCS block lock, alignment, FEC lock, HI_SER, fault state or LINK_UP changes with its received stream, and LNP cause bit 1 or 2 is set. -/
  | portLinkStateChange (slot : Nat) (pcs align fec hiSer rf lf : Bool)
  /-- LANE_CDR_LOCK (R150). A line lane detects signal, completes receive adaptation and recovers its clock, setting SIG_DET, ADAPT_DONE and CDR_LOCK. -/
  | laneCdrLock (lane ctle snr : Nat)
  /-- PRBS_CHECKER_LOCK (R150). The PRBS checker of a lane gains or loses lock on the received pattern and reports CHK_LOCK. -/
  | prbsCheckerLock (lane : Nat) (locked : Bool) (errs : Nat)
  /-- PAUSE_TIME_EXPIRY (R121). The pause time of a received PAUSE or PFC frame runs out, and the port or priority leaves TX_PAUSED. -/
  | pauseTimeExpiry (slot prio : Nat)
  /-- LPI_RX_CHANGE (R152). The link partner starts or stops sending low-power idle, which changes LPI_RX and counts RX_LPI_EVENTS. -/
  | lpiRxChange (slot : Nat) (on : Bool)
  /-- ASPM_L1_ENTRY (R532). The PCIe link enters ASPM L1 and LINK_STS.L1 is set. -/
  | aspmL1Entry
  /-- BON_VDD_LOSS (R815). BON_VDD falls, the Bonnet isolates itself and stops, and its meters and ring are lost until the next power-up. -/
  | bonVddLoss
  /-- SYSCLK_RESTORE (R819). SYSCLK edges return, the PLLs follow the reference again and REF_STS.SYSCLK_OK is set. -/
  | sysclkRestore
  /-- PERST_RELEASE (R825). PERST_N rises, which takes the endpoint out of reset, applies SRNS and starts the 1 ms before endpoint release. -/
  | perstRelease
  /-- TOD_OK_TIMEOUT (R685). No ToD message has been accepted for 1.1 s, and NTM_STS.TOD_OK falls. -/
  | todOkTimeout
  deriving DecidableEq, Repr

end Sys2Proof
end

