-- ==== Sys2Proof/Machine/Tbl.lean ====
section
/-! DEFINITION. Machine/Tbl.lean: sparse tables keyed by a number, kept as lists with strictly rising keys, and the
plain bit-field arithmetic that the register file uses. -/

namespace Sys2Proof.Machine

/-- A sparse table: pairs of a key and a value, keys strictly rising. -/
abbrev Tbl (α : Type) := List (Nat × α)

/-- The value at a key, or none. -/
def tget {α : Type} : Tbl α → Nat → Option α
  | [], _ => none
  | (k, v) :: t, q => if k = q then some v else tget t q

/-- The table without the entry at a key. -/
def tdel {α : Type} : Tbl α → Nat → Tbl α
  | [], _ => []
  | (k, v) :: t, q => if k = q then tdel t q else (k, v) :: tdel t q

/-- An entry put in its place by key. -/
def tins {α : Type} (q : Nat) (x : α) : Tbl α → Tbl α
  | [] => [(q, x)]
  | (k, v) :: t => if q < k then (q, x) :: (k, v) :: t else (k, v) :: tins q x t

/-- The table with the value at a key replaced. -/
def tset {α : Type} (t : Tbl α) (q : Nat) (x : α) : Tbl α := tins q x (tdel t q)

/-- The value at a key, or a default where the table lists none. -/
def tgetD {α : Type} (t : Tbl α) (q : Nat) (d : α) : α := (tget t q).getD d

/-- The table with an optional value: none removes the entry. -/
def tput {α : Type} (t : Tbl α) (q : Nat) : Option α → Tbl α
  | none => tdel t q
  | some x => tset t q x

/-- Keys strictly rising. -/
def tsorted {α : Type} : Tbl α → Bool
  | [] => true
  | [_] => true
  | (a, _) :: (b, y) :: t => decide (a < b) && tsorted ((b, y) :: t)

/-- The list with the element at an index replaced (unchanged where the index is past the end). -/
def lset {α : Type} : List α → Nat → α → List α
  | [], _, _ => []
  | _ :: t, 0, x => x :: t
  | y :: t, n + 1, x => y :: lset t n x

/-- Bits [lo + w - 1 : lo] of a number. -/
def bits (v lo w : Nat) : Nat := (v / 2 ^ lo) % 2 ^ w

/-- Bit b of a number is 1. -/
def bit (v b : Nat) : Bool := (v / 2 ^ b) % 2 = 1

/-- A number with bit b set. -/
def setBit (v b : Nat) : Nat := if bit v b then v else v + 2 ^ b

/-- A number with bit b cleared. -/
def clrBit (v b : Nat) : Nat := if bit v b then v - 2 ^ b else v

/-- A number with bit b set or cleared. -/
def putBit (v b : Nat) (x : Bool) : Nat := if x then setBit v b else clrBit v b

/-- One for true and zero for false. -/
def b2n (b : Bool) : Nat := if b then 1 else 0

/-- The two's-complement value of the low w bits of a number. -/
def signedOf (w v : Nat) : Int :=
  if v % 2 ^ w < 2 ^ (w - 1) then ((v % 2 ^ w : Nat) : Int) else ((v % 2 ^ w : Nat) : Int) - ((2 ^ w : Nat) : Int)

/-- The low w bits of the two's-complement form of an integer. -/
def unsignedOf (w : Nat) (x : Int) : Nat := (x % ((2 ^ w : Nat) : Int)).toNat

/-- The bits of a number that another number has at 1. -/
def andBits (a b : Nat) : Nat := Nat.land a b

/-- The bits at 1 in either number. -/
def orBits (a b : Nat) : Nat := Nat.lor a b

/-- The bits of the first number that are 0 in the second. -/
def andNot (a b : Nat) : Nat := a - Nat.land a b

/-- A count with 1 added, held at a limit. -/
def satAdd (v k max : Nat) : Nat := if v + k ≤ max then v + k else max

end Sys2Proof.Machine
end

