-- ==== Sys2Proof/Machine/Fld.lean ====
section
/-! DEFINITION. Machine/Fld.lean: what a register field is: its offset, bits, access code (R7) and reset value. -/

namespace Sys2Proof.Machine

/-- The access codes of R7. `cnt` is a 64-bit LO/HI counter pair (R57 to R59) held as one number at the LO offset, and
`ctr` a read-only counter of one word: both read as RO and both clear at a soft reset (R864). `res` is a word of a result
set (R60) and `alias` a word of its clear-on-read alias (R63). -/
inductive Acc where
  | rw | ro | w1c | w1s | rc | wo | cnt | ctr | res
  deriving DecidableEq, Repr

/-- Where a field's reset value depends on its page or index (the register tables' special entries). -/
inductive RstVar where
  | const       -- the field's own constant
  | vecMap      -- R68
  | laneFirst   -- 8c for c < 32 (R176)
  | laneCnt     -- 8 for c < 32 (R176)
  | clsSeed     -- R267
  | rsuWidth    -- R352
  | carve       -- R390, line mode; fabric mode is written at start-up (R357)
  | index       -- the index itself: SPRAY_ORDER (R486), DIR_W1.INDEX (R65)
  | tbound      -- R488
  | regRate     -- R499
  | domCtl      -- R835
  deriving DecidableEq, Repr

/-- A register field: offset of its register, low bit, width, reset value, access code; for an array of registers the
number of elements and the distance between them. -/
structure Fld where
  off : Nat
  lo : Nat
  w : Nat
  rst : Nat
  acc : Acc
  n : Nat
  stride : Nat
  var : RstVar
  deriving DecidableEq, Repr

/-- The offset of element i of a field. -/
def Fld.at_ (f : Fld) (i : Nat) : Nat := f.off + f.stride * i

/-- The store key of element i of field f of page p: the page, the offset and the low bit. -/
def Fld.key (p : Nat) (f : Fld) (i : Nat) : Nat := p * 2097152 + (f.off + f.stride * i) * 32 + f.lo

/-- The reset value of element i of field f of page p. -/
def Fld.rstAt (p : Nat) (f : Fld) (i : Nat) : Nat :=
  match f.var with
  | .const => f.rst
  | .vecMap =>
    let b (k : Nat) : Nat := 0xC0 + ((4 * i + k) % 64)
    b 0 + b 1 * 256 + b 2 * 65536 + b 3 * 16777216
  | .laneFirst => if i < 32 then 8 * i else 0
  | .laneCnt => if i < 32 then 8 else 0
  | .clsSeed =>
    match i with
    | 0 => 0xFFFFFFFF
    | 1 => 0x13579BDF
    | 2 => 0x2468ACE0
    | _ => 0x0F1E2D3C
  | .rsuWidth => if p = 0x92 then 1 else if p = 0x93 then 2 else 0
  | .carve => if i = 0 then 32 else if i = 1 then 64 else 96
  | .index => i
  | .tbound => if i = 7 then 0x28 else 0xA0
  | .regRate => if i < 2 then 28000 else if i < 4 then 3500 else 500
  | .domCtl => if i = 0 ∨ i = 1 ∨ i = 2 ∨ i = 21 ∨ i = 22 ∨ i = 23 then 1 else 0

/-- The four fields of a result set's first word and its fifteen data words (R60). -/
def resFields (off n stride : Nat) : List Fld :=
  [⟨off, 0, 4, 0, .res, n, stride, .const⟩, ⟨off, 16, 8, 0, .res, n, stride, .const⟩,
   ⟨off, 30, 1, 0, .res, n, stride, .const⟩, ⟨off, 31, 1, 0, .res, n, stride, .const⟩] ++
  (List.range 15).map fun k => ⟨off + 4 + 4 * k, 0, 32, 0, .res, n, stride, .const⟩

/-- A result set: the offset of its RES_STS word, for element i of an array of them. -/
structure ResSet where
  off : Nat
  n : Nat
  stride : Nat
  deriving DecidableEq, Repr

def ResSet.status (r : ResSet) : Fld := ⟨r.off, 0, 4, 0, .res, r.n, r.stride, .const⟩
def ResSet.tag (r : ResSet) : Fld := ⟨r.off, 16, 8, 0, .res, r.n, r.stride, .const⟩
def ResSet.late (r : ResSet) : Fld := ⟨r.off, 30, 1, 0, .res, r.n, r.stride, .const⟩
def ResSet.valid (r : ResSet) : Fld := ⟨r.off, 31, 1, 0, .res, r.n, r.stride, .const⟩
/-- Data word k of the set, k = 1 to 15. -/
def ResSet.word (r : ResSet) (k : Nat) : Fld := ⟨r.off + 4 * k, 0, 32, 0, .res, r.n, r.stride, .const⟩

end Sys2Proof.Machine
end

