-- ==== Sys2Proof/Machine/RegsHost.lean ====
section
/-! DEFINITION. Machine/RegsHost.lean: the register fields of the host and service pages (R565, R606, R608, R610, R650, R652, R654),
one definition per field with its offset, low bit, width, reset value, access code, element count and stride, as the
page's register table gives them. -/

namespace Sys2Proof.Machine

namespace PCE
def LINK_CTL_MAX_SPEED : Fld := ⟨0x100, 0, 3, 0x4, .rw, 1, 4, .const⟩
def LINK_CTL_MAX_X8 : Fld := ⟨0x100, 4, 1, 0x0, .rw, 1, 4, .const⟩
def LINK_CTL_RETRAIN : Fld := ⟨0x100, 5, 1, 0x0, .wo, 1, 4, .const⟩
def LINK_STS_SPEED : Fld := ⟨0x104, 0, 3, 0x0, .ro, 1, 4, .const⟩
def LINK_STS_WIDTH : Fld := ⟨0x104, 4, 4, 0x0, .ro, 1, 4, .const⟩
def LINK_STS_FLIT : Fld := ⟨0x104, 8, 1, 0x0, .ro, 1, 4, .const⟩
def LINK_STS_LINK_UP : Fld := ⟨0x104, 9, 1, 0x0, .ro, 1, 4, .const⟩
def LINK_STS_REVERSED : Fld := ⟨0x104, 10, 1, 0x0, .ro, 1, 4, .const⟩
def LINK_STS_L1 : Fld := ⟨0x104, 11, 1, 0x0, .ro, 1, 4, .const⟩
def CPL_TMO_STS_FLR_CAP_MS : Fld := ⟨0x108, 0, 8, 0x37, .ro, 1, 4, .const⟩
def CPL_TMO_STS_QUAR_S : Fld := ⟨0x108, 8, 8, 0x1, .ro, 1, 4, .const⟩
def TAG_STS_OUTSTANDING : Fld := ⟨0x10C, 0, 13, 0x0, .ro, 1, 4, .const⟩
def TAG_STS_QUARANTINED : Fld := ⟨0x10C, 16, 13, 0x0, .ro, 1, 4, .const⟩
def TAG_CFG_MGMT_RSV : Fld := ⟨0x110, 0, 12, 0x100, .rw, 1, 4, .const⟩
def ORD_CTL_DATA_RO : Fld := ⟨0x114, 0, 1, 0x1, .rw, 1, 4, .const⟩
def FN_STS_PF0_BME : Fld := ⟨0x118, 0, 1, 0x0, .ro, 1, 4, .const⟩
def FN_STS_PF1_BME : Fld := ⟨0x118, 1, 1, 0x0, .ro, 1, 4, .const⟩
def FN_STS_PF0_D3 : Fld := ⟨0x118, 2, 1, 0x0, .ro, 1, 4, .const⟩
def FN_STS_PF1_D3 : Fld := ⟨0x118, 3, 1, 0x0, .ro, 1, 4, .const⟩
def FN_STS_NUM_VFS : Fld := ⟨0x118, 16, 11, 0x0, .ro, 1, 4, .const⟩
def FLR_STS_PF0_BUSY : Fld := ⟨0x11C, 0, 1, 0x0, .ro, 1, 4, .const⟩
def FLR_STS_PF1_BUSY : Fld := ⟨0x11C, 1, 1, 0x0, .ro, 1, 4, .const⟩
def FLR_STS_VF_BUSY_CNT : Fld := ⟨0x11C, 2, 11, 0x0, .ro, 1, 4, .const⟩
def FLR_MAX_US : Fld := ⟨0x120, 0, 16, 0x0, .rc, 1, 4, .const⟩
def SUBSYS_SVID : Fld := ⟨0x124, 0, 16, 0x0, .rw, 1, 4, .const⟩
def SUBSYS_SSID : Fld := ⟨0x124, 16, 16, 0x0, .rw, 1, 4, .const⟩
def UNEXP_CAP0_REQ_ID : Fld := ⟨0x130, 0, 16, 0x0, .ro, 1, 4, .const⟩
def UNEXP_CAP0_TAG : Fld := ⟨0x130, 16, 14, 0x0, .ro, 1, 4, .const⟩
def UNEXP_CAP0_VALID : Fld := ⟨0x130, 31, 1, 0x0, .w1c, 1, 4, .const⟩
def UNEXP_CAP1_CPL_ID : Fld := ⟨0x134, 0, 16, 0x0, .ro, 1, 4, .const⟩
def UNEXP_CAP1_STATUS : Fld := ⟨0x134, 16, 3, 0x0, .ro, 1, 4, .const⟩
def PCE_CNT : Fld := ⟨0x200, 0, 64, 0x0, .cnt, 13, 8, .const⟩
/-- Fields of the PCE page, part 1. -/
def map1 : List Fld := [LINK_CTL_MAX_SPEED, LINK_CTL_MAX_X8, LINK_CTL_RETRAIN, LINK_STS_SPEED, LINK_STS_WIDTH, LINK_STS_FLIT, LINK_STS_LINK_UP, LINK_STS_REVERSED, LINK_STS_L1, CPL_TMO_STS_FLR_CAP_MS, CPL_TMO_STS_QUAR_S, TAG_STS_OUTSTANDING, TAG_STS_QUARANTINED, TAG_CFG_MGMT_RSV, ORD_CTL_DATA_RO, FN_STS_PF0_BME, FN_STS_PF1_BME, FN_STS_PF0_D3, FN_STS_PF1_D3, FN_STS_NUM_VFS, FLR_STS_PF0_BUSY, FLR_STS_PF1_BUSY, FLR_STS_VF_BUSY_CNT, FLR_MAX_US]
/-- Fields of the PCE page, part 2. -/
def map2 : List Fld := [SUBSYS_SVID, SUBSYS_SSID, UNEXP_CAP0_REQ_ID, UNEXP_CAP0_TAG, UNEXP_CAP0_VALID, UNEXP_CAP1_CPL_ID, UNEXP_CAP1_STATUS, PCE_CNT]
/-- Every field of the PCE page beyond the common layout. -/
def map : List Fld := map1 ++ map2
end PCE

namespace VFM
def FN_SEL_FN : Fld := ⟨0x100, 0, 11, 0x0, .rw, 1, 4, .const⟩
def FN_RATE_MBPS : Fld := ⟨0x104, 0, 22, 0x0, .rw, 1, 4, .const⟩
def FN_MBX_VEC_VEC : Fld := ⟨0x108, 0, 6, 0x0, .rw, 1, 4, .const⟩
def FN_STS_QPS : Fld := ⟨0x10C, 0, 14, 0x0, .ro, 1, 4, .const⟩
def FN_STS_FROZEN : Fld := ⟨0x10C, 16, 1, 0x0, .ro, 1, 4, .const⟩
def FN_STS_LOGGING : Fld := ⟨0x10C, 17, 1, 0x0, .ro, 1, 4, .const⟩
def FN_STS_ACTIVE_BUF : Fld := ⟨0x10C, 18, 1, 0x0, .ro, 1, 4, .const⟩
def FN_STS_BUSY : Fld := ⟨0x10C, 19, 1, 0x0, .ro, 1, 4, .const⟩
def LOG_LO_LO : Fld := ⟨0x110, 0, 32, 0x0, .rw, 1, 4, .const⟩
def LOG_LO_HI : Fld := ⟨0x114, 0, 32, 0x0, .rw, 1, 4, .const⟩
def LOG_PAGES_COUNT : Fld := ⟨0x118, 0, 28, 0x0, .rw, 1, 4, .const⟩
def LOG_A_LO : Fld := ⟨0x120, 0, 32, 0x0, .rw, 1, 4, .const⟩
def LOG_A_HI : Fld := ⟨0x124, 0, 32, 0x0, .rw, 1, 4, .const⟩
def LOG_B_LO : Fld := ⟨0x128, 0, 32, 0x0, .rw, 1, 4, .const⟩
def LOG_B_HI : Fld := ⟨0x12C, 0, 32, 0x0, .rw, 1, 4, .const⟩
def LOG_SEQ_SWAPS : Fld := ⟨0x130, 0, 16, 0x0, .ro, 1, 4, .const⟩
def CMD_FN_FN : Fld := ⟨0x140, 0, 11, 0x0, .rw, 1, 4, .const⟩
def CMD_QP_QP : Fld := ⟨0x144, 0, 13, 0x0, .rw, 1, 4, .const⟩
def CMD_LOCAL_INDEX : Fld := ⟨0x148, 0, 6, 0x0, .rw, 1, 4, .const⟩
def CMD_ADDR_LO : Fld := ⟨0x150, 0, 32, 0x0, .rw, 1, 4, .const⟩
def CMD_ADDR_HI : Fld := ⟨0x154, 0, 32, 0x0, .rw, 1, 4, .const⟩
def VFM_CMD_OP : Fld := ⟨0x160, 0, 4, 0x0, .wo, 1, 4, .const⟩
def VFM_CMD_TAG : Fld := ⟨0x160, 8, 8, 0x0, .wo, 1, 4, .const⟩
def VFM_RES : ResSet := ⟨0x180, 1, 0⟩
def MBX_SEL_VF : Fld := ⟨0x200, 0, 11, 0x0, .rw, 1, 4, .const⟩
def MBX_IN_DATA : Fld := ⟨0x204, 0, 32, 0x0, .ro, 8, 4, .const⟩
def MBX_REPLY_DATA : Fld := ⟨0x224, 0, 32, 0x0, .rw, 8, 4, .const⟩
def MBX_PEND_VFS : Fld := ⟨0x300, 0, 32, 0x0, .w1c, 32, 4, .const⟩
def VFM_CNT : Fld := ⟨0x400, 0, 64, 0x0, .cnt, 5, 8, .const⟩
/-- Fields of the VFM page, part 1. -/
def map1 : List Fld := [FN_SEL_FN, FN_RATE_MBPS, FN_MBX_VEC_VEC, FN_STS_QPS, FN_STS_FROZEN, FN_STS_LOGGING, FN_STS_ACTIVE_BUF, FN_STS_BUSY, LOG_LO_LO, LOG_LO_HI, LOG_PAGES_COUNT, LOG_A_LO, LOG_A_HI, LOG_B_LO, LOG_B_HI, LOG_SEQ_SWAPS, CMD_FN_FN, CMD_QP_QP, CMD_LOCAL_INDEX, CMD_ADDR_LO, CMD_ADDR_HI, VFM_CMD_OP, VFM_CMD_TAG, MBX_SEL_VF]
/-- Fields of the VFM page, part 2. -/
def map2 : List Fld := [MBX_IN_DATA, MBX_REPLY_DATA, MBX_PEND_VFS, VFM_CNT]
/-- Every field of the VFM page beyond the common layout. -/
def map : List Fld := map1 ++ map2 ++ resFields VFM_RES.off VFM_RES.n VFM_RES.stride
end VFM

namespace DMA
def QP_SEL_QP : Fld := ⟨0x100, 0, 13, 0x0, .rw, 1, 4, .const⟩
def QP_OWNER_FN : Fld := ⟨0x104, 0, 11, 0x0, .ro, 1, 4, .const⟩
def QP_OWNER_ASSIGNED : Fld := ⟨0x104, 16, 1, 0x0, .ro, 1, 4, .const⟩
def QP_OWNER_LOCAL : Fld := ⟨0x104, 24, 6, 0x0, .ro, 1, 4, .const⟩
def QP_STATE_STATE : Fld := ⟨0x108, 0, 3, 0x0, .ro, 1, 4, .const⟩
def CTX_W_WORD : Fld := ⟨0x120, 0, 32, 0x0, .rw, 9, 4, .const⟩
def QP_CMD_OP : Fld := ⟨0x150, 0, 3, 0x0, .wo, 1, 4, .const⟩
def QP_CMD_TAG : Fld := ⟨0x150, 8, 8, 0x0, .wo, 1, 4, .const⟩
def QP_RES : ResSet := ⟨0x180, 1, 0⟩
def DMA_QP_CNT : Fld := ⟨0x300, 0, 64, 0x0, .cnt, 8, 8, .const⟩
def DMA_CNT : Fld := ⟨0x400, 0, 64, 0x0, .cnt, 4, 8, .const⟩
/-- Fields of the DMA page, part 1. -/
def map1 : List Fld := [QP_SEL_QP, QP_OWNER_FN, QP_OWNER_ASSIGNED, QP_OWNER_LOCAL, QP_STATE_STATE, CTX_W_WORD, QP_CMD_OP, QP_CMD_TAG, DMA_QP_CNT, DMA_CNT]
/-- Every field of the DMA page beyond the common layout. -/
def map : List Fld := map1 ++ resFields QP_RES.off QP_RES.n QP_RES.stride
end DMA

namespace WAK
def WAK_CTL_PF0_EN : Fld := ⟨0x100, 0, 1, 0x0, .rw, 1, 4, .const⟩
def WAK_CTL_PF1_EN : Fld := ⟨0x100, 1, 1, 0x0, .rw, 1, 4, .const⟩
def WAK_STS_LAST : Fld := ⟨0x104, 0, 6, 0x0, .ro, 1, 4, .const⟩
def WAK_STS_HIT0 : Fld := ⟨0x104, 8, 1, 0x0, .w1c, 1, 4, .const⟩
def WAK_STS_HIT1 : Fld := ⟨0x104, 9, 1, 0x0, .w1c, 1, 4, .const⟩
def WAK_CNT : Fld := ⟨0x200, 0, 64, 0x0, .cnt, 3, 8, .const⟩
def MASK_BYTES : Fld := ⟨0x8000, 0, 32, 0x0, .rw, 2048, 4, .const⟩
def PAT_CFG_VALID : Fld := ⟨0xA000, 0, 1, 0x0, .rw, 64, 4, .const⟩
def PAT_CFG_MIN_LEN : Fld := ⟨0xA000, 8, 7, 0x0, .rw, 64, 4, .const⟩
def PAT_CFG_CRC : Fld := ⟨0xA000, 16, 16, 0x0, .rw, 64, 4, .const⟩
/-- Fields of the WAK page, part 1. -/
def map1 : List Fld := [WAK_CTL_PF0_EN, WAK_CTL_PF1_EN, WAK_STS_LAST, WAK_STS_HIT0, WAK_STS_HIT1, WAK_CNT, MASK_BYTES, PAT_CFG_VALID, PAT_CFG_MIN_LEN, PAT_CFG_CRC]
/-- Every field of the WAK page beyond the common layout. -/
def map : List Fld := map1
end WAK

namespace OFL
def NV_SEL_CONN : Fld := ⟨0x100, 0, 12, 0x0, .rw, 1, 4, .const⟩
def NV_W_WORD : Fld := ⟨0x110, 0, 32, 0x0, .rw, 7, 4, .const⟩
def NV_CMD_OP : Fld := ⟨0x140, 0, 3, 0x0, .wo, 1, 4, .const⟩
def NV_CMD_TAG : Fld := ⟨0x140, 8, 8, 0x0, .wo, 1, 4, .const⟩
def NV_RES : ResSet := ⟨0x180, 1, 0⟩
def OFL_CNT : Fld := ⟨0x200, 0, 64, 0x0, .cnt, 7, 8, .const⟩
def PROFILE : Fld := ⟨0x8000, 0, 32, 0x0, .rw, 8192, 4, .const⟩
/-- Fields of the OFL page, part 1. -/
def map1 : List Fld := [NV_SEL_CONN, NV_W_WORD, NV_CMD_OP, NV_CMD_TAG, OFL_CNT, PROFILE]
/-- Every field of the OFL page beyond the common layout. -/
def map : List Fld := map1 ++ resFields NV_RES.off NV_RES.n NV_RES.stride
end OFL

namespace IPS
def IPS_CTL_HOST_W : Fld := ⟨0x100, 0, 8, 0x1, .rw, 1, 4, .const⟩
def IPS_CTL_TRANSIT_W : Fld := ⟨0x100, 8, 8, 0x1, .rw, 1, 4, .const⟩
def IPS_STS_HOST_FULL : Fld := ⟨0x104, 0, 1, 0x0, .ro, 1, 4, .const⟩
def IPS_STS_TRANSIT_FULL : Fld := ⟨0x104, 1, 1, 0x0, .ro, 1, 4, .const⟩
def SA_SEL_SA : Fld := ⟨0x110, 0, 16, 0x0, .rw, 1, 4, .const⟩
def SA_KEY_KEY : Fld := ⟨0x114, 0, 32, 0x0, .wo, 8, 4, .const⟩
def SA_SALT_SALT : Fld := ⟨0x134, 0, 32, 0x0, .wo, 1, 4, .const⟩
def SA_SPI_SPI : Fld := ⟨0x138, 0, 32, 0x0, .rw, 1, 4, .const⟩
def SA_SEQ_LO : Fld := ⟨0x13C, 0, 32, 0x0, .rw, 1, 4, .const⟩
def SA_SEQ_HI : Fld := ⟨0x140, 0, 32, 0x0, .rw, 1, 4, .const⟩
def SA_CFG_VALID : Fld := ⟨0x144, 0, 1, 0x0, .rw, 1, 4, .const⟩
def SA_CFG_OUT : Fld := ⟨0x144, 1, 1, 0x0, .rw, 1, 4, .const⟩
def SA_CFG_AES256 : Fld := ⟨0x144, 2, 1, 0x0, .rw, 1, 4, .const⟩
def SA_CFG_ESN : Fld := ⟨0x144, 3, 1, 0x0, .rw, 1, 4, .const⟩
def SA_CFG_TUNNEL : Fld := ⟨0x144, 4, 1, 0x0, .rw, 1, 4, .const⟩
def SA_CFG_TPL_PROFILE : Fld := ⟨0x144, 5, 8, 0x0, .rw, 1, 4, .const⟩
def SA_CFG_LOOP_QP : Fld := ⟨0x144, 13, 13, 0x0, .rw, 1, 4, .const⟩
def SA_CFG2_START_KEY : Fld := ⟨0x148, 0, 16, 0x0, .rw, 1, 4, .const⟩
def SA_CFG2_SEQ_THR : Fld := ⟨0x148, 16, 8, 0xE0, .rw, 1, 4, .const⟩
def SA_CMD_OP : Fld := ⟨0x160, 0, 3, 0x0, .wo, 1, 4, .const⟩
def SA_CMD_TAG : Fld := ⟨0x160, 8, 8, 0x0, .wo, 1, 4, .const⟩
def SA_RES : ResSet := ⟨0x180, 1, 0⟩
def KEK_SEL_SLOT : Fld := ⟨0x200, 0, 4, 0x0, .rw, 1, 4, .const⟩
def KEK_DATA_KEY : Fld := ⟨0x204, 0, 32, 0x0, .wo, 8, 4, .const⟩
def KEK_CFG_VALID : Fld := ⟨0x224, 0, 1, 0x0, .ro, 1, 4, .const⟩
def KEK_CFG_EXPORT : Fld := ⟨0x224, 1, 1, 0x0, .rw, 1, 4, .const⟩
def KW_IN_DATA : Fld := ⟨0x240, 0, 32, 0x0, .rw, 18, 4, .const⟩
def KW_CMD_OP : Fld := ⟨0x290, 0, 3, 0x0, .wo, 1, 4, .const⟩
def KW_CMD_KEK : Fld := ⟨0x290, 4, 4, 0x0, .wo, 1, 4, .const⟩
def KW_CMD_TARGET : Fld := ⟨0x290, 8, 2, 0x0, .wo, 1, 4, .const⟩
def KW_CMD_MSC : Fld := ⟨0x290, 10, 4, 0x0, .wo, 1, 4, .const⟩
def KW_CMD_LEN32 : Fld := ⟨0x290, 14, 1, 0x0, .wo, 1, 4, .const⟩
def KW_CMD_TAG : Fld := ⟨0x290, 16, 8, 0x0, .wo, 1, 4, .const⟩
def KW_RES : ResSet := ⟨0x2C0, 1, 0⟩
def IPS_CNT : Fld := ⟨0x300, 0, 64, 0x0, .cnt, 8, 8, .const⟩
/-- Fields of the IPS page, part 1. -/
def map1 : List Fld := [IPS_CTL_HOST_W, IPS_CTL_TRANSIT_W, IPS_STS_HOST_FULL, IPS_STS_TRANSIT_FULL, SA_SEL_SA, SA_KEY_KEY, SA_SALT_SALT, SA_SPI_SPI, SA_SEQ_LO, SA_SEQ_HI, SA_CFG_VALID, SA_CFG_OUT, SA_CFG_AES256, SA_CFG_ESN, SA_CFG_TUNNEL, SA_CFG_TPL_PROFILE, SA_CFG_LOOP_QP, SA_CFG2_START_KEY, SA_CFG2_SEQ_THR, SA_CMD_OP, SA_CMD_TAG, KEK_SEL_SLOT, KEK_DATA_KEY, KEK_CFG_VALID]
/-- Fields of the IPS page, part 2. -/
def map2 : List Fld := [KEK_CFG_EXPORT, KW_IN_DATA, KW_CMD_OP, KW_CMD_KEK, KW_CMD_TARGET, KW_CMD_MSC, KW_CMD_LEN32, KW_CMD_TAG, IPS_CNT]
/-- Every field of the IPS page beyond the common layout. -/
def map : List Fld := map1 ++ map2 ++ resFields SA_RES.off SA_RES.n SA_RES.stride ++ resFields KW_RES.off KW_RES.n KW_RES.stride
end IPS

namespace SVC
def SVC_CTL_BFD_EN : Fld := ⟨0x100, 0, 1, 0x0, .rw, 1, 4, .const⟩
def SVC_CTL_IPFIX_EN : Fld := ⟨0x100, 1, 1, 0x0, .rw, 1, 4, .const⟩
def SVC_CTL_RSP_EN : Fld := ⟨0x100, 2, 1, 0x0, .rw, 1, 4, .const⟩
def SVC_CTL_EVT_HOST : Fld := ⟨0x100, 3, 1, 0x0, .rw, 1, 4, .const⟩
def BFD_DISC_HI_DISC : Fld := ⟨0x104, 0, 16, 0x0, .rw, 1, 4, .const⟩
def BFD_UP_COUNT : Fld := ⟨0x108, 0, 17, 0x0, .ro, 1, 4, .const⟩
def SESS_IDX_INDEX : Fld := ⟨0x10C, 0, 16, 0x0, .rw, 1, 4, .const⟩
def SESS_W_WORD : Fld := ⟨0x110, 0, 32, 0x0, .rw, 20, 4, .const⟩
def SESS_CMD_OP : Fld := ⟨0x160, 0, 3, 0x0, .wo, 1, 4, .const⟩
def SESS_CMD_COND : Fld := ⟨0x160, 3, 1, 0x0, .wo, 1, 4, .const⟩
def SESS_CMD_EXPECT : Fld := ⟨0x160, 4, 2, 0x0, .wo, 1, 4, .const⟩
def SESS_CMD_TAG : Fld := ⟨0x160, 8, 8, 0x0, .wo, 1, 4, .const⟩
def SESS_RES : ResSet := ⟨0x180, 1, 0⟩
def EVT_HEAD_SESSION : Fld := ⟨0x1C0, 0, 16, 0x0, .ro, 1, 4, .const⟩
def EVT_HEAD_OLD : Fld := ⟨0x1C0, 16, 2, 0x0, .ro, 1, 4, .const⟩
def EVT_HEAD_NEW : Fld := ⟨0x1C0, 18, 2, 0x0, .ro, 1, 4, .const⟩
def EVT_HEAD_DIAG : Fld := ⟨0x1C0, 20, 5, 0x0, .ro, 1, 4, .const⟩
def EVT_HEAD_VALID : Fld := ⟨0x1C0, 31, 1, 0x0, .ro, 1, 4, .const⟩
def EVT_NS_NS : Fld := ⟨0x1C4, 0, 30, 0x0, .ro, 1, 4, .const⟩
def EVT_SEC_SEC : Fld := ⟨0x1C8, 0, 32, 0x0, .ro, 1, 4, .const⟩
def EVT_POP_POP : Fld := ⟨0x1CC, 0, 1, 0x0, .wo, 1, 4, .const⟩
def EVT_LEVEL_COUNT : Fld := ⟨0x1D0, 0, 9, 0x0, .ro, 1, 4, .const⟩
def FLOW_BASE_LO : Fld := ⟨0x200, 0, 32, 0x0, .rw, 1, 4, .const⟩
def FLOW_BASE_HI : Fld := ⟨0x204, 0, 32, 0x0, .rw, 1, 4, .const⟩
def FLOW_TMO_ACTIVE_S : Fld := ⟨0x208, 0, 16, 0x3C, .rw, 1, 4, .const⟩
def FLOW_TMO_IDLE_S : Fld := ⟨0x208, 16, 16, 0xF, .rw, 1, 4, .const⟩
def FLOW_KEY_SRC : Fld := ⟨0x20C, 0, 6, 0x0, .rw, 1, 4, .const⟩
def FLOW_KEY_DST : Fld := ⟨0x20C, 8, 6, 0x0, .rw, 1, 4, .const⟩
def FLOW_KEY_L4 : Fld := ⟨0x20C, 16, 6, 0x0, .rw, 1, 4, .const⟩
def FLOW_KEY_PROTO : Fld := ⟨0x20C, 24, 6, 0x0, .rw, 1, 4, .const⟩
def EXP_CFG_MTU : Fld := ⟨0x210, 0, 14, 0x5DC, .rw, 1, 4, .const⟩
def EXP_CFG_EXP_TPL : Fld := ⟨0x210, 16, 12, 0x0, .rw, 1, 4, .const⟩
def EXP_Q_QID : Fld := ⟨0x214, 0, 19, 0x0, .rw, 1, 4, .const⟩
def EXP_Q_DPORT : Fld := ⟨0x214, 19, 8, 0x0, .rw, 1, 4, .const⟩
def EXP_ODID_ODID : Fld := ⟨0x218, 0, 32, 0x0, .rw, 1, 4, .const⟩
def EXP_TPL_S_SEC : Fld := ⟨0x21C, 0, 16, 0x258, .rw, 1, 4, .const⟩
def FLOW_CNT_COUNT : Fld := ⟨0x220, 0, 23, 0x0, .ro, 1, 4, .const⟩
def SVC_CNT : Fld := ⟨0x280, 0, 64, 0x0, .cnt, 12, 8, .const⟩
def RSP_IDX_INDEX : Fld := ⟨0x300, 0, 13, 0x0, .rw, 1, 4, .const⟩
def RSP_W_WORD : Fld := ⟨0x304, 0, 32, 0x0, .rw, 7, 4, .const⟩
def RSP_CMD_OP : Fld := ⟨0x324, 0, 2, 0x0, .wo, 1, 4, .const⟩
def RSP_CMD_TAG : Fld := ⟨0x324, 8, 8, 0x0, .wo, 1, 4, .const⟩
def RSP_RES : ResSet := ⟨0x340, 1, 0⟩
def OBS_CFG_SAMPLE_N : Fld := ⟨0x400, 0, 16, 0x400, .rw, 256, 4, .const⟩
def OBS_CFG_EN : Fld := ⟨0x400, 16, 1, 0x0, .rw, 256, 4, .const⟩
def RSP_Q_QID : Fld := ⟨0xC00, 0, 19, 0x0, .rw, 256, 4, .const⟩
/-- Fields of the SVC page, part 1. -/
def map1 : List Fld := [SVC_CTL_BFD_EN, SVC_CTL_IPFIX_EN, SVC_CTL_RSP_EN, SVC_CTL_EVT_HOST, BFD_DISC_HI_DISC, BFD_UP_COUNT, SESS_IDX_INDEX, SESS_W_WORD, SESS_CMD_OP, SESS_CMD_COND, SESS_CMD_EXPECT, SESS_CMD_TAG, EVT_HEAD_SESSION, EVT_HEAD_OLD, EVT_HEAD_NEW, EVT_HEAD_DIAG, EVT_HEAD_VALID, EVT_NS_NS, EVT_SEC_SEC, EVT_POP_POP, EVT_LEVEL_COUNT, FLOW_BASE_LO, FLOW_BASE_HI, FLOW_TMO_ACTIVE_S]
/-- Fields of the SVC page, part 2. -/
def map2 : List Fld := [FLOW_TMO_IDLE_S, FLOW_KEY_SRC, FLOW_KEY_DST, FLOW_KEY_L4, FLOW_KEY_PROTO, EXP_CFG_MTU, EXP_CFG_EXP_TPL, EXP_Q_QID, EXP_Q_DPORT, EXP_ODID_ODID, EXP_TPL_S_SEC, FLOW_CNT_COUNT, SVC_CNT, RSP_IDX_INDEX, RSP_W_WORD, RSP_CMD_OP, RSP_CMD_TAG, OBS_CFG_SAMPLE_N, OBS_CFG_EN, RSP_Q_QID]
/-- Every field of the SVC page beyond the common layout. -/
def map : List Fld := map1 ++ map2 ++ resFields SESS_RES.off SESS_RES.n SESS_RES.stride ++ resFields RSP_RES.off RSP_RES.n RSP_RES.stride
end SVC

end Sys2Proof.Machine
end

