-- ==== Sys2Proof/Machine/RegsInfra.lean ====
section
/-! DEFINITION. Machine/RegsInfra.lean: the register fields of the common layout (R52) and the CRWN, PWR, CLK, RST and BAND pages (R65, R835, R837, R839, R23),
one definition per field with its offset, low bit, width, reset value, access code, element count and stride, as the
page's register table gives them. -/

namespace Sys2Proof.Machine

namespace COMMON
def PAGE_ID_CODE : Fld := ⟨0x0, 16, 16, 0x0, .ro, 1, 4, .const⟩
def PAGE_ID_INSTANCE : Fld := ⟨0x0, 8, 8, 0x0, .ro, 1, 4, .const⟩
def PAGE_ID_LAYOUT : Fld := ⟨0x0, 0, 8, 0x1, .ro, 1, 4, .const⟩
def PAGE_REV_MINOR : Fld := ⟨0x4, 0, 8, 0x0, .ro, 1, 4, .const⟩
def PAGE_REV_MAJOR : Fld := ⟨0x4, 8, 8, 0x1, .ro, 1, 4, .const⟩
def PAGE_CAP_CAP : Fld := ⟨0x8, 0, 32, 0x0, .ro, 1, 4, .const⟩
def PAGE_SCRATCH_SCRATCH : Fld := ⟨0xC, 0, 32, 0x0, .rw, 1, 4, .const⟩
def PAGE_CTL_ENABLE : Fld := ⟨0x10, 0, 1, 0x0, .rw, 1, 4, .const⟩
def PAGE_CTL_SOFT_RESET : Fld := ⟨0x10, 1, 1, 0x0, .w1s, 1, 4, .const⟩
def PAGE_CTL_FREEZE : Fld := ⟨0x10, 2, 1, 0x0, .rw, 1, 4, .const⟩
def PAGE_CTL_SNAP_EN : Fld := ⟨0x10, 3, 1, 0x1, .rw, 1, 4, .const⟩
def PAGE_STS_READY : Fld := ⟨0x14, 0, 1, 0x0, .ro, 1, 4, .const⟩
def PAGE_STS_BUSY : Fld := ⟨0x14, 1, 1, 0x0, .ro, 1, 4, .const⟩
def PAGE_STS_ERR : Fld := ⟨0x14, 2, 1, 0x0, .ro, 1, 4, .const⟩
def INT_CAUSE_CAUSE : Fld := ⟨0x20, 0, 16, 0x0, .w1c, 1, 4, .const⟩
def INT_MASK_MASK : Fld := ⟨0x24, 0, 16, 0xFFFF, .rw, 1, 4, .const⟩
def INT_FORCE_FORCE : Fld := ⟨0x28, 0, 16, 0x0, .w1s, 1, 4, .const⟩
def INT_SEVERITY_SEV : Fld := ⟨0x2C, 0, 32, 0x0, .ro, 1, 4, .const⟩
def FIRST_ERR_CAUSE_NUM : Fld := ⟨0x30, 0, 4, 0x0, .ro, 1, 4, .const⟩
def FIRST_ERR_EVENT : Fld := ⟨0x30, 8, 8, 0x0, .ro, 1, 4, .const⟩
def FIRST_ERR_VALID : Fld := ⟨0x30, 31, 1, 0x0, .w1c, 1, 4, .const⟩
def FIRST_ERR_NT_NS : Fld := ⟨0x34, 0, 30, 0x0, .ro, 1, 4, .const⟩
def FIRST_ERR_NT_SEC : Fld := ⟨0x34, 30, 2, 0x0, .ro, 1, 4, .const⟩
def SNAP_CTL_LOCAL_STROBE : Fld := ⟨0x40, 0, 1, 0x0, .wo, 1, 4, .const⟩
def SNAP_CTL_HOLD : Fld := ⟨0x40, 1, 1, 0x0, .rw, 1, 4, .const⟩
def SNAP_SEQ_SEQ : Fld := ⟨0x44, 0, 16, 0x0, .ro, 1, 4, .const⟩
def SNAP_SEQ_VALID : Fld := ⟨0x44, 31, 1, 0x0, .ro, 1, 4, .const⟩
def SNAP_NT_LO_NS : Fld := ⟨0x48, 0, 30, 0x0, .ro, 1, 4, .const⟩
def SNAP_NT_HI_SEC : Fld := ⟨0x4C, 0, 32, 0x0, .ro, 1, 4, .const⟩
def CYC_CNT : Fld := ⟨0x80, 0, 64, 0x0, .cnt, 1, 4, .const⟩
def PMC : Fld := ⟨0x88, 0, 48, 0x0, .cnt, 8, 8, .const⟩
def PMC_SEL_EVENT : Fld := ⟨0xC8, 0, 10, 0x0, .rw, 8, 4, .const⟩
def PMC_SEL_ENABLE : Fld := ⟨0xC8, 16, 1, 0x0, .rw, 8, 4, .const⟩
def PMC_SEL_CHAIN : Fld := ⟨0xC8, 17, 1, 0x0, .rw, 8, 4, .const⟩
def PMC_SEL_OVF : Fld := ⟨0xC8, 24, 1, 0x0, .w1c, 8, 4, .const⟩
def CNT_CTL_CLEAR_ALL : Fld := ⟨0xF0, 0, 1, 0x0, .wo, 1, 4, .const⟩
/-- Fields of the COMMON page, part 1. -/
def map1 : List Fld := [PAGE_ID_CODE, PAGE_ID_INSTANCE, PAGE_ID_LAYOUT, PAGE_REV_MINOR, PAGE_REV_MAJOR, PAGE_CAP_CAP, PAGE_SCRATCH_SCRATCH, PAGE_CTL_ENABLE, PAGE_CTL_SOFT_RESET, PAGE_CTL_FREEZE, PAGE_CTL_SNAP_EN, PAGE_STS_READY, PAGE_STS_BUSY, PAGE_STS_ERR, INT_CAUSE_CAUSE, INT_MASK_MASK, INT_FORCE_FORCE, INT_SEVERITY_SEV, FIRST_ERR_CAUSE_NUM, FIRST_ERR_EVENT, FIRST_ERR_VALID, FIRST_ERR_NT_NS, FIRST_ERR_NT_SEC, SNAP_CTL_LOCAL_STROBE]
/-- Fields of the COMMON page, part 2. -/
def map2 : List Fld := [SNAP_CTL_HOLD, SNAP_SEQ_SEQ, SNAP_SEQ_VALID, SNAP_NT_LO_NS, SNAP_NT_HI_SEC, CYC_CNT, PMC, PMC_SEL_EVENT, PMC_SEL_ENABLE, PMC_SEL_CHAIN, PMC_SEL_OVF, CNT_CTL_CLEAR_ALL]
/-- Every field of the COMMON page (every page holds these, R52). -/
def map : List Fld := map1 ++ map2
end COMMON

namespace CRWN
def DEV_ID_PART : Fld := ⟨0x100, 0, 16, 0x5120, .ro, 1, 4, .const⟩
def DEV_ID_STEPPING : Fld := ⟨0x100, 16, 8, 0x0, .ro, 1, 4, .const⟩
def DEV_MODE_FABRIC : Fld := ⟨0x104, 0, 1, 0x0, .ro, 1, 4, .const⟩
def DEV_MODE_DEVICE_NUM : Fld := ⟨0x104, 16, 12, 0x0, .ro, 1, 4, .const⟩
def DEV_SERIAL_LO_SERIAL : Fld := ⟨0x108, 0, 32, 0x0, .ro, 1, 4, .const⟩
def DEV_SERIAL_HI_SERIAL : Fld := ⟨0x10C, 0, 32, 0x0, .ro, 1, 4, .const⟩
def DIR_COUNT_COUNT : Fld := ⟨0x110, 0, 11, 0xA0, .ro, 1, 4, .const⟩
def STROBE_CTL_FIRE : Fld := ⟨0x120, 0, 1, 0x0, .wo, 1, 4, .const⟩
def STROBE_CTL_PIN_EN : Fld := ⟨0x120, 1, 1, 0x0, .rw, 1, 4, .const⟩
def STROBE_CTL_TAQ_EN : Fld := ⟨0x120, 2, 1, 0x1, .rw, 1, 4, .const⟩
def STROBE_CTL_FABRIC_EN : Fld := ⟨0x120, 3, 1, 0x0, .rw, 1, 4, .const⟩
def STROBE_CTL_OUT_EN : Fld := ⟨0x120, 4, 1, 0x0, .rw, 1, 4, .const⟩
def STROBE_SEQ_SEQ : Fld := ⟨0x124, 0, 16, 0x0, .ro, 1, 4, .const⟩
def GFREEZE_FREEZE_ALL : Fld := ⟨0x128, 0, 1, 0x0, .rw, 1, 4, .const⟩
def UNMAP_CNT_COUNT : Fld := ⟨0x140, 0, 32, 0x0, .rc, 1, 4, .const⟩
def INT_GCTL_HOST_EN : Fld := ⟨0x144, 0, 1, 0x0, .rw, 1, 4, .const⟩
def INT_GCTL_SP_EN : Fld := ⟨0x144, 1, 1, 0x1, .rw, 1, 4, .const⟩
def INT_GCTL_FATAL_VEC : Fld := ⟨0x144, 8, 6, 0x0, .rw, 1, 4, .const⟩
def SEV_SUM_CORR : Fld := ⟨0x148, 0, 1, 0x0, .ro, 1, 4, .const⟩
def SEV_SUM_UNCORR : Fld := ⟨0x148, 1, 1, 0x0, .ro, 1, 4, .const⟩
def SEV_SUM_FATAL : Fld := ⟨0x148, 2, 1, 0x0, .ro, 1, 4, .const⟩
def INT_REARM_VECTOR : Fld := ⟨0x14C, 0, 6, 0x0, .wo, 1, 4, .const⟩
def INT_SUM_PAGES : Fld := ⟨0x200, 0, 32, 0x0, .ro, 32, 4, .const⟩
def VEC_MAP_MAP : Fld := ⟨0x300, 0, 32, 0x0, .rw, 256, 4, .vecMap⟩
def DIR_W0_ID : Fld := ⟨0x8000, 0, 32, 0x0, .ro, 1024, 8, .const⟩
def DIR_W1_INDEX : Fld := ⟨0x8004, 0, 10, 0x0, .ro, 1024, 8, .index⟩
def DIR_W1_PRESENT : Fld := ⟨0x8004, 16, 1, 0x0, .ro, 1024, 8, .const⟩
def DIR_W1_POWERED : Fld := ⟨0x8004, 17, 1, 0x0, .ro, 1024, 8, .const⟩
def DIR_W1_DIE : Fld := ⟨0x8004, 18, 1, 0x0, .ro, 1024, 8, .const⟩
def DIR_W1_DOMAIN : Fld := ⟨0x8004, 19, 5, 0x0, .ro, 1024, 8, .const⟩
/-- Fields of the CRWN page, part 1. -/
def map1 : List Fld := [DEV_ID_PART, DEV_ID_STEPPING, DEV_MODE_FABRIC, DEV_MODE_DEVICE_NUM, DEV_SERIAL_LO_SERIAL, DEV_SERIAL_HI_SERIAL, DIR_COUNT_COUNT, STROBE_CTL_FIRE, STROBE_CTL_PIN_EN, STROBE_CTL_TAQ_EN, STROBE_CTL_FABRIC_EN, STROBE_CTL_OUT_EN, STROBE_SEQ_SEQ, GFREEZE_FREEZE_ALL, UNMAP_CNT_COUNT, INT_GCTL_HOST_EN, INT_GCTL_SP_EN, INT_GCTL_FATAL_VEC, SEV_SUM_CORR, SEV_SUM_UNCORR, SEV_SUM_FATAL, INT_REARM_VECTOR, INT_SUM_PAGES, VEC_MAP_MAP]
/-- Fields of the CRWN page, part 2. -/
def map2 : List Fld := [DIR_W0_ID, DIR_W1_INDEX, DIR_W1_PRESENT, DIR_W1_POWERED, DIR_W1_DIE, DIR_W1_DOMAIN]
/-- Every field of the CRWN page beyond the common layout. -/
def map : List Fld := map1 ++ map2
end CRWN

namespace PWR
def DOM_CTL_ON : Fld := ⟨0x100, 0, 1, 0x0, .rw, 24, 4, .domCtl⟩
def DOM_STS_POWERED : Fld := ⟨0x180, 0, 1, 0x0, .ro, 24, 4, .const⟩
def DOM_STS_BUSY : Fld := ⟨0x180, 1, 1, 0x0, .ro, 24, 4, .const⟩
def DOM_STS_HELD_OFF : Fld := ⟨0x180, 2, 1, 0x0, .ro, 24, 4, .const⟩
def TEMP_FD_C : Fld := ⟨0x200, 0, 8, 0x0, .ro, 1, 4, .const⟩
def TEMP_QD_C : Fld := ⟨0x200, 8, 8, 0x0, .ro, 1, 4, .const⟩
def THERM_CFG_TJ_WARN : Fld := ⟨0x204, 0, 8, 0x69, .rw, 1, 4, .const⟩
def THERM_CFG_TJ_TRIP : Fld := ⟨0x204, 8, 8, 0x73, .rw, 1, 4, .const⟩
def THERM_STS_WARN : Fld := ⟨0x208, 0, 1, 0x0, .ro, 1, 4, .const⟩
def THERM_STS_TRIPPED : Fld := ⟨0x208, 1, 1, 0x0, .ro, 1, 4, .const⟩
def TEMP_PEAK_FD_C : Fld := ⟨0x20C, 0, 8, 0x0, .rc, 1, 4, .const⟩
def TEMP_PEAK_QD_C : Fld := ⟨0x20C, 8, 8, 0x0, .rc, 1, 4, .const⟩
def RAIL_STS_IN_REG : Fld := ⟨0x210, 0, 8, 0x0, .ro, 1, 4, .const⟩
def PWR_CNT : Fld := ⟨0x220, 0, 64, 0x0, .cnt, 5, 8, .const⟩
/-- Fields of the PWR page, part 1. -/
def map1 : List Fld := [DOM_CTL_ON, DOM_STS_POWERED, DOM_STS_BUSY, DOM_STS_HELD_OFF, TEMP_FD_C, TEMP_QD_C, THERM_CFG_TJ_WARN, THERM_CFG_TJ_TRIP, THERM_STS_WARN, THERM_STS_TRIPPED, TEMP_PEAK_FD_C, TEMP_PEAK_QD_C, RAIL_STS_IN_REG, PWR_CNT]
/-- Every field of the PWR page beyond the common layout. -/
def map : List Fld := map1
end PWR

namespace CLK
def REF_STS_SYSCLK_OK : Fld := ⟨0x100, 0, 1, 0x0, .ro, 1, 4, .const⟩
def REF_STS_LREF_OK : Fld := ⟨0x100, 1, 1, 0x0, .ro, 1, 4, .const⟩
def REF_STS_FREF_OK : Fld := ⟨0x100, 2, 1, 0x0, .ro, 1, 4, .const⟩
def REF_STS_PCIE_OK : Fld := ⟨0x100, 3, 1, 0x0, .ro, 1, 4, .const⟩
def PLL_STS_LOCKED : Fld := ⟨0x104, 0, 8, 0x0, .ro, 1, 4, .const⟩
def PLL_LOSS_LOST : Fld := ⟨0x108, 0, 8, 0x0, .w1c, 1, 4, .const⟩
def REF_PPM_PPM : Fld := ⟨0x110, 0, 16, 0x0, .ro, 3, 4, .const⟩
def REF_CFG_PPM_LIMIT : Fld := ⟨0x120, 0, 8, 0xC8, .rw, 1, 4, .const⟩
def PCIE_CLK_CFG_SRNS : Fld := ⟨0x124, 0, 1, 0x0, .rw, 1, 4, .const⟩
/-- Fields of the CLK page, part 1. -/
def map1 : List Fld := [REF_STS_SYSCLK_OK, REF_STS_LREF_OK, REF_STS_FREF_OK, REF_STS_PCIE_OK, PLL_STS_LOCKED, PLL_LOSS_LOST, REF_PPM_PPM, REF_CFG_PPM_LIMIT, PCIE_CLK_CFG_SRNS]
/-- Every field of the CLK page beyond the common layout. -/
def map : List Fld := map1
end CLK

namespace RST
def RST_CMD_OP : Fld := ⟨0x100, 0, 2, 0x0, .wo, 1, 4, .const⟩
def RST_CMD_KEY : Fld := ⟨0x100, 16, 16, 0x0, .wo, 1, 4, .const⟩
def START_STS_STEP : Fld := ⟨0x104, 0, 3, 0x0, .ro, 1, 4, .const⟩
def START_STS_DONE : Fld := ⟨0x104, 8, 1, 0x0, .ro, 1, 4, .const⟩
def START_STS_EP_RELEASED : Fld := ⟨0x104, 9, 1, 0x0, .ro, 1, 4, .const⟩
def START_STS_FAIL : Fld := ⟨0x104, 12, 4, 0x0, .ro, 1, 4, .const⟩
def RST_CAUSE_POR : Fld := ⟨0x108, 0, 1, 0x1, .ro, 1, 4, .const⟩
def RST_CAUSE_WARM : Fld := ⟨0x108, 1, 1, 0x0, .ro, 1, 4, .const⟩
def RST_CAUSE_THERMAL : Fld := ⟨0x108, 2, 1, 0x0, .ro, 1, 4, .const⟩
def START_MS_MS : Fld := ⟨0x10C, 0, 16, 0x0, .ro, 1, 4, .const⟩
def STRAP_RAW_FABMODE : Fld := ⟨0x110, 0, 1, 0x0, .ro, 1, 4, .const⟩
def STRAP_RAW_DEVID : Fld := ⟨0x110, 16, 12, 0x0, .ro, 1, 4, .const⟩
def WARM_CNT_COUNT : Fld := ⟨0x114, 0, 16, 0x0, .ctr, 1, 4, .const⟩
/-- Fields of the RST page, part 1. -/
def map1 : List Fld := [RST_CMD_OP, RST_CMD_KEY, START_STS_STEP, START_STS_DONE, START_STS_EP_RELEASED, START_STS_FAIL, RST_CAUSE_POR, RST_CAUSE_WARM, RST_CAUSE_THERMAL, START_MS_MS, STRAP_RAW_FABMODE, STRAP_RAW_DEVID, WARM_CNT_COUNT]
/-- Every field of the RST page beyond the common layout. -/
def map : List Fld := map1
end RST

namespace BAND
def BAND_CTL_RETRY_LIMIT : Fld := ⟨0x100, 0, 4, 0x8, .rw, 1, 4, .const⟩
def BAND_CTL_VC0_STRICT : Fld := ⟨0x100, 4, 1, 0x1, .rw, 1, 4, .const⟩
def BAND_CTL_RETRAIN : Fld := ⟨0x100, 5, 1, 0x0, .wo, 1, 4, .const⟩
def BAND_STS_UP : Fld := ⟨0x104, 0, 1, 0x0, .ro, 1, 4, .const⟩
def BAND_STS_RETRAINING : Fld := ⟨0x104, 1, 1, 0x0, .ro, 1, 4, .const⟩
def BAND_STS_FAILED : Fld := ⟨0x104, 2, 1, 0x0, .ro, 1, 4, .const⟩
def BAND_VC_WEIGHT_VC1_W : Fld := ⟨0x108, 0, 8, 0x40, .rw, 1, 4, .const⟩
def BAND_VC_WEIGHT_VC2_W : Fld := ⟨0x108, 8, 8, 0x20, .rw, 1, 4, .const⟩
def BAND_VC_WEIGHT_VC3_W : Fld := ⟨0x108, 16, 8, 0x8, .rw, 1, 4, .const⟩
def BAND_VC_WEIGHT_VC4_W : Fld := ⟨0x108, 24, 8, 0x4, .rw, 1, 4, .const⟩
def CRC_ERR_FQ : Fld := ⟨0x110, 0, 64, 0x0, .cnt, 1, 4, .const⟩
def CRC_ERR_QF : Fld := ⟨0x118, 0, 64, 0x0, .cnt, 1, 4, .const⟩
def REPLAY_CNT : Fld := ⟨0x120, 0, 64, 0x0, .cnt, 1, 4, .const⟩
def RETRAIN_CNT_COUNT : Fld := ⟨0x128, 0, 16, 0x0, .ctr, 1, 4, .const⟩
/-- Fields of the BAND page, part 1. -/
def map1 : List Fld := [BAND_CTL_RETRY_LIMIT, BAND_CTL_VC0_STRICT, BAND_CTL_RETRAIN, BAND_STS_UP, BAND_STS_RETRAINING, BAND_STS_FAILED, BAND_VC_WEIGHT_VC1_W, BAND_VC_WEIGHT_VC2_W, BAND_VC_WEIGHT_VC3_W, BAND_VC_WEIGHT_VC4_W, CRC_ERR_FQ, CRC_ERR_QF, REPLAY_CNT, RETRAIN_CNT_COUNT]
/-- Every field of the BAND page beyond the common layout. -/
def map : List Fld := map1
end BAND

end Sys2Proof.Machine
end

