-- ==== Sys2Proof/Machine/RegsLine.lean ====
section
/-! DEFINITION. Machine/RegsLine.lean: the register fields of the LNP, MSC, CAGE and LFU pages (R150, R152, R153, R176, R224, R225),
one definition per field with its offset, low bit, width, reset value, access code, element count and stride, as the
page's register table gives them. -/

namespace Sys2Proof.Machine

namespace LNP
def LANE_CTL_RATE : Fld := ⟨0x100, 0, 3, 0x0, .rw, 16, 64, .const⟩
def LANE_CTL_TX_EN : Fld := ⟨0x100, 3, 1, 0x0, .rw, 16, 64, .const⟩
def LANE_CTL_RX_EN : Fld := ⟨0x100, 4, 1, 0x0, .rw, 16, 64, .const⟩
def LANE_CTL_TX_INV : Fld := ⟨0x100, 5, 1, 0x0, .rw, 16, 64, .const⟩
def LANE_CTL_RX_INV : Fld := ⟨0x100, 6, 1, 0x0, .rw, 16, 64, .const⟩
def LANE_CTL_SQUELCH : Fld := ⟨0x100, 7, 1, 0x0, .rw, 16, 64, .const⟩
def LANE_CTL_LOOPBACK : Fld := ⟨0x100, 8, 2, 0x0, .rw, 16, 64, .const⟩
def LANE_CTL_LT_EN : Fld := ⟨0x100, 10, 1, 0x0, .rw, 16, 64, .const⟩
def LANE_CTL_ADAPT : Fld := ⟨0x100, 11, 1, 0x0, .wo, 16, 64, .const⟩
def LANE_STS_SIG_DET : Fld := ⟨0x104, 0, 1, 0x0, .ro, 16, 64, .const⟩
def LANE_STS_CDR_LOCK : Fld := ⟨0x104, 1, 1, 0x0, .ro, 16, 64, .const⟩
def LANE_STS_ADAPT_DONE : Fld := ⟨0x104, 2, 1, 0x0, .ro, 16, 64, .const⟩
def LANE_STS_SQUELCHED : Fld := ⟨0x104, 3, 1, 0x0, .ro, 16, 64, .const⟩
def LANE_STS_CAGE_SQ : Fld := ⟨0x104, 4, 1, 0x0, .ro, 16, 64, .const⟩
def LANE_STS_LT_DONE : Fld := ⟨0x104, 5, 1, 0x0, .ro, 16, 64, .const⟩
def LANE_STS_LT_FAIL : Fld := ⟨0x104, 6, 1, 0x0, .ro, 16, 64, .const⟩
def TX_FIR_PRE2 : Fld := ⟨0x108, 0, 5, 0x0, .rw, 16, 64, .const⟩
def TX_FIR_PRE1 : Fld := ⟨0x108, 8, 5, 0x0, .rw, 16, 64, .const⟩
def TX_FIR_MAIN : Fld := ⟨0x108, 16, 6, 0x3F, .rw, 16, 64, .const⟩
def TX_FIR_POST1 : Fld := ⟨0x108, 24, 5, 0x0, .rw, 16, 64, .const⟩
def RX_EQ_STS_CTLE : Fld := ⟨0x10C, 0, 5, 0x0, .ro, 16, 64, .const⟩
def RX_EQ_STS_SNR : Fld := ⟨0x10C, 16, 8, 0x0, .ro, 16, 64, .const⟩
def PRBS_CTL_GEN_PAT : Fld := ⟨0x110, 0, 4, 0x0, .rw, 16, 64, .const⟩
def PRBS_CTL_GEN_EN : Fld := ⟨0x110, 4, 1, 0x0, .rw, 16, 64, .const⟩
def PRBS_CTL_CHK_PAT : Fld := ⟨0x110, 8, 4, 0x0, .rw, 16, 64, .const⟩
def PRBS_CTL_CHK_EN : Fld := ⟨0x110, 12, 1, 0x0, .rw, 16, 64, .const⟩
def PRBS_CTL_CHK_LOCK : Fld := ⟨0x110, 16, 1, 0x0, .ro, 16, 64, .const⟩
def PRBS_ERR : Fld := ⟨0x114, 0, 64, 0x0, .cnt, 16, 64, .const⟩
def PORT_CFG_MODE : Fld := ⟨0x500, 0, 2, 0x0, .rw, 16, 32, .const⟩
def PORT_CFG_WIDTH : Fld := ⟨0x500, 2, 2, 0x0, .rw, 16, 32, .const⟩
def PORT_CFG_SPEED : Fld := ⟨0x500, 4, 4, 0x0, .rw, 16, 32, .const⟩
def PORT_CFG_FEC : Fld := ⟨0x500, 8, 3, 0x0, .rw, 16, 32, .const⟩
def PORT_CFG_APPLY : Fld := ⟨0x500, 16, 1, 0x0, .wo, 16, 32, .const⟩
def PORT_STS_PCS_LOCK : Fld := ⟨0x504, 0, 1, 0x0, .ro, 16, 32, .const⟩
def PORT_STS_ALIGN : Fld := ⟨0x504, 1, 1, 0x0, .ro, 16, 32, .const⟩
def PORT_STS_FEC_LOCK : Fld := ⟨0x504, 2, 1, 0x0, .ro, 16, 32, .const⟩
def PORT_STS_HI_SER : Fld := ⟨0x504, 3, 1, 0x0, .ro, 16, 32, .const⟩
def PORT_STS_LINK_UP : Fld := ⟨0x504, 4, 1, 0x0, .ro, 16, 32, .const⟩
def PORT_STS_DEGRADE : Fld := ⟨0x504, 5, 1, 0x0, .ro, 16, 32, .const⟩
def PORT_STS_RF : Fld := ⟨0x504, 6, 1, 0x0, .ro, 16, 32, .const⟩
def PORT_STS_LF : Fld := ⟨0x504, 7, 1, 0x0, .ro, 16, 32, .const⟩
def FEC_CORR : Fld := ⟨0x508, 0, 64, 0x0, .cnt, 16, 32, .const⟩
def FEC_UNCORR : Fld := ⟨0x510, 0, 64, 0x0, .cnt, 16, 32, .const⟩
def FEC_SYM : Fld := ⟨0x518, 0, 64, 0x0, .cnt, 16, 32, .const⟩
def SER_WINDOW_CW : Fld := ⟨0x700, 0, 16, 0x8, .rw, 1, 4, .const⟩
def DEG_SET_COUNT : Fld := ⟨0x704, 0, 32, 0x1000, .rw, 1, 4, .const⟩
def DEG_CLR_COUNT : Fld := ⟨0x708, 0, 32, 0x400, .rw, 1, 4, .const⟩
/-- Fields of the LNP page, part 1. -/
def map1 : List Fld := [LANE_CTL_RATE, LANE_CTL_TX_EN, LANE_CTL_RX_EN, LANE_CTL_TX_INV, LANE_CTL_RX_INV, LANE_CTL_SQUELCH, LANE_CTL_LOOPBACK, LANE_CTL_LT_EN, LANE_CTL_ADAPT, LANE_STS_SIG_DET, LANE_STS_CDR_LOCK, LANE_STS_ADAPT_DONE, LANE_STS_SQUELCHED, LANE_STS_CAGE_SQ, LANE_STS_LT_DONE, LANE_STS_LT_FAIL, TX_FIR_PRE2, TX_FIR_PRE1, TX_FIR_MAIN, TX_FIR_POST1, RX_EQ_STS_CTLE, RX_EQ_STS_SNR, PRBS_CTL_GEN_PAT, PRBS_CTL_GEN_EN]
/-- Fields of the LNP page, part 2. -/
def map2 : List Fld := [PRBS_CTL_CHK_PAT, PRBS_CTL_CHK_EN, PRBS_CTL_CHK_LOCK, PRBS_ERR, PORT_CFG_MODE, PORT_CFG_WIDTH, PORT_CFG_SPEED, PORT_CFG_FEC, PORT_CFG_APPLY, PORT_STS_PCS_LOCK, PORT_STS_ALIGN, PORT_STS_FEC_LOCK, PORT_STS_HI_SER, PORT_STS_LINK_UP, PORT_STS_DEGRADE, PORT_STS_RF, PORT_STS_LF, FEC_CORR, FEC_UNCORR, FEC_SYM, SER_WINDOW_CW, DEG_SET_COUNT, DEG_CLR_COUNT]
/-- Every field of the LNP page beyond the common layout. -/
def map : List Fld := map1 ++ map2
end LNP

namespace MSC
def MAC_CTL_RX_EN : Fld := ⟨0x100, 0, 1, 0x0, .rw, 16, 64, .const⟩
def MAC_CTL_TX_EN : Fld := ⟨0x100, 1, 1, 0x0, .rw, 16, 64, .const⟩
def MAC_CTL_TX_PAD : Fld := ⟨0x100, 2, 1, 0x1, .rw, 16, 64, .const⟩
def MAC_CTL_LPI_EN : Fld := ⟨0x100, 3, 1, 0x0, .rw, 16, 64, .const⟩
def MAC_CTL_CBS_EN : Fld := ⟨0x100, 8, 8, 0x0, .rw, 16, 64, .const⟩
def MAC_CTL_MAX_FRAME : Fld := ⟨0x100, 16, 14, 0x2400, .rw, 16, 64, .const⟩
def MAC_STS_LINK : Fld := ⟨0x104, 0, 1, 0x0, .ro, 16, 64, .const⟩
def MAC_STS_TX_PAUSED : Fld := ⟨0x104, 1, 1, 0x0, .ro, 16, 64, .const⟩
def MAC_STS_WD_ACTIVE : Fld := ⟨0x104, 2, 1, 0x0, .ro, 16, 64, .const⟩
def MAC_STS_LPI_RX : Fld := ⟨0x104, 3, 1, 0x0, .ro, 16, 64, .const⟩
def MAC_STS_LPI_TX : Fld := ⟨0x104, 4, 1, 0x0, .ro, 16, 64, .const⟩
def MAC_STS_PREEMPT_ACTIVE : Fld := ⟨0x104, 5, 1, 0x0, .ro, 16, 64, .const⟩
def MAC_STS_VERIFY : Fld := ⟨0x104, 6, 2, 0x0, .ro, 16, 64, .const⟩
def PAUSE_CTL_RX_PAUSE_EN : Fld := ⟨0x108, 0, 1, 0x0, .rw, 16, 64, .const⟩
def PAUSE_CTL_TX_PAUSE_EN : Fld := ⟨0x108, 1, 1, 0x0, .rw, 16, 64, .const⟩
def PAUSE_CTL_RX_PFC_EN : Fld := ⟨0x108, 8, 8, 0x0, .rw, 16, 64, .const⟩
def PAUSE_CTL_TX_PFC_EN : Fld := ⟨0x108, 16, 8, 0x0, .rw, 16, 64, .const⟩
def PAUSE_WD_TIMEOUT_MS : Fld := ⟨0x10C, 0, 16, 0x64, .rw, 16, 64, .const⟩
def PAUSE_WD_RECOVER_MS : Fld := ⟨0x10C, 16, 16, 0xC8, .rw, 16, 64, .const⟩
def PAUSE_THR_XOFF : Fld := ⟨0x110, 0, 16, 0x200, .rw, 16, 64, .const⟩
def PAUSE_THR_XON : Fld := ⟨0x110, 16, 16, 0x100, .rw, 16, 64, .const⟩
def CSUM_CTL_RX_START : Fld := ⟨0x114, 0, 9, 0xE, .rw, 16, 64, .const⟩
def CSUM_CTL_RX_EN : Fld := ⟨0x114, 16, 1, 0x1, .rw, 16, 64, .const⟩
def CSUM_CTL_TX_EN : Fld := ⟨0x114, 17, 1, 0x1, .rw, 16, 64, .const⟩
def PREEMPT_CTL_EN : Fld := ⟨0x118, 0, 1, 0x0, .rw, 16, 64, .const⟩
def PREEMPT_CTL_VERIFY_DIS : Fld := ⟨0x118, 1, 1, 0x0, .rw, 16, 64, .const⟩
def PREEMPT_CTL_ADD_FRAG : Fld := ⟨0x118, 2, 2, 0x0, .rw, 16, 64, .const⟩
def PREEMPT_CTL_VERIFY_MS : Fld := ⟨0x118, 4, 8, 0xA, .rw, 16, 64, .const⟩
def PREEMPT_CTL_EXPRESS_MASK : Fld := ⟨0x118, 16, 8, 0x80, .rw, 16, 64, .const⟩
def LPI_CTL_TX_IDLE_US : Fld := ⟨0x11C, 0, 16, 0x64, .rw, 16, 64, .const⟩
def PTP_CTL_ONE_STEP_EN : Fld := ⟨0x120, 0, 1, 0x0, .rw, 16, 64, .const⟩
def PTP_CTL_TWO_STEP_EN : Fld := ⟨0x120, 1, 1, 0x0, .rw, 16, 64, .const⟩
def PTP_CTL_ASYM : Fld := ⟨0x120, 16, 16, 0x0, .rw, 16, 64, .const⟩
def PTP_RX_DELAY_DELAY : Fld := ⟨0x124, 0, 32, 0x0, .rw, 16, 64, .const⟩
def PTP_TX_DELAY_DELAY : Fld := ⟨0x128, 0, 32, 0x0, .rw, 16, 64, .const⟩
def SEC_CTL_TX_EN : Fld := ⟨0x12C, 0, 1, 0x0, .rw, 16, 64, .const⟩
def SEC_CTL_RX_EN : Fld := ⟨0x12C, 1, 1, 0x0, .rw, 16, 64, .const⟩
def SEC_CTL_VALIDATE : Fld := ⟨0x12C, 2, 2, 0x0, .rw, 16, 64, .const⟩
def SEC_CTL_CONF_OFFSET : Fld := ⟨0x12C, 4, 2, 0x0, .rw, 16, 64, .const⟩
def SEC_CTL_ENCRYPT : Fld := ⟨0x12C, 6, 1, 0x0, .rw, 16, 64, .const⟩
def SEC_CTL_INCLUDE_SCI : Fld := ⟨0x12C, 7, 1, 0x0, .rw, 16, 64, .const⟩
def SEC_CTL_CIPHER : Fld := ⟨0x12C, 8, 3, 0x0, .rw, 16, 64, .const⟩
def SEC_CTL_TX_AN : Fld := ⟨0x12C, 12, 2, 0x0, .rw, 16, 64, .const⟩
def SEC_SCI_LO_SCI : Fld := ⟨0x130, 0, 32, 0x0, .rw, 16, 64, .const⟩
def SEC_SCI_HI_SCI : Fld := ⟨0x134, 0, 32, 0x0, .rw, 16, 64, .const⟩
def SEC_PN_THR_FRACTION : Fld := ⟨0x138, 0, 8, 0xE0, .rw, 16, 64, .const⟩
def TS_HEAD_STS_SEQ_ID : Fld := ⟨0x500, 0, 16, 0x0, .ro, 1, 4, .const⟩
def TS_HEAD_STS_MSG_TYPE : Fld := ⟨0x500, 16, 4, 0x0, .ro, 1, 4, .const⟩
def TS_HEAD_STS_SLOT : Fld := ⟨0x500, 24, 4, 0x0, .ro, 1, 4, .const⟩
def TS_HEAD_STS_VALID : Fld := ⟨0x500, 31, 1, 0x0, .ro, 1, 4, .const⟩
def TS_HEAD_FRAC_FRAC : Fld := ⟨0x504, 0, 16, 0x0, .ro, 1, 4, .const⟩
def TS_HEAD_NS_NS : Fld := ⟨0x508, 0, 30, 0x0, .ro, 1, 4, .const⟩
def TS_HEAD_SEC_LO_SEC : Fld := ⟨0x50C, 0, 32, 0x0, .ro, 1, 4, .const⟩
def TS_HEAD_SEC_HI_SEC : Fld := ⟨0x510, 0, 16, 0x0, .ro, 1, 4, .const⟩
def TS_POP_POP : Fld := ⟨0x514, 0, 1, 0x0, .wo, 1, 4, .const⟩
def TS_LEVEL_COUNT : Fld := ⟨0x518, 0, 7, 0x0, .ro, 1, 4, .const⟩
def SA_IDX_INDEX : Fld := ⟨0x600, 0, 11, 0x0, .rw, 1, 4, .const⟩
def SA_IDX_DIR : Fld := ⟨0x600, 16, 1, 0x0, .rw, 1, 4, .const⟩
def SA_KEY_KEY : Fld := ⟨0x604, 0, 32, 0x0, .wo, 8, 4, .const⟩
def SA_SALT_SALT : Fld := ⟨0x624, 0, 32, 0x0, .wo, 3, 4, .const⟩
def SA_SSCI_SSCI : Fld := ⟨0x630, 0, 32, 0x0, .rw, 1, 4, .const⟩
def SA_PN_LO_PN : Fld := ⟨0x634, 0, 32, 0x0, .rw, 1, 4, .const⟩
def SA_PN_HI_PN : Fld := ⟨0x638, 0, 32, 0x0, .rw, 1, 4, .const⟩
def SA_CFG_IN_USE : Fld := ⟨0x63C, 0, 1, 0x0, .rw, 1, 4, .const⟩
def SA_CMD_OP : Fld := ⟨0x640, 0, 2, 0x0, .wo, 1, 4, .const⟩
def SA_CMD_TAG : Fld := ⟨0x640, 8, 8, 0x0, .wo, 1, 4, .const⟩
def SA_RES : ResSet := ⟨0x680, 1, 0⟩
def RXSC_SCI_LO : Fld := ⟨0x8000, 0, 32, 0x0, .rw, 512, 16, .const⟩
def RXSC_SCI_HI : Fld := ⟨0x8004, 0, 32, 0x0, .rw, 512, 16, .const⟩
def RXSC_SLOT : Fld := ⟨0x8008, 0, 4, 0x0, .rw, 512, 16, .const⟩
def RXSC_VALID : Fld := ⟨0x8008, 4, 1, 0x0, .rw, 512, 16, .const⟩
def RXSC_REPLAY_PROTECT : Fld := ⟨0x8008, 5, 1, 0x0, .rw, 512, 16, .const⟩
def RXSC_REPLAY_WINDOW : Fld := ⟨0x800C, 0, 32, 0x0, .rw, 512, 16, .const⟩
def PORT_CNT : Fld := ⟨0xC000, 0, 64, 0x0, .cnt, 512, 8, .const⟩
def CBS_IDLE_SLOPE : Fld := ⟨0xD000, 0, 24, 0x0, .rw, 128, 16, .const⟩
def CBS_HI_CREDIT : Fld := ⟨0xD004, 0, 32, 0x0, .rw, 128, 16, .const⟩
def CBS_LO_CREDIT : Fld := ⟨0xD008, 0, 32, 0x0, .rw, 128, 16, .const⟩
def CBS_CREDIT : Fld := ⟨0xD00C, 0, 32, 0x0, .ro, 128, 16, .const⟩
/-- Fields of the MSC page, part 1. -/
def map1 : List Fld := [MAC_CTL_RX_EN, MAC_CTL_TX_EN, MAC_CTL_TX_PAD, MAC_CTL_LPI_EN, MAC_CTL_CBS_EN, MAC_CTL_MAX_FRAME, MAC_STS_LINK, MAC_STS_TX_PAUSED, MAC_STS_WD_ACTIVE, MAC_STS_LPI_RX, MAC_STS_LPI_TX, MAC_STS_PREEMPT_ACTIVE, MAC_STS_VERIFY, PAUSE_CTL_RX_PAUSE_EN, PAUSE_CTL_TX_PAUSE_EN, PAUSE_CTL_RX_PFC_EN, PAUSE_CTL_TX_PFC_EN, PAUSE_WD_TIMEOUT_MS, PAUSE_WD_RECOVER_MS, PAUSE_THR_XOFF, PAUSE_THR_XON, CSUM_CTL_RX_START, CSUM_CTL_RX_EN, CSUM_CTL_TX_EN]
/-- Fields of the MSC page, part 2. -/
def map2 : List Fld := [PREEMPT_CTL_EN, PREEMPT_CTL_VERIFY_DIS, PREEMPT_CTL_ADD_FRAG, PREEMPT_CTL_VERIFY_MS, PREEMPT_CTL_EXPRESS_MASK, LPI_CTL_TX_IDLE_US, PTP_CTL_ONE_STEP_EN, PTP_CTL_TWO_STEP_EN, PTP_CTL_ASYM, PTP_RX_DELAY_DELAY, PTP_TX_DELAY_DELAY, SEC_CTL_TX_EN, SEC_CTL_RX_EN, SEC_CTL_VALIDATE, SEC_CTL_CONF_OFFSET, SEC_CTL_ENCRYPT, SEC_CTL_INCLUDE_SCI, SEC_CTL_CIPHER, SEC_CTL_TX_AN, SEC_SCI_LO_SCI, SEC_SCI_HI_SCI, SEC_PN_THR_FRACTION, TS_HEAD_STS_SEQ_ID, TS_HEAD_STS_MSG_TYPE]
/-- Fields of the MSC page, part 3. -/
def map3 : List Fld := [TS_HEAD_STS_SLOT, TS_HEAD_STS_VALID, TS_HEAD_FRAC_FRAC, TS_HEAD_NS_NS, TS_HEAD_SEC_LO_SEC, TS_HEAD_SEC_HI_SEC, TS_POP_POP, TS_LEVEL_COUNT, SA_IDX_INDEX, SA_IDX_DIR, SA_KEY_KEY, SA_SALT_SALT, SA_SSCI_SSCI, SA_PN_LO_PN, SA_PN_HI_PN, SA_CFG_IN_USE, SA_CMD_OP, SA_CMD_TAG, RXSC_SCI_LO, RXSC_SCI_HI, RXSC_SLOT, RXSC_VALID, RXSC_REPLAY_PROTECT, RXSC_REPLAY_WINDOW]
/-- Fields of the MSC page, part 4. -/
def map4 : List Fld := [PORT_CNT, CBS_IDLE_SLOPE, CBS_HI_CREDIT, CBS_LO_CREDIT, CBS_CREDIT]
/-- Every field of the MSC page beyond the common layout. -/
def map : List Fld := map1 ++ map2 ++ map3 ++ map4 ++ resFields SA_RES.off SA_RES.n SA_RES.stride
end MSC

namespace CAGE
def CSB_CTL_RUN : Fld := ⟨0x100, 0, 1, 0x0, .rw, 1, 4, .const⟩
def CSB_CTL_CLK_SEL : Fld := ⟨0x100, 1, 1, 0x0, .rw, 1, 4, .const⟩
def CSB_CTL_CAGES : Fld := ⟨0x100, 8, 7, 0x0, .rw, 1, 4, .const⟩
def CSB_CTL_MARKER_CHK : Fld := ⟨0x100, 16, 1, 0x1, .rw, 1, 4, .const⟩
def CSB_STS_RUNNING : Fld := ⟨0x104, 0, 1, 0x0, .ro, 1, 4, .const⟩
def CSB_STS_CHAIN_FAULT : Fld := ⟨0x104, 1, 1, 0x0, .ro, 1, 4, .const⟩
def CSB_STS_OUT_HOLD : Fld := ⟨0x104, 2, 1, 0x0, .ro, 1, 4, .const⟩
def MARKER_ERR_COUNT : Fld := ⟨0x108, 0, 32, 0x0, .rc, 1, 4, .const⟩
def CAGE_TIMING_DEBOUNCE_MS : Fld := ⟨0x110, 0, 8, 0x14, .rw, 1, 4, .const⟩
def CAGE_TIMING_PG_TIMEOUT_MS : Fld := ⟨0x110, 8, 8, 0x32, .rw, 1, 4, .const⟩
def CAGE_TIMING_RESET_HOLD_MS : Fld := ⟨0x110, 16, 8, 0x1, .rw, 1, 4, .const⟩
def CAGE_TIMING_STAGGER_MS : Fld := ⟨0x110, 24, 8, 0x5, .rw, 1, 4, .const⟩
def CMIS_TMO_INIT_TIMEOUT_MS : Fld := ⟨0x114, 0, 16, 0x1388, .rw, 1, 4, .const⟩
def PRES_LO_PRESENT : Fld := ⟨0x120, 0, 32, 0x0, .ro, 1, 4, .const⟩
def PRES_HI_PRESENT : Fld := ⟨0x124, 0, 32, 0x0, .ro, 1, 4, .const⟩
def CHANGE_LO_CHANGED : Fld := ⟨0x128, 0, 32, 0x0, .w1c, 1, 4, .const⟩
def CHANGE_HI_CHANGED : Fld := ⟨0x12C, 0, 32, 0x0, .w1c, 1, 4, .const⟩
def MM_CTL_MODE : Fld := ⟨0x200, 0, 2, 0x0, .rw, 8, 32, .const⟩
def MM_CTL_I2C_RATE : Fld := ⟨0x200, 2, 2, 0x1, .rw, 8, 32, .const⟩
def MM_CTL_I3C_RATE : Fld := ⟨0x200, 4, 2, 0x0, .rw, 8, 32, .const⟩
def MM_CTL_STRETCH_MS : Fld := ⟨0x200, 8, 8, 0x19, .rw, 8, 32, .const⟩
def MM_STS_BUSY : Fld := ⟨0x204, 0, 1, 0x0, .ro, 8, 32, .const⟩
def MM_STS_SEL : Fld := ⟨0x204, 1, 3, 0x0, .ro, 8, 32, .const⟩
def MM_STS_STUCK : Fld := ⟨0x204, 4, 1, 0x0, .ro, 8, 32, .const⟩
def MM_ADDR_BANK : Fld := ⟨0x208, 0, 8, 0x0, .rw, 8, 32, .const⟩
def MM_ADDR_PAGE : Fld := ⟨0x208, 8, 8, 0x0, .rw, 8, 32, .const⟩
def MM_ADDR_OFFSET : Fld := ⟨0x208, 16, 8, 0x0, .rw, 8, 32, .const⟩
def MM_ADDR_LEN : Fld := ⟨0x208, 24, 8, 0x0, .rw, 8, 32, .const⟩
def MM_CMD_CAGE : Fld := ⟨0x20C, 0, 6, 0x0, .wo, 8, 32, .const⟩
def MM_CMD_OP : Fld := ⟨0x20C, 8, 2, 0x0, .wo, 8, 32, .const⟩
def MM_CMD_TAG : Fld := ⟨0x20C, 16, 8, 0x0, .wo, 8, 32, .const⟩
def MM_RES : ResSet := ⟨0x600, 8, 64⟩
def CAGE_CTL_EN : Fld := ⟨0xA00, 0, 1, 0x0, .rw, 64, 16, .const⟩
def CAGE_CTL_AUTO : Fld := ⟨0xA00, 1, 1, 0x1, .rw, 64, 16, .const⟩
def CAGE_CTL_FORCE_LPMODE : Fld := ⟨0xA00, 2, 1, 0x0, .rw, 64, 16, .const⟩
def CAGE_CTL_POWER_CYCLE : Fld := ⟨0xA00, 3, 1, 0x0, .wo, 64, 16, .const⟩
def CAGE_CTL_FAULT_CLR : Fld := ⟨0xA00, 4, 1, 0x0, .wo, 64, 16, .const⟩
def CAGE_CTL_LOCATE : Fld := ⟨0xA00, 5, 1, 0x0, .rw, 64, 16, .const⟩
def CAGE_CTL_MANUAL_READY : Fld := ⟨0xA00, 6, 1, 0x0, .wo, 64, 16, .const⟩
def CAGE_STS_STATE : Fld := ⟨0xA04, 0, 4, 0x0, .ro, 64, 16, .const⟩
def CAGE_STS_PRESENT : Fld := ⟨0xA04, 4, 1, 0x0, .ro, 64, 16, .const⟩
def CAGE_STS_RAW_PRESENT : Fld := ⟨0xA04, 5, 1, 0x0, .ro, 64, 16, .const⟩
def CAGE_STS_INT : Fld := ⟨0xA04, 6, 1, 0x0, .ro, 64, 16, .const⟩
def CAGE_STS_PWR_GOOD : Fld := ⟨0xA04, 7, 1, 0x0, .ro, 64, 16, .const⟩
def CAGE_STS_OVERCURRENT : Fld := ⟨0xA04, 8, 1, 0x0, .ro, 64, 16, .const⟩
def CAGE_STS_SQUELCH_REQ : Fld := ⟨0xA04, 9, 1, 0x1, .ro, 64, 16, .const⟩
def CAGE_STS_FAULT_CODE : Fld := ⟨0xA04, 12, 4, 0x0, .ro, 64, 16, .const⟩
def LED_CTL_OVERRIDE : Fld := ⟨0xA08, 0, 1, 0x0, .rw, 64, 16, .const⟩
def LED_CTL_GREEN : Fld := ⟨0xA08, 1, 2, 0x0, .rw, 64, 16, .const⟩
def LED_CTL_AMBER : Fld := ⟨0xA08, 3, 2, 0x0, .rw, 64, 16, .const⟩
def LANE_MAP_FIRST_LANE : Fld := ⟨0xA0C, 0, 8, 0x0, .rw, 64, 16, .laneFirst⟩
def LANE_MAP_LANE_CNT : Fld := ⟨0xA0C, 8, 4, 0x0, .rw, 64, 16, .laneCnt⟩
def MM_BUF : Fld := ⟨0x8000, 0, 32, 0x0, .rw, 256, 4, .const⟩
/-- Fields of the CAGE page, part 1. -/
def map1 : List Fld := [CSB_CTL_RUN, CSB_CTL_CLK_SEL, CSB_CTL_CAGES, CSB_CTL_MARKER_CHK, CSB_STS_RUNNING, CSB_STS_CHAIN_FAULT, CSB_STS_OUT_HOLD, MARKER_ERR_COUNT, CAGE_TIMING_DEBOUNCE_MS, CAGE_TIMING_PG_TIMEOUT_MS, CAGE_TIMING_RESET_HOLD_MS, CAGE_TIMING_STAGGER_MS, CMIS_TMO_INIT_TIMEOUT_MS, PRES_LO_PRESENT, PRES_HI_PRESENT, CHANGE_LO_CHANGED, CHANGE_HI_CHANGED, MM_CTL_MODE, MM_CTL_I2C_RATE, MM_CTL_I3C_RATE, MM_CTL_STRETCH_MS, MM_STS_BUSY, MM_STS_SEL, MM_STS_STUCK]
/-- Fields of the CAGE page, part 2. -/
def map2 : List Fld := [MM_ADDR_BANK, MM_ADDR_PAGE, MM_ADDR_OFFSET, MM_ADDR_LEN, MM_CMD_CAGE, MM_CMD_OP, MM_CMD_TAG, CAGE_CTL_EN, CAGE_CTL_AUTO, CAGE_CTL_FORCE_LPMODE, CAGE_CTL_POWER_CYCLE, CAGE_CTL_FAULT_CLR, CAGE_CTL_LOCATE, CAGE_CTL_MANUAL_READY, CAGE_STS_STATE, CAGE_STS_PRESENT, CAGE_STS_RAW_PRESENT, CAGE_STS_INT, CAGE_STS_PWR_GOOD, CAGE_STS_OVERCURRENT, CAGE_STS_SQUELCH_REQ, CAGE_STS_FAULT_CODE, LED_CTL_OVERRIDE, LED_CTL_GREEN]
/-- Fields of the CAGE page, part 3. -/
def map3 : List Fld := [LED_CTL_AMBER, LANE_MAP_FIRST_LANE, LANE_MAP_LANE_CNT, MM_BUF]
/-- Every field of the CAGE page beyond the common layout. -/
def map : List Fld := map1 ++ map2 ++ map3 ++ resFields MM_RES.off MM_RES.n MM_RES.stride
end CAGE

namespace LFU
def LFU_CFG_FLEXE_EN : Fld := ⟨0x100, 0, 1, 0x0, .rw, 1, 4, .const⟩
def LFU_CFG_OTN_EN : Fld := ⟨0x100, 1, 1, 0x0, .rw, 1, 4, .const⟩
def FLEXE_CTL_CR_CA_EN : Fld := ⟨0x104, 0, 1, 0x0, .rw, 1, 4, .const⟩
def FLEXE_CTL_CA_AUTO : Fld := ⟨0x104, 1, 1, 0x1, .rw, 1, 4, .const⟩
def FLEXE_CTL_CA_TIMEOUT_MS : Fld := ⟨0x104, 8, 8, 0xA, .rw, 1, 4, .const⟩
def FLEXE_GRP_GROUP_NUM : Fld := ⟨0x108, 0, 20, 0x1, .rw, 1, 4, .const⟩
def FLEXE_MEMBERS_SLOT_MASK : Fld := ⟨0x10C, 0, 16, 0x0, .rw, 1, 4, .const⟩
def PHY_NUM_PHY_NUM : Fld := ⟨0x110, 0, 8, 0x0, .rw, 16, 4, .const⟩
def FLEXE_STS_OH_LOCK : Fld := ⟨0x150, 0, 1, 0x0, .ro, 1, 4, .const⟩
def FLEXE_STS_OHMF_LOCK : Fld := ⟨0x150, 1, 1, 0x0, .ro, 1, 4, .const⟩
def FLEXE_STS_GID_MISMATCH : Fld := ⟨0x150, 2, 1, 0x0, .ro, 1, 4, .const⟩
def FLEXE_STS_PHYMAP_MISMATCH : Fld := ⟨0x150, 3, 1, 0x0, .ro, 1, 4, .const⟩
def FLEXE_STS_SKEW_FAIL : Fld := ⟨0x150, 4, 1, 0x0, .ro, 1, 4, .const⟩
def FLEXE_STS_CAL_MISMATCH : Fld := ⟨0x150, 5, 1, 0x0, .ro, 1, 4, .const⟩
def FLEXE_STS_RPF : Fld := ⟨0x150, 6, 1, 0x0, .ro, 1, 4, .const⟩
def FLEXE_STS_GROUP_UP : Fld := ⟨0x150, 7, 1, 0x0, .ro, 1, 4, .const⟩
def FLEXE_STS_LOCK_MASK : Fld := ⟨0x150, 16, 16, 0x0, .ro, 1, 4, .const⟩
def FLEXE_SKEW_SKEW_NS : Fld := ⟨0x154, 0, 11, 0x0, .ro, 1, 4, .const⟩
def FLEXE_OH_RX_C : Fld := ⟨0x158, 0, 1, 0x0, .ro, 1, 4, .const⟩
def FLEXE_OH_RX_CR : Fld := ⟨0x158, 1, 1, 0x0, .ro, 1, 4, .const⟩
def FLEXE_OH_RX_CA : Fld := ⟨0x158, 2, 1, 0x0, .ro, 1, 4, .const⟩
def FLEXE_OH_TX_C : Fld := ⟨0x158, 4, 1, 0x0, .ro, 1, 4, .const⟩
def FLEXE_OH_TX_CR : Fld := ⟨0x158, 5, 1, 0x0, .ro, 1, 4, .const⟩
def FLEXE_OH_TX_CA : Fld := ⟨0x158, 6, 1, 0x0, .ro, 1, 4, .const⟩
def OTN_CFG_N : Fld := ⟨0x180, 0, 5, 0x1, .rw, 1, 4, .const⟩
def OTN_CFG_LNP_SEL : Fld := ⟨0x180, 5, 1, 0x0, .rw, 1, 4, .const⟩
def OTN_CFG_PORT : Fld := ⟨0x180, 8, 8, 0x0, .rw, 1, 4, .const⟩
def OTN_CFG_MFAS_CHK : Fld := ⟨0x180, 16, 1, 0x1, .rw, 1, 4, .const⟩
def OTN_CFG_LOF_MS : Fld := ⟨0x180, 24, 4, 0x3, .rw, 1, 4, .const⟩
def OTN_STS_LOS : Fld := ⟨0x184, 0, 1, 0x0, .ro, 1, 4, .const⟩
def OTN_STS_OOF : Fld := ⟨0x184, 1, 1, 0x0, .ro, 1, 4, .const⟩
def OTN_STS_LOF : Fld := ⟨0x184, 2, 1, 0x0, .ro, 1, 4, .const⟩
def OTN_STS_OOM : Fld := ⟨0x184, 3, 1, 0x0, .ro, 1, 4, .const⟩
def OTN_STS_LOM : Fld := ⟨0x184, 4, 1, 0x0, .ro, 1, 4, .const⟩
def OTN_STS_OTU_AIS : Fld := ⟨0x184, 5, 1, 0x0, .ro, 1, 4, .const⟩
def OTN_STS_ODU_AIS : Fld := ⟨0x184, 6, 1, 0x0, .ro, 1, 4, .const⟩
def OTN_STS_ODU_OCI : Fld := ⟨0x184, 7, 1, 0x0, .ro, 1, 4, .const⟩
def OTN_STS_ODU_LCK : Fld := ⟨0x184, 8, 1, 0x0, .ro, 1, 4, .const⟩
def OTN_STS_BDI : Fld := ⟨0x184, 9, 1, 0x0, .ro, 1, 4, .const⟩
def OTN_STS_SD : Fld := ⟨0x184, 10, 1, 0x0, .ro, 1, 4, .const⟩
def OTN_STS_SF : Fld := ⟨0x184, 11, 1, 0x0, .ro, 1, 4, .const⟩
def OTN_STS_DESKEW_FAIL : Fld := ⟨0x184, 12, 1, 0x0, .ro, 1, 4, .const⟩
def OTN_STS_MSI_MISMATCH : Fld := ⟨0x184, 13, 1, 0x0, .ro, 1, 4, .const⟩
def OTN_SLICE_OOF_OOF : Fld := ⟨0x188, 0, 16, 0x0, .ro, 1, 4, .const⟩
def OTN_SD_THR_COUNT : Fld := ⟨0x18C, 0, 32, 0x1000, .rw, 1, 4, .const⟩
def PAGE_SW_FLEXE : Fld := ⟨0x1A0, 0, 1, 0x0, .wo, 1, 4, .const⟩
def PAGE_SW_OTN : Fld := ⟨0x1A0, 1, 1, 0x0, .wo, 1, 4, .const⟩
def SWITCH_STS_FLEXE_TX_CAL : Fld := ⟨0x1A4, 0, 1, 0x0, .ro, 1, 4, .const⟩
def SWITCH_STS_FLEXE_RX_CAL : Fld := ⟨0x1A4, 1, 1, 0x0, .ro, 1, 4, .const⟩
def SWITCH_STS_FLEXE_PENDING : Fld := ⟨0x1A4, 2, 1, 0x0, .ro, 1, 4, .const⟩
def SWITCH_STS_OTN_TX_MAP : Fld := ⟨0x1A4, 4, 1, 0x0, .ro, 1, 4, .const⟩
def SWITCH_STS_OTN_RX_MAP : Fld := ⟨0x1A4, 5, 1, 0x0, .ro, 1, 4, .const⟩
def SWITCH_STS_OTN_PENDING : Fld := ⟨0x1A4, 6, 1, 0x0, .ro, 1, 4, .const⟩
def SW_REFUSED_COUNT : Fld := ⟨0x1A8, 0, 16, 0x0, .rc, 1, 4, .const⟩
def PROT_CTL_EN : Fld := ⟨0x1C0, 0, 1, 0x0, .rw, 1, 4, .const⟩
def PROT_CTL_ARCH : Fld := ⟨0x1C0, 1, 2, 0x0, .rw, 1, 4, .const⟩
def PROT_CTL_REVERTIVE : Fld := ⟨0x1C0, 3, 1, 0x0, .rw, 1, 4, .const⟩
def PROT_CTL_HOLDOFF : Fld := ⟨0x1C0, 4, 7, 0x0, .rw, 1, 4, .const⟩
def PROT_CTL_WTR_MIN : Fld := ⟨0x1C0, 12, 4, 0x5, .rw, 1, 4, .const⟩
def PROT_CMD_CMD : Fld := ⟨0x1C4, 0, 3, 0x0, .wo, 1, 4, .const⟩
def PROT_STS_SELECTED : Fld := ⟨0x1C8, 0, 1, 0x0, .ro, 1, 4, .const⟩
def PROT_STS_BRIDGED : Fld := ⟨0x1C8, 1, 1, 0x0, .ro, 1, 4, .const⟩
def PROT_STS_LOCAL_REQ : Fld := ⟨0x1C8, 4, 4, 0x0, .ro, 1, 4, .const⟩
def PROT_STS_FAR_REQ : Fld := ⟨0x1C8, 8, 4, 0x0, .ro, 1, 4, .const⟩
def PROT_STS_WTR_RUN : Fld := ⟨0x1C8, 12, 1, 0x0, .ro, 1, 4, .const⟩
def PROT_STS_PROT_FAIL : Fld := ⟨0x1C8, 13, 1, 0x0, .ro, 1, 4, .const⟩
def PROT_STS_SF_W : Fld := ⟨0x1C8, 14, 1, 0x0, .ro, 1, 4, .const⟩
def PROT_STS_SF_P : Fld := ⟨0x1C8, 15, 1, 0x0, .ro, 1, 4, .const⟩
def PROT_STS_SD_W : Fld := ⟨0x1C8, 16, 1, 0x0, .ro, 1, 4, .const⟩
def PROT_STS_SD_P : Fld := ⟨0x1C8, 17, 1, 0x0, .ro, 1, 4, .const⟩
def APS_ACCEPTED_APS : Fld := ⟨0x1CC, 0, 32, 0x0, .ro, 1, 4, .const⟩
def APS_RAW_APS : Fld := ⟨0x1D0, 0, 32, 0x0, .ro, 1, 4, .const⟩
def APS_TX_APS : Fld := ⟨0x1D4, 0, 32, 0x0, .ro, 1, 4, .const⟩
def PROT_SW_CNT_COUNT : Fld := ⟨0x1D8, 0, 16, 0x0, .ctr, 1, 4, .const⟩
def PM_CTL_AUTO_SEC : Fld := ⟨0x200, 0, 1, 0x1, .rw, 1, 4, .const⟩
def PM_CTL_LATCH : Fld := ⟨0x200, 1, 1, 0x0, .wo, 1, 4, .const⟩
def PM_STS_SEQ : Fld := ⟨0x204, 0, 16, 0x0, .ro, 1, 4, .const⟩
def PM_STS_NT_INVALID : Fld := ⟨0x204, 16, 1, 0x0, .ro, 1, 4, .const⟩
def PM_STS_PARTIAL : Fld := ⟨0x204, 17, 1, 0x0, .ro, 1, 4, .const⟩
def PM_STS_VALID : Fld := ⟨0x204, 31, 1, 0x0, .ro, 1, 4, .const⟩
def PM_SEC_SEC : Fld := ⟨0x208, 0, 32, 0x0, .ro, 1, 4, .const⟩
def PM_DEF_DEF : Fld := ⟨0x20C, 0, 14, 0x0, .ro, 1, 4, .const⟩
def PM_DEF_FLEXE_DOWN : Fld := ⟨0x20C, 16, 1, 0x0, .ro, 1, 4, .const⟩
def PM_CNT : Fld := ⟨0x210, 0, 64, 0x0, .cnt, 8, 8, .const⟩
def TXCAL_A_CLIENT_E : Fld := ⟨0x8000, 0, 6, 0x0, .rw, 320, 4, .const⟩
def TXCAL_A_UNUSED_E : Fld := ⟨0x8000, 15, 1, 0x1, .rw, 320, 4, .const⟩
def TXCAL_A_CLIENT_O : Fld := ⟨0x8000, 16, 6, 0x0, .rw, 320, 4, .const⟩
def TXCAL_A_UNUSED_O : Fld := ⟨0x8000, 31, 1, 0x1, .rw, 320, 4, .const⟩
def TXCAL_B_CLIENT_E : Fld := ⟨0x8800, 0, 6, 0x0, .rw, 320, 4, .const⟩
def TXCAL_B_UNUSED_E : Fld := ⟨0x8800, 15, 1, 0x1, .rw, 320, 4, .const⟩
def TXCAL_B_CLIENT_O : Fld := ⟨0x8800, 16, 6, 0x0, .rw, 320, 4, .const⟩
def TXCAL_B_UNUSED_O : Fld := ⟨0x8800, 31, 1, 0x1, .rw, 320, 4, .const⟩
def RXCAL_A_CLIENT_E : Fld := ⟨0x9000, 0, 6, 0x0, .rw, 320, 4, .const⟩
def RXCAL_A_UNUSED_E : Fld := ⟨0x9000, 15, 1, 0x1, .rw, 320, 4, .const⟩
def RXCAL_A_CLIENT_O : Fld := ⟨0x9000, 16, 6, 0x0, .rw, 320, 4, .const⟩
def RXCAL_A_UNUSED_O : Fld := ⟨0x9000, 31, 1, 0x1, .rw, 320, 4, .const⟩
def RXCAL_B_CLIENT_E : Fld := ⟨0x9800, 0, 6, 0x0, .rw, 320, 4, .const⟩
def RXCAL_B_UNUSED_E : Fld := ⟨0x9800, 15, 1, 0x1, .rw, 320, 4, .const⟩
def RXCAL_B_CLIENT_O : Fld := ⟨0x9800, 16, 6, 0x0, .rw, 320, 4, .const⟩
def RXCAL_B_UNUSED_O : Fld := ⟨0x9800, 31, 1, 0x1, .rw, 320, 4, .const⟩
def MAP_A_CLIENT_E : Fld := ⟨0xA000, 0, 6, 0x0, .rw, 160, 4, .const⟩
def MAP_A_UNUSED_E : Fld := ⟨0xA000, 15, 1, 0x1, .rw, 160, 4, .const⟩
def MAP_A_CLIENT_O : Fld := ⟨0xA000, 16, 6, 0x0, .rw, 160, 4, .const⟩
def MAP_A_UNUSED_O : Fld := ⟨0xA000, 31, 1, 0x1, .rw, 160, 4, .const⟩
def MAP_B_CLIENT_E : Fld := ⟨0xA400, 0, 6, 0x0, .rw, 160, 4, .const⟩
def MAP_B_UNUSED_E : Fld := ⟨0xA400, 15, 1, 0x1, .rw, 160, 4, .const⟩
def MAP_B_CLIENT_O : Fld := ⟨0xA400, 16, 6, 0x0, .rw, 160, 4, .const⟩
def MAP_B_UNUSED_O : Fld := ⟨0xA400, 31, 1, 0x1, .rw, 160, 4, .const⟩
def CLIENT_VALID : Fld := ⟨0xB000, 0, 1, 0x0, .rw, 64, 16, .const⟩
def CLIENT_KIND : Fld := ⟨0xB000, 1, 1, 0x0, .rw, 64, 16, .const⟩
def CLIENT_TERMINATE : Fld := ⟨0xB000, 2, 1, 0x0, .rw, 64, 16, .const⟩
def CLIENT_PORT : Fld := ⟨0xB000, 8, 8, 0x0, .rw, 64, 16, .const⟩
def CLIENT_CLIENT_ID : Fld := ⟨0xB000, 16, 16, 0x0, .rw, 64, 16, .const⟩
def CLIENT_RATE_5G : Fld := ⟨0xB004, 0, 9, 0x0, .rw, 64, 16, .const⟩
def CLIENT_XC_LFU : Fld := ⟨0xB004, 16, 4, 0x0, .rw, 64, 16, .const⟩
def CLIENT_XC_ENTRY : Fld := ⟨0xB004, 24, 6, 0x0, .rw, 64, 16, .const⟩
def CLIENT_RX_UP : Fld := ⟨0xB008, 0, 1, 0x0, .ro, 64, 16, .const⟩
def CLIENT_LF : Fld := ⟨0xB008, 1, 1, 0x0, .ro, 64, 16, .const⟩
def CLIENT_RATE_MISMATCH : Fld := ⟨0xB008, 2, 1, 0x0, .ro, 64, 16, .const⟩
def CLIENT_TS_NEED : Fld := ⟨0xB008, 8, 8, 0x0, .ro, 64, 16, .const⟩
def CLIENT_STRADDLE_LOST : Fld := ⟨0xB00C, 0, 32, 0x0, .ctr, 64, 16, .const⟩
/-- Fields of the LFU page, part 1. -/
def map1 : List Fld := [LFU_CFG_FLEXE_EN, LFU_CFG_OTN_EN, FLEXE_CTL_CR_CA_EN, FLEXE_CTL_CA_AUTO, FLEXE_CTL_CA_TIMEOUT_MS, FLEXE_GRP_GROUP_NUM, FLEXE_MEMBERS_SLOT_MASK, PHY_NUM_PHY_NUM, FLEXE_STS_OH_LOCK, FLEXE_STS_OHMF_LOCK, FLEXE_STS_GID_MISMATCH, FLEXE_STS_PHYMAP_MISMATCH, FLEXE_STS_SKEW_FAIL, FLEXE_STS_CAL_MISMATCH, FLEXE_STS_RPF, FLEXE_STS_GROUP_UP, FLEXE_STS_LOCK_MASK, FLEXE_SKEW_SKEW_NS, FLEXE_OH_RX_C, FLEXE_OH_RX_CR, FLEXE_OH_RX_CA, FLEXE_OH_TX_C, FLEXE_OH_TX_CR, FLEXE_OH_TX_CA]
/-- Fields of the LFU page, part 2. -/
def map2 : List Fld := [OTN_CFG_N, OTN_CFG_LNP_SEL, OTN_CFG_PORT, OTN_CFG_MFAS_CHK, OTN_CFG_LOF_MS, OTN_STS_LOS, OTN_STS_OOF, OTN_STS_LOF, OTN_STS_OOM, OTN_STS_LOM, OTN_STS_OTU_AIS, OTN_STS_ODU_AIS, OTN_STS_ODU_OCI, OTN_STS_ODU_LCK, OTN_STS_BDI, OTN_STS_SD, OTN_STS_SF, OTN_STS_DESKEW_FAIL, OTN_STS_MSI_MISMATCH, OTN_SLICE_OOF_OOF, OTN_SD_THR_COUNT, PAGE_SW_FLEXE, PAGE_SW_OTN, SWITCH_STS_FLEXE_TX_CAL]
/-- Fields of the LFU page, part 3. -/
def map3 : List Fld := [SWITCH_STS_FLEXE_RX_CAL, SWITCH_STS_FLEXE_PENDING, SWITCH_STS_OTN_TX_MAP, SWITCH_STS_OTN_RX_MAP, SWITCH_STS_OTN_PENDING, SW_REFUSED_COUNT, PROT_CTL_EN, PROT_CTL_ARCH, PROT_CTL_REVERTIVE, PROT_CTL_HOLDOFF, PROT_CTL_WTR_MIN, PROT_CMD_CMD, PROT_STS_SELECTED, PROT_STS_BRIDGED, PROT_STS_LOCAL_REQ, PROT_STS_FAR_REQ, PROT_STS_WTR_RUN, PROT_STS_PROT_FAIL, PROT_STS_SF_W, PROT_STS_SF_P, PROT_STS_SD_W, PROT_STS_SD_P, APS_ACCEPTED_APS, APS_RAW_APS]
/-- Fields of the LFU page, part 4. -/
def map4 : List Fld := [APS_TX_APS, PROT_SW_CNT_COUNT, PM_CTL_AUTO_SEC, PM_CTL_LATCH, PM_STS_SEQ, PM_STS_NT_INVALID, PM_STS_PARTIAL, PM_STS_VALID, PM_SEC_SEC, PM_DEF_DEF, PM_DEF_FLEXE_DOWN, PM_CNT, TXCAL_A_CLIENT_E, TXCAL_A_UNUSED_E, TXCAL_A_CLIENT_O, TXCAL_A_UNUSED_O, TXCAL_B_CLIENT_E, TXCAL_B_UNUSED_E, TXCAL_B_CLIENT_O, TXCAL_B_UNUSED_O, RXCAL_A_CLIENT_E, RXCAL_A_UNUSED_E, RXCAL_A_CLIENT_O, RXCAL_A_UNUSED_O]
/-- Fields of the LFU page, part 5. -/
def map5 : List Fld := [RXCAL_B_CLIENT_E, RXCAL_B_UNUSED_E, RXCAL_B_CLIENT_O, RXCAL_B_UNUSED_O, MAP_A_CLIENT_E, MAP_A_UNUSED_E, MAP_A_CLIENT_O, MAP_A_UNUSED_O, MAP_B_CLIENT_E, MAP_B_UNUSED_E, MAP_B_CLIENT_O, MAP_B_UNUSED_O, CLIENT_VALID, CLIENT_KIND, CLIENT_TERMINATE, CLIENT_PORT, CLIENT_CLIENT_ID, CLIENT_RATE_5G, CLIENT_XC_LFU, CLIENT_XC_ENTRY, CLIENT_RX_UP, CLIENT_LF, CLIENT_RATE_MISMATCH, CLIENT_TS_NEED]
/-- Fields of the LFU page, part 6. -/
def map6 : List Fld := [CLIENT_STRADDLE_LOST]
/-- Every field of the LFU page beyond the common layout. -/
def map : List Fld := map1 ++ map2 ++ map3 ++ map4 ++ map5 ++ map6
end LFU

end Sys2Proof.Machine
end

