-- ==== Sys2Proof/Machine/RegsMgmt.lean ====
section
/-! DEFINITION. Machine/RegsMgmt.lean: the register fields of the timing, Bonnet, processor, firmware, security and observation pages (R685, R687, R711, R730, R759, R761, R799, R801, R803),
one definition per field with its offset, low bit, width, reset value, access code, element count and stride, as the
page's register table gives them. -/

namespace Sys2Proof.Machine

namespace NTM
def NTM_CTL_VALID : Fld := ⟨0x100, 0, 1, 0x0, .rw, 1, 4, .const⟩
def NTM_CTL_PPS_LOSS_INVAL : Fld := ⟨0x100, 1, 1, 0x0, .rw, 1, 4, .const⟩
def NTM_CTL_PPS_OUT_EN : Fld := ⟨0x100, 2, 1, 0x0, .rw, 1, 4, .const⟩
def NTM_CTL_TOD_TX_EN : Fld := ⟨0x100, 3, 1, 0x0, .rw, 1, 4, .const⟩
def NTM_CTL_TOD_RX_EN : Fld := ⟨0x100, 4, 1, 0x0, .rw, 1, 4, .const⟩
def NTM_STS_VALID : Fld := ⟨0x104, 0, 1, 0x0, .ro, 1, 4, .const⟩
def NTM_STS_PPS_SEEN : Fld := ⟨0x104, 1, 1, 0x0, .ro, 1, 4, .const⟩
def NTM_STS_TOD_OK : Fld := ⟨0x104, 2, 1, 0x0, .ro, 1, 4, .const⟩
def NTM_STS_SET_PENDING : Fld := ⟨0x104, 3, 1, 0x0, .ro, 1, 4, .const⟩
def NT_NOW_NS_NS : Fld := ⟨0x108, 0, 30, 0x0, .ro, 1, 4, .const⟩
def NT_NOW_SEC_LO_SEC : Fld := ⟨0x10C, 0, 32, 0x0, .ro, 1, 4, .const⟩
def NT_NOW_SEC_HI_SEC : Fld := ⟨0x110, 0, 16, 0x0, .ro, 1, 4, .const⟩
def NT_NOW_FRAC_FRAC : Fld := ⟨0x114, 0, 16, 0x0, .ro, 1, 4, .const⟩
def NT_SET_NS_NS : Fld := ⟨0x120, 0, 30, 0x0, .rw, 1, 4, .const⟩
def NT_SET_SEC_LO_SEC : Fld := ⟨0x124, 0, 32, 0x0, .rw, 1, 4, .const⟩
def NT_SET_SEC_HI_SEC : Fld := ⟨0x128, 0, 16, 0x0, .rw, 1, 4, .const⟩
def STEP_NS_NS : Fld := ⟨0x130, 0, 32, 0x0, .rw, 1, 4, .const⟩
def STEP_SEC_SEC : Fld := ⟨0x134, 0, 32, 0x0, .rw, 1, 4, .const⟩
def NT_CMD_OP : Fld := ⟨0x140, 0, 3, 0x0, .wo, 1, 4, .const⟩
def FREQ_ADJ_PPB : Fld := ⟨0x144, 0, 32, 0x0, .rw, 1, 4, .const⟩
def PPS_CAP_NS_NS : Fld := ⟨0x150, 0, 30, 0x0, .ro, 1, 4, .const⟩
def PPS_CAP_SEC_LO_SEC : Fld := ⟨0x154, 0, 32, 0x0, .ro, 1, 4, .const⟩
def PPS_CAP_FRAC_FRAC : Fld := ⟨0x158, 0, 16, 0x0, .ro, 1, 4, .const⟩
def PPS_CAP_SEC_HI_SEC : Fld := ⟨0x15C, 0, 16, 0x0, .ro, 1, 4, .const⟩
def PPS_CFG_IN_COMP : Fld := ⟨0x160, 0, 16, 0x0, .rw, 1, 4, .const⟩
def PPS_CFG_OUT_COMP : Fld := ⟨0x160, 16, 16, 0x0, .rw, 1, 4, .const⟩
def PPS_WIDTH_US : Fld := ⟨0x164, 0, 16, 0x64, .rw, 1, 4, .const⟩
def PPS_LOSS_PPS_LOSS_S : Fld := ⟨0x168, 0, 8, 0x3, .rw, 1, 4, .const⟩
def TOD_CFG_CLOCK_CLASS : Fld := ⟨0x170, 0, 8, 0xF8, .rw, 1, 4, .const⟩
def TOD_CFG_UTC_OFFSET : Fld := ⟨0x170, 16, 16, 0x25, .rw, 1, 4, .const⟩
def TOD_RX_BYTES : Fld := ⟨0x174, 0, 32, 0x0, .ro, 4, 4, .const⟩
def SYNCE_CTL_LANE : Fld := ⟨0x190, 0, 8, 0x0, .rw, 4, 4, .const⟩
def SYNCE_CTL_DIV_LOG2 : Fld := ⟨0x190, 8, 4, 0x9, .rw, 4, 4, .const⟩
def SYNCE_CTL_EN : Fld := ⟨0x190, 12, 1, 0x0, .rw, 4, 4, .const⟩
def SYNCE_CTL_SQ_EN : Fld := ⟨0x190, 13, 1, 0x1, .rw, 4, 4, .const⟩
def SYNCE_CTL_SQUELCHED : Fld := ⟨0x190, 16, 1, 0x0, .ro, 4, 4, .const⟩
def NTM_CNT : Fld := ⟨0x200, 0, 64, 0x0, .cnt, 5, 8, .const⟩
/-- Fields of the NTM page, part 1. -/
def map1 : List Fld := [NTM_CTL_VALID, NTM_CTL_PPS_LOSS_INVAL, NTM_CTL_PPS_OUT_EN, NTM_CTL_TOD_TX_EN, NTM_CTL_TOD_RX_EN, NTM_STS_VALID, NTM_STS_PPS_SEEN, NTM_STS_TOD_OK, NTM_STS_SET_PENDING, NT_NOW_NS_NS, NT_NOW_SEC_LO_SEC, NT_NOW_SEC_HI_SEC, NT_NOW_FRAC_FRAC, NT_SET_NS_NS, NT_SET_SEC_LO_SEC, NT_SET_SEC_HI_SEC, STEP_NS_NS, STEP_SEC_SEC, NT_CMD_OP, FREQ_ADJ_PPB, PPS_CAP_NS_NS, PPS_CAP_SEC_LO_SEC, PPS_CAP_FRAC_FRAC, PPS_CAP_SEC_HI_SEC]
/-- Fields of the NTM page, part 2. -/
def map2 : List Fld := [PPS_CFG_IN_COMP, PPS_CFG_OUT_COMP, PPS_WIDTH_US, PPS_LOSS_PPS_LOSS_S, TOD_CFG_CLOCK_CLASS, TOD_CFG_UTC_OFFSET, TOD_RX_BYTES, SYNCE_CTL_LANE, SYNCE_CTL_DIV_LOG2, SYNCE_CTL_EN, SYNCE_CTL_SQ_EN, SYNCE_CTL_SQUELCHED, NTM_CNT]
/-- Every field of the NTM page beyond the common layout. -/
def map : List Fld := map1 ++ map2
end NTM

namespace TAQ
def TAQ_STS_USED : Fld := ⟨0x104, 0, 7, 0x0, .ro, 1, 4, .const⟩
def TAQ_STS_NEXT_VALID : Fld := ⟨0x104, 16, 1, 0x0, .ro, 1, 4, .const⟩
def NEXT_NS_NS : Fld := ⟨0x108, 0, 30, 0x0, .ro, 1, 4, .const⟩
def NEXT_SEC_LO_SEC : Fld := ⟨0x10C, 0, 32, 0x0, .ro, 1, 4, .const⟩
def POST_NS_NS : Fld := ⟨0x120, 0, 30, 0x0, .rw, 1, 4, .const⟩
def POST_SEC_LO_SEC : Fld := ⟨0x124, 0, 32, 0x0, .rw, 1, 4, .const⟩
def POST_SEC_HI_SEC : Fld := ⟨0x128, 0, 16, 0x0, .rw, 1, 4, .const⟩
def POST_TYPE_TYPE : Fld := ⟨0x12C, 0, 4, 0x0, .rw, 1, 4, .const⟩
def POST_TYPE_REJECT_LATE : Fld := ⟨0x12C, 4, 1, 0x1, .rw, 1, 4, .const⟩
def POST_TYPE_ARG : Fld := ⟨0x12C, 16, 16, 0x0, .rw, 1, 4, .const⟩
def POST_ADDR_ADDR : Fld := ⟨0x130, 0, 26, 0x0, .rw, 1, 4, .const⟩
def POST_DATA_DATA : Fld := ⟨0x134, 0, 32, 0x0, .rw, 1, 4, .const⟩
def TAQ_CMD_OP : Fld := ⟨0x140, 0, 2, 0x0, .wo, 1, 4, .const⟩
def TAQ_CMD_INDEX : Fld := ⟨0x140, 8, 6, 0x0, .wo, 1, 4, .const⟩
def TAQ_CMD_TAG : Fld := ⟨0x140, 16, 8, 0x0, .wo, 1, 4, .const⟩
def TAQ_RES : ResSet := ⟨0x180, 1, 0⟩
def TAQ_CNT : Fld := ⟨0x200, 0, 64, 0x0, .cnt, 8, 8, .const⟩
def ENTRY_STS_PENDING : Fld := ⟨0x300, 0, 1, 0x0, .ro, 64, 4, .const⟩
def ENTRY_STS_TYPE : Fld := ⟨0x300, 4, 4, 0x0, .ro, 64, 4, .const⟩
def ENTRY_STS_ARG : Fld := ⟨0x300, 16, 16, 0x0, .ro, 64, 4, .const⟩
/-- Fields of the TAQ page, part 1. -/
def map1 : List Fld := [TAQ_STS_USED, TAQ_STS_NEXT_VALID, NEXT_NS_NS, NEXT_SEC_LO_SEC, POST_NS_NS, POST_SEC_LO_SEC, POST_SEC_HI_SEC, POST_TYPE_TYPE, POST_TYPE_REJECT_LATE, POST_TYPE_ARG, POST_ADDR_ADDR, POST_DATA_DATA, TAQ_CMD_OP, TAQ_CMD_INDEX, TAQ_CMD_TAG, TAQ_CNT, ENTRY_STS_PENDING, ENTRY_STS_TYPE, ENTRY_STS_ARG]
/-- Every field of the TAQ page beyond the common layout. -/
def map : List Fld := map1 ++ resFields TAQ_RES.off TAQ_RES.n TAQ_RES.stride
end TAQ

namespace BON
def BON_STS_SEALED : Fld := ⟨0x100, 0, 1, 0x0, .ro, 1, 4, .const⟩
def BON_STS_BUSY : Fld := ⟨0x100, 1, 1, 0x0, .ro, 1, 4, .const⟩
def BON_STS_NT_VALID : Fld := ⟨0x100, 2, 1, 0x0, .ro, 1, 4, .const⟩
def BON_STS_MBX_BUSY : Fld := ⟨0x100, 3, 1, 0x0, .ro, 1, 4, .const⟩
def SESSION_LO_ID : Fld := ⟨0x104, 0, 32, 0x0, .ro, 1, 4, .const⟩
def SESSION_HI_ID : Fld := ⟨0x108, 0, 32, 0x0, .ro, 1, 4, .const⟩
def LAST_SEQ_SEQ : Fld := ⟨0x10C, 0, 32, 0x0, .ro, 1, 4, .const⟩
def CHANGE_ATT_COUNT : Fld := ⟨0x110, 0, 32, 0x0, .ro, 1, 4, .const⟩
def FACTORY_EV_COUNT : Fld := ⟨0x114, 0, 32, 0x0, .ro, 1, 4, .const⟩
def WIN_STS_PAGE : Fld := ⟨0x118, 0, 6, 0x0, .ro, 1, 4, .const⟩
def WIN_STS_RING_IDX : Fld := ⟨0x118, 8, 8, 0x0, .ro, 1, 4, .const⟩
def MBX_ARG_ARG : Fld := ⟨0x120, 0, 32, 0x0, .rw, 4, 4, .const⟩
def MBX_CMD_OP : Fld := ⟨0x130, 0, 4, 0x0, .wo, 1, 4, .const⟩
def MBX_CMD_TAG : Fld := ⟨0x130, 8, 8, 0x0, .wo, 1, 4, .const⟩
def MBX_RES : ResSet := ⟨0x180, 1, 0⟩
def BON_CNT : Fld := ⟨0x200, 0, 64, 0x0, .cnt, 9, 8, .const⟩
/-- Fields of the BON page, part 1. -/
def map1 : List Fld := [BON_STS_SEALED, BON_STS_BUSY, BON_STS_NT_VALID, BON_STS_MBX_BUSY, SESSION_LO_ID, SESSION_HI_ID, LAST_SEQ_SEQ, CHANGE_ATT_COUNT, FACTORY_EV_COUNT, WIN_STS_PAGE, WIN_STS_RING_IDX, MBX_ARG_ARG, MBX_CMD_OP, MBX_CMD_TAG, BON_CNT]
/-- Every field of the BON page beyond the common layout. -/
def map : List Fld := map1 ++ resFields MBX_RES.off MBX_RES.n MBX_RES.stride
end BON

namespace SPA
def SP_STS_ROLE : Fld := ⟨0x100, 0, 3, 0x0, .ro, 1, 4, .const⟩
def SP_STS_GRANT : Fld := ⟨0x100, 8, 1, 0x0, .ro, 1, 4, .const⟩
def HEALTH_WORD : Fld := ⟨0x104, 0, 32, 0x0, .ro, 1, 4, .const⟩
def HEALTH_AGE_MS : Fld := ⟨0x108, 0, 16, 0xFFFF, .ro, 1, 4, .const⟩
def SP_OWN_HEARTBEAT : Fld := ⟨0x10C, 0, 1, 0x0, .wo, 1, 4, .const⟩
def SP_OWN_TAKEOVER_DONE : Fld := ⟨0x10C, 1, 1, 0x0, .wo, 1, 4, .const⟩
def SP_CNT : Fld := ⟨0x110, 0, 64, 0x0, .cnt, 6, 8, .const⟩
def IL_STS_ROLE_A : Fld := ⟨0x200, 0, 3, 0x0, .ro, 1, 4, .const⟩
def IL_STS_ROLE_B : Fld := ⟨0x200, 4, 3, 0x0, .ro, 1, 4, .const⟩
def IL_STS_NO_ACTIVE : Fld := ⟨0x200, 8, 1, 0x0, .ro, 1, 4, .const⟩
def IL_STS_SWITCHING : Fld := ⟨0x200, 9, 1, 0x0, .ro, 1, 4, .const⟩
def IL_STS_OUT_HOLD : Fld := ⟨0x200, 10, 1, 0x0, .ro, 1, 4, .const⟩
def IL_STS_HEALTHY_A : Fld := ⟨0x200, 11, 1, 0x0, .ro, 1, 4, .const⟩
def IL_STS_HEALTHY_B : Fld := ⟨0x200, 12, 1, 0x0, .ro, 1, 4, .const⟩
def SP_CMD_OP : Fld := ⟨0x204, 0, 2, 0x0, .wo, 1, 4, .const⟩
def SP_CMD_TAG : Fld := ⟨0x204, 8, 8, 0x0, .wo, 1, 4, .const⟩
def HB_AGE_US : Fld := ⟨0x208, 0, 16, 0x0, .ro, 1, 4, .const⟩
def SW_LAST_CAUSE : Fld := ⟨0x20C, 0, 3, 0x0, .ro, 1, 4, .const⟩
def SW_LAST_TO_B : Fld := ⟨0x20C, 3, 1, 0x0, .ro, 1, 4, .const⟩
def SW_NT_NS_NS : Fld := ⟨0x210, 0, 30, 0x0, .ro, 1, 4, .const⟩
def SW_NT_SEC_SEC : Fld := ⟨0x214, 0, 32, 0x0, .ro, 1, 4, .const⟩
def GAP_LAST_US : Fld := ⟨0x218, 0, 16, 0x0, .ro, 1, 4, .const⟩
def GAP_MAX_US : Fld := ⟨0x21C, 0, 16, 0x0, .rc, 1, 4, .const⟩
def SWITCH_CNT_COUNT : Fld := ⟨0x220, 0, 16, 0x0, .ctr, 1, 4, .const⟩
def SP_RES : ResSet := ⟨0x240, 1, 0⟩
def FAN_DUTY_PCT : Fld := ⟨0x280, 0, 8, 0x64, .rw, 4, 4, .const⟩
def FAN_DUTY_EN : Fld := ⟨0x280, 16, 1, 0x0, .rw, 4, 4, .const⟩
def FAN_CFG_PWM_HZ : Fld := ⟨0x290, 0, 16, 0x61A8, .rw, 1, 4, .const⟩
def FAN_CFG_FAILSAFE_DUTY : Fld := ⟨0x290, 16, 8, 0x64, .rw, 1, 4, .const⟩
def FAN_CFG_FAILSAFE_S : Fld := ⟨0x290, 24, 8, 0x5, .rw, 1, 4, .const⟩
def GPIO_OUT_OUT : Fld := ⟨0x2A0, 0, 16, 0x0, .rw, 1, 4, .const⟩
def GPIO_OE_OE : Fld := ⟨0x2A4, 0, 16, 0x0, .rw, 1, 4, .const⟩
def GPIO_IN_IN : Fld := ⟨0x2A8, 0, 16, 0x0, .ro, 1, 4, .const⟩
def OUT_REFUSED_COUNT : Fld := ⟨0x2B0, 0, 16, 0x0, .rc, 1, 4, .const⟩
/-- Fields of the SPA page, part 1. -/
def map1 : List Fld := [SP_STS_ROLE, SP_STS_GRANT, HEALTH_WORD, HEALTH_AGE_MS, SP_OWN_HEARTBEAT, SP_OWN_TAKEOVER_DONE, SP_CNT, IL_STS_ROLE_A, IL_STS_ROLE_B, IL_STS_NO_ACTIVE, IL_STS_SWITCHING, IL_STS_OUT_HOLD, IL_STS_HEALTHY_A, IL_STS_HEALTHY_B, SP_CMD_OP, SP_CMD_TAG, HB_AGE_US, SW_LAST_CAUSE, SW_LAST_TO_B, SW_NT_NS_NS, SW_NT_SEC_SEC, GAP_LAST_US, GAP_MAX_US, SWITCH_CNT_COUNT]
/-- Fields of the SPA page, part 2. -/
def map2 : List Fld := [FAN_DUTY_PCT, FAN_DUTY_EN, FAN_CFG_PWM_HZ, FAN_CFG_FAILSAFE_DUTY, FAN_CFG_FAILSAFE_S, GPIO_OUT_OUT, GPIO_OE_OE, GPIO_IN_IN, OUT_REFUSED_COUNT]
/-- Every field of the SPA page beyond the common layout. -/
def map : List Fld := map1 ++ map2 ++ resFields SP_RES.off SP_RES.n SP_RES.stride
end SPA

namespace FWU
def FWU_STS_RUN_SLOT : Fld := ⟨0x100, 0, 2, 0x0, .ro, 1, 4, .const⟩
def FWU_STS_TRIAL : Fld := ⟨0x100, 2, 1, 0x0, .ro, 1, 4, .const⟩
def FWU_STS_CONFIRMED : Fld := ⟨0x100, 3, 1, 0x0, .ro, 1, 4, .const⟩
def FWU_STS_ARMED : Fld := ⟨0x100, 4, 1, 0x0, .ro, 1, 4, .const⟩
def FWU_STS_ARMED_SLOT : Fld := ⟨0x100, 5, 1, 0x0, .ro, 1, 4, .const⟩
def FWU_STS_FELL_BACK : Fld := ⟨0x100, 6, 1, 0x0, .ro, 1, 4, .const⟩
def FWU_STS_NO_IMAGE : Fld := ⟨0x100, 7, 1, 0x0, .ro, 1, 4, .const⟩
def FWU_STS_FUSE_SVN : Fld := ⟨0x100, 8, 7, 0x0, .ro, 1, 4, .const⟩
def FWU_STS_FB_REASON : Fld := ⟨0x100, 16, 3, 0x0, .ro, 1, 4, .const⟩
def RUN_VERSION_VERSION : Fld := ⟨0x104, 0, 32, 0x0, .ro, 1, 4, .const⟩
def RUN_INFO_SVN : Fld := ⟨0x108, 0, 8, 0x0, .ro, 1, 4, .const⟩
def RUN_INFO_SCHEMA : Fld := ⟨0x108, 16, 16, 0x0, .ro, 1, 4, .const⟩
def TRIAL_LEFT_SEC : Fld := ⟨0x10C, 0, 10, 0x0, .ro, 1, 4, .const⟩
def BOOT_LOG_A : Fld := ⟨0x110, 0, 4, 0x0, .ro, 1, 4, .const⟩
def BOOT_LOG_B : Fld := ⟨0x110, 4, 4, 0x0, .ro, 1, 4, .const⟩
def BOOT_LOG_RECOVERY : Fld := ⟨0x110, 8, 4, 0x0, .ro, 1, 4, .const⟩
def SLOT_VER_VERSION : Fld := ⟨0x120, 0, 32, 0x0, .ro, 3, 8, .const⟩
def SLOT_INFO_SVN : Fld := ⟨0x124, 0, 8, 0x0, .ro, 3, 8, .const⟩
def SLOT_INFO_SCHEMA : Fld := ⟨0x124, 8, 16, 0x0, .ro, 3, 8, .const⟩
def SLOT_INFO_CHECK : Fld := ⟨0x124, 24, 4, 0x0, .ro, 3, 8, .const⟩
def STG_ADDR_LO_ADDR : Fld := ⟨0x140, 0, 32, 0x0, .rw, 1, 4, .const⟩
def STG_ADDR_HI_ADDR : Fld := ⟨0x144, 0, 32, 0x0, .rw, 1, 4, .const⟩
def STG_LEN_BYTES : Fld := ⟨0x148, 0, 25, 0x0, .rw, 1, 4, .const⟩
def STG_OFF_OFFSET : Fld := ⟨0x150, 0, 26, 0x0, .rw, 1, 4, .const⟩
def FWU_CMD_OP : Fld := ⟨0x154, 0, 4, 0x0, .wo, 1, 4, .const⟩
def FWU_CMD_SLOT : Fld := ⟨0x154, 4, 2, 0x0, .wo, 1, 4, .const⟩
def FWU_CMD_TAG : Fld := ⟨0x154, 16, 8, 0x0, .wo, 1, 4, .const⟩
def FWU_RES : ResSet := ⟨0x180, 1, 0⟩
def FWU_CNT : Fld := ⟨0x200, 0, 64, 0x0, .cnt, 7, 8, .const⟩
/-- Fields of the FWU page, part 1. -/
def map1 : List Fld := [FWU_STS_RUN_SLOT, FWU_STS_TRIAL, FWU_STS_CONFIRMED, FWU_STS_ARMED, FWU_STS_ARMED_SLOT, FWU_STS_FELL_BACK, FWU_STS_NO_IMAGE, FWU_STS_FUSE_SVN, FWU_STS_FB_REASON, RUN_VERSION_VERSION, RUN_INFO_SVN, RUN_INFO_SCHEMA, TRIAL_LEFT_SEC, BOOT_LOG_A, BOOT_LOG_B, BOOT_LOG_RECOVERY, SLOT_VER_VERSION, SLOT_INFO_SVN, SLOT_INFO_SCHEMA, SLOT_INFO_CHECK, STG_ADDR_LO_ADDR, STG_ADDR_HI_ADDR, STG_LEN_BYTES, STG_OFF_OFFSET]
/-- Fields of the FWU page, part 2. -/
def map2 : List Fld := [FWU_CMD_OP, FWU_CMD_SLOT, FWU_CMD_TAG, FWU_CNT]
/-- Every field of the FWU page beyond the common layout. -/
def map : List Fld := map1 ++ map2 ++ resFields FWU_RES.off FWU_RES.n FWU_RES.stride
end FWU

namespace SEC
def SEC_STS_FACTORY : Fld := ⟨0x100, 0, 1, 0x0, .ro, 1, 4, .const⟩
def SEC_STS_BUSY : Fld := ⟨0x100, 1, 1, 0x0, .ro, 1, 4, .const⟩
def SEC_STS_ERASE_GEN : Fld := ⟨0x100, 4, 4, 0x0, .ro, 1, 4, .const⟩
def SEC_STS_KEY_REVOKED : Fld := ⟨0x100, 8, 4, 0x0, .ro, 1, 4, .const⟩
def NONCE_DATA : Fld := ⟨0x110, 0, 32, 0x0, .rw, 8, 4, .const⟩
def CHALLENGE_DATA : Fld := ⟨0x130, 0, 32, 0x0, .ro, 8, 4, .const⟩
def SEC_CMD_OP : Fld := ⟨0x150, 0, 3, 0x0, .wo, 1, 4, .const⟩
def SEC_CMD_TAG : Fld := ⟨0x150, 8, 8, 0x0, .wo, 1, 4, .const⟩
def WIN_SEL_PAGE : Fld := ⟨0x154, 0, 2, 0x0, .rw, 1, 4, .const⟩
def SEC_RES : ResSet := ⟨0x180, 1, 0⟩
def SEC_CNT : Fld := ⟨0x200, 0, 64, 0x0, .cnt, 4, 8, .const⟩
/-- Fields of the SEC page, part 1. -/
def map1 : List Fld := [SEC_STS_FACTORY, SEC_STS_BUSY, SEC_STS_ERASE_GEN, SEC_STS_KEY_REVOKED, NONCE_DATA, CHALLENGE_DATA, SEC_CMD_OP, SEC_CMD_TAG, WIN_SEL_PAGE, SEC_CNT]
/-- Every field of the SEC page beyond the common layout. -/
def map : List Fld := map1 ++ resFields SEC_RES.off SEC_RES.n SEC_RES.stride
end SEC

namespace OBS
def OBS_CTL_FATAL_SNAP : Fld := ⟨0x100, 0, 1, 0x0, .rw, 1, 4, .const⟩
def OBS_CTL_FATAL_FREEZE : Fld := ⟨0x100, 1, 1, 0x0, .rw, 1, 4, .const⟩
def BW_CFG_WINDOW_US : Fld := ⟨0x110, 0, 20, 0x3E8, .rw, 1, 4, .const⟩
def BW_CFG_EN : Fld := ⟨0x110, 31, 1, 0x0, .rw, 1, 4, .const⟩
def BW_SEQ_SEQ : Fld := ⟨0x114, 0, 32, 0x0, .ro, 1, 4, .const⟩
def BW_END_NS_NS : Fld := ⟨0x118, 0, 30, 0x0, .ro, 1, 4, .const⟩
def BW_END_SEC_SEC : Fld := ⟨0x11C, 0, 32, 0x0, .ro, 1, 4, .const⟩
def BW_LEN_US : Fld := ⟨0x120, 0, 20, 0x0, .ro, 1, 4, .const⟩
def TRACE_CTL_EN : Fld := ⟨0x130, 0, 1, 0x0, .rw, 1, 4, .const⟩
def TRACE_CTL_LOG2 : Fld := ⟨0x130, 1, 5, 0x10, .rw, 1, 4, .const⟩
def TRACE_CTL_WRAP : Fld := ⟨0x130, 6, 1, 0x0, .rw, 1, 4, .const⟩
def TRACE_CTL_HOST_EN : Fld := ⟨0x130, 7, 1, 0x0, .rw, 1, 4, .const⟩
def TRACE_CTL_ACCEPT_REMOTE : Fld := ⟨0x130, 8, 1, 0x0, .rw, 1, 4, .const⟩
def TRACE_STS_COUNT : Fld := ⟨0x134, 0, 13, 0x0, .ro, 1, 4, .const⟩
def TRACE_STS_STOPPED : Fld := ⟨0x134, 16, 1, 0x0, .ro, 1, 4, .const⟩
def TRACE_SEQ_SEQ : Fld := ⟨0x138, 0, 32, 0x0, .ro, 1, 4, .const⟩
def TRACE_VIEW_VIEW : Fld := ⟨0x13C, 0, 4, 0x0, .rw, 1, 4, .const⟩
def TRACE_PORT_PORTS : Fld := ⟨0x140, 0, 32, 0x0, .rw, 8, 4, .const⟩
def FLUSH_CTL_EN : Fld := ⟨0x160, 0, 1, 0x0, .rw, 1, 4, .const⟩
def FLUSH_CTL_DEST : Fld := ⟨0x160, 1, 1, 0x0, .rw, 1, 4, .const⟩
def FLUSH_CTL_SLOTS_LOG2 : Fld := ⟨0x160, 4, 4, 0x0, .rw, 1, 4, .const⟩
def FLUSH_BASE_LO_ADDR : Fld := ⟨0x164, 0, 32, 0x0, .rw, 1, 4, .const⟩
def FLUSH_BASE_HI_ADDR : Fld := ⟨0x168, 0, 32, 0x0, .rw, 1, 4, .const⟩
def FLUSH_STS_LAST_SEQ : Fld := ⟨0x16C, 0, 16, 0x0, .ro, 1, 4, .const⟩
def FLUSH_STS_BUSY : Fld := ⟨0x16C, 16, 1, 0x0, .ro, 1, 4, .const⟩
def TRACE_CMD_OP : Fld := ⟨0x170, 0, 2, 0x0, .wo, 1, 4, .const⟩
def TRACE_CMD_TAG : Fld := ⟨0x170, 8, 8, 0x0, .wo, 1, 4, .const⟩
def DUMP_ADDR_LO : Fld := ⟨0x174, 0, 32, 0x0, .rw, 1, 4, .const⟩
def DUMP_ADDR_HI : Fld := ⟨0x178, 0, 32, 0x0, .rw, 1, 4, .const⟩
def OBS_RES : ResSet := ⟨0x180, 1, 0⟩
def OBS_CNT : Fld := ⟨0x200, 0, 64, 0x0, .cnt, 8, 8, .const⟩
def BW_RX_BYTES : Fld := ⟨0x8000, 0, 64, 0x0, .cnt, 256, 32, .const⟩
def BW_RX_FRAMES_COUNT : Fld := ⟨0x8008, 0, 32, 0x0, .ctr, 256, 32, .const⟩
def BW_TX_BYTES : Fld := ⟨0x800C, 0, 64, 0x0, .cnt, 256, 32, .const⟩
def BW_TX_FRAMES_COUNT : Fld := ⟨0x8014, 0, 32, 0x0, .ctr, 256, 32, .const⟩
/-- Fields of the OBS page, part 1. -/
def map1 : List Fld := [OBS_CTL_FATAL_SNAP, OBS_CTL_FATAL_FREEZE, BW_CFG_WINDOW_US, BW_CFG_EN, BW_SEQ_SEQ, BW_END_NS_NS, BW_END_SEC_SEC, BW_LEN_US, TRACE_CTL_EN, TRACE_CTL_LOG2, TRACE_CTL_WRAP, TRACE_CTL_HOST_EN, TRACE_CTL_ACCEPT_REMOTE, TRACE_STS_COUNT, TRACE_STS_STOPPED, TRACE_SEQ_SEQ, TRACE_VIEW_VIEW, TRACE_PORT_PORTS, FLUSH_CTL_EN, FLUSH_CTL_DEST, FLUSH_CTL_SLOTS_LOG2, FLUSH_BASE_LO_ADDR, FLUSH_BASE_HI_ADDR, FLUSH_STS_LAST_SEQ]
/-- Fields of the OBS page, part 2. -/
def map2 : List Fld := [FLUSH_STS_BUSY, TRACE_CMD_OP, TRACE_CMD_TAG, DUMP_ADDR_LO, DUMP_ADDR_HI, OBS_CNT, BW_RX_BYTES, BW_RX_FRAMES_COUNT, BW_TX_BYTES, BW_TX_FRAMES_COUNT]
/-- Every field of the OBS page beyond the common layout. -/
def map : List Fld := map1 ++ map2 ++ resFields OBS_RES.off OBS_RES.n OBS_RES.stride
end OBS

namespace LOG
def LOG_CTL_CORR_EN : Fld := ⟨0x100, 0, 1, 0x0, .rw, 1, 4, .const⟩
def LOG_CTL_RATE_MS : Fld := ⟨0x100, 8, 8, 0x1, .rw, 1, 4, .const⟩
def LOG_STS_COUNT : Fld := ⟨0x104, 0, 14, 0x0, .ro, 1, 4, .const⟩
def HEAD_SEQ_SEQ : Fld := ⟨0x108, 0, 32, 0x0, .ro, 1, 4, .const⟩
def LOST_COUNT : Fld := ⟨0x10C, 0, 32, 0x0, .rc, 1, 4, .const⟩
def SUPPRESSED_COUNT : Fld := ⟨0x110, 0, 32, 0x0, .rc, 1, 4, .const⟩
def LOG_VIEW_VIEW : Fld := ⟨0x114, 0, 3, 0x0, .rw, 1, 4, .const⟩
def APPEND_W_WORD : Fld := ⟨0x120, 0, 32, 0x0, .rw, 3, 4, .const⟩
def LOG_CMD_OP : Fld := ⟨0x140, 0, 2, 0x0, .wo, 1, 4, .const⟩
def LOG_CMD_TAG : Fld := ⟨0x140, 8, 8, 0x0, .wo, 1, 4, .const⟩
def DUMP_ADDR_LO : Fld := ⟨0x144, 0, 32, 0x0, .rw, 1, 4, .const⟩
def DUMP_ADDR_HI : Fld := ⟨0x148, 0, 32, 0x0, .rw, 1, 4, .const⟩
def LOG_RES : ResSet := ⟨0x180, 1, 0⟩
def LOG_CNT : Fld := ⟨0x200, 0, 64, 0x0, .cnt, 5, 8, .const⟩
/-- Fields of the LOG page, part 1. -/
def map1 : List Fld := [LOG_CTL_CORR_EN, LOG_CTL_RATE_MS, LOG_STS_COUNT, HEAD_SEQ_SEQ, LOST_COUNT, SUPPRESSED_COUNT, LOG_VIEW_VIEW, APPEND_W_WORD, LOG_CMD_OP, LOG_CMD_TAG, DUMP_ADDR_LO, DUMP_ADDR_HI, LOG_CNT]
/-- Every field of the LOG page beyond the common layout. -/
def map : List Fld := map1 ++ resFields LOG_RES.off LOG_RES.n LOG_RES.stride
end LOG

namespace LEG
def LEG_CTL_EN : Fld := ⟨0x100, 0, 1, 0x0, .rw, 1, 4, .const⟩
def LEG_CTL_GATHER_US : Fld := ⟨0x100, 16, 16, 0x64, .rw, 1, 4, .const⟩
def LEG_STS_GATHERING : Fld := ⟨0x104, 0, 1, 0x0, .ro, 1, 4, .const⟩
def GATHER_SEQ_SEQ : Fld := ⟨0x108, 0, 32, 0x0, .ro, 1, 4, .const⟩
def PORT_CNT_COUNT : Fld := ⟨0x8000, 0, 32, 0x0, .ctr, 2048, 4, .const⟩
def DEV_CNT_COUNT : Fld := ⟨0xA000, 0, 32, 0x0, .ctr, 16, 4, .const⟩
def PORT_ALIAS : Fld := ⟨0xC000, 0, 32, 0x0, .rc, 2048, 4, .const⟩
def DEV_ALIAS : Fld := ⟨0xE000, 0, 32, 0x0, .rc, 16, 4, .const⟩
/-- Fields of the LEG page, part 1. -/
def map1 : List Fld := [LEG_CTL_EN, LEG_CTL_GATHER_US, LEG_STS_GATHERING, GATHER_SEQ_SEQ, PORT_CNT_COUNT, DEV_CNT_COUNT, PORT_ALIAS, DEV_ALIAS]
/-- Every field of the LEG page beyond the common layout. -/
def map : List Fld := map1
end LEG

end Sys2Proof.Machine
end

