-- ==== Sys2Proof/Machine/RegsPipe.lean ====
section
/-! DEFINITION. Machine/RegsPipe.lean: the register fields of the pipeline, lookup and range-search pages (R264 to R269, R316 to R321, R352),
one definition per field with its offset, low bit, width, reset value, access code, element count and stride, as the
page's register table gives them. -/

namespace Sys2Proof.Machine

namespace IPP
def IPP_CTL_DEAL_EN : Fld := ⟨0x100, 0, 1, 0x1, .rw, 1, 4, .const⟩
def IPP_STS_PAUSED : Fld := ⟨0x104, 0, 1, 0x0, .ro, 1, 4, .const⟩
def IPP_STS_BP : Fld := ⟨0x104, 1, 1, 0x0, .ro, 1, 4, .const⟩
def IPP_STS_PARKED : Fld := ⟨0x104, 8, 7, 0x0, .ro, 1, 4, .const⟩
def FRAMES : Fld := ⟨0x110, 0, 64, 0x0, .cnt, 1, 4, .const⟩
def PARITY_DROP : Fld := ⟨0x118, 0, 64, 0x0, .cnt, 1, 4, .const⟩
def PARKS : Fld := ⟨0x120, 0, 64, 0x0, .cnt, 1, 4, .const⟩
def PAUSE_CLK : Fld := ⟨0x128, 0, 64, 0x0, .cnt, 1, 4, .const⟩
def BP_CLK : Fld := ⟨0x130, 0, 64, 0x0, .cnt, 1, 4, .const⟩
/-- Fields of the IPP page, part 1. -/
def map1 : List Fld := [IPP_CTL_DEAL_EN, IPP_STS_PAUSED, IPP_STS_BP, IPP_STS_PARKED, FRAMES, PARITY_DROP, PARKS, PAUSE_CLK, BP_CLK]
/-- Every field of the IPP page beyond the common layout. -/
def map : List Fld := map1
end IPP

namespace EPP
def EPP_CTL_DEAL_EN : Fld := ⟨0x100, 0, 1, 0x1, .rw, 1, 4, .const⟩
def FRAMES : Fld := ⟨0x110, 0, 64, 0x0, .cnt, 1, 4, .const⟩
def POISON_DROP : Fld := ⟨0x118, 0, 64, 0x0, .cnt, 1, 4, .const⟩
def PARITY_DROP : Fld := ⟨0x120, 0, 64, 0x0, .cnt, 1, 4, .const⟩
def FCS_PASS : Fld := ⟨0x128, 0, 64, 0x0, .cnt, 1, 4, .const⟩
def FCS_NEW : Fld := ⟨0x130, 0, 64, 0x0, .cnt, 1, 4, .const⟩
/-- Fields of the EPP page, part 1. -/
def map1 : List Fld := [EPP_CTL_DEAL_EN, FRAMES, POISON_DROP, PARITY_DROP, FCS_PASS, FCS_NEW]
/-- Every field of the EPP page beyond the common layout. -/
def map : List Fld := map1
end EPP

namespace PRS
def HOST_START_KEY : Fld := ⟨0x100, 0, 16, 0x1, .rw, 1, 4, .const⟩
def TPL_STAGE_WORD : Fld := ⟨0x200, 0, 32, 0x0, .rw, 16, 4, .const⟩
def TPL_CMD_INDEX : Fld := ⟨0x240, 0, 7, 0x0, .wo, 1, 4, .const⟩
def TPL_CMD_OP : Fld := ⟨0x240, 8, 2, 0x0, .wo, 1, 4, .const⟩
def TPL_CMD_TAG : Fld := ⟨0x240, 16, 8, 0x0, .wo, 1, 4, .const⟩
def TPL_RES : ResSet := ⟨0x280, 1, 0⟩
def INCOMPLETE : Fld := ⟨0x300, 0, 64, 0x0, .cnt, 5, 8, .const⟩
def TEMPLATE : Fld := ⟨0x8000, 0, 32, 0x0, .ro, 2048, 4, .const⟩
def START_KEY_KEY : Fld := ⟨0xA000, 0, 16, 0x1, .rw, 256, 4, .const⟩
/-- Fields of the PRS page, part 1. -/
def map1 : List Fld := [HOST_START_KEY, TPL_STAGE_WORD, TPL_CMD_INDEX, TPL_CMD_OP, TPL_CMD_TAG, INCOMPLETE, TEMPLATE, START_KEY_KEY]
/-- Every field of the PRS page beyond the common layout. -/
def map : List Fld := map1 ++ resFields TPL_RES.off TPL_RES.n TPL_RES.stride
end PRS

namespace CLS
def CLS_CTL_PAUSE_EN : Fld := ⟨0x100, 0, 1, 0x1, .rw, 1, 4, .const⟩
def PAUSE_CFG_SPACING_US : Fld := ⟨0x104, 0, 16, 0x64, .rw, 1, 4, .const⟩
def PAUSE_CFG_HOLD_LOW : Fld := ⟨0x104, 16, 16, 0x20, .rw, 1, 4, .const⟩
def CLS_STS_PAUSED_C0 : Fld := ⟨0x108, 0, 1, 0x0, .ro, 1, 4, .const⟩
def CLS_STS_PAUSED_C1 : Fld := ⟨0x108, 1, 1, 0x0, .ro, 1, 4, .const⟩
def CLS_STS_WAIT_SPACING : Fld := ⟨0x108, 2, 1, 0x0, .ro, 1, 4, .const⟩
def ENTRY_CNT_COUNT : Fld := ⟨0x10C, 0, 20, 0x0, .ro, 1, 4, .const⟩
def SEED_SEED : Fld := ⟨0x110, 0, 32, 0x0, .rw, 4, 4, .clsSeed⟩
def CLS_CMD_OP : Fld := ⟨0x120, 0, 3, 0x0, .wo, 1, 4, .const⟩
def CLS_CMD_REPLACE : Fld := ⟨0x120, 3, 1, 0x0, .wo, 1, 4, .const⟩
def CLS_CMD_PROFILE : Fld := ⟨0x120, 4, 4, 0x0, .wo, 1, 4, .const⟩
def CLS_CMD_TAG : Fld := ⟨0x120, 8, 8, 0x0, .wo, 1, 4, .const⟩
def CMD_KEY_KEY : Fld := ⟨0x140, 0, 32, 0x0, .rw, 8, 4, .const⟩
def CMD_ACT_ACT : Fld := ⟨0x160, 0, 32, 0x0, .rw, 4, 4, .const⟩
def CLS_RES : ResSet := ⟨0x180, 1, 0⟩
def PROF_SLOTS_PART0 : Fld := ⟨0x200, 0, 6, 0x0, .rw, 16, 16, .const⟩
def PROF_SLOTS_PART1 : Fld := ⟨0x200, 8, 6, 0x0, .rw, 16, 16, .const⟩
def PROF_SLOTS_PART2 : Fld := ⟨0x200, 16, 6, 0x0, .rw, 16, 16, .const⟩
def PROF_SLOTS_PART3 : Fld := ⟨0x200, 24, 6, 0x0, .rw, 16, 16, .const⟩
def PROF_SLOTS2_PART4 : Fld := ⟨0x204, 0, 6, 0x0, .rw, 16, 16, .const⟩
def PROF_SLOTS2_PART5 : Fld := ⟨0x204, 8, 6, 0x0, .rw, 16, 16, .const⟩
def PROF_SLOTS2_PART6 : Fld := ⟨0x204, 16, 6, 0x0, .rw, 16, 16, .const⟩
def PROF_SLOTS2_PART7 : Fld := ⟨0x204, 24, 6, 0x0, .rw, 16, 16, .const⟩
def PROF_CFG_KEY_LEN : Fld := ⟨0x208, 0, 6, 0x0, .rw, 16, 16, .const⟩
def PROF_CFG_PARTS : Fld := ⟨0x208, 8, 3, 0x0, .rw, 16, 16, .const⟩
def PROF_CFG_VALID : Fld := ⟨0x208, 15, 1, 0x0, .rw, 16, 16, .const⟩
def MISS_ACT_ACT : Fld := ⟨0x20C, 0, 32, 0x0, .rw, 16, 16, .const⟩
def CLS_CNT : Fld := ⟨0x400, 0, 64, 0x0, .cnt, 5, 8, .const⟩
/-- Fields of the CLS page, part 1. -/
def map1 : List Fld := [CLS_CTL_PAUSE_EN, PAUSE_CFG_SPACING_US, PAUSE_CFG_HOLD_LOW, CLS_STS_PAUSED_C0, CLS_STS_PAUSED_C1, CLS_STS_WAIT_SPACING, ENTRY_CNT_COUNT, SEED_SEED, CLS_CMD_OP, CLS_CMD_REPLACE, CLS_CMD_PROFILE, CLS_CMD_TAG, CMD_KEY_KEY, CMD_ACT_ACT, PROF_SLOTS_PART0, PROF_SLOTS_PART1, PROF_SLOTS_PART2, PROF_SLOTS_PART3, PROF_SLOTS2_PART4, PROF_SLOTS2_PART5, PROF_SLOTS2_PART6, PROF_SLOTS2_PART7, PROF_CFG_KEY_LEN, PROF_CFG_PARTS]
/-- Fields of the CLS page, part 2. -/
def map2 : List Fld := [PROF_CFG_VALID, MISS_ACT_ACT, CLS_CNT]
/-- Every field of the CLS page beyond the common layout. -/
def map : List Fld := map1 ++ map2 ++ resFields CLS_RES.off CLS_RES.n CLS_RES.stride
end CLS

namespace PMM
def PMM_STS_WAITING : Fld := ⟨0x104, 0, 8, 0x0, .ro, 1, 4, .const⟩
def PMM_STS_BP : Fld := ⟨0x104, 16, 1, 0x0, .ro, 1, 4, .const⟩
def PAT_VAL_VAL : Fld := ⟨0x200, 0, 32, 0x0, .rw, 8, 4, .const⟩
def PAT_MASK_MASK : Fld := ⟨0x220, 0, 32, 0x0, .rw, 8, 4, .const⟩
def PAT_CFG_LEN : Fld := ⟨0x240, 0, 6, 0x0, .rw, 1, 4, .const⟩
def PAT_CFG_GROUP : Fld := ⟨0x240, 8, 4, 0x0, .rw, 1, 4, .const⟩
def PAT_CFG_VALID : Fld := ⟨0x240, 12, 1, 0x0, .rw, 1, 4, .const⟩
def PAT_RANGE_OFF_MIN : Fld := ⟨0x244, 0, 9, 0x0, .rw, 1, 4, .const⟩
def PAT_RANGE_OFF_MAX : Fld := ⟨0x244, 16, 9, 0x1FF, .rw, 1, 4, .const⟩
def PAT_CMD_INDEX : Fld := ⟨0x248, 0, 11, 0x0, .wo, 1, 4, .const⟩
def PAT_CMD_OP : Fld := ⟨0x248, 16, 2, 0x0, .wo, 1, 4, .const⟩
def PAT_CMD_TAG : Fld := ⟨0x248, 24, 8, 0x0, .wo, 1, 4, .const⟩
def PAT_RES : ResSet := ⟨0x280, 1, 0⟩
def PMM_CNT : Fld := ⟨0x300, 0, 64, 0x0, .cnt, 3, 8, .const⟩
/-- Fields of the PMM page, part 1. -/
def map1 : List Fld := [PMM_STS_WAITING, PMM_STS_BP, PAT_VAL_VAL, PAT_MASK_MASK, PAT_CFG_LEN, PAT_CFG_GROUP, PAT_CFG_VALID, PAT_RANGE_OFF_MIN, PAT_RANGE_OFF_MAX, PAT_CMD_INDEX, PAT_CMD_OP, PAT_CMD_TAG, PMM_CNT]
/-- Every field of the PMM page beyond the common layout. -/
def map : List Fld := map1 ++ resFields PAT_RES.off PAT_RES.n PAT_RES.stride
end PMM

namespace ORD
def ORD_CTL_GAP_TIMEOUT : Fld := ⟨0x100, 0, 16, 0x190, .rw, 1, 4, .const⟩
def ORD_STS_HELD : Fld := ⟨0x104, 0, 14, 0x0, .ro, 1, 4, .const⟩
def ORD_STS_DEAL_HOLD : Fld := ⟨0x104, 16, 1, 0x0, .ro, 1, 4, .const⟩
def ORD_CNT : Fld := ⟨0x110, 0, 64, 0x0, .cnt, 5, 8, .const⟩
def MAX_WAIT_NS : Fld := ⟨0x140, 0, 16, 0x0, .rc, 1, 4, .const⟩
def CTX_SEL_CTX : Fld := ⟨0x150, 0, 14, 0x0, .rw, 1, 4, .const⟩
def CTX_STS_NEXT : Fld := ⟨0x154, 0, 16, 0x0, .ro, 1, 4, .const⟩
def CTX_STS_HELD : Fld := ⟨0x154, 16, 16, 0x0, .ro, 1, 4, .const⟩
/-- Fields of the ORD page, part 1. -/
def map1 : List Fld := [ORD_CTL_GAP_TIMEOUT, ORD_STS_HELD, ORD_STS_DEAL_HOLD, ORD_CNT, MAX_WAIT_NS, CTX_SEL_CTX, CTX_STS_NEXT, CTX_STS_HELD]
/-- Every field of the ORD page beyond the common layout. -/
def map : List Fld := map1
end ORD

namespace LKP
def EPOCH_STS_CURRENT : Fld := ⟨0x100, 0, 16, 0x0, .ro, 1, 4, .const⟩
def EPOCH_STS_EPOCH_DRAINED : Fld := ⟨0x100, 16, 1, 0x1, .ro, 1, 4, .const⟩
def EPOCH_STS_COMMIT_WAIT : Fld := ⟨0x100, 17, 1, 0x0, .ro, 1, 4, .const⟩
def EPOCH_STS_GROUP_FAILED : Fld := ⟨0x100, 18, 1, 0x0, .ro, 1, 4, .const⟩
def EPOCH_CMD_COMMIT : Fld := ⟨0x104, 0, 1, 0x0, .wo, 1, 4, .const⟩
def EPOCH_CMD_DISCARD : Fld := ⟨0x104, 1, 1, 0x0, .wo, 1, 4, .const⟩
def VSTORE_STS_USED : Fld := ⟨0x108, 0, 13, 0x0, .ro, 1, 4, .const⟩
def VSTORE_STS_OPEN : Fld := ⟨0x108, 16, 13, 0x0, .ro, 1, 4, .const⟩
def LOCK_STS_LOCKED : Fld := ⟨0x10C, 0, 9, 0x0, .ro, 1, 4, .const⟩
def DRAIN_MAX_NS : Fld := ⟨0x110, 0, 16, 0x0, .rc, 1, 4, .const⟩
def MISS_NH_NH : Fld := ⟨0x114, 0, 20, 0x0, .rw, 1, 4, .const⟩
def LKP_CNT : Fld := ⟨0x120, 0, 64, 0x0, .cnt, 5, 8, .const⟩
def PROF_A_ADDR_SLOT : Fld := ⟨0x200, 0, 6, 0x0, .rw, 64, 16, .const⟩
def PROF_A_LPM_EN : Fld := ⟨0x200, 6, 1, 0x0, .rw, 64, 16, .const⟩
def PROF_A_IPV6 : Fld := ⟨0x200, 7, 1, 0x0, .rw, 64, 16, .const⟩
def PROF_A_MISS_TO_NH : Fld := ⟨0x200, 8, 1, 0x0, .rw, 64, 16, .const⟩
def PROF_A_EXM_EN : Fld := ⟨0x200, 16, 1, 0x0, .rw, 64, 16, .const⟩
def PROF_A_EXM_TABLE : Fld := ⟨0x200, 17, 4, 0x0, .rw, 64, 16, .const⟩
def PROF_A_LEARN_EN : Fld := ⟨0x200, 21, 1, 0x0, .rw, 64, 16, .const⟩
def PROF_A_SA_SLOT : Fld := ⟨0x200, 22, 6, 0x0, .rw, 64, 16, .const⟩
def PROF_B_PART0 : Fld := ⟨0x204, 0, 6, 0x0, .rw, 64, 16, .const⟩
def PROF_B_PART1 : Fld := ⟨0x204, 8, 6, 0x0, .rw, 64, 16, .const⟩
def PROF_B_PART2 : Fld := ⟨0x204, 16, 6, 0x0, .rw, 64, 16, .const⟩
def PROF_B_PART3 : Fld := ⟨0x204, 24, 6, 0x0, .rw, 64, 16, .const⟩
def PROF_C_HASH0 : Fld := ⟨0x208, 0, 6, 0x0, .rw, 64, 16, .const⟩
def PROF_C_HASH1 : Fld := ⟨0x208, 8, 6, 0x0, .rw, 64, 16, .const⟩
def PROF_C_HASH2 : Fld := ⟨0x208, 16, 6, 0x0, .rw, 64, 16, .const⟩
def PROF_C_HASH3 : Fld := ⟨0x208, 24, 6, 0x0, .rw, 64, 16, .const⟩
/-- Fields of the LKP page, part 1. -/
def map1 : List Fld := [EPOCH_STS_CURRENT, EPOCH_STS_EPOCH_DRAINED, EPOCH_STS_COMMIT_WAIT, EPOCH_STS_GROUP_FAILED, EPOCH_CMD_COMMIT, EPOCH_CMD_DISCARD, VSTORE_STS_USED, VSTORE_STS_OPEN, LOCK_STS_LOCKED, DRAIN_MAX_NS, MISS_NH_NH, LKP_CNT, PROF_A_ADDR_SLOT, PROF_A_LPM_EN, PROF_A_IPV6, PROF_A_MISS_TO_NH, PROF_A_EXM_EN, PROF_A_EXM_TABLE, PROF_A_LEARN_EN, PROF_A_SA_SLOT, PROF_B_PART0, PROF_B_PART1, PROF_B_PART2, PROF_B_PART3]
/-- Fields of the LKP page, part 2. -/
def map2 : List Fld := [PROF_C_HASH0, PROF_C_HASH1, PROF_C_HASH2, PROF_C_HASH3]
/-- Every field of the LKP page beyond the common layout. -/
def map : List Fld := map1 ++ map2
end LKP

namespace LPM
def LPM_CTL_V4_EN : Fld := ⟨0x100, 0, 1, 0x0, .rw, 1, 4, .const⟩
def LPM_CTL_V6_EN : Fld := ⟨0x100, 1, 1, 0x0, .rw, 1, 4, .const⟩
def SEED4_0_SEED : Fld := ⟨0x104, 0, 32, 0xFFFFFFFF, .rw, 1, 4, .const⟩
def SEED4_1_SEED : Fld := ⟨0x108, 0, 32, 0x5A5A1234, .rw, 1, 4, .const⟩
def SEED6_0_SEED : Fld := ⟨0x10C, 0, 32, 0xFFFFFFFF, .rw, 1, 4, .const⟩
def SEED6_1_SEED : Fld := ⟨0x110, 0, 32, 0x3C3C8765, .rw, 1, 4, .const⟩
def PREFIX_CNT_COUNT : Fld := ⟨0x114, 0, 25, 0x0, .ro, 1, 4, .const⟩
def LPM_CNT : Fld := ⟨0x120, 0, 64, 0x0, .cnt, 5, 8, .const⟩
def LEN_CFG_BASE : Fld := ⟨0x400, 0, 21, 0x0, .rw, 122, 4, .const⟩
def LEN_CFG_SIZE_LOG2 : Fld := ⟨0x400, 21, 5, 0x0, .rw, 122, 4, .const⟩
def LEN_CFG_HBM : Fld := ⟨0x400, 30, 1, 0x0, .rw, 122, 4, .const⟩
def LEN_CFG_VALID : Fld := ⟨0x400, 31, 1, 0x0, .rw, 122, 4, .const⟩
def VRF_DEF4_NH : Fld := ⟨0x8000, 0, 20, 0x0, .ro, 4096, 4, .const⟩
def VRF_DEF4_VALID : Fld := ⟨0x8000, 31, 1, 0x0, .ro, 4096, 4, .const⟩
def VRF_DEF6_NH : Fld := ⟨0xC000, 0, 20, 0x0, .ro, 4096, 4, .const⟩
def VRF_DEF6_VALID : Fld := ⟨0xC000, 31, 1, 0x0, .ro, 4096, 4, .const⟩
/-- Fields of the LPM page, part 1. -/
def map1 : List Fld := [LPM_CTL_V4_EN, LPM_CTL_V6_EN, SEED4_0_SEED, SEED4_1_SEED, SEED6_0_SEED, SEED6_1_SEED, PREFIX_CNT_COUNT, LPM_CNT, LEN_CFG_BASE, LEN_CFG_SIZE_LOG2, LEN_CFG_HBM, LEN_CFG_VALID, VRF_DEF4_NH, VRF_DEF4_VALID, VRF_DEF6_NH, VRF_DEF6_VALID]
/-- Every field of the LPM page beyond the common layout. -/
def map : List Fld := map1
end LPM

namespace EXM
def EXM_CTL_EN : Fld := ⟨0x100, 0, 1, 0x0, .rw, 1, 4, .const⟩
def SEED0_SEED : Fld := ⟨0x104, 0, 32, 0xFFFFFFFF, .rw, 1, 4, .const⟩
def SEED1_SEED : Fld := ⟨0x108, 0, 32, 0x7E570001, .rw, 1, 4, .const⟩
def LEARN_CTL_MAX_PER_MS : Fld := ⟨0x110, 0, 16, 0x0, .rw, 1, 4, .const⟩
def LEARN_CTL_MOVE_EN : Fld := ⟨0x110, 16, 1, 0x1, .rw, 1, 4, .const⟩
def LEARN_NH_BASE_NH : Fld := ⟨0x114, 0, 20, 0x0, .rw, 1, 4, .const⟩
def ENTRY_CNT_COUNT : Fld := ⟨0x118, 0, 25, 0x0, .ro, 1, 4, .const⟩
def EXM_CNT : Fld := ⟨0x120, 0, 64, 0x0, .cnt, 6, 8, .const⟩
def TBL_CFG_A_KEY_LEN : Fld := ⟨0x200, 0, 6, 0x0, .rw, 16, 8, .const⟩
def TBL_CFG_A_WIDE : Fld := ⟨0x200, 6, 1, 0x0, .rw, 16, 8, .const⟩
def TBL_CFG_A_VALID : Fld := ⟨0x200, 7, 1, 0x0, .rw, 16, 8, .const⟩
def TBL_CFG_A_HBM : Fld := ⟨0x200, 8, 1, 0x0, .rw, 16, 8, .const⟩
def TBL_CFG_A_SIZE_LOG2 : Fld := ⟨0x200, 24, 5, 0x0, .rw, 16, 8, .const⟩
def TBL_CFG_B_BASE : Fld := ⟨0x204, 0, 21, 0x0, .rw, 16, 8, .const⟩
/-- Fields of the EXM page, part 1. -/
def map1 : List Fld := [EXM_CTL_EN, SEED0_SEED, SEED1_SEED, LEARN_CTL_MAX_PER_MS, LEARN_CTL_MOVE_EN, LEARN_NH_BASE_NH, ENTRY_CNT_COUNT, EXM_CNT, TBL_CFG_A_KEY_LEN, TBL_CFG_A_WIDE, TBL_CFG_A_VALID, TBL_CFG_A_HBM, TBL_CFG_A_SIZE_LOG2, TBL_CFG_B_BASE]
/-- Every field of the EXM page beyond the common layout. -/
def map : List Fld := map1
end EXM

namespace NHP
def NHP_CTL_EN : Fld := ⟨0x100, 0, 1, 0x0, .rw, 1, 4, .const⟩
def ECMP_SEED_SEED : Fld := ⟨0x104, 0, 32, 0xFFFFFFFF, .rw, 1, 4, .const⟩
def FENCE_CMD_FENCE : Fld := ⟨0x108, 0, 1, 0x0, .wo, 1, 4, .const⟩
def FENCE_STS_BUSY : Fld := ⟨0x10C, 0, 1, 0x0, .ro, 1, 4, .const⟩
def FENCE_STS_GEN : Fld := ⟨0x10C, 1, 1, 0x0, .ro, 1, 4, .const⟩
def FENCE_STS_OLD_FRAMES : Fld := ⟨0x10C, 8, 24, 0x0, .ro, 1, 4, .const⟩
def NHP_CNT : Fld := ⟨0x120, 0, 64, 0x0, .cnt, 4, 8, .const⟩
/-- Fields of the NHP page, part 1. -/
def map1 : List Fld := [NHP_CTL_EN, ECMP_SEED_SEED, FENCE_CMD_FENCE, FENCE_STS_BUSY, FENCE_STS_GEN, FENCE_STS_OLD_FRAMES, NHP_CNT]
/-- Every field of the NHP page beyond the common layout. -/
def map : List Fld := map1
end NHP

namespace AGE
def AGE_CTL_EN : Fld := ⟨0x100, 0, 1, 0x0, .rw, 1, 4, .const⟩
def SWEEP_RATE_ROWS_PER_US : Fld := ⟨0x104, 0, 16, 0x100, .rw, 1, 4, .const⟩
def AGE_PERIOD_MS : Fld := ⟨0x200, 0, 16, 0x0, .rw, 16, 4, .const⟩
def RPT_BASE_LO_ADDR : Fld := ⟨0x300, 0, 32, 0x0, .rw, 1, 4, .const⟩
def RPT_BASE_HI_ADDR : Fld := ⟨0x304, 0, 32, 0x0, .rw, 1, 4, .const⟩
def RPT_CFG_SIZE_LOG2 : Fld := ⟨0x308, 0, 4, 0x0, .rw, 1, 4, .const⟩
def RPT_HEAD_INDEX : Fld := ⟨0x30C, 0, 24, 0x0, .ro, 1, 4, .const⟩
def RPT_TAIL_INDEX : Fld := ⟨0x310, 0, 24, 0x0, .rw, 1, 4, .const⟩
def RPT_SEC_SEC : Fld := ⟨0x314, 0, 32, 0x0, .ro, 1, 4, .const⟩
def AGE_CNT : Fld := ⟨0x320, 0, 64, 0x0, .cnt, 5, 8, .const⟩
/-- Fields of the AGE page, part 1. -/
def map1 : List Fld := [AGE_CTL_EN, SWEEP_RATE_ROWS_PER_US, AGE_PERIOD_MS, RPT_BASE_LO_ADDR, RPT_BASE_HI_ADDR, RPT_CFG_SIZE_LOG2, RPT_HEAD_INDEX, RPT_TAIL_INDEX, RPT_SEC_SEC, AGE_CNT]
/-- Every field of the AGE page beyond the common layout. -/
def map : List Fld := map1
end AGE

namespace SHD
def SHD_CTL_EN : Fld := ⟨0x100, 0, 1, 0x0, .rw, 1, 4, .const⟩
def SHD_CTL_REPAIR : Fld := ⟨0x100, 1, 1, 0x0, .rw, 1, 4, .const⟩
def SHD_CTL_RECHECK_US : Fld := ⟨0x100, 16, 16, 0x64, .rw, 1, 4, .const⟩
def SHD_RATE_ROWS_PER_MS : Fld := ⟨0x104, 0, 24, 0x1000, .rw, 1, 4, .const⟩
def SHD_TBL_EN_MASK : Fld := ⟨0x108, 0, 32, 0x0, .rw, 1, 4, .const⟩
def SHD_BASE_LO : Fld := ⟨0x200, 0, 32, 0x0, .rw, 32, 8, .const⟩
def SHD_BASE_HI : Fld := ⟨0x204, 0, 32, 0x0, .rw, 32, 8, .const⟩
def MM_HEAD_TABLE : Fld := ⟨0x300, 0, 5, 0x0, .ro, 1, 4, .const⟩
def MM_HEAD_VALID : Fld := ⟨0x300, 31, 1, 0x0, .ro, 1, 4, .const⟩
def MM_ROW_ROW : Fld := ⟨0x304, 0, 29, 0x0, .ro, 1, 4, .const⟩
def MM_POP_POP : Fld := ⟨0x308, 0, 1, 0x0, .wo, 1, 4, .const⟩
def MM_LEVEL_COUNT : Fld := ⟨0x30C, 0, 6, 0x0, .ro, 1, 4, .const⟩
def SHD_CNT : Fld := ⟨0x320, 0, 64, 0x0, .cnt, 5, 8, .const⟩
/-- Fields of the SHD page, part 1. -/
def map1 : List Fld := [SHD_CTL_EN, SHD_CTL_REPAIR, SHD_CTL_RECHECK_US, SHD_RATE_ROWS_PER_MS, SHD_TBL_EN_MASK, SHD_BASE_LO, SHD_BASE_HI, MM_HEAD_TABLE, MM_HEAD_VALID, MM_ROW_ROW, MM_POP_POP, MM_LEVEL_COUNT, SHD_CNT]
/-- Every field of the SHD page beyond the common layout. -/
def map : List Fld := map1
end SHD

namespace TDMA
def RING_BASE_LO_ADDR : Fld := ⟨0x100, 0, 32, 0x0, .rw, 4, 32, .const⟩
def RING_BASE_HI_ADDR : Fld := ⟨0x104, 0, 32, 0x0, .rw, 4, 32, .const⟩
def RING_CTL_EN : Fld := ⟨0x108, 0, 1, 0x0, .rw, 4, 32, .const⟩
def RING_CTL_ABORT : Fld := ⟨0x108, 1, 1, 0x0, .wo, 4, 32, .const⟩
def RING_STS_HEAD : Fld := ⟨0x10C, 0, 6, 0x0, .ro, 4, 32, .const⟩
def RING_STS_OUTSTANDING : Fld := ⟨0x10C, 8, 7, 0x0, .ro, 4, 32, .const⟩
def RING_STS_RUNNING : Fld := ⟨0x10C, 16, 1, 0x0, .ro, 4, 32, .const⟩
def DOORBELL_COUNT : Fld := ⟨0x110, 0, 7, 0x0, .wo, 4, 32, .const⟩
def DOORBELL_TAG : Fld := ⟨0x110, 8, 8, 0x0, .wo, 4, 32, .const⟩
def DB_RES : ResSet := ⟨0x200, 4, 64⟩
def TDMA_CNT : Fld := ⟨0x300, 0, 64, 0x0, .cnt, 4, 8, .const⟩
/-- Fields of the TDMA page, part 1. -/
def map1 : List Fld := [RING_BASE_LO_ADDR, RING_BASE_HI_ADDR, RING_CTL_EN, RING_CTL_ABORT, RING_STS_HEAD, RING_STS_OUTSTANDING, RING_STS_RUNNING, DOORBELL_COUNT, DOORBELL_TAG, TDMA_CNT]
/-- Every field of the TDMA page beyond the common layout. -/
def map : List Fld := map1 ++ resFields DB_RES.off DB_RES.n DB_RES.stride
end TDMA

namespace RSU
def BANK_CFG_WIDTH : Fld := ⟨0x100, 0, 2, 0x0, .rw, 4, 4, .rsuWidth⟩
def BANK_CFG_HOLE_INT : Fld := ⟨0x100, 4, 7, 0x8, .rw, 4, 4, .const⟩
def ENTRY_CNT_COUNT : Fld := ⟨0x110, 0, 14, 0x0, .ro, 4, 4, .const⟩
def STAGE_CTL_PRIORITY : Fld := ⟨0x120, 0, 16, 0x0, .rw, 1, 4, .const⟩
def STAGE_CTL_VALID : Fld := ⟨0x120, 16, 1, 0x0, .rw, 1, 4, .const⟩
def STAGE_ACT_ACT : Fld := ⟨0x124, 0, 32, 0x0, .rw, 1, 4, .const⟩
def RS_CMD_OP : Fld := ⟨0x140, 0, 4, 0x0, .wo, 1, 4, .const⟩
def RS_CMD_BANK : Fld := ⟨0x140, 4, 2, 0x0, .wo, 1, 4, .const⟩
def RS_CMD_TAG : Fld := ⟨0x140, 16, 8, 0x0, .wo, 1, 4, .const⟩
def RS_INDEX_INDEX : Fld := ⟨0x144, 0, 13, 0x0, .rw, 1, 4, .const⟩
def RS_INDEX_HOLE : Fld := ⟨0x144, 16, 13, 0x0, .rw, 1, 4, .const⟩
def RS_INDEX_AUTO : Fld := ⟨0x144, 31, 1, 0x0, .rw, 1, 4, .const⟩
def RS_RES : ResSet := ⟨0x180, 1, 0⟩
def STAGE_RANGE_LO : Fld := ⟨0x200, 0, 16, 0x0, .rw, 64, 4, .const⟩
def STAGE_RANGE_HI : Fld := ⟨0x200, 16, 16, 0x0, .rw, 64, 4, .const⟩
def RSU_CNT : Fld := ⟨0x300, 0, 64, 0x0, .cnt, 3, 8, .const⟩
def RSU_MODE_REPLICA : Fld := ⟨0x400, 0, 1, 0x0, .rw, 1, 4, .const⟩
def RSU_MODE_TIE_DET : Fld := ⟨0x400, 1, 1, 0x0, .rw, 1, 4, .const⟩
def RSQ_STS_QUEUED : Fld := ⟨0x404, 0, 9, 0x0, .ro, 1, 4, .const⟩
def RSQ_STS_BP : Fld := ⟨0x404, 16, 1, 0x0, .ro, 1, 4, .const⟩
def TIE_CAP0_BANK : Fld := ⟨0x408, 0, 4, 0x0, .ro, 1, 4, .const⟩
def TIE_CAP0_INDEX : Fld := ⟨0x408, 4, 13, 0x0, .ro, 1, 4, .const⟩
def TIE_CAP0_VALID : Fld := ⟨0x408, 31, 1, 0x0, .w1c, 1, 4, .const⟩
def TIE_CAP1_BANK : Fld := ⟨0x40C, 0, 4, 0x0, .ro, 1, 4, .const⟩
def TIE_CAP1_INDEX : Fld := ⟨0x40C, 4, 13, 0x0, .ro, 1, 4, .const⟩
def TIE_CAP2_PRIORITY : Fld := ⟨0x410, 0, 16, 0x0, .ro, 1, 4, .const⟩
def ERR_CAP_BANK : Fld := ⟨0x414, 0, 4, 0x0, .ro, 1, 4, .const⟩
def ERR_CAP_UNIT : Fld := ⟨0x414, 4, 13, 0x0, .ro, 1, 4, .const⟩
def ERR_CAP_VALID : Fld := ⟨0x414, 31, 1, 0x0, .w1c, 1, 4, .const⟩
def PROF_CFG_BANK_MASK : Fld := ⟨0x500, 0, 16, 0x0, .rw, 16, 16, .const⟩
def PROF_CFG_WIDTH : Fld := ⟨0x500, 16, 2, 0x0, .rw, 16, 16, .const⟩
def PROF_CFG_MISS_DROP : Fld := ⟨0x500, 18, 1, 0x0, .rw, 16, 16, .const⟩
def PROF_CFG_PARTS : Fld := ⟨0x500, 20, 3, 0x0, .rw, 16, 16, .const⟩
def PROF_CFG_VALID : Fld := ⟨0x500, 31, 1, 0x0, .rw, 16, 16, .const⟩
def PROF_SLOTS_A_PART0 : Fld := ⟨0x504, 0, 6, 0x0, .rw, 16, 16, .const⟩
def PROF_SLOTS_A_PART1 : Fld := ⟨0x504, 8, 6, 0x0, .rw, 16, 16, .const⟩
def PROF_SLOTS_A_PART2 : Fld := ⟨0x504, 16, 6, 0x0, .rw, 16, 16, .const⟩
def PROF_SLOTS_A_PART3 : Fld := ⟨0x504, 24, 6, 0x0, .rw, 16, 16, .const⟩
def PROF_SLOTS_B_PART4 : Fld := ⟨0x508, 0, 6, 0x0, .rw, 16, 16, .const⟩
def PROF_SLOTS_B_PART5 : Fld := ⟨0x508, 8, 6, 0x0, .rw, 16, 16, .const⟩
def PROF_SLOTS_B_PART6 : Fld := ⟨0x508, 16, 6, 0x0, .rw, 16, 16, .const⟩
def PROF_SLOTS_B_PART7 : Fld := ⟨0x508, 24, 6, 0x0, .rw, 16, 16, .const⟩
def RSU_GCNT : Fld := ⟨0x600, 0, 64, 0x0, .cnt, 8, 8, .const⟩
/-- Fields of the RSU page, part 1. -/
def map1 : List Fld := [BANK_CFG_WIDTH, BANK_CFG_HOLE_INT, ENTRY_CNT_COUNT, STAGE_CTL_PRIORITY, STAGE_CTL_VALID, STAGE_ACT_ACT, RS_CMD_OP, RS_CMD_BANK, RS_CMD_TAG, RS_INDEX_INDEX, RS_INDEX_HOLE, RS_INDEX_AUTO, STAGE_RANGE_LO, STAGE_RANGE_HI, RSU_CNT, RSU_MODE_REPLICA, RSU_MODE_TIE_DET, RSQ_STS_QUEUED, RSQ_STS_BP, TIE_CAP0_BANK, TIE_CAP0_INDEX, TIE_CAP0_VALID, TIE_CAP1_BANK, TIE_CAP1_INDEX]
/-- Fields of the RSU page, part 2. -/
def map2 : List Fld := [TIE_CAP2_PRIORITY, ERR_CAP_BANK, ERR_CAP_UNIT, ERR_CAP_VALID, PROF_CFG_BANK_MASK, PROF_CFG_WIDTH, PROF_CFG_MISS_DROP, PROF_CFG_PARTS, PROF_CFG_VALID, PROF_SLOTS_A_PART0, PROF_SLOTS_A_PART1, PROF_SLOTS_A_PART2, PROF_SLOTS_A_PART3, PROF_SLOTS_B_PART4, PROF_SLOTS_B_PART5, PROF_SLOTS_B_PART6, PROF_SLOTS_B_PART7, RSU_GCNT]
/-- Every field of the RSU page beyond the common layout. -/
def map : List Fld := map1 ++ map2 ++ resFields RS_RES.off RS_RES.n RS_RES.stride
end RSU

end Sys2Proof.Machine
end

