-- ==== Sys2Proof/Machine/RegsQd.lean ====
section
/-! DEFINITION. Machine/RegsQd.lean: the register fields of the QD pages (R390 to R396, R429 to R431, R484 to R490, R526),
one definition per field with its offset, low bit, width, reset value, access code, element count and stride, as the
page's register table gives them. -/

namespace Sys2Proof.Machine

namespace BPM
def POOL_CARVE_MIB : Fld := ⟨0x100, 0, 9, 0x0, .rw, 4, 4, .carve⟩
def CARVE_STS_APPLIED : Fld := ⟨0x110, 0, 1, 0x0, .ro, 1, 4, .const⟩
def CARVE_STS_BAD_SUM : Fld := ⟨0x110, 1, 1, 0x0, .ro, 1, 4, .const⟩
def SPILL_SPLIT_GIB_4K : Fld := ⟨0x114, 0, 8, 0x30, .rw, 1, 4, .const⟩
def POOL_FREE_COUNT : Fld := ⟨0x120, 0, 19, 0x0, .ro, 4, 4, .const⟩
def POOL_PEAK_COUNT : Fld := ⟨0x130, 0, 19, 0x0, .rc, 4, 4, .const⟩
def SPILL_FREE_COUNT : Fld := ⟨0x140, 0, 24, 0x0, .ro, 2, 4, .const⟩
def REFUSE_CAP0_REQUESTER : Fld := ⟨0x150, 0, 24, 0x0, .ro, 1, 4, .const⟩
def REFUSE_CAP0_VALID : Fld := ⟨0x150, 31, 1, 0x0, .w1c, 1, 4, .const⟩
def REFUSE_CAP1_OWNER : Fld := ⟨0x154, 0, 24, 0x0, .ro, 1, 4, .const⟩
def REFUSE_CAP2_BUFFER : Fld := ⟨0x158, 0, 24, 0x0, .ro, 1, 4, .const⟩
def REFUSE_CAP2_POOL : Fld := ⟨0x158, 24, 3, 0x0, .ro, 1, 4, .const⟩
def LOST_COUNT : Fld := ⟨0x160, 0, 16, 0x0, .ctr, 1, 4, .const⟩
def BPM_CNT : Fld := ⟨0x200, 0, 64, 0x0, .cnt, 7, 8, .const⟩
/-- Fields of the BPM page, part 1. -/
def map1 : List Fld := [POOL_CARVE_MIB, CARVE_STS_APPLIED, CARVE_STS_BAD_SUM, SPILL_SPLIT_GIB_4K, POOL_FREE_COUNT, POOL_PEAK_COUNT, SPILL_FREE_COUNT, REFUSE_CAP0_REQUESTER, REFUSE_CAP0_VALID, REFUSE_CAP1_OWNER, REFUSE_CAP2_BUFFER, REFUSE_CAP2_POOL, LOST_COUNT, BPM_CNT]
/-- Every field of the BPM page beyond the common layout. -/
def map : List Fld := map1
end BPM

namespace BRM
def BRIM_CTL_HI_PM : Fld := ⟨0x100, 0, 10, 0x2EE, .rw, 1, 4, .const⟩
def BRIM_CTL_LO_PM : Fld := ⟨0x100, 16, 10, 0x2BC, .rw, 1, 4, .const⟩
def BRIM_CTL_SPILL_EN : Fld := ⟨0x100, 31, 1, 0x1, .rw, 1, 4, .const⟩
def BRIM_STS_POOL_SPILL : Fld := ⟨0x104, 0, 4, 0x0, .ro, 1, 4, .const⟩
def BRIM_STS_WSTG_FULL : Fld := ⟨0x104, 8, 1, 0x0, .ro, 1, 4, .const⟩
def WSTG_LEVEL_BYTES : Fld := ⟨0x108, 0, 23, 0x0, .ro, 1, 4, .const⟩
def RBUF_LEVEL_BYTES : Fld := ⟨0x10C, 0, 23, 0x0, .ro, 1, 4, .const⟩
def SPILL_QUEUES_COUNT : Fld := ⟨0x110, 0, 19, 0x0, .ro, 1, 4, .const⟩
def BRM_CNT : Fld := ⟨0x200, 0, 64, 0x0, .cnt, 7, 8, .const⟩
/-- Fields of the BRM page, part 1. -/
def map1 : List Fld := [BRIM_CTL_HI_PM, BRIM_CTL_LO_PM, BRIM_CTL_SPILL_EN, BRIM_STS_POOL_SPILL, BRIM_STS_WSTG_FULL, WSTG_LEVEL_BYTES, RBUF_LEVEL_BYTES, SPILL_QUEUES_COUNT, BRM_CNT]
/-- Every field of the BRM page beyond the common layout. -/
def map : List Fld := map1
end BRM

namespace ADM
def ADM_CTL_ECN_EN : Fld := ⟨0x100, 0, 1, 0x1, .rw, 1, 4, .const⟩
def ADM_CTL_SEED : Fld := ⟨0x100, 16, 16, 0xACE1, .rw, 1, 4, .const⟩
def QSEL_QUEUE : Fld := ⟨0x104, 0, 19, 0x0, .rw, 1, 4, .const⟩
def QPROF_PROFILE : Fld := ⟨0x108, 0, 6, 0x0, .rw, 1, 4, .const⟩
def QDEPTH_DEPTH : Fld := ⟨0x10C, 0, 28, 0x0, .ro, 1, 4, .const⟩
def QHBM_DEPTH : Fld := ⟨0x110, 0, 28, 0x0, .ro, 1, 4, .const⟩
def QSTS_SPILL : Fld := ⟨0x114, 0, 1, 0x0, .ro, 1, 4, .const⟩
def QSTS_RESIDUE : Fld := ⟨0x114, 1, 1, 0x0, .ro, 1, 4, .const⟩
def QSTS_HALTED : Fld := ⟨0x114, 2, 1, 0x0, .ro, 1, 4, .const⟩
def ADM_CNT : Fld := ⟨0x120, 0, 64, 0x0, .cnt, 7, 8, .const⟩
def PROF_Q_MAX : Fld := ⟨0x8000, 0, 28, 0x10000, .rw, 64, 32, .const⟩
def PROF_MIN_GUAR : Fld := ⟨0x8004, 0, 28, 0x40, .rw, 64, 32, .const⟩
def PROF_ALPHA : Fld := ⟨0x8008, 0, 4, 0x7, .rw, 64, 32, .const⟩
def PROF_DT_EN : Fld := ⟨0x8008, 4, 1, 0x1, .rw, 64, 32, .const⟩
def PROF_SPILL_EN : Fld := ⟨0x8008, 5, 1, 0x1, .rw, 64, 32, .const⟩
def PROF_NONECT_DROP : Fld := ⟨0x8008, 6, 1, 0x0, .rw, 64, 32, .const⟩
def PROF_PREFETCH : Fld := ⟨0x8008, 8, 8, 0x40, .rw, 64, 32, .const⟩
def PROF_MARK_DEPTH : Fld := ⟨0x800C, 0, 28, 0x100, .rw, 64, 32, .const⟩
def PROF_MARK_SLOPE : Fld := ⟨0x8010, 0, 16, 0x40, .rw, 64, 32, .const⟩
def PROF_QBRIM_HI : Fld := ⟨0x8014, 0, 28, 0xFFFFFFF, .rw, 64, 32, .const⟩
def PROF_QBRIM_LO : Fld := ⟨0x8018, 0, 28, 0xFFFFFFF, .rw, 64, 32, .const⟩
/-- Fields of the ADM page, part 1. -/
def map1 : List Fld := [ADM_CTL_ECN_EN, ADM_CTL_SEED, QSEL_QUEUE, QPROF_PROFILE, QDEPTH_DEPTH, QHBM_DEPTH, QSTS_SPILL, QSTS_RESIDUE, QSTS_HALTED, ADM_CNT, PROF_Q_MAX, PROF_MIN_GUAR, PROF_ALPHA, PROF_DT_EN, PROF_SPILL_EN, PROF_NONECT_DROP, PROF_PREFETCH, PROF_MARK_DEPTH, PROF_MARK_SLOPE, PROF_QBRIM_HI, PROF_QBRIM_LO]
/-- Every field of the ADM page beyond the common layout. -/
def map : List Fld := map1
end ADM

namespace MCR
def MCR_CTL_RES_TO_US : Fld := ⟨0x100, 0, 16, 0x7D0, .rw, 1, 4, .const⟩
def MCR_CTL_RES_PRESS_PM : Fld := ⟨0x100, 16, 10, 0x384, .rw, 1, 4, .const⟩
def MCD_STS_IN_USE : Fld := ⟨0x104, 0, 14, 0x0, .ro, 1, 4, .const⟩
def MCD_STS_WAITING : Fld := ⟨0x104, 16, 14, 0x0, .ro, 1, 4, .const⟩
def MCD_PEAK_COUNT : Fld := ⟨0x108, 0, 14, 0x0, .rc, 1, 4, .const⟩
def GRP_IDX_GROUP : Fld := ⟨0x110, 0, 16, 0x0, .rw, 1, 4, .const⟩
def GRP_DATA_LIST_BASE : Fld := ⟨0x114, 0, 18, 0x0, .rw, 1, 4, .const⟩
def GRP_DATA_COUNT : Fld := ⟨0x114, 18, 11, 0x0, .rw, 1, 4, .const⟩
def GRP_DATA_VALID : Fld := ⟨0x114, 31, 1, 0x0, .rw, 1, 4, .const⟩
def LIST_IDX_ENTRY : Fld := ⟨0x118, 0, 18, 0x0, .rw, 1, 4, .const⟩
def LIST_DATA_REPLICA : Fld := ⟨0x11C, 0, 32, 0x0, .rw, 1, 4, .const⟩
def RESIDUE_DROP : Fld := ⟨0x200, 0, 64, 0x0, .cnt, 256, 8, .const⟩
def RESIDUE_DROP_FAB : Fld := ⟨0xA00, 0, 64, 0x0, .cnt, 1, 4, .const⟩
def MCR_CNT : Fld := ⟨0xA10, 0, 64, 0x0, .cnt, 9, 8, .const⟩
/-- Fields of the MCR page, part 1. -/
def map1 : List Fld := [MCR_CTL_RES_TO_US, MCR_CTL_RES_PRESS_PM, MCD_STS_IN_USE, MCD_STS_WAITING, MCD_PEAK_COUNT, GRP_IDX_GROUP, GRP_DATA_LIST_BASE, GRP_DATA_COUNT, GRP_DATA_VALID, LIST_IDX_ENTRY, LIST_DATA_REPLICA, RESIDUE_DROP, RESIDUE_DROP_FAB, MCR_CNT]
/-- Every field of the MCR page beyond the common layout. -/
def map : List Fld := map1
end MCR

namespace QSU
def QSU_CTL_DOWN_DISCARD : Fld := ⟨0x100, 0, 1, 0x1, .rw, 1, 4, .const⟩
def HOST_PORT_PORT : Fld := ⟨0x104, 0, 8, 0xFF, .rw, 1, 4, .const⟩
def HOST_CS_CSET : Fld := ⟨0x108, 0, 16, 0x0, .rw, 1, 4, .const⟩
def FAB_W0_FAB_W0 : Fld := ⟨0x10C, 0, 8, 0x1, .rw, 1, 4, .const⟩
def FAB_W0_FAB_W1 : Fld := ⟨0x10C, 8, 8, 0x1, .rw, 1, 4, .const⟩
def FAB_W0_FAB_W2 : Fld := ⟨0x10C, 16, 8, 0x1, .rw, 1, 4, .const⟩
def FAB_W0_FAB_W3 : Fld := ⟨0x10C, 24, 8, 0x1, .rw, 1, 4, .const⟩
def FAB_W1_FAB_W4 : Fld := ⟨0x110, 0, 8, 0x1, .rw, 1, 4, .const⟩
def FAB_W1_FAB_W5 : Fld := ⟨0x110, 8, 8, 0x1, .rw, 1, 4, .const⟩
def FAB_W1_FAB_W6 : Fld := ⟨0x110, 16, 8, 0x1, .rw, 1, 4, .const⟩
def HALT_CAP_QUEUE : Fld := ⟨0x114, 0, 19, 0x0, .ro, 1, 4, .const⟩
def HALT_CAP_VALID : Fld := ⟨0x114, 31, 1, 0x0, .w1c, 1, 4, .const⟩
def QSU_CMD_OP : Fld := ⟨0x120, 0, 2, 0x0, .wo, 1, 4, .const⟩
def QSU_CMD_SWEEP : Fld := ⟨0x120, 2, 1, 0x0, .wo, 1, 4, .const⟩
def QSU_CMD_TAG : Fld := ⟨0x120, 8, 8, 0x0, .wo, 1, 4, .const⟩
def QSU_CMD_Q_QUEUE : Fld := ⟨0x124, 0, 19, 0x0, .rw, 1, 4, .const⟩
def QSU_RES : ResSet := ⟨0x140, 1, 0⟩
def QSU_CNT : Fld := ⟨0x200, 0, 64, 0x0, .cnt, 6, 8, .const⟩
def EXP_CFG_EXP_BURST : Fld := ⟨0x8000, 0, 16, 0x800, .rw, 256, 8, .const⟩
def EXP_CFG_POLICE_EN : Fld := ⟨0x8000, 16, 1, 0x0, .rw, 256, 8, .const⟩
def EXP_RATE_MBPS : Fld := ⟨0x8004, 0, 22, 0x0, .rw, 256, 8, .const⟩
def EXP_LEVEL_BYTES : Fld := ⟨0x8800, 0, 16, 0x0, .ro, 256, 4, .const⟩
/-- Fields of the QSU page, part 1. -/
def map1 : List Fld := [QSU_CTL_DOWN_DISCARD, HOST_PORT_PORT, HOST_CS_CSET, FAB_W0_FAB_W0, FAB_W0_FAB_W1, FAB_W0_FAB_W2, FAB_W0_FAB_W3, FAB_W1_FAB_W4, FAB_W1_FAB_W5, FAB_W1_FAB_W6, HALT_CAP_QUEUE, HALT_CAP_VALID, QSU_CMD_OP, QSU_CMD_SWEEP, QSU_CMD_TAG, QSU_CMD_Q_QUEUE, QSU_CNT, EXP_CFG_EXP_BURST, EXP_CFG_POLICE_EN, EXP_RATE_MBPS, EXP_LEVEL_BYTES]
/-- Every field of the QSU page beyond the common layout. -/
def map : List Fld := map1 ++ resFields QSU_RES.off QSU_RES.n QSU_RES.stride
end QSU

namespace SCH
def NODE_IDX_INDEX : Fld := ⟨0x104, 0, 18, 0x0, .rw, 1, 4, .const⟩
def NODE_W_WORD : Fld := ⟨0x110, 0, 32, 0x0, .rw, 4, 4, .const⟩
def NODE_CMD_OP : Fld := ⟨0x120, 0, 2, 0x0, .wo, 1, 4, .const⟩
def NODE_CMD_TAG : Fld := ⟨0x120, 8, 8, 0x0, .wo, 1, 4, .const⟩
def NODE_RES : ResSet := ⟨0x140, 1, 0⟩
def SCH_CNT : Fld := ⟨0x200, 0, 64, 0x0, .cnt, 4, 8, .const⟩
/-- Fields of the SCH page, part 1. -/
def map1 : List Fld := [NODE_IDX_INDEX, NODE_W_WORD, NODE_CMD_OP, NODE_CMD_TAG, SCH_CNT]
/-- Every field of the SCH page beyond the common layout. -/
def map : List Fld := map1 ++ resFields NODE_RES.off NODE_RES.n NODE_RES.stride
end SCH

namespace SHP
def PROF_A_RATE : Fld := ⟨0x8000, 0, 22, 0x0, .rw, 4096, 8, .const⟩
def PROF_A_VALID : Fld := ⟨0x8000, 31, 1, 0x0, .rw, 4096, 8, .const⟩
def PROF_B_BURST : Fld := ⟨0x8004, 0, 16, 0x40, .rw, 4096, 8, .const⟩
def PROF_B_OVERHEAD : Fld := ⟨0x8004, 16, 8, 0x14, .rw, 4096, 8, .const⟩
/-- Fields of the SHP page, part 1. -/
def map1 : List Fld := [PROF_A_RATE, PROF_A_VALID, PROF_B_BURST, PROF_B_OVERHEAD]
/-- Every field of the SHP page beyond the common layout. -/
def map : List Fld := map1
end SHP

namespace FIU
def LINK_CTL_EN : Fld := ⟨0x100, 0, 1, 0x0, .rw, 32, 32, .const⟩
def LINK_CTL_SPRAY_EN : Fld := ⟨0x100, 1, 1, 0x1, .rw, 32, 32, .const⟩
def LINK_CTL_DOZE : Fld := ⟨0x100, 2, 1, 0x0, .rw, 32, 32, .const⟩
def LINK_CTL_DOZE_ALLOW : Fld := ⟨0x100, 3, 1, 0x1, .rw, 32, 32, .const⟩
def LINK_CTL_EXPECT_EN : Fld := ⟨0x100, 4, 1, 0x0, .rw, 32, 32, .const⟩
def LINK_CTL_FORCE_DOWN : Fld := ⟨0x100, 5, 1, 0x0, .rw, 32, 32, .const⟩
def LINK_STS_STATE : Fld := ⟨0x104, 0, 3, 0x0, .ro, 32, 32, .const⟩
def LINK_STS_SF_LOCK : Fld := ⟨0x104, 3, 1, 0x0, .ro, 32, 32, .const⟩
def LINK_STS_FAR_RX_OK : Fld := ⟨0x104, 4, 1, 0x0, .ro, 32, 32, .const⟩
def LINK_STS_IN_MASK : Fld := ⟨0x104, 5, 1, 0x0, .ro, 32, 32, .const⟩
def LINK_STS_FAR_TIER : Fld := ⟨0x104, 6, 2, 0x0, .ro, 32, 32, .const⟩
def LINK_STS_FAR_DEV : Fld := ⟨0x104, 8, 12, 0x0, .ro, 32, 32, .const⟩
def LINK_STS_FAR_LINK : Fld := ⟨0x104, 20, 9, 0x0, .ro, 32, 32, .const⟩
def LINK_EXPECT_DEV : Fld := ⟨0x108, 0, 12, 0x0, .rw, 32, 32, .const⟩
def LINK_EXPECT_LINK : Fld := ⟨0x108, 12, 9, 0x0, .rw, 32, 32, .const⟩
def LINK_EXPECT_TIER : Fld := ⟨0x108, 21, 2, 0x0, .rw, 32, 32, .const⟩
def LANE_CTL_TX_EN : Fld := ⟨0x10C, 0, 1, 0x0, .rw, 32, 32, .const⟩
def LANE_CTL_RX_EN : Fld := ⟨0x10C, 1, 1, 0x0, .rw, 32, 32, .const⟩
def LANE_CTL_TX_INV : Fld := ⟨0x10C, 2, 1, 0x0, .rw, 32, 32, .const⟩
def LANE_CTL_RX_INV : Fld := ⟨0x10C, 3, 1, 0x0, .rw, 32, 32, .const⟩
def LANE_CTL_LOOPBACK : Fld := ⟨0x10C, 4, 2, 0x0, .rw, 32, 32, .const⟩
def LANE_CTL_ADAPT : Fld := ⟨0x10C, 6, 1, 0x0, .wo, 32, 32, .const⟩
def TX_FIR : Fld := ⟨0x110, 0, 32, 0x3F0000, .rw, 32, 32, .const⟩
def RX_EQ_STS_SNR : Fld := ⟨0x114, 16, 8, 0x0, .ro, 32, 32, .const⟩
def LINK_DOWNS_COUNT : Fld := ⟨0x118, 0, 16, 0x0, .ctr, 32, 32, .const⟩
def LINK_DOWNS_LAST_CAUSE : Fld := ⟨0x118, 16, 4, 0x0, .ro, 32, 32, .const⟩
def LINK_CNT : Fld := ⟨0xC000, 0, 64, 0x0, .cnt, 256, 8, .const⟩
/-- Fields of the FIU page, part 1. -/
def map1 : List Fld := [LINK_CTL_EN, LINK_CTL_SPRAY_EN, LINK_CTL_DOZE, LINK_CTL_DOZE_ALLOW, LINK_CTL_EXPECT_EN, LINK_CTL_FORCE_DOWN, LINK_STS_STATE, LINK_STS_SF_LOCK, LINK_STS_FAR_RX_OK, LINK_STS_IN_MASK, LINK_STS_FAR_TIER, LINK_STS_FAR_DEV, LINK_STS_FAR_LINK, LINK_EXPECT_DEV, LINK_EXPECT_LINK, LINK_EXPECT_TIER, LANE_CTL_TX_EN, LANE_CTL_RX_EN, LANE_CTL_TX_INV, LANE_CTL_RX_INV, LANE_CTL_LOOPBACK, LANE_CTL_ADAPT, TX_FIR, RX_EQ_STS_SNR]
/-- Fields of the FIU page, part 2. -/
def map2 : List Fld := [LINK_DOWNS_COUNT, LINK_DOWNS_LAST_CAUSE, LINK_CNT]
/-- Every field of the FIU page beyond the common layout. -/
def map : List Fld := map1 ++ map2
end FIU

namespace FAB
def FAB_CFG_SYSTEM_ID : Fld := ⟨0x100, 0, 16, 0x0, .rw, 1, 4, .const⟩
def HELLO_CFG_HELLO_INT_US : Fld := ⟨0x104, 0, 8, 0xA, .rw, 1, 4, .const⟩
def HELLO_CFG_HELLO_MISS : Fld := ⟨0x104, 8, 4, 0x3, .rw, 1, 4, .const⟩
def HELLO_CFG_REACH_INT_US : Fld := ⟨0x104, 16, 16, 0x64, .rw, 1, 4, .const⟩
def FC_CFG_FC_INT_US : Fld := ⟨0x108, 0, 8, 0x14, .rw, 1, 4, .const⟩
def TRAIN_TMO_ADAPT_MS : Fld := ⟨0x10C, 0, 8, 0x32, .rw, 1, 4, .const⟩
def TRAIN_TMO_LOCK_MS : Fld := ⟨0x10C, 8, 8, 0xA, .rw, 1, 4, .const⟩
def TRAIN_TMO_HELLO_MS : Fld := ⟨0x10C, 16, 8, 0xA, .rw, 1, 4, .const⟩
def TRAIN_TMO_HOLDDOWN_MS : Fld := ⟨0x10C, 24, 8, 0x5, .rw, 1, 4, .const⟩
def PCS_CFG_UNCORR_DOWN : Fld := ⟨0x110, 0, 8, 0x8, .rw, 1, 4, .const⟩
def LINK_SUM_ACTIVE : Fld := ⟨0x114, 0, 10, 0x0, .ro, 1, 4, .const⟩
def LINK_SUM_DOZING : Fld := ⟨0x114, 16, 10, 0x0, .ro, 1, 4, .const⟩
def SNAP_CMD_SEND : Fld := ⟨0x118, 0, 1, 0x0, .wo, 1, 4, .const⟩
def SNAP_CMD_LEAD_US : Fld := ⟨0x118, 16, 16, 0x14, .rw, 1, 4, .const⟩
def SNAP_STS_LAST_ID : Fld := ⟨0x11C, 0, 16, 0x0, .ro, 1, 4, .const⟩
def SNAP_STS_PENDING : Fld := ⟨0x11C, 16, 1, 0x0, .ro, 1, 4, .const⟩
def SNAP_T_LO_NS : Fld := ⟨0x120, 0, 30, 0x0, .ro, 1, 4, .const⟩
def SNAP_T_HI_SEC : Fld := ⟨0x124, 0, 32, 0x0, .ro, 1, 4, .const⟩
def SPRAY_LEN_ENTRIES : Fld := ⟨0x128, 0, 9, 0x100, .rw, 1, 4, .const⟩
def REACH_SEL_DEVICE : Fld := ⟨0x130, 0, 12, 0x0, .rw, 1, 4, .const⟩
def REACH_INFO_LINKS : Fld := ⟨0x134, 0, 10, 0x0, .ro, 1, 4, .const⟩
def REACH_INFO_XOFF : Fld := ⟨0x134, 16, 1, 0x0, .ro, 1, 4, .const⟩
def REACH_MASK_LINKS : Fld := ⟨0x140, 0, 32, 0x0, .ro, 16, 4, .const⟩
def FAB_CNT : Fld := ⟨0x200, 0, 64, 0x0, .cnt, 8, 8, .const⟩
def SPRAY_ORDER_LINK : Fld := ⟨0x8000, 0, 9, 0x0, .rw, 256, 4, .index⟩
def REACH_SUM_LINKS : Fld := ⟨0x9000, 0, 10, 0x0, .ro, 4096, 4, .const⟩
def REACH_SUM_XOFF : Fld := ⟨0x9000, 16, 1, 0x0, .ro, 4096, 4, .const⟩
/-- Fields of the FAB page, part 1. -/
def map1 : List Fld := [FAB_CFG_SYSTEM_ID, HELLO_CFG_HELLO_INT_US, HELLO_CFG_HELLO_MISS, HELLO_CFG_REACH_INT_US, FC_CFG_FC_INT_US, TRAIN_TMO_ADAPT_MS, TRAIN_TMO_LOCK_MS, TRAIN_TMO_HELLO_MS, TRAIN_TMO_HOLDDOWN_MS, PCS_CFG_UNCORR_DOWN, LINK_SUM_ACTIVE, LINK_SUM_DOZING, SNAP_CMD_SEND, SNAP_CMD_LEAD_US, SNAP_STS_LAST_ID, SNAP_STS_PENDING, SNAP_T_LO_NS, SNAP_T_HI_SEC, SPRAY_LEN_ENTRIES, REACH_SEL_DEVICE, REACH_INFO_LINKS, REACH_INFO_XOFF, REACH_MASK_LINKS, FAB_CNT]
/-- Fields of the FAB page, part 2. -/
def map2 : List Fld := [SPRAY_ORDER_LINK, REACH_SUM_LINKS, REACH_SUM_XOFF]
/-- Every field of the FAB page beyond the common layout. -/
def map : List Fld := map1 ++ map2
end FAB

namespace LIN
def TBOUND_TEN_NS : Fld := ⟨0x100, 0, 16, 0x0, .rw, 8, 4, .tbound⟩
def LIN_WIN_WINDOW : Fld := ⟨0x120, 0, 17, 0x10000, .rw, 1, 4, .const⟩
def LIN_IDLE_CTX_IDLE_US : Fld := ⟨0x124, 0, 16, 0x3E8, .rw, 1, 4, .const⟩
def STORE_STS_USED : Fld := ⟨0x128, 0, 17, 0x0, .ro, 1, 4, .const⟩
def STORE_PEAK_COUNT : Fld := ⟨0x12C, 0, 17, 0x0, .rc, 1, 4, .const⟩
def CTX_SEL_CTX : Fld := ⟨0x130, 0, 15, 0x0, .rw, 1, 4, .const⟩
def CTX_STS_NEXT : Fld := ⟨0x134, 0, 20, 0x0, .ro, 1, 4, .const⟩
def CTX_STS_IDLE : Fld := ⟨0x134, 20, 1, 0x1, .ro, 1, 4, .const⟩
def CTX_STS_PARTIAL : Fld := ⟨0x134, 21, 1, 0x0, .ro, 1, 4, .const⟩
def CTX_HELD_COUNT : Fld := ⟨0x138, 0, 17, 0x0, .ro, 1, 4, .const⟩
def MAX_WAIT_NS : Fld := ⟨0x13C, 0, 16, 0x0, .rc, 1, 4, .const⟩
def LIN_CNT : Fld := ⟨0x200, 0, 64, 0x0, .cnt, 9, 8, .const⟩
def SKIPS : Fld := ⟨0x8000, 0, 64, 0x0, .cnt, 4096, 8, .const⟩
/-- Fields of the LIN page, part 1. -/
def map1 : List Fld := [TBOUND_TEN_NS, LIN_WIN_WINDOW, LIN_IDLE_CTX_IDLE_US, STORE_STS_USED, STORE_PEAK_COUNT, CTX_SEL_CTX, CTX_STS_NEXT, CTX_STS_IDLE, CTX_STS_PARTIAL, CTX_HELD_COUNT, MAX_WAIT_NS, LIN_CNT, SKIPS]
/-- Every field of the LIN page beyond the common layout. -/
def map : List Fld := map1
end LIN

namespace FEL
def FEL_CFG_TIER : Fld := ⟨0x100, 0, 2, 0x1, .rw, 1, 4, .const⟩
def QLIMITS_PQ_MAX : Fld := ⟨0x104, 0, 4, 0x4, .rw, 1, 4, .const⟩
def QLIMITS_EXP_QMAX : Fld := ⟨0x104, 8, 5, 0x11, .rw, 1, 4, .const⟩
def XOFF_CFG_XOFF_CELLS : Fld := ⟨0x108, 0, 16, 0x400, .rw, 1, 4, .const⟩
def XOFF_CFG_XON_CELLS : Fld := ⟨0x108, 16, 16, 0x200, .rw, 1, 4, .const⟩
def STORE_USED_CELLS : Fld := ⟨0x10C, 0, 19, 0x0, .ro, 1, 4, .const⟩
def QSEL_LINK : Fld := ⟨0x110, 0, 9, 0x0, .rw, 1, 4, .const⟩
def QSEL_PART : Fld := ⟨0x110, 9, 4, 0x0, .rw, 1, 4, .const⟩
def QSEL_EXP : Fld := ⟨0x110, 13, 1, 0x0, .rw, 1, 4, .const⟩
def QDEPTH_CELLS : Fld := ⟨0x114, 0, 5, 0x0, .ro, 1, 4, .const⟩
def DEST_SEL_DEVICE : Fld := ⟨0x118, 0, 12, 0x0, .rw, 1, 4, .const⟩
def DEST_STS_CELLS : Fld := ⟨0x11C, 0, 19, 0x0, .ro, 1, 4, .const⟩
def DEST_STS_XOFF : Fld := ⟨0x11C, 31, 1, 0x0, .ro, 1, 4, .const⟩
def UP_MASK_LINKS : Fld := ⟨0x140, 0, 32, 0x0, .rw, 16, 4, .const⟩
def FEL_CNT : Fld := ⟨0x200, 0, 64, 0x0, .cnt, 10, 8, .const⟩
/-- Fields of the FEL page, part 1. -/
def map1 : List Fld := [FEL_CFG_TIER, QLIMITS_PQ_MAX, QLIMITS_EXP_QMAX, XOFF_CFG_XOFF_CELLS, XOFF_CFG_XON_CELLS, STORE_USED_CELLS, QSEL_LINK, QSEL_PART, QSEL_EXP, QDEPTH_CELLS, DEST_SEL_DEVICE, DEST_STS_CELLS, DEST_STS_XOFF, UP_MASK_LINKS, FEL_CNT]
/-- Every field of the FEL page beyond the common layout. -/
def map : List Fld := map1
end FEL

namespace HBC
def STACK_STS_TRAINED : Fld := ⟨0x100, 0, 1, 0x0, .ro, 1, 4, .const⟩
def STACK_STS_SELF_REFRESH : Fld := ⟨0x100, 1, 1, 0x1, .ro, 1, 4, .const⟩
def STACK_STS_DOUBLED : Fld := ⟨0x100, 2, 1, 0x0, .ro, 1, 4, .const⟩
def STACK_STS_TRIP : Fld := ⟨0x100, 3, 1, 0x0, .ro, 1, 4, .const⟩
def STACK_STS_TEMP_C : Fld := ⟨0x100, 8, 8, 0x0, .ro, 1, 4, .const⟩
def REFRESH_CFG_TEMP_HI_C : Fld := ⟨0x104, 0, 8, 0x55, .rw, 1, 4, .const⟩
def REFRESH_CFG_TEMP_LO_C : Fld := ⟨0x104, 8, 8, 0x52, .rw, 1, 4, .const⟩
def REFRESH_CFG_FORCE_2X : Fld := ⟨0x104, 16, 1, 0x0, .rw, 1, 4, .const⟩
def WR_WM_WR_HI : Fld := ⟨0x108, 0, 6, 0x30, .rw, 1, 4, .const⟩
def WR_WM_WR_LO : Fld := ⟨0x108, 8, 6, 0x10, .rw, 1, 4, .const⟩
def PAGE_POL_SPILL_OPEN : Fld := ⟨0x10C, 0, 1, 0x1, .rw, 1, 4, .const⟩
def PAGE_POL_TBL_PREDICT : Fld := ⟨0x10C, 1, 1, 0x1, .rw, 1, 4, .const⟩
def RETRY_CFG_REPLAY_LIMIT : Fld := ⟨0x110, 0, 4, 0x4, .rw, 1, 4, .const⟩
def SCRUB_CFG_EN : Fld := ⟨0x114, 0, 1, 0x0, .rw, 1, 4, .const⟩
def SCRUB_CFG_PERIOD_H : Fld := ⟨0x114, 16, 16, 0x18, .rw, 1, 4, .const⟩
def ERR_CAP0_CHANNEL : Fld := ⟨0x118, 0, 5, 0x0, .ro, 1, 4, .const⟩
def ERR_CAP0_BANK : Fld := ⟨0x118, 5, 6, 0x0, .ro, 1, 4, .const⟩
def ERR_CAP0_UNCORR : Fld := ⟨0x118, 16, 1, 0x0, .ro, 1, 4, .const⟩
def ERR_CAP0_VALID : Fld := ⟨0x118, 31, 1, 0x0, .w1c, 1, 4, .const⟩
def ERR_CAP1_ROW : Fld := ⟨0x11C, 0, 12, 0x0, .ro, 1, 4, .const⟩
def ERR_CAP1_BURST : Fld := ⟨0x11C, 16, 6, 0x0, .ro, 1, 4, .const⟩
def ERR_CAP1_PORT : Fld := ⟨0x11C, 24, 8, 0x0, .ro, 1, 4, .const⟩
def CH_FAILED_MASK : Fld := ⟨0x120, 0, 32, 0x0, .ro, 1, 4, .const⟩
def REGION_CFG_TBL_GIB : Fld := ⟨0x200, 0, 8, 0x20, .rw, 1, 4, .const⟩
def REGION_CFG_TBL_GRAIN : Fld := ⟨0x200, 8, 4, 0x0, .rw, 1, 4, .const⟩
def REGION_CFG_SPILL_GRAIN : Fld := ⟨0x200, 12, 4, 0x4, .rw, 1, 4, .const⟩
def REGION_CFG_HASH_EN : Fld := ⟨0x200, 16, 1, 0x1, .rw, 1, 4, .const⟩
def REGION_STS_APPLIED : Fld := ⟨0x204, 0, 1, 0x0, .ro, 1, 4, .const⟩
def REG_RATE_GBPS : Fld := ⟨0x210, 0, 16, 0x0, .rw, 6, 8, .regRate⟩
def REG_BURST_KIB : Fld := ⟨0x214, 0, 16, 0x40, .rw, 6, 8, .const⟩
def REG_STS_HELD : Fld := ⟨0x240, 0, 6, 0x0, .ro, 1, 4, .const⟩
def PORT_BYTES : Fld := ⟨0x250, 0, 64, 0x0, .cnt, 6, 8, .const⟩
def PORT_HELD : Fld := ⟨0x280, 0, 64, 0x0, .cnt, 6, 8, .const⟩
def WIN_BASE_LO_ADDR : Fld := ⟨0x300, 0, 32, 0x0, .rw, 1, 4, .const⟩
def WIN_BASE_HI_ADDR : Fld := ⟨0x304, 0, 5, 0x0, .rw, 1, 4, .const⟩
def CH_CNT : Fld := ⟨0x400, 0, 64, 0x0, .cnt, 384, 8, .const⟩
/-- Fields of the HBC page, part 1. -/
def map1 : List Fld := [STACK_STS_TRAINED, STACK_STS_SELF_REFRESH, STACK_STS_DOUBLED, STACK_STS_TRIP, STACK_STS_TEMP_C, REFRESH_CFG_TEMP_HI_C, REFRESH_CFG_TEMP_LO_C, REFRESH_CFG_FORCE_2X, WR_WM_WR_HI, WR_WM_WR_LO, PAGE_POL_SPILL_OPEN, PAGE_POL_TBL_PREDICT, RETRY_CFG_REPLAY_LIMIT, SCRUB_CFG_EN, SCRUB_CFG_PERIOD_H, ERR_CAP0_CHANNEL, ERR_CAP0_BANK, ERR_CAP0_UNCORR, ERR_CAP0_VALID, ERR_CAP1_ROW, ERR_CAP1_BURST, ERR_CAP1_PORT, CH_FAILED_MASK, REGION_CFG_TBL_GIB]
/-- Fields of the HBC page, part 2. -/
def map2 : List Fld := [REGION_CFG_TBL_GRAIN, REGION_CFG_SPILL_GRAIN, REGION_CFG_HASH_EN, REGION_STS_APPLIED, REG_RATE_GBPS, REG_BURST_KIB, REG_STS_HELD, PORT_BYTES, PORT_HELD, WIN_BASE_LO_ADDR, WIN_BASE_HI_ADDR, CH_CNT]
/-- Every field of the HBC page beyond the common layout. -/
def map : List Fld := map1 ++ map2
end HBC

end Sys2Proof.Machine
end

