-- ==== Sys2Proof/Machine/PageMap.lean ====
section
/-! DEFINITION. Machine/PageMap.lean: the page map (R50), with each page's block code, instance, die, power domain (R805),
INT_SEVERITY and PAGE_CAP constants, core clock (R818, R870) and register fields. -/

namespace Sys2Proof.Machine

/-- The kinds of register page (R50). -/
inductive PageKind where
  | crwn | pwr | clk | rst | ntm | taq | obs | log | spa
  | spb | fwu | sec | cage | band | lnp | msc | lfu | ipp
  | prs | cls | pmm | ord | epp | lkp | lpm | exm | nhp
  | age | shd | tdma | rsu | bpm | brm | adm | mcr | qsu
  | sch | shp | fiu | fab | lin | fel | hbc | pce | vfm
  | dma | ofl | ips | svc | wak | bon | leg
  deriving DecidableEq, Repr

/-- The CRWN page. -/
abbrev pgCRWN : Nat := 0x000
/-- The PWR page. -/
abbrev pgPWR : Nat := 0x001
/-- The CLK page. -/
abbrev pgCLK : Nat := 0x002
/-- The RST page. -/
abbrev pgRST : Nat := 0x003
/-- The NTM page. -/
abbrev pgNTM : Nat := 0x004
/-- The TAQ page. -/
abbrev pgTAQ : Nat := 0x005
/-- The OBS page. -/
abbrev pgOBS : Nat := 0x006
/-- The LOG page. -/
abbrev pgLOG : Nat := 0x007
/-- The SPA page. -/
abbrev pgSPA : Nat := 0x008
/-- The SPB page. -/
abbrev pgSPB : Nat := 0x009
/-- The FWU page. -/
abbrev pgFWU : Nat := 0x00A
/-- The SEC page. -/
abbrev pgSEC : Nat := 0x00B
/-- The CAGE page. -/
abbrev pgCAGE : Nat := 0x00C
/-- The BAND page. -/
abbrev pgBAND : Nat := 0x00D
/-- The page of LNP instance i. -/
abbrev pgLNP (i : Nat) : Nat := 0x010 + i
/-- The page of MSC instance i. -/
abbrev pgMSC (i : Nat) : Nat := 0x020 + i
/-- The page of LFU instance i. -/
abbrev pgLFU (i : Nat) : Nat := 0x030 + i
/-- The page of IPP instance i. -/
abbrev pgIPP (i : Nat) : Nat := 0x040 + i
/-- The PRS page. -/
abbrev pgPRS : Nat := 0x054
/-- The CLS page. -/
abbrev pgCLS : Nat := 0x055
/-- The PMM page. -/
abbrev pgPMM : Nat := 0x056
/-- The ORD page. -/
abbrev pgORD : Nat := 0x057
/-- The page of EPP instance i. -/
abbrev pgEPP (i : Nat) : Nat := 0x060 + i
/-- The LKP page. -/
abbrev pgLKP : Nat := 0x080
/-- The LPM page. -/
abbrev pgLPM : Nat := 0x081
/-- The EXM page. -/
abbrev pgEXM : Nat := 0x082
/-- The NHP page. -/
abbrev pgNHP : Nat := 0x083
/-- The AGE page. -/
abbrev pgAGE : Nat := 0x084
/-- The SHD page. -/
abbrev pgSHD : Nat := 0x085
/-- The TDMA page. -/
abbrev pgTDMA : Nat := 0x086
/-- The page of RSU instance i. -/
abbrev pgRSU (i : Nat) : Nat := 0x090 + i
/-- The BPM page. -/
abbrev pgBPM : Nat := 0x0A0
/-- The BRM page. -/
abbrev pgBRM : Nat := 0x0A1
/-- The ADM page. -/
abbrev pgADM : Nat := 0x0A2
/-- The MCR page. -/
abbrev pgMCR : Nat := 0x0A3
/-- The QSU page. -/
abbrev pgQSU : Nat := 0x0B0
/-- The page of SCH instance i. -/
abbrev pgSCH (i : Nat) : Nat := 0x0B0 + i
/-- The SHP page. -/
abbrev pgSHP : Nat := 0x0B6
/-- The page of FIU instance i. -/
abbrev pgFIU (i : Nat) : Nat := 0x0C0 + i
/-- The FAB page. -/
abbrev pgFAB : Nat := 0x0D0
/-- The LIN page. -/
abbrev pgLIN : Nat := 0x0D1
/-- The FEL page. -/
abbrev pgFEL : Nat := 0x0D2
/-- The page of HBC instance i. -/
abbrev pgHBC (i : Nat) : Nat := 0x0E0 + i
/-- The PCE page. -/
abbrev pgPCE : Nat := 0x0F0
/-- The VFM page. -/
abbrev pgVFM : Nat := 0x0F1
/-- The DMA page. -/
abbrev pgDMA : Nat := 0x0F2
/-- The OFL page. -/
abbrev pgOFL : Nat := 0x0F3
/-- The IPS page. -/
abbrev pgIPS : Nat := 0x0F4
/-- The SVC page. -/
abbrev pgSVC : Nat := 0x0F5
/-- The WAK page. -/
abbrev pgWAK : Nat := 0x0F6
/-- The BON page. -/
abbrev pgBON : Nat := 0x100
/-- The LEG page. -/
abbrev pgLEG : Nat := 0x110

/-- The kind and instance number of a page index, or none for an unpopulated page (R50). -/
def pageAt (p : Nat) : Option (PageKind × Nat) :=
  if p = 0x0 then some (.crwn, 0) else
  if p = 0x1 then some (.pwr, 0) else
  if p = 0x2 then some (.clk, 0) else
  if p = 0x3 then some (.rst, 0) else
  if p = 0x4 then some (.ntm, 0) else
  if p = 0x5 then some (.taq, 0) else
  if p = 0x6 then some (.obs, 0) else
  if p = 0x7 then some (.log, 0) else
  if p = 0x8 then some (.spa, 0) else
  if p = 0x9 then some (.spb, 0) else
  if p = 0xA then some (.fwu, 0) else
  if p = 0xB then some (.sec, 0) else
  if p = 0xC then some (.cage, 0) else
  if p = 0xD then some (.band, 0) else
  if 0x10 ≤ p ∧ p < 0x20 then some (.lnp, p - 0x10) else
  if 0x20 ≤ p ∧ p < 0x30 then some (.msc, p - 0x20) else
  if 0x30 ≤ p ∧ p < 0x40 then some (.lfu, p - 0x30) else
  if 0x40 ≤ p ∧ p < 0x54 then some (.ipp, p - 0x40) else
  if p = 0x54 then some (.prs, 0) else
  if p = 0x55 then some (.cls, 0) else
  if p = 0x56 then some (.pmm, 0) else
  if p = 0x57 then some (.ord, 0) else
  if 0x60 ≤ p ∧ p < 0x74 then some (.epp, p - 0x60) else
  if p = 0x80 then some (.lkp, 0) else
  if p = 0x81 then some (.lpm, 0) else
  if p = 0x82 then some (.exm, 0) else
  if p = 0x83 then some (.nhp, 0) else
  if p = 0x84 then some (.age, 0) else
  if p = 0x85 then some (.shd, 0) else
  if p = 0x86 then some (.tdma, 0) else
  if 0x90 ≤ p ∧ p < 0x94 then some (.rsu, p - 0x90) else
  if p = 0xA0 then some (.bpm, 0) else
  if p = 0xA1 then some (.brm, 0) else
  if p = 0xA2 then some (.adm, 0) else
  if p = 0xA3 then some (.mcr, 0) else
  if p = 0xB0 then some (.qsu, 0) else
  if 0xB1 ≤ p ∧ p < 0xB6 then some (.sch, p - 0xB0) else
  if p = 0xB6 then some (.shp, 0) else
  if 0xC0 ≤ p ∧ p < 0xD0 then some (.fiu, p - 0xC0) else
  if p = 0xD0 then some (.fab, 0) else
  if p = 0xD1 then some (.lin, 0) else
  if p = 0xD2 then some (.fel, 0) else
  if 0xE0 ≤ p ∧ p < 0xE4 then some (.hbc, p - 0xE0) else
  if p = 0xF0 then some (.pce, 0) else
  if p = 0xF1 then some (.vfm, 0) else
  if p = 0xF2 then some (.dma, 0) else
  if p = 0xF3 then some (.ofl, 0) else
  if p = 0xF4 then some (.ips, 0) else
  if p = 0xF5 then some (.svc, 0) else
  if p = 0xF6 then some (.wak, 0) else
  if p = 0x100 then some (.bon, 0) else
  if p = 0x110 then some (.leg, 0) else
  none

/-- Block codes (R50). -/
def pageCode (k : PageKind) : Nat :=
  match k with
  | .crwn => 0x1
  | .pwr => 0x2
  | .clk => 0x3
  | .rst => 0x4
  | .ntm => 0x5
  | .taq => 0x6
  | .obs => 0x7
  | .log => 0x8
  | .spa => 0x9
  | .spb => 0xA
  | .fwu => 0xB
  | .sec => 0xC
  | .cage => 0xD
  | .band => 0xE
  | .lnp => 0x10
  | .msc => 0x11
  | .lfu => 0x12
  | .ipp => 0x13
  | .prs => 0x14
  | .cls => 0x15
  | .pmm => 0x16
  | .ord => 0x17
  | .epp => 0x18
  | .lkp => 0x20
  | .lpm => 0x21
  | .exm => 0x22
  | .nhp => 0x23
  | .age => 0x24
  | .shd => 0x25
  | .tdma => 0x26
  | .rsu => 0x28
  | .bpm => 0x30
  | .brm => 0x31
  | .adm => 0x32
  | .mcr => 0x33
  | .qsu => 0x38
  | .sch => 0x39
  | .shp => 0x3A
  | .fiu => 0x40
  | .fab => 0x41
  | .lin => 0x42
  | .fel => 0x43
  | .hbc => 0x48
  | .pce => 0x50
  | .vfm => 0x51
  | .dma => 0x52
  | .ofl => 0x53
  | .ips => 0x54
  | .svc => 0x55
  | .wak => 0x56
  | .bon => 0x60
  | .leg => 0x70

/-- The die: true for the QD (R50). -/
def onQd (k : PageKind) : Bool :=
  match k with
  | .crwn => false
  | .pwr => false
  | .clk => false
  | .rst => false
  | .ntm => false
  | .taq => false
  | .obs => false
  | .log => false
  | .spa => false
  | .spb => true
  | .fwu => false
  | .sec => false
  | .cage => false
  | .band => false
  | .lnp => false
  | .msc => false
  | .lfu => false
  | .ipp => false
  | .prs => false
  | .cls => false
  | .pmm => false
  | .ord => false
  | .epp => false
  | .lkp => false
  | .lpm => false
  | .exm => false
  | .nhp => false
  | .age => false
  | .shd => false
  | .tdma => false
  | .rsu => false
  | .bpm => true
  | .brm => true
  | .adm => true
  | .mcr => true
  | .qsu => true
  | .sch => true
  | .shp => true
  | .fiu => true
  | .fab => true
  | .lin => true
  | .fel => true
  | .hbc => true
  | .pce => false
  | .vfm => false
  | .dma => false
  | .ofl => false
  | .ips => false
  | .svc => false
  | .wak => false
  | .bon => false
  | .leg => false

/-- The power domain of a page (R805). -/
def pageDomain (k : PageKind) (i : Nat) : Nat :=
  match k with
  | .crwn => 0
  | .pwr => 0
  | .clk => 0
  | .rst => 0
  | .ntm => 0
  | .taq => 0
  | .obs => 23
  | .log => 0
  | .spa => 0
  | .spb => 2
  | .fwu => 23
  | .sec => 23
  | .cage => 23
  | .band => 23
  | .lnp => 3 + i / 2
  | .msc => 19
  | .lfu => 19
  | .ipp => 19
  | .prs => 19
  | .cls => 19
  | .pmm => 19
  | .ord => 19
  | .epp => 19
  | .lkp => 20
  | .lpm => 20
  | .exm => 20
  | .nhp => 20
  | .age => 20
  | .shd => 20
  | .tdma => 20
  | .rsu => 20
  | .bpm => 22
  | .brm => 22
  | .adm => 22
  | .mcr => 22
  | .qsu => 22
  | .sch => 22
  | .shp => 22
  | .fiu => 11 + i / 2
  | .fab => 22
  | .lin => 22
  | .fel => 22
  | .hbc => 22
  | .pce => 23
  | .vfm => 23
  | .dma => 23
  | .ofl => 23
  | .ips => 23
  | .svc => 23
  | .wak => 23
  | .bon => 21
  | .leg => 23

/-- INT_SEVERITY of each page: two bits per cause (R52; CRWN from R66, BAND from R22, the others from the page's own rule). -/
def pageSeverity (k : PageKind) : Nat :=
  match k with
  | .crwn => 0x164
  | .pwr => 0xA0
  | .clk => 0x6
  | .rst => 0x20
  | .ntm => 0x40
  | .taq => 0x40
  | .obs => 0x40
  | .log => 0x10
  | .spa => 0x1008
  | .spb => 0x1008
  | .fwu => 0x1100
  | .sec => 0x204
  | .cage => 0x1450
  | .band => 0x20
  | .lnp => 0x4000
  | .msc => 0x4010
  | .lfu => 0x404000
  | .ipp => 0x11
  | .prs => 0x1
  | .cls => 0x10
  | .pmm => 0x1
  | .ord => 0x11
  | .epp => 0x15
  | .lkp => 0x50
  | .lpm => 0x10
  | .exm => 0x10
  | .nhp => 0x10
  | .age => 0x0
  | .shd => 0x10
  | .tdma => 0x10
  | .rsu => 0x4
  | .bpm => 0x104
  | .brm => 0x140
  | .adm => 0x10
  | .mcr => 0x40
  | .qsu => 0x10
  | .sch => 0x4
  | .shp => 0x4
  | .fiu => 0x400
  | .fab => 0x100
  | .lin => 0x40
  | .fel => 0x10
  | .hbc => 0x1484
  | .pce => 0x8151
  | .vfm => 0x140
  | .dma => 0x141
  | .ofl => 0x50
  | .ips => 0x50
  | .svc => 0x40
  | .wak => 0x10
  | .bon => 0x40
  | .leg => 0x0

/-- PAGE_CAP of each page; 0 where no rule gives one (CRWN and BAND; notes/assumptions/8.md). -/
def pageCap (k : PageKind) (i : Nat) : Nat :=
  match k with
  | .crwn => 0
  | .pwr => 0x218
  | .clk => 0x48
  | .rst => 0x107
  | .ntm => 0x43
  | .taq => 0x840
  | .obs => 0xA0C
  | .log => 0x50D
  | .spa => 1
  | .spb => 0x100
  | .fwu => 0x4003
  | .sec => 3
  | .cage => 0x840
  | .band => 0
  | .lnp => 0x110
  | .msc => 0x710
  | .lfu => if i % 4 = 0 then 7 else if i % 2 = 0 then 3 else 1
  | .ipp => 0x408C
  | .prs => 0x3080
  | .cls => 0x480000
  | .pmm => 0x200800
  | .ord => 0x21002000
  | .epp => 0x35
  | .lkp => 0x100040
  | .lpm => 0x6911
  | .exm => 0x10
  | .nhp => 3
  | .age => 0x10
  | .shd => 0x20
  | .tdma => 0x4004
  | .rsu => if i = 0 then 0x10D04 else 0xD04
  | .bpm => 0x4024
  | .brm => 0x401
  | .adm => 0x4800040
  | .mcr => 0xD0A10
  | .qsu => 0x100
  | .sch => if i = 1 then 0x08 else if i = 2 then 0x0C else if i = 3 then 0x0F else if i = 4 then 0x10 else 0x12
  | .shp => 0xC
  | .fiu => 0x120
  | .fab => 0x200
  | .lin => 0x100F
  | .fel => 0x210
  | .hbc => if i = 0 then 0x12020 else 0x2020
  | .pce => 0x4000306
  | .vfm => 0x400400
  | .dma => 0x2000
  | .ofl => 0x100100
  | .ips => 0x100010
  | .svc => 7
  | .wak => 0x220
  | .bon => 0x810
  | .leg => 0x810

/-- The core clock of a page in units of 100 MHz, so also in eighths of a clock per 800 MHz timing clock (R818, R870). -/
def pageClock (k : PageKind) : Nat :=
  match k with
  | .crwn => 15
  | .pwr => 15
  | .clk => 15
  | .rst => 15
  | .ntm => 8
  | .taq => 8
  | .obs => 15
  | .log => 15
  | .spa => 15
  | .spb => 15
  | .fwu => 15
  | .sec => 15
  | .cage => 15
  | .band => 45
  | .lnp => 15
  | .msc => 24
  | .lfu => 24
  | .ipp => 24
  | .prs => 24
  | .cls => 24
  | .pmm => 24
  | .ord => 24
  | .epp => 24
  | .lkp => 24
  | .lpm => 24
  | .exm => 24
  | .nhp => 24
  | .age => 24
  | .shd => 24
  | .tdma => 24
  | .rsu => 24
  | .bpm => 18
  | .brm => 18
  | .adm => 18
  | .mcr => 18
  | .qsu => 18
  | .sch => 18
  | .shp => 18
  | .fiu => 18
  | .fab => 18
  | .lin => 18
  | .fel => 18
  | .hbc => 18
  | .pce => 10
  | .vfm => 15
  | .dma => 15
  | .ofl => 15
  | .ips => 15
  | .svc => 15
  | .wak => 15
  | .bon => 4
  | .leg => 15

/-- The block registers of each page, beyond the common layout. -/
def pageBlock (k : PageKind) : List Fld :=
  match k with
  | .crwn => CRWN.map
  | .pwr => PWR.map
  | .clk => CLK.map
  | .rst => RST.map
  | .ntm => NTM.map
  | .taq => TAQ.map
  | .obs => OBS.map
  | .log => LOG.map
  | .spa => SPA.map
  | .spb => SPA.map
  | .fwu => FWU.map
  | .sec => SEC.map
  | .cage => CAGE.map
  | .band => BAND.map
  | .lnp => LNP.map
  | .msc => MSC.map
  | .lfu => LFU.map
  | .ipp => IPP.map
  | .prs => PRS.map
  | .cls => CLS.map
  | .pmm => PMM.map
  | .ord => ORD.map
  | .epp => EPP.map
  | .lkp => LKP.map
  | .lpm => LPM.map
  | .exm => EXM.map
  | .nhp => NHP.map
  | .age => AGE.map
  | .shd => SHD.map
  | .tdma => TDMA.map
  | .rsu => RSU.map
  | .bpm => BPM.map
  | .brm => BRM.map
  | .adm => ADM.map
  | .mcr => MCR.map
  | .qsu => QSU.map
  | .sch => SCH.map
  | .shp => SHP.map
  | .fiu => FIU.map
  | .fab => FAB.map
  | .lin => LIN.map
  | .fel => FEL.map
  | .hbc => HBC.map
  | .pce => PCE.map
  | .vfm => VFM.map
  | .dma => DMA.map
  | .ofl => OFL.map
  | .ips => IPS.map
  | .svc => SVC.map
  | .wak => WAK.map
  | .bon => BON.map
  | .leg => LEG.map

/-- Every field of a populated page (R52). -/
def pageFields (k : PageKind) : List Fld := COMMON.map ++ pageBlock k

/-- The populated pages in index order (R50: 160 pages). -/
def pages : List Nat := (List.range 0x111).filter fun p => (pageAt p).isSome

/-- PAGE_ID of a page: block code, instance, layout version 1; 0 for an unpopulated page (R51, R52, R65). -/
def pageId (p : Nat) : Nat :=
  match pageAt p with
  | some (k, i) => pageCode k * 65536 + i * 256 + 1
  | none => 0

/-- The power domain of page p. -/
def domainOf (p : Nat) : Nat :=
  match pageAt p with
  | some (k, i) => pageDomain k i
  | none => 0

/-- The severity of cause c of page p: 0 corrected, 1 uncorrected-contained, 2 fatal (R52). -/
def severityOf (p c : Nat) : Nat :=
  match pageAt p with
  | some (k, _) => bits (pageSeverity k) (2 * c) 2
  | none => 0

end Sys2Proof.Machine
end

