-- ==== Sys2Proof/Machine/State.lean ====
section
/-! DEFINITION. Machine/State.lean: the state of the OL5120 as plain data. Every register field of the page map is held
in `regs`, sparse: a field that no entry lists holds its reset value (Fld.rstAt). What the spec gives the machine beyond
registers is held in the structures below. -/

namespace Sys2Proof.Machine

/-- Where the model stops with a fault. No command of this block raises one: the spec gives every row an effect.
The one constructor stands for an access to HBM outside its 128 GiB (R493), which no operation of the model makes;
were it raised, it would be safe, since a stop proves nothing false. -/
inductive Fault where
  | hbmOutOfRange
  deriving DecidableEq, Repr

/-- Where the model refuses a command. `notModelled` is raised only by an arm of Machine/Dispatch.lean whose command has
no meaning yet; it is safe, since a refusal proves nothing false. -/
inductive Refusal where
  | notModelled (mnemonic : String)
  deriving DecidableEq, Repr

/-- Network time (R656): 48-bit seconds, 30-bit nanoseconds, and the fraction in units of 2^-48 ns, of which the device
shows the upper 16 bits. -/
structure NetTime where
  sec : Nat := 0
  ns : Nat := 0
  frac : Nat := 0
  deriving DecidableEq, Repr

/-- An entry of the event log (R790), word for word. -/
structure LogEntry where
  ns : Nat
  sec : Nat
  secHi : Nat
  page : Nat
  inst : Nat
  source : Nat
  event : Nat
  sev : Nat
  ntValid : Bool
  arg0 : Nat
  arg1 : Nat
  seq : Nat
  deriving DecidableEq, Repr

/-- A trace record (R786). -/
structure TraceRec where
  id : Nat
  point : Nat
  inst : Nat
  ns : Nat
  sec : Nat
  secHi : Nat
  frac : Nat
  srcDev : Nat
  arg0 : Nat
  arg1 : Nat
  seq : Nat
  deriving DecidableEq, Repr

/-- Where a queued frame lies (R368 to R373): on chip, in the write staging buffer, in HBM, on its way to the read-back
buffer, or in it. -/
inductive Place where
  | chip | staged | hbm | reading | back
  deriving DecidableEq, Repr

/-- What holds a frame's bytes on the QD: nothing (read back already, or not on the QD), a buffer of its own, or the
buffer of a multicast descriptor (R365). -/
inductive Hold where
  | free
  | buffer (pool buf : Nat)
  | replica (mcd rep : Nat)
  deriving DecidableEq, Repr

/-- A frame inside the device with everything the units attach to it. `bytes` run from the destination address to the
last byte before the FCS. -/
structure Frame where
  bytes : List Byte := []
  fcs : Nat := 0                    -- the FCS that arrived or was computed
  fcsGood : Bool := true            -- the FCS and every codeword of it were good (R90, R110)
  poison : Bool := false            -- uncorrectable data (R92)
  port : Nat := 0                   -- ingress line port
  ctx : Nat := 0                    -- ORD context (R240)
  seq : Nat := 0                    -- dealing sequence number
  time : NetTime := {}              -- ingress timestamp (R135)
  timeValid : Bool := false
  csum : Option (Nat × Nat) := none -- RX_START and the received one's-complement sum from it (R124)
  l4chk : Nat := 0                  -- TCP or UDP checksum: 0 not checked, 1 verified, 2 failed (R124, R620)
  csumIns : Option (Nat × Nat) := none   -- checksum insertion: first byte summed, offset (R125)
  ofl : Nat := 0                    -- receive offload profile and its argument (R614)
  oflArg : Nat := 0
  traced : Bool := false            -- trace bit (R783)
  traceId : Nat := 0
  srcDev : Nat := 0
  startKey : Nat := 0               -- parser start key
  slots : Tbl (List Byte) := []     -- header-vector slots (R872)
  reason : Nat := 0                 -- PARSE_REASON
  l3 : Option Nat := none           -- L3 start (R235)
  l4 : Option Nat := none           -- L4 start
  payload : Nat := 0                -- payload start
  keyProf : Nat := 0                -- key profile (R249)
  pmmHit : Bool := false            -- payload-matcher result (R260)
  pmmPat : Nat := 0
  pmmGroups : Nat := 0
  act : List Nat := [0, 0, 0, 0]    -- action words (R251)
  looked : Bool := false            -- it has entered stage 49, where it captures the two that follow
  epoch : Nat := 0                  -- table epoch (R311)
  fence : Nat := 0                  -- fence generation (R292)
  modified : Bool := false          -- a byte changed since receipt (R91)
  nhType : Nat := 0                 -- next-hop TYPE (R289)
  dest : Nat := 0                   -- destination word
  cls : Nat := 0                    -- traffic class
  rewrite : Nat := 0                -- rewrite row
  group : Nat := 0                  -- multicast group
  queue : Nat := 0                  -- queue on the QD
  outPort : Nat := 0                -- egress port
  qp : Nat := 0                     -- queue pair
  flags : Nat := 0                  -- descriptor flags
  cut : Bool := false               -- released before its last byte had arrived (R74)
  err : Bool := false               -- marked errored by a length overrun (R364)
  ce : Bool := false                -- the descriptor requests CE (R379)
  qlen : Nat := 0                   -- LEN on the QD, FCS included (R361)
  place : Place := .chip
  hold : Hold := .free
  macq : Nat := 0                   -- MAC queue of its grant (R400)
  ipfix : Bool := false             -- taken by the IPFIX sampler (R645)
  ptp : Nat := 0                    -- IEEE 1588 marks: bit 0 originTimestamp, 1 correctionField, 2 capture (R139, R140)
  aux : List Nat := []              -- side values of the unit that holds the frame
  deriving DecidableEq, Repr

/-- What the block gives to the outside: messages, host memory writes, frames, cells, pin pulses and read data. The model
records them in State.out, newest first. -/
inductive Out where
  | readData (who : Nat) (page off value : Nat)        -- a register read's answer
  | msix (fn vec : Nat)                                -- an MSI-X message (R543)
  | spInt (proc : Nat)                                 -- the interrupt line of a service processor rises (R72): 0 SP-A, 1 SP-B
  | snapOut                                            -- the SNAP_OUT pulse (R771)
  | hostWrite (fn addr : Nat) (data : List Byte) (ro : Bool)   -- a memory write to the host, with its Relaxed Ordering (R546)
  | hostRead (fn addr len : Nat)                       -- a memory read request to the host
  | cfgData (fn : Nat) (value : Nat)                   -- a configuration completion's data
  | cfgRetry (fn : Nat)                                -- Request Retry Status (R535)
  | completerAbort (fn : Nat)                          -- Completer Abort (R540)
  | unsupported (fn : Nat)                             -- Unsupported Request (R557)
  | memData (fn value : Nat)                           -- a memory read's completion data
  | pme (fn : Nat)                                     -- a power-management event (R604)
  | errMsg (fn sev : Nat)                              -- an error message: 0 correctable, 1 non-fatal, 2 fatal
  | txFrame (port : Nat) (bytes : List Byte) (fcs : Nat)    -- a frame on a line port
  | txMpacket (port : Nat) (first last : Bool) (bytes : List Byte) (crc : Nat)   -- an mPacket of a preempted frame, with its mCRC or FCS (R116)
  | txPause (port : Nat) (prios : Nat) (xoff : Bool)   -- a PAUSE or PFC frame the device sends (R122)
  | cell (link : Nat) (bytes : List Byte)              -- a fabric cell on a link, data, control or idle
  | superframe (link : Nat) (codewords : List (List Byte))   -- the 33 codewords of a superframe of 20 cells (R435, R436)
  | bandFlit (toQd : Bool) (bytes : List Byte)         -- a flit on the Band (R13)
  | bandPayload (toQd : Bool) (vc : Nat) (payload : List Byte)   -- what a flit delivers on its virtual channel (R15)
  | csbFrame (bits : List Nat)                         -- the cage output bits shifted out (R155)
  | mmBus (master : Nat) (vals : List Nat)             -- a management-bus transaction
  | ppsOut (usHigh : Nat)                              -- the PPS_OUT pulse and its width in microseconds (R668)
  | tod (bytes : List Byte)                            -- a ToD message (R669)
  | flexeOh (page phy : Nat) (vals map calA calB : List Nat)   -- FlexE overhead sent on a PHY: group, C, CR, CA, RPF; PHY map; calendars (R189)
  | otnOh (page slice : Nat) (vals : List Nat) (msi : List (Option Nat))   -- OTN overhead sent: MFAS; SM and PM BIP-8, BEI, BDI; APS (R203)
  | fan (output : Nat) (pwm : Option (Nat × Nat))       -- a fan output's PWM frequency and duty in percent; none: high-impedance (R724, R725, R847)
  | gpio (value driven : Nat)                          -- the GPIO pins' values and which are driven (R724)
  | synce (output lane divLog2 : Nat) (on : Bool)      -- what a SyncE output carries: a lane's receive clock divided, or low (R672, R673)
  | toProcessor (bytes : List Byte)                    -- a frame handed to the service processor
  deriving DecidableEq, Repr

/-- A flit of the Band (R13): its 29 header bits from VC down and its 122 payload bytes. -/
structure Flit where
  vc : Nat
  kind : Nat
  seq : Nat
  ack : Nat
  payload : List Byte
  deriving DecidableEq, Repr

/-- One direction of the Band (R13 to R19): the bytes that wait on VC0 to VC4, packed back to back; the sequence number of the
sender's next data flit, the data flits it retains, the oldest first, the next number that the receiver accepts, whether it waits for a
replay and the sender has resent, and the failed replays in a row of the flit it asked for; what the weights of R16 leave to each of VC1
to VC4. -/
structure BandDir where
  stream : List (List Byte) := [[], [], [], [], []]
  next : Nat := 0
  retained : List Flit := []
  expect : Nat := 0
  replaying : Bool := false
  resent : Bool := false
  fails : Nat := 0
  share : List Nat := [0, 0, 0, 0]
  deriving DecidableEq, Repr

/-- A register access that waits at the FD end of the Band (R47): who makes it (0 PF1, 1 SP-A, 2 SP-B, 3 a timed action,
4 PF1 by a PCIe request), page, offset and the value of a write. -/
structure BandAccess where
  who : Nat
  page : Nat
  off : Nat
  write : Option Nat
  deriving DecidableEq, Repr

/-- A MACsec secure association (R142 to R148): key words, salt words, short SCI, PN, whether it is in use, and its counters in the order of the SA_RES words 4 to 13, with the late drops of R145 last. `pn` is the next PN; a receive SA keeps in
`low` the lowest acceptable PN that software wrote (R152). -/
structure MacSa where
  key : List Nat := []
  salt : List Nat := []
  ssci : Nat := 0
  pn : Nat := 0
  low : Nat := 0
  /-- Its memory holds a double-bit error: no frame may use it until it is written again (R154). -/
  dead : Bool := false
  inUse : Bool := false
  ok : Nat := 0
  invalid : Nat := 0
  notValid : Nat := 0
  notUsing : Nat := 0
  unused : Nat := 0
  late : Nat := 0
  deriving DecidableEq, Repr

/-- A record of the timestamp FIFO (R140). -/
structure TsRec where
  slot : Nat
  msgType : Nat
  seqId : Nat
  time : NetTime
  deriving DecidableEq, Repr

/-- A frame of which a slot has begun to send mPackets (R129): the frame, its bytes before and after MACsec and padding, its
FCS, its transmit timestamp, and how many bytes have left. -/
structure TxCut where
  frame : Frame
  edited : List Byte
  wire : List Byte
  fcs : Nat
  time : NetTime
  sent : Nat
  deriving DecidableEq, Repr

/-- What a MAC slot holds beyond its registers. -/
structure MacSlot where
  /-- The port configuration in force: MODE, WIDTH, SPEED and FEC as in PORT_CFG (R106). -/
  mode : Nat := 0
  width : Nat := 0
  speed : Nat := 0
  fec : Nat := 0
  /-- Paused priorities, bits 0 to 7, and the whole port, bit 8 (R121). -/
  paused : Nat := 0
  /-- Priorities, or bit 8 the port, whose received pause the watchdog ignores (R123). -/
  ignoring : Nat := 0
  /-- For each priority and, at index 8, the port: the tick at which its pause time runs out, the tick since which it is paused without a
  break, and the tick at which the watchdog tripped (R121, R123). -/
  pauseEnd : List Nat := [0, 0, 0, 0, 0, 0, 0, 0, 0]
  pauseFrom : List Nat := [0, 0, 0, 0, 0, 0, 0, 0, 0]
  tripAt : List Nat := [0, 0, 0, 0, 0, 0, 0, 0, 0]
  /-- The tick since which no frame has left the MAC queues (R134). -/
  idleFrom : Nat := 0
  /-- XOFF has been sent and XON not yet (R122). -/
  xoffSent : Bool := false
  /-- The fragments of a preempted frame received so far, the timestamp of its start, and whether an uncorrectable codeword
  touched one of them (R110). -/
  partial_ : Option (List Byte × NetTime × Bool) := none
  /-- The eight MAC queues of frames from the egress pipeline, queue q at index q. -/
  txq : List (List Frame) := [[], [], [], [], [], [], [], []]
  /-- Frames that the MSC has taken and not yet sent, the next to send first (R413). -/
  sending : List Frame := []
  /-- The preempted frame of which mPackets have left, the last of `sending` (R129). -/
  cutTx : Option TxCut := none
  /-- The terminated client bound to the slot: LFU and entry (R182). -/
  client : Option (Nat × Nat) := none
  /-- Grant bytes outstanding for each MAC queue (R413). -/
  credit : List Nat := [0, 0, 0, 0, 0, 0, 0, 0]
  /-- Frames received since the last IPFIX sample (R645). -/
  sampled : Nat := 0
  /-- Transmit PN threshold already signalled for the current SA (R147). -/
  pnWarned : Bool := false
  deriving DecidableEq, Repr

/-- What may happen to a cage (R162). -/
inductive CageEv where
  | inserted | absent | debounced | slot | powerGood | pgTimeout | resetDone | initTimeout | activated | noApp
  | manualReady | forceLp (v : Bool) | overcurrent | powerCycle | cycleEnd | faultClr | removed
  /-- CAGE_CTL.EN falls. -/
  | off
  deriving DecidableEq, Repr

/-- What a cage holds beyond its registers. -/
structure Cage where
  /-- Debounce is over and the cage waits for its power slot (R163). -/
  waiting : Bool := false
  /-- The reset hold runs after power good (R162). -/
  holding : Bool := false
  /-- A power cycle runs: outputs as EMPTY for 100 ms (R162). -/
  cycling : Bool := false
  /-- LPMODE in INIT (R172). -/
  lp : Bool := true
  /-- The step of the CMIS bring-up that runs, 1 to 5 (R172); 0 none. -/
  step : Nat := 0
  /-- PWR_EN as the cage entered REMOVING (R162). -/
  pwr : Bool := false
  /-- The tick from which the timer of its state runs (R162). -/
  since : Nat := 0
  /-- The output byte last sent, held during a switchover gap or chain fault (R161, R174). -/
  lastOut : Nat := 0x20
  /-- State changes that wait for the end of the gap or chain fault, oldest first (R161, R174). -/
  deferred : List CageEv := []
  deriving DecidableEq, Repr

/-- A command accepted by a management master (R169). -/
structure MmCmd where
  write : Bool
  cage : Nat
  tag : Nat
  bank : Nat
  page : Nat
  offset : Nat
  len : Nat
  /-- The step of the active service processor's bring-up that it belongs to (R172); 0 a command of MM_CMD. -/
  step : Nat := 0
  deriving DecidableEq, Repr

/-- A candidate offset of the alignment search (R208, R209): where, how many consecutive frames matched, the MFAS of the
last of them. -/
structure OtnCand where
  off : Nat
  hits : Nat
  mfas : Nat
  deriving DecidableEq, Repr

/-- The alignment of one OTUC slice (R208 to R211); BIP-8 of the last two payloads received and sent, newest first, the MFAS
of the next frame sent (R203), and whether the received MSI disagrees (R206). -/
structure OtnSlice where
  inFrame : Bool := false
  locked : Nat := 0
  mfas : Nat := 0
  misses : Nat := 0
  mfasWrong : Nat := 0
  cands : List OtnCand := []
  rxBips : List Nat := []
  txBips : List Nat := []
  txMfas : Nat := 0
  msiBad : Bool := false
  deriving DecidableEq, Repr

/-- What an LFU page holds beyond its registers. -/
structure Lfu where
  /-- FlexE switch: 0 none, 1 triggered, 2 C sent, 3 triggered with CR to send, 4 CR sent (R192 to R194). -/
  phase : Nat := 0
  /-- The calendar a running switch goes to. -/
  newCal : Nat := 0
  /-- A received CR that CA is to answer: the calendar named (R195). -/
  caOwed : Option Nat := none
  /-- OTN switch: the directions that have still to change (R205). -/
  txDue : Bool := false
  rxDue : Bool := false
  /-- The slices of the framer. -/
  slices : Tbl OtnSlice := []
  /-- The running performance counters 0 to 7 and the defects of the running second (R220). -/
  run : List Nat := [0, 0, 0, 0, 0, 0, 0, 0]
  seen : Nat := 0
  flexeDown : Bool := false
  /-- The tick of the last latch, and the network-time second of the last one (R220, R222). -/
  latchAt : Nat := 0
  secAt : Option Nat := none
  /-- Path BIP-8 errors of the running network-time second (R216). -/
  sdRun : Nat := 0
  /-- The ticks at which OOF and OOM last changed (R211). -/
  oofAt : Nat := 0
  oomAt : Nat := 0
  /-- The last APS value and how often it came in a row (R215). -/
  apsLast : Nat := 0
  apsSame : Nat := 0
  /-- The operator command in force, by its PROT_CMD code (R217). -/
  cmd : Nat := 0
  /-- The ticks from which CA is awaited (R194), wait-to-restore runs (R217), and SF and SD of the working and the protection framer
  stand, in the order of the status bits (R216); and since when the signals disagree (R219). -/
  caFrom : Nat := 0
  wtrFrom : Nat := 0
  heldFrom : List Nat := [0, 0, 0, 0]
  disagreeFrom : Option Nat := none
  deriving DecidableEq, Repr

/-- A result held by ORD: the frame, whether it is a drop token, and the tick it came (R246, R269). -/
structure OrdHeld where
  frame : Frame
  drop : Bool
  since : Nat
  deriving DecidableEq, Repr

/-- An ordering context (R240, R246): the next sequence number the dealer gives, the next that ORD releases, and the
results held by sequence number. -/
structure OrdCtx where
  deal : Nat := 0
  next : Nat := 0
  held : Tbl OrdHeld := []
  /-- The tick its gap timer runs from; none while it is stopped (R246). -/
  timer : Option Nat := none
  deriving DecidableEq, Repr

/-- Where a frame inside an ingress pipeline stands. -/
inductive PipeStage where
  | ready          -- its result waits for ORD
  | park1          -- parked for the first probe group (R281, R283)
  | park2          -- parked for the second probe group
  | full1          -- waits for a place in the park of its pipeline, for the first or the second probe group (R244)
  | full2
  | search         -- in the range-search queue (R336)
  | held           -- held before stage 104 by the payload matcher (R262)
  | scan           -- waits at stage 104 for its payload scan (R261)
  deriving DecidableEq, Repr

/-- A frame inside ingress pipeline `pipe`. `exm` is the exact-match outcome once it is known, `learned` whether its source
has been learned. `stale`: a soft reset of ORD came after the frame was dealt, so that its result will be dropped (R866). -/
structure Piped where
  frame : Frame
  stage : PipeStage
  pipe : Nat
  drop : Bool := false
  exm : Option (Option Nat) := none
  stale : Bool := false
  deriving DecidableEq, Repr

/-- A classifier entry (R249): profile, 32 key bytes, four action words, and whether its memory has a double-bit error (R90). -/
structure ClsEntry where
  prof : Nat
  key : List Byte
  act : List Nat
  dead : Bool := false
  deriving DecidableEq, Repr

/-- A classifier insert of more than 8 moves that waits for its pauses (R254): tag, the table it makes, moves, bucket and
way of the new entry, and whether copy 0 is written and an abort came late. -/
structure ClsRun where
  tag : Nat
  result : Tbl ClsEntry
  moves : Nat
  slot : Nat
  first : Bool := false
  late : Bool := false
  deriving DecidableEq, Repr

/-- A row of the version store (R308, R309): its table, its key, its content, and the epoch it was committed in; none while its group
is open. -/
structure VRow where
  table : Nat
  key : Nat
  words : List Nat
  epoch : Option Nat
  deriving DecidableEq, Repr

/-- A locked row (R306): the ring that holds the lock and the content it has staged. -/
structure RowLock where
  ring : Nat
  staged : Option (List Nat)
  deriving DecidableEq, Repr

/-- The aging sweep of a table (R294, R295): the next row to visit, and whether the next sweep is already due. -/
structure Sweep where
  pos : Nat
  again : Bool
  deriving DecidableEq, Repr

/-- A difference that the compare engine will read again (R298). -/
structure Mismatch where
  table : Nat
  row : Nat
  key : Nat
  words : List Nat
  image : List Nat
  since : Nat
  deriving DecidableEq, Repr

/-- A commit request (R309, R313): none from a register or a timed action, or the ring and its EPOCH_COMMIT descriptor. -/
structure CommitReq where
  ring : Option (Nat × List Nat)
  deriving DecidableEq, Repr

/-- A range-search entry (R322 to R324): priority, valid bit, action word, and LO and HI of its slices. -/
structure RsuEntry where
  prio : Nat := 0
  valid : Bool := false
  act : Nat := 0
  ranges : List (Nat × Nat) := []
  deriving DecidableEq, Repr

/-- A move window that runs on an RSU page (R348, R350): its tag, bank, target and hole, the index that the next copy fills, the
copies made, the core clocks since the last one, and whether an abort came late (R351). -/
structure RsuRun where
  tag : Nat
  bank : Nat
  target : Nat
  hole : Nat
  pos : Nat
  made : Nat := 0
  clocks : Nat := 0
  late : Bool := false
  deriving DecidableEq, Repr

/-- An allocated buffer (R365): its owner, the bytes of it still in the write staging buffer (R371),
whether a grant holds it (R427), and the express bytes
it charges to a port (R416). -/
structure BufRec where
  owner : Nat
  staged : Nat := 0
  granted : Bool := false
  express : Option (Nat × Nat) := none
  deriving DecidableEq, Repr

/-- What a queue of the QD holds beyond registers: its profile, its frames in order, residue replicas that wait for it
(MCD and replica, oldest first), and whether it is in spill state or halted. -/
structure Queue where
  prof : Nat := 0
  frames : List Frame := []
  residue : List (Nat × Nat) := []
  spill : Bool := false
  halted : Bool := false
  deriving DecidableEq, Repr

/-- How a replica stands (R385, R386): held as residue, queued or in flight, sent, or dropped. -/
inductive RepState where
  | residue | queued | sent | dropped
  deriving DecidableEq, Repr

/-- A replica: its queue, its frame, its state, and the express bytes it charges to a port. -/
structure Replica where
  queue : Nat
  frame : Frame
  state : RepState
  express : Option (Nat × Nat) := none
  deriving DecidableEq, Repr

/-- A multicast descriptor (R383 to R387): the buffer of its frame, its replicas, REMAIN, the replica that the owner names,
whether it is in WAIT, the tick at which it entered it, and its age. -/
structure Mcd where
  pool : Nat
  buf : Nat
  reps : List Replica := []
  remain : Nat := 0
  owner : Nat := 0
  wait : Bool := false
  since : Nat := 0
  age : Nat := 0
  deriving DecidableEq, Repr

/-- A scheduler node or queue of levels 1 to 5: its words, DEFICIT in bytes, max and min tokens in 1/6,400 byte, the child
last served in the express and below-minimum phases and the current child of the weighted phase (R406, R407), and frames
and bytes granted. -/
structure Node where
  words : List Nat
  deficit : Int := 0
  maxTok : Int := 0
  minTok : Int := 0
  lastX : Option Nat := none
  lastM : Option Nat := none
  cur : Option Nat := none
  frames : Nat := 0
  bytes : Nat := 0
  deriving DecidableEq, Repr

/-- A flush that runs (R426 to R428). `quiet`: a soft reset came, and it ends without a result (R866). -/
structure Flush where
  queue : Nat
  sweep : Bool
  tag : Nat
  dropped : Nat
  late : Bool
  quiet : Bool := false
  deriving DecidableEq, Repr

/-- What a Drafa link holds beyond its registers (R440 to R447, R456, R460): the last REACH and FC received as bitmaps with
device d at bit d, the cells in its transmit FIFO, when the last HELLO that passes R443 came, whether its receiver is at the
threshold of R438, whether it is out of the masks for doze, whether a HELLO with ACK has come since it began to wake, the cells of the superframe
being sent (R436), the register of its scrambler once it has run (R435), when it took its state, and the cell slot in which an element
last sent on it (R466). -/
structure FabLink where
  reach : Nat := 0
  fc : Nat := 0
  fifo : List (List Byte) := []
  helloAt : Option Nat := none
  fecBad : Bool := false
  out : Bool := false
  acked : Bool := false
  sframe : List (List Byte) := []
  scr : Option Nat := none
  since : Nat := 0
  slotAt : Option Nat := none
  deriving DecidableEq, Repr

/-- A frame being sprayed (R461, R462): its destination, class, and how many of its cells have been placed. -/
structure Spray where
  frame : Frame
  dst : Nat
  cls : Nat
  sent : Nat
  deriving DecidableEq, Repr

/-- A cell in the fabric element (R463 to R468). -/
structure FelCell where
  bytes : List Byte
  dst : Nat
  express : Bool
  buf : Nat
  deriving DecidableEq, Repr

/-- A cell held by the Liner: payload, SOF, EOF, valid bytes, egress port, arrival number and tick (R473). -/
structure LinCell where
  payload : List Byte
  sof : Bool
  eof : Bool
  dport : Nat
  order : Nat
  since : Nat
  deriving DecidableEq, Repr

/-- A Liner context (R473 to R476): held cells by SEQ; the bytes and port of the frame in reassembly; cells are dropped until
the next SOF (`hunt`), and those dropped first belong to a frame already counted (`tail`); when it last received a cell (R476). -/
structure LinCtx where
  idle : Bool := true
  next : Nat := 0
  held : Tbl LinCell := []
  partial_ : Option (List Byte × Nat) := none
  hunt : Bool := false
  tail : Bool := false
  heardAt : Nat := 0
  deriving DecidableEq, Repr

/-- An HBM access of a requester port (R499): its region (true: spill), region-relative address, bytes, and direction. -/
structure HbmAcc where
  port : Nat
  spill : Bool
  addr : Nat
  len : Nat
  write : Bool
  deriving DecidableEq, Repr

/-- A burst queued in a channel (R506): bank, row, burst in the row, and requester port. -/
structure HbmReq where
  bank : Nat
  row : Nat
  burst : Nat
  port : Nat
  deriving DecidableEq, Repr

/-- An HBM channel (R506 to R518): read and write queues, the retry buffer (oldest first, with whether each was a write),
open rows and predictors by bank, the next bank to refresh, the consecutive failed replays of a command,
when its last four row activations were, latest first (R505), and from when the next refresh command is due, in 1/64 timing clock
(R513). -/
structure HbmChan where
  reads : List HbmReq := []
  writes : List HbmReq := []
  retry : List (HbmReq × Bool) := []
  rows : Tbl Nat := []
  pred : Tbl Nat := []
  nextBank : Nat := 0
  fails : Nat := 0
  acts : List Nat := []
  refDue : Nat := 0
  deriving DecidableEq, Repr

/-- An MSI-X table entry (R542, R543). Its mask bit is 1 at reset (PRESUMED from the PCI specifications the endpoint
follows; notes/assumptions/9.md). -/
structure MsixVec where
  addr : Nat := 0
  data : Nat := 0
  mask : Bool := true
  pend : Bool := false
  deriving DecidableEq, Repr

/-- A PCIe function's own state (R533 to R543, R561): configuration dwords by offset where written, MSI-X table, the tick
at which an FLR or the drain of a removal began, and whether the VF is being removed. -/
structure PciFn where
  cfg : Tbl Nat := []
  vecs : Tbl MsixVec := []
  flr : Option Nat := none
  removing : Bool := false
  deriving DecidableEq, Repr

/-- A tag slot (R549 to R555): the function and tag of its read, the transmit frame it serves (queue pair, ring index of the
frame's first descriptor, read of the frame), the bytes asked for and received, the tick of issue, whether the read
is squashed (R559), and whether the slot lies in quarantine. -/
structure TagSlot where
  fn : Nat
  tag : Nat
  qp : Nat
  first : Nat
  part : Nat
  len : Nat
  got : List Byte := []
  issued : Nat
  squashed : Bool := false
  quarantined : Bool := false
  deriving DecidableEq, Repr

/-- A transmit frame whose descriptors are fetched (R577, R579): ring index of its first descriptor, its descriptors, the
bytes of its data reads in address order as they return, whether the host failed one, and whether they are squashed (R559). -/
structure TxFrame where
  first : Nat
  descs : List (List Nat)
  parts : List (Option (List Byte))
  bad : Bool := false
  squashed : Bool := false
  deriving DecidableEq, Repr

/-- A queue pair (R567 to R587): owner as function (0 PF0, n VF n) and local index; state (0 DISABLED, 1 ENABLED, 2 DRAINING,
3 ERROR); context words; free-running device and software indices and the phases of its rings; fetched frames in ring
order; ARM, unsignalled CQ entries and the tick of the first of them; DEFICIT of the transmit DWRR; counters of DMA_QP_CNT. -/
structure QPair where
  owner : Option (Nat × Nat) := none
  state : Nat := 0
  ctx : List Nat := [0, 0, 0, 0, 0, 0, 0, 0, 0]
  txHead : Nat := 0
  txTail : Nat := 0
  rxHead : Nat := 0
  rxTail : Nat := 0
  cqTail : Nat := 0
  cqHead : Nat := 0
  txPhase : Bool := true
  rxPhase : Bool := true
  cqPhase : Bool := true
  frames : List TxFrame := []
  arm : Bool := false
  unsig : Nat := 0
  unsigAt : Nat := 0
  deficit : Int := 0
  cnt : List Nat := [0, 0, 0, 0, 0, 0, 0, 0]
  deriving DecidableEq, Repr

/-- What the device keeps of function n, 0 PF0 and n VF n (R573, R590, R595, R600): FN_RATE and what remains to be paid of it in
1/6,400 byte; FN_MBX_VEC; frozen; dirty-page log: running, bounds, buffers, the active one (true: B), swaps, pages still to be
written; and the mailbox: outgoing words, the request taken by PF0, BUSY, the reply, REPLY. -/
structure VfState where
  rate : Nat := 0
  debt : Nat := 0
  mbxVec : Nat := 0
  frozen : Bool := false
  logging : Bool := false
  logLo : Nat := 0
  logPages : Nat := 0
  logA : Nat := 0
  logB : Nat := 0
  activeB : Bool := false
  swaps : Nat := 0
  dirty : List Nat := []
  mbxOut : List Nat := [0, 0, 0, 0, 0, 0, 0, 0]
  request : List Nat := [0, 0, 0, 0, 0, 0, 0, 0]
  busy : Bool := false
  mbxIn : List Nat := [0, 0, 0, 0, 0, 0, 0, 0]
  reply : Bool := false
  deriving DecidableEq, Repr

/-- An IPsec SA (R622 to R625, R652): key words, salt, SPI, sequence (next outbound, highest inbound), SA_CFG and SA_CFG2, the
replay window with the highest number at bit 0, and whether the sequence threshold has been passed. -/
structure IpsSa where
  key : List Nat
  salt : Nat
  spi : Nat
  seq : Nat
  cfg : Nat
  cfg2 : Nat
  win : Nat := 0
  warned : Bool := false
  deriving DecidableEq, Repr

/-- A frame in an IPS queue: its SA and direction (R621). -/
structure IpsItem where
  frame : Frame
  sa : Nat
  enc : Bool
  deriving DecidableEq, Repr

/-- One direction of an NVMe/TCP connection (R629, R630): bytes before the next PDU, the position in the PDU, its header so far,
the running CRC-32C registers of header and data, whether a digest of this PDU has differed, and the placement
entry of a C2HData PDU as address of the first data byte and length that may be placed. -/
structure NvWalk where
  skip : Nat := 0
  pos : Nat := 0
  hdr : List Byte := []
  hcrc : Nat := 0xFFFFFFFF
  dcrc : Nat := 0xFFFFFFFF
  hbad : Bool := false
  dbad : Bool := false
  place : Option (Nat × Nat) := none
  deriving DecidableEq, Repr

/-- An NVMe/TCP connection context (R650): its words and what is carried across frames in each direction. -/
structure NvConn where
  words : List Nat
  tx : NvWalk := {}
  rx : NvWalk := {}
  deriving DecidableEq, Repr

/-- A BFD event (R642). -/
structure BfdEvent where
  session : Nat
  old : Nat
  new : Nat
  diag : Nat
  time : NetTime
  deriving DecidableEq, Repr

/-- A flow update or a flow of the cache (R645 to R648): the key that tells flows apart, the record fields that it fixes,
octets and packets, first and last time and time of the last export in milliseconds, TCP control bits. -/
structure Flow where
  key : List Byte
  v6 : Bool
  fixed : List Byte
  octets : Nat
  packets : Nat
  first : Nat
  last : Nat
  exported : Nat
  tcp : Nat
  deriving DecidableEq, Repr

/-- An entry of the timed action queue (R674): the six staged words of its post, its order of posting, and whether it fires
late. -/
structure TaqEntry where
  raw : List Nat
  order : Nat
  late : Bool := false
  deriving DecidableEq, Repr



/-- What a service processor holds beyond the registers: an image has been chosen and verified since its release (R716), the tick
from which its 1 ms hold counts and whether RESTART_STANDBY made it (R718, R730), the Gauntlet: steps whose latest run passed,
full passes, running step (R727), and the ticks of its last health post and of the last one with HEALTHY. -/
structure SpState where
  booted : Bool := false
  heldAt : Option Nat := none
  restarted : Bool := false
  okBits : Nat := 0
  passes : Nat := 0
  step : Nat := 1
  postAt : Option Nat := none
  healthyAt : Option Nat := none
  deriving DecidableEq, Repr

/-- The sixteen states of the TAP controller (IEEE 1149.1, which R756 names; PRESUMED, notes/assumptions/37.md). -/
inductive TapState where
  | testLogicReset | runTestIdle | selectDr | captureDr | shiftDr | exit1Dr | pauseDr | exit2Dr | updateDr
  | selectIr | captureIr | shiftIr | exit1Ir | pauseIr | exit2Ir | updateIr
  deriving DecidableEq, Repr

/-- What the TAP's instruction selects (R756): bypass, boundary scan, and the three that factory mode opens. -/
inductive JtagPath where
  | bypass | boundary | processors | vendorTest | internalScan
  deriving DecidableEq, Repr

/-- A firmware command that can wait for the new active processor, with its tag. -/
inductive FwTask where
  | stage (slot tag : Nat) (io : FlashIo)
  | stageConfig (tag : Nat) (io : FlashIo)
  | verify (slot tag : Nat) (flashOk : Bool)
  deriving DecidableEq, Repr

/-- A command of SEC_CMD, with its tag. -/
inductive SecTask where
  | quote (tag : Nat)
  | challenge (tag : Nat)
  | unlock (tag : Nat)
  deriving DecidableEq, Repr

/-- The TAP (R756, R828). -/
structure Jtag where
  tap : TapState := .testLogicReset
  path : JtagPath := .bypass
  deriving DecidableEq, Repr

/-- A flush of the snapshot shadows in progress (R777, R778): its strobe, whether it goes to host memory, its address and the image. -/
structure ShadowFlush where
  seq : Nat
  host : Bool
  addr : Nat
  image : List Byte
  deriving DecidableEq, Repr

/-- A dump that runs: its tag, the host address as it stood when the dump was accepted and, for the log, how many entries there were
then and the sequence number of the oldest (R794). -/
structure DumpRun where
  tag : Nat
  addr : Nat
  count : Nat := 0
  first : Nat := 0
  deriving DecidableEq, Repr



/-- Registers, time, the command queue, outputs and the event log. -/
structure CoreState where
  /-- Every register field that does not hold its reset value, by key (Fld.key). -/
  regs : Tbl Nat := []
  /-- Shadow words of each page: page, then offset (R55, R772). -/
  shadow : Tbl (Tbl Nat) := []
  /-- Holding registers of counter pairs: requester slot times 4096 plus page (R57). -/
  hold : Tbl Nat := []
  /-- Holding registers of the time reads: requester slot times 4 plus which (0 now, 1 PPS capture), as seconds and
  fraction (R685). -/
  timeHold : Tbl NetTime := []
  /-- Commands that wait, first in first out. -/
  pending : List Instr := []
  /-- What the device has put out, newest first. -/
  out : List Out := []
  /-- How many free values have been drawn (the model's own field). -/
  free : Nat := 0
  /-- Elapsed 800 MHz timing clocks (the model's own field; notes/assumptions/1.md). -/
  ticks : Nat := 0
  nt : NetTime := {}
  /-- Tick of the last common strobe (R770). -/
  strobeAt : Option Nat := none
  /-- The event-log ring by index (R789). -/
  log : Tbl LogEntry := []
  /-- Tick of the last log entry of each page and cause: page times 16 plus cause (R791). -/
  logLast : Tbl Nat := []
  deriving DecidableEq, Repr

/-- The Band between the dies (chapter 1). -/
structure BandState where
  /-- The Band from FD to QD, and from QD to FD (R12). -/
  bandFQ : BandDir := {}
  bandQF : BandDir := {}
  /-- Register accesses to QD pages that wait for the end of a retrain, oldest first (R47). -/
  bandWait : List BandAccess := []
  deriving DecidableEq, Repr

/-- Line side: lanes, ports, MACs, MACsec, cages and framing (spec chapters 4 to 6). -/
structure LineState where
  /-- MAC slots 0 to 255. -/
  macs : Tbl MacSlot := []
  /-- MACsec SAs: MSC page times 4096, plus 2048 for transmit, plus SA index (R143, R152). -/
  sas : Tbl MacSa := []
  /-- The timestamp FIFO of each MSC page (R140). -/
  tsFifo : Tbl (List TsRec) := []
  /-- The ingress hold, oldest frame first (R874). -/
  ingress : List Frame := []
  /-- Fractions of a byte of credit that a shaped MAC queue has earned, in 1/64,000: slot times 8 plus queue (R126). -/
  cbsFrac : Tbl Nat := []
  /-- Cages 0 to 63. -/
  cages : Tbl Cage := []
  /-- The accepted commands of each management master, the running one first (R169). -/
  mmQueue : Tbl (List MmCmd) := []
  /-- The cage whose MM_SEL each management master drives, plus one, and the frames since it changed (R167). -/
  mmSince : Tbl (Nat × Nat) := []
  /-- The tick at which a cage last moved to POWERING (R163). -/
  slotAt : Option Nat := none
  /-- The previous frame of the cage sideband bus had a marker error (R161). -/
  markerBad : Bool := false
  /-- Line framing units 0 to 15. -/
  lfus : Tbl Lfu := []
  deriving DecidableEq, Repr

/-- The pipelines, the lookup tables and range search (chapters 7 to 9). -/
structure PipeState where
  /-- Ordering contexts by number (R240). -/
  ords : Tbl OrdCtx := []
  /-- Frames inside the ingress pipelines and their parks; those of the range-search queue stand in its order. -/
  piped : List Piped := []
  /-- The next ingress and egress pipeline of the cyclic dealing order (R239, R241). -/
  nextIpp : Nat := 0
  nextEpp : Nat := 0
  /-- Frames released by ORD on their way over the Band, oldest first (R229). -/
  toQd : List Frame := []
  /-- The two copies of the classifier, keyed by way times 131,072 plus bucket. -/
  cls0 : Tbl ClsEntry := []
  cls1 : Tbl ClsEntry := []
  clsRun : Option ClsRun := none
  /-- The end of the classifier pause that runs (R254). -/
  clsPauseEnd : Option Nat := none
  /-- Tick at which the last classifier pause ended (R255). -/
  clsPaused : Option Nat := none
  /-- Payload-matcher patterns: 8 value words, 8 mask words, PAT_CFG, PAT_RANGE. -/
  pats : Tbl (List Nat) := []
  /-- Table rows by row key, where they differ from what they hold unwritten (R273, R875). -/
  rows : Tbl (List Nat) := []
  /-- The version store, oldest row first (R308). -/
  vstore : List VRow := []
  /-- Locked rows by row key (R306). -/
  locks : Tbl RowLock := []
  /-- Commits that wait for the drain, oldest first (R313), and the tick of the last commit (R316). -/
  commits : List CommitReq := []
  commitAt : Nat := 0
  /-- Fence generations issued (R292). -/
  fences : Nat := 0
  /-- The millisecond in which entries were last learned, and how many (R288). -/
  learnMs : Nat := 0
  learnCount : Nat := 0
  /-- Aging sweeps by table, differences under recheck, and the mismatch FIFO (R294, R298). -/
  sweeps : Tbl Sweep := []
  rechecks : List Mismatch := []
  mmFifo : List (Nat × Nat) := []
  /-- The tick at which the period of each aged table last began; the microsecond of the last visits and how many there were in it (R294),
  and the millisecond of the last compared rows and how many (R297). -/
  sweepAt : Tbl Nat := []
  visitUs : Nat × Nat := (0, 0)
  shdMs : Nat × Nat := (0, 0)
  /-- Rows of on-die table memory with a double-bit error, by row key (R90). -/
  deadRows : List Nat := []
  /-- The row that the compare engine reads next, by table (R297), and repairs that wait for a write-back (R299, R314). -/
  shdAt : Nat × Nat := (0, 0)
  shdRepairs : List Mismatch := []
  /-- Range-search entries: bank times 8,192 plus index. -/
  rsu : Tbl RsuEntry := []
  /-- The move windows that run, by RSU page. -/
  rsuRuns : Tbl RsuRun := []
  /-- Units whose parity fails until their entry is written (R335, R353): bank times 8,192 plus unit; and the replica that takes the next
  search (R342). -/
  rsuDead : List Nat := []
  rsuTurn : Nat := 0
  deriving DecidableEq, Repr

/-- The queueing die: buffers, multicast, queues, fabric, Liner and HBM (chapters 10 to 13). -/
structure QdState where
  /-- Allocated buffers: pool times 2^24 plus buffer number (R354). -/
  bufs : Tbl BufRec := []
  /-- The slice that serves the next request of each pool (R359), the bitmap words out of service: pool times 2^24 plus
  64 times the word plus the slice (R360), and whether a buffer has been allocated since the last reset (R355). -/
  nextSlice : Tbl Nat := []
  lostWords : List Nat := []
  bpmUsed : Bool := false
  /-- Queues by admission queue ID, and the queues not in their reset state only. -/
  queues : Tbl Queue := []
  /-- Multicast groups, replica entries and descriptors (R382, R383). -/
  groups : Tbl Nat := []
  repList : Tbl Nat := []
  mcds : Tbl Mcd := []
  mcdAge : Nat := 0
  /-- The tick at which buffer pressure last ended a wait (R388). -/
  pressAt : Option Nat := none
  /-- Tokens of each port's express policer in 1/6,400 byte (R416). -/
  police : Tbl Nat := []
  /-- Shaper profiles whose memory has a double-bit error (R431). -/
  shpDead : List Nat := []
  /-- Scheduler nodes: level times 2^18 plus index; a node that no entry lists has its reset words. -/
  nodes : Tbl Node := []
  flush : Option Flush := none
  /-- Frames granted and on their way over the Band to the FD, oldest first. -/
  toFd : List Frame := []
  /-- DWRR of the VOQ arbiter: DEFICIT of classes 0 to 6, the current class, and the device last served in each class. -/
  voqDef : List Int := [0, 0, 0, 0, 0, 0, 0]
  voqCur : Nat := 0
  voqLast : Tbl Nat := []
  /-- Frames that the Liner has reassembled, on their way to admission, oldest first (R475). -/
  fabFrames : List Frame := []
  /-- Drafa links by number (R432). -/
  links : Tbl FabLink := []
  /-- Frames granted for spraying, oldest first; SEQ of each destination and class (R461): 8 times device plus class; the
  SPRAY_ORDER entry to look at next (R462). -/
  spray : List Spray := []
  seqs : Tbl Nat := []
  sprayAt : Nat := 0
  /-- Fabric strobe scheduled: its target (R481 to R483). -/
  fabStrobe : Option NetTime := none
  /-- Queues of the fabric element by number (R468), the link last chosen by partition and destination (R464): 4,096 times
  partition plus destination, and the element's own XOFF bits (R459). -/
  felq : Tbl (List FelCell) := []
  /-- Cells that arrived on links 256 to 511 and wait for the Band to carry them to the QD, oldest first: link and cell (R19, R26). -/
  felWait : List (Nat × List Byte) := []
  felLast : Tbl Nat := []
  felXoff : Nat := 0
  /-- Liner contexts (R473): 8 times source plus class, and the next arrival number. -/
  liner : Tbl LinCtx := []
  linOrder : Nat := 0
  /-- The bytes of the HBM table region (R493), in the canonical form of Memory.wf. -/
  hbm : List Host.Cell := []
  /-- HBM channels by device channel number (R492), accesses held by each regulator, oldest first (R502), and each
  regulator's tokens in 1/32 byte (R500). -/
  chans : Tbl HbmChan := []
  hbmHeld : Tbl (List HbmAcc) := []
  hbmTokens : Tbl Int := []
  /-- The next burst of each stack that the scrubber reads (R521). -/
  scrubAt : Tbl Nat := []
  scrubDue : Tbl Nat := []
  deriving DecidableEq, Repr

/-- The host endpoint, its functions and queue pairs, offload and services (chapters 14 to 16). -/
structure HostState where
  /-- PCIe functions by routing-ID offset: 0 PF0, 1 PF1, 1 + n VF n (R533). -/
  fns : Tbl PciFn := []
  /-- Tag slots in flight or in quarantine (R549). -/
  tags : List TagSlot := []
  /-- The tick at which VF Enable was last set (R537). -/
  vfSince : Nat := 0
  /-- The level of PERST_N (R825) and the subsystem IDs that the configuration space shows (R534). -/
  perstHigh : Bool := false
  subsys : Nat := 0
  /-- A retrain has been asked for (R565). -/
  retraining : Bool := false
  /-- Queue pairs (R567), functions as the VFM page numbers them, and the queue pair the transmit DWRR serves. -/
  qps : Tbl QPair := []
  vfs : Tbl VfState := []
  txCur : Nat := 0
  /-- The running DISABLE of the DMA page (queue pair, tag) and FREEZE of the VFM page (VF, tag). -/
  qpRun : Option (Nat × Nat) := none
  vfmRun : Option (Nat × Nat) := none
  /-- Frames resolved to a queue pair that have left the egress pipelines, oldest first (R25). -/
  hostRx : List Frame := []
  /-- IPsec SAs (R622), the IPS queues, oldest first, and the DWRR between them (R621). -/
  ipsSas : Tbl IpsSa := []
  ipsHost : List IpsItem := []
  ipsTransit : List IpsItem := []
  ipsDef : Int × Int := (0, 0)
  ipsOnHost : Bool := true
  /-- Key-encryption keys and their EXPORT bits (R634). -/
  keks : Tbl (List Nat) := []
  kekExport : Tbl Nat := []
  /-- NVMe/TCP connections (R628). -/
  nvs : Tbl NvConn := []
  /-- BFD sessions, packet templates (R654), control packets that wait for the engine, and the event FIFO (R642). -/
  sess : Tbl (List Nat) := []
  svcTpl : Tbl (List Nat) := []
  bfdIn : List Frame := []
  bfdEvents : List BfdEvent := []
  /-- When a session last received a packet that passes R637 or was written, and when it last sent one (R639 to R641). -/
  bfdHeard : Tbl Nat := []
  bfdSent : Tbl Nat := []
  /-- Responder entries and frames that wait for it (R649). -/
  rsp : Tbl (List Nat) := []
  rspIn : List Frame := []
  /-- Flow updates that wait, the flow cache by entry, and the records exported so far (R646, R648). -/
  flowIn : List Flow := []
  flows : Tbl Flow := []
  ipfixSeq : Nat := 0
  /-- When the sweeper last visited the cache (R647), and when the templates last went out since IPFIX_EN rose (R648). -/
  ipfixSwept : Option Nat := none
  ipfixTplAt : Option Nat := none
  deriving DecidableEq, Repr

/-- Network time, the Bonnet, the service processors, firmware, observability and power (chapters 17 to 22). -/
structure MgmtState where
  /-- A pending set of network time: 0 none, 2 SET_AT_PPS, 3 SET_FROM_TOD (R660). -/
  ntPending : Nat := 0
  /-- Tick of the last PPS_IN edge and the last capture (R667). -/
  ppsAt : Option Nat := none
  ppsCap : NetTime := {}
  /-- Tick of the latest rise of VALID or PPS_LOSS_INVAL (R664). -/
  ntArm : Nat := 0
  /-- The SEC of a ToD message accepted since the last PPS_IN edge (R660), and the tick of the last accepted one (R685). -/
  todSec : Option Nat := none
  todAt : Option Nat := none
  /-- Tick of the last PPS_OUT edge whose ToD message has not been sent (R670). -/
  ppsOutAt : Option Nat := none
  /-- Tick of the last PPS_OUT edge (R668); since when the source of a squelched SyncE output is good again (R673). -/
  ppsOutLast : Option Nat := none
  synceAt : Tbl Nat := []
  /-- Timed actions by entry index, the number of posts so far, and the entries whose last post has fired (R674, R683). -/
  taq : Tbl TaqEntry := []
  taqPosts : Nat := 0
  taqFired : List Nat := []
  /-- The Bonnet (R689 to R710): tap entries by number as their two words, the report interval, meters as frames and octets, the
  stomped frames, and whether the one-time store failed at power-up, which marks every meter. -/
  bonTaps : Tbl (Nat × Nat) := []
  bonInterval : Nat := 900
  bonMeters : Tbl (Nat × Nat) := []
  bonStomped : Nat := 0
  bonBad : Bool := false
  /-- Meters lost to a double-bit error, which stay as they are for the rest of the session (R709). -/
  bonLost : List Nat := []
  /-- The latched image and whether it shows marked meters, the next REPORT_SEQ, the header of the report in progress, the ring
  of records, CHANGE_ATTEMPTS and FACTORY_EVENTS of the last report, and whether network time was stepped since it. -/
  bonImage : Tbl (Nat × Nat) := []
  bonImageBad : Bool := false
  bonSeq : Nat := 0
  bonReport : Option (List Byte) := none
  bonAsked : Option Nat := none
  bonRing : Tbl (List Byte) := []
  bonSeen : Nat × Nat := (0, 0)
  bonStepped : Bool := false
  /-- SP-A (0) and SP-B (1). -/
  sps : Tbl SpState := []
  /-- Tick and nanoseconds of network time of the last heartbeat or grant (R717), and whether one has arrived at all. -/
  hbAt : Nat := 0
  hbNs : Nat := 0
  hbSeen : Bool := false
  /-- Tick at which the gap began (R721), deadline of the takeover (R722), whether the next grant follows an activation or
  fallback, and whether the active processor has written TAKEOVER_DONE. -/
  gapFrom : Option Nat := none
  takeoverBy : Option Nat := none
  firstGrant : Bool := false
  takenOver : Bool := false
  /-- Tick since which NO_ACTIVE is 1, and whether the fans run at the fail-safe duty (R725). -/
  noActiveAt : Option Nat := none
  failsafe : Bool := false
  /-- The firmware command of FWU_CMD that waits for the new active processor (notes/assumptions/33.md). -/
  fwHeld : Option FwTask := none
  /-- The command of SEC_CMD that waits for the new active processor. -/
  secHeld : Option SecTask := none
  /-- The TAP of IEEE 1149.1 (R756). -/
  jtag : Jtag := {}
  /-- Bytes of the SPI NOR flash that have been written (R732); any other reads as Config.flashByte gives. -/
  flash : Tbl Byte := []
  /-- Fuses (R739, R754, R735): blown steps of the SVN counter and of ERASE_GEN, revoked vendor keys. -/
  fuseSvn : Nat := 0
  eraseGen : Nat := 0
  keyRevoked : Nat := 0
  /-- FACTORY and FELL_BACK last until a power-on reset (R750, R758). -/
  factory : Bool := false
  fellBack : Bool := false
  /-- Slots that have passed R735 since their last write (R745), the digest of the running image, the tick at which the trial
  image booted (R749), whether the armed activation has fired (R745), and the STAGE that runs: its slot, 3 for the
  configuration, and tag. -/
  fwPassed : List Nat := []
  runDigest : List Byte := []
  trialAt : Option Nat := none
  fwFired : Bool := false
  fwRun : Option (Nat × Nat) := none
  /-- The quote of window page 0, whether a challenge is outstanding (R757), and the token words of window page 2. -/
  quote : List Byte := []
  challenged : Bool := false
  token : Tbl Nat := []
  /-- The trace buffer by index, the index the next record takes, and the tag counter (R783 to R788). -/
  trace : Tbl TraceRec := []
  traceAt : Nat := 0
  traceTags : Nat := 0
  /-- Common strobes that have not been flushed or skipped yet, oldest first, and the flush in progress (R777). -/
  shadowDue : List Nat := []
  shadowFlush : Option ShadowFlush := none
  /-- Bandwidth counts of the running window by port, as receive octets and frames, transmit octets and frames (R780), and the
  tick at which it began (R781). -/
  bw : Tbl (Nat × Nat × Nat × Nat) := []
  bwFrom : Nat := 0
  /-- The length in microseconds of the window that runs: a change of WINDOW_US applies from the next window end (R781). -/
  bwUs : Nat := 1000
  /-- The log dump and the trace dump that run (R794, R799). -/
  logRun : Option DumpRun := none
  traceRun : Option DumpRun := none
  /-- Values of LEG entries at the last read of their aliases (R798), and the tick of the last gather (R795). -/
  legSeen : Tbl Nat := []
  legAt : Option Nat := none
  /-- HBM stacks whose trip waits for the firmware of the new active processor (R832; 19_service_processors.md, task table). -/
  thermHeld : List Nat := []
  /-- The level of PWRGOOD, the tick of its rise or of the warm command (R824), and whether a warm reset runs (R830). -/
  pwrgood : Bool := false
  startFrom : Nat := 0
  warming : Bool := false
  /-- Domain transitions that run (true: powering up), the last write held for each (true: ON), and the SerDes domains that
  wait for their turn (R811). -/
  domTrans : Tbl Bool := []
  domHeld : Tbl Bool := []
  serdesWait : List Nat := []
  /-- Tick at which each HBM stack tripped (R832), tick of the rise of PERST_N (R825), SRNS as applied (R817). -/
  hbmTripAt : Tbl Nat := []
  perstAt : Nat := 0
  srns : Bool := false
  deriving DecidableEq, Repr

/-- The whole state of the device. -/
structure State extends CoreState, BandState, LineState, PipeState, QdState, HostState, MgmtState
  deriving DecidableEq, Repr

/-- The machine right after reset: power-on reset held (START_STS.STEP 0). Every register at its reset value, of the
power domains only PD00 on (R806), every memory and queue empty (notes/assumptions/4.md). -/
def State.reset : State := { regs := [(Fld.key pgPWR PWR.DOM_STS_POWERED 0, 1)] }

end Sys2Proof.Machine
end

