-- ==== Sys2Proof/Machine/Operands.lean ====
section
/-! DEFINITION. Machine/Operands.lean: numbers inside byte strings, byte order (R6, R869), checksums and CRCs. -/

namespace Sys2Proof.Machine

/-- A byte from a number's low eight bits. -/
def byteOf (n : Nat) : Byte := BitVec.ofNat 8 n

/-- The number a byte string spells, most significant byte first (R869). -/
def beNat (l : List Byte) : Nat := l.foldl (fun a b => a * 256 + b.toNat) 0

/-- The number a byte string spells, least significant byte first (R6). -/
def leNat : List Byte → Nat
  | [] => 0
  | b :: t => b.toNat + 256 * leNat t

/-- n bytes of a number, most significant first. -/
def toBe : (n v : Nat) → List Byte
  | 0, _ => []
  | n + 1, v => toBe n (v / 256) ++ [byteOf v]

/-- n bytes of a number, least significant first. -/
def toLe : (n v : Nat) → List Byte
  | 0, _ => []
  | n + 1, v => byteOf v :: toLe n (v / 256)

/-- n bytes of a string from an offset (shorter where the string ends). -/
def slice (l : List Byte) (off n : Nat) : List Byte := (l.drop off).take n

/-- The big-endian number of n bytes at an offset; bytes past the end count as absent. -/
def beAt (l : List Byte) (off n : Nat) : Nat := beNat (slice l off n)

/-- A string with bytes replaced at an offset (what falls past the end is not written). -/
def patch (l : List Byte) (off : Nat) (x : List Byte) : List Byte :=
  l.take off ++ (x.take (l.length - off)) ++ l.drop (off + x.length)

/-- 32-bit words as bytes, byte 4k in bits [31:24] of word k (R869). -/
def wordsToBytes (ws : List Nat) : List Byte := ws.flatMap (toBe 4)

/-- Bytes as 32-bit words, little-endian numbers as R6 gives for numeric words in host memory. -/
def bytesToLeWords : List Byte → List Nat
  | a :: b :: c :: d :: t => leNat [a, b, c, d] :: bytesToLeWords t
  | [] => []
  | l => [leNat l]

/-- 32-bit words as little-endian bytes (R6). -/
def leWordsToBytes (ws : List Nat) : List Byte := ws.flatMap (toLe 4)

/-- Bytes as 32-bit words, byte 4k in bits [31:24] (R869). -/
def bytesToBeWords : List Byte → List Nat
  | a :: b :: c :: d :: t => beNat [a, b, c, d] :: bytesToBeWords t
  | [] => []
  | l => [beNat (l ++ List.replicate (4 - l.length) 0)]

/-- Exclusive or of two byte strings, to the length of the first. -/
def xorBytes : List Byte → List Byte → List Byte
  | a :: s, b :: t => (a ^^^ b) :: xorBytes s t
  | s, [] => s
  | [], _ => []

/-- A CRC of width w, most significant bit first: one bit shifted in. -/
def crcBit (w poly crc : Nat) (b : Bool) : Nat :=
  let top := (crc / 2 ^ (w - 1)) % 2 = 1
  let sh := (crc * 2) % 2 ^ w
  if top ≠ b then Nat.xor sh poly else sh

/-- A CRC over a byte, most significant bit first. -/
def crcByte (w poly crc : Nat) (b : Byte) : Nat :=
  [7, 6, 5, 4, 3, 2, 1, 0].foldl (fun c k => crcBit w poly c (b.getLsbD k)) crc

/-- A CRC over a byte string, most significant bit first. -/
def crcMsb (w poly init : Nat) (l : List Byte) : Nat := l.foldl (crcByte w poly) init

/-- A reflected CRC-32 with its polynomial in reflected form: one bit. -/
def crcReflBit (poly crc : Nat) : Nat := if crc % 2 = 1 then Nat.xor (crc / 2) poly else crc / 2

/-- A reflected CRC-32 over a byte string from an initial value, inverted after. -/
def crc32Seed (poly init : Nat) (l : List Byte) : Nat :=
  let f (c : Nat) (b : Byte) : Nat :=
    (List.range 8).foldl (fun a _ => crcReflBit poly a) (Nat.xor c b.toNat)
  Nat.xor (l.foldl f init) 0xFFFFFFFF

/-- A reflected CRC-32 over a byte string, all ones before and inverted after. -/
def crc32Refl (poly : Nat) (l : List Byte) : Nat := crc32Seed poly 0xFFFFFFFF l

/-- The CRC-32 of IEEE 802.3, as the Ethernet FCS (R90; PRESUMED, notes/assumptions/10.md). -/
def crc32 (l : List Byte) : Nat := crc32Refl 0xEDB88320 l

/-- The CRC-32C of Castagnoli, as NVMe/TCP digests use (PRESUMED, notes/assumptions/10.md). -/
def crc32c (l : List Byte) : Nat := crc32Refl 0x82F63B78 l

/-- The CRC-32C of a key with an initial value, as the hash tables use it (R250, R279, R285, R290; PRESUMED,
notes/assumptions/10.md). -/
def hash32c (seed : Nat) (key : List Byte) : Nat := crc32Seed 0x82F63B78 seed key

/-- The 16-bit one's-complement sum of a byte string, a last odd byte padded with zero (R124). -/
def onesSum : List Byte → Nat
  | a :: b :: t => let v := a.toNat * 256 + b.toNat + onesSum t; if v < 65536 then v else v - 65535
  | [a] => a.toNat * 256
  | [] => 0

/-- The one's complement of a 16-bit sum. -/
def onesNeg (v : Nat) : Nat := 65535 - v % 65536

/-- One's-complement addition of 16-bit sums. -/
def onesAdd (a b : Nat) : Nat := if a + b < 65536 then a + b else a + b - 65535

/-! ### Common protocol numbers -/

def etherTypeAt (l : List Byte) (off : Nat) : Nat := beAt l off 2

end Sys2Proof.Machine
end

