-- ==== Sys2Proof/Config.lean ====
section
/-! DEFINITION. Config.lean: what the spec leaves open. Every constant here is opaque: it has no body, so no proof can
see a value of it, and a statement that mentions one holds for every value of it (notes/assumptions/2.md, 3.md). -/

namespace Sys2Proof.Config

/-- FREE VALUE. The n-th value the spec leaves undefined or random; State.free counts the values drawn. -/
opaque freeValue : Nat → Nat

/-- FREE VALUE. What a byte of the HBM table region holds while nothing has written it: start-up does not write the region
and its content is undefined (R875; notes/assumptions/27.md). -/
opaque hbmByte : (addr : Nat) → BitVec 8

/-- The AES-GCM encryption of MACsec and IPsec (R142, R621): key, nonce, additional data and plain text to cipher text
and tag. The algorithm is named and not written out by the spec: an uninterpreted function. -/
opaque gcmSeal : (key nonce aad plain : List Byte) → List Byte

/-- The AES-GCM decryption: none where the integrity check value does not match (R145, R625). -/
opaque gcmOpen : (key nonce aad sealed : List Byte) → Option (List Byte)

/-- AES key wrap of a plain key under a key-encryption key (R633, R635). -/
opaque keyWrap : (kek plain : List Byte) → List Byte

/-- AES key unwrap: none where the integrity value does not match (R635). -/
opaque keyUnwrap : (kek wrapped : List Byte) → Option (List Byte)

/-- SHA-256 of a byte string (R697, R735, R755). -/
opaque sha256 : List Byte → List Byte

/-- The RSA-3072 signature of a byte string by the named device key (R707, R755): key number, then message. -/
opaque rsaSign : (key : Nat) → List Byte → List Byte

/-- Whether an RSA-3072 signature of a byte string verifies under the named public key (R735, R758). -/
opaque rsaVerify : (key : Nat) → List Byte → List Byte → Bool

/-- FREE VALUE. The 16-byte descriptor that crosses the Band with a frame and heads its first cell (R450), from its fields:
the spec gives it no layout (notes/assumptions/26.md). -/
opaque descriptor : (fields : List Nat) → List Byte

/-- FREE VALUE. Field k of a received descriptor (R450; notes/assumptions/26.md). -/
opaque descriptorField : (bytes : List Byte) → (k : Nat) → Nat

/-- FREE VALUE. The candidate entry k, 0 or 1, of a flow in the flow cache (R646): the layout is internal. -/
opaque flowSlot : (key : List Byte) → (k : Nat) → Nat

/-- FREE VALUE. The X.509 certificate that Ghembivia issued: 0 for the Bonnet key (R710), 1 for the identity key (R753). -/
opaque certificate : (which : Nat) → List Byte

/-- HMAC-SHA-256 under the device secret, which no register reads (R754). -/
opaque secretHmac : List Byte → List Byte

/-- FREE VALUE. What a byte of the SPI NOR flash holds that the device has not written: the integrator programs it (R732;
notes/assumptions/33.md). -/
opaque flashByte : (off : Nat) → BitVec 8

/-- The key hashes that Ghembivia fuses at manufacture, vendor keys 0 to 3 (R735). -/
opaque fusedHash : (index : Nat) → List Byte

/-- Whether a signature of a message verifies under the factory key whose hash is fused (R757). -/
opaque factoryVerify : (message signature : List Byte) → Bool

/-- FREE VALUE. The level on GPIO0 to GPIO15 from the board at a timing clock, where the device does not drive them (R724;
notes/assumptions/2.md). -/
opaque pinLevel : (tick : Nat) → Nat

/-- FREE VALUE. The memory error of a timing clock, if there is one: the page, which of its memory, and whether it is a double-bit error
(R90; notes/assumptions/23.md). -/
opaque upset : (tick : Nat) → Option (Nat × Nat × Bool)

/-- FREE VALUE. What the scrambler of a Drafa link holds when its transmitter starts (R435 gives none). -/
opaque scramblerStart : (link : Nat) → Nat

/-- FREE VALUE. Core clocks of a page between two timing clocks, where R818 and R870 give the page no clock: the line SerDes, the
crypto and the host engines (R763; notes/assumptions/1.md). -/
opaque unitClocks : (page tick : Nat) → Nat

end Sys2Proof.Config
end

