-- ==== Sys2Proof/Machine/Base.lean ====
section
/-! DEFINITION. Machine/Base.lean: reading and writing register fields, free values, power and freezing: the operations
every other one is built on. -/

namespace Sys2Proof.Machine

/-! ### Register fields -/

/-- The value of element i of field f of page p. -/
def State.rd (s : State) (p : Nat) (f : Fld) (i : Nat := 0) : Nat :=
  tgetD s.regs (f.key p i) (f.rstAt p i)

/-- The field with its value set, held to its width; a field at its reset value is not listed. -/
def State.wr (s : State) (p : Nat) (f : Fld) (v : Nat) (i : Nat := 0) : State :=
  { s with regs :=
      if v % 2 ^ f.w = f.rstAt p i then tdel s.regs (f.key p i) else tset s.regs (f.key p i) (v % 2 ^ f.w) }

/-- A one-bit field reads 1. -/
def State.on (s : State) (p : Nat) (f : Fld) (i : Nat := 0) : Bool := decide (s.rd p f i = 1)

/-- A one-bit field set from a truth value. -/
def State.put (s : State) (p : Nat) (f : Fld) (b : Bool) (i : Nat := 0) : State := s.wr p f (b2n b) i

/-- Something the device puts out. -/
def State.emit (s : State) (o : Out) : State := { s with out := o :: s.out }

/-- A fresh free value of w bits (Config.freeValue; notes/assumptions/2.md): the number, and the state that has drawn it. -/
def State.draw (s : State) (w : Nat) : Nat × State :=
  (Config.freeValue s.free % 2 ^ w, { s with free := s.free + 1 })

/-- A field given a fresh free value. -/
def State.wrFree (s : State) (p : Nat) (f : Fld) (i : Nat := 0) : State :=
  (s.draw f.w).2.wr p f (s.draw f.w).1 i

/-! ### Power, mode and freezing -/

/-- The power domain d is on (R805). -/
def State.domOn (s : State) (d : Nat) : Bool := s.on pgPWR PWR.DOM_STS_POWERED d

/-- Page p is populated and its power domain is on. -/
def State.live (s : State) (p : Nat) : Bool := (pageAt p).isSome && s.domOn (domainOf p)

/-- Page p is powered and its block operates (PAGE_CTL.ENABLE, R52). -/
def State.enabled (s : State) (p : Nat) : Bool := s.live p && s.on p COMMON.PAGE_CTL_ENABLE

/-- The device works as a fabric element (R3, R4). -/
def State.fabric (s : State) : Bool := s.on pgCRWN CRWN.DEV_MODE_FABRIC

/-- Native counters of page p hold their values (R767). -/
def State.frozen (s : State) (p : Nat) : Bool :=
  s.on p COMMON.PAGE_CTL_FREEZE || s.on pgCRWN CRWN.GFREEZE_FREEZE_ALL

/-- A command on a page whose domain is off does nothing (R49). -/
def State.gate (s : State) (p : Nat) (f : State → State) : State := if s.live p then f s else s

/-- A command of a unit that fabric mode turns off, as the queue pairs and the crypto engines (R29), does nothing there. -/
def State.lineGate (s : State) (p : Nat) (f : State → State) : State := if s.fabric then s else s.gate p f

/-! ### PCIe functions (R533, R536)

The offsets below 0x40 and the layouts inside the capabilities are those of the PCI Express specifications (PRESUMED;
notes/assumptions/28.md). -/

/-- The reset value of the writable bits of a configuration dword. -/
def cfgReset (off : Nat) : Nat :=
  if off = 0x78 then 0x2110 else if off = 0x108 then 0x00400000 else if off = 0x10C then 0x00462030
  else if off = 0x114 then 0xE000 else if off = 0x320 then 1 else 0

/-- The writable content of a configuration dword. -/
def PciFn.dw (f : PciFn) (off : Nat) : Nat := tgetD f.cfg off (cfgReset off)

/-- A configuration dword set. -/
def PciFn.setDw (f : PciFn) (off v : Nat) : PciFn := { f with cfg := tset f.cfg off v }

/-- Bus Master Enable, Memory Space Enable, D3hot, MSI-X Enable and Function Mask. -/
def PciFn.bme (f : PciFn) : Bool := bit (f.dw 4) 2
def PciFn.mse (f : PciFn) : Bool := bit (f.dw 4) 1
def PciFn.d3 (f : PciFn) : Bool := decide (bits (f.dw 0x44) 0 2 = 3)
def PciFn.msixEn (f : PciFn) : Bool := bit (f.dw 0x50) 31
def PciFn.msixMask (f : PciFn) : Bool := bit (f.dw 0x50) 30

/-- The function may send requests of its own (R538, R559). -/
def PciFn.sends (f : PciFn) : Bool := f.bme && !f.d3

/-- Function fn, by routing-ID offset. -/
def State.fnS (s : State) (fn : Nat) : PciFn := tgetD s.fns fn {}

/-- Function fn replaced. -/
def State.setFn (s : State) (fn : Nat) (f : PciFn) : State := { s with fns := tset s.fns fn f }

end Sys2Proof.Machine
end

