-- ==== Sys2Proof/Machine/Clock.lean ====
section
/-! DEFINITION. Machine/Clock.lean: arithmetic on network time (R656) and the spans of model time. -/

namespace Sys2Proof.Machine

/-- Network time as one number of 2^-48 ns. -/
def NetTime.total (t : NetTime) : Nat := (t.sec * 1000000000 + t.ns) * 2 ^ 48 + t.frac

/-- Network time from a number of 2^-48 ns; seconds wrap at 48 bits. -/
def NetTime.ofTotal (v : Nat) : NetTime :=
  { frac := v % 2 ^ 48, ns := (v / 2 ^ 48) % 1000000000, sec := (v / 2 ^ 48 / 1000000000) % 2 ^ 48 }

/-- A time held to the widths of its parts: 48-bit seconds, nanoseconds below a second. -/
def NetTime.norm (t : NetTime) : NetTime := { sec := t.sec % 2 ^ 48, ns := t.ns % 1000000000, frac := t.frac % 2 ^ 48 }

/-- The visible 16-bit fraction of a nanosecond. -/
def NetTime.frac16 (t : NetTime) : Nat := t.frac / 2 ^ 32

/-- Network time moved by a signed number of 2^-48 ns; it wraps at its 48-bit seconds. -/
def NetTime.shift (t : NetTime) (d : Int) : NetTime :=
  let m : Int := ((2 ^ 48 * 1000000000 * 2 ^ 48 : Nat) : Int)
  NetTime.ofTotal ((((t.total : Nat) : Int) + d) % m).toNat

/-- One time is earlier than another. -/
def NetTime.lt (a b : NetTime) : Bool := decide (a.total < b.total)

/-- Timing clocks in a span of milliseconds or microseconds. -/
def ticksMs (n : Nat) : Nat := n * 800000
def ticksUs (n : Nat) : Nat := n * 800

/-- A span of timing clocks in whole microseconds. -/
def usOf (ticks : Nat) : Nat := ticks / 800

end Sys2Proof.Machine
end

