-- ==== Sys2Proof/Machine/Views.lean ====
section
/-! DEFINITION. Machine/Views.lean: words of a page as a read or the strobe finds them: those of the stored fields, and those a page
computes from its own state. -/

namespace Sys2Proof.Machine

/-! ### Reading a whole word from the fields -/

/-- The contribution of field f of page p to the word at an offset. -/
def State.fieldWord (s : State) (p off : Nat) (f : Fld) : Nat :=
  if f.acc = .wo then 0
  else if f.acc = .cnt ∧ f.off + 4 ≤ off ∧ (off - (f.off + 4)) % f.stride = 0 ∧ (off - (f.off + 4)) / f.stride < f.n then
    s.rd p f ((off - (f.off + 4)) / f.stride) / 2 ^ 32
  else if f.off ≤ off ∧ (off - f.off) % f.stride = 0 ∧ (off - f.off) / f.stride < f.n then
    (s.rd p f ((off - f.off) / f.stride) % 2 ^ 32) * 2 ^ f.lo
  else 0

/-- The word of the stored fields of page p at an offset. -/
def State.storedWord (s : State) (p off : Nat) : Nat :=
  match pageAt p with
  | some (k, _) => (pageFields k).foldl (fun a f => a + s.fieldWord p off f) 0
  | none => 0

/-! ### Causes (R67) -/

/-- The unmasked causes of page p. -/
def State.unmasked (s : State) (p : Nat) : Nat :=
  andNot (s.rd p COMMON.INT_CAUSE_CAUSE) (s.rd p COMMON.INT_MASK_MASK)

/-- The summary bit of page p (R67). -/
def State.summary (s : State) (p : Nat) : Bool := decide (s.unmasked p ≠ 0)

/-- Page p has an unmasked cause of severity sev set. -/
def State.hasSev (s : State) (p sev : Nat) : Bool :=
  (List.range 16).any fun c => bit (s.unmasked p) c && decide (severityOf p c = sev)

/-! ### Counting -/

/-- Bits set in a number, of the low n. -/
def popCount (v n : Nat) : Nat := ((List.range n).filter fun k => bit v k).length

/-! ### Queues -/

def sumNat (l : List Nat) : Nat := l.foldl (· + ·) 0

/-- Queue q. -/
def State.que (s : State) (q : Nat) : Queue := tgetD s.queues q {}

/-- The frame's bytes lie in HBM or are on their way there or back (R370, R373). -/
def Frame.inHbm (f : Frame) : Bool :=
  match f.place with
  | .staged => true
  | .hbm => true
  | .reading => true
  | _ => false

/-- A queue's depth D, and its part in HBM, in bytes (R376). -/
def Queue.depth (x : Queue) : Nat := sumNat (x.frames.map (·.qlen))
def Queue.hbmBytes (x : Queue) : Nat := sumNat ((x.frames.filter Frame.inHbm).map (·.qlen))

/-- The words of QPROF, QDEPTH, QHBM and QSTS for the queue in QSEL (R394). -/
def State.admView (s : State) (off : Nat) : Option Nat :=
  let x := s.que (s.rd pgADM ADM.QSEL_QUEUE)
  match off with
  | 0x108 => some x.prof
  | 0x10C => some (x.depth / 256 % 2 ^ 28)
  | 0x110 => some (x.hbmBytes / 256 % 2 ^ 28)
  | 0x114 => some (b2n x.spill + 2 * b2n (decide (x.residue ≠ [])) + 4 * b2n x.halted)
  | _ => none

/-! ### Drafa links (R432, R440, R456 to R460, R484, R486) -/

/-- The FIU page and slot of link l (R432, R484). -/
def linkPage (l : Nat) : Nat := pgFIU (if l < 256 then l / 16 else (l - 256) / 16)
def linkSlot (l : Nat) : Nat := if l < 256 then l % 16 else 16 + l % 16

/-- The links of the device (R432). -/
def State.linkCount (s : State) : Nat := if s.fabric then 512 else 256

/-- Link l. -/
def State.link (s : State) (l : Nat) : FabLink := tgetD s.links l {}

/-- A field of link l, and its value set. -/
def State.lrd (s : State) (l : Nat) (f : Fld) : Nat := s.rd (linkPage l) f (linkSlot l)
def State.lwr (s : State) (l : Nat) (f : Fld) (v : Nat) : State := s.wr (linkPage l) f v (linkSlot l)

/-- STATE of link l (R440). -/
def State.linkState (s : State) (l : Nat) : Nat := s.lrd l FIU.LINK_STS_STATE

def lOFF : Nat := 0
def lADAPT : Nat := 1
def lLOCK : Nat := 2
def lHELLO : Nat := 3
def lACTIVE : Nat := 4
def lDOZE : Nat := 5
def lWAKE : Nat := 6
def lDOWN : Nat := 7

/-- The links that exist and are ACTIVE, rising. -/
def State.activeLinks (s : State) : List Nat := (List.range s.linkCount).filter fun l => s.linkState l = lACTIVE

/-- The device's own tier: 0 in line mode, else FEL_CFG.TIER (R443, R451). -/
def State.tier (s : State) : Nat := if s.fabric then s.rd pgFEL FEL.FEL_CFG_TIER else 0

/-- The device's own ID (R455). -/
def State.ownId (s : State) : Nat := s.rd pgCRWN CRWN.DEV_MODE_DEVICE_NUM

/-- A tier-1 element treats link l as an up link (R457). -/
def State.isUp (s : State) (l : Nat) : Bool := decide (s.tier = 1) && bit (s.rd pgFEL FEL.UP_MASK_LINKS (l / 32)) (l % 32)

/-- The far end of link l is line device d (R457). -/
def State.farLine (s : State) (l : Nat) : Option Nat :=
  if s.lrd l FIU.LINK_STS_FAR_TIER = 0 ∧ (s.link l).helloAt.isSome then some (s.lrd l FIU.LINK_STS_FAR_DEV) else none

/-- Link l may carry cells: ACTIVE and not taken out for doze; a line device also asks SPRAY_EN (R445, R456). -/
def State.linkUsable (s : State) (l : Nat) : Bool :=
  decide (s.linkState l = lACTIVE) && !(s.link l).out && (s.fabric || decide (s.lrd l FIU.LINK_CTL_SPRAY_EN = 1))

/-- The line devices at the far ends of a tier-1 element's usable links. -/
def State.downSet (s : State) : Nat :=
  (List.range s.linkCount).foldl (fun a l =>
    if s.linkUsable l then match s.farLine l with
      | some d => setBit a d
      | none => a
    else a) 0

/-- The destinations whose mask or reach list holds link l, as a bitmap (R456, R457). `down` is downSet. -/
def State.linkBits (s : State) (down l : Nat) : Nat :=
  if ¬ s.linkUsable l then 0
  else if ¬ s.fabric then clrBit ((s.link l).reach % 2 ^ 4096) s.ownId
  else if s.tier = 1 then
    match s.farLine l with
    | some d => 2 ^ d
    | none => if s.isUp l then andNot ((s.link l).reach) down else 0
  else (s.link l).reach

/-- The links in the mask or reach list of destination d, rising. -/
def State.maskOf (s : State) (d : Nat) : List Nat :=
  let down := s.downSet
  (List.range s.linkCount).filter fun l => bit (s.linkBits down l) d

/-- XOFF holds destination d (R460): some link of its mask has the bit in its last FC. -/
def State.xoff (s : State) (d : Nat) : Bool := (s.maskOf d).any fun l => bit (s.link l).fc d

/-- Bits set in a 4,096-bit number. -/
def ones (v : Nat) : Nat := popCount v 4096

/-- Queue number q of the element (R468). -/
def State.felQueue (s : State) (q : Nat) : List FelCell := tgetD s.felq q []
def State.setFel (s : State) (q : Nat) (l : List FelCell) : State :=
  { s with felq := if l = [] then tdel s.felq q else tset s.felq q l }

/-- Non-express cells held for destination d, and all cells held (R459, R490). -/
def State.felHeld (s : State) (d : Nat) : Nat :=
  sumNat (s.felq.map fun e => (e.2.filter fun c => decide (c.dst = d) && !c.express).length)
def State.felUsed (s : State) : Nat := sumNat (s.felq.map fun e => e.2.length)

/-- A FIU page's number and slot give the link (R484). -/
def linkOfSlot (i sl : Nat) : Nat := if sl < 16 then 16 * i + sl else 256 + 16 * i + (sl - 16)

/-- LINK_STS of link l with IN_MASK. -/
def State.linkStsWord (s : State) (l : Nat) : Nat :=
  s.linkState l + 8 * s.lrd l FIU.LINK_STS_SF_LOCK + 16 * s.lrd l FIU.LINK_STS_FAR_RX_OK +
    32 * b2n (decide (s.linkBits s.downSet l ≠ 0)) + 64 * s.lrd l FIU.LINK_STS_FAR_TIER +
    256 * s.lrd l FIU.LINK_STS_FAR_DEV + 2 ^ 20 * s.lrd l FIU.LINK_STS_FAR_LINK

/-- REACH_INFO of destination d. -/
def State.reachInfo (s : State) (d : Nat) : Nat := (s.maskOf d).length + 65536 * b2n (!s.fabric && s.xoff d)

/-- The computed words of a FIU page i. -/
def State.fiuWord (s : State) (i off : Nat) : Option Nat :=
  if 0x100 ≤ off ∧ off < 0x500 ∧ (off - 0x100) % 32 = 4 then
    let l := linkOfSlot i ((off - 0x100) / 32)
    if l < s.linkCount then some (s.linkStsWord l) else some 0
  else none

/-- The computed words of the FAB page. -/
def State.fabWord (s : State) (off : Nat) : Option Nat :=
  let d := s.rd pgFAB FAB.REACH_SEL_DEVICE
  if off = 0x114 then
    some (s.activeLinks.length + 65536 * ((List.range s.linkCount).filter fun l => s.linkState l = lDOZE).length)
  else if off = 0x134 then some (s.reachInfo d)
  else if 0x140 ≤ off ∧ off < 0x180 ∧ off % 4 = 0 then
    some ((s.maskOf d).foldl (fun a l => if l / 32 = (off - 0x140) / 4 then setBit a (l % 32) else a) 0)
  else if 0x9000 ≤ off ∧ off < 0xD000 ∧ off % 4 = 0 then some (s.reachInfo ((off - 0x9000) / 4))
  else none

/-! ### The Liner (R488) and the fabric element (R490) -/

/-- Context k, 8 times source plus class. -/
def State.lin (s : State) (k : Nat) : LinCtx := tgetD s.liner k {}
def State.setLin (s : State) (k : Nat) (x : LinCtx) : State := { s with liner := tset s.liner k x }

/-- The computed words of the LIN page (R488). -/
def State.linWord (s : State) (off : Nat) : Option Nat :=
  let x := s.lin (s.rd pgLIN LIN.CTX_SEL_CTX)
  match off with
  | 0x134 => some (x.next + 2 ^ 20 * b2n x.idle + 2 ^ 21 * b2n x.partial_.isSome)
  | 0x138 => some x.held.length
  | _ => none

/-- The computed words of the FEL page (R490). -/
def State.felWord (s : State) (off : Nat) : Option Nat :=
  let j := s.rd pgFEL FEL.QSEL_LINK
  let d := s.rd pgFEL FEL.DEST_SEL_DEVICE
  match off with
  | 0x10C => some s.felUsed
  | 0x114 =>
    let q := if s.on pgFEL FEL.QSEL_EXP then 8192 + j else 512 * s.rd pgFEL FEL.QSEL_PART + j
    some (min 31 (s.felQueue q).length)
  | 0x11C => some (s.felHeld d + 2 ^ 31 * b2n (bit s.felXoff d))
  | _ => none

/-! ### Queue pairs and functions -/

/-- Queue pair p, and it replaced. -/
def State.qp (s : State) (p : Nat) : QPair := tgetD s.qps p {}
def State.setQp (s : State) (p : Nat) (x : QPair) : State := { s with qps := tset s.qps p x }

/-- What the device keeps of function n (0 PF0, n VF n), and it replaced. -/
def State.vf (s : State) (n : Nat) : VfState := tgetD s.vfs n {}
def State.setVf (s : State) (n : Nat) (x : VfState) : State := { s with vfs := tset s.vfs n x }

/-- The routing-ID offset of function n as the VFM page numbers it, and back. -/
def fnOf (n : Nat) : Nat := if n = 0 then 0 else n + 1
def vfOf (fn : Nat) : Nat := if fn = 0 then 0 else fn - 1

/-- The queue pair that QP_SEL names. -/
def State.qpSel (s : State) : Nat := s.rd pgDMA DMA.QP_SEL_QP

/-- The queue pairs of function n by local index. -/
def State.qpsOf (s : State) (n : Nat) : List (Nat × Nat) :=
  let l := s.qps.filterMap fun (e : Nat × QPair) => match e.2.owner with
    | some (k, i) => if k = n then some (i, e.1) else none
    | none => none
  l.foldl (fun (t : Tbl Nat) e => tins e.1 e.2 t) []

/-- A computed word of the DMA page. -/
def State.dmaWord (s : State) (off : Nat) : Option Nat :=
  let x := s.qp s.qpSel
  if off = 0x104 then some (match x.owner with
    | some (n, i) => n + 65536 + i * 2 ^ 24
    | none => 0)
  else if off = 0x108 then some x.state
  else if 0x300 ≤ off ∧ off < 0x340 ∧ off % 4 = 0 then
    some (bits (x.cnt.getD ((off - 0x300) / 8) 0) (if off % 8 = 0 then 0 else 32) 32)
  else none

/-- A computed word of the VFM page. -/
def State.vfmWord (s : State) (off : Nat) : Option Nat :=
  let n := s.rd pgVFM VFM.FN_SEL_FN
  let v := s.vf n
  let w := s.vf (s.rd pgVFM VFM.MBX_SEL_VF)
  if 0x204 ≤ off ∧ off < 0x224 ∧ off % 4 = 0 then some (w.request.getD ((off - 0x204) / 4) 0)
  else match off with
    | 0x104 => some v.rate
    | 0x108 => some v.mbxVec
    | 0x10C => some ((s.qpsOf n).length + b2n v.frozen * 2 ^ 16 + b2n v.logging * 2 ^ 17 + b2n v.activeB * 2 ^ 18 +
        b2n (s.fnS (fnOf n)).flr.isSome * 2 ^ 19)
    | 0x110 => some (v.logLo % 2 ^ 32)
    | 0x114 => some (v.logLo / 2 ^ 32)
    | 0x118 => some v.logPages
    | 0x120 => some (v.logA % 2 ^ 32)
    | 0x124 => some (v.logA / 2 ^ 32)
    | 0x128 => some (v.logB % 2 ^ 32)
    | 0x12C => some (v.logB / 2 ^ 32)
    | 0x130 => some v.swaps
    | _ => none

/-! ### Key-encryption keys -/

/-- The key-encryption key of a slot. -/
def State.kek (s : State) (k : Nat) : Option (List Byte) := (tget s.keks k).map wordsToBytes

/-- KEK_CFG as read. -/
def State.kekCfgWord (s : State) : Nat :=
  let k := s.rd pgIPS IPS.KEK_SEL_SLOT
  b2n (s.kek k).isSome + 2 * tgetD s.kekExport k 0

/-! ### Multicast words -/

/-- The words of GRP_DATA and LIST_DATA (R396). -/
def State.mcrWord (s : State) (off : Nat) : Option Nat :=
  match off with
  | 0x114 => some (tgetD s.groups (s.rd pgMCR MCR.GRP_IDX_GROUP) 0)
  | 0x11C => some (tgetD s.repList (s.rd pgMCR MCR.LIST_IDX_ENTRY) 0)
  | _ => none

/-! ### The trial -/

/-- TRIAL_LEFT: whole seconds left in the trial (R749, R759). -/
def State.trialLeft (s : State) : Nat :=
  match s.trialAt with
  | some t => (t + ticksMs 900000 - s.ticks) / 800000000
  | none => 0

/-! ### Frames of an earlier fence generation -/

/-- Frames of an earlier fence generation that have neither left the egress pipelines nor been dropped (R292): in the ingress
pipelines, at ORD, on the way to the QD, in its queues and residue, being sprayed, from the fabric, on the way back, and at the
services. -/
def State.oldFrames (s : State) : Nat :=
  let l := ((s.piped.filter fun x => !x.drop && x.frame.looked).map (·.frame)) ++
    (s.ords.flatMap fun c => (c.2.held.filter fun h => !h.2.drop).map fun h => h.2.frame) ++ s.toQd ++ s.fabFrames ++
    (s.queues.flatMap fun q => q.2.frames) ++
    (s.mcds.flatMap fun m => (m.2.reps.filter fun r => r.state = .residue).map (·.frame)) ++
    s.spray.map (·.frame) ++ s.toFd ++ s.ipsTransit.map (·.frame) ++ s.bfdIn ++ s.rspIn
  (l.filter fun f => f.fence < s.fences).length

/-! ### PAGE_STS (R52) -/

/-- Page p works in the mode and with the configuration it needs (R27, R29, R356, R357, R490, R524, R525). -/
def State.configured (s : State) (k : PageKind) (i : Nat) : Bool :=
  match k with
  | .msc | .lfu | .ipp | .prs | .cls | .pmm | .ord | .epp | .lkp | .lpm | .exm | .nhp | .age | .shd | .tdma | .rsu => !s.fabric
  | .brm | .mcr | .ofl | .ips | .svc => !s.fabric
  | .bpm => !s.on pgBPM BPM.CARVE_STS_BAD_SUM
  | .fel => s.fabric && decide (s.tier ≠ 0)
  | .hbc => !s.fabric && s.on (pgHBC i) HBC.STACK_STS_TRAINED && s.on (pgHBC 0) HBC.REGION_STS_APPLIED
  | _ => true

/-- PAGE_STS.READY: powered, out of reset (PD00 and PD21 from step 1, the others when start-up is done, R824) and configured for the
mode. -/
def State.ready (s : State) (p : Nat) : Bool :=
  match pageAt p with
  | some (k, i) =>
    s.live p && s.configured k i &&
      (s.on pgRST RST.START_STS_DONE || ((domainOf p = 0 || domainOf p = 21) && decide (1 ≤ s.rd pgRST RST.START_STS_STEP)))
  | none => false

/-- A block command of page p runs. -/
def State.cmdRuns (s : State) (p : Nat) : Bool :=
  match pageAt p with
  | some (.cls, _) => s.clsRun.isSome
  | some (.qsu, _) => s.flush.isSome
  | some (.rsu, i) => (tget s.rsuRuns i).isSome
  | some (.dma, _) => s.qpRun.isSome
  | some (.vfm, _) => s.vfmRun.isSome
  | some (.fwu, _) => s.fwRun.isSome || s.fwHeld.isSome
  | some (.sec, _) => s.secHeld.isSome
  | some (.cage, _) => s.mmQueue.any fun e => !e.2.isEmpty
  | some (.tdma, _) => (List.range 4).any fun r => decide (s.rd pgTDMA TDMA.RING_STS_OUTSTANDING r ≠ 0)
  | some (.lkp, _) => !s.commits.isEmpty
  | some (.nhp, _) => s.on pgNHP NHP.FENCE_STS_BUSY
  | some (.log, _) => s.logRun.isSome
  | some (.obs, _) => s.traceRun.isSome
  | some (.bon, _) => s.bonReport.isSome
  | _ => false

/-- PAGE_STS.BUSY: a soft reset or a block command in progress. -/
def State.busy (s : State) (p : Nat) : Bool := s.on p COMMON.PAGE_CTL_SOFT_RESET || s.cmdRuns p

/-- PAGE_STS. -/
def State.pageSts (s : State) (p : Nat) : Nat :=
  b2n (s.ready p) + 2 * b2n (s.busy p) + 4 * b2n (s.hasSev p 1 || s.hasSev p 2)

/-! ### The crown page (R65, R67, R68) -/

/-- INT_SUMn. -/
def State.intSum (s : State) (n : Nat) : Nat :=
  pages.foldl (fun a p => if p / 32 = n ∧ s.live p ∧ s.summary p then setBit a (p % 32) else a) 0

/-- SEV_SUM. -/
def State.sevSum (s : State) : Nat :=
  let has (v : Nat) : Bool := pages.any fun p => s.live p && s.hasSev p v
  b2n (has 0) + 2 * b2n (has 1) + 4 * b2n (has 2)

/-- A word of the directory, at offsets from 0x8000. -/
def State.directory (s : State) (off : Nat) : Nat :=
  let p := off / 8
  if off % 8 = 0 then pageId p
  else p + match pageAt p with
    | some (k, _) => 2 ^ 16 + b2n (s.domOn (domainOf p)) * 2 ^ 17 + b2n (onQd k) * 2 ^ 18 + domainOf p * 2 ^ 19
    | none => 0

/-! ### Service-processor words -/

/-- HEALTH_AGE of processor k, in milliseconds, and HB_AGE, in microseconds; both saturate. -/
def State.healthAge (s : State) (k : Nat) : Nat :=
  match (tgetD s.sps k {}).postAt with
  | some t => min 65535 ((s.ticks - t) / 800000)
  | none => 65535
def State.hbAge (s : State) : Nat := if s.hbSeen then min 65535 (usOf (s.ticks - s.hbAt)) else 0

/-- GPIO_IN: a driven pin reads as it is driven; the level of any other is the board's. -/
def State.gpioIn (s : State) : Nat :=
  let oe := s.rd pgSPA SPA.GPIO_OE_OE
  andBits (s.rd pgSPA SPA.GPIO_OUT_OUT) oe + andNot (Config.pinLevel s.ticks % 65536) oe

/-! ### Every computed word -/

/-- An offset at which instance i of a page has no register although the page's layout names one: it reads 0 and ignores writes
(R224, R352, R484, R526; the SPB page ends below 0x200, R730). -/
def State.absent (s : State) (k : PageKind) (i off : Nat) : Bool :=
  match k with
  | .lfu => (i % 2 = 1 && decide (0x180 ≤ off ∧ off < 0x1A0)) || (i % 4 ≠ 0 && decide (0x1C0 ≤ off ∧ off < 0x1E0))
  | .rsu => i ≠ 0 && decide (0x400 ≤ off ∧ off < 0x900)
  | .hbc => i ≠ 0 && (decide (0x200 ≤ off ∧ off < 0x400) || decide (0x8000 ≤ off))
  | .spb => decide (0x200 ≤ off ∧ off < 0x1000)
  | .fiu => decide (0x300 ≤ off ∧ off < 0x500) && (!s.fabric || decide (0xC ≤ off % 32 ∧ off % 32 < 0x18))
  | _ => false

/-- The word at an offset of page p, where the page computes one. -/
def State.special (s : State) (p off : Nat) : Option Nat :=
  match pageAt p with
  | none => none
  | some (k, i) =>
    if s.absent k i off then some 0 else
    match off with
    | 0 => some (pageId p)
    | 8 => some (pageCap k i)
    | 0x14 => some (s.pageSts p)
    | 0x2C => some (pageSeverity k)
    | _ =>
      match k with
      | .crwn =>
        if off = 0x148 then some s.sevSum
        else if 0x200 ≤ off ∧ off < 0x280 then some (s.intSum ((off - 0x200) / 4))
        else if 0x8000 ≤ off ∧ off < 0xA000 then some (s.directory (off - 0x8000))
        else none
      | .ntm =>
        if off = 0x108 then some s.nt.ns
        else if off = 0x10C then some (s.nt.sec % 2 ^ 32)
        else if off = 0x110 then some (s.nt.sec / 2 ^ 32)
        else if off = 0x114 then some s.nt.frac16
        else if off = 0x150 then some s.ppsCap.ns
        else if off = 0x154 then some (s.ppsCap.sec % 2 ^ 32)
        else if off = 0x158 then some s.ppsCap.frac16
        else if off = 0x15C then some (s.ppsCap.sec / 2 ^ 32)
        else none
      | .spa => if off = 0x108 then some (s.healthAge 0) else if off = 0x208 then some s.hbAge
        else if off = 0x2A8 then some s.gpioIn else none
      | .spb => if off = 0x108 then some (s.healthAge 1) else none
      | .fwu => if off = 0x10C then some s.trialLeft else none
      | .bon => if off = 0x100 then some (putBit (s.storedWord p off) 2 (s.on pgNTM NTM.NTM_STS_VALID)) else none
      | .ord => if off = 0x154 then
          let c := tgetD s.ords (s.rd pgORD ORD.CTX_SEL_CTX) {}
          some (c.next + 2 ^ 16 * c.held.length) else none
      | .nhp => if off = 0x10C then some (s.storedWord p off % 256 + 256 * min s.oldFrames (2 ^ 24 - 1)) else none
      | .adm => s.admView off
      | .mcr => s.mcrWord off
      | .fiu => s.fiuWord i off
      | .fab => s.fabWord off
      | .lin => s.linWord off
      | .fel => s.felWord off
      | .dma => s.dmaWord off
      | .vfm => s.vfmWord off
      | .ips => if off = 0x224 then some s.kekCfgWord else none
      | _ => none

/-- The word at an offset of a populated page: a word computed from the unit's own state where the page has one there
(State.special), else the word of its stored fields. -/
def State.pageWord (s : State) (p off : Nat) : Nat := (s.special p off).getD (s.storedWord p off)

end Sys2Proof.Machine
end

