-- ==== Sys2Proof/Machine/Ops.lean ====
section
/-! DEFINITION. Machine/Ops.lean: the operations every unit uses: counters and performance counters (R57 to R59, R763 to R767), cause bits and the interrupt tree (R53, R54, R67 to R72,
R543), the event log (R789 to R792), the common strobe (R769 to R776, R876), result sets (R60 to R64) and resets
(R864 to R867). -/

namespace Sys2Proof.Machine

/-! ### Performance counters -/

/-- PMC n of page p advances by k; a wrap sets OVF, and the result says whether it wrapped (R765). -/
def State.pmcAdd (s : State) (p n k : Nat) : State × Bool :=
  let v := s.rd p COMMON.PMC n + k
  let s1 := s.wr p COMMON.PMC v n
  if v < 2 ^ 48 then (s1, false) else (s1.wr p COMMON.PMC_SEL_OVF 1 n, true)

/-- PMC n and the PMCs behind it, for k occurrences of event ev: a PMC behind a chaining one counts only its wraps
(R764, R765). -/
def State.pmcFrom (s : State) (p ev k : Nat) : (left n : Nat) → (chained carry : Bool) → State
  | 0, _, _, _ => s
  | left + 1, n, chained, carry =>
    let en := s.on p COMMON.PMC_SEL_ENABLE n
    let amount := if chained then b2n carry else if s.rd p COMMON.PMC_SEL_EVENT n = ev then k else 0
    let r := if en ∧ 0 < amount then s.pmcAdd p n amount else (s, false)
    r.1.pmcFrom p ev k left (n + 1) (s.on p COMMON.PMC_SEL_CHAIN n) r.2

/-- k occurrences of event ev in page p (R764); nothing is counted while the page is frozen (R767). -/
def State.pmc (s : State) (p ev k : Nat) : State :=
  if s.frozen p ∨ ev = 0 then s else s.pmcFrom p ev k 8 0 false false

/-! ### Block counters -/

/-- Element i of a block counter of page p advances by k and wraps (R59), and event 0x200 + n counts it (R764). -/
def State.bump (s : State) (p : Nat) (f : Fld) (i n k : Nat) : State :=
  (s.wr p f (s.rd p f i + k) i).pmc p (0x200 + n) k

/-- Counter n of a page's counter table advances by one. -/
def State.cnt (s : State) (p : Nat) (f : Fld) (n : Nat) : State := s.bump p f n n 1

/-- A counter that no counter table numbers advances by k. -/
def State.inc (s : State) (p : Nat) (f : Fld) (k : Nat := 1) (i : Nat := 0) : State := s.wr p f (s.rd p f i + k) i

/-- A saturating counter advances by one. -/
def State.incSat (s : State) (p : Nat) (f : Fld) (i : Nat := 0) : State :=
  s.wr p f (satAdd (s.rd p f i) 1 (2 ^ f.w - 1)) i

/-- A running maximum takes a new value. -/
def State.peak (s : State) (p : Nat) (f : Fld) (v : Nat) (i : Nat := 0) : State :=
  if s.rd p f i < v then s.wr p f (if v < 2 ^ f.w then v else 2 ^ f.w - 1) i else s

/-! ### MSI-X (R543) -/

/-- Vector v of function fn is unmasked and may send its message. -/
def PciFn.delivers (f : PciFn) (v : Nat) : Bool := f.sends && f.msixEn && !f.msixMask && !(tgetD f.vecs v {}).mask

/-- An event for vector v of function fn: one message, or the pending bit while masked or bus mastering is off. -/
def State.msix (s : State) (fn v : Nat) : State :=
  let f := s.fnS fn
  if f.delivers v then (s.cnt pgPCE PCE.PCE_CNT 0).emit (.msix fn v)
  else s.setFn fn { f with vecs := tset f.vecs v { tgetD f.vecs v {} with pend := true } }

/-- A posted write of function fn to the host, where the function may send one (R538, R559). -/
def State.post (s : State) (fn addr : Nat) (data : List Byte) (ro : Bool := false) : State :=
  if (s.fnS fn).sends then (s.cnt pgPCE PCE.PCE_CNT 0).emit (.hostWrite fn addr data ro) else s

/-! ### The interrupt tree -/

/-- The VEC_MAP byte of page p (R68). -/
def State.vecByte (s : State) (p : Nat) : Nat := bits (s.rd pgCRWN CRWN.VEC_MAP_MAP (p / 4)) (8 * (p % 4)) 8

/-- Page p routes to PF1 (HOST_ROUTE) and to which vector. -/
def State.hostRoute (s : State) (p : Nat) : Bool := bit (s.vecByte p) 7
def State.vecOf (s : State) (p : Nat) : Nat := s.vecByte p % 64

/-- The role codes of R716 that the interrupt tree needs: the processor whose role is ACTIVE, where there is one. -/
def State.spActiveNow (s : State) : Option Nat :=
  if s.rd pgSPA SPA.IL_STS_ROLE_A = 4 then some 0 else if s.rd pgSPA SPA.IL_STS_ROLE_B = 4 then some 1 else none

/-- Page p routes to the service processors (SP_ROUTE). -/
def State.spRoute (s : State) (p : Nat) : Bool := bit (s.vecByte p) 6

/-- Some page asks for the active service processor (R72). -/
def State.spAsks (s : State) : Bool :=
  s.on pgCRWN CRWN.INT_GCTL_SP_EN && pages.any fun p => s.live p && s.summary p && s.spRoute p

/-- The interrupt line of processor k (R72): only the active one's is raised; in a switchover gap the summaries stay set. -/
def State.spLine (s : State) (k : Nat) : Bool := decide (s.spActiveNow = some k) && s.spAsks

/-- The line of the active processor rises. -/
def State.spSignal (s : State) : State :=
  match s.spActiveNow with
  | some k => s.emit (.spInt k)
  | none => s

/-- The summary of page p rises from s0 to s. -/
def State.sumRise (s0 s : State) (p : Nat) : Bool := !s0.summary p && s.summary p

/-- The rise of a page's summary towards the host: the routed vector, and FATAL_VEC for an unmasked fatal cause (R69, R71). -/
def State.hostEdges (s0 s : State) (p : Nat) : State :=
  if s.on pgCRWN CRWN.INT_GCTL_HOST_EN then
    let s1 := if ¬ s0.summary p ∧ s.summary p ∧ s.hostRoute p then s.msix 1 (s.vecOf p) else s
    if ¬ s0.hasSev p 2 ∧ s.hasSev p 2 then s1.msix 1 (s.rd pgCRWN CRWN.INT_GCTL_FATAL_VEC) else s1
  else s

/-- What follows a change of the causes or masks of page p from s0 to s: the summary's rise signals the routed vector,
and the rise of an unmasked fatal cause signals FATAL_VEC, while HOST_EN is 1 (R69, R71); and the line of the active service processor
rises with the first summary routed to it (R72). -/
def State.edges (s0 s : State) (p : Nat) : State :=
  let s1 := State.hostEdges s0 s p
  if s.on pgCRWN CRWN.INT_GCTL_SP_EN ∧ State.sumRise s0 s p ∧ s.spRoute p ∧ ¬ s0.spAsks then s1.spSignal else s1

/-- Two causes of a page occur in one clock (R54): network time, which moves at every timing clock, still reads what FIRST_ERR_NT
holds (DEDUCED, notes/assumptions/4.md). -/
def State.sameClock (s : State) (p : Nat) : Bool :=
  decide (s.rd p COMMON.FIRST_ERR_NT_NS = s.nt.ns) && decide (s.rd p COMMON.FIRST_ERR_NT_SEC = s.nt.sec % 2 ^ 32)

/-- FIRST_ERR takes the cause where it is armed, or holds a higher cause of the same clock, and the cause is uncorrected-contained or
fatal (R54). The block's event code is a free value: no rule gives the codes. -/
def State.firstErr (s : State) (p c : Nat) : State :=
  if severityOf p c ≠ 0 ∧ (¬ s.on p COMMON.FIRST_ERR_VALID ∨ (c < s.rd p COMMON.FIRST_ERR_CAUSE_NUM ∧ s.sameClock p)) then
    ((((s.wr p COMMON.FIRST_ERR_CAUSE_NUM c).wrFree p COMMON.FIRST_ERR_EVENT).wr p COMMON.FIRST_ERR_VALID 1).wr p
      COMMON.FIRST_ERR_NT_NS s.nt.ns).wr p COMMON.FIRST_ERR_NT_SEC s.nt.sec
  else s

/-- A cause bit is set with its performance event, first-error capture and interrupts (R53, R54, R69, R71, R764). -/
def State.cause (s : State) (p c : Nat) : State :=
  let s1 := (s.wr p COMMON.INT_CAUSE_CAUSE (setBit (s.rd p COMMON.INT_CAUSE_CAUSE) c)).pmc p (0x100 + c) 1
  s.edges (s1.firstErr p c) p

/-! ### The event log -/

/-- An entry is written at the head of the ring (R790), or counted as lost while PD01 is off (R789). `src` is 0 hardware,
1 SP-A, 2 SP-B, 3 PF1 software. -/
def State.logAppend (s : State) (page inst src event sev arg0 arg1 : Nat) : State :=
  if s.domOn 1 then
    let seq := s.rd pgLOG LOG.HEAD_SEQ_SEQ
    let e : LogEntry :=
      { ns := s.nt.ns, sec := s.nt.sec % 2 ^ 32, secHi := s.nt.sec / 2 ^ 32, page := page, inst := inst, source := src,
        event := event, sev := sev, ntValid := s.on pgNTM NTM.NTM_STS_VALID, arg0 := arg0, arg1 := arg1, seq := seq }
    let n := s.rd pgLOG LOG.LOG_STS_COUNT
    let s1 := { s with log := tset s.log (seq % 8192) e }
    let s2 := ((s1.wr pgLOG LOG.HEAD_SEQ_SEQ (seq + 1)).wr pgLOG LOG.LOG_STS_COUNT (satAdd n 1 8192)).cnt pgLOG LOG.LOG_CNT 0
    let s3 := s2.cnt pgLOG LOG.LOG_CNT (if src = 0 then 1 else if src = 3 then 3 else 2)
    if sev = 2 then s3.cause pgLOG 0 else s3
  else (s.inc pgLOG LOG.LOST_COUNT).cause pgLOG 1

/-- The hardware entry for a cause that rose (R791): suppressed and counted within RATE_MS of the last one of the same
page and cause. One millisecond is 800,000 timing clocks. -/
def State.logHw (s : State) (p c : Nat) (first : Bool) : State :=
  let sev := severityOf p c
  if sev = 0 ∧ ¬ s.on pgLOG LOG.LOG_CTL_CORR_EN then s else
  match pageAt p with
  | none => s
  | some (k, i) =>
    let rate := s.rd pgLOG LOG.LOG_CTL_RATE_MS
    let near := match tget s.logLast (p * 16 + c) with
      | some t => decide (s.ticks - t < rate * 800000)
      | none => false
    if near then s.inc pgLOG LOG.SUPPRESSED_COUNT
    else
      let ev := 0x100 * c + if first then s.rd p COMMON.FIRST_ERR_EVENT else 0
      let s1 := { s with logLast := tset s.logLast (p * 16 + c) s.ticks }
      s1.logAppend (pageCode k) i 0 ev sev (s.rd p COMMON.INT_CAUSE_CAUSE) 0

/-- A cause and its log entry: everything but what a fatal cause does beyond (R53, R791). -/
def State.raise1 (s : State) (p c : Nat) : State :=
  if s.live p then
    let s1 := s.cause p c
    if bit (s.rd p COMMON.INT_CAUSE_CAUSE) c then s1
    else s1.logHw p c (severityOf p c ≠ 0 && !s.on p COMMON.FIRST_ERR_VALID)
  else s

/-! ### The common strobe -/

/-- The offsets whose words the strobe copies (R55). -/
def snapOffsets : List Nat := (List.range 992).map fun k => 0x80 + 4 * k

/-- The shadow of page p takes the page's words (R55, R772), with the number and time of the strobe. -/
def State.latch (s : State) (p seq : Nat) (t : NetTime) : State :=
  let words := (snapOffsets.map fun o => (o, s.pageWord p o)).filter fun e => e.2 ≠ 0
  let s1 := { s with shadow := tset s.shadow p words }
  (((s1.wr p COMMON.SNAP_SEQ_SEQ seq).wr p COMMON.SNAP_SEQ_VALID 1).wr p COMMON.SNAP_NT_LO_NS t.ns).wr p
    COMMON.SNAP_NT_HI_SEC t.sec

/-- Page p meets the strobe: it latches, counts a strobe missed under HOLD, or keeps its shadow (R56, R772, R774). -/
def State.latchIf (s : State) (p seq : Nat) (t : NetTime) : State :=
  if ¬ s.live p ∨ ¬ s.on p COMMON.PAGE_CTL_SNAP_EN then s
  else if s.on p COMMON.SNAP_CTL_HOLD then s.pmc p 0x3FF 1
  else s.latch p seq t

/-- The common strobe fires (R771, R772). -/
def State.fireStrobe (s : State) : State :=
  let seq := (s.rd pgCRWN CRWN.STROBE_SEQ_SEQ + 1) % 65536
  let s1 := { (s.wr pgCRWN CRWN.STROBE_SEQ_SEQ seq).cnt pgOBS OBS.OBS_CNT 0 with
    strobeAt := some s.ticks, shadowDue := if s.on pgOBS OBS.FLUSH_CTL_EN then s.shadowDue ++ [seq] else s.shadowDue }
  let s2 := if s.on pgCRWN CRWN.STROBE_CTL_OUT_EN then s1.emit .snapOut else s1
  pages.foldl (fun st p => st.latchIf p seq s.nt) s2

/-- A request for the common strobe: it fires, or merges into a firing at most 100 ns (80 timing clocks) earlier
(R769, R770). -/
def State.strobe (s : State) : State :=
  match s.strobeAt with
  | some t => if s.ticks - t ≤ 80 then (s.cnt pgOBS OBS.OBS_CNT 1).raise1 pgOBS 0 else s.fireStrobe
  | none => s.fireStrobe

/-- A cause of page p occurs (R53), with all that it sets off: a fatal cause freezes the native counters first and then
requests the strobe, as OBS_CTL asks (R769, R876). -/
def State.raise (s : State) (p c : Nat) : State :=
  if s.live p ∧ severityOf p c = 2 then
    let s1 := s.raise1 p c
    let s2 := if s.on pgOBS OBS.OBS_CTL_FATAL_FREEZE then s1.wr pgCRWN CRWN.GFREEZE_FREEZE_ALL 1 else s1
    if s.on pgOBS OBS.OBS_CTL_FATAL_SNAP then s2.strobe else s2
  else s.raise1 p c

/-- A cause set where a condition holds. -/
def State.raiseIf (s : State) (b : Bool) (p c : Nat) : State := if b then s.raise p c else s

/-! ### Result sets (R60 to R64, R868) -/

def DONE : Nat := 1
def ABORTED : Nat := 2
def FULL : Nat := 3
def ERROR : Nat := 4

/-- The command is accepted: VALID reads 0 until the result is complete (R62). -/
def State.resStart (s : State) (p : Nat) (r : ResSet) (i : Nat := 0) : State := s.wr p r.valid 0 i

/-- Data words k, k + 1, … of a result set. -/
def State.resWords (s : State) (p : Nat) (r : ResSet) (i : Nat) : List Nat → Nat → State
  | [], _ => s
  | w :: ws, k => if k ≤ 15 then (s.wr p (r.word k) w i).resWords p r i ws (k + 1) else s

/-- A result set is written whole: tag, status, ABORT_LATE and data words from word 1; words not given read 0. -/
def State.result (s : State) (p : Nat) (r : ResSet) (tag status : Nat) (words : List Nat := []) (i : Nat := 0)
    (late : Bool := false) : State :=
  let s1 := s.resWords p r i (words ++ List.replicate (15 - words.length) 0) 1
  (((s1.wr p r.status status i).wr p r.tag tag i).wr p r.late (b2n late) i).wr p r.valid 1 i

/-- An abort that comes after completion: the result keeps DONE and shows ABORT_LATE (R64). -/
def State.resLate (s : State) (p : Nat) (r : ResSet) (i : Nat := 0) : State :=
  if s.on p r.valid i ∧ s.rd p r.status i = DONE then s.wr p r.late 1 i else s

/-! ### Resets of a page -/

/-- The key of a stored field lies in page p. -/
def inPage (p : Nat) (k : Nat) : Bool := decide (k / 2097152 = p)

/-- A reset that clears page p: every register back to its reset value, the shadow gone (R867). -/
def State.clearPage (s : State) (p : Nat) : State :=
  { s with regs := s.regs.filter fun e => !inPage p e.1, shadow := tdel s.shadow p,
           hold := s.hold.filter fun e => e.1 % 4096 ≠ p }

/-- What a soft reset clears of a field: counters with the OVF bits, RC fields, W1C fields of the block registers,
the VALID bit of a capture register and of a result set (R864). -/
def softClears (f : Fld) : Bool :=
  match f.acc with
  | .cnt => true
  | .ctr => true
  | .rc => decide (0x80 ≤ f.off)
  | .w1c => decide (0x80 ≤ f.off)
  | .res => f.lo = 31 && f.w = 1
  | _ => false

/-- The fields among a list cleared in page p. -/
def State.clearFields (s : State) (p : Nat) (keep : Fld → Bool) : List Fld → State
  | [] => s
  | f :: fs =>
    if softClears f ∧ ¬ keep f then
      ({ s with regs := (List.range f.n).foldl (fun r i => tdel r (f.key p i)) s.regs }).clearFields p keep fs
    else s.clearFields p keep fs

/-- The common effect of SOFT_RESET on a page (R864): what it clears, with SOFT_RESET and BUSY set. `keep` names the
fields a page keeps beyond the rule (R866). -/
def State.softReset (s : State) (p : Nat) (keep : Fld → Bool) : State :=
  match pageAt p with
  | none => s
  | some (k, _) =>
    let s1 := s.clearFields p keep (pageFields k)
    (s1.wr p COMMON.PAGE_CTL_SOFT_RESET 1).wr p COMMON.PAGE_STS_BUSY 1

/-- A field list written: value and field pairs of one page. -/
def State.wrAll (s : State) (p : Nat) (i : Nat) : List (Fld × Nat) → State
  | [] => s
  | (f, v) :: t => (s.wr p f v i).wrAll p i t

/-- A word split over fields of one page by their bits. -/
def State.wrWord (s : State) (p : Nat) (i w : Nat) : List Fld → State
  | [] => s
  | f :: t => (s.wr p f (bits w f.lo f.w) i).wrWord p i w t

/-! ### Tag slots (R97, R549) -/

/-- A tag slot is free for a PF1 requester. -/
def State.tagFree (s : State) : Bool := decide (s.tags.length < 4096)

/-- A requester finds no free slot and waits; what else holds it back counts nothing. -/
def State.tagWait (s : State) : State := if s.tagFree then s else (s.cnt pgPCE PCE.PCE_CNT 6).raise pgPCE 8

/-! ### Reads of host memory (R549 to R551) -/

/-- The control function of fn: a VF takes its request limits from PF0. -/
def State.ctlFn (s : State) (fn : Nat) : PciFn := s.fnS (if 2 ≤ fn then 0 else fn)

/-- Max_Read_Request_Size in bytes (R551). -/
def State.mrrs (s : State) (fn : Nat) : Nat := 128 * 2 ^ min 5 (bits ((s.ctlFn fn).dw 0x78) 12 3)

/-- A span of host memory cut into reads: at most `limit` bytes each, none across a 4 KiB boundary (R551). -/
def chunks (limit : Nat) : (left addr len : Nat) → List (Nat × Nat)
  | 0, _, _ => []
  | left + 1, addr, len =>
    if len = 0 ∨ limit = 0 then []
    else
      let n := min len (min limit (4096 - addr % 4096))
      (addr, n) :: chunks limit left (addr + n) (len - n)

/-- Function fn reads a span of host memory whose data a command brings: its requests go out, where the function may send. -/
def State.fetch (s : State) (fn addr len : Nat) : State :=
  if (s.fnS fn).sends then
    (chunks (s.mrrs fn) len addr len).foldl (fun (t : State) e => (t.cnt pgPCE PCE.PCE_CNT 1).emit (.hostRead fn e.1 e.2)) s
  else s

/-! ### An access on its way to a page (R10, R45, R47) -/

/-- Page p lies on the queueing die (R50). -/
def qdPage (p : Nat) : Bool :=
  match pageAt p with
  | some (k, _) => onQd k
  | none => false

/-- A page that no table populates is accessed (R45). -/
def State.unmapped (s : State) : State := (s.inc pgCRWN CRWN.UNMAP_CNT_COUNT).raise pgCRWN 0

/-- A write of one register on its way to its page: `act` performs it there. One for the queueing die waits while the Band retrains,
and ends without effect while the Band has failed (R10, R47). -/
def State.routeWrite (s : State) (who p off v : Nat) (act : State → State) : State :=
  if (pageAt p).isNone then s.unmapped
  else if qdPage p ∧ s.on pgBAND BAND.BAND_STS_FAILED then s.raise pgCRWN 3
  else if qdPage p ∧ s.on pgBAND BAND.BAND_STS_RETRAINING then
    { s with bandWait := s.bandWait ++ [{ who := who, page := p, off := off, write := some v }] }
  else act s

/-- A command that is the write of v to a register of page p, by PF1: `act` is what the write does there. -/
def State.regCmd (s : State) (p off v : Nat) (act : State → State) : State :=
  s.routeWrite 0 p off v fun (t : State) => t.gate p act

end Sys2Proof.Machine
end

