-- ==== Sys2Proof/Machine/Trace.lean ====
section
/-! DEFINITION. Machine/Trace.lean: packet tracing (R783 to R788). -/

namespace Sys2Proof.Machine

/-- The device's own number (R4). -/
def State.devNum (s : State) : Nat := s.rd pgCRWN CRWN.DEV_MODE_DEVICE_NUM

/-- A frame is tagged with probability 2^-LOG2; the random source is a free value (R783). -/
def State.traceTag (s : State) (f : Frame) : State × Frame :=
  let d := s.draw (s.rd pgOBS OBS.TRACE_CTL_LOG2)
  if s.live pgOBS ∧ s.on pgOBS OBS.TRACE_CTL_EN then
    if d.1 = 0 then
      ({ d.2.cnt pgOBS OBS.OBS_CNT 2 with traceTags := (s.traceTags + 1) % 65536 },
       { f with traced := true, traceId := s.traceTags, srcDev := s.devNum })
    else (d.2, f)
  else (s, f)

/-- A received frame of a port whose trace bit is set (R783). -/
def State.traceRx (s : State) (f : Frame) : State × Frame :=
  if bit (s.rd pgOBS OBS.TRACE_PORT_PORTS (f.port / 32)) (f.port % 32) then s.traceTag f else (s, f)

/-- A record reaches the trace buffer (R786 to R788). -/
def State.traceWrite (s : State) (r : TraceRec) : State :=
  if s.on pgOBS OBS.TRACE_STS_STOPPED then s.cnt pgOBS OBS.OBS_CNT 4
  else
    let n := satAdd (s.rd pgOBS OBS.TRACE_STS_COUNT) 1 4096
    let s1 := { s with trace := tset s.trace (s.traceAt % 4096) { r with seq := s.rd pgOBS OBS.TRACE_SEQ_SEQ }
                       traceAt := (s.traceAt + 1) % 4096 }
    let s2 := (s1.wrAll pgOBS 0 [(OBS.TRACE_STS_COUNT, n), (OBS.TRACE_SEQ_SEQ, s.rd pgOBS OBS.TRACE_SEQ_SEQ + 1)]).cnt pgOBS
      OBS.OBS_CNT 3
    if n = 4096 ∧ ¬ s.on pgOBS OBS.TRACE_CTL_WRAP then (s2.wr pgOBS OBS.TRACE_STS_STOPPED 1).raise pgOBS 1 else s2

/-- A trace point handles a frame at a time (R785). -/
def State.tracePointAt (s : State) (f : Frame) (point inst a0 a1 : Nat) (t : NetTime) : State :=
  if ¬ f.traced ∨ ¬ s.live pgOBS then s
  else if 7 ≤ point ∧ f.srcDev ≠ s.devNum ∧ ¬ s.on pgOBS OBS.TRACE_CTL_ACCEPT_REMOTE then s
  else s.traceWrite { id := f.traceId, point := point, inst := inst, ns := t.ns, sec := t.sec % 2 ^ 32, secHi := t.sec / 2 ^ 32
                      frac := t.frac16, srcDev := f.srcDev, arg0 := a0, arg1 := a1, seq := 0 }

/-- A trace point handles a frame now. -/
def State.tracePoint (s : State) (f : Frame) (point inst a0 a1 : Nat) : State := s.tracePointAt f point inst a0 a1 s.nt

end Sys2Proof.Machine
end

