-- ==== Sys2Proof/Machine/Order.lean ====
section
/-! DEFINITION. Machine/Order.lean: ordering contexts (R240). -/

namespace Sys2Proof.Machine

/-- Ordering context c. -/
def State.ctx (s : State) (c : Nat) : OrdCtx := tgetD s.ords c {}

/-- Ordering context c replaced. -/
def State.setCtx (s : State) (c : Nat) (x : OrdCtx) : State := { s with ords := tset s.ords c x }

/-- A context restarts at sequence 0 when its port or queue is enabled (R240). -/
def State.ctxRestart (s : State) (c : Nat) : State :=
  s.setCtx c { s.ctx c with deal := 0, next := 0 }

end Sys2Proof.Machine
end

