-- ==== Sys2Proof/Machine/Line.lean ====
section
/-! DEFINITION. Machine/Line.lean: line lanes, port formation, MAC slots, pause, preemption, low-power idle, timestamps
and MACsec (spec 04_line_ports.md, R100 to R154, R874). A MAC slot or lane is named by its device-wide number g, 0 to
255: page g / 16, instance g mod 16. -/

namespace Sys2Proof.Machine

/-! ### Lanes -/

/-- The LNP page of lane or slot g. -/
def lnp (g : Nat) : Nat := pgLNP (g / 16)
/-- The MSC page of slot g. -/
def msc (g : Nat) : Nat := pgMSC (g / 16)

/-- MAC slot g. -/
def State.mac (s : State) (g : Nat) : MacSlot := tgetD s.macs g {}
/-- MAC slot g replaced. -/
def State.setMac (s : State) (g : Nat) (m : MacSlot) : State := { s with macs := tset s.macs g m }

/-- Lanes of a WIDTH code (R150). -/
def lanesOf (code : Nat) : Nat := 2 ^ code

/-- A lane is enabled when its RATE is not 0 and TX_EN or RX_EN is 1 (R101). -/
def State.laneOn (s : State) (g : Nat) : Bool :=
  decide (s.rd (lnp g) LNP.LANE_CTL_RATE (g % 16) ≠ 0) &&
    (s.on (lnp g) LNP.LANE_CTL_TX_EN (g % 16) || s.on (lnp g) LNP.LANE_CTL_RX_EN (g % 16))

/-- Lane g belongs to the active port of slot t (R106). -/
def State.laneOf (s : State) (g t : Nat) : Bool :=
  decide ((s.mac t).mode ≠ 0 ∧ t ≤ g ∧ g < t + lanesOf (s.mac t).width)

/-- The sixteen slots of the page of lane g. -/
def slotsOf (g : Nat) : List Nat := (List.range 16).map fun k => 16 * (g / 16) + k

/-- Lane g belongs to an active port. -/
def State.laneActive (s : State) (g : Nat) : Bool := (slotsOf g).any fun t => s.laneOf g t

/-- A LANE_CTL write of v to lane g is refused (R100, R102): also an Ethernet rate in fabric mode, where the lanes run at the Drafa
rate (DEDUCED from R26; notes/assumptions/12.md). -/
def State.laneRefused (s : State) (g v : Nat) : Bool :=
  let rate := bits v 0 3
  let on := decide (rate ≠ 0) && (bit v 3 || bit v 4)
  let quad := (List.range 4).map fun k => 4 * (g / 4) + k
  decide (6 ≤ rate) || (decide (rate = 5) && !s.fabric) || (s.fabric && decide (1 ≤ rate ∧ rate ≤ 4)) ||
    (on && quad.any fun h => decide (h ≠ g) && s.laneOn h && decide (s.rd (lnp h) LNP.LANE_CTL_RATE (h % 16) ≠ rate)) ||
    (s.laneActive g && decide (s.rd (lnp g) LNP.LANE_CTL_RATE (g % 16) ≠ rate))

/-- SQUELCHED follows the software and CAGE squelch of the lane (R150, R103). -/
def State.squelchView (s : State) (g : Nat) : State :=
  s.put (lnp g) LNP.LANE_STS_SQUELCHED
    (s.on (lnp g) LNP.LANE_CTL_SQUELCH (g % 16) || s.on (lnp g) LNP.LANE_STS_CAGE_SQ (g % 16)) (g % 16)

/-- CAGE requests or releases the squelch of lane g (R103); applying it sets cause bit 5 (R151). -/
def State.cageSquelch (s : State) (g : Nat) (b : Bool) : State :=
  if s.live (lnp g) then
    let was := s.on (lnp g) LNP.LANE_STS_CAGE_SQ (g % 16)
    let s1 := (s.put (lnp g) LNP.LANE_STS_CAGE_SQ b (g % 16)).squelchView g
    if b ∧ ¬ was then s1.raise (lnp g) 5 else s1
  else s

/-- Receive adaptation of lane g restarts: ADAPT_DONE falls until it completes (R150). -/
def State.laneAdapt (s : State) (g : Nat) : State := s.wr (lnp g) LNP.LANE_STS_ADAPT_DONE 0 (g % 16)

/-- The receiver of lane g is off: it sees no signal, has no clock and no adaptation (R150). -/
def State.laneDark (s : State) (g : Nat) : State :=
  s.wrAll (lnp g) (g % 16) [(LNP.LANE_STS_SIG_DET, 0), (LNP.LANE_STS_CDR_LOCK, 0), (LNP.LANE_STS_ADAPT_DONE, 0), (LNP.PRBS_CTL_CHK_LOCK, 0)]

/-- The transmitter of lane g puts out what its MAC or framer sends: it is on, not squelched (R103), and neither the pattern
generator nor a far-end loopback takes its place (R150). -/
def State.laneSends (s : State) (g : Nat) : Bool :=
  decide (s.rd (lnp g) LNP.LANE_CTL_RATE (g % 16) ≠ 0) && s.on (lnp g) LNP.LANE_CTL_TX_EN (g % 16) &&
    !s.on (lnp g) LNP.LANE_STS_SQUELCHED (g % 16) && !s.on (lnp g) LNP.PRBS_CTL_GEN_EN (g % 16) &&
    decide (s.rd (lnp g) LNP.LANE_CTL_LOOPBACK (g % 16) ≠ 2)

/-- Lane g receives what it sends itself: near-end PMA loopback (R150). -/
def State.laneLooped (s : State) (g : Nat) : Bool := decide (s.rd (lnp g) LNP.LANE_CTL_LOOPBACK (g % 16) = 1)

def laneCtlFields : List Fld :=
  [LNP.LANE_CTL_RATE, LNP.LANE_CTL_TX_EN, LNP.LANE_CTL_RX_EN, LNP.LANE_CTL_TX_INV, LNP.LANE_CTL_RX_INV,
   LNP.LANE_CTL_SQUELCH, LNP.LANE_CTL_LOOPBACK, LNP.LANE_CTL_LT_EN]

/-- A write of LANE_CTL of lane g (R100 to R102, R113): stored, or ignored as a whole with cause bit 4. A rise of LT_EN
starts link training anew, so its results clear. -/
def State.laneCtlStore (s : State) (g v : Nat) : State :=
  if s.laneRefused g v then s.raise (lnp g) 4
  else
    let rise := bit v 10 && !s.on (lnp g) LNP.LANE_CTL_LT_EN (g % 16)
    let s1 := (s.wrWord (lnp g) (g % 16) v laneCtlFields).squelchView g
    let s2 := if rise then (s1.wr (lnp g) LNP.LANE_STS_LT_DONE 0 (g % 16)).wr (lnp g) LNP.LANE_STS_LT_FAIL 0 (g % 16) else s1
    let s3 := if bits v 0 3 = 0 ∨ ¬ bit v 4 then s2.laneDark g else s2
    if bit v 11 then s3.laneAdapt g else s3

/-- LANE_ADAPT (R150). -/
def execLaneAdapt (lane : Nat) (s : State) : Host.Outcome State Fault Refusal :=
  .next (if lane < 256 then s.gate (lnp lane) (·.laneAdapt lane) else s)

/-- The taps of a TX_FIR write sum to more than 63 (R150). -/
def firTooBig (v : Nat) : Bool := decide (63 < bits v 0 5 + bits v 8 5 + bits v 16 6 + bits v 24 5)

/-- TX_FIR_WRITE (R150): the taps, or cause bit 4. -/
def State.txFirWrite (s : State) (g v : Nat) : State :=
  if firTooBig v then s.raise (lnp g) 4
  else s.wrWord (lnp g) (g % 16) v [LNP.TX_FIR_PRE2, LNP.TX_FIR_PRE1, LNP.TX_FIR_MAIN, LNP.TX_FIR_POST1]

/-- TX_FIR_WRITE (R150). -/
def execTxFirWrite (lane v : Nat) (s : State) : Host.Outcome State Fault Refusal :=
  .next (if lane < 256 then s.gate (lnp lane) (·.txFirWrite lane v) else s)

/-- PRBS_CHECKER_LOCK (R150): the checker of a lane with CHK_EN gains or loses lock, having counted bit errors. -/
def execPrbsCheckerLock (lane : Nat) (locked : Bool) (errs : Nat) (s : State) : Host.Outcome State Fault Refusal :=
  .next (if lane < 256 ∧ s.live (lnp lane) ∧ s.on (lnp lane) LNP.PRBS_CTL_CHK_EN (lane % 16) then
    (s.put (lnp lane) LNP.PRBS_CTL_CHK_LOCK locked (lane % 16)).inc (lnp lane) LNP.PRBS_ERR errs (lane % 16)
  else s)

/-- LINK_TRAINING_DONE (R113, R151): training of a lane with LT_EN succeeds, or fails with cause bit 6. -/
def execLinkTrainingDone (lane : Nat) (ok : Bool) (s : State) : Host.Outcome State Fault Refusal :=
  .next (if lane < 256 ∧ s.live (lnp lane) ∧ s.on (lnp lane) LNP.LANE_CTL_LT_EN (lane % 16) then
    let s1 := (s.put (lnp lane) LNP.LANE_STS_LT_DONE ok (lane % 16)).put (lnp lane) LNP.LANE_STS_LT_FAIL (!ok) (lane % 16)
    s1.raiseIf (!ok) (lnp lane) 6
  else s)

/-! ### Ports -/

/-- The lane rate code that the table of R104 gives for a speed, width code and FEC code; none where no row has them. -/
def portRate (speed width fec : Nat) : Option Nat :=
  match speed, width, fec with
  | 7, 3, 3 => some 4
  | 6, 3, 3 => some 3
  | 6, 2, 3 => some 4
  | 5, 3, 3 => some 2
  | 5, 2, 3 => some 3
  | 5, 1, 3 => some 4
  | 4, 2, 3 => some 2
  | 4, 1, 3 => some 3
  | 4, 0, 3 => some 4
  | 3, 1, 3 => some 2
  | 3, 0, 3 => some 3
  | 3, 2, 2 => some 1
  | 2, 0, 3 => some 2
  | 2, 1, 2 => some 1
  | 1, 0, 0 => some 1
  | 1, 0, 1 => some 1
  | 1, 0, 2 => some 1
  | _, _, _ => none

/-- What a FEC code corrects (R109): symbol errors of a codeword, or bits of a burst in a block for BASE-R; none without FEC. -/
def fecLimit (fec : Nat) : Option Nat :=
  match fec with
  | 1 => some 11
  | 2 => some 7
  | 3 => some 15
  | _ => none

/-- A codeword with that many errors is uncorrectable (R109, R110). -/
def fecFails (fec errs : Nat) : Bool :=
  match fecLimit fec with
  | some n => decide (n < errs)
  | none => false

/-- A port's rate in Mb/s by its SPEED code (R104). -/
def speedMbps (speed : Nat) : Nat :=
  match speed with
  | 1 => 25000
  | 2 => 50000
  | 3 => 100000
  | 4 => 200000
  | 5 => 400000
  | 6 => 800000
  | 7 => 1600000
  | _ => 0

/-- The rate of MAC slot g in Mb/s: of its Ethernet port, or of the FlexE or ODUflex client bound to it (R104, R182). -/
def State.slotMbps (s : State) (g : Nat) : Nat :=
  let m := s.mac g
  if m.mode = 1 then speedMbps m.speed
  else
    match m.client with
    | some (i, e) => 5000 * s.rd (pgLFU i) LFU.CLIENT_RATE_5G e
    | none => 0

/-- APPLY of the values v at slot g is accepted (R104, R106). -/
def State.portAccepted (s : State) (g v : Nat) : Bool :=
  let w := lanesOf (bits v 2 2)
  match portRate (bits v 4 4) (bits v 2 2) (bits v 8 3) with
  | none => false
  | some r =>
    decide (g % w = 0) && (List.range w).all fun k =>
      decide (s.rd (lnp g) LNP.LANE_CTL_RATE ((g + k) % 16) = r) && s.laneOn (g + k) &&
        (slotsOf g).all fun t => decide (t = g) || !s.laneOf (g + k) t

/-- LPI_EN may be 1 on the slot's port (R132). -/
def MacSlot.lpiOk (m : MacSlot) : Bool := decide (m.mode = 1 ∧ 1 ≤ m.speed ∧ m.speed ≤ 3)

def portCfgFields : List Fld := [LNP.PORT_CFG_MODE, LNP.PORT_CFG_WIDTH, LNP.PORT_CFG_SPEED, LNP.PORT_CFG_FEC]

/-- PORT_CFG shows a slot's configuration in force (R106). -/
def State.showPort (s : State) (g : Nat) : State :=
  let m := s.mac g
  s.wrAll (lnp g) (g % 16) [(LNP.PORT_CFG_MODE, m.mode), (LNP.PORT_CFG_WIDTH, m.width), (LNP.PORT_CFG_SPEED, m.speed),
    (LNP.PORT_CFG_FEC, m.fec)]

/-- The status bits of a slot whose port is gone; a link that was up goes down (R151). -/
def State.portDown (s : State) (g : Nat) : State :=
  (s.raiseIf (s.on (lnp g) LNP.PORT_STS_LINK_UP (g % 16)) (lnp g) 1).wrAll (lnp g) (g % 16) [(LNP.PORT_STS_PCS_LOCK, 0), (LNP.PORT_STS_ALIGN, 0), (LNP.PORT_STS_FEC_LOCK, 0),
    (LNP.PORT_STS_HI_SER, 0), (LNP.PORT_STS_LINK_UP, 0), (LNP.PORT_STS_DEGRADE, 0), (LNP.PORT_STS_RF, 0),
    (LNP.PORT_STS_LF, 0)]

/-- The MAC link of slot g follows the port (R152). The MSC page lies in PD19. -/
def State.macLink (s : State) (g : Nat) (up : Bool) : State := s.gate (msc g) (·.put (msc g) MSC.MAC_STS_LINK up (g % 16))

/-- LPI_EN reads 0 on a slot whose port is not of 25, 50 or 100 Gb/s (R132). -/
def State.lpiHold (s : State) (g : Nat) : State :=
  if (s.mac g).lpiOk then s else s.gate (msc g) (·.wr (msc g) MSC.MAC_CTL_LPI_EN 0 (g % 16))

/-- The Ethernet port of slot g goes as its configuration changes: its status clears and its MAC link falls. A slot that has no
Ethernet port keeps the link of the client bound to it (R107, R108). -/
def State.etherGone (s : State) (g : Nat) : State := if (s.mac g).mode = 1 then (s.portDown g).macLink g false else s.portDown g

/-- A write of PORT_CFG with APPLY (R106 to R108, R132, R137, R240): removal with MODE 00 is always accepted; a refused
configuration leaves the one in force and sets cause bit 4; an accepted one loads the calibrated delays, whose values no
rule gives, and an Ethernet port restarts its ordering context. Ignored in fabric mode (R103). -/
def State.portApply (s : State) (g v : Nat) : State :=
  let put (t : State) : State :=
    (t.setMac g { t.mac g with mode := bits v 0 2, width := bits v 2 2, speed := bits v 4 4, fec := bits v 8 3 }).wrWord (lnp g) (g % 16) v
      portCfgFields
  if s.fabric then s
  else if bits v 0 2 = 0 then (put (s.etherGone g)).lpiHold g
  else if s.portAccepted g v then
    let s1 := (put (if bits v 0 2 = 1 then s else s.etherGone g)).lpiHold g
    let s2 := s1.gate (msc g) fun t => (t.wrFree (msc g) MSC.PTP_RX_DELAY_DELAY (g % 16)).wrFree (msc g) MSC.PTP_TX_DELAY_DELAY (g % 16)
    if bits v 0 2 = 1 then s2.ctxRestart g else s2
  else (s.showPort g).raise (lnp g) 4

/-- PORT_APPLY (R106). -/
def execPortApply (slot v : Nat) (s : State) : Host.Outcome State Fault Refusal :=
  .next (if slot < 256 then s.gate (lnp slot) (·.portApply slot v) else s)

/-- A window of slot g may count these: `corr` corrected codewords with `syms` errors among them, each of which had at least one and no
more than its FEC corrects (R109), and `uncorr` beyond that, of the codewords that a window has. -/
def State.windowCounts (s : State) (g corr uncorr syms : Nat) : Bool :=
  match fecLimit (s.mac g).fec with
  | some n => decide (corr ≤ syms) && decide (syms ≤ n * corr) && decide (corr + uncorr ≤ 1024 * s.rd (lnp g) LNP.SER_WINDOW_CW)
  | none => false

/-- SER_WINDOW_END (R109, R111): a window of the port ends. FEC_SYM and the count that DEGRADE follows are those of the corrected
codewords, whose errors the decoder knows (DEDUCED, notes/assumptions/12.md). -/
def execSerWindowEnd (slot corr uncorr syms : Nat) (s : State) : Host.Outcome State Fault Refusal :=
  .next (if slot < 256 ∧ s.live (lnp slot) ∧ (s.mac slot).mode ≠ 0 ∧ s.windowCounts slot corr uncorr syms then
    let p := lnp slot
    let i := slot % 16
    let s1 := ((s.inc p LNP.FEC_CORR corr i).inc p LNP.FEC_UNCORR uncorr i).inc p LNP.FEC_SYM syms i
    if s.rd p LNP.DEG_SET_COUNT ≤ syms then (s1.wr p LNP.PORT_STS_DEGRADE 1 i).raise p 3
    else if syms ≤ s.rd p LNP.DEG_CLR_COUNT then s1.wr p LNP.PORT_STS_DEGRADE 0 i
    else s1
  else s)

/-- PORT_LINK_STATE_CHANGE (R112, R151): the received status of a formed port changes. The link is up with block lock,
alignment, codeword lock, no HI_SER and no fault; while HI_SER is 1 the PCS sends local fault. -/
def State.portState (s : State) (g : Nat) (pcs align fec hiSer rf lf : Bool) : State :=
  let p := lnp g
  let i := g % 16
  let up := pcs && align && fec && !hiSer && !rf && !lf
  let wasUp := s.on p LNP.PORT_STS_LINK_UP i
  let wasHi := s.on p LNP.PORT_STS_HI_SER i
  let s1 := s.wrAll p i [(LNP.PORT_STS_PCS_LOCK, b2n pcs), (LNP.PORT_STS_ALIGN, b2n align), (LNP.PORT_STS_FEC_LOCK, b2n fec),
    (LNP.PORT_STS_HI_SER, b2n hiSer), (LNP.PORT_STS_RF, b2n rf), (LNP.PORT_STS_LF, b2n (lf || hiSer)),
    (LNP.PORT_STS_LINK_UP, b2n up)]
  let s2 := (s1.raiseIf (wasUp && !up) p 1).raiseIf (hiSer && !wasHi) p 2
  if (s.mac g).mode = 1 then s2.macLink g up else s2

/-- PORT_LINK_STATE_CHANGE (R112). -/
def execPortLinkStateChange (slot : Nat) (pcs align fec hiSer rf lf : Bool) (s : State) :
    Host.Outcome State Fault Refusal :=
  .next (if slot < 256 ∧ s.live (lnp slot) ∧ (s.mac slot).mode ≠ 0 then s.portState slot pcs align fec hiSer rf lf else s)

/-! ### Pause and its watchdog -/

/-- Port counter n of slot g advances by k (R153). -/
def State.macCnt (s : State) (g n : Nat) (k : Nat := 1) : State := s.bump (msc g) MSC.PORT_CNT ((g % 16) * 32 + n) n k

/-- TX_PAUSED and WD_ACTIVE show the slot's pause state (R152). -/
def State.pauseView (s : State) (g : Nat) : State :=
  (s.put (msc g) MSC.MAC_STS_TX_PAUSED (decide ((s.mac g).paused ≠ 0)) (g % 16)).put (msc g) MSC.MAC_STS_WD_ACTIVE
    (decide ((s.mac g).ignoring ≠ 0)) (g % 16)

/-- The paused set of slot g changes. -/
def State.setPaused (s : State) (g v : Nat) : State := (s.setMac g { s.mac g with paused := v }).pauseView g

/-- The pause of priority prio (8 the port) of slot g begins anew with a time in quanta of 512 bit times, or ends with time 0 (R121). -/
def State.pauseFor (s : State) (g prio time : Nat) : State :=
  let m := s.mac g
  let rate := s.slotMbps g
  let span := if rate = 0 then 0 else time * 512 * 800 / rate
  (s.setMac g { m with pauseEnd := lset m.pauseEnd prio (s.ticks + span)
                       pauseFrom := if bit m.paused prio then m.pauseFrom else lset m.pauseFrom prio s.ticks }).setPaused g
    (putBit m.paused prio (time ≠ 0))

/-- A received PAUSE frame of the given time (R121): counted; honoured with RX_PAUSE_EN while no RX_PFC_EN bit is set and
the watchdog does not ignore it. Time 0 ends the pause. -/
def State.rxPause (s : State) (g time : Nat) : State :=
  let s1 := s.macCnt g 6
  if s.on (msc g) MSC.PAUSE_CTL_RX_PAUSE_EN (g % 16) ∧ s.rd (msc g) MSC.PAUSE_CTL_RX_PFC_EN (g % 16) = 0 ∧
      ¬ bit (s.mac g).ignoring 8 then
    s1.pauseFor g 8 time
  else s1

/-- A received PFC frame with its class-enable vector and times (R121). -/
def State.rxPfc (s : State) (g enable : Nat) (times : List Nat) : State :=
  let s1 := s.macCnt g 7
  let en := s.rd (msc g) MSC.PAUSE_CTL_RX_PFC_EN (g % 16)
  (List.range 8).foldl (fun (t : State) n =>
    if bit en n ∧ bit enable n ∧ ¬ bit (s.mac g).ignoring n then t.pauseFor g n (times.getD n 0) else t) s1

/-- PAUSE_TIME_EXPIRY (R121): the pause time of priority prio (8 the port) runs out. -/
def execPauseTimeExpiry (slot prio : Nat) (s : State) : Host.Outcome State Fault Refusal :=
  .next (if slot < 256 ∧ s.live (msc slot) ∧ bit (s.mac slot).paused prio ∧ (s.mac slot).pauseEnd.getD prio 0 ≤ s.ticks then
    s.setPaused slot (clrBit (s.mac slot).paused prio)
  else s)

/-- PAUSE_WD_TRIP (R123): a transmitter paused for TIMEOUT_MS trips its watchdog; received pause is ignored for it. -/
def execPauseWdTrip (slot prio : Nat) (s : State) : Host.Outcome State Fault Refusal :=
  .next (if slot < 256 ∧ s.live (msc slot) ∧ bit (s.mac slot).paused prio ∧
      s.rd (msc slot) MSC.PAUSE_WD_TIMEOUT_MS (slot % 16) ≠ 0 ∧
      (s.mac slot).pauseFrom.getD prio 0 + ticksMs (s.rd (msc slot) MSC.PAUSE_WD_TIMEOUT_MS (slot % 16)) ≤ s.ticks then
    let m := s.mac slot
    let s1 := s.setMac slot { m with paused := clrBit m.paused prio, ignoring := setBit m.ignoring prio
                                     tripAt := lset m.tripAt prio s.ticks }
    ((s1.pauseView slot).macCnt slot 27).raise (msc slot) 0
  else s)

/-- PAUSE_WD_RECOVER_END (R123): after RECOVER_MS received pause is honoured again. -/
def execPauseWdRecoverEnd (slot prio : Nat) (s : State) : Host.Outcome State Fault Refusal :=
  .next (if slot < 256 ∧ s.live (msc slot) ∧ bit (s.mac slot).ignoring prio ∧
      (s.mac slot).tripAt.getD prio 0 + ticksMs (s.rd (msc slot) MSC.PAUSE_WD_RECOVER_MS (slot % 16)) ≤ s.ticks then
    (s.setMac slot { s.mac slot with ignoring := clrBit (s.mac slot).ignoring prio }).pauseView slot
  else s)

/-! ### The ingress hold -/

/-- A frame's octets on the wire from destination address to FCS. -/
def Frame.len (f : Frame) : Nat := f.bytes.length + 4

/-- Transmit flow control of slot g is enabled, as PAUSE or as PFC (R122). -/
def State.txFlow (s : State) (g : Nat) : Bool :=
  s.on (msc g) MSC.PAUSE_CTL_TX_PAUSE_EN (g % 16) || decide (s.rd (msc g) MSC.PAUSE_CTL_TX_PFC_EN (g % 16) ≠ 0)

/-- XOFF or XON for slot g at an occupancy of the ingress hold (R122), counted as TX_PFC or TX_PAUSE: with both enabled one PFC
frame is sent (DESIGN CHOICE: the spec gives no order of the two; notes/assumptions/12.md). A port without link, as while
HI_SER is 1, sends none (R112). -/
def State.pauseSend (s : State) (g occ : Nat) : State :=
  let p := msc g
  let i := g % 16
  let pfc := s.rd p MSC.PAUSE_CTL_TX_PFC_EN i
  let go (t : State) (x : Bool) : State :=
    ((t.setMac g { t.mac g with xoffSent := x }).emit (.txPause g pfc x)).macCnt g (if pfc ≠ 0 then 19 else 18)
  if ¬ s.txFlow g ∨ ¬ s.on p MSC.MAC_STS_LINK i then s
  else if ¬ (s.mac g).xoffSent ∧ s.rd p MSC.PAUSE_THR_XOFF i * 256 < occ then go s true
  else if (s.mac g).xoffSent ∧ occ < s.rd p MSC.PAUSE_THR_XON i * 256 then go s false
  else s

/-! ### Preemption and low-power idle -/

/-- PREEMPT_VERIFY (R130): the verify exchange of a port with preemption succeeds or fails; with VERIFY_DIS preemption is
in use without it. -/
def execPreemptVerify (slot : Nat) (ok : Bool) (s : State) : Host.Outcome State Fault Refusal :=
  .next (if slot < 256 ∧ s.live (msc slot) ∧ s.on (msc slot) MSC.PREEMPT_CTL_EN (slot % 16) then
    let p := msc slot
    let i := slot % 16
    if s.on p MSC.PREEMPT_CTL_VERIFY_DIS i then s.wr p MSC.MAC_STS_PREEMPT_ACTIVE 1 i
    else if ok then (s.wr p MSC.MAC_STS_VERIFY 2 i).wr p MSC.MAC_STS_PREEMPT_ACTIVE 1 i
    else (((s.wr p MSC.MAC_STS_VERIFY 3 i).wr p MSC.MAC_STS_PREEMPT_ACTIVE 0 i).macCnt slot 30).raise p 6
  else s)

/-- A write of PREEMPT_CTL of slot g (R129, R130): EN starts verification, or preemption at once with VERIFY_DIS; where VERIFY_DIS
clears and no verification has succeeded, one starts and preemption waits for it. -/
def State.preemptWrite (s : State) (g v : Nat) : State :=
  let p := msc g
  let i := g % 16
  let was := s.on p MSC.PREEMPT_CTL_EN i
  let off := s.on p MSC.PREEMPT_CTL_VERIFY_DIS i
  let s1 := s.wrWord p i v [MSC.PREEMPT_CTL_EN, MSC.PREEMPT_CTL_VERIFY_DIS, MSC.PREEMPT_CTL_ADD_FRAG,
    MSC.PREEMPT_CTL_VERIFY_MS, MSC.PREEMPT_CTL_EXPRESS_MASK]
  if ¬ bit v 0 then (s1.wr p MSC.MAC_STS_VERIFY 0 i).wr p MSC.MAC_STS_PREEMPT_ACTIVE 0 i
  else if bit v 1 then s1.wr p MSC.MAC_STS_PREEMPT_ACTIVE 1 i
  else if ¬ was ∨ (off ∧ s.rd p MSC.MAC_STS_VERIFY i ≠ 2) then (s1.wr p MSC.MAC_STS_VERIFY 1 i).wr p MSC.MAC_STS_PREEMPT_ACTIVE 0 i
  else s1

/-- A write of MAC_CTL of slot g: MAX_FRAME is held to 16,000 (R118) and LPI_EN stays 0 on a port that is not of 25, 50 or
100 Gb/s (R132). LPI that is asserted when LPI_EN is written 0 lasts until a frame is queued (DESIGN CHOICE: R134 names no
other way out of it; notes/assumptions/12.md). -/
def State.macCtlWrite (s : State) (g v : Nat) : State :=
  let p := msc g
  let i := g % 16
  let s1 := s.wrWord p i v [MSC.MAC_CTL_RX_EN, MSC.MAC_CTL_TX_EN, MSC.MAC_CTL_TX_PAD, MSC.MAC_CTL_CBS_EN]
  (s1.put p MSC.MAC_CTL_LPI_EN (bit v 3 && (s.mac g).lpiOk) i).wr p MSC.MAC_CTL_MAX_FRAME (min (bits v 16 14) 16000) i

/-- Every MAC queue of slot g is empty. -/
def MacSlot.idle (m : MacSlot) : Bool := m.txq.all fun q => q.isEmpty

/-- LPI_ENTER (R134): TX_IDLE_US of empty MAC queues have passed on a port with LPI_EN. -/
def execLpiEnter (slot : Nat) (s : State) : Host.Outcome State Fault Refusal :=
  .next (if slot < 256 ∧ s.live (msc slot) ∧ s.on (msc slot) MSC.MAC_CTL_LPI_EN (slot % 16) ∧ (s.mac slot).idle ∧
      ¬ s.on (msc slot) MSC.MAC_STS_LPI_TX (slot % 16) ∧
      (s.mac slot).idleFrom + ticksUs (s.rd (msc slot) MSC.LPI_CTL_TX_IDLE_US (slot % 16)) ≤ s.ticks then
    (s.wr (msc slot) MSC.MAC_STS_LPI_TX 1 (slot % 16)).macCnt slot 26
  else s)

/-- A queued frame ends transmitted low-power idle (R134). -/
def State.lpiLeave (s : State) (g : Nat) : State := s.wr (msc g) MSC.MAC_STS_LPI_TX 0 (g % 16)

/-- LPI_RX_CHANGE (R152): the partner starts or stops low-power idle; each start is an RX_LPI_EVENT. -/
def execLpiRxChange (slot : Nat) (on : Bool) (s : State) : Host.Outcome State Fault Refusal :=
  .next (if slot < 256 ∧ s.live (msc slot) then
    let was := s.on (msc slot) MSC.MAC_STS_LPI_RX (slot % 16)
    let s1 := s.put (msc slot) MSC.MAC_STS_LPI_RX on (slot % 16)
    if on ∧ ¬ was then s1.macCnt slot 14 else s1
  else s)

/-! ### The timestamp FIFO -/

/-- The head registers of MSC page i show the FIFO's first record (R141); an empty FIFO reads VALID 0. -/
def State.tsView (s : State) (i : Nat) : State :=
  let p := pgMSC i
  let q := tgetD s.tsFifo i []
  let s1 := s.wr p MSC.TS_LEVEL_COUNT q.length
  match q with
  | [] => s1.wr p MSC.TS_HEAD_STS_VALID 0
  | r :: _ =>
    s1.wrAll p 0 [(MSC.TS_HEAD_STS_SEQ_ID, r.seqId), (MSC.TS_HEAD_STS_MSG_TYPE, r.msgType), (MSC.TS_HEAD_STS_SLOT, r.slot),
      (MSC.TS_HEAD_STS_VALID, 1), (MSC.TS_HEAD_FRAC_FRAC, r.time.frac16), (MSC.TS_HEAD_NS_NS, r.time.ns),
      (MSC.TS_HEAD_SEC_LO_SEC, r.time.sec), (MSC.TS_HEAD_SEC_HI_SEC, r.time.sec / 2 ^ 32)]

/-- A two-step record for slot g enters its page's FIFO, or is dropped when 64 are held (R140). -/
def State.tsCapture (s : State) (g msgType seqId : Nat) (t : NetTime) : State :=
  let i := g / 16
  let q := tgetD s.tsFifo i []
  if q.length < 64 then
    let r : TsRec := ⟨g % 16, msgType, seqId, t⟩
    ({ s with tsFifo := tset s.tsFifo i (q ++ [r]) }.tsView i).macCnt g 28
  else (s.macCnt g 29).raise (pgMSC i) 5

/-- TS_POP removes the head record of MSC page i (R141). -/
def State.tsPop (s : State) (i : Nat) : State :=
  { s with tsFifo := tset s.tsFifo i ((tgetD s.tsFifo i []).drop 1) }.tsView i

/-- TS_POP (R141). -/
def execTsPop (msc : Nat) (s : State) : Host.Outcome State Fault Refusal :=
  .next (if msc < 16 then s.gate (pgMSC msc) (·.tsPop msc) else s)

/-! ### MACsec -/

/-- The key of SA idx of MSC page i, transmit or receive. -/
def saKey (i : Nat) (tx : Bool) (idx : Nat) : Nat := i * 4096 + (if tx then 2048 else 0) + idx

/-- An SA. -/
def State.sa (s : State) (i : Nat) (tx : Bool) (idx : Nat) : MacSa := tgetD s.sas (saKey i tx idx) {}
/-- An SA replaced. -/
def State.setSa (s : State) (i : Nat) (tx : Bool) (idx : Nat) (a : MacSa) : State :=
  { s with sas := tset s.sas (saKey i tx idx) a }

/-- The suites with extended packet numbers (R142, R152). -/
def isXpn (cipher : Nat) : Bool := decide (cipher = 2 ∨ cipher = 3)

/-- The SA that SA_IDX of page i selects: its direction and index; a transmit index stays below 64 (R143). -/
def State.saSel (s : State) (i : Nat) : Bool × Nat :=
  let tx := s.on (pgMSC i) MSC.SA_IDX_DIR
  let idx := s.rd (pgMSC i) MSC.SA_IDX_INDEX
  (tx, if tx then idx % 64 else idx)

/-- The selected SA is the current transmit SA of its slot (R148). -/
def State.saCurrent (s : State) (i : Nat) : Bool :=
  let (tx, idx) := s.saSel i
  tx && decide (idx % 4 = s.rd (pgMSC i) MSC.SEC_CTL_TX_AN (idx / 4))

/-- SA_CMD write (R148): the staged SA is stored with fresh counters, or ERROR for the slot's current transmit SA. -/
def State.saWrite (s : State) (i tag : Nat) : State :=
  let p := pgMSC i
  if s.saCurrent i then s.result p MSC.SA_RES tag ERROR
  else
    let a : MacSa :=
      { key := (List.range 8).map fun k => s.rd p MSC.SA_KEY_KEY k
        salt := (List.range 3).map fun k => s.rd p MSC.SA_SALT_SALT k
        ssci := s.rd p MSC.SA_SSCI_SSCI
        pn := s.rd p MSC.SA_PN_LO_PN + s.rd p MSC.SA_PN_HI_PN * 2 ^ 32
        low := s.rd p MSC.SA_PN_LO_PN + s.rd p MSC.SA_PN_HI_PN * 2 ^ 32
        inUse := s.on p MSC.SA_CFG_IN_USE }
    let (tx, idx) := s.saSel i
    (s.setSa i tx idx a).result p MSC.SA_RES tag DONE

/-- The lowest acceptable PN of receive SA idx of page i (R145, R152): the one written, or the next PN less the replay window of
its SC (idx div 4) once that is higher. -/
def State.lowestPn (s : State) (i idx : Nat) (a : MacSa) : Nat := max a.low (a.pn - s.rd (pgMSC i) MSC.RXSC_REPLAY_WINDOW (idx / 4))

/-- SA_CMD read (R148, R152): SSCI, PN, counters and IN_USE of the selected SA. -/
def State.saRead (s : State) (i tag : Nat) : State :=
  let (tx, idx) := s.saSel i
  let a := s.sa i tx idx
  let two (v : Nat) : List Nat := [v % 2 ^ 32, v / 2 ^ 32]
  s.result (pgMSC i) MSC.SA_RES tag DONE
    ([a.ssci] ++ two (if tx then a.pn else s.lowestPn i idx a) ++ two a.ok ++ two a.invalid ++ two a.notValid ++ two a.notUsing ++ two a.unused ++ [b2n a.inUse])

/-- SA_CMD invalidate (R148): the selected SA is no longer in use. -/
def State.saInvalidate (s : State) (i tag : Nat) : State :=
  let (tx, idx) := s.saSel i
  (s.setSa i tx idx { s.sa i tx idx with inUse := false }).result (pgMSC i) MSC.SA_RES tag DONE

/-- MSC_SA_WRITE (R148). -/
def execMscSaWrite (msc tag : Nat) (s : State) : Host.Outcome State Fault Refusal :=
  .next (if msc < 16 then s.gate (pgMSC msc) (·.saWrite msc tag) else s)

/-- MSC_SA_READ (R152). -/
def execMscSaRead (msc tag : Nat) (s : State) : Host.Outcome State Fault Refusal :=
  .next (if msc < 16 then s.gate (pgMSC msc) (·.saRead msc tag) else s)

/-- MSC_SA_INVALIDATE (R148). -/
def execMscSaInvalidate (msc tag : Nat) (s : State) : Host.Outcome State Fault Refusal :=
  .next (if msc < 16 then s.gate (pgMSC msc) (·.saInvalidate msc tag) else s)

/-- The GCM nonce of an SA for an SCI and packet number: SCI and 32-bit PN, or for the XPN suites the short SCI and 64-bit
PN combined with the salt (IEEE 802.1AE, which R142 names; PRESUMED, notes/assumptions/11.md). SA_SALT0 to SA_SALT2 hold the salt as
one number, word 2 its highest bits and first bytes (DESIGN CHOICE: the table says only 'XPN salt'; notes/assumptions/11.md). -/
def macNonce (xpn : Bool) (a : MacSa) (sci pn : Nat) : List Byte :=
  if xpn then xorBytes (toBe 4 a.ssci ++ toBe 8 pn) (wordsToBytes a.salt.reverse) else toBe 8 sci ++ toBe 4 pn

/-- The key bytes of an SA: 16 for the 128-bit suites, 32 for the others; key bit 0 is the last byte's lowest bit. -/
def macKey (cipher : Nat) (a : MacSa) : List Byte :=
  let n := if cipher = 0 ∨ cipher = 2 then 4 else 8
  ((a.key.take n).reverse).flatMap (toBe 4)

/-- The confidentiality offset in bytes (R152). -/
def confBytes (code : Nat) : Nat := if code = 1 then 30 else if code = 2 then 50 else 0

/-- What MACsec receive decides of a frame: passed with its bytes, or dropped, with the state that counted it. -/
abbrev RxSec := State × Option (List Byte)

/-- The receive SC of slot g with an SCI: the lowest-numbered valid entry (R144). -/
def State.findSc (s : State) (g sci : Nat) : Option Nat :=
  let p := msc g
  (List.range 512).find? fun e =>
    s.on p MSC.RXSC_VALID e && decide (s.rd p MSC.RXSC_SLOT e = g % 16) &&
      decide (s.rd p MSC.RXSC_SCI_LO e + s.rd p MSC.RXSC_SCI_HI e * 2 ^ 32 = sci)

/-- The packet number of a received frame: for the XPN suites the upper half is recovered against the lowest acceptable
PN (R145; IEEE 802.1AE, which R145 names; PRESUMED, notes/assumptions/11.md). -/
def recoverPn (xpn : Bool) (lowest pn : Nat) : Nat :=
  if xpn then
    let hi := lowest / 2 ^ 32
    (if bit lowest 31 ∧ ¬ bit pn 31 then hi + 1 else hi) % 2 ^ 32 * 2 ^ 32 + pn
  else pn

/-- A received frame with a SecTAG, past SC and SA selection: replay check, decryption, counters (R145). -/
def State.secOpen (s : State) (g e idx : Nat) (l : List Byte) (tagLen sci rxPn : Nat) (enc : Bool) : RxSec :=
  let p := msc g
  let i := g / 16
  let cipher := s.rd p MSC.SEC_CTL_CIPHER (g % 16)
  let xpn := isXpn cipher
  let a := s.sa i false idx
  let lowest := s.lowestPn i idx a
  let pn := recoverPn xpn lowest rxPn
  if s.on p MSC.RXSC_REPLAY_PROTECT e ∧ pn < lowest then
    (((s.setSa i false idx { a with late := a.late + 1 }).macCnt g 13).raise p 4, none)
  else
    let off := if enc then min (confBytes (s.rd p MSC.SEC_CTL_CONF_OFFSET (g % 16))) (l.length - 16 - 12 - tagLen) else (l.length - 16)
    let head := l.take (12 + tagLen + (if enc then off else 0))
    let clear := if enc then slice l (12 + tagLen) off else slice l (12 + tagLen) (l.length - 16 - 12 - tagLen)
    let aad := if enc then head else l.take (l.length - 16)
    let body := if enc then l.drop (12 + tagLen + off) else l.drop (l.length - 16)
    match Config.gcmOpen (macKey cipher a) (macNonce xpn a sci pn) aad body with
    | none =>
      let strict := decide (s.rd p MSC.SEC_CTL_VALIDATE (g % 16) = 2)
      let a1 := if strict then { a with notValid := a.notValid + 1 } else { a with invalid := a.invalid + 1 }
      (((s.setSa i false idx a1).macCnt g 12).raise p 4, none)
    | some plain =>
      let a1 := { a with ok := a.ok + 1, pn := max a.pn (pn + 1) }
      (s.setSa i false idx a1, some (l.take 12 ++ clear ++ (if enc then plain else [])))

/-- MACsec on a received frame of slot g (R143 to R145, R148): an untagged, badly tagged or unknown frame is counted, and
passes only where validation is not strict and the frame is not encrypted; with validation disabled the tag and ICV are
removed unchecked (IEEE 802.1AE; PRESUMED, notes/assumptions/11.md). A short length SL says where the secure data of a short frame
end, so that padding behind the ICV falls away. A frame for an SA lost to a double-bit error is dropped as one for an exhausted packet
number is (R154). -/
def State.macsecRx (s : State) (g : Nat) (l : List Byte) : RxSec :=
  let p := msc g
  let strict := decide (s.rd p MSC.SEC_CTL_VALIDATE (g % 16) = 2)
  if ¬ s.on p MSC.SEC_CTL_RX_EN (g % 16) then (s, some l)
  else if etherTypeAt l 12 ≠ 0x88E5 then (s.macCnt g 9, if strict then none else some l)
  else
    let tci := beAt l 14 1
    let sc := bit tci 5
    let tagLen := if sc then 16 else 8
    let enc := bit tci 3
    let rxPn := beAt l 16 4
    let sl := beAt l 15 1 % 64
    let l := if sl = 0 then l else l.take (12 + tagLen + sl + 16)
    if l.length < 12 + tagLen + 16 ∨ (sl ≠ 0 ∧ l.length ≠ 12 + tagLen + sl + 16) ∨ bit tci 7 ∨ (rxPn = 0 ∧ ¬ isXpn (s.rd p MSC.SEC_CTL_CIPHER (g % 16))) then
      (s.macCnt g 10, none)
    else
      let bare := l.take 12 ++ (l.take (l.length - 16)).drop (12 + tagLen)
      let pass := if strict ∨ enc then none else some bare
      if s.rd p MSC.SEC_CTL_VALIDATE (g % 16) = 0 then (s, if enc then none else some bare)
      else
        let sci := if sc then beAt l 20 8 else beAt l 6 6 * 65536 + 1
        match s.findSc g sci with
        | none => (s.macCnt g 11, pass)
        | some e =>
          let idx := e * 4 + tci % 4
          let a := s.sa (g / 16) false idx
          if a.dead then ((s.macCnt g 22).raise p 2, none)
          else if a.inUse then s.secOpen g e idx l tagLen sci rxPn enc
          else if strict ∨ enc then (s.setSa (g / 16) false idx { a with notUsing := a.notUsing + 1 }, none)
          else (s.setSa (g / 16) false idx { a with unused := a.unused + 1 }, some bare)

/-- The packet numbers of a suite (R147). -/
def pnSpace (cipher : Nat) : Nat := if isXpn cipher then 2 ^ 64 else 2 ^ 32

/-- MACsec on a transmitted frame of slot g (R142, R146, R147): the SecTAG with the current SA's packet number and the
ICV; with no packet number left, or an SA not in use or lost to a double-bit error (R154), the frame is dropped and counted. -/
def State.macsecTx (s : State) (g : Nat) (l : List Byte) : RxSec :=
  let p := msc g
  let q := g % 16
  if ¬ s.on p MSC.SEC_CTL_TX_EN q then (s, some l)
  else
    let cipher := s.rd p MSC.SEC_CTL_CIPHER q
    let xpn := isXpn cipher
    let an := s.rd p MSC.SEC_CTL_TX_AN q
    let idx := q * 4 + an
    let a := s.sa (g / 16) true idx
    if ¬ a.inUse ∨ a.dead ∨ pnSpace cipher ≤ a.pn then ((s.macCnt g 22).raise p 2, none)
    else
      let enc := s.on p MSC.SEC_CTL_ENCRYPT q
      let withSci := s.on p MSC.SEC_CTL_INCLUDE_SCI q
      let sci := s.rd p MSC.SEC_SCI_LO_SCI q + s.rd p MSC.SEC_SCI_HI_SCI q * 2 ^ 32
      let tci := an + (if enc then 0x0C else 0) + (if withSci then 0x20 else 0)
      let body := l.drop 12
      let sl := if body.length < 48 then body.length else 0
      let tag := [byteOf 0x88, byteOf 0xE5, byteOf tci, byteOf sl] ++ toBe 4 (a.pn % 2 ^ 32) ++ (if withSci then toBe 8 sci else [])
      let off := if enc then confBytes (s.rd p MSC.SEC_CTL_CONF_OFFSET q) else body.length
      let aad := l.take 12 ++ tag ++ body.take off
      let sealed := Config.gcmSeal (macKey cipher a) (macNonce xpn a sci a.pn) aad (body.drop off)
      let a1 := { a with pn := a.pn + 1, ok := a.ok + b2n (!enc), invalid := a.invalid + b2n enc }
      let warn := decide (s.rd p MSC.SEC_PN_THR_FRACTION q * (pnSpace cipher / 256) < a.pn + 1) && !(s.mac g).pnWarned
      let s2 := (s.setSa (g / 16) true idx a1).macCnt g (if enc then 24 else 23)
      let s3 := if warn then (s2.setMac g { s2.mac g with pnWarned := true }).raise p 1 else s2
      (s3, some (aad ++ sealed))

/-- The threshold signal of R147 may come again for slot g: another SA, suite or threshold holds. -/
def State.pnRearm (s : State) (g : Nat) : State := s.setMac g { s.mac g with pnWarned := false }

/-- A write of SEC_PN_THR of slot g (R147). -/
def State.pnThrWrite (s : State) (g v : Nat) : State :=
  (s.wr (msc g) MSC.SEC_PN_THR_FRACTION v (g % 16)).pnRearm g

/-- A write of SEC_CTL of slot g: it governs the next frame whose SecTAG has not begun (R146); a new TX_AN or suite re-arms the
threshold signal of R147. -/
def State.secCtlWrite (s : State) (g v : Nat) : State :=
  let p := msc g
  let i := g % 16
  let s1 := s.wrWord p i v [MSC.SEC_CTL_TX_EN, MSC.SEC_CTL_RX_EN, MSC.SEC_CTL_VALIDATE, MSC.SEC_CTL_CONF_OFFSET,
    MSC.SEC_CTL_ENCRYPT, MSC.SEC_CTL_INCLUDE_SCI, MSC.SEC_CTL_CIPHER, MSC.SEC_CTL_TX_AN]
  if bits v 12 2 = s.rd p MSC.SEC_CTL_TX_AN i ∧ bits v 8 3 = s.rd p MSC.SEC_CTL_CIPHER i then s1 else s1.pnRearm g

/-! ### Transmit selection (R126, R127, R413) -/

/-- MAC queue q of slot g may be taken: it holds a frame, its priority and its port are not paused, and a shaped queue
has credit of at least 0 (R121, R126). -/
def State.queueReady (s : State) (g q : Nat) : Bool :=
  let m := s.mac g
  !(m.txq.getD q []).isEmpty && !bit m.paused q && !bit m.paused 8 &&
    (!bit (s.rd (msc g) MSC.MAC_CTL_CBS_EN (g % 16)) q ||
      decide (0 ≤ signedOf 32 (s.rd (msc g) MSC.CBS_CREDIT ((g % 16) * 8 + q))))

/-- The MAC queue served next: shaped queues first, then strict priority, the higher number first (R127). -/
def State.pickQueue (s : State) (g : Nat) : Option Nat :=
  let cbs := s.rd (msc g) MSC.MAC_CTL_CBS_EN (g % 16)
  let order := [7, 6, 5, 4, 3, 2, 1, 0]
  (order.filter fun q => bit cbs q) ++ (order.filter fun q => !bit cbs q) |>.find? fun q => s.queueReady g q

/-- The shaped queue's credit after a frame of a number of wire bytes (R126): it falls by the bytes that idleSlope did not
earn during the frame, held to LO_CREDIT. Credit is in bytes; idleSlope in 100 kb/s. -/
def State.cbsSpend (s : State) (g q bytes : Nat) : State :=
  let p := msc g
  let e := (g % 16) * 8 + q
  if bit (s.rd p MSC.MAC_CTL_CBS_EN (g % 16)) q then
    let rate := s.slotMbps g * 10
    let idle := min (s.rd p MSC.CBS_IDLE_SLOPE e) rate
    let spend : Int := ((bytes * (rate - idle) / rate : Nat) : Int)
    let lo := signedOf 32 (s.rd p MSC.CBS_LO_CREDIT e)
    s.wr p MSC.CBS_CREDIT (unsignedOf 32 (max lo (signedOf 32 (s.rd p MSC.CBS_CREDIT e) - spend))) e
  else s

/-- One timing clock of a shaped queue (R126, IEEE 802.1Qav): while a frame waits or the credit is below 0, idleSlope earns
idleSlope / 64,000 of a byte in 1.25 ns, held to HI_CREDIT, and to 0 where no frame waits; an empty queue keeps no credit above 0.
`cbsFrac` holds what is not yet a whole byte. -/
def State.cbsEarn (s : State) (g q : Nat) : State :=
  let p := msc g
  let e := (g % 16) * 8 + q
  let now := signedOf 32 (s.rd p MSC.CBS_CREDIT e)
  let waits := !((s.mac g).txq.getD q []).isEmpty
  if ¬ bit (s.rd p MSC.MAC_CTL_CBS_EN (g % 16)) q then s
  else if waits ∨ now < 0 then
    let fr := tgetD s.cbsFrac (g * 8 + q) 0 + s.rd p MSC.CBS_IDLE_SLOPE e
    let hi := if waits then signedOf 32 (s.rd p MSC.CBS_HI_CREDIT e) else 0
    { s with cbsFrac := tset s.cbsFrac (g * 8 + q) (fr % 64000) }.wr p MSC.CBS_CREDIT
      (unsignedOf 32 (min hi (now + ((fr / 64000 : Nat) : Int)))) e
  else if 0 < now then s.wr p MSC.CBS_CREDIT 0 e
  else s

end Sys2Proof.Machine
end

