-- ==== Sys2Proof/Machine/Cage.lean ====
section
/-! DEFINITION. Machine/Cage.lean: the cage sideband bus, the cage state machine and the module-management masters
(spec 05_pluggable_cages.md, R155 to R177). -/

namespace Sys2Proof.Machine

/-! ### Cage states (R162) -/

def cgEmpty : Nat := 0
def cgDebounce : Nat := 1
def cgPowering : Nat := 2
def cgInit : Nat := 3
def cgReady : Nat := 4
def cgLowPower : Nat := 5
def cgFault : Nat := 6
def cgRemoving : Nat := 7

def State.cage (s : State) (c : Nat) : Cage := tgetD s.cages c {}
def State.setCage (s : State) (c : Nat) (x : Cage) : State := { s with cages := tset s.cages c x }
def State.cageSt (s : State) (c : Nat) : Nat := s.rd pgCAGE CAGE.CAGE_STS_STATE c
def State.cageEn (s : State) (c : Nat) : Bool := s.on pgCAGE CAGE.CAGE_CTL_EN c

/-- Outputs are held during a switchover gap (R174). -/
def State.cageHold (s : State) : Bool := s.on pgCAGE CAGE.CSB_STS_OUT_HOLD

/-- The lanes of a cage by its LANE_MAP (R164). -/
def State.cageLanes (s : State) (c : Nat) : List Nat :=
  (List.range (s.rd pgCAGE CAGE.LANE_MAP_LANE_CNT c)).map fun k => s.rd pgCAGE CAGE.LANE_MAP_FIRST_LANE c + k

/-- The squelch request of a cage to all its lanes (R103, R164). -/
def State.cageSquelchAll (s : State) (c : Nat) (b : Bool) : State :=
  (s.cageLanes c).foldl (fun t g => t.cageSquelch g b) (s.put pgCAGE CAGE.CAGE_STS_SQUELCH_REQ b c)

/-- The LED pattern codes of a cage: green and amber, 0 off, 1 on, 2 1 Hz, 3 4 Hz (R173). READY is steady green while
every port formed on its lanes has its link up. -/
def State.ledCodes (s : State) (c : Nat) : Nat × Nat :=
  let linkUp := (s.cageLanes c).all fun g => (s.mac g).mode = 0 || s.on (lnp g) LNP.PORT_STS_LINK_UP (g % 16)
  if s.on pgCAGE CAGE.LED_CTL_OVERRIDE c then
    (s.rd pgCAGE CAGE.LED_CTL_GREEN c, s.rd pgCAGE CAGE.LED_CTL_AMBER c)
  else if s.on pgCAGE CAGE.CAGE_CTL_LOCATE c then (0, 3)
  else if s.cageSt c = cgDebounce ∨ s.cageSt c = cgPowering ∨ s.cageSt c = cgInit then (2, 0)
  else if s.cageSt c = cgReady then (if linkUp then 1 else 2, 0)
  else if s.cageSt c = cgLowPower ∨ s.cageSt c = cgFault then (0, 1)
  else (0, 0)

/-- A blink pattern now: on for the first half of each period, phased to network-time seconds (R173). -/
def ledLit (code ns : Nat) : Bool :=
  match code with
  | 0 => false
  | 1 => true
  | 2 => decide (ns < 500000000)
  | _ => decide (ns % 250000000 < 125000000)

/-- The power, reset and low-power outputs of a cage as bits [7:5] of its output byte (R160, R162). A cage in REMOVING keeps the PWR_EN
of the state it left. -/
def State.cagePins (s : State) (c : Nat) : Nat :=
  let st := s.cageSt c
  let k := s.cage c
  if ¬ s.cageEn c ∨ k.cycling then 0x20
  else if st = cgPowering then 0xA0
  else if st = cgInit then 0xC0 + (if k.lp then 0x20 else 0)
  else if st = cgReady then 0xC0
  else if st = cgLowPower then 0xE0
  else if st = cgRemoving then 128 * b2n k.pwr + 0x20
  else 0x20

/-- MM_SEL of a cage: its master runs a command for it (R167). -/
def State.mmSel (s : State) (c : Nat) : Bool :=
  match tgetD s.mmQueue (c / 8) [] with
  | q :: _ => decide (q.cage = c)
  | [] => false

/-- The output byte of a cage (R160). -/
def State.cageOut (s : State) (c : Nat) : Nat :=
  let (g, a) := s.ledCodes c
  s.cagePins c + (if ledLit g s.nt.ns then 16 else 0) + (if ledLit a s.nt.ns then 8 else 0) + (if s.mmSel c then 4 else 0)

/-- Bit c of a register pair that holds one bit per cage. -/
def State.cageBit (s : State) (lo hi : Fld) (c : Nat) (b : Bool) : State :=
  if c < 32 then s.wr pgCAGE lo (putBit (s.rd pgCAGE lo) c b) else s.wr pgCAGE hi (putBit (s.rd pgCAGE hi) (c - 32) b)

/-- BUSY and SEL of master m follow its queue, and so does MM_SEL, whose change starts the wait of R167. -/
def State.mmView (s : State) (m : Nat) : State :=
  match tgetD s.mmQueue m [] with
  | [] => { s with mmSince := tdel s.mmSince m }.wr pgCAGE CAGE.MM_STS_BUSY 0 m
  | q :: _ =>
    let s1 := if (tgetD s.mmSince m (0, 0)).1 = q.cage + 1 then s else { s with mmSince := tset s.mmSince m (q.cage + 1, 0) }
    (s1.wr pgCAGE CAGE.MM_STS_BUSY 1 m).wr pgCAGE CAGE.MM_STS_SEL (q.cage % 8) m

/-- A frame has passed for the MM_SEL of master m (R167). -/
def State.mmFrame (s : State) (m : Nat) : State :=
  match tget s.mmSince m with
  | some (c, n) => { s with mmSince := tset s.mmSince m (c, n + 1) }
  | none => s

/-- Master m may run its transaction: a bus is selected (R168), and two frames have passed since MM_SEL changed (R167). The code 11 of
MODE, which names no bus, runs nothing (DEDUCED, notes/assumptions/7.md). -/
def State.mmMode (s : State) (m : Nat) : Bool := s.rd pgCAGE CAGE.MM_CTL_MODE m = 1 || s.rd pgCAGE CAGE.MM_CTL_MODE m = 2
def State.mmReady (s : State) (m : Nat) : Bool := s.mmMode m && decide (2 ≤ (tgetD s.mmSince m (0, 0)).2)

/-- The transaction of a step of the bring-up (R172): the identifier and CMIS revision, the module state, the Application Select codes
of staged set 0, DataPathDeinit. Their places are those of OIF CMIS, which the chapter names (PRESUMED, notes/assumptions/7.md). -/
def bringUpCmd (c step : Nat) : MmCmd :=
  let f : Nat × Nat × Nat := if step = 1 then (0, 0, 2) else if step = 2 then (0, 3, 1) else if step = 3 then (0x10, 145, 8) else (0x10, 128, 1)
  { write := decide (3 ≤ step), cage := c, tag := 0, bank := 0, page := f.1, offset := f.2.1, len := f.2.2, step := step }

/-- The bring-up of cage c goes to a step: its transaction joins the queue of the cage's master; step 5 waits for DataPathActivated. -/
def State.bringUp (s : State) (c step : Nat) : State :=
  let s1 := s.setCage c { s.cage c with step := step }
  let l := tgetD s1.mmQueue (c / 8) [] ++ [bringUpCmd c step]
  if 1 ≤ step ∧ step ≤ 4 then { s1 with mmQueue := tset s1.mmQueue (c / 8) l }.mmView (c / 8) else s1

/-- The bring-up of cage c begins at its first step (R172, R175); what an earlier one still had waiting is gone. -/
def State.bringUpStart (s : State) (c : Nat) : State :=
  let l := (tgetD s.mmQueue (c / 8) []).filter fun (q : MmCmd) => decide (q.cage ≠ c) || decide (q.step = 0)
  ({ s with mmQueue := tset s.mmQueue (c / 8) l }.mmView (c / 8)).bringUp c 1

/-- A cage enters a state: its timer starts, the squelch request follows, and entering EMPTY or POWERING is marked with cause bit 0
(R162, R164, R176, R177). -/
def State.cageEnter (s : State) (c st : Nat) : State :=
  let s1 := ((s.setCage c { s.cage c with since := s.ticks }).wr pgCAGE CAGE.CAGE_STS_STATE st c).cageSquelchAll c (st ≠ cgReady)
  if st = cgEmpty ∨ st = cgPowering then (s1.cageBit CAGE.CHANGE_LO_CHANGED CAGE.CHANGE_HI_CHANGED c true).raise pgCAGE 0
  else s1

/-- Debounced presence (R176). -/
def State.cagePresent (s : State) (c : Nat) (b : Bool) : State :=
  (s.put pgCAGE CAGE.CAGE_STS_PRESENT b c).cageBit CAGE.PRES_LO_PRESENT CAGE.PRES_HI_PRESENT c b

/-- A cage enters DEBOUNCE: its timer starts, and the fault code and overcurrent record clear. -/
def State.cageDebounce (s : State) (c : Nat) : State :=
  (((s.setCage c { s.cage c with waiting := false, holding := false, cycling := false, lp := true }).wr pgCAGE
    CAGE.CAGE_STS_OVERCURRENT 0 c).wr pgCAGE CAGE.CAGE_STS_FAULT_CODE 0 c).cageEnter c cgDebounce

/-- A cage enters FAULT with a code. -/
def State.cageFault (s : State) (c code : Nat) : State :=
  ((s.setCage c { s.cage c with holding := false, cycling := false }).wr pgCAGE CAGE.CAGE_STS_FAULT_CODE code c).cageEnter c cgFault

/-- A cage enters INIT; with AUTO the active processor's bring-up begins (R172). -/
def State.cageInit (s : State) (c : Nat) : State :=
  let s1 := (s.setCage c { s.cage c with holding := false, lp := true }).cageEnter c cgInit
  if s.on pgCAGE CAGE.CAGE_CTL_AUTO c then s1.bringUpStart c else s1

/-- A cage is ready; with FORCE_LPMODE at 1 it goes on to LOW_POWER at once (R162). -/
def State.cageReady (s : State) (c : Nat) : State :=
  s.cageEnter c (if s.on pgCAGE CAGE.CAGE_CTL_FORCE_LPMODE c then cgLowPower else cgReady)

/-- A cage that is no longer managed is EMPTY (R176): nothing becomes so that was. -/
def State.cageOff (s : State) (c : Nat) : State :=
  let s1 := (s.setCage c { lastOut := (s.cage c).lastOut }).cagePresent c false
  if s.cageSt c = cgEmpty then s1 else s1.cageEnter c cgEmpty

/-- What a cage answers to while its power cycle runs (R162): it ends, or the module goes, or its supply fails. -/
def CageEv.duringCycle (e : CageEv) : Bool :=
  decide (e = .absent) || decide (e = .overcurrent) || decide (e = .cycleEnd) || decide (e = .off)

/-- The state table of R162: what an event does to an enabled cage. -/
def State.cageApply (s : State) (c : Nat) (e : CageEv) : State :=
  let st := s.cageSt c
  let k := s.cage c
  let raw := s.on pgCAGE CAGE.CAGE_STS_RAW_PRESENT c
  if k.cycling ∧ ¬ e.duringCycle then s
  else match e with
  | .inserted => if st = cgEmpty ∨ st = cgRemoving then s.cageDebounce c else s
  | .absent =>
    if st = cgDebounce then ((s.setCage c { k with waiting := false, cycling := false }).cagePresent c false).cageEnter c cgEmpty
    else if 2 ≤ st ∧ st ≤ 6 then
      (s.setCage c { k with holding := false, cycling := false, pwr := decide (128 ≤ s.cagePins c) }).cageEnter c cgRemoving
    else s
  | .debounced => if st = cgDebounce then (s.setCage c { k with waiting := true }).cagePresent c true else s
  | .slot =>
    if st = cgDebounce ∧ k.waiting then
      { s.setCage c { k with waiting := false, holding := false } with slotAt := some s.ticks }.cageEnter c cgPowering
    else s
  | .powerGood => if st = cgPowering ∧ ¬ k.holding then s.setCage c { k with holding := true, since := s.ticks } else s
  | .pgTimeout => if st = cgPowering ∧ ¬ k.holding then (s.cageFault c 1).raise pgCAGE 2 else s
  | .resetDone => if st = cgPowering ∧ k.holding then s.cageInit c else s
  | .initTimeout => if st = cgInit then (s.cageFault c 2).raise pgCAGE 4 else s
  | .activated => if st = cgInit ∧ s.on pgCAGE CAGE.CAGE_CTL_AUTO c then s.cageReady c else s
  | .noApp => if st = cgInit ∧ s.on pgCAGE CAGE.CAGE_CTL_AUTO c then s.cageFault c 4 else s
  | .manualReady => if st = cgInit ∧ ¬ s.on pgCAGE CAGE.CAGE_CTL_AUTO c then s.cageReady c else s
  | .forceLp v =>
    if st = cgReady ∧ v then s.cageEnter c cgLowPower
    else if st = cgLowPower ∧ ¬ v then s.cageInit c
    else s
  | .overcurrent => if 2 ≤ st ∧ st ≤ 5 then (s.cageFault c 3).raise pgCAGE 3 else s
  | .powerCycle =>
    if 1 ≤ st ∧ st ≤ 6 then (s.setCage c { k with cycling := true, waiting := false, holding := false, since := s.ticks }).cageSquelchAll c true
    else s
  | .cycleEnd => if k.cycling then s.cageDebounce c else s
  | .faultClr => if st = cgFault ∧ raw then s.cageDebounce c else s
  | .removed => if st = cgRemoving then (s.cagePresent c false).cageEnter c cgEmpty else s
  | .off => s.cageOff c

/-- The outputs of a cage that a held frame must not change: pins and LED patterns (R174). -/
def State.cageShape (s : State) (c : Nat) : Nat × Nat × Nat := (s.cagePins c, (s.ledCodes c).1, (s.ledCodes c).2)

/-- What the CAGE judges from the input bytes (R162). -/
def CageEv.sampled (e : CageEv) : Bool :=
  decide (e = .debounced) || decide (e = .slot) || decide (e = .pgTimeout) || decide (e = .removed)

/-- An event waits behind the others of its cage; one repeated by every frame waits once. -/
def State.cageDefer (s : State) (c : Nat) (e : CageEv) : State :=
  let k := s.cage c
  if k.deferred.getLast? = some e then s else s.setCage c { k with deferred := k.deferred ++ [e] }

/-- An event of an enabled cage, or its EN going to 0. During a switchover gap a change that would alter its output byte waits; the
squelch of a presence loss is applied at once all the same (R164, R174). In a chain fault the debounced state stays: what is judged from
input bytes does not happen, and the rest waits (R161). -/
def State.cageEvent (s : State) (c : Nat) (e : CageEv) : State :=
  if ¬ s.cageEn c ∧ e ≠ .off then s
  else if s.on pgCAGE CAGE.CSB_STS_CHAIN_FAULT then (if e.sampled then s else s.cageDefer c e)
  else if s.cageHold ∧ ((s.cageApply c e).cageShape c ≠ s.cageShape c ∨ (s.cage c).deferred ≠ [] ∨ e = .off) then
    (if e = .absent ∧ 2 ≤ s.cageSt c ∧ s.cageSt c ≤ 6 then s.cageSquelchAll c true else s).cageDefer c e
  else s.cageApply c e

/-- The waiting changes of one cage are applied in their order. -/
def State.cageFlush (s : State) (c : Nat) : State :=
  let d := (s.cage c).deferred
  d.foldl (fun t e => t.cageApply c e) (s.setCage c { s.cage c with deferred := [] })

/-- The waiting changes of all cages are applied in cage-number order, where neither a gap nor a chain fault holds them. -/
def State.cagesFlush (s : State) : State :=
  if s.cageHold ∨ s.on pgCAGE CAGE.CSB_STS_CHAIN_FAULT then s else (List.range 64).foldl (fun t c => t.cageFlush c) s

/-- Cage c is in INIT with AUTO: its bring-up runs (R172). -/
def State.bringsUp (s : State) (c : Nat) : Bool := s.cageEn c && decide (s.cageSt c = cgInit) && s.on pgCAGE CAGE.CAGE_CTL_AUTO c

/-- The gap ends: held changes are applied in cage-number order (R174), and the bring-up of a cage that was in INIT restarts from its
first step (R175). -/
def State.cagesRelease (s : State) : State :=
  let was := (List.range 64).filter fun c => s.bringsUp c
  was.foldl (fun (t : State) c => if t.bringsUp c then t.bringUpStart c else t) (s.wr pgCAGE CAGE.CSB_STS_OUT_HOLD 0).cagesFlush

/-- A cage event where the CAGE page is powered and the cage exists. -/
def State.cageCmd (s : State) (c : Nat) (e : CageEv) : State :=
  if c < 64 then s.gate pgCAGE (·.cageEvent c e) else s

/-! ### The cage sideband bus -/

/-- The input byte of cage c is taken (R160): status bits, then presence loss, overcurrent, insertion or power good. -/
def State.cageInput (s : State) (c b : Nat) : State :=
  let present := !bit b 7
  let int := !bit b 6
  let pg := bit b 5
  let oc := !bit b 4
  let wasInt := s.on pgCAGE CAGE.CAGE_STS_INT c
  let s1 := ((s.put pgCAGE CAGE.CAGE_STS_RAW_PRESENT present c).put pgCAGE CAGE.CAGE_STS_INT int c).put pgCAGE
    CAGE.CAGE_STS_PWR_GOOD pg c
  let s2 := s1.raiseIf (int && !wasInt) pgCAGE 1
  let s3 := if oc ∧ s2.cageSt c ≠ cgEmpty then s2.wr pgCAGE CAGE.CAGE_STS_OVERCURRENT 1 c else s2
  if ¬ present then s3.cageEvent c .absent
  else if oc ∧ 2 ≤ s3.cageSt c ∧ s3.cageSt c ≤ 5 then s3.cageEvent c .overcurrent
  else
    let s4 := s3.cageEvent c .inserted
    if pg then s4.cageEvent c .powerGood else s4

/-- The input bytes of cages c, c + 1, …. -/
def State.cageInputs (s : State) (c : Nat) : List Nat → State
  | [] => s
  | b :: t => (s.cageInput c b).cageInputs (c + 1) t

/-- A frame with a wrong marker (R161): the second in a row is a chain fault, from which on the inputs are not taken. -/
def State.csbMarkerBad (s : State) (ins : List Nat) : State :=
  let s1 := { s.inc pgCAGE CAGE.MARKER_ERR_COUNT with markerBad := true }
  if s.markerBad then
    if s.on pgCAGE CAGE.CSB_STS_CHAIN_FAULT then s1
    else (s1.wr pgCAGE CAGE.CSB_STS_CHAIN_FAULT 1).raise pgCAGE 5
  else s1.cageInputs 0 ins

/-- One frame of n cages (R155 to R161): outputs are sent, the last cage's byte first; inputs are checked and taken. -/
def State.csbFrame (s : State) (n : Nat) (inputs : List Nat) : State :=
  let ins := inputs.take n
  let held := s.cageHold || s.on pgCAGE CAGE.CSB_STS_CHAIN_FAULT
  let bytes := (List.range n).map fun c => if held then (s.cage c).lastOut else s.cageOut c
  let s1 := (List.range n).foldl (fun t c => t.setCage c { t.cage c with lastOut := bytes.getD c 0x20 }) s
  let s1 := if held then s1 else (List.range 8).foldl (fun (t : State) m => t.mmFrame m) s1
  let s2 := (s1.emit (.csbFrame bytes.reverse)).wr pgCAGE CAGE.CSB_STS_RUNNING 1
  if s2.on pgCAGE CAGE.CSB_CTL_MARKER_CHK && ins.any fun b => decide (b % 4 ≠ 2) then s2.csbMarkerBad ins
  else (({ s2 with markerBad := false }.wr pgCAGE CAGE.CSB_STS_CHAIN_FAULT 0).cagesFlush).cageInputs 0 ins

/-- CSB_FRAME (R155): a frame while RUN is 1 and CAGES is 1 to 64. -/
def execCsbFrame (inputs : List Nat) (s : State) : Host.Outcome State Fault Refusal :=
  let n := s.rd pgCAGE CAGE.CSB_CTL_CAGES
  .next (if s.live pgCAGE ∧ s.on pgCAGE CAGE.CSB_CTL_RUN ∧ 1 ≤ n ∧ n ≤ 64 then s.csbFrame n inputs else s)

/-- A write of CSB_CTL (R159). -/
def State.csbCtlWrite (s : State) (v : Nat) : State :=
  let n := bits v 8 7
  if 64 < n ∨ (32 < n ∧ bit v 1) then s.raise pgCAGE 7
  else
    let s1 := s.wrWord pgCAGE 0 v [CAGE.CSB_CTL_RUN, CAGE.CSB_CTL_CLK_SEL, CAGE.CSB_CTL_CAGES, CAGE.CSB_CTL_MARKER_CHK]
    if bit v 0 ∧ n ≠ 0 then s1 else s1.wr pgCAGE CAGE.CSB_STS_RUNNING 0

/-- A write of LANE_MAP of cage c (R166): refused with cause bit 7 where it overlaps another cage or passes L255. The squelch request
of the cage holds for the lanes it has from then on (R164). -/
def State.laneMapWrite (s : State) (c v : Nat) : State :=
  let first := bits v 0 8
  let cnt := bits v 8 4
  let clash := (List.range 64).any fun d =>
    decide (d ≠ c) && (s.cageLanes d).any fun g => decide (first ≤ g ∧ g < first + cnt)
  if 8 < cnt ∨ 256 < first + cnt ∨ clash then s.raise pgCAGE 7
  else
    let s1 := s.wrWord pgCAGE c v [CAGE.LANE_MAP_FIRST_LANE, CAGE.LANE_MAP_LANE_CNT]
    let s2 := ((s.cageLanes c).filter fun g => !(s1.cageLanes c).contains g).foldl (fun (t : State) g => t.cageSquelch g false) s1
    (s1.cageLanes c).foldl (fun (t : State) g => t.cageSquelch g (s.on pgCAGE CAGE.CAGE_STS_SQUELCH_REQ c)) s2

/-- The timer of cage c has run for some milliseconds (R162). -/
def State.cageRan (s : State) (c ms : Nat) : Bool := decide ((s.cage c).since + ticksMs ms ≤ s.ticks)

/-- The end of a timer of a cage: an event, where the time is over. -/
def State.cageTimer (s : State) (c ms : Nat) (e : CageEv) : State := if s.cageRan c ms then s.cageCmd c e else s

/-- CAGE_DEBOUNCE_DONE (R162): a cage present for DEBOUNCE_MS waits for a power slot. -/
def execCageDebounceDone (cage : Nat) (s : State) : Host.Outcome State Fault Refusal :=
  .next (s.cageTimer cage (s.rd pgCAGE CAGE.CAGE_TIMING_DEBOUNCE_MS) .debounced)

/-- STAGGER_MS has passed since a cage last moved to POWERING (R163). -/
def State.slotOpen (s : State) : Bool :=
  match s.slotAt with
  | some t => decide (t + ticksMs (s.rd pgCAGE CAGE.CAGE_TIMING_STAGGER_MS) ≤ s.ticks)
  | none => true

/-- CAGE_POWER_SLOT (R163): the lowest waiting cage moves to POWERING. -/
def execCagePowerSlot (s : State) : Host.Outcome State Fault Refusal :=
  .next (match (List.range 64).find? fun c => s.cageEn c && decide (s.cageSt c = cgDebounce) && (s.cage c).waiting with
    | some c => if s.slotOpen then s.cageCmd c .slot else s
    | none => s)

/-- CAGE_PG_TIMEOUT (R162). -/
def execCagePgTimeout (cage : Nat) (s : State) : Host.Outcome State Fault Refusal :=
  .next (s.cageTimer cage (s.rd pgCAGE CAGE.CAGE_TIMING_PG_TIMEOUT_MS) .pgTimeout)

/-- CAGE_RESET_HOLD_DONE (R162, R172). -/
def execCageResetHoldDone (cage : Nat) (s : State) : Host.Outcome State Fault Refusal :=
  .next (s.cageTimer cage (s.rd pgCAGE CAGE.CAGE_TIMING_RESET_HOLD_MS) .resetDone)

/-- CAGE_INIT_TIMEOUT (R162). -/
def execCageInitTimeout (cage : Nat) (s : State) : Host.Outcome State Fault Refusal :=
  .next (s.cageTimer cage (s.rd pgCAGE CAGE.CMIS_TMO_INIT_TIMEOUT_MS) .initTimeout)

/-- CAGE_DATAPATH_ACTIVATED (R162, R172): bring-up ends, or finds no matching application. -/
def execCageDatapathActivated (cage : Nat) (matched : Bool) (s : State) : Host.Outcome State Fault Refusal :=
  .next (s.cageCmd cage (if matched then .activated else .noApp))

/-- CAGE_MANUAL_READY (R162). -/
def execCageManualReady (cage : Nat) (s : State) : Host.Outcome State Fault Refusal := .next (s.cageCmd cage .manualReady)

/-- The FORCE_LPMODE bit changes (R162). -/
def State.forceLp (s : State) (c : Nat) (v : Bool) : State := (s.put pgCAGE CAGE.CAGE_CTL_FORCE_LPMODE v c).cageEvent c (.forceLp v)

/-- CAGE_FORCE_LPMODE (R162). -/
def execCageForceLpmode (cage : Nat) (v : Bool) (s : State) : Host.Outcome State Fault Refusal :=
  .next (if cage < 64 then s.gate pgCAGE (·.forceLp cage v) else s)

/-- CAGE_POWER_CYCLE (R162). -/
def execCagePowerCycle (cage : Nat) (s : State) : Host.Outcome State Fault Refusal := .next (s.cageCmd cage .powerCycle)

/-- CAGE_POWER_CYCLE_END (R162). -/
def execCagePowerCycleEnd (cage : Nat) (s : State) : Host.Outcome State Fault Refusal :=
  .next (s.cageTimer cage 100 .cycleEnd)

/-- CAGE_FAULT_CLR (R162). -/
def execCageFaultClr (cage : Nat) (s : State) : Host.Outcome State Fault Refusal := .next (s.cageCmd cage .faultClr)

/-- CAGE_REMOVAL_DONE (R162). -/
def execCageRemovalDone (cage : Nat) (s : State) : Host.Outcome State Fault Refusal :=
  .next (s.cageTimer cage (s.rd pgCAGE CAGE.CAGE_TIMING_DEBOUNCE_MS) .removed)

/-- A write of CAGE_CTL of cage c: its fields, then the events its bits ask for (R162, R176). A cage that is no longer
managed returns to EMPTY, after a gap where one runs (R174). -/
def State.cageCtlWrite (s : State) (c v : Nat) : State :=
  let wasLp := s.on pgCAGE CAGE.CAGE_CTL_FORCE_LPMODE c
  let wasEn := s.cageEn c
  let s1 := s.wrWord pgCAGE c v [CAGE.CAGE_CTL_EN, CAGE.CAGE_CTL_AUTO, CAGE.CAGE_CTL_LOCATE]
  if wasEn ∧ ¬ bit v 0 then (s1.put pgCAGE CAGE.CAGE_CTL_FORCE_LPMODE (bit v 2) c).cageEvent c .off
  else
    let s2 := if bit v 2 ≠ wasLp then s1.forceLp c (bit v 2) else s1
    let s3 := if bit v 3 then s2.cageEvent c .powerCycle else s2
    let s4 := if bit v 4 then s3.cageEvent c .faultClr else s3
    if bit v 6 then s4.cageEvent c .manualReady else s4

/-! ### Module-management masters (R167 to R171) -/

/-- The result of master m: bytes moved and the error flags NACK, TIMEOUT, REFUSED, NOT_READY (R176). -/
def State.mmResult (s : State) (m tag status moved flags : Nat) : State :=
  s.result pgCAGE CAGE.MM_RES tag status [moved, flags] m

/-- A write of these bytes is protected while the cage has AUTO: lower-page bytes 26 to 31, or page 0x10 (R170). -/
def mmProtected (page offset len : Nat) : Bool :=
  decide (offset ≤ 31 ∧ 26 < offset + len) || (decide (page = 0x10) && decide (128 < offset + len))

/-- A command of master m (R169 to R171): refused with ERROR, or accepted to run in its turn. `sw`: software writes it, and not the
active service processor. -/
def State.mmCommand (s : State) (sw write : Bool) (m cage tag : Nat) : State :=
  let c : MmCmd :=
    { write := write, cage := cage, tag := tag, bank := s.rd pgCAGE CAGE.MM_ADDR_BANK m, page := s.rd pgCAGE CAGE.MM_ADDR_PAGE m,
      offset := s.rd pgCAGE CAGE.MM_ADDR_OFFSET m, len := s.rd pgCAGE CAGE.MM_ADDR_LEN m }
  let st := s.cageSt cage
  if cage / 8 ≠ m ∨ c.len = 0 ∨ 128 < c.len ∨ ¬ s.mmMode m then s.mmResult m tag ERROR 0 0
  else if ¬ (3 ≤ st ∧ st ≤ 5) then s.mmResult m tag ERROR 0 8
  else if sw ∧ write ∧ s.on pgCAGE CAGE.CAGE_CTL_AUTO cage ∧ mmProtected c.page c.offset c.len then s.mmResult m tag ERROR 0 4
  else
    ({ s with mmQueue := tset s.mmQueue m (tgetD s.mmQueue m [] ++ [c]) }.resStart pgCAGE CAGE.MM_RES m).mmView m

/-- MM_READ (R169). -/
def execMmRead (master cage tag : Nat) (s : State) : Host.Outcome State Fault Refusal :=
  .next (if master < 8 then s.gate pgCAGE (·.mmCommand true false master cage tag) else s)

/-- MM_WRITE (R170), by software. -/
def execMmWrite (master cage tag : Nat) (s : State) : Host.Outcome State Fault Refusal :=
  .next (if master < 8 then s.gate pgCAGE (·.mmCommand true true master cage tag) else s)

/-- The running command of master m leaves; the next one starts. -/
def State.mmPop (s : State) (m : Nat) : State :=
  { s with mmQueue := tset s.mmQueue m ((tgetD s.mmQueue m []).drop 1) }.mmView m

/-- Bytes stored in the data buffer of master m from byte 0; byte 4k of the buffer in bits [31:24] of word k (R869). -/
def State.mmFill (s : State) (m : Nat) (data : List Byte) : State :=
  let old := wordsToBytes ((List.range 32).map fun k => s.rd pgCAGE CAGE.MM_BUF (32 * m + k))
  let new := bytesToBeWords (patch old 0 data)
  (List.range 32).foldl (fun t k => t.wr pgCAGE CAGE.MM_BUF (new.getD k 0) (32 * m + k)) s

/-- The data buffer of master m as bytes (R176, R869). -/
def State.mmBytes (s : State) (m : Nat) : List Byte := wordsToBytes ((List.range 32).map fun k => s.rd pgCAGE CAGE.MM_BUF (32 * m + k))

/-- The bytes that the bring-up writes at a step (R172): DataPathDeinit cleared, or Application Select codes, which the firmware chooses
from what the module advertises (free values). -/
def State.bringUpBytes (s : State) (step : Nat) : List Byte × State :=
  if step = 3 then
    ((List.range 8).map fun k => byteOf (Config.freeValue (s.free + k)), { s with free := s.free + 8 })
  else ([byteOf 0], s)

/-- A transaction of the bring-up of cage q.cage has ended with this data (R172): the next step, or the same again on NACK or while
the module is not yet in ModuleReady. -/
def State.bringUpNext (s : State) (q : MmCmd) (data : List Byte) (nack : Bool) : State :=
  if ¬ s.bringsUp q.cage ∨ (s.cage q.cage).step ≠ q.step then s
  else if nack ∨ (q.step = 2 ∧ bits (data.getD 0 0).toNat 1 3 ≠ 3) then s.bringUp q.cage q.step
  else
    let k := s.cage q.cage
    (if q.step = 1 then s.setCage q.cage { k with lp := false } else s).bringUp q.cage (q.step + 1)

/-- The running command of master m ends with a status and flags; a transaction of a bring-up writes no result set, and is tried
again. -/
def State.mmEnd (s : State) (m status moved flags : Nat) : State :=
  match tgetD s.mmQueue m [] with
  | [] => s
  | q :: _ => if q.step = 0 then (s.mmResult m q.tag status moved flags).mmPop m else (s.mmPop m).bringUpNext q [] true

/-- What a transaction puts on the bus of master m: what it names, the mode and rates of MM_CTL (R168), and the bytes of a write. -/
def State.mmShown (s : State) (m : Nat) (q : MmCmd) (sent : List Byte) : List Nat :=
  [b2n q.write, q.cage, q.bank, q.page, q.offset, q.len, s.rd pgCAGE CAGE.MM_CTL_MODE m, s.rd pgCAGE CAGE.MM_CTL_I2C_RATE m,
    s.rd pgCAGE CAGE.MM_CTL_I3C_RATE m] ++ sent.map BitVec.toNat

/-- The running transaction of master m completes on the bus (R169): with the module's data for a read, or with NACK. -/
def State.mmDone (s : State) (m : Nat) (data : List Byte) (nack : Bool) : State :=
  match tgetD s.mmQueue m [] with
  | [] => s
  | q :: _ =>
    let d : List Byte × State := if ¬ q.write then ([], s) else if q.step = 0 then ((s.mmBytes m).take q.len, s) else s.bringUpBytes q.step
    let s1 := (d.2.emit (.mmBus m (s.mmShown m q d.1))).wr pgCAGE CAGE.MM_STS_STUCK 0 m
    if q.step ≠ 0 then (s1.mmPop m).bringUpNext q data nack else
    let moved := if q.write then (if nack then data.length else q.len) else min data.length q.len
    let s2 := if q.write then s1 else s1.mmFill m (data.take q.len)
    s2.mmEnd m (if nack then ERROR else DONE) moved (b2n nack)

/-- MM_TRANSACTION_DONE (R169). Master transactions stop during a switchover gap, and wait for two frames after a change of MM_SEL
(R167). -/
def execMmTransactionDone (master : Nat) (data : List Byte) (nack : Bool) (s : State) : Host.Outcome State Fault Refusal :=
  .next (if master < 8 ∧ ¬ s.cageHold ∧ s.mmReady master then s.gate pgCAGE (·.mmDone master data nack) else s)

/-- MM_ABORT (R64, R176): the oldest command of MM_CMD ends ABORTED, or the result shows ABORT_LATE. -/
def State.mmAbort (s : State) (m : Nat) : State :=
  let l := tgetD s.mmQueue m []
  match l.find? fun (q : MmCmd) => decide (q.step = 0) with
  | none => s.resLate pgCAGE CAGE.MM_RES m
  | some q => { s.mmResult m q.tag ABORTED 0 0 with mmQueue := tset s.mmQueue m (l.erase q) }.mmView m

/-- MM_ABORT (R176). -/
def execMmAbort (master _tag : Nat) (s : State) : Host.Outcome State Fault Refusal :=
  .next (if master < 8 then s.gate pgCAGE (·.mmAbort master) else s)

/-- MM_STRETCH_TIMEOUT (R171): ERROR with TIMEOUT. -/
def execMmStretchTimeout (master : Nat) (s : State) : Host.Outcome State Fault Refusal :=
  .next (if master < 8 then s.gate pgCAGE (·.mmEnd master ERROR 0 2) else s)

/-- MM_SDA_STUCK (R171): STUCK and cause bit 6; the master sends nine clocks and a STOP. -/
def execMmSdaStuck (master : Nat) (s : State) : Host.Outcome State Fault Refusal :=
  .next (if master < 8 ∧ s.live pgCAGE then
    ((s.wr pgCAGE CAGE.MM_STS_STUCK 1 master).emit (.mmBus master [9])).raise pgCAGE 6
  else s)

/-- A switchover gap begins: outputs are held, and a transaction cut short ends ERROR with TIMEOUT (R174, R175). The waiting ones run
after the gap. -/
def State.cagesHold (s : State) : State :=
  if s.live pgCAGE then (List.range 8).foldl (fun t m => t.mmEnd m ERROR 0 2) (s.wr pgCAGE CAGE.CSB_STS_OUT_HOLD 1) else s

end Sys2Proof.Machine
end

