-- ==== Sys2Proof/Machine/Coding.lean ====
section
/-! DEFINITION. Machine/Coding.lean: what a Drafa lane puts on the wire: the scrambler, the RS(264,256) code and the superframe (spec
12_drafa_fabric.md, R435, R436). Bytes go most significant bit first, into the scrambler and into the 10-bit symbols, and the first
symbol is the highest coefficient (DESIGN CHOICE: the rules give no order; notes/assumptions/26.md). -/

namespace Sys2Proof.Machine

/-! ### The scrambler (R435) -/

/-- The bits of a byte, the most significant first. -/
def bitsMsb (b : Byte) : List Bool := [7, 6, 5, 4, 3, 2, 1, 0].map fun k => b.toNat.testBit k

/-- The number that bits spell, the most significant first. -/
def numMsb (l : List Bool) : Nat := l.foldl (fun a b => 2 * a + b2n b) 0

/-- The self-synchronous scrambler x^58 + x^39 + 1 over a bit string: its register, the newest bit lowest, and the bits out. -/
def scramble : (reg : Nat) → List Bool → Nat × List Bool
  | reg, [] => (reg, [])
  | reg, d :: t =>
    let o := xor d (xor (reg.testBit 38) (reg.testBit 57))
    let r := scramble ((2 * reg + b2n o) % 2 ^ 58) t
    (r.1, o :: r.2)

/-! ### The code (R435) -/

/-- A product in GF(2^10) with field polynomial x^10 + x^3 + 1. -/
def gfMul (a b : Nat) : Nat :=
  (List.range 10).foldr (fun k r =>
    let d := if r.testBit 9 then Nat.xor (2 * r) 0x409 else 2 * r
    if b.testBit k then Nat.xor d a else d) 0

/-- α^n, with α = x. -/
def gfPow (n : Nat) : Nat := (List.range n).foldl (fun a _ => gfMul a 2) 1

/-- A polynomial, its highest coefficient first, times x + r. -/
def mulRoot (p : List Nat) (r : Nat) : List Nat := List.zipWith Nat.xor (p ++ [0]) (0 :: p.map (gfMul r))

/-- The generator with roots α^0 to α^7, its highest coefficient first. -/
def rsGenerator : List Nat := (List.range 8).foldl (fun p i => mulRoot p (gfPow i)) [1]

/-- The 8 parity symbols of a data string, the highest first. -/
def rsParity (data : List Nat) : List Nat :=
  let g := rsGenerator.drop 1
  data.foldl (fun (reg : List Nat) d =>
    let fb := Nat.xor d (reg.headD 0)
    List.zipWith Nat.xor (reg.drop 1 ++ [0]) (g.map (gfMul fb))) (List.replicate 8 0)

/-- A list cut into runs of n elements; `left` bounds their number. -/
def cutRuns {α : Type} (n : Nat) : (left : Nat) → List α → List (List α)
  | 0, _ => []
  | left + 1, l => if l.isEmpty then [] else l.take n :: cutRuns n left (l.drop n)

/-- A codeword of 320 data bytes: 256 data symbols and 80 parity bits, inverted where it is marked (R436). -/
def codeword (mark : Bool) (data : List Bool) : List Bool :=
  let par := (rsParity ((cutRuns 10 256 data).map numMsb)).flatMap fun v => [9, 8, 7, 6, 5, 4, 3, 2, 1, 0].map fun k => v.testBit k
  data ++ par.map fun b => xor b mark

/-- The superframe of 20 cells of 528 bytes (R436): the scrambler's register after it and its 33 codewords of 330 bytes, the first
of them marked. -/
def superframe (reg : Nat) (cells : List (List Byte)) : Nat × List (List Byte) :=
  let r := scramble reg (cells.flatten.flatMap bitsMsb)
  (r.1, (cutRuns 2560 33 r.2).zipIdx.map fun e => (cutRuns 8 330 (codeword (decide (e.2 = 0)) e.1)).map fun b => byteOf (numMsb b))

/-- A codeword corrects up to 4 symbol errors (R435). -/
def drafaFails (errs : Nat) : Bool := decide (4 < errs)

end Sys2Proof.Machine
end

