-- ==== Sys2Proof/Machine/Framing.lean ====
section
/-! DEFINITION. Machine/Framing.lean: FlexE groups, OTUCn framers, linear protection and one-second latches of the line
framing units (spec 06_line_framing.md, R178 to R226). LFU i is page pgLFU i; framer f lives in LFU 2f, protection pair j
in LFU 4j. -/

namespace Sys2Proof.Machine

def State.lfu (s : State) (i : Nat) : Lfu := tgetD s.lfus i {}
def State.setLfu (s : State) (i : Nat) (x : Lfu) : State := { s with lfus := tset s.lfus i x }

/-- A running counter of a list advances. -/
def addAt (l : List Nat) (n v : Nat) : List Nat := lset l n (l.getD n 0 + v)

/-! ### Calendars and maps (R188, R200, R225) -/

/-- A calendar or map of an LFU page. -/
inductive Cal where
  | txA | txB | rxA | rxB | mapA | mapB
  deriving DecidableEq, Repr

/-- The client and unused fields of a calendar's even and odd entries. -/
def Cal.fields : Cal → Fld × Fld × Fld × Fld
  | .txA => (LFU.TXCAL_A_CLIENT_E, LFU.TXCAL_A_UNUSED_E, LFU.TXCAL_A_CLIENT_O, LFU.TXCAL_A_UNUSED_O)
  | .txB => (LFU.TXCAL_B_CLIENT_E, LFU.TXCAL_B_UNUSED_E, LFU.TXCAL_B_CLIENT_O, LFU.TXCAL_B_UNUSED_O)
  | .rxA => (LFU.RXCAL_A_CLIENT_E, LFU.RXCAL_A_UNUSED_E, LFU.RXCAL_A_CLIENT_O, LFU.RXCAL_A_UNUSED_O)
  | .rxB => (LFU.RXCAL_B_CLIENT_E, LFU.RXCAL_B_UNUSED_E, LFU.RXCAL_B_CLIENT_O, LFU.RXCAL_B_UNUSED_O)
  | .mapA => (LFU.MAP_A_CLIENT_E, LFU.MAP_A_UNUSED_E, LFU.MAP_A_CLIENT_O, LFU.MAP_A_UNUSED_O)
  | .mapB => (LFU.MAP_B_CLIENT_E, LFU.MAP_B_UNUSED_E, LFU.MAP_B_CLIENT_O, LFU.MAP_B_UNUSED_O)

/-- The client entry that position x of a calendar names; none where it is unused. -/
def State.calEntry (s : State) (i : Nat) (c : Cal) (x : Nat) : Option Nat :=
  let p := pgLFU i
  match c.fields with
  | (ce, ue, co, uo) =>
    if x % 2 = 0 then (if s.on p ue (x / 2) then none else some (s.rd p ce (x / 2)))
    else (if s.on p uo (x / 2) then none else some (s.rd p co (x / 2)))

/-- The 100 Gb/s instances of the member ports of group i (R186, R188): slots of LNPi whose port is a FlexE PHY. -/
def State.groupInstances (s : State) (i : Nat) : Nat :=
  (List.range 16).foldl (fun a k =>
    let m := s.mac (16 * i + k)
    if bit (s.rd (pgLFU i) LFU.FLEXE_MEMBERS_SLOT_MASK) k ∧ m.mode = 2 then
      a + (match m.speed with | 3 => 1 | 4 => 2 | 5 => 4 | _ => 0) else a) 0

/-- Positions of a calendar or map: 20 for each instance of the group (R188), or 20 for each slice (R200). -/
def State.calLen (s : State) (i : Nat) (c : Cal) : Nat :=
  match c with
  | .mapA => 20 * min 16 (s.rd (pgLFU i) LFU.OTN_CFG_N)
  | .mapB => 20 * min 16 (s.rd (pgLFU i) LFU.OTN_CFG_N)
  | _ => 20 * min 32 (s.groupInstances i)

/-- Insertion by a key, in rising order. -/
def insertBy (k : Nat × Nat × Nat → Nat) (x : Nat × Nat × Nat) (l : List (Nat × Nat × Nat)) : List (Nat × Nat × Nat) :=
  l.takeWhile (fun y => decide (k y ≤ k x)) ++ x :: l.dropWhile fun y => decide (k y ≤ k x)

/-- The member PHYs of group i by ascending PHY number (R188): PHY number, slot of LNPi, 100 Gb/s instances. -/
def State.groupPhys (s : State) (i : Nat) : List (Nat × Nat × Nat) :=
  (List.range 16).foldl (fun (l : List (Nat × Nat × Nat)) k =>
    let m := s.mac (16 * i + k)
    if bit (s.rd (pgLFU i) LFU.FLEXE_MEMBERS_SLOT_MASK) k ∧ m.mode = 2 then
      insertBy (·.1) (s.rd (pgLFU i) LFU.PHY_NUM_PHY_NUM k, k, match m.speed with | 3 => 1 | 4 => 2 | 5 => 4 | _ => 0) l
    else l) []

/-- The positions that client entry e has in a calendar. -/
def State.calSlots (s : State) (i : Nat) (c : Cal) (e : Nat) : List Nat :=
  (List.range (s.calLen i c)).filter fun x => s.calEntry i c x = some e

def txCal (b : Nat) : Cal := if b = 0 then .txA else .txB
def rxCal (b : Nat) : Cal := if b = 0 then .rxA else .rxB
def otnMap (b : Nat) : Cal := if b = 0 then .mapA else .mapB

/-- The active calendars and maps of LFU i (R224). -/
def State.activeTx (s : State) (i : Nat) : Cal := txCal (s.rd (pgLFU i) LFU.SWITCH_STS_FLEXE_TX_CAL)
def State.activeRx (s : State) (i : Nat) : Cal := rxCal (s.rd (pgLFU i) LFU.SWITCH_STS_FLEXE_RX_CAL)
def State.activeTxMap (s : State) (i : Nat) : Cal := otnMap (s.rd (pgLFU i) LFU.SWITCH_STS_OTN_TX_MAP)
def State.activeRxMap (s : State) (i : Nat) : Cal := otnMap (s.rd (pgLFU i) LFU.SWITCH_STS_OTN_RX_MAP)

/-- All positions of a calendar or map (R225). -/
def Cal.size : Cal → Nat
  | .mapA => 320
  | .mapB => 320
  | _ => 640

/-- Entry e is named by the active calendar or map of either direction, at whatever position (R184). -/
def State.entryNamed (s : State) (i e : Nat) : Bool :=
  [s.activeTx i, s.activeRx i, s.activeTxMap i, s.activeRxMap i].any fun c =>
    (List.range c.size).any fun x => decide (s.calEntry i c x = some e)

/-- The active receive or transmit rate of entry e in slots: by its kind, calendar or map. -/
def State.clientSlots (s : State) (i e : Nat) : Nat :=
  if s.on (pgLFU i) LFU.CLIENT_KIND e then (s.calSlots i (s.activeRxMap i) e).length
  else (s.calSlots i (s.activeRx i) e).length

/-- Client entry e of LFU i is a valid terminated client (R182). -/
def State.terminated (s : State) (i e : Nat) : Bool :=
  s.on (pgLFU i) LFU.CLIENT_VALID e && s.on (pgLFU i) LFU.CLIENT_TERMINATE e

/-- The framer of LFU i delivers payload: enabled, no signal fail (R216). -/
def State.framerUp (s : State) (i : Nat) : Bool :=
  s.on (pgLFU i) LFU.LFU_CFG_OTN_EN && !s.on (pgLFU i) LFU.OTN_STS_OOF && !s.on (pgLFU i) LFU.OTN_STS_SF

/-- The controller page of the protection pair of LFU i (R180). -/
def pairOf (i : Nat) : Nat := 4 * (i / 4)

/-- The framer from which the ODUflex clients of LFU i are received: its own, or of a protected pair the selected one (R218). -/
def State.clientFramer (s : State) (i : Nat) : Nat :=
  let c := pairOf i
  if i % 2 = 0 ∧ s.on (pgLFU c) LFU.PROT_CTL_EN then (if s.on (pgLFU c) LFU.PROT_STS_SELECTED then c + 2 else c) else i

/-- The status word of client entry e (R190, R225), and the MAC link of the slot of a terminated client: a client receives
while its group or framer carries clients and its receive calendar or map gives it slots. -/
def State.clientView (s : State) (i e : Nat) : State :=
  let p := pgLFU i
  if s.on p LFU.CLIENT_VALID e then
    let carrier := if s.on p LFU.CLIENT_KIND e then s.framerUp (s.clientFramer i) else s.on p LFU.FLEXE_STS_GROUP_UP
    let n := s.clientSlots i e
    let up := carrier && decide (0 < n)
    let s1 := ((s.put p LFU.CLIENT_RX_UP up e).put p LFU.CLIENT_LF (s.terminated i e && !carrier) e).put p
      LFU.CLIENT_RATE_MISMATCH (decide (n ≠ s.rd p LFU.CLIENT_RATE_5G e)) e
    if s.terminated i e then s1.macLink (s.rd p LFU.CLIENT_PORT e) up else s1
  else ((s.wr p LFU.CLIENT_RX_UP 0 e).wr p LFU.CLIENT_LF 0 e).wr p LFU.CLIENT_RATE_MISMATCH 0 e

/-- Every client entry's status. -/
def State.clientViews (s : State) (i : Nat) : State := (List.range 64).foldl (fun t e => t.clientView i e) s

/-- The status of the clients that the framer of LFU i may carry: of its own page, or of both pages of a protected pair. -/
def State.framerViews (s : State) (i : Nat) : State :=
  if s.on (pgLFU (pairOf i)) LFU.PROT_CTL_EN then (s.clientViews (pairOf i)).clientViews (pairOf i + 2) else s.clientViews i

/-- A client bound to slot g may send: the active transmit calendar or map of its LFU names it (R197). A slot without a client has
no such condition. -/
def State.clientSends (s : State) (g : Nat) : Bool :=
  match (s.mac g).client with
  | none => true
  | some (i, e) => !(s.calSlots i (if s.on (pgLFU i) LFU.CLIENT_KIND e then s.activeTxMap i else s.activeTx i) e).isEmpty

/-- The client of a chosen kind whose positions differ between two calendars loses at most one frame, which straddles the
switch: a free bit is added to word 3 (R197). -/
def State.straddle (s : State) (i : Nat) (old new : Cal) (kind : Nat) : State :=
  (List.range 64).foldl (fun t e =>
    if t.on (pgLFU i) LFU.CLIENT_VALID e ∧ t.rd (pgLFU i) LFU.CLIENT_KIND e = kind ∧ t.calSlots i old e ≠ [] ∧
        t.calSlots i old e ≠ t.calSlots i new e then
      let d := t.draw 1
      d.2.inc (pgLFU i) LFU.CLIENT_STRADDLE_LOST d.1 e
    else t) s

/-! ### Client entries -/

/-- The rates a terminated client may have, in units of 5 Gb/s (R183). -/
def terminatedRates : List Nat := [2, 5, 10, 20, 40, 80, 160, 320]

/-- The word 0 write v of entry e with VALID is refused (R183). So is an ODUflex client of 10 Gb/s, which carries 25 Gb/s or more (R201;
DEDUCED: R183 does not list it, notes/assumptions/21.md). -/
def State.clientRefused (s : State) (i e v : Nat) : Bool :=
  let p := pgLFU i
  let rate := s.rd p LFU.CLIENT_RATE_5G e
  let slot := bits v 8 8
  if bit v 1 ∧ rate = 2 then true
  else if bit v 2 then
    decide ((s.mac slot).mode = 1) || !decide (rate ∈ terminatedRates) ||
      (List.range 16).any fun j => (List.range 64).any fun f =>
        !(decide (j = i) && decide (f = e)) && s.terminated j f && decide (s.rd (pgLFU j) LFU.CLIENT_PORT f = slot)
  else
    let j := s.rd p LFU.CLIENT_XC_LFU e
    let f := s.rd p LFU.CLIENT_XC_ENTRY e
    !(decide (rate = 2) || (decide (rate ≠ 0) && decide (rate % 5 = 0))) ||
      decide (s.rd (pgLFU j) LFU.CLIENT_RATE_5G f ≠ rate)

/-- The tributary slots that ODUflex(IMP) at the client's rate needs (R202): its bit rate of G.709, 239/238 of 66/64 of the
client's rate in 5G units, over the 5G slot payload (PRESUMED from G.709; notes/assumptions/21.md). -/
def tsNeed (rate5g : Nat) : Nat := (5177915 * rate5g + 5240885) / 5240886

/-- The slot of a terminated client is no longer bound, and its MAC link falls (R182). -/
def State.unbind (s : State) (i e : Nat) : State :=
  if s.terminated i e then
    let g := s.rd (pgLFU i) LFU.CLIENT_PORT e
    (s.setMac g { s.mac g with client := none }).macLink g false
  else s

/-- A terminated client is bound to its slot (R182). -/
def State.bind (s : State) (i e : Nat) : State :=
  if s.terminated i e then
    let g := s.rd (pgLFU i) LFU.CLIENT_PORT e
    s.setMac g { s.mac g with client := some (i, e) }
  else s

/-- A write of client-entry word 0 (R183, R184): ignored while an active calendar or map names the entry, refused with
VALID where R183 says so, both with cause bit 9. -/
def State.clientWrite0 (s : State) (i e v : Nat) : State :=
  let p := pgLFU i
  if s.entryNamed i e ∨ (bit v 0 ∧ s.clientRefused i e v) then s.raise p 9
  else
    let s1 := (s.unbind i e).wrWord p e v [LFU.CLIENT_VALID, LFU.CLIENT_KIND, LFU.CLIENT_TERMINATE, LFU.CLIENT_PORT, LFU.CLIENT_CLIENT_ID]
    let s2 := s1.wr p LFU.CLIENT_TS_NEED (if bit v 1 then tsNeed (s.rd p LFU.CLIENT_RATE_5G e) else 0) e
    (s2.bind i e).clientView i e

/-- A write of client-entry word 1 (R184). -/
def State.clientWrite1 (s : State) (i e v : Nat) : State :=
  let p := pgLFU i
  if s.entryNamed i e then s.raise p 9
  else
    let s1 := s.wrWord p e v [LFU.CLIENT_RATE_5G, LFU.CLIENT_XC_LFU, LFU.CLIENT_XC_ENTRY]
    (if s1.on p LFU.CLIENT_KIND e then s1.wr p LFU.CLIENT_TS_NEED (tsNeed (bits v 0 9)) e else s1).clientView i e

/-- LFU_CLIENT_WRITE (R183). -/
def execLfuClientWrite (lfu entry value : Nat) (s : State) : Host.Outcome State Fault Refusal :=
  .next (if lfu < 16 ∧ entry < 64 then s.gate (pgLFU lfu) (·.clientWrite0 lfu entry value) else s)

/-! ### FlexE calendar switch (R192 to R197) -/

/-- A switch trigger is refused with a cause and counted (R192, R196, R204). -/
def State.switchRefuse (s : State) (i cause : Nat) : State := (s.inc (pgLFU i) LFU.SW_REFUSED_COUNT).raise (pgLFU i) cause

/-- The standby transmit calendar gives some terminated FlexE client a slot count other than its RATE_5G; a client it does
not name is removed by the switch (R192, R197). -/
def State.calBad (s : State) (i : Nat) (c : Cal) : Bool :=
  (List.range 64).any fun e =>
    s.terminated i e && !s.on (pgLFU i) LFU.CLIENT_KIND e && !(s.calSlots i c e).isEmpty &&
      decide ((s.calSlots i c e).length ≠ s.rd (pgLFU i) LFU.CLIENT_RATE_5G e)

/-- A calendar switch trigger of group i (R192, R194, R196). -/
def State.flexeTrigger (s : State) (i : Nat) : State :=
  let p := pgLFU i
  let new := 1 - s.rd p LFU.SWITCH_STS_FLEXE_TX_CAL
  if s.on p LFU.SWITCH_STS_FLEXE_PENDING then s.switchRefuse i 10
  else if s.calBad i (txCal new) then s.switchRefuse i 9
  else
    (s.wr p LFU.SWITCH_STS_FLEXE_PENDING 1).setLfu i
      { s.lfu i with phase := if s.on p LFU.FLEXE_CTL_CR_CA_EN then 3 else 1, newCal := new, caFrom := s.ticks }

/-- FLEXE_SWITCH_TRIGGER (R192). -/
def execFlexeSwitchTrigger (lfu : Nat) (s : State) : Host.Outcome State Fault Refusal :=
  .next (if lfu < 16 then s.gate (pgLFU lfu) (·.flexeTrigger lfu) else s)

/-- The client number at n positions of a calendar from position x on, 0 where one is unused (R189). -/
def State.calNames (s : State) (i : Nat) (c : Cal) (x n : Nat) : List Nat :=
  (List.range n).map fun k =>
    match s.calEntry i c (x + k) with
    | some e => s.rd (pgLFU i) LFU.CLIENT_CLIENT_ID e
    | none => 0

/-- The overhead the group transmits on each of some PHYs, whose instances begin at calendar position x (R188, R189). -/
def State.flexePhys (s : State) (i : Nat) (map : List Nat) : (x : Nat) → List (Nat × Nat × Nat) → State
  | _, [] => s
  | x, (num, _, n) :: rest =>
    let p := pgLFU i
    (s.emit (.flexeOh p num [s.rd p LFU.FLEXE_GRP_GROUP_NUM, s.rd p LFU.FLEXE_OH_TX_C, s.rd p LFU.FLEXE_OH_TX_CR,
      s.rd p LFU.FLEXE_OH_TX_CA, b2n (!s.on p LFU.FLEXE_STS_GROUP_UP)] map (s.calNames i .txA x (20 * n)) (s.calNames i .txB x (20 * n)))).flexePhys
      i map (x + 20 * n) rest

/-- The overhead the group transmits (R189): on every PHY the group number, PHY map and PHY number, C, CR, CA, RPF and the client
calendars of its instances. -/
def State.flexeSend (s : State) (i : Nat) : State :=
  let l := s.groupPhys i
  s.flexePhys i (l.map (·.1)) 0 l

/-- An overhead frame of group i begins: an owed CA goes out, and a switch takes its next step (R193 to R195). -/
def State.ohFrame (s : State) (i : Nat) : State :=
  let p := pgLFU i
  let l := s.lfu i
  let s1 := match l.caOwed with
    | some c => (s.wr p LFU.FLEXE_OH_TX_CA c).setLfu i { l with caOwed := none }
    | none => s
  let l1 := s1.lfu i
  let s2 :=
    if l.phase = 1 then (s1.wr p LFU.FLEXE_OH_TX_C l.newCal).setLfu i { l1 with phase := 2 }
    else if l.phase = 3 then (s1.wr p LFU.FLEXE_OH_TX_CR l.newCal).setLfu i { l1 with phase := 4 }
    else if l.phase = 2 then
      let old := s1.activeTx i
      let s3 := (s1.wr p LFU.SWITCH_STS_FLEXE_TX_CAL l.newCal).setLfu i { l1 with phase := 0 }
      (((s3.wr p LFU.SWITCH_STS_FLEXE_PENDING 0).straddle i old (txCal l.newCal) 0).raise p 2).clientViews i
    else s1
  s2.flexeSend i

/-- FLEXE_OH_FRAME (R193). -/
def execFlexeOhFrame (lfu : Nat) (s : State) : Host.Outcome State Fault Refusal :=
  .next (if lfu < 16 ∧ s.live (pgLFU lfu) ∧ s.on (pgLFU lfu) LFU.LFU_CFG_FLEXE_EN then s.ohFrame lfu else s)

/-- The slots of a group's PHYs that pass a test, as a mask. -/
def phyMask (oh : FlexeOh) (f : FlexePhy → Bool) : Nat :=
  oh.phys.foldl (fun m (x : FlexePhy) => if f x then setBit m (x.slot % 16) else m) 0

/-- The received overhead of the members passes a test (R190). -/
def State.members (s : State) (i : Nat) (oh : FlexeOh) (f : FlexePhy → Bool) : Bool :=
  oh.phys.all fun (x : FlexePhy) => !bit (s.rd (pgLFU i) LFU.FLEXE_MEMBERS_SLOT_MASK) (x.slot % 16) || f x

/-- A received PHY number and PHY map match the configuration (R190): the number of the PHY's slot, and the members' numbers. -/
def State.phyOk (s : State) (i : Nat) (x : FlexePhy) : Bool :=
  let mine := (s.groupPhys i).map (·.1)
  decide (x.num = s.rd (pgLFU i) LFU.PHY_NUM_PHY_NUM (x.slot % 16)) && x.map.all (mine.contains ·) && mine.all (x.map.contains ·)

/-- The received client calendar agrees with the receive calendar in use (R191). -/
def State.calAgrees (s : State) (i : Nat) (oh : FlexeOh) : Bool :=
  let c := s.activeRx i
  decide ((if c = .rxA then oh.calA else oh.calB) = s.calNames i c 0 (s.calLen i c))

/-- Received overhead of group i (R190, R191). -/
def State.ohReceive (s : State) (i : Nat) (oh : FlexeOh) : State :=
  let p := pgLFU i
  let members := s.rd p LFU.FLEXE_MEMBERS_SLOT_MASK
  let lock := phyMask oh (·.locked)
  let mfLock := phyMask oh (·.mfLocked)
  let gidOk := s.members i oh fun x => decide (x.group = s.rd p LFU.FLEXE_GRP_GROUP_NUM)
  let mapOk := s.members i oh (s.phyOk i)
  let calOk := s.calAgrees i oh
  let lockOk := decide (andBits members lock = members)
  let mfOk := decide (andBits members mfLock = members)
  let skewOk := decide (oh.skew ≤ 1000)
  let up := decide (members ≠ 0) && mfOk && gidOk && mapOk && skewOk
  let lost := (s.on p LFU.FLEXE_STS_OHMF_LOCK && !mfOk) || (s.on p LFU.FLEXE_STS_OH_LOCK && !lockOk)
  let rise (f : Fld) (ok : Bool) : Bool := !ok && !s.on p f
  let bad := rise LFU.FLEXE_STS_GID_MISMATCH gidOk || rise LFU.FLEXE_STS_PHYMAP_MISMATCH mapOk ||
    rise LFU.FLEXE_STS_SKEW_FAIL skewOk || rise LFU.FLEXE_STS_CAL_MISMATCH calOk
  let s1 := s.wrAll p 0 [(LFU.FLEXE_STS_OH_LOCK, b2n lockOk), (LFU.FLEXE_STS_OHMF_LOCK, b2n mfOk),
    (LFU.FLEXE_STS_GID_MISMATCH, b2n (!gidOk)), (LFU.FLEXE_STS_PHYMAP_MISMATCH, b2n (!mapOk)),
    (LFU.FLEXE_STS_SKEW_FAIL, b2n (!skewOk)), (LFU.FLEXE_STS_CAL_MISMATCH, b2n (!calOk)), (LFU.FLEXE_STS_RPF, b2n oh.rpf),
    (LFU.FLEXE_STS_GROUP_UP, b2n up), (LFU.FLEXE_STS_LOCK_MASK, andBits members lock),
    (LFU.FLEXE_SKEW_SKEW_NS, min oh.skew 2047)]
  let l := s1.lfu i
  let s2 := s1.setLfu i
    { l with run := addAt (addAt (addAt l.run 5 oh.crcErrs) 6 oh.idleIns) 7 oh.idleDel, flexeDown := l.flexeDown || !up }
  ((s2.raiseIf lost p 0).raiseIf bad p 1).clientViews i

/-- FLEXE_OH_RECEIVE (R190). -/
def execFlexeOhReceive (lfu : Nat) (phys : List FlexePhy) (calA calB : List Nat) (rpf : Bool) (skew crcErrs idleIns idleDel : Nat) (s : State) :
    Host.Outcome State Fault Refusal :=
  .next (if lfu < 16 ∧ s.live (pgLFU lfu) ∧ s.on (pgLFU lfu) LFU.LFU_CFG_FLEXE_EN then
    s.ohReceive lfu ⟨phys, calA, calB, rpf, skew, crcErrs, idleIns, idleDel⟩
  else s)

/-- FLEXE_CA_RECEIVE (R194): CA is received; one that names the new calendar of a switch that sent CR lets it proceed. -/
def execFlexeCaReceive (lfu cal : Nat) (s : State) : Host.Outcome State Fault Refusal :=
  .next (if lfu < 16 ∧ s.live (pgLFU lfu) then
    let s1 := s.wr (pgLFU lfu) LFU.FLEXE_OH_RX_CA cal
    let l := s1.lfu lfu
    if l.phase = 4 ∧ cal % 2 = l.newCal then s1.setLfu lfu { l with phase := 1 } else s1
  else s)

/-- FLEXE_CA_TIMEOUT (R194): a switch that has waited CA_TIMEOUT_MS for CA is abandoned. The time counts from the trigger (DEDUCED: no rule
says whether it counts from there or from the CR; notes/assumptions/13.md). -/
def execFlexeCaTimeout (lfu : Nat) (s : State) : Host.Outcome State Fault Refusal :=
  .next (if lfu < 16 ∧ s.live (pgLFU lfu) ∧ ((s.lfu lfu).phase = 3 ∨ (s.lfu lfu).phase = 4) ∧
      (s.lfu lfu).caFrom + ticksMs (s.rd (pgLFU lfu) LFU.FLEXE_CTL_CA_TIMEOUT_MS) ≤ s.ticks then
    ((s.setLfu lfu { s.lfu lfu with phase := 0 }).wr (pgLFU lfu) LFU.SWITCH_STS_FLEXE_PENDING 0).switchRefuse lfu 10
  else s)

/-- FLEXE_CR_RECEIVE (R195): with CA_AUTO the CR is answered in the next transmitted overhead frame. -/
def execFlexeCrReceive (lfu cal : Nat) (s : State) : Host.Outcome State Fault Refusal :=
  .next (if lfu < 16 ∧ s.live (pgLFU lfu) then
    let s1 := s.wr (pgLFU lfu) LFU.FLEXE_OH_RX_CR cal
    if s.on (pgLFU lfu) LFU.FLEXE_CTL_CA_AUTO then s1.setLfu lfu { s1.lfu lfu with caOwed := some (cal % 2) } else s1
  else s)

/-- FLEXE_RX_C_CHANGE (R195, R197): the receive direction uses the calendar that the received C names. -/
def execFlexeRxCChange (lfu cal : Nat) (s : State) : Host.Outcome State Fault Refusal :=
  .next (if lfu < 16 ∧ s.live (pgLFU lfu) ∧ s.rd (pgLFU lfu) LFU.SWITCH_STS_FLEXE_RX_CAL ≠ cal % 2 then
    let p := pgLFU lfu
    let old := s.activeRx lfu
    let s1 := (s.wr p LFU.FLEXE_OH_RX_C cal).wr p LFU.SWITCH_STS_FLEXE_RX_CAL cal
    (s1.straddle lfu old (rxCal (cal % 2)) 0).clientViews lfu
  else if lfu < 16 ∧ s.live (pgLFU lfu) then s.wr (pgLFU lfu) LFU.FLEXE_OH_RX_C cal
  else s)

/-! ### OTUCn framers -/

/-- The MAC slot of the line side of the framer of LFU i (R179). -/
def State.otnSlot (s : State) (i : Nat) : Nat :=
  16 * (i + s.rd (pgLFU i) LFU.OTN_CFG_LNP_SEL) + s.rd (pgLFU i) LFU.OTN_CFG_PORT % 16

/-- The lanes of the line-side port of the framer of LFU i. -/
def State.otnLanes (s : State) (i : Nat) : List Nat :=
  let g := s.otnSlot i
  (List.range (lanesOf (s.mac g).width)).map fun k => g + k

/-- The port's lanes carry exactly N slices (R198, R199): two on a lane of 212.5 Gb/s, one on a lane of 106.25 Gb/s. -/
def State.otnFits (s : State) (i : Nat) : Bool :=
  let n := s.rd (pgLFU i) LFU.OTN_CFG_N
  let per (g : Nat) : Nat := match s.rd (lnp g) LNP.LANE_CTL_RATE (g % 16) with | 4 => 2 | 3 => 1 | _ => 0
  decide ((s.mac (s.otnSlot i)).mode = 3) && decide (1 ≤ n ∧ n ≤ 16) &&
    decide ((s.otnLanes i).foldl (fun a g => a + per g) 0 = n) && (s.otnLanes i).all fun g => decide (per g ≠ 0)

/-- OTN_EN is written 1 in LFU i (R199): the framer starts with every slice out of frame, or the write is refused. -/
def State.otnEnable (s : State) (i : Nat) : State :=
  let p := pgLFU i
  if i % 2 = 1 ∨ s.on p LFU.LFU_CFG_OTN_EN then s
  else if s.otnFits i then
    let n := s.rd p LFU.OTN_CFG_N
    (((s.wr p LFU.LFU_CFG_OTN_EN 1).setLfu i { s.lfu i with slices := [], oofAt := s.ticks, oomAt := s.ticks }).wr p
      LFU.OTN_SLICE_OOF_OOF (2 ^ n - 1)).wr p LFU.OTN_STS_OOF 1
  else s.raise p 9

/-- OTN_ENABLE (R199). -/
def execOtnEnable (lfu : Nat) (s : State) : Host.Outcome State Fault Refusal :=
  .next (if lfu < 16 then s.gate (pgLFU lfu) (·.otnEnable lfu) else s)

/-- The standby map gives an ODUflex client it names a count other than the slots it needs (R202). -/
def State.mapBad (s : State) (i : Nat) (c : Cal) : Bool :=
  (List.range 64).any fun e =>
    s.on (pgLFU i) LFU.CLIENT_VALID e && s.on (pgLFU i) LFU.CLIENT_KIND e && !(s.calSlots i c e).isEmpty &&
      decide ((s.calSlots i c e).length ≠ tsNeed (s.rd (pgLFU i) LFU.CLIENT_RATE_5G e))

/-- The map switch of one framer becomes pending (R204, R205). -/
def State.otnArm (s : State) (i : Nat) : State :=
  (s.wr (pgLFU i) LFU.SWITCH_STS_OTN_PENDING 1).setLfu i { s.lfu i with txDue := true, rxDue := true }

/-- The standby map of the framer of LFU i. -/
def State.standbyMap (s : State) (i : Nat) : Cal := otnMap (1 - s.rd (pgLFU i) LFU.SWITCH_STS_OTN_TX_MAP)

/-- A map switch trigger at LFU i (R204, R207): in a protected pair it is taken at LFU 4j for both framers and refused at
LFU 4j + 2. -/
def State.otnTrigger (s : State) (i : Nat) : State :=
  let p := pgLFU i
  if i % 2 = 1 then s
  else if i % 4 = 2 ∧ s.on (pgLFU (i - 2)) LFU.PROT_CTL_EN then s.switchRefuse i 9
  else
    let both := decide (i % 4 = 0) && s.on p LFU.PROT_CTL_EN
    if s.on p LFU.SWITCH_STS_OTN_PENDING ∨ (both ∧ s.on (pgLFU (i + 2)) LFU.SWITCH_STS_OTN_PENDING) then
      s.switchRefuse i 10
    else if s.mapBad i (s.standbyMap i) ∨ (both ∧ s.mapBad (i + 2) (s.standbyMap (i + 2))) then s.switchRefuse i 9
    else if both then (s.otnArm i).otnArm (i + 2) else s.otnArm i

/-- OTN_SWITCH_TRIGGER (R204). -/
def execOtnSwitchTrigger (lfu : Nat) (s : State) : Host.Outcome State Fault Refusal :=
  .next (if lfu < 16 then s.gate (pgLFU lfu) (·.otnTrigger lfu) else s)

/-- A direction of a pending map switch is done; when both are, the switch is complete (R205). -/
def State.otnDone (s : State) (i : Nat) : State :=
  let l := s.lfu i
  if l.txDue ∨ l.rxDue then s else ((s.wr (pgLFU i) LFU.SWITCH_STS_OTN_PENDING 0).raise (pgLFU i) 5).clientViews i

/-- OTN_TX_MAP_SWITCH (R205). -/
def execOtnTxMapSwitch (lfu : Nat) (s : State) : Host.Outcome State Fault Refusal :=
  .next (if lfu < 16 ∧ s.live (pgLFU lfu) ∧ (s.lfu lfu).txDue then
    let p := pgLFU lfu
    let old := s.rd p LFU.SWITCH_STS_OTN_TX_MAP
    let s1 := (s.wr p LFU.SWITCH_STS_OTN_TX_MAP (1 - old)).setLfu lfu { s.lfu lfu with txDue := false }
    (s1.straddle lfu (otnMap old) (otnMap (1 - old)) 1).otnDone lfu
  else s)

/-- OTN_RX_MAP_SWITCH (R205). -/
def execOtnRxMapSwitch (lfu : Nat) (s : State) : Host.Outcome State Fault Refusal :=
  .next (if lfu < 16 ∧ s.live (pgLFU lfu) ∧ (s.lfu lfu).rxDue then
    let p := pgLFU lfu
    let old := s.rd p LFU.SWITCH_STS_OTN_RX_MAP
    let s1 := (s.wr p LFU.SWITCH_STS_OTN_RX_MAP (1 - old)).setLfu lfu { s.lfu lfu with rxDue := false }
    (s1.straddle lfu (otnMap old) (otnMap (1 - old)) 1).otnDone lfu
  else s)

/-! ### Alignment (R208 to R212) -/

/-- The MFAS that the hits of a frame show at an offset; none where the offset misses the FAS. -/
def hitAt (hits : List (Nat × Nat)) (off : Nat) : Option Nat := (hits.find? fun h => h.1 = off).map (·.2)

/-- A candidate after a frame: one more match, or none where it is freed (R208, R209). A candidate that has matched no
frame yet, the locked offset after a loss (R210), takes the first MFAS as it comes. -/
def OtnCand.next (c : OtnCand) (chk : Bool) (hits : List (Nat × Nat)) : Option OtnCand :=
  match hitAt hits c.off with
  | none => none
  | some m => if chk ∧ c.hits ≠ 0 ∧ m ≠ (c.mfas + 1) % 256 then none else some { c with hits := c.hits + 1, mfas := m }

/-- New matches become candidates while one of the 4 trackers is free, the earliest first (R208); an offset that had a
tracker in this frame is no new match. -/
def addCands (old : List OtnCand) : List (Nat × Nat) → List OtnCand → List OtnCand
  | [], cs => cs
  | (o, m) :: t, cs =>
    if cs.length < 4 ∧ ¬ (old.any fun c => c.off = o) then addCands old t (cs ++ [⟨o, 1, m⟩]) else addCands old t cs

/-- A slice out of frame after a frame: in frame when a candidate has matched 3 frames, the earliest offset first (R209). -/
def OtnSlice.search (x : OtnSlice) (chk : Bool) (hits : List (Nat × Nat)) : OtnSlice :=
  let kept := x.cands.filterMap fun c => c.next chk hits
  let cs := addCands x.cands hits kept
  let won := (cs.filter fun c => 3 ≤ c.hits).foldl (fun (a : Option OtnCand) c =>
    match a with
    | none => some c
    | some b => if c.off < b.off then some c else some b) none
  match won with
  | some c => { x with inFrame := true, locked := c.off, mfas := c.mfas, misses := 0, mfasWrong := 0, cands := [] }
  | none => { x with cands := cs }

/-- An in-frame slice after a frame: 5 misses of the FAS in a row end the frame alignment (R210); the MFAS is followed,
and 5 wrong in a row are out of multiframe (R211). A missed frame carries no MFAS, and the count runs on. -/
def OtnSlice.follow (x : OtnSlice) (hits : List (Nat × Nat)) : OtnSlice :=
  match hitAt hits x.locked with
  | some m =>
    { x with misses := 0, mfas := m, mfasWrong := if m = (x.mfas + 1) % 256 then 0 else x.mfasWrong + 1 }
  | none =>
    if 4 ≤ x.misses then { x with inFrame := false, misses := 0, mfasWrong := 0, cands := [⟨x.locked, 0, 0⟩] }
    else { x with misses := x.misses + 1, mfas := (x.mfas + 1) % 256 }

/-! ### Linear protection (R214 to R219) -/

/-- A request to the protection controller: its rank in the priority order of G.873.1, its request code, and whether it
asks for the protection framer (PRESUMED from G.873.1; notes/assumptions/22.md). -/
structure ProtReq where
  rank : Nat
  code : Nat
  prot : Bool
  deriving DecidableEq, Repr

/-- The local requests of pair controller i that stand, with the command in force. -/
def State.localReqs (s : State) (i : Nat) : List ProtReq :=
  let p := pgLFU i
  let sel := s.on p LFU.PROT_STS_SELECTED
  let cond (b : Bool) (r : ProtReq) : List ProtReq := if b then [r] else []
  let cmd := (s.lfu i).cmd
  cond (decide (cmd = 2)) ⟨30, 15, false⟩ ++ cond (s.on p LFU.PROT_STS_SF_P) ⟨29, 12, false⟩ ++
    cond (decide (cmd = 3)) ⟨28, 14, true⟩ ++ cond (s.on p LFU.PROT_STS_SF_W) ⟨24, 12, true⟩ ++
    cond (s.on p LFU.PROT_STS_SD_W) ⟨20, 10, true⟩ ++ cond (s.on p LFU.PROT_STS_SD_P) ⟨20, 10, false⟩ ++
    cond (decide (cmd = 4)) ⟨16, 8, true⟩ ++ cond (decide (cmd = 5)) ⟨16, 8, false⟩ ++
    cond (s.on p LFU.PROT_STS_WTR_RUN) ⟨12, 6, true⟩ ++ cond (decide (cmd = 6)) ⟨8, 4, sel⟩

/-- The accepted far-end request, in the bidirectional architectures (R217). -/
def State.farReq (s : State) (i : Nat) : List ProtReq :=
  let p := pgLFU i
  let aps := s.rd p LFU.APS_ACCEPTED_APS
  let code := bits aps 28 4
  let prot := decide (bits aps 16 8 ≠ 0)
  let rank := if code = 12 ∧ ¬ prot then 29 else [0, 0, 0, 0, 8, 0, 12, 0, 16, 0, 20, 0, 24, 0, 28, 30].getD code 0
  if s.rd p LFU.PROT_CTL_ARCH = 0 ∨ rank = 0 then [] else [⟨rank, code, prot⟩]

/-- The highest of some requests; between equals the one that keeps the selector. -/
def topReq (sel : Bool) (l : List ProtReq) : Option ProtReq :=
  l.foldl (fun (a : Option ProtReq) r =>
    match a with
    | none => some r
    | some b => if b.rank < r.rank ∨ (b.rank = r.rank ∧ b.prot ≠ sel ∧ r.prot = sel) then some r else some b) none

/-- The APS/PCC bytes sent: request code, protection type, requested and bridged signal (G.873.1). -/
def State.apsValue (s : State) (i code : Nat) (prot : Bool) : Nat :=
  let p := pgLFU i
  let arch := s.rd p LFU.PROT_CTL_ARCH
  let kind := 8 + (if arch = 2 then 4 else 0) + (if arch = 0 then 0 else 2) + s.rd p LFU.PROT_CTL_REVERTIVE
  let bridged := if arch = 2 then b2n prot else 1
  code * 2 ^ 28 + kind * 2 ^ 24 + b2n prot * 2 ^ 16 + bridged * 2 ^ 8

/-- The requested signal sent and the one accepted disagree in a bidirectional architecture (R219). -/
def State.protDisagree (s : State) (i : Nat) : Bool :=
  let p := pgLFU i
  decide (s.rd p LFU.PROT_CTL_ARCH ≠ 0) &&
    decide (bits (s.rd p LFU.APS_TX_APS) 16 8 ≠ bits (s.rd p LFU.APS_ACCEPTED_APS) 16 8)

/-- Every terminated ODUflex client of LFU i may lose the frame that straddles a selector move (R197, R218). -/
def State.straddleMove (s : State) (i : Nat) : State :=
  (List.range 64).foldl (fun t e =>
    if t.terminated i e ∧ t.on (pgLFU i) LFU.CLIENT_KIND e then
      let d := t.draw 1
      d.2.inc (pgLFU i) LFU.CLIENT_STRADDLE_LOST d.1 e
    else t) s

/-- The selector goes where it is asked to; a move is counted and signalled, and the clients come from the framer selected (R218). -/
def State.protMove (s : State) (i : Nat) (prot : Bool) : State :=
  let p := pgLFU i
  if s.on p LFU.PROT_STS_PROT_FAIL ∨ s.on p LFU.PROT_STS_SELECTED = prot then s
  else ((((s.put p LFU.PROT_STS_SELECTED prot).incSat p LFU.PROT_SW_CNT_COUNT).straddleMove i).raise p 6).framerViews i

/-- The rank of the operator command in force. -/
def cmdRank (cmd : Nat) : Nat :=
  match cmd with
  | 2 => 30
  | 3 => 28
  | 4 => 16
  | 5 => 16
  | 6 => 8
  | _ => 0

/-- The rank of a request, 0 for none. -/
def rankOf (r : Option ProtReq) : Nat := (r.map (·.rank)).getD 0

/-- SF or SD of the working framer has ended in revertive operation with the selector at protection, and no request
stands: wait-to-restore starts (G.873.1). -/
def State.startsWtr (s : State) (i : Nat) : Bool :=
  let p := pgLFU i
  let was := s.rd p LFU.PROT_STS_LOCAL_REQ
  s.on p LFU.PROT_STS_SELECTED && s.on p LFU.PROT_CTL_REVERTIVE && decide (was = 12 ∨ was = 10) &&
    (s.localReqs i).isEmpty && (s.farReq i).isEmpty

/-- Wait-to-restore and the operator command before the choice: it starts, or a higher request ends it; a command that a
higher request stands above is not remembered (G.873.1). -/
def State.protPrepare (s : State) (i : Nat) : State :=
  let p := pgLFU i
  let top := rankOf (topReq (s.on p LFU.PROT_STS_SELECTED) (s.localReqs i ++ s.farReq i))
  let s1 := if s.startsWtr i then (s.setLfu i { s.lfu i with wtrFrom := s.ticks }).wr p LFU.PROT_STS_WTR_RUN 1 else if 12 < top then s.wr p LFU.PROT_STS_WTR_RUN 0 else s
  if cmdRank (s.lfu i).cmd < top then s1.setLfu i { s1.lfu i with cmd := 0 } else s1

/-- The request code sent: the own request, or a reverse request where the far end's stands higher. -/
def sentCode (mine all : Option ProtReq) (code : Nat) : Nat := if rankOf mine < rankOf all then 2 else code

/-- Since when the signals of pair i disagree (R219). -/
def State.disagreeView (s : State) (i : Nat) : State :=
  let l := s.lfu i
  s.setLfu i { l with disagreeFrom := if s.protDisagree i then some (l.disagreeFrom.getD s.ticks) else none }

/-- The controller of pair i chooses among its requests (R217, R218); with none in non-revertive operation the selector
stays (G.873.1). -/
def State.protEval (s : State) (i : Nat) : State :=
  let p := pgLFU i
  if ¬ s.on p LFU.PROT_CTL_EN then s
  else
    let sel := s.on p LFU.PROT_STS_SELECTED
    let s2 := s.protPrepare i
    let mine := topReq sel (s2.localReqs i)
    let all := topReq sel (s2.localReqs i ++ s2.farReq i)
    let target := (all.map (·.prot)).getD (sel && !s.on p LFU.PROT_CTL_REVERTIVE)
    let code := (mine.map (·.code)).getD (b2n target)
    let s3 := (s2.wr p LFU.PROT_STS_LOCAL_REQ code).wr p LFU.APS_TX_APS (s2.apsValue i (sentCode mine all code) target)
    let s4 := s3.put p LFU.PROT_STS_BRIDGED (target && decide (s.rd p LFU.PROT_CTL_ARCH = 2))
    let s5 := if s4.on p LFU.PROT_STS_PROT_FAIL ∧ ¬ s4.protDisagree i then s4.wr p LFU.PROT_STS_PROT_FAIL 0 else s4
    s5.disagreeView i |>.protMove i target

/-- PROT_CMD (R217): clear ends the command in force and wait-to-restore; the others take its place. -/
def State.protCommand (s : State) (i cmd : Nat) : State :=
  if i % 4 ≠ 0 ∨ cmd = 0 ∨ 6 < cmd then s
  else if cmd = 1 then ((s.setLfu i { s.lfu i with cmd := 0 }).wr (pgLFU i) LFU.PROT_STS_WTR_RUN 0).protEval i
  else (s.setLfu i { s.lfu i with cmd := cmd }).protEval i

/-- PROT_COMMAND (R217). -/
def execProtCommand (lfu cmd : Nat) (s : State) : Host.Outcome State Fault Refusal :=
  .next (if lfu < 16 then s.gate (pgLFU lfu) (·.protCommand lfu cmd) else s)

/-- The status bit of the request logic for SF or SD of a framer: 0 SF working, 1 SF protection, 2 SD working,
3 SD protection. -/
def protBit (which : Nat) : Fld :=
  match which with
  | 0 => LFU.PROT_STS_SF_W
  | 1 => LFU.PROT_STS_SF_P
  | 2 => LFU.PROT_STS_SD_W
  | _ => LFU.PROT_STS_SD_P

/-- SF (sd false) or SD of the framer of LFU i enters or leaves the request logic of its pair (R216): at once when it ends
or there is no hold-off; else the hold-off expires later. -/
def State.protSignal (s : State) (i : Nat) (sd b : Bool) : State :=
  let c := pairOf i
  let f := protBit (2 * b2n sd + b2n (decide (i % 4 = 2)))
  if ¬ b then (s.wr (pgLFU c) f 0).protEval c
  else if s.rd (pgLFU c) LFU.PROT_CTL_HOLDOFF = 0 then (s.wr (pgLFU c) f 1).protEval c
  else s.setLfu c { s.lfu c with heldFrom := lset (s.lfu c).heldFrom (2 * b2n sd + b2n (decide (i % 4 = 2))) s.ticks }

/-- PROT_HOLDOFF_EXPIRY (R216): the condition still stands after the hold-off and enters the request logic. -/
def execProtHoldoffExpiry (lfu which : Nat) (s : State) : Host.Outcome State Fault Refusal :=
  let f := if which % 2 = 0 then lfu else lfu + 2
  let cond := if which < 2 then LFU.OTN_STS_SF else LFU.OTN_STS_SD
  .next (if lfu < 16 ∧ lfu % 4 = 0 ∧ which < 4 ∧ s.live (pgLFU lfu) ∧ s.on (pgLFU f) cond ∧
      (s.lfu lfu).heldFrom.getD which 0 + ticksMs (100 * s.rd (pgLFU lfu) LFU.PROT_CTL_HOLDOFF) ≤ s.ticks then
    (s.wr (pgLFU lfu) (protBit which) 1).protEval lfu
  else s)

/-- PROT_WTR_EXPIRY (R217): wait-to-restore ends. -/
def execProtWtrExpiry (lfu : Nat) (s : State) : Host.Outcome State Fault Refusal :=
  .next (if lfu < 16 ∧ lfu % 4 = 0 ∧ s.live (pgLFU lfu) ∧ s.on (pgLFU lfu) LFU.PROT_STS_WTR_RUN ∧
      (s.lfu lfu).wtrFrom + ticksMs (60000 * s.rd (pgLFU lfu) LFU.PROT_CTL_WTR_MIN) ≤ s.ticks then
    ((s.wr (pgLFU lfu) LFU.PROT_STS_WTR_RUN 0).wr (pgLFU lfu) LFU.PROT_STS_LOCAL_REQ 0).protEval lfu
  else s)

/-- The signals of pair i have disagreed for 50 ms (R219). -/
def State.disagreeLong (s : State) (i : Nat) : Bool :=
  match (s.lfu i).disagreeFrom with
  | some t => s.protDisagree i && decide (t + ticksMs 50 ≤ s.ticks)
  | none => false

/-- PROT_FAIL_TIMEOUT (R219): 50 ms of disagreement in a bidirectional architecture. -/
def execProtFailTimeout (lfu : Nat) (s : State) : Host.Outcome State Fault Refusal :=
  .next (if lfu < 16 ∧ lfu % 4 = 0 ∧ s.live (pgLFU lfu) ∧ s.on (pgLFU lfu) LFU.PROT_CTL_EN ∧ s.disagreeLong lfu then
    (s.wr (pgLFU lfu) LFU.PROT_STS_PROT_FAIL 1).raise (pgLFU lfu) 7
  else s)

/-- A received APS/PCC value (R215): raw at once, accepted when it came in 3 consecutive APS multiframes. Only the
protection framer's path carries it (R214). -/
def State.apsReceive (s : State) (i v : Nat) : State :=
  if i % 4 ≠ 2 then s
  else
    let c := pairOf i
    let l := s.lfu c
    let n := if l.apsLast = v ∧ l.apsSame ≠ 0 then min 3 (l.apsSame + 1) else 1
    let s1 := (s.wr (pgLFU c) LFU.APS_RAW_APS v).setLfu c { l with apsLast := v, apsSame := n }
    if n = 3 ∧ s.rd (pgLFU c) LFU.APS_ACCEPTED_APS ≠ v % 2 ^ 32 then
      ((s1.wr (pgLFU c) LFU.APS_ACCEPTED_APS v).wr (pgLFU c) LFU.PROT_STS_FAR_REQ (bits v 28 4)).protEval c
    else s1

/-! ### The framer's frames and defects -/

/-- OTN_STS bits [13:0] of LFU i. -/
def State.otnDefects (s : State) (i : Nat) : Nat :=
    [LFU.OTN_STS_LOS, LFU.OTN_STS_OOF, LFU.OTN_STS_LOF, LFU.OTN_STS_OOM, LFU.OTN_STS_LOM, LFU.OTN_STS_OTU_AIS,
     LFU.OTN_STS_ODU_AIS, LFU.OTN_STS_ODU_OCI, LFU.OTN_STS_ODU_LCK, LFU.OTN_STS_BDI, LFU.OTN_STS_SD, LFU.OTN_STS_SF,
     LFU.OTN_STS_DESKEW_FAIL, LFU.OTN_STS_MSI_MISMATCH].foldl (fun a f => a + s.rd (pgLFU i) f * 2 ^ f.lo) 0

/-- LOS and SF of the framer follow their causes (R216); a declaration sets cause bit 8 and goes to the request logic. -/
def State.otnSignal (s : State) (i : Nat) : State :=
  let p := pgLFU i
  let los := (s.otnLanes i).any fun g => !s.on (lnp g) LNP.LANE_STS_SIG_DET (g % 16)
  let s1 := s.put p LFU.OTN_STS_LOS los
  let sf := los || [LFU.OTN_STS_LOF, LFU.OTN_STS_LOM, LFU.OTN_STS_DESKEW_FAIL, LFU.OTN_STS_OTU_AIS, LFU.OTN_STS_ODU_AIS,
    LFU.OTN_STS_ODU_LCK, LFU.OTN_STS_ODU_OCI].any fun f => s1.on p f
  let was := s.on p LFU.OTN_STS_SF
  let s2 := s1.put p LFU.OTN_STS_SF sf
  let s3 := s2.setLfu i { s2.lfu i with seen := orBits (s2.lfu i).seen (s2.otnDefects i) }
  if sf = was then s3 else ((s3.raiseIf sf p 8).protSignal i false sf).framerViews i

/-- OOF or OOM of the framer takes a value; the tick of a change starts its persistence (R211). -/
def State.otnOof (s : State) (i : Nat) (b : Bool) : State :=
  let s1 := if s.on (pgLFU i) LFU.OTN_STS_OOF = b then s else s.setLfu i { s.lfu i with oofAt := s.ticks }
  s1.put (pgLFU i) LFU.OTN_STS_OOF b
def State.otnOom (s : State) (i : Nat) (b : Bool) : State :=
  let s1 := if s.on (pgLFU i) LFU.OTN_STS_OOM = b then s else s.setLfu i { s.lfu i with oomAt := s.ticks }
  s1.put (pgLFU i) LFU.OTN_STS_OOM b

/-- Slice k of the framer after a frame, with the page's out-of-frame bits and count 4 (R208 to R211, R220). -/
def State.sliceFrame (s : State) (i k : Nat) (hits : List (Nat × Nat)) : State :=
  let p := pgLFU i
  let l := s.lfu i
  let x := tgetD l.slices k {}
  let chk := s.on p LFU.OTN_CFG_MFAS_CHK
  let y := if x.inFrame then x.follow hits else x.search chk hits
  let missed := x.inFrame && (hitAt hits x.locked).isNone
  let run := if missed then addAt l.run 4 1 else l.run
  let s1 := s.setLfu i { l with slices := tset l.slices k y, run := run }
  let oof := putBit (s.rd p LFU.OTN_SLICE_OOF_OOF) k (!y.inFrame)
  let s2 := (s1.wr p LFU.OTN_SLICE_OOF_OOF oof).otnOof i (decide (oof % 2 ^ s.rd p LFU.OTN_CFG_N ≠ 0))
  s2.otnOom i ((s1.lfu i).slices.any fun e => decide (5 ≤ e.2.mfasWrong))

/-- The BIP-8 of a payload: the sum of its bytes without carry (R203; ITU-T G.709). -/
def bip8 (l : List Byte) : Nat := l.foldl (fun a b => Nat.xor a b.toNat) 0

/-- The BIP-8 errors that a received byte shows against the payload of two frames before (R203; ITU-T G.709). -/
def bipErrors (known : List Nat) (got : Nat) : Nat :=
  match known with
  | [_, b] => popCount (Nat.xor b (got % 256)) 8
  | _ => 0

/-- The MSI of slice k by a map: for each slot the client entry, none where it is unused (R205, R206). The tributary port number is
the number of the client entry (DESIGN CHOICE: the spec gives the MSI no code; notes/assumptions/13.md). -/
def State.mapMsi (s : State) (i k : Nat) (c : Cal) : List (Option Nat) := (List.range 20).map fun t => s.calEntry i c (20 * k + t)

/-- The section and path of the framer carry a defect that its BDI reports to the far end (R203). -/
def State.sectionDefect (s : State) (i : Nat) : Bool :=
  [LFU.OTN_STS_LOS, LFU.OTN_STS_OOF, LFU.OTN_STS_LOF, LFU.OTN_STS_LOM, LFU.OTN_STS_DESKEW_FAIL, LFU.OTN_STS_OTU_AIS].any fun f => s.on (pgLFU i) f
def State.pathDefect (s : State) (i : Nat) : Bool :=
  s.sectionDefect i || [LFU.OTN_STS_ODU_AIS, LFU.OTN_STS_ODU_OCI, LFU.OTN_STS_ODU_LCK].any fun f => s.on (pgLFU i) f

/-- The frame that slice k sends while it receives one (R203, R205, R214): BIP-8 of the payload two frames before, the errors and
defects of the receive direction as BEI and BDI, the MSI of the active transmit map, and on the protection framer in frames with MFAS
bits [2:0] = 000 the APS/PCC bytes. -/
def State.otnSend (s : State) (i k smErrs pmErrs : Nat) (payload : List Byte) : State :=
  let l := s.lfu i
  let x := tgetD l.slices k {}
  let bip := x.txBips.getD 1 0
  let aps := if i % 4 = 2 ∧ k = 0 ∧ x.txMfas % 8 = 0 then [s.rd (pgLFU (pairOf i)) LFU.APS_TX_APS] else []
  let y := { x with txBips := bip8 payload :: x.txBips.take 1, txMfas := (x.txMfas + 1) % 256 }
  (s.setLfu i { l with slices := tset l.slices k y }).emit (.otnOh (pgLFU i) k
    ([x.txMfas, bip, smErrs, b2n (s.sectionDefect i), bip, pmErrs, b2n (s.pathDefect i)] ++ aps) (s.mapMsi i k (s.activeTxMap i)))

/-- The overhead of a received frame of slice k while no slice is out of frame (R203, R206, R212, R214 to R216): error counts,
maintenance signals, the received MSI held against the active receive map, and the skew of the slices against 2 µs; APS/PCC comes with
slice 0 in frames with MFAS bits [2:0] = 000. -/
def State.otnOverhead (s : State) (i k smErrs pmErrs : Nat) (oh : OtnOh) : State :=
  let p := pgLFU i
  let l := s.lfu i
  let x := tgetD l.slices k {}
  let y := { x with msiBad := match oh.msi with
                              | some m => decide (m ≠ s.mapMsi i k (s.activeRxMap i))
                              | none => x.msiBad }
  let run := addAt (addAt (addAt (addAt l.run 0 smErrs) 1 oh.smBei) 2 pmErrs) 3 oh.pmBei
  let slices := tset l.slices k y
  let skewed := decide (2000 < oh.skew)
  let msiBad := slices.any fun e => e.2.msiBad
  let newFail := (skewed && !s.on p LFU.OTN_STS_DESKEW_FAIL) || (msiBad && !s.on p LFU.OTN_STS_MSI_MISMATCH)
  let s1 := (s.setLfu i { l with run := run, sdRun := l.sdRun + pmErrs, slices := slices }).wrAll p 0 [(LFU.OTN_STS_OTU_AIS, b2n oh.otuAis),
    (LFU.OTN_STS_ODU_AIS, b2n oh.oduAis), (LFU.OTN_STS_ODU_OCI, b2n oh.oci), (LFU.OTN_STS_ODU_LCK, b2n oh.lck),
    (LFU.OTN_STS_BDI, b2n oh.bdi), (LFU.OTN_STS_DESKEW_FAIL, b2n skewed), (LFU.OTN_STS_MSI_MISMATCH, b2n msiBad)]
  let s2 := (s1.raiseIf newFail p 4).otnSignal i
  if k = 0 ∧ y.mfas % 8 = 0 then s2.apsReceive i oh.aps else s2

/-- A received OTUC frame of slice k (R203, R209, R226). The overhead of the ODUCn is decoded while no slice is out of frame; the
slice sends a frame in the same time. -/
def State.otnFrame (s : State) (i k : Nat) (hits : List (Nat × Nat)) (oh : OtnOh) : State :=
  let p := pgLFU i
  let s1 := s.sliceFrame i k hits
  let l := s1.lfu i
  let x := tgetD l.slices k {}
  let s2 := s1.setLfu i { l with slices := tset l.slices k { x with rxBips := bip8 oh.payload :: x.rxBips.take 1 } }
  if s1.on p LFU.OTN_STS_OOF then (s2.otnSignal i).otnSend i k 0 0 oh.txPayload
  else
    let sm := bipErrors x.rxBips oh.smBip
    let pm := bipErrors x.rxBips oh.pmBip
    (s2.otnOverhead i k sm pm oh).otnSend i k sm pm oh.txPayload

/-- OTN_FRAME (R209). -/
def execOtnFrame (lfu slice : Nat) (hits : List (Nat × Nat)) (oh : OtnOh) (s : State) : Host.Outcome State Fault Refusal :=
  .next (if lfu < 16 ∧ lfu % 2 = 0 ∧ s.live (pgLFU lfu) ∧ s.on (pgLFU lfu) LFU.LFU_CFG_OTN_EN ∧
      slice < s.rd (pgLFU lfu) LFU.OTN_CFG_N then
    s.otnFrame lfu slice hits oh
  else s)

/-- LOF_MS have passed since a tick (R211). -/
def State.lofPassed (s : State) (i at_ : Nat) : Bool := decide (at_ + ticksMs (s.rd (pgLFU i) LFU.OTN_CFG_LOF_MS) ≤ s.ticks)

/-- OTN_LOF_DECLARE (R211): the out-of-frame state, or the loss of MFAS, has lasted LOF_MS; each is declared by its own persistence. -/
def execOtnLofDeclare (lfu : Nat) (s : State) : Host.Outcome State Fault Refusal :=
  .next (if lfu < 16 ∧ lfu % 2 = 0 ∧ s.live (pgLFU lfu) ∧ s.on (pgLFU lfu) LFU.LFU_CFG_OTN_EN then
    let p := pgLFU lfu
    let lof := s.on p LFU.OTN_STS_OOF && s.lofPassed lfu (s.lfu lfu).oofAt
    let lom := s.on p LFU.OTN_STS_OOM && s.lofPassed lfu (s.lfu lfu).oomAt
    let new := (lof && !s.on p LFU.OTN_STS_LOF) || (lom && !s.on p LFU.OTN_STS_LOM)
    let s1 := if lof then s.wr p LFU.OTN_STS_LOF 1 else s
    let s2 := if lom then s1.wr p LFU.OTN_STS_LOM 1 else s1
    (s2.raiseIf new p 3).otnSignal lfu
  else s)

/-- OTN_LOF_CLEAR (R211): in-frame has lasted LOF_MS. LOM clears with it once the MFAS is right again. -/
def execOtnLofClear (lfu : Nat) (s : State) : Host.Outcome State Fault Refusal :=
  .next (if lfu < 16 ∧ lfu % 2 = 0 ∧ s.live (pgLFU lfu) ∧ ¬ s.on (pgLFU lfu) LFU.OTN_STS_OOF ∧ s.lofPassed lfu (s.lfu lfu).oofAt then
    let p := pgLFU lfu
    let s1 := s.wr p LFU.OTN_STS_LOF 0
    let s2 := if s.on p LFU.OTN_STS_OOM then s1 else s1.wr p LFU.OTN_STS_LOM 0
    s2.otnSignal lfu
  else s)

/-! ### One-second latches (R220 to R223) -/

/-- The latch of LFU i (R220 to R222): counters and defects copied and cleared, but for defects that stand, SEQ advanced, cause bit 12;
NT_INVALID shows a latch while network time is not valid. -/
def State.pmLatch (s : State) (i : Nat) (isPartial : Bool) : State :=
  let p := pgLFU i
  let l := s.lfu i
  let s1 := (List.range 8).foldl (fun t n => t.wr p LFU.PM_CNT (l.run.getD n 0) n) s
  let s2 := s1.wrAll p 0 [(LFU.PM_DEF_DEF, orBits l.seen (s.otnDefects i)),
    (LFU.PM_DEF_FLEXE_DOWN, b2n (l.flexeDown || !s.on p LFU.FLEXE_STS_GROUP_UP)), (LFU.PM_SEC_SEC, s.nt.sec),
    (LFU.PM_STS_SEQ, s.rd p LFU.PM_STS_SEQ + 1), (LFU.PM_STS_PARTIAL, b2n isPartial),
    (LFU.PM_STS_NT_INVALID, b2n (!s.on pgNTM NTM.NTM_STS_VALID)), (LFU.PM_STS_VALID, 1)]
  (s2.setLfu i { l with run := [0, 0, 0, 0, 0, 0, 0, 0], seen := s.otnDefects i, flexeDown := !s.on p LFU.FLEXE_STS_GROUP_UP
                        latchAt := s.ticks }).raise p 12

/-- A network-time second ends: SD follows the path BIP-8 errors of it (R216). -/
def State.sdJudge (s : State) (i : Nat) : State :=
  let p := pgLFU i
  let sd := decide (s.rd p LFU.OTN_SD_THR_COUNT ≤ (s.lfu i).sdRun) && s.on p LFU.LFU_CFG_OTN_EN
  let s1 := s.setLfu i { s.lfu i with sdRun := 0, secAt := some s.nt.sec }
  if sd = s.on p LFU.OTN_STS_SD then s1 else ((s1.put p LFU.OTN_STS_SD sd).raiseIf sd p 8).protSignal i true sd

/-- The nanoseconds of network time have just wrapped to 0: the clock of the model that shows it is the first or second of the
second (R220). -/
def State.secondWraps (s : State) : Bool := decide (s.nt.ns < 2)

/-- PM_SECOND_LATCH (R216, R220): a network-time second ends, once for each; SD is judged, and AUTO_SEC latches. -/
def execPmSecondLatch (lfu : Nat) (s : State) : Host.Outcome State Fault Refusal :=
  .next (if lfu < 16 ∧ s.live (pgLFU lfu) ∧ s.on pgNTM NTM.NTM_STS_VALID ∧ s.secondWraps ∧ (s.lfu lfu).secAt ≠ some s.nt.sec then
    let s1 := s.sdJudge lfu
    if s.on (pgLFU lfu) LFU.PM_CTL_AUTO_SEC then s1.pmLatch lfu false else s1
  else s)

/-- PM_LATCH (R221). -/
def execPmLatch (lfu : Nat) (s : State) : Host.Outcome State Fault Refusal :=
  .next (if lfu < 16 then s.gate (pgLFU lfu) (·.pmLatch lfu true) else s)

/-- PM_LATCH_FREE_RUN (R222): 10^9 ns of the unit's own count since the last latch, while network time is not valid. -/
def execPmLatchFreeRun (lfu : Nat) (s : State) : Host.Outcome State Fault Refusal :=
  .next (if lfu < 16 ∧ s.live (pgLFU lfu) ∧ ¬ s.on pgNTM NTM.NTM_STS_VALID ∧ (s.lfu lfu).latchAt + ticksMs 1000 ≤ s.ticks then
    s.pmLatch lfu false
  else s)

/-! ### Lanes of a framer (R100 to R102, R150, R216) -/

/-- The signal of lane g has changed: LOS and SF of the framer whose port holds the lane follow (R216). -/
def State.losFollow (s : State) (g : Nat) : State :=
  ((List.range 8).map (2 * ·)).foldl (fun (t : State) i =>
    if t.live (pgLFU i) ∧ t.on (pgLFU i) LFU.LFU_CFG_OTN_EN ∧ (t.otnLanes i).contains g then t.otnSignal i else t) s

/-- A write of LANE_CTL of lane g (R100 to R102). -/
def State.laneCtlWrite (s : State) (g v : Nat) : State := (s.laneCtlStore g v).losFollow g

/-- LANE_CTL_WRITE (R102). -/
def execLaneCtlWrite (lane v : Nat) (s : State) : Host.Outcome State Fault Refusal :=
  .next (if lane < 256 then s.gate (lnp lane) (·.laneCtlWrite lane v) else s)

/-- LANE_CDR_LOCK (R150): the lane detects signal, completes adaptation and recovers its clock. An unpowered, disabled or
receiver-off lane does not. -/
def execLaneCdrLock (lane ctle snr : Nat) (s : State) : Host.Outcome State Fault Refusal :=
  .next (if lane < 256 ∧ s.live (lnp lane) ∧ s.laneOn lane ∧ s.on (lnp lane) LNP.LANE_CTL_RX_EN (lane % 16) then
    (s.wrAll (lnp lane) (lane % 16) [(LNP.LANE_STS_SIG_DET, 1), (LNP.LANE_STS_ADAPT_DONE, 1), (LNP.LANE_STS_CDR_LOCK, 1),
      (LNP.RX_EQ_STS_CTLE, ctle), (LNP.RX_EQ_STS_SNR, snr)]).losFollow lane
  else s)

/-- CDR_LOCK_LOSS (R151): a locked lane loses CDR lock and cause bit 0 is set. Whether it still detects a signal is a free value: no rule
says it (notes/assumptions/12.md). -/
def execCdrLockLoss (lane : Nat) (s : State) : Host.Outcome State Fault Refusal :=
  .next (if lane < 256 ∧ s.live (lnp lane) ∧ s.on (lnp lane) LNP.LANE_STS_CDR_LOCK (lane % 16) then
    (((s.wr (lnp lane) LNP.LANE_STS_CDR_LOCK 0 (lane % 16)).wrFree (lnp lane) LNP.LANE_STS_SIG_DET (lane % 16)).raise (lnp lane) 0).losFollow
      lane
  else s)

/-! ### The lanes and the FEC behind a MAC slot (R109, R150) -/

/-- The slots of the PHY ports that carry what slot g sends and receives: its own, or those of the group or framer of its client. -/
def State.phySlots (s : State) (g : Nat) : List Nat :=
  if (s.mac g).mode = 1 then [g]
  else
    match (s.mac g).client with
    | none => []
    | some (i, e) =>
      if s.on (pgLFU i) LFU.CLIENT_KIND e then [s.otnSlot (s.clientFramer i)] else (s.groupPhys i).map fun x => 16 * i + x.2.1

/-- The lanes of those ports. -/
def State.phyLanes (s : State) (g : Nat) : List Nat :=
  (s.phySlots g).flatMap fun t => (List.range (lanesOf (s.mac t).width)).map (t + ·)

/-- A codeword with that many errors that touches a frame of slot g marks it (R109, R110). -/
def State.fecMarks (s : State) (g errs : Nat) : Bool := (s.phySlots g).any fun t => fecFails (s.mac t).fec errs

/-! ### Register writes with rules of their own (R184, R187, R196, R199) -/

/-- The calendars and maps with their first offset and length in bytes (R225). -/
def calRanges : List (Nat × Nat × Cal) :=
  [(0x8000, 0x500, .txA), (0x8800, 0x500, .txB), (0x9000, 0x500, .rxA), (0x9800, 0x500, .rxB), (0xA000, 0x280, .mapA),
   (0xA400, 0x280, .mapB)]

/-- A write to an offset of LFU i is ignored with cause bit 9: group settings while FLEXE_EN is 1 (R187), OTN_CFG while
OTN_EN is 1 (R199), an active calendar or map (R196, R204). -/
def State.lfuWriteIgnored (s : State) (i off : Nat) : Bool :=
  let p := pgLFU i
  let active := [s.activeTx i, s.activeRx i, s.activeTxMap i, s.activeRxMap i]
  (s.on p LFU.LFU_CFG_FLEXE_EN && (decide (off = 0x108 ∨ off = 0x10C) || decide (0x110 ≤ off ∧ off < 0x150))) ||
    (s.on p LFU.LFU_CFG_OTN_EN && decide (off = 0x180)) ||
    calRanges.any fun (b, n, c) => decide (b ≤ off ∧ off < b + n) && decide (c ∈ active)

/-- A word write to a client entry (words 0 and 1; the other words are read-only). -/
def State.lfuClientWord (s : State) (i off v : Nat) : State :=
  let e := (off - 0xB000) / 16
  match off % 16 with
  | 0 => s.clientWrite0 i e v
  | 4 => s.clientWrite1 i e v
  | _ => s

/-- LFU_CFG written (R199). -/
def State.lfuCfgWrite (s : State) (i v : Nat) : State :=
  let p := pgLFU i
  let s1 := s.put p LFU.LFU_CFG_FLEXE_EN (bit v 0)
  let s2 := if bit v 0 then s1 else (s1.wr p LFU.FLEXE_STS_GROUP_UP 0).clientViews i
  if i % 2 = 1 then s2 else if bit v 1 then s2.otnEnable i else (s2.wr p LFU.LFU_CFG_OTN_EN 0).framerViews i

end Sys2Proof.Machine
end

