-- ==== Sys2Proof/Machine/Pipeline.lean ====
section
/-! DEFINITION. Machine/Pipeline.lean: templates and the parser, the dealer, the classifier, the payload matcher and the
reorder unit (spec 07_parser_pipelines.md, R227 to R269, R871 to R873). -/

namespace Sys2Proof.Machine

/-! ### Templates (R230, R238, R266, R873) -/

/-- Word w of template t. -/
def State.tplWord (s : State) (t w : Nat) : Nat := s.rd pgPRS PRS.TEMPLATE (16 * t + w)

/-- The bits that the template words have (R266): unnamed bits are RSV. -/
def tplMask (w : Nat) : Nat :=
  match w with
  | 0 => 0xFFFFFFFF
  | 1 => 0x8000F3FF
  | 2 => 0xFFFFFFFF
  | 3 => 0x0000FFFF
  | 4 => 0xFFFFFFFF
  | 5 => 0x000001FF
  | _ => 0x003FFFFF

/-- The staged template has NK_MODE = 11 or a valid field with MARK = 11 (R873). -/
def State.tplBad (s : State) : Bool :=
  decide (bits (s.rd pgPRS PRS.TPL_STAGE_WORD 1) 8 2 = 3) ||
    (List.range 10).any fun k =>
      let w := s.rd pgPRS PRS.TPL_STAGE_WORD (6 + k)
      bit w 19 && decide (bits w 20 2 = 3)

/-- TPL_CMD commit (R238, R873). -/
def State.tplCommit (s : State) (t tag : Nat) : State :=
  if s.tplBad then (s.result pgPRS PRS.TPL_RES tag ERROR).raise pgPRS 1
  else
    ((List.range 16).foldl (fun a w =>
      a.wr pgPRS PRS.TEMPLATE (andBits (s.rd pgPRS PRS.TPL_STAGE_WORD w) (tplMask w)) (16 * t + w)) s).result pgPRS
        PRS.TPL_RES tag DONE

/-- TPL_CMD read: the template into the staging registers (R266). -/
def State.tplRead (s : State) (t tag : Nat) : State :=
  ((List.range 16).foldl (fun a w => a.wr pgPRS PRS.TPL_STAGE_WORD (s.tplWord t w) w) s).result pgPRS PRS.TPL_RES tag DONE

/-- TPL_CMD invalidate: the template's VALID bit clears (R266). -/
def State.tplInvalidate (s : State) (t tag : Nat) : State :=
  (s.wr pgPRS PRS.TEMPLATE (clrBit (s.tplWord t 1) 31) (16 * t + 1)).result pgPRS PRS.TPL_RES tag DONE

/-- TPL_COMMIT (R238). -/
def execTplCommit (index tag : Nat) (s : State) : Host.Outcome State Fault Refusal :=
  .next (s.gate pgPRS (·.tplCommit (index % 128) tag))

/-- TPL_READ (R266). -/
def execTplRead (index tag : Nat) (s : State) : Host.Outcome State Fault Refusal :=
  .next (s.gate pgPRS (·.tplRead (index % 128) tag))

/-- TPL_INVALIDATE (R266). -/
def execTplInvalidate (index tag : Nat) (s : State) : Host.Outcome State Fault Refusal :=
  .next (s.gate pgPRS (·.tplInvalidate (index % 128) tag))

/-! ### The parser (R230 to R237, R871) -/

/-- The lowest-numbered template that matches a key (R230). -/
def State.findTemplate (s : State) (key : Nat) : Option Nat :=
  (List.range 128).find? fun t =>
    bit (s.tplWord t 1) 31 && decide (andBits key (bits (s.tplWord t 0) 16 16) = bits (s.tplWord t 0) 0 16)

/-- The end of the parse window: byte 383, or the frame's end before its FCS (R73, R236). -/
def parseLimit (l : List Byte) : Nat := min 384 l.length

/-- n bytes from an offset, zero beyond a limit (R871). -/
def fieldBytes (l : List Byte) (limit off n : Nat) : List Byte :=
  (List.range n).map fun k => if off + k < limit then l.getD (off + k) 0 else 0

/-- The header fields of a frame while one template is applied, with the stop reason met first. -/
structure ParseSt where
  slots : Tbl (List Byte)
  l3 : Option Nat
  l4 : Option Nat
  reason : Option Nat
  deriving DecidableEq, Repr

/-- The first stop reason stands (R871). -/
def ParseSt.stop (x : ParseSt) (r : Nat) : ParseSt := { x with reason := x.reason.orElse fun _ => some r }

/-- The fields of a template with its base, in word order (R234 to R236, R871): a DEST of 48 or more ends the extraction. -/
def parseFields (l : List Byte) (limit base : Nat) : List Nat → ParseSt → ParseSt
  | [], x => x
  | w :: ws, x =>
    if ¬ bit w 19 then parseFields l limit base ws x
    else
      let off := base + bits w 0 9
      let n := bits w 9 4 + 1
      let dest := bits w 13 6
      if 48 ≤ dest then x.stop 5
      else
        let y := { x with slots := tset x.slots dest (fieldBytes l limit off n) }
        let y := match bits w 20 2 with
          | 1 => { y with l3 := some off }
          | 2 => { y with l4 := some off }
          | _ => y
        parseFields l limit base ws (if limit < off + n then y.stop 4 else y)

/-- The check of a template (R236). -/
def parseCheck (l : List Byte) (limit base w4 w5 : Nat) (x : ParseSt) : ParseSt :=
  if ¬ bit w5 8 then x
  else
    let off := base + bits w5 0 8
    if limit < off + 2 then x.stop 4
    else if andBits (beAt l off 2) (bits w4 16 16) ≠ bits w4 0 16 then x.stop 1
    else x

/-- The next key of a template (R233): none where a key byte lies beyond the limit. -/
def nextKey (l : List Byte) (limit base w1 w2 w3 : Nat) : Option Nat :=
  let const := bits w2 16 16
  if bits w1 8 2 = 2 then some const
  else
    let hi := base + bits w2 0 8
    let lo := base + bits w2 8 8
    if limit ≤ hi ∨ limit ≤ lo then none
    else some (orBits (andBits (beAt l hi 1 * 256 + beAt l lo 1) (bits w3 0 16)) const)

/-- A template applied to a frame: the fields, the check, then the next key (R871). `depth` is 0 for the first. The answer
is the fields and either the reason that ends the chain or the next key. -/
def State.applyTemplate (s : State) (l : List Byte) (t base depth : Nat) (x : ParseSt) : ParseSt × Option Nat :=
  let limit := parseLimit l
  let y := parseFields l limit base ((List.range 10).map fun k => s.tplWord t (6 + k)) x
  let z := parseCheck l limit base (s.tplWord t 4) (s.tplWord t 5) y
  let mode := bits (s.tplWord t 1) 8 2
  if z.reason.isSome then (z, none)
  else if mode = 0 then (z.stop 0, none)
  else if depth = 3 then (z.stop 3, none)
  else match nextKey l limit base (s.tplWord t 1) (s.tplWord t 2) (s.tplWord t 3) with
    | none => (z.stop 4, none)
    | some k => (z, some k)

/-- The chain of templates from a key: the last template that matched, its base, and the fields. `left` counts the
templates that may still follow. -/
def State.parseChain (s : State) (l : List Byte) :
    (left key base : Nat) → Option (Nat × Nat) → ParseSt → Option (Nat × Nat) × ParseSt
  | 0, _, _, last, x => (last, x)
  | left + 1, key, base, last, x =>
    match s.findTemplate key with
    | none => (last, x.stop 2)
    | some t =>
      match s.applyTemplate l t base (3 - left) x with
      | (y, none) => (some (t, base), y)
      | (y, some k) => s.parseChain l left k (base + bits (s.tplWord t 1) 0 8) (some (t, base)) y

/-- PARSE_FRAME (R871): the frame with its header vector, PARSE_REASON, starts and key profile (R235). A slot that was
written before the parse (R578) stands unless a field replaces it. -/
def State.parse (s : State) (f : Frame) : Frame :=
  match s.parseChain f.bytes 4 f.startKey 0 none ⟨f.slots, none, none, none⟩ with
  | (none, x) => { f with slots := x.slots, l3 := none, l4 := none, reason := x.reason.getD 0, payload := 0, keyProf := 0 }
  | (some (t, base), x) =>
    { f with slots := x.slots, l3 := x.l3, l4 := x.l4, reason := x.reason.getD 0
             payload := base + bits (s.tplWord t 1) 0 8, keyProf := bits (s.tplWord t 1) 12 4 }

/-- Header-vector slots joined in order, then zero-padded or cut to n bytes (R872). -/
def Frame.join (f : Frame) (slots : List Nat) (n : Nat) : List Byte :=
  let l := slots.flatMap fun k => tgetD f.slots k []
  l.take n ++ List.replicate (n - l.length) 0

/-! ### The classifier (R249 to R258) -/

/-- The slot of way w for a key (R250): way times 131,072 plus bucket. -/
def State.clsSlot (s : State) (w : Nat) (key : List Byte) : Nat :=
  w * 131072 + hash32c (s.rd pgCLS CLS.SEED_SEED w) key % 131072

/-- The KEY_LEN of profile k, 1 to 32 (R267). -/
def State.clsLen (s : State) (k : Nat) : Nat := max 1 (min 32 (s.rd pgCLS CLS.PROF_CFG_KEY_LEN k))

/-- A key cut to a profile's length and padded to 32 bytes (R249). -/
def clsPad (n : Nat) (key : List Byte) : List Byte := key.take n ++ List.replicate (32 - n) 0

/-- The slots of profile k's parts (R249, R267). -/
def State.clsParts (s : State) (k : Nat) : List Nat :=
  ([CLS.PROF_SLOTS_PART0, CLS.PROF_SLOTS_PART1, CLS.PROF_SLOTS_PART2, CLS.PROF_SLOTS_PART3, CLS.PROF_SLOTS2_PART4,
    CLS.PROF_SLOTS2_PART5, CLS.PROF_SLOTS2_PART6, CLS.PROF_SLOTS2_PART7].map fun f => s.rd pgCLS f k).take
      (s.rd pgCLS CLS.PROF_CFG_PARTS k + 1)

/-- The entry of a copy for a profile and key: the slot and the entry. -/
def State.clsFind (s : State) (copy : Tbl ClsEntry) (prof : Nat) (key : List Byte) : Option (Nat × ClsEntry) :=
  let full := clsPad (s.clsLen prof) key
  ([0, 1, 2, 3].map fun w => s.clsSlot w (full.take (s.clsLen prof))).findSome? fun q =>
    match tget copy q with
    | some e => if e.prof = prof ∧ e.key = full then some (q, e) else none
    | none => none

/-- A way of a key holds an entry with a double-bit error (R90, R267). -/
def State.clsDead (s : State) (copy : Tbl ClsEntry) (prof : Nat) (key : List Byte) : Bool :=
  [0, 1, 2, 3].any fun w => ((tget copy (s.clsSlot w ((clsPad (s.clsLen prof) key).take (s.clsLen prof)))).map (·.dead)).getD false

/-- CLASSIFY_FRAME (R249, R250): the action words of a frame in a pipeline, with the lookup counted. One that reads an entry with a
double-bit error sets cause 2 and takes the action DROP (R90, R251). -/
def State.classify (s : State) (f : Frame) (pipe : Nat) : State × Frame :=
  let k := f.keyProf
  let s1 := s.cnt pgCLS CLS.CLS_CNT 0
  let miss := (s1.cnt pgCLS CLS.CLS_CNT 2, { f with act := [s.rd pgCLS CLS.MISS_ACT_ACT k, 0, 0, 0] })
  if ¬ s.on pgCLS CLS.PROF_CFG_VALID k then miss
  else if s.clsDead (if pipe < 10 then s.cls0 else s.cls1) k (f.join (s.clsParts k) (s.clsLen k)) then
    (s1.raise pgCLS 2, { f with act := [32, 0, 0, 0] })
  else
    match s.clsFind (if pipe < 10 then s.cls0 else s.cls1) k (f.join (s.clsParts k) (s.clsLen k)) with
    | some (_, e) => (s1.cnt pgCLS CLS.CLS_CNT 1, { f with act := e.act })
    | none => miss

/-- The slots that an entry may move to from the slot it holds (R252). -/
def State.clsOthers (s : State) (e : ClsEntry) (q : Nat) : List Nat :=
  (([1, 2, 3].map fun d => (q / 131072 + d) % 4).map fun w => s.clsSlot w (e.key.take (s.clsLen e.prof)))

/-- Paths one move longer: from the slot that ends each path to the other slots of its occupant. A path is kept last slot
first. -/
def State.clsGrow (s : State) (copy : Tbl ClsEntry) (paths : List (List Nat)) : List (List Nat) :=
  paths.flatMap fun p =>
    match p with
    | [] => []
    | q :: _ =>
      match tget copy q with
      | none => []
      | some e => ((s.clsOthers e q).filter fun x => !p.contains x).map fun x => x :: p

/-- The shortest relocation path, breadth first, of at most `left` further moves (R252). -/
def State.clsSearch (s : State) (copy : Tbl ClsEntry) : (left : Nat) → List (List Nat) → Option (List Nat)
  | 0, paths => paths.find? fun p => (tget copy (p.headD 0)).isNone
  | left + 1, paths =>
    match paths.find? fun p => (tget copy (p.headD 0)).isNone with
    | some p => some p
    | none => s.clsSearch copy left (s.clsGrow copy paths)

/-- A path applied from its far end backwards (R253): each occupant moves to the slot before it in the list, and the new
entry takes the last slot of the list. -/
def clsApply (e : ClsEntry) : List Nat → Tbl ClsEntry → Tbl ClsEntry
  | [], t => t
  | [q], t => tset t q e
  | q :: r :: rest, t =>
    clsApply e (r :: rest) (match tget t r with | some x => tset t q x | none => t)

/-- The greedy path (R252): the entry takes a slot, and its occupant goes on to the way after the one entered, up to
`left` moves. The answer is the table and the moves made. -/
def State.clsGreedy (s : State) (e : ClsEntry) (q moves : Nat) : (left : Nat) → Tbl ClsEntry → Option (Tbl ClsEntry × Nat)
  | 0, t => match tget t q with
    | none => some (tset t q e, moves)
    | some _ => none
  | left + 1, t => match tget t q with
    | none => some (tset t q e, moves)
    | some x => s.clsGreedy x (s.clsSlot ((q / 131072 + 1) % 4) (x.key.take (s.clsLen x.prof))) (moves + 1) left (tset t q e)

/-- The CLS_RES word 1. -/
def clsWord1 (err moves : Nat) (paused : Bool) : Nat := err + moves * 256 + b2n paused * 65536

/-- The number of valid entries shows (R267). -/
def State.clsCount (s : State) : State := s.wr pgCLS CLS.ENTRY_CNT_COUNT s.cls0.length

/-- An insert ends NO_ROOM (R252, R258, R267). -/
def State.clsNoRoom (s : State) (tag : Nat) : State := (s.result pgCLS CLS.CLS_RES tag ERROR [clsWord1 1 0 false]).raise pgCLS 0

/-- Both copies take a table, and the insert ends DONE (R253). -/
def State.clsDone (s : State) (tag slot moves : Nat) (t : Tbl ClsEntry) (paused late : Bool) : State :=
  ({ s with cls0 := t, cls1 := t, clsRun := none }.clsCount).result pgCLS CLS.CLS_RES tag DONE
    [clsWord1 0 moves paused, slot % 131072 + (slot / 131072) * 2 ^ 17] 0 late

/-- The bytes the ingress hold has reserved (R229, R874): frames in the hold, in the pipelines, at ORD and on their way
over the Band. A host frame lies in DMA staging and takes no hold space. -/
def Frame.holdBytes (f : Frame) : Nat := if f.ctx < 256 then f.len else 0

/-- The frames that take hold space. -/
def State.holdFrames (s : State) : List Frame :=
  s.ingress ++ s.piped.map (·.frame) ++ s.toQd ++ s.ords.flatMap fun c => c.2.held.map fun h => h.2.frame

def State.holdUsed (s : State) : Nat := (s.holdFrames.map Frame.holdBytes).foldl (· + ·) 0

/-- Spacing and hold occupancy allow a pause (R255). -/
def State.clsMayPause (s : State) : Bool :=
  (match s.clsPaused with
    | some t => decide (ticksUs (max 100 (s.rd pgCLS CLS.PAUSE_CFG_SPACING_US)) ≤ s.ticks - t)
    | none => true) && decide (s.holdUsed ≤ s.rd pgCLS CLS.PAUSE_CFG_HOLD_LOW * 16384)

/-- A greedy insert: applied at once up to 8 moves, else through pauses where they are allowed (R252, R254, R258). -/
def State.clsLong (s : State) (e : ClsEntry) (tag q : Nat) : State :=
  match s.clsGreedy e q 0 64 s.cls0 with
  | none => s.clsNoRoom tag
  | some (t, m) =>
    if m ≤ 8 then s.clsDone tag q m t false false
    else if ¬ s.on pgCLS CLS.CLS_CTL_PAUSE_EN then s.clsNoRoom tag
    else
      ((({ s with clsRun := some { tag := tag, result := t, moves := m, slot := q } }.resStart pgCLS CLS.CLS_RES).put pgCLS
        CLS.CLS_STS_WAIT_SPACING (!s.clsMayPause)).wr pgCLS COMMON.PAGE_STS_BUSY 1).cnt pgCLS CLS.CLS_CNT 4

/-- The staged key of a CLS command, by its profile. -/
def State.clsCmdKey (s : State) (prof : Nat) : List Byte :=
  clsPad (s.clsLen prof) (wordsToBytes ((List.range 8).map fun k => s.rd pgCLS CLS.CMD_KEY_KEY k))

/-- A CLS command other than abort while an insert runs is ignored with cause bit 3 (R267, R868). -/
def State.clsCmd (s : State) (f : State → State) : State := if s.clsRun.isSome then s.raise pgCLS 3 else f s

/-- CLS_CMD insert (R249, R252, R267). -/
def State.clsInsert (s : State) (prof : Nat) (replace : Bool) (tag : Nat) : State :=
  let key := s.clsCmdKey prof
  let e : ClsEntry := { prof := prof, key := key, act := (List.range 4).map fun k => s.rd pgCLS CLS.CMD_ACT_ACT k }
  let err (n : Nat) : State := s.result pgCLS CLS.CLS_RES tag ERROR [clsWord1 n 0 false]
  if ¬ s.on pgCLS CLS.PROF_CFG_VALID prof then err 4
  else match s.clsFind s.cls0 prof key with
    | some (q, _) => if replace then s.clsDone tag q 0 (tset s.cls0 q e) false false else err 3
    | none =>
      let start := [0, 1, 2, 3].map fun w => s.clsSlot w (key.take (s.clsLen prof))
      match s.clsSearch s.cls0 8 (start.map fun q => [q]) with
      | some p => s.clsDone tag (p.getLastD 0) (p.length - 1) (clsApply e p s.cls0) false false
      | none => s.clsLong e tag (start.headD 0)

/-- CLS_INSERT (R252). -/
def execClsInsert (profile : Nat) (replace : Bool) (tag : Nat) (s : State) : Host.Outcome State Fault Refusal :=
  .next (s.gate pgCLS (·.clsCmd (·.clsInsert (profile % 16) replace tag)))

/-- The pipelines of a copy, and the field that shows its pause. -/
def copyIpps (first : Bool) : List Nat := (List.range 10).map fun k => pgIPP (if first then 10 + k else k)
def copyPaused (first : Bool) : Fld := if first then CLS.CLS_STS_PAUSED_C1 else CLS.CLS_STS_PAUSED_C0

/-- The dealer stops or resumes dealing to the ten pipelines of a copy (R254). -/
def State.clsPauseView (s : State) (first on : Bool) : State :=
  (copyIpps first).foldl (fun (t : State) p => t.put p IPP.IPP_STS_PAUSED on) (s.put pgCLS (copyPaused first) on)

/-- A pause begins (R254): its length, at most 1.2 µs, which is 960 timing clocks, is a free value. -/
def State.clsPauseStart (s : State) (r : ClsRun) : State :=
  let d := s.draw 10
  let s1 := (d.2.clsPauseView r.first true).wr pgCLS CLS.CLS_STS_WAIT_SPACING 0
  ({ s1 with clsPauseEnd := some (s.ticks + 1 + d.1 % 960) }.cnt pgCLS CLS.CLS_CNT 3).raise pgCLS 1

/-- CLS_PAUSE (R254, R255): a pause of copy 0, then of copy 1, begins once R255 allows it. -/
def execClsPause (s : State) : Host.Outcome State Fault Refusal :=
  .next (match s.clsRun with
    | none => s
    | some r => if ¬ s.live pgCLS ∨ s.clsPauseEnd.isSome ∨ ¬ s.clsMayPause then s else s.clsPauseStart r)

/-- A pause ends (R254, R256): its copy holds the path and dealing resumes; the second one commits the insert. -/
def State.clsPauseOver (s : State) (r : ClsRun) : State :=
  let s1 := { s.clsPauseView r.first false with clsPauseEnd := none, clsPaused := some s.ticks }
  if r.first then (s1.clsDone r.tag r.slot r.moves r.result true r.late).wr pgCLS COMMON.PAGE_STS_BUSY 0
  else { s1 with cls0 := r.result, clsRun := some { r with first := true } }

/-- The classifier in one timing clock, three of its own (R254, R255, R264): a pause counts on its pipelines and ends in its time;
without one, WAIT_SPACING shows whether R255 holds the command. -/
def State.clsTick (s : State) : State :=
  match s.clsRun with
  | none => s
  | some r =>
    match s.clsPauseEnd with
    | none => s.put pgCLS CLS.CLS_STS_WAIT_SPACING (!s.clsMayPause)
    | some e =>
      let s1 := (copyIpps r.first).foldl (fun (t : State) p => t.inc p IPP.PAUSE_CLK 3) s
      if e ≤ s.ticks then s1.clsPauseOver r else s1

/-- CLS_CMD delete (R267). A profile that is not valid ends any command PROFILE_INVALID (DEDUCED, notes/assumptions/24.md). -/
def State.clsDelete (s : State) (prof tag : Nat) : State :=
  if ¬ s.on pgCLS CLS.PROF_CFG_VALID prof then s.result pgCLS CLS.CLS_RES tag ERROR [clsWord1 4 0 false]
  else match s.clsFind s.cls0 prof (s.clsCmdKey prof) with
  | some (q, _) => s.clsDone tag q 0 (tdel s.cls0 q) false false
  | none => s.result pgCLS CLS.CLS_RES tag ERROR [clsWord1 2 0 false]

/-- CLS_CMD read (R267). -/
def State.clsRead (s : State) (prof tag : Nat) : State :=
  if ¬ s.on pgCLS CLS.PROF_CFG_VALID prof then s.result pgCLS CLS.CLS_RES tag ERROR [clsWord1 4 0 false]
  else match s.clsFind s.cls0 prof (s.clsCmdKey prof) with
  | some (q, e) => s.result pgCLS CLS.CLS_RES tag DONE ([0, q % 131072 + (q / 131072) * 2 ^ 17] ++ e.act)
  | none => s.result pgCLS CLS.CLS_RES tag ERROR [clsWord1 2 0 false]

/-- CLS_CMD abort (R257): before the first move is written the insert ends ABORTED; later it is resolved late. -/
def State.clsAbort (s : State) : State :=
  match s.clsRun with
  | none => s.resLate pgCLS CLS.CLS_RES
  | some r =>
    if r.first then { s with clsRun := some { r with late := true } }
    else
      let s1 := { s.clsPauseView false false with clsRun := none, clsPauseEnd := none }
      ((s1.result pgCLS CLS.CLS_RES r.tag ABORTED).wr pgCLS CLS.CLS_STS_WAIT_SPACING 0).wr pgCLS COMMON.PAGE_STS_BUSY 0

/-- CLS_DELETE (R267). -/
def execClsDelete (profile tag : Nat) (s : State) : Host.Outcome State Fault Refusal :=
  .next (s.gate pgCLS (·.clsCmd (·.clsDelete (profile % 16) tag)))

/-- CLS_READ (R267). -/
def execClsRead (profile tag : Nat) (s : State) : Host.Outcome State Fault Refusal :=
  .next (s.gate pgCLS (·.clsCmd (·.clsRead (profile % 16) tag)))

/-- CLS_ABORT (R257). The result keeps the tag of the command it ends. -/
def execClsAbort (_tag : Nat) (s : State) : Host.Outcome State Fault Refusal := .next (s.gate pgCLS (·.clsAbort))

/-! ### The payload matcher (R259 to R263, R268) -/

/-- A pattern matches a payload at some offset (R259). -/
def patMatches (w : List Nat) (payload : List Byte) : Bool :=
  let cfg := w.getD 16 0
  let range := w.getD 17 0
  let len := min 32 (bits cfg 0 6)
  let val := wordsToBytes (w.take 8)
  let mask := wordsToBytes ((w.drop 8).take 8)
  let lo := bits range 0 9
  let hi := bits range 16 9
  (List.range (hi + 1 - lo)).any fun k =>
    let o := lo + k
    decide (o + len ≤ min 512 payload.length) &&
      (List.range len).all fun i =>
        let m := mask.getD i 0
        decide ((payload.getD (o + i) 0 &&& m) = (val.getD i 0 &&& m))

/-- The scan of a frame over the patterns of its groups (R259, R260). -/
def State.scan (s : State) (f : Frame) : Frame :=
  let groups := bits (f.act.getD 0 0) 8 16
  let payload := f.bytes.drop f.payload
  let hits := s.pats.filter fun e =>
    bit (e.2.getD 16 0) 12 && bit groups (bits (e.2.getD 16 0) 8 4) && patMatches e.2 payload
  { f with pmmHit := !hits.isEmpty, pmmPat := (hits.head?.map (·.1)).getD 0
           pmmGroups := hits.foldl (fun a e => setBit a (bits (e.2.getD 16 0) 8 4)) 0 }

/-- The words that PAT_CMD stages: values, masks, PAT_CFG, PAT_RANGE. -/
def State.patStage (s : State) : List Nat :=
  ((List.range 8).map fun k => s.rd pgPMM PMM.PAT_VAL_VAL k) ++ ((List.range 8).map fun k => s.rd pgPMM PMM.PAT_MASK_MASK k) ++
    [s.rd pgPMM PMM.PAT_CFG_LEN + s.rd pgPMM PMM.PAT_CFG_GROUP * 256 + s.rd pgPMM PMM.PAT_CFG_VALID * 4096,
     s.rd pgPMM PMM.PAT_RANGE_OFF_MIN + s.rd pgPMM PMM.PAT_RANGE_OFF_MAX * 65536]

/-- PAT_CMD write (R263). -/
def State.patWrite (s : State) (k tag : Nat) : State :=
  { s with pats := tset s.pats k s.patStage }.result pgPMM PMM.PAT_RES tag DONE

/-- PAT_CMD read: the pattern into the staging registers (R268). A pattern never written reads 0. -/
def State.patRead (s : State) (k tag : Nat) : State :=
  let w := tgetD s.pats k (List.replicate 18 0)
  let s1 := (List.range 8).foldl (fun t i => (t.wr pgPMM PMM.PAT_VAL_VAL (w.getD i 0) i).wr pgPMM PMM.PAT_MASK_MASK
    (w.getD (8 + i) 0) i) s
  let s2 := s1.wrWord pgPMM 0 (w.getD 16 0) [PMM.PAT_CFG_LEN, PMM.PAT_CFG_GROUP, PMM.PAT_CFG_VALID]
  (s2.wrWord pgPMM 0 (w.getD 17 0) [PMM.PAT_RANGE_OFF_MIN, PMM.PAT_RANGE_OFF_MAX]).result pgPMM PMM.PAT_RES tag DONE

/-- PAT_WRITE (R263). -/
def execPatWrite (index tag : Nat) (s : State) : Host.Outcome State Fault Refusal :=
  .next (s.gate pgPMM (·.patWrite (index % 2048) tag))

/-- PAT_READ (R268). -/
def execPatRead (index tag : Nat) (s : State) : Host.Outcome State Fault Refusal :=
  .next (s.gate pgPMM (·.patRead (index % 2048) tag))

/-- PAT_ABORT (R268, R64): pattern commands complete at once, so an abort comes late. -/
def execPatAbort (_tag : Nat) (s : State) : Host.Outcome State Fault Refusal := .next (s.gate pgPMM (·.resLate pgPMM PMM.PAT_RES))

/-! ### The reorder unit (R246 to R248) -/

/-- Results that ORD holds. -/
def State.ordHeld (s : State) : Nat := (s.ords.map fun c => c.2.held.length).foldl (· + ·) 0

/-- HELD shows the results held, and DEAL_HOLD whether the result bound stops dealing (R247). -/
def State.ordView (s : State) : State :=
  let n := s.ordHeld
  (s.wr pgORD ORD.ORD_STS_HELD n).put pgORD ORD.ORD_STS_DEAL_HOLD (decide (8192 ≤ n + s.piped.length))

/-- The held sequence number nearest ahead of the next expected one. -/
def OrdCtx.nearest (x : OrdCtx) : Option Nat :=
  x.held.foldl (fun (a : Option Nat) e =>
    match a with
    | none => some e.1
    | some b => if (e.1 + 65536 - x.next) % 65536 < (b + 65536 - x.next) % 65536 then some e.1 else some b) none

/-! ### The dealer (R239, R247) -/

/-- Frames in the park of pipeline i. -/
def State.parked (s : State) (i : Nat) : Nat :=
  (s.piped.filter fun x => decide (x.pipe = i) && (decide (x.stage = .park1) || decide (x.stage = .park2))).length

/-- Dealing skips pipeline i: removed from rotation, its pages without power, paused for the classifier, or its park full (R239). -/
def State.ippSkip (s : State) (i : Nat) : Bool :=
  !s.live (pgIPP i) || !s.on (pgIPP i) IPP.IPP_CTL_DEAL_EN || s.on (pgIPP i) IPP.IPP_STS_PAUSED || decide (64 ≤ s.parked i)

/-- The next pipeline in the cyclic order. -/
def State.pickIpp (s : State) : Option Nat :=
  ((List.range 20).map fun k => (s.nextIpp + k) % 20).find? fun i => !s.ippSkip i

/-- The park level of pipeline i shows (R264). -/
def State.parkView (s : State) (i : Nat) : State := s.wr (pgIPP i) IPP.IPP_STS_PARKED (s.parked i)

/-- The frame is in a park. -/
def Piped.parks (x : Piped) : Bool := decide (x.stage = .park1) || decide (x.stage = .park2)

/-- Dealing may go on: ORD has room (R247), the stages of the pipelines have (R97), and there is no back-pressure from range search or
matcher (R338, R262). -/
def State.mayDeal (s : State) : Bool :=
  decide ((s.piped.filter fun x => !x.parks).length < 20 * 140) &&
  decide (s.ordHeld + s.piped.length < 8192) && !s.on (pgRSU 0) RSU.RSQ_STS_BP && !s.on pgPMM PMM.PMM_STS_BP &&
    !s.piped.any (·.stale)

end Sys2Proof.Machine
end

