-- ==== Sys2Proof/Machine/Hbm.lean ====
section
/-! DEFINITION. Machine/Hbm.lean: the HBM memory of the table region, the interleave, requester regulators, channel queues,
refresh, ECC and the HBM window (spec 13_hbm_memory.md, R492 to R528). -/

namespace Sys2Proof.Machine

/-! ### The memory of the table region -/

/-- Byte-addressed memory: cells with rising addresses, none equal to what an unlisted address reads as. -/
abbrev Memory := List Host.Cell

/-- What an address that no cell lists reads as: undefined content (R875), a free value of the address. -/
def blankByte (a : Nat) : Byte := Config.hbmByte a

/-- The byte at an address. -/
def memByte (m : Memory) (a : Nat) : Byte := tgetD m a (blankByte a)

/-- The memory with a byte written. -/
def memSet (m : Memory) (a : Nat) (b : Byte) : Memory := if b = blankByte a then tdel m a else tset m a b

/-- The memory with a byte string written from an address on. -/
def memSets (m : Memory) (a : Nat) : List Byte → Memory
  | [] => m
  | b :: t => memSets (memSet m a b) (a + 1) t

/-- n bytes from an address on. -/
def memBytes (m : Memory) (a n : Nat) : List Byte := (List.range n).map fun k => memByte m (a + k)

/-- The canonical form of memory. -/
def Memory.wf (m : Memory) : Bool := tsorted m && m.all fun e => decide (e.2 ≠ blankByte e.1)

/-- A 32-bit word of HBM, least significant byte first (R6). -/
def State.hbmWord (s : State) (a : Nat) : Nat := leNat (memBytes s.hbm a 4)

/-- n words of HBM from an address on. -/
def State.hbmWords (s : State) (a n : Nat) : List Nat := (List.range n).map fun k => s.hbmWord (a + 4 * k)

/-- The region-relative address of an HBM row by its key (R496): a prefix bucket of 64 bytes holds eight IPv4 or two IPv6
slots, an exact-match bucket of 128 bytes four narrow or two wide entries, in order (DEDUCED, notes/assumptions/27.md). -/
def rowAddr (key : Nat) : Nat := key % 2 ^ 33 * (if key / 2 ^ 34 = 3 then 8 else 32)

/-- HBM with words written from an address on; a recheck of a row that they reach ends (R298). -/
def State.hbmPut (s : State) (a : Nat) (ws : List Nat) : State :=
  let hit (m : Mismatch) : Bool := bit m.key 33 && decide (rowAddr m.key < a + 4 * ws.length ∧ a < rowAddr m.key + 4 * m.words.length)
  { s with hbm := memSets s.hbm a (leWordsToBytes ws), rechecks := s.rechecks.filter fun m => !hit m }

/-! ### Regions and the interleave (R493, R496 to R498) -/

/-- GiB of the table region, and its bytes. -/
def State.tableGib (s : State) : Nat := s.rd (pgHBC 0) HBC.REGION_CFG_TBL_GIB
def State.tableBytes (s : State) : Nat := s.tableGib * 2 ^ 30

/-- Where a region-relative address lies: device channel, bank, row and column (R498). -/
structure HbmPlace where
  chan : Nat
  bank : Nat
  row : Nat
  column : Nat
  deriving DecidableEq, Repr

/-- The interleave (R498). -/
def State.hbmMap (s : State) (spill : Bool) (a : Nat) : HbmPlace :=
  let g := 2 ^ (8 + s.rd (pgHBC 0) (if spill then HBC.REGION_CFG_SPILL_GRAIN else HBC.REGION_CFG_TBL_GRAIN))
  let c := a / g
  let h := if s.on (pgHBC 0) HBC.REGION_CFG_HASH_EN then (c / 128) % 128 else 0
  let x := (if spill then s.tableGib * 8388608 else 0) + (c / 128) * g + a % g
  { chan := Nat.xor (c % 128) h, bank := (x / 4096) % 64, row := x / 262144, column := x % 4096 }

/-- The bursts of 64 bytes that an access touches: channel and request. -/
def State.hbmBursts (s : State) (x : HbmAcc) : List (Nat × HbmReq) :=
  let first := x.addr / 64
  let n := (x.addr + x.len + 63) / 64 - first
  (List.range n).map fun k =>
    let p := s.hbmMap x.spill ((first + k) * 64)
    (p.chan, { bank := p.bank, row := p.row, burst := p.column / 64, port := x.port })

/-- Channel n is in the failed state (R518). -/
def State.chanFailed (s : State) (n : Nat) : Bool := bit (s.rd (pgHBC (n / 32)) HBC.CH_FAILED_MASK) (n % 32)

/-- Data at an address comes back poisoned because its channel has failed (R518). -/
def State.hbmFailed (s : State) (spill : Bool) (a len : Nat) : Bool :=
  (s.hbmBursts { port := 0, spill := spill, addr := a, len := len, write := false }).any fun e => s.chanFailed e.1

/-! ### Counters and captures (R519, R527) -/

/-- Counter k of channel n. -/
def State.chanCnt (s : State) (n k : Nat) : State := s.bump (pgHBC (n / 32)) HBC.CH_CNT ((n % 32) * 12 + k) k 1

/-- Channel n, and channel n replaced. -/
def State.chan (s : State) (n : Nat) : HbmChan := tgetD s.chans n {}
def State.setChan (s : State) (n : Nat) (c : HbmChan) : State := { s with chans := tset s.chans n c }

/-- The first error after re-arming is captured (R519). -/
def State.hbmCapture (s : State) (n : Nat) (r : HbmReq) (uncorr : Bool) : State :=
  let p := pgHBC (n / 32)
  if s.on p HBC.ERR_CAP0_VALID then s
  else
    s.wrAll p 0 [(HBC.ERR_CAP0_CHANNEL, n % 32), (HBC.ERR_CAP0_BANK, r.bank), (HBC.ERR_CAP0_UNCORR, b2n uncorr),
      (HBC.ERR_CAP0_VALID, 1), (HBC.ERR_CAP1_ROW, r.row), (HBC.ERR_CAP1_BURST, r.burst), (HBC.ERR_CAP1_PORT, r.port)]

/-- An access past the end of the table region (R497). -/
def State.hbmPast (s : State) : State := (s.chanCnt 0 9).raise (pgHBC 0) 6

/-! ### Issue to a channel (R505 to R512) -/

/-- A burst is issued to its channel: counts, activation or open-row hit, page policy, retry buffer. -/
def State.hbmIssue (s : State) (n : Nat) (r : HbmReq) (write : Bool) : State :=
  let p := pgHBC (n / 32)
  let c := s.chan n
  let hit := decide (tget c.rows r.bank = some r.row)
  let other := (tget c.rows r.bank).isSome && !hit
  let old := tgetD c.pred r.bank 0
  let pred := if r.port < 2 then old else if hit then min 3 (old + 1) else if other then old - 1 else old
  let stays := if r.port < 2 then s.on p HBC.PAGE_POL_SPILL_OPEN
    else decide (2 ≤ pred) && s.on p HBC.PAGE_POL_TBL_PREDICT
  let retry := c.retry ++ [(r, write)]
  let acts := if hit then c.acts else (s.ticks :: c.acts).take 4
  let d := { c with rows := if stays then tset c.rows r.bank r.row else tdel c.rows r.bank
                    pred := tset c.pred r.bank pred, acts := acts, retry := retry.drop (retry.length - 32) }
  ((s.setChan n d).chanCnt n (if write then 1 else 0)).chanCnt n (if hit then 3 else 2)

/-- A burst may be issued to its channel: its row is open, or fewer than four rows were opened in the last 29.952 ns, which are 24 timing
clocks (R505). -/
def State.hbmMayOpen (s : State) (n : Nat) (r : HbmReq) : Bool :=
  decide (tget (s.chan n).rows r.bank = some r.row) || match (s.chan n).acts[3]? with
    | none => true
    | some t => decide (t + 24 ≤ s.ticks)

/-- A burst enters its channel's queue (R508): a read that a queued write covers needs no stack access, and a write to a burst
that a queued write covers replaces it. -/
def State.hbmEnqueue (s : State) (n : Nat) (r : HbmReq) (write : Bool) : State :=
  let c := s.chan n
  let covered := c.writes.any fun w => w.bank = r.bank ∧ w.row = r.row ∧ w.burst = r.burst
  if covered then s
  else if write then s.setChan n { c with writes := c.writes ++ [r] }
  else s.setChan n { c with reads := c.reads ++ [r] }

/-! ### Regulators (R499 to R503) -/

/-- The accesses that port k holds. -/
def State.heldBy (s : State) (k : Nat) : List HbmAcc := tgetD s.hbmHeld k []

/-- REG_STS shows which ports hold accesses. -/
def State.hbmView (s : State) : State :=
  s.wr (pgHBC 0) HBC.REG_STS_HELD ((List.range 6).foldl (fun a k => if s.heldBy k = [] then a else setBit a k) 0)

/-- Whether every channel of an access has its stack ready (R525) and room in its queue (R506). -/
def State.hbmRoom (s : State) (x : HbmAcc) : Bool :=
  (s.hbmBursts x).all fun e =>
    s.on (pgHBC (e.1 / 32)) HBC.STACK_STS_TRAINED &&
      decide ((if x.write then (s.chan e.1).writes else (s.chan e.1).reads).length < 64)

/-- Port k issues the accesses it holds, in order, while its tokens are at or above 0 (R501, R502). `left` bounds them by
those held. What the table, host and counter ports ask crosses the Band, and waits while it does not carry (R14, R19). -/
def State.hbmPump (s : State) (k : Nat) : (left : Nat) → State
  | 0 => s
  | left + 1 =>
    match s.heldBy k with
    | [] => s
    | x :: rest =>
      let tok := tgetD s.hbmTokens k 0
      if tok < 0 ∨ ¬ s.hbmRoom x ∨ (2 ≤ k ∧ ¬ s.on pgBAND BAND.BAND_STS_UP) then s
      else
        let s1 := { s with hbmTokens := tset s.hbmTokens k (tok - ((32 * x.len : Nat) : Int)), hbmHeld := tset s.hbmHeld k rest }
        let s2 := (s.hbmBursts x).foldl (fun (t : State) e => t.hbmEnqueue e.1 e.2 x.write) s1
        (s2.inc (pgHBC 0) HBC.PORT_BYTES x.len k).hbmPump k left

/-- A port gets an access (R501). -/
def State.hbmPost (s : State) (x : HbmAcc) : State :=
  let s1 := { s with hbmHeld := tset s.hbmHeld x.port (s.heldBy x.port ++ [x]) }
  (s1.hbmPump x.port (s1.heldBy x.port).length).hbmView

/-- The paired regulator (R499). -/
def regPair (k : Nat) : Nat := if k % 2 = 0 then k + 1 else k - 1

/-- BURST of regulator k in 1/32 byte; 0 is treated as 1 (R526). -/
def State.regBurst (s : State) (k : Nat) : Int := ((32 * 1024 * max 1 (s.rd (pgHBC 0) HBC.REG_BURST_KIB k) : Nat) : Int)

/-- Regulator k gains tokens; what rises above BURST goes to the pair (R500). -/
def State.regFill (s : State) (k : Nat) : State :=
  let t := tgetD s.hbmTokens k 0 + ((5 * s.rd (pgHBC 0) HBC.REG_RATE_GBPS k : Nat) : Int)
  let cap := s.regBurst k
  if t ≤ cap then { s with hbmTokens := tset s.hbmTokens k t }
  else
    let p := tgetD s.hbmTokens (regPair k) 0
    let q := max p (min (s.regBurst (regPair k)) (p + (t - cap)))
    { s with hbmTokens := tset (tset s.hbmTokens k cap) (regPair k) q }

/-- One timing clock of the regulators: RATE × 5 / 32 bytes; a port that holds accesses counts its QD clocks, 9 in 4 timing
clocks (R500, R526). -/
def State.hbmTick (s : State) : State :=
  if ¬ s.live (pgHBC 0) ∨ s.fabric then s
  else
    let clocks := (s.ticks + 1) * 9 / 4 - s.ticks * 9 / 4
    let s1 := (List.range 6).foldl (fun (t : State) k => t.regFill k) s
    ((List.range 6).foldl (fun (t : State) k =>
      if t.heldBy k = [] then t
      else (t.inc (pgHBC 0) HBC.PORT_HELD clocks k).hbmPump k (t.heldBy k).length) s1).hbmView

/-! ### Channel events -/

/-- HBM_READ_COMPLETE (R504, R517 to R520): the oldest queued read of a channel completes: `result` 0 clean, 1 corrected,
2 or more uncorrectable; a failed channel answers poisoned data. A read that the activation limit holds stays queued (R505). -/
def execHbmReadComplete (channel result : Nat) (s : State) : Host.Outcome State Fault Refusal :=
  .next (if 128 ≤ channel ∨ ¬ s.live (pgHBC (channel / 32)) then s
    else match (s.chan channel).reads with
      | [] => s
      | r :: rest =>
        if ¬ s.chanFailed channel ∧ ¬ s.hbmMayOpen channel r then s else
        let p := pgHBC (channel / 32)
        let s0 := s.setChan channel { s.chan channel with reads := rest }
        let s1 := if s.chanFailed channel then s0 else s0.hbmIssue channel r false
        let s2 :=
          if s.chanFailed channel then s1.chanCnt channel 5
          else if result = 0 then s1
          else if result = 1 then ((s1.chanCnt channel 4).hbmCapture channel r false).raise p 0
          else ((s1.chanCnt channel 5).hbmCapture channel r true).raise p 1
        s2.hbmPump r.port (s2.heldBy r.port).length)

/-- Queued writes of a channel are issued until `keep` are left or the activation limit holds one (R505, R507); a failed channel's are
discarded (R518). -/
def State.drainTo (s : State) (n keep : Nat) : (left : Nat) → State
  | 0 => s
  | left + 1 =>
    let c := s.chan n
    match c.writes with
    | [] => s
    | w :: rest =>
      if c.writes.length ≤ keep then s
      else if s.chanFailed n then (s.setChan n { c with writes := rest }).drainTo n keep left
      else if ¬ s.hbmMayOpen n w then s
      else ((s.setChan n { c with writes := rest }).hbmIssue n w true).drainTo n keep left

/-- HBM_WRITE_DRAIN (R507): at WR_HI, for a due refresh of a bank with writes queued, or with no read waiting, the channel
issues writes until the queue falls to WR_LO. -/
def execHbmWriteDrain (channel : Nat) (s : State) : Host.Outcome State Fault Refusal :=
  .next (if 128 ≤ channel ∨ ¬ s.live (pgHBC (channel / 32)) then s
    else
      let c := s.chan channel
      let p := pgHBC (channel / 32)
      let due := c.writes.any fun w => w.bank = c.nextBank
      if s.rd p HBC.WR_WM_WR_HI ≤ c.writes.length ∨ c.reads = [] ∨ due then
        let s1 := s.drainTo channel (s.rd p HBC.WR_WM_WR_LO) c.writes.length
        (List.range 6).foldl (fun (t : State) k => t.hbmPump k (t.heldBy k).length) s1
      else s)

/-- HBM_PARITY_ALERT (R516, R518): the retained commands are replayed; `again` says that a command of the last replay failed
once more, and REPLAY_LIMIT such failures in a row fail the channel. -/
def execHbmParityAlert (channel : Nat) (again : Bool) (s : State) : Host.Outcome State Fault Refusal :=
  .next (if 128 ≤ channel ∨ ¬ s.live (pgHBC (channel / 32)) ∨ s.chanFailed channel then s
    else
      let p := pgHBC (channel / 32)
      let fails := if again then (s.chan channel).fails + 1 else 0
      let s1 := ((s.setChan channel { s.chan channel with fails := fails }).chanCnt channel 6)
      if max 1 (s.rd p HBC.RETRY_CFG_REPLAY_LIMIT) ≤ fails then
        (s1.wr p HBC.CH_FAILED_MASK (setBit (s.rd p HBC.CH_FAILED_MASK) (channel % 32))).raise p 3
      else (s1.chanCnt channel 7).raise p 2)

/-- Refresh commands of a stack's channels are due every 122.07 ns, 6,250 / 64 timing clocks; in the doubled state every half of it
(R513). -/
def State.refreshStep (s : State) (stack : Nat) : Nat := if s.on (pgHBC stack) HBC.STACK_STS_DOUBLED then 3125 else 6250

/-- HBM_REFRESH (R513): once it is due, the next per-bank refresh command of a channel closes the bank's row. A stack in self-refresh gets
none. -/
def execHbmRefresh (channel : Nat) (s : State) : Host.Outcome State Fault Refusal :=
  .next (if 128 ≤ channel ∨ ¬ s.live (pgHBC (channel / 32)) then s
    else
      let c := s.chan channel
      if 64 * s.ticks < c.refDue ∨ s.on (pgHBC (channel / 32)) HBC.STACK_STS_SELF_REFRESH then s
      else
        (s.setChan channel { c with rows := tdel c.rows c.nextBank, nextBank := (c.nextBank + 1) % 64,
                                    refDue := max (64 * s.ticks) (c.refDue + s.refreshStep (channel / 32)) }).chanCnt channel 8)

/-- A scrub access moves a burst on the counter-flush port (R521). -/
def State.scrubMove (s : State) (n : Nat) (r : HbmReq) (write : Bool) : State :=
  let s1 := { s with hbmTokens := tset s.hbmTokens 5 (tgetD s.hbmTokens 5 0 - 2048) }
  (s1.inc (pgHBC 0) HBC.PORT_BYTES 64 5).hbmIssue n r write

/-- The scrubber of a stack may read its next burst: the stack is trained, the counter-flush port has tokens, and the bursts' share of
PERIOD_H hours has passed, PERIOD_H × 2,880,000,000,000 timing clocks for 2^29 bursts (R501, R521). -/
def State.scrubMay (s : State) (stack : Nat) : Bool :=
  s.on (pgHBC stack) HBC.STACK_STS_TRAINED && decide (0 ≤ tgetD s.hbmTokens 5 0) && decide (tgetD s.scrubDue stack 0 ≤ 2 ^ 29 * s.ticks)

/-- HBM_SCRUB (R521, R522): the scrubber reads the next burst of a stack: `result` 0 clean, 1 a single-bit error, written
back unless a write of another port superseded it, 2 or more uncorrectable and left unchanged. -/
def execHbmScrub (stack result : Nat) (superseded : Bool) (s : State) : Host.Outcome State Fault Refusal :=
  .next (if 4 ≤ stack ∨ ¬ s.live (pgHBC stack) ∨ ¬ s.on (pgHBC stack) HBC.SCRUB_CFG_EN ∨ ¬ s.scrubMay stack then s
    else
      let k := tgetD s.scrubAt stack 0
      let n := 32 * stack + k % 32
      let r : HbmReq := { bank := k / 32 / 64 % 64, row := k / 32 / 4096 % 4096, burst := k / 32 % 64, port := 255 }
      let step := max 1 (s.rd (pgHBC stack) HBC.SCRUB_CFG_PERIOD_H) * 2880000000000
      let s1 := { s with scrubAt := tset s.scrubAt stack ((k + 1) % (32 * 16777216))
                         scrubDue := tset s.scrubDue stack (max (2 ^ 29 * s.ticks) (tgetD s.scrubDue stack 0 + step)) }
      let s2 := s1.scrubMove n r false
      if s.chanFailed n then s2.chanCnt n 5
      else if result = 0 then s2
      else if result = 1 then
        let s3 := ((s2.chanCnt n 4).hbmCapture n r false).raise (pgHBC stack) 0
        if superseded then s3 else (s3.scrubMove n r true).chanCnt n 10
      else ((s2.chanCnt n 11).hbmCapture n r true).raise (pgHBC stack) 1)

/-! ### The HBM window (R497, R523, R525) -/

/-- A 4-byte access at an offset of the window: the state and the word read. none where the access does not complete within the 2 µs
of R46: while the stack is not ready (R525), or, of a read, while the regulator of port 4 lacks more tokens than 1,600 timing clocks
bring (R500, R502). -/
def State.windowAccess (s : State) (off : Nat) (w : Option Nat) : Option (State × Nat) :=
  let a := s.rd (pgHBC 0) HBC.WIN_BASE_HI_ADDR * 2 ^ 32 + s.rd (pgHBC 0) HBC.WIN_BASE_LO_ADDR + (off - 0x8000)
  let poisoned (t : State) : State × Nat := if w.isSome then (t, 0) else (t.raise (pgHBC 0) 1, 0xFFFFFFFF)
  if s.tableBytes < a + 4 then some (poisoned s.hbmPast)
  else
    let x : HbmAcc := { port := 4, spill := false, addr := a, len := 4, write := w.isSome }
    let short := decide (tgetD s.hbmTokens 4 0 + ((8000 * s.rd (pgHBC 0) HBC.REG_RATE_GBPS 4 : Nat) : Int) < 0)
    if ((s.hbmBursts x).any fun e => !s.on (pgHBC (e.1 / 32)) HBC.STACK_STS_TRAINED) ∨ (short ∧ w.isNone) then none
    else
      let tok := tgetD s.hbmTokens 4 0 - 128
      let s1 := ({ s with hbmTokens := tset s.hbmTokens 4 tok }.inc (pgHBC 0) HBC.PORT_BYTES 4 4)
      let s2 := (s.hbmBursts x).foldl (fun (t : State) e => t.hbmIssue e.1 e.2 x.write) s1
      if s.hbmFailed false a 4 then some (poisoned (if w.isSome then s2 else (s.hbmBursts x).foldl (fun (t : State) e => t.chanCnt e.1 5) s2))
      else match w with
        | some v => some (s2.hbmPut a [v % 2 ^ 32], 0)
        | none => some (s2, s.hbmWord a)

/-! ### Register writes with rules of their own (R494, R503) -/

/-- A write of REGION_CFG (R494). -/
def State.regionCfgWrite (s : State) (v : Nat) : State :=
  let p := pgHBC 0
  if ((List.range 4).any fun i => s.on (pgHBC i) COMMON.PAGE_CTL_ENABLE) ∨ 128 < bits v 0 8 ∨ 6 < bits v 8 4 ∨ 6 < bits v 12 4 then
    s.raise p 7
  else s.wrWord p 0 v [HBC.REGION_CFG_TBL_GIB, HBC.REGION_CFG_TBL_GRAIN, HBC.REGION_CFG_SPILL_GRAIN, HBC.REGION_CFG_HASH_EN]

/-- A write of REG_RATEk (R503). -/
def State.regRateWrite (s : State) (k v : Nat) : State :=
  let sum := ((List.range 6).map fun i => if i = k then v % 65536 else s.rd (pgHBC 0) HBC.REG_RATE_GBPS i).foldl (· + ·) 0
  if 64000 < sum then s.raise (pgHBC 0) 7 else s.wr (pgHBC 0) HBC.REG_RATE_GBPS v k

/-- A write of REFRESH_CFG: FORCE_2X enters the doubled state (R514). -/
def State.refreshCfgWrite (s : State) (i v : Nat) : State :=
  let p := pgHBC i
  let s1 := s.wrWord p 0 v [HBC.REFRESH_CFG_TEMP_HI_C, HBC.REFRESH_CFG_TEMP_LO_C, HBC.REFRESH_CFG_FORCE_2X]
  if bit v 16 ∧ ¬ s.on p HBC.STACK_STS_DOUBLED then (s1.wr p HBC.STACK_STS_DOUBLED 1).raise p 4 else s1

end Sys2Proof.Machine
end

