-- ==== Sys2Proof/Machine/Tables.lean ====
section
/-! DEFINITION. Machine/Tables.lean: the lookup tables, their rows on die and in HBM, the version store and epochs, row
locks, key placement, table DMA, aging and background compare (spec 08_route_lookup.md, R273 to R279, R282, R285, R286,
R292 to R321, R875). -/

namespace Sys2Proof.Machine

/-! ### Geometry (R273, R278, R279, R285) -/

/-- The exact-match table that a table ID names. -/
def exmOf (id : Nat) : Option Nat := if 8 ≤ id ∧ id ≤ 23 then some (id - 8) else none

/-- Exact-match table t has wide entries. -/
def State.exmWide (s : State) (t : Nat) : Bool := s.on pgEXM EXM.TBL_CFG_A_WIDE t

/-- Words of a row of a table; 0 for a reserved ID. -/
def State.rowWords (s : State) (id : Nat) : Nat :=
  match exmOf id with
  | some t => if s.exmWide t then 16 else 8
  | none => [1, 4, 4, 2, 8, 1, 1].getD id (if id = 24 then 4 else if id = 25 then 2 else if id = 26 then 1 else if id = 27 then 16 else 0)

/-- Rows on die of a table (R273): a wide exact-match entry takes two narrow rows. -/
def State.rowsOnDie (s : State) (id : Nat) : Nat :=
  match exmOf id with
  | some t => if s.exmWide t then 1048576 else 2097152
  | none => [65536, 65536, 1048576, 4194304, 2097152, 4096, 4096].getD id
      (if id = 24 then 1048576 else if id = 25 then 65536 else if id = 26 then 2097152 else if id = 27 then 262144 else 0)

/-- A row lies in the memory of its placement (R273): on die, or among the 16 Mi narrow rows that exact-match tables share in HBM. -/
def State.rowFits (s : State) (id : Nat) (hbm : Bool) (row : Nat) : Bool :=
  match hbm, exmOf id with
  | false, _ => decide (row < s.rowsOnDie id)
  | true, some t => decide (row < if s.exmWide t then 8388608 else 16777216)
  | true, none => true

/-- The configured tables of a key-addressed table ID: valid, HBM-placed, first bucket, base-2 logarithm of the buckets,
slots of a bucket. -/
def State.geometries (s : State) (id : Nat) : List (Bool × Bool × Nat × Nat × Nat) :=
  let len (n slots : Nat) := (s.on pgLPM LPM.LEN_CFG_VALID n, s.on pgLPM LPM.LEN_CFG_HBM n, s.rd pgLPM LPM.LEN_CFG_BASE n * 256,
    s.rd pgLPM LPM.LEN_CFG_SIZE_LOG2 n, slots)
  match exmOf id with
  | some t => [(s.on pgEXM EXM.TBL_CFG_A_VALID t, s.on pgEXM EXM.TBL_CFG_A_HBM t, s.rd pgEXM EXM.TBL_CFG_B_BASE t * 256,
      s.rd pgEXM EXM.TBL_CFG_A_SIZE_LOG2 t, if s.exmWide t then 2 else 4)]
  | none =>
    if id = 3 then (List.range 17).map fun n => len n 8
    else if id = 4 then (List.range 105).map fun n => len (17 + n) 2
    else []

/-- A row lies in the buckets of a configured table. -/
def covers (g : Bool × Bool × Nat × Nat × Nat) (row : Nat) : Bool :=
  match g with
  | (_, _, base, size, slots) => decide (base * slots ≤ row ∧ row < (base + 2 ^ size) * slots)

/-- Whether row `row` of a table lies in HBM, on die, or does not exist: on die where a valid on-die table covers it, in HBM
where an HBM-placed table does, else by the on-die row count (DEDUCED, notes/assumptions/23.md). -/
def State.rowPlace (s : State) (id row : Nat) : Option Bool :=
  let g := s.geometries id
  if g.any fun x => x.1 && !x.2.1 && covers x row && decide (row < s.rowsOnDie id) then some false
  else if g.any fun x => x.2.1 && covers x row && s.rowFits id true row then some true
  else if row < s.rowsOnDie id then some false
  else none

/-- The key of a row: exact-match tables share their memories, in narrow rows (R273). -/
def State.rowKey (s : State) (id : Nat) (hbm : Bool) (row : Nat) : Nat :=
  match exmOf id with
  | some t => ((8 * 2 + b2n hbm) * 2 ^ 33) + (if s.exmWide t then 2 * row else row)
  | none => ((id * 2 + b2n hbm) * 2 ^ 33) + row

/-- What an on-die row holds after start-up (R875). -/
def State.rowBlank (s : State) (id : Nat) : List Nat :=
  if id = 3 then [0, 0xFFF00000]
  else if id = 4 then [0, 0, 0, 0, 0xFFF00000, 0, 0, 0]
  else List.replicate (s.rowWords id) 0

/-- A row by its key: of HBM, or of table memory. -/
def State.keyRow (s : State) (id key : Nat) : List Nat :=
  if bit key 33 then s.hbmWords (rowAddr key) (s.rowWords id) else tgetD s.rows key (s.rowBlank id)

/-- A row of table memory. -/
def State.memRow (s : State) (id : Nat) (hbm : Bool) (row : Nat) : List Nat := s.keyRow id (s.rowKey id hbm row)

/-- A committed version-store row is what epoch e sees (R311): rows of the current epoch only for frames of it. -/
def VRow.visible (v : VRow) (current e : Nat) : Bool :=
  match v.epoch with
  | none => false
  | some x => decide (x ≠ current) || decide (e = current)

/-- The newest row of a key among some version-store rows. -/
def newestRow (l : List VRow) (key : Nat) : Option (List Nat) := (l.reverse.find? fun v => v.key = key).map (·.words)

/-- The table epoch (R309). -/
def State.epoch (s : State) : Nat := s.rd pgLKP LKP.EPOCH_STS_CURRENT

/-- A row as a lookup of epoch e sees it (R311, R314). -/
def State.rowAt (s : State) (e id : Nat) (hbm : Bool) (row : Nat) : List Nat :=
  (newestRow (s.vstore.filter fun v => v.visible s.epoch e) (s.rowKey id hbm row)).getD (s.memRow id hbm row)

/-- A row as committed now. -/
def State.rowNow (s : State) (id : Nat) (hbm : Bool) (row : Nat) : List Nat := s.rowAt s.epoch id hbm row

/-- A row as the open group will have it. -/
def State.rowNext (s : State) (id : Nat) (hbm : Bool) (row : Nat) : List Nat :=
  (newestRow s.vstore (s.rowKey id hbm row)).getD (s.memRow id hbm row)

/-! ### Which rows are used (R274, R278, R286) -/

/-- The VRF of a prefix slot. -/
def slotVrf (id : Nat) (w : List Nat) : Nat := bits (w.getD (if id = 3 then 1 else 4) 0) 20 12

/-- The word of an exact-match entry that holds its flags. -/
def State.flagWord (s : State) (t : Nat) : Nat := if s.exmWide t then 13 else 5

/-- The word of an exact-match entry that holds its result. -/
def State.resultWord (s : State) (t : Nat) : Nat := if s.exmWide t then 12 else 4

/-- A prefix slot or exact-match entry is in use. -/
def State.rowUsed (s : State) (id : Nat) (w : List Nat) : Bool :=
  match exmOf id with
  | some t => bit (w.getD (s.flagWord t) 0) 0
  | none => (decide (id = 3) || decide (id = 4)) && decide (slotVrf id w ≠ 4095)

/-- PREFIX_CNT and ENTRY_CNT after a row goes from one content to another (R274, R319). -/
def State.countRow (s : State) (id : Nat) (old new : List Nat) : State :=
  let was := s.rowUsed id old
  let is := s.rowUsed id new
  let upd (p : Nat) (f : Fld) (k : Nat) : State :=
    if is ∧ ¬ was then s.wr p f (s.rd p f + k) else if was ∧ ¬ is then s.wr p f (s.rd p f - k) else s
  match exmOf id with
  | some t => upd pgEXM EXM.ENTRY_CNT_COUNT (if s.exmWide t then 2 else 1)
  | none => if id = 3 ∨ id = 4 then upd pgLPM LPM.PREFIX_CNT_COUNT 1 else s

/-- A row image as it is stored: rewrite rows hold PUSH_LEN to 56 (R291), and LOCKED is no stored bit (R286). -/
def State.rowStored (s : State) (id : Nat) (w : List Nat) : List Nat :=
  let w := (w ++ List.replicate (s.rowWords id - w.length) 0).take (s.rowWords id)
  match exmOf id with
  | some t => lset w (s.flagWord t) (clrBit (w.getD (s.flagWord t) 0) 5)
  | none =>
    if id = 27 ∧ 56 < bits (w.getD 0 0) 8 8 then
      lset w 0 (w.getD 0 0 - bits (w.getD 0 0) 8 8 * 256 + 56 * 256)
    else w

/-- A row image as software reads it: LOCKED shows the row lock (R286). -/
def State.rowShown (s : State) (id : Nat) (hbm : Bool) (row : Nat) (w : List Nat) : List Nat :=
  match exmOf id with
  | some t =>
    if (tget s.locks (s.rowKey id hbm row)).isSome then lset w (s.flagWord t) (setBit (w.getD (s.flagWord t) 0) 5) else w
  | none => w

/-- Table memory takes a row by its key; a recheck of the row ends (R298), and so does its double-bit error (R90). An on-die row equal to its content after
start-up is not listed; a write past the end of the HBM table region is discarded (R497). -/
def State.keyWrite (s : State) (id k : Nat) (w : List Nat) : State :=
  let s1 := { s with rechecks := s.rechecks.filter (fun m => m.key ≠ k), deadRows := s.deadRows.filter fun x => x ≠ k }
  if bit k 33 then
    let x : HbmAcc := { port := if id = 3 ∨ id = 4 then 2 else 3, spill := false, addr := rowAddr k, len := 4 * s.rowWords id
                        write := true }
    if s.tableBytes < x.addr + x.len then s1.hbmPast
    else if s.hbmFailed false x.addr x.len then s1.hbmPost x
    else (s1.hbmPost x).hbmPut x.addr w
  else { s1 with rows := if w = s.rowBlank id then tdel s.rows k else tset s.rows k w }

/-- Table memory takes a row. -/
def State.memWrite (s : State) (id : Nat) (hbm : Bool) (row : Nat) (w : List Nat) : State :=
  s.keyWrite id (s.rowKey id hbm row) w

/-- An immediate row write with its counts (R305). -/
def State.rowWrite (s : State) (id : Nat) (hbm : Bool) (row : Nat) (w : List Nat) : State :=
  (s.countRow id (s.memRow id hbm row) w).memWrite id hbm row w

/-! ### Filter bounds (R275 to R277) -/

/-- A row of 32-bit words as one number, word 0 lowest. -/
def wordsNat : List Nat → Nat
  | [] => 0
  | w :: t => w + 2 ^ 32 * wordsNat t

/-- A filter row with more than 8 bitmap bits (R277). -/
def bitmapOver (id : Nat) (w : List Nat) : Bool :=
  (decide (id = 0) && decide (8 < popCount (wordsNat w) 17)) ||
    ((decide (id = 1) || decide (id = 2)) && decide (8 < popCount (wordsNat w) 105))

/-! ### Placing keys (R279, R282, R285) -/

/-- Where a key may stand in a key-addressed table: the table, its placement, the rows of the two candidate buckets, whether
a row is in use and whether it holds the key, and the row that an insert stores. -/
structure KeyPlan where
  id : Nat
  hbm : Bool
  rows0 : List Nat
  rows1 : List Nat
  isKey : List Nat → Bool
  image : List Nat

/-- The index in LEN_CFG of a prefix length of table 3 or 4 (R317). -/
def lenIndex (id len : Nat) : Nat := if id = 3 then len - 16 else len - 7

/-- A number masked to the first `len` of its `w` bits. -/
def maskTo (w len v : Nat) : Nat := (v / 2 ^ (w - len)) * 2 ^ (w - len)

/-- The page that signals a double-bit error in a table's memory: the rewrite rows share LKP's cause with the version store (DEDUCED, R316;
notes/assumptions/23.md). -/
def eccPage (id : Nat) : Nat := if id < 8 then pgLPM else if id < 24 then pgEXM else if id < 27 then pgNHP else pgLKP

/-- One of these rows on die of a table has a double-bit error, where a lookup reads it (R90). -/
def State.rowsDead (s : State) (id : Nat) (hbm : Bool) (rows : List Nat) : Bool :=
  rows.any fun i => s.deadRows.contains (s.rowKey id hbm i)

/-- The key bytes of a prefix (R279): VRF, then the first ceil(L / 8) bytes of the masked address. -/
def prefixKey (w len vrf addr : Nat) : List Byte := toBe 2 vrf ++ (toBe (w / 8) (maskTo w len addr)).take ((len + 7) / 8)

/-- The rows of the two candidate buckets of a prefix (R279), as far as the memory goes (R273). -/
def State.prefixRows (s : State) (id len vrf addr : Nat) : List Nat × List Nat :=
  let n := lenIndex id len
  let slots := if id = 3 then 8 else 2
  let key := prefixKey (if id = 3 then 32 else 128) len vrf addr
  let bucket (seed : Fld) : Nat :=
    s.rd pgLPM LPM.LEN_CFG_BASE n * 256 + hash32c (s.rd pgLPM seed) key % 2 ^ s.rd pgLPM LPM.LEN_CFG_SIZE_LOG2 n
  let rows (b : Nat) : List Nat :=
    ((List.range slots).map fun k => b * slots + k).filter (s.rowFits id (s.on pgLPM LPM.LEN_CFG_HBM n))
  if id = 3 then (rows (bucket LPM.SEED4_0_SEED), rows (bucket LPM.SEED4_1_SEED))
  else (rows (bucket LPM.SEED6_0_SEED), rows (bucket LPM.SEED6_1_SEED))

/-- The address of a prefix slot as one number: an IPv6 prefix has its highest bits in word 0 (R278). -/
def slotAddr (id : Nat) (w : List Nat) : Nat :=
  if id = 3 then w.getD 0 0 else (w.take 4).foldl (fun a x => a * 2 ^ 32 + x) 0

/-- The plan for a prefix of a length; none for a length out of range or not valid, or an empty slot's VRF. -/
def State.planPrefix (s : State) (id len : Nat) (img : List Nat) : Option KeyPlan :=
  let w := if id = 3 then 32 else 128
  let vrf := slotVrf id img
  let addr := maskTo w len (slotAddr id img)
  let ok := if id = 3 then decide (16 ≤ len ∧ len ≤ 32) else decide (24 ≤ len ∧ len ≤ 128)
  if ok ∧ s.on pgLPM LPM.LEN_CFG_VALID (lenIndex id len) ∧ vrf ≠ 4095 then
    let r := s.prefixRows id len vrf addr
    let head := if id = 3 then [addr] else [addr / 2 ^ 96, addr / 2 ^ 64 % 2 ^ 32, addr / 2 ^ 32 % 2 ^ 32, addr % 2 ^ 32]
    some { id := id, hbm := s.on pgLPM LPM.LEN_CFG_HBM (lenIndex id len), rows0 := r.1, rows1 := r.2
           isKey := fun x => decide (slotVrf id x = vrf) && decide (slotAddr id x = addr)
           image := head ++ img.drop head.length }
  else none

/-- The KEY_LEN of exact-match table t, in the range of its width (R319). -/
def State.exmLen (s : State) (t : Nat) : Nat :=
  let n := s.rd pgEXM EXM.TBL_CFG_A_KEY_LEN t
  if s.exmWide t then max 17 (min 48 n) else max 1 (min 16 n)

/-- Key bytes of an exact-match row (R286, R869). -/
def State.exmKey (s : State) (t : Nat) (w : List Nat) : List Byte :=
  (wordsToBytes (w.take (if s.exmWide t then 12 else 4))).take (s.exmLen t)

/-- The rows of the two candidate buckets of an exact-match key (R285), as far as the memory goes (R273). -/
def State.exmRows (s : State) (t : Nat) (key : List Byte) : List Nat × List Nat :=
  let slots := if s.exmWide t then 2 else 4
  let bucket (seed : Fld) : Nat :=
    s.rd pgEXM EXM.TBL_CFG_B_BASE t * 256 + hash32c (s.rd pgEXM seed) key % 2 ^ s.rd pgEXM EXM.TBL_CFG_A_SIZE_LOG2 t
  let rows (b : Nat) : List Nat :=
    ((List.range slots).map fun k => b * slots + k).filter (s.rowFits (8 + t) (s.on pgEXM EXM.TBL_CFG_A_HBM t))
  (rows (bucket EXM.SEED0_SEED), rows (bucket EXM.SEED1_SEED))

/-- The plan for an exact-match key with an image to store; none where the table is not valid. -/
def State.planExm (s : State) (t : Nat) (key : List Byte) (img : List Nat) : Option KeyPlan :=
  if s.on pgEXM EXM.TBL_CFG_A_VALID t then
    let r := s.exmRows t key
    some { id := 8 + t, hbm := s.on pgEXM EXM.TBL_CFG_A_HBM t, rows0 := r.1, rows1 := r.2
           isKey := fun x => bit (x.getD (s.flagWord t) 0) 0 && decide (s.exmKey t x = key)
           image := img }
  else none

/-- The row that holds a plan's key, by a reading of rows. -/
def KeyPlan.find (k : KeyPlan) (read : Nat → List Nat) : Option Nat := (k.rows0 ++ k.rows1).find? fun r => k.isKey (read r)

/-- The row that an insert takes: in the candidate bucket with fewer used slots, bucket 0 on a tie; none where both are
full (R282). -/
def KeyPlan.free (k : KeyPlan) (used : Nat → Bool) : Option Nat :=
  let u (l : List Nat) : Nat := (l.filter used).length
  let l := if u k.rows1 < u k.rows0 then k.rows1 else k.rows0
  l.find? fun r => !used r

/-- The plan for a key operation of TDMA on a table (R302): none where the table has no keys. -/
def State.planOf (s : State) (id len : Nat) (img : List Nat) : Option KeyPlan :=
  match exmOf id with
  | some t => s.planExm t (s.exmKey t img) img
  | none => if id = 3 ∨ id = 4 then s.planPrefix id len img else none

/-! ### Version store and epochs (R308 to R314) -/

/-- USED and OPEN show the version store (R316), and COMMIT_WAIT the waiting commits. -/
def State.vstoreView (s : State) : State :=
  ((s.wr pgLKP LKP.VSTORE_STS_USED s.vstore.length).wr pgLKP LKP.VSTORE_STS_OPEN
    (s.vstore.filter fun v => v.epoch.isNone).length).put pgLKP LKP.EPOCH_STS_COMMIT_WAIT (!s.commits.isEmpty)

/-- A row is in the open group. -/
def State.inOpen (s : State) (key : Nat) : Bool := s.vstore.any fun v => v.key = key && v.epoch.isNone

/-- A committed row waits for its write-back (R314). -/
def State.inBack (s : State) (key : Nat) : Bool := s.vstore.any fun v => v.key = key && v.epoch.isSome

/-- A row joins the open group, or replaces its earlier content there (R308). -/
def State.stageRow (s : State) (id key : Nat) (w : List Nat) : State :=
  if s.inOpen key then
    { s with vstore := s.vstore.map fun v => if v.key = key ∧ v.epoch.isNone then { v with words := w } else v }
  else { s with vstore := s.vstore ++ [⟨id, key, w, none⟩] }

/-- The table ID and placement that a row key spells; exact-match keys spell 8. -/
def keyTable (key : Nat) : Nat × Bool := (key / 2 ^ 34, bit key 33)

/-- Words that a TDMA status carries (R302). -/
def statusWord (status err tag : Nat) : Nat := status + err * 16 + tag * 65536 + 2 ^ 31

/-- The address of descriptor HEAD of a ring. -/
def State.ringAddr (s : State) (r : Nat) : Nat :=
  s.rd pgTDMA TDMA.RING_BASE_LO_ADDR r + s.rd pgTDMA TDMA.RING_BASE_HI_ADDR r * 2 ^ 32 + 32 * s.rd pgTDMA TDMA.RING_STS_HEAD r

/-- The descriptor at HEAD completes (R301, R302, R321): its status, and a result row where it has one, are written to the
host, the ring moves on. -/
def State.tdmaEnd (s : State) (r tag status err : Nat) (irq : Bool) (row : Option Nat) : State :=
  let a := s.ringAddr r
  let s1 := match row with
    | some x => s.post 1 (a + 20) (toLe 4 x)
    | none => s
  let s2 := s1.post 1 (a + 28) (toLe 4 (statusWord status err tag))
  let s3 := ((s2.wr pgTDMA TDMA.RING_STS_HEAD (s.rd pgTDMA TDMA.RING_STS_HEAD r + 1) r).wr pgTDMA TDMA.RING_STS_OUTSTANDING
    (s.rd pgTDMA TDMA.RING_STS_OUTSTANDING r - 1) r).wr pgTDMA TDMA.RING_STS_RUNNING 0 r
  let s4 := s3.cnt pgTDMA TDMA.TDMA_CNT (if status = DONE then 0 else if status = ERROR then 1 else 2)
  let s5 := s4.raiseIf (status = ERROR) pgTDMA 0
  ((s5.raiseIf (status = ERROR && err = 13) pgTDMA 3).raiseIf (status = ERROR && err = 9) pgTDMA 2).raiseIf irq pgTDMA 4

/-- The tag and IRQ bit of a descriptor. -/
def descTag (d : List Nat) : Nat := bits (d.getD 0 0) 16 8
def descIrq (d : List Nat) : Bool := bit (d.getD 0 0) 11

/-- The group's rows change the counts of used rows as they become the table content. -/
def State.countGroup (s : State) : State :=
  (s.vstore.filter fun v => v.epoch.isNone).foldl (fun t v =>
    let old := (newestRow (s.vstore.filter fun x => x.epoch.isSome) v.key).getD
      (s.keyRow v.table v.key)
    t.countRow v.table old v.words) s

/-- The prefixes that are stored once the open group and the locks' staged rows have become table content (R274). -/
def State.prefixesAhead (s : State) : Nat :=
  (s.locks.foldl (fun (t : State) e =>
    match e.2.staged with
    | some w => t.countRow (keyTable e.1).1 (s.keyRow (keyTable e.1).1 e.1) w
    | none => t) s.countGroup).rd pgLPM LPM.PREFIX_CNT_COUNT

/-- A commit takes effect (R309, R310, R312): the open group becomes table content of the next epoch; a failed group is
refused. -/
def State.commitNow (s : State) (q : CommitReq) : State :=
  let fin (t : State) (status err : Nat) : State :=
    match q.ring with
    | some (r, d) => t.tdmaEnd r (descTag d) status err (descIrq d) none
    | none => t
  if s.on pgLKP LKP.EPOCH_STS_GROUP_FAILED then fin ((s.cnt pgLKP LKP.LKP_CNT 4).raise pgLKP 1) ERROR 12
  else
    let e := (s.epoch + 1) % 65536
    let s1 := s.countGroup
    let s2 := { s1 with vstore := s1.vstore.map (fun (v : VRow) => { v with epoch := some (v.epoch.getD e) }), commitAt := s.ticks }
    let s3 := ((s2.wr pgLKP LKP.EPOCH_STS_CURRENT e).wr pgLKP LKP.EPOCH_STS_EPOCH_DRAINED 0).cnt pgLKP LKP.LKP_CNT 2
    fin s3.vstoreView DONE 0

/-- A commit is requested (R309, R313): at once when drained and none waits, else in turn. -/
def State.commitRequest (s : State) (q : CommitReq) : State :=
  if s.on pgLKP LKP.EPOCH_STS_EPOCH_DRAINED ∧ s.commits = [] then s.commitNow q
  else
    let s1 := match q.ring with
      | some (r, _) => s.wr pgTDMA TDMA.RING_STS_RUNNING 1 r
      | none => s
    { s1 with commits := s1.commits ++ [q] }.vstoreView

/-- A write of EPOCH_CMD (R309, R310). -/
def State.epochCmd (s : State) (commit discard : Bool) : State :=
  if commit ∧ discard then (s.cnt pgLKP LKP.LKP_CNT 4).raise pgLKP 1
  else if commit then s.commitRequest ⟨none⟩
  else if discard then
    ({ s with vstore := s.vstore.filter fun v => v.epoch.isSome }.wr pgLKP LKP.EPOCH_STS_GROUP_FAILED 0).vstoreView
  else s

/-- EPOCH_COMMIT_CMD (R309). -/
def execEpochCommitCmd (discard : Bool) (s : State) : Host.Outcome State Fault Refusal :=
  .next (s.gate pgLKP (·.epochCmd true discard))

/-- EPOCH_DISCARD (R310). -/
def execEpochDiscard (s : State) : Host.Outcome State Fault Refusal := .next (s.gate pgLKP (·.epochCmd false true))

/-- EPOCH_COMMIT_EFFECT (R313): the oldest waiting commit takes effect while EPOCH_DRAINED is 1. -/
def execEpochCommitEffect (s : State) : Host.Outcome State Fault Refusal :=
  .next (match s.commits with
    | q :: rest =>
      if s.live pgLKP ∧ s.on pgLKP LKP.EPOCH_STS_EPOCH_DRAINED then ({ s with commits := rest }.commitNow q).vstoreView else s
    | [] => s)

/-- Every frame that captured an earlier epoch has passed ORD (R312). -/
def State.drained (s : State) : Bool :=
  (s.piped.all fun x => !x.frame.looked || decide (x.frame.epoch = s.epoch)) &&
    s.ords.all fun c => c.2.held.all fun h => !h.2.frame.looked || decide (h.2.frame.epoch = s.epoch)

/-- EPOCH_DRAINED (R312): it rises with cause bit 0, and the time since the commit enters DRAIN_MAX. -/
def execEpochDrained (s : State) : Host.Outcome State Fault Refusal :=
  .next (if s.live pgLKP ∧ ¬ s.on pgLKP LKP.EPOCH_STS_EPOCH_DRAINED ∧ s.drained then
    ((s.wr pgLKP LKP.EPOCH_STS_EPOCH_DRAINED 1).peak pgLKP LKP.DRAIN_MAX_NS ((s.ticks - s.commitAt) * 5 / 4)).raise pgLKP 0
  else s)

/-- The oldest committed rows go to table memory, n of them (R314). -/
def State.writeBack (s : State) : (n : Nat) → List VRow → List VRow → State
  | 0, keep, rest => { s with vstore := keep ++ rest }
  | _ + 1, keep, [] => { s with vstore := keep }
  | n + 1, keep, v :: rest =>
    if v.epoch.isSome then
      (s.keyWrite v.table v.key v.words).writeBack n keep rest
    else s.writeBack n (keep ++ [v]) rest

/-! ### Table DMA (R300 to R307) -/

/-- TDMA_DOORBELL (R300): COUNT descriptors join the ring, or the doorbell is FULL. -/
def State.doorbell (s : State) (r count tag : Nat) : State :=
  let n := s.rd pgTDMA TDMA.RING_STS_OUTSTANDING r
  if 64 < n + count then
    ((s.result pgTDMA TDMA.DB_RES tag FULL [n] r).cnt pgTDMA TDMA.TDMA_CNT 3).raise pgTDMA 1
  else (s.wr pgTDMA TDMA.RING_STS_OUTSTANDING (n + count) r).result pgTDMA TDMA.DB_RES tag DONE [n + count] r

/-- TDMA_DOORBELL (R300). -/
def execTdmaDoorbell (ring count tag : Nat) (s : State) : Host.Outcome State Fault Refusal :=
  .next (if ring < 4 then s.gate pgTDMA (·.doorbell ring (count % 128) tag) else s)

/-- A ring may execute its next descriptor (R301), and a tag slot is free for its host reads (R97, R549). -/
def State.ringReady (s : State) (r : Nat) : Bool :=
  decide (r < 4) && s.enabled pgTDMA && s.on pgTDMA TDMA.RING_CTL_EN r && !s.on pgTDMA TDMA.RING_STS_RUNNING r && s.tagFree &&
    decide (s.rd pgTDMA TDMA.RING_STS_OUTSTANDING r ≠ 0) && (s.fnS 1).sends

/-- A descriptor is bad (R303): reserved OP, a non-zero RSV field, ROWS out of range. -/
def descBad (d : List Nat) : Bool :=
  let w0 := d.getD 0 0
  let op := bits w0 0 4
  let rows := bits (d.getD 4 0) 0 7
  decide (op = 0 ∨ 10 ≤ op) || decide (bits w0 12 4 ≠ 0 ∨ bits w0 24 8 ≠ 0) || decide (bits (d.getD 1 0) 29 3 ≠ 0) ||
    bit (d.getD 4 0) 7 || decide (bits (d.getD 4 0) 16 16 ≠ 0) || decide (bits (d.getD 5 0) 29 3 ≠ 0) || decide (d.getD 6 0 ≠ 0) ||
    (if op = 1 ∨ op = 2 then decide (rows = 0 ∨ 64 < rows) else decide (rows ≠ 1))

/-- What a TDMA operation comes to: an error number, a wait for a write-back, or done with the state and a result row. -/
inductive TdmaOut where
  | err (n : Nat)
  | wait
  | ok (s : State) (row : Option Nat)

/-- The rows of a READ or WRITE with their placement; none where one does not exist. -/
def State.rowSpan (s : State) (id first n : Nat) : Option (List (Nat × Bool)) :=
  (List.range n).mapM fun k => (s.rowPlace id (first + k)).map fun h => (first + k, h)

/-- The error that stops a row write, if any, or none (R304, R306, R308). `held` marks a lock of the same ring. -/
def State.writeErr (s : State) (r id : Nat) (stage : Bool) (row : Nat) (hbm : Bool) (w : List Nat) : Option Nat :=
  let k := s.rowKey id hbm row
  if bitmapOver id w then some 7
  else match tget s.locks k with
    | some l => if l.ring = r then none else some 4
    | none => if ¬ stage ∧ s.inOpen k then some 5 else none

/-- A write to the row must wait for its write-back (R314). -/
def State.writeWaits (s : State) (id row : Nat) (hbm : Bool) : Bool :=
  (tget s.locks (s.rowKey id hbm row)).isNone && s.inBack (s.rowKey id hbm row)

/-- Rows that the version store would newly hold. -/
def State.newStaged (s : State) (id : Nat) (l : List (Nat × Bool)) : Nat :=
  (l.filter fun (row, h) => (tget s.locks (s.rowKey id h row)).isNone && !s.inOpen (s.rowKey id h row)).length

/-- One row of a write takes its place: in the lock's staging, in the open group, or in table memory. -/
def State.writeOne (s : State) (id : Nat) (stage : Bool) (row : Nat) (hbm : Bool) (w : List Nat) : State :=
  let k := s.rowKey id hbm row
  let x := s.rowStored id w
  match tget s.locks k with
  | some l => { s with locks := tset s.locks k { l with staged := some x } }
  | none => if stage then (s.stageRow id k x).vstoreView else s.rowWrite id hbm row x

/-- A write of rows, all or nothing (R304). -/
def State.writeRows (s : State) (r id : Nat) (stage : Bool) (l : List ((Nat × Bool) × List Nat)) : TdmaOut :=
  match l.findSome? fun ((row, h), w) => s.writeErr r id stage row h w with
  | some e => .err e
  | none =>
    if stage ∧ 4096 < s.vstore.length + s.newStaged id (l.map (·.1)) then .err 6
    else if l.any fun ((row, h), _) => s.writeWaits id row h then .wait
    else .ok (l.foldl (fun t ((row, h), w) => t.writeOne id stage row h w) s) none

/-- The rows of an image of row bytes. -/
def splitRows (n : Nat) : (k : Nat) → List Nat → List (List Nat)
  | 0, _ => []
  | k + 1, l => l.take n :: splitRows n k (l.drop n)

/-- WRITE (R304). -/
def State.tdmaWrite (s : State) (r : Nat) (d : List Nat) (data : Option (List Nat)) : TdmaOut :=
  let id := bits (d.getD 0 0) 4 5
  let n := bits (d.getD 4 0) 0 7
  match s.rowSpan id (bits (d.getD 1 0) 0 29) n, data with
  | none, _ => .err 8
  | some _, none => .err 9
  | some span, some img => s.writeRows r id (bit (d.getD 0 0) 9) (span.zip (splitRows (s.rowWords id) n img))

/-- READ (R302): the rows as committed, into host memory. -/
def State.tdmaRead (s : State) (d : List Nat) : TdmaOut :=
  let id := bits (d.getD 0 0) 4 5
  match s.rowSpan id (bits (d.getD 1 0) 0 29) (bits (d.getD 4 0) 0 7) with
  | none => .err 8
  | some span =>
    let img := span.flatMap fun (row, h) => s.rowShown id h row (s.rowNow id h row)
    .ok (s.post 1 (d.getD 2 0 + d.getD 3 0 * 2 ^ 32) (leWordsToBytes img)) none

/-- The reading of a plan's rows: with the open group for a staged operation, else as committed. -/
def State.planRead (s : State) (k : KeyPlan) (stage : Bool) (row : Nat) : List Nat :=
  if stage then s.rowNext k.id k.hbm row else s.rowNow k.id k.hbm row

/-- The page whose cause bit 0 signals NO_ROOM in a table. -/
def noRoomPage (id : Nat) : Nat := if id = 3 ∨ id = 4 then pgLPM else pgEXM

/-- INSERT (R274, R282, R302). -/
def State.tdmaInsert (s : State) (r : Nat) (d : List Nat) (data : Option (List Nat)) : TdmaOut :=
  let id := bits (d.getD 0 0) 4 5
  let stage := bit (d.getD 0 0) 9
  match data with
  | none => .err 9
  | some img =>
    match s.planOf id (bits (d.getD 4 0) 8 8) img with
    | none => .err 8
    | some k =>
      let put (row : Nat) : TdmaOut :=
        match s.writeRows r id stage [((row, k.hbm), k.image)] with
        | .ok t _ => .ok t (some row)
        | o => o
      match k.find (s.planRead k stage) with
      | some row => if bit (d.getD 0 0) 10 then put row else .err 3
      | none =>
        if (id = 3 ∨ id = 4) ∧ 25165824 ≤ s.prefixesAhead then .err 1
        else match k.free fun row => s.rowUsed id (s.planRead k stage row) with
          | some row => put row
          | none => .err 1

/-- DELETE (R302). -/
def State.tdmaDelete (s : State) (r : Nat) (d : List Nat) (data : Option (List Nat)) : TdmaOut :=
  let id := bits (d.getD 0 0) 4 5
  let stage := bit (d.getD 0 0) 9
  match data with
  | none => .err 9
  | some img =>
    match s.planOf id (bits (d.getD 4 0) 8 8) img with
    | none => .err 8
    | some k =>
      match k.find (s.planRead k stage) with
      | none => .err 2
      | some row =>
        s.writeRows r id stage [((row, k.hbm), s.rowBlank id)]

/-- SEARCH (R302). -/
def State.tdmaSearch (s : State) (d : List Nat) (data : Option (List Nat)) : TdmaOut :=
  match data with
  | none => .err 9
  | some img =>
    match s.planOf (bits (d.getD 0 0) 4 5) (bits (d.getD 4 0) 8 8) img with
    | none => .err 8
    | some k =>
      match k.find (s.planRead k false) with
      | none => .err 2
      | some row => .ok s (some row)

/-- The locked rows show (R316). -/
def State.lockView (s : State) : State := s.wr pgLKP LKP.LOCK_STS_LOCKED s.locks.length

/-- LOCK (R306). -/
def State.tdmaLock (s : State) (r : Nat) (d : List Nat) : TdmaOut :=
  let id := bits (d.getD 0 0) 4 5
  let row := bits (d.getD 1 0) 0 29
  match s.rowPlace id row with
  | none => .err 8
  | some h =>
    let k := s.rowKey id h row
    if (tget s.locks k).isSome then .err 4
    else if 256 ≤ s.locks.length then .err 11
    else .ok { s with locks := tset s.locks k ⟨r, none⟩ }.lockView none

/-- UNLOCK and UNLOCK_DISCARD (R306): the staged content is committed, or dropped, and the lock clears. -/
def State.tdmaUnlock (s : State) (r : Nat) (d : List Nat) (commit : Bool) : TdmaOut :=
  let id := bits (d.getD 0 0) 4 5
  let row := bits (d.getD 1 0) 0 29
  match s.rowPlace id row with
  | none => .err 8
  | some h =>
    let k := s.rowKey id h row
    match tget s.locks k with
    | none => .err 10
    | some l =>
      if l.ring ≠ r then .err 4
      else if commit ∧ l.staged.isSome ∧ s.inBack k then .wait
      else
        let s1 := { s with locks := tdel s.locks k }.lockView
        .ok (match commit, l.staged with
          | true, some w => s1.rowWrite id h row w
          | _, _ => s1) none

/-- The outcome of an operation ends its descriptor, or leaves it waiting; an ERROR of a staged write fails the group
(R308), and NO_ROOM sets the table's cause. -/
def State.tdmaFinish (s : State) (r : Nat) (d : List Nat) (o : TdmaOut) : State :=
  match o with
  | .wait => s
  | .ok t row => t.tdmaEnd r (descTag d) DONE 0 (descIrq d) row
  | .err e =>
    let op := bits (d.getD 0 0) 0 4
    let s1 := if bit (d.getD 0 0) 9 ∧ 2 ≤ op ∧ op ≤ 4 then s.wr pgLKP LKP.EPOCH_STS_GROUP_FAILED 1 else s
    (s1.raiseIf (e = 1) (noRoomPage (bits (d.getD 0 0) 4 5)) 0).tdmaEnd r (descTag d) ERROR e (descIrq d) none

/-- The row images that a descriptor names are read from host memory (R302). -/
def State.tdmaFetch (s : State) (d : List Nat) : State :=
  s.fetch 1 (d.getD 2 0 + d.getD 3 0 * 2 ^ 32) (4 * s.rowWords (bits (d.getD 0 0) 4 5) * bits (d.getD 4 0) 0 7)

/-- The descriptor at a ring's HEAD is fetched and executed as an operation: an empty one stands for a fetch that the host failed, and ends
HOST_ERR; a bad one ends BAD_DESC; one of another operation is not this event. -/
def State.tdmaRun (s : State) (r : Nat) (d : List Nat) (op : Nat) (f : State → TdmaOut) : State :=
  if ¬ s.ringReady r then s.tagWait
  else
    let s1 := s.fetch 1 (s.ringAddr r) 32
    if d = [] then s1.tdmaEnd r 0 ERROR 9 false none
    else if descBad d then s1.tdmaEnd r (descTag d) ERROR 13 (descIrq d) none
    else if bits (d.getD 0 0) 0 4 ≠ op then s
    else
      let s2 := if 2 ≤ op ∧ op ≤ 5 then s1.tdmaFetch d else s1
      match f s2 with
      | .wait => s
      | o => s2.tdmaFinish r d o

/-- TDMA_READ (R302). -/
def execTdmaRead (ring : Nat) (desc : List Nat) (s : State) : Host.Outcome State Fault Refusal :=
  .next (s.tdmaRun ring desc 1 fun t => t.tdmaRead desc)

/-- TDMA_WRITE (R304). -/
def execTdmaWrite (ring : Nat) (desc : List Nat) (data : Option (List Nat)) (s : State) :
    Host.Outcome State Fault Refusal :=
  .next (s.tdmaRun ring desc 2 fun t => t.tdmaWrite ring desc data)

/-- TDMA_INSERT (R282). -/
def execTdmaInsert (ring : Nat) (desc : List Nat) (data : Option (List Nat)) (s : State) :
    Host.Outcome State Fault Refusal :=
  .next (s.tdmaRun ring desc 3 fun t => t.tdmaInsert ring desc data)

/-- TDMA_DELETE (R302). -/
def execTdmaDelete (ring : Nat) (desc : List Nat) (data : Option (List Nat)) (s : State) :
    Host.Outcome State Fault Refusal :=
  .next (s.tdmaRun ring desc 4 fun t => t.tdmaDelete ring desc data)

/-- TDMA_SEARCH (R302). -/
def execTdmaSearch (ring : Nat) (desc : List Nat) (data : Option (List Nat)) (s : State) :
    Host.Outcome State Fault Refusal :=
  .next (s.tdmaRun ring desc 5 fun t => t.tdmaSearch desc data)

/-- TDMA_LOCK (R306). -/
def execTdmaLock (ring : Nat) (desc : List Nat) (s : State) : Host.Outcome State Fault Refusal :=
  .next (s.tdmaRun ring desc 6 fun t => t.tdmaLock ring desc)

/-- TDMA_UNLOCK (R306). -/
def execTdmaUnlock (ring : Nat) (desc : List Nat) (s : State) : Host.Outcome State Fault Refusal :=
  .next (s.tdmaRun ring desc 7 fun t => t.tdmaUnlock ring desc true)

/-- TDMA_UNLOCK_DISCARD (R306). -/
def execTdmaUnlockDiscard (ring : Nat) (desc : List Nat) (s : State) : Host.Outcome State Fault Refusal :=
  .next (s.tdmaRun ring desc 8 fun t => t.tdmaUnlock ring desc false)

/-- TDMA_EPOCH_COMMIT (R309): the descriptor ends when its commit takes effect. -/
def execTdmaEpochCommit (ring : Nat) (desc : List Nat) (s : State) : Host.Outcome State Fault Refusal :=
  .next (if ¬ s.ringReady ring then s.tagWait
    else
      let s1 := s.fetch 1 (s.ringAddr ring) 32
      if desc = [] then s1.tdmaEnd ring 0 ERROR 9 false none
      else if descBad desc then s1.tdmaEnd ring (descTag desc) ERROR 13 (descIrq desc) none
      else if bits (desc.getD 0 0) 0 4 ≠ 9 then s
      else s1.commitRequest ⟨some (ring, desc)⟩)

/-- The descriptors of a ring end ABORTED, with the tags the device finds in them (R307); `left` counts them. -/
def State.abortAll (s : State) (r : Nat) : (left : Nat) → List Nat → State
  | 0, _ => s
  | left + 1, tags => (s.tdmaEnd r (tags.headD 0) ABORTED 0 false none).abortAll r left tags.tail

/-- ABORT of a ring (R307): every descriptor that has not reached its commit clock ends ABORTED, a waiting epoch commit of
the ring among them. -/
def State.ringAbort (s : State) (r : Nat) (tags : List Nat) : State :=
  let s1 := { s with commits := s.commits.filter fun (q : CommitReq) => decide (q.ring.map Prod.fst ≠ some r) }.vstoreView
  s1.abortAll r (s.rd pgTDMA TDMA.RING_STS_OUTSTANDING r) tags

/-- TDMA_ABORT (R307). -/
def execTdmaAbort (ring : Nat) (tags : List Nat) (s : State) : Host.Outcome State Fault Refusal :=
  .next (if ring < 4 then s.gate pgTDMA (·.ringAbort ring tags) else s)

/-- RING_CTL.EN written 0 (R307). -/
def State.ringDisable (s : State) (r : Nat) (tags : List Nat) : State :=
  (((s.ringAbort r tags).wr pgTDMA TDMA.RING_CTL_EN 0 r).wr pgTDMA TDMA.RING_STS_HEAD 0 r).wr pgTDMA TDMA.RING_STS_RUNNING 0 r

/-- TDMA_RING_DISABLE (R307). -/
def execTdmaRingDisable (ring : Nat) (tags : List Nat) (s : State) : Host.Outcome State Fault Refusal :=
  .next (if ring < 4 then s.gate pgTDMA (·.ringDisable ring tags) else s)

/-! ### Reports and aging (R294 to R296) -/

/-- The records of the report ring. -/
def State.rptSize (s : State) : Nat := 2 ^ (8 + s.rd pgAGE AGE.RPT_CFG_SIZE_LOG2)

/-- The report ring is full (R296). -/
def State.rptFull (s : State) : Bool :=
  decide ((s.rd pgAGE AGE.RPT_HEAD_INDEX + 1) % s.rptSize = s.rd pgAGE AGE.RPT_TAIL_INDEX % s.rptSize)

/-- A report record goes to host memory and HEAD advances (R296); seconds are kept at a ring wrap. -/
def State.report (s : State) (type t row : Nat) (key : List Nat) (result : Nat) : State :=
  let h := s.rd pgAGE AGE.RPT_HEAD_INDEX
  let base := s.rd pgAGE AGE.RPT_BASE_LO_ADDR + s.rd pgAGE AGE.RPT_BASE_HI_ADDR * 2 ^ 32
  let words := [type + t * 256, row] ++ (key ++ [0, 0, 0, 0]).take 4 ++ [result, s.nt.ns]
  let s1 := s.post 1 (base + 32 * h) (leWordsToBytes words)
  let n := (h + 1) % s.rptSize
  let s2 := s1.wr pgAGE AGE.RPT_HEAD_INDEX n
  if n = 0 then s2.wr pgAGE AGE.RPT_SEC_SEC s.nt.sec else s2

/-- A row of an exact-match table changes in place, where a lookup of the current epoch finds it. -/
def State.rowTouch (s : State) (e id : Nat) (hbm : Bool) (row : Nat) (w : List Nat) : State :=
  let k := s.rowKey id hbm row
  if s.vstore.any fun v => v.key = k && v.visible s.epoch e then
    { s with vstore := s.vstore.map fun v => if v.key = k ∧ v.visible s.epoch e then { v with words := w } else v }
  else s.memWrite id hbm row w

/-- The sweeper visits a row of exact-match table t (R294). -/
def State.ageVisit (s : State) (t row : Nat) : State :=
  let id := 8 + t
  let hbm := s.on pgEXM EXM.TBL_CFG_A_HBM t
  let w := s.rowNow id hbm row
  let fw := s.flagWord t
  let fl := w.getD fw 0
  if ¬ bit fl 0 ∨ bit fl 1 ∨ (tget s.locks (s.rowKey id hbm row)).isSome then s
  else if bit fl 3 then s.rowTouch s.epoch id hbm row (lset w fw (clrBit (clrBit fl 3) 4))
  else if ¬ bit fl 4 then s.rowTouch s.epoch id hbm row (lset w fw (setBit fl 4))
  else if s.rptFull then (s.cnt pgAGE AGE.AGE_CNT 1).raise pgAGE 0
  else
    let x := lset w fw (clrBit fl 0)
    let s1 := (s.countRow id w x).rowTouch s.epoch id hbm row x
    (s1.report 1 t row (w.take 4) (bits (w.getD (s.resultWord t) 0) 0 20)).cnt pgAGE AGE.AGE_CNT 0

/-- Rows of exact-match table t. -/
def State.exmSize (s : State) (t : Nat) : Nat := 2 ^ s.rd pgEXM EXM.TBL_CFG_A_SIZE_LOG2 t * (if s.exmWide t then 2 else 4)

/-- The period of table t is over since its last sweep began, or none has begun (R294). -/
def State.sweepDue (s : State) (t : Nat) : Bool :=
  match tget s.sweepAt t with
  | some k => decide (k + ticksMs (s.rd pgAGE AGE.AGE_PERIOD_MS t) ≤ s.ticks)
  | none => true

/-- AGE_SWEEP_START (R294, R295): the period of a table begins: a sweep starts, or one that is still running is an
overrun. -/
def execAgeSweepStart (table : Nat) (s : State) : Host.Outcome State Fault Refusal :=
  .next (if table < 16 ∧ s.live pgAGE ∧ s.on pgAGE AGE.AGE_CTL_EN ∧ s.rd pgAGE AGE.AGE_PERIOD_MS table ≠ 0 ∧ s.sweepDue table then
    let s1 := { s with sweepAt := tset s.sweepAt table s.ticks }
    match tget s.sweeps table with
    | some w => ({ s1 with sweeps := tset s.sweeps table { w with again := true } }.cnt pgAGE AGE.AGE_CNT 4).raise pgAGE 1
    | none => { s1 with sweeps := tset s.sweeps table ⟨0, false⟩ }.cnt pgAGE AGE.AGE_CNT 3
  else s)

/-- What a rate of `limit` in each span of `span` timing clocks leaves: the span and the count in it, or none where the span is used up. -/
def rateTake (last : Nat × Nat) (now span limit : Nat) : Option (Nat × Nat) :=
  let used := if last.1 = now / span then last.2 else 0
  if used < limit then some (now / span, used + 1) else none

/-- AGE_SWEEP_VISIT (R294): the next row of a running sweep, as SWEEP_RATE lets it; after its last row a sweep that is due starts at
once. -/
def execAgeSweepVisit (table : Nat) (s : State) : Host.Outcome State Fault Refusal :=
  .next (match tget s.sweeps table, rateTake s.visitUs s.ticks (ticksUs 1) (s.rd pgAGE AGE.SWEEP_RATE_ROWS_PER_US) with
    | none, _ => s
    | some _, none => s
    | some w, some u =>
      if ¬ (table < 16 ∧ s.live pgAGE ∧ s.on pgAGE AGE.AGE_CTL_EN) then s
      else
        let s := { s with visitUs := u }
        let first := s.rd pgEXM EXM.TBL_CFG_B_BASE table * 256 * (if s.exmWide table then 2 else 4)
        let s1 := s.ageVisit table (first + w.pos)
        if w.pos + 1 < s.exmSize table then { s1 with sweeps := tset s1.sweeps table { w with pos := w.pos + 1 } }
        else if w.again then { s1 with sweeps := tset s1.sweeps table ⟨0, false⟩ }.cnt pgAGE AGE.AGE_CNT 3
        else { s1 with sweeps := tdel s1.sweeps table })

/-! ### Background compare (R297 to R299) -/

/-- The compare engine leaves a row alone: locked, held in the version store, or learned (R297). -/
def State.shdSkips (s : State) (id row : Nat) (hbm : Bool) : Bool :=
  let k := s.rowKey id hbm row
  (tget s.locks k).isSome || (s.vstore.any fun v => v.key = k) ||
    match exmOf id with
    | some t => bit ((s.memRow id hbm row).getD (s.flagWord t) 0) 2
    | none => false

/-- The head report shows (R320). -/
def State.shdView (s : State) : State :=
  let s1 := s.wr pgSHD SHD.MM_LEVEL_COUNT s.mmFifo.length
  match s.mmFifo with
  | [] => s1.wr pgSHD SHD.MM_HEAD_VALID 0
  | (t, r) :: _ => ((s1.wr pgSHD SHD.MM_HEAD_TABLE t).wr pgSHD SHD.MM_ROW_ROW r).wr pgSHD SHD.MM_HEAD_VALID 1

/-- The rows of a table as the compare engine goes through it: on die, and to the end of its tables in HBM. -/
def State.rowTop (s : State) (id : Nat) : Nat :=
  (s.geometries id).foldl (fun a g => if g.1 ∧ g.2.1 then max a ((g.2.2.1 + 2 ^ g.2.2.2.1) * g.2.2.2.2) else a) (s.rowsOnDie id)

/-- The row that the compare engine reads next (R297): the place it has come to, or else row 0 of the next enabled table, in the order
of the table IDs and round again (DEDUCED from index order; notes/assumptions/23.md). -/
def State.shdPlace (s : State) : Option (Nat × Nat) :=
  let en (t : Nat) : Bool := bit (s.rd pgSHD SHD.SHD_TBL_EN_MASK) t && decide (0 < s.rowTop t)
  if en s.shdAt.1 ∧ s.shdAt.2 < s.rowTop s.shdAt.1 then some s.shdAt
  else (((List.range 28).map fun k => (s.shdAt.1 + 1 + k) % 28).find? en).map fun t => (t, 0)

/-- A row as the compare engine reads it: one with a double-bit error gives nothing, which no image equals, so that the engine reports
and repairs it (R90, R299). -/
def State.rowSeen (s : State) (id : Nat) (hbm : Bool) (row : Nat) : List Nat :=
  if s.rowsDead id hbm [row] then [] else s.memRow id hbm row

/-- The row compared with its shadow image, unless it is left alone; no image is a host read error (R297, R320). -/
def State.shdCompare (s : State) (table row : Nat) (h : Bool) (image : Option (List Nat)) : State :=
  if s.shdSkips table row h then s.cnt pgSHD SHD.SHD_CNT 3
  else match image with
    | none => s.raise pgSHD 2
    | some x =>
      let s1 := s.cnt pgSHD SHD.SHD_CNT 0
      let w := s.rowSeen table h row
      if w = x then s1
      else { s1 with rechecks := s1.rechecks ++ [⟨table, row, s.rowKey table h row, w, x, s.ticks⟩] }

/-- The shadow of a row is read from host memory: row r of table t lies at SHD_BASEt + r times the row bytes (R297). -/
def State.shdFetch (s : State) (table row : Nat) : State :=
  let n := 4 * s.rowWords table
  s.fetch 1 (s.rd pgSHD SHD.SHD_BASE_LO table + s.rd pgSHD SHD.SHD_BASE_HI table * 2 ^ 32 + row * n) n

/-- SHD_COMPARE (R297): the row in its turn is read beside its shadow image, as SHD_RATE lets it, and the engine goes on to the next
one. Host memory is read while PF1 may send. -/
def execShdCompare (table row : Nat) (image : Option (List Nat)) (s : State) : Host.Outcome State Fault Refusal :=
  .next (if ¬ (s.live pgSHD ∧ s.on pgSHD SHD.SHD_CTL_EN) ∨ s.shdPlace ≠ some (table, row) then s
    else if ¬ s.tagFree then s.tagWait
    else match rateTake s.shdMs s.ticks (ticksMs 1) (s.rd pgSHD SHD.SHD_RATE_ROWS_PER_MS) with
    | none => s
    | some u =>
      if ¬ (s.fnS 1).sends then s
      else
        let s1 := { s with shdAt := (table, row + 1), shdMs := u }
        match s.rowPlace table row with
        | none => s1
        | some h => (if s.shdSkips table row h then s1 else s1.shdFetch table row).shdCompare table row h image)

/-- A repair (R299): an immediate write of the reported row from its shadow, by the rules of R277, R306, R308 and R314: a row that is
locked or in the open group is not written, and one that awaits its write-back waits. No ring holds the engine's lock. -/
def State.shdRepair (s : State) (m : Mismatch) (h : Bool) : State :=
  match s.writeErr 4 m.table false m.row h m.image with
  | some _ => s
  | none =>
    if s.writeWaits m.table m.row h then { s with shdRepairs := s.shdRepairs ++ [m] }
    else (s.rowWrite m.table h m.row (s.rowStored m.table m.image)).cnt pgSHD SHD.SHD_CNT 2

/-- The repairs that waited for a write-back are tried again. -/
def State.shdRetry (s : State) : State :=
  s.shdRepairs.foldl (fun (t : State) m =>
    match t.rowPlace m.table m.row with
    | some h => t.shdRepair m h
    | none => t) { s with shdRepairs := [] }

/-- A confirmed difference is reported, or lost where the FIFO is full, and repaired with REPAIR (R298, R299). -/
def State.shdReport (s : State) (m : Mismatch) (h : Bool) : State :=
  let s1 := if s.mmFifo.length < 32 then
      (({ s with mmFifo := s.mmFifo ++ [(m.table, m.row)] }.shdView).cnt pgSHD SHD.SHD_CNT 1).raise pgSHD 0
    else (s.cnt pgSHD SHD.SHD_CNT 4).raise pgSHD 1
  if s.on pgSHD SHD.SHD_CTL_REPAIR ∧ s.mmFifo.length < 32 then s1.shdRepair m h else s1

/-- SHD_RECHECK (R298): RECHECK_US after the first reading the row and its shadow are read again; the same difference is reported. -/
def execShdRecheck (table row : Nat) (image : Option (List Nat)) (s : State) : Host.Outcome State Fault Refusal :=
  .next (match s.rechecks.find? fun m => m.table = table && m.row = row with
    | none => s
    | some m =>
      if ¬ s.live pgSHD ∨ ¬ (s.fnS 1).sends ∨ s.ticks < m.since + ticksUs (s.rd pgSHD SHD.SHD_CTL_RECHECK_US) then s
      else if ¬ s.tagFree then s.tagWait
      else
        let s1 := { s with rechecks := s.rechecks.filter fun x => x.key ≠ m.key }.shdFetch table row
        match image, s.rowPlace table row with
        | none, _ => s1.raise pgSHD 2
        | _, none => s1
        | some x, some h => if s.rowSeen table h row = m.words ∧ x = m.image then s1.shdReport m h else s1)

/-- EPOCH_WRITE_BACK (R314): after the drain, a number of committed rows is written into table memory. -/
def execEpochWriteBack (rows : Nat) (s : State) : Host.Outcome State Fault Refusal :=
  .next (if s.live pgLKP ∧ s.on pgLKP LKP.EPOCH_STS_EPOCH_DRAINED then ((s.writeBack (min rows 4096) [] s.vstore).vstoreView).shdRetry else s)

/-- SHD_MM_POP (R320). -/
def execShdMmPop (s : State) : Host.Outcome State Fault Refusal :=
  .next (s.gate pgSHD fun t => { t with mmFifo := t.mmFifo.drop 1 }.shdView)

/-! ### Register writes with rules of their own (R318, R319) -/

/-- The rows of a table in HBM that a written byte lies in. A row that nothing has written has undefined content (R875) and counts
as holding nothing. -/
def State.hbmRows (s : State) (id : Nat) : List (Nat × List Nat) :=
  s.hbm.map fun c =>
    let row := c.1 / (4 * s.rowWords id)
    (s.rowKey id true row, s.memRow id true row)

/-- Some prefix of length index n is stored, or some filter row names the length (R318): unwritten rows hold neither. -/
def State.lenUsed (s : State) (n : Nat) : Bool :=
  let v6 := decide (17 ≤ n)
  let filterBit := if v6 then n - 17 else n
  let all := s.rows ++ s.hbmRows (if v6 then 4 else 3) ++ s.vstore.map fun v => (v.key, v.words)
  let g := (s.geometries (if v6 then 4 else 3)).getD (if v6 then n - 17 else n) (false, false, 0, 0, 1)
  all.any fun e =>
    let (id, h) := keyTable e.1
    let row := e.1 % 2 ^ 33
    if v6 then
      ((decide (id = 1) || decide (id = 2)) && bit (wordsNat e.2) filterBit) ||
        (decide (id = 4) && g.1 && (h == g.2.1) && covers g row && s.rowUsed 4 e.2)
    else
      (decide (id = 0) && bit (wordsNat e.2) filterBit) || (decide (id = 3) && g.1 && (h == g.2.1) && covers g row && s.rowUsed 3 e.2)

/-- LEN_CFG written (R317, R318). -/
def State.lenCfgWrite (s : State) (n v : Nat) : State :=
  if s.lenUsed n then s.raise pgLPM 1
  else
    (s.wrWord pgLPM n v [LPM.LEN_CFG_BASE, LPM.LEN_CFG_HBM, LPM.LEN_CFG_VALID]).wr pgLPM LPM.LEN_CFG_SIZE_LOG2
      (max 8 (min 27 (bits v 21 5))) n

/-- Exact-match table t holds entries (R319). -/
def State.exmHolds (s : State) (t : Nat) : Bool :=
  let g := (s.geometries (8 + t)).headD (false, false, 0, 0, 1)
  g.1 && (s.rows ++ s.hbmRows (8 + t) ++ s.vstore.map fun v => (v.key, v.words)).any fun e =>
    let (id, h) := keyTable e.1
    let row := if s.exmWide t then e.1 % 2 ^ 33 / 2 else e.1 % 2 ^ 33
    decide (id = 8) && (h == g.2.1) && covers g row && s.rowUsed (8 + t) e.2

/-- TBL_CFG_A written (R319): KEY_LEN is held to the range of the WIDE written with it. -/
def State.tblCfgAWrite (s : State) (t v : Nat) : State :=
  if s.exmHolds t then s.raise pgEXM 1
  else
    let n := bits v 0 6
    let k := if bit v 6 then max 17 (min 48 n) else max 1 (min 16 n)
    (s.wrWord pgEXM t v [EXM.TBL_CFG_A_WIDE, EXM.TBL_CFG_A_VALID, EXM.TBL_CFG_A_HBM, EXM.TBL_CFG_A_SIZE_LOG2]).wr pgEXM
      EXM.TBL_CFG_A_KEY_LEN k t

/-- TBL_CFG_B written (R319). -/
def State.tblCfgBWrite (s : State) (t v : Nat) : State :=
  if s.exmHolds t then s.raise pgEXM 1 else s.wr pgEXM EXM.TBL_CFG_B_BASE (bits v 0 21) t

end Sys2Proof.Machine
end

