-- ==== Sys2Proof/Machine/Range.lean ====
section
/-! DEFINITION. Machine/Range.lean: the range-search banks (spec 09_range_search.md, R322 to R353). -/

namespace Sys2Proof.Machine

/-- A WIDTH code in units (R324, R352). -/
def unitsOf (code : Nat) : Nat := if code = 0 then 1 else if code = 1 then 2 else 4

/-- Four-replica mode (R341). -/
def State.replica (s : State) : Bool := s.on (pgRSU 0) RSU.RSU_MODE_REPLICA

/-- The width of a bank in units; in four-replica mode banks mirror banks 0 to 3 (R341). -/
def State.bankUnits (s : State) (bank : Nat) : Nat :=
  let b := if s.replica then bank % 4 else bank
  unitsOf (s.rd (pgRSU (b / 4)) RSU.BANK_CFG_WIDTH (b % 4))

def State.rsuAt (s : State) (bank i : Nat) : RsuEntry := tgetD s.rsu (bank * 8192 + i) {}

/-- ENTRY_CNT of a bank shows its valid entries (R352). -/
def State.rsuCount (s : State) (bank : Nat) : State :=
  s.wr (pgRSU (bank / 4)) RSU.ENTRY_CNT_COUNT (s.rsu.filter fun e => e.1 / 8192 = bank && e.2.valid).length (bank % 4)

/-- The banks that hold a bank's entries: in four-replica mode its mirrors as well (R341). -/
def State.rsuCopies (s : State) (bank : Nat) : List Nat := if s.replica then [bank, bank + 4, bank + 8, bank + 12] else [bank]

/-- An entry replaced, in all copies of its bank; its units are good again (R335, R341, R353). -/
def State.rsuSet (s : State) (bank i : Nat) (e : RsuEntry) : State :=
  let w := s.bankUnits bank
  (s.rsuCopies bank).foldl (fun (t : State) b =>
    { t with rsu := tset t.rsu (b * 8192 + i) e
             rsuDead := t.rsuDead.filter fun u => !decide (u / 8192 = b ∧ u % 8192 / w = i) }.rsuCount b) s

/-- Every entry of a bank invalid (R326, R340). -/
def State.rsuClear (s : State) (bank : Nat) : State :=
  { s with rsu := s.rsu.filter (fun e => e.1 / 8192 ≠ bank), rsuDead := s.rsuDead.filter fun u => u / 8192 ≠ bank }.rsuCount bank

/-! ### The search (R323, R328, R330, R333) -/

/-- The 16-bit values of a key (R322). -/
def keyValues : List Byte → List Nat
  | a :: b :: t => (a.toNat * 256 + b.toNat) :: keyValues t
  | [a] => [a.toNat * 256]
  | [] => []

/-- An entry matches key values (R323). -/
def RsuEntry.hit (e : RsuEntry) (v : List Nat) : Bool :=
  e.valid && (e.ranges.zip v).all fun ((lo, hi), x) => decide (lo ≤ x ∧ x ≤ hi)

/-- The profile that a frame's action word 3 names (R327). -/
def Frame.rsuProf (f : Frame) : Nat := bits (f.act.getD 3 0) 0 4

/-- The slots of a search profile's parts (R327). -/
def State.rsuParts (s : State) (k : Nat) : List Nat :=
  let p := pgRSU 0
  ([RSU.PROF_SLOTS_A_PART0, RSU.PROF_SLOTS_A_PART1, RSU.PROF_SLOTS_A_PART2, RSU.PROF_SLOTS_A_PART3, RSU.PROF_SLOTS_B_PART4,
    RSU.PROF_SLOTS_B_PART5, RSU.PROF_SLOTS_B_PART6, RSU.PROF_SLOTS_B_PART7].map fun f => s.rd p f k).take
      (s.rd p RSU.PROF_CFG_PARTS k + 1)

/-- The banks that a profile searches (R328, R341). -/
def State.rsuBanks (s : State) (k : Nat) : List Nat :=
  let p := pgRSU 0
  (List.range (if s.replica then 4 else 16)).filter fun b =>
    bit (s.rd p RSU.PROF_CFG_BANK_MASK k) b && decide (s.bankUnits b = unitsOf (s.rd p RSU.PROF_CFG_WIDTH k)) &&
      s.enabled (pgRSU (b / 4))

/-- The matching entries of a frame's search in the order of bank and index (R323, R328). -/
def State.rsuHits (s : State) (f : Frame) : Tbl RsuEntry :=
  let k := f.rsuProf
  let v := keyValues (f.join (s.rsuParts k) (20 * unitsOf (s.rd (pgRSU 0) RSU.PROF_CFG_WIDTH k)))
  s.rsu.filter fun e => decide (e.1 / 8192 ∈ s.rsuBanks k) && e.2.hit v

/-- The winner and the other entries of its priority: highest priority, then lowest bank, then lowest index (R330). -/
def rsuWinner (hits : Tbl RsuEntry) : Tbl RsuEntry :=
  let top := hits.foldl (fun a e => max a e.2.prio) 0
  hits.filter fun e => e.2.prio = top

/-- The entry is one that a running window has already copied to its neighbour (R350). -/
def State.rsuCopied (s : State) (k : Nat) : Bool := s.rsuRuns.any fun e => decide (0 < e.2.made ∧ e.2.bank * 8192 + e.2.pos = k)

/-- A tie is counted, signalled and captured (R333, R334); of the two places of an entry that a window moves, one takes no part. -/
def State.rsuTie (s : State) (w : Tbl RsuEntry) : State :=
  let p := pgRSU 0
  match w.filter fun (e : Nat × RsuEntry) => !s.rsuCopied e.1 with
  | (a, e) :: (b, _) :: _ =>
    if ¬ s.on p RSU.RSU_MODE_TIE_DET then s
    else
      let s1 := (s.cnt p RSU.RSU_GCNT 3).raise p 0
      if s.on p RSU.TIE_CAP0_VALID then s1
      else s1.wrAll p 0 [(RSU.TIE_CAP0_BANK, a / 8192), (RSU.TIE_CAP0_INDEX, a % 8192), (RSU.TIE_CAP0_VALID, 1),
        (RSU.TIE_CAP1_BANK, b / 8192), (RSU.TIE_CAP1_INDEX, b % 8192), (RSU.TIE_CAP2_PRIORITY, e.prio)]
  | _ => s

/-- A parity error ends a search; the unit keeps failing until its entry is written (R335, R353). -/
def State.rsuParity (s : State) (bank unit : Nat) : State :=
  let p := pgRSU 0
  let s1 := ({ s with rsuDead := (bank * 8192 + unit) :: s.rsuDead.filter fun u => u ≠ bank * 8192 + unit }.cnt p RSU.RSU_GCNT 4).raise p 1
  if s.on p RSU.ERR_CAP_VALID then s1
  else s1.wrAll p 0 [(RSU.ERR_CAP_BANK, bank), (RSU.ERR_CAP_UNIT, unit), (RSU.ERR_CAP_VALID, 1)]

/-- A winner's action on the frame (R331): override, class, drop, to host. -/
def Frame.rsuApply (f : Frame) (act : Nat) : Frame :=
  let w0 := f.act.getD 0 0
  let w1 := f.act.getD 1 0
  let w0 := if bit act 24 then w0 - bits w0 0 3 + bits act 21 3 else w0
  let w0 := if bit act 26 then setBit w0 6 else w0
  let w1 := if bit act 20 then bits act 0 20 + 2 ^ 31 else w1
  { f with act := lset (lset f.act 0 w0) 1 w1 }

/-- The banks that a frame's search compares, in the replica whose turn it is (R328, R342). -/
def State.rsuSearched (s : State) (f : Frame) : List Nat :=
  (s.rsuBanks f.rsuProf).map fun b => if s.replica then 4 * (s.rsuTurn % 4) + b else b

/-- The unit whose parity fails in a frame's search: one that failed before, or the new one that the command names (R335). -/
def State.rsuBad (s : State) (f : Frame) (new : Option (Nat × Nat)) : Option (Nat × Nat) :=
  let l := s.rsuSearched f
  match s.rsuDead.find? fun u => l.contains (u / 8192) with
  | some u => some (u / 8192, u % 8192)
  | none => new.filter fun e => l.contains e.1 && decide (e.2 < 8192)

/-- The outcome of a frame's search on its frame: the frame, and whether it is dropped (R330 to R332). -/
def State.rsuOutcome (s : State) (f : Frame) : State × Frame × Bool :=
  let p := pgRSU 0
  let s1 := s.cnt p RSU.RSU_GCNT 0
  let w := rsuWinner (s.rsuHits f)
  match w with
  | [] =>
    let s2 := s1.cnt p RSU.RSU_GCNT 2
    if s.on p RSU.PROF_CFG_MISS_DROP f.rsuProf then (s2.cnt p RSU.RSU_GCNT 7, f, true) else (s2, f, false)
  | (_, e) :: _ =>
    let s2 := (s1.cnt p RSU.RSU_GCNT 1).rsuTie w
    if bit e.act 25 then (s2.cnt p RSU.RSU_GCNT 7, f, true) else (s2, f.rsuApply e.act, false)

/-- The requests in the queue show, and back-pressure begins at 80 and ends below 64 (R338). -/
def State.rsuQueueView (s : State) : State :=
  let p := pgRSU 0
  let n := (s.piped.filter fun x => x.stage = .search).length
  let s1 := s.wr p RSU.RSQ_STS_QUEUED n
  let bp (t : State) (b : Nat) : State :=
    (List.range 20).foldl (fun t i => t.wr (pgIPP i) IPP.IPP_STS_BP (max b (s.rd pgPMM PMM.PMM_STS_BP))) (t.wr p RSU.RSQ_STS_BP b)
  if 80 ≤ n ∧ ¬ s.on p RSU.RSQ_STS_BP then (bp s1 1).raise p 2
  else if n < 64 ∧ s.on p RSU.RSQ_STS_BP then bp s1 0
  else s1

/-! ### Commands (R343 to R351) -/

/-- A command ends in ERROR with cause bit 4 (R352, R353); a REFUSED one is counted. -/
def State.rsuErr (s : State) (p tag err : Nat) : State :=
  let s1 := s.result p RSU.RS_RES tag ERROR [err]
  (if err = 5 then s1.cnt p RSU.RSU_CNT 2 else s1).raise p 4

/-- A command on a bank of page RSUi with its index checked: ignored while another runs (R345), refused in the mirrored pages
(R341), BAD_INDEX beyond the bank's entries. -/
def State.rsuCmd (s : State) (i bank tag : Nat) (f : Nat → Nat → State) : State :=
  let p := pgRSU i
  let b := 4 * i + bank % 4
  let x := s.rd p RSU.RS_INDEX_INDEX
  if (tget s.rsuRuns i).isSome then (s.cnt p RSU.RSU_CNT 2).raise p 4
  else if i ≠ 0 ∧ s.replica then s.rsuErr p tag 5
  else if 8192 / s.bankUnits b ≤ x then s.rsuErr p tag 1
  else f b x

/-- The staged entry for a bank's width (R343). -/
def State.rsuStaged (s : State) (i units : Nat) : RsuEntry :=
  let p := pgRSU i
  { prio := s.rd p RSU.STAGE_CTL_PRIORITY, valid := s.on p RSU.STAGE_CTL_VALID, act := s.rd p RSU.STAGE_ACT_ACT
    ranges := (List.range (10 * units)).map fun k =>
      (s.rd p RSU.STAGE_RANGE_LO (16 * (k / 10) + k % 10), s.rd p RSU.STAGE_RANGE_HI (16 * (k / 10) + k % 10)) }

/-- RS_CMD WRITE (R343, R344). -/
def State.rsWrite (s : State) (i bank tag : Nat) : State :=
  s.rsuCmd i bank tag fun b x =>
    ((s.rsuSet b x (s.rsuStaged i (s.bankUnits b))).cnt (pgRSU i) RSU.RSU_CNT 0).result (pgRSU i) RSU.RS_RES tag DONE

/-- RS_CMD READ (R345): the entry into the staging registers and the result set. -/
def State.rsRead (s : State) (i bank tag : Nat) : State :=
  let p := pgRSU i
  s.rsuCmd i bank tag fun b x =>
    let e := s.rsuAt b x
    let s1 := (List.range (10 * s.bankUnits b)).foldl (fun t k =>
      let r := e.ranges.getD k (0, 0)
      (t.wr p RSU.STAGE_RANGE_LO r.1 (16 * (k / 10) + k % 10)).wr p RSU.STAGE_RANGE_HI r.2 (16 * (k / 10) + k % 10)) s
    (s1.wrAll p 0 [(RSU.STAGE_CTL_PRIORITY, e.prio), (RSU.STAGE_CTL_VALID, b2n e.valid), (RSU.STAGE_ACT_ACT, e.act)]).result p
      RSU.RS_RES tag DONE [e.prio + b2n e.valid * 65536, e.act]

/-- RS_CMD INVALIDATE (R344). -/
def State.rsInvalidate (s : State) (i bank tag : Nat) : State :=
  s.rsuCmd i bank tag fun b x =>
    ((s.rsuSet b x { s.rsuAt b x with valid := false }).cnt (pgRSU i) RSU.RSU_CNT 0).result (pgRSU i) RSU.RS_RES
      tag DONE

/-- The nearest hole within d entries of t, the one above t of two equally near (R349). -/
def State.autoHole (s : State) (b t d n : Nat) : Option Nat :=
  (List.range (d + 1)).findSome? fun k =>
    if t + k < n ∧ ¬ (s.rsuAt b (t + k)).valid then some (t + k)
    else if k ≤ t ∧ ¬ (s.rsuAt b (t - k)).valid then some (t - k)
    else none

/-- MOVE_WINDOW is accepted (R348, R349): the window of copies begins. -/
def State.moveWindow (s : State) (i bank tag : Nat) : State :=
  let p := pgRSU i
  s.rsuCmd i bank tag fun b t =>
    let n := 8192 / s.bankUnits b
    let go (h : Nat) : State :=
      if (s.rsuAt b h).valid then s.rsuErr p tag 2
      else if 64 < (h - t) + (t - h) then s.rsuErr p tag 4
      else { s.resStart p RSU.RS_RES with rsuRuns := tset s.rsuRuns i { tag := tag, bank := b, target := t, hole := h, pos := h } }
    if s.on p RSU.RS_INDEX_AUTO then
      match s.autoHole b t (s.rd p RSU.BANK_CFG_HOLE_INT (b % 4)) n with
      | some h => go h
      | none => s.rsuErr p tag 3
    else if n ≤ s.rd p RSU.RS_INDEX_HOLE then s.rsuErr p tag 1
    else go (s.rd p RSU.RS_INDEX_HOLE)

/-- The index whose entry the next copy moves into `pos`. -/
def RsuRun.from_ (r : RsuRun) : Nat := if r.target < r.pos then r.pos - 1 else r.pos + 1

/-- One copy of the window on page RSUi (R348). -/
def State.rsuCopy (s : State) (i : Nat) (r : RsuRun) : State :=
  let s1 := (s.rsuSet r.bank r.pos (s.rsuAt r.bank r.from_)).cnt (pgRSU i) RSU.RSU_CNT 1
  { s1 with rsuRuns := tset s.rsuRuns i { r with pos := r.from_, made := r.made + 1, clocks := r.clocks - 4 } }

/-- The window on page RSUi ends: T is invalid, and result word 1 gives the hole and the copies (R348, R349). -/
def State.rsuWindowEnd (s : State) (i : Nat) (r : RsuRun) : State :=
  let s1 := (s.rsuSet r.bank r.target { s.rsuAt r.bank r.target with valid := false }).result (pgRSU i) RSU.RS_RES r.tag DONE [r.hole + r.made * 65536] 0 r.late
  { s1 with rsuRuns := tdel s.rsuRuns i }

/-- Three core clocks of the window on page RSUi (R350): a copy takes 4, and the end of the window up to 8 more. -/
def State.rsuClock (s : State) (i : Nat) (r : RsuRun) : State :=
  let r := { r with clocks := r.clocks + 3 }
  if r.pos ≠ r.target ∧ 4 ≤ r.clocks then s.rsuCopy i r
  else if r.pos = r.target ∧ 8 ≤ r.clocks then s.rsuWindowEnd i r
  else { s with rsuRuns := tset s.rsuRuns i r }

/-- A timing clock of the running windows. -/
def State.rsuTick (s : State) : State :=
  s.rsuRuns.foldl (fun (t : State) (e : Nat × RsuRun) => t.rsuClock e.1 e.2) s

/-- RS_WRITE (R344). -/
def execRsWrite (rsu bank tag : Nat) (s : State) : Host.Outcome State Fault Refusal :=
  .next (if rsu < 4 then s.gate (pgRSU rsu) (·.rsWrite rsu bank tag) else s)

/-- RS_READ (R345). -/
def execRsRead (rsu bank tag : Nat) (s : State) : Host.Outcome State Fault Refusal :=
  .next (if rsu < 4 then s.gate (pgRSU rsu) (·.rsRead rsu bank tag) else s)

/-- RS_INVALIDATE (R344). -/
def execRsInvalidate (rsu bank tag : Nat) (s : State) : Host.Outcome State Fault Refusal :=
  .next (if rsu < 4 then s.gate (pgRSU rsu) (·.rsInvalidate rsu bank tag) else s)

/-- MOVE_WINDOW (R348). -/
def execMoveWindow (rsu bank tag : Nat) (s : State) : Host.Outcome State Fault Refusal :=
  .next (if rsu < 4 then s.gate (pgRSU rsu) (·.moveWindow rsu bank tag) else s)

/-- ABORT (R346, R351): a window with no copy made ends ABORTED; with one made the abort is late. The other commands commit in the
clock that takes them, so that an abort finds them complete (R64). -/
def State.rsAbort (s : State) (i : Nat) : State :=
  match tget s.rsuRuns i with
  | none => s.resLate (pgRSU i) RSU.RS_RES
  | some r =>
    if r.made = 0 then { s.result (pgRSU i) RSU.RS_RES r.tag ABORTED with rsuRuns := tdel s.rsuRuns i }
    else { s with rsuRuns := tset s.rsuRuns i { r with late := true } }

/-- RS_ABORT (R346, R351). -/
def execRsAbort (rsu _tag : Nat) (s : State) : Host.Outcome State Fault Refusal :=
  .next (if rsu < 4 then s.gate (pgRSU rsu) (·.rsAbort rsu) else s)

/-! ### Register writes with rules of their own (R326, R340, R341) -/

/-- BANK_CFG of local bank b of RSUi written (R326, R341, R352). -/
def State.bankCfgWrite (s : State) (i b v : Nat) : State :=
  let p := pgRSU i
  if i ≠ 0 ∧ s.replica then s
  else
    let s1 := s.wr p RSU.BANK_CFG_HOLE_INT (max 2 (min 64 (bits v 4 7))) b
    if bits v 0 2 = s.rd p RSU.BANK_CFG_WIDTH b then s1
    else if s.on p COMMON.PAGE_CTL_ENABLE then s1.raise p 3
    else ((s1.wr p RSU.BANK_CFG_WIDTH (bits v 0 2) b).rsuCopies (4 * i + b)).foldl (fun (t : State) k => t.rsuClear k)
      (s1.wr p RSU.BANK_CFG_WIDTH (bits v 0 2) b)

/-- RSU_MODE written (R340): a change of REPLICA needs all four pages disabled; setting it invalidates banks 4 to 15, and clearing it those
whose width differs from that of the bank they mirrored (DEDUCED from R326; notes/assumptions/23.md). -/
def State.rsuModeWrite (s : State) (v : Nat) : State :=
  let p := pgRSU 0
  let s1 := s.put p RSU.RSU_MODE_TIE_DET (bit v 1)
  if bit v 0 = s.replica then s1
  else if (List.range 4).any fun i => s.on (pgRSU i) COMMON.PAGE_CTL_ENABLE then s1.raise p 3
  else
    let s2 := s1.put p RSU.RSU_MODE_REPLICA (bit v 0)
    let widths (t : State) : List Nat := (List.range 12).map fun k => t.bankUnits (4 + k)
    let moved := (List.range 12).filter fun k => bit v 0 || (widths s1).getD k 0 ≠ (widths s2).getD k 0
    moved.foldl (fun (t : State) k => t.rsuClear (4 + k)) s2

end Sys2Proof.Machine
end

