-- ==== Sys2Proof/Machine/Buffers.lean ====
section
/-! DEFINITION. Machine/Buffers.lean: the scheduler's node words, queues, buffer pools, admission, marking, spill and
read-back (spec 10_buffers_multicast.md, R354 to R381, R390 to R395; 11_queues_scheduling.md, R398 to R403, R416, R417). -/

namespace Sys2Proof.Machine

/-! ### Nodes and queues -/

/-- Nodes of a level (R398). -/
def levelSize : Nat → Nat
  | 1 => 256
  | 2 => 4096
  | 3 => 32768
  | 4 => 65536
  | _ => 262144

/-- The key of node i of a level. -/
def nodeKey (lvl i : Nat) : Nat := lvl * 262144 + i

/-- The reset words of node i of a level (R430). -/
def nodeReset (lvl i : Nat) : Node :=
  let c := if i % 4 = 3 then 7 else 2 * (i % 4)
  { words := [0, if lvl = 1 then 0 else 1, 0, if lvl = 4 then 0x1EA50 else if lvl = 5 then c + 16 * c else 0] }

/-- Node i of a level. -/
def State.node (s : State) (lvl i : Nat) : Node := tgetD s.nodes (nodeKey lvl i) (nodeReset lvl i)

/-- Node i of a level replaced. -/
def State.setNode (s : State) (lvl i : Nat) (n : Node) : State := { s with nodes := tset s.nodes (nodeKey lvl i) n }

/-- Word k of a node. -/
def Node.word (n : Node) (k : Nat) : Nat := n.words.getD k 0

/-- VALID of a node (R430). -/
def Node.valid (n : Node) : Bool := bit (n.word 0) 31

/-- The parent of node i of a level 2 to 5 (R398). -/
def State.parentOf (s : State) (lvl i : Nat) : Nat := if lvl = 5 then i / 4 else bits ((s.node lvl i).word 0) 0 18

/-- Queue q and its ancestors: levels 5 to 1 with their node indices. -/
def State.pathOf (s : State) (q : Nat) : List (Nat × Nat) :=
  let cs := q / 4
  let sub := s.parentOf 4 cs
  let grp := s.parentOf 3 sub
  [(5, q), (4, cs), (3, sub), (2, grp), (1, s.parentOf 2 grp)]

/-- The port of egress queue q. -/
def State.portOf (s : State) (q : Nat) : Nat := s.parentOf 2 (s.parentOf 3 (s.parentOf 4 (q / 4)))

/-- Admission queue IDs from here on are VOQs. -/
def voq0 : Nat := 262144

/-- Queue q is of the express class (R400). -/
def State.isExpress (s : State) (q : Nat) : Bool :=
  if voq0 ≤ q then decide ((q - voq0) % 8 = 7) else decide (bits ((s.node 5 q).word 3) 0 3 = 7)

/-- SLOT_BYTES of a port (R412). -/
def State.slotBytes (s : State) (p : Nat) : Nat := ((3 * bits ((s.node 1 p).word 3) 0 11 + 127) / 128) * 64

/-- Queue q replaced. -/
def State.setQue (s : State) (q : Nat) (x : Queue) : State :=
  { s with queues := if x = {} then tdel s.queues q else tset s.queues q x }

/-- A field of the profile of queue q (R376). -/
def State.admProf (s : State) (q : Nat) (f : Fld) : Nat := s.rd pgADM f (s.que q).prof

/-- A flush of queue q runs. -/
def State.flushing (s : State) (q : Nat) : Bool :=
  match s.flush with
  | some x => decide (x.queue = q)
  | none => false

/-! ### The buffer pools (R354 to R360) -/

/-- Bytes of a buffer of pool p: 0 to 3 on chip, 4 S0, 5 S1 (R354). -/
def bufBytes : Nat → Nat
  | 0 => 256
  | 1 => 1024
  | 2 => 4096
  | 3 => 16384
  | 4 => 4096
  | _ => 16384

/-- Buffers of pool p (R354, R357, R495). -/
def State.poolSize (s : State) (p : Nat) : Nat :=
  if p < 4 then s.rd pgBPM BPM.POOL_CARVE_MIB p * 1048576 / bufBytes p
  else if s.fabric then 0
  else
    let region := 128 - s.rd (pgHBC 0) HBC.REGION_CFG_TBL_GIB
    let s0 := min (s.rd pgBPM BPM.SPILL_SPLIT_GIB_4K) region
    if p = 4 then s0 * 262144 else (region - s0) * 65536

/-- The key of a buffer. -/
def bufKey (p b : Nat) : Nat := p * 2 ^ 24 + b

/-- The key of the bitmap word that holds buffer b of pool p: word 64w and slice s of R358. -/
def wordOfBuf (p b : Nat) : Nat := bufKey p (b / 4096 * 64 + b % 64)

/-- Buffers of pool p in use. -/
def State.poolUsed (s : State) (p : Nat) : Nat := (s.bufs.filter fun e => e.1 / 2 ^ 24 = p).length

/-- Buffers of pool p out of service and not in use (R360). -/
def State.poolLost (s : State) (p : Nat) : Nat :=
  64 * (s.lostWords.filter fun w => w / 2 ^ 24 = p).length -
    (s.bufs.filter fun e => decide (e.1 / 2 ^ 24 = p) && s.lostWords.contains (wordOfBuf p (e.1 % 2 ^ 24))).length

/-- Free buffers of pool p. -/
def State.poolFree (s : State) (p : Nat) : Nat := s.poolSize p - s.poolUsed p - s.poolLost p

/-- A buffer is free and in service. -/
def State.bufFree (s : State) (p b : Nat) : Bool :=
  decide (b < s.poolSize p) && (tget s.bufs (bufKey p b)).isNone && !s.lostWords.contains (wordOfBuf p b)

/-- The lowest-numbered free buffer of slice sl of pool p (R358). No more indices need a look than the slice has buffers
in use or out of service, and one. -/
def State.sliceFree (s : State) (p sl : Nat) : Option Nat :=
  let used := (s.bufs.filter fun e => decide (e.1 / 2 ^ 24 = p) && decide (e.1 % 64 = sl)).length
  ((List.range (used + 64 * s.lostWords.length + 1)).map fun k => 64 * k + sl).find? fun b => s.bufFree p b

/-- The buffer that the next request of pool p gets: the next slice in cyclic order that has a free one (R359). -/
def State.pickBuf (s : State) (p : Nat) : Option Nat :=
  ((List.range 64).map fun k => (tgetD s.nextSlice p 0 + k) % 64).findSome? fun sl => s.sliceFree p sl

/-- Bytes in the write staging and read-back buffers (R371, R373). A frame granted from the read-back buffer keeps its
space until the events of R367. -/
def State.staging (s : State) : Nat := sumNat (s.bufs.map fun e => e.2.staged)
def State.backBytes (l : List Frame) : Nat :=
  sumNat (l.map fun f => match f.place with
    | .reading => f.qlen
    | .back => f.qlen
    | _ => 0)
def State.readBack (s : State) : Nat :=
  State.backBytes s.toFd + State.backBytes (s.spray.map (·.frame)) + sumNat (s.queues.map fun e => State.backBytes e.2.frames)

/-- The pools that are in spill state after their fill is looked at again (R368): thresholds reached set it, thresholds
left clear it. -/
def State.spillBits (s : State) : Nat :=
  (List.range 4).foldl (fun a p =>
    let use := s.poolUsed p * 1000
    let size := s.poolSize p
    let was := bit (s.rd pgBRM BRM.BRIM_STS_POOL_SPILL) p
    let now := if was then decide (s.rd pgBRM BRM.BRIM_CTL_LO_PM * size < use)
      else decide (0 < size) && decide (s.rd pgBRM BRM.BRIM_CTL_HI_PM * size ≤ use)
    if now then setBit a p else a) 0

/-- The levels that BPM and BRM show follow the buffers (R390, R392, R393). -/
def State.poolView (s : State) : State :=
  if ¬ s.on pgBPM BPM.CARVE_STS_APPLIED then s
  else
    let s1 := (List.range 4).foldl (fun t p =>
      (t.wr pgBPM BPM.POOL_FREE_COUNT (s.poolFree p) p).peak pgBPM BPM.POOL_PEAK_COUNT (s.poolUsed p) p) s
    let s2 := (s1.wr pgBPM BPM.SPILL_FREE_COUNT (s.poolFree 4) 0).wr pgBPM BPM.SPILL_FREE_COUNT (s.poolFree 5) 1
    let sp := s2.spillBits
    let rose := andNot sp (s2.rd pgBRM BRM.BRIM_STS_POOL_SPILL)
    let s3 := ((s2.wr pgBRM BRM.BRIM_STS_POOL_SPILL sp).wr pgBRM BRM.WSTG_LEVEL_BYTES s2.staging).wr pgBRM
      BRM.RBUF_LEVEL_BYTES s2.readBack
    let s4 := s3.wr pgBRM BRM.SPILL_QUEUES_COUNT (s.queues.filter fun e => e.2.spill).length
    s4.raiseIf (rose ≠ 0) pgBRM 0

/-- The bitmap word of buffer b fails its check: its 64 buffers leave service (R360). -/
def State.loseWord (s : State) (p b : Nat) : State :=
  ({ s with lostWords := wordOfBuf p b :: s.lostWords }.inc pgBPM BPM.LOST_COUNT 64).raise pgBPM 4

/-- A buffer of pool p for an owner (R358, R359): the buffer, or none where the pool is empty. `badWord`: the bitmap word
read first fails its check. -/
def State.alloc (s : State) (p : Nat) (r : BufRec) (badWord : Bool) : State × Option Nat :=
  match s.pickBuf p with
  | none => (s, none)
  | some b0 =>
    let s1 := if badWord then s.loseWord p b0 else s
    match s1.pickBuf p with
    | none => (s1, none)
    | some b =>
      let s2 := { s1 with bufs := tset s1.bufs (bufKey p b) r, nextSlice := tset s1.nextSlice p ((b + 1) % 64),
                          bpmUsed := true }
      ((s2.cnt pgBPM BPM.BPM_CNT 0).poolView, some b)

/-- The first refused free request is captured (R366). The OWNER of a buffer that is not allocated is a free value. -/
def State.refuseCap (s : State) (p b req : Nat) (owner : Option Nat) : State :=
  if s.on pgBPM BPM.REFUSE_CAP0_VALID then s
  else
    let s1 := (s.wr pgBPM BPM.REFUSE_CAP0_REQUESTER req).wr pgBPM BPM.REFUSE_CAP0_VALID 1
    let s2 := match owner with
      | some o => s1.wr pgBPM BPM.REFUSE_CAP1_OWNER o
      | none => s1.wrFree pgBPM BPM.REFUSE_CAP1_OWNER
    (s2.wr pgBPM BPM.REFUSE_CAP2_BUFFER b).wr pgBPM BPM.REFUSE_CAP2_POOL p

/-- The express bytes that a buffer or replica charged to a port return (R416). -/
def State.expressFree (s : State) : Option (Nat × Nat) → State
  | none => s
  | some (p, n) => s.wr pgQSU QSU.EXP_LEVEL_BYTES (s.rd pgQSU QSU.EXP_LEVEL_BYTES p - n) p

/-- A free request (R366). -/
def State.bpmFree (s : State) (p b req : Nat) : State :=
  let refused (owner : Option Nat) : State := ((s.cnt pgBPM BPM.BPM_CNT 4).refuseCap p b req owner).raise pgBPM 1
  match tget s.bufs (bufKey p b) with
  | none => refused none
  | some r =>
    if r.owner = req then
      (({ s with bufs := tdel s.bufs (bufKey p b) }.cnt pgBPM BPM.BPM_CNT 1).expressFree r.express).poolView
    else refused (some r.owner)

/-- BUFFER_FREE (R366, R367): a free request, such as the one made in a queue's name when the last byte of its frame has
crossed the Band or its last cell has been sprayed. -/
def execBufferFree (pool buf requester : Nat) (s : State) : Host.Outcome State Fault Refusal :=
  .next (s.gate pgBPM (·.bpmFree (pool % 6) (buf % 2 ^ 24) (requester % 2 ^ 24)))

/-! ### LEN and the choice of a pool (R361 to R364) -/

/-- LEN of a frame (R361): none where it is unknown. -/
def Frame.known (f : Frame) : Option Nat :=
  if ¬ f.cut then some f.len
  else match f.l3 with
    | none => none
    | some o =>
      match beAt f.bytes o 1 / 16 with
      | 4 => some (o + beAt f.bytes (o + 2) 2 + 4)
      | 6 => some (o + 40 + beAt f.bytes (o + 4) 2 + 4)
      | _ => none

/-- The bytes that admission charges: LEN, or the frame's length where LEN is unknown (DEDUCED,
notes/assumptions/24.md). -/
def Frame.charge (f : Frame) : Nat := f.known.getD f.len

/-- The on-chip pool for a LEN (R362). -/
def chipPool : Option Nat → Nat
  | none => 3
  | some n => if n ≤ 256 then 0 else if n ≤ 1024 then 1 else if n ≤ 4096 then 2 else 3

/-- A frame stored in a buffer of pool p: longer than the buffer, it is cut to it and marked errored (R364). -/
def State.store (s : State) (f : Frame) (p : Nat) : State × Frame :=
  if bufBytes p < f.len then
    ((s.cnt pgBPM BPM.BPM_CNT 5).raise pgBPM 2, { f with bytes := f.bytes.take (bufBytes p), err := true })
  else (s, f)

/-- An on-chip buffer for a frame, by R362 and R363. -/
def State.takeChip (s : State) (f : Frame) (r : BufRec) (badWord : Bool) : State × Option (Nat × Nat) :=
  let first := chipPool f.known
  let s1 := match f.known with
    | some n => if 16384 < n then s.cnt pgBPM BPM.BPM_CNT 6 else s
    | none => s.cnt pgBPM BPM.BPM_CNT 6
  let empty (t : State) : State × Option (Nat × Nat) := ((t.cnt pgBPM BPM.BPM_CNT 3).raise pgBPM 0, none)
  match s1.alloc first r badWord with
  | (s2, some b) => (s2, some (first, b))
  | (s2, none) =>
    if first = 3 then empty s2
    else match s2.alloc (first + 1) r false with
      | (s3, some b) => (s3.cnt pgBPM BPM.BPM_CNT 2, some (first + 1, b))
      | (s3, none) => empty s3

/-! ### Choosing a queue (R401, R402, R416, R417) -/

/-- The class set's map applied to a named queue (R401). -/
def State.mapQueue (s : State) (q cls : Nat) : Nat :=
  let w := (s.node 4 (q / 4)).word 3
  if bit w 16 then 4 * (q / 4) + bits w (2 * (cls % 8)) 2 else q

/-- The queue of a frame from the fabric for port p (R402). -/
def State.fabricQueue (s : State) (p cls : Nat) : Nat := s.mapQueue (4 * bits ((s.node 1 p).word 3) 16 16) cls

/-- The queue of an accepted frame (R402): none where the row's TYPE has no queue. TYPE 8 is the model's mark of a frame that
a service of the device hands to a queue it names (R639, R648, R649). -/
def State.queueFor (s : State) (f : Frame) (fromFabric : Bool) : Option Nat :=
  if fromFabric then some (s.fabricQueue (bits f.dest 12 8) f.cls)
  else match f.nhType with
    | 1 => some (s.mapQueue (f.dest % 262144) f.cls)
    | 2 =>
      if f.dest % 4096 = s.rd pgCRWN CRWN.DEV_MODE_DEVICE_NUM then some (s.fabricQueue (bits f.dest 12 8) f.cls)
      else some (voq0 + 8 * (f.dest % 4096) + f.cls % 8)
    | 3 => some (s.mapQueue (4 * s.rd pgQSU QSU.HOST_CS_CSET) f.cls)
    | 8 => some f.queue
    | _ => none

/-- Queue q takes no frame: halted, being flushed, or not valid up to its port (R417). -/
def State.queueClosed (s : State) (q : Nat) : Bool :=
  (s.que q).halted || s.flushing q || decide (294912 ≤ q) ||
    (decide (q < voq0) && (s.pathOf q).any fun n => !(s.node n.1 n.2).valid)

/-- An express frame of n bytes for queue q exceeds the port's limit (R416). -/
def State.expressOver (s : State) (q n : Nat) : Bool :=
  let p := s.portOf q
  decide (q < voq0) && s.isExpress q &&
    (decide (s.rd pgQSU QSU.EXP_CFG_EXP_BURST p < s.rd pgQSU QSU.EXP_LEVEL_BYTES p + n) ||
      (s.on pgQSU QSU.EXP_CFG_POLICE_EN p && decide (tgetD s.police p 0 < n * 6400)))

/-- The drops before admission (R416, R417): none where the frame goes on to R376. -/
def State.preDrop (s : State) (q n : Nat) : Option State :=
  if s.queueClosed q then some ((s.cnt pgQSU QSU.QSU_CNT 2).raise pgQSU 3)
  else if s.expressOver q n then some ((s.cnt pgQSU QSU.QSU_CNT 1).raise pgQSU 0)
  else none

/-- What an express frame charges to its port (R416). -/
def State.expressOf (s : State) (q n : Nat) : Option (Nat × Nat) :=
  if q < voq0 ∧ s.isExpress q then some (s.portOf q, n) else none

/-- An admitted express frame charges its port's level and policer (R416). -/
def State.expressCharge (s : State) : Option (Nat × Nat) → State
  | none => s
  | some (p, n) =>
    let s1 := s.wr pgQSU QSU.EXP_LEVEL_BYTES (s.rd pgQSU QSU.EXP_LEVEL_BYTES p + n) p
    if s.on pgQSU QSU.EXP_CFG_POLICE_EN p then { s1 with police := tset s1.police p (tgetD s1.police p 0 - n * 6400) } else s1

/-! ### Admission and marking (R376 to R380) -/

/-- R370 lets queue q spill a unicast frame, thresholds apart. -/
def State.maySpill (s : State) (q : Nat) : Bool :=
  s.enabled pgBRM && s.on pgBRM BRM.BRIM_CTL_SPILL_EN && decide (s.admProf q ADM.PROF_SPILL_EN = 1) && !s.isExpress q

/-- free(q) of R376. -/
def State.freeFor (s : State) (q : Nat) (unicast : Bool) : Nat :=
  sumNat (([0, 1, 2, 3] ++ if unicast && s.maySpill q then [4, 5] else []).map fun p => s.poolFree p * bufBytes p)

/-- The decision of R376 for n bytes: none accepts, else the ADM counter of the drop. -/
def State.admission (s : State) (q n : Nat) (unicast : Bool) : Option Nat :=
  let d := (s.que q).depth + n
  if unicast ∧ (s.que q).residue ≠ [] then some 5
  else if d ≤ s.admProf q ADM.PROF_MIN_GUAR * 256 then none
  else if s.admProf q ADM.PROF_Q_MAX * 256 < d then some 1
  else if s.admProf q ADM.PROF_DT_EN = 1 ∧ 2 ^ s.admProf q ADM.PROF_ALPHA * s.freeFor q unicast < d * 128 then some 2
  else none

/-- The ECN field of an IP frame (R379): none for a frame that is not IP. -/
def Frame.ecn (f : Frame) : Option Nat :=
  match f.l3 with
  | none => none
  | some o =>
    match beAt f.bytes o 1 / 16 with
    | 4 => some (beAt f.bytes (o + 1) 1 % 4)
    | 6 => some (bits (beAt f.bytes (o + 1) 1) 4 2)
    | _ => none

/-- The marking decision of R378 for a frame that queue q admits, and what R379 makes of it: the frame, or none where it
is dropped. The random source is a free value. -/
def State.mark (s : State) (q : Nat) (f : Frame) : State × Option Frame :=
  let k := (s.que q).depth / 256 - s.admProf q ADM.PROF_MARK_DEPTH
  match f.ecn with
  | none => (s, some f)
  | some e =>
    if ¬ s.on pgADM ADM.ADM_CTL_ECN_EN ∨ k = 0 then (s, some f)
    else
      let d := s.draw 16
      if min 65536 (k * s.admProf q ADM.PROF_MARK_SLOPE) ≤ d.1 then (d.2, some f)
      else if e = 1 ∨ e = 2 then (d.2.cnt pgADM ADM.ADM_CNT 3, some { f with ce := true })
      else if e = 0 ∧ s.admProf q ADM.PROF_NONECT_DROP = 1 then ((d.2.cnt pgADM ADM.ADM_CNT 4).raise pgADM 0, none)
      else (d.2, some f)

/-! ### Placement (R368 to R372) -/

/-- R370 asks for HBM. -/
def State.wantSpill (s : State) (q : Nat) (f : Frame) : Bool :=
  let x := s.que q
  s.maySpill q &&
    (x.spill || decide (s.admProf q ADM.PROF_QBRIM_HI * 256 < x.depth - x.hbmBytes + f.charge) ||
      bit (s.rd pgBRM BRM.BRIM_STS_POOL_SPILL) (chipPool f.known))

/-- The write staging buffer and the read-back buffer hold 4 MiB each (R371, R373). -/
def stageBytes : Nat := 4194304

/-- The HBM access of a spilled frame, by port 0 or 1 (R495, R499): S0 from the start of the spill region, S1 behind it. -/
def State.spillAcc (s : State) (port p b len : Nat) (write : Bool) : HbmAcc :=
  { port := port, spill := true, len := len, write := write
    addr := if p = 4 then b * 4096 else s.poolSize 4 * 4096 + b * 16384 }

/-- A regulator still holds an access to a spill buffer (R502). -/
def State.spillHeld (s : State) (port p b : Nat) : Bool :=
  (s.heldBy port).any fun x => decide (x.addr = (s.spillAcc port p b 0 true).addr)

/-- The spill of a frame (R371): its place, or none where it cannot spill (R372). The write goes to port 0 of the HBM (R30). -/
def State.spill (s : State) (q : Nat) (f : Frame) : State × Option (Nat × Nat) :=
  let r : BufRec := { owner := q, staged := f.charge }
  if stageBytes < s.staging + f.charge then (s.put pgBRM BRM.BRIM_STS_WSTG_FULL true, none)
  else
    let small := match f.known with
      | some n => decide (n ≤ 4096)
      | none => false
    let got : State × Option (Nat × Nat) :=
      match s.alloc (if small then 4 else 5) r false with
      | (s1, some b) => (s1, some (if small then 4 else 5, b))
      | (s1, none) =>
        if small then
          match s1.alloc 5 r false with
          | (s2, some b) => (s2.cnt pgBRM BRM.BRM_CNT 4, some (5, b))
          | (s2, none) => (s2, none)
        else (s1, none)
    match got with
    | (s2, some pb) =>
      (((s2.cnt pgBRM BRM.BRM_CNT 0).bump pgBRM BRM.BRM_CNT 1 1 f.charge).hbmPost (s2.spillAcc 0 pb.1 pb.2 f.charge true), some pb)
    | (s2, none) => (s2.raise pgBRM 2, none)

/-- Where an admitted frame is stored: the state, and place, pool and buffer, or none where it is dropped. -/
def State.placeFrame (s : State) (q : Nat) (f : Frame) (express : Option (Nat × Nat)) (badWord : Bool) :
    State × Option (Place × Nat × Nat) :=
  let chip (t : State) : State × Option (Place × Nat × Nat) :=
    match t.takeChip f { owner := q, express := express } badWord with
    | (t1, some (p, b)) => (t1, some (.chip, p, b))
    | (t1, none) => (t1, none)
  if s.wantSpill q f then
    match s.spill q f with
    | (s1, some (p, b)) => (s1, some (.staged, p, b))
    | (s1, none) => chip ((s1.cnt pgBRM BRM.BRM_CNT 3).raise pgBRM 1)
  else chip s

/-! ### The admission of a unicast frame -/

/-- A frame joins the tail of queue q. -/
def State.enqueue (s : State) (q : Nat) (f : Frame) : State :=
  let x := s.que q
  (s.setQue q { x with frames := x.frames ++ [f], spill := x.spill || f.inHbm }).cnt pgADM ADM.ADM_CNT 0

/-- A frame may be forwarded cut-through from queue q (R74): still arriving, stored on chip, the queue empty, and the
egress port no faster than the ingress port. The host path is no egress port. -/
def State.cutThrough (s : State) (q : Nat) (f : Frame) (place : Place) : Bool :=
  let p := s.portOf q
  f.cut && decide (q < voq0) && decide ((s.que q).frames = []) && decide (place = .chip) &&
    decide (p ≠ s.rd pgQSU QSU.HOST_PORT_PORT) &&
    decide (s.slotMbps p ≤ s.slotMbps f.port)

/-- ARG1 of trace point 4 for an admitted frame: marked or not, spilled or not (R785). -/
def admitTrace (f : Frame) (place : Place) : Nat := (if f.ce then 2 else 0) + 4 * b2n (decide (place ≠ .chip))

/-- A unicast frame for queue q: R417, R416, R376, R378, then its place. -/
def State.admitFrame (s : State) (q : Nat) (f : Frame) (badWord : Bool) : State :=
  let n := f.charge
  match s.preDrop q n with
  | some t => t.tracePoint f 4 0 q 1
  | none =>
    match s.admission q n true with
    | some c => ((s.cnt pgADM ADM.ADM_CNT c).raise pgADM 0).tracePoint f 4 0 q 1
    | none =>
      match s.mark q f with
      | (s1, none) => s1.tracePoint f 4 0 q 1
      | (s1, some g) =>
        let ex := s1.expressOf q n
        match s1.placeFrame q g ex badWord with
        | (s2, none) => (s2.cnt pgADM ADM.ADM_CNT 6).tracePoint f 4 0 q 1
        | (s2, some (place, p, b)) =>
          let cut := s2.cutThrough q g place
          let st := (s2.tracePoint g 4 0 q (admitTrace g place)).store g p
          ((st.1.enqueue q { st.2 with queue := q, qlen := n, place := place, hold := .buffer p b, cut := cut }).expressCharge
            ex).poolView

/-- The QD's blocks that a frame passes are enabled, and the carve is in force (R52, R356). -/
def State.qdOn (s : State) : Bool :=
  s.enabled pgQSU && s.enabled pgADM && s.enabled pgBPM && s.on pgBPM BPM.CARVE_STS_APPLIED

/-- The Band carries frames between the dies (R19): both dies hold what they have not sent while it does not. -/
def State.bandUp (s : State) : Bool := s.on pgBAND BAND.BAND_STS_UP

/-- QD_ADMIT_FRAME (R376): the next frame from the Band, or from the fabric, is queued or dropped. A multicast frame at
the head waits for MCR_REPLICATE. -/
def execQdAdmitFrame (fromFabric badWord : Bool) (s : State) : Host.Outcome State Fault Refusal :=
  .next (match (if fromFabric then s.fabFrames else s.toQd) with
    | [] => s
    | f :: rest =>
      if ¬ fromFabric ∧ (f.nhType = 6 ∨ ¬ s.bandUp) then s
      else
        let s1 := if fromFabric then { s with fabFrames := rest } else { s with toQd := rest }
        match s1.queueFor f fromFabric with
        | none => s1
        | some q => if s1.qdOn then s1.admitFrame q f badWord else s1)

/-! ### Spill writes and read-back (R371, R373 to R375) -/

/-- The frames of a queue with the one in a buffer changed. -/
def markBuf (p b : Nat) (g : Frame → Frame) (l : List Frame) : List Frame :=
  l.map fun f => if f.hold = .buffer p b then g f else f

/-- SPILL_WRITE_COMPLETE (R371): the bytes of a spilled frame have left the write staging buffer. -/
def execSpillWriteComplete (pool buf : Nat) (s : State) : Host.Outcome State Fault Refusal :=
  .next (match tget s.bufs (bufKey pool buf) with
    | none => s
    | some r =>
      if r.staged = 0 ∨ pool < 4 ∨ ¬ s.live pgBRM ∨ s.spillHeld 0 pool buf then s
      else
        let x := s.que r.owner
        let s1 := { s with bufs := tset s.bufs (bufKey pool buf) { r with staged := 0 } }
        let s2 := s1.setQue r.owner { x with frames := markBuf pool buf (fun (f : Frame) =>
          if f.place = .staged then { f with place := .hbm } else f) x.frames }
        (s2.put pgBRM BRM.BRIM_STS_WSTG_FULL false).poolView)

/-- The first frame of a list in a place, changed. -/
def firstAt (p : Place) (g : Frame → Frame) : List Frame → List Frame
  | [] => []
  | f :: t => if f.place = p then g f :: t else f :: firstAt p g t

/-- The queue's head lies in HBM or on its way back (R373). -/
def Queue.headBack (x : Queue) : Bool :=
  match x.frames with
  | f :: _ => decide (f.place = .hbm ∨ f.place = .reading ∨ f.place = .back)
  | [] => false

/-- The next frame to read back of a queue: the first that lies in HBM, none before it still in the staging buffer. -/
def Queue.nextBack (x : Queue) : Option Frame :=
  match x.frames.find? fun f => f.place = .hbm ∨ f.place = .staged with
  | some f => if f.place = .hbm then some f else none
  | none => none

/-- BRM_READBACK (R373): the next HBM frame of a queue is requested, within PREFETCH bytes (the head frame in any case,
DEDUCED, notes/assumptions/24.md) and the read-back buffer. -/
def execBrmReadback (queue : Nat) (s : State) : Host.Outcome State Fault Refusal :=
  .next (
    let x := s.que queue
    match x.nextBack with
    | none => s
    | some f =>
      let fits := decide (State.backBytes x.frames + f.qlen ≤ s.admProf queue ADM.PROF_PREFETCH * 256) ||
        decide (x.frames.head? = some f)
      if ¬ s.enabled pgBRM ∨ ¬ x.headBack ∨ ¬ fits ∨ stageBytes < s.readBack + f.qlen then s
      else
        let s1 := s.setQue queue { x with frames := firstAt .hbm (fun (g : Frame) => { g with place := .reading }) x.frames }
        (match f.hold with
          | .buffer p b => s1.hbmPost (s1.spillAcc 1 p b f.qlen false)
          | _ => s1).poolView)

/-- A queue leaves spill state when its HBM part is empty and its on-chip bytes are at or below QBRIM_LO (R369). -/
def State.spillLeave (s : State) (q : Nat) : State :=
  let x := s.que q
  if x.spill ∧ x.hbmBytes = 0 ∧ x.depth ≤ s.admProf q ADM.PROF_QBRIM_LO * 256 then s.setQue q { x with spill := false } else s

/-- The read-back of a frame has left the regulator of port 1 (R502). -/
def State.backIssued (s : State) (f : Frame) : Bool :=
  match f.hold with
  | .buffer p b => !s.spillHeld 1 p b
  | _ => true

/-- READBACK_COMPLETE (R373 to R375): the oldest requested frame of a queue is whole in the read-back buffer; its HBM
buffer is freed; with uncorrectable data it is poisoned. -/
def execReadbackComplete (queue : Nat) (poisoned : Bool) (s : State) : Host.Outcome State Fault Refusal :=
  .next (
    let x := s.que queue
    match x.frames.find? fun f => f.place = .reading with
    | none => s
    | some f =>
      if ¬ s.live pgBRM ∨ ¬ s.backIssued f then s
      else
        let s1 := s.setQue queue { x with frames := firstAt .reading (fun (g : Frame) =>
          { g with place := .back, hold := .free, poison := g.poison || poisoned }) x.frames }
        let s2 := match f.hold with
          | .buffer p b => s1.bpmFree p b queue
          | _ => s1
        let s3 := s2.cnt pgBRM BRM.BRM_CNT 2
        let s4 := if poisoned then (s3.cnt pgBRM BRM.BRM_CNT 5).raise pgBRM 3 else s3
        (s4.spillLeave queue).poolView)

/-! ### Register writes with rules of their own -/

/-- A word of an admission profile is written (R381, R394). -/
def State.admProfileWrite (s : State) (p w v : Nat) : State :=
  let rd (f : Fld) : Nat := s.rd pgADM f p
  let bad := match w with
    | 0 => decide (v % 2 ^ 28 < rd ADM.PROF_MIN_GUAR)
    | 1 => decide (rd ADM.PROF_Q_MAX < v % 2 ^ 28)
    | 5 => decide (v % 2 ^ 28 < rd ADM.PROF_QBRIM_LO)
    | 6 => decide (rd ADM.PROF_QBRIM_HI < v % 2 ^ 28)
    | _ => false
  if bad then s.raise pgADM 1
  else match w with
    | 0 => s.wr pgADM ADM.PROF_Q_MAX v p
    | 1 => s.wr pgADM ADM.PROF_MIN_GUAR v p
    | 2 => (s.wrWord pgADM p v [ADM.PROF_DT_EN, ADM.PROF_SPILL_EN, ADM.PROF_NONECT_DROP, ADM.PROF_PREFETCH]).wr pgADM
        ADM.PROF_ALPHA (min 10 (v % 16)) p
    | 3 => s.wr pgADM ADM.PROF_MARK_DEPTH v p
    | 4 => s.wr pgADM ADM.PROF_MARK_SLOPE v p
    | 5 => s.wr pgADM ADM.PROF_QBRIM_HI v p
    | 6 => s.wr pgADM ADM.PROF_QBRIM_LO v p
    | _ => s

/-- ADM_PROFILE_WRITE (R381). -/
def execAdmProfileWrite (profile word value : Nat) (s : State) : Host.Outcome State Fault Refusal :=
  .next (s.regCmd pgADM (0x8000 + 32 * (profile % 64) + 4 * (word % 8)) value (·.admProfileWrite (profile % 64) (word % 8) value))

/-- A write of POOL_CARVEn or SPILL_SPLIT (R355). -/
def State.carveWrite (s : State) (f : Fld) (n v : Nat) : State :=
  if s.on pgBPM COMMON.PAGE_CTL_ENABLE ∨ s.bpmUsed then s.raise pgBPM 3 else s.wr pgBPM f v n

/-- BPM's ENABLE goes to 1: the carve is checked (R356). -/
def State.carveCheck (s : State) : State :=
  let sum := sumNat ((List.range 4).map fun n => s.rd pgBPM BPM.POOL_CARVE_MIB n)
  if sum = 288 then ((s.wr pgBPM BPM.CARVE_STS_APPLIED 1).wr pgBPM BPM.CARVE_STS_BAD_SUM 0).poolView
  else ((s.wr pgBPM BPM.CARVE_STS_APPLIED 0).wr pgBPM BPM.CARVE_STS_BAD_SUM 1).raise pgBPM 3

/-- A write of BRIM_CTL (R392). -/
def State.brimCtlWrite (s : State) (v : Nat) : State :=
  if 1000 < bits v 0 10 ∨ bits v 0 10 ≤ bits v 16 10 then s.raise pgBRM 5
  else (s.wrWord pgBRM 0 v [BRM.BRIM_CTL_HI_PM, BRM.BRIM_CTL_LO_PM, BRM.BRIM_CTL_SPILL_EN]).poolView

/-- A write of QPROF: the profile of the queue named in QSEL (R394). -/
def State.qprofWrite (s : State) (v : Nat) : State :=
  let q := s.rd pgADM ADM.QSEL_QUEUE
  if q < 294912 then s.setQue q { s.que q with prof := v % 64 } else s

end Sys2Proof.Machine
end

