-- ==== Sys2Proof/Machine/Multicast.lean ====
section
/-! DEFINITION. Machine/Multicast.lean: multicast groups, descriptors, replicas and residue (spec
10_buffers_multicast.md, R382 to R389, R396, R397). -/

namespace Sys2Proof.Machine

/-- The OWNER that names replica r of MCD m (R365). -/
def mcdOwner (m r : Nat) : Nat := 2 ^ 23 + m * 1024 + r

/-- MCD m. -/
def State.mcd (s : State) (m : Nat) : Mcd := tgetD s.mcds m { pool := 0, buf := 0 }

/-- The levels that MCR shows (R396). -/
def State.mcrView (s : State) : State :=
  ((s.wr pgMCR MCR.MCD_STS_IN_USE s.mcds.length).wr pgMCR MCR.MCD_STS_WAITING
    (s.mcds.filter fun e => e.2.wait).length).peak pgMCR MCR.MCD_PEAK_COUNT s.mcds.length

/-- MCD m replaced. -/
def State.setMcd (s : State) (m : Nat) (x : Mcd) : State := { s with mcds := tset s.mcds m x }

/-- A residue replica is held. -/
def Mcd.holdsResidue (x : Mcd) : Bool := x.reps.any fun r => decide (r.state = .residue)

/-- The replica that the owner names after replica r is dropped: the nearest earlier one not dropped, else 0 (R387). -/
def Mcd.ownerAfter (x : Mcd) (r : Nat) : Nat :=
  (((List.range r).filter fun k => match x.reps[k]? with
    | some y => decide (y.state ≠ .dropped)
    | none => false).getLast?).getD 0

/-- Replica r of MCD m has a new state. -/
def Mcd.setRep (x : Mcd) (r : Nat) (f : Replica → Replica) : Mcd :=
  match x.reps[r]? with
  | some y => { x with reps := lset x.reps r (f y) }
  | none => x

/-- The named owner in BPM's descriptor follows the MCD (R387). -/
def State.ownerMove (s : State) (m : Nat) (x : Mcd) (o : Nat) : State :=
  if o = x.owner then s
  else
    let s1 := match tget s.bufs (bufKey x.pool x.buf) with
      | some r => { s with bufs := tset s.bufs (bufKey x.pool x.buf) { r with owner := mcdOwner m o } }
      | none => s
    (s1.setMcd m { x with owner := o }).cnt pgMCR MCR.MCR_CNT 7

/-- REMAIN counts one replica less; at 0 the buffer is freed in the owner's name and the MCD released (R386, R387). -/
def State.mcdLess (s : State) (m : Nat) : State :=
  let x := s.mcd m
  if x.remain ≤ 1 then
    ({ s with mcds := tdel s.mcds m }.bpmFree x.pool x.buf (mcdOwner m x.owner)).mcrView
  else (s.setMcd m { x with remain := x.remain - 1 }).mcrView

/-- WAIT ends when no residue is left (R386). -/
def State.mcdSettle (s : State) (m : Nat) : State :=
  let x := s.mcd m
  if x.wait ∧ ¬ x.holdsResidue ∧ (tget s.mcds m).isSome then (s.setMcd m { x with wait := false }).mcrView else s

/-- Replica r of MCD m leaves: sent, or dropped (R386, R387). -/
def State.replicaGone (s : State) (m r : Nat) (dropped : Bool) : State :=
  let x := s.mcd m
  let ex := (x.reps[r]?.map (·.express)).getD none
  let y := x.setRep r fun (z : Replica) =>
    { z with state := if dropped then .dropped else .sent, express := none }
  let s1 := (s.setMcd m y).expressFree ex
  let s2 := if dropped ∧ r = x.owner then s1.ownerMove m y (y.ownerAfter r) else s1
  (s2.mcdLess m).mcdSettle m

/-- A replica that admission accepts now: marked and queued, or dropped by its ECN field; `n` is the MCR counter
(R386). -/
def State.replicaEnqueue (s : State) (m r n : Nat) : State :=
  match (s.mcd m).reps[r]? with
  | none => s
  | some y =>
    match s.mark y.queue y.frame with
    | (s1, none) => (s1.tracePoint y.frame 4 0 y.queue 1).replicaGone m r true
    | (s1, some g) =>
      let ex := s1.expressOf y.queue g.qlen
      let s2 := (s1.tracePoint g 4 0 y.queue (admitTrace g g.place)).setMcd m
        ((s1.mcd m).setRep r fun (z : Replica) => { z with state := .queued, express := ex })
      (((s2.enqueue y.queue g).expressCharge ex).cnt pgMCR MCR.MCR_CNT n).mcdSettle m

/-- Replica r of MCD m meets R417, R416 and R385 in list order. -/
def State.replicate1 (s : State) (m r : Nat) : State :=
  match (s.mcd m).reps[r]? with
  | none => s
  | some y =>
    match s.preDrop y.queue y.frame.qlen with
    | some t => (t.tracePoint y.frame 4 0 y.queue 1).replicaGone m r true
    | none =>
      if (s.que y.queue).residue = [] ∧ (s.admission y.queue y.frame.qlen false).isNone then s.replicaEnqueue m r 1
      else
        let x := s.que y.queue
        (s.setQue y.queue { x with residue := x.residue ++ [(m, r)] }).setMcd m
          ((s.mcd m).setRep r fun (z : Replica) => { z with state := .residue })

/-- A replica from a list entry (R382): the queue it names and its frame. -/
def State.replicaOf (s : State) (f : Frame) (m r e : Nat) : Replica :=
  if bit e 31 then
    let g := { f with nhType := 2, dest := bits e 0 12 + bits e 15 8 * 4096, cls := bits e 12 3, hold := .replica m r }
    let q := (s.queueFor g false).getD 0
    { queue := q, frame := { g with queue := q }, state := .residue }
  else
    { queue := e % 262144, frame := { f with queue := e % 262144, nhType := 1, dest := e % 262144, hold := .replica m r }
      state := .residue }

/-- A free MCD: the first from a free value on, in cyclic order (no rule names which; notes/assumptions/25.md). -/
def State.pickMcd (s : State) (start : Nat) : Option Nat :=
  ((List.range 8192).map fun k => (start + k) % 8192).find? fun m => (tget s.mcds m).isNone

/-- A multicast frame for group word w has its buffer (R384, R386): its replicas in list order. -/
def State.replicateAll (s : State) (f : Frame) (m w p b : Nat) : State :=
  let n := bits w 18 11
  let st := s.store { f with cut := false, qlen := f.charge } p
  let reps := (List.range n).map fun r => st.1.replicaOf st.2 m r (tgetD s.repList (bits w 0 18 + r) 0)
  let s1 := { st.1.setMcd m { pool := p, buf := b, reps := reps, remain := n, owner := n - 1, age := s.mcdAge } with
              mcdAge := s.mcdAge + 1 }
  let s2 := (List.range n).foldl (fun t r => t.replicate1 m r) s1.mcrView
  if (s2.mcd m).holdsResidue then (s2.setMcd m { s2.mcd m with wait := true, since := s.ticks }).mcrView else s2

/-- A multicast frame (R382, R383). -/
def State.multicast (s : State) (f : Frame) (badWord : Bool) : State :=
  let s1 := s.cnt pgMCR MCR.MCR_CNT 0
  let w := tgetD s.groups (f.dest % 65536) 0
  if ¬ bit w 31 ∨ bits w 18 11 = 0 then s1.cnt pgMCR MCR.MCR_CNT 8
  else
    let d := s1.draw 13
    match d.2.pickMcd d.1 with
    | none => (d.2.cnt pgMCR MCR.MCR_CNT 5).raise pgMCR 1
    | some m =>
      match d.2.takeChip f { owner := mcdOwner m (bits w 18 11 - 1) } badWord with
      | (s2, none) => s2
      | (s2, some (p, b)) => s2.replicateAll f m w p b

/-- MCR_REPLICATE (R386): a multicast frame at the head of the frames from the Band. -/
def execMcrReplicate (badWord : Bool) (s : State) : Host.Outcome State Fault Refusal :=
  .next (match s.toQd with
    | [] => s
    | f :: rest =>
      if f.nhType ≠ 6 ∨ ¬ s.bandUp then s
      else
        let s1 := { s with toQd := rest }
        if s1.qdOn ∧ s1.enabled pgMCR then s1.multicast f badWord else s1)

/-! ### Residue (R385 to R388) -/

/-- A residue replica is ready: the oldest residue replica of its queue, and admission would accept it now (R385). -/
def State.residueReady (s : State) (m r : Nat) : Bool :=
  match (s.mcd m).reps[r]? with
  | none => false
  | some y => decide (y.state = .residue) && decide ((s.que y.queue).residue.head? = some (m, r)) &&
      (s.admission y.queue y.frame.qlen false).isNone

/-- A residue replica leaves its queue's residue. -/
def State.residueTake (s : State) (m r : Nat) : State :=
  match (s.mcd m).reps[r]? with
  | none => s
  | some y =>
    let x := s.que y.queue
    s.setQue y.queue { x with residue := x.residue.filter fun e => e ≠ (m, r) }

/-- A residue replica is enqueued (R386). -/
def State.residueGo (s : State) (m r : Nat) : State := (s.residueTake m r).replicaEnqueue m r 2

/-- RESIDUE_READY (R386): the queue of a residue replica has changed; it is enqueued if it is ready now. -/
def execResidueReady (mcd rep : Nat) (s : State) : Host.Outcome State Fault Refusal :=
  .next (if s.live pgMCR ∧ (s.mcd mcd).wait ∧ s.residueReady mcd rep then s.residueGo mcd rep else s)

/-- A residue replica is dropped and counted for its egress port or the fabric (R386). -/
def State.residueDrop (s : State) (m r : Nat) : State :=
  match (s.mcd m).reps[r]? with
  | none => s
  | some y =>
    let s1 := s.residueTake m r
    let s2 := if voq0 ≤ y.queue then s1.inc pgMCR MCR.RESIDUE_DROP_FAB
      else s1.inc pgMCR MCR.RESIDUE_DROP 1 (s1.portOf y.queue)
    s2.replicaGone m r true

/-- The wait of MCD m ends (R386): residue replicas that are ready are enqueued, the rest dropped in list order. -/
def State.residueEnd (s : State) (m n : Nat) : State :=
  let idx := List.range (s.mcd m).reps.length
  let held (t : State) (r : Nat) : Bool := match (t.mcd m).reps[r]? with
    | some y => decide (y.state = .residue)
    | none => false
  let s1 := idx.foldl (fun (t : State) r => if t.residueReady m r then t.residueGo m r else t) s
  if (s1.mcd m).holdsResidue then
    idx.foldl (fun (t : State) r => if held t r then t.residueDrop m r else t) ((s1.cnt pgMCR MCR.MCR_CNT n).raise pgMCR 0)
  else s1

/-- RESIDUE_TIMEOUT (R386): the residue timer of an MCD in WAIT, of RES_TO_US or 1, expires. -/
def execResidueTimeout (mcd : Nat) (s : State) : Host.Outcome State Fault Refusal :=
  .next (if s.live pgMCR ∧ (s.mcd mcd).wait ∧
      (s.mcd mcd).since + ticksUs (max 1 (s.rd pgMCR MCR.MCR_CTL_RES_TO_US)) ≤ s.ticks then s.residueEnd mcd 3 else s)

/-- Buffer pressure affects an MCD (R388). -/
def State.pressed (s : State) (x : Mcd) : Bool :=
  decide (s.rd pgMCR MCR.MCR_CTL_RES_PRESS_PM * s.poolSize x.pool ≤ s.poolUsed x.pool * 1000) ||
    decide (8192 - s.mcds.length < 256)

/-- The oldest MCD in WAIT that buffer pressure affects. -/
def State.pressedMcd (s : State) : Option Nat :=
  (s.mcds.foldl (fun (a : Option (Nat × Nat)) e =>
    if e.2.wait ∧ s.pressed e.2 then
      match a with
      | none => some (e.1, e.2.age)
      | some (k, g) => if e.2.age < g then some (e.1, e.2.age) else some (k, g)
    else a) none).map (·.1)

/-- Eight QD clocks, of 2.25 to a timing clock, have passed since pressure last ended a wait (R388). -/
def State.pressDue (s : State) : Bool :=
  match s.pressAt with
  | some t => decide (8 ≤ (s.ticks - t) * 9 / 4)
  | none => true

/-- RESIDUE_PRESSURE (R388). -/
def execResiduePressure (s : State) : Host.Outcome State Fault Refusal :=
  .next (match s.pressedMcd with
    | some m => if s.live pgMCR ∧ s.pressDue then { s with pressAt := some s.ticks }.residueEnd m 4 else s
    | none => s)

/-- A completion for a replica (R386, R389). -/
def State.replicaDone (s : State) (m r : Nat) (dropped : Bool) : State :=
  match ((tget s.mcds m).bind fun x => x.reps[r]?) with
  | some y => if y.state = .queued then s.replicaGone m r dropped else (s.cnt pgMCR MCR.MCR_CNT 6).raise pgMCR 2
  | none => (s.cnt pgMCR MCR.MCR_CNT 6).raise pgMCR 2

/-- REPLICA_COMPLETION (R386, R387, R389): a replica has been sent or dropped. -/
def execReplicaCompletion (mcd rep : Nat) (dropped : Bool) (s : State) : Host.Outcome State Fault Refusal :=
  .next (s.gate pgMCR (·.replicaDone mcd rep dropped))

/-! ### Groups and lists (R396) -/

/-- GRP_DATA written (R396). -/
def State.groupWrite (s : State) (v : Nat) : State :=
  if 1024 < bits v 18 11 ∨ 262144 < bits v 0 18 + bits v 18 11 then s.raise pgMCR 4
  else { s with groups := tset s.groups (s.rd pgMCR MCR.GRP_IDX_GROUP) (v % 2 ^ 29 + bits v 31 1 * 2 ^ 31) }

/-- MCR_GROUP_WRITE (R396). -/
def execMcrGroupWrite (value : Nat) (s : State) : Host.Outcome State Fault Refusal := 
  .next (s.regCmd pgMCR MCR.GRP_DATA_LIST_BASE.off value (·.groupWrite value))

/-- LIST_DATA written (R396). -/
def State.listWrite (s : State) (v : Nat) : State :=
  { s with repList := tset s.repList (s.rd pgMCR MCR.LIST_IDX_ENTRY) (v % 2 ^ 32) }

/-- MCR_LIST_WRITE (R396). -/
def execMcrListWrite (value : Nat) (s : State) : Host.Outcome State Fault Refusal := 
  .next (s.regCmd pgMCR MCR.LIST_DATA_REPLICA.off value (·.listWrite value))

/-! ### Frames dropped from a queue (R367, R386) -/

/-- A frame dropped from queue q gives up what holds its bytes: its buffer in the queue's name, or its replica. -/
def State.release (s : State) (f : Frame) : State :=
  match f.hold with
  | .buffer p b => s.bpmFree p b f.queue
  | .replica m r => s.replicaGone m r true
  | .free => s

end Sys2Proof.Machine
end

