-- ==== Sys2Proof/Machine/Sched.lean ====
section
/-! DEFINITION. Machine/Sched.lean: the scheduler hierarchy, shapers, grants, node and profile writes, and queue flush
(spec 11_queues_scheduling.md, R398 to R431). -/

namespace Sys2Proof.Machine

/-! ### Eligibility (R404, R405) -/

/-- The head frame of a queue is whole on chip, in the write staging buffer or in the read-back buffer (R373, R404). -/
def Queue.headWhole (x : Queue) : Bool :=
  match x.frames with
  | f :: _ => decide (f.place = .chip ∨ f.place = .staged ∨ f.place = .back)
  | [] => false

/-- Port p is the host path (R403). -/
def State.isHostPort (s : State) (p : Nat) : Bool := decide (p = s.rd pgQSU QSU.HOST_PORT_PORT)

/-- Grants of port p are discarded: its MAC has no link and DOWN_DISCARD is 1 (R414). -/
def State.discards (s : State) (p : Nat) : Bool :=
  !s.isHostPort p && s.on pgQSU QSU.QSU_CTL_DOWN_DISCARD && !s.on (msc p) MSC.MAC_STS_LINK (p % 16)

/-- MACQ m of port p is back-pressured (R413). -/
def State.macqHeld (s : State) (p m : Nat) : Bool :=
  !s.isHostPort p && !s.discards p && decide (2 * s.slotBytes p ≤ (s.mac p).credit.getD m 0)

/-- The max shaper of a node lets it send: MAX_EN is 0 or its max tokens are at or above 0. -/
def Node.maxOk (n : Node) : Bool := !bit (n.word 2) 12 || decide (0 ≤ n.maxTok)

/-- The node is below its minimum: MIN_EN is 1 and its min tokens are at or above 0 (R406). -/
def Node.belowMin (n : Node) : Bool := bit (n.word 2) 28 && decide (0 ≤ n.minTok)

/-- MACQ of queue q (R400). -/
def State.macqOf (s : State) (q : Nat) : Nat := bits ((s.node 5 q).word 3) 4 3

/-- A shaper of the node names a profile with a double-bit error, and holds the node (R431). -/
def State.nodeHeld (s : State) (n : Node) : Bool :=
  s.shpDead.any fun k => (bit (n.word 2) 12 && decide (bits (n.word 2) 0 12 = k)) ||
    (bit (n.word 2) 28 && decide (bits (n.word 2) 16 12 = k))

/-- Queue q is eligible: as an express queue, which no shaper holds (R410), or as another one (R404). -/
def State.queueElig (s : State) (q : Nat) : Bool × Bool :=
  let x := s.que q
  let base := x.headWhole && !x.halted && !s.flushing q && !s.macqHeld (s.portOf q) (s.macqOf q)
  (base && s.isExpress q, base && !s.isExpress q && (s.node 5 q).maxOk && !s.nodeHeld (s.node 5 q))

/-- The children of node i of a level 1 to 4, in rising order. A node of levels 2 to 4 that was never written has
VALID = 0. -/
def State.children (s : State) (lvl i : Nat) : List Nat :=
  if lvl = 4 then [4 * i, 4 * i + 1, 4 * i + 2, 4 * i + 3]
  else (s.nodes.filter fun e => decide (e.1 / 262144 = lvl + 1) && decide (bits (e.2.word 0) 0 18 = i)).map fun e =>
    e.1 % 262144

/-- A node is eligible through an express descendant (EXP_PENDING) and through another one (R405). `left` is 5 minus its
level. -/
def State.eligAt (s : State) : (left lvl i : Nat) → Bool × Bool
  | 0, _, i => s.queueElig i
  | left + 1, lvl, i =>
    if (s.node lvl i).valid then
      let l := (s.children lvl i).map fun c => s.eligAt left (lvl + 1) c
      (l.any (·.1), l.any (·.2) && (s.node lvl i).maxOk && !s.nodeHeld (s.node lvl i))
    else (false, false)

def State.elig (s : State) (lvl i : Nat) : Bool × Bool := s.eligAt (5 - lvl) lvl i

/-- A child that is not eligible has DEFICIT 0 (R407). -/
def State.settle (s : State) : State :=
  { s with nodes := s.nodes.map fun e =>
      let g := s.elig (e.1 / 262144) (e.1 % 262144)
      if e.2.deficit ≠ 0 ∧ ¬ g.1 ∧ ¬ g.2 then (e.1, { e.2 with deficit := 0 }) else e }

/-! ### Choosing a child (R406 to R408, R415) -/

/-- The member of a rising list after c in cyclic order. -/
def nextIn (l : List Nat) (c : Nat) : Nat := (l.find? fun x => c < x).getD (l.headD 0)

/-- rr_next: the member after the one last served. -/
def rrNext (l : List Nat) : Option Nat → Nat
  | none => l.headD 0
  | some c => nextIn l c

/-- top_prio (R406). -/
def State.topPrio (s : State) (lvl i : Nat) (l : List Nat) : List Nat :=
  if bit ((s.node lvl i).word 0) 24 then l
  else
    let prio (c : Nat) : Nat := bits ((s.node (lvl + 1) c).word 1) 8 3
    let top := l.foldl (fun a c => max a (prio c)) 0
    l.filter fun c => prio c = top

/-- dwrr_next (R407): the current child while its DEFICIT is above 0, else its quantum is added and the next child looked
at. Each round adds at least 256 bytes to every child, so the bound `left` is not met. -/
def State.dwrr (s : State) (lvl : Nat) (l : List Nat) : (left cur : Nat) → State × Nat
  | 0, cur => (s, cur)
  | left + 1, cur =>
    let n := s.node (lvl + 1) cur
    if 0 < n.deficit then (s, cur)
    else
      (s.setNode (lvl + 1) cur { n with deficit := n.deficit + ((max 1 (bits (n.word 1) 0 8) * 256 : Nat) : Int) }).dwrr lvl l
        left (nextIn l cur)

/-- pick (R406): the child that node i of a level chooses, and whether the weighted phase chose it. -/
def State.pickChild (s : State) (lvl i : Nat) : Option (State × Nat × Bool) :=
  let kids := s.children lvl i
  let n := s.node lvl i
  let xs := kids.filter fun c => (s.elig (lvl + 1) c).1
  let cs := kids.filter fun c => (s.elig (lvl + 1) c).2
  let ms := s.topPrio lvl i (cs.filter fun c => (s.node (lvl + 1) c).belowMin)
  if xs ≠ [] then some (s.setNode lvl i { n with lastX := some (rrNext xs n.lastX) }, rrNext xs n.lastX, false)
  else if ms ≠ [] then some (s.setNode lvl i { n with lastM := some (rrNext ms n.lastM) }, rrNext ms n.lastM, false)
  else
    let ws := s.topPrio lvl i cs
    if ws = [] then none
    else
      let start := match n.cur with
        | none => ws.headD 0
        | some c => if ws.contains c then c else nextIn ws c
      let r := s.dwrr lvl ws (ws.length * 1024) start
      some (r.1.setNode lvl i { r.1.node lvl i with cur := some r.2 }, r.2, true)

/-- The path that a decision takes from node i of a level down to a queue: level, child and whether the weighted phase chose
it, the queue last (R412). Each level counts its decision. -/
def State.descend (s : State) : (left lvl i : Nat) → Option (State × List (Nat × Nat × Bool))
  | 0, _, _ => some (s, [])
  | left + 1, lvl, i =>
    match s.pickChild lvl i with
    | none => none
    | some (s1, c, w) =>
      match (s1.cnt (pgSCH lvl) SCH.SCH_CNT 0).descend left (lvl + 1) c with
      | none => none
      | some (s2, l) => some (s2, (lvl + 1, c, w) :: l)

/-! ### Grants (R409 to R414) -/

/-- The frames a decision grants: whole frames in order until their wire bytes reach a slot, and the frames left. -/
def grantRun (slot : Nat) : (got : Nat) → List Frame → List Frame × List Frame
  | _, [] => ([], [])
  | got, f :: t =>
    if (got = 0 ∨ got < slot) ∧ (f.place = .chip ∨ f.place = .staged ∨ f.place = .back) then
      let r := grantRun slot (got + f.qlen + 20) t
      (f :: r.1, r.2)
    else ([], f :: t)

/-- The tokens that a grant of frames takes from a shaper with a profile (R409), in 1/6,400 byte. -/
def State.shaperCost (s : State) (prof : Nat) (l : List Frame) : Int :=
  6400 * (l.map fun f => ((f.qlen : Nat) : Int) + signedOf 8 (s.rd pgSHP SHP.PROF_B_OVERHEAD prof)).foldl (· + ·) 0

/-- A grant passes through a node: its shapers, DEFICIT and counts (R407 to R410). -/
def State.chargeNode (s : State) (lvl i : Nat) (weighted : Bool) (l : List Frame) : State :=
  let n := s.node lvl i
  let bytes := sumNat (l.map (·.qlen))
  let w2 := n.word 2
  let m := { n with
    deficit := if weighted then n.deficit - ((bytes + 20 * l.length : Nat) : Int) else n.deficit
    maxTok := if bit w2 12 then n.maxTok - s.shaperCost (bits w2 0 12) l else n.maxTok
    minTok := if bit w2 28 then n.minTok - s.shaperCost (bits w2 16 12) l else n.minTok
    frames := (n.frames + l.length) % 2 ^ 64
    bytes := (n.bytes + bytes) % 2 ^ 64 }
  ((s.setNode lvl i m).cnt (pgSCH lvl) SCH.SCH_CNT 1).bump (pgSCH lvl) SCH.SCH_CNT 2 2 bytes

/-- A grant holds the frame's buffer (R427). -/
def State.grantHold (s : State) (f : Frame) : State :=
  match f.hold with
  | .buffer p b => match tget s.bufs (bufKey p b) with
    | some r => { s with bufs := tset s.bufs (bufKey p b) { r with granted := true } }
    | none => s
  | _ => s

/-- One granted frame goes to the Band, or is discarded (R412 to R414). -/
def State.grantFrame (s : State) (p m : Nat) (f : Frame) : State :=
  let s1 := (s.cnt pgQSU QSU.QSU_CNT 0).tracePoint f 5 0 f.queue (p % 256)
  if s.discards p then (s1.cnt pgQSU QSU.QSU_CNT 3).release f
  else
    let s2 := { s1.grantHold f with toFd := s1.toFd ++ [{ f with outPort := p, macq := m }] }
    if s.isHostPort p then s2
    else
      let c := (s2.mac p).credit
      s2.setMac p { s2.mac p with credit := lset c m (c.getD m 0 + f.qlen + 20) }

/-- A double-bit error in the descriptor or links of queue q halts it (R381). -/
def State.haltQueue (s : State) (q : Nat) : State :=
  let s1 := s.setQue q { s.que q with halted := true }
  let s2 := if s1.on pgQSU QSU.HALT_CAP_VALID then s1
    else (s1.wr pgQSU QSU.HALT_CAP_QUEUE q).wr pgQSU QSU.HALT_CAP_VALID 1
  (s2.raise pgADM 2).settle

/-- The grant of a queue at the end of a path (R412). -/
def State.grant (s : State) (p q : Nat) (path : List (Nat × Nat × Bool)) : State :=
  let x := s.que q
  let r := grantRun (s.slotBytes p) 0 x.frames
  let s1 := s.setQue q { x with frames := r.2 }
  let s2 := ((1, p, false) :: path).foldl (fun t n => t.chargeNode n.1 n.2.1 n.2.2 r.1) s1
  let s3 := r.1.foldl (fun t f => t.grantFrame p (s.macqOf q) f) s2
  ((s3.spillLeave q).poolView).settle

/-- The scheduler runs: QSU and the five node pages are enabled. -/
def State.schedOn (s : State) : Bool := s.enabled pgQSU && [1, 2, 3, 4, 5].all fun l => s.enabled (pgSCH l)

/-- SCHED_DECISION (R412): a decision of port p. `halted`: the descriptor of the queue it ends at fails its check. -/
def execSchedDecision (port : Nat) (halted : Bool) (s : State) : Host.Outcome State Fault Refusal :=
  .next (
    let g := s.elig 1 port
    if 256 ≤ port ∨ ¬ s.schedOn ∨ (¬ g.1 ∧ ¬ g.2) then s
    else match s.descend 4 1 port with
      | none => s
      | some (s1, path) =>
        let q := (path.getLast?.map (·.2.1)).getD 0
        if halted then s.haltQueue q else s1.grant port q path)

/-- One timing clock of a node's shaper (R409): RATE / 6,400 of a byte, up to BURST × 64 bytes. -/
def State.fill (s : State) (en : Bool) (prof : Nat) (tok : Int) : Int :=
  let cap : Int := ((s.rd pgSHP SHP.PROF_B_BURST prof * 64 * 6400 : Nat) : Int)
  if en ∧ tok < cap then min cap (tok + ((s.rd pgSHP SHP.PROF_A_RATE prof : Nat) : Int)) else tok

/-- One timing clock of every shaper and policer (R409, R416). -/
def State.shaperTick (s : State) : State :=
  let s1 := { s with nodes := s.nodes.map fun e =>
    let w := e.2.word 2
    (e.1, { e.2 with maxTok := s.fill (bit w 12) (bits w 0 12) e.2.maxTok
                     minTok := s.fill (bit w 28) (bits w 16 12) e.2.minTok }) }
  (List.range 256).foldl (fun (t : State) p =>
    let rate := t.rd pgQSU QSU.EXP_RATE_MBPS p
    let cap := t.rd pgQSU QSU.EXP_CFG_EXP_BURST p * 6400
    let v := tgetD t.police p 0
    if 0 < rate ∧ v < cap then { t with police := tset t.police p (min cap (v + rate)) } else t) s1

/-! ### Node writes and reads (R422 to R424, R430) -/

/-- The bits of word k that a node of a level has (R430). -/
def nodeMask (lvl k : Nat) : Nat :=
  match k with
  | 0 => 0x80000000 + (if lvl ≤ 4 then 0x1000000 else 0) + (if 2 ≤ lvl ∧ lvl ≤ 4 then 0x3FFFF else 0)
  | 1 => if 2 ≤ lvl then 0x7FF else 0
  | 2 => 0x1FFF + (if 2 ≤ lvl then 0x1FFF0000 else 0)
  | _ => if lvl = 1 then 0xFFFF07FF else if lvl = 4 then 0x1FFFF else if lvl = 5 then 0x77 else 0

/-- The staged node words as a level stores them: WEIGHT 0 stores 1. -/
def State.stagedNode (s : State) (lvl : Nat) : List Nat :=
  (List.range 4).map fun k =>
    let w := andBits (s.rd (pgSCH lvl) SCH.NODE_W_WORD k) (nodeMask lvl k)
    if k = 1 ∧ 2 ≤ lvl ∧ bits w 0 8 = 0 then w + 1 else w

/-- Node i of a level holds frames or has a valid child (R424). -/
def State.nodeInUse (s : State) (lvl i : Nat) : Bool :=
  if lvl = 5 then decide ((s.que i).frames ≠ []) else (s.children lvl i).any fun c => (s.node (lvl + 1) c).valid

/-- A profile is valid. -/
def State.profValid (s : State) (k : Nat) : Bool := s.on pgSHP SHP.PROF_A_VALID k

/-- The error that a node write of words w ends in (R424), 0 for none. -/
def State.nodeErr (s : State) (lvl i : Nat) (w : List Nat) : Nat :=
  let n : Node := { words := w }
  let p := bits (n.word 0) 0 18
  if levelSize lvl ≤ i then 1
  else if n.valid ∧ 2 ≤ lvl ∧ lvl ≤ 4 ∧ (levelSize (lvl - 1) ≤ p ∨ ¬ (s.node (lvl - 1) p).valid) then 2
  else if ¬ n.valid ∧ s.nodeInUse lvl i then 3
  else if (bit (n.word 2) 12 ∧ ¬ s.profValid (bits (n.word 2) 0 12)) ∨
      (bit (n.word 2) 28 ∧ ¬ s.profValid (bits (n.word 2) 16 12)) then 4
  else if lvl = 1 ∧ n.valid ∧ (bits (n.word 3) 0 11 = 0 ∨ 1600 < bits (n.word 3) 0 11) then 5
  else 0

/-- NODE_CMD write (R422 to R424). -/
def State.nodeWrite (s : State) (lvl tag : Nat) : State :=
  let i := s.rd (pgSCH lvl) SCH.NODE_IDX_INDEX
  let w := s.stagedNode lvl
  let e := s.nodeErr lvl i w
  if e ≠ 0 then
    ((s.result (pgSCH lvl) SCH.NODE_RES tag ERROR [e]).cnt (pgSCH lvl) SCH.SCH_CNT 3).raise (pgSCH lvl) 0
  else
    let n := s.node lvl i
    let moved := decide (2 ≤ lvl ∧ lvl ≤ 4 ∧ bits (w.getD 0 0) 0 18 ≠ bits (n.word 0) 0 18)
    ((s.setNode lvl i { n with words := w, deficit := if moved then 0 else n.deficit }).settle).result (pgSCH lvl)
      SCH.NODE_RES tag DONE

/-- NODE_WRITE (R422 to R424). -/
def execNodeWrite (level tag : Nat) (s : State) : Host.Outcome State Fault Refusal :=
  .next (if 1 ≤ level ∧ level ≤ 5 then
    s.regCmd (pgSCH level) SCH.NODE_CMD_OP.off (1 + tag % 256 * 256) (·.nodeWrite level tag) else s)

/-- NODE_CMD read (R430): the node's words into the stage and the result. -/
def State.nodeRead (s : State) (lvl tag : Nat) : State :=
  let i := s.rd (pgSCH lvl) SCH.NODE_IDX_INDEX
  if levelSize lvl ≤ i then (s.result (pgSCH lvl) SCH.NODE_RES tag ERROR [1])
  else
    let n := s.node lvl i
    let g := s.elig lvl i
    let words := n.words ++ [b2n (g.1 || g.2) + 2 * b2n g.1 + 4 * b2n n.belowMin, unsignedOf 32 n.deficit,
      unsignedOf 32 (n.maxTok / 6400), unsignedOf 32 (n.minTok / 6400)] ++
      if lvl = 5 then [n.frames % 2 ^ 32, n.frames / 2 ^ 32, n.bytes % 2 ^ 32, n.bytes / 2 ^ 32] else []
    ((List.range 4).foldl (fun (t : State) k => t.wr (pgSCH lvl) SCH.NODE_W_WORD (n.word k) k) s).result (pgSCH lvl)
      SCH.NODE_RES tag DONE words

/-- NODE_READ (R430). -/
def execNodeRead (level tag : Nat) (s : State) : Host.Outcome State Fault Refusal :=
  .next (if 1 ≤ level ∧ level ≤ 5 then
    s.regCmd (pgSCH level) SCH.NODE_CMD_OP.off (2 + tag % 256 * 256) (·.nodeRead level tag) else s)

/-- An enabled shaper names profile k (R425). -/
def State.profNamed (s : State) (k : Nat) : Bool :=
  s.nodes.any fun e => (bit (e.2.word 2) 12 && decide (bits (e.2.word 2) 0 12 = k)) ||
    (bit (e.2.word 2) 28 && decide (bits (e.2.word 2) 16 12 = k))

/-- A word of a shaper profile is written (R425, R431); a write of word 0 ends a double-bit error. -/
def State.shpWrite (s : State) (k w v : Nat) : State :=
  if w = 0 then
    if ¬ bit v 31 ∧ s.profNamed k then s.raise pgSHP 0
    else ({ s with shpDead := s.shpDead.filter fun x => x ≠ k }.wr pgSHP SHP.PROF_A_RATE (min 1600000 (bits v 0 22)) k).put pgSHP SHP.PROF_A_VALID (bit v 31) k
  else s.wrWord pgSHP k v [SHP.PROF_B_BURST, SHP.PROF_B_OVERHEAD]

/-- SHP_PROFILE_WRITE (R425). -/
def execShpProfileWrite (profile word value : Nat) (s : State) : Host.Outcome State Fault Refusal :=
  .next (s.regCmd pgSHP (0x8000 + 8 * (profile % 4096) + 4 * (word % 2)) value (·.shpWrite (profile % 4096) (word % 2) value))

/-! ### Flush (R426 to R428) -/

/-- The ungranted frames of queue q are dropped from head to tail (R426). -/
def State.dropAll (s : State) (q : Nat) : State :=
  let l := (s.que q).frames
  l.foldl (fun (t : State) f => (t.cnt pgQSU QSU.QSU_CNT 4).release f) (s.setQue q { s.que q with frames := [] })

/-- QSU_CMD FLUSH of the queue in QSU_CMD_Q (R426, R428). -/
def State.flushStart (s : State) (sweep : Bool) (tag : Nat) : State :=
  let q := s.rd pgQSU QSU.QSU_CMD_Q_QUEUE
  if s.flush.isSome then s.result pgQSU QSU.QSU_RES tag ERROR [2]
  else if 294912 ≤ q then s.result pgQSU QSU.QSU_RES tag ERROR [1]
  else
    let n := (s.que q).frames.length
    let s1 := { s with flush := some { queue := q, sweep := sweep, tag := tag, dropped := n, late := false } }
    ((((s1.resStart pgQSU QSU.QSU_RES).wr pgQSU COMMON.PAGE_STS_BUSY 1).dropAll q).spillLeave q).poolView.settle

/-- QSU_FLUSH (R426, R428). -/
def execQsuFlush (sweep : Bool) (tag : Nat) (s : State) : Host.Outcome State Fault Refusal :=
  .next (s.regCmd pgQSU QSU.QSU_CMD_OP.off (1 + 4 * b2n sweep + tag % 256 * 256) (·.flushStart sweep (tag % 256)))

/-- The sweep of a flush (R427): the buffers that name the queue and lie in no grant are freed. -/
def State.sweepFree (s : State) (q : Nat) : State × Nat :=
  let l := s.bufs.filter fun e => decide (e.2.owner = q) && !e.2.granted
  (l.foldl (fun (t : State) e => (t.bpmFree (e.1 / 2 ^ 24) (e.1 % 2 ^ 24) q).cnt pgQSU QSU.QSU_CNT 5) s, l.length)

/-- QSU_FLUSH_COMPLETE (R426 to R428): the walk and any sweep have ended. -/
def execQsuFlushComplete (s : State) : Host.Outcome State Fault Refusal :=
  .next (match s.flush with
    | none => s
    | some x =>
      if ¬ s.live pgQSU then s
      else
        let r := if x.sweep then s.sweepFree x.queue else (s, 0)
        let s1 := { r.1.setQue x.queue { r.1.que x.queue with halted := false } with flush := none }
        let s2 := s1.wr pgQSU COMMON.PAGE_STS_BUSY 0
        (if x.quiet then s2 else s2.result pgQSU QSU.QSU_RES x.tag DONE [x.dropped, r.2] 0 x.late).raise pgQSU 1)

/-- QSU_CMD ABORT (R428): before the first frame is dropped the flush ends ABORTED; later it is resolved late. -/
def State.flushAbort (s : State) : State :=
  match s.flush with
  | none => s.resLate pgQSU QSU.QSU_RES
  | some x =>
    if x.dropped = 0 then
      let s1 := { s with flush := none }.wr pgQSU COMMON.PAGE_STS_BUSY 0
      if x.quiet then s1 else s1.result pgQSU QSU.QSU_RES x.tag ABORTED
    else { s with flush := some { x with late := true } }

/-- QSU_ABORT (R428). The result keeps the tag of the flush it ends. -/
def execQsuAbort (tag : Nat) (s : State) : Host.Outcome State Fault Refusal :=
  .next (s.regCmd pgQSU QSU.QSU_CMD_OP.off (2 + tag % 256 * 256) (·.flushAbort))

/-! ### Other registers of the QSU page (R429) -/

/-- A write of FAB_W0 or FAB_W1: a quantum of 0 stores 1. -/
def State.fabWeightWrite (s : State) (v : Nat) (l : List Fld) : State :=
  l.foldl (fun (t : State) f => t.wr pgQSU f (max 1 (bits v f.lo f.w))) s

end Sys2Proof.Machine
end

