-- ==== Sys2Proof/Machine/Fabric.lean ====
section
/-! DEFINITION. Machine/Fabric.lean: Drafa links, cells, reachability, spraying and fabric strobes (spec
12_drafa_fabric.md, R432 to R462, R469, R481 to R487; 11_queues_scheduling.md, R420, R421). -/

namespace Sys2Proof.Machine

/-! ### Cells (R448 to R453) -/

/-- A data cell by its fields (R448). -/
structure Cell where
  type : Nat := 0
  dst : Nat := 0
  src : Nat := 0
  cls : Nat := 0
  seq : Nat := 0
  sof : Bool := false
  eof : Bool := false
  len : Nat := 0
  dport : Nat := 0
  hop : Nat := 0
  payload : List Byte := []
  deriving DecidableEq, Repr

/-- A payload padded with zeros, or cut, to 512 bytes (R449). -/
def pad512 (l : List Byte) : List Byte := l.take 512 ++ List.replicate (512 - l.length) 0

/-- The CRC of a cell (R448): header bytes 0 to 11 with HOP taken as 0, then the payload. HOP is bits 2 and 1 of byte 8. -/
def cellCrc (head payload : List Byte) : Nat :=
  crc32c ((head.take 12).zipIdx.map (fun (e : Byte × Nat) => if e.2 = 8 then e.1 &&& 0xF9 else e.1) ++ payload)

/-- The 528 bytes of a cell whose 128-bit header, CRC apart, is a number. -/
def cellBytes (header : Nat) (payload : List Byte) : List Byte :=
  let p := pad512 payload
  toBe 16 (header + cellCrc (toBe 16 header) p) ++ p

/-- The header of a data cell, CRC apart (R448). -/
def Cell.header (c : Cell) : Nat :=
  c.type * 2 ^ 126 + c.dst * 2 ^ 114 + c.src * 2 ^ 102 + c.cls * 2 ^ 99 + c.seq * 2 ^ 79 + b2n c.sof * 2 ^ 78 +
    b2n c.eof * 2 ^ 77 + c.len * 2 ^ 67 + c.dport * 2 ^ 59 + c.hop * 2 ^ 57

/-- A data cell as it is sent. -/
def Cell.encode (c : Cell) : List Byte := cellBytes c.header c.payload

/-- The fields of a received cell (R448). -/
def decodeCell (l : List Byte) : Cell :=
  let h := beNat (l.take 16)
  { type := bits h 126 2, dst := bits h 114 12, src := bits h 102 12, cls := bits h 99 3, seq := bits h 79 20
    sof := bit h 78, eof := bit h 77, len := bits h 67 10, dport := bits h 59 8, hop := bits h 57 2
    payload := pad512 (l.drop 16) }

/-- A received cell passes its CRC and is of a known TYPE (R449). -/
def cellGood (l : List Byte) : Bool :=
  decide (beAt l 12 4 = cellCrc l (pad512 (l.drop 16))) && decide (beAt l 0 1 / 64 ≠ 3)

/-- The idle cell (R450). -/
def idleCell : List Byte := cellBytes (2 * 2 ^ 126) []

/-- A byte with its bits reversed. -/
def revByte (b : Nat) : Nat := (List.range 8).foldl (fun a k => a + b2n (bit b k) * 2 ^ (7 - k)) 0

/-- The bitmap of a payload with device d at bit d (R453). -/
def bitmapOf : List Byte → Nat
  | [] => 0
  | b :: t => revByte b.toNat + 256 * bitmapOf t

/-- The 512 payload bytes of a bitmap (R453). -/
def bitmapBytes (v : Nat) : List Byte := (List.range 512).map fun k => byteOf (revByte (bits v (8 * k) 8))

/-! ### Links (R432, R484) -/

/-- Link l replaced. -/
def State.setLink (s : State) (l : Nat) (x : FabLink) : State := { s with links := tset s.links l x }

/-- Counter n of link l (R484). -/
def State.linkCnt (s : State) (l n : Nat) : State := s.bump (linkPage l) FIU.LINK_CNT (8 * linkSlot l + n) n 1

/-- The transmitter of link l's lane is on and carries the link (R484, and R150 for a lane L; R434). -/
def State.linkLaneTx (s : State) (l : Nat) : Bool :=
  if l < 256 then s.on (linkPage l) FIU.LANE_CTL_TX_EN (linkSlot l) && decide (s.rd (linkPage l) FIU.LANE_CTL_LOOPBACK (linkSlot l) ≠ 2)
  else
    let g := l - 256
    s.on (lnp g) LNP.LANE_CTL_TX_EN (g % 16) && !s.on (lnp g) LNP.LANE_STS_SQUELCHED (g % 16) &&
      !s.on (lnp g) LNP.PRBS_CTL_GEN_EN (g % 16) && decide (s.rd (lnp g) LNP.LANE_CTL_LOOPBACK (g % 16) ≠ 2)

/-- The receiver of link l's lane is on (R484, R150). -/
def State.linkLaneRx (s : State) (l : Nat) : Bool :=
  if l < 256 then s.on (linkPage l) FIU.LANE_CTL_RX_EN (linkSlot l) else s.on (lnp (l - 256)) LNP.LANE_CTL_RX_EN ((l - 256) % 16)

/-- What link l puts on its lane, while the lane's transmitter is on. -/
def State.linkPut (s : State) (l : Nat) (o : Out) : State := if s.linkLaneTx l then s.emit o else s

/-- A cell leaves on link l. With the twentieth since the last one a superframe is complete and goes out as codewords (R435, R436). -/
def State.linkSend (s : State) (l : Nat) (c : List Byte) : State :=
  let x := s.link l
  let s1 := s.linkPut l (.cell l c)
  if x.sframe.length < 19 then s1.setLink l { x with sframe := x.sframe ++ [c] }
  else
    let r := superframe (x.scr.getD (Config.scramblerStart l % 2 ^ 58)) (x.sframe ++ [c])
    (s1.setLink l { x with sframe := [], scr := some r.1 }).linkPut l (.superframe l r.2)

/-! ### Control cells out (R451, R452, R454) -/

/-- A control cell is sent on link l. -/
def State.control (s : State) (l ctype : Nat) (payload : List Byte) : State :=
  let header := 2 ^ 126 + ctype * 2 ^ 120 + s.ownId * 2 ^ 108 + s.tier * 2 ^ 106 + l * 2 ^ 97
  (s.linkSend l (cellBytes header payload)).linkCnt l 5

/-- RX_OK and ACK that link l sends (R442). -/
def State.sendsRxOk (s : State) (l : Nat) : Bool := decide (s.lrd l FIU.LINK_STS_SF_LOCK = 1) && !(s.link l).fecBad
def State.sendsAck (s : State) (l : Nat) : Bool :=
  match (s.link l).helloAt with
  | none => false
  | some t => decide (s.ticks - t ≤ ticksUs (s.rd pgFAB FAB.HELLO_CFG_HELLO_MISS * s.rd pgFAB FAB.HELLO_CFG_HELLO_INT_US))

/-- A HELLO on link l (R452). -/
def State.hello (s : State) (l : Nat) : State :=
  s.control l 1 (toBe 2 (s.rd pgFAB FAB.FAB_CFG_SYSTEM_ID) ++
    [byteOf (b2n (s.sendsRxOk l) + 2 * b2n (s.sendsAck l) + 4 * s.lrd l FIU.LINK_CTL_DOZE_ALLOW), byteOf (b2n s.fabric)])

/-! ### Reachability (R444, R456 to R458, R460) -/

/-- What follows a change of links or REACH from s0 to s (R486, R487): each destination whose mask changed is counted, and
the first that became empty or non-empty sets its cause. -/
def State.relink (s0 s : State) : State :=
  let d0 := s0.downSet
  let d1 := s.downSet
  let ls := List.range s.linkCount
  let diff := ls.foldl (fun a l => orBits a (Nat.xor (s0.linkBits d0 l) (s.linkBits d1 l))) 0
  let u0 := ls.foldl (fun a l => orBits a (s0.linkBits d0 l)) 0
  let u1 := ls.foldl (fun a l => orBits a (s.linkBits d1 l)) 0
  if diff = 0 then s
  else
    (((s.bump pgFAB FAB.FAB_CNT 2 2 (ones diff)).raiseIf (andNot u0 u1 ≠ 0) pgFAB 0).raiseIf (andNot u1 u0 ≠ 0) pgFAB 1)

/-! ### The fabric element's queues, as far as links need them (R459, R468, R469) -/

/-- XOFF of destination d follows the cells held for it (R459). -/
def State.felXoffSet (s : State) (d : Nat) : State :=
  let n := s.felHeld d
  if ¬ bit s.felXoff d ∧ s.rd pgFEL FEL.XOFF_CFG_XOFF_CELLS ≤ n then
    ({ s with felXoff := setBit s.felXoff d }.cnt pgFEL FEL.FEL_CNT 9).raise pgFEL 1
  else if bit s.felXoff d ∧ n ≤ s.rd pgFEL FEL.XOFF_CFG_XON_CELLS then { s with felXoff := clrBit s.felXoff d }
  else s

/-- A discarded cell counts in FEL_CNT n and sets cause bit 0 (R491). -/
def State.felDiscard (s : State) (n : Nat) : State := (s.cnt pgFEL FEL.FEL_CNT n).raise pgFEL 0

/-- The queues of output link j: its express queue and one per partition (R466, R468). -/
def felQueuesOf (j : Nat) : List Nat := (8192 + j) :: (List.range 16).map fun k => 512 * k + j

/-- The element's queues for a link that leaves ACTIVE are discarded (R469). -/
def State.felPurge (s : State) (j : Nat) : State :=
  (felQueuesOf j).foldl (fun (t : State) q =>
    (t.felQueue q).foldl (fun (u : State) c => ((u.bpmFree 1 c.buf q).felDiscard 7).felXoffSet c.dst) (t.setFel q [])) s

/-! ### Link states (R440 to R447) -/

/-- The doze state of a link changes (R485). -/
def State.dozeCause (s : State) (l : Nat) : State := s.raise (linkPage l) 4

/-- Link l leaves ACTIVE: its FIFO and the element's queues for it go, and cause bit 0 is set (R469, R485). -/
def State.leaveActive (s : State) (l : Nat) : State :=
  let s1 := (s.setLink l { s.link l with fifo := [] }).raise (linkPage l) 0
  if s.fabric then s1.felPurge l else s1

/-- STATE of link l changes, and its time in the state starts (R440). -/
def State.linkSet (s : State) (l st : Nat) : State := (s.lwr l FIU.LINK_STS_STATE st).setLink l { s.link l with since := s.ticks }

/-- Link l has been in its state for a number of timing clocks (R440). -/
def State.linkFor (s : State) (l n : Nat) : Bool := decide (n ≤ s.ticks - (s.link l).since)

/-- Link l takes a state (R440), with what leaving ACTIVE brings and the masks that follow (R444). -/
def State.linkTo (s : State) (l st : Nat) : State :=
  let was := s.linkState l
  let s1 := s.linkSet l st
  let s2 := if was = lACTIVE ∧ st ≠ lACTIVE then s1.leaveActive l else s1
  s.relink s2

/-- Link l goes DOWN with a cause (R440, R484, R485). -/
def State.linkDown (s : State) (l cause : Nat) : State :=
  let training := decide (cause = 1 ∨ cause = 2 ∨ (cause = 3 ∧ s.linkState l = lHELLO))
  let s1 := (s.linkTo l lDOWN).lwr l FIU.LINK_DOWNS_LAST_CAUSE cause
  let s2 := (s1.incSat (linkPage l) FIU.LINK_DOWNS_COUNT (linkSlot l)).lwr l FIU.LINK_STS_SF_LOCK 0
  let s3 := s2.setLink l { s2.link l with helloAt := none, fecBad := false, out := false }
  s3.raiseIf training (linkPage l) 3

/-- Link l enters ACTIVE (R440): FORCE_DOWN = 1 takes it down again. -/
def State.linkUp (s : State) (l : Nat) : State :=
  let s1 := s.setLink l { s.link l with out := false }
  let s2 := (s.relink (s1.linkSet l lACTIVE)).raise (linkPage l) 1
  if s2.lrd l FIU.LINK_CTL_FORCE_DOWN = 1 then s2.linkDown l 8 else s2

/-- EN = 0 (R440). -/
def State.linkOff (s : State) (l : Nat) : State :=
  let s1 := ((s.lwr l FIU.LINK_CTL_EN 0).linkTo l lOFF).lwr l FIU.LINK_STS_SF_LOCK 0
  s1.setLink l { s1.link l with helloAt := none, fecBad := false, out := false, fifo := [] }

/-- EN = 1 (R440): an OFF link sends superframes of idle cells and adapts. -/
def State.linkOn (s : State) (l : Nat) : State :=
  let s1 := s.lwr l FIU.LINK_CTL_EN 1
  if s1.linkState l = lOFF then (s1.setLink l { s1.link l with sframe := [], scr := none }).linkTo l lADAPT else s1

/-- The link exists and its page is powered. -/
def State.linkOk (s : State) (l : Nat) : Bool := decide (l < s.linkCount) && s.live (linkPage l)

/-- A link event in one of some states; otherwise nothing happens. -/
def State.linkIn (s : State) (l : Nat) (sts : List Nat) (f : State → State) : State :=
  if s.linkOk l ∧ sts.contains (s.linkState l) then f s else s

/-- A command that is a write of LINK_CTL of link l with one bit at a value and the others as they are (R47). -/
def State.linkCmd (s : State) (l b : Nat) (v : Bool) (act : State → State) : State :=
  let off := 0x100 + 32 * linkSlot l
  if l < s.linkCount then s.regCmd (linkPage l) off (putBit (s.pageWord (linkPage l) off) b v) act else s

/-- LINK_ENABLE (R440): LINK_CTL.EN is written 1. -/
def execLinkEnable (link : Nat) (s : State) : Host.Outcome State Fault Refusal := .next (s.linkCmd link 0 true (·.linkOn link))

/-- LINK_DISABLE (R440): LINK_CTL.EN is written 0. -/
def execLinkDisable (link : Nat) (s : State) : Host.Outcome State Fault Refusal := .next (s.linkCmd link 0 false (·.linkOff link))

/-- LANE_CTL.ADAPT of a link's lane (R484): adaptation starts again; a link past ADAPT loses its lock (DEDUCED: its receiver no longer
holds the signal; notes/assumptions/26.md). -/
def State.linkReadapt (s : State) (l : Nat) : State :=
  let st := s.linkState l
  if st = lADAPT then s.lwr l FIU.RX_EQ_STS_SNR 0
  else if st = lOFF ∨ st = lDOWN then s
  else (s.linkDown l 5).lwr l FIU.RX_EQ_STS_SNR 0

/-- LINK_ADAPT_DONE (R440). -/
def execLinkAdaptDone (link snr : Nat) (s : State) : Host.Outcome State Fault Refusal :=
  .next (s.linkIn link [lADAPT] fun (t : State) => (t.linkTo link lLOCK).lwr link FIU.RX_EQ_STS_SNR snr)

/-- LINK_ADAPT_TIMEOUT (R440). -/
def execLinkAdaptTimeout (link : Nat) (s : State) : Host.Outcome State Fault Refusal :=
  .next (if s.linkFor link (ticksMs (s.rd pgFAB FAB.TRAIN_TMO_ADAPT_MS)) then s.linkIn link [lADAPT] (·.linkDown link 1) else s)

/-- SUPERFRAME_LOCK (R437, R440). -/
def execSuperframeLock (link : Nat) (s : State) : Host.Outcome State Fault Refusal :=
  .next (s.linkIn link [lLOCK, lHELLO, lACTIVE, lWAKE] fun (t : State) =>
    let t1 := t.lwr link FIU.LINK_STS_SF_LOCK 1
    if t.linkState link = lLOCK then t1.linkTo link lHELLO else t1)

/-- LINK_LOCK_TIMEOUT (R440). -/
def execLinkLockTimeout (link : Nat) (s : State) : Host.Outcome State Fault Refusal :=
  .next (if s.linkFor link (ticksMs (s.rd pgFAB FAB.TRAIN_TMO_LOCK_MS)) then s.linkIn link [lLOCK] (·.linkDown link 2) else s)

/-- SUPERFRAME_LOCK_LOSS (R437, R440). -/
def execSuperframeLockLoss (link : Nat) (s : State) : Host.Outcome State Fault Refusal :=
  .next (s.linkIn link [lHELLO, lACTIVE, lWAKE] fun (t : State) =>
    let t1 := t.lwr link FIU.LINK_STS_SF_LOCK 0
    if t.linkState link = lACTIVE then t1.linkDown link 5 else t1)

/-- UNCORR_THRESHOLD (R438): UNCORR_DOWN uncorrectable codewords within 1,024; 0 disables it (R486). -/
def execUncorrThreshold (link : Nat) (s : State) : Host.Outcome State Fault Refusal :=
  .next (if s.rd pgFAB FAB.PCS_CFG_UNCORR_DOWN = 0 then s
    else s.linkIn link [lHELLO, lACTIVE, lWAKE] fun (t : State) =>
      let t1 := t.setLink link { t.link link with fecBad := true }
      if t.linkState link = lACTIVE then t1.linkDown link 6 else t1)

/-! ### Control cells in -/

/-- The receiver of link l decodes cells: it holds superframe lock. -/
def State.linkReceives (s : State) (l : Nat) : Bool :=
  s.linkOk l && s.linkLaneRx l && decide (s.lrd l FIU.LINK_STS_SF_LOCK = 1) && decide (s.linkState l ≠ lOFF)

/-- A control cell of a CTYPE arrives on link l: a bad cell is discarded and counted (R449), a good one counted and given to
`f` with its header and payload; a cell that is no such control cell has no effect here. -/
def State.controlIn (s : State) (l : Nat) (cell : List Byte) (isType : Nat → Bool) (f : State → Nat → List Byte → State) :
    State :=
  let h := beNat (cell.take 16)
  if ¬ s.linkReceives l then s
  else if ¬ cellGood cell then s.linkCnt l 4
  else if bits h 126 2 = 1 ∧ isType (bits h 120 6) then f (s.linkCnt l 6) h (pad512 (cell.drop 16))
  else s

/-- Two tiers pair legally (R443). -/
def tiersPair (a b : Nat) : Bool :=
  decide ((a = 0 ∧ b = 1) ∨ (a = 1 ∧ b = 0) ∨ (a = 1 ∧ b = 2) ∨ (a = 2 ∧ b = 1))

/-- A HELLO passes R443. -/
def State.helloPasses (s : State) (l h : Nat) (p : List Byte) : Bool :=
  decide (beAt p 0 2 = s.rd pgFAB FAB.FAB_CFG_SYSTEM_ID) && tiersPair s.tier (bits h 106 2) &&
    (decide (s.lrd l FIU.LINK_CTL_EXPECT_EN = 0) ||
      (decide (bits h 108 12 = s.lrd l FIU.LINK_EXPECT_DEV) && decide (bits h 106 2 = s.lrd l FIU.LINK_EXPECT_TIER) &&
        decide (bits h 97 9 = s.lrd l FIU.LINK_EXPECT_LINK)))

/-- A HELLO with header h and payload p on link l (R440 to R443). -/
def State.helloIn (s : State) (l h : Nat) (p : List Byte) : State :=
  let b := beAt p 2 1
  let s1 := (((s.lwr l FIU.LINK_STS_FAR_RX_OK (b % 2)).lwr l FIU.LINK_STS_FAR_TIER (bits h 106 2)).lwr l
    FIU.LINK_STS_FAR_DEV (bits h 108 12)).lwr l FIU.LINK_STS_FAR_LINK (bits h 97 9)
  if ¬ s.helloPasses l h p then
    let s2 := s1.raise (linkPage l) 2
    if s.linkState l = lHELLO then s2.linkDown l 4 else s2
  else
    let s2 := s1.setLink l { s1.link l with helloAt := some s.ticks, acked := bit b 1 }
    let s3 := s.relink s2
    if s.linkState l = lHELLO ∧ bit b 1 then s3.linkUp l
    else if s.linkState l = lACTIVE ∧ ¬ bit b 0 then s3.linkDown l 7
    else s3

/-- HELLO_RECEIVE (R443). -/
def execHelloReceive (link : Nat) (cell : List Byte) (s : State) : Host.Outcome State Fault Refusal :=
  .next (s.controlIn link cell (fun c => c = 1) fun t h p =>
    if [lHELLO, lACTIVE, lWAKE].contains (t.linkState link) then t.helloIn link h p else t)

/-- HELLO_SEND (R441, R442). -/
def execHelloSend (link : Nat) (s : State) : Host.Outcome State Fault Refusal :=
  .next (s.linkIn link [lHELLO, lACTIVE, lWAKE] (·.hello link))

/-- The hello timeout of link l has passed (R440): HELLO_MS in HELLO; in ACTIVE HELLO_MISS intervals since the last HELLO that passed, or
since the link entered ACTIVE. -/
def State.helloLate (s : State) (l : Nat) : Bool :=
  if s.linkState l = lHELLO then s.linkFor l (ticksMs (s.rd pgFAB FAB.TRAIN_TMO_HELLO_MS))
  else
    let span := ticksUs (max 1 (s.rd pgFAB FAB.HELLO_CFG_HELLO_MISS) * max 1 (s.rd pgFAB FAB.HELLO_CFG_HELLO_INT_US))
    s.linkFor l span && decide (span ≤ s.ticks - (s.link l).helloAt.getD 0)

/-- HELLO_TIMEOUT (R440): HELLO_MS in HELLO, or HELLO_MISS intervals without a HELLO in ACTIVE. -/
def execHelloTimeout (link : Nat) (s : State) : Host.Outcome State Fault Refusal :=
  .next (if s.helloLate link then s.linkIn link [lHELLO, lACTIVE] (·.linkDown link 3) else s)

/-- LINK_FORCE_DOWN (R440): LINK_CTL.FORCE_DOWN is written 1. -/
def State.linkForce (s : State) (l : Nat) : State :=
  let s1 := s.lwr l FIU.LINK_CTL_FORCE_DOWN 1
  if s1.linkState l = lACTIVE then s1.linkDown l 8 else s1

/-- LINK_FORCE_DOWN (R440). -/
def execLinkForceDown (link : Nat) (s : State) : Host.Outcome State Fault Refusal :=
  .next (s.linkCmd link 5 true (·.linkForce link))

/-- LINK_HOLDDOWN_EXPIRY (R440): HOLDDOWN_MS has elapsed; with EN = 1 the link adapts again. -/
def execLinkHolddownExpiry (link : Nat) (s : State) : Host.Outcome State Fault Refusal :=
  .next (s.linkIn link [lDOWN] fun (t : State) =>
    if t.lrd link FIU.LINK_CTL_EN = 1 ∧ t.linkFor link (ticksMs (t.rd pgFAB FAB.TRAIN_TMO_HOLDDOWN_MS)) then t.linkTo link lADAPT else t)

/-! ### Doze (R445 to R447) -/

/-- The transmit cells of link l drain: each is sent. -/
def State.linkDrain (s : State) (l : Nat) : State :=
  let s1 := s.setLink l { s.link l with fifo := [] }
  (s.link l).fifo.foldl (fun (t : State) c => (t.linkSend l c).linkCnt l 0) s1

/-- Link l is taken out of the masks and drained (R445, R446). -/
def State.linkQuiesce (s : State) (l : Nat) : State := (s.relink (s.setLink l { s.link l with out := true })).linkDrain l

/-- LINK_CTL.DOZE is written 1: on an ACTIVE link DOZE_REQ follows (R445, R446). -/
def State.dozeRequest (s : State) (l : Nat) : State :=
  let s1 := s.lwr l FIU.LINK_CTL_DOZE 1
  if s1.linkState l = lACTIVE then (s1.linkQuiesce l).control l 5 [] else s1

/-- LINK_DOZE_REQUEST (R445): the request, or its retry. -/
def execLinkDozeRequest (link : Nat) (s : State) : Host.Outcome State Fault Refusal :=
  .next (s.linkCmd link 2 true (·.dozeRequest link))

/-- Doze is agreed: the transmitter is quiet and the link dozes (R440, R446). -/
def State.dozeEnter (s : State) (l : Nat) : State := ((s.linkTo l lDOZE).linkCnt l 7).dozeCause l

/-- DOZE_REQ_RECEIVE (R446). -/
def execDozeReqReceive (link : Nat) (cell : List Byte) (s : State) : Host.Outcome State Fault Refusal :=
  .next (s.controlIn link cell (fun c => c = 5) fun t _ _ =>
    if t.linkState link = lACTIVE ∧ t.lrd link FIU.LINK_CTL_DOZE_ALLOW = 1 then
      ((t.linkQuiesce link).control link 6 []).dozeEnter link
    else t)

/-- DOZE_ACK_RECEIVE (R446). -/
def execDozeAckReceive (link : Nat) (cell : List Byte) (s : State) : Host.Outcome State Fault Refusal :=
  .next (s.controlIn link cell (fun c => c = 6) fun t _ _ =>
    if t.linkState link = lACTIVE ∧ t.lrd link FIU.LINK_CTL_DOZE = 1 then t.dozeEnter link else t)

/-- LINK_CTL.DOZE is written 0: a dozing link wakes; one that waits for its answer returns to the masks. -/
def State.dozeClear (s : State) (l : Nat) : State :=
  let s1 := s.lwr l FIU.LINK_CTL_DOZE 0
  if s1.linkState l = lDOZE then
    ((s1.setLink l { s1.link l with acked := false, out := false }).linkTo l lWAKE).dozeCause l
  else if s1.linkState l = lACTIVE then s1.relink (s1.setLink l { s1.link l with out := false })
  else s1

/-- LINK_WAKE (R447): DOZE is written 0, or (`signal`) the receiver detects signal. -/
def execLinkWake (link : Nat) (signal : Bool) (s : State) : Host.Outcome State Fault Refusal :=
  .next (if ¬ signal then s.linkCmd link 2 false (·.dozeClear link)
    else s.linkIn link [lDOZE] fun (t : State) =>
      ((t.setLink link { t.link link with acked := false, out := false }).linkTo link lWAKE).dozeCause link)

/-- LINK_WAKE_DONE (R440): lock and a HELLO with ACK = 1. -/
def execLinkWakeDone (link : Nat) (s : State) : Host.Outcome State Fault Refusal :=
  .next (s.linkIn link [lWAKE] fun (t : State) =>
    if t.lrd link FIU.LINK_STS_SF_LOCK = 1 ∧ (t.link link).acked then t.linkUp link else t)

/-- LINK_WAKE_TIMEOUT (R440): 10 µs in WAKE. -/
def execLinkWakeTimeout (link : Nat) (s : State) : Host.Outcome State Fault Refusal :=
  .next (if s.linkFor link (ticksUs 10) then s.linkIn link [lWAKE] (·.linkDown link 9) else s)

/-- A write of LINK_CTL (R440, R445, R456). -/
def State.linkCtlWrite (s : State) (l v : Nat) : State :=
  let s1 := s.relink (s.wrWord (linkPage l) (linkSlot l) v [FIU.LINK_CTL_SPRAY_EN, FIU.LINK_CTL_DOZE_ALLOW, FIU.LINK_CTL_EXPECT_EN])
  let s2 := if bit v 0 then s1.linkOn l else s1.linkOff l
  let s3 := if bit v 5 then s2.linkForce l else s2.lwr l FIU.LINK_CTL_FORCE_DOWN 0
  if bit v 2 then s3.dozeRequest l else s3.dozeClear l

/-! ### REACH and FC (R458 to R460) -/

/-- What an element sends in REACH on link l (R458). -/
def State.reachBits (s : State) (l : Nat) : Nat :=
  let act := s.activeLinks
  let down := s.downSet
  if s.tier = 2 then
    act.foldl (fun a m =>
      if s.lrd m FIU.LINK_STS_FAR_DEV = s.lrd l FIU.LINK_STS_FAR_DEV then a else orBits a (s.link m).reach) 0
  else if s.isUp l then
    act.foldl (fun a m => if s.isUp m then a else match s.farLine m with
      | some d => setBit a d
      | none => a) 0
  else (List.range s.linkCount).foldl (fun a m => orBits a (s.linkBits down m)) 0

/-- The device is a working fabric element. -/
def State.isElement (s : State) : Bool := s.fabric && s.enabled pgFEL && decide (s.tier = 1 ∨ s.tier = 2)

/-- REACH_SEND (R458): line devices send none. -/
def execReachSend (link : Nat) (s : State) : Host.Outcome State Fault Refusal :=
  .next (if s.isElement then s.linkIn link [lACTIVE] fun (t : State) => t.control link 2 (bitmapBytes (t.reachBits link)) else s)

/-- REACH_RECEIVE (R456 to R458). -/
def execReachReceive (link : Nat) (cell : List Byte) (s : State) : Host.Outcome State Fault Refusal :=
  .next (s.controlIn link cell (fun c => c = 2) fun t _ p => t.relink (t.setLink link { t.link link with reach := bitmapOf p }))

/-- FC_SEND (R459): on every down link; a tier-1 element adds what its up links last received. -/
def execFcSend (s : State) : Host.Outcome State Fault Refusal :=
  .next (if s.isElement then
    let act := s.activeLinks
    let v := act.foldl (fun a l => if s.isUp l then orBits a (s.link l).fc else a) s.felXoff
    act.foldl (fun (t : State) l => if s.isUp l then t else t.control l 3 (bitmapBytes v)) s
  else s)

/-- FC_RECEIVE (R459, R460). -/
def execFcReceive (link : Nat) (cell : List Byte) (s : State) : Host.Outcome State Fault Refusal :=
  .next (s.controlIn link cell (fun c => c = 3) fun t _ p => t.setLink link { t.link link with fc := bitmapOf p })

/-- UNKNOWN_CONTROL_CELL (R454). -/
def execUnknownControlCell (link : Nat) (cell : List Byte) (s : State) : Host.Outcome State Fault Refusal :=
  .next (s.controlIn link cell (fun c => c = 0 ∨ 6 < c) fun t _ _ => (t.cnt pgFAB FAB.FAB_CNT 7).raise pgFAB 3)

/-! ### Fabric strobes (R481 to R483) -/

/-- A fabric strobe is scheduled, in place of one pending (R483, R486). -/
def State.strobeAt_ (s : State) (t : NetTime) : State :=
  (({ s with fabStrobe := some t }.wr pgFAB FAB.SNAP_STS_PENDING 1).wr pgFAB FAB.SNAP_T_LO_NS t.ns).wr pgFAB FAB.SNAP_T_HI_SEC t.sec

/-- No fabric strobe is pending. -/
def State.strobeDone (s : State) : State := { s with fabStrobe := none }.wr pgFAB FAB.SNAP_STS_PENDING 0

/-- The payload of a STROBE (R452). -/
def strobePayload (id : Nat) (t : NetTime) : List Byte := toBe 2 id ++ toBe 6 t.sec ++ toBe 4 t.ns

/-- SNAP_CMD.SEND (R481). The sender takes its own ID as the last accepted (DEDUCED, notes/assumptions/26.md). -/
def State.snapSend (s : State) : State :=
  let id := (s.rd pgFAB FAB.SNAP_STS_LAST_ID + 1) % 65536
  let t := { s.nt.shift (s.rd pgFAB FAB.SNAP_CMD_LEAD_US * 1000 * 2 ^ 48 : Nat) with frac := 0 }
  let s1 := s.activeLinks.foldl (fun (u : State) l => u.control l 4 (strobePayload id t)) s
  ((s1.cnt pgFAB FAB.FAB_CNT 4).wr pgFAB FAB.SNAP_STS_LAST_ID id).strobeAt_ t

/-- FAB_SNAP_SEND (R481). -/
def execFabSnapSend (s : State) : Host.Outcome State Fault Refusal :=
  .next (s.regCmd pgFAB FAB.SNAP_CMD_SEND.off (1 + s.rd pgFAB FAB.SNAP_CMD_LEAD_US * 65536) (·.snapSend))

/-- A STROBE arrives on link l (R482, R483). -/
def State.strobeIn (s : State) (l : Nat) (p : List Byte) : State :=
  let id := beAt p 0 2
  let t : NetTime := { sec := beAt p 2 6, ns := beAt p 8 4 % 2 ^ 30 }
  if id = s.rd pgFAB FAB.SNAP_STS_LAST_ID then s
  else
    let s1 := (s.wr pgFAB FAB.SNAP_STS_LAST_ID id).cnt pgFAB FAB.FAB_CNT 5
    let s2 := if s.fabric then
        s1.activeLinks.foldl (fun (u : State) m => if m = l then u else u.control m 4 (p.take 12)) s1
      else s1
    if ¬ s.on pgCRWN CRWN.STROBE_CTL_FABRIC_EN then s2
    else if t.lt s.nt then (((s2.strobeDone).cnt pgFAB FAB.FAB_CNT 6).raise pgFAB 2).strobe
    else s2.strobeAt_ t

/-- STROBE_CELL_RECEIVE (R482, R483). -/
def execStrobeCellReceive (link : Nat) (cell : List Byte) (s : State) : Host.Outcome State Fault Refusal :=
  .next (s.controlIn link cell (fun c => c = 4) fun t _ p => t.strobeIn link p)

/-- FABRIC_STROBE_TARGET (R481, R482): the scheduled strobe fires once network time has reached its target. -/
def execFabricStrobeTarget (s : State) : Host.Outcome State Fault Refusal :=
  .next (match s.fabStrobe with
    | some t => if s.live pgFAB ∧ ¬ s.nt.lt t then s.strobeDone.strobe else s
    | none => s)

/-! ### The VOQ arbiter (R420, R421, R460) -/

/-- A frame's bytes as cells carry them (R450): descriptor, frame, FCS. A frame that no FCS arrived with, or whose bytes the device
has changed since, carries the FCS of its bytes as they are (DESIGN CHOICE: R91 and R450 are silent; notes/assumptions/26.md). -/
def Frame.cellBody (f : Frame) : List Byte :=
  let d := Config.descriptor [f.len, f.rewrite, (f.l3.map (· + 1)).getD 0, b2n f.ce, b2n f.traced, f.traceId, f.time.total, b2n f.timeValid]
  d.take 16 ++ List.replicate (16 - d.length) 0 ++ f.bytes ++ toLe 4 (if f.modified ∨ 256 ≤ f.ctx then crc32 f.bytes else f.fcs)

/-- The cells of a frame (R450). -/
def Frame.cellCount (f : Frame) : Nat := (f.len + 16 + 511) / 512

/-- VOQ v (device times 8 plus class) is eligible, XOFF apart (R404, R421). -/
def State.voqReady (s : State) (v : Nat) : Bool :=
  let x := s.que (voq0 + v)
  x.headWhole && !x.halted && !s.flushing (voq0 + v) && decide (s.maskOf (v / 8) ≠ [])

/-- XOFF holds VOQ v (R460). -/
def State.voqHeld (s : State) (v : Nat) : Bool := decide (v % 8 ≠ 7) && s.xoff (v / 8)

/-- The VOQs that may be chosen, rising. -/
def State.voqList (s : State) : List Nat :=
  ((s.queues.filter fun e => decide (voq0 ≤ e.1) && s.voqReady (e.1 - voq0)).map fun e => e.1 - voq0)

/-- The quantum of class c in bytes (R420). -/
def State.fabQuantum (s : State) (c : Nat) : Nat :=
  let f := match c with
    | 0 => QSU.FAB_W0_FAB_W0
    | 1 => QSU.FAB_W0_FAB_W1
    | 2 => QSU.FAB_W0_FAB_W2
    | 3 => QSU.FAB_W0_FAB_W3
    | 4 => QSU.FAB_W1_FAB_W4
    | 5 => QSU.FAB_W1_FAB_W5
    | _ => QSU.FAB_W1_FAB_W6
  max 1 (s.rd pgQSU f) * 256

/-- DWRR among the eligible classes 0 to 6 (R420, as R407). -/
def State.voqClass (s : State) (l : List Nat) : (left cur : Nat) → State × Nat
  | 0, cur => ({ s with voqCur := cur }, cur)
  | left + 1, cur =>
    let d := s.voqDef.getD cur 0
    if 0 < d then ({ s with voqCur := cur }, cur)
    else { s with voqDef := lset s.voqDef cur (d + ((s.fabQuantum cur : Nat) : Int)) }.voqClass l left (nextIn l cur)

/-- The frames that one decision grants: whole frames until the cell payload reaches 81,920 bytes. -/
def voqRun : (got : Nat) → List Frame → List Frame × List Frame
  | _, [] => ([], [])
  | got, f :: t =>
    if got < 81920 ∧ (f.place = .chip ∨ f.place = .staged ∨ f.place = .back) then
      let r := voqRun (got + f.len + 16) t
      (f :: r.1, r.2)
    else ([], f :: t)

/-- One granted frame goes to the sprayer; one found bad is dropped before its first cell (R92, R93, R375). -/
def State.voqFrame (s : State) (v : Nat) (f : Frame) : State :=
  let s1 := (s.cnt pgQSU QSU.QSU_CNT 0).tracePoint f 5 0 f.queue 0
  if f.poison then (s1.cnt pgBRM BRM.BRM_CNT 6).release f
  else if f.err ∨ ¬ f.fcsGood then s1.release f
  else { s1.grantHold f with spray := s1.spray ++ [{ frame := f, dst := v / 8, cls := v % 8, sent := 0 }] }

/-- The grant of a VOQ. -/
def State.voqGrant (s : State) (v : Nat) : State :=
  let x := s.que (voq0 + v)
  let r := voqRun 0 x.frames
  let bytes := sumNat (r.1.map fun f => f.len + 16)
  let s1 := { s.setQue (voq0 + v) { x with frames := r.2 } with voqLast := tset s.voqLast (v % 8) (v / 8) }
  let s2 := if v % 8 = 7 then s1
    else { s1 with voqDef := lset s1.voqDef (v % 8) (s1.voqDef.getD (v % 8) 0 - ((bytes : Nat) : Int)) }
  ((r.1.foldl (fun (t : State) f => t.voqFrame v f) s2).spillLeave (voq0 + v)).poolView

/-- VOQ_DECISION (R420). -/
def execVoqDecision (s : State) : Host.Outcome State Fault Refusal :=
  .next (if ¬ s.enabled pgQSU ∨ ¬ s.enabled pgFAB then s
    else
      let all := s.voqList
      let l := all.filter fun v => !s.voqHeld v
      let s1 := if all.any fun v => s.voqHeld v then s.cnt pgFAB FAB.FAB_CNT 3 else s
      let classes := (List.range 7).filter fun c => l.any fun v => v % 8 = c
      let s2 := { s1 with voqDef := s1.voqDef.zipIdx.map fun (e : Int × Nat) => if classes.contains e.2 then e.1 else 0 }
      if l = [] then s2
      else
        let r := if l.any fun v => v % 8 = 7 then (s2, 7)
          else s2.voqClass classes 4096 (if classes.contains s2.voqCur then s2.voqCur else nextIn classes s2.voqCur)
        let devs := (l.filter fun v => v % 8 = r.2).map (· / 8)
        r.1.voqGrant (8 * rrNext devs (tget r.1.voqLast r.2) + r.2))

/-! ### Spraying (R461, R462) -/

/-- The SPRAY_ORDER entry and link for a cell to destination d: the next entry after the last used whose link is in its
mask. -/
def State.sprayLink (s : State) (d : Nat) : Option (Nat × Nat) :=
  let n := max 1 (min 256 (s.rd pgFAB FAB.SPRAY_LEN_ENTRIES))
  let mask := s.maskOf d
  ((List.range n).map fun k => (s.sprayAt + k) % n).findSome? fun e =>
    let l := s.rd pgFAB FAB.SPRAY_ORDER_LINK e
    if mask.contains l then some (e, l) else none

/-- Cell k of a frame being sprayed. -/
def State.sprayCell (s : State) (x : Spray) : Cell :=
  let body := x.frame.cellBody
  let part := slice body (512 * x.sent) 512
  { dst := x.dst, src := s.ownId, cls := x.cls, seq := tgetD s.seqs (8 * x.dst + x.cls) 0, sof := decide (x.sent = 0)
    eof := decide (x.sent + 1 = x.frame.cellCount), len := part.length - 1, dport := bits x.frame.dest 12 8, payload := part }

/-- SPRAY_CELL (R461, R462): the next cell goes into the FIFO of its link, or waits while that FIFO holds 4 cells. After
the last cell the frame's buffer is for BUFFER_FREE or REPLICA_COMPLETION (R367). -/
def execSprayCell (s : State) : Host.Outcome State Fault Refusal :=
  .next (match s.spray with
    | [] => s
    | x :: rest =>
      if ¬ s.enabled pgFAB then s
      else match s.sprayLink x.dst with
        | none => s
        | some (e, l) =>
          if 4 ≤ (s.link l).fifo.length then s
          else
            let c := s.sprayCell x
            let k := 8 * x.dst + x.cls
            let s1 := { s with seqs := tset s.seqs k ((c.seq + 1) % 2 ^ 20), sprayAt := e + 1,
                               spray := if c.eof then rest else { x with sent := x.sent + 1 } :: rest }
            let s2 := (s1.setLink l { s1.link l with fifo := (s1.link l).fifo ++ [c.encode] }).cnt pgFAB FAB.FAB_CNT 0
            let s2 := if c.sof then s2.tracePoint x.frame 6 (l / 16) x.dst c.seq else s2
            if c.eof then (s2.cnt pgFAB FAB.FAB_CNT 1).poolView else s2)

/-- FAB's ENABLE rises: every SEQ counter starts at 0 (R461). -/
def State.fabEnable (s : State) : State := { s with seqs := [] }

/-- The cell slot of a tick: 19.2 ns is 384 / 25 timing clocks (R433). -/
def slotOf (ticks : Nat) : Nat := ticks * 25 / 384

/-- The transmitter of link l puts out superframes: the link is not OFF and does not doze (R439, R440). -/
def State.linkTransmits (s : State) (l : Nat) : Bool := decide (s.linkState l ≠ lOFF) && decide (s.linkState l ≠ lDOZE)

/-- One timing clock of a line device's links: at a cell slot each link sends the head of its FIFO, or an idle cell (R433, R439, R462).
An element's links send in FEL_SLOT_SEND. -/
def State.linkTick (s : State) : State :=
  if slotOf s.ticks = slotOf (s.ticks + 1) ∨ s.fabric then s
  else (List.range 256).foldl (fun (t : State) l =>
    match (t.link l).fifo with
    | [] => if t.linkTransmits l then t.linkSend l idleCell else t
    | c :: r => ((t.setLink l { t.link l with fifo := r }).linkSend l c).linkCnt l 0) s

/-! ### Register words that FIU and FAB compute (R484, R486) -/

end Sys2Proof.Machine
end

