-- ==== Sys2Proof/Machine/Liner.lean ====
section
/-! DEFINITION. Machine/Liner.lean: the fabric element and the Liner (spec 12_drafa_fabric.md, R449, R450, R463 to R477,
R488 to R491). -/

namespace Sys2Proof.Machine

/-! ### Data cells in (R438, R449) -/

/-- The codewords that a cell lies in are counted, each with the first cell that lies in it: corrected, or beyond correction (R435,
R438). `errs` gives of each its symbol errors and whether the cell is that first one. -/
def State.fecCount (s : State) (l : Nat) (errs : List (Nat × Bool)) : State :=
  errs.foldl (fun (t : State) e =>
    if ¬ e.2 ∨ e.1 = 0 then t else t.linkCnt l (if drafaFails e.1 then 3 else 2)) s

/-- A data cell arrives on link l: one in an uncorrectable codeword or with a bad CRC is discarded and counted; corrected codewords
are counted; a good cell is counted and given to `f` (R438, R449). -/
def State.dataIn (s : State) (l : Nat) (cell : List Byte) (errs : List (Nat × Bool)) (f : State → Cell → State) : State :=
  if ¬ s.linkReceives l then s
  else
    let s1 := s.fecCount l errs
    if errs.any fun e => drafaFails e.1 then s1
    else if ¬ cellGood cell then s1.linkCnt l 4
    else
      let c := decodeCell cell
      if c.type = 0 then f (s1.linkCnt l 1) c else s1

/-! ### The fabric element (R463 to R471) -/

/-- The next link of a reach list after the one last chosen by partition k for destination d (R464). -/
def State.felChoose (s : State) (k d : Nat) (l : List Nat) : Nat := rrNext l (tget s.felLast (4096 * k + d))

/-- A cell enters the element on link l in partition k with a non-empty reach list (R464 to R468). -/
def State.felEnter (s : State) (l k : Nat) (c : Cell) (reach : List Nat) : State :=
  let j := s.felChoose k c.dst reach
  let s1 := { s with felLast := tset s.felLast (4096 * k + c.dst) j }
  let express := decide (c.cls = 7)
  let q := if express then 8192 + j else 512 * k + j
  let limit := if express then s.rd pgFEL FEL.QLIMITS_EXP_QMAX else s.rd pgFEL FEL.QLIMITS_PQ_MAX
  if s.isUp l ∧ s.isUp j then s1.felDiscard 6
  else if limit ≤ (s1.felQueue q).length then s1.felDiscard 3
  else
    let got := if s1.enabled pgBPM ∧ s1.on pgBPM BPM.CARVE_STS_APPLIED then s1.alloc 1 { owner := q } false else (s1, none)
    match got with
    | (s2, none) => s2.felDiscard 4
    | (s2, some b) =>
      let x : FelCell := { bytes := { c with hop := c.hop + 1 }.encode, dst := c.dst, express := express, buf := b }
      let s3 := s2.setFel q (s2.felQueue q ++ [x])
      if express then s3 else s3.felXoffSet c.dst

/-- A cell arrives at the element (R463 to R467). -/
def State.felArrive (s : State) (l : Nat) (c : Cell) : State :=
  let s1 := s.cnt pgFEL FEL.FEL_CNT 0
  if ¬ s.isElement then s1
  else if c.hop = 3 then s1.felDiscard 6
  else
    let reach := s1.maskOf c.dst
    if reach = [] then s1.felDiscard 5
    else s1.felEnter l ((l + slotOf s.ticks) % 16) c reach

/-- The Band carries between link l and the QD: a link on lanes F000 to F255 needs none (R26). -/
def State.linkCrosses (s : State) (l : Nat) : Bool := decide (l < 256) || s.bandUp

/-- FEL_CELL_ARRIVE (R463). A cell of links 256 to 511 crosses the Band, and waits on the FD while it does not carry (R19, R26; that it
waits and is not lost is DEDUCED, notes/assumptions/35.md). -/
def execFelCellArrive (link : Nat) (cell : List Byte) (errs : List (Nat × Bool)) (s : State) : Host.Outcome State Fault Refusal :=
  .next (if s.fabric ∧ s.live pgFEL then
    s.dataIn link cell errs fun t c =>
      if t.linkCrosses link then t.felArrive link c else { t with felWait := t.felWait ++ [(link, cell)] }
  else s)

/-- The cells that waited for the Band reach the element (R19). -/
def State.felResume (s : State) : State :=
  s.felWait.foldl (fun (t : State) e => t.felArrive e.1 (decodeCell e.2)) { s with felWait := [] }

/-- A cell leaves queue q of the element for link j, or is discarded with poisoned data (R466, R468, R469). -/
def State.felOut (s : State) (j q : Nat) (c : FelCell) (rest : List FelCell) (poisoned : Bool) : State :=
  let s1 := (s.setFel q rest).bpmFree 1 c.buf q
  let s2 := if c.express then s1 else s1.felXoffSet c.dst
  if poisoned then (s2.felDiscard 7).raise pgFEL 2
  else
    let s3 := ((s2.linkSend j c.bytes).linkCnt j 0).cnt pgFEL FEL.FEL_CNT 1
    if c.express then s3.cnt pgFEL FEL.FEL_CNT 8 else s3

/-- FEL_SLOT_SEND (R439, R466): link j in the present cell slot t sends its express head, else the head of partition
(j − t) mod 16, else an idle cell. A link sends once in a slot; one that is not ACTIVE sends
idle cells (R439, R440). -/
def execFelSlotSend (link : Nat) (poisoned : Bool) (s : State) : Host.Outcome State Fault Refusal :=
  .next (if ¬ s.isElement ∨ (s.link link).slotAt = some (slotOf s.ticks) then s
    else s.linkIn link [lADAPT, lLOCK, lHELLO, lACTIVE, lWAKE, lDOWN] fun (u : State) =>
      let t := u.setLink link { u.link link with slotAt := some (slotOf u.ticks) }
      if t.linkState link ≠ lACTIVE then t.linkSend link idleCell else
      if ¬ t.linkCrosses link then (t.linkSend link idleCell).cnt pgFEL FEL.FEL_CNT 2 else
      let k := (link + 16 - slotOf t.ticks % 16) % 16
      match t.felQueue (8192 + link) with
      | c :: rest => t.felOut link (8192 + link) c rest poisoned
      | [] => match t.felQueue (512 * k + link) with
        | c :: rest => t.felOut link (512 * k + link) c rest poisoned
        | [] => (t.linkSend link idleCell).cnt pgFEL FEL.FEL_CNT 2)

/-! ### The Liner (R472 to R477) -/

/-- Cells held by the Liner (R488). -/
def State.linUsed (s : State) : Nat := sumNat (s.liner.map fun e => e.2.held.length)

/-- Cells held show, and their peak (R488). -/
def State.linView (s : State) : State :=
  (s.wr pgLIN LIN.STORE_STS_USED s.linUsed).peak pgLIN LIN.STORE_PEAK_COUNT s.linUsed

/-- The first arrival among the held cells of a context. -/
def LinCtx.oldest (x : LinCtx) : Option Nat :=
  x.held.foldl (fun (a : Option Nat) e =>
    match a with
    | none => some e.2.order
    | some o => some (min o e.2.order)) none

/-- The context whose oldest held cell has waited longest (R473). -/
def State.linOldest (s : State) : Option Nat :=
  (s.liner.foldl (fun (a : Option (Nat × Nat)) e =>
    match e.2.oldest, a with
    | none, _ => a
    | some o, none => some (e.1, o)
    | some o, some (k, p) => if o < p then some (e.1, o) else some (k, p)) none).map (·.1)

/-- A frame whose EOF was delivered goes to admission as a frame from the fabric (R450, R475). -/
def State.linFrame (s : State) (k : Nat) (body : List Byte) (dport : Nat) : State :=
  let d := body.take 16
  let data := body.drop 16
  let l3 := Config.descriptorField d 2
  let f : Frame := { bytes := data.take (data.length - 4), fcs := leNat (data.drop (data.length - 4))
                     rewrite := Config.descriptorField d 1 % 2 ^ 18, l3 := if l3 = 0 then none else some (l3 - 1)
                     ce := decide (Config.descriptorField d 3 % 2 = 1), traced := decide (Config.descriptorField d 4 % 2 = 1)
                     traceId := Config.descriptorField d 5 % 2 ^ 16, time := NetTime.ofTotal (Config.descriptorField d 6)
                     timeValid := decide (Config.descriptorField d 7 % 2 = 1), srcDev := k / 8, nhType := 2
                     dest := s.ownId + dport * 4096, cls := k % 8, fence := s.fences, epoch := s.epoch }
  ({ s with fabFrames := s.fabFrames ++ [f] }.cnt pgLIN LIN.LIN_CNT 6).tracePoint f 7 0 (k / 8) (k % 8)

/-- A delivered cell in reassembly (R475). Cells dropped up to the next SOF count as one dropped frame, unless they are the
rest of the partial frame that the skip has counted. -/
def State.linDeliver (s : State) (k : Nat) (c : LinCell) : State :=
  let s1 := s.cnt pgLIN LIN.LIN_CNT 1
  let x := s1.lin k
  let finish (body : List Byte) (dport : Nat) : State :=
    let y := { x with hunt := false, tail := false }
    if c.eof then (s1.setLin k { y with partial_ := none }).linFrame k body dport
    else s1.setLin k { y with partial_ := some (body, dport) }
  if c.sof then finish c.payload c.dport
  else match x.hunt, x.partial_ with
    | false, some (body, dport) => finish (body ++ c.payload) dport
    | _, _ =>
      let s2 := if c.eof ∧ ¬ x.tail then s1.cnt pgLIN LIN.LIN_CNT 5 else s1
      s2.setLin k { x with tail := x.tail && !c.eof }

/-- release (R473): the run of held cells at the next expected SEQ is delivered. `left` bounds it by the cells held. -/
def State.linRelease (s : State) (k : Nat) : (left : Nat) → State
  | 0 => s
  | left + 1 =>
    let x := s.lin k
    match tget x.held x.next with
    | none => s
    | some c =>
      let s1 := s.setLin k { x with held := tdel x.held x.next, next := (x.next + 1) % 2 ^ 20 }
      ((s1.peak pgLIN LIN.MAX_WAIT_NS ((s.ticks - c.since) * 5 / 4)).linDeliver k c).linRelease k left

/-- The held SEQ that comes first, counted from the next expected one. -/
def LinCtx.lowest (x : LinCtx) : Nat :=
  let d (q : Nat) : Nat := (q + 2 ^ 20 - x.next) % 2 ^ 20
  ((x.held.map (·.1)).foldl (fun (a : Option Nat) q =>
    match a with
    | none => some q
    | some b => if d q < d b then some q else some b) none).getD x.next

/-- skip (R473 to R475), to a SEQ: a skip of a context that is not idle counts in LIN_CNT n, in its source and as cause
bit c; the partial frame is dropped. -/
def State.linSkipTo (s : State) (k seq n c : Nat) : State :=
  let x := s.lin k
  let s1 := if x.idle then s
    else ((s.cnt pgLIN LIN.LIN_CNT n).inc pgLIN LIN.SKIPS 1 (k / 8)).raise pgLIN c
  let s2 := if x.partial_.isSome then s1.cnt pgLIN LIN.LIN_CNT 5 else s1
  (s2.setLin k { x with next := seq, idle := false, partial_ := none, hunt := true, tail := x.partial_.isSome }).linRelease k
    x.held.length

/-- skip of a context to its first held SEQ. -/
def State.linSkip (s : State) (k n c : Nat) : State := s.linSkipTo k (s.lin k).lowest n c

/-- A cell is held. -/
def State.linHold (s : State) (k seq : Nat) (c : Cell) : State :=
  let x := s.lin k
  let h : LinCell := { payload := c.payload.take (c.len + 1), sof := c.sof, eof := c.eof, dport := c.dport
                       order := s.linOrder, since := s.ticks }
  { s.setLin k { x with held := tset x.held seq h, heardAt := s.ticks } with linOrder := s.linOrder + 1 }

/-- The Liner's window (R473, R488). -/
def State.linWindow (s : State) : Nat := s.rd pgLIN LIN.LIN_WIN_WINDOW

/-- The skips that make room for a cell of SEQ seq in context k (R473): of the oldest waiting context each time; with no
cell held anywhere the context itself skips up to the cell. `left` bounds them by the cells held. -/
def State.linRoom (s : State) (k seq : Nat) : (left : Nat) → State
  | 0 => s
  | left + 1 =>
    let x := s.lin k
    let d := (seq + 2 ^ 20 - x.next) % 2 ^ 20
    if (¬ x.idle ∧ s.linWindow ≤ d) ∨ 65536 ≤ s.linUsed then
      match s.linOldest with
      | some y => (s.linSkip y 3 1).linRoom k seq left
      | none => s.linSkipTo k seq 3 1
    else s

/-- on_cell (R473, R476, R477). -/
def State.linCell (s : State) (c : Cell) (storeBad : Bool) : State :=
  let s1 := s.cnt pgLIN LIN.LIN_CNT 0
  let k := 8 * c.src + c.cls
  let x := s1.lin k
  if ¬ s.enabled pgLIN then s1
  else if c.dst ≠ s.ownId then (s1.cnt pgLIN LIN.LIN_CNT 8).raise pgLIN 4
  else if storeBad then (s1.cnt pgLIN LIN.LIN_CNT 7).raise pgLIN 3
  else if ¬ x.idle ∧ 2 ^ 19 ≤ (c.seq + 2 ^ 20 - x.next) % 2 ^ 20 then (s1.cnt pgLIN LIN.LIN_CNT 4).raise pgLIN 2
  else
    let s2 := s1.linRoom k c.seq (s1.linUsed + 1)
    let s3 := s2.linHold k c.seq c
    (if (s3.lin k).idle then s3 else s3.linRelease k (s3.lin k).held.length).linView

/-- LINER_CELL (R473). -/
def execLinerCell (link : Nat) (cell : List Byte) (errs : List (Nat × Bool)) (storeBad : Bool) (s : State) :
    Host.Outcome State Fault Refusal :=
  .next (if ¬ s.fabric ∧ s.live pgLIN then s.dataIn link cell errs fun t c => t.linCell c storeBad else s)

/-- The arrival time of the oldest cell a context holds (R473). -/
def LinCtx.tOldest (x : LinCtx) : Option Nat :=
  x.held.foldl (fun (a : Option Nat) e =>
    match a with
    | none => some e.2.since
    | some o => some (min o e.2.since)) none

/-- The time bound of class c has passed for the oldest cell held in context k (R473, R488). -/
def State.linLate (s : State) (k : Nat) : Bool :=
  match (s.lin k).tOldest with
  | none => false
  | some t => decide (max 1 (s.rd pgLIN LIN.TBOUND_TEN_NS (k % 8)) * 8 ≤ s.ticks - t)

/-- LINER_TIMEOUT (R473, R474): the oldest held cell of a context has waited its time bound. -/
def execLinerTimeout (source cls : Nat) (s : State) : Host.Outcome State Fault Refusal :=
  .next (let k := 8 * source + cls
    if source < 4096 ∧ cls < 8 ∧ s.live pgLIN ∧ s.linLate k then (s.linSkip k 2 0).linView else s)

/-- LINER_CTX_IDLE (R476): the context holds no cell and has received none for CTX_IDLE_US. -/
def execLinerCtxIdle (source cls : Nat) (s : State) : Host.Outcome State Fault Refusal :=
  .next (let k := 8 * source + cls
    if source < 4096 ∧ cls < 8 ∧ s.live pgLIN ∧ (s.lin k).held = [] ∧ ¬ (s.lin k).idle ∧
        ticksUs (s.rd pgLIN LIN.LIN_IDLE_CTX_IDLE_US) ≤ s.ticks - (s.lin k).heardAt then
      s.setLin k { s.lin k with idle := true }
    else s)

/-- A soft reset of LIN (R866): each context becomes idle and drops its partial frame; held cells stay. -/
def State.linSoftReset (s : State) : State :=
  let n := (s.liner.filter fun e => e.2.partial_.isSome).length
  let l := s.liner.map fun (e : Nat × LinCtx) =>
    (e.1, { e.2 with idle := true, partial_ := none, hunt := false, tail := false })
  { s with liner := l }.bump pgLIN LIN.LIN_CNT 5 5 n

end Sys2Proof.Machine
end

