-- ==== Sys2Proof/Machine/Pcie.lean ====
section
/-! DEFINITION. Machine/Pcie.lean: the PCIe endpoint: link, error reporting, configuration space, tags, MSI-X (spec
14_host_endpoint.md, R529 to R558). -/

namespace Sys2Proof.Machine

/-! ### Views of the PCE page (R565) -/

/-- The number of VFs enabled (R537). -/
def State.numVfs (s : State) : Nat :=
  if bit ((s.fnS 0).dw 0x308) 0 then bits ((s.fnS 0).dw 0x310) 0 16 else 0

/-- FN_STS, TAG_STS and FLR_STS show the functions and the slots. -/
def State.pceView (s : State) : State :=
  let quar := (s.tags.filter fun (t : TagSlot) => t.quarantined).length
  let vfBusy := (s.fns.filter fun (e : Nat × PciFn) => decide (2 ≤ e.1) && e.2.flr.isSome).length
  let s1 := (((s.put pgPCE PCE.FN_STS_PF0_BME (s.fnS 0).bme).put pgPCE PCE.FN_STS_PF1_BME (s.fnS 1).bme).put pgPCE
    PCE.FN_STS_PF0_D3 (s.fnS 0).d3).put pgPCE PCE.FN_STS_PF1_D3 (s.fnS 1).d3
  let s2 := ((s1.wr pgPCE PCE.FN_STS_NUM_VFS s.numVfs).wr pgPCE PCE.TAG_STS_OUTSTANDING (s.tags.length - quar)).wr pgPCE
    PCE.TAG_STS_QUARANTINED quar
  ((s2.put pgPCE PCE.FLR_STS_PF0_BUSY (s.fnS 0).flr.isSome).put pgPCE PCE.FLR_STS_PF1_BUSY (s.fnS 1).flr.isSome).wr pgPCE
    PCE.FLR_STS_VF_BUSY_CNT vfBusy

/-! ### The link (R529 to R532, R565) -/

/-- The fastest speed that LINK_CTL allows, by its encoding. -/
def State.maxSpeed (s : State) : Nat := max 1 (min 4 (s.rd pgPCE PCE.LINK_CTL_MAX_SPEED))

/-- The link trains with a partner that offers a speed and a number of lanes (R529 to R531). A change of speed or width from
the last training sets cause bit 5. -/
def State.linkTrain (s : State) (speed lanes : Nat) (reversed : Bool) : State :=
  let s0 := { s with retraining := false }
  if lanes < 8 ∨ speed = 0 then
    (((s0.cnt pgPCE PCE.PCE_CNT 11).wr pgPCE PCE.LINK_STS_LINK_UP 0).wr pgPCE PCE.LINK_STS_L1 0)
  else
    let sp := min speed s.maxSpeed
    let w := if lanes < 16 ∨ s.on pgPCE PCE.LINK_CTL_MAX_X8 then 8 else 0
    let old := (s.rd pgPCE PCE.LINK_STS_SPEED, s.rd pgPCE PCE.LINK_STS_WIDTH)
    let s1 := s0.wrAll pgPCE 0 [(PCE.LINK_STS_SPEED, sp), (PCE.LINK_STS_WIDTH, w), (PCE.LINK_STS_FLIT, b2n (decide (sp = 4))),
      (PCE.LINK_STS_LINK_UP, 1), (PCE.LINK_STS_REVERSED, b2n reversed), (PCE.LINK_STS_L1, 0)]
    s1.raiseIf (old.1 ≠ 0 && decide (old ≠ (sp, w))) pgPCE 5

/-- PCIE_LINK_TRAIN (R529, R531): PERST_N holds the endpoint in reset while it is low. -/
def execPcieLinkTrain (speed lanes : Nat) (reversed : Bool) (s : State) : Host.Outcome State Fault Refusal :=
  .next (if s.perstHigh then s.gate pgPCE (·.linkTrain speed lanes reversed) else s)

/-- LINK_CTL.RETRAIN (R565): the link leaves L1 and trains; PCIE_LINK_TRAIN brings the outcome. -/
def State.retrain (s : State) : State := { s.wr pgPCE PCE.LINK_STS_L1 0 with retraining := true }

/-- PCIE_RETRAIN (R565). -/
def execPcieRetrain (s : State) : Host.Outcome State Fault Refusal := .next (s.gate pgPCE (·.retrain))

/-- ASPM_L1_ENTRY (R532): the link enters L1. -/
def execAspmL1Entry (s : State) : Host.Outcome State Fault Refusal :=
  .next (if s.on pgPCE PCE.LINK_STS_LINK_UP then s.gate pgPCE (·.wr pgPCE PCE.LINK_STS_L1 1) else s)

/-- PCIE_L1_EXIT (R532): the exit ends, and the transfer that waits for it goes on. -/
def execPcieL1Exit (s : State) : Host.Outcome State Fault Refusal := .next (s.gate pgPCE (·.wr pgPCE PCE.LINK_STS_L1 0))

/-! ### Advanced Error Reporting (R557, R558) -/

/-- The function whose AER capability takes an error of function fn: a VF's errors are logged in PF0. -/
def aerFn (fn : Nat) : Nat := if fn ≤ 1 then fn else 0

/-- An error message of function t, where its Device Control enables it: severity 0 correctable, 1 non-fatal, 2 fatal. -/
def State.errMessage (s : State) (t sev : Nat) : State :=
  if bit ((s.fnS t).dw 0x78) sev ∨ (sev ≠ 0 ∧ bit ((s.fnS t).dw 4) 8) then s.emit (.errMsg t sev) else s

/-- A correctable error is logged and signalled. -/
def State.aerCor (s : State) (fn b : Nat) : State :=
  let t := aerFn fn
  let x := s.fnS t
  let x1 := (x.setDw 0x110 (setBit (x.dw 0x110) b)).setDw 0x78 (setBit (x.dw 0x78) 16)
  let s1 := s.setFn t x1
  if bit (x.dw 0x114) b then s1 else s1.errMessage t 0

/-- An uncorrectable error is logged and signalled: status bit b, the header log while no unmasked error is pending, and
the message of its severity; an advisory non-fatal error sends a correctable message (R555). The header log holds the
routing ID in its second word; the rest of the header is a free value, since the model's commands carry no TLP header. -/
def State.aerUncor (s : State) (fn b : Nat) (advisory : Bool) : State :=
  let t := aerFn fn
  let x := s.fnS t
  let mask := x.dw 0x108
  let first := !bit mask b && decide (andNot (x.dw 0x104) mask = 0)
  let fatal := bit (x.dw 0x10C) b
  let x1 := (x.setDw 0x104 (setBit (x.dw 0x104) b)).setDw 0x78 (setBit (x.dw 0x78) (if fatal then 18 else 17))
  let d0 := s.draw 32
  let d2 := d0.2.draw 32
  let d3 := d2.2.draw 32
  let x2 := if first then ((((x1.setDw 0x118 (andNot (x1.dw 0x118) 31 + b)).setDw 0x11C d0.1).setDw 0x120 (fn * 65536)).setDw
    0x124 d2.1).setDw 0x128 d3.1 else x1
  let s1 := (if first then d3.2 else s).setFn t x2
  if bit mask b then s1
  else if advisory ∧ ¬ fatal then s1.aerCor t 13
  else s1.errMessage t (if fatal then 2 else 1)

/-- Unsupported Request (R557): the answer where the request is non-posted. -/
def State.unsupportedReq (s : State) (fn : Nat) (posted : Bool) : State :=
  let s1 := (s.cnt pgPCE PCE.PCE_CNT 8).aerUncor fn 20 false
  let x := s1.fnS (aerFn fn)
  let s2 := s1.setFn (aerFn fn) (x.setDw 0x78 (setBit (x.dw 0x78) 19))
  if posted then s2 else s2.emit (.unsupported fn)

/-- Completer Abort (R540, R557): the answer to a read; a write is discarded. -/
def State.completerAbort (s : State) (fn : Nat) (posted : Bool) : State :=
  let s1 := (s.cnt pgPCE PCE.PCE_CNT 8).aerUncor fn 15 false
  if posted then s1 else s1.emit (.completerAbort fn)

/-! ### MSI-X (R542, R543) -/

/-- The number of vectors of function fn. -/
def vectorsOf (fn : Nat) : Nat := if fn = 0 then 2048 else 64

/-- The pending vectors of a function that may now be delivered send one message each, and their pending bits clear. -/
def State.msixFlush (s : State) (fn : Nat) : State :=
  (s.fnS fn).vecs.foldl (fun (t : State) e =>
    let f := t.fnS fn
    let v := tgetD f.vecs e.1 {}
    if v.pend ∧ f.delivers e.1 then
      ((t.setFn fn { f with vecs := tset f.vecs e.1 { v with pend := false } }).cnt pgPCE PCE.PCE_CNT 0).emit (.msix fn e.1)
    else t) s

/-- MSIX_UNMASK (R543): the vector's mask bit clears. -/
def execMsixUnmask (fn vec : Nat) (s : State) : Host.Outcome State Fault Refusal :=
  .next (if vec < vectorsOf fn then s.gate pgPCE fun (t : State) =>
      let f := t.fnS fn
      (t.setFn fn { f with vecs := tset f.vecs vec { tgetD f.vecs vec {} with mask := false } }).msixFlush fn
    else s)

/-- A dword of the MSI-X table of a function is written: message address, data, and the mask bit. -/
def State.vecWrite (s : State) (fn off v : Nat) : State :=
  let f := s.fnS fn
  let n := off / 16
  let e := tgetD f.vecs n {}
  let e1 : MsixVec := match off % 16 / 4 with
    | 0 => { e with addr := e.addr / 2 ^ 32 * 2 ^ 32 + v / 4 * 4 }
    | 1 => { e with addr := e.addr % 2 ^ 32 + v * 2 ^ 32 }
    | 2 => { e with data := v }
    | _ => { e with mask := bit v 0 }
  (s.setFn fn { f with vecs := tset f.vecs n e1 }).msixFlush fn

/-- A dword of the MSI-X table. -/
def PciFn.vecRead (f : PciFn) (off : Nat) : Nat :=
  let e := tgetD f.vecs (off / 16) {}
  match off % 16 / 4 with
  | 0 => e.addr % 2 ^ 32
  | 1 => e.addr / 2 ^ 32
  | 2 => e.data
  | _ => b2n e.mask

/-- Dword k of the PBA. -/
def PciFn.pba (f : PciFn) (k : Nat) : Nat :=
  (List.range 32).foldl (fun a b => a + if (tgetD f.vecs (32 * k + b) {}).pend then 2 ^ b else 0) 0

/-! ### Configuration space (R533 to R539) -/

/-- Three kinds of function: PF0, PF1, VF. -/
def fnKind (fn : Nat) : Nat := min fn 2

/-- The read-only bits of a configuration dword (R533, R534, R536, R537, R539; standard layouts PRESUMED,
notes/assumptions/28.md). -/
def State.cfgConst (s : State) (fn off : Nat) : Nat :=
  let k := fnKind fn
  let vf := decide (k = 2)
  let ext (id next : Nat) : Nat := if vf then 0 else id + next * 0x100000
  match off with
  | 0x00 => 0x1F2B + (0x5120 + k) * 65536
  | 0x04 => 0x00100000
  | 0x08 => if k = 1 then 0x08800000 else 0x02000000
  | 0x0C => if vf then 0 else 0x00800000
  | 0x10 => if vf then 0 else 4
  | 0x18 => if vf then 0 else 4
  | 0x2C => s.subsys
  | 0x34 => if vf then 0x50 else 0x40
  | 0x40 => if vf then 0 else if k = 0 then 0x40035001 else 0x00035001
  | 0x44 => if vf then 0 else 8
  | 0x50 => 0x7011 + (vectorsOf fn - 1) * 65536
  | 0x54 => 2
  | 0x58 => if vf then 0x2002 else 0x8002
  | 0x70 => 0x00020010
  | 0x74 => 0x10008022
  | 0x7C => 6 + 16 * 16 + 2 * 1024 + 3 * 32768
  | 0x80 => (s.rd pgPCE PCE.LINK_STS_SPEED + if s.rd pgPCE PCE.LINK_STS_SPEED = 0 then 0 else 2) * 65536 +
      (if s.rd pgPCE PCE.LINK_STS_SPEED = 0 then 0 else if s.rd pgPCE PCE.LINK_STS_WIDTH = 8 then 8 else 16) * 1048576
  | 0x94 => 0x00030013
  | 0x100 => if vf then 0x14800000 else 0x14820001
  | 0x118 => if vf then 0 else 0xA0
  | 0x148 => if vf then 0x0001000E else 0x1501000E
  | 0x14C => if k = 0 then 0x100 else 0
  | 0x150 => if vf then 0 else 0x16010003
  | 0x154 => if vf then 0 else s.rd pgCRWN CRWN.DEV_SERIAL_LO_SERIAL
  | 0x158 => if vf then 0 else s.rd pgCRWN CRWN.DEV_SERIAL_HI_SERIAL
  | 0x160 => ext 0x10019 0x190
  | 0x190 => ext 0x10025 0x1A0
  | 0x1A0 => ext 0x10026 0x1D0
  | 0x1D0 => ext 0x1002A 0x200
  | 0x200 => ext 0x10031 0x220
  | 0x220 => ext 0x10027 0x270
  | 0x270 => ext 0x10032 (if k = 0 then 0x300 else 0)
  | 0x300 => if k = 0 then 0x00010010 else 0
  | 0x30C => if k = 0 ∧ ¬ s.fabric then 1024 + 1024 * 65536 else 0
  | 0x314 => if k = 0 then 2 + 65536 else 0
  | 0x318 => if k = 0 then 0x51220000 else 0
  | 0x31C => if k = 0 then 0x11 else 0
  | 0x324 => if k = 0 then 4 else 0
  | 0x32C => if k = 0 then 4 else 0
  | _ => 0

/-- The bits of a configuration dword that a write stores. -/
def State.cfgMask (s : State) (fn off : Nat) : Nat :=
  let k := fnKind fn
  let pf (m : Nat) : Nat := if k = 2 then 0 else m
  let pf0 (m : Nat) : Nat := if k = 0 then m else 0
  match off with
  | 0x04 => if k = 2 then 0x4 else 0x546
  | 0x10 => if k = 0 then 0xFE000000 else pf 0xFC000000
  | 0x14 => pf 0xFFFFFFFF
  | 0x18 => pf 0xFFFF0000
  | 0x1C => pf 0xFFFFFFFF
  | 0x3C => pf 0xFF
  | 0x44 => if k = 0 then 0x103 else pf 3
  | 0x50 => 0xC0000000
  | 0x78 => pf 0x71FF
  | 0x80 => pf 0xC3
  | 0x98 => pf 0x301F
  | 0x108 => pf 0x005FF030
  | 0x10C => pf 0x005FF030
  | 0x114 => pf 0xF1C1
  | 0x118 => pf 0x140
  | 0x308 => pf0 0x19
  | 0x310 => pf0 0xFFFF
  | 0x320 => pf0 0x11
  | 0x324 => pf0 0xFFFC0000
  | 0x328 => pf0 0xFFFFFFFF
  | 0x32C => pf0 (if bit ((s.fnS 0).dw 0x320) 4 then 0xFFFF0000 else 0xFFFFC000)
  | 0x330 => pf0 0xFFFFFFFF
  | _ => 0

/-- The bits of a configuration dword that a write of 1 clears. -/
def cfgClear (fn off : Nat) : Nat :=
  if fnKind fn = 2 then 0
  else match off with
    | 0x44 => if fn = 0 then 0x8000 else 0
    | 0x78 => 0xF0000
    | 0x104 => 0xFFFFFFFF
    | 0x110 => 0xFFFFFFFF
    | _ => 0

/-- A configuration dword as read. -/
def State.cfgRead (s : State) (fn off : Nat) : Nat := orBits (s.cfgConst fn off) ((s.fnS fn).dw off)

/-- The bits that four byte enables cover. -/
def enableMask (be : Nat) : Nat :=
  (List.range 4).foldl (fun a k => a + if bit be k then 255 * 2 ^ (8 * k) else 0) 0

/-- Function fn answers configuration requests with its space: released, no FLR, and a VF enabled for 1 ms (R535, R537, R561).
None: no such function. -/
def State.cfgReady (s : State) (fn : Nat) : Option Bool :=
  let f := s.fnS fn
  if ¬ s.on pgRST RST.START_STS_EP_RELEASED ∨ f.flr.isSome then some false
  else if fn ≤ 1 then some true
  else if s.numVfs < fn - 1 then none
  else some (decide (s.vfSince + 800000 ≤ s.ticks))

/-! ### Tags (R549 to R551) -/

/-- The tag space of a function: first value and count (R550). -/
def State.tagSpace (s : State) (fn : Nat) : Nat × Nat :=
  let c := (s.ctlFn fn).dw 0x98
  if bit c 13 ∧ s.on pgPCE PCE.LINK_STS_FLIT then (0, 4096) else if bit c 12 then (256, 768) else (0, 256)

/-- The lowest tag of a function that no slot holds. -/
def State.freeTag (s : State) (fn : Nat) : Option Nat :=
  let t := s.tagSpace fn
  ((List.range t.2).find? fun k => !s.tags.any fun (x : TagSlot) => decide (x.fn = fn ∧ x.tag = t.1 + k)).map (t.1 + ·)

/-- Read requests of function fn are issued in order, each with a slot of its own; none when a slot or a tag is lacking. -/
def State.issueReads (s : State) (fn qp first : Nat) : (part : Nat) → List (Nat × Nat) → Option State
  | _, [] => some s
  | part, (a, n) :: rest =>
    match s.freeTag fn with
    | none => none
    | some t =>
      let x : TagSlot := { fn := fn, tag := t, qp := qp, first := first, part := part, len := n, issued := s.ticks }
      (({ s with tags := s.tags ++ [x] }.cnt pgPCE PCE.PCE_CNT 1).emit (.hostRead fn a n)).issueReads fn qp first (part + 1) rest

/-- Slots that the queue engines may take: all but those reserved for PF1 requesters (R549). -/
def State.tagRoom (s : State) : Nat := 4096 - min 2048 (s.rd pgPCE PCE.TAG_CFG_MGMT_RSV) - s.tags.length

/-- The device's timeout of a read in timing clocks, none when it is disabled (R552, R553). -/
def State.readTimeout (s : State) (fn : Nat) : Option Nat :=
  let c := (s.ctlFn fn).dw 0x98
  if bit c 4 then none
  else some (match bits c 0 4 with
    | 1 => ticksUs 80
    | 2 => ticksMs 8
    | 6 => ticksMs 180
    | _ => ticksMs 50)

/-- A slot of the list changed or removed. -/
def State.setTag (s : State) (fn tag : Nat) (x : Option TagSlot) : State :=
  { s with tags := s.tags.filterMap fun (t : TagSlot) => if t.fn = fn ∧ t.tag = tag then x else some t }

/-- The slot of a function and tag. -/
def State.tagOf (s : State) (fn tag : Nat) : Option TagSlot := s.tags.find? fun (t : TagSlot) => decide (t.fn = fn ∧ t.tag = tag)

/-- TAG_QUARANTINE_EXPIRY (R554): after 1 s the slot becomes free. -/
def execTagQuarantineExpiry (fn tag : Nat) (s : State) : Host.Outcome State Fault Refusal :=
  .next (match s.tagOf fn tag with
    | some x => if x.quarantined ∧ x.issued + ticksMs 1000 ≤ s.ticks then s.gate pgPCE fun (t : State) => (t.setTag fn tag none).pceView else s
    | none => s)

end Sys2Proof.Machine
end

