-- ==== Sys2Proof/Machine/Offload.lean ====
section
/-! DEFINITION. Machine/Offload.lean: tunnel encapsulation, IPsec, NVMe/TCP and key wrap (spec 16_offload_services.md, R613 to
R636, R650 to R653). -/

namespace Sys2Proof.Machine

/-! ### Profiles and encapsulation (R615, R617, R650) -/

/-- Word w of offload profile p. -/
def State.oflWord (s : State) (p w : Nat) : Nat := s.rd pgOFL OFL.PROFILE (32 * (p % 256) + w)

/-- KIND of a valid profile (R615). -/
def State.oflKind (s : State) (p : Nat) : Option Nat := if bit (s.oflWord p 0) 4 then some (bits (s.oflWord p 0) 0 4) else none

/-- TPL_LEN and STRIP. -/
def State.oflTplLen (s : State) (p : Nat) : Nat := min 96 (bits (s.oflWord p 0) 8 7)
def State.oflStrip (s : State) (p : Nat) : Nat := bits (s.oflWord p 1) 16 8

/-- The template bytes: byte b in bits [8(b mod 4) + 7 : 8(b mod 4)] of word 8 + b div 4. -/
def State.oflTemplate (s : State) (p : Nat) : List Byte :=
  ((List.range 24).flatMap fun k => toLe 4 (s.oflWord p (8 + k))).take (s.oflTplLen p)

/-- The IPv4 header checksum of 20 bytes at an offset recomputed. -/
def ip4Fix (o : Nat) (l : List Byte) : List Byte :=
  let z := patch l (o + 10) [0, 0]
  patch z (o + 10) (toBe 2 (onesNeg (onesSum (slice z o (4 * (beAt l o 1 % 16))))))

/-- One fix-up (R617): operation, offset, argument, hash H. -/
def fixUp (op o arg h : Nat) (l : List Byte) : List Byte :=
  let rest := l.length - o
  match op with
  | 1 => ip4Fix o (patch l (o + 2) (toBe 2 rest))
  | 2 => patch l (o + 4) (toBe 2 (rest - 40))
  | 3 => patch (patch l (o + 4) (toBe 2 rest)) (o + 6) [0, 0]
  | 4 => patch l o (toBe 2 (0xC000 + h % 0x4000))
  | 5 => patch l o (toBe 3 arg)
  | 6 => patch l o (toBe 4 arg)
  | 7 => patch l o (toBe 4 (bits arg 0 20 * 4096 + beAt l o 4 % 4096))
  | _ => l

/-- The four fix-ups of a profile in order. `inner` is the frame as step 1 left it. -/
def State.fixUps (s : State) (p arg : Nat) (inner l : List Byte) : List Byte :=
  let h := crc32c (inner.take (bits (s.oflWord p 0) 16 6))
  (List.range 4).foldl (fun a k => fixUp (bits (s.oflWord p (2 + k)) 0 4) (bits (s.oflWord p (2 + k)) 8 7) arg h a) l

/-- ENCAP (R617). -/
def State.encap (s : State) (p arg : Nat) (l : List Byte) : List Byte :=
  let inner := l.drop (s.oflStrip p)
  s.fixUps p arg inner (s.oflTemplate p ++ inner)

/-- A checksum inserted (R125): the complement of the one's-complement sum from `start` to the end, at `off`. -/
def csumInsert (start off : Nat) (l : List Byte) : List Byte := patch l off (toBe 2 (onesNeg (onesSum (l.drop start))))

/-! ### IP headers -/

/-- An IP header at an offset: IPv6, header length, protocol or next header. -/
def ipAt (l : List Byte) (o : Nat) : Option (Bool × Nat × Nat) :=
  match l.drop o with
  | [] => none
  | b :: t =>
    let v := b.toNat / 16
    if v = 4 ∧ 20 ≤ t.length + 1 ∧ 5 ≤ b.toNat % 16 then some (false, 4 * (b.toNat % 16), beAt l (o + 9) 1)
    else if v = 6 ∧ 40 ≤ t.length + 1 then some (true, 40, beAt l (o + 6) 1)
    else none

/-- IPv6 extension headers. -/
def isExt (p : Nat) : Bool := p ∈ [0, 43, 44, 51, 60, 135, 139, 140]

/-- An IP header given a protocol and the length of what follows it (R623, R625). -/
def ipSet (l : List Byte) (o : Nat) (v6 : Bool) (hl proto len : Nat) : List Byte :=
  if v6 then patch (patch l (o + 4) (toBe 2 len)) (o + 6) (toBe 1 proto)
  else ip4Fix o (patch (patch l (o + 2) (toBe 2 (hl + len))) (o + 9) (toBe 1 proto))

/-- The pseudo-header sum of a TCP, UDP or ICMPv6 segment. -/
def pseudoSum (l : List Byte) (o : Nat) (v6 : Bool) (proto len : Nat) : Nat :=
  let a := if v6 then slice l (o + 8) 32 else slice l (o + 12) 8
  onesAdd (onesSum a) (onesAdd (proto % 65536) (onesAdd (len / 65536 % 65536) (len % 65536)))

/-! ### IPsec (R621 to R627) -/

/-- Bytes in an IPS queue. -/
def ipsBytes (l : List IpsItem) : Nat := (l.map fun (x : IpsItem) => x.frame.len).foldl (· + ·) 0

/-- The host queue is full (R621). -/
def State.ipsHostFull (s : State) : Bool := decide (2097152 ≤ ipsBytes s.ipsHost)

/-- IPS_STS shows the queues. -/
def State.ipsView (s : State) : State :=
  (s.put pgIPS IPS.IPS_STS_HOST_FULL s.ipsHostFull).put pgIPS IPS.IPS_STS_TRANSIT_FULL (decide (2097152 ≤ ipsBytes s.ipsTransit))

/-- A frame of the host path enters the host queue. -/
def State.ipsHostPut (s : State) (x : IpsItem) : State := { s with ipsHost := s.ipsHost ++ [x] }.ipsView

/-- A frame of SERVICE 3 or 4 enters the transit queue, or is dropped when it has no room. -/
def State.ipsTransitPut (s : State) (x : IpsItem) : State :=
  if ¬ s.enabled pgIPS then s
  else if 2097152 < ipsBytes s.ipsTransit + x.frame.len then (s.cnt pgIPS IPS.IPS_CNT 7).ipsView
  else { s with ipsTransit := s.ipsTransit ++ [x] }.ipsView

/-- The queue that an engine serves next by DWRR (R621): true for the host queue, with the deficits as they then stand. -/
def State.ipsPick (s : State) : (left : Nat) → Option (Bool × State)
  | 0 => none
  | left + 1 =>
    match s.ipsHost, s.ipsTransit with
    | [], [] => none
    | _ :: _, [] => some (true, { s with ipsDef := (0, 0), ipsOnHost := true })
    | [], _ :: _ => some (false, { s with ipsDef := (0, 0), ipsOnHost := false })
    | _, _ =>
      if s.ipsOnHost then
        if 0 < s.ipsDef.1 then some (true, s)
        else { s with ipsOnHost := false
                      ipsDef := (s.ipsDef.1, s.ipsDef.2 + s.rd pgIPS IPS.IPS_CTL_TRANSIT_W * 2048) }.ipsPick left
      else
        if 0 < s.ipsDef.2 then some (false, s)
        else { s with ipsOnHost := true
                      ipsDef := (s.ipsDef.1 + s.rd pgIPS IPS.IPS_CTL_HOST_W * 2048, s.ipsDef.2) }.ipsPick left

/-- The next frame for an engine of one direction, taken from its queue. -/
def State.ipsTake (s : State) (enc : Bool) : Option (IpsItem × State) :=
  match s.ipsPick 64 with
  | none => none
  | some (host, s1) =>
    match if host then s1.ipsHost else s1.ipsTransit with
    | [] => none
    | x :: rest =>
      if x.enc ≠ enc then none
      else
        let n : Int := x.frame.len
        let d := s1.ipsDef
        some (x, ({ s1 with ipsHost := if host then rest else s1.ipsHost
                            ipsTransit := if host then s1.ipsTransit else rest
                            ipsDef := if host then (d.1 - n, d.2) else (d.1, d.2 - n) }).ipsView)

/-- SA fields. -/
def IpsSa.valid (x : IpsSa) : Bool := bit x.cfg 0
def IpsSa.out (x : IpsSa) : Bool := bit x.cfg 1
def IpsSa.tunnel (x : IpsSa) : Bool := bit x.cfg 4
def IpsSa.loopQp (x : IpsSa) : Nat := bits x.cfg 13 13
/-- The sequence space (R622). -/
def IpsSa.space (x : IpsSa) : Nat := if bit x.cfg 3 then 2 ^ 64 else 2 ^ 32
/-- Key, nonce and additional data of a packet with a sequence number. -/
def IpsSa.keyBytes (x : IpsSa) : List Byte := (wordsToBytes x.key).take (if bit x.cfg 2 then 32 else 16)
def IpsSa.nonce (x : IpsSa) (seq : Nat) : List Byte := toBe 4 x.salt ++ toBe 8 seq
def IpsSa.aad (x : IpsSa) (seq : Nat) : List Byte := toBe 4 x.spi ++ if bit x.cfg 3 then toBe 8 seq else toBe 4 seq

/-- The ESP packet around a payload (RFC 4303, RFC 4106): padded to 4 bytes. -/
def IpsSa.seal (x : IpsSa) (seq : Nat) (payload : List Byte) (next : Nat) : List Byte :=
  let n := (4 - (payload.length + 2) % 4) % 4
  let pad := (List.range n).map fun k => byteOf (k + 1)
  toBe 4 x.spi ++ toBe 4 seq ++ toBe 8 seq ++
    Config.gcmSeal x.keyBytes (x.nonce seq) (x.aad seq) (payload ++ pad ++ [byteOf n, byteOf next])

/-- The frame after an outbound pass (R623); none where the IP header is not one the pass accepts. -/
def State.espOut (s : State) (x : IpsSa) (seq : Nat) (f : Frame) (arg : Nat) : Option (List Byte) :=
  match f.l3 with
  | none => none
  | some o =>
    match ipAt f.bytes o with
    | none => none
    | some (v6, hl, proto) =>
      if x.tunnel then
        let inner := f.bytes.drop o
        let p := bits x.cfg 5 8
        some (s.fixUps p arg inner (s.oflTemplate p ++ x.seal seq inner (if v6 then 41 else 4)))
      else if v6 ∧ isExt proto then none
      else
        let e := x.seal seq (f.bytes.drop (o + hl)) proto
        some (ipSet (f.bytes.take (o + hl) ++ e) o v6 hl 50 e.length)

/-- A frame leaves a pass and re-enters dealing (R626, R872). -/
def State.ipsLoop (s : State) (n : Nat) (x : IpsSa) (f : Frame) (l : List Byte) (dec : Bool) : State :=
  let slots := tset (tset [] 46 (toBe 4 (n + b2n dec * 65536))) 47 (toBe 4 (0x7FF + x.loopQp * 65536))
  let g : Frame := { bytes := l, fcsGood := true, port := f.port, ctx := 256 + x.loopQp, time := f.time, timeValid := f.timeValid
                     traced := f.traced, traceId := f.traceId, srcDev := f.srcDev, startKey := bits x.cfg2 0 16
                     slots := slots, modified := true }
  { s with ingress := s.ingress ++ [g] }

/-- A frame dropped for its SA (R625). -/
def State.ipsSaDrop (s : State) : State := s.cnt pgIPS IPS.IPS_CNT 4

/-- An outbound pass (R623, R624). -/
def State.ipsEncrypt (s : State) (it : IpsItem) : State :=
  match tget s.ipsSas it.sa with
  | none => s.ipsSaDrop
  | some x =>
    if ¬ x.valid ∨ ¬ x.out then s.ipsSaDrop
    else if x.space ≤ x.seq then (s.cnt pgIPS IPS.IPS_CNT 5).raise pgIPS 2
    else
      match s.espOut x x.seq it.frame it.frame.oflArg with
      | none => s.ipsSaDrop
      | some l =>
        let near := decide (bits x.cfg2 16 8 * x.space < (x.seq + 1) * 256)
        let s1 := { s with ipsSas := tset s.ipsSas it.sa { x with seq := x.seq + 1, warned := x.warned || near } }
        let s2 := (s1.cnt pgIPS IPS.IPS_CNT 0).bump pgIPS IPS.IPS_CNT 6 6 it.frame.len
        (s2.raiseIf (near && !x.warned) pgIPS 1).ipsLoop it.sa x it.frame l false

/-- IPS_ENCRYPT (R623): no engine runs in fabric mode (R29). -/
def execIpsEncrypt (s : State) : Host.Outcome State Fault Refusal :=
  .next (if s.enabled pgIPS ∧ ¬ s.fabric then
      match s.ipsTake true with
      | some (x, s1) => s1.ipsEncrypt x
      | none => s
    else s)

/-- The full sequence number of a packet (RFC 4303), none where it lies below the first one. -/
def IpsSa.fullSeq (x : IpsSa) (lo : Nat) : Option Nat :=
  if bit x.cfg 3 then
    let tl := x.seq % 2 ^ 32
    let th := x.seq / 2 ^ 32
    if 127 ≤ tl then some (lo + 2 ^ 32 * if tl - 127 ≤ lo then th else th + 1)
    else if tl + 2 ^ 32 - 127 ≤ lo then (if th = 0 then none else some (lo + 2 ^ 32 * (th - 1)))
    else some (lo + 2 ^ 32 * th)
  else some lo

/-- A sequence number passes the 128-packet window (R625). -/
def IpsSa.fresh (x : IpsSa) (q : Nat) : Bool :=
  decide (x.seq < q) || (decide (x.seq < q + 128) && !bit x.win (x.seq - q))

/-- The window with a number marked. -/
def IpsSa.mark (x : IpsSa) (q : Nat) : IpsSa :=
  if x.seq < q then { x with seq := q, win := (x.win * 2 ^ min 128 (q - x.seq) + 1) % 2 ^ 128 }
  else { x with win := setBit x.win (x.seq - q) }

/-- The frame after decryption (R625). -/
def espStrip (x : IpsSa) (l : List Byte) (o : Nat) (v6 : Bool) (hl : Nat) (plain : List Byte) : List Byte :=
  let n := plain.length
  let next := beAt plain (n - 1) 1
  let data := plain.take (n - 2 - beAt plain (n - 2) 1)
  if x.tunnel then data else ipSet (l.take (o + hl) ++ data) o v6 hl next data.length

/-- The bytes of an ESP packet end with its IP packet: what the link pads after it is no part of it (DEDUCED from RFC 4303;
notes/assumptions/30.md). -/
def espBytes (l : List Byte) (o : Nat) (v6 : Bool) : List Byte :=
  let total := if v6 then 40 + beAt l (o + 4) 2 else beAt l (o + 2) 2
  l.take (o + total)

/-- An inbound pass (R625). -/
def State.ipsDecrypt (s : State) (it : IpsItem) : State :=
  match it.frame.l3.bind fun o => (ipAt it.frame.bytes o).map fun h => (o, h) with
  | none => s.ipsSaDrop
  | some (o, v6, hl, _) =>
    let l := espBytes it.frame.bytes o v6
    let e := o + hl
    match tget s.ipsSas it.sa with
    | none => s.ipsSaDrop
    | some x =>
      if ¬ x.valid ∨ x.out ∨ x.spi ≠ beAt l e 4 then s.ipsSaDrop
      else
        match x.fullSeq (beAt l (e + 4) 4) with
        | none => (s.cnt pgIPS IPS.IPS_CNT 3).raise pgIPS 0
        | some q =>
          if ¬ x.fresh q then (s.cnt pgIPS IPS.IPS_CNT 3).raise pgIPS 0
          else
            match Config.gcmOpen x.keyBytes (toBe 4 x.salt ++ slice l (e + 8) 8) (x.aad q) (l.drop (e + 16)) with
            | none => (s.cnt pgIPS IPS.IPS_CNT 2).raise pgIPS 0
            | some plain =>
              let s1 := { s with ipsSas := tset s.ipsSas it.sa (x.mark q) }
              let s2 := (s1.cnt pgIPS IPS.IPS_CNT 1).bump pgIPS IPS.IPS_CNT 6 6 it.frame.len
              s2.ipsLoop it.sa x it.frame (espStrip x l o v6 hl plain) true

/-- IPS_DECRYPT (R625, R29). -/
def execIpsDecrypt (s : State) : Host.Outcome State Fault Refusal :=
  .next (if s.enabled pgIPS ∧ ¬ s.fabric then
      match s.ipsTake false with
      | some (x, s1) => s1.ipsDecrypt x
      | none => s
    else s)

/-- A command of the IPS page ends in an error (R652, R653). -/
def State.ipsError (s : State) (r : ResSet) (tag e : Nat) : State := (s.result pgIPS r tag ERROR [e]).raise pgIPS 4

/-- The SA number named by SA_SEL and the staged SA_CFG and SA_CFG2. -/
def State.ipsSel (s : State) : Nat := s.rd pgIPS IPS.SA_SEL_SA
def State.saCfgStage (s : State) : Nat × Nat := (s.pageWord pgIPS 0x144, s.pageWord pgIPS 0x148)

/-- SA_CMD WRITE (R627): a valid SA ends it IN_USE; otherwise the staged SA takes effect. -/
def State.ipsSaWrite (s : State) (tag : Nat) : State :=
  let q := s.rd pgIPS IPS.SA_SEQ_LO + s.rd pgIPS IPS.SA_SEQ_HI * 2 ^ 32
  let x : IpsSa := { key := (List.range 8).map fun k => s.rd pgIPS IPS.SA_KEY_KEY k
                     salt := s.rd pgIPS IPS.SA_SALT_SALT, spi := s.rd pgIPS IPS.SA_SPI_SPI, seq := q
                     cfg := s.saCfgStage.1, cfg2 := s.saCfgStage.2, win := if q = 0 then 0 else 1 }
  if (tget s.ipsSas s.ipsSel).any (·.valid) then s.ipsError IPS.SA_RES tag 1
  else { s with ipsSas := tset s.ipsSas s.ipsSel x }.result pgIPS IPS.SA_RES tag DONE

/-- IPS_SA_WRITE (R627). -/
def execIpsSaWrite (tag : Nat) (s : State) : Host.Outcome State Fault Refusal := .next (s.lineGate pgIPS (·.ipsSaWrite tag))

/-- SA_CMD READ (R652). -/
def State.ipsSaRead (s : State) (tag : Nat) : State :=
  s.result pgIPS IPS.SA_RES tag DONE (match tget s.ipsSas s.ipsSel with
    | some x => [x.spi, x.seq % 2 ^ 32, x.seq / 2 ^ 32, x.cfg, x.cfg2]
    | none => [0, 0, 0, 0, 0])

/-- IPS_SA_READ (R652). -/
def execIpsSaRead (tag : Nat) (s : State) : Host.Outcome State Fault Refusal := .next (s.lineGate pgIPS (·.ipsSaRead tag))

/-- SA_CMD INVALIDATE (R627). -/
def State.ipsSaInvalidate (s : State) (tag : Nat) : State :=
  let s1 := match tget s.ipsSas s.ipsSel with
    | some x => { s with ipsSas := tset s.ipsSas s.ipsSel { x with cfg := clrBit x.cfg 0 } }
    | none => s
  s1.result pgIPS IPS.SA_RES tag DONE

/-- IPS_SA_INVALIDATE (R627). -/
def execIpsSaInvalidate (tag : Nat) (s : State) : Host.Outcome State Fault Refusal :=
  .next (s.lineGate pgIPS (·.ipsSaInvalidate tag))

/-- IPS_SA_ABORT (R652, R64): an SA command completes in the step that accepts it, so the abort comes late. -/
def execIpsSaAbort (s : State) : Host.Outcome State Fault Refusal := .next (s.lineGate pgIPS (·.resLate pgIPS IPS.SA_RES))

/-! ### Key wrap (R633 to R636) -/

/-- Words k to k + n - 1 of KW_IN as bytes. -/
def State.kwIn (s : State) (k n : Nat) : List Byte :=
  wordsToBytes ((List.range n).map fun j => s.rd pgIPS IPS.KW_IN_DATA (k + j))

/-- The number of words of a key. -/
def keyWords (len32 : Bool) : Nat := if len32 then 8 else 4

/-- KW_CMD WRAP (R635). -/
def State.kwWrap (s : State) (kek tag : Nat) (len32 : Bool) : State :=
  match s.kek kek with
  | none => s.ipsError IPS.KW_RES tag 4
  | some k => s.result pgIPS IPS.KW_RES tag DONE (bytesToBeWords (Config.keyWrap k (s.kwIn 10 (keyWords len32))))

/-- KW_WRAP (R635). -/
def execKwWrap (kek tag : Nat) (len32 : Bool) (s : State) : Host.Outcome State Fault Refusal :=
  .next (s.lineGate pgIPS (·.kwWrap (kek % 16) tag len32))

/-- KW_CMD UNWRAP (R635): the key goes to its target, or to the result words where the slot has EXPORT = 1. -/
def State.kwUnwrap (s : State) (kek target msc tag : Nat) (len32 : Bool) : State :=
  match s.kek kek with
  | none => s.ipsError IPS.KW_RES tag 4
  | some k =>
    match Config.keyUnwrap k (s.kwIn 0 (keyWords len32 + 2)) with
    | none => s.ipsError IPS.KW_RES tag 2
    | some key =>
      let ws := bytesToBeWords key
      let put (p : Nat) (f : Fld) (ws : List Nat) : State :=
        (List.range 8).foldl (fun (t : State) j => if j < ws.length then t.wr p f (ws.getD j 0) j else t) s
      if target = 1 then (put pgIPS IPS.SA_KEY_KEY ws).result pgIPS IPS.KW_RES tag DONE
      else if target = 2 then (put (pgMSC (msc % 16)) MSC.SA_KEY_KEY ws.reverse).result pgIPS IPS.KW_RES tag DONE
      else if target = 0 ∧ tgetD s.kekExport kek 0 = 1 then s.result pgIPS IPS.KW_RES tag DONE ws
      else s.ipsError IPS.KW_RES tag 3

/-- KW_UNWRAP (R635). -/
def execKwUnwrap (kek target msc tag : Nat) (len32 : Bool) (s : State) : Host.Outcome State Fault Refusal :=
  .next (s.lineGate pgIPS (·.kwUnwrap (kek % 16) target msc tag len32))

/-- KW_CMD CHECK (R635): word 1 holds MATCH and nothing else. -/
def State.kwCheck (s : State) (kek tag : Nat) (len32 : Bool) : State :=
  match s.kek kek with
  | none => s.ipsError IPS.KW_RES tag 4
  | some k =>
    let same := decide (Config.keyUnwrap k (s.kwIn 0 (keyWords len32 + 2)) = some (s.kwIn 10 (keyWords len32)))
    s.result pgIPS IPS.KW_RES tag DONE [b2n same]

/-- KW_CHECK (R635). -/
def execKwCheck (kek tag : Nat) (len32 : Bool) (s : State) : Host.Outcome State Fault Refusal :=
  .next (s.lineGate pgIPS (·.kwCheck (kek % 16) tag len32))

/-- KW_CMD LOAD_KEK (R634). -/
def State.kwLoadKek (s : State) (kek tag : Nat) : State :=
  if kek = 0 then s.ipsError IPS.KW_RES tag 3
  else { s with keks := tset s.keks kek ((List.range 8).map fun k => s.rd pgIPS IPS.KEK_DATA_KEY k) }.result pgIPS IPS.KW_RES
    tag DONE

/-- KW_LOAD_KEK (R634). -/
def execKwLoadKek (kek tag : Nat) (s : State) : Host.Outcome State Fault Refusal :=
  .next (s.lineGate pgIPS (·.kwLoadKek (kek % 16) tag))

/-- KW_ABORT (R635, R64): a key-wrap command completes in the step that accepts it, so the abort comes late. -/
def execKwAbort (s : State) : Host.Outcome State Fault Refusal := .next (s.lineGate pgIPS (·.resLate pgIPS IPS.KW_RES))

/-- A write of KEK_CFG (R635, R652): EXPORT of the selected slot; slot 0 keeps 0. -/
def State.kekCfgWrite (s : State) (v : Nat) : State :=
  let k := s.rd pgIPS IPS.KEK_SEL_SLOT
  if k = 0 then s else { s with kekExport := tset s.kekExport k (bits v 1 1) }

/-! ### NVMe/TCP (R628 to R632) -/

/-- A TCP segment of a frame at an L3 start (R628): payload start, payload length, sequence number. -/
def tcpOf (l : List Byte) (o : Nat) : Option (Nat × Nat × Nat) :=
  match ipAt l o with
  | none => none
  | some (v6, hl, proto) =>
    if proto ≠ 6 ∨ (¬ v6 ∧ hl ≠ 20) then none
    else
      let t := o + hl
      let total := if v6 then 40 + beAt l (o + 4) 2 else beAt l (o + 2) 2
      let start := t + 4 * (beAt l (t + 12) 1 / 16)
      if o + total < start ∨ l.length < o + total then none else some (start, o + total - start, beAt l (t + 4) 4)

/-- A CRC-32C register after one byte. -/
def crc32cByte (c : Nat) (b : Byte) : Nat := (List.range 8).foldl (fun a _ => crcReflBit 0x82F63B78 a) (Nat.xor c b.toNat)

/-- Fields of a PDU header: HDGSTF, DDGSTF, HLEN, PDO, PLEN. -/
def NvWalk.hdgst (w : NvWalk) : Bool := bit (beAt w.hdr 1 1) 0
def NvWalk.ddgst (w : NvWalk) : Bool := bit (beAt w.hdr 1 1) 1
def NvWalk.hlen (w : NvWalk) : Nat := max 8 (beAt w.hdr 2 1)
def NvWalk.pdo (w : NvWalk) : Nat := beAt w.hdr 3 1
def NvWalk.plen (w : NvWalk) : Nat := leNat (slice w.hdr 4 4)

/-- The position lies in the header, its digest, the data, or the data digest. -/
def NvWalk.inHdr (w : NvWalk) : Bool := decide (w.pos < 8) || decide (w.pos < w.hlen)
def NvWalk.inHdgst (w : NvWalk) : Bool := !w.inHdr && w.hdgst && decide (w.pos < w.hlen + 4)
def NvWalk.dataEnd (w : NvWalk) : Nat := w.plen - if w.ddgst then 4 else 0
def NvWalk.inData (w : NvWalk) : Bool :=
  !w.inHdr && !w.inHdgst && decide (0 < w.pdo) && decide (w.pdo ≤ w.pos) && decide (w.pos < w.dataEnd)
def NvWalk.inDdgst (w : NvWalk) : Bool :=
  !w.inHdr && !w.inHdgst && w.ddgst && decide (w.dataEnd ≤ w.pos) && decide (w.pos < w.plen)

/-- Byte k of a digest as it stands on the wire. -/
def digestByte (reg k : Nat) : Byte := byteOf (Nat.xor reg 0xFFFFFFFF / 2 ^ (8 * k))

/-- The position moves past a byte; a PDU ends at PLEN. -/
def NvWalk.next (w : NvWalk) : NvWalk :=
  if 8 ≤ w.pos + 1 ∧ w.hlen ≤ w.pos + 1 ∧ w.plen ≤ w.pos + 1 then {} else { w with pos := w.pos + 1 }

/-- One byte walked in a PDU: the digests of the header and data taken in, a digest written or compared (R629, R630). -/
def NvWalk.byte (w : NvWalk) (write hen den : Bool) (b : Byte) : NvWalk × Byte :=
  if w.inHdr then ({ w with hdr := w.hdr ++ [b], hcrc := crc32cByte w.hcrc b }, b)
  else if w.inHdgst then
    let d := digestByte w.hcrc (w.pos - w.hlen)
    if hen then ({ w with hbad := w.hbad || decide (d ≠ b) }, if write then d else b) else (w, b)
  else if w.inData then ({ w with dcrc := crc32cByte w.dcrc b }, b)
  else if w.inDdgst then
    let d := digestByte w.dcrc (w.pos - w.dataEnd)
    if den then ({ w with dbad := w.dbad || decide (d ≠ b) }, if write then d else b) else (w, b)
  else (w, b)

/-- The transmit walk over a payload: the payload with its digests, and where the walk stands. -/
def nvTxWalk (hen den : Bool) : List Byte → NvWalk → List Byte × NvWalk
  | [], w => ([], w)
  | b :: t, w =>
    if 0 < w.skip then
      let r := nvTxWalk hen den t { w with skip := w.skip - 1 }
      (b :: r.1, r.2)
    else
      let x := w.byte true hen den b
      let r := nvTxWalk hen den t x.1.next
      (x.2 :: r.1, r.2)

/-- Bits of NV word 0. -/
def NvConn.flag (c : NvConn) (b : Nat) : Bool := bit (c.words.getD 0 0) b

/-- The distance from the next byte to the next PDU, as the PDU_OFF words show it. -/
def NvWalk.toNext (w : NvWalk) : Nat := if 0 < w.skip then w.skip else if w.pos < 8 then 0 else w.plen - w.pos

/-- A connection after a frame of a direction: its sequence and offset words (k = 1 transmit, 3 receive). -/
def NvConn.advance (c : NvConn) (k n : Nat) (w : NvWalk) : NvConn :=
  let ws := lset (lset c.words k ((c.words.getD k 0 + n) % 2 ^ 32)) (k + 1) w.toNext
  if k = 1 then { c with words := ws, tx := w } else { c with words := ws, rx := w }

/-- A connection out of sync in a direction (bit 3 transmit, 4 receive). -/
def NvConn.unsync (c : NvConn) (b : Nat) : NvConn := { c with words := lset c.words 0 (clrBit (c.words.getD 0 0) b) }

/-- A direction of a connection falls out of sync: OFL_CNT5 and cause bit 1 where it was in sync. -/
def State.nvUnsync (s : State) (n b : Nat) (c : NvConn) : State :=
  if c.flag b then ({ s with nvs := tset s.nvs n (c.unsync b) }.cnt pgOFL OFL.OFL_CNT 5).raise pgOFL 1 else s

/-- NVME_TX (R629): the frame's bytes after it. -/
def State.nvTx (s : State) (p arg : Nat) (l : List Byte) : State × List Byte :=
  let n := arg % 4096
  match tget s.nvs n with
  | none => (s, l)
  | some c =>
    if ¬ c.flag 0 then (s, l)
    else
      match tcpOf l (bits (s.oflWord p 1) 0 9) with
      | none => (s.nvUnsync n 3 c, l)
      | some (st, len, seq) =>
        if c.flag 3 ∧ seq = c.words.getD 1 0 then
          let r := nvTxWalk (c.flag 1) (c.flag 2) (slice l st len) c.tx
          ({ s with nvs := tset s.nvs n (c.advance 1 len r.2) }, patch l st r.1)
        else (s.nvUnsync n 3 c, l)

/-- What the receive walk of a frame yields: the bytes that stay, the writes to placed data (address and byte, newest first),
digest errors, missing or failed placement entries, PDUs checked, the placement entries not yet used, and the CIDs whose entries were
read. -/
structure NvRx where
  kept : List Byte := []
  placed : List (Nat × Byte) := []
  hbad : Bool := false
  dbad : Bool := false
  miss : Bool := false
  hostErr : Bool := false
  pdus : Nat := 0
  digests : Nat := 0
  misses : Nat := 0
  entries : List (Option (List Nat)) := []
  reads : List Nat := []
  deriving DecidableEq, Repr

/-- The placement entry of a C2HData PDU whose header is complete (R630): the host's answers are taken in order. -/
def nvEntry (w : NvWalk) (y : NvRx) : NvWalk × NvRx :=
  let cid := leNat (slice w.hdr 8 2)
  let x := { y with reads := y.reads ++ [cid] }
  let dataO := leNat (slice w.hdr 12 4)
  match x.entries with
  | some e :: rest =>
    if bit (e.getD 3 0) 31 ∧ bits (e.getD 3 0) 0 16 = cid then
      ({ w with place := some (e.getD 0 0 + e.getD 1 0 * 2 ^ 32 + dataO, e.getD 2 0 - dataO) }, { x with entries := rest })
    else (w, { x with entries := rest, miss := true, misses := x.misses + 1 })
  | none :: rest => (w, { x with entries := rest, hostErr := true })
  | [] => (w, { x with hostErr := true })

/-- The position after which the placement entry is read: the end of the header and of its digest. -/
def NvWalk.entryAt (w : NvWalk) : Bool :=
  decide (w.pos + 1 = w.hlen + if w.hdgst then 4 else 0) && decide (beAt w.hdr 0 1 = 7) && decide (12 ≤ w.pos)

/-- The receive walk over a payload (R630). -/
def nvRxWalk (hen den : Bool) : List Byte → NvWalk → NvRx → NvWalk × NvRx
  | [], w, x => (w, x)
  | b :: t, w, x =>
    if 0 < w.skip then nvRxWalk hen den t { w with skip := w.skip - 1 } { x with kept := x.kept ++ [b] }
    else
      let y := w.byte false hen den b
      let x1 := match w.inData, w.place with
        | true, some (a, n) =>
          if w.pos - w.pdo < n then { x with placed := (a + (w.pos - w.pdo), b) :: x.placed } else { x with kept := x.kept ++ [b] }
        | _, _ => { x with kept := x.kept ++ [b] }
      let e := if y.1.entryAt ∧ ¬ y.1.hbad then nvEntry y.1 x1 else (y.1, x1)
      let ends := decide (8 ≤ e.1.pos + 1) && decide (e.1.hlen ≤ e.1.pos + 1) && decide (e.1.plen ≤ e.1.pos + 1)
      let x2 := { e.2 with hbad := e.2.hbad || (e.1.hbad && !w.hbad), dbad := e.2.dbad || (e.1.dbad && !w.dbad)
                           pdus := e.2.pdus + b2n ends, digests := e.2.digests + b2n (ends && (e.1.hbad || e.1.dbad)) }
      nvRxWalk hen den t e.1.next x2

/-- Writes of single bytes joined into runs: address and bytes, oldest first. -/
def joinRuns : List (Nat × Byte) → List (Nat × List Byte) → List (Nat × List Byte)
  | [], acc => acc
  | (a, b) :: t, (c, l) :: acc => if a + 1 = c then joinRuns t ((a, b :: l) :: acc) else joinRuns t ((a, [b]) :: (c, l) :: acc)
  | (a, b) :: t, [] => joinRuns t [(a, [b])]

/-- The owning function reads the placement entries of some CIDs (R630): 16 bytes at DDP_BASE + 16 × (CID mod 2^DDP_LOG2). -/
def State.nvFetch (s : State) (fn : Nat) (c : NvConn) (cids : List Nat) : State :=
  let base := c.words.getD 5 0 + c.words.getD 6 0 * 2 ^ 32
  cids.foldl (fun (t : State) cid => t.fetch fn (base + 16 * (cid % 2 ^ bits (c.words.getD 0 0) 5 5)) 16) s

/-- What NVME_RX does with a frame for function fn (R630, R631): the bytes for the RX buffers, the writes of placed data, and OFL_RES. -/
def State.nvRx (s : State) (fn p arg l4 : Nat) (l : List Byte) (entries : List (Option (List Nat))) :
    State × List Byte × List (Nat × List Byte) × Nat :=
  let n := arg % 4096
  match tget s.nvs n with
  | none => (s, l, [], 2 ^ 18)
  | some c =>
    if l4 ≠ 1 ∨ ¬ c.flag 0 then (s, l, [], b2n (!c.flag 4) * 2 ^ 18)
    else
      match tcpOf l (bits (s.oflWord p 1) 0 9) with
      | none => (s.nvUnsync n 4 c, l, [], b2n (!c.flag 4) * 2 ^ 18)
      | some (st, len, seq) =>
        if c.flag 4 ∧ seq = c.words.getD 3 0 then
          let r := nvRxWalk (c.flag 1) (c.flag 2) (slice l st len) c.rx { entries := entries }
          let x := r.2
          let s1 := { s with nvs := tset s.nvs n (c.advance 3 len r.1) }.nvFetch fn c x.reads
          let s2 := ((s1.bump pgOFL OFL.OFL_CNT 2 2 x.pdus).bump pgOFL OFL.OFL_CNT 3 3 x.digests).bump pgOFL OFL.OFL_CNT 4 4
            x.placed.length
          let s3 := (s2.bump pgOFL OFL.OFL_CNT 6 6 x.misses).raiseIf x.hostErr pgOFL 2
          let res := x.placed.length % 65536 + b2n x.hbad * 2 ^ 16 + b2n x.dbad * 2 ^ 17 + b2n x.miss * 2 ^ 19 +
            b2n x.hostErr * 2 ^ 20
          (s3, l.take st ++ x.kept ++ l.drop (st + len), joinRuns x.placed [], res)
        else (s.nvUnsync n 4 c, l, [], b2n (!c.flag 4) * 2 ^ 18)

/-- The staged NV word k. -/
def State.nvStage (s : State) (k : Nat) : Nat := s.rd pgOFL OFL.NV_W_WORD k

/-- NV_CMD WRITE (R650). -/
def State.nvWrite (s : State) (tag : Nat) : State :=
  let d := bits (s.nvStage 0) 5 5
  if d < 6 ∨ 16 < d then (s.result pgOFL OFL.NV_RES tag ERROR).raise pgOFL 4
  else
    let ws := (List.range 7).map fun k => andBits (s.nvStage k) (if k = 0 then 0x3FF else if k = 5 then 0xFFFFFFF0 else 0xFFFFFFFF)
    let c : NvConn := { words := ws, tx := { skip := s.nvStage 2 }, rx := { skip := s.nvStage 4 } }
    { s with nvs := tset s.nvs (s.rd pgOFL OFL.NV_SEL_CONN) c }.result pgOFL OFL.NV_RES tag DONE

/-- NV_WRITE (R650). -/
def execNvWrite (tag : Nat) (s : State) : Host.Outcome State Fault Refusal := .next (s.lineGate pgOFL (·.nvWrite tag))

/-- NV_READ (R650): READ returns words 0 to 6. -/
def execNvRead (tag : Nat) (s : State) : Host.Outcome State Fault Refusal :=
  .next (s.lineGate pgOFL fun (t : State) => t.result pgOFL OFL.NV_RES tag DONE
    (match tget t.nvs (t.rd pgOFL OFL.NV_SEL_CONN) with
      | some c => c.words
      | none => [0, 0, 0, 0, 0, 0, 0]))

/-- RESYNC_RX and RESYNC_TX (R632): sequence number and PDU offset of one direction, and its SYNC bit. A connection that no WRITE
has stored holds zeros. -/
def State.nvResync (s : State) (tx : Bool) (tag : Nat) : State :=
  let n := s.rd pgOFL OFL.NV_SEL_CONN
  let c := tgetD s.nvs n { words := [0, 0, 0, 0, 0, 0, 0] }
  let k := if tx then 1 else 3
  let ws := lset (lset (lset c.words k (s.nvStage k)) (k + 1) (s.nvStage (k + 1))) 0 (setBit (c.words.getD 0 0) (if tx then 3 else 4))
  let w : NvWalk := { skip := s.nvStage (k + 1) }
  let c1 : NvConn := if tx then { c with words := ws, tx := w } else { c with words := ws, rx := w }
  { s with nvs := tset s.nvs n c1 }.result pgOFL OFL.NV_RES tag DONE

/-- NV_RESYNC_RX (R632). -/
def execNvResyncRx (tag : Nat) (s : State) : Host.Outcome State Fault Refusal := .next (s.lineGate pgOFL (·.nvResync false tag))

/-- NV_RESYNC_TX (R632). -/
def execNvResyncTx (tag : Nat) (s : State) : Host.Outcome State Fault Refusal := .next (s.lineGate pgOFL (·.nvResync true tag))

end Sys2Proof.Machine
end

