-- ==== Sys2Proof/Machine/Service.lean ====
section
/-! DEFINITION. Machine/Service.lean: the services of next-hop TYPE 5: BFD, IPFIX, the ARP and ND responder, and the way to the
service processor (spec 16_offload_services.md, R612, R637 to R649, R654, R655; 15_virtual_functions.md R603, R605). -/

namespace Sys2Proof.Machine

/-! ### Frames for the service processor (R612, R644) -/

/-- A frame passes to the active service processor; during a switchover gap it is dropped. Both count in SVC_CNT2. -/
def State.toSp (s : State) (f : Frame) : State :=
  let s1 := s.cnt pgSVC SVC.SVC_CNT 2
  if s.on pgSPA SPA.IL_STS_SWITCHING ∨ s.on pgSPA SPA.IL_STS_NO_ACTIVE then s1 else s1.emit (.toProcessor f.bytes)

/-! ### Frames that the services send -/

/-- The rewrite field of a frame that names no rewrite row. -/
def noRewrite : Nat := 2 ^ 18

/-- A frame that a service hands to the QD for a queue it names, with its remote port for a VOQ. -/
def State.sendTo (s : State) (q dport rewrite cls : Nat) (l : List Byte) : State :=
  let f : Frame := { bytes := l, fcsGood := true, nhType := 8, queue := q, outPort := dport, dest := dport * 4096
                     rewrite := rewrite, cls := cls, modified := true, fence := s.fences }
  { s with toQd := s.toQd ++ [f] }

/-- A UDP checksum over a segment that begins at an offset and has a zero checksum (R639): 0 is sent as all ones. -/
def udpFix (l : List Byte) (o hl : Nat) (v6 : Bool) : List Byte :=
  let u := l.drop (o + hl)
  let c := onesNeg (onesAdd (pseudoSum l o v6 17 u.length) (onesSum u))
  patch l (o + hl + 6) (toBe 2 (if c = 0 then 0xFFFF else c))

/-! ### Wake patterns (R603) -/

/-- CRC-16 over the masked first 128 bytes of a frame. -/
def State.wakeCrc (s : State) (k : Nat) (l : List Byte) : Nat :=
  let mask := (List.range 32).flatMap fun j => toLe 4 (s.rd pgWAK WAK.MASK_BYTES (32 * k + j))
  let m := (List.range 128).map fun i => byteOf (Nat.land (beAt l i 1) (beAt mask i 1))
  crcMsb 16 0x1021 0xFFFF m

/-- The lowest pattern among 32 that matches a frame. -/
def State.wakeHit (s : State) (base : Nat) (l : List Byte) : Option Nat :=
  ((List.range 32).map (base + ·)).find? fun k =>
    s.on pgWAK WAK.PAT_CFG_VALID k && decide (s.rd pgWAK WAK.PAT_CFG_MIN_LEN k ≤ l.length) &&
      decide (s.wakeCrc k l = s.rd pgWAK WAK.PAT_CFG_CRC k)

/-- A frame resolved to the service processor meets the patterns of PF1 while PF1 is in D3hot (R605). -/
def State.wakePf1 (s : State) (f : Frame) : State :=
  if (s.fnS 1).d3 ∧ s.enabled pgWAK ∧ s.on pgWAK WAK.WAK_CTL_PF1_EN then
    let s1 := s.cnt pgWAK WAK.WAK_CNT 0
    match s.wakeHit 32 f.bytes with
    | some k => ((((s1.cnt pgWAK WAK.WAK_CNT 2).wr pgWAK WAK.WAK_STS_LAST k).wr pgWAK WAK.WAK_STS_HIT1 1)).raise pgWAK 1
    | none => s1
  else s

/-! ### Dispatch (R612) -/

/-- The SA of an ESP frame, from its SPI (R625); none where the frame carries no ESP header. -/
def espSa (f : Frame) : Option Nat :=
  match f.l3 with
  | none => none
  | some o =>
    match ipAt f.bytes o with
    | some (_, hl, 50) => if o + hl + 16 ≤ f.bytes.length then some (beAt f.bytes (o + hl + 2) 2) else none
    | _ => none

/-- A service drop (R612, R638, R649). -/
def State.svcDrop (s : State) : State := s.cnt pgSVC SVC.SVC_CNT 11

/-- A TYPE 5 frame goes to its engine or to the service processor, or is dropped (R612). In fabric mode, or with the SVC page not
enabled, no engine consumes it. -/
def State.serviceDispatch (s : State) (f : Frame) : State :=
  let s1 := s.wakePf1 f
  let sa := bits f.dest 16 16
  match bits f.dest 0 3 with
  | 0 => s1.toSp f
  | 1 => if s1.enabled pgSVC ∧ s1.on pgSVC SVC.SVC_CTL_BFD_EN then { s1 with bfdIn := s1.bfdIn ++ [f] } else s1.toSp f
  | 2 =>
    if s1.enabled pgSVC ∧ s1.on pgSVC SVC.SVC_CTL_RSP_EN then
      if 512 ≤ s1.rspIn.length then s1.svcDrop else { s1 with rspIn := s1.rspIn ++ [f] }
    else s1.toSp f
  | 3 => s1.ipsTransitPut { frame := { f with oflArg := 0 }, sa := sa, enc := true }
  | 4 =>
    match espSa f with
    | some n => s1.ipsTransitPut { frame := f, sa := n, enc := false }
    | none => s1.toSp f
  | _ => s1.svcDrop

/-! ### BFD (R637 to R644, R654) -/

/-- A session as stored; a session that no write has stored is not VALID. -/
def State.sessOf (s : State) (n : Nat) : List Nat := tgetD s.sess n (List.replicate 20 0)

/-- A word of a session, and fields of word 0: STATE, VALID, MULTIHOP, IPV6. -/
def sw (x : List Nat) (k : Nat) : Nat := x.getD k 0
def sessState (x : List Nat) : Nat := bits (sw x 0) 0 2
def sessValid (x : List Nat) : Bool := bit (sw x 0) 2

/-- The views of the SVC page: sessions Up, the event FIFO, flows cached. -/
def State.svcView (s : State) : State :=
  let up := (s.sess.filter fun (e : Nat × List Nat) => sessValid e.2 && decide (sessState e.2 = 3)).length
  let s1 := ((s.wr pgSVC SVC.BFD_UP_COUNT up).wr pgSVC SVC.EVT_LEVEL_COUNT s.bfdEvents.length).wr pgSVC SVC.FLOW_CNT_COUNT
    s.flows.length
  match s.bfdEvents with
  | [] => s1.wrAll pgSVC 0 [(SVC.EVT_HEAD_SESSION, 0), (SVC.EVT_HEAD_OLD, 0), (SVC.EVT_HEAD_NEW, 0), (SVC.EVT_HEAD_DIAG, 0),
      (SVC.EVT_HEAD_VALID, 0), (SVC.EVT_NS_NS, 0), (SVC.EVT_SEC_SEC, 0)]
  | e :: _ => s1.wrAll pgSVC 0 [(SVC.EVT_HEAD_SESSION, e.session), (SVC.EVT_HEAD_OLD, e.old), (SVC.EVT_HEAD_NEW, e.new),
      (SVC.EVT_HEAD_DIAG, e.diag), (SVC.EVT_HEAD_VALID, 1), (SVC.EVT_NS_NS, e.time.ns), (SVC.EVT_SEC_SEC, e.time.sec % 2 ^ 32)]

/-- The engine sets a session Down with a diagnostic and raises the event (R640 to R642). -/
def State.bfdDown (s : State) (n diag : Nat) : State :=
  let x := s.sessOf n
  let w0 := sw x 0 - sessState x + 1 - bits (sw x 0) 16 5 * 65536 + diag * 65536
  let s1 := { s with sess := tset s.sess n (lset x 0 w0) }
  let e : BfdEvent := { session := n, old := sessState x, new := 1, diag := diag, time := s.nt }
  (if s1.bfdEvents.length < 256 then { s1 with bfdEvents := s1.bfdEvents ++ [e] }.raise pgSVC 0
    else (s1.cnt pgSVC SVC.SVC_CNT 4).raise pgSVC 1).svcView

/-- A received control packet (R637): session address, IPv6, TTL, and the BFD packet. None where the frame is not a BFD packet. -/
def bfdOf (f : Frame) : Option (Nat × List Byte) :=
  match f.l3 with
  | none => none
  | some o =>
    match ipAt f.bytes o with
    | none => none
    | some (v6, hl, proto) =>
      let p := f.bytes.drop (o + hl + 8)
      let dport := beAt f.bytes (o + hl + 2) 2
      if proto = 17 ∧ (dport = 3784 ∨ dport = 4784) ∧ 24 ≤ p.length ∧ beAt p 0 1 / 32 = 1 then
        some (beAt f.bytes (o + if v6 then 7 else 8) 1, p)
      else none

/-- BFD_RX_PACKET (R637, R638, R640): the next control packet that waits. -/
def State.bfdRx (s : State) (f : Frame) : State :=
  match bfdOf f with
  | none => s.toSp f
  | some (ttl, p) =>
    let disc := beAt p 8 4
    let n := disc % 65536
    let x := s.sessOf n
    let flags := beAt p 1 1
    if disc = 0 ∨ disc / 65536 ≠ s.rd pgSVC SVC.BFD_DISC_HI_DISC ∨ ¬ sessValid x ∨ bit flags 2 ∨ bit flags 1 ∨ bit flags 0 then
      s.toSp f
    else if ¬ bit (sw x 0) 3 ∧ ttl ≠ 255 then s.svcDrop
    else
      let t := { s with bfdHeard := tset s.bfdHeard n s.ticks }
      let st := flags / 64
      let same := decide (beAt p 4 4 = sw x 1 ∧ beAt p 12 4 = sw x 4 ∧ beAt p 16 4 = sw x 5 ∧ beAt p 2 1 = bits (sw x 6) 0 8)
      if sessState x = 3 ∧ st = 3 ∧ ¬ bit flags 5 ∧ ¬ bit flags 4 ∧ same then t.cnt pgSVC SVC.SVC_CNT 1
      else if sessState x = 3 ∧ st ≤ 1 then t.bfdDown n 3
      else t.toSp f

/-- BFD_RX_PACKET (R640). -/
def execBfdRxPacket (s : State) : Host.Outcome State Fault Refusal :=
  .next (match s.bfdIn with
    | [] => s
    | f :: rest => { s with bfdIn := rest }.gate pgSVC (·.bfdRx f))

/-- BFD runs: the page is enabled with BFD_EN = 1, in line mode (R612, R654). -/
def State.bfdRuns (s : State) : Bool := !s.fabric && s.enabled pgSVC && s.on pgSVC SVC.SVC_CTL_BFD_EN

/-- The detection time of session n has passed since its last packet, or since it was written (R641). -/
def State.bfdLate (s : State) (n : Nat) : Bool :=
  let x := s.sessOf n
  decide (tgetD s.bfdHeard n 0 + ticksUs (bits (sw x 6) 0 8 * max (sw x 3) (sw x 4)) ≤ s.ticks)

/-- BFD_DETECT_TIMEOUT (R641): no packet has come for the detection time of a session in Init or Up. -/
def execBfdDetectTimeout (session : Nat) (s : State) : Host.Outcome State Fault Refusal :=
  .next (
    let n := session % 65536
    let x := s.sessOf n
    if s.bfdRuns ∧ sessValid x ∧ 2 ≤ sessState x ∧ s.bfdLate n then
      (s.cnt pgSVC SVC.SVC_CNT 3).bfdDown n 1
    else s)

/-- The bytes of a packet template: bytes, L3_OFF, IPV6. -/
def State.svcTplOf (s : State) (t : Nat) : List Byte × Nat × Bool :=
  let w := tgetD s.svcTpl t (List.replicate 17 0)
  ((wordsToBytes (w.take 16)).take (bits (sw w 16) 0 7), bits (sw w 16) 8 7, bit (sw w 16) 15)

/-- The BFD control packet of a session (RFC 5880): neither Poll nor Final; `c` is the control-plane-independent bit. -/
def State.bfdPayload (s : State) (n : Nat) (x : List Nat) (c : Nat) : List Byte :=
  toBe 1 (32 + bits (sw x 0) 16 5) ++ toBe 1 (sessState x * 64 + c * 8) ++ toBe 1 (bits (sw x 0) 8 8) ++ toBe 1 24 ++
    toBe 4 (s.rd pgSVC SVC.BFD_DISC_HI_DISC * 65536 + n) ++ toBe 4 (sw x 1) ++ toBe 4 (sw x 2) ++ toBe 4 (sw x 3) ++ toBe 4 0

/-- A control packet of session n is sent (R639). The header fields that the rule does not state (DSCP and ECN, the IPv4
identification, the IPv6 flow label, the control-plane-independent bit) are free values. Words 9 and 13 hold the first four bytes of the
addresses (DESIGN CHOICE: no rule orders the words; notes/assumptions/30.md). -/
def State.bfdSend (s : State) (n : Nat) : State :=
  let x := s.sessOf n
  let v6 := bit (sw x 0) 4
  let tpl := s.svcTplOf (bits (sw x 8) 18 12)
  let d0 := s.draw 28
  let d1 := d0.2.draw 16
  let d2 := d1.2.draw 1
  let pay := s.bfdPayload n x d2.1
  let udp := toBe 2 (bits (sw x 6) 16 16) ++ toBe 2 (if bit (sw x 0) 3 then 4784 else 3784) ++ toBe 2 (8 + pay.length) ++ [0, 0] ++ pay
  let src := (List.range 4).map fun k => sw x (9 + k)
  let dst := (List.range 4).map fun k => sw x (13 + k)
  let ip := if v6 then toBe 4 (6 * 2 ^ 28 + d0.1) ++ toBe 2 udp.length ++ toBe 1 17 ++ toBe 1 255 ++ wordsToBytes src ++ wordsToBytes dst
    else toBe 1 0x45 ++ toBe 1 d0.1 ++ toBe 2 (20 + udp.length) ++ toBe 2 d1.1 ++ toBe 2 0 ++ toBe 1 255 ++ toBe 1 17 ++ [0, 0] ++
      toBe 4 (sw x 9) ++ toBe 4 (sw x 13)
  let o := min tpl.2.1 tpl.1.length
  let hl := if v6 then 40 else 20
  let l := tpl.1.take o ++ ip ++ udp
  let l1 := udpFix (if v6 then l else ip4Fix o l) o hl v6
  (d2.2.cnt pgSVC SVC.SVC_CNT 0).sendTo (bits (sw x 7) 0 19) (bits (sw x 7) 19 8) (bits (sw x 8) 0 18) (bits (sw x 0) 5 3) l1

/-- The transmit interval of a session in microseconds (R639). -/
def sessInterval (x : List Nat) : Nat :=
  let v := max (sw x 2) (sw x 5)
  if sessState x = 3 then v else max 1000000 v

/-- Session n may send again: RFC 5880 lets the jitter shorten the interval by a quarter at most (R639). -/
def State.bfdDue (s : State) (n : Nat) : Bool :=
  match tget s.bfdSent n with
  | none => true
  | some t => decide (4 * t + 3 * ticksUs (sessInterval (s.sessOf n)) ≤ 4 * s.ticks)

/-- BFD_TX_TIMER (R639). -/
def execBfdTxTimer (session : Nat) (s : State) : Host.Outcome State Fault Refusal :=
  .next (
    let n := session % 65536
    if s.bfdRuns ∧ sessValid (s.sessOf n) ∧ s.bfdDue n then { s with bfdSent := tset s.bfdSent n s.ticks }.bfdSend n else s)

/-- A command of the SVC page ends in an error: 1 CHANGED, 2 BAD_INDEX (R654, R655). -/
def State.svcError (s : State) (r : ResSet) (tag e : Nat) : State := (s.result pgSVC r tag ERROR [e]).raise pgSVC 4

/-- The bits of a session word (R654). -/
def sessMask (k : Nat) : Nat :=
  match k with
  | 0 => 0x1FFFFF
  | 6 => 0xFFFF00FF
  | 7 => 0x7FFFFFF
  | 8 => 0x3FFFFFFF
  | 17 => 0
  | 18 => 0
  | 19 => 0
  | _ => 0xFFFFFFFF

/-- The staged session: intervals below 3,300 µs store 3,300 (R639). -/
def State.sessStage (s : State) : List Nat :=
  (List.range 20).map fun k =>
    let w := andBits (s.rd pgSVC SVC.SESS_W_WORD k) (sessMask k)
    if 2 ≤ k ∧ k ≤ 5 then max 3300 w else w

/-- SESS_CMD WRITE (R643). -/
def State.sessWrite (s : State) (cond : Bool) (expect tag : Nat) : State :=
  let n := s.rd pgSVC SVC.SESS_IDX_INDEX
  if cond ∧ sessState (s.sessOf n) ≠ expect then s.svcError SVC.SESS_RES tag 1
  else { s with sess := tset s.sess n s.sessStage, bfdHeard := tset s.bfdHeard n s.ticks }.svcView.result pgSVC SVC.SESS_RES tag DONE

/-- SESS_WRITE (R643). -/
def execSessWrite (cond : Bool) (expect tag : Nat) (s : State) : Host.Outcome State Fault Refusal :=
  .next (s.gate pgSVC (·.sessWrite cond (expect % 4) tag))

/-- Words loaded into the staging registers. -/
def State.sessLoad (s : State) (ws : List Nat) : State :=
  (List.range 20).foldl (fun (t : State) k => t.wr pgSVC SVC.SESS_W_WORD (sw ws k) k) s

/-- SESS_READ (R654): the session into the staging registers. -/
def execSessRead (tag : Nat) (s : State) : Host.Outcome State Fault Refusal :=
  .next (s.gate pgSVC fun (t : State) =>
    (t.sessLoad (t.sessOf (t.rd pgSVC SVC.SESS_IDX_INDEX))).result pgSVC SVC.SESS_RES tag DONE)

/-- SESS_DELETE (R654): the session is removed. -/
def execSessDelete (tag : Nat) (s : State) : Host.Outcome State Fault Refusal :=
  .next (s.gate pgSVC fun (t : State) =>
    { t with sess := tdel t.sess (t.rd pgSVC SVC.SESS_IDX_INDEX), bfdSent := tdel t.bfdSent (t.rd pgSVC SVC.SESS_IDX_INDEX) }.svcView.result pgSVC SVC.SESS_RES tag DONE)

/-- SESS_CMD TPL_WRITE (R654): templates 0 to 4,095. -/
def State.svcTplWrite (s : State) (tag : Nat) : State :=
  let n := s.rd pgSVC SVC.SESS_IDX_INDEX
  if 4096 ≤ n then s.svcError SVC.SESS_RES tag 2
  else
    let ws := (List.range 17).map fun k => andBits (s.rd pgSVC SVC.SESS_W_WORD k) (if k = 16 then 0xFF7F else 0xFFFFFFFF)
    { s with svcTpl := tset s.svcTpl n ws }.result pgSVC SVC.SESS_RES tag DONE

/-- TPL_WRITE_SVC (R654). -/
def execTplWriteSvc (tag : Nat) (s : State) : Host.Outcome State Fault Refusal := .next (s.gate pgSVC (·.svcTplWrite tag))

/-- SESS_CMD TPL_READ (R654): the template into the staging registers. -/
def State.svcTplRead (s : State) (tag : Nat) : State :=
  let n := s.rd pgSVC SVC.SESS_IDX_INDEX
  if 4096 ≤ n then s.svcError SVC.SESS_RES tag 2
  else (s.sessLoad (tgetD s.svcTpl n (List.replicate 17 0))).result pgSVC SVC.SESS_RES tag DONE

/-- TPL_READ_SVC (R654). -/
def execTplReadSvc (tag : Nat) (s : State) : Host.Outcome State Fault Refusal := .next (s.gate pgSVC (·.svcTplRead tag))

/-- EVT_POP (R642): software consumes the FIFO while EVT_HOST is 1, the active service processor while it is 0; it does nothing during a
switchover gap (R34). -/
def State.evtPop (s : State) (byHost : Bool) : State :=
  if byHost = s.on pgSVC SVC.SVC_CTL_EVT_HOST ∧ (byHost ∨ ¬ s.on pgSPA SPA.IL_STS_SWITCHING) then { s with bfdEvents := s.bfdEvents.drop 1 }.svcView else s

/-- EVT_POP (R642). -/
def execEvtPop (byHost : Bool) (s : State) : Host.Outcome State Fault Refusal := .next (s.gate pgSVC (·.evtPop byHost))

/-! ### IPFIX (R645 to R648) -/

/-- Network time in milliseconds. -/
def State.ntMs (s : State) : Nat := s.nt.sec * 1000 + s.nt.ns / 1000000

/-- TCP control bits of a frame. -/
def tcpBits (f : Frame) (proto : Nat) : Nat := if proto = 6 then (f.l4.map fun o => beAt f.bytes (o + 12) 2 % 512).getD 0 else 0

/-- The flow update of a sampled frame (R645): none where the source slot holds neither 4 nor 16 bytes. -/
def State.flowOf (s : State) (f : Frame) : Option Flow :=
  let slot (k : Nat) : List Byte := tgetD f.slots k []
  let src := slot (s.rd pgSVC SVC.FLOW_KEY_SRC)
  let pad (n : Nat) (l : List Byte) : List Byte := (l ++ List.replicate n 0).take n
  if src.length ≠ 4 ∧ src.length ≠ 16 then none
  else
    let dst := pad src.length (slot (s.rd pgSVC SVC.FLOW_KEY_DST))
    let l4 := pad 4 (slot (s.rd pgSVC SVC.FLOW_KEY_L4))
    let proto := pad 1 (slot (s.rd pgSVC SVC.FLOW_KEY_PROTO))
    let key := src ++ dst ++ l4 ++ proto ++ toBe 4 f.port ++ toBe 4 (bits (f.act.getD 2 0) 0 12)
    some { key := key, v6 := decide (src.length = 16), fixed := key, octets := f.bytes.length - f.l3.getD 0, packets := 1
           first := s.ntMs, last := s.ntMs, exported := s.ntMs, tcp := tcpBits f (beNat proto) }

/-- A frame that the sampler marked forms its flow key once it is classified, and its update joins the queue (R645, R646). -/
def State.ipfixSample (s : State) (f : Frame) : State :=
  if ¬ s.enabled pgSVC ∨ ¬ s.on pgSVC SVC.SVC_CTL_IPFIX_EN then s
  else match s.flowOf f with
    | none => s.cnt pgSVC SVC.SVC_CNT 6
    | some u => if 4096 ≤ s.flowIn.length then s.cnt pgSVC SVC.SVC_CNT 6 else { s with flowIn := s.flowIn ++ [u] }

/-- Entry e of the flow cache is reached on the counter-flush port (R499, R646). -/
def State.flowAccess (s : State) (e : Nat) (write : Bool) : State :=
  s.hbmPost { port := 5, spill := false, len := 128, write := write
              addr := s.rd pgSVC SVC.FLOW_BASE_LO + s.rd pgSVC SVC.FLOW_BASE_HI * 2 ^ 32 + 128 * e }

/-- An update meets a flow of its key. -/
def Flow.merge (f u : Flow) : Flow :=
  { f with octets := f.octets + u.octets, packets := f.packets + u.packets, last := u.last, tcp := orBits f.tcp u.tcp }

/-- A flow update reads two candidate entries and writes one, or is dropped when both hold other flows (R646). -/
def State.flowUpdate (s : State) (u : Flow) : State :=
  let c (k : Nat) : Nat := Config.flowSlot u.key k % 4194304
  let holds (k : Nat) : Bool := match tget s.flows (c k) with
    | some x => decide (x.key = u.key)
    | none => false
  let empty (k : Nat) : Bool := (tget s.flows (c k)).isNone
  let s1 := (s.flowAccess (c 0) false).flowAccess (c 1) false
  let put (k : Nat) : State :=
    (({ s1 with flows := tset s1.flows (c k) (match tget s1.flows (c k) with
      | some x => x.merge u
      | none => u) }.flowAccess (c k) true).cnt pgSVC SVC.SVC_CNT 5).svcView
  if holds 0 then put 0
  else if holds 1 then put 1
  else if empty 0 then put 0
  else if empty 1 then put 1
  else (s1.cnt pgSVC SVC.SVC_CNT 8).raise pgSVC 2

/-- IPFIX_UPDATE (R646). -/
def execIpfixUpdate (s : State) : Host.Outcome State Fault Refusal :=
  .next (match s.flowIn with
    | [] => s
    | u :: rest => if s.live pgSVC then { s with flowIn := rest }.flowUpdate u else s)

/-- An IPFIX message in a frame (RFC 7011, R648): the template's headers with their lengths and checksums set. -/
def State.ipfixFrame (s : State) (records : Nat) (sets : List Byte) : State :=
  let t := s.svcTplOf (s.rd pgSVC SVC.EXP_CFG_EXP_TPL)
  let hl := if t.2.2 then 40 else 20
  let msg := toBe 2 10 ++ toBe 2 (16 + sets.length) ++ toBe 4 s.nt.sec ++ toBe 4 s.ipfixSeq ++
    toBe 4 (s.rd pgSVC SVC.EXP_ODID_ODID) ++ sets
  let o := t.2.1
  let l := t.1 ++ msg
  let n := l.length - o
  let l1 := if t.2.2 then patch l (o + 4) (toBe 2 (n - 40)) else ip4Fix o (patch l (o + 2) (toBe 2 n))
  let l2 := patch (patch l1 (o + hl + 4) (toBe 2 (n - hl))) (o + hl + 6) [0, 0]
  ({ s with ipfixSeq := (s.ipfixSeq + records) % 2 ^ 32 }).sendTo (s.rd pgSVC SVC.EXP_Q_QID) (s.rd pgSVC SVC.EXP_Q_DPORT) noRewrite
    0 (udpFix l2 o hl t.2.2)

/-- The information elements of a template, in order, with their lengths (R648). -/
def ipfixIes (v6 : Bool) : List (Nat × Nat) :=
  (if v6 then [(27, 16), (28, 16)] else [(8, 4), (12, 4)]) ++
    [(7, 2), (11, 2), (4, 1), (10, 4), (234, 4), (1, 8), (2, 8), (152, 8), (153, 8), (6, 2), (136, 1)]

/-- The template record of a family. -/
def ipfixTemplate (v6 : Bool) : List Byte :=
  let ies := ipfixIes v6
  toBe 2 (if v6 then 257 else 256) ++ toBe 2 ies.length ++ ies.flatMap fun e => toBe 2 e.1 ++ toBe 2 e.2

/-- The templates are due: at start, and EXP_TPL_S seconds after they last went out (R648). -/
def State.ipfixTplDue (s : State) : Bool :=
  match s.ipfixTplAt with
  | none => true
  | some t => decide (t + ticksMs (1000 * s.rd pgSVC SVC.EXP_TPL_S_SEC) ≤ s.ticks)

/-- A write of SVC_CTL (R654): IPFIX starts anew when IPFIX_EN rises. -/
def State.svcCtlWrite (s : State) (v : Nat) : State :=
  let s1 := s.wrWord pgSVC 0 v [SVC.SVC_CTL_BFD_EN, SVC.SVC_CTL_IPFIX_EN, SVC.SVC_CTL_RSP_EN, SVC.SVC_CTL_EVT_HOST]
  if bit v 1 ∧ ¬ s.on pgSVC SVC.SVC_CTL_IPFIX_EN then { s1 with ipfixTplAt := none } else s1

/-- IPFIX_TEMPLATE_SEND (R648): the template set goes out at start and every EXP_TPL_S seconds. -/
def execIpfixTemplateSend (s : State) : Host.Outcome State Fault Refusal :=
  .next (if s.enabled pgSVC ∧ s.on pgSVC SVC.SVC_CTL_IPFIX_EN ∧ s.ipfixTplDue then
      let body := ipfixTemplate false ++ ipfixTemplate true
      { s with ipfixTplAt := some s.ticks }.ipfixFrame 0 (toBe 2 2 ++ toBe 2 (4 + body.length) ++ body)
    else s)

/-- The data record of a flow with its end reason (R648). -/
def Flow.record (f : Flow) (reason : Nat) : List Byte :=
  f.fixed ++ toBe 8 f.octets ++ toBe 8 f.packets ++ toBe 8 f.first ++ toBe 8 f.last ++ toBe 2 f.tcp ++ toBe 1 reason

/-- Records of one family in messages of at most EXP_CFG.MTU bytes. -/
def State.ipfixSend (s : State) (v6 : Bool) : (left : Nat) → List (List Byte) → State
  | 0, _ => s
  | left + 1, rs =>
    match rs with
    | [] => s
    | _ :: _ =>
      let k := max 1 ((s.rd pgSVC SVC.EXP_CFG_MTU - 20) / if v6 then 80 else 56)
      let body := (rs.take k).flatten
      let n := (rs.take k).length
      ((s.ipfixFrame n (toBe 2 (if v6 then 257 else 256) ++ toBe 2 (4 + body.length) ++ body)).bump pgSVC SVC.SVC_CNT 7 7 n).ipfixSend
        v6 left (rs.drop k)

/-- Why a flow is exported at a visit, none where it stays (R647). -/
def State.flowReason (s : State) (f : Flow) : Option Nat :=
  if ¬ s.on pgSVC SVC.SVC_CTL_IPFIX_EN then some 4
  else if bit f.tcp 0 ∨ bit f.tcp 2 then some 3
  else if s.rd pgSVC SVC.FLOW_TMO_IDLE_S * 1000 ≤ s.ntMs - f.last then some 1
  else if s.rd pgSVC SVC.FLOW_TMO_ACTIVE_S * 1000 ≤ s.ntMs - f.exported then some 2
  else none

/-- A second has passed since the sweeper's last visit (R647). -/
def State.sweepIpfixDue (s : State) : Bool :=
  match s.ipfixSwept with
  | none => true
  | some t => decide (t + ticksMs 1000 ≤ s.ticks)

/-- The accesses of a visit on the counter-flush port: each cached flow is read, and one that is exported is written (R499, R646). -/
def State.flowVisit (s : State) : State :=
  s.flows.foldl (fun (t : State) e => if (s.flowReason e.2).isSome then (t.flowAccess e.1 false).flowAccess e.1 true else t.flowAccess e.1 false) s

/-- IPFIX_SWEEP (R647): every entry is visited; counts restart after an active export, other exports free the entry. -/
def execIpfixSweep (s : State) : Host.Outcome State Fault Refusal :=
  .next (if s.enabled pgSVC ∧ s.sweepIpfixDue then
      let out (v6 : Bool) : List (List Byte) := s.flows.filterMap fun (e : Nat × Flow) =>
        if e.2.v6 = v6 then (s.flowReason e.2).map fun r => e.2.record r else none
      let left := s.flows.filterMap fun (e : Nat × Flow) => match s.flowReason e.2 with
        | none => some e
        | some 2 => some (e.1, { e.2 with octets := 0, packets := 0, tcp := 0, exported := s.ntMs })
        | some _ => none
      let s1 := { s.flowVisit with flows := left, ipfixSwept := some s.ticks }
      ((s1.ipfixSend false (out false).length (out false)).ipfixSend true (out true).length (out true)).svcView
    else s)

/-! ### The ARP and ND responder (R649) -/

/-- The lowest valid entry of a VRF and address. -/
def State.rspFind (s : State) (vrf : Nat) (v6 : Bool) (addr : List Nat) : Option (List Nat) :=
  (s.rsp.find? fun (e : Nat × List Nat) =>
    bit (sw e.2 4) 13 && decide (bits (sw e.2 4) 0 12 = vrf) && decide (bit (sw e.2 4) 12 = v6) &&
      decide (e.2.take addr.length = addr)).map (·.2)

/-- The MAC address of an entry. -/
def rspMac (e : List Nat) : List Byte := toBe 4 (sw e 5) ++ toBe 2 (sw e 6)

/-- A reply keeps the request's bytes before the L3 start with new Ethernet addresses, and goes to the queue of the ingress port. -/
def State.rspSend (s : State) (f : Frame) (o n : Nat) (mac l3 : List Byte) : State :=
  let l2 := patch (patch (f.bytes.take o) 0 (slice f.bytes 6 6)) 6 mac
  (s.cnt pgSVC SVC.SVC_CNT n).sendTo (s.rd pgSVC SVC.RSP_Q_QID f.port) 0 noRewrite f.cls (l2 ++ l3)

/-- The ARP reply to a request at an L3 start (R649). -/
def arpReply (a mac : List Byte) : List Byte :=
  slice a 0 6 ++ toBe 2 2 ++ mac ++ slice a 24 4 ++ slice a 8 6 ++ slice a 14 4

/-- The Neighbor Advertisement to a solicitation (R649). The flow label and traffic class, which the rule does not state, are
given as `w0`. -/
def naReply (a mac : List Byte) (router : Bool) (w0 : Nat) : List Byte :=
  let target := slice a 48 16
  let icmp := toBe 1 136 ++ toBe 1 0 ++ [0, 0] ++ toBe 4 (b2n router * 2 ^ 31 + 0x60000000) ++ target ++ toBe 1 2 ++ toBe 1 1 ++ mac
  let l := toBe 4 (6 * 2 ^ 28 + w0) ++ toBe 2 icmp.length ++ toBe 1 58 ++ toBe 1 255 ++ target ++ slice a 8 16 ++ icmp
  patch l 42 (toBe 2 (onesNeg (onesAdd (pseudoSum l 0 true 58 icmp.length) (onesSum icmp))))

/-- A SERVICE 2 frame at the responder (R649). Word 0 of an entry's IPv6 address holds its first four bytes (DESIGN CHOICE: the spec gives the
order of the words nowhere; notes/assumptions/30.md). -/
def State.respond (s : State) (f : Frame) : State :=
  let vrf := bits (f.act.getD 2 0) 0 12
  match f.l3 with
  | none => s.toSp f
  | some o =>
    let a := f.bytes.drop o
    if 28 ≤ a.length ∧ beAt a 0 2 = 1 ∧ beAt a 2 2 = 0x0800 ∧ beAt a 4 2 = 0x0604 ∧ beAt a 6 2 = 1 then
      match s.rspFind vrf false [beAt a 24 4] with
      | some e => s.rspSend f o 9 (rspMac e) (arpReply a (rspMac e))
      | none => s.toSp f
    else if 64 ≤ a.length ∧ beAt a 0 1 / 16 = 6 ∧ beAt a 6 1 = 58 ∧ beAt a 7 1 = 255 ∧ beAt a 40 2 = 135 * 256 ∧
        beAt a 8 16 ≠ 0 then
      match s.rspFind vrf true (bytesToBeWords (slice a 48 16)) with
      | some e =>
        let d := s.draw 28
        d.2.rspSend f o 10 (rspMac e) (naReply a (rspMac e) (bit (sw e 4) 14) d.1)
      | none => s.toSp f
    else s.toSp f

/-- RESPONDER_FRAME (R649): the oldest frame that waits for the responder. -/
def execResponderFrame (s : State) : Host.Outcome State Fault Refusal :=
  .next (match s.rspIn with
    | [] => s
    | f :: rest => { s with rspIn := rest }.gate pgSVC (·.respond f))

/-- RSP_CMD WRITE (R654). -/
def execRspWrite (tag : Nat) (s : State) : Host.Outcome State Fault Refusal :=
  .next (s.gate pgSVC fun (t : State) =>
    let ws := (List.range 7).map fun k =>
      andBits (t.rd pgSVC SVC.RSP_W_WORD k) (if k = 4 then 0x7FFF else if k = 6 then 0xFFFF else 0xFFFFFFFF)
    { t with rsp := tset t.rsp (t.rd pgSVC SVC.RSP_IDX_INDEX) ws }.result pgSVC SVC.RSP_RES tag DONE)

/-- RSP_CMD READ (R654): the entry's words. -/
def execRspRead (tag : Nat) (s : State) : Host.Outcome State Fault Refusal :=
  .next (s.gate pgSVC fun (t : State) =>
    t.result pgSVC SVC.RSP_RES tag DONE (tgetD t.rsp (t.rd pgSVC SVC.RSP_IDX_INDEX) (List.replicate 7 0)))

/-- RSP_CMD INVALIDATE (R654). -/
def execRspInvalidate (tag : Nat) (s : State) : Host.Outcome State Fault Refusal :=
  .next (s.gate pgSVC fun (t : State) =>
    let n := t.rd pgSVC SVC.RSP_IDX_INDEX
    let e := tgetD t.rsp n (List.replicate 7 0)
    { t with rsp := tset t.rsp n (lset e 4 (clrBit (sw e 4) 13)) }.result pgSVC SVC.RSP_RES tag DONE)

end Sys2Proof.Machine
end

