-- ==== Sys2Proof/Machine/Host.lean ====
section
/-! DEFINITION. Machine/Host.lean: queue pairs, their rings and completions, the VFM page and dirty-page logs (spec
15_virtual_functions.md, R567 to R611). -/

namespace Sys2Proof.Machine

/-! ### Queue pairs and functions -/

/-- Context word k and its fields (R608). -/
def QPair.word (x : QPair) (k : Nat) : Nat := x.ctx.getD k 0
def QPair.txBase (x : QPair) : Nat := x.word 0 + x.word 1 * 2 ^ 32
def QPair.rxBase (x : QPair) : Nat := x.word 2 + x.word 3 * 2 ^ 32
def QPair.cqBase (x : QPair) : Nat := x.word 4 + x.word 5 * 2 ^ 32
def QPair.txSize (x : QPair) : Nat := 2 ^ bits (x.word 6) 0 4
def QPair.rxSize (x : QPair) : Nat := 2 ^ bits (x.word 6) 4 4
def QPair.cqSize (x : QPair) : Nat := 2 ^ bits (x.word 6) 8 4
def QPair.rxBuf (x : QPair) : Nat := 128 * bits (x.word 6) 12 8
def QPair.vec (x : QPair) : Nat := bits (x.word 7) 0 11
def QPair.weight (x : QPair) : Nat := max 1 (bits (x.word 7) 16 8)
def QPair.modCnt (x : QPair) : Nat := bits (x.word 8) 16 8
def QPair.modUs (x : QPair) : Nat := bits (x.word 8) 0 16

/-- The function that owns a queue pair: 0 where none does. -/
def QPair.fn (x : QPair) : Nat := match x.owner with
  | some (n, _) => n
  | none => 0

/-- Counter k of a queue pair advances (DMA_QP_CNT). -/
def State.qpCnt (s : State) (p k n : Nat) : State :=
  let x := s.qp p
  s.setQp p { x with cnt := lset x.cnt k ((x.cnt.getD k 0 + n) % 2 ^ 64) }

/-- Descriptors posted and not yet taken. -/
def QPair.txWork (x : QPair) : Nat := (x.txTail + 65536 - x.txHead) % 65536
def QPair.rxWork (x : QPair) : Nat := (x.rxTail + 65536 - x.rxHead) % 65536

/-- CQ entries that software has not released, and whether the CQ is full (R583). -/
def QPair.cqHeld (x : QPair) : Nat := (x.cqTail + 131072 - x.cqHead) % 131072
def QPair.cqFull (x : QPair) : Bool := decide (x.cqSize ≤ x.cqHeld)

/-- The phase of the descriptor k places ahead of an index (R576). -/
def phaseAt (phase : Bool) (index size k : Nat) : Bool := if size ≤ index % size + k then !phase else phase

/-! ### Dirty-page logging (R595 to R599) -/

/-- A write of VF n to [addr, addr + len) while it logs: a bit for each page of the range; a write with a page outside is counted. -/
def State.logMark (s : State) (n addr len : Nat) : State :=
  let v := s.vf n
  if ¬ v.logging ∨ len = 0 then s
  else
    let first := addr / 4096
    let pages := (List.range ((addr + len - 1) / 4096 - first + 1)).map (first + ·)
    let lo := v.logLo / 4096
    let inside := pages.filter fun q => decide (lo ≤ q) && decide (q < lo + v.logPages)
    let s1 := s.setVf n { v with dirty := v.dirty ++ (inside.map (· - lo)).filter fun i => !v.dirty.contains i }
    if inside.length = pages.length then s1 else (s1.cnt pgVFM VFM.VFM_CNT 3).raise pgVFM 2

/-- The active buffer of a log. -/
def VfState.logBase (v : VfState) : Nat := if v.activeB then v.logB else v.logA

/-- Pending bits are written into the active buffer (R597): each 8-byte word is read, ORed and written with PF0's routing ID; the
host's answers are taken in order, and a host error stops the log. Without a free tag slot the bits stay pending (R97). -/
def State.logFlush (s : State) (n : Nat) : List (Option Nat) → State
  | [] => s
  | w :: ws =>
    if s.tagRoom = 0 then s else
    let v := s.vf n
    match v.dirty with
    | [] => s
    | i :: _ =>
      let a := v.logBase + 8 * (i / 64)
      match w with
      | none => ((s.fetch 0 a 8).setVf n { v with logging := false, dirty := [] }).raise pgVFM 3
      | some old =>
        let here := v.dirty.filter fun k => decide (k / 64 = i / 64)
        let new := here.foldl (fun b k => setBit b (k % 64)) old
        let s1 := (s.fetch 0 a 8).setVf n { v with dirty := v.dirty.filter fun k => !decide (k / 64 = i / 64) }
        ((s1.post 0 a (toLe 8 new)).cnt pgVFM VFM.VFM_CNT 4).logFlush n ws

/-- A write that the device sends for function n: the Relaxed Ordering attribute only on frame data for receive buffers, where the
function and ORD_CTL allow it and no log runs (R546, R598); logged for a VF (R596). -/
def State.hostPut (s : State) (n addr : Nat) (data : List Byte) (frameData : Bool := false) : State :=
  let ro := frameData && bit ((s.ctlFn (fnOf n)).dw 0x78) 4 && s.on pgPCE PCE.ORD_CTL_DATA_RO && !(s.vf n).logging
  let s1 := s.post (fnOf n) addr data ro
  if n = 0 ∨ ¬ (s.fnS (fnOf n)).sends then s1 else s1.logMark n addr data.length

/-! ### Completions and interrupts (R581 to R585) -/

/-- The queue pair signals its vector when ARM is 1 and enough entries are unsignalled. -/
def State.cqSignal (s : State) (p : Nat) : State :=
  let x := s.qp p
  if x.arm ∧ 0 < x.unsig ∧ x.modCnt ≤ x.unsig then
    (s.setQp p { x with arm := false, unsig := 0 }).msix (fnOf x.fn) x.vec
  else s

/-- A CQ entry is written (R581): word 0 from its parts, then words 1 to 5. -/
def State.cqPut (s : State) (p kind status bufs index : Nat) (words : List Nat) : State :=
  let x := s.qp p
  let w0 := kind + b2n x.cqPhase * 4 + status * 16 + bufs * 256 + index * 65536
  let ws := (w0 :: words) ++ List.replicate (7 - words.length) 0
  let s1 := s.hostPut x.fn (x.cqBase + 32 * (x.cqTail % x.cqSize)) (leWordsToBytes ws)
  (s1.setQp p { x with cqTail := (x.cqTail + 1) % 131072, cqPhase := phaseAt x.cqPhase x.cqTail x.cqSize 1
                       unsig := x.unsig + 1, unsigAt := if x.unsig = 0 then s.ticks else x.unsigAt }).cqSignal p

/-- CQ_MODERATION_TIMEOUT (R585): MOD_US after the first unsignalled entry. -/
def execCqModerationTimeout (qp : Nat) (s : State) : Host.Outcome State Fault Refusal :=
  .next (
    let x := s.qp (qp % 8192)
    if x.arm ∧ 0 < x.unsig ∧ x.unsigAt + ticksUs x.modUs ≤ s.ticks ∧ s.live pgDMA then
      (s.setQp (qp % 8192) { x with arm := false, unsig := 0 }).msix (fnOf x.fn) x.vec
    else s)

/-- CQ_HEAD.ARM (R585). -/
def State.cqArm (s : State) (p : Nat) : State := (s.setQp p { s.qp p with arm := true }).cqSignal p

/-- CQ_ARM (R585): of an assigned queue pair. -/
def execCqArm (qp : Nat) (s : State) : Host.Outcome State Fault Refusal :=
  .next (if (s.qp (qp % 8192)).owner.isSome then s.gate pgDMA (·.cqArm (qp % 8192)) else s)

/-! ### Doorbells (R570, R571) -/

/-- A TX_TAIL or RX_TAIL write: ignored where the ring would hold more than its entries. -/
def State.tailWrite (s : State) (p index : Nat) (tx : Bool) : State :=
  let x := s.qp p
  let head := if tx then x.txHead else x.rxHead
  let size := if tx then x.txSize else x.rxSize
  if size < (index % 65536 + 65536 - head) % 65536 then s.qpCnt p 7 1
  else s.setQp p (if tx then { x with txTail := index % 65536 } else { x with rxTail := index % 65536 })

/-- TX_TAIL_WRITE (R571). -/
def execTxTailWrite (qp index : Nat) (s : State) : Host.Outcome State Fault Refusal :=
  .next (if (s.qp (qp % 8192)).owner.isSome then s.gate pgDMA (·.tailWrite (qp % 8192) index true) else s)

/-- RX_TAIL_WRITE (R571). -/
def execRxTailWrite (qp index : Nat) (s : State) : Host.Outcome State Fault Refusal :=
  .next (if (s.qp (qp % 8192)).owner.isSome then s.gate pgDMA (·.tailWrite (qp % 8192) index false) else s)

/-- A CQ_HEAD write: ignored where it would pass the device's CQ tail. -/
def State.cqHeadWrite (s : State) (p index : Nat) : State :=
  let x := s.qp p
  let i := index % 131072
  if x.cqHeld < (i + 131072 - x.cqHead) % 131072 then s.qpCnt p 7 1 else s.setQp p { x with cqHead := i }

/-- CQ_HEAD_WRITE (R571). -/
def execCqHeadWrite (qp index : Nat) (s : State) : Host.Outcome State Fault Refusal :=
  .next (if (s.qp (qp % 8192)).owner.isSome then s.gate pgDMA (·.cqHeadWrite (qp % 8192) index) else s)

/-- A write into a doorbell page. -/
def State.doorbellWrite (s : State) (p off v : Nat) : State :=
  match off with
  | 0x000 => s.tailWrite p v true
  | 0x004 => s.tailWrite p v false
  | 0x008 => if bit v 31 then (s.cqHeadWrite p v).cqArm p else s.cqHeadWrite p v
  | _ => s

/-- A read of a doorbell page: QP_STS, and 0 elsewhere. -/
def State.doorbellRead (s : State) (p off : Nat) : Nat :=
  if off = 0x00C then (s.qp p).state + 8 * b2n (s.vf (s.qp p).fn).frozen else 0

/-- The queue pair whose doorbell page a function's BAR0 shows at an offset (R541, R570). -/
def State.doorbellQp (s : State) (fn off : Nat) : Option Nat :=
  let page := off / 4096
  if fn = 0 then (if (s.qp page).owner.map (·.1) = some 0 then some page else none)
  else (s.qps.find? fun (e : Nat × QPair) => decide (e.2.owner = some (vfOf fn, page))).map (·.1)

/-! ### Transmit (R576 to R579, R588, R590) -/

/-- A function may fetch: its rate is paid (R590). -/
def State.ratePaid (s : State) (n : Nat) : Bool := decide ((s.vf n).rate = 0) || decide ((s.vf n).debt = 0)

/-- The queue pairs with TX work that may be served, in order (R587, R590, R600). -/
def State.txActive (s : State) : List Nat :=
  (s.qps.filter fun (e : Nat × QPair) =>
    decide (e.2.state = 1) && decide (0 < e.2.txWork) && !(s.vf e.2.fn).frozen && (s.fnS (fnOf e.2.fn)).sends &&
      s.ratePaid e.2.fn).map (·.1)

/-- The queue pair that the DWRR serves next among those active (R590), with the deficits as they then stand. -/
def State.txPick (s : State) (act : List Nat) : (left : Nat) → Option (Nat × State)
  | 0 => none
  | left + 1 =>
    if act.contains s.txCur ∧ 0 < (s.qp s.txCur).deficit then some (s.txCur, s)
    else
      let s0 := if act.contains s.txCur then s else s.setQp s.txCur { s.qp s.txCur with deficit := 0 }
      match (act.find? (s.txCur < ·)).orElse fun _ => act.head? with
      | none => none
      | some k =>
        let x := s0.qp k
        ({ s0.setQp k { x with deficit := x.deficit + x.weight * 256 } with txCur := k }).txPick act left

/-- A TX descriptor passes R576: its GEN, its RSV bits, its length. -/
def txDescOk (d : List Nat) (phase : Bool) : Bool :=
  let w (k : Nat) : Nat := d.getD k 0
  decide (bit (w 2) 15 = phase) && decide (bits (w 2) 25 7 = 0) && decide (bits (w 3) 9 7 = 0) && decide (bits (w 3) 25 7 = 0) &&
    decide (w 5 = 0 ∧ w 6 = 0 ∧ w 7 = 0) && decide (1 ≤ bits (w 2) 0 14) && decide (bits (w 2) 0 14 ≤ 16000)

/-- What the descriptors that follow the device index spell: a frame, a rejected one after so many descriptors, or a frame not
yet posted whole. -/
inductive TxScan where
  | frame (n : Nat)
  | bad (n : Nat)
  | short
  deriving DecidableEq, Repr

/-- The descriptors checked one after another (R576, R577). -/
def txScan (phase : Bool) (index size : Nat) : (k total : Nat) → List (List Nat) → TxScan
  | k, _, [] => if 8 ≤ k then .bad k else .short
  | k, total, d :: t =>
    if 8 ≤ k then .bad k
    else if ¬ txDescOk d (phaseAt phase index size k) then .bad (k + 1)
    else
      let n := total + bits (d.getD 2 0) 0 14
      if 16000 < n then .bad (k + 1)
      else if bit (d.getD 2 0) 14 then (if n < 14 then .bad (k + 1) else .frame (k + 1))
      else txScan phase index size (k + 1) n t

/-- A queue pair halts in ERROR with a CQ entry (R576, R587). -/
def State.qpHalt (s : State) (p kind status bufs index : Nat) : State :=
  let s1 := s.cqPut p kind status bufs index [0, 0, 0, 0, 0]
  (s1.setQp p { s1.qp p with state := 3 }).raise pgDMA 0

/-- The host fails a ring read (R587, R609). -/
def State.ringError (s : State) (p kind index : Nat) : State :=
  ((s.cnt pgDMA DMA.DMA_CNT 3).raise pgDMA 3).qpHalt p kind 2 0 index

/-- The frame of an accepted run of descriptors: its data reads are issued, or wait for tag slots (R549, R551, R577). -/
def State.txIssue (s : State) (p : Nat) (ds : List (List Nat)) : State :=
  let x := s.qp p
  let fn := fnOf x.fn
  let reads := ds.flatMap fun (d : List Nat) =>
    chunks (s.mrrs fn) (bits (d.getD 2 0) 0 14) (d.getD 0 0 + d.getD 1 0 * 2 ^ 32) (bits (d.getD 2 0) 0 14)
  let wait := (s.cnt pgPCE PCE.PCE_CNT 6).raise pgPCE 8
  if s.tagRoom < reads.length then wait
  else
    match s.issueReads fn p x.txHead 0 reads with
    | none => wait
    | some s1 =>
      let n := ds.length
      let len : Nat := (ds.map fun (d : List Nat) => bits (d.getD 2 0) 0 14).foldl (· + ·) 0
      let f : TxFrame := { first := x.txHead, descs := ds, parts := List.replicate reads.length none }
      let s2 := s1.setQp p { x with txHead := (x.txHead + n) % 65536, txPhase := phaseAt x.txPhase x.txHead x.txSize n
                                    frames := x.frames ++ [f], deficit := x.deficit - (len : Int) }
      let v := s2.vf x.fn
      ((s2.setVf x.fn { v with debt := if v.rate = 0 then 0 else v.debt + 6400 * len }).bump pgDMA DMA.DMA_CNT 0 0 n).pceView

/-- The function of queue pair p reads n ring entries of a size from an index on: a ring ends at its last entry (R571, R575). -/
def State.ringFetch (s : State) (p base size entry index n : Nat) : State :=
  let i := index % size
  let k := min n (size - i)
  let fn := fnOf (s.qp p).fn
  (s.fetch fn (base + entry * i) (entry * k)).fetch fn base (entry * (n - k))

/-- The host path finds the link in L1 and waits for the exit (R532). -/
def State.pathAsleep (s : State) : Bool := s.on pgPCE PCE.LINK_STS_L1

/-- TX_DESCRIPTOR_FETCH (R576, R577, R590): the descriptors that the host returns for the queue pair whose turn it is. Without a free tag
slot the fetch waits (R549), and in L1 for the exit (R532). -/
def State.txFetch (s : State) (p : Nat) (descs : Option (List (List Nat))) : State :=
  if s.tagRoom = 0 then (if s.txActive.contains p then (s.cnt pgPCE PCE.PCE_CNT 6).raise pgPCE 8 else s) else
  match s.txPick s.txActive (64 * (s.qps.length + 1)) with
  | none => s
  | some (k, s1) =>
    if k ≠ p ∨ s.pathAsleep then s
    else
      let x := s1.qp p
      let read (t : State) (n : Nat) : State := t.ringFetch p x.txBase x.txSize 32 x.txHead n
      match descs with
      | none => if x.cqFull then s else (read s1 1).ringError p 1 x.txHead
      | some l =>
        match txScan x.txPhase x.txHead x.txSize 0 0 (l.take x.txWork) with
        | .short => read s (min l.length x.txWork)
        | .bad n =>
          if x.cqFull then s
          else (((read s1 n).bump pgDMA DMA.DMA_CNT 0 0 n).cnt pgDMA DMA.DMA_CNT 1).qpHalt p 1 1 n x.txHead
        | .frame n =>
          let prof := bits ((l.headD []).getD 2 0) 16 8
          if prof ≠ 0 ∧ s.oflKind prof = some 2 ∧ s.ipsHostFull then s else (read s1 n).txIssue p (l.take n)

/-- TX_DESCRIPTOR_FETCH (R576): no queue pair runs in fabric mode (R29). -/
def execTxDescriptorFetch (qp : Nat) (descs : Option (List (List Nat))) (s : State) : Host.Outcome State Fault Refusal :=
  .next (if s.enabled pgDMA ∧ ¬ s.fabric then s.txFetch (qp % 8192) descs else s)

/-- All data reads of a fetched frame have ended. -/
def TxFrame.done (f : TxFrame) : Bool := f.parts.all (·.isSome)

/-- The bytes of a frame. -/
def TxFrame.data (f : TxFrame) : List Byte := f.parts.flatMap fun b => b.getD []

/-- A host frame enters dealing as context 256 + p with slot 47 written (R578, R872). -/
def State.txHandOff (s : State) (p : Nat) (l : List Byte) (csum : Option (Nat × Nat)) : State :=
  let x := s.qp p
  let f : Frame := { bytes := l, fcsGood := true, ctx := 256 + p, startKey := s.rd pgPRS PRS.HOST_START_KEY
                     slots := [(47, toBe 4 (x.fn + p * 65536))], csumIns := csum, modified := true }
  { s with ingress := s.ingress ++ [f] }

/-- A CQ entry for the first of a queue pair's frames, which leaves its list. -/
def State.txEnd (s : State) (p status : Nat) (f : TxFrame) (len : Nat) : State :=
  let s1 := s.setQp p { s.qp p with frames := (s.qp p).frames.drop 1 }
  s1.cqPut p 1 status f.descs.length f.first [len % 16384, 0, 0, 0, 0]

/-- A transmit profile does not suit the frame (R615). -/
def State.txOflError (s : State) (p : Nat) (f : TxFrame) (len : Nat) : State :=
  ((s.cnt pgOFL OFL.OFL_CNT 1).raise pgOFL 0).txEnd p 4 f len

/-- A frame whose data reads have ended without error is offloaded, handed on and completed (R578, R579, R613 to R619, R623,
R629). -/
def State.txSend (s : State) (p : Nat) (f : TxFrame) : State :=
  let d := f.descs.headD []
  let l := f.data
  let n := l.length
  let prof := bits (d.getD 2 0) 16 8
  let arg := d.getD 4 0
  let cs : Option (Nat × Nat) := if bit (d.getD 2 0) 24 then some (bits (d.getD 3 0) 0 9, bits (d.getD 3 0) 16 9) else none
  let s0 := (s.qpCnt p 0 1).qpCnt p 1 n
  if prof = 0 then (s0.txHandOff p l cs).txEnd p 0 f n
  else if ¬ s.enabled pgOFL then s.txOflError p f n
  else
    match s.oflKind prof with
    | some 1 =>
      let cs1 := cs.map fun (c : Nat × Nat) =>
        (c.1 + s.oflTplLen prof - s.oflStrip prof, c.2 + s.oflTplLen prof - s.oflStrip prof)
      ((s0.cnt pgOFL OFL.OFL_CNT 0).txHandOff p (s.encap prof arg l) cs1).txEnd p 0 f n
    | some 2 =>
      if s.enabled pgIPS then
        let l1 := match cs with
          | some (a, b) => csumInsert a b l
          | none => l
        let g : Frame := { bytes := l1, ctx := 256 + p, l3 := some (bits (s.oflWord prof 1) 0 9), oflArg := arg }
        (s0.ipsHostPut { frame := g, sa := arg % 65536, enc := true }).txEnd p 0 f n
      else s.txOflError p f n
    | some 3 =>
      let r := s0.nvTx prof arg l
      (r.1.txHandOff p r.2 cs).txEnd p 0 f n
    | _ => s.txOflError p f n

/-- TX_FRAME_COMPLETE (R579, R583, R588, R591): the oldest fetched frame of a queue pair whose reads have ended. -/
def State.txComplete (s : State) (p : Nat) : State :=
  let x := s.qp p
  match x.frames with
  | [] => s
  | f :: rest =>
    if ¬ f.done then s
    else if f.squashed then (s.setQp p { x with frames := rest }).qpCnt p 5 1
    else if x.cqFull then s.raise pgDMA 2
    else if f.bad then ((s.cnt pgDMA DMA.DMA_CNT 3).raise pgDMA 3).txEnd p 2 f f.data.length
    else s.txSend p f

/-- TX_FRAME_COMPLETE (R579). -/
def execTxFrameComplete (qp : Nat) (s : State) : Host.Outcome State Fault Refusal :=
  .next (if s.live pgDMA then s.txComplete (qp % 8192) else s)

/-! ### Receive (R569, R580 to R583, R591, R600, R604, R614, R618, R630) -/

/-- A frame for a queue pair of PF0 or of a VF meets the patterns of PF0 while PF0 is in D3hot (R604). -/
def State.wakePf0 (s : State) (f : Frame) : State :=
  if (s.fnS 0).d3 ∧ s.enabled pgWAK ∧ s.on pgWAK WAK.WAK_CTL_PF0_EN ∧ (s.qp f.qp).owner.isSome then
    let s1 := s.cnt pgWAK WAK.WAK_CNT 0
    match s.wakeHit 0 f.bytes with
    | none => s1
    | some k =>
      let s2 := s1.cnt pgWAK WAK.WAK_CNT 1
      let x := s2.fnS 0
      if bit (x.dw 0x44) 15 then s2
      else
        let s3 := s2.setFn 0 (x.setDw 0x44 (setBit (x.dw 0x44) 15))
        let s4 := if bit (x.dw 0x44) 8 then s3.emit (.pme 0) else s3
        ((s4.wr pgWAK WAK.WAK_STS_LAST k).wr pgWAK WAK.WAK_STS_HIT0 1).raise pgWAK 0
  else s

/-- An RX descriptor passes R576. -/
def rxDescOk (d : List Nat) (phase : Bool) : Bool :=
  decide (bit (d.getD 2 0) 15 = phase) && decide (andNot (d.getD 2 0) 0x8000 = 0) && decide (d.getD 3 0 = 0)

/-- The first descriptor of a run that fails R576, if any. -/
def rxBad (phase : Bool) (index size : Nat) : Nat → List (List Nat) → Option Nat
  | _, [] => none
  | k, d :: t => if rxDescOk d (phaseAt phase index size k) then rxBad phase index size (k + 1) t else some k

/-- The receive offload of a frame (R614, R615, R618, R630): state, bytes for the buffers, placed writes, OFL_RES, status. -/
def State.rxOffload (s : State) (f : Frame) (entries : List (Option (List Nat))) :
    State × List Byte × List (Nat × List Byte) × Nat × Nat :=
  if f.ofl = 0 then (s, f.bytes, [], 0, 0)
  else
    match if s.enabled pgOFL then s.oflKind f.ofl else none with
    | some 4 =>
      let r := s.nvRx (fnOf (s.qp (f.qp % 8192)).fn) f.ofl f.oflArg f.l4chk f.bytes entries
      (r.1, r.2.1, r.2.2.1, r.2.2.2, 0)
    | some 5 => (s, f.bytes, [], beNat ((tgetD f.slots (bits (s.oflWord f.ofl 0) 24 6) []).take 4), 0)
    | _ => ((s.cnt pgOFL OFL.OFL_CNT 1).raise pgOFL 0, f.bytes, [], 0, 4)

/-- The timestamp words of a CQ entry (R135, R581). A frame that came from no line port has no receive timestamp: its words are
free values. -/
def State.rxStamp (s : State) (f : Frame) : State × List Nat :=
  if f.ctx < 256 then (s, [f.time.ns, f.time.sec % 2 ^ 32, f.time.sec / 2 ^ 32 % 65536 + f.time.frac16 * 65536])
  else
    let a := s.draw 30
    let b := a.2.draw 32
    let c := b.2.draw 32
    (c.2, [a.1, b.1, c.1])

/-- A frame is written into the buffers of accepted descriptors and completed (R580 to R582). -/
def State.rxWrite (s : State) (p : Nat) (f : Frame) (l : List Byte) (placed : List (Nat × List Byte)) (res status : Nat)
    (ds : List (List Nat)) : State :=
  let x := s.qp p
  let n := ds.length
  let s1 := placed.foldl (fun (t : State) e => t.hostPut x.fn e.1 e.2) s
  let s2 := (List.range n).foldl (fun (t : State) k =>
    let d := ds.getD k []
    t.hostPut x.fn (d.getD 0 0 + d.getD 1 0 * 2 ^ 32) (slice l (k * x.rxBuf) x.rxBuf) true) s1
  let s3 := ((s2.qpCnt p 2 1).qpCnt p 3 f.bytes.length)
  let s4 := s3.setQp p { s3.qp p with rxHead := (x.rxHead + n) % 65536, rxPhase := phaseAt x.rxPhase x.rxHead x.rxSize n }
  let st := s4.rxStamp f
  let w1 := l.length % 16384 + b2n (decide (f.l4chk = 1)) * 2 ^ 16 + b2n (decide (f.l4chk = 2)) * 2 ^ 17 + f.cls % 8 * 2 ^ 18 +
    f.reason % 8 * 2 ^ 21
  (st.1.tracePoint f 10 0 p (x.cqTail % 65536)).cqPut p 2 status n x.rxHead ([w1] ++ st.2 ++ [res % 2 ^ 32])

/-- A frame for an enabled queue pair (R580, R583). -/
def State.rxPlace (s : State) (p : Nat) (f : Frame) (descs : Option (List (List Nat))) (entries : List (Option (List Nat))) : State :=
  let x := s.qp p
  if x.cqFull then (s.qpCnt p 6 1).raise pgDMA 2
  else
    let r := s.rxOffload f entries
    let need := max 1 ((r.2.1.length + x.rxBuf - 1) / x.rxBuf)
    if 8 < need ∨ x.rxWork < need then (s.qpCnt p 4 1).raise pgDMA 1
    else
      let read (t : State) : State := t.ringFetch p x.rxBase x.rxSize 16 x.rxHead need
      match descs with
      | none => (read s).ringError p 2 x.rxHead
      | some l =>
        let ds := l.take need
        if ds.length < need then (read s).ringError p 2 x.rxHead
        else
          match rxBad x.rxPhase x.rxHead x.rxSize 0 ds with
          | some k => (((read s).bump pgDMA DMA.DMA_CNT 0 0 (k + 1)).cnt pgDMA DMA.DMA_CNT 1).qpHalt p 2 1 (k + 1) x.rxHead
          | none => ((read r.1).bump pgDMA DMA.DMA_CNT 0 0 need).rxWrite p f r.2.1 r.2.2.1 r.2.2.2.1 r.2.2.2.2 ds

/-- A frame that has left the egress pipelines for the host path. -/
def State.rxTake (s : State) (f : Frame) (descs : Option (List (List Nat))) (entries : List (Option (List Nat)))
    (logWords : List (Option Nat)) : State :=
  let s1 := s.wakePf0 f
  let p := f.qp % 8192
  let x := s1.qp p
  let n := x.fn
  let fn := s1.fnS (fnOf n)
  if x.owner.isSome ∧ n ≠ 0 ∧ (fn.flr.isSome ∨ (s1.vf n).frozen) then s1.qpCnt p 5 1
  else if x.owner.isNone ∨ x.state ≠ 1 ∨ ¬ fn.sends ∨ ¬ s1.enabled pgDMA then s1.cnt pgDMA DMA.DMA_CNT 2
  else (s1.rxPlace p f descs entries).logFlush n logWords

/-- RX_FRAME_PLACE (R580): the next frame for the host, with what the host answers: RX descriptors, NVMe placement entries, and
words of the dirty-page log. Without a free tag slot for its reads the frame waits (R97), and in L1 for the exit (R532). -/
def execRxFramePlace (descs : Option (List (List Nat))) (entries : List (Option (List Nat))) (logWords : List (Option Nat))
    (s : State) : Host.Outcome State Fault Refusal :=
  .next (match s.hostRx with
    | [] => s
    | f :: rest =>
      if ¬ s.live pgDMA then { s with hostRx := rest }
      else if s.pathAsleep then s
      else if s.tagRoom = 0 then (s.cnt pgPCE PCE.PCE_CNT 6).raise pgPCE 8
      else { s with hostRx := rest }.rxTake f descs entries logWords)

/-! ### Queue-pair commands (R586 to R588, R608) -/

/-- A queue-pair command ends in ERROR. The rules give its error words no code: word 1 is a free value. -/
def State.qpError (s : State) (tag : Nat) : State :=
  let d := s.draw 4
  (d.2.result pgDMA DMA.QP_RES tag ERROR [d.1]).raise pgDMA 5

/-- A command while the previous one runs is ignored (R868). -/
def State.qpCmd (s : State) (f : State → State) : State := if s.qpRun.isSome then s else f s

/-- The staged context is in range for an owner (R608). -/
def ctxOk (w : List Nat) (owner : Option (Nat × Nat)) : Bool :=
  let g (k lo n : Nat) : Nat := bits (w.getD k 0) lo n
  let base (k : Nat) : Bool := decide (g k 0 12 = 0)
  let vecs := match owner with
    | none => 0
    | some (n, _) => vectorsOf (fnOf n)
  base 0 && base 2 && base 4 && decide (6 ≤ g 6 0 4) && decide (6 ≤ g 6 4 4) && decide (6 ≤ g 6 8 4) && decide (2 ≤ g 6 12 8) &&
    decide (g 6 12 8 ≤ 128) && decide (g 7 0 11 < vecs)

/-- The bits of a context word (R608). -/
def ctxMask (k : Nat) : Nat := if k = 6 then 0xFFFFF else if k = 7 then 0xFF07FF else if k = 8 then 0xFFFFFF else 0xFFFFFFFF

/-- WRITE_CTX (R587): indices and phases reset. LOG2 fields have 4 bits, so that 15 is the largest value. -/
def State.writeCtx (s : State) (tag : Nat) : State :=
  let x := s.qp s.qpSel
  let w := (List.range 9).map fun k => andBits (s.rd pgDMA DMA.CTX_W_WORD k) (ctxMask k)
  if x.state ≠ 0 ∨ ¬ ctxOk w x.owner then s.qpError tag
  else (s.setQp s.qpSel { owner := x.owner, ctx := w, cnt := x.cnt }).result pgDMA DMA.QP_RES tag DONE

/-- WRITE_CTX (R587). -/
def execWriteCtx (tag : Nat) (s : State) : Host.Outcome State Fault Refusal :=
  .next (s.lineGate pgDMA fun (t : State) => t.qpCmd (·.writeCtx tag))

/-- READ_CTX (R608): words 0 to 8 in data words 1 to 9. -/
def execReadCtx (tag : Nat) (s : State) : Host.Outcome State Fault Refusal :=
  .next (s.lineGate pgDMA fun (t : State) => t.qpCmd fun (u : State) => u.result pgDMA DMA.QP_RES tag DONE (u.qp u.qpSel).ctx)

/-- ENABLE (R587, R240): a disabled queue pair starts fetching; its ordering context restarts. -/
def State.qpEnable (s : State) (tag : Nat) : State :=
  let p := s.qpSel
  let x := s.qp p
  if x.state ≠ 0 ∨ x.owner.isNone ∨ ¬ ctxOk x.ctx x.owner then s.qpError tag
  else ((s.setQp p { x with state := 1 }).ctxRestart (256 + p)).result pgDMA DMA.QP_RES tag DONE

/-- QP_ENABLE (R587). -/
def execQpEnable (tag : Nat) (s : State) : Host.Outcome State Fault Refusal :=
  .next (s.lineGate pgDMA fun (t : State) => t.qpCmd (·.qpEnable tag))

/-- The data reads of a queue pair's incomplete frames end (R588): their completions come to squashed slots. -/
def State.endReads (s : State) (p : Nat) (firsts : List Nat) : State :=
  { s with tags := s.tags.map fun (t : TagSlot) =>
      if t.qp = p ∧ firsts.contains t.first ∧ ¬ t.quarantined then { t with squashed := true } else t }

/-- A frame whose reads DISABLE ends is discarded with a DROPPED entry (R588). -/
def State.txDropped (s : State) (p : Nat) (f : TxFrame) : State :=
  let n := (f.descs.map fun (d : List Nat) => bits (d.getD 2 0) 0 14).foldl (· + ·) 0
  (s.qpCnt p 5 1).cqPut p 1 3 f.descs.length f.first [n % 16384, 0, 0, 0, 0]

/-- DISABLE (R587, R588). -/
def State.qpDisable (s : State) (tag : Nat) : State :=
  let p := s.qpSel
  let x := s.qp p
  if x.state ≠ 1 ∧ x.state ≠ 3 then s.qpError tag
  else
    let cut := x.frames.filter fun (f : TxFrame) => !f.done
    let s1 := { s.resStart pgDMA DMA.QP_RES with qpRun := some (p, tag) }
    let s2 := (s1.endReads p (cut.map fun (f : TxFrame) => f.first)).setQp p
      { x with state := 2, frames := x.frames.filter fun (f : TxFrame) => f.done }
    cut.foldl (fun (t : State) f => t.txDropped p f) s2

/-- QP_DISABLE (R588). -/
def execQpDisable (tag : Nat) (s : State) : Host.Outcome State Fault Refusal :=
  .next (s.lineGate pgDMA fun (t : State) => t.qpCmd (·.qpDisable tag))

/-- The running DISABLE of a queue pair reports DONE. -/
def State.qpRunDone (s : State) (p : Nat) : State :=
  match s.qpRun with
  | some (q, tag) => if q = p then { s with qpRun := none }.result pgDMA DMA.QP_RES tag DONE else s
  | none => s

/-- QP_DRAIN_COMPLETE (R587): every fetched frame of a draining queue pair has completed. -/
def execQpDrainComplete (qp : Nat) (s : State) : Host.Outcome State Fault Refusal :=
  .next (
    let p := qp % 8192
    let x := s.qp p
    if x.state = 2 ∧ x.frames = [] ∧ s.live pgDMA ∧ (s.fnS (fnOf x.fn)).flr.isNone then
      (s.setQp p { x with state := 0 }).qpRunDone p
    else s)

/-- QP_CMD ABORT (R64): it ends a DISABLE that still runs; the queue pair goes on draining. -/
def State.qpAbort (s : State) : State :=
  match s.qpRun with
  | some (_, tag) => { s with qpRun := none }.result pgDMA DMA.QP_RES tag ABORTED
  | none => s.resLate pgDMA DMA.QP_RES

/-- QP_ABORT (R587, R64). -/
def execQpAbort (s : State) : Host.Outcome State Fault Refusal := .next (s.gate pgDMA (·.qpAbort))

/-! ### VFM commands (R573, R574, R589, R594 to R602, R606) -/

/-- A VFM command ends in ERROR: 1 IN_USE, 2 NOT_DISABLED, 3 BUSY, 4 FN_RESET, 5 BAD_IMAGE, 6 NOT_FROZEN, 7 BAD_FN. -/
def State.vfmError (s : State) (tag e : Nat) : State := (s.result pgVFM VFM.VFM_RES tag ERROR [e]).raise pgVFM 1

/-- A VFM command ends DONE. -/
def State.vfmDone (s : State) (tag : Nat) (words : List Nat := []) : State := s.result pgVFM VFM.VFM_RES tag DONE words

/-- Function n exists: PF0, or an enabled VF. -/
def State.vfThere (s : State) (n : Nat) : Bool := decide (n = 0) || decide (n ≤ s.numVfs) || (s.fnS (fnOf n)).removing

/-- A VFM command about function n (R594, R868). `vfOnly`: PF0 is no answer to it. -/
def State.vfmCmd (s : State) (tag n : Nat) (vfOnly : Bool) (f : State → State) : State :=
  if s.vfmRun.isSome then s
  else
    let s1 := s.cnt pgVFM VFM.VFM_CNT 0
    if ¬ s1.vfThere n ∨ (vfOnly ∧ n = 0) then s1.vfmError tag 7
    else if (s1.fnS (fnOf n)).flr.isSome then s1.vfmError tag 3
    else f s1

/-- The function that CMD_FN names. -/
def State.cmdFn (s : State) : Nat := s.rd pgVFM VFM.CMD_FN_FN

/-- ASSIGN_QP (R589). -/
def State.assignQp (s : State) (tag : Nat) : State :=
  let n := s.cmdFn
  let p := s.rd pgVFM VFM.CMD_QP_QP
  let i := s.rd pgVFM VFM.CMD_LOCAL_INDEX
  if (s.qp p).owner.isSome ∨ (n ≠ 0 ∧ (s.qpsOf n).any fun e => decide (e.1 = i)) then s.vfmError tag 1
  else (s.setQp p { s.qp p with owner := some (n, i) }).vfmDone tag

/-- ASSIGN_QP (R589). -/
def execAssignQp (tag : Nat) (s : State) : Host.Outcome State Fault Refusal :=
  .next (s.lineGate pgVFM fun (t : State) => t.vfmCmd tag t.cmdFn false (·.assignQp tag))

/-- RELEASE_QP (R589). -/
def State.releaseQp (s : State) (tag : Nat) : State :=
  let p := s.rd pgVFM VFM.CMD_QP_QP
  if (s.qp p).state ≠ 0 then s.vfmError tag 2 else (s.setQp p { s.qp p with owner := none }).vfmDone tag

/-- RELEASE_QP (R589). -/
def execReleaseQp (tag : Nat) (s : State) : Host.Outcome State Fault Refusal :=
  .next (s.gate pgVFM fun (t : State) =>
    t.vfmCmd tag (t.qp (t.rd pgVFM VFM.CMD_QP_QP)).fn false (·.releaseQp tag))

/-- The pending bit of a VF's mailbox (R573). -/
def State.mbxPend (s : State) (n : Nat) (b : Bool) : State :=
  s.wr pgVFM VFM.MBX_PEND_VFS (putBit (s.rd pgVFM VFM.MBX_PEND_VFS ((n - 1) / 32)) ((n - 1) % 32) b) ((n - 1) / 32)

/-- MBX_DB.SEND of VF n (R573). -/
def State.mbxSend (s : State) (n : Nat) : State :=
  let v := s.vf n
  if v.busy then s.cnt pgVFM VFM.VFM_CNT 1
  else (((s.setVf n { v with request := v.mbxOut, busy := true }).mbxPend n true).cnt pgVFM VFM.VFM_CNT 2).raise pgVFM 0

/-- MBX_SEND (R573). -/
def execMbxSend (vf : Nat) (s : State) : Host.Outcome State Fault Refusal :=
  .next (if vf = 0 ∨ ¬ s.vfThere vf then s else s.gate pgVFM (·.mbxSend vf))

/-- VF_MBX_TAKE (R572): MBX_ACK.TAKE of VF n clears its REPLY bit. -/
def execVfMbxTake (vf : Nat) (s : State) : Host.Outcome State Fault Refusal :=
  .next (if vf = 0 ∨ ¬ s.vfThere vf then s
    else s.gate pgVFM fun (t : State) => t.setVf vf { t.vf vf with reply := false })

/-- A write into the mailbox of VF n (R572). -/
def State.mbxWrite (s : State) (n off v : Nat) : State :=
  if 0x3000 ≤ off ∧ off < 0x3020 then
    s.setVf n { s.vf n with mbxOut := lset (s.vf n).mbxOut ((off - 0x3000) / 4) v }
  else if off = 0x3020 ∧ bit v 0 then s.mbxSend n
  else if off = 0x3060 ∧ bit v 0 then s.setVf n { s.vf n with reply := false }
  else s

/-- A read of the mailbox of VF n (R572). -/
def VfState.mbxRead (v : VfState) (off : Nat) : Nat :=
  if 0x3000 ≤ off ∧ off < 0x3020 then v.mbxOut.getD ((off - 0x3000) / 4) 0
  else if off = 0x3024 then b2n v.busy + 2 * b2n v.reply
  else if 0x3040 ≤ off ∧ off < 0x3060 then v.mbxIn.getD ((off - 0x3040) / 4) 0
  else 0

/-- VFM_MBX_ACK (R574). -/
def execVfmMbxAck (tag : Nat) (s : State) : Host.Outcome State Fault Refusal :=
  .next (s.gate pgVFM fun (t : State) => t.vfmCmd tag t.cmdFn true fun (u : State) =>
    ((u.setVf u.cmdFn { u.vf u.cmdFn with busy := false }).mbxPend u.cmdFn false).vfmDone tag)

/-- MBX_REPLY (R574). -/
def State.mbxReply (s : State) (tag : Nat) : State :=
  let n := s.cmdFn
  let v := s.vf n
  if v.reply then s.vfmError tag 3
  else
    let ws := (List.range 8).map fun k => s.rd pgVFM VFM.MBX_REPLY_DATA k
    ((s.setVf n { v with mbxIn := ws, reply := true }).msix (fnOf n) v.mbxVec).vfmDone tag

/-- VFM_MBX_REPLY (R574). -/
def execVfmMbxReply (tag : Nat) (s : State) : Host.Outcome State Fault Refusal :=
  .next (s.gate pgVFM fun (t : State) => t.vfmCmd tag t.cmdFn true (·.mbxReply tag))

/-- VF_FREEZE (R600): the VF is held; the command runs until VF_FREEZE_COMPLETE. -/
def execVfFreeze (tag : Nat) (s : State) : Host.Outcome State Fault Refusal :=
  .next (s.gate pgVFM fun (t : State) => t.vfmCmd tag t.cmdFn true fun (u : State) =>
    { (u.setVf u.cmdFn { u.vf u.cmdFn with frozen := true }).resStart pgVFM VFM.VFM_RES with vfmRun := some (u.cmdFn, tag) })

/-- Fetched frames, placements and tags of a VF have ended. -/
def State.vfQuiet (s : State) (n : Nat) : Bool :=
  ((s.qpsOf n).all fun e => decide ((s.qp e.2).frames = [])) &&
    !s.tags.any fun (t : TagSlot) => decide (t.fn = fnOf n) && !t.quarantined

/-- VF_FREEZE_COMPLETE (R600). -/
def execVfFreezeComplete (s : State) : Host.Outcome State Fault Refusal :=
  .next (match s.vfmRun with
    | none => s
    | some (n, tag) => if s.live pgVFM ∧ s.vfQuiet n then { s with vfmRun := none }.vfmDone tag else s)

/-- VF_UNFREEZE (R602): the tails written meanwhile take effect by themselves. -/
def execVfUnfreeze (tag : Nat) (s : State) : Host.Outcome State Fault Refusal :=
  .next (s.gate pgVFM fun (t : State) => t.vfmCmd tag t.cmdFn true fun (u : State) =>
    if (u.vf u.cmdFn).frozen then (u.setVf u.cmdFn { u.vf u.cmdFn with frozen := false }).vfmDone tag else u.vfmError tag 6)

/-- The image record of a queue pair (R601). -/
def QPair.record (x : QPair) (i : Nat) : List Nat :=
  x.ctx ++ [x.txHead + x.txTail * 65536, x.rxHead + x.rxTail * 65536, x.cqTail,
    b2n x.txPhase + 2 * b2n x.rxPhase + 4 * b2n x.cqPhase + 8 * b2n x.arm + 16 * b2n (decide (x.state = 3)) + i % 64 * 256 +
      x.unsig % 65536 * 65536, x.cqHead, 0, 0]

/-- The image of a VF, its header with the CRC (R601). -/
def State.vfImage (s : State) (n : Nat) : List Byte × List Byte :=
  let v := s.vf n
  let l := s.qpsOf n
  let recs := leWordsToBytes (l.flatMap fun e => (s.qp e.2).record e.1)
  let f := s.fnS (fnOf n)
  let head := [0x56465331, 1 + l.length * 256, v.rate, b2n v.busy + 2 * b2n v.reply, f.pba 0, f.pba 1] ++ List.replicate 9 0
  let crc := crc32c (leWordsToBytes (head ++ [0]) ++ recs)
  (leWordsToBytes (head ++ [crc]), recs)

/-- SAVE (R601): the records, then the header. -/
def State.vfSave (s : State) (tag : Nat) : State :=
  let n := s.cmdFn
  if ¬ (s.vf n).frozen then s.vfmError tag 6
  else
    let a := s.rd pgVFM VFM.CMD_ADDR_LO + s.rd pgVFM VFM.CMD_ADDR_HI * 2 ^ 32
    let im := s.vfImage n
    ((s.post 0 (a + 64) im.2).post 0 a im.1).vfmDone tag [64 + im.2.length]

/-- VF_SAVE (R601). -/
def execVfSave (tag : Nat) (s : State) : Host.Outcome State Fault Refusal :=
  .next (s.gate pgVFM fun (t : State) => t.vfmCmd tag t.cmdFn true (·.vfSave tag))

/-- A queue pair loaded from a record (R601, R602). The record holds of the state only ERROR. -/
def QPair.load (x : QPair) (w : List Nat) : QPair :=
  let g (k lo n : Nat) : Nat := bits (w.getD k 0) lo n
  { x with ctx := w.take 9, txHead := g 9 0 16, txTail := g 9 16 16, rxHead := g 10 0 16, rxTail := g 10 16 16, cqTail := g 11 0 17
           txPhase := bit (w.getD 12 0) 0, rxPhase := bit (w.getD 12 0) 1, cqPhase := bit (w.getD 12 0) 2
           arm := bit (w.getD 12 0) 3, state := if bit (w.getD 12 0) 4 then 3 else if x.state = 3 then 1 else x.state
           unsig := g 12 16 16, cqHead := g 13 0 17 }

/-- The image of an n-queue-pair VF is sound: magic, version, count, CRC, and local indices in order (R602). -/
def imageOk (w : List Nat) (img : List Byte) (locals : List Nat) : Bool :=
  decide (w.getD 0 0 = 0x56465331) && decide (bits (w.getD 1 0) 0 8 = 1) && decide (bits (w.getD 1 0) 8 8 = locals.length % 256) &&
    decide (img.length = 64 + 64 * locals.length) && decide (w.getD 15 0 = crc32c (patch img 60 [0, 0, 0, 0])) &&
    decide (((List.range locals.length).map fun k => bits (w.getD (16 + 16 * k + 12) 0) 8 6) = locals)

/-- RESTORE (R602). -/
def State.vfRestore (s : State) (tag : Nat) (image : Option (List Byte)) : State :=
  let n := s.cmdFn
  if ¬ (s.vf n).frozen then s.vfmError tag 6
  else
    let img := image.getD []
    let w := bytesToLeWords img
    let l := s.qpsOf n
    let s0 := s.fetch 0 (s.rd pgVFM VFM.CMD_ADDR_LO + s.rd pgVFM VFM.CMD_ADDR_HI * 2 ^ 32) (64 + 64 * l.length)
    if ¬ imageOk w img (l.map (·.1)) then s0.vfmError tag 5
    else
      let s1 := s0.setVf n { s0.vf n with rate := w.getD 2 0 % 2 ^ 22, busy := bit (w.getD 3 0) 0, reply := bit (w.getD 3 0) 1 }
      let f := s1.fnS (fnOf n)
      let vecs := (List.range 64).foldl (fun (t : Tbl MsixVec) k =>
        let e := tgetD t k {}
        let p := bit (w.getD (4 + k / 32) 0) (k % 32)
        if e.pend = p then t else tset t k { e with pend := p }) f.vecs
      let s2 := s1.setFn (fnOf n) { f with vecs := vecs }
      let s3 := (List.range l.length).foldl (fun (t : State) k =>
        let p := (l.getD k (0, 0)).2
        t.setQp p ((t.qp p).load ((w.drop (16 + 16 * k)).take 16))) s2
      (s3.msixFlush (fnOf n)).vfmDone tag

/-- VF_RESTORE (R602): the image as the host returns it; none where the host fails the read. -/
def execVfRestore (tag : Nat) (image : Option (List Byte)) (s : State) : Host.Outcome State Fault Refusal :=
  .next (s.gate pgVFM fun (t : State) => t.vfmCmd tag t.cmdFn true (·.vfRestore tag image))

/-- LOG_START (R595): logging begins into buffer A. -/
def execLogStart (tag : Nat) (s : State) : Host.Outcome State Fault Refusal :=
  .next (s.gate pgVFM fun (t : State) => t.vfmCmd tag t.cmdFn true fun (u : State) =>
    (u.setVf u.cmdFn { u.vf u.cmdFn with logging := true, activeB := false, swaps := 0, dirty := [] }).vfmDone tag)

/-- LOG_SWAP and LOG_STOP (R599): the pending bits are written into the active buffer; then the other buffer becomes active, or
logging ends. While answers of the host are still to come, the command has not completed. -/
def State.logEnd (s : State) (tag : Nat) (stop : Bool) (words : List (Option Nat)) : State :=
  let n := s.cmdFn
  if ¬ (s.vf n).logging then s.vfmError tag 7
  else
    let s1 := s.logFlush n words
    let v := s1.vf n
    if ¬ v.logging then s1.vfmDone tag
    else if v.dirty ≠ [] then s1
    else if stop then (s1.setVf n { v with logging := false }).vfmDone tag
    else (s1.setVf n { v with activeB := !v.activeB, swaps := (v.swaps + 1) % 65536 }).vfmDone tag

/-- LOG_SWAP (R599). -/
def execLogSwap (tag : Nat) (logWords : List (Option Nat)) (s : State) : Host.Outcome State Fault Refusal :=
  .next (s.gate pgVFM fun (t : State) => t.vfmCmd tag t.cmdFn true (·.logEnd tag false logWords))

/-- LOG_STOP (R599). -/
def execLogStop (tag : Nat) (logWords : List (Option Nat)) (s : State) : Host.Outcome State Fault Refusal :=
  .next (s.gate pgVFM fun (t : State) => t.vfmCmd tag t.cmdFn true (·.logEnd tag true logWords))

/-- VFM_CMD ABORT (R606, R64): a FREEZE that still runs ends ABORTED, and the VF goes on. -/
def State.vfmAbort (s : State) : State :=
  match s.vfmRun with
  | some (n, tag) =>
    { s.setVf n { s.vf n with frozen := false } with vfmRun := none }.result pgVFM VFM.VFM_RES tag ABORTED
  | none => s.resLate pgVFM VFM.VFM_RES

/-- VFM_ABORT (R606). -/
def execVfmAbort (s : State) : Host.Outcome State Fault Refusal := .next (s.gate pgVFM (·.vfmAbort))

/-! ### Words of the DMA and VFM pages that act on a selected queue pair or function (R606, R608) -/

/-- A 64-bit value with its low or high word replaced. -/
def setLo (x v : Nat) : Nat := x / 2 ^ 32 * 2 ^ 32 + v
def setHi (x v : Nat) : Nat := x % 2 ^ 32 + v * 2 ^ 32

/-- A write of a VFM register that acts on the function in FN_SEL; none where the register is not one of them. A rate applies to the next
fetch (R590). -/
def State.vfmWrite (s : State) (off v : Nat) : Option State :=
  let n := s.rd pgVFM VFM.FN_SEL_FN
  let x := s.vf n
  match off with
  | 0x104 => some (s.setVf n { x with rate := v % 2 ^ 22 })
  | 0x108 => some (s.setVf n { x with mbxVec := v % 64 })
  | 0x110 => some (s.setVf n { x with logLo := setLo x.logLo (v / 4096 * 4096) })
  | 0x114 => some (s.setVf n { x with logLo := setHi x.logLo v })
  | 0x118 => some (s.setVf n { x with logPages := v % 2 ^ 28 })
  | 0x120 => some (s.setVf n { x with logA := setLo x.logA (v / 8 * 8) })
  | 0x124 => some (s.setVf n { x with logA := setHi x.logA v })
  | 0x128 => some (s.setVf n { x with logB := setLo x.logB (v / 8 * 8) })
  | 0x12C => some (s.setVf n { x with logB := setHi x.logB v })
  | _ => none

end Sys2Proof.Machine
end

