-- ==== Sys2Proof/Machine/PcieFn.lean ====
section
/-! DEFINITION. Machine/PcieFn.lean: completions, bus master enable, function resets, VF Enable and configuration requests (spec
14_host_endpoint.md, R535 to R564; 15_virtual_functions.md R591 to R594). -/

namespace Sys2Proof.Machine

/-! ### Completions and timeouts (R548, R552 to R557) -/

/-- A read of a transmit frame has ended: its bytes, and whether the host failed it. -/
def State.readEnd (s : State) (t : TagSlot) (data : List Byte) (bad : Bool) : State :=
  let x := s.qp t.qp
  s.setQp t.qp { x with frames := x.frames.map fun (f : TxFrame) =>
    if f.first = t.first then { f with parts := lset f.parts t.part (some data), bad := f.bad || bad } else f }

/-- A slot is freed. -/
def State.freeSlot (s : State) (t : TagSlot) : State := (s.setTag t.fn t.tag none).pceView

/-- A slot goes into quarantine (R554). -/
def State.quarantine (s : State) (t : TagSlot) : State :=
  (s.setTag t.fn t.tag (some { t with quarantined := true, issued := s.ticks })).pceView

/-- A late or unexpected completion (R555, R556): discarded, counted, captured, logged and reported. -/
def State.lateCompletion (s : State) (fn tag completer status : Nat) : State :=
  let s1 := s.cnt pgPCE PCE.PCE_CNT 4
  let s2 := if s1.on pgPCE PCE.UNEXP_CAP0_VALID then s1
    else s1.wrAll pgPCE 0 [(PCE.UNEXP_CAP0_REQ_ID, fn), (PCE.UNEXP_CAP0_TAG, tag), (PCE.UNEXP_CAP0_VALID, 1),
      (PCE.UNEXP_CAP1_CPL_ID, completer), (PCE.UNEXP_CAP1_STATUS, status)]
  (((s2.logAppend (pageCode .pce) 0 0 0x1001 0 (fn + tag * 65536) completer).aerUncor fn 16 true)).cause pgPCE 1

/-- A received completion (R548, R555 to R557, R559): data of a read, in address order; `poisoned` is its EP bit, `ecrc` an ECRC
error on it. -/
def State.completion (s : State) (fn tag completer status : Nat) (data : List Byte) (poisoned ecrc : Bool) : State :=
  let s1 := s.cnt pgPCE PCE.PCE_CNT 2
  match s1.tagOf fn tag with
  | none => s1.lateCompletion fn tag completer status
  | some t =>
    let got := t.got ++ data
    let whole := decide (t.len ≤ got.length)
    if t.quarantined then s1.lateCompletion fn tag completer status
    else if t.squashed then
      let s2 := s1.cnt pgPCE PCE.PCE_CNT 5
      if whole ∨ status ≠ 0 ∨ poisoned then s2.freeSlot t else s2.setTag fn tag (some { t with got := got })
    else if ecrc ∧ bit ((s1.fnS (aerFn fn)).dw 0x118) 8 then
      (((((s1.cnt pgPCE PCE.PCE_CNT 9).aerUncor fn 19 false).raise pgPCE 3).readEnd t [] true).freeSlot t)
    else if poisoned then
      (((((s1.cnt pgPCE PCE.PCE_CNT 7).aerUncor fn 12 true).raise pgPCE 2).readEnd t [] true).freeSlot t)
    else if status ≠ 0 then (s1.readEnd t [] true).freeSlot t
    else if whole then (s1.readEnd t (got.take t.len) false).freeSlot t
    else s1.setTag fn tag (some { t with got := got })

/-- PCIE_COMPLETION (R548). -/
def execPcieCompletion (fn tag completer status : Nat) (data : List Byte) (poisoned ecrc : Bool) (s : State) :
    Host.Outcome State Fault Refusal :=
  .next (s.gate pgPCE (·.completion fn tag completer (status % 8) data poisoned ecrc))

/-- The tick at which a read times out (R552, R553), and at which a squashed one reaches its shortened deadline (R560). -/
def State.timesOut (s : State) (t : TagSlot) : Bool :=
  match s.readTimeout t.fn with
  | some n => decide (t.issued + n ≤ s.ticks)
  | none => false
def State.deadlinePassed (s : State) (t : TagSlot) : Bool := s.timesOut t || decide (t.issued + ticksMs 55 ≤ s.ticks)

/-- PCIE_COMPLETION_TIMEOUT (R554): a read whose time is over ends as a host error, and its slot goes into quarantine. -/
def execPcieCompletionTimeout (fn tag : Nat) (s : State) : Host.Outcome State Fault Refusal :=
  .next (match s.tagOf fn tag with
    | none => s
    | some t =>
      if t.quarantined ∨ t.squashed ∨ ¬ s.timesOut t ∨ ¬ s.live pgPCE then s
      else (((((s.cnt pgPCE PCE.PCE_CNT 3).aerUncor fn 14 false).raise pgPCE 0).readEnd t [] true).quarantine t))

/-- FLR_DEADLINE (R560): a squashed read reaches its shortened deadline. -/
def execFlrDeadline (fn tag : Nat) (s : State) : Host.Outcome State Fault Refusal :=
  .next (match s.tagOf fn tag with
    | none => s
    | some t =>
      if t.quarantined ∨ ¬ t.squashed ∨ ¬ s.deadlinePassed t ∨ ¬ s.live pgPCE then s
      else (s.cnt pgPCE PCE.PCE_CNT 5).quarantine t)

/-! ### Bus Master Enable (R559) -/

/-- The outstanding reads of a function end at their requesters as squashed (R559). -/
def State.squash (s : State) (fn : Nat) : State :=
  let s1 := { s with tags := s.tags.map fun (t : TagSlot) =>
    if t.fn = fn ∧ ¬ t.quarantined then { t with squashed := true } else t }
  { s1 with qps := s1.qps.map fun (e : Nat × QPair) =>
    if e.2.owner.isSome ∧ fnOf e.2.fn = fn then
      (e.1, { e.2 with frames := e.2.frames.map fun (f : TxFrame) =>
        if f.done then f else { f with parts := f.parts.map fun b => some (b.getD []), squashed := true } })
    else e }

/-- Bus Master Enable of a function goes to 0 with a number of its posted writes not yet sent. -/
def State.bmeClear (s : State) (fn posted : Nat) : State :=
  let f := s.fnS fn
  (((s.setFn fn (f.setDw 4 (clrBit (f.dw 4) 2))).bump pgPCE PCE.PCE_CNT 10 10 posted).squash fn).pceView

/-- A function is present. -/
def State.fnThere (s : State) (fn : Nat) : Bool := decide (fn ≤ 1) || s.vfThere (vfOf fn)

/-- BME_CLEAR (R559). -/
def execBmeClear (fn posted : Nat) (s : State) : Host.Outcome State Fault Refusal :=
  .next (if s.fnThere fn ∧ (s.fnS fn).bme then s.gate pgPCE (·.bmeClear fn posted) else s)

/-! ### FLR, removal and link down (R561 to R564, R591 to R594) -/

/-- The queue pairs of a function enter DRAINING; frames whose reads are squashed are dropped (R591). -/
def State.drainQps (s : State) (n : Nat) : State :=
  { s with qps := s.qps.map fun (e : Nat × QPair) =>
    if e.2.owner.map (·.1) = some n then
      let cut := (e.2.frames.filter fun (f : TxFrame) => f.squashed).length
      (e.1, { e.2 with state := 2, frames := e.2.frames.filter fun (f : TxFrame) => !f.squashed
                       cnt := lset e.2.cnt 5 ((e.2.cnt.getD 5 0 + cut) % 2 ^ 64) })
    else e }

/-- The drain of a function begins: an FLR, or the removal of a VF. -/
def State.drainStart (s : State) (fn posted : Nat) (remove : Bool) : State :=
  let s1 := s.bmeClear fn posted
  let f := s1.fnS fn
  let s2 := s1.setFn fn { f with flr := some (f.flr.getD s.ticks), removing := f.removing || remove }
  (if fn = 1 then s2 else s2.drainQps (vfOf fn)).pceView

/-- VFs above a number are removed (R593). -/
def State.removeVfs (s : State) (above upto : Nat) : State :=
  ((List.range (upto - above)).map (above + 1 + ·)).foldl (fun (t : State) n => t.drainStart (fnOf n) 0 true) s

/-- A VFM command that runs for a VF whose FLR ends is ended with FN_RESET (R594). -/
def State.vfmReset (s : State) (n : Nat) : State :=
  match s.vfmRun with
  | some (k, tag) => if k = n then { s with vfmRun := none }.vfmError tag 4 else s
  | none => s

/-- An FLR begins (R561, R562): of PF0 it also clears VF Enable and so removes every VF. -/
def State.flrStart (s : State) (fn posted : Nat) : State :=
  if (s.fnS fn).flr.isSome then s
  else
    let n := s.numVfs
    let s1 := s.drainStart fn posted false
    if fn = 0 then
      let f := s1.fnS 0
      ((s1.setFn 0 (f.setDw 0x308 (clrBit (f.dw 0x308) 0))).removeVfs 0 n).pceView
    else s1

/-- FLR_START (R561). -/
def execFlrStart (fn posted : Nat) (s : State) : Host.Outcome State Fault Refusal :=
  .next (if s.fnThere fn then s.gate pgPCE (·.flrStart fn posted) else s)

/-- The queue pairs of a function after its drain (R592, R593): disabled with their contexts cleared, and unassigned after a
removal. -/
def State.resetQps (s : State) (n : Nat) (remove : Bool) : State :=
  let clear (e : Nat × QPair) : Nat × QPair :=
    if e.2.owner.map (·.1) = some n then (e.1, { cnt := e.2.cnt, owner := if remove then none else e.2.owner }) else e
  let s1 := { s with qps := s.qps.map clear }
  (s1.qpsOf n).foldl (fun (t : State) e => t.qpRunDone e.2) s1

/-- An FLR or removal ends: configuration space, MSI-X table and PBA, freeze, log and mailbox are reset; FN_RATE stays but for a
removal (R561, R592, R593). -/
def State.flrComplete (s : State) (fn start : Nat) : State :=
  let n := vfOf fn
  let rem := (s.fnS fn).removing
  let v := s.vf n
  let s1 := { s with fns := tdel s.fns fn }
  let s2 := if fn = 1 then s1
    else
      let keep : VfState := if rem then {} else { rate := v.rate, debt := v.debt, mbxVec := v.mbxVec }
      let t := ((s1.vfmReset n).setVf n keep).resetQps n rem
      if n = 0 then t else t.mbxPend n false
  ((s2.peak pgPCE PCE.FLR_MAX_US (usOf (s.ticks - start))).raise pgPCE 6).pceView

/-- A frame of the function has its data and has still to be handed to the data plane (R588, R591). -/
def State.handsOff (s : State) (fn : Nat) : Bool :=
  decide (fn ≠ 1) && (s.qpsOf (vfOf fn)).any fun e => decide ((s.qp e.2).frames ≠ [])

/-- FLR_COMPLETE (R561): every tag slot of the function has returned or reached its deadline. -/
def execFlrComplete (fn : Nat) (s : State) : Host.Outcome State Fault Refusal :=
  .next (match (s.fnS fn).flr with
    | none => s
    | some start =>
      if (s.tags.any fun (t : TagSlot) => decide (t.fn = fn) && !t.quarantined) ∨ s.handsOff fn ∨ ¬ s.live pgPCE then s
      else s.flrComplete fn start)

/-- PCIE_HOT_RESET (R564): a hot reset or a loss of the link. -/
def execPcieHotReset (s : State) : Host.Outcome State Fault Refusal :=
  .next (s.gate pgPCE fun (t : State) =>
    let t1 := (t.wr pgPCE PCE.LINK_STS_LINK_UP 0).wr pgPCE PCE.LINK_STS_L1 0
    ((t1.flrStart 0 0).flrStart 1 0).raise pgPCE 4)

/-- The endpoint is reset without waiting for tags (R564, R828): the PCE page but for SUBSYS, and the VFM, DMA and WAK pages. -/
def State.endpointReset (s : State) : State :=
  let sv := s.rd pgPCE PCE.SUBSYS_SVID
  let ss := s.rd pgPCE PCE.SUBSYS_SSID
  let s1 := (((s.clearPage pgPCE).clearPage pgVFM).clearPage pgDMA).clearPage pgWAK
  { (s1.wr pgPCE PCE.SUBSYS_SVID sv).wr pgPCE PCE.SUBSYS_SSID ss with
    fns := [], tags := [], qps := [], vfs := [], txCur := 0, qpRun := none, vfmRun := none, retraining := false, vfSince := 0 }

/-- PERST (R564, R825, R828): PERST_N is low; the endpoint is no longer released. -/
def execPerst (s : State) : Host.Outcome State Fault Refusal :=
  .next ({ s.endpointReset with perstHigh := false }.wr pgRST RST.START_STS_EP_RELEASED 0)

/-! ### VF Enable (R537, R593) -/

/-- VF Enable is set with a number of VFs (R537): above TotalVFs it stores TotalVFs. -/
def State.vfEnable (s : State) (n : Nat) : State :=
  let m := min n (if s.fabric then 0 else 1024)
  let old := s.numVfs
  let f := s.fnS 0
  let s1 := { s.setFn 0 ((f.setDw 0x308 (setBit (f.dw 0x308) 0)).setDw 0x310 m) with vfSince := s.ticks }
  (s1.removeVfs m old).pceView

/-- VF_ENABLE (R537). -/
def execVfEnable (numVfs : Nat) (s : State) : Host.Outcome State Fault Refusal :=
  .next (if (s.fnS 0).flr.isNone ∧ s.numVfs = 0 then s.gate pgPCE (·.vfEnable numVfs) else s)

/-- VFs are removed (R593): VF Enable is cleared (0 remain), or NumVFs is lowered. -/
def State.vfRemove (s : State) (n posted : Nat) : State :=
  let old := s.numVfs
  let f := s.fnS 0
  let f1 := if n = 0 then f.setDw 0x308 (clrBit (f.dw 0x308) 0) else f.setDw 0x310 n
  (((s.setFn 0 f1).bump pgPCE PCE.PCE_CNT 10 10 posted).removeVfs n old).pceView

/-- VF_REMOVE (R593). -/
def execVfRemove (numVfs posted : Nat) (s : State) : Host.Outcome State Fault Refusal :=
  .next (if numVfs < s.numVfs then s.gate pgPCE (·.vfRemove numVfs posted) else s)

/-! ### Configuration requests (R534 to R539) -/

/-- What a configuration write sets off beyond its stored bits: f is the function before it. -/
def State.cfgEffects (s : State) (fn off v : Nat) (f : PciFn) : State :=
  match off with
  | 0x04 => if f.bme ∧ ¬ (s.fnS fn).bme then s.bmeClear fn 0 else s.msixFlush fn
  | 0x44 => if bits v 0 2 = 1 ∨ bits v 0 2 = 2 then
      s.setFn fn ((s.fnS fn).setDw 0x44 (andNot ((s.fnS fn).dw 0x44) 3 + bits (f.dw 0x44) 0 2))
    else s.msixFlush fn
  | 0x50 => s.msixFlush fn
  | 0x78 => if bit v 15 then s.flrStart fn 0 else s
  | _ => s

/-- VF Enable and NumVFs as a write of the SR-IOV capability leaves them (R537, R593). -/
def State.sriovEffects (s : State) (old : Nat) : State :=
  let f := s.fnS 0
  let m := min (bits (f.dw 0x310) 0 16) (if s.fabric then 0 else 1024)
  let s1 := s.setFn 0 (f.setDw 0x310 m)
  if old < s1.numVfs then { s1 with vfSince := s.ticks } else s1.removeVfs s1.numVfs old

/-- A configuration write with byte enables. -/
def State.cfgWrite (s : State) (fn off be v : Nat) : State :=
  let en := enableMask be
  let f := s.fnS fn
  let m := andBits (s.cfgMask fn off) en
  let w := andBits v en
  let new := andNot (andNot (f.dw off) m) (andBits w (cfgClear fn off)) + andBits w m
  let s1 := s.setFn fn (f.setDw off new)
  let s2 := if fn = 0 ∧ (off = 0x308 ∨ off = 0x310) then s1.sriovEffects s.numVfs else s1.cfgEffects fn off w f
  s2.pceView

/-- A configuration request (R535, R537, R561). -/
def State.cfgRequest (s : State) (fn off be : Nat) (write : Option Nat) : State :=
  match s.cfgReady fn with
  | none => s.unsupportedReq fn false
  | some false => s.emit (.cfgRetry fn)
  | some true =>
    match write with
    | none => s.emit (.cfgData fn (s.cfgRead fn off))
    | some v => s.cfgWrite fn off be v

/-- PCIE_CONFIG_REQUEST (R535): a dword at an offset, with its byte enables for a write. -/
def execPcieConfigRequest (fn offset enables : Nat) (write : Option Nat) (s : State) : Host.Outcome State Fault Refusal :=
  .next (s.gate pgPCE (·.cfgRequest fn (offset / 4 * 4 % 4096) enables write))

end Sys2Proof.Machine
end

