-- ==== Sys2Proof/Machine/Time.lean ====
section
/-! DEFINITION. Machine/Time.lean: network time, its board connections and the timed action queue, but for what changes network
time or fires an action (spec 17_network_time.md, R656 to R688; Machine/Fire.lean holds those). -/

namespace Sys2Proof.Machine

/-! ### The counter (R656 to R658) -/

/-- What one timing clock adds to network time, in 2^-48 ns: 1.25 ns × (1 + FREQ_ADJ × 2^-16 × 10^-9), to the nearest unit
(R657; notes/assumptions/31.md). -/
def State.ntStep (s : State) : Nat :=
  let adj := signedOf 32 (s.rd pgNTM NTM.FREQ_ADJ_PPB)
  let one : Int := 65536 * 1000000000
  ((5 * (2 : Int) ^ 46 * (one + adj) + one / 2) / one).toNat

/-- Network time is valid (R664). -/
def State.ntValid (s : State) : Bool := s.on pgNTM NTM.NTM_STS_VALID

/-- VALID takes a value; the control bit follows what the hardware does to it, and a rise is a moment of R664. -/
def State.setValid (s : State) (v : Bool) : State :=
  let s1 := if v ∧ ¬ s.ntValid then { s with ntArm := s.ticks } else s
  (s1.put pgNTM NTM.NTM_STS_VALID v).put pgNTM NTM.NTM_CTL_VALID v

/-! ### Network-time commands that change nothing at once (R660) -/

/-- A pending set takes the place of any other; 0 clears it. -/
def State.ntPend (s : State) (op : Nat) : State :=
  { s.put pgNTM NTM.NTM_STS_SET_PENDING (decide (op ≠ 0)) with ntPending := op }

/-- NT_SET_AT_PPS (R660). -/
def execNtSetAtPps (s : State) : Host.Outcome State Fault Refusal := .next (s.gate pgNTM (·.ntPend 2))

/-- NT_SET_FROM_TOD (R660). -/
def execNtSetFromTod (s : State) : Host.Outcome State Fault Refusal := .next (s.gate pgNTM (·.ntPend 3))

/-- NT_CANCEL (R660). -/
def execNtCancel (s : State) : Host.Outcome State Fault Refusal := .next (s.gate pgNTM (·.ntPend 0))

/-! ### Reading the time (R685) -/

/-- The key of a time holding register: requester (0 PF1, 1 the service processor) and which read. -/
def timeKey (who : Nat) (capture : Bool) : Nat := (if who = 0 then 0 else 4) + b2n capture

/-- A read of NT_NOW_NS or PPS_CAP_NS: SEC and FRAC go to the requester's holding registers and NS is the answer. -/
def State.timeRead (s : State) (who : Nat) (capture : Bool) : State × Nat :=
  let t := if capture then s.ppsCap else s.nt
  ({ s with timeHold := tset s.timeHold (timeKey who capture) t }, t.ns)

/-- A word that a time read has latched, at offsets 0x10C to 0x114 and 0x154 to 0x15C. -/
def State.timeLatched (s : State) (who off : Nat) : Nat :=
  let now := tgetD s.timeHold (timeKey who false) {}
  let cap := tgetD s.timeHold (timeKey who true) {}
  if off = 0x10C then now.sec % 2 ^ 32 else if off = 0x110 then now.sec / 2 ^ 32 else if off = 0x114 then now.frac16
  else if off = 0x154 then cap.sec % 2 ^ 32 else if off = 0x158 then cap.frac16 else cap.sec / 2 ^ 32

/-- NT_NOW_READ (R685). -/
def execNtNowRead (who : Nat) (capture : Bool) (s : State) : Host.Outcome State Fault Refusal :=
  .next (if s.live pgNTM then
    let r := s.timeRead who capture
    r.1.emit (.readData who pgNTM (if capture then 0x150 else 0x108) r.2)
  else s)

/-! ### PPS (R664, R667, R668) -/

/-- Timing clocks in 1.1 s (R667, R685). -/
def ticks1100ms : Nat := 880000000

/-- PPS_LOSS (R667). -/
def execPpsLoss (s : State) : Host.Outcome State Fault Refusal :=
  .next (match s.ppsAt with
  | some t => if s.on pgNTM NTM.NTM_STS_PPS_SEEN ∧ t + ticks1100ms ≤ s.ticks then
      (s.wr pgNTM NTM.NTM_STS_PPS_SEEN 0).raise pgNTM 1 else s
  | none => s)

/-- The moment from which the seconds of PPS_LOSS_S count (R664). -/
def State.lossFrom (s : State) : Nat := max s.ntArm (s.ppsAt.getD 0)

/-- PPS_LOSS_INVALIDATE (R664). -/
def execPpsLossInvalidate (s : State) : Host.Outcome State Fault Refusal :=
  .next (if s.ntValid ∧ s.on pgNTM NTM.NTM_CTL_PPS_LOSS_INVAL ∧
      s.lossFrom + s.rd pgNTM NTM.PPS_LOSS_PPS_LOSS_S * 800000000 ≤ s.ticks then
    (s.setValid false).raise pgNTM 3 else s)

/-- PPS_OUT_PULSE (R668): within 2 ns of OUT_COMP ns before a wrap of NS, once for each wrap: half a second or more after the edge
before it. -/
def execPpsOutPulse (s : State) : Host.Outcome State Fault Refusal :=
  .next (
    let x := (s.nt.ns + s.rd pgNTM NTM.PPS_CFG_OUT_COMP) % 1000000000
    let w := s.rd pgNTM NTM.PPS_WIDTH_US
    let again := s.ppsOutLast.any fun t => decide (s.ticks < t + ticksMs 500)
    if s.live pgNTM ∧ s.on pgNTM NTM.NTM_CTL_PPS_OUT_EN ∧ (x ≤ 2 ∨ 999999998 ≤ x) ∧ ¬ again then
      { s.emit (.ppsOut (if w = 0 then 1 else w)) with ppsOutAt := some s.ticks, ppsOutLast := some s.ticks }
    else s)

/-! ### ToD messages (R669 to R671) -/

/-- The CRC of a ToD message (R669). -/
def todCrc (l : List Byte) : Nat := crcMsb 16 0x1021 0xFFFF l

/-- A ToD message: seconds, flags, UTC offset and clock class (R669). -/
def todBytes (sec flags utc cls : Nat) : List Byte :=
  let body := [byteOf 0xC7, byteOf 0x3A] ++ toBe 6 sec ++ [byteOf flags] ++ toBe 2 utc ++ [byteOf cls, 0, 0]
  body ++ toBe 2 (todCrc body)

/-- TOD_TX_MESSAGE (R670): 200 ms after a PPS_OUT edge, for the seconds of the next edge. The flags that no register gives
are free values (notes/assumptions/31.md). -/
def execTodTxMessage (s : State) : Host.Outcome State Fault Refusal :=
  .next (match s.ppsOutAt with
  | some t => if s.live pgNTM ∧ s.on pgNTM NTM.NTM_CTL_TOD_TX_EN ∧ t + 160000000 ≤ s.ticks then
      let (fl, s1) := s.draw 3
      { s1.emit (.tod (todBytes (s.nt.sec + 1) (b2n s.ntValid + 2 * fl) (s.rd pgNTM NTM.TOD_CFG_UTC_OFFSET)
          (s.rd pgNTM NTM.TOD_CFG_CLOCK_CLASS))) with ppsOutAt := none }
    else s
  | none => s)

/-- A message has the marker and CRC of R669 and its last byte comes 100 ms to 900 ms after a PPS_IN edge (R671). -/
def State.todGood (s : State) (l : List Byte) : Bool :=
  l.length = 16 && beAt l 0 2 = 0xC73A && beAt l 14 2 = todCrc (l.take 14) &&
  match s.ppsAt with
  | some t => decide (t + 80000000 ≤ s.ticks) && decide (s.ticks ≤ t + 720000000)
  | none => false

/-- TOD_RX_MESSAGE (R671). -/
def execTodRxMessage (bytes : List Byte) (s : State) : Host.Outcome State Fault Refusal :=
  .next (if ¬ s.live pgNTM ∨ ¬ s.on pgNTM NTM.NTM_CTL_TOD_RX_EN then s
    else if s.todGood bytes then
      let s1 := (List.range 4).foldl (fun (st : State) (k : Nat) => st.wr pgNTM NTM.TOD_RX_BYTES (beAt bytes (4 * k) 4) k) s
      { (s1.cnt pgNTM NTM.NTM_CNT 1).wr pgNTM NTM.NTM_STS_TOD_OK 1 with
        todSec := some (beAt bytes 2 6), todAt := some s.ticks }
    else (s.cnt pgNTM NTM.NTM_CNT 2).raise pgNTM 2)

/-- TOD_OK_TIMEOUT (R685). -/
def execTodOkTimeout (s : State) : Host.Outcome State Fault Refusal :=
  .next (match s.todAt with
  | some t => if t + ticks1100ms ≤ s.ticks then s.wr pgNTM NTM.NTM_STS_TOD_OK 0 else s
  | none => s)

/-! ### SyncE outputs (R672, R673) -/

/-- The lane that output k follows has CDR lock and its port, where it belongs to one, has its link up. -/
def State.synceGood (s : State) (k : Nat) : Bool :=
  let g := s.rd pgNTM NTM.SYNCE_CTL_LANE k
  s.on (lnp g) LNP.LANE_STS_CDR_LOCK (g % 16) &&
    (slotsOf g).all fun t => !s.laneOf g t || s.on (lnp t) LNP.PORT_STS_LINK_UP (t % 16)

/-- Output k carries what its registers and SQUELCHED say (R672, R673). -/
def State.syncePut (s : State) (k : Nat) : State :=
  s.emit (.synce k (s.rd pgNTM NTM.SYNCE_CTL_LANE k) (s.rd pgNTM NTM.SYNCE_CTL_DIV_LOG2 k)
    (s.on pgNTM NTM.SYNCE_CTL_EN k && !s.on pgNTM NTM.SYNCE_CTL_SQUELCHED k))

/-- SYNCE_SQUELCH (R673). -/
def execSynceSquelch (k : Nat) (s : State) : Host.Outcome State Fault Refusal :=
  .next (if k < 4 ∧ s.on pgNTM NTM.SYNCE_CTL_EN k ∧ s.on pgNTM NTM.SYNCE_CTL_SQ_EN k ∧
      ¬ s.on pgNTM NTM.SYNCE_CTL_SQUELCHED k ∧ ¬ s.synceGood k then
    ({ s with synceAt := tdel s.synceAt k }.wr pgNTM NTM.SYNCE_CTL_SQUELCHED 1 k).syncePut k |>.raise pgNTM 4 else s)

/-- A clock of the squelched outputs: since when both sources of an output are good is kept (R673). -/
def State.synceTick (s : State) : State :=
  (List.range 4).foldl (fun (t : State) k =>
    if ¬ t.on pgNTM NTM.SYNCE_CTL_SQUELCHED k ∨ ¬ t.synceGood k then { t with synceAt := tdel t.synceAt k }
    else if (tget t.synceAt k).isSome then t
    else { t with synceAt := tset t.synceAt k t.ticks }) s

/-- SYNCE_RESUME (R673): 10 ms after both have returned. -/
def execSynceResume (k : Nat) (s : State) : Host.Outcome State Fault Refusal :=
  .next (if k < 4 ∧ s.on pgNTM NTM.SYNCE_CTL_SQUELCHED k ∧ s.synceGood k ∧
      (tget s.synceAt k).any (fun t => decide (t + ticksMs 10 ≤ s.ticks)) then
    (s.wr pgNTM NTM.SYNCE_CTL_SQUELCHED 0 k).syncePut k else s)


/-- A SYNCE_CTL word as it is stored: a DIV_LOG2 outside 8 to 14 stores 9 (R685). -/
def synceWord (v : Nat) : Nat :=
  if bits v 8 4 < 8 ∨ 14 < bits v 8 4 then v - bits v 8 4 * 256 + 9 * 256 else v

/-- A write of SYNCE_CTLk (R672, R673): with EN or SQ_EN at 0 nothing squelches the output. -/
def State.synceWrite (s : State) (k v : Nat) : State :=
  let s1 := s.wrWord pgNTM k (synceWord v) [NTM.SYNCE_CTL_LANE, NTM.SYNCE_CTL_DIV_LOG2, NTM.SYNCE_CTL_EN, NTM.SYNCE_CTL_SQ_EN]
  (if bit v 12 ∧ bit v 13 then s1 else s1.wr pgNTM NTM.SYNCE_CTL_SQUELCHED 0 k).syncePut k

/-! ### The timed action queue (R674 to R687) -/

/-- Fields of an entry from its staged words (R687). -/
def TaqEntry.word (e : TaqEntry) (k : Nat) : Nat := e.raw.getD k 0
def TaqEntry.type (e : TaqEntry) : Nat := e.word 3 % 16
def TaqEntry.arg (e : TaqEntry) : Nat := e.word 3 / 65536

/-- The target of an entry in nanoseconds; FRAC plays no part (R674). -/
def TaqEntry.target (e : TaqEntry) : Nat := (e.word 1 + e.word 2 * 2 ^ 32) * 1000000000 + e.word 0

/-- Network time in whole nanoseconds. -/
def NetTime.whole (t : NetTime) : Nat := t.sec * 1000000000 + t.ns

/-- One entry fires before another: an earlier target, or the same and an earlier post (R679, R682). -/
def TaqEntry.before (a b : TaqEntry) : Bool :=
  decide (a.target < b.target) || (decide (a.target = b.target) && decide (a.order < b.order))

/-- The entry of a list that fires first. -/
def earliest : List (Nat × TaqEntry) → Option (Nat × TaqEntry)
  | [] => none
  | e :: t => match earliest t with
    | none => some e
    | some b => if b.2.before e.2 then some b else some e

/-- TAQ_STS, the NEXT registers and ENTRY_STS as the queue stands (R687). -/
def State.taqView (s : State) : State :=
  let nx := match earliest s.taq with
    | some e => (e.2.word 0, e.2.word 1)
    | none => (0, 0)
  let s1 := s.wrAll pgTAQ 0 [(TAQ.TAQ_STS_USED, s.taq.length), (TAQ.TAQ_STS_NEXT_VALID, b2n (!s.taq.isEmpty)),
    (TAQ.NEXT_NS_NS, nx.1), (TAQ.NEXT_SEC_LO_SEC, nx.2)]
  (List.range 64).foldl (fun (st : State) (i : Nat) =>
    match tget s.taq i with
    | some e => st.wrAll pgTAQ i [(TAQ.ENTRY_STS_PENDING, 1), (TAQ.ENTRY_STS_TYPE, e.type), (TAQ.ENTRY_STS_ARG, e.arg)]
    | none => st.wrAll pgTAQ i [(TAQ.ENTRY_STS_PENDING, 0), (TAQ.ENTRY_STS_TYPE, 0), (TAQ.ENTRY_STS_ARG, 0)]) s1

/-- The staged words of a post. -/
def State.taqStaged (s : State) : List Nat :=
  [s.rd pgTAQ TAQ.POST_NS_NS, s.rd pgTAQ TAQ.POST_SEC_LO_SEC, s.rd pgTAQ TAQ.POST_SEC_HI_SEC,
   s.rd pgTAQ TAQ.POST_TYPE_TYPE + s.rd pgTAQ TAQ.POST_TYPE_REJECT_LATE * 16 + s.rd pgTAQ TAQ.POST_TYPE_ARG * 65536,
   s.rd pgTAQ TAQ.POST_ADDR_ADDR, s.rd pgTAQ TAQ.POST_DATA_DATA]

/-- A refused post: counted and signalled (R687, R688). -/
def State.taqRefuse (s : State) (tag err : Nat) : State :=
  (((s.result pgTAQ TAQ.TAQ_RES tag ERROR [err]).cnt pgTAQ TAQ.TAQ_CNT 5).raise pgTAQ 2)

/-- A REG_WRITE may not name an unaligned offset or one of the pages TAQ, NTM, FWU, SEC and BON (R676). -/
def taqBadAddr (a : Nat) : Bool := decide (a % 4 ≠ 0) || [pgTAQ, pgNTM, pgFWU, pgSEC, pgBON].contains (a / 65536)

/-- POST (R676, R677). -/
def State.taqPost (s : State) (tag : Nat) : State :=
  let e : TaqEntry := { raw := s.taqStaged, order := s.taqPosts }
  let past := s.ntValid && decide (e.target ≤ s.nt.whole)
  if e.type = 7 ∧ taqBadAddr (e.word 4) then s.taqRefuse tag 3
  else if e.type = 0 ∨ 8 < e.type then s.taqRefuse tag 2
  else match (List.range 64).find? fun i => (tget s.taq i).isNone with
    | none => ((s.result pgTAQ TAQ.TAQ_RES tag FULL []).cnt pgTAQ TAQ.TAQ_CNT 4).raise pgTAQ 2
    | some i =>
      if past ∧ bit (e.word 3) 4 then s.taqRefuse tag 1
      else
        let s1 := { s with taq := tset s.taq i { e with late := past }, taqPosts := s.taqPosts + 1
                           taqFired := s.taqFired.filter fun (k : Nat) => k ≠ i }
        ((s1.taqView.result pgTAQ TAQ.TAQ_RES tag DONE [i]).cnt pgTAQ TAQ.TAQ_CNT 0)

/-- TAQ_POST (R676, R677). -/
def execTaqPost (tag : Nat) (s : State) : Host.Outcome State Fault Refusal := .next (s.gate pgTAQ (·.taqPost (tag % 256)))

/-- CANCEL (R683). -/
def State.taqCancel (s : State) (index tag : Nat) : State :=
  match tget s.taq index with
  | some _ => ((({ s with taq := tdel s.taq index }).taqView.cnt pgTAQ TAQ.TAQ_CNT 3).result pgTAQ TAQ.TAQ_RES tag DONE [])
  | none =>
    if s.taqFired.contains index then s.result pgTAQ TAQ.TAQ_RES tag DONE [] 0 true
    else s.result pgTAQ TAQ.TAQ_RES tag ERROR [4]

/-- TAQ_CANCEL (R683). -/
def execTaqCancel (index tag : Nat) (s : State) : Host.Outcome State Fault Refusal :=
  .next (s.gate pgTAQ (·.taqCancel (index % 64) (tag % 256)))

/-- READ (R687). -/
def State.taqRead (s : State) (index tag : Nat) : State :=
  match tget s.taq index with
  | some e => s.result pgTAQ TAQ.TAQ_RES tag DONE e.raw
  | none => s.result pgTAQ TAQ.TAQ_RES tag ERROR [4]

/-- TAQ_READ (R687). -/
def execTaqRead (index tag : Nat) (s : State) : Host.Outcome State Fault Refusal :=
  .next (s.gate pgTAQ (·.taqRead (index % 64) (tag % 256)))

/-- The queue discards its entries, each counted as cancelled (R684). -/
def State.taqDiscard (s : State) : State :=
  ({ s with taq := [], taqFired := [] }).taqView.bump pgTAQ TAQ.TAQ_CNT 3 3 s.taq.length

end Sys2Proof.Machine
end

