-- ==== Sys2Proof/Machine/Bonnet.lean ====
section
/-! DEFINITION. Machine/Bonnet.lean: the Bonnet settlement meter (spec 18_bonnet_metering.md, R689 to R712; R815 of
22_power_clocks_reset.md). -/

namespace Sys2Proof.Machine

/-! ### Taps and meters (R689 to R693) -/

/-- The meter that a tap entry selects for a tag (R692). -/
def tapMeter (w0 w1 tag : Nat) : Nat := (bits w1 0 16 + andBits tag (bits w0 16 16) / 2 ^ bits w0 8 4) % 65536

/-- The tag of a frame (R692): 16 bits at TAG_OFF, 0 where the frame is shorter. -/
def tapTag (w0 : Nat) (frame : List Byte) : Nat :=
  let o := bits w0 1 6
  if o + 2 ≤ frame.length then beAt frame o 2 else 0

/-- One frame of some octets added to a meter; a lost meter stays as it is (R709). -/
def State.bonMeter (s : State) (m octets : Nat) : State :=
  let v := tgetD s.bonMeters m (0, 0)
  if s.bonLost.contains m then s
  else { s with bonMeters := tset s.bonMeters m ((v.1 + 1) % 2 ^ 64, (v.2 + octets) % 2 ^ 64) }

/-- A double-bit error in a meter that is not lost yet (R709). -/
def State.bonLose (s : State) (m : Nat) : State :=
  if s.bonLost.contains m then s else
  ({ s with bonMeters := tset s.bonMeters m (2 ^ 64 - 1, 2 ^ 64 - 1), bonLost := m :: s.bonLost }.bump pgBON BON.BON_CNT 6 6 1).raise
    pgBON 3

/-- The tap of a MAC slot, direction 0 receive and 1 transmit: the frame whose bytes give the tag, and its wire octets. No tap
produces a record in fabric mode, while the Bonnet is off, or in a session whose store failed (R693, R703). -/
def State.bonTap (s : State) (slot dir : Nat) (frame : List Byte) (octets : Nat) : State :=
  match tget s.bonTaps (2 * slot + dir) with
  | some (w0, w1) =>
    if ¬ s.live pgBON ∨ s.fabric ∨ s.bonBad ∨ ¬ bit w0 0 then s
    else (s.bonMeter (tapMeter w0 w1 (tapTag w0 frame)) octets).cnt pgBON BON.BON_CNT (3 + dir)
  | none => s

/-- A stomped transmit frame (R690). -/
def State.bonStomp (s : State) : State :=
  if ¬ s.live pgBON ∨ s.fabric ∨ s.bonBad then s
  else ({ s with bonStomped := (s.bonStomped + 1) % 2 ^ 32 }).cnt pgBON BON.BON_CNT 5

/-! ### Images and records (R705, R708) -/

/-- The configuration image of 4,104 bytes. -/
def State.bonConfig (s : State) : List Byte :=
  ((List.range 512).flatMap fun e =>
    let t := tgetD s.bonTaps e (0, 0)
    toLe 4 t.1 ++ toLe 4 t.2) ++ toLe 4 s.bonInterval ++ toLe 4 0

/-- The latched image of 1 MiB. -/
def State.bonImageBytes (s : State) : List Byte :=
  (List.range 65536).flatMap fun m =>
    let v := if s.bonImageBad then (2 ^ 64 - 1, 2 ^ 64 - 1) else tgetD s.bonImage m (0, 0)
    toLe 8 v.1 ++ toLe 8 v.2

/-- CHANGE_ATTEMPTS and FACTORY_EVENTS. -/
def State.bonChanges (s : State) : Nat := s.rd pgBON BON.CHANGE_ATT_COUNT
def State.bonFactory (s : State) : Nat := s.rd pgBON BON.FACTORY_EV_COUNT

/-- The device serial number, eight bytes. -/
def State.serialBytes (s : State) : List Byte :=
  toBe 4 (s.rd pgCRWN CRWN.DEV_SERIAL_HI_SERIAL) ++ toBe 4 (s.rd pgCRWN CRWN.DEV_SERIAL_LO_SERIAL)

/-- FLAGS of a record header (R708). -/
def State.bonFlags (s : State) : Nat :=
  b2n s.ntValid + 2 * s.rd pgBON BON.BON_STS_SEALED + 4 * b2n (decide (s.bonSeen.1 < s.bonChanges)) +
    8 * b2n (decide (s.bonSeen.2 < s.bonFactory)) + 16 * b2n s.bonStepped

/-- The header of a report over the image latched in this state (R708). -/
def State.bonHeader (s : State) (trigger tag : Nat) : List Byte :=
  toBe 4 0x424F4E31 ++ toBe 2 1 ++ toBe 2 s.bonFlags ++ s.serialBytes ++
  toBe 4 (s.rd pgBON BON.SESSION_HI_ID) ++ toBe 4 (s.rd pgBON BON.SESSION_LO_ID) ++ toBe 4 s.bonSeq ++
  [byteOf trigger, byteOf tag, 0, 0] ++ toBe 6 s.nt.sec ++ toBe 4 s.nt.ns ++ toBe 6 0 ++
  toBe 4 s.bonChanges ++ toBe 4 s.bonFactory ++ toBe 4 s.bonStomped ++ toBe 4 (if s.bonImageBad then 65536 else s.bonLost.length) ++
  Config.sha256 s.bonImageBytes ++ Config.sha256 s.bonConfig

/-- Requests of one clock are one report: the lowest of their TRIGGER codes goes into its header, with the TAG of that request (R704). -/
def State.bonJoin (s : State) (trigger tag : Nat) : State :=
  { s with bonReport := s.bonReport.map fun h => if trigger < beAt h 28 1 then patch h 28 [byteOf trigger, byteOf tag] else h }

/-- A request for a report (R704 to R706): it joins one of the same clock, is refused and counted while one of an earlier clock is in
progress, and otherwise latches the image. The truth value says whether it was accepted. -/
def State.bonRequest (s : State) (trigger tag : Nat) : State × Bool :=
  if s.bonReport.isSome ∧ s.bonAsked = some s.ticks then (s.bonJoin trigger tag, true)
  else if s.bonReport.isSome then ((s.cnt pgBON BON.BON_CNT 1).raise pgBON 1, false)
  else
    let s1 := { s with bonImage := s.bonMeters, bonImageBad := s.bonBad }
    ({ s1.wr pgBON BON.BON_STS_BUSY 1 with
        bonReport := some (s1.bonHeader trigger tag), bonAsked := some s.ticks, bonSeen := (s.bonChanges, s.bonFactory), bonStepped := false }, true)

/-- BON_REPORT_COMPLETE (R706): the signed record goes into the ring. -/
def execBonReportComplete (s : State) : Host.Outcome State Fault Refusal :=
  .next (match s.bonReport with
  | some h => if s.live pgBON then
      let s1 := { s with bonRing := tset s.bonRing (s.bonSeq % 256) (h ++ Config.rsaSign 0 h), bonReport := none
                         bonSeq := (s.bonSeq + 1) % 2 ^ 32 }
      (((s1.wr pgBON BON.LAST_SEQ_SEQ s.bonSeq).wr pgBON BON.BON_STS_BUSY 0).cnt pgBON BON.BON_CNT 0).raise pgBON 0
    else s
  | none => s)

/-- BON_INTERVAL_REPORT (R704): at a wrap of NS to 0, which the clock meets within one tick of 1.25 ns. -/
def execBonIntervalReport (s : State) : Host.Outcome State Fault Refusal :=
  .next (if s.live pgBON ∧ s.bonInterval ≠ 0 ∧ s.nt.sec % s.bonInterval = 0 ∧ s.nt.ns ≤ 1 then (s.bonRequest 4 0).1 else s)

/-! ### The mailbox (R694 to R698) -/

/-- ARGk of the mailbox. -/
def State.bonArg (s : State) (k : Nat) : Nat := s.rd pgBON BON.MBX_ARG_ARG k

/-- The result of a mailbox command. -/
def State.bonDone (s : State) (tag : Nat) : State := s.result pgBON BON.MBX_RES tag DONE
def State.bonError (s : State) (tag err : Nat) : State := s.result pgBON BON.MBX_RES tag ERROR [err]

/-- The Bonnet is sealed. -/
def State.bonSealed (s : State) : Bool := s.on pgBON BON.BON_STS_SEALED

/-- A configuration access after sealing (R698). -/
def State.bonAttempt (s : State) : State := ((s.inc pgBON BON.CHANGE_ATT_COUNT).cnt pgBON BON.BON_CNT 2).raise pgBON 2

/-- BON_REPORT_NOW (R704, R706): DONE when the request is accepted (notes/assumptions/32.md). -/
def execBonReportNow (tag : Nat) (s : State) : Host.Outcome State Fault Refusal :=
  .next (s.gate pgBON fun st =>
    let r := st.bonRequest 3 (st.bonArg 0 % 256)
    if r.2 then r.1.bonDone tag else r.1.bonError tag 3)

/-- BON_SELECT_WIN (R694, R710). -/
def execBonSelectWin (tag : Nat) (s : State) : Host.Outcome State Fault Refusal :=
  .next (s.gate pgBON fun st =>
    let a := st.bonArg 0
    if 34 < bits a 0 6 then st.bonError tag 1
    else ((st.wrAll pgBON 0 [(BON.WIN_STS_PAGE, bits a 0 6), (BON.WIN_STS_RING_IDX, bits a 8 8)]).cnt pgBON BON.BON_CNT 7).bonDone
      tag)

/-- The bits that a tap entry's first word holds. -/
def tapWord0 (w : Nat) : Nat := bits w 0 7 + bits w 8 4 * 256 + bits w 16 16 * 65536

/-- BON_CFG_TAP (R695, R698). -/
def execBonCfgTap (tag : Nat) (s : State) : Host.Outcome State Fault Refusal :=
  .next (s.gate pgBON fun st =>
    let e := bits (st.bonArg 0) 0 10
    if st.bonSealed then st.bonAttempt.bonError tag 2
    else if 512 ≤ e then st.bonError tag 1
    else ({ st with bonTaps := tset st.bonTaps e (tapWord0 (st.bonArg 1), bits (st.bonArg 2) 0 16) }).bonDone tag)

/-- BON_CFG_REPORT (R694, R695, R698). -/
def execBonCfgReport (tag : Nat) (s : State) : Host.Outcome State Fault Refusal :=
  .next (s.gate pgBON fun st =>
    let v := st.bonArg 0
    if st.bonSealed then st.bonAttempt.bonError tag 2
    else if v ≠ 0 ∧ (v < 60 ∨ 86400 < v) then st.bonError tag 1
    else ({ st with bonInterval := v }).bonDone tag)

/-- BON_SEAL (R697). -/
def execBonSeal (tag : Nat) (s : State) : Host.Outcome State Fault Refusal :=
  .next (s.gate pgBON fun st =>
    if st.bonArg 0 ≠ 0x5345414C ∨ st.bonArg 1 ≠ st.rd pgCRWN CRWN.DEV_SERIAL_LO_SERIAL then st.bonError tag 1
    else if st.bonSealed then st.bonError tag 4
    else if ¬ st.ntValid then st.bonError tag 5
    else (((st.wr pgBON BON.BON_STS_SEALED 1).bonDone tag).bonRequest 1 0).1)

/-- BON_CHANGE_ATTEMPT (R698): an access through JTAG or the service processors' internal paths. -/
def execBonChangeAttempt (s : State) : Host.Outcome State Fault Refusal :=
  .next (if s.live pgBON ∧ s.bonSealed then s.bonAttempt else s)

/-! ### The rail (R702, R703, R815) -/

/-- The BON page at its reset values, but for the fuse-backed fields. -/
def State.bonPage (s : State) : State :=
  (s.clearPage pgBON).wrAll pgBON 0 [(BON.BON_STS_SEALED, s.rd pgBON BON.BON_STS_SEALED),
    (BON.CHANGE_ATT_COUNT, s.bonChanges), (BON.FACTORY_EV_COUNT, s.bonFactory)]

/-- The meters, the image and the ring are gone. -/
def State.bonClear (s : State) : State :=
  { s.bonPage with bonMeters := [], bonImage := [], bonImageBad := false, bonSeq := 0, bonReport := none, bonAsked := none, bonRing := []
                   bonStomped := 0, bonBad := false, bonLost := [] }

/-- BON_VDD is in regulation or not: PD21, RAIL_STS and the lock of the Bonnet's PLL follow it (R806, R818, R835). -/
def State.bonRail (s : State) (up : Bool) : State :=
  ((s.put pgPWR PWR.DOM_STS_POWERED up 21).wr pgPWR PWR.RAIL_STS_IN_REG (putBit (s.rd pgPWR PWR.RAIL_STS_IN_REG) 7 up)).wr pgCLK
    CLK.PLL_STS_LOCKED (putBit (s.rd pgCLK CLK.PLL_STS_LOCKED) 7 up)

/-- BON_POWER_UP (R702, R703). -/
def execBonPowerUp (storeGood : Bool) (s : State) : Host.Outcome State Fault Refusal :=
  .next (if s.domOn 21 then s else
    let s1 := ((s.bonClear.bonRail true).wrFree pgBON BON.SESSION_LO_ID).wrFree pgBON BON.SESSION_HI_ID
    if ¬ s.bonSealed then { s1 with bonTaps := [], bonInterval := 900 }
    else if storeGood then s1
    else ((({ s1 with bonBad := true }).inc pgBON BON.CHANGE_ATT_COUNT).bump pgBON BON.BON_CNT 6 6 65536).raise pgBON 3)

/-- BON_VDD_LOSS (R815). -/
def execBonVddLoss (s : State) : Host.Outcome State Fault Refusal :=
  .next (if s.domOn 21 then s.bonClear.bonRail false else s)

/-! ### The window (R710) -/

/-- A word of the window, at offsets from 0x8000. -/
def State.bonWindow (s : State) (off : Nat) : Nat :=
  let pg := s.rd pgBON BON.WIN_STS_PAGE
  if pg < 32 then
    let b := 32768 * pg + off
    let v := if s.bonImageBad then (2 ^ 64 - 1, 2 ^ 64 - 1) else tgetD s.bonImage (b / 16) (0, 0)
    let h := if b % 16 < 8 then v.1 else v.2
    if b % 8 < 4 then h % 2 ^ 32 else h / 2 ^ 32
  else if pg = 32 then
    if off < 512 then beAt (tgetD s.bonRing (s.rd pgBON BON.WIN_STS_RING_IDX) []) off 4 else 0
  else if pg = 33 then
    if off = 0 then (Config.certificate 0).length else beNat ((slice (Config.certificate 0 ++ [0, 0, 0]) (off - 4) 4))
  else leNat (slice s.bonConfig off 4)

end Sys2Proof.Machine
end

