-- ==== Sys2Proof/Machine/Sp.lean ====
section
/-! DEFINITION. Machine/Sp.lean: the service processors and the interlock (spec 19_service_processors.md, R713 to R731). SP-A is
processor 0 and SP-B processor 1. -/

namespace Sys2Proof.Machine

/-! ### Roles (R716) -/

def spOff : Nat := 0
def spBoot : Nat := 1
def spSync : Nat := 2
def spStandby : Nat := 3
def spActive : Nat := 4
def spHeld : Nat := 5

/-- The page of a processor and the other processor. -/
def spPage (k : Nat) : Nat := if k = 0 then pgSPA else pgSPB
def spOther (k : Nat) : Nat := if k = 0 then 1 else 0

/-- The fields of IL_STS that belong to a processor. -/
def ilRole (k : Nat) : Fld := if k = 0 then SPA.IL_STS_ROLE_A else SPA.IL_STS_ROLE_B
def ilHealthy (k : Nat) : Fld := if k = 0 then SPA.IL_STS_HEALTHY_A else SPA.IL_STS_HEALTHY_B

/-- The role of a processor, and what the model holds of it. -/
def State.role (s : State) (k : Nat) : Nat := s.rd pgSPA (ilRole k)
def State.sp (s : State) (k : Nat) : SpState := tgetD s.sps k {}
def State.setSp (s : State) (k : Nat) (x : SpState) : State := { s with sps := tset s.sps k x }

/-- The processor that holds the grant. -/
def State.active (s : State) : Option Nat :=
  if s.role 0 = spActive then some 0 else if s.role 1 = spActive then some 1 else none

/-- A processor enters a role: both status registers follow, and HEALTHY reads 0 outside SYNC and STANDBY (R728). -/
def State.setRole (s : State) (k r : Nat) : State :=
  let s1 := (s.wr pgSPA (ilRole k) r).wrAll (spPage k) 0 [(SPA.SP_STS_ROLE, r), (SPA.SP_STS_GRANT, b2n (decide (r = spActive)))]
  if r = spSync ∨ r = spStandby then s1 else s1.wr pgSPA (ilHealthy k) 0

/-- A processor is released to boot (R716): its image is not chosen yet and its Gauntlet has run no step. -/
def State.spRelease (s : State) (k : Nat) : State := (s.setRole k spBoot).setSp k {}

/-- A processor's domain goes off (R716, R809). -/
def State.spPowerOff (s : State) (k : Nat) : State := (s.setRole k spOff).setSp k {}

/-! ### The grant (R716, R722) -/

/-- The time a newly granted processor has for TAKEOVER_DONE, in timing clocks (R722); none where no gap runs. -/
def State.takeoverTime (s : State) : Option Nat :=
  if s.firstGrant then some (ticksMs 10000) else if s.on pgSPA SPA.IL_STS_SWITCHING then some (ticksMs 10) else none

/-- The interlock grants to a processor; the line of the new active one is raised where a summary asks for it (R72). -/
def State.spGrant (s : State) (k : Nat) : State :=
  let s1 := ((s.setRole k spActive).wr pgSPA SPA.IL_STS_NO_ACTIVE 0)
  let s2 := { s1 with hbAt := s.ticks, takeoverBy := s.takeoverTime.map fun (n : Nat) => s.ticks + n, firstGrant := false
                      takenOver := false, noActiveAt := none }
  if s2.spAsks then s2.spSignal else s2

/-- SP_GRANT_REQUEST (R716). -/
def execSpGrantRequest (sp : Nat) (s : State) : Host.Outcome State Fault Refusal :=
  .next (if sp < 2 ∧ s.role sp = spBoot ∧ (s.sp sp).booted then
    match s.active with
    | none => s.spGrant sp
    | some _ => s.setRole sp spSync
  else s)

/-! ### Heartbeats, revocation and switchover (R717 to R723) -/

/-- SP_HEARTBEAT (R717). -/
def execSpHeartbeat (sp : Nat) (s : State) : Host.Outcome State Fault Refusal :=
  .next (if sp < 2 then s.gate (spPage sp) fun st =>
    if st.role sp = spActive then
      { st.cnt (spPage sp) SPA.SP_CNT 0 with hbAt := st.ticks, hbNs := st.nt.ns, hbSeen := true }
    else st.cnt (spPage sp) SPA.SP_CNT 5
  else s)

/-- The gap begins: both OUT_HOLD bits and SWITCHING are set (R718, R747). -/
def State.gapStart (s : State) (start : Nat) : State :=
  let s1 := s.wrAll pgSPA 0 [(SPA.IL_STS_SWITCHING, 1), (SPA.IL_STS_OUT_HOLD, 1)]
  { s1.cagesHold with gapFrom := if s.gapFrom.isSome then s.gapFrom else some start }

/-- The grant of a processor is revoked (R718): it is held in reset, the outputs hold, and SW_LAST, SW_NT, cause 0 and the log
record it. -/
def State.spRevoke (s : State) (k cause start : Nat) : State :=
  let s1 := ((s.setRole k spHeld).setSp k {}).gapStart start
  let s2 := s1.wrAll pgSPA 0 [(SPA.SW_LAST_CAUSE, cause), (SPA.SW_NT_NS_NS, s.nt.ns), (SPA.SW_NT_SEC_SEC, s.nt.sec % 2 ^ 32)]
  let s3 := { s2.incSat pgSPA SPA.SWITCH_CNT_COUNT with takeoverBy := none }
  (s3.raise pgSPA 0).logAppend (pageCode .spa) 0 0 0x1002 0 cause s.hbNs

/-- Held processors count their 1 ms from now (R718). -/
def State.heldCount (s : State) : State :=
  [0, 1].foldl (fun (st : State) (k : Nat) =>
    if st.role k = spHeld ∧ (st.sp k).heldAt.isNone then st.setSp k { st.sp k with heldAt := some st.ticks } else st) s

/-- No processor holds the grant (R719). -/
def State.noActive (s : State) : State :=
  let s1 := { s.wr pgSPA SPA.IL_STS_NO_ACTIVE 1 with noActiveAt := some s.ticks }
  ((s1.raise pgSPA 1).raise pgCRWN 2).heldCount

/-- Processor k is a healthy standby: in STANDBY, with a health word of HEALTHY = 1 posted within 300 ms (R719). -/
def State.spHealthy (s : State) (k : Nat) : Bool :=
  s.role k = spStandby && match (s.sp k).healthyAt with
  | some t => decide (s.ticks ≤ t + ticksMs 300)
  | none => false

/-- The grant passes to the standby, and TO_B says which it is. -/
def State.spPass (s : State) (k : Nat) : State := (s.put pgSPA SPA.SW_LAST_TO_B (decide (k = 1))).spGrant k

/-- SP_HEARTBEAT_TIMEOUT (R718, R719). -/
def execSpHeartbeatTimeout (s : State) : Host.Outcome State Fault Refusal :=
  .next (match s.active with
  | some k =>
    if s.hbAt + ticksMs 10 ≤ s.ticks then
      let s1 := s.spRevoke k 1 s.hbAt
      if s.spHealthy (spOther k) then s1.spPass (spOther k)
      else (s1.wr pgSPA SPA.SW_LAST_CAUSE 4).noActive
    else s
  | none => s)

/-- A processor command ends ERROR (R730, R731). -/
def State.spError (s : State) (tag err : Nat) : State := (s.result pgSPA SPA.SP_RES tag ERROR [err]).raise pgSPA 7

/-- SP_SWITCHOVER (R720, R723). -/
def State.switchover (s : State) (tag : Nat) : State :=
  if s.on pgSPA SPA.IL_STS_SWITCHING then s.spError tag 1
  else match s.active with
  | some k =>
    if s.spHealthy (spOther k) then ((s.spRevoke k 2 s.ticks).spPass (spOther k)).result pgSPA SPA.SP_RES tag DONE
    else s.spError tag 2
  | none => s.spError tag 2

/-- SP_SWITCHOVER (R720, R723). -/
def execSpSwitchover (tag : Nat) (s : State) : Host.Outcome State Fault Refusal :=
  .next (s.gate pgSPA (·.switchover (tag % 256)))

/-- A processor that RESTART_STANDBY can restart. -/
def State.spWaits (s : State) (k : Nat) : Bool := s.role k = spSync || s.role k = spStandby

/-- RESTART_STANDBY (R716, R730). -/
def State.restartStandby (s : State) (tag : Nat) : State :=
  if s.spWaits 0 ∨ s.spWaits 1 then
    ([0, 1].foldl (fun (st : State) (k : Nat) =>
      if s.spWaits k then (st.setRole k spHeld).setSp k { heldAt := some s.ticks, restarted := true } else st) s).result
        pgSPA SPA.SP_RES tag DONE
  else s.spError tag 3

/-- SP_RESTART_STANDBY (R730). -/
def execSpRestartStandby (tag : Nat) (s : State) : Host.Outcome State Fault Refusal :=
  .next (s.gate pgSPA (·.restartStandby (tag % 256)))

/-- A held processor whose 1 ms is over is released to BOOT. -/
def State.heldRelease (s : State) (k : Nat) (restarted : Bool) : State :=
  match (s.sp k).heldAt with
  | some t => if k < 2 ∧ s.role k = spHeld ∧ (s.sp k).restarted = restarted ∧ t + ticksMs 1 ≤ s.ticks then s.spRelease k else s
  | none => s

/-- SP_RESTART_RELEASE (R716). -/
def execSpRestartRelease (sp : Nat) (s : State) : Host.Outcome State Fault Refusal := .next (s.heldRelease sp true)

/-- SP_HELD_RELEASE (R718). -/
def execSpHeldRelease (sp : Nat) (s : State) : Host.Outcome State Fault Refusal := .next (s.heldRelease sp false)

/-- The duty in percent of fan output k where it is driven (R724, R725). -/
def State.fanOut (s : State) (k : Nat) : Option Nat :=
  if s.on pgSPA SPA.FAN_DUTY_EN k then
    some (if s.failsafe then s.rd pgSPA SPA.FAN_CFG_FAILSAFE_DUTY else s.rd pgSPA SPA.FAN_DUTY_PCT k)
  else none

/-- Fan output k, and all four, run as their registers say. -/
def State.fanPut (s : State) (k : Nat) : State := s.emit (.fan k ((s.fanOut k).map fun d => (s.rd pgSPA SPA.FAN_CFG_PWM_HZ, d)))
def State.fansPut (s : State) : State := (List.range 4).foldl (fun (t : State) k => t.fanPut k) s

/-- The GPIO pins are driven as their registers say. -/
def State.gpioPut (s : State) : State := s.emit (.gpio (s.rd pgSPA SPA.GPIO_OUT_OUT) (s.rd pgSPA SPA.GPIO_OE_OE))

/-- The gap in microseconds, saturating (R721). -/
def State.gapUs (s : State) : Nat :=
  match s.gapFrom with
  | some t => min (usOf (s.ticks - t)) 0xFFFF
  | none => 0

/-- A takeover completes (R721): both OUT_HOLD bits clear, held cage changes are applied, the gap is recorded. -/
def State.takeover (s : State) (k : Nat) : State :=
  let g := s.gapUs
  let s1 := s.wrAll pgSPA 0 [(SPA.IL_STS_SWITCHING, 0), (SPA.IL_STS_OUT_HOLD, 0), (SPA.IL_STS_NO_ACTIVE, 0), (SPA.GAP_LAST_US, g)]
  let s2 := { s1.peak pgSPA SPA.GAP_MAX_US g with gapFrom := none, takeoverBy := none, noActiveAt := none, failsafe := false }
  let s2 := if s.failsafe then s2.fansPut else s2
  let s3 := if s2.live pgCAGE then s2.cagesRelease else s2
  s3.heldCount.logAppend (pageCode (if k = 0 then .spa else .spb)) 0 (1 + k) 0x2001 0 g (s.role (spOther k))

/-- SP_TAKEOVER_TIMEOUT (R722). -/
def execSpTakeoverTimeout (s : State) : Host.Outcome State Fault Refusal :=
  .next (match s.takeoverBy, s.active with
  | some t, some k => if t ≤ s.ticks then (s.spRevoke k 3 s.ticks).noActive else s
  | _, _ => s)

/-! ### The Gauntlet and the health word (R727 to R729) -/

/-- SP_SYNC_COMPLETE (R716, R729): the state copy is complete, and so is the first Gauntlet pass. -/
def execSpSyncComplete (sp : Nat) (s : State) : Host.Outcome State Fault Refusal :=
  .next (if sp < 2 ∧ s.role sp = spSync ∧ 1 ≤ (s.sp sp).passes then s.setRole sp spStandby else s)

/-- The health word of a post (R727). -/
def State.healthWord (s : State) (k : Nat) : Nat :=
  let x := s.sp k
  (s.rd (spPage k) SPA.HEALTH_WORD + 1) % 256 + (x.passes % 256) * 2 ^ 8 + x.step * 2 ^ 16 + x.okBits * 2 ^ 20 +
    b2n (decide (x.okBits = 0x1FF)) * 2 ^ 31

/-- HEALTHY of a processor falls: SPA cause bit 2 (R728). -/
def State.healthyTo (s : State) (k : Nat) (v : Bool) : State :=
  (s.put pgSPA (ilHealthy k) v).raiseIf (s.on pgSPA (ilHealthy k) && !v) pgSPA 2

/-- SP_HEALTH_POST (R727, R728). -/
def execSpHealthPost (sp : Nat) (s : State) : Host.Outcome State Fault Refusal :=
  .next (if sp < 2 ∧ s.live (spPage sp) ∧ s.spWaits sp then
    let x := s.sp sp
    let h := decide (x.okBits = 0x1FF)
    let s1 := (s.wr (spPage sp) SPA.HEALTH_WORD (s.healthWord sp)).cnt (spPage sp) SPA.SP_CNT 1
    (s1.setSp sp { x with postAt := some s.ticks, healthyAt := if h then some s.ticks else x.healthyAt }).healthyTo sp h
  else s)

/-- SP_HEALTH_STALE (R728). -/
def execSpHealthStale (sp : Nat) (s : State) : Host.Outcome State Fault Refusal :=
  .next (match (s.sp sp).postAt with
  | some t => if sp < 2 ∧ s.spWaits sp ∧ t + ticksMs 300 ≤ s.ticks then s.healthyTo sp false else s
  | none => s)

/-- The next Gauntlet step; the ninth ends a full pass (R727). -/
def SpState.advance (x : SpState) : SpState :=
  if x.step < 9 then { x with step := x.step + 1 } else { x with step := 1, passes := x.passes + 1 }

/-- GAUNTLET_STEP (R728): the running step ends with its result. During a switchover gap the Gauntlet stops (R34). -/
def execGauntletStep (sp : Nat) (passed : Bool) (s : State) : Host.Outcome State Fault Refusal :=
  .next (if sp < 2 ∧ s.live (spPage sp) ∧ s.spWaits sp ∧ ¬ s.on pgSPA SPA.IL_STS_SWITCHING then
    let x := s.sp sp
    let p := spPage sp
    let s1 := s.setSp sp ({ x with okBits := putBit x.okBits (x.step - 1) passed }).advance
    let s2 := if x.step = 9 then s1.cnt p SPA.SP_CNT 2 else s1
    if passed then s2
    else ((s2.cnt p SPA.SP_CNT 3).raise p 3).logAppend (pageCode (if sp = 0 then .spa else .spb)) 0 (1 + sp) 0x2002 0 x.step
      (s.rd p SPA.HEALTH_WORD)
  else s)

/-! ### Outputs (R724, R725) -/

/-- FAILSAFE_FAN (R725); FAILSAFE_S of 0 is treated as 1. -/
def execFailsafeFan (s : State) : Host.Outcome State Fault Refusal :=
  .next (match s.noActiveAt with
  | some t =>
    let n := s.rd pgSPA SPA.FAN_CFG_FAILSAFE_S
    if t + ticksMs (1000 * max n 1) ≤ s.ticks ∧ ¬ s.failsafe then { s with failsafe := true }.fansPut else s
  | none => s)

/-- A write of an output register (FAN_DUTYk, GPIO_OUT, GPIO_OE) is refused while OUT_HOLD is 1 (R724). -/
def State.outRefused (s : State) : State := (s.inc pgSPA SPA.OUT_REFUSED_COUNT).raise pgSPA 5

/-- Writes of the output registers; while OUT_HOLD is 1 they are refused (R724). -/
def State.fanDutyWrite (s : State) (k v : Nat) : State :=
  if s.on pgSPA SPA.IL_STS_OUT_HOLD then s.outRefused
  else ((s.wr pgSPA SPA.FAN_DUTY_PCT (min 100 (bits v 0 8)) k).put pgSPA SPA.FAN_DUTY_EN (bit v 16) k).fanPut k
def State.gpioWrite (s : State) (f : Fld) (v : Nat) : State :=
  if s.on pgSPA SPA.IL_STS_OUT_HOLD then s.outRefused else (s.wr pgSPA f v).gpioPut

/-- A write of FAN_CFG (R725, R730). -/
def State.fanCfgWrite (s : State) (v : Nat) : State :=
  (s.wrWord pgSPA 0 v [SPA.FAN_CFG_PWM_HZ, SPA.FAN_CFG_FAILSAFE_DUTY, SPA.FAN_CFG_FAILSAFE_S]).fansPut

/-- A requester, 0 PF1, 1 SP-A, 2 SP-B, may write offset off of page p (R714, R715). -/
def State.mayWrite (s : State) (who p off : Nat) : Bool :=
  who = 0 || s.role (who - 1) = spActive || (p = spPage (who - 1) && decide (0x100 ≤ off) && decide (off < 0x200))

/-- A write refused for want of the grant (R715). -/
def State.spRefusedWrite (s : State) (who : Nat) : State := (s.cnt (spPage (who - 1)) SPA.SP_CNT 4).raise (spPage (who - 1)) 4

/-- Both processors are restarted, as by an activation or a fallback (R747, R750). -/
def State.spRestartBoth (s : State) : State :=
  let s1 := [0, 1].foldl (fun (st : State) (k : Nat) => if st.role k = spOff then st else st.spRelease k) s
  { s1.gapStart s.ticks with firstGrant := true, takeoverBy := none, takenOver := false }

end Sys2Proof.Machine
end

