-- ==== Sys2Proof/Machine/Fw.lean ====
section
/-! DEFINITION. Machine/Fw.lean: flash, images, configuration banks, activation and trial, and the SEC page (spec
20_firmware_security.md, R732 to R762). -/

namespace Sys2Proof.Machine

/-! ### Flash (R732) -/

/-- A byte of the flash. -/
def State.flashAt (s : State) (off : Nat) : Byte := tgetD s.flash off (Config.flashByte off)

/-- n bytes of the flash, and the big-endian number they spell. -/
def State.flashBytes (s : State) (off n : Nat) : List Byte := (List.range n).map fun k => s.flashAt (off + k)
def State.flashBe (s : State) (off n : Nat) : Nat := beNat (s.flashBytes off n)

/-- Bytes written into a flash image. -/
def flashPut (t : Tbl Byte) : (off : Nat) → List Byte → Tbl Byte
  | _, [] => t
  | off, b :: bs => flashPut (tset t off b) (off + 1) bs

/-- Bytes written to the flash. -/
def State.flashWrite (s : State) (off : Nat) (l : List Byte) : State := { s with flash := flashPut s.flash off l }

/-- Where slot n lies, 0 A, 1 B, 2 recovery, its size, and the longest body it takes (R732, R734). -/
def slotBase (n : Nat) : Nat := if n = 0 then 0x00400000 else if n = 1 then 0x01C00000 else 0x03400000
def slotSize (n : Nat) : Nat := if n = 2 then 0x00800000 else 0x01800000
def slotBody (n : Nat) : Nat := if n = 2 then 0x00800000 else 0x01000000

/-- Where a configuration bank lies. -/
def bankBase (b : Nat) : Nat := if b = 0 then 0x00100000 else 0x00200000

/-! ### Boot records (R733) -/

/-- The fields of a boot record. -/
structure BootRec where
  seq : Nat := 0
  active : Nat := 0
  prev : Nat := 1
  trial : Nat := 0
  boots : Nat := 0
  bank : Nat := 0
  prevBank : Nat := 0
  deriving DecidableEq, Repr

/-- Bytes 0 to 27 of a boot record. -/
def BootRec.body (r : BootRec) : List Byte :=
  toBe 4 0x42524543 ++ toBe 4 r.seq ++
    [byteOf r.active, byteOf r.prev, byteOf r.trial, byteOf r.boots, byteOf r.bank, byteOf r.prevBank] ++ List.replicate 14 0

/-- A boot record as it lies in flash. -/
def BootRec.bytes (r : BootRec) : List Byte := r.body ++ toBe 4 (crc32c r.body)

/-- Copy c of the boot record, where it is valid. -/
def State.recCopy (s : State) (c : Nat) : Option BootRec :=
  let o := 0x1000 * c
  if s.flashBe o 4 = 0x42524543 ∧ s.flashBe (o + 28) 4 = crc32c (s.flashBytes o 28) then
    some { seq := s.flashBe (o + 4) 4, active := s.flashBe (o + 8) 1, prev := s.flashBe (o + 9) 1
           trial := s.flashBe (o + 10) 1, boots := s.flashBe (o + 11) 1, bank := s.flashBe (o + 12) 1
           prevBank := s.flashBe (o + 13) 1 }
  else none

/-- The governing boot record, and the copy that does not govern. -/
def State.bootRec (s : State) : BootRec × Nat :=
  match s.recCopy 0, s.recCopy 1 with
  | some a, some b => if b.seq ≤ a.seq then (a, 1) else (b, 0)
  | some a, none => (a, 1)
  | none, some b => (b, 0)
  | none, none => ({}, 0)

/-- A new boot record, written with the next SEQ into the copy that does not govern. -/
def State.recWrite (s : State) (r : BootRec) : State :=
  let g := s.bootRec
  s.flashWrite (0x1000 * g.2) ({ r with seq := g.1.seq + 1 } : BootRec).bytes

/-! ### Image checks (R734, R735) -/

/-- Header fields of slot n. -/
def State.imgVersion (s : State) (n : Nat) : Nat := s.flashBe (slotBase n + 8) 4
def State.imgSvn (s : State) (n : Nat) : Nat := s.flashBe (slotBase n + 12) 1
def State.imgSchema (s : State) (n : Nat) : Nat := s.flashBe (slotBase n + 16) 2
def State.imgMinSchema (s : State) (n : Nat) : Nat := s.flashBe (slotBase n + 18) 2

/-- The code of R735 for slot n, in the order of its table. -/
def State.imgCheck (s : State) (n : Nat) (flashOk : Bool) : Nat :=
  let b := slotBase n
  let len := s.flashBe (b + 20) 4
  let key := s.flashBe (b + 13) 1
  if ¬ flashOk then 9
  else if s.flashBe b 4 ≠ 0x4F4C4657 ∨ s.flashBe (b + 4) 2 ≠ 1 then 2
  else if s.flashBe (b + 14) 2 ≠ s.rd pgCRWN CRWN.DEV_ID_PART ∨ s.flashBe (b + 6) 2 % 2 ≠ b2n (decide (n = 2)) then 3
  else if slotBody n < len then 4
  else if 4 ≤ key ∨ bit s.keyRevoked key ∨ Config.sha256 (s.flashBytes (b + 64) 388) ≠ Config.fusedHash key then 5
  else if ¬ Config.rsaVerify (s.flashBe (b + 64) 384) (s.flashBytes b 1024) (s.flashBytes (b + 1024) 384) then 6
  else if Config.sha256 (s.flashBytes (b + 4096) len) ≠ s.flashBytes (b + 32) 32 then 7
  else if s.imgSvn n < s.fuseSvn then 8
  else 1

/-- The outcome of a check of slot n: SLOT_VER and SLOT_INFO, and whether the slot has passed (R745, R759). -/
def State.imgRecord (s : State) (n code : Nat) : State :=
  let s1 := s.wrAll pgFWU n [(FWU.SLOT_VER_VERSION, if code = 1 then s.imgVersion n else 0),
    (FWU.SLOT_INFO_SVN, if code = 1 then s.imgSvn n else 0), (FWU.SLOT_INFO_SCHEMA, if code = 1 then s.imgSchema n else 0),
    (FWU.SLOT_INFO_CHECK, code)]
  { s1 with fwPassed := if code = 1 then n :: s.fwPassed.filter (fun (k : Nat) => k ≠ n)
                        else s.fwPassed.filter (fun (k : Nat) => k ≠ n) }

/-! ### Configuration banks (R741, R742) -/

/-- The schema of a bank. -/
def State.bankSchema (s : State) (b : Nat) : Nat := s.flashBe (bankBase b + 4) 2

/-- A bank has its MAGIC, a legal LEN and a good CRC. -/
def State.bankGood (s : State) (b : Nat) : Bool :=
  let o := bankBase b
  let len := s.flashBe (o + 12) 4
  s.flashBe o 4 = 0x43464731 && decide (len ≤ 0x100000 - 64) && s.flashBe (o + 16) 4 = crc32c (s.flashBytes (o + 64) len)

/-- The subsystem IDs of the governing bank, as the SUBSYS register holds them (R534, R741). -/
def State.bankSubsys (s : State) : Nat :=
  let o := bankBase s.bootRec.1.bank
  s.flashBe (o + 20) 2 + s.flashBe (o + 22) 2 * 65536

/-! ### What survives a reset of the pages -/

/-- The fuse-backed and power-on-held fields of the FWU and SEC pages. -/
def State.fuseView (s : State) : State :=
  (s.wrAll pgFWU 0 [(FWU.FWU_STS_FUSE_SVN, s.fuseSvn), (FWU.FWU_STS_FELL_BACK, b2n s.fellBack)]).wrAll pgSEC 0
    [(SEC.SEC_STS_ERASE_GEN, s.eraseGen), (SEC.SEC_STS_KEY_REVOKED, s.keyRevoked), (SEC.SEC_STS_FACTORY, b2n s.factory)]

/-- The source code of a log entry that the active firmware writes (R790). -/
def State.fwSource (s : State) : Nat :=
  match s.active with
  | some k => 1 + k
  | none => 1

/-! ### Activation and fallback (R745 to R752) -/

/-- A fallback (R750): the boot record names PREV, both processors restart, and reason, log entry and cause bit 4 record it. -/
def State.fallback (s : State) (reason : Nat) (restart : Bool) : State :=
  let r := s.bootRec.1
  let s1 := s.recWrite { r with active := r.prev, bank := r.prevBank, trial := 0 }
  let s2 := (({ s1 with fellBack := true, trialAt := none }).wrAll pgFWU 0 [(FWU.FWU_STS_FB_REASON, reason),
    (FWU.FWU_STS_TRIAL, 0)]).fuseView
  let s3 := ((s2.cnt pgFWU FWU.FWU_CNT 4).raise pgFWU 4).logAppend (pageCode .fwu) 0 s.fwSource 0x2005 1 reason (s.imgVersion r.active)
  if restart then s3.spRestartBoth else s3

/-- A trigger of the armed activation (R746, R747); the truth value says whether it was accepted. -/
def State.fwTrigger (s : State) : State × Bool :=
  if ¬ s.on pgFWU FWU.FWU_STS_ARMED ∨ s.on pgFWU FWU.FWU_STS_TRIAL then (s.cnt pgFWU FWU.FWU_CNT 6, false)
  else
    let slot := s.rd pgFWU FWU.FWU_STS_ARMED_SLOT
    let r := s.bootRec.1
    let s1 := ({ s with fwFired := true }).wr pgFWU FWU.FWU_STS_ARMED 0
    let s2 := s1.recWrite { r with active := slot, prev := s.rd pgFWU FWU.FWU_STS_RUN_SLOT, trial := 1, boots := 0
                                   prevBank := r.bank }
    let s3 := ((s2.cnt pgFWU FWU.FWU_CNT 2).raise pgFWU 2).logAppend (pageCode .fwu) 0 s.fwSource 0x2003 0 (s.imgVersion slot) slot
    (s3.spRestartBoth, true)

/-- FW_TRIAL_TIMEOUT (R750). -/
def execFwTrialTimeout (s : State) : Host.Outcome State Fault Refusal :=
  .next (match s.trialAt with
  | some t => if s.live pgFWU ∧ t + ticksMs 900000 ≤ s.ticks then s.fallback 1 true else s
  | none => s)

/-- The trial image may confirm itself (R749, R751). -/
def State.mayConfirm (s : State) : Bool :=
  match s.trialAt, s.active with
  | some t, some k => decide (s.ticks < t + ticksMs 900000) && s.takenOver && decide (s.role (spOther k) = spStandby) &&
      s.on pgSPA (ilHealthy (spOther k))
  | _, _ => false

/-- FW_CONFIRM (R749). -/
def execFwConfirm (s : State) : Host.Outcome State Fault Refusal :=
  .next (if s.live pgFWU ∧ s.mayConfirm then
    let r := s.bootRec.1
    let s1 := ({ s with trialAt := none }).recWrite { r with trial := 0, prevBank := r.bank }
    let s2 := s1.wrAll pgFWU 0 [(FWU.FWU_STS_CONFIRMED, 1), (FWU.FWU_STS_TRIAL, 0)]
    ((s2.cnt pgFWU FWU.FWU_CNT 3).raise pgFWU 3).logAppend (pageCode .fwu) 0 s.fwSource 0x2004 0
      (s.rd pgFWU FWU.RUN_VERSION_VERSION) (s.rd pgFWU FWU.RUN_INFO_SCHEMA)
  else s)

/-! ### Choosing a slot at boot (R736, R743) -/

/-- The slots to try in order, and whether the order is that of a boot count (R736, R750). -/
def bootOrder (r : BootRec) : List Nat × Bool :=
  if r.trial = 1 ∧ 2 ≤ r.boots then ([r.prev, 2], true)
  else ([r.active, if r.trial = 1 then r.prev else 1 - r.active, 2], false)

/-- The field of BOOT_LOG for slot n. -/
def bootLogOf (n : Nat) : Fld := if n = 0 then FWU.BOOT_LOG_A else if n = 1 then FWU.BOOT_LOG_B else FWU.BOOT_LOG_RECOVERY

/-- The first slot that passes, with every code written into BOOT_LOG on the way. -/
def State.bootTry (s : State) (flashOk : Bool) : List Nat → State × Option Nat
  | [] => (s, none)
  | n :: t =>
    let code := s.imgCheck n flashOk
    let s1 := (s.wr pgFWU (bootLogOf n) code).imgRecord n code
    if code = 1 then (s1, some n) else s1.bootTry flashOk t

/-- What the FWU page shows of the running image in slot n. -/
def State.bootShow (s : State) (n : Nat) (trial : Bool) : State :=
  let s1 := s.wrAll pgFWU 0 [(FWU.FWU_STS_RUN_SLOT, n), (FWU.FWU_STS_TRIAL, b2n trial), (FWU.FWU_STS_NO_IMAGE, 0),
    (FWU.FWU_STS_CONFIRMED, if trial then 0 else s.rd pgFWU FWU.FWU_STS_CONFIRMED),
    (FWU.RUN_VERSION_VERSION, s.imgVersion n), (FWU.RUN_INFO_SVN, s.imgSvn n), (FWU.RUN_INFO_SCHEMA, s.imgSchema n)]
  { s1 with runDigest := s.flashBytes (slotBase n + 32) 32, trialAt := if trial then some s.ticks else none }

/-- The first start of a trial image (R743): the configuration migrates into the other bank where its schema differs and the
image can migrate it; the bytes are what the image's migration writes. An image that cannot falls back at once. -/
def State.migrate (s : State) (n : Nat) (migrated : List Byte) : State :=
  let r := s.bootRec.1
  let sch := s.bankSchema r.bank
  if sch = s.imgSchema n then s
  else if s.imgMinSchema n ≤ sch ∧ sch ≤ s.imgSchema n then
    (s.flashWrite (bankBase (1 - r.bank)) (migrated.take 0x100000)).recWrite { r with bank := 1 - r.bank }
  else s.fallback 2 true

/-- A processor boots slot n by the order of R736. -/
def State.bootSlot (s : State) (k n : Nat) (migrated : List Byte) : State :=
  let r := s.bootRec.1
  let trial := decide (r.trial = 1) && decide (n = r.active)
  let s1 := (s.bootShow n trial).setSp k { s.sp k with booted := true }
  if trial then
    let s2 := s1.recWrite { r with boots := r.boots + 1 }
    if r.boots = 0 then s2.migrate n migrated else s2
  else s1

/-- BOOT_SLOT_SELECT (R736): a processor released from reset. Where the other one is active, or has chosen a slot in this same
restart, it boots the slot that runs (R729; notes/assumptions/33.md). -/
def State.bootSelect (s : State) (k : Nat) (flashOk : Bool) (migrated : List Byte) : State :=
  if s.role (spOther k) = spActive ∨ (s.sp (spOther k)).booted then
    let n := s.rd pgFWU FWU.FWU_STS_RUN_SLOT
    let code := s.imgCheck n flashOk
    let s1 := s.imgRecord n code
    if code = 1 then s1.setSp k { s.sp k with booted := true } else s1
  else
    let r := s.bootRec.1
    let order := bootOrder r
    let s0 := s.wrAll pgFWU 0 [(FWU.BOOT_LOG_A, 0), (FWU.BOOT_LOG_B, 0), (FWU.BOOT_LOG_RECOVERY, 0)]
    match s0.bootTry flashOk order.1 with
    | (s1, some n) =>
      let s2 := if order.2 then s1.fallback 4 false else s1
      s2.bootSlot k n migrated
    | (s1, none) => s1.wr pgFWU FWU.FWU_STS_NO_IMAGE 1

/-- BOOT_SLOT_SELECT (R736, R743). -/
def execBootSlotSelect (sp : Nat) (flashOk : Bool) (migrated : List Byte) (s : State) : Host.Outcome State Fault Refusal :=
  .next (if sp < 2 ∧ s.live pgFWU ∧ s.role sp = spBoot ∧ ¬ (s.sp sp).booted then s.bootSelect sp flashOk migrated else s)

/-! ### Firmware commands (R740, R742, R744, R745, R759) -/

/-- A firmware command ends. -/
def State.fwDone (s : State) (tag : Nat) : State := { s with fwRun := none }.result pgFWU FWU.FWU_RES tag DONE
def State.fwError (s : State) (tag err code : Nat) : State :=
  (({ s with fwRun := none }).result pgFWU FWU.FWU_RES tag ERROR [err, code]).raise pgFWU 5

/-- A firmware command starts, unless another still runs (R868). -/
def State.fwStart (s : State) (f : State → State) : State :=
  if s.live pgFWU ∧ s.fwRun.isNone ∧ s.fwHeld.isNone then f (s.resStart pgFWU FWU.FWU_RES) else s

/-- Staging and checking of images stop during a switchover gap: a command then waits for the new active processor (R34;
19_service_processors.md, task table). -/
def State.fwGap (s : State) (c : FwTask) (f : State → State) : State :=
  if s.on pgSPA SPA.IL_STS_SWITCHING then { s with fwHeld := some c } else f s

/-- A command of SEC_CMD: a quote or a factory unlock asked for during a gap waits for the new active processor; another command is
ignored meanwhile (R868). -/
def State.secStart (s : State) (c : SecTask) (f : State → State) : State :=
  s.gate pgSEC fun t =>
    if t.secHeld.isSome then t
    else if t.on pgSPA SPA.IL_STS_SWITCHING then { t.resStart pgSEC SEC.SEC_RES with secHeld := some c }
    else f t

/-- The header of slot n is erased, so that the slot does not pass (R744). -/
def State.slotErase (s : State) (n : Nat) : State :=
  let s1 := s.flashWrite (slotBase n) (List.replicate 4096 (byteOf 0xFF))
  { s1 with fwPassed := s.fwPassed.filter (fun (k : Nat) => k ≠ n) }

/-- The transfer of a STAGE into slot n ends (R744). -/
def State.stageEnd (s : State) (n tag : Nat) (io : FlashIo) : State :=
  match io with
  | .running => { s with fwRun := some (n, tag) }
  | .hostError => s.fwError tag 9 0
  | .flashError => ((s.imgRecord n 9).raise pgFWU 6).fwError tag 2 9
  | .data bytes =>
    if ¬ s.tagFree then { s.tagWait with fwRun := some (n, tag) } else
    let s2 := s.flashWrite (slotBase n) (bytes.take (min (s.rd pgFWU FWU.STG_LEN_BYTES) (slotSize n)))
    let code := s2.imgCheck n true
    let s3 := (s2.imgRecord n code).cnt pgFWU FWU.FWU_CNT 0
    if code = 1 then (s3.raise pgFWU 0).fwDone tag
    else ((((s3.slotErase n).cnt pgFWU FWU.FWU_CNT 1).raise pgFWU 0).raise pgFWU 1).fwError tag 2 code

/-- The host reads of a STAGE of at most n bytes (R744), through PF1. -/
def State.stageFetch (s : State) (n : Nat) : State :=
  s.fetch 1 (s.rd pgFWU FWU.STG_ADDR_LO_ADDR + s.rd pgFWU FWU.STG_ADDR_HI_ADDR * 2 ^ 32) (min (s.rd pgFWU FWU.STG_LEN_BYTES) n)

/-- STAGE into an image slot (R744). -/
def State.stage (s : State) (n tag : Nat) (io : FlashIo) : State :=
  if n = s.rd pgFWU FWU.FWU_STS_RUN_SLOT ∨ (s.on pgFWU FWU.FWU_STS_TRIAL ∧ n = s.bootRec.1.prev) then s.fwError tag 1 0
  else ((s.slotErase n).stageFetch (slotSize n)).stageEnd n tag io

/-- FW_STAGE (R744). -/
def execFwStage (slot tag : Nat) (io : FlashIo) (s : State) : Host.Outcome State Fault Refusal :=
  .next (if slot < 3 then s.fwStart fun st => st.fwGap (.stage slot tag io) (·.stage slot tag io) else s)

/-- The transfer of a configuration ends (R742): the bank that does not govern is written, and governs from then on where it is good. -/
def State.stageConfigEnd (s : State) (tag : Nat) (io : FlashIo) : State :=
  let r := s.bootRec.1
  let b := 1 - r.bank
  match io with
  | .running => { s with fwRun := some (3, tag) }
  | .hostError => s.fwError tag 9 0
  | .flashError => (s.raise pgFWU 6).fwError tag 8 0
  | .data bytes =>
    let s1 := (s.flashWrite (bankBase b) (bytes.take (min (s.rd pgFWU FWU.STG_LEN_BYTES) 0x100000))).cnt pgFWU FWU.FWU_CNT 0
    if s1.bankGood b ∧ s1.bankSchema b = s.rd pgFWU FWU.RUN_INFO_SCHEMA then
      ((s1.recWrite { r with bank := b }).raise pgFWU 0).fwDone tag
    else s1.fwError tag 8 0

/-- STAGE of a configuration (R742). -/
def State.stageConfig (s : State) (tag : Nat) (io : FlashIo) : State := (s.stageFetch 0x100000).stageConfigEnd tag io

/-- FW_STAGE_CONFIG (R742). -/
def execFwStageConfig (tag : Nat) (io : FlashIo) (s : State) : Host.Outcome State Fault Refusal :=
  .next (s.fwStart fun st => st.fwGap (.stageConfig tag io) (·.stageConfig tag io))

/-- VERIFY of slot n (R759): one that fails ends ERROR with BAD_IMAGE and its code. -/
def State.fwVerify (s : State) (n tag : Nat) (flashOk : Bool) : State :=
  let code := s.imgCheck n flashOk
  let s1 := (s.imgRecord n code).raise pgFWU 0
  let s2 := if code = 9 then s1.raise pgFWU 6 else s1
  if code = 1 then s2.fwDone tag else ((s2.cnt pgFWU FWU.FWU_CNT 1).raise pgFWU 1).fwError tag 2 code

/-- FW_VERIFY (R759). -/
def execFwVerify (slot tag : Nat) (flashOk : Bool) (s : State) : Host.Outcome State Fault Refusal :=
  .next (if slot < 3 then s.fwStart fun st => st.fwGap (.verify slot tag flashOk) (·.fwVerify slot tag flashOk) else s)

/-- FW_ARM (R745). -/
def execFwArm (slot tag : Nat) (s : State) : Host.Outcome State Fault Refusal :=
  .next (s.fwStart fun st =>
    if st.on pgFWU FWU.FWU_STS_TRIAL then st.fwError tag 3 0
    else if slot < 2 ∧ st.fwPassed.contains slot then
      (({ st with fwFired := false }).wrAll pgFWU 0 [(FWU.FWU_STS_ARMED, 1), (FWU.FWU_STS_ARMED_SLOT, slot)]).fwDone tag
    else st.fwError tag 2 (st.rd pgFWU FWU.SLOT_INFO_CHECK (slot % 3)))

/-- FW_DISARM (R745). -/
def execFwDisarm (tag : Nat) (s : State) : Host.Outcome State Fault Refusal :=
  .next (s.fwStart fun st =>
    if st.on pgFWU FWU.FWU_STS_ARMED then (st.wr pgFWU FWU.FWU_STS_ARMED 0).fwDone tag
    else if st.fwFired then st.result pgFWU FWU.FWU_RES tag DONE [] 0 true
    else st.fwError tag 4 0)

/-- FW_ACTIVATE_NOW (R745 to R747). -/
def execFwActivateNow (tag : Nat) (s : State) : Host.Outcome State Fault Refusal :=
  .next (s.fwStart fun st =>
    let r := st.fwTrigger
    if r.2 then r.1.fwDone tag else r.1.fwError tag (if st.on pgFWU FWU.FWU_STS_TRIAL then 3 else 4) 0)

/-- FW_REJECT (R750, R751): late where no trial runs. -/
def execFwReject (tag : Nat) (s : State) : Host.Outcome State Fault Refusal :=
  .next (s.fwStart fun st =>
    if st.on pgFWU FWU.FWU_STS_TRIAL then (st.fallback 3 true).fwDone tag
    else st.result pgFWU FWU.FWU_RES tag DONE [] 0 true)

/-- SVN_ADVANCE (R739, R740). -/
def execSvnAdvance (tag : Nat) (flashOk : Bool) (s : State) : Host.Outcome State Fault Refusal :=
  .next (s.fwStart fun st =>
    let v := st.rd pgFWU FWU.RUN_INFO_SVN
    if st.on pgFWU FWU.FWU_STS_TRIAL then st.fwError tag 5 0
    else if st.imgCheck 2 flashOk ≠ 1 ∨ st.imgSvn 2 < v then st.fwError tag 6 (st.imgCheck 2 flashOk)
    else if v ≤ st.fuseSvn then st.fwError tag 7 0
    else ((({ st with fuseSvn := v }).fuseView).bump pgFWU FWU.FWU_CNT 5 5 (v - st.fuseSvn)).fwDone tag)

/-- FLASH_READ (R759): flash bytes go to host memory through PF1. -/
def execFlashRead (tag : Nat) (flashOk : Bool) (s : State) : Host.Outcome State Fault Refusal :=
  .next (s.fwStart fun st =>
    let o := st.rd pgFWU FWU.STG_OFF_OFFSET
    let n := min (st.rd pgFWU FWU.STG_LEN_BYTES) (0x4000000 - o)
    let a := st.rd pgFWU FWU.STG_ADDR_LO_ADDR + st.rd pgFWU FWU.STG_ADDR_HI_ADDR * 2 ^ 32
    if flashOk then (st.post 1 a (st.flashBytes o n)).fwDone tag else (st.raise pgFWU 6).fwError tag 2 9)

/-- The tag of a firmware command that waits. -/
def fwTag : FwTask → Nat
  | .stage _ t _ => t
  | .stageConfig t _ => t
  | .verify _ t _ => t

/-- FWU_ABORT (R64, R744): a running command ends ABORTED, its slot with an erased header; after completion it is late. -/
def execFwuAbort (_tag : Nat) (s : State) : Host.Outcome State Fault Refusal :=
  .next (s.gate pgFWU fun st =>
    match st.fwRun, st.fwHeld with
    | some (_, t), _ => ({ st with fwRun := none }).result pgFWU FWU.FWU_RES t ABORTED
    | none, some c => ({ st with fwHeld := none }).result pgFWU FWU.FWU_RES (fwTag c) ABORTED
    | none, none => st.resLate pgFWU FWU.FWU_RES)

/-! ### The SEC page (R754 to R758) -/

/-- KEK slot 0 follows from the device secret and ERASE_GEN (R754). -/
def State.loadKek0 (s : State) : State :=
  let text : List Byte := [0x4F, 0x4C, 0x35, 0x31, 0x32, 0x30, 0x20, 0x4B, 0x45, 0x4B, 0x30]
  { s with keks := tset s.keks 0 (bytesToBeWords (Config.secretHmac (text ++ [byteOf s.eraseGen]))) }

/-- FLAGS of a quote (R755). -/
def State.quoteFlags (s : State) : Nat :=
  s.rd pgFWU FWU.FWU_STS_TRIAL + 2 * b2n (decide (s.rd pgFWU FWU.FWU_STS_RUN_SLOT = 2)) + 4 * b2n s.factory +
    8 * b2n s.ntValid + 16 * s.rd pgBON BON.BON_STS_SEALED + 32 * b2n s.fellBack

/-- The header of a quote (R755). -/
def State.quoteHeader (s : State) : List Byte :=
  toBe 4 0x51544531 ++ toBe 2 1 ++ toBe 2 s.quoteFlags ++ s.serialBytes ++
  ((List.range 8).flatMap fun k => toBe 4 (s.rd pgSEC SEC.NONCE_DATA k)) ++
  toBe 4 (s.rd pgFWU FWU.RUN_VERSION_VERSION) ++
  [byteOf (s.rd pgFWU FWU.RUN_INFO_SVN), byteOf s.fuseSvn, byteOf (s.rd pgFWU FWU.FWU_STS_RUN_SLOT), byteOf s.eraseGen] ++
  toBe 4 s.bonFactory ++ toBe 2 (s.bankSchema s.bootRec.1.bank) ++ toBe 2 0 ++ s.runDigest ++ toBe 6 s.nt.sec ++
  toBe 4 s.nt.ns ++ toBe 22 0

/-- QUOTE (R755). -/
def State.secQuote (s : State) (tag : Nat) : State :=
  let h := s.quoteHeader
  let s1 := { s with quote := h ++ Config.rsaSign 1 h }
  ((s1.result pgSEC SEC.SEC_RES tag DONE).cnt pgSEC SEC.SEC_CNT 0).raise pgSEC 0

/-- SEC_QUOTE (R755). -/
def execSecQuote (tag : Nat) (s : State) : Host.Outcome State Fault Refusal := .next (s.secStart (.quote tag) (·.secQuote tag))

/-- CHALLENGE (R757): the random bytes are free values. -/
def State.secChallenge (s : State) (tag : Nat) : State :=
  let s1 := (List.range 8).foldl (fun (t : State) (k : Nat) => t.wrFree pgSEC SEC.CHALLENGE_DATA k) { s with challenged := true }
  (s1.result pgSEC SEC.SEC_RES tag DONE).cnt pgSEC SEC.SEC_CNT 1

/-- SEC_CHALLENGE (R757). -/
def execSecChallenge (tag : Nat) (s : State) : Host.Outcome State Fault Refusal :=
  .next (s.secStart (.challenge tag) (·.secChallenge tag))

/-- The token as staged in window page 2. -/
def State.tokenBytes (s : State) : List Byte := (List.range 128).flatMap fun k => toBe 4 (tgetD s.token k 0)

/-- A token names this device and the current challenge, and its signature verifies (R757). -/
def State.tokenGood (s : State) : Bool :=
  let t := s.tokenBytes
  beAt t 0 4 = 0x554E4C4B && decide (slice t 8 8 = s.serialBytes) &&
    decide (slice t 16 32 = (List.range 8).flatMap fun k => toBe 4 (s.rd pgSEC SEC.CHALLENGE_DATA k)) &&
    Config.factoryVerify (t.take 128) (t.drop 128)

/-- An accepted unlock (R758): customer keys are erased, an ERASE_GEN step is blown, and factory mode opens. -/
def State.unlock (s : State) : State :=
  let s1 := { s with keks := [], eraseGen := s.eraseGen + 1, factory := true
                     sas := s.sas.map fun (e : Nat × MacSa) => (e.1, { e.2 with key := [], salt := [], inUse := false }) }
  let s2 := { s1 with ipsSas := s1.ipsSas.map fun (e : Nat × IpsSa) =>
    (e.1, { e.2 with key := [], salt := 0, cfg := clrBit e.2.cfg 0 }) }
  let s3 := s2.loadKek0.fuseView
  (if s3.live pgBON then s3.inc pgBON BON.FACTORY_EV_COUNT else s3).logAppend (pageCode .sec) 0 s.fwSource 0x2006 1 s3.eraseGen 0

/-- UNLOCK (R757, R758). -/
def State.secUnlock (s : State) (tag : Nat) : State :=
  let s1 := { s with challenged := false }
  let refuse (err : Nat) : State :=
    ((((s1.result pgSEC SEC.SEC_RES tag ERROR [err]).cnt pgSEC SEC.SEC_CNT 3).raise pgSEC 2).raise pgSEC 3)
  if ¬ s.challenged then refuse 4
  else if ¬ s.tokenGood then refuse 2
  else if s.eraseGen = 8 then refuse 3
  else ((s1.unlock.result pgSEC SEC.SEC_RES tag DONE).cnt pgSEC SEC.SEC_CNT 2).raise pgSEC 1

/-- SEC_UNLOCK (R757, R758). -/
def execSecUnlock (tag : Nat) (s : State) : Host.Outcome State Fault Refusal := .next (s.secStart (.unlock tag) (·.secUnlock tag))

/-! ### The new active processor goes on (R34; 19_service_processors.md, task table) -/

/-- The firmware command that waited. -/
def State.fwResume (s : State) : State :=
  let s1 := { s with fwHeld := none }
  match s.fwHeld with
  | some (.stage n tag io) => s1.stage n tag io
  | some (.stageConfig tag io) => s1.stageConfig tag io
  | some (.verify n tag ok) => s1.fwVerify n tag ok
  | none => s1

/-- The quote or unlock request that waited. -/
def State.secResume (s : State) : State :=
  let s1 := { s with secHeld := none }
  match s.secHeld with
  | some (.quote tag) => s1.secQuote tag
  | some (.challenge tag) => s1.secChallenge tag
  | some (.unlock tag) => s1.secUnlock tag
  | none => s1

/-! ### JTAG (R756, R828) -/

/-- A path of the TAP is open (R756): boundary scan at all times, the processors, vendor test modes and internal scan only in factory
mode. -/
def State.jtagOpen (s : State) (p : JtagPath) : Bool := decide (p = .bypass) || decide (p = .boundary) || s.on pgSEC SEC.SEC_STS_FACTORY

/-- The next state of the TAP controller at a rising TCK (IEEE 1149.1). -/
def TapState.next (t : TapState) (tms : Bool) : TapState :=
  match t with
  | .testLogicReset => if tms then .testLogicReset else .runTestIdle
  | .runTestIdle => if tms then .selectDr else .runTestIdle
  | .selectDr => if tms then .selectIr else .captureDr
  | .captureDr => if tms then .exit1Dr else .shiftDr
  | .shiftDr => if tms then .exit1Dr else .shiftDr
  | .exit1Dr => if tms then .updateDr else .pauseDr
  | .pauseDr => if tms then .exit2Dr else .pauseDr
  | .exit2Dr => if tms then .updateDr else .shiftDr
  | .updateDr => if tms then .selectDr else .runTestIdle
  | .selectIr => if tms then .testLogicReset else .captureIr
  | .captureIr => if tms then .exit1Ir else .shiftIr
  | .shiftIr => if tms then .exit1Ir else .shiftIr
  | .exit1Ir => if tms then .updateIr else .pauseIr
  | .pauseIr => if tms then .exit2Ir else .pauseIr
  | .exit2Ir => if tms then .updateIr else .shiftIr
  | .updateIr => if tms then .selectDr else .runTestIdle

/-- A rising TCK with a level on TMS (R756): the controller moves; on entering Update-IR the instruction shifted in selects its path where
that path is open, else bypass, and Test-Logic-Reset selects bypass. A path that closes is left. -/
def State.tck (s : State) (tms : Bool) (shifted : JtagPath) : State :=
  let t := s.jtag.tap.next tms
  let p := if t = .updateIr then shifted else if t = .testLogicReset then .bypass else s.jtag.path
  { s with jtag := { tap := t, path := if s.jtagOpen p then p else .bypass } }

/-- JTAG_TRST (R828): TRST_N low resets the TAP. -/
def execJtagTrst (s : State) : Host.Outcome State Fault Refusal := .next { s with jtag := {} }

/-- A word of the SEC window, at offsets from 0x8000 (R753, R755, R757). -/
def State.secWindow (s : State) (off : Nat) : Nat :=
  let pg := s.rd pgSEC SEC.WIN_SEL_PAGE
  if pg = 0 then (if off < 512 then beNat (slice s.quote off 4) else 0)
  else if pg = 1 then
    if off = 0 then (Config.certificate 1).length else beNat (slice (Config.certificate 1 ++ [0, 0, 0]) (off - 4) 4)
  else if pg = 2 then tgetD s.token (off / 4) 0
  else 0

/-- A write of the SEC window: page 2 takes it (R761). -/
def State.secWindowWrite (s : State) (off v : Nat) : State :=
  if s.rd pgSEC SEC.WIN_SEL_PAGE = 2 ∧ off < 512 then { s with token := tset s.token (off / 4) v } else s

end Sys2Proof.Machine
end

