-- ==== Sys2Proof/Machine/Obs.lean ====
section
/-! DEFINITION. Machine/Obs.lean: strobes, shadow flush, bandwidth windows, trace, event log and the LEG window (spec
21_observability.md, R763 to R804). -/

namespace Sys2Proof.Machine

/-! ### Strobes and freezing (R768 to R776) -/

/-- The parts of the crown page outside PD00 answer: start-up has reached step 2 (R826). -/
def State.crownUp (s : State) : Bool := decide (2 ≤ s.rd pgRST RST.START_STS_STEP)

/-- LOCAL_STROBE (R56, R776): the shadow of one page, with the current STROBE_SEQ and the network time; under HOLD the strobe is missed
and counted. -/
def State.localStrobe (s : State) (p : Nat) : State := s.latchIf p (s.rd pgCRWN CRWN.STROBE_SEQ_SEQ) s.nt

/-- LOCAL_STROBE (R47, R776): SNAP_CTL written with LOCAL_STROBE at 1 and HOLD as it is. -/
def execLocalStrobe (page : Nat) (s : State) : Host.Outcome State Fault Refusal :=
  .next (s.regCmd page 0x40 (1 + 2 * b2n (s.on page COMMON.SNAP_CTL_HOLD)) (·.localStrobe page))

/-- STROBE_FIRE (R769). -/
def execStrobeFire (s : State) : Host.Outcome State Fault Refusal := .next (if s.crownUp then s.strobe else s)

/-- SNAP_IN_EDGE (R769). -/
def execSnapInEdge (s : State) : Host.Outcome State Fault Refusal :=
  .next (if s.crownUp ∧ s.on pgCRWN CRWN.STROBE_CTL_PIN_EN then s.strobe else s)

/-- GFREEZE_WRITE (R768). -/
def execGfreezeWrite (v : Bool) (s : State) : Host.Outcome State Fault Refusal :=
  .next (if s.crownUp then s.put pgCRWN CRWN.GFREEZE_FREEZE_ALL v else s)

/-! ### The shadow flush (R777 to R779) -/

/-- The 4 KiB of page p in a flush image (R777); words are little-endian (R6). -/
def State.flushPage (s : State) (p : Nat) : List Byte :=
  let id := toLe 4 (s.pageWord p 0)
  if s.live p then
    id ++ toLe 4 (s.pageWord p 0x44) ++ toLe 4 (s.pageWord p 0x48) ++ toLe 4 (s.pageWord p 0x4C) ++ List.replicate 112 0 ++
      snapOffsets.flatMap fun o => toLe 4 (tgetD (tgetD s.shadow p []) o 0)
  else id ++ List.replicate 4092 0

/-- A strobe is not flushed (R779). -/
def State.flushSkip (s : State) : State := (s.cnt pgOBS OBS.OBS_CNT 7).raise pgOBS 2

/-- OBS_FLUSH (R777, R779): the oldest strobe that waits for its flush starts one, or is skipped. -/
def execObsFlush (s : State) : Host.Outcome State Fault Refusal :=
  .next (match s.shadowDue with
  | [] => s
  | q :: rest =>
    let s1 := { s with shadowDue := rest }
    let host := s.on pgOBS OBS.FLUSH_CTL_DEST
    if ¬ s.live pgOBS then s1
    else if s.shadowFlush.isSome ∨ (¬ host ∧ s.fabric) then s1.flushSkip
    else
      let slot := q % 2 ^ s.rd pgOBS OBS.FLUSH_CTL_SLOTS_LOG2
      let base := s.rd pgOBS OBS.FLUSH_BASE_LO_ADDR + s.rd pgOBS OBS.FLUSH_BASE_HI_ADDR * 2 ^ 32
      let img := pages.flatMap fun (p : Nat) => s.flushPage p
      { s1.wr pgOBS OBS.FLUSH_STS_BUSY 1 with shadowFlush := some ⟨q, host, base + slot * 2 ^ 20, img⟩ })

/-- OBS_FLUSH_COMPLETE (R778, R779): the image is written, or its DMA failed. -/
def execObsFlushComplete (dmaOk : Bool) (s : State) : Host.Outcome State Fault Refusal :=
  .next (match s.shadowFlush with
  | none => s
  | some f =>
    let s1 := ({ s with shadowFlush := none }).wr pgOBS OBS.FLUSH_STS_BUSY 0
    let good := if f.host then dmaOk && (s.fnS 1).sends else decide (f.addr + f.image.length ≤ s.tableBytes)
    if ¬ s.live pgOBS then s1
    else if ¬ good then s1.flushSkip
    else
      let s2 := if f.host then s1.post 1 f.addr f.image else { s1 with hbm := memSets s1.hbm f.addr f.image }
      (s2.wr pgOBS OBS.FLUSH_STS_LAST_SEQ f.seq).cnt pgOBS OBS.OBS_CNT 6)

/-! ### Port bandwidth (R780 to R782) -/

/-- A frame that the MSC of port p counts as received (R780). -/
def State.bwRx (s : State) (p octets : Nat) : State :=
  if s.live pgOBS ∧ s.on pgOBS OBS.BW_CFG_EN then
    let v := tgetD s.bw p (0, 0, 0, 0)
    { s with bw := tset s.bw p (v.1 + octets, v.2.1 + 1, v.2.2.1, v.2.2.2) }
  else s

/-- A frame that the MSC of port p counts as sent (R780). -/
def State.bwTx (s : State) (p octets : Nat) : State :=
  if s.live pgOBS ∧ s.on pgOBS OBS.BW_CFG_EN then
    let v := tgetD s.bw p (0, 0, 0, 0)
    { s with bw := tset s.bw p (v.1, v.2.1, v.2.2.1 + octets, v.2.2.2 + 1) }
  else s

/-- A window ends now (R781): at a multiple of its length or a second boundary of valid network time, within the tick of 1.25 ns
that meets it, or by elapsed time. -/
def State.bwDue (s : State) : Bool :=
  if s.ntValid then decide (s.nt.ns % (s.bwUs * 1000) ≤ 1) && decide (s.bwFrom + 1 < s.ticks)
  else decide (s.bwFrom + ticksUs s.bwUs ≤ s.ticks)

/-- BW_WINDOW_END (R782). -/
def execBwWindowEnd (s : State) : Host.Outcome State Fault Refusal :=
  .next (if s.live pgOBS ∧ s.on pgOBS OBS.BW_CFG_EN ∧ s.bwDue then
    let s1 := (List.range 256).foldl (fun (st : State) (p : Nat) =>
      let v := tgetD s.bw p (0, 0, 0, 0)
      st.wrAll pgOBS p [(OBS.BW_RX_BYTES, v.1), (OBS.BW_RX_FRAMES_COUNT, v.2.1), (OBS.BW_TX_BYTES, v.2.2.1),
        (OBS.BW_TX_FRAMES_COUNT, v.2.2.2)]) s
    let s2 := s1.wrAll pgOBS 0 [(OBS.BW_SEQ_SEQ, s.rd pgOBS OBS.BW_SEQ_SEQ + 1), (OBS.BW_END_NS_NS, s.nt.ns),
      (OBS.BW_END_SEC_SEC, s.nt.sec), (OBS.BW_LEN_US, usOf (s.ticks - s.bwFrom))]
    { s2.cnt pgOBS OBS.OBS_CNT 5 with bw := [], bwFrom := s.ticks, bwUs := s.rd pgOBS OBS.BW_CFG_WINDOW_US }
  else s)

/-! ### The trace buffer (R786 to R788, R799) -/

/-- The eight words of a trace record (R786). -/
def TraceRec.words (r : TraceRec) : List Nat :=
  [r.id + r.point * 2 ^ 16 + r.inst * 2 ^ 24, r.ns, r.sec, r.srcDev + r.frac * 2 ^ 16, r.arg0, r.arg1, r.secHi, r.seq]

/-- Record i of the buffer, as words; an empty place reads 0. -/
def State.traceWords (s : State) (i : Nat) : List Nat :=
  match tget s.trace i with
  | some r => r.words
  | none => List.replicate 8 0

/-- TRACE_CLEAR (R788). -/
def execTraceClear (tag : Nat) (s : State) : Host.Outcome State Fault Refusal :=
  .next (if s.live pgOBS ∧ s.traceRun.isNone then
    let s1 := { s with trace := [], traceAt := 0 }
    (s1.wrAll pgOBS 0 [(OBS.TRACE_STS_COUNT, 0), (OBS.TRACE_STS_STOPPED, 0)]).result pgOBS OBS.OBS_RES tag DONE
  else s)

/-- The address that a dump begins at. -/
def State.traceDumpAt (s : State) : Nat := s.rd pgOBS OBS.DUMP_ADDR_LO + s.rd pgOBS OBS.DUMP_ADDR_HI * 2 ^ 32

/-- A trace dump ends (R799): the 128 KiB are in host memory, or the host failed. -/
def State.traceDumpEnd (s : State) (r : DumpRun) (ok : Bool) : State :=
  let s1 := { s with traceRun := none }
  if ok then (s1.post 1 r.addr ((List.range 4096).flatMap fun i => leWordsToBytes (s.traceWords i))).result pgOBS OBS.OBS_RES r.tag DONE
  else s1.result pgOBS OBS.OBS_RES r.tag ERROR

/-- TRACE_DUMP (R799): 128 KiB to host memory through PF1. -/
def execTraceDump (tag : Nat) (ends : DmaEnd) (s : State) : Host.Outcome State Fault Refusal :=
  .next (if s.live pgOBS ∧ s.traceRun.isNone then
    let r : DumpRun := { tag := tag, addr := s.traceDumpAt }
    let s1 := { s.resStart pgOBS OBS.OBS_RES with traceRun := some r }
    match ends with
    | .running => s1
    | .hostError => s1.traceDumpEnd r false
    | .written => s1.traceDumpEnd r true
  else s)

/-- TRACE_ABORT (R64, R799). -/
def execTraceAbort (_tag : Nat) (s : State) : Host.Outcome State Fault Refusal :=
  .next (s.gate pgOBS fun st =>
    match st.traceRun with
    | some r => ({ st with traceRun := none }).result pgOBS OBS.OBS_RES r.tag ABORTED
    | none => st.resLate pgOBS OBS.OBS_RES)

/-- A word of TRACE_WIN, at offsets from 0xA000 (R799). -/
def State.traceWindow (s : State) (off : Nat) : Nat :=
  (s.traceWords (256 * s.rd pgOBS OBS.TRACE_VIEW_VIEW + off / 32)).getD (off % 32 / 4) 0

/-! ### The event log (R789 to R794, R801) -/

/-- The eight words of a log entry (R790). -/
def LogEntry.words (e : LogEntry) : List Nat :=
  [e.ns, e.sec, e.secHi, e.page + e.inst * 2 ^ 16 + e.source * 2 ^ 24, e.event + e.sev * 2 ^ 16 + b2n e.ntValid * 2 ^ 18,
   e.arg0, e.arg1, e.seq]

/-- The words at index i of the ring; an empty place reads 0. -/
def State.logWords (s : State) (i : Nat) : List Nat :=
  match tget s.log i with
  | some e => e.words
  | none => List.replicate 8 0

/-- A LOG command while a dump runs is ignored (R868, R802). -/
def State.logCmd (s : State) (f : State → State) : State :=
  if s.logRun.isSome then s.raise pgLOG 3 else f s

/-- LOG_APPEND (R793). -/
def execLogAppend (tag : Nat) (s : State) : Host.Outcome State Fault Refusal :=
  .next (s.gate pgLOG fun st => st.logCmd fun t =>
    let ev := t.rd pgLOG LOG.APPEND_W_WORD 0 % 65536
    if ev / 4096 ≠ 3 then t.result pgLOG LOG.LOG_RES tag ERROR [1]
    else (t.logAppend (pageCode .log) 0 3 ev 0 (t.rd pgLOG LOG.APPEND_W_WORD 1) (t.rd pgLOG LOG.APPEND_W_WORD 2)).result pgLOG
      LOG.LOG_RES tag DONE)

/-- The sequence number of the oldest entry held. -/
def State.logFirst (s : State) : Nat :=
  (s.rd pgLOG LOG.HEAD_SEQ_SEQ + 2 ^ 32 - s.rd pgLOG LOG.LOG_STS_COUNT) % 2 ^ 32

/-- A log dump ends (R794): the entries that stood at its acceptance, as they are found now, or the host failed. -/
def State.logDumpEnd (s : State) (r : DumpRun) (ok : Bool) : State :=
  let s1 := { s with logRun := none }
  if ok then
    let l := (List.range r.count).flatMap fun k => leWordsToBytes (s.logWords ((r.first + k) % 8192))
    ((s1.post 1 r.addr l).result pgLOG LOG.LOG_RES r.tag DONE [r.count, r.first]).cnt pgLOG LOG.LOG_CNT 4
  else s1.result pgLOG LOG.LOG_RES r.tag ERROR [2]

/-- LOG_DUMP (R794): the entries in sequence order go to host memory through PF1. -/
def execLogDump (tag : Nat) (ends : DmaEnd) (s : State) : Host.Outcome State Fault Refusal :=
  .next (s.gate pgLOG fun st => st.logCmd fun t =>
    let r : DumpRun := { tag := tag, addr := t.rd pgLOG LOG.DUMP_ADDR_LO + t.rd pgLOG LOG.DUMP_ADDR_HI * 2 ^ 32
                         count := t.rd pgLOG LOG.LOG_STS_COUNT, first := t.logFirst }
    let t1 := { t.resStart pgLOG LOG.LOG_RES with logRun := some r }
    match ends with
    | .running => t1
    | .hostError => t1.logDumpEnd r false
    | .written => t1.logDumpEnd r true)

/-- LOG_ABORT (R64, R801). -/
def execLogAbort (_tag : Nat) (s : State) : Host.Outcome State Fault Refusal :=
  .next (s.gate pgLOG fun st =>
    match st.logRun with
    | some r => ({ st with logRun := none }).result pgLOG LOG.LOG_RES r.tag ABORTED
    | none => st.resLate pgLOG LOG.LOG_RES)

/-- A word of LOG_WIN, at offsets from 0x8000; the window lies in PD01 (R794, R801). -/
def State.logWindow (s : State) (off : Nat) : Nat :=
  if s.domOn 1 then (s.logWords (1024 * s.rd pgLOG LOG.LOG_VIEW_VIEW + off / 32)).getD (off % 32 / 4) 0 else 0

/-! ### The LEG window (R795 to R798) -/

/-- The sum of a list of numbers. -/
def sumOf (l : List Nat) : Nat := l.foldl (· + ·) 0

/-- Counter n of MSC slot p. -/
def State.portCount (s : State) (p n : Nat) : Nat := s.rd (msc p) MSC.PORT_CNT ((p % 16) * 32 + n)

/-- The source of port entry j of port p (R796); a port that is not formed reads 0. -/
def State.legPort (s : State) (p j : Nat) : Nat :=
  let c (l : List Nat) : Nat := sumOf (l.map fun n => s.portCount p n)
  if (s.mac p).mode = 0 ∨ ¬ s.live (msc p) then 0
  else match j with
  | 0 => c [0]
  | 1 => c [1]
  | 2 => c [2]
  | 3 => c [3, 4, 5, 8, 12]
  | 4 => c [16]
  | 5 => c [17]
  | 6 => c [20, 22, 25]
  | _ => s.rd pgMCR MCR.RESIDUE_DROP p

/-- The sum of HBC counter k over every channel. -/
def State.hbcSum (s : State) (k : Nat) : Nat :=
  sumOf ((List.range 128).map fun n => s.rd (pgHBC (n / 32)) HBC.CH_CNT ((n % 32) * 12 + k))

/-- The source of device entry d (R797). -/
def State.legDev (s : State) (d : Nat) : Nat :=
  match d with
  | 0 => s.rd pgBPM BPM.BPM_CNT 3
  | 1 => s.rd pgADM ADM.ADM_CNT 1
  | 2 => s.rd pgADM ADM.ADM_CNT 2
  | 3 => s.rd pgADM ADM.ADM_CNT 3
  | 4 => sumOf ((List.range 256).map fun p => s.rd pgMCR MCR.RESIDUE_DROP p) + s.rd pgMCR MCR.RESIDUE_DROP_FAB
  | 5 => s.rd pgLIN LIN.LIN_CNT 2 + s.rd pgLIN LIN.LIN_CNT 3
  | 6 => s.rd pgLIN LIN.LIN_CNT 5
  | 7 => s.rd pgORD ORD.ORD_CNT 2
  | 8 => s.rd pgCLS CLS.CLS_CNT 3
  | 9 => s.rd pgFAB FAB.FAB_CNT 0
  | 10 => s.rd pgBAND BAND.CRC_ERR_FQ + s.rd pgBAND BAND.CRC_ERR_QF
  | 11 => s.hbcSum 4
  | 12 => s.hbcSum 5
  | 13 => s.rd pgPCE PCE.PCE_CNT 3
  | 14 => s.rd pgIPS IPS.IPS_CNT 2
  | _ => s.rd pgQSU QSU.QSU_CNT 1

/-- A gather: every entry takes the low 32 bits of its source (R795). -/
def State.legGather (s : State) : State :=
  let s1 := (List.range 2048).foldl (fun (st : State) (k : Nat) => st.wr pgLEG LEG.PORT_CNT_COUNT (s.legPort (k / 8) (k % 8)) k) s
  (List.range 16).foldl (fun (st : State) (d : Nat) => st.wr pgLEG LEG.DEV_CNT_COUNT (s.legDev d) d) s1

/-- LEG_GATHER (R795): `late` says that the previous gather was still running when this one was due. -/
def execLegGather (late : Bool) (s : State) : Host.Outcome State Fault Refusal :=
  .next (
    let due : Bool := match s.legAt with
      | some t => decide (t + ticksUs (s.rd pgLEG LEG.LEG_CTL_GATHER_US) ≤ s.ticks)
      | none => true
    if s.live pgLEG ∧ s.on pgLEG LEG.LEG_CTL_EN ∧ due then
      (({ s.legGather with legAt := some s.ticks }).inc pgLEG LEG.GATHER_SEQ_SEQ).raiseIf late pgLEG 0
    else s)

/-- The present value of LEG entry k: port entries 0 to 2,047, then device entries. -/
def State.legEntry (s : State) (k : Nat) : Nat :=
  if k < 2048 then s.rd pgLEG LEG.PORT_CNT_COUNT k else s.rd pgLEG LEG.DEV_CNT_COUNT (k - 2048)

/-- A read of the alias of entry k (R798). -/
def State.legAlias (s : State) (k : Nat) : State × Nat :=
  let v := s.legEntry k
  ({ s with legSeen := tset s.legSeen k v }, (v + 2 ^ 32 - tgetD s.legSeen k 0) % 2 ^ 32)

/-- LEG_ALIAS_READ (R798). -/
def execLegAliasRead (who entry : Nat) (s : State) : Host.Outcome State Fault Refusal :=
  .next (if s.live pgLEG ∧ entry < 2064 then
    let r := s.legAlias entry
    r.1.emit (.readData who pgLEG (if entry < 2048 then 0xC000 + 4 * entry else 0xE000 + 4 * (entry - 2048)) r.2)
  else s)

end Sys2Proof.Machine
end

