-- ==== Sys2Proof/Machine/Power.lean ====
section
/-! DEFINITION. Machine/Power.lean: power domains, clocks, resets, start-up and temperature (spec chapter 22). -/

namespace Sys2Proof.Machine

/-! ### What a domain that goes off loses (R805, R867) -/

/-- The pages of domain d. -/
def domPages (d : Nat) : List Nat := pages.filter fun p => decide (domainOf p = d)

/-- The lines' slots 32g to 32g + 31 are no port any more: their SerDes group is off. -/
def State.portsOff (s : State) (g : Nat) : State :=
  (List.range 32).foldl (fun (st : State) (k : Nat) =>
    (st.setMac (32 * g + k) { st.mac (32 * g + k) with mode := 0, width := 0, speed := 0, fec := 0 }).macLink (32 * g + k)
      false) s

/-- What domain d holds beyond its pages' registers. -/
def State.domHidden (s : State) (d : Nat) : State :=
  if d = 1 then { s with log := [] }.wr pgLOG LOG.LOG_STS_COUNT 0
  else if 3 ≤ d ∧ d ≤ 10 then s.portsOff (d - 3)
  else if 11 ≤ d ∧ d ≤ 18 then
    { s with links := s.links.filter fun e => decide (domainOf (linkPage e.1) ≠ d) }
  else if d = 19 then
    { s with macs := [], sas := [], tsFifo := [], ingress := [], cbsFrac := [], lfus := [], ords := [], piped := [],
             nextIpp := 0, nextEpp := 0, toQd := [], cls0 := [], cls1 := [], clsRun := none, clsPauseEnd := none, clsPaused := none, pats := [] }
  else if d = 20 then
    { s with rows := [], vstore := [], locks := [], commits := [], commitAt := 0, fences := 0, learnMs := 0, learnCount := 0,
             sweeps := [], sweepAt := [], rechecks := [], mmFifo := [], shdAt := (0, 0), shdRepairs := [], deadRows := [], rsu := [], rsuRuns := [], rsuDead := [], rsuTurn := 0 }
  else if d = 22 then { s with toQdState := {}, bandFQ := {}, bandQF := {}, bandWait := [], hbmTripAt := [] }
  else if d = 23 then
    { s with toHostState := { perstHigh := s.perstHigh }, bandFQ := {}, bandQF := {}, bandWait := []
             cages := [], slotAt := none, mmQueue := [], mmSince := [], markerBad := false
             fwPassed := [], runDigest := [], trialAt := none, fwFired := false, fwRun := none, fwHeld := none, secHeld := none, quote := [], challenged := false
             token := [], trace := [], traceAt := 0, traceTags := 0, shadowDue := [], shadowFlush := none, bw := []
             bwFrom := 0, bwUs := 1000, traceRun := none, legSeen := [], legAt := none }
  else s

/-- Domain d is cleared: its pages hold their reset values and what else it held is gone. -/
def State.domClear (s : State) (d : Nat) : State := ((domPages d).foldl (fun (st : State) (p : Nat) => st.clearPage p) s).domHidden d

/-- Domain d loses power: its outputs are isolated, POWERED falls and its content is lost; a processor enters OFF (R809), and links
that go leave the reachability masks (R444). -/
def State.domDrop (s : State) (d : Nat) : State :=
  if s.domOn d then
    let s1 := (s.domClear d).wr pgPWR PWR.DOM_STS_POWERED 0 d
    let s2 := if d = 1 ∨ d = 2 then s1.spPowerOff (d - 1) else s1
    if 11 ≤ d ∧ d ≤ 18 ∧ s2.live pgFAB then s.relink s2 else s2
  else s

/-- Domain d has power, and its pages hold their reset values. The log ring in PD01 keeps what a warm reset left (R789). -/
def State.domRise (s : State) (d : Nat) : State :=
  let s1 := (if d = 1 then s else s.domClear d).wrAll pgPWR d [(PWR.DOM_STS_POWERED, 1), (PWR.DOM_STS_BUSY, 0), (PWR.DOM_STS_HELD_OFF, 0)]
  if d = 23 then (s1.put pgCAGE CAGE.CSB_STS_OUT_HOLD (s.on pgSPA SPA.IL_STS_OUT_HOLD)).fuseView else s1

/-! ### Domain control (R806 to R811, R833) -/

def isSerdesDom (d : Nat) : Bool := decide (3 ≤ d) && decide (d ≤ 18)

/-- A SerDes power-up runs. -/
def State.serdesBusy (s : State) : Bool := s.domTrans.any fun e => isSerdesDom e.1 && e.2

/-- A lane of the group of SerDes domain d has TX_EN or RX_EN (R810). -/
def State.lanesOn (s : State) (d : Nat) : Bool :=
  (domPages d).any fun p => (List.range (if d ≤ 10 then 16 else 32)).any fun n =>
    if d ≤ 10 then s.on p LNP.LANE_CTL_TX_EN n || s.on p LNP.LANE_CTL_RX_EN n
    else s.on p FIU.LANE_CTL_TX_EN n || s.on p FIU.LANE_CTL_RX_EN n

/-- A write of DOM_CTL for domain d is refused (R807 to R810, R833). -/
def State.domRefused (s : State) (d : Nat) (on : Bool) : Bool :=
  decide (d = 19 ∨ d = 20) || (!on && decide (d = 22 ∨ d = 23)) ||
    (!on && decide (d = 1 ∨ d = 2) && (decide (s.active = some (d - 1)) || s.on pgSPA SPA.IL_STS_SWITCHING)) ||
    (!on && isSerdesDom d && s.lanesOn d) ||
    (on && s.on pgPWR PWR.THERM_STS_TRIPPED && s.on pgPWR PWR.DOM_STS_HELD_OFF d)

/-- An accepted write of DOM_CTL acts: a transition begins, is held behind the running one, or waits for its turn among the
SerDes domains (R811). -/
def State.domApply (s : State) (d : Nat) (on : Bool) : State :=
  if (tget s.domTrans d).isSome then { s with domHeld := tset s.domHeld d on }
  else if on then
    if s.domOn d ∨ s.serdesWait.contains d then s
    else if isSerdesDom d ∧ s.serdesBusy then
      { s with serdesWait := (s.serdesWait.filter fun x => decide (x < d)) ++ d :: (s.serdesWait.filter fun x => decide (d < x)) }
    else { s with domTrans := tset s.domTrans d true }.wr pgPWR PWR.DOM_STS_BUSY 1 d
  else if s.serdesWait.contains d then { s with serdesWait := s.serdesWait.filter fun x => decide (x ≠ d) }
  else if s.domOn d then
    let s1 := s.domDrop d
    { s1 with domTrans := tset s1.domTrans d false }.wr pgPWR PWR.DOM_STS_BUSY 1 d
  else s

/-- A write of DOM_CTLd (R806 to R811, R830): those of PD00 and PD21 are ignored, those made during a warm reset discarded. -/
def State.domWrite (s : State) (d : Nat) (on : Bool) : State :=
  if d = 0 ∨ d = 21 ∨ 24 ≤ d ∨ s.warming then s
  else if s.domRefused d on then (s.cnt pgPWR PWR.PWR_CNT 1).raise pgPWR 0
  else (s.put pgPWR PWR.DOM_CTL_ON on d).domApply d on

/-- DOM_POWER_ON (R811). -/
def execDomPowerOn (dom : Nat) (s : State) : Host.Outcome State Fault Refusal := .next (s.domWrite dom true)

/-- DOM_POWER_OFF (R809, R811). -/
def execDomPowerOff (dom : Nat) (s : State) : Host.Outcome State Fault Refusal := .next (s.domWrite dom false)

/-- A SerDes group has powered up: CAGE's squelch requests reach its lanes again (R164). -/
def State.resquelch (s : State) (g : Nat) : State :=
  if s.live pgCAGE then
    (List.range 64).foldl (fun (st : State) (c : Nat) =>
      if st.on pgCAGE CAGE.CAGE_STS_SQUELCH_REQ c then
        (st.cageLanes c).foldl (fun (t : State) (l : Nat) => if l / 32 = g then t.cageSquelch l true else t) st
      else st) s
  else s

/-- A power-up is complete (R811). -/
def State.domUp (s : State) (d : Nat) : State :=
  let s1 := ((s.domRise d).cnt pgPWR PWR.PWR_CNT 0).raise pgPWR 4
  if d = 1 ∨ d = 2 then s1.spRelease (d - 1) else if 3 ≤ d ∧ d ≤ 10 then s1.resquelch (d - 3) else s1

/-- The held write of domain d applies (R811). -/
def State.domNext (s : State) (d : Nat) : State :=
  match tget s.domHeld d with
  | some on => { s with domHeld := tdel s.domHeld d }.domApply d on
  | none => s

/-- The next SerDes domain in order powers up (R811). -/
def State.serdesNext (s : State) : State :=
  match s.serdesWait with
  | d :: t => if s.serdesBusy then s else { s with serdesWait := t }.domApply d true
  | [] => s

/-- DOM_TRANSITION_COMPLETE (R811). -/
def execDomTransitionComplete (dom : Nat) (s : State) : Host.Outcome State Fault Refusal :=
  .next (match tget s.domTrans dom with
    | none => s
    | some up =>
      let s1 := { s with domTrans := tdel s.domTrans dom }
      let s2 := if up then s1.domUp dom else s1.wr pgPWR PWR.DOM_STS_BUSY 0 dom
      (s2.domNext dom).serdesNext)

/-! ### Temperature (R831 to R833) -/

def startDoms : List Nat := [3, 4, 5, 6, 7, 8, 9, 10, 11, 12, 13, 14, 15, 16, 17, 18, 19, 20, 22, 23]

/-- Start-up stops with a code (R827). -/
def State.startFail (s : State) (code : Nat) : State := (s.wr pgRST RST.START_STS_FAIL code).raise pgRST 2

/-- The thermal trip (R831): PD03 to PD20, PD22 and PD23 go off; during start-up it is failure 3 (R827). -/
def State.thermTrip (s : State) : State :=
  let s1 := startDoms.foldl (fun (st : State) (d : Nat) =>
    (st.domDrop d).wrAll pgPWR d [(PWR.DOM_STS_BUSY, 0), (PWR.DOM_STS_HELD_OFF, 1)]) s
  let keep (d : Nat) : Bool := !startDoms.contains d
  let s2 := { s1 with domTrans := s1.domTrans.filter fun e => keep e.1
                      domHeld := s1.domHeld.filter fun e => keep e.1
                      serdesWait := [] }
  let s3 := (s2.wr pgPWR PWR.THERM_STS_TRIPPED 1).wrAll pgRST 0 [(RST.RST_CAUSE_THERMAL, 1), (RST.START_STS_EP_RELEASED, 0)]
  let s4 := (s3.cnt pgPWR PWR.PWR_CNT 3).raise pgPWR 2
  if s.on pgRST RST.START_STS_DONE ∨ s.rd pgRST RST.START_STS_FAIL ≠ 0 then s4 else s4.startFail 3

/-- THERM_READ (R831): the hottest sensor of each die in °C. -/
def execThermRead (fd qd : Nat) (s : State) : Host.Outcome State Fault Refusal :=
  .next (if ¬ s.pwrgood then s
    else
      let hot := max (fd % 256) (qd % 256)
      let lim := s.rd pgPWR PWR.THERM_CFG_TJ_WARN
      let s1 := ((s.wrAll pgPWR 0 [(PWR.TEMP_FD_C, fd), (PWR.TEMP_QD_C, qd)]).peak pgPWR PWR.TEMP_PEAK_FD_C (fd % 256)).peak
        pgPWR PWR.TEMP_PEAK_QD_C (qd % 256)
      let warn := s.on pgPWR PWR.THERM_STS_WARN
      let s2 := if ¬ warn ∧ lim < hot then ((s1.wr pgPWR PWR.THERM_STS_WARN 1).cnt pgPWR PWR.PWR_CNT 2).raise pgPWR 1
        else if warn ∧ hot + 5 ≤ lim then s1.wr pgPWR PWR.THERM_STS_WARN 0 else s1
      if s.rd pgPWR PWR.THERM_CFG_TJ_TRIP ≤ hot ∧ ¬ s.on pgPWR PWR.THERM_STS_TRIPPED then s2.thermTrip else s2)

/-- A write of THERM_CFG (R835): TJ_TRIP at most 0x73, TJ_WARN at most TJ_TRIP. -/
def State.thermCfgWrite (s : State) (v : Nat) : State :=
  let trip := min (bits v 8 8) 0x73
  s.wrAll pgPWR 0 [(PWR.THERM_CFG_TJ_TRIP, trip), (PWR.THERM_CFG_TJ_WARN, min (bits v 0 8) trip)]

/-- The active firmware's answer to an HBM trip (R832): full duty on every enabled fan output, and a log entry, whose event code
the spec leaves to the image's release notes (a free value; notes/assumptions/34.md). During a switchover gap it waits for the new active
processor. -/
def State.hbmTripFirmware (s : State) (stack : Nat) : State :=
  if s.on pgSPA SPA.IL_STS_SWITCHING then { s with thermHeld := s.thermHeld ++ [stack] } else
  match s.active with
  | none => s
  | some _ =>
    let s1 := (List.range 4).foldl (fun (st : State) (k : Nat) =>
      if st.on pgSPA SPA.FAN_DUTY_EN k then
        (if st.on pgSPA SPA.IL_STS_OUT_HOLD then st.outRefused else (st.wr pgSPA SPA.FAN_DUTY_PCT 100 k).fanPut k)
      else st) s
    let d := s1.draw 12
    d.2.logAppend (pageCode .hbc) stack s.fwSource (0x2100 + d.1 % 0xF00) 1 stack 0

/-- HBM_TEMP_READ (R514, R515, R832): one reading; the HBC takes one every 1 ms. TRIP follows the latest reading (R832 speaks of a TRIP that is still 1). -/
def execHbmTempRead (stack temp : Nat) (s : State) : Host.Outcome State Fault Refusal :=
  .next (if 4 ≤ stack ∨ ¬ s.live (pgHBC stack) then s
    else
      let p := pgHBC stack
      let force := s.on p HBC.REFRESH_CFG_FORCE_2X
      let was := s.on p HBC.STACK_STS_DOUBLED
      let trip := decide (105 ≤ temp)
      let first := trip && !s.on p HBC.STACK_STS_TRIP
      let s1 := (s.wr p HBC.STACK_STS_TEMP_C temp).put p HBC.STACK_STS_TRIP trip
      let s2 := { (if trip then s1.raise p 5 else s1) with
        hbmTripAt := if first then tset s.hbmTripAt stack s.ticks else if trip then s.hbmTripAt else tdel s.hbmTripAt stack }
      let up := decide (s.rd p HBC.REFRESH_CFG_TEMP_HI_C < temp) || force || trip
      let down := decide (temp ≤ s.rd p HBC.REFRESH_CFG_TEMP_LO_C) && !force && !trip
      let s3 := if up ∧ ¬ was then (s2.wr p HBC.STACK_STS_DOUBLED 1).raise p 4
        else if down then s2.wr p HBC.STACK_STS_DOUBLED 0
        else s2
      if first then s3.hbmTripFirmware stack else s3)

/-- HBM_TRIP_ESCALATE (R832): the active firmware forces the thermal trip 30 s after an HBM trip that stands. -/
def execHbmTripEscalate (s : State) : Host.Outcome State Fault Refusal :=
  .next (if s.active.isSome ∧ ¬ s.on pgSPA SPA.IL_STS_SWITCHING ∧ ¬ s.on pgPWR PWR.THERM_STS_TRIPPED ∧
      (s.hbmTripAt.any fun e => decide (e.2 + ticksMs 30000 ≤ s.ticks)) then s.thermTrip else s)

/-- What waited for the new active processor goes on: firmware and SEC commands, and the answers to trips that still stand. -/
def State.tasksResume (s : State) : State :=
  s.thermHeld.foldl (fun (t : State) n => if (tget t.hbmTripAt n).isSome then t.hbmTripFirmware n else t)
    { s.fwResume.secResume with thermHeld := [] }

/-- SP_TAKEOVER_DONE (R721). -/
def execSpTakeoverDone (sp : Nat) (s : State) : Host.Outcome State Fault Refusal :=
  .next (if sp < 2 ∧ s.role sp = spActive then
    let s1 := { s with takenOver := true }
    if s.on pgSPA SPA.IL_STS_SWITCHING then (s1.takeover sp).tasksResume else s1
  else s)

/-! ### Clocks (R817 to R820) -/

/-- SYSCLK_LOSS (R819). The PLLs hold their frequency: the model's clock goes on. -/
def execSysclkLoss (s : State) : Host.Outcome State Fault Refusal :=
  .next (if s.on pgCLK CLK.REF_STS_SYSCLK_OK then (s.wr pgCLK CLK.REF_STS_SYSCLK_OK 0).raise pgCLK 1 else s)

/-- SYSCLK_RESTORE (R819). -/
def execSysclkRestore (s : State) : Host.Outcome State Fault Refusal :=
  .next (if 1 ≤ s.rd pgRST RST.START_STS_STEP then s.wr pgCLK CLK.REF_STS_SYSCLK_OK 1 else s)

/-- The OK bit of reference k (R837). -/
def refOk (k : Nat) : Fld := if k = 0 then CLK.REF_STS_LREF_OK else if k = 1 then CLK.REF_STS_FREF_OK else CLK.REF_STS_PCIE_OK

/-- REF_OUT_OF_RANGE (R819, R837): a measurement of reference k, 0 LREF, 1 FREF, 2 PCIE_REFCLK, as the 16 bits of PPM. -/
def execRefOutOfRange (ref ppm : Nat) (s : State) : Host.Outcome State Fault Refusal :=
  .next (if 3 ≤ ref then s
    else
      let beyond := decide (10 * s.rd pgCLK CLK.REF_CFG_PPM_LIMIT < (signedOf 16 ppm).natAbs)
      ((s.wr pgCLK CLK.REF_PPM_PPM ppm ref).put pgCLK (refOk ref) (!beyond)).raiseIf beyond pgCLK 2)

/-- PLL_LOCK_LOSS (R820). -/
def execPllLockLoss (pll : Nat) (s : State) : Host.Outcome State Fault Refusal :=
  .next (if pll < 8 ∧ bit (s.rd pgCLK CLK.PLL_STS_LOCKED) pll then
    ((s.wr pgCLK CLK.PLL_STS_LOCKED (clrBit (s.rd pgCLK CLK.PLL_STS_LOCKED) pll)).wr pgCLK CLK.PLL_LOSS_LOST
      (setBit (s.rd pgCLK CLK.PLL_LOSS_LOST) pll)).raise pgCLK 0
  else s)

/-- PLL_RELOCK (R820): PLLs 0 to 6 once start-up has locked them, PLL 7 while the Bonnet has power. -/
def execPllRelock (pll : Nat) (s : State) : Host.Outcome State Fault Refusal :=
  .next (if pll < 8 ∧ ¬ bit (s.rd pgCLK CLK.PLL_STS_LOCKED) pll ∧
      (if pll = 7 then s.domOn 21 = true else 2 ≤ s.rd pgRST RST.START_STS_STEP) then
    (s.wr pgCLK CLK.PLL_STS_LOCKED (setBit (s.rd pgCLK CLK.PLL_STS_LOCKED) pll)).raise pgCLK 3
  else s)

/-! ### Resets (R822, R823, R828 to R830) -/

/-- A power-on reset (R828, R830): everything but the Bonnet, the fuses and the flash starts anew; what has been put out, waiting
commands and the model's own counters are no part of it. -/
def State.powerOnReset (s : State) : State :=
  let r := State.reset
  let keepBon := s.regs.filter fun e => inPage pgBON e.1
  let s1 : State :=
    { r with
      regs := keepBon
      shadow := s.shadow.filter fun e => decide (e.1 = pgBON)
      hold := s.hold.filter fun e => decide (e.1 % 4096 = pgBON)
      pending := s.pending, out := s.out, free := s.free, ticks := s.ticks
      perstHigh := s.perstHigh
      bonTaps := s.bonTaps, bonInterval := s.bonInterval, bonMeters := s.bonMeters, bonStomped := s.bonStomped
      bonBad := s.bonBad, bonLost := s.bonLost, bonImage := s.bonImage, bonImageBad := s.bonImageBad, bonSeq := s.bonSeq
      bonReport := s.bonReport, bonAsked := s.bonAsked, bonRing := s.bonRing, bonSeen := s.bonSeen, bonStepped := s.bonStepped
      flash := s.flash, fuseSvn := s.fuseSvn, eraseGen := s.eraseGen, keyRevoked := s.keyRevoked }
  let s2 := (s1.wr pgPWR PWR.DOM_STS_POWERED 1 0).wr pgPWR PWR.DOM_STS_POWERED (s.rd pgPWR PWR.DOM_STS_POWERED 21) 21
  let s3 := s2.wr pgPWR PWR.RAIL_STS_IN_REG (s.rd pgPWR PWR.RAIL_STS_IN_REG)
  let s4 := s3.wrAll pgCRWN 0 [(CRWN.DEV_SERIAL_LO_SERIAL, s.rd pgCRWN CRWN.DEV_SERIAL_LO_SERIAL),
    (CRWN.DEV_SERIAL_HI_SERIAL, s.rd pgCRWN CRWN.DEV_SERIAL_HI_SERIAL)]
  let s5 := s4.wrAll pgRST 0 [(RST.STRAP_RAW_FABMODE, s.rd pgRST RST.STRAP_RAW_FABMODE),
    (RST.STRAP_RAW_DEVID, s.rd pgRST RST.STRAP_RAW_DEVID), (RST.RST_CAUSE_THERMAL, s.rd pgPWR PWR.THERM_STS_TRIPPED)]
  s5.wr pgCLK CLK.PLL_STS_LOCKED (if s.domOn 21 then 128 else 0)

/-- PWRGOOD_FALL (R828, R830). -/
def execPwrgoodFall (s : State) : Host.Outcome State Fault Refusal := .next (if s.pwrgood then s.powerOnReset else s)

/-- POWER_ON_RESET (R822, R824): PWRGOOD rises with the straps at their levels; the rails have been in regulation for 2 ms (R814). -/
def execPowerOnReset (fabmode : Bool) (devid : Nat) (s : State) : Host.Outcome State Fault Refusal :=
  .next (if s.pwrgood then s
    else
      let rails := 127 + (if bit (s.rd pgPWR PWR.RAIL_STS_IN_REG) 7 then 128 else 0)
      let s1 := { s with pwrgood := true, startFrom := s.ticks }.wr pgPWR PWR.RAIL_STS_IN_REG rails
      (s1.wrAll pgRST 0 [(RST.STRAP_RAW_FABMODE, b2n fabmode), (RST.STRAP_RAW_DEVID, devid)]).wrAll pgCRWN 0
        [(CRWN.DEV_MODE_FABRIC, b2n fabmode), (CRWN.DEV_MODE_DEVICE_NUM, devid)])

/-- STRAP_CHANGE (R823): a live level changes; the role and the ID stay as sampled. -/
def execStrapChange (fabmode : Bool) (devid : Nat) (s : State) : Host.Outcome State Fault Refusal :=
  .next (
    let s1 := s.wrAll pgRST 0 [(RST.STRAP_RAW_FABMODE, b2n fabmode), (RST.STRAP_RAW_DEVID, devid)]
    let differs := decide (fabmode ≠ s.fabric ∨ devid % 4096 ≠ s.devNum)
    if s.pwrgood then s1.raiseIf differs pgRST 3 else s1)

/-- RAIL_FAULT (R813, R836): a rail, by its bit of RAIL_STS, leaves regulation while PWRGOOD is high. BON_VDD is not one of them
here: its fall is BON_VDD_LOSS (R815). -/
def execRailFault (rail : Nat) (s : State) : Host.Outcome State Fault Refusal :=
  .next (if rail < 7 ∧ s.pwrgood then
    ((s.wr pgPWR PWR.RAIL_STS_IN_REG (clrBit (s.rd pgPWR PWR.RAIL_STS_IN_REG) rail)).cnt pgPWR PWR.PWR_CNT 4).raise pgPWR 3
  else s)

/-- The domains a warm reset clears (R828). -/
def warmDoms : List Nat := [1, 2] ++ startDoms

/-- A warm reset (R828, R830): the pages of PD01 to PD20, PD22 and PD23 are cleared, DOM_CTL returns to its reset value, and
start-up begins anew behind step 1. The log ring keeps its entries. -/
def State.warmReset (s : State) : State :=
  let tripped := s.on pgPWR PWR.THERM_STS_TRIPPED
  let s1 := warmDoms.foldl (fun (st : State) (d : Nat) =>
    (if st.domOn d then st.domDrop d else st).wrAll pgPWR d [(PWR.DOM_STS_POWERED, 0), (PWR.DOM_STS_BUSY, 0),
      (PWR.DOM_STS_HELD_OFF, 0), (PWR.DOM_CTL_ON, PWR.DOM_CTL_ON.rstAt pgPWR d)]) s
  let s2 := { s1 with log := s.log, domTrans := [], domHeld := [], serdesWait := [], takeoverBy := none, takenOver := false
                      warming := true, startFrom := s.ticks }
  let s3 := (s2.wr pgLOG LOG.LOG_STS_COUNT (s.rd pgLOG LOG.LOG_STS_COUNT)).wr pgPWR PWR.THERM_STS_TRIPPED 0
  (s3.wrAll pgRST 0 [(RST.START_STS_STEP, 1), (RST.START_STS_DONE, 0), (RST.START_STS_EP_RELEASED, 0), (RST.START_STS_FAIL, 0),
    (RST.RST_CAUSE_POR, 0), (RST.RST_CAUSE_WARM, 1), (RST.RST_CAUSE_THERMAL, b2n tripped)]).incSat pgRST RST.WARM_CNT_COUNT

/-- RST_CMD WARM is refused (R829). -/
def State.warmRefused (s : State) (key : Nat) : Bool :=
  decide (key ≠ 0x5A3C) || (!s.on pgRST RST.START_STS_DONE && decide (s.rd pgRST RST.START_STS_FAIL = 0)) ||
    (s.on pgPWR PWR.THERM_STS_TRIPPED &&
      decide (s.rd pgPWR PWR.THERM_CFG_TJ_WARN < max (s.rd pgPWR PWR.TEMP_FD_C) (s.rd pgPWR PWR.TEMP_QD_C) + 10))

/-- A write of RST_CMD with OP = WARM (R829, R830). -/
def State.warmCmd (s : State) (key : Nat) : State := if s.warmRefused key then s.raise pgRST 1 else s.warmReset

/-- WARM_RESET (R829). -/
def execWarmReset (key : Nat) (s : State) : Host.Outcome State Fault Refusal := .next (s.warmCmd (key % 65536))

/-! ### Start-up (R824 to R827) -/

/-- Step 2: PD22 and PD23 are on, the Band's management channel is up, and in fabric mode the carve is the element's (R357). -/
def State.step2 (s : State) : State :=
  let s1 := ((s.domRise 22).domRise 23).wr pgBAND BAND.BAND_STS_UP 1
  let s2 := s1.wr pgCLK CLK.PLL_STS_LOCKED (orBits (s.rd pgCLK CLK.PLL_STS_LOCKED) 127)
  if s.fabric then
    [0, 288, 0, 0].zipIdx.foldl (fun (st : State) (e : Nat × Nat) => st.wr pgBPM BPM.POOL_CARVE_MIB e.1 e.2) s2
  else s2

/-- Step 5: the stacks are trained and the region configuration is in force, or they stay in self-refresh (R28). -/
def State.step5 (s : State) : State :=
  if s.fabric then s
  else
    ((List.range 4).foldl (fun (st : State) (k : Nat) =>
      st.wrAll (pgHBC k) 0 [(HBC.STACK_STS_TRAINED, 1), (HBC.STACK_STS_SELF_REFRESH, 0)]) s).wr (pgHBC 0) HBC.REGION_STS_APPLIED 1

/-- The next step's own conditions and effects; none where its conditions do not hold yet. -/
def State.startStep (s : State) (n : Nat) : Option State :=
  match n with
  | 1 => some ((s.wrAll pgCLK 0 [(CLK.REF_STS_SYSCLK_OK, 1), (CLK.REF_STS_LREF_OK, 1), (CLK.REF_STS_FREF_OK, 1),
      (CLK.REF_STS_PCIE_OK, 1)]))
  | 2 => some s.step2
  | 3 => some (((s.domRise 1).domRise 2 |>.spRelease 0).spRelease 1)
  | 4 =>
    if s.active.isSome ∧ s.on pgBAND BAND.BAND_STS_UP then
      some (((s.wr pgPCE PCE.SUBSYS_SVID s.bankSubsys).wr pgPCE PCE.SUBSYS_SSID (s.bankSubsys / 65536)).loadKek0)
    else none
  | 5 => some s.step5
  | 6 =>
    some (if s.fabric then (s.wr pgPWR PWR.DOM_STS_HELD_OFF 1 19).wr pgPWR PWR.DOM_STS_HELD_OFF 1 20
      else (s.domRise 19).domRise 20)
  | _ =>
    let ms := (s.ticks - s.startFrom) / ticksMs 1
    some ({ s with warming := false }.wrAll pgRST 0 [(RST.START_STS_DONE, 1), (RST.START_MS_MS, if ms < 65536 then ms else 65535)])

/-- STARTUP_STEP (R824): the next step is reached. -/
def execStartupStep (s : State) : Host.Outcome State Fault Refusal :=
  .next (if ¬ s.pwrgood ∨ s.on pgRST RST.START_STS_DONE ∨ s.rd pgRST RST.START_STS_FAIL ≠ 0 then s
    else
      let n := s.rd pgRST RST.START_STS_STEP + 1
      match s.startStep n with
      | none => s
      | some s1 =>
        let s2 := s1.wr pgRST RST.START_STS_STEP n
        if n = 7 then s2.raise pgRST 0 else s2)

/-- The Band fails to train: FAILED and the fatal cause (R19, R827). -/
def State.bandTrainFail (s : State) : State := (s.wrAll pgBAND 0 [(BAND.BAND_STS_UP, 0), (BAND.BAND_STS_FAILED, 1)]).raise pgBAND 2

/-- STARTUP_FAIL (R827): 1 no image, 2 PLL lock, 4 HBM training, 5 Band training. Failure 3 is the thermal trip, which comes about
within THERM_READ. -/
def execStartupFail (code : Nat) (s : State) : Host.Outcome State Fault Refusal :=
  .next (
    let st := s.rd pgRST RST.START_STS_STEP
    if ¬ s.pwrgood ∨ s.on pgRST RST.START_STS_DONE ∨ s.rd pgRST RST.START_STS_FAIL ≠ 0 then s
    else if code = 1 ∧ st = 3 ∧ s.active.isNone then s.startFail 1
    else if code = 2 ∧ st = 1 then s.startFail 2
    else if code = 4 ∧ st = 4 then s.startFail 4
    else if code = 5 ∧ st = 1 then (s.step2.bandTrainFail).startFail 5
    else if code = 5 ∧ st = 3 then s.bandTrainFail.startFail 5
    else s)

/-- PERST_RELEASE (R817, R825): PERST_N rises; SRNS applies. -/
def execPerstRelease (s : State) : Host.Outcome State Fault Refusal :=
  .next (if s.perstHigh ∨ ¬ s.pwrgood then s
    else { s with perstHigh := true, perstAt := s.ticks, srns := s.on pgCLK CLK.PCIE_CLK_CFG_SRNS })

/-- ENDPOINT_RELEASE (R535, R825): not before step 4 and 1 ms after the rise of PERST_N; with FAIL = 1 SUBSYS is 0 (R827). -/
def execEndpointRelease (s : State) : Host.Outcome State Fault Refusal :=
  .next (
    let noImage := decide (s.rd pgRST RST.START_STS_FAIL = 1)
    let ready := decide (4 ≤ s.rd pgRST RST.START_STS_STEP) && decide (s.rd pgRST RST.START_STS_FAIL ≠ 3) || noImage
    if s.perstHigh ∧ s.live pgPCE ∧ ready ∧ s.perstAt + ticksMs 1 ≤ s.ticks ∧ ¬ s.on pgRST RST.START_STS_EP_RELEASED then
      let word := s.rd pgPCE PCE.SUBSYS_SVID + 65536 * s.rd pgPCE PCE.SUBSYS_SSID
      { s with subsys := if noImage then 0 else word }.wr pgRST RST.START_STS_EP_RELEASED 1
    else s)

end Sys2Proof.Machine
end

