-- ==== Sys2Proof/Machine/Band.lean ====
section
/-! DEFINITION. Machine/Band.lean: the die-to-die links (spec chapter 1). The bytes that cross are given by the commands;
the model's own frames cross beside them as whole values (notes/assumptions/35.md). -/

namespace Sys2Proof.Machine

/-- The direction from FD to QD, or back. -/
def State.bandDir (s : State) (toQd : Bool) : BandDir := if toQd then s.bandFQ else s.bandQF
def State.setBandDir (s : State) (toQd : Bool) (b : BandDir) : State :=
  if toQd then { s with bandFQ := b } else { s with bandQF := b }

/-- The channel of what crosses (R14). -/
def msgVc : BandMsg → Nat
  | .frame true _ => 0
  | .frame false _ => 1
  | .table _ => 2
  | .hostDma _ => 3
  | .register _ => 4

def msgBytes : BandMsg → List Byte
  | .frame _ l => l
  | .table l => l
  | .hostDma l => l
  | .register l => l

/-- Messages join the streams of their channels, packed back to back (R13). -/
def BandDir.accept (b : BandDir) (l : List BandMsg) : BandDir :=
  l.foldl (fun (d : BandDir) m => { d with stream := lset d.stream (msgVc m) (d.stream.getD (msgVc m) [] ++ msgBytes m) }) b

/-- The bytes of a flit with its CRC-16 (R13). The CRC takes each byte from its most significant bit, unreflected, and is stored high
byte first; zeros fill a payload whose channel has no further bytes waiting (DESIGN CHOICE: R13 gives polynomial, initial value and
range only; notes/assumptions/35.md). -/
def Flit.encode (f : Flit) : List Byte :=
  let head := f.vc % 8 * 2 ^ 29 + f.kind % 4 * 2 ^ 27 + f.seq % 4096 * 2 ^ 15 + f.ack % 4096 * 2 ^ 3
  let body := toBe 4 head ++ f.payload.take 122 ++ List.replicate (122 - f.payload.length) 0
  body ++ toBe 2 (crcMsb 16 0x8BB7 0xFFFF body)

/-- The flit that 128 bytes spell. -/
def decodeFlit (l : List Byte) : Flit :=
  let w := beAt l 0 4
  { vc := bits w 29 3, kind := bits w 27 2, seq := bits w 15 12, ack := bits w 3 12, payload := slice l 4 122 }

/-- A flit's CRC is good (R13). -/
def flitGood (l : List Byte) : Bool := decide (l.length = 128) && decide (crcMsb 16 0x8BB7 0xFFFF (l.take 126) = beAt l 126 2)

def kDATA : Nat := 0
def kCREDIT : Nat := 1
def kREPLAY : Nat := 2
def kIDLE : Nat := 3

/-- The last sequence number received correctly in a direction, which flits of the other direction acknowledge. -/
def BandDir.lastGood (b : BandDir) : Nat := (b.expect + 4095) % 4096

/-- A flit leaves in a direction. -/
def State.bandEmit (s : State) (toQd : Bool) (f : Flit) : State := s.emit (.bandFlit toQd f.encode)

/-- A flit without data (R13, R18). It names VC4, and a replay request carries the number it asks for in SEQ (DESIGN CHOICE: R13 and
R17 say neither; notes/assumptions/35.md). -/
def State.bandBare (s : State) (toQd : Bool) (kind seq : Nat) : State :=
  s.bandEmit toQd { vc := 4, kind := kind, seq := seq, ack := (s.bandDir (!toQd)).lastGood, payload := [] }

/-- The Band is trained and carries flits. -/
def State.bandLive (s : State) : Bool := s.live pgBAND && s.bandUp

/-! ### Sending (R14, R16, R18) -/

/-- The weight of VC1 to VC4. -/
def State.vcWeight (s : State) (vc : Nat) : Nat :=
  match vc with
  | 1 => s.rd pgBAND BAND.BAND_VC_WEIGHT_VC1_W
  | 2 => s.rd pgBAND BAND.BAND_VC_WEIGHT_VC2_W
  | 3 => s.rd pgBAND BAND.BAND_VC_WEIGHT_VC3_W
  | _ => s.rd pgBAND BAND.BAND_VC_WEIGHT_VC4_W

/-- The channel among VC1 to VC4 that sends next, and the shares after it (R16): flits by weight; a channel of weight 0 only
where no other waits. The order inside a round is the model's (notes/assumptions/35.md). -/
def State.pickVc (s : State) (share : List Nat) (waiting : List Nat) : Option (Nat × List Nat) :=
  let full := [1, 2, 3, 4].map s.vcWeight
  let has (l : List Nat) : Option Nat := waiting.find? fun v => 0 < l.getD (v - 1) 0
  let spend (l : List Nat) (v : Nat) : List Nat := lset l (v - 1) (l.getD (v - 1) 0 - 1)
  match has share with
  | some v => some (v, spend share v)
  | none =>
    match has full with
    | some v => some (v, spend full v)
    | none => waiting.head?.map fun v => (v, share)

/-- The channel that sends next among those that wait (R16). While VC0 is not strict, the spec gives it no weight: whether it
goes first is a free value. -/
def State.nextVc (s : State) (toQd : Bool) (waiting : List Nat) : State × Option (Nat × List Nat) :=
  let share := (s.bandDir toQd).share
  let rest := waiting.filter fun v => decide (v ≠ 0)
  if waiting.contains 0 then
    if s.on pgBAND BAND.BAND_CTL_VC0_STRICT ∨ rest = [] then (s, some (0, share))
    else
      let d := s.draw 1
      if d.1 = 1 then (d.2, some (0, share)) else (d.2, s.pickVc share rest)
  else (s, s.pickVc share rest)

/-- A direction sends its next flit (R12 to R16, R18): up to 122 bytes of the channel whose turn it is, whatever message they belong
to; an idle flit while nothing waits or 2,048 data flits are unacknowledged. -/
def State.bandSend (s : State) (toQd : Bool) : State :=
  let b := s.bandDir toQd
  let ready := (List.range 5).filter fun v => !(b.stream.getD v []).isEmpty
  if 2048 ≤ b.retained.length then s.bandBare toQd kIDLE b.next
  else
    match s.nextVc toQd ready with
    | (s1, none) => s1.bandBare toQd kIDLE b.next
    | (s1, some (v, share)) =>
      let l := b.stream.getD v []
      let f : Flit := { vc := v, kind := kDATA, seq := b.next, ack := (s.bandDir (!toQd)).lastGood, payload := l.take 122 }
      let b1 : BandDir := { b with next := (b.next + 1) % 4096, retained := b.retained ++ [f], share := share
                                   stream := lset b.stream v (l.drop 122) }
      (s1.setBandDir toQd b1).bandEmit toQd f

/-- BAND_FLIT_SEND (R12 to R16, R18): `waiting` gives the messages that have come to the sender since its last flit. -/
def execBandFlitSend (toQd : Bool) (waiting : List BandMsg) (s : State) : Host.Outcome State Fault Refusal :=
  .next (if s.bandLive then (s.setBandDir toQd ((s.bandDir toQd).accept waiting)).bandSend toQd else s)

/-! ### Receiving and replay (R15, R17, R18) -/

/-- ACK_SEQ frees the retained flits up to the one it names (R18). -/
def BandDir.acked (b : BandDir) (ack : Nat) : BandDir :=
  match b.retained.findIdx? fun f => decide (f.seq = ack) with
  | some k => { b with retained := b.retained.drop (k + 1) }
  | none => b

/-- RETRY_LIMIT, where 0 is treated as 1 (R23). -/
def State.bandLimit (s : State) : Nat := max 1 (s.rd pgBAND BAND.BAND_CTL_RETRY_LIMIT)

/-- A flit of a direction has a CRC mismatch (R17, R19): it and every later flit are discarded and a replay is requested; a mismatch in
the replayed flits is a failed replay of the number asked for. -/
def State.bandMismatch (s : State) (toQd : Bool) : State :=
  let b := s.bandDir toQd
  let s1 := (s.inc pgBAND (if toQd then BAND.CRC_ERR_FQ else BAND.CRC_ERR_QF)).raise pgBAND 0
  if b.replaying ∧ ¬ b.resent then s1
  else
    let fails := if b.replaying then b.fails + 1 else 0
    let s2 := s1.setBandDir toQd { b with replaying := true, resent := false, fails := fails }
    if s.bandLimit ≤ fails then s2 else s2.bandBare (!toQd) kREPLAY b.expect

/-- BAND_CRC_MISMATCH (R17). -/
def execBandCrcMismatch (toQd : Bool) (s : State) : Host.Outcome State Fault Refusal :=
  .next (if s.bandLive then s.bandMismatch toQd else s)

/-- The sender of a direction resends what it retains from a sequence number (R17, R18). A replayed flit carries the ACK_SEQ it was
first sent with (DESIGN CHOICE: R18 keeps the flit, and no rule renews it; notes/assumptions/35.md). A number not yet sent needs no
replay: the next data flit is the one asked for. -/
def State.bandReplay (s : State) (toQd : Bool) (seq : Nat) : State :=
  let b := s.bandDir toQd
  match b.retained.findIdx? fun f => decide (f.seq = seq) with
  | none => if seq = b.next then s.setBandDir toQd { b with replaying := false, resent := false, fails := 0 } else s
  | some k =>
    let s1 := (s.inc pgBAND BAND.REPLAY_CNT).setBandDir toQd { b with resent := true }
    (b.retained.drop k).foldl (fun (st : State) (f : Flit) => st.bandEmit toQd f) s1

/-- BAND_REPLAY_REQUEST (R17): the sender of a direction receives the request. -/
def execBandReplayRequest (toQd : Bool) (seq : Nat) (s : State) : Host.Outcome State Fault Refusal :=
  .next (if s.bandLive then s.bandReplay toQd (seq % 4096) else s)

/-- A good flit is discarded because its receiver waits for a replay (R17): every one but a flit at the number asked for. -/
def BandDir.discards (b : BandDir) (f : Flit) : Bool := b.replaying && !(decide (f.kind ≠ kREPLAY) && decide (f.seq = b.expect))

/-- A good flit arrives in a direction: its ACK_SEQ frees flits of the other direction; a data flit with the expected number is
delivered, any other is not; a replay request is answered. -/
def State.bandGood (s : State) (toQd : Bool) (f : Flit) : State :=
  let s1 := s.setBandDir (!toQd) ((s.bandDir (!toQd)).acked f.ack)
  let b := s1.bandDir toQd
  if (s.bandDir toQd).discards f then s
  else if f.kind = kDATA then
    if f.seq = b.expect then
      (s1.setBandDir toQd { b with expect := (b.expect + 1) % 4096, replaying := false, resent := false, fails := 0 }).emit
        (.bandPayload toQd f.vc f.payload)
    else s1
  else if f.kind = kREPLAY then s1.bandReplay (!toQd) f.seq
  else s1

/-- BAND_FLIT_RECEIVE (R15, R17, R18): 128 bytes arrive at the receiver of a direction. -/
def execBandFlitReceive (toQd : Bool) (flit : List Byte) (s : State) : Host.Outcome State Fault Refusal :=
  .next (if ¬ s.bandLive then s
    else if flitGood flit then s.bandGood toQd (decodeFlit flit)
    else s.bandMismatch toQd)

/-! ### Retraining (R19) -/

/-- A retrain begins: both dies hold their unsent flits. -/
def State.bandRetrain (s : State) : State :=
  (s.wrAll pgBAND 0 [(BAND.BAND_STS_UP, 0), (BAND.BAND_STS_RETRAINING, 1)]).incSat pgBAND BAND.RETRAIN_CNT_COUNT

/-- BAND_RETRY_LIMIT (R19). -/
def execBandRetryLimit (toQd : Bool) (s : State) : Host.Outcome State Fault Refusal :=
  .next (if s.bandLive ∧ (s.bandDir toQd).replaying ∧ s.bandLimit ≤ (s.bandDir toQd).fails then s.bandRetrain else s)

/-- BAND_RETRAIN (R19): a write of BAND_CTL.RETRAIN. -/
def execBandRetrain (s : State) : Host.Outcome State Fault Refusal := .next (s.gate pgBAND (·.bandRetrain))

/-- After a retrain the failed replays count anew, and a receiver that waits asks again (R17). -/
def State.bandResume (s : State) (toQd : Bool) : State :=
  let b := s.bandDir toQd
  let s1 := s.setBandDir toQd { b with resent := false, fails := 0 }
  if b.replaying then s1.bandBare (!toQd) kREPLAY b.expect else s1

/-- The retrain succeeds: FAILED clears and the Band carries flits again (R19). -/
def State.bandTrained (s : State) : State :=
  let s1 := (s.wrAll pgBAND 0 [(BAND.BAND_STS_UP, 1), (BAND.BAND_STS_RETRAINING, 0), (BAND.BAND_STS_FAILED, 0)]).raise pgBAND 1
  (s1.bandResume true).bandResume false

/-- The retrain fails (R19). -/
def State.bandFailed (s : State) : State :=
  (s.wrAll pgBAND 0 [(BAND.BAND_STS_UP, 0), (BAND.BAND_STS_RETRAINING, 0), (BAND.BAND_STS_FAILED, 1)]).raise pgBAND 2

end Sys2Proof.Machine
end

