-- ==== Sys2Proof/Machine/Lookup.lean ====
section
/-! DEFINITION. Machine/Lookup.lean: a frame inside an ingress pipeline after dealing: range search, longest-prefix and exact
match, learning, next hops and the payload scan (spec 08_route_lookup.md R270 to R272, R280, R281, R283, R287 to R290, R292;
07_parser_pipelines.md R244, R251, R261, R262; 09_range_search.md R329 to R338; 03_frame_journey.md R94). -/

namespace Sys2Proof.Machine

/-! ### Frames in the pipelines -/

/-- A frame goes on inside the pipelines. -/
def State.pipe (s : State) (x : Piped) : State := { s with piped := s.piped ++ [x] }

/-- The result of a frame, or its drop token, waits for ORD (R84). -/
def State.pipeEnd (s : State) (x : Piped) (drop : Bool) : State :=
  s.pipe { x with stage := .ready, drop := drop, exm := none, frame := { x.frame with aux := [] } }

/-- The first frame inside the pipelines that meets a condition, and the state without it. -/
def State.takePiped (s : State) (c : Piped → Bool) : Option (Piped × State) :=
  match s.piped.find? c with
  | none => none
  | some x =>
    let i := s.piped.findIdx c
    some (x, { s with piped := s.piped.take i ++ s.piped.drop (i + 1) })

/-- A frame by its context and sequence number. -/
def Piped.is (x : Piped) (ctx seq : Nat) : Bool := decide (x.frame.ctx = ctx) && decide (x.frame.seq = seq)

/-- Steered frames that wait show; back-pressure holds while more than 128 wait (R262). -/
def State.pmmView (s : State) : State :=
  let n := (s.piped.filter fun x => x.stage = .scan).length
  let s1 := s.wr pgPMM PMM.PMM_STS_WAITING (min 128 n)
  let bp (t : State) (b : Nat) : State :=
    (List.range 20).foldl (fun t i => t.wr (pgIPP i) IPP.IPP_STS_BP (max b (s.rd (pgRSU 0) RSU.RSQ_STS_BP)))
      (t.wr pgPMM PMM.PMM_STS_BP b)
  if 128 < n ∧ ¬ s.on pgPMM PMM.PMM_STS_BP then (bp s1 1).raise pgPMM 1
  else if n ≤ 128 ∧ s.on pgPMM PMM.PMM_STS_BP then bp s1 0
  else s1

/-- Stage 104 (R251, R261): a frame with PMM_EN waits for its scan, which begins here, with the patterns of this moment (R263; that it
begins as the frame begins to wait is DEDUCED, notes/assumptions/24.md). While the matcher holds the pipelines back, the frame waits
before the stage (R262). -/
def State.toScan (s : State) (x : Piped) : State :=
  if s.on pgPMM PMM.PMM_STS_BP then s.pipe { x with stage := .held }
  else if ¬ bit (x.frame.act.getD 0 0) 4 then s.pipeEnd x false
  else if ¬ s.enabled pgPMM then s.pipeEnd x true
  else (s.pipe { x with stage := .scan, exm := none, frame := { s.scan x.frame with aux := [] } }).pmmView

/-- The frames held before stage 104 go on, in order, as far as the matcher lets them (R262). -/
def State.pmmRelease (s : State) : State :=
  if s.on pgPMM PMM.PMM_STS_BP then s
  else
    (s.piped.filter fun x => decide (x.stage = .held)).foldl (fun (t : State) x => t.toScan x)
      { s with piped := s.piped.filter fun x => decide (x.stage ≠ .held) }

/-! ### Next hops (R270, R271, R289, R290) -/

/-- The lookup profile of a frame (R270). -/
def Frame.lkpProf (f : Frame) : Nat := bits (f.act.getD 0 0) 24 8 % 64

/-- The VRF of a frame (R270). -/
def Frame.vrf (f : Frame) : Nat := bits (f.act.getD 2 0) 0 12

/-- A next hop is invalid, drops or is reserved (R289). -/
def nhBad (w : List Nat) : Bool := !bit (w.getD 0 0) 3 || decide (bits (w.getD 0 0) 0 3 = 0) || decide (bits (w.getD 0 0) 0 3 = 7)

/-- A frame takes a next hop into its descriptor (R289), with its class from the action word. -/
def Frame.take (f : Frame) (w : List Nat) : Frame :=
  let d := w.getD 1 0
  { f with nhType := bits (w.getD 0 0) 0 3, dest := d, cls := bits (f.act.getD 0 0) 0 3, rewrite := bits (w.getD 2 0) 0 18
           group := d % 65536, qp := d % 8192 }

/-- The member of an ECMP group that a frame selects (R290). -/
def State.ecmpMember (s : State) (f : Frame) (g : Nat) : Nat :=
  let k := f.lkpProf
  let slots := [LKP.PROF_C_HASH0, LKP.PROF_C_HASH1, LKP.PROF_C_HASH2, LKP.PROF_C_HASH3].map fun x => s.rd pgLKP x k
  let h := hash32c (s.rd pgNHP NHP.ECMP_SEED_SEED) (slots.flatMap fun j => tgetD f.slots j [])
  bits g 0 21 + (h % 65536) * (bits g 21 9 + 1) / 65536

/-- A frame is longer than the MTU of a next hop (R289). -/
def Frame.tooLong (f : Frame) (w : List Nat) : Bool := bit (w.getD 3 0) 14 && decide (bits (w.getD 3 0) 0 14 < f.len)

/-- What a next-hop index comes to: the row after one level of ECMP, and whether the frame is longer than the MTU of a row on the way;
none with the counts where the frame is dropped. -/
def State.nextHop (s : State) (f : Frame) (nh : Nat) : State × Option (List Nat × Bool) :=
  let row (id i : Nat) : List Nat := s.rowAt f.epoch id false i
  let w := row 24 nh
  if bit (w.getD 0 0) 3 ∧ bits (w.getD 0 0) 0 3 = 4 then
    let g := (row 25 (w.getD 1 0 % 65536)).getD 0 0
    if ¬ bit g 31 then (s.cnt pgNHP NHP.NHP_CNT 2, none)
    else
      let s1 := s.cnt pgNHP NHP.NHP_CNT 1
      let v := row 24 (bits ((row 26 (s.ecmpMember f g % 2 ^ 21)).getD 0 0) 0 20)
      if bit (v.getD 0 0) 3 ∧ bits (v.getD 0 0) 0 3 = 4 then ((s1.cnt pgNHP NHP.NHP_CNT 3).raise pgNHP 1, none)
      else if nhBad v then (s1.cnt pgNHP NHP.NHP_CNT 2, none)
      else (s1, some (v, f.tooLong w || f.tooLong v))
  else if nhBad w then (s.cnt pgNHP NHP.NHP_CNT 2, none)
  else (s, some (w, f.tooLong w))

/-- A frame that read a row with a double-bit error is dropped, and the row's page signals it (R90). -/
def State.deadDrop (s : State) (x : Piped) (id : Nat) : State := (s.raise (eccPage id) 2).pipeEnd x true

/-- The rows that a next-hop index leads through have a double-bit error among them. -/
def State.hopDead (s : State) (f : Frame) (nh : Nat) : Bool :=
  let row (id i : Nat) : List Nat := s.rowAt f.epoch id false i
  let w := row 24 nh
  let g := w.getD 1 0 % 65536
  let m := s.ecmpMember f ((row 25 g).getD 0 0) % 2 ^ 21
  s.rowsDead 24 false [nh] || (bit (w.getD 0 0) 3 && decide (bits (w.getD 0 0) 0 3 = 4) &&
    (s.rowsDead 25 false [g] || (bit ((row 25 g).getD 0 0) 31 &&
      (s.rowsDead 26 false [m] || s.rowsDead 24 false [bits ((row 26 m).getD 0 0) 0 20]))))

/-- A frame resolves to a next-hop index (R289): one that is longer than the MTU of its next hop resolves to MISS_NH, whose own
MTU is not tested again. -/
def State.resolve (s : State) (x : Piped) (nh : Nat) : State :=
  if ¬ s.enabled pgNHP ∨ ¬ s.on pgNHP NHP.NHP_CTL_EN then s.pipeEnd x true
  else
    let f := x.frame
    if s.hopDead f nh then (s.cnt pgNHP NHP.NHP_CNT 0).deadDrop x 24
    else match (s.cnt pgNHP NHP.NHP_CNT 0).nextHop f nh with
    | (s1, none) => s1.pipeEnd x true
    | (s1, some (w, false)) => s1.toScan { x with frame := f.take w }
    | (s1, some (_, true)) =>
      if s1.hopDead f (s.rd pgLKP LKP.MISS_NH_NH) then s1.deadDrop x 24
      else match s1.nextHop f (s.rd pgLKP LKP.MISS_NH_NH) with
      | (s2, none) => s2.pipeEnd x true
      | (s2, some (v, _)) => s2.toScan { x with frame := f.take v }

/-- The VRF default of a frame's address family, where it is valid (R271); the LPM page holds it. -/
def State.vrfDefault (s : State) (f : Frame) : Option Nat :=
  let w := (s.rowAt f.epoch (if s.on pgLKP LKP.PROF_A_IPV6 f.lkpProf then 6 else 5) false f.vrf).getD 0 0
  if bit w 31 ∧ s.enabled pgLPM then some (bits w 0 20) else none

/-- The sources of R271 in their order. A frame of VRF 4,095 takes only the VRF default (R272). -/
def State.choose (s : State) (x : Piped) (exm lpm : Option Nat) : State :=
  let f := x.frame
  let w1 := f.act.getD 1 0
  let ovr := if bit w1 31 ∧ f.vrf ≠ 4095 then some (bits w1 0 20) else none
  match ovr.orElse fun _ => exm.orElse fun _ => lpm with
  | some nh => s.resolve x nh
  | none =>
    if s.enabled pgLPM ∧ s.rowsDead (if s.on pgLKP LKP.PROF_A_IPV6 f.lkpProf then 6 else 5) false [f.vrf] then s.deadDrop x 5
    else match s.vrfDefault f with
    | some nh => (s.cnt pgLPM LPM.LPM_CNT 4).resolve x nh
    | none =>
      if s.on pgLKP LKP.PROF_A_MISS_TO_NH f.lkpProf then s.resolve x (s.rd pgLKP LKP.MISS_NH_NH)
      else (s.cnt pgLKP LKP.LKP_CNT 3).pipeEnd x true

/-! ### Longest-prefix match (R275 to R281) -/

/-- The prefix table of a frame's family. -/
def State.lpmId (s : State) (f : Frame) : Nat := if s.on pgLKP LKP.PROF_A_IPV6 f.lkpProf then 4 else 3

/-- The destination address of a frame. -/
def State.lpmAddr (s : State) (f : Frame) : Nat :=
  beNat (f.join [s.rd pgLKP LKP.PROF_A_ADDR_SLOT f.lkpProf] (if s.lpmId f = 4 then 16 else 4))

/-- The lengths to be probed, longest first, at most 8 (R275 to R277, R280). -/
def State.lpmLens (s : State) (f : Frame) : List Nat :=
  let a := s.lpmAddr f
  let row (id i : Nat) : Nat := wordsNat (s.rowAt f.epoch id false i)
  let pick (bm n lo : Nat) : List Nat := (((List.range n).reverse.filter fun k => bit bm k).map fun k => lo + k).take 8
  if s.lpmId f = 3 then pick (row 0 (a / 2 ^ 16)) 17 16
  else
    let d := row 1 (a / 2 ^ 112)
    pick (if bit d 105 then row 2 (bits d 106 12 * 256 + a / 2 ^ 104 % 256) else d) 105 24

/-- A filter row that the probe lengths come from has a double-bit error. -/
def State.filterDead (s : State) (f : Frame) : Bool :=
  let a := s.lpmAddr f
  let d := wordsNat (s.rowAt f.epoch 1 false (a / 2 ^ 112))
  if s.lpmId f = 3 then s.rowsDead 0 false [a / 2 ^ 16]
  else s.rowsDead 1 false [a / 2 ^ 112] || (bit d 105 && s.rowsDead 2 false [bits d 106 12 * 256 + a / 2 ^ 104 % 256])

/-- A bucket on die of some probe lengths holds a row with a double-bit error. -/
def State.lpmDead (s : State) (f : Frame) (lens : List Nat) : Bool :=
  lens.any fun len =>
    let r := s.prefixRows (s.lpmId f) len f.vrf (s.lpmAddr f)
    s.on pgLPM LPM.LEN_CFG_VALID (lenIndex (s.lpmId f) len) && !s.on pgLPM LPM.LEN_CFG_HBM (lenIndex (s.lpmId f) len) &&
      s.rowsDead (s.lpmId f) false (r.1 ++ r.2)

/-- The hit of a length (R281): a length whose table is not valid has none. -/
def State.lpmProbe (s : State) (f : Frame) (len : Nat) : Option Nat :=
  let id := s.lpmId f
  let n := lenIndex id len
  let w := if id = 3 then 32 else 128
  if ¬ s.on pgLPM LPM.LEN_CFG_VALID n then none
  else
    let r := s.prefixRows id len f.vrf (s.lpmAddr f)
    (r.1 ++ r.2).findSome? fun i =>
      let v := s.rowAt f.epoch id (s.on pgLPM LPM.LEN_CFG_HBM n) i
      if slotVrf id v = f.vrf ∧ slotAddr id v = maskTo w len (s.lpmAddr f) then some (bits (v.getD (if id = 3 then 1 else 4) 0) 0 20)
      else none

/-- The longest hit of a group. -/
def State.lpmGroup (s : State) (f : Frame) (lens : List Nat) : Option Nat := lens.findSome? (s.lpmProbe f)

/-- The HBM bucket reads of a group (R283, R499). -/
def State.lpmReads (s : State) (f : Frame) (lens : List Nat) : List HbmAcc :=
  let id := s.lpmId f
  (lens.filter fun len => s.on pgLPM LPM.LEN_CFG_VALID (lenIndex id len) && s.on pgLPM LPM.LEN_CFG_HBM (lenIndex id len)).flatMap
    fun len =>
      let r := s.prefixRows id len f.vrf (s.lpmAddr f)
      [r.1, r.2].filterMap fun l => l.head?.map fun i =>
        { port := 2, spill := false, addr := rowAddr (s.rowKey id true i), len := 64, write := false }

/-! ### Exact match and learning (R285 to R288) -/

/-- The exact-match table of a profile. -/
def State.exmTable (s : State) (f : Frame) : Nat := s.rd pgLKP LKP.PROF_A_EXM_TABLE f.lkpProf

/-- The exact-match key of a frame, with a slot in the place of PART0 (R285, R287). -/
def State.exmFrameKey (s : State) (f : Frame) (first : Fld) : List Byte :=
  f.join ([first, LKP.PROF_B_PART1, LKP.PROF_B_PART2, LKP.PROF_B_PART3].map fun x => s.rd pgLKP x f.lkpProf)
    (s.exmLen (s.exmTable f))

/-- A lookup of a key: the row and its content, with HIT set in it (R286), as the frame's epoch sees them. -/
def State.exmLookup (s : State) (f : Frame) (key : List Byte) : State × Option (Nat × List Nat) :=
  let t := s.exmTable f
  let s1 := s.cnt pgEXM EXM.EXM_CNT 0
  match s.planExm t key [] with
  | none => (s1, none)
  | some k =>
    let read (i : Nat) : List Nat := s.rowAt f.epoch k.id k.hbm i
    match k.find read with
    | none => (s1, none)
    | some i =>
      let w := lset (read i) (s.flagWord t) (setBit ((read i).getD (s.flagWord t) 0) 3)
      ((s1.cnt pgEXM EXM.EXM_CNT 1).rowTouch f.epoch k.id k.hbm i w, some (i, w))

/-- A learn or a move is refused (R288). -/
def State.learnRefused (s : State) : State := (s.cnt pgEXM EXM.EXM_CNT 3).raise pgEXM 1

/-- A report of a learn (2) or a move (3) (R287, R296): a full ring takes no record. -/
def State.learnReport (s : State) (type t row : Nat) (w : List Nat) (result : Nat) : State :=
  if s.rptFull then s.raise pgAGE 0 else (s.report type t row (w.take 4) result).cnt pgAGE AGE.AGE_CNT 2

/-- Entries learned in the present millisecond. -/
def State.learned (s : State) : Nat := if s.learnMs = s.ticks / 800000 then s.learnCount else 0

/-- The image of a learned entry (R286, R287). -/
def State.learnImage (s : State) (t : Nat) (key : List Byte) (result : Nat) : List Nat :=
  let n := if s.exmWide t then 12 else 4
  (bytesToBeWords key ++ List.replicate n 0).take n ++ [result, 13, 0, 0]

/-- EXM_LEARN (R287, R288). -/
def State.learn (s : State) (f : Frame) : State :=
  let t := s.exmTable f
  let key := s.exmFrameKey f LKP.PROF_A_SA_SLOT
  let result := (s.rd pgEXM EXM.LEARN_NH_BASE_NH + f.ctx) % 2 ^ 20
  let hbm := s.on pgEXM EXM.TBL_CFG_A_HBM t
  let locked (i : Nat) : Bool := (tget s.locks (s.rowKey (8 + t) hbm i)).isSome
  match s.exmLookup f key with
  | (s1, some (i, w)) =>
    if bits (w.getD (s.resultWord t) 0) 0 20 = result ∨ ¬ s.on pgEXM EXM.LEARN_CTL_MOVE_EN ∨ bit (w.getD (s.flagWord t) 0) 1 then s1
    else if locked i then s1.learnRefused
    else
      let v := lset w (s.resultWord t) result
      ((s1.rowTouch f.epoch (8 + t) hbm i v).cnt pgEXM EXM.EXM_CNT 4).learnReport 3 t i v result
  | (s1, none) =>
    let limit := s.rd pgEXM EXM.LEARN_CTL_MAX_PER_MS
    match s.planExm t key (s.learnImage t key result) with
    | none => s1
    | some k =>
      if limit ≠ 0 ∧ limit ≤ s.learned then s1.learnRefused
      else match k.free fun i => s.rowUsed (8 + t) (s.rowAt f.epoch (8 + t) hbm i) with
        | none => s1.learnRefused
        | some i =>
          if locked i then s1.learnRefused
          else
            let old := s.rowAt f.epoch (8 + t) hbm i
            let s2 := ((s1.countRow (8 + t) old k.image).rowTouch f.epoch (8 + t) hbm i k.image).cnt pgEXM EXM.EXM_CNT 2
            { s2 with learnMs := s.ticks / 800000, learnCount := s.learned + 1 }.learnReport 2 t i k.image result

/-- Exact-match lookups run (R319), and the frame uses one, learns by one, or uses longest-prefix match (R271, R272, R287, R317). A
source whose lookups do not run gives no result, and the next one is asked (DEDUCED, notes/assumptions/36.md). -/
def State.exmRuns (s : State) : Bool := s.enabled pgEXM && s.on pgEXM EXM.EXM_CTL_EN
def State.usesExm (s : State) (f : Frame) : Bool := s.exmRuns && s.on pgLKP LKP.PROF_A_EXM_EN f.lkpProf && decide (f.vrf ≠ 4095)
def State.learns (s : State) (f : Frame) : Bool := s.exmRuns && s.on pgLKP LKP.PROF_A_LEARN_EN f.lkpProf
def State.usesLpm (s : State) (f : Frame) : Bool :=
  s.enabled pgLPM && (if s.lpmId f = 4 then s.on pgLPM LPM.LPM_CTL_V6_EN else s.on pgLPM LPM.LPM_CTL_V4_EN) &&
    s.on pgLKP LKP.PROF_A_LPM_EN f.lkpProf && decide (f.vrf ≠ 4095)

/-- The HBM bucket reads of a frame's exact-match and learning lookups (R283). -/
def State.exmReads (s : State) (f : Frame) : List HbmAcc :=
  let t := s.exmTable f
  if ¬ s.on pgEXM EXM.TBL_CFG_A_VALID t ∨ ¬ s.on pgEXM EXM.TBL_CFG_A_HBM t then []
  else
    let keys := (if s.usesExm f then [s.exmFrameKey f LKP.PROF_B_PART0] else []) ++
      (if s.learns f then [s.exmFrameKey f LKP.PROF_A_SA_SLOT] else [])
    keys.flatMap fun key =>
      let r := s.exmRows t key
      [r.1, r.2].filterMap fun l => l.head?.map fun i =>
        { port := 3, spill := false, addr := rowAddr (s.rowKey (8 + t) true i), len := 128, write := false }

/-- A bucket on die of a frame's exact-match lookup holds a row with a double-bit error. -/
def State.exmDead (s : State) (f : Frame) : Bool :=
  let t := s.exmTable f
  let r := s.exmRows t (s.exmFrameKey f LKP.PROF_B_PART0)
  s.usesExm f && s.on pgEXM EXM.TBL_CFG_A_VALID t && !s.on pgEXM EXM.TBL_CFG_A_HBM t && s.rowsDead (8 + t) false (r.1 ++ r.2)

/-! ### The lookup stages (R244, R271, R280, R283, R311) -/

/-- A frame enters the park of its pipeline while its reads run (R244, R264). -/
def State.parkIn (s : State) (x : Piped) (stage : PipeStage) (reads : List HbmAcc) : State :=
  let n2 := (reads.filter fun r => r.port = 2).length
  let s1 := ((s.cnt pgLKP LKP.LKP_CNT 1).bump pgLPM LPM.LPM_CNT 3 3 n2).bump pgEXM EXM.EXM_CNT 5 5 (reads.length - n2)
  let s2 := reads.foldl (fun (t : State) r => t.hbmPost r) s1
  let s3 := ((s2.inc (pgIPP x.pipe) IPP.PARKS).pipe { x with stage := stage }).parkView x.pipe
  s3.raiseIf (decide (s3.parked x.pipe = 64)) (pgIPP x.pipe) 1

/-- A frame goes to the park of its pipeline, or waits in its stage while that holds 64 frames (R244). -/
def State.park (s : State) (x : Piped) (stage : PipeStage) (reads : List HbmAcc) : State :=
  if 64 ≤ s.parked x.pipe then s.pipe { x with stage := if stage = .park1 then .full1 else .full2 } else s.parkIn x stage reads

/-- The second probe group, or the end of the lookup. -/
def State.afterSecond (s : State) (x : Piped) : State :=
  if s.lpmDead x.frame (x.frame.aux.drop 4) then s.deadDrop x 3
  else s.choose x (x.exm.getD none) (s.lpmGroup x.frame (x.frame.aux.drop 4))

/-- The exact-match lookup and the first probe group (R280, R281, R287). -/
def State.afterFirst (s : State) (x : Piped) : State :=
  let f := x.frame
  let e : State × Option (Nat × List Nat) := if s.usesExm f then s.exmLookup f (s.exmFrameKey f LKP.PROF_B_PART0) else (s, none)
  let exm := e.2.map fun r => bits (r.2.getD (s.resultWord (s.exmTable f)) 0) 0 20
  let s1 := if s.learns f then e.1.learn f else e.1
  if s.exmDead f then s1.deadDrop x 8
  else if ¬ s.usesLpm f then s1.choose x exm none
  else if s1.lpmDead f (f.aux.take 4) then s1.deadDrop x 3
  else
    let s2 := s1.cnt pgLPM LPM.LPM_CNT (if s.lpmId f = 4 then 1 else 0)
    match s2.lpmGroup f (f.aux.take 4) with
    | some nh => s2.choose x exm (some nh)
    | none =>
      let rest := f.aux.drop 4
      if rest.isEmpty then s2.choose x exm none
      else
        let s3 := s2.cnt pgLPM LPM.LPM_CNT 2
        let y := { x with exm := some exm }
        if (s3.lpmReads f rest).isEmpty then s3.afterSecond y else s3.park y .park2 (s3.lpmReads f rest)

/-- The reads of the first park: the first probe group and the exact-match lookups (R283). -/
def State.firstReads (s : State) (f : Frame) : List HbmAcc :=
  (if s.usesLpm f then s.lpmReads f (f.aux.take 4) else []) ++ s.exmReads f

/-- Stages 49 to 100 of a frame (R271): one for an LKP page that is not enabled is dropped. -/
def State.lookup (s : State) (x : Piped) : State :=
  let f := x.frame
  if ¬ s.enabled pgLKP then s.pipeEnd x true
  else
    let s1 := s.cnt pgLKP LKP.LKP_CNT 0
    let y := { x with frame := { f with aux := if s.usesLpm f then s.lpmLens f else [] } }
    if s.usesLpm f ∧ s.filterDead f then s1.deadDrop x 0
    else if (s1.firstReads y.frame).isEmpty then s1.afterFirst y else s1.park y .park1 (s1.firstReads y.frame)

/-- A frame for the host (R251, R331) resolves to a queue pair without a rewrite row. No rule says which: its number is a free
value. -/
def State.toHost (s : State) (x : Piped) : State :=
  let d := s.draw 13
  let f := x.frame
  d.2.toScan { x with frame := { f with nhType := 3, dest := d.1, qp := d.1, cls := bits (f.act.getD 0 0) 0 3, rewrite := noRewrite } }

/-- Stage 49: the frame captures the table epoch and the fence generation (R292, R311), and takes what its action words ask past range
search: TO_HOST, or the lookup (R251). -/
def State.route (s : State) (x : Piped) : State :=
  let y := { x with frame := { x.frame with looked := true, epoch := s.epoch, fence := s.fences } }
  if bit (x.frame.act.getD 0 0) 6 then s.toHost y else s.lookup y

/-- What the action words ask of a frame past the classifier: DROP, range search, or what follows it (R251, R329, R336). -/
def State.act (s : State) (x : Piped) : State :=
  let a := x.frame.act.getD 0 0
  if bit a 5 then s.pipeEnd x true
  else if ¬ bit a 3 then s.route x
  else if ¬ s.enabled (pgRSU 0) then s.pipeEnd x true
  else if ¬ s.on (pgRSU 0) RSU.PROF_CFG_VALID x.frame.rsuProf then (s.cnt (pgRSU 0) RSU.RSU_GCNT 6).pipeEnd x true
  else (s.pipe { x with stage := .search }).rsuQueueView

/-! ### Results that frames wait for -/

/-- A read of a failed HBM channel, or past the region, answers as poisoned (R497, R518). -/
def State.readsFail (s : State) (reads : List HbmAcc) : Bool :=
  reads.any fun r => s.hbmFailed false r.addr r.len || decide (s.tableBytes < r.addr + r.len)

/-- The reads of a frame at its park. -/
def State.parkReads (s : State) (x : Piped) : List HbmAcc :=
  if x.stage = .park1 ∨ x.stage = .full1 then s.firstReads x.frame else s.lpmReads x.frame (x.frame.aux.drop 4)

/-- No regulator and no channel still holds one of these reads (R284). -/
def State.readsOut (s : State) (reads : List HbmAcc) : Bool :=
  reads.all fun r => !(s.heldBy r.port).contains r && (s.hbmBursts r).all fun e => !(s.chan e.1).reads.contains e.2

/-- A place in the park of pipeline i is free: the frame that has waited longest for one takes it (R244). -/
def State.parkNext (s : State) (i : Nat) : State :=
  match s.takePiped fun x => decide (x.pipe = i) && (decide (x.stage = .full1) || decide (x.stage = .full2)) with
  | none => s
  | some (x, s1) => s1.parkIn x (if x.stage = .full1 then .park1 else .park2) (s1.parkReads x)

/-- A parked frame leaves with its results. A poisoned row drops the frame (R94). -/
def State.unpark (s : State) (x : Piped) (poisoned : Bool) : State :=
  let s1 := s.parkView x.pipe
  let s2 := if poisoned ∨ s1.readsFail (s1.parkReads x) then (s1.raise pgLKP 3).pipeEnd x true
    else if x.stage = .park1 then s1.afterFirst x else s1.afterSecond x
  s2.parkNext x.pipe

/-- PARK_RESUME (R244): the reads of a parked frame have returned: each has left its regulator and its channel (R284), and the Band
carries the results (R19). -/
def execParkResume (ctx seq : Nat) (poisoned : Bool) (s : State) : Host.Outcome State Fault Refusal :=
  .next (match s.takePiped fun x => x.is ctx seq && x.parks with
    | none => s
    | some (x, s1) => if s.bandUp ∧ s.readsOut (s.parkReads x) then s1.unpark x poisoned else s)

/-- RSU_SEARCH_RESULT (R336): the search at the head of the queue ends with a result, or with a parity error where a unit that it compared
has one (R335). -/
def execRsuSearchResult (parity : Option (Nat × Nat)) (s : State) : Host.Outcome State Fault Refusal :=
  .next (match s.takePiped fun x => x.stage = .search with
    | none => s
    | some (x, s1) =>
      let s1 := { s1 with rsuTurn := (s.rsuTurn + 1) % 4 }
      match s.rsuBad x.frame parity with
      | some (b, u) => ((s1.cnt (pgRSU 0) RSU.RSU_GCNT 0).rsuParity b u).pipeEnd x true |>.rsuQueueView
      | none =>
        match s1.rsuOutcome x.frame with
        | (s2, f, true) => (s2.pipeEnd { x with frame := f } true).rsuQueueView
        | (s2, f, false) => (s2.route { x with frame := f }).rsuQueueView)

/-- PMM_SCAN_DONE (R261): a scan ends with its result (R260). -/
def execPmmScanDone (ctx seq : Nat) (s : State) : Host.Outcome State Fault Refusal :=
  .next (match s.takePiped fun x => x.is ctx seq && decide (x.stage = .scan) with
    | none => s
    | some (x, s1) =>
      let s2 := s1.cnt pgPMM PMM.PMM_CNT 0
      (((if x.frame.pmmHit then s2.cnt pgPMM PMM.PMM_CNT 1 else s2).pipeEnd x false).pmmView).pmmRelease)

/-! ### The fence (R292) -/

/-- FENCE_CMD (R292): the generation flips; BUSY holds until the frames of earlier generations are gone. -/
def State.fenceCmd (s : State) : State :=
  (({ s with fences := s.fences + 1 }.wr pgNHP NHP.FENCE_STS_BUSY 1).wr pgNHP NHP.FENCE_STS_GEN ((s.fences + 1) % 2))

/-- FENCE_CMD (R292). -/
def execFenceCmd (s : State) : Host.Outcome State Fault Refusal := .next (s.gate pgNHP (·.fenceCmd))

/-- FENCE_COMPLETE (R292): no frame of an earlier generation is left. -/
def execFenceComplete (s : State) : Host.Outcome State Fault Refusal :=
  .next (if s.live pgNHP ∧ s.on pgNHP NHP.FENCE_STS_BUSY ∧ s.oldFrames = 0 then (s.wr pgNHP NHP.FENCE_STS_BUSY 0).raise pgNHP 0
  else s)

end Sys2Proof.Machine
end

