-- ==== Sys2Proof/Machine/FramePath.lean ====
section
/-! DEFINITION. Machine/FramePath.lean: a frame from a MAC to dealing, from ORD to the QD, and from the QD to a MAC (spec
03_frame_journey.md R83 to R94; 04_line_ports.md R109 to R125, R135 to R140, R874; 07_parser_pipelines.md R239 to R247; 08_route_lookup.md
R291; 11_queues_scheduling.md R379). -/

namespace Sys2Proof.Machine

/-! ### Reception (R115 to R124) -/

/-- Bytes of the ingress hold that frames of port g take (R122). -/
def State.portOcc (s : State) (g : Nat) : Nat :=
  ((s.holdFrames.filter fun f => f.ctx = g).map Frame.holdBytes).foldl (· + ·) 0

/-- XOFF or XON of a line port by its occupancy now (R122). -/
def State.flowCheck (s : State) (g : Nat) : State := if g < 256 ∧ s.live (msc g) then s.pauseSend g (s.portOcc g) else s

/-- The receive timestamp of slot g (R135). -/
def State.rxTime (s : State) (g : Nat) : NetTime :=
  s.nt.shift (((s.rd (msc g) MSC.PTP_RX_DELAY_DELAY (g % 16) * 2 ^ 32 : Nat) : Int) +
    signedOf 16 (s.rd (msc g) MSC.PTP_CTL_ASYM (g % 16)) * ((2 ^ 40 : Nat) : Int))

/-- The transmit timestamp of slot g (R136). -/
def State.txTime (s : State) (g : Nat) : NetTime :=
  s.nt.shift ((s.rd (msc g) MSC.PTP_TX_DELAY_DELAY (g % 16) * 2 ^ 32 : Nat) : Int)

/-- Fragments of a preempted frame (R115): the whole frame with its timestamp once its last fragment is in, and the state that
keeps what has come before. A mark on any fragment marks the frame (R110). -/
def State.reassemble (s : State) (g : Nat) (part : RxPart) (bytes : List Byte) (marked : Bool) :
    State × Option (List Byte × NetTime × Bool) :=
  let m := s.mac g
  let keep (p : Option (List Byte × NetTime × Bool)) : State := s.setMac g { m with partial_ := p }
  let start := some (bytes, s.rxTime g, marked)
  let bad : State := (keep none).macCnt g 15
  match part, m.partial_ with
  | .whole, _ => (s, start)
  | .first, p => (if p.isSome then bad.setMac g { m with partial_ := start } else keep start, none)
  | .middle true, some (l, t, k) => (keep (some (l ++ bytes, t, k || marked)), none)
  | .last true, some (l, t, k) => (keep none, some (l ++ bytes, t, k || marked))
  | _, _ => (bad, none)

/-- The fault that a received frame is counted in, by its MSC counter (R118): marked, runt, oversize, FCS error. -/
def State.rxFault (s : State) (g : Nat) (l : List Byte) (fcs : Nat) (marked : Bool) : Option Nat :=
  if marked then some 5
  else if l.length + 4 < 64 then some 3
  else if s.rd (msc g) MSC.MAC_CTL_MAX_FRAME (g % 16) < l.length + 4 then some 4
  else if crc32 l ≠ fcs % 2 ^ 32 then some 2
  else none

/-- A MAC control frame that the MSC consumes (R121): PAUSE with its time, or PFC with its vector and times. It goes by EtherType
and opcode; the destination address is not looked at (DESIGN CHOICE: R121 names no test of it; notes/assumptions/12.md). -/
def State.rxControl (s : State) (g : Nat) (l : List Byte) : Option State :=
  if etherTypeAt l 12 ≠ 0x8808 then none
  else match beAt l 14 2 with
    | 0x0001 => some (s.rxPause g (beAt l 16 2))
    | 0x0101 => some (s.rxPfc g (beAt l 16 2 % 256) ((List.range 8).map fun n => beAt l (18 + 2 * n) 2))
    | _ => none

/-- Every SAMPLE_N-th frame of an observed port is taken by the sampler (R645). -/
def State.ipfixCount (s : State) (g : Nat) : State × Bool :=
  if s.live pgSVC ∧ s.on pgSVC SVC.OBS_CFG_EN g then
    let n := (s.mac g).sampled + 1
    if s.rd pgSVC SVC.OBS_CFG_SAMPLE_N g ≤ n then (s.setMac g { s.mac g with sampled := 0 }, true)
    else (s.setMac g { s.mac g with sampled := n }, false)
  else (s, false)

/-- A frame asks for room in the ingress hold (R120, R874). An admitted one reserves MAX_FRAME bytes while it arrives, which may
cross the port's XOFF threshold (R122); at its last byte the reservation shrinks to the frame. -/
def State.holdAdmit (s : State) (g : Nat) (f : Frame) : State :=
  let max := s.rd (msc g) MSC.MAC_CTL_MAX_FRAME (g % 16)
  if s.holdUsed + max ≤ 4194304 then
    let s1 := if g < 256 ∧ s.live (msc g) then s.pauseSend g (s.portOcc g + max) else s
    { s1 with ingress := s1.ingress ++ [f] }
  else (s.macCnt g 8).raise (msc g) 3

/-- A frame past its checks: MACsec, the receive sum, the Bonnet, trace and sampling, then the ingress hold (R115). -/
def State.rxFrame (s : State) (g : Nat) (l : List Byte) (t : NetTime) (fcs : Nat) (bad cut : Bool) : State :=
  match s.macsecRx g l with
  | (s1, none) => s1
  | (s1, some b) =>
    let p := msc g
    let f : Frame :=
      { bytes := b, fcs := fcs % 2 ^ 32, fcsGood := !bad, port := g, ctx := g, time := t, timeValid := s.ntValid
        csum := if s.on p MSC.CSUM_CTL_RX_EN (g % 16) then
            some (s.rd p MSC.CSUM_CTL_RX_START (g % 16), onesSum (b.drop (s.rd p MSC.CSUM_CTL_RX_START (g % 16))))
          else none
        startKey := s.rd pgPRS PRS.START_KEY_KEY g, modified := decide (b ≠ l), cut := cut }
    let s2 := s1.bonTap g 0 b (b.length + 4)
    let tr := s2.traceRx f
    let s3 := tr.1.tracePointAt tr.2 1 (g / 16) (g % 256) ((b.length + 4) % 2 ^ 14) t
    let ix := s3.ipfixCount g
    (ix.1.holdAdmit g { tr.2 with ipfix := ix.2 }).flowCheck g

/-- A whole received frame (R117, R118, R121): one with a fault is counted and dropped, unless its first bytes have gone on
cut-through and the fault is an uncorrectable codeword or its FCS (R93). -/
def State.rxWhole (s : State) (g : Nat) (l : List Byte) (t : NetTime) (fcs : Nat) (marked cut : Bool) : State :=
  let p := msc g
  let held := s.on p MSC.SEC_CTL_RX_EN (g % 16) && decide (s.rd p MSC.SEC_CTL_VALIDATE (g % 16) ≠ 0)
  match s.rxFault g l fcs marked with
  | some n =>
    let s1 := s.macCnt g n
    if cut ∧ ¬ held ∧ (n = 5 ∨ n = 2) then s1.rxFrame g l t fcs true true else s1
  | none =>
    let s1 := ((s.macCnt g 0).macCnt g 1 (l.length + 4)).bwRx g (l.length + 4)
    match s1.rxControl g l with
    | some s2 => s2
    | none => s1.rxFrame g l t fcs false (cut && !held)

/-- The receive MAC of slot g works: its page has power, RX_EN is 1 and the link is up (R115, R152). -/
def State.macHears (s : State) (g : Nat) : Bool :=
  decide (g < 256) && s.live (msc g) && s.on (msc g) MSC.MAC_CTL_RX_EN (g % 16) && s.on (msc g) MSC.MAC_STS_LINK (g % 16)

/-- The lanes of slot g loop what it sends back to its receiver: near-end PMA loopback on all of them (R150). -/
def State.slotLooped (s : State) (g : Nat) : Bool := !(s.phyLanes g).isEmpty && (s.phyLanes g).all fun l => s.laneLooped l

/-- A frame or fragment at the receive MAC of slot g (R115). -/
def State.macRx (s : State) (g : Nat) (part : RxPart) (bytes : List Byte) (fcs : Nat) (marked cut : Bool) : State :=
  match s.reassemble g part bytes marked with
  | (s1, none) => s1
  | (s1, some (l, t, k)) => s1.rxWhole g l t fcs k (cut && decide (part = .whole))

/-- MAC_RX_FRAME (R115): a frame or a fragment arrives from the line at a slot with its FCS. `errs`: the errors of each codeword that
it lies in, of which one beyond what the FEC corrects marks it (R109, R110); `cut`: it reaches dealing before its last byte has
arrived (R74). A looped slot hears itself only (R150). -/
def execMacRxFrame (slot : Nat) (part : RxPart) (bytes : List Byte) (fcs : Nat) (errs : List Nat) (cut : Bool) (s : State) :
    Host.Outcome State Fault Refusal :=
  .next (if s.macHears slot ∧ ¬ s.slotLooped slot then
    s.macRx slot part bytes fcs (errs.any fun n => s.fecMarks slot n) cut
  else s)

/-! ### Dealing (R239, R240, R247) -/

/-- The two bytes of a sum change places. -/
def swapSum (v : Nat) : Nat := v % 256 * 256 + v / 256

/-- The receive sum of a frame, taken from byte `start` on, moved to begin at byte q (R124): the bytes between are taken out of it or
added. Whatever follows the datagram stays in the sum (DEDUCED: R124 sums to the last byte before the FCS;
notes/assumptions/36.md). -/
def sumFrom (l : List Byte) (start sum q : Nat) : Nat :=
  if start ≤ q then
    let v := onesAdd sum (onesNeg (onesSum (slice l start (q - start))))
    if (q - start) % 2 = 1 then swapSum v else v
  else onesAdd (onesSum (slice l q (start - q))) (if (start - q) % 2 = 1 then swapSum sum else sum)

/-- The TCP or UDP checksum of a frame by the receive sum (R124, R620): 0 not checked, 1 good, 2 bad. -/
def Frame.checkL4 (f : Frame) : Nat :=
  match f.csum, f.l3, f.l4 with
  | some (start, sum), some o, some q =>
    match ipAt f.bytes o with
    | none => 0
    | some (v6, _, proto) =>
      let len := (if v6 then 40 + beAt f.bytes (o + 4) 2 else beAt f.bytes (o + 2) 2) - (q - o)
      if (proto ≠ 6 ∧ proto ≠ 17) ∨ q < o then 0
      else if proto = 17 ∧ ¬ v6 ∧ beAt f.bytes (q + 6) 2 = 0 then 0
      else if onesAdd (pseudoSum f.bytes o v6 proto len) (sumFrom f.bytes start sum q) % 65535 = 0 then 1 else 2
  | _, _, _ => 0

/-- A frame passes the parser and the classifier (R227, R249, R871), and goes on by its action words; a frame for a page that is not enabled is dropped there. -/
def State.pass (s : State) (f : Frame) (pipe : Nat) : State :=
  if ¬ s.enabled pgPRS then s.pipeEnd { frame := f, stage := .ready, pipe := pipe } true
  else
    let g := s.parse f
    let s1 := if g.reason = 0 then s else s.cnt pgPRS PRS.INCOMPLETE (g.reason - 1)
    if ¬ s.enabled pgCLS then s1.pipeEnd { frame := g, stage := .ready, pipe := pipe } true
    else
      let c := s1.classify { g with l4chk := g.checkL4 } pipe
      let s2 := if c.2.ipfix then c.1.ipfixSample c.2 else c.1
      s2.act { frame := c.2, stage := .ready, pipe := pipe }

/-- A host transmit frame may be tagged for tracing as it is dealt (R783). -/
def State.traceHost (s : State) (f : Frame) : State × Frame :=
  if 256 ≤ f.ctx ∧ ¬ f.traced ∧ s.on pgOBS OBS.TRACE_CTL_HOST_EN then s.traceTag f else (s, f)

/-- The oldest frame of the ingress hold goes to pipeline i (R239, R240). -/
def State.deal (s : State) (i : Nat) (f : Frame) : State :=
  let x := s.ctx f.ctx
  let s1 := { s.setCtx f.ctx { x with deal := (x.deal + 1) % 65536 } with nextIpp := (i + 1) % 20 }
  let tr := s1.traceHost { f with seq := x.deal }
  let s2 := tr.1.tracePoint tr.2 2 i f.ctx x.deal
  (s2.pass tr.2 i).ordView.flowCheck f.ctx

/-- DEAL_FRAME (R239): nothing is dealt while ORD has no room, under back-pressure, or with no pipeline in rotation. -/
def execDealFrame (s : State) : Host.Outcome State Fault Refusal :=
  .next (match s.ingress, s.pickIpp with
    | f :: rest, some i => if s.mayDeal then { s with ingress := rest }.deal i f else s
    | _, _ => s)

/-! ### The reorder unit (R246 to R248) -/

/-- A released result goes on to the QD, or to its service (R612); a drop token ends (R84, R246, R269). A frame found bad goes to no
service: it ends here, counted where its fault was (R93). -/
def State.ordSend (s : State) (h : OrdHeld) : State :=
  let waited := (s.ticks - h.since) * 5 / 4
  let s1 := (s.peak pgORD ORD.MAX_WAIT_NS waited).tracePoint h.frame 3 0 h.frame.ctx
    (b2n h.drop + 2 * b2n (decide (h.frame.nhType = 3)))
  if h.drop then s1.cnt pgORD ORD.ORD_CNT 1
  else
    let s2 := s1.cnt pgORD ORD.ORD_CNT 0
    if h.frame.nhType = 5 then (if h.frame.fcsGood then s2.serviceDispatch h.frame else s2)
    else { s2 with toQd := s2.toQd ++ [h.frame] }

/-- The results of a context that stand next in order, released; `left` bounds them by the results held. -/
def State.releaseRun (s : State) (c : Nat) : (left : Nat) → State
  | 0 => s
  | left + 1 =>
    let x := s.ctx c
    match tget x.held x.next with
    | none => s
    | some h => ((s.setCtx c { x with held := tdel x.held x.next, next := (x.next + 1) % 65536 }).ordSend h).releaseRun c left

/-- The gap timer of a context after a release (R246): stopped while nothing is held, else running. -/
def State.ordTimer (s : State) (c : Nat) : State :=
  let x := s.ctx c
  s.setCtx c { x with timer := if x.held.isEmpty then none else some (x.timer.getD s.ticks) }

/-- A result or drop token reaches ORD (R246). -/
def State.ordTake (s : State) (f : Frame) (drop : Bool) : State :=
  let x := s.ctx f.ctx
  let d := (f.seq + 65536 - x.next) % 65536
  if 32768 ≤ d then ((s.cnt pgORD ORD.ORD_CNT 3).raise pgORD 1).ordView
  else
    let y := { x with held := tset x.held f.seq ⟨f, drop, s.ticks⟩ }
    (((s.setCtx f.ctx y).releaseRun f.ctx y.held.length).ordTimer f.ctx).ordView

/-- ORD_RESULT (R246): the result of a frame, or its drop token, leaves its pipeline. A frame for an ORD page that is not enabled
ends there, and one dealt before a soft reset of ORD is dropped and counted (R866). -/
def execOrdResult (ctx seq : Nat) (s : State) : Host.Outcome State Fault Refusal :=
  .next (match s.takePiped fun x => x.is ctx seq && decide (x.stage = .ready) with
    | none => s
    | some (x, s1) =>
      let s2 := s1.inc (pgIPP x.pipe) IPP.FRAMES
      if x.stale then ((s2.cnt pgORD ORD.ORD_CNT 1).ordView).flowCheck ctx
      else if s.enabled pgORD then (s2.ordTake x.frame x.drop).flowCheck ctx else s2)

/-- The gap timer of a context has reached GAP_TIMEOUT, in units of 10 ns, which are 8 timing clocks; 0 is treated as 1 (R246, R269). -/
def State.gapDue (s : State) (c : Nat) : Bool :=
  match (s.ctx c).timer with
  | some t => decide (8 * max 1 (s.rd pgORD ORD.ORD_CTL_GAP_TIMEOUT) ≤ s.ticks - t)
  | none => false

/-- ORD_GAP_TIMEOUT (R246): the gap timer of a context that holds results expires; the gap is skipped. -/
def execOrdGapTimeout (ctx : Nat) (s : State) : Host.Outcome State Fault Refusal :=
  .next (match (s.ctx ctx).nearest with
    | none => s
    | some q =>
      if ¬ s.live pgORD ∨ ¬ s.gapDue ctx then s
      else
        let s1 := ((s.setCtx ctx { s.ctx ctx with next := q }).cnt pgORD ORD.ORD_CNT 2).raise pgORD 0
        ((s1.releaseRun ctx (s1.ctx ctx).held.length).ordTimer ctx).ordView)

/-! ### The egress pipelines (R91, R92, R241, R291, R379) -/

/-- A 16-bit word of an IPv4 header changes from a to b: the header checksum at offset c follows (R291, R379). -/
def sumStep (l : List Byte) (c a b : Nat) : List Byte :=
  patch l c (toBe 2 (onesNeg (onesAdd (onesAdd (onesNeg (beAt l c 2)) (onesNeg a)) b)))

/-- The IPv4 TTL or IPv6 hop limit at an L3 start decremented (R291). One less than 0 has no value in 8 bits: `under` stands for it
(a free value). -/
def ttlDec (under o : Nat) (l : List Byte) : List Byte :=
  let less (v : Nat) : Nat := if v = 0 then under else v - 1
  match ipAt l o with
  | some (false, _, _) =>
    let m := patch l (o + 8) (toBe 1 (less (beAt l (o + 8) 1)))
    sumStep m (o + 10) (beAt l (o + 8) 2) (beAt m (o + 8) 2)
  | some (true, _, _) => patch l (o + 7) (toBe 1 (less (beAt l (o + 7) 1)))
  | none => l

/-- CE written into an IP header (R379). -/
def ceMark (o : Nat) (l : List Byte) : List Byte :=
  match ipAt l o with
  | some (false, _, _) =>
    let m := patch l (o + 1) (toBe 1 (orBits (beAt l (o + 1) 1) 3))
    sumStep m (o + 10) (beAt l o 2) (beAt m o 2)
  | some (true, _, _) => patch l (o + 1) (toBe 1 (orBits (beAt l (o + 1) 1) 0x30))
  | none => l

/-- The rewrite of a frame (R291, R379): TTL and CE at the L3 start, then the bytes stripped and pushed. -/
def rewriteBytes (row : List Nat) (under : Nat) (f : Frame) : List Byte :=
  let w := row.getD 0 0
  let l := match f.l3 with
    | some o =>
      let a := if bit w 16 then ttlDec under o f.bytes else f.bytes
      if f.ce then ceMark o a else a
    | none => f.bytes
  (wordsToBytes (row.drop 2)).take (min 56 (bits w 8 8)) ++ l.drop (bits w 0 8)

/-- The rewrite row of a frame; one that names none changes nothing. -/
def State.rewriteRow (s : State) (f : Frame) : List Nat :=
  if f.rewrite = noRewrite then [] else s.rowNow 27 false (f.rewrite % 2 ^ 18)

/-- A frame that leaves an egress pipeline for its port (R241), or for the host path (R25). A host frame of a next hop that names
no queue pair takes a free value for it. -/
def State.eppOut (s : State) (f : Frame) : State :=
  if s.isHostPort f.outPort then
    let d := s.draw 13
    if f.nhType = 3 then { s with hostRx := s.hostRx ++ [f] }
    else { d.2 with hostRx := s.hostRx ++ [{ f with qp := d.1 }] }
  else if ¬ s.live (msc f.outPort) then s
  else
    let m := s.mac f.outPort
    (s.setMac f.outPort { m with txq := lset m.txq f.macq (m.txq.getD f.macq [] ++ [f]) }).lpiLeave f.outPort

/-- A frame dropped in an egress pipeline gives back its grant (R413). -/
def State.eppDrop (s : State) (f : Frame) : State :=
  if s.isHostPort f.outPort then s
  else
    let m := s.mac f.outPort
    s.setMac f.outPort { m with credit := lset m.credit f.macq (m.credit.getD f.macq 0 - (f.qlen + 20)) }

/-- The next egress pipeline in the cyclic order (R241). -/
def State.pickEpp (s : State) : Option Nat :=
  ((List.range 20).map fun k => (s.nextEpp + k) % 20).find? fun i => s.live (pgEPP i) && s.on (pgEPP i) EPP.EPP_CTL_DEAL_EN

/-- A frame passes egress pipeline i (R91 to R93, R291). `marks` are the IEEE 1588 marks that the pipeline sets (R139, R140). A rewrite
that leaves every byte as it was modifies none (DEDUCED from the words of R91; notes/assumptions/36.md). -/
def State.eppPass (s : State) (i : Nat) (f : Frame) (poisoned : Bool) (marks : Nat) : State :=
  let p := pgEPP i
  let s1 := ({ s with nextEpp := (i + 1) % 20 }.inc p EPP.FRAMES).tracePoint f 8 i (f.outPort % 256) (f.rewrite % 2 ^ 18)
  if f.poison ∨ poisoned then ((s1.inc p EPP.POISON_DROP).raise p 1).eppDrop f
  else if (f.err ∨ ¬ f.fcsGood) ∧ ¬ f.cut then s1.eppDrop f
  else if f.rewrite ≠ noRewrite ∧ s1.rowsDead 27 false [f.rewrite % 2 ^ 18] then (s1.raise (eccPage 27) 2).eppDrop f
  else
    let row := s1.rewriteRow f
    let d := s1.draw 8
    let l := rewriteBytes row d.1 f
    let new := f.modified || decide (l ≠ f.bytes)
    let g := { f with bytes := l, modified := new, ofl := bits (row.getD 1 0) 0 8, oflArg := bits (row.getD 1 0) 8 24, ptp := marks }
    (d.2.inc p (if new then EPP.FCS_NEW else EPP.FCS_PASS)).eppOut g

/-- EPP_DEAL (R241): the next frame from the QD. `poisoned`: its data came poisoned from the on-chip buffer (R90, R92). -/
def execEppDeal (poisoned : Bool) (marks : Nat) (s : State) : Host.Outcome State Fault Refusal :=
  .next (match s.toFd, s.pickEpp with
    | f :: rest, some i => if s.bandUp then ({ s with toFd := rest }.eppPass i f poisoned (marks % 8)).poolView else s
    | _, _ => s)

/-! ### Transmission (R116, R119, R125, R136, R139, R140) -/

/-- Where the IEEE 1588 message of a frame lies: its offset, and the offset of its UDP header with whether IP is version 6
(PRESUMED from IEEE 1588 and IEEE 802.1Q; notes/assumptions/36.md). -/
def ptpAt (l : List Byte) : Option (Nat × Option (Nat × Bool)) :=
  let tag (o : Nat) : Nat := if etherTypeAt l o = 0x8100 ∨ etherTypeAt l o = 0x88A8 then o + 4 else o
  let o := tag (tag 12)
  if etherTypeAt l o = 0x88F7 then some (o + 2, none)
  else match ipAt l (o + 2) with
    | some (v6, hl, 17) => if etherTypeAt l o = 0x0800 ∨ etherTypeAt l o = 0x86DD then some (o + 2 + hl + 8, some (o + 2 + hl, v6)) else none
    | _ => none

/-- The UDP checksum after a change of its payload (R139): 0 over IPv4, followed over IPv6. -/
def udpFollow (old new : List Byte) : Option (Nat × Bool) → List Byte
  | none => new
  | some (u, false) => patch new (u + 6) [0, 0]
  | some (u, true) =>
    patch new (u + 6) (toBe 2 (onesNeg (onesAdd (onesAdd (onesNeg (beAt old (u + 6) 2)) (onesNeg (onesSum (old.drop (u + 8)))))
      (onesSum (new.drop (u + 8))))))

/-- The one-step edits of a frame (R139). -/
def oneStep (marks : Nat) (rx tx : NetTime) (l : List Byte) : List Byte :=
  match ptpAt l with
  | none => l
  | some (o, udp) =>
    let a := if bit marks 0 then patch l (o + 34) (toBe 6 tx.sec ++ toBe 4 tx.ns) else l
    let stay : Int := (((tx.total : Nat) : Int) - ((rx.total : Nat) : Int)) / ((2 ^ 32 : Nat) : Int)
    let b := if bit marks 1 then patch a (o + 8) (toBe 8 (unsignedOf 64 (((beAt a (o + 8) 8 : Nat) : Int) + stay))) else a
    if bits marks 0 2 = 0 then l else udpFollow l b udp

/-- A two-step record of a marked frame (R140). A marked frame without an IEEE 1588 message gives free values. -/
def State.twoStep (s : State) (g : Nat) (l : List Byte) (tx : NetTime) : State :=
  match ptpAt l with
  | some (o, _) => s.tsCapture g (beAt l o 1 % 16) (beAt l (o + 30) 2) tx
  | none =>
    let a := s.draw 4
    let b := a.2.draw 16
    b.2.tsCapture g a.1 b.1 tx

/-- The MSC's own edits before MACsec (R116): one-step edits and the checksum. -/
def State.txEdit (s : State) (g : Nat) (f : Frame) (tx : NetTime) : List Byte :=
  let p := msc g
  let a := if s.on p MSC.PTP_CTL_ONE_STEP_EN (g % 16) then oneStep f.ptp f.time tx f.bytes else f.bytes
  match f.csumIns with
  | some (start, off) => if s.on p MSC.CSUM_CTL_TX_EN (g % 16) then csumInsert start off a else a
  | none => a

/-! ### Sending (R116, R129 to R131, R413) -/

/-- A slot begins to send a frame (R93, R116): one-step edits and checksum, MACsec, padding, the length check, the two-step record, and
the FCS, inverted where the frame is bad. None where the frame is dropped before its first bit: it is too long, MACsec drops it, or
its fault is found before that bit. No rule says whether a fault is found before or after: a free bit (notes/assumptions/36.md). -/
def State.txBegin (s : State) (g : Nat) (f : Frame) : State × Option TxCut :=
  let p := msc g
  let bad := f.err || !f.fcsGood
  let d := if bad then s.draw 1 else (0, s)
  if d.1 = 1 then (d.2, none)
  else
    let tx := d.2.txTime g
    let l := d.2.txEdit g f tx
    match d.2.macsecTx g l with
    | (s2, none) => (s2, none)
    | (s2, some b) =>
      let c := if s.on p MSC.MAC_CTL_TX_PAD (g % 16) then b ++ List.replicate (60 - b.length) 0 else b
      if s.rd p MSC.MAC_CTL_MAX_FRAME (g % 16) < c.length + 4 then (s2.macCnt g 25, none)
      else
        let s3 := if s.on p MSC.PTP_CTL_TWO_STEP_EN (g % 16) ∧ bit f.ptp 2 then s2.twoStep g l tx else s2
        let fcs := if f.modified || decide (c ≠ f.bytes) || bad then crc32 c else f.fcs
        (s3, some { frame := f, edited := l, wire := c, fcs := if bad then Nat.xor fcs 0xFFFFFFFF else fcs, time := tx, sent := 0 })

/-- What slot g sends reaches the balls where its lanes put it out (R103, R150). -/
def State.txOut (s : State) (g : Nat) (o : Out) : State := if (s.phyLanes g).all fun l => s.laneSends l then s.emit o else s

/-- What a looped slot sends comes back to its receive MAC (R150). -/
def State.loopBack (s : State) (g : Nat) (part : RxPart) (bytes : List Byte) (fcs : Nat) : State :=
  if s.slotLooped g ∧ s.macHears g then s.macRx g part bytes fcs false false else s

/-- The longest head of a frame that must have left before it may be interrupted (R131): a fragment of 64 bytes with its mCRC at
ADD_FRAG 0, and 64 more for each step. -/
def State.fragMin (s : State) (g : Nat) : Nat := 60 + 64 * s.rd (msc g) MSC.PREEMPT_CTL_ADD_FRAG (g % 16)

/-- A frame may still be interrupted: both the fragment now sent and the rest have their least size (R131). The longest rest that
may not is then 123 bytes, 143 with the 20 of preamble and gap. -/
def State.mayCut (s : State) (g : Nat) (c : TxCut) : Bool := decide (c.sent + s.fragMin g + 64 ≤ c.wire.length + 4)

/-- An mPacket of a frame leaves: its fragment and mCRC (R116, R129). The mCRC is the CRC of the bytes so far with its low 16 bits
inverted (IEEE 802.3br, which R129 names; PRESUMED, notes/assumptions/36.md). Where the interruption falls is a free value within
R131. -/
def State.txFragment (s : State) (g : Nat) (c : TxCut) : State :=
  let lo := s.fragMin g
  let d := s.draw 14
  let n := lo + d.1 % (c.wire.length + 4 - c.sent - 64 - lo + 1)
  let part := slice c.wire c.sent n
  let s1 := (d.2.setMac g { d.2.mac g with cutTx := some { c with sent := c.sent + n } }).macCnt g 21
  (s1.txOut g (.txMpacket g (decide (c.sent = 0)) false part (Nat.xor (crc32 (c.wire.take (c.sent + n))) 0x0000FFFF))).loopBack g
    (if c.sent = 0 then .first else .middle true) part 0

/-- The express queue that may interrupt slot g: the one to be served next, or the highest that is ready (R127, R129). -/
def State.expressQueue (s : State) (g : Nat) : Option Nat :=
  let mask := s.rd (msc g) MSC.PREEMPT_CTL_EXPRESS_MASK (g % 16)
  match s.pickQueue g with
  | some q => if bit mask q then some q else [7, 6, 5, 4, 3, 2, 1, 0].find? fun k => bit mask k && s.queueReady g k
  | none => none

/-- The head frame of MAC queue q becomes the one that slot g sends; its bytes return to the grant limit (R413). -/
def State.takeFrom (s : State) (g q : Nat) : State :=
  let m := s.mac g
  match m.txq.getD q [] with
  | [] => s
  | f :: rest => s.setMac g { m with txq := lset m.txq q rest, sending := f :: m.sending, idleFrom := s.ticks
                                     credit := lset m.credit q (m.credit.getD q 0 - (f.qlen + 20)) }

/-- Slot g may send: its page has power, TX_EN is 1, the link is up and a client bound to it has slots (R112, R152, R197). -/
def State.macSends (s : State) (g : Nat) : Bool :=
  decide (g < 256) && s.live (msc g) && s.on (msc g) MSC.MAC_CTL_TX_EN (g % 16) && s.on (msc g) MSC.MAC_STS_LINK (g % 16) &&
    s.clientSends g

/-- An express queue interrupts the preemptable frame h (R129, R131): h begins if it has not, a fragment of it leaves, and the
express frame is taken. One too short to be cut goes on; one dropped at its begin gives way. -/
def State.interrupt (s : State) (g q : Nat) (h : Frame) : State :=
  let r := match (s.mac g).cutTx with
    | some c => (s, some c)
    | none => s.txBegin g h
  match r.2 with
  | none => (r.1.setMac g { r.1.mac g with sending := [] }).takeFrom g q
  | some c => if r.1.mayCut g c then (r.1.txFragment g c).takeFrom g q
              else r.1.setMac g { r.1.mac g with cutTx := some c }

/-- MSC_TAKE_FRAME (R413, R414): the MSC of a slot selects a frame to begin sending: any ready queue by R127 while it sends
nothing, an express queue while it sends a preemptable frame under active preemption (R129). -/
def execMscTakeFrame (slot : Nat) (s : State) : Host.Outcome State Fault Refusal :=
  .next (if s.macSends slot then
    match (s.mac slot).sending with
    | [] => match s.pickQueue slot with
      | some q => s.takeFrom slot q
      | none => s
    | [h] =>
      if s.on (msc slot) MSC.MAC_STS_PREEMPT_ACTIVE (slot % 16) ∧
          ¬ bit (s.rd (msc slot) MSC.PREEMPT_CTL_EXPRESS_MASK (slot % 16)) h.macq then
        match s.expressQueue slot with
        | some q => s.interrupt slot q h
        | none => s
      else s
    | _ => s
  else s)

/-- A frame that slot g has begun leaves to its end, with its counts (R93, R116, R690): as one frame, or as the last mPacket of a
preempted one (R129). -/
def State.txLeave (s : State) (g : Nat) (c : TxCut) : State :=
  let n := c.wire.length + 4
  let bad := c.frame.err || !c.frame.fcsGood
  let s1 := s.bonTap g 1 c.edited n
  let s2 := if bad then (s1.macCnt g 20).bonStomp else s1
  let s3 := ((s2.macCnt g 16).macCnt g 17 n).bwTx g n
  let s4 := (s3.cbsSpend g c.frame.macq (n + 20)).tracePointAt c.frame 9 (g / 16) (g % 256) (n % 2 ^ 14) c.time
  if c.sent = 0 then (s4.txOut g (.txFrame g c.wire c.fcs)).loopBack g .whole c.wire c.fcs
  else
    let part := c.wire.drop c.sent
    ((s4.macCnt g 21).txOut g (.txMpacket g false true part c.fcs)).loopBack g (.last true) part c.fcs

/-- The frame that a slot has taken is sent to its end, or dropped (R93, R116, R364). -/
def State.txFrame (s : State) (g : Nat) (f : Frame) (rest : List Frame) : State :=
  let m := s.mac g
  match rest, m.cutTx with
  | [], some c => (s.setMac g { m with sending := [], cutTx := none }).txLeave g c
  | _, _ =>
    let r := (s.setMac g { m with sending := rest }).txBegin g f
    match r.2 with
    | none => r.1
    | some c => r.1.txLeave g c

/-- MAC_TX_FRAME (R116). While the slot may not send, what it has taken waits (DESIGN CHOICE, notes/assumptions/36.md). -/
def execMacTxFrame (slot : Nat) (s : State) : Host.Outcome State Fault Refusal :=
  .next (if s.macSends slot then
    match (s.mac slot).sending with
    | [] => s
    | f :: rest => s.txFrame slot f rest
  else s)

end Sys2Proof.Machine
end

