-- ==== Sys2Proof/Machine/Access.lean ====
section
/-! DEFINITION. Machine/Access.lean: register accesses: what a write or a read of one word of one page does (R6 to R8, R42 to R64,
R864 to R868), routing command registers to the command they start. Network-time commands stand in Machine/Fire.lean. -/

namespace Sys2Proof.Machine

/-! ### Fields at an offset -/

/-- The element of field f whose register lies at an offset. -/
def Fld.idx (f : Fld) (off : Nat) : Option Nat :=
  if f.off ≤ off ∧ (off - f.off) % f.stride = 0 ∧ (off - f.off) / f.stride < f.n then some ((off - f.off) / f.stride) else none

/-- A field written by its access code (R7). -/
def State.fieldWrite (s : State) (p off v : Nat) (f : Fld) : State :=
  match f.idx off with
  | none => s
  | some i =>
    let x := bits v f.lo f.w
    match f.acc with
    | .rw => s.wr p f x i
    | .w1c => s.wr p f (andNot (s.rd p f i) x) i
    | .w1s => s.wr p f (orBits (s.rd p f i) x) i
    | _ => s

/-- A word written to the fields at an offset of page p. -/
def State.storeWord (s : State) (p off v : Nat) : State :=
  match pageAt p with
  | some (k, _) => (pageFields k).foldl (fun st f => st.fieldWrite p off v f) s
  | none => s

/-- The state after a command. -/
def after (o : Host.Outcome State Fault Refusal) (s : State) : State :=
  match o with
  | .next t => t
  | _ => s

/-! ### What the host's memory and the flash answer to a command that a plain register write starts

The command rows carry these answers as operands; a write that reaches the register by another way carries none, and they are free
values (notes/assumptions/2.md). -/

/-- n fresh free values of w bits. -/
def State.freeList (s : State) (n w : Nat) : List Nat × State :=
  ((List.range n).map fun k => Config.freeValue (s.free + k) % 2 ^ w, { s with free := s.free + n })

/-- A fresh free truth value. -/
def State.freeBit (s : State) : Bool × State := (decide ((s.draw 1).1 = 1), (s.draw 1).2)

/-- How the transfer of a staging command goes. -/
def State.freeIo (s : State) : FlashIo × State :=
  let r := s.draw 2
  let d := r.2.freeList (s.rd pgFWU FWU.STG_LEN_BYTES) 8
  if r.1 = 0 then (.hostError, r.2) else if r.1 = 1 then (.flashError, r.2) else (.data (d.1.map byteOf), d.2)

/-- Tags of the descriptors outstanding in a ring. -/
def State.freeTags (s : State) (r : Nat) : List Nat × State := s.freeList (s.rd pgTDMA TDMA.RING_STS_OUTSTANDING r) 8

/-- The bitmap words of a dirty-page log. -/
def State.freeLog (s : State) : List (Option Nat) × State :=
  let r := s.freeList (s.vf s.cmdFn).dirty.length 64
  (r.1.map some, r.2)

/-- An image in host memory, where the host answers. -/
def State.freeImage (s : State) : Option (List Byte) × State :=
  let b := s.freeBit
  let r := b.2.freeList (64 + 64 * (s.qpsOf s.cmdFn).length) 8
  if b.1 then (some (r.1.map byteOf), r.2) else (none, b.2)

/-! ### Soft reset (R864 to R866) -/

/-- ORD at a soft reset: the frames dealt and the results held are dropped as drop tokens, and every context restarts (R866). -/
def State.ordReset (s : State) : State :=
  let held := sumNat (s.ords.map fun (c : Nat × OrdCtx) => c.2.held.length)
  let s1 := { s with ords := s.ords.map fun (c : Nat × OrdCtx) => (c.1, { c.2 with held := [], deal := 0, next := 0, timer := none })
                     piped := s.piped.map fun (x : Piped) => { x with stale := true } }
  (s1.bump pgORD ORD.ORD_CNT 1 1 held).ordView

/-- Waiting commits end with the request queue; those of a ring end ABORTED. -/
def State.commitsEnd (s : State) : State :=
  s.commits.foldl (fun (st : State) (q : CommitReq) =>
    match q.ring with
    | some (r, d) => st.tdmaEnd r (descTag d) ABORTED 0 false none
    | none => st) { s with commits := [] }.vstoreView

/-- The MSC of slots 16·i to 16·i + 15: received pause ends with its watchdog, and verification starts again where preemption needs
one. -/
def State.mscReset (s : State) (i : Nat) : State :=
  let s1 := { s with tsFifo := tdel s.tsFifo i }.tsView i
  (List.range 16).foldl (fun (st : State) n =>
    let g := 16 * i + n
    let t := (st.setMac g { st.mac g with ignoring := 0 }).setPaused g 0
    if t.rd (pgMSC i) MSC.MAC_STS_VERIFY n ≠ 0 ∧ ¬ t.on (pgMSC i) MSC.PREEMPT_CTL_VERIFY_DIS n then
      t.wrAll (pgMSC i) n [(MSC.MAC_STS_VERIFY, 1), (MSC.MAC_STS_PREEMPT_ACTIVE, 0)]
    else t) s1

/-- The CAGE: every management command ends, and the sequencer of every cage returns to EMPTY, from where the next frame takes it. -/
def State.cageReset (s : State) : State :=
  let s1 := (List.range 64).foldl (fun (st : State) c => if st.cageSt c = cgEmpty then st else st.cageEvent c .off)
    { s with mmQueue := [], markerBad := false }
  (List.range 8).foldl (fun (st : State) m => st.mmView m) s1

/-- LFU i: a switch that waits ends, the running counts clear, and the protection controller starts from what stands. -/
def State.lfuReset (s : State) (i : Nat) : State :=
  let s1 := s.setLfu i { s.lfu i with phase := 0, caOwed := none, txDue := false, rxDue := false, run := [0, 0, 0, 0, 0, 0, 0, 0],
                                      seen := 0, flexeDown := false, sdRun := 0, apsSame := 0, cmd := 0 }
  (s1.wrAll (pgLFU i) 0 [(LFU.SWITCH_STS_FLEXE_PENDING, 0), (LFU.SWITCH_STS_OTN_PENDING, 0), (LFU.PROT_STS_WTR_RUN, 0)]).protEval i

/-- LNP i: adaptation of every lane begins again, and the pattern checkers lose lock. -/
def State.lnpReset (s : State) (i : Nat) : State :=
  (List.range 16).foldl (fun (st : State) n => st.wrAll (pgLNP i) n [(LNP.LANE_STS_ADAPT_DONE, 0), (LNP.PRBS_CTL_CHK_LOCK, 0)]) s

/-- FIU i: each link goes OFF, and one that is enabled starts again (R440). -/
def State.fiuReset (s : State) (i : Nat) : State :=
  ((List.range 32).map (linkOfSlot i)).foldl (fun (st : State) l =>
    if st.lrd l FIU.LINK_CTL_EN = 1 then (st.linkOff l).linkOn l else st) s

/-- HBC i: replay, refresh and scrubbing start again; the accesses that are queued complete normally (R866). -/
def State.hbcReset (s : State) (i : Nat) : State :=
  (List.range 32).foldl (fun (st : State) n =>
    st.setChan (32 * i + n) { st.chan (32 * i + n) with retry := [], fails := 0, nextBank := 0, acts := [], refDue := 0 })
      { s with scrubAt := tdel s.scrubAt i, scrubDue := tdel s.scrubDue i }

/-- What the sequencers, timers and request queues of page p do at a soft reset (R864, R866; DEDUCED where no rule names the idle
state, notes/assumptions/37.md). -/
def State.unitReset (s : State) (k : PageKind) (i : Nat) : State :=
  match k with
  | .msc => s.mscReset i
  | .cage => s.cageReset
  | .lfu => s.lfuReset i
  | .lnp => s.lnpReset i
  | .fiu => s.fiuReset i
  | .hbc => s.hbcReset i
  | .cls =>
    { (s.clsPauseView false false).clsPauseView true false with clsRun := none, clsPauseEnd := none, clsPaused := none }.wr pgCLS
      CLS.CLS_STS_WAIT_SPACING 0
  | .ord => s.ordReset
  | .lkp => s.commitsEnd
  | .age => { s with sweeps := [], sweepAt := [] }
  | .shd => { s with rechecks := [], mmFifo := [], shdAt := (0, 0), shdRepairs := [] }.shdView
  | .tdma => (List.range 4).foldl (fun (st : State) r =>
      let t := st.freeTags r
      t.2.ringAbort r t.1) s
  | .qsu => { s with flush := s.flush.map fun (x : Flush) => { x with quiet := true } }
  | .fab => s.strobeDone
  | .lin => s.linSoftReset
  | .dma => { s with qpRun := none, qps := s.qps.map fun (e : Nat × QPair) => (e.1, { e.2 with cnt := e.2.cnt.map fun _ => 0 }) }
  | .vfm => { s with vfmRun := none }
  | .svc => { s with bfdEvents := [] }.svcView
  | .ntm => (((s.setValid false).ntPend 0).wr pgNTM NTM.NTM_STS_PPS_SEEN 0).wr pgNTM NTM.NTM_STS_TOD_OK 0
  | .taq => s.taqDiscard
  | .obs => { s with traceRun := none, shadowFlush := none, shadowDue := [], bw := [], bwFrom := s.ticks }.wr pgOBS OBS.FLUSH_STS_BUSY 0
  | .log => { s with logRun := none }
  | .leg => { s with legSeen := [] }
  | .rsu => { s with rsuRuns := tdel s.rsuRuns i }
  | .fwu => { s with fwRun := none, fwHeld := none }
  | .sec => { s with secHeld := none }
  | _ => s

/-- Fields that a page keeps although R864 clears their kind (R866). -/
def softKeeps (k : PageKind) (f : Fld) : Bool := k = .rst && f = RST.WARM_CNT_COUNT

/-- A soft reset of page p begins (R864): its counters clear first, and what the reset discards counts afterwards. PAGE_CTL of the
Bonnet has no effect (R711). -/
def State.softStart (s : State) (p : Nat) : State :=
  match pageAt p with
  | none => s
  | some (k, i) =>
    if k = .bon ∨ s.on p COMMON.PAGE_CTL_SOFT_RESET then s
    else (s.softReset p (softKeeps k)).unitReset k i

/-! ### Common registers (R52 to R56, R59, R69 to R71) -/

/-- INT_MASK written: summaries that rise by it signal (R69, R71). -/
def State.maskWrite (s : State) (p v : Nat) : State := State.edges s (s.wr p COMMON.INT_MASK_MASK v) p

/-- INT_FORCE written: each bit at 1 sets its cause (R52). -/
def State.forceWrite (s : State) (p v : Nat) : State :=
  (List.range 16).foldl (fun (st : State) c => st.raiseIf (bit v c) p c) s

/-- CNT_CTL.CLEAR_ALL (R59). -/
def State.clearNative (s : State) (p : Nat) : State :=
  (List.range 8).foldl (fun (st : State) n => st.wr p COMMON.PMC 0 n) (s.wr p COMMON.CYC_CNT 0)

/-- What follows a rise of ENABLE (R356, R462). -/
def State.enableRise (s : State) (p : Nat) : State :=
  if p = pgBPM then s.carveCheck else if p = pgFAB then s.fabEnable else s

/-- PAGE_CTL written; the HBC pages ignore ENABLE in fabric mode (R524). -/
def State.ctlWrite (s : State) (p v : Nat) : State :=
  let hbc := s.fabric && decide (0xE0 ≤ p ∧ p < 0xE4)
  let en := bit v 0 && !hbc
  let s1 := ((s.put p COMMON.PAGE_CTL_ENABLE en).put p COMMON.PAGE_CTL_FREEZE (bit v 2)).put p COMMON.PAGE_CTL_SNAP_EN (bit v 3)
  let s2 := if en ∧ ¬ s.on p COMMON.PAGE_CTL_ENABLE then s1.enableRise p else s1
  if bit v 1 then s2.softStart p else s2

/-- A common register with a rule of its own written; none for one that is only stored. A write of SNAP_CTL that sets HOLD with the
strobe holds first, so the strobe copies nothing (DESIGN CHOICE: R56 gives no order; notes/assumptions/4.md). -/
def State.commonWrite (s : State) (p off v : Nat) : Option State :=
  match off with
  | 0x10 => some (s.ctlWrite p v)
  | 0x24 => some (s.maskWrite p v)
  | 0x28 => some (s.forceWrite p v)
  | 0x40 =>
    let s1 := s.put p COMMON.SNAP_CTL_HOLD (bit v 1)
    some (if bit v 0 then s1.localStrobe p else s1)
  | 0xF0 => some (if bit v 0 then s.clearNative p else s)
  | _ => none

/-! ### Command registers

Each table pairs the first field of a register with what a write of the value does to its element. -/

/-- What a write does at a field of a register. -/
abbrev Hook := Fld × (Nat → State → State)

/-- A command chosen by an operation code; a code that names none does nothing. -/
def byOp (op : Nat) (l : List (Nat × (State → Host.Outcome State Fault Refusal))) (s : State) : State :=
  match tget l op with
  | some f => after (f s) s
  | none => s

/-- Infrastructure pages. -/
def hooksInfra (k : PageKind) (v : Nat) : List Hook :=
  match k with
  | .crwn => [
      (CRWN.STROBE_CTL_FIRE, fun _ s =>
        let s1 := s.storeWord pgCRWN 0x120 v
        if bit v 0 then s1.strobe else s1),
      (CRWN.GFREEZE_FREEZE_ALL, fun _ s => s.put pgCRWN CRWN.GFREEZE_FREEZE_ALL (bit v 0))]
  | .pwr => [
      (PWR.DOM_CTL_ON, fun d s => s.domWrite d (bit v 0)),
      (PWR.THERM_CFG_TJ_WARN, fun _ s => s.thermCfgWrite v)]
  | .rst => [(RST.RST_CMD_OP, fun _ s => if bits v 0 2 = 1 then s.warmCmd (bits v 16 16) else s)]
  | .band => [(BAND.BAND_CTL_RETRY_LIMIT, fun _ s =>
      let s1 := s.storeWord pgBAND 0x100 v
      if bit v 5 then s1.bandRetrain else s1)]
  | .ntm => [(NTM.SYNCE_CTL_LANE, fun j s => s.synceWrite j v)]
  | .taq => [(TAQ.TAQ_CMD_OP, fun _ s => byOp (bits v 0 2)
      [(1, execTaqPost (bits v 16 8)), (2, execTaqCancel (bits v 8 6) (bits v 16 8)), (3, execTaqRead (bits v 8 6) (bits v 16 8))] s)]
  | _ => []

/-- Management pages. `bySp`: a service processor writes. -/
def hooksMgmt (k : PageKind) (i v : Nat) (bySp : Bool) : List Hook :=
  match k with
  | .obs => [
      (OBS.BW_CFG_WINDOW_US, fun _ s =>
        let s1 := (s.wr pgOBS OBS.BW_CFG_WINDOW_US (max 1 (min 1000000 (bits v 0 20)))).put pgOBS OBS.BW_CFG_EN (bit v 31)
        if bit v 31 ∧ ¬ s.on pgOBS OBS.BW_CFG_EN then { s1 with bw := [], bwFrom := s1.ticks, bwUs := s1.rd pgOBS OBS.BW_CFG_WINDOW_US } else s1),
      (OBS.TRACE_CTL_EN, fun _ s =>
        let s1 := (s.storeWord pgOBS 0x130 v).wr pgOBS OBS.TRACE_CTL_LOG2 (min 24 (bits v 1 5))
        if bit v 0 ∧ ¬ s.on pgOBS OBS.TRACE_CTL_EN then s1.wr pgOBS OBS.TRACE_SEQ_SEQ 0 else s1),
      (OBS.TRACE_CMD_OP, fun _ s => byOp (bits v 0 2)
        [(1, execTraceClear (bits v 8 8)), (2, execTraceDump (bits v 8 8) .running), (3, execTraceAbort (bits v 8 8))] s)]
  | .log => [(LOG.LOG_CMD_OP, fun _ s => byOp (bits v 0 2)
        [(1, execLogAppend (bits v 8 8)), (2, execLogDump (bits v 8 8) .running), (3, execLogAbort (bits v 8 8))] s)]
  | .leg => [(LEG.LEG_CTL_EN, fun _ s => (s.put pgLEG LEG.LEG_CTL_EN (bit v 0)).wr pgLEG LEG.LEG_CTL_GATHER_US (max 20 (bits v 16 16)))]
  | .spa | .spb => [
      (SPA.SP_OWN_HEARTBEAT, fun _ s =>
        let n := if k = .spa then 0 else 1
        let s1 := if bit v 0 then after (execSpHeartbeat n s) s else s
        if bit v 1 then after (execSpTakeoverDone n s1) s1 else s1),
      (SPA.SP_CMD_OP, fun _ s => byOp (bits v 0 2) [(1, execSpSwitchover (bits v 8 8)), (2, execSpRestartStandby (bits v 8 8))] s),
      (SPA.FAN_DUTY_PCT, fun j s => s.fanDutyWrite j v), (SPA.FAN_CFG_PWM_HZ, fun _ s => s.fanCfgWrite v),
      (SPA.GPIO_OUT_OUT, fun _ s => s.gpioWrite SPA.GPIO_OUT_OUT v), (SPA.GPIO_OE_OE, fun _ s => s.gpioWrite SPA.GPIO_OE_OE v)]
  | .fwu => [(FWU.FWU_CMD_OP, fun _ s =>
        let tag := bits v 16 8
        let ok := s.freeBit
        match bits v 0 4 with
        | 1 => if bits v 4 2 = 3 then after (execFwStageConfig tag .running s) s else after (execFwStage (bits v 4 2) tag .running s) s
        | 2 => after (execFwVerify (bits v 4 2) tag ok.1 ok.2) s
        | 7 => after (execSvnAdvance tag ok.1 ok.2) s
        | 8 => after (execFlashRead tag ok.1 ok.2) s
        | op => byOp op [(3, execFwArm (bits v 4 2) tag), (4, execFwActivateNow tag), (5, execFwDisarm tag), (6, execFwReject tag),
            (9, execFwuAbort tag)] s)]
  | .sec => [(SEC.SEC_CMD_OP, fun _ s => byOp (bits v 0 3)
        [(1, execSecQuote (bits v 8 8)), (2, execSecChallenge (bits v 8 8)), (3, execSecUnlock (bits v 8 8))] s)]
  | .bon => [(BON.MBX_CMD_OP, fun _ s => byOp (bits v 0 4)
        [(1, execBonReportNow (bits v 8 8)), (2, execBonSelectWin (bits v 8 8)), (3, execBonCfgTap (bits v 8 8)),
         (4, execBonCfgReport (bits v 8 8)), (5, execBonSeal (bits v 8 8))] s)]
  | .cage => [
      (CAGE.CSB_CTL_RUN, fun _ s => s.csbCtlWrite v),
      (CAGE.MM_CMD_CAGE, fun m s =>
        if bySp ∧ bits v 8 2 = 2 then s.gate pgCAGE (·.mmCommand false true m (bits v 0 6) (bits v 16 8))
        else byOp (bits v 8 2) [(1, execMmRead m (bits v 0 6) (bits v 16 8)), (2, execMmWrite m (bits v 0 6) (bits v 16 8)),
          (3, execMmAbort m (bits v 16 8))] s),
      (CAGE.CAGE_CTL_EN, fun c s => s.cageCtlWrite c v),
      (CAGE.LANE_MAP_FIRST_LANE, fun c s => s.laneMapWrite c v)]
  | .lnp => [
      (LNP.LANE_CTL_RATE, fun n s => s.laneCtlWrite (16 * i + n) v),
      (LNP.TX_FIR_PRE2, fun n s => s.txFirWrite (16 * i + n) v),
      (LNP.PRBS_CTL_GEN_PAT, fun n s =>
        let s1 := s.storeWord (pgLNP i) (0x110 + 64 * n) v
        if bit v 12 ∧ ¬ s.on (pgLNP i) LNP.PRBS_CTL_CHK_EN n then s1.wr (pgLNP i) LNP.PRBS_ERR 0 n else s1),
      (LNP.PORT_CFG_MODE, fun n s => if bit v 16 then s.portApply (16 * i + n) v else s.storeWord (pgLNP i) (0x500 + 32 * n) v)]
  | .msc => [
      (MSC.MAC_CTL_RX_EN, fun n s => s.macCtlWrite (16 * i + n) v),
      (MSC.PREEMPT_CTL_EN, fun n s => s.preemptWrite (16 * i + n) v),
      (MSC.SEC_CTL_TX_EN, fun n s => s.secCtlWrite (16 * i + n) v),
      (MSC.SEC_PN_THR_FRACTION, fun n s => s.pnThrWrite (16 * i + n) v),
      (MSC.TS_POP_POP, fun _ s => if bit v 0 then s.tsPop i else s),
      (MSC.SA_KEY_KEY, fun j s => s.wr (pgMSC i) MSC.SA_KEY_KEY v j),
      (MSC.SA_SALT_SALT, fun j s => s.wr (pgMSC i) MSC.SA_SALT_SALT v j),
      (MSC.SA_CMD_OP, fun _ s => byOp (bits v 0 2)
        [(1, execMscSaWrite i (bits v 8 8)), (2, execMscSaRead i (bits v 8 8)), (3, execMscSaInvalidate i (bits v 8 8))] s)]
  | .lfu => [
      (LFU.LFU_CFG_FLEXE_EN, fun _ s => s.lfuCfgWrite i v),
      (LFU.PAGE_SW_FLEXE, fun _ s =>
        let s1 := if bit v 0 then s.flexeTrigger i else s
        if bit v 1 then s1.otnTrigger i else s1),
      (LFU.PROT_CTL_EN, fun _ s => (s.storeWord (pgLFU i) 0x1C0 v).protEval i),
      (LFU.PROT_CMD_CMD, fun _ s => s.protCommand i (bits v 0 3)),
      (LFU.PM_CTL_AUTO_SEC, fun _ s =>
        let s1 := s.storeWord (pgLFU i) 0x200 v
        if bit v 1 then s1.pmLatch i true else s1)]
  | _ => []

/-- Pipeline, lookup and range-search pages. -/
def hooksPipe (k : PageKind) (i v : Nat) : List Hook :=
  match k with
  | .prs => [(PRS.TPL_CMD_INDEX, fun _ s => byOp (bits v 8 2) [(1, execTplCommit (bits v 0 7) (bits v 16 8)),
      (2, execTplRead (bits v 0 7) (bits v 16 8)), (3, execTplInvalidate (bits v 0 7) (bits v 16 8))] s)]
  | .cls => [
      (CLS.PAUSE_CFG_SPACING_US, fun _ s =>
        (s.wr pgCLS CLS.PAUSE_CFG_SPACING_US (max 100 (bits v 0 16))).wr pgCLS CLS.PAUSE_CFG_HOLD_LOW (bits v 16 16)),
      (CLS.PROF_CFG_KEY_LEN, fun n s => (s.storeWord pgCLS (0x208 + 16 * n) v).wr pgCLS CLS.PROF_CFG_KEY_LEN (max 1 (min 32 (bits v 0 6))) n),
      (CLS.CLS_CMD_OP, fun _ s => byOp (bits v 0 3) [(1, execClsInsert (bits v 4 4) (bit v 3) (bits v 8 8)),
        (2, execClsDelete (bits v 4 4) (bits v 8 8)), (3, execClsRead (bits v 4 4) (bits v 8 8)), (4, execClsAbort (bits v 8 8))] s)]
  | .pmm => [(PMM.PAT_CMD_INDEX, fun _ s => byOp (bits v 16 2) [(1, execPatWrite (bits v 0 11) (bits v 24 8)),
      (2, execPatRead (bits v 0 11) (bits v 24 8)), (3, execPatAbort (bits v 24 8))] s)]
  | .lkp => [(LKP.EPOCH_CMD_COMMIT, fun _ s => s.epochCmd (bit v 0) (bit v 1))]
  | .lpm => [(LPM.LEN_CFG_BASE, fun n s => s.lenCfgWrite n v)]
  | .exm => [(EXM.TBL_CFG_A_KEY_LEN, fun t s => s.tblCfgAWrite t v), (EXM.TBL_CFG_B_BASE, fun t s => s.tblCfgBWrite t v)]
  | .nhp => [(NHP.FENCE_CMD_FENCE, fun _ s => if bit v 0 then s.fenceCmd else s)]
  | .shd => [(SHD.MM_POP_POP, fun _ s => if bit v 0 then after (execShdMmPop s) s else s)]
  | .tdma => [
      (TDMA.RING_CTL_EN, fun r s =>
        let t := s.freeTags r
        if ¬ bit v 0 then (if s.on pgTDMA TDMA.RING_CTL_EN r then t.2.ringDisable r t.1 else s)
        else
          let s1 := if s.on pgTDMA TDMA.RING_CTL_EN r then s else s.wr pgTDMA TDMA.RING_CTL_EN 1 r
          let u := s1.freeTags r
          if bit v 1 then u.2.ringAbort r u.1 else s1),
      (TDMA.DOORBELL_COUNT, fun r s => s.doorbell r (bits v 0 7) (bits v 8 8))]
  | .rsu => [
      (RSU.BANK_CFG_WIDTH, fun b s => s.bankCfgWrite i b v),
      (RSU.RSU_MODE_REPLICA, fun _ s => s.rsuModeWrite v),
      (RSU.RS_CMD_OP, fun _ s => byOp (bits v 0 4) [(1, execRsWrite i (bits v 4 2) (bits v 16 8)), (2, execRsRead i (bits v 4 2) (bits v 16 8)),
        (3, execRsInvalidate i (bits v 4 2) (bits v 16 8)), (4, execMoveWindow i (bits v 4 2) (bits v 16 8)), (5, execRsAbort i (bits v 16 8))] s)]
  | _ => []

/-- Pages of the queueing die. -/
def hooksQd (k : PageKind) (i v : Nat) : List Hook :=
  match k with
  | .bpm => [(BPM.POOL_CARVE_MIB, fun n s => s.carveWrite BPM.POOL_CARVE_MIB n (bits v 0 9)),
      (BPM.SPILL_SPLIT_GIB_4K, fun _ s => s.carveWrite BPM.SPILL_SPLIT_GIB_4K 0 (bits v 0 8))]
  | .brm => [(BRM.BRIM_CTL_HI_PM, fun _ s => s.brimCtlWrite v)]
  | .adm => [(ADM.QPROF_PROFILE, fun _ s => s.qprofWrite v)]
  | .mcr => [(MCR.GRP_DATA_LIST_BASE, fun _ s => s.groupWrite v), (MCR.LIST_DATA_REPLICA, fun _ s => s.listWrite v)]
  | .qsu => [
      (QSU.FAB_W0_FAB_W0, fun _ s => s.fabWeightWrite v [QSU.FAB_W0_FAB_W0, QSU.FAB_W0_FAB_W1, QSU.FAB_W0_FAB_W2, QSU.FAB_W0_FAB_W3]),
      (QSU.FAB_W1_FAB_W4, fun _ s => s.fabWeightWrite v [QSU.FAB_W1_FAB_W4, QSU.FAB_W1_FAB_W5, QSU.FAB_W1_FAB_W6]),
      (QSU.QSU_CMD_OP, fun _ s => byOp (bits v 0 2) [(1, execQsuFlush (bit v 2) (bits v 8 8)), (2, execQsuAbort (bits v 8 8))] s)]
  | .sch => [(SCH.NODE_CMD_OP, fun _ s => byOp (bits v 0 2) [(1, execNodeWrite i (bits v 8 8)), (2, execNodeRead i (bits v 8 8))] s)]
  | .fiu => [
      (FIU.LINK_CTL_EN, fun n s => s.linkCtlWrite (linkOfSlot i n) v),
      (FIU.LANE_CTL_TX_EN, fun n s =>
        if 256 ≤ linkOfSlot i n then s
        else
          let s1 := s.storeWord (pgFIU i) (0x10C + 32 * n) v
          if bit v 6 then s1.linkReadapt (linkOfSlot i n) else s1),
      (FIU.TX_FIR, fun n s => if firTooBig v then s.raise (pgFIU i) 6 else s.storeWord (pgFIU i) (0x110 + 32 * n) v)]
  | .fab => [
      (FAB.HELLO_CFG_HELLO_INT_US, fun _ s => s.wrAll pgFAB 0 [(FAB.HELLO_CFG_HELLO_INT_US, max 1 (bits v 0 8)),
        (FAB.HELLO_CFG_HELLO_MISS, max 1 (bits v 8 4)), (FAB.HELLO_CFG_REACH_INT_US, bits v 16 16)]),
      (FAB.SPRAY_LEN_ENTRIES, fun _ s => s.wr pgFAB FAB.SPRAY_LEN_ENTRIES (max 1 (min 256 (bits v 0 9)))),
      (FAB.SNAP_CMD_SEND, fun _ s =>
        let s1 := s.wr pgFAB FAB.SNAP_CMD_LEAD_US (bits v 16 16)
        if bit v 0 then s1.snapSend else s1)]
  | .lin => [
      (LIN.TBOUND_TEN_NS, fun c s => s.wr pgLIN LIN.TBOUND_TEN_NS (min 6400 (bits v 0 16)) c),
      (LIN.LIN_WIN_WINDOW, fun _ s => s.wr pgLIN LIN.LIN_WIN_WINDOW (max 64 (min 65536 (bits v 0 17))))]
  | .fel => [
      (FEL.FEL_CFG_TIER, fun _ s => if s.on pgFEL COMMON.PAGE_CTL_ENABLE then s.raise pgFEL 3 else s.storeWord pgFEL 0x100 v),
      (FEL.QLIMITS_PQ_MAX, fun _ s => s.wrAll pgFEL 0 [(FEL.QLIMITS_PQ_MAX, max 1 (bits v 0 4)), (FEL.QLIMITS_EXP_QMAX, max 1 (bits v 8 5))])]
  | .hbc => [
      (HBC.REFRESH_CFG_TEMP_HI_C, fun _ s => s.refreshCfgWrite i v),
      (HBC.REGION_CFG_TBL_GIB, fun _ s => s.regionCfgWrite v),
      (HBC.REG_RATE_GBPS, fun r s => s.regRateWrite r (bits v 0 16)),
      (HBC.WIN_BASE_LO_ADDR, fun _ s => s.wr (pgHBC 0) HBC.WIN_BASE_LO_ADDR (v / 32768 * 32768))]
  | _ => []

/-- Pages of the host side. `byHost`: the access is not a service processor's. -/
def hooksHost (k : PageKind) (byHost : Bool) (v : Nat) : List Hook :=
  match k with
  | .pce => [
      (PCE.LINK_CTL_MAX_SPEED, fun _ s =>
        let s1 := s.storeWord pgPCE 0x100 v
        if bit v 5 then s1.retrain else s1),
      (PCE.TAG_CFG_MGMT_RSV, fun _ s => s.wr pgPCE PCE.TAG_CFG_MGMT_RSV (min 2048 (bits v 0 12)))]
  | .dma => [(DMA.QP_CMD_OP, fun _ s => byOp (bits v 0 3) [(1, execWriteCtx (bits v 8 8)), (2, execReadCtx (bits v 8 8)),
      (3, execQpEnable (bits v 8 8)), (4, execQpDisable (bits v 8 8)), (5, execQpAbort)] s)]
  | .vfm => [(VFM.VFM_CMD_OP, fun _ s =>
      let tag := bits v 8 8
      let img := s.freeImage
      let log := s.freeLog
      match bits v 0 4 with
      | 6 => after (execVfRestore tag img.1 img.2) s
      | 8 => after (execLogSwap tag log.1 log.2) s
      | 9 => after (execLogStop tag log.1 log.2) s
      | op => byOp op [(1, execAssignQp tag), (2, execReleaseQp tag), (3, execVfFreeze tag), (4, execVfUnfreeze tag), (5, execVfSave tag),
          (7, execLogStart tag), (10, execVfmMbxAck tag), (11, execVfmMbxReply tag), (12, execVfmAbort)] s)]
  | .ofl => [(OFL.NV_CMD_OP, fun _ s => byOp (bits v 0 3) [(1, execNvWrite (bits v 8 8)), (2, execNvRead (bits v 8 8)),
      (3, execNvResyncRx (bits v 8 8)), (4, execNvResyncTx (bits v 8 8))] s)]
  | .ips => [
      (IPS.IPS_CTL_HOST_W, fun _ s => s.wrAll pgIPS 0 [(IPS.IPS_CTL_HOST_W, max 1 (bits v 0 8)), (IPS.IPS_CTL_TRANSIT_W, max 1 (bits v 8 8))]),
      (IPS.SA_KEY_KEY, fun j s => s.wr pgIPS IPS.SA_KEY_KEY v j),
      (IPS.SA_SALT_SALT, fun _ s => s.wr pgIPS IPS.SA_SALT_SALT v),
      (IPS.KEK_DATA_KEY, fun j s => s.wr pgIPS IPS.KEK_DATA_KEY v j),
      (IPS.KEK_CFG_EXPORT, fun _ s => s.kekCfgWrite v),
      (IPS.SA_CMD_OP, fun _ s => byOp (bits v 0 3) [(1, execIpsSaWrite (bits v 8 8)), (2, execIpsSaRead (bits v 8 8)),
        (3, execIpsSaInvalidate (bits v 8 8)), (4, execIpsSaAbort)] s),
      (IPS.KW_CMD_OP, fun _ s => byOp (bits v 0 3)
        [(1, execKwWrap (bits v 4 4) (bits v 16 8) (bit v 14)),
         (2, execKwUnwrap (bits v 4 4) (bits v 8 2) (bits v 10 4) (bits v 16 8) (bit v 14)),
         (3, execKwCheck (bits v 4 4) (bits v 16 8) (bit v 14)), (4, execKwLoadKek (bits v 4 4) (bits v 16 8)), (5, execKwAbort)] s)]
  | .svc => [
      (SVC.SESS_CMD_OP, fun _ s => byOp (bits v 0 3) [(1, execSessWrite (bit v 3) (bits v 4 2) (bits v 8 8)), (2, execSessRead (bits v 8 8)),
        (3, execSessDelete (bits v 8 8)), (4, execTplWriteSvc (bits v 8 8)), (5, execTplReadSvc (bits v 8 8))] s),
      (SVC.SVC_CTL_BFD_EN, fun _ s => s.svcCtlWrite v),
      (SVC.EVT_POP_POP, fun _ s => if bit v 0 then s.evtPop byHost else s),
      (SVC.RSP_CMD_OP, fun _ s => byOp (bits v 0 2) [(1, execRspWrite (bits v 8 8)), (2, execRspRead (bits v 8 8)),
        (3, execRspInvalidate (bits v 8 8))] s),
      (SVC.OBS_CFG_SAMPLE_N, fun p s => (s.wr pgSVC SVC.OBS_CFG_SAMPLE_N (max 1 (bits v 0 16)) p).put pgSVC SVC.OBS_CFG_EN (bit v 16) p)]
  | _ => []

/-- The action of a write at an offset, where the register has a rule of its own. -/
def hookAt (off : Nat) : List Hook → Option (State → State)
  | [] => none
  | h :: t =>
    match h.1.idx off with
    | some j => some (h.2 j)
    | none => hookAt off t

/-- Windows and register groups with a rule of their own; none where there is none. -/
def State.groupWrites (s : State) (k : PageKind) (i off v : Nat) : Option State :=
  match k with
  | .lfu =>
    if s.lfuWriteIgnored i off then some (s.raise (pgLFU i) 9)
    else if 0xB000 ≤ off ∧ off < 0xB400 then some (s.lfuClientWord i off v) else none
  | .sec => if 0x8000 ≤ off then some (s.secWindowWrite (off - 0x8000) v) else none
  | .adm => if 0x8000 ≤ off ∧ off < 0x8800 then some (s.admProfileWrite ((off - 0x8000) / 32) ((off - 0x8000) % 32 / 4) v) else none
  | .shp => if 0x8000 ≤ off then some (s.shpWrite ((off - 0x8000) / 8) ((off - 0x8000) % 8 / 4) v) else none
  | .vfm => s.vfmWrite off v
  | .bon => if off = 0x130 ∨ (0x120 ≤ off ∧ off < 0x130) ∨ (0x20 ≤ off ∧ off < 0x50) then none else some s
  | .hbc => if i = 0 ∧ 0x8000 ≤ off then
      match s.windowAccess off (some v) with
      | some r => some r.1
      | none => some (s.raise pgCRWN 3)
    else none
  | _ => none

/-- Every register with a rule of its own. -/
def hooksOf (k : PageKind) (i v : Nat) (byHost : Bool) : List Hook :=
  hooksInfra k v ++ hooksMgmt k i v (!byHost) ++ hooksPipe k i v ++ hooksQd k i v ++ hooksHost k byHost v

/-! ### One word written or read -/

/-- The pages whose block registers ignore writes in fabric mode (R27). -/
def lineOnly (k : PageKind) : Bool :=
  match k with
  | .msc | .lfu | .ipp | .prs | .cls | .pmm | .ord | .epp | .lkp | .lpm | .exm | .nhp | .age | .shd | .tdma | .rsu => true
  | _ => false

/-- The crown page answers at an offset (R65, R826). -/
def State.crownAnswers (s : State) (off : Nat) : Bool := s.crownUp || decide (off < 0x10) || decide (0x100 ≤ off ∧ off < 0x110)

/-- INT_REARM written (R70). -/
def State.intRearm (s : State) (n : Nat) : State :=
  let fatal := pages.any fun p => s.live p && s.hasSev p 2
  let routed := pages.any fun p => s.live p && s.summary p && s.hostRoute p && decide (s.vecOf p = n)
  if s.on pgCRWN CRWN.INT_GCTL_HOST_EN ∧ (routed ∨ (n = s.rd pgCRWN CRWN.INT_GCTL_FATAL_VEC ∧ fatal)) then s.msix 1 n else s

/-- SP_OWN takes writes only from the page's own processor (R730). -/
def notOwner (who p off : Nat) : Bool := decide (off = 0x10C ∧ (p = pgSPA ∧ who ≠ 1 ∨ p = pgSPB ∧ who ≠ 2))

/-- A word is written to a populated page (R7, R49, R764). who: 0 PF1, 1 SP-A, 2 SP-B, 3 a timed action, 4 PF1 by a PCIe request. -/
def State.writeWord (s : State) (who p off v : Nat) : State :=
  match pageAt p with
  | none => s
  | some (k, i) =>
    let v := v % 2 ^ 32
    if ¬ s.live p ∨ (p = pgCRWN ∧ ¬ s.crownAnswers off) then s
    else
      let s0 := s.pmc p 4 1
      if (s.fabric ∧ lineOnly k ∧ 0x100 ≤ off) ∨ s.absent k i off ∨ notOwner who p off then s0
      else match s0.groupWrites k i off v with
        | some t => t
        | none =>
          match s0.commonWrite p off v with
          | some t => t
          | none =>
            if p = pgCRWN ∧ off = 0x14C then s0.intRearm (bits v 0 6)
            else match hookAt off (hooksOf k i v (decide (who ≠ 1 ∧ who ≠ 2))) with
              | some f => f s0
              | none => s0.storeWord p off v

/-- The requester's holding-register slot (R57): PF1, or the service processors. -/
def requesterSlot (who : Nat) : Nat := if who = 1 ∨ who = 2 then 1 else 0

/-- What lies at an offset of a page that a read acts on: the element of a counter pair by its LO or HI word, or a result set. -/
def cntLo (k : PageKind) (off : Nat) : Bool := (pageFields k).any fun f => f.acc = .cnt && (f.idx off).isSome
def cntHi (k : PageKind) (off : Nat) : Bool :=
  (pageFields k).any fun f => f.acc = .cnt && decide (4 ≤ off) && (f.idx (off - 4)).isSome
def resAt (k : PageKind) (off : Nat) : Option Fld :=
  (pageFields k).find? fun f => f.acc = .res && f.lo = 31 && f.w = 1 && (List.range 16).any fun w => decide (4 * w ≤ off) && (f.idx (off - 4 * w)).isSome
def named (k : PageKind) (off : Nat) : Bool := cntHi k off || (pageFields k).any fun f => (f.idx off).isSome

/-- A word of a result set is read: data words of an incomplete set are undefined (R61); RES_STS at the alias clears VALID (R63). -/
def State.resRead (s : State) (p off : Nat) (f : Fld) (alias_ : Bool) : State × Nat :=
  match f.idx off with
  | some j =>
    let v := s.pageWord p off
    (if alias_ then s.wr p f 0 j else s, v)
  | none =>
    let j := if f.stride = 0 then 0 else (off - f.off) / f.stride
    if s.on p f j then (s, s.pageWord p off) else ((s.draw 32).2, (s.draw 32).1)

/-- The RC fields at an offset clear after the read (R7, R8). -/
def State.clearRc (s : State) (k : PageKind) (p off : Nat) : State :=
  (pageFields k).foldl (fun st f =>
    match f.idx off with
    | some j => if f.acc = .rc then st.wr p f 0 j else st
    | none => st) s

/-- Windows at 0x8000 and above that are not stored fields; the Bonnet's counts are read through the holding register (R57, R710). -/
def State.windowRead (s : State) (who : Nat) (k : PageKind) (i off : Nat) : Option (State × Nat) :=
  let o := off - 0x8000
  match k with
  | .log => some (s, s.logWindow o)
  | .obs => if 0xA000 ≤ off then some (s, s.traceWindow (off - 0xA000)) else none
  | .bon =>
    let slot := requesterSlot who * 4096 + pgBON
    if 32 ≤ s.rd pgBON BON.WIN_STS_PAGE then some (s, s.bonWindow o)
    else if o % 8 < 4 then some ({ s with hold := tset s.hold slot (s.bonWindow (o + 4)) }, s.bonWindow o)
    else some (s, tgetD s.hold slot 0)
  | .sec => some (s, s.secWindow o)
  | .leg => if 0xC000 ≤ off ∧ off < 0xE000 then some (s.legAlias ((off - 0xC000) / 4))
    else if 0xE000 ≤ off ∧ off < 0xE040 then some (s.legAlias (2048 + (off - 0xE000) / 4)) else none
  | .lpm => some (s, (s.rowNow (if off < 0xC000 then 5 else 6) false ((off - (if off < 0xC000 then 0x8000 else 0xC000)) / 4)).headD 0)
  | .hbc => if i = 0 then
      match s.windowAccess off none with
      | some r => some r
      | none => some (s.raise pgCRWN 3, 0xFFFFFFFF)
    else none
  | _ => none

/-- A plain word of a page is read, with the effects of R7, R57, R58 and R685. -/
def State.plainRead (s : State) (who p off : Nat) (k : PageKind) : State × Nat :=
  let slot := requesterSlot who * 4096 + p
  if k = .ntm ∧ (off = 0x108 ∨ off = 0x150) then s.timeRead (requesterSlot who) (decide (off = 0x150))
  else if k = .ntm ∧ (off = 0x10C ∨ off = 0x110 ∨ off = 0x114 ∨ off = 0x154 ∨ off = 0x158 ∨ off = 0x15C) then
    (s, s.timeLatched (requesterSlot who) off)
  else if cntLo k off then ({ s with hold := tset s.hold slot (s.pageWord p (off + 4)) }, s.pageWord p off)
  else if cntHi k off then (s, tgetD s.hold slot 0)
  else (s.clearRc k p off, s.pageWord p off)

/-- A word of a populated page is read. -/
def State.readWord (s : State) (who p off : Nat) : State × Nat :=
  match pageAt p with
  | none => (s, 0)
  | some (k, i) =>
    if ¬ s.live p then (s, if off = 0 then pageId p else 0)
    else if p = pgCRWN ∧ ¬ s.crownAnswers off then (s, 0)
    else
      let s0 := s.pmc p 3 1
      if s.absent k i off then (s0, 0)
      else if 0x1000 ≤ off ∧ off < 0x2000 then (s0, tgetD (tgetD s.shadow p []) (off - 0x1000) 0)
      else if 0x2000 ≤ off ∧ off < 0x8000 then (s0, 0)
      else match (if 0x8000 ≤ off then s0.windowRead who k i off else none) with
        | some r => r
        | none =>
          match resAt k off with
          | some f => s0.resRead p off f false
          | none =>
            if 0x900 ≤ off ∧ off < 0x1000 ∧ ¬ named k off then
              match resAt k (off - 0x800) with
              | some f => s0.resRead p (off - 0x800) f true
              | none => (s0, 0)
            else s0.plainRead who p off k

end Sys2Proof.Machine
end

