-- ==== Sys2Proof/Machine/Fire.lean ====
section
/-! DEFINITION. Machine/Fire.lean: what changes network time (R660 to R665, R667) and fires timed actions (R678 to R682), and a word
written or read through the register bus with its routing (R44 to R49). -/

namespace Sys2Proof.Machine

/-! ### Firing (R678 to R682) -/

/-- A block can take a firing: it has power and is not in reset (R681). -/
def State.takesFiring (s : State) (p : Nat) : Bool := s.live p && !s.on p COMMON.PAGE_CTL_SOFT_RESET

/-- A firing whose block is off or in reset is lost (R681). -/
def State.undelivered (s : State) : State := (s.cnt pgTAQ TAQ.TAQ_CNT 7).raise pgTAQ 1

/-- A firing for the block of page p. -/
def State.deliverTo (s : State) (p : Nat) (act : State → State) : State := if s.takesFiring p then act s else s.undelivered

/-- The LFU instances of a mask that a latch reaches, and whether one cannot take it (R675). -/
def State.maskLatch (s : State) (mask : Nat) : State :=
  let l := (List.range 16).filter fun i => bit mask i
  let s1 := (l.filter fun i => s.takesFiring (pgLFU i)).foldl (fun (st : State) i => st.pmLatch i true) s
  if l.all fun i => s.takesFiring (pgLFU i) then s1 else s1.undelivered

/-- A timed action takes effect at its block (R675, R680). -/
def State.deliver (s : State) (e : TaqEntry) : State :=
  let lfu := e.arg % 16
  let page := e.word 4 % 2 ^ 26 / 65536
  let off := e.word 4 % 65536
  match e.type with
  | 1 => if s.on pgCRWN CRWN.STROBE_CTL_TAQ_EN then s.strobe else s.cnt pgTAQ TAQ.TAQ_CNT 6
  | 2 => s.deliverTo (pgLFU lfu) (·.flexeTrigger lfu)
  | 3 => s.deliverTo (pgLFU lfu) (·.otnTrigger lfu)
  | 4 => s.deliverTo pgLKP (·.epochCmd true false)
  | 5 => s.deliverTo pgFWU fun (t : State) => t.fwTrigger.1
  | 6 => s.maskLatch e.arg
  | 7 => if (pageAt page).isNone then s.unmapped
    else s.deliverTo page fun (t : State) => t.routeWrite 3 page off (e.word 5) fun (u : State) => u.writeWord 3 page off (e.word 5)
  | 8 => s.deliverTo pgBON fun (t : State) => (t.bonRequest 2 (e.arg % 256)).1
  | _ => s

/-- The entry at an index fires (R678, R681): it leaves the queue, is counted and signalled, and acts. -/
def State.fireEntry (s : State) (i : Nat) (e : TaqEntry) : State :=
  let s1 := { s with taq := tdel s.taq i, taqFired := i :: s.taqFired.filter fun (k : Nat) => k ≠ i }.taqView
  let s2 := (s1.cnt pgTAQ TAQ.TAQ_CNT 1).raise pgTAQ 0
  let s3 := if e.late then (s2.cnt pgTAQ TAQ.TAQ_CNT 2).raise pgTAQ 2 else s2
  s3.deliver e

/-- Entries whose target has come fire in order of target, then of posting (R678, R679, R682). `left` bounds their number. -/
def State.fireDue (s : State) : (left : Nat) → State
  | 0 => s
  | left + 1 =>
    match earliest s.taq with
    | some (i, e) => if s.ntValid ∧ s.live pgTAQ ∧ e.target ≤ s.nt.whole then (s.fireEntry i e).fireDue left else s
    | none => s

/-- TAQ_FIRE (R678): the core clock at or after a target. -/
def execTaqFire (s : State) : Host.Outcome State Fault Refusal := .next (s.fireDue 64)

/-- The entries whose target network time has passed by a set, a step or the rise of VALID fire late at once (R33, R682). -/
def State.fireOverdue (s : State) : State :=
  let past (e : TaqEntry) : Bool := decide (e.target * 2 ^ 48 < s.nt.total)
  if s.ntValid then
    { s with taq := s.taq.map fun (x : Nat × TaqEntry) => (x.1, { x.2 with late := x.2.late || past x.2 }) }.fireDue 64
  else s

/-! ### Sets and steps (R660 to R663) -/

/-- Network time takes a value in one tick; the two log words are STEP_NS and STEP_SEC, or 0 (R792). -/
def State.ntLoad (s : State) (t : NetTime) (counter a0 a1 : Nat) : State :=
  let s1 := (({ s with nt := t.norm, bonStepped := s.bonStepped || s.live pgBON }.cnt pgNTM NTM.NTM_CNT counter).raise pgNTM 5).logAppend
    (pageCode .ntm) 0 0 0x1003 0 a0 a1
  let s2 := if t.sec = s.nt.sec then s1
    else ((List.range 16).filter fun i => s1.enabled (pgLFU i)).foldl (fun (st : State) i => st.pmLatch i true) s1
  s2.fireOverdue

/-- NT_SET as a time. The spec gives NS 0 to 999,999,999; what a set of a larger value loads is not stated, so the nanoseconds are
then a free value (notes/assumptions/31.md). -/
def State.ntSet (s : State) : State × NetTime :=
  let sec := s.rd pgNTM NTM.NT_SET_SEC_LO_SEC + s.rd pgNTM NTM.NT_SET_SEC_HI_SEC * 2 ^ 32
  let ns := s.rd pgNTM NTM.NT_SET_NS_NS
  if ns < 1000000000 then (s, { sec := sec, ns := ns })
  else ((s.draw 30).2, { sec := sec, ns := (s.draw 30).1 % 1000000000 })

/-- SET_NOW (R660). -/
def State.ntSetNow (s : State) : State :=
  let r := (s.ntPend 0).ntSet
  r.1.ntLoad r.2 3 0 0

/-- STEP (R660, R661): outside ±999,999,999 ns it is refused; below zero it loads 0. -/
def State.ntStepCmd (s : State) : State :=
  let ns := signedOf 32 (s.rd pgNTM NTM.STEP_NS_NS)
  let sec := signedOf 32 (s.rd pgNTM NTM.STEP_SEC_SEC)
  if 999999999 < ns ∨ ns < -999999999 then s.raise pgNTM 6
  else
    let v : Int := (s.nt.total : Int) + (sec * 1000000000 + ns) * (2 : Int) ^ 48
    (s.ntPend 0).ntLoad (NetTime.ofTotal v.toNat) 4 (s.rd pgNTM NTM.STEP_NS_NS) (s.rd pgNTM NTM.STEP_SEC_SEC)

/-- NT_SET_NOW (R660). -/
def execNtSetNow (s : State) : Host.Outcome State Fault Refusal := .next (s.gate pgNTM (·.ntSetNow))

/-- NT_STEP (R660, R661). -/
def execNtStep (s : State) : Host.Outcome State Fault Refusal := .next (s.gate pgNTM (·.ntStepCmd))

/-- NTM_CTL written: VALID follows the write and its rise fires what is overdue; a rise of PPS_LOSS_INVAL starts its count (R664). -/
def State.ntmCtlWrite (s : State) (v : Nat) : State :=
  let rose := bit v 1 && !s.on pgNTM NTM.NTM_CTL_PPS_LOSS_INVAL
  let s1 := (s.storeWord pgNTM 0x100 v).put pgNTM NTM.NTM_CTL_VALID (s.on pgNTM NTM.NTM_CTL_VALID)
  let s2 := if rose then { s1 with ntArm := s1.ticks } else s1
  if bit v 0 ∧ ¬ s.ntValid then (s2.setValid true).fireOverdue else s2.setValid (bit v 0)

/-- NTM_VALID_WRITE (R664): a write of NTM_CTL. -/
def execNtmValidWrite (v : Nat) (s : State) : Host.Outcome State Fault Refusal := .next (s.gate pgNTM (·.ntmCtlWrite v))

/-- NT_CMD written (R660). -/
def State.ntCmd (s : State) (op : Nat) : State :=
  match op with
  | 1 => s.ntSetNow
  | 2 => s.ntPend 2
  | 3 => s.ntPend 3
  | 4 => s.ntStepCmd
  | 7 => s.ntPend 0
  | _ => s

/-- PPS_IN_EDGE (R660, R667): the capture, and the set that waited for it; a ToD message serves the edge after it only (R671). -/
def State.ppsEdge (s : State) : State :=
  let comp : Int := -(((s.rd pgNTM NTM.PPS_CFG_IN_COMP * 2 ^ 48 : Nat)) : Int)
  let tod := s.todSec
  let s1 := (({ s with ppsAt := some s.ticks, ppsCap := s.nt.shift comp, todSec := none }.cnt pgNTM NTM.NTM_CNT 0).raise pgNTM 0).wr
    pgNTM NTM.NTM_STS_PPS_SEEN 1
  if s.ntPending = 2 then
    let r := (s1.ntPend 0).ntSet
    r.1.ntLoad r.2 3 0 0
  else match s.ntPending, tod with
    | 3, some sec => (s1.ntPend 0).ntLoad { sec := sec } 3 0 0
    | _, _ => s1

/-- PPS_IN_EDGE (R667). -/
def execPpsInEdge (s : State) : Host.Outcome State Fault Refusal := .next (s.gate pgNTM (·.ppsEdge))

/-! ### Accesses of the register bus -/

/-- A word written to a populated page by a requester, network-time registers included. -/
def State.regWrite (s : State) (who p off v : Nat) : State :=
  if p = pgNTM ∧ off = 0x100 then s.gate pgNTM fun (t : State) => (t.pmc pgNTM 4 1).ntmCtlWrite v
  else if p = pgNTM ∧ off = 0x140 then s.gate pgNTM fun (t : State) => (t.pmc pgNTM 4 1).ntCmd (bits v 0 3)
  else s.writeWord who p off v

/-- The answer to a read: a register bus answer, or the completion of a PCIe read (4). -/
def State.answer (s : State) (who p off v : Nat) : State :=
  s.emit (if who = 4 then .memData 1 v else .readData who p off v)

/-- A service processor may not write here (R714, R715). -/
def State.spBarred (s : State) (who p off : Nat) : Bool := (who = 1 || who = 2) && !s.mayWrite who p off

/-- A register write (R44 to R49, R715). `parity`: the byte parity of the bus is good. -/
def State.busWrite (s : State) (who p off v : Nat) (parity : Bool) : State :=
  if ¬ parity then s.raise pgCRWN 1
  else if s.spBarred who p off then s.spRefusedWrite who
  else s.routeWrite who p off v fun (t : State) => t.regWrite who p off v

/-- A register read performed at its page. -/
def State.regRead (s : State) (who p off : Nat) : State :=
  let r := s.readWord who p off
  r.1.answer who p off r.2

/-- A register read (R44 to R49). -/
def State.busRead (s : State) (who p off : Nat) (parity : Bool) : State :=
  if ¬ parity then (s.raise pgCRWN 1).answer who p off 0xFFFFFFFF
  else if (pageAt p).isNone then s.unmapped.answer who p off 0
  else if qdPage p ∧ s.on pgBAND BAND.BAND_STS_FAILED then (s.raise pgCRWN 3).answer who p off 0xFFFFFFFF
  else if qdPage p ∧ s.on pgBAND BAND.BAND_STS_RETRAINING then
    { s with bandWait := s.bandWait ++ [{ who := who, page := p, off := off, write := none }] }
  else s.regRead who p off

end Sys2Proof.Machine
end

