-- ==== Sys2Proof/Machine/Bus.lean ====
section
/-! DEFINITION. Machine/Bus.lean: accesses to registers and memory: the register bus (R6 to R8, R42 to R49, R52, R57, R59, R63, R70),
soft reset (R864), the accesses a Band retrain holds (R19, R47), and memory requests of the host (R538 to R541, R557). `who` is
0 PF1, 1 SP-A, 2 SP-B. -/

namespace Sys2Proof.Machine

/-! ### The register bus -/

/-- REGISTER_WRITE (R7, R44 to R49): a write of one word at an offset of a page. -/
def execRegisterWrite (who page off v : Nat) (parity : Bool) (s : State) : Host.Outcome State Fault Refusal :=
  .next (s.busWrite (who % 3) (page % 1024) (off % 65536 / 4 * 4) (v % 2 ^ 32) parity)

/-- RC_FIELD_READ (R8): a read of one word at an offset of a page. -/
def execRcFieldRead (who page off : Nat) (parity : Bool) (s : State) : Host.Outcome State Fault Refusal :=
  .next (s.busRead (who % 3) (page % 1024) (off % 65536 / 4 * 4) parity)

/-- COUNTER_LO_READ (R57): the read of a LO word latches the HI word for its requester. -/
def execCounterLoRead (who page off : Nat) (s : State) : Host.Outcome State Fault Refusal :=
  .next (s.busRead (who % 3) (page % 1024) (off % 65536 / 4 * 4) true)

/-- RESULT_ALIAS_READ (R63): the read of RES_STS of the result set at an offset by its alias. -/
def execResultAliasRead (who page off : Nat) (s : State) : Host.Outcome State Fault Refusal :=
  .next (s.busRead (who % 3) (page % 1024) (off % 0x800 / 4 * 4 + 0x800) true)

/-- MALFORMED_SP_ACCESS (R44): who is 1 SP-A or 2 SP-B. -/
def execMalformedSpAccess (who page off : Nat) (write : Bool) (s : State) : Host.Outcome State Fault Refusal :=
  .next (let s1 := s.raise pgCRWN 4
    if write then s1 else s1.answer who page off 0xFFFFFFFF)

/-- UNMAPPED_PAGE_ACCESS (R45). -/
def execUnmappedPageAccess (who page off : Nat) (write : Bool) (s : State) : Host.Outcome State Fault Refusal :=
  .next (if (pageAt (page % 1024)).isSome then s
    else if write then s.busWrite (who % 3) (page % 1024) off 0 true else s.busRead (who % 3) (page % 1024) off true)

/-- REGISTER_ACCESS_TIMEOUT (R46): a block has not answered within 2 µs. -/
def execRegisterAccessTimeout (who page off : Nat) (write : Bool) (s : State) : Host.Outcome State Fault Refusal :=
  .next (let s1 := s.raise pgCRWN 3
    if write then s1 else s1.answer who page off 0xFFFFFFFF)

/-- HBM_WINDOW_ACCESS (R523): a register access of PF1 to the window of HBC0; one that its stack holds completes by R46. -/
def execHbmWindowAccess (offset : Nat) (write : Option Nat) (s : State) : Host.Outcome State Fault Refusal :=
  .next (
    let off := 0x8000 + 4 * (offset % 32768 / 4)
    match write with
    | some v => s.busWrite 0 (pgHBC 0) off v true
    | none => s.busRead 0 (pgHBC 0) off true)

/-- INT_FORCE_WRITE (R52). -/
def execIntForceWrite (who page v : Nat) (s : State) : Host.Outcome State Fault Refusal :=
  .next (s.busWrite (who % 3) (page % 1024) 0x28 (v % 2 ^ 32) true)

/-- INT_REARM (R70). -/
def execIntRearm (who v : Nat) (s : State) : Host.Outcome State Fault Refusal :=
  .next (s.busWrite (who % 3) pgCRWN 0x14C (v % 2 ^ 32) true)

/-- CNT_CLEAR_ALL (R59). -/
def execCntClearAll (who page : Nat) (s : State) : Host.Outcome State Fault Refusal :=
  .next (s.busWrite (who % 3) (page % 1024) 0xF0 1 true)

/-! ### Soft reset (R864) -/

/-- SOFT_RESET (R864): PAGE_CTL written with SOFT_RESET at 1 and its other bits as they are. -/
def execSoftReset (who page : Nat) (s : State) : Host.Outcome State Fault Refusal :=
  .next (let p := page % 1024
    let ctl := b2n (s.on p COMMON.PAGE_CTL_ENABLE) + 2 + 4 * b2n (s.on p COMMON.PAGE_CTL_FREEZE) +
      8 * b2n (s.on p COMMON.PAGE_CTL_SNAP_EN)
    s.busWrite (who % 3) p 0x10 ctl true)

/-- SOFT_RESET_COMPLETE (R864): SOFT_RESET and BUSY clear. -/
def execSoftResetComplete (page : Nat) (s : State) : Host.Outcome State Fault Refusal :=
  .next (let p := page % 1024
    s.gate p fun (t : State) => (t.wr p COMMON.PAGE_CTL_SOFT_RESET 0).wr p COMMON.PAGE_STS_BUSY 0)

/-! ### The accesses a retrain holds (R19, R47) -/

/-- A waiting access is performed. -/
def State.performWait (s : State) (a : BandAccess) : State :=
  match a.write with
  | some v => s.regWrite a.who a.page a.off v
  | none => s.regRead a.who a.page a.off

/-- A waiting access ends without its page. -/
def State.failWait (s : State) (a : BandAccess) : State :=
  let s1 := s.raise pgCRWN 3
  if a.write.isSome then s1 else s1.answer a.who a.page a.off 0xFFFFFFFF

/-- BAND_RETRAIN_DONE (R19, R47). -/
def execBandRetrainDone (s : State) : Host.Outcome State Fault Refusal :=
  .next (if s.live pgBAND ∧ s.on pgBAND BAND.BAND_STS_RETRAINING then
    s.bandWait.foldl (fun (st : State) (a : BandAccess) => st.performWait a) { s.bandTrained with bandWait := [] }.felResume
  else s)

/-- BAND_RETRAIN_FAIL (R19, R47). -/
def execBandRetrainFail (s : State) : Host.Outcome State Fault Refusal :=
  .next (if s.live pgBAND ∧ s.on pgBAND BAND.BAND_STS_RETRAINING then
    s.bandWait.foldl (fun (st : State) (a : BandAccess) => st.failWait a) { s.bandFailed with bandWait := [] }
  else s)

/-! ### Memory requests of the host (R538 to R541, R547, R557)

`fn` is the routing-ID offset, `bar` 0 or 2, `offset` in the BAR. `full`: all byte enables are set. `atomic`: the request is an
AtomicOp. -/

/-- Memory Space Enable of a function; that of every VF stands in the SR-IOV capability of PF0 (R536). -/
def State.memSpace (s : State) (fn : Nat) : Bool := if fn ≤ 1 then (s.fnS fn).mse else bit ((s.fnS 0).dw 0x308) 3

/-- The size of a BAR of a function (R539). -/
def State.barSize (s : State) (fn bar : Nat) : Nat :=
  match fnKind fn, bar with
  | 0, 0 => 2 ^ 25
  | 0, 2 => 2 ^ 16
  | 1, 0 => 2 ^ 26
  | 1, 2 => 2 ^ 16
  | 2, 0 => 2 ^ 18
  | 2, 2 => max 16384 (4096 * (s.fnS 0).dw 0x320)
  | _, _ => 0

/-- A BAR of the function decodes the request (R538, R557). -/
def State.decodes (s : State) (fn bar offset n : Nat) : Bool :=
  s.fnThere fn && s.memSpace fn && !(s.fnS fn).d3 && decide (offset + 4 * n ≤ s.barSize fn bar)

/-- The ECRC of a request fails and is checked (R557). -/
def State.ecrcBad (s : State) (fn : Nat) (ecrc : Bool) : Bool := ecrc && bit ((s.fnS (aerFn fn)).dw 0x118) 8

/-- Where the PBA of a function starts in BAR2 (R542). -/
def pbaAt (fn : Nat) : Nat := if fn ≤ 1 then 0x8000 else 0x2000

/-- One dword written to the doorbells or BAR2 of a function. -/
def State.memWord (s : State) (fn bar off v : Nat) : State :=
  if bar = 0 then
    match s.doorbellQp fn off with
    | some p => s.gate pgDMA (·.doorbellWrite p (off % 4096) v)
    | none => s
  else if off < 16 * vectorsOf fn then s.vecWrite fn off v
  else if 2 ≤ fn ∧ 0x3000 ≤ off then s.gate pgVFM (·.mbxWrite (vfOf fn) off v)
  else s

/-- One dword read from the doorbells or BAR2 of a function. -/
def State.memDword (s : State) (fn bar off : Nat) : Nat :=
  if bar = 0 then
    match s.doorbellQp fn off with
    | some p => if s.live pgDMA then s.doorbellRead p (off % 4096) else 0
    | none => 0
  else if off < 16 * vectorsOf fn then (s.fnS fn).vecRead off
  else if pbaAt fn ≤ off ∧ off < pbaAt fn + vectorsOf fn / 8 then (s.fnS fn).pba ((off - pbaAt fn) / 4)
  else if 2 ≤ fn ∧ 0x3000 ≤ off then (s.vf (vfOf fn)).mbxRead off
  else 0

/-- Dwords written one after another. A dword with partial byte enables is stored with a free value (notes/assumptions/28.md). -/
def State.memWords (s : State) (fn bar off : Nat) (full : Bool) : List Nat → State
  | [] => s
  | w :: t =>
    let r := if full then (w % 2 ^ 32, s) else s.draw 32
    (r.2.memWord fn bar off r.1).memWords fn bar (off + 4) full t

/-- An inbound memory write. -/
def State.barWrite (s : State) (fn bar off : Nat) (words : List Nat) (full poisoned ecrc : Bool) : State :=
  if s.ecrcBad fn ecrc then ((s.cnt pgPCE PCE.PCE_CNT 9).aerUncor fn 19 false).raise pgPCE 3
  else if ¬ s.decodes fn bar off words.length then s.unsupportedReq fn true
  else if poisoned then ((s.cnt pgPCE PCE.PCE_CNT 7).aerUncor fn 12 false).raise pgPCE 2
  else if fn = 1 ∧ bar = 0 then
    if words.length = 1 ∧ full ∧ off % 4 = 0 then s.busWrite 4 (off / 65536) (off % 65536) (words.headD 0 % 2 ^ 32) true
    else s.completerAbort fn true
  else s.memWords fn bar (off / 4 * 4) full words

/-- PCIE_MEM_WRITE (R538 to R541, R547, R557). -/
def execPcieMemWrite (fn bar offset : Nat) (words : List Nat) (full poisoned ecrc atomic : Bool) (s : State) :
    Host.Outcome State Fault Refusal :=
  .next (s.gate pgPCE fun (t : State) =>
    if atomic then t.unsupportedReq fn false else t.barWrite fn bar offset words full poisoned ecrc)

/-- The dwords of a read are answered in address order. -/
def State.barReads (s : State) (fn bar off : Nat) : (count : Nat) → State
  | 0 => s
  | n + 1 => (s.emit (.memData fn (s.memDword fn bar off))).barReads fn bar (off + 4) n

/-- An inbound memory read. -/
def State.barRead (s : State) (fn bar off count : Nat) (full ecrc : Bool) : State :=
  if s.ecrcBad fn ecrc then
    (((s.cnt pgPCE PCE.PCE_CNT 9).aerUncor fn 19 false).raise pgPCE 3).emit (.unsupported fn)
  else if ¬ s.decodes fn bar off count then s.unsupportedReq fn false
  else if fn = 1 ∧ bar = 0 then
    if count = 1 ∧ full ∧ off % 4 = 0 then s.busRead 4 (off / 65536) (off % 65536) true
    else s.completerAbort fn false
  else s.barReads fn bar (off / 4 * 4) count

/-- PCIE_MEM_READ (R538 to R541, R547, R557). -/
def execPcieMemRead (fn bar offset count : Nat) (full ecrc : Bool) (s : State) : Host.Outcome State Fault Refusal :=
  .next (s.gate pgPCE (·.barRead fn bar offset count full ecrc))

end Sys2Proof.Machine
end

