-- ==== Sys2Proof/Machine/Upset.lean ====
section
/-! DEFINITION. Machine/Upset.lean: memory errors inside the device (R90 and the double-bit causes of the pages). Which memory has an
error, and when, is Config.upset, a free value of the tick (DESIGN CHOICE, notes/assumptions/23.md). What the device does about it follows
the rule of the page. The double-bit errors of the Liner, the fabric element, HBM, range search, buffer bitmaps and queue descriptors,
which a frame, a cell or a request meets, are operands of their commands instead. -/

namespace Sys2Proof.Machine

/-- Element n of a list, counted round. -/
def pickOf {α : Type} (l : List α) (n : Nat) : Option α := l[n % l.length]?

/-! ### Line side (R154, R226) -/

/-- MSC i: an SA, or an SC (R154). -/
def State.upsetMsc (s : State) (i n : Nat) : State :=
  let s1 := s.raise (pgMSC i) 7
  if bit n 13 then s1
  else
    let (tx, idx) := (bit n 12, n % 2048)
    if (s.sa i tx idx).inUse then s1.setSa i tx idx { s.sa i tx idx with dead := true } else s1

/-- LFU i: an entry of a calendar or map, or a client entry, which counts as unused until it is written (R226). -/
def State.upsetLfu (s : State) (i n : Nat) : State :=
  let p := pgLFU i
  let cals := [LFU.TXCAL_A_UNUSED_E, LFU.TXCAL_A_UNUSED_O, LFU.TXCAL_B_UNUSED_E, LFU.TXCAL_B_UNUSED_O, LFU.RXCAL_A_UNUSED_E,
    LFU.RXCAL_A_UNUSED_O, LFU.RXCAL_B_UNUSED_E, LFU.RXCAL_B_UNUSED_O, LFU.MAP_A_UNUSED_E, LFU.MAP_A_UNUSED_O, LFU.MAP_B_UNUSED_E,
    LFU.MAP_B_UNUSED_O]
  let s1 := match cals[n / 1024 % 16]? with
    | some f => (s.wr p f 1 (n % f.n)).clientViews i
    | none => ((s.unbind i (n % 64)).wr p LFU.CLIENT_VALID 0 (n % 64)).clientViews i
  s1.raise p 11

/-! ### Pipelines and lookup (R90, R264 to R269) -/

/-- Header-vector parity in ingress pipeline i drops a frame that goes through its stages; or a stage memory has an error. -/
def State.upsetIpp (s : State) (i n : Nat) : State :=
  if bit n 0 then s.raise (pgIPP i) 2
  else match s.takePiped fun x => decide (x.pipe = i) && decide (x.stage = .ready) && !x.drop with
    | some (x, s1) => ((s1.inc (pgIPP i) IPP.PARITY_DROP).raise (pgIPP i) 0).pipeEnd x true
    | none => s

/-- Header-vector parity in egress pipeline i drops the frame dealt to it; or a stage memory has an error. -/
def State.upsetEpp (s : State) (i n : Nat) : State :=
  if bit n 0 then s.raise (pgEPP i) 2
  else match s.toFd, s.pickEpp with
    | f :: rest, some k =>
      if k = i ∧ s.bandUp then
        let s1 := { s with toFd := rest, nextEpp := (i + 1) % 20 }.inc (pgEPP i) EPP.FRAMES
        (((s1.inc (pgEPP i) EPP.PARITY_DROP).raise (pgEPP i) 0).eppDrop f).poolView
      else s
    | _, _ => s

/-- A template reads as invalid until it is written (R266). -/
def State.upsetPrs (s : State) (n : Nat) : State :=
  let t := n % 128
  (s.wr pgPRS PRS.TEMPLATE (clrBit (s.tplWord t 1) 31) (16 * t + 1)).raise pgPRS 0

/-- An entry of one copy of the classifier is lost: a frame that reads it is dropped and sets the cause (R90, R267). -/
def State.upsetCls (s : State) (n : Nat) : State :=
  let hit (t : Tbl ClsEntry) : Tbl ClsEntry := match pickOf t (n / 2) with
    | some (q, e) => tset t q { e with dead := true }
    | none => t
  if bit n 0 then { s with cls1 := hit s.cls1 } else { s with cls0 := hit s.cls0 }

/-- A held result becomes a drop token (R269). -/
def State.upsetOrd (s : State) (n : Nat) : State :=
  match pickOf (s.ords.flatMap fun (c : Nat × OrdCtx) => c.2.held.map fun h => (c.1, h.1)) n with
  | none => s
  | some (c, q) =>
    let x := s.ctx c
    let y := { x with held := x.held.map fun (h : Nat × OrdHeld) => if h.1 = q then (h.1, { h.2 with drop := true }) else h }
    (s.setCtx c y).raise pgORD 2

/-- A row on die is lost: a frame that reads it is dropped and sets its page's cause, until the row is written (R90, R316). -/
def State.upsetRow (s : State) (id row : Nat) : State :=
  if row < s.rowsOnDie id then { s with deadRows := s.rowKey id false row :: s.deadRows } else s

/-- A row of the version store is lost: its key reads as lost (R316). -/
def State.upsetStore (s : State) (n : Nat) : State :=
  match pickOf s.vstore n with
  | some v => { s with deadRows := v.key :: s.deadRows }.raise pgLKP 2
  | none => s

/-! ### Queueing die (R375, R381, R387, R431) -/

/-- Frame data in the write staging or the read-back buffer is poisoned (R90, R375). -/
def State.upsetBrm (s : State) (n : Nat) : State :=
  let s1 := s.raise pgBRM 4
  match pickOf (s.queues.filter fun (e : Nat × Queue) => e.2.frames.any fun f => f.place = .staged || f.place = .back) n with
  | none => s1
  | some (q, x) =>
    let k := x.frames.findIdx fun f => f.place = .staged || f.place = .back
    s1.setQue q { x with frames := x.frames.zipIdx.map fun (e : Frame × Nat) => if e.2 = k then { e.1 with poison := true } else e.1 }

/-- A queue's descriptor, links or state are lost: it halts (R381). -/
def State.upsetQueue (s : State) (p n : Nat) : State :=
  match pickOf s.queues n with
  | some (q, _) => if p = pgQSU then (s.haltQueue q).raise pgQSU 2 else s.haltQueue q
  | none => s

/-- A multicast descriptor is lost: its replicas that are not queued yet are dropped, and those queued are sent (R387). -/
def State.upsetMcr (s : State) (n : Nat) : State :=
  match pickOf s.mcds n with
  | none => s
  | some (m, x) =>
    let s1 := s.raise pgMCR 3
    (List.range x.reps.length).foldl (fun (t : State) r =>
      match (t.mcd m).reps[r]? with
      | some y => if y.state = .residue then (t.residueTake m r).replicaGone m r true else t
      | none => t) s1

/-- A node of a level reads VALID = 0 until it is written (R430). -/
def State.upsetSch (s : State) (lvl n : Nat) : State :=
  match pickOf (s.nodes.filter fun (e : Nat × Node) => decide (e.1 / 262144 = lvl)) n with
  | none => s
  | some (k, x) => ({ s with nodes := tset s.nodes k { x with words := lset x.words 0 (clrBit (x.word 0) 31) } }.raise (pgSCH lvl) 1).settle

/-! ### Host side and management -/

/-- Endpoint memory: the outstanding reads of a function end as host errors (R557). -/
def State.upsetPce (s : State) (n : Nat) : State :=
  let s1 := s.raise pgPCE 7
  match pickOf (s.tags.filter fun t => !t.quarantined) n with
  | none => s1
  | some t =>
    (s1.tags.filter fun (u : TagSlot) => decide (u.fn = t.fn) && !u.quarantined).foldl (fun (st : State) u =>
      (if u.squashed then st else st.readEnd u [] true).quarantine u) s1

/-- A queue pair enters ERROR (R609). -/
def State.upsetDma (s : State) (n : Nat) : State :=
  match pickOf s.qps n with
  | some (p, x) => (s.setQp p { x with state := 3 }).raise pgDMA 4
  | none => s

/-- An offload profile or a connection reads as invalid until it is written (R651). -/
def State.upsetOfl (s : State) (n : Nat) : State :=
  let s1 := s.raise pgOFL 3
  if bit n 0 then
    match pickOf s.nvs (n / 2) with
    | some (k, c) => { s1 with nvs := tset s1.nvs k { c with words := lset c.words 0 (clrBit (c.words.getD 0 0) 0) } }
    | none => s1
  else
    let p := n / 2 % 256
    s1.wr pgOFL OFL.PROFILE (clrBit (s.oflWord p 0) 4) (32 * p)

/-- An IPsec SA is invalid until it is written (R653). -/
def State.upsetIps (s : State) (n : Nat) : State :=
  let s1 := s.raise pgIPS 3
  match pickOf s.ipsSas n with
  | some (k, x) => { s1 with ipsSas := tset s1.ipsSas k { x with cfg := clrBit x.cfg 0 } }
  | none => s1

/-- A BFD session goes Down with LOCAL_DIAG 7; or a template or a responder entry is lost, of which the latter reads as invalid. -/
def State.upsetSvc (s : State) (n : Nat) : State :=
  let s1 := s.raise pgSVC 3
  match n % 3 with
  | 0 => match pickOf (s.sess.filter fun (e : Nat × List Nat) => sessValid e.2) (n / 3) with
    | some (k, _) => s1.bfdDown k 7
    | none => s1
  | 1 => match pickOf s.rsp (n / 3) with
    | some (k, e) => { s1 with rsp := tset s1.rsp k (lset e 4 (clrBit (sw e 4) 13)) }
    | none => s1
  | _ => s1

/-- An entry of the log ring reads with SEQ 0xFFFFFFFF (R800). -/
def State.upsetLog (s : State) (n : Nat) : State :=
  let s1 := s.raise pgLOG 2
  match pickOf s.log n with
  | some (k, e) => { s1 with log := tset s1.log k { e with seq := 0xFFFFFFFF } }
  | none => s1

/-- A double-bit error in memory n of page i of a kind. -/
def State.upset (s : State) (k : PageKind) (i n : Nat) : State :=
  match k with
  | .lnp => s.raise (pgLNP i) 7
  | .msc => s.upsetMsc i n
  | .lfu => s.upsetLfu i n
  | .ipp => s.upsetIpp i n
  | .epp => s.upsetEpp i n
  | .prs => s.upsetPrs n
  | .cls => s.upsetCls n
  | .pmm => s.raise pgPMM 0
  | .ord => s.upsetOrd n
  | .lkp => if bit n 0 then s.upsetStore (n / 2) else s.upsetRow 27 (n / 2)
  | .lpm => s.upsetRow (n % 7) (n / 7)
  | .exm => s.upsetRow (8 + n % 16) (n / 16)
  | .nhp => s.upsetRow (24 + n % 3) (n / 3)
  | .brm => s.upsetBrm n
  | .adm => s.upsetQueue pgADM n
  | .qsu => s.upsetQueue pgQSU n
  | .mcr => s.upsetMcr n
  | .sch => s.upsetSch i n
  | .shp => { s with shpDead := n % 4096 :: s.shpDead }.raise pgSHP 1
  | .fiu => s.raise (pgFIU i) 5
  | .fab => s.raise pgFAB 4
  | .pce => s.upsetPce n
  | .vfm => s.raise pgVFM 4
  | .dma => s.upsetDma n
  | .wak => (s.wr pgWAK WAK.PAT_CFG_VALID 0 (n % 64)).raise pgWAK 2
  | .ofl => s.upsetOfl n
  | .ips => s.upsetIps n
  | .svc => s.upsetSvc n
  | .taq => s.taqDiscard.raise pgTAQ 3
  | .bon => s.bonLose (n % 65536)
  | .spa => s.raise pgSPA 6
  | .spb => s.raise pgSPB 6
  | .obs => s.raise pgOBS 3
  | .log => s.upsetLog n
  | .crwn | .pwr | .clk | .rst | .band | .ntm | .fwu | .sec | .cage | .leg | .age | .shd | .tdma | .rsu | .bpm | .hbc | .lin | .fel => s

/-- The memory error of this timing clock, if there is one: a single-bit error is corrected and counted by PMC event 5 (R764). -/
def State.upsetTick (s : State) : State :=
  match Config.upset s.ticks with
  | none => s
  | some (p, n, double) =>
    match pageAt p with
    | none => s
    | some (k, i) => if ¬ s.live p then s else if double then s.upset k i n else s.pmc p 5 1

end Sys2Proof.Machine
end

