-- ==== Sys2Proof/Machine/Tick.lean ====
section
/-! DEFINITION. Machine/Tick.lean: one 800 MHz timing clock (R657, R763, R818), which the block runs when no command waits
(notes/assumptions/1.md). -/

namespace Sys2Proof.Machine

/-- Clocks of a num / den multiple of the timing clock that fall in its tick t. -/
def clocksIn (num den t : Nat) : Nat := (t + 1) * num / den - t * num / den

/-- Core clocks of page p in tick t (R818, R870). -/
def pageClocks (p t : Nat) : Nat :=
  match pageAt p with
  | none => 0
  | some (k, _) =>
    match k with
    | .msc | .lfu | .ipp | .prs | .cls | .pmm | .ord | .epp | .lkp | .lpm | .exm | .nhp | .age | .shd | .tdma | .rsu => 3
    | .ntm | .taq => 1
    | .band => clocksIn 45 8 t
    | .pce => clocksIn 5 4 t
    | .bon => clocksIn 1 2 t
    | .lnp | .vfm | .dma | .ofl | .ips | .svc | .wak => Config.unitClocks p t
    | .crwn | .pwr | .clk | .rst | .obs | .log | .spa | .spb | .fwu | .sec | .cage | .leg => clocksIn 15 8 t
    | .bpm | .brm | .adm | .mcr | .qsu | .sch | .shp | .fiu | .fab | .lin | .fel | .hbc => clocksIn 9 4 t

/-- CYC_CNT and the clock events of page p (R763, R764, R767). -/
def State.cycPage (s : State) (p : Nat) : State :=
  if ¬ s.live p ∨ s.frozen p then s
  else
    let n := pageClocks p s.ticks
    let s1 := s.inc p COMMON.CYC_CNT n
    let s2 := if s.on p COMMON.PAGE_CTL_ENABLE then s1.pmc p 1 n else s1
    if s.busy p then s2.pmc p 2 n else s2

/-- Clocks under back-pressure and under the dealing hold (R247, R262, R338): three FD pipeline clocks. -/
def State.bpTick (s : State) : State :=
  let add (c : Bool) (p : Nat) (f : Fld) (n : Nat) (t : State) : State := if c then t.bump p f n n 3 else t
  let ipp := (List.range 20).foldl (fun (t : State) i =>
    if s.on (pgIPP i) IPP.IPP_STS_BP then t.inc (pgIPP i) IPP.BP_CLK 3 else t) s
  add (s.on pgORD ORD.ORD_STS_DEAL_HOLD) pgORD ORD.ORD_CNT 4
    (add (s.on pgPMM PMM.PMM_STS_BP) pgPMM PMM.PMM_CNT 2
      (add (s.on (pgRSU 0) RSU.RSQ_STS_BP) (pgRSU 0) RSU.RSU_GCNT 5 ipp))

/-- Network time advances (R657). -/
def State.ntTick (s : State) : State :=
  if s.live pgNTM then { s with nt := s.nt.shift ((s.ntStep : Nat) : Int) } else s

/-- Function rates pay back what has been sent (R590). -/
def State.rateTick (s : State) : State :=
  { s with vfs := s.vfs.map fun (e : Nat × VfState) => (e.1, { e.2 with debt := e.2.debt - e.2.rate }) }

/-- Line ports: credit-based shapers and the flow control that an occupancy asks for (R122, R126). -/
def State.macTick (s : State) : State :=
  s.macs.foldl (fun (t : State) e =>
    ((List.range 8).foldl (fun (u : State) q => u.cbsEarn e.1 q) t).flowCheck e.1) s

/-- A transfer that runs with the host or the flash: each clock it may end, and how it ends is the host's or the flash's answer. Both
are free values (notes/assumptions/2.md). Staging stops during a switchover gap (R34). -/
def State.transferTick (s : State) : State :=
  let s1 := match s.logRun with
    | some r =>
      let d := s.freeBit
      let e := d.2.freeBit
      if d.1 then e.2.logDumpEnd r e.1 else d.2
    | none => s
  let s2 := match s1.traceRun with
    | some r =>
      let d := s1.freeBit
      let e := d.2.freeBit
      if d.1 then e.2.traceDumpEnd r e.1 else d.2
    | none => s1
  if s2.on pgSPA SPA.IL_STS_SWITCHING then s2 else
  match s2.fwRun with
  | some (n, tag) =>
    let d := s2.freeBit
    let io := d.2.freeIo
    if ¬ d.1 then d.2 else if n = 3 then io.2.stageConfigEnd tag io.1 else io.2.stageEnd n tag io.1
  | none => s2

/-- The JTAG pins: TCK may rise in a clock, with what TMS and TDI bring (DESIGN CHOICE: free values, notes/assumptions/37.md). -/
def State.tapTick (s : State) : State :=
  let d := s.draw 5
  let path : JtagPath :=
    match d.1 / 4 with
    | 0 => .boundary
    | 1 => .processors
    | 2 => .vendorTest
    | 3 => .internalScan
    | _ => .bypass
  if bit d.1 0 then d.2.tck (bit d.1 1) path else d.2

/-- One timing clock of the whole device. -/
def State.tick (s : State) : State :=
  let s1 := (pages.foldl (fun (t : State) p => t.cycPage p) s).bpTick
  let s2 := s1.transferTick.clsTick.rsuTick.macTick.shaperTick.linkTick.hbmTick.rateTick.ntTick.synceTick.tapTick.upsetTick
  { s2 with ticks := s.ticks + 1 }

end Sys2Proof.Machine
end

