-- ==== Sys2Proof/Machine/Dispatch.lean ====
section
/-! DEFINITION. Machine/Dispatch.lean: the meaning of each command, one arm per constructor of Instr. -/

namespace Sys2Proof.Machine

def exec (i : Instr) (s : State) : Host.Outcome State Fault Refusal :=
  match i with
  | .registerWrite who page off v parity => Sys2Proof.Machine.execRegisterWrite who page off v parity s
  | .malformedSpAccess who page off write => Sys2Proof.Machine.execMalformedSpAccess who page off write s
  | .unmappedPageAccess who page off write => Sys2Proof.Machine.execUnmappedPageAccess who page off write s
  | .registerAccessTimeout who page off write => Sys2Proof.Machine.execRegisterAccessTimeout who page off write s
  | .rcFieldRead who page off parity => Sys2Proof.Machine.execRcFieldRead who page off parity s
  | .counterLoRead who page off => Sys2Proof.Machine.execCounterLoRead who page off s
  | .resultAliasRead who page off => Sys2Proof.Machine.execResultAliasRead who page off s
  | .intForceWrite who page v => Sys2Proof.Machine.execIntForceWrite who page v s
  | .intRearm who v => Sys2Proof.Machine.execIntRearm who v s
  | .cntClearAll who page => Sys2Proof.Machine.execCntClearAll who page s
  | .softReset who page => Sys2Proof.Machine.execSoftReset who page s
  | .softResetComplete page => Sys2Proof.Machine.execSoftResetComplete page s
  | .localStrobe page => Sys2Proof.Machine.execLocalStrobe page s
  | .strobeFire => Sys2Proof.Machine.execStrobeFire s
  | .snapInEdge => Sys2Proof.Machine.execSnapInEdge s
  | .gfreezeWrite v => Sys2Proof.Machine.execGfreezeWrite v s
  | .bandFlitSend toQd waiting => Sys2Proof.Machine.execBandFlitSend toQd waiting s
  | .bandFlitReceive toQd flit => Sys2Proof.Machine.execBandFlitReceive toQd flit s
  | .bandCrcMismatch toQd => Sys2Proof.Machine.execBandCrcMismatch toQd s
  | .bandReplayRequest toQd seq => Sys2Proof.Machine.execBandReplayRequest toQd seq s
  | .bandRetryLimit toQd => Sys2Proof.Machine.execBandRetryLimit toQd s
  | .bandRetrain => Sys2Proof.Machine.execBandRetrain s
  | .bandRetrainDone => Sys2Proof.Machine.execBandRetrainDone s
  | .bandRetrainFail => Sys2Proof.Machine.execBandRetrainFail s
  | .macRxFrame slot part bytes fcs errs cut => Sys2Proof.Machine.execMacRxFrame slot part bytes fcs errs cut s
  | .dealFrame => Sys2Proof.Machine.execDealFrame s
  | .parkResume ctx seq poisoned => Sys2Proof.Machine.execParkResume ctx seq poisoned s
  | .rsuSearchResult parity => Sys2Proof.Machine.execRsuSearchResult parity s
  | .pmmScanDone ctx seq => Sys2Proof.Machine.execPmmScanDone ctx seq s
  | .ordResult ctx seq => Sys2Proof.Machine.execOrdResult ctx seq s
  | .ordGapTimeout ctx => Sys2Proof.Machine.execOrdGapTimeout ctx s
  | .qdAdmitFrame fromFabric badWord => Sys2Proof.Machine.execQdAdmitFrame fromFabric badWord s
  | .spillWriteComplete pool buf => Sys2Proof.Machine.execSpillWriteComplete pool buf s
  | .brmReadback queue => Sys2Proof.Machine.execBrmReadback queue s
  | .readbackComplete queue poisoned => Sys2Proof.Machine.execReadbackComplete queue poisoned s
  | .schedDecision port halted => Sys2Proof.Machine.execSchedDecision port halted s
  | .mscTakeFrame slot => Sys2Proof.Machine.execMscTakeFrame slot s
  | .eppDeal poisoned marks => Sys2Proof.Machine.execEppDeal poisoned marks s
  | .macTxFrame slot => Sys2Proof.Machine.execMacTxFrame slot s
  | .bufferFree pool buf requester => Sys2Proof.Machine.execBufferFree pool buf requester s
  | .voqDecision => Sys2Proof.Machine.execVoqDecision s
  | .sprayCell => Sys2Proof.Machine.execSprayCell s
  | .felCellArrive link cell errs => Sys2Proof.Machine.execFelCellArrive link cell errs s
  | .felSlotSend link poisoned => Sys2Proof.Machine.execFelSlotSend link poisoned s
  | .linerCell link cell errs storeBad => Sys2Proof.Machine.execLinerCell link cell errs storeBad s
  | .linerTimeout source cls => Sys2Proof.Machine.execLinerTimeout source cls s
  | .linerCtxIdle source cls => Sys2Proof.Machine.execLinerCtxIdle source cls s
  | .linkEnable link => Sys2Proof.Machine.execLinkEnable link s
  | .linkDisable link => Sys2Proof.Machine.execLinkDisable link s
  | .linkAdaptDone link snr => Sys2Proof.Machine.execLinkAdaptDone link snr s
  | .linkAdaptTimeout link => Sys2Proof.Machine.execLinkAdaptTimeout link s
  | .superframeLock link => Sys2Proof.Machine.execSuperframeLock link s
  | .linkLockTimeout link => Sys2Proof.Machine.execLinkLockTimeout link s
  | .superframeLockLoss link => Sys2Proof.Machine.execSuperframeLockLoss link s
  | .uncorrThreshold link => Sys2Proof.Machine.execUncorrThreshold link s
  | .helloReceive link cell => Sys2Proof.Machine.execHelloReceive link cell s
  | .helloSend link => Sys2Proof.Machine.execHelloSend link s
  | .helloTimeout link => Sys2Proof.Machine.execHelloTimeout link s
  | .linkForceDown link => Sys2Proof.Machine.execLinkForceDown link s
  | .linkHolddownExpiry link => Sys2Proof.Machine.execLinkHolddownExpiry link s
  | .linkDozeRequest link => Sys2Proof.Machine.execLinkDozeRequest link s
  | .dozeReqReceive link cell => Sys2Proof.Machine.execDozeReqReceive link cell s
  | .dozeAckReceive link cell => Sys2Proof.Machine.execDozeAckReceive link cell s
  | .linkWake link signal => Sys2Proof.Machine.execLinkWake link signal s
  | .linkWakeDone link => Sys2Proof.Machine.execLinkWakeDone link s
  | .linkWakeTimeout link => Sys2Proof.Machine.execLinkWakeTimeout link s
  | .reachSend link => Sys2Proof.Machine.execReachSend link s
  | .reachReceive link cell => Sys2Proof.Machine.execReachReceive link cell s
  | .fcSend => Sys2Proof.Machine.execFcSend s
  | .fcReceive link cell => Sys2Proof.Machine.execFcReceive link cell s
  | .unknownControlCell link cell => Sys2Proof.Machine.execUnknownControlCell link cell s
  | .fabSnapSend => Sys2Proof.Machine.execFabSnapSend s
  | .strobeCellReceive link cell => Sys2Proof.Machine.execStrobeCellReceive link cell s
  | .fabricStrobeTarget => Sys2Proof.Machine.execFabricStrobeTarget s
  | .mcrReplicate badWord => Sys2Proof.Machine.execMcrReplicate badWord s
  | .residueReady mcd rep => Sys2Proof.Machine.execResidueReady mcd rep s
  | .residueTimeout mcd => Sys2Proof.Machine.execResidueTimeout mcd s
  | .residuePressure => Sys2Proof.Machine.execResiduePressure s
  | .replicaCompletion mcd rep dropped => Sys2Proof.Machine.execReplicaCompletion mcd rep dropped s
  | .qsuFlush sweep tag => Sys2Proof.Machine.execQsuFlush sweep tag s
  | .qsuFlushComplete => Sys2Proof.Machine.execQsuFlushComplete s
  | .qsuAbort tag => Sys2Proof.Machine.execQsuAbort tag s
  | .nodeWrite level tag => Sys2Proof.Machine.execNodeWrite level tag s
  | .nodeRead level tag => Sys2Proof.Machine.execNodeRead level tag s
  | .shpProfileWrite profile word value => Sys2Proof.Machine.execShpProfileWrite profile word value s
  | .admProfileWrite profile word value => Sys2Proof.Machine.execAdmProfileWrite profile word value s
  | .mcrGroupWrite value => Sys2Proof.Machine.execMcrGroupWrite value s
  | .mcrListWrite value => Sys2Proof.Machine.execMcrListWrite value s
  | .laneCtlWrite lane v => Sys2Proof.Machine.execLaneCtlWrite lane v s
  | .laneAdapt lane => Sys2Proof.Machine.execLaneAdapt lane s
  | .txFirWrite lane v => Sys2Proof.Machine.execTxFirWrite lane v s
  | .portApply slot v => Sys2Proof.Machine.execPortApply slot v s
  | .serWindowEnd slot corr uncorr syms => Sys2Proof.Machine.execSerWindowEnd slot corr uncorr syms s
  | .linkTrainingDone lane ok => Sys2Proof.Machine.execLinkTrainingDone lane ok s
  | .cdrLockLoss lane => Sys2Proof.Machine.execCdrLockLoss lane s
  | .pauseWdTrip slot prio => Sys2Proof.Machine.execPauseWdTrip slot prio s
  | .pauseWdRecoverEnd slot prio => Sys2Proof.Machine.execPauseWdRecoverEnd slot prio s
  | .preemptVerify slot ok => Sys2Proof.Machine.execPreemptVerify slot ok s
  | .lpiEnter slot => Sys2Proof.Machine.execLpiEnter slot s
  | .tsPop msc => Sys2Proof.Machine.execTsPop msc s
  | .mscSaWrite msc tag => Sys2Proof.Machine.execMscSaWrite msc tag s
  | .mscSaRead msc tag => Sys2Proof.Machine.execMscSaRead msc tag s
  | .mscSaInvalidate msc tag => Sys2Proof.Machine.execMscSaInvalidate msc tag s
  | .csbFrame inputs => Sys2Proof.Machine.execCsbFrame inputs s
  | .cageDebounceDone cage => Sys2Proof.Machine.execCageDebounceDone cage s
  | .cagePowerSlot => Sys2Proof.Machine.execCagePowerSlot s
  | .cagePgTimeout cage => Sys2Proof.Machine.execCagePgTimeout cage s
  | .cageResetHoldDone cage => Sys2Proof.Machine.execCageResetHoldDone cage s
  | .cageInitTimeout cage => Sys2Proof.Machine.execCageInitTimeout cage s
  | .cageDatapathActivated cage matched => Sys2Proof.Machine.execCageDatapathActivated cage matched s
  | .cageManualReady cage => Sys2Proof.Machine.execCageManualReady cage s
  | .cageForceLpmode cage v => Sys2Proof.Machine.execCageForceLpmode cage v s
  | .cagePowerCycle cage => Sys2Proof.Machine.execCagePowerCycle cage s
  | .cagePowerCycleEnd cage => Sys2Proof.Machine.execCagePowerCycleEnd cage s
  | .cageFaultClr cage => Sys2Proof.Machine.execCageFaultClr cage s
  | .cageRemovalDone cage => Sys2Proof.Machine.execCageRemovalDone cage s
  | .mmRead master cage tag => Sys2Proof.Machine.execMmRead master cage tag s
  | .mmWrite master cage tag => Sys2Proof.Machine.execMmWrite master cage tag s
  | .mmAbort master tag => Sys2Proof.Machine.execMmAbort master tag s
  | .mmTransactionDone master data nack => Sys2Proof.Machine.execMmTransactionDone master data nack s
  | .mmStretchTimeout master => Sys2Proof.Machine.execMmStretchTimeout master s
  | .mmSdaStuck master => Sys2Proof.Machine.execMmSdaStuck master s
  | .lfuClientWrite lfu entry value => Sys2Proof.Machine.execLfuClientWrite lfu entry value s
  | .flexeSwitchTrigger lfu => Sys2Proof.Machine.execFlexeSwitchTrigger lfu s
  | .flexeOhFrame lfu => Sys2Proof.Machine.execFlexeOhFrame lfu s
  | .flexeOhReceive lfu phys calA calB rpf skew crcErrs idleIns idleDel => Sys2Proof.Machine.execFlexeOhReceive lfu phys calA calB rpf skew crcErrs idleIns idleDel s
  | .flexeCaReceive lfu cal => Sys2Proof.Machine.execFlexeCaReceive lfu cal s
  | .flexeCaTimeout lfu => Sys2Proof.Machine.execFlexeCaTimeout lfu s
  | .flexeCrReceive lfu cal => Sys2Proof.Machine.execFlexeCrReceive lfu cal s
  | .flexeRxCChange lfu cal => Sys2Proof.Machine.execFlexeRxCChange lfu cal s
  | .otnEnable lfu => Sys2Proof.Machine.execOtnEnable lfu s
  | .otnSwitchTrigger lfu => Sys2Proof.Machine.execOtnSwitchTrigger lfu s
  | .otnTxMapSwitch lfu => Sys2Proof.Machine.execOtnTxMapSwitch lfu s
  | .otnRxMapSwitch lfu => Sys2Proof.Machine.execOtnRxMapSwitch lfu s
  | .otnFrame lfu slice hits oh => Sys2Proof.Machine.execOtnFrame lfu slice hits oh s
  | .otnLofDeclare lfu => Sys2Proof.Machine.execOtnLofDeclare lfu s
  | .otnLofClear lfu => Sys2Proof.Machine.execOtnLofClear lfu s
  | .protCommand lfu cmd => Sys2Proof.Machine.execProtCommand lfu cmd s
  | .protHoldoffExpiry lfu which => Sys2Proof.Machine.execProtHoldoffExpiry lfu which s
  | .protWtrExpiry lfu => Sys2Proof.Machine.execProtWtrExpiry lfu s
  | .protFailTimeout lfu => Sys2Proof.Machine.execProtFailTimeout lfu s
  | .pmSecondLatch lfu => Sys2Proof.Machine.execPmSecondLatch lfu s
  | .pmLatch lfu => Sys2Proof.Machine.execPmLatch lfu s
  | .pmLatchFreeRun lfu => Sys2Proof.Machine.execPmLatchFreeRun lfu s
  | .tplCommit index tag => Sys2Proof.Machine.execTplCommit index tag s
  | .tplRead index tag => Sys2Proof.Machine.execTplRead index tag s
  | .tplInvalidate index tag => Sys2Proof.Machine.execTplInvalidate index tag s
  | .clsInsert profile replace tag => Sys2Proof.Machine.execClsInsert profile replace tag s
  | .clsPause => Sys2Proof.Machine.execClsPause s
  | .clsDelete profile tag => Sys2Proof.Machine.execClsDelete profile tag s
  | .clsRead profile tag => Sys2Proof.Machine.execClsRead profile tag s
  | .clsAbort tag => Sys2Proof.Machine.execClsAbort tag s
  | .patWrite index tag => Sys2Proof.Machine.execPatWrite index tag s
  | .patRead index tag => Sys2Proof.Machine.execPatRead index tag s
  | .patAbort tag => Sys2Proof.Machine.execPatAbort tag s
  | .epochCommitCmd discard => Sys2Proof.Machine.execEpochCommitCmd discard s
  | .epochDiscard => Sys2Proof.Machine.execEpochDiscard s
  | .epochCommitEffect => Sys2Proof.Machine.execEpochCommitEffect s
  | .epochDrained => Sys2Proof.Machine.execEpochDrained s
  | .epochWriteBack rows => Sys2Proof.Machine.execEpochWriteBack rows s
  | .fenceCmd => Sys2Proof.Machine.execFenceCmd s
  | .fenceComplete => Sys2Proof.Machine.execFenceComplete s
  | .ageSweepStart table => Sys2Proof.Machine.execAgeSweepStart table s
  | .ageSweepVisit table => Sys2Proof.Machine.execAgeSweepVisit table s
  | .shdCompare table row image => Sys2Proof.Machine.execShdCompare table row image s
  | .shdRecheck table row image => Sys2Proof.Machine.execShdRecheck table row image s
  | .shdMmPop => Sys2Proof.Machine.execShdMmPop s
  | .tdmaDoorbell ring count tag => Sys2Proof.Machine.execTdmaDoorbell ring count tag s
  | .tdmaRead ring desc => Sys2Proof.Machine.execTdmaRead ring desc s
  | .tdmaWrite ring desc data => Sys2Proof.Machine.execTdmaWrite ring desc data s
  | .tdmaInsert ring desc data => Sys2Proof.Machine.execTdmaInsert ring desc data s
  | .tdmaDelete ring desc data => Sys2Proof.Machine.execTdmaDelete ring desc data s
  | .tdmaSearch ring desc data => Sys2Proof.Machine.execTdmaSearch ring desc data s
  | .tdmaLock ring desc => Sys2Proof.Machine.execTdmaLock ring desc s
  | .tdmaUnlock ring desc => Sys2Proof.Machine.execTdmaUnlock ring desc s
  | .tdmaUnlockDiscard ring desc => Sys2Proof.Machine.execTdmaUnlockDiscard ring desc s
  | .tdmaEpochCommit ring desc => Sys2Proof.Machine.execTdmaEpochCommit ring desc s
  | .tdmaAbort ring tags => Sys2Proof.Machine.execTdmaAbort ring tags s
  | .tdmaRingDisable ring tags => Sys2Proof.Machine.execTdmaRingDisable ring tags s
  | .rsWrite rsu bank tag => Sys2Proof.Machine.execRsWrite rsu bank tag s
  | .rsRead rsu bank tag => Sys2Proof.Machine.execRsRead rsu bank tag s
  | .rsInvalidate rsu bank tag => Sys2Proof.Machine.execRsInvalidate rsu bank tag s
  | .moveWindow rsu bank tag => Sys2Proof.Machine.execMoveWindow rsu bank tag s
  | .rsAbort rsu tag => Sys2Proof.Machine.execRsAbort rsu tag s
  | .hbmReadComplete channel result => Sys2Proof.Machine.execHbmReadComplete channel result s
  | .hbmWriteDrain channel => Sys2Proof.Machine.execHbmWriteDrain channel s
  | .hbmParityAlert channel again => Sys2Proof.Machine.execHbmParityAlert channel again s
  | .hbmRefresh channel => Sys2Proof.Machine.execHbmRefresh channel s
  | .hbmTempRead stack temp => Sys2Proof.Machine.execHbmTempRead stack temp s
  | .hbmScrub stack result superseded => Sys2Proof.Machine.execHbmScrub stack result superseded s
  | .hbmWindowAccess offset write => Sys2Proof.Machine.execHbmWindowAccess offset write s
  | .pcieLinkTrain speed lanes reversed => Sys2Proof.Machine.execPcieLinkTrain speed lanes reversed s
  | .pcieRetrain => Sys2Proof.Machine.execPcieRetrain s
  | .pcieConfigRequest fn offset enables write => Sys2Proof.Machine.execPcieConfigRequest fn offset enables write s
  | .pcieMemWrite fn bar offset words full poisoned ecrc atomic => Sys2Proof.Machine.execPcieMemWrite fn bar offset words full poisoned ecrc atomic s
  | .pcieMemRead fn bar offset count full ecrc => Sys2Proof.Machine.execPcieMemRead fn bar offset count full ecrc s
  | .pcieCompletion fn tag completer status data poisoned ecrc => Sys2Proof.Machine.execPcieCompletion fn tag completer status data poisoned ecrc s
  | .pcieCompletionTimeout fn tag => Sys2Proof.Machine.execPcieCompletionTimeout fn tag s
  | .tagQuarantineExpiry fn tag => Sys2Proof.Machine.execTagQuarantineExpiry fn tag s
  | .bmeClear fn posted => Sys2Proof.Machine.execBmeClear fn posted s
  | .flrStart fn posted => Sys2Proof.Machine.execFlrStart fn posted s
  | .flrDeadline fn tag => Sys2Proof.Machine.execFlrDeadline fn tag s
  | .flrComplete fn => Sys2Proof.Machine.execFlrComplete fn s
  | .pcieHotReset => Sys2Proof.Machine.execPcieHotReset s
  | .perst => Sys2Proof.Machine.execPerst s
  | .vfEnable numVfs => Sys2Proof.Machine.execVfEnable numVfs s
  | .vfRemove numVfs posted => Sys2Proof.Machine.execVfRemove numVfs posted s
  | .msixUnmask fn vec => Sys2Proof.Machine.execMsixUnmask fn vec s
  | .pcieL1Exit => Sys2Proof.Machine.execPcieL1Exit s
  | .txTailWrite qp index => Sys2Proof.Machine.execTxTailWrite qp index s
  | .rxTailWrite qp index => Sys2Proof.Machine.execRxTailWrite qp index s
  | .cqHeadWrite qp index => Sys2Proof.Machine.execCqHeadWrite qp index s
  | .cqArm qp => Sys2Proof.Machine.execCqArm qp s
  | .txDescriptorFetch qp descs => Sys2Proof.Machine.execTxDescriptorFetch qp descs s
  | .txFrameComplete qp => Sys2Proof.Machine.execTxFrameComplete qp s
  | .rxFramePlace descs entries logWords => Sys2Proof.Machine.execRxFramePlace descs entries logWords s
  | .cqModerationTimeout qp => Sys2Proof.Machine.execCqModerationTimeout qp s
  | .mbxSend vf => Sys2Proof.Machine.execMbxSend vf s
  | .vfMbxTake vf => Sys2Proof.Machine.execVfMbxTake vf s
  | .vfmMbxAck tag => Sys2Proof.Machine.execVfmMbxAck tag s
  | .vfmMbxReply tag => Sys2Proof.Machine.execVfmMbxReply tag s
  | .assignQp tag => Sys2Proof.Machine.execAssignQp tag s
  | .releaseQp tag => Sys2Proof.Machine.execReleaseQp tag s
  | .vfFreeze tag => Sys2Proof.Machine.execVfFreeze tag s
  | .vfFreezeComplete => Sys2Proof.Machine.execVfFreezeComplete s
  | .vfUnfreeze tag => Sys2Proof.Machine.execVfUnfreeze tag s
  | .vfSave tag => Sys2Proof.Machine.execVfSave tag s
  | .vfRestore tag image => Sys2Proof.Machine.execVfRestore tag image s
  | .logStart tag => Sys2Proof.Machine.execLogStart tag s
  | .logSwap tag logWords => Sys2Proof.Machine.execLogSwap tag logWords s
  | .logStop tag logWords => Sys2Proof.Machine.execLogStop tag logWords s
  | .vfmAbort => Sys2Proof.Machine.execVfmAbort s
  | .writeCtx tag => Sys2Proof.Machine.execWriteCtx tag s
  | .readCtx tag => Sys2Proof.Machine.execReadCtx tag s
  | .qpEnable tag => Sys2Proof.Machine.execQpEnable tag s
  | .qpDisable tag => Sys2Proof.Machine.execQpDisable tag s
  | .qpDrainComplete qp => Sys2Proof.Machine.execQpDrainComplete qp s
  | .qpAbort => Sys2Proof.Machine.execQpAbort s
  | .ipsEncrypt => Sys2Proof.Machine.execIpsEncrypt s
  | .ipsDecrypt => Sys2Proof.Machine.execIpsDecrypt s
  | .ipsSaWrite tag => Sys2Proof.Machine.execIpsSaWrite tag s
  | .ipsSaRead tag => Sys2Proof.Machine.execIpsSaRead tag s
  | .ipsSaInvalidate tag => Sys2Proof.Machine.execIpsSaInvalidate tag s
  | .ipsSaAbort => Sys2Proof.Machine.execIpsSaAbort s
  | .kwWrap kek tag len32 => Sys2Proof.Machine.execKwWrap kek tag len32 s
  | .kwUnwrap kek target msc tag len32 => Sys2Proof.Machine.execKwUnwrap kek target msc tag len32 s
  | .kwCheck kek tag len32 => Sys2Proof.Machine.execKwCheck kek tag len32 s
  | .kwLoadKek kek tag => Sys2Proof.Machine.execKwLoadKek kek tag s
  | .kwAbort => Sys2Proof.Machine.execKwAbort s
  | .nvWrite tag => Sys2Proof.Machine.execNvWrite tag s
  | .nvRead tag => Sys2Proof.Machine.execNvRead tag s
  | .nvResyncRx tag => Sys2Proof.Machine.execNvResyncRx tag s
  | .nvResyncTx tag => Sys2Proof.Machine.execNvResyncTx tag s
  | .bfdTxTimer session => Sys2Proof.Machine.execBfdTxTimer session s
  | .bfdRxPacket => Sys2Proof.Machine.execBfdRxPacket s
  | .bfdDetectTimeout session => Sys2Proof.Machine.execBfdDetectTimeout session s
  | .sessWrite cond expect tag => Sys2Proof.Machine.execSessWrite cond expect tag s
  | .sessRead tag => Sys2Proof.Machine.execSessRead tag s
  | .sessDelete tag => Sys2Proof.Machine.execSessDelete tag s
  | .tplWriteSvc tag => Sys2Proof.Machine.execTplWriteSvc tag s
  | .tplReadSvc tag => Sys2Proof.Machine.execTplReadSvc tag s
  | .evtPop byHost => Sys2Proof.Machine.execEvtPop byHost s
  | .ipfixUpdate => Sys2Proof.Machine.execIpfixUpdate s
  | .ipfixSweep => Sys2Proof.Machine.execIpfixSweep s
  | .ipfixTemplateSend => Sys2Proof.Machine.execIpfixTemplateSend s
  | .responderFrame => Sys2Proof.Machine.execResponderFrame s
  | .rspWrite tag => Sys2Proof.Machine.execRspWrite tag s
  | .rspRead tag => Sys2Proof.Machine.execRspRead tag s
  | .rspInvalidate tag => Sys2Proof.Machine.execRspInvalidate tag s
  | .ntSetNow => Sys2Proof.Machine.execNtSetNow s
  | .ntSetAtPps => Sys2Proof.Machine.execNtSetAtPps s
  | .ntSetFromTod => Sys2Proof.Machine.execNtSetFromTod s
  | .ntStep => Sys2Proof.Machine.execNtStep s
  | .ntCancel => Sys2Proof.Machine.execNtCancel s
  | .ntmValidWrite v => Sys2Proof.Machine.execNtmValidWrite v s
  | .ntNowRead who capture => Sys2Proof.Machine.execNtNowRead who capture s
  | .ppsInEdge => Sys2Proof.Machine.execPpsInEdge s
  | .ppsLoss => Sys2Proof.Machine.execPpsLoss s
  | .ppsLossInvalidate => Sys2Proof.Machine.execPpsLossInvalidate s
  | .ppsOutPulse => Sys2Proof.Machine.execPpsOutPulse s
  | .todTxMessage => Sys2Proof.Machine.execTodTxMessage s
  | .todRxMessage bytes => Sys2Proof.Machine.execTodRxMessage bytes s
  | .synceSquelch k => Sys2Proof.Machine.execSynceSquelch k s
  | .synceResume k => Sys2Proof.Machine.execSynceResume k s
  | .taqPost tag => Sys2Proof.Machine.execTaqPost tag s
  | .taqCancel index tag => Sys2Proof.Machine.execTaqCancel index tag s
  | .taqRead index tag => Sys2Proof.Machine.execTaqRead index tag s
  | .taqFire => Sys2Proof.Machine.execTaqFire s
  | .bonReportNow tag => Sys2Proof.Machine.execBonReportNow tag s
  | .bonSelectWin tag => Sys2Proof.Machine.execBonSelectWin tag s
  | .bonCfgTap tag => Sys2Proof.Machine.execBonCfgTap tag s
  | .bonCfgReport tag => Sys2Proof.Machine.execBonCfgReport tag s
  | .bonSeal tag => Sys2Proof.Machine.execBonSeal tag s
  | .bonIntervalReport => Sys2Proof.Machine.execBonIntervalReport s
  | .bonReportComplete => Sys2Proof.Machine.execBonReportComplete s
  | .bonChangeAttempt => Sys2Proof.Machine.execBonChangeAttempt s
  | .bonPowerUp storeGood => Sys2Proof.Machine.execBonPowerUp storeGood s
  | .spGrantRequest sp => Sys2Proof.Machine.execSpGrantRequest sp s
  | .spHeartbeat sp => Sys2Proof.Machine.execSpHeartbeat sp s
  | .spHeartbeatTimeout => Sys2Proof.Machine.execSpHeartbeatTimeout s
  | .spSwitchover tag => Sys2Proof.Machine.execSpSwitchover tag s
  | .spRestartStandby tag => Sys2Proof.Machine.execSpRestartStandby tag s
  | .spRestartRelease sp => Sys2Proof.Machine.execSpRestartRelease sp s
  | .spTakeoverDone sp => Sys2Proof.Machine.execSpTakeoverDone sp s
  | .spTakeoverTimeout => Sys2Proof.Machine.execSpTakeoverTimeout s
  | .spHeldRelease sp => Sys2Proof.Machine.execSpHeldRelease sp s
  | .spSyncComplete sp => Sys2Proof.Machine.execSpSyncComplete sp s
  | .spHealthPost sp => Sys2Proof.Machine.execSpHealthPost sp s
  | .spHealthStale sp => Sys2Proof.Machine.execSpHealthStale sp s
  | .gauntletStep sp passed => Sys2Proof.Machine.execGauntletStep sp passed s
  | .failsafeFan => Sys2Proof.Machine.execFailsafeFan s
  | .bootSlotSelect sp flashOk migrated => Sys2Proof.Machine.execBootSlotSelect sp flashOk migrated s
  | .fwStage slot tag io => Sys2Proof.Machine.execFwStage slot tag io s
  | .fwStageConfig tag io => Sys2Proof.Machine.execFwStageConfig tag io s
  | .fwVerify slot tag flashOk => Sys2Proof.Machine.execFwVerify slot tag flashOk s
  | .fwArm slot tag => Sys2Proof.Machine.execFwArm slot tag s
  | .fwDisarm tag => Sys2Proof.Machine.execFwDisarm tag s
  | .fwActivateNow tag => Sys2Proof.Machine.execFwActivateNow tag s
  | .fwReject tag => Sys2Proof.Machine.execFwReject tag s
  | .fwTrialTimeout => Sys2Proof.Machine.execFwTrialTimeout s
  | .fwConfirm => Sys2Proof.Machine.execFwConfirm s
  | .svnAdvance tag flashOk => Sys2Proof.Machine.execSvnAdvance tag flashOk s
  | .flashRead tag flashOk => Sys2Proof.Machine.execFlashRead tag flashOk s
  | .fwuAbort tag => Sys2Proof.Machine.execFwuAbort tag s
  | .secQuote tag => Sys2Proof.Machine.execSecQuote tag s
  | .secChallenge tag => Sys2Proof.Machine.execSecChallenge tag s
  | .secUnlock tag => Sys2Proof.Machine.execSecUnlock tag s
  | .obsFlush => Sys2Proof.Machine.execObsFlush s
  | .obsFlushComplete dmaOk => Sys2Proof.Machine.execObsFlushComplete dmaOk s
  | .bwWindowEnd => Sys2Proof.Machine.execBwWindowEnd s
  | .traceClear tag => Sys2Proof.Machine.execTraceClear tag s
  | .traceDump tag ends => Sys2Proof.Machine.execTraceDump tag ends s
  | .traceAbort tag => Sys2Proof.Machine.execTraceAbort tag s
  | .logAppend tag => Sys2Proof.Machine.execLogAppend tag s
  | .logDump tag ends => Sys2Proof.Machine.execLogDump tag ends s
  | .logAbort tag => Sys2Proof.Machine.execLogAbort tag s
  | .legGather late => Sys2Proof.Machine.execLegGather late s
  | .legAliasRead who entry => Sys2Proof.Machine.execLegAliasRead who entry s
  | .domPowerOn dom => Sys2Proof.Machine.execDomPowerOn dom s
  | .domPowerOff dom => Sys2Proof.Machine.execDomPowerOff dom s
  | .domTransitionComplete dom => Sys2Proof.Machine.execDomTransitionComplete dom s
  | .thermRead fd qd => Sys2Proof.Machine.execThermRead fd qd s
  | .hbmTripEscalate => Sys2Proof.Machine.execHbmTripEscalate s
  | .sysclkLoss => Sys2Proof.Machine.execSysclkLoss s
  | .refOutOfRange ref ppm => Sys2Proof.Machine.execRefOutOfRange ref ppm s
  | .pllLockLoss pll => Sys2Proof.Machine.execPllLockLoss pll s
  | .pllRelock pll => Sys2Proof.Machine.execPllRelock pll s
  | .powerOnReset fabmode devid => Sys2Proof.Machine.execPowerOnReset fabmode devid s
  | .pwrgoodFall => Sys2Proof.Machine.execPwrgoodFall s
  | .startupStep => Sys2Proof.Machine.execStartupStep s
  | .startupFail code => Sys2Proof.Machine.execStartupFail code s
  | .endpointRelease => Sys2Proof.Machine.execEndpointRelease s
  | .warmReset key => Sys2Proof.Machine.execWarmReset key s
  | .strapChange fabmode devid => Sys2Proof.Machine.execStrapChange fabmode devid s
  | .railFault rail => Sys2Proof.Machine.execRailFault rail s
  | .jtagTrst => Sys2Proof.Machine.execJtagTrst s
  | .portLinkStateChange slot pcs align fec hiSer rf lf => Sys2Proof.Machine.execPortLinkStateChange slot pcs align fec hiSer rf lf s
  | .laneCdrLock lane ctle snr => Sys2Proof.Machine.execLaneCdrLock lane ctle snr s
  | .prbsCheckerLock lane locked errs => Sys2Proof.Machine.execPrbsCheckerLock lane locked errs s
  | .pauseTimeExpiry slot prio => Sys2Proof.Machine.execPauseTimeExpiry slot prio s
  | .lpiRxChange slot on => Sys2Proof.Machine.execLpiRxChange slot on s
  | .aspmL1Entry => Sys2Proof.Machine.execAspmL1Entry s
  | .bonVddLoss => Sys2Proof.Machine.execBonVddLoss s
  | .sysclkRestore => Sys2Proof.Machine.execSysclkRestore s
  | .perstRelease => Sys2Proof.Machine.execPerstRelease s
  | .todOkTimeout => Sys2Proof.Machine.execTodOkTimeout s

end Sys2Proof.Machine
end

