-- ==== Sys2Proof/Safety.lean ====
section
/-! DEFINITION. Safety.lean: what counts as a safe run of the block, in the terms the statements use. -/

namespace Sys2Proof.Machine

/-- Network time within the widths of its parts (R656): 48-bit seconds, nanoseconds below one second, a 48-bit fraction. -/
abbrev NetTime.ok (t : NetTime) : Prop := t.sec < 2 ^ 48 ∧ t.ns < 1000000000 ∧ t.frac < 2 ^ 48

/-- The register table holds one entry a field element at most, in the order of its keys, so that equal register contents are equal
data. -/
abbrev State.RegsOrdered (s : State) : Prop := tsorted s.regs = true

/-- HBM memory is in its canonical form (Memory.wf). -/
abbrev State.MemCanonical (s : State) : Prop := Memory.wf s.hbm = true

/-- The three invariants together. -/
structure State.Inv (s : State) : Prop where
  regs : s.RegsOrdered
  hbm : s.MemCanonical
  nt : s.nt.ok

/-- The step neither faults nor refuses. -/
def State.Goes (s : State) : Prop := ∃ t, step s = .next t

/-- Every page of a list is switched on, so that its unit takes the commands of the spec (R27, R714). -/
abbrev State.Live (s : State) (l : List Nat) : Prop := ∀ p ∈ l, s.live p = true

/-- A register access reaches its page (R44 to R49, R826): the page is populated and its domain on; where it lies on the queueing die,
the Band has neither failed nor is it retraining; the crown page answers at the offset. -/
abbrev State.Reaches (s : State) (p off : Nat) : Prop :=
  s.live p = true ∧ (qdPage p = true → s.on pgBAND BAND.BAND_STS_FAILED = false ∧ s.on pgBAND BAND.BAND_STS_RETRAINING = false) ∧
    (p = pgCRWN → s.crownAnswers off = true)

end Sys2Proof.Machine
end

