-- ==== Sys2Proof/Certificates/Slice0/Obligations.lean ====
section
/-! DEFINITION. Certificates/Slice0/Obligations.lean: what is claimed of the block, one definition a statement. -/

open Sys2Proof Sys2Proof.Machine

/-- For every command c, queue rest and state s whose queue is c followed by rest, step s is exec c applied to s with rest as its
queue. -/
def Obligations.StepRunsFrontCommand : Prop :=
  ∀ (c : Instr) (rest : List Instr) (s : State), s.pending = c :: rest → step s = exec c { s with pending := rest }

/-- For every state s with an empty queue, step s answers a next state whose queue is empty and whose clock count is one more.
That an idle step is one 800 MHz clock is the model's choice (notes/assumptions/1.md). -/
def Obligations.IdleStepIsOneTick : Prop :=
  ∀ (s : State), s.pending = [] → ∃ t, step s = .next t ∧ t.pending = [] ∧ t.ticks = s.ticks + 1

/-- For every command c and state s, exec c s answers a next state with the same waiting commands and the same clock count, and no
free value that was drawn is drawn again (the count of drawn free values never falls). The clock count and the count of free
values are the model's own fields (notes/assumptions/1.md and 2.md). -/
def Obligations.EveryCommandGoesOn : Prop :=
  ∀ (c : Instr) (s : State), ∃ t, exec c s = .next t ∧ t.pending = s.pending ∧ t.ticks = s.ticks ∧ s.free ≤ t.free

/-- For every state whose register table is in the order of its keys with one entry a field element, and every next state of a
step from it, the register table of the next state is so too. -/
def Obligations.StepKeepsRegistersOrdered : Prop :=
  ∀ (s t : State), s.RegsOrdered → step s = .next t → t.RegsOrdered

/-- For every state whose HBM memory is in canonical form (addresses strictly rising, no entry equal to what an unlisted byte
reads as), and every next state of a step from it, the HBM memory of the next state is so too. -/
def Obligations.StepKeepsHbmCanonical : Prop :=
  ∀ (s t : State), s.MemCanonical → step s = .next t → t.MemCanonical

/-- For every state whose network time has seconds below 2^48, nanoseconds below one second and a fraction below 2^48, and every
next state of a step from it, the network time of the next state is in the same range. -/
def Obligations.StepKeepsNetworkTime : Prop :=
  ∀ (s t : State), s.nt.ok → step s = .next t → t.nt.sec < 2 ^ 48 ∧ t.nt.ns < 1000000000 ∧ t.nt.frac < 2 ^ 48

/-- The state at reset has its register table in key order, its HBM memory in canonical form and its network time in range. -/
def Obligations.InvAtReset : Prop :=
  State.reset.RegsOrdered ∧ State.reset.MemCanonical ∧ State.reset.nt.ok

/-- For a lane below 256 in a powered page: an accepted write of LANE_CTL stores its fields; LANE_ADAPT restarts adaptation; an
accepted TX_FIR write stores the taps; a lane that locks, loses lock, gains or loses checker lock, or ends training shows it in
its status registers. The pipeline, the queueing die and the host side are unchanged. Rules followed: R102, R150, R151, R113. -/
def Obligations.LaneRegisters : Prop :=
  (∀ (s : State) (lane v : Nat),
    lane < 256 →
    s.live (lnp lane) = true →
    s.laneRefused lane v = false →
    ∃ t, exec (.laneCtlWrite lane v) s = .next t ∧
      t.rd (lnp lane) LNP.LANE_CTL_RATE (lane % 16) = bits v 0 3 ∧
      t.rd (lnp lane) LNP.LANE_CTL_TX_EN (lane % 16) = bits v 3 1 ∧
      t.rd (lnp lane) LNP.LANE_CTL_RX_EN (lane % 16) = bits v 4 1 ∧
      t.toBandState = s.toBandState ∧
      t.toPipeState = s.toPipeState ∧
      t.toQdState = s.toQdState) ∧
  (∀ (s : State) (lane : Nat),
    lane < 256 →
    s.live (lnp lane) = true →
    ∃ t, exec (.laneAdapt lane) s = .next t ∧
      t.rd (lnp lane) LNP.LANE_STS_ADAPT_DONE (lane % 16) = 0 ∧
      t.toBandState = s.toBandState ∧
      t.toLineState = s.toLineState ∧
      t.toPipeState = s.toPipeState ∧
      t.toQdState = s.toQdState ∧
      t.toHostState = s.toHostState ∧
      t.toMgmtState = s.toMgmtState) ∧
  (∀ (s : State) (lane v : Nat),
    lane < 256 →
    s.live (lnp lane) = true →
    firTooBig v = false →
    ∃ t, exec (.txFirWrite lane v) s = .next t ∧
      t.rd (lnp lane) LNP.TX_FIR_PRE2 (lane % 16) = bits v 0 5 ∧
      t.rd (lnp lane) LNP.TX_FIR_PRE1 (lane % 16) = bits v 8 5 ∧
      t.rd (lnp lane) LNP.TX_FIR_MAIN (lane % 16) = bits v 16 6 ∧
      t.rd (lnp lane) LNP.TX_FIR_POST1 (lane % 16) = bits v 24 5 ∧
      t.toBandState = s.toBandState ∧
      t.toLineState = s.toLineState ∧
      t.toPipeState = s.toPipeState ∧
      t.toQdState = s.toQdState ∧
      t.toHostState = s.toHostState ∧
      t.toMgmtState = s.toMgmtState) ∧
  (∀ (s : State) (lane ctle snr : Nat),
    lane < 256 →
    s.live (lnp lane) = true →
    s.laneOn lane = true →
    s.on (lnp lane) LNP.LANE_CTL_RX_EN (lane % 16) = true →
    ∃ t, exec (.laneCdrLock lane ctle snr) s = .next t ∧
      t.rd (lnp lane) LNP.LANE_STS_SIG_DET (lane % 16) = 1 ∧
      t.rd (lnp lane) LNP.LANE_STS_ADAPT_DONE (lane % 16) = 1 ∧
      t.rd (lnp lane) LNP.LANE_STS_CDR_LOCK (lane % 16) = 1 ∧
      t.toBandState = s.toBandState ∧
      t.toPipeState = s.toPipeState ∧
      t.toQdState = s.toQdState) ∧
  (∀ (s : State) (lane : Nat),
    lane < 256 →
    s.live (lnp lane) = true →
    s.on (lnp lane) LNP.LANE_STS_CDR_LOCK (lane % 16) = true →
    ∃ t, exec (.cdrLockLoss lane) s = .next t ∧
      t.rd (lnp lane) LNP.LANE_STS_CDR_LOCK (lane % 16) = 0 ∧
      t.rd (lnp lane) LNP.LANE_STS_SIG_DET (lane % 16) = Config.freeValue s.free % 2 ∧
      t.toBandState = s.toBandState ∧
      t.toPipeState = s.toPipeState ∧
      t.toQdState = s.toQdState) ∧
  (∀ (s : State) (lane : Nat) (locked : Bool) (errs : Nat),
    lane < 256 →
    s.live (lnp lane) = true →
    s.on (lnp lane) LNP.PRBS_CTL_CHK_EN (lane % 16) = true →
    ∃ t, exec (.prbsCheckerLock lane locked errs) s = .next t ∧
      t.rd (lnp lane) LNP.PRBS_CTL_CHK_LOCK (lane % 16) = b2n locked ∧
      t.rd (lnp lane) LNP.PRBS_ERR (lane % 16) = (s.rd (lnp lane) LNP.PRBS_ERR (lane % 16) + errs) % 2 ^ LNP.PRBS_ERR.w ∧
      t.toBandState = s.toBandState ∧
      t.toLineState = s.toLineState ∧
      t.toPipeState = s.toPipeState ∧
      t.toQdState = s.toQdState ∧
      t.toHostState = s.toHostState ∧
      t.toMgmtState = s.toMgmtState) ∧
  (∀ (s : State) (lane : Nat) (ok : Bool),
    lane < 256 →
    s.live (lnp lane) = true →
    s.on (lnp lane) LNP.LANE_CTL_LT_EN (lane % 16) = true →
    ∃ t, exec (.linkTrainingDone lane ok) s = .next t ∧
      t.rd (lnp lane) LNP.LANE_STS_LT_DONE (lane % 16) = b2n ok ∧
      t.rd (lnp lane) LNP.LANE_STS_LT_FAIL (lane % 16) = b2n (!ok) ∧
      t.toBandState = s.toBandState ∧
      t.toLineState = s.toLineState ∧
      t.toPipeState = s.toPipeState ∧
      t.toQdState = s.toQdState)

/-- PORT_APPLY with MODE 00 removes the port of a slot; an accepted configuration is the one in force; a window of FEC counts sets
DEGRADE at DEG_SET; a link whose receive status is good is up; pause times end, the watchdog trips and recovers. Rules followed:
R106, R111, R112, R121, R123, R151, R152. -/
def Obligations.LinePorts : Prop :=
  (∀ (s : State) (slot v : Nat),
    slot < 256 →
    s.live (lnp slot) = true →
    s.fabric = false →
    bits v 0 2 = 0 →
    ∃ t, exec (.portApply slot v) s = .next t ∧
      (t.mac slot).mode = 0 ∧
      t.rd (lnp slot) LNP.PORT_STS_LINK_UP (slot % 16) = 0 ∧
      t.toBandState = s.toBandState ∧
      t.toPipeState = s.toPipeState ∧
      t.toQdState = s.toQdState) ∧
  (∀ (s : State) (slot v : Nat),
    slot < 256 →
    s.live (lnp slot) = true →
    s.fabric = false →
    bits v 0 2 ≠ 0 →
    s.portAccepted slot v = true →
    ∃ t, exec (.portApply slot v) s = .next t ∧
      (t.mac slot).mode = bits v 0 2 ∧
      (t.mac slot).speed = bits v 4 4 ∧
      t.rd (lnp slot) LNP.PORT_CFG_MODE (slot % 16) = bits v 0 2 ∧
      t.toBandState = s.toBandState ∧
      t.toQdState = s.toQdState) ∧
  (∀ (s : State) (slot corr uncorr syms n : Nat),
    slot < 256 →
    s.live (lnp slot) = true →
    (s.mac slot).mode ≠ 0 →
    fecLimit (s.mac slot).fec = some n →
    corr ≤ syms →
    syms ≤ n * corr →
    corr + uncorr ≤ 1024 * s.rd (lnp slot) LNP.SER_WINDOW_CW →
    s.rd (lnp slot) LNP.DEG_SET_COUNT ≤ syms →
    ∃ t, exec (.serWindowEnd slot corr uncorr syms) s = .next t ∧
      t.rd (lnp slot) LNP.PORT_STS_DEGRADE (slot % 16) = 1 ∧
      t.rd (lnp slot) LNP.FEC_UNCORR (slot % 16) = (s.rd (lnp slot) LNP.FEC_UNCORR (slot % 16) + uncorr) % 2 ^ LNP.FEC_UNCORR.w ∧
      t.toBandState = s.toBandState ∧
      t.toLineState = s.toLineState ∧
      t.toPipeState = s.toPipeState ∧
      t.toQdState = s.toQdState) ∧
  (∀ (s : State) (slot : Nat),
    slot < 256 →
    s.live (lnp slot) = true →
    (s.mac slot).mode = 1 →
    ∃ t, exec (.portLinkStateChange slot true true true false false false) s = .next t ∧
      t.rd (lnp slot) LNP.PORT_STS_LINK_UP (slot % 16) = 1 ∧
      t.rd (lnp slot) LNP.PORT_STS_HI_SER (slot % 16) = 0 ∧
      t.toBandState = s.toBandState ∧
      t.toLineState = s.toLineState ∧
      t.toPipeState = s.toPipeState ∧
      t.toQdState = s.toQdState) ∧
  (∀ (s : State) (slot prio : Nat),
    slot < 256 →
    s.live (msc slot) = true →
    bit (s.mac slot).paused prio = true →
    (s.mac slot).pauseEnd.getD prio 0 ≤ s.ticks →
    ∃ t, exec (.pauseTimeExpiry slot prio) s = .next t ∧
      (t.mac slot).paused = clrBit (s.mac slot).paused prio ∧
      t.toBandState = s.toBandState ∧
      t.toPipeState = s.toPipeState ∧
      t.toQdState = s.toQdState ∧
      t.toHostState = s.toHostState ∧
      t.toMgmtState = s.toMgmtState) ∧
  (∀ (s : State) (slot prio : Nat),
    slot < 256 →
    s.live (msc slot) = true →
    bit (s.mac slot).paused prio = true →
    s.rd (msc slot) MSC.PAUSE_WD_TIMEOUT_MS (slot % 16) ≠ 0 →
    (s.mac slot).pauseFrom.getD prio 0 + ticksMs (s.rd (msc slot) MSC.PAUSE_WD_TIMEOUT_MS (slot % 16)) ≤ s.ticks →
    ∃ t, exec (.pauseWdTrip slot prio) s = .next t ∧
      (t.mac slot).paused = clrBit (s.mac slot).paused prio ∧
      (t.mac slot).ignoring = setBit (s.mac slot).ignoring prio ∧
      t.toBandState = s.toBandState ∧
      t.toPipeState = s.toPipeState ∧
      t.toQdState = s.toQdState) ∧
  (∀ (s : State) (slot prio : Nat),
    slot < 256 →
    s.live (msc slot) = true →
    bit (s.mac slot).ignoring prio = true →
    (s.mac slot).tripAt.getD prio 0 + ticksMs (s.rd (msc slot) MSC.PAUSE_WD_RECOVER_MS (slot % 16)) ≤ s.ticks →
    ∃ t, exec (.pauseWdRecoverEnd slot prio) s = .next t ∧
      (t.mac slot).ignoring = clrBit (s.mac slot).ignoring prio ∧
      t.toBandState = s.toBandState ∧
      t.toPipeState = s.toPipeState ∧
      t.toQdState = s.toQdState ∧
      t.toHostState = s.toHostState ∧
      t.toMgmtState = s.toMgmtState)

/-- A verified port preempts; a port enters low power idle and shows that of its partner; TS_POP removes the head record; SA_CMD
writes, reads and invalidates the selected SA and ends with a result of status DONE, or ERROR for the current transmit SA. Rules
followed: R130, R134, R141, R148, R152. -/
def Obligations.LineMac : Prop :=
  (∀ (s : State) (slot : Nat) (ok : Bool),
    slot < 256 →
    s.live (msc slot) = true →
    s.on (msc slot) MSC.PREEMPT_CTL_EN (slot % 16) = true →
    s.on (msc slot) MSC.PREEMPT_CTL_VERIFY_DIS (slot % 16) = false →
    ∃ t, exec (.preemptVerify slot ok) s = .next t ∧
      t.rd (msc slot) MSC.MAC_STS_PREEMPT_ACTIVE (slot % 16) = b2n ok ∧
      t.rd (msc slot) MSC.MAC_STS_VERIFY (slot % 16) = (if ok then 2 else 3) ∧
      t.toBandState = s.toBandState ∧
      t.toLineState = s.toLineState ∧
      t.toPipeState = s.toPipeState ∧
      t.toQdState = s.toQdState) ∧
  (∀ (s : State) (slot : Nat),
    slot < 256 →
    s.live (msc slot) = true →
    s.on (msc slot) MSC.MAC_CTL_LPI_EN (slot % 16) = true →
    (s.mac slot).idle = true →
    s.on (msc slot) MSC.MAC_STS_LPI_TX (slot % 16) = false →
    (s.mac slot).idleFrom + ticksUs (s.rd (msc slot) MSC.LPI_CTL_TX_IDLE_US (slot % 16)) ≤ s.ticks →
    ∃ t, exec (.lpiEnter slot) s = .next t ∧
      t.rd (msc slot) MSC.MAC_STS_LPI_TX (slot % 16) = 1 ∧
      t.toBandState = s.toBandState ∧
      t.toLineState = s.toLineState ∧
      t.toPipeState = s.toPipeState ∧
      t.toQdState = s.toQdState ∧
      t.toHostState = s.toHostState ∧
      t.toMgmtState = s.toMgmtState) ∧
  (∀ (s : State) (slot : Nat) (on : Bool),
    slot < 256 →
    s.live (msc slot) = true →
    ∃ t, exec (.lpiRxChange slot on) s = .next t ∧
      t.rd (msc slot) MSC.MAC_STS_LPI_RX (slot % 16) = b2n on ∧
      t.toBandState = s.toBandState ∧
      t.toLineState = s.toLineState ∧
      t.toPipeState = s.toPipeState ∧
      t.toQdState = s.toQdState ∧
      t.toHostState = s.toHostState ∧
      t.toMgmtState = s.toMgmtState) ∧
  (∀ (s : State) (i : Nat),
    i < 16 →
    s.live (pgMSC i) = true →
    ∃ t, exec (.tsPop i) s = .next t ∧
      tgetD t.tsFifo i [] = (tgetD s.tsFifo i []).drop 1 ∧
      t.toBandState = s.toBandState ∧
      t.toPipeState = s.toPipeState ∧
      t.toQdState = s.toQdState ∧
      t.toHostState = s.toHostState ∧
      t.toMgmtState = s.toMgmtState) ∧
  (∀ (s : State) (i tag : Nat),
    i < 16 →
    s.live (pgMSC i) = true →
    s.saCurrent i = false →
    ∃ t, exec (.mscSaWrite i tag) s = .next t ∧
      t.rd (pgMSC i) MSC.SA_RES.status = DONE ∧
      t.rd (pgMSC i) MSC.SA_RES.tag = tag % 256 ∧
      (t.sa i (s.saSel i).1 (s.saSel i).2).inUse = s.on (pgMSC i) MSC.SA_CFG_IN_USE ∧
      t.toBandState = s.toBandState ∧
      t.toPipeState = s.toPipeState ∧
      t.toQdState = s.toQdState ∧
      t.toHostState = s.toHostState ∧
      t.toMgmtState = s.toMgmtState) ∧
  (∀ (s : State) (i tag : Nat),
    i < 16 →
    s.live (pgMSC i) = true →
    s.saCurrent i = true →
    ∃ t, exec (.mscSaWrite i tag) s = .next t ∧
      t.rd (pgMSC i) MSC.SA_RES.status = ERROR ∧
      t.rd (pgMSC i) MSC.SA_RES.tag = tag % 256 ∧
      t.toBandState = s.toBandState ∧
      t.toLineState = s.toLineState ∧
      t.toPipeState = s.toPipeState ∧
      t.toQdState = s.toQdState ∧
      t.toHostState = s.toHostState ∧
      t.toMgmtState = s.toMgmtState) ∧
  (∀ (s : State) (i tag : Nat),
    i < 16 →
    s.live (pgMSC i) = true →
    ∃ t, exec (.mscSaRead i tag) s = .next t ∧
      t.rd (pgMSC i) MSC.SA_RES.status = DONE ∧
      t.rd (pgMSC i) MSC.SA_RES.tag = tag % 256 ∧
      t.rd (pgMSC i) MSC.SA_RES.valid = 1 ∧
      t.toBandState = s.toBandState ∧
      t.toLineState = s.toLineState ∧
      t.toPipeState = s.toPipeState ∧
      t.toQdState = s.toQdState ∧
      t.toHostState = s.toHostState ∧
      t.toMgmtState = s.toMgmtState) ∧
  (∀ (s : State) (i tag : Nat),
    i < 16 →
    s.live (pgMSC i) = true →
    ∃ t, exec (.mscSaInvalidate i tag) s = .next t ∧
      t.rd (pgMSC i) MSC.SA_RES.status = DONE ∧
      (t.sa i (s.saSel i).1 (s.saSel i).2).inUse = false ∧
      t.toBandState = s.toBandState ∧
      t.toPipeState = s.toPipeState ∧
      t.toQdState = s.toQdState ∧
      t.toHostState = s.toHostState ∧
      t.toMgmtState = s.toMgmtState)

/-- Where a register access reaches its page: a write of PAGE_SCRATCH stores the word and a write of INT_CAUSE clears the bits
written as 1, on every page but the Bonnet page for the first; the read of SUPPRESSED_COUNT answers its value and clears it; the
read of the LO word of TAQ_CNT 0 loads the HI word into the holding register of its requester; the read of RES_STS of the TAQ
result set at its alias clears VALID. Rules followed: R7, R8, R57, R63. -/
def Obligations.RegisterAccesses : Prop :=
  (∀ (s : State) (who page v : Nat),
    who < 3 →
    page < 1024 →
    page ≠ pgBON →
    s.Reaches page 0xC →
    s.spBarred who page 0xC = false →
    ∃ t, exec (.registerWrite who page 0xC v true) s = .next t ∧
      t.rd page COMMON.PAGE_SCRATCH_SCRATCH = v % 2 ^ 32 ∧
      t.toBandState = s.toBandState ∧
      t.toLineState = s.toLineState ∧
      t.toPipeState = s.toPipeState ∧
      t.toQdState = s.toQdState ∧
      t.toHostState = s.toHostState ∧
      t.toMgmtState = s.toMgmtState) ∧
  (∀ (s : State) (who page v : Nat),
    who < 3 →
    page < 1024 →
    s.Reaches page 0x20 →
    s.spBarred who page 0x20 = false →
    ∃ t, exec (.registerWrite who page 0x20 v true) s = .next t ∧
      t.rd page COMMON.INT_CAUSE_CAUSE = andNot (s.rd page COMMON.INT_CAUSE_CAUSE) (v % 2 ^ 16) % 2 ^ 16 ∧
      t.toBandState = s.toBandState ∧
      t.toLineState = s.toLineState ∧
      t.toPipeState = s.toPipeState ∧
      t.toQdState = s.toQdState ∧
      t.toHostState = s.toHostState ∧
      t.toMgmtState = s.toMgmtState) ∧
  (∀ (s : State) (who : Nat),
    who < 3 →
    s.Reaches pgLOG 0x110 →
    ∃ t, exec (.rcFieldRead who pgLOG 0x110 true) s = .next t ∧
      t.rd pgLOG LOG.SUPPRESSED_COUNT = 0 ∧
      t.out = .readData who pgLOG 0x110 (s.rd pgLOG LOG.SUPPRESSED_COUNT % 2 ^ 32) :: s.out ∧
      t.toBandState = s.toBandState ∧
      t.toLineState = s.toLineState ∧
      t.toPipeState = s.toPipeState ∧
      t.toQdState = s.toQdState ∧
      t.toHostState = s.toHostState ∧
      t.toMgmtState = s.toMgmtState) ∧
  (∀ (s : State) (who : Nat),
    who < 3 →
    s.Reaches pgTAQ 0x200 →
    ∃ t, exec (.counterLoRead who pgTAQ 0x200) s = .next t ∧
      tgetD t.hold ((if who = 0 then 0 else 1) * 4096 + pgTAQ) 0 = s.rd pgTAQ TAQ.TAQ_CNT 0 / 2 ^ 32 ∧
      t.out = .readData who pgTAQ 0x200 (s.rd pgTAQ TAQ.TAQ_CNT 0 % 2 ^ 32) :: s.out ∧
      t.toBandState = s.toBandState ∧
      t.toLineState = s.toLineState ∧
      t.toPipeState = s.toPipeState ∧
      t.toQdState = s.toQdState ∧
      t.toHostState = s.toHostState ∧
      t.toMgmtState = s.toMgmtState) ∧
  (∀ (s : State) (who : Nat),
    who < 3 →
    s.Reaches pgTAQ 0x980 →
    ∃ t, exec (.resultAliasRead who pgTAQ 0x180) s = .next t ∧
      t.rd pgTAQ TAQ.TAQ_RES.valid = 0 ∧
      t.rd pgTAQ TAQ.TAQ_RES.status = s.rd pgTAQ TAQ.TAQ_RES.status ∧
      t.toBandState = s.toBandState ∧
      t.toLineState = s.toLineState ∧
      t.toPipeState = s.toPipeState ∧
      t.toQdState = s.toQdState ∧
      t.toHostState = s.toHostState ∧
      t.toMgmtState = s.toMgmtState)

/-- While the crown domain is on: a malformed service-processor access sets crown cause 4, a timed-out access sets crown cause 3,
and each read of these answers all ones. Nothing else but side registers changes. Rules followed: R44, R46. -/
def Obligations.AccessErrors : Prop :=
  (∀ (s : State) (who page off : Nat) (write : Bool),
    who < 3 →
    s.live pgCRWN = true →
    ∃ t, exec (.malformedSpAccess who page off write) s = .next t ∧
      bit (t.rd pgCRWN COMMON.INT_CAUSE_CAUSE) 4 = true ∧
      ((write = false → t.out.head? = some (.readData who page off 0xFFFFFFFF))) ∧
      t.toHostState = { s.toHostState with fns := t.fns } ∧
      t.toMgmtState = { s.toMgmtState with shadowDue := t.shadowDue } ∧
      t.toBandState = s.toBandState ∧
      t.toLineState = s.toLineState ∧
      t.toPipeState = s.toPipeState ∧
      t.toQdState = s.toQdState ∧
      t.nt = s.nt) ∧
  (∀ (s : State) (who page off : Nat) (write : Bool),
    who < 3 →
    s.live pgCRWN = true →
    ∃ t, exec (.registerAccessTimeout who page off write) s = .next t ∧
      bit (t.rd pgCRWN COMMON.INT_CAUSE_CAUSE) 3 = true ∧
      ((write = false → t.out.head? = some (.readData who page off 0xFFFFFFFF))) ∧
      t.toHostState = { s.toHostState with fns := t.fns } ∧
      t.toMgmtState = { s.toMgmtState with shadowDue := t.shadowDue } ∧
      t.toBandState = s.toBandState ∧
      t.toLineState = s.toLineState ∧
      t.toPipeState = s.toPipeState ∧
      t.toQdState = s.toQdState ∧
      t.nt = s.nt)

/-- While the crown domain is on, for every page index that no populated page has and every requester: a read answers 0; a write
is discarded, leaving every part of the state as it was; both are counted in UNMAP_CNT and set crown cause 0. -/
def Obligations.UnpopulatedPages : Prop :=
  (∀ (s : State) (who page off : Nat),
    who < 3 →
    page < 1024 →
    pageAt page = none →
    s.live pgCRWN = true →
    ∃ t, exec (.unmappedPageAccess who page off false) s = .next t ∧
      bit (t.rd pgCRWN COMMON.INT_CAUSE_CAUSE) 0 = true ∧
      t.rd pgCRWN CRWN.UNMAP_CNT_COUNT = (s.rd pgCRWN CRWN.UNMAP_CNT_COUNT + 1) % 2 ^ CRWN.UNMAP_CNT_COUNT.w ∧
      t.out.head? = some (.readData who page off 0) ∧
      t.toHostState = { s.toHostState with fns := t.fns } ∧
      t.toMgmtState = { s.toMgmtState with shadowDue := t.shadowDue } ∧
      t.toBandState = s.toBandState ∧
      t.toLineState = s.toLineState ∧
      t.toPipeState = s.toPipeState ∧
      t.toQdState = s.toQdState ∧
      t.nt = s.nt) ∧
  (∀ (s : State) (who page off : Nat),
    who < 3 →
    page < 1024 →
    pageAt page = none →
    s.live pgCRWN = true →
    s.spBarred who page off = false →
    ∃ t, exec (.unmappedPageAccess who page off true) s = .next t ∧
      bit (t.rd pgCRWN COMMON.INT_CAUSE_CAUSE) 0 = true ∧
      t.rd pgCRWN CRWN.UNMAP_CNT_COUNT = (s.rd pgCRWN CRWN.UNMAP_CNT_COUNT + 1) % 2 ^ CRWN.UNMAP_CNT_COUNT.w ∧
      t.toHostState = { s.toHostState with fns := t.fns } ∧
      t.toMgmtState = { s.toMgmtState with shadowDue := t.shadowDue } ∧
      t.toBandState = s.toBandState ∧
      t.toLineState = s.toLineState ∧
      t.toPipeState = s.toPipeState ∧
      t.toQdState = s.toQdState ∧
      t.nt = s.nt)

/-- Where the write reaches its page: INT_FORCE sets every cause whose bit is 1; INT_REARM sends the vector again while an
unmasked routed cause holds it and function 1 delivers it; CNT_CTL.CLEAR_ALL clears the native counters; a soft reset of the LOG
page clears its counters and sets SOFT_RESET and BUSY, and completion clears both. Rules followed: R52, R59, R70, R864. -/
def Obligations.CommonRegisters : Prop :=
  (∀ (s : State) (who page v : Nat),
    who < 3 →
    page < 1024 →
    s.Reaches page 0x28 →
    s.spBarred who page 0x28 = false →
    ∃ t, exec (.intForceWrite who page v) s = .next t ∧
      (∀ n < 16, bit v n = true → bit (t.rd page COMMON.INT_CAUSE_CAUSE) n = true) ∧
      t.toBandState = s.toBandState ∧
      t.toLineState = s.toLineState ∧
      t.toPipeState = s.toPipeState ∧
      t.toQdState = s.toQdState ∧
      t.nt = s.nt) ∧
  (∀ (s : State) (who v p : Nat),
    who < 3 →
    s.Reaches pgCRWN 0x14C →
    s.spBarred who pgCRWN 0x14C = false →
    s.on pgCRWN CRWN.INT_GCTL_HOST_EN = true →
    p ∈ pages →
    s.live p = true →
    s.summary p = true →
    s.hostRoute p = true →
    s.vecOf p = bits v 0 6 →
    (s.fnS 1).delivers (bits v 0 6) = true →
    ∃ t, exec (.intRearm who v) s = .next t ∧
      t.out = .msix 1 (bits v 0 6) :: s.out ∧
      t.toBandState = s.toBandState ∧
      t.toLineState = s.toLineState ∧
      t.toPipeState = s.toPipeState ∧
      t.toQdState = s.toQdState ∧
      t.toHostState = s.toHostState ∧
      t.toMgmtState = s.toMgmtState ∧
      t.nt = s.nt) ∧
  (∀ (s : State) (who page : Nat),
    who < 3 →
    page < 1024 →
    page ≠ pgBON →
    s.Reaches page 0xF0 →
    s.spBarred who page 0xF0 = false →
    ∃ t, exec (.cntClearAll who page) s = .next t ∧
      t.rd page COMMON.CYC_CNT = 0 ∧
      (∀ n < 8, t.rd page COMMON.PMC n = 0) ∧
      t.toBandState = s.toBandState ∧
      t.toLineState = s.toLineState ∧
      t.toPipeState = s.toPipeState ∧
      t.toQdState = s.toQdState ∧
      t.toHostState = s.toHostState ∧
      t.toMgmtState = s.toMgmtState ∧
      t.nt = s.nt) ∧
  (∀ (s : State) (who : Nat),
    who < 3 →
    s.Reaches pgLOG 0x10 →
    s.spBarred who pgLOG 0x10 = false →
    s.on pgLOG COMMON.PAGE_CTL_SOFT_RESET = false →
    ∃ t, exec (.softReset who pgLOG) s = .next t ∧
      t.rd pgLOG COMMON.PAGE_CTL_SOFT_RESET = 1 ∧
      t.rd pgLOG COMMON.PAGE_STS_BUSY = 1 ∧
      (∀ n < 5, t.rd pgLOG LOG.LOG_CNT n = 0) ∧
      t.log = s.log ∧
      t.logRun = none ∧
      t.toBandState = s.toBandState ∧
      t.toLineState = s.toLineState ∧
      t.toPipeState = s.toPipeState ∧
      t.toQdState = s.toQdState ∧
      t.toHostState = s.toHostState ∧
      t.nt = s.nt) ∧
  (∀ (s : State) (page : Nat),
    page < 1024 →
    s.live page = true →
    ∃ t, exec (.softResetComplete page) s = .next t ∧
      t.rd page COMMON.PAGE_CTL_SOFT_RESET = 0 ∧
      t.rd page COMMON.PAGE_STS_BUSY = 0 ∧
      t.toBandState = s.toBandState ∧
      t.toLineState = s.toLineState ∧
      t.toPipeState = s.toPipeState ∧
      t.toQdState = s.toQdState ∧
      t.toHostState = s.toHostState ∧
      t.toMgmtState = s.toMgmtState ∧
      t.nt = s.nt)

/-- A local strobe latches the words of a live page into its shadow with the current STROBE_SEQ and VALID; a strobe request from
software or an edge of SNAP_IN while enabled, with no strobe before, advances STROBE_SEQ by one and notes the time; GFREEZE stores
FREEZE_ALL. Rules followed: R769, R771, R776, R768. -/
def Obligations.CommonStrobe : Prop :=
  (∀ (s : State) (page : Nat),
    (pageAt page).isSome = true →
    s.Reaches page 0x40 →
    s.on page COMMON.PAGE_CTL_SNAP_EN = true →
    s.on page COMMON.SNAP_CTL_HOLD = false →
    ∃ t, exec (.localStrobe page) s = .next t ∧
      t.rd page COMMON.SNAP_SEQ_VALID = 1 ∧
      t.rd page COMMON.SNAP_SEQ_SEQ = s.rd pgCRWN CRWN.STROBE_SEQ_SEQ % 2 ^ 16 ∧
      tget t.shadow page = some ((snapOffsets.map fun o => (o, s.pageWord page o)).filter fun e => e.2 ≠ 0) ∧
      t.toBandState = s.toBandState ∧
      t.toLineState = s.toLineState ∧
      t.toPipeState = s.toPipeState ∧
      t.toQdState = s.toQdState ∧
      t.toHostState = s.toHostState ∧
      t.toMgmtState = s.toMgmtState ∧
      t.nt = s.nt) ∧
  (∀ (s : State),
    s.crownUp = true →
    s.strobeAt = none →
    ∃ t, exec (.strobeFire) s = .next t ∧
      t.rd pgCRWN CRWN.STROBE_SEQ_SEQ = (s.rd pgCRWN CRWN.STROBE_SEQ_SEQ + 1) % 65536 ∧
      t.strobeAt = some s.ticks ∧
      t.toHostState = { s.toHostState with fns := t.fns } ∧
      t.toMgmtState = { s.toMgmtState with shadowDue := t.shadowDue } ∧
      t.toBandState = s.toBandState ∧
      t.toLineState = s.toLineState ∧
      t.toPipeState = s.toPipeState ∧
      t.toQdState = s.toQdState ∧
      t.nt = s.nt) ∧
  (∀ (s : State),
    s.crownUp = true →
    s.on pgCRWN CRWN.STROBE_CTL_PIN_EN = true →
    s.strobeAt = none →
    ∃ t, exec (.snapInEdge) s = .next t ∧
      t.rd pgCRWN CRWN.STROBE_SEQ_SEQ = (s.rd pgCRWN CRWN.STROBE_SEQ_SEQ + 1) % 65536 ∧
      t.strobeAt = some s.ticks ∧
      t.toHostState = { s.toHostState with fns := t.fns } ∧
      t.toMgmtState = { s.toMgmtState with shadowDue := t.shadowDue } ∧
      t.toBandState = s.toBandState ∧
      t.toLineState = s.toLineState ∧
      t.toPipeState = s.toPipeState ∧
      t.toQdState = s.toQdState ∧
      t.nt = s.nt) ∧
  (∀ (s : State) (v : Bool),
    s.crownUp = true →
    ∃ t, exec (.gfreezeWrite v) s = .next t ∧
      t.rd pgCRWN CRWN.GFREEZE_FREEZE_ALL = b2n v ∧
      t.toBandState = s.toBandState ∧
      t.toLineState = s.toLineState ∧
      t.toPipeState = s.toPipeState ∧
      t.toQdState = s.toQdState ∧
      t.toHostState = s.toHostState ∧
      t.toMgmtState = s.toMgmtState ∧
      t.nt = s.nt)

/-- On a trained Band: a direction whose VC0 waits under strict priority sends a data flit of up to 122 of its bytes with the next
sequence number and retains it, and with 2,048 flits retained sends an idle flit; a good data flit with the expected number is
delivered; a CRC mismatch of a direction not replaying is counted, sets cause 0 and asks for a replay from the expected number; a
replay request for a retained number resends every flit from it. Rules followed: R16, R17, R18. -/
def Obligations.BandFlits : Prop :=
  (∀ (s : State) (toQd : Bool) (waiting : List BandMsg) (p : List Byte),
    s.bandLive = true →
    (s.bandDir toQd).retained.length < 2048 →
    s.on pgBAND BAND.BAND_CTL_VC0_STRICT = true →
    ((s.bandDir toQd).accept waiting).stream[0]? = some p →
    p ≠ [] →
    ∃ t, exec (.bandFlitSend toQd waiting) s = .next t ∧
      (t.bandDir toQd).next = ((s.bandDir toQd).next + 1) % 4096 ∧
      (t.bandDir toQd).stream = lset ((s.bandDir toQd).accept waiting).stream 0 (p.drop 122) ∧
      (t.bandDir toQd).retained = (s.bandDir toQd).retained ++ [{ vc := 0, kind := kDATA, seq := (s.bandDir toQd).next, ack := (s.bandDir (!toQd)).lastGood, payload := p.take 122 }] ∧
      t.out = .bandFlit toQd (Flit.encode { vc := 0, kind := kDATA, seq := (s.bandDir toQd).next, ack := (s.bandDir (!toQd)).lastGood, payload := p.take 122 }) :: s.out ∧
      t.regs = s.regs ∧
      t.toLineState = s.toLineState ∧
      t.toPipeState = s.toPipeState ∧
      t.toQdState = s.toQdState ∧
      t.toHostState = s.toHostState ∧
      t.toMgmtState = s.toMgmtState ∧
      t.nt = s.nt) ∧
  (∀ (s : State) (toQd : Bool) (waiting : List BandMsg),
    s.bandLive = true →
    2048 ≤ (s.bandDir toQd).retained.length →
    ∃ t, exec (.bandFlitSend toQd waiting) s = .next t ∧
      t.out = .bandFlit toQd (Flit.encode { vc := 4, kind := kIDLE, seq := (s.bandDir toQd).next, ack := (s.bandDir (!toQd)).lastGood, payload := [] }) :: s.out ∧
      t.bandDir toQd = (s.bandDir toQd).accept waiting ∧
      t.bandDir (!toQd) = s.bandDir (!toQd) ∧
      t.regs = s.regs ∧
      t.toLineState = s.toLineState ∧
      t.toPipeState = s.toPipeState ∧
      t.toQdState = s.toQdState ∧
      t.toHostState = s.toHostState ∧
      t.toMgmtState = s.toMgmtState ∧
      t.nt = s.nt) ∧
  (∀ (s : State) (toQd : Bool) (flit : List Byte),
    s.bandLive = true →
    flitGood flit = true →
    (decodeFlit flit).kind = kDATA →
    (decodeFlit flit).seq = (s.bandDir toQd).expect →
    ∃ t, exec (.bandFlitReceive toQd flit) s = .next t ∧
      t.out = .bandPayload toQd (decodeFlit flit).vc (decodeFlit flit).payload :: s.out ∧
      (t.bandDir toQd).expect = ((s.bandDir toQd).expect + 1) % 4096 ∧
      t.bandDir (!toQd) = (s.bandDir (!toQd)).acked (decodeFlit flit).ack ∧
      t.regs = s.regs ∧
      t.toLineState = s.toLineState ∧
      t.toPipeState = s.toPipeState ∧
      t.toQdState = s.toQdState ∧
      t.toHostState = s.toHostState ∧
      t.toMgmtState = s.toMgmtState ∧
      t.nt = s.nt) ∧
  (∀ (s : State) (toQd : Bool),
    s.bandLive = true →
    (s.bandDir toQd).replaying = false →
    ∃ t, exec (.bandCrcMismatch toQd) s = .next t ∧
      (t.bandDir toQd).replaying = true ∧
      bit (t.rd pgBAND COMMON.INT_CAUSE_CAUSE) 0 = true ∧
      t.rd pgBAND (if toQd then BAND.CRC_ERR_FQ else BAND.CRC_ERR_QF) = (s.rd pgBAND (if toQd then BAND.CRC_ERR_FQ else BAND.CRC_ERR_QF) + 1) % 2 ^ 64 ∧
      t.out.head? = some (.bandFlit (!toQd) (Flit.encode { vc := 4, kind := kREPLAY, seq := (s.bandDir toQd).expect, ack := (t.bandDir toQd).lastGood, payload := [] })) ∧
      t.toLineState = s.toLineState ∧
      t.toPipeState = s.toPipeState ∧
      t.toQdState = s.toQdState ∧
      t.nt = s.nt) ∧
  (∀ (s : State) (toQd : Bool) (seq k : Nat),
    s.bandLive = true →
    ((s.bandDir toQd).retained.findIdx? fun f => decide (f.seq = seq % 4096)) = some k →
    ∃ t, exec (.bandReplayRequest toQd seq) s = .next t ∧
      (t.bandDir toQd).resent = true ∧
      t.out = (((s.bandDir toQd).retained.drop k).map fun f => Out.bandFlit toQd f.encode).reverse ++ s.out ∧
      t.rd pgBAND BAND.REPLAY_CNT = (s.rd pgBAND BAND.REPLAY_CNT + 1) % 2 ^ BAND.REPLAY_CNT.w ∧
      t.toLineState = s.toLineState ∧
      t.toPipeState = s.toPipeState ∧
      t.toQdState = s.toQdState ∧
      t.toHostState = s.toHostState ∧
      t.toMgmtState = s.toMgmtState ∧
      t.nt = s.nt)

/-- A retrain, by command or at the retry limit of failed replays, shows RETRAINING and takes UP away; success shows UP, clears
FAILED and sets cause 1; failure shows FAILED and sets cause 2 and no access waits any more. Rules followed: R19, R23, R47. -/
def Obligations.BandRetraining : Prop :=
  (∀ (s : State),
    s.live pgBAND = true →
    ∃ t, exec (.bandRetrain) s = .next t ∧
      t.rd pgBAND BAND.BAND_STS_UP = 0 ∧
      t.rd pgBAND BAND.BAND_STS_RETRAINING = 1 ∧
      t.toBandState = s.toBandState ∧
      t.toLineState = s.toLineState ∧
      t.toPipeState = s.toPipeState ∧
      t.toQdState = s.toQdState ∧
      t.toHostState = s.toHostState ∧
      t.toMgmtState = s.toMgmtState ∧
      t.nt = s.nt) ∧
  (∀ (s : State) (toQd : Bool),
    s.bandLive = true →
    (s.bandDir toQd).replaying = true →
    s.bandLimit ≤ (s.bandDir toQd).fails →
    ∃ t, exec (.bandRetryLimit toQd) s = .next t ∧
      t.rd pgBAND BAND.BAND_STS_UP = 0 ∧
      t.rd pgBAND BAND.BAND_STS_RETRAINING = 1 ∧
      t.toBandState = s.toBandState ∧
      t.toLineState = s.toLineState ∧
      t.toPipeState = s.toPipeState ∧
      t.toQdState = s.toQdState ∧
      t.toHostState = s.toHostState ∧
      t.toMgmtState = s.toMgmtState ∧
      t.nt = s.nt) ∧
  (∀ (s : State),
    s.live pgBAND = true →
    s.on pgBAND BAND.BAND_STS_RETRAINING = true →
    s.bandWait = [] →
    ∃ t, exec (.bandRetrainDone) s = .next t ∧
      t.rd pgBAND BAND.BAND_STS_UP = 1 ∧
      t.rd pgBAND BAND.BAND_STS_RETRAINING = 0 ∧
      t.rd pgBAND BAND.BAND_STS_FAILED = 0 ∧
      bit (t.rd pgBAND COMMON.INT_CAUSE_CAUSE) 1 = true ∧
      t.toLineState = s.toLineState ∧
      t.toPipeState = s.toPipeState ∧
      t.toQdState = s.toQdState ∧
      t.nt = s.nt) ∧
  (∀ (s : State),
    s.live pgBAND = true →
    s.on pgBAND BAND.BAND_STS_RETRAINING = true →
    ∃ t, exec (.bandRetrainFail) s = .next t ∧
      t.rd pgBAND BAND.BAND_STS_UP = 0 ∧
      t.rd pgBAND BAND.BAND_STS_FAILED = 1 ∧
      t.bandWait = [] ∧
      bit (t.rd pgBAND COMMON.INT_CAUSE_CAUSE) 2 = true ∧
      t.toLineState = s.toLineState ∧
      t.toPipeState = s.toPipeState ∧
      t.toQdState = s.toQdState ∧
      t.nt = s.nt)

/-- An accepted power-up of a domain that is off begins its transition (at once unless a SerDes power-up runs) with DOM_CTL and
BUSY at 1; an accepted power-down of a domain that is on begins its transition with BUSY at 1, and for the line SerDes groups
POWERED falls and DOM_CTL reads 0 at once; a transition down ends with BUSY at 0, and that of a fabric SerDes group up ends with
POWERED at 1. Rules followed: R806, R811. -/
def Obligations.PowerDomains : Prop :=
  (∀ (s : State) (dom : Nat),
    dom ≠ 0 →
    dom ≠ 21 →
    dom < 24 →
    s.warming = false →
    tget s.domTrans dom = none →
    s.serdesWait.contains dom = false →
    s.domRefused dom true = false →
    s.domOn dom = false →
    (isSerdesDom dom && s.serdesBusy) = false →
    ∃ t, exec (.domPowerOn dom) s = .next t ∧
      tget t.domTrans dom = some true ∧
      t.rd pgPWR PWR.DOM_CTL_ON dom = 1 ∧
      t.rd pgPWR PWR.DOM_STS_BUSY dom = 1 ∧
      t.toBandState = s.toBandState ∧
      t.toLineState = s.toLineState ∧
      t.toPipeState = s.toPipeState ∧
      t.toQdState = s.toQdState ∧
      t.toHostState = s.toHostState ∧
      t.nt = s.nt) ∧
  (∀ (s : State) (dom : Nat),
    dom ≠ 0 →
    dom ≠ 21 →
    dom < 24 →
    s.warming = false →
    tget s.domTrans dom = none →
    s.serdesWait.contains dom = false →
    s.domRefused dom false = false →
    s.domOn dom = true →
    ∃ t, exec (.domPowerOff dom) s = .next t ∧
      tget t.domTrans dom = some false ∧
      t.rd pgPWR PWR.DOM_STS_BUSY dom = 1) ∧
  (∀ (s : State) (dom : Nat),
    3 ≤ dom →
    dom ≤ 10 →
    s.warming = false →
    tget s.domTrans dom = none →
    s.serdesWait.contains dom = false →
    s.domRefused dom false = false →
    s.domOn dom = true →
    ∃ t, exec (.domPowerOff dom) s = .next t ∧
      t.domOn dom = false) ∧
  (∀ (s : State) (dom : Nat),
    tget s.domTrans dom = some false →
    tget s.domHeld dom = none →
    s.serdesWait = [] →
    ∃ t, exec (.domTransitionComplete dom) s = .next t ∧
      tget t.domTrans dom = none ∧
      t.rd pgPWR PWR.DOM_STS_BUSY dom = 0 ∧
      t.toBandState = s.toBandState ∧
      t.toLineState = s.toLineState ∧
      t.toPipeState = s.toPipeState ∧
      t.toQdState = s.toQdState ∧
      t.toHostState = s.toHostState ∧
      t.nt = s.nt) ∧
  (∀ (s : State) (dom : Nat),
    11 ≤ dom →
    dom ≤ 18 →
    tget s.domTrans dom = some true →
    tget s.domHeld dom = none →
    s.serdesWait = [] →
    ∃ t, exec (.domTransitionComplete dom) s = .next t ∧
      tget t.domTrans dom = none ∧
      t.domOn dom = true ∧
      t.rd pgPWR PWR.DOM_STS_BUSY dom = 0)

/-- A temperature reading below the trip point is shown; an HBM reading below 105 is shown with TRIP at 0; the escalation of an
HBM trip sets TRIPPED; loss and return of SYSCLK, a reference measurement, loss and return of a PLL lock and a rail fault show in
their status bits, each with the cause the rules give where the page is on. Rules followed: R514, R813, R819, R820, R831, R832,
R837. -/
def Obligations.TemperatureAndClocks : Prop :=
  (∀ (s : State) (fd qd : Nat),
    s.pwrgood = true →
    max (fd % 256) (qd % 256) < s.rd pgPWR PWR.THERM_CFG_TJ_TRIP →
    ∃ t, exec (.thermRead fd qd) s = .next t ∧
      t.rd pgPWR PWR.TEMP_FD_C = fd % 256 ∧
      t.rd pgPWR PWR.TEMP_QD_C = qd % 256 ∧
      t.toBandState = s.toBandState ∧
      t.toLineState = s.toLineState ∧
      t.toPipeState = s.toPipeState ∧
      t.toQdState = s.toQdState ∧
      t.nt = s.nt) ∧
  (∀ (s : State) (stack temp : Nat),
    stack < 4 →
    s.live (pgHBC stack) = true →
    temp < 105 →
    ∃ t, exec (.hbmTempRead stack temp) s = .next t ∧
      t.rd (pgHBC stack) HBC.STACK_STS_TEMP_C = temp % 2 ^ HBC.STACK_STS_TEMP_C.w ∧
      t.rd (pgHBC stack) HBC.STACK_STS_TRIP = 0 ∧
      t.toBandState = s.toBandState ∧
      t.toLineState = s.toLineState ∧
      t.toPipeState = s.toPipeState ∧
      t.nt = s.nt) ∧
  (∀ (s : State),
    s.active.isSome = true →
    s.on pgSPA SPA.IL_STS_SWITCHING = false →
    s.on pgPWR PWR.THERM_STS_TRIPPED = false →
    (s.hbmTripAt.any fun e => decide (e.2 + ticksMs 30000 ≤ s.ticks)) = true →
    ∃ t, exec (.hbmTripEscalate) s = .next t ∧
      t.rd pgPWR PWR.THERM_STS_TRIPPED = 1) ∧
  (∀ (s : State),
    s.on pgCLK CLK.REF_STS_SYSCLK_OK = true →
    s.live pgCLK = true →
    ∃ t, exec (.sysclkLoss) s = .next t ∧
      t.rd pgCLK CLK.REF_STS_SYSCLK_OK = 0 ∧
      bit (t.rd pgCLK COMMON.INT_CAUSE_CAUSE) 1 = true ∧
      t.toBandState = s.toBandState ∧
      t.toLineState = s.toLineState ∧
      t.toPipeState = s.toPipeState ∧
      t.toQdState = s.toQdState ∧
      t.nt = s.nt) ∧
  (∀ (s : State),
    1 ≤ s.rd pgRST RST.START_STS_STEP →
    ∃ t, exec (.sysclkRestore) s = .next t ∧
      t.rd pgCLK CLK.REF_STS_SYSCLK_OK = 1 ∧
      t.toBandState = s.toBandState ∧
      t.toLineState = s.toLineState ∧
      t.toPipeState = s.toPipeState ∧
      t.toQdState = s.toQdState ∧
      t.nt = s.nt ∧
      t.toHostState = s.toHostState ∧
      t.toMgmtState = s.toMgmtState) ∧
  (∀ (s : State) (ref ppm : Nat),
    ref < 3 →
    ∃ t, exec (.refOutOfRange ref ppm) s = .next t ∧
      t.rd pgCLK CLK.REF_PPM_PPM ref = ppm % 2 ^ 16 ∧
      t.rd pgCLK (refOk ref) = b2n (decide ((signedOf 16 ppm).natAbs ≤ 10 * s.rd pgCLK CLK.REF_CFG_PPM_LIMIT)) ∧
      t.toBandState = s.toBandState ∧
      t.toLineState = s.toLineState ∧
      t.toPipeState = s.toPipeState ∧
      t.toQdState = s.toQdState ∧
      t.nt = s.nt) ∧
  (∀ (s : State) (pll : Nat),
    pll < 8 →
    s.live pgCLK = true →
    bit (s.rd pgCLK CLK.PLL_STS_LOCKED) pll = true →
    ∃ t, exec (.pllLockLoss pll) s = .next t ∧
      t.rd pgCLK CLK.PLL_STS_LOCKED = clrBit (s.rd pgCLK CLK.PLL_STS_LOCKED) pll % 2 ^ CLK.PLL_STS_LOCKED.w ∧
      bit (t.rd pgCLK COMMON.INT_CAUSE_CAUSE) 0 = true ∧
      t.toBandState = s.toBandState ∧
      t.toLineState = s.toLineState ∧
      t.toPipeState = s.toPipeState ∧
      t.toQdState = s.toQdState ∧
      t.nt = s.nt) ∧
  (∀ (s : State) (pll : Nat),
    pll < 8 →
    s.live pgCLK = true →
    bit (s.rd pgCLK CLK.PLL_STS_LOCKED) pll = false →
    (if pll = 7 then s.domOn 21 = true else 2 ≤ s.rd pgRST RST.START_STS_STEP) →
    ∃ t, exec (.pllRelock pll) s = .next t ∧
      t.rd pgCLK CLK.PLL_STS_LOCKED = setBit (s.rd pgCLK CLK.PLL_STS_LOCKED) pll % 2 ^ CLK.PLL_STS_LOCKED.w ∧
      bit (t.rd pgCLK COMMON.INT_CAUSE_CAUSE) 3 = true ∧
      t.toBandState = s.toBandState ∧
      t.toLineState = s.toLineState ∧
      t.toPipeState = s.toPipeState ∧
      t.toQdState = s.toQdState ∧
      t.nt = s.nt) ∧
  (∀ (s : State) (rail : Nat),
    rail < 7 →
    s.pwrgood = true →
    s.live pgPWR = true →
    ∃ t, exec (.railFault rail) s = .next t ∧
      t.rd pgPWR PWR.RAIL_STS_IN_REG = clrBit (s.rd pgPWR PWR.RAIL_STS_IN_REG) rail % 2 ^ PWR.RAIL_STS_IN_REG.w ∧
      bit (t.rd pgPWR COMMON.INT_CAUSE_CAUSE) 3 = true ∧
      t.toBandState = s.toBandState ∧
      t.toLineState = s.toLineState ∧
      t.toPipeState = s.toPipeState ∧
      t.toQdState = s.toQdState ∧
      t.nt = s.nt)

/-- A fall of PWRGOOD takes start-up back to step 0 and keeps the flash; its rise samples the straps into the role and device
number; a later strap change shows only in STRAP_RAW; start-up reaches step 1 with its clocks and step 7 with DONE; a failure of
step 1 for a PLL is shown in FAIL; an accepted warm reset returns to step 1 with its cause and a refused one sets cause 1; PERST
and the endpoint are released. Rules followed: R822, R823, R824, R825, R827, R828, R829. -/
def Obligations.ResetsAndStartUp : Prop :=
  (∀ (s : State) (fabmode : Bool) (devid : Nat),
    s.pwrgood = false →
    ∃ t, exec (.powerOnReset fabmode devid) s = .next t ∧
      t.pwrgood = true ∧
      t.fabric = fabmode ∧
      t.rd pgCRWN CRWN.DEV_MODE_DEVICE_NUM = devid % 4096 ∧
      t.toBandState = s.toBandState ∧
      t.toLineState = s.toLineState ∧
      t.toPipeState = s.toPipeState ∧
      t.toQdState = s.toQdState ∧
      t.toHostState = s.toHostState ∧
      t.nt = s.nt) ∧
  (∀ (s : State),
    s.pwrgood = true →
    ∃ t, exec (.pwrgoodFall) s = .next t ∧
      t.pwrgood = false ∧
      t.rd pgRST RST.START_STS_STEP = 0 ∧
      t.flash = s.flash ∧
      t.bonMeters = s.bonMeters ∧
      t.hbm = []) ∧
  (∀ (s : State) (fabmode : Bool) (devid : Nat),
    ∃ t, exec (.strapChange fabmode devid) s = .next t ∧
      t.rd pgRST RST.STRAP_RAW_FABMODE = b2n fabmode ∧
      t.rd pgRST RST.STRAP_RAW_DEVID = devid % 2 ^ RST.STRAP_RAW_DEVID.w ∧
      t.fabric = s.fabric ∧
      t.rd pgCRWN CRWN.DEV_MODE_DEVICE_NUM = s.rd pgCRWN CRWN.DEV_MODE_DEVICE_NUM ∧
      t.toBandState = s.toBandState ∧
      t.toLineState = s.toLineState ∧
      t.toPipeState = s.toPipeState ∧
      t.toQdState = s.toQdState ∧
      t.nt = s.nt) ∧
  (∀ (s : State),
    s.pwrgood = true →
    s.on pgRST RST.START_STS_DONE = false →
    s.rd pgRST RST.START_STS_FAIL = 0 →
    s.rd pgRST RST.START_STS_STEP = 0 →
    ∃ t, exec (.startupStep) s = .next t ∧
      t.rd pgRST RST.START_STS_STEP = 1 ∧
      t.rd pgCLK CLK.REF_STS_SYSCLK_OK = 1 ∧
      t.rd pgCLK CLK.REF_STS_FREF_OK = 1 ∧
      t.toBandState = s.toBandState ∧
      t.toLineState = s.toLineState ∧
      t.toPipeState = s.toPipeState ∧
      t.toQdState = s.toQdState ∧
      t.toHostState = s.toHostState ∧
      t.nt = s.nt) ∧
  (∀ (s : State),
    s.pwrgood = true →
    s.on pgRST RST.START_STS_DONE = false →
    s.rd pgRST RST.START_STS_FAIL = 0 →
    s.rd pgRST RST.START_STS_STEP = 6 →
    ∃ t, exec (.startupStep) s = .next t ∧
      t.rd pgRST RST.START_STS_STEP = 7 ∧
      t.rd pgRST RST.START_STS_DONE = 1 ∧
      t.warming = false ∧
      t.toBandState = s.toBandState ∧
      t.toLineState = s.toLineState ∧
      t.toPipeState = s.toPipeState ∧
      t.toQdState = s.toQdState ∧
      t.nt = s.nt) ∧
  (∀ (s : State),
    s.pwrgood = true →
    s.on pgRST RST.START_STS_DONE = false →
    s.rd pgRST RST.START_STS_FAIL = 0 →
    s.rd pgRST RST.START_STS_STEP = 1 →
    ∃ t, exec (.startupFail 2) s = .next t ∧
      t.rd pgRST RST.START_STS_FAIL = 2 ∧
      t.rd pgRST RST.START_STS_STEP = 1 ∧
      t.toBandState = s.toBandState ∧
      t.toLineState = s.toLineState ∧
      t.toPipeState = s.toPipeState ∧
      t.toQdState = s.toQdState ∧
      t.nt = s.nt) ∧
  (∀ (s : State) (key : Nat),
    s.warmRefused (key % 65536) = false →
    ∃ t, exec (.warmReset key) s = .next t ∧
      t.rd pgRST RST.START_STS_STEP = 1 ∧
      t.rd pgRST RST.START_STS_DONE = 0 ∧
      t.rd pgRST RST.RST_CAUSE_WARM = 1 ∧
      t.log = s.log ∧
      t.warming = true) ∧
  (∀ (s : State) (key : Nat),
    s.warmRefused (key % 65536) = true →
    s.live pgRST = true →
    ∃ t, exec (.warmReset key) s = .next t ∧
      bit (t.rd pgRST COMMON.INT_CAUSE_CAUSE) 1 = true ∧
      t.rd pgRST RST.START_STS_STEP = s.rd pgRST RST.START_STS_STEP ∧
      t.toBandState = s.toBandState ∧
      t.toLineState = s.toLineState ∧
      t.toPipeState = s.toPipeState ∧
      t.toQdState = s.toQdState ∧
      t.nt = s.nt) ∧
  (∀ (s : State),
    s.perstHigh = false →
    s.pwrgood = true →
    ∃ t, exec (.perstRelease) s = .next t ∧
      t.perstHigh = true ∧
      t.perstAt = s.ticks ∧
      t.srns = s.on pgCLK CLK.PCIE_CLK_CFG_SRNS ∧
      t.regs = s.regs ∧
      t.toBandState = s.toBandState ∧
      t.toLineState = s.toLineState ∧
      t.toPipeState = s.toPipeState ∧
      t.toQdState = s.toQdState ∧
      t.nt = s.nt) ∧
  (∀ (s : State),
    s.perstHigh = true →
    s.live pgPCE = true →
    s.rd pgRST RST.START_STS_FAIL ≠ 1 →
    s.rd pgRST RST.START_STS_FAIL ≠ 3 →
    4 ≤ s.rd pgRST RST.START_STS_STEP →
    s.perstAt + ticksMs 1 ≤ s.ticks →
    s.on pgRST RST.START_STS_EP_RELEASED = false →
    ∃ t, exec (.endpointRelease) s = .next t ∧
      t.rd pgRST RST.START_STS_EP_RELEASED = 1 ∧
      t.subsys = s.rd pgPCE PCE.SUBSYS_SVID + 65536 * s.rd pgPCE PCE.SUBSYS_SSID ∧
      t.toBandState = s.toBandState ∧
      t.toLineState = s.toLineState ∧
      t.toPipeState = s.toPipeState ∧
      t.toQdState = s.toQdState ∧
      t.nt = s.nt) ∧
  (∀ (s : State),
    ∃ t, exec (.jtagTrst) s = .next t ∧
      t.jtag.tap = .testLogicReset ∧
      t.jtag.path = .bypass ∧
      t.regs = s.regs ∧
      t.toBandState = s.toBandState ∧
      t.toLineState = s.toLineState ∧
      t.toPipeState = s.toPipeState ∧
      t.toQdState = s.toQdState ∧
      t.toHostState = s.toHostState ∧
      t.nt = s.nt)

/-- On a powered Bonnet page: REPORT_NOW latches the meters and ends DONE when no report is in progress; SELECT_WIN points the
window; CFG_TAP and CFG_REPORT store on an unsealed Bonnet and end ERROR on a sealed one, where they count as change attempts;
SEAL with the magic word, the serial number and valid time seals; the report completes into the ring; BON_VDD returning or failing
sets PD21 and clears the meters. Rules followed: R694, R697, R698, R702, R704, R706, R815. -/
def Obligations.BonnetMailbox : Prop :=
  (∀ (s : State) (tag : Nat),
    s.live pgBON = true →
    s.bonReport = none →
    ∃ t, exec (.bonReportNow tag) s = .next t ∧
      t.rd pgBON BON.MBX_RES.status = DONE ∧
      t.rd pgBON BON.MBX_RES.tag = tag % 256 ∧
      t.bonImage = s.bonMeters ∧
      t.bonReport.isSome = true ∧
      t.toBandState = s.toBandState ∧
      t.toLineState = s.toLineState ∧
      t.toPipeState = s.toPipeState ∧
      t.toQdState = s.toQdState ∧
      t.nt = s.nt) ∧
  (∀ (s : State) (tag : Nat),
    s.live pgBON = true →
    s.bonReport.isSome = true →
    s.bonAsked ≠ some s.ticks →
    ∃ t, exec (.bonReportNow tag) s = .next t ∧
      t.rd pgBON BON.MBX_RES.status = ERROR ∧
      t.rd pgBON BON.MBX_RES.tag = tag % 256 ∧
      t.bonImage = s.bonImage ∧
      t.toBandState = s.toBandState ∧
      t.toLineState = s.toLineState ∧
      t.toPipeState = s.toPipeState ∧
      t.toQdState = s.toQdState ∧
      t.nt = s.nt) ∧
  (∀ (s : State) (tag : Nat),
    s.live pgBON = true →
    bits (s.bonArg 0) 0 6 ≤ 34 →
    ∃ t, exec (.bonSelectWin tag) s = .next t ∧
      t.rd pgBON BON.MBX_RES.status = DONE ∧
      t.rd pgBON BON.MBX_RES.tag = tag % 256 ∧
      t.rd pgBON BON.WIN_STS_PAGE = bits (s.bonArg 0) 0 6 % 2 ^ BON.WIN_STS_PAGE.w ∧
      t.rd pgBON BON.WIN_STS_RING_IDX = bits (s.bonArg 0) 8 8 % 2 ^ BON.WIN_STS_RING_IDX.w ∧
      t.toBandState = s.toBandState ∧
      t.toLineState = s.toLineState ∧
      t.toPipeState = s.toPipeState ∧
      t.toQdState = s.toQdState ∧
      t.nt = s.nt) ∧
  (∀ (s : State) (tag : Nat),
    s.live pgBON = true →
    s.bonSealed = false →
    bits (s.bonArg 0) 0 10 < 512 →
    ∃ t, exec (.bonCfgTap tag) s = .next t ∧
      t.rd pgBON BON.MBX_RES.status = DONE ∧
      t.rd pgBON BON.MBX_RES.tag = tag % 256 ∧
      tget t.bonTaps (bits (s.bonArg 0) 0 10) = some (tapWord0 (s.bonArg 1), bits (s.bonArg 2) 0 16) ∧
      t.toBandState = s.toBandState ∧
      t.toLineState = s.toLineState ∧
      t.toPipeState = s.toPipeState ∧
      t.toQdState = s.toQdState ∧
      t.nt = s.nt) ∧
  (∀ (s : State) (tag : Nat),
    s.live pgBON = true →
    s.bonSealed = true →
    ∃ t, exec (.bonCfgTap tag) s = .next t ∧
      t.rd pgBON BON.MBX_RES.status = ERROR ∧
      t.rd pgBON BON.MBX_RES.tag = tag % 256 ∧
      t.bonTaps = s.bonTaps ∧
      t.toBandState = s.toBandState ∧
      t.toLineState = s.toLineState ∧
      t.toPipeState = s.toPipeState ∧
      t.toQdState = s.toQdState ∧
      t.nt = s.nt) ∧
  (∀ (s : State) (tag : Nat),
    s.live pgBON = true →
    s.bonSealed = false →
    (s.bonArg 0 = 0 ∨ (60 ≤ s.bonArg 0 ∧ s.bonArg 0 ≤ 86400)) →
    ∃ t, exec (.bonCfgReport tag) s = .next t ∧
      t.rd pgBON BON.MBX_RES.status = DONE ∧
      t.rd pgBON BON.MBX_RES.tag = tag % 256 ∧
      t.bonInterval = s.bonArg 0 ∧
      t.toBandState = s.toBandState ∧
      t.toLineState = s.toLineState ∧
      t.toPipeState = s.toPipeState ∧
      t.toQdState = s.toQdState ∧
      t.nt = s.nt) ∧
  (∀ (s : State) (tag : Nat),
    s.live pgBON = true →
    s.bonArg 0 = 0x5345414C →
    s.bonArg 1 = s.rd pgCRWN CRWN.DEV_SERIAL_LO_SERIAL →
    s.bonSealed = false →
    s.ntValid = true →
    s.bonReport = none →
    ∃ t, exec (.bonSeal tag) s = .next t ∧
      t.bonSealed = true ∧
      t.bonReport.isSome = true ∧
      t.rd pgBON BON.MBX_RES.status = DONE ∧
      t.rd pgBON BON.MBX_RES.tag = tag % 256 ∧
      t.toBandState = s.toBandState ∧
      t.toLineState = s.toLineState ∧
      t.toPipeState = s.toPipeState ∧
      t.toQdState = s.toQdState ∧
      t.nt = s.nt) ∧
  (∀ (s : State) (h : List Byte),
    s.live pgBON = true →
    s.bonReport = some h →
    ∃ t, exec (.bonReportComplete) s = .next t ∧
      t.bonReport = none ∧
      tget t.bonRing (s.bonSeq % 256) = some (h ++ Config.rsaSign 0 h) ∧
      t.rd pgBON BON.LAST_SEQ_SEQ = s.bonSeq % 2 ^ BON.LAST_SEQ_SEQ.w ∧
      t.rd pgBON BON.BON_STS_BUSY = 0 ∧
      t.toBandState = s.toBandState ∧
      t.toLineState = s.toLineState ∧
      t.toPipeState = s.toPipeState ∧
      t.toQdState = s.toQdState ∧
      t.nt = s.nt) ∧
  (∀ (s : State),
    s.live pgBON = true →
    s.bonInterval ≠ 0 →
    s.nt.sec % s.bonInterval = 0 →
    s.nt.ns ≤ 1 →
    s.bonReport = none →
    ∃ t, exec (.bonIntervalReport) s = .next t ∧
      t.bonReport.isSome = true ∧
      t.bonImage = s.bonMeters ∧
      t.rd pgBON BON.BON_STS_BUSY = 1 ∧
      t.toBandState = s.toBandState ∧
      t.toLineState = s.toLineState ∧
      t.toPipeState = s.toPipeState ∧
      t.toQdState = s.toQdState ∧
      t.nt = s.nt ∧
      t.toHostState = s.toHostState) ∧
  (∀ (s : State),
    s.live pgBON = true →
    s.bonSealed = true →
    ∃ t, exec (.bonChangeAttempt) s = .next t ∧
      t.rd pgBON BON.CHANGE_ATT_COUNT = (s.rd pgBON BON.CHANGE_ATT_COUNT + 1) % 2 ^ BON.CHANGE_ATT_COUNT.w ∧
      t.bonTaps = s.bonTaps ∧
      t.bonInterval = s.bonInterval ∧
      t.toBandState = s.toBandState ∧
      t.toLineState = s.toLineState ∧
      t.toPipeState = s.toPipeState ∧
      t.toQdState = s.toQdState ∧
      t.nt = s.nt) ∧
  (∀ (s : State) (storeGood : Bool),
    s.domOn 21 = false →
    s.rd pgBON BON.BON_STS_SEALED = 0 →
    ∃ t, exec (.bonPowerUp storeGood) s = .next t ∧
      t.domOn 21 = true ∧
      t.bonMeters = [] ∧
      t.bonSeq = 0 ∧
      t.free = s.free + 2) ∧
  (∀ (s : State),
    s.domOn 21 = true →
    ∃ t, exec (.bonVddLoss) s = .next t ∧
      t.domOn 21 = false ∧
      t.bonMeters = [] ∧
      t.bonRing = [] ∧
      t.bonTaps = s.bonTaps ∧
      t.toLineState = s.toLineState ∧
      t.toPipeState = s.toPipeState ∧
      t.toQdState = s.toQdState ∧
      t.toHostState = s.toHostState ∧
      t.nt = s.nt)

/-- For an enabled cage of a powered CAGE page, outputs not held and the chain whole, no power cycle running and each timer run
out: a debounced cage waits for a slot and shows PRESENT; the lowest waiting cage powers up; a power-good timeout, an
initialisation timeout and a missing application fault it with codes 1, 2 and 4, the first two with their causes; the end of the
reset hold starts initialisation; activation or software makes it ready, or low power where FORCE_LPMODE is 1; FORCE_LPMODE takes
a ready cage to low power; a power cycle notes itself and its end, or FAULT_CLR on a present cage, debounces again; a removal ends
in EMPTY. Rules followed: R162, R163, R172, R176. -/
def Obligations.CageStates : Prop :=
  (∀ (s : State) (cage : Nat),
    cage < 64 →
    s.live pgCAGE = true →
    s.cageEn cage = true →
    s.cageHold = false →
    s.on pgCAGE CAGE.CSB_STS_CHAIN_FAULT = false →
    (s.cage cage).cycling = false →
    s.cageSt cage = cgDebounce →
    s.cageRan cage (s.rd pgCAGE CAGE.CAGE_TIMING_DEBOUNCE_MS) = true →
    ∃ t, exec (.cageDebounceDone cage) s = .next t ∧
      (t.cage cage).waiting = true ∧
      t.rd pgCAGE CAGE.CAGE_STS_PRESENT cage = 1 ∧
      t.toPipeState = s.toPipeState ∧
      t.toQdState = s.toQdState ∧
      t.nt = s.nt) ∧
  (∀ (s : State) (cage : Nat),
    cage < 64 →
    s.live pgCAGE = true →
    s.cageEn cage = true →
    s.cageHold = false →
    s.on pgCAGE CAGE.CSB_STS_CHAIN_FAULT = false →
    (s.cage cage).cycling = false →
    ((List.range 64).find? fun c => s.cageEn c && decide (s.cageSt c = cgDebounce) && (s.cage c).waiting) = some cage →
    s.slotOpen = true →
    ∃ t, exec (.cagePowerSlot) s = .next t ∧
      t.cageSt cage = cgPowering ∧
      t.toPipeState = s.toPipeState ∧
      t.toQdState = s.toQdState ∧
      t.nt = s.nt) ∧
  (∀ (s : State) (cage : Nat),
    cage < 64 →
    s.live pgCAGE = true →
    s.cageEn cage = true →
    s.cageHold = false →
    s.on pgCAGE CAGE.CSB_STS_CHAIN_FAULT = false →
    (s.cage cage).cycling = false →
    s.cageSt cage = cgPowering →
    (s.cage cage).holding = false →
    s.cageRan cage (s.rd pgCAGE CAGE.CAGE_TIMING_PG_TIMEOUT_MS) = true →
    ∃ t, exec (.cagePgTimeout cage) s = .next t ∧
      t.cageSt cage = cgFault ∧
      t.rd pgCAGE CAGE.CAGE_STS_FAULT_CODE cage = 1 ∧
      bit (t.rd pgCAGE COMMON.INT_CAUSE_CAUSE) 2 = true ∧
      t.toPipeState = s.toPipeState ∧
      t.toQdState = s.toQdState ∧
      t.nt = s.nt) ∧
  (∀ (s : State) (cage : Nat),
    cage < 64 →
    s.live pgCAGE = true →
    s.cageEn cage = true →
    s.cageHold = false →
    s.on pgCAGE CAGE.CSB_STS_CHAIN_FAULT = false →
    (s.cage cage).cycling = false →
    s.cageSt cage = cgInit →
    s.cageRan cage (s.rd pgCAGE CAGE.CMIS_TMO_INIT_TIMEOUT_MS) = true →
    ∃ t, exec (.cageInitTimeout cage) s = .next t ∧
      t.cageSt cage = cgFault ∧
      t.rd pgCAGE CAGE.CAGE_STS_FAULT_CODE cage = 2 ∧
      bit (t.rd pgCAGE COMMON.INT_CAUSE_CAUSE) 4 = true ∧
      t.toPipeState = s.toPipeState ∧
      t.toQdState = s.toQdState ∧
      t.nt = s.nt) ∧
  (∀ (s : State) (cage : Nat),
    cage < 64 →
    s.live pgCAGE = true →
    s.cageEn cage = true →
    s.cageHold = false →
    s.on pgCAGE CAGE.CSB_STS_CHAIN_FAULT = false →
    (s.cage cage).cycling = false →
    s.cageSt cage = cgInit →
    s.on pgCAGE CAGE.CAGE_CTL_AUTO cage = true →
    ∃ t, exec (.cageDatapathActivated cage false) s = .next t ∧
      t.cageSt cage = cgFault ∧
      t.rd pgCAGE CAGE.CAGE_STS_FAULT_CODE cage = 4 ∧
      t.toPipeState = s.toPipeState ∧
      t.toQdState = s.toQdState ∧
      t.nt = s.nt) ∧
  (∀ (s : State) (cage : Nat),
    cage < 64 →
    s.live pgCAGE = true →
    s.cageEn cage = true →
    s.cageHold = false →
    s.on pgCAGE CAGE.CSB_STS_CHAIN_FAULT = false →
    (s.cage cage).cycling = false →
    s.cageSt cage = cgPowering →
    (s.cage cage).holding = true →
    s.cageRan cage (s.rd pgCAGE CAGE.CAGE_TIMING_RESET_HOLD_MS) = true →
    ∃ t, exec (.cageResetHoldDone cage) s = .next t ∧
      t.cageSt cage = cgInit ∧
      t.toPipeState = s.toPipeState ∧
      t.toQdState = s.toQdState ∧
      t.nt = s.nt) ∧
  (∀ (s : State) (cage : Nat),
    cage < 64 →
    s.live pgCAGE = true →
    s.cageEn cage = true →
    s.cageHold = false →
    s.on pgCAGE CAGE.CSB_STS_CHAIN_FAULT = false →
    (s.cage cage).cycling = false →
    s.cageSt cage = cgInit →
    s.on pgCAGE CAGE.CAGE_CTL_AUTO cage = true →
    ∃ t, exec (.cageDatapathActivated cage true) s = .next t ∧
      t.cageSt cage = (if s.on pgCAGE CAGE.CAGE_CTL_FORCE_LPMODE cage then cgLowPower else cgReady) ∧
      t.toPipeState = s.toPipeState ∧
      t.toQdState = s.toQdState ∧
      t.nt = s.nt) ∧
  (∀ (s : State) (cage : Nat),
    cage < 64 →
    s.live pgCAGE = true →
    s.cageEn cage = true →
    s.cageHold = false →
    s.on pgCAGE CAGE.CSB_STS_CHAIN_FAULT = false →
    (s.cage cage).cycling = false →
    s.cageSt cage = cgInit →
    s.on pgCAGE CAGE.CAGE_CTL_AUTO cage = false →
    ∃ t, exec (.cageManualReady cage) s = .next t ∧
      t.cageSt cage = (if s.on pgCAGE CAGE.CAGE_CTL_FORCE_LPMODE cage then cgLowPower else cgReady) ∧
      t.toPipeState = s.toPipeState ∧
      t.toQdState = s.toQdState ∧
      t.nt = s.nt) ∧
  (∀ (s : State) (cage : Nat),
    cage < 64 →
    s.live pgCAGE = true →
    s.cageEn cage = true →
    s.cageHold = false →
    s.on pgCAGE CAGE.CSB_STS_CHAIN_FAULT = false →
    (s.cage cage).cycling = true →
    s.cageRan cage 100 = true →
    ∃ t, exec (.cagePowerCycleEnd cage) s = .next t ∧
      t.cageSt cage = cgDebounce ∧
      t.toPipeState = s.toPipeState ∧
      t.toQdState = s.toQdState ∧
      t.nt = s.nt) ∧
  (∀ (s : State) (cage : Nat),
    cage < 64 →
    s.live pgCAGE = true →
    s.cageEn cage = true →
    s.cageHold = false →
    s.on pgCAGE CAGE.CSB_STS_CHAIN_FAULT = false →
    (s.cage cage).cycling = false →
    s.cageSt cage = cgFault →
    s.on pgCAGE CAGE.CAGE_STS_RAW_PRESENT cage = true →
    ∃ t, exec (.cageFaultClr cage) s = .next t ∧
      t.cageSt cage = cgDebounce ∧
      t.toPipeState = s.toPipeState ∧
      t.toQdState = s.toQdState ∧
      t.nt = s.nt) ∧
  (∀ (s : State) (cage : Nat),
    cage < 64 →
    s.live pgCAGE = true →
    s.cageEn cage = true →
    s.cageHold = false →
    s.on pgCAGE CAGE.CSB_STS_CHAIN_FAULT = false →
    (s.cage cage).cycling = false →
    s.cageSt cage = cgRemoving →
    s.cageRan cage (s.rd pgCAGE CAGE.CAGE_TIMING_DEBOUNCE_MS) = true →
    ∃ t, exec (.cageRemovalDone cage) s = .next t ∧
      t.cageSt cage = cgEmpty ∧
      t.toPipeState = s.toPipeState ∧
      t.toQdState = s.toQdState ∧
      t.nt = s.nt) ∧
  (∀ (s : State) (cage : Nat),
    cage < 64 →
    s.live pgCAGE = true →
    s.cageEn cage = true →
    s.cageHold = false →
    s.on pgCAGE CAGE.CSB_STS_CHAIN_FAULT = false →
    (s.cage cage).cycling = false →
    s.cageSt cage = cgReady →
    ∃ t, exec (.cageForceLpmode cage true) s = .next t ∧
      t.cageSt cage = cgLowPower ∧
      t.rd pgCAGE CAGE.CAGE_CTL_FORCE_LPMODE cage = 1 ∧
      t.toPipeState = s.toPipeState ∧
      t.toQdState = s.toQdState ∧
      t.nt = s.nt) ∧
  (∀ (s : State) (cage : Nat),
    cage < 64 →
    s.live pgCAGE = true →
    s.cageEn cage = true →
    s.cageHold = false →
    s.on pgCAGE CAGE.CSB_STS_CHAIN_FAULT = false →
    (s.cage cage).cycling = false →
    1 ≤ s.cageSt cage →
    s.cageSt cage ≤ 6 →
    ∃ t, exec (.cagePowerCycle cage) s = .next t ∧
      t.cage cage = { s.cage cage with cycling := true, waiting := false, holding := false, since := s.ticks } ∧
      t.rd pgCAGE CAGE.CAGE_STS_SQUELCH_REQ cage = 1 ∧
      t.cageSt cage = s.cageSt cage)

/-- With no change waiting, a frame without input bytes of the running bus sends the output bytes of its cages, the last cage
first, and shows RUNNING; a master command for a cage of the master in a state that serves it is queued with its result pending,
and one for a cage that is not ready ends ERROR with flag 8; a running transaction that completes, times out or is aborted ends
with DONE, ERROR or ABORTED; a stuck SDA shows STUCK with cause 6. Rules followed: R155, R156, R161, R169, R170, R171, R176. -/
def Obligations.CageBusAndMasters : Prop :=
  (∀ (s : State),
    s.live pgCAGE = true →
    s.on pgCAGE CAGE.CSB_CTL_RUN = true →
    s.rd pgCAGE CAGE.CSB_CTL_CAGES = 1 →
    s.cageHold = false →
    s.on pgCAGE CAGE.CSB_STS_CHAIN_FAULT = false →
    ((List.range 64).all fun c => (s.cage c).deferred.isEmpty) = true →
    ∃ t, exec (.csbFrame []) s = .next t ∧
      t.out = .csbFrame [s.cageOut 0] :: s.out ∧
      t.rd pgCAGE CAGE.CSB_STS_RUNNING = 1 ∧
      (t.cage 0).lastOut = s.cageOut 0 ∧
      t.toPipeState = s.toPipeState ∧
      t.toQdState = s.toQdState ∧
      t.nt = s.nt ∧
      t.toHostState = s.toHostState) ∧
  (∀ (s : State) (master cage tag : Nat),
    master < 8 →
    s.live pgCAGE = true →
    cage / 8 = master →
    s.rd pgCAGE CAGE.MM_ADDR_LEN master ≠ 0 →
    s.rd pgCAGE CAGE.MM_ADDR_LEN master ≤ 128 →
    s.mmMode master = true →
    3 ≤ s.cageSt cage →
    s.cageSt cage ≤ 5 →
    ∃ t, exec (.mmRead master cage tag) s = .next t ∧
      tgetD t.mmQueue master [] = tgetD s.mmQueue master [] ++ [{ write := false, cage := cage, tag := tag, bank := s.rd pgCAGE CAGE.MM_ADDR_BANK master, page := s.rd pgCAGE CAGE.MM_ADDR_PAGE master, offset := s.rd pgCAGE CAGE.MM_ADDR_OFFSET master, len := s.rd pgCAGE CAGE.MM_ADDR_LEN master }] ∧
      t.rd pgCAGE CAGE.MM_RES.valid master = 0 ∧
      t.rd pgCAGE CAGE.MM_STS_BUSY master = 1 ∧
      t.toPipeState = s.toPipeState ∧
      t.toQdState = s.toQdState ∧
      t.nt = s.nt ∧
      t.toHostState = s.toHostState) ∧
  (∀ (s : State) (master cage tag : Nat),
    master < 8 →
    s.live pgCAGE = true →
    cage / 8 = master →
    s.rd pgCAGE CAGE.MM_ADDR_LEN master ≠ 0 →
    s.rd pgCAGE CAGE.MM_ADDR_LEN master ≤ 128 →
    s.mmMode master = true →
    s.cageSt cage < 3 →
    ∃ t, exec (.mmRead master cage tag) s = .next t ∧
      t.rd pgCAGE CAGE.MM_RES.status master = ERROR ∧
      t.rd pgCAGE CAGE.MM_RES.tag master = tag % 256 ∧
      t.mmQueue = s.mmQueue ∧
      t.toPipeState = s.toPipeState ∧
      t.toQdState = s.toQdState ∧
      t.nt = s.nt ∧
      t.toHostState = s.toHostState) ∧
  (∀ (s : State) (master cage tag : Nat),
    master < 8 →
    s.live pgCAGE = true →
    cage / 8 = master →
    s.rd pgCAGE CAGE.MM_ADDR_LEN master ≠ 0 →
    s.rd pgCAGE CAGE.MM_ADDR_LEN master ≤ 128 →
    s.mmMode master = true →
    3 ≤ s.cageSt cage →
    s.cageSt cage ≤ 5 →
    (s.on pgCAGE CAGE.CAGE_CTL_AUTO cage && mmProtected (s.rd pgCAGE CAGE.MM_ADDR_PAGE master) (s.rd pgCAGE CAGE.MM_ADDR_OFFSET master) (s.rd pgCAGE CAGE.MM_ADDR_LEN master)) = false →
    ∃ t, exec (.mmWrite master cage tag) s = .next t ∧
      tgetD t.mmQueue master [] = tgetD s.mmQueue master [] ++ [{ write := true, cage := cage, tag := tag, bank := s.rd pgCAGE CAGE.MM_ADDR_BANK master, page := s.rd pgCAGE CAGE.MM_ADDR_PAGE master, offset := s.rd pgCAGE CAGE.MM_ADDR_OFFSET master, len := s.rd pgCAGE CAGE.MM_ADDR_LEN master }] ∧
      t.rd pgCAGE CAGE.MM_RES.valid master = 0 ∧
      t.rd pgCAGE CAGE.MM_STS_BUSY master = 1 ∧
      t.toPipeState = s.toPipeState ∧
      t.toQdState = s.toQdState ∧
      t.nt = s.nt ∧
      t.toHostState = s.toHostState) ∧
  (∀ (s : State) (master cage tag : Nat),
    master < 8 →
    s.live pgCAGE = true →
    cage / 8 = master →
    s.rd pgCAGE CAGE.MM_ADDR_LEN master ≠ 0 →
    s.rd pgCAGE CAGE.MM_ADDR_LEN master ≤ 128 →
    s.mmMode master = true →
    s.cageSt cage < 3 →
    ∃ t, exec (.mmWrite master cage tag) s = .next t ∧
      t.rd pgCAGE CAGE.MM_RES.status master = ERROR ∧
      t.rd pgCAGE CAGE.MM_RES.tag master = tag % 256 ∧
      t.mmQueue = s.mmQueue ∧
      t.toPipeState = s.toPipeState ∧
      t.toQdState = s.toQdState ∧
      t.nt = s.nt ∧
      t.toHostState = s.toHostState) ∧
  (∀ (s : State) (master : Nat) (q : MmCmd) (l : List MmCmd),
    master < 8 →
    s.live pgCAGE = true →
    tgetD s.mmQueue master [] = q :: l →
    q.step = 0 →
    ∃ t, exec (.mmStretchTimeout master) s = .next t ∧
      tgetD t.mmQueue master [] = l ∧
      t.rd pgCAGE CAGE.MM_RES.status master = ERROR ∧
      t.rd pgCAGE CAGE.MM_RES.tag master = q.tag % 256 ∧
      t.toPipeState = s.toPipeState ∧
      t.toQdState = s.toQdState ∧
      t.nt = s.nt) ∧
  (∀ (s : State) (master tag : Nat) (q : MmCmd) (l : List MmCmd),
    master < 8 →
    s.live pgCAGE = true →
    tgetD s.mmQueue master [] = q :: l →
    q.step = 0 →
    ∃ t, exec (.mmAbort master tag) s = .next t ∧
      tgetD t.mmQueue master [] = l ∧
      t.rd pgCAGE CAGE.MM_RES.status master = ABORTED ∧
      t.rd pgCAGE CAGE.MM_RES.tag master = q.tag % 256 ∧
      t.toPipeState = s.toPipeState ∧
      t.toQdState = s.toQdState ∧
      t.nt = s.nt) ∧
  (∀ (s : State) (master : Nat) (data : List Byte) (nack : Bool) (q : MmCmd) (l : List MmCmd),
    master < 8 →
    s.live pgCAGE = true →
    s.cageHold = false →
    s.mmReady master = true →
    tgetD s.mmQueue master [] = q :: l →
    q.step = 0 →
    q.write = true →
    ∃ t, exec (.mmTransactionDone master data nack) s = .next t ∧
      tgetD t.mmQueue master [] = l ∧
      t.rd pgCAGE CAGE.MM_RES.status master = (if nack then ERROR else DONE) ∧
      t.rd pgCAGE CAGE.MM_RES.tag master = q.tag % 256 ∧
      t.out = .mmBus master (s.mmShown master q ((s.mmBytes master).take q.len)) :: s.out ∧
      t.toPipeState = s.toPipeState ∧
      t.toQdState = s.toQdState ∧
      t.nt = s.nt) ∧
  (∀ (s : State) (master : Nat),
    master < 8 →
    s.live pgCAGE = true →
    ∃ t, exec (.mmSdaStuck master) s = .next t ∧
      t.rd pgCAGE CAGE.MM_STS_STUCK master = 1 ∧
      bit (t.rd pgCAGE COMMON.INT_CAUSE_CAUSE) 6 = true ∧
      t.toPipeState = s.toPipeState ∧
      t.toQdState = s.toQdState ∧
      t.nt = s.nt)

/-- Outside a warm reset, for every domain that the PWR page controls: a write of DOM_CTL that is refused is counted in PWR_CNT1
and sets PWR cause 0, and nothing else changes: no other block register of any page (but the side registers of the crown,
observation, log and PCIe pages), no domain transition, no unit. -/
def Obligations.RefusedDomainWrites : Prop :=
  (∀ (s : State) (dom : Nat),
    dom ≠ 0 →
    dom ≠ 21 →
    dom < 24 →
    s.warming = false →
    s.live pgPWR = true →
    s.domRefused dom true = true →
    ∃ t, exec (.domPowerOn dom) s = .next t ∧
      t.rd pgPWR PWR.PWR_CNT 1 = (s.rd pgPWR PWR.PWR_CNT 1 + 1) % 2 ^ 64 ∧
      bit (t.rd pgPWR COMMON.INT_CAUSE_CAUSE) 0 = true ∧
      ((∀ (q : Nat) (f : Fld) (i : Nat), 0x100 ≤ f.at_ i → f.at_ i < 0x10000 → f.lo < 32 → q ≠ pgCRWN → q ≠ pgOBS → q ≠ pgLOG → q ≠ pgPCE → (q = pgPWR → f.at_ i ≠ 0x228) → t.rd q f i = s.rd q f i)) ∧
      t.toMgmtState = { s.toMgmtState with shadowDue := t.shadowDue } ∧
      t.toHostState = { s.toHostState with fns := t.fns } ∧
      t.toBandState = s.toBandState ∧
      t.toLineState = s.toLineState ∧
      t.toPipeState = s.toPipeState ∧
      t.toQdState = s.toQdState ∧
      t.nt = s.nt) ∧
  (∀ (s : State) (dom : Nat),
    dom ≠ 0 →
    dom ≠ 21 →
    dom < 24 →
    s.warming = false →
    s.live pgPWR = true →
    s.domRefused dom false = true →
    ∃ t, exec (.domPowerOff dom) s = .next t ∧
      t.rd pgPWR PWR.PWR_CNT 1 = (s.rd pgPWR PWR.PWR_CNT 1 + 1) % 2 ^ 64 ∧
      bit (t.rd pgPWR COMMON.INT_CAUSE_CAUSE) 0 = true ∧
      ((∀ (q : Nat) (f : Fld) (i : Nat), 0x100 ≤ f.at_ i → f.at_ i < 0x10000 → f.lo < 32 → q ≠ pgCRWN → q ≠ pgOBS → q ≠ pgLOG → q ≠ pgPCE → (q = pgPWR → f.at_ i ≠ 0x228) → t.rd q f i = s.rd q f i)) ∧
      t.toMgmtState = { s.toMgmtState with shadowDue := t.shadowDue } ∧
      t.toHostState = { s.toHostState with fns := t.fns } ∧
      t.toBandState = s.toBandState ∧
      t.toLineState = s.toLineState ∧
      t.toPipeState = s.toPipeState ∧
      t.toQdState = s.toQdState ∧
      t.nt = s.nt)

/-- On a framing unit in power: an accepted client-entry write sets the entry; a calendar switch that nothing refuses becomes
pending with its new calendar; the overhead frame after the trigger sends C and the one after that completes the switch with cause
2; received overhead sets the lock, mismatch and skew status; a CA naming the new calendar lets the switch go on; a CA timeout
abandons it; a CR is recorded and, with CA_AUTO, owed an answer; a received change of C moves the receive calendar. Band,
pipelines, queueing die and network time stay. Rules followed: R183, R184, R190, R191, R192, R193, R194, R195, R196, R197. -/
def Obligations.FlexeClients : Prop :=
  (∀ (s : State) (lfu entry value : Nat),
    lfu < 16 →
    s.live (pgLFU lfu) = true →
    entry < 64 →
    s.entryNamed lfu entry = false →
    (bit value 0 && s.clientRefused lfu entry value) = false →
    ∃ t, exec (.lfuClientWrite lfu entry value) s = .next t ∧
      t.rd (pgLFU lfu) LFU.CLIENT_VALID entry = bits value 0 1 ∧
      t.rd (pgLFU lfu) LFU.CLIENT_KIND entry = bits value 1 1 ∧
      t.rd (pgLFU lfu) LFU.CLIENT_TERMINATE entry = bits value 2 1 ∧
      t.rd (pgLFU lfu) LFU.CLIENT_PORT entry = bits value 8 8 ∧
      t.rd (pgLFU lfu) LFU.CLIENT_CLIENT_ID entry = bits value 16 16 ∧
      t.lfus = s.lfus ∧
      t.toBandState = s.toBandState ∧
      t.toPipeState = s.toPipeState ∧
      t.toQdState = s.toQdState ∧
      t.toMgmtState = s.toMgmtState ∧
      t.nt = s.nt) ∧
  (∀ (s : State) (lfu : Nat),
    lfu < 16 →
    s.live (pgLFU lfu) = true →
    s.on (pgLFU lfu) LFU.SWITCH_STS_FLEXE_PENDING = false →
    s.calBad lfu (txCal (1 - s.rd (pgLFU lfu) LFU.SWITCH_STS_FLEXE_TX_CAL)) = false →
    ∃ t, exec (.flexeSwitchTrigger lfu) s = .next t ∧
      t.rd (pgLFU lfu) LFU.SWITCH_STS_FLEXE_PENDING = 1 ∧
      (t.lfu lfu).phase = (if s.on (pgLFU lfu) LFU.FLEXE_CTL_CR_CA_EN then 3 else 1) ∧
      (t.lfu lfu).newCal = 1 - s.rd (pgLFU lfu) LFU.SWITCH_STS_FLEXE_TX_CAL ∧
      t.rd (pgLFU lfu) LFU.SWITCH_STS_FLEXE_TX_CAL = s.rd (pgLFU lfu) LFU.SWITCH_STS_FLEXE_TX_CAL ∧
      t.toBandState = s.toBandState ∧
      t.toPipeState = s.toPipeState ∧
      t.toQdState = s.toQdState ∧
      t.toMgmtState = s.toMgmtState ∧
      t.nt = s.nt ∧
      t.toHostState = s.toHostState) ∧
  (∀ (s : State) (lfu : Nat),
    lfu < 16 →
    s.live (pgLFU lfu) = true →
    s.on (pgLFU lfu) LFU.LFU_CFG_FLEXE_EN = true →
    (s.lfu lfu).phase = 1 →
    (s.lfu lfu).caOwed = none →
    ∃ t, exec (.flexeOhFrame lfu) s = .next t ∧
      t.rd (pgLFU lfu) LFU.FLEXE_OH_TX_C = (s.lfu lfu).newCal % 2 ∧
      (t.lfu lfu).phase = 2 ∧
      t.rd (pgLFU lfu) LFU.SWITCH_STS_FLEXE_TX_CAL = s.rd (pgLFU lfu) LFU.SWITCH_STS_FLEXE_TX_CAL ∧
      t.toBandState = s.toBandState ∧
      t.toPipeState = s.toPipeState ∧
      t.toQdState = s.toQdState ∧
      t.toMgmtState = s.toMgmtState ∧
      t.nt = s.nt ∧
      t.toHostState = s.toHostState) ∧
  (∀ (s : State) (lfu : Nat),
    lfu < 16 →
    s.live (pgLFU lfu) = true →
    s.on (pgLFU lfu) LFU.LFU_CFG_FLEXE_EN = true →
    (s.lfu lfu).phase = 2 →
    (s.lfu lfu).caOwed = none →
    ∃ t, exec (.flexeOhFrame lfu) s = .next t ∧
      t.rd (pgLFU lfu) LFU.SWITCH_STS_FLEXE_TX_CAL = (s.lfu lfu).newCal % 2 ∧
      t.rd (pgLFU lfu) LFU.SWITCH_STS_FLEXE_PENDING = 0 ∧
      (t.lfu lfu).phase = 0 ∧
      bit (t.rd (pgLFU lfu) COMMON.INT_CAUSE_CAUSE) 2 = true ∧
      t.toBandState = s.toBandState ∧
      t.toPipeState = s.toPipeState ∧
      t.toQdState = s.toQdState ∧
      t.nt = s.nt) ∧
  (∀ (s : State) (lfu : Nat) (phys : List FlexePhy) (calA calB : List Nat) (rpf : Bool) (skew crcErrs idleIns idleDel : Nat) (oh : FlexeOh),
    lfu < 16 →
    s.live (pgLFU lfu) = true →
    s.on (pgLFU lfu) LFU.LFU_CFG_FLEXE_EN = true →
    oh = ⟨phys, calA, calB, rpf, skew, crcErrs, idleIns, idleDel⟩ →
    ∃ t, exec (.flexeOhReceive lfu phys calA calB rpf skew crcErrs idleIns idleDel) s = .next t ∧
      t.rd (pgLFU lfu) LFU.FLEXE_STS_GID_MISMATCH = b2n (!s.members lfu oh fun x => decide (x.group = s.rd (pgLFU lfu) LFU.FLEXE_GRP_GROUP_NUM)) ∧
      t.rd (pgLFU lfu) LFU.FLEXE_STS_PHYMAP_MISMATCH = b2n (!s.members lfu oh (s.phyOk lfu)) ∧
      t.rd (pgLFU lfu) LFU.FLEXE_STS_CAL_MISMATCH = b2n (!s.calAgrees lfu oh) ∧
      t.rd (pgLFU lfu) LFU.FLEXE_STS_RPF = b2n rpf ∧
      t.rd (pgLFU lfu) LFU.FLEXE_STS_SKEW_FAIL = b2n (!decide (skew ≤ 1000)) ∧
      t.rd (pgLFU lfu) LFU.FLEXE_SKEW_SKEW_NS = min skew 2047 % 2 ^ 11 ∧
      t.toBandState = s.toBandState ∧
      t.toPipeState = s.toPipeState ∧
      t.toQdState = s.toQdState ∧
      t.nt = s.nt) ∧
  (∀ (s : State) (lfu cal : Nat),
    lfu < 16 →
    s.live (pgLFU lfu) = true →
    (s.lfu lfu).phase = 4 →
    cal % 2 = (s.lfu lfu).newCal →
    ∃ t, exec (.flexeCaReceive lfu cal) s = .next t ∧
      t.rd (pgLFU lfu) LFU.FLEXE_OH_RX_CA = cal % 2 ∧
      (t.lfu lfu).phase = 1 ∧
      (t.lfu lfu).newCal = (s.lfu lfu).newCal ∧
      t.toBandState = s.toBandState ∧
      t.toPipeState = s.toPipeState ∧
      t.toQdState = s.toQdState ∧
      t.toMgmtState = s.toMgmtState ∧
      t.nt = s.nt ∧
      t.toHostState = s.toHostState) ∧
  (∀ (s : State) (lfu : Nat),
    lfu < 16 →
    s.live (pgLFU lfu) = true →
    (s.lfu lfu).phase = 4 →
    (s.lfu lfu).caFrom + ticksMs (s.rd (pgLFU lfu) LFU.FLEXE_CTL_CA_TIMEOUT_MS) ≤ s.ticks →
    ∃ t, exec (.flexeCaTimeout lfu) s = .next t ∧
      t.rd (pgLFU lfu) LFU.SWITCH_STS_FLEXE_PENDING = 0 ∧
      (t.lfu lfu).phase = 0 ∧
      t.rd (pgLFU lfu) LFU.SW_REFUSED_COUNT = (s.rd (pgLFU lfu) LFU.SW_REFUSED_COUNT + 1) % 2 ^ LFU.SW_REFUSED_COUNT.w ∧
      t.toBandState = s.toBandState ∧
      t.toPipeState = s.toPipeState ∧
      t.toQdState = s.toQdState ∧
      t.nt = s.nt) ∧
  (∀ (s : State) (lfu cal : Nat),
    lfu < 16 →
    s.live (pgLFU lfu) = true →
    s.on (pgLFU lfu) LFU.FLEXE_CTL_CA_AUTO = true →
    ∃ t, exec (.flexeCrReceive lfu cal) s = .next t ∧
      t.rd (pgLFU lfu) LFU.FLEXE_OH_RX_CR = cal % 2 ∧
      (t.lfu lfu).caOwed = some (cal % 2) ∧
      (t.lfu lfu).phase = (s.lfu lfu).phase ∧
      t.toBandState = s.toBandState ∧
      t.toPipeState = s.toPipeState ∧
      t.toQdState = s.toQdState ∧
      t.toMgmtState = s.toMgmtState ∧
      t.nt = s.nt ∧
      t.toHostState = s.toHostState) ∧
  (∀ (s : State) (lfu cal : Nat),
    lfu < 16 →
    s.live (pgLFU lfu) = true →
    s.rd (pgLFU lfu) LFU.SWITCH_STS_FLEXE_RX_CAL ≠ cal % 2 →
    ∃ t, exec (.flexeRxCChange lfu cal) s = .next t ∧
      t.rd (pgLFU lfu) LFU.SWITCH_STS_FLEXE_RX_CAL = cal % 2 ∧
      t.rd (pgLFU lfu) LFU.FLEXE_OH_RX_C = cal % 2 ∧
      t.lfus = s.lfus ∧
      t.toBandState = s.toBandState ∧
      t.toPipeState = s.toPipeState ∧
      t.toQdState = s.toQdState ∧
      t.toMgmtState = s.toMgmtState ∧
      t.nt = s.nt)

/-- On a framing unit in power: an accepted OTN_EN starts the framer with every slice out of frame; a map switch that nothing
refuses becomes pending in both directions; each direction turns to the other map in its turn and the last of them completes the
switch; a frame of a slice in frame with its FAS at the locked offset keeps it in frame with the misses cleared; a lasting loss of
frame is declared and, once in frame again, cleared. Rules followed: R199, R204, R205, R209, R210, R211. -/
def Obligations.OtnFramer : Prop :=
  (∀ (s : State) (lfu : Nat),
    lfu < 16 →
    s.live (pgLFU lfu) = true →
    lfu % 2 = 0 →
    s.on (pgLFU lfu) LFU.LFU_CFG_OTN_EN = false →
    s.otnFits lfu = true →
    ∃ t, exec (.otnEnable lfu) s = .next t ∧
      t.rd (pgLFU lfu) LFU.LFU_CFG_OTN_EN = 1 ∧
      t.rd (pgLFU lfu) LFU.OTN_STS_OOF = 1 ∧
      t.rd (pgLFU lfu) LFU.OTN_SLICE_OOF_OOF = (2 ^ s.rd (pgLFU lfu) LFU.OTN_CFG_N - 1) % 2 ^ 16 ∧
      (t.lfu lfu).slices = [] ∧
      t.toBandState = s.toBandState ∧
      t.toPipeState = s.toPipeState ∧
      t.toQdState = s.toQdState ∧
      t.toHostState = s.toHostState ∧
      t.toMgmtState = s.toMgmtState ∧
      t.nt = s.nt) ∧
  (∀ (s : State) (lfu : Nat),
    lfu < 16 →
    s.live (pgLFU lfu) = true →
    lfu % 2 = 0 →
    s.on (pgLFU lfu) LFU.PROT_CTL_EN = false →
    ((lfu % 4 = 2 → s.on (pgLFU (lfu - 2)) LFU.PROT_CTL_EN = false)) →
    s.on (pgLFU lfu) LFU.SWITCH_STS_OTN_PENDING = false →
    s.mapBad lfu (s.standbyMap lfu) = false →
    ∃ t, exec (.otnSwitchTrigger lfu) s = .next t ∧
      t.rd (pgLFU lfu) LFU.SWITCH_STS_OTN_PENDING = 1 ∧
      (t.lfu lfu).txDue = true ∧
      (t.lfu lfu).rxDue = true ∧
      t.toBandState = s.toBandState ∧
      t.toPipeState = s.toPipeState ∧
      t.toQdState = s.toQdState ∧
      t.toHostState = s.toHostState ∧
      t.toMgmtState = s.toMgmtState ∧
      t.nt = s.nt) ∧
  (∀ (s : State) (lfu : Nat),
    lfu < 16 →
    s.live (pgLFU lfu) = true →
    (s.lfu lfu).txDue = true →
    (s.lfu lfu).rxDue = true →
    ∃ t, exec (.otnTxMapSwitch lfu) s = .next t ∧
      t.rd (pgLFU lfu) LFU.SWITCH_STS_OTN_TX_MAP = (1 - s.rd (pgLFU lfu) LFU.SWITCH_STS_OTN_TX_MAP) % 2 ∧
      (t.lfu lfu).txDue = false ∧
      (t.lfu lfu).rxDue = true ∧
      t.rd (pgLFU lfu) LFU.SWITCH_STS_OTN_PENDING = s.rd (pgLFU lfu) LFU.SWITCH_STS_OTN_PENDING ∧
      t.toBandState = s.toBandState ∧
      t.toPipeState = s.toPipeState ∧
      t.toQdState = s.toQdState ∧
      t.toMgmtState = s.toMgmtState ∧
      t.nt = s.nt) ∧
  (∀ (s : State) (lfu : Nat),
    lfu < 16 →
    s.live (pgLFU lfu) = true →
    (s.lfu lfu).rxDue = true →
    (s.lfu lfu).txDue = false →
    ∃ t, exec (.otnRxMapSwitch lfu) s = .next t ∧
      t.rd (pgLFU lfu) LFU.SWITCH_STS_OTN_RX_MAP = (1 - s.rd (pgLFU lfu) LFU.SWITCH_STS_OTN_RX_MAP) % 2 ∧
      (t.lfu lfu).rxDue = false ∧
      t.rd (pgLFU lfu) LFU.SWITCH_STS_OTN_PENDING = 0 ∧
      t.toBandState = s.toBandState ∧
      t.toPipeState = s.toPipeState ∧
      t.toQdState = s.toQdState ∧
      t.nt = s.nt) ∧
  (∀ (s : State) (lfu slice : Nat) (hits : List (Nat × Nat)) (oh : OtnOh) (m : Nat),
    lfu < 16 →
    s.live (pgLFU lfu) = true →
    lfu % 2 = 0 →
    s.on (pgLFU lfu) LFU.LFU_CFG_OTN_EN = true →
    slice < s.rd (pgLFU lfu) LFU.OTN_CFG_N →
    (tgetD (s.lfu lfu).slices slice {}).inFrame = true →
    hitAt hits (tgetD (s.lfu lfu).slices slice {}).locked = some m →
    ∃ t, exec (.otnFrame lfu slice hits oh) s = .next t ∧
      (tgetD (t.lfu lfu).slices slice {}).inFrame = true ∧
      (tgetD (t.lfu lfu).slices slice {}).misses = 0 ∧
      (tgetD (t.lfu lfu).slices slice {}).mfas = m ∧
      t.toBandState = s.toBandState ∧
      t.toPipeState = s.toPipeState ∧
      t.toQdState = s.toQdState ∧
      t.nt = s.nt) ∧
  (∀ (s : State) (lfu : Nat),
    lfu < 16 →
    s.live (pgLFU lfu) = true →
    lfu % 2 = 0 →
    s.on (pgLFU lfu) LFU.LFU_CFG_OTN_EN = true →
    s.on (pgLFU lfu) LFU.OTN_STS_OOF = true →
    s.on (pgLFU lfu) LFU.OTN_STS_LOF = false →
    s.lofPassed lfu (s.lfu lfu).oofAt = true →
    ∃ t, exec (.otnLofDeclare lfu) s = .next t ∧
      t.rd (pgLFU lfu) LFU.OTN_STS_LOF = 1 ∧
      bit (t.rd (pgLFU lfu) COMMON.INT_CAUSE_CAUSE) 3 = true ∧
      t.toBandState = s.toBandState ∧
      t.toPipeState = s.toPipeState ∧
      t.toQdState = s.toQdState ∧
      t.nt = s.nt) ∧
  (∀ (s : State) (lfu : Nat),
    lfu < 16 →
    s.live (pgLFU lfu) = true →
    lfu % 2 = 0 →
    s.on (pgLFU lfu) LFU.OTN_STS_OOF = false →
    s.on (pgLFU lfu) LFU.OTN_STS_OOM = false →
    s.lofPassed lfu (s.lfu lfu).oofAt = true →
    ∃ t, exec (.otnLofClear lfu) s = .next t ∧
      t.rd (pgLFU lfu) LFU.OTN_STS_LOF = 0 ∧
      t.rd (pgLFU lfu) LFU.OTN_STS_LOM = 0 ∧
      t.toBandState = s.toBandState ∧
      t.toPipeState = s.toPipeState ∧
      t.toQdState = s.toQdState ∧
      t.nt = s.nt)

/-- On a framing unit in power, with protection enabled where the request logic is asked: the lockout command stays in force and
is the local request sent; SF of the working framer after its hold-off enters the request logic; wait-to-restore ends at its
expiry; 50 ms of disagreement set PROT_FAIL and cause 7. Each of the three latches copies the eight running counters, advances
SEQ, records the second, sets VALID and cause 12 and starts the counters again at 0, with PARTIAL for a commanded one and
NT_INVALID while network time is not valid. Rules followed: R216, R217, R219, R220, R221, R222. -/
def Obligations.ProtectionAndPerformance : Prop :=
  (∀ (s : State) (lfu : Nat),
    lfu < 16 →
    s.live (pgLFU lfu) = true →
    lfu % 4 = 0 →
    s.on (pgLFU lfu) LFU.PROT_CTL_EN = true →
    ∃ t, exec (.protCommand lfu 2) s = .next t ∧
      t.rd (pgLFU lfu) LFU.PROT_STS_LOCAL_REQ = 15 ∧
      (t.lfu lfu).cmd = 2 ∧
      t.toBandState = s.toBandState ∧
      t.toPipeState = s.toPipeState ∧
      t.toQdState = s.toQdState ∧
      t.nt = s.nt) ∧
  (∀ (s : State) (lfu : Nat),
    lfu < 16 →
    s.live (pgLFU lfu) = true →
    lfu % 4 = 0 →
    s.on (pgLFU lfu) LFU.OTN_STS_SF = true →
    (s.lfu lfu).heldFrom.getD 0 0 + ticksMs (100 * s.rd (pgLFU lfu) LFU.PROT_CTL_HOLDOFF) ≤ s.ticks →
    ∃ t, exec (.protHoldoffExpiry lfu 0) s = .next t ∧
      t.rd (pgLFU lfu) LFU.PROT_STS_SF_W = 1 ∧
      t.toBandState = s.toBandState ∧
      t.toPipeState = s.toPipeState ∧
      t.toQdState = s.toQdState ∧
      t.nt = s.nt) ∧
  (∀ (s : State) (lfu : Nat),
    lfu < 16 →
    s.live (pgLFU lfu) = true →
    lfu % 4 = 0 →
    s.on (pgLFU lfu) LFU.PROT_STS_WTR_RUN = true →
    (s.lfu lfu).wtrFrom + ticksMs (60000 * s.rd (pgLFU lfu) LFU.PROT_CTL_WTR_MIN) ≤ s.ticks →
    ∃ t, exec (.protWtrExpiry lfu) s = .next t ∧
      t.rd (pgLFU lfu) LFU.PROT_STS_WTR_RUN = 0 ∧
      t.toBandState = s.toBandState ∧
      t.toPipeState = s.toPipeState ∧
      t.toQdState = s.toQdState ∧
      t.nt = s.nt) ∧
  (∀ (s : State) (lfu : Nat),
    lfu < 16 →
    s.live (pgLFU lfu) = true →
    lfu % 4 = 0 →
    s.on (pgLFU lfu) LFU.PROT_CTL_EN = true →
    s.disagreeLong lfu = true →
    ∃ t, exec (.protFailTimeout lfu) s = .next t ∧
      t.rd (pgLFU lfu) LFU.PROT_STS_PROT_FAIL = 1 ∧
      bit (t.rd (pgLFU lfu) COMMON.INT_CAUSE_CAUSE) 7 = true ∧
      t.toBandState = s.toBandState ∧
      t.toLineState = s.toLineState ∧
      t.toPipeState = s.toPipeState ∧
      t.toQdState = s.toQdState ∧
      t.nt = s.nt) ∧
  (∀ (s : State) (n lfu : Nat),
    lfu < 16 →
    s.live (pgLFU lfu) = true →
    s.on (pgLFU lfu) LFU.PM_CTL_AUTO_SEC = true →
    s.on pgNTM NTM.NTM_STS_VALID = true →
    s.secondWraps = true →
    (s.lfu lfu).secAt ≠ some s.nt.sec →
    n < 8 →
    ∃ t, exec (.pmSecondLatch lfu) s = .next t ∧
      t.rd (pgLFU lfu) LFU.PM_CNT n = (s.lfu lfu).run.getD n 0 % 2 ^ 64 ∧
      t.rd (pgLFU lfu) LFU.PM_STS_SEQ = (s.rd (pgLFU lfu) LFU.PM_STS_SEQ + 1) % 2 ^ 16 ∧
      t.rd (pgLFU lfu) LFU.PM_SEC_SEC = s.nt.sec % 2 ^ 32 ∧
      t.rd (pgLFU lfu) LFU.PM_STS_PARTIAL = 0 ∧
      t.rd (pgLFU lfu) LFU.PM_STS_NT_INVALID = b2n (!s.on pgNTM NTM.NTM_STS_VALID) ∧
      t.rd (pgLFU lfu) LFU.PM_STS_VALID = 1 ∧
      (t.lfu lfu).run = [0, 0, 0, 0, 0, 0, 0, 0] ∧
      bit (t.rd (pgLFU lfu) COMMON.INT_CAUSE_CAUSE) 12 = true ∧
      t.toBandState = s.toBandState ∧
      t.toPipeState = s.toPipeState ∧
      t.toQdState = s.toQdState ∧
      t.nt = s.nt) ∧
  (∀ (s : State) (n lfu : Nat),
    lfu < 16 →
    s.live (pgLFU lfu) = true →
    n < 8 →
    ∃ t, exec (.pmLatch lfu) s = .next t ∧
      t.rd (pgLFU lfu) LFU.PM_CNT n = (s.lfu lfu).run.getD n 0 % 2 ^ 64 ∧
      t.rd (pgLFU lfu) LFU.PM_STS_SEQ = (s.rd (pgLFU lfu) LFU.PM_STS_SEQ + 1) % 2 ^ 16 ∧
      t.rd (pgLFU lfu) LFU.PM_SEC_SEC = s.nt.sec % 2 ^ 32 ∧
      t.rd (pgLFU lfu) LFU.PM_STS_PARTIAL = 1 ∧
      t.rd (pgLFU lfu) LFU.PM_STS_NT_INVALID = b2n (!s.on pgNTM NTM.NTM_STS_VALID) ∧
      t.rd (pgLFU lfu) LFU.PM_STS_VALID = 1 ∧
      (t.lfu lfu).run = [0, 0, 0, 0, 0, 0, 0, 0] ∧
      bit (t.rd (pgLFU lfu) COMMON.INT_CAUSE_CAUSE) 12 = true ∧
      t.toBandState = s.toBandState ∧
      t.toPipeState = s.toPipeState ∧
      t.toQdState = s.toQdState ∧
      t.nt = s.nt) ∧
  (∀ (s : State) (n lfu : Nat),
    lfu < 16 →
    s.live (pgLFU lfu) = true →
    s.on pgNTM NTM.NTM_STS_VALID = false →
    (s.lfu lfu).latchAt + ticksMs 1000 ≤ s.ticks →
    n < 8 →
    ∃ t, exec (.pmLatchFreeRun lfu) s = .next t ∧
      t.rd (pgLFU lfu) LFU.PM_CNT n = (s.lfu lfu).run.getD n 0 % 2 ^ 64 ∧
      t.rd (pgLFU lfu) LFU.PM_STS_SEQ = (s.rd (pgLFU lfu) LFU.PM_STS_SEQ + 1) % 2 ^ 16 ∧
      t.rd (pgLFU lfu) LFU.PM_SEC_SEC = s.nt.sec % 2 ^ 32 ∧
      t.rd (pgLFU lfu) LFU.PM_STS_PARTIAL = 0 ∧
      t.rd (pgLFU lfu) LFU.PM_STS_NT_INVALID = b2n (!s.on pgNTM NTM.NTM_STS_VALID) ∧
      t.rd (pgLFU lfu) LFU.PM_STS_VALID = 1 ∧
      (t.lfu lfu).run = [0, 0, 0, 0, 0, 0, 0, 0] ∧
      bit (t.rd (pgLFU lfu) COMMON.INT_CAUSE_CAUSE) 12 = true ∧
      t.toBandState = s.toBandState ∧
      t.toPipeState = s.toPipeState ∧
      t.toQdState = s.toQdState ∧
      t.nt = s.nt)

/-- With their page on: a template commit writes the sixteen staged words, masked, into the template and reads and invalidation do
the same for their part; a classifier insert over an equal entry replaces it in both copies, a delete removes it from both, a read
leaves both; a long insert pauses copy 0 first and then copy 1, each on its ten pipelines for at most 960 timing clocks, with both
copies as they were; at the end of a pause (State.clsPauseOver, run by the clock) its copy holds the path, and after the second
the insert is done; an abort before the first move ends it ABORTED with both copies as they were; a pattern write stores the
staged pattern; late aborts are marked. Each result carries its tag, status and VALID. Rules followed: R238, R252, R253, R254,
R256, R257, R263, R266, R267, R268, R64. -/
def Obligations.ParserClassifierPatterns : Prop :=
  (∀ (s : State) (index tag w : Nat),
    s.live pgPRS = true →
    w < 16 →
    s.tplBad = false →
    ∃ t, exec (.tplCommit index tag) s = .next t ∧
      t.rd pgPRS PRS.TEMPLATE (16 * (index % 128) + w) = andBits (s.rd pgPRS PRS.TPL_STAGE_WORD w) (tplMask w) % 2 ^ 32 ∧
      t.rd pgPRS PRS.TPL_RES.status = 1 ∧
      t.rd pgPRS PRS.TPL_RES.tag = tag % 256 ∧
      t.rd pgPRS PRS.TPL_RES.valid = 1 ∧
      t.toBandState = s.toBandState ∧
      t.toLineState = s.toLineState ∧
      t.toQdState = s.toQdState ∧
      t.toHostState = s.toHostState ∧
      t.toMgmtState = s.toMgmtState ∧
      t.nt = s.nt ∧
      t.toPipeState = s.toPipeState) ∧
  (∀ (s : State) (index tag w : Nat),
    s.live pgPRS = true →
    w < 16 →
    ∃ t, exec (.tplRead index tag) s = .next t ∧
      t.rd pgPRS PRS.TPL_STAGE_WORD w = s.tplWord (index % 128) w % 2 ^ 32 ∧
      t.rd pgPRS PRS.TPL_RES.status = 1 ∧
      t.rd pgPRS PRS.TPL_RES.tag = tag % 256 ∧
      t.rd pgPRS PRS.TPL_RES.valid = 1 ∧
      t.toBandState = s.toBandState ∧
      t.toLineState = s.toLineState ∧
      t.toQdState = s.toQdState ∧
      t.toHostState = s.toHostState ∧
      t.toMgmtState = s.toMgmtState ∧
      t.nt = s.nt ∧
      t.toPipeState = s.toPipeState) ∧
  (∀ (s : State) (index tag : Nat),
    s.live pgPRS = true →
    ∃ t, exec (.tplInvalidate index tag) s = .next t ∧
      t.rd pgPRS PRS.TEMPLATE (16 * (index % 128) + 1) = clrBit (s.tplWord (index % 128) 1) 31 % 2 ^ 32 ∧
      t.rd pgPRS PRS.TPL_RES.status = 1 ∧
      t.rd pgPRS PRS.TPL_RES.tag = tag % 256 ∧
      t.rd pgPRS PRS.TPL_RES.valid = 1 ∧
      t.toBandState = s.toBandState ∧
      t.toLineState = s.toLineState ∧
      t.toQdState = s.toQdState ∧
      t.toHostState = s.toHostState ∧
      t.toMgmtState = s.toMgmtState ∧
      t.nt = s.nt ∧
      t.toPipeState = s.toPipeState) ∧
  (∀ (s : State) (profile tag q : Nat) (e : ClsEntry),
    s.live pgCLS = true →
    s.clsRun = none →
    s.on pgCLS CLS.PROF_CFG_VALID (profile % 16) = true →
    s.clsFind s.cls0 (profile % 16) (s.clsCmdKey (profile % 16)) = some (q, e) →
    ∃ t, exec (.clsInsert profile true tag) s = .next t ∧
      t.cls0 = tset s.cls0 q { prof := profile % 16, key := s.clsCmdKey (profile % 16), act := (List.range 4).map fun k => s.rd pgCLS CLS.CMD_ACT_ACT k } ∧
      t.cls1 = t.cls0 ∧
      t.rd pgCLS CLS.CLS_RES.status = 1 ∧
      t.rd pgCLS CLS.CLS_RES.tag = tag % 256 ∧
      t.rd pgCLS CLS.CLS_RES.valid = 1 ∧
      t.toBandState = s.toBandState ∧
      t.toLineState = s.toLineState ∧
      t.toQdState = s.toQdState ∧
      t.toHostState = s.toHostState ∧
      t.toMgmtState = s.toMgmtState ∧
      t.nt = s.nt) ∧
  (∀ (s : State) (profile tag q : Nat) (e : ClsEntry),
    s.live pgCLS = true →
    s.clsRun = none →
    s.on pgCLS CLS.PROF_CFG_VALID (profile % 16) = true →
    s.clsFind s.cls0 (profile % 16) (s.clsCmdKey (profile % 16)) = some (q, e) →
    ∃ t, exec (.clsDelete profile tag) s = .next t ∧
      t.cls0 = tdel s.cls0 q ∧
      t.cls1 = t.cls0 ∧
      t.rd pgCLS CLS.CLS_RES.status = 1 ∧
      t.rd pgCLS CLS.CLS_RES.tag = tag % 256 ∧
      t.rd pgCLS CLS.CLS_RES.valid = 1 ∧
      t.toBandState = s.toBandState ∧
      t.toLineState = s.toLineState ∧
      t.toQdState = s.toQdState ∧
      t.toHostState = s.toHostState ∧
      t.toMgmtState = s.toMgmtState ∧
      t.nt = s.nt) ∧
  (∀ (s : State) (profile tag q : Nat) (e : ClsEntry),
    s.live pgCLS = true →
    s.clsRun = none →
    s.on pgCLS CLS.PROF_CFG_VALID (profile % 16) = true →
    s.clsFind s.cls0 (profile % 16) (s.clsCmdKey (profile % 16)) = some (q, e) →
    ∃ t, exec (.clsRead profile tag) s = .next t ∧
      t.rd pgCLS CLS.CLS_RES.status = 1 ∧
      t.rd pgCLS CLS.CLS_RES.tag = tag % 256 ∧
      t.rd pgCLS CLS.CLS_RES.valid = 1 ∧
      t.toBandState = s.toBandState ∧
      t.toLineState = s.toLineState ∧
      t.toQdState = s.toQdState ∧
      t.toHostState = s.toHostState ∧
      t.toMgmtState = s.toMgmtState ∧
      t.nt = s.nt ∧
      t.toPipeState = s.toPipeState) ∧
  (∀ (s : State) (r : ClsRun) (k : Nat),
    s.clsRun = some r →
    s.live pgCLS = true →
    s.clsMayPause = true →
    s.clsPauseEnd = none →
    r.first = false →
    k < 10 →
    ∃ t, exec (.clsPause) s = .next t ∧
      t.rd pgCLS CLS.CLS_STS_PAUSED_C0 = 1 ∧
      t.rd (pgIPP (k)) IPP.IPP_STS_PAUSED = 1 ∧
      t.rd pgCLS CLS.CLS_STS_WAIT_SPACING = 0 ∧
      t.clsPauseEnd = some (s.ticks + 1 + Config.freeValue s.free % 2 ^ 10 % 960) ∧
      t.clsRun = some r ∧
      t.cls0 = s.cls0 ∧
      t.cls1 = s.cls1 ∧
      t.toBandState = s.toBandState ∧
      t.toLineState = s.toLineState ∧
      t.toQdState = s.toQdState ∧
      t.nt = s.nt) ∧
  (∀ (s : State) (r : ClsRun) (k : Nat),
    s.clsRun = some r →
    s.live pgCLS = true →
    s.clsMayPause = true →
    s.clsPauseEnd = none →
    r.first = true →
    k < 10 →
    ∃ t, exec (.clsPause) s = .next t ∧
      t.rd pgCLS CLS.CLS_STS_PAUSED_C1 = 1 ∧
      t.rd (pgIPP (10 + k)) IPP.IPP_STS_PAUSED = 1 ∧
      t.rd pgCLS CLS.CLS_STS_WAIT_SPACING = 0 ∧
      t.clsPauseEnd = some (s.ticks + 1 + Config.freeValue s.free % 2 ^ 10 % 960) ∧
      t.clsRun = some r ∧
      t.cls0 = s.cls0 ∧
      t.cls1 = s.cls1 ∧
      t.toBandState = s.toBandState ∧
      t.toLineState = s.toLineState ∧
      t.toQdState = s.toQdState ∧
      t.nt = s.nt) ∧
  (∀ (s : State) (r : ClsRun),
    r.first = false →
    (s.clsPauseOver r).cls0 = r.result ∧
    (s.clsPauseOver r).cls1 = s.cls1 ∧
    (s.clsPauseOver r).clsRun = some { r with first := true } ∧
    (s.clsPauseOver r).clsPaused = some s.ticks ∧
    (s.clsPauseOver r).clsPauseEnd = none ∧
    (s.clsPauseOver r).rd pgCLS CLS.CLS_STS_PAUSED_C0 = 0 ∧
    (s.clsPauseOver r).toBandState = s.toBandState ∧
    (s.clsPauseOver r).toLineState = s.toLineState ∧
    (s.clsPauseOver r).toQdState = s.toQdState ∧
    (s.clsPauseOver r).nt = s.nt) ∧
  (∀ (s : State) (r : ClsRun),
    r.first = true →
    (s.clsPauseOver r).cls0 = r.result ∧
    (s.clsPauseOver r).cls1 = r.result ∧
    (s.clsPauseOver r).clsRun = none ∧
    (s.clsPauseOver r).rd pgCLS CLS.CLS_RES.status = 1 ∧
    (s.clsPauseOver r).rd pgCLS CLS.CLS_RES.tag = r.tag % 256 ∧
    (s.clsPauseOver r).toBandState = s.toBandState ∧
    (s.clsPauseOver r).toLineState = s.toLineState ∧
    (s.clsPauseOver r).toQdState = s.toQdState ∧
    (s.clsPauseOver r).nt = s.nt) ∧
  (∀ (s : State) (tag : Nat) (r : ClsRun),
    s.live pgCLS = true →
    s.clsRun = some r →
    r.first = false →
    ∃ t, exec (.clsAbort tag) s = .next t ∧
      t.clsRun = none ∧
      t.cls0 = s.cls0 ∧
      t.cls1 = s.cls1 ∧
      t.rd pgCLS CLS.CLS_RES.status = 2 ∧
      t.rd pgCLS CLS.CLS_RES.tag = r.tag % 256 ∧
      t.toBandState = s.toBandState ∧
      t.toLineState = s.toLineState ∧
      t.toQdState = s.toQdState ∧
      t.toHostState = s.toHostState ∧
      t.toMgmtState = s.toMgmtState ∧
      t.nt = s.nt) ∧
  (∀ (s : State) (index tag : Nat),
    s.live pgPMM = true →
    ∃ t, exec (.patWrite index tag) s = .next t ∧
      tget t.pats (index % 2048) = some s.patStage ∧
      t.rd pgPMM PMM.PAT_RES.status = 1 ∧
      t.rd pgPMM PMM.PAT_RES.tag = tag % 256 ∧
      t.rd pgPMM PMM.PAT_RES.valid = 1 ∧
      t.toBandState = s.toBandState ∧
      t.toLineState = s.toLineState ∧
      t.toQdState = s.toQdState ∧
      t.toHostState = s.toHostState ∧
      t.toMgmtState = s.toMgmtState ∧
      t.nt = s.nt) ∧
  (∀ (s : State) (index tag : Nat),
    s.live pgPMM = true →
    ∃ t, exec (.patRead index tag) s = .next t ∧
      t.rd pgPMM PMM.PAT_VAL_VAL 0 = (tgetD s.pats (index % 2048) (List.replicate 18 0)).getD 0 0 % 2 ^ 32 ∧
      t.rd pgPMM PMM.PAT_MASK_MASK 7 = (tgetD s.pats (index % 2048) (List.replicate 18 0)).getD 15 0 % 2 ^ 32 ∧
      t.rd pgPMM PMM.PAT_RES.status = 1 ∧
      t.rd pgPMM PMM.PAT_RES.tag = tag % 256 ∧
      t.rd pgPMM PMM.PAT_RES.valid = 1 ∧
      t.toBandState = s.toBandState ∧
      t.toLineState = s.toLineState ∧
      t.toQdState = s.toQdState ∧
      t.toHostState = s.toHostState ∧
      t.toMgmtState = s.toMgmtState ∧
      t.nt = s.nt ∧
      t.toPipeState = s.toPipeState) ∧
  (∀ (s : State) (tag : Nat),
    s.live pgPMM = true →
    s.rd pgPMM PMM.PAT_RES.valid = 1 →
    s.rd pgPMM PMM.PAT_RES.status = 1 →
    ∃ t, exec (.patAbort tag) s = .next t ∧
      t.rd pgPMM PMM.PAT_RES.late = 1 ∧
      t.rd pgPMM PMM.PAT_RES.status = 1 ∧
      t.rd pgPMM PMM.PAT_RES.tag = s.rd pgPMM PMM.PAT_RES.tag ∧
      t.toBandState = s.toBandState ∧
      t.toLineState = s.toLineState ∧
      t.toQdState = s.toQdState ∧
      t.toHostState = s.toHostState ∧
      t.toMgmtState = s.toMgmtState ∧
      t.nt = s.nt ∧
      t.toPipeState = s.toPipeState)

/-- A doorbell adds its count to OUTSTANDING. On a ready ring, a good descriptor of each operation ends: HEAD advances,
OUTSTANDING falls. READ puts the rows as committed into host memory; WRITE, INSERT of a new key and DELETE of a present one change
their one on-die row and no other; SEARCH writes the row number at the descriptor; LOCK takes the row for its ring; UNLOCK stores
the staged words, UNLOCK_DISCARD drops them; EPOCH_COMMIT starts the next epoch. ABORT ends every outstanding descriptor and drops
the ring's waiting commits; disabling also clears EN and HEAD. Rules followed: R300, R301, R302, R303, R304, R306, R307, R309. -/
def Obligations.TableDma : Prop :=
  (∀ (s : State) (ring count tag : Nat),
    ring < 4 →
    s.live pgTDMA = true →
    s.rd pgTDMA TDMA.RING_STS_OUTSTANDING ring + count % 128 ≤ 64 →
    ∃ t, exec (.tdmaDoorbell ring count tag) s = .next t ∧
      t.rd pgTDMA TDMA.RING_STS_OUTSTANDING ring = s.rd pgTDMA TDMA.RING_STS_OUTSTANDING ring + count % 128 ∧
      t.rd pgTDMA TDMA.DB_RES.status ring = 1 ∧
      t.rd pgTDMA TDMA.DB_RES.tag ring = tag % 256 ∧
      t.rd pgTDMA TDMA.DB_RES.valid ring = 1 ∧
      t.toBandState = s.toBandState ∧
      t.toLineState = s.toLineState ∧
      t.toPipeState = s.toPipeState ∧
      t.toQdState = s.toQdState ∧
      t.toHostState = s.toHostState ∧
      t.toMgmtState = s.toMgmtState ∧
      t.hbm = s.hbm ∧
      t.nt = s.nt) ∧
  (∀ (s : State) (ring : Nat) (desc : List Nat) (span : List (Nat × Bool)),
    s.ringReady ring = true →
    desc ≠ [] →
    descBad desc = false →
    bits (desc.getD 0 0) 0 4 = 1 →
    s.rowSpan (bits (desc.getD 0 0) 4 5) (bits (desc.getD 1 0) 0 29) (bits (desc.getD 4 0) 0 7) = some span →
    (s.fnS 1).sends = true →
    ∃ t, exec (.tdmaRead ring desc) s = .next t ∧
      Out.hostWrite 1 (desc.getD 2 0 + desc.getD 3 0 * 2 ^ 32) (leWordsToBytes (span.flatMap fun x => s.rowShown (bits (desc.getD 0 0) 4 5) x.2 x.1 (s.rowNow (bits (desc.getD 0 0) 4 5) x.2 x.1))) false ∈ t.out ∧
      t.rd pgTDMA TDMA.RING_STS_HEAD ring = (s.rd pgTDMA TDMA.RING_STS_HEAD ring + 1) % 64 ∧
      t.rd pgTDMA TDMA.RING_STS_OUTSTANDING ring = (s.rd pgTDMA TDMA.RING_STS_OUTSTANDING ring - 1) % 128 ∧
      t.toBandState = s.toBandState ∧
      t.toLineState = s.toLineState ∧
      t.toQdState = s.toQdState ∧
      t.nt = s.nt ∧
      t.toPipeState = s.toPipeState) ∧
  (∀ (s : State) (ring : Nat) (desc img im : List Nat) (id row : Nat),
    s.ringReady ring = true →
    desc ≠ [] →
    descBad desc = false →
    bits (desc.getD 0 0) 0 4 = 2 →
    bits (desc.getD 0 0) 4 5 = id →
    bits (desc.getD 1 0) 0 29 = row →
    bits (desc.getD 4 0) 0 7 = 1 →
    bit (desc.getD 0 0) 9 = false →
    im = img.take (s.rowWords id) →
    bit (s.rowKey id false row) 33 = false →
    s.rowPlace id row = some false →
    bitmapOver id im = false →
    tget s.locks (s.rowKey id false row) = none →
    s.inOpen (s.rowKey id false row) = false →
    s.inBack (s.rowKey id false row) = false →
    ∃ t, exec (.tdmaWrite ring desc (some img)) s = .next t ∧
      tgetD t.rows (s.rowKey id false row) (s.rowBlank id) = s.rowStored id im ∧
      (∀ k, k ≠ s.rowKey id false row → tget t.rows k = tget s.rows k) ∧
      t.vstore = s.vstore ∧
      t.locks = s.locks ∧
      t.rd pgTDMA TDMA.RING_STS_HEAD ring = (s.rd pgTDMA TDMA.RING_STS_HEAD ring + 1) % 64 ∧
      t.rd pgTDMA TDMA.RING_STS_OUTSTANDING ring = (s.rd pgTDMA TDMA.RING_STS_OUTSTANDING ring - 1) % 128 ∧
      t.toBandState = s.toBandState ∧
      t.toLineState = s.toLineState ∧
      t.toQdState = s.toQdState ∧
      t.nt = s.nt) ∧
  (∀ (s : State) (ring : Nat) (desc img im : List Nat) (id row : Nat),
    s.ringReady ring = true →
    desc ≠ [] →
    descBad desc = false →
    bits (desc.getD 0 0) 0 4 = 3 →
    bits (desc.getD 0 0) 4 5 = id →
    bit (desc.getD 0 0) 9 = false →
    (s.planOf id (bits (desc.getD 4 0) 8 8) img).map (fun k => (k.hbm, k.image)) = some (false, im) →
    (s.planOf id (bits (desc.getD 4 0) 8 8) img).bind (fun k => k.find (s.planRead k false)) = none →
    (s.planOf id (bits (desc.getD 4 0) 8 8) img).bind (fun k => k.free fun r => s.rowUsed id (s.planRead k false r)) = some row →
    s.rd pgLPM LPM.PREFIX_CNT_COUNT < 25165824 →
    bit (s.rowKey id false row) 33 = false →
    bitmapOver id im = false →
    tget s.locks (s.rowKey id false row) = none →
    s.inOpen (s.rowKey id false row) = false →
    s.inBack (s.rowKey id false row) = false →
    ∃ t, exec (.tdmaInsert ring desc (some img)) s = .next t ∧
      tgetD t.rows (s.rowKey id false row) (s.rowBlank id) = s.rowStored id im ∧
      (∀ k, k ≠ s.rowKey id false row → tget t.rows k = tget s.rows k) ∧
      t.vstore = s.vstore ∧
      t.locks = s.locks ∧
      t.rd pgTDMA TDMA.RING_STS_HEAD ring = (s.rd pgTDMA TDMA.RING_STS_HEAD ring + 1) % 64 ∧
      t.rd pgTDMA TDMA.RING_STS_OUTSTANDING ring = (s.rd pgTDMA TDMA.RING_STS_OUTSTANDING ring - 1) % 128 ∧
      t.toBandState = s.toBandState ∧
      t.toLineState = s.toLineState ∧
      t.toQdState = s.toQdState ∧
      t.nt = s.nt) ∧
  (∀ (s : State) (ring : Nat) (desc img im : List Nat) (id row : Nat),
    s.ringReady ring = true →
    desc ≠ [] →
    descBad desc = false →
    bits (desc.getD 0 0) 0 4 = 4 →
    bits (desc.getD 0 0) 4 5 = id →
    bit (desc.getD 0 0) 9 = false →
    (s.planOf id (bits (desc.getD 4 0) 8 8) img).map (fun k => k.hbm) = some false →
    (s.planOf id (bits (desc.getD 4 0) 8 8) img).bind (fun k => k.find (s.planRead k false)) = some row →
    bit (s.rowKey id false row) 33 = false →
    im = s.rowBlank id →
    bitmapOver id im = false →
    tget s.locks (s.rowKey id false row) = none →
    s.inOpen (s.rowKey id false row) = false →
    s.inBack (s.rowKey id false row) = false →
    ∃ t, exec (.tdmaDelete ring desc (some img)) s = .next t ∧
      tgetD t.rows (s.rowKey id false row) (s.rowBlank id) = s.rowStored id im ∧
      (∀ k, k ≠ s.rowKey id false row → tget t.rows k = tget s.rows k) ∧
      t.vstore = s.vstore ∧
      t.locks = s.locks ∧
      t.rd pgTDMA TDMA.RING_STS_HEAD ring = (s.rd pgTDMA TDMA.RING_STS_HEAD ring + 1) % 64 ∧
      t.rd pgTDMA TDMA.RING_STS_OUTSTANDING ring = (s.rd pgTDMA TDMA.RING_STS_OUTSTANDING ring - 1) % 128 ∧
      t.toBandState = s.toBandState ∧
      t.toLineState = s.toLineState ∧
      t.toQdState = s.toQdState ∧
      t.nt = s.nt) ∧
  (∀ (s : State) (ring : Nat) (desc img : List Nat) (id row : Nat),
    s.ringReady ring = true →
    desc ≠ [] →
    descBad desc = false →
    bits (desc.getD 0 0) 0 4 = 5 →
    bits (desc.getD 0 0) 4 5 = id →
    (s.planOf id (bits (desc.getD 4 0) 8 8) img).bind (fun k => k.find (s.planRead k false)) = some row →
    (s.fnS 1).sends = true →
    ∃ t, exec (.tdmaSearch ring desc (some img)) s = .next t ∧
      Out.hostWrite 1 (s.ringAddr ring + 20) (toLe 4 row) false ∈ t.out ∧
      t.rd pgTDMA TDMA.RING_STS_HEAD ring = (s.rd pgTDMA TDMA.RING_STS_HEAD ring + 1) % 64 ∧
      t.rd pgTDMA TDMA.RING_STS_OUTSTANDING ring = (s.rd pgTDMA TDMA.RING_STS_OUTSTANDING ring - 1) % 128 ∧
      t.toBandState = s.toBandState ∧
      t.toLineState = s.toLineState ∧
      t.toQdState = s.toQdState ∧
      t.nt = s.nt ∧
      t.toPipeState = s.toPipeState) ∧
  (∀ (s : State) (ring : Nat) (desc : List Nat) (id row : Nat),
    s.ringReady ring = true →
    desc ≠ [] →
    descBad desc = false →
    bits (desc.getD 0 0) 0 4 = 6 →
    bits (desc.getD 0 0) 4 5 = id →
    bits (desc.getD 1 0) 0 29 = row →
    s.rowPlace id row = some false →
    tget s.locks (s.rowKey id false row) = none →
    s.locks.length < 256 →
    ∃ t, exec (.tdmaLock ring desc) s = .next t ∧
      tget t.locks (s.rowKey id false row) = some ⟨ring, none⟩ ∧
      t.rd pgLKP LKP.LOCK_STS_LOCKED = t.locks.length % 2 ^ LKP.LOCK_STS_LOCKED.w ∧
      t.rows = s.rows ∧
      t.vstore = s.vstore ∧
      t.rd pgTDMA TDMA.RING_STS_HEAD ring = (s.rd pgTDMA TDMA.RING_STS_HEAD ring + 1) % 64 ∧
      t.rd pgTDMA TDMA.RING_STS_OUTSTANDING ring = (s.rd pgTDMA TDMA.RING_STS_OUTSTANDING ring - 1) % 128 ∧
      t.toBandState = s.toBandState ∧
      t.toLineState = s.toLineState ∧
      t.toQdState = s.toQdState ∧
      t.nt = s.nt) ∧
  (∀ (s : State) (ring : Nat) (desc w : List Nat) (id row : Nat),
    s.ringReady ring = true →
    desc ≠ [] →
    descBad desc = false →
    bits (desc.getD 0 0) 0 4 = 7 →
    bits (desc.getD 0 0) 4 5 = id →
    bits (desc.getD 1 0) 0 29 = row →
    s.rowPlace id row = some false →
    tget s.locks (s.rowKey id false row) = some ⟨ring, some w⟩ →
    s.inBack (s.rowKey id false row) = false →
    bit (s.rowKey id false row) 33 = false →
    ∃ t, exec (.tdmaUnlock ring desc) s = .next t ∧
      tgetD t.rows (s.rowKey id false row) (s.rowBlank id) = w ∧
      tget t.locks (s.rowKey id false row) = none ∧
      t.vstore = s.vstore ∧
      t.rd pgTDMA TDMA.RING_STS_HEAD ring = (s.rd pgTDMA TDMA.RING_STS_HEAD ring + 1) % 64 ∧
      t.rd pgTDMA TDMA.RING_STS_OUTSTANDING ring = (s.rd pgTDMA TDMA.RING_STS_OUTSTANDING ring - 1) % 128 ∧
      t.toBandState = s.toBandState ∧
      t.toLineState = s.toLineState ∧
      t.toQdState = s.toQdState ∧
      t.nt = s.nt) ∧
  (∀ (s : State) (ring : Nat) (desc w : List Nat) (id row : Nat),
    s.ringReady ring = true →
    desc ≠ [] →
    descBad desc = false →
    bits (desc.getD 0 0) 0 4 = 8 →
    bits (desc.getD 0 0) 4 5 = id →
    bits (desc.getD 1 0) 0 29 = row →
    s.rowPlace id row = some false →
    tget s.locks (s.rowKey id false row) = some ⟨ring, some w⟩ →
    ∃ t, exec (.tdmaUnlockDiscard ring desc) s = .next t ∧
      t.rows = s.rows ∧
      tget t.locks (s.rowKey id false row) = none ∧
      t.vstore = s.vstore ∧
      t.rd pgTDMA TDMA.RING_STS_HEAD ring = (s.rd pgTDMA TDMA.RING_STS_HEAD ring + 1) % 64 ∧
      t.rd pgTDMA TDMA.RING_STS_OUTSTANDING ring = (s.rd pgTDMA TDMA.RING_STS_OUTSTANDING ring - 1) % 128 ∧
      t.toBandState = s.toBandState ∧
      t.toLineState = s.toLineState ∧
      t.toQdState = s.toQdState ∧
      t.nt = s.nt) ∧
  (∀ (s : State) (ring : Nat) (desc : List Nat),
    s.ringReady ring = true →
    desc ≠ [] →
    descBad desc = false →
    bits (desc.getD 0 0) 0 4 = 9 →
    s.rd pgLKP LKP.EPOCH_STS_EPOCH_DRAINED = 1 →
    s.commits = [] →
    s.rd pgLKP LKP.EPOCH_STS_GROUP_FAILED = 0 →
    ∃ t, exec (.tdmaEpochCommit ring desc) s = .next t ∧
      t.rd pgLKP LKP.EPOCH_STS_CURRENT = (s.rd pgLKP LKP.EPOCH_STS_CURRENT + 1) % 65536 ∧
      t.rd pgLKP LKP.EPOCH_STS_EPOCH_DRAINED = 0 ∧
      t.vstore = s.vstore.map (fun v => { v with epoch := some (v.epoch.getD ((s.rd pgLKP LKP.EPOCH_STS_CURRENT + 1) % 65536)) }) ∧
      t.rows = s.rows ∧
      t.rd pgTDMA TDMA.RING_STS_HEAD ring = (s.rd pgTDMA TDMA.RING_STS_HEAD ring + 1) % 64 ∧
      t.rd pgTDMA TDMA.RING_STS_OUTSTANDING ring = (s.rd pgTDMA TDMA.RING_STS_OUTSTANDING ring - 1) % 128 ∧
      t.toBandState = s.toBandState ∧
      t.toLineState = s.toLineState ∧
      t.toQdState = s.toQdState ∧
      t.nt = s.nt) ∧
  (∀ (s : State) (ring : Nat) (tags : List Nat),
    ring < 4 →
    s.live pgTDMA = true →
    ∃ t, exec (.tdmaAbort ring tags) s = .next t ∧
      t.rd pgTDMA TDMA.RING_STS_OUTSTANDING ring = 0 ∧
      t.rd pgTDMA TDMA.RING_STS_HEAD ring = (s.rd pgTDMA TDMA.RING_STS_HEAD ring + s.rd pgTDMA TDMA.RING_STS_OUTSTANDING ring) % 64 ∧
      t.commits = s.commits.filter (fun q => decide (q.ring.map Prod.fst ≠ some ring)) ∧
      t.rows = s.rows ∧
      t.vstore = s.vstore ∧
      t.toBandState = s.toBandState ∧
      t.toLineState = s.toLineState ∧
      t.toQdState = s.toQdState ∧
      t.nt = s.nt) ∧
  (∀ (s : State) (ring : Nat) (tags : List Nat),
    ring < 4 →
    s.live pgTDMA = true →
    ∃ t, exec (.tdmaRingDisable ring tags) s = .next t ∧
      t.rd pgTDMA TDMA.RING_CTL_EN ring = 0 ∧
      t.rd pgTDMA TDMA.RING_STS_HEAD ring = 0 ∧
      t.rd pgTDMA TDMA.RING_STS_OUTSTANDING ring = 0 ∧
      t.commits = s.commits.filter (fun q => decide (q.ring.map Prod.fst ≠ some ring)) ∧
      t.rows = s.rows ∧
      t.vstore = s.vstore ∧
      t.toBandState = s.toBandState ∧
      t.toLineState = s.toLineState ∧
      t.toQdState = s.toQdState ∧
      t.nt = s.nt)

/-- With the page on: a commit that is drained and alone starts the next epoch at once, else it joins the waiting ones, and the
oldest of these takes effect when drained; a discard keeps committed rows only and clears GROUP_FAILED; the drain sets
EPOCH_DRAINED and cause 0; a write-back moves the oldest committed row to table memory. A fence flips the generation and holds
BUSY until old frames are gone. A sweep starts, or its overrun is counted; a visit goes on to the next row. A compare that finds a
difference asks for a recheck, which reports it; the report FIFO pops. Rules followed: R292, R294, R295, R297, R298, R308, R309,
R310, R312, R313, R314, R320. -/
def Obligations.EpochsFencesSweeps : Prop :=
  (∀ (s : State),
    s.live pgLKP = true →
    s.rd pgLKP LKP.EPOCH_STS_EPOCH_DRAINED = 1 →
    s.commits = [] →
    s.rd pgLKP LKP.EPOCH_STS_GROUP_FAILED = 0 →
    ∃ t, exec (.epochCommitCmd false) s = .next t ∧
      t.rd pgLKP LKP.EPOCH_STS_CURRENT = (s.rd pgLKP LKP.EPOCH_STS_CURRENT + 1) % 65536 ∧
      t.rd pgLKP LKP.EPOCH_STS_EPOCH_DRAINED = 0 ∧
      t.vstore = s.vstore.map (fun v => { v with epoch := some (v.epoch.getD ((s.rd pgLKP LKP.EPOCH_STS_CURRENT + 1) % 65536)) }) ∧
      t.rows = s.rows ∧
      t.toBandState = s.toBandState ∧
      t.toLineState = s.toLineState ∧
      t.toQdState = s.toQdState ∧
      t.nt = s.nt) ∧
  (∀ (s : State),
    s.live pgLKP = true →
    s.rd pgLKP LKP.EPOCH_STS_EPOCH_DRAINED = 0 →
    ∃ t, exec (.epochCommitCmd false) s = .next t ∧
      t.commits = s.commits ++ [⟨none⟩] ∧
      t.rd pgLKP LKP.EPOCH_STS_COMMIT_WAIT = 1 ∧
      t.vstore = s.vstore ∧
      t.rd pgLKP LKP.EPOCH_STS_CURRENT = s.rd pgLKP LKP.EPOCH_STS_CURRENT ∧
      t.toBandState = s.toBandState ∧
      t.toLineState = s.toLineState ∧
      t.toQdState = s.toQdState ∧
      t.nt = s.nt) ∧
  (∀ (s : State),
    s.live pgLKP = true →
    ∃ t, exec (.epochDiscard) s = .next t ∧
      t.vstore = s.vstore.filter (fun v => v.epoch.isSome) ∧
      t.rd pgLKP LKP.EPOCH_STS_GROUP_FAILED = 0 ∧
      t.rows = s.rows ∧
      t.commits = s.commits ∧
      t.toBandState = s.toBandState ∧
      t.toLineState = s.toLineState ∧
      t.toQdState = s.toQdState ∧
      t.nt = s.nt ∧
      t.toHostState = s.toHostState ∧
      t.toMgmtState = s.toMgmtState) ∧
  (∀ (s : State) (q : CommitReq) (rest : List CommitReq),
    s.live pgLKP = true →
    s.rd pgLKP LKP.EPOCH_STS_EPOCH_DRAINED = 1 →
    s.commits = q :: rest →
    s.rd pgLKP LKP.EPOCH_STS_GROUP_FAILED = 0 →
    ∃ t, exec (.epochCommitEffect) s = .next t ∧
      t.rd pgLKP LKP.EPOCH_STS_CURRENT = (s.rd pgLKP LKP.EPOCH_STS_CURRENT + 1) % 65536 ∧
      t.rd pgLKP LKP.EPOCH_STS_EPOCH_DRAINED = 0 ∧
      t.vstore = s.vstore.map (fun v => { v with epoch := some (v.epoch.getD ((s.rd pgLKP LKP.EPOCH_STS_CURRENT + 1) % 65536)) }) ∧
      t.rows = s.rows ∧
      t.commits = rest ∧
      t.toBandState = s.toBandState ∧
      t.toLineState = s.toLineState ∧
      t.toQdState = s.toQdState ∧
      t.nt = s.nt) ∧
  (∀ (s : State),
    s.live pgLKP = true →
    s.rd pgLKP LKP.EPOCH_STS_EPOCH_DRAINED = 0 →
    s.drained = true →
    ∃ t, exec (.epochDrained) s = .next t ∧
      t.rd pgLKP LKP.EPOCH_STS_EPOCH_DRAINED = 1 ∧
      bit (t.rd pgLKP COMMON.INT_CAUSE_CAUSE) 0 = true ∧
      t.toBandState = s.toBandState ∧
      t.toLineState = s.toLineState ∧
      t.toQdState = s.toQdState ∧
      t.nt = s.nt ∧
      t.toPipeState = s.toPipeState) ∧
  (∀ (s : State) (v : VRow) (rest : List VRow) (x : Nat),
    s.live pgLKP = true →
    s.rd pgLKP LKP.EPOCH_STS_EPOCH_DRAINED = 1 →
    s.vstore = v :: rest →
    v.epoch = some x →
    bit v.key 33 = false →
    s.shdRepairs = [] →
    ∃ t, exec (.epochWriteBack 1) s = .next t ∧
      tgetD t.rows v.key (s.rowBlank v.table) = v.words ∧
      t.vstore = rest ∧
      (∀ k, k ≠ v.key → tget t.rows k = tget s.rows k) ∧
      t.toBandState = s.toBandState ∧
      t.toLineState = s.toLineState ∧
      t.toQdState = s.toQdState ∧
      t.nt = s.nt ∧
      t.toHostState = s.toHostState ∧
      t.toMgmtState = s.toMgmtState) ∧
  (∀ (s : State),
    s.live pgNHP = true →
    ∃ t, exec (.fenceCmd) s = .next t ∧
      t.fences = s.fences + 1 ∧
      t.rd pgNHP NHP.FENCE_STS_BUSY = 1 ∧
      t.rd pgNHP NHP.FENCE_STS_GEN = (s.fences + 1) % 2 ∧
      t.toBandState = s.toBandState ∧
      t.toLineState = s.toLineState ∧
      t.toQdState = s.toQdState ∧
      t.toHostState = s.toHostState ∧
      t.toMgmtState = s.toMgmtState ∧
      t.nt = s.nt) ∧
  (∀ (s : State),
    s.live pgNHP = true →
    s.on pgNHP NHP.FENCE_STS_BUSY = true →
    s.oldFrames = 0 →
    ∃ t, exec (.fenceComplete) s = .next t ∧
      t.rd pgNHP NHP.FENCE_STS_BUSY = 0 ∧
      bit (t.rd pgNHP COMMON.INT_CAUSE_CAUSE) 0 = true ∧
      t.toBandState = s.toBandState ∧
      t.toLineState = s.toLineState ∧
      t.toPipeState = s.toPipeState ∧
      t.toQdState = s.toQdState ∧
      t.nt = s.nt) ∧
  (∀ (s : State) (table : Nat),
    table < 16 →
    s.live pgAGE = true →
    s.on pgAGE AGE.AGE_CTL_EN = true →
    s.rd pgAGE AGE.AGE_PERIOD_MS table ≠ 0 →
    s.sweepDue table = true →
    tget s.sweeps table = none →
    ∃ t, exec (.ageSweepStart table) s = .next t ∧
      tget t.sweeps table = some ⟨0, false⟩ ∧
      t.rd pgAGE AGE.AGE_CNT 3 = (s.rd pgAGE AGE.AGE_CNT 3 + 1) % 2 ^ 64 ∧
      t.rows = s.rows ∧
      t.vstore = s.vstore ∧
      t.toBandState = s.toBandState ∧
      t.toLineState = s.toLineState ∧
      t.toQdState = s.toQdState ∧
      t.nt = s.nt ∧
      t.toHostState = s.toHostState ∧
      t.toMgmtState = s.toMgmtState) ∧
  (∀ (s : State) (table : Nat) (w : Sweep),
    table < 16 →
    s.live pgAGE = true →
    s.on pgAGE AGE.AGE_CTL_EN = true →
    s.rd pgAGE AGE.AGE_PERIOD_MS table ≠ 0 →
    s.sweepDue table = true →
    tget s.sweeps table = some w →
    ∃ t, exec (.ageSweepStart table) s = .next t ∧
      tget t.sweeps table = some { w with again := true } ∧
      t.rd pgAGE AGE.AGE_CNT 4 = (s.rd pgAGE AGE.AGE_CNT 4 + 1) % 2 ^ 64 ∧
      bit (t.rd pgAGE COMMON.INT_CAUSE_CAUSE) 1 = true ∧
      t.rows = s.rows ∧
      t.vstore = s.vstore ∧
      t.toBandState = s.toBandState ∧
      t.toLineState = s.toLineState ∧
      t.toQdState = s.toQdState ∧
      t.nt = s.nt) ∧
  (∀ (s : State) (table : Nat) (w : Sweep),
    table < 16 →
    s.live pgAGE = true →
    s.on pgAGE AGE.AGE_CTL_EN = true →
    tget s.sweeps table = some w →
    (rateTake s.visitUs s.ticks (ticksUs 1) (s.rd pgAGE AGE.SWEEP_RATE_ROWS_PER_US)).isSome = true →
    w.pos + 1 < s.exmSize table →
    ∃ t, exec (.ageSweepVisit table) s = .next t ∧
      tget t.sweeps table = some { w with pos := w.pos + 1 } ∧
      t.toBandState = s.toBandState ∧
      t.toLineState = s.toLineState ∧
      t.nt = s.nt) ∧
  (∀ (s : State) (table row : Nat) (image : List Nat) (h : Bool),
    s.rowPlace table row = some h →
    s.live pgSHD = true →
    s.on pgSHD SHD.SHD_CTL_EN = true →
    s.shdPlace = some (table, row) →
    s.tagFree = true →
    (s.fnS 1).sends = true →
    (rateTake s.shdMs s.ticks (ticksMs 1) (s.rd pgSHD SHD.SHD_RATE_ROWS_PER_MS)).isSome = true →
    s.shdSkips table row h = false →
    s.rowSeen table h row ≠ image →
    ∃ t, exec (.shdCompare table row (some image)) s = .next t ∧
      t.rechecks = s.rechecks ++ [⟨table, row, s.rowKey table h row, s.rowSeen table h row, image, s.ticks⟩] ∧
      t.shdAt = (table, row + 1) ∧
      t.rd pgSHD SHD.SHD_CNT 0 = (s.rd pgSHD SHD.SHD_CNT 0 + 1) % 2 ^ 64 ∧
      t.rows = s.rows ∧
      t.mmFifo = s.mmFifo ∧
      t.toBandState = s.toBandState ∧
      t.toLineState = s.toLineState ∧
      t.toQdState = s.toQdState ∧
      t.nt = s.nt ∧
      t.toHostState = s.toHostState ∧
      t.toMgmtState = s.toMgmtState) ∧
  (∀ (s : State) (table row : Nat) (image : List Nat) (h : Bool) (m : Mismatch),
    s.rechecks.find? (fun m => m.table = table && m.row = row) = some m →
    s.rowPlace table row = some h →
    s.live pgSHD = true →
    (s.fnS 1).sends = true →
    s.tagFree = true →
    m.since + ticksUs (s.rd pgSHD SHD.SHD_CTL_RECHECK_US) ≤ s.ticks →
    s.rowSeen table h row = m.words →
    image = m.image →
    s.mmFifo.length < 32 →
    s.on pgSHD SHD.SHD_CTL_REPAIR = false →
    ∃ t, exec (.shdRecheck table row (some image)) s = .next t ∧
      t.mmFifo = s.mmFifo ++ [(m.table, m.row)] ∧
      t.rechecks = s.rechecks.filter (fun x => x.key ≠ m.key) ∧
      t.rd pgSHD SHD.SHD_CNT 1 = (s.rd pgSHD SHD.SHD_CNT 1 + 1) % 2 ^ 64 ∧
      t.rd pgSHD SHD.MM_LEVEL_COUNT = (s.mmFifo.length + 1) % 2 ^ SHD.MM_LEVEL_COUNT.w ∧
      bit (t.rd pgSHD COMMON.INT_CAUSE_CAUSE) 0 = true ∧
      t.rows = s.rows ∧
      t.toBandState = s.toBandState ∧
      t.toLineState = s.toLineState ∧
      t.toQdState = s.toQdState ∧
      t.nt = s.nt) ∧
  (∀ (s : State) (x : Nat × Nat) (rest : List (Nat × Nat)),
    s.live pgSHD = true →
    s.mmFifo = x :: rest →
    ∃ t, exec (.shdMmPop) s = .next t ∧
      t.mmFifo = rest ∧
      t.rd pgSHD SHD.MM_LEVEL_COUNT = rest.length % 2 ^ SHD.MM_LEVEL_COUNT.w ∧
      t.rd pgSHD SHD.MM_HEAD_VALID = b2n (!rest.isEmpty) ∧
      t.rows = s.rows ∧
      t.toBandState = s.toBandState ∧
      t.toLineState = s.toLineState ∧
      t.toQdState = s.toQdState ∧
      t.nt = s.nt ∧
      t.toHostState = s.toHostState ∧
      t.toMgmtState = s.toMgmtState)

/-- On a populated page of range search that runs no command and with an index inside the bank: WRITE stores the staged entry,
INVALIDATE clears the VALID bit, each at its index only (in replica mode at that index of the four copies of the bank), with the
count of valid entries shown and DONE; READ copies the entry into the staging registers and changes none; MOVE_WINDOW with a valid
hole starts its window and clears the result's VALID; ABORT before the first copy ends the window ABORTED with every entry as it
was. Rules followed: R341, R343, R344, R345, R346, R348, R351, R352. -/
def Obligations.RangeSearch : Prop :=
  (∀ (s : State) (rsu bank tag : Nat),
    rsu < 4 →
    s.live (pgRSU rsu) = true →
    tget s.rsuRuns rsu = none →
    ((rsu = 0 ∨ s.replica = false)) →
    s.rd (pgRSU rsu) RSU.RS_INDEX_INDEX < 8192 / s.bankUnits (4 * rsu + bank % 4) →
    ∃ t, exec (.rsWrite rsu bank tag) s = .next t ∧
      tgetD t.rsu ((4 * rsu + bank % 4) * 8192 + s.rd (pgRSU rsu) RSU.RS_INDEX_INDEX) {} = { prio := s.rd (pgRSU rsu) RSU.STAGE_CTL_PRIORITY, valid := s.on (pgRSU rsu) RSU.STAGE_CTL_VALID, act := s.rd (pgRSU rsu) RSU.STAGE_ACT_ACT, ranges := (List.range (10 * s.bankUnits (4 * rsu + bank % 4))).map fun k => (s.rd (pgRSU rsu) RSU.STAGE_RANGE_LO (16 * (k / 10) + k % 10), s.rd (pgRSU rsu) RSU.STAGE_RANGE_HI (16 * (k / 10) + k % 10)) } ∧
      ((∀ k, (k / 8192 ∉ s.rsuCopies (4 * rsu + bank % 4) ∨ k % 8192 ≠ s.rd (pgRSU rsu) RSU.RS_INDEX_INDEX) → tget t.rsu k = tget s.rsu k)) ∧
      t.rd (pgRSU rsu) RSU.ENTRY_CNT_COUNT (bank % 4) = (t.rsu.filter (fun e => e.1 / 8192 = (4 * rsu + bank % 4) && e.2.valid)).length % 2 ^ RSU.ENTRY_CNT_COUNT.w ∧
      t.rd (pgRSU rsu) RSU.RS_RES.status = 1 ∧
      t.rd (pgRSU rsu) RSU.RS_RES.tag = tag % 256 ∧
      t.rd (pgRSU rsu) RSU.RS_RES.valid = 1 ∧
      t.toBandState = s.toBandState ∧
      t.toLineState = s.toLineState ∧
      t.toQdState = s.toQdState ∧
      t.toHostState = s.toHostState ∧
      t.toMgmtState = s.toMgmtState ∧
      t.hbm = s.hbm ∧
      t.nt = s.nt) ∧
  (∀ (s : State) (rsu bank tag : Nat) (e : RsuEntry),
    rsu < 4 →
    s.live (pgRSU rsu) = true →
    tget s.rsuRuns rsu = none →
    ((rsu = 0 ∨ s.replica = false)) →
    s.rd (pgRSU rsu) RSU.RS_INDEX_INDEX < 8192 / s.bankUnits (4 * rsu + bank % 4) →
    e = tgetD s.rsu ((4 * rsu + bank % 4) * 8192 + s.rd (pgRSU rsu) RSU.RS_INDEX_INDEX) {} →
    ∃ t, exec (.rsRead rsu bank tag) s = .next t ∧
      t.rd (pgRSU rsu) RSU.STAGE_CTL_PRIORITY = e.prio % 65536 ∧
      t.rd (pgRSU rsu) RSU.STAGE_CTL_VALID = b2n e.valid ∧
      t.rd (pgRSU rsu) RSU.STAGE_ACT_ACT = e.act % 2 ^ 32 ∧
      t.rd (pgRSU rsu) RSU.STAGE_RANGE_LO 0 = (e.ranges.getD 0 (0, 0)).1 % 65536 ∧
      t.rd (pgRSU rsu) RSU.STAGE_RANGE_HI 9 = (e.ranges.getD 9 (0, 0)).2 % 65536 ∧
      t.rd (pgRSU rsu) (RSU.RS_RES.word 1) = (e.prio + b2n e.valid * 65536) % 2 ^ 32 ∧
      t.rd (pgRSU rsu) (RSU.RS_RES.word 2) = e.act % 2 ^ 32 ∧
      t.rd (pgRSU rsu) RSU.RS_RES.status = 1 ∧
      t.rd (pgRSU rsu) RSU.RS_RES.tag = tag % 256 ∧
      t.rd (pgRSU rsu) RSU.RS_RES.valid = 1 ∧
      t.toBandState = s.toBandState ∧
      t.toLineState = s.toLineState ∧
      t.toQdState = s.toQdState ∧
      t.toHostState = s.toHostState ∧
      t.toMgmtState = s.toMgmtState ∧
      t.hbm = s.hbm ∧
      t.nt = s.nt ∧
      t.toPipeState = s.toPipeState) ∧
  (∀ (s : State) (rsu bank tag : Nat),
    rsu < 4 →
    s.live (pgRSU rsu) = true →
    tget s.rsuRuns rsu = none →
    ((rsu = 0 ∨ s.replica = false)) →
    s.rd (pgRSU rsu) RSU.RS_INDEX_INDEX < 8192 / s.bankUnits (4 * rsu + bank % 4) →
    ∃ t, exec (.rsInvalidate rsu bank tag) s = .next t ∧
      tgetD t.rsu ((4 * rsu + bank % 4) * 8192 + s.rd (pgRSU rsu) RSU.RS_INDEX_INDEX) {} = { tgetD s.rsu ((4 * rsu + bank % 4) * 8192 + s.rd (pgRSU rsu) RSU.RS_INDEX_INDEX) {} with valid := false } ∧
      ((∀ k, (k / 8192 ∉ s.rsuCopies (4 * rsu + bank % 4) ∨ k % 8192 ≠ s.rd (pgRSU rsu) RSU.RS_INDEX_INDEX) → tget t.rsu k = tget s.rsu k)) ∧
      t.rd (pgRSU rsu) RSU.ENTRY_CNT_COUNT (bank % 4) = (t.rsu.filter (fun e => e.1 / 8192 = (4 * rsu + bank % 4) && e.2.valid)).length % 2 ^ RSU.ENTRY_CNT_COUNT.w ∧
      t.rd (pgRSU rsu) RSU.RS_RES.status = 1 ∧
      t.rd (pgRSU rsu) RSU.RS_RES.tag = tag % 256 ∧
      t.rd (pgRSU rsu) RSU.RS_RES.valid = 1 ∧
      t.toBandState = s.toBandState ∧
      t.toLineState = s.toLineState ∧
      t.toQdState = s.toQdState ∧
      t.toHostState = s.toHostState ∧
      t.toMgmtState = s.toMgmtState ∧
      t.hbm = s.hbm ∧
      t.nt = s.nt) ∧
  (∀ (s : State) (rsu bank tag h : Nat),
    rsu < 4 →
    s.live (pgRSU rsu) = true →
    tget s.rsuRuns rsu = none →
    ((rsu = 0 ∨ s.replica = false)) →
    s.rd (pgRSU rsu) RSU.RS_INDEX_INDEX < 8192 / s.bankUnits (4 * rsu + bank % 4) →
    h = s.rd (pgRSU rsu) RSU.RS_INDEX_HOLE →
    s.on (pgRSU rsu) RSU.RS_INDEX_AUTO = false →
    h < 8192 / s.bankUnits (4 * rsu + bank % 4) →
    (s.rsuAt (4 * rsu + bank % 4) h).valid = false →
    (h - s.rd (pgRSU rsu) RSU.RS_INDEX_INDEX) + (s.rd (pgRSU rsu) RSU.RS_INDEX_INDEX - h) ≤ 64 →
    ∃ t, exec (.moveWindow rsu bank tag) s = .next t ∧
      tget t.rsuRuns rsu = some { tag := tag, bank := (4 * rsu + bank % 4), target := s.rd (pgRSU rsu) RSU.RS_INDEX_INDEX, hole := h, pos := h } ∧
      t.rd (pgRSU rsu) RSU.RS_RES.valid = 0 ∧
      t.rsu = s.rsu ∧
      t.toBandState = s.toBandState ∧
      t.toLineState = s.toLineState ∧
      t.toQdState = s.toQdState ∧
      t.toHostState = s.toHostState ∧
      t.toMgmtState = s.toMgmtState ∧
      t.hbm = s.hbm ∧
      t.nt = s.nt) ∧
  (∀ (s : State) (rsu tag : Nat) (r : RsuRun),
    rsu < 4 →
    s.live (pgRSU rsu) = true →
    tget s.rsuRuns rsu = some r →
    r.made = 0 →
    ∃ t, exec (.rsAbort rsu tag) s = .next t ∧
      tget t.rsuRuns rsu = none ∧
      t.rsu = s.rsu ∧
      t.rd (pgRSU rsu) RSU.RS_RES.status = 2 ∧
      t.rd (pgRSU rsu) RSU.RS_RES.tag = r.tag % 256 ∧
      t.rd (pgRSU rsu) RSU.RS_RES.valid = 1 ∧
      t.toBandState = s.toBandState ∧
      t.toLineState = s.toLineState ∧
      t.toQdState = s.toQdState ∧
      t.toHostState = s.toHostState ∧
      t.toMgmtState = s.toMgmtState ∧
      t.hbm = s.hbm ∧
      t.nt = s.nt)

/-- On a stack in power: a completion takes the oldest read of its channel and counts it, one with an uncorrectable error is
counted and raises cause 1; a drain of a channel that has opened no row issues the oldest writes down to WR_LO, four at most; a
parity alert replays, or with the limit reached fails the channel; a refresh closes the row of the next bank; a scrub moves to the
next burst and changes no byte of HBM. A window write stores its four bytes at the address that the window base and the offset
give and changes no other byte; a window read answers the four bytes there and changes none. Rules followed: R497, R504, R507,
R513, R516, R518, R519, R521, R523. -/
def Obligations.HbmChannels : Prop :=
  (∀ (s : State) (channel : Nat) (r : HbmReq) (rest : List HbmReq),
    channel < 128 →
    s.live (pgHBC (channel / 32)) = true →
    (s.chan channel).reads = r :: rest →
    s.heldBy r.port = [] →
    s.chanFailed channel = false →
    s.hbmMayOpen channel r = true →
    ∃ t, exec (.hbmReadComplete channel 0) s = .next t ∧
      (t.chan channel).reads = rest ∧
      (t.chan channel).writes = (s.chan channel).writes ∧
      t.rd (pgHBC (channel / 32)) HBC.CH_CNT (channel % 32 * 12 + 0) = (s.rd (pgHBC (channel / 32)) HBC.CH_CNT (channel % 32 * 12 + 0) + 1) % 2 ^ HBC.CH_CNT.w ∧
      t.toBandState = s.toBandState ∧
      t.toLineState = s.toLineState ∧
      t.toPipeState = s.toPipeState ∧
      t.nt = s.nt ∧
      t.hbm = s.hbm) ∧
  (∀ (s : State) (channel : Nat) (r : HbmReq) (rest : List HbmReq),
    channel < 128 →
    s.live (pgHBC (channel / 32)) = true →
    (s.chan channel).reads = r :: rest →
    s.heldBy r.port = [] →
    s.chanFailed channel = false →
    s.hbmMayOpen channel r = true →
    ∃ t, exec (.hbmReadComplete channel 2) s = .next t ∧
      (t.chan channel).reads = rest ∧
      t.rd (pgHBC (channel / 32)) HBC.CH_CNT (channel % 32 * 12 + 5) = (s.rd (pgHBC (channel / 32)) HBC.CH_CNT (channel % 32 * 12 + 5) + 1) % 2 ^ HBC.CH_CNT.w ∧
      bit (t.rd (pgHBC (channel / 32)) COMMON.INT_CAUSE_CAUSE) 1 = true ∧
      t.toBandState = s.toBandState ∧
      t.toLineState = s.toLineState ∧
      t.toPipeState = s.toPipeState ∧
      t.nt = s.nt ∧
      t.hbm = s.hbm) ∧
  (∀ (s : State) (channel : Nat),
    channel < 128 →
    s.live (pgHBC (channel / 32)) = true →
    (s.chan channel).reads = [] →
    s.hbmHeld = [] →
    (s.chan channel).acts = [] →
    (s.chan channel).writes.length ≤ s.rd (pgHBC (channel / 32)) HBC.WR_WM_WR_LO + 4 →
    ∃ t, exec (.hbmWriteDrain channel) s = .next t ∧
      (t.chan channel).writes = (s.chan channel).writes.drop ((s.chan channel).writes.length - s.rd (pgHBC (channel / 32)) HBC.WR_WM_WR_LO) ∧
      (t.chan channel).reads = [] ∧
      t.toBandState = s.toBandState ∧
      t.toLineState = s.toLineState ∧
      t.toPipeState = s.toPipeState ∧
      t.nt = s.nt ∧
      t.hbm = s.hbm ∧
      t.toHostState = s.toHostState ∧
      t.toMgmtState = s.toMgmtState) ∧
  (∀ (s : State) (channel : Nat),
    channel < 128 →
    s.live (pgHBC (channel / 32)) = true →
    s.chanFailed channel = false →
    (s.chan channel).fails + 1 < max 1 (s.rd (pgHBC (channel / 32)) HBC.RETRY_CFG_REPLAY_LIMIT) →
    ∃ t, exec (.hbmParityAlert channel true) s = .next t ∧
      (t.chan channel).fails = (s.chan channel).fails + 1 ∧
      t.rd (pgHBC (channel / 32)) HBC.CH_CNT (channel % 32 * 12 + 6) = (s.rd (pgHBC (channel / 32)) HBC.CH_CNT (channel % 32 * 12 + 6) + 1) % 2 ^ HBC.CH_CNT.w ∧
      t.rd (pgHBC (channel / 32)) HBC.CH_CNT (channel % 32 * 12 + 7) = (s.rd (pgHBC (channel / 32)) HBC.CH_CNT (channel % 32 * 12 + 7) + 1) % 2 ^ HBC.CH_CNT.w ∧
      bit (t.rd (pgHBC (channel / 32)) COMMON.INT_CAUSE_CAUSE) 2 = true ∧
      t.chanFailed channel = false ∧
      t.toBandState = s.toBandState ∧
      t.toLineState = s.toLineState ∧
      t.toPipeState = s.toPipeState ∧
      t.nt = s.nt ∧
      t.hbm = s.hbm) ∧
  (∀ (s : State) (channel : Nat),
    channel < 128 →
    s.live (pgHBC (channel / 32)) = true →
    s.chanFailed channel = false →
    max 1 (s.rd (pgHBC (channel / 32)) HBC.RETRY_CFG_REPLAY_LIMIT) ≤ (s.chan channel).fails + 1 →
    ∃ t, exec (.hbmParityAlert channel true) s = .next t ∧
      t.chanFailed channel = true ∧
      t.rd (pgHBC (channel / 32)) HBC.CH_CNT (channel % 32 * 12 + 6) = (s.rd (pgHBC (channel / 32)) HBC.CH_CNT (channel % 32 * 12 + 6) + 1) % 2 ^ HBC.CH_CNT.w ∧
      bit (t.rd (pgHBC (channel / 32)) COMMON.INT_CAUSE_CAUSE) 3 = true ∧
      t.toBandState = s.toBandState ∧
      t.toLineState = s.toLineState ∧
      t.toPipeState = s.toPipeState ∧
      t.nt = s.nt ∧
      t.hbm = s.hbm) ∧
  (∀ (s : State) (channel : Nat),
    channel < 128 →
    s.live (pgHBC (channel / 32)) = true →
    (s.chan channel).refDue ≤ 64 * s.ticks →
    s.on (pgHBC (channel / 32)) HBC.STACK_STS_SELF_REFRESH = false →
    ∃ t, exec (.hbmRefresh channel) s = .next t ∧
      tget (t.chan channel).rows (s.chan channel).nextBank = none ∧
      (t.chan channel).nextBank = ((s.chan channel).nextBank + 1) % 64 ∧
      (t.chan channel).reads = (s.chan channel).reads ∧
      (t.chan channel).writes = (s.chan channel).writes ∧
      t.rd (pgHBC (channel / 32)) HBC.CH_CNT (channel % 32 * 12 + 8) = (s.rd (pgHBC (channel / 32)) HBC.CH_CNT (channel % 32 * 12 + 8) + 1) % 2 ^ HBC.CH_CNT.w ∧
      t.toBandState = s.toBandState ∧
      t.toLineState = s.toLineState ∧
      t.toPipeState = s.toPipeState ∧
      t.nt = s.nt ∧
      t.hbm = s.hbm ∧
      t.toHostState = s.toHostState ∧
      t.toMgmtState = s.toMgmtState) ∧
  (∀ (s : State) (stack n : Nat) (superseded : Bool),
    stack < 4 →
    s.live (pgHBC stack) = true →
    s.on (pgHBC stack) HBC.SCRUB_CFG_EN = true →
    s.scrubMay stack = true →
    ∃ t, exec (.hbmScrub stack 0 superseded) s = .next t ∧
      tgetD t.scrubAt stack 0 = (tgetD s.scrubAt stack 0 + 1) % 536870912 ∧
      (t.chan n).reads = (s.chan n).reads ∧
      (t.chan n).writes = (s.chan n).writes ∧
      t.toBandState = s.toBandState ∧
      t.toLineState = s.toLineState ∧
      t.toPipeState = s.toPipeState ∧
      t.nt = s.nt ∧
      t.hbm = s.hbm ∧
      t.toHostState = s.toHostState ∧
      t.toMgmtState = s.toMgmtState) ∧
  (∀ (s : State) (offset v a : Nat),
    s.Reaches (pgHBC 0) 0x8000 →
    0 ≤ tgetD s.hbmTokens 4 0 →
    a = s.rd (pgHBC 0) HBC.WIN_BASE_HI_ADDR * 2 ^ 32 + s.rd (pgHBC 0) HBC.WIN_BASE_LO_ADDR + 4 * (offset % 32768 / 4) →
    a + 4 ≤ s.tableBytes →
    ((s.hbmBursts ⟨4, false, a, 4, true⟩).all fun e => s.on (pgHBC (e.1 / 32)) HBC.STACK_STS_TRAINED) = true →
    s.hbmFailed false a 4 = false →
    ∃ t, exec (.hbmWindowAccess offset (some v)) s = .next t ∧
      memBytes t.hbm a 4 = toLe 4 (v % 2 ^ 32) ∧
      ((∀ b, (b < a ∨ a + 4 ≤ b) → memByte t.hbm b = memByte s.hbm b)) ∧
      t.toBandState = s.toBandState ∧
      t.toLineState = s.toLineState ∧
      t.toPipeState = s.toPipeState ∧
      t.nt = s.nt) ∧
  (∀ (s : State) (offset a : Nat),
    s.Reaches (pgHBC 0) 0x8000 →
    0 ≤ tgetD s.hbmTokens 4 0 →
    a = s.rd (pgHBC 0) HBC.WIN_BASE_HI_ADDR * 2 ^ 32 + s.rd (pgHBC 0) HBC.WIN_BASE_LO_ADDR + 4 * (offset % 32768 / 4) →
    a + 4 ≤ s.tableBytes →
    ((s.hbmBursts ⟨4, false, a, 4, false⟩).all fun e => s.on (pgHBC (e.1 / 32)) HBC.STACK_STS_TRAINED) = true →
    s.hbmFailed false a 4 = false →
    ∃ t, exec (.hbmWindowAccess offset none) s = .next t ∧
      t.out.head? = some (.readData 0 (pgHBC 0) (0x8000 + 4 * (offset % 32768 / 4)) (leNat (memBytes s.hbm a 4))) ∧
      t.toBandState = s.toBandState ∧
      t.toLineState = s.toLineState ∧
      t.toPipeState = s.toPipeState ∧
      t.nt = s.nt ∧
      t.hbm = s.hbm)

/-- A whole frame that is not IP, for an open queue whose admission accepts it on chip, joins the queue's tail in the buffer its
pool gives, which then names the queue, and is counted. A completed spill write empties its part of the staging buffer and places
its frames in HBM. A read-back request and completion move the oldest frame of the queue and free its HBM buffer. A free in the
owner's name frees the buffer; in another name it is refused, counted and raises cause 1. A profile word is stored where it keeps
the order of the limits, else cause 1 is raised and nothing stored. Rules followed: R354, R359, R362, R366, R371, R373, R374,
R376, R381, R394, R402. -/
def Obligations.BuffersAndAdmission : Prop :=
  (∀ (s : State) (f : Frame) (rest : List Frame) (q b : Nat),
    s.toQd = f :: rest →
    f.nhType ≠ 6 →
    s.bandUp = true →
    s.qdOn = true →
    s.queueFor f false = some q →
    f.cut = false →
    f.ecn = none →
    f.len ≤ 16384 →
    s.queueClosed q = false →
    s.expressOver q f.len = false →
    s.admission q f.len true = none →
    s.wantSpill q f = false →
    s.pickBuf (chipPool (some f.len)) = some b →
    ∃ t, exec (.qdAdmitFrame false false) s = .next t ∧
      t.toQd = rest ∧
      (t.que q).frames = (s.que q).frames ++ [{ f with queue := q, qlen := f.len, place := .chip, hold := .buffer (chipPool (some f.len)) b, cut := false }] ∧
      tget t.bufs (bufKey (chipPool (some f.len)) b) = some { owner := q, express := s.expressOf q f.len } ∧
      t.rd pgADM ADM.ADM_CNT 0 = (s.rd pgADM ADM.ADM_CNT 0 + 1) % 2 ^ ADM.ADM_CNT.w ∧
      t.toBandState = s.toBandState ∧
      t.toLineState = s.toLineState ∧
      t.nt = s.nt ∧
      t.hbm = s.hbm) ∧
  (∀ (s : State) (pool buf : Nat) (r : BufRec),
    tget s.bufs (bufKey pool buf) = some r →
    r.staged ≠ 0 →
    4 ≤ pool →
    s.spillHeld 0 pool buf = false →
    s.live pgBRM = true →
    ∃ t, exec (.spillWriteComplete pool buf) s = .next t ∧
      tget t.bufs (bufKey pool buf) = some { r with staged := 0 } ∧
      (t.que r.owner).frames = (s.que r.owner).frames.map (fun f => if f.hold = .buffer pool buf then (if f.place = .staged then { f with place := .hbm } else f) else f) ∧
      t.rd pgBRM BRM.BRIM_STS_WSTG_FULL = 0 ∧
      t.toBandState = s.toBandState ∧
      t.toLineState = s.toLineState ∧
      t.toPipeState = s.toPipeState ∧
      t.nt = s.nt ∧
      t.hbm = s.hbm) ∧
  (∀ (s : State) (queue : Nat) (f : Frame),
    (s.que queue).nextBack = some f →
    (s.que queue).headBack = true →
    (s.que queue).frames.head? = some f →
    s.enabled pgBRM = true →
    s.readBack + f.qlen ≤ stageBytes →
    ∃ t, exec (.brmReadback queue) s = .next t ∧
      (t.que queue).frames = { f with place := .reading } :: (s.que queue).frames.tail ∧
      t.toBandState = s.toBandState ∧
      t.toLineState = s.toLineState ∧
      t.toPipeState = s.toPipeState ∧
      t.nt = s.nt ∧
      t.hbm = s.hbm) ∧
  (∀ (s : State) (queue p b : Nat) (f : Frame) (r : BufRec),
    (s.que queue).frames.find? (fun f => f.place = .reading) = some f →
    s.live pgBRM = true →
    s.backIssued f = true →
    f.hold = .buffer p b →
    tget s.bufs (bufKey p b) = some r →
    r.owner = queue →
    ∃ t, exec (.readbackComplete queue false) s = .next t ∧
      tget t.bufs (bufKey p b) = none ∧
      (t.que queue).frames = firstAt .reading (fun g => { g with place := .back, hold := .free }) (s.que queue).frames ∧
      t.rd pgBRM BRM.BRM_CNT 2 = (s.rd pgBRM BRM.BRM_CNT 2 + 1) % 2 ^ BRM.BRM_CNT.w ∧
      t.rd pgBPM BPM.BPM_CNT 1 = (s.rd pgBPM BPM.BPM_CNT 1 + 1) % 2 ^ BPM.BPM_CNT.w ∧
      t.toBandState = s.toBandState ∧
      t.toLineState = s.toLineState ∧
      t.toPipeState = s.toPipeState ∧
      t.nt = s.nt ∧
      t.hbm = s.hbm) ∧
  (∀ (s : State) (pool buf requester : Nat) (r : BufRec),
    pool < 6 →
    buf < 2 ^ 24 →
    requester < 2 ^ 24 →
    s.live pgBPM = true →
    tget s.bufs (bufKey pool buf) = some r →
    r.owner = requester →
    ∃ t, exec (.bufferFree pool buf requester) s = .next t ∧
      tget t.bufs (bufKey pool buf) = none ∧
      t.rd pgBPM BPM.BPM_CNT 1 = (s.rd pgBPM BPM.BPM_CNT 1 + 1) % 2 ^ BPM.BPM_CNT.w ∧
      t.queues = s.queues ∧
      t.toBandState = s.toBandState ∧
      t.toLineState = s.toLineState ∧
      t.toPipeState = s.toPipeState ∧
      t.nt = s.nt ∧
      t.hbm = s.hbm) ∧
  (∀ (s : State) (pool buf requester : Nat) (r : BufRec),
    pool < 6 →
    buf < 2 ^ 24 →
    requester < 2 ^ 24 →
    s.live pgBPM = true →
    tget s.bufs (bufKey pool buf) = some r →
    r.owner ≠ requester →
    ∃ t, exec (.bufferFree pool buf requester) s = .next t ∧
      t.bufs = s.bufs ∧
      t.rd pgBPM BPM.BPM_CNT 4 = (s.rd pgBPM BPM.BPM_CNT 4 + 1) % 2 ^ BPM.BPM_CNT.w ∧
      bit (t.rd (pgBPM) COMMON.INT_CAUSE_CAUSE) 1 = true ∧
      t.queues = s.queues ∧
      t.toBandState = s.toBandState ∧
      t.toLineState = s.toLineState ∧
      t.toPipeState = s.toPipeState ∧
      t.nt = s.nt ∧
      t.hbm = s.hbm) ∧
  (∀ (s : State) (profile value : Nat),
    s.Reaches pgADM 0x8000 →
    profile < 64 →
    s.rd pgADM ADM.PROF_MIN_GUAR profile ≤ value % 2 ^ 28 →
    ∃ t, exec (.admProfileWrite profile 0 value) s = .next t ∧
      t.rd pgADM ADM.PROF_Q_MAX profile = value % 2 ^ 28 ∧
      t.rd pgADM ADM.PROF_MIN_GUAR profile = s.rd pgADM ADM.PROF_MIN_GUAR profile ∧
      t.toBandState = s.toBandState ∧
      t.toLineState = s.toLineState ∧
      t.toPipeState = s.toPipeState ∧
      t.toQdState = s.toQdState ∧
      t.toHostState = s.toHostState ∧
      t.toMgmtState = s.toMgmtState ∧
      t.nt = s.nt) ∧
  (∀ (s : State) (profile value : Nat),
    s.Reaches pgADM 0x8000 →
    profile < 64 →
    value % 2 ^ 28 < s.rd pgADM ADM.PROF_MIN_GUAR profile →
    ∃ t, exec (.admProfileWrite profile 0 value) s = .next t ∧
      t.rd pgADM ADM.PROF_Q_MAX profile = s.rd pgADM ADM.PROF_Q_MAX profile ∧
      bit (t.rd (pgADM) COMMON.INT_CAUSE_CAUSE) 1 = true ∧
      t.toBandState = s.toBandState ∧
      t.toLineState = s.toLineState ∧
      t.toPipeState = s.toPipeState ∧
      t.toQdState = s.toQdState ∧
      t.nt = s.nt)

/-- A multicast frame whose group is valid, with a descriptor and a buffer free, is taken and counted; with one replica whose
queue accepts it, that queue holds the copy. A ready residue replica joins its queue and is counted. At the residue timeout, or
under buffer pressure, an unready last residue replica is dropped, counted with cause 0, and its descriptor released. A completion
of a queued replica lowers REMAIN, or releases the descriptor at the last; one of an unknown descriptor is counted with cause 2
and changes none. A group word in range, and a list entry, are stored at their index. Rules followed: R382, R383, R384, R385,
R386, R387, R388, R389, R396. -/
def Obligations.MulticastReplicas : Prop :=
  (∀ (s : State) (f : Frame) (rest : List Frame) (m b : Nat),
    s.toQd = f :: rest →
    f.nhType = 6 →
    s.bandUp = true →
    s.qdOn = true →
    s.enabled pgMCR = true →
    f.cut = false →
    f.len ≤ 16384 →
    bit (tgetD s.groups (f.dest % 65536) 0) 31 = true →
    bits (tgetD s.groups (f.dest % 65536) 0) 18 11 ≠ 0 →
    m < 8192 →
    tget s.mcds m = none →
    s.pickBuf (chipPool (some f.len)) = some b →
    ∃ t, exec (.mcrReplicate false) s = .next t ∧
      t.toQd = rest ∧
      t.mcdAge = s.mcdAge + 1 ∧
      t.rd pgMCR MCR.MCR_CNT 0 = (s.rd pgMCR MCR.MCR_CNT 0 + 1) % 2 ^ MCR.MCR_CNT.w ∧
      t.toBandState = s.toBandState ∧
      t.toLineState = s.toLineState ∧
      t.nt = s.nt ∧
      t.hbm = s.hbm) ∧
  (∀ (s : State) (f : Frame) (rest : List Frame) (m b q e : Nat),
    s.toQd = f :: rest →
    f.nhType = 6 →
    s.bandUp = true →
    s.qdOn = true →
    s.enabled pgMCR = true →
    f.cut = false →
    f.len ≤ 16384 →
    bit (tgetD s.groups (f.dest % 65536) 0) 31 = true →
    bits (tgetD s.groups (f.dest % 65536) 0) 18 11 ≠ 0 →
    m < 8192 →
    tget s.mcds m = none →
    s.pickBuf (chipPool (some f.len)) = some b →
    bits (tgetD s.groups (f.dest % 65536) 0) 18 11 = 1 →
    e = tgetD s.repList (bits (tgetD s.groups (f.dest % 65536) 0) 0 18) 0 →
    bit e 31 = false →
    q = e % 262144 →
    f.ecn = none →
    s.queueClosed q = false →
    s.expressOver q f.len = false →
    (s.que q).residue = [] →
    s.admission q f.len false = none →
    ∃ t, exec (.mcrReplicate false) s = .next t ∧
      ((∃ k g, (t.que q).frames = (s.que q).frames ++ [g] ∧ g.bytes = f.bytes ∧ g.hold = .replica k 0 ∧ (t.mcd k).remain = 1 ∧ (t.mcd k).pool = (chipPool (some f.len)) ∧ (t.mcd k).buf = b)) ∧
      t.toBandState = s.toBandState ∧
      t.toLineState = s.toLineState ∧
      t.nt = s.nt ∧
      t.hbm = s.hbm) ∧
  (∀ (s : State) (mcd rep : Nat) (y : Replica),
    s.live pgMCR = true →
    (s.mcd mcd).wait = true →
    (s.mcd mcd).reps[rep]? = some y →
    y.state = .residue →
    (s.que y.queue).residue.head? = some (mcd, rep) →
    s.admission y.queue y.frame.qlen false = none →
    y.frame.ecn = none →
    ∃ t, exec (.residueReady mcd rep) s = .next t ∧
      (t.que y.queue).frames = (s.que y.queue).frames ++ [y.frame] ∧
      (t.que y.queue).residue = (s.que y.queue).residue.filter (fun e => e ≠ (mcd, rep)) ∧
      ((t.mcd mcd).reps[rep]?).map (fun z => z.state) = some .queued ∧
      t.rd pgMCR MCR.MCR_CNT 2 = (s.rd pgMCR MCR.MCR_CNT 2 + 1) % 2 ^ MCR.MCR_CNT.w ∧
      t.toBandState = s.toBandState ∧
      t.toLineState = s.toLineState ∧
      t.toPipeState = s.toPipeState ∧
      t.nt = s.nt ∧
      t.hbm = s.hbm) ∧
  (∀ (s : State) (mcd : Nat) (y : Replica),
    s.live pgMCR = true →
    (s.mcd mcd).since + ticksUs (max 1 (s.rd pgMCR MCR.MCR_CTL_RES_TO_US)) ≤ s.ticks →
    (s.mcd mcd).wait = true →
    (s.mcd mcd).reps = [y] →
    y.state = .residue →
    (s.mcd mcd).remain ≤ 1 →
    s.residueReady mcd 0 = false →
    ∃ t, exec (.residueTimeout mcd) s = .next t ∧
      tget t.mcds mcd = none ∧
      (t.que y.queue).residue = (s.que y.queue).residue.filter (fun e => e ≠ (mcd, 0)) ∧
      t.rd pgMCR MCR.MCR_CNT 3 = (s.rd pgMCR MCR.MCR_CNT 3 + 1) % 2 ^ MCR.MCR_CNT.w ∧
      bit (t.rd (pgMCR) COMMON.INT_CAUSE_CAUSE) 0 = true ∧
      t.toBandState = s.toBandState ∧
      t.toLineState = s.toLineState ∧
      t.toPipeState = s.toPipeState ∧
      t.nt = s.nt ∧
      t.hbm = s.hbm) ∧
  (∀ (s : State) (mcd : Nat) (y : Replica),
    s.live pgMCR = true →
    s.pressedMcd = some mcd →
    s.pressDue = true →
    (s.mcd mcd).wait = true →
    (s.mcd mcd).reps = [y] →
    y.state = .residue →
    (s.mcd mcd).remain ≤ 1 →
    s.residueReady mcd 0 = false →
    ∃ t, exec (.residuePressure) s = .next t ∧
      tget t.mcds mcd = none ∧
      (t.que y.queue).residue = (s.que y.queue).residue.filter (fun e => e ≠ (mcd, 0)) ∧
      t.rd pgMCR MCR.MCR_CNT 4 = (s.rd pgMCR MCR.MCR_CNT 4 + 1) % 2 ^ MCR.MCR_CNT.w ∧
      bit (t.rd (pgMCR) COMMON.INT_CAUSE_CAUSE) 0 = true ∧
      t.toBandState = s.toBandState ∧
      t.toLineState = s.toLineState ∧
      t.toPipeState = s.toPipeState ∧
      t.nt = s.nt ∧
      t.hbm = s.hbm) ∧
  (∀ (s : State) (mcd rep : Nat) (x : Mcd) (y : Replica),
    s.live pgMCR = true →
    tget s.mcds mcd = some x →
    x.reps[rep]? = some y →
    y.state = .queued →
    1 < x.remain →
    ∃ t, exec (.replicaCompletion mcd rep false) s = .next t ∧
      (t.mcd mcd).remain = x.remain - 1 ∧
      ((t.mcd mcd).reps[rep]?).map (fun z => z.state) = some .sent ∧
      t.bufs = s.bufs ∧
      t.toBandState = s.toBandState ∧
      t.toLineState = s.toLineState ∧
      t.toPipeState = s.toPipeState ∧
      t.nt = s.nt ∧
      t.hbm = s.hbm) ∧
  (∀ (s : State) (mcd rep : Nat) (dropped : Bool) (x : Mcd) (y : Replica),
    s.live pgMCR = true →
    tget s.mcds mcd = some x →
    x.reps[rep]? = some y →
    y.state = .queued →
    x.remain ≤ 1 →
    ∃ t, exec (.replicaCompletion mcd rep dropped) s = .next t ∧
      tget t.mcds mcd = none ∧
      t.toBandState = s.toBandState ∧
      t.toLineState = s.toLineState ∧
      t.toPipeState = s.toPipeState ∧
      t.nt = s.nt ∧
      t.hbm = s.hbm) ∧
  (∀ (s : State) (mcd rep : Nat) (dropped : Bool),
    s.live pgMCR = true →
    tget s.mcds mcd = none →
    ∃ t, exec (.replicaCompletion mcd rep dropped) s = .next t ∧
      t.mcds = s.mcds ∧
      t.bufs = s.bufs ∧
      t.rd pgMCR MCR.MCR_CNT 6 = (s.rd pgMCR MCR.MCR_CNT 6 + 1) % 2 ^ MCR.MCR_CNT.w ∧
      bit (t.rd (pgMCR) COMMON.INT_CAUSE_CAUSE) 2 = true ∧
      t.toBandState = s.toBandState ∧
      t.toLineState = s.toLineState ∧
      t.toPipeState = s.toPipeState ∧
      t.toQdState = s.toQdState ∧
      t.nt = s.nt) ∧
  (∀ (s : State) (value : Nat),
    s.Reaches pgMCR MCR.GRP_DATA_LIST_BASE.off →
    bits value 18 11 ≤ 1024 →
    bits value 0 18 + bits value 18 11 ≤ 262144 →
    ∃ t, exec (.mcrGroupWrite value) s = .next t ∧
      tgetD t.groups (s.rd pgMCR MCR.GRP_IDX_GROUP) 0 = value % 2 ^ 29 + bits value 31 1 * 2 ^ 31 ∧
      t.repList = s.repList ∧
      t.mcds = s.mcds ∧
      t.toBandState = s.toBandState ∧
      t.toLineState = s.toLineState ∧
      t.toPipeState = s.toPipeState ∧
      t.toHostState = s.toHostState ∧
      t.toMgmtState = s.toMgmtState ∧
      t.nt = s.nt ∧
      t.hbm = s.hbm) ∧
  (∀ (s : State) (value : Nat),
    s.Reaches pgMCR MCR.LIST_DATA_REPLICA.off →
    ∃ t, exec (.mcrListWrite value) s = .next t ∧
      tgetD t.repList (s.rd pgMCR MCR.LIST_IDX_ENTRY) 0 = value % 2 ^ 32 ∧
      t.groups = s.groups ∧
      t.mcds = s.mcds ∧
      t.toBandState = s.toBandState ∧
      t.toLineState = s.toLineState ∧
      t.toPipeState = s.toPipeState ∧
      t.toHostState = s.toHostState ∧
      t.toMgmtState = s.toMgmtState ∧
      t.nt = s.nt ∧
      t.hbm = s.hbm)

/-- A decision of a port whose descent ends at a queue takes the granted run of frames from the queue and sends each over the Band
with its port and MAC queue. A slot's MSC takes the head of the MAC queue it selects. A node write without error stores the staged
words and ends DONE; a read stages the node's words. A profile word is stored, its rate held to 1,600,000. A flush empties its
queue and runs until its completion, which ends it DONE with cause 1; an abort before any drop ends it ABORTED. The fabric arbiter
grants the one eligible express VOQ its run. Rules followed: R406, R412, R413, R419, R420, R422, R424, R425, R426, R428, R430. -/
def Obligations.SchedulerCommands : Prop :=
  (∀ (s : State) (port q : Nat) (path : List (Nat × Nat × Bool)),
    port < 256 →
    s.schedOn = true →
    ((s.elig 1 port).1 = true ∨ (s.elig 1 port).2 = true) →
    (s.descend 4 1 port).map (fun x => x.2) = some path →
    path.getLast?.map (fun x => x.2.1) = some q →
    s.discards port = false →
    ∃ t, exec (.schedDecision port false) s = .next t ∧
      (t.que q).frames = (grantRun (s.slotBytes port) 0 (s.que q).frames).2 ∧
      t.toFd = s.toFd ++ (grantRun (s.slotBytes port) 0 (s.que q).frames).1.map (fun f => { f with outPort := port, macq := s.macqOf q }) ∧
      t.toBandState = s.toBandState ∧
      t.toPipeState = s.toPipeState ∧
      t.nt = s.nt ∧
      t.hbm = s.hbm) ∧
  (∀ (s : State) (slot q : Nat) (f : Frame) (rest : List Frame),
    s.macSends slot = true →
    (s.mac slot).sending = [] →
    s.pickQueue slot = some q →
    (s.mac slot).txq.getD q [] = f :: rest →
    ∃ t, exec (.mscTakeFrame slot) s = .next t ∧
      t.mac slot = { s.mac slot with txq := lset (s.mac slot).txq q rest, sending := [f], idleFrom := s.ticks, credit := lset (s.mac slot).credit q ((s.mac slot).credit.getD q 0 - (f.qlen + 20)) } ∧
      t.toBandState = s.toBandState ∧
      t.toPipeState = s.toPipeState ∧
      t.toQdState = s.toQdState ∧
      t.toHostState = s.toHostState ∧
      t.toMgmtState = s.toMgmtState ∧
      t.nt = s.nt) ∧
  (∀ (s : State) (level tag i : Nat),
    1 ≤ level →
    level ≤ 5 →
    s.Reaches (pgSCH level) SCH.NODE_CMD_OP.off →
    i = s.rd (pgSCH level) SCH.NODE_IDX_INDEX →
    s.nodeErr level i (s.stagedNode level) = 0 →
    ∃ t, exec (.nodeWrite level tag) s = .next t ∧
      (t.node level i).words = s.stagedNode level ∧
      t.rd (pgSCH level) SCH.NODE_RES.status = 1 ∧
      t.rd (pgSCH level) SCH.NODE_RES.tag = tag % 256 ∧
      t.rd (pgSCH level) SCH.NODE_RES.valid = 1 ∧
      t.toBandState = s.toBandState ∧
      t.toLineState = s.toLineState ∧
      t.toPipeState = s.toPipeState ∧
      t.toHostState = s.toHostState ∧
      t.toMgmtState = s.toMgmtState ∧
      t.nt = s.nt ∧
      t.hbm = s.hbm) ∧
  (∀ (s : State) (level tag i k : Nat),
    1 ≤ level →
    level ≤ 5 →
    s.Reaches (pgSCH level) SCH.NODE_CMD_OP.off →
    i = s.rd (pgSCH level) SCH.NODE_IDX_INDEX →
    i < levelSize level →
    k < 4 →
    ∃ t, exec (.nodeRead level tag) s = .next t ∧
      t.rd (pgSCH level) SCH.NODE_W_WORD k = (s.node level i).word k % 2 ^ 32 ∧
      t.nodes = s.nodes ∧
      t.rd (pgSCH level) SCH.NODE_RES.status = 1 ∧
      t.rd (pgSCH level) SCH.NODE_RES.tag = tag % 256 ∧
      t.rd (pgSCH level) SCH.NODE_RES.valid = 1 ∧
      t.toBandState = s.toBandState ∧
      t.toLineState = s.toLineState ∧
      t.toPipeState = s.toPipeState ∧
      t.toQdState = s.toQdState ∧
      t.toHostState = s.toHostState ∧
      t.toMgmtState = s.toMgmtState ∧
      t.nt = s.nt) ∧
  (∀ (s : State) (profile value : Nat),
    s.Reaches pgSHP 0x8000 →
    profile < 4096 →
    bit value 31 = true →
    ∃ t, exec (.shpProfileWrite profile 0 value) s = .next t ∧
      t.rd pgSHP SHP.PROF_A_RATE profile = min 1600000 (bits value 0 22) ∧
      t.rd pgSHP SHP.PROF_A_VALID profile = 1 ∧
      t.shpDead = s.shpDead.filter (fun x => x ≠ profile) ∧
      t.nodes = s.nodes ∧
      t.queues = s.queues ∧
      t.toBandState = s.toBandState ∧
      t.toLineState = s.toLineState ∧
      t.toPipeState = s.toPipeState ∧
      t.toHostState = s.toHostState ∧
      t.toMgmtState = s.toMgmtState ∧
      t.nt = s.nt ∧
      t.hbm = s.hbm) ∧
  (∀ (s : State) (profile value : Nat),
    s.Reaches pgSHP 0x8000 →
    profile < 4096 →
    ∃ t, exec (.shpProfileWrite profile 1 value) s = .next t ∧
      t.rd pgSHP SHP.PROF_B_BURST profile = bits value SHP.PROF_B_BURST.lo SHP.PROF_B_BURST.w ∧
      t.rd pgSHP SHP.PROF_B_OVERHEAD profile = bits value SHP.PROF_B_OVERHEAD.lo SHP.PROF_B_OVERHEAD.w ∧
      t.rd pgSHP SHP.PROF_A_RATE profile = s.rd pgSHP SHP.PROF_A_RATE profile ∧
      t.toBandState = s.toBandState ∧
      t.toLineState = s.toLineState ∧
      t.toPipeState = s.toPipeState ∧
      t.toQdState = s.toQdState ∧
      t.toHostState = s.toHostState ∧
      t.toMgmtState = s.toMgmtState ∧
      t.nt = s.nt) ∧
  (∀ (s : State) (sweep : Bool) (tag q : Nat),
    s.Reaches pgQSU QSU.QSU_CMD_OP.off →
    s.flush = none →
    q = s.rd pgQSU QSU.QSU_CMD_Q_QUEUE →
    q < 294912 →
    ∃ t, exec (.qsuFlush sweep tag) s = .next t ∧
      t.flush = some { queue := q, sweep := sweep, tag := tag % 256, dropped := (s.que q).frames.length, late := false } ∧
      (t.que q).frames = [] ∧
      t.rd pgQSU COMMON.PAGE_STS_BUSY = 1 ∧
      t.rd pgQSU QSU.QSU_RES.valid = 0 ∧
      t.toBandState = s.toBandState ∧
      t.toLineState = s.toLineState ∧
      t.toPipeState = s.toPipeState ∧
      t.nt = s.nt ∧
      t.hbm = s.hbm) ∧
  (∀ (s : State) (x : Flush),
    s.live pgQSU = true →
    s.flush = some x →
    x.sweep = false →
    x.quiet = false →
    ∃ t, exec (.qsuFlushComplete) s = .next t ∧
      t.flush = none ∧
      (t.que x.queue).halted = false ∧
      (t.que x.queue).frames = (s.que x.queue).frames ∧
      t.rd pgQSU COMMON.PAGE_STS_BUSY = 0 ∧
      t.rd pgQSU QSU.QSU_RES.status = 1 ∧
      t.rd pgQSU QSU.QSU_RES.tag = x.tag % 256 ∧
      bit (t.rd pgQSU COMMON.INT_CAUSE_CAUSE) 1 = true ∧
      t.toBandState = s.toBandState ∧
      t.toLineState = s.toLineState ∧
      t.toPipeState = s.toPipeState ∧
      t.nt = s.nt ∧
      t.hbm = s.hbm) ∧
  (∀ (s : State) (tag : Nat) (x : Flush),
    s.Reaches pgQSU QSU.QSU_CMD_OP.off →
    s.flush = some x →
    x.dropped = 0 →
    x.quiet = false →
    ∃ t, exec (.qsuAbort tag) s = .next t ∧
      t.flush = none ∧
      t.queues = s.queues ∧
      t.rd pgQSU COMMON.PAGE_STS_BUSY = 0 ∧
      t.rd pgQSU QSU.QSU_RES.status = 2 ∧
      t.rd pgQSU QSU.QSU_RES.tag = x.tag % 256 ∧
      t.toBandState = s.toBandState ∧
      t.toLineState = s.toLineState ∧
      t.toPipeState = s.toPipeState ∧
      t.toHostState = s.toHostState ∧
      t.toMgmtState = s.toMgmtState ∧
      t.nt = s.nt ∧
      t.hbm = s.hbm) ∧
  (∀ (s : State) (v : Nat),
    s.enabled pgQSU = true →
    s.enabled pgFAB = true →
    s.voqList = [v] →
    s.voqHeld v = false →
    v % 8 = 7 →
    (voqRun 0 (s.que (voq0 + v)).frames).1.all (fun f => !f.poison && !f.err && f.fcsGood) = true →
    ∃ t, exec (.voqDecision) s = .next t ∧
      (t.que (voq0 + v)).frames = (voqRun 0 (s.que (voq0 + v)).frames).2 ∧
      t.spray = s.spray ++ (voqRun 0 (s.que (voq0 + v)).frames).1.map (fun f => { frame := f, dst := v / 8, cls := 7, sent := 0 }) ∧
      tget t.voqLast 7 = some (v / 8) ∧
      t.toBandState = s.toBandState ∧
      t.toLineState = s.toLineState ∧
      t.toPipeState = s.toPipeState ∧
      t.nt = s.nt ∧
      t.hbm = s.hbm)

/-- For a link of the device in power, by its state: EN = 1 takes OFF to ADAPT and EN = 0 any state to OFF; adaptation leads to
LOCK, lock to HELLO, wake-up to ACTIVE with cause 1; hold-down with EN leads DOWN to ADAPT; signal wakes a dozing link; a doze
request takes an ACTIVE link out of the masks and drains it. A timeout in ADAPT, LOCK, HELLO or WAKE, and on an ACTIVE link the
loss of lock, the codeword threshold, a HELLO timeout or FORCE_DOWN lead to DOWN with their cause number recorded and counted.
Rules followed: R437, R438, R440, R444, R445, R446, R447. -/
def Obligations.FabricLinkStates : Prop :=
  (∀ (s : State) (link : Nat),
    link < s.linkCount →
    s.Reaches (linkPage link) (0x100 + 32 * linkSlot link) →
    s.linkState link = lOFF →
    ∃ t, exec (.linkEnable link) s = .next t ∧
      t.linkState link = lADAPT ∧
      t.lrd link FIU.LINK_CTL_EN = 1 ∧
      t.link link = { s.link link with sframe := [], scr := none, since := s.ticks } ∧
      t.toBandState = s.toBandState ∧
      t.toLineState = s.toLineState ∧
      t.toPipeState = s.toPipeState ∧
      t.nt = s.nt ∧
      t.hbm = s.hbm) ∧
  (∀ (s : State) (link : Nat),
    link < s.linkCount →
    s.Reaches (linkPage link) (0x100 + 32 * linkSlot link) →
    ∃ t, exec (.linkDisable link) s = .next t ∧
      t.linkState link = lOFF ∧
      t.lrd link FIU.LINK_CTL_EN = 0 ∧
      t.lrd link FIU.LINK_STS_SF_LOCK = 0 ∧
      (t.link link).fifo = [] ∧
      t.toBandState = s.toBandState ∧
      t.toLineState = s.toLineState ∧
      t.toPipeState = s.toPipeState ∧
      t.nt = s.nt ∧
      t.hbm = s.hbm) ∧
  (∀ (s : State) (link snr : Nat),
    s.linkOk link = true →
    s.linkState link = lADAPT →
    ∃ t, exec (.linkAdaptDone link snr) s = .next t ∧
      t.linkState link = lLOCK ∧
      t.lrd link FIU.RX_EQ_STS_SNR = snr % 2 ^ FIU.RX_EQ_STS_SNR.w ∧
      t.toBandState = s.toBandState ∧
      t.toLineState = s.toLineState ∧
      t.toPipeState = s.toPipeState ∧
      t.nt = s.nt ∧
      t.hbm = s.hbm) ∧
  (∀ (s : State) (link : Nat),
    s.linkOk link = true →
    s.linkState link = lADAPT →
    s.linkFor link (ticksMs (s.rd pgFAB FAB.TRAIN_TMO_ADAPT_MS)) = true →
    ∃ t, exec (.linkAdaptTimeout link) s = .next t ∧
      t.linkState link = lDOWN ∧
      t.lrd link FIU.LINK_DOWNS_LAST_CAUSE = 1 ∧
      t.lrd link FIU.LINK_DOWNS_COUNT = satAdd (s.lrd link FIU.LINK_DOWNS_COUNT) 1 (2 ^ FIU.LINK_DOWNS_COUNT.w - 1) ∧
      t.lrd link FIU.LINK_STS_SF_LOCK = 0 ∧
      t.toBandState = s.toBandState ∧
      t.toLineState = s.toLineState ∧
      t.toPipeState = s.toPipeState ∧
      t.nt = s.nt ∧
      t.hbm = s.hbm) ∧
  (∀ (s : State) (link : Nat),
    s.linkOk link = true →
    s.linkState link = lLOCK →
    ∃ t, exec (.superframeLock link) s = .next t ∧
      t.linkState link = lHELLO ∧
      t.lrd link FIU.LINK_STS_SF_LOCK = 1 ∧
      t.toBandState = s.toBandState ∧
      t.toLineState = s.toLineState ∧
      t.toPipeState = s.toPipeState ∧
      t.nt = s.nt ∧
      t.hbm = s.hbm) ∧
  (∀ (s : State) (link : Nat),
    s.linkOk link = true →
    s.linkState link = lLOCK →
    s.linkFor link (ticksMs (s.rd pgFAB FAB.TRAIN_TMO_LOCK_MS)) = true →
    ∃ t, exec (.linkLockTimeout link) s = .next t ∧
      t.linkState link = lDOWN ∧
      t.lrd link FIU.LINK_DOWNS_LAST_CAUSE = 2 ∧
      t.lrd link FIU.LINK_DOWNS_COUNT = satAdd (s.lrd link FIU.LINK_DOWNS_COUNT) 1 (2 ^ FIU.LINK_DOWNS_COUNT.w - 1) ∧
      t.lrd link FIU.LINK_STS_SF_LOCK = 0 ∧
      t.toBandState = s.toBandState ∧
      t.toLineState = s.toLineState ∧
      t.toPipeState = s.toPipeState ∧
      t.nt = s.nt ∧
      t.hbm = s.hbm) ∧
  (∀ (s : State) (link : Nat),
    s.linkOk link = true →
    s.linkState link = lACTIVE →
    ∃ t, exec (.superframeLockLoss link) s = .next t ∧
      t.linkState link = lDOWN ∧
      t.lrd link FIU.LINK_DOWNS_LAST_CAUSE = 5 ∧
      t.lrd link FIU.LINK_DOWNS_COUNT = satAdd (s.lrd link FIU.LINK_DOWNS_COUNT) 1 (2 ^ FIU.LINK_DOWNS_COUNT.w - 1) ∧
      t.lrd link FIU.LINK_STS_SF_LOCK = 0 ∧
      t.toBandState = s.toBandState ∧
      t.toLineState = s.toLineState ∧
      t.toPipeState = s.toPipeState ∧
      t.nt = s.nt ∧
      t.hbm = s.hbm) ∧
  (∀ (s : State) (link : Nat),
    s.linkOk link = true →
    s.linkState link = lACTIVE →
    s.rd pgFAB FAB.PCS_CFG_UNCORR_DOWN ≠ 0 →
    ∃ t, exec (.uncorrThreshold link) s = .next t ∧
      t.linkState link = lDOWN ∧
      t.lrd link FIU.LINK_DOWNS_LAST_CAUSE = 6 ∧
      t.lrd link FIU.LINK_DOWNS_COUNT = satAdd (s.lrd link FIU.LINK_DOWNS_COUNT) 1 (2 ^ FIU.LINK_DOWNS_COUNT.w - 1) ∧
      t.lrd link FIU.LINK_STS_SF_LOCK = 0 ∧
      t.toBandState = s.toBandState ∧
      t.toLineState = s.toLineState ∧
      t.toPipeState = s.toPipeState ∧
      t.nt = s.nt ∧
      t.hbm = s.hbm) ∧
  (∀ (s : State) (link : Nat),
    s.linkOk link = true →
    s.linkState link = lHELLO →
    s.helloLate link = true →
    ∃ t, exec (.helloTimeout link) s = .next t ∧
      t.linkState link = lDOWN ∧
      t.lrd link FIU.LINK_DOWNS_LAST_CAUSE = 3 ∧
      t.lrd link FIU.LINK_DOWNS_COUNT = satAdd (s.lrd link FIU.LINK_DOWNS_COUNT) 1 (2 ^ FIU.LINK_DOWNS_COUNT.w - 1) ∧
      t.lrd link FIU.LINK_STS_SF_LOCK = 0 ∧
      t.toBandState = s.toBandState ∧
      t.toLineState = s.toLineState ∧
      t.toPipeState = s.toPipeState ∧
      t.nt = s.nt ∧
      t.hbm = s.hbm) ∧
  (∀ (s : State) (link : Nat),
    s.linkOk link = true →
    s.linkState link = lACTIVE →
    s.helloLate link = true →
    ∃ t, exec (.helloTimeout link) s = .next t ∧
      t.linkState link = lDOWN ∧
      t.lrd link FIU.LINK_DOWNS_LAST_CAUSE = 3 ∧
      t.lrd link FIU.LINK_DOWNS_COUNT = satAdd (s.lrd link FIU.LINK_DOWNS_COUNT) 1 (2 ^ FIU.LINK_DOWNS_COUNT.w - 1) ∧
      t.lrd link FIU.LINK_STS_SF_LOCK = 0 ∧
      t.toBandState = s.toBandState ∧
      t.toLineState = s.toLineState ∧
      t.toPipeState = s.toPipeState ∧
      t.nt = s.nt ∧
      t.hbm = s.hbm) ∧
  (∀ (s : State) (link : Nat),
    link < s.linkCount →
    s.Reaches (linkPage link) (0x100 + 32 * linkSlot link) →
    s.linkState link = lACTIVE →
    ∃ t, exec (.linkForceDown link) s = .next t ∧
      t.linkState link = lDOWN ∧
      t.lrd link FIU.LINK_DOWNS_LAST_CAUSE = 8 ∧
      t.lrd link FIU.LINK_DOWNS_COUNT = satAdd (s.lrd link FIU.LINK_DOWNS_COUNT) 1 (2 ^ FIU.LINK_DOWNS_COUNT.w - 1) ∧
      t.lrd link FIU.LINK_STS_SF_LOCK = 0 ∧
      t.toBandState = s.toBandState ∧
      t.toLineState = s.toLineState ∧
      t.toPipeState = s.toPipeState ∧
      t.nt = s.nt ∧
      t.hbm = s.hbm) ∧
  (∀ (s : State) (link : Nat),
    s.linkOk link = true →
    s.linkState link = lDOWN →
    s.lrd link FIU.LINK_CTL_EN = 1 →
    s.linkFor link (ticksMs (s.rd pgFAB FAB.TRAIN_TMO_HOLDDOWN_MS)) = true →
    ∃ t, exec (.linkHolddownExpiry link) s = .next t ∧
      t.linkState link = lADAPT ∧
      t.toBandState = s.toBandState ∧
      t.toLineState = s.toLineState ∧
      t.toPipeState = s.toPipeState ∧
      t.nt = s.nt ∧
      t.hbm = s.hbm) ∧
  (∀ (s : State) (link : Nat),
    link < s.linkCount →
    s.Reaches (linkPage link) (0x100 + 32 * linkSlot link) →
    s.linkState link = lACTIVE →
    s.linkLaneTx link = true →
    ∃ t, exec (.linkDozeRequest link) s = .next t ∧
      t.linkState link = lACTIVE ∧
      t.lrd link FIU.LINK_CTL_DOZE = 1 ∧
      (t.link link).out = true ∧
      (t.link link).fifo = [] ∧
      Out.cell link (cellBytes (2 ^ 126 + 5 * 2 ^ 120 + s.ownId * 2 ^ 108 + s.tier * 2 ^ 106 + link * 2 ^ 97) []) ∈ t.out ∧
      t.toBandState = s.toBandState ∧
      t.toLineState = s.toLineState ∧
      t.toPipeState = s.toPipeState ∧
      t.nt = s.nt ∧
      t.hbm = s.hbm) ∧
  (∀ (s : State) (link : Nat),
    s.linkOk link = true →
    s.linkState link = lDOZE →
    ∃ t, exec (.linkWake link true) s = .next t ∧
      t.linkState link = lWAKE ∧
      (t.link link).out = false ∧
      (t.link link).acked = false ∧
      t.toBandState = s.toBandState ∧
      t.toLineState = s.toLineState ∧
      t.toPipeState = s.toPipeState ∧
      t.nt = s.nt ∧
      t.hbm = s.hbm) ∧
  (∀ (s : State) (link : Nat),
    s.linkOk link = true →
    s.linkState link = lWAKE →
    s.lrd link FIU.LINK_STS_SF_LOCK = 1 →
    (s.link link).acked = true →
    s.lrd link FIU.LINK_CTL_FORCE_DOWN = 0 →
    ∃ t, exec (.linkWakeDone link) s = .next t ∧
      t.linkState link = lACTIVE ∧
      (t.link link).out = false ∧
      bit (t.rd (linkPage link) COMMON.INT_CAUSE_CAUSE) 1 = true ∧
      t.toBandState = s.toBandState ∧
      t.toLineState = s.toLineState ∧
      t.toPipeState = s.toPipeState ∧
      t.nt = s.nt ∧
      t.hbm = s.hbm) ∧
  (∀ (s : State) (link : Nat),
    s.linkOk link = true →
    s.linkState link = lWAKE →
    s.linkFor link (ticksUs 10) = true →
    ∃ t, exec (.linkWakeTimeout link) s = .next t ∧
      t.linkState link = lDOWN ∧
      t.lrd link FIU.LINK_DOWNS_LAST_CAUSE = 9 ∧
      t.lrd link FIU.LINK_DOWNS_COUNT = satAdd (s.lrd link FIU.LINK_DOWNS_COUNT) 1 (2 ^ FIU.LINK_DOWNS_COUNT.w - 1) ∧
      t.lrd link FIU.LINK_STS_SF_LOCK = 0 ∧
      t.toBandState = s.toBandState ∧
      t.toLineState = s.toLineState ∧
      t.toPipeState = s.toPipeState ∧
      t.nt = s.nt ∧
      t.hbm = s.hbm)

/-- On a link that receives, a good control cell is counted and: a HELLO that passes, with ACK, makes a HELLO link ACTIVE; REACH
and FC replace the link's bitmaps; DOZE_REQ and DOZE_ACK make an ACTIVE link that allows it doze; an unknown one is counted with
cause 3; a STROBE with a new ID and a coming target schedules the strobe. Sending puts the cell on the link: a HELLO, an element's
REACH, its FC on every down link. SNAP_CMD takes the next ID and schedules the strobe; at its target it fires. Rules followed:
R440, R441, R443, R446, R449, R454, R456, R458, R459, R481, R482, R483. -/
def Obligations.FabricControlCells : Prop :=
  (∀ (s : State) (link : Nat) (cell : List Byte),
    s.linkReceives link = true →
    cellGood cell = true →
    bits (beNat (cell.take 16)) 126 2 = 1 →
    bits (beNat (cell.take 16)) 120 6 = 1 →
    s.linkState link = lHELLO →
    s.helloPasses link (beNat (cell.take 16)) (pad512 (cell.drop 16)) = true →
    bit (beAt (pad512 (cell.drop 16)) 2 1) 1 = true →
    s.lrd link FIU.LINK_CTL_FORCE_DOWN = 0 →
    ∃ t, exec (.helloReceive link cell) s = .next t ∧
      t.linkState link = lACTIVE ∧
      (t.link link).helloAt = some s.ticks ∧
      t.lrd link FIU.LINK_STS_FAR_DEV = bits (beNat (cell.take 16)) 108 12 ∧
      bit (t.rd (linkPage link) COMMON.INT_CAUSE_CAUSE) 1 = true ∧
      t.toBandState = s.toBandState ∧
      t.toLineState = s.toLineState ∧
      t.toPipeState = s.toPipeState ∧
      t.nt = s.nt ∧
      t.hbm = s.hbm) ∧
  (∀ (s : State) (link : Nat),
    s.linkOk link = true →
    s.linkState link = lACTIVE →
    s.linkLaneTx link = true →
    (s.link link).sframe.length < 19 →
    ∃ t, exec (.helloSend link) s = .next t ∧
      t.out = .cell link (cellBytes (2 ^ 126 + 1 * 2 ^ 120 + s.ownId * 2 ^ 108 + s.tier * 2 ^ 106 + link * 2 ^ 97) (toBe 2 (s.rd pgFAB FAB.FAB_CFG_SYSTEM_ID) ++ [byteOf (b2n (s.sendsRxOk link) + 2 * b2n (s.sendsAck link) + 4 * s.lrd link FIU.LINK_CTL_DOZE_ALLOW), byteOf (b2n s.fabric)])) :: s.out ∧
      (t.link link).sframe.length = (s.link link).sframe.length + 1 ∧
      (t.link link).fifo = (s.link link).fifo ∧
      t.toBandState = s.toBandState ∧
      t.toLineState = s.toLineState ∧
      t.toPipeState = s.toPipeState ∧
      t.nt = s.nt ∧
      t.hbm = s.hbm ∧
      t.toHostState = s.toHostState ∧
      t.toMgmtState = s.toMgmtState) ∧
  (∀ (s : State) (link : Nat),
    s.linkOk link = true →
    s.linkState link = lACTIVE →
    s.linkLaneTx link = true →
    (s.link link).sframe.length < 19 →
    s.isElement = true →
    ∃ t, exec (.reachSend link) s = .next t ∧
      t.out = .cell link (cellBytes (2 ^ 126 + 2 * 2 ^ 120 + s.ownId * 2 ^ 108 + s.tier * 2 ^ 106 + link * 2 ^ 97) (bitmapBytes (s.reachBits link))) :: s.out ∧
      (t.link link).sframe.length = (s.link link).sframe.length + 1 ∧
      (t.link link).fifo = (s.link link).fifo ∧
      t.toBandState = s.toBandState ∧
      t.toLineState = s.toLineState ∧
      t.toPipeState = s.toPipeState ∧
      t.nt = s.nt ∧
      t.hbm = s.hbm ∧
      t.toHostState = s.toHostState ∧
      t.toMgmtState = s.toMgmtState) ∧
  (∀ (s : State) (link : Nat) (cell : List Byte),
    s.linkReceives link = true →
    cellGood cell = true →
    bits (beNat (cell.take 16)) 126 2 = 1 →
    bits (beNat (cell.take 16)) 120 6 = 2 →
    ∃ t, exec (.reachReceive link cell) s = .next t ∧
      (t.link link).reach = bitmapOf (pad512 (cell.drop 16)) ∧
      (t.link link).fc = (s.link link).fc ∧
      t.toBandState = s.toBandState ∧
      t.toLineState = s.toLineState ∧
      t.toPipeState = s.toPipeState ∧
      t.nt = s.nt ∧
      t.hbm = s.hbm) ∧
  (∀ (s : State) (l : Nat),
    s.isElement = true →
    l ∈ s.activeLinks →
    s.isUp l = false →
    s.linkLaneTx l = true →
    ∃ t, exec (.fcSend) s = .next t ∧
      Out.cell l (cellBytes (2 ^ 126 + 3 * 2 ^ 120 + s.ownId * 2 ^ 108 + s.tier * 2 ^ 106 + l * 2 ^ 97) (bitmapBytes (s.activeLinks.foldl (fun a k => if s.isUp k then orBits a (s.link k).fc else a) s.felXoff))) ∈ t.out ∧
      t.felXoff = s.felXoff ∧
      t.toBandState = s.toBandState ∧
      t.toLineState = s.toLineState ∧
      t.toPipeState = s.toPipeState ∧
      t.nt = s.nt ∧
      t.hbm = s.hbm ∧
      t.toHostState = s.toHostState ∧
      t.toMgmtState = s.toMgmtState) ∧
  (∀ (s : State) (link : Nat) (cell : List Byte),
    s.linkReceives link = true →
    cellGood cell = true →
    bits (beNat (cell.take 16)) 126 2 = 1 →
    bits (beNat (cell.take 16)) 120 6 = 3 →
    ∃ t, exec (.fcReceive link cell) s = .next t ∧
      (t.link link).fc = bitmapOf (pad512 (cell.drop 16)) ∧
      (t.link link).reach = (s.link link).reach ∧
      t.toBandState = s.toBandState ∧
      t.toLineState = s.toLineState ∧
      t.toPipeState = s.toPipeState ∧
      t.nt = s.nt ∧
      t.hbm = s.hbm ∧
      t.toHostState = s.toHostState ∧
      t.toMgmtState = s.toMgmtState) ∧
  (∀ (s : State) (link : Nat) (cell : List Byte),
    s.linkReceives link = true →
    cellGood cell = true →
    bits (beNat (cell.take 16)) 126 2 = 1 →
    bits (beNat (cell.take 16)) 120 6 = 5 →
    s.linkState link = lACTIVE →
    s.lrd link FIU.LINK_CTL_DOZE_ALLOW = 1 →
    s.linkLaneTx link = true →
    ∃ t, exec (.dozeReqReceive link cell) s = .next t ∧
      t.linkState link = lDOZE ∧
      (t.link link).out = true ∧
      (t.link link).fifo = [] ∧
      bit (t.rd (linkPage link) COMMON.INT_CAUSE_CAUSE) 4 = true ∧
      Out.cell link (cellBytes (2 ^ 126 + 6 * 2 ^ 120 + s.ownId * 2 ^ 108 + s.tier * 2 ^ 106 + link * 2 ^ 97) []) ∈ t.out ∧
      t.toBandState = s.toBandState ∧
      t.toLineState = s.toLineState ∧
      t.toPipeState = s.toPipeState ∧
      t.nt = s.nt ∧
      t.hbm = s.hbm) ∧
  (∀ (s : State) (link : Nat) (cell : List Byte),
    s.linkReceives link = true →
    cellGood cell = true →
    bits (beNat (cell.take 16)) 126 2 = 1 →
    bits (beNat (cell.take 16)) 120 6 = 6 →
    s.linkState link = lACTIVE →
    s.lrd link FIU.LINK_CTL_DOZE = 1 →
    ∃ t, exec (.dozeAckReceive link cell) s = .next t ∧
      t.linkState link = lDOZE ∧
      bit (t.rd (linkPage link) COMMON.INT_CAUSE_CAUSE) 4 = true ∧
      t.toBandState = s.toBandState ∧
      t.toLineState = s.toLineState ∧
      t.toPipeState = s.toPipeState ∧
      t.nt = s.nt ∧
      t.hbm = s.hbm) ∧
  (∀ (s : State) (link : Nat) (cell : List Byte),
    s.linkReceives link = true →
    cellGood cell = true →
    bits (beNat (cell.take 16)) 126 2 = 1 →
    bits (beNat (cell.take 16)) 120 6 = 9 →
    s.live pgFAB = true →
    ∃ t, exec (.unknownControlCell link cell) s = .next t ∧
      t.rd pgFAB FAB.FAB_CNT 7 = (s.rd pgFAB FAB.FAB_CNT 7 + 1) % 2 ^ 64 ∧
      bit (t.rd pgFAB COMMON.INT_CAUSE_CAUSE) 3 = true ∧
      t.toBandState = s.toBandState ∧
      t.toLineState = s.toLineState ∧
      t.toPipeState = s.toPipeState ∧
      t.toQdState = s.toQdState ∧
      t.nt = s.nt) ∧
  (∀ (s : State) (x : NetTime),
    s.Reaches pgFAB FAB.SNAP_CMD_SEND.off →
    x = { s.nt.shift (s.rd pgFAB FAB.SNAP_CMD_LEAD_US * 1000 * 2 ^ 48 : Nat) with frac := 0 } →
    ∃ t, exec (.fabSnapSend) s = .next t ∧
      t.rd pgFAB FAB.SNAP_STS_LAST_ID = (s.rd pgFAB FAB.SNAP_STS_LAST_ID + 1) % 65536 ∧
      t.fabStrobe = some x ∧
      t.rd pgFAB FAB.SNAP_STS_PENDING = 1 ∧
      t.rd pgFAB FAB.SNAP_T_LO_NS = x.ns % 2 ^ FAB.SNAP_T_LO_NS.w ∧
      t.felXoff = s.felXoff ∧
      t.toBandState = s.toBandState ∧
      t.toLineState = s.toLineState ∧
      t.toPipeState = s.toPipeState ∧
      t.nt = s.nt ∧
      t.hbm = s.hbm ∧
      t.toHostState = s.toHostState ∧
      t.toMgmtState = s.toMgmtState) ∧
  (∀ (s : State) (link : Nat) (cell : List Byte) (x : NetTime),
    s.linkReceives link = true →
    cellGood cell = true →
    bits (beNat (cell.take 16)) 126 2 = 1 →
    bits (beNat (cell.take 16)) 120 6 = 4 →
    beAt (pad512 (cell.drop 16)) 0 2 ≠ s.rd pgFAB FAB.SNAP_STS_LAST_ID →
    x = { sec := beAt (pad512 (cell.drop 16)) 2 6, ns := beAt (pad512 (cell.drop 16)) 8 4 % 2 ^ 30 } →
    s.on pgCRWN CRWN.STROBE_CTL_FABRIC_EN = true →
    x.lt s.nt = false →
    ∃ t, exec (.strobeCellReceive link cell) s = .next t ∧
      t.rd pgFAB FAB.SNAP_STS_LAST_ID = beAt (pad512 (cell.drop 16)) 0 2 ∧
      t.fabStrobe = some x ∧
      t.rd pgFAB FAB.SNAP_STS_PENDING = 1 ∧
      t.toBandState = s.toBandState ∧
      t.toLineState = s.toLineState ∧
      t.toPipeState = s.toPipeState ∧
      t.nt = s.nt ∧
      t.hbm = s.hbm) ∧
  (∀ (s : State) (x : NetTime),
    s.live pgFAB = true →
    s.fabStrobe = some x →
    s.nt.lt x = false →
    s.strobeAt = none →
    ∃ t, exec (.fabricStrobeTarget) s = .next t ∧
      t.fabStrobe = none ∧
      t.rd pgFAB FAB.SNAP_STS_PENDING = 0 ∧
      t.strobeAt = some s.ticks ∧
      t.rd pgCRWN CRWN.STROBE_SEQ_SEQ = (s.rd pgCRWN CRWN.STROBE_SEQ_SEQ + 1) % 65536 ∧
      t.toBandState = s.toBandState ∧
      t.toLineState = s.toLineState ∧
      t.toPipeState = s.toPipeState ∧
      t.nt = s.nt ∧
      t.hbm = s.hbm)

/-- Spraying puts the next cell of the oldest frame at the end of its link's FIFO and advances the destination's sequence number.
A fabric element queues an arriving cell that has a way out, with HOP one more, and sends the head of the express queue in its
slot. In a line device the Liner delivers an in-sequence single-cell frame at once to admission and expects the next number; at
its time bound a context skips to its first held cell; a context with no cell held becomes idle. Rules followed: R449, R450, R461,
R462, R463, R464, R466, R467, R473, R475, R476, R477. -/
def Obligations.FabricDataCells : Prop :=
  (∀ (s : State) (x : Spray) (rest : List Spray) (e l : Nat),
    s.spray = x :: rest →
    s.enabled pgFAB = true →
    s.sprayLink x.dst = some (e, l) →
    (s.link l).fifo.length < 4 →
    ∃ t, exec (.sprayCell) s = .next t ∧
      (t.link l).fifo = (s.link l).fifo ++ [(s.sprayCell x).encode] ∧
      tget t.seqs (8 * x.dst + x.cls) = some ((tgetD s.seqs (8 * x.dst + x.cls) 0 + 1) % 2 ^ 20) ∧
      t.sprayAt = e + 1 ∧
      t.rd pgFAB FAB.FAB_CNT 0 = (s.rd pgFAB FAB.FAB_CNT 0 + 1) % 2 ^ 64 ∧
      t.toBandState = s.toBandState ∧
      t.toLineState = s.toLineState ∧
      t.toPipeState = s.toPipeState ∧
      t.nt = s.nt ∧
      t.hbm = s.hbm) ∧
  (∀ (s : State) (link j b : Nat) (cell : List Byte) (d : Cell),
    s.fabric = true →
    s.live pgFEL = true →
    s.isElement = true →
    s.linkReceives link = true →
    cellGood cell = true →
    decodeCell cell = d →
    d.type = 0 →
    s.linkCrosses link = true →
    d.hop < 3 →
    d.cls = 7 →
    s.maskOf d.dst = [j] →
    (s.isUp link && s.isUp j) = false →
    (s.felQueue (8192 + j)).length < s.rd pgFEL FEL.QLIMITS_EXP_QMAX →
    s.enabled pgBPM = true →
    s.on pgBPM BPM.CARVE_STS_APPLIED = true →
    s.pickBuf 1 = some b →
    ∃ t, exec (.felCellArrive link cell []) s = .next t ∧
      t.felQueue (8192 + j) = s.felQueue (8192 + j) ++ [{ bytes := { d with hop := d.hop + 1 }.encode, dst := d.dst, express := true, buf := b }] ∧
      tget t.bufs (bufKey 1 b) = some { owner := 8192 + j } ∧
      t.rd pgFEL FEL.FEL_CNT 0 = (s.rd pgFEL FEL.FEL_CNT 0 + 1) % 2 ^ 64 ∧
      t.toBandState = s.toBandState ∧
      t.toLineState = s.toLineState ∧
      t.toPipeState = s.toPipeState ∧
      t.nt = s.nt ∧
      t.hbm = s.hbm) ∧
  (∀ (s : State) (link : Nat) (d : FelCell) (rest : List FelCell),
    s.linkOk link = true →
    s.linkState link = lACTIVE →
    s.isElement = true →
    (s.link link).slotAt ≠ some (slotOf s.ticks) →
    s.linkCrosses link = true →
    s.linkLaneTx link = true →
    s.felQueue (8192 + link) = d :: rest →
    d.express = true →
    ∃ t, exec (.felSlotSend link false) s = .next t ∧
      t.felQueue (8192 + link) = rest ∧
      Out.cell link d.bytes ∈ t.out ∧
      t.rd pgFEL FEL.FEL_CNT 8 = (s.rd pgFEL FEL.FEL_CNT 8 + 1) % 2 ^ 64 ∧
      t.toBandState = s.toBandState ∧
      t.toLineState = s.toLineState ∧
      t.toPipeState = s.toPipeState ∧
      t.nt = s.nt ∧
      t.hbm = s.hbm) ∧
  (∀ (s : State) (link : Nat) (cell : List Byte) (d : Cell),
    s.fabric = false →
    s.live pgLIN = true →
    s.enabled pgLIN = true →
    s.linkReceives link = true →
    cellGood cell = true →
    decodeCell cell = d →
    d.type = 0 →
    d.dst = s.ownId →
    (s.lin (8 * d.src + d.cls)).idle = false →
    (s.lin (8 * d.src + d.cls)).next = d.seq →
    (s.lin (8 * d.src + d.cls)).held = [] →
    d.sof = true →
    d.eof = true →
    d.seq < 2 ^ 20 →
    0 < s.linWindow →
    s.linUsed < 65536 →
    ∃ t, exec (.linerCell link cell [] false) s = .next t ∧
      (t.lin (8 * d.src + d.cls)).next = (d.seq + 1) % 2 ^ 20 ∧
      (t.lin (8 * d.src + d.cls)).held = [] ∧
      (t.lin (8 * d.src + d.cls)).partial_ = none ∧
      t.fabFrames.length = s.fabFrames.length + 1 ∧
      t.fabFrames.take s.fabFrames.length = s.fabFrames ∧
      t.rd pgLIN LIN.LIN_CNT 6 = (s.rd pgLIN LIN.LIN_CNT 6 + 1) % 2 ^ 64 ∧
      t.toBandState = s.toBandState ∧
      t.toLineState = s.toLineState ∧
      t.toPipeState = s.toPipeState ∧
      t.nt = s.nt ∧
      t.hbm = s.hbm) ∧
  (∀ (s : State) (source cls k q : Nat) (h : LinCell),
    source < 4096 →
    cls < 8 →
    k = 8 * source + cls →
    s.live pgLIN = true →
    (s.lin k).held = [(q, h)] →
    q < 2 ^ 20 →
    (s.lin k).idle = false →
    s.linLate k = true →
    (s.lin k).partial_ = none →
    h.sof = true →
    h.eof = false →
    ∃ t, exec (.linerTimeout source cls) s = .next t ∧
      (t.lin k).next = (q + 1) % 2 ^ 20 ∧
      (t.lin k).held = [] ∧
      (t.lin k).partial_ = some (h.payload, h.dport) ∧
      t.rd pgLIN LIN.LIN_CNT 2 = (s.rd pgLIN LIN.LIN_CNT 2 + 1) % 2 ^ 64 ∧
      bit (t.rd pgLIN COMMON.INT_CAUSE_CAUSE) 0 = true ∧
      t.toBandState = s.toBandState ∧
      t.toLineState = s.toLineState ∧
      t.toPipeState = s.toPipeState ∧
      t.nt = s.nt ∧
      t.hbm = s.hbm) ∧
  (∀ (s : State) (source cls : Nat),
    source < 4096 →
    cls < 8 →
    s.live pgLIN = true →
    (s.lin (8 * source + cls)).held = [] →
    (s.lin (8 * source + cls)).idle = false →
    ticksUs (s.rd pgLIN LIN.LIN_IDLE_CTX_IDLE_US) ≤ s.ticks - (s.lin (8 * source + cls)).heardAt →
    ∃ t, exec (.linerCtxIdle source cls) s = .next t ∧
      t.lin (8 * source + cls) = { s.lin (8 * source + cls) with idle := true } ∧
      t.toBandState = s.toBandState ∧
      t.toLineState = s.toLineState ∧
      t.toPipeState = s.toPipeState ∧
      t.toHostState = s.toHostState ∧
      t.toMgmtState = s.toMgmtState ∧
      t.nt = s.nt ∧
      t.hbm = s.hbm)

/-- With PERST_N high, training with at least eight lanes brings the link up at the lower of the two speeds, with fewer it fails
and is counted; a retrain and both ends of L1 set their bit. A whole good completion gives its bytes to its read and frees the
slot, a part is kept, one without a slot is late: counted, cause 1. A read past its time ends as a host error and is quarantined
with cause 0; a squashed one at its deadline is quarantined; the quarantine ends with a free slot. Unmasking a vector lets its
pending message go. Rules followed: R529, R531, R532, R543, R548, R552, R554, R555, R560, R565. -/
def Obligations.PcieLinkAndReads : Prop :=
  (∀ (s : State) (speed lanes : Nat) (reversed : Bool),
    s.live pgPCE = true →
    s.perstHigh = true →
    8 ≤ lanes →
    speed ≠ 0 →
    ∃ t, exec (.pcieLinkTrain speed lanes reversed) s = .next t ∧
      t.rd pgPCE PCE.LINK_STS_LINK_UP = 1 ∧
      t.rd pgPCE PCE.LINK_STS_SPEED = min speed (max 1 (min 4 (s.rd pgPCE PCE.LINK_CTL_MAX_SPEED))) ∧
      (t.rd pgPCE PCE.LINK_STS_WIDTH = (if lanes < 16 ∨ s.on pgPCE PCE.LINK_CTL_MAX_X8 then 8 else 0)) ∧
      t.rd pgPCE PCE.LINK_STS_REVERSED = b2n reversed ∧
      t.rd pgPCE PCE.LINK_STS_L1 = 0 ∧
      t.retraining = false ∧
      t.toBandState = s.toBandState ∧
      t.toLineState = s.toLineState ∧
      t.toPipeState = s.toPipeState ∧
      t.toQdState = s.toQdState ∧
      t.nt = s.nt) ∧
  (∀ (s : State) (speed lanes : Nat) (reversed : Bool),
    s.live pgPCE = true →
    s.perstHigh = true →
    lanes < 8 →
    ∃ t, exec (.pcieLinkTrain speed lanes reversed) s = .next t ∧
      t.rd pgPCE PCE.LINK_STS_LINK_UP = 0 ∧
      t.rd pgPCE PCE.PCE_CNT 11 = (s.rd pgPCE PCE.PCE_CNT 11 + 1) % 2 ^ 64 ∧
      t.toBandState = s.toBandState ∧
      t.toLineState = s.toLineState ∧
      t.toPipeState = s.toPipeState ∧
      t.toQdState = s.toQdState ∧
      t.nt = s.nt ∧
      t.toMgmtState = s.toMgmtState) ∧
  (∀ (s : State),
    s.live pgPCE = true →
    ∃ t, exec (.pcieRetrain) s = .next t ∧
      t.rd pgPCE PCE.LINK_STS_L1 = 0 ∧
      t.retraining = true ∧
      t.toBandState = s.toBandState ∧
      t.toLineState = s.toLineState ∧
      t.toPipeState = s.toPipeState ∧
      t.toQdState = s.toQdState ∧
      t.nt = s.nt ∧
      t.toMgmtState = s.toMgmtState) ∧
  (∀ (s : State),
    s.live pgPCE = true →
    s.on pgPCE PCE.LINK_STS_LINK_UP = true →
    ∃ t, exec (.aspmL1Entry) s = .next t ∧
      t.rd pgPCE PCE.LINK_STS_L1 = 1 ∧
      t.toBandState = s.toBandState ∧
      t.toLineState = s.toLineState ∧
      t.toPipeState = s.toPipeState ∧
      t.toQdState = s.toQdState ∧
      t.nt = s.nt ∧
      t.toMgmtState = s.toMgmtState ∧
      t.toHostState = s.toHostState) ∧
  (∀ (s : State),
    s.live pgPCE = true →
    ∃ t, exec (.pcieL1Exit) s = .next t ∧
      t.rd pgPCE PCE.LINK_STS_L1 = 0 ∧
      t.toBandState = s.toBandState ∧
      t.toLineState = s.toLineState ∧
      t.toPipeState = s.toPipeState ∧
      t.toQdState = s.toQdState ∧
      t.nt = s.nt ∧
      t.toMgmtState = s.toMgmtState ∧
      t.toHostState = s.toHostState) ∧
  (∀ (s : State) (fn tag completer : Nat) (data : List Byte) (x : TagSlot),
    s.live pgPCE = true →
    s.tagOf fn tag = some x →
    x.quarantined = false →
    x.squashed = false →
    x.len ≤ (x.got ++ data).length →
    ∃ t, exec (.pcieCompletion fn tag completer 0 data false false) s = .next t ∧
      t.tagOf fn tag = none ∧
      (t.qp x.qp).frames = (s.qp x.qp).frames.map (fun f => if f.first = x.first then { f with parts := lset f.parts x.part (some ((x.got ++ data).take x.len)) } else f) ∧
      t.rd pgPCE PCE.PCE_CNT 2 = (s.rd pgPCE PCE.PCE_CNT 2 + 1) % 2 ^ 64 ∧
      t.toBandState = s.toBandState ∧
      t.toLineState = s.toLineState ∧
      t.toPipeState = s.toPipeState ∧
      t.toQdState = s.toQdState ∧
      t.nt = s.nt ∧
      t.toMgmtState = s.toMgmtState) ∧
  (∀ (s : State) (fn tag completer : Nat) (data : List Byte) (x : TagSlot),
    s.live pgPCE = true →
    s.tagOf fn tag = some x →
    x.quarantined = false →
    x.squashed = false →
    (x.got ++ data).length < x.len →
    ∃ t, exec (.pcieCompletion fn tag completer 0 data false false) s = .next t ∧
      t.tagOf fn tag = some { x with got := x.got ++ data } ∧
      t.qps = s.qps ∧
      t.toBandState = s.toBandState ∧
      t.toLineState = s.toLineState ∧
      t.toPipeState = s.toPipeState ∧
      t.toQdState = s.toQdState ∧
      t.nt = s.nt ∧
      t.toMgmtState = s.toMgmtState) ∧
  (∀ (s : State) (fn tag completer status : Nat) (data : List Byte) (poisoned ecrc : Bool),
    s.live pgPCE = true →
    s.tagOf fn tag = none →
    ∃ t, exec (.pcieCompletion fn tag completer status data poisoned ecrc) s = .next t ∧
      t.tags = s.tags ∧
      t.qps = s.qps ∧
      t.rd pgPCE PCE.PCE_CNT 4 = (s.rd pgPCE PCE.PCE_CNT 4 + 1) % 2 ^ 64 ∧
      bit (t.rd pgPCE COMMON.INT_CAUSE_CAUSE) 1 = true ∧
      t.toBandState = s.toBandState ∧
      t.toLineState = s.toLineState ∧
      t.toPipeState = s.toPipeState ∧
      t.toQdState = s.toQdState ∧
      t.nt = s.nt) ∧
  (∀ (s : State) (fn tag : Nat) (x : TagSlot),
    s.live pgPCE = true →
    s.tagOf fn tag = some x →
    x.quarantined = false →
    x.squashed = false →
    s.timesOut x = true →
    ∃ t, exec (.pcieCompletionTimeout fn tag) s = .next t ∧
      t.tagOf fn tag = some { x with quarantined := true, issued := s.ticks } ∧
      t.rd pgPCE PCE.PCE_CNT 3 = (s.rd pgPCE PCE.PCE_CNT 3 + 1) % 2 ^ 64 ∧
      bit (t.rd pgPCE COMMON.INT_CAUSE_CAUSE) 0 = true ∧
      t.toBandState = s.toBandState ∧
      t.toLineState = s.toLineState ∧
      t.toPipeState = s.toPipeState ∧
      t.toQdState = s.toQdState ∧
      t.nt = s.nt) ∧
  (∀ (s : State) (fn tag : Nat) (x : TagSlot),
    s.live pgPCE = true →
    s.tagOf fn tag = some x →
    x.quarantined = false →
    x.squashed = true →
    s.deadlinePassed x = true →
    ∃ t, exec (.flrDeadline fn tag) s = .next t ∧
      t.tagOf fn tag = some { x with quarantined := true, issued := s.ticks } ∧
      t.rd pgPCE PCE.PCE_CNT 5 = (s.rd pgPCE PCE.PCE_CNT 5 + 1) % 2 ^ 64 ∧
      t.toBandState = s.toBandState ∧
      t.toLineState = s.toLineState ∧
      t.toPipeState = s.toPipeState ∧
      t.toQdState = s.toQdState ∧
      t.nt = s.nt ∧
      t.toMgmtState = s.toMgmtState) ∧
  (∀ (s : State) (fn tag : Nat) (x : TagSlot),
    s.live pgPCE = true →
    s.tagOf fn tag = some x →
    x.quarantined = true →
    x.issued + ticksMs 1000 ≤ s.ticks →
    ∃ t, exec (.tagQuarantineExpiry fn tag) s = .next t ∧
      t.tagOf fn tag = none ∧
      t.qps = s.qps ∧
      t.toBandState = s.toBandState ∧
      t.toLineState = s.toLineState ∧
      t.toPipeState = s.toPipeState ∧
      t.toQdState = s.toQdState ∧
      t.nt = s.nt ∧
      t.toMgmtState = s.toMgmtState) ∧
  (∀ (s : State) (fn vec : Nat),
    s.live pgPCE = true →
    vec < vectorsOf fn →
    ∃ t, exec (.msixUnmask fn vec) s = .next t ∧
      (tgetD (t.fnS fn).vecs vec {}).mask = false ∧
      t.tags = s.tags ∧
      t.qps = s.qps ∧
      t.toBandState = s.toBandState ∧
      t.toLineState = s.toLineState ∧
      t.toPipeState = s.toPipeState ∧
      t.toQdState = s.toQdState ∧
      t.nt = s.nt ∧
      t.toMgmtState = s.toMgmtState) ∧
  (∀ (s : State) (fn vec : Nat),
    s.live pgPCE = true →
    vec < vectorsOf fn →
    (tgetD (s.fnS fn).vecs vec {}).pend = true →
    (s.fnS fn).sends = true →
    (s.fnS fn).msixEn = true →
    (s.fnS fn).msixMask = false →
    ∃ t, exec (.msixUnmask fn vec) s = .next t ∧
      Out.msix fn vec ∈ t.out ∧
      (tgetD (t.fnS fn).vecs vec {}).pend = false ∧
      t.toBandState = s.toBandState ∧
      t.toLineState = s.toLineState ∧
      t.toPipeState = s.toPipeState ∧
      t.toQdState = s.toQdState ∧
      t.nt = s.nt ∧
      t.toMgmtState = s.toMgmtState)

/-- A ready function answers a configuration read with its dword, one in reset asks for a retry, and a write stores the writable
bits its byte enables cover. Memory requests reach the MSI-X table and the doorbells, a read answers its dword. Clearing Bus
Master Enable squashes the function's reads; an FLR does so and runs until its completion resets the function, raising cause 6; a
hot reset begins one in both PFs, and PERST resets the endpoint but for SUBSYS. VF Enable makes its number of VFs present, and
their removal marks every one of them. Rules followed: R535, R537, R538, R541, R542, R559, R561, R562, R564, R592, R593, R828. -/
def Obligations.PcieFunctions : Prop :=
  (∀ (s : State) (fn offset enables : Nat),
    s.live pgPCE = true →
    s.cfgReady fn = some true →
    ∃ t, exec (.pcieConfigRequest fn offset enables none) s = .next t ∧
      t.out = .cfgData fn (s.cfgRead fn (offset / 4 * 4 % 4096)) :: s.out ∧
      t.toBandState = s.toBandState ∧
      t.toLineState = s.toLineState ∧
      t.toPipeState = s.toPipeState ∧
      t.toQdState = s.toQdState ∧
      t.nt = s.nt ∧
      t.toHostState = s.toHostState ∧
      t.toMgmtState = s.toMgmtState) ∧
  (∀ (s : State) (fn offset enables : Nat) (write : Option Nat),
    s.live pgPCE = true →
    s.cfgReady fn = some false →
    ∃ t, exec (.pcieConfigRequest fn offset enables write) s = .next t ∧
      t.out = .cfgRetry fn :: s.out ∧
      t.toBandState = s.toBandState ∧
      t.toLineState = s.toLineState ∧
      t.toPipeState = s.toPipeState ∧
      t.toQdState = s.toQdState ∧
      t.nt = s.nt ∧
      t.toHostState = s.toHostState ∧
      t.toMgmtState = s.toMgmtState) ∧
  (∀ (s : State) (fn offset enables v o m : Nat),
    s.live pgPCE = true →
    s.cfgReady fn = some true →
    o = offset / 4 * 4 % 4096 →
    (o ≠ 4 ∧ o ≠ 0x44 ∧ o ≠ 0x50 ∧ o ≠ 0x78 ∧ o ≠ 0x308 ∧ o ≠ 0x310) →
    m = andBits (s.cfgMask fn o) (enableMask enables) →
    ∃ t, exec (.pcieConfigRequest fn offset enables (some v)) s = .next t ∧
      (t.fnS fn).dw o = andNot (andNot ((s.fnS fn).dw o) m) (andBits (andBits v (enableMask enables)) (cfgClear fn o)) + andBits (andBits v (enableMask enables)) m ∧
      t.tags = s.tags ∧
      t.qps = s.qps ∧
      t.toBandState = s.toBandState ∧
      t.toLineState = s.toLineState ∧
      t.toPipeState = s.toPipeState ∧
      t.toQdState = s.toQdState ∧
      t.nt = s.nt ∧
      t.toMgmtState = s.toMgmtState) ∧
  (∀ (s : State) (fn bar offset w : Nat),
    s.live pgPCE = true →
    bar = 2 →
    s.decodes fn bar offset 1 = true →
    offset % 16 = 8 →
    offset < 16 * vectorsOf fn →
    ∃ t, exec (.pcieMemWrite fn 2 offset [w] true false false false) s = .next t ∧
      (tgetD (t.fnS fn).vecs (offset / 16) {}).data = w % 2 ^ 32 ∧
      t.tags = s.tags ∧
      t.qps = s.qps ∧
      t.toBandState = s.toBandState ∧
      t.toLineState = s.toLineState ∧
      t.toPipeState = s.toPipeState ∧
      t.toQdState = s.toQdState ∧
      t.nt = s.nt ∧
      t.toMgmtState = s.toMgmtState) ∧
  (∀ (s : State) (fn bar offset w p : Nat),
    s.live pgPCE = true →
    bar = 0 →
    s.decodes fn bar offset 1 = true →
    fn ≠ 1 →
    s.doorbellQp fn offset = some p →
    offset % 4096 = 0 →
    s.live pgDMA = true →
    (w % 65536 + 65536 - (s.qp p).txHead) % 65536 ≤ (s.qp p).txSize →
    ∃ t, exec (.pcieMemWrite fn 0 offset [w] true false false false) s = .next t ∧
      t.qp p = { s.qp p with txTail := w % 65536 } ∧
      t.toBandState = s.toBandState ∧
      t.toLineState = s.toLineState ∧
      t.toPipeState = s.toPipeState ∧
      t.toQdState = s.toQdState ∧
      t.nt = s.nt ∧
      t.toMgmtState = s.toMgmtState) ∧
  (∀ (s : State) (fn bar offset : Nat) (full : Bool),
    s.live pgPCE = true →
    bar = 2 →
    s.decodes fn bar offset 1 = true →
    ∃ t, exec (.pcieMemRead fn 2 offset 1 full false) s = .next t ∧
      t.out = .memData fn (s.memDword fn 2 (offset / 4 * 4)) :: s.out ∧
      t.toBandState = s.toBandState ∧
      t.toLineState = s.toLineState ∧
      t.toPipeState = s.toPipeState ∧
      t.toQdState = s.toQdState ∧
      t.nt = s.nt ∧
      t.toHostState = s.toHostState ∧
      t.toMgmtState = s.toMgmtState) ∧
  (∀ (s : State) (fn posted : Nat),
    s.live pgPCE = true →
    s.fnThere fn = true →
    (s.fnS fn).bme = true →
    ∃ t, exec (.bmeClear fn posted) s = .next t ∧
      (t.fnS fn).bme = false ∧
      (t.tags = s.tags.map (fun y => if y.fn = fn ∧ ¬ y.quarantined then { y with squashed := true } else y)) ∧
      t.rd pgPCE PCE.PCE_CNT 10 = (s.rd pgPCE PCE.PCE_CNT 10 + posted) % 2 ^ 64 ∧
      t.toBandState = s.toBandState ∧
      t.toLineState = s.toLineState ∧
      t.toPipeState = s.toPipeState ∧
      t.toQdState = s.toQdState ∧
      t.nt = s.nt ∧
      t.toMgmtState = s.toMgmtState) ∧
  (∀ (s : State) (fn posted : Nat),
    s.live pgPCE = true →
    s.fnThere fn = true →
    (s.fnS fn).flr = none →
    fn ≠ 0 →
    ∃ t, exec (.flrStart fn posted) s = .next t ∧
      (t.fnS fn).flr = some s.ticks ∧
      (t.fnS fn).bme = false ∧
      (t.tags = s.tags.map (fun y => if y.fn = fn ∧ ¬ y.quarantined then { y with squashed := true } else y)) ∧
      t.toBandState = s.toBandState ∧
      t.toLineState = s.toLineState ∧
      t.toPipeState = s.toPipeState ∧
      t.toQdState = s.toQdState ∧
      t.nt = s.nt ∧
      t.toMgmtState = s.toMgmtState) ∧
  (∀ (s : State) (posted : Nat),
    s.live pgPCE = true →
    (s.fnS 0).flr = none →
    ∃ t, exec (.flrStart 0 posted) s = .next t ∧
      (t.fnS 0).flr = some s.ticks ∧
      (t.fnS 0).bme = false ∧
      t.numVfs = 0 ∧
      t.toBandState = s.toBandState ∧
      t.toLineState = s.toLineState ∧
      t.toPipeState = s.toPipeState ∧
      t.toQdState = s.toQdState ∧
      t.nt = s.nt ∧
      t.toMgmtState = s.toMgmtState) ∧
  (∀ (s : State) (fn start : Nat),
    s.live pgPCE = true →
    (s.fnS fn).flr = some start →
    (s.tags.any (fun y => decide (y.fn = fn) && !y.quarantined)) = false →
    s.handsOff fn = false →
    fn ≠ 1 →
    (s.fnS fn).removing = false →
    ∃ t, exec (.flrComplete fn) s = .next t ∧
      t.fnS fn = {} ∧
      t.vf (vfOf fn) = { rate := (s.vf (vfOf fn)).rate, debt := (s.vf (vfOf fn)).debt, mbxVec := (s.vf (vfOf fn)).mbxVec } ∧
      bit (t.rd pgPCE COMMON.INT_CAUSE_CAUSE) 6 = true ∧
      t.toBandState = s.toBandState ∧
      t.toLineState = s.toLineState ∧
      t.toPipeState = s.toPipeState ∧
      t.toQdState = s.toQdState ∧
      t.nt = s.nt) ∧
  (∀ (s : State),
    s.live pgPCE = true →
    ∃ t, exec (.pcieHotReset) s = .next t ∧
      t.rd pgPCE PCE.LINK_STS_LINK_UP = 0 ∧
      (t.fnS 0).flr.isSome = true ∧
      (t.fnS 1).flr.isSome = true ∧
      t.numVfs = 0 ∧
      bit (t.rd pgPCE COMMON.INT_CAUSE_CAUSE) 4 = true ∧
      t.toBandState = s.toBandState ∧
      t.toLineState = s.toLineState ∧
      t.toPipeState = s.toPipeState ∧
      t.toQdState = s.toQdState ∧
      t.nt = s.nt) ∧
  (∀ (s : State),
    ∃ t, exec (.perst) s = .next t ∧
      t.fns = [] ∧
      t.tags = [] ∧
      t.qps = [] ∧
      t.vfs = [] ∧
      t.perstHigh = false ∧
      t.rd pgRST RST.START_STS_EP_RELEASED = 0 ∧
      t.rd pgPCE PCE.SUBSYS_SVID = s.rd pgPCE PCE.SUBSYS_SVID % 65536 ∧
      t.rd pgPCE PCE.SUBSYS_SSID = s.rd pgPCE PCE.SUBSYS_SSID % 65536 ∧
      t.toBandState = s.toBandState ∧
      t.toLineState = s.toLineState ∧
      t.toPipeState = s.toPipeState ∧
      t.toQdState = s.toQdState ∧
      t.nt = s.nt ∧
      t.toMgmtState = s.toMgmtState) ∧
  (∀ (s : State) (numVfs : Nat),
    s.live pgPCE = true →
    (s.fnS 0).flr = none →
    s.numVfs = 0 →
    s.fabric = false →
    numVfs ≤ 1024 →
    ∃ t, exec (.vfEnable numVfs) s = .next t ∧
      t.numVfs = numVfs ∧
      t.vfSince = s.ticks ∧
      t.tags = s.tags ∧
      t.qps = s.qps ∧
      t.toBandState = s.toBandState ∧
      t.toLineState = s.toLineState ∧
      t.toPipeState = s.toPipeState ∧
      t.toQdState = s.toQdState ∧
      t.nt = s.nt ∧
      t.toMgmtState = s.toMgmtState) ∧
  (∀ (s : State) (posted : Nat),
    s.live pgPCE = true →
    0 < s.numVfs →
    ∃ t, exec (.vfRemove 0 posted) s = .next t ∧
      t.numVfs = 0 ∧
      ((∀ k, 1 ≤ k → k ≤ s.numVfs → (t.fnS (fnOf k)).removing = true)) ∧
      t.toBandState = s.toBandState ∧
      t.toLineState = s.toLineState ∧
      t.toPipeState = s.toPipeState ∧
      t.toQdState = s.toQdState ∧
      t.nt = s.nt ∧
      t.toMgmtState = s.toMgmtState)

/-- A doorbell write that fits its ring sets the index, one that does not is ignored and counted in DMA_QP_CNT7. Arming with
enough unsignalled entries, and the moderation timeout, signal the vector and clear ARM. An accepted run of TX descriptors is
taken off the ring as one frame; a frame whose reads have ended enters dealing as context 256 + p with slot 47 written and gets
one CQ entry, a squashed one is counted and gets none. A received frame fills consecutive buffers and gets its CQ entry; without
enough posted descriptors it is dropped and counted. Rules followed: R570, R571, R576, R577, R578, R579, R580, R581, R582, R585,
R588, R590. -/
def Obligations.QueuePairRings : Prop :=
  (∀ (s : State) (qp index : Nat),
    qp < 8192 →
    s.live pgDMA = true →
    (s.qp qp).owner.isSome = true →
    (index % 65536 + 65536 - (s.qp qp).txHead) % 65536 ≤ (s.qp qp).txSize →
    ∃ t, exec (.txTailWrite qp index) s = .next t ∧
      t.qp qp = { s.qp qp with txTail := index % 65536 } ∧
      (∀ k, k ≠ qp → t.qp k = s.qp k) ∧
      t.tags = s.tags ∧
      t.vfs = s.vfs ∧
      t.toBandState = s.toBandState ∧
      t.toLineState = s.toLineState ∧
      t.toPipeState = s.toPipeState ∧
      t.toQdState = s.toQdState ∧
      t.toMgmtState = s.toMgmtState ∧
      t.nt = s.nt) ∧
  (∀ (s : State) (qp index : Nat),
    qp < 8192 →
    s.live pgDMA = true →
    (s.qp qp).owner.isSome = true →
    (s.qp qp).txSize < (index % 65536 + 65536 - (s.qp qp).txHead) % 65536 →
    7 < (s.qp qp).cnt.length →
    ∃ t, exec (.txTailWrite qp index) s = .next t ∧
      (t.qp qp).txTail = (s.qp qp).txTail ∧
      (t.qp qp).cnt.getD 7 0 = ((s.qp qp).cnt.getD 7 0 + 1) % 2 ^ 64 ∧
      (∀ k, k ≠ qp → t.qp k = s.qp k) ∧
      t.tags = s.tags ∧
      t.vfs = s.vfs ∧
      t.toBandState = s.toBandState ∧
      t.toLineState = s.toLineState ∧
      t.toPipeState = s.toPipeState ∧
      t.toQdState = s.toQdState ∧
      t.toMgmtState = s.toMgmtState ∧
      t.nt = s.nt) ∧
  (∀ (s : State) (qp index : Nat),
    qp < 8192 →
    s.live pgDMA = true →
    (s.qp qp).owner.isSome = true →
    (index % 65536 + 65536 - (s.qp qp).rxHead) % 65536 ≤ (s.qp qp).rxSize →
    ∃ t, exec (.rxTailWrite qp index) s = .next t ∧
      t.qp qp = { s.qp qp with rxTail := index % 65536 } ∧
      (∀ k, k ≠ qp → t.qp k = s.qp k) ∧
      t.tags = s.tags ∧
      t.vfs = s.vfs ∧
      t.toBandState = s.toBandState ∧
      t.toLineState = s.toLineState ∧
      t.toPipeState = s.toPipeState ∧
      t.toQdState = s.toQdState ∧
      t.toMgmtState = s.toMgmtState ∧
      t.nt = s.nt) ∧
  (∀ (s : State) (qp index : Nat),
    qp < 8192 →
    s.live pgDMA = true →
    (s.qp qp).owner.isSome = true →
    (s.qp qp).rxSize < (index % 65536 + 65536 - (s.qp qp).rxHead) % 65536 →
    7 < (s.qp qp).cnt.length →
    ∃ t, exec (.rxTailWrite qp index) s = .next t ∧
      (t.qp qp).rxTail = (s.qp qp).rxTail ∧
      (t.qp qp).cnt.getD 7 0 = ((s.qp qp).cnt.getD 7 0 + 1) % 2 ^ 64 ∧
      (∀ k, k ≠ qp → t.qp k = s.qp k) ∧
      t.tags = s.tags ∧
      t.vfs = s.vfs ∧
      t.toBandState = s.toBandState ∧
      t.toLineState = s.toLineState ∧
      t.toPipeState = s.toPipeState ∧
      t.toQdState = s.toQdState ∧
      t.toMgmtState = s.toMgmtState ∧
      t.nt = s.nt) ∧
  (∀ (s : State) (qp index : Nat),
    qp < 8192 →
    s.live pgDMA = true →
    (s.qp qp).owner.isSome = true →
    (index % 131072 + 131072 - (s.qp qp).cqHead) % 131072 ≤ (s.qp qp).cqHeld →
    ∃ t, exec (.cqHeadWrite qp index) s = .next t ∧
      t.qp qp = { s.qp qp with cqHead := index % 131072 } ∧
      (∀ k, k ≠ qp → t.qp k = s.qp k) ∧
      t.tags = s.tags ∧
      t.vfs = s.vfs ∧
      t.toBandState = s.toBandState ∧
      t.toLineState = s.toLineState ∧
      t.toPipeState = s.toPipeState ∧
      t.toQdState = s.toQdState ∧
      t.toMgmtState = s.toMgmtState ∧
      t.nt = s.nt) ∧
  (∀ (s : State) (qp index : Nat),
    qp < 8192 →
    s.live pgDMA = true →
    (s.qp qp).owner.isSome = true →
    (s.qp qp).cqHeld < (index % 131072 + 131072 - (s.qp qp).cqHead) % 131072 →
    7 < (s.qp qp).cnt.length →
    ∃ t, exec (.cqHeadWrite qp index) s = .next t ∧
      (t.qp qp).cqHead = (s.qp qp).cqHead ∧
      (t.qp qp).cnt.getD 7 0 = ((s.qp qp).cnt.getD 7 0 + 1) % 2 ^ 64 ∧
      (∀ k, k ≠ qp → t.qp k = s.qp k) ∧
      t.tags = s.tags ∧
      t.vfs = s.vfs ∧
      t.toBandState = s.toBandState ∧
      t.toLineState = s.toLineState ∧
      t.toPipeState = s.toPipeState ∧
      t.toQdState = s.toQdState ∧
      t.toMgmtState = s.toMgmtState ∧
      t.nt = s.nt) ∧
  (∀ (s : State) (qp : Nat),
    qp < 8192 →
    s.live pgDMA = true →
    (s.qp qp).owner.isSome = true →
    (s.qp qp).unsig = 0 →
    ∃ t, exec (.cqArm qp) s = .next t ∧
      t.qp qp = { s.qp qp with arm := true } ∧
      (∀ k, k ≠ qp → t.qp k = s.qp k) ∧
      t.tags = s.tags ∧
      t.vfs = s.vfs ∧
      t.toBandState = s.toBandState ∧
      t.toLineState = s.toLineState ∧
      t.toPipeState = s.toPipeState ∧
      t.toQdState = s.toQdState ∧
      t.toMgmtState = s.toMgmtState ∧
      t.nt = s.nt) ∧
  (∀ (s : State) (qp : Nat),
    qp < 8192 →
    s.live pgDMA = true →
    (s.qp qp).owner.isSome = true →
    (s.fnS (fnOf (s.qp qp).fn)).delivers (s.qp qp).vec = true →
    0 < (s.qp qp).unsig →
    (s.qp qp).modCnt ≤ (s.qp qp).unsig →
    ∃ t, exec (.cqArm qp) s = .next t ∧
      t.qp qp = { s.qp qp with arm := false, unsig := 0 } ∧
      Out.msix (fnOf (s.qp qp).fn) (s.qp qp).vec ∈ t.out ∧
      (∀ k, k ≠ qp → t.qp k = s.qp k) ∧
      t.tags = s.tags ∧
      t.vfs = s.vfs ∧
      t.toBandState = s.toBandState ∧
      t.toLineState = s.toLineState ∧
      t.toPipeState = s.toPipeState ∧
      t.toQdState = s.toQdState ∧
      t.toMgmtState = s.toMgmtState ∧
      t.nt = s.nt) ∧
  (∀ (s : State) (qp : Nat),
    qp < 8192 →
    s.live pgDMA = true →
    (s.fnS (fnOf (s.qp qp).fn)).delivers (s.qp qp).vec = true →
    (s.qp qp).arm = true →
    0 < (s.qp qp).unsig →
    (s.qp qp).unsigAt + ticksUs (s.qp qp).modUs ≤ s.ticks →
    ∃ t, exec (.cqModerationTimeout qp) s = .next t ∧
      t.qp qp = { s.qp qp with arm := false, unsig := 0 } ∧
      Out.msix (fnOf (s.qp qp).fn) (s.qp qp).vec ∈ t.out ∧
      (∀ k, k ≠ qp → t.qp k = s.qp k) ∧
      t.tags = s.tags ∧
      t.vfs = s.vfs ∧
      t.toBandState = s.toBandState ∧
      t.toLineState = s.toLineState ∧
      t.toPipeState = s.toPipeState ∧
      t.toQdState = s.toQdState ∧
      t.toMgmtState = s.toMgmtState ∧
      t.nt = s.nt) ∧
  (∀ (s : State) (qp : Nat) (l : List (List Nat)) (n : Nat) (reads : List (Nat × Nat)),
    qp < 8192 →
    s.enabled pgDMA = true →
    s.txActive.contains qp = true →
    s.txCur = qp →
    0 < (s.qp qp).deficit →
    s.pathAsleep = false →
    s.tagRoom ≠ 0 →
    txScan (s.qp qp).txPhase (s.qp qp).txHead (s.qp qp).txSize 0 0 (l.take (s.qp qp).txWork) = .frame n →
    bits ((l.headD []).getD 2 0) 16 8 = 0 →
    reads = (l.take n).flatMap (fun (d : List Nat) => chunks (s.mrrs (fnOf (s.qp qp).fn)) (bits (d.getD 2 0) 0 14) (d.getD 0 0 + d.getD 1 0 * 2 ^ 32) (bits (d.getD 2 0) 0 14)) →
    reads.length ≤ s.tagRoom →
    (s.issueReads (fnOf (s.qp qp).fn) qp (s.qp qp).txHead 0 reads).isSome = true →
    ∃ t, exec (.txDescriptorFetch qp (some l)) s = .next t ∧
      (t.qp qp).txHead = ((s.qp qp).txHead + n) % 65536 ∧
      (t.qp qp).frames = (s.qp qp).frames ++ [{ first := (s.qp qp).txHead, descs := l.take n, parts := List.replicate reads.length none }] ∧
      t.tags.length = s.tags.length + reads.length ∧
      (∀ k, k ≠ qp → t.qp k = s.qp k) ∧
      t.toBandState = s.toBandState ∧
      t.toLineState = s.toLineState ∧
      t.toPipeState = s.toPipeState ∧
      t.toQdState = s.toQdState ∧
      t.toMgmtState = s.toMgmtState ∧
      t.nt = s.nt) ∧
  (∀ (s : State) (qp : Nat) (f : TxFrame) (rest : List TxFrame),
    qp < 8192 →
    s.live pgDMA = true →
    (s.qp qp).frames = f :: rest →
    f.done = true →
    f.squashed = false →
    (s.qp qp).cqFull = false →
    f.bad = false →
    bits ((f.descs.headD []).getD 2 0) 16 8 = 0 →
    bit ((f.descs.headD []).getD 2 0) 24 = false →
    ∃ t, exec (.txFrameComplete qp) s = .next t ∧
      t.ingress = s.ingress ++ [{ bytes := f.data, fcsGood := true, ctx := 256 + qp, startKey := s.rd pgPRS PRS.HOST_START_KEY, slots := [(47, toBe 4 ((s.qp qp).fn + qp * 65536))], modified := true }] ∧
      (t.qp qp).frames = rest ∧
      (t.qp qp).cqTail = ((s.qp qp).cqTail + 1) % 131072 ∧
      (∀ k, k ≠ qp → t.qp k = s.qp k) ∧
      t.toBandState = s.toBandState ∧
      t.nt = s.nt) ∧
  (∀ (s : State) (qp : Nat) (f : TxFrame) (rest : List TxFrame),
    qp < 8192 →
    s.live pgDMA = true →
    (s.qp qp).frames = f :: rest →
    f.done = true →
    f.squashed = true →
    5 < (s.qp qp).cnt.length →
    ∃ t, exec (.txFrameComplete qp) s = .next t ∧
      (t.qp qp).frames = rest ∧
      (t.qp qp).cqTail = (s.qp qp).cqTail ∧
      (t.qp qp).cnt.getD 5 0 = ((s.qp qp).cnt.getD 5 0 + 1) % 2 ^ 64 ∧
      t.out = s.out ∧
      (∀ k, k ≠ qp → t.qp k = s.qp k) ∧
      t.tags = s.tags ∧
      t.vfs = s.vfs ∧
      t.toBandState = s.toBandState ∧
      t.toLineState = s.toLineState ∧
      t.toPipeState = s.toPipeState ∧
      t.toQdState = s.toQdState ∧
      t.toMgmtState = s.toMgmtState ∧
      t.nt = s.nt) ∧
  (∀ (s : State) (f : Frame) (rest : List Frame) (qp need : Nat) (entries : List (Option (List Nat))) (l : List (List Nat)),
    s.hostRx = f :: rest →
    s.enabled pgDMA = true →
    s.pathAsleep = false →
    s.tagRoom ≠ 0 →
    qp = f.qp % 8192 →
    (s.qp qp).owner.isSome = true →
    (s.qp qp).fn = 0 →
    (s.qp qp).state = 1 →
    (s.fnS 0).sends = true →
    f.ofl = 0 →
    (s.qp qp).cqFull = false →
    need = max 1 ((f.bytes.length + (s.qp qp).rxBuf - 1) / (s.qp qp).rxBuf) →
    need ≤ 8 →
    need ≤ (s.qp qp).rxWork →
    need ≤ l.length →
    rxBad (s.qp qp).rxPhase (s.qp qp).rxHead (s.qp qp).rxSize 0 (l.take need) = none →
    ∃ t, exec (.rxFramePlace (some l) entries []) s = .next t ∧
      t.hostRx = rest ∧
      (t.qp qp).rxHead = ((s.qp qp).rxHead + need) % 65536 ∧
      (t.qp qp).cqTail = ((s.qp qp).cqTail + 1) % 131072 ∧
      ((∀ k, k < need → Out.hostWrite 0 ((l.getD k []).getD 0 0 + (l.getD k []).getD 1 0 * 2 ^ 32) (slice f.bytes (k * (s.qp qp).rxBuf) (s.qp qp).rxBuf) (bit ((s.ctlFn 0).dw 0x78) 4 && s.on pgPCE PCE.ORD_CTL_DATA_RO && !(s.vf 0).logging) ∈ t.out)) ∧
      (∀ k, k ≠ qp → t.qp k = s.qp k) ∧
      t.toBandState = s.toBandState ∧
      t.toLineState = s.toLineState ∧
      t.toPipeState = s.toPipeState ∧
      t.toQdState = s.toQdState ∧
      t.nt = s.nt) ∧
  (∀ (s : State) (f : Frame) (rest : List Frame) (qp need : Nat) (entries : List (Option (List Nat))) (descs : Option (List (List Nat))),
    s.hostRx = f :: rest →
    s.enabled pgDMA = true →
    s.pathAsleep = false →
    s.tagRoom ≠ 0 →
    qp = f.qp % 8192 →
    (s.qp qp).owner.isSome = true →
    (s.qp qp).fn = 0 →
    (s.qp qp).state = 1 →
    (s.fnS 0).sends = true →
    f.ofl = 0 →
    (s.qp qp).cqFull = false →
    need = max 1 ((f.bytes.length + (s.qp qp).rxBuf - 1) / (s.qp qp).rxBuf) →
    (s.qp qp).rxWork < need →
    4 < (s.qp qp).cnt.length →
    ∃ t, exec (.rxFramePlace descs entries []) s = .next t ∧
      t.hostRx = rest ∧
      (t.qp qp).cnt.getD 4 0 = ((s.qp qp).cnt.getD 4 0 + 1) % 2 ^ 64 ∧
      (t.qp qp).rxHead = (s.qp qp).rxHead ∧
      (t.qp qp).cqTail = (s.qp qp).cqTail ∧
      (∀ k, k ≠ qp → t.qp k = s.qp k) ∧
      t.toBandState = s.toBandState ∧
      t.toLineState = s.toLineState ∧
      t.toPipeState = s.toPipeState ∧
      t.toQdState = s.toQdState ∧
      t.nt = s.nt)

/-- Outside fabric mode and with no command running: WRITE_CTX of a disabled queue pair with values in range stores them with
indices and phases reset, and of one that is not disabled ends ERROR with cause 5 and no effect; READ_CTX gives the context in its
result words; ENABLE starts an assigned, disabled queue pair; DISABLE drains it and keeps only the frames whose reads have ended;
when none is left it is disabled and the DISABLE ends DONE; ABORT ends it ABORTED and the queue pair drains on. ASSIGN_QP gives a
free queue pair to a function and RELEASE_QP takes a disabled one back. Other queue pairs keep their state. Rules followed: R29,
R64, R586, R587, R588, R589, R608. -/
def Obligations.QueuePairCommands : Prop :=
  (∀ (s : State) (tag p : Nat) (w : List Nat),
    s.fabric = false →
    s.live pgDMA = true →
    s.qpRun = none →
    p = s.qpSel →
    (s.qp p).state = 0 →
    w = (List.range 9).map (fun k => andBits (s.rd pgDMA DMA.CTX_W_WORD k) (ctxMask k)) →
    ctxOk w (s.qp p).owner = true →
    ∃ t, exec (.writeCtx tag) s = .next t ∧
      t.qp p = { owner := (s.qp p).owner, ctx := w, cnt := (s.qp p).cnt } ∧
      (∀ k, k ≠ p → t.qp k = s.qp k) ∧
      t.rd pgDMA DMA.QP_RES.status = 1 ∧
      t.rd pgDMA DMA.QP_RES.tag = tag % 256 ∧
      t.rd pgDMA DMA.QP_RES.valid = 1 ∧
      t.toBandState = s.toBandState ∧
      t.toLineState = s.toLineState ∧
      t.toPipeState = s.toPipeState ∧
      t.toQdState = s.toQdState ∧
      t.toMgmtState = s.toMgmtState ∧
      t.nt = s.nt) ∧
  (∀ (s : State) (tag p : Nat),
    s.fabric = false →
    s.live pgDMA = true →
    s.qpRun = none →
    p = s.qpSel →
    (s.qp p).state ≠ 0 →
    ∃ t, exec (.writeCtx tag) s = .next t ∧
      t.qps = s.qps ∧
      t.rd pgDMA DMA.QP_RES.status = 4 ∧
      t.rd pgDMA DMA.QP_RES.tag = tag % 256 ∧
      t.rd pgDMA DMA.QP_RES.valid = 1 ∧
      bit (t.rd pgDMA COMMON.INT_CAUSE_CAUSE) 5 = true ∧
      t.toBandState = s.toBandState ∧
      t.toLineState = s.toLineState ∧
      t.toPipeState = s.toPipeState ∧
      t.toQdState = s.toQdState ∧
      t.nt = s.nt) ∧
  (∀ (s : State) (tag p k : Nat),
    s.fabric = false →
    s.live pgDMA = true →
    s.qpRun = none →
    p = s.qpSel →
    k < 9 →
    ∃ t, exec (.readCtx tag) s = .next t ∧
      t.rd pgDMA (DMA.QP_RES.word (k + 1)) = (s.qp p).ctx.getD k 0 % 2 ^ 32 ∧
      t.rd pgDMA DMA.QP_RES.status = 1 ∧
      t.rd pgDMA DMA.QP_RES.tag = tag % 256 ∧
      t.rd pgDMA DMA.QP_RES.valid = 1 ∧
      t.toBandState = s.toBandState ∧
      t.toLineState = s.toLineState ∧
      t.toPipeState = s.toPipeState ∧
      t.toQdState = s.toQdState ∧
      t.toMgmtState = s.toMgmtState ∧
      t.nt = s.nt ∧
      t.toHostState = s.toHostState) ∧
  (∀ (s : State) (tag p : Nat),
    s.fabric = false →
    s.live pgDMA = true →
    s.qpRun = none →
    p = s.qpSel →
    (s.qp p).state = 0 →
    (s.qp p).owner.isSome = true →
    ctxOk (s.qp p).ctx (s.qp p).owner = true →
    ∃ t, exec (.qpEnable tag) s = .next t ∧
      t.qp p = { s.qp p with state := 1 } ∧
      (∀ k, k ≠ p → t.qp k = s.qp k) ∧
      t.rd pgDMA DMA.QP_RES.status = 1 ∧
      t.rd pgDMA DMA.QP_RES.tag = tag % 256 ∧
      t.rd pgDMA DMA.QP_RES.valid = 1 ∧
      t.toBandState = s.toBandState ∧
      t.toLineState = s.toLineState ∧
      t.toQdState = s.toQdState ∧
      t.toMgmtState = s.toMgmtState ∧
      t.nt = s.nt) ∧
  (∀ (s : State) (tag p : Nat),
    s.fabric = false →
    s.live pgDMA = true →
    s.qpRun = none →
    p = s.qpSel →
    ((s.qp p).state = 1 ∨ (s.qp p).state = 3) →
    ∃ t, exec (.qpDisable tag) s = .next t ∧
      (t.qp p).state = 2 ∧
      (t.qp p).frames = (s.qp p).frames.filter TxFrame.done ∧
      t.qpRun = some (p, tag) ∧
      t.rd pgDMA DMA.QP_RES.valid = 0 ∧
      (∀ k, k ≠ p → t.qp k = s.qp k) ∧
      t.toBandState = s.toBandState ∧
      t.toLineState = s.toLineState ∧
      t.toPipeState = s.toPipeState ∧
      t.toQdState = s.toQdState ∧
      t.nt = s.nt ∧
      t.toMgmtState = s.toMgmtState) ∧
  (∀ (s : State) (qp tag : Nat),
    qp < 8192 →
    s.live pgDMA = true →
    (s.qp qp).state = 2 →
    (s.qp qp).frames = [] →
    (s.fnS (fnOf (s.qp qp).fn)).flr.isNone = true →
    s.qpRun = some (qp, tag) →
    ∃ t, exec (.qpDrainComplete qp) s = .next t ∧
      t.qp qp = { s.qp qp with state := 0 } ∧
      t.qpRun = none ∧
      (∀ k, k ≠ qp → t.qp k = s.qp k) ∧
      t.rd pgDMA DMA.QP_RES.status = 1 ∧
      t.rd pgDMA DMA.QP_RES.tag = tag % 256 ∧
      t.rd pgDMA DMA.QP_RES.valid = 1 ∧
      t.toBandState = s.toBandState ∧
      t.toLineState = s.toLineState ∧
      t.toPipeState = s.toPipeState ∧
      t.toQdState = s.toQdState ∧
      t.toMgmtState = s.toMgmtState ∧
      t.nt = s.nt) ∧
  (∀ (s : State) (tag p : Nat),
    s.live pgDMA = true →
    s.qpRun = some (p, tag) →
    ∃ t, exec (.qpAbort) s = .next t ∧
      t.qpRun = none ∧
      t.qps = s.qps ∧
      t.rd pgDMA DMA.QP_RES.status = 2 ∧
      t.rd pgDMA DMA.QP_RES.tag = tag % 256 ∧
      t.rd pgDMA DMA.QP_RES.valid = 1 ∧
      t.toBandState = s.toBandState ∧
      t.toLineState = s.toLineState ∧
      t.toPipeState = s.toPipeState ∧
      t.toQdState = s.toQdState ∧
      t.toMgmtState = s.toMgmtState ∧
      t.nt = s.nt) ∧
  (∀ (s : State) (tag n p i : Nat),
    s.fabric = false →
    s.live pgVFM = true →
    s.vfmRun = none →
    n = s.cmdFn →
    p = s.rd pgVFM VFM.CMD_QP_QP →
    i = s.rd pgVFM VFM.CMD_LOCAL_INDEX →
    s.vfThere n = true →
    (s.fnS (fnOf n)).flr = none →
    (s.qp p).owner = none →
    (n = 0 ∨ (s.qpsOf n).all (fun e => decide (e.1 ≠ i)) = true) →
    ∃ t, exec (.assignQp tag) s = .next t ∧
      t.qp p = { s.qp p with owner := some (n, i) } ∧
      (∀ k, k ≠ p → t.qp k = s.qp k) ∧
      t.rd pgVFM VFM.VFM_RES.status = 1 ∧
      t.rd pgVFM VFM.VFM_RES.tag = tag % 256 ∧
      t.rd pgVFM VFM.VFM_RES.valid = 1 ∧
      t.toBandState = s.toBandState ∧
      t.toLineState = s.toLineState ∧
      t.toPipeState = s.toPipeState ∧
      t.toQdState = s.toQdState ∧
      t.toMgmtState = s.toMgmtState ∧
      t.nt = s.nt) ∧
  (∀ (s : State) (tag p : Nat),
    s.live pgVFM = true →
    s.vfmRun = none →
    p = s.rd pgVFM VFM.CMD_QP_QP →
    s.vfThere (s.qp p).fn = true →
    (s.fnS (fnOf (s.qp p).fn)).flr = none →
    (s.qp p).state = 0 →
    ∃ t, exec (.releaseQp tag) s = .next t ∧
      t.qp p = { s.qp p with owner := none } ∧
      (∀ k, k ≠ p → t.qp k = s.qp k) ∧
      t.rd pgVFM VFM.VFM_RES.status = 1 ∧
      t.rd pgVFM VFM.VFM_RES.tag = tag % 256 ∧
      t.rd pgVFM VFM.VFM_RES.valid = 1 ∧
      t.toBandState = s.toBandState ∧
      t.toLineState = s.toLineState ∧
      t.toPipeState = s.toPipeState ∧
      t.toQdState = s.toQdState ∧
      t.toMgmtState = s.toMgmtState ∧
      t.nt = s.nt)

/-- SEND of a VF whose mailbox is free takes its words, sets BUSY and its pending bit and cause 0, and of a busy one is only
counted; TAKE clears REPLY. MBX_ACK clears BUSY and the pending bit, MBX_REPLY stores the reply and signals the vector. FREEZE
holds the VF and completes when it is quiet, UNFREEZE ends the hold, or ends ERROR 6. SAVE writes the records and then the header;
RESTORE of a sound image loads rate, mailbox bits and queue pairs, and a bad one ends ERROR 5. LOG_START begins in buffer A, and
with no pending bits LOG_SWAP and LOG_STOP change the buffer and end the log. ABORT ends a FREEZE that runs: ABORTED, and the VF
goes on. Rules followed: R572, R573, R574, R594, R595, R599, R600, R601, R602, R606. -/
def Obligations.VirtualFunctionCommands : Prop :=
  (∀ (s : State) (vf : Nat),
    vf ≠ 0 →
    vf ≤ 1024 →
    s.vfThere vf = true →
    s.live pgVFM = true →
    (s.vf vf).busy = false →
    ∃ t, exec (.mbxSend vf) s = .next t ∧
      t.vf vf = { s.vf vf with request := (s.vf vf).mbxOut, busy := true } ∧
      bit (t.rd pgVFM VFM.MBX_PEND_VFS ((vf - 1) / 32)) ((vf - 1) % 32) = true ∧
      bit (t.rd pgVFM COMMON.INT_CAUSE_CAUSE) 0 = true ∧
      t.toBandState = s.toBandState ∧
      t.toLineState = s.toLineState ∧
      t.toPipeState = s.toPipeState ∧
      t.toQdState = s.toQdState ∧
      t.nt = s.nt) ∧
  (∀ (s : State) (vf : Nat),
    vf ≠ 0 →
    vf ≤ 1024 →
    s.vfThere vf = true →
    s.live pgVFM = true →
    (s.vf vf).busy = true →
    ∃ t, exec (.mbxSend vf) s = .next t ∧
      t.vfs = s.vfs ∧
      t.rd pgVFM VFM.VFM_CNT 1 = (s.rd pgVFM VFM.VFM_CNT 1 + 1) % 2 ^ 64 ∧
      t.toBandState = s.toBandState ∧
      t.toLineState = s.toLineState ∧
      t.toPipeState = s.toPipeState ∧
      t.toQdState = s.toQdState ∧
      t.nt = s.nt ∧
      t.toMgmtState = s.toMgmtState ∧
      t.toHostState = s.toHostState) ∧
  (∀ (s : State) (vf : Nat),
    vf ≠ 0 →
    s.vfThere vf = true →
    s.live pgVFM = true →
    ∃ t, exec (.vfMbxTake vf) s = .next t ∧
      t.vf vf = { s.vf vf with reply := false } ∧
      t.qps = s.qps ∧
      t.toBandState = s.toBandState ∧
      t.toLineState = s.toLineState ∧
      t.toPipeState = s.toPipeState ∧
      t.toQdState = s.toQdState ∧
      t.toMgmtState = s.toMgmtState ∧
      t.nt = s.nt) ∧
  (∀ (s : State) (tag n : Nat),
    s.live pgVFM = true →
    s.vfmRun = none →
    n = s.cmdFn →
    n ≠ 0 →
    s.vfThere n = true →
    (s.fnS (fnOf n)).flr = none →
    n ≤ 1024 →
    ∃ t, exec (.vfmMbxAck tag) s = .next t ∧
      t.vf n = { s.vf n with busy := false } ∧
      bit (t.rd pgVFM VFM.MBX_PEND_VFS ((n - 1) / 32)) ((n - 1) % 32) = false ∧
      (∀ k, k ≠ n → t.vf k = s.vf k) ∧
      t.rd pgVFM VFM.VFM_RES.status = 1 ∧
      t.rd pgVFM VFM.VFM_RES.tag = tag % 256 ∧
      t.rd pgVFM VFM.VFM_RES.valid = 1 ∧
      t.toBandState = s.toBandState ∧
      t.toLineState = s.toLineState ∧
      t.toPipeState = s.toPipeState ∧
      t.toQdState = s.toQdState ∧
      t.toMgmtState = s.toMgmtState ∧
      t.nt = s.nt) ∧
  (∀ (s : State) (tag n : Nat),
    s.live pgVFM = true →
    s.vfmRun = none →
    n = s.cmdFn →
    n ≠ 0 →
    s.vfThere n = true →
    (s.fnS (fnOf n)).flr = none →
    (s.vf n).reply = false →
    ∃ t, exec (.vfmMbxReply tag) s = .next t ∧
      t.vf n = { s.vf n with mbxIn := (List.range 8).map (fun k => s.rd pgVFM VFM.MBX_REPLY_DATA k), reply := true } ∧
      (((s.fnS (fnOf n)).delivers (s.vf n).mbxVec = true → Out.msix (fnOf n) (s.vf n).mbxVec ∈ t.out)) ∧
      (∀ k, k ≠ n → t.vf k = s.vf k) ∧
      t.rd pgVFM VFM.VFM_RES.status = 1 ∧
      t.rd pgVFM VFM.VFM_RES.tag = tag % 256 ∧
      t.rd pgVFM VFM.VFM_RES.valid = 1 ∧
      t.toBandState = s.toBandState ∧
      t.toLineState = s.toLineState ∧
      t.toPipeState = s.toPipeState ∧
      t.toQdState = s.toQdState ∧
      t.toMgmtState = s.toMgmtState ∧
      t.nt = s.nt) ∧
  (∀ (s : State) (tag n : Nat),
    s.live pgVFM = true →
    s.vfmRun = none →
    n = s.cmdFn →
    n ≠ 0 →
    s.vfThere n = true →
    (s.fnS (fnOf n)).flr = none →
    ∃ t, exec (.vfFreeze tag) s = .next t ∧
      t.vf n = { s.vf n with frozen := true } ∧
      t.vfmRun = some (n, tag) ∧
      t.rd pgVFM VFM.VFM_RES.valid = 0 ∧
      (∀ k, k ≠ n → t.vf k = s.vf k) ∧
      t.toBandState = s.toBandState ∧
      t.toLineState = s.toLineState ∧
      t.toPipeState = s.toPipeState ∧
      t.toQdState = s.toQdState ∧
      t.toMgmtState = s.toMgmtState ∧
      t.nt = s.nt) ∧
  (∀ (s : State) (tag n : Nat),
    s.live pgVFM = true →
    s.vfmRun = some (n, tag) →
    s.vfQuiet n = true →
    ∃ t, exec (.vfFreezeComplete) s = .next t ∧
      t.vfmRun = none ∧
      t.vfs = s.vfs ∧
      t.qps = s.qps ∧
      t.rd pgVFM VFM.VFM_RES.status = 1 ∧
      t.rd pgVFM VFM.VFM_RES.tag = tag % 256 ∧
      t.rd pgVFM VFM.VFM_RES.valid = 1 ∧
      t.toBandState = s.toBandState ∧
      t.toLineState = s.toLineState ∧
      t.toPipeState = s.toPipeState ∧
      t.toQdState = s.toQdState ∧
      t.toMgmtState = s.toMgmtState ∧
      t.nt = s.nt) ∧
  (∀ (s : State) (tag n : Nat),
    s.live pgVFM = true →
    s.vfmRun = none →
    n = s.cmdFn →
    n ≠ 0 →
    s.vfThere n = true →
    (s.fnS (fnOf n)).flr = none →
    (s.vf n).frozen = true →
    ∃ t, exec (.vfUnfreeze tag) s = .next t ∧
      t.vf n = { s.vf n with frozen := false } ∧
      (∀ k, k ≠ n → t.vf k = s.vf k) ∧
      t.rd pgVFM VFM.VFM_RES.status = 1 ∧
      t.rd pgVFM VFM.VFM_RES.tag = tag % 256 ∧
      t.rd pgVFM VFM.VFM_RES.valid = 1 ∧
      t.toBandState = s.toBandState ∧
      t.toLineState = s.toLineState ∧
      t.toPipeState = s.toPipeState ∧
      t.toQdState = s.toQdState ∧
      t.toMgmtState = s.toMgmtState ∧
      t.nt = s.nt) ∧
  (∀ (s : State) (tag n : Nat),
    s.live pgVFM = true →
    s.vfmRun = none →
    n = s.cmdFn →
    n ≠ 0 →
    s.vfThere n = true →
    (s.fnS (fnOf n)).flr = none →
    (s.vf n).frozen = false →
    ∃ t, exec (.vfUnfreeze tag) s = .next t ∧
      t.vfs = s.vfs ∧
      t.rd pgVFM (VFM.VFM_RES.word 1) = 6 ∧
      t.rd pgVFM VFM.VFM_RES.status = 4 ∧
      t.rd pgVFM VFM.VFM_RES.tag = tag % 256 ∧
      t.rd pgVFM VFM.VFM_RES.valid = 1 ∧
      t.toBandState = s.toBandState ∧
      t.toLineState = s.toLineState ∧
      t.toPipeState = s.toPipeState ∧
      t.toQdState = s.toQdState ∧
      t.nt = s.nt) ∧
  (∀ (s : State) (tag n a : Nat),
    s.live pgVFM = true →
    s.vfmRun = none →
    n = s.cmdFn →
    n ≠ 0 →
    s.vfThere n = true →
    (s.fnS (fnOf n)).flr = none →
    (s.vf n).frozen = true →
    a = s.rd pgVFM VFM.CMD_ADDR_LO + s.rd pgVFM VFM.CMD_ADDR_HI * 2 ^ 32 →
    (s.fnS 0).sends = true →
    ∃ t, exec (.vfSave tag) s = .next t ∧
      t.out = .hostWrite 0 a (s.vfImage n).1 false :: .hostWrite 0 (a + 64) (s.vfImage n).2 false :: s.out ∧
      t.rd pgVFM (VFM.VFM_RES.word 1) = (64 + (s.vfImage n).2.length) % 2 ^ 32 ∧
      t.vfs = s.vfs ∧
      t.qps = s.qps ∧
      t.rd pgVFM VFM.VFM_RES.status = 1 ∧
      t.rd pgVFM VFM.VFM_RES.tag = tag % 256 ∧
      t.rd pgVFM VFM.VFM_RES.valid = 1 ∧
      t.toBandState = s.toBandState ∧
      t.toLineState = s.toLineState ∧
      t.toPipeState = s.toPipeState ∧
      t.toQdState = s.toQdState ∧
      t.toMgmtState = s.toMgmtState ∧
      t.nt = s.nt) ∧
  (∀ (s : State) (tag n k : Nat) (img : List Byte) (w : List Nat),
    s.live pgVFM = true →
    s.vfmRun = none →
    n = s.cmdFn →
    n ≠ 0 →
    s.vfThere n = true →
    (s.fnS (fnOf n)).flr = none →
    (s.vf n).frozen = true →
    w = bytesToLeWords img →
    imageOk w img ((s.qpsOf n).map (·.1)) = true →
    ((s.qpsOf n).map (·.2)).Nodup →
    k < (s.qpsOf n).length →
    ∃ t, exec (.vfRestore tag (some img)) s = .next t ∧
      t.vf n = { s.vf n with rate := w.getD 2 0 % 2 ^ 22, busy := bit (w.getD 3 0) 0, reply := bit (w.getD 3 0) 1 } ∧
      t.qp ((s.qpsOf n).getD k (0, 0)).2 = (s.qp ((s.qpsOf n).getD k (0, 0)).2).load ((w.drop (16 + 16 * k)).take 16) ∧
      (∀ k, k ≠ n → t.vf k = s.vf k) ∧
      t.rd pgVFM VFM.VFM_RES.status = 1 ∧
      t.rd pgVFM VFM.VFM_RES.tag = tag % 256 ∧
      t.rd pgVFM VFM.VFM_RES.valid = 1 ∧
      t.toBandState = s.toBandState ∧
      t.toLineState = s.toLineState ∧
      t.toPipeState = s.toPipeState ∧
      t.toQdState = s.toQdState ∧
      t.toMgmtState = s.toMgmtState ∧
      t.nt = s.nt) ∧
  (∀ (s : State) (tag n : Nat) (image : Option (List Byte)),
    s.live pgVFM = true →
    s.vfmRun = none →
    n = s.cmdFn →
    n ≠ 0 →
    s.vfThere n = true →
    (s.fnS (fnOf n)).flr = none →
    (s.vf n).frozen = true →
    imageOk (bytesToLeWords (image.getD [])) (image.getD []) ((s.qpsOf n).map (·.1)) = false →
    ∃ t, exec (.vfRestore tag image) s = .next t ∧
      t.vfs = s.vfs ∧
      t.qps = s.qps ∧
      t.rd pgVFM (VFM.VFM_RES.word 1) = 5 ∧
      t.rd pgVFM VFM.VFM_RES.status = 4 ∧
      t.rd pgVFM VFM.VFM_RES.tag = tag % 256 ∧
      t.rd pgVFM VFM.VFM_RES.valid = 1 ∧
      t.toBandState = s.toBandState ∧
      t.toLineState = s.toLineState ∧
      t.toPipeState = s.toPipeState ∧
      t.toQdState = s.toQdState ∧
      t.nt = s.nt) ∧
  (∀ (s : State) (tag n : Nat),
    s.live pgVFM = true →
    s.vfmRun = none →
    n = s.cmdFn →
    n ≠ 0 →
    s.vfThere n = true →
    (s.fnS (fnOf n)).flr = none →
    ∃ t, exec (.logStart tag) s = .next t ∧
      t.vf n = { s.vf n with logging := true, activeB := false, swaps := 0, dirty := [] } ∧
      (∀ k, k ≠ n → t.vf k = s.vf k) ∧
      t.rd pgVFM VFM.VFM_RES.status = 1 ∧
      t.rd pgVFM VFM.VFM_RES.tag = tag % 256 ∧
      t.rd pgVFM VFM.VFM_RES.valid = 1 ∧
      t.toBandState = s.toBandState ∧
      t.toLineState = s.toLineState ∧
      t.toPipeState = s.toPipeState ∧
      t.toQdState = s.toQdState ∧
      t.toMgmtState = s.toMgmtState ∧
      t.nt = s.nt) ∧
  (∀ (s : State) (tag n : Nat) (logWords : List (Option Nat)),
    s.live pgVFM = true →
    s.vfmRun = none →
    n = s.cmdFn →
    n ≠ 0 →
    s.vfThere n = true →
    (s.fnS (fnOf n)).flr = none →
    (s.vf n).logging = true →
    (s.vf n).dirty = [] →
    ∃ t, exec (.logSwap tag logWords) s = .next t ∧
      t.vf n = { s.vf n with activeB := !(s.vf n).activeB, swaps := ((s.vf n).swaps + 1) % 65536 } ∧
      (∀ k, k ≠ n → t.vf k = s.vf k) ∧
      t.rd pgVFM VFM.VFM_RES.status = 1 ∧
      t.rd pgVFM VFM.VFM_RES.tag = tag % 256 ∧
      t.rd pgVFM VFM.VFM_RES.valid = 1 ∧
      t.toBandState = s.toBandState ∧
      t.toLineState = s.toLineState ∧
      t.toPipeState = s.toPipeState ∧
      t.toQdState = s.toQdState ∧
      t.toMgmtState = s.toMgmtState ∧
      t.nt = s.nt) ∧
  (∀ (s : State) (tag n : Nat) (logWords : List (Option Nat)),
    s.live pgVFM = true →
    s.vfmRun = none →
    n = s.cmdFn →
    n ≠ 0 →
    s.vfThere n = true →
    (s.fnS (fnOf n)).flr = none →
    (s.vf n).logging = true →
    (s.vf n).dirty = [] →
    ∃ t, exec (.logStop tag logWords) s = .next t ∧
      t.vf n = { s.vf n with logging := false } ∧
      (∀ k, k ≠ n → t.vf k = s.vf k) ∧
      t.rd pgVFM VFM.VFM_RES.status = 1 ∧
      t.rd pgVFM VFM.VFM_RES.tag = tag % 256 ∧
      t.rd pgVFM VFM.VFM_RES.valid = 1 ∧
      t.toBandState = s.toBandState ∧
      t.toLineState = s.toLineState ∧
      t.toPipeState = s.toPipeState ∧
      t.toQdState = s.toQdState ∧
      t.toMgmtState = s.toMgmtState ∧
      t.nt = s.nt) ∧
  (∀ (s : State) (tag n : Nat),
    s.live pgVFM = true →
    s.vfmRun = some (n, tag) →
    ∃ t, exec (.vfmAbort) s = .next t ∧
      t.vfmRun = none ∧
      t.vf n = { s.vf n with frozen := false } ∧
      (∀ k, k ≠ n → t.vf k = s.vf k) ∧
      t.rd pgVFM VFM.VFM_RES.status = 2 ∧
      t.rd pgVFM VFM.VFM_RES.tag = tag % 256 ∧
      t.rd pgVFM VFM.VFM_RES.valid = 1 ∧
      t.toBandState = s.toBandState ∧
      t.toLineState = s.toLineState ∧
      t.toPipeState = s.toPipeState ∧
      t.toQdState = s.toQdState ∧
      t.toMgmtState = s.toMgmtState ∧
      t.nt = s.nt)

/-- Outside fabric mode the next frame of the queue that the DWRR serves is encrypted under its valid outbound SA with the
sequence number the SA holds, which then advances, or, for an exhausted sequence space, dropped with cause 2; a frame for
decryption whose SPI is the SA's and whose number passes the window goes on decrypted, with the number marked, where its check
value holds, and is dropped and counted with cause 0 where it does not or where it is a replay. A frame that passes re-enters
dealing under the SA's loop queue pair with slots 46 and 47 written. WRITE stores the staged SA over one that is not valid and
ends ERROR 1 over a valid one; READ shows it; INVALIDATE clears VALID; a late ABORT marks the result. Rules followed: R29, R64,
R621, R622, R623, R624, R625, R626, R627, R652. -/
def Obligations.IpsecPasses : Prop :=
  (∀ (s : State) (it : IpsItem) (x : IpsSa) (u : State),
    s.enabled pgIPS = true →
    s.fabric = false →
    s.ipsTake true = some (it, u) →
    tget s.ipsSas it.sa = some x →
    x.valid = true →
    x.out = true →
    x.seq < x.space →
    (s.espOut x x.seq it.frame it.frame.oflArg).isSome = true →
    ∃ t, exec (.ipsEncrypt) s = .next t ∧
      t.ingress = s.ingress ++ [{ bytes := (s.espOut x x.seq it.frame it.frame.oflArg).getD [], fcsGood := true, port := it.frame.port, ctx := 256 + x.loopQp, time := it.frame.time, timeValid := it.frame.timeValid, traced := it.frame.traced, traceId := it.frame.traceId, srcDev := it.frame.srcDev, startKey := bits x.cfg2 0 16, slots := tset (tset [] 46 (toBe 4 (it.sa))) 47 (toBe 4 (0x7FF + x.loopQp * 65536)), modified := true }] ∧
      t.ipsSas = tset s.ipsSas it.sa { x with seq := x.seq + 1, warned := x.warned || decide (bits x.cfg2 16 8 * x.space < (x.seq + 1) * 256) } ∧
      t.ipsHost = u.ipsHost ∧
      t.ipsTransit = u.ipsTransit ∧
      t.rd pgIPS IPS.IPS_CNT 0 = (s.rd pgIPS IPS.IPS_CNT 0 + 1) % 2 ^ 64 ∧
      t.toBandState = s.toBandState ∧
      t.toPipeState = s.toPipeState ∧
      t.toQdState = s.toQdState ∧
      t.nt = s.nt) ∧
  (∀ (s : State) (it : IpsItem) (x : IpsSa) (u : State),
    s.enabled pgIPS = true →
    s.fabric = false →
    s.ipsTake true = some (it, u) →
    tget s.ipsSas it.sa = some x →
    x.valid = true →
    x.out = true →
    x.space ≤ x.seq →
    ∃ t, exec (.ipsEncrypt) s = .next t ∧
      t.ingress = s.ingress ∧
      t.ipsSas = s.ipsSas ∧
      t.ipsHost = u.ipsHost ∧
      t.rd pgIPS IPS.IPS_CNT 5 = (s.rd pgIPS IPS.IPS_CNT 5 + 1) % 2 ^ 64 ∧
      bit (t.rd pgIPS COMMON.INT_CAUSE_CAUSE) 2 = true ∧
      t.toBandState = s.toBandState ∧
      t.toLineState = s.toLineState ∧
      t.toPipeState = s.toPipeState ∧
      t.toQdState = s.toQdState ∧
      t.nt = s.nt) ∧
  (∀ (s : State) (it : IpsItem) (x : IpsSa) (u : State) (o hl proto q : Nat) (v6 : Bool) (l : List Byte),
    s.enabled pgIPS = true →
    s.fabric = false →
    s.ipsTake false = some (it, u) →
    it.frame.l3 = some o →
    ipAt it.frame.bytes o = some (v6, hl, proto) →
    l = espBytes it.frame.bytes o v6 →
    tget s.ipsSas it.sa = some x →
    x.valid = true →
    x.out = false →
    x.spi = beAt l (o + hl) 4 →
    x.fullSeq (beAt l (o + hl + 4) 4) = some q →
    x.fresh q = true →
    ∃ t, exec (.ipsDecrypt) s = .next t ∧
      (match Config.gcmOpen x.keyBytes (toBe 4 x.salt ++ slice l (o + hl + 8) 8) (x.aad q) (l.drop (o + hl + 16)) with | none => t.rd pgIPS IPS.IPS_CNT 2 = (s.rd pgIPS IPS.IPS_CNT 2 + 1) % 2 ^ 64 ∧ t.ipsSas = s.ipsSas ∧ t.ingress = s.ingress ∧ bit (t.rd pgIPS COMMON.INT_CAUSE_CAUSE) 0 = true | some plain => t.ipsSas = tset s.ipsSas it.sa (x.mark q) ∧ t.rd pgIPS IPS.IPS_CNT 1 = (s.rd pgIPS IPS.IPS_CNT 1 + 1) % 2 ^ 64 ∧ t.ingress = s.ingress ++ [{ bytes := espStrip x l o v6 hl plain, fcsGood := true, port := it.frame.port, ctx := 256 + x.loopQp, time := it.frame.time, timeValid := it.frame.timeValid, traced := it.frame.traced, traceId := it.frame.traceId, srcDev := it.frame.srcDev, startKey := bits x.cfg2 0 16, slots := tset (tset [] 46 (toBe 4 (it.sa + 1 * 65536))) 47 (toBe 4 (0x7FF + x.loopQp * 65536)), modified := true }]) ∧
      t.ipsTransit = u.ipsTransit ∧
      t.toBandState = s.toBandState ∧
      t.toPipeState = s.toPipeState ∧
      t.toQdState = s.toQdState ∧
      t.nt = s.nt) ∧
  (∀ (s : State) (it : IpsItem) (x : IpsSa) (u : State) (o hl proto q : Nat) (v6 : Bool) (l : List Byte),
    s.enabled pgIPS = true →
    s.fabric = false →
    s.ipsTake false = some (it, u) →
    it.frame.l3 = some o →
    ipAt it.frame.bytes o = some (v6, hl, proto) →
    l = espBytes it.frame.bytes o v6 →
    tget s.ipsSas it.sa = some x →
    x.valid = true →
    x.out = false →
    x.spi = beAt l (o + hl) 4 →
    x.fullSeq (beAt l (o + hl + 4) 4) = some q →
    x.fresh q = false →
    ∃ t, exec (.ipsDecrypt) s = .next t ∧
      t.ingress = s.ingress ∧
      t.ipsSas = s.ipsSas ∧
      t.rd pgIPS IPS.IPS_CNT 3 = (s.rd pgIPS IPS.IPS_CNT 3 + 1) % 2 ^ 64 ∧
      bit (t.rd pgIPS COMMON.INT_CAUSE_CAUSE) 0 = true ∧
      t.ipsTransit = u.ipsTransit ∧
      t.toBandState = s.toBandState ∧
      t.toLineState = s.toLineState ∧
      t.toPipeState = s.toPipeState ∧
      t.toQdState = s.toQdState ∧
      t.nt = s.nt) ∧
  (∀ (s : State) (tag : Nat),
    s.fabric = false →
    s.live pgIPS = true →
    (tget s.ipsSas s.ipsSel).any IpsSa.valid = false →
    ∃ t, exec (.ipsSaWrite tag) s = .next t ∧
      t.ipsSas = tset s.ipsSas s.ipsSel { key := (List.range 8).map (fun k => s.rd pgIPS IPS.SA_KEY_KEY k), salt := s.rd pgIPS IPS.SA_SALT_SALT, spi := s.rd pgIPS IPS.SA_SPI_SPI, seq := (s.rd pgIPS IPS.SA_SEQ_LO + s.rd pgIPS IPS.SA_SEQ_HI * 2 ^ 32), cfg := s.saCfgStage.1, cfg2 := s.saCfgStage.2, win := if (s.rd pgIPS IPS.SA_SEQ_LO + s.rd pgIPS IPS.SA_SEQ_HI * 2 ^ 32) = 0 then 0 else 1 } ∧
      t.rd pgIPS IPS.SA_RES.status = 1 ∧
      t.rd pgIPS IPS.SA_RES.tag = tag % 256 ∧
      t.rd pgIPS IPS.SA_RES.valid = 1 ∧
      t.toBandState = s.toBandState ∧
      t.toLineState = s.toLineState ∧
      t.toPipeState = s.toPipeState ∧
      t.toQdState = s.toQdState ∧
      t.toMgmtState = s.toMgmtState ∧
      t.nt = s.nt) ∧
  (∀ (s : State) (tag : Nat),
    s.fabric = false →
    s.live pgIPS = true →
    (tget s.ipsSas s.ipsSel).any IpsSa.valid = true →
    ∃ t, exec (.ipsSaWrite tag) s = .next t ∧
      t.ipsSas = s.ipsSas ∧
      t.rd pgIPS (IPS.SA_RES.word 1) = 1 ∧
      bit (t.rd pgIPS COMMON.INT_CAUSE_CAUSE) 4 = true ∧
      t.rd pgIPS IPS.SA_RES.status = 4 ∧
      t.rd pgIPS IPS.SA_RES.tag = tag % 256 ∧
      t.rd pgIPS IPS.SA_RES.valid = 1 ∧
      t.toBandState = s.toBandState ∧
      t.toLineState = s.toLineState ∧
      t.toPipeState = s.toPipeState ∧
      t.toQdState = s.toQdState ∧
      t.nt = s.nt) ∧
  (∀ (s : State) (tag : Nat) (x : IpsSa),
    s.fabric = false →
    s.live pgIPS = true →
    tget s.ipsSas s.ipsSel = some x →
    ∃ t, exec (.ipsSaRead tag) s = .next t ∧
      t.rd pgIPS (IPS.SA_RES.word 1) = x.spi % 2 ^ 32 ∧
      t.rd pgIPS (IPS.SA_RES.word 2) = x.seq % 2 ^ 32 ∧
      t.rd pgIPS (IPS.SA_RES.word 3) = x.seq / 2 ^ 32 % 2 ^ 32 ∧
      t.rd pgIPS (IPS.SA_RES.word 4) = x.cfg % 2 ^ 32 ∧
      t.rd pgIPS (IPS.SA_RES.word 5) = x.cfg2 % 2 ^ 32 ∧
      t.rd pgIPS IPS.SA_RES.status = 1 ∧
      t.rd pgIPS IPS.SA_RES.tag = tag % 256 ∧
      t.rd pgIPS IPS.SA_RES.valid = 1 ∧
      t.toBandState = s.toBandState ∧
      t.toLineState = s.toLineState ∧
      t.toPipeState = s.toPipeState ∧
      t.toQdState = s.toQdState ∧
      t.toMgmtState = s.toMgmtState ∧
      t.nt = s.nt ∧
      t.toHostState = s.toHostState) ∧
  (∀ (s : State) (tag : Nat) (x : IpsSa),
    s.fabric = false →
    s.live pgIPS = true →
    tget s.ipsSas s.ipsSel = some x →
    ∃ t, exec (.ipsSaInvalidate tag) s = .next t ∧
      t.ipsSas = tset s.ipsSas s.ipsSel { x with cfg := clrBit x.cfg 0 } ∧
      t.rd pgIPS IPS.SA_RES.status = 1 ∧
      t.rd pgIPS IPS.SA_RES.tag = tag % 256 ∧
      t.rd pgIPS IPS.SA_RES.valid = 1 ∧
      t.toBandState = s.toBandState ∧
      t.toLineState = s.toLineState ∧
      t.toPipeState = s.toPipeState ∧
      t.toQdState = s.toQdState ∧
      t.toMgmtState = s.toMgmtState ∧
      t.nt = s.nt) ∧
  (∀ (s : State),
    s.fabric = false →
    s.live pgIPS = true →
    s.on pgIPS IPS.SA_RES.valid = true →
    s.rd pgIPS IPS.SA_RES.status = 1 →
    ∃ t, exec (.ipsSaAbort) s = .next t ∧
      t.rd pgIPS IPS.SA_RES.late = 1 ∧
      t.rd pgIPS IPS.SA_RES.status = 1 ∧
      t.toBandState = s.toBandState ∧
      t.toLineState = s.toLineState ∧
      t.toPipeState = s.toPipeState ∧
      t.toQdState = s.toQdState ∧
      t.toMgmtState = s.toMgmtState ∧
      t.nt = s.nt ∧
      t.toHostState = s.toHostState)

/-- Outside fabric mode, with the key-encryption key of the slot loaded: WRAP returns the wrapped staged key; UNWRAP of a key
whose check fails ends ERROR 2, and of a good one gives it to the IPS or MSC staging words, or to the result where the slot
exports, else ERROR 3; CHECK answers MATCH alone; an empty slot ends ERROR 4. LOAD_KEK stores a key in slots 1 to 15, and slot 0
refuses it with ERROR 3. A late abort marks the result. NV WRITE stores the staged connection where DDP_LOG2 is in range and else
ends ERROR with cause 4; READ shows its words; RESYNC_RX and RESYNC_TX set the sequence number, the PDU offset and the SYNC bit of
one direction. Rules followed: R29, R64, R628, R632, R633, R634, R635, R636, R650, R653. -/
def Obligations.KeyWrapAndNvmeCommands : Prop :=
  (∀ (s : State) (kek tag : Nat) (len32 : Bool) (k : List Byte) (j : Nat),
    s.fabric = false →
    s.live pgIPS = true →
    s.kek (kek % 16) = some k →
    j < 15 →
    ∃ t, exec (.kwWrap kek tag len32) s = .next t ∧
      t.rd pgIPS (IPS.KW_RES.word (j + 1)) = (bytesToBeWords (Config.keyWrap k (s.kwIn 10 (keyWords len32)))).getD j 0 % 2 ^ 32 ∧
      t.rd pgIPS IPS.KW_RES.status = 1 ∧
      t.rd pgIPS IPS.KW_RES.tag = tag % 256 ∧
      t.rd pgIPS IPS.KW_RES.valid = 1 ∧
      t.toBandState = s.toBandState ∧
      t.toLineState = s.toLineState ∧
      t.toPipeState = s.toPipeState ∧
      t.toQdState = s.toQdState ∧
      t.toMgmtState = s.toMgmtState ∧
      t.nt = s.nt ∧
      t.toHostState = s.toHostState) ∧
  (∀ (s : State) (kek tag : Nat) (len32 : Bool),
    s.fabric = false →
    s.live pgIPS = true →
    s.kek (kek % 16) = none →
    ∃ t, exec (.kwWrap kek tag len32) s = .next t ∧
      t.rd pgIPS (IPS.KW_RES.word 1) = 4 ∧
      bit (t.rd pgIPS COMMON.INT_CAUSE_CAUSE) 4 = true ∧
      t.rd pgIPS IPS.KW_RES.status = 4 ∧
      t.rd pgIPS IPS.KW_RES.tag = tag % 256 ∧
      t.rd pgIPS IPS.KW_RES.valid = 1 ∧
      t.toBandState = s.toBandState ∧
      t.toLineState = s.toLineState ∧
      t.toPipeState = s.toPipeState ∧
      t.toQdState = s.toQdState ∧
      t.nt = s.nt) ∧
  (∀ (s : State) (kek msc tag j : Nat) (len32 : Bool) (k : List Byte),
    s.fabric = false →
    s.live pgIPS = true →
    s.kek (kek % 16) = some k →
    j < 8 →
    ∃ t, exec (.kwUnwrap kek 1 msc tag len32) s = .next t ∧
      (match Config.keyUnwrap k (s.kwIn 0 (keyWords len32 + 2)) with | none => t.rd pgIPS IPS.KW_RES.status = 4 ∧ t.rd pgIPS (IPS.KW_RES.word 1) = 2 | some key => t.rd pgIPS IPS.KW_RES.status = 1 ∧ (j < (bytesToBeWords key).length → t.rd pgIPS IPS.SA_KEY_KEY j = (bytesToBeWords key).getD j 0 % 2 ^ 32)) ∧
      t.rd pgIPS IPS.KW_RES.tag = tag % 256 ∧
      t.rd pgIPS IPS.KW_RES.valid = 1 ∧
      t.toBandState = s.toBandState ∧
      t.toPipeState = s.toPipeState ∧
      t.toLineState = s.toLineState ∧
      t.toQdState = s.toQdState ∧
      t.nt = s.nt) ∧
  (∀ (s : State) (kek msc tag j : Nat) (len32 : Bool) (k : List Byte),
    s.fabric = false →
    s.live pgIPS = true →
    s.kek (kek % 16) = some k →
    j < 8 →
    ∃ t, exec (.kwUnwrap kek 2 msc tag len32) s = .next t ∧
      (match Config.keyUnwrap k (s.kwIn 0 (keyWords len32 + 2)) with | none => t.rd pgIPS IPS.KW_RES.status = 4 ∧ t.rd pgIPS (IPS.KW_RES.word 1) = 2 | some key => t.rd pgIPS IPS.KW_RES.status = 1 ∧ (j < (bytesToBeWords key).length → t.rd (pgMSC (msc % 16)) MSC.SA_KEY_KEY j = (bytesToBeWords key).reverse.getD j 0 % 2 ^ 32)) ∧
      t.rd pgIPS IPS.KW_RES.tag = tag % 256 ∧
      t.rd pgIPS IPS.KW_RES.valid = 1 ∧
      t.toBandState = s.toBandState ∧
      t.toPipeState = s.toPipeState ∧
      t.toLineState = s.toLineState ∧
      t.toQdState = s.toQdState ∧
      t.nt = s.nt) ∧
  (∀ (s : State) (kek msc tag j : Nat) (len32 : Bool) (k : List Byte),
    s.fabric = false →
    s.live pgIPS = true →
    s.kek (kek % 16) = some k →
    j < 15 →
    tgetD s.kekExport (kek % 16) 0 = 1 →
    ∃ t, exec (.kwUnwrap kek 0 msc tag len32) s = .next t ∧
      (match Config.keyUnwrap k (s.kwIn 0 (keyWords len32 + 2)) with | none => t.rd pgIPS IPS.KW_RES.status = 4 ∧ t.rd pgIPS (IPS.KW_RES.word 1) = 2 | some key => t.rd pgIPS IPS.KW_RES.status = 1 ∧ t.rd pgIPS (IPS.KW_RES.word (j + 1)) = (bytesToBeWords key).getD j 0 % 2 ^ 32) ∧
      t.rd pgIPS IPS.KW_RES.tag = tag % 256 ∧
      t.rd pgIPS IPS.KW_RES.valid = 1 ∧
      t.toBandState = s.toBandState ∧
      t.toPipeState = s.toPipeState ∧
      t.toLineState = s.toLineState ∧
      t.toQdState = s.toQdState ∧
      t.nt = s.nt) ∧
  (∀ (s : State) (kek msc tag : Nat) (len32 : Bool) (k : List Byte),
    s.fabric = false →
    s.live pgIPS = true →
    s.kek (kek % 16) = some k →
    tgetD s.kekExport (kek % 16) 0 ≠ 1 →
    ∃ t, exec (.kwUnwrap kek 0 msc tag len32) s = .next t ∧
      (match Config.keyUnwrap k (s.kwIn 0 (keyWords len32 + 2)) with | none => t.rd pgIPS IPS.KW_RES.status = 4 ∧ t.rd pgIPS (IPS.KW_RES.word 1) = 2 | some key => t.rd pgIPS IPS.KW_RES.status = 4 ∧ t.rd pgIPS (IPS.KW_RES.word 1) = 3) ∧
      t.rd pgIPS IPS.KW_RES.tag = tag % 256 ∧
      t.rd pgIPS IPS.KW_RES.valid = 1 ∧
      t.toBandState = s.toBandState ∧
      t.toPipeState = s.toPipeState ∧
      t.toLineState = s.toLineState ∧
      t.toQdState = s.toQdState ∧
      t.nt = s.nt) ∧
  (∀ (s : State) (kek tag : Nat) (len32 : Bool) (k : List Byte),
    s.fabric = false →
    s.live pgIPS = true →
    s.kek (kek % 16) = some k →
    ∃ t, exec (.kwCheck kek tag len32) s = .next t ∧
      t.rd pgIPS (IPS.KW_RES.word 1) = b2n (decide (Config.keyUnwrap k (s.kwIn 0 (keyWords len32 + 2)) = some (s.kwIn 10 (keyWords len32)))) ∧
      ((∀ j, 1 ≤ j → j < 15 → t.rd pgIPS (IPS.KW_RES.word (j + 1)) = 0)) ∧
      t.rd pgIPS IPS.KW_RES.status = 1 ∧
      t.rd pgIPS IPS.KW_RES.tag = tag % 256 ∧
      t.rd pgIPS IPS.KW_RES.valid = 1 ∧
      t.toBandState = s.toBandState ∧
      t.toLineState = s.toLineState ∧
      t.toPipeState = s.toPipeState ∧
      t.toQdState = s.toQdState ∧
      t.toMgmtState = s.toMgmtState ∧
      t.nt = s.nt ∧
      t.toHostState = s.toHostState) ∧
  (∀ (s : State) (kek tag : Nat),
    s.fabric = false →
    s.live pgIPS = true →
    kek % 16 ≠ 0 →
    ∃ t, exec (.kwLoadKek kek tag) s = .next t ∧
      t.keks = tset s.keks (kek % 16) ((List.range 8).map (fun k => s.rd pgIPS IPS.KEK_DATA_KEY k)) ∧
      t.rd pgIPS IPS.KW_RES.status = 1 ∧
      t.rd pgIPS IPS.KW_RES.tag = tag % 256 ∧
      t.rd pgIPS IPS.KW_RES.valid = 1 ∧
      t.toBandState = s.toBandState ∧
      t.toLineState = s.toLineState ∧
      t.toPipeState = s.toPipeState ∧
      t.toQdState = s.toQdState ∧
      t.toMgmtState = s.toMgmtState ∧
      t.nt = s.nt) ∧
  (∀ (s : State) (kek tag : Nat),
    s.fabric = false →
    s.live pgIPS = true →
    kek % 16 = 0 →
    ∃ t, exec (.kwLoadKek kek tag) s = .next t ∧
      t.keks = s.keks ∧
      t.rd pgIPS (IPS.KW_RES.word 1) = 3 ∧
      t.rd pgIPS IPS.KW_RES.status = 4 ∧
      t.rd pgIPS IPS.KW_RES.tag = tag % 256 ∧
      t.rd pgIPS IPS.KW_RES.valid = 1 ∧
      t.toBandState = s.toBandState ∧
      t.toLineState = s.toLineState ∧
      t.toPipeState = s.toPipeState ∧
      t.toQdState = s.toQdState ∧
      t.nt = s.nt) ∧
  (∀ (s : State),
    s.fabric = false →
    s.live pgIPS = true →
    s.on pgIPS IPS.KW_RES.valid = true →
    s.rd pgIPS IPS.KW_RES.status = 1 →
    ∃ t, exec (.kwAbort) s = .next t ∧
      t.rd pgIPS IPS.KW_RES.late = 1 ∧
      t.rd pgIPS IPS.KW_RES.status = 1 ∧
      t.toBandState = s.toBandState ∧
      t.toLineState = s.toLineState ∧
      t.toPipeState = s.toPipeState ∧
      t.toQdState = s.toQdState ∧
      t.toMgmtState = s.toMgmtState ∧
      t.nt = s.nt ∧
      t.toHostState = s.toHostState) ∧
  (∀ (s : State) (tag : Nat),
    s.fabric = false →
    s.live pgOFL = true →
    6 ≤ bits (s.nvStage 0) 5 5 →
    bits (s.nvStage 0) 5 5 ≤ 16 →
    ∃ t, exec (.nvWrite tag) s = .next t ∧
      t.nvs = tset s.nvs (s.rd pgOFL OFL.NV_SEL_CONN) { words := (List.range 7).map (fun k => andBits (s.nvStage k) (if k = 0 then 0x3FF else if k = 5 then 0xFFFFFFF0 else 0xFFFFFFFF)), tx := { skip := s.nvStage 2 }, rx := { skip := s.nvStage 4 } } ∧
      t.rd pgOFL OFL.NV_RES.status = 1 ∧
      t.rd pgOFL OFL.NV_RES.tag = tag % 256 ∧
      t.rd pgOFL OFL.NV_RES.valid = 1 ∧
      t.toBandState = s.toBandState ∧
      t.toLineState = s.toLineState ∧
      t.toPipeState = s.toPipeState ∧
      t.toQdState = s.toQdState ∧
      t.toMgmtState = s.toMgmtState ∧
      t.nt = s.nt) ∧
  (∀ (s : State) (tag : Nat),
    s.fabric = false →
    s.live pgOFL = true →
    (bits (s.nvStage 0) 5 5 < 6 ∨ 16 < bits (s.nvStage 0) 5 5) →
    ∃ t, exec (.nvWrite tag) s = .next t ∧
      t.nvs = s.nvs ∧
      bit (t.rd pgOFL COMMON.INT_CAUSE_CAUSE) 4 = true ∧
      t.rd pgOFL OFL.NV_RES.status = 4 ∧
      t.rd pgOFL OFL.NV_RES.tag = tag % 256 ∧
      t.rd pgOFL OFL.NV_RES.valid = 1 ∧
      t.toBandState = s.toBandState ∧
      t.toLineState = s.toLineState ∧
      t.toPipeState = s.toPipeState ∧
      t.toQdState = s.toQdState ∧
      t.nt = s.nt) ∧
  (∀ (s : State) (tag j : Nat) (x : NvConn),
    s.fabric = false →
    s.live pgOFL = true →
    tget s.nvs (s.rd pgOFL OFL.NV_SEL_CONN) = some x →
    j < 7 →
    ∃ t, exec (.nvRead tag) s = .next t ∧
      t.rd pgOFL (OFL.NV_RES.word (j + 1)) = x.words.getD j 0 % 2 ^ 32 ∧
      t.rd pgOFL OFL.NV_RES.status = 1 ∧
      t.rd pgOFL OFL.NV_RES.tag = tag % 256 ∧
      t.rd pgOFL OFL.NV_RES.valid = 1 ∧
      t.toBandState = s.toBandState ∧
      t.toLineState = s.toLineState ∧
      t.toPipeState = s.toPipeState ∧
      t.toQdState = s.toQdState ∧
      t.toMgmtState = s.toMgmtState ∧
      t.nt = s.nt ∧
      t.toHostState = s.toHostState) ∧
  (∀ (s : State) (tag : Nat) (x : NvConn),
    s.fabric = false →
    s.live pgOFL = true →
    tget s.nvs (s.rd pgOFL OFL.NV_SEL_CONN) = some x →
    ∃ t, exec (.nvResyncRx tag) s = .next t ∧
      t.nvs = tset s.nvs (s.rd pgOFL OFL.NV_SEL_CONN) { x with words := lset (lset (lset x.words 3 (s.nvStage 3)) 4 (s.nvStage 4)) 0 (setBit (x.words.getD 0 0) 4), rx := { skip := s.nvStage 4 } } ∧
      t.rd pgOFL OFL.NV_RES.status = 1 ∧
      t.rd pgOFL OFL.NV_RES.tag = tag % 256 ∧
      t.rd pgOFL OFL.NV_RES.valid = 1 ∧
      t.toBandState = s.toBandState ∧
      t.toLineState = s.toLineState ∧
      t.toPipeState = s.toPipeState ∧
      t.toQdState = s.toQdState ∧
      t.toMgmtState = s.toMgmtState ∧
      t.nt = s.nt) ∧
  (∀ (s : State) (tag : Nat) (x : NvConn),
    s.fabric = false →
    s.live pgOFL = true →
    tget s.nvs (s.rd pgOFL OFL.NV_SEL_CONN) = some x →
    ∃ t, exec (.nvResyncTx tag) s = .next t ∧
      t.nvs = tset s.nvs (s.rd pgOFL OFL.NV_SEL_CONN) { x with words := lset (lset (lset x.words 1 (s.nvStage 1)) 2 (s.nvStage 2)) 0 (setBit (x.words.getD 0 0) 3), tx := { skip := s.nvStage 2 } } ∧
      t.rd pgOFL OFL.NV_RES.status = 1 ∧
      t.rd pgOFL OFL.NV_RES.tag = tag % 256 ∧
      t.rd pgOFL OFL.NV_RES.valid = 1 ∧
      t.toBandState = s.toBandState ∧
      t.toLineState = s.toLineState ∧
      t.toPipeState = s.toPipeState ∧
      t.toQdState = s.toQdState ∧
      t.toMgmtState = s.toMgmtState ∧
      t.nt = s.nt)

/-- A running, valid session whose interval has passed sends one control packet of the rule's layout to its queue. A good packet
of an Up session is consumed and restarts its detection time; one that says Down sets the session Down with diagnostic 3 and posts
an event; a frame that is no BFD packet goes to the service processor. A session in Init or Up whose detection time passes goes
Down with diagnostic 1. A session WRITE stores the staged words, unless its condition fails: ERROR 1, no effect; READ shows them;
DELETE removes the session. Templates below 4,096 are written and read, others end ERROR 2. EVT_POP by the consumer of the FIFO
takes its head. Rules followed: R612, R637, R638, R639, R640, R641, R642, R643, R644, R654. -/
def Obligations.BfdSessionsAndTemplates : Prop :=
  (∀ (s : State) (session n : Nat) (x : List Nat),
    s.bfdRuns = true →
    n = session % 65536 →
    x = s.sessOf n →
    sessValid x = true →
    s.bfdDue n = true →
    ∃ t, exec (.bfdTxTimer session) s = .next t ∧
      t.bfdSent = tset s.bfdSent n s.ticks ∧
      (∃ l f, f < 2 ∧ t.toQd = s.toQd ++ [{ bytes := l, fcsGood := true, nhType := 8, queue := bits (sw x 7) 0 19, outPort := bits (sw x 7) 19 8, dest := bits (sw x 7) 19 8 * 4096, rewrite := bits (sw x 8) 0 18, cls := bits (sw x 0) 5 3, modified := true, fence := s.fences }] ∧ l.drop (l.length - 24) = s.bfdPayload n x f) ∧
      t.rd pgSVC SVC.SVC_CNT 0 = (s.rd pgSVC SVC.SVC_CNT 0 + 1) % 2 ^ 64 ∧
      t.toBandState = s.toBandState ∧
      t.toLineState = s.toLineState ∧
      t.toQdState = s.toQdState ∧
      t.toMgmtState = s.toMgmtState ∧
      t.nt = s.nt) ∧
  (∀ (s : State) (f : Frame) (rest : List Frame) (ttl n : Nat) (p : List Byte) (x : List Nat),
    s.live pgSVC = true →
    s.bfdIn = f :: rest →
    bfdOf f = some (ttl, p) →
    beAt p 8 4 ≠ 0 →
    beAt p 8 4 / 65536 = s.rd pgSVC SVC.BFD_DISC_HI_DISC →
    n = beAt p 8 4 % 65536 →
    x = s.sessOf n →
    sessValid x = true →
    bit (beAt p 1 1) 2 = false →
    bit (beAt p 1 1) 1 = false →
    bit (beAt p 1 1) 0 = false →
    (bit (sw x 0) 3 = true ∨ ttl = 255) →
    sessState x = 3 →
    beAt p 1 1 / 64 = 3 →
    bit (beAt p 1 1) 5 = false →
    bit (beAt p 1 1) 4 = false →
    (beAt p 4 4 = sw x 1 ∧ beAt p 12 4 = sw x 4 ∧ beAt p 16 4 = sw x 5 ∧ beAt p 2 1 = bits (sw x 6) 0 8) →
    ∃ t, exec (.bfdRxPacket) s = .next t ∧
      t.bfdIn = rest ∧
      t.bfdHeard = tset s.bfdHeard n s.ticks ∧
      t.sess = s.sess ∧
      t.rd pgSVC SVC.SVC_CNT 1 = (s.rd pgSVC SVC.SVC_CNT 1 + 1) % 2 ^ 64 ∧
      t.out = s.out ∧
      t.toBandState = s.toBandState ∧
      t.toLineState = s.toLineState ∧
      t.toPipeState = s.toPipeState ∧
      t.toQdState = s.toQdState ∧
      t.toMgmtState = s.toMgmtState ∧
      t.nt = s.nt) ∧
  (∀ (s : State) (f : Frame) (rest : List Frame) (ttl n : Nat) (p : List Byte) (x : List Nat),
    s.live pgSVC = true →
    s.bfdIn = f :: rest →
    bfdOf f = some (ttl, p) →
    beAt p 8 4 ≠ 0 →
    beAt p 8 4 / 65536 = s.rd pgSVC SVC.BFD_DISC_HI_DISC →
    n = beAt p 8 4 % 65536 →
    x = s.sessOf n →
    sessValid x = true →
    bit (beAt p 1 1) 2 = false →
    bit (beAt p 1 1) 1 = false →
    bit (beAt p 1 1) 0 = false →
    (bit (sw x 0) 3 = true ∨ ttl = 255) →
    sessState x = 3 →
    beAt p 1 1 / 64 ≤ 1 →
    s.bfdEvents.length < 256 →
    ∃ t, exec (.bfdRxPacket) s = .next t ∧
      t.bfdIn = rest ∧
      t.sess = tset s.sess n (lset x 0 (sw x 0 - sessState x + 1 - bits (sw x 0) 16 5 * 65536 + 3 * 65536)) ∧
      t.bfdEvents = s.bfdEvents ++ [{ session := n, old := sessState x, new := 1, diag := 3, time := s.nt }] ∧
      bit (t.rd pgSVC COMMON.INT_CAUSE_CAUSE) 0 = true ∧
      t.toBandState = s.toBandState ∧
      t.toLineState = s.toLineState ∧
      t.toPipeState = s.toPipeState ∧
      t.toQdState = s.toQdState ∧
      t.nt = s.nt) ∧
  (∀ (s : State) (f : Frame) (rest : List Frame),
    s.live pgSVC = true →
    s.bfdIn = f :: rest →
    bfdOf f = none →
    s.on pgSPA SPA.IL_STS_SWITCHING = false →
    s.on pgSPA SPA.IL_STS_NO_ACTIVE = false →
    ∃ t, exec (.bfdRxPacket) s = .next t ∧
      t.bfdIn = rest ∧
      t.sess = s.sess ∧
      t.out = .toProcessor f.bytes :: s.out ∧
      t.rd pgSVC SVC.SVC_CNT 2 = (s.rd pgSVC SVC.SVC_CNT 2 + 1) % 2 ^ 64 ∧
      t.toBandState = s.toBandState ∧
      t.toLineState = s.toLineState ∧
      t.toPipeState = s.toPipeState ∧
      t.toQdState = s.toQdState ∧
      t.toMgmtState = s.toMgmtState ∧
      t.nt = s.nt) ∧
  (∀ (s : State) (session n : Nat) (x : List Nat),
    s.bfdRuns = true →
    n = session % 65536 →
    x = s.sessOf n →
    sessValid x = true →
    2 ≤ sessState x →
    s.bfdLate n = true →
    s.bfdEvents.length < 256 →
    ∃ t, exec (.bfdDetectTimeout session) s = .next t ∧
      t.sess = tset s.sess n (lset x 0 (sw x 0 - sessState x + 1 - bits (sw x 0) 16 5 * 65536 + 1 * 65536)) ∧
      t.bfdEvents = s.bfdEvents ++ [{ session := n, old := sessState x, new := 1, diag := 1, time := s.nt }] ∧
      bit (t.rd pgSVC COMMON.INT_CAUSE_CAUSE) 0 = true ∧
      t.rd pgSVC SVC.SVC_CNT 3 = (s.rd pgSVC SVC.SVC_CNT 3 + 1) % 2 ^ 64 ∧
      t.toBandState = s.toBandState ∧
      t.toLineState = s.toLineState ∧
      t.toPipeState = s.toPipeState ∧
      t.toQdState = s.toQdState ∧
      t.nt = s.nt) ∧
  (∀ (s : State) (session n : Nat) (x : List Nat),
    s.bfdRuns = true →
    n = session % 65536 →
    x = s.sessOf n →
    sessValid x = true →
    2 ≤ sessState x →
    s.bfdLate n = true →
    256 ≤ s.bfdEvents.length →
    ∃ t, exec (.bfdDetectTimeout session) s = .next t ∧
      t.sess = tset s.sess n (lset x 0 (sw x 0 - sessState x + 1 - bits (sw x 0) 16 5 * 65536 + 1 * 65536)) ∧
      t.bfdEvents = s.bfdEvents ∧
      bit (t.rd pgSVC COMMON.INT_CAUSE_CAUSE) 1 = true ∧
      t.rd pgSVC SVC.SVC_CNT 4 = (s.rd pgSVC SVC.SVC_CNT 4 + 1) % 2 ^ 64 ∧
      t.toBandState = s.toBandState ∧
      t.toLineState = s.toLineState ∧
      t.toPipeState = s.toPipeState ∧
      t.toQdState = s.toQdState ∧
      t.nt = s.nt) ∧
  (∀ (s : State) (cond : Bool) (expect tag : Nat),
    s.live pgSVC = true →
    (cond = false ∨ sessState (s.sessOf (s.rd pgSVC SVC.SESS_IDX_INDEX)) = expect % 4) →
    ∃ t, exec (.sessWrite cond expect tag) s = .next t ∧
      t.sess = tset s.sess (s.rd pgSVC SVC.SESS_IDX_INDEX) s.sessStage ∧
      t.bfdHeard = tset s.bfdHeard (s.rd pgSVC SVC.SESS_IDX_INDEX) s.ticks ∧
      t.rd pgSVC SVC.SESS_RES.status = 1 ∧
      t.rd pgSVC SVC.SESS_RES.tag = tag % 256 ∧
      t.rd pgSVC SVC.SESS_RES.valid = 1 ∧
      t.toBandState = s.toBandState ∧
      t.toLineState = s.toLineState ∧
      t.toPipeState = s.toPipeState ∧
      t.toQdState = s.toQdState ∧
      t.toMgmtState = s.toMgmtState ∧
      t.nt = s.nt) ∧
  (∀ (s : State) (expect tag : Nat),
    s.live pgSVC = true →
    sessState (s.sessOf (s.rd pgSVC SVC.SESS_IDX_INDEX)) ≠ expect % 4 →
    ∃ t, exec (.sessWrite true expect tag) s = .next t ∧
      t.sess = s.sess ∧
      t.rd pgSVC (SVC.SESS_RES.word 1) = 1 ∧
      bit (t.rd pgSVC COMMON.INT_CAUSE_CAUSE) 4 = true ∧
      t.rd pgSVC SVC.SESS_RES.status = 4 ∧
      t.rd pgSVC SVC.SESS_RES.tag = tag % 256 ∧
      t.rd pgSVC SVC.SESS_RES.valid = 1 ∧
      t.toBandState = s.toBandState ∧
      t.toLineState = s.toLineState ∧
      t.toPipeState = s.toPipeState ∧
      t.toQdState = s.toQdState ∧
      t.nt = s.nt) ∧
  (∀ (s : State) (tag k : Nat),
    s.live pgSVC = true →
    k < 20 →
    ∃ t, exec (.sessRead tag) s = .next t ∧
      t.rd pgSVC SVC.SESS_W_WORD k = sw (s.sessOf (s.rd pgSVC SVC.SESS_IDX_INDEX)) k % 2 ^ 32 ∧
      t.rd pgSVC SVC.SESS_RES.status = 1 ∧
      t.rd pgSVC SVC.SESS_RES.tag = tag % 256 ∧
      t.rd pgSVC SVC.SESS_RES.valid = 1 ∧
      t.toBandState = s.toBandState ∧
      t.toLineState = s.toLineState ∧
      t.toPipeState = s.toPipeState ∧
      t.toQdState = s.toQdState ∧
      t.toMgmtState = s.toMgmtState ∧
      t.nt = s.nt ∧
      t.toHostState = s.toHostState) ∧
  (∀ (s : State) (tag : Nat),
    s.live pgSVC = true →
    ∃ t, exec (.sessDelete tag) s = .next t ∧
      t.sess = tdel s.sess (s.rd pgSVC SVC.SESS_IDX_INDEX) ∧
      t.rd pgSVC SVC.SESS_RES.status = 1 ∧
      t.rd pgSVC SVC.SESS_RES.tag = tag % 256 ∧
      t.rd pgSVC SVC.SESS_RES.valid = 1 ∧
      t.toBandState = s.toBandState ∧
      t.toLineState = s.toLineState ∧
      t.toPipeState = s.toPipeState ∧
      t.toQdState = s.toQdState ∧
      t.toMgmtState = s.toMgmtState ∧
      t.nt = s.nt) ∧
  (∀ (s : State) (tag : Nat),
    s.live pgSVC = true →
    s.rd pgSVC SVC.SESS_IDX_INDEX < 4096 →
    ∃ t, exec (.tplWriteSvc tag) s = .next t ∧
      t.svcTpl = tset s.svcTpl (s.rd pgSVC SVC.SESS_IDX_INDEX) ((List.range 17).map (fun k => andBits (s.rd pgSVC SVC.SESS_W_WORD k) (if k = 16 then 0xFF7F else 0xFFFFFFFF))) ∧
      t.rd pgSVC SVC.SESS_RES.status = 1 ∧
      t.rd pgSVC SVC.SESS_RES.tag = tag % 256 ∧
      t.rd pgSVC SVC.SESS_RES.valid = 1 ∧
      t.toBandState = s.toBandState ∧
      t.toLineState = s.toLineState ∧
      t.toPipeState = s.toPipeState ∧
      t.toQdState = s.toQdState ∧
      t.toMgmtState = s.toMgmtState ∧
      t.nt = s.nt) ∧
  (∀ (s : State) (tag k : Nat),
    s.live pgSVC = true →
    s.rd pgSVC SVC.SESS_IDX_INDEX < 4096 →
    k < 17 →
    ∃ t, exec (.tplReadSvc tag) s = .next t ∧
      t.rd pgSVC SVC.SESS_W_WORD k = sw (tgetD s.svcTpl (s.rd pgSVC SVC.SESS_IDX_INDEX) (List.replicate 17 0)) k % 2 ^ 32 ∧
      t.rd pgSVC SVC.SESS_RES.status = 1 ∧
      t.rd pgSVC SVC.SESS_RES.tag = tag % 256 ∧
      t.rd pgSVC SVC.SESS_RES.valid = 1 ∧
      t.toBandState = s.toBandState ∧
      t.toLineState = s.toLineState ∧
      t.toPipeState = s.toPipeState ∧
      t.toQdState = s.toQdState ∧
      t.toMgmtState = s.toMgmtState ∧
      t.nt = s.nt ∧
      t.toHostState = s.toHostState) ∧
  (∀ (s : State) (tag : Nat),
    s.live pgSVC = true →
    4096 ≤ s.rd pgSVC SVC.SESS_IDX_INDEX →
    ∃ t, exec (.tplWriteSvc tag) s = .next t ∧
      t.svcTpl = s.svcTpl ∧
      t.rd pgSVC (SVC.SESS_RES.word 1) = 2 ∧
      bit (t.rd pgSVC COMMON.INT_CAUSE_CAUSE) 4 = true ∧
      t.rd pgSVC SVC.SESS_RES.status = 4 ∧
      t.rd pgSVC SVC.SESS_RES.tag = tag % 256 ∧
      t.rd pgSVC SVC.SESS_RES.valid = 1 ∧
      t.toBandState = s.toBandState ∧
      t.toLineState = s.toLineState ∧
      t.toPipeState = s.toPipeState ∧
      t.toQdState = s.toQdState ∧
      t.nt = s.nt) ∧
  (∀ (s : State) (tag : Nat),
    s.live pgSVC = true →
    4096 ≤ s.rd pgSVC SVC.SESS_IDX_INDEX →
    ∃ t, exec (.tplReadSvc tag) s = .next t ∧
      t.svcTpl = s.svcTpl ∧
      t.rd pgSVC (SVC.SESS_RES.word 1) = 2 ∧
      bit (t.rd pgSVC COMMON.INT_CAUSE_CAUSE) 4 = true ∧
      t.rd pgSVC SVC.SESS_RES.status = 4 ∧
      t.rd pgSVC SVC.SESS_RES.tag = tag % 256 ∧
      t.rd pgSVC SVC.SESS_RES.valid = 1 ∧
      t.toBandState = s.toBandState ∧
      t.toLineState = s.toLineState ∧
      t.toPipeState = s.toPipeState ∧
      t.toQdState = s.toQdState ∧
      t.nt = s.nt) ∧
  (∀ (s : State) (byHost : Bool),
    s.live pgSVC = true →
    byHost = s.on pgSVC SVC.SVC_CTL_EVT_HOST →
    (byHost = true ∨ s.on pgSPA SPA.IL_STS_SWITCHING = false) →
    ∃ t, exec (.evtPop byHost) s = .next t ∧
      t.bfdEvents = s.bfdEvents.drop 1 ∧
      t.sess = s.sess ∧
      t.toBandState = s.toBandState ∧
      t.toLineState = s.toLineState ∧
      t.toPipeState = s.toPipeState ∧
      t.toQdState = s.toQdState ∧
      t.toMgmtState = s.toMgmtState ∧
      t.nt = s.nt)

/-- The oldest flow update joins the flow of its key in one of its two candidate entries, or takes a free one, or is dropped and
counted with cause 2. A due sweep keeps the flows for which no reason stands, restarts those of the active timeout and frees the
others; one exported flow goes out in one message to the export queue, with the sequence number advanced. The template set goes
out when it is due. The responder answers an ARP request and a Neighbor Solicitation for an address it holds, towards the ingress
port, and hands what it does not answer to the service processor. RSP WRITE, READ and INVALIDATE act on the entry named, and end
DONE. Rules followed: R612, R645, R646, R647, R648, R649, R654, R655. -/
def Obligations.FlowExportAndResponder : Prop :=
  (∀ (s : State) (u : Flow) (rest : List Flow),
    s.live pgSVC = true →
    s.flowIn = u :: rest →
    ∃ t, exec (.ipfixUpdate) s = .next t ∧
      t.flowIn = rest ∧
      (let c := fun k => Config.flowSlot u.key k % 4194304
      let has := fun k => (tget s.flows (c k)).any (fun x => decide (x.key = u.key))
      let put := fun k => tset s.flows (c k) (match tget s.flows (c k) with | some x => x.merge u | none => u)
      t.flows = (if has 0 then put 0 else if has 1 then put 1 else if (tget s.flows (c 0)).isNone then put 0 else if (tget s.flows (c 1)).isNone then put 1 else s.flows)) ∧
      t.toBandState = s.toBandState ∧
      t.toLineState = s.toLineState ∧
      t.toPipeState = s.toPipeState ∧
      t.toMgmtState = s.toMgmtState ∧
      t.nt = s.nt) ∧
  (∀ (s : State),
    s.enabled pgSVC = true →
    s.sweepIpfixDue = true →
    ∃ t, exec (.ipfixSweep) s = .next t ∧
      t.flows = s.flows.filterMap (fun e => match s.flowReason e.2 with | none => some e | some 2 => some (e.1, { e.2 with octets := 0, packets := 0, tcp := 0, exported := s.ntMs }) | some _ => none) ∧
      t.ipfixSwept = some s.ticks ∧
      t.toBandState = s.toBandState ∧
      t.toLineState = s.toLineState ∧
      t.toMgmtState = s.toMgmtState ∧
      t.nt = s.nt) ∧
  (∀ (s : State) (e : Nat × Flow) (r : Nat),
    s.enabled pgSVC = true →
    s.sweepIpfixDue = true →
    s.flows = [e] →
    s.flowReason e.2 = some r →
    ∃ t, exec (.ipfixSweep) s = .next t ∧
      (∃ g, t.toQd = s.toQd ++ [g] ∧ g.queue = s.rd pgSVC SVC.EXP_Q_QID ∧ g.outPort = s.rd pgSVC SVC.EXP_Q_DPORT) ∧
      t.ipfixSeq = (s.ipfixSeq + 1) % 2 ^ 32 ∧
      t.rd pgSVC SVC.SVC_CNT 7 = (s.rd pgSVC SVC.SVC_CNT 7 + 1) % 2 ^ 64 ∧
      t.toBandState = s.toBandState ∧
      t.toLineState = s.toLineState ∧
      t.toMgmtState = s.toMgmtState ∧
      t.nt = s.nt) ∧
  (∀ (s : State),
    s.enabled pgSVC = true →
    s.on pgSVC SVC.SVC_CTL_IPFIX_EN = true →
    s.ipfixTplDue = true →
    ∃ t, exec (.ipfixTemplateSend) s = .next t ∧
      t.ipfixTplAt = some s.ticks ∧
      (∃ g, t.toQd = s.toQd ++ [g] ∧ g.queue = s.rd pgSVC SVC.EXP_Q_QID ∧ g.outPort = s.rd pgSVC SVC.EXP_Q_DPORT) ∧
      t.ipfixSeq = s.ipfixSeq % 2 ^ 32 ∧
      t.flows = s.flows ∧
      t.toBandState = s.toBandState ∧
      t.toLineState = s.toLineState ∧
      t.toQdState = s.toQdState ∧
      t.toMgmtState = s.toMgmtState ∧
      t.nt = s.nt) ∧
  (∀ (s : State) (f : Frame) (rest : List Frame) (o : Nat) (a : List Byte) (e : List Nat),
    s.live pgSVC = true →
    s.rspIn = f :: rest →
    f.l3 = some o →
    a = f.bytes.drop o →
    28 ≤ a.length →
    beAt a 0 2 = 1 →
    beAt a 2 2 = 0x0800 →
    beAt a 4 2 = 0x0604 →
    beAt a 6 2 = 1 →
    s.rspFind (bits (f.act.getD 2 0) 0 12) false [beAt a 24 4] = some e →
    ∃ t, exec (.responderFrame) s = .next t ∧
      t.rspIn = rest ∧
      t.toQd = s.toQd ++ [{ bytes := patch (patch (f.bytes.take o) 0 (slice f.bytes 6 6)) 6 (rspMac e) ++ arpReply a (rspMac e), fcsGood := true, nhType := 8, queue := s.rd pgSVC SVC.RSP_Q_QID f.port, outPort := 0, dest := 0, rewrite := noRewrite, cls := f.cls, modified := true, fence := s.fences }] ∧
      t.rd pgSVC SVC.SVC_CNT 9 = (s.rd pgSVC SVC.SVC_CNT 9 + 1) % 2 ^ 64 ∧
      t.toBandState = s.toBandState ∧
      t.toLineState = s.toLineState ∧
      t.toQdState = s.toQdState ∧
      t.toMgmtState = s.toMgmtState ∧
      t.nt = s.nt) ∧
  (∀ (s : State) (f : Frame) (rest : List Frame) (o : Nat) (a : List Byte) (e : List Nat),
    s.live pgSVC = true →
    s.rspIn = f :: rest →
    f.l3 = some o →
    a = f.bytes.drop o →
    64 ≤ a.length →
    beAt a 0 1 / 16 = 6 →
    beAt a 6 1 = 58 →
    beAt a 7 1 = 255 →
    beAt a 40 2 = 135 * 256 →
    beAt a 8 16 ≠ 0 →
    s.rspFind (bits (f.act.getD 2 0) 0 12) true (bytesToBeWords (slice a 48 16)) = some e →
    ∃ t, exec (.responderFrame) s = .next t ∧
      t.rspIn = rest ∧
      (∃ w, w < 2 ^ 28 ∧ t.toQd = s.toQd ++ [{ bytes := patch (patch (f.bytes.take o) 0 (slice f.bytes 6 6)) 6 (rspMac e) ++ naReply a (rspMac e) (bit (sw e 4) 14) w, fcsGood := true, nhType := 8, queue := s.rd pgSVC SVC.RSP_Q_QID f.port, outPort := 0, dest := 0, rewrite := noRewrite, cls := f.cls, modified := true, fence := s.fences }]) ∧
      t.rd pgSVC SVC.SVC_CNT 10 = (s.rd pgSVC SVC.SVC_CNT 10 + 1) % 2 ^ 64 ∧
      t.toBandState = s.toBandState ∧
      t.toLineState = s.toLineState ∧
      t.toQdState = s.toQdState ∧
      t.toMgmtState = s.toMgmtState ∧
      t.nt = s.nt) ∧
  (∀ (s : State) (f : Frame) (rest : List Frame) (o : Nat) (a : List Byte),
    s.live pgSVC = true →
    s.rspIn = f :: rest →
    f.l3 = some o →
    a = f.bytes.drop o →
    28 ≤ a.length →
    beAt a 0 2 = 1 →
    beAt a 2 2 = 0x0800 →
    beAt a 4 2 = 0x0604 →
    beAt a 6 2 = 1 →
    s.rspFind (bits (f.act.getD 2 0) 0 12) false [beAt a 24 4] = none →
    s.on pgSPA SPA.IL_STS_SWITCHING = false →
    s.on pgSPA SPA.IL_STS_NO_ACTIVE = false →
    ∃ t, exec (.responderFrame) s = .next t ∧
      t.rspIn = rest ∧
      t.toQd = s.toQd ∧
      t.out = .toProcessor f.bytes :: s.out ∧
      t.rd pgSVC SVC.SVC_CNT 2 = (s.rd pgSVC SVC.SVC_CNT 2 + 1) % 2 ^ 64 ∧
      t.toBandState = s.toBandState ∧
      t.toLineState = s.toLineState ∧
      t.toPipeState = s.toPipeState ∧
      t.toQdState = s.toQdState ∧
      t.toMgmtState = s.toMgmtState ∧
      t.nt = s.nt) ∧
  (∀ (s : State) (tag : Nat),
    s.live pgSVC = true →
    ∃ t, exec (.rspWrite tag) s = .next t ∧
      t.rsp = tset s.rsp (s.rd pgSVC SVC.RSP_IDX_INDEX) ((List.range 7).map (fun k => andBits (s.rd pgSVC SVC.RSP_W_WORD k) (if k = 4 then 0x7FFF else if k = 6 then 0xFFFF else 0xFFFFFFFF))) ∧
      t.rd pgSVC SVC.RSP_RES.status = 1 ∧
      t.rd pgSVC SVC.RSP_RES.tag = tag % 256 ∧
      t.rd pgSVC SVC.RSP_RES.valid = 1 ∧
      t.toBandState = s.toBandState ∧
      t.toLineState = s.toLineState ∧
      t.toPipeState = s.toPipeState ∧
      t.toQdState = s.toQdState ∧
      t.toMgmtState = s.toMgmtState ∧
      t.nt = s.nt) ∧
  (∀ (s : State) (tag k : Nat),
    s.live pgSVC = true →
    k < 7 →
    ∃ t, exec (.rspRead tag) s = .next t ∧
      t.rd pgSVC (SVC.RSP_RES.word (k + 1)) = (tgetD s.rsp (s.rd pgSVC SVC.RSP_IDX_INDEX) (List.replicate 7 0)).getD k 0 % 2 ^ 32 ∧
      t.rd pgSVC SVC.RSP_RES.status = 1 ∧
      t.rd pgSVC SVC.RSP_RES.tag = tag % 256 ∧
      t.rd pgSVC SVC.RSP_RES.valid = 1 ∧
      t.toBandState = s.toBandState ∧
      t.toLineState = s.toLineState ∧
      t.toPipeState = s.toPipeState ∧
      t.toQdState = s.toQdState ∧
      t.toMgmtState = s.toMgmtState ∧
      t.nt = s.nt ∧
      t.toHostState = s.toHostState) ∧
  (∀ (s : State) (tag : Nat),
    s.live pgSVC = true →
    ∃ t, exec (.rspInvalidate tag) s = .next t ∧
      t.rsp = tset s.rsp (s.rd pgSVC SVC.RSP_IDX_INDEX) (lset (tgetD s.rsp (s.rd pgSVC SVC.RSP_IDX_INDEX) (List.replicate 7 0)) 4 (clrBit (sw (tgetD s.rsp (s.rd pgSVC SVC.RSP_IDX_INDEX) (List.replicate 7 0)) 4) 13)) ∧
      t.rd pgSVC SVC.RSP_RES.status = 1 ∧
      t.rd pgSVC SVC.RSP_RES.tag = tag % 256 ∧
      t.rd pgSVC SVC.RSP_RES.valid = 1 ∧
      t.toBandState = s.toBandState ∧
      t.toLineState = s.toLineState ∧
      t.toPipeState = s.toPipeState ∧
      t.toQdState = s.toQdState ∧
      t.toMgmtState = s.toMgmtState ∧
      t.nt = s.nt)

/-- SET_NOW loads the staged time at once (nanoseconds outside a second give a free value below it), STEP moves network time by a
signed amount and one out of range is refused with cause 6; SET_AT_PPS and SET_FROM_TOD wait for the edge, CANCEL drops the wait.
A rising VALID takes effect with no entry overdue, a falling one at once. A read of the time or of the capture answers its
nanoseconds and latches the rest for its requester. A PPS_IN edge is captured with IN_COMP taken off, counted, with cause 0, and
makes the set that waits for it. No edge for 1.1 s clears PPS_SEEN with cause 1, and no edge for PPS_LOSS_S invalidates network
time with cause 3. Rules followed: R657, R660, R661, R662, R663, R664, R667, R671, R682, R685. -/
def Obligations.NetworkTimeCommands : Prop :=
  (∀ (s : State) (T : NetTime),
    s.live pgNTM = true →
    s.rd pgNTM NTM.NT_SET_NS_NS < 1000000000 →
    T = NetTime.norm { sec := s.rd pgNTM NTM.NT_SET_SEC_LO_SEC + s.rd pgNTM NTM.NT_SET_SEC_HI_SEC * 2 ^ 32, ns := s.rd pgNTM NTM.NT_SET_NS_NS } →
    (s.ntValid = false ∨ s.taq.all (fun e => decide (T.whole < e.2.target)) = true) →
    ∃ t, exec (.ntSetNow) s = .next t ∧
      t.nt = T ∧
      t.ntPending = 0 ∧
      t.rd pgNTM NTM.NTM_CNT 3 = (s.rd pgNTM NTM.NTM_CNT 3 + 1) % 2 ^ 64 ∧
      bit (t.rd pgNTM COMMON.INT_CAUSE_CAUSE) 5 = true ∧
      t.taq.length = s.taq.length ∧
      t.toBandState = s.toBandState ∧
      t.toPipeState = s.toPipeState ∧
      t.toQdState = s.toQdState) ∧
  (∀ (s : State),
    s.live pgNTM = true →
    1000000000 ≤ s.rd pgNTM NTM.NT_SET_NS_NS →
    s.taq = [] →
    ∃ t, exec (.ntSetNow) s = .next t ∧
      (∃ n, n < 1000000000 ∧ t.nt = NetTime.norm { sec := s.rd pgNTM NTM.NT_SET_SEC_LO_SEC + s.rd pgNTM NTM.NT_SET_SEC_HI_SEC * 2 ^ 32, ns := n }) ∧
      t.ntPending = 0 ∧
      t.rd pgNTM NTM.NTM_CNT 3 = (s.rd pgNTM NTM.NTM_CNT 3 + 1) % 2 ^ 64 ∧
      bit (t.rd pgNTM COMMON.INT_CAUSE_CAUSE) 5 = true ∧
      t.toBandState = s.toBandState ∧
      t.toPipeState = s.toPipeState ∧
      t.toQdState = s.toQdState) ∧
  (∀ (s : State),
    s.live pgNTM = true →
    ∃ t, exec (.ntSetAtPps) s = .next t ∧
      t.ntPending = 2 ∧
      t.rd pgNTM NTM.NTM_STS_SET_PENDING = 1 ∧
      t.toBandState = s.toBandState ∧
      t.toPipeState = s.toPipeState ∧
      t.toQdState = s.toQdState ∧
      t.toLineState = s.toLineState ∧
      t.toHostState = s.toHostState ∧
      t.nt = s.nt) ∧
  (∀ (s : State),
    s.live pgNTM = true →
    ∃ t, exec (.ntSetFromTod) s = .next t ∧
      t.ntPending = 3 ∧
      t.rd pgNTM NTM.NTM_STS_SET_PENDING = 1 ∧
      t.toBandState = s.toBandState ∧
      t.toPipeState = s.toPipeState ∧
      t.toQdState = s.toQdState ∧
      t.toLineState = s.toLineState ∧
      t.toHostState = s.toHostState ∧
      t.nt = s.nt) ∧
  (∀ (s : State),
    s.live pgNTM = true →
    ∃ t, exec (.ntCancel) s = .next t ∧
      t.ntPending = 0 ∧
      t.rd pgNTM NTM.NTM_STS_SET_PENDING = 0 ∧
      t.toBandState = s.toBandState ∧
      t.toPipeState = s.toPipeState ∧
      t.toQdState = s.toQdState ∧
      t.toLineState = s.toLineState ∧
      t.toHostState = s.toHostState ∧
      t.nt = s.nt) ∧
  (∀ (s : State) (T : NetTime),
    s.live pgNTM = true →
    (signedOf 32 (s.rd pgNTM NTM.STEP_NS_NS)) ≤ 999999999 →
    -999999999 ≤ (signedOf 32 (s.rd pgNTM NTM.STEP_NS_NS)) →
    T = (NetTime.ofTotal ((s.nt.total : Int) + (signedOf 32 (s.rd pgNTM NTM.STEP_SEC_SEC) * 1000000000 + (signedOf 32 (s.rd pgNTM NTM.STEP_NS_NS))) * (2 : Int) ^ 48).toNat).norm →
    (s.ntValid = false ∨ s.taq.all (fun e => decide (T.whole < e.2.target)) = true) →
    ∃ t, exec (.ntStep) s = .next t ∧
      t.nt = T ∧
      t.ntPending = 0 ∧
      t.rd pgNTM NTM.NTM_CNT 4 = (s.rd pgNTM NTM.NTM_CNT 4 + 1) % 2 ^ 64 ∧
      bit (t.rd pgNTM COMMON.INT_CAUSE_CAUSE) 5 = true ∧
      t.toBandState = s.toBandState ∧
      t.toPipeState = s.toPipeState ∧
      t.toQdState = s.toQdState) ∧
  (∀ (s : State),
    s.live pgNTM = true →
    (999999999 < (signedOf 32 (s.rd pgNTM NTM.STEP_NS_NS)) ∨ (signedOf 32 (s.rd pgNTM NTM.STEP_NS_NS)) < -999999999) →
    ∃ t, exec (.ntStep) s = .next t ∧
      bit (t.rd pgNTM COMMON.INT_CAUSE_CAUSE) 6 = true ∧
      t.ntPending = s.ntPending ∧
      t.toBandState = s.toBandState ∧
      t.toPipeState = s.toPipeState ∧
      t.toQdState = s.toQdState ∧
      t.toLineState = s.toLineState ∧
      t.nt = s.nt) ∧
  (∀ (s : State) (v : Nat),
    s.live pgNTM = true →
    bit v 0 = true →
    s.ntValid = false →
    s.taq.all (fun e => decide (s.nt.whole < e.2.target)) = true →
    s.nt.ok →
    ∃ t, exec (.ntmValidWrite v) s = .next t ∧
      t.ntValid = true ∧
      t.ntArm = s.ticks ∧
      t.toBandState = s.toBandState ∧
      t.toPipeState = s.toPipeState ∧
      t.toQdState = s.toQdState ∧
      t.toLineState = s.toLineState ∧
      t.nt = s.nt) ∧
  (∀ (s : State) (v : Nat),
    s.live pgNTM = true →
    bit v 0 = false →
    ∃ t, exec (.ntmValidWrite v) s = .next t ∧
      t.ntValid = false ∧
      t.taq = s.taq ∧
      t.toBandState = s.toBandState ∧
      t.toPipeState = s.toPipeState ∧
      t.toQdState = s.toQdState ∧
      t.toLineState = s.toLineState ∧
      t.nt = s.nt) ∧
  (∀ (s : State) (who : Nat) (capture : Bool),
    s.live pgNTM = true →
    ∃ t, exec (.ntNowRead who capture) s = .next t ∧
      t.out = .readData who pgNTM (if capture then 0x150 else 0x108) (if capture then s.ppsCap else s.nt).ns :: s.out ∧
      t.timeHold = tset s.timeHold (timeKey who capture) (if capture then s.ppsCap else s.nt) ∧
      t.toBandState = s.toBandState ∧
      t.toPipeState = s.toPipeState ∧
      t.toQdState = s.toQdState ∧
      t.toLineState = s.toLineState ∧
      t.toHostState = s.toHostState ∧
      t.toMgmtState = s.toMgmtState ∧
      t.nt = s.nt) ∧
  (∀ (s : State),
    s.live pgNTM = true →
    s.ntPending ≠ 2 →
    (s.ntPending ≠ 3 ∨ s.todSec = none) →
    ∃ t, exec (.ppsInEdge) s = .next t ∧
      t.ppsAt = some s.ticks ∧
      t.ppsCap = s.nt.shift (-(((s.rd pgNTM NTM.PPS_CFG_IN_COMP * 2 ^ 48 : Nat)) : Int)) ∧
      t.todSec = none ∧
      t.rd pgNTM NTM.NTM_STS_PPS_SEEN = 1 ∧
      t.rd pgNTM NTM.NTM_CNT 0 = (s.rd pgNTM NTM.NTM_CNT 0 + 1) % 2 ^ 64 ∧
      bit (t.rd pgNTM COMMON.INT_CAUSE_CAUSE) 0 = true ∧
      t.toBandState = s.toBandState ∧
      t.toPipeState = s.toPipeState ∧
      t.toQdState = s.toQdState ∧
      t.toLineState = s.toLineState ∧
      t.nt = s.nt) ∧
  (∀ (s : State) (T : NetTime),
    s.live pgNTM = true →
    s.ntPending = 2 →
    s.rd pgNTM NTM.NT_SET_NS_NS < 1000000000 →
    T = NetTime.norm { sec := s.rd pgNTM NTM.NT_SET_SEC_LO_SEC + s.rd pgNTM NTM.NT_SET_SEC_HI_SEC * 2 ^ 32, ns := s.rd pgNTM NTM.NT_SET_NS_NS } →
    (s.ntValid = false ∨ s.taq.all (fun e => decide (T.whole < e.2.target)) = true) →
    ∃ t, exec (.ppsInEdge) s = .next t ∧
      t.ppsAt = some s.ticks ∧
      t.ppsCap = s.nt.shift (-(((s.rd pgNTM NTM.PPS_CFG_IN_COMP * 2 ^ 48 : Nat)) : Int)) ∧
      t.todSec = none ∧
      t.rd pgNTM NTM.NTM_STS_PPS_SEEN = 1 ∧
      t.rd pgNTM NTM.NTM_CNT 0 = (s.rd pgNTM NTM.NTM_CNT 0 + 1) % 2 ^ 64 ∧
      bit (t.rd pgNTM COMMON.INT_CAUSE_CAUSE) 0 = true ∧
      t.nt = T ∧
      t.ntPending = 0 ∧
      t.toBandState = s.toBandState ∧
      t.toPipeState = s.toPipeState ∧
      t.toQdState = s.toQdState) ∧
  (∀ (s : State) (T : NetTime) (n : Nat),
    s.live pgNTM = true →
    s.ntPending = 3 →
    s.todSec = some n →
    T = NetTime.norm { sec := n } →
    (s.ntValid = false ∨ s.taq.all (fun e => decide (T.whole < e.2.target)) = true) →
    ∃ t, exec (.ppsInEdge) s = .next t ∧
      t.ppsAt = some s.ticks ∧
      t.ppsCap = s.nt.shift (-(((s.rd pgNTM NTM.PPS_CFG_IN_COMP * 2 ^ 48 : Nat)) : Int)) ∧
      t.todSec = none ∧
      t.rd pgNTM NTM.NTM_STS_PPS_SEEN = 1 ∧
      t.rd pgNTM NTM.NTM_CNT 0 = (s.rd pgNTM NTM.NTM_CNT 0 + 1) % 2 ^ 64 ∧
      bit (t.rd pgNTM COMMON.INT_CAUSE_CAUSE) 0 = true ∧
      t.nt = T ∧
      t.ntPending = 0 ∧
      t.toBandState = s.toBandState ∧
      t.toPipeState = s.toPipeState ∧
      t.toQdState = s.toQdState) ∧
  (∀ (s : State) (n : Nat),
    s.live pgNTM = true →
    s.ppsAt = some n →
    s.on pgNTM NTM.NTM_STS_PPS_SEEN = true →
    n + 880000000 ≤ s.ticks →
    ∃ t, exec (.ppsLoss) s = .next t ∧
      t.rd pgNTM NTM.NTM_STS_PPS_SEEN = 0 ∧
      bit (t.rd pgNTM COMMON.INT_CAUSE_CAUSE) 1 = true ∧
      t.ppsAt = s.ppsAt ∧
      t.toBandState = s.toBandState ∧
      t.toPipeState = s.toPipeState ∧
      t.toQdState = s.toQdState ∧
      t.toLineState = s.toLineState ∧
      t.nt = s.nt) ∧
  (∀ (s : State),
    s.live pgNTM = true →
    s.ntValid = true →
    s.on pgNTM NTM.NTM_CTL_PPS_LOSS_INVAL = true →
    s.lossFrom + s.rd pgNTM NTM.PPS_LOSS_PPS_LOSS_S * 800000000 ≤ s.ticks →
    ∃ t, exec (.ppsLossInvalidate) s = .next t ∧
      t.ntValid = false ∧
      bit (t.rd pgNTM COMMON.INT_CAUSE_CAUSE) 3 = true ∧
      t.toBandState = s.toBandState ∧
      t.toPipeState = s.toPipeState ∧
      t.toQdState = s.toQdState ∧
      t.toLineState = s.toLineState ∧
      t.nt = s.nt)

/-- PPS_OUT pulses at OUT_COMP before a second, once; 200 ms later the ToD message for the next second goes out. A good ToD
message is stored and gives its seconds to the next edge, a bad one is counted with cause 2, and 1.1 s without one clears TOD_OK.
A SyncE output whose lane is bad is squelched with cause 4 and resumes 10 ms after it is good. A POST of a legal action takes the
lowest free entry; reserved types end ERROR 2, a full queue FULL, a past target with REJECT_LATE ERROR 1. CANCEL removes a pending
entry, marks one that has fired as late, and ends ERROR 4 on any other; READ shows the entry. The earliest due entry leaves the
queue when it fires, counted with cause 0, and one for a block off or in reset is counted as lost with cause 1. Rules followed:
R668, R669, R670, R671, R672, R673, R674, R676, R677, R678, R681, R683. -/
def Obligations.TimeOutputsAndTimedActions : Prop :=
  (∀ (s : State) (x : Nat),
    s.live pgNTM = true →
    s.on pgNTM NTM.NTM_CTL_PPS_OUT_EN = true →
    x = (s.nt.ns + s.rd pgNTM NTM.PPS_CFG_OUT_COMP) % 1000000000 →
    (x ≤ 2 ∨ 999999998 ≤ x) →
    s.ppsOutLast.any (fun n => decide (s.ticks < n + ticksMs 500)) = false →
    ∃ t, exec (.ppsOutPulse) s = .next t ∧
      t.out = .ppsOut (if s.rd pgNTM NTM.PPS_WIDTH_US = 0 then 1 else s.rd pgNTM NTM.PPS_WIDTH_US) :: s.out ∧
      t.ppsOutAt = some s.ticks ∧
      t.ppsOutLast = some s.ticks ∧
      t.toBandState = s.toBandState ∧
      t.toLineState = s.toLineState ∧
      t.toPipeState = s.toPipeState ∧
      t.toQdState = s.toQdState ∧
      t.toHostState = s.toHostState ∧
      t.nt = s.nt) ∧
  (∀ (s : State) (n : Nat),
    s.live pgNTM = true →
    s.ppsOutAt = some n →
    s.on pgNTM NTM.NTM_CTL_TOD_TX_EN = true →
    n + 160000000 ≤ s.ticks →
    ∃ t, exec (.todTxMessage) s = .next t ∧
      (∃ fl, fl < 8 ∧ t.out = .tod (todBytes (s.nt.sec + 1) (b2n s.ntValid + 2 * fl) (s.rd pgNTM NTM.TOD_CFG_UTC_OFFSET) (s.rd pgNTM NTM.TOD_CFG_CLOCK_CLASS)) :: s.out) ∧
      t.ppsOutAt = none ∧
      t.toBandState = s.toBandState ∧
      t.toLineState = s.toLineState ∧
      t.toPipeState = s.toPipeState ∧
      t.toQdState = s.toQdState ∧
      t.toHostState = s.toHostState ∧
      t.nt = s.nt) ∧
  (∀ (s : State) (bytes : List Byte),
    s.live pgNTM = true →
    s.on pgNTM NTM.NTM_CTL_TOD_RX_EN = true →
    s.todGood bytes = true →
    ∃ t, exec (.todRxMessage bytes) s = .next t ∧
      t.todSec = some (beAt bytes 2 6) ∧
      t.todAt = some s.ticks ∧
      t.rd pgNTM NTM.NTM_STS_TOD_OK = 1 ∧
      ((∀ k, k < 4 → t.rd pgNTM NTM.TOD_RX_BYTES k = beAt bytes (4 * k) 4 % 2 ^ 32)) ∧
      t.rd pgNTM NTM.NTM_CNT 1 = (s.rd pgNTM NTM.NTM_CNT 1 + 1) % 2 ^ 64 ∧
      t.toBandState = s.toBandState ∧
      t.toLineState = s.toLineState ∧
      t.toPipeState = s.toPipeState ∧
      t.toQdState = s.toQdState ∧
      t.toHostState = s.toHostState ∧
      t.nt = s.nt) ∧
  (∀ (s : State) (bytes : List Byte),
    s.live pgNTM = true →
    s.on pgNTM NTM.NTM_CTL_TOD_RX_EN = true →
    s.todGood bytes = false →
    ∃ t, exec (.todRxMessage bytes) s = .next t ∧
      t.todSec = s.todSec ∧
      t.todAt = s.todAt ∧
      t.rd pgNTM NTM.NTM_CNT 2 = (s.rd pgNTM NTM.NTM_CNT 2 + 1) % 2 ^ 64 ∧
      bit (t.rd pgNTM COMMON.INT_CAUSE_CAUSE) 2 = true ∧
      t.toBandState = s.toBandState ∧
      t.toLineState = s.toLineState ∧
      t.toPipeState = s.toPipeState ∧
      t.toQdState = s.toQdState ∧
      t.nt = s.nt) ∧
  (∀ (s : State) (n : Nat),
    s.todAt = some n →
    n + 880000000 ≤ s.ticks →
    ∃ t, exec (.todOkTimeout) s = .next t ∧
      t.rd pgNTM NTM.NTM_STS_TOD_OK = 0 ∧
      t.toBandState = s.toBandState ∧
      t.toLineState = s.toLineState ∧
      t.toPipeState = s.toPipeState ∧
      t.toQdState = s.toQdState ∧
      t.toHostState = s.toHostState ∧
      t.nt = s.nt ∧
      t.toMgmtState = s.toMgmtState) ∧
  (∀ (s : State) (k : Nat),
    s.live pgNTM = true →
    k < 4 →
    s.on pgNTM NTM.SYNCE_CTL_EN k = true →
    s.on pgNTM NTM.SYNCE_CTL_SQ_EN k = true →
    s.on pgNTM NTM.SYNCE_CTL_SQUELCHED k = false →
    s.synceGood k = false →
    ∃ t, exec (.synceSquelch k) s = .next t ∧
      t.rd pgNTM NTM.SYNCE_CTL_SQUELCHED k = 1 ∧
      t.synceAt = tdel s.synceAt k ∧
      Out.synce k (s.rd pgNTM NTM.SYNCE_CTL_LANE k) (s.rd pgNTM NTM.SYNCE_CTL_DIV_LOG2 k) false ∈ t.out ∧
      bit (t.rd pgNTM COMMON.INT_CAUSE_CAUSE) 4 = true ∧
      t.toBandState = s.toBandState ∧
      t.toLineState = s.toLineState ∧
      t.toPipeState = s.toPipeState ∧
      t.toQdState = s.toQdState ∧
      t.nt = s.nt) ∧
  (∀ (s : State) (k : Nat),
    k < 4 →
    s.on pgNTM NTM.SYNCE_CTL_SQUELCHED k = true →
    s.synceGood k = true →
    (tget s.synceAt k).any (fun n => decide (n + ticksMs 10 ≤ s.ticks)) = true →
    ∃ t, exec (.synceResume k) s = .next t ∧
      t.rd pgNTM NTM.SYNCE_CTL_SQUELCHED k = 0 ∧
      t.out = .synce k (s.rd pgNTM NTM.SYNCE_CTL_LANE k) (s.rd pgNTM NTM.SYNCE_CTL_DIV_LOG2 k) (s.on pgNTM NTM.SYNCE_CTL_EN k) :: s.out ∧
      t.toBandState = s.toBandState ∧
      t.toLineState = s.toLineState ∧
      t.toPipeState = s.toPipeState ∧
      t.toQdState = s.toQdState ∧
      t.toHostState = s.toHostState ∧
      t.nt = s.nt ∧
      t.toMgmtState = s.toMgmtState) ∧
  (∀ (s : State) (tag i : Nat) (e : TaqEntry),
    s.live pgTAQ = true →
    e = { raw := s.taqStaged, order := s.taqPosts } →
    (¬ (e.type = 7 ∧ taqBadAddr (e.word 4) = true)) →
    1 ≤ e.type →
    e.type ≤ 8 →
    (List.range 64).find? (fun k => (tget s.taq k).isNone) = some i →
    (¬ (s.ntValid = true ∧ e.target ≤ s.nt.whole ∧ bit (e.word 3) 4 = true)) →
    ∃ t, exec (.taqPost tag) s = .next t ∧
      t.taq = tset s.taq i { e with late := s.ntValid && decide (e.target ≤ s.nt.whole) } ∧
      t.taqPosts = s.taqPosts + 1 ∧
      t.rd pgTAQ (TAQ.TAQ_RES.word 1) = i ∧
      t.rd pgTAQ TAQ.TAQ_CNT 0 = (s.rd pgTAQ TAQ.TAQ_CNT 0 + 1) % 2 ^ 64 ∧
      t.rd pgTAQ TAQ.TAQ_RES.status = 1 ∧
      t.rd pgTAQ TAQ.TAQ_RES.tag = tag % 256 ∧
      t.rd pgTAQ TAQ.TAQ_RES.valid = 1 ∧
      t.toBandState = s.toBandState ∧
      t.toLineState = s.toLineState ∧
      t.toPipeState = s.toPipeState ∧
      t.toQdState = s.toQdState ∧
      t.toHostState = s.toHostState ∧
      t.nt = s.nt) ∧
  (∀ (s : State) (tag : Nat) (e : TaqEntry),
    s.live pgTAQ = true →
    e = { raw := s.taqStaged, order := s.taqPosts } →
    (e.type = 0 ∨ 8 < e.type) →
    ∃ t, exec (.taqPost tag) s = .next t ∧
      t.taq = s.taq ∧
      t.taqPosts = s.taqPosts ∧
      t.rd pgTAQ (TAQ.TAQ_RES.word 1) = 2 ∧
      t.rd pgTAQ TAQ.TAQ_CNT 5 = (s.rd pgTAQ TAQ.TAQ_CNT 5 + 1) % 2 ^ 64 ∧
      bit (t.rd pgTAQ COMMON.INT_CAUSE_CAUSE) 2 = true ∧
      t.rd pgTAQ TAQ.TAQ_RES.status = 4 ∧
      t.rd pgTAQ TAQ.TAQ_RES.tag = tag % 256 ∧
      t.rd pgTAQ TAQ.TAQ_RES.valid = 1 ∧
      t.toBandState = s.toBandState ∧
      t.toLineState = s.toLineState ∧
      t.toPipeState = s.toPipeState ∧
      t.toQdState = s.toQdState ∧
      t.nt = s.nt) ∧
  (∀ (s : State) (tag : Nat) (e : TaqEntry),
    s.live pgTAQ = true →
    e = { raw := s.taqStaged, order := s.taqPosts } →
    e.type = 7 →
    taqBadAddr (e.word 4) = true →
    ∃ t, exec (.taqPost tag) s = .next t ∧
      t.taq = s.taq ∧
      t.taqPosts = s.taqPosts ∧
      t.rd pgTAQ (TAQ.TAQ_RES.word 1) = 3 ∧
      t.rd pgTAQ TAQ.TAQ_CNT 5 = (s.rd pgTAQ TAQ.TAQ_CNT 5 + 1) % 2 ^ 64 ∧
      bit (t.rd pgTAQ COMMON.INT_CAUSE_CAUSE) 2 = true ∧
      t.rd pgTAQ TAQ.TAQ_RES.status = 4 ∧
      t.rd pgTAQ TAQ.TAQ_RES.tag = tag % 256 ∧
      t.rd pgTAQ TAQ.TAQ_RES.valid = 1 ∧
      t.toBandState = s.toBandState ∧
      t.toLineState = s.toLineState ∧
      t.toPipeState = s.toPipeState ∧
      t.toQdState = s.toQdState ∧
      t.nt = s.nt) ∧
  (∀ (s : State) (tag i : Nat) (e : TaqEntry),
    s.live pgTAQ = true →
    e = { raw := s.taqStaged, order := s.taqPosts } →
    (¬ (e.type = 7 ∧ taqBadAddr (e.word 4) = true)) →
    1 ≤ e.type →
    e.type ≤ 8 →
    (List.range 64).find? (fun k => (tget s.taq k).isNone) = some i →
    s.ntValid = true →
    e.target ≤ s.nt.whole →
    bit (e.word 3) 4 = true →
    ∃ t, exec (.taqPost tag) s = .next t ∧
      t.taq = s.taq ∧
      t.taqPosts = s.taqPosts ∧
      t.rd pgTAQ (TAQ.TAQ_RES.word 1) = 1 ∧
      t.rd pgTAQ TAQ.TAQ_CNT 5 = (s.rd pgTAQ TAQ.TAQ_CNT 5 + 1) % 2 ^ 64 ∧
      bit (t.rd pgTAQ COMMON.INT_CAUSE_CAUSE) 2 = true ∧
      t.rd pgTAQ TAQ.TAQ_RES.status = 4 ∧
      t.rd pgTAQ TAQ.TAQ_RES.tag = tag % 256 ∧
      t.rd pgTAQ TAQ.TAQ_RES.valid = 1 ∧
      t.toBandState = s.toBandState ∧
      t.toLineState = s.toLineState ∧
      t.toPipeState = s.toPipeState ∧
      t.toQdState = s.toQdState ∧
      t.nt = s.nt) ∧
  (∀ (s : State) (tag : Nat) (e : TaqEntry),
    s.live pgTAQ = true →
    e = { raw := s.taqStaged, order := s.taqPosts } →
    (¬ (e.type = 7 ∧ taqBadAddr (e.word 4) = true)) →
    1 ≤ e.type →
    e.type ≤ 8 →
    (List.range 64).find? (fun k => (tget s.taq k).isNone) = none →
    ∃ t, exec (.taqPost tag) s = .next t ∧
      t.taq = s.taq ∧
      t.rd pgTAQ TAQ.TAQ_CNT 4 = (s.rd pgTAQ TAQ.TAQ_CNT 4 + 1) % 2 ^ 64 ∧
      bit (t.rd pgTAQ COMMON.INT_CAUSE_CAUSE) 2 = true ∧
      t.rd pgTAQ TAQ.TAQ_RES.status = 3 ∧
      t.rd pgTAQ TAQ.TAQ_RES.tag = tag % 256 ∧
      t.rd pgTAQ TAQ.TAQ_RES.valid = 1 ∧
      t.toBandState = s.toBandState ∧
      t.toLineState = s.toLineState ∧
      t.toPipeState = s.toPipeState ∧
      t.toQdState = s.toQdState ∧
      t.nt = s.nt) ∧
  (∀ (s : State) (index tag : Nat) (e : TaqEntry),
    s.live pgTAQ = true →
    tget s.taq (index % 64) = some e →
    ∃ t, exec (.taqCancel index tag) s = .next t ∧
      t.taq = tdel s.taq (index % 64) ∧
      t.rd pgTAQ TAQ.TAQ_CNT 3 = (s.rd pgTAQ TAQ.TAQ_CNT 3 + 1) % 2 ^ 64 ∧
      t.rd pgTAQ TAQ.TAQ_RES.status = 1 ∧
      t.rd pgTAQ TAQ.TAQ_RES.tag = tag % 256 ∧
      t.rd pgTAQ TAQ.TAQ_RES.valid = 1 ∧
      t.toBandState = s.toBandState ∧
      t.toLineState = s.toLineState ∧
      t.toPipeState = s.toPipeState ∧
      t.toQdState = s.toQdState ∧
      t.toHostState = s.toHostState ∧
      t.nt = s.nt) ∧
  (∀ (s : State) (index tag : Nat),
    s.live pgTAQ = true →
    tget s.taq (index % 64) = none →
    s.taqFired.contains (index % 64) = true →
    ∃ t, exec (.taqCancel index tag) s = .next t ∧
      t.taq = s.taq ∧
      t.rd pgTAQ TAQ.TAQ_RES.late = 1 ∧
      t.rd pgTAQ TAQ.TAQ_RES.status = 1 ∧
      t.rd pgTAQ TAQ.TAQ_RES.tag = tag % 256 ∧
      t.rd pgTAQ TAQ.TAQ_RES.valid = 1 ∧
      t.toBandState = s.toBandState ∧
      t.toLineState = s.toLineState ∧
      t.toPipeState = s.toPipeState ∧
      t.toQdState = s.toQdState ∧
      t.toHostState = s.toHostState ∧
      t.nt = s.nt ∧
      t.toMgmtState = s.toMgmtState) ∧
  (∀ (s : State) (index tag : Nat),
    s.live pgTAQ = true →
    tget s.taq (index % 64) = none →
    s.taqFired.contains (index % 64) = false →
    ∃ t, exec (.taqCancel index tag) s = .next t ∧
      t.taq = s.taq ∧
      t.rd pgTAQ (TAQ.TAQ_RES.word 1) = 4 ∧
      t.rd pgTAQ TAQ.TAQ_RES.status = 4 ∧
      t.rd pgTAQ TAQ.TAQ_RES.tag = tag % 256 ∧
      t.rd pgTAQ TAQ.TAQ_RES.valid = 1 ∧
      t.toBandState = s.toBandState ∧
      t.toLineState = s.toLineState ∧
      t.toPipeState = s.toPipeState ∧
      t.toQdState = s.toQdState ∧
      t.toHostState = s.toHostState ∧
      t.nt = s.nt ∧
      t.toMgmtState = s.toMgmtState) ∧
  (∀ (s : State) (index tag k : Nat) (e : TaqEntry),
    s.live pgTAQ = true →
    tget s.taq (index % 64) = some e →
    k < 6 →
    ∃ t, exec (.taqRead index tag) s = .next t ∧
      t.rd pgTAQ (TAQ.TAQ_RES.word (k + 1)) = e.raw.getD k 0 % 2 ^ 32 ∧
      t.rd pgTAQ TAQ.TAQ_RES.status = 1 ∧
      t.rd pgTAQ TAQ.TAQ_RES.tag = tag % 256 ∧
      t.rd pgTAQ TAQ.TAQ_RES.valid = 1 ∧
      t.toBandState = s.toBandState ∧
      t.toLineState = s.toLineState ∧
      t.toPipeState = s.toPipeState ∧
      t.toQdState = s.toQdState ∧
      t.toHostState = s.toHostState ∧
      t.nt = s.nt ∧
      t.toMgmtState = s.toMgmtState) ∧
  (∀ (s : State) (index tag : Nat),
    s.live pgTAQ = true →
    tget s.taq (index % 64) = none →
    ∃ t, exec (.taqRead index tag) s = .next t ∧
      t.rd pgTAQ (TAQ.TAQ_RES.word 1) = 4 ∧
      t.rd pgTAQ TAQ.TAQ_RES.status = 4 ∧
      t.rd pgTAQ TAQ.TAQ_RES.tag = tag % 256 ∧
      t.rd pgTAQ TAQ.TAQ_RES.valid = 1 ∧
      t.toBandState = s.toBandState ∧
      t.toLineState = s.toLineState ∧
      t.toPipeState = s.toPipeState ∧
      t.toQdState = s.toQdState ∧
      t.toHostState = s.toHostState ∧
      t.nt = s.nt ∧
      t.toMgmtState = s.toMgmtState) ∧
  (∀ (s : State) (i : Nat) (e : TaqEntry),
    s.ntValid = true →
    s.live pgTAQ = true →
    e.target ≤ s.nt.whole →
    earliest s.taq = some (i, e) →
    ∃ t, exec (.taqFire) s = .next t ∧
      t = (s.fireEntry i e).fireDue 63) ∧
  (∀ (s : State) (i : Nat) (e : TaqEntry),
    s.ntValid = true →
    s.live pgTAQ = true →
    e.target ≤ s.nt.whole →
    s.taq = [(i, e)] →
    e.type = 1 →
    s.on pgCRWN CRWN.STROBE_CTL_TAQ_EN = false →
    ∃ t, exec (.taqFire) s = .next t ∧
      t.taq = [] ∧
      t.taqFired = i :: s.taqFired.filter (fun k => k ≠ i) ∧
      t.rd pgTAQ TAQ.TAQ_CNT 1 = (s.rd pgTAQ TAQ.TAQ_CNT 1 + 1) % 2 ^ 64 ∧
      t.rd pgTAQ TAQ.TAQ_CNT 6 = (s.rd pgTAQ TAQ.TAQ_CNT 6 + 1) % 2 ^ 64 ∧
      bit (t.rd pgTAQ COMMON.INT_CAUSE_CAUSE) 0 = true ∧
      t.toBandState = s.toBandState ∧
      t.toLineState = s.toLineState ∧
      t.toPipeState = s.toPipeState ∧
      t.toQdState = s.toQdState ∧
      t.nt = s.nt) ∧
  (∀ (s : State) (i : Nat) (e : TaqEntry),
    s.ntValid = true →
    s.live pgTAQ = true →
    e.target ≤ s.nt.whole →
    s.taq = [(i, e)] →
    e.type = 4 →
    s.takesFiring pgLKP = false →
    ∃ t, exec (.taqFire) s = .next t ∧
      t.taq = [] ∧
      t.rd pgTAQ TAQ.TAQ_CNT 1 = (s.rd pgTAQ TAQ.TAQ_CNT 1 + 1) % 2 ^ 64 ∧
      t.rd pgTAQ TAQ.TAQ_CNT 7 = (s.rd pgTAQ TAQ.TAQ_CNT 7 + 1) % 2 ^ 64 ∧
      bit (t.rd pgTAQ COMMON.INT_CAUSE_CAUSE) 0 = true ∧
      bit (t.rd pgTAQ COMMON.INT_CAUSE_CAUSE) 1 = true ∧
      t.toBandState = s.toBandState ∧
      t.toLineState = s.toLineState ∧
      t.toPipeState = s.toPipeState ∧
      t.toQdState = s.toQdState ∧
      t.nt = s.nt) ∧
  (∀ (s : State),
    s.taq.all (fun e => decide (s.nt.whole < e.2.target)) = true →
    ∃ t, exec (.taqFire) s = .next t ∧
      t = s)

/-- A booted processor that asks becomes ACTIVE where no other is and else SYNC; a heartbeat of the active one restarts the 10 ms,
another's is only counted. A missed heartbeat holds the active processor and starts the gap: with a healthy standby the grant
passes to it, else nothing is active. SWITCHOVER does the same with cause 2, and is refused during a gap (1) or without a healthy
standby (2). RESTART_STANDBY holds the processors in SYNC or STANDBY, or ends ERROR 3. A held processor goes to BOOT after 1 ms.
TAKEOVER_DONE of the active processor ends the gap, records it and takes up the firmware work that waited; a takeover time that
runs out holds the processor, with cause code 3. Rules followed: R34, R715, R716, R717, R718, R719, R720, R721, R722, R723, R730.
-/
def Obligations.ServiceProcessorRoles : Prop :=
  (∀ (s : State) (sp : Nat),
    sp < 2 →
    s.role sp = spBoot →
    (s.sp sp).booted = true →
    s.active = none →
    ∃ t, exec (.spGrantRequest sp) s = .next t ∧
      t.role sp = spActive ∧
      t.hbAt = s.ticks ∧
      t.firstGrant = false ∧
      t.noActiveAt = none ∧
      t.rd pgSPA SPA.IL_STS_NO_ACTIVE = 0 ∧
      t.takeoverBy = (if s.firstGrant then some (s.ticks + ticksMs 10000) else if s.on pgSPA SPA.IL_STS_SWITCHING then some (s.ticks + ticksMs 10) else none) ∧
      t.toBandState = s.toBandState ∧
      t.toPipeState = s.toPipeState ∧
      t.toQdState = s.toQdState ∧
      t.nt = s.nt ∧
      t.toLineState = s.toLineState ∧
      t.toHostState = s.toHostState) ∧
  (∀ (s : State) (sp k : Nat),
    sp < 2 →
    s.role sp = spBoot →
    (s.sp sp).booted = true →
    s.active = some k →
    ∃ t, exec (.spGrantRequest sp) s = .next t ∧
      t.role sp = spSync ∧
      t.out = s.out ∧
      t.toBandState = s.toBandState ∧
      t.toPipeState = s.toPipeState ∧
      t.toQdState = s.toQdState ∧
      t.nt = s.nt ∧
      t.toLineState = s.toLineState ∧
      t.toHostState = s.toHostState ∧
      t.toMgmtState = s.toMgmtState) ∧
  (∀ (s : State) (sp : Nat),
    sp < 2 →
    s.live (spPage sp) = true →
    s.role sp = spActive →
    ∃ t, exec (.spHeartbeat sp) s = .next t ∧
      t.hbAt = s.ticks ∧
      t.hbNs = s.nt.ns ∧
      t.hbSeen = true ∧
      t.rd (spPage sp) SPA.SP_CNT 0 = (s.rd (spPage sp) SPA.SP_CNT 0 + 1) % 2 ^ 64 ∧
      t.toBandState = s.toBandState ∧
      t.toPipeState = s.toPipeState ∧
      t.toQdState = s.toQdState ∧
      t.nt = s.nt ∧
      t.toLineState = s.toLineState ∧
      t.toHostState = s.toHostState) ∧
  (∀ (s : State) (sp : Nat),
    sp < 2 →
    s.live (spPage sp) = true →
    s.role sp ≠ spActive →
    ∃ t, exec (.spHeartbeat sp) s = .next t ∧
      t.rd (spPage sp) SPA.SP_CNT 5 = (s.rd (spPage sp) SPA.SP_CNT 5 + 1) % 2 ^ 64 ∧
      t.toBandState = s.toBandState ∧
      t.toPipeState = s.toPipeState ∧
      t.toQdState = s.toQdState ∧
      t.nt = s.nt ∧
      t.toLineState = s.toLineState ∧
      t.toHostState = s.toHostState ∧
      t.toMgmtState = s.toMgmtState) ∧
  (∀ (s : State) (k : Nat),
    s.live pgSPA = true →
    s.active = some k →
    s.hbAt + ticksMs 10 ≤ s.ticks →
    s.spHealthy (spOther k) = true →
    ∃ t, exec (.spHeartbeatTimeout) s = .next t ∧
      t.role k = spHeld ∧
      t.role (spOther k) = spActive ∧
      t.rd pgSPA SPA.SW_LAST_CAUSE = 1 ∧
      bit (t.rd pgSPA COMMON.INT_CAUSE_CAUSE) 0 = true ∧
      t.rd pgSPA SPA.IL_STS_SWITCHING = 1 ∧
      t.rd pgSPA SPA.IL_STS_OUT_HOLD = 1 ∧
      t.toBandState = s.toBandState ∧
      t.toPipeState = s.toPipeState ∧
      t.toQdState = s.toQdState ∧
      t.nt = s.nt) ∧
  (∀ (s : State) (k : Nat),
    s.live pgSPA = true →
    s.active = some k →
    s.hbAt + ticksMs 10 ≤ s.ticks →
    s.spHealthy (spOther k) = false →
    ∃ t, exec (.spHeartbeatTimeout) s = .next t ∧
      t.role k = spHeld ∧
      t.rd pgSPA SPA.SW_LAST_CAUSE = 4 ∧
      t.noActiveAt = some s.ticks ∧
      t.rd pgSPA SPA.IL_STS_NO_ACTIVE = 1 ∧
      bit (t.rd pgSPA COMMON.INT_CAUSE_CAUSE) 0 = true ∧
      bit (t.rd pgSPA COMMON.INT_CAUSE_CAUSE) 1 = true ∧
      t.rd pgSPA SPA.IL_STS_SWITCHING = 1 ∧
      t.rd pgSPA SPA.IL_STS_OUT_HOLD = 1 ∧
      t.toBandState = s.toBandState ∧
      t.toPipeState = s.toPipeState ∧
      t.toQdState = s.toQdState ∧
      t.nt = s.nt) ∧
  (∀ (s : State) (tag k : Nat),
    s.live pgSPA = true →
    s.on pgSPA SPA.IL_STS_SWITCHING = false →
    s.active = some k →
    s.spHealthy (spOther k) = true →
    ∃ t, exec (.spSwitchover tag) s = .next t ∧
      t.role k = spHeld ∧
      t.role (spOther k) = spActive ∧
      t.rd pgSPA SPA.SW_LAST_CAUSE = 2 ∧
      bit (t.rd pgSPA COMMON.INT_CAUSE_CAUSE) 0 = true ∧
      t.rd pgSPA SPA.IL_STS_SWITCHING = 1 ∧
      t.rd pgSPA SPA.IL_STS_OUT_HOLD = 1 ∧
      t.rd pgSPA SPA.SP_RES.status = 1 ∧
      t.rd pgSPA SPA.SP_RES.tag = tag % 256 ∧
      t.rd pgSPA SPA.SP_RES.valid = 1 ∧
      t.toBandState = s.toBandState ∧
      t.toPipeState = s.toPipeState ∧
      t.toQdState = s.toQdState ∧
      t.nt = s.nt) ∧
  (∀ (s : State) (tag : Nat),
    s.live pgSPA = true →
    s.on pgSPA SPA.IL_STS_SWITCHING = true →
    ∃ t, exec (.spSwitchover tag) s = .next t ∧
      t.rd pgSPA (SPA.SP_RES.word 1) = 1 ∧
      t.sps = s.sps ∧
      bit (t.rd pgSPA COMMON.INT_CAUSE_CAUSE) 7 = true ∧
      t.rd pgSPA SPA.SP_RES.status = 4 ∧
      t.rd pgSPA SPA.SP_RES.tag = tag % 256 ∧
      t.rd pgSPA SPA.SP_RES.valid = 1 ∧
      t.toBandState = s.toBandState ∧
      t.toPipeState = s.toPipeState ∧
      t.toQdState = s.toQdState ∧
      t.nt = s.nt ∧
      t.toLineState = s.toLineState) ∧
  (∀ (s : State) (tag : Nat),
    s.live pgSPA = true →
    s.on pgSPA SPA.IL_STS_SWITCHING = false →
    ((∀ k, s.active = some k → s.spHealthy (spOther k) = false)) →
    ∃ t, exec (.spSwitchover tag) s = .next t ∧
      t.rd pgSPA (SPA.SP_RES.word 1) = 2 ∧
      t.sps = s.sps ∧
      bit (t.rd pgSPA COMMON.INT_CAUSE_CAUSE) 7 = true ∧
      t.rd pgSPA SPA.SP_RES.status = 4 ∧
      t.rd pgSPA SPA.SP_RES.tag = tag % 256 ∧
      t.rd pgSPA SPA.SP_RES.valid = 1 ∧
      t.toBandState = s.toBandState ∧
      t.toPipeState = s.toPipeState ∧
      t.toQdState = s.toQdState ∧
      t.nt = s.nt ∧
      t.toLineState = s.toLineState) ∧
  (∀ (s : State) (tag k : Nat),
    s.live pgSPA = true →
    (k = 0 ∨ k = 1) →
    s.spWaits k = true →
    ∃ t, exec (.spRestartStandby tag) s = .next t ∧
      t.role k = spHeld ∧
      t.sp k = { heldAt := some s.ticks, restarted := true } ∧
      t.rd pgSPA SPA.SP_RES.status = 1 ∧
      t.rd pgSPA SPA.SP_RES.tag = tag % 256 ∧
      t.rd pgSPA SPA.SP_RES.valid = 1 ∧
      t.toBandState = s.toBandState ∧
      t.toPipeState = s.toPipeState ∧
      t.toQdState = s.toQdState ∧
      t.nt = s.nt ∧
      t.toLineState = s.toLineState ∧
      t.toHostState = s.toHostState) ∧
  (∀ (s : State) (tag : Nat),
    s.live pgSPA = true →
    s.spWaits 0 = false →
    s.spWaits 1 = false →
    ∃ t, exec (.spRestartStandby tag) s = .next t ∧
      t.rd pgSPA (SPA.SP_RES.word 1) = 3 ∧
      t.sps = s.sps ∧
      bit (t.rd pgSPA COMMON.INT_CAUSE_CAUSE) 7 = true ∧
      t.rd pgSPA SPA.SP_RES.status = 4 ∧
      t.rd pgSPA SPA.SP_RES.tag = tag % 256 ∧
      t.rd pgSPA SPA.SP_RES.valid = 1 ∧
      t.toBandState = s.toBandState ∧
      t.toPipeState = s.toPipeState ∧
      t.toQdState = s.toQdState ∧
      t.nt = s.nt ∧
      t.toLineState = s.toLineState) ∧
  (∀ (s : State) (sp n : Nat),
    sp < 2 →
    s.role sp = spHeld →
    (s.sp sp).heldAt = some n →
    (s.sp sp).restarted = true →
    n + ticksMs 1 ≤ s.ticks →
    ∃ t, exec (.spRestartRelease sp) s = .next t ∧
      t.role sp = spBoot ∧
      t.sp sp = {} ∧
      t.toBandState = s.toBandState ∧
      t.toPipeState = s.toPipeState ∧
      t.toQdState = s.toQdState ∧
      t.nt = s.nt ∧
      t.toLineState = s.toLineState ∧
      t.toHostState = s.toHostState) ∧
  (∀ (s : State) (sp n : Nat),
    sp < 2 →
    s.role sp = spHeld →
    (s.sp sp).heldAt = some n →
    (s.sp sp).restarted = false →
    n + ticksMs 1 ≤ s.ticks →
    ∃ t, exec (.spHeldRelease sp) s = .next t ∧
      t.role sp = spBoot ∧
      t.sp sp = {} ∧
      t.toBandState = s.toBandState ∧
      t.toPipeState = s.toPipeState ∧
      t.toQdState = s.toQdState ∧
      t.nt = s.nt ∧
      t.toLineState = s.toLineState ∧
      t.toHostState = s.toHostState) ∧
  (∀ (s : State) (sp : Nat),
    sp < 2 →
    s.role sp = spActive →
    s.on pgSPA SPA.IL_STS_SWITCHING = false →
    ∃ t, exec (.spTakeoverDone sp) s = .next t ∧
      t = { s with takenOver := true }) ∧
  (∀ (s : State) (sp : Nat),
    sp < 2 →
    s.role sp = spActive →
    s.on pgSPA SPA.IL_STS_SWITCHING = true →
    s.fwHeld = none →
    s.secHeld = none →
    s.thermHeld = [] →
    ∃ t, exec (.spTakeoverDone sp) s = .next t ∧
      t.takenOver = true ∧
      t.gapFrom = none ∧
      t.takeoverBy = none ∧
      t.failsafe = false ∧
      t.rd pgSPA SPA.IL_STS_SWITCHING = 0 ∧
      t.rd pgSPA SPA.IL_STS_OUT_HOLD = 0 ∧
      t.rd pgSPA SPA.IL_STS_NO_ACTIVE = 0 ∧
      t.rd pgSPA SPA.GAP_LAST_US = s.gapUs ∧
      t.toBandState = s.toBandState ∧
      t.toPipeState = s.toPipeState ∧
      t.toQdState = s.toQdState ∧
      t.nt = s.nt) ∧
  (∀ (s : State) (sp tag : Nat),
    sp < 2 →
    s.role sp = spActive →
    s.on pgSPA SPA.IL_STS_SWITCHING = true →
    s.fwHeld = none →
    s.secHeld = some (.quote tag) →
    s.thermHeld = [] →
    ∃ t, exec (.spTakeoverDone sp) s = .next t ∧
      t.takenOver = true ∧
      t.gapFrom = none ∧
      t.takeoverBy = none ∧
      t.failsafe = false ∧
      t.rd pgSPA SPA.IL_STS_SWITCHING = 0 ∧
      t.rd pgSPA SPA.IL_STS_OUT_HOLD = 0 ∧
      t.rd pgSPA SPA.IL_STS_NO_ACTIVE = 0 ∧
      t.rd pgSPA SPA.GAP_LAST_US = s.gapUs ∧
      t.secHeld = none ∧
      t.quote.take 4 = toBe 4 0x51544531 ∧
      t.rd pgSEC SEC.SEC_RES.status = 1 ∧
      t.rd pgSEC SEC.SEC_RES.tag = tag % 256 ∧
      t.rd pgSEC SEC.SEC_RES.valid = 1 ∧
      t.toBandState = s.toBandState ∧
      t.toPipeState = s.toPipeState ∧
      t.toQdState = s.toQdState ∧
      t.nt = s.nt) ∧
  (∀ (s : State) (n k : Nat),
    s.live pgSPA = true →
    s.takeoverBy = some n →
    s.active = some k →
    n ≤ s.ticks →
    ∃ t, exec (.spTakeoverTimeout) s = .next t ∧
      t.role k = spHeld ∧
      t.rd pgSPA SPA.SW_LAST_CAUSE = 3 ∧
      t.noActiveAt = some s.ticks ∧
      t.rd pgSPA SPA.IL_STS_NO_ACTIVE = 1 ∧
      t.rd pgSPA SPA.IL_STS_SWITCHING = 1 ∧
      t.rd pgSPA SPA.IL_STS_OUT_HOLD = 1 ∧
      t.toBandState = s.toBandState ∧
      t.toPipeState = s.toPipeState ∧
      t.toQdState = s.toQdState ∧
      t.nt = s.nt)

/-- A processor in SYNC whose copy is complete after a full Gauntlet pass enters STANDBY. Outside a gap a step of the Gauntlet
records its result and the next step follows; a failed one is counted, with cause 3. A health post writes the word, and HEALTHY
follows the nine results; 300 ms without a post clear it, with SPA cause 2 where it was set. FAILSAFE_S seconds without an active
processor drive every enabled fan output at the fail-safe duty. Rules followed: R716, R724, R725, R727, R728, R729. -/
def Obligations.ServiceProcessorHealth : Prop :=
  (∀ (s : State) (sp : Nat),
    sp < 2 →
    s.role sp = spSync →
    1 ≤ (s.sp sp).passes →
    ∃ t, exec (.spSyncComplete sp) s = .next t ∧
      t.role sp = spStandby ∧
      t.sps = s.sps ∧
      t.toBandState = s.toBandState ∧
      t.toPipeState = s.toPipeState ∧
      t.toQdState = s.toQdState ∧
      t.nt = s.nt ∧
      t.toLineState = s.toLineState ∧
      t.toHostState = s.toHostState ∧
      t.toMgmtState = s.toMgmtState) ∧
  (∀ (s : State) (sp : Nat),
    sp < 2 →
    s.live (spPage sp) = true →
    s.spWaits sp = true →
    s.live pgSPA = true →
    ∃ t, exec (.spHealthPost sp) s = .next t ∧
      t.rd (spPage sp) SPA.HEALTH_WORD = s.healthWord sp % 2 ^ 32 ∧
      t.sp sp = { s.sp sp with postAt := some s.ticks, healthyAt := if (s.sp sp).okBits = 0x1FF then some s.ticks else (s.sp sp).healthyAt } ∧
      t.rd pgSPA (ilHealthy sp) = b2n (decide ((s.sp sp).okBits = 0x1FF)) ∧
      t.rd (spPage sp) SPA.SP_CNT 1 = (s.rd (spPage sp) SPA.SP_CNT 1 + 1) % 2 ^ 64 ∧
      t.toBandState = s.toBandState ∧
      t.toPipeState = s.toPipeState ∧
      t.toQdState = s.toQdState ∧
      t.nt = s.nt ∧
      t.toLineState = s.toLineState) ∧
  (∀ (s : State) (sp n : Nat),
    s.live pgSPA = true →
    sp < 2 →
    (s.sp sp).postAt = some n →
    s.spWaits sp = true →
    n + ticksMs 300 ≤ s.ticks →
    ∃ t, exec (.spHealthStale sp) s = .next t ∧
      t.rd pgSPA (ilHealthy sp) = 0 ∧
      ((s.on pgSPA (ilHealthy sp) = true → bit (t.rd pgSPA COMMON.INT_CAUSE_CAUSE) 2 = true)) ∧
      t.sps = s.sps ∧
      t.toBandState = s.toBandState ∧
      t.toPipeState = s.toPipeState ∧
      t.toQdState = s.toQdState ∧
      t.nt = s.nt ∧
      t.toLineState = s.toLineState) ∧
  (∀ (s : State) (sp : Nat),
    sp < 2 →
    s.live (spPage sp) = true →
    s.spWaits sp = true →
    s.on pgSPA SPA.IL_STS_SWITCHING = false →
    ∃ t, exec (.gauntletStep sp true) s = .next t ∧
      t.sp sp = ({ s.sp sp with okBits := putBit (s.sp sp).okBits ((s.sp sp).step - 1) true }).advance ∧
      ((s.sp sp).step = 9 → t.rd (spPage sp) SPA.SP_CNT 2 = (s.rd (spPage sp) SPA.SP_CNT 2 + 1) % 2 ^ 64) ∧
      t.toBandState = s.toBandState ∧
      t.toPipeState = s.toPipeState ∧
      t.toQdState = s.toQdState ∧
      t.nt = s.nt ∧
      t.toLineState = s.toLineState ∧
      t.toHostState = s.toHostState) ∧
  (∀ (s : State) (sp : Nat),
    sp < 2 →
    s.live (spPage sp) = true →
    s.spWaits sp = true →
    s.on pgSPA SPA.IL_STS_SWITCHING = false →
    ∃ t, exec (.gauntletStep sp false) s = .next t ∧
      t.sp sp = ({ s.sp sp with okBits := putBit (s.sp sp).okBits ((s.sp sp).step - 1) false }).advance ∧
      t.rd (spPage sp) SPA.SP_CNT 3 = (s.rd (spPage sp) SPA.SP_CNT 3 + 1) % 2 ^ 64 ∧
      bit (t.rd (spPage sp) COMMON.INT_CAUSE_CAUSE) 3 = true ∧
      t.toBandState = s.toBandState ∧
      t.toPipeState = s.toPipeState ∧
      t.toQdState = s.toQdState ∧
      t.nt = s.nt ∧
      t.toLineState = s.toLineState) ∧
  (∀ (s : State) (n : Nat),
    s.noActiveAt = some n →
    n + ticksMs (1000 * max (s.rd pgSPA SPA.FAN_CFG_FAILSAFE_S) 1) ≤ s.ticks →
    s.failsafe = false →
    ∃ t, exec (.failsafeFan) s = .next t ∧
      t.failsafe = true ∧
      ((∀ k, k < 4 → Out.fan k (if s.on pgSPA SPA.FAN_DUTY_EN k then some (s.rd pgSPA SPA.FAN_CFG_PWM_HZ, s.rd pgSPA SPA.FAN_CFG_FAILSAFE_DUTY) else none) ∈ t.out)) ∧
      t.toBandState = s.toBandState ∧
      t.toPipeState = s.toPipeState ∧
      t.toQdState = s.toQdState ∧
      t.nt = s.nt ∧
      t.toLineState = s.toLineState ∧
      t.toHostState = s.toHostState)

/-- A booting processor takes the active slot where its check passes, follows the running slot of an active partner, and shows
NO_IMAGE where no slot passes. STAGE writes the bytes into the slot, checks them and ends DONE or, with the header erased, ERROR
2; the running slot is refused (ERROR 1), a host or flash error ends ERROR 9 or 2, and in a gap the command waits. STAGE of a
configuration lets a good bank govern, else ERROR 8. VERIFY records its code. ARM takes a passed slot, ACTIVATE_NOW writes the
boot record and restarts both processors, DISARM drops the arming; each ends ERROR with its code where its condition fails.
FLASH_READ writes flash bytes to the host. ABORT ends a running command ABORTED. Rules followed: R34, R64, R732, R735, R736, R742,
R743, R744, R745, R746, R747, R759. -/
def Obligations.FirmwareImagesAndArming : Prop :=
  (∀ (s : State) (sp : Nat) (flashOk : Bool) (migrated : List Byte),
    sp < 2 →
    s.live pgFWU = true →
    s.role sp = spBoot →
    (s.sp sp).booted = false →
    s.role (spOther sp) ≠ spActive →
    (s.sp (spOther sp)).booted = false →
    ∃ t, exec (.bootSlotSelect sp flashOk migrated) s = .next t ∧
      ((s.bootRec.1.trial = 0 → s.imgCheck s.bootRec.1.active flashOk = 1 → (t.sp sp).booted = true ∧ t.rd pgFWU FWU.FWU_STS_RUN_SLOT = s.bootRec.1.active % 4 ∧ t.flash = s.flash)) ∧
      (((bootOrder s.bootRec.1).1.all (fun n => decide (s.imgCheck n flashOk ≠ 1)) = true → t.rd pgFWU FWU.FWU_STS_NO_IMAGE = 1 ∧ t.sps = s.sps ∧ t.flash = s.flash)) ∧
      t.toBandState = s.toBandState ∧
      t.toPipeState = s.toPipeState ∧
      t.toQdState = s.toQdState ∧
      t.nt = s.nt) ∧
  (∀ (s : State) (sp : Nat) (flashOk : Bool) (migrated : List Byte),
    sp < 2 →
    s.live pgFWU = true →
    s.role sp = spBoot →
    (s.sp sp).booted = false →
    s.role (spOther sp) = spActive →
    ∃ t, exec (.bootSlotSelect sp flashOk migrated) s = .next t ∧
      t.flash = s.flash ∧
      (t.sp sp).booted = decide (s.imgCheck (s.rd pgFWU FWU.FWU_STS_RUN_SLOT) flashOk = 1) ∧
      t.rd pgFWU FWU.SLOT_INFO_CHECK (s.rd pgFWU FWU.FWU_STS_RUN_SLOT) = s.imgCheck (s.rd pgFWU FWU.FWU_STS_RUN_SLOT) flashOk ∧
      t.toBandState = s.toBandState ∧
      t.toLineState = s.toLineState ∧
      t.toPipeState = s.toPipeState ∧
      t.toQdState = s.toQdState ∧
      t.nt = s.nt ∧
      t.toHostState = s.toHostState) ∧
  (∀ (s : State) (slot tag : Nat) (bytes : List Byte),
    slot < 3 →
    s.live pgFWU = true →
    s.fwRun = none →
    s.fwHeld = none →
    s.on pgSPA SPA.IL_STS_SWITCHING = false →
    slot ≠ s.rd pgFWU FWU.FWU_STS_RUN_SLOT →
    s.on pgFWU FWU.FWU_STS_TRIAL = false →
    s.tagFree = true →
    ∃ t, exec (.fwStage slot tag (.data bytes)) s = .next t ∧
      ((let u := (s.slotErase slot).flashWrite (slotBase slot) (bytes.take (min (s.rd pgFWU FWU.STG_LEN_BYTES) (slotSize slot)))
      if u.imgCheck slot true = 1 then t.rd pgFWU FWU.FWU_RES.status = 1 ∧ t.flash = u.flash ∧ t.fwPassed.contains slot = true else t.rd pgFWU FWU.FWU_RES.status = 4 ∧ t.rd pgFWU (FWU.FWU_RES.word 1) = 2 ∧ t.rd pgFWU (FWU.FWU_RES.word 2) = u.imgCheck slot true ∧ t.flash = (u.slotErase slot).flash ∧ t.fwPassed.contains slot = false)) ∧
      t.fwRun = none ∧
      t.rd pgFWU FWU.FWU_CNT 0 = (s.rd pgFWU FWU.FWU_CNT 0 + 1) % 2 ^ 64 ∧
      bit (t.rd pgFWU COMMON.INT_CAUSE_CAUSE) 0 = true ∧
      t.toBandState = s.toBandState ∧
      t.toLineState = s.toLineState ∧
      t.toPipeState = s.toPipeState ∧
      t.toQdState = s.toQdState ∧
      t.nt = s.nt) ∧
  (∀ (s : State) (slot tag : Nat),
    slot < 3 →
    s.live pgFWU = true →
    s.fwRun = none →
    s.fwHeld = none →
    s.on pgSPA SPA.IL_STS_SWITCHING = false →
    slot ≠ s.rd pgFWU FWU.FWU_STS_RUN_SLOT →
    s.on pgFWU FWU.FWU_STS_TRIAL = false →
    ∃ t, exec (.fwStage slot tag .running) s = .next t ∧
      t.fwRun = some (slot, tag) ∧
      t.rd pgFWU FWU.FWU_RES.valid = 0 ∧
      t.flash = (s.slotErase slot).flash ∧
      t.toBandState = s.toBandState ∧
      t.toLineState = s.toLineState ∧
      t.toPipeState = s.toPipeState ∧
      t.toQdState = s.toQdState ∧
      t.nt = s.nt ∧
      t.toHostState = s.toHostState) ∧
  (∀ (s : State) (slot tag : Nat),
    slot < 3 →
    s.live pgFWU = true →
    s.fwRun = none →
    s.fwHeld = none →
    s.on pgSPA SPA.IL_STS_SWITCHING = false →
    slot ≠ s.rd pgFWU FWU.FWU_STS_RUN_SLOT →
    s.on pgFWU FWU.FWU_STS_TRIAL = false →
    ∃ t, exec (.fwStage slot tag .hostError) s = .next t ∧
      t.fwRun = none ∧
      t.rd pgFWU (FWU.FWU_RES.word 1) = 9 ∧
      t.rd pgFWU FWU.FWU_RES.status = 4 ∧
      t.rd pgFWU FWU.FWU_RES.tag = tag % 256 ∧
      t.rd pgFWU FWU.FWU_RES.valid = 1 ∧
      t.toBandState = s.toBandState ∧
      t.toLineState = s.toLineState ∧
      t.toPipeState = s.toPipeState ∧
      t.toQdState = s.toQdState ∧
      t.nt = s.nt) ∧
  (∀ (s : State) (slot tag : Nat),
    slot < 3 →
    s.live pgFWU = true →
    s.fwRun = none →
    s.fwHeld = none →
    s.on pgSPA SPA.IL_STS_SWITCHING = false →
    slot ≠ s.rd pgFWU FWU.FWU_STS_RUN_SLOT →
    s.on pgFWU FWU.FWU_STS_TRIAL = false →
    ∃ t, exec (.fwStage slot tag .flashError) s = .next t ∧
      t.fwRun = none ∧
      t.rd pgFWU FWU.SLOT_INFO_CHECK slot = 9 ∧
      t.rd pgFWU (FWU.FWU_RES.word 1) = 2 ∧
      t.rd pgFWU (FWU.FWU_RES.word 2) = 9 ∧
      t.rd pgFWU FWU.FWU_RES.status = 4 ∧
      t.rd pgFWU FWU.FWU_RES.tag = tag % 256 ∧
      t.rd pgFWU FWU.FWU_RES.valid = 1 ∧
      bit (t.rd pgFWU COMMON.INT_CAUSE_CAUSE) 6 = true ∧
      t.toBandState = s.toBandState ∧
      t.toLineState = s.toLineState ∧
      t.toPipeState = s.toPipeState ∧
      t.toQdState = s.toQdState ∧
      t.nt = s.nt) ∧
  (∀ (s : State) (slot tag : Nat) (io : FlashIo),
    slot < 3 →
    s.live pgFWU = true →
    s.fwRun = none →
    s.fwHeld = none →
    s.on pgSPA SPA.IL_STS_SWITCHING = false →
    slot = s.rd pgFWU FWU.FWU_STS_RUN_SLOT →
    ∃ t, exec (.fwStage slot tag io) s = .next t ∧
      t.flash = s.flash ∧
      t.fwPassed = s.fwPassed ∧
      t.rd pgFWU (FWU.FWU_RES.word 1) = 1 ∧
      t.rd pgFWU FWU.FWU_RES.status = 4 ∧
      t.rd pgFWU FWU.FWU_RES.tag = tag % 256 ∧
      t.rd pgFWU FWU.FWU_RES.valid = 1 ∧
      t.toBandState = s.toBandState ∧
      t.toLineState = s.toLineState ∧
      t.toPipeState = s.toPipeState ∧
      t.toQdState = s.toQdState ∧
      t.nt = s.nt) ∧
  (∀ (s : State) (slot tag : Nat) (io : FlashIo),
    slot < 3 →
    s.live pgFWU = true →
    s.fwRun = none →
    s.fwHeld = none →
    s.on pgSPA SPA.IL_STS_SWITCHING = true →
    ∃ t, exec (.fwStage slot tag io) s = .next t ∧
      t.fwHeld = some (.stage slot tag io) ∧
      t.flash = s.flash ∧
      t.rd pgFWU FWU.FWU_RES.valid = 0 ∧
      t.toBandState = s.toBandState ∧
      t.toLineState = s.toLineState ∧
      t.toPipeState = s.toPipeState ∧
      t.toQdState = s.toQdState ∧
      t.nt = s.nt ∧
      t.toHostState = s.toHostState) ∧
  (∀ (s : State) (tag : Nat) (bytes : List Byte),
    s.live pgFWU = true →
    s.fwRun = none →
    s.fwHeld = none →
    s.on pgSPA SPA.IL_STS_SWITCHING = false →
    ∃ t, exec (.fwStageConfig tag (.data bytes)) s = .next t ∧
      ((let b := 1 - s.bootRec.1.bank
      let u := s.flashWrite (bankBase b) (bytes.take (min (s.rd pgFWU FWU.STG_LEN_BYTES) 0x100000))
      if u.bankGood b = true ∧ u.bankSchema b = s.rd pgFWU FWU.RUN_INFO_SCHEMA then t.rd pgFWU FWU.FWU_RES.status = 1 ∧ t.flash = (u.recWrite { s.bootRec.1 with bank := b }).flash else t.rd pgFWU FWU.FWU_RES.status = 4 ∧ t.rd pgFWU (FWU.FWU_RES.word 1) = 8 ∧ t.flash = u.flash)) ∧
      t.fwRun = none ∧
      t.rd pgFWU FWU.FWU_CNT 0 = (s.rd pgFWU FWU.FWU_CNT 0 + 1) % 2 ^ 64 ∧
      t.toBandState = s.toBandState ∧
      t.toLineState = s.toLineState ∧
      t.toPipeState = s.toPipeState ∧
      t.toQdState = s.toQdState ∧
      t.nt = s.nt) ∧
  (∀ (s : State) (slot tag : Nat) (flashOk : Bool),
    slot < 3 →
    s.live pgFWU = true →
    s.fwRun = none →
    s.fwHeld = none →
    s.on pgSPA SPA.IL_STS_SWITCHING = false →
    ∃ t, exec (.fwVerify slot tag flashOk) s = .next t ∧
      t.rd pgFWU FWU.SLOT_INFO_CHECK slot = s.imgCheck slot flashOk ∧
      t.fwPassed.contains slot = decide (s.imgCheck slot flashOk = 1) ∧
      t.rd pgFWU FWU.FWU_RES.status = (if s.imgCheck slot flashOk = 1 then 1 else 4) ∧
      t.flash = s.flash ∧
      bit (t.rd pgFWU COMMON.INT_CAUSE_CAUSE) 0 = true ∧
      t.toBandState = s.toBandState ∧
      t.toLineState = s.toLineState ∧
      t.toPipeState = s.toPipeState ∧
      t.toQdState = s.toQdState ∧
      t.nt = s.nt) ∧
  (∀ (s : State) (slot tag : Nat),
    s.live pgFWU = true →
    s.fwRun = none →
    s.fwHeld = none →
    s.on pgFWU FWU.FWU_STS_TRIAL = false →
    slot < 2 →
    s.fwPassed.contains slot = true →
    ∃ t, exec (.fwArm slot tag) s = .next t ∧
      t.fwFired = false ∧
      t.rd pgFWU FWU.FWU_STS_ARMED = 1 ∧
      t.rd pgFWU FWU.FWU_STS_ARMED_SLOT = slot ∧
      t.flash = s.flash ∧
      t.rd pgFWU FWU.FWU_RES.status = 1 ∧
      t.rd pgFWU FWU.FWU_RES.tag = tag % 256 ∧
      t.rd pgFWU FWU.FWU_RES.valid = 1 ∧
      t.toBandState = s.toBandState ∧
      t.toLineState = s.toLineState ∧
      t.toPipeState = s.toPipeState ∧
      t.toQdState = s.toQdState ∧
      t.nt = s.nt ∧
      t.toHostState = s.toHostState) ∧
  (∀ (s : State) (slot tag : Nat),
    s.live pgFWU = true →
    s.fwRun = none →
    s.fwHeld = none →
    s.on pgFWU FWU.FWU_STS_TRIAL = true →
    ∃ t, exec (.fwArm slot tag) s = .next t ∧
      t.rd pgFWU FWU.FWU_STS_ARMED = s.rd pgFWU FWU.FWU_STS_ARMED ∧
      t.rd pgFWU (FWU.FWU_RES.word 1) = 3 ∧
      t.rd pgFWU FWU.FWU_RES.status = 4 ∧
      t.rd pgFWU FWU.FWU_RES.tag = tag % 256 ∧
      t.rd pgFWU FWU.FWU_RES.valid = 1 ∧
      t.toBandState = s.toBandState ∧
      t.toLineState = s.toLineState ∧
      t.toPipeState = s.toPipeState ∧
      t.toQdState = s.toQdState ∧
      t.nt = s.nt) ∧
  (∀ (s : State) (slot tag : Nat),
    s.live pgFWU = true →
    s.fwRun = none →
    s.fwHeld = none →
    s.on pgFWU FWU.FWU_STS_TRIAL = false →
    s.fwPassed.contains slot = false →
    ∃ t, exec (.fwArm slot tag) s = .next t ∧
      t.rd pgFWU FWU.FWU_STS_ARMED = s.rd pgFWU FWU.FWU_STS_ARMED ∧
      t.rd pgFWU (FWU.FWU_RES.word 1) = 2 ∧
      t.rd pgFWU FWU.FWU_RES.status = 4 ∧
      t.rd pgFWU FWU.FWU_RES.tag = tag % 256 ∧
      t.rd pgFWU FWU.FWU_RES.valid = 1 ∧
      t.toBandState = s.toBandState ∧
      t.toLineState = s.toLineState ∧
      t.toPipeState = s.toPipeState ∧
      t.toQdState = s.toQdState ∧
      t.nt = s.nt) ∧
  (∀ (s : State) (tag : Nat),
    s.live pgFWU = true →
    s.fwRun = none →
    s.fwHeld = none →
    s.on pgFWU FWU.FWU_STS_ARMED = true →
    ∃ t, exec (.fwDisarm tag) s = .next t ∧
      t.rd pgFWU FWU.FWU_STS_ARMED = 0 ∧
      t.flash = s.flash ∧
      t.rd pgFWU FWU.FWU_RES.status = 1 ∧
      t.rd pgFWU FWU.FWU_RES.tag = tag % 256 ∧
      t.rd pgFWU FWU.FWU_RES.valid = 1 ∧
      t.toBandState = s.toBandState ∧
      t.toLineState = s.toLineState ∧
      t.toPipeState = s.toPipeState ∧
      t.toQdState = s.toQdState ∧
      t.nt = s.nt ∧
      t.toHostState = s.toHostState) ∧
  (∀ (s : State) (tag : Nat),
    s.live pgFWU = true →
    s.fwRun = none →
    s.fwHeld = none →
    s.on pgFWU FWU.FWU_STS_ARMED = false →
    s.fwFired = false →
    ∃ t, exec (.fwDisarm tag) s = .next t ∧
      t.flash = s.flash ∧
      t.rd pgFWU (FWU.FWU_RES.word 1) = 4 ∧
      t.rd pgFWU FWU.FWU_RES.status = 4 ∧
      t.rd pgFWU FWU.FWU_RES.tag = tag % 256 ∧
      t.rd pgFWU FWU.FWU_RES.valid = 1 ∧
      t.toBandState = s.toBandState ∧
      t.toLineState = s.toLineState ∧
      t.toPipeState = s.toPipeState ∧
      t.toQdState = s.toQdState ∧
      t.nt = s.nt) ∧
  (∀ (s : State) (tag : Nat),
    s.live pgFWU = true →
    s.fwRun = none →
    s.fwHeld = none →
    s.on pgFWU FWU.FWU_STS_ARMED = false →
    s.fwFired = true →
    ∃ t, exec (.fwDisarm tag) s = .next t ∧
      t.rd pgFWU FWU.FWU_RES.late = 1 ∧
      t.flash = s.flash ∧
      t.rd pgFWU FWU.FWU_RES.status = 1 ∧
      t.rd pgFWU FWU.FWU_RES.tag = tag % 256 ∧
      t.rd pgFWU FWU.FWU_RES.valid = 1 ∧
      t.toBandState = s.toBandState ∧
      t.toLineState = s.toLineState ∧
      t.toPipeState = s.toPipeState ∧
      t.toQdState = s.toQdState ∧
      t.nt = s.nt ∧
      t.toHostState = s.toHostState) ∧
  (∀ (s : State) (tag : Nat),
    s.live pgFWU = true →
    s.fwRun = none →
    s.fwHeld = none →
    s.on pgFWU FWU.FWU_STS_ARMED = true →
    s.on pgFWU FWU.FWU_STS_TRIAL = false →
    ∃ t, exec (.fwActivateNow tag) s = .next t ∧
      t.fwFired = true ∧
      t.rd pgFWU FWU.FWU_STS_ARMED = 0 ∧
      t.flash = (s.recWrite { s.bootRec.1 with active := s.rd pgFWU FWU.FWU_STS_ARMED_SLOT, prev := s.rd pgFWU FWU.FWU_STS_RUN_SLOT, trial := 1, boots := 0, prevBank := s.bootRec.1.bank }).flash ∧
      (∀ k, k < 2 → s.role k ≠ spOff → t.role k = spBoot) ∧
      t.rd pgSPA SPA.IL_STS_SWITCHING = 1 ∧
      t.rd pgFWU FWU.FWU_CNT 2 = (s.rd pgFWU FWU.FWU_CNT 2 + 1) % 2 ^ 64 ∧
      bit (t.rd pgFWU COMMON.INT_CAUSE_CAUSE) 2 = true ∧
      t.rd pgFWU FWU.FWU_RES.status = 1 ∧
      t.rd pgFWU FWU.FWU_RES.tag = tag % 256 ∧
      t.rd pgFWU FWU.FWU_RES.valid = 1 ∧
      t.toBandState = s.toBandState ∧
      t.toPipeState = s.toPipeState ∧
      t.toQdState = s.toQdState ∧
      t.nt = s.nt) ∧
  (∀ (s : State) (tag : Nat),
    s.live pgFWU = true →
    s.fwRun = none →
    s.fwHeld = none →
    s.on pgFWU FWU.FWU_STS_ARMED = false →
    s.on pgFWU FWU.FWU_STS_TRIAL = false →
    ∃ t, exec (.fwActivateNow tag) s = .next t ∧
      t.flash = s.flash ∧
      t.rd pgFWU FWU.FWU_CNT 6 = (s.rd pgFWU FWU.FWU_CNT 6 + 1) % 2 ^ 64 ∧
      t.rd pgFWU (FWU.FWU_RES.word 1) = 4 ∧
      t.rd pgFWU FWU.FWU_RES.status = 4 ∧
      t.rd pgFWU FWU.FWU_RES.tag = tag % 256 ∧
      t.rd pgFWU FWU.FWU_RES.valid = 1 ∧
      t.toBandState = s.toBandState ∧
      t.toLineState = s.toLineState ∧
      t.toPipeState = s.toPipeState ∧
      t.toQdState = s.toQdState ∧
      t.nt = s.nt) ∧
  (∀ (s : State) (tag : Nat),
    s.live pgFWU = true →
    s.fwRun = none →
    s.fwHeld = none →
    s.on pgFWU FWU.FWU_STS_TRIAL = true →
    ∃ t, exec (.fwActivateNow tag) s = .next t ∧
      t.flash = s.flash ∧
      t.rd pgFWU FWU.FWU_CNT 6 = (s.rd pgFWU FWU.FWU_CNT 6 + 1) % 2 ^ 64 ∧
      t.rd pgFWU (FWU.FWU_RES.word 1) = 3 ∧
      t.rd pgFWU FWU.FWU_RES.status = 4 ∧
      t.rd pgFWU FWU.FWU_RES.tag = tag % 256 ∧
      t.rd pgFWU FWU.FWU_RES.valid = 1 ∧
      t.toBandState = s.toBandState ∧
      t.toLineState = s.toLineState ∧
      t.toPipeState = s.toPipeState ∧
      t.toQdState = s.toQdState ∧
      t.nt = s.nt) ∧
  (∀ (s : State) (tag : Nat),
    s.live pgFWU = true →
    s.fwRun = none →
    s.fwHeld = none →
    (s.fnS 1).sends = true →
    ∃ t, exec (.flashRead tag true) s = .next t ∧
      t.out = .hostWrite 1 (s.rd pgFWU FWU.STG_ADDR_LO_ADDR + s.rd pgFWU FWU.STG_ADDR_HI_ADDR * 2 ^ 32) (s.flashBytes (s.rd pgFWU FWU.STG_OFF_OFFSET) (min (s.rd pgFWU FWU.STG_LEN_BYTES) (0x4000000 - s.rd pgFWU FWU.STG_OFF_OFFSET))) false :: s.out ∧
      t.flash = s.flash ∧
      t.rd pgFWU FWU.FWU_RES.status = 1 ∧
      t.rd pgFWU FWU.FWU_RES.tag = tag % 256 ∧
      t.rd pgFWU FWU.FWU_RES.valid = 1 ∧
      t.toBandState = s.toBandState ∧
      t.toLineState = s.toLineState ∧
      t.toPipeState = s.toPipeState ∧
      t.toQdState = s.toQdState ∧
      t.nt = s.nt ∧
      t.toHostState = s.toHostState) ∧
  (∀ (s : State) (tag : Nat),
    s.live pgFWU = true →
    s.fwRun = none →
    s.fwHeld = none →
    ∃ t, exec (.flashRead tag false) s = .next t ∧
      t.flash = s.flash ∧
      bit (t.rd pgFWU COMMON.INT_CAUSE_CAUSE) 6 = true ∧
      t.rd pgFWU (FWU.FWU_RES.word 1) = 2 ∧
      t.rd pgFWU (FWU.FWU_RES.word 2) = 9 ∧
      t.rd pgFWU FWU.FWU_RES.status = 4 ∧
      t.rd pgFWU FWU.FWU_RES.tag = tag % 256 ∧
      t.rd pgFWU FWU.FWU_RES.valid = 1 ∧
      t.toBandState = s.toBandState ∧
      t.toLineState = s.toLineState ∧
      t.toPipeState = s.toPipeState ∧
      t.toQdState = s.toQdState ∧
      t.nt = s.nt) ∧
  (∀ (s : State) (n tag : Nat) (a : Nat),
    s.live pgFWU = true →
    s.fwRun = some (a, tag) →
    ∃ t, exec (.fwuAbort n) s = .next t ∧
      t.fwRun = none ∧
      t.flash = s.flash ∧
      t.rd pgFWU FWU.FWU_RES.status = 2 ∧
      t.rd pgFWU FWU.FWU_RES.tag = tag % 256 ∧
      t.rd pgFWU FWU.FWU_RES.valid = 1 ∧
      t.toBandState = s.toBandState ∧
      t.toLineState = s.toLineState ∧
      t.toPipeState = s.toPipeState ∧
      t.toQdState = s.toQdState ∧
      t.nt = s.nt ∧
      t.toHostState = s.toHostState) ∧
  (∀ (s : State) (n tag : Nat) (x : FwTask),
    s.live pgFWU = true →
    s.fwRun = none →
    s.fwHeld = some x →
    tag = fwTag x →
    ∃ t, exec (.fwuAbort n) s = .next t ∧
      t.fwHeld = none ∧
      t.flash = s.flash ∧
      t.rd pgFWU FWU.FWU_RES.status = 2 ∧
      t.rd pgFWU FWU.FWU_RES.tag = tag % 256 ∧
      t.rd pgFWU FWU.FWU_RES.valid = 1 ∧
      t.toBandState = s.toBandState ∧
      t.toLineState = s.toLineState ∧
      t.toPipeState = s.toPipeState ∧
      t.toQdState = s.toQdState ∧
      t.nt = s.nt ∧
      t.toHostState = s.toHostState)

/-- A trial that runs 15 minutes, or that the image rejects, falls back: the boot record names the earlier slot and bank, both
processors restart, and the reason, cause 4 and the log record it; REJECT without a trial is late. A trial whose image has taken
over with a healthy standby is confirmed. SVN_ADVANCE blows the fuses to the running SVN where the recovery image passes, and else
ends ERROR 5, 6 or 7. QUOTE leaves a signed header in the window with cause 0, or waits in a gap; CHALLENGE serves one UNLOCK; an
UNLOCK without it ends ERROR 4, with a bad token 2, exhausted 3, and an accepted one erases the customer keys, steps ERASE_GEN and
opens factory mode. Rules followed: R34, R733, R739, R740, R749, R750, R751, R754, R755, R757, R758. -/
def Obligations.FirmwareTrialAndSecurity : Prop :=
  (∀ (s : State) (n : Nat),
    s.live pgFWU = true →
    s.trialAt = some n →
    n + ticksMs 900000 ≤ s.ticks →
    ∃ t, exec (.fwTrialTimeout) s = .next t ∧
      t.fellBack = true ∧
      t.trialAt = none ∧
      t.rd pgFWU FWU.FWU_STS_FB_REASON = 1 ∧
      t.rd pgFWU FWU.FWU_STS_TRIAL = 0 ∧
      t.flash = (s.recWrite { s.bootRec.1 with active := s.bootRec.1.prev, bank := s.bootRec.1.prevBank, trial := 0 }).flash ∧
      (∀ k, k < 2 → s.role k ≠ spOff → t.role k = spBoot) ∧
      t.rd pgSPA SPA.IL_STS_SWITCHING = 1 ∧
      t.rd pgFWU FWU.FWU_CNT 4 = (s.rd pgFWU FWU.FWU_CNT 4 + 1) % 2 ^ 64 ∧
      bit (t.rd pgFWU COMMON.INT_CAUSE_CAUSE) 4 = true ∧
      t.toBandState = s.toBandState ∧
      t.toPipeState = s.toPipeState ∧
      t.toQdState = s.toQdState ∧
      t.nt = s.nt) ∧
  (∀ (s : State) (tag : Nat),
    s.live pgFWU = true →
    s.fwRun = none →
    s.fwHeld = none →
    s.on pgFWU FWU.FWU_STS_TRIAL = true →
    ∃ t, exec (.fwReject tag) s = .next t ∧
      t.fellBack = true ∧
      t.trialAt = none ∧
      t.rd pgFWU FWU.FWU_STS_FB_REASON = 3 ∧
      t.rd pgFWU FWU.FWU_STS_TRIAL = 0 ∧
      t.flash = (s.recWrite { s.bootRec.1 with active := s.bootRec.1.prev, bank := s.bootRec.1.prevBank, trial := 0 }).flash ∧
      (∀ k, k < 2 → s.role k ≠ spOff → t.role k = spBoot) ∧
      t.rd pgSPA SPA.IL_STS_SWITCHING = 1 ∧
      t.rd pgFWU FWU.FWU_CNT 4 = (s.rd pgFWU FWU.FWU_CNT 4 + 1) % 2 ^ 64 ∧
      bit (t.rd pgFWU COMMON.INT_CAUSE_CAUSE) 4 = true ∧
      t.rd pgFWU FWU.FWU_RES.status = 1 ∧
      t.rd pgFWU FWU.FWU_RES.tag = tag % 256 ∧
      t.rd pgFWU FWU.FWU_RES.valid = 1 ∧
      t.toBandState = s.toBandState ∧
      t.toPipeState = s.toPipeState ∧
      t.toQdState = s.toQdState ∧
      t.nt = s.nt) ∧
  (∀ (s : State) (tag : Nat),
    s.live pgFWU = true →
    s.fwRun = none →
    s.fwHeld = none →
    s.on pgFWU FWU.FWU_STS_TRIAL = false →
    ∃ t, exec (.fwReject tag) s = .next t ∧
      t.rd pgFWU FWU.FWU_RES.late = 1 ∧
      t.flash = s.flash ∧
      t.rd pgFWU FWU.FWU_RES.status = 1 ∧
      t.rd pgFWU FWU.FWU_RES.tag = tag % 256 ∧
      t.rd pgFWU FWU.FWU_RES.valid = 1 ∧
      t.toBandState = s.toBandState ∧
      t.toLineState = s.toLineState ∧
      t.toPipeState = s.toPipeState ∧
      t.toQdState = s.toQdState ∧
      t.nt = s.nt ∧
      t.toHostState = s.toHostState) ∧
  (∀ (s : State),
    s.live pgFWU = true →
    s.mayConfirm = true →
    ∃ t, exec (.fwConfirm) s = .next t ∧
      t.trialAt = none ∧
      t.rd pgFWU FWU.FWU_STS_CONFIRMED = 1 ∧
      t.rd pgFWU FWU.FWU_STS_TRIAL = 0 ∧
      t.flash = (s.recWrite { s.bootRec.1 with trial := 0, prevBank := s.bootRec.1.bank }).flash ∧
      t.rd pgFWU FWU.FWU_CNT 3 = (s.rd pgFWU FWU.FWU_CNT 3 + 1) % 2 ^ 64 ∧
      bit (t.rd pgFWU COMMON.INT_CAUSE_CAUSE) 3 = true ∧
      t.toBandState = s.toBandState ∧
      t.toLineState = s.toLineState ∧
      t.toPipeState = s.toPipeState ∧
      t.toQdState = s.toQdState ∧
      t.nt = s.nt) ∧
  (∀ (s : State) (tag : Nat) (flashOk : Bool),
    s.live pgFWU = true →
    s.fwRun = none →
    s.fwHeld = none →
    s.on pgFWU FWU.FWU_STS_TRIAL = false →
    ∃ t, exec (.svnAdvance tag flashOk) s = .next t ∧
      ((if s.imgCheck 2 flashOk ≠ 1 ∨ s.imgSvn 2 < s.rd pgFWU FWU.RUN_INFO_SVN then t.rd pgFWU FWU.FWU_RES.status = 4 ∧ t.rd pgFWU (FWU.FWU_RES.word 1) = 6 ∧ t.fuseSvn = s.fuseSvn else if s.rd pgFWU FWU.RUN_INFO_SVN ≤ s.fuseSvn then t.rd pgFWU FWU.FWU_RES.status = 4 ∧ t.rd pgFWU (FWU.FWU_RES.word 1) = 7 ∧ t.fuseSvn = s.fuseSvn else t.rd pgFWU FWU.FWU_RES.status = 1 ∧ t.fuseSvn = s.rd pgFWU FWU.RUN_INFO_SVN ∧ t.rd pgFWU FWU.FWU_STS_FUSE_SVN = s.rd pgFWU FWU.RUN_INFO_SVN % 128)) ∧
      t.flash = s.flash ∧
      t.toBandState = s.toBandState ∧
      t.toLineState = s.toLineState ∧
      t.toPipeState = s.toPipeState ∧
      t.toQdState = s.toQdState ∧
      t.nt = s.nt) ∧
  (∀ (s : State) (tag : Nat) (flashOk : Bool),
    s.live pgFWU = true →
    s.fwRun = none →
    s.fwHeld = none →
    s.on pgFWU FWU.FWU_STS_TRIAL = true →
    ∃ t, exec (.svnAdvance tag flashOk) s = .next t ∧
      t.fuseSvn = s.fuseSvn ∧
      t.flash = s.flash ∧
      t.rd pgFWU (FWU.FWU_RES.word 1) = 5 ∧
      t.rd pgFWU FWU.FWU_RES.status = 4 ∧
      t.rd pgFWU FWU.FWU_RES.tag = tag % 256 ∧
      t.rd pgFWU FWU.FWU_RES.valid = 1 ∧
      t.toBandState = s.toBandState ∧
      t.toLineState = s.toLineState ∧
      t.toPipeState = s.toPipeState ∧
      t.toQdState = s.toQdState ∧
      t.nt = s.nt) ∧
  (∀ (s : State) (tag : Nat),
    s.live pgSEC = true →
    s.secHeld = none →
    s.on pgSPA SPA.IL_STS_SWITCHING = false →
    ∃ t, exec (.secQuote tag) s = .next t ∧
      t.quote = s.quoteHeader ++ Config.rsaSign 1 s.quoteHeader ∧
      t.rd pgSEC SEC.SEC_CNT 0 = (s.rd pgSEC SEC.SEC_CNT 0 + 1) % 2 ^ 64 ∧
      bit (t.rd pgSEC COMMON.INT_CAUSE_CAUSE) 0 = true ∧
      t.rd pgSEC SEC.SEC_RES.status = 1 ∧
      t.rd pgSEC SEC.SEC_RES.tag = tag % 256 ∧
      t.rd pgSEC SEC.SEC_RES.valid = 1 ∧
      t.toBandState = s.toBandState ∧
      t.toLineState = s.toLineState ∧
      t.toPipeState = s.toPipeState ∧
      t.toQdState = s.toQdState ∧
      t.nt = s.nt) ∧
  (∀ (s : State) (tag : Nat),
    s.live pgSEC = true →
    s.secHeld = none →
    s.on pgSPA SPA.IL_STS_SWITCHING = true →
    ∃ t, exec (.secQuote tag) s = .next t ∧
      t.secHeld = some (.quote tag) ∧
      t.quote = s.quote ∧
      t.rd pgSEC SEC.SEC_RES.valid = 0 ∧
      t.toBandState = s.toBandState ∧
      t.toLineState = s.toLineState ∧
      t.toPipeState = s.toPipeState ∧
      t.toQdState = s.toQdState ∧
      t.nt = s.nt ∧
      t.toHostState = s.toHostState) ∧
  (∀ (s : State) (tag : Nat),
    s.live pgSEC = true →
    s.secHeld = none →
    s.on pgSPA SPA.IL_STS_SWITCHING = false →
    ∃ t, exec (.secChallenge tag) s = .next t ∧
      t.challenged = true ∧
      (∀ k, k < 8 → ∃ n, t.rd pgSEC SEC.CHALLENGE_DATA k = Config.freeValue n % 2 ^ 32) ∧
      t.rd pgSEC SEC.SEC_CNT 1 = (s.rd pgSEC SEC.SEC_CNT 1 + 1) % 2 ^ 64 ∧
      t.rd pgSEC SEC.SEC_RES.status = 1 ∧
      t.rd pgSEC SEC.SEC_RES.tag = tag % 256 ∧
      t.rd pgSEC SEC.SEC_RES.valid = 1 ∧
      t.toBandState = s.toBandState ∧
      t.toLineState = s.toLineState ∧
      t.toPipeState = s.toPipeState ∧
      t.toQdState = s.toQdState ∧
      t.nt = s.nt ∧
      t.toHostState = s.toHostState) ∧
  (∀ (s : State) (tag : Nat),
    s.live pgSEC = true →
    s.secHeld = none →
    s.on pgSPA SPA.IL_STS_SWITCHING = false →
    s.challenged = false →
    ∃ t, exec (.secUnlock tag) s = .next t ∧
      t.challenged = false ∧
      t.keks = s.keks ∧
      t.factory = s.factory ∧
      t.rd pgSEC SEC.SEC_CNT 3 = (s.rd pgSEC SEC.SEC_CNT 3 + 1) % 2 ^ 64 ∧
      bit (t.rd pgSEC COMMON.INT_CAUSE_CAUSE) 2 = true ∧
      bit (t.rd pgSEC COMMON.INT_CAUSE_CAUSE) 3 = true ∧
      t.rd pgSEC SEC.SEC_RES.status = 4 ∧
      t.rd pgSEC SEC.SEC_RES.tag = tag % 256 ∧
      t.rd pgSEC SEC.SEC_RES.valid = 1 ∧
      t.rd pgSEC (SEC.SEC_RES.word 1) = 4 ∧
      t.toBandState = s.toBandState ∧
      t.toLineState = s.toLineState ∧
      t.toPipeState = s.toPipeState ∧
      t.toQdState = s.toQdState ∧
      t.nt = s.nt) ∧
  (∀ (s : State) (tag : Nat),
    s.live pgSEC = true →
    s.secHeld = none →
    s.on pgSPA SPA.IL_STS_SWITCHING = false →
    s.challenged = true →
    ∃ t, exec (.secUnlock tag) s = .next t ∧
      t.challenged = false ∧
      ((if s.tokenGood = false then t.rd pgSEC SEC.SEC_RES.status = 4 ∧ t.rd pgSEC (SEC.SEC_RES.word 1) = 2 ∧ t.factory = s.factory else if s.eraseGen = 8 then t.rd pgSEC SEC.SEC_RES.status = 4 ∧ t.rd pgSEC (SEC.SEC_RES.word 1) = 3 ∧ t.factory = s.factory else t.rd pgSEC SEC.SEC_RES.status = 1 ∧ t.factory = true ∧ t.eraseGen = s.eraseGen + 1 ∧ t.keks.length = 1 ∧ (t.sas.all (fun e => e.2.key.isEmpty && !e.2.inUse)) = true ∧ (t.ipsSas.all (fun e => e.2.key.isEmpty && !e.2.valid)) = true)) ∧
      t.toBandState = s.toBandState ∧
      t.toPipeState = s.toPipeState ∧
      t.toQdState = s.toQdState ∧
      t.nt = s.nt)

/-- The oldest strobe that waits starts its flush into the slot of its sequence number, or is skipped with cause 2 while another
runs; a flush that completes has its image in host or HBM memory, and one that fails is skipped with cause 2. A bandwidth window
that ends shows the four totals of every port, its end, its length and the next sequence number, and a new window begins. CLEAR
empties the trace buffer, DUMP writes its 128 KiB to the host or ends ERROR, ABORT ends a running dump. APPEND of an event 0x3000
to 0x3FFF writes a log entry and of another ends ERROR 1; the log dump and its abort follow the same lines, and a command while a
dump runs raises cause 3. A due gather shows every LEG entry; an alias read answers the difference from the last one. Rules
followed: R777, R778, R779, R781, R782, R788, R790, R793, R794, R795, R798, R799. -/
def Obligations.ObservabilityCommands : Prop :=
  (∀ (s : State) (q : Nat) (rest : List Nat),
    s.live pgOBS = true →
    s.shadowDue = q :: rest →
    s.shadowFlush = none →
    (s.on pgOBS OBS.FLUSH_CTL_DEST = true ∨ s.fabric = false) →
    ∃ t, exec (.obsFlush) s = .next t ∧
      t.shadowDue = rest ∧
      t.shadowFlush = some ⟨q, s.on pgOBS OBS.FLUSH_CTL_DEST, s.rd pgOBS OBS.FLUSH_BASE_LO_ADDR + s.rd pgOBS OBS.FLUSH_BASE_HI_ADDR * 2 ^ 32 + q % 2 ^ s.rd pgOBS OBS.FLUSH_CTL_SLOTS_LOG2 * 2 ^ 20, pages.flatMap (fun p => s.flushPage p)⟩ ∧
      t.rd pgOBS OBS.FLUSH_STS_BUSY = 1 ∧
      t.toBandState = s.toBandState ∧
      t.toLineState = s.toLineState ∧
      t.toPipeState = s.toPipeState ∧
      t.toQdState = s.toQdState ∧
      t.nt = s.nt ∧
      t.toHostState = s.toHostState) ∧
  (∀ (s : State) (q : Nat) (rest : List Nat) (f : ShadowFlush),
    s.live pgOBS = true →
    s.shadowDue = q :: rest →
    s.shadowFlush = some f →
    ∃ t, exec (.obsFlush) s = .next t ∧
      t.shadowDue = rest ∧
      t.shadowFlush = s.shadowFlush ∧
      t.rd pgOBS OBS.OBS_CNT 7 = (s.rd pgOBS OBS.OBS_CNT 7 + 1) % 2 ^ 64 ∧
      bit (t.rd pgOBS COMMON.INT_CAUSE_CAUSE) 2 = true ∧
      t.toBandState = s.toBandState ∧
      t.toLineState = s.toLineState ∧
      t.toPipeState = s.toPipeState ∧
      t.toQdState = s.toQdState ∧
      t.nt = s.nt) ∧
  (∀ (s : State) (f : ShadowFlush),
    s.live pgOBS = true →
    s.shadowFlush = some f →
    f.host = true →
    (s.fnS 1).sends = true →
    ∃ t, exec (.obsFlushComplete true) s = .next t ∧
      t.shadowFlush = none ∧
      t.rd pgOBS OBS.FLUSH_STS_BUSY = 0 ∧
      t.out = .hostWrite 1 f.addr f.image false :: s.out ∧
      t.rd pgOBS OBS.FLUSH_STS_LAST_SEQ = f.seq % 65536 ∧
      t.rd pgOBS OBS.OBS_CNT 6 = (s.rd pgOBS OBS.OBS_CNT 6 + 1) % 2 ^ 64 ∧
      t.toBandState = s.toBandState ∧
      t.toLineState = s.toLineState ∧
      t.toPipeState = s.toPipeState ∧
      t.toQdState = s.toQdState ∧
      t.nt = s.nt ∧
      t.toHostState = s.toHostState) ∧
  (∀ (s : State) (dmaOk : Bool) (f : ShadowFlush),
    s.live pgOBS = true →
    s.shadowFlush = some f →
    f.host = false →
    f.addr + f.image.length ≤ s.tableBytes →
    ∃ t, exec (.obsFlushComplete dmaOk) s = .next t ∧
      t.shadowFlush = none ∧
      t.rd pgOBS OBS.FLUSH_STS_BUSY = 0 ∧
      t.hbm = memSets s.hbm f.addr f.image ∧
      t.rd pgOBS OBS.FLUSH_STS_LAST_SEQ = f.seq % 65536 ∧
      t.out = s.out ∧
      t.rd pgOBS OBS.OBS_CNT 6 = (s.rd pgOBS OBS.OBS_CNT 6 + 1) % 2 ^ 64 ∧
      t.toBandState = s.toBandState ∧
      t.toLineState = s.toLineState ∧
      t.toPipeState = s.toPipeState ∧
      t.nt = s.nt ∧
      t.toHostState = s.toHostState) ∧
  (∀ (s : State) (f : ShadowFlush),
    s.live pgOBS = true →
    s.shadowFlush = some f →
    f.host = true →
    ∃ t, exec (.obsFlushComplete false) s = .next t ∧
      t.shadowFlush = none ∧
      t.rd pgOBS OBS.FLUSH_STS_BUSY = 0 ∧
      t.hbm = s.hbm ∧
      t.rd pgOBS OBS.OBS_CNT 7 = (s.rd pgOBS OBS.OBS_CNT 7 + 1) % 2 ^ 64 ∧
      bit (t.rd pgOBS COMMON.INT_CAUSE_CAUSE) 2 = true ∧
      t.toBandState = s.toBandState ∧
      t.toLineState = s.toLineState ∧
      t.toPipeState = s.toPipeState ∧
      t.toQdState = s.toQdState ∧
      t.nt = s.nt) ∧
  (∀ (s : State) (p : Nat),
    s.live pgOBS = true →
    s.on pgOBS OBS.BW_CFG_EN = true →
    s.bwDue = true →
    p < 256 →
    ∃ t, exec (.bwWindowEnd) s = .next t ∧
      t.rd pgOBS OBS.BW_RX_BYTES p = (tgetD s.bw p (0, 0, 0, 0)).1 % 2 ^ 64 ∧
      t.rd pgOBS OBS.BW_RX_FRAMES_COUNT p = (tgetD s.bw p (0, 0, 0, 0)).2.1 % 2 ^ 32 ∧
      t.rd pgOBS OBS.BW_TX_BYTES p = (tgetD s.bw p (0, 0, 0, 0)).2.2.1 % 2 ^ 64 ∧
      t.rd pgOBS OBS.BW_TX_FRAMES_COUNT p = (tgetD s.bw p (0, 0, 0, 0)).2.2.2 % 2 ^ 32 ∧
      t.rd pgOBS OBS.BW_SEQ_SEQ = (s.rd pgOBS OBS.BW_SEQ_SEQ + 1) % 2 ^ 32 ∧
      t.rd pgOBS OBS.BW_LEN_US = usOf (s.ticks - s.bwFrom) % 2 ^ 20 ∧
      t.bw = [] ∧
      t.bwFrom = s.ticks ∧
      t.bwUs = s.rd pgOBS OBS.BW_CFG_WINDOW_US ∧
      t.toBandState = s.toBandState ∧
      t.toLineState = s.toLineState ∧
      t.toPipeState = s.toPipeState ∧
      t.toQdState = s.toQdState ∧
      t.nt = s.nt ∧
      t.toHostState = s.toHostState) ∧
  (∀ (s : State) (tag : Nat),
    s.live pgOBS = true →
    s.traceRun = none →
    ∃ t, exec (.traceClear tag) s = .next t ∧
      t.trace = [] ∧
      t.traceAt = 0 ∧
      t.rd pgOBS OBS.TRACE_STS_COUNT = 0 ∧
      t.rd pgOBS OBS.TRACE_STS_STOPPED = 0 ∧
      t.rd pgOBS OBS.OBS_RES.status = 1 ∧
      t.rd pgOBS OBS.OBS_RES.tag = tag % 256 ∧
      t.rd pgOBS OBS.OBS_RES.valid = 1 ∧
      t.toBandState = s.toBandState ∧
      t.toLineState = s.toLineState ∧
      t.toPipeState = s.toPipeState ∧
      t.toQdState = s.toQdState ∧
      t.nt = s.nt ∧
      t.toHostState = s.toHostState) ∧
  (∀ (s : State) (tag : Nat),
    s.live pgOBS = true →
    s.traceRun = none →
    (s.fnS 1).sends = true →
    ∃ t, exec (.traceDump tag .written) s = .next t ∧
      t.out = .hostWrite 1 s.traceDumpAt ((List.range 4096).flatMap (fun i => leWordsToBytes (s.traceWords i))) false :: s.out ∧
      t.traceRun = none ∧
      t.trace = s.trace ∧
      t.rd pgOBS OBS.OBS_RES.status = 1 ∧
      t.rd pgOBS OBS.OBS_RES.tag = tag % 256 ∧
      t.rd pgOBS OBS.OBS_RES.valid = 1 ∧
      t.toBandState = s.toBandState ∧
      t.toLineState = s.toLineState ∧
      t.toPipeState = s.toPipeState ∧
      t.toQdState = s.toQdState ∧
      t.nt = s.nt ∧
      t.toHostState = s.toHostState) ∧
  (∀ (s : State) (tag : Nat),
    s.live pgOBS = true →
    s.traceRun = none →
    ∃ t, exec (.traceDump tag .hostError) s = .next t ∧
      t.traceRun = none ∧
      t.out = s.out ∧
      t.rd pgOBS OBS.OBS_RES.status = 4 ∧
      t.rd pgOBS OBS.OBS_RES.tag = tag % 256 ∧
      t.rd pgOBS OBS.OBS_RES.valid = 1 ∧
      t.toBandState = s.toBandState ∧
      t.toLineState = s.toLineState ∧
      t.toPipeState = s.toPipeState ∧
      t.toQdState = s.toQdState ∧
      t.nt = s.nt ∧
      t.toHostState = s.toHostState) ∧
  (∀ (s : State) (tag : Nat),
    s.live pgOBS = true →
    s.traceRun = none →
    ∃ t, exec (.traceDump tag .running) s = .next t ∧
      t.traceRun = some { tag := tag, addr := s.traceDumpAt } ∧
      t.rd pgOBS OBS.OBS_RES.valid = 0 ∧
      t.toBandState = s.toBandState ∧
      t.toLineState = s.toLineState ∧
      t.toPipeState = s.toPipeState ∧
      t.toQdState = s.toQdState ∧
      t.nt = s.nt ∧
      t.toHostState = s.toHostState) ∧
  (∀ (s : State) (n tag : Nat) (r : DumpRun),
    s.live pgOBS = true →
    s.traceRun = some r →
    tag = r.tag →
    ∃ t, exec (.traceAbort n) s = .next t ∧
      t.traceRun = none ∧
      t.out = s.out ∧
      t.rd pgOBS OBS.OBS_RES.status = 2 ∧
      t.rd pgOBS OBS.OBS_RES.tag = tag % 256 ∧
      t.rd pgOBS OBS.OBS_RES.valid = 1 ∧
      t.toBandState = s.toBandState ∧
      t.toLineState = s.toLineState ∧
      t.toPipeState = s.toPipeState ∧
      t.toQdState = s.toQdState ∧
      t.nt = s.nt ∧
      t.toHostState = s.toHostState) ∧
  (∀ (s : State) (tag : Nat),
    s.live pgLOG = true →
    s.logRun = none →
    s.domOn 1 = true →
    (s.rd pgLOG LOG.APPEND_W_WORD 0 % 65536) / 4096 = 3 →
    ∃ t, exec (.logAppend tag) s = .next t ∧
      t.log = tset s.log (s.rd pgLOG LOG.HEAD_SEQ_SEQ % 8192) { ns := s.nt.ns, sec := s.nt.sec % 2 ^ 32, secHi := s.nt.sec / 2 ^ 32, page := pageCode .log, inst := 0, source := 3, event := s.rd pgLOG LOG.APPEND_W_WORD 0 % 65536, sev := 0, ntValid := s.on pgNTM NTM.NTM_STS_VALID, arg0 := s.rd pgLOG LOG.APPEND_W_WORD 1, arg1 := s.rd pgLOG LOG.APPEND_W_WORD 2, seq := s.rd pgLOG LOG.HEAD_SEQ_SEQ } ∧
      t.rd pgLOG LOG.HEAD_SEQ_SEQ = (s.rd pgLOG LOG.HEAD_SEQ_SEQ + 1) % 2 ^ 32 ∧
      t.rd pgLOG LOG.LOG_RES.status = 1 ∧
      t.rd pgLOG LOG.LOG_RES.tag = tag % 256 ∧
      t.rd pgLOG LOG.LOG_RES.valid = 1 ∧
      t.toBandState = s.toBandState ∧
      t.toLineState = s.toLineState ∧
      t.toPipeState = s.toPipeState ∧
      t.toQdState = s.toQdState ∧
      t.nt = s.nt ∧
      t.toHostState = s.toHostState ∧
      t.toMgmtState = s.toMgmtState) ∧
  (∀ (s : State) (tag : Nat),
    s.live pgLOG = true →
    s.logRun = none →
    (s.rd pgLOG LOG.APPEND_W_WORD 0 % 65536) / 4096 ≠ 3 →
    ∃ t, exec (.logAppend tag) s = .next t ∧
      t.log = s.log ∧
      t.rd pgLOG (LOG.LOG_RES.word 1) = 1 ∧
      t.rd pgLOG LOG.LOG_RES.status = 4 ∧
      t.rd pgLOG LOG.LOG_RES.tag = tag % 256 ∧
      t.rd pgLOG LOG.LOG_RES.valid = 1 ∧
      t.toBandState = s.toBandState ∧
      t.toLineState = s.toLineState ∧
      t.toPipeState = s.toPipeState ∧
      t.toQdState = s.toQdState ∧
      t.nt = s.nt ∧
      t.toHostState = s.toHostState ∧
      t.toMgmtState = s.toMgmtState) ∧
  (∀ (s : State) (tag : Nat),
    s.live pgLOG = true →
    s.logRun = none →
    s.domOn 1 = false →
    (s.rd pgLOG LOG.APPEND_W_WORD 0 % 65536) / 4096 = 3 →
    ∃ t, exec (.logAppend tag) s = .next t ∧
      t.log = s.log ∧
      t.rd pgLOG LOG.LOST_COUNT = (s.rd pgLOG LOG.LOST_COUNT + 1) % 2 ^ 32 ∧
      t.rd pgLOG LOG.LOG_RES.status = 1 ∧
      t.rd pgLOG LOG.LOG_RES.tag = tag % 256 ∧
      t.rd pgLOG LOG.LOG_RES.valid = 1 ∧
      t.toBandState = s.toBandState ∧
      t.toLineState = s.toLineState ∧
      t.toPipeState = s.toPipeState ∧
      t.toQdState = s.toQdState ∧
      t.nt = s.nt ∧
      t.toMgmtState = s.toMgmtState) ∧
  (∀ (s : State) (tag : Nat) (r : DumpRun),
    s.live pgLOG = true →
    s.logRun = some r →
    ∃ t, exec (.logAppend tag) s = .next t ∧
      t.logRun = s.logRun ∧
      bit (t.rd pgLOG COMMON.INT_CAUSE_CAUSE) 3 = true ∧
      t.toBandState = s.toBandState ∧
      t.toLineState = s.toLineState ∧
      t.toPipeState = s.toPipeState ∧
      t.toQdState = s.toQdState ∧
      t.nt = s.nt) ∧
  (∀ (s : State) (tag : Nat),
    s.live pgLOG = true →
    s.logRun = none →
    (s.fnS 1).sends = true →
    ∃ t, exec (.logDump tag .written) s = .next t ∧
      t.out = .hostWrite 1 (s.rd pgLOG LOG.DUMP_ADDR_LO + s.rd pgLOG LOG.DUMP_ADDR_HI * 2 ^ 32) ((List.range (s.rd pgLOG LOG.LOG_STS_COUNT)).flatMap (fun k => leWordsToBytes (s.logWords ((s.logFirst + k) % 8192)))) false :: s.out ∧
      t.logRun = none ∧
      t.log = s.log ∧
      t.rd pgLOG (LOG.LOG_RES.word 1) = s.rd pgLOG LOG.LOG_STS_COUNT % 2 ^ 32 ∧
      t.rd pgLOG (LOG.LOG_RES.word 2) = s.logFirst ∧
      t.rd pgLOG LOG.LOG_RES.status = 1 ∧
      t.rd pgLOG LOG.LOG_RES.tag = tag % 256 ∧
      t.rd pgLOG LOG.LOG_RES.valid = 1 ∧
      t.toBandState = s.toBandState ∧
      t.toLineState = s.toLineState ∧
      t.toPipeState = s.toPipeState ∧
      t.toQdState = s.toQdState ∧
      t.nt = s.nt ∧
      t.toHostState = s.toHostState) ∧
  (∀ (s : State) (tag : Nat),
    s.live pgLOG = true →
    s.logRun = none →
    ∃ t, exec (.logDump tag .hostError) s = .next t ∧
      t.logRun = none ∧
      t.log = s.log ∧
      t.rd pgLOG (LOG.LOG_RES.word 1) = 2 ∧
      t.rd pgLOG LOG.LOG_RES.status = 4 ∧
      t.rd pgLOG LOG.LOG_RES.tag = tag % 256 ∧
      t.rd pgLOG LOG.LOG_RES.valid = 1 ∧
      t.toBandState = s.toBandState ∧
      t.toLineState = s.toLineState ∧
      t.toPipeState = s.toPipeState ∧
      t.toQdState = s.toQdState ∧
      t.nt = s.nt ∧
      t.toHostState = s.toHostState) ∧
  (∀ (s : State) (tag : Nat),
    s.live pgLOG = true →
    s.logRun = none →
    ∃ t, exec (.logDump tag .running) s = .next t ∧
      t.logRun = some { tag := tag, addr := (s.rd pgLOG LOG.DUMP_ADDR_LO + s.rd pgLOG LOG.DUMP_ADDR_HI * 2 ^ 32), count := s.rd pgLOG LOG.LOG_STS_COUNT, first := s.logFirst } ∧
      t.log = s.log ∧
      t.rd pgLOG LOG.LOG_RES.valid = 0 ∧
      t.toBandState = s.toBandState ∧
      t.toLineState = s.toLineState ∧
      t.toPipeState = s.toPipeState ∧
      t.toQdState = s.toQdState ∧
      t.nt = s.nt ∧
      t.toHostState = s.toHostState) ∧
  (∀ (s : State) (n tag : Nat) (r : DumpRun),
    s.live pgLOG = true →
    s.logRun = some r →
    tag = r.tag →
    ∃ t, exec (.logAbort n) s = .next t ∧
      t.logRun = none ∧
      t.log = s.log ∧
      t.rd pgLOG LOG.LOG_RES.status = 2 ∧
      t.rd pgLOG LOG.LOG_RES.tag = tag % 256 ∧
      t.rd pgLOG LOG.LOG_RES.valid = 1 ∧
      t.toBandState = s.toBandState ∧
      t.toLineState = s.toLineState ∧
      t.toPipeState = s.toPipeState ∧
      t.toQdState = s.toQdState ∧
      t.nt = s.nt ∧
      t.toHostState = s.toHostState) ∧
  (∀ (s : State) (late : Bool) (k d : Nat),
    s.live pgLEG = true →
    s.on pgLEG LEG.LEG_CTL_EN = true →
    s.legAt.all (fun n => decide (n + ticksUs (s.rd pgLEG LEG.LEG_CTL_GATHER_US) ≤ s.ticks)) = true →
    k < 2048 →
    d < 16 →
    ∃ t, exec (.legGather late) s = .next t ∧
      t.rd pgLEG LEG.PORT_CNT_COUNT k = s.legPort (k / 8) (k % 8) % 2 ^ 32 ∧
      t.rd pgLEG LEG.DEV_CNT_COUNT d = s.legDev d % 2 ^ 32 ∧
      t.legAt = some s.ticks ∧
      t.rd pgLEG LEG.GATHER_SEQ_SEQ = (s.rd pgLEG LEG.GATHER_SEQ_SEQ + 1) % 2 ^ 32 ∧
      (late = true → bit (t.rd pgLEG COMMON.INT_CAUSE_CAUSE) 0 = true) ∧
      t.toBandState = s.toBandState ∧
      t.toLineState = s.toLineState ∧
      t.toPipeState = s.toPipeState ∧
      t.toQdState = s.toQdState ∧
      t.nt = s.nt) ∧
  (∀ (s : State) (who entry : Nat),
    s.live pgLEG = true →
    entry < 2064 →
    ∃ t, exec (.legAliasRead who entry) s = .next t ∧
      t.out = .readData who pgLEG (if entry < 2048 then 0xC000 + 4 * entry else 0xE000 + 4 * (entry - 2048)) ((s.legEntry entry + 2 ^ 32 - tgetD s.legSeen entry 0) % 2 ^ 32) :: s.out ∧
      t.legSeen = tset s.legSeen entry (s.legEntry entry) ∧
      t.toBandState = s.toBandState ∧
      t.toLineState = s.toLineState ∧
      t.toPipeState = s.toPipeState ∧
      t.toQdState = s.toQdState ∧
      t.nt = s.nt ∧
      t.toHostState = s.toHostState)

/-- At a slot that receives: a whole frame that is marked by an uncorrectable codeword, runt, oversize or of bad FCS is counted in
its counter and dropped; a good one is counted with its bytes; a PAUSE or PFC frame is consumed; without MACsec another joins the
ingress hold, or is dropped with RX_DROP_HOLD and cause 3 where MAX_FRAME bytes are not free. The first fragment of a preempted
frame is kept, a middle one added, and one out of sequence drops it. An egress pipeline drops poisoned data with cause 1, and a
frame without rewrite passes with its bytes to its MAC queue or the host. A frame taken to send leaves whole, padded nowhere, with
the FCS it came with or a new one, counted; a bad one is dropped before its first bit or leaves with its FCS inverted. Rules
followed: R91, R92, R93, R110, R115, R116, R117, R118, R120, R121, R241, R874. -/
def Obligations.PortFrames : Prop :=
  (∀ (s : State) (slot fcs n : Nat) (bytes : List Byte) (errs : List Nat),
    s.macHears slot = true →
    s.slotLooped slot = false →
    s.rxFault slot bytes fcs (errs.any fun m => s.fecMarks slot m) = some n →
    ∃ t, exec (.macRxFrame slot .whole bytes fcs errs false) s = .next t ∧
      (n = if (errs.any fun m => s.fecMarks slot m) = true then 5 else if bytes.length + 4 < 64 then 3 else if s.rd (msc slot) MSC.MAC_CTL_MAX_FRAME (slot % 16) < bytes.length + 4 then 4 else 2) ∧
      t.rd (msc slot) MSC.PORT_CNT ((slot % 16) * 32 + n) = (s.rd (msc slot) MSC.PORT_CNT ((slot % 16) * 32 + n) + 1) % 2 ^ 64 ∧
      t.ingress = s.ingress ∧
      t.piped = s.piped ∧
      t.toQd = s.toQd ∧
      t.toQdState = s.toQdState ∧
      t.toHostState = s.toHostState ∧
      t.nt = s.nt) ∧
  (∀ (s : State) (slot fcs : Nat) (bytes : List Byte) (errs : List Nat),
    s.macHears slot = true →
    s.slotLooped slot = false →
    s.rxFault slot bytes fcs (errs.any fun m => s.fecMarks slot m) = none →
    etherTypeAt bytes 12 = 0x8808 →
    (beAt bytes 14 2 = 1 ∨ beAt bytes 14 2 = 0x0101) →
    ∃ t, exec (.macRxFrame slot .whole bytes fcs errs false) s = .next t ∧
      t.rd (msc slot) MSC.PORT_CNT ((slot % 16) * 32 + 0) = (s.rd (msc slot) MSC.PORT_CNT ((slot % 16) * 32 + 0) + 1) % 2 ^ 64 ∧
      t.rd (msc slot) MSC.PORT_CNT ((slot % 16) * 32 + 1) = (s.rd (msc slot) MSC.PORT_CNT ((slot % 16) * 32 + 1) + (bytes.length + 4)) % 2 ^ 64 ∧
      t.ingress = s.ingress ∧
      t.piped = s.piped ∧
      t.toQd = s.toQd ∧
      t.toQdState = s.toQdState ∧
      t.toHostState = s.toHostState) ∧
  (∀ (s : State) (slot fcs : Nat) (bytes : List Byte) (errs : List Nat),
    s.macHears slot = true →
    s.slotLooped slot = false →
    s.rxFault slot bytes fcs (errs.any fun m => s.fecMarks slot m) = none →
    etherTypeAt bytes 12 ≠ 0x8808 →
    s.on (msc slot) MSC.SEC_CTL_RX_EN (slot % 16) = false →
    s.holdUsed + s.rd (msc slot) MSC.MAC_CTL_MAX_FRAME (slot % 16) ≤ 4194304 →
    ∃ t, exec (.macRxFrame slot .whole bytes fcs errs false) s = .next t ∧
      t.rd (msc slot) MSC.PORT_CNT ((slot % 16) * 32 + 0) = (s.rd (msc slot) MSC.PORT_CNT ((slot % 16) * 32 + 0) + 1) % 2 ^ 64 ∧
      t.rd (msc slot) MSC.PORT_CNT ((slot % 16) * 32 + 1) = (s.rd (msc slot) MSC.PORT_CNT ((slot % 16) * 32 + 1) + (bytes.length + 4)) % 2 ^ 64 ∧
      t.ingress.dropLast = s.ingress ∧
      t.ingress.getLast?.map (fun f => (f.bytes, f.fcs, f.ctx, f.port, f.fcsGood, f.cut)) = some (bytes, fcs % 2 ^ 32, slot, slot, true, false) ∧
      t.piped = s.piped ∧
      t.toQdState = s.toQdState ∧
      t.toHostState = s.toHostState) ∧
  (∀ (s : State) (slot fcs : Nat) (bytes : List Byte) (errs : List Nat),
    s.macHears slot = true →
    s.slotLooped slot = false →
    s.rxFault slot bytes fcs (errs.any fun m => s.fecMarks slot m) = none →
    etherTypeAt bytes 12 ≠ 0x8808 →
    s.on (msc slot) MSC.SEC_CTL_RX_EN (slot % 16) = false →
    4194304 < s.holdUsed + s.rd (msc slot) MSC.MAC_CTL_MAX_FRAME (slot % 16) →
    ∃ t, exec (.macRxFrame slot .whole bytes fcs errs false) s = .next t ∧
      t.rd (msc slot) MSC.PORT_CNT ((slot % 16) * 32 + 0) = (s.rd (msc slot) MSC.PORT_CNT ((slot % 16) * 32 + 0) + 1) % 2 ^ 64 ∧
      t.rd (msc slot) MSC.PORT_CNT ((slot % 16) * 32 + 1) = (s.rd (msc slot) MSC.PORT_CNT ((slot % 16) * 32 + 1) + (bytes.length + 4)) % 2 ^ 64 ∧
      t.rd (msc slot) MSC.PORT_CNT ((slot % 16) * 32 + 8) = (s.rd (msc slot) MSC.PORT_CNT ((slot % 16) * 32 + 8) + 1) % 2 ^ 64 ∧
      bit (t.rd (msc slot) COMMON.INT_CAUSE_CAUSE) 3 = true ∧
      t.ingress = s.ingress ∧
      t.piped = s.piped ∧
      t.toQd = s.toQd ∧
      t.toQdState = s.toQdState ∧
      t.toHostState = s.toHostState) ∧
  (∀ (s : State) (slot fcs : Nat) (bytes : List Byte) (errs : List Nat) (cut : Bool),
    s.macHears slot = true →
    s.slotLooped slot = false →
    (s.mac slot).partial_ = none →
    ∃ t, exec (.macRxFrame slot .first bytes fcs errs cut) s = .next t ∧
      (t.mac slot).partial_ = some (bytes, s.rxTime slot, (errs.any fun m => s.fecMarks slot m)) ∧
      t.ingress = s.ingress ∧
      t.piped = s.piped ∧
      t.toQd = s.toQd ∧
      t.toQdState = s.toQdState ∧
      t.toHostState = s.toHostState ∧
      t.toPipeState = s.toPipeState ∧
      t.toMgmtState = s.toMgmtState) ∧
  (∀ (s : State) (slot fcs : Nat) (bytes : List Byte) (errs : List Nat) (cut k : Bool) (l : List Byte) (n : NetTime),
    s.macHears slot = true →
    s.slotLooped slot = false →
    (s.mac slot).partial_ = some (l, n, k) →
    ∃ t, exec (.macRxFrame slot (.middle true) bytes fcs errs cut) s = .next t ∧
      (t.mac slot).partial_ = some (l ++ bytes, n, k || (errs.any fun m => s.fecMarks slot m)) ∧
      t.ingress = s.ingress ∧
      t.piped = s.piped ∧
      t.toQd = s.toQd ∧
      t.toQdState = s.toQdState ∧
      t.toHostState = s.toHostState ∧
      t.toPipeState = s.toPipeState ∧
      t.toMgmtState = s.toMgmtState) ∧
  (∀ (s : State) (slot fcs : Nat) (bytes : List Byte) (errs : List Nat) (cut : Bool),
    s.macHears slot = true →
    s.slotLooped slot = false →
    ∃ t, exec (.macRxFrame slot (.last false) bytes fcs errs cut) s = .next t ∧
      (t.mac slot).partial_ = none ∧
      t.rd (msc slot) MSC.PORT_CNT ((slot % 16) * 32 + 15) = (s.rd (msc slot) MSC.PORT_CNT ((slot % 16) * 32 + 15) + 1) % 2 ^ 64 ∧
      t.ingress = s.ingress ∧
      t.piped = s.piped ∧
      t.toQd = s.toQd ∧
      t.toQdState = s.toQdState ∧
      t.toHostState = s.toHostState) ∧
  (∀ (s : State) (marks i : Nat) (f : Frame) (rest : List Frame),
    s.toFd = f :: rest →
    s.pickEpp = some i →
    s.bandUp = true →
    s.isHostPort f.outPort = false →
    ∃ t, exec (.eppDeal true marks) s = .next t ∧
      t.toFd = rest ∧
      t.nextEpp = (i + 1) % 20 ∧
      t.rd (pgEPP i) EPP.FRAMES = (s.rd (pgEPP i) EPP.FRAMES + 1) % 2 ^ 64 ∧
      t.rd (pgEPP i) EPP.POISON_DROP = (s.rd (pgEPP i) EPP.POISON_DROP + 1) % 2 ^ 64 ∧
      bit (t.rd (pgEPP i) COMMON.INT_CAUSE_CAUSE) 1 = true ∧
      (t.mac f.outPort).txq = (s.mac f.outPort).txq ∧
      t.hostRx = s.hostRx ∧
      t.nt = s.nt) ∧
  (∀ (s : State) (marks i : Nat) (f : Frame) (rest : List Frame),
    s.toFd = f :: rest →
    s.pickEpp = some i →
    s.bandUp = true →
    f.poison = false →
    f.err = false →
    f.fcsGood = true →
    f.rewrite = noRewrite →
    f.ce = false →
    s.isHostPort f.outPort = false →
    s.live (msc f.outPort) = true →
    ∃ t, exec (.eppDeal false marks) s = .next t ∧
      t.toFd = rest ∧
      t.nextEpp = (i + 1) % 20 ∧
      t.rd (pgEPP i) EPP.FRAMES = (s.rd (pgEPP i) EPP.FRAMES + 1) % 2 ^ 64 ∧
      (t.mac f.outPort).txq = lset (s.mac f.outPort).txq f.macq ((s.mac f.outPort).txq.getD f.macq [] ++ [{ f with ofl := 0, oflArg := 0, ptp := marks % 8 }]) ∧
      t.hostRx = s.hostRx ∧
      t.nt = s.nt) ∧
  (∀ (s : State) (marks i : Nat) (f : Frame) (rest : List Frame),
    s.toFd = f :: rest →
    s.pickEpp = some i →
    s.bandUp = true →
    f.poison = false →
    f.err = false →
    f.fcsGood = true →
    f.rewrite = noRewrite →
    f.ce = false →
    s.isHostPort f.outPort = true →
    f.nhType = 3 →
    ∃ t, exec (.eppDeal false marks) s = .next t ∧
      t.toFd = rest ∧
      t.hostRx = s.hostRx ++ [{ f with ofl := 0, oflArg := 0, ptp := marks % 8 }] ∧
      t.macs = s.macs ∧
      t.nt = s.nt) ∧
  (∀ (s : State) (slot : Nat) (f : Frame),
    s.macSends slot = true →
    (s.mac slot).sending = [f] →
    (s.mac slot).cutTx = none →
    f.err = false →
    f.csumIns = none →
    s.on (msc slot) MSC.PTP_CTL_ONE_STEP_EN (slot % 16) = false →
    s.on (msc slot) MSC.SEC_CTL_TX_EN (slot % 16) = false →
    60 ≤ f.bytes.length →
    f.bytes.length + 4 ≤ s.rd (msc slot) MSC.MAC_CTL_MAX_FRAME (slot % 16) →
    bit f.ptp 2 = false →
    (s.phyLanes slot).all (fun l => s.laneSends l) = true →
    s.slotLooped slot = false →
    f.fcsGood = true →
    ∃ t, exec (.macTxFrame slot) s = .next t ∧
      Out.txFrame slot f.bytes (if f.modified then crc32 f.bytes else f.fcs) ∈ t.out ∧
      (t.mac slot).sending = [] ∧
      (t.mac slot).cutTx = none ∧
      t.rd (msc slot) MSC.PORT_CNT ((slot % 16) * 32 + 16) = (s.rd (msc slot) MSC.PORT_CNT ((slot % 16) * 32 + 16) + 1) % 2 ^ 64 ∧
      t.rd (msc slot) MSC.PORT_CNT ((slot % 16) * 32 + 17) = (s.rd (msc slot) MSC.PORT_CNT ((slot % 16) * 32 + 17) + (f.bytes.length + 4)) % 2 ^ 64 ∧
      t.nt = s.nt) ∧
  (∀ (s : State) (slot : Nat) (f : Frame),
    s.macSends slot = true →
    (s.mac slot).sending = [f] →
    (s.mac slot).cutTx = none →
    f.err = false →
    f.csumIns = none →
    s.on (msc slot) MSC.PTP_CTL_ONE_STEP_EN (slot % 16) = false →
    s.on (msc slot) MSC.SEC_CTL_TX_EN (slot % 16) = false →
    60 ≤ f.bytes.length →
    f.bytes.length + 4 ≤ s.rd (msc slot) MSC.MAC_CTL_MAX_FRAME (slot % 16) →
    bit f.ptp 2 = false →
    (s.phyLanes slot).all (fun l => s.laneSends l) = true →
    s.slotLooped slot = false →
    f.fcsGood = false →
    ∃ t, exec (.macTxFrame slot) s = .next t ∧
      (t.mac slot).sending = [] ∧
      (t.mac slot).cutTx = none ∧
      (if Config.freeValue s.free % 2 = 1 then t.out = s.out else (Out.txFrame slot f.bytes (Nat.xor (crc32 f.bytes) 0xFFFFFFFF) ∈ t.out ∧ t.rd (msc slot) MSC.PORT_CNT ((slot % 16) * 32 + 16) = (s.rd (msc slot) MSC.PORT_CNT ((slot % 16) * 32 + 16) + 1) % 2 ^ 64 ∧ t.rd (msc slot) MSC.PORT_CNT ((slot % 16) * 32 + 17) = (s.rd (msc slot) MSC.PORT_CNT ((slot % 16) * 32 + 17) + (f.bytes.length + 4)) % 2 ^ 64 ∧ t.rd (msc slot) MSC.PORT_CNT ((slot % 16) * 32 + 20) = (s.rd (msc slot) MSC.PORT_CNT ((slot % 16) * 32 + 20) + 1) % 2 ^ 64)) ∧
      t.nt = s.nt)

/-- The dealer gives the oldest frame of the ingress hold the next number of its context and the next pipeline in rotation, and
waits where dealing may not go on. A parked frame whose reads have returned goes on with its results: a poisoned row drops it with
LKP cause 3; an exact-match hit with a valid next hop resolves to it. A range search ends in a drop for a parity error with cause
1, a miss under MISS_DROP or a winner that drops, and passes a winner for the host. A scan ends with its result counted. At ORD a
result in order goes to the queueing die, a drop token ends, a result ahead is held, one outside the window is dropped with cause
1; a gap that reached its time is skipped with cause 0. Rules followed: R94, R239, R240, R244, R246, R247, R261, R269, R271, R289,
R330, R335. -/
def Obligations.PipelineFrames : Prop :=
  (∀ (s : State) (f : Frame) (rest : List Frame) (i : Nat),
    s.ingress = f :: rest →
    s.pickIpp = some i →
    s.mayDeal = true →
    ∃ t, exec (.dealFrame) s = .next t ∧
      (t.ctx f.ctx).deal = ((s.ctx f.ctx).deal + 1) % 65536 ∧
      t.nextIpp = (i + 1) % 20 ∧
      t.ingress = rest) ∧
  (∀ (s : State) (f : Frame) (rest : List Frame) (i : Nat),
    s.ingress = f :: rest →
    s.pickIpp = some i →
    s.mayDeal = true →
    s.enabled pgPRS = false →
    ∃ t, exec (.dealFrame) s = .next t ∧
      (t.ctx f.ctx).deal = ((s.ctx f.ctx).deal + 1) % 65536 ∧
      t.nextIpp = (i + 1) % 20 ∧
      t.ingress = rest ∧
      t.piped.dropLast = s.piped ∧
      t.piped.getLast?.map (fun x => (x.pipe, x.drop, x.frame.seq, x.frame.bytes)) = some (i, true, (s.ctx f.ctx).deal, f.bytes)) ∧
  (∀ (s : State) (f : Frame) (rest : List Frame) (i : Nat),
    s.ingress = f :: rest →
    s.pickIpp = some i →
    s.mayDeal = false →
    ∃ t, exec (.dealFrame) s = .next t ∧
      t = s) ∧
  (∀ (s : State) (ctx seq : Nat) (x : Piped) (rest : List Piped),
    s.piped = x :: rest →
    x.frame.ctx = ctx →
    x.frame.seq = seq →
    (x.stage = .park1 ∨ x.stage = .park2) →
    rest.all (fun y => decide (y.stage ≠ .full1) && decide (y.stage ≠ .full2)) = true →
    s.bandUp = true →
    s.readsOut (s.parkReads x) = true →
    ∃ t, exec (.parkResume ctx seq true) s = .next t ∧
      t.piped = rest ++ [{ x with frame := { x.frame with aux := [] }, stage := .ready, drop := true, exm := none }] ∧
      bit (t.rd pgLKP COMMON.INT_CAUSE_CAUSE) 3 = true ∧
      t.ords = s.ords ∧
      t.toQd = s.toQd ∧
      t.nt = s.nt ∧
      t.toHostState = s.toHostState) ∧
  (∀ (s : State) (ctx seq : Nat) (x : Piped) (rest : List Piped) (p : Bool),
    s.piped = x :: rest →
    x.frame.ctx = ctx →
    x.frame.seq = seq →
    s.bandUp = false →
    ∃ t, exec (.parkResume ctx seq p) s = .next t ∧
      t = s) ∧
  (∀ (s : State) (ctx seq : Nat) (x : Piped) (rest : List Piped) (nh : Nat) (w : List Nat),
    s.piped = x :: rest →
    x.frame.ctx = ctx →
    x.frame.seq = seq →
    x.stage = .park2 →
    rest.all (fun y => decide (y.stage ≠ .full1) && decide (y.stage ≠ .full2)) = true →
    s.bandUp = true →
    s.readsOut (s.parkReads x) = true →
    s.readsFail (s.parkReads x) = false →
    s.lpmDead x.frame (x.frame.aux.drop 4) = false →
    bit (x.frame.act.getD 1 0) 31 = false →
    x.exm = some (some nh) →
    s.enabled pgNHP = true →
    s.on pgNHP NHP.NHP_CTL_EN = true →
    s.hopDead x.frame nh = false →
    w = s.rowAt x.frame.epoch 24 false nh →
    nhBad w = false →
    bits (w.getD 0 0) 0 3 ≠ 4 →
    x.frame.tooLong w = false →
    s.on pgPMM PMM.PMM_STS_BP = false →
    bit (x.frame.act.getD 0 0) 4 = false →
    ∃ t, exec (.parkResume ctx seq false) s = .next t ∧
      t.piped = rest ++ [{ x with frame := { x.frame.take w with aux := [] }, stage := .ready, drop := false, exm := none }] ∧
      t.rd pgNHP NHP.NHP_CNT 0 = (s.rd pgNHP NHP.NHP_CNT 0 + 1) % 2 ^ 64 ∧
      t.ords = s.ords ∧
      t.toQd = s.toQd ∧
      t.nt = s.nt ∧
      t.toHostState = s.toHostState) ∧
  (∀ (s : State) (x : Piped) (rest : List Piped) (b u : Nat),
    s.piped = x :: rest →
    x.stage = .search →
    s.rsuBad x.frame (some (b, u)) = some (b, u) →
    ∃ t, exec (.rsuSearchResult (some (b, u))) s = .next t ∧
      t.piped = rest ++ [{ x with frame := { x.frame with aux := [] }, stage := .ready, drop := true, exm := none }] ∧
      t.rd (pgRSU 0) RSU.RSU_GCNT 0 = (s.rd (pgRSU 0) RSU.RSU_GCNT 0 + 1) % 2 ^ 64 ∧
      t.rd (pgRSU 0) RSU.RSU_GCNT 4 = (s.rd (pgRSU 0) RSU.RSU_GCNT 4 + 1) % 2 ^ 64 ∧
      bit (t.rd (pgRSU 0) COMMON.INT_CAUSE_CAUSE) 1 = true ∧
      b * 8192 + u ∈ t.rsuDead ∧
      t.nt = s.nt ∧
      t.toHostState = s.toHostState ∧
      t.toQdState = s.toQdState) ∧
  (∀ (s : State) (x : Piped) (rest : List Piped),
    s.piped = x :: rest →
    x.stage = .search →
    s.rsuBad x.frame none = none →
    rsuWinner (s.rsuHits x.frame) = [] →
    s.on (pgRSU 0) RSU.PROF_CFG_MISS_DROP x.frame.rsuProf = true →
    ∃ t, exec (.rsuSearchResult none) s = .next t ∧
      t.piped = rest ++ [{ x with frame := { x.frame with aux := [] }, stage := .ready, drop := true, exm := none }] ∧
      t.rd (pgRSU 0) RSU.RSU_GCNT 0 = (s.rd (pgRSU 0) RSU.RSU_GCNT 0 + 1) % 2 ^ 64 ∧
      t.rd (pgRSU 0) RSU.RSU_GCNT 2 = (s.rd (pgRSU 0) RSU.RSU_GCNT 2 + 1) % 2 ^ 64 ∧
      t.rd (pgRSU 0) RSU.RSU_GCNT 7 = (s.rd (pgRSU 0) RSU.RSU_GCNT 7 + 1) % 2 ^ 64 ∧
      t.nt = s.nt ∧
      t.toHostState = s.toHostState ∧
      t.toQdState = s.toQdState) ∧
  (∀ (s : State) (x : Piped) (rest : List Piped) (a : Nat) (e : RsuEntry),
    s.piped = x :: rest →
    x.stage = .search →
    s.rsuBad x.frame none = none →
    rsuWinner (s.rsuHits x.frame) = [(a, e)] →
    bit e.act 25 = true →
    ∃ t, exec (.rsuSearchResult none) s = .next t ∧
      t.piped = rest ++ [{ x with frame := { x.frame with aux := [] }, stage := .ready, drop := true, exm := none }] ∧
      t.rd (pgRSU 0) RSU.RSU_GCNT 0 = (s.rd (pgRSU 0) RSU.RSU_GCNT 0 + 1) % 2 ^ 64 ∧
      t.rd (pgRSU 0) RSU.RSU_GCNT 1 = (s.rd (pgRSU 0) RSU.RSU_GCNT 1 + 1) % 2 ^ 64 ∧
      t.rd (pgRSU 0) RSU.RSU_GCNT 7 = (s.rd (pgRSU 0) RSU.RSU_GCNT 7 + 1) % 2 ^ 64 ∧
      t.nt = s.nt ∧
      t.toHostState = s.toHostState ∧
      t.toQdState = s.toQdState) ∧
  (∀ (s : State) (x : Piped) (rest : List Piped) (a : Nat) (e : RsuEntry),
    s.piped = x :: rest →
    x.stage = .search →
    s.rsuBad x.frame none = none →
    rsuWinner (s.rsuHits x.frame) = [(a, e)] →
    bit e.act 25 = false →
    bit ((x.frame.rsuApply e.act).act.getD 0 0) 6 = true →
    bit ((x.frame.rsuApply e.act).act.getD 0 0) 4 = false →
    s.on pgPMM PMM.PMM_STS_BP = false →
    ∃ t, exec (.rsuSearchResult none) s = .next t ∧
      t.piped.dropLast = rest ∧
      t.piped.getLast?.map (fun y => (y.drop, y.frame.nhType, y.frame.dest, y.frame.epoch, y.frame.act)) = some (false, 3, Config.freeValue s.free % 2 ^ 13, s.epoch, (x.frame.rsuApply e.act).act) ∧
      t.rd (pgRSU 0) RSU.RSU_GCNT 0 = (s.rd (pgRSU 0) RSU.RSU_GCNT 0 + 1) % 2 ^ 64 ∧
      t.rd (pgRSU 0) RSU.RSU_GCNT 1 = (s.rd (pgRSU 0) RSU.RSU_GCNT 1 + 1) % 2 ^ 64 ∧
      t.nt = s.nt ∧
      t.toHostState = s.toHostState ∧
      t.toQdState = s.toQdState) ∧
  (∀ (s : State) (ctx seq : Nat) (x : Piped) (rest : List Piped),
    s.piped = x :: rest →
    x.frame.ctx = ctx →
    x.frame.seq = seq →
    x.stage = .scan →
    rest.all (fun y => decide (y.stage ≠ .held)) = true →
    ∃ t, exec (.pmmScanDone ctx seq) s = .next t ∧
      t.piped = rest ++ [{ x with frame := { x.frame with aux := [] }, stage := .ready, drop := false, exm := none }] ∧
      t.rd pgPMM PMM.PMM_CNT 0 = (s.rd pgPMM PMM.PMM_CNT 0 + 1) % 2 ^ 64 ∧
      (t.rd pgPMM PMM.PMM_CNT 1 = if x.frame.pmmHit = true then (s.rd pgPMM PMM.PMM_CNT 1 + 1) % 2 ^ 64 else s.rd pgPMM PMM.PMM_CNT 1) ∧
      t.nt = s.nt ∧
      t.toHostState = s.toHostState ∧
      t.toQdState = s.toQdState) ∧
  (∀ (s : State) (ctx seq : Nat) (x : Piped) (rest : List Piped),
    s.piped = x :: rest →
    x.frame.ctx = ctx →
    x.frame.seq = seq →
    x.stage = .ready →
    x.stale = false →
    s.enabled pgORD = true →
    seq = (s.ctx ctx).next →
    (s.ctx ctx).held = [] →
    x.drop = false →
    x.frame.nhType ≠ 5 →
    ∃ t, exec (.ordResult ctx seq) s = .next t ∧
      t.piped = rest ∧
      t.toQd = s.toQd ++ [x.frame] ∧
      (t.ctx ctx).next = (seq + 1) % 65536 ∧
      (t.ctx ctx).held = [] ∧
      (t.ctx ctx).timer = none ∧
      t.rd pgORD ORD.ORD_CNT 0 = (s.rd pgORD ORD.ORD_CNT 0 + 1) % 2 ^ 64 ∧
      t.nt = s.nt ∧
      t.toHostState = s.toHostState) ∧
  (∀ (s : State) (ctx seq : Nat) (x : Piped) (rest : List Piped),
    s.piped = x :: rest →
    x.frame.ctx = ctx →
    x.frame.seq = seq →
    x.stage = .ready →
    x.stale = false →
    s.enabled pgORD = true →
    seq = (s.ctx ctx).next →
    (s.ctx ctx).held = [] →
    x.drop = true →
    ∃ t, exec (.ordResult ctx seq) s = .next t ∧
      t.piped = rest ∧
      t.toQd = s.toQd ∧
      (t.ctx ctx).next = (seq + 1) % 65536 ∧
      (t.ctx ctx).held = [] ∧
      t.rd pgORD ORD.ORD_CNT 1 = (s.rd pgORD ORD.ORD_CNT 1 + 1) % 2 ^ 64 ∧
      t.nt = s.nt ∧
      t.toHostState = s.toHostState) ∧
  (∀ (s : State) (ctx seq : Nat) (x : Piped) (rest : List Piped),
    s.piped = x :: rest →
    x.frame.ctx = ctx →
    x.frame.seq = seq →
    x.stage = .ready →
    x.stale = false →
    s.enabled pgORD = true →
    seq ≠ (s.ctx ctx).next →
    (seq + 65536 - (s.ctx ctx).next) % 65536 < 32768 →
    tget (s.ctx ctx).held (s.ctx ctx).next = none →
    ∃ t, exec (.ordResult ctx seq) s = .next t ∧
      t.piped = rest ∧
      t.toQd = s.toQd ∧
      t.ctx ctx = { s.ctx ctx with held := tset (s.ctx ctx).held seq ⟨x.frame, x.drop, s.ticks⟩, timer := some ((s.ctx ctx).timer.getD s.ticks) } ∧
      t.nt = s.nt ∧
      t.toHostState = s.toHostState) ∧
  (∀ (s : State) (ctx seq : Nat) (x : Piped) (rest : List Piped),
    s.piped = x :: rest →
    x.frame.ctx = ctx →
    x.frame.seq = seq →
    x.stage = .ready →
    x.stale = false →
    s.enabled pgORD = true →
    32768 ≤ (seq + 65536 - (s.ctx ctx).next) % 65536 →
    ∃ t, exec (.ordResult ctx seq) s = .next t ∧
      t.piped = rest ∧
      t.toQd = s.toQd ∧
      t.ords = s.ords ∧
      t.rd pgORD ORD.ORD_CNT 3 = (s.rd pgORD ORD.ORD_CNT 3 + 1) % 2 ^ 64 ∧
      bit (t.rd pgORD COMMON.INT_CAUSE_CAUSE) 1 = true ∧
      t.nt = s.nt ∧
      t.toHostState = s.toHostState) ∧
  (∀ (s : State) (ctx q : Nat) (h : OrdHeld),
    s.live pgORD = true →
    s.gapDue ctx = true →
    (s.ctx ctx).held = [(q, h)] →
    h.drop = false →
    h.frame.nhType ≠ 5 →
    ∃ t, exec (.ordGapTimeout ctx) s = .next t ∧
      t.toQd = s.toQd ++ [h.frame] ∧
      (t.ctx ctx).next = (q + 1) % 65536 ∧
      (t.ctx ctx).held = [] ∧
      (t.ctx ctx).timer = none ∧
      t.rd pgORD ORD.ORD_CNT 0 = (s.rd pgORD ORD.ORD_CNT 0 + 1) % 2 ^ 64 ∧
      t.rd pgORD ORD.ORD_CNT 2 = (s.rd pgORD ORD.ORD_CNT 2 + 1) % 2 ^ 64 ∧
      bit (t.rd pgORD COMMON.INT_CAUSE_CAUSE) 0 = true ∧
      t.nt = s.nt ∧
      t.toHostState = s.toHostState) ∧
  (∀ (s : State) (ctx : Nat),
    s.gapDue ctx = false →
    ∃ t, exec (.ordGapTimeout ctx) s = .next t ∧
      t = s)
end

