-- ==== Sys2Proof/Laws/Tbl.lean ====
section
/-! SUPPORT. Laws/Tbl.lean: a table read after a write, and the order of keys and the canonical form of HBM memory that every
table operation keeps. -/

namespace Sys2Proof.Machine

theorem tget_tdel_ne {α : Type} (t : Tbl α) {q r : Nat} (h : q ≠ r) : tget (tdel t q) r = tget t r := by
  induction t with
  | nil => rfl
  | cons e t ih =>
    obtain ⟨k, v⟩ := e
    by_cases hk : k = q
    · subst hk; simp [tdel, tget, h, ih]
    · simp only [tdel, hk, if_false, tget, ih]

theorem tget_tdel_same {α : Type} (t : Tbl α) (q : Nat) : tget (tdel t q) q = none := by
  induction t with
  | nil => rfl
  | cons e t ih =>
    obtain ⟨k, v⟩ := e
    by_cases hk : k = q <;> simp [tdel, tget, hk, ih]

theorem tget_tins_same {α : Type} (t : Tbl α) (q : Nat) (x : α) (h : tget t q = none) : tget (tins q x t) q = some x := by
  induction t with
  | nil => simp [tins, tget]
  | cons e t ih =>
    obtain ⟨k, v⟩ := e
    simp only [tget] at h
    split at h
    · contradiction
    · rename_i hk
      simp only [tins]; split <;> simp [tget, hk, ih h]

theorem tget_tins_ne {α : Type} (t : Tbl α) {q r : Nat} (x : α) (h : q ≠ r) : tget (tins q x t) r = tget t r := by
  induction t with
  | nil => simp [tins, tget, h]
  | cons e t ih =>
    obtain ⟨k, v⟩ := e
    simp only [tins]; split <;> simp [tget, h, ih]

theorem tget_tset_same {α : Type} (t : Tbl α) (q : Nat) (x : α) : tget (tset t q x) q = some x :=
  tget_tins_same _ _ _ (tget_tdel_same t q)

theorem tget_tset_ne {α : Type} (t : Tbl α) {q r : Nat} (x : α) (h : q ≠ r) : tget (tset t q x) r = tget t r := by
  rw [tset, tget_tins_ne _ _ h, tget_tdel_ne _ h]

/-- Every key of the table is above a bound. -/
def tabove {α : Type} (b : Nat) (t : Tbl α) : Prop := ∀ e ∈ t, b < e.1

theorem tsorted_cons {α : Type} (e : Nat × α) (t : Tbl α) : tsorted (e :: t) = true ↔ tabove e.1 t ∧ tsorted t = true := by
  induction t generalizing e with
  | nil => simp [tsorted, tabove]
  | cons f t ih =>
    obtain ⟨a, x⟩ := e
    obtain ⟨b, y⟩ := f
    simp only [tsorted, Bool.and_eq_true, decide_eq_true_eq, tabove, List.mem_cons, forall_eq_or_imp]
    rw [ih]
    simp only [tabove]
    constructor
    · rintro ⟨h1, h2, h3⟩; exact ⟨⟨h1, fun e he => Nat.lt_trans h1 (h2 e he)⟩, h2, h3⟩
    · rintro ⟨⟨h1, _⟩, h2, h3⟩; exact ⟨h1, h2, h3⟩

theorem tsorted_sublist {α : Type} {t u : Tbl α} (h : t.Sublist u) (hu : tsorted u = true) : tsorted t = true := by
  induction h with
  | slnil => rfl
  | cons e _ ih => exact ih ((tsorted_cons _ _).1 hu).2
  | cons_cons e hs ih =>
    rw [tsorted_cons] at hu ⊢
    exact ⟨fun f hf => hu.1 f (hs.subset hf), ih hu.2⟩

theorem tdel_sublist {α : Type} (t : Tbl α) (q : Nat) : (tdel t q).Sublist t := by
  induction t with
  | nil => exact .slnil
  | cons e t ih =>
    obtain ⟨k, v⟩ := e
    simp only [tdel]; split
    · exact .cons _ ih
    · exact .cons_cons _ ih

theorem tsorted_tdel {α : Type} {t : Tbl α} (q : Nat) (h : tsorted t = true) : tsorted (tdel t q) = true :=
  tsorted_sublist (tdel_sublist t q) h

theorem mem_tins {α : Type} {t : Tbl α} {q : Nat} {x : α} {e : Nat × α} (h : e ∈ tins q x t) : e = (q, x) ∨ e ∈ t := by
  induction t with
  | nil => simpa [tins] using h
  | cons f t ih =>
    obtain ⟨k, v⟩ := f
    simp only [tins] at h
    split at h
    · simpa using h
    · rcases List.mem_cons.1 h with h | h
      · exact .inr (by simp [h])
      · rcases ih h with h | h
        · exact .inl h
        · exact .inr (by simp [h])

theorem not_mem_tdel {α : Type} (t : Tbl α) (q : Nat) : ∀ e ∈ tdel t q, e.1 ≠ q := by
  induction t with
  | nil => simp [tdel]
  | cons f t ih =>
    obtain ⟨k, v⟩ := f
    simp only [tdel]; split
    · exact ih
    · intro e he; rcases List.mem_cons.1 he with rfl | h
      · assumption
      · exact ih e h

theorem tsorted_tins {α : Type} {t : Tbl α} {q : Nat} (x : α) (h : tsorted t = true) (hq : ∀ e ∈ t, e.1 ≠ q) :
    tsorted (tins q x t) = true := by
  induction t with
  | nil => rfl
  | cons e t ih =>
    obtain ⟨k, v⟩ := e
    simp only [tins]
    have h' := (tsorted_cons _ _).1 h
    split
    · rename_i hk
      rw [tsorted_cons]
      refine ⟨?_, h⟩
      intro f hf; rcases List.mem_cons.1 hf with rfl | hf
      · exact hk
      · exact Nat.lt_trans hk (h'.1 f hf)
    · rename_i hk
      rw [tsorted_cons]
      refine ⟨?_, ih h'.2 fun f hf => hq f (by simp [hf])⟩
      intro f hf; rcases mem_tins hf with rfl | hf
      · have := hq (k, v) (by simp); simp only at this ⊢; omega
      · exact h'.1 f hf

theorem tsorted_tset {α : Type} {t : Tbl α} (q : Nat) (x : α) (h : tsorted t = true) : tsorted (tset t q x) = true :=
  tsorted_tins x (tsorted_tdel q h) (not_mem_tdel t q)

theorem memSet_wf {m : Memory} (a : Nat) (b : Byte) (h : m.wf = true) : (memSet m a b).wf = true := by
  simp only [Memory.wf, Bool.and_eq_true, List.all_eq_true, decide_eq_true_eq] at h ⊢
  unfold memSet
  split
  · exact ⟨tsorted_tdel a h.1, fun e he => h.2 e ((tdel_sublist m a).subset he)⟩
  · rename_i hb
    refine ⟨tsorted_tset a b h.1, fun e he => ?_⟩
    rcases mem_tins he with rfl | he
    · exact hb
    · exact h.2 e ((tdel_sublist m a).subset he)

theorem memSets_wf {m : Memory} (a : Nat) (l : List Byte) (h : m.wf = true) : (memSets m a l).wf = true := by
  induction l generalizing m a with
  | nil => exact h
  | cons b l ih => exact ih _ (memSet_wf a b h)

end Sys2Proof.Machine
end

