-- ==== Sys2Proof/Laws/Side.lean ====
section
/-! SUPPORT. Laws/Side.lean: what counting an event, raising a cause, logging it and the common strobe leave alone: the units' own state,
and every register outside the common registers of the pages and the pages CRWN, OBS, LOG and PCE. -/

namespace Sys2Proof.Machine

/-- A common register that they write, by its place in the page (offset times 32 and low bit): INT_CAUSE, FIRST_ERR, SNAP_SEQ and
SNAP_NT, the PMCs and their OVF bits. -/
abbrev sideCommon (r : Nat) : Prop :=
  (1024 ≤ r ∧ r < 1056) ∨ (1536 ≤ r ∧ r < 1792) ∨ (2176 ≤ r ∧ r < 2560) ∨ (4352 ≤ r ∧ r < 6400) ∨ (6400 ≤ r ∧ r < 7424 ∧ r % 32 = 24)

/-- The key of a register that counting, raising a cause, logging or the strobe may write: one of the common registers of any page;
STROBE_SEQ and GFREEZE; OBS_CNT 0 and 1; LOG_STS to SUPPRESSED and the counters of LOG; PCE_CNT 0. -/
abbrev sideKey (k : Nat) : Prop :=
  sideCommon (k % 2097152) ∨ (k / 2097152 = pgCRWN ∧ 9344 ≤ k % 2097152 ∧ k % 2097152 < 9504) ∨
  (k / 2097152 = pgOBS ∧ 16384 ≤ k % 2097152 ∧ k % 2097152 < 16896) ∨
  (k / 2097152 = pgLOG ∧ (8320 ≤ k % 2097152 ∧ k % 2097152 < 8832 ∨ 16384 ≤ k % 2097152 ∧ k % 2097152 < 17664)) ∨
  (k / 2097152 = pgPCE ∧ k % 2097152 = 16384)

/-- What a side effect leaves alone. -/
structure Calm (s t : State) : Prop where
  causes : ∀ p c, c < 16 → bit (s.rd p COMMON.INT_CAUSE_CAUSE) c = true → bit (t.rd p COMMON.INT_CAUSE_CAUSE) c = true
  regs : ∀ k, ¬ sideKey k → tget t.regs k = tget s.regs k
  pending : t.pending = s.pending
  ticks : t.ticks = s.ticks
  nt : t.nt = s.nt
  timeHold : t.timeHold = s.timeHold
  hold : t.hold = s.hold
  band : t.toBandState = s.toBandState
  line : t.toLineState = s.toLineState
  pipe : t.toPipeState = s.toPipeState
  qd : t.toQdState = s.toQdState
  host : t.toHostState = { s.toHostState with fns := t.fns }
  mgmt : t.toMgmtState = { s.toMgmtState with shadowDue := t.shadowDue }

theorem Calm.refl (s : State) : Calm s s := ⟨fun _ _ _ h => h, fun _ _ => rfl, rfl, rfl, rfl, rfl, rfl, rfl, rfl, rfl, rfl, rfl, rfl⟩

theorem Calm.trans {s t u : State} (h : Calm s t) (g : Calm t u) : Calm s u where
  causes p c hc hb := g.causes p c hc (h.causes p c hc hb)
  regs k hk := (g.regs k hk).trans (h.regs k hk)
  pending := g.pending.trans h.pending
  ticks := g.ticks.trans h.ticks
  nt := g.nt.trans h.nt
  timeHold := g.timeHold.trans h.timeHold
  hold := g.hold.trans h.hold
  band := g.band.trans h.band
  line := g.line.trans h.line
  pipe := g.pipe.trans h.pipe
  qd := g.qd.trans h.qd
  host := by rw [g.host, h.host]
  mgmt := by rw [g.mgmt, h.mgmt]

theorem rd_wr_other (s : State) {p q : Nat} {f g : Fld} {i j : Nat} (v : Nat) (h : f.key p i ≠ g.key q j) :
    (s.wr p f v i).rd q g j = s.rd q g j := by
  simp only [State.rd, State.wr]
  split
  · simp [tgetD, tget_tdel_ne _ h]
  · simp [tgetD, tget_tset_ne _ _ h]

theorem rd_wr_self (s : State) (p : Nat) (f : Fld) (v i : Nat) : (s.wr p f v i).rd p f i = v % 2 ^ f.w := by
  simp only [State.rd, State.wr]
  split
  · rename_i h; simp [tgetD, tget_tdel_same, h]
  · simp [tgetD, tget_tset_same]

theorem Calm.wr {s : State} {p : Nat} {f : Fld} {i : Nat} (v : Nat) (hk : sideKey (f.key p i)) (hc : f.key p i % 2097152 ≠ 1024) :
    Calm s (s.wr p f v i) where
  causes q c _ hb := by
    rw [rd_wr_other s v]
    · exact hb
    · intro e
      apply hc
      rw [e]
      simp only [Fld.key, COMMON.INT_CAUSE_CAUSE]
      omega
  regs k h := by
    have : f.key p i ≠ k := fun e => h (e ▸ hk)
    simp only [State.wr]; split
    · exact tget_tdel_ne _ this
    · exact tget_tset_ne _ _ this
  pending := rfl
  ticks := rfl
  nt := rfl
  timeHold := rfl
  hold := rfl
  band := rfl
  line := rfl
  pipe := rfl
  qd := rfl
  host := rfl
  mgmt := rfl

theorem Calm.emit (s : State) (o : Out) : Calm s (s.emit o) := ⟨fun _ _ _ h => h, fun _ _ => rfl, rfl, rfl, rfl, rfl, rfl, rfl, rfl, rfl, rfl, rfl, rfl⟩
theorem Calm.draw (s : State) (w : Nat) : Calm s (s.draw w).2 := ⟨fun _ _ _ h => h, fun _ _ => rfl, rfl, rfl, rfl, rfl, rfl, rfl, rfl, rfl, rfl, rfl, rfl⟩
theorem Calm.setFn (s : State) (n : Nat) (f : PciFn) : Calm s (s.setFn n f) := ⟨fun _ _ _ h => h, fun _ _ => rfl, rfl, rfl, rfl, rfl, rfl, rfl, rfl, rfl, rfl, rfl, rfl⟩

theorem Calm.pmcAdd (s : State) (p n k : Nat) (hn : n < 8) : Calm s (s.pmcAdd p n k).1 := by
  have h1 : ∀ v, Calm s (s.wr p COMMON.PMC v n) := fun v =>
    .wr v (by simp only [sideKey, sideCommon, pgCRWN, pgOBS, pgLOG, pgPCE, Fld.key, COMMON.PMC]; omega) (by simp only [Fld.key, COMMON.PMC]; omega)
  simp only [State.pmcAdd]; split
  · exact h1 _
  · exact (h1 _).trans (.wr 1 (by simp only [sideKey, sideCommon, pgCRWN, pgOBS, pgLOG, pgPCE, Fld.key, COMMON.PMC_SEL_OVF]; omega)
      (by simp only [Fld.key, COMMON.PMC_SEL_OVF]; omega))

theorem Calm.pmcFrom (s : State) (p ev k left n : Nat) (a b : Bool) (h : left + n ≤ 8) : Calm s (s.pmcFrom p ev k left n a b) := by
  induction left generalizing s n a b with
  | zero => exact .refl s
  | succ left ih =>
    simp only [State.pmcFrom]
    have hr : ∀ (c : Prop) [Decidable c] (m : Nat), Calm s (if c then s.pmcAdd p n m else (s, false)).1 := by
      intro c _ m; split
      · exact .pmcAdd s p n m (by omega)
      · exact .refl s
    exact (hr _ _).trans (ih _ _ _ _ (by omega))

theorem Calm.pmc (s : State) (p ev k : Nat) : Calm s (s.pmc p ev k) := by
  simp only [State.pmc]; split
  · exact .refl s
  · exact .pmcFrom s p ev k 8 0 _ _ (by decide)

theorem Calm.bump {s : State} {p : Nat} {f : Fld} {i : Nat} (n k : Nat) (h : sideKey (f.key p i) ∧ f.key p i % 2097152 ≠ 1024) :
    Calm s (s.bump p f i n k) :=
  (Calm.wr _ h.1 h.2).trans (.pmc _ _ _ _)

theorem Calm.page {s : State} {p : Nat} {f : Fld} {i : Nat} (v : Nat) (h : sideKey (f.key p i) ∧ f.key p i % 2097152 ≠ 1024) :
    Calm s (s.wr p f v i) := .wr v h.1 h.2

theorem Calm.msix (s : State) (fn v : Nat) : Calm s (s.msix fn v) := by
  simp only [State.msix]; split
  · exact (Calm.bump 0 1 (by decide)).trans (.emit _ _)
  · exact .setFn _ _ _

theorem Calm.post (s : State) (fn addr : Nat) (data : List Byte) (ro : Bool) : Calm s (s.post fn addr data ro) := by
  simp only [State.post]; split
  · exact (Calm.bump 0 1 (by decide)).trans (.emit _ _)
  · exact .refl s

theorem Calm.spSignal (s : State) : Calm s s.spSignal := by
  simp only [State.spSignal]; split
  · exact .emit _ _
  · exact .refl s

theorem Calm.hostEdges (s0 s : State) (p : Nat) : Calm s (State.hostEdges s0 s p) := by
  simp only [State.hostEdges]; split
  · have h : Calm s (if ¬ s0.summary p ∧ s.summary p ∧ s.hostRoute p then s.msix 1 (s.vecOf p) else s) := by
      split
      · exact .msix _ _ _
      · exact .refl s
    split
    · exact h.trans (.msix _ _ _)
    · exact h
  · exact .refl s

theorem Calm.edges (s0 s : State) (p : Nat) : Calm s (State.edges s0 s p) := by
  simp only [State.edges]; split
  · exact (Calm.hostEdges s0 s p).trans (.spSignal _)
  · exact .hostEdges s0 s p

theorem Calm.firstErr (s : State) (p c : Nat) : Calm s (s.firstErr p c) := by
  have h : ∀ (u : State) (f : Fld) (v : Nat), (1536 ≤ f.key 0 0 ∧ f.key 0 0 < 1792) → Calm u (u.wr p f v) := by
    intro u f v hf
    simp only [Fld.key] at hf
    exact .wr v (by simp only [sideKey, sideCommon, pgCRWN, pgOBS, pgLOG, pgPCE, Fld.key]; omega) (by simp only [Fld.key]; omega)
  simp only [State.firstErr, State.wrFree]; split
  · exact ((((h _ _ _ (by decide)).trans ((Calm.draw _ _).trans (h _ _ _ (by decide)))).trans (h _ _ _ (by decide))).trans
      (h _ _ _ (by decide))).trans (h _ _ _ (by decide))
  · exact .refl s

theorem bit_or_pow (v c d : Nat) (h : bit v c = false) : bit (v + 2 ^ c) d = (bit v d || decide (c = d)) := by
  simp only [bit, decide_eq_false_iff_not] at h ⊢
  have hc : 0 < 2 ^ c := Nat.two_pow_pos c
  rw [Bool.eq_iff_iff]
  simp only [decide_eq_true_eq, Bool.or_eq_true]
  rcases Nat.lt_trichotomy d c with hd | hd | hd
  · have e : 2 ^ c = 2 ^ d * (2 * 2 ^ (c - d - 1)) := by
      rw [← Nat.mul_assoc, Nat.mul_comm _ 2, ← Nat.pow_succ', ← Nat.pow_add]; congr 1; omega
    rw [e, Nat.add_mul_div_left _ _ (Nat.two_pow_pos d)]
    omega
  · subst hd
    rw [Nat.add_div_right _ hc]
    omega
  · have hlt : v % 2 ^ d + 2 ^ c < 2 ^ d := by
      have e : 2 ^ d = 2 ^ c * (2 * 2 ^ (d - c - 1)) := by
        rw [← Nat.mul_assoc, Nat.mul_comm _ 2, ← Nat.pow_succ', ← Nat.pow_add]; congr 1; omega
      generalize hk : 2 ^ (d - c - 1) = k at e
      have h1 : v % 2 ^ d / 2 ^ c = v / 2 ^ c % (2 * k) := by rw [e, Nat.mod_mul_right_div_self]
      have hk0 : 0 < k := hk ▸ Nat.two_pow_pos _
      have h2 : v / 2 ^ c % (2 * k) % 2 = 0 := by rw [Nat.mod_mul_right_mod]; omega
      have h3 : v / 2 ^ c % (2 * k) < 2 * k := Nat.mod_lt _ (by omega)
      have h4 : v % 2 ^ d / 2 ^ c + 1 < 2 * k := by omega
      have h5 : v % 2 ^ d < 2 ^ c * (v % 2 ^ d / 2 ^ c + 1) := Nat.lt_mul_div_succ _ hc
      calc v % 2 ^ d + 2 ^ c < 2 ^ c * (v % 2 ^ d / 2 ^ c + 1) + 2 ^ c := by omega
        _ = 2 ^ c * (v % 2 ^ d / 2 ^ c + 1 + 1) := by rw [Nat.mul_succ, Nat.mul_succ, Nat.mul_succ]
        _ ≤ 2 ^ c * (2 * k) := Nat.mul_le_mul_left _ (by omega)
        _ = 2 ^ d := e.symm
    have e : v + 2 ^ c = v % 2 ^ d + 2 ^ c + 2 ^ d * (v / 2 ^ d) := by have := Nat.mod_add_div v (2 ^ d); omega
    rw [e, Nat.add_mul_div_left _ _ (Nat.two_pow_pos d), Nat.div_eq_of_lt hlt]
    omega

theorem bit_setBit (v c d : Nat) : bit (setBit v c) d = (bit v d || decide (c = d)) := by
  by_cases h : bit v c = true
  · simp only [setBit, h, if_true]
    by_cases e : c = d
    · subst e; simp [h]
    · simp [e]
  · rw [Bool.not_eq_true] at h
    simp only [setBit, h, Bool.false_eq_true, if_false]
    exact bit_or_pow v c d h

theorem bit_mod (v w c : Nat) (h : c < w) : bit (v % 2 ^ w) c = bit v c := by
  simp only [bit]
  have e : 2 ^ w = 2 ^ c * (2 * 2 ^ (w - c - 1)) := by
    rw [← Nat.mul_assoc, Nat.mul_comm _ 2, ← Nat.pow_succ', ← Nat.pow_add]; congr 1; omega
  rw [e, Nat.mod_mul_right_div_self, Nat.mod_mul_right_mod]

/-- Setting a cause bit keeps the others. -/
theorem Calm.setCause (s : State) (p c : Nat) :
    Calm s (s.wr p COMMON.INT_CAUSE_CAUSE (setBit (s.rd p COMMON.INT_CAUSE_CAUSE) c)) where
  causes q d hd hb := by
    by_cases e : COMMON.INT_CAUSE_CAUSE.key p 0 = COMMON.INT_CAUSE_CAUSE.key q 0
    · have : p = q := by simp only [Fld.key] at e; omega
      subst this
      rw [rd_wr_self, show COMMON.INT_CAUSE_CAUSE.w = 16 from rfl, bit_mod _ _ _ hd, bit_setBit, hb, Bool.true_or]
    · rw [rd_wr_other s _ e]; exact hb
  regs k h := by
    have : COMMON.INT_CAUSE_CAUSE.key p 0 ≠ k := fun e => h (e ▸ by simp only [sideKey, sideCommon, pgCRWN, pgOBS, pgLOG, pgPCE, Fld.key, COMMON.INT_CAUSE_CAUSE]; omega)
    simp only [State.wr]; split
    · exact tget_tdel_ne _ this
    · exact tget_tset_ne _ _ this
  pending := rfl
  ticks := rfl
  nt := rfl
  timeHold := rfl
  hold := rfl
  band := rfl
  line := rfl
  pipe := rfl
  qd := rfl
  host := rfl
  mgmt := rfl

theorem Calm.cause (s : State) (p c : Nat) : Calm s (s.cause p c) :=
  (((Calm.setCause s p c).trans (.pmc _ _ _ _)).trans (.firstErr _ _ _)).trans (.edges _ _ _)

theorem Calm.logged (s : State) (e : Tbl LogEntry) (l : Tbl Nat) : Calm s { s with log := e, logLast := l } :=
  ⟨fun _ _ _ h => h, fun _ _ => rfl, rfl, rfl, rfl, rfl, rfl, rfl, rfl, rfl, rfl, rfl, rfl⟩

theorem Calm.logAppend (s : State) (page inst src event sev a0 a1 : Nat) : Calm s (s.logAppend page inst src event sev a0 a1) := by
  have hn : ∀ (u : State) n, n < 5 → Calm u (u.cnt pgLOG LOG.LOG_CNT n) := fun u n h =>
    .bump n 1 ⟨by simp only [sideKey, sideCommon, pgCRWN, pgOBS, pgLOG, pgPCE, Fld.key, LOG.LOG_CNT]; omega, by simp only [Fld.key, LOG.LOG_CNT, pgLOG]; omega⟩
  unfold State.logAppend
  extract_lets seq e n s1 s2 s3
  split
  · have h1 : Calm s s1 := Calm.logged s _ s.logLast
    have h2 : Calm s s2 := ((h1.trans (.page _ (by decide))).trans
      (.page _ (by decide))).trans (hn _ 0 (by decide))
    have h3 : Calm s s3 := h2.trans (hn _ _ (by split <;> (try split) <;> decide))
    split
    · exact h3.trans (.cause _ _ _)
    · exact h3
  · exact (Calm.page _ (by decide)).trans (.cause _ _ _)

theorem Calm.logHw (s : State) (p c : Nat) (first : Bool) : Calm s (s.logHw p c first) := by
  have hb : ∀ (b : Bool) (a e v x : Nat), Calm s (if b then s.inc pgLOG LOG.SUPPRESSED_COUNT
      else { s with logLast := tset s.logLast (p * 16 + c) s.ticks }.logAppend a e 0 v x (s.rd p COMMON.INT_CAUSE_CAUSE) 0) := by
    intro b a e v x; cases b
    · exact (Calm.logged s s.log _).trans (.logAppend _ _ _ _ _ _ _ _)
    · exact .page (f := LOG.SUPPRESSED_COUNT) (i := 0) _ (by decide)
  unfold State.logHw
  extract_lets sev
  clear_value sev
  split
  · exact .refl s
  · split
    · exact .refl s
    · exact hb _ _ _ _ _

theorem Calm.raise1 (s : State) (p c : Nat) : Calm s (s.raise1 p c) := by
  simp only [State.raise1]; split
  · split
    · exact .cause _ _ _
    · exact (Calm.cause _ _ _).trans (.logHw _ _ _ _)
  · exact .refl s

theorem Calm.latch (s : State) (p seq : Nat) (t : NetTime) : Calm s (s.latch p seq t) := by
  have h0 : ∀ w, Calm s { s with shadow := w } := fun _ => ⟨fun _ _ _ h => h, fun _ _ => rfl, rfl, rfl, rfl, rfl, rfl, rfl, rfl, rfl, rfl, rfl, rfl⟩
  have h : ∀ (u : State) (f : Fld) (v : Nat), (2176 ≤ f.key 0 0 ∧ f.key 0 0 < 2560) → Calm u (u.wr p f v) := by
    intro u f v hf
    simp only [Fld.key] at hf
    exact .wr v (by simp only [sideKey, sideCommon, pgCRWN, pgOBS, pgLOG, pgPCE, Fld.key]; omega) (by simp only [Fld.key]; omega)
  simp only [State.latch]
  exact ((((h0 _).trans (h _ _ _ (by decide))).trans (h _ _ _ (by decide))).trans (h _ _ _ (by decide))).trans (h _ _ _ (by decide))

theorem Calm.latchIf (s : State) (p seq : Nat) (t : NetTime) : Calm s (s.latchIf p seq t) := by
  simp only [State.latchIf]; split
  · exact .refl s
  · split
    · exact .pmc _ _ _ _
    · exact .latch _ _ _ _

theorem Calm.foldl {α : Type} {f : State → α → State} (hf : ∀ u x, Calm u (f u x)) (l : List α) (s : State) : Calm s (l.foldl f s) := by
  induction l generalizing s with
  | nil => exact .refl s
  | cons a l ih => exact (hf s a).trans (ih _)

theorem Calm.strobed {s u : State} (h : Calm s u) (a : Option Nat) (d : List Nat) : Calm s { u with strobeAt := a, shadowDue := d } :=
  ⟨h.causes, h.regs, h.pending, h.ticks, h.nt, h.timeHold, h.hold, h.band, h.line, h.pipe, h.qd, h.host,
    congrArg (fun m : MgmtState => { m with shadowDue := d }) h.mgmt⟩

theorem Calm.fireStrobe (s : State) : Calm s s.fireStrobe := by
  have hw : ∀ v, Calm s ((s.wr pgCRWN CRWN.STROBE_SEQ_SEQ v).cnt pgOBS OBS.OBS_CNT 0) := fun v =>
    (Calm.page (f := CRWN.STROBE_SEQ_SEQ) (i := 0) v (by decide)).trans
      (.bump (f := OBS.OBS_CNT) (i := 0) 0 1 (by decide))
  have he : ∀ (u : State) (b : Bool), Calm s u → Calm s (if b then u.emit .snapOut else u) := by
    intro u b h; cases b
    · exact h
    · exact h.trans (.emit _ _)
  have hf : ∀ (u : State) (n : Nat) (t : NetTime), Calm s u → Calm s (pages.foldl (fun st p => st.latchIf p n t) u) :=
    fun u n t h => h.trans (.foldl (fun v p => .latchIf v p _ _) _ _)
  unfold State.fireStrobe
  exact hf _ _ _ (he _ _ ((hw _).strobed _ _))

theorem Calm.strobe (s : State) : Calm s s.strobe := by
  simp only [State.strobe]; split
  · split
    · exact (Calm.bump 1 1 (by decide)).trans (.raise1 _ _ _)
    · exact .fireStrobe s
  · exact .fireStrobe s

/-- Raising a cause. -/
theorem Calm.raise (s : State) (p c : Nat) : Calm s (s.raise p c) := by
  simp only [State.raise]; split
  · have h : Calm s (if s.on pgOBS OBS.OBS_CTL_FATAL_FREEZE then (s.raise1 p c).wr pgCRWN CRWN.GFREEZE_FREEZE_ALL 1 else s.raise1 p c) := by
      split
      · exact (Calm.raise1 s p c).trans (.page _ (by decide))
      · exact .raise1 s p c
    split
    · exact h.trans (.strobe _)
    · exact h
  · exact .raise1 s p c

theorem Calm.raiseIf (s : State) (b : Bool) (p c : Nat) : Calm s (s.raiseIf b p c) := by
  simp only [State.raiseIf]; split
  · exact .raise s p c
  · exact .refl s

/-! ### The cause bit that rises -/

/-- A cause bit of a powered page is set when the cause is raised (R53). -/
theorem State.raise_sets (s : State) {p c : Nat} (hp : s.live p = true) (hc : c < 16) :
    bit ((s.raise p c).rd p COMMON.INT_CAUSE_CAUSE) c = true := by
  have h0 : bit ((s.wr p COMMON.INT_CAUSE_CAUSE (setBit (s.rd p COMMON.INT_CAUSE_CAUSE) c)).rd p COMMON.INT_CAUSE_CAUSE) c = true := by
    rw [rd_wr_self, show COMMON.INT_CAUSE_CAUSE.w = 16 from rfl, bit_mod _ _ _ hc, bit_setBit]; simp
  have h1 : bit ((s.cause p c).rd p COMMON.INT_CAUSE_CAUSE) c = true :=
    (((Calm.pmc _ _ _ _).trans (.firstErr _ _ _)).trans (.edges _ _ _)).causes p c hc h0
  have h2 : bit ((s.raise1 p c).rd p COMMON.INT_CAUSE_CAUSE) c = true := by
    simp only [State.raise1, hp, if_true]; split
    · exact h1
    · exact (Calm.logHw _ _ _ _).causes p c hc h1
  simp only [State.raise]; split
  · have h3 : bit (State.rd (if s.on pgOBS OBS.OBS_CTL_FATAL_FREEZE then (s.raise1 p c).wr pgCRWN CRWN.GFREEZE_FREEZE_ALL 1 else s.raise1 p c)
        p COMMON.INT_CAUSE_CAUSE) c = true := by
      split
      · exact (Calm.page (s := s.raise1 p c) 1 (by decide)).causes p c hc h2
      · exact h2
    split
    · exact (Calm.strobe _).causes p c hc h3
    · exact h3
  · exact h2

end Sys2Proof.Machine
end

