-- ==== Sys2Proof/Laws/State.lean ====
section
/-! SUPPORT. Laws/State.lean: what each basic update of the state leaves of each field; the parts toBandState to toMgmtState stand for
every field they hold. -/

namespace Sys2Proof.Machine

/-! ### A register field written -/

@[simp] theorem State.wr_shadow (s : State) (p : Nat) (f : Fld) (v i : Nat) : (s.wr p f v i).shadow = s.shadow := rfl
@[simp] theorem State.wr_hold (s : State) (p : Nat) (f : Fld) (v i : Nat) : (s.wr p f v i).hold = s.hold := rfl
@[simp] theorem State.wr_timeHold (s : State) (p : Nat) (f : Fld) (v i : Nat) : (s.wr p f v i).timeHold = s.timeHold := rfl
@[simp] theorem State.wr_pending (s : State) (p : Nat) (f : Fld) (v i : Nat) : (s.wr p f v i).pending = s.pending := rfl
@[simp] theorem State.wr_out (s : State) (p : Nat) (f : Fld) (v i : Nat) : (s.wr p f v i).out = s.out := rfl
@[simp] theorem State.wr_free (s : State) (p : Nat) (f : Fld) (v i : Nat) : (s.wr p f v i).free = s.free := rfl
@[simp] theorem State.wr_ticks (s : State) (p : Nat) (f : Fld) (v i : Nat) : (s.wr p f v i).ticks = s.ticks := rfl
@[simp] theorem State.wr_nt (s : State) (p : Nat) (f : Fld) (v i : Nat) : (s.wr p f v i).nt = s.nt := rfl
@[simp] theorem State.wr_strobeAt (s : State) (p : Nat) (f : Fld) (v i : Nat) : (s.wr p f v i).strobeAt = s.strobeAt := rfl
@[simp] theorem State.wr_log (s : State) (p : Nat) (f : Fld) (v i : Nat) : (s.wr p f v i).log = s.log := rfl
@[simp] theorem State.wr_logLast (s : State) (p : Nat) (f : Fld) (v i : Nat) : (s.wr p f v i).logLast = s.logLast := rfl
@[simp] theorem State.wr_toBandState (s : State) (p : Nat) (f : Fld) (v i : Nat) : (s.wr p f v i).toBandState = s.toBandState := rfl
@[simp] theorem State.wr_toLineState (s : State) (p : Nat) (f : Fld) (v i : Nat) : (s.wr p f v i).toLineState = s.toLineState := rfl
@[simp] theorem State.wr_toPipeState (s : State) (p : Nat) (f : Fld) (v i : Nat) : (s.wr p f v i).toPipeState = s.toPipeState := rfl
@[simp] theorem State.wr_toQdState (s : State) (p : Nat) (f : Fld) (v i : Nat) : (s.wr p f v i).toQdState = s.toQdState := rfl
@[simp] theorem State.wr_toHostState (s : State) (p : Nat) (f : Fld) (v i : Nat) : (s.wr p f v i).toHostState = s.toHostState := rfl
@[simp] theorem State.wr_toMgmtState (s : State) (p : Nat) (f : Fld) (v i : Nat) : (s.wr p f v i).toMgmtState = s.toMgmtState := rfl

/-! ### An output -/

@[simp] theorem State.emit_regs (s : State) (o : Out) : (s.emit o).regs = s.regs := rfl
@[simp] theorem State.emit_shadow (s : State) (o : Out) : (s.emit o).shadow = s.shadow := rfl
@[simp] theorem State.emit_hold (s : State) (o : Out) : (s.emit o).hold = s.hold := rfl
@[simp] theorem State.emit_timeHold (s : State) (o : Out) : (s.emit o).timeHold = s.timeHold := rfl
@[simp] theorem State.emit_pending (s : State) (o : Out) : (s.emit o).pending = s.pending := rfl
@[simp] theorem State.emit_free (s : State) (o : Out) : (s.emit o).free = s.free := rfl
@[simp] theorem State.emit_ticks (s : State) (o : Out) : (s.emit o).ticks = s.ticks := rfl
@[simp] theorem State.emit_nt (s : State) (o : Out) : (s.emit o).nt = s.nt := rfl
@[simp] theorem State.emit_strobeAt (s : State) (o : Out) : (s.emit o).strobeAt = s.strobeAt := rfl
@[simp] theorem State.emit_log (s : State) (o : Out) : (s.emit o).log = s.log := rfl
@[simp] theorem State.emit_logLast (s : State) (o : Out) : (s.emit o).logLast = s.logLast := rfl
@[simp] theorem State.emit_toBandState (s : State) (o : Out) : (s.emit o).toBandState = s.toBandState := rfl
@[simp] theorem State.emit_toLineState (s : State) (o : Out) : (s.emit o).toLineState = s.toLineState := rfl
@[simp] theorem State.emit_toPipeState (s : State) (o : Out) : (s.emit o).toPipeState = s.toPipeState := rfl
@[simp] theorem State.emit_toQdState (s : State) (o : Out) : (s.emit o).toQdState = s.toQdState := rfl
@[simp] theorem State.emit_toHostState (s : State) (o : Out) : (s.emit o).toHostState = s.toHostState := rfl
@[simp] theorem State.emit_toMgmtState (s : State) (o : Out) : (s.emit o).toMgmtState = s.toMgmtState := rfl
@[simp] theorem State.emit_out (s : State) (o : Out) : (s.emit o).out = o :: s.out := rfl

/-! ### A free value drawn -/

@[simp] theorem State.draw_regs (s : State) (w : Nat) : (s.draw w).2.regs = s.regs := rfl
@[simp] theorem State.draw_shadow (s : State) (w : Nat) : (s.draw w).2.shadow = s.shadow := rfl
@[simp] theorem State.draw_hold (s : State) (w : Nat) : (s.draw w).2.hold = s.hold := rfl
@[simp] theorem State.draw_timeHold (s : State) (w : Nat) : (s.draw w).2.timeHold = s.timeHold := rfl
@[simp] theorem State.draw_pending (s : State) (w : Nat) : (s.draw w).2.pending = s.pending := rfl
@[simp] theorem State.draw_out (s : State) (w : Nat) : (s.draw w).2.out = s.out := rfl
@[simp] theorem State.draw_ticks (s : State) (w : Nat) : (s.draw w).2.ticks = s.ticks := rfl
@[simp] theorem State.draw_nt (s : State) (w : Nat) : (s.draw w).2.nt = s.nt := rfl
@[simp] theorem State.draw_strobeAt (s : State) (w : Nat) : (s.draw w).2.strobeAt = s.strobeAt := rfl
@[simp] theorem State.draw_log (s : State) (w : Nat) : (s.draw w).2.log = s.log := rfl
@[simp] theorem State.draw_logLast (s : State) (w : Nat) : (s.draw w).2.logLast = s.logLast := rfl
@[simp] theorem State.draw_toBandState (s : State) (w : Nat) : (s.draw w).2.toBandState = s.toBandState := rfl
@[simp] theorem State.draw_toLineState (s : State) (w : Nat) : (s.draw w).2.toLineState = s.toLineState := rfl
@[simp] theorem State.draw_toPipeState (s : State) (w : Nat) : (s.draw w).2.toPipeState = s.toPipeState := rfl
@[simp] theorem State.draw_toQdState (s : State) (w : Nat) : (s.draw w).2.toQdState = s.toQdState := rfl
@[simp] theorem State.draw_toHostState (s : State) (w : Nat) : (s.draw w).2.toHostState = s.toHostState := rfl
@[simp] theorem State.draw_toMgmtState (s : State) (w : Nat) : (s.draw w).2.toMgmtState = s.toMgmtState := rfl
@[simp] theorem State.draw_free (s : State) (w : Nat) : (s.draw w).2.free = s.free + 1 := rfl

/-! ### A PCIe function replaced -/

@[simp] theorem State.setFn_regs (s : State) (n : Nat) (f : PciFn) : (s.setFn n f).regs = s.regs := rfl
@[simp] theorem State.setFn_shadow (s : State) (n : Nat) (f : PciFn) : (s.setFn n f).shadow = s.shadow := rfl
@[simp] theorem State.setFn_hold (s : State) (n : Nat) (f : PciFn) : (s.setFn n f).hold = s.hold := rfl
@[simp] theorem State.setFn_timeHold (s : State) (n : Nat) (f : PciFn) : (s.setFn n f).timeHold = s.timeHold := rfl
@[simp] theorem State.setFn_pending (s : State) (n : Nat) (f : PciFn) : (s.setFn n f).pending = s.pending := rfl
@[simp] theorem State.setFn_out (s : State) (n : Nat) (f : PciFn) : (s.setFn n f).out = s.out := rfl
@[simp] theorem State.setFn_free (s : State) (n : Nat) (f : PciFn) : (s.setFn n f).free = s.free := rfl
@[simp] theorem State.setFn_ticks (s : State) (n : Nat) (f : PciFn) : (s.setFn n f).ticks = s.ticks := rfl
@[simp] theorem State.setFn_nt (s : State) (n : Nat) (f : PciFn) : (s.setFn n f).nt = s.nt := rfl
@[simp] theorem State.setFn_strobeAt (s : State) (n : Nat) (f : PciFn) : (s.setFn n f).strobeAt = s.strobeAt := rfl
@[simp] theorem State.setFn_log (s : State) (n : Nat) (f : PciFn) : (s.setFn n f).log = s.log := rfl
@[simp] theorem State.setFn_logLast (s : State) (n : Nat) (f : PciFn) : (s.setFn n f).logLast = s.logLast := rfl
@[simp] theorem State.setFn_toBandState (s : State) (n : Nat) (f : PciFn) : (s.setFn n f).toBandState = s.toBandState := rfl
@[simp] theorem State.setFn_toLineState (s : State) (n : Nat) (f : PciFn) : (s.setFn n f).toLineState = s.toLineState := rfl
@[simp] theorem State.setFn_toPipeState (s : State) (n : Nat) (f : PciFn) : (s.setFn n f).toPipeState = s.toPipeState := rfl
@[simp] theorem State.setFn_toQdState (s : State) (n : Nat) (f : PciFn) : (s.setFn n f).toQdState = s.toQdState := rfl
@[simp] theorem State.setFn_toMgmtState (s : State) (n : Nat) (f : PciFn) : (s.setFn n f).toMgmtState = s.toMgmtState := rfl
@[simp] theorem State.setFn_fns (s : State) (n : Nat) (f : PciFn) : (s.setFn n f).fns = tset s.fns n f := rfl

end Sys2Proof.Machine
end

