-- ==== Sys2Proof/Laws/Reads.lean ====
section
/-! SUPPORT. Laws/Reads.lean: what a register field, a table and a list read after the operations every unit uses. -/

namespace Sys2Proof.Machine

/-! ### Reading a field after a write -/

theorem tgetD_tset_same {α : Type} (t : Tbl α) (k : Nat) (x d : α) : tgetD (tset t k x) k d = x := by
  simp [tgetD, tget_tset_same]

theorem tgetD_tset_ne {α : Type} (t : Tbl α) {k j : Nat} (x d : α) (h : k ≠ j) : tgetD (tset t k x) j d = tgetD t j d := by
  simp [tgetD, tget_tset_ne _ _ h]

/-- A field read back after a write is the value held to the field's width. -/
@[simp] theorem State.rd_wr_same (s : State) (p : Nat) (f : Fld) (v i : Nat) : (s.wr p f v i).rd p f i = v % 2 ^ f.w := by
  simp only [State.rd, State.wr]
  split
  · rename_i h; simp [tgetD, tget_tdel_same, h]
  · simp [tgetD, tget_tset_same]

/-- A write leaves every other field alone. -/
theorem State.rd_wr_ne (s : State) {p q : Nat} {f g : Fld} {i j : Nat} (v : Nat) (h : f.key p i ≠ g.key q j) :
    (s.wr p f v i).rd q g j = s.rd q g j := by
  simp only [State.rd, State.wr]
  split
  · simp [tgetD, tget_tdel_ne _ h]
  · simp [tgetD, tget_tset_ne _ _ h]

@[simp] theorem State.rd_emit (s : State) (o : Out) (p : Nat) (f : Fld) (i : Nat) : (s.emit o).rd p f i = s.rd p f i := rfl
@[simp] theorem State.rd_draw (s : State) (w p : Nat) (f : Fld) (i : Nat) : (s.draw w).2.rd p f i = s.rd p f i := rfl
@[simp] theorem State.rd_setFn (s : State) (n : Nat) (x : PciFn) (p : Nat) (f : Fld) (i : Nat) : (s.setFn n x).rd p f i = s.rd p f i := rfl
@[simp] theorem State.on_emit (s : State) (o : Out) (p : Nat) (f : Fld) (i : Nat) : (s.emit o).on p f i = s.on p f i := rfl

/-- What is calm keeps every field outside the side keys. -/
theorem Calm.rd {s t : State} (h : Calm s t) {p : Nat} {f : Fld} {i : Nat} (hk : ¬ sideKey (f.key p i)) :
    t.rd p f i = s.rd p f i := by
  simp only [State.rd, tgetD, h.regs _ hk]

theorem State.rd_raise (s : State) (p c : Nat) {q : Nat} {f : Fld} {i : Nat} (hk : ¬ sideKey (f.key q i)) :
    (s.raise p c).rd q f i = s.rd q f i := (Calm.raise s p c).rd hk
theorem State.rd_pmc (s : State) (p e k : Nat) {q : Nat} {f : Fld} {i : Nat} (hk : ¬ sideKey (f.key q i)) :
    (s.pmc p e k).rd q f i = s.rd q f i := (Calm.pmc s p e k).rd hk
theorem State.rd_msix (s : State) (p c : Nat) {q : Nat} {f : Fld} {i : Nat} (hk : ¬ sideKey (f.key q i)) :
    (s.msix p c).rd q f i = s.rd q f i := (Calm.msix s p c).rd hk

/-- A counter of a page advances by one, held to its width. -/
theorem State.rd_cnt_same (s : State) (p : Nat) (f : Fld) (n : Nat) (hk : ¬ sideKey (f.key p n)) :
    (s.cnt p f n).rd p f n = (s.rd p f n + 1) % 2 ^ f.w := by
  simp only [State.cnt, State.bump]
  rw [(Calm.pmc _ _ _ _).rd hk, State.rd_wr_same]

/-- Counting leaves every field but the counter and the side keys alone. -/
theorem State.rd_cnt_ne (s : State) {p q : Nat} {f g : Fld} {n j : Nat} (hk : ¬ sideKey (g.key q j)) (h : f.key p n ≠ g.key q j) :
    (s.cnt p f n).rd q g j = s.rd q g j := by
  simp only [State.cnt, State.bump]
  rw [(Calm.pmc _ _ _ _).rd hk, State.rd_wr_ne _ _ h]

/-- Counting writes registers only. -/
theorem State.pmcFrom_regs (s : State) (p ev k left n : Nat) (a b : Bool) : ∃ r, s.pmcFrom p ev k left n a b = { s with regs := r } := by
  induction left generalizing s n a b with
  | zero => exact ⟨s.regs, rfl⟩
  | succ left ih =>
    simp only [State.pmcFrom]
    have h : ∀ (c : Prop) [Decidable c] (m : Nat), ∃ r, (if c then s.pmcAdd p n m else (s, false)).1 = { s with regs := r } := by
      intro c _ m; split
      · simp only [State.pmcAdd]; split
        · exact ⟨_, rfl⟩
        · exact ⟨_, rfl⟩
      · exact ⟨_, rfl⟩
    obtain ⟨r, hr⟩ := h (s.on p COMMON.PMC_SEL_ENABLE n ∧ 0 < (if a then b2n b else if s.rd p COMMON.PMC_SEL_EVENT n = ev then k else 0))
      (if a then b2n b else if s.rd p COMMON.PMC_SEL_EVENT n = ev then k else 0)
    obtain ⟨q, hq⟩ := ih (if s.on p COMMON.PMC_SEL_ENABLE n ∧ 0 < (if a then b2n b else if s.rd p COMMON.PMC_SEL_EVENT n = ev then k else 0)
      then s.pmcAdd p n (if a then b2n b else if s.rd p COMMON.PMC_SEL_EVENT n = ev then k else 0) else (s, false)).1 (n + 1)
      (s.on p COMMON.PMC_SEL_CHAIN n) (if s.on p COMMON.PMC_SEL_ENABLE n ∧ 0 < (if a then b2n b else if s.rd p COMMON.PMC_SEL_EVENT n = ev then k else 0)
      then s.pmcAdd p n (if a then b2n b else if s.rd p COMMON.PMC_SEL_EVENT n = ev then k else 0) else (s, false)).2
    exact ⟨q, hq.trans (by rw [hr])⟩

theorem State.pmc_regs (s : State) (p ev k : Nat) : ∃ r, s.pmc p ev k = { s with regs := r } := by
  simp only [State.pmc]; split
  · exact ⟨s.regs, rfl⟩
  · exact State.pmcFrom_regs _ _ _ _ _ _ _ _

theorem State.bump_regs (s : State) (p : Nat) (f : Fld) (i n k : Nat) : ∃ r, s.bump p f i n k = { s with regs := r } := by
  obtain ⟨r, h⟩ := State.pmc_regs (s.wr p f (s.rd p f i + k) i) p (0x200 + n) k
  exact ⟨r, h⟩

end Sys2Proof.Machine
end

