-- ==== Sys2Proof/Laws/Effects.lean ====
section
/-! SUPPORT. Laws/Effects.lean: what counting, raising a cause and writing a result set leave of each field of the state, and what the
result set reads afterwards. -/

namespace Sys2Proof.Machine

/-! ### Counting -/

@[simp] theorem State.bump_shadow (s : State) (p : Nat) (f : Fld) (i n k : Nat) : (s.bump p f i n k).shadow = s.shadow := by
  obtain ⟨r, h⟩ := s.bump_regs p f i n k; rw [h]
@[simp] theorem State.cnt_shadow (s : State) (p : Nat) (f : Fld) (n : Nat) : (s.cnt p f n).shadow = s.shadow := s.bump_shadow p f n n 1
@[simp] theorem State.bump_hold (s : State) (p : Nat) (f : Fld) (i n k : Nat) : (s.bump p f i n k).hold = s.hold := by
  obtain ⟨r, h⟩ := s.bump_regs p f i n k; rw [h]
@[simp] theorem State.cnt_hold (s : State) (p : Nat) (f : Fld) (n : Nat) : (s.cnt p f n).hold = s.hold := s.bump_hold p f n n 1
@[simp] theorem State.bump_timeHold (s : State) (p : Nat) (f : Fld) (i n k : Nat) : (s.bump p f i n k).timeHold = s.timeHold := by
  obtain ⟨r, h⟩ := s.bump_regs p f i n k; rw [h]
@[simp] theorem State.cnt_timeHold (s : State) (p : Nat) (f : Fld) (n : Nat) : (s.cnt p f n).timeHold = s.timeHold := s.bump_timeHold p f n n 1
@[simp] theorem State.bump_pending (s : State) (p : Nat) (f : Fld) (i n k : Nat) : (s.bump p f i n k).pending = s.pending := by
  obtain ⟨r, h⟩ := s.bump_regs p f i n k; rw [h]
@[simp] theorem State.cnt_pending (s : State) (p : Nat) (f : Fld) (n : Nat) : (s.cnt p f n).pending = s.pending := s.bump_pending p f n n 1
@[simp] theorem State.bump_out (s : State) (p : Nat) (f : Fld) (i n k : Nat) : (s.bump p f i n k).out = s.out := by
  obtain ⟨r, h⟩ := s.bump_regs p f i n k; rw [h]
@[simp] theorem State.cnt_out (s : State) (p : Nat) (f : Fld) (n : Nat) : (s.cnt p f n).out = s.out := s.bump_out p f n n 1
@[simp] theorem State.bump_free (s : State) (p : Nat) (f : Fld) (i n k : Nat) : (s.bump p f i n k).free = s.free := by
  obtain ⟨r, h⟩ := s.bump_regs p f i n k; rw [h]
@[simp] theorem State.cnt_free (s : State) (p : Nat) (f : Fld) (n : Nat) : (s.cnt p f n).free = s.free := s.bump_free p f n n 1
@[simp] theorem State.bump_ticks (s : State) (p : Nat) (f : Fld) (i n k : Nat) : (s.bump p f i n k).ticks = s.ticks := by
  obtain ⟨r, h⟩ := s.bump_regs p f i n k; rw [h]
@[simp] theorem State.cnt_ticks (s : State) (p : Nat) (f : Fld) (n : Nat) : (s.cnt p f n).ticks = s.ticks := s.bump_ticks p f n n 1
@[simp] theorem State.bump_nt (s : State) (p : Nat) (f : Fld) (i n k : Nat) : (s.bump p f i n k).nt = s.nt := by
  obtain ⟨r, h⟩ := s.bump_regs p f i n k; rw [h]
@[simp] theorem State.cnt_nt (s : State) (p : Nat) (f : Fld) (n : Nat) : (s.cnt p f n).nt = s.nt := s.bump_nt p f n n 1
@[simp] theorem State.bump_strobeAt (s : State) (p : Nat) (f : Fld) (i n k : Nat) : (s.bump p f i n k).strobeAt = s.strobeAt := by
  obtain ⟨r, h⟩ := s.bump_regs p f i n k; rw [h]
@[simp] theorem State.cnt_strobeAt (s : State) (p : Nat) (f : Fld) (n : Nat) : (s.cnt p f n).strobeAt = s.strobeAt := s.bump_strobeAt p f n n 1
@[simp] theorem State.bump_log (s : State) (p : Nat) (f : Fld) (i n k : Nat) : (s.bump p f i n k).log = s.log := by
  obtain ⟨r, h⟩ := s.bump_regs p f i n k; rw [h]
@[simp] theorem State.cnt_log (s : State) (p : Nat) (f : Fld) (n : Nat) : (s.cnt p f n).log = s.log := s.bump_log p f n n 1
@[simp] theorem State.bump_logLast (s : State) (p : Nat) (f : Fld) (i n k : Nat) : (s.bump p f i n k).logLast = s.logLast := by
  obtain ⟨r, h⟩ := s.bump_regs p f i n k; rw [h]
@[simp] theorem State.cnt_logLast (s : State) (p : Nat) (f : Fld) (n : Nat) : (s.cnt p f n).logLast = s.logLast := s.bump_logLast p f n n 1
@[simp] theorem State.bump_toBandState (s : State) (p : Nat) (f : Fld) (i n k : Nat) : (s.bump p f i n k).toBandState = s.toBandState := by
  obtain ⟨r, h⟩ := s.bump_regs p f i n k; rw [h]
@[simp] theorem State.cnt_toBandState (s : State) (p : Nat) (f : Fld) (n : Nat) : (s.cnt p f n).toBandState = s.toBandState := s.bump_toBandState p f n n 1
@[simp] theorem State.bump_toLineState (s : State) (p : Nat) (f : Fld) (i n k : Nat) : (s.bump p f i n k).toLineState = s.toLineState := by
  obtain ⟨r, h⟩ := s.bump_regs p f i n k; rw [h]
@[simp] theorem State.cnt_toLineState (s : State) (p : Nat) (f : Fld) (n : Nat) : (s.cnt p f n).toLineState = s.toLineState := s.bump_toLineState p f n n 1
@[simp] theorem State.bump_toPipeState (s : State) (p : Nat) (f : Fld) (i n k : Nat) : (s.bump p f i n k).toPipeState = s.toPipeState := by
  obtain ⟨r, h⟩ := s.bump_regs p f i n k; rw [h]
@[simp] theorem State.cnt_toPipeState (s : State) (p : Nat) (f : Fld) (n : Nat) : (s.cnt p f n).toPipeState = s.toPipeState := s.bump_toPipeState p f n n 1
@[simp] theorem State.bump_toQdState (s : State) (p : Nat) (f : Fld) (i n k : Nat) : (s.bump p f i n k).toQdState = s.toQdState := by
  obtain ⟨r, h⟩ := s.bump_regs p f i n k; rw [h]
@[simp] theorem State.cnt_toQdState (s : State) (p : Nat) (f : Fld) (n : Nat) : (s.cnt p f n).toQdState = s.toQdState := s.bump_toQdState p f n n 1
@[simp] theorem State.bump_toHostState (s : State) (p : Nat) (f : Fld) (i n k : Nat) : (s.bump p f i n k).toHostState = s.toHostState := by
  obtain ⟨r, h⟩ := s.bump_regs p f i n k; rw [h]
@[simp] theorem State.cnt_toHostState (s : State) (p : Nat) (f : Fld) (n : Nat) : (s.cnt p f n).toHostState = s.toHostState := s.bump_toHostState p f n n 1
@[simp] theorem State.bump_toMgmtState (s : State) (p : Nat) (f : Fld) (i n k : Nat) : (s.bump p f i n k).toMgmtState = s.toMgmtState := by
  obtain ⟨r, h⟩ := s.bump_regs p f i n k; rw [h]
@[simp] theorem State.cnt_toMgmtState (s : State) (p : Nat) (f : Fld) (n : Nat) : (s.cnt p f n).toMgmtState = s.toMgmtState := s.bump_toMgmtState p f n n 1

/-! ### Raising a cause -/

@[simp] theorem State.raise_pending (s : State) (p c : Nat) : (s.raise p c).pending = s.pending := (Calm.raise s p c).pending
@[simp] theorem State.raise_ticks (s : State) (p c : Nat) : (s.raise p c).ticks = s.ticks := (Calm.raise s p c).ticks
@[simp] theorem State.raise_nt (s : State) (p c : Nat) : (s.raise p c).nt = s.nt := (Calm.raise s p c).nt
@[simp] theorem State.raise_timeHold (s : State) (p c : Nat) : (s.raise p c).timeHold = s.timeHold := (Calm.raise s p c).timeHold
@[simp] theorem State.raise_hold (s : State) (p c : Nat) : (s.raise p c).hold = s.hold := (Calm.raise s p c).hold
@[simp] theorem State.raise_toBandState (s : State) (p c : Nat) : (s.raise p c).toBandState = s.toBandState := (Calm.raise s p c).band
@[simp] theorem State.raise_toLineState (s : State) (p c : Nat) : (s.raise p c).toLineState = s.toLineState := (Calm.raise s p c).line
@[simp] theorem State.raise_toPipeState (s : State) (p c : Nat) : (s.raise p c).toPipeState = s.toPipeState := (Calm.raise s p c).pipe
@[simp] theorem State.raise_toQdState (s : State) (p c : Nat) : (s.raise p c).toQdState = s.toQdState := (Calm.raise s p c).qd
@[simp] theorem State.raise_tags (s : State) (p c : Nat) : (s.raise p c).tags = s.tags := by
  have h := congrArg HostState.tags (Calm.raise s p c).host; exact h
@[simp] theorem State.raise_vfSince (s : State) (p c : Nat) : (s.raise p c).vfSince = s.vfSince := by
  have h := congrArg HostState.vfSince (Calm.raise s p c).host; exact h
@[simp] theorem State.raise_perstHigh (s : State) (p c : Nat) : (s.raise p c).perstHigh = s.perstHigh := by
  have h := congrArg HostState.perstHigh (Calm.raise s p c).host; exact h
@[simp] theorem State.raise_subsys (s : State) (p c : Nat) : (s.raise p c).subsys = s.subsys := by
  have h := congrArg HostState.subsys (Calm.raise s p c).host; exact h
@[simp] theorem State.raise_retraining (s : State) (p c : Nat) : (s.raise p c).retraining = s.retraining := by
  have h := congrArg HostState.retraining (Calm.raise s p c).host; exact h
@[simp] theorem State.raise_qps (s : State) (p c : Nat) : (s.raise p c).qps = s.qps := by
  have h := congrArg HostState.qps (Calm.raise s p c).host; exact h
@[simp] theorem State.raise_vfs (s : State) (p c : Nat) : (s.raise p c).vfs = s.vfs := by
  have h := congrArg HostState.vfs (Calm.raise s p c).host; exact h
@[simp] theorem State.raise_txCur (s : State) (p c : Nat) : (s.raise p c).txCur = s.txCur := by
  have h := congrArg HostState.txCur (Calm.raise s p c).host; exact h
@[simp] theorem State.raise_qpRun (s : State) (p c : Nat) : (s.raise p c).qpRun = s.qpRun := by
  have h := congrArg HostState.qpRun (Calm.raise s p c).host; exact h
@[simp] theorem State.raise_vfmRun (s : State) (p c : Nat) : (s.raise p c).vfmRun = s.vfmRun := by
  have h := congrArg HostState.vfmRun (Calm.raise s p c).host; exact h
@[simp] theorem State.raise_hostRx (s : State) (p c : Nat) : (s.raise p c).hostRx = s.hostRx := by
  have h := congrArg HostState.hostRx (Calm.raise s p c).host; exact h
@[simp] theorem State.raise_ipsSas (s : State) (p c : Nat) : (s.raise p c).ipsSas = s.ipsSas := by
  have h := congrArg HostState.ipsSas (Calm.raise s p c).host; exact h
@[simp] theorem State.raise_ipsHost (s : State) (p c : Nat) : (s.raise p c).ipsHost = s.ipsHost := by
  have h := congrArg HostState.ipsHost (Calm.raise s p c).host; exact h
@[simp] theorem State.raise_ipsTransit (s : State) (p c : Nat) : (s.raise p c).ipsTransit = s.ipsTransit := by
  have h := congrArg HostState.ipsTransit (Calm.raise s p c).host; exact h
@[simp] theorem State.raise_ipsDef (s : State) (p c : Nat) : (s.raise p c).ipsDef = s.ipsDef := by
  have h := congrArg HostState.ipsDef (Calm.raise s p c).host; exact h
@[simp] theorem State.raise_ipsOnHost (s : State) (p c : Nat) : (s.raise p c).ipsOnHost = s.ipsOnHost := by
  have h := congrArg HostState.ipsOnHost (Calm.raise s p c).host; exact h
@[simp] theorem State.raise_keks (s : State) (p c : Nat) : (s.raise p c).keks = s.keks := by
  have h := congrArg HostState.keks (Calm.raise s p c).host; exact h
@[simp] theorem State.raise_kekExport (s : State) (p c : Nat) : (s.raise p c).kekExport = s.kekExport := by
  have h := congrArg HostState.kekExport (Calm.raise s p c).host; exact h
@[simp] theorem State.raise_nvs (s : State) (p c : Nat) : (s.raise p c).nvs = s.nvs := by
  have h := congrArg HostState.nvs (Calm.raise s p c).host; exact h
@[simp] theorem State.raise_sess (s : State) (p c : Nat) : (s.raise p c).sess = s.sess := by
  have h := congrArg HostState.sess (Calm.raise s p c).host; exact h
@[simp] theorem State.raise_svcTpl (s : State) (p c : Nat) : (s.raise p c).svcTpl = s.svcTpl := by
  have h := congrArg HostState.svcTpl (Calm.raise s p c).host; exact h
@[simp] theorem State.raise_bfdIn (s : State) (p c : Nat) : (s.raise p c).bfdIn = s.bfdIn := by
  have h := congrArg HostState.bfdIn (Calm.raise s p c).host; exact h
@[simp] theorem State.raise_bfdEvents (s : State) (p c : Nat) : (s.raise p c).bfdEvents = s.bfdEvents := by
  have h := congrArg HostState.bfdEvents (Calm.raise s p c).host; exact h
@[simp] theorem State.raise_rsp (s : State) (p c : Nat) : (s.raise p c).rsp = s.rsp := by
  have h := congrArg HostState.rsp (Calm.raise s p c).host; exact h
@[simp] theorem State.raise_rspIn (s : State) (p c : Nat) : (s.raise p c).rspIn = s.rspIn := by
  have h := congrArg HostState.rspIn (Calm.raise s p c).host; exact h
@[simp] theorem State.raise_flowIn (s : State) (p c : Nat) : (s.raise p c).flowIn = s.flowIn := by
  have h := congrArg HostState.flowIn (Calm.raise s p c).host; exact h
@[simp] theorem State.raise_flows (s : State) (p c : Nat) : (s.raise p c).flows = s.flows := by
  have h := congrArg HostState.flows (Calm.raise s p c).host; exact h
@[simp] theorem State.raise_ipfixSeq (s : State) (p c : Nat) : (s.raise p c).ipfixSeq = s.ipfixSeq := by
  have h := congrArg HostState.ipfixSeq (Calm.raise s p c).host; exact h
@[simp] theorem State.raise_ntPending (s : State) (p c : Nat) : (s.raise p c).ntPending = s.ntPending := by
  have h := congrArg MgmtState.ntPending (Calm.raise s p c).mgmt; exact h
@[simp] theorem State.raise_ppsAt (s : State) (p c : Nat) : (s.raise p c).ppsAt = s.ppsAt := by
  have h := congrArg MgmtState.ppsAt (Calm.raise s p c).mgmt; exact h
@[simp] theorem State.raise_ppsCap (s : State) (p c : Nat) : (s.raise p c).ppsCap = s.ppsCap := by
  have h := congrArg MgmtState.ppsCap (Calm.raise s p c).mgmt; exact h
@[simp] theorem State.raise_ntArm (s : State) (p c : Nat) : (s.raise p c).ntArm = s.ntArm := by
  have h := congrArg MgmtState.ntArm (Calm.raise s p c).mgmt; exact h
@[simp] theorem State.raise_todSec (s : State) (p c : Nat) : (s.raise p c).todSec = s.todSec := by
  have h := congrArg MgmtState.todSec (Calm.raise s p c).mgmt; exact h
@[simp] theorem State.raise_todAt (s : State) (p c : Nat) : (s.raise p c).todAt = s.todAt := by
  have h := congrArg MgmtState.todAt (Calm.raise s p c).mgmt; exact h
@[simp] theorem State.raise_ppsOutAt (s : State) (p c : Nat) : (s.raise p c).ppsOutAt = s.ppsOutAt := by
  have h := congrArg MgmtState.ppsOutAt (Calm.raise s p c).mgmt; exact h
@[simp] theorem State.raise_taq (s : State) (p c : Nat) : (s.raise p c).taq = s.taq := by
  have h := congrArg MgmtState.taq (Calm.raise s p c).mgmt; exact h
@[simp] theorem State.raise_taqPosts (s : State) (p c : Nat) : (s.raise p c).taqPosts = s.taqPosts := by
  have h := congrArg MgmtState.taqPosts (Calm.raise s p c).mgmt; exact h
@[simp] theorem State.raise_taqFired (s : State) (p c : Nat) : (s.raise p c).taqFired = s.taqFired := by
  have h := congrArg MgmtState.taqFired (Calm.raise s p c).mgmt; exact h
@[simp] theorem State.raise_bonTaps (s : State) (p c : Nat) : (s.raise p c).bonTaps = s.bonTaps := by
  have h := congrArg MgmtState.bonTaps (Calm.raise s p c).mgmt; exact h
@[simp] theorem State.raise_bonInterval (s : State) (p c : Nat) : (s.raise p c).bonInterval = s.bonInterval := by
  have h := congrArg MgmtState.bonInterval (Calm.raise s p c).mgmt; exact h
@[simp] theorem State.raise_bonMeters (s : State) (p c : Nat) : (s.raise p c).bonMeters = s.bonMeters := by
  have h := congrArg MgmtState.bonMeters (Calm.raise s p c).mgmt; exact h
@[simp] theorem State.raise_bonStomped (s : State) (p c : Nat) : (s.raise p c).bonStomped = s.bonStomped := by
  have h := congrArg MgmtState.bonStomped (Calm.raise s p c).mgmt; exact h
@[simp] theorem State.raise_bonBad (s : State) (p c : Nat) : (s.raise p c).bonBad = s.bonBad := by
  have h := congrArg MgmtState.bonBad (Calm.raise s p c).mgmt; exact h
@[simp] theorem State.raise_bonImage (s : State) (p c : Nat) : (s.raise p c).bonImage = s.bonImage := by
  have h := congrArg MgmtState.bonImage (Calm.raise s p c).mgmt; exact h
@[simp] theorem State.raise_bonImageBad (s : State) (p c : Nat) : (s.raise p c).bonImageBad = s.bonImageBad := by
  have h := congrArg MgmtState.bonImageBad (Calm.raise s p c).mgmt; exact h
@[simp] theorem State.raise_bonSeq (s : State) (p c : Nat) : (s.raise p c).bonSeq = s.bonSeq := by
  have h := congrArg MgmtState.bonSeq (Calm.raise s p c).mgmt; exact h
@[simp] theorem State.raise_bonReport (s : State) (p c : Nat) : (s.raise p c).bonReport = s.bonReport := by
  have h := congrArg MgmtState.bonReport (Calm.raise s p c).mgmt; exact h
@[simp] theorem State.raise_bonRing (s : State) (p c : Nat) : (s.raise p c).bonRing = s.bonRing := by
  have h := congrArg MgmtState.bonRing (Calm.raise s p c).mgmt; exact h
@[simp] theorem State.raise_bonSeen (s : State) (p c : Nat) : (s.raise p c).bonSeen = s.bonSeen := by
  have h := congrArg MgmtState.bonSeen (Calm.raise s p c).mgmt; exact h
@[simp] theorem State.raise_bonStepped (s : State) (p c : Nat) : (s.raise p c).bonStepped = s.bonStepped := by
  have h := congrArg MgmtState.bonStepped (Calm.raise s p c).mgmt; exact h
@[simp] theorem State.raise_sps (s : State) (p c : Nat) : (s.raise p c).sps = s.sps := by
  have h := congrArg MgmtState.sps (Calm.raise s p c).mgmt; exact h
@[simp] theorem State.raise_hbAt (s : State) (p c : Nat) : (s.raise p c).hbAt = s.hbAt := by
  have h := congrArg MgmtState.hbAt (Calm.raise s p c).mgmt; exact h
@[simp] theorem State.raise_hbNs (s : State) (p c : Nat) : (s.raise p c).hbNs = s.hbNs := by
  have h := congrArg MgmtState.hbNs (Calm.raise s p c).mgmt; exact h
@[simp] theorem State.raise_hbSeen (s : State) (p c : Nat) : (s.raise p c).hbSeen = s.hbSeen := by
  have h := congrArg MgmtState.hbSeen (Calm.raise s p c).mgmt; exact h
@[simp] theorem State.raise_gapFrom (s : State) (p c : Nat) : (s.raise p c).gapFrom = s.gapFrom := by
  have h := congrArg MgmtState.gapFrom (Calm.raise s p c).mgmt; exact h
@[simp] theorem State.raise_takeoverBy (s : State) (p c : Nat) : (s.raise p c).takeoverBy = s.takeoverBy := by
  have h := congrArg MgmtState.takeoverBy (Calm.raise s p c).mgmt; exact h
@[simp] theorem State.raise_firstGrant (s : State) (p c : Nat) : (s.raise p c).firstGrant = s.firstGrant := by
  have h := congrArg MgmtState.firstGrant (Calm.raise s p c).mgmt; exact h
@[simp] theorem State.raise_takenOver (s : State) (p c : Nat) : (s.raise p c).takenOver = s.takenOver := by
  have h := congrArg MgmtState.takenOver (Calm.raise s p c).mgmt; exact h
@[simp] theorem State.raise_noActiveAt (s : State) (p c : Nat) : (s.raise p c).noActiveAt = s.noActiveAt := by
  have h := congrArg MgmtState.noActiveAt (Calm.raise s p c).mgmt; exact h
@[simp] theorem State.raise_failsafe (s : State) (p c : Nat) : (s.raise p c).failsafe = s.failsafe := by
  have h := congrArg MgmtState.failsafe (Calm.raise s p c).mgmt; exact h
@[simp] theorem State.raise_flash (s : State) (p c : Nat) : (s.raise p c).flash = s.flash := by
  have h := congrArg MgmtState.flash (Calm.raise s p c).mgmt; exact h
@[simp] theorem State.raise_fuseSvn (s : State) (p c : Nat) : (s.raise p c).fuseSvn = s.fuseSvn := by
  have h := congrArg MgmtState.fuseSvn (Calm.raise s p c).mgmt; exact h
@[simp] theorem State.raise_eraseGen (s : State) (p c : Nat) : (s.raise p c).eraseGen = s.eraseGen := by
  have h := congrArg MgmtState.eraseGen (Calm.raise s p c).mgmt; exact h
@[simp] theorem State.raise_keyRevoked (s : State) (p c : Nat) : (s.raise p c).keyRevoked = s.keyRevoked := by
  have h := congrArg MgmtState.keyRevoked (Calm.raise s p c).mgmt; exact h
@[simp] theorem State.raise_factory (s : State) (p c : Nat) : (s.raise p c).factory = s.factory := by
  have h := congrArg MgmtState.factory (Calm.raise s p c).mgmt; exact h
@[simp] theorem State.raise_fellBack (s : State) (p c : Nat) : (s.raise p c).fellBack = s.fellBack := by
  have h := congrArg MgmtState.fellBack (Calm.raise s p c).mgmt; exact h
@[simp] theorem State.raise_fwPassed (s : State) (p c : Nat) : (s.raise p c).fwPassed = s.fwPassed := by
  have h := congrArg MgmtState.fwPassed (Calm.raise s p c).mgmt; exact h
@[simp] theorem State.raise_runDigest (s : State) (p c : Nat) : (s.raise p c).runDigest = s.runDigest := by
  have h := congrArg MgmtState.runDigest (Calm.raise s p c).mgmt; exact h
@[simp] theorem State.raise_trialAt (s : State) (p c : Nat) : (s.raise p c).trialAt = s.trialAt := by
  have h := congrArg MgmtState.trialAt (Calm.raise s p c).mgmt; exact h
@[simp] theorem State.raise_fwFired (s : State) (p c : Nat) : (s.raise p c).fwFired = s.fwFired := by
  have h := congrArg MgmtState.fwFired (Calm.raise s p c).mgmt; exact h
@[simp] theorem State.raise_fwRun (s : State) (p c : Nat) : (s.raise p c).fwRun = s.fwRun := by
  have h := congrArg MgmtState.fwRun (Calm.raise s p c).mgmt; exact h
@[simp] theorem State.raise_quote (s : State) (p c : Nat) : (s.raise p c).quote = s.quote := by
  have h := congrArg MgmtState.quote (Calm.raise s p c).mgmt; exact h
@[simp] theorem State.raise_challenged (s : State) (p c : Nat) : (s.raise p c).challenged = s.challenged := by
  have h := congrArg MgmtState.challenged (Calm.raise s p c).mgmt; exact h
@[simp] theorem State.raise_token (s : State) (p c : Nat) : (s.raise p c).token = s.token := by
  have h := congrArg MgmtState.token (Calm.raise s p c).mgmt; exact h
@[simp] theorem State.raise_trace (s : State) (p c : Nat) : (s.raise p c).trace = s.trace := by
  have h := congrArg MgmtState.trace (Calm.raise s p c).mgmt; exact h
@[simp] theorem State.raise_traceAt (s : State) (p c : Nat) : (s.raise p c).traceAt = s.traceAt := by
  have h := congrArg MgmtState.traceAt (Calm.raise s p c).mgmt; exact h
@[simp] theorem State.raise_traceTags (s : State) (p c : Nat) : (s.raise p c).traceTags = s.traceTags := by
  have h := congrArg MgmtState.traceTags (Calm.raise s p c).mgmt; exact h
@[simp] theorem State.raise_shadowFlush (s : State) (p c : Nat) : (s.raise p c).shadowFlush = s.shadowFlush := by
  have h := congrArg MgmtState.shadowFlush (Calm.raise s p c).mgmt; exact h
@[simp] theorem State.raise_bw (s : State) (p c : Nat) : (s.raise p c).bw = s.bw := by
  have h := congrArg MgmtState.bw (Calm.raise s p c).mgmt; exact h
@[simp] theorem State.raise_bwFrom (s : State) (p c : Nat) : (s.raise p c).bwFrom = s.bwFrom := by
  have h := congrArg MgmtState.bwFrom (Calm.raise s p c).mgmt; exact h
@[simp] theorem State.raise_bfdHeard (s : State) (p c : Nat) : (s.raise p c).bfdHeard = s.bfdHeard := by
  have h := congrArg HostState.bfdHeard (Calm.raise s p c).host; exact h
@[simp] theorem State.raise_bfdSent (s : State) (p c : Nat) : (s.raise p c).bfdSent = s.bfdSent := by
  have h := congrArg HostState.bfdSent (Calm.raise s p c).host; exact h
@[simp] theorem State.raise_ipfixSwept (s : State) (p c : Nat) : (s.raise p c).ipfixSwept = s.ipfixSwept := by
  have h := congrArg HostState.ipfixSwept (Calm.raise s p c).host; exact h
@[simp] theorem State.raise_ipfixTplAt (s : State) (p c : Nat) : (s.raise p c).ipfixTplAt = s.ipfixTplAt := by
  have h := congrArg HostState.ipfixTplAt (Calm.raise s p c).host; exact h
@[simp] theorem State.raise_ppsOutLast (s : State) (p c : Nat) : (s.raise p c).ppsOutLast = s.ppsOutLast := by
  have h := congrArg MgmtState.ppsOutLast (Calm.raise s p c).mgmt; exact h
@[simp] theorem State.raise_synceAt (s : State) (p c : Nat) : (s.raise p c).synceAt = s.synceAt := by
  have h := congrArg MgmtState.synceAt (Calm.raise s p c).mgmt; exact h
@[simp] theorem State.raise_bonLost (s : State) (p c : Nat) : (s.raise p c).bonLost = s.bonLost := by
  have h := congrArg MgmtState.bonLost (Calm.raise s p c).mgmt; exact h
@[simp] theorem State.raise_bonAsked (s : State) (p c : Nat) : (s.raise p c).bonAsked = s.bonAsked := by
  have h := congrArg MgmtState.bonAsked (Calm.raise s p c).mgmt; exact h
@[simp] theorem State.raise_fwHeld (s : State) (p c : Nat) : (s.raise p c).fwHeld = s.fwHeld := by
  have h := congrArg MgmtState.fwHeld (Calm.raise s p c).mgmt; exact h
@[simp] theorem State.raise_secHeld (s : State) (p c : Nat) : (s.raise p c).secHeld = s.secHeld := by
  have h := congrArg MgmtState.secHeld (Calm.raise s p c).mgmt; exact h
@[simp] theorem State.raise_jtag (s : State) (p c : Nat) : (s.raise p c).jtag = s.jtag := by
  have h := congrArg MgmtState.jtag (Calm.raise s p c).mgmt; exact h
@[simp] theorem State.raise_bwUs (s : State) (p c : Nat) : (s.raise p c).bwUs = s.bwUs := by
  have h := congrArg MgmtState.bwUs (Calm.raise s p c).mgmt; exact h
@[simp] theorem State.raise_thermHeld (s : State) (p c : Nat) : (s.raise p c).thermHeld = s.thermHeld := by
  have h := congrArg MgmtState.thermHeld (Calm.raise s p c).mgmt; exact h
@[simp] theorem State.raise_logRun (s : State) (p c : Nat) : (s.raise p c).logRun = s.logRun := by
  have h := congrArg MgmtState.logRun (Calm.raise s p c).mgmt; exact h
@[simp] theorem State.raise_traceRun (s : State) (p c : Nat) : (s.raise p c).traceRun = s.traceRun := by
  have h := congrArg MgmtState.traceRun (Calm.raise s p c).mgmt; exact h
@[simp] theorem State.raise_legSeen (s : State) (p c : Nat) : (s.raise p c).legSeen = s.legSeen := by
  have h := congrArg MgmtState.legSeen (Calm.raise s p c).mgmt; exact h
@[simp] theorem State.raise_legAt (s : State) (p c : Nat) : (s.raise p c).legAt = s.legAt := by
  have h := congrArg MgmtState.legAt (Calm.raise s p c).mgmt; exact h
@[simp] theorem State.raise_pwrgood (s : State) (p c : Nat) : (s.raise p c).pwrgood = s.pwrgood := by
  have h := congrArg MgmtState.pwrgood (Calm.raise s p c).mgmt; exact h
@[simp] theorem State.raise_startFrom (s : State) (p c : Nat) : (s.raise p c).startFrom = s.startFrom := by
  have h := congrArg MgmtState.startFrom (Calm.raise s p c).mgmt; exact h
@[simp] theorem State.raise_warming (s : State) (p c : Nat) : (s.raise p c).warming = s.warming := by
  have h := congrArg MgmtState.warming (Calm.raise s p c).mgmt; exact h
@[simp] theorem State.raise_domTrans (s : State) (p c : Nat) : (s.raise p c).domTrans = s.domTrans := by
  have h := congrArg MgmtState.domTrans (Calm.raise s p c).mgmt; exact h
@[simp] theorem State.raise_domHeld (s : State) (p c : Nat) : (s.raise p c).domHeld = s.domHeld := by
  have h := congrArg MgmtState.domHeld (Calm.raise s p c).mgmt; exact h
@[simp] theorem State.raise_serdesWait (s : State) (p c : Nat) : (s.raise p c).serdesWait = s.serdesWait := by
  have h := congrArg MgmtState.serdesWait (Calm.raise s p c).mgmt; exact h
@[simp] theorem State.raise_hbmTripAt (s : State) (p c : Nat) : (s.raise p c).hbmTripAt = s.hbmTripAt := by
  have h := congrArg MgmtState.hbmTripAt (Calm.raise s p c).mgmt; exact h
@[simp] theorem State.raise_perstAt (s : State) (p c : Nat) : (s.raise p c).perstAt = s.perstAt := by
  have h := congrArg MgmtState.perstAt (Calm.raise s p c).mgmt; exact h
@[simp] theorem State.raise_srns (s : State) (p c : Nat) : (s.raise p c).srns = s.srns := by
  have h := congrArg MgmtState.srns (Calm.raise s p c).mgmt; exact h

/-! ### Under a condition -/

@[simp] theorem State.raiseIf_pending (s : State) (b : Bool) (p c : Nat) : (s.raiseIf b p c).pending = s.pending := (Calm.raiseIf s b p c).pending
@[simp] theorem State.raiseIf_ticks (s : State) (b : Bool) (p c : Nat) : (s.raiseIf b p c).ticks = s.ticks := (Calm.raiseIf s b p c).ticks
@[simp] theorem State.raiseIf_nt (s : State) (b : Bool) (p c : Nat) : (s.raiseIf b p c).nt = s.nt := (Calm.raiseIf s b p c).nt
@[simp] theorem State.raiseIf_timeHold (s : State) (b : Bool) (p c : Nat) : (s.raiseIf b p c).timeHold = s.timeHold := (Calm.raiseIf s b p c).timeHold
@[simp] theorem State.raiseIf_hold (s : State) (b : Bool) (p c : Nat) : (s.raiseIf b p c).hold = s.hold := (Calm.raiseIf s b p c).hold
@[simp] theorem State.raiseIf_toBandState (s : State) (b : Bool) (p c : Nat) : (s.raiseIf b p c).toBandState = s.toBandState := (Calm.raiseIf s b p c).band
@[simp] theorem State.raiseIf_toLineState (s : State) (b : Bool) (p c : Nat) : (s.raiseIf b p c).toLineState = s.toLineState := (Calm.raiseIf s b p c).line
@[simp] theorem State.raiseIf_toPipeState (s : State) (b : Bool) (p c : Nat) : (s.raiseIf b p c).toPipeState = s.toPipeState := (Calm.raiseIf s b p c).pipe
@[simp] theorem State.raiseIf_toQdState (s : State) (b : Bool) (p c : Nat) : (s.raiseIf b p c).toQdState = s.toQdState := (Calm.raiseIf s b p c).qd
@[simp] theorem State.raiseIf_tags (s : State) (b : Bool) (p c : Nat) : (s.raiseIf b p c).tags = s.tags := by
  have h := congrArg HostState.tags (Calm.raiseIf s b p c).host; exact h
@[simp] theorem State.raiseIf_vfSince (s : State) (b : Bool) (p c : Nat) : (s.raiseIf b p c).vfSince = s.vfSince := by
  have h := congrArg HostState.vfSince (Calm.raiseIf s b p c).host; exact h
@[simp] theorem State.raiseIf_perstHigh (s : State) (b : Bool) (p c : Nat) : (s.raiseIf b p c).perstHigh = s.perstHigh := by
  have h := congrArg HostState.perstHigh (Calm.raiseIf s b p c).host; exact h
@[simp] theorem State.raiseIf_subsys (s : State) (b : Bool) (p c : Nat) : (s.raiseIf b p c).subsys = s.subsys := by
  have h := congrArg HostState.subsys (Calm.raiseIf s b p c).host; exact h
@[simp] theorem State.raiseIf_retraining (s : State) (b : Bool) (p c : Nat) : (s.raiseIf b p c).retraining = s.retraining := by
  have h := congrArg HostState.retraining (Calm.raiseIf s b p c).host; exact h
@[simp] theorem State.raiseIf_qps (s : State) (b : Bool) (p c : Nat) : (s.raiseIf b p c).qps = s.qps := by
  have h := congrArg HostState.qps (Calm.raiseIf s b p c).host; exact h
@[simp] theorem State.raiseIf_vfs (s : State) (b : Bool) (p c : Nat) : (s.raiseIf b p c).vfs = s.vfs := by
  have h := congrArg HostState.vfs (Calm.raiseIf s b p c).host; exact h
@[simp] theorem State.raiseIf_txCur (s : State) (b : Bool) (p c : Nat) : (s.raiseIf b p c).txCur = s.txCur := by
  have h := congrArg HostState.txCur (Calm.raiseIf s b p c).host; exact h
@[simp] theorem State.raiseIf_qpRun (s : State) (b : Bool) (p c : Nat) : (s.raiseIf b p c).qpRun = s.qpRun := by
  have h := congrArg HostState.qpRun (Calm.raiseIf s b p c).host; exact h
@[simp] theorem State.raiseIf_vfmRun (s : State) (b : Bool) (p c : Nat) : (s.raiseIf b p c).vfmRun = s.vfmRun := by
  have h := congrArg HostState.vfmRun (Calm.raiseIf s b p c).host; exact h
@[simp] theorem State.raiseIf_hostRx (s : State) (b : Bool) (p c : Nat) : (s.raiseIf b p c).hostRx = s.hostRx := by
  have h := congrArg HostState.hostRx (Calm.raiseIf s b p c).host; exact h
@[simp] theorem State.raiseIf_ipsSas (s : State) (b : Bool) (p c : Nat) : (s.raiseIf b p c).ipsSas = s.ipsSas := by
  have h := congrArg HostState.ipsSas (Calm.raiseIf s b p c).host; exact h
@[simp] theorem State.raiseIf_ipsHost (s : State) (b : Bool) (p c : Nat) : (s.raiseIf b p c).ipsHost = s.ipsHost := by
  have h := congrArg HostState.ipsHost (Calm.raiseIf s b p c).host; exact h
@[simp] theorem State.raiseIf_ipsTransit (s : State) (b : Bool) (p c : Nat) : (s.raiseIf b p c).ipsTransit = s.ipsTransit := by
  have h := congrArg HostState.ipsTransit (Calm.raiseIf s b p c).host; exact h
@[simp] theorem State.raiseIf_ipsDef (s : State) (b : Bool) (p c : Nat) : (s.raiseIf b p c).ipsDef = s.ipsDef := by
  have h := congrArg HostState.ipsDef (Calm.raiseIf s b p c).host; exact h
@[simp] theorem State.raiseIf_ipsOnHost (s : State) (b : Bool) (p c : Nat) : (s.raiseIf b p c).ipsOnHost = s.ipsOnHost := by
  have h := congrArg HostState.ipsOnHost (Calm.raiseIf s b p c).host; exact h
@[simp] theorem State.raiseIf_keks (s : State) (b : Bool) (p c : Nat) : (s.raiseIf b p c).keks = s.keks := by
  have h := congrArg HostState.keks (Calm.raiseIf s b p c).host; exact h
@[simp] theorem State.raiseIf_kekExport (s : State) (b : Bool) (p c : Nat) : (s.raiseIf b p c).kekExport = s.kekExport := by
  have h := congrArg HostState.kekExport (Calm.raiseIf s b p c).host; exact h
@[simp] theorem State.raiseIf_nvs (s : State) (b : Bool) (p c : Nat) : (s.raiseIf b p c).nvs = s.nvs := by
  have h := congrArg HostState.nvs (Calm.raiseIf s b p c).host; exact h
@[simp] theorem State.raiseIf_sess (s : State) (b : Bool) (p c : Nat) : (s.raiseIf b p c).sess = s.sess := by
  have h := congrArg HostState.sess (Calm.raiseIf s b p c).host; exact h
@[simp] theorem State.raiseIf_svcTpl (s : State) (b : Bool) (p c : Nat) : (s.raiseIf b p c).svcTpl = s.svcTpl := by
  have h := congrArg HostState.svcTpl (Calm.raiseIf s b p c).host; exact h
@[simp] theorem State.raiseIf_bfdIn (s : State) (b : Bool) (p c : Nat) : (s.raiseIf b p c).bfdIn = s.bfdIn := by
  have h := congrArg HostState.bfdIn (Calm.raiseIf s b p c).host; exact h
@[simp] theorem State.raiseIf_bfdEvents (s : State) (b : Bool) (p c : Nat) : (s.raiseIf b p c).bfdEvents = s.bfdEvents := by
  have h := congrArg HostState.bfdEvents (Calm.raiseIf s b p c).host; exact h
@[simp] theorem State.raiseIf_rsp (s : State) (b : Bool) (p c : Nat) : (s.raiseIf b p c).rsp = s.rsp := by
  have h := congrArg HostState.rsp (Calm.raiseIf s b p c).host; exact h
@[simp] theorem State.raiseIf_rspIn (s : State) (b : Bool) (p c : Nat) : (s.raiseIf b p c).rspIn = s.rspIn := by
  have h := congrArg HostState.rspIn (Calm.raiseIf s b p c).host; exact h
@[simp] theorem State.raiseIf_flowIn (s : State) (b : Bool) (p c : Nat) : (s.raiseIf b p c).flowIn = s.flowIn := by
  have h := congrArg HostState.flowIn (Calm.raiseIf s b p c).host; exact h
@[simp] theorem State.raiseIf_flows (s : State) (b : Bool) (p c : Nat) : (s.raiseIf b p c).flows = s.flows := by
  have h := congrArg HostState.flows (Calm.raiseIf s b p c).host; exact h
@[simp] theorem State.raiseIf_ipfixSeq (s : State) (b : Bool) (p c : Nat) : (s.raiseIf b p c).ipfixSeq = s.ipfixSeq := by
  have h := congrArg HostState.ipfixSeq (Calm.raiseIf s b p c).host; exact h
@[simp] theorem State.raiseIf_ntPending (s : State) (b : Bool) (p c : Nat) : (s.raiseIf b p c).ntPending = s.ntPending := by
  have h := congrArg MgmtState.ntPending (Calm.raiseIf s b p c).mgmt; exact h
@[simp] theorem State.raiseIf_ppsAt (s : State) (b : Bool) (p c : Nat) : (s.raiseIf b p c).ppsAt = s.ppsAt := by
  have h := congrArg MgmtState.ppsAt (Calm.raiseIf s b p c).mgmt; exact h
@[simp] theorem State.raiseIf_ppsCap (s : State) (b : Bool) (p c : Nat) : (s.raiseIf b p c).ppsCap = s.ppsCap := by
  have h := congrArg MgmtState.ppsCap (Calm.raiseIf s b p c).mgmt; exact h
@[simp] theorem State.raiseIf_ntArm (s : State) (b : Bool) (p c : Nat) : (s.raiseIf b p c).ntArm = s.ntArm := by
  have h := congrArg MgmtState.ntArm (Calm.raiseIf s b p c).mgmt; exact h
@[simp] theorem State.raiseIf_todSec (s : State) (b : Bool) (p c : Nat) : (s.raiseIf b p c).todSec = s.todSec := by
  have h := congrArg MgmtState.todSec (Calm.raiseIf s b p c).mgmt; exact h
@[simp] theorem State.raiseIf_todAt (s : State) (b : Bool) (p c : Nat) : (s.raiseIf b p c).todAt = s.todAt := by
  have h := congrArg MgmtState.todAt (Calm.raiseIf s b p c).mgmt; exact h
@[simp] theorem State.raiseIf_ppsOutAt (s : State) (b : Bool) (p c : Nat) : (s.raiseIf b p c).ppsOutAt = s.ppsOutAt := by
  have h := congrArg MgmtState.ppsOutAt (Calm.raiseIf s b p c).mgmt; exact h
@[simp] theorem State.raiseIf_taq (s : State) (b : Bool) (p c : Nat) : (s.raiseIf b p c).taq = s.taq := by
  have h := congrArg MgmtState.taq (Calm.raiseIf s b p c).mgmt; exact h
@[simp] theorem State.raiseIf_taqPosts (s : State) (b : Bool) (p c : Nat) : (s.raiseIf b p c).taqPosts = s.taqPosts := by
  have h := congrArg MgmtState.taqPosts (Calm.raiseIf s b p c).mgmt; exact h
@[simp] theorem State.raiseIf_taqFired (s : State) (b : Bool) (p c : Nat) : (s.raiseIf b p c).taqFired = s.taqFired := by
  have h := congrArg MgmtState.taqFired (Calm.raiseIf s b p c).mgmt; exact h
@[simp] theorem State.raiseIf_bonTaps (s : State) (b : Bool) (p c : Nat) : (s.raiseIf b p c).bonTaps = s.bonTaps := by
  have h := congrArg MgmtState.bonTaps (Calm.raiseIf s b p c).mgmt; exact h
@[simp] theorem State.raiseIf_bonInterval (s : State) (b : Bool) (p c : Nat) : (s.raiseIf b p c).bonInterval = s.bonInterval := by
  have h := congrArg MgmtState.bonInterval (Calm.raiseIf s b p c).mgmt; exact h
@[simp] theorem State.raiseIf_bonMeters (s : State) (b : Bool) (p c : Nat) : (s.raiseIf b p c).bonMeters = s.bonMeters := by
  have h := congrArg MgmtState.bonMeters (Calm.raiseIf s b p c).mgmt; exact h
@[simp] theorem State.raiseIf_bonStomped (s : State) (b : Bool) (p c : Nat) : (s.raiseIf b p c).bonStomped = s.bonStomped := by
  have h := congrArg MgmtState.bonStomped (Calm.raiseIf s b p c).mgmt; exact h
@[simp] theorem State.raiseIf_bonBad (s : State) (b : Bool) (p c : Nat) : (s.raiseIf b p c).bonBad = s.bonBad := by
  have h := congrArg MgmtState.bonBad (Calm.raiseIf s b p c).mgmt; exact h
@[simp] theorem State.raiseIf_bonImage (s : State) (b : Bool) (p c : Nat) : (s.raiseIf b p c).bonImage = s.bonImage := by
  have h := congrArg MgmtState.bonImage (Calm.raiseIf s b p c).mgmt; exact h
@[simp] theorem State.raiseIf_bonImageBad (s : State) (b : Bool) (p c : Nat) : (s.raiseIf b p c).bonImageBad = s.bonImageBad := by
  have h := congrArg MgmtState.bonImageBad (Calm.raiseIf s b p c).mgmt; exact h
@[simp] theorem State.raiseIf_bonSeq (s : State) (b : Bool) (p c : Nat) : (s.raiseIf b p c).bonSeq = s.bonSeq := by
  have h := congrArg MgmtState.bonSeq (Calm.raiseIf s b p c).mgmt; exact h
@[simp] theorem State.raiseIf_bonReport (s : State) (b : Bool) (p c : Nat) : (s.raiseIf b p c).bonReport = s.bonReport := by
  have h := congrArg MgmtState.bonReport (Calm.raiseIf s b p c).mgmt; exact h
@[simp] theorem State.raiseIf_bonRing (s : State) (b : Bool) (p c : Nat) : (s.raiseIf b p c).bonRing = s.bonRing := by
  have h := congrArg MgmtState.bonRing (Calm.raiseIf s b p c).mgmt; exact h
@[simp] theorem State.raiseIf_bonSeen (s : State) (b : Bool) (p c : Nat) : (s.raiseIf b p c).bonSeen = s.bonSeen := by
  have h := congrArg MgmtState.bonSeen (Calm.raiseIf s b p c).mgmt; exact h
@[simp] theorem State.raiseIf_bonStepped (s : State) (b : Bool) (p c : Nat) : (s.raiseIf b p c).bonStepped = s.bonStepped := by
  have h := congrArg MgmtState.bonStepped (Calm.raiseIf s b p c).mgmt; exact h
@[simp] theorem State.raiseIf_sps (s : State) (b : Bool) (p c : Nat) : (s.raiseIf b p c).sps = s.sps := by
  have h := congrArg MgmtState.sps (Calm.raiseIf s b p c).mgmt; exact h
@[simp] theorem State.raiseIf_hbAt (s : State) (b : Bool) (p c : Nat) : (s.raiseIf b p c).hbAt = s.hbAt := by
  have h := congrArg MgmtState.hbAt (Calm.raiseIf s b p c).mgmt; exact h
@[simp] theorem State.raiseIf_hbNs (s : State) (b : Bool) (p c : Nat) : (s.raiseIf b p c).hbNs = s.hbNs := by
  have h := congrArg MgmtState.hbNs (Calm.raiseIf s b p c).mgmt; exact h
@[simp] theorem State.raiseIf_hbSeen (s : State) (b : Bool) (p c : Nat) : (s.raiseIf b p c).hbSeen = s.hbSeen := by
  have h := congrArg MgmtState.hbSeen (Calm.raiseIf s b p c).mgmt; exact h
@[simp] theorem State.raiseIf_gapFrom (s : State) (b : Bool) (p c : Nat) : (s.raiseIf b p c).gapFrom = s.gapFrom := by
  have h := congrArg MgmtState.gapFrom (Calm.raiseIf s b p c).mgmt; exact h
@[simp] theorem State.raiseIf_takeoverBy (s : State) (b : Bool) (p c : Nat) : (s.raiseIf b p c).takeoverBy = s.takeoverBy := by
  have h := congrArg MgmtState.takeoverBy (Calm.raiseIf s b p c).mgmt; exact h
@[simp] theorem State.raiseIf_firstGrant (s : State) (b : Bool) (p c : Nat) : (s.raiseIf b p c).firstGrant = s.firstGrant := by
  have h := congrArg MgmtState.firstGrant (Calm.raiseIf s b p c).mgmt; exact h
@[simp] theorem State.raiseIf_takenOver (s : State) (b : Bool) (p c : Nat) : (s.raiseIf b p c).takenOver = s.takenOver := by
  have h := congrArg MgmtState.takenOver (Calm.raiseIf s b p c).mgmt; exact h
@[simp] theorem State.raiseIf_noActiveAt (s : State) (b : Bool) (p c : Nat) : (s.raiseIf b p c).noActiveAt = s.noActiveAt := by
  have h := congrArg MgmtState.noActiveAt (Calm.raiseIf s b p c).mgmt; exact h
@[simp] theorem State.raiseIf_failsafe (s : State) (b : Bool) (p c : Nat) : (s.raiseIf b p c).failsafe = s.failsafe := by
  have h := congrArg MgmtState.failsafe (Calm.raiseIf s b p c).mgmt; exact h
@[simp] theorem State.raiseIf_flash (s : State) (b : Bool) (p c : Nat) : (s.raiseIf b p c).flash = s.flash := by
  have h := congrArg MgmtState.flash (Calm.raiseIf s b p c).mgmt; exact h
@[simp] theorem State.raiseIf_fuseSvn (s : State) (b : Bool) (p c : Nat) : (s.raiseIf b p c).fuseSvn = s.fuseSvn := by
  have h := congrArg MgmtState.fuseSvn (Calm.raiseIf s b p c).mgmt; exact h
@[simp] theorem State.raiseIf_eraseGen (s : State) (b : Bool) (p c : Nat) : (s.raiseIf b p c).eraseGen = s.eraseGen := by
  have h := congrArg MgmtState.eraseGen (Calm.raiseIf s b p c).mgmt; exact h
@[simp] theorem State.raiseIf_keyRevoked (s : State) (b : Bool) (p c : Nat) : (s.raiseIf b p c).keyRevoked = s.keyRevoked := by
  have h := congrArg MgmtState.keyRevoked (Calm.raiseIf s b p c).mgmt; exact h
@[simp] theorem State.raiseIf_factory (s : State) (b : Bool) (p c : Nat) : (s.raiseIf b p c).factory = s.factory := by
  have h := congrArg MgmtState.factory (Calm.raiseIf s b p c).mgmt; exact h
@[simp] theorem State.raiseIf_fellBack (s : State) (b : Bool) (p c : Nat) : (s.raiseIf b p c).fellBack = s.fellBack := by
  have h := congrArg MgmtState.fellBack (Calm.raiseIf s b p c).mgmt; exact h
@[simp] theorem State.raiseIf_fwPassed (s : State) (b : Bool) (p c : Nat) : (s.raiseIf b p c).fwPassed = s.fwPassed := by
  have h := congrArg MgmtState.fwPassed (Calm.raiseIf s b p c).mgmt; exact h
@[simp] theorem State.raiseIf_runDigest (s : State) (b : Bool) (p c : Nat) : (s.raiseIf b p c).runDigest = s.runDigest := by
  have h := congrArg MgmtState.runDigest (Calm.raiseIf s b p c).mgmt; exact h
@[simp] theorem State.raiseIf_trialAt (s : State) (b : Bool) (p c : Nat) : (s.raiseIf b p c).trialAt = s.trialAt := by
  have h := congrArg MgmtState.trialAt (Calm.raiseIf s b p c).mgmt; exact h
@[simp] theorem State.raiseIf_fwFired (s : State) (b : Bool) (p c : Nat) : (s.raiseIf b p c).fwFired = s.fwFired := by
  have h := congrArg MgmtState.fwFired (Calm.raiseIf s b p c).mgmt; exact h
@[simp] theorem State.raiseIf_fwRun (s : State) (b : Bool) (p c : Nat) : (s.raiseIf b p c).fwRun = s.fwRun := by
  have h := congrArg MgmtState.fwRun (Calm.raiseIf s b p c).mgmt; exact h
@[simp] theorem State.raiseIf_quote (s : State) (b : Bool) (p c : Nat) : (s.raiseIf b p c).quote = s.quote := by
  have h := congrArg MgmtState.quote (Calm.raiseIf s b p c).mgmt; exact h
@[simp] theorem State.raiseIf_challenged (s : State) (b : Bool) (p c : Nat) : (s.raiseIf b p c).challenged = s.challenged := by
  have h := congrArg MgmtState.challenged (Calm.raiseIf s b p c).mgmt; exact h
@[simp] theorem State.raiseIf_token (s : State) (b : Bool) (p c : Nat) : (s.raiseIf b p c).token = s.token := by
  have h := congrArg MgmtState.token (Calm.raiseIf s b p c).mgmt; exact h
@[simp] theorem State.raiseIf_trace (s : State) (b : Bool) (p c : Nat) : (s.raiseIf b p c).trace = s.trace := by
  have h := congrArg MgmtState.trace (Calm.raiseIf s b p c).mgmt; exact h
@[simp] theorem State.raiseIf_traceAt (s : State) (b : Bool) (p c : Nat) : (s.raiseIf b p c).traceAt = s.traceAt := by
  have h := congrArg MgmtState.traceAt (Calm.raiseIf s b p c).mgmt; exact h
@[simp] theorem State.raiseIf_traceTags (s : State) (b : Bool) (p c : Nat) : (s.raiseIf b p c).traceTags = s.traceTags := by
  have h := congrArg MgmtState.traceTags (Calm.raiseIf s b p c).mgmt; exact h
@[simp] theorem State.raiseIf_shadowFlush (s : State) (b : Bool) (p c : Nat) : (s.raiseIf b p c).shadowFlush = s.shadowFlush := by
  have h := congrArg MgmtState.shadowFlush (Calm.raiseIf s b p c).mgmt; exact h
@[simp] theorem State.raiseIf_bw (s : State) (b : Bool) (p c : Nat) : (s.raiseIf b p c).bw = s.bw := by
  have h := congrArg MgmtState.bw (Calm.raiseIf s b p c).mgmt; exact h
@[simp] theorem State.raiseIf_bwFrom (s : State) (b : Bool) (p c : Nat) : (s.raiseIf b p c).bwFrom = s.bwFrom := by
  have h := congrArg MgmtState.bwFrom (Calm.raiseIf s b p c).mgmt; exact h
@[simp] theorem State.raiseIf_bfdHeard (s : State) (b : Bool) (p c : Nat) : (s.raiseIf b p c).bfdHeard = s.bfdHeard := by
  have h := congrArg HostState.bfdHeard (Calm.raiseIf s b p c).host; exact h
@[simp] theorem State.raiseIf_bfdSent (s : State) (b : Bool) (p c : Nat) : (s.raiseIf b p c).bfdSent = s.bfdSent := by
  have h := congrArg HostState.bfdSent (Calm.raiseIf s b p c).host; exact h
@[simp] theorem State.raiseIf_ipfixSwept (s : State) (b : Bool) (p c : Nat) : (s.raiseIf b p c).ipfixSwept = s.ipfixSwept := by
  have h := congrArg HostState.ipfixSwept (Calm.raiseIf s b p c).host; exact h
@[simp] theorem State.raiseIf_ipfixTplAt (s : State) (b : Bool) (p c : Nat) : (s.raiseIf b p c).ipfixTplAt = s.ipfixTplAt := by
  have h := congrArg HostState.ipfixTplAt (Calm.raiseIf s b p c).host; exact h
@[simp] theorem State.raiseIf_ppsOutLast (s : State) (b : Bool) (p c : Nat) : (s.raiseIf b p c).ppsOutLast = s.ppsOutLast := by
  have h := congrArg MgmtState.ppsOutLast (Calm.raiseIf s b p c).mgmt; exact h
@[simp] theorem State.raiseIf_synceAt (s : State) (b : Bool) (p c : Nat) : (s.raiseIf b p c).synceAt = s.synceAt := by
  have h := congrArg MgmtState.synceAt (Calm.raiseIf s b p c).mgmt; exact h
@[simp] theorem State.raiseIf_bonLost (s : State) (b : Bool) (p c : Nat) : (s.raiseIf b p c).bonLost = s.bonLost := by
  have h := congrArg MgmtState.bonLost (Calm.raiseIf s b p c).mgmt; exact h
@[simp] theorem State.raiseIf_bonAsked (s : State) (b : Bool) (p c : Nat) : (s.raiseIf b p c).bonAsked = s.bonAsked := by
  have h := congrArg MgmtState.bonAsked (Calm.raiseIf s b p c).mgmt; exact h
@[simp] theorem State.raiseIf_fwHeld (s : State) (b : Bool) (p c : Nat) : (s.raiseIf b p c).fwHeld = s.fwHeld := by
  have h := congrArg MgmtState.fwHeld (Calm.raiseIf s b p c).mgmt; exact h
@[simp] theorem State.raiseIf_secHeld (s : State) (b : Bool) (p c : Nat) : (s.raiseIf b p c).secHeld = s.secHeld := by
  have h := congrArg MgmtState.secHeld (Calm.raiseIf s b p c).mgmt; exact h
@[simp] theorem State.raiseIf_jtag (s : State) (b : Bool) (p c : Nat) : (s.raiseIf b p c).jtag = s.jtag := by
  have h := congrArg MgmtState.jtag (Calm.raiseIf s b p c).mgmt; exact h
@[simp] theorem State.raiseIf_bwUs (s : State) (b : Bool) (p c : Nat) : (s.raiseIf b p c).bwUs = s.bwUs := by
  have h := congrArg MgmtState.bwUs (Calm.raiseIf s b p c).mgmt; exact h
@[simp] theorem State.raiseIf_thermHeld (s : State) (b : Bool) (p c : Nat) : (s.raiseIf b p c).thermHeld = s.thermHeld := by
  have h := congrArg MgmtState.thermHeld (Calm.raiseIf s b p c).mgmt; exact h
@[simp] theorem State.raiseIf_logRun (s : State) (b : Bool) (p c : Nat) : (s.raiseIf b p c).logRun = s.logRun := by
  have h := congrArg MgmtState.logRun (Calm.raiseIf s b p c).mgmt; exact h
@[simp] theorem State.raiseIf_traceRun (s : State) (b : Bool) (p c : Nat) : (s.raiseIf b p c).traceRun = s.traceRun := by
  have h := congrArg MgmtState.traceRun (Calm.raiseIf s b p c).mgmt; exact h
@[simp] theorem State.raiseIf_legSeen (s : State) (b : Bool) (p c : Nat) : (s.raiseIf b p c).legSeen = s.legSeen := by
  have h := congrArg MgmtState.legSeen (Calm.raiseIf s b p c).mgmt; exact h
@[simp] theorem State.raiseIf_legAt (s : State) (b : Bool) (p c : Nat) : (s.raiseIf b p c).legAt = s.legAt := by
  have h := congrArg MgmtState.legAt (Calm.raiseIf s b p c).mgmt; exact h
@[simp] theorem State.raiseIf_pwrgood (s : State) (b : Bool) (p c : Nat) : (s.raiseIf b p c).pwrgood = s.pwrgood := by
  have h := congrArg MgmtState.pwrgood (Calm.raiseIf s b p c).mgmt; exact h
@[simp] theorem State.raiseIf_startFrom (s : State) (b : Bool) (p c : Nat) : (s.raiseIf b p c).startFrom = s.startFrom := by
  have h := congrArg MgmtState.startFrom (Calm.raiseIf s b p c).mgmt; exact h
@[simp] theorem State.raiseIf_warming (s : State) (b : Bool) (p c : Nat) : (s.raiseIf b p c).warming = s.warming := by
  have h := congrArg MgmtState.warming (Calm.raiseIf s b p c).mgmt; exact h
@[simp] theorem State.raiseIf_domTrans (s : State) (b : Bool) (p c : Nat) : (s.raiseIf b p c).domTrans = s.domTrans := by
  have h := congrArg MgmtState.domTrans (Calm.raiseIf s b p c).mgmt; exact h
@[simp] theorem State.raiseIf_domHeld (s : State) (b : Bool) (p c : Nat) : (s.raiseIf b p c).domHeld = s.domHeld := by
  have h := congrArg MgmtState.domHeld (Calm.raiseIf s b p c).mgmt; exact h
@[simp] theorem State.raiseIf_serdesWait (s : State) (b : Bool) (p c : Nat) : (s.raiseIf b p c).serdesWait = s.serdesWait := by
  have h := congrArg MgmtState.serdesWait (Calm.raiseIf s b p c).mgmt; exact h
@[simp] theorem State.raiseIf_hbmTripAt (s : State) (b : Bool) (p c : Nat) : (s.raiseIf b p c).hbmTripAt = s.hbmTripAt := by
  have h := congrArg MgmtState.hbmTripAt (Calm.raiseIf s b p c).mgmt; exact h
@[simp] theorem State.raiseIf_perstAt (s : State) (b : Bool) (p c : Nat) : (s.raiseIf b p c).perstAt = s.perstAt := by
  have h := congrArg MgmtState.perstAt (Calm.raiseIf s b p c).mgmt; exact h
@[simp] theorem State.raiseIf_srns (s : State) (b : Bool) (p c : Nat) : (s.raiseIf b p c).srns = s.srns := by
  have h := congrArg MgmtState.srns (Calm.raiseIf s b p c).mgmt; exact h

/-! ### An MSI-X event -/

@[simp] theorem State.msix_pending (s : State) (fn v : Nat) : (s.msix fn v).pending = s.pending := (Calm.msix s fn v).pending
@[simp] theorem State.msix_ticks (s : State) (fn v : Nat) : (s.msix fn v).ticks = s.ticks := (Calm.msix s fn v).ticks
@[simp] theorem State.msix_nt (s : State) (fn v : Nat) : (s.msix fn v).nt = s.nt := (Calm.msix s fn v).nt
@[simp] theorem State.msix_timeHold (s : State) (fn v : Nat) : (s.msix fn v).timeHold = s.timeHold := (Calm.msix s fn v).timeHold
@[simp] theorem State.msix_hold (s : State) (fn v : Nat) : (s.msix fn v).hold = s.hold := (Calm.msix s fn v).hold
@[simp] theorem State.msix_toBandState (s : State) (fn v : Nat) : (s.msix fn v).toBandState = s.toBandState := (Calm.msix s fn v).band
@[simp] theorem State.msix_toLineState (s : State) (fn v : Nat) : (s.msix fn v).toLineState = s.toLineState := (Calm.msix s fn v).line
@[simp] theorem State.msix_toPipeState (s : State) (fn v : Nat) : (s.msix fn v).toPipeState = s.toPipeState := (Calm.msix s fn v).pipe
@[simp] theorem State.msix_toQdState (s : State) (fn v : Nat) : (s.msix fn v).toQdState = s.toQdState := (Calm.msix s fn v).qd
@[simp] theorem State.msix_tags (s : State) (fn v : Nat) : (s.msix fn v).tags = s.tags := by
  have h := congrArg HostState.tags (Calm.msix s fn v).host; exact h
@[simp] theorem State.msix_vfSince (s : State) (fn v : Nat) : (s.msix fn v).vfSince = s.vfSince := by
  have h := congrArg HostState.vfSince (Calm.msix s fn v).host; exact h
@[simp] theorem State.msix_perstHigh (s : State) (fn v : Nat) : (s.msix fn v).perstHigh = s.perstHigh := by
  have h := congrArg HostState.perstHigh (Calm.msix s fn v).host; exact h
@[simp] theorem State.msix_subsys (s : State) (fn v : Nat) : (s.msix fn v).subsys = s.subsys := by
  have h := congrArg HostState.subsys (Calm.msix s fn v).host; exact h
@[simp] theorem State.msix_retraining (s : State) (fn v : Nat) : (s.msix fn v).retraining = s.retraining := by
  have h := congrArg HostState.retraining (Calm.msix s fn v).host; exact h
@[simp] theorem State.msix_qps (s : State) (fn v : Nat) : (s.msix fn v).qps = s.qps := by
  have h := congrArg HostState.qps (Calm.msix s fn v).host; exact h
@[simp] theorem State.msix_vfs (s : State) (fn v : Nat) : (s.msix fn v).vfs = s.vfs := by
  have h := congrArg HostState.vfs (Calm.msix s fn v).host; exact h
@[simp] theorem State.msix_txCur (s : State) (fn v : Nat) : (s.msix fn v).txCur = s.txCur := by
  have h := congrArg HostState.txCur (Calm.msix s fn v).host; exact h
@[simp] theorem State.msix_qpRun (s : State) (fn v : Nat) : (s.msix fn v).qpRun = s.qpRun := by
  have h := congrArg HostState.qpRun (Calm.msix s fn v).host; exact h
@[simp] theorem State.msix_vfmRun (s : State) (fn v : Nat) : (s.msix fn v).vfmRun = s.vfmRun := by
  have h := congrArg HostState.vfmRun (Calm.msix s fn v).host; exact h
@[simp] theorem State.msix_hostRx (s : State) (fn v : Nat) : (s.msix fn v).hostRx = s.hostRx := by
  have h := congrArg HostState.hostRx (Calm.msix s fn v).host; exact h
@[simp] theorem State.msix_ipsSas (s : State) (fn v : Nat) : (s.msix fn v).ipsSas = s.ipsSas := by
  have h := congrArg HostState.ipsSas (Calm.msix s fn v).host; exact h
@[simp] theorem State.msix_ipsHost (s : State) (fn v : Nat) : (s.msix fn v).ipsHost = s.ipsHost := by
  have h := congrArg HostState.ipsHost (Calm.msix s fn v).host; exact h
@[simp] theorem State.msix_ipsTransit (s : State) (fn v : Nat) : (s.msix fn v).ipsTransit = s.ipsTransit := by
  have h := congrArg HostState.ipsTransit (Calm.msix s fn v).host; exact h
@[simp] theorem State.msix_ipsDef (s : State) (fn v : Nat) : (s.msix fn v).ipsDef = s.ipsDef := by
  have h := congrArg HostState.ipsDef (Calm.msix s fn v).host; exact h
@[simp] theorem State.msix_ipsOnHost (s : State) (fn v : Nat) : (s.msix fn v).ipsOnHost = s.ipsOnHost := by
  have h := congrArg HostState.ipsOnHost (Calm.msix s fn v).host; exact h
@[simp] theorem State.msix_keks (s : State) (fn v : Nat) : (s.msix fn v).keks = s.keks := by
  have h := congrArg HostState.keks (Calm.msix s fn v).host; exact h
@[simp] theorem State.msix_kekExport (s : State) (fn v : Nat) : (s.msix fn v).kekExport = s.kekExport := by
  have h := congrArg HostState.kekExport (Calm.msix s fn v).host; exact h
@[simp] theorem State.msix_nvs (s : State) (fn v : Nat) : (s.msix fn v).nvs = s.nvs := by
  have h := congrArg HostState.nvs (Calm.msix s fn v).host; exact h
@[simp] theorem State.msix_sess (s : State) (fn v : Nat) : (s.msix fn v).sess = s.sess := by
  have h := congrArg HostState.sess (Calm.msix s fn v).host; exact h
@[simp] theorem State.msix_svcTpl (s : State) (fn v : Nat) : (s.msix fn v).svcTpl = s.svcTpl := by
  have h := congrArg HostState.svcTpl (Calm.msix s fn v).host; exact h
@[simp] theorem State.msix_bfdIn (s : State) (fn v : Nat) : (s.msix fn v).bfdIn = s.bfdIn := by
  have h := congrArg HostState.bfdIn (Calm.msix s fn v).host; exact h
@[simp] theorem State.msix_bfdEvents (s : State) (fn v : Nat) : (s.msix fn v).bfdEvents = s.bfdEvents := by
  have h := congrArg HostState.bfdEvents (Calm.msix s fn v).host; exact h
@[simp] theorem State.msix_rsp (s : State) (fn v : Nat) : (s.msix fn v).rsp = s.rsp := by
  have h := congrArg HostState.rsp (Calm.msix s fn v).host; exact h
@[simp] theorem State.msix_rspIn (s : State) (fn v : Nat) : (s.msix fn v).rspIn = s.rspIn := by
  have h := congrArg HostState.rspIn (Calm.msix s fn v).host; exact h
@[simp] theorem State.msix_flowIn (s : State) (fn v : Nat) : (s.msix fn v).flowIn = s.flowIn := by
  have h := congrArg HostState.flowIn (Calm.msix s fn v).host; exact h
@[simp] theorem State.msix_flows (s : State) (fn v : Nat) : (s.msix fn v).flows = s.flows := by
  have h := congrArg HostState.flows (Calm.msix s fn v).host; exact h
@[simp] theorem State.msix_ipfixSeq (s : State) (fn v : Nat) : (s.msix fn v).ipfixSeq = s.ipfixSeq := by
  have h := congrArg HostState.ipfixSeq (Calm.msix s fn v).host; exact h
@[simp] theorem State.msix_ntPending (s : State) (fn v : Nat) : (s.msix fn v).ntPending = s.ntPending := by
  have h := congrArg MgmtState.ntPending (Calm.msix s fn v).mgmt; exact h
@[simp] theorem State.msix_ppsAt (s : State) (fn v : Nat) : (s.msix fn v).ppsAt = s.ppsAt := by
  have h := congrArg MgmtState.ppsAt (Calm.msix s fn v).mgmt; exact h
@[simp] theorem State.msix_ppsCap (s : State) (fn v : Nat) : (s.msix fn v).ppsCap = s.ppsCap := by
  have h := congrArg MgmtState.ppsCap (Calm.msix s fn v).mgmt; exact h
@[simp] theorem State.msix_ntArm (s : State) (fn v : Nat) : (s.msix fn v).ntArm = s.ntArm := by
  have h := congrArg MgmtState.ntArm (Calm.msix s fn v).mgmt; exact h
@[simp] theorem State.msix_todSec (s : State) (fn v : Nat) : (s.msix fn v).todSec = s.todSec := by
  have h := congrArg MgmtState.todSec (Calm.msix s fn v).mgmt; exact h
@[simp] theorem State.msix_todAt (s : State) (fn v : Nat) : (s.msix fn v).todAt = s.todAt := by
  have h := congrArg MgmtState.todAt (Calm.msix s fn v).mgmt; exact h
@[simp] theorem State.msix_ppsOutAt (s : State) (fn v : Nat) : (s.msix fn v).ppsOutAt = s.ppsOutAt := by
  have h := congrArg MgmtState.ppsOutAt (Calm.msix s fn v).mgmt; exact h
@[simp] theorem State.msix_taq (s : State) (fn v : Nat) : (s.msix fn v).taq = s.taq := by
  have h := congrArg MgmtState.taq (Calm.msix s fn v).mgmt; exact h
@[simp] theorem State.msix_taqPosts (s : State) (fn v : Nat) : (s.msix fn v).taqPosts = s.taqPosts := by
  have h := congrArg MgmtState.taqPosts (Calm.msix s fn v).mgmt; exact h
@[simp] theorem State.msix_taqFired (s : State) (fn v : Nat) : (s.msix fn v).taqFired = s.taqFired := by
  have h := congrArg MgmtState.taqFired (Calm.msix s fn v).mgmt; exact h
@[simp] theorem State.msix_bonTaps (s : State) (fn v : Nat) : (s.msix fn v).bonTaps = s.bonTaps := by
  have h := congrArg MgmtState.bonTaps (Calm.msix s fn v).mgmt; exact h
@[simp] theorem State.msix_bonInterval (s : State) (fn v : Nat) : (s.msix fn v).bonInterval = s.bonInterval := by
  have h := congrArg MgmtState.bonInterval (Calm.msix s fn v).mgmt; exact h
@[simp] theorem State.msix_bonMeters (s : State) (fn v : Nat) : (s.msix fn v).bonMeters = s.bonMeters := by
  have h := congrArg MgmtState.bonMeters (Calm.msix s fn v).mgmt; exact h
@[simp] theorem State.msix_bonStomped (s : State) (fn v : Nat) : (s.msix fn v).bonStomped = s.bonStomped := by
  have h := congrArg MgmtState.bonStomped (Calm.msix s fn v).mgmt; exact h
@[simp] theorem State.msix_bonBad (s : State) (fn v : Nat) : (s.msix fn v).bonBad = s.bonBad := by
  have h := congrArg MgmtState.bonBad (Calm.msix s fn v).mgmt; exact h
@[simp] theorem State.msix_bonImage (s : State) (fn v : Nat) : (s.msix fn v).bonImage = s.bonImage := by
  have h := congrArg MgmtState.bonImage (Calm.msix s fn v).mgmt; exact h
@[simp] theorem State.msix_bonImageBad (s : State) (fn v : Nat) : (s.msix fn v).bonImageBad = s.bonImageBad := by
  have h := congrArg MgmtState.bonImageBad (Calm.msix s fn v).mgmt; exact h
@[simp] theorem State.msix_bonSeq (s : State) (fn v : Nat) : (s.msix fn v).bonSeq = s.bonSeq := by
  have h := congrArg MgmtState.bonSeq (Calm.msix s fn v).mgmt; exact h
@[simp] theorem State.msix_bonReport (s : State) (fn v : Nat) : (s.msix fn v).bonReport = s.bonReport := by
  have h := congrArg MgmtState.bonReport (Calm.msix s fn v).mgmt; exact h
@[simp] theorem State.msix_bonRing (s : State) (fn v : Nat) : (s.msix fn v).bonRing = s.bonRing := by
  have h := congrArg MgmtState.bonRing (Calm.msix s fn v).mgmt; exact h
@[simp] theorem State.msix_bonSeen (s : State) (fn v : Nat) : (s.msix fn v).bonSeen = s.bonSeen := by
  have h := congrArg MgmtState.bonSeen (Calm.msix s fn v).mgmt; exact h
@[simp] theorem State.msix_bonStepped (s : State) (fn v : Nat) : (s.msix fn v).bonStepped = s.bonStepped := by
  have h := congrArg MgmtState.bonStepped (Calm.msix s fn v).mgmt; exact h
@[simp] theorem State.msix_sps (s : State) (fn v : Nat) : (s.msix fn v).sps = s.sps := by
  have h := congrArg MgmtState.sps (Calm.msix s fn v).mgmt; exact h
@[simp] theorem State.msix_hbAt (s : State) (fn v : Nat) : (s.msix fn v).hbAt = s.hbAt := by
  have h := congrArg MgmtState.hbAt (Calm.msix s fn v).mgmt; exact h
@[simp] theorem State.msix_hbNs (s : State) (fn v : Nat) : (s.msix fn v).hbNs = s.hbNs := by
  have h := congrArg MgmtState.hbNs (Calm.msix s fn v).mgmt; exact h
@[simp] theorem State.msix_hbSeen (s : State) (fn v : Nat) : (s.msix fn v).hbSeen = s.hbSeen := by
  have h := congrArg MgmtState.hbSeen (Calm.msix s fn v).mgmt; exact h
@[simp] theorem State.msix_gapFrom (s : State) (fn v : Nat) : (s.msix fn v).gapFrom = s.gapFrom := by
  have h := congrArg MgmtState.gapFrom (Calm.msix s fn v).mgmt; exact h
@[simp] theorem State.msix_takeoverBy (s : State) (fn v : Nat) : (s.msix fn v).takeoverBy = s.takeoverBy := by
  have h := congrArg MgmtState.takeoverBy (Calm.msix s fn v).mgmt; exact h
@[simp] theorem State.msix_firstGrant (s : State) (fn v : Nat) : (s.msix fn v).firstGrant = s.firstGrant := by
  have h := congrArg MgmtState.firstGrant (Calm.msix s fn v).mgmt; exact h
@[simp] theorem State.msix_takenOver (s : State) (fn v : Nat) : (s.msix fn v).takenOver = s.takenOver := by
  have h := congrArg MgmtState.takenOver (Calm.msix s fn v).mgmt; exact h
@[simp] theorem State.msix_noActiveAt (s : State) (fn v : Nat) : (s.msix fn v).noActiveAt = s.noActiveAt := by
  have h := congrArg MgmtState.noActiveAt (Calm.msix s fn v).mgmt; exact h
@[simp] theorem State.msix_failsafe (s : State) (fn v : Nat) : (s.msix fn v).failsafe = s.failsafe := by
  have h := congrArg MgmtState.failsafe (Calm.msix s fn v).mgmt; exact h
@[simp] theorem State.msix_flash (s : State) (fn v : Nat) : (s.msix fn v).flash = s.flash := by
  have h := congrArg MgmtState.flash (Calm.msix s fn v).mgmt; exact h
@[simp] theorem State.msix_fuseSvn (s : State) (fn v : Nat) : (s.msix fn v).fuseSvn = s.fuseSvn := by
  have h := congrArg MgmtState.fuseSvn (Calm.msix s fn v).mgmt; exact h
@[simp] theorem State.msix_eraseGen (s : State) (fn v : Nat) : (s.msix fn v).eraseGen = s.eraseGen := by
  have h := congrArg MgmtState.eraseGen (Calm.msix s fn v).mgmt; exact h
@[simp] theorem State.msix_keyRevoked (s : State) (fn v : Nat) : (s.msix fn v).keyRevoked = s.keyRevoked := by
  have h := congrArg MgmtState.keyRevoked (Calm.msix s fn v).mgmt; exact h
@[simp] theorem State.msix_factory (s : State) (fn v : Nat) : (s.msix fn v).factory = s.factory := by
  have h := congrArg MgmtState.factory (Calm.msix s fn v).mgmt; exact h
@[simp] theorem State.msix_fellBack (s : State) (fn v : Nat) : (s.msix fn v).fellBack = s.fellBack := by
  have h := congrArg MgmtState.fellBack (Calm.msix s fn v).mgmt; exact h
@[simp] theorem State.msix_fwPassed (s : State) (fn v : Nat) : (s.msix fn v).fwPassed = s.fwPassed := by
  have h := congrArg MgmtState.fwPassed (Calm.msix s fn v).mgmt; exact h
@[simp] theorem State.msix_runDigest (s : State) (fn v : Nat) : (s.msix fn v).runDigest = s.runDigest := by
  have h := congrArg MgmtState.runDigest (Calm.msix s fn v).mgmt; exact h
@[simp] theorem State.msix_trialAt (s : State) (fn v : Nat) : (s.msix fn v).trialAt = s.trialAt := by
  have h := congrArg MgmtState.trialAt (Calm.msix s fn v).mgmt; exact h
@[simp] theorem State.msix_fwFired (s : State) (fn v : Nat) : (s.msix fn v).fwFired = s.fwFired := by
  have h := congrArg MgmtState.fwFired (Calm.msix s fn v).mgmt; exact h
@[simp] theorem State.msix_fwRun (s : State) (fn v : Nat) : (s.msix fn v).fwRun = s.fwRun := by
  have h := congrArg MgmtState.fwRun (Calm.msix s fn v).mgmt; exact h
@[simp] theorem State.msix_quote (s : State) (fn v : Nat) : (s.msix fn v).quote = s.quote := by
  have h := congrArg MgmtState.quote (Calm.msix s fn v).mgmt; exact h
@[simp] theorem State.msix_challenged (s : State) (fn v : Nat) : (s.msix fn v).challenged = s.challenged := by
  have h := congrArg MgmtState.challenged (Calm.msix s fn v).mgmt; exact h
@[simp] theorem State.msix_token (s : State) (fn v : Nat) : (s.msix fn v).token = s.token := by
  have h := congrArg MgmtState.token (Calm.msix s fn v).mgmt; exact h
@[simp] theorem State.msix_trace (s : State) (fn v : Nat) : (s.msix fn v).trace = s.trace := by
  have h := congrArg MgmtState.trace (Calm.msix s fn v).mgmt; exact h
@[simp] theorem State.msix_traceAt (s : State) (fn v : Nat) : (s.msix fn v).traceAt = s.traceAt := by
  have h := congrArg MgmtState.traceAt (Calm.msix s fn v).mgmt; exact h
@[simp] theorem State.msix_traceTags (s : State) (fn v : Nat) : (s.msix fn v).traceTags = s.traceTags := by
  have h := congrArg MgmtState.traceTags (Calm.msix s fn v).mgmt; exact h
@[simp] theorem State.msix_shadowFlush (s : State) (fn v : Nat) : (s.msix fn v).shadowFlush = s.shadowFlush := by
  have h := congrArg MgmtState.shadowFlush (Calm.msix s fn v).mgmt; exact h
@[simp] theorem State.msix_bw (s : State) (fn v : Nat) : (s.msix fn v).bw = s.bw := by
  have h := congrArg MgmtState.bw (Calm.msix s fn v).mgmt; exact h
@[simp] theorem State.msix_bwFrom (s : State) (fn v : Nat) : (s.msix fn v).bwFrom = s.bwFrom := by
  have h := congrArg MgmtState.bwFrom (Calm.msix s fn v).mgmt; exact h
@[simp] theorem State.msix_bfdHeard (s : State) (fn v : Nat) : (s.msix fn v).bfdHeard = s.bfdHeard := by
  have h := congrArg HostState.bfdHeard (Calm.msix s fn v).host; exact h
@[simp] theorem State.msix_bfdSent (s : State) (fn v : Nat) : (s.msix fn v).bfdSent = s.bfdSent := by
  have h := congrArg HostState.bfdSent (Calm.msix s fn v).host; exact h
@[simp] theorem State.msix_ipfixSwept (s : State) (fn v : Nat) : (s.msix fn v).ipfixSwept = s.ipfixSwept := by
  have h := congrArg HostState.ipfixSwept (Calm.msix s fn v).host; exact h
@[simp] theorem State.msix_ipfixTplAt (s : State) (fn v : Nat) : (s.msix fn v).ipfixTplAt = s.ipfixTplAt := by
  have h := congrArg HostState.ipfixTplAt (Calm.msix s fn v).host; exact h
@[simp] theorem State.msix_ppsOutLast (s : State) (fn v : Nat) : (s.msix fn v).ppsOutLast = s.ppsOutLast := by
  have h := congrArg MgmtState.ppsOutLast (Calm.msix s fn v).mgmt; exact h
@[simp] theorem State.msix_synceAt (s : State) (fn v : Nat) : (s.msix fn v).synceAt = s.synceAt := by
  have h := congrArg MgmtState.synceAt (Calm.msix s fn v).mgmt; exact h
@[simp] theorem State.msix_bonLost (s : State) (fn v : Nat) : (s.msix fn v).bonLost = s.bonLost := by
  have h := congrArg MgmtState.bonLost (Calm.msix s fn v).mgmt; exact h
@[simp] theorem State.msix_bonAsked (s : State) (fn v : Nat) : (s.msix fn v).bonAsked = s.bonAsked := by
  have h := congrArg MgmtState.bonAsked (Calm.msix s fn v).mgmt; exact h
@[simp] theorem State.msix_fwHeld (s : State) (fn v : Nat) : (s.msix fn v).fwHeld = s.fwHeld := by
  have h := congrArg MgmtState.fwHeld (Calm.msix s fn v).mgmt; exact h
@[simp] theorem State.msix_secHeld (s : State) (fn v : Nat) : (s.msix fn v).secHeld = s.secHeld := by
  have h := congrArg MgmtState.secHeld (Calm.msix s fn v).mgmt; exact h
@[simp] theorem State.msix_jtag (s : State) (fn v : Nat) : (s.msix fn v).jtag = s.jtag := by
  have h := congrArg MgmtState.jtag (Calm.msix s fn v).mgmt; exact h
@[simp] theorem State.msix_bwUs (s : State) (fn v : Nat) : (s.msix fn v).bwUs = s.bwUs := by
  have h := congrArg MgmtState.bwUs (Calm.msix s fn v).mgmt; exact h
@[simp] theorem State.msix_thermHeld (s : State) (fn v : Nat) : (s.msix fn v).thermHeld = s.thermHeld := by
  have h := congrArg MgmtState.thermHeld (Calm.msix s fn v).mgmt; exact h
@[simp] theorem State.msix_logRun (s : State) (fn v : Nat) : (s.msix fn v).logRun = s.logRun := by
  have h := congrArg MgmtState.logRun (Calm.msix s fn v).mgmt; exact h
@[simp] theorem State.msix_traceRun (s : State) (fn v : Nat) : (s.msix fn v).traceRun = s.traceRun := by
  have h := congrArg MgmtState.traceRun (Calm.msix s fn v).mgmt; exact h
@[simp] theorem State.msix_legSeen (s : State) (fn v : Nat) : (s.msix fn v).legSeen = s.legSeen := by
  have h := congrArg MgmtState.legSeen (Calm.msix s fn v).mgmt; exact h
@[simp] theorem State.msix_legAt (s : State) (fn v : Nat) : (s.msix fn v).legAt = s.legAt := by
  have h := congrArg MgmtState.legAt (Calm.msix s fn v).mgmt; exact h
@[simp] theorem State.msix_pwrgood (s : State) (fn v : Nat) : (s.msix fn v).pwrgood = s.pwrgood := by
  have h := congrArg MgmtState.pwrgood (Calm.msix s fn v).mgmt; exact h
@[simp] theorem State.msix_startFrom (s : State) (fn v : Nat) : (s.msix fn v).startFrom = s.startFrom := by
  have h := congrArg MgmtState.startFrom (Calm.msix s fn v).mgmt; exact h
@[simp] theorem State.msix_warming (s : State) (fn v : Nat) : (s.msix fn v).warming = s.warming := by
  have h := congrArg MgmtState.warming (Calm.msix s fn v).mgmt; exact h
@[simp] theorem State.msix_domTrans (s : State) (fn v : Nat) : (s.msix fn v).domTrans = s.domTrans := by
  have h := congrArg MgmtState.domTrans (Calm.msix s fn v).mgmt; exact h
@[simp] theorem State.msix_domHeld (s : State) (fn v : Nat) : (s.msix fn v).domHeld = s.domHeld := by
  have h := congrArg MgmtState.domHeld (Calm.msix s fn v).mgmt; exact h
@[simp] theorem State.msix_serdesWait (s : State) (fn v : Nat) : (s.msix fn v).serdesWait = s.serdesWait := by
  have h := congrArg MgmtState.serdesWait (Calm.msix s fn v).mgmt; exact h
@[simp] theorem State.msix_hbmTripAt (s : State) (fn v : Nat) : (s.msix fn v).hbmTripAt = s.hbmTripAt := by
  have h := congrArg MgmtState.hbmTripAt (Calm.msix s fn v).mgmt; exact h
@[simp] theorem State.msix_perstAt (s : State) (fn v : Nat) : (s.msix fn v).perstAt = s.perstAt := by
  have h := congrArg MgmtState.perstAt (Calm.msix s fn v).mgmt; exact h
@[simp] theorem State.msix_srns (s : State) (fn v : Nat) : (s.msix fn v).srns = s.srns := by
  have h := congrArg MgmtState.srns (Calm.msix s fn v).mgmt; exact h

/-! ### A performance event -/

@[simp] theorem State.pmc_pending (s : State) (p ev k : Nat) : (s.pmc p ev k).pending = s.pending := (Calm.pmc s p ev k).pending
@[simp] theorem State.pmc_ticks (s : State) (p ev k : Nat) : (s.pmc p ev k).ticks = s.ticks := (Calm.pmc s p ev k).ticks
@[simp] theorem State.pmc_nt (s : State) (p ev k : Nat) : (s.pmc p ev k).nt = s.nt := (Calm.pmc s p ev k).nt
@[simp] theorem State.pmc_timeHold (s : State) (p ev k : Nat) : (s.pmc p ev k).timeHold = s.timeHold := (Calm.pmc s p ev k).timeHold
@[simp] theorem State.pmc_hold (s : State) (p ev k : Nat) : (s.pmc p ev k).hold = s.hold := (Calm.pmc s p ev k).hold
@[simp] theorem State.pmc_toBandState (s : State) (p ev k : Nat) : (s.pmc p ev k).toBandState = s.toBandState := (Calm.pmc s p ev k).band
@[simp] theorem State.pmc_toLineState (s : State) (p ev k : Nat) : (s.pmc p ev k).toLineState = s.toLineState := (Calm.pmc s p ev k).line
@[simp] theorem State.pmc_toPipeState (s : State) (p ev k : Nat) : (s.pmc p ev k).toPipeState = s.toPipeState := (Calm.pmc s p ev k).pipe
@[simp] theorem State.pmc_toQdState (s : State) (p ev k : Nat) : (s.pmc p ev k).toQdState = s.toQdState := (Calm.pmc s p ev k).qd
@[simp] theorem State.pmc_tags (s : State) (p ev k : Nat) : (s.pmc p ev k).tags = s.tags := by
  have h := congrArg HostState.tags (Calm.pmc s p ev k).host; exact h
@[simp] theorem State.pmc_vfSince (s : State) (p ev k : Nat) : (s.pmc p ev k).vfSince = s.vfSince := by
  have h := congrArg HostState.vfSince (Calm.pmc s p ev k).host; exact h
@[simp] theorem State.pmc_perstHigh (s : State) (p ev k : Nat) : (s.pmc p ev k).perstHigh = s.perstHigh := by
  have h := congrArg HostState.perstHigh (Calm.pmc s p ev k).host; exact h
@[simp] theorem State.pmc_subsys (s : State) (p ev k : Nat) : (s.pmc p ev k).subsys = s.subsys := by
  have h := congrArg HostState.subsys (Calm.pmc s p ev k).host; exact h
@[simp] theorem State.pmc_retraining (s : State) (p ev k : Nat) : (s.pmc p ev k).retraining = s.retraining := by
  have h := congrArg HostState.retraining (Calm.pmc s p ev k).host; exact h
@[simp] theorem State.pmc_qps (s : State) (p ev k : Nat) : (s.pmc p ev k).qps = s.qps := by
  have h := congrArg HostState.qps (Calm.pmc s p ev k).host; exact h
@[simp] theorem State.pmc_vfs (s : State) (p ev k : Nat) : (s.pmc p ev k).vfs = s.vfs := by
  have h := congrArg HostState.vfs (Calm.pmc s p ev k).host; exact h
@[simp] theorem State.pmc_txCur (s : State) (p ev k : Nat) : (s.pmc p ev k).txCur = s.txCur := by
  have h := congrArg HostState.txCur (Calm.pmc s p ev k).host; exact h
@[simp] theorem State.pmc_qpRun (s : State) (p ev k : Nat) : (s.pmc p ev k).qpRun = s.qpRun := by
  have h := congrArg HostState.qpRun (Calm.pmc s p ev k).host; exact h
@[simp] theorem State.pmc_vfmRun (s : State) (p ev k : Nat) : (s.pmc p ev k).vfmRun = s.vfmRun := by
  have h := congrArg HostState.vfmRun (Calm.pmc s p ev k).host; exact h
@[simp] theorem State.pmc_hostRx (s : State) (p ev k : Nat) : (s.pmc p ev k).hostRx = s.hostRx := by
  have h := congrArg HostState.hostRx (Calm.pmc s p ev k).host; exact h
@[simp] theorem State.pmc_ipsSas (s : State) (p ev k : Nat) : (s.pmc p ev k).ipsSas = s.ipsSas := by
  have h := congrArg HostState.ipsSas (Calm.pmc s p ev k).host; exact h
@[simp] theorem State.pmc_ipsHost (s : State) (p ev k : Nat) : (s.pmc p ev k).ipsHost = s.ipsHost := by
  have h := congrArg HostState.ipsHost (Calm.pmc s p ev k).host; exact h
@[simp] theorem State.pmc_ipsTransit (s : State) (p ev k : Nat) : (s.pmc p ev k).ipsTransit = s.ipsTransit := by
  have h := congrArg HostState.ipsTransit (Calm.pmc s p ev k).host; exact h
@[simp] theorem State.pmc_ipsDef (s : State) (p ev k : Nat) : (s.pmc p ev k).ipsDef = s.ipsDef := by
  have h := congrArg HostState.ipsDef (Calm.pmc s p ev k).host; exact h
@[simp] theorem State.pmc_ipsOnHost (s : State) (p ev k : Nat) : (s.pmc p ev k).ipsOnHost = s.ipsOnHost := by
  have h := congrArg HostState.ipsOnHost (Calm.pmc s p ev k).host; exact h
@[simp] theorem State.pmc_keks (s : State) (p ev k : Nat) : (s.pmc p ev k).keks = s.keks := by
  have h := congrArg HostState.keks (Calm.pmc s p ev k).host; exact h
@[simp] theorem State.pmc_kekExport (s : State) (p ev k : Nat) : (s.pmc p ev k).kekExport = s.kekExport := by
  have h := congrArg HostState.kekExport (Calm.pmc s p ev k).host; exact h
@[simp] theorem State.pmc_nvs (s : State) (p ev k : Nat) : (s.pmc p ev k).nvs = s.nvs := by
  have h := congrArg HostState.nvs (Calm.pmc s p ev k).host; exact h
@[simp] theorem State.pmc_sess (s : State) (p ev k : Nat) : (s.pmc p ev k).sess = s.sess := by
  have h := congrArg HostState.sess (Calm.pmc s p ev k).host; exact h
@[simp] theorem State.pmc_svcTpl (s : State) (p ev k : Nat) : (s.pmc p ev k).svcTpl = s.svcTpl := by
  have h := congrArg HostState.svcTpl (Calm.pmc s p ev k).host; exact h
@[simp] theorem State.pmc_bfdIn (s : State) (p ev k : Nat) : (s.pmc p ev k).bfdIn = s.bfdIn := by
  have h := congrArg HostState.bfdIn (Calm.pmc s p ev k).host; exact h
@[simp] theorem State.pmc_bfdEvents (s : State) (p ev k : Nat) : (s.pmc p ev k).bfdEvents = s.bfdEvents := by
  have h := congrArg HostState.bfdEvents (Calm.pmc s p ev k).host; exact h
@[simp] theorem State.pmc_rsp (s : State) (p ev k : Nat) : (s.pmc p ev k).rsp = s.rsp := by
  have h := congrArg HostState.rsp (Calm.pmc s p ev k).host; exact h
@[simp] theorem State.pmc_rspIn (s : State) (p ev k : Nat) : (s.pmc p ev k).rspIn = s.rspIn := by
  have h := congrArg HostState.rspIn (Calm.pmc s p ev k).host; exact h
@[simp] theorem State.pmc_flowIn (s : State) (p ev k : Nat) : (s.pmc p ev k).flowIn = s.flowIn := by
  have h := congrArg HostState.flowIn (Calm.pmc s p ev k).host; exact h
@[simp] theorem State.pmc_flows (s : State) (p ev k : Nat) : (s.pmc p ev k).flows = s.flows := by
  have h := congrArg HostState.flows (Calm.pmc s p ev k).host; exact h
@[simp] theorem State.pmc_ipfixSeq (s : State) (p ev k : Nat) : (s.pmc p ev k).ipfixSeq = s.ipfixSeq := by
  have h := congrArg HostState.ipfixSeq (Calm.pmc s p ev k).host; exact h
@[simp] theorem State.pmc_ntPending (s : State) (p ev k : Nat) : (s.pmc p ev k).ntPending = s.ntPending := by
  have h := congrArg MgmtState.ntPending (Calm.pmc s p ev k).mgmt; exact h
@[simp] theorem State.pmc_ppsAt (s : State) (p ev k : Nat) : (s.pmc p ev k).ppsAt = s.ppsAt := by
  have h := congrArg MgmtState.ppsAt (Calm.pmc s p ev k).mgmt; exact h
@[simp] theorem State.pmc_ppsCap (s : State) (p ev k : Nat) : (s.pmc p ev k).ppsCap = s.ppsCap := by
  have h := congrArg MgmtState.ppsCap (Calm.pmc s p ev k).mgmt; exact h
@[simp] theorem State.pmc_ntArm (s : State) (p ev k : Nat) : (s.pmc p ev k).ntArm = s.ntArm := by
  have h := congrArg MgmtState.ntArm (Calm.pmc s p ev k).mgmt; exact h
@[simp] theorem State.pmc_todSec (s : State) (p ev k : Nat) : (s.pmc p ev k).todSec = s.todSec := by
  have h := congrArg MgmtState.todSec (Calm.pmc s p ev k).mgmt; exact h
@[simp] theorem State.pmc_todAt (s : State) (p ev k : Nat) : (s.pmc p ev k).todAt = s.todAt := by
  have h := congrArg MgmtState.todAt (Calm.pmc s p ev k).mgmt; exact h
@[simp] theorem State.pmc_ppsOutAt (s : State) (p ev k : Nat) : (s.pmc p ev k).ppsOutAt = s.ppsOutAt := by
  have h := congrArg MgmtState.ppsOutAt (Calm.pmc s p ev k).mgmt; exact h
@[simp] theorem State.pmc_taq (s : State) (p ev k : Nat) : (s.pmc p ev k).taq = s.taq := by
  have h := congrArg MgmtState.taq (Calm.pmc s p ev k).mgmt; exact h
@[simp] theorem State.pmc_taqPosts (s : State) (p ev k : Nat) : (s.pmc p ev k).taqPosts = s.taqPosts := by
  have h := congrArg MgmtState.taqPosts (Calm.pmc s p ev k).mgmt; exact h
@[simp] theorem State.pmc_taqFired (s : State) (p ev k : Nat) : (s.pmc p ev k).taqFired = s.taqFired := by
  have h := congrArg MgmtState.taqFired (Calm.pmc s p ev k).mgmt; exact h
@[simp] theorem State.pmc_bonTaps (s : State) (p ev k : Nat) : (s.pmc p ev k).bonTaps = s.bonTaps := by
  have h := congrArg MgmtState.bonTaps (Calm.pmc s p ev k).mgmt; exact h
@[simp] theorem State.pmc_bonInterval (s : State) (p ev k : Nat) : (s.pmc p ev k).bonInterval = s.bonInterval := by
  have h := congrArg MgmtState.bonInterval (Calm.pmc s p ev k).mgmt; exact h
@[simp] theorem State.pmc_bonMeters (s : State) (p ev k : Nat) : (s.pmc p ev k).bonMeters = s.bonMeters := by
  have h := congrArg MgmtState.bonMeters (Calm.pmc s p ev k).mgmt; exact h
@[simp] theorem State.pmc_bonStomped (s : State) (p ev k : Nat) : (s.pmc p ev k).bonStomped = s.bonStomped := by
  have h := congrArg MgmtState.bonStomped (Calm.pmc s p ev k).mgmt; exact h
@[simp] theorem State.pmc_bonBad (s : State) (p ev k : Nat) : (s.pmc p ev k).bonBad = s.bonBad := by
  have h := congrArg MgmtState.bonBad (Calm.pmc s p ev k).mgmt; exact h
@[simp] theorem State.pmc_bonImage (s : State) (p ev k : Nat) : (s.pmc p ev k).bonImage = s.bonImage := by
  have h := congrArg MgmtState.bonImage (Calm.pmc s p ev k).mgmt; exact h
@[simp] theorem State.pmc_bonImageBad (s : State) (p ev k : Nat) : (s.pmc p ev k).bonImageBad = s.bonImageBad := by
  have h := congrArg MgmtState.bonImageBad (Calm.pmc s p ev k).mgmt; exact h
@[simp] theorem State.pmc_bonSeq (s : State) (p ev k : Nat) : (s.pmc p ev k).bonSeq = s.bonSeq := by
  have h := congrArg MgmtState.bonSeq (Calm.pmc s p ev k).mgmt; exact h
@[simp] theorem State.pmc_bonReport (s : State) (p ev k : Nat) : (s.pmc p ev k).bonReport = s.bonReport := by
  have h := congrArg MgmtState.bonReport (Calm.pmc s p ev k).mgmt; exact h
@[simp] theorem State.pmc_bonRing (s : State) (p ev k : Nat) : (s.pmc p ev k).bonRing = s.bonRing := by
  have h := congrArg MgmtState.bonRing (Calm.pmc s p ev k).mgmt; exact h
@[simp] theorem State.pmc_bonSeen (s : State) (p ev k : Nat) : (s.pmc p ev k).bonSeen = s.bonSeen := by
  have h := congrArg MgmtState.bonSeen (Calm.pmc s p ev k).mgmt; exact h
@[simp] theorem State.pmc_bonStepped (s : State) (p ev k : Nat) : (s.pmc p ev k).bonStepped = s.bonStepped := by
  have h := congrArg MgmtState.bonStepped (Calm.pmc s p ev k).mgmt; exact h
@[simp] theorem State.pmc_sps (s : State) (p ev k : Nat) : (s.pmc p ev k).sps = s.sps := by
  have h := congrArg MgmtState.sps (Calm.pmc s p ev k).mgmt; exact h
@[simp] theorem State.pmc_hbAt (s : State) (p ev k : Nat) : (s.pmc p ev k).hbAt = s.hbAt := by
  have h := congrArg MgmtState.hbAt (Calm.pmc s p ev k).mgmt; exact h
@[simp] theorem State.pmc_hbNs (s : State) (p ev k : Nat) : (s.pmc p ev k).hbNs = s.hbNs := by
  have h := congrArg MgmtState.hbNs (Calm.pmc s p ev k).mgmt; exact h
@[simp] theorem State.pmc_hbSeen (s : State) (p ev k : Nat) : (s.pmc p ev k).hbSeen = s.hbSeen := by
  have h := congrArg MgmtState.hbSeen (Calm.pmc s p ev k).mgmt; exact h
@[simp] theorem State.pmc_gapFrom (s : State) (p ev k : Nat) : (s.pmc p ev k).gapFrom = s.gapFrom := by
  have h := congrArg MgmtState.gapFrom (Calm.pmc s p ev k).mgmt; exact h
@[simp] theorem State.pmc_takeoverBy (s : State) (p ev k : Nat) : (s.pmc p ev k).takeoverBy = s.takeoverBy := by
  have h := congrArg MgmtState.takeoverBy (Calm.pmc s p ev k).mgmt; exact h
@[simp] theorem State.pmc_firstGrant (s : State) (p ev k : Nat) : (s.pmc p ev k).firstGrant = s.firstGrant := by
  have h := congrArg MgmtState.firstGrant (Calm.pmc s p ev k).mgmt; exact h
@[simp] theorem State.pmc_takenOver (s : State) (p ev k : Nat) : (s.pmc p ev k).takenOver = s.takenOver := by
  have h := congrArg MgmtState.takenOver (Calm.pmc s p ev k).mgmt; exact h
@[simp] theorem State.pmc_noActiveAt (s : State) (p ev k : Nat) : (s.pmc p ev k).noActiveAt = s.noActiveAt := by
  have h := congrArg MgmtState.noActiveAt (Calm.pmc s p ev k).mgmt; exact h
@[simp] theorem State.pmc_failsafe (s : State) (p ev k : Nat) : (s.pmc p ev k).failsafe = s.failsafe := by
  have h := congrArg MgmtState.failsafe (Calm.pmc s p ev k).mgmt; exact h
@[simp] theorem State.pmc_flash (s : State) (p ev k : Nat) : (s.pmc p ev k).flash = s.flash := by
  have h := congrArg MgmtState.flash (Calm.pmc s p ev k).mgmt; exact h
@[simp] theorem State.pmc_fuseSvn (s : State) (p ev k : Nat) : (s.pmc p ev k).fuseSvn = s.fuseSvn := by
  have h := congrArg MgmtState.fuseSvn (Calm.pmc s p ev k).mgmt; exact h
@[simp] theorem State.pmc_eraseGen (s : State) (p ev k : Nat) : (s.pmc p ev k).eraseGen = s.eraseGen := by
  have h := congrArg MgmtState.eraseGen (Calm.pmc s p ev k).mgmt; exact h
@[simp] theorem State.pmc_keyRevoked (s : State) (p ev k : Nat) : (s.pmc p ev k).keyRevoked = s.keyRevoked := by
  have h := congrArg MgmtState.keyRevoked (Calm.pmc s p ev k).mgmt; exact h
@[simp] theorem State.pmc_factory (s : State) (p ev k : Nat) : (s.pmc p ev k).factory = s.factory := by
  have h := congrArg MgmtState.factory (Calm.pmc s p ev k).mgmt; exact h
@[simp] theorem State.pmc_fellBack (s : State) (p ev k : Nat) : (s.pmc p ev k).fellBack = s.fellBack := by
  have h := congrArg MgmtState.fellBack (Calm.pmc s p ev k).mgmt; exact h
@[simp] theorem State.pmc_fwPassed (s : State) (p ev k : Nat) : (s.pmc p ev k).fwPassed = s.fwPassed := by
  have h := congrArg MgmtState.fwPassed (Calm.pmc s p ev k).mgmt; exact h
@[simp] theorem State.pmc_runDigest (s : State) (p ev k : Nat) : (s.pmc p ev k).runDigest = s.runDigest := by
  have h := congrArg MgmtState.runDigest (Calm.pmc s p ev k).mgmt; exact h
@[simp] theorem State.pmc_trialAt (s : State) (p ev k : Nat) : (s.pmc p ev k).trialAt = s.trialAt := by
  have h := congrArg MgmtState.trialAt (Calm.pmc s p ev k).mgmt; exact h
@[simp] theorem State.pmc_fwFired (s : State) (p ev k : Nat) : (s.pmc p ev k).fwFired = s.fwFired := by
  have h := congrArg MgmtState.fwFired (Calm.pmc s p ev k).mgmt; exact h
@[simp] theorem State.pmc_fwRun (s : State) (p ev k : Nat) : (s.pmc p ev k).fwRun = s.fwRun := by
  have h := congrArg MgmtState.fwRun (Calm.pmc s p ev k).mgmt; exact h
@[simp] theorem State.pmc_quote (s : State) (p ev k : Nat) : (s.pmc p ev k).quote = s.quote := by
  have h := congrArg MgmtState.quote (Calm.pmc s p ev k).mgmt; exact h
@[simp] theorem State.pmc_challenged (s : State) (p ev k : Nat) : (s.pmc p ev k).challenged = s.challenged := by
  have h := congrArg MgmtState.challenged (Calm.pmc s p ev k).mgmt; exact h
@[simp] theorem State.pmc_token (s : State) (p ev k : Nat) : (s.pmc p ev k).token = s.token := by
  have h := congrArg MgmtState.token (Calm.pmc s p ev k).mgmt; exact h
@[simp] theorem State.pmc_trace (s : State) (p ev k : Nat) : (s.pmc p ev k).trace = s.trace := by
  have h := congrArg MgmtState.trace (Calm.pmc s p ev k).mgmt; exact h
@[simp] theorem State.pmc_traceAt (s : State) (p ev k : Nat) : (s.pmc p ev k).traceAt = s.traceAt := by
  have h := congrArg MgmtState.traceAt (Calm.pmc s p ev k).mgmt; exact h
@[simp] theorem State.pmc_traceTags (s : State) (p ev k : Nat) : (s.pmc p ev k).traceTags = s.traceTags := by
  have h := congrArg MgmtState.traceTags (Calm.pmc s p ev k).mgmt; exact h
@[simp] theorem State.pmc_shadowFlush (s : State) (p ev k : Nat) : (s.pmc p ev k).shadowFlush = s.shadowFlush := by
  have h := congrArg MgmtState.shadowFlush (Calm.pmc s p ev k).mgmt; exact h
@[simp] theorem State.pmc_bw (s : State) (p ev k : Nat) : (s.pmc p ev k).bw = s.bw := by
  have h := congrArg MgmtState.bw (Calm.pmc s p ev k).mgmt; exact h
@[simp] theorem State.pmc_bwFrom (s : State) (p ev k : Nat) : (s.pmc p ev k).bwFrom = s.bwFrom := by
  have h := congrArg MgmtState.bwFrom (Calm.pmc s p ev k).mgmt; exact h
@[simp] theorem State.pmc_bfdHeard (s : State) (p ev k : Nat) : (s.pmc p ev k).bfdHeard = s.bfdHeard := by
  have h := congrArg HostState.bfdHeard (Calm.pmc s p ev k).host; exact h
@[simp] theorem State.pmc_bfdSent (s : State) (p ev k : Nat) : (s.pmc p ev k).bfdSent = s.bfdSent := by
  have h := congrArg HostState.bfdSent (Calm.pmc s p ev k).host; exact h
@[simp] theorem State.pmc_ipfixSwept (s : State) (p ev k : Nat) : (s.pmc p ev k).ipfixSwept = s.ipfixSwept := by
  have h := congrArg HostState.ipfixSwept (Calm.pmc s p ev k).host; exact h
@[simp] theorem State.pmc_ipfixTplAt (s : State) (p ev k : Nat) : (s.pmc p ev k).ipfixTplAt = s.ipfixTplAt := by
  have h := congrArg HostState.ipfixTplAt (Calm.pmc s p ev k).host; exact h
@[simp] theorem State.pmc_ppsOutLast (s : State) (p ev k : Nat) : (s.pmc p ev k).ppsOutLast = s.ppsOutLast := by
  have h := congrArg MgmtState.ppsOutLast (Calm.pmc s p ev k).mgmt; exact h
@[simp] theorem State.pmc_synceAt (s : State) (p ev k : Nat) : (s.pmc p ev k).synceAt = s.synceAt := by
  have h := congrArg MgmtState.synceAt (Calm.pmc s p ev k).mgmt; exact h
@[simp] theorem State.pmc_bonLost (s : State) (p ev k : Nat) : (s.pmc p ev k).bonLost = s.bonLost := by
  have h := congrArg MgmtState.bonLost (Calm.pmc s p ev k).mgmt; exact h
@[simp] theorem State.pmc_bonAsked (s : State) (p ev k : Nat) : (s.pmc p ev k).bonAsked = s.bonAsked := by
  have h := congrArg MgmtState.bonAsked (Calm.pmc s p ev k).mgmt; exact h
@[simp] theorem State.pmc_fwHeld (s : State) (p ev k : Nat) : (s.pmc p ev k).fwHeld = s.fwHeld := by
  have h := congrArg MgmtState.fwHeld (Calm.pmc s p ev k).mgmt; exact h
@[simp] theorem State.pmc_secHeld (s : State) (p ev k : Nat) : (s.pmc p ev k).secHeld = s.secHeld := by
  have h := congrArg MgmtState.secHeld (Calm.pmc s p ev k).mgmt; exact h
@[simp] theorem State.pmc_jtag (s : State) (p ev k : Nat) : (s.pmc p ev k).jtag = s.jtag := by
  have h := congrArg MgmtState.jtag (Calm.pmc s p ev k).mgmt; exact h
@[simp] theorem State.pmc_bwUs (s : State) (p ev k : Nat) : (s.pmc p ev k).bwUs = s.bwUs := by
  have h := congrArg MgmtState.bwUs (Calm.pmc s p ev k).mgmt; exact h
@[simp] theorem State.pmc_thermHeld (s : State) (p ev k : Nat) : (s.pmc p ev k).thermHeld = s.thermHeld := by
  have h := congrArg MgmtState.thermHeld (Calm.pmc s p ev k).mgmt; exact h
@[simp] theorem State.pmc_logRun (s : State) (p ev k : Nat) : (s.pmc p ev k).logRun = s.logRun := by
  have h := congrArg MgmtState.logRun (Calm.pmc s p ev k).mgmt; exact h
@[simp] theorem State.pmc_traceRun (s : State) (p ev k : Nat) : (s.pmc p ev k).traceRun = s.traceRun := by
  have h := congrArg MgmtState.traceRun (Calm.pmc s p ev k).mgmt; exact h
@[simp] theorem State.pmc_legSeen (s : State) (p ev k : Nat) : (s.pmc p ev k).legSeen = s.legSeen := by
  have h := congrArg MgmtState.legSeen (Calm.pmc s p ev k).mgmt; exact h
@[simp] theorem State.pmc_legAt (s : State) (p ev k : Nat) : (s.pmc p ev k).legAt = s.legAt := by
  have h := congrArg MgmtState.legAt (Calm.pmc s p ev k).mgmt; exact h
@[simp] theorem State.pmc_pwrgood (s : State) (p ev k : Nat) : (s.pmc p ev k).pwrgood = s.pwrgood := by
  have h := congrArg MgmtState.pwrgood (Calm.pmc s p ev k).mgmt; exact h
@[simp] theorem State.pmc_startFrom (s : State) (p ev k : Nat) : (s.pmc p ev k).startFrom = s.startFrom := by
  have h := congrArg MgmtState.startFrom (Calm.pmc s p ev k).mgmt; exact h
@[simp] theorem State.pmc_warming (s : State) (p ev k : Nat) : (s.pmc p ev k).warming = s.warming := by
  have h := congrArg MgmtState.warming (Calm.pmc s p ev k).mgmt; exact h
@[simp] theorem State.pmc_domTrans (s : State) (p ev k : Nat) : (s.pmc p ev k).domTrans = s.domTrans := by
  have h := congrArg MgmtState.domTrans (Calm.pmc s p ev k).mgmt; exact h
@[simp] theorem State.pmc_domHeld (s : State) (p ev k : Nat) : (s.pmc p ev k).domHeld = s.domHeld := by
  have h := congrArg MgmtState.domHeld (Calm.pmc s p ev k).mgmt; exact h
@[simp] theorem State.pmc_serdesWait (s : State) (p ev k : Nat) : (s.pmc p ev k).serdesWait = s.serdesWait := by
  have h := congrArg MgmtState.serdesWait (Calm.pmc s p ev k).mgmt; exact h
@[simp] theorem State.pmc_hbmTripAt (s : State) (p ev k : Nat) : (s.pmc p ev k).hbmTripAt = s.hbmTripAt := by
  have h := congrArg MgmtState.hbmTripAt (Calm.pmc s p ev k).mgmt; exact h
@[simp] theorem State.pmc_perstAt (s : State) (p ev k : Nat) : (s.pmc p ev k).perstAt = s.perstAt := by
  have h := congrArg MgmtState.perstAt (Calm.pmc s p ev k).mgmt; exact h
@[simp] theorem State.pmc_srns (s : State) (p ev k : Nat) : (s.pmc p ev k).srns = s.srns := by
  have h := congrArg MgmtState.srns (Calm.pmc s p ev k).mgmt; exact h

/-! ### A posted write -/

@[simp] theorem State.post_pending (s : State) (fn a : Nat) (d : List Byte) (ro : Bool) : (s.post fn a d ro).pending = s.pending := (Calm.post s fn a d ro).pending
@[simp] theorem State.post_ticks (s : State) (fn a : Nat) (d : List Byte) (ro : Bool) : (s.post fn a d ro).ticks = s.ticks := (Calm.post s fn a d ro).ticks
@[simp] theorem State.post_nt (s : State) (fn a : Nat) (d : List Byte) (ro : Bool) : (s.post fn a d ro).nt = s.nt := (Calm.post s fn a d ro).nt
@[simp] theorem State.post_timeHold (s : State) (fn a : Nat) (d : List Byte) (ro : Bool) : (s.post fn a d ro).timeHold = s.timeHold := (Calm.post s fn a d ro).timeHold
@[simp] theorem State.post_hold (s : State) (fn a : Nat) (d : List Byte) (ro : Bool) : (s.post fn a d ro).hold = s.hold := (Calm.post s fn a d ro).hold
@[simp] theorem State.post_toBandState (s : State) (fn a : Nat) (d : List Byte) (ro : Bool) : (s.post fn a d ro).toBandState = s.toBandState := (Calm.post s fn a d ro).band
@[simp] theorem State.post_toLineState (s : State) (fn a : Nat) (d : List Byte) (ro : Bool) : (s.post fn a d ro).toLineState = s.toLineState := (Calm.post s fn a d ro).line
@[simp] theorem State.post_toPipeState (s : State) (fn a : Nat) (d : List Byte) (ro : Bool) : (s.post fn a d ro).toPipeState = s.toPipeState := (Calm.post s fn a d ro).pipe
@[simp] theorem State.post_toQdState (s : State) (fn a : Nat) (d : List Byte) (ro : Bool) : (s.post fn a d ro).toQdState = s.toQdState := (Calm.post s fn a d ro).qd
@[simp] theorem State.post_tags (s : State) (fn a : Nat) (d : List Byte) (ro : Bool) : (s.post fn a d ro).tags = s.tags := by
  have h := congrArg HostState.tags (Calm.post s fn a d ro).host; exact h
@[simp] theorem State.post_vfSince (s : State) (fn a : Nat) (d : List Byte) (ro : Bool) : (s.post fn a d ro).vfSince = s.vfSince := by
  have h := congrArg HostState.vfSince (Calm.post s fn a d ro).host; exact h
@[simp] theorem State.post_perstHigh (s : State) (fn a : Nat) (d : List Byte) (ro : Bool) : (s.post fn a d ro).perstHigh = s.perstHigh := by
  have h := congrArg HostState.perstHigh (Calm.post s fn a d ro).host; exact h
@[simp] theorem State.post_subsys (s : State) (fn a : Nat) (d : List Byte) (ro : Bool) : (s.post fn a d ro).subsys = s.subsys := by
  have h := congrArg HostState.subsys (Calm.post s fn a d ro).host; exact h
@[simp] theorem State.post_retraining (s : State) (fn a : Nat) (d : List Byte) (ro : Bool) : (s.post fn a d ro).retraining = s.retraining := by
  have h := congrArg HostState.retraining (Calm.post s fn a d ro).host; exact h
@[simp] theorem State.post_qps (s : State) (fn a : Nat) (d : List Byte) (ro : Bool) : (s.post fn a d ro).qps = s.qps := by
  have h := congrArg HostState.qps (Calm.post s fn a d ro).host; exact h
@[simp] theorem State.post_vfs (s : State) (fn a : Nat) (d : List Byte) (ro : Bool) : (s.post fn a d ro).vfs = s.vfs := by
  have h := congrArg HostState.vfs (Calm.post s fn a d ro).host; exact h
@[simp] theorem State.post_txCur (s : State) (fn a : Nat) (d : List Byte) (ro : Bool) : (s.post fn a d ro).txCur = s.txCur := by
  have h := congrArg HostState.txCur (Calm.post s fn a d ro).host; exact h
@[simp] theorem State.post_qpRun (s : State) (fn a : Nat) (d : List Byte) (ro : Bool) : (s.post fn a d ro).qpRun = s.qpRun := by
  have h := congrArg HostState.qpRun (Calm.post s fn a d ro).host; exact h
@[simp] theorem State.post_vfmRun (s : State) (fn a : Nat) (d : List Byte) (ro : Bool) : (s.post fn a d ro).vfmRun = s.vfmRun := by
  have h := congrArg HostState.vfmRun (Calm.post s fn a d ro).host; exact h
@[simp] theorem State.post_hostRx (s : State) (fn a : Nat) (d : List Byte) (ro : Bool) : (s.post fn a d ro).hostRx = s.hostRx := by
  have h := congrArg HostState.hostRx (Calm.post s fn a d ro).host; exact h
@[simp] theorem State.post_ipsSas (s : State) (fn a : Nat) (d : List Byte) (ro : Bool) : (s.post fn a d ro).ipsSas = s.ipsSas := by
  have h := congrArg HostState.ipsSas (Calm.post s fn a d ro).host; exact h
@[simp] theorem State.post_ipsHost (s : State) (fn a : Nat) (d : List Byte) (ro : Bool) : (s.post fn a d ro).ipsHost = s.ipsHost := by
  have h := congrArg HostState.ipsHost (Calm.post s fn a d ro).host; exact h
@[simp] theorem State.post_ipsTransit (s : State) (fn a : Nat) (d : List Byte) (ro : Bool) : (s.post fn a d ro).ipsTransit = s.ipsTransit := by
  have h := congrArg HostState.ipsTransit (Calm.post s fn a d ro).host; exact h
@[simp] theorem State.post_ipsDef (s : State) (fn a : Nat) (d : List Byte) (ro : Bool) : (s.post fn a d ro).ipsDef = s.ipsDef := by
  have h := congrArg HostState.ipsDef (Calm.post s fn a d ro).host; exact h
@[simp] theorem State.post_ipsOnHost (s : State) (fn a : Nat) (d : List Byte) (ro : Bool) : (s.post fn a d ro).ipsOnHost = s.ipsOnHost := by
  have h := congrArg HostState.ipsOnHost (Calm.post s fn a d ro).host; exact h
@[simp] theorem State.post_keks (s : State) (fn a : Nat) (d : List Byte) (ro : Bool) : (s.post fn a d ro).keks = s.keks := by
  have h := congrArg HostState.keks (Calm.post s fn a d ro).host; exact h
@[simp] theorem State.post_kekExport (s : State) (fn a : Nat) (d : List Byte) (ro : Bool) : (s.post fn a d ro).kekExport = s.kekExport := by
  have h := congrArg HostState.kekExport (Calm.post s fn a d ro).host; exact h
@[simp] theorem State.post_nvs (s : State) (fn a : Nat) (d : List Byte) (ro : Bool) : (s.post fn a d ro).nvs = s.nvs := by
  have h := congrArg HostState.nvs (Calm.post s fn a d ro).host; exact h
@[simp] theorem State.post_sess (s : State) (fn a : Nat) (d : List Byte) (ro : Bool) : (s.post fn a d ro).sess = s.sess := by
  have h := congrArg HostState.sess (Calm.post s fn a d ro).host; exact h
@[simp] theorem State.post_svcTpl (s : State) (fn a : Nat) (d : List Byte) (ro : Bool) : (s.post fn a d ro).svcTpl = s.svcTpl := by
  have h := congrArg HostState.svcTpl (Calm.post s fn a d ro).host; exact h
@[simp] theorem State.post_bfdIn (s : State) (fn a : Nat) (d : List Byte) (ro : Bool) : (s.post fn a d ro).bfdIn = s.bfdIn := by
  have h := congrArg HostState.bfdIn (Calm.post s fn a d ro).host; exact h
@[simp] theorem State.post_bfdEvents (s : State) (fn a : Nat) (d : List Byte) (ro : Bool) : (s.post fn a d ro).bfdEvents = s.bfdEvents := by
  have h := congrArg HostState.bfdEvents (Calm.post s fn a d ro).host; exact h
@[simp] theorem State.post_rsp (s : State) (fn a : Nat) (d : List Byte) (ro : Bool) : (s.post fn a d ro).rsp = s.rsp := by
  have h := congrArg HostState.rsp (Calm.post s fn a d ro).host; exact h
@[simp] theorem State.post_rspIn (s : State) (fn a : Nat) (d : List Byte) (ro : Bool) : (s.post fn a d ro).rspIn = s.rspIn := by
  have h := congrArg HostState.rspIn (Calm.post s fn a d ro).host; exact h
@[simp] theorem State.post_flowIn (s : State) (fn a : Nat) (d : List Byte) (ro : Bool) : (s.post fn a d ro).flowIn = s.flowIn := by
  have h := congrArg HostState.flowIn (Calm.post s fn a d ro).host; exact h
@[simp] theorem State.post_flows (s : State) (fn a : Nat) (d : List Byte) (ro : Bool) : (s.post fn a d ro).flows = s.flows := by
  have h := congrArg HostState.flows (Calm.post s fn a d ro).host; exact h
@[simp] theorem State.post_ipfixSeq (s : State) (fn a : Nat) (d : List Byte) (ro : Bool) : (s.post fn a d ro).ipfixSeq = s.ipfixSeq := by
  have h := congrArg HostState.ipfixSeq (Calm.post s fn a d ro).host; exact h
@[simp] theorem State.post_ntPending (s : State) (fn a : Nat) (d : List Byte) (ro : Bool) : (s.post fn a d ro).ntPending = s.ntPending := by
  have h := congrArg MgmtState.ntPending (Calm.post s fn a d ro).mgmt; exact h
@[simp] theorem State.post_ppsAt (s : State) (fn a : Nat) (d : List Byte) (ro : Bool) : (s.post fn a d ro).ppsAt = s.ppsAt := by
  have h := congrArg MgmtState.ppsAt (Calm.post s fn a d ro).mgmt; exact h
@[simp] theorem State.post_ppsCap (s : State) (fn a : Nat) (d : List Byte) (ro : Bool) : (s.post fn a d ro).ppsCap = s.ppsCap := by
  have h := congrArg MgmtState.ppsCap (Calm.post s fn a d ro).mgmt; exact h
@[simp] theorem State.post_ntArm (s : State) (fn a : Nat) (d : List Byte) (ro : Bool) : (s.post fn a d ro).ntArm = s.ntArm := by
  have h := congrArg MgmtState.ntArm (Calm.post s fn a d ro).mgmt; exact h
@[simp] theorem State.post_todSec (s : State) (fn a : Nat) (d : List Byte) (ro : Bool) : (s.post fn a d ro).todSec = s.todSec := by
  have h := congrArg MgmtState.todSec (Calm.post s fn a d ro).mgmt; exact h
@[simp] theorem State.post_todAt (s : State) (fn a : Nat) (d : List Byte) (ro : Bool) : (s.post fn a d ro).todAt = s.todAt := by
  have h := congrArg MgmtState.todAt (Calm.post s fn a d ro).mgmt; exact h
@[simp] theorem State.post_ppsOutAt (s : State) (fn a : Nat) (d : List Byte) (ro : Bool) : (s.post fn a d ro).ppsOutAt = s.ppsOutAt := by
  have h := congrArg MgmtState.ppsOutAt (Calm.post s fn a d ro).mgmt; exact h
@[simp] theorem State.post_taq (s : State) (fn a : Nat) (d : List Byte) (ro : Bool) : (s.post fn a d ro).taq = s.taq := by
  have h := congrArg MgmtState.taq (Calm.post s fn a d ro).mgmt; exact h
@[simp] theorem State.post_taqPosts (s : State) (fn a : Nat) (d : List Byte) (ro : Bool) : (s.post fn a d ro).taqPosts = s.taqPosts := by
  have h := congrArg MgmtState.taqPosts (Calm.post s fn a d ro).mgmt; exact h
@[simp] theorem State.post_taqFired (s : State) (fn a : Nat) (d : List Byte) (ro : Bool) : (s.post fn a d ro).taqFired = s.taqFired := by
  have h := congrArg MgmtState.taqFired (Calm.post s fn a d ro).mgmt; exact h
@[simp] theorem State.post_bonTaps (s : State) (fn a : Nat) (d : List Byte) (ro : Bool) : (s.post fn a d ro).bonTaps = s.bonTaps := by
  have h := congrArg MgmtState.bonTaps (Calm.post s fn a d ro).mgmt; exact h
@[simp] theorem State.post_bonInterval (s : State) (fn a : Nat) (d : List Byte) (ro : Bool) : (s.post fn a d ro).bonInterval = s.bonInterval := by
  have h := congrArg MgmtState.bonInterval (Calm.post s fn a d ro).mgmt; exact h
@[simp] theorem State.post_bonMeters (s : State) (fn a : Nat) (d : List Byte) (ro : Bool) : (s.post fn a d ro).bonMeters = s.bonMeters := by
  have h := congrArg MgmtState.bonMeters (Calm.post s fn a d ro).mgmt; exact h
@[simp] theorem State.post_bonStomped (s : State) (fn a : Nat) (d : List Byte) (ro : Bool) : (s.post fn a d ro).bonStomped = s.bonStomped := by
  have h := congrArg MgmtState.bonStomped (Calm.post s fn a d ro).mgmt; exact h
@[simp] theorem State.post_bonBad (s : State) (fn a : Nat) (d : List Byte) (ro : Bool) : (s.post fn a d ro).bonBad = s.bonBad := by
  have h := congrArg MgmtState.bonBad (Calm.post s fn a d ro).mgmt; exact h
@[simp] theorem State.post_bonImage (s : State) (fn a : Nat) (d : List Byte) (ro : Bool) : (s.post fn a d ro).bonImage = s.bonImage := by
  have h := congrArg MgmtState.bonImage (Calm.post s fn a d ro).mgmt; exact h
@[simp] theorem State.post_bonImageBad (s : State) (fn a : Nat) (d : List Byte) (ro : Bool) : (s.post fn a d ro).bonImageBad = s.bonImageBad := by
  have h := congrArg MgmtState.bonImageBad (Calm.post s fn a d ro).mgmt; exact h
@[simp] theorem State.post_bonSeq (s : State) (fn a : Nat) (d : List Byte) (ro : Bool) : (s.post fn a d ro).bonSeq = s.bonSeq := by
  have h := congrArg MgmtState.bonSeq (Calm.post s fn a d ro).mgmt; exact h
@[simp] theorem State.post_bonReport (s : State) (fn a : Nat) (d : List Byte) (ro : Bool) : (s.post fn a d ro).bonReport = s.bonReport := by
  have h := congrArg MgmtState.bonReport (Calm.post s fn a d ro).mgmt; exact h
@[simp] theorem State.post_bonRing (s : State) (fn a : Nat) (d : List Byte) (ro : Bool) : (s.post fn a d ro).bonRing = s.bonRing := by
  have h := congrArg MgmtState.bonRing (Calm.post s fn a d ro).mgmt; exact h
@[simp] theorem State.post_bonSeen (s : State) (fn a : Nat) (d : List Byte) (ro : Bool) : (s.post fn a d ro).bonSeen = s.bonSeen := by
  have h := congrArg MgmtState.bonSeen (Calm.post s fn a d ro).mgmt; exact h
@[simp] theorem State.post_bonStepped (s : State) (fn a : Nat) (d : List Byte) (ro : Bool) : (s.post fn a d ro).bonStepped = s.bonStepped := by
  have h := congrArg MgmtState.bonStepped (Calm.post s fn a d ro).mgmt; exact h
@[simp] theorem State.post_sps (s : State) (fn a : Nat) (d : List Byte) (ro : Bool) : (s.post fn a d ro).sps = s.sps := by
  have h := congrArg MgmtState.sps (Calm.post s fn a d ro).mgmt; exact h
@[simp] theorem State.post_hbAt (s : State) (fn a : Nat) (d : List Byte) (ro : Bool) : (s.post fn a d ro).hbAt = s.hbAt := by
  have h := congrArg MgmtState.hbAt (Calm.post s fn a d ro).mgmt; exact h
@[simp] theorem State.post_hbNs (s : State) (fn a : Nat) (d : List Byte) (ro : Bool) : (s.post fn a d ro).hbNs = s.hbNs := by
  have h := congrArg MgmtState.hbNs (Calm.post s fn a d ro).mgmt; exact h
@[simp] theorem State.post_hbSeen (s : State) (fn a : Nat) (d : List Byte) (ro : Bool) : (s.post fn a d ro).hbSeen = s.hbSeen := by
  have h := congrArg MgmtState.hbSeen (Calm.post s fn a d ro).mgmt; exact h
@[simp] theorem State.post_gapFrom (s : State) (fn a : Nat) (d : List Byte) (ro : Bool) : (s.post fn a d ro).gapFrom = s.gapFrom := by
  have h := congrArg MgmtState.gapFrom (Calm.post s fn a d ro).mgmt; exact h
@[simp] theorem State.post_takeoverBy (s : State) (fn a : Nat) (d : List Byte) (ro : Bool) : (s.post fn a d ro).takeoverBy = s.takeoverBy := by
  have h := congrArg MgmtState.takeoverBy (Calm.post s fn a d ro).mgmt; exact h
@[simp] theorem State.post_firstGrant (s : State) (fn a : Nat) (d : List Byte) (ro : Bool) : (s.post fn a d ro).firstGrant = s.firstGrant := by
  have h := congrArg MgmtState.firstGrant (Calm.post s fn a d ro).mgmt; exact h
@[simp] theorem State.post_takenOver (s : State) (fn a : Nat) (d : List Byte) (ro : Bool) : (s.post fn a d ro).takenOver = s.takenOver := by
  have h := congrArg MgmtState.takenOver (Calm.post s fn a d ro).mgmt; exact h
@[simp] theorem State.post_noActiveAt (s : State) (fn a : Nat) (d : List Byte) (ro : Bool) : (s.post fn a d ro).noActiveAt = s.noActiveAt := by
  have h := congrArg MgmtState.noActiveAt (Calm.post s fn a d ro).mgmt; exact h
@[simp] theorem State.post_failsafe (s : State) (fn a : Nat) (d : List Byte) (ro : Bool) : (s.post fn a d ro).failsafe = s.failsafe := by
  have h := congrArg MgmtState.failsafe (Calm.post s fn a d ro).mgmt; exact h
@[simp] theorem State.post_flash (s : State) (fn a : Nat) (d : List Byte) (ro : Bool) : (s.post fn a d ro).flash = s.flash := by
  have h := congrArg MgmtState.flash (Calm.post s fn a d ro).mgmt; exact h
@[simp] theorem State.post_fuseSvn (s : State) (fn a : Nat) (d : List Byte) (ro : Bool) : (s.post fn a d ro).fuseSvn = s.fuseSvn := by
  have h := congrArg MgmtState.fuseSvn (Calm.post s fn a d ro).mgmt; exact h
@[simp] theorem State.post_eraseGen (s : State) (fn a : Nat) (d : List Byte) (ro : Bool) : (s.post fn a d ro).eraseGen = s.eraseGen := by
  have h := congrArg MgmtState.eraseGen (Calm.post s fn a d ro).mgmt; exact h
@[simp] theorem State.post_keyRevoked (s : State) (fn a : Nat) (d : List Byte) (ro : Bool) : (s.post fn a d ro).keyRevoked = s.keyRevoked := by
  have h := congrArg MgmtState.keyRevoked (Calm.post s fn a d ro).mgmt; exact h
@[simp] theorem State.post_factory (s : State) (fn a : Nat) (d : List Byte) (ro : Bool) : (s.post fn a d ro).factory = s.factory := by
  have h := congrArg MgmtState.factory (Calm.post s fn a d ro).mgmt; exact h
@[simp] theorem State.post_fellBack (s : State) (fn a : Nat) (d : List Byte) (ro : Bool) : (s.post fn a d ro).fellBack = s.fellBack := by
  have h := congrArg MgmtState.fellBack (Calm.post s fn a d ro).mgmt; exact h
@[simp] theorem State.post_fwPassed (s : State) (fn a : Nat) (d : List Byte) (ro : Bool) : (s.post fn a d ro).fwPassed = s.fwPassed := by
  have h := congrArg MgmtState.fwPassed (Calm.post s fn a d ro).mgmt; exact h
@[simp] theorem State.post_runDigest (s : State) (fn a : Nat) (d : List Byte) (ro : Bool) : (s.post fn a d ro).runDigest = s.runDigest := by
  have h := congrArg MgmtState.runDigest (Calm.post s fn a d ro).mgmt; exact h
@[simp] theorem State.post_trialAt (s : State) (fn a : Nat) (d : List Byte) (ro : Bool) : (s.post fn a d ro).trialAt = s.trialAt := by
  have h := congrArg MgmtState.trialAt (Calm.post s fn a d ro).mgmt; exact h
@[simp] theorem State.post_fwFired (s : State) (fn a : Nat) (d : List Byte) (ro : Bool) : (s.post fn a d ro).fwFired = s.fwFired := by
  have h := congrArg MgmtState.fwFired (Calm.post s fn a d ro).mgmt; exact h
@[simp] theorem State.post_fwRun (s : State) (fn a : Nat) (d : List Byte) (ro : Bool) : (s.post fn a d ro).fwRun = s.fwRun := by
  have h := congrArg MgmtState.fwRun (Calm.post s fn a d ro).mgmt; exact h
@[simp] theorem State.post_quote (s : State) (fn a : Nat) (d : List Byte) (ro : Bool) : (s.post fn a d ro).quote = s.quote := by
  have h := congrArg MgmtState.quote (Calm.post s fn a d ro).mgmt; exact h
@[simp] theorem State.post_challenged (s : State) (fn a : Nat) (d : List Byte) (ro : Bool) : (s.post fn a d ro).challenged = s.challenged := by
  have h := congrArg MgmtState.challenged (Calm.post s fn a d ro).mgmt; exact h
@[simp] theorem State.post_token (s : State) (fn a : Nat) (d : List Byte) (ro : Bool) : (s.post fn a d ro).token = s.token := by
  have h := congrArg MgmtState.token (Calm.post s fn a d ro).mgmt; exact h
@[simp] theorem State.post_trace (s : State) (fn a : Nat) (d : List Byte) (ro : Bool) : (s.post fn a d ro).trace = s.trace := by
  have h := congrArg MgmtState.trace (Calm.post s fn a d ro).mgmt; exact h
@[simp] theorem State.post_traceAt (s : State) (fn a : Nat) (d : List Byte) (ro : Bool) : (s.post fn a d ro).traceAt = s.traceAt := by
  have h := congrArg MgmtState.traceAt (Calm.post s fn a d ro).mgmt; exact h
@[simp] theorem State.post_traceTags (s : State) (fn a : Nat) (d : List Byte) (ro : Bool) : (s.post fn a d ro).traceTags = s.traceTags := by
  have h := congrArg MgmtState.traceTags (Calm.post s fn a d ro).mgmt; exact h
@[simp] theorem State.post_shadowFlush (s : State) (fn a : Nat) (d : List Byte) (ro : Bool) : (s.post fn a d ro).shadowFlush = s.shadowFlush := by
  have h := congrArg MgmtState.shadowFlush (Calm.post s fn a d ro).mgmt; exact h
@[simp] theorem State.post_bw (s : State) (fn a : Nat) (d : List Byte) (ro : Bool) : (s.post fn a d ro).bw = s.bw := by
  have h := congrArg MgmtState.bw (Calm.post s fn a d ro).mgmt; exact h
@[simp] theorem State.post_bwFrom (s : State) (fn a : Nat) (d : List Byte) (ro : Bool) : (s.post fn a d ro).bwFrom = s.bwFrom := by
  have h := congrArg MgmtState.bwFrom (Calm.post s fn a d ro).mgmt; exact h
@[simp] theorem State.post_bfdHeard (s : State) (fn a : Nat) (d : List Byte) (ro : Bool) : (s.post fn a d ro).bfdHeard = s.bfdHeard := by
  have h := congrArg HostState.bfdHeard (Calm.post s fn a d ro).host; exact h
@[simp] theorem State.post_bfdSent (s : State) (fn a : Nat) (d : List Byte) (ro : Bool) : (s.post fn a d ro).bfdSent = s.bfdSent := by
  have h := congrArg HostState.bfdSent (Calm.post s fn a d ro).host; exact h
@[simp] theorem State.post_ipfixSwept (s : State) (fn a : Nat) (d : List Byte) (ro : Bool) : (s.post fn a d ro).ipfixSwept = s.ipfixSwept := by
  have h := congrArg HostState.ipfixSwept (Calm.post s fn a d ro).host; exact h
@[simp] theorem State.post_ipfixTplAt (s : State) (fn a : Nat) (d : List Byte) (ro : Bool) : (s.post fn a d ro).ipfixTplAt = s.ipfixTplAt := by
  have h := congrArg HostState.ipfixTplAt (Calm.post s fn a d ro).host; exact h
@[simp] theorem State.post_ppsOutLast (s : State) (fn a : Nat) (d : List Byte) (ro : Bool) : (s.post fn a d ro).ppsOutLast = s.ppsOutLast := by
  have h := congrArg MgmtState.ppsOutLast (Calm.post s fn a d ro).mgmt; exact h
@[simp] theorem State.post_synceAt (s : State) (fn a : Nat) (d : List Byte) (ro : Bool) : (s.post fn a d ro).synceAt = s.synceAt := by
  have h := congrArg MgmtState.synceAt (Calm.post s fn a d ro).mgmt; exact h
@[simp] theorem State.post_bonLost (s : State) (fn a : Nat) (d : List Byte) (ro : Bool) : (s.post fn a d ro).bonLost = s.bonLost := by
  have h := congrArg MgmtState.bonLost (Calm.post s fn a d ro).mgmt; exact h
@[simp] theorem State.post_bonAsked (s : State) (fn a : Nat) (d : List Byte) (ro : Bool) : (s.post fn a d ro).bonAsked = s.bonAsked := by
  have h := congrArg MgmtState.bonAsked (Calm.post s fn a d ro).mgmt; exact h
@[simp] theorem State.post_fwHeld (s : State) (fn a : Nat) (d : List Byte) (ro : Bool) : (s.post fn a d ro).fwHeld = s.fwHeld := by
  have h := congrArg MgmtState.fwHeld (Calm.post s fn a d ro).mgmt; exact h
@[simp] theorem State.post_secHeld (s : State) (fn a : Nat) (d : List Byte) (ro : Bool) : (s.post fn a d ro).secHeld = s.secHeld := by
  have h := congrArg MgmtState.secHeld (Calm.post s fn a d ro).mgmt; exact h
@[simp] theorem State.post_jtag (s : State) (fn a : Nat) (d : List Byte) (ro : Bool) : (s.post fn a d ro).jtag = s.jtag := by
  have h := congrArg MgmtState.jtag (Calm.post s fn a d ro).mgmt; exact h
@[simp] theorem State.post_bwUs (s : State) (fn a : Nat) (d : List Byte) (ro : Bool) : (s.post fn a d ro).bwUs = s.bwUs := by
  have h := congrArg MgmtState.bwUs (Calm.post s fn a d ro).mgmt; exact h
@[simp] theorem State.post_thermHeld (s : State) (fn a : Nat) (d : List Byte) (ro : Bool) : (s.post fn a d ro).thermHeld = s.thermHeld := by
  have h := congrArg MgmtState.thermHeld (Calm.post s fn a d ro).mgmt; exact h
@[simp] theorem State.post_logRun (s : State) (fn a : Nat) (d : List Byte) (ro : Bool) : (s.post fn a d ro).logRun = s.logRun := by
  have h := congrArg MgmtState.logRun (Calm.post s fn a d ro).mgmt; exact h
@[simp] theorem State.post_traceRun (s : State) (fn a : Nat) (d : List Byte) (ro : Bool) : (s.post fn a d ro).traceRun = s.traceRun := by
  have h := congrArg MgmtState.traceRun (Calm.post s fn a d ro).mgmt; exact h
@[simp] theorem State.post_legSeen (s : State) (fn a : Nat) (d : List Byte) (ro : Bool) : (s.post fn a d ro).legSeen = s.legSeen := by
  have h := congrArg MgmtState.legSeen (Calm.post s fn a d ro).mgmt; exact h
@[simp] theorem State.post_legAt (s : State) (fn a : Nat) (d : List Byte) (ro : Bool) : (s.post fn a d ro).legAt = s.legAt := by
  have h := congrArg MgmtState.legAt (Calm.post s fn a d ro).mgmt; exact h
@[simp] theorem State.post_pwrgood (s : State) (fn a : Nat) (d : List Byte) (ro : Bool) : (s.post fn a d ro).pwrgood = s.pwrgood := by
  have h := congrArg MgmtState.pwrgood (Calm.post s fn a d ro).mgmt; exact h
@[simp] theorem State.post_startFrom (s : State) (fn a : Nat) (d : List Byte) (ro : Bool) : (s.post fn a d ro).startFrom = s.startFrom := by
  have h := congrArg MgmtState.startFrom (Calm.post s fn a d ro).mgmt; exact h
@[simp] theorem State.post_warming (s : State) (fn a : Nat) (d : List Byte) (ro : Bool) : (s.post fn a d ro).warming = s.warming := by
  have h := congrArg MgmtState.warming (Calm.post s fn a d ro).mgmt; exact h
@[simp] theorem State.post_domTrans (s : State) (fn a : Nat) (d : List Byte) (ro : Bool) : (s.post fn a d ro).domTrans = s.domTrans := by
  have h := congrArg MgmtState.domTrans (Calm.post s fn a d ro).mgmt; exact h
@[simp] theorem State.post_domHeld (s : State) (fn a : Nat) (d : List Byte) (ro : Bool) : (s.post fn a d ro).domHeld = s.domHeld := by
  have h := congrArg MgmtState.domHeld (Calm.post s fn a d ro).mgmt; exact h
@[simp] theorem State.post_serdesWait (s : State) (fn a : Nat) (d : List Byte) (ro : Bool) : (s.post fn a d ro).serdesWait = s.serdesWait := by
  have h := congrArg MgmtState.serdesWait (Calm.post s fn a d ro).mgmt; exact h
@[simp] theorem State.post_hbmTripAt (s : State) (fn a : Nat) (d : List Byte) (ro : Bool) : (s.post fn a d ro).hbmTripAt = s.hbmTripAt := by
  have h := congrArg MgmtState.hbmTripAt (Calm.post s fn a d ro).mgmt; exact h
@[simp] theorem State.post_perstAt (s : State) (fn a : Nat) (d : List Byte) (ro : Bool) : (s.post fn a d ro).perstAt = s.perstAt := by
  have h := congrArg MgmtState.perstAt (Calm.post s fn a d ro).mgmt; exact h
@[simp] theorem State.post_srns (s : State) (fn a : Nat) (d : List Byte) (ro : Bool) : (s.post fn a d ro).srns = s.srns := by
  have h := congrArg MgmtState.srns (Calm.post s fn a d ro).mgmt; exact h

/-! ### Result sets (R60) -/

theorem State.resWords_low (s : State) (p : Nat) (r : ResSet) (i : Nat) (ws : List Nat) (k b : Nat) (hk : 0 < k)
    (h : b < p * 2097152 + (r.off + r.stride * i) * 32 + 128 ∨ p * 2097152 + (r.off + r.stride * i) * 32 + 2048 ≤ b) :
    tget (s.resWords p r i ws k).regs b = tget s.regs b := by
  induction ws generalizing s k with
  | nil => rfl
  | cons w ws ih =>
    simp only [State.resWords]; split
    · rw [ih _ _ (by omega)]
      have hne : (r.word k).key p i ≠ b := by simp only [ResSet.word, Fld.key]; omega
      simp only [State.wr]; split
      · exact tget_tdel_ne _ hne
      · exact tget_tset_ne _ _ hne
    · rfl

/-- Every register outside a result set keeps its value. -/
theorem State.rd_result_ne (s : State) {p : Nat} {r : ResSet} (tag st : Nat) (ws : List Nat) {i : Nat} (late : Bool) {q : Nat} {g : Fld} {j : Nat}
    (h : g.key q j < p * 2097152 + (r.off + r.stride * i) * 32 ∨ p * 2097152 + (r.off + r.stride * i) * 32 + 2048 ≤ g.key q j) :
    (s.result p r tag st ws i late).rd q g j = s.rd q g j := by
  simp only [State.result]
  have h1 : ∀ f ∈ [r.status, r.tag, r.late, r.valid], f.key p i ≠ g.key q j := by
    simp only [List.mem_cons, List.not_mem_nil, or_false, forall_eq_or_imp, forall_eq, ResSet.status, ResSet.tag, ResSet.late, ResSet.valid, Fld.key] at h ⊢
    omega
  rw [State.rd_wr_ne _ _ (h1 _ (by simp)), State.rd_wr_ne _ _ (h1 _ (by simp)), State.rd_wr_ne _ _ (h1 _ (by simp)), State.rd_wr_ne _ _ (h1 _ (by simp))]
  simp only [State.rd, tgetD]
  have h2 : g.key q j < p * 2097152 + (r.off + r.stride * i) * 32 + 128 ∨ p * 2097152 + (r.off + r.stride * i) * 32 + 2048 ≤ g.key q j := by
    exact h.imp (fun h => Nat.lt_of_lt_of_le h (Nat.le_add_right _ _)) (fun h => h)
  rw [State.resWords_low s p r i _ 1 _ Nat.one_pos h2]

@[simp] theorem State.rd_result_valid (s : State) (p : Nat) (r : ResSet) (tag st : Nat) (ws : List Nat) (i : Nat) (late : Bool) :
    (s.result p r tag st ws i late).rd p r.valid i = 1 := by
  simp [State.result, ResSet.valid]

@[simp] theorem State.rd_result_tag (s : State) (p : Nat) (r : ResSet) (tag st : Nat) (ws : List Nat) (i : Nat) (late : Bool) :
    (s.result p r tag st ws i late).rd p r.tag i = tag % 256 := by
  simp only [State.result]
  rw [State.rd_wr_ne _ _ (by simp only [ResSet.valid, ResSet.tag, Fld.key]; omega), State.rd_wr_ne _ _ (by simp only [ResSet.late, ResSet.tag, Fld.key]; omega),
    State.rd_wr_same]
  rfl

@[simp] theorem State.rd_result_status (s : State) (p : Nat) (r : ResSet) (tag st : Nat) (ws : List Nat) (i : Nat) (late : Bool) :
    (s.result p r tag st ws i late).rd p r.status i = st % 16 := by
  simp only [State.result]
  rw [State.rd_wr_ne _ _ (by simp only [ResSet.valid, ResSet.status, Fld.key]; omega),
    State.rd_wr_ne _ _ (by simp only [ResSet.late, ResSet.status, Fld.key]; omega),
    State.rd_wr_ne _ _ (by simp only [ResSet.tag, ResSet.status, Fld.key]; omega), State.rd_wr_same]
  rfl

@[simp] theorem State.resWords_shadow (s : State) (p : Nat) (r : ResSet) (i : Nat) (ws : List Nat) (k : Nat) : (s.resWords p r i ws k).shadow = s.shadow := by
  induction ws generalizing s k with
  | nil => rfl
  | cons w ws ih => simp only [State.resWords]; split <;> simp [ih]
@[simp] theorem State.result_shadow (s : State) (p : Nat) (r : ResSet) (tag st : Nat) (ws : List Nat) (i : Nat) (late : Bool) :
    (s.result p r tag st ws i late).shadow = s.shadow := by simp [State.result]
@[simp] theorem State.resWords_hold (s : State) (p : Nat) (r : ResSet) (i : Nat) (ws : List Nat) (k : Nat) : (s.resWords p r i ws k).hold = s.hold := by
  induction ws generalizing s k with
  | nil => rfl
  | cons w ws ih => simp only [State.resWords]; split <;> simp [ih]
@[simp] theorem State.result_hold (s : State) (p : Nat) (r : ResSet) (tag st : Nat) (ws : List Nat) (i : Nat) (late : Bool) :
    (s.result p r tag st ws i late).hold = s.hold := by simp [State.result]
@[simp] theorem State.resWords_timeHold (s : State) (p : Nat) (r : ResSet) (i : Nat) (ws : List Nat) (k : Nat) : (s.resWords p r i ws k).timeHold = s.timeHold := by
  induction ws generalizing s k with
  | nil => rfl
  | cons w ws ih => simp only [State.resWords]; split <;> simp [ih]
@[simp] theorem State.result_timeHold (s : State) (p : Nat) (r : ResSet) (tag st : Nat) (ws : List Nat) (i : Nat) (late : Bool) :
    (s.result p r tag st ws i late).timeHold = s.timeHold := by simp [State.result]
@[simp] theorem State.resWords_pending (s : State) (p : Nat) (r : ResSet) (i : Nat) (ws : List Nat) (k : Nat) : (s.resWords p r i ws k).pending = s.pending := by
  induction ws generalizing s k with
  | nil => rfl
  | cons w ws ih => simp only [State.resWords]; split <;> simp [ih]
@[simp] theorem State.result_pending (s : State) (p : Nat) (r : ResSet) (tag st : Nat) (ws : List Nat) (i : Nat) (late : Bool) :
    (s.result p r tag st ws i late).pending = s.pending := by simp [State.result]
@[simp] theorem State.resWords_out (s : State) (p : Nat) (r : ResSet) (i : Nat) (ws : List Nat) (k : Nat) : (s.resWords p r i ws k).out = s.out := by
  induction ws generalizing s k with
  | nil => rfl
  | cons w ws ih => simp only [State.resWords]; split <;> simp [ih]
@[simp] theorem State.result_out (s : State) (p : Nat) (r : ResSet) (tag st : Nat) (ws : List Nat) (i : Nat) (late : Bool) :
    (s.result p r tag st ws i late).out = s.out := by simp [State.result]
@[simp] theorem State.resWords_free (s : State) (p : Nat) (r : ResSet) (i : Nat) (ws : List Nat) (k : Nat) : (s.resWords p r i ws k).free = s.free := by
  induction ws generalizing s k with
  | nil => rfl
  | cons w ws ih => simp only [State.resWords]; split <;> simp [ih]
@[simp] theorem State.result_free (s : State) (p : Nat) (r : ResSet) (tag st : Nat) (ws : List Nat) (i : Nat) (late : Bool) :
    (s.result p r tag st ws i late).free = s.free := by simp [State.result]
@[simp] theorem State.resWords_ticks (s : State) (p : Nat) (r : ResSet) (i : Nat) (ws : List Nat) (k : Nat) : (s.resWords p r i ws k).ticks = s.ticks := by
  induction ws generalizing s k with
  | nil => rfl
  | cons w ws ih => simp only [State.resWords]; split <;> simp [ih]
@[simp] theorem State.result_ticks (s : State) (p : Nat) (r : ResSet) (tag st : Nat) (ws : List Nat) (i : Nat) (late : Bool) :
    (s.result p r tag st ws i late).ticks = s.ticks := by simp [State.result]
@[simp] theorem State.resWords_nt (s : State) (p : Nat) (r : ResSet) (i : Nat) (ws : List Nat) (k : Nat) : (s.resWords p r i ws k).nt = s.nt := by
  induction ws generalizing s k with
  | nil => rfl
  | cons w ws ih => simp only [State.resWords]; split <;> simp [ih]
@[simp] theorem State.result_nt (s : State) (p : Nat) (r : ResSet) (tag st : Nat) (ws : List Nat) (i : Nat) (late : Bool) :
    (s.result p r tag st ws i late).nt = s.nt := by simp [State.result]
@[simp] theorem State.resWords_strobeAt (s : State) (p : Nat) (r : ResSet) (i : Nat) (ws : List Nat) (k : Nat) : (s.resWords p r i ws k).strobeAt = s.strobeAt := by
  induction ws generalizing s k with
  | nil => rfl
  | cons w ws ih => simp only [State.resWords]; split <;> simp [ih]
@[simp] theorem State.result_strobeAt (s : State) (p : Nat) (r : ResSet) (tag st : Nat) (ws : List Nat) (i : Nat) (late : Bool) :
    (s.result p r tag st ws i late).strobeAt = s.strobeAt := by simp [State.result]
@[simp] theorem State.resWords_log (s : State) (p : Nat) (r : ResSet) (i : Nat) (ws : List Nat) (k : Nat) : (s.resWords p r i ws k).log = s.log := by
  induction ws generalizing s k with
  | nil => rfl
  | cons w ws ih => simp only [State.resWords]; split <;> simp [ih]
@[simp] theorem State.result_log (s : State) (p : Nat) (r : ResSet) (tag st : Nat) (ws : List Nat) (i : Nat) (late : Bool) :
    (s.result p r tag st ws i late).log = s.log := by simp [State.result]
@[simp] theorem State.resWords_logLast (s : State) (p : Nat) (r : ResSet) (i : Nat) (ws : List Nat) (k : Nat) : (s.resWords p r i ws k).logLast = s.logLast := by
  induction ws generalizing s k with
  | nil => rfl
  | cons w ws ih => simp only [State.resWords]; split <;> simp [ih]
@[simp] theorem State.result_logLast (s : State) (p : Nat) (r : ResSet) (tag st : Nat) (ws : List Nat) (i : Nat) (late : Bool) :
    (s.result p r tag st ws i late).logLast = s.logLast := by simp [State.result]
@[simp] theorem State.resWords_toBandState (s : State) (p : Nat) (r : ResSet) (i : Nat) (ws : List Nat) (k : Nat) : (s.resWords p r i ws k).toBandState = s.toBandState := by
  induction ws generalizing s k with
  | nil => rfl
  | cons w ws ih => simp only [State.resWords]; split <;> simp [ih]
@[simp] theorem State.result_toBandState (s : State) (p : Nat) (r : ResSet) (tag st : Nat) (ws : List Nat) (i : Nat) (late : Bool) :
    (s.result p r tag st ws i late).toBandState = s.toBandState := by simp [State.result]
@[simp] theorem State.resWords_toLineState (s : State) (p : Nat) (r : ResSet) (i : Nat) (ws : List Nat) (k : Nat) : (s.resWords p r i ws k).toLineState = s.toLineState := by
  induction ws generalizing s k with
  | nil => rfl
  | cons w ws ih => simp only [State.resWords]; split <;> simp [ih]
@[simp] theorem State.result_toLineState (s : State) (p : Nat) (r : ResSet) (tag st : Nat) (ws : List Nat) (i : Nat) (late : Bool) :
    (s.result p r tag st ws i late).toLineState = s.toLineState := by simp [State.result]
@[simp] theorem State.resWords_toPipeState (s : State) (p : Nat) (r : ResSet) (i : Nat) (ws : List Nat) (k : Nat) : (s.resWords p r i ws k).toPipeState = s.toPipeState := by
  induction ws generalizing s k with
  | nil => rfl
  | cons w ws ih => simp only [State.resWords]; split <;> simp [ih]
@[simp] theorem State.result_toPipeState (s : State) (p : Nat) (r : ResSet) (tag st : Nat) (ws : List Nat) (i : Nat) (late : Bool) :
    (s.result p r tag st ws i late).toPipeState = s.toPipeState := by simp [State.result]
@[simp] theorem State.resWords_toQdState (s : State) (p : Nat) (r : ResSet) (i : Nat) (ws : List Nat) (k : Nat) : (s.resWords p r i ws k).toQdState = s.toQdState := by
  induction ws generalizing s k with
  | nil => rfl
  | cons w ws ih => simp only [State.resWords]; split <;> simp [ih]
@[simp] theorem State.result_toQdState (s : State) (p : Nat) (r : ResSet) (tag st : Nat) (ws : List Nat) (i : Nat) (late : Bool) :
    (s.result p r tag st ws i late).toQdState = s.toQdState := by simp [State.result]
@[simp] theorem State.resWords_toHostState (s : State) (p : Nat) (r : ResSet) (i : Nat) (ws : List Nat) (k : Nat) : (s.resWords p r i ws k).toHostState = s.toHostState := by
  induction ws generalizing s k with
  | nil => rfl
  | cons w ws ih => simp only [State.resWords]; split <;> simp [ih]
@[simp] theorem State.result_toHostState (s : State) (p : Nat) (r : ResSet) (tag st : Nat) (ws : List Nat) (i : Nat) (late : Bool) :
    (s.result p r tag st ws i late).toHostState = s.toHostState := by simp [State.result]
@[simp] theorem State.resWords_toMgmtState (s : State) (p : Nat) (r : ResSet) (i : Nat) (ws : List Nat) (k : Nat) : (s.resWords p r i ws k).toMgmtState = s.toMgmtState := by
  induction ws generalizing s k with
  | nil => rfl
  | cons w ws ih => simp only [State.resWords]; split <;> simp [ih]
@[simp] theorem State.result_toMgmtState (s : State) (p : Nat) (r : ResSet) (tag st : Nat) (ws : List Nat) (i : Nat) (late : Bool) :
    (s.result p r tag st ws i late).toMgmtState = s.toMgmtState := by simp [State.result]

end Sys2Proof.Machine
end

