-- ==== Sys2Proof/Laws/Getters.lean ====
section
/-! SUPPORT. Laws/Getters.lean: the element of a table that an update puts there is read back, and every other operation leaves it
alone. -/

namespace Sys2Proof.Machine

/-! ### State.mac -/

@[simp] theorem State.mac_setMac (s : State) (g : Nat) (x : MacSlot) : (s.setMac g x).mac g = x := by
  simp [State.mac, State.setMac, tgetD_tset_same]
@[simp] theorem State.setMac_rd (s : State) (g : Nat) (x : MacSlot) (p : Nat) (f : Fld) (j : Nat) : (s.setMac g x).rd p f j = s.rd p f j := rfl
@[simp] theorem State.setMac_regs (s : State) (g : Nat) (x : MacSlot) : (s.setMac g x).regs = s.regs := rfl
@[simp] theorem State.setMac_shadow (s : State) (g : Nat) (x : MacSlot) : (s.setMac g x).shadow = s.shadow := rfl
@[simp] theorem State.setMac_hold (s : State) (g : Nat) (x : MacSlot) : (s.setMac g x).hold = s.hold := rfl
@[simp] theorem State.setMac_timeHold (s : State) (g : Nat) (x : MacSlot) : (s.setMac g x).timeHold = s.timeHold := rfl
@[simp] theorem State.setMac_pending (s : State) (g : Nat) (x : MacSlot) : (s.setMac g x).pending = s.pending := rfl
@[simp] theorem State.setMac_out (s : State) (g : Nat) (x : MacSlot) : (s.setMac g x).out = s.out := rfl
@[simp] theorem State.setMac_free (s : State) (g : Nat) (x : MacSlot) : (s.setMac g x).free = s.free := rfl
@[simp] theorem State.setMac_ticks (s : State) (g : Nat) (x : MacSlot) : (s.setMac g x).ticks = s.ticks := rfl
@[simp] theorem State.setMac_nt (s : State) (g : Nat) (x : MacSlot) : (s.setMac g x).nt = s.nt := rfl
@[simp] theorem State.setMac_strobeAt (s : State) (g : Nat) (x : MacSlot) : (s.setMac g x).strobeAt = s.strobeAt := rfl
@[simp] theorem State.setMac_log (s : State) (g : Nat) (x : MacSlot) : (s.setMac g x).log = s.log := rfl
@[simp] theorem State.setMac_logLast (s : State) (g : Nat) (x : MacSlot) : (s.setMac g x).logLast = s.logLast := rfl
@[simp] theorem State.setMac_toBandState (s : State) (g : Nat) (x : MacSlot) : (s.setMac g x).toBandState = s.toBandState := rfl
@[simp] theorem State.setMac_toPipeState (s : State) (g : Nat) (x : MacSlot) : (s.setMac g x).toPipeState = s.toPipeState := rfl
@[simp] theorem State.setMac_toQdState (s : State) (g : Nat) (x : MacSlot) : (s.setMac g x).toQdState = s.toQdState := rfl
@[simp] theorem State.setMac_toHostState (s : State) (g : Nat) (x : MacSlot) : (s.setMac g x).toHostState = s.toHostState := rfl
@[simp] theorem State.setMac_toMgmtState (s : State) (g : Nat) (x : MacSlot) : (s.setMac g x).toMgmtState = s.toMgmtState := rfl
@[simp] theorem State.mac_wr (s : State) (p : Nat) (f : Fld) (v j : Nat) (g : Nat) : (s.wr p f v j).mac g = s.mac g := rfl
@[simp] theorem State.mac_emit (s : State) (y : Out) (g : Nat) : (s.emit y).mac g = s.mac g := rfl
@[simp] theorem State.mac_bump (s : State) (p : Nat) (f : Fld) (j e y : Nat) (g : Nat) : (s.bump p f j e y).mac g = s.mac g := by simp [State.mac]
@[simp] theorem State.mac_cnt (s : State) (p : Nat) (f : Fld) (j : Nat) (g : Nat) : (s.cnt p f j).mac g = s.mac g := by simp [State.mac]
@[simp] theorem State.mac_raise (s : State) (p j : Nat) (g : Nat) : (s.raise p j).mac g = s.mac g := by simp [State.mac]
@[simp] theorem State.mac_raiseIf (s : State) (c : Bool) (p j : Nat) (g : Nat) : (s.raiseIf c p j).mac g = s.mac g := by simp [State.mac]
@[simp] theorem State.mac_draw (s : State) (w : Nat) (g : Nat) : (s.draw w).2.mac g = s.mac g := by simp [State.mac]
@[simp] theorem State.mac_msix (s : State) (p j : Nat) (g : Nat) : (s.msix p j).mac g = s.mac g := by simp [State.mac]
@[simp] theorem State.mac_pmc (s : State) (p e y : Nat) (g : Nat) : (s.pmc p e y).mac g = s.mac g := by simp [State.mac]
@[simp] theorem State.mac_post (s : State) (fn a : Nat) (d : List Byte) (ro : Bool) (g : Nat) : (s.post fn a d ro).mac g = s.mac g := by simp [State.mac]
@[simp] theorem State.mac_result (s : State) (p : Nat) (r : ResSet) (tag st : Nat) (ws : List Nat) (j : Nat) (late : Bool) (g : Nat) : (s.result p r tag st ws j late).mac g = s.mac g := by simp [State.mac]
/-! ### State.sa -/

@[simp] theorem State.sa_setSa (s : State) (i : Nat) (tx : Bool) (idx : Nat) (x : MacSa) : (s.setSa i tx idx x).sa i tx idx = x := by
  simp [State.sa, State.setSa, tgetD_tset_same]
@[simp] theorem State.setSa_rd (s : State) (i : Nat) (tx : Bool) (idx : Nat) (x : MacSa) (p : Nat) (f : Fld) (j : Nat) : (s.setSa i tx idx x).rd p f j = s.rd p f j := rfl
@[simp] theorem State.setSa_regs (s : State) (i : Nat) (tx : Bool) (idx : Nat) (x : MacSa) : (s.setSa i tx idx x).regs = s.regs := rfl
@[simp] theorem State.setSa_shadow (s : State) (i : Nat) (tx : Bool) (idx : Nat) (x : MacSa) : (s.setSa i tx idx x).shadow = s.shadow := rfl
@[simp] theorem State.setSa_hold (s : State) (i : Nat) (tx : Bool) (idx : Nat) (x : MacSa) : (s.setSa i tx idx x).hold = s.hold := rfl
@[simp] theorem State.setSa_timeHold (s : State) (i : Nat) (tx : Bool) (idx : Nat) (x : MacSa) : (s.setSa i tx idx x).timeHold = s.timeHold := rfl
@[simp] theorem State.setSa_pending (s : State) (i : Nat) (tx : Bool) (idx : Nat) (x : MacSa) : (s.setSa i tx idx x).pending = s.pending := rfl
@[simp] theorem State.setSa_out (s : State) (i : Nat) (tx : Bool) (idx : Nat) (x : MacSa) : (s.setSa i tx idx x).out = s.out := rfl
@[simp] theorem State.setSa_free (s : State) (i : Nat) (tx : Bool) (idx : Nat) (x : MacSa) : (s.setSa i tx idx x).free = s.free := rfl
@[simp] theorem State.setSa_ticks (s : State) (i : Nat) (tx : Bool) (idx : Nat) (x : MacSa) : (s.setSa i tx idx x).ticks = s.ticks := rfl
@[simp] theorem State.setSa_nt (s : State) (i : Nat) (tx : Bool) (idx : Nat) (x : MacSa) : (s.setSa i tx idx x).nt = s.nt := rfl
@[simp] theorem State.setSa_strobeAt (s : State) (i : Nat) (tx : Bool) (idx : Nat) (x : MacSa) : (s.setSa i tx idx x).strobeAt = s.strobeAt := rfl
@[simp] theorem State.setSa_log (s : State) (i : Nat) (tx : Bool) (idx : Nat) (x : MacSa) : (s.setSa i tx idx x).log = s.log := rfl
@[simp] theorem State.setSa_logLast (s : State) (i : Nat) (tx : Bool) (idx : Nat) (x : MacSa) : (s.setSa i tx idx x).logLast = s.logLast := rfl
@[simp] theorem State.setSa_toBandState (s : State) (i : Nat) (tx : Bool) (idx : Nat) (x : MacSa) : (s.setSa i tx idx x).toBandState = s.toBandState := rfl
@[simp] theorem State.setSa_toPipeState (s : State) (i : Nat) (tx : Bool) (idx : Nat) (x : MacSa) : (s.setSa i tx idx x).toPipeState = s.toPipeState := rfl
@[simp] theorem State.setSa_toQdState (s : State) (i : Nat) (tx : Bool) (idx : Nat) (x : MacSa) : (s.setSa i tx idx x).toQdState = s.toQdState := rfl
@[simp] theorem State.setSa_toHostState (s : State) (i : Nat) (tx : Bool) (idx : Nat) (x : MacSa) : (s.setSa i tx idx x).toHostState = s.toHostState := rfl
@[simp] theorem State.setSa_toMgmtState (s : State) (i : Nat) (tx : Bool) (idx : Nat) (x : MacSa) : (s.setSa i tx idx x).toMgmtState = s.toMgmtState := rfl
@[simp] theorem State.sa_wr (s : State) (p : Nat) (f : Fld) (v j : Nat) (i : Nat) (tx : Bool) (idx : Nat) : (s.wr p f v j).sa i tx idx = s.sa i tx idx := rfl
@[simp] theorem State.sa_emit (s : State) (y : Out) (i : Nat) (tx : Bool) (idx : Nat) : (s.emit y).sa i tx idx = s.sa i tx idx := rfl
@[simp] theorem State.sa_bump (s : State) (p : Nat) (f : Fld) (j e y : Nat) (i : Nat) (tx : Bool) (idx : Nat) : (s.bump p f j e y).sa i tx idx = s.sa i tx idx := by simp [State.sa]
@[simp] theorem State.sa_cnt (s : State) (p : Nat) (f : Fld) (j : Nat) (i : Nat) (tx : Bool) (idx : Nat) : (s.cnt p f j).sa i tx idx = s.sa i tx idx := by simp [State.sa]
@[simp] theorem State.sa_raise (s : State) (p j : Nat) (i : Nat) (tx : Bool) (idx : Nat) : (s.raise p j).sa i tx idx = s.sa i tx idx := by simp [State.sa]
@[simp] theorem State.sa_raiseIf (s : State) (c : Bool) (p j : Nat) (i : Nat) (tx : Bool) (idx : Nat) : (s.raiseIf c p j).sa i tx idx = s.sa i tx idx := by simp [State.sa]
@[simp] theorem State.sa_draw (s : State) (w : Nat) (i : Nat) (tx : Bool) (idx : Nat) : (s.draw w).2.sa i tx idx = s.sa i tx idx := by simp [State.sa]
@[simp] theorem State.sa_msix (s : State) (p j : Nat) (i : Nat) (tx : Bool) (idx : Nat) : (s.msix p j).sa i tx idx = s.sa i tx idx := by simp [State.sa]
@[simp] theorem State.sa_pmc (s : State) (p e y : Nat) (i : Nat) (tx : Bool) (idx : Nat) : (s.pmc p e y).sa i tx idx = s.sa i tx idx := by simp [State.sa]
@[simp] theorem State.sa_post (s : State) (fn a : Nat) (d : List Byte) (ro : Bool) (i : Nat) (tx : Bool) (idx : Nat) : (s.post fn a d ro).sa i tx idx = s.sa i tx idx := by simp [State.sa]
@[simp] theorem State.sa_result (s : State) (p : Nat) (r : ResSet) (tag st : Nat) (ws : List Nat) (j : Nat) (late : Bool) (i : Nat) (tx : Bool) (idx : Nat) : (s.result p r tag st ws j late).sa i tx idx = s.sa i tx idx := by simp [State.sa]
/-! ### State.cage -/

@[simp] theorem State.cage_setCage (s : State) (c : Nat) (x : Cage) : (s.setCage c x).cage c = x := by
  simp [State.cage, State.setCage, tgetD_tset_same]
@[simp] theorem State.setCage_rd (s : State) (c : Nat) (x : Cage) (p : Nat) (f : Fld) (j : Nat) : (s.setCage c x).rd p f j = s.rd p f j := rfl
@[simp] theorem State.setCage_regs (s : State) (c : Nat) (x : Cage) : (s.setCage c x).regs = s.regs := rfl
@[simp] theorem State.setCage_shadow (s : State) (c : Nat) (x : Cage) : (s.setCage c x).shadow = s.shadow := rfl
@[simp] theorem State.setCage_hold (s : State) (c : Nat) (x : Cage) : (s.setCage c x).hold = s.hold := rfl
@[simp] theorem State.setCage_timeHold (s : State) (c : Nat) (x : Cage) : (s.setCage c x).timeHold = s.timeHold := rfl
@[simp] theorem State.setCage_pending (s : State) (c : Nat) (x : Cage) : (s.setCage c x).pending = s.pending := rfl
@[simp] theorem State.setCage_out (s : State) (c : Nat) (x : Cage) : (s.setCage c x).out = s.out := rfl
@[simp] theorem State.setCage_free (s : State) (c : Nat) (x : Cage) : (s.setCage c x).free = s.free := rfl
@[simp] theorem State.setCage_ticks (s : State) (c : Nat) (x : Cage) : (s.setCage c x).ticks = s.ticks := rfl
@[simp] theorem State.setCage_nt (s : State) (c : Nat) (x : Cage) : (s.setCage c x).nt = s.nt := rfl
@[simp] theorem State.setCage_strobeAt (s : State) (c : Nat) (x : Cage) : (s.setCage c x).strobeAt = s.strobeAt := rfl
@[simp] theorem State.setCage_log (s : State) (c : Nat) (x : Cage) : (s.setCage c x).log = s.log := rfl
@[simp] theorem State.setCage_logLast (s : State) (c : Nat) (x : Cage) : (s.setCage c x).logLast = s.logLast := rfl
@[simp] theorem State.setCage_toBandState (s : State) (c : Nat) (x : Cage) : (s.setCage c x).toBandState = s.toBandState := rfl
@[simp] theorem State.setCage_toPipeState (s : State) (c : Nat) (x : Cage) : (s.setCage c x).toPipeState = s.toPipeState := rfl
@[simp] theorem State.setCage_toQdState (s : State) (c : Nat) (x : Cage) : (s.setCage c x).toQdState = s.toQdState := rfl
@[simp] theorem State.setCage_toHostState (s : State) (c : Nat) (x : Cage) : (s.setCage c x).toHostState = s.toHostState := rfl
@[simp] theorem State.setCage_toMgmtState (s : State) (c : Nat) (x : Cage) : (s.setCage c x).toMgmtState = s.toMgmtState := rfl
@[simp] theorem State.cage_wr (s : State) (p : Nat) (f : Fld) (v j : Nat) (c : Nat) : (s.wr p f v j).cage c = s.cage c := rfl
@[simp] theorem State.cage_emit (s : State) (y : Out) (c : Nat) : (s.emit y).cage c = s.cage c := rfl
@[simp] theorem State.cage_bump (s : State) (p : Nat) (f : Fld) (j e y : Nat) (c : Nat) : (s.bump p f j e y).cage c = s.cage c := by simp [State.cage]
@[simp] theorem State.cage_cnt (s : State) (p : Nat) (f : Fld) (j : Nat) (c : Nat) : (s.cnt p f j).cage c = s.cage c := by simp [State.cage]
@[simp] theorem State.cage_raise (s : State) (p j : Nat) (c : Nat) : (s.raise p j).cage c = s.cage c := by simp [State.cage]
@[simp] theorem State.cage_raiseIf (s : State) (b : Bool) (p j : Nat) (c : Nat) : (s.raiseIf b p j).cage c = s.cage c := by simp [State.cage]
@[simp] theorem State.cage_draw (s : State) (w : Nat) (c : Nat) : (s.draw w).2.cage c = s.cage c := by simp [State.cage]
@[simp] theorem State.cage_msix (s : State) (p j : Nat) (c : Nat) : (s.msix p j).cage c = s.cage c := by simp [State.cage]
@[simp] theorem State.cage_pmc (s : State) (p e y : Nat) (c : Nat) : (s.pmc p e y).cage c = s.cage c := by simp [State.cage]
@[simp] theorem State.cage_post (s : State) (fn a : Nat) (d : List Byte) (ro : Bool) (c : Nat) : (s.post fn a d ro).cage c = s.cage c := by simp [State.cage]
@[simp] theorem State.cage_result (s : State) (p : Nat) (r : ResSet) (tag st : Nat) (ws : List Nat) (j : Nat) (late : Bool) (c : Nat) : (s.result p r tag st ws j late).cage c = s.cage c := by simp [State.cage]
/-! ### State.lfu -/

@[simp] theorem State.lfu_setLfu (s : State) (i : Nat) (x : Lfu) : (s.setLfu i x).lfu i = x := by
  simp [State.lfu, State.setLfu, tgetD_tset_same]
@[simp] theorem State.setLfu_rd (s : State) (i : Nat) (x : Lfu) (p : Nat) (f : Fld) (j : Nat) : (s.setLfu i x).rd p f j = s.rd p f j := rfl
@[simp] theorem State.setLfu_regs (s : State) (i : Nat) (x : Lfu) : (s.setLfu i x).regs = s.regs := rfl
@[simp] theorem State.setLfu_shadow (s : State) (i : Nat) (x : Lfu) : (s.setLfu i x).shadow = s.shadow := rfl
@[simp] theorem State.setLfu_hold (s : State) (i : Nat) (x : Lfu) : (s.setLfu i x).hold = s.hold := rfl
@[simp] theorem State.setLfu_timeHold (s : State) (i : Nat) (x : Lfu) : (s.setLfu i x).timeHold = s.timeHold := rfl
@[simp] theorem State.setLfu_pending (s : State) (i : Nat) (x : Lfu) : (s.setLfu i x).pending = s.pending := rfl
@[simp] theorem State.setLfu_out (s : State) (i : Nat) (x : Lfu) : (s.setLfu i x).out = s.out := rfl
@[simp] theorem State.setLfu_free (s : State) (i : Nat) (x : Lfu) : (s.setLfu i x).free = s.free := rfl
@[simp] theorem State.setLfu_ticks (s : State) (i : Nat) (x : Lfu) : (s.setLfu i x).ticks = s.ticks := rfl
@[simp] theorem State.setLfu_nt (s : State) (i : Nat) (x : Lfu) : (s.setLfu i x).nt = s.nt := rfl
@[simp] theorem State.setLfu_strobeAt (s : State) (i : Nat) (x : Lfu) : (s.setLfu i x).strobeAt = s.strobeAt := rfl
@[simp] theorem State.setLfu_log (s : State) (i : Nat) (x : Lfu) : (s.setLfu i x).log = s.log := rfl
@[simp] theorem State.setLfu_logLast (s : State) (i : Nat) (x : Lfu) : (s.setLfu i x).logLast = s.logLast := rfl
@[simp] theorem State.setLfu_toBandState (s : State) (i : Nat) (x : Lfu) : (s.setLfu i x).toBandState = s.toBandState := rfl
@[simp] theorem State.setLfu_toPipeState (s : State) (i : Nat) (x : Lfu) : (s.setLfu i x).toPipeState = s.toPipeState := rfl
@[simp] theorem State.setLfu_toQdState (s : State) (i : Nat) (x : Lfu) : (s.setLfu i x).toQdState = s.toQdState := rfl
@[simp] theorem State.setLfu_toHostState (s : State) (i : Nat) (x : Lfu) : (s.setLfu i x).toHostState = s.toHostState := rfl
@[simp] theorem State.setLfu_toMgmtState (s : State) (i : Nat) (x : Lfu) : (s.setLfu i x).toMgmtState = s.toMgmtState := rfl
@[simp] theorem State.lfu_wr (s : State) (p : Nat) (f : Fld) (v j : Nat) (i : Nat) : (s.wr p f v j).lfu i = s.lfu i := rfl
@[simp] theorem State.lfu_emit (s : State) (y : Out) (i : Nat) : (s.emit y).lfu i = s.lfu i := rfl
@[simp] theorem State.lfu_bump (s : State) (p : Nat) (f : Fld) (j e y : Nat) (i : Nat) : (s.bump p f j e y).lfu i = s.lfu i := by simp [State.lfu]
@[simp] theorem State.lfu_cnt (s : State) (p : Nat) (f : Fld) (j : Nat) (i : Nat) : (s.cnt p f j).lfu i = s.lfu i := by simp [State.lfu]
@[simp] theorem State.lfu_raise (s : State) (p j : Nat) (i : Nat) : (s.raise p j).lfu i = s.lfu i := by simp [State.lfu]
@[simp] theorem State.lfu_raiseIf (s : State) (c : Bool) (p j : Nat) (i : Nat) : (s.raiseIf c p j).lfu i = s.lfu i := by simp [State.lfu]
@[simp] theorem State.lfu_draw (s : State) (w : Nat) (i : Nat) : (s.draw w).2.lfu i = s.lfu i := by simp [State.lfu]
@[simp] theorem State.lfu_msix (s : State) (p j : Nat) (i : Nat) : (s.msix p j).lfu i = s.lfu i := by simp [State.lfu]
@[simp] theorem State.lfu_pmc (s : State) (p e y : Nat) (i : Nat) : (s.pmc p e y).lfu i = s.lfu i := by simp [State.lfu]
@[simp] theorem State.lfu_post (s : State) (fn a : Nat) (d : List Byte) (ro : Bool) (i : Nat) : (s.post fn a d ro).lfu i = s.lfu i := by simp [State.lfu]
@[simp] theorem State.lfu_result (s : State) (p : Nat) (r : ResSet) (tag st : Nat) (ws : List Nat) (j : Nat) (late : Bool) (i : Nat) : (s.result p r tag st ws j late).lfu i = s.lfu i := by simp [State.lfu]
/-! ### State.chan -/

@[simp] theorem State.chan_setChan (s : State) (n : Nat) (x : HbmChan) : (s.setChan n x).chan n = x := by
  simp [State.chan, State.setChan, tgetD_tset_same]
@[simp] theorem State.setChan_rd (s : State) (n : Nat) (x : HbmChan) (p : Nat) (f : Fld) (j : Nat) : (s.setChan n x).rd p f j = s.rd p f j := rfl
@[simp] theorem State.setChan_regs (s : State) (n : Nat) (x : HbmChan) : (s.setChan n x).regs = s.regs := rfl
@[simp] theorem State.setChan_shadow (s : State) (n : Nat) (x : HbmChan) : (s.setChan n x).shadow = s.shadow := rfl
@[simp] theorem State.setChan_hold (s : State) (n : Nat) (x : HbmChan) : (s.setChan n x).hold = s.hold := rfl
@[simp] theorem State.setChan_timeHold (s : State) (n : Nat) (x : HbmChan) : (s.setChan n x).timeHold = s.timeHold := rfl
@[simp] theorem State.setChan_pending (s : State) (n : Nat) (x : HbmChan) : (s.setChan n x).pending = s.pending := rfl
@[simp] theorem State.setChan_out (s : State) (n : Nat) (x : HbmChan) : (s.setChan n x).out = s.out := rfl
@[simp] theorem State.setChan_free (s : State) (n : Nat) (x : HbmChan) : (s.setChan n x).free = s.free := rfl
@[simp] theorem State.setChan_ticks (s : State) (n : Nat) (x : HbmChan) : (s.setChan n x).ticks = s.ticks := rfl
@[simp] theorem State.setChan_nt (s : State) (n : Nat) (x : HbmChan) : (s.setChan n x).nt = s.nt := rfl
@[simp] theorem State.setChan_strobeAt (s : State) (n : Nat) (x : HbmChan) : (s.setChan n x).strobeAt = s.strobeAt := rfl
@[simp] theorem State.setChan_log (s : State) (n : Nat) (x : HbmChan) : (s.setChan n x).log = s.log := rfl
@[simp] theorem State.setChan_logLast (s : State) (n : Nat) (x : HbmChan) : (s.setChan n x).logLast = s.logLast := rfl
@[simp] theorem State.setChan_toBandState (s : State) (n : Nat) (x : HbmChan) : (s.setChan n x).toBandState = s.toBandState := rfl
@[simp] theorem State.setChan_toLineState (s : State) (n : Nat) (x : HbmChan) : (s.setChan n x).toLineState = s.toLineState := rfl
@[simp] theorem State.setChan_toPipeState (s : State) (n : Nat) (x : HbmChan) : (s.setChan n x).toPipeState = s.toPipeState := rfl
@[simp] theorem State.setChan_toHostState (s : State) (n : Nat) (x : HbmChan) : (s.setChan n x).toHostState = s.toHostState := rfl
@[simp] theorem State.setChan_toMgmtState (s : State) (n : Nat) (x : HbmChan) : (s.setChan n x).toMgmtState = s.toMgmtState := rfl
@[simp] theorem State.chan_wr (s : State) (p : Nat) (f : Fld) (v j : Nat) (n : Nat) : (s.wr p f v j).chan n = s.chan n := rfl
@[simp] theorem State.chan_emit (s : State) (y : Out) (n : Nat) : (s.emit y).chan n = s.chan n := rfl
@[simp] theorem State.chan_bump (s : State) (p : Nat) (f : Fld) (j e y : Nat) (n : Nat) : (s.bump p f j e y).chan n = s.chan n := by simp [State.chan]
@[simp] theorem State.chan_cnt (s : State) (p : Nat) (f : Fld) (j : Nat) (n : Nat) : (s.cnt p f j).chan n = s.chan n := by simp [State.chan]
@[simp] theorem State.chan_raise (s : State) (p j : Nat) (n : Nat) : (s.raise p j).chan n = s.chan n := by simp [State.chan]
@[simp] theorem State.chan_raiseIf (s : State) (c : Bool) (p j : Nat) (n : Nat) : (s.raiseIf c p j).chan n = s.chan n := by simp [State.chan]
@[simp] theorem State.chan_draw (s : State) (w : Nat) (n : Nat) : (s.draw w).2.chan n = s.chan n := by simp [State.chan]
@[simp] theorem State.chan_msix (s : State) (p j : Nat) (n : Nat) : (s.msix p j).chan n = s.chan n := by simp [State.chan]
@[simp] theorem State.chan_pmc (s : State) (p e y : Nat) (n : Nat) : (s.pmc p e y).chan n = s.chan n := by simp [State.chan]
@[simp] theorem State.chan_post (s : State) (fn a : Nat) (d : List Byte) (ro : Bool) (n : Nat) : (s.post fn a d ro).chan n = s.chan n := by simp [State.chan]
@[simp] theorem State.chan_result (s : State) (p : Nat) (r : ResSet) (tag st : Nat) (ws : List Nat) (j : Nat) (late : Bool) (n : Nat) : (s.result p r tag st ws j late).chan n = s.chan n := by simp [State.chan]
/-! ### State.ctx -/

@[simp] theorem State.ctx_setCtx (s : State) (c : Nat) (x : OrdCtx) : (s.setCtx c x).ctx c = x := by
  simp [State.ctx, State.setCtx, tgetD_tset_same]
@[simp] theorem State.setCtx_rd (s : State) (c : Nat) (x : OrdCtx) (p : Nat) (f : Fld) (j : Nat) : (s.setCtx c x).rd p f j = s.rd p f j := rfl
@[simp] theorem State.setCtx_regs (s : State) (c : Nat) (x : OrdCtx) : (s.setCtx c x).regs = s.regs := rfl
@[simp] theorem State.setCtx_shadow (s : State) (c : Nat) (x : OrdCtx) : (s.setCtx c x).shadow = s.shadow := rfl
@[simp] theorem State.setCtx_hold (s : State) (c : Nat) (x : OrdCtx) : (s.setCtx c x).hold = s.hold := rfl
@[simp] theorem State.setCtx_timeHold (s : State) (c : Nat) (x : OrdCtx) : (s.setCtx c x).timeHold = s.timeHold := rfl
@[simp] theorem State.setCtx_pending (s : State) (c : Nat) (x : OrdCtx) : (s.setCtx c x).pending = s.pending := rfl
@[simp] theorem State.setCtx_out (s : State) (c : Nat) (x : OrdCtx) : (s.setCtx c x).out = s.out := rfl
@[simp] theorem State.setCtx_free (s : State) (c : Nat) (x : OrdCtx) : (s.setCtx c x).free = s.free := rfl
@[simp] theorem State.setCtx_ticks (s : State) (c : Nat) (x : OrdCtx) : (s.setCtx c x).ticks = s.ticks := rfl
@[simp] theorem State.setCtx_nt (s : State) (c : Nat) (x : OrdCtx) : (s.setCtx c x).nt = s.nt := rfl
@[simp] theorem State.setCtx_strobeAt (s : State) (c : Nat) (x : OrdCtx) : (s.setCtx c x).strobeAt = s.strobeAt := rfl
@[simp] theorem State.setCtx_log (s : State) (c : Nat) (x : OrdCtx) : (s.setCtx c x).log = s.log := rfl
@[simp] theorem State.setCtx_logLast (s : State) (c : Nat) (x : OrdCtx) : (s.setCtx c x).logLast = s.logLast := rfl
@[simp] theorem State.setCtx_toBandState (s : State) (c : Nat) (x : OrdCtx) : (s.setCtx c x).toBandState = s.toBandState := rfl
@[simp] theorem State.setCtx_toLineState (s : State) (c : Nat) (x : OrdCtx) : (s.setCtx c x).toLineState = s.toLineState := rfl
@[simp] theorem State.setCtx_toQdState (s : State) (c : Nat) (x : OrdCtx) : (s.setCtx c x).toQdState = s.toQdState := rfl
@[simp] theorem State.setCtx_toHostState (s : State) (c : Nat) (x : OrdCtx) : (s.setCtx c x).toHostState = s.toHostState := rfl
@[simp] theorem State.setCtx_toMgmtState (s : State) (c : Nat) (x : OrdCtx) : (s.setCtx c x).toMgmtState = s.toMgmtState := rfl
@[simp] theorem State.ctx_wr (s : State) (p : Nat) (f : Fld) (v j : Nat) (c : Nat) : (s.wr p f v j).ctx c = s.ctx c := rfl
@[simp] theorem State.ctx_emit (s : State) (y : Out) (c : Nat) : (s.emit y).ctx c = s.ctx c := rfl
@[simp] theorem State.ctx_bump (s : State) (p : Nat) (f : Fld) (j e y : Nat) (c : Nat) : (s.bump p f j e y).ctx c = s.ctx c := by simp [State.ctx]
@[simp] theorem State.ctx_cnt (s : State) (p : Nat) (f : Fld) (j : Nat) (c : Nat) : (s.cnt p f j).ctx c = s.ctx c := by simp [State.ctx]
@[simp] theorem State.ctx_raise (s : State) (p j : Nat) (c : Nat) : (s.raise p j).ctx c = s.ctx c := by simp [State.ctx]
@[simp] theorem State.ctx_raiseIf (s : State) (b : Bool) (p j : Nat) (c : Nat) : (s.raiseIf b p j).ctx c = s.ctx c := by simp [State.ctx]
@[simp] theorem State.ctx_draw (s : State) (w : Nat) (c : Nat) : (s.draw w).2.ctx c = s.ctx c := by simp [State.ctx]
@[simp] theorem State.ctx_msix (s : State) (p j : Nat) (c : Nat) : (s.msix p j).ctx c = s.ctx c := by simp [State.ctx]
@[simp] theorem State.ctx_pmc (s : State) (p e y : Nat) (c : Nat) : (s.pmc p e y).ctx c = s.ctx c := by simp [State.ctx]
@[simp] theorem State.ctx_post (s : State) (fn a : Nat) (d : List Byte) (ro : Bool) (c : Nat) : (s.post fn a d ro).ctx c = s.ctx c := by simp [State.ctx]
@[simp] theorem State.ctx_result (s : State) (p : Nat) (r : ResSet) (tag st : Nat) (ws : List Nat) (j : Nat) (late : Bool) (c : Nat) : (s.result p r tag st ws j late).ctx c = s.ctx c := by simp [State.ctx]
/-! ### State.link -/

@[simp] theorem State.link_setLink (s : State) (l : Nat) (x : FabLink) : (s.setLink l x).link l = x := by
  simp [State.link, State.setLink, tgetD_tset_same]
@[simp] theorem State.setLink_rd (s : State) (l : Nat) (x : FabLink) (p : Nat) (f : Fld) (j : Nat) : (s.setLink l x).rd p f j = s.rd p f j := rfl
@[simp] theorem State.setLink_regs (s : State) (l : Nat) (x : FabLink) : (s.setLink l x).regs = s.regs := rfl
@[simp] theorem State.setLink_shadow (s : State) (l : Nat) (x : FabLink) : (s.setLink l x).shadow = s.shadow := rfl
@[simp] theorem State.setLink_hold (s : State) (l : Nat) (x : FabLink) : (s.setLink l x).hold = s.hold := rfl
@[simp] theorem State.setLink_timeHold (s : State) (l : Nat) (x : FabLink) : (s.setLink l x).timeHold = s.timeHold := rfl
@[simp] theorem State.setLink_pending (s : State) (l : Nat) (x : FabLink) : (s.setLink l x).pending = s.pending := rfl
@[simp] theorem State.setLink_out (s : State) (l : Nat) (x : FabLink) : (s.setLink l x).out = s.out := rfl
@[simp] theorem State.setLink_free (s : State) (l : Nat) (x : FabLink) : (s.setLink l x).free = s.free := rfl
@[simp] theorem State.setLink_ticks (s : State) (l : Nat) (x : FabLink) : (s.setLink l x).ticks = s.ticks := rfl
@[simp] theorem State.setLink_nt (s : State) (l : Nat) (x : FabLink) : (s.setLink l x).nt = s.nt := rfl
@[simp] theorem State.setLink_strobeAt (s : State) (l : Nat) (x : FabLink) : (s.setLink l x).strobeAt = s.strobeAt := rfl
@[simp] theorem State.setLink_log (s : State) (l : Nat) (x : FabLink) : (s.setLink l x).log = s.log := rfl
@[simp] theorem State.setLink_logLast (s : State) (l : Nat) (x : FabLink) : (s.setLink l x).logLast = s.logLast := rfl
@[simp] theorem State.setLink_toBandState (s : State) (l : Nat) (x : FabLink) : (s.setLink l x).toBandState = s.toBandState := rfl
@[simp] theorem State.setLink_toLineState (s : State) (l : Nat) (x : FabLink) : (s.setLink l x).toLineState = s.toLineState := rfl
@[simp] theorem State.setLink_toPipeState (s : State) (l : Nat) (x : FabLink) : (s.setLink l x).toPipeState = s.toPipeState := rfl
@[simp] theorem State.setLink_toHostState (s : State) (l : Nat) (x : FabLink) : (s.setLink l x).toHostState = s.toHostState := rfl
@[simp] theorem State.setLink_toMgmtState (s : State) (l : Nat) (x : FabLink) : (s.setLink l x).toMgmtState = s.toMgmtState := rfl
@[simp] theorem State.link_wr (s : State) (p : Nat) (f : Fld) (v j : Nat) (l : Nat) : (s.wr p f v j).link l = s.link l := rfl
@[simp] theorem State.link_emit (s : State) (y : Out) (l : Nat) : (s.emit y).link l = s.link l := rfl
@[simp] theorem State.link_bump (s : State) (p : Nat) (f : Fld) (j e y : Nat) (l : Nat) : (s.bump p f j e y).link l = s.link l := by simp [State.link]
@[simp] theorem State.link_cnt (s : State) (p : Nat) (f : Fld) (j : Nat) (l : Nat) : (s.cnt p f j).link l = s.link l := by simp [State.link]
@[simp] theorem State.link_raise (s : State) (p j : Nat) (l : Nat) : (s.raise p j).link l = s.link l := by simp [State.link]
@[simp] theorem State.link_raiseIf (s : State) (c : Bool) (p j : Nat) (l : Nat) : (s.raiseIf c p j).link l = s.link l := by simp [State.link]
@[simp] theorem State.link_draw (s : State) (w : Nat) (l : Nat) : (s.draw w).2.link l = s.link l := by simp [State.link]
@[simp] theorem State.link_msix (s : State) (p j : Nat) (l : Nat) : (s.msix p j).link l = s.link l := by simp [State.link]
@[simp] theorem State.link_pmc (s : State) (p e y : Nat) (l : Nat) : (s.pmc p e y).link l = s.link l := by simp [State.link]
@[simp] theorem State.link_post (s : State) (fn a : Nat) (d : List Byte) (ro : Bool) (l : Nat) : (s.post fn a d ro).link l = s.link l := by simp [State.link]
@[simp] theorem State.link_result (s : State) (p : Nat) (r : ResSet) (tag st : Nat) (ws : List Nat) (j : Nat) (late : Bool) (l : Nat) : (s.result p r tag st ws j late).link l = s.link l := by simp [State.link]
/-! ### State.lin -/

@[simp] theorem State.lin_setLin (s : State) (k : Nat) (x : LinCtx) : (s.setLin k x).lin k = x := by
  simp [State.lin, State.setLin, tgetD_tset_same]
@[simp] theorem State.setLin_rd (s : State) (k : Nat) (x : LinCtx) (p : Nat) (f : Fld) (j : Nat) : (s.setLin k x).rd p f j = s.rd p f j := rfl
@[simp] theorem State.setLin_regs (s : State) (k : Nat) (x : LinCtx) : (s.setLin k x).regs = s.regs := rfl
@[simp] theorem State.setLin_shadow (s : State) (k : Nat) (x : LinCtx) : (s.setLin k x).shadow = s.shadow := rfl
@[simp] theorem State.setLin_hold (s : State) (k : Nat) (x : LinCtx) : (s.setLin k x).hold = s.hold := rfl
@[simp] theorem State.setLin_timeHold (s : State) (k : Nat) (x : LinCtx) : (s.setLin k x).timeHold = s.timeHold := rfl
@[simp] theorem State.setLin_pending (s : State) (k : Nat) (x : LinCtx) : (s.setLin k x).pending = s.pending := rfl
@[simp] theorem State.setLin_out (s : State) (k : Nat) (x : LinCtx) : (s.setLin k x).out = s.out := rfl
@[simp] theorem State.setLin_free (s : State) (k : Nat) (x : LinCtx) : (s.setLin k x).free = s.free := rfl
@[simp] theorem State.setLin_ticks (s : State) (k : Nat) (x : LinCtx) : (s.setLin k x).ticks = s.ticks := rfl
@[simp] theorem State.setLin_nt (s : State) (k : Nat) (x : LinCtx) : (s.setLin k x).nt = s.nt := rfl
@[simp] theorem State.setLin_strobeAt (s : State) (k : Nat) (x : LinCtx) : (s.setLin k x).strobeAt = s.strobeAt := rfl
@[simp] theorem State.setLin_log (s : State) (k : Nat) (x : LinCtx) : (s.setLin k x).log = s.log := rfl
@[simp] theorem State.setLin_logLast (s : State) (k : Nat) (x : LinCtx) : (s.setLin k x).logLast = s.logLast := rfl
@[simp] theorem State.setLin_toBandState (s : State) (k : Nat) (x : LinCtx) : (s.setLin k x).toBandState = s.toBandState := rfl
@[simp] theorem State.setLin_toLineState (s : State) (k : Nat) (x : LinCtx) : (s.setLin k x).toLineState = s.toLineState := rfl
@[simp] theorem State.setLin_toPipeState (s : State) (k : Nat) (x : LinCtx) : (s.setLin k x).toPipeState = s.toPipeState := rfl
@[simp] theorem State.setLin_toHostState (s : State) (k : Nat) (x : LinCtx) : (s.setLin k x).toHostState = s.toHostState := rfl
@[simp] theorem State.setLin_toMgmtState (s : State) (k : Nat) (x : LinCtx) : (s.setLin k x).toMgmtState = s.toMgmtState := rfl
@[simp] theorem State.lin_wr (s : State) (p : Nat) (f : Fld) (v j : Nat) (k : Nat) : (s.wr p f v j).lin k = s.lin k := rfl
@[simp] theorem State.lin_emit (s : State) (y : Out) (k : Nat) : (s.emit y).lin k = s.lin k := rfl
@[simp] theorem State.lin_bump (s : State) (p : Nat) (f : Fld) (j e y : Nat) (k : Nat) : (s.bump p f j e y).lin k = s.lin k := by simp [State.lin]
@[simp] theorem State.lin_cnt (s : State) (p : Nat) (f : Fld) (j : Nat) (k : Nat) : (s.cnt p f j).lin k = s.lin k := by simp [State.lin]
@[simp] theorem State.lin_raise (s : State) (p j : Nat) (k : Nat) : (s.raise p j).lin k = s.lin k := by simp [State.lin]
@[simp] theorem State.lin_raiseIf (s : State) (c : Bool) (p j : Nat) (k : Nat) : (s.raiseIf c p j).lin k = s.lin k := by simp [State.lin]
@[simp] theorem State.lin_draw (s : State) (w : Nat) (k : Nat) : (s.draw w).2.lin k = s.lin k := by simp [State.lin]
@[simp] theorem State.lin_msix (s : State) (p j : Nat) (k : Nat) : (s.msix p j).lin k = s.lin k := by simp [State.lin]
@[simp] theorem State.lin_pmc (s : State) (p e y : Nat) (k : Nat) : (s.pmc p e y).lin k = s.lin k := by simp [State.lin]
@[simp] theorem State.lin_post (s : State) (fn a : Nat) (d : List Byte) (ro : Bool) (k : Nat) : (s.post fn a d ro).lin k = s.lin k := by simp [State.lin]
@[simp] theorem State.lin_result (s : State) (p : Nat) (r : ResSet) (tag st : Nat) (ws : List Nat) (j : Nat) (late : Bool) (k : Nat) : (s.result p r tag st ws j late).lin k = s.lin k := by simp [State.lin]
/-! ### State.qp -/

@[simp] theorem State.qp_setQp (s : State) (k : Nat) (x : QPair) : (s.setQp k x).qp k = x := by
  simp [State.qp, State.setQp, tgetD_tset_same]
@[simp] theorem State.setQp_rd (s : State) (k : Nat) (x : QPair) (p : Nat) (f : Fld) (j : Nat) : (s.setQp k x).rd p f j = s.rd p f j := rfl
@[simp] theorem State.setQp_regs (s : State) (k : Nat) (x : QPair) : (s.setQp k x).regs = s.regs := rfl
@[simp] theorem State.setQp_shadow (s : State) (k : Nat) (x : QPair) : (s.setQp k x).shadow = s.shadow := rfl
@[simp] theorem State.setQp_hold (s : State) (k : Nat) (x : QPair) : (s.setQp k x).hold = s.hold := rfl
@[simp] theorem State.setQp_timeHold (s : State) (k : Nat) (x : QPair) : (s.setQp k x).timeHold = s.timeHold := rfl
@[simp] theorem State.setQp_pending (s : State) (k : Nat) (x : QPair) : (s.setQp k x).pending = s.pending := rfl
@[simp] theorem State.setQp_out (s : State) (k : Nat) (x : QPair) : (s.setQp k x).out = s.out := rfl
@[simp] theorem State.setQp_free (s : State) (k : Nat) (x : QPair) : (s.setQp k x).free = s.free := rfl
@[simp] theorem State.setQp_ticks (s : State) (k : Nat) (x : QPair) : (s.setQp k x).ticks = s.ticks := rfl
@[simp] theorem State.setQp_nt (s : State) (k : Nat) (x : QPair) : (s.setQp k x).nt = s.nt := rfl
@[simp] theorem State.setQp_strobeAt (s : State) (k : Nat) (x : QPair) : (s.setQp k x).strobeAt = s.strobeAt := rfl
@[simp] theorem State.setQp_log (s : State) (k : Nat) (x : QPair) : (s.setQp k x).log = s.log := rfl
@[simp] theorem State.setQp_logLast (s : State) (k : Nat) (x : QPair) : (s.setQp k x).logLast = s.logLast := rfl
@[simp] theorem State.setQp_toBandState (s : State) (k : Nat) (x : QPair) : (s.setQp k x).toBandState = s.toBandState := rfl
@[simp] theorem State.setQp_toLineState (s : State) (k : Nat) (x : QPair) : (s.setQp k x).toLineState = s.toLineState := rfl
@[simp] theorem State.setQp_toPipeState (s : State) (k : Nat) (x : QPair) : (s.setQp k x).toPipeState = s.toPipeState := rfl
@[simp] theorem State.setQp_toQdState (s : State) (k : Nat) (x : QPair) : (s.setQp k x).toQdState = s.toQdState := rfl
@[simp] theorem State.setQp_toMgmtState (s : State) (k : Nat) (x : QPair) : (s.setQp k x).toMgmtState = s.toMgmtState := rfl
@[simp] theorem State.qp_wr (s : State) (p : Nat) (f : Fld) (v j : Nat) (k : Nat) : (s.wr p f v j).qp k = s.qp k := rfl
@[simp] theorem State.qp_emit (s : State) (y : Out) (k : Nat) : (s.emit y).qp k = s.qp k := rfl
@[simp] theorem State.qp_bump (s : State) (p : Nat) (f : Fld) (j e y : Nat) (k : Nat) : (s.bump p f j e y).qp k = s.qp k := by simp [State.qp]
@[simp] theorem State.qp_cnt (s : State) (p : Nat) (f : Fld) (j : Nat) (k : Nat) : (s.cnt p f j).qp k = s.qp k := by simp [State.qp]
@[simp] theorem State.qp_raise (s : State) (p j : Nat) (k : Nat) : (s.raise p j).qp k = s.qp k := by simp [State.qp]
@[simp] theorem State.qp_raiseIf (s : State) (c : Bool) (p j : Nat) (k : Nat) : (s.raiseIf c p j).qp k = s.qp k := by simp [State.qp]
@[simp] theorem State.qp_draw (s : State) (w : Nat) (k : Nat) : (s.draw w).2.qp k = s.qp k := by simp [State.qp]
@[simp] theorem State.qp_msix (s : State) (p j : Nat) (k : Nat) : (s.msix p j).qp k = s.qp k := by simp [State.qp]
@[simp] theorem State.qp_pmc (s : State) (p e y : Nat) (k : Nat) : (s.pmc p e y).qp k = s.qp k := by simp [State.qp]
@[simp] theorem State.qp_post (s : State) (fn a : Nat) (d : List Byte) (ro : Bool) (k : Nat) : (s.post fn a d ro).qp k = s.qp k := by simp [State.qp]
@[simp] theorem State.qp_result (s : State) (p : Nat) (r : ResSet) (tag st : Nat) (ws : List Nat) (j : Nat) (late : Bool) (k : Nat) : (s.result p r tag st ws j late).qp k = s.qp k := by simp [State.qp]
/-! ### State.vf -/

@[simp] theorem State.vf_setVf (s : State) (n : Nat) (x : VfState) : (s.setVf n x).vf n = x := by
  simp [State.vf, State.setVf, tgetD_tset_same]
@[simp] theorem State.setVf_rd (s : State) (n : Nat) (x : VfState) (p : Nat) (f : Fld) (j : Nat) : (s.setVf n x).rd p f j = s.rd p f j := rfl
@[simp] theorem State.setVf_regs (s : State) (n : Nat) (x : VfState) : (s.setVf n x).regs = s.regs := rfl
@[simp] theorem State.setVf_shadow (s : State) (n : Nat) (x : VfState) : (s.setVf n x).shadow = s.shadow := rfl
@[simp] theorem State.setVf_hold (s : State) (n : Nat) (x : VfState) : (s.setVf n x).hold = s.hold := rfl
@[simp] theorem State.setVf_timeHold (s : State) (n : Nat) (x : VfState) : (s.setVf n x).timeHold = s.timeHold := rfl
@[simp] theorem State.setVf_pending (s : State) (n : Nat) (x : VfState) : (s.setVf n x).pending = s.pending := rfl
@[simp] theorem State.setVf_out (s : State) (n : Nat) (x : VfState) : (s.setVf n x).out = s.out := rfl
@[simp] theorem State.setVf_free (s : State) (n : Nat) (x : VfState) : (s.setVf n x).free = s.free := rfl
@[simp] theorem State.setVf_ticks (s : State) (n : Nat) (x : VfState) : (s.setVf n x).ticks = s.ticks := rfl
@[simp] theorem State.setVf_nt (s : State) (n : Nat) (x : VfState) : (s.setVf n x).nt = s.nt := rfl
@[simp] theorem State.setVf_strobeAt (s : State) (n : Nat) (x : VfState) : (s.setVf n x).strobeAt = s.strobeAt := rfl
@[simp] theorem State.setVf_log (s : State) (n : Nat) (x : VfState) : (s.setVf n x).log = s.log := rfl
@[simp] theorem State.setVf_logLast (s : State) (n : Nat) (x : VfState) : (s.setVf n x).logLast = s.logLast := rfl
@[simp] theorem State.setVf_toBandState (s : State) (n : Nat) (x : VfState) : (s.setVf n x).toBandState = s.toBandState := rfl
@[simp] theorem State.setVf_toLineState (s : State) (n : Nat) (x : VfState) : (s.setVf n x).toLineState = s.toLineState := rfl
@[simp] theorem State.setVf_toPipeState (s : State) (n : Nat) (x : VfState) : (s.setVf n x).toPipeState = s.toPipeState := rfl
@[simp] theorem State.setVf_toQdState (s : State) (n : Nat) (x : VfState) : (s.setVf n x).toQdState = s.toQdState := rfl
@[simp] theorem State.setVf_toMgmtState (s : State) (n : Nat) (x : VfState) : (s.setVf n x).toMgmtState = s.toMgmtState := rfl
@[simp] theorem State.vf_wr (s : State) (p : Nat) (f : Fld) (v j : Nat) (n : Nat) : (s.wr p f v j).vf n = s.vf n := rfl
@[simp] theorem State.vf_emit (s : State) (y : Out) (n : Nat) : (s.emit y).vf n = s.vf n := rfl
@[simp] theorem State.vf_bump (s : State) (p : Nat) (f : Fld) (j e y : Nat) (n : Nat) : (s.bump p f j e y).vf n = s.vf n := by simp [State.vf]
@[simp] theorem State.vf_cnt (s : State) (p : Nat) (f : Fld) (j : Nat) (n : Nat) : (s.cnt p f j).vf n = s.vf n := by simp [State.vf]
@[simp] theorem State.vf_raise (s : State) (p j : Nat) (n : Nat) : (s.raise p j).vf n = s.vf n := by simp [State.vf]
@[simp] theorem State.vf_raiseIf (s : State) (c : Bool) (p j : Nat) (n : Nat) : (s.raiseIf c p j).vf n = s.vf n := by simp [State.vf]
@[simp] theorem State.vf_draw (s : State) (w : Nat) (n : Nat) : (s.draw w).2.vf n = s.vf n := by simp [State.vf]
@[simp] theorem State.vf_msix (s : State) (p j : Nat) (n : Nat) : (s.msix p j).vf n = s.vf n := by simp [State.vf]
@[simp] theorem State.vf_pmc (s : State) (p e y : Nat) (n : Nat) : (s.pmc p e y).vf n = s.vf n := by simp [State.vf]
@[simp] theorem State.vf_post (s : State) (fn a : Nat) (d : List Byte) (ro : Bool) (n : Nat) : (s.post fn a d ro).vf n = s.vf n := by simp [State.vf]
@[simp] theorem State.vf_result (s : State) (p : Nat) (r : ResSet) (tag st : Nat) (ws : List Nat) (j : Nat) (late : Bool) (n : Nat) : (s.result p r tag st ws j late).vf n = s.vf n := by simp [State.vf]
/-! ### State.sp -/

@[simp] theorem State.sp_setSp (s : State) (k : Nat) (x : SpState) : (s.setSp k x).sp k = x := by
  simp [State.sp, State.setSp, tgetD_tset_same]
@[simp] theorem State.setSp_rd (s : State) (k : Nat) (x : SpState) (p : Nat) (f : Fld) (j : Nat) : (s.setSp k x).rd p f j = s.rd p f j := rfl
@[simp] theorem State.setSp_regs (s : State) (k : Nat) (x : SpState) : (s.setSp k x).regs = s.regs := rfl
@[simp] theorem State.setSp_shadow (s : State) (k : Nat) (x : SpState) : (s.setSp k x).shadow = s.shadow := rfl
@[simp] theorem State.setSp_hold (s : State) (k : Nat) (x : SpState) : (s.setSp k x).hold = s.hold := rfl
@[simp] theorem State.setSp_timeHold (s : State) (k : Nat) (x : SpState) : (s.setSp k x).timeHold = s.timeHold := rfl
@[simp] theorem State.setSp_pending (s : State) (k : Nat) (x : SpState) : (s.setSp k x).pending = s.pending := rfl
@[simp] theorem State.setSp_out (s : State) (k : Nat) (x : SpState) : (s.setSp k x).out = s.out := rfl
@[simp] theorem State.setSp_free (s : State) (k : Nat) (x : SpState) : (s.setSp k x).free = s.free := rfl
@[simp] theorem State.setSp_ticks (s : State) (k : Nat) (x : SpState) : (s.setSp k x).ticks = s.ticks := rfl
@[simp] theorem State.setSp_nt (s : State) (k : Nat) (x : SpState) : (s.setSp k x).nt = s.nt := rfl
@[simp] theorem State.setSp_strobeAt (s : State) (k : Nat) (x : SpState) : (s.setSp k x).strobeAt = s.strobeAt := rfl
@[simp] theorem State.setSp_log (s : State) (k : Nat) (x : SpState) : (s.setSp k x).log = s.log := rfl
@[simp] theorem State.setSp_logLast (s : State) (k : Nat) (x : SpState) : (s.setSp k x).logLast = s.logLast := rfl
@[simp] theorem State.setSp_toBandState (s : State) (k : Nat) (x : SpState) : (s.setSp k x).toBandState = s.toBandState := rfl
@[simp] theorem State.setSp_toLineState (s : State) (k : Nat) (x : SpState) : (s.setSp k x).toLineState = s.toLineState := rfl
@[simp] theorem State.setSp_toPipeState (s : State) (k : Nat) (x : SpState) : (s.setSp k x).toPipeState = s.toPipeState := rfl
@[simp] theorem State.setSp_toQdState (s : State) (k : Nat) (x : SpState) : (s.setSp k x).toQdState = s.toQdState := rfl
@[simp] theorem State.setSp_toHostState (s : State) (k : Nat) (x : SpState) : (s.setSp k x).toHostState = s.toHostState := rfl
@[simp] theorem State.sp_wr (s : State) (p : Nat) (f : Fld) (v j : Nat) (k : Nat) : (s.wr p f v j).sp k = s.sp k := rfl
@[simp] theorem State.sp_emit (s : State) (y : Out) (k : Nat) : (s.emit y).sp k = s.sp k := rfl
@[simp] theorem State.sp_bump (s : State) (p : Nat) (f : Fld) (j e y : Nat) (k : Nat) : (s.bump p f j e y).sp k = s.sp k := by simp [State.sp]
@[simp] theorem State.sp_cnt (s : State) (p : Nat) (f : Fld) (j : Nat) (k : Nat) : (s.cnt p f j).sp k = s.sp k := by simp [State.sp]
@[simp] theorem State.sp_raise (s : State) (p j : Nat) (k : Nat) : (s.raise p j).sp k = s.sp k := by simp [State.sp]
@[simp] theorem State.sp_raiseIf (s : State) (c : Bool) (p j : Nat) (k : Nat) : (s.raiseIf c p j).sp k = s.sp k := by simp [State.sp]
@[simp] theorem State.sp_draw (s : State) (w : Nat) (k : Nat) : (s.draw w).2.sp k = s.sp k := by simp [State.sp]
@[simp] theorem State.sp_msix (s : State) (p j : Nat) (k : Nat) : (s.msix p j).sp k = s.sp k := by simp [State.sp]
@[simp] theorem State.sp_pmc (s : State) (p e y : Nat) (k : Nat) : (s.pmc p e y).sp k = s.sp k := by simp [State.sp]
@[simp] theorem State.sp_post (s : State) (fn a : Nat) (d : List Byte) (ro : Bool) (k : Nat) : (s.post fn a d ro).sp k = s.sp k := by simp [State.sp]
@[simp] theorem State.sp_result (s : State) (p : Nat) (r : ResSet) (tag st : Nat) (ws : List Nat) (j : Nat) (late : Bool) (k : Nat) : (s.result p r tag st ws j late).sp k = s.sp k := by simp [State.sp]
/-! ### State.mcd -/

@[simp] theorem State.mcd_setMcd (s : State) (m : Nat) (x : Mcd) : (s.setMcd m x).mcd m = x := by
  simp [State.mcd, State.setMcd, tgetD_tset_same]
@[simp] theorem State.setMcd_rd (s : State) (m : Nat) (x : Mcd) (p : Nat) (f : Fld) (j : Nat) : (s.setMcd m x).rd p f j = s.rd p f j := rfl
@[simp] theorem State.setMcd_regs (s : State) (m : Nat) (x : Mcd) : (s.setMcd m x).regs = s.regs := rfl
@[simp] theorem State.setMcd_shadow (s : State) (m : Nat) (x : Mcd) : (s.setMcd m x).shadow = s.shadow := rfl
@[simp] theorem State.setMcd_hold (s : State) (m : Nat) (x : Mcd) : (s.setMcd m x).hold = s.hold := rfl
@[simp] theorem State.setMcd_timeHold (s : State) (m : Nat) (x : Mcd) : (s.setMcd m x).timeHold = s.timeHold := rfl
@[simp] theorem State.setMcd_pending (s : State) (m : Nat) (x : Mcd) : (s.setMcd m x).pending = s.pending := rfl
@[simp] theorem State.setMcd_out (s : State) (m : Nat) (x : Mcd) : (s.setMcd m x).out = s.out := rfl
@[simp] theorem State.setMcd_free (s : State) (m : Nat) (x : Mcd) : (s.setMcd m x).free = s.free := rfl
@[simp] theorem State.setMcd_ticks (s : State) (m : Nat) (x : Mcd) : (s.setMcd m x).ticks = s.ticks := rfl
@[simp] theorem State.setMcd_nt (s : State) (m : Nat) (x : Mcd) : (s.setMcd m x).nt = s.nt := rfl
@[simp] theorem State.setMcd_strobeAt (s : State) (m : Nat) (x : Mcd) : (s.setMcd m x).strobeAt = s.strobeAt := rfl
@[simp] theorem State.setMcd_log (s : State) (m : Nat) (x : Mcd) : (s.setMcd m x).log = s.log := rfl
@[simp] theorem State.setMcd_logLast (s : State) (m : Nat) (x : Mcd) : (s.setMcd m x).logLast = s.logLast := rfl
@[simp] theorem State.setMcd_toBandState (s : State) (m : Nat) (x : Mcd) : (s.setMcd m x).toBandState = s.toBandState := rfl
@[simp] theorem State.setMcd_toLineState (s : State) (m : Nat) (x : Mcd) : (s.setMcd m x).toLineState = s.toLineState := rfl
@[simp] theorem State.setMcd_toPipeState (s : State) (m : Nat) (x : Mcd) : (s.setMcd m x).toPipeState = s.toPipeState := rfl
@[simp] theorem State.setMcd_toHostState (s : State) (m : Nat) (x : Mcd) : (s.setMcd m x).toHostState = s.toHostState := rfl
@[simp] theorem State.setMcd_toMgmtState (s : State) (m : Nat) (x : Mcd) : (s.setMcd m x).toMgmtState = s.toMgmtState := rfl
@[simp] theorem State.mcd_wr (s : State) (p : Nat) (f : Fld) (v j : Nat) (m : Nat) : (s.wr p f v j).mcd m = s.mcd m := rfl
@[simp] theorem State.mcd_emit (s : State) (y : Out) (m : Nat) : (s.emit y).mcd m = s.mcd m := rfl
@[simp] theorem State.mcd_bump (s : State) (p : Nat) (f : Fld) (j e y : Nat) (m : Nat) : (s.bump p f j e y).mcd m = s.mcd m := by simp [State.mcd]
@[simp] theorem State.mcd_cnt (s : State) (p : Nat) (f : Fld) (j : Nat) (m : Nat) : (s.cnt p f j).mcd m = s.mcd m := by simp [State.mcd]
@[simp] theorem State.mcd_raise (s : State) (p j : Nat) (m : Nat) : (s.raise p j).mcd m = s.mcd m := by simp [State.mcd]
@[simp] theorem State.mcd_raiseIf (s : State) (c : Bool) (p j : Nat) (m : Nat) : (s.raiseIf c p j).mcd m = s.mcd m := by simp [State.mcd]
@[simp] theorem State.mcd_draw (s : State) (w : Nat) (m : Nat) : (s.draw w).2.mcd m = s.mcd m := by simp [State.mcd]
@[simp] theorem State.mcd_msix (s : State) (p j : Nat) (m : Nat) : (s.msix p j).mcd m = s.mcd m := by simp [State.mcd]
@[simp] theorem State.mcd_pmc (s : State) (p e y : Nat) (m : Nat) : (s.pmc p e y).mcd m = s.mcd m := by simp [State.mcd]
@[simp] theorem State.mcd_post (s : State) (fn a : Nat) (d : List Byte) (ro : Bool) (m : Nat) : (s.post fn a d ro).mcd m = s.mcd m := by simp [State.mcd]
@[simp] theorem State.mcd_result (s : State) (p : Nat) (r : ResSet) (tag st : Nat) (ws : List Nat) (j : Nat) (late : Bool) (m : Nat) : (s.result p r tag st ws j late).mcd m = s.mcd m := by simp [State.mcd]

/-! ### One table read after an update of another -/

@[simp] theorem State.mac_setSa (s : State) (g : Nat) (i' : Nat) (tx' : Bool) (idx' : Nat) (x : MacSa) : (s.setSa i' tx' idx' x).mac g = s.mac g := rfl
@[simp] theorem State.mac_setCage (s : State) (g : Nat) (c' : Nat) (x : Cage) : (s.setCage c' x).mac g = s.mac g := rfl
@[simp] theorem State.mac_setLfu (s : State) (g : Nat) (i' : Nat) (x : Lfu) : (s.setLfu i' x).mac g = s.mac g := rfl
@[simp] theorem State.mac_setChan (s : State) (g : Nat) (n' : Nat) (x : HbmChan) : (s.setChan n' x).mac g = s.mac g := rfl
@[simp] theorem State.mac_setCtx (s : State) (g : Nat) (c' : Nat) (x : OrdCtx) : (s.setCtx c' x).mac g = s.mac g := rfl
@[simp] theorem State.mac_setLink (s : State) (g : Nat) (l' : Nat) (x : FabLink) : (s.setLink l' x).mac g = s.mac g := rfl
@[simp] theorem State.mac_setLin (s : State) (g : Nat) (k' : Nat) (x : LinCtx) : (s.setLin k' x).mac g = s.mac g := rfl
@[simp] theorem State.mac_setQp (s : State) (g : Nat) (k' : Nat) (x : QPair) : (s.setQp k' x).mac g = s.mac g := rfl
@[simp] theorem State.mac_setVf (s : State) (g : Nat) (n' : Nat) (x : VfState) : (s.setVf n' x).mac g = s.mac g := rfl
@[simp] theorem State.mac_setSp (s : State) (g : Nat) (k' : Nat) (x : SpState) : (s.setSp k' x).mac g = s.mac g := rfl
@[simp] theorem State.mac_setMcd (s : State) (g : Nat) (m' : Nat) (x : Mcd) : (s.setMcd m' x).mac g = s.mac g := rfl
@[simp] theorem State.mac_setFn (s : State) (g : Nat) (n' : Nat) (x : PciFn) : (s.setFn n' x).mac g = s.mac g := rfl
@[simp] theorem State.sa_setMac (s : State) (i : Nat) (tx : Bool) (idx : Nat) (g' : Nat) (x : MacSlot) : (s.setMac g' x).sa i tx idx = s.sa i tx idx := rfl
@[simp] theorem State.sa_setCage (s : State) (i : Nat) (tx : Bool) (idx : Nat) (c' : Nat) (x : Cage) : (s.setCage c' x).sa i tx idx = s.sa i tx idx := rfl
@[simp] theorem State.sa_setLfu (s : State) (i : Nat) (tx : Bool) (idx : Nat) (i' : Nat) (x : Lfu) : (s.setLfu i' x).sa i tx idx = s.sa i tx idx := rfl
@[simp] theorem State.sa_setChan (s : State) (i : Nat) (tx : Bool) (idx : Nat) (n' : Nat) (x : HbmChan) : (s.setChan n' x).sa i tx idx = s.sa i tx idx := rfl
@[simp] theorem State.sa_setCtx (s : State) (i : Nat) (tx : Bool) (idx : Nat) (c' : Nat) (x : OrdCtx) : (s.setCtx c' x).sa i tx idx = s.sa i tx idx := rfl
@[simp] theorem State.sa_setLink (s : State) (i : Nat) (tx : Bool) (idx : Nat) (l' : Nat) (x : FabLink) : (s.setLink l' x).sa i tx idx = s.sa i tx idx := rfl
@[simp] theorem State.sa_setLin (s : State) (i : Nat) (tx : Bool) (idx : Nat) (k' : Nat) (x : LinCtx) : (s.setLin k' x).sa i tx idx = s.sa i tx idx := rfl
@[simp] theorem State.sa_setQp (s : State) (i : Nat) (tx : Bool) (idx : Nat) (k' : Nat) (x : QPair) : (s.setQp k' x).sa i tx idx = s.sa i tx idx := rfl
@[simp] theorem State.sa_setVf (s : State) (i : Nat) (tx : Bool) (idx : Nat) (n' : Nat) (x : VfState) : (s.setVf n' x).sa i tx idx = s.sa i tx idx := rfl
@[simp] theorem State.sa_setSp (s : State) (i : Nat) (tx : Bool) (idx : Nat) (k' : Nat) (x : SpState) : (s.setSp k' x).sa i tx idx = s.sa i tx idx := rfl
@[simp] theorem State.sa_setMcd (s : State) (i : Nat) (tx : Bool) (idx : Nat) (m' : Nat) (x : Mcd) : (s.setMcd m' x).sa i tx idx = s.sa i tx idx := rfl
@[simp] theorem State.sa_setFn (s : State) (i : Nat) (tx : Bool) (idx : Nat) (n' : Nat) (x : PciFn) : (s.setFn n' x).sa i tx idx = s.sa i tx idx := rfl
@[simp] theorem State.cage_setMac (s : State) (c : Nat) (g' : Nat) (x : MacSlot) : (s.setMac g' x).cage c = s.cage c := rfl
@[simp] theorem State.cage_setSa (s : State) (c : Nat) (i' : Nat) (tx' : Bool) (idx' : Nat) (x : MacSa) : (s.setSa i' tx' idx' x).cage c = s.cage c := rfl
@[simp] theorem State.cage_setLfu (s : State) (c : Nat) (i' : Nat) (x : Lfu) : (s.setLfu i' x).cage c = s.cage c := rfl
@[simp] theorem State.cage_setChan (s : State) (c : Nat) (n' : Nat) (x : HbmChan) : (s.setChan n' x).cage c = s.cage c := rfl
@[simp] theorem State.cage_setCtx (s : State) (c : Nat) (c' : Nat) (x : OrdCtx) : (s.setCtx c' x).cage c = s.cage c := rfl
@[simp] theorem State.cage_setLink (s : State) (c : Nat) (l' : Nat) (x : FabLink) : (s.setLink l' x).cage c = s.cage c := rfl
@[simp] theorem State.cage_setLin (s : State) (c : Nat) (k' : Nat) (x : LinCtx) : (s.setLin k' x).cage c = s.cage c := rfl
@[simp] theorem State.cage_setQp (s : State) (c : Nat) (k' : Nat) (x : QPair) : (s.setQp k' x).cage c = s.cage c := rfl
@[simp] theorem State.cage_setVf (s : State) (c : Nat) (n' : Nat) (x : VfState) : (s.setVf n' x).cage c = s.cage c := rfl
@[simp] theorem State.cage_setSp (s : State) (c : Nat) (k' : Nat) (x : SpState) : (s.setSp k' x).cage c = s.cage c := rfl
@[simp] theorem State.cage_setMcd (s : State) (c : Nat) (m' : Nat) (x : Mcd) : (s.setMcd m' x).cage c = s.cage c := rfl
@[simp] theorem State.cage_setFn (s : State) (c : Nat) (n' : Nat) (x : PciFn) : (s.setFn n' x).cage c = s.cage c := rfl
@[simp] theorem State.lfu_setMac (s : State) (i : Nat) (g' : Nat) (x : MacSlot) : (s.setMac g' x).lfu i = s.lfu i := rfl
@[simp] theorem State.lfu_setSa (s : State) (i : Nat) (i' : Nat) (tx' : Bool) (idx' : Nat) (x : MacSa) : (s.setSa i' tx' idx' x).lfu i = s.lfu i := rfl
@[simp] theorem State.lfu_setCage (s : State) (i : Nat) (c' : Nat) (x : Cage) : (s.setCage c' x).lfu i = s.lfu i := rfl
@[simp] theorem State.lfu_setChan (s : State) (i : Nat) (n' : Nat) (x : HbmChan) : (s.setChan n' x).lfu i = s.lfu i := rfl
@[simp] theorem State.lfu_setCtx (s : State) (i : Nat) (c' : Nat) (x : OrdCtx) : (s.setCtx c' x).lfu i = s.lfu i := rfl
@[simp] theorem State.lfu_setLink (s : State) (i : Nat) (l' : Nat) (x : FabLink) : (s.setLink l' x).lfu i = s.lfu i := rfl
@[simp] theorem State.lfu_setLin (s : State) (i : Nat) (k' : Nat) (x : LinCtx) : (s.setLin k' x).lfu i = s.lfu i := rfl
@[simp] theorem State.lfu_setQp (s : State) (i : Nat) (k' : Nat) (x : QPair) : (s.setQp k' x).lfu i = s.lfu i := rfl
@[simp] theorem State.lfu_setVf (s : State) (i : Nat) (n' : Nat) (x : VfState) : (s.setVf n' x).lfu i = s.lfu i := rfl
@[simp] theorem State.lfu_setSp (s : State) (i : Nat) (k' : Nat) (x : SpState) : (s.setSp k' x).lfu i = s.lfu i := rfl
@[simp] theorem State.lfu_setMcd (s : State) (i : Nat) (m' : Nat) (x : Mcd) : (s.setMcd m' x).lfu i = s.lfu i := rfl
@[simp] theorem State.lfu_setFn (s : State) (i : Nat) (n' : Nat) (x : PciFn) : (s.setFn n' x).lfu i = s.lfu i := rfl
@[simp] theorem State.chan_setMac (s : State) (n : Nat) (g' : Nat) (x : MacSlot) : (s.setMac g' x).chan n = s.chan n := rfl
@[simp] theorem State.chan_setSa (s : State) (n : Nat) (i' : Nat) (tx' : Bool) (idx' : Nat) (x : MacSa) : (s.setSa i' tx' idx' x).chan n = s.chan n := rfl
@[simp] theorem State.chan_setCage (s : State) (n : Nat) (c' : Nat) (x : Cage) : (s.setCage c' x).chan n = s.chan n := rfl
@[simp] theorem State.chan_setLfu (s : State) (n : Nat) (i' : Nat) (x : Lfu) : (s.setLfu i' x).chan n = s.chan n := rfl
@[simp] theorem State.chan_setCtx (s : State) (n : Nat) (c' : Nat) (x : OrdCtx) : (s.setCtx c' x).chan n = s.chan n := rfl
@[simp] theorem State.chan_setLink (s : State) (n : Nat) (l' : Nat) (x : FabLink) : (s.setLink l' x).chan n = s.chan n := rfl
@[simp] theorem State.chan_setLin (s : State) (n : Nat) (k' : Nat) (x : LinCtx) : (s.setLin k' x).chan n = s.chan n := rfl
@[simp] theorem State.chan_setQp (s : State) (n : Nat) (k' : Nat) (x : QPair) : (s.setQp k' x).chan n = s.chan n := rfl
@[simp] theorem State.chan_setVf (s : State) (n : Nat) (n' : Nat) (x : VfState) : (s.setVf n' x).chan n = s.chan n := rfl
@[simp] theorem State.chan_setSp (s : State) (n : Nat) (k' : Nat) (x : SpState) : (s.setSp k' x).chan n = s.chan n := rfl
@[simp] theorem State.chan_setMcd (s : State) (n : Nat) (m' : Nat) (x : Mcd) : (s.setMcd m' x).chan n = s.chan n := rfl
@[simp] theorem State.chan_setFn (s : State) (n : Nat) (n' : Nat) (x : PciFn) : (s.setFn n' x).chan n = s.chan n := rfl
@[simp] theorem State.ctx_setMac (s : State) (c : Nat) (g' : Nat) (x : MacSlot) : (s.setMac g' x).ctx c = s.ctx c := rfl
@[simp] theorem State.ctx_setSa (s : State) (c : Nat) (i' : Nat) (tx' : Bool) (idx' : Nat) (x : MacSa) : (s.setSa i' tx' idx' x).ctx c = s.ctx c := rfl
@[simp] theorem State.ctx_setCage (s : State) (c : Nat) (c' : Nat) (x : Cage) : (s.setCage c' x).ctx c = s.ctx c := rfl
@[simp] theorem State.ctx_setLfu (s : State) (c : Nat) (i' : Nat) (x : Lfu) : (s.setLfu i' x).ctx c = s.ctx c := rfl
@[simp] theorem State.ctx_setChan (s : State) (c : Nat) (n' : Nat) (x : HbmChan) : (s.setChan n' x).ctx c = s.ctx c := rfl
@[simp] theorem State.ctx_setLink (s : State) (c : Nat) (l' : Nat) (x : FabLink) : (s.setLink l' x).ctx c = s.ctx c := rfl
@[simp] theorem State.ctx_setLin (s : State) (c : Nat) (k' : Nat) (x : LinCtx) : (s.setLin k' x).ctx c = s.ctx c := rfl
@[simp] theorem State.ctx_setQp (s : State) (c : Nat) (k' : Nat) (x : QPair) : (s.setQp k' x).ctx c = s.ctx c := rfl
@[simp] theorem State.ctx_setVf (s : State) (c : Nat) (n' : Nat) (x : VfState) : (s.setVf n' x).ctx c = s.ctx c := rfl
@[simp] theorem State.ctx_setSp (s : State) (c : Nat) (k' : Nat) (x : SpState) : (s.setSp k' x).ctx c = s.ctx c := rfl
@[simp] theorem State.ctx_setMcd (s : State) (c : Nat) (m' : Nat) (x : Mcd) : (s.setMcd m' x).ctx c = s.ctx c := rfl
@[simp] theorem State.ctx_setFn (s : State) (c : Nat) (n' : Nat) (x : PciFn) : (s.setFn n' x).ctx c = s.ctx c := rfl
@[simp] theorem State.link_setMac (s : State) (l : Nat) (g' : Nat) (x : MacSlot) : (s.setMac g' x).link l = s.link l := rfl
@[simp] theorem State.link_setSa (s : State) (l : Nat) (i' : Nat) (tx' : Bool) (idx' : Nat) (x : MacSa) : (s.setSa i' tx' idx' x).link l = s.link l := rfl
@[simp] theorem State.link_setCage (s : State) (l : Nat) (c' : Nat) (x : Cage) : (s.setCage c' x).link l = s.link l := rfl
@[simp] theorem State.link_setLfu (s : State) (l : Nat) (i' : Nat) (x : Lfu) : (s.setLfu i' x).link l = s.link l := rfl
@[simp] theorem State.link_setChan (s : State) (l : Nat) (n' : Nat) (x : HbmChan) : (s.setChan n' x).link l = s.link l := rfl
@[simp] theorem State.link_setCtx (s : State) (l : Nat) (c' : Nat) (x : OrdCtx) : (s.setCtx c' x).link l = s.link l := rfl
@[simp] theorem State.link_setLin (s : State) (l : Nat) (k' : Nat) (x : LinCtx) : (s.setLin k' x).link l = s.link l := rfl
@[simp] theorem State.link_setQp (s : State) (l : Nat) (k' : Nat) (x : QPair) : (s.setQp k' x).link l = s.link l := rfl
@[simp] theorem State.link_setVf (s : State) (l : Nat) (n' : Nat) (x : VfState) : (s.setVf n' x).link l = s.link l := rfl
@[simp] theorem State.link_setSp (s : State) (l : Nat) (k' : Nat) (x : SpState) : (s.setSp k' x).link l = s.link l := rfl
@[simp] theorem State.link_setMcd (s : State) (l : Nat) (m' : Nat) (x : Mcd) : (s.setMcd m' x).link l = s.link l := rfl
@[simp] theorem State.link_setFn (s : State) (l : Nat) (n' : Nat) (x : PciFn) : (s.setFn n' x).link l = s.link l := rfl
@[simp] theorem State.lin_setMac (s : State) (k : Nat) (g' : Nat) (x : MacSlot) : (s.setMac g' x).lin k = s.lin k := rfl
@[simp] theorem State.lin_setSa (s : State) (k : Nat) (i' : Nat) (tx' : Bool) (idx' : Nat) (x : MacSa) : (s.setSa i' tx' idx' x).lin k = s.lin k := rfl
@[simp] theorem State.lin_setCage (s : State) (k : Nat) (c' : Nat) (x : Cage) : (s.setCage c' x).lin k = s.lin k := rfl
@[simp] theorem State.lin_setLfu (s : State) (k : Nat) (i' : Nat) (x : Lfu) : (s.setLfu i' x).lin k = s.lin k := rfl
@[simp] theorem State.lin_setChan (s : State) (k : Nat) (n' : Nat) (x : HbmChan) : (s.setChan n' x).lin k = s.lin k := rfl
@[simp] theorem State.lin_setCtx (s : State) (k : Nat) (c' : Nat) (x : OrdCtx) : (s.setCtx c' x).lin k = s.lin k := rfl
@[simp] theorem State.lin_setLink (s : State) (k : Nat) (l' : Nat) (x : FabLink) : (s.setLink l' x).lin k = s.lin k := rfl
@[simp] theorem State.lin_setQp (s : State) (k : Nat) (k' : Nat) (x : QPair) : (s.setQp k' x).lin k = s.lin k := rfl
@[simp] theorem State.lin_setVf (s : State) (k : Nat) (n' : Nat) (x : VfState) : (s.setVf n' x).lin k = s.lin k := rfl
@[simp] theorem State.lin_setSp (s : State) (k : Nat) (k' : Nat) (x : SpState) : (s.setSp k' x).lin k = s.lin k := rfl
@[simp] theorem State.lin_setMcd (s : State) (k : Nat) (m' : Nat) (x : Mcd) : (s.setMcd m' x).lin k = s.lin k := rfl
@[simp] theorem State.lin_setFn (s : State) (k : Nat) (n' : Nat) (x : PciFn) : (s.setFn n' x).lin k = s.lin k := rfl
@[simp] theorem State.qp_setMac (s : State) (k : Nat) (g' : Nat) (x : MacSlot) : (s.setMac g' x).qp k = s.qp k := rfl
@[simp] theorem State.qp_setSa (s : State) (k : Nat) (i' : Nat) (tx' : Bool) (idx' : Nat) (x : MacSa) : (s.setSa i' tx' idx' x).qp k = s.qp k := rfl
@[simp] theorem State.qp_setCage (s : State) (k : Nat) (c' : Nat) (x : Cage) : (s.setCage c' x).qp k = s.qp k := rfl
@[simp] theorem State.qp_setLfu (s : State) (k : Nat) (i' : Nat) (x : Lfu) : (s.setLfu i' x).qp k = s.qp k := rfl
@[simp] theorem State.qp_setChan (s : State) (k : Nat) (n' : Nat) (x : HbmChan) : (s.setChan n' x).qp k = s.qp k := rfl
@[simp] theorem State.qp_setCtx (s : State) (k : Nat) (c' : Nat) (x : OrdCtx) : (s.setCtx c' x).qp k = s.qp k := rfl
@[simp] theorem State.qp_setLink (s : State) (k : Nat) (l' : Nat) (x : FabLink) : (s.setLink l' x).qp k = s.qp k := rfl
@[simp] theorem State.qp_setLin (s : State) (k : Nat) (k' : Nat) (x : LinCtx) : (s.setLin k' x).qp k = s.qp k := rfl
@[simp] theorem State.qp_setVf (s : State) (k : Nat) (n' : Nat) (x : VfState) : (s.setVf n' x).qp k = s.qp k := rfl
@[simp] theorem State.qp_setSp (s : State) (k : Nat) (k' : Nat) (x : SpState) : (s.setSp k' x).qp k = s.qp k := rfl
@[simp] theorem State.qp_setMcd (s : State) (k : Nat) (m' : Nat) (x : Mcd) : (s.setMcd m' x).qp k = s.qp k := rfl
@[simp] theorem State.qp_setFn (s : State) (k : Nat) (n' : Nat) (x : PciFn) : (s.setFn n' x).qp k = s.qp k := rfl
@[simp] theorem State.vf_setMac (s : State) (n : Nat) (g' : Nat) (x : MacSlot) : (s.setMac g' x).vf n = s.vf n := rfl
@[simp] theorem State.vf_setSa (s : State) (n : Nat) (i' : Nat) (tx' : Bool) (idx' : Nat) (x : MacSa) : (s.setSa i' tx' idx' x).vf n = s.vf n := rfl
@[simp] theorem State.vf_setCage (s : State) (n : Nat) (c' : Nat) (x : Cage) : (s.setCage c' x).vf n = s.vf n := rfl
@[simp] theorem State.vf_setLfu (s : State) (n : Nat) (i' : Nat) (x : Lfu) : (s.setLfu i' x).vf n = s.vf n := rfl
@[simp] theorem State.vf_setChan (s : State) (n : Nat) (n' : Nat) (x : HbmChan) : (s.setChan n' x).vf n = s.vf n := rfl
@[simp] theorem State.vf_setCtx (s : State) (n : Nat) (c' : Nat) (x : OrdCtx) : (s.setCtx c' x).vf n = s.vf n := rfl
@[simp] theorem State.vf_setLink (s : State) (n : Nat) (l' : Nat) (x : FabLink) : (s.setLink l' x).vf n = s.vf n := rfl
@[simp] theorem State.vf_setLin (s : State) (n : Nat) (k' : Nat) (x : LinCtx) : (s.setLin k' x).vf n = s.vf n := rfl
@[simp] theorem State.vf_setQp (s : State) (n : Nat) (k' : Nat) (x : QPair) : (s.setQp k' x).vf n = s.vf n := rfl
@[simp] theorem State.vf_setSp (s : State) (n : Nat) (k' : Nat) (x : SpState) : (s.setSp k' x).vf n = s.vf n := rfl
@[simp] theorem State.vf_setMcd (s : State) (n : Nat) (m' : Nat) (x : Mcd) : (s.setMcd m' x).vf n = s.vf n := rfl
@[simp] theorem State.vf_setFn (s : State) (n : Nat) (n' : Nat) (x : PciFn) : (s.setFn n' x).vf n = s.vf n := rfl
@[simp] theorem State.sp_setMac (s : State) (k : Nat) (g' : Nat) (x : MacSlot) : (s.setMac g' x).sp k = s.sp k := rfl
@[simp] theorem State.sp_setSa (s : State) (k : Nat) (i' : Nat) (tx' : Bool) (idx' : Nat) (x : MacSa) : (s.setSa i' tx' idx' x).sp k = s.sp k := rfl
@[simp] theorem State.sp_setCage (s : State) (k : Nat) (c' : Nat) (x : Cage) : (s.setCage c' x).sp k = s.sp k := rfl
@[simp] theorem State.sp_setLfu (s : State) (k : Nat) (i' : Nat) (x : Lfu) : (s.setLfu i' x).sp k = s.sp k := rfl
@[simp] theorem State.sp_setChan (s : State) (k : Nat) (n' : Nat) (x : HbmChan) : (s.setChan n' x).sp k = s.sp k := rfl
@[simp] theorem State.sp_setCtx (s : State) (k : Nat) (c' : Nat) (x : OrdCtx) : (s.setCtx c' x).sp k = s.sp k := rfl
@[simp] theorem State.sp_setLink (s : State) (k : Nat) (l' : Nat) (x : FabLink) : (s.setLink l' x).sp k = s.sp k := rfl
@[simp] theorem State.sp_setLin (s : State) (k : Nat) (k' : Nat) (x : LinCtx) : (s.setLin k' x).sp k = s.sp k := rfl
@[simp] theorem State.sp_setQp (s : State) (k : Nat) (k' : Nat) (x : QPair) : (s.setQp k' x).sp k = s.sp k := rfl
@[simp] theorem State.sp_setVf (s : State) (k : Nat) (n' : Nat) (x : VfState) : (s.setVf n' x).sp k = s.sp k := rfl
@[simp] theorem State.sp_setMcd (s : State) (k : Nat) (m' : Nat) (x : Mcd) : (s.setMcd m' x).sp k = s.sp k := rfl
@[simp] theorem State.sp_setFn (s : State) (k : Nat) (n' : Nat) (x : PciFn) : (s.setFn n' x).sp k = s.sp k := rfl
@[simp] theorem State.mcd_setMac (s : State) (m : Nat) (g' : Nat) (x : MacSlot) : (s.setMac g' x).mcd m = s.mcd m := rfl
@[simp] theorem State.mcd_setSa (s : State) (m : Nat) (i' : Nat) (tx' : Bool) (idx' : Nat) (x : MacSa) : (s.setSa i' tx' idx' x).mcd m = s.mcd m := rfl
@[simp] theorem State.mcd_setCage (s : State) (m : Nat) (c' : Nat) (x : Cage) : (s.setCage c' x).mcd m = s.mcd m := rfl
@[simp] theorem State.mcd_setLfu (s : State) (m : Nat) (i' : Nat) (x : Lfu) : (s.setLfu i' x).mcd m = s.mcd m := rfl
@[simp] theorem State.mcd_setChan (s : State) (m : Nat) (n' : Nat) (x : HbmChan) : (s.setChan n' x).mcd m = s.mcd m := rfl
@[simp] theorem State.mcd_setCtx (s : State) (m : Nat) (c' : Nat) (x : OrdCtx) : (s.setCtx c' x).mcd m = s.mcd m := rfl
@[simp] theorem State.mcd_setLink (s : State) (m : Nat) (l' : Nat) (x : FabLink) : (s.setLink l' x).mcd m = s.mcd m := rfl
@[simp] theorem State.mcd_setLin (s : State) (m : Nat) (k' : Nat) (x : LinCtx) : (s.setLin k' x).mcd m = s.mcd m := rfl
@[simp] theorem State.mcd_setQp (s : State) (m : Nat) (k' : Nat) (x : QPair) : (s.setQp k' x).mcd m = s.mcd m := rfl
@[simp] theorem State.mcd_setVf (s : State) (m : Nat) (n' : Nat) (x : VfState) : (s.setVf n' x).mcd m = s.mcd m := rfl
@[simp] theorem State.mcd_setSp (s : State) (m : Nat) (k' : Nat) (x : SpState) : (s.setSp k' x).mcd m = s.mcd m := rfl
@[simp] theorem State.mcd_setFn (s : State) (m : Nat) (n' : Nat) (x : PciFn) : (s.setFn n' x).mcd m = s.mcd m := rfl

end Sys2Proof.Machine
end

