-- ==== Sys2Proof/Laws/Access.lean ====
section
/-! SUPPORT. Laws/Access.lean: power of a page after an operation, and a register access that reaches its page: one lemma for each
stage of its way. -/

namespace Sys2Proof.Machine

theorem live_wr (s : State) (q : Nat) (f : Fld) (v i p : Nat) (h : f.key q i ≠ PWR.DOM_STS_POWERED.key pgPWR (domainOf p)) : (s.wr q f v i).live p = s.live p := by
  simp only [State.live, State.domOn, State.on, State.rd_wr_ne _ _ h]
set_option maxRecDepth 10000 in

theorem dom_lt_aux : (List.range 1024).all (fun p => decide (domainOf p < 32)) = true := by decide +kernel

theorem dom_lt (p : Nat) : domainOf p < 32 := by
  rcases Nat.lt_or_ge p 1024 with h | h
  · have := List.all_eq_true.1 dom_lt_aux p (List.mem_range.2 h); simpa using this
  · have : pageAt p = none := by unfold pageAt; simp (disch := omega) only [if_neg]
    simp [domainOf, this]

theorem live_calm {s t : State} (h : Calm s t) (p : Nat) : t.live p = s.live p := by
  simp only [State.live, State.domOn, State.on]
  rw [h.rd]
  simp only [sideKey, sideCommon, pgCRWN, pgOBS, pgLOG, pgPCE, Fld.key, PWR.DOM_STS_POWERED, pgPWR]; have := dom_lt p
  omega

theorem live_raise (s : State) (p c q : Nat) : (s.raise p c).live q = s.live q := live_calm (.raise ..) q

theorem live_raiseIf (s : State) (b) (p c q : Nat) : (s.raiseIf b p c).live q = s.live q := live_calm (.raiseIf ..) q

theorem raise_keeps (s : State) (p c q d : Nat) (hd : d < 16) (h : bit (s.rd q COMMON.INT_CAUSE_CAUSE) d = true) : bit ((s.raise p c).rd q COMMON.INT_CAUSE_CAUSE) d = true := (Calm.raise s p c).causes q d hd h

theorem reach_some {s : State} {p off : Nat} (h : s.Reaches p off) : ∃ k i, pageAt p = some (k, i) := by
  have := h.1; simp only [State.live, Bool.and_eq_true, Option.isSome_iff_exists] at this
  obtain ⟨⟨⟨k, i⟩, e⟩, _⟩ := this; exact ⟨k, i, e⟩

theorem busWrite_reach {s : State} {who p off v : Nat} (h : s.Reaches p off) (hb : s.spBarred who p off = false) :
    s.busWrite who p off v true = s.regWrite who p off v := by
  obtain ⟨k, i, e⟩ := reach_some h
  obtain ⟨h1, h2, h3⟩ := h
  simp only [State.busWrite, hb, State.routeWrite, e]
  by_cases hq : qdPage p = true
  · simp [hq, h2 hq]
  · simp [hq]

theorem busRead_reach {s : State} {who p off : Nat} (h : s.Reaches p off) : s.busRead who p off true = s.regRead who p off := by
  obtain ⟨k, i, e⟩ := reach_some h
  obtain ⟨h1, h2, h3⟩ := h
  simp only [State.busRead, e]
  by_cases hq : qdPage p = true
  · simp [hq, h2 hq]
  · simp [hq]

theorem writeWord_reach {s : State} {who p off v : Nat} {k i} (h : s.Reaches p off) (e : pageAt p = some (k, i)) (hl : ¬ (s.fabric = true ∧ lineOnly k = true ∧ 0x100 ≤ off)) (ha : s.absent k i off = false) (hn : notOwner who p off = false) :
    s.writeWord who p off v = match (s.pmc p 4 1).groupWrites k i off (v % 2 ^ 32) with
        | some t => t
        | none =>
          match (s.pmc p 4 1).commonWrite p off (v % 2 ^ 32) with
          | some t => t
          | none =>
            if p = pgCRWN ∧ off = 0x14C then (s.pmc p 4 1).intRearm (bits (v % 2 ^ 32) 0 6)
            else match hookAt off (hooksOf k i (v % 2 ^ 32) (decide (who ≠ 1 ∧ who ≠ 2))) with
              | some f => f (s.pmc p 4 1)
              | none => (s.pmc p 4 1).storeWord p off (v % 2 ^ 32) := by
  obtain ⟨h1, h2, h3⟩ := h
  have hc : ¬ (p = pgCRWN ∧ s.crownAnswers off = false) := by rintro ⟨a, b⟩; simp [h3 a] at b
  simp only [State.writeWord, e]
  rw [if_neg (by simp [h1, hc]), if_neg (by simp [hl, ha, hn])]
  try rfl

theorem foldl_filter_noop {s : State} (p off v : Nat) (l : List Fld) :
    l.foldl (fun st f => st.fieldWrite p off v f) s = (l.filter fun f => (f.idx off).isSome).foldl (fun st f => st.fieldWrite p off v f) s := by
  induction l generalizing s with
  | nil => rfl
  | cons f l ih =>
    simp only [List.foldl_cons, List.filter_cons]
    by_cases hf : (f.idx off).isSome = true
    · simp only [hf, if_true, List.foldl_cons]; exact ih
    · have : s.fieldWrite p off v f = s := by
        simp only [State.fieldWrite]; split
        · rfl
        · rename_i h; simp [h] at hf
      simp only [hf, this]; simpa using ih

theorem storeWord_fields {s : State} {p off v : Nat} {k i} (e : pageAt p = some (k, i)) :
    s.storeWord p off v = ((pageFields k).filter fun f => (f.idx off).isSome).foldl (fun st f => st.fieldWrite p off v f) s := by
  simp only [State.storeWord, e]; exact foldl_filter_noop p off v _

abbrev pmcKey (k : Nat) : Prop := (4352 ≤ k % 2097152 ∧ k % 2097152 < 6400) ∨ (6400 ≤ k % 2097152 ∧ k % 2097152 < 7424 ∧ k % 32 = 24)

theorem wr_get (s : State) (p : Nat) (f : Fld) (v i k : Nat) (h : f.key p i ≠ k) : tget (s.wr p f v i).regs k = tget s.regs k := by
  simp only [State.wr]; split
  · exact tget_tdel_ne _ h
  · exact tget_tset_ne _ _ h

theorem pmcAdd_get (s : State) (p n k : Nat) (hn : n < 8) (x : Nat) (hx : ¬ pmcKey x) : tget (s.pmcAdd p n k).1.regs x = tget s.regs x := by
  have h1 : COMMON.PMC.key p n ≠ x := fun e => hx (e ▸ by simp only [pmcKey, Fld.key, COMMON.PMC]; omega)
  have h2 : COMMON.PMC_SEL_OVF.key p n ≠ x := fun e => hx (e ▸ by simp only [pmcKey, Fld.key, COMMON.PMC_SEL_OVF]; omega)
  simp only [State.pmcAdd]; split
  · exact wr_get _ _ _ _ _ _ h1
  · exact (wr_get _ _ _ _ _ _ h2).trans (wr_get _ _ _ _ _ _ h1)

theorem pmcFrom_get (s : State) (p ev k left n : Nat) (a b : Bool) (h : left + n ≤ 8) (x : Nat) (hx : ¬ pmcKey x) : tget (s.pmcFrom p ev k left n a b).regs x = tget s.regs x := by
  induction left generalizing s n a b with
  | zero => rfl
  | succ left ih =>
    simp only [State.pmcFrom]
    refine (ih _ _ _ _ (by omega)).trans ?_
    have hr : ∀ (c : Prop) [Decidable c] (m : Nat), tget (if c then s.pmcAdd p n m else (s, false)).1.regs x = tget s.regs x := by
      intro c _ m; split
      · exact pmcAdd_get s p n m (by omega) x hx
      · rfl
    exact hr _ _

theorem pmc_get (s : State) (p ev k x : Nat) (hx : ¬ pmcKey x) : tget (s.pmc p ev k).regs x = tget s.regs x := by
  simp only [State.pmc]; split
  · rfl
  · exact pmcFrom_get s p ev k 8 0 _ _ (by decide) x hx

theorem rd_pmc' (s : State) (p ev k : Nat) {q : Nat} {f : Fld} {i : Nat} (h : ¬ pmcKey (f.key q i)) : (s.pmc p ev k).rd q f i = s.rd q f i := by
  simp only [State.rd, tgetD, pmc_get _ _ _ _ _ h]

theorem mask_pmc (s : State) (p ev k q : Nat) : (s.pmc p ev k).unmasked q = s.unmasked q := by
  simp only [State.unmasked]
  rw [rd_pmc' _ _ _ _ (by simp only [pmcKey, Fld.key, COMMON.INT_CAUSE_CAUSE]; omega), rd_pmc' _ _ _ _ (by simp only [pmcKey, Fld.key, COMMON.INT_MASK_MASK]; omega)]

theorem hookScr (k : PageKind) (i v : Nat) (b : Bool) : hookAt 0xC (hooksOf k i v b) = none := by
  cases k <;> rfl

theorem hookCause (k : PageKind) (i v : Nat) (b : Bool) : hookAt 0x20 (hooksOf k i v b) = none := by
  cases k <;> rfl

theorem fltScr (k : PageKind) : ((pageFields k).filter fun f => (f.idx 0xC).isSome) = [COMMON.PAGE_SCRATCH_SCRATCH] := by
  cases k <;> decide +kernel

theorem fltCause (k : PageKind) : ((pageFields k).filter fun f => (f.idx 0x20).isSome) = [COMMON.INT_CAUSE_CAUSE] := by
  cases k <;> decide +kernel

theorem grpScr (s : State) (k : PageKind) (i v : Nat) (hk : k ≠ .bon) : s.groupWrites k i 0xC v = none := by
  cases k <;> first | rfl | (simp [State.groupWrites, State.lfuWriteIgnored, calRanges] at hk ⊢)

theorem grpCause (s : State) (k : PageKind) (i v : Nat) : s.groupWrites k i 0x20 v = none := by
  cases k <;> first | rfl | (simp [State.groupWrites, State.lfuWriteIgnored, calRanges])

theorem absScr (s : State) (k : PageKind) (i : Nat) : s.absent k i 0xC = false := by
  cases k <;> simp [State.absent]

theorem absCause (s : State) (k : PageKind) (i : Nat) : s.absent k i 0x20 = false := by
  cases k <;> simp [State.absent]

theorem kind_bon_aux : (List.range 1024).all (fun p => match pageAt p with | some (.bon, _) => decide (p = pgBON) | _ => true) = true := by decide +kernel

theorem kind_bon {p i : Nat} (h : p < 1024) (e : pageAt p = some (.bon, i)) : p = pgBON := by
  have := List.all_eq_true.1 kind_bon_aux p (List.mem_range.2 h); simp [e] at this; exact this

theorem pmc_host (s : State) (p ev k) : (s.pmc p ev k).toHostState = s.toHostState := by obtain ⟨r, h⟩ := s.pmc_regs p ev k; rw [h]

theorem pmc_mgmt (s : State) (p ev k) : (s.pmc p ev k).toMgmtState = s.toMgmtState := by obtain ⟨r, h⟩ := s.pmc_regs p ev k; rw [h]

theorem pmc_out (s : State) (p ev k) : (s.pmc p ev k).out = s.out := by obtain ⟨r, h⟩ := s.pmc_regs p ev k; rw [h]

theorem pmc_hold (s : State) (p ev k) : (s.pmc p ev k).hold = s.hold := by obtain ⟨r, h⟩ := s.pmc_regs p ev k; rw [h]

theorem pmc_shadow (s : State) (p ev k) : (s.pmc p ev k).shadow = s.shadow := by obtain ⟨r, h⟩ := s.pmc_regs p ev k; rw [h]

theorem clearRc_fields (s : State) (k : PageKind) (p off : Nat) :
    s.clearRc k p off = ((pageFields k).filter fun f => (f.idx off).isSome && decide (f.acc = .rc)).foldl (fun st f => st.wr p f 0 ((f.idx off).getD 0)) s := by
  simp only [State.clearRc]
  generalize pageFields k = l
  induction l generalizing s with
  | nil => rfl
  | cons f l ih =>
    simp only [List.foldl_cons, List.filter_cons]
    cases e : f.idx off with
    | none => simpa [e] using ih s
    | some j =>
      by_cases ha : f.acc = .rc
      · simp only [ha, if_true]; simpa [e, ha] using ih (s.wr p f 0 j)
      · simpa [e, ha] using ih s
def wordField (off : Nat) (f : Fld) : Bool := decide (f.acc ≠ .wo) && ((f.idx off).isSome || (decide (f.acc = .cnt ∧ f.off + 4 ≤ off ∧ (off - (f.off + 4)) % f.stride = 0 ∧ (off - (f.off + 4)) / f.stride < f.n)))

theorem fieldWord_zero (s : State) (p off : Nat) (f : Fld) (h : wordField off f = false) : s.fieldWord p off f = 0 := by
  simp only [wordField, Fld.idx, Bool.and_eq_false_iff, Bool.or_eq_false_iff, decide_eq_false_iff_not] at h
  simp only [State.fieldWord]
  rcases h with h | ⟨h1, h2⟩
  · simp at h; simp [h]
  · split
    · rfl
    · split at h1
      · simp at h1
      · rename_i h3; simp [h3]

theorem storedWord_fields {s : State} {p off : Nat} {k i} (e : pageAt p = some (k, i)) :
    s.storedWord p off = ((pageFields k).filter (wordField off)).foldl (fun a f => a + s.fieldWord p off f) 0 := by
  simp only [State.storedWord, e]
  generalize pageFields k = l
  generalize 0 = a
  induction l generalizing a with
  | nil => rfl
  | cons f l ih =>
    simp only [List.foldl_cons, List.filter_cons]
    cases hf : wordField off f with
    | true => simpa using ih _
    | false => rw [fieldWord_zero _ _ _ _ hf]; simpa using ih _

theorem readWord_plain {s : State} {who p off : Nat} {k i} (h : s.Reaches p off) (e : pageAt p = some (k, i)) (ha : s.absent k i off = false) (ho : off < 0x1000) (hr : resAt k off = none) (hn : 0x900 ≤ off → named k off = true) :
    s.readWord who p off = (s.pmc p 3 1).plainRead who p off k := by
  obtain ⟨h1, h2, h3⟩ := h
  have hc : ¬ (p = pgCRWN ∧ s.crownAnswers off = false) := by rintro ⟨a, b⟩; simp [h3 a] at b
  simp only [State.readWord, e]
  rw [if_neg (by simp [h1]), if_neg (by simp [hc]), if_neg (by simp [ha]), if_neg (by omega), if_neg (by omega), if_neg (by omega)]
  simp only [hr]
  rw [if_neg (by rintro ⟨a, b, c⟩; exact c (hn a))]

theorem plainRead_plain {s : State} {who p off : Nat} {k} (hk : k ≠ .ntm) (h1 : cntLo k off = false) (h2 : cntHi k off = false) :
    s.plainRead who p off k = (s.clearRc k p off, s.pageWord p off) := by
  simp [State.plainRead, hk, h1, h2]

theorem plainRead_lo {s : State} {who p off : Nat} {k} (hk : k ≠ .ntm) (h1 : cntLo k off = true) :
    s.plainRead who p off k = ({ s with hold := tset s.hold (requesterSlot who * 4096 + p) (s.pageWord p (off + 4)) }, s.pageWord p off) := by
  simp [State.plainRead, hk, h1]

theorem latchIf_seq (u : State) (a n : Nat) (t : NetTime) : (u.latchIf a n t).strobeAt = u.strobeAt ∧ (u.latchIf a n t).rd pgCRWN CRWN.STROBE_SEQ_SEQ = u.rd pgCRWN CRWN.STROBE_SEQ_SEQ := by
  simp only [State.latchIf]
  split
  · exact ⟨rfl, rfl⟩
  · split
    · obtain ⟨r, h⟩ := u.pmc_regs a 0x3FF 1
      exact ⟨by rw [h], rd_pmc' _ _ _ _ (by decide)⟩
    · simp only [State.latch]
      refine ⟨rfl, ?_⟩
      have hk : ∀ f : Fld, (f.key 0 0 = 2176 ∨ f.key 0 0 = 2207 ∨ f.key 0 0 = 2304 ∨ f.key 0 0 = 2432) → f.key a 0 ≠ CRWN.STROBE_SEQ_SEQ.key pgCRWN 0 := by
        intro f h; simp only [Fld.key, CRWN.STROBE_SEQ_SEQ, pgCRWN] at h ⊢; omega
      rw [State.rd_wr_ne _ _ (hk _ (by decide)), State.rd_wr_ne _ _ (hk _ (by decide)), State.rd_wr_ne _ _ (hk _ (by decide)), State.rd_wr_ne _ _ (hk _ (by decide))]
      rfl

theorem latchAll_seq (l : List Nat) (n : Nat) (t : NetTime) (u : State) :
    (l.foldl (fun st p => st.latchIf p n t) u).strobeAt = u.strobeAt ∧
      (l.foldl (fun st p => st.latchIf p n t) u).rd pgCRWN CRWN.STROBE_SEQ_SEQ = u.rd pgCRWN CRWN.STROBE_SEQ_SEQ := by
  induction l generalizing u with
  | nil => exact ⟨rfl, rfl⟩
  | cons a l ih =>
    obtain ⟨h1, h2⟩ := ih (u.latchIf a n t)
    obtain ⟨h3, h4⟩ := latchIf_seq u a n t
    exact ⟨h1.trans h3, h2.trans h4⟩

/-- With no strobe before, a request fires the strobe: STROBE_SEQ advances and the time is noted (R770, R771). -/
theorem State.strobe_fires (u : State) (hu : u.strobeAt = none) :
    u.strobe.rd pgCRWN CRWN.STROBE_SEQ_SEQ = (u.rd pgCRWN CRWN.STROBE_SEQ_SEQ + 1) % 65536 ∧ u.strobe.strobeAt = some u.ticks := by
  have h0 : ((u.wr pgCRWN CRWN.STROBE_SEQ_SEQ ((u.rd pgCRWN CRWN.STROBE_SEQ_SEQ + 1) % 65536)).cnt pgOBS OBS.OBS_CNT 0).rd pgCRWN CRWN.STROBE_SEQ_SEQ = (u.rd pgCRWN CRWN.STROBE_SEQ_SEQ + 1) % 65536 := by
    simp only [State.cnt, State.bump]
    rw [rd_pmc' _ _ _ _ (by decide), State.rd_wr_ne _ _ (by decide)]; simp [show CRWN.STROBE_SEQ_SEQ.w = 16 from rfl]
  simp only [State.strobe, hu, State.fireStrobe]
  generalize (u.wr pgCRWN CRWN.STROBE_SEQ_SEQ ((u.rd pgCRWN CRWN.STROBE_SEQ_SEQ + 1) % 65536)).cnt pgOBS OBS.OBS_CNT 0 = v at h0 ⊢
  have hw : ∀ (d : List Nat) (b : Prop) [Decidable b],
      (if b then State.emit { v with strobeAt := some u.ticks, shadowDue := d } .snapOut else { v with strobeAt := some u.ticks, shadowDue := d }).rd pgCRWN CRWN.STROBE_SEQ_SEQ = v.rd pgCRWN CRWN.STROBE_SEQ_SEQ ∧
      (if b then State.emit { v with strobeAt := some u.ticks, shadowDue := d } .snapOut else { v with strobeAt := some u.ticks, shadowDue := d }).strobeAt = some u.ticks := by
    intro d b _; split <;> exact ⟨rfl, rfl⟩
  obtain ⟨h1, h2⟩ := latchAll_seq pages ((u.rd pgCRWN CRWN.STROBE_SEQ_SEQ + 1) % 65536) u.nt _
  exact ⟨h2.trans ((hw _ _).1.trans h0), h1.trans (hw _ _).2⟩

theorem on_wr_ne (s : State) {p q : Nat} {f g : Fld} {i j : Nat} (v : Nat) (h : f.key p i ≠ g.key q j) : (s.wr p f v i).on q g j = s.on q g j := by
  simp only [State.on, State.rd_wr_ne _ _ h]

theorem domOn_wr (s : State) (p : Nat) (f : Fld) (v i d : Nat) (h : f.key p i ≠ PWR.DOM_STS_POWERED.key pgPWR d) : (s.wr p f v i).domOn d = s.domOn d :=
  on_wr_ne s v h

end Sys2Proof.Machine
end

