-- ==== Sys2Proof/Laws/Cage.lean ====
section
/-! SUPPORT. Laws/Cage.lean: what a squelch request and a change of a cage's state do and leave alone (R162, R164). -/

namespace Sys2Proof.Machine

/-- What the squelch requests of a cage leave alone: everything but the lane registers of the LNP pages and side effects. -/
structure Squelched (s t : State) : Prop where
  regs : ∀ k, k / 2097152 < 16 → ¬ sideKey k → tget t.regs k = tget s.regs k
  causes : ∀ p c, c < 16 → bit (s.rd p COMMON.INT_CAUSE_CAUSE) c = true → bit (t.rd p COMMON.INT_CAUSE_CAUSE) c = true
  band : t.toBandState = s.toBandState
  line : t.toLineState = s.toLineState
  pipe : t.toPipeState = s.toPipeState
  qd : t.toQdState = s.toQdState
  nt : t.nt = s.nt

theorem Squelched.refl (s : State) : Squelched s s := ⟨fun _ _ _ => rfl, fun _ _ _ h => h, rfl, rfl, rfl, rfl, rfl⟩

theorem Squelched.trans {s t u : State} (h : Squelched s t) (g : Squelched t u) : Squelched s u :=
  ⟨fun k a b => (g.regs k a b).trans (h.regs k a b), fun p c a b => g.causes p c a (h.causes p c a b), g.band.trans h.band, g.line.trans h.line,
    g.pipe.trans h.pipe, g.qd.trans h.qd, g.nt.trans h.nt⟩

theorem Squelched.calm {s t : State} (h : Calm s t) : Squelched s t := ⟨fun k _ b => h.regs k b, h.causes, h.band, h.line, h.pipe, h.qd, h.nt⟩

theorem Squelched.lane (s : State) (g : Nat) (f : Fld) (v i : Nat) (h : f.key 0 0 < 65536 * 32) (hs : f.stride * i < 1024) (hc : 8192 ≤ f.key 0 0 ∧ f.key 0 0 < 65536) :
    Squelched s (s.wr (lnp g) f v i) := by
  have hp : 16 ≤ lnp g := by simp only [lnp, pgLNP]; omega
  have hk : 16 ≤ f.key (lnp g) i / 2097152 ∧ f.key (lnp g) i % 2097152 ≠ 1024 := by
    simp only [Fld.key] at h hc ⊢; omega
  refine ⟨fun k a b => ?_, fun q c _ hb => ?_, rfl, rfl, rfl, rfl, rfl⟩
  · have : f.key (lnp g) i ≠ k := by rintro rfl; omega
    simp only [State.wr]; split
    · exact tget_tdel_ne _ this
    · exact tget_tset_ne _ _ this
  · rw [rd_wr_other s v]
    · exact hb
    · intro e; apply hk.2; rw [e]; simp only [Fld.key, COMMON.INT_CAUSE_CAUSE]; omega

theorem Squelched.cageSquelch (s : State) (g : Nat) (b : Bool) : Squelched s (s.cageSquelch g b) := by
  have h1 : ∀ (u : State) (c : Bool), Squelched u (u.put (lnp g) LNP.LANE_STS_CAGE_SQ c (g % 16)) := fun u c =>
    .lane _ _ _ _ _ (by decide) (by simp only [LNP.LANE_STS_CAGE_SQ]; omega) (by decide)
  have h2 : ∀ u : State, Squelched u (u.squelchView g) := fun u =>
    .lane _ _ _ _ _ (by decide) (by simp only [LNP.LANE_STS_SQUELCHED]; omega) (by decide)
  simp only [State.cageSquelch]; split
  · split
    · exact ((h1 _ _).trans (h2 _)).trans (.calm (.raise _ _ _))
    · exact (h1 _ _).trans (h2 _)
  · exact .refl s

theorem Squelched.foldl (l : List Nat) (b : Bool) (s : State) : Squelched s (l.foldl (fun t g => t.cageSquelch g b) s) := by
  induction l generalizing s with
  | nil => exact .refl s
  | cons a l ih => exact (Squelched.cageSquelch s a b).trans (ih _)

theorem Squelched.rd {s t : State} (h : Squelched s t) {p : Nat} {f : Fld} {i : Nat} (hp : f.key p i / 2097152 < 16) (hk : ¬ sideKey (f.key p i)) :
    t.rd p f i = s.rd p f i := by
  simp only [State.rd, tgetD, h.regs _ hp hk]

theorem cageSquelchAll_sq (s : State) (c : Nat) (b : Bool) : Squelched (s.put pgCAGE CAGE.CAGE_STS_SQUELCH_REQ b c) (s.cageSquelchAll c b) :=
  .foldl _ _ _

theorem rd_cageBit (s : State) (lo hi : Fld) (c : Nat) (b : Bool) {q : Nat} {f : Fld} {i : Nat} (h1 : lo.key pgCAGE 0 ≠ f.key q i) (h2 : hi.key pgCAGE 0 ≠ f.key q i) :
    (s.cageBit lo hi c b).rd q f i = s.rd q f i := by
  simp only [State.cageBit]; split
  · exact State.rd_wr_ne _ _ h1
  · exact State.rd_wr_ne _ _ h2

theorem cageBit_parts (s : State) (lo hi : Fld) (c : Nat) (b : Bool) : ∃ r, s.cageBit lo hi c b = { s with regs := r } := by
  simp only [State.cageBit]; split <;> exact ⟨_, rfl⟩

theorem cageSquelchAll_rd (s : State) (c : Nat) (b : Bool) {q : Nat} {f : Fld} {i : Nat} (hp : f.key q i / 2097152 < 16) (hk : ¬ sideKey (f.key q i))
    (h : CAGE.CAGE_STS_SQUELCH_REQ.key pgCAGE c ≠ f.key q i) : (s.cageSquelchAll c b).rd q f i = s.rd q f i := by
  rw [(cageSquelchAll_sq s c b).rd hp hk]; exact State.rd_wr_ne _ _ h

/-- Entering a state leaves other fields alone (R162). -/
theorem cageEnter_rd (s : State) (c st : Nat) {q : Nat} {f : Fld} {i : Nat} (hp : f.key q i / 2097152 < 16) (hk : ¬ sideKey (f.key q i))
    (h1 : CAGE.CAGE_STS_STATE.key pgCAGE c ≠ f.key q i) (h2 : CAGE.CAGE_STS_SQUELCH_REQ.key pgCAGE c ≠ f.key q i)
    (h3 : CAGE.CHANGE_LO_CHANGED.key pgCAGE 0 ≠ f.key q i) (h4 : CAGE.CHANGE_HI_CHANGED.key pgCAGE 0 ≠ f.key q i) :
    (s.cageEnter c st).rd q f i = s.rd q f i := by
  have h0 : (((s.setCage c { s.cage c with since := s.ticks }).wr pgCAGE CAGE.CAGE_STS_STATE st c).cageSquelchAll c (decide (st ≠ cgReady))).rd q f i = s.rd q f i := by
    rw [cageSquelchAll_rd _ _ _ hp hk h2, State.rd_wr_ne _ _ h1]; rfl
  simp only [State.cageEnter]; split
  · rw [State.rd_raise _ _ _ hk, rd_cageBit _ _ _ _ _ h3 h4]; exact h0
  · exact h0

/-- A cage that enters a state is in it (R162). -/
theorem cageEnter_state (s : State) (c st : Nat) (hc : c < 64) : (s.cageEnter c st).cageSt c = st % 2 ^ CAGE.CAGE_STS_STATE.w := by
  have hk : ¬ sideKey (CAGE.CAGE_STS_STATE.key pgCAGE c) := by
    simp only [sideKey, sideCommon, Fld.key, CAGE.CAGE_STS_STATE, pgCAGE, pgCRWN, pgOBS, pgLOG, pgPCE]; omega
  have hp : CAGE.CAGE_STS_STATE.key pgCAGE c / 2097152 < 16 := by simp only [Fld.key, CAGE.CAGE_STS_STATE, pgCAGE]; omega
  have h2 : CAGE.CAGE_STS_SQUELCH_REQ.key pgCAGE c ≠ CAGE.CAGE_STS_STATE.key pgCAGE c := by
    simp only [Fld.key, CAGE.CAGE_STS_STATE, CAGE.CAGE_STS_SQUELCH_REQ, pgCAGE]; omega
  have h0 : (((s.setCage c { s.cage c with since := s.ticks }).wr pgCAGE CAGE.CAGE_STS_STATE st c).cageSquelchAll c (decide (st ≠ cgReady))).rd pgCAGE CAGE.CAGE_STS_STATE c = st % 2 ^ CAGE.CAGE_STS_STATE.w := by
    rw [cageSquelchAll_rd _ _ _ hp hk h2, State.rd_wr_same]
  simp only [State.cageSt, State.cageEnter]; split
  · rw [State.rd_raise _ _ _ hk, rd_cageBit _ _ _ _ _ (by simp only [Fld.key, CAGE.CAGE_STS_STATE, CAGE.CHANGE_LO_CHANGED, pgCAGE]; omega)
      (by simp only [Fld.key, CAGE.CAGE_STS_STATE, CAGE.CHANGE_HI_CHANGED, pgCAGE]; omega)]
    exact h0
  · exact h0

theorem cageEnter_parts (s : State) (c st : Nat) : (s.cageEnter c st).toBandState = s.toBandState ∧
    (s.cageEnter c st).toLineState = (s.setCage c { s.cage c with since := s.ticks }).toLineState ∧
    (s.cageEnter c st).toPipeState = s.toPipeState ∧ (s.cageEnter c st).toQdState = s.toQdState ∧ (s.cageEnter c st).nt = s.nt := by
  have hq := cageSquelchAll_sq ((s.setCage c { s.cage c with since := s.ticks }).wr pgCAGE CAGE.CAGE_STS_STATE st c) c (decide (st ≠ cgReady))
  simp only [State.cageEnter]
  generalize ((s.setCage c { s.cage c with since := s.ticks }).wr pgCAGE CAGE.CAGE_STS_STATE st c).cageSquelchAll c (decide (st ≠ cgReady)) = u at hq ⊢
  obtain ⟨r, hb⟩ := cageBit_parts u CAGE.CHANGE_LO_CHANGED CAGE.CHANGE_HI_CHANGED c true
  have h := (⟨hq.band, hq.line, hq.pipe, hq.qd, hq.nt⟩ : u.toBandState = s.toBandState ∧
    u.toLineState = (s.setCage c { s.cage c with since := s.ticks }).toLineState ∧ u.toPipeState = s.toPipeState ∧ u.toQdState = s.toQdState ∧ u.nt = s.nt)
  split
  · rw [hb]
    have hc := Calm.raise { u with regs := r } pgCAGE 0
    exact ⟨hc.band.trans h.1, hc.line.trans h.2.1, hc.pipe.trans h.2.2.1, hc.qd.trans h.2.2.2.1, hc.nt.trans h.2.2.2.2⟩
  · exact h

theorem cageEnter_live (s : State) (c st : Nat) (hc : c < 64) (p : Nat) : (s.cageEnter c st).live p = s.live p := by
  simp only [State.live, State.domOn, State.on]
  have hd := dom_lt p
  rw [cageEnter_rd]
  · simp only [Fld.key, PWR.DOM_STS_POWERED, pgPWR]; omega
  · simp only [sideKey, sideCommon, Fld.key, PWR.DOM_STS_POWERED, pgPWR, pgCRWN, pgOBS, pgLOG, pgPCE]; omega
  · simp only [Fld.key, CAGE.CAGE_STS_STATE, PWR.DOM_STS_POWERED, pgPWR, pgCAGE]; omega
  · simp only [Fld.key, CAGE.CAGE_STS_SQUELCH_REQ, PWR.DOM_STS_POWERED, pgPWR, pgCAGE]; omega
  · simp only [Fld.key, CAGE.CHANGE_LO_CHANGED, PWR.DOM_STS_POWERED, pgPWR, pgCAGE]; omega
  · simp only [Fld.key, CAGE.CHANGE_HI_CHANGED, PWR.DOM_STS_POWERED, pgPWR, pgCAGE]; omega

/-- A cage that enters FAULT is there with its code (R162). -/
theorem cageFault_spec (s : State) (c code : Nat) (hc : c < 64) :
    (s.cageFault c code).cageSt c = cgFault ∧ (s.cageFault c code).rd pgCAGE CAGE.CAGE_STS_FAULT_CODE c = code % 2 ^ CAGE.CAGE_STS_FAULT_CODE.w ∧
    (∀ p, (s.cageFault c code).live p = s.live p) ∧ (s.cageFault c code).toPipeState = s.toPipeState ∧ (s.cageFault c code).toQdState = s.toQdState ∧ (s.cageFault c code).nt = s.nt := by
  simp only [State.cageFault]
  refine ⟨cageEnter_state _ _ _ hc, ?_, fun p => ?_, ?_, ?_, ?_⟩
  · rw [cageEnter_rd]
    · exact State.rd_wr_same ..
    all_goals simp only [sideKey, sideCommon, Fld.key, CAGE.CAGE_STS_FAULT_CODE, CAGE.CAGE_STS_STATE, CAGE.CAGE_STS_SQUELCH_REQ, CAGE.CHANGE_LO_CHANGED, CAGE.CHANGE_HI_CHANGED, pgCAGE, pgCRWN, pgOBS, pgLOG, pgPCE]; omega
  · rw [cageEnter_live _ _ _ hc, live_wr]
    · rfl
    · simp only [Fld.key, CAGE.CAGE_STS_FAULT_CODE, PWR.DOM_STS_POWERED, pgPWR, pgCAGE]; have := dom_lt p; omega
  · rw [(cageEnter_parts _ _ _).2.2.1]; rfl
  · rw [(cageEnter_parts _ _ _).2.2.2.1]; rfl
  · rw [(cageEnter_parts _ _ _).2.2.2.2]; rfl

theorem mmView_rd (s : State) (m : Nat) {q : Nat} {f : Fld} {i : Nat} (h1 : CAGE.MM_STS_BUSY.key pgCAGE m ≠ f.key q i)
    (h2 : CAGE.MM_STS_SEL.key pgCAGE m ≠ f.key q i) : (s.mmView m).rd q f i = s.rd q f i := by
  simp only [State.mmView]; split
  · rw [State.rd_wr_ne _ _ h1]; rfl
  · rw [State.rd_wr_ne _ _ h2, State.rd_wr_ne _ _ h1]
    split <;> rfl

theorem cageDebounce_state (s : State) (c : Nat) (hc : c < 64) : (s.cageDebounce c).cageSt c = cgDebounce := cageEnter_state _ _ _ hc

theorem bringUp_rd (s : State) (c n : Nat) {q : Nat} {f : Fld} {i : Nat} (h1 : CAGE.MM_STS_BUSY.key pgCAGE (c / 8) ≠ f.key q i)
    (h2 : CAGE.MM_STS_SEL.key pgCAGE (c / 8) ≠ f.key q i) : (s.bringUp c n).rd q f i = s.rd q f i := by
  simp only [State.bringUp]; split
  · rw [mmView_rd _ _ h1 h2]; rfl
  · rfl

theorem cageInit_state (s : State) (c : Nat) (hc : c < 64) : (s.cageInit c).cageSt c = cgInit := by
  have h1 : CAGE.MM_STS_BUSY.key pgCAGE (c / 8) ≠ CAGE.CAGE_STS_STATE.key pgCAGE c := by
    simp only [Fld.key, CAGE.MM_STS_BUSY, CAGE.CAGE_STS_STATE, pgCAGE]; omega
  have h2 : CAGE.MM_STS_SEL.key pgCAGE (c / 8) ≠ CAGE.CAGE_STS_STATE.key pgCAGE c := by
    simp only [Fld.key, CAGE.MM_STS_SEL, CAGE.CAGE_STS_STATE, pgCAGE]; omega
  have h0 := cageEnter_state (s.setCage c { s.cage c with holding := false, lp := true }) c cgInit hc
  simp only [State.cageInit]; split
  · simp only [State.cageSt, State.bringUpStart] at h0 ⊢
    rw [bringUp_rd _ _ _ h1 h2, mmView_rd _ _ h1 h2]
    exact h0
  · exact h0

end Sys2Proof.Machine
end

