-- ==== Sys2Proof/Laws/Keeps.lean ====
section
/-! SUPPORT. Laws/Keeps.lean: what every operation of the block keeps, as one relation between the state before and the state after:
the queue, the clock, the count of free values (which only grows), the key order of the registers, the canonical form of HBM memory
and the range of network time. -/

namespace Sys2Proof.Machine

theorem NetTime.norm_ok (t : NetTime) : t.norm.ok := by
  simp only [NetTime.norm, NetTime.ok]; omega
theorem NetTime.shift_ok (t : NetTime) (d : Int) : (t.shift d).ok := by
  simp only [NetTime.shift, NetTime.ofTotal, NetTime.ok]; omega

structure Keeps (s t : State) : Prop where
  pending : t.pending = s.pending
  ticks : t.ticks = s.ticks
  free : s.free ≤ t.free
  regs : tsorted s.regs = true → tsorted t.regs = true
  hbm : Memory.wf s.hbm = true → Memory.wf t.hbm = true
  nt : s.nt.ok → t.nt.ok

theorem Keeps.refl (s : State) : Keeps s s := ⟨rfl, rfl, Nat.le_refl _, id, id, id⟩
theorem Keeps.of_eq {s u t : State} (h1 : t.pending = u.pending) (h2 : t.ticks = u.ticks) (h3 : t.free = u.free)
    (h4 : t.regs = u.regs) (h5 : t.hbm = u.hbm) (h6 : t.nt = u.nt) (h : Keeps s u) : Keeps s t :=
  ⟨h1.trans h.pending, h2.trans h.ticks, h3 ▸ h.free, fun x => h4 ▸ h.regs x, fun x => h5 ▸ h.hbm x, fun x => h6 ▸ h.nt x⟩
theorem Keeps.lit {s u : State} {c : CoreState} {b : BandState} {l : LineState} {p : PipeState} {q : QdState} {x : HostState}
    {m : MgmtState} (h1 : c.pending = u.pending) (h2 : c.ticks = u.ticks) (h3 : c.free = u.free)
    (h4 : c.regs = u.regs) (h6 : c.nt = u.nt) (h5 : q.hbm = u.hbm) (h : Keeps s u) : Keeps s (State.mk c b l p q x m) :=
  Keeps.of_eq h1 h2 h3 h4 h5 h6 h
theorem Keeps.of_fst {α : Type} {s t : State} {p : State × α} {y : α} (e : p = (t, y)) (h : Keeps s p.1) : Keeps s t := by
  subst e; exact h
theorem Keeps.of_snd {α : Type} {s t : State} {p : α × State} {y : α} (e : p = (y, t)) (h : Keeps s p.2) : Keeps s t := by
  subst e; exact h
theorem Keeps.foldl {α : Type} {s : State} {f : State → α → State} (hf : ∀ u x, Keeps s u → Keeps s (f u x)) (l : List α)
    {u : State} (h : Keeps s u) : Keeps s (l.foldl f u) := by
  induction l generalizing u with
  | nil => exact h
  | cons a l ih => exact ih (hf _ _ h)
theorem Keeps.foldl_fst {α β : Type} {s : State} {f : State × β → α → State × β}
    (hf : ∀ u x, Keeps s u.1 → Keeps s (f u x).1) (l : List α)
    {u : State × β} (h : Keeps s u.1) : Keeps s (l.foldl f u).1 := by
  induction l generalizing u with
  | nil => exact h
  | cons a l ih => exact ih (hf _ _ h)
theorem Keeps.wr {s u : State} (h : Keeps s u) (p : Nat) (f : Fld) (v i : Nat) : Keeps s (u.wr p f v i) := by
  refine ⟨h.pending, h.ticks, h.free, fun x => ?_, h.hbm, h.nt⟩
  simp only [State.wr]; split
  · exact tsorted_tdel _ (h.regs x)
  · exact tsorted_tset _ _ (h.regs x)
theorem Keeps.fold_del {s u : State} (h : Keeps s u) (p : Nat) (f : Fld) (l : List Nat) :
    Keeps s { u with regs := l.foldl (fun r i => tdel r (f.key p i)) u.regs } := by
  refine ⟨h.pending, h.ticks, h.free, fun x => ?_, h.hbm, h.nt⟩
  have := h.regs x
  show tsorted (l.foldl _ u.regs) = true
  generalize u.regs = r at this
  induction l generalizing r with
  | nil => exact this
  | cons a l ih => exact ih _ (tsorted_tdel _ this)

end Sys2Proof.Machine
end

