-- ==== Sys2Proof/Laws/KeepsOps.lean ====
section
/-! SUPPORT. Laws/KeepsOps.lean: every operation and command of Machine/Base.lean, Machine/Views.lean, Machine/Ops.lean, Machine/Trace.lean, Machine/Order.lean keeps what `Keeps` names. -/

namespace Sys2Proof.Machine

/-! ### Machine/Base.lean -/

set_option maxHeartbeats 200000
theorem State.wr_keeps {s0 s : State} (h : Keeps s0 s) (x1 x2 x3 x4) : Keeps s0 (State.wr s x1 x2 x3 x4) := by
  exact h.wr x1 x2 x3 x4

theorem State.put_keeps {s0 s : State} (h : Keeps s0 s) (x1 x2 x3 x4) : Keeps s0 (State.put s x1 x2 x3 x4) := by
  simp only [State.put]
  repeat' (with_reducible first | exact h | apply State.wr_keeps)

theorem State.setFn_keeps {s0 s : State} (h : Keeps s0 s) (x1 x2) : Keeps s0 (State.setFn s x1 x2) := by
  simp only [State.setFn]
  repeat' first
    | with_reducible exact h | with_reducible refine Keeps.lit rfl rfl rfl rfl rfl rfl ?_

theorem State.gate_keeps {s0 s : State} (h : Keeps s0 s) (x1 x2) (h2 : ∀ u, Keeps s0 u → Keeps s0 (x2 u)) : Keeps s0 (State.gate s x1 x2) := by
  simp only [State.gate]
  repeat' first
    | (with_reducible first | exact h | apply h2) | split

theorem State.lineGate_keeps {s0 s : State} (h : Keeps s0 s) (x1 x2) (h2 : ∀ u, Keeps s0 u → Keeps s0 (x2 u)) : Keeps s0 (State.lineGate s x1 x2) := by
  simp only [State.lineGate]
  repeat' first
    | (with_reducible first | exact h | assumption | apply State.gate_keeps) | split

theorem State.draw_keeps {s0 s : State} (h : Keeps s0 s) (x1) : Keeps s0 (State.draw s x1).2 := by
  exact ⟨h.pending, h.ticks, Nat.le_succ_of_le h.free, h.regs, h.hbm, h.nt⟩

theorem State.emit_keeps {s0 s : State} (h : Keeps s0 s) (x1) : Keeps s0 (State.emit s x1) := by
  simp only [State.emit]
  repeat' first
    | with_reducible exact h | with_reducible refine Keeps.lit rfl rfl rfl rfl rfl rfl ?_

theorem State.wrFree_keeps {s0 s : State} (h : Keeps s0 s) (x1 x2 x3) : Keeps s0 (State.wrFree s x1 x2 x3) := by
  simp only [State.wrFree]
  repeat' (with_reducible first | exact h | apply State.wr_keeps | apply State.draw_keeps)

/-! ### Machine/Views.lean -/

set_option maxHeartbeats 200000
theorem State.setQp_keeps {s0 s : State} (h : Keeps s0 s) (x1 x2) : Keeps s0 (State.setQp s x1 x2) := by
  simp only [State.setQp]
  repeat' first
    | with_reducible exact h | with_reducible refine Keeps.lit rfl rfl rfl rfl rfl rfl ?_

theorem State.setLin_keeps {s0 s : State} (h : Keeps s0 s) (x1 x2) : Keeps s0 (State.setLin s x1 x2) := by
  simp only [State.setLin]
  repeat' first
    | with_reducible exact h | with_reducible refine Keeps.lit rfl rfl rfl rfl rfl rfl ?_

theorem State.setFel_keeps {s0 s : State} (h : Keeps s0 s) (x1 x2) : Keeps s0 (State.setFel s x1 x2) := by
  simp only [State.setFel]
  repeat' first
    | with_reducible exact h | split
    | with_reducible refine Keeps.lit rfl rfl rfl rfl rfl rfl ?_

theorem State.setVf_keeps {s0 s : State} (h : Keeps s0 s) (x1 x2) : Keeps s0 (State.setVf s x1 x2) := by
  simp only [State.setVf]
  repeat' first
    | with_reducible exact h | with_reducible refine Keeps.lit rfl rfl rfl rfl rfl rfl ?_

theorem State.lwr_keeps {s0 s : State} (h : Keeps s0 s) (x1 x2 x3) : Keeps s0 (State.lwr s x1 x2 x3) := by
  simp only [State.lwr]
  repeat' (with_reducible first | exact h | apply State.wr_keeps)

/-! ### Machine/Ops.lean -/

set_option maxHeartbeats 200000
theorem State.pmcAdd_keeps {s0 s : State} (h : Keeps s0 s) (x1 x2 x3) : Keeps s0 (State.pmcAdd s x1 x2 x3).1 := by
  simp only [State.pmcAdd]
  repeat' first
    | (with_reducible first | exact h | apply State.wr_keeps) | split

theorem State.pmcFrom_keeps {s0 s : State} (h : Keeps s0 s) (x1 x2 x3 x4 x5 x6 x7) : Keeps s0 (State.pmcFrom s x1 x2 x3 x4 x5 x6 x7) := by
  induction x4 generalizing s x1 x2 x3 x5 x6 x7 with
  | zero =>
    simp only [State.pmcFrom]
    repeat' (with_reducible exact h)
  | succ x ih =>
    simp only [State.pmcFrom]
    repeat' first
      | (with_reducible first | exact h | apply ih | apply State.pmcAdd_keeps) | split

theorem State.pmc_keeps {s0 s : State} (h : Keeps s0 s) (x1 x2 x3) : Keeps s0 (State.pmc s x1 x2 x3) := by
  simp only [State.pmc]
  repeat' first
    | (with_reducible first | exact h | apply State.pmcFrom_keeps) | split

theorem State.bump_keeps {s0 s : State} (h : Keeps s0 s) (x1 x2 x3 x4 x5) : Keeps s0 (State.bump s x1 x2 x3 x4 x5) := by
  simp only [State.bump]
  repeat' (with_reducible first | exact h | apply State.wr_keeps | apply State.pmc_keeps)

theorem State.cnt_keeps {s0 s : State} (h : Keeps s0 s) (x1 x2 x3) : Keeps s0 (State.cnt s x1 x2 x3) := by
  simp only [State.cnt]
  repeat' (with_reducible first | exact h | apply State.bump_keeps)

theorem State.msix_keeps {s0 s : State} (h : Keeps s0 s) (x1 x2) : Keeps s0 (State.msix s x1 x2) := by
  simp only [State.msix]
  repeat' first
    | (with_reducible first | exact h | apply State.setFn_keeps | apply State.emit_keeps | apply State.cnt_keeps)
    | split

theorem State.clearFields_keeps {s0 s : State} (h : Keeps s0 s) (x1 x2 x3) : Keeps s0 (State.clearFields s x1 x2 x3) := by
  induction x3 generalizing s x1 x2 with
  | nil =>
    simp only [State.clearFields]
    repeat' (with_reducible exact h)
  | cons x l ih =>
    simp only [State.clearFields]
    repeat' first
      | (with_reducible first | exact h | apply ih) | split | with_reducible apply Keeps.fold_del

theorem State.latch_keeps {s0 s : State} (h : Keeps s0 s) (x1 x2 x3) : Keeps s0 (State.latch s x1 x2 x3) := by
  simp only [State.latch]
  repeat' first
    | (with_reducible first | exact h | apply State.wr_keeps)
    | with_reducible refine Keeps.lit rfl rfl rfl rfl rfl rfl ?_

theorem State.latchIf_keeps {s0 s : State} (h : Keeps s0 s) (x1 x2 x3) : Keeps s0 (State.latchIf s x1 x2 x3) := by
  simp only [State.latchIf]
  repeat' first
    | (with_reducible first | exact h | apply State.pmc_keeps | apply State.latch_keeps) | split

theorem State.hostEdges_keeps {s0 s : State} (h : Keeps s0 s) (x0 x2) : Keeps s0 (State.hostEdges x0 s x2) := by
  simp only [State.hostEdges]
  repeat' first
    | (with_reducible first | exact h | apply State.msix_keeps) | split

theorem State.spSignal_keeps {s0 s : State} (h : Keeps s0 s) : Keeps s0 (State.spSignal s) := by
  simp only [State.spSignal]
  repeat' first
    | (with_reducible first | exact h | apply State.emit_keeps) | split

theorem State.edges_keeps {s0 s : State} (h : Keeps s0 s) (x0 x2) : Keeps s0 (State.edges x0 s x2) := by
  simp only [State.edges]
  repeat' first
    | (with_reducible first | exact h | apply State.hostEdges_keeps | apply State.spSignal_keeps) | split

theorem State.firstErr_keeps {s0 s : State} (h : Keeps s0 s) (x1 x2) : Keeps s0 (State.firstErr s x1 x2) := by
  simp only [State.firstErr]
  repeat' first
    | (with_reducible first | exact h | apply State.wr_keeps | apply State.wrFree_keeps) | split

theorem State.cause_keeps {s0 s : State} (h : Keeps s0 s) (x1 x2) : Keeps s0 (State.cause s x1 x2) := by
  simp only [State.cause]
  repeat' (with_reducible first
             | exact h | apply State.wr_keeps | apply State.pmc_keeps | apply State.edges_keeps
             | apply State.firstErr_keeps)

theorem State.inc_keeps {s0 s : State} (h : Keeps s0 s) (x1 x2 x3 x4) : Keeps s0 (State.inc s x1 x2 x3 x4) := by
  simp only [State.inc]
  repeat' (with_reducible first | exact h | apply State.wr_keeps)

theorem State.logAppend_keeps {s0 s : State} (h : Keeps s0 s) (x1 x2 x3 x4 x5 x6 x7) : Keeps s0 (State.logAppend s x1 x2 x3 x4 x5 x6 x7) := by
  simp only [State.logAppend]
  repeat' first
    | (with_reducible first
         | exact h | apply State.wr_keeps | apply State.cnt_keeps | apply State.cause_keeps | apply State.inc_keeps)
    | split | with_reducible refine Keeps.lit rfl rfl rfl rfl rfl rfl ?_

theorem State.logHw_keeps {s0 s : State} (h : Keeps s0 s) (x1 x2 x3) : Keeps s0 (State.logHw s x1 x2 x3) := by
  simp only [State.logHw]
  repeat' first
    | (with_reducible first | exact h | apply State.inc_keeps | apply State.logAppend_keeps) | split
    | with_reducible refine Keeps.lit rfl rfl rfl rfl rfl rfl ?_

theorem State.raise1_keeps {s0 s : State} (h : Keeps s0 s) (x1 x2) : Keeps s0 (State.raise1 s x1 x2) := by
  simp only [State.raise1]
  repeat' first
    | (with_reducible first | exact h | apply State.cause_keeps | apply State.logHw_keeps) | split

theorem State.fireStrobe_keeps {s0 s : State} (h : Keeps s0 s) : Keeps s0 (State.fireStrobe s) := by
  simp only [State.fireStrobe]
  repeat' first
    | (with_reducible first
         | exact h | assumption | apply State.wr_keeps | apply State.emit_keeps | apply State.cnt_keeps
         | apply State.latchIf_keeps | apply Keeps.foldl)
    | intro u _ hu | split | with_reducible refine Keeps.lit rfl rfl rfl rfl rfl rfl ?_

theorem State.strobe_keeps {s0 s : State} (h : Keeps s0 s) : Keeps s0 (State.strobe s) := by
  simp only [State.strobe]
  repeat' first
    | (with_reducible first
         | exact h | apply State.cnt_keeps | apply State.raise1_keeps | apply State.fireStrobe_keeps)
    | split

theorem State.raise_keeps {s0 s : State} (h : Keeps s0 s) (x1 x2) : Keeps s0 (State.raise s x1 x2) := by
  simp only [State.raise]
  repeat' first
    | (with_reducible first | exact h | apply State.wr_keeps | apply State.raise1_keeps | apply State.strobe_keeps)
    | split

theorem State.incSat_keeps {s0 s : State} (h : Keeps s0 s) (x1 x2 x3) : Keeps s0 (State.incSat s x1 x2 x3) := by
  simp only [State.incSat]
  repeat' (with_reducible first | exact h | apply State.wr_keeps)

theorem State.wrWord_keeps {s0 s : State} (h : Keeps s0 s) (x1 x2 x3 x4) : Keeps s0 (State.wrWord s x1 x2 x3 x4) := by
  induction x4 generalizing s x1 x2 x3 with
  | nil =>
    simp only [State.wrWord]
    repeat' (with_reducible exact h)
  | cons x l ih =>
    simp only [State.wrWord]
    repeat' (with_reducible first | exact h | apply ih | apply State.wr_keeps)

theorem State.peak_keeps {s0 s : State} (h : Keeps s0 s) (x1 x2 x3 x4) : Keeps s0 (State.peak s x1 x2 x3 x4) := by
  simp only [State.peak]
  repeat' first
    | (with_reducible first | exact h | apply State.wr_keeps) | split

theorem State.unmapped_keeps {s0 s : State} (h : Keeps s0 s) : Keeps s0 (State.unmapped s) := by
  simp only [State.unmapped]
  repeat' (with_reducible first | exact h | apply State.inc_keeps | apply State.raise_keeps)

theorem State.tagWait_keeps {s0 s : State} (h : Keeps s0 s) : Keeps s0 (State.tagWait s) := by
  simp only [State.tagWait]
  repeat' first
    | (with_reducible first | exact h | apply State.cnt_keeps | apply State.raise_keeps) | split

theorem State.resLate_keeps {s0 s : State} (h : Keeps s0 s) (x1 x2 x3) : Keeps s0 (State.resLate s x1 x2 x3) := by
  simp only [State.resLate]
  repeat' first
    | (with_reducible first | exact h | apply State.wr_keeps) | split

theorem State.wrAll_keeps {s0 s : State} (h : Keeps s0 s) (x1 x2 x3) : Keeps s0 (State.wrAll s x1 x2 x3) := by
  induction x3 generalizing s x1 x2 with
  | nil =>
    simp only [State.wrAll]
    repeat' (with_reducible exact h)
  | cons x l ih =>
    simp only [State.wrAll]
    repeat' (with_reducible first | exact h | apply ih | apply State.wr_keeps)

theorem State.routeWrite_keeps {s0 s : State} (h : Keeps s0 s) (x1 x2 x3 x4 x5) (h5 : ∀ u, Keeps s0 u → Keeps s0 (x5 u)) : Keeps s0 (State.routeWrite s x1 x2 x3 x4 x5) := by
  simp only [State.routeWrite]
  repeat' first
    | (with_reducible first | exact h | apply State.raise_keeps | apply State.unmapped_keeps | apply h5) | split
    | with_reducible refine Keeps.lit rfl rfl rfl rfl rfl rfl ?_

theorem State.resStart_keeps {s0 s : State} (h : Keeps s0 s) (x1 x2 x3) : Keeps s0 (State.resStart s x1 x2 x3) := by
  simp only [State.resStart]
  repeat' (with_reducible first | exact h | apply State.wr_keeps)

theorem State.clearPage_keeps {s0 s : State} (h : Keeps s0 s) (x1) : Keeps s0 (State.clearPage s x1) := by
  exact ⟨h.pending, h.ticks, h.free, fun x => tsorted_sublist List.filter_sublist (h.regs x), h.hbm, h.nt⟩

theorem State.post_keeps {s0 s : State} (h : Keeps s0 s) (x1 x2 x3 x4) : Keeps s0 (State.post s x1 x2 x3 x4) := by
  simp only [State.post]
  repeat' first
    | (with_reducible first | exact h | apply State.emit_keeps | apply State.cnt_keeps) | split

theorem State.softReset_keeps {s0 s : State} (h : Keeps s0 s) (x1 x2) : Keeps s0 (State.softReset s x1 x2) := by
  simp only [State.softReset]
  repeat' first
    | (with_reducible first | exact h | apply State.wr_keeps | apply State.clearFields_keeps) | split

theorem State.resWords_keeps {s0 s : State} (h : Keeps s0 s) (x1 x2 x3 x4 x5) : Keeps s0 (State.resWords s x1 x2 x3 x4 x5) := by
  induction x4 generalizing s x1 x2 x3 x5 with
  | nil =>
    simp only [State.resWords]
    repeat' (with_reducible exact h)
  | cons x l ih =>
    simp only [State.resWords]
    repeat' first
      | (with_reducible first | exact h | apply ih | apply State.wr_keeps) | split

theorem State.result_keeps {s0 s : State} (h : Keeps s0 s) (x1 x2 x3 x4 x5 x6 x7) : Keeps s0 (State.result s x1 x2 x3 x4 x5 x6 x7) := by
  simp only [State.result]
  repeat' (with_reducible first | exact h | apply State.wr_keeps | apply State.resWords_keeps)

theorem State.raiseIf_keeps {s0 s : State} (h : Keeps s0 s) (x1 x2 x3) : Keeps s0 (State.raiseIf s x1 x2 x3) := by
  simp only [State.raiseIf]
  repeat' first
    | (with_reducible first | exact h | apply State.raise_keeps) | split

theorem State.regCmd_keeps {s0 s : State} (h : Keeps s0 s) (x1 x2 x3 x4) (h4 : ∀ u, Keeps s0 u → Keeps s0 (x4 u)) : Keeps s0 (State.regCmd s x1 x2 x3 x4) := by
  simp only [State.regCmd]
  repeat' first
    | (with_reducible first | exact h | assumption | apply State.gate_keeps | apply State.routeWrite_keeps)
    | intro u hu

theorem State.fetch_keeps {s0 s : State} (h : Keeps s0 s) (x1 x2 x3) : Keeps s0 (State.fetch s x1 x2 x3) := by
  simp only [State.fetch]
  repeat' first
    | (with_reducible first
         | exact h | assumption | apply State.emit_keeps | apply State.cnt_keeps | apply Keeps.foldl)
    | intro u _ hu | split

/-! ### Machine/Trace.lean -/

set_option maxHeartbeats 200000
theorem State.traceWrite_keeps {s0 s : State} (h : Keeps s0 s) (x1) : Keeps s0 (State.traceWrite s x1) := by
  simp only [State.traceWrite]
  repeat' first
    | (with_reducible first
         | exact h | apply State.wr_keeps | apply State.cnt_keeps | apply State.raise_keeps | apply State.wrAll_keeps)
    | split | with_reducible refine Keeps.lit rfl rfl rfl rfl rfl rfl ?_

theorem State.tracePointAt_keeps {s0 s : State} (h : Keeps s0 s) (x1 x2 x3 x4 x5 x6) : Keeps s0 (State.tracePointAt s x1 x2 x3 x4 x5 x6) := by
  simp only [State.tracePointAt]
  repeat' first
    | (with_reducible first | exact h | apply State.traceWrite_keeps) | split

theorem State.tracePoint_keeps {s0 s : State} (h : Keeps s0 s) (x1 x2 x3 x4 x5) : Keeps s0 (State.tracePoint s x1 x2 x3 x4 x5) := by
  simp only [State.tracePoint]
  repeat' (with_reducible first | exact h | apply State.tracePointAt_keeps)

theorem State.traceTag_keeps {s0 s : State} (h : Keeps s0 s) (x1) : Keeps s0 (State.traceTag s x1).1 := by
  simp only [State.traceTag]
  repeat' first
    | (with_reducible first | exact h | apply State.draw_keeps | apply State.cnt_keeps) | split
    | with_reducible refine Keeps.lit rfl rfl rfl rfl rfl rfl ?_

theorem State.traceRx_keeps {s0 s : State} (h : Keeps s0 s) (x1) : Keeps s0 (State.traceRx s x1).1 := by
  simp only [State.traceRx]
  repeat' first
    | (with_reducible first | exact h | apply State.traceTag_keeps) | split

/-! ### Machine/Order.lean -/

set_option maxHeartbeats 200000
theorem State.setCtx_keeps {s0 s : State} (h : Keeps s0 s) (x1 x2) : Keeps s0 (State.setCtx s x1 x2) := by
  simp only [State.setCtx]
  repeat' first
    | with_reducible exact h | with_reducible refine Keeps.lit rfl rfl rfl rfl rfl rfl ?_

theorem State.ctxRestart_keeps {s0 s : State} (h : Keeps s0 s) (x1) : Keeps s0 (State.ctxRestart s x1) := by
  simp only [State.ctxRestart]
  repeat' (with_reducible first | exact h | apply State.setCtx_keeps)

end Sys2Proof.Machine
end

