-- ==== Sys2Proof/Laws/KeepsLine.lean ====
section
/-! SUPPORT. Laws/KeepsLine.lean: every operation and command of Machine/Line.lean, Machine/Cage.lean, Machine/Framing.lean keeps what `Keeps` names. -/

namespace Sys2Proof.Machine

/-! ### Machine/Line.lean -/

set_option maxHeartbeats 200000
theorem State.portDown_keeps {s0 s : State} (h : Keeps s0 s) (x1) : Keeps s0 (State.portDown s x1) := by
  simp only [State.portDown]
  repeat' (with_reducible first | exact h | apply State.wrAll_keeps | apply State.raiseIf_keeps)

theorem State.macCnt_keeps {s0 s : State} (h : Keeps s0 s) (x1 x2 x3) : Keeps s0 (State.macCnt s x1 x2 x3) := by
  simp only [State.macCnt]
  repeat' (with_reducible first | exact h | apply State.bump_keeps)

theorem State.pauseView_keeps {s0 s : State} (h : Keeps s0 s) (x1) : Keeps s0 (State.pauseView s x1) := by
  simp only [State.pauseView]
  repeat' (with_reducible first | exact h | apply State.put_keeps)

theorem State.setMac_keeps {s0 s : State} (h : Keeps s0 s) (x1 x2) : Keeps s0 (State.setMac s x1 x2) := by
  simp only [State.setMac]
  repeat' first
    | with_reducible exact h | with_reducible refine Keeps.lit rfl rfl rfl rfl rfl rfl ?_

theorem State.setPaused_keeps {s0 s : State} (h : Keeps s0 s) (x1 x2) : Keeps s0 (State.setPaused s x1 x2) := by
  simp only [State.setPaused]
  repeat' (with_reducible first | exact h | apply State.pauseView_keeps | apply State.setMac_keeps)

theorem State.pauseFor_keeps {s0 s : State} (h : Keeps s0 s) (x1 x2 x3) : Keeps s0 (State.pauseFor s x1 x2 x3) := by
  simp only [State.pauseFor]
  repeat' (with_reducible first | exact h | apply State.setMac_keeps | apply State.setPaused_keeps)

theorem State.rxPause_keeps {s0 s : State} (h : Keeps s0 s) (x1 x2) : Keeps s0 (State.rxPause s x1 x2) := by
  simp only [State.rxPause]
  repeat' first
    | (with_reducible first | exact h | apply State.macCnt_keeps | apply State.pauseFor_keeps) | split

theorem State.rxPfc_keeps {s0 s : State} (h : Keeps s0 s) (x1 x2 x3) : Keeps s0 (State.rxPfc s x1 x2 x3) := by
  simp only [State.rxPfc]
  repeat' first
    | (with_reducible first
         | exact h | assumption | apply State.macCnt_keeps | apply State.pauseFor_keeps | apply Keeps.foldl)
    | intro u _ hu | split

theorem State.setSa_keeps {s0 s : State} (h : Keeps s0 s) (x1 x2 x3 x4) : Keeps s0 (State.setSa s x1 x2 x3 x4) := by
  simp only [State.setSa]
  repeat' first
    | with_reducible exact h | with_reducible refine Keeps.lit rfl rfl rfl rfl rfl rfl ?_

theorem State.saInvalidate_keeps {s0 s : State} (h : Keeps s0 s) (x1 x2) : Keeps s0 (State.saInvalidate s x1 x2) := by
  simp only [State.saInvalidate]
  repeat' (with_reducible first | exact h | apply State.result_keeps | apply State.setSa_keeps)

theorem execMscSaInvalidate_keeps {s0 s : State} (h : Keeps s0 s) (x0 x1) : ∀ t, execMscSaInvalidate x0 x1 s = .next t → Keeps s0 t := by
  intro t ht; simp only [execMscSaInvalidate, Host.Outcome.next.injEq] at ht
  subst ht
  repeat' first
    | (with_reducible first | exact h | assumption | apply State.gate_keeps | apply State.saInvalidate_keeps)
    | intro u hu | split

theorem execPauseTimeExpiry_keeps {s0 s : State} (h : Keeps s0 s) (x0 x1) : ∀ t, execPauseTimeExpiry x0 x1 s = .next t → Keeps s0 t := by
  intro t ht; simp only [execPauseTimeExpiry, Host.Outcome.next.injEq] at ht
  subst ht
  repeat' first
    | (with_reducible first | exact h | apply State.setPaused_keeps) | split

theorem State.tsView_keeps {s0 s : State} (h : Keeps s0 s) (x1) : Keeps s0 (State.tsView s x1) := by
  simp only [State.tsView]
  repeat' first
    | (with_reducible first | exact h | apply State.wr_keeps | apply State.wrAll_keeps) | split

theorem State.macsecTx_keeps {s0 s : State} (h : Keeps s0 s) (x1 x2) : Keeps s0 (State.macsecTx s x1 x2).1 := by
  simp only [State.macsecTx]
  repeat' first
    | (with_reducible first
         | exact h | apply State.raise_keeps | apply State.macCnt_keeps | apply State.setMac_keeps
         | apply State.setSa_keeps)
    | split

theorem State.txFirWrite_keeps {s0 s : State} (h : Keeps s0 s) (x1 x2) : Keeps s0 (State.txFirWrite s x1 x2) := by
  simp only [State.txFirWrite]
  repeat' first
    | (with_reducible first | exact h | apply State.raise_keeps | apply State.wrWord_keeps) | split

theorem execTxFirWrite_keeps {s0 s : State} (h : Keeps s0 s) (x0 x1) : ∀ t, execTxFirWrite x0 x1 s = .next t → Keeps s0 t := by
  intro t ht; simp only [execTxFirWrite, Host.Outcome.next.injEq] at ht
  subst ht
  repeat' first
    | (with_reducible first | exact h | assumption | apply State.gate_keeps | apply State.txFirWrite_keeps)
    | intro u hu | split

theorem State.lpiHold_keeps {s0 s : State} (h : Keeps s0 s) (x1) : Keeps s0 (State.lpiHold s x1) := by
  simp only [State.lpiHold]
  repeat' first
    | (with_reducible first | exact h | assumption | apply State.wr_keeps | apply State.gate_keeps) | intro u hu
    | split

theorem State.macLink_keeps {s0 s : State} (h : Keeps s0 s) (x1 x2) : Keeps s0 (State.macLink s x1 x2) := by
  simp only [State.macLink]
  repeat' first
    | (with_reducible first | exact h | assumption | apply State.put_keeps | apply State.gate_keeps) | intro u hu

theorem State.etherGone_keeps {s0 s : State} (h : Keeps s0 s) (x1) : Keeps s0 (State.etherGone s x1) := by
  simp only [State.etherGone]
  repeat' first
    | (with_reducible first | exact h | apply State.portDown_keeps | apply State.macLink_keeps) | split

theorem State.showPort_keeps {s0 s : State} (h : Keeps s0 s) (x1) : Keeps s0 (State.showPort s x1) := by
  simp only [State.showPort]
  repeat' (with_reducible first | exact h | apply State.wrAll_keeps)

theorem State.portApply_keeps {s0 s : State} (h : Keeps s0 s) (x1 x2) : Keeps s0 (State.portApply s x1 x2) := by
  simp only [State.portApply]
  repeat' first
    | (with_reducible first
         | exact h | assumption | apply State.gate_keeps | apply State.wrFree_keeps | apply State.raise_keeps
         | apply State.wrWord_keeps | apply State.ctxRestart_keeps | apply State.setMac_keeps
         | apply State.lpiHold_keeps | apply State.etherGone_keeps | apply State.showPort_keeps)
    | intro u hu | split

theorem execPortApply_keeps {s0 s : State} (h : Keeps s0 s) (x0 x1) : ∀ t, execPortApply x0 x1 s = .next t → Keeps s0 t := by
  intro t ht; simp only [execPortApply, Host.Outcome.next.injEq] at ht
  subst ht
  repeat' first
    | (with_reducible first | exact h | assumption | apply State.gate_keeps | apply State.portApply_keeps)
    | intro u hu | split

theorem execPauseWdRecoverEnd_keeps {s0 s : State} (h : Keeps s0 s) (x0 x1) : ∀ t, execPauseWdRecoverEnd x0 x1 s = .next t → Keeps s0 t := by
  intro t ht; simp only [execPauseWdRecoverEnd, Host.Outcome.next.injEq] at ht
  subst ht
  repeat' first
    | (with_reducible first | exact h | apply State.pauseView_keeps | apply State.setMac_keeps) | split

theorem execLinkTrainingDone_keeps {s0 s : State} (h : Keeps s0 s) (x0 x1) : ∀ t, execLinkTrainingDone x0 x1 s = .next t → Keeps s0 t := by
  intro t ht; simp only [execLinkTrainingDone, Host.Outcome.next.injEq] at ht
  subst ht
  repeat' first
    | (with_reducible first | exact h | apply State.put_keeps | apply State.raiseIf_keeps) | split

theorem State.portState_keeps {s0 s : State} (h : Keeps s0 s) (x1 x2 x3 x4 x5 x6 x7) : Keeps s0 (State.portState s x1 x2 x3 x4 x5 x6 x7) := by
  simp only [State.portState]
  repeat' first
    | (with_reducible first
         | exact h | apply State.wrAll_keeps | apply State.raiseIf_keeps | apply State.macLink_keeps)
    | split

theorem execPortLinkStateChange_keeps {s0 s : State} (h : Keeps s0 s) (x0 x1 x2 x3 x4 x5 x6) : ∀ t, execPortLinkStateChange x0 x1 x2 x3 x4 x5 x6 s = .next t → Keeps s0 t := by
  intro t ht; simp only [execPortLinkStateChange, Host.Outcome.next.injEq] at ht
  subst ht
  repeat' first
    | (with_reducible first | exact h | apply State.portState_keeps) | split

theorem State.saRead_keeps {s0 s : State} (h : Keeps s0 s) (x1 x2) : Keeps s0 (State.saRead s x1 x2) := by
  simp only [State.saRead]
  repeat' (with_reducible first | exact h | apply State.result_keeps)

theorem State.tsCapture_keeps {s0 s : State} (h : Keeps s0 s) (x1 x2 x3 x4) : Keeps s0 (State.tsCapture s x1 x2 x3 x4) := by
  simp only [State.tsCapture]
  repeat' first
    | (with_reducible first | exact h | apply State.raise_keeps | apply State.macCnt_keeps | apply State.tsView_keeps)
    | split | with_reducible refine Keeps.lit rfl rfl rfl rfl rfl rfl ?_

theorem State.pnRearm_keeps {s0 s : State} (h : Keeps s0 s) (x1) : Keeps s0 (State.pnRearm s x1) := by
  simp only [State.pnRearm]
  repeat' (with_reducible first | exact h | apply State.setMac_keeps)

theorem State.secCtlWrite_keeps {s0 s : State} (h : Keeps s0 s) (x1 x2) : Keeps s0 (State.secCtlWrite s x1 x2) := by
  simp only [State.secCtlWrite]
  repeat' first
    | (with_reducible first | exact h | apply State.wrWord_keeps | apply State.pnRearm_keeps) | split

theorem State.squelchView_keeps {s0 s : State} (h : Keeps s0 s) (x1) : Keeps s0 (State.squelchView s x1) := by
  simp only [State.squelchView]
  repeat' (with_reducible first | exact h | apply State.put_keeps)

theorem State.saWrite_keeps {s0 s : State} (h : Keeps s0 s) (x1 x2) : Keeps s0 (State.saWrite s x1 x2) := by
  simp only [State.saWrite]
  repeat' first
    | (with_reducible first | exact h | apply State.result_keeps | apply State.setSa_keeps) | split

theorem execMscSaWrite_keeps {s0 s : State} (h : Keeps s0 s) (x0 x1) : ∀ t, execMscSaWrite x0 x1 s = .next t → Keeps s0 t := by
  intro t ht; simp only [execMscSaWrite, Host.Outcome.next.injEq] at ht
  subst ht
  repeat' first
    | (with_reducible first | exact h | assumption | apply State.gate_keeps | apply State.saWrite_keeps) | intro u hu
    | split

theorem State.macCtlWrite_keeps {s0 s : State} (h : Keeps s0 s) (x1 x2) : Keeps s0 (State.macCtlWrite s x1 x2) := by
  simp only [State.macCtlWrite]
  repeat' (with_reducible first | exact h | apply State.wr_keeps | apply State.put_keeps | apply State.wrWord_keeps)

theorem State.cbsEarn_keeps {s0 s : State} (h : Keeps s0 s) (x1 x2) : Keeps s0 (State.cbsEarn s x1 x2) := by
  simp only [State.cbsEarn]
  repeat' first
    | (with_reducible first | exact h | apply State.wr_keeps) | split
    | with_reducible refine Keeps.lit rfl rfl rfl rfl rfl rfl ?_

theorem State.pnThrWrite_keeps {s0 s : State} (h : Keeps s0 s) (x1 x2) : Keeps s0 (State.pnThrWrite s x1 x2) := by
  simp only [State.pnThrWrite]
  repeat' (with_reducible first | exact h | apply State.wr_keeps | apply State.pnRearm_keeps)

theorem State.cageSquelch_keeps {s0 s : State} (h : Keeps s0 s) (x1 x2) : Keeps s0 (State.cageSquelch s x1 x2) := by
  simp only [State.cageSquelch]
  repeat' first
    | (with_reducible first
         | exact h | apply State.put_keeps | apply State.raise_keeps | apply State.squelchView_keeps)
    | split

theorem State.laneDark_keeps {s0 s : State} (h : Keeps s0 s) (x1) : Keeps s0 (State.laneDark s x1) := by
  simp only [State.laneDark]
  repeat' (with_reducible first | exact h | apply State.wrAll_keeps)

theorem State.laneAdapt_keeps {s0 s : State} (h : Keeps s0 s) (x1) : Keeps s0 (State.laneAdapt s x1) := by
  simp only [State.laneAdapt]
  repeat' (with_reducible first | exact h | apply State.wr_keeps)

theorem execMscSaRead_keeps {s0 s : State} (h : Keeps s0 s) (x0 x1) : ∀ t, execMscSaRead x0 x1 s = .next t → Keeps s0 t := by
  intro t ht; simp only [execMscSaRead, Host.Outcome.next.injEq] at ht
  subst ht
  repeat' first
    | (with_reducible first | exact h | assumption | apply State.gate_keeps | apply State.saRead_keeps) | intro u hu
    | split

theorem State.tsPop_keeps {s0 s : State} (h : Keeps s0 s) (x1) : Keeps s0 (State.tsPop s x1) := by
  simp only [State.tsPop]
  repeat' first
    | (with_reducible first | exact h | apply State.tsView_keeps)
    | with_reducible refine Keeps.lit rfl rfl rfl rfl rfl rfl ?_

theorem State.secOpen_keeps {s0 s : State} (h : Keeps s0 s) (x1 x2 x3 x4 x5 x6 x7 x8) : Keeps s0 (State.secOpen s x1 x2 x3 x4 x5 x6 x7 x8).1 := by
  simp only [State.secOpen]
  repeat' first
    | (with_reducible first | exact h | apply State.raise_keeps | apply State.macCnt_keeps | apply State.setSa_keeps)
    | split

theorem execPauseWdTrip_keeps {s0 s : State} (h : Keeps s0 s) (x0 x1) : ∀ t, execPauseWdTrip x0 x1 s = .next t → Keeps s0 t := by
  intro t ht; simp only [execPauseWdTrip, Host.Outcome.next.injEq] at ht
  subst ht
  repeat' first
    | (with_reducible first
         | exact h | apply State.raise_keeps | apply State.macCnt_keeps | apply State.pauseView_keeps
         | apply State.setMac_keeps)
    | split

theorem execLaneAdapt_keeps {s0 s : State} (h : Keeps s0 s) (x0) : ∀ t, execLaneAdapt x0 s = .next t → Keeps s0 t := by
  intro t ht; simp only [execLaneAdapt, Host.Outcome.next.injEq] at ht
  subst ht
  repeat' first
    | (with_reducible first | exact h | assumption | apply State.gate_keeps | apply State.laneAdapt_keeps)
    | intro u hu | split

theorem execPreemptVerify_keeps {s0 s : State} (h : Keeps s0 s) (x0 x1) : ∀ t, execPreemptVerify x0 x1 s = .next t → Keeps s0 t := by
  intro t ht; simp only [execPreemptVerify, Host.Outcome.next.injEq] at ht
  subst ht
  repeat' first
    | (with_reducible first | exact h | apply State.wr_keeps | apply State.raise_keeps | apply State.macCnt_keeps)
    | split

theorem State.macsecRx_keeps {s0 s : State} (h : Keeps s0 s) (x1 x2) : Keeps s0 (State.macsecRx s x1 x2).1 := by
  simp only [State.macsecRx]
  repeat' first
    | (with_reducible first
         | exact h | apply State.raise_keeps | apply State.macCnt_keeps | apply State.setSa_keeps
         | apply State.secOpen_keeps)
    | split

theorem execLpiRxChange_keeps {s0 s : State} (h : Keeps s0 s) (x0 x1) : ∀ t, execLpiRxChange x0 x1 s = .next t → Keeps s0 t := by
  intro t ht; simp only [execLpiRxChange, Host.Outcome.next.injEq] at ht
  subst ht
  repeat' first
    | (with_reducible first | exact h | apply State.put_keeps | apply State.macCnt_keeps) | split

theorem State.cbsSpend_keeps {s0 s : State} (h : Keeps s0 s) (x1 x2 x3) : Keeps s0 (State.cbsSpend s x1 x2 x3) := by
  simp only [State.cbsSpend]
  repeat' first
    | (with_reducible first | exact h | apply State.wr_keeps) | split

theorem State.preemptWrite_keeps {s0 s : State} (h : Keeps s0 s) (x1 x2) : Keeps s0 (State.preemptWrite s x1 x2) := by
  simp only [State.preemptWrite]
  repeat' first
    | (with_reducible first | exact h | apply State.wr_keeps | apply State.wrWord_keeps) | split

theorem State.pauseSend_keeps {s0 s : State} (h : Keeps s0 s) (x1 x2) : Keeps s0 (State.pauseSend s x1 x2) := by
  simp only [State.pauseSend]
  repeat' first
    | (with_reducible first | exact h | apply State.emit_keeps | apply State.macCnt_keeps | apply State.setMac_keeps)
    | split

theorem State.laneCtlStore_keeps {s0 s : State} (h : Keeps s0 s) (x1 x2) : Keeps s0 (State.laneCtlStore s x1 x2) := by
  simp only [State.laneCtlStore]
  repeat' first
    | (with_reducible first
         | exact h | apply State.wr_keeps | apply State.raise_keeps | apply State.wrWord_keeps
         | apply State.squelchView_keeps | apply State.laneDark_keeps | apply State.laneAdapt_keeps)
    | split

theorem execLpiEnter_keeps {s0 s : State} (h : Keeps s0 s) (x0) : ∀ t, execLpiEnter x0 s = .next t → Keeps s0 t := by
  intro t ht; simp only [execLpiEnter, Host.Outcome.next.injEq] at ht
  subst ht
  repeat' first
    | (with_reducible first | exact h | apply State.wr_keeps | apply State.macCnt_keeps) | split

theorem execTsPop_keeps {s0 s : State} (h : Keeps s0 s) (x0) : ∀ t, execTsPop x0 s = .next t → Keeps s0 t := by
  intro t ht; simp only [execTsPop, Host.Outcome.next.injEq] at ht
  subst ht
  repeat' first
    | (with_reducible first | exact h | assumption | apply State.gate_keeps | apply State.tsPop_keeps) | intro u hu
    | split

theorem execSerWindowEnd_keeps {s0 s : State} (h : Keeps s0 s) (x0 x1 x2 x3) : ∀ t, execSerWindowEnd x0 x1 x2 x3 s = .next t → Keeps s0 t := by
  intro t ht; simp only [execSerWindowEnd, Host.Outcome.next.injEq] at ht
  subst ht
  repeat' first
    | (with_reducible first | exact h | apply State.wr_keeps | apply State.inc_keeps | apply State.raise_keeps)
    | split

theorem State.lpiLeave_keeps {s0 s : State} (h : Keeps s0 s) (x1) : Keeps s0 (State.lpiLeave s x1) := by
  simp only [State.lpiLeave]
  repeat' (with_reducible first | exact h | apply State.wr_keeps)

theorem execPrbsCheckerLock_keeps {s0 s : State} (h : Keeps s0 s) (x0 x1 x2) : ∀ t, execPrbsCheckerLock x0 x1 x2 s = .next t → Keeps s0 t := by
  intro t ht; simp only [execPrbsCheckerLock, Host.Outcome.next.injEq] at ht
  subst ht
  repeat' first
    | (with_reducible first | exact h | apply State.put_keeps | apply State.inc_keeps) | split

/-! ### Machine/Cage.lean -/

set_option maxHeartbeats 200000
theorem State.setCage_keeps {s0 s : State} (h : Keeps s0 s) (x1 x2) : Keeps s0 (State.setCage s x1 x2) := by
  simp only [State.setCage]
  repeat' first
    | with_reducible exact h | with_reducible refine Keeps.lit rfl rfl rfl rfl rfl rfl ?_

theorem State.cageDefer_keeps {s0 s : State} (h : Keeps s0 s) (x1 x2) : Keeps s0 (State.cageDefer s x1 x2) := by
  simp only [State.cageDefer]
  repeat' first
    | (with_reducible first | exact h | apply State.setCage_keeps) | split

theorem State.cageSquelchAll_keeps {s0 s : State} (h : Keeps s0 s) (x1 x2) : Keeps s0 (State.cageSquelchAll s x1 x2) := by
  simp only [State.cageSquelchAll]
  repeat' first
    | (with_reducible first
         | exact h | assumption | apply State.put_keeps | apply State.cageSquelch_keeps | apply Keeps.foldl)
    | intro u _ hu

theorem State.cageBit_keeps {s0 s : State} (h : Keeps s0 s) (x1 x2 x3 x4) : Keeps s0 (State.cageBit s x1 x2 x3 x4) := by
  simp only [State.cageBit]
  repeat' first
    | (with_reducible first | exact h | apply State.wr_keeps) | split

theorem State.cageEnter_keeps {s0 s : State} (h : Keeps s0 s) (x1 x2) : Keeps s0 (State.cageEnter s x1 x2) := by
  simp only [State.cageEnter]
  repeat' first
    | (with_reducible first
         | exact h | apply State.wr_keeps | apply State.raise_keeps | apply State.setCage_keeps
         | apply State.cageSquelchAll_keeps | apply State.cageBit_keeps)
    | split

theorem State.cageDebounce_keeps {s0 s : State} (h : Keeps s0 s) (x1) : Keeps s0 (State.cageDebounce s x1) := by
  simp only [State.cageDebounce]
  repeat' (with_reducible first
             | exact h | apply State.wr_keeps | apply State.setCage_keeps | apply State.cageEnter_keeps)

theorem State.cagePresent_keeps {s0 s : State} (h : Keeps s0 s) (x1 x2) : Keeps s0 (State.cagePresent s x1 x2) := by
  simp only [State.cagePresent]
  repeat' (with_reducible first | exact h | apply State.put_keeps | apply State.cageBit_keeps)

theorem State.cageFault_keeps {s0 s : State} (h : Keeps s0 s) (x1 x2) : Keeps s0 (State.cageFault s x1 x2) := by
  simp only [State.cageFault]
  repeat' (with_reducible first
             | exact h | apply State.wr_keeps | apply State.setCage_keeps | apply State.cageEnter_keeps)

theorem State.mmView_keeps {s0 s : State} (h : Keeps s0 s) (x1) : Keeps s0 (State.mmView s x1) := by
  simp only [State.mmView]
  repeat' first
    | (with_reducible first | exact h | apply State.wr_keeps) | split
    | with_reducible refine Keeps.lit rfl rfl rfl rfl rfl rfl ?_

theorem State.bringUp_keeps {s0 s : State} (h : Keeps s0 s) (x1 x2) : Keeps s0 (State.bringUp s x1 x2) := by
  simp only [State.bringUp]
  repeat' first
    | (with_reducible first | exact h | apply State.setCage_keeps | apply State.mmView_keeps) | split
    | with_reducible refine Keeps.lit rfl rfl rfl rfl rfl rfl ?_

theorem State.bringUpStart_keeps {s0 s : State} (h : Keeps s0 s) (x1) : Keeps s0 (State.bringUpStart s x1) := by
  simp only [State.bringUpStart]
  repeat' first
    | (with_reducible first | exact h | apply State.mmView_keeps | apply State.bringUp_keeps)
    | with_reducible refine Keeps.lit rfl rfl rfl rfl rfl rfl ?_

theorem State.cageInit_keeps {s0 s : State} (h : Keeps s0 s) (x1) : Keeps s0 (State.cageInit s x1) := by
  simp only [State.cageInit]
  repeat' first
    | (with_reducible first
         | exact h | apply State.setCage_keeps | apply State.cageEnter_keeps | apply State.bringUpStart_keeps)
    | split

theorem State.cageReady_keeps {s0 s : State} (h : Keeps s0 s) (x1) : Keeps s0 (State.cageReady s x1) := by
  simp only [State.cageReady]
  repeat' (with_reducible first | exact h | apply State.cageEnter_keeps)

theorem State.cageOff_keeps {s0 s : State} (h : Keeps s0 s) (x1) : Keeps s0 (State.cageOff s x1) := by
  simp only [State.cageOff]
  repeat' first
    | (with_reducible first
         | exact h | apply State.setCage_keeps | apply State.cageEnter_keeps | apply State.cagePresent_keeps)
    | split

theorem State.cageApply_keeps {s0 s : State} (h : Keeps s0 s) (x1 x2) : Keeps s0 (State.cageApply s x1 x2) := by
  simp only [State.cageApply]
  repeat' first
    | (with_reducible first
         | exact h | apply State.raise_keeps | apply State.setCage_keeps | apply State.cageSquelchAll_keeps
         | apply State.cageEnter_keeps | apply State.cageDebounce_keeps | apply State.cagePresent_keeps
         | apply State.cageFault_keeps | apply State.cageInit_keeps | apply State.cageReady_keeps
         | apply State.cageOff_keeps)
    | split | with_reducible refine Keeps.lit rfl rfl rfl rfl rfl rfl ?_

theorem State.cageEvent_keeps {s0 s : State} (h : Keeps s0 s) (x1 x2) : Keeps s0 (State.cageEvent s x1 x2) := by
  simp only [State.cageEvent]
  repeat' first
    | (with_reducible first
         | exact h | apply State.cageDefer_keeps | apply State.cageSquelchAll_keeps | apply State.cageApply_keeps)
    | split

theorem State.forceLp_keeps {s0 s : State} (h : Keeps s0 s) (x1 x2) : Keeps s0 (State.forceLp s x1 x2) := by
  simp only [State.forceLp]
  repeat' (with_reducible first | exact h | apply State.put_keeps | apply State.cageEvent_keeps)

theorem State.mmFrame_keeps {s0 s : State} (h : Keeps s0 s) (x1) : Keeps s0 (State.mmFrame s x1) := by
  simp only [State.mmFrame]
  repeat' first
    | with_reducible exact h | split
    | with_reducible refine Keeps.lit rfl rfl rfl rfl rfl rfl ?_

theorem State.cageCmd_keeps {s0 s : State} (h : Keeps s0 s) (x1 x2) : Keeps s0 (State.cageCmd s x1 x2) := by
  simp only [State.cageCmd]
  repeat' first
    | (with_reducible first | exact h | assumption | apply State.gate_keeps | apply State.cageEvent_keeps)
    | intro u hu | split

theorem execCageFaultClr_keeps {s0 s : State} (h : Keeps s0 s) (x0) : ∀ t, execCageFaultClr x0 s = .next t → Keeps s0 t := by
  intro t ht; simp only [execCageFaultClr, Host.Outcome.next.injEq] at ht
  subst ht
  repeat' (with_reducible first | exact h | apply State.cageCmd_keeps)

theorem State.cageTimer_keeps {s0 s : State} (h : Keeps s0 s) (x1 x2 x3) : Keeps s0 (State.cageTimer s x1 x2 x3) := by
  simp only [State.cageTimer]
  repeat' first
    | (with_reducible first | exact h | apply State.cageCmd_keeps) | split

theorem execCageDebounceDone_keeps {s0 s : State} (h : Keeps s0 s) (x0) : ∀ t, execCageDebounceDone x0 s = .next t → Keeps s0 t := by
  intro t ht; simp only [execCageDebounceDone, Host.Outcome.next.injEq] at ht
  subst ht
  repeat' (with_reducible first | exact h | apply State.cageTimer_keeps)

theorem execCageDatapathActivated_keeps {s0 s : State} (h : Keeps s0 s) (x0 x1) : ∀ t, execCageDatapathActivated x0 x1 s = .next t → Keeps s0 t := by
  intro t ht; simp only [execCageDatapathActivated, Host.Outcome.next.injEq] at ht
  subst ht
  repeat' (with_reducible first | exact h | apply State.cageCmd_keeps)

theorem State.laneMapWrite_keeps {s0 s : State} (h : Keeps s0 s) (x1 x2) : Keeps s0 (State.laneMapWrite s x1 x2) := by
  simp only [State.laneMapWrite]
  repeat' first
    | (with_reducible first
         | exact h | assumption | apply State.raise_keeps | apply State.wrWord_keeps | apply State.cageSquelch_keeps
         | apply Keeps.foldl)
    | intro u _ hu | split

theorem State.mmResult_keeps {s0 s : State} (h : Keeps s0 s) (x1 x2 x3 x4 x5) : Keeps s0 (State.mmResult s x1 x2 x3 x4 x5) := by
  simp only [State.mmResult]
  repeat' (with_reducible first | exact h | apply State.result_keeps)

theorem State.mmCommand_keeps {s0 s : State} (h : Keeps s0 s) (x1 x2 x3 x4 x5) : Keeps s0 (State.mmCommand s x1 x2 x3 x4 x5) := by
  simp only [State.mmCommand]
  repeat' first
    | (with_reducible first
         | exact h | apply State.resStart_keeps | apply State.mmView_keeps | apply State.mmResult_keeps)
    | split | with_reducible refine Keeps.lit rfl rfl rfl rfl rfl rfl ?_

theorem execMmRead_keeps {s0 s : State} (h : Keeps s0 s) (x0 x1 x2) : ∀ t, execMmRead x0 x1 x2 s = .next t → Keeps s0 t := by
  intro t ht; simp only [execMmRead, Host.Outcome.next.injEq] at ht
  subst ht
  repeat' first
    | (with_reducible first | exact h | assumption | apply State.gate_keeps | apply State.mmCommand_keeps)
    | intro u hu | split

theorem State.cageInput_keeps {s0 s : State} (h : Keeps s0 s) (x1 x2) : Keeps s0 (State.cageInput s x1 x2) := by
  simp only [State.cageInput]
  repeat' first
    | (with_reducible first
         | exact h | apply State.wr_keeps | apply State.put_keeps | apply State.raiseIf_keeps
         | apply State.cageEvent_keeps)
    | split

theorem State.cageInputs_keeps {s0 s : State} (h : Keeps s0 s) (x1 x2) : Keeps s0 (State.cageInputs s x1 x2) := by
  induction x2 generalizing s x1 with
  | nil =>
    simp only [State.cageInputs]
    repeat' (with_reducible exact h)
  | cons x l ih =>
    simp only [State.cageInputs]
    repeat' (with_reducible first | exact h | apply ih | apply State.cageInput_keeps)

theorem State.csbMarkerBad_keeps {s0 s : State} (h : Keeps s0 s) (x1) : Keeps s0 (State.csbMarkerBad s x1) := by
  simp only [State.csbMarkerBad]
  repeat' first
    | (with_reducible first
         | exact h | apply State.wr_keeps | apply State.inc_keeps | apply State.raise_keeps
         | apply State.cageInputs_keeps)
    | split | with_reducible refine Keeps.lit rfl rfl rfl rfl rfl rfl ?_

theorem State.cageFlush_keeps {s0 s : State} (h : Keeps s0 s) (x1) : Keeps s0 (State.cageFlush s x1) := by
  simp only [State.cageFlush]
  repeat' first
    | (with_reducible first
         | exact h | assumption | apply State.setCage_keeps | apply State.cageApply_keeps | apply Keeps.foldl)
    | intro u _ hu

theorem State.cagesFlush_keeps {s0 s : State} (h : Keeps s0 s) : Keeps s0 (State.cagesFlush s) := by
  simp only [State.cagesFlush]
  repeat' first
    | (with_reducible first | exact h | assumption | apply State.cageFlush_keeps | apply Keeps.foldl) | intro u _ hu
    | split

theorem State.csbFrame_keeps {s0 s : State} (h : Keeps s0 s) (x1 x2) : Keeps s0 (State.csbFrame s x1 x2) := by
  unfold State.csbFrame
  extract_lets ins held bytes s1 s2 s3
  have h1 : Keeps s0 s1 := Keeps.foldl (fun u _ hu => State.setCage_keeps hu _ _) _ h
  have h2 : Keeps s0 s2 := by
    unfold s2
    clear_value s1
    split
    · exact h1
    · exact Keeps.foldl (fun u _ hu => State.mmFrame_keeps hu _) _ h1
  have h3 : Keeps s0 s3 := Keeps.wr (State.emit_keeps h2 _) _ _ _ _
  clear_value s1 s2 s3 bytes held
  have h5 : Keeps s0 { s3 with markerBad := false } := Keeps.lit rfl rfl rfl rfl rfl rfl h3
  split
  · exact State.csbMarkerBad_keeps h3 _
  · exact State.cageInputs_keeps (State.cagesFlush_keeps (Keeps.wr h5 _ _ _ _)) _ _

theorem execCagePowerSlot_keeps {s0 s : State} (h : Keeps s0 s) : ∀ t, execCagePowerSlot s = .next t → Keeps s0 t := by
  intro t ht; simp only [execCagePowerSlot, Host.Outcome.next.injEq] at ht
  subst ht
  repeat' first
    | (with_reducible first | exact h | apply State.cageCmd_keeps) | split

theorem execCageResetHoldDone_keeps {s0 s : State} (h : Keeps s0 s) (x0) : ∀ t, execCageResetHoldDone x0 s = .next t → Keeps s0 t := by
  intro t ht; simp only [execCageResetHoldDone, Host.Outcome.next.injEq] at ht
  subst ht
  repeat' (with_reducible first | exact h | apply State.cageTimer_keeps)

theorem execCageInitTimeout_keeps {s0 s : State} (h : Keeps s0 s) (x0) : ∀ t, execCageInitTimeout x0 s = .next t → Keeps s0 t := by
  intro t ht; simp only [execCageInitTimeout, Host.Outcome.next.injEq] at ht
  subst ht
  repeat' (with_reducible first | exact h | apply State.cageTimer_keeps)

theorem State.cageCtlWrite_keeps {s0 s : State} (h : Keeps s0 s) (x1 x2) : Keeps s0 (State.cageCtlWrite s x1 x2) := by
  simp only [State.cageCtlWrite]
  repeat' first
    | (with_reducible first
         | exact h | apply State.put_keeps | apply State.wrWord_keeps | apply State.cageEvent_keeps
         | apply State.forceLp_keeps)
    | split

theorem execMmSdaStuck_keeps {s0 s : State} (h : Keeps s0 s) (x0) : ∀ t, execMmSdaStuck x0 s = .next t → Keeps s0 t := by
  intro t ht; simp only [execMmSdaStuck, Host.Outcome.next.injEq] at ht
  subst ht
  repeat' first
    | (with_reducible first | exact h | apply State.wr_keeps | apply State.emit_keeps | apply State.raise_keeps)
    | split

theorem execCageRemovalDone_keeps {s0 s : State} (h : Keeps s0 s) (x0) : ∀ t, execCageRemovalDone x0 s = .next t → Keeps s0 t := by
  intro t ht; simp only [execCageRemovalDone, Host.Outcome.next.injEq] at ht
  subst ht
  repeat' (with_reducible first | exact h | apply State.cageTimer_keeps)

theorem execCsbFrame_keeps {s0 s : State} (h : Keeps s0 s) (x0) : ∀ t, execCsbFrame x0 s = .next t → Keeps s0 t := by
  intro t ht; simp only [execCsbFrame, Host.Outcome.next.injEq] at ht
  subst ht
  repeat' first
    | (with_reducible first | exact h | apply State.csbFrame_keeps) | split

theorem execMmWrite_keeps {s0 s : State} (h : Keeps s0 s) (x0 x1 x2) : ∀ t, execMmWrite x0 x1 x2 s = .next t → Keeps s0 t := by
  intro t ht; simp only [execMmWrite, Host.Outcome.next.injEq] at ht
  subst ht
  repeat' first
    | (with_reducible first | exact h | assumption | apply State.gate_keeps | apply State.mmCommand_keeps)
    | intro u hu | split

theorem State.mmPop_keeps {s0 s : State} (h : Keeps s0 s) (x1) : Keeps s0 (State.mmPop s x1) := by
  simp only [State.mmPop]
  repeat' first
    | (with_reducible first | exact h | apply State.mmView_keeps)
    | with_reducible refine Keeps.lit rfl rfl rfl rfl rfl rfl ?_

theorem State.mmFill_keeps {s0 s : State} (h : Keeps s0 s) (x1 x2) : Keeps s0 (State.mmFill s x1 x2) := by
  simp only [State.mmFill]
  repeat' first
    | (with_reducible first | exact h | assumption | apply State.wr_keeps | apply Keeps.foldl) | intro u _ hu

theorem State.bringUpNext_keeps {s0 s : State} (h : Keeps s0 s) (x1 x2 x3) : Keeps s0 (State.bringUpNext s x1 x2 x3) := by
  simp only [State.bringUpNext]
  repeat' first
    | (with_reducible first | exact h | apply State.setCage_keeps | apply State.bringUp_keeps) | split

theorem State.mmEnd_keeps {s0 s : State} (h : Keeps s0 s) (x1 x2 x3 x4) : Keeps s0 (State.mmEnd s x1 x2 x3 x4) := by
  simp only [State.mmEnd]
  repeat' first
    | (with_reducible first
         | exact h | apply State.mmResult_keeps | apply State.mmPop_keeps | apply State.bringUpNext_keeps)
    | split

theorem State.cagesHold_keeps {s0 s : State} (h : Keeps s0 s) : Keeps s0 (State.cagesHold s) := by
  simp only [State.cagesHold]
  repeat' first
    | (with_reducible first
         | exact h | assumption | apply State.wr_keeps | apply State.mmEnd_keeps | apply Keeps.foldl)
    | intro u _ hu | split

theorem execCageForceLpmode_keeps {s0 s : State} (h : Keeps s0 s) (x0 x1) : ∀ t, execCageForceLpmode x0 x1 s = .next t → Keeps s0 t := by
  intro t ht; simp only [execCageForceLpmode, Host.Outcome.next.injEq] at ht
  subst ht
  repeat' first
    | (with_reducible first | exact h | assumption | apply State.gate_keeps | apply State.forceLp_keeps) | intro u hu
    | split

theorem State.bringUpBytes_keeps {s0 s : State} (h : Keeps s0 s) (x1) : Keeps s0 (State.bringUpBytes s x1).2 := by
  unfold State.bringUpBytes
  split
  · exact ⟨h.pending, h.ticks, Nat.le_trans h.free (Nat.le_add_right _ _), h.regs, h.hbm, h.nt⟩
  · exact h

theorem State.mmAbort_keeps {s0 s : State} (h : Keeps s0 s) (x1) : Keeps s0 (State.mmAbort s x1) := by
  simp only [State.mmAbort]
  repeat' first
    | (with_reducible first
         | exact h | apply State.resLate_keeps | apply State.mmView_keeps | apply State.mmResult_keeps)
    | split | with_reducible refine Keeps.lit rfl rfl rfl rfl rfl rfl ?_

theorem State.mmDone_keeps {s0 s : State} (h : Keeps s0 s) (x1 x2 x3) : Keeps s0 (State.mmDone s x1 x2 x3) := by
  simp only [State.mmDone]
  repeat' first
    | (with_reducible first
         | exact h | apply State.wr_keeps | apply State.emit_keeps | apply State.mmPop_keeps
         | apply State.mmFill_keeps | apply State.bringUpNext_keeps | apply State.mmEnd_keeps
         | apply State.bringUpBytes_keeps)
    | split

theorem execMmTransactionDone_keeps {s0 s : State} (h : Keeps s0 s) (x0 x1 x2) : ∀ t, execMmTransactionDone x0 x1 x2 s = .next t → Keeps s0 t := by
  intro t ht; simp only [execMmTransactionDone, Host.Outcome.next.injEq] at ht
  subst ht
  repeat' first
    | (with_reducible first | exact h | assumption | apply State.gate_keeps | apply State.mmDone_keeps) | intro u hu
    | split

theorem execMmStretchTimeout_keeps {s0 s : State} (h : Keeps s0 s) (x0) : ∀ t, execMmStretchTimeout x0 s = .next t → Keeps s0 t := by
  intro t ht; simp only [execMmStretchTimeout, Host.Outcome.next.injEq] at ht
  subst ht
  repeat' first
    | (with_reducible first | exact h | assumption | apply State.gate_keeps | apply State.mmEnd_keeps) | intro u hu
    | split

theorem execMmAbort_keeps {s0 s : State} (h : Keeps s0 s) (x0 x1) : ∀ t, execMmAbort x0 x1 s = .next t → Keeps s0 t := by
  intro t ht; simp only [execMmAbort, Host.Outcome.next.injEq] at ht
  subst ht
  repeat' first
    | (with_reducible first | exact h | assumption | apply State.gate_keeps | apply State.mmAbort_keeps) | intro u hu
    | split

theorem State.cagesRelease_keeps {s0 s : State} (h : Keeps s0 s) : Keeps s0 (State.cagesRelease s) := by
  simp only [State.cagesRelease]
  repeat' first
    | (with_reducible first
         | exact h | assumption | apply State.wr_keeps | apply State.bringUpStart_keeps | apply State.cagesFlush_keeps
         | apply Keeps.foldl)
    | intro u _ hu | split

theorem execCagePgTimeout_keeps {s0 s : State} (h : Keeps s0 s) (x0) : ∀ t, execCagePgTimeout x0 s = .next t → Keeps s0 t := by
  intro t ht; simp only [execCagePgTimeout, Host.Outcome.next.injEq] at ht
  subst ht
  repeat' (with_reducible first | exact h | apply State.cageTimer_keeps)

theorem execCagePowerCycle_keeps {s0 s : State} (h : Keeps s0 s) (x0) : ∀ t, execCagePowerCycle x0 s = .next t → Keeps s0 t := by
  intro t ht; simp only [execCagePowerCycle, Host.Outcome.next.injEq] at ht
  subst ht
  repeat' (with_reducible first | exact h | apply State.cageCmd_keeps)

theorem State.csbCtlWrite_keeps {s0 s : State} (h : Keeps s0 s) (x1) : Keeps s0 (State.csbCtlWrite s x1) := by
  simp only [State.csbCtlWrite]
  repeat' first
    | (with_reducible first | exact h | apply State.wr_keeps | apply State.raise_keeps | apply State.wrWord_keeps)
    | split

theorem execCagePowerCycleEnd_keeps {s0 s : State} (h : Keeps s0 s) (x0) : ∀ t, execCagePowerCycleEnd x0 s = .next t → Keeps s0 t := by
  intro t ht; simp only [execCagePowerCycleEnd, Host.Outcome.next.injEq] at ht
  subst ht
  repeat' (with_reducible first | exact h | apply State.cageTimer_keeps)

theorem execCageManualReady_keeps {s0 s : State} (h : Keeps s0 s) (x0) : ∀ t, execCageManualReady x0 s = .next t → Keeps s0 t := by
  intro t ht; simp only [execCageManualReady, Host.Outcome.next.injEq] at ht
  subst ht
  repeat' (with_reducible first | exact h | apply State.cageCmd_keeps)

/-! ### Machine/Framing.lean -/

set_option maxHeartbeats 200000
theorem State.setLfu_keeps {s0 s : State} (h : Keeps s0 s) (x1 x2) : Keeps s0 (State.setLfu s x1 x2) := by
  simp only [State.setLfu]
  repeat' first
    | with_reducible exact h | with_reducible refine Keeps.lit rfl rfl rfl rfl rfl rfl ?_

theorem State.clientView_keeps {s0 s : State} (h : Keeps s0 s) (x1 x2) : Keeps s0 (State.clientView s x1 x2) := by
  simp only [State.clientView]
  repeat' first
    | (with_reducible first | exact h | apply State.wr_keeps | apply State.put_keeps | apply State.macLink_keeps)
    | split

theorem State.clientViews_keeps {s0 s : State} (h : Keeps s0 s) (x1) : Keeps s0 (State.clientViews s x1) := by
  simp only [State.clientViews]
  repeat' first
    | (with_reducible first | exact h | assumption | apply State.clientView_keeps | apply Keeps.foldl) | intro u _ hu

theorem State.framerViews_keeps {s0 s : State} (h : Keeps s0 s) (x1) : Keeps s0 (State.framerViews s x1) := by
  simp only [State.framerViews]
  repeat' first
    | (with_reducible first | exact h | apply State.clientViews_keeps) | split

theorem State.protPrepare_keeps {s0 s : State} (h : Keeps s0 s) (x1) : Keeps s0 (State.protPrepare s x1) := by
  simp only [State.protPrepare]
  repeat' first
    | (with_reducible first | exact h | apply State.wr_keeps | apply State.setLfu_keeps) | split

theorem State.straddleMove_keeps {s0 s : State} (h : Keeps s0 s) (x1) : Keeps s0 (State.straddleMove s x1) := by
  simp only [State.straddleMove]
  repeat' first
    | (with_reducible first
         | exact h | assumption | apply State.draw_keeps | apply State.inc_keeps | apply Keeps.foldl)
    | intro u _ hu | split

theorem State.protMove_keeps {s0 s : State} (h : Keeps s0 s) (x1 x2) : Keeps s0 (State.protMove s x1 x2) := by
  simp only [State.protMove]
  repeat' first
    | (with_reducible first
         | exact h | apply State.put_keeps | apply State.raise_keeps | apply State.incSat_keeps
         | apply State.framerViews_keeps | apply State.straddleMove_keeps)
    | split

theorem State.disagreeView_keeps {s0 s : State} (h : Keeps s0 s) (x1) : Keeps s0 (State.disagreeView s x1) := by
  simp only [State.disagreeView]
  repeat' (with_reducible first | exact h | apply State.setLfu_keeps)

theorem State.protEval_keeps {s0 s : State} (h : Keeps s0 s) (x1) : Keeps s0 (State.protEval s x1) := by
  simp only [State.protEval]
  repeat' first
    | (with_reducible first
         | exact h | apply State.wr_keeps | apply State.put_keeps | apply State.protPrepare_keeps
         | apply State.protMove_keeps | apply State.disagreeView_keeps)
    | split

theorem State.protSignal_keeps {s0 s : State} (h : Keeps s0 s) (x1 x2 x3) : Keeps s0 (State.protSignal s x1 x2 x3) := by
  simp only [State.protSignal]
  repeat' first
    | (with_reducible first | exact h | apply State.wr_keeps | apply State.setLfu_keeps | apply State.protEval_keeps)
    | split

theorem State.otnSignal_keeps {s0 s : State} (h : Keeps s0 s) (x1) : Keeps s0 (State.otnSignal s x1) := by
  simp only [State.otnSignal]
  repeat' first
    | (with_reducible first
         | exact h | apply State.put_keeps | apply State.raiseIf_keeps | apply State.setLfu_keeps
         | apply State.framerViews_keeps | apply State.protSignal_keeps)
    | split

theorem execOtnLofClear_keeps {s0 s : State} (h : Keeps s0 s) (x0) : ∀ t, execOtnLofClear x0 s = .next t → Keeps s0 t := by
  intro t ht; simp only [execOtnLofClear, Host.Outcome.next.injEq] at ht
  subst ht
  repeat' first
    | (with_reducible first | exact h | apply State.wr_keeps | apply State.otnSignal_keeps) | split

theorem State.otnOof_keeps {s0 s : State} (h : Keeps s0 s) (x1 x2) : Keeps s0 (State.otnOof s x1 x2) := by
  simp only [State.otnOof]
  repeat' first
    | (with_reducible first | exact h | apply State.put_keeps | apply State.setLfu_keeps) | split

theorem State.otnOom_keeps {s0 s : State} (h : Keeps s0 s) (x1 x2) : Keeps s0 (State.otnOom s x1 x2) := by
  simp only [State.otnOom]
  repeat' first
    | (with_reducible first | exact h | apply State.put_keeps | apply State.setLfu_keeps) | split

theorem State.sliceFrame_keeps {s0 s : State} (h : Keeps s0 s) (x1 x2 x3) : Keeps s0 (State.sliceFrame s x1 x2 x3) := by
  simp only [State.sliceFrame]
  repeat' (with_reducible first
             | exact h | apply State.wr_keeps | apply State.setLfu_keeps | apply State.otnOof_keeps
             | apply State.otnOom_keeps)

theorem State.switchRefuse_keeps {s0 s : State} (h : Keeps s0 s) (x1 x2) : Keeps s0 (State.switchRefuse s x1 x2) := by
  simp only [State.switchRefuse]
  repeat' (with_reducible first | exact h | apply State.inc_keeps | apply State.raise_keeps)

theorem State.otnArm_keeps {s0 s : State} (h : Keeps s0 s) (x1) : Keeps s0 (State.otnArm s x1) := by
  simp only [State.otnArm]
  repeat' (with_reducible first | exact h | apply State.wr_keeps | apply State.setLfu_keeps)

theorem State.otnTrigger_keeps {s0 s : State} (h : Keeps s0 s) (x1) : Keeps s0 (State.otnTrigger s x1) := by
  simp only [State.otnTrigger]
  repeat' first
    | (with_reducible first | exact h | apply State.switchRefuse_keeps | apply State.otnArm_keeps) | split

theorem State.protCommand_keeps {s0 s : State} (h : Keeps s0 s) (x1 x2) : Keeps s0 (State.protCommand s x1 x2) := by
  simp only [State.protCommand]
  repeat' first
    | (with_reducible first | exact h | apply State.wr_keeps | apply State.setLfu_keeps | apply State.protEval_keeps)
    | split

theorem execProtCommand_keeps {s0 s : State} (h : Keeps s0 s) (x0 x1) : ∀ t, execProtCommand x0 x1 s = .next t → Keeps s0 t := by
  intro t ht; simp only [execProtCommand, Host.Outcome.next.injEq] at ht
  subst ht
  repeat' first
    | (with_reducible first | exact h | assumption | apply State.gate_keeps | apply State.protCommand_keeps)
    | intro u hu | split

theorem State.losFollow_keeps {s0 s : State} (h : Keeps s0 s) (x1) : Keeps s0 (State.losFollow s x1) := by
  simp only [State.losFollow]
  repeat' first
    | (with_reducible first | exact h | assumption | apply State.otnSignal_keeps | apply Keeps.foldl) | intro u _ hu
    | split

theorem execCdrLockLoss_keeps {s0 s : State} (h : Keeps s0 s) (x0) : ∀ t, execCdrLockLoss x0 s = .next t → Keeps s0 t := by
  intro t ht; simp only [execCdrLockLoss, Host.Outcome.next.injEq] at ht
  subst ht
  repeat' first
    | (with_reducible first
         | exact h | apply State.wr_keeps | apply State.wrFree_keeps | apply State.raise_keeps
         | apply State.losFollow_keeps)
    | split

theorem State.otnDone_keeps {s0 s : State} (h : Keeps s0 s) (x1) : Keeps s0 (State.otnDone s x1) := by
  simp only [State.otnDone]
  repeat' first
    | (with_reducible first
         | exact h | apply State.wr_keeps | apply State.raise_keeps | apply State.clientViews_keeps)
    | split

theorem State.straddle_keeps {s0 s : State} (h : Keeps s0 s) (x1 x2 x3 x4) : Keeps s0 (State.straddle s x1 x2 x3 x4) := by
  simp only [State.straddle]
  repeat' first
    | (with_reducible first
         | exact h | assumption | apply State.draw_keeps | apply State.inc_keeps | apply Keeps.foldl)
    | intro u _ hu | split

theorem execOtnTxMapSwitch_keeps {s0 s : State} (h : Keeps s0 s) (x0) : ∀ t, execOtnTxMapSwitch x0 s = .next t → Keeps s0 t := by
  intro t ht; simp only [execOtnTxMapSwitch, Host.Outcome.next.injEq] at ht
  subst ht
  repeat' first
    | (with_reducible first
         | exact h | apply State.wr_keeps | apply State.setLfu_keeps | apply State.otnDone_keeps
         | apply State.straddle_keeps)
    | split

theorem execOtnLofDeclare_keeps {s0 s : State} (h : Keeps s0 s) (x0) : ∀ t, execOtnLofDeclare x0 s = .next t → Keeps s0 t := by
  intro t ht; simp only [execOtnLofDeclare, Host.Outcome.next.injEq] at ht
  subst ht
  repeat' first
    | (with_reducible first
         | exact h | apply State.wr_keeps | apply State.raiseIf_keeps | apply State.otnSignal_keeps)
    | split

theorem State.otnEnable_keeps {s0 s : State} (h : Keeps s0 s) (x1) : Keeps s0 (State.otnEnable s x1) := by
  simp only [State.otnEnable]
  repeat' first
    | (with_reducible first | exact h | apply State.wr_keeps | apply State.raise_keeps | apply State.setLfu_keeps)
    | split

theorem execOtnEnable_keeps {s0 s : State} (h : Keeps s0 s) (x0) : ∀ t, execOtnEnable x0 s = .next t → Keeps s0 t := by
  intro t ht; simp only [execOtnEnable, Host.Outcome.next.injEq] at ht
  subst ht
  repeat' first
    | (with_reducible first | exact h | assumption | apply State.gate_keeps | apply State.otnEnable_keeps)
    | intro u hu | split

theorem State.flexePhys_keeps {s0 s : State} (h : Keeps s0 s) (x1 x2 x3 x4) : Keeps s0 (State.flexePhys s x1 x2 x3 x4) := by
  induction x4 generalizing s x3 with
  | nil => exact h
  | cons e l ih =>
    obtain ⟨a, b, c⟩ := e
    exact ih (State.emit_keeps h _) _

theorem State.flexeSend_keeps {s0 s : State} (h : Keeps s0 s) (x1) : Keeps s0 (State.flexeSend s x1) := by
  simp only [State.flexeSend]
  repeat' (with_reducible first | exact h | apply State.flexePhys_keeps)

theorem State.apsReceive_keeps {s0 s : State} (h : Keeps s0 s) (x1 x2) : Keeps s0 (State.apsReceive s x1 x2) := by
  simp only [State.apsReceive]
  repeat' first
    | (with_reducible first | exact h | apply State.wr_keeps | apply State.setLfu_keeps | apply State.protEval_keeps)
    | split

theorem State.otnSend_keeps {s0 s : State} (h : Keeps s0 s) (x1 x2 x3 x4 x5) : Keeps s0 (State.otnSend s x1 x2 x3 x4 x5) := by
  simp only [State.otnSend]
  repeat' (with_reducible first | exact h | apply State.emit_keeps | apply State.setLfu_keeps)

theorem State.otnOverhead_keeps {s0 s : State} (h : Keeps s0 s) (x1 x2 x3 x4 x5) : Keeps s0 (State.otnOverhead s x1 x2 x3 x4 x5) := by
  simp only [State.otnOverhead]
  repeat' first
    | (with_reducible first
         | exact h | apply State.wrAll_keeps | apply State.raiseIf_keeps | apply State.setLfu_keeps
         | apply State.otnSignal_keeps | apply State.apsReceive_keeps)
    | split

theorem State.otnFrame_keeps {s0 s : State} (h : Keeps s0 s) (x1 x2 x3 x4) : Keeps s0 (State.otnFrame s x1 x2 x3 x4) := by
  simp only [State.otnFrame]
  repeat' first
    | (with_reducible first
         | exact h | apply State.setLfu_keeps | apply State.otnSignal_keeps | apply State.sliceFrame_keeps
         | apply State.otnSend_keeps | apply State.otnOverhead_keeps)
    | split

theorem execProtWtrExpiry_keeps {s0 s : State} (h : Keeps s0 s) (x0) : ∀ t, execProtWtrExpiry x0 s = .next t → Keeps s0 t := by
  intro t ht; simp only [execProtWtrExpiry, Host.Outcome.next.injEq] at ht
  subst ht
  repeat' first
    | (with_reducible first | exact h | apply State.wr_keeps | apply State.protEval_keeps) | split

theorem State.flexeTrigger_keeps {s0 s : State} (h : Keeps s0 s) (x1) : Keeps s0 (State.flexeTrigger s x1) := by
  simp only [State.flexeTrigger]
  repeat' first
    | (with_reducible first
         | exact h | apply State.wr_keeps | apply State.setLfu_keeps | apply State.switchRefuse_keeps)
    | split

theorem execFlexeSwitchTrigger_keeps {s0 s : State} (h : Keeps s0 s) (x0) : ∀ t, execFlexeSwitchTrigger x0 s = .next t → Keeps s0 t := by
  intro t ht; simp only [execFlexeSwitchTrigger, Host.Outcome.next.injEq] at ht
  subst ht
  repeat' first
    | (with_reducible first | exact h | assumption | apply State.gate_keeps | apply State.flexeTrigger_keeps)
    | intro u hu | split

theorem State.pmLatch_keeps {s0 s : State} (h : Keeps s0 s) (x1 x2) : Keeps s0 (State.pmLatch s x1 x2) := by
  simp only [State.pmLatch]
  repeat' first
    | (with_reducible first
         | exact h | assumption | apply State.wr_keeps | apply State.raise_keeps | apply State.wrAll_keeps
         | apply State.setLfu_keeps | apply Keeps.foldl)
    | intro u _ hu

theorem execPmLatchFreeRun_keeps {s0 s : State} (h : Keeps s0 s) (x0) : ∀ t, execPmLatchFreeRun x0 s = .next t → Keeps s0 t := by
  intro t ht; simp only [execPmLatchFreeRun, Host.Outcome.next.injEq] at ht
  subst ht
  repeat' first
    | (with_reducible first | exact h | apply State.pmLatch_keeps) | split

theorem State.ohFrame_keeps {s0 s : State} (h : Keeps s0 s) (x1) : Keeps s0 (State.ohFrame s x1) := by
  simp only [State.ohFrame]
  repeat' first
    | (with_reducible first
         | exact h | apply State.wr_keeps | apply State.raise_keeps | apply State.setLfu_keeps
         | apply State.clientViews_keeps | apply State.straddle_keeps | apply State.flexeSend_keeps)
    | split

theorem execFlexeOhFrame_keeps {s0 s : State} (h : Keeps s0 s) (x0) : ∀ t, execFlexeOhFrame x0 s = .next t → Keeps s0 t := by
  intro t ht; simp only [execFlexeOhFrame, Host.Outcome.next.injEq] at ht
  subst ht
  repeat' first
    | (with_reducible first | exact h | apply State.ohFrame_keeps) | split

theorem execProtFailTimeout_keeps {s0 s : State} (h : Keeps s0 s) (x0) : ∀ t, execProtFailTimeout x0 s = .next t → Keeps s0 t := by
  intro t ht; simp only [execProtFailTimeout, Host.Outcome.next.injEq] at ht
  subst ht
  repeat' first
    | (with_reducible first | exact h | apply State.wr_keeps | apply State.raise_keeps) | split

theorem State.laneCtlWrite_keeps {s0 s : State} (h : Keeps s0 s) (x1 x2) : Keeps s0 (State.laneCtlWrite s x1 x2) := by
  simp only [State.laneCtlWrite]
  repeat' (with_reducible first | exact h | apply State.laneCtlStore_keeps | apply State.losFollow_keeps)

theorem execLaneCtlWrite_keeps {s0 s : State} (h : Keeps s0 s) (x0 x1) : ∀ t, execLaneCtlWrite x0 x1 s = .next t → Keeps s0 t := by
  intro t ht; simp only [execLaneCtlWrite, Host.Outcome.next.injEq] at ht
  subst ht
  repeat' first
    | (with_reducible first | exact h | assumption | apply State.gate_keeps | apply State.laneCtlWrite_keeps)
    | intro u hu | split

theorem State.sdJudge_keeps {s0 s : State} (h : Keeps s0 s) (x1) : Keeps s0 (State.sdJudge s x1) := by
  simp only [State.sdJudge]
  repeat' first
    | (with_reducible first
         | exact h | apply State.put_keeps | apply State.raiseIf_keeps | apply State.setLfu_keeps
         | apply State.protSignal_keeps)
    | split

theorem execPmSecondLatch_keeps {s0 s : State} (h : Keeps s0 s) (x0) : ∀ t, execPmSecondLatch x0 s = .next t → Keeps s0 t := by
  intro t ht; simp only [execPmSecondLatch, Host.Outcome.next.injEq] at ht
  subst ht
  repeat' first
    | (with_reducible first | exact h | apply State.pmLatch_keeps | apply State.sdJudge_keeps) | split

theorem execPmLatch_keeps {s0 s : State} (h : Keeps s0 s) (x0) : ∀ t, execPmLatch x0 s = .next t → Keeps s0 t := by
  intro t ht; simp only [execPmLatch, Host.Outcome.next.injEq] at ht
  subst ht
  repeat' first
    | (with_reducible first | exact h | assumption | apply State.gate_keeps | apply State.pmLatch_keeps) | intro u hu
    | split

theorem State.unbind_keeps {s0 s : State} (h : Keeps s0 s) (x1 x2) : Keeps s0 (State.unbind s x1 x2) := by
  simp only [State.unbind]
  repeat' first
    | (with_reducible first | exact h | apply State.setMac_keeps | apply State.macLink_keeps) | split

theorem State.bind_keeps {s0 s : State} (h : Keeps s0 s) (x1 x2) : Keeps s0 (State.bind s x1 x2) := by
  simp only [State.bind]
  repeat' first
    | (with_reducible first | exact h | apply State.setMac_keeps) | split

theorem State.clientWrite0_keeps {s0 s : State} (h : Keeps s0 s) (x1 x2 x3) : Keeps s0 (State.clientWrite0 s x1 x2 x3) := by
  simp only [State.clientWrite0]
  repeat' first
    | (with_reducible first
         | exact h | apply State.wr_keeps | apply State.raise_keeps | apply State.wrWord_keeps
         | apply State.clientView_keeps | apply State.unbind_keeps | apply State.bind_keeps)
    | split

theorem State.clientWrite1_keeps {s0 s : State} (h : Keeps s0 s) (x1 x2 x3) : Keeps s0 (State.clientWrite1 s x1 x2 x3) := by
  simp only [State.clientWrite1]
  repeat' first
    | (with_reducible first
         | exact h | apply State.wr_keeps | apply State.raise_keeps | apply State.wrWord_keeps
         | apply State.clientView_keeps)
    | split

theorem State.lfuClientWord_keeps {s0 s : State} (h : Keeps s0 s) (x1 x2 x3) : Keeps s0 (State.lfuClientWord s x1 x2 x3) := by
  simp only [State.lfuClientWord]
  repeat' first
    | (with_reducible first | exact h | apply State.clientWrite0_keeps | apply State.clientWrite1_keeps) | split

theorem State.ohReceive_keeps {s0 s : State} (h : Keeps s0 s) (x1 x2) : Keeps s0 (State.ohReceive s x1 x2) := by
  simp only [State.ohReceive]
  repeat' (with_reducible first
             | exact h | apply State.wrAll_keeps | apply State.raiseIf_keeps | apply State.setLfu_keeps
             | apply State.clientViews_keeps)

theorem execOtnFrame_keeps {s0 s : State} (h : Keeps s0 s) (x0 x1 x2 x3) : ∀ t, execOtnFrame x0 x1 x2 x3 s = .next t → Keeps s0 t := by
  intro t ht; simp only [execOtnFrame, Host.Outcome.next.injEq] at ht
  subst ht
  repeat' first
    | (with_reducible first | exact h | apply State.otnFrame_keeps) | split

theorem execFlexeCrReceive_keeps {s0 s : State} (h : Keeps s0 s) (x0 x1) : ∀ t, execFlexeCrReceive x0 x1 s = .next t → Keeps s0 t := by
  intro t ht; simp only [execFlexeCrReceive, Host.Outcome.next.injEq] at ht
  subst ht
  repeat' first
    | (with_reducible first | exact h | apply State.wr_keeps | apply State.setLfu_keeps) | split

theorem execProtHoldoffExpiry_keeps {s0 s : State} (h : Keeps s0 s) (x0 x1) : ∀ t, execProtHoldoffExpiry x0 x1 s = .next t → Keeps s0 t := by
  intro t ht; simp only [execProtHoldoffExpiry, Host.Outcome.next.injEq] at ht
  subst ht
  repeat' first
    | (with_reducible first | exact h | apply State.wr_keeps | apply State.protEval_keeps) | split

theorem execOtnRxMapSwitch_keeps {s0 s : State} (h : Keeps s0 s) (x0) : ∀ t, execOtnRxMapSwitch x0 s = .next t → Keeps s0 t := by
  intro t ht; simp only [execOtnRxMapSwitch, Host.Outcome.next.injEq] at ht
  subst ht
  repeat' first
    | (with_reducible first
         | exact h | apply State.wr_keeps | apply State.setLfu_keeps | apply State.otnDone_keeps
         | apply State.straddle_keeps)
    | split

theorem execLaneCdrLock_keeps {s0 s : State} (h : Keeps s0 s) (x0 x1 x2) : ∀ t, execLaneCdrLock x0 x1 x2 s = .next t → Keeps s0 t := by
  intro t ht; simp only [execLaneCdrLock, Host.Outcome.next.injEq] at ht
  subst ht
  repeat' first
    | (with_reducible first | exact h | apply State.wrAll_keeps | apply State.losFollow_keeps) | split

theorem State.lfuCfgWrite_keeps {s0 s : State} (h : Keeps s0 s) (x1 x2) : Keeps s0 (State.lfuCfgWrite s x1 x2) := by
  simp only [State.lfuCfgWrite]
  repeat' first
    | (with_reducible first
         | exact h | apply State.wr_keeps | apply State.put_keeps | apply State.clientViews_keeps
         | apply State.framerViews_keeps | apply State.otnEnable_keeps)
    | split

theorem execOtnSwitchTrigger_keeps {s0 s : State} (h : Keeps s0 s) (x0) : ∀ t, execOtnSwitchTrigger x0 s = .next t → Keeps s0 t := by
  intro t ht; simp only [execOtnSwitchTrigger, Host.Outcome.next.injEq] at ht
  subst ht
  repeat' first
    | (with_reducible first | exact h | assumption | apply State.gate_keeps | apply State.otnTrigger_keeps)
    | intro u hu | split

theorem execFlexeCaReceive_keeps {s0 s : State} (h : Keeps s0 s) (x0 x1) : ∀ t, execFlexeCaReceive x0 x1 s = .next t → Keeps s0 t := by
  intro t ht; simp only [execFlexeCaReceive, Host.Outcome.next.injEq] at ht
  subst ht
  repeat' first
    | (with_reducible first | exact h | apply State.wr_keeps | apply State.setLfu_keeps) | split

theorem execFlexeRxCChange_keeps {s0 s : State} (h : Keeps s0 s) (x0 x1) : ∀ t, execFlexeRxCChange x0 x1 s = .next t → Keeps s0 t := by
  intro t ht; simp only [execFlexeRxCChange, Host.Outcome.next.injEq] at ht
  subst ht
  repeat' first
    | (with_reducible first
         | exact h | apply State.wr_keeps | apply State.clientViews_keeps | apply State.straddle_keeps)
    | split

theorem execFlexeOhReceive_keeps {s0 s : State} (h : Keeps s0 s) (x0 x1 x2 x3 x4 x5 x6 x7 x8) : ∀ t, execFlexeOhReceive x0 x1 x2 x3 x4 x5 x6 x7 x8 s = .next t → Keeps s0 t := by
  intro t ht; simp only [execFlexeOhReceive, Host.Outcome.next.injEq] at ht
  subst ht
  repeat' first
    | (with_reducible first | exact h | apply State.ohReceive_keeps) | split

theorem execFlexeCaTimeout_keeps {s0 s : State} (h : Keeps s0 s) (x0) : ∀ t, execFlexeCaTimeout x0 s = .next t → Keeps s0 t := by
  intro t ht; simp only [execFlexeCaTimeout, Host.Outcome.next.injEq] at ht
  subst ht
  repeat' first
    | (with_reducible first
         | exact h | apply State.wr_keeps | apply State.setLfu_keeps | apply State.switchRefuse_keeps)
    | split

theorem execLfuClientWrite_keeps {s0 s : State} (h : Keeps s0 s) (x0 x1 x2) : ∀ t, execLfuClientWrite x0 x1 x2 s = .next t → Keeps s0 t := by
  intro t ht; simp only [execLfuClientWrite, Host.Outcome.next.injEq] at ht
  subst ht
  repeat' first
    | (with_reducible first | exact h | assumption | apply State.gate_keeps | apply State.clientWrite0_keeps)
    | intro u hu | split

end Sys2Proof.Machine
end

