-- ==== Sys2Proof/Laws/KeepsPipe.lean ====
section
/-! SUPPORT. Laws/KeepsPipe.lean: every operation and command of Machine/Pipeline.lean, Machine/Hbm.lean keeps what `Keeps` names. -/

namespace Sys2Proof.Machine

/-! ### Machine/Pipeline.lean -/

set_option maxHeartbeats 200000
theorem State.clsCmd_keeps {s0 s : State} (h : Keeps s0 s) (x1) (h1 : ∀ u, Keeps s0 u → Keeps s0 (x1 u)) : Keeps s0 (State.clsCmd s x1) := by
  simp only [State.clsCmd]
  repeat' first
    | (with_reducible first | exact h | apply State.raise_keeps | apply h1) | split

theorem State.clsPauseView_keeps {s0 s : State} (h : Keeps s0 s) (x1 x2) : Keeps s0 (State.clsPauseView s x1 x2) := by
  simp only [State.clsPauseView]
  repeat' first
    | (with_reducible first | exact h | assumption | apply State.put_keeps | apply Keeps.foldl) | intro u _ hu

theorem State.clsAbort_keeps {s0 s : State} (h : Keeps s0 s) : Keeps s0 (State.clsAbort s) := by
  simp only [State.clsAbort]
  repeat' first
    | (with_reducible first
         | exact h | apply State.wr_keeps | apply State.resLate_keeps | apply State.result_keeps
         | apply State.clsPauseView_keeps)
    | split | with_reducible refine Keeps.lit rfl rfl rfl rfl rfl rfl ?_

theorem execClsAbort_keeps {s0 s : State} (h : Keeps s0 s) (x0) : ∀ t, execClsAbort x0 s = .next t → Keeps s0 t := by
  intro t ht; simp only [execClsAbort, Host.Outcome.next.injEq] at ht
  subst ht
  repeat' (with_reducible first | exact h | apply State.gate_keeps | apply State.clsAbort_keeps)

theorem State.ordView_keeps {s0 s : State} (h : Keeps s0 s) : Keeps s0 (State.ordView s) := by
  simp only [State.ordView]
  repeat' (with_reducible first | exact h | apply State.wr_keeps | apply State.put_keeps)

theorem State.patWrite_keeps {s0 s : State} (h : Keeps s0 s) (x1 x2) : Keeps s0 (State.patWrite s x1 x2) := by
  simp only [State.patWrite]
  repeat' first
    | (with_reducible first | exact h | apply State.result_keeps)
    | with_reducible refine Keeps.lit rfl rfl rfl rfl rfl rfl ?_

theorem execPatWrite_keeps {s0 s : State} (h : Keeps s0 s) (x0 x1) : ∀ t, execPatWrite x0 x1 s = .next t → Keeps s0 t := by
  intro t ht; simp only [execPatWrite, Host.Outcome.next.injEq] at ht
  subst ht
  repeat' first
    | (with_reducible first | exact h | assumption | apply State.gate_keeps | apply State.patWrite_keeps) | intro u hu

theorem State.tplCommit_keeps {s0 s : State} (h : Keeps s0 s) (x1 x2) : Keeps s0 (State.tplCommit s x1 x2) := by
  simp only [State.tplCommit]
  repeat' first
    | (with_reducible first
         | exact h | assumption | apply State.wr_keeps | apply State.raise_keeps | apply State.result_keeps
         | apply Keeps.foldl)
    | intro u _ hu | split

theorem execTplCommit_keeps {s0 s : State} (h : Keeps s0 s) (x0 x1) : ∀ t, execTplCommit x0 x1 s = .next t → Keeps s0 t := by
  intro t ht; simp only [execTplCommit, Host.Outcome.next.injEq] at ht
  subst ht
  repeat' first
    | (with_reducible first | exact h | assumption | apply State.gate_keeps | apply State.tplCommit_keeps)
    | intro u hu

theorem State.clsCount_keeps {s0 s : State} (h : Keeps s0 s) : Keeps s0 (State.clsCount s) := by
  simp only [State.clsCount]
  repeat' (with_reducible first | exact h | apply State.wr_keeps)

theorem State.clsDone_keeps {s0 s : State} (h : Keeps s0 s) (x1 x2 x3 x4 x5 x6) : Keeps s0 (State.clsDone s x1 x2 x3 x4 x5 x6) := by
  simp only [State.clsDone]
  repeat' first
    | (with_reducible first | exact h | apply State.result_keeps | apply State.clsCount_keeps)
    | with_reducible refine Keeps.lit rfl rfl rfl rfl rfl rfl ?_

theorem State.patRead_keeps {s0 s : State} (h : Keeps s0 s) (x1 x2) : Keeps s0 (State.patRead s x1 x2) := by
  simp only [State.patRead]
  repeat' first
    | (with_reducible first
         | exact h | assumption | apply State.wr_keeps | apply State.wrWord_keeps | apply State.result_keeps
         | apply Keeps.foldl)
    | intro u _ hu

theorem State.tplInvalidate_keeps {s0 s : State} (h : Keeps s0 s) (x1 x2) : Keeps s0 (State.tplInvalidate s x1 x2) := by
  simp only [State.tplInvalidate]
  repeat' (with_reducible first | exact h | apply State.wr_keeps | apply State.result_keeps)

theorem State.clsNoRoom_keeps {s0 s : State} (h : Keeps s0 s) (x1) : Keeps s0 (State.clsNoRoom s x1) := by
  simp only [State.clsNoRoom]
  repeat' (with_reducible first | exact h | apply State.raise_keeps | apply State.result_keeps)

theorem State.clsLong_keeps {s0 s : State} (h : Keeps s0 s) (x1 x2 x3) : Keeps s0 (State.clsLong s x1 x2 x3) := by
  simp only [State.clsLong]
  repeat' first
    | (with_reducible first
         | exact h | apply State.wr_keeps | apply State.put_keeps | apply State.cnt_keeps | apply State.resStart_keeps
         | apply State.clsDone_keeps | apply State.clsNoRoom_keeps)
    | split | with_reducible refine Keeps.lit rfl rfl rfl rfl rfl rfl ?_

theorem State.clsInsert_keeps {s0 s : State} (h : Keeps s0 s) (x1 x2 x3) : Keeps s0 (State.clsInsert s x1 x2 x3) := by
  simp only [State.clsInsert]
  repeat' first
    | (with_reducible first
         | exact h | apply State.result_keeps | apply State.clsDone_keeps | apply State.clsLong_keeps)
    | split

theorem State.clsRead_keeps {s0 s : State} (h : Keeps s0 s) (x1 x2) : Keeps s0 (State.clsRead s x1 x2) := by
  simp only [State.clsRead]
  repeat' first
    | (with_reducible first | exact h | apply State.result_keeps) | split

theorem execClsRead_keeps {s0 s : State} (h : Keeps s0 s) (x0 x1) : ∀ t, execClsRead x0 x1 s = .next t → Keeps s0 t := by
  intro t ht; simp only [execClsRead, Host.Outcome.next.injEq] at ht
  subst ht
  repeat' first
    | (with_reducible first
         | exact h | assumption | apply State.gate_keeps | apply State.clsCmd_keeps | apply State.clsRead_keeps)
    | intro u hu

theorem State.clsDelete_keeps {s0 s : State} (h : Keeps s0 s) (x1 x2) : Keeps s0 (State.clsDelete s x1 x2) := by
  simp only [State.clsDelete]
  repeat' first
    | (with_reducible first | exact h | apply State.result_keeps | apply State.clsDone_keeps) | split

theorem State.clsPauseStart_keeps {s0 s : State} (h : Keeps s0 s) (x1) : Keeps s0 (State.clsPauseStart s x1) := by
  simp only [State.clsPauseStart]
  repeat' first
    | (with_reducible first
         | exact h | apply State.wr_keeps | apply State.draw_keeps | apply State.cnt_keeps | apply State.raise_keeps
         | apply State.clsPauseView_keeps)
    | with_reducible refine Keeps.lit rfl rfl rfl rfl rfl rfl ?_

theorem execClsPause_keeps {s0 s : State} (h : Keeps s0 s) : ∀ t, execClsPause s = .next t → Keeps s0 t := by
  intro t ht; simp only [execClsPause, Host.Outcome.next.injEq] at ht
  subst ht
  repeat' first
    | (with_reducible first | exact h | apply State.clsPauseStart_keeps) | split

theorem State.tplRead_keeps {s0 s : State} (h : Keeps s0 s) (x1 x2) : Keeps s0 (State.tplRead s x1 x2) := by
  simp only [State.tplRead]
  repeat' first
    | (with_reducible first
         | exact h | assumption | apply State.wr_keeps | apply State.result_keeps | apply Keeps.foldl)
    | intro u _ hu

theorem execTplRead_keeps {s0 s : State} (h : Keeps s0 s) (x0 x1) : ∀ t, execTplRead x0 x1 s = .next t → Keeps s0 t := by
  intro t ht; simp only [execTplRead, Host.Outcome.next.injEq] at ht
  subst ht
  repeat' first
    | (with_reducible first | exact h | assumption | apply State.gate_keeps | apply State.tplRead_keeps) | intro u hu

theorem execPatAbort_keeps {s0 s : State} (h : Keeps s0 s) (x0) : ∀ t, execPatAbort x0 s = .next t → Keeps s0 t := by
  intro t ht; simp only [execPatAbort, Host.Outcome.next.injEq] at ht
  subst ht
  repeat' first
    | (with_reducible first | exact h | assumption | apply State.gate_keeps | apply State.resLate_keeps) | intro u hu

theorem State.clsPauseOver_keeps {s0 s : State} (h : Keeps s0 s) (x1) : Keeps s0 (State.clsPauseOver s x1) := by
  simp only [State.clsPauseOver]
  repeat' first
    | (with_reducible first
         | exact h | apply State.wr_keeps | apply State.clsPauseView_keeps | apply State.clsDone_keeps)
    | split | with_reducible refine Keeps.lit rfl rfl rfl rfl rfl rfl ?_

theorem State.clsTick_keeps {s0 s : State} (h : Keeps s0 s) : Keeps s0 (State.clsTick s) := by
  simp only [State.clsTick]
  repeat' first
    | (with_reducible first
         | exact h | assumption | apply State.put_keeps | apply State.inc_keeps | apply State.clsPauseOver_keeps
         | apply Keeps.foldl)
    | intro u _ hu | split

theorem State.parkView_keeps {s0 s : State} (h : Keeps s0 s) (x1) : Keeps s0 (State.parkView s x1) := by
  simp only [State.parkView]
  repeat' (with_reducible first | exact h | apply State.wr_keeps)

theorem execPatRead_keeps {s0 s : State} (h : Keeps s0 s) (x0 x1) : ∀ t, execPatRead x0 x1 s = .next t → Keeps s0 t := by
  intro t ht; simp only [execPatRead, Host.Outcome.next.injEq] at ht
  subst ht
  repeat' first
    | (with_reducible first | exact h | assumption | apply State.gate_keeps | apply State.patRead_keeps) | intro u hu

theorem execClsInsert_keeps {s0 s : State} (h : Keeps s0 s) (x0 x1 x2) : ∀ t, execClsInsert x0 x1 x2 s = .next t → Keeps s0 t := by
  intro t ht; simp only [execClsInsert, Host.Outcome.next.injEq] at ht
  subst ht
  repeat' first
    | (with_reducible first
         | exact h | assumption | apply State.gate_keeps | apply State.clsCmd_keeps | apply State.clsInsert_keeps)
    | intro u hu

theorem State.classify_keeps {s0 s : State} (h : Keeps s0 s) (x1 x2) : Keeps s0 (State.classify s x1 x2).1 := by
  simp only [State.classify]
  repeat' first
    | (with_reducible first | exact h | apply State.cnt_keeps | apply State.raise_keeps) | split

theorem execTplInvalidate_keeps {s0 s : State} (h : Keeps s0 s) (x0 x1) : ∀ t, execTplInvalidate x0 x1 s = .next t → Keeps s0 t := by
  intro t ht; simp only [execTplInvalidate, Host.Outcome.next.injEq] at ht
  subst ht
  repeat' first
    | (with_reducible first | exact h | assumption | apply State.gate_keeps | apply State.tplInvalidate_keeps)
    | intro u hu

theorem execClsDelete_keeps {s0 s : State} (h : Keeps s0 s) (x0 x1) : ∀ t, execClsDelete x0 x1 s = .next t → Keeps s0 t := by
  intro t ht; simp only [execClsDelete, Host.Outcome.next.injEq] at ht
  subst ht
  repeat' first
    | (with_reducible first
         | exact h | assumption | apply State.gate_keeps | apply State.clsCmd_keeps | apply State.clsDelete_keeps)
    | intro u hu

/-! ### Machine/Hbm.lean -/

set_option maxHeartbeats 200000
theorem State.chanCnt_keeps {s0 s : State} (h : Keeps s0 s) (x1 x2) : Keeps s0 (State.chanCnt s x1 x2) := by
  simp only [State.chanCnt]
  repeat' (with_reducible first | exact h | apply State.bump_keeps)

theorem State.setChan_keeps {s0 s : State} (h : Keeps s0 s) (x1 x2) : Keeps s0 (State.setChan s x1 x2) := by
  simp only [State.setChan]
  repeat' first
    | with_reducible exact h | with_reducible refine Keeps.lit rfl rfl rfl rfl rfl rfl ?_

theorem State.hbmIssue_keeps {s0 s : State} (h : Keeps s0 s) (x1 x2 x3) : Keeps s0 (State.hbmIssue s x1 x2 x3) := by
  simp only [State.hbmIssue]
  repeat' (with_reducible first | exact h | apply State.chanCnt_keeps | apply State.setChan_keeps)

theorem State.hbmPast_keeps {s0 s : State} (h : Keeps s0 s) : Keeps s0 (State.hbmPast s) := by
  simp only [State.hbmPast]
  repeat' (with_reducible first | exact h | apply State.raise_keeps | apply State.chanCnt_keeps)

theorem State.hbmPut_keeps {s0 s : State} (h : Keeps s0 s) (x1 x2) : Keeps s0 (State.hbmPut s x1 x2) := by
  exact ⟨h.pending, h.ticks, h.free, h.regs, fun x => memSets_wf _ _ (h.hbm x), h.nt⟩

theorem State.windowAccess_keeps {s0 s : State} (h : Keeps s0 s) (x1 x2) : ∀ r, State.windowAccess s x1 x2 = some r → Keeps s0 r.1 := by
  intro r ht; simp only [State.windowAccess] at ht
  repeat' first
    | (split at ht) | (simp only [Option.some.injEq, reduceCtorEq] at ht) | (obtain ⟨rfl, _⟩ := ht)
    | (with_reducible first
         | exact h | assumption | apply State.inc_keeps | apply State.raise_keeps | apply State.chanCnt_keeps
         | apply State.hbmIssue_keeps | apply State.hbmPast_keeps | apply State.hbmPut_keeps | apply Keeps.foldl)
    | intro u _ hu | with_reducible refine Keeps.lit rfl rfl rfl rfl rfl rfl ?_

theorem State.regFill_keeps {s0 s : State} (h : Keeps s0 s) (x1) : Keeps s0 (State.regFill s x1) := by
  simp only [State.regFill]
  repeat' first
    | with_reducible exact h | split
    | with_reducible refine Keeps.lit rfl rfl rfl rfl rfl rfl ?_

theorem State.drainTo_keeps {s0 s : State} (h : Keeps s0 s) (x1 x2 x3) : Keeps s0 (State.drainTo s x1 x2 x3) := by
  induction x3 generalizing s x1 x2 with
  | zero =>
    simp only [State.drainTo]
    repeat' (with_reducible exact h)
  | succ x ih =>
    simp only [State.drainTo]
    repeat' first
      | (with_reducible first | exact h | apply ih | apply State.setChan_keeps | apply State.hbmIssue_keeps) | split

theorem State.hbmEnqueue_keeps {s0 s : State} (h : Keeps s0 s) (x1 x2 x3) : Keeps s0 (State.hbmEnqueue s x1 x2 x3) := by
  simp only [State.hbmEnqueue]
  repeat' first
    | (with_reducible first | exact h | apply State.setChan_keeps) | split

theorem State.hbmPump_keeps {s0 s : State} (h : Keeps s0 s) (x1 x2) : Keeps s0 (State.hbmPump s x1 x2) := by
  induction x2 generalizing s x1 with
  | zero =>
    simp only [State.hbmPump]
    repeat' (with_reducible exact h)
  | succ x ih =>
    simp only [State.hbmPump]
    repeat' first
      | (with_reducible first
           | exact h | assumption | apply ih | apply State.inc_keeps | apply State.hbmEnqueue_keeps
           | apply Keeps.foldl)
      | intro u _ hu | split | with_reducible refine Keeps.lit rfl rfl rfl rfl rfl rfl ?_

theorem State.hbmCapture_keeps {s0 s : State} (h : Keeps s0 s) (x1 x2 x3) : Keeps s0 (State.hbmCapture s x1 x2 x3) := by
  simp only [State.hbmCapture]
  repeat' first
    | (with_reducible first | exact h | apply State.wrAll_keeps) | split

theorem State.hbmView_keeps {s0 s : State} (h : Keeps s0 s) : Keeps s0 (State.hbmView s) := by
  simp only [State.hbmView]
  repeat' (with_reducible first | exact h | apply State.wr_keeps)

theorem State.regionCfgWrite_keeps {s0 s : State} (h : Keeps s0 s) (x1) : Keeps s0 (State.regionCfgWrite s x1) := by
  simp only [State.regionCfgWrite]
  repeat' first
    | (with_reducible first | exact h | apply State.raise_keeps | apply State.wrWord_keeps) | split

theorem State.hbmPost_keeps {s0 s : State} (h : Keeps s0 s) (x1) : Keeps s0 (State.hbmPost s x1) := by
  simp only [State.hbmPost]
  repeat' first
    | (with_reducible first | exact h | apply State.hbmPump_keeps | apply State.hbmView_keeps)
    | with_reducible refine Keeps.lit rfl rfl rfl rfl rfl rfl ?_

theorem State.scrubMove_keeps {s0 s : State} (h : Keeps s0 s) (x1 x2 x3) : Keeps s0 (State.scrubMove s x1 x2 x3) := by
  simp only [State.scrubMove]
  repeat' first
    | (with_reducible first | exact h | apply State.inc_keeps | apply State.hbmIssue_keeps)
    | with_reducible refine Keeps.lit rfl rfl rfl rfl rfl rfl ?_

theorem State.hbmTick_keeps {s0 s : State} (h : Keeps s0 s) : Keeps s0 (State.hbmTick s) := by
  simp only [State.hbmTick]
  repeat' first
    | (with_reducible first
         | exact h | assumption | apply State.inc_keeps | apply State.regFill_keeps | apply State.hbmPump_keeps
         | apply State.hbmView_keeps | apply Keeps.foldl)
    | intro u _ hu | split

theorem execHbmWriteDrain_keeps {s0 s : State} (h : Keeps s0 s) (x0) : ∀ t, execHbmWriteDrain x0 s = .next t → Keeps s0 t := by
  intro t ht; simp only [execHbmWriteDrain, Host.Outcome.next.injEq] at ht
  subst ht
  repeat' first
    | (with_reducible first
         | exact h | assumption | apply State.drainTo_keeps | apply State.hbmPump_keeps | apply Keeps.foldl)
    | intro u _ hu | split

theorem State.refreshCfgWrite_keeps {s0 s : State} (h : Keeps s0 s) (x1 x2) : Keeps s0 (State.refreshCfgWrite s x1 x2) := by
  simp only [State.refreshCfgWrite]
  repeat' first
    | (with_reducible first | exact h | apply State.wr_keeps | apply State.raise_keeps | apply State.wrWord_keeps)
    | split

theorem State.regRateWrite_keeps {s0 s : State} (h : Keeps s0 s) (x1 x2) : Keeps s0 (State.regRateWrite s x1 x2) := by
  simp only [State.regRateWrite]
  repeat' first
    | (with_reducible first | exact h | apply State.wr_keeps | apply State.raise_keeps) | split

theorem execHbmReadComplete_keeps {s0 s : State} (h : Keeps s0 s) (x0 x1) : ∀ t, execHbmReadComplete x0 x1 s = .next t → Keeps s0 t := by
  intro t ht; simp only [execHbmReadComplete, Host.Outcome.next.injEq] at ht
  subst ht
  repeat' first
    | (with_reducible first
         | exact h | apply State.raise_keeps | apply State.chanCnt_keeps | apply State.setChan_keeps
         | apply State.hbmIssue_keeps | apply State.hbmPump_keeps | apply State.hbmCapture_keeps)
    | split

theorem execHbmRefresh_keeps {s0 s : State} (h : Keeps s0 s) (x0) : ∀ t, execHbmRefresh x0 s = .next t → Keeps s0 t := by
  intro t ht; simp only [execHbmRefresh, Host.Outcome.next.injEq] at ht
  subst ht
  repeat' first
    | (with_reducible first | exact h | apply State.chanCnt_keeps | apply State.setChan_keeps) | split

theorem execHbmParityAlert_keeps {s0 s : State} (h : Keeps s0 s) (x0 x1) : ∀ t, execHbmParityAlert x0 x1 s = .next t → Keeps s0 t := by
  intro t ht; simp only [execHbmParityAlert, Host.Outcome.next.injEq] at ht
  subst ht
  repeat' first
    | (with_reducible first
         | exact h | apply State.wr_keeps | apply State.raise_keeps | apply State.chanCnt_keeps
         | apply State.setChan_keeps)
    | split

theorem execHbmScrub_keeps {s0 s : State} (h : Keeps s0 s) (x0 x1 x2) : ∀ t, execHbmScrub x0 x1 x2 s = .next t → Keeps s0 t := by
  intro t ht; simp only [execHbmScrub, Host.Outcome.next.injEq] at ht
  subst ht
  repeat' first
    | (with_reducible first
         | exact h | apply State.raise_keeps | apply State.chanCnt_keeps | apply State.hbmCapture_keeps
         | apply State.scrubMove_keeps)
    | split | with_reducible refine Keeps.lit rfl rfl rfl rfl rfl rfl ?_

end Sys2Proof.Machine
end

