-- ==== Sys2Proof/Laws/KeepsPcie.lean ====
section
/-! SUPPORT. Laws/KeepsPcie.lean: every operation and command of Machine/Pcie.lean, Machine/Offload.lean, Machine/Service.lean keeps what `Keeps` names. -/

namespace Sys2Proof.Machine

/-! ### Machine/Pcie.lean -/

set_option maxHeartbeats 200000
theorem State.msixFlush_keeps {s0 s : State} (h : Keeps s0 s) (x1) : Keeps s0 (State.msixFlush s x1) := by
  simp only [State.msixFlush]
  repeat' first
    | (with_reducible first
         | exact h | assumption | apply State.setFn_keeps | apply State.emit_keeps | apply State.cnt_keeps
         | apply Keeps.foldl)
    | intro u _ hu | split

theorem State.vecWrite_keeps {s0 s : State} (h : Keeps s0 s) (x1 x2 x3) : Keeps s0 (State.vecWrite s x1 x2 x3) := by
  simp only [State.vecWrite]
  repeat' (with_reducible first | exact h | apply State.setFn_keeps | apply State.msixFlush_keeps)

theorem State.issueReads_keeps {s0 s : State} (h : Keeps s0 s) (x1 x2 x3 x4 x5) : ∀ t, State.issueReads s x1 x2 x3 x4 x5 = some t → Keeps s0 t := by
  induction x5 generalizing s x1 x2 x3 x4 with
  | nil =>
    intro t ht; simp only [State.issueReads] at ht
    repeat' first
      | (simp only [Option.some.injEq, reduceCtorEq] at ht) | (obtain ⟨rfl, _⟩ := ht) | with_reducible exact h
  | cons x l ih =>
    intro t ht; simp only [State.issueReads] at ht
    repeat' first
      | (split at ht) | (simp only [Option.some.injEq, reduceCtorEq] at ht)
      | (with_reducible first | exact h | apply State.emit_keeps | apply State.cnt_keeps)
      | (refine ih ?_ _ _ _ _ _ (by assumption))
      | with_reducible refine Keeps.lit rfl rfl rfl rfl rfl rfl ?_

theorem State.errMessage_keeps {s0 s : State} (h : Keeps s0 s) (x1 x2) : Keeps s0 (State.errMessage s x1 x2) := by
  simp only [State.errMessage]
  repeat' first
    | (with_reducible first | exact h | apply State.emit_keeps) | split

theorem State.aerCor_keeps {s0 s : State} (h : Keeps s0 s) (x1 x2) : Keeps s0 (State.aerCor s x1 x2) := by
  simp only [State.aerCor]
  repeat' first
    | (with_reducible first | exact h | apply State.setFn_keeps | apply State.errMessage_keeps) | split

theorem State.aerUncor_keeps {s0 s : State} (h : Keeps s0 s) (x1 x2 x3) : Keeps s0 (State.aerUncor s x1 x2 x3) := by
  simp only [State.aerUncor]
  repeat' first
    | (with_reducible first
         | exact h | apply State.setFn_keeps | apply State.draw_keeps | apply State.errMessage_keeps
         | apply State.aerCor_keeps)
    | split

theorem State.unsupportedReq_keeps {s0 s : State} (h : Keeps s0 s) (x1 x2) : Keeps s0 (State.unsupportedReq s x1 x2) := by
  simp only [State.unsupportedReq]
  repeat' first
    | (with_reducible first
         | exact h | apply State.setFn_keeps | apply State.emit_keeps | apply State.cnt_keeps
         | apply State.aerUncor_keeps)
    | split

theorem execAspmL1Entry_keeps {s0 s : State} (h : Keeps s0 s) : ∀ t, execAspmL1Entry s = .next t → Keeps s0 t := by
  intro t ht; simp only [execAspmL1Entry, Host.Outcome.next.injEq] at ht
  subst ht
  repeat' first
    | (with_reducible first | exact h | assumption | apply State.wr_keeps | apply State.gate_keeps) | intro u hu
    | split

theorem execPcieL1Exit_keeps {s0 s : State} (h : Keeps s0 s) : ∀ t, execPcieL1Exit s = .next t → Keeps s0 t := by
  intro t ht; simp only [execPcieL1Exit, Host.Outcome.next.injEq] at ht
  subst ht
  repeat' first
    | (with_reducible first | exact h | assumption | apply State.wr_keeps | apply State.gate_keeps) | intro u hu

theorem State.retrain_keeps {s0 s : State} (h : Keeps s0 s) : Keeps s0 (State.retrain s) := by
  simp only [State.retrain]
  repeat' first
    | (with_reducible first | exact h | apply State.wr_keeps)
    | with_reducible refine Keeps.lit rfl rfl rfl rfl rfl rfl ?_

theorem execPcieRetrain_keeps {s0 s : State} (h : Keeps s0 s) : ∀ t, execPcieRetrain s = .next t → Keeps s0 t := by
  intro t ht; simp only [execPcieRetrain, Host.Outcome.next.injEq] at ht
  subst ht
  repeat' (with_reducible first | exact h | apply State.gate_keeps | apply State.retrain_keeps)

theorem State.completerAbort_keeps {s0 s : State} (h : Keeps s0 s) (x1 x2) : Keeps s0 (State.completerAbort s x1 x2) := by
  simp only [State.completerAbort]
  repeat' first
    | (with_reducible first | exact h | apply State.emit_keeps | apply State.cnt_keeps | apply State.aerUncor_keeps)
    | split

theorem State.linkTrain_keeps {s0 s : State} (h : Keeps s0 s) (x1 x2 x3) : Keeps s0 (State.linkTrain s x1 x2 x3) := by
  simp only [State.linkTrain]
  repeat' first
    | (with_reducible first
         | exact h | apply State.wr_keeps | apply State.cnt_keeps | apply State.wrAll_keeps
         | apply State.raiseIf_keeps)
    | split | with_reducible refine Keeps.lit rfl rfl rfl rfl rfl rfl ?_

theorem State.setTag_keeps {s0 s : State} (h : Keeps s0 s) (x1 x2 x3) : Keeps s0 (State.setTag s x1 x2 x3) := by
  simp only [State.setTag]
  repeat' first
    | with_reducible exact h | with_reducible refine Keeps.lit rfl rfl rfl rfl rfl rfl ?_

theorem State.pceView_keeps {s0 s : State} (h : Keeps s0 s) : Keeps s0 (State.pceView s) := by
  simp only [State.pceView]
  repeat' (with_reducible first | exact h | apply State.wr_keeps | apply State.put_keeps)

theorem execMsixUnmask_keeps {s0 s : State} (h : Keeps s0 s) (x0 x1) : ∀ t, execMsixUnmask x0 x1 s = .next t → Keeps s0 t := by
  intro t ht; simp only [execMsixUnmask, Host.Outcome.next.injEq] at ht
  subst ht
  repeat' first
    | (with_reducible first
         | exact h | assumption | apply State.setFn_keeps | apply State.gate_keeps | apply State.msixFlush_keeps)
    | intro u hu | split

theorem execPcieLinkTrain_keeps {s0 s : State} (h : Keeps s0 s) (x0 x1 x2) : ∀ t, execPcieLinkTrain x0 x1 x2 s = .next t → Keeps s0 t := by
  intro t ht; simp only [execPcieLinkTrain, Host.Outcome.next.injEq] at ht
  subst ht
  repeat' first
    | (with_reducible first | exact h | assumption | apply State.gate_keeps | apply State.linkTrain_keeps)
    | intro u hu | split

theorem execTagQuarantineExpiry_keeps {s0 s : State} (h : Keeps s0 s) (x0 x1) : ∀ t, execTagQuarantineExpiry x0 x1 s = .next t → Keeps s0 t := by
  intro t ht; simp only [execTagQuarantineExpiry, Host.Outcome.next.injEq] at ht
  subst ht
  repeat' first
    | (with_reducible first
         | exact h | assumption | apply State.gate_keeps | apply State.setTag_keeps | apply State.pceView_keeps)
    | intro u hu | split

/-! ### Machine/Offload.lean -/

set_option maxHeartbeats 200000
theorem State.nvWrite_keeps {s0 s : State} (h : Keeps s0 s) (x1) : Keeps s0 (State.nvWrite s x1) := by
  simp only [State.nvWrite]
  repeat' first
    | (with_reducible first | exact h | apply State.raise_keeps | apply State.result_keeps) | split
    | with_reducible refine Keeps.lit rfl rfl rfl rfl rfl rfl ?_

theorem execNvWrite_keeps {s0 s : State} (h : Keeps s0 s) (x0) : ∀ t, execNvWrite x0 s = .next t → Keeps s0 t := by
  intro t ht; simp only [execNvWrite, Host.Outcome.next.injEq] at ht
  subst ht
  repeat' first
    | (with_reducible first | exact h | assumption | apply State.lineGate_keeps | apply State.nvWrite_keeps)
    | intro u hu

theorem State.ipsPick_keeps {s0 s : State} (h : Keeps s0 s) (x1) : ∀ r, State.ipsPick s x1 = some r → Keeps s0 r.2 := by
  induction x1 generalizing s with
  | zero =>
    intro r ht; simp only [State.ipsPick] at ht
    repeat' ((simp only [Option.some.injEq, reduceCtorEq] at ht))
  | succ x ih =>
    intro r ht; simp only [State.ipsPick] at ht
    repeat' first
      | (split at ht) | (simp only [Option.some.injEq, reduceCtorEq] at ht) | (obtain ⟨rfl, _⟩ := ht)
      | with_reducible exact h | (refine ih ?_ _ (by assumption))
      | with_reducible refine Keeps.lit rfl rfl rfl rfl rfl rfl ?_

theorem State.ipsError_keeps {s0 s : State} (h : Keeps s0 s) (x1 x2 x3) : Keeps s0 (State.ipsError s x1 x2 x3) := by
  simp only [State.ipsError]
  repeat' (with_reducible first | exact h | apply State.raise_keeps | apply State.result_keeps)

theorem State.kwUnwrap_keeps {s0 s : State} (h : Keeps s0 s) (x1 x2 x3 x4 x5) : Keeps s0 (State.kwUnwrap s x1 x2 x3 x4 x5) := by
  simp only [State.kwUnwrap]
  repeat' first
    | (with_reducible first
         | exact h | assumption | apply State.wr_keeps | apply State.result_keeps | apply State.ipsError_keeps
         | apply Keeps.foldl)
    | intro u _ hu | split

theorem execKwUnwrap_keeps {s0 s : State} (h : Keeps s0 s) (x0 x1 x2 x3 x4) : ∀ t, execKwUnwrap x0 x1 x2 x3 x4 s = .next t → Keeps s0 t := by
  intro t ht; simp only [execKwUnwrap, Host.Outcome.next.injEq] at ht
  subst ht
  repeat' first
    | (with_reducible first | exact h | assumption | apply State.lineGate_keeps | apply State.kwUnwrap_keeps)
    | intro u hu

theorem execIpsSaAbort_keeps {s0 s : State} (h : Keeps s0 s) : ∀ t, execIpsSaAbort s = .next t → Keeps s0 t := by
  intro t ht; simp only [execIpsSaAbort, Host.Outcome.next.injEq] at ht
  subst ht
  repeat' first
    | (with_reducible first | exact h | assumption | apply State.lineGate_keeps | apply State.resLate_keeps)
    | intro u hu

theorem execKwAbort_keeps {s0 s : State} (h : Keeps s0 s) : ∀ t, execKwAbort s = .next t → Keeps s0 t := by
  intro t ht; simp only [execKwAbort, Host.Outcome.next.injEq] at ht
  subst ht
  repeat' first
    | (with_reducible first | exact h | assumption | apply State.lineGate_keeps | apply State.resLate_keeps)
    | intro u hu

theorem State.nvUnsync_keeps {s0 s : State} (h : Keeps s0 s) (x1 x2 x3) : Keeps s0 (State.nvUnsync s x1 x2 x3) := by
  simp only [State.nvUnsync]
  repeat' first
    | (with_reducible first | exact h | apply State.cnt_keeps | apply State.raise_keeps) | split
    | with_reducible refine Keeps.lit rfl rfl rfl rfl rfl rfl ?_

theorem State.nvTx_keeps {s0 s : State} (h : Keeps s0 s) (x1 x2 x3) : Keeps s0 (State.nvTx s x1 x2 x3).1 := by
  simp only [State.nvTx]
  repeat' first
    | (with_reducible first | exact h | apply State.nvUnsync_keeps) | split
    | with_reducible refine Keeps.lit rfl rfl rfl rfl rfl rfl ?_

theorem execNvRead_keeps {s0 s : State} (h : Keeps s0 s) (x0) : ∀ t, execNvRead x0 s = .next t → Keeps s0 t := by
  intro t ht; simp only [execNvRead, Host.Outcome.next.injEq] at ht
  subst ht
  repeat' first
    | (with_reducible first | exact h | assumption | apply State.lineGate_keeps | apply State.result_keeps)
    | intro u hu

theorem State.ipsSaInvalidate_keeps {s0 s : State} (h : Keeps s0 s) (x1) : Keeps s0 (State.ipsSaInvalidate s x1) := by
  simp only [State.ipsSaInvalidate]
  repeat' first
    | (with_reducible first | exact h | apply State.result_keeps) | split
    | with_reducible refine Keeps.lit rfl rfl rfl rfl rfl rfl ?_

theorem State.kwCheck_keeps {s0 s : State} (h : Keeps s0 s) (x1 x2 x3) : Keeps s0 (State.kwCheck s x1 x2 x3) := by
  simp only [State.kwCheck]
  repeat' first
    | (with_reducible first | exact h | apply State.result_keeps | apply State.ipsError_keeps) | split

theorem State.nvResync_keeps {s0 s : State} (h : Keeps s0 s) (x1 x2) : Keeps s0 (State.nvResync s x1 x2) := by
  simp only [State.nvResync]
  repeat' first
    | (with_reducible first | exact h | apply State.result_keeps) | split
    | with_reducible refine Keeps.lit rfl rfl rfl rfl rfl rfl ?_

theorem execNvResyncTx_keeps {s0 s : State} (h : Keeps s0 s) (x0) : ∀ t, execNvResyncTx x0 s = .next t → Keeps s0 t := by
  intro t ht; simp only [execNvResyncTx, Host.Outcome.next.injEq] at ht
  subst ht
  repeat' first
    | (with_reducible first | exact h | assumption | apply State.lineGate_keeps | apply State.nvResync_keeps)
    | intro u hu

theorem execIpsSaInvalidate_keeps {s0 s : State} (h : Keeps s0 s) (x0) : ∀ t, execIpsSaInvalidate x0 s = .next t → Keeps s0 t := by
  intro t ht; simp only [execIpsSaInvalidate, Host.Outcome.next.injEq] at ht
  subst ht
  repeat' first
    | (with_reducible first | exact h | assumption | apply State.lineGate_keeps | apply State.ipsSaInvalidate_keeps)
    | intro u hu

theorem execNvResyncRx_keeps {s0 s : State} (h : Keeps s0 s) (x0) : ∀ t, execNvResyncRx x0 s = .next t → Keeps s0 t := by
  intro t ht; simp only [execNvResyncRx, Host.Outcome.next.injEq] at ht
  subst ht
  repeat' first
    | (with_reducible first | exact h | assumption | apply State.lineGate_keeps | apply State.nvResync_keeps)
    | intro u hu

theorem State.nvFetch_keeps {s0 s : State} (h : Keeps s0 s) (x1 x2 x3) : Keeps s0 (State.nvFetch s x1 x2 x3) := by
  simp only [State.nvFetch]
  repeat' first
    | (with_reducible first | exact h | assumption | apply State.fetch_keeps | apply Keeps.foldl) | intro u _ hu

theorem State.nvRx_keeps {s0 s : State} (h : Keeps s0 s) (x1 x2 x3 x4 x5 x6) : Keeps s0 (State.nvRx s x1 x2 x3 x4 x5 x6).1 := by
  simp only [State.nvRx]
  repeat' first
    | (with_reducible first
         | exact h | apply State.bump_keeps | apply State.raiseIf_keeps | apply State.nvUnsync_keeps
         | apply State.nvFetch_keeps)
    | split | with_reducible refine Keeps.lit rfl rfl rfl rfl rfl rfl ?_

theorem State.ipsView_keeps {s0 s : State} (h : Keeps s0 s) : Keeps s0 (State.ipsView s) := by
  simp only [State.ipsView]
  repeat' (with_reducible first | exact h | apply State.put_keeps)

theorem State.ipsHostPut_keeps {s0 s : State} (h : Keeps s0 s) (x1) : Keeps s0 (State.ipsHostPut s x1) := by
  simp only [State.ipsHostPut]
  repeat' first
    | (with_reducible first | exact h | apply State.ipsView_keeps)
    | with_reducible refine Keeps.lit rfl rfl rfl rfl rfl rfl ?_

theorem State.ipsSaWrite_keeps {s0 s : State} (h : Keeps s0 s) (x1) : Keeps s0 (State.ipsSaWrite s x1) := by
  simp only [State.ipsSaWrite]
  repeat' first
    | (with_reducible first | exact h | apply State.result_keeps | apply State.ipsError_keeps) | split
    | with_reducible refine Keeps.lit rfl rfl rfl rfl rfl rfl ?_

theorem execIpsSaWrite_keeps {s0 s : State} (h : Keeps s0 s) (x0) : ∀ t, execIpsSaWrite x0 s = .next t → Keeps s0 t := by
  intro t ht; simp only [execIpsSaWrite, Host.Outcome.next.injEq] at ht
  subst ht
  repeat' first
    | (with_reducible first | exact h | assumption | apply State.lineGate_keeps | apply State.ipsSaWrite_keeps)
    | intro u hu

theorem State.ipsTake_keeps {s0 s : State} (h : Keeps s0 s) (x1) : ∀ r, State.ipsTake s x1 = some r → Keeps s0 r.2 := by
  intro r ht; simp only [State.ipsTake] at ht
  repeat' first
    | (split at ht) | (simp only [Option.some.injEq, reduceCtorEq] at ht) | (obtain ⟨rfl, _⟩ := ht)
    | (with_reducible first | exact h | apply State.ipsView_keeps)
    | (refine State.ipsPick_keeps (s0 := s0) ?_ _ _ (by assumption))
    | with_reducible refine Keeps.lit rfl rfl rfl rfl rfl rfl ?_

theorem State.ipsSaDrop_keeps {s0 s : State} (h : Keeps s0 s) : Keeps s0 (State.ipsSaDrop s) := by
  simp only [State.ipsSaDrop]
  repeat' (with_reducible first | exact h | apply State.cnt_keeps)

theorem State.ipsLoop_keeps {s0 s : State} (h : Keeps s0 s) (x1 x2 x3 x4 x5) : Keeps s0 (State.ipsLoop s x1 x2 x3 x4 x5) := by
  simp only [State.ipsLoop]
  repeat' first
    | with_reducible exact h | with_reducible refine Keeps.lit rfl rfl rfl rfl rfl rfl ?_

theorem State.ipsEncrypt_keeps {s0 s : State} (h : Keeps s0 s) (x1) : Keeps s0 (State.ipsEncrypt s x1) := by
  simp only [State.ipsEncrypt]
  repeat' first
    | (with_reducible first
         | exact h | apply State.bump_keeps | apply State.cnt_keeps | apply State.raise_keeps
         | apply State.raiseIf_keeps | apply State.ipsSaDrop_keeps | apply State.ipsLoop_keeps)
    | split | with_reducible refine Keeps.lit rfl rfl rfl rfl rfl rfl ?_

theorem execIpsEncrypt_keeps {s0 s : State} (h : Keeps s0 s) : ∀ t, execIpsEncrypt s = .next t → Keeps s0 t := by
  intro t ht; simp only [execIpsEncrypt, Host.Outcome.next.injEq] at ht
  subst ht
  repeat' first
    | (with_reducible first | exact h | apply State.ipsEncrypt_keeps) | split
    | (refine State.ipsTake_keeps (s0 := s0) ?_ _ _ (by assumption))

theorem State.ipsDecrypt_keeps {s0 s : State} (h : Keeps s0 s) (x1) : Keeps s0 (State.ipsDecrypt s x1) := by
  simp only [State.ipsDecrypt]
  repeat' first
    | (with_reducible first
         | exact h | apply State.bump_keeps | apply State.cnt_keeps | apply State.raise_keeps
         | apply State.ipsSaDrop_keeps | apply State.ipsLoop_keeps)
    | split | with_reducible refine Keeps.lit rfl rfl rfl rfl rfl rfl ?_

theorem State.ipsSaRead_keeps {s0 s : State} (h : Keeps s0 s) (x1) : Keeps s0 (State.ipsSaRead s x1) := by
  simp only [State.ipsSaRead]
  repeat' (with_reducible first | exact h | apply State.result_keeps)

theorem execIpsSaRead_keeps {s0 s : State} (h : Keeps s0 s) (x0) : ∀ t, execIpsSaRead x0 s = .next t → Keeps s0 t := by
  intro t ht; simp only [execIpsSaRead, Host.Outcome.next.injEq] at ht
  subst ht
  repeat' first
    | (with_reducible first | exact h | assumption | apply State.lineGate_keeps | apply State.ipsSaRead_keeps)
    | intro u hu

theorem State.kwWrap_keeps {s0 s : State} (h : Keeps s0 s) (x1 x2 x3) : Keeps s0 (State.kwWrap s x1 x2 x3) := by
  simp only [State.kwWrap]
  repeat' first
    | (with_reducible first | exact h | apply State.result_keeps | apply State.ipsError_keeps) | split

theorem execKwCheck_keeps {s0 s : State} (h : Keeps s0 s) (x0 x1 x2) : ∀ t, execKwCheck x0 x1 x2 s = .next t → Keeps s0 t := by
  intro t ht; simp only [execKwCheck, Host.Outcome.next.injEq] at ht
  subst ht
  repeat' first
    | (with_reducible first | exact h | assumption | apply State.lineGate_keeps | apply State.kwCheck_keeps)
    | intro u hu

theorem State.kwLoadKek_keeps {s0 s : State} (h : Keeps s0 s) (x1 x2) : Keeps s0 (State.kwLoadKek s x1 x2) := by
  simp only [State.kwLoadKek]
  repeat' first
    | (with_reducible first | exact h | apply State.result_keeps | apply State.ipsError_keeps) | split
    | with_reducible refine Keeps.lit rfl rfl rfl rfl rfl rfl ?_

theorem execKwLoadKek_keeps {s0 s : State} (h : Keeps s0 s) (x0 x1) : ∀ t, execKwLoadKek x0 x1 s = .next t → Keeps s0 t := by
  intro t ht; simp only [execKwLoadKek, Host.Outcome.next.injEq] at ht
  subst ht
  repeat' first
    | (with_reducible first | exact h | assumption | apply State.lineGate_keeps | apply State.kwLoadKek_keeps)
    | intro u hu

theorem State.kekCfgWrite_keeps {s0 s : State} (h : Keeps s0 s) (x1) : Keeps s0 (State.kekCfgWrite s x1) := by
  simp only [State.kekCfgWrite]
  repeat' first
    | with_reducible exact h | split
    | with_reducible refine Keeps.lit rfl rfl rfl rfl rfl rfl ?_

theorem execKwWrap_keeps {s0 s : State} (h : Keeps s0 s) (x0 x1 x2) : ∀ t, execKwWrap x0 x1 x2 s = .next t → Keeps s0 t := by
  intro t ht; simp only [execKwWrap, Host.Outcome.next.injEq] at ht
  subst ht
  repeat' first
    | (with_reducible first | exact h | assumption | apply State.lineGate_keeps | apply State.kwWrap_keeps)
    | intro u hu

theorem execIpsDecrypt_keeps {s0 s : State} (h : Keeps s0 s) : ∀ t, execIpsDecrypt s = .next t → Keeps s0 t := by
  intro t ht; simp only [execIpsDecrypt, Host.Outcome.next.injEq] at ht
  subst ht
  repeat' first
    | (with_reducible first | exact h | apply State.ipsDecrypt_keeps) | split
    | (refine State.ipsTake_keeps (s0 := s0) ?_ _ _ (by assumption))

theorem State.ipsTransitPut_keeps {s0 s : State} (h : Keeps s0 s) (x1) : Keeps s0 (State.ipsTransitPut s x1) := by
  simp only [State.ipsTransitPut]
  repeat' first
    | (with_reducible first | exact h | apply State.cnt_keeps | apply State.ipsView_keeps) | split
    | with_reducible refine Keeps.lit rfl rfl rfl rfl rfl rfl ?_

/-! ### Machine/Service.lean -/

set_option maxHeartbeats 200000
theorem State.flowAccess_keeps {s0 s : State} (h : Keeps s0 s) (x1 x2) : Keeps s0 (State.flowAccess s x1 x2) := by
  simp only [State.flowAccess]
  repeat' (with_reducible first | exact h | apply State.hbmPost_keeps)

theorem State.sendTo_keeps {s0 s : State} (h : Keeps s0 s) (x1 x2 x3 x4 x5) : Keeps s0 (State.sendTo s x1 x2 x3 x4 x5) := by
  simp only [State.sendTo]
  repeat' first
    | with_reducible exact h | with_reducible refine Keeps.lit rfl rfl rfl rfl rfl rfl ?_

theorem State.ipfixFrame_keeps {s0 s : State} (h : Keeps s0 s) (x1 x2) : Keeps s0 (State.ipfixFrame s x1 x2) := by
  simp only [State.ipfixFrame]
  repeat' first
    | (with_reducible first | exact h | apply State.sendTo_keeps)
    | with_reducible refine Keeps.lit rfl rfl rfl rfl rfl rfl ?_

theorem execIpfixTemplateSend_keeps {s0 s : State} (h : Keeps s0 s) : ∀ t, execIpfixTemplateSend s = .next t → Keeps s0 t := by
  intro t ht; simp only [execIpfixTemplateSend, Host.Outcome.next.injEq] at ht
  subst ht
  repeat' first
    | (with_reducible first | exact h | apply State.ipfixFrame_keeps) | split
    | with_reducible refine Keeps.lit rfl rfl rfl rfl rfl rfl ?_

theorem State.svcView_keeps {s0 s : State} (h : Keeps s0 s) : Keeps s0 (State.svcView s) := by
  simp only [State.svcView]
  repeat' first
    | (with_reducible first | exact h | apply State.wr_keeps | apply State.wrAll_keeps) | split

theorem execSessDelete_keeps {s0 s : State} (h : Keeps s0 s) (x0) : ∀ t, execSessDelete x0 s = .next t → Keeps s0 t := by
  intro t ht; simp only [execSessDelete, Host.Outcome.next.injEq] at ht
  subst ht
  repeat' first
    | (with_reducible first
         | exact h | assumption | apply State.gate_keeps | apply State.result_keeps | apply State.svcView_keeps)
    | intro u hu | with_reducible refine Keeps.lit rfl rfl rfl rfl rfl rfl ?_

theorem State.svcError_keeps {s0 s : State} (h : Keeps s0 s) (x1 x2 x3) : Keeps s0 (State.svcError s x1 x2 x3) := by
  simp only [State.svcError]
  repeat' (with_reducible first | exact h | apply State.raise_keeps | apply State.result_keeps)

theorem State.sessLoad_keeps {s0 s : State} (h : Keeps s0 s) (x1) : Keeps s0 (State.sessLoad s x1) := by
  simp only [State.sessLoad]
  repeat' first
    | (with_reducible first | exact h | assumption | apply State.wr_keeps | apply Keeps.foldl) | intro u _ hu

theorem State.svcTplRead_keeps {s0 s : State} (h : Keeps s0 s) (x1) : Keeps s0 (State.svcTplRead s x1) := by
  simp only [State.svcTplRead]
  repeat' first
    | (with_reducible first
         | exact h | apply State.result_keeps | apply State.svcError_keeps | apply State.sessLoad_keeps)
    | split

theorem State.toSp_keeps {s0 s : State} (h : Keeps s0 s) (x1) : Keeps s0 (State.toSp s x1) := by
  simp only [State.toSp]
  repeat' first
    | (with_reducible first | exact h | apply State.emit_keeps | apply State.cnt_keeps) | split

theorem State.rspSend_keeps {s0 s : State} (h : Keeps s0 s) (x1 x2 x3 x4 x5) : Keeps s0 (State.rspSend s x1 x2 x3 x4 x5) := by
  simp only [State.rspSend]
  repeat' (with_reducible first | exact h | apply State.cnt_keeps | apply State.sendTo_keeps)

theorem State.respond_keeps {s0 s : State} (h : Keeps s0 s) (x1) : Keeps s0 (State.respond s x1) := by
  simp only [State.respond]
  repeat' first
    | (with_reducible first | exact h | apply State.draw_keeps | apply State.toSp_keeps | apply State.rspSend_keeps)
    | split

theorem execResponderFrame_keeps {s0 s : State} (h : Keeps s0 s) : ∀ t, execResponderFrame s = .next t → Keeps s0 t := by
  intro t ht; simp only [execResponderFrame, Host.Outcome.next.injEq] at ht
  subst ht
  repeat' first
    | (with_reducible first | exact h | assumption | apply State.gate_keeps | apply State.respond_keeps) | intro u hu
    | split | with_reducible refine Keeps.lit rfl rfl rfl rfl rfl rfl ?_

theorem State.bfdSend_keeps {s0 s : State} (h : Keeps s0 s) (x1) : Keeps s0 (State.bfdSend s x1) := by
  simp only [State.bfdSend]
  repeat' (with_reducible first | exact h | apply State.draw_keeps | apply State.cnt_keeps | apply State.sendTo_keeps)

theorem State.svcTplWrite_keeps {s0 s : State} (h : Keeps s0 s) (x1) : Keeps s0 (State.svcTplWrite s x1) := by
  simp only [State.svcTplWrite]
  repeat' first
    | (with_reducible first | exact h | apply State.result_keeps | apply State.svcError_keeps) | split
    | with_reducible refine Keeps.lit rfl rfl rfl rfl rfl rfl ?_

theorem execTplWriteSvc_keeps {s0 s : State} (h : Keeps s0 s) (x0) : ∀ t, execTplWriteSvc x0 s = .next t → Keeps s0 t := by
  intro t ht; simp only [execTplWriteSvc, Host.Outcome.next.injEq] at ht
  subst ht
  repeat' first
    | (with_reducible first | exact h | assumption | apply State.gate_keeps | apply State.svcTplWrite_keeps)
    | intro u hu

theorem State.evtPop_keeps {s0 s : State} (h : Keeps s0 s) (x1) : Keeps s0 (State.evtPop s x1) := by
  simp only [State.evtPop]
  repeat' first
    | (with_reducible first | exact h | apply State.svcView_keeps) | split
    | with_reducible refine Keeps.lit rfl rfl rfl rfl rfl rfl ?_

theorem execEvtPop_keeps {s0 s : State} (h : Keeps s0 s) (x0) : ∀ t, execEvtPop x0 s = .next t → Keeps s0 t := by
  intro t ht; simp only [execEvtPop, Host.Outcome.next.injEq] at ht
  subst ht
  repeat' first
    | (with_reducible first | exact h | assumption | apply State.gate_keeps | apply State.evtPop_keeps) | intro u hu

theorem State.flowVisit_keeps {s0 s : State} (h : Keeps s0 s) : Keeps s0 (State.flowVisit s) := by
  simp only [State.flowVisit]
  repeat' first
    | (with_reducible first | exact h | assumption | apply State.flowAccess_keeps | apply Keeps.foldl) | intro u _ hu
    | split

theorem State.svcDrop_keeps {s0 s : State} (h : Keeps s0 s) : Keeps s0 (State.svcDrop s) := by
  simp only [State.svcDrop]
  repeat' (with_reducible first | exact h | apply State.cnt_keeps)

theorem State.bfdDown_keeps {s0 s : State} (h : Keeps s0 s) (x1 x2) : Keeps s0 (State.bfdDown s x1 x2) := by
  simp only [State.bfdDown]
  repeat' first
    | (with_reducible first | exact h | apply State.cnt_keeps | apply State.raise_keeps | apply State.svcView_keeps)
    | split | with_reducible refine Keeps.lit rfl rfl rfl rfl rfl rfl ?_

theorem execBfdDetectTimeout_keeps {s0 s : State} (h : Keeps s0 s) (x0) : ∀ t, execBfdDetectTimeout x0 s = .next t → Keeps s0 t := by
  intro t ht; simp only [execBfdDetectTimeout, Host.Outcome.next.injEq] at ht
  subst ht
  repeat' first
    | (with_reducible first | exact h | apply State.cnt_keeps | apply State.bfdDown_keeps) | split

theorem execBfdTxTimer_keeps {s0 s : State} (h : Keeps s0 s) (x0) : ∀ t, execBfdTxTimer x0 s = .next t → Keeps s0 t := by
  intro t ht; simp only [execBfdTxTimer, Host.Outcome.next.injEq] at ht
  subst ht
  repeat' first
    | (with_reducible first | exact h | apply State.bfdSend_keeps) | split
    | with_reducible refine Keeps.lit rfl rfl rfl rfl rfl rfl ?_

theorem State.flowPut_keeps {s0 s : State} (h : Keeps s0 s) (n : Nat) (x : Flow) :
    Keeps s0 (({ s with flows := tset s.flows n x }.flowAccess n true).cnt pgSVC SVC.SVC_CNT 5).svcView := by
  refine State.svcView_keeps (State.cnt_keeps (State.flowAccess_keeps ?_ _ _) _ _ _)
  exact Keeps.lit rfl rfl rfl rfl rfl rfl h

theorem State.flowUpdate_keeps {s0 s : State} (h : Keeps s0 s) (x1) : Keeps s0 (State.flowUpdate s x1) := by
  unfold State.flowUpdate
  extract_lets c holds empty s1 put
  have h1 : Keeps s0 s1 := State.flowAccess_keeps (State.flowAccess_keeps h _ _) _ _
  clear_value s1 holds empty c
  have hp : ∀ k, Keeps s0 (put k) := fun k => State.flowPut_keeps h1 _ _
  clear_value put
  repeat' first
    | exact hp _ | exact State.raise_keeps (State.cnt_keeps h1 _ _ _) _ _ | split

theorem execIpfixUpdate_keeps {s0 s : State} (h : Keeps s0 s) : ∀ t, execIpfixUpdate s = .next t → Keeps s0 t := by
  intro t ht; simp only [execIpfixUpdate, Host.Outcome.next.injEq] at ht
  subst ht
  split
  · exact h
  · split
    · exact State.flowUpdate_keeps (Keeps.lit rfl rfl rfl rfl rfl rfl h) _
    · exact h

theorem execSessRead_keeps {s0 s : State} (h : Keeps s0 s) (x0) : ∀ t, execSessRead x0 s = .next t → Keeps s0 t := by
  intro t ht; simp only [execSessRead, Host.Outcome.next.injEq] at ht
  subst ht
  repeat' first
    | (with_reducible first
         | exact h | assumption | apply State.gate_keeps | apply State.result_keeps | apply State.sessLoad_keeps)
    | intro u hu

theorem State.ipfixSend_keeps {s0 s : State} (h : Keeps s0 s) (x1 x2 x3) : Keeps s0 (State.ipfixSend s x1 x2 x3) := by
  induction x2 generalizing s x1 x3 with
  | zero =>
    simp only [State.ipfixSend]
    repeat' (with_reducible exact h)
  | succ x ih =>
    simp only [State.ipfixSend]
    repeat' first
      | (with_reducible first | exact h | apply ih | apply State.bump_keeps | apply State.ipfixFrame_keeps) | split

theorem execIpfixSweep_keeps {s0 s : State} (h : Keeps s0 s) : ∀ t, execIpfixSweep s = .next t → Keeps s0 t := by
  intro t ht; simp only [execIpfixSweep, Host.Outcome.next.injEq] at ht
  subst ht
  repeat' first
    | (with_reducible first
         | exact h | apply State.svcView_keeps | apply State.flowVisit_keeps | apply State.ipfixSend_keeps)
    | split | with_reducible refine Keeps.lit rfl rfl rfl rfl rfl rfl ?_

theorem State.ipfixSample_keeps {s0 s : State} (h : Keeps s0 s) (x1) : Keeps s0 (State.ipfixSample s x1) := by
  simp only [State.ipfixSample]
  repeat' first
    | (with_reducible first | exact h | apply State.cnt_keeps) | split
    | with_reducible refine Keeps.lit rfl rfl rfl rfl rfl rfl ?_

theorem State.wakePf1_keeps {s0 s : State} (h : Keeps s0 s) (x1) : Keeps s0 (State.wakePf1 s x1) := by
  simp only [State.wakePf1]
  repeat' first
    | (with_reducible first | exact h | apply State.wr_keeps | apply State.cnt_keeps | apply State.raise_keeps)
    | split

theorem State.serviceDispatch_keeps {s0 s : State} (h : Keeps s0 s) (x1) : Keeps s0 (State.serviceDispatch s x1) := by
  simp only [State.serviceDispatch]
  repeat' first
    | (with_reducible first
         | exact h | apply State.ipsTransitPut_keeps | apply State.toSp_keeps | apply State.svcDrop_keeps
         | apply State.wakePf1_keeps)
    | split | with_reducible refine Keeps.lit rfl rfl rfl rfl rfl rfl ?_

theorem State.bfdRx_keeps {s0 s : State} (h : Keeps s0 s) (x1) : Keeps s0 (State.bfdRx s x1) := by
  simp only [State.bfdRx]
  repeat' first
    | (with_reducible first
         | exact h | apply State.cnt_keeps | apply State.toSp_keeps | apply State.svcDrop_keeps
         | apply State.bfdDown_keeps)
    | split | with_reducible refine Keeps.lit rfl rfl rfl rfl rfl rfl ?_

theorem execBfdRxPacket_keeps {s0 s : State} (h : Keeps s0 s) : ∀ t, execBfdRxPacket s = .next t → Keeps s0 t := by
  intro t ht; simp only [execBfdRxPacket, Host.Outcome.next.injEq] at ht
  subst ht
  repeat' first
    | (with_reducible first | exact h | assumption | apply State.gate_keeps | apply State.bfdRx_keeps) | intro u hu
    | split | with_reducible refine Keeps.lit rfl rfl rfl rfl rfl rfl ?_

theorem State.svcCtlWrite_keeps {s0 s : State} (h : Keeps s0 s) (x1) : Keeps s0 (State.svcCtlWrite s x1) := by
  simp only [State.svcCtlWrite]
  repeat' first
    | (with_reducible first | exact h | apply State.wrWord_keeps) | split
    | with_reducible refine Keeps.lit rfl rfl rfl rfl rfl rfl ?_

theorem execRspInvalidate_keeps {s0 s : State} (h : Keeps s0 s) (x0) : ∀ t, execRspInvalidate x0 s = .next t → Keeps s0 t := by
  intro t ht; simp only [execRspInvalidate, Host.Outcome.next.injEq] at ht
  subst ht
  repeat' first
    | (with_reducible first | exact h | assumption | apply State.gate_keeps | apply State.result_keeps) | intro u hu
    | with_reducible refine Keeps.lit rfl rfl rfl rfl rfl rfl ?_

theorem execTplReadSvc_keeps {s0 s : State} (h : Keeps s0 s) (x0) : ∀ t, execTplReadSvc x0 s = .next t → Keeps s0 t := by
  intro t ht; simp only [execTplReadSvc, Host.Outcome.next.injEq] at ht
  subst ht
  repeat' first
    | (with_reducible first | exact h | assumption | apply State.gate_keeps | apply State.svcTplRead_keeps)
    | intro u hu

theorem execRspRead_keeps {s0 s : State} (h : Keeps s0 s) (x0) : ∀ t, execRspRead x0 s = .next t → Keeps s0 t := by
  intro t ht; simp only [execRspRead, Host.Outcome.next.injEq] at ht
  subst ht
  repeat' first
    | (with_reducible first | exact h | assumption | apply State.gate_keeps | apply State.result_keeps) | intro u hu

theorem State.sessWrite_keeps {s0 s : State} (h : Keeps s0 s) (x1 x2 x3) : Keeps s0 (State.sessWrite s x1 x2 x3) := by
  simp only [State.sessWrite]
  repeat' first
    | (with_reducible first
         | exact h | apply State.result_keeps | apply State.svcView_keeps | apply State.svcError_keeps)
    | split | with_reducible refine Keeps.lit rfl rfl rfl rfl rfl rfl ?_

theorem execSessWrite_keeps {s0 s : State} (h : Keeps s0 s) (x0 x1 x2) : ∀ t, execSessWrite x0 x1 x2 s = .next t → Keeps s0 t := by
  intro t ht; simp only [execSessWrite, Host.Outcome.next.injEq] at ht
  subst ht
  repeat' first
    | (with_reducible first | exact h | assumption | apply State.gate_keeps | apply State.sessWrite_keeps)
    | intro u hu

theorem execRspWrite_keeps {s0 s : State} (h : Keeps s0 s) (x0) : ∀ t, execRspWrite x0 s = .next t → Keeps s0 t := by
  intro t ht; simp only [execRspWrite, Host.Outcome.next.injEq] at ht
  subst ht
  repeat' first
    | (with_reducible first | exact h | assumption | apply State.gate_keeps | apply State.result_keeps) | intro u hu
    | with_reducible refine Keeps.lit rfl rfl rfl rfl rfl rfl ?_

end Sys2Proof.Machine
end

