-- ==== Sys2Proof/Laws/KeepsHost.lean ====
section
/-! SUPPORT. Laws/KeepsHost.lean: every operation and command of Machine/Host.lean, Machine/PcieFn.lean keeps what `Keeps` names. -/

namespace Sys2Proof.Machine

/-! ### Machine/Host.lean -/

set_option maxHeartbeats 200000
theorem State.vfmDone_keeps {s0 s : State} (h : Keeps s0 s) (x1 x2) : Keeps s0 (State.vfmDone s x1 x2) := by
  simp only [State.vfmDone]
  repeat' (with_reducible first | exact h | apply State.result_keeps)

theorem execVfFreezeComplete_keeps {s0 s : State} (h : Keeps s0 s) : ∀ t, execVfFreezeComplete s = .next t → Keeps s0 t := by
  intro t ht; simp only [execVfFreezeComplete, Host.Outcome.next.injEq] at ht
  subst ht
  repeat' first
    | (with_reducible first | exact h | apply State.vfmDone_keeps) | split
    | with_reducible refine Keeps.lit rfl rfl rfl rfl rfl rfl ?_

theorem State.cqSignal_keeps {s0 s : State} (h : Keeps s0 s) (x1) : Keeps s0 (State.cqSignal s x1) := by
  simp only [State.cqSignal]
  repeat' first
    | (with_reducible first | exact h | apply State.setQp_keeps | apply State.msix_keeps) | split

theorem State.cqArm_keeps {s0 s : State} (h : Keeps s0 s) (x1) : Keeps s0 (State.cqArm s x1) := by
  simp only [State.cqArm]
  repeat' (with_reducible first | exact h | apply State.setQp_keeps | apply State.cqSignal_keeps)

theorem State.mbxPend_keeps {s0 s : State} (h : Keeps s0 s) (x1 x2) : Keeps s0 (State.mbxPend s x1 x2) := by
  simp only [State.mbxPend]
  repeat' (with_reducible first | exact h | apply State.wr_keeps)

theorem State.mbxSend_keeps {s0 s : State} (h : Keeps s0 s) (x1) : Keeps s0 (State.mbxSend s x1) := by
  simp only [State.mbxSend]
  repeat' first
    | (with_reducible first
         | exact h | apply State.setVf_keeps | apply State.cnt_keeps | apply State.raise_keeps
         | apply State.mbxPend_keeps)
    | split

theorem execMbxSend_keeps {s0 s : State} (h : Keeps s0 s) (x0) : ∀ t, execMbxSend x0 s = .next t → Keeps s0 t := by
  intro t ht; simp only [execMbxSend, Host.Outcome.next.injEq] at ht
  subst ht
  repeat' first
    | (with_reducible first | exact h | assumption | apply State.gate_keeps | apply State.mbxSend_keeps) | intro u hu
    | split

theorem State.qpCnt_keeps {s0 s : State} (h : Keeps s0 s) (x1 x2 x3) : Keeps s0 (State.qpCnt s x1 x2 x3) := by
  simp only [State.qpCnt]
  repeat' (with_reducible first | exact h | apply State.setQp_keeps)

theorem State.cqHeadWrite_keeps {s0 s : State} (h : Keeps s0 s) (x1 x2) : Keeps s0 (State.cqHeadWrite s x1 x2) := by
  simp only [State.cqHeadWrite]
  repeat' first
    | (with_reducible first | exact h | apply State.setQp_keeps | apply State.qpCnt_keeps) | split

theorem execCqHeadWrite_keeps {s0 s : State} (h : Keeps s0 s) (x0 x1) : ∀ t, execCqHeadWrite x0 x1 s = .next t → Keeps s0 t := by
  intro t ht; simp only [execCqHeadWrite, Host.Outcome.next.injEq] at ht
  subst ht
  repeat' first
    | (with_reducible first | exact h | assumption | apply State.gate_keeps | apply State.cqHeadWrite_keeps)
    | intro u hu | split

theorem State.vfmError_keeps {s0 s : State} (h : Keeps s0 s) (x1 x2) : Keeps s0 (State.vfmError s x1 x2) := by
  simp only [State.vfmError]
  repeat' (with_reducible first | exact h | apply State.raise_keeps | apply State.result_keeps)

theorem State.vfmCmd_keeps {s0 s : State} (h : Keeps s0 s) (x1 x2 x3 x4) (h4 : ∀ u, Keeps s0 u → Keeps s0 (x4 u)) : Keeps s0 (State.vfmCmd s x1 x2 x3 x4) := by
  simp only [State.vfmCmd]
  repeat' first
    | (with_reducible first | exact h | apply State.cnt_keeps | apply State.vfmError_keeps | apply h4) | split

theorem State.logMark_keeps {s0 s : State} (h : Keeps s0 s) (x1 x2 x3) : Keeps s0 (State.logMark s x1 x2 x3) := by
  simp only [State.logMark]
  repeat' first
    | (with_reducible first | exact h | apply State.setVf_keeps | apply State.cnt_keeps | apply State.raise_keeps)
    | split

theorem State.hostPut_keeps {s0 s : State} (h : Keeps s0 s) (x1 x2 x3 x4) : Keeps s0 (State.hostPut s x1 x2 x3 x4) := by
  simp only [State.hostPut]
  repeat' first
    | (with_reducible first | exact h | apply State.post_keeps | apply State.logMark_keeps) | split

theorem State.cqPut_keeps {s0 s : State} (h : Keeps s0 s) (x1 x2 x3 x4 x5 x6) : Keeps s0 (State.cqPut s x1 x2 x3 x4 x5 x6) := by
  simp only [State.cqPut]
  repeat' (with_reducible first
             | exact h | apply State.setQp_keeps | apply State.cqSignal_keeps | apply State.hostPut_keeps)

theorem State.txEnd_keeps {s0 s : State} (h : Keeps s0 s) (x1 x2 x3 x4) : Keeps s0 (State.txEnd s x1 x2 x3 x4) := by
  simp only [State.txEnd]
  repeat' (with_reducible first | exact h | apply State.setQp_keeps | apply State.cqPut_keeps)

theorem State.txOflError_keeps {s0 s : State} (h : Keeps s0 s) (x1 x2 x3) : Keeps s0 (State.txOflError s x1 x2 x3) := by
  simp only [State.txOflError]
  repeat' (with_reducible first | exact h | apply State.cnt_keeps | apply State.raise_keeps | apply State.txEnd_keeps)

theorem State.txHandOff_keeps {s0 s : State} (h : Keeps s0 s) (x1 x2 x3) : Keeps s0 (State.txHandOff s x1 x2 x3) := by
  simp only [State.txHandOff]
  repeat' first
    | with_reducible exact h | with_reducible refine Keeps.lit rfl rfl rfl rfl rfl rfl ?_

theorem State.txSend_keeps {s0 s : State} (h : Keeps s0 s) (x1 x2) : Keeps s0 (State.txSend s x1 x2) := by
  simp only [State.txSend]
  repeat' first
    | (with_reducible first
         | exact h | apply State.cnt_keeps | apply State.nvTx_keeps | apply State.ipsHostPut_keeps
         | apply State.qpCnt_keeps | apply State.txEnd_keeps | apply State.txOflError_keeps
         | apply State.txHandOff_keeps)
    | split

theorem State.txComplete_keeps {s0 s : State} (h : Keeps s0 s) (x1) : Keeps s0 (State.txComplete s x1) := by
  simp only [State.txComplete]
  repeat' first
    | (with_reducible first
         | exact h | apply State.setQp_keeps | apply State.cnt_keeps | apply State.raise_keeps
         | apply State.qpCnt_keeps | apply State.txEnd_keeps | apply State.txSend_keeps)
    | split

theorem execTxFrameComplete_keeps {s0 s : State} (h : Keeps s0 s) (x0) : ∀ t, execTxFrameComplete x0 s = .next t → Keeps s0 t := by
  intro t ht; simp only [execTxFrameComplete, Host.Outcome.next.injEq] at ht
  subst ht
  repeat' first
    | (with_reducible first | exact h | apply State.txComplete_keeps) | split

theorem State.qpRunDone_keeps {s0 s : State} (h : Keeps s0 s) (x1) : Keeps s0 (State.qpRunDone s x1) := by
  simp only [State.qpRunDone]
  repeat' first
    | (with_reducible first | exact h | apply State.result_keeps) | split
    | with_reducible refine Keeps.lit rfl rfl rfl rfl rfl rfl ?_

theorem State.logFlush_keeps {s0 s : State} (h : Keeps s0 s) (x1 x2) : Keeps s0 (State.logFlush s x1 x2) := by
  induction x2 generalizing s x1 with
  | nil =>
    simp only [State.logFlush]
    repeat' (with_reducible exact h)
  | cons x l ih =>
    simp only [State.logFlush]
    repeat' first
      | (with_reducible first
           | exact h | apply ih | apply State.setVf_keeps | apply State.cnt_keeps | apply State.raise_keeps
           | apply State.post_keeps | apply State.fetch_keeps)
      | split

theorem State.logEnd_keeps {s0 s : State} (h : Keeps s0 s) (x1 x2 x3) : Keeps s0 (State.logEnd s x1 x2 x3) := by
  simp only [State.logEnd]
  repeat' first
    | (with_reducible first
         | exact h | apply State.setVf_keeps | apply State.vfmDone_keeps | apply State.vfmError_keeps
         | apply State.logFlush_keeps)
    | split

theorem execLogSwap_keeps {s0 s : State} (h : Keeps s0 s) (x0 x1) : ∀ t, execLogSwap x0 x1 s = .next t → Keeps s0 t := by
  intro t ht; simp only [execLogSwap, Host.Outcome.next.injEq] at ht
  subst ht
  repeat' first
    | (with_reducible first
         | exact h | assumption | apply State.gate_keeps | apply State.vfmCmd_keeps | apply State.logEnd_keeps)
    | intro u hu

theorem State.qpCmd_keeps {s0 s : State} (h : Keeps s0 s) (x1) (h1 : ∀ u, Keeps s0 u → Keeps s0 (x1 u)) : Keeps s0 (State.qpCmd s x1) := by
  simp only [State.qpCmd]
  repeat' first
    | (with_reducible first | exact h | apply h1) | split

theorem State.qpError_keeps {s0 s : State} (h : Keeps s0 s) (x1) : Keeps s0 (State.qpError s x1) := by
  simp only [State.qpError]
  repeat' (with_reducible first
             | exact h | apply State.draw_keeps | apply State.raise_keeps | apply State.result_keeps)

theorem State.endReads_keeps {s0 s : State} (h : Keeps s0 s) (x1 x2) : Keeps s0 (State.endReads s x1 x2) := by
  simp only [State.endReads]
  repeat' first
    | with_reducible exact h | with_reducible refine Keeps.lit rfl rfl rfl rfl rfl rfl ?_

theorem State.txDropped_keeps {s0 s : State} (h : Keeps s0 s) (x1 x2) : Keeps s0 (State.txDropped s x1 x2) := by
  simp only [State.txDropped]
  repeat' (with_reducible first | exact h | apply State.qpCnt_keeps | apply State.cqPut_keeps)

theorem State.qpDisable_keeps {s0 s : State} (h : Keeps s0 s) (x1) : Keeps s0 (State.qpDisable s x1) := by
  simp only [State.qpDisable]
  repeat' first
    | (with_reducible first
         | exact h | assumption | apply State.setQp_keeps | apply State.resStart_keeps | apply State.qpError_keeps
         | apply State.endReads_keeps | apply State.txDropped_keeps | apply Keeps.foldl)
    | intro u _ hu | split | with_reducible refine Keeps.lit rfl rfl rfl rfl rfl rfl ?_

theorem execQpDisable_keeps {s0 s : State} (h : Keeps s0 s) (x0) : ∀ t, execQpDisable x0 s = .next t → Keeps s0 t := by
  intro t ht; simp only [execQpDisable, Host.Outcome.next.injEq] at ht
  subst ht
  repeat' first
    | (with_reducible first
         | exact h | assumption | apply State.lineGate_keeps | apply State.qpCmd_keeps | apply State.qpDisable_keeps)
    | intro u hu

theorem State.vfmAbort_keeps {s0 s : State} (h : Keeps s0 s) : Keeps s0 (State.vfmAbort s) := by
  simp only [State.vfmAbort]
  repeat' first
    | (with_reducible first
         | exact h | apply State.setVf_keeps | apply State.resLate_keeps | apply State.result_keeps)
    | split | with_reducible refine Keeps.lit rfl rfl rfl rfl rfl rfl ?_

theorem execVfmAbort_keeps {s0 s : State} (h : Keeps s0 s) : ∀ t, execVfmAbort s = .next t → Keeps s0 t := by
  intro t ht; simp only [execVfmAbort, Host.Outcome.next.injEq] at ht
  subst ht
  repeat' (with_reducible first | exact h | apply State.gate_keeps | apply State.vfmAbort_keeps)

theorem State.writeCtx_keeps {s0 s : State} (h : Keeps s0 s) (x1) : Keeps s0 (State.writeCtx s x1) := by
  simp only [State.writeCtx]
  repeat' first
    | (with_reducible first
         | exact h | apply State.setQp_keeps | apply State.result_keeps | apply State.qpError_keeps)
    | split

theorem State.vfmWrite_keeps {s0 s : State} (h : Keeps s0 s) (x1 x2) : ∀ t, State.vfmWrite s x1 x2 = some t → Keeps s0 t := by
  intro t ht; simp only [State.vfmWrite] at ht
  repeat' first
    | (split at ht) | (simp only [Option.some.injEq, reduceCtorEq] at ht) | (obtain ⟨rfl, _⟩ := ht)
    | (with_reducible first | exact h | apply State.setVf_keeps)

theorem execCqModerationTimeout_keeps {s0 s : State} (h : Keeps s0 s) (x0) : ∀ t, execCqModerationTimeout x0 s = .next t → Keeps s0 t := by
  intro t ht; simp only [execCqModerationTimeout, Host.Outcome.next.injEq] at ht
  subst ht
  repeat' first
    | (with_reducible first | exact h | apply State.setQp_keeps | apply State.msix_keeps) | split

theorem State.vfRestore_keeps {s0 s : State} (h : Keeps s0 s) (x1 x2) : Keeps s0 (State.vfRestore s x1 x2) := by
  simp only [State.vfRestore]
  repeat' first
    | (with_reducible first
         | exact h | assumption | apply State.setFn_keeps | apply State.setQp_keeps | apply State.setVf_keeps
         | apply State.fetch_keeps | apply State.msixFlush_keeps | apply State.vfmDone_keeps
         | apply State.vfmError_keeps | apply Keeps.foldl)
    | intro u _ hu | split

theorem State.releaseQp_keeps {s0 s : State} (h : Keeps s0 s) (x1) : Keeps s0 (State.releaseQp s x1) := by
  simp only [State.releaseQp]
  repeat' first
    | (with_reducible first
         | exact h | apply State.setQp_keeps | apply State.vfmDone_keeps | apply State.vfmError_keeps)
    | split

theorem execReleaseQp_keeps {s0 s : State} (h : Keeps s0 s) (x0) : ∀ t, execReleaseQp x0 s = .next t → Keeps s0 t := by
  intro t ht; simp only [execReleaseQp, Host.Outcome.next.injEq] at ht
  subst ht
  repeat' first
    | (with_reducible first
         | exact h | assumption | apply State.gate_keeps | apply State.vfmCmd_keeps | apply State.releaseQp_keeps)
    | intro u hu

theorem execVfFreeze_keeps {s0 s : State} (h : Keeps s0 s) (x0) : ∀ t, execVfFreeze x0 s = .next t → Keeps s0 t := by
  intro t ht; simp only [execVfFreeze, Host.Outcome.next.injEq] at ht
  subst ht
  repeat' first
    | (with_reducible first
         | exact h | assumption | apply State.gate_keeps | apply State.setVf_keeps | apply State.resStart_keeps
         | apply State.vfmCmd_keeps)
    | intro u hu | with_reducible refine Keeps.lit rfl rfl rfl rfl rfl rfl ?_

theorem State.ringFetch_keeps {s0 s : State} (h : Keeps s0 s) (x1 x2 x3 x4 x5 x6) : Keeps s0 (State.ringFetch s x1 x2 x3 x4 x5 x6) := by
  simp only [State.ringFetch]
  repeat' (with_reducible first | exact h | apply State.fetch_keeps)

theorem execLogStop_keeps {s0 s : State} (h : Keeps s0 s) (x0 x1) : ∀ t, execLogStop x0 x1 s = .next t → Keeps s0 t := by
  intro t ht; simp only [execLogStop, Host.Outcome.next.injEq] at ht
  subst ht
  repeat' first
    | (with_reducible first
         | exact h | assumption | apply State.gate_keeps | apply State.vfmCmd_keeps | apply State.logEnd_keeps)
    | intro u hu

theorem execCqArm_keeps {s0 s : State} (h : Keeps s0 s) (x0) : ∀ t, execCqArm x0 s = .next t → Keeps s0 t := by
  intro t ht; simp only [execCqArm, Host.Outcome.next.injEq] at ht
  subst ht
  repeat' first
    | (with_reducible first | exact h | assumption | apply State.gate_keeps | apply State.cqArm_keeps) | intro u hu
    | split

theorem State.qpEnable_keeps {s0 s : State} (h : Keeps s0 s) (x1) : Keeps s0 (State.qpEnable s x1) := by
  simp only [State.qpEnable]
  repeat' first
    | (with_reducible first
         | exact h | apply State.setQp_keeps | apply State.result_keeps | apply State.ctxRestart_keeps
         | apply State.qpError_keeps)
    | split

theorem execWriteCtx_keeps {s0 s : State} (h : Keeps s0 s) (x0) : ∀ t, execWriteCtx x0 s = .next t → Keeps s0 t := by
  intro t ht; simp only [execWriteCtx, Host.Outcome.next.injEq] at ht
  subst ht
  repeat' first
    | (with_reducible first
         | exact h | assumption | apply State.lineGate_keeps | apply State.qpCmd_keeps | apply State.writeCtx_keeps)
    | intro u hu

theorem State.vfSave_keeps {s0 s : State} (h : Keeps s0 s) (x1) : Keeps s0 (State.vfSave s x1) := by
  simp only [State.vfSave]
  repeat' first
    | (with_reducible first
         | exact h | apply State.post_keeps | apply State.vfmDone_keeps | apply State.vfmError_keeps)
    | split

theorem execVfSave_keeps {s0 s : State} (h : Keeps s0 s) (x0) : ∀ t, execVfSave x0 s = .next t → Keeps s0 t := by
  intro t ht; simp only [execVfSave, Host.Outcome.next.injEq] at ht
  subst ht
  repeat' first
    | (with_reducible first
         | exact h | assumption | apply State.gate_keeps | apply State.vfmCmd_keeps | apply State.vfSave_keeps)
    | intro u hu

theorem State.tailWrite_keeps {s0 s : State} (h : Keeps s0 s) (x1 x2 x3) : Keeps s0 (State.tailWrite s x1 x2 x3) := by
  simp only [State.tailWrite]
  repeat' first
    | (with_reducible first | exact h | apply State.setQp_keeps | apply State.qpCnt_keeps) | split

theorem execTxTailWrite_keeps {s0 s : State} (h : Keeps s0 s) (x0 x1) : ∀ t, execTxTailWrite x0 x1 s = .next t → Keeps s0 t := by
  intro t ht; simp only [execTxTailWrite, Host.Outcome.next.injEq] at ht
  subst ht
  repeat' first
    | (with_reducible first | exact h | assumption | apply State.gate_keeps | apply State.tailWrite_keeps)
    | intro u hu | split

theorem State.txPick_keeps {s0 s : State} (h : Keeps s0 s) (x1 x2) : ∀ r, State.txPick s x1 x2 = some r → Keeps s0 r.2 := by
  induction x2 generalizing s x1 with
  | zero =>
    intro r ht; simp only [State.txPick] at ht
    repeat' ((simp only [Option.some.injEq, reduceCtorEq] at ht))
  | succ x ih =>
    intro r ht; simp only [State.txPick] at ht
    repeat' first
      | (split at ht) | (simp only [Option.some.injEq, reduceCtorEq] at ht) | (obtain ⟨rfl, _⟩ := ht)
      | (with_reducible first | exact h | apply State.setQp_keeps) | (refine ih ?_ _ _ (by assumption))
      | with_reducible refine Keeps.lit rfl rfl rfl rfl rfl rfl ?_

theorem State.rxStamp_keeps {s0 s : State} (h : Keeps s0 s) (x1) : Keeps s0 (State.rxStamp s x1).1 := by
  simp only [State.rxStamp]
  repeat' first
    | (with_reducible first | exact h | apply State.draw_keeps) | split

theorem State.rxWrite_keeps {s0 s : State} (h : Keeps s0 s) (x1 x2 x3 x4 x5 x6 x7) : Keeps s0 (State.rxWrite s x1 x2 x3 x4 x5 x6 x7) := by
  simp only [State.rxWrite]
  repeat' first
    | (with_reducible first
         | exact h | assumption | apply State.setQp_keeps | apply State.tracePoint_keeps | apply State.qpCnt_keeps
         | apply State.hostPut_keeps | apply State.cqPut_keeps | apply State.rxStamp_keeps | apply Keeps.foldl)
    | intro u _ hu

theorem State.doorbellWrite_keeps {s0 s : State} (h : Keeps s0 s) (x1 x2 x3) : Keeps s0 (State.doorbellWrite s x1 x2 x3) := by
  simp only [State.doorbellWrite]
  repeat' first
    | (with_reducible first
         | exact h | apply State.cqArm_keeps | apply State.cqHeadWrite_keeps | apply State.tailWrite_keeps)
    | split

theorem State.txIssue_keeps {s0 s : State} (h : Keeps s0 s) (x1 x2) : Keeps s0 (State.txIssue s x1 x2) := by
  simp only [State.txIssue]
  repeat' first
    | (with_reducible first
         | exact h | apply State.setQp_keeps | apply State.setVf_keeps | apply State.bump_keeps
         | apply State.cnt_keeps | apply State.raise_keeps | apply State.pceView_keeps)
    | split | (refine State.issueReads_keeps (s0 := s0) ?_ _ _ _ _ _ _ (by assumption))

theorem State.mbxReply_keeps {s0 s : State} (h : Keeps s0 s) (x1) : Keeps s0 (State.mbxReply s x1) := by
  simp only [State.mbxReply]
  repeat' first
    | (with_reducible first
         | exact h | apply State.setVf_keeps | apply State.msix_keeps | apply State.vfmDone_keeps
         | apply State.vfmError_keeps)
    | split

theorem State.rxOffload_keeps {s0 s : State} (h : Keeps s0 s) (x1 x2) : Keeps s0 (State.rxOffload s x1 x2).1 := by
  simp only [State.rxOffload]
  repeat' first
    | (with_reducible first | exact h | apply State.cnt_keeps | apply State.raise_keeps | apply State.nvRx_keeps)
    | split

theorem State.qpHalt_keeps {s0 s : State} (h : Keeps s0 s) (x1 x2 x3 x4 x5) : Keeps s0 (State.qpHalt s x1 x2 x3 x4 x5) := by
  simp only [State.qpHalt]
  repeat' (with_reducible first
             | exact h | apply State.setQp_keeps | apply State.raise_keeps | apply State.cqPut_keeps)

theorem State.ringError_keeps {s0 s : State} (h : Keeps s0 s) (x1 x2 x3) : Keeps s0 (State.ringError s x1 x2 x3) := by
  simp only [State.ringError]
  repeat' (with_reducible first
             | exact h | apply State.cnt_keeps | apply State.raise_keeps | apply State.qpHalt_keeps)

theorem State.rxPlace_keeps {s0 s : State} (h : Keeps s0 s) (x1 x2 x3 x4) : Keeps s0 (State.rxPlace s x1 x2 x3 x4) := by
  simp only [State.rxPlace]
  repeat' first
    | (with_reducible first
         | exact h | apply State.bump_keeps | apply State.cnt_keeps | apply State.raise_keeps
         | apply State.qpCnt_keeps | apply State.ringFetch_keeps | apply State.rxWrite_keeps
         | apply State.rxOffload_keeps | apply State.qpHalt_keeps | apply State.ringError_keeps)
    | split

theorem execLogStart_keeps {s0 s : State} (h : Keeps s0 s) (x0) : ∀ t, execLogStart x0 s = .next t → Keeps s0 t := by
  intro t ht; simp only [execLogStart, Host.Outcome.next.injEq] at ht
  subst ht
  repeat' first
    | (with_reducible first
         | exact h | assumption | apply State.gate_keeps | apply State.setVf_keeps | apply State.vfmDone_keeps
         | apply State.vfmCmd_keeps)
    | intro u hu

theorem execVfMbxTake_keeps {s0 s : State} (h : Keeps s0 s) (x0) : ∀ t, execVfMbxTake x0 s = .next t → Keeps s0 t := by
  intro t ht; simp only [execVfMbxTake, Host.Outcome.next.injEq] at ht
  subst ht
  repeat' first
    | (with_reducible first | exact h | assumption | apply State.gate_keeps | apply State.setVf_keeps) | intro u hu
    | split

theorem execReadCtx_keeps {s0 s : State} (h : Keeps s0 s) (x0) : ∀ t, execReadCtx x0 s = .next t → Keeps s0 t := by
  intro t ht; simp only [execReadCtx, Host.Outcome.next.injEq] at ht
  subst ht
  repeat' first
    | (with_reducible first
         | exact h | assumption | apply State.lineGate_keeps | apply State.result_keeps | apply State.qpCmd_keeps)
    | intro u hu

theorem State.txFetch_keeps {s0 s : State} (h : Keeps s0 s) (x1 x2) : Keeps s0 (State.txFetch s x1 x2) := by
  simp only [State.txFetch]
  repeat' first
    | (with_reducible first
         | exact h | apply State.bump_keeps | apply State.cnt_keeps | apply State.raise_keeps
         | apply State.ringFetch_keeps | apply State.txIssue_keeps | apply State.qpHalt_keeps
         | apply State.ringError_keeps)
    | split | (refine State.txPick_keeps (s0 := s0) ?_ _ _ _ (by assumption))

theorem execTxDescriptorFetch_keeps {s0 s : State} (h : Keeps s0 s) (x0 x1) : ∀ t, execTxDescriptorFetch x0 x1 s = .next t → Keeps s0 t := by
  intro t ht; simp only [execTxDescriptorFetch, Host.Outcome.next.injEq] at ht
  subst ht
  repeat' first
    | (with_reducible first | exact h | apply State.txFetch_keeps) | split

theorem State.assignQp_keeps {s0 s : State} (h : Keeps s0 s) (x1) : Keeps s0 (State.assignQp s x1) := by
  simp only [State.assignQp]
  repeat' first
    | (with_reducible first
         | exact h | apply State.setQp_keeps | apply State.vfmDone_keeps | apply State.vfmError_keeps)
    | split

theorem execAssignQp_keeps {s0 s : State} (h : Keeps s0 s) (x0) : ∀ t, execAssignQp x0 s = .next t → Keeps s0 t := by
  intro t ht; simp only [execAssignQp, Host.Outcome.next.injEq] at ht
  subst ht
  repeat' first
    | (with_reducible first
         | exact h | assumption | apply State.lineGate_keeps | apply State.vfmCmd_keeps | apply State.assignQp_keeps)
    | intro u hu

theorem State.wakePf0_keeps {s0 s : State} (h : Keeps s0 s) (x1) : Keeps s0 (State.wakePf0 s x1) := by
  simp only [State.wakePf0]
  repeat' first
    | (with_reducible first
         | exact h | apply State.wr_keeps | apply State.setFn_keeps | apply State.emit_keeps | apply State.cnt_keeps
         | apply State.raise_keeps)
    | split

theorem State.mbxWrite_keeps {s0 s : State} (h : Keeps s0 s) (x1 x2 x3) : Keeps s0 (State.mbxWrite s x1 x2 x3) := by
  simp only [State.mbxWrite]
  repeat' first
    | (with_reducible first | exact h | apply State.setVf_keeps | apply State.mbxSend_keeps) | split

theorem State.rxTake_keeps {s0 s : State} (h : Keeps s0 s) (x1 x2 x3 x4) : Keeps s0 (State.rxTake s x1 x2 x3 x4) := by
  simp only [State.rxTake]
  repeat' first
    | (with_reducible first
         | exact h | apply State.cnt_keeps | apply State.qpCnt_keeps | apply State.logFlush_keeps
         | apply State.rxPlace_keeps | apply State.wakePf0_keeps)
    | split

theorem execRxFramePlace_keeps {s0 s : State} (h : Keeps s0 s) (x0 x1 x2) : ∀ t, execRxFramePlace x0 x1 x2 s = .next t → Keeps s0 t := by
  intro t ht; simp only [execRxFramePlace, Host.Outcome.next.injEq] at ht
  subst ht
  repeat' first
    | (with_reducible first | exact h | apply State.cnt_keeps | apply State.raise_keeps | apply State.rxTake_keeps)
    | split | with_reducible refine Keeps.lit rfl rfl rfl rfl rfl rfl ?_

theorem State.qpAbort_keeps {s0 s : State} (h : Keeps s0 s) : Keeps s0 (State.qpAbort s) := by
  simp only [State.qpAbort]
  repeat' first
    | (with_reducible first | exact h | apply State.resLate_keeps | apply State.result_keeps) | split
    | with_reducible refine Keeps.lit rfl rfl rfl rfl rfl rfl ?_

theorem execVfRestore_keeps {s0 s : State} (h : Keeps s0 s) (x0 x1) : ∀ t, execVfRestore x0 x1 s = .next t → Keeps s0 t := by
  intro t ht; simp only [execVfRestore, Host.Outcome.next.injEq] at ht
  subst ht
  repeat' first
    | (with_reducible first
         | exact h | assumption | apply State.gate_keeps | apply State.vfmCmd_keeps | apply State.vfRestore_keeps)
    | intro u hu

theorem execQpEnable_keeps {s0 s : State} (h : Keeps s0 s) (x0) : ∀ t, execQpEnable x0 s = .next t → Keeps s0 t := by
  intro t ht; simp only [execQpEnable, Host.Outcome.next.injEq] at ht
  subst ht
  repeat' first
    | (with_reducible first
         | exact h | assumption | apply State.lineGate_keeps | apply State.qpCmd_keeps | apply State.qpEnable_keeps)
    | intro u hu

theorem execVfmMbxReply_keeps {s0 s : State} (h : Keeps s0 s) (x0) : ∀ t, execVfmMbxReply x0 s = .next t → Keeps s0 t := by
  intro t ht; simp only [execVfmMbxReply, Host.Outcome.next.injEq] at ht
  subst ht
  repeat' first
    | (with_reducible first
         | exact h | assumption | apply State.gate_keeps | apply State.vfmCmd_keeps | apply State.mbxReply_keeps)
    | intro u hu

theorem execQpDrainComplete_keeps {s0 s : State} (h : Keeps s0 s) (x0) : ∀ t, execQpDrainComplete x0 s = .next t → Keeps s0 t := by
  intro t ht; simp only [execQpDrainComplete, Host.Outcome.next.injEq] at ht
  subst ht
  repeat' first
    | (with_reducible first | exact h | apply State.setQp_keeps | apply State.qpRunDone_keeps) | split

theorem execVfmMbxAck_keeps {s0 s : State} (h : Keeps s0 s) (x0) : ∀ t, execVfmMbxAck x0 s = .next t → Keeps s0 t := by
  intro t ht; simp only [execVfmMbxAck, Host.Outcome.next.injEq] at ht
  subst ht
  repeat' first
    | (with_reducible first
         | exact h | assumption | apply State.gate_keeps | apply State.setVf_keeps | apply State.vfmDone_keeps
         | apply State.mbxPend_keeps | apply State.vfmCmd_keeps)
    | intro u hu

theorem execVfUnfreeze_keeps {s0 s : State} (h : Keeps s0 s) (x0) : ∀ t, execVfUnfreeze x0 s = .next t → Keeps s0 t := by
  intro t ht; simp only [execVfUnfreeze, Host.Outcome.next.injEq] at ht
  subst ht
  repeat' first
    | (with_reducible first
         | exact h | assumption | apply State.gate_keeps | apply State.setVf_keeps | apply State.vfmDone_keeps
         | apply State.vfmError_keeps | apply State.vfmCmd_keeps)
    | intro u hu | split

theorem execRxTailWrite_keeps {s0 s : State} (h : Keeps s0 s) (x0 x1) : ∀ t, execRxTailWrite x0 x1 s = .next t → Keeps s0 t := by
  intro t ht; simp only [execRxTailWrite, Host.Outcome.next.injEq] at ht
  subst ht
  repeat' first
    | (with_reducible first | exact h | assumption | apply State.gate_keeps | apply State.tailWrite_keeps)
    | intro u hu | split

theorem execQpAbort_keeps {s0 s : State} (h : Keeps s0 s) : ∀ t, execQpAbort s = .next t → Keeps s0 t := by
  intro t ht; simp only [execQpAbort, Host.Outcome.next.injEq] at ht
  subst ht
  repeat' (with_reducible first | exact h | apply State.gate_keeps | apply State.qpAbort_keeps)

/-! ### Machine/PcieFn.lean -/

set_option maxHeartbeats 200000
theorem State.endpointReset_keeps {s0 s : State} (h : Keeps s0 s) : Keeps s0 (State.endpointReset s) := by
  simp only [State.endpointReset]
  repeat' first
    | (with_reducible first | exact h | apply State.wr_keeps | apply State.clearPage_keeps)
    | with_reducible refine Keeps.lit rfl rfl rfl rfl rfl rfl ?_

theorem State.squash_keeps {s0 s : State} (h : Keeps s0 s) (x1) : Keeps s0 (State.squash s x1) := by
  simp only [State.squash]
  repeat' first
    | with_reducible exact h | with_reducible refine Keeps.lit rfl rfl rfl rfl rfl rfl ?_

theorem State.bmeClear_keeps {s0 s : State} (h : Keeps s0 s) (x1 x2) : Keeps s0 (State.bmeClear s x1 x2) := by
  simp only [State.bmeClear]
  repeat' (with_reducible first
             | exact h | apply State.setFn_keeps | apply State.bump_keeps | apply State.pceView_keeps
             | apply State.squash_keeps)

theorem State.drainQps_keeps {s0 s : State} (h : Keeps s0 s) (x1) : Keeps s0 (State.drainQps s x1) := by
  simp only [State.drainQps]
  repeat' first
    | with_reducible exact h | with_reducible refine Keeps.lit rfl rfl rfl rfl rfl rfl ?_

theorem State.drainStart_keeps {s0 s : State} (h : Keeps s0 s) (x1 x2 x3) : Keeps s0 (State.drainStart s x1 x2 x3) := by
  simp only [State.drainStart]
  repeat' first
    | (with_reducible first
         | exact h | apply State.setFn_keeps | apply State.pceView_keeps | apply State.bmeClear_keeps
         | apply State.drainQps_keeps)
    | split

theorem State.removeVfs_keeps {s0 s : State} (h : Keeps s0 s) (x1 x2) : Keeps s0 (State.removeVfs s x1 x2) := by
  simp only [State.removeVfs]
  repeat' first
    | (with_reducible first | exact h | assumption | apply State.drainStart_keeps | apply Keeps.foldl) | intro u _ hu

theorem State.vfRemove_keeps {s0 s : State} (h : Keeps s0 s) (x1 x2) : Keeps s0 (State.vfRemove s x1 x2) := by
  simp only [State.vfRemove]
  repeat' (with_reducible first
             | exact h | apply State.setFn_keeps | apply State.bump_keeps | apply State.pceView_keeps
             | apply State.removeVfs_keeps)

theorem State.vfmReset_keeps {s0 s : State} (h : Keeps s0 s) (x1) : Keeps s0 (State.vfmReset s x1) := by
  simp only [State.vfmReset]
  repeat' first
    | (with_reducible first | exact h | apply State.vfmError_keeps) | split
    | with_reducible refine Keeps.lit rfl rfl rfl rfl rfl rfl ?_

theorem State.quarantine_keeps {s0 s : State} (h : Keeps s0 s) (x1) : Keeps s0 (State.quarantine s x1) := by
  simp only [State.quarantine]
  repeat' (with_reducible first | exact h | apply State.setTag_keeps | apply State.pceView_keeps)

theorem execFlrDeadline_keeps {s0 s : State} (h : Keeps s0 s) (x0 x1) : ∀ t, execFlrDeadline x0 x1 s = .next t → Keeps s0 t := by
  intro t ht; simp only [execFlrDeadline, Host.Outcome.next.injEq] at ht
  subst ht
  repeat' first
    | (with_reducible first | exact h | apply State.cnt_keeps | apply State.quarantine_keeps) | split

theorem State.flrStart_keeps {s0 s : State} (h : Keeps s0 s) (x1 x2) : Keeps s0 (State.flrStart s x1 x2) := by
  simp only [State.flrStart]
  repeat' first
    | (with_reducible first
         | exact h | apply State.setFn_keeps | apply State.pceView_keeps | apply State.drainStart_keeps
         | apply State.removeVfs_keeps)
    | split

theorem State.cfgEffects_keeps {s0 s : State} (h : Keeps s0 s) (x1 x2 x3 x4) : Keeps s0 (State.cfgEffects s x1 x2 x3 x4) := by
  simp only [State.cfgEffects]
  repeat' first
    | (with_reducible first
         | exact h | apply State.setFn_keeps | apply State.msixFlush_keeps | apply State.bmeClear_keeps
         | apply State.flrStart_keeps)
    | split

theorem State.lateCompletion_keeps {s0 s : State} (h : Keeps s0 s) (x1 x2 x3 x4) : Keeps s0 (State.lateCompletion s x1 x2 x3 x4) := by
  simp only [State.lateCompletion]
  repeat' first
    | (with_reducible first
         | exact h | apply State.cnt_keeps | apply State.cause_keeps | apply State.logAppend_keeps
         | apply State.wrAll_keeps | apply State.aerUncor_keeps)
    | split

theorem State.freeSlot_keeps {s0 s : State} (h : Keeps s0 s) (x1) : Keeps s0 (State.freeSlot s x1) := by
  simp only [State.freeSlot]
  repeat' (with_reducible first | exact h | apply State.setTag_keeps | apply State.pceView_keeps)

theorem State.readEnd_keeps {s0 s : State} (h : Keeps s0 s) (x1 x2 x3) : Keeps s0 (State.readEnd s x1 x2 x3) := by
  simp only [State.readEnd]
  repeat' (with_reducible first | exact h | apply State.setQp_keeps)

theorem State.completion_keeps {s0 s : State} (h : Keeps s0 s) (x1 x2 x3 x4 x5 x6 x7) : Keeps s0 (State.completion s x1 x2 x3 x4 x5 x6 x7) := by
  simp only [State.completion]
  repeat' first
    | (with_reducible first
         | exact h | apply State.cnt_keeps | apply State.raise_keeps | apply State.aerUncor_keeps
         | apply State.setTag_keeps | apply State.lateCompletion_keeps | apply State.freeSlot_keeps
         | apply State.readEnd_keeps)
    | split

theorem execPcieCompletion_keeps {s0 s : State} (h : Keeps s0 s) (x0 x1 x2 x3 x4 x5 x6) : ∀ t, execPcieCompletion x0 x1 x2 x3 x4 x5 x6 s = .next t → Keeps s0 t := by
  intro t ht; simp only [execPcieCompletion, Host.Outcome.next.injEq] at ht
  subst ht
  repeat' first
    | (with_reducible first | exact h | assumption | apply State.gate_keeps | apply State.completion_keeps)
    | intro u hu

theorem execBmeClear_keeps {s0 s : State} (h : Keeps s0 s) (x0 x1) : ∀ t, execBmeClear x0 x1 s = .next t → Keeps s0 t := by
  intro t ht; simp only [execBmeClear, Host.Outcome.next.injEq] at ht
  subst ht
  repeat' first
    | (with_reducible first | exact h | assumption | apply State.gate_keeps | apply State.bmeClear_keeps) | intro u hu
    | split

theorem State.sriovEffects_keeps {s0 s : State} (h : Keeps s0 s) (x1) : Keeps s0 (State.sriovEffects s x1) := by
  simp only [State.sriovEffects]
  repeat' first
    | (with_reducible first | exact h | apply State.setFn_keeps | apply State.removeVfs_keeps) | split
    | with_reducible refine Keeps.lit rfl rfl rfl rfl rfl rfl ?_

theorem State.cfgWrite_keeps {s0 s : State} (h : Keeps s0 s) (x1 x2 x3 x4) : Keeps s0 (State.cfgWrite s x1 x2 x3 x4) := by
  simp only [State.cfgWrite]
  repeat' first
    | (with_reducible first
         | exact h | apply State.setFn_keeps | apply State.pceView_keeps | apply State.cfgEffects_keeps
         | apply State.sriovEffects_keeps)
    | split

theorem State.cfgRequest_keeps {s0 s : State} (h : Keeps s0 s) (x1 x2 x3 x4) : Keeps s0 (State.cfgRequest s x1 x2 x3 x4) := by
  simp only [State.cfgRequest]
  repeat' first
    | (with_reducible first
         | exact h | apply State.emit_keeps | apply State.unsupportedReq_keeps | apply State.cfgWrite_keeps)
    | split

theorem execPcieConfigRequest_keeps {s0 s : State} (h : Keeps s0 s) (x0 x1 x2 x3) : ∀ t, execPcieConfigRequest x0 x1 x2 x3 s = .next t → Keeps s0 t := by
  intro t ht; simp only [execPcieConfigRequest, Host.Outcome.next.injEq] at ht
  subst ht
  repeat' first
    | (with_reducible first | exact h | assumption | apply State.gate_keeps | apply State.cfgRequest_keeps)
    | intro u hu

theorem execFlrStart_keeps {s0 s : State} (h : Keeps s0 s) (x0 x1) : ∀ t, execFlrStart x0 x1 s = .next t → Keeps s0 t := by
  intro t ht; simp only [execFlrStart, Host.Outcome.next.injEq] at ht
  subst ht
  repeat' first
    | (with_reducible first | exact h | assumption | apply State.gate_keeps | apply State.flrStart_keeps) | intro u hu
    | split

theorem State.resetQps_keeps {s0 s : State} (h : Keeps s0 s) (x1 x2) : Keeps s0 (State.resetQps s x1 x2) := by
  simp only [State.resetQps]
  repeat' first
    | (with_reducible first | exact h | assumption | apply State.qpRunDone_keeps | apply Keeps.foldl) | intro u _ hu
    | split | with_reducible refine Keeps.lit rfl rfl rfl rfl rfl rfl ?_

theorem execPcieHotReset_keeps {s0 s : State} (h : Keeps s0 s) : ∀ t, execPcieHotReset s = .next t → Keeps s0 t := by
  intro t ht; simp only [execPcieHotReset, Host.Outcome.next.injEq] at ht
  subst ht
  repeat' first
    | (with_reducible first
         | exact h | assumption | apply State.wr_keeps | apply State.gate_keeps | apply State.raise_keeps
         | apply State.flrStart_keeps)
    | intro u hu

theorem State.flrComplete_keeps {s0 s : State} (h : Keeps s0 s) (x1 x2) : Keeps s0 (State.flrComplete s x1 x2) := by
  simp only [State.flrComplete]
  repeat' first
    | (with_reducible first
         | exact h | apply State.setVf_keeps | apply State.raise_keeps | apply State.peak_keeps
         | apply State.pceView_keeps | apply State.mbxPend_keeps | apply State.vfmReset_keeps
         | apply State.resetQps_keeps)
    | split | with_reducible refine Keeps.lit rfl rfl rfl rfl rfl rfl ?_

theorem execPerst_keeps {s0 s : State} (h : Keeps s0 s) : ∀ t, execPerst s = .next t → Keeps s0 t := by
  intro t ht; simp only [execPerst, Host.Outcome.next.injEq] at ht
  subst ht
  repeat' first
    | (with_reducible first | exact h | apply State.wr_keeps | apply State.endpointReset_keeps)
    | with_reducible refine Keeps.lit rfl rfl rfl rfl rfl rfl ?_

theorem State.vfEnable_keeps {s0 s : State} (h : Keeps s0 s) (x1) : Keeps s0 (State.vfEnable s x1) := by
  simp only [State.vfEnable]
  repeat' first
    | (with_reducible first
         | exact h | apply State.setFn_keeps | apply State.pceView_keeps | apply State.removeVfs_keeps)
    | split | with_reducible refine Keeps.lit rfl rfl rfl rfl rfl rfl ?_

theorem execVfEnable_keeps {s0 s : State} (h : Keeps s0 s) (x0) : ∀ t, execVfEnable x0 s = .next t → Keeps s0 t := by
  intro t ht; simp only [execVfEnable, Host.Outcome.next.injEq] at ht
  subst ht
  repeat' first
    | (with_reducible first | exact h | assumption | apply State.gate_keeps | apply State.vfEnable_keeps) | intro u hu
    | split

theorem execFlrComplete_keeps {s0 s : State} (h : Keeps s0 s) (x0) : ∀ t, execFlrComplete x0 s = .next t → Keeps s0 t := by
  intro t ht; simp only [execFlrComplete, Host.Outcome.next.injEq] at ht
  subst ht
  repeat' first
    | (with_reducible first | exact h | apply State.flrComplete_keeps) | split

theorem execPcieCompletionTimeout_keeps {s0 s : State} (h : Keeps s0 s) (x0 x1) : ∀ t, execPcieCompletionTimeout x0 x1 s = .next t → Keeps s0 t := by
  intro t ht; simp only [execPcieCompletionTimeout, Host.Outcome.next.injEq] at ht
  subst ht
  repeat' first
    | (with_reducible first
         | exact h | apply State.cnt_keeps | apply State.raise_keeps | apply State.aerUncor_keeps
         | apply State.quarantine_keeps | apply State.readEnd_keeps)
    | split

theorem execVfRemove_keeps {s0 s : State} (h : Keeps s0 s) (x0 x1) : ∀ t, execVfRemove x0 x1 s = .next t → Keeps s0 t := by
  intro t ht; simp only [execVfRemove, Host.Outcome.next.injEq] at ht
  subst ht
  repeat' first
    | (with_reducible first | exact h | assumption | apply State.gate_keeps | apply State.vfRemove_keeps) | intro u hu
    | split

end Sys2Proof.Machine
end

