-- ==== Sys2Proof/Laws/KeepsMgmt.lean ====
section
/-! SUPPORT. Laws/KeepsMgmt.lean: every operation and command of Machine/Time.lean, Machine/Bonnet.lean, Machine/Sp.lean, Machine/Fw.lean, Machine/Obs.lean keeps what `Keeps` names. -/

namespace Sys2Proof.Machine

/-! ### Machine/Time.lean -/

set_option maxHeartbeats 200000
theorem State.syncePut_keeps {s0 s : State} (h : Keeps s0 s) (x1) : Keeps s0 (State.syncePut s x1) := by
  simp only [State.syncePut]
  repeat' (with_reducible first | exact h | apply State.emit_keeps)

theorem execSynceResume_keeps {s0 s : State} (h : Keeps s0 s) (x0) : ∀ t, execSynceResume x0 s = .next t → Keeps s0 t := by
  intro t ht; simp only [execSynceResume, Host.Outcome.next.injEq] at ht
  subst ht
  repeat' first
    | (with_reducible first | exact h | apply State.wr_keeps | apply State.syncePut_keeps) | split

theorem State.synceTick_keeps {s0 s : State} (h : Keeps s0 s) : Keeps s0 (State.synceTick s) := by
  simp only [State.synceTick]
  repeat' first
    | (with_reducible first | exact h | assumption | apply Keeps.foldl) | intro u _ hu | split
    | with_reducible refine Keeps.lit rfl rfl rfl rfl rfl rfl ?_

theorem State.synceWrite_keeps {s0 s : State} (h : Keeps s0 s) (x1 x2) : Keeps s0 (State.synceWrite s x1 x2) := by
  simp only [State.synceWrite]
  repeat' first
    | (with_reducible first | exact h | apply State.wr_keeps | apply State.wrWord_keeps | apply State.syncePut_keeps)
    | split

theorem State.taqRead_keeps {s0 s : State} (h : Keeps s0 s) (x1 x2) : Keeps s0 (State.taqRead s x1 x2) := by
  simp only [State.taqRead]
  repeat' first
    | (with_reducible first | exact h | apply State.result_keeps) | split

theorem execTodRxMessage_keeps {s0 s : State} (h : Keeps s0 s) (x0) : ∀ t, execTodRxMessage x0 s = .next t → Keeps s0 t := by
  intro t ht; simp only [execTodRxMessage, Host.Outcome.next.injEq] at ht
  subst ht
  repeat' first
    | (with_reducible first
         | exact h | assumption | apply State.wr_keeps | apply State.cnt_keeps | apply State.raise_keeps
         | apply Keeps.foldl)
    | intro u _ hu | split | with_reducible refine Keeps.lit rfl rfl rfl rfl rfl rfl ?_

theorem State.timeRead_keeps {s0 s : State} (h : Keeps s0 s) (x1 x2) : Keeps s0 (State.timeRead s x1 x2).1 := by
  simp only [State.timeRead]
  repeat' first
    | with_reducible exact h | split
    | with_reducible refine Keeps.lit rfl rfl rfl rfl rfl rfl ?_

theorem execNtNowRead_keeps {s0 s : State} (h : Keeps s0 s) (x0 x1) : ∀ t, execNtNowRead x0 x1 s = .next t → Keeps s0 t := by
  intro t ht; simp only [execNtNowRead, Host.Outcome.next.injEq] at ht
  subst ht
  repeat' first
    | (with_reducible first | exact h | apply State.emit_keeps | apply State.timeRead_keeps) | split

theorem State.taqRefuse_keeps {s0 s : State} (h : Keeps s0 s) (x1 x2) : Keeps s0 (State.taqRefuse s x1 x2) := by
  simp only [State.taqRefuse]
  repeat' (with_reducible first
             | exact h | apply State.cnt_keeps | apply State.raise_keeps | apply State.result_keeps)

theorem execTodOkTimeout_keeps {s0 s : State} (h : Keeps s0 s) : ∀ t, execTodOkTimeout s = .next t → Keeps s0 t := by
  intro t ht; simp only [execTodOkTimeout, Host.Outcome.next.injEq] at ht
  subst ht
  repeat' first
    | (with_reducible first | exact h | apply State.wr_keeps) | split

theorem State.ntPend_keeps {s0 s : State} (h : Keeps s0 s) (x1) : Keeps s0 (State.ntPend s x1) := by
  simp only [State.ntPend]
  repeat' first
    | (with_reducible first | exact h | apply State.put_keeps)
    | with_reducible refine Keeps.lit rfl rfl rfl rfl rfl rfl ?_

theorem State.taqView_keeps {s0 s : State} (h : Keeps s0 s) : Keeps s0 (State.taqView s) := by
  simp only [State.taqView]
  repeat' first
    | (with_reducible first | exact h | assumption | apply State.wrAll_keeps | apply Keeps.foldl) | intro u _ hu
    | split

theorem execNtCancel_keeps {s0 s : State} (h : Keeps s0 s) : ∀ t, execNtCancel s = .next t → Keeps s0 t := by
  intro t ht; simp only [execNtCancel, Host.Outcome.next.injEq] at ht
  subst ht
  repeat' first
    | (with_reducible first | exact h | assumption | apply State.gate_keeps | apply State.ntPend_keeps) | intro u hu

theorem execPpsLoss_keeps {s0 s : State} (h : Keeps s0 s) : ∀ t, execPpsLoss s = .next t → Keeps s0 t := by
  intro t ht; simp only [execPpsLoss, Host.Outcome.next.injEq] at ht
  subst ht
  repeat' first
    | (with_reducible first | exact h | apply State.wr_keeps | apply State.raise_keeps) | split

theorem State.taqCancel_keeps {s0 s : State} (h : Keeps s0 s) (x1 x2) : Keeps s0 (State.taqCancel s x1 x2) := by
  simp only [State.taqCancel]
  repeat' first
    | (with_reducible first | exact h | apply State.cnt_keeps | apply State.result_keeps | apply State.taqView_keeps)
    | split | with_reducible refine Keeps.lit rfl rfl rfl rfl rfl rfl ?_

theorem execTaqCancel_keeps {s0 s : State} (h : Keeps s0 s) (x0 x1) : ∀ t, execTaqCancel x0 x1 s = .next t → Keeps s0 t := by
  intro t ht; simp only [execTaqCancel, Host.Outcome.next.injEq] at ht
  subst ht
  repeat' first
    | (with_reducible first | exact h | assumption | apply State.gate_keeps | apply State.taqCancel_keeps)
    | intro u hu

theorem State.taqDiscard_keeps {s0 s : State} (h : Keeps s0 s) : Keeps s0 (State.taqDiscard s) := by
  simp only [State.taqDiscard]
  repeat' first
    | (with_reducible first | exact h | apply State.bump_keeps | apply State.taqView_keeps)
    | with_reducible refine Keeps.lit rfl rfl rfl rfl rfl rfl ?_

theorem State.setValid_keeps {s0 s : State} (h : Keeps s0 s) (x1) : Keeps s0 (State.setValid s x1) := by
  simp only [State.setValid]
  repeat' first
    | (with_reducible first | exact h | apply State.put_keeps) | split
    | with_reducible refine Keeps.lit rfl rfl rfl rfl rfl rfl ?_

theorem execPpsLossInvalidate_keeps {s0 s : State} (h : Keeps s0 s) : ∀ t, execPpsLossInvalidate s = .next t → Keeps s0 t := by
  intro t ht; simp only [execPpsLossInvalidate, Host.Outcome.next.injEq] at ht
  subst ht
  repeat' first
    | (with_reducible first | exact h | apply State.raise_keeps | apply State.setValid_keeps) | split

theorem State.taqPost_keeps {s0 s : State} (h : Keeps s0 s) (x1) : Keeps s0 (State.taqPost s x1) := by
  simp only [State.taqPost]
  repeat' first
    | (with_reducible first
         | exact h | apply State.cnt_keeps | apply State.raise_keeps | apply State.result_keeps
         | apply State.taqRefuse_keeps | apply State.taqView_keeps)
    | split | with_reducible refine Keeps.lit rfl rfl rfl rfl rfl rfl ?_

theorem execTodTxMessage_keeps {s0 s : State} (h : Keeps s0 s) : ∀ t, execTodTxMessage s = .next t → Keeps s0 t := by
  intro t ht; simp only [execTodTxMessage, Host.Outcome.next.injEq] at ht
  subst ht
  repeat' first
    | (with_reducible first | exact h | apply State.draw_keeps | apply State.emit_keeps) | split
    | with_reducible refine Keeps.lit rfl rfl rfl rfl rfl rfl ?_

theorem execTaqPost_keeps {s0 s : State} (h : Keeps s0 s) (x0) : ∀ t, execTaqPost x0 s = .next t → Keeps s0 t := by
  intro t ht; simp only [execTaqPost, Host.Outcome.next.injEq] at ht
  subst ht
  repeat' first
    | (with_reducible first | exact h | assumption | apply State.gate_keeps | apply State.taqPost_keeps) | intro u hu

theorem execNtSetAtPps_keeps {s0 s : State} (h : Keeps s0 s) : ∀ t, execNtSetAtPps s = .next t → Keeps s0 t := by
  intro t ht; simp only [execNtSetAtPps, Host.Outcome.next.injEq] at ht
  subst ht
  repeat' first
    | (with_reducible first | exact h | assumption | apply State.gate_keeps | apply State.ntPend_keeps) | intro u hu

theorem execSynceSquelch_keeps {s0 s : State} (h : Keeps s0 s) (x0) : ∀ t, execSynceSquelch x0 s = .next t → Keeps s0 t := by
  intro t ht; simp only [execSynceSquelch, Host.Outcome.next.injEq] at ht
  subst ht
  repeat' first
    | (with_reducible first | exact h | apply State.wr_keeps | apply State.raise_keeps | apply State.syncePut_keeps)
    | split | with_reducible refine Keeps.lit rfl rfl rfl rfl rfl rfl ?_

theorem execTaqRead_keeps {s0 s : State} (h : Keeps s0 s) (x0 x1) : ∀ t, execTaqRead x0 x1 s = .next t → Keeps s0 t := by
  intro t ht; simp only [execTaqRead, Host.Outcome.next.injEq] at ht
  subst ht
  repeat' first
    | (with_reducible first | exact h | assumption | apply State.gate_keeps | apply State.taqRead_keeps) | intro u hu

theorem execNtSetFromTod_keeps {s0 s : State} (h : Keeps s0 s) : ∀ t, execNtSetFromTod s = .next t → Keeps s0 t := by
  intro t ht; simp only [execNtSetFromTod, Host.Outcome.next.injEq] at ht
  subst ht
  repeat' first
    | (with_reducible first | exact h | assumption | apply State.gate_keeps | apply State.ntPend_keeps) | intro u hu

theorem execPpsOutPulse_keeps {s0 s : State} (h : Keeps s0 s) : ∀ t, execPpsOutPulse s = .next t → Keeps s0 t := by
  intro t ht; simp only [execPpsOutPulse, Host.Outcome.next.injEq] at ht
  subst ht
  repeat' first
    | (with_reducible first | exact h | apply State.emit_keeps) | split
    | with_reducible refine Keeps.lit rfl rfl rfl rfl rfl rfl ?_

/-! ### Machine/Bonnet.lean -/

set_option maxHeartbeats 200000
theorem State.bonMeter_keeps {s0 s : State} (h : Keeps s0 s) (x1 x2) : Keeps s0 (State.bonMeter s x1 x2) := by
  simp only [State.bonMeter]
  repeat' first
    | with_reducible exact h | split
    | with_reducible refine Keeps.lit rfl rfl rfl rfl rfl rfl ?_

theorem State.bonTap_keeps {s0 s : State} (h : Keeps s0 s) (x1 x2 x3 x4) : Keeps s0 (State.bonTap s x1 x2 x3 x4) := by
  simp only [State.bonTap]
  repeat' first
    | (with_reducible first | exact h | apply State.cnt_keeps | apply State.bonMeter_keeps) | split

theorem State.bonRail_keeps {s0 s : State} (h : Keeps s0 s) (x1) : Keeps s0 (State.bonRail s x1) := by
  simp only [State.bonRail]
  repeat' (with_reducible first | exact h | apply State.wr_keeps | apply State.put_keeps)

theorem State.bonError_keeps {s0 s : State} (h : Keeps s0 s) (x1 x2) : Keeps s0 (State.bonError s x1 x2) := by
  simp only [State.bonError]
  repeat' (with_reducible first | exact h | apply State.result_keeps)

theorem State.bonDone_keeps {s0 s : State} (h : Keeps s0 s) (x1) : Keeps s0 (State.bonDone s x1) := by
  simp only [State.bonDone]
  repeat' (with_reducible first | exact h | apply State.result_keeps)

theorem execBonSelectWin_keeps {s0 s : State} (h : Keeps s0 s) (x0) : ∀ t, execBonSelectWin x0 s = .next t → Keeps s0 t := by
  intro t ht; simp only [execBonSelectWin, Host.Outcome.next.injEq] at ht
  subst ht
  repeat' first
    | (with_reducible first
         | exact h | assumption | apply State.gate_keeps | apply State.cnt_keeps | apply State.wrAll_keeps
         | apply State.bonError_keeps | apply State.bonDone_keeps)
    | intro u hu | split

theorem State.bonAttempt_keeps {s0 s : State} (h : Keeps s0 s) : Keeps s0 (State.bonAttempt s) := by
  simp only [State.bonAttempt]
  repeat' (with_reducible first | exact h | apply State.cnt_keeps | apply State.inc_keeps | apply State.raise_keeps)

theorem execBonCfgTap_keeps {s0 s : State} (h : Keeps s0 s) (x0) : ∀ t, execBonCfgTap x0 s = .next t → Keeps s0 t := by
  intro t ht; simp only [execBonCfgTap, Host.Outcome.next.injEq] at ht
  subst ht
  repeat' first
    | (with_reducible first
         | exact h | assumption | apply State.gate_keeps | apply State.bonError_keeps | apply State.bonDone_keeps
         | apply State.bonAttempt_keeps)
    | intro u hu | split | with_reducible refine Keeps.lit rfl rfl rfl rfl rfl rfl ?_

theorem State.bonPage_keeps {s0 s : State} (h : Keeps s0 s) : Keeps s0 (State.bonPage s) := by
  simp only [State.bonPage]
  repeat' (with_reducible first | exact h | apply State.wrAll_keeps | apply State.clearPage_keeps)

theorem State.bonClear_keeps {s0 s : State} (h : Keeps s0 s) : Keeps s0 (State.bonClear s) := by
  simp only [State.bonClear]
  repeat' first
    | (with_reducible first | exact h | apply State.bonPage_keeps)
    | with_reducible refine Keeps.lit rfl rfl rfl rfl rfl rfl ?_

theorem execBonVddLoss_keeps {s0 s : State} (h : Keeps s0 s) : ∀ t, execBonVddLoss s = .next t → Keeps s0 t := by
  intro t ht; simp only [execBonVddLoss, Host.Outcome.next.injEq] at ht
  subst ht
  repeat' first
    | (with_reducible first | exact h | apply State.bonRail_keeps | apply State.bonClear_keeps) | split

theorem execBonCfgReport_keeps {s0 s : State} (h : Keeps s0 s) (x0) : ∀ t, execBonCfgReport x0 s = .next t → Keeps s0 t := by
  intro t ht; simp only [execBonCfgReport, Host.Outcome.next.injEq] at ht
  subst ht
  repeat' first
    | (with_reducible first
         | exact h | assumption | apply State.gate_keeps | apply State.bonError_keeps | apply State.bonDone_keeps
         | apply State.bonAttempt_keeps)
    | intro u hu | split | with_reducible refine Keeps.lit rfl rfl rfl rfl rfl rfl ?_

theorem State.bonJoin_keeps {s0 s : State} (h : Keeps s0 s) (x1 x2) : Keeps s0 (State.bonJoin s x1 x2) := by
  simp only [State.bonJoin]
  repeat' first
    | with_reducible exact h | with_reducible refine Keeps.lit rfl rfl rfl rfl rfl rfl ?_

theorem State.bonRequest_keeps {s0 s : State} (h : Keeps s0 s) (x1 x2) : Keeps s0 (State.bonRequest s x1 x2).1 := by
  simp only [State.bonRequest]
  repeat' first
    | (with_reducible first
         | exact h | apply State.wr_keeps | apply State.cnt_keeps | apply State.raise_keeps
         | apply State.bonJoin_keeps)
    | split | with_reducible refine Keeps.lit rfl rfl rfl rfl rfl rfl ?_

theorem execBonSeal_keeps {s0 s : State} (h : Keeps s0 s) (x0) : ∀ t, execBonSeal x0 s = .next t → Keeps s0 t := by
  intro t ht; simp only [execBonSeal, Host.Outcome.next.injEq] at ht
  subst ht
  repeat' first
    | (with_reducible first
         | exact h | assumption | apply State.wr_keeps | apply State.gate_keeps | apply State.bonError_keeps
         | apply State.bonDone_keeps | apply State.bonRequest_keeps)
    | intro u hu | split

theorem State.bonLose_keeps {s0 s : State} (h : Keeps s0 s) (x1) : Keeps s0 (State.bonLose s x1) := by
  simp only [State.bonLose]
  repeat' first
    | (with_reducible first | exact h | apply State.bump_keeps | apply State.raise_keeps) | split
    | with_reducible refine Keeps.lit rfl rfl rfl rfl rfl rfl ?_

theorem execBonChangeAttempt_keeps {s0 s : State} (h : Keeps s0 s) : ∀ t, execBonChangeAttempt s = .next t → Keeps s0 t := by
  intro t ht; simp only [execBonChangeAttempt, Host.Outcome.next.injEq] at ht
  subst ht
  repeat' first
    | (with_reducible first | exact h | apply State.bonAttempt_keeps) | split

theorem execBonIntervalReport_keeps {s0 s : State} (h : Keeps s0 s) : ∀ t, execBonIntervalReport s = .next t → Keeps s0 t := by
  intro t ht; simp only [execBonIntervalReport, Host.Outcome.next.injEq] at ht
  subst ht
  repeat' first
    | (with_reducible first | exact h | apply State.bonRequest_keeps) | split

theorem execBonReportNow_keeps {s0 s : State} (h : Keeps s0 s) (x0) : ∀ t, execBonReportNow x0 s = .next t → Keeps s0 t := by
  intro t ht; simp only [execBonReportNow, Host.Outcome.next.injEq] at ht
  subst ht
  repeat' first
    | (with_reducible first
         | exact h | assumption | apply State.gate_keeps | apply State.bonError_keeps | apply State.bonDone_keeps
         | apply State.bonRequest_keeps)
    | intro u hu | split

theorem execBonReportComplete_keeps {s0 s : State} (h : Keeps s0 s) : ∀ t, execBonReportComplete s = .next t → Keeps s0 t := by
  intro t ht; simp only [execBonReportComplete, Host.Outcome.next.injEq] at ht
  subst ht
  repeat' first
    | (with_reducible first | exact h | apply State.wr_keeps | apply State.cnt_keeps | apply State.raise_keeps)
    | split | with_reducible refine Keeps.lit rfl rfl rfl rfl rfl rfl ?_

theorem State.bonStomp_keeps {s0 s : State} (h : Keeps s0 s) : Keeps s0 (State.bonStomp s) := by
  simp only [State.bonStomp]
  repeat' first
    | (with_reducible first | exact h | apply State.cnt_keeps) | split
    | with_reducible refine Keeps.lit rfl rfl rfl rfl rfl rfl ?_

theorem execBonPowerUp_keeps {s0 s : State} (h : Keeps s0 s) (x0) : ∀ t, execBonPowerUp x0 s = .next t → Keeps s0 t := by
  intro t ht; simp only [execBonPowerUp, Host.Outcome.next.injEq] at ht
  subst ht
  repeat' first
    | (with_reducible first
         | exact h | apply State.wrFree_keeps | apply State.bump_keeps | apply State.inc_keeps
         | apply State.raise_keeps | apply State.bonRail_keeps | apply State.bonClear_keeps)
    | split | with_reducible refine Keeps.lit rfl rfl rfl rfl rfl rfl ?_

/-! ### Machine/Sp.lean -/

set_option maxHeartbeats 200000
theorem State.setRole_keeps {s0 s : State} (h : Keeps s0 s) (x1 x2) : Keeps s0 (State.setRole s x1 x2) := by
  simp only [State.setRole]
  repeat' first
    | (with_reducible first | exact h | apply State.wr_keeps | apply State.wrAll_keeps) | split

theorem State.spGrant_keeps {s0 s : State} (h : Keeps s0 s) (x1) : Keeps s0 (State.spGrant s x1) := by
  simp only [State.spGrant]
  repeat' first
    | (with_reducible first | exact h | apply State.wr_keeps | apply State.spSignal_keeps | apply State.setRole_keeps)
    | split | with_reducible refine Keeps.lit rfl rfl rfl rfl rfl rfl ?_

theorem execSpGrantRequest_keeps {s0 s : State} (h : Keeps s0 s) (x0) : ∀ t, execSpGrantRequest x0 s = .next t → Keeps s0 t := by
  intro t ht; simp only [execSpGrantRequest, Host.Outcome.next.injEq] at ht
  subst ht
  repeat' first
    | (with_reducible first | exact h | apply State.setRole_keeps | apply State.spGrant_keeps) | split

theorem State.spRefusedWrite_keeps {s0 s : State} (h : Keeps s0 s) (x1) : Keeps s0 (State.spRefusedWrite s x1) := by
  simp only [State.spRefusedWrite]
  repeat' (with_reducible first | exact h | apply State.cnt_keeps | apply State.raise_keeps)

theorem State.spPass_keeps {s0 s : State} (h : Keeps s0 s) (x1) : Keeps s0 (State.spPass s x1) := by
  simp only [State.spPass]
  repeat' (with_reducible first | exact h | apply State.put_keeps | apply State.spGrant_keeps)

theorem State.setSp_keeps {s0 s : State} (h : Keeps s0 s) (x1 x2) : Keeps s0 (State.setSp s x1 x2) := by
  simp only [State.setSp]
  repeat' first
    | with_reducible exact h | with_reducible refine Keeps.lit rfl rfl rfl rfl rfl rfl ?_

theorem State.spError_keeps {s0 s : State} (h : Keeps s0 s) (x1 x2) : Keeps s0 (State.spError s x1 x2) := by
  simp only [State.spError]
  repeat' (with_reducible first | exact h | apply State.raise_keeps | apply State.result_keeps)

theorem State.restartStandby_keeps {s0 s : State} (h : Keeps s0 s) (x1) : Keeps s0 (State.restartStandby s x1) := by
  simp only [State.restartStandby]
  repeat' first
    | (with_reducible first
         | exact h | assumption | apply State.result_keeps | apply State.setRole_keeps | apply State.setSp_keeps
         | apply State.spError_keeps | apply Keeps.foldl)
    | intro u _ hu | split

theorem execSpRestartStandby_keeps {s0 s : State} (h : Keeps s0 s) (x0) : ∀ t, execSpRestartStandby x0 s = .next t → Keeps s0 t := by
  intro t ht; simp only [execSpRestartStandby, Host.Outcome.next.injEq] at ht
  subst ht
  repeat' first
    | (with_reducible first | exact h | assumption | apply State.gate_keeps | apply State.restartStandby_keeps)
    | intro u hu

theorem State.healthyTo_keeps {s0 s : State} (h : Keeps s0 s) (x1 x2) : Keeps s0 (State.healthyTo s x1 x2) := by
  simp only [State.healthyTo]
  repeat' (with_reducible first | exact h | apply State.put_keeps | apply State.raiseIf_keeps)

theorem execSpHeartbeat_keeps {s0 s : State} (h : Keeps s0 s) (x0) : ∀ t, execSpHeartbeat x0 s = .next t → Keeps s0 t := by
  intro t ht; simp only [execSpHeartbeat, Host.Outcome.next.injEq] at ht
  subst ht
  repeat' first
    | (with_reducible first | exact h | assumption | apply State.gate_keeps | apply State.cnt_keeps) | intro u hu
    | split | with_reducible refine Keeps.lit rfl rfl rfl rfl rfl rfl ?_

theorem State.heldCount_keeps {s0 s : State} (h : Keeps s0 s) : Keeps s0 (State.heldCount s) := by
  simp only [State.heldCount]
  repeat' first
    | (with_reducible first | exact h | assumption | apply State.setSp_keeps | apply Keeps.foldl) | intro u _ hu
    | split

theorem State.noActive_keeps {s0 s : State} (h : Keeps s0 s) : Keeps s0 (State.noActive s) := by
  simp only [State.noActive]
  repeat' first
    | (with_reducible first | exact h | apply State.wr_keeps | apply State.raise_keeps | apply State.heldCount_keeps)
    | with_reducible refine Keeps.lit rfl rfl rfl rfl rfl rfl ?_

theorem State.outRefused_keeps {s0 s : State} (h : Keeps s0 s) : Keeps s0 (State.outRefused s) := by
  simp only [State.outRefused]
  repeat' (with_reducible first | exact h | apply State.inc_keeps | apply State.raise_keeps)

theorem State.gpioPut_keeps {s0 s : State} (h : Keeps s0 s) : Keeps s0 (State.gpioPut s) := by
  simp only [State.gpioPut]
  repeat' (with_reducible first | exact h | apply State.emit_keeps)

theorem State.gpioWrite_keeps {s0 s : State} (h : Keeps s0 s) (x1 x2) : Keeps s0 (State.gpioWrite s x1 x2) := by
  simp only [State.gpioWrite]
  repeat' first
    | (with_reducible first
         | exact h | apply State.wr_keeps | apply State.outRefused_keeps | apply State.gpioPut_keeps)
    | split

theorem State.spRelease_keeps {s0 s : State} (h : Keeps s0 s) (x1) : Keeps s0 (State.spRelease s x1) := by
  simp only [State.spRelease]
  repeat' (with_reducible first | exact h | apply State.setRole_keeps | apply State.setSp_keeps)

theorem State.heldRelease_keeps {s0 s : State} (h : Keeps s0 s) (x1 x2) : Keeps s0 (State.heldRelease s x1 x2) := by
  simp only [State.heldRelease]
  repeat' first
    | (with_reducible first | exact h | apply State.spRelease_keeps) | split

theorem execSpHeldRelease_keeps {s0 s : State} (h : Keeps s0 s) (x0) : ∀ t, execSpHeldRelease x0 s = .next t → Keeps s0 t := by
  intro t ht; simp only [execSpHeldRelease, Host.Outcome.next.injEq] at ht
  subst ht
  repeat' (with_reducible first | exact h | apply State.heldRelease_keeps)

theorem execSpHealthStale_keeps {s0 s : State} (h : Keeps s0 s) (x0) : ∀ t, execSpHealthStale x0 s = .next t → Keeps s0 t := by
  intro t ht; simp only [execSpHealthStale, Host.Outcome.next.injEq] at ht
  subst ht
  repeat' first
    | (with_reducible first | exact h | apply State.healthyTo_keeps) | split

theorem State.gapStart_keeps {s0 s : State} (h : Keeps s0 s) (x1) : Keeps s0 (State.gapStart s x1) := by
  simp only [State.gapStart]
  repeat' first
    | (with_reducible first | exact h | apply State.wrAll_keeps | apply State.cagesHold_keeps) | split
    | with_reducible refine Keeps.lit rfl rfl rfl rfl rfl rfl ?_

theorem State.spRevoke_keeps {s0 s : State} (h : Keeps s0 s) (x1 x2 x3) : Keeps s0 (State.spRevoke s x1 x2 x3) := by
  simp only [State.spRevoke]
  repeat' first
    | (with_reducible first
         | exact h | apply State.logAppend_keeps | apply State.raise_keeps | apply State.incSat_keeps
         | apply State.wrAll_keeps | apply State.setRole_keeps | apply State.setSp_keeps | apply State.gapStart_keeps)
    | with_reducible refine Keeps.lit rfl rfl rfl rfl rfl rfl ?_

theorem State.switchover_keeps {s0 s : State} (h : Keeps s0 s) (x1) : Keeps s0 (State.switchover s x1) := by
  simp only [State.switchover]
  repeat' first
    | (with_reducible first
         | exact h | apply State.result_keeps | apply State.spPass_keeps | apply State.spError_keeps
         | apply State.spRevoke_keeps)
    | split

theorem execSpSwitchover_keeps {s0 s : State} (h : Keeps s0 s) (x0) : ∀ t, execSpSwitchover x0 s = .next t → Keeps s0 t := by
  intro t ht; simp only [execSpSwitchover, Host.Outcome.next.injEq] at ht
  subst ht
  repeat' first
    | (with_reducible first | exact h | assumption | apply State.gate_keeps | apply State.switchover_keeps)
    | intro u hu

theorem execSpRestartRelease_keeps {s0 s : State} (h : Keeps s0 s) (x0) : ∀ t, execSpRestartRelease x0 s = .next t → Keeps s0 t := by
  intro t ht; simp only [execSpRestartRelease, Host.Outcome.next.injEq] at ht
  subst ht
  repeat' (with_reducible first | exact h | apply State.heldRelease_keeps)

theorem execGauntletStep_keeps {s0 s : State} (h : Keeps s0 s) (x0 x1) : ∀ t, execGauntletStep x0 x1 s = .next t → Keeps s0 t := by
  intro t ht; simp only [execGauntletStep, Host.Outcome.next.injEq] at ht
  subst ht
  repeat' first
    | (with_reducible first
         | exact h | apply State.cnt_keeps | apply State.logAppend_keeps | apply State.raise_keeps
         | apply State.setSp_keeps)
    | split

theorem execSpHeartbeatTimeout_keeps {s0 s : State} (h : Keeps s0 s) : ∀ t, execSpHeartbeatTimeout s = .next t → Keeps s0 t := by
  intro t ht; simp only [execSpHeartbeatTimeout, Host.Outcome.next.injEq] at ht
  subst ht
  repeat' first
    | (with_reducible first
         | exact h | apply State.wr_keeps | apply State.spPass_keeps | apply State.noActive_keeps
         | apply State.spRevoke_keeps)
    | split

theorem State.fanPut_keeps {s0 s : State} (h : Keeps s0 s) (x1) : Keeps s0 (State.fanPut s x1) := by
  simp only [State.fanPut]
  repeat' (with_reducible first | exact h | apply State.emit_keeps)

theorem State.fansPut_keeps {s0 s : State} (h : Keeps s0 s) : Keeps s0 (State.fansPut s) := by
  simp only [State.fansPut]
  repeat' first
    | (with_reducible first | exact h | assumption | apply State.fanPut_keeps | apply Keeps.foldl) | intro u _ hu

theorem execSpTakeoverTimeout_keeps {s0 s : State} (h : Keeps s0 s) : ∀ t, execSpTakeoverTimeout s = .next t → Keeps s0 t := by
  intro t ht; simp only [execSpTakeoverTimeout, Host.Outcome.next.injEq] at ht
  subst ht
  repeat' first
    | (with_reducible first | exact h | apply State.noActive_keeps | apply State.spRevoke_keeps) | split

theorem State.spRestartBoth_keeps {s0 s : State} (h : Keeps s0 s) : Keeps s0 (State.spRestartBoth s) := by
  simp only [State.spRestartBoth]
  repeat' first
    | (with_reducible first
         | exact h | assumption | apply State.spRelease_keeps | apply State.gapStart_keeps | apply Keeps.foldl)
    | intro u _ hu | split | with_reducible refine Keeps.lit rfl rfl rfl rfl rfl rfl ?_

theorem State.takeover_keeps {s0 s : State} (h : Keeps s0 s) (x1) : Keeps s0 (State.takeover s x1) := by
  simp only [State.takeover]
  repeat' first
    | (with_reducible first
         | exact h | apply State.logAppend_keeps | apply State.peak_keeps | apply State.wrAll_keeps
         | apply State.cagesRelease_keeps | apply State.heldCount_keeps | apply State.fansPut_keeps)
    | split | with_reducible refine Keeps.lit rfl rfl rfl rfl rfl rfl ?_

theorem State.fanDutyWrite_keeps {s0 s : State} (h : Keeps s0 s) (x1 x2) : Keeps s0 (State.fanDutyWrite s x1 x2) := by
  simp only [State.fanDutyWrite]
  repeat' first
    | (with_reducible first
         | exact h | apply State.wr_keeps | apply State.put_keeps | apply State.outRefused_keeps
         | apply State.fanPut_keeps)
    | split

theorem execSpSyncComplete_keeps {s0 s : State} (h : Keeps s0 s) (x0) : ∀ t, execSpSyncComplete x0 s = .next t → Keeps s0 t := by
  intro t ht; simp only [execSpSyncComplete, Host.Outcome.next.injEq] at ht
  subst ht
  repeat' first
    | (with_reducible first | exact h | apply State.setRole_keeps) | split

theorem execSpHealthPost_keeps {s0 s : State} (h : Keeps s0 s) (x0) : ∀ t, execSpHealthPost x0 s = .next t → Keeps s0 t := by
  intro t ht; simp only [execSpHealthPost, Host.Outcome.next.injEq] at ht
  subst ht
  repeat' first
    | (with_reducible first
         | exact h | apply State.wr_keeps | apply State.cnt_keeps | apply State.setSp_keeps
         | apply State.healthyTo_keeps)
    | split

theorem execFailsafeFan_keeps {s0 s : State} (h : Keeps s0 s) : ∀ t, execFailsafeFan s = .next t → Keeps s0 t := by
  intro t ht; simp only [execFailsafeFan, Host.Outcome.next.injEq] at ht
  subst ht
  repeat' first
    | (with_reducible first | exact h | apply State.fansPut_keeps) | split
    | with_reducible refine Keeps.lit rfl rfl rfl rfl rfl rfl ?_

theorem State.spPowerOff_keeps {s0 s : State} (h : Keeps s0 s) (x1) : Keeps s0 (State.spPowerOff s x1) := by
  simp only [State.spPowerOff]
  repeat' (with_reducible first | exact h | apply State.setRole_keeps | apply State.setSp_keeps)

theorem State.fanCfgWrite_keeps {s0 s : State} (h : Keeps s0 s) (x1) : Keeps s0 (State.fanCfgWrite s x1) := by
  simp only [State.fanCfgWrite]
  repeat' (with_reducible first | exact h | apply State.wrWord_keeps | apply State.fansPut_keeps)

/-! ### Machine/Fw.lean -/

set_option maxHeartbeats 200000
theorem State.fuseView_keeps {s0 s : State} (h : Keeps s0 s) : Keeps s0 (State.fuseView s) := by
  simp only [State.fuseView]
  repeat' (with_reducible first | exact h | apply State.wrAll_keeps)

theorem State.loadKek0_keeps {s0 s : State} (h : Keeps s0 s) : Keeps s0 (State.loadKek0 s) := by
  simp only [State.loadKek0]
  repeat' first
    | with_reducible exact h | with_reducible refine Keeps.lit rfl rfl rfl rfl rfl rfl ?_

theorem State.unlock_keeps {s0 s : State} (h : Keeps s0 s) : Keeps s0 (State.unlock s) := by
  simp only [State.unlock]
  repeat' first
    | (with_reducible first
         | exact h | apply State.inc_keeps | apply State.logAppend_keeps | apply State.fuseView_keeps
         | apply State.loadKek0_keeps)
    | split | with_reducible refine Keeps.lit rfl rfl rfl rfl rfl rfl ?_

theorem State.secStart_keeps {s0 s : State} (h : Keeps s0 s) (x1 x2) (h2 : ∀ u, Keeps s0 u → Keeps s0 (x2 u)) : Keeps s0 (State.secStart s x1 x2) := by
  simp only [State.secStart]
  repeat' first
    | (with_reducible first | exact h | assumption | apply State.gate_keeps | apply State.resStart_keeps | apply h2)
    | intro u hu | split | with_reducible refine Keeps.lit rfl rfl rfl rfl rfl rfl ?_

theorem State.secUnlock_keeps {s0 s : State} (h : Keeps s0 s) (x1) : Keeps s0 (State.secUnlock s x1) := by
  simp only [State.secUnlock]
  repeat' first
    | (with_reducible first
         | exact h | apply State.cnt_keeps | apply State.raise_keeps | apply State.result_keeps
         | apply State.unlock_keeps)
    | split | with_reducible refine Keeps.lit rfl rfl rfl rfl rfl rfl ?_

theorem execSecUnlock_keeps {s0 s : State} (h : Keeps s0 s) (x0) : ∀ t, execSecUnlock x0 s = .next t → Keeps s0 t := by
  intro t ht; simp only [execSecUnlock, Host.Outcome.next.injEq] at ht
  subst ht
  repeat' first
    | (with_reducible first | exact h | assumption | apply State.secStart_keeps | apply State.secUnlock_keeps)
    | intro u hu

theorem State.fwStart_keeps {s0 s : State} (h : Keeps s0 s) (x1) (h1 : ∀ u, Keeps s0 u → Keeps s0 (x1 u)) : Keeps s0 (State.fwStart s x1) := by
  simp only [State.fwStart]
  repeat' first
    | (with_reducible first | exact h | apply State.resStart_keeps | apply h1) | split

theorem State.fwError_keeps {s0 s : State} (h : Keeps s0 s) (x1 x2 x3) : Keeps s0 (State.fwError s x1 x2 x3) := by
  simp only [State.fwError]
  repeat' first
    | (with_reducible first | exact h | apply State.raise_keeps | apply State.result_keeps)
    | with_reducible refine Keeps.lit rfl rfl rfl rfl rfl rfl ?_

theorem State.fwDone_keeps {s0 s : State} (h : Keeps s0 s) (x1) : Keeps s0 (State.fwDone s x1) := by
  simp only [State.fwDone]
  repeat' first
    | (with_reducible first | exact h | apply State.result_keeps)
    | with_reducible refine Keeps.lit rfl rfl rfl rfl rfl rfl ?_

theorem execFwArm_keeps {s0 s : State} (h : Keeps s0 s) (x0 x1) : ∀ t, execFwArm x0 x1 s = .next t → Keeps s0 t := by
  intro t ht; simp only [execFwArm, Host.Outcome.next.injEq] at ht
  subst ht
  repeat' first
    | (with_reducible first
         | exact h | assumption | apply State.wrAll_keeps | apply State.fwStart_keeps | apply State.fwError_keeps
         | apply State.fwDone_keeps)
    | intro u hu | split | with_reducible refine Keeps.lit rfl rfl rfl rfl rfl rfl ?_

theorem State.bootShow_keeps {s0 s : State} (h : Keeps s0 s) (x1 x2) : Keeps s0 (State.bootShow s x1 x2) := by
  simp only [State.bootShow]
  repeat' first
    | (with_reducible first | exact h | apply State.wrAll_keeps) | split
    | with_reducible refine Keeps.lit rfl rfl rfl rfl rfl rfl ?_

theorem State.secChallenge_keeps {s0 s : State} (h : Keeps s0 s) (x1) : Keeps s0 (State.secChallenge s x1) := by
  simp only [State.secChallenge]
  repeat' first
    | (with_reducible first
         | exact h | assumption | apply State.wrFree_keeps | apply State.cnt_keeps | apply State.result_keeps
         | apply Keeps.foldl)
    | intro u _ hu | with_reducible refine Keeps.lit rfl rfl rfl rfl rfl rfl ?_

theorem execSecChallenge_keeps {s0 s : State} (h : Keeps s0 s) (x0) : ∀ t, execSecChallenge x0 s = .next t → Keeps s0 t := by
  intro t ht; simp only [execSecChallenge, Host.Outcome.next.injEq] at ht
  subst ht
  repeat' first
    | (with_reducible first | exact h | assumption | apply State.secStart_keeps | apply State.secChallenge_keeps)
    | intro u hu

theorem State.flashWrite_keeps {s0 s : State} (h : Keeps s0 s) (x1 x2) : Keeps s0 (State.flashWrite s x1 x2) := by
  simp only [State.flashWrite]
  repeat' first
    | with_reducible exact h | with_reducible refine Keeps.lit rfl rfl rfl rfl rfl rfl ?_

theorem State.recWrite_keeps {s0 s : State} (h : Keeps s0 s) (x1) : Keeps s0 (State.recWrite s x1) := by
  simp only [State.recWrite]
  repeat' (with_reducible first | exact h | apply State.flashWrite_keeps)

theorem State.fallback_keeps {s0 s : State} (h : Keeps s0 s) (x1 x2) : Keeps s0 (State.fallback s x1 x2) := by
  simp only [State.fallback]
  repeat' first
    | (with_reducible first
         | exact h | apply State.cnt_keeps | apply State.logAppend_keeps | apply State.raise_keeps
         | apply State.wrAll_keeps | apply State.spRestartBoth_keeps | apply State.fuseView_keeps
         | apply State.recWrite_keeps)
    | split | with_reducible refine Keeps.lit rfl rfl rfl rfl rfl rfl ?_

theorem State.fwTrigger_keeps {s0 s : State} (h : Keeps s0 s) : Keeps s0 (State.fwTrigger s).1 := by
  simp only [State.fwTrigger]
  repeat' first
    | (with_reducible first
         | exact h | apply State.wr_keeps | apply State.cnt_keeps | apply State.logAppend_keeps
         | apply State.raise_keeps | apply State.spRestartBoth_keeps | apply State.recWrite_keeps)
    | split | with_reducible refine Keeps.lit rfl rfl rfl rfl rfl rfl ?_

theorem State.migrate_keeps {s0 s : State} (h : Keeps s0 s) (x1 x2) : Keeps s0 (State.migrate s x1 x2) := by
  simp only [State.migrate]
  repeat' first
    | (with_reducible first
         | exact h | apply State.flashWrite_keeps | apply State.recWrite_keeps | apply State.fallback_keeps)
    | split

theorem execFwReject_keeps {s0 s : State} (h : Keeps s0 s) (x0) : ∀ t, execFwReject x0 s = .next t → Keeps s0 t := by
  intro t ht; simp only [execFwReject, Host.Outcome.next.injEq] at ht
  subst ht
  repeat' first
    | (with_reducible first
         | exact h | assumption | apply State.result_keeps | apply State.fwStart_keeps | apply State.fwDone_keeps
         | apply State.fallback_keeps)
    | intro u hu | split

theorem State.secWindowWrite_keeps {s0 s : State} (h : Keeps s0 s) (x1 x2) : Keeps s0 (State.secWindowWrite s x1 x2) := by
  simp only [State.secWindowWrite]
  repeat' first
    | with_reducible exact h | split
    | with_reducible refine Keeps.lit rfl rfl rfl rfl rfl rfl ?_

theorem execSvnAdvance_keeps {s0 s : State} (h : Keeps s0 s) (x0 x1) : ∀ t, execSvnAdvance x0 x1 s = .next t → Keeps s0 t := by
  intro t ht; simp only [execSvnAdvance, Host.Outcome.next.injEq] at ht
  subst ht
  repeat' first
    | (with_reducible first
         | exact h | assumption | apply State.bump_keeps | apply State.fuseView_keeps | apply State.fwStart_keeps
         | apply State.fwError_keeps | apply State.fwDone_keeps)
    | intro u hu | split | with_reducible refine Keeps.lit rfl rfl rfl rfl rfl rfl ?_

theorem execFwDisarm_keeps {s0 s : State} (h : Keeps s0 s) (x0) : ∀ t, execFwDisarm x0 s = .next t → Keeps s0 t := by
  intro t ht; simp only [execFwDisarm, Host.Outcome.next.injEq] at ht
  subst ht
  repeat' first
    | (with_reducible first
         | exact h | assumption | apply State.wr_keeps | apply State.result_keeps | apply State.fwStart_keeps
         | apply State.fwError_keeps | apply State.fwDone_keeps)
    | intro u hu | split

theorem State.secQuote_keeps {s0 s : State} (h : Keeps s0 s) (x1) : Keeps s0 (State.secQuote s x1) := by
  simp only [State.secQuote]
  repeat' first
    | (with_reducible first | exact h | apply State.cnt_keeps | apply State.raise_keeps | apply State.result_keeps)
    | with_reducible refine Keeps.lit rfl rfl rfl rfl rfl rfl ?_

theorem State.secResume_keeps {s0 s : State} (h : Keeps s0 s) : Keeps s0 (State.secResume s) := by
  simp only [State.secResume]
  repeat' first
    | (with_reducible first
         | exact h | apply State.secUnlock_keeps | apply State.secChallenge_keeps | apply State.secQuote_keeps)
    | split | with_reducible refine Keeps.lit rfl rfl rfl rfl rfl rfl ?_

theorem State.imgRecord_keeps {s0 s : State} (h : Keeps s0 s) (x1 x2) : Keeps s0 (State.imgRecord s x1 x2) := by
  simp only [State.imgRecord]
  repeat' first
    | (with_reducible first | exact h | apply State.wrAll_keeps) | split
    | with_reducible refine Keeps.lit rfl rfl rfl rfl rfl rfl ?_

theorem State.slotErase_keeps {s0 s : State} (h : Keeps s0 s) (x1) : Keeps s0 (State.slotErase s x1) := by
  simp only [State.slotErase]
  repeat' first
    | (with_reducible first | exact h | apply State.flashWrite_keeps)
    | with_reducible refine Keeps.lit rfl rfl rfl rfl rfl rfl ?_

theorem State.stageEnd_keeps {s0 s : State} (h : Keeps s0 s) (x1 x2 x3) : Keeps s0 (State.stageEnd s x1 x2 x3) := by
  simp only [State.stageEnd]
  repeat' first
    | (with_reducible first
         | exact h | apply State.cnt_keeps | apply State.raise_keeps | apply State.tagWait_keeps
         | apply State.fwError_keeps | apply State.fwDone_keeps | apply State.flashWrite_keeps
         | apply State.imgRecord_keeps | apply State.slotErase_keeps)
    | split | with_reducible refine Keeps.lit rfl rfl rfl rfl rfl rfl ?_

theorem State.stageFetch_keeps {s0 s : State} (h : Keeps s0 s) (x1) : Keeps s0 (State.stageFetch s x1) := by
  simp only [State.stageFetch]
  repeat' (with_reducible first | exact h | apply State.fetch_keeps)

theorem State.stage_keeps {s0 s : State} (h : Keeps s0 s) (x1 x2 x3) : Keeps s0 (State.stage s x1 x2 x3) := by
  simp only [State.stage]
  repeat' first
    | (with_reducible first
         | exact h | apply State.fwError_keeps | apply State.slotErase_keeps | apply State.stageEnd_keeps
         | apply State.stageFetch_keeps)
    | split

theorem execFwConfirm_keeps {s0 s : State} (h : Keeps s0 s) : ∀ t, execFwConfirm s = .next t → Keeps s0 t := by
  intro t ht; simp only [execFwConfirm, Host.Outcome.next.injEq] at ht
  subst ht
  repeat' first
    | (with_reducible first
         | exact h | apply State.cnt_keeps | apply State.logAppend_keeps | apply State.raise_keeps
         | apply State.wrAll_keeps | apply State.recWrite_keeps)
    | split | with_reducible refine Keeps.lit rfl rfl rfl rfl rfl rfl ?_

theorem State.stageConfigEnd_keeps {s0 s : State} (h : Keeps s0 s) (x1 x2) : Keeps s0 (State.stageConfigEnd s x1 x2) := by
  simp only [State.stageConfigEnd]
  repeat' first
    | (with_reducible first
         | exact h | apply State.cnt_keeps | apply State.raise_keeps | apply State.fwError_keeps
         | apply State.fwDone_keeps | apply State.flashWrite_keeps | apply State.recWrite_keeps)
    | split | with_reducible refine Keeps.lit rfl rfl rfl rfl rfl rfl ?_

theorem State.stageConfig_keeps {s0 s : State} (h : Keeps s0 s) (x1 x2) : Keeps s0 (State.stageConfig s x1 x2) := by
  simp only [State.stageConfig]
  repeat' (with_reducible first | exact h | apply State.stageFetch_keeps | apply State.stageConfigEnd_keeps)

theorem State.fwVerify_keeps {s0 s : State} (h : Keeps s0 s) (x1 x2 x3) : Keeps s0 (State.fwVerify s x1 x2 x3) := by
  simp only [State.fwVerify]
  repeat' first
    | (with_reducible first
         | exact h | apply State.cnt_keeps | apply State.raise_keeps | apply State.fwError_keeps
         | apply State.fwDone_keeps | apply State.imgRecord_keeps)
    | split

theorem State.fwResume_keeps {s0 s : State} (h : Keeps s0 s) : Keeps s0 (State.fwResume s) := by
  simp only [State.fwResume]
  repeat' first
    | (with_reducible first
         | exact h | apply State.stage_keeps | apply State.stageConfig_keeps | apply State.fwVerify_keeps)
    | split | with_reducible refine Keeps.lit rfl rfl rfl rfl rfl rfl ?_

theorem State.tck_keeps {s0 s : State} (h : Keeps s0 s) (x1 x2) : Keeps s0 (State.tck s x1 x2) := by
  simp only [State.tck]
  repeat' first
    | with_reducible exact h | split
    | with_reducible refine Keeps.lit rfl rfl rfl rfl rfl rfl ?_

theorem State.fwGap_keeps {s0 s : State} (h : Keeps s0 s) (x1 x2) (h2 : ∀ u, Keeps s0 u → Keeps s0 (x2 u)) : Keeps s0 (State.fwGap s x1 x2) := by
  simp only [State.fwGap]
  repeat' first
    | (with_reducible first | exact h | apply h2) | split
    | with_reducible refine Keeps.lit rfl rfl rfl rfl rfl rfl ?_

theorem execFwStageConfig_keeps {s0 s : State} (h : Keeps s0 s) (x0 x1) : ∀ t, execFwStageConfig x0 x1 s = .next t → Keeps s0 t := by
  intro t ht; simp only [execFwStageConfig, Host.Outcome.next.injEq] at ht
  subst ht
  repeat' first
    | (with_reducible first
         | exact h | assumption | apply State.fwStart_keeps | apply State.stageConfig_keeps | apply State.fwGap_keeps)
    | intro u hu

theorem execFwVerify_keeps {s0 s : State} (h : Keeps s0 s) (x0 x1 x2) : ∀ t, execFwVerify x0 x1 x2 s = .next t → Keeps s0 t := by
  intro t ht; simp only [execFwVerify, Host.Outcome.next.injEq] at ht
  subst ht
  repeat' first
    | (with_reducible first
         | exact h | assumption | apply State.fwStart_keeps | apply State.fwVerify_keeps | apply State.fwGap_keeps)
    | intro u hu | split

theorem execSecQuote_keeps {s0 s : State} (h : Keeps s0 s) (x0) : ∀ t, execSecQuote x0 s = .next t → Keeps s0 t := by
  intro t ht; simp only [execSecQuote, Host.Outcome.next.injEq] at ht
  subst ht
  repeat' first
    | (with_reducible first | exact h | assumption | apply State.secStart_keeps | apply State.secQuote_keeps)
    | intro u hu

theorem execFwActivateNow_keeps {s0 s : State} (h : Keeps s0 s) (x0) : ∀ t, execFwActivateNow x0 s = .next t → Keeps s0 t := by
  intro t ht; simp only [execFwActivateNow, Host.Outcome.next.injEq] at ht
  subst ht
  repeat' first
    | (with_reducible first
         | exact h | assumption | apply State.fwStart_keeps | apply State.fwError_keeps | apply State.fwDone_keeps
         | apply State.fwTrigger_keeps)
    | intro u hu | split

theorem execJtagTrst_keeps {s0 s : State} (h : Keeps s0 s) : ∀ t, execJtagTrst s = .next t → Keeps s0 t := by
  intro t ht; simp only [execJtagTrst, Host.Outcome.next.injEq] at ht
  subst ht
  repeat' first
    | with_reducible exact h | with_reducible refine Keeps.lit rfl rfl rfl rfl rfl rfl ?_

theorem execFwuAbort_keeps {s0 s : State} (h : Keeps s0 s) (x0) : ∀ t, execFwuAbort x0 s = .next t → Keeps s0 t := by
  intro t ht; simp only [execFwuAbort, Host.Outcome.next.injEq] at ht
  subst ht
  repeat' first
    | (with_reducible first
         | exact h | assumption | apply State.gate_keeps | apply State.resLate_keeps | apply State.result_keeps)
    | intro u hu | split | with_reducible refine Keeps.lit rfl rfl rfl rfl rfl rfl ?_

theorem State.bootTry_keeps {s0 s : State} (h : Keeps s0 s) (x1 x2) : Keeps s0 (State.bootTry s x1 x2).1 := by
  induction x2 generalizing s x1 with
  | nil =>
    simp only [State.bootTry]
    repeat' (with_reducible exact h)
  | cons x l ih =>
    simp only [State.bootTry]
    repeat' first
      | (with_reducible first | exact h | apply ih | apply State.wr_keeps | apply State.imgRecord_keeps) | split

theorem State.bootSlot_keeps {s0 s : State} (h : Keeps s0 s) (x1 x2 x3) : Keeps s0 (State.bootSlot s x1 x2 x3) := by
  simp only [State.bootSlot]
  repeat' first
    | (with_reducible first
         | exact h | apply State.setSp_keeps | apply State.bootShow_keeps | apply State.recWrite_keeps
         | apply State.migrate_keeps)
    | split

theorem State.bootSelect_keeps {s0 s : State} (h : Keeps s0 s) (x1 x2 x3) : Keeps s0 (State.bootSelect s x1 x2 x3) := by
  simp only [State.bootSelect]
  repeat' first
    | (with_reducible first
         | exact h | apply State.wr_keeps | apply State.wrAll_keeps | apply State.setSp_keeps
         | apply State.fallback_keeps | apply State.imgRecord_keeps | apply State.bootTry_keeps
         | apply State.bootSlot_keeps)
    | split | (refine Keeps.of_fst (by assumption) ?_)

theorem execFwStage_keeps {s0 s : State} (h : Keeps s0 s) (x0 x1 x2) : ∀ t, execFwStage x0 x1 x2 s = .next t → Keeps s0 t := by
  intro t ht; simp only [execFwStage, Host.Outcome.next.injEq] at ht
  subst ht
  repeat' first
    | (with_reducible first
         | exact h | assumption | apply State.fwStart_keeps | apply State.stage_keeps | apply State.fwGap_keeps)
    | intro u hu | split

theorem execFwTrialTimeout_keeps {s0 s : State} (h : Keeps s0 s) : ∀ t, execFwTrialTimeout s = .next t → Keeps s0 t := by
  intro t ht; simp only [execFwTrialTimeout, Host.Outcome.next.injEq] at ht
  subst ht
  repeat' first
    | (with_reducible first | exact h | apply State.fallback_keeps) | split

theorem execFlashRead_keeps {s0 s : State} (h : Keeps s0 s) (x0 x1) : ∀ t, execFlashRead x0 x1 s = .next t → Keeps s0 t := by
  intro t ht; simp only [execFlashRead, Host.Outcome.next.injEq] at ht
  subst ht
  repeat' first
    | (with_reducible first
         | exact h | assumption | apply State.raise_keeps | apply State.post_keeps | apply State.fwStart_keeps
         | apply State.fwError_keeps | apply State.fwDone_keeps)
    | intro u hu | split

theorem execBootSlotSelect_keeps {s0 s : State} (h : Keeps s0 s) (x0 x1 x2) : ∀ t, execBootSlotSelect x0 x1 x2 s = .next t → Keeps s0 t := by
  intro t ht; simp only [execBootSlotSelect, Host.Outcome.next.injEq] at ht
  subst ht
  repeat' first
    | (with_reducible first | exact h | apply State.bootSelect_keeps) | split

/-! ### Machine/Obs.lean -/

set_option maxHeartbeats 200000
theorem State.bwTx_keeps {s0 s : State} (h : Keeps s0 s) (x1 x2) : Keeps s0 (State.bwTx s x1 x2) := by
  simp only [State.bwTx]
  repeat' first
    | with_reducible exact h | split
    | with_reducible refine Keeps.lit rfl rfl rfl rfl rfl rfl ?_

theorem State.legAlias_keeps {s0 s : State} (h : Keeps s0 s) (x1) : Keeps s0 (State.legAlias s x1).1 := by
  simp only [State.legAlias]
  repeat' first
    | with_reducible exact h | with_reducible refine Keeps.lit rfl rfl rfl rfl rfl rfl ?_

theorem execLegAliasRead_keeps {s0 s : State} (h : Keeps s0 s) (x0 x1) : ∀ t, execLegAliasRead x0 x1 s = .next t → Keeps s0 t := by
  intro t ht; simp only [execLegAliasRead, Host.Outcome.next.injEq] at ht
  subst ht
  repeat' first
    | (with_reducible first | exact h | apply State.emit_keeps | apply State.legAlias_keeps) | split

theorem execTraceAbort_keeps {s0 s : State} (h : Keeps s0 s) (x0) : ∀ t, execTraceAbort x0 s = .next t → Keeps s0 t := by
  intro t ht; simp only [execTraceAbort, Host.Outcome.next.injEq] at ht
  subst ht
  repeat' first
    | (with_reducible first
         | exact h | assumption | apply State.gate_keeps | apply State.resLate_keeps | apply State.result_keeps)
    | intro u hu | split | with_reducible refine Keeps.lit rfl rfl rfl rfl rfl rfl ?_

theorem State.traceDumpEnd_keeps {s0 s : State} (h : Keeps s0 s) (x1 x2) : Keeps s0 (State.traceDumpEnd s x1 x2) := by
  simp only [State.traceDumpEnd]
  repeat' first
    | (with_reducible first | exact h | apply State.post_keeps | apply State.result_keeps) | split
    | with_reducible refine Keeps.lit rfl rfl rfl rfl rfl rfl ?_

theorem State.bwRx_keeps {s0 s : State} (h : Keeps s0 s) (x1 x2) : Keeps s0 (State.bwRx s x1 x2) := by
  simp only [State.bwRx]
  repeat' first
    | with_reducible exact h | split
    | with_reducible refine Keeps.lit rfl rfl rfl rfl rfl rfl ?_

theorem State.localStrobe_keeps {s0 s : State} (h : Keeps s0 s) (x1) : Keeps s0 (State.localStrobe s x1) := by
  simp only [State.localStrobe]
  repeat' (with_reducible first | exact h | apply State.latchIf_keeps)

theorem execLocalStrobe_keeps {s0 s : State} (h : Keeps s0 s) (x0) : ∀ t, execLocalStrobe x0 s = .next t → Keeps s0 t := by
  intro t ht; simp only [execLocalStrobe, Host.Outcome.next.injEq] at ht
  subst ht
  repeat' first
    | (with_reducible first | exact h | assumption | apply State.regCmd_keeps | apply State.localStrobe_keeps)
    | intro u hu

theorem State.flushSkip_keeps {s0 s : State} (h : Keeps s0 s) : Keeps s0 (State.flushSkip s) := by
  simp only [State.flushSkip]
  repeat' (with_reducible first | exact h | apply State.cnt_keeps | apply State.raise_keeps)

theorem execTraceClear_keeps {s0 s : State} (h : Keeps s0 s) (x0) : ∀ t, execTraceClear x0 s = .next t → Keeps s0 t := by
  intro t ht; simp only [execTraceClear, Host.Outcome.next.injEq] at ht
  subst ht
  repeat' first
    | (with_reducible first | exact h | apply State.wrAll_keeps | apply State.result_keeps) | split
    | with_reducible refine Keeps.lit rfl rfl rfl rfl rfl rfl ?_

theorem execObsFlush_keeps {s0 s : State} (h : Keeps s0 s) : ∀ t, execObsFlush s = .next t → Keeps s0 t := by
  intro t ht; simp only [execObsFlush, Host.Outcome.next.injEq] at ht
  subst ht
  repeat' first
    | (with_reducible first | exact h | apply State.wr_keeps | apply State.flushSkip_keeps) | split
    | with_reducible refine Keeps.lit rfl rfl rfl rfl rfl rfl ?_

theorem State.logDumpEnd_keeps {s0 s : State} (h : Keeps s0 s) (x1 x2) : Keeps s0 (State.logDumpEnd s x1 x2) := by
  simp only [State.logDumpEnd]
  repeat' first
    | (with_reducible first | exact h | apply State.cnt_keeps | apply State.post_keeps | apply State.result_keeps)
    | split | with_reducible refine Keeps.lit rfl rfl rfl rfl rfl rfl ?_

theorem execObsFlushComplete_keeps {s0 s : State} (h : Keeps s0 s) (x0) : ∀ t, execObsFlushComplete x0 s = .next t → Keeps s0 t := by
  have hb : ∀ (u : State) (b : Bool) (f : ShadowFlush), Keeps s0 u → Keeps s0 ((if b then u.post 1 f.addr f.image
      else { u with hbm := memSets u.hbm f.addr f.image }).wr pgOBS OBS.FLUSH_STS_LAST_SEQ f.seq) := by
    intro u b f h1
    refine Keeps.wr ?_ _ _ _ _
    split
    · exact State.post_keeps h1 _ _ _ _
    · exact ⟨h1.pending, h1.ticks, h1.free, h1.regs, fun x => memSets_wf _ _ (h1.hbm x), h1.nt⟩
  intro t ht; unfold execObsFlushComplete at ht
  injection ht with ht
  subst ht
  split
  · exact h
  · have h1 : Keeps s0 ({ s with shadowFlush := none }.wr pgOBS OBS.FLUSH_STS_BUSY 0) :=
      Keeps.wr (Keeps.lit rfl rfl rfl rfl rfl rfl h) _ _ _ _
    extract_lets s1 good s2
    change Keeps s0 s1 at h1
    clear_value s1
    split
    · exact h1
    · split
      · exact State.flushSkip_keeps h1
      · exact State.cnt_keeps (hb _ _ _ h1) _ _ _

theorem State.logCmd_keeps {s0 s : State} (h : Keeps s0 s) (x1) (h1 : ∀ u, Keeps s0 u → Keeps s0 (x1 u)) : Keeps s0 (State.logCmd s x1) := by
  simp only [State.logCmd]
  repeat' first
    | (with_reducible first | exact h | apply State.raise_keeps | apply h1) | split

theorem execLogDump_keeps {s0 s : State} (h : Keeps s0 s) (x0 x1) : ∀ t, execLogDump x0 x1 s = .next t → Keeps s0 t := by
  intro t ht; simp only [execLogDump, Host.Outcome.next.injEq] at ht
  subst ht
  repeat' first
    | (with_reducible first
         | exact h | assumption | apply State.gate_keeps | apply State.resStart_keeps | apply State.logDumpEnd_keeps
         | apply State.logCmd_keeps)
    | intro u hu | split | with_reducible refine Keeps.lit rfl rfl rfl rfl rfl rfl ?_

theorem execTraceDump_keeps {s0 s : State} (h : Keeps s0 s) (x0 x1) : ∀ t, execTraceDump x0 x1 s = .next t → Keeps s0 t := by
  intro t ht; simp only [execTraceDump, Host.Outcome.next.injEq] at ht
  subst ht
  repeat' first
    | (with_reducible first | exact h | apply State.resStart_keeps | apply State.traceDumpEnd_keeps) | split
    | with_reducible refine Keeps.lit rfl rfl rfl rfl rfl rfl ?_

theorem execBwWindowEnd_keeps {s0 s : State} (h : Keeps s0 s) : ∀ t, execBwWindowEnd s = .next t → Keeps s0 t := by
  intro t ht; simp only [execBwWindowEnd, Host.Outcome.next.injEq] at ht
  subst ht
  repeat' first
    | (with_reducible first
         | exact h | assumption | apply State.cnt_keeps | apply State.wrAll_keeps | apply Keeps.foldl)
    | intro u _ hu | split | with_reducible refine Keeps.lit rfl rfl rfl rfl rfl rfl ?_

theorem execSnapInEdge_keeps {s0 s : State} (h : Keeps s0 s) : ∀ t, execSnapInEdge s = .next t → Keeps s0 t := by
  intro t ht; simp only [execSnapInEdge, Host.Outcome.next.injEq] at ht
  subst ht
  repeat' first
    | (with_reducible first | exact h | apply State.strobe_keeps) | split

theorem execLogAbort_keeps {s0 s : State} (h : Keeps s0 s) (x0) : ∀ t, execLogAbort x0 s = .next t → Keeps s0 t := by
  intro t ht; simp only [execLogAbort, Host.Outcome.next.injEq] at ht
  subst ht
  repeat' first
    | (with_reducible first
         | exact h | assumption | apply State.gate_keeps | apply State.resLate_keeps | apply State.result_keeps)
    | intro u hu | split | with_reducible refine Keeps.lit rfl rfl rfl rfl rfl rfl ?_

theorem execStrobeFire_keeps {s0 s : State} (h : Keeps s0 s) : ∀ t, execStrobeFire s = .next t → Keeps s0 t := by
  intro t ht; simp only [execStrobeFire, Host.Outcome.next.injEq] at ht
  subst ht
  repeat' first
    | (with_reducible first | exact h | apply State.strobe_keeps) | split

theorem execGfreezeWrite_keeps {s0 s : State} (h : Keeps s0 s) (x0) : ∀ t, execGfreezeWrite x0 s = .next t → Keeps s0 t := by
  intro t ht; simp only [execGfreezeWrite, Host.Outcome.next.injEq] at ht
  subst ht
  repeat' first
    | (with_reducible first | exact h | apply State.put_keeps) | split

theorem execLogAppend_keeps {s0 s : State} (h : Keeps s0 s) (x0) : ∀ t, execLogAppend x0 s = .next t → Keeps s0 t := by
  intro t ht; simp only [execLogAppend, Host.Outcome.next.injEq] at ht
  subst ht
  repeat' first
    | (with_reducible first
         | exact h | assumption | apply State.gate_keeps | apply State.logAppend_keeps | apply State.result_keeps
         | apply State.logCmd_keeps)
    | intro u hu | split

theorem State.legGather_keeps {s0 s : State} (h : Keeps s0 s) : Keeps s0 (State.legGather s) := by
  simp only [State.legGather]
  repeat' first
    | (with_reducible first | exact h | assumption | apply State.wr_keeps | apply Keeps.foldl) | intro u _ hu

theorem execLegGather_keeps {s0 s : State} (h : Keeps s0 s) (x0) : ∀ t, execLegGather x0 s = .next t → Keeps s0 t := by
  intro t ht; simp only [execLegGather, Host.Outcome.next.injEq] at ht
  subst ht
  repeat' first
    | (with_reducible first
         | exact h | apply State.inc_keeps | apply State.raiseIf_keeps | apply State.legGather_keeps)
    | split | with_reducible refine Keeps.lit rfl rfl rfl rfl rfl rfl ?_

end Sys2Proof.Machine
end

