-- ==== Sys2Proof/Laws/KeepsTables.lean ====
section
/-! SUPPORT. Laws/KeepsTables.lean: every operation and command of Machine/Tables.lean, Machine/Range.lean keeps what `Keeps` names. -/

namespace Sys2Proof.Machine

/-! ### Machine/Tables.lean -/

set_option maxHeartbeats 200000
theorem State.vstoreView_keeps {s0 s : State} (h : Keeps s0 s) : Keeps s0 (State.vstoreView s) := by
  simp only [State.vstoreView]
  repeat' (with_reducible first | exact h | apply State.wr_keeps | apply State.put_keeps)

theorem State.tdmaEnd_keeps {s0 s : State} (h : Keeps s0 s) (x1 x2 x3 x4 x5 x6) : Keeps s0 (State.tdmaEnd s x1 x2 x3 x4 x5 x6) := by
  simp only [State.tdmaEnd]
  repeat' first
    | (with_reducible first
         | exact h | apply State.wr_keeps | apply State.cnt_keeps | apply State.post_keeps
         | apply State.raiseIf_keeps)
    | split

theorem State.keyWrite_keeps {s0 s : State} (h : Keeps s0 s) (x1 x2 x3) : Keeps s0 (State.keyWrite s x1 x2 x3) := by
  simp only [State.keyWrite]
  repeat' first
    | (with_reducible first
         | exact h | apply State.hbmPast_keeps | apply State.hbmPut_keeps | apply State.hbmPost_keeps)
    | split | with_reducible refine Keeps.lit rfl rfl rfl rfl rfl rfl ?_

theorem State.writeBack_keeps {s0 s : State} (h : Keeps s0 s) (x1 x2 x3) : Keeps s0 (State.writeBack s x1 x2 x3) := by
  induction x3 generalizing s x1 x2 with
  | nil => cases x1 <;> exact Keeps.lit rfl rfl rfl rfl rfl rfl h
  | cons v l ih =>
    cases x1 with
    | zero => exact Keeps.lit rfl rfl rfl rfl rfl rfl h
    | succ n =>
      simp only [State.writeBack]
      split
      · exact ih (State.keyWrite_keeps h _ _ _) _ _
      · exact ih h _ _

theorem State.doorbell_keeps {s0 s : State} (h : Keeps s0 s) (x1 x2 x3) : Keeps s0 (State.doorbell s x1 x2 x3) := by
  simp only [State.doorbell]
  repeat' first
    | (with_reducible first
         | exact h | apply State.wr_keeps | apply State.cnt_keeps | apply State.raise_keeps
         | apply State.result_keeps)
    | split

theorem State.tdmaFetch_keeps {s0 s : State} (h : Keeps s0 s) (x1) : Keeps s0 (State.tdmaFetch s x1) := by
  simp only [State.tdmaFetch]
  repeat' (with_reducible first | exact h | apply State.fetch_keeps)

theorem State.tdmaFinish_keeps {s0 s : State} (h : Keeps s0 s) (x1 x2 x3) (h3 : ∀ t r, x3 = .ok t r → Keeps s0 t) : Keeps s0 (State.tdmaFinish s x1 x2 x3) := by
  simp only [State.tdmaFinish]
  split
  · exact h
  · exact State.tdmaEnd_keeps (h3 _ _ rfl) _ _ _ _ _ _
  · refine State.tdmaEnd_keeps (State.raiseIf_keeps ?_ _ _ _) _ _ _ _ _ _
    split
    · exact Keeps.wr h _ _ _ _
    · exact h

theorem State.tdmaRun_keeps {s0 s : State} (h : Keeps s0 s) (x1 x2 x3 x4) (h4 : ∀ u, Keeps s0 u → ∀ t r, x4 u = .ok t r → Keeps s0 t) : Keeps s0 (State.tdmaRun s x1 x2 x3 x4) := by
  unfold State.tdmaRun
  split
  · exact State.tagWait_keeps h
  extract_lets s1 s2
  have h1 : Keeps s0 s1 := State.fetch_keeps h _ _ _
  have h2 : Keeps s0 s2 := by
    unfold s2
    clear_value s1
    split
    · exact State.tdmaFetch_keeps h1 _
    · exact h1
  clear_value s2 s1
  repeat' first
    | (with_reducible first | exact h | apply State.tdmaEnd_keeps) | exact h1
    | exact State.tdmaFinish_keeps h2 _ _ _ (h4 _ h2) | split

theorem State.tdmaRead_keeps {s0 s : State} (h : Keeps s0 s) (x1) : ∀ t r, State.tdmaRead s x1 = .ok t r → Keeps s0 t := by
  intro t r ht; simp only [State.tdmaRead] at ht
  repeat' first
    | (split at ht) | (simp only [TdmaOut.ok.injEq, reduceCtorEq] at ht) | (obtain ⟨rfl, _⟩ := ht)
    | (with_reducible first | exact h | apply State.post_keeps)

theorem execTdmaRead_keeps {s0 s : State} (h : Keeps s0 s) (x0 x1) : ∀ t, execTdmaRead x0 x1 s = .next t → Keeps s0 t := by
  intro t ht; simp only [execTdmaRead, Host.Outcome.next.injEq] at ht
  subst ht
  exact State.tdmaRun_keeps h _ _ _ _ (fun u hu => State.tdmaRead_keeps hu _)

theorem State.stageRow_keeps {s0 s : State} (h : Keeps s0 s) (x1 x2 x3) : Keeps s0 (State.stageRow s x1 x2 x3) := by
  simp only [State.stageRow]
  repeat' first
    | with_reducible exact h | split
    | with_reducible refine Keeps.lit rfl rfl rfl rfl rfl rfl ?_

theorem State.memWrite_keeps {s0 s : State} (h : Keeps s0 s) (x1 x2 x3 x4) : Keeps s0 (State.memWrite s x1 x2 x3 x4) := by
  simp only [State.memWrite]
  repeat' (with_reducible first | exact h | apply State.keyWrite_keeps)

theorem State.countRow_keeps {s0 s : State} (h : Keeps s0 s) (x1 x2 x3) : Keeps s0 (State.countRow s x1 x2 x3) := by
  simp only [State.countRow]
  repeat' first
    | (with_reducible first | exact h | apply State.wr_keeps) | split

theorem State.rowWrite_keeps {s0 s : State} (h : Keeps s0 s) (x1 x2 x3 x4) : Keeps s0 (State.rowWrite s x1 x2 x3 x4) := by
  simp only [State.rowWrite]
  repeat' (with_reducible first | exact h | apply State.memWrite_keeps | apply State.countRow_keeps)

theorem State.writeOne_keeps {s0 s : State} (h : Keeps s0 s) (x1 x2 x3 x4 x5) : Keeps s0 (State.writeOne s x1 x2 x3 x4 x5) := by
  simp only [State.writeOne]
  repeat' first
    | (with_reducible first
         | exact h | apply State.vstoreView_keeps | apply State.stageRow_keeps | apply State.rowWrite_keeps)
    | split | with_reducible refine Keeps.lit rfl rfl rfl rfl rfl rfl ?_

theorem State.writeRows_keeps {s0 s : State} (h : Keeps s0 s) (x1 x2 x3 x4) : ∀ t r, State.writeRows s x1 x2 x3 x4 = .ok t r → Keeps s0 t := by
  intro t r ht; simp only [State.writeRows] at ht
  repeat' first
    | (split at ht) | (simp only [TdmaOut.ok.injEq, reduceCtorEq] at ht) | (obtain ⟨rfl, _⟩ := ht)
    | (with_reducible first | exact h | assumption | apply State.writeOne_keeps | apply Keeps.foldl) | intro u _ hu

theorem State.tdmaWrite_keeps {s0 s : State} (h : Keeps s0 s) (x1 x2 x3) : ∀ t r, State.tdmaWrite s x1 x2 x3 = .ok t r → Keeps s0 t := by
  intro t r ht; simp only [State.tdmaWrite] at ht
  repeat' first
    | (split at ht) | (simp only [TdmaOut.ok.injEq, reduceCtorEq] at ht) | with_reducible exact h
    | (refine State.writeRows_keeps (s0 := s0) ?_ _ _ _ _ _ _ (by assumption))

theorem execTdmaWrite_keeps {s0 s : State} (h : Keeps s0 s) (x0 x1 x2) : ∀ t, execTdmaWrite x0 x1 x2 s = .next t → Keeps s0 t := by
  intro t ht; simp only [execTdmaWrite, Host.Outcome.next.injEq] at ht
  subst ht
  exact State.tdmaRun_keeps h _ _ _ _ (fun u hu => State.tdmaWrite_keeps hu _ _ _)

theorem execTdmaDoorbell_keeps {s0 s : State} (h : Keeps s0 s) (x0 x1 x2) : ∀ t, execTdmaDoorbell x0 x1 x2 s = .next t → Keeps s0 t := by
  intro t ht; simp only [execTdmaDoorbell, Host.Outcome.next.injEq] at ht
  subst ht
  repeat' first
    | (with_reducible first | exact h | assumption | apply State.gate_keeps | apply State.doorbell_keeps) | intro u hu
    | split

theorem State.tdmaSearch_keeps {s0 s : State} (h : Keeps s0 s) (x1 x2) : ∀ t r, State.tdmaSearch s x1 x2 = .ok t r → Keeps s0 t := by
  intro t r ht; simp only [State.tdmaSearch] at ht
  repeat' first
    | (split at ht) | (simp only [TdmaOut.ok.injEq, reduceCtorEq] at ht) | (obtain ⟨rfl, _⟩ := ht)
    | with_reducible exact h

theorem State.abortAll_keeps {s0 s : State} (h : Keeps s0 s) (x1 x2 x3) : Keeps s0 (State.abortAll s x1 x2 x3) := by
  induction x2 generalizing s x1 x3 with
  | zero =>
    simp only [State.abortAll]
    repeat' (with_reducible exact h)
  | succ x ih =>
    simp only [State.abortAll]
    repeat' (with_reducible first | exact h | apply ih | apply State.tdmaEnd_keeps)

theorem State.ringAbort_keeps {s0 s : State} (h : Keeps s0 s) (x1 x2) : Keeps s0 (State.ringAbort s x1 x2) := by
  simp only [State.ringAbort]
  repeat' first
    | (with_reducible first | exact h | apply State.vstoreView_keeps | apply State.abortAll_keeps)
    | with_reducible refine Keeps.lit rfl rfl rfl rfl rfl rfl ?_

theorem State.lockView_keeps {s0 s : State} (h : Keeps s0 s) : Keeps s0 (State.lockView s) := by
  simp only [State.lockView]
  repeat' (with_reducible first | exact h | apply State.wr_keeps)

theorem State.tdmaUnlock_keeps {s0 s : State} (h : Keeps s0 s) (x1 x2 x3) : ∀ t r, State.tdmaUnlock s x1 x2 x3 = .ok t r → Keeps s0 t := by
  intro t r ht; simp only [State.tdmaUnlock] at ht
  repeat' first
    | (split at ht) | (simp only [TdmaOut.ok.injEq, reduceCtorEq] at ht) | (obtain ⟨rfl, _⟩ := ht)
    | (with_reducible first | exact h | apply State.rowWrite_keeps | apply State.lockView_keeps)
    | with_reducible refine Keeps.lit rfl rfl rfl rfl rfl rfl ?_

theorem execTdmaUnlock_keeps {s0 s : State} (h : Keeps s0 s) (x0 x1) : ∀ t, execTdmaUnlock x0 x1 s = .next t → Keeps s0 t := by
  intro t ht; simp only [execTdmaUnlock, Host.Outcome.next.injEq] at ht
  subst ht
  exact State.tdmaRun_keeps h _ _ _ _ (fun u hu => State.tdmaUnlock_keeps hu _ _ _)

theorem execEpochDrained_keeps {s0 s : State} (h : Keeps s0 s) : ∀ t, execEpochDrained s = .next t → Keeps s0 t := by
  intro t ht; simp only [execEpochDrained, Host.Outcome.next.injEq] at ht
  subst ht
  repeat' first
    | (with_reducible first | exact h | apply State.wr_keeps | apply State.raise_keeps | apply State.peak_keeps)
    | split

theorem State.shdView_keeps {s0 s : State} (h : Keeps s0 s) : Keeps s0 (State.shdView s) := by
  simp only [State.shdView]
  repeat' first
    | (with_reducible first | exact h | apply State.wr_keeps) | split

theorem State.lenCfgWrite_keeps {s0 s : State} (h : Keeps s0 s) (x1 x2) : Keeps s0 (State.lenCfgWrite s x1 x2) := by
  simp only [State.lenCfgWrite]
  repeat' first
    | (with_reducible first | exact h | apply State.wr_keeps | apply State.raise_keeps | apply State.wrWord_keeps)
    | split

theorem State.countGroup_keeps {s0 s : State} (h : Keeps s0 s) : Keeps s0 (State.countGroup s) := by
  simp only [State.countGroup]
  repeat' first
    | (with_reducible first | exact h | assumption | apply State.countRow_keeps | apply Keeps.foldl) | intro u _ hu

theorem State.commitNow_keeps {s0 s : State} (h : Keeps s0 s) (x1) : Keeps s0 (State.commitNow s x1) := by
  simp only [State.commitNow]
  repeat' first
    | (with_reducible first
         | exact h | apply State.wr_keeps | apply State.cnt_keeps | apply State.raise_keeps
         | apply State.vstoreView_keeps | apply State.tdmaEnd_keeps | apply State.countGroup_keeps)
    | split | with_reducible refine Keeps.lit rfl rfl rfl rfl rfl rfl ?_

theorem State.commitRequest_keeps {s0 s : State} (h : Keeps s0 s) (x1) : Keeps s0 (State.commitRequest s x1) := by
  simp only [State.commitRequest]
  repeat' first
    | (with_reducible first
         | exact h | apply State.wr_keeps | apply State.vstoreView_keeps | apply State.commitNow_keeps)
    | split | with_reducible refine Keeps.lit rfl rfl rfl rfl rfl rfl ?_

theorem State.epochCmd_keeps {s0 s : State} (h : Keeps s0 s) (x1 x2) : Keeps s0 (State.epochCmd s x1 x2) := by
  simp only [State.epochCmd]
  repeat' first
    | (with_reducible first
         | exact h | apply State.wr_keeps | apply State.cnt_keeps | apply State.raise_keeps
         | apply State.vstoreView_keeps | apply State.commitRequest_keeps)
    | split | with_reducible refine Keeps.lit rfl rfl rfl rfl rfl rfl ?_

theorem State.tblCfgBWrite_keeps {s0 s : State} (h : Keeps s0 s) (x1 x2) : Keeps s0 (State.tblCfgBWrite s x1 x2) := by
  simp only [State.tblCfgBWrite]
  repeat' first
    | (with_reducible first | exact h | apply State.wr_keeps | apply State.raise_keeps) | split

theorem State.rowTouch_keeps {s0 s : State} (h : Keeps s0 s) (x1 x2 x3 x4 x5) : Keeps s0 (State.rowTouch s x1 x2 x3 x4 x5) := by
  simp only [State.rowTouch]
  repeat' first
    | (with_reducible first | exact h | apply State.memWrite_keeps) | split
    | with_reducible refine Keeps.lit rfl rfl rfl rfl rfl rfl ?_

theorem State.ringDisable_keeps {s0 s : State} (h : Keeps s0 s) (x1 x2) : Keeps s0 (State.ringDisable s x1 x2) := by
  simp only [State.ringDisable]
  repeat' (with_reducible first | exact h | apply State.wr_keeps | apply State.ringAbort_keeps)

theorem execTdmaRingDisable_keeps {s0 s : State} (h : Keeps s0 s) (x0 x1) : ∀ t, execTdmaRingDisable x0 x1 s = .next t → Keeps s0 t := by
  intro t ht; simp only [execTdmaRingDisable, Host.Outcome.next.injEq] at ht
  subst ht
  repeat' first
    | (with_reducible first | exact h | assumption | apply State.gate_keeps | apply State.ringDisable_keeps)
    | intro u hu | split

theorem State.report_keeps {s0 s : State} (h : Keeps s0 s) (x1 x2 x3 x4 x5) : Keeps s0 (State.report s x1 x2 x3 x4 x5) := by
  simp only [State.report]
  repeat' first
    | (with_reducible first | exact h | apply State.wr_keeps | apply State.post_keeps) | split

theorem State.ageVisit_keeps {s0 s : State} (h : Keeps s0 s) (x1 x2) : Keeps s0 (State.ageVisit s x1 x2) := by
  simp only [State.ageVisit]
  repeat' first
    | (with_reducible first
         | exact h | apply State.cnt_keeps | apply State.raise_keeps | apply State.countRow_keeps
         | apply State.rowTouch_keeps | apply State.report_keeps)
    | split

theorem execAgeSweepVisit_keeps {s0 s : State} (h : Keeps s0 s) (x0) : ∀ t, execAgeSweepVisit x0 s = .next t → Keeps s0 t := by
  intro t ht; simp only [execAgeSweepVisit, Host.Outcome.next.injEq] at ht
  subst ht
  repeat' first
    | (with_reducible first | exact h | apply State.cnt_keeps | apply State.ageVisit_keeps) | split
    | with_reducible refine Keeps.lit rfl rfl rfl rfl rfl rfl ?_

theorem execShdMmPop_keeps {s0 s : State} (h : Keeps s0 s) : ∀ t, execShdMmPop s = .next t → Keeps s0 t := by
  intro t ht; simp only [execShdMmPop, Host.Outcome.next.injEq] at ht
  subst ht
  repeat' first
    | (with_reducible first | exact h | assumption | apply State.gate_keeps | apply State.shdView_keeps) | intro u hu
    | with_reducible refine Keeps.lit rfl rfl rfl rfl rfl rfl ?_

theorem State.shdRepair_keeps {s0 s : State} (h : Keeps s0 s) (x1 x2) : Keeps s0 (State.shdRepair s x1 x2) := by
  simp only [State.shdRepair]
  repeat' first
    | (with_reducible first | exact h | apply State.cnt_keeps | apply State.rowWrite_keeps) | split
    | with_reducible refine Keeps.lit rfl rfl rfl rfl rfl rfl ?_

theorem State.shdRetry_keeps {s0 s : State} (h : Keeps s0 s) : Keeps s0 (State.shdRetry s) := by
  simp only [State.shdRetry]
  repeat' first
    | (with_reducible first | exact h | assumption | apply State.shdRepair_keeps | apply Keeps.foldl) | intro u _ hu
    | split | with_reducible refine Keeps.lit rfl rfl rfl rfl rfl rfl ?_

theorem execTdmaUnlockDiscard_keeps {s0 s : State} (h : Keeps s0 s) (x0 x1) : ∀ t, execTdmaUnlockDiscard x0 x1 s = .next t → Keeps s0 t := by
  intro t ht; simp only [execTdmaUnlockDiscard, Host.Outcome.next.injEq] at ht
  subst ht
  exact State.tdmaRun_keeps h _ _ _ _ (fun u hu => State.tdmaUnlock_keeps hu _ _ _)

theorem State.tdmaLock_keeps {s0 s : State} (h : Keeps s0 s) (x1 x2) : ∀ t r, State.tdmaLock s x1 x2 = .ok t r → Keeps s0 t := by
  intro t r ht; simp only [State.tdmaLock] at ht
  repeat' first
    | (split at ht) | (simp only [TdmaOut.ok.injEq, reduceCtorEq] at ht) | (obtain ⟨rfl, _⟩ := ht)
    | (with_reducible first | exact h | apply State.lockView_keeps)
    | with_reducible refine Keeps.lit rfl rfl rfl rfl rfl rfl ?_

theorem execAgeSweepStart_keeps {s0 s : State} (h : Keeps s0 s) (x0) : ∀ t, execAgeSweepStart x0 s = .next t → Keeps s0 t := by
  intro t ht; simp only [execAgeSweepStart, Host.Outcome.next.injEq] at ht
  subst ht
  repeat' first
    | (with_reducible first | exact h | apply State.cnt_keeps | apply State.raise_keeps) | split
    | with_reducible refine Keeps.lit rfl rfl rfl rfl rfl rfl ?_

theorem State.shdCompare_keeps {s0 s : State} (h : Keeps s0 s) (x1 x2 x3 x4) : Keeps s0 (State.shdCompare s x1 x2 x3 x4) := by
  simp only [State.shdCompare]
  repeat' first
    | (with_reducible first | exact h | apply State.cnt_keeps | apply State.raise_keeps) | split
    | with_reducible refine Keeps.lit rfl rfl rfl rfl rfl rfl ?_

theorem execTdmaEpochCommit_keeps {s0 s : State} (h : Keeps s0 s) (x0 x1) : ∀ t, execTdmaEpochCommit x0 x1 s = .next t → Keeps s0 t := by
  intro t ht; simp only [execTdmaEpochCommit, Host.Outcome.next.injEq] at ht
  subst ht
  repeat' first
    | (with_reducible first
         | exact h | apply State.tagWait_keeps | apply State.fetch_keeps | apply State.tdmaEnd_keeps
         | apply State.commitRequest_keeps)
    | split

theorem execTdmaAbort_keeps {s0 s : State} (h : Keeps s0 s) (x0 x1) : ∀ t, execTdmaAbort x0 x1 s = .next t → Keeps s0 t := by
  intro t ht; simp only [execTdmaAbort, Host.Outcome.next.injEq] at ht
  subst ht
  repeat' first
    | (with_reducible first | exact h | assumption | apply State.gate_keeps | apply State.ringAbort_keeps)
    | intro u hu | split

theorem State.shdFetch_keeps {s0 s : State} (h : Keeps s0 s) (x1 x2) : Keeps s0 (State.shdFetch s x1 x2) := by
  simp only [State.shdFetch]
  repeat' (with_reducible first | exact h | apply State.fetch_keeps)

theorem State.shdReport_keeps {s0 s : State} (h : Keeps s0 s) (x1 x2) : Keeps s0 (State.shdReport s x1 x2) := by
  simp only [State.shdReport]
  repeat' first
    | (with_reducible first
         | exact h | apply State.cnt_keeps | apply State.raise_keeps | apply State.shdView_keeps
         | apply State.shdRepair_keeps)
    | split | with_reducible refine Keeps.lit rfl rfl rfl rfl rfl rfl ?_

theorem execShdRecheck_keeps {s0 s : State} (h : Keeps s0 s) (x0 x1 x2) : ∀ t, execShdRecheck x0 x1 x2 s = .next t → Keeps s0 t := by
  intro t ht; simp only [execShdRecheck, Host.Outcome.next.injEq] at ht
  subst ht
  repeat' first
    | (with_reducible first
         | exact h | apply State.raise_keeps | apply State.tagWait_keeps | apply State.shdFetch_keeps
         | apply State.shdReport_keeps)
    | split | with_reducible refine Keeps.lit rfl rfl rfl rfl rfl rfl ?_

theorem execTdmaLock_keeps {s0 s : State} (h : Keeps s0 s) (x0 x1) : ∀ t, execTdmaLock x0 x1 s = .next t → Keeps s0 t := by
  intro t ht; simp only [execTdmaLock, Host.Outcome.next.injEq] at ht
  subst ht
  exact State.tdmaRun_keeps h _ _ _ _ (fun u hu => State.tdmaLock_keeps hu _ _)

theorem execEpochWriteBack_keeps {s0 s : State} (h : Keeps s0 s) (x0) : ∀ t, execEpochWriteBack x0 s = .next t → Keeps s0 t := by
  intro t ht; simp only [execEpochWriteBack, Host.Outcome.next.injEq] at ht
  subst ht
  repeat' first
    | (with_reducible first
         | exact h | apply State.vstoreView_keeps | apply State.writeBack_keeps | apply State.shdRetry_keeps)
    | split

theorem execTdmaSearch_keeps {s0 s : State} (h : Keeps s0 s) (x0 x1 x2) : ∀ t, execTdmaSearch x0 x1 x2 s = .next t → Keeps s0 t := by
  intro t ht; simp only [execTdmaSearch, Host.Outcome.next.injEq] at ht
  subst ht
  exact State.tdmaRun_keeps h _ _ _ _ (fun u hu => State.tdmaSearch_keeps hu _ _)

theorem execEpochCommitCmd_keeps {s0 s : State} (h : Keeps s0 s) (x0) : ∀ t, execEpochCommitCmd x0 s = .next t → Keeps s0 t := by
  intro t ht; simp only [execEpochCommitCmd, Host.Outcome.next.injEq] at ht
  subst ht
  repeat' first
    | (with_reducible first | exact h | assumption | apply State.gate_keeps | apply State.epochCmd_keeps) | intro u hu

theorem execShdCompare_keeps {s0 s : State} (h : Keeps s0 s) (x0 x1 x2) : ∀ t, execShdCompare x0 x1 x2 s = .next t → Keeps s0 t := by
  intro t ht; simp only [execShdCompare, Host.Outcome.next.injEq] at ht
  subst ht
  repeat' first
    | (with_reducible first
         | exact h | apply State.tagWait_keeps | apply State.shdCompare_keeps | apply State.shdFetch_keeps)
    | split | with_reducible refine Keeps.lit rfl rfl rfl rfl rfl rfl ?_

theorem execEpochCommitEffect_keeps {s0 s : State} (h : Keeps s0 s) : ∀ t, execEpochCommitEffect s = .next t → Keeps s0 t := by
  intro t ht; simp only [execEpochCommitEffect, Host.Outcome.next.injEq] at ht
  subst ht
  repeat' first
    | (with_reducible first | exact h | apply State.vstoreView_keeps | apply State.commitNow_keeps) | split
    | with_reducible refine Keeps.lit rfl rfl rfl rfl rfl rfl ?_

theorem State.tdmaInsert_keeps {s0 s : State} (h : Keeps s0 s) (x1 x2 x3) : ∀ t r, State.tdmaInsert s x1 x2 x3 = .ok t r → Keeps s0 t := by
  intro t r ht; simp only [State.tdmaInsert] at ht
  repeat' first
    | (split at ht) | (simp only [TdmaOut.ok.injEq, reduceCtorEq] at ht) | (obtain ⟨rfl, _⟩ := ht)
    | with_reducible exact h | (refine State.writeRows_keeps (s0 := s0) ?_ _ _ _ _ _ _ (by assumption))

theorem execTdmaInsert_keeps {s0 s : State} (h : Keeps s0 s) (x0 x1 x2) : ∀ t, execTdmaInsert x0 x1 x2 s = .next t → Keeps s0 t := by
  intro t ht; simp only [execTdmaInsert, Host.Outcome.next.injEq] at ht
  subst ht
  exact State.tdmaRun_keeps h _ _ _ _ (fun u hu => State.tdmaInsert_keeps hu _ _ _)

theorem State.tdmaDelete_keeps {s0 s : State} (h : Keeps s0 s) (x1 x2 x3) : ∀ t r, State.tdmaDelete s x1 x2 x3 = .ok t r → Keeps s0 t := by
  intro t r ht; simp only [State.tdmaDelete] at ht
  repeat' first
    | (split at ht) | (simp only [TdmaOut.ok.injEq, reduceCtorEq] at ht) | with_reducible exact h
    | (refine State.writeRows_keeps (s0 := s0) ?_ _ _ _ _ _ _ (by assumption))

theorem State.tblCfgAWrite_keeps {s0 s : State} (h : Keeps s0 s) (x1 x2) : Keeps s0 (State.tblCfgAWrite s x1 x2) := by
  simp only [State.tblCfgAWrite]
  repeat' first
    | (with_reducible first | exact h | apply State.wr_keeps | apply State.raise_keeps | apply State.wrWord_keeps)
    | split

theorem execEpochDiscard_keeps {s0 s : State} (h : Keeps s0 s) : ∀ t, execEpochDiscard s = .next t → Keeps s0 t := by
  intro t ht; simp only [execEpochDiscard, Host.Outcome.next.injEq] at ht
  subst ht
  repeat' first
    | (with_reducible first | exact h | assumption | apply State.gate_keeps | apply State.epochCmd_keeps) | intro u hu

theorem execTdmaDelete_keeps {s0 s : State} (h : Keeps s0 s) (x0 x1 x2) : ∀ t, execTdmaDelete x0 x1 x2 s = .next t → Keeps s0 t := by
  intro t ht; simp only [execTdmaDelete, Host.Outcome.next.injEq] at ht
  subst ht
  exact State.tdmaRun_keeps h _ _ _ _ (fun u hu => State.tdmaDelete_keeps hu _ _ _)

/-! ### Machine/Range.lean -/

set_option maxHeartbeats 200000
theorem State.rsuCount_keeps {s0 s : State} (h : Keeps s0 s) (x1) : Keeps s0 (State.rsuCount s x1) := by
  simp only [State.rsuCount]
  repeat' (with_reducible first | exact h | apply State.wr_keeps)

theorem State.rsuSet_keeps {s0 s : State} (h : Keeps s0 s) (x1 x2 x3) : Keeps s0 (State.rsuSet s x1 x2 x3) := by
  simp only [State.rsuSet]
  repeat' first
    | (with_reducible first | exact h | assumption | apply State.rsuCount_keeps | apply Keeps.foldl) | intro u _ hu
    | with_reducible refine Keeps.lit rfl rfl rfl rfl rfl rfl ?_

theorem State.rsuTie_keeps {s0 s : State} (h : Keeps s0 s) (x1) : Keeps s0 (State.rsuTie s x1) := by
  simp only [State.rsuTie]
  repeat' first
    | (with_reducible first | exact h | apply State.cnt_keeps | apply State.raise_keeps | apply State.wrAll_keeps)
    | split

theorem State.rsuOutcome_keeps {s0 s : State} (h : Keeps s0 s) (x1) : Keeps s0 (State.rsuOutcome s x1).1 := by
  simp only [State.rsuOutcome]
  repeat' first
    | (with_reducible first | exact h | apply State.cnt_keeps | apply State.rsuTie_keeps) | split

theorem State.rsuErr_keeps {s0 s : State} (h : Keeps s0 s) (x1 x2 x3) : Keeps s0 (State.rsuErr s x1 x2 x3) := by
  simp only [State.rsuErr]
  repeat' first
    | (with_reducible first | exact h | apply State.cnt_keeps | apply State.raise_keeps | apply State.result_keeps)
    | split

theorem State.rsuCmd_keeps {s0 s : State} (h : Keeps s0 s) (x1 x2 x3 x4) (h4 : ∀ y0 y1, Keeps s0 (x4 y0 y1)) : Keeps s0 (State.rsuCmd s x1 x2 x3 x4) := by
  simp only [State.rsuCmd]
  repeat' first
    | (with_reducible first
         | exact h | apply State.cnt_keeps | apply State.raise_keeps | apply State.rsuErr_keeps | apply h4)
    | split

theorem State.rsInvalidate_keeps {s0 s : State} (h : Keeps s0 s) (x1 x2 x3) : Keeps s0 (State.rsInvalidate s x1 x2 x3) := by
  simp only [State.rsInvalidate]
  repeat' first
    | (with_reducible first
         | exact h | apply State.cnt_keeps | apply State.result_keeps | apply State.rsuSet_keeps
         | apply State.rsuCmd_keeps)
    | intro u hu

theorem State.rsAbort_keeps {s0 s : State} (h : Keeps s0 s) (x1) : Keeps s0 (State.rsAbort s x1) := by
  simp only [State.rsAbort]
  repeat' first
    | (with_reducible first | exact h | apply State.resLate_keeps | apply State.result_keeps) | split
    | with_reducible refine Keeps.lit rfl rfl rfl rfl rfl rfl ?_

theorem State.rsWrite_keeps {s0 s : State} (h : Keeps s0 s) (x1 x2 x3) : Keeps s0 (State.rsWrite s x1 x2 x3) := by
  simp only [State.rsWrite]
  repeat' first
    | (with_reducible first
         | exact h | apply State.cnt_keeps | apply State.result_keeps | apply State.rsuSet_keeps
         | apply State.rsuCmd_keeps)
    | intro u hu

theorem State.rsuClear_keeps {s0 s : State} (h : Keeps s0 s) (x1) : Keeps s0 (State.rsuClear s x1) := by
  simp only [State.rsuClear]
  repeat' first
    | (with_reducible first | exact h | apply State.rsuCount_keeps)
    | with_reducible refine Keeps.lit rfl rfl rfl rfl rfl rfl ?_

theorem State.rsuModeWrite_keeps {s0 s : State} (h : Keeps s0 s) (x1) : Keeps s0 (State.rsuModeWrite s x1) := by
  simp only [State.rsuModeWrite]
  repeat' first
    | (with_reducible first
         | exact h | assumption | apply State.put_keeps | apply State.raise_keeps | apply State.rsuClear_keeps
         | apply Keeps.foldl)
    | intro u _ hu | split

theorem State.moveWindow_keeps {s0 s : State} (h : Keeps s0 s) (x1 x2 x3) : Keeps s0 (State.moveWindow s x1 x2 x3) := by
  simp only [State.moveWindow]
  repeat' first
    | (with_reducible first
         | exact h | apply State.resStart_keeps | apply State.rsuErr_keeps | apply State.rsuCmd_keeps)
    | intro u hu | split | with_reducible refine Keeps.lit rfl rfl rfl rfl rfl rfl ?_

theorem execMoveWindow_keeps {s0 s : State} (h : Keeps s0 s) (x0 x1 x2) : ∀ t, execMoveWindow x0 x1 x2 s = .next t → Keeps s0 t := by
  intro t ht; simp only [execMoveWindow, Host.Outcome.next.injEq] at ht
  subst ht
  repeat' first
    | (with_reducible first | exact h | assumption | apply State.gate_keeps | apply State.moveWindow_keeps)
    | intro u hu | split

theorem State.rsuCopy_keeps {s0 s : State} (h : Keeps s0 s) (x1 x2) : Keeps s0 (State.rsuCopy s x1 x2) := by
  simp only [State.rsuCopy]
  repeat' first
    | (with_reducible first | exact h | apply State.cnt_keeps | apply State.rsuSet_keeps)
    | with_reducible refine Keeps.lit rfl rfl rfl rfl rfl rfl ?_

theorem State.rsuWindowEnd_keeps {s0 s : State} (h : Keeps s0 s) (x1 x2) : Keeps s0 (State.rsuWindowEnd s x1 x2) := by
  simp only [State.rsuWindowEnd]
  repeat' first
    | (with_reducible first | exact h | apply State.result_keeps | apply State.rsuSet_keeps)
    | with_reducible refine Keeps.lit rfl rfl rfl rfl rfl rfl ?_

theorem State.rsuClock_keeps {s0 s : State} (h : Keeps s0 s) (x1 x2) : Keeps s0 (State.rsuClock s x1 x2) := by
  simp only [State.rsuClock]
  repeat' first
    | (with_reducible first | exact h | apply State.rsuCopy_keeps | apply State.rsuWindowEnd_keeps) | split
    | with_reducible refine Keeps.lit rfl rfl rfl rfl rfl rfl ?_

theorem State.rsuTick_keeps {s0 s : State} (h : Keeps s0 s) : Keeps s0 (State.rsuTick s) := by
  simp only [State.rsuTick]
  repeat' first
    | (with_reducible first | exact h | assumption | apply State.rsuClock_keeps | apply Keeps.foldl) | intro u _ hu

theorem execRsWrite_keeps {s0 s : State} (h : Keeps s0 s) (x0 x1 x2) : ∀ t, execRsWrite x0 x1 x2 s = .next t → Keeps s0 t := by
  intro t ht; simp only [execRsWrite, Host.Outcome.next.injEq] at ht
  subst ht
  repeat' first
    | (with_reducible first | exact h | assumption | apply State.gate_keeps | apply State.rsWrite_keeps) | intro u hu
    | split

theorem execRsInvalidate_keeps {s0 s : State} (h : Keeps s0 s) (x0 x1 x2) : ∀ t, execRsInvalidate x0 x1 x2 s = .next t → Keeps s0 t := by
  intro t ht; simp only [execRsInvalidate, Host.Outcome.next.injEq] at ht
  subst ht
  repeat' first
    | (with_reducible first | exact h | assumption | apply State.gate_keeps | apply State.rsInvalidate_keeps)
    | intro u hu | split

theorem State.rsRead_keeps {s0 s : State} (h : Keeps s0 s) (x1 x2 x3) : Keeps s0 (State.rsRead s x1 x2 x3) := by
  simp only [State.rsRead]
  repeat' first
    | (with_reducible first
         | exact h | assumption | apply State.wr_keeps | apply State.wrAll_keeps | apply State.result_keeps
         | apply State.rsuCmd_keeps | apply Keeps.foldl)
    | intro u _ hu | intro u hu

theorem execRsRead_keeps {s0 s : State} (h : Keeps s0 s) (x0 x1 x2) : ∀ t, execRsRead x0 x1 x2 s = .next t → Keeps s0 t := by
  intro t ht; simp only [execRsRead, Host.Outcome.next.injEq] at ht
  subst ht
  repeat' first
    | (with_reducible first | exact h | assumption | apply State.gate_keeps | apply State.rsRead_keeps) | intro u hu
    | split

theorem execRsAbort_keeps {s0 s : State} (h : Keeps s0 s) (x0 x1) : ∀ t, execRsAbort x0 x1 s = .next t → Keeps s0 t := by
  intro t ht; simp only [execRsAbort, Host.Outcome.next.injEq] at ht
  subst ht
  repeat' first
    | (with_reducible first | exact h | assumption | apply State.gate_keeps | apply State.rsAbort_keeps) | intro u hu
    | split

theorem State.rsuQueueView_keeps {s0 s : State} (h : Keeps s0 s) : Keeps s0 (State.rsuQueueView s) := by
  simp only [State.rsuQueueView]
  repeat' first
    | (with_reducible first
         | exact h | assumption | apply State.wr_keeps | apply State.raise_keeps | apply Keeps.foldl)
    | intro u _ hu | split

theorem State.bankCfgWrite_keeps {s0 s : State} (h : Keeps s0 s) (x1 x2 x3) : Keeps s0 (State.bankCfgWrite s x1 x2 x3) := by
  simp only [State.bankCfgWrite]
  repeat' first
    | (with_reducible first
         | exact h | assumption | apply State.wr_keeps | apply State.raise_keeps | apply State.rsuClear_keeps
         | apply Keeps.foldl)
    | intro u _ hu | split

theorem State.rsuParity_keeps {s0 s : State} (h : Keeps s0 s) (x1 x2) : Keeps s0 (State.rsuParity s x1 x2) := by
  simp only [State.rsuParity]
  repeat' first
    | (with_reducible first | exact h | apply State.cnt_keeps | apply State.raise_keeps | apply State.wrAll_keeps)
    | split | with_reducible refine Keeps.lit rfl rfl rfl rfl rfl rfl ?_

end Sys2Proof.Machine
end

