-- ==== Sys2Proof/Laws/KeepsBuffers.lean ====
section
/-! SUPPORT. Laws/KeepsBuffers.lean: every operation and command of Machine/Buffers.lean, Machine/Multicast.lean, Machine/Sched.lean keeps what `Keeps` names. -/

namespace Sys2Proof.Machine

/-! ### Machine/Buffers.lean -/

set_option maxHeartbeats 200000
theorem State.refuseCap_keeps {s0 s : State} (h : Keeps s0 s) (x1 x2 x3 x4) : Keeps s0 (State.refuseCap s x1 x2 x3 x4) := by
  simp only [State.refuseCap]
  repeat' first
    | (with_reducible first | exact h | apply State.wr_keeps | apply State.wrFree_keeps) | split

theorem State.poolView_keeps {s0 s : State} (h : Keeps s0 s) : Keeps s0 (State.poolView s) := by
  simp only [State.poolView]
  repeat' first
    | (with_reducible first
         | exact h | assumption | apply State.wr_keeps | apply State.peak_keeps | apply State.raiseIf_keeps
         | apply Keeps.foldl)
    | intro u _ hu | split

theorem State.expressFree_keeps {s0 s : State} (h : Keeps s0 s) (x1) : Keeps s0 (State.expressFree s x1) := by
  simp only [State.expressFree]
  repeat' first
    | (with_reducible first | exact h | apply State.wr_keeps) | split

theorem State.bpmFree_keeps {s0 s : State} (h : Keeps s0 s) (x1 x2 x3) : Keeps s0 (State.bpmFree s x1 x2 x3) := by
  simp only [State.bpmFree]
  repeat' first
    | (with_reducible first
         | exact h | apply State.cnt_keeps | apply State.raise_keeps | apply State.refuseCap_keeps
         | apply State.poolView_keeps | apply State.expressFree_keeps)
    | split | with_reducible refine Keeps.lit rfl rfl rfl rfl rfl rfl ?_

theorem State.setQue_keeps {s0 s : State} (h : Keeps s0 s) (x1 x2) : Keeps s0 (State.setQue s x1 x2) := by
  simp only [State.setQue]
  repeat' first
    | with_reducible exact h | split
    | with_reducible refine Keeps.lit rfl rfl rfl rfl rfl rfl ?_

theorem State.carveWrite_keeps {s0 s : State} (h : Keeps s0 s) (x1 x2 x3) : Keeps s0 (State.carveWrite s x1 x2 x3) := by
  simp only [State.carveWrite]
  repeat' first
    | (with_reducible first | exact h | apply State.wr_keeps | apply State.raise_keeps) | split

theorem State.preDrop_keeps {s0 s : State} (h : Keeps s0 s) (x1 x2) : ∀ t, State.preDrop s x1 x2 = some t → Keeps s0 t := by
  intro t ht; simp only [State.preDrop] at ht
  repeat' first
    | (split at ht) | (simp only [Option.some.injEq, reduceCtorEq] at ht) | (obtain ⟨rfl, _⟩ := ht)
    | (with_reducible first | exact h | apply State.cnt_keeps | apply State.raise_keeps)

theorem State.mark_keeps {s0 s : State} (h : Keeps s0 s) (x1 x2) : Keeps s0 (State.mark s x1 x2).1 := by
  simp only [State.mark]
  repeat' first
    | (with_reducible first | exact h | apply State.draw_keeps | apply State.cnt_keeps | apply State.raise_keeps)
    | split

theorem State.loseWord_keeps {s0 s : State} (h : Keeps s0 s) (x1 x2) : Keeps s0 (State.loseWord s x1 x2) := by
  simp only [State.loseWord]
  repeat' first
    | (with_reducible first | exact h | apply State.inc_keeps | apply State.raise_keeps)
    | with_reducible refine Keeps.lit rfl rfl rfl rfl rfl rfl ?_

theorem State.alloc_keeps {s0 s : State} (h : Keeps s0 s) (x1 x2 x3) : Keeps s0 (State.alloc s x1 x2 x3).1 := by
  simp only [State.alloc]
  repeat' first
    | (with_reducible first
         | exact h | apply State.cnt_keeps | apply State.poolView_keeps | apply State.loseWord_keeps)
    | split | with_reducible refine Keeps.lit rfl rfl rfl rfl rfl rfl ?_

theorem State.takeChip_keeps {s0 s : State} (h : Keeps s0 s) (x1 x2 x3) : Keeps s0 (State.takeChip s x1 x2 x3).1 := by
  simp only [State.takeChip]
  repeat' first
    | (with_reducible first | exact h | apply State.cnt_keeps | apply State.raise_keeps | apply State.alloc_keeps)
    | split | (refine Keeps.of_fst (by assumption) ?_)

theorem State.spill_keeps {s0 s : State} (h : Keeps s0 s) (x1 x2) : Keeps s0 (State.spill s x1 x2).1 := by
  simp only [State.spill]
  repeat' first
    | (with_reducible first
         | exact h | apply State.put_keeps | apply State.bump_keeps | apply State.cnt_keeps | apply State.raise_keeps
         | apply State.hbmPost_keeps | apply State.alloc_keeps)
    | split | (refine Keeps.of_fst (by assumption) ?_)

theorem State.placeFrame_keeps {s0 s : State} (h : Keeps s0 s) (x1 x2 x3 x4) : Keeps s0 (State.placeFrame s x1 x2 x3 x4).1 := by
  simp only [State.placeFrame]
  repeat' first
    | (with_reducible first
         | exact h | apply State.cnt_keeps | apply State.raise_keeps | apply State.takeChip_keeps
         | apply State.spill_keeps)
    | split | (refine Keeps.of_fst (by assumption) ?_)

theorem State.store_keeps {s0 s : State} (h : Keeps s0 s) (x1 x2) : Keeps s0 (State.store s x1 x2).1 := by
  simp only [State.store]
  repeat' first
    | (with_reducible first | exact h | apply State.cnt_keeps | apply State.raise_keeps) | split

theorem State.expressCharge_keeps {s0 s : State} (h : Keeps s0 s) (x1) : Keeps s0 (State.expressCharge s x1) := by
  simp only [State.expressCharge]
  repeat' first
    | (with_reducible first | exact h | apply State.wr_keeps) | split
    | with_reducible refine Keeps.lit rfl rfl rfl rfl rfl rfl ?_

theorem State.enqueue_keeps {s0 s : State} (h : Keeps s0 s) (x1 x2) : Keeps s0 (State.enqueue s x1 x2) := by
  simp only [State.enqueue]
  repeat' (with_reducible first | exact h | apply State.cnt_keeps | apply State.setQue_keeps)

theorem State.admitFrame_keeps {s0 s : State} (h : Keeps s0 s) (x1 x2 x3) : Keeps s0 (State.admitFrame s x1 x2 x3) := by
  simp only [State.admitFrame]
  repeat' first
    | (with_reducible first
         | exact h | apply State.cnt_keeps | apply State.raise_keeps | apply State.tracePoint_keeps
         | apply State.poolView_keeps | apply State.mark_keeps | apply State.placeFrame_keeps
         | apply State.store_keeps | apply State.expressCharge_keeps | apply State.enqueue_keeps)
    | split | (refine Keeps.of_fst (by assumption) ?_)
    | (refine State.preDrop_keeps (s0 := s0) ?_ _ _ _ (by assumption))

theorem execQdAdmitFrame_keeps {s0 s : State} (h : Keeps s0 s) (x0 x1) : ∀ t, execQdAdmitFrame x0 x1 s = .next t → Keeps s0 t := by
  intro t ht; simp only [execQdAdmitFrame, Host.Outcome.next.injEq] at ht
  subst ht
  repeat' first
    | (with_reducible first | exact h | apply State.admitFrame_keeps) | split
    | with_reducible refine Keeps.lit rfl rfl rfl rfl rfl rfl ?_

theorem State.spillLeave_keeps {s0 s : State} (h : Keeps s0 s) (x1) : Keeps s0 (State.spillLeave s x1) := by
  simp only [State.spillLeave]
  repeat' first
    | (with_reducible first | exact h | apply State.setQue_keeps) | split

theorem execReadbackComplete_keeps {s0 s : State} (h : Keeps s0 s) (x0 x1) : ∀ t, execReadbackComplete x0 x1 s = .next t → Keeps s0 t := by
  intro t ht; simp only [execReadbackComplete, Host.Outcome.next.injEq] at ht
  subst ht
  repeat' first
    | (with_reducible first
         | exact h | apply State.cnt_keeps | apply State.raise_keeps | apply State.poolView_keeps
         | apply State.bpmFree_keeps | apply State.setQue_keeps | apply State.spillLeave_keeps)
    | split

theorem execBrmReadback_keeps {s0 s : State} (h : Keeps s0 s) (x0) : ∀ t, execBrmReadback x0 s = .next t → Keeps s0 t := by
  intro t ht; simp only [execBrmReadback, Host.Outcome.next.injEq] at ht
  subst ht
  repeat' first
    | (with_reducible first
         | exact h | apply State.hbmPost_keeps | apply State.poolView_keeps | apply State.setQue_keeps)
    | split

theorem State.admProfileWrite_keeps {s0 s : State} (h : Keeps s0 s) (x1 x2 x3) : Keeps s0 (State.admProfileWrite s x1 x2 x3) := by
  unfold State.admProfileWrite
  extract_lets rd bad
  repeat' first
    | (with_reducible first | exact h | apply State.raise_keeps | apply State.wr_keeps | apply State.wrWord_keeps)
    | split

theorem execAdmProfileWrite_keeps {s0 s : State} (h : Keeps s0 s) (x0 x1 x2) : ∀ t, execAdmProfileWrite x0 x1 x2 s = .next t → Keeps s0 t := by
  intro t ht; simp only [execAdmProfileWrite, Host.Outcome.next.injEq] at ht
  subst ht
  repeat' first
    | (with_reducible first | exact h | assumption | apply State.regCmd_keeps | apply State.admProfileWrite_keeps)
    | intro u hu

theorem execBufferFree_keeps {s0 s : State} (h : Keeps s0 s) (x0 x1 x2) : ∀ t, execBufferFree x0 x1 x2 s = .next t → Keeps s0 t := by
  intro t ht; simp only [execBufferFree, Host.Outcome.next.injEq] at ht
  subst ht
  repeat' first
    | (with_reducible first | exact h | assumption | apply State.gate_keeps | apply State.bpmFree_keeps) | intro u hu

theorem State.qprofWrite_keeps {s0 s : State} (h : Keeps s0 s) (x1) : Keeps s0 (State.qprofWrite s x1) := by
  simp only [State.qprofWrite]
  repeat' first
    | (with_reducible first | exact h | apply State.setQue_keeps) | split

theorem State.setNode_keeps {s0 s : State} (h : Keeps s0 s) (x1 x2 x3) : Keeps s0 (State.setNode s x1 x2 x3) := by
  simp only [State.setNode]
  repeat' first
    | with_reducible exact h | with_reducible refine Keeps.lit rfl rfl rfl rfl rfl rfl ?_

theorem State.carveCheck_keeps {s0 s : State} (h : Keeps s0 s) : Keeps s0 (State.carveCheck s) := by
  simp only [State.carveCheck]
  repeat' first
    | (with_reducible first | exact h | apply State.wr_keeps | apply State.raise_keeps | apply State.poolView_keeps)
    | split

theorem State.brimCtlWrite_keeps {s0 s : State} (h : Keeps s0 s) (x1) : Keeps s0 (State.brimCtlWrite s x1) := by
  simp only [State.brimCtlWrite]
  repeat' first
    | (with_reducible first
         | exact h | apply State.raise_keeps | apply State.wrWord_keeps | apply State.poolView_keeps)
    | split

theorem execSpillWriteComplete_keeps {s0 s : State} (h : Keeps s0 s) (x0 x1) : ∀ t, execSpillWriteComplete x0 x1 s = .next t → Keeps s0 t := by
  intro t ht; simp only [execSpillWriteComplete, Host.Outcome.next.injEq] at ht
  subst ht
  repeat' first
    | (with_reducible first | exact h | apply State.put_keeps | apply State.poolView_keeps | apply State.setQue_keeps)
    | split | with_reducible refine Keeps.lit rfl rfl rfl rfl rfl rfl ?_

/-! ### Machine/Multicast.lean -/

set_option maxHeartbeats 200000
theorem State.groupWrite_keeps {s0 s : State} (h : Keeps s0 s) (x1) : Keeps s0 (State.groupWrite s x1) := by
  simp only [State.groupWrite]
  repeat' first
    | (with_reducible first | exact h | apply State.raise_keeps) | split
    | with_reducible refine Keeps.lit rfl rfl rfl rfl rfl rfl ?_

theorem execMcrGroupWrite_keeps {s0 s : State} (h : Keeps s0 s) (x0) : ∀ t, execMcrGroupWrite x0 s = .next t → Keeps s0 t := by
  intro t ht; simp only [execMcrGroupWrite, Host.Outcome.next.injEq] at ht
  subst ht
  repeat' first
    | (with_reducible first | exact h | assumption | apply State.regCmd_keeps | apply State.groupWrite_keeps)
    | intro u hu

theorem State.setMcd_keeps {s0 s : State} (h : Keeps s0 s) (x1 x2) : Keeps s0 (State.setMcd s x1 x2) := by
  simp only [State.setMcd]
  repeat' first
    | with_reducible exact h | with_reducible refine Keeps.lit rfl rfl rfl rfl rfl rfl ?_

theorem State.ownerMove_keeps {s0 s : State} (h : Keeps s0 s) (x1 x2 x3) : Keeps s0 (State.ownerMove s x1 x2 x3) := by
  simp only [State.ownerMove]
  repeat' first
    | (with_reducible first | exact h | apply State.cnt_keeps | apply State.setMcd_keeps) | split
    | with_reducible refine Keeps.lit rfl rfl rfl rfl rfl rfl ?_

theorem State.mcrView_keeps {s0 s : State} (h : Keeps s0 s) : Keeps s0 (State.mcrView s) := by
  simp only [State.mcrView]
  repeat' (with_reducible first | exact h | apply State.wr_keeps | apply State.peak_keeps)

theorem State.mcdSettle_keeps {s0 s : State} (h : Keeps s0 s) (x1) : Keeps s0 (State.mcdSettle s x1) := by
  simp only [State.mcdSettle]
  repeat' first
    | (with_reducible first | exact h | apply State.setMcd_keeps | apply State.mcrView_keeps) | split

theorem State.mcdLess_keeps {s0 s : State} (h : Keeps s0 s) (x1) : Keeps s0 (State.mcdLess s x1) := by
  simp only [State.mcdLess]
  repeat' first
    | (with_reducible first
         | exact h | apply State.bpmFree_keeps | apply State.setMcd_keeps | apply State.mcrView_keeps)
    | split | with_reducible refine Keeps.lit rfl rfl rfl rfl rfl rfl ?_

theorem State.replicaGone_keeps {s0 s : State} (h : Keeps s0 s) (x1 x2 x3) : Keeps s0 (State.replicaGone s x1 x2 x3) := by
  simp only [State.replicaGone]
  repeat' first
    | (with_reducible first
         | exact h | apply State.expressFree_keeps | apply State.setMcd_keeps | apply State.ownerMove_keeps
         | apply State.mcdSettle_keeps | apply State.mcdLess_keeps)
    | split

theorem State.replicaEnqueue_keeps {s0 s : State} (h : Keeps s0 s) (x1 x2 x3) : Keeps s0 (State.replicaEnqueue s x1 x2 x3) := by
  simp only [State.replicaEnqueue]
  repeat' first
    | (with_reducible first
         | exact h | apply State.cnt_keeps | apply State.tracePoint_keeps | apply State.mark_keeps
         | apply State.expressCharge_keeps | apply State.enqueue_keeps | apply State.setMcd_keeps
         | apply State.mcdSettle_keeps | apply State.replicaGone_keeps)
    | split | (refine Keeps.of_fst (by assumption) ?_)

theorem State.replicate1_keeps {s0 s : State} (h : Keeps s0 s) (x1 x2) : Keeps s0 (State.replicate1 s x1 x2) := by
  simp only [State.replicate1]
  repeat' first
    | (with_reducible first
         | exact h | apply State.tracePoint_keeps | apply State.setQue_keeps | apply State.setMcd_keeps
         | apply State.replicaGone_keeps | apply State.replicaEnqueue_keeps)
    | split | (refine State.preDrop_keeps (s0 := s0) ?_ _ _ _ (by assumption))

theorem State.replicateAll_keeps {s0 s : State} (h : Keeps s0 s) (x1 x2 x3 x4 x5) : Keeps s0 (State.replicateAll s x1 x2 x3 x4 x5) := by
  simp only [State.replicateAll]
  repeat' first
    | (with_reducible first
         | exact h | assumption | apply State.store_keeps | apply State.setMcd_keeps | apply State.mcrView_keeps
         | apply State.replicate1_keeps | apply Keeps.foldl)
    | intro u _ hu | split | with_reducible refine Keeps.lit rfl rfl rfl rfl rfl rfl ?_

theorem State.multicast_keeps {s0 s : State} (h : Keeps s0 s) (x1 x2) : Keeps s0 (State.multicast s x1 x2) := by
  simp only [State.multicast]
  repeat' first
    | (with_reducible first
         | exact h | apply State.draw_keeps | apply State.cnt_keeps | apply State.raise_keeps
         | apply State.takeChip_keeps | apply State.replicateAll_keeps)
    | split | (refine Keeps.of_fst (by assumption) ?_)

theorem execMcrReplicate_keeps {s0 s : State} (h : Keeps s0 s) (x0) : ∀ t, execMcrReplicate x0 s = .next t → Keeps s0 t := by
  intro t ht; simp only [execMcrReplicate, Host.Outcome.next.injEq] at ht
  subst ht
  repeat' first
    | (with_reducible first | exact h | apply State.multicast_keeps) | split
    | with_reducible refine Keeps.lit rfl rfl rfl rfl rfl rfl ?_

theorem State.listWrite_keeps {s0 s : State} (h : Keeps s0 s) (x1) : Keeps s0 (State.listWrite s x1) := by
  simp only [State.listWrite]
  repeat' first
    | with_reducible exact h | with_reducible refine Keeps.lit rfl rfl rfl rfl rfl rfl ?_

theorem State.replicaDone_keeps {s0 s : State} (h : Keeps s0 s) (x1 x2 x3) : Keeps s0 (State.replicaDone s x1 x2 x3) := by
  simp only [State.replicaDone]
  repeat' first
    | (with_reducible first
         | exact h | apply State.cnt_keeps | apply State.raise_keeps | apply State.replicaGone_keeps)
    | split

theorem execReplicaCompletion_keeps {s0 s : State} (h : Keeps s0 s) (x0 x1 x2) : ∀ t, execReplicaCompletion x0 x1 x2 s = .next t → Keeps s0 t := by
  intro t ht; simp only [execReplicaCompletion, Host.Outcome.next.injEq] at ht
  subst ht
  repeat' first
    | (with_reducible first | exact h | assumption | apply State.gate_keeps | apply State.replicaDone_keeps)
    | intro u hu

theorem State.residueTake_keeps {s0 s : State} (h : Keeps s0 s) (x1 x2) : Keeps s0 (State.residueTake s x1 x2) := by
  simp only [State.residueTake]
  repeat' first
    | (with_reducible first | exact h | apply State.setQue_keeps) | split

theorem State.residueGo_keeps {s0 s : State} (h : Keeps s0 s) (x1 x2) : Keeps s0 (State.residueGo s x1 x2) := by
  simp only [State.residueGo]
  repeat' (with_reducible first | exact h | apply State.replicaEnqueue_keeps | apply State.residueTake_keeps)

theorem execResidueReady_keeps {s0 s : State} (h : Keeps s0 s) (x0 x1) : ∀ t, execResidueReady x0 x1 s = .next t → Keeps s0 t := by
  intro t ht; simp only [execResidueReady, Host.Outcome.next.injEq] at ht
  subst ht
  repeat' first
    | (with_reducible first | exact h | apply State.residueGo_keeps) | split

theorem State.residueDrop_keeps {s0 s : State} (h : Keeps s0 s) (x1 x2) : Keeps s0 (State.residueDrop s x1 x2) := by
  simp only [State.residueDrop]
  repeat' first
    | (with_reducible first
         | exact h | apply State.inc_keeps | apply State.replicaGone_keeps | apply State.residueTake_keeps)
    | split

theorem State.residueEnd_keeps {s0 s : State} (h : Keeps s0 s) (x1 x2) : Keeps s0 (State.residueEnd s x1 x2) := by
  simp only [State.residueEnd]
  repeat' first
    | (with_reducible first
         | exact h | assumption | apply State.cnt_keeps | apply State.raise_keeps | apply State.residueGo_keeps
         | apply State.residueDrop_keeps | apply Keeps.foldl)
    | intro u _ hu | split

theorem State.release_keeps {s0 s : State} (h : Keeps s0 s) (x1) : Keeps s0 (State.release s x1) := by
  simp only [State.release]
  repeat' first
    | (with_reducible first | exact h | apply State.bpmFree_keeps | apply State.replicaGone_keeps) | split

theorem execResiduePressure_keeps {s0 s : State} (h : Keeps s0 s) : ∀ t, execResiduePressure s = .next t → Keeps s0 t := by
  intro t ht; simp only [execResiduePressure, Host.Outcome.next.injEq] at ht
  subst ht
  repeat' first
    | (with_reducible first | exact h | apply State.residueEnd_keeps) | split
    | with_reducible refine Keeps.lit rfl rfl rfl rfl rfl rfl ?_

theorem execMcrListWrite_keeps {s0 s : State} (h : Keeps s0 s) (x0) : ∀ t, execMcrListWrite x0 s = .next t → Keeps s0 t := by
  intro t ht; simp only [execMcrListWrite, Host.Outcome.next.injEq] at ht
  subst ht
  repeat' first
    | (with_reducible first | exact h | assumption | apply State.regCmd_keeps | apply State.listWrite_keeps)
    | intro u hu

theorem execResidueTimeout_keeps {s0 s : State} (h : Keeps s0 s) (x0) : ∀ t, execResidueTimeout x0 s = .next t → Keeps s0 t := by
  intro t ht; simp only [execResidueTimeout, Host.Outcome.next.injEq] at ht
  subst ht
  repeat' first
    | (with_reducible first | exact h | apply State.residueEnd_keeps) | split

/-! ### Machine/Sched.lean -/

set_option maxHeartbeats 200000
theorem State.nodeRead_keeps {s0 s : State} (h : Keeps s0 s) (x1 x2) : Keeps s0 (State.nodeRead s x1 x2) := by
  simp only [State.nodeRead]
  repeat' first
    | (with_reducible first
         | exact h | assumption | apply State.wr_keeps | apply State.result_keeps | apply Keeps.foldl)
    | intro u _ hu | split

theorem State.settle_keeps {s0 s : State} (h : Keeps s0 s) : Keeps s0 (State.settle s) := by
  simp only [State.settle]
  repeat' first
    | with_reducible exact h | with_reducible refine Keeps.lit rfl rfl rfl rfl rfl rfl ?_

theorem State.dropAll_keeps {s0 s : State} (h : Keeps s0 s) (x1) : Keeps s0 (State.dropAll s x1) := by
  simp only [State.dropAll]
  repeat' first
    | (with_reducible first
         | exact h | assumption | apply State.cnt_keeps | apply State.setQue_keeps | apply State.release_keeps
         | apply Keeps.foldl)
    | intro u _ hu

theorem State.flushStart_keeps {s0 s : State} (h : Keeps s0 s) (x1 x2) : Keeps s0 (State.flushStart s x1 x2) := by
  simp only [State.flushStart]
  repeat' first
    | (with_reducible first
         | exact h | apply State.wr_keeps | apply State.resStart_keeps | apply State.result_keeps
         | apply State.poolView_keeps | apply State.spillLeave_keeps | apply State.settle_keeps
         | apply State.dropAll_keeps)
    | split | with_reducible refine Keeps.lit rfl rfl rfl rfl rfl rfl ?_

theorem State.flushAbort_keeps {s0 s : State} (h : Keeps s0 s) : Keeps s0 (State.flushAbort s) := by
  simp only [State.flushAbort]
  repeat' first
    | (with_reducible first | exact h | apply State.wr_keeps | apply State.resLate_keeps | apply State.result_keeps)
    | split | with_reducible refine Keeps.lit rfl rfl rfl rfl rfl rfl ?_

theorem State.shpWrite_keeps {s0 s : State} (h : Keeps s0 s) (x1 x2 x3) : Keeps s0 (State.shpWrite s x1 x2 x3) := by
  simp only [State.shpWrite]
  repeat' first
    | (with_reducible first
         | exact h | apply State.wr_keeps | apply State.put_keeps | apply State.raise_keeps
         | apply State.wrWord_keeps)
    | split | with_reducible refine Keeps.lit rfl rfl rfl rfl rfl rfl ?_

theorem State.chargeNode_keeps {s0 s : State} (h : Keeps s0 s) (x1 x2 x3 x4) : Keeps s0 (State.chargeNode s x1 x2 x3 x4) := by
  simp only [State.chargeNode]
  repeat' (with_reducible first
             | exact h | apply State.bump_keeps | apply State.cnt_keeps | apply State.setNode_keeps)

theorem execQsuFlush_keeps {s0 s : State} (h : Keeps s0 s) (x0 x1) : ∀ t, execQsuFlush x0 x1 s = .next t → Keeps s0 t := by
  intro t ht; simp only [execQsuFlush, Host.Outcome.next.injEq] at ht
  subst ht
  repeat' first
    | (with_reducible first | exact h | assumption | apply State.regCmd_keeps | apply State.flushStart_keeps)
    | intro u hu

theorem State.dwrr_keeps {s0 s : State} (h : Keeps s0 s) (x1 x2 x3 x4) : Keeps s0 (State.dwrr s x1 x2 x3 x4).1 := by
  induction x3 generalizing s x1 x2 x4 with
  | zero =>
    simp only [State.dwrr]
    repeat' (with_reducible exact h)
  | succ x ih =>
    simp only [State.dwrr]
    repeat' first
      | (with_reducible first | exact h | apply ih | apply State.setNode_keeps) | split

theorem State.pickChild_keeps {s0 s : State} (h : Keeps s0 s) (x1 x2) : ∀ r, State.pickChild s x1 x2 = some r → Keeps s0 r.1 := by
  intro r ht; simp only [State.pickChild] at ht
  repeat' first
    | (split at ht) | (simp only [Option.some.injEq, reduceCtorEq] at ht) | (obtain ⟨rfl, _⟩ := ht)
    | (with_reducible first | exact h | apply State.setNode_keeps | apply State.dwrr_keeps)

theorem State.fabWeightWrite_keeps {s0 s : State} (h : Keeps s0 s) (x1 x2) : Keeps s0 (State.fabWeightWrite s x1 x2) := by
  simp only [State.fabWeightWrite]
  repeat' first
    | (with_reducible first | exact h | assumption | apply State.wr_keeps | apply Keeps.foldl) | intro u _ hu

theorem State.sweepFree_keeps {s0 s : State} (h : Keeps s0 s) (x1) : Keeps s0 (State.sweepFree s x1).1 := by
  simp only [State.sweepFree]
  repeat' first
    | (with_reducible first
         | exact h | assumption | apply State.cnt_keeps | apply State.bpmFree_keeps | apply Keeps.foldl)
    | intro u _ hu

theorem execQsuFlushComplete_keeps {s0 s : State} (h : Keeps s0 s) : ∀ t, execQsuFlushComplete s = .next t → Keeps s0 t := by
  intro t ht; simp only [execQsuFlushComplete, Host.Outcome.next.injEq] at ht
  subst ht
  repeat' first
    | (with_reducible first
         | exact h | apply State.wr_keeps | apply State.raise_keeps | apply State.result_keeps
         | apply State.setQue_keeps | apply State.sweepFree_keeps)
    | split | with_reducible refine Keeps.lit rfl rfl rfl rfl rfl rfl ?_

theorem execNodeRead_keeps {s0 s : State} (h : Keeps s0 s) (x0 x1) : ∀ t, execNodeRead x0 x1 s = .next t → Keeps s0 t := by
  intro t ht; simp only [execNodeRead, Host.Outcome.next.injEq] at ht
  subst ht
  repeat' first
    | (with_reducible first | exact h | assumption | apply State.regCmd_keeps | apply State.nodeRead_keeps)
    | intro u hu | split

theorem State.descend_keeps {s0 s : State} (h : Keeps s0 s) (x1 x2 x3) : ∀ r, State.descend s x1 x2 x3 = some r → Keeps s0 r.1 := by
  induction x1 generalizing s x2 x3 with
  | zero => intro r hr; simp only [State.descend, Option.some.injEq] at hr; subst hr; exact h
  | succ n ih =>
    intro r hr
    simp only [State.descend] at hr
    split at hr
    · simp at hr
    · rename_i s1 c w h1
      split at hr
      · simp at hr
      · rename_i s2 l h2
        simp only [Option.some.injEq] at hr
        subst hr
        have h3 : Keeps s0 s1 := State.pickChild_keeps h _ _ _ h1
        exact ih (State.cnt_keeps h3 _ _ _) _ _ (s2, l) h2

theorem State.haltQueue_keeps {s0 s : State} (h : Keeps s0 s) (x1) : Keeps s0 (State.haltQueue s x1) := by
  simp only [State.haltQueue]
  repeat' first
    | (with_reducible first
         | exact h | apply State.wr_keeps | apply State.raise_keeps | apply State.setQue_keeps
         | apply State.settle_keeps)
    | split

theorem State.grantHold_keeps {s0 s : State} (h : Keeps s0 s) (x1) : Keeps s0 (State.grantHold s x1) := by
  simp only [State.grantHold]
  repeat' first
    | with_reducible exact h | split
    | with_reducible refine Keeps.lit rfl rfl rfl rfl rfl rfl ?_

theorem State.grantFrame_keeps {s0 s : State} (h : Keeps s0 s) (x1 x2 x3) : Keeps s0 (State.grantFrame s x1 x2 x3) := by
  simp only [State.grantFrame]
  repeat' first
    | (with_reducible first
         | exact h | apply State.cnt_keeps | apply State.tracePoint_keeps | apply State.setMac_keeps
         | apply State.release_keeps | apply State.grantHold_keeps)
    | split | with_reducible refine Keeps.lit rfl rfl rfl rfl rfl rfl ?_

theorem State.grant_keeps {s0 s : State} (h : Keeps s0 s) (x1 x2 x3) : Keeps s0 (State.grant s x1 x2 x3) := by
  simp only [State.grant]
  repeat' first
    | (with_reducible first
         | exact h | assumption | apply State.poolView_keeps | apply State.setQue_keeps | apply State.spillLeave_keeps
         | apply State.settle_keeps | apply State.chargeNode_keeps | apply State.grantFrame_keeps | apply Keeps.foldl)
    | intro u _ hu

theorem execSchedDecision_keeps {s0 s : State} (h : Keeps s0 s) (x0 x1) : ∀ t, execSchedDecision x0 x1 s = .next t → Keeps s0 t := by
  intro t ht; simp only [execSchedDecision, Host.Outcome.next.injEq] at ht
  subst ht
  repeat' first
    | (with_reducible first | exact h | apply State.haltQueue_keeps | apply State.grant_keeps) | split
    | (refine State.descend_keeps (s0 := s0) ?_ _ _ _ _ (by assumption))

theorem State.shaperTick_keeps {s0 s : State} (h : Keeps s0 s) : Keeps s0 (State.shaperTick s) := by
  simp only [State.shaperTick]
  repeat' first
    | (with_reducible first | exact h | assumption | apply Keeps.foldl) | intro u _ hu | split
    | with_reducible refine Keeps.lit rfl rfl rfl rfl rfl rfl ?_

theorem State.nodeWrite_keeps {s0 s : State} (h : Keeps s0 s) (x1 x2) : Keeps s0 (State.nodeWrite s x1 x2) := by
  simp only [State.nodeWrite]
  repeat' first
    | (with_reducible first
         | exact h | apply State.cnt_keeps | apply State.raise_keeps | apply State.result_keeps
         | apply State.setNode_keeps | apply State.settle_keeps)
    | split

theorem execNodeWrite_keeps {s0 s : State} (h : Keeps s0 s) (x0 x1) : ∀ t, execNodeWrite x0 x1 s = .next t → Keeps s0 t := by
  intro t ht; simp only [execNodeWrite, Host.Outcome.next.injEq] at ht
  subst ht
  repeat' first
    | (with_reducible first | exact h | assumption | apply State.regCmd_keeps | apply State.nodeWrite_keeps)
    | intro u hu | split

theorem execQsuAbort_keeps {s0 s : State} (h : Keeps s0 s) (x0) : ∀ t, execQsuAbort x0 s = .next t → Keeps s0 t := by
  intro t ht; simp only [execQsuAbort, Host.Outcome.next.injEq] at ht
  subst ht
  repeat' (with_reducible first | exact h | apply State.regCmd_keeps | apply State.flushAbort_keeps)

theorem execShpProfileWrite_keeps {s0 s : State} (h : Keeps s0 s) (x0 x1 x2) : ∀ t, execShpProfileWrite x0 x1 x2 s = .next t → Keeps s0 t := by
  intro t ht; simp only [execShpProfileWrite, Host.Outcome.next.injEq] at ht
  subst ht
  repeat' first
    | (with_reducible first | exact h | assumption | apply State.regCmd_keeps | apply State.shpWrite_keeps)
    | intro u hu

end Sys2Proof.Machine
end

