-- ==== Sys2Proof/Laws/KeepsFabric.lean ====
section
/-! SUPPORT. Laws/KeepsFabric.lean: every operation and command of Machine/Fabric.lean, Machine/Liner.lean keeps what `Keeps` names. -/

namespace Sys2Proof.Machine

/-! ### Machine/Fabric.lean -/

set_option maxHeartbeats 200000
theorem State.relink_keeps {s0 s : State} (h : Keeps s0 s) (x0) : Keeps s0 (State.relink x0 s) := by
  simp only [State.relink]
  repeat' first
    | (with_reducible first | exact h | apply State.bump_keeps | apply State.raiseIf_keeps) | split

theorem State.setLink_keeps {s0 s : State} (h : Keeps s0 s) (x1 x2) : Keeps s0 (State.setLink s x1 x2) := by
  simp only [State.setLink]
  repeat' first
    | with_reducible exact h | with_reducible refine Keeps.lit rfl rfl rfl rfl rfl rfl ?_

theorem State.linkSet_keeps {s0 s : State} (h : Keeps s0 s) (x1 x2) : Keeps s0 (State.linkSet s x1 x2) := by
  simp only [State.linkSet]
  repeat' (with_reducible first | exact h | apply State.lwr_keeps | apply State.setLink_keeps)

theorem State.felXoffSet_keeps {s0 s : State} (h : Keeps s0 s) (x1) : Keeps s0 (State.felXoffSet s x1) := by
  simp only [State.felXoffSet]
  repeat' first
    | (with_reducible first | exact h | apply State.cnt_keeps | apply State.raise_keeps) | split
    | with_reducible refine Keeps.lit rfl rfl rfl rfl rfl rfl ?_

theorem State.felDiscard_keeps {s0 s : State} (h : Keeps s0 s) (x1) : Keeps s0 (State.felDiscard s x1) := by
  simp only [State.felDiscard]
  repeat' (with_reducible first | exact h | apply State.cnt_keeps | apply State.raise_keeps)

theorem State.felPurge_keeps {s0 s : State} (h : Keeps s0 s) (x1) : Keeps s0 (State.felPurge s x1) := by
  simp only [State.felPurge]
  repeat' first
    | (with_reducible first
         | exact h | assumption | apply State.setFel_keeps | apply State.bpmFree_keeps | apply State.felXoffSet_keeps
         | apply State.felDiscard_keeps | apply Keeps.foldl)
    | intro u _ hu

theorem State.leaveActive_keeps {s0 s : State} (h : Keeps s0 s) (x1) : Keeps s0 (State.leaveActive s x1) := by
  simp only [State.leaveActive]
  repeat' first
    | (with_reducible first
         | exact h | apply State.raise_keeps | apply State.setLink_keeps | apply State.felPurge_keeps)
    | split

theorem State.linkTo_keeps {s0 s : State} (h : Keeps s0 s) (x1 x2) : Keeps s0 (State.linkTo s x1 x2) := by
  simp only [State.linkTo]
  repeat' first
    | (with_reducible first
         | exact h | apply State.relink_keeps | apply State.linkSet_keeps | apply State.leaveActive_keeps)
    | split

theorem State.linkOn_keeps {s0 s : State} (h : Keeps s0 s) (x1) : Keeps s0 (State.linkOn s x1) := by
  simp only [State.linkOn]
  repeat' first
    | (with_reducible first | exact h | apply State.lwr_keeps | apply State.setLink_keeps | apply State.linkTo_keeps)
    | split

theorem State.linkOff_keeps {s0 s : State} (h : Keeps s0 s) (x1) : Keeps s0 (State.linkOff s x1) := by
  simp only [State.linkOff]
  repeat' (with_reducible first
             | exact h | apply State.lwr_keeps | apply State.setLink_keeps | apply State.linkTo_keeps)

theorem State.linkDown_keeps {s0 s : State} (h : Keeps s0 s) (x1 x2) : Keeps s0 (State.linkDown s x1 x2) := by
  simp only [State.linkDown]
  repeat' (with_reducible first
             | exact h | apply State.lwr_keeps | apply State.incSat_keeps | apply State.raiseIf_keeps
             | apply State.setLink_keeps | apply State.linkTo_keeps)

theorem State.linkForce_keeps {s0 s : State} (h : Keeps s0 s) (x1) : Keeps s0 (State.linkForce s x1) := by
  simp only [State.linkForce]
  repeat' first
    | (with_reducible first | exact h | apply State.lwr_keeps | apply State.linkDown_keeps) | split

theorem State.linkCnt_keeps {s0 s : State} (h : Keeps s0 s) (x1 x2) : Keeps s0 (State.linkCnt s x1 x2) := by
  simp only [State.linkCnt]
  repeat' (with_reducible first | exact h | apply State.bump_keeps)

theorem State.linkPut_keeps {s0 s : State} (h : Keeps s0 s) (x1 x2) : Keeps s0 (State.linkPut s x1 x2) := by
  simp only [State.linkPut]
  repeat' first
    | (with_reducible first | exact h | apply State.emit_keeps) | split

theorem State.linkSend_keeps {s0 s : State} (h : Keeps s0 s) (x1 x2) : Keeps s0 (State.linkSend s x1 x2) := by
  simp only [State.linkSend]
  repeat' first
    | (with_reducible first | exact h | apply State.setLink_keeps | apply State.linkPut_keeps) | split

theorem State.control_keeps {s0 s : State} (h : Keeps s0 s) (x1 x2 x3) : Keeps s0 (State.control s x1 x2 x3) := by
  simp only [State.control]
  repeat' (with_reducible first | exact h | apply State.linkCnt_keeps | apply State.linkSend_keeps)

theorem State.linkDrain_keeps {s0 s : State} (h : Keeps s0 s) (x1) : Keeps s0 (State.linkDrain s x1) := by
  simp only [State.linkDrain]
  repeat' first
    | (with_reducible first
         | exact h | assumption | apply State.setLink_keeps | apply State.linkCnt_keeps | apply State.linkSend_keeps
         | apply Keeps.foldl)
    | intro u _ hu

theorem State.linkQuiesce_keeps {s0 s : State} (h : Keeps s0 s) (x1) : Keeps s0 (State.linkQuiesce s x1) := by
  simp only [State.linkQuiesce]
  repeat' (with_reducible first
             | exact h | apply State.relink_keeps | apply State.setLink_keeps | apply State.linkDrain_keeps)

theorem State.dozeRequest_keeps {s0 s : State} (h : Keeps s0 s) (x1) : Keeps s0 (State.dozeRequest s x1) := by
  simp only [State.dozeRequest]
  repeat' first
    | (with_reducible first
         | exact h | apply State.lwr_keeps | apply State.control_keeps | apply State.linkQuiesce_keeps)
    | split

theorem State.dozeCause_keeps {s0 s : State} (h : Keeps s0 s) (x1) : Keeps s0 (State.dozeCause s x1) := by
  simp only [State.dozeCause]
  repeat' (with_reducible first | exact h | apply State.raise_keeps)

theorem State.dozeClear_keeps {s0 s : State} (h : Keeps s0 s) (x1) : Keeps s0 (State.dozeClear s x1) := by
  simp only [State.dozeClear]
  repeat' first
    | (with_reducible first
         | exact h | apply State.lwr_keeps | apply State.relink_keeps | apply State.setLink_keeps
         | apply State.linkTo_keeps | apply State.dozeCause_keeps)
    | split

theorem State.linkCtlWrite_keeps {s0 s : State} (h : Keeps s0 s) (x1 x2) : Keeps s0 (State.linkCtlWrite s x1 x2) := by
  simp only [State.linkCtlWrite]
  repeat' first
    | (with_reducible first
         | exact h | apply State.lwr_keeps | apply State.wrWord_keeps | apply State.relink_keeps
         | apply State.linkOn_keeps | apply State.linkOff_keeps | apply State.linkForce_keeps
         | apply State.dozeRequest_keeps | apply State.dozeClear_keeps)
    | split

theorem State.controlIn_keeps {s0 s : State} (h : Keeps s0 s) (x1 x2 x3 x4) (h4 : ∀ u y1 y2, Keeps s0 u → Keeps s0 (x4 u y1 y2)) : Keeps s0 (State.controlIn s x1 x2 x3 x4) := by
  simp only [State.controlIn]
  repeat' first
    | (with_reducible first | exact h | apply State.linkCnt_keeps | apply h4) | split

theorem State.linkUp_keeps {s0 s : State} (h : Keeps s0 s) (x1) : Keeps s0 (State.linkUp s x1) := by
  simp only [State.linkUp]
  repeat' first
    | (with_reducible first
         | exact h | apply State.raise_keeps | apply State.relink_keeps | apply State.setLink_keeps
         | apply State.linkSet_keeps | apply State.linkDown_keeps)
    | split

theorem State.helloIn_keeps {s0 s : State} (h : Keeps s0 s) (x1 x2 x3) : Keeps s0 (State.helloIn s x1 x2 x3) := by
  simp only [State.helloIn]
  repeat' first
    | (with_reducible first
         | exact h | apply State.lwr_keeps | apply State.raise_keeps | apply State.relink_keeps
         | apply State.setLink_keeps | apply State.linkDown_keeps | apply State.linkUp_keeps)
    | split

theorem execHelloReceive_keeps {s0 s : State} (h : Keeps s0 s) (x0 x1) : ∀ t, execHelloReceive x0 x1 s = .next t → Keeps s0 t := by
  intro t ht; simp only [execHelloReceive, Host.Outcome.next.injEq] at ht
  subst ht
  repeat' first
    | (with_reducible first | exact h | assumption | apply State.controlIn_keeps | apply State.helloIn_keeps)
    | intro u _ hu | intro _ | split

theorem State.dozeEnter_keeps {s0 s : State} (h : Keeps s0 s) (x1) : Keeps s0 (State.dozeEnter s x1) := by
  simp only [State.dozeEnter]
  repeat' (with_reducible first
             | exact h | apply State.linkTo_keeps | apply State.linkCnt_keeps | apply State.dozeCause_keeps)

theorem execDozeAckReceive_keeps {s0 s : State} (h : Keeps s0 s) (x0 x1) : ∀ t, execDozeAckReceive x0 x1 s = .next t → Keeps s0 t := by
  intro t ht; simp only [execDozeAckReceive, Host.Outcome.next.injEq] at ht
  subst ht
  repeat' first
    | (with_reducible first | exact h | assumption | apply State.controlIn_keeps | apply State.dozeEnter_keeps)
    | intro u _ hu | intro _ | split

theorem State.linkIn_keeps {s0 s : State} (h : Keeps s0 s) (x1 x2 x3) (h3 : ∀ u, Keeps s0 u → Keeps s0 (x3 u)) : Keeps s0 (State.linkIn s x1 x2 x3) := by
  simp only [State.linkIn]
  repeat' first
    | (with_reducible first | exact h | apply h3) | split

theorem execLinkHolddownExpiry_keeps {s0 s : State} (h : Keeps s0 s) (x0) : ∀ t, execLinkHolddownExpiry x0 s = .next t → Keeps s0 t := by
  intro t ht; simp only [execLinkHolddownExpiry, Host.Outcome.next.injEq] at ht
  subst ht
  repeat' first
    | (with_reducible first | exact h | assumption | apply State.linkTo_keeps | apply State.linkIn_keeps) | intro u hu
    | split

theorem State.linkCmd_keeps {s0 s : State} (h : Keeps s0 s) (x1 x2 x3 x4) (h4 : ∀ u, Keeps s0 u → Keeps s0 (x4 u)) : Keeps s0 (State.linkCmd s x1 x2 x3 x4) := by
  simp only [State.linkCmd]
  repeat' first
    | (with_reducible first | exact h | assumption | apply State.regCmd_keeps) | split

theorem execLinkEnable_keeps {s0 s : State} (h : Keeps s0 s) (x0) : ∀ t, execLinkEnable x0 s = .next t → Keeps s0 t := by
  intro t ht; simp only [execLinkEnable, Host.Outcome.next.injEq] at ht
  subst ht
  repeat' first
    | (with_reducible first | exact h | assumption | apply State.linkOn_keeps | apply State.linkCmd_keeps)
    | intro u hu

theorem State.hello_keeps {s0 s : State} (h : Keeps s0 s) (x1) : Keeps s0 (State.hello s x1) := by
  simp only [State.hello]
  repeat' (with_reducible first | exact h | apply State.control_keeps)

theorem execHelloSend_keeps {s0 s : State} (h : Keeps s0 s) (x0) : ∀ t, execHelloSend x0 s = .next t → Keeps s0 t := by
  intro t ht; simp only [execHelloSend, Host.Outcome.next.injEq] at ht
  subst ht
  repeat' first
    | (with_reducible first | exact h | assumption | apply State.linkIn_keeps | apply State.hello_keeps) | intro u hu

theorem execDozeReqReceive_keeps {s0 s : State} (h : Keeps s0 s) (x0 x1) : ∀ t, execDozeReqReceive x0 x1 s = .next t → Keeps s0 t := by
  intro t ht; simp only [execDozeReqReceive, Host.Outcome.next.injEq] at ht
  subst ht
  repeat' first
    | (with_reducible first
         | exact h | assumption | apply State.control_keeps | apply State.linkQuiesce_keeps
         | apply State.controlIn_keeps | apply State.dozeEnter_keeps)
    | intro u _ hu | intro _ | split

theorem execLinkDozeRequest_keeps {s0 s : State} (h : Keeps s0 s) (x0) : ∀ t, execLinkDozeRequest x0 s = .next t → Keeps s0 t := by
  intro t ht; simp only [execLinkDozeRequest, Host.Outcome.next.injEq] at ht
  subst ht
  repeat' first
    | (with_reducible first | exact h | assumption | apply State.dozeRequest_keeps | apply State.linkCmd_keeps)
    | intro u hu

theorem execLinkAdaptDone_keeps {s0 s : State} (h : Keeps s0 s) (x0 x1) : ∀ t, execLinkAdaptDone x0 x1 s = .next t → Keeps s0 t := by
  intro t ht; simp only [execLinkAdaptDone, Host.Outcome.next.injEq] at ht
  subst ht
  repeat' first
    | (with_reducible first
         | exact h | assumption | apply State.lwr_keeps | apply State.linkTo_keeps | apply State.linkIn_keeps)
    | intro u hu

theorem execLinkLockTimeout_keeps {s0 s : State} (h : Keeps s0 s) (x0) : ∀ t, execLinkLockTimeout x0 s = .next t → Keeps s0 t := by
  intro t ht; simp only [execLinkLockTimeout, Host.Outcome.next.injEq] at ht
  subst ht
  repeat' first
    | (with_reducible first | exact h | assumption | apply State.linkDown_keeps | apply State.linkIn_keeps)
    | intro u hu | split

theorem execLinkWakeDone_keeps {s0 s : State} (h : Keeps s0 s) (x0) : ∀ t, execLinkWakeDone x0 s = .next t → Keeps s0 t := by
  intro t ht; simp only [execLinkWakeDone, Host.Outcome.next.injEq] at ht
  subst ht
  repeat' first
    | (with_reducible first | exact h | assumption | apply State.linkUp_keeps | apply State.linkIn_keeps) | intro u hu
    | split

theorem execUnknownControlCell_keeps {s0 s : State} (h : Keeps s0 s) (x0 x1) : ∀ t, execUnknownControlCell x0 x1 s = .next t → Keeps s0 t := by
  intro t ht; simp only [execUnknownControlCell, Host.Outcome.next.injEq] at ht
  subst ht
  repeat' first
    | (with_reducible first
         | exact h | assumption | apply State.cnt_keeps | apply State.raise_keeps | apply State.controlIn_keeps)
    | intro u _ hu | intro _

theorem execSprayCell_keeps {s0 s : State} (h : Keeps s0 s) : ∀ t, execSprayCell s = .next t → Keeps s0 t := by
  intro t ht; simp only [execSprayCell, Host.Outcome.next.injEq] at ht
  subst ht
  repeat' first
    | (with_reducible first
         | exact h | apply State.cnt_keeps | apply State.tracePoint_keeps | apply State.poolView_keeps
         | apply State.setLink_keeps)
    | split | with_reducible refine Keeps.lit rfl rfl rfl rfl rfl rfl ?_

theorem execLinkForceDown_keeps {s0 s : State} (h : Keeps s0 s) (x0) : ∀ t, execLinkForceDown x0 s = .next t → Keeps s0 t := by
  intro t ht; simp only [execLinkForceDown, Host.Outcome.next.injEq] at ht
  subst ht
  repeat' first
    | (with_reducible first | exact h | assumption | apply State.linkForce_keeps | apply State.linkCmd_keeps)
    | intro u hu

theorem State.strobeAt__keeps {s0 s : State} (h : Keeps s0 s) (x1) : Keeps s0 (State.strobeAt_ s x1) := by
  simp only [State.strobeAt_]
  repeat' first
    | (with_reducible first | exact h | apply State.wr_keeps)
    | with_reducible refine Keeps.lit rfl rfl rfl rfl rfl rfl ?_

theorem State.strobeDone_keeps {s0 s : State} (h : Keeps s0 s) : Keeps s0 (State.strobeDone s) := by
  simp only [State.strobeDone]
  repeat' first
    | (with_reducible first | exact h | apply State.wr_keeps)
    | with_reducible refine Keeps.lit rfl rfl rfl rfl rfl rfl ?_

theorem State.strobeIn_keeps {s0 s : State} (h : Keeps s0 s) (x1 x2) : Keeps s0 (State.strobeIn s x1 x2) := by
  simp only [State.strobeIn]
  repeat' first
    | (with_reducible first
         | exact h | assumption | apply State.wr_keeps | apply State.cnt_keeps | apply State.strobe_keeps
         | apply State.raise_keeps | apply State.control_keeps | apply State.strobeAt__keeps
         | apply State.strobeDone_keeps | apply Keeps.foldl)
    | intro u _ hu | split

theorem execFcReceive_keeps {s0 s : State} (h : Keeps s0 s) (x0 x1) : ∀ t, execFcReceive x0 x1 s = .next t → Keeps s0 t := by
  intro t ht; simp only [execFcReceive, Host.Outcome.next.injEq] at ht
  subst ht
  repeat' first
    | (with_reducible first | exact h | assumption | apply State.setLink_keeps | apply State.controlIn_keeps)
    | intro u _ hu | intro _

theorem execFcSend_keeps {s0 s : State} (h : Keeps s0 s) : ∀ t, execFcSend s = .next t → Keeps s0 t := by
  intro t ht; simp only [execFcSend, Host.Outcome.next.injEq] at ht
  subst ht
  repeat' first
    | (with_reducible first | exact h | assumption | apply State.control_keeps | apply Keeps.foldl) | intro u _ hu
    | split

theorem execFabricStrobeTarget_keeps {s0 s : State} (h : Keeps s0 s) : ∀ t, execFabricStrobeTarget s = .next t → Keeps s0 t := by
  intro t ht; simp only [execFabricStrobeTarget, Host.Outcome.next.injEq] at ht
  subst ht
  repeat' first
    | (with_reducible first | exact h | apply State.strobe_keeps | apply State.strobeDone_keeps) | split

theorem State.voqFrame_keeps {s0 s : State} (h : Keeps s0 s) (x1 x2) : Keeps s0 (State.voqFrame s x1 x2) := by
  simp only [State.voqFrame]
  repeat' first
    | (with_reducible first
         | exact h | apply State.cnt_keeps | apply State.tracePoint_keeps | apply State.release_keeps
         | apply State.grantHold_keeps)
    | split | with_reducible refine Keeps.lit rfl rfl rfl rfl rfl rfl ?_

theorem State.voqGrant_keeps {s0 s : State} (h : Keeps s0 s) (x1) : Keeps s0 (State.voqGrant s x1) := by
  simp only [State.voqGrant]
  repeat' first
    | (with_reducible first
         | exact h | assumption | apply State.poolView_keeps | apply State.setQue_keeps | apply State.spillLeave_keeps
         | apply State.voqFrame_keeps | apply Keeps.foldl)
    | intro u _ hu | split | with_reducible refine Keeps.lit rfl rfl rfl rfl rfl rfl ?_

theorem execReachSend_keeps {s0 s : State} (h : Keeps s0 s) (x0) : ∀ t, execReachSend x0 s = .next t → Keeps s0 t := by
  intro t ht; simp only [execReachSend, Host.Outcome.next.injEq] at ht
  subst ht
  repeat' first
    | (with_reducible first | exact h | assumption | apply State.control_keeps | apply State.linkIn_keeps)
    | intro u hu | split

theorem execSuperframeLockLoss_keeps {s0 s : State} (h : Keeps s0 s) (x0) : ∀ t, execSuperframeLockLoss x0 s = .next t → Keeps s0 t := by
  intro t ht; simp only [execSuperframeLockLoss, Host.Outcome.next.injEq] at ht
  subst ht
  repeat' first
    | (with_reducible first
         | exact h | assumption | apply State.lwr_keeps | apply State.linkDown_keeps | apply State.linkIn_keeps)
    | intro u hu | split

theorem State.fabEnable_keeps {s0 s : State} (h : Keeps s0 s) : Keeps s0 (State.fabEnable s) := by
  simp only [State.fabEnable]
  repeat' first
    | with_reducible exact h | with_reducible refine Keeps.lit rfl rfl rfl rfl rfl rfl ?_

theorem execReachReceive_keeps {s0 s : State} (h : Keeps s0 s) (x0 x1) : ∀ t, execReachReceive x0 x1 s = .next t → Keeps s0 t := by
  intro t ht; simp only [execReachReceive, Host.Outcome.next.injEq] at ht
  subst ht
  repeat' first
    | (with_reducible first
         | exact h | assumption | apply State.relink_keeps | apply State.setLink_keeps | apply State.controlIn_keeps)
    | intro u _ hu | intro _

theorem State.snapSend_keeps {s0 s : State} (h : Keeps s0 s) : Keeps s0 (State.snapSend s) := by
  simp only [State.snapSend]
  repeat' first
    | (with_reducible first
         | exact h | assumption | apply State.wr_keeps | apply State.cnt_keeps | apply State.control_keeps
         | apply State.strobeAt__keeps | apply Keeps.foldl)
    | intro u _ hu

theorem execUncorrThreshold_keeps {s0 s : State} (h : Keeps s0 s) (x0) : ∀ t, execUncorrThreshold x0 s = .next t → Keeps s0 t := by
  intro t ht; simp only [execUncorrThreshold, Host.Outcome.next.injEq] at ht
  subst ht
  repeat' first
    | (with_reducible first
         | exact h | assumption | apply State.setLink_keeps | apply State.linkDown_keeps | apply State.linkIn_keeps)
    | intro u hu | split

theorem execLinkWake_keeps {s0 s : State} (h : Keeps s0 s) (x0 x1) : ∀ t, execLinkWake x0 x1 s = .next t → Keeps s0 t := by
  intro t ht; simp only [execLinkWake, Host.Outcome.next.injEq] at ht
  subst ht
  repeat' first
    | (with_reducible first
         | exact h | assumption | apply State.setLink_keeps | apply State.linkTo_keeps | apply State.dozeCause_keeps
         | apply State.dozeClear_keeps | apply State.linkIn_keeps | apply State.linkCmd_keeps)
    | intro u hu | split

theorem execHelloTimeout_keeps {s0 s : State} (h : Keeps s0 s) (x0) : ∀ t, execHelloTimeout x0 s = .next t → Keeps s0 t := by
  intro t ht; simp only [execHelloTimeout, Host.Outcome.next.injEq] at ht
  subst ht
  repeat' first
    | (with_reducible first | exact h | assumption | apply State.linkDown_keeps | apply State.linkIn_keeps)
    | intro u hu | split

theorem execLinkDisable_keeps {s0 s : State} (h : Keeps s0 s) (x0) : ∀ t, execLinkDisable x0 s = .next t → Keeps s0 t := by
  intro t ht; simp only [execLinkDisable, Host.Outcome.next.injEq] at ht
  subst ht
  repeat' first
    | (with_reducible first | exact h | assumption | apply State.linkOff_keeps | apply State.linkCmd_keeps)
    | intro u hu

theorem execLinkWakeTimeout_keeps {s0 s : State} (h : Keeps s0 s) (x0) : ∀ t, execLinkWakeTimeout x0 s = .next t → Keeps s0 t := by
  intro t ht; simp only [execLinkWakeTimeout, Host.Outcome.next.injEq] at ht
  subst ht
  repeat' first
    | (with_reducible first | exact h | assumption | apply State.linkDown_keeps | apply State.linkIn_keeps)
    | intro u hu | split

theorem execStrobeCellReceive_keeps {s0 s : State} (h : Keeps s0 s) (x0 x1) : ∀ t, execStrobeCellReceive x0 x1 s = .next t → Keeps s0 t := by
  intro t ht; simp only [execStrobeCellReceive, Host.Outcome.next.injEq] at ht
  subst ht
  repeat' first
    | (with_reducible first | exact h | assumption | apply State.controlIn_keeps | apply State.strobeIn_keeps)
    | intro u _ hu | intro _

theorem State.voqClass_keeps {s0 s : State} (h : Keeps s0 s) (x1 x2 x3) : Keeps s0 (State.voqClass s x1 x2 x3).1 := by
  induction x2 generalizing s x1 x3 with
  | zero =>
    simp only [State.voqClass]
    repeat' first
      | with_reducible exact h | with_reducible refine Keeps.lit rfl rfl rfl rfl rfl rfl ?_
  | succ x ih =>
    simp only [State.voqClass]
    repeat' first
      | (with_reducible first | exact h | apply ih) | split
      | with_reducible refine Keeps.lit rfl rfl rfl rfl rfl rfl ?_

theorem execFabSnapSend_keeps {s0 s : State} (h : Keeps s0 s) : ∀ t, execFabSnapSend s = .next t → Keeps s0 t := by
  intro t ht; simp only [execFabSnapSend, Host.Outcome.next.injEq] at ht
  subst ht
  repeat' (with_reducible first | exact h | apply State.regCmd_keeps | apply State.snapSend_keeps)

theorem State.linkTick_keeps {s0 s : State} (h : Keeps s0 s) : Keeps s0 (State.linkTick s) := by
  simp only [State.linkTick]
  repeat' first
    | (with_reducible first
         | exact h | assumption | apply State.setLink_keeps | apply State.linkCnt_keeps | apply State.linkSend_keeps
         | apply Keeps.foldl)
    | intro u _ hu | split

theorem execVoqDecision_keeps {s0 s : State} (h : Keeps s0 s) : ∀ t, execVoqDecision s = .next t → Keeps s0 t := by
  intro t ht; simp only [execVoqDecision, Host.Outcome.next.injEq] at ht
  subst ht
  repeat' first
    | (with_reducible first
         | exact h | apply State.cnt_keeps | apply State.voqGrant_keeps | apply State.voqClass_keeps)
    | split | with_reducible refine Keeps.lit rfl rfl rfl rfl rfl rfl ?_

theorem execSuperframeLock_keeps {s0 s : State} (h : Keeps s0 s) (x0) : ∀ t, execSuperframeLock x0 s = .next t → Keeps s0 t := by
  intro t ht; simp only [execSuperframeLock, Host.Outcome.next.injEq] at ht
  subst ht
  repeat' first
    | (with_reducible first
         | exact h | assumption | apply State.lwr_keeps | apply State.linkTo_keeps | apply State.linkIn_keeps)
    | intro u hu | split

theorem State.linkReadapt_keeps {s0 s : State} (h : Keeps s0 s) (x1) : Keeps s0 (State.linkReadapt s x1) := by
  simp only [State.linkReadapt]
  repeat' first
    | (with_reducible first | exact h | apply State.lwr_keeps | apply State.linkDown_keeps) | split

theorem execLinkAdaptTimeout_keeps {s0 s : State} (h : Keeps s0 s) (x0) : ∀ t, execLinkAdaptTimeout x0 s = .next t → Keeps s0 t := by
  intro t ht; simp only [execLinkAdaptTimeout, Host.Outcome.next.injEq] at ht
  subst ht
  repeat' first
    | (with_reducible first | exact h | assumption | apply State.linkDown_keeps | apply State.linkIn_keeps)
    | intro u hu | split

/-! ### Machine/Liner.lean -/

set_option maxHeartbeats 200000
theorem State.felEnter_keeps {s0 s : State} (h : Keeps s0 s) (x1 x2 x3 x4) : Keeps s0 (State.felEnter s x1 x2 x3 x4) := by
  simp only [State.felEnter]
  repeat' first
    | (with_reducible first
         | exact h | apply State.setFel_keeps | apply State.alloc_keeps | apply State.felXoffSet_keeps
         | apply State.felDiscard_keeps)
    | split | (refine Keeps.of_fst (by assumption) ?_)
    | with_reducible refine Keeps.lit rfl rfl rfl rfl rfl rfl ?_

theorem State.linHold_keeps {s0 s : State} (h : Keeps s0 s) (x1 x2 x3) : Keeps s0 (State.linHold s x1 x2 x3) := by
  simp only [State.linHold]
  repeat' first
    | (with_reducible first | exact h | apply State.setLin_keeps)
    | with_reducible refine Keeps.lit rfl rfl rfl rfl rfl rfl ?_

theorem State.felOut_keeps {s0 s : State} (h : Keeps s0 s) (x1 x2 x3 x4 x5) : Keeps s0 (State.felOut s x1 x2 x3 x4 x5) := by
  simp only [State.felOut]
  repeat' first
    | (with_reducible first
         | exact h | apply State.setFel_keeps | apply State.cnt_keeps | apply State.raise_keeps
         | apply State.bpmFree_keeps | apply State.felXoffSet_keeps | apply State.felDiscard_keeps
         | apply State.linkCnt_keeps | apply State.linkSend_keeps)
    | split

theorem State.fecCount_keeps {s0 s : State} (h : Keeps s0 s) (x1 x2) : Keeps s0 (State.fecCount s x1 x2) := by
  simp only [State.fecCount]
  repeat' first
    | (with_reducible first | exact h | assumption | apply State.linkCnt_keeps | apply Keeps.foldl) | intro u _ hu
    | split

theorem State.linFrame_keeps {s0 s : State} (h : Keeps s0 s) (x1 x2 x3) : Keeps s0 (State.linFrame s x1 x2 x3) := by
  simp only [State.linFrame]
  repeat' first
    | (with_reducible first | exact h | apply State.cnt_keeps | apply State.tracePoint_keeps) | split
    | with_reducible refine Keeps.lit rfl rfl rfl rfl rfl rfl ?_

theorem State.linDeliver_keeps {s0 s : State} (h : Keeps s0 s) (x1 x2) : Keeps s0 (State.linDeliver s x1 x2) := by
  simp only [State.linDeliver]
  repeat' first
    | (with_reducible first | exact h | apply State.setLin_keeps | apply State.cnt_keeps | apply State.linFrame_keeps)
    | split

theorem State.linRelease_keeps {s0 s : State} (h : Keeps s0 s) (x1 x2) : Keeps s0 (State.linRelease s x1 x2) := by
  induction x2 generalizing s x1 with
  | zero =>
    simp only [State.linRelease]
    repeat' (with_reducible exact h)
  | succ x ih =>
    simp only [State.linRelease]
    repeat' first
      | (with_reducible first
           | exact h | apply ih | apply State.setLin_keeps | apply State.peak_keeps | apply State.linDeliver_keeps)
      | split

theorem State.linSkipTo_keeps {s0 s : State} (h : Keeps s0 s) (x1 x2 x3 x4) : Keeps s0 (State.linSkipTo s x1 x2 x3 x4) := by
  simp only [State.linSkipTo]
  repeat' first
    | (with_reducible first
         | exact h | apply State.setLin_keeps | apply State.cnt_keeps | apply State.inc_keeps
         | apply State.raise_keeps | apply State.linRelease_keeps)
    | split

theorem State.linSkip_keeps {s0 s : State} (h : Keeps s0 s) (x1 x2 x3) : Keeps s0 (State.linSkip s x1 x2 x3) := by
  simp only [State.linSkip]
  repeat' (with_reducible first | exact h | apply State.linSkipTo_keeps)

theorem State.dataIn_keeps {s0 s : State} (h : Keeps s0 s) (x1 x2 x3 x4) (h4 : ∀ u y1, Keeps s0 u → Keeps s0 (x4 u y1)) : Keeps s0 (State.dataIn s x1 x2 x3 x4) := by
  simp only [State.dataIn]
  repeat' first
    | (with_reducible first | exact h | apply State.linkCnt_keeps | apply State.fecCount_keeps | apply h4) | split

theorem State.linRoom_keeps {s0 s : State} (h : Keeps s0 s) (x1 x2 x3) : Keeps s0 (State.linRoom s x1 x2 x3) := by
  induction x3 generalizing s x1 x2 with
  | zero =>
    simp only [State.linRoom]
    repeat' (with_reducible exact h)
  | succ x ih =>
    simp only [State.linRoom]
    repeat' first
      | (with_reducible first | exact h | apply ih | apply State.linSkipTo_keeps | apply State.linSkip_keeps) | split

theorem State.linView_keeps {s0 s : State} (h : Keeps s0 s) : Keeps s0 (State.linView s) := by
  simp only [State.linView]
  repeat' (with_reducible first | exact h | apply State.wr_keeps | apply State.peak_keeps)

theorem State.linCell_keeps {s0 s : State} (h : Keeps s0 s) (x1 x2) : Keeps s0 (State.linCell s x1 x2) := by
  simp only [State.linCell]
  repeat' first
    | (with_reducible first
         | exact h | apply State.cnt_keeps | apply State.raise_keeps | apply State.linHold_keeps
         | apply State.linRelease_keeps | apply State.linRoom_keeps | apply State.linView_keeps)
    | split

theorem execLinerCell_keeps {s0 s : State} (h : Keeps s0 s) (x0 x1 x2 x3) : ∀ t, execLinerCell x0 x1 x2 x3 s = .next t → Keeps s0 t := by
  intro t ht; simp only [execLinerCell, Host.Outcome.next.injEq] at ht
  subst ht
  repeat' first
    | (with_reducible first | exact h | assumption | apply State.dataIn_keeps | apply State.linCell_keeps)
    | intro u _ hu | split

theorem State.felArrive_keeps {s0 s : State} (h : Keeps s0 s) (x1 x2) : Keeps s0 (State.felArrive s x1 x2) := by
  simp only [State.felArrive]
  repeat' first
    | (with_reducible first
         | exact h | apply State.cnt_keeps | apply State.felDiscard_keeps | apply State.felEnter_keeps)
    | split

theorem State.felResume_keeps {s0 s : State} (h : Keeps s0 s) : Keeps s0 (State.felResume s) := by
  simp only [State.felResume]
  repeat' first
    | (with_reducible first | exact h | assumption | apply State.felArrive_keeps | apply Keeps.foldl) | intro u _ hu
    | with_reducible refine Keeps.lit rfl rfl rfl rfl rfl rfl ?_

theorem execFelCellArrive_keeps {s0 s : State} (h : Keeps s0 s) (x0 x1 x2) : ∀ t, execFelCellArrive x0 x1 x2 s = .next t → Keeps s0 t := by
  intro t ht; simp only [execFelCellArrive, Host.Outcome.next.injEq] at ht
  subst ht
  repeat' first
    | (with_reducible first | exact h | assumption | apply State.dataIn_keeps | apply State.felArrive_keeps)
    | intro u _ hu | split | with_reducible refine Keeps.lit rfl rfl rfl rfl rfl rfl ?_

theorem execLinerCtxIdle_keeps {s0 s : State} (h : Keeps s0 s) (x0 x1) : ∀ t, execLinerCtxIdle x0 x1 s = .next t → Keeps s0 t := by
  intro t ht; simp only [execLinerCtxIdle, Host.Outcome.next.injEq] at ht
  subst ht
  repeat' first
    | (with_reducible first | exact h | apply State.setLin_keeps) | split

theorem execLinerTimeout_keeps {s0 s : State} (h : Keeps s0 s) (x0 x1) : ∀ t, execLinerTimeout x0 x1 s = .next t → Keeps s0 t := by
  intro t ht; simp only [execLinerTimeout, Host.Outcome.next.injEq] at ht
  subst ht
  repeat' first
    | (with_reducible first | exact h | apply State.linSkip_keeps | apply State.linView_keeps) | split

theorem State.linSoftReset_keeps {s0 s : State} (h : Keeps s0 s) : Keeps s0 (State.linSoftReset s) := by
  simp only [State.linSoftReset]
  repeat' first
    | (with_reducible first | exact h | apply State.bump_keeps)
    | with_reducible refine Keeps.lit rfl rfl rfl rfl rfl rfl ?_

theorem execFelSlotSend_keeps {s0 s : State} (h : Keeps s0 s) (x0 x1) : ∀ t, execFelSlotSend x0 x1 s = .next t → Keeps s0 t := by
  intro t ht; simp only [execFelSlotSend, Host.Outcome.next.injEq] at ht
  subst ht
  repeat' first
    | (with_reducible first
         | exact h | assumption | apply State.cnt_keeps | apply State.setLink_keeps | apply State.linkSend_keeps
         | apply State.linkIn_keeps | apply State.felOut_keeps)
    | intro u hu | split

end Sys2Proof.Machine
end

