-- ==== Sys2Proof/Laws/KeepsPower.lean ====
section
/-! SUPPORT. Laws/KeepsPower.lean: every operation and command of Machine/Power.lean, Machine/Band.lean keeps what `Keeps` names. -/

namespace Sys2Proof.Machine

/-! ### Machine/Power.lean -/

set_option maxHeartbeats 200000
theorem execRailFault_keeps {s0 s : State} (h : Keeps s0 s) (x0) : ∀ t, execRailFault x0 s = .next t → Keeps s0 t := by
  intro t ht; simp only [execRailFault, Host.Outcome.next.injEq] at ht
  subst ht
  repeat' first
    | (with_reducible first | exact h | apply State.wr_keeps | apply State.cnt_keeps | apply State.raise_keeps)
    | split

theorem State.portsOff_keeps {s0 s : State} (h : Keeps s0 s) (x1) : Keeps s0 (State.portsOff s x1) := by
  simp only [State.portsOff]
  repeat' first
    | (with_reducible first
         | exact h | assumption | apply State.setMac_keeps | apply State.macLink_keeps | apply Keeps.foldl)
    | intro u _ hu

theorem State.domHidden_keeps {s0 s : State} (h : Keeps s0 s) (x1) : Keeps s0 (State.domHidden s x1) := by
  simp only [State.domHidden]
  repeat' first
    | (with_reducible first | exact h | apply State.wr_keeps | apply State.portsOff_keeps)
    | exact ⟨h.pending, h.ticks, h.free, h.regs, fun _ => rfl, h.nt⟩ | split
    | with_reducible refine Keeps.lit rfl rfl rfl rfl rfl rfl ?_

theorem State.domClear_keeps {s0 s : State} (h : Keeps s0 s) (x1) : Keeps s0 (State.domClear s x1) := by
  simp only [State.domClear]
  repeat' first
    | (with_reducible first
         | exact h | assumption | apply State.clearPage_keeps | apply State.domHidden_keeps | apply Keeps.foldl)
    | intro u _ hu

theorem State.domDrop_keeps {s0 s : State} (h : Keeps s0 s) (x1) : Keeps s0 (State.domDrop s x1) := by
  simp only [State.domDrop]
  repeat' first
    | (with_reducible first
         | exact h | apply State.wr_keeps | apply State.spPowerOff_keeps | apply State.relink_keeps
         | apply State.domClear_keeps)
    | split

theorem State.domApply_keeps {s0 s : State} (h : Keeps s0 s) (x1 x2) : Keeps s0 (State.domApply s x1 x2) := by
  simp only [State.domApply]
  repeat' first
    | (with_reducible first | exact h | apply State.wr_keeps | apply State.domDrop_keeps) | split
    | with_reducible refine Keeps.lit rfl rfl rfl rfl rfl rfl ?_

theorem State.domWrite_keeps {s0 s : State} (h : Keeps s0 s) (x1 x2) : Keeps s0 (State.domWrite s x1 x2) := by
  simp only [State.domWrite]
  repeat' first
    | (with_reducible first
         | exact h | apply State.put_keeps | apply State.cnt_keeps | apply State.raise_keeps
         | apply State.domApply_keeps)
    | split

theorem execDomPowerOn_keeps {s0 s : State} (h : Keeps s0 s) (x0) : ∀ t, execDomPowerOn x0 s = .next t → Keeps s0 t := by
  intro t ht; simp only [execDomPowerOn, Host.Outcome.next.injEq] at ht
  subst ht
  repeat' (with_reducible first | exact h | apply State.domWrite_keeps)

theorem State.powerOnReset_keeps {s0 s : State} (h : Keeps s0 s) : Keeps s0 (State.powerOnReset s) := by
  have hb : Keeps s0 { State.reset with
      regs := s.regs.filter fun e => inPage pgBON e.1
      shadow := s.shadow.filter fun e => decide (e.1 = pgBON)
      hold := s.hold.filter fun e => decide (e.1 % 4096 = pgBON)
      pending := s.pending, out := s.out, free := s.free, ticks := s.ticks
      perstHigh := s.perstHigh
      bonTaps := s.bonTaps, bonInterval := s.bonInterval, bonMeters := s.bonMeters, bonStomped := s.bonStomped
      bonBad := s.bonBad, bonLost := s.bonLost, bonImage := s.bonImage, bonImageBad := s.bonImageBad, bonSeq := s.bonSeq
      bonReport := s.bonReport, bonAsked := s.bonAsked, bonRing := s.bonRing, bonSeen := s.bonSeen, bonStepped := s.bonStepped
      flash := s.flash, fuseSvn := s.fuseSvn, eraseGen := s.eraseGen, keyRevoked := s.keyRevoked } :=
    ⟨h.pending, h.ticks, h.free, fun x => tsorted_sublist List.filter_sublist (h.regs x), fun _ => rfl,
      fun _ => ⟨Nat.two_pow_pos _, Nat.succ_pos _, Nat.two_pow_pos _⟩⟩
  unfold State.powerOnReset
  exact Keeps.wr (State.wrAll_keeps (State.wrAll_keeps (Keeps.wr (Keeps.wr (Keeps.wr hb _ _ _ _) _ _ _ _) _ _ _ _) _ _ _) _ _ _) _ _ _ _

theorem State.domRise_keeps {s0 s : State} (h : Keeps s0 s) (x1) : Keeps s0 (State.domRise s x1) := by
  simp only [State.domRise]
  repeat' first
    | (with_reducible first
         | exact h | apply State.put_keeps | apply State.wrAll_keeps | apply State.fuseView_keeps
         | apply State.domClear_keeps)
    | split

theorem State.step2_keeps {s0 s : State} (h : Keeps s0 s) : Keeps s0 (State.step2 s) := by
  simp only [State.step2]
  repeat' first
    | (with_reducible first
         | exact h | assumption | apply State.wr_keeps | apply State.domRise_keeps | apply Keeps.foldl)
    | intro u _ hu | split

theorem State.thermCfgWrite_keeps {s0 s : State} (h : Keeps s0 s) (x1) : Keeps s0 (State.thermCfgWrite s x1) := by
  simp only [State.thermCfgWrite]
  repeat' (with_reducible first | exact h | apply State.wrAll_keeps)

theorem State.startFail_keeps {s0 s : State} (h : Keeps s0 s) (x1) : Keeps s0 (State.startFail s x1) := by
  simp only [State.startFail]
  repeat' (with_reducible first | exact h | apply State.wr_keeps | apply State.raise_keeps)

theorem State.bandTrainFail_keeps {s0 s : State} (h : Keeps s0 s) : Keeps s0 (State.bandTrainFail s) := by
  simp only [State.bandTrainFail]
  repeat' (with_reducible first | exact h | apply State.raise_keeps | apply State.wrAll_keeps)

theorem execStartupFail_keeps {s0 s : State} (h : Keeps s0 s) (x0) : ∀ t, execStartupFail x0 s = .next t → Keeps s0 t := by
  intro t ht; simp only [execStartupFail, Host.Outcome.next.injEq] at ht
  subst ht
  repeat' first
    | (with_reducible first
         | exact h | apply State.step2_keeps | apply State.startFail_keeps | apply State.bandTrainFail_keeps)
    | split

theorem execPwrgoodFall_keeps {s0 s : State} (h : Keeps s0 s) : ∀ t, execPwrgoodFall s = .next t → Keeps s0 t := by
  intro t ht; simp only [execPwrgoodFall, Host.Outcome.next.injEq] at ht
  subst ht
  repeat' first
    | (with_reducible first | exact h | apply State.powerOnReset_keeps) | split

theorem execSysclkRestore_keeps {s0 s : State} (h : Keeps s0 s) : ∀ t, execSysclkRestore s = .next t → Keeps s0 t := by
  intro t ht; simp only [execSysclkRestore, Host.Outcome.next.injEq] at ht
  subst ht
  repeat' first
    | (with_reducible first | exact h | apply State.wr_keeps) | split

theorem execPllLockLoss_keeps {s0 s : State} (h : Keeps s0 s) (x0) : ∀ t, execPllLockLoss x0 s = .next t → Keeps s0 t := by
  intro t ht; simp only [execPllLockLoss, Host.Outcome.next.injEq] at ht
  subst ht
  repeat' first
    | (with_reducible first | exact h | apply State.wr_keeps | apply State.raise_keeps) | split

theorem State.warmReset_keeps {s0 s : State} (h : Keeps s0 s) : Keeps s0 (State.warmReset s) := by
  simp only [State.warmReset]
  repeat' first
    | (with_reducible first
         | exact h | assumption | apply State.wr_keeps | apply State.incSat_keeps | apply State.wrAll_keeps
         | apply State.domDrop_keeps | apply Keeps.foldl)
    | intro u _ hu | split | with_reducible refine Keeps.lit rfl rfl rfl rfl rfl rfl ?_

theorem State.warmCmd_keeps {s0 s : State} (h : Keeps s0 s) (x1) : Keeps s0 (State.warmCmd s x1) := by
  simp only [State.warmCmd]
  repeat' first
    | (with_reducible first | exact h | apply State.raise_keeps | apply State.warmReset_keeps) | split

theorem execWarmReset_keeps {s0 s : State} (h : Keeps s0 s) (x0) : ∀ t, execWarmReset x0 s = .next t → Keeps s0 t := by
  intro t ht; simp only [execWarmReset, Host.Outcome.next.injEq] at ht
  subst ht
  repeat' (with_reducible first | exact h | apply State.warmCmd_keeps)

theorem State.thermTrip_keeps {s0 s : State} (h : Keeps s0 s) : Keeps s0 (State.thermTrip s) := by
  simp only [State.thermTrip]
  repeat' first
    | (with_reducible first
         | exact h | assumption | apply State.wr_keeps | apply State.cnt_keeps | apply State.raise_keeps
         | apply State.wrAll_keeps | apply State.domDrop_keeps | apply State.startFail_keeps | apply Keeps.foldl)
    | intro u _ hu | split | with_reducible refine Keeps.lit rfl rfl rfl rfl rfl rfl ?_

theorem execRefOutOfRange_keeps {s0 s : State} (h : Keeps s0 s) (x0 x1) : ∀ t, execRefOutOfRange x0 x1 s = .next t → Keeps s0 t := by
  intro t ht; simp only [execRefOutOfRange, Host.Outcome.next.injEq] at ht
  subst ht
  repeat' first
    | (with_reducible first | exact h | apply State.wr_keeps | apply State.put_keeps | apply State.raiseIf_keeps)
    | split

theorem State.resquelch_keeps {s0 s : State} (h : Keeps s0 s) (x1) : Keeps s0 (State.resquelch s x1) := by
  simp only [State.resquelch]
  repeat' first
    | (with_reducible first | exact h | assumption | apply State.cageSquelch_keeps | apply Keeps.foldl) | intro u _ hu
    | split

theorem State.hbmTripFirmware_keeps {s0 s : State} (h : Keeps s0 s) (x1) : Keeps s0 (State.hbmTripFirmware s x1) := by
  simp only [State.hbmTripFirmware]
  repeat' first
    | (with_reducible first
         | exact h | assumption | apply State.wr_keeps | apply State.draw_keeps | apply State.logAppend_keeps
         | apply State.outRefused_keeps | apply State.fanPut_keeps | apply Keeps.foldl)
    | intro u _ hu | split | with_reducible refine Keeps.lit rfl rfl rfl rfl rfl rfl ?_

theorem State.tasksResume_keeps {s0 s : State} (h : Keeps s0 s) : Keeps s0 (State.tasksResume s) := by
  simp only [State.tasksResume]
  repeat' first
    | (with_reducible first
         | exact h | assumption | apply State.secResume_keeps | apply State.fwResume_keeps
         | apply State.hbmTripFirmware_keeps | apply Keeps.foldl)
    | intro u _ hu | split | with_reducible refine Keeps.lit rfl rfl rfl rfl rfl rfl ?_

theorem execSpTakeoverDone_keeps {s0 s : State} (h : Keeps s0 s) (x0) : ∀ t, execSpTakeoverDone x0 s = .next t → Keeps s0 t := by
  intro t ht; simp only [execSpTakeoverDone, Host.Outcome.next.injEq] at ht
  subst ht
  repeat' first
    | (with_reducible first | exact h | apply State.takeover_keeps | apply State.tasksResume_keeps) | split
    | with_reducible refine Keeps.lit rfl rfl rfl rfl rfl rfl ?_

theorem State.step5_keeps {s0 s : State} (h : Keeps s0 s) : Keeps s0 (State.step5 s) := by
  simp only [State.step5]
  repeat' first
    | (with_reducible first
         | exact h | assumption | apply State.wr_keeps | apply State.wrAll_keeps | apply Keeps.foldl)
    | intro u _ hu | split

theorem State.startStep_keeps {s0 s : State} (h : Keeps s0 s) (x1) : ∀ t, State.startStep s x1 = some t → Keeps s0 t := by
  intro t ht; simp only [State.startStep] at ht
  repeat' first
    | (split at ht) | (simp only [Option.some.injEq, reduceCtorEq] at ht) | (obtain ⟨rfl, _⟩ := ht)
    | (with_reducible first
         | exact h | apply State.wr_keeps | apply State.wrAll_keeps | apply State.spRelease_keeps
         | apply State.loadKek0_keeps | apply State.domRise_keeps | apply State.step2_keeps | apply State.step5_keeps)
    | with_reducible refine Keeps.lit rfl rfl rfl rfl rfl rfl ?_

theorem execHbmTempRead_keeps {s0 s : State} (h : Keeps s0 s) (x0 x1) : ∀ t, execHbmTempRead x0 x1 s = .next t → Keeps s0 t := by
  intro t ht; simp only [execHbmTempRead, Host.Outcome.next.injEq] at ht
  subst ht
  repeat' first
    | (with_reducible first
         | exact h | apply State.wr_keeps | apply State.put_keeps | apply State.raise_keeps
         | apply State.hbmTripFirmware_keeps)
    | split | with_reducible refine Keeps.lit rfl rfl rfl rfl rfl rfl ?_

theorem State.domUp_keeps {s0 s : State} (h : Keeps s0 s) (x1) : Keeps s0 (State.domUp s x1) := by
  simp only [State.domUp]
  repeat' first
    | (with_reducible first
         | exact h | apply State.cnt_keeps | apply State.raise_keeps | apply State.spRelease_keeps
         | apply State.domRise_keeps | apply State.resquelch_keeps)
    | split

theorem State.serdesNext_keeps {s0 s : State} (h : Keeps s0 s) : Keeps s0 (State.serdesNext s) := by
  simp only [State.serdesNext]
  repeat' first
    | (with_reducible first | exact h | apply State.domApply_keeps) | split
    | with_reducible refine Keeps.lit rfl rfl rfl rfl rfl rfl ?_

theorem State.domNext_keeps {s0 s : State} (h : Keeps s0 s) (x1) : Keeps s0 (State.domNext s x1) := by
  simp only [State.domNext]
  repeat' first
    | (with_reducible first | exact h | apply State.domApply_keeps) | split
    | with_reducible refine Keeps.lit rfl rfl rfl rfl rfl rfl ?_

theorem execDomTransitionComplete_keeps {s0 s : State} (h : Keeps s0 s) (x0) : ∀ t, execDomTransitionComplete x0 s = .next t → Keeps s0 t := by
  intro t ht; simp only [execDomTransitionComplete, Host.Outcome.next.injEq] at ht
  subst ht
  repeat' first
    | (with_reducible first
         | exact h | apply State.wr_keeps | apply State.domUp_keeps | apply State.serdesNext_keeps
         | apply State.domNext_keeps)
    | split | with_reducible refine Keeps.lit rfl rfl rfl rfl rfl rfl ?_

theorem execThermRead_keeps {s0 s : State} (h : Keeps s0 s) (x0 x1) : ∀ t, execThermRead x0 x1 s = .next t → Keeps s0 t := by
  intro t ht; simp only [execThermRead, Host.Outcome.next.injEq] at ht
  subst ht
  repeat' first
    | (with_reducible first
         | exact h | apply State.wr_keeps | apply State.cnt_keeps | apply State.raise_keeps | apply State.peak_keeps
         | apply State.wrAll_keeps | apply State.thermTrip_keeps)
    | split

theorem execStrapChange_keeps {s0 s : State} (h : Keeps s0 s) (x0 x1) : ∀ t, execStrapChange x0 x1 s = .next t → Keeps s0 t := by
  intro t ht; simp only [execStrapChange, Host.Outcome.next.injEq] at ht
  subst ht
  repeat' first
    | (with_reducible first | exact h | apply State.wrAll_keeps | apply State.raiseIf_keeps) | split

theorem execPerstRelease_keeps {s0 s : State} (h : Keeps s0 s) : ∀ t, execPerstRelease s = .next t → Keeps s0 t := by
  intro t ht; simp only [execPerstRelease, Host.Outcome.next.injEq] at ht
  subst ht
  repeat' first
    | with_reducible exact h | split
    | with_reducible refine Keeps.lit rfl rfl rfl rfl rfl rfl ?_

theorem execSysclkLoss_keeps {s0 s : State} (h : Keeps s0 s) : ∀ t, execSysclkLoss s = .next t → Keeps s0 t := by
  intro t ht; simp only [execSysclkLoss, Host.Outcome.next.injEq] at ht
  subst ht
  repeat' first
    | (with_reducible first | exact h | apply State.wr_keeps | apply State.raise_keeps) | split

theorem execHbmTripEscalate_keeps {s0 s : State} (h : Keeps s0 s) : ∀ t, execHbmTripEscalate s = .next t → Keeps s0 t := by
  intro t ht; simp only [execHbmTripEscalate, Host.Outcome.next.injEq] at ht
  subst ht
  repeat' first
    | (with_reducible first | exact h | apply State.thermTrip_keeps) | split

theorem execEndpointRelease_keeps {s0 s : State} (h : Keeps s0 s) : ∀ t, execEndpointRelease s = .next t → Keeps s0 t := by
  intro t ht; simp only [execEndpointRelease, Host.Outcome.next.injEq] at ht
  subst ht
  repeat' first
    | (with_reducible first | exact h | apply State.wr_keeps) | split
    | with_reducible refine Keeps.lit rfl rfl rfl rfl rfl rfl ?_

theorem execDomPowerOff_keeps {s0 s : State} (h : Keeps s0 s) (x0) : ∀ t, execDomPowerOff x0 s = .next t → Keeps s0 t := by
  intro t ht; simp only [execDomPowerOff, Host.Outcome.next.injEq] at ht
  subst ht
  repeat' (with_reducible first | exact h | apply State.domWrite_keeps)

theorem execStartupStep_keeps {s0 s : State} (h : Keeps s0 s) : ∀ t, execStartupStep s = .next t → Keeps s0 t := by
  intro t ht; simp only [execStartupStep, Host.Outcome.next.injEq] at ht
  subst ht
  repeat' first
    | (with_reducible first | exact h | apply State.wr_keeps | apply State.raise_keeps) | split
    | (refine State.startStep_keeps (s0 := s0) ?_ _ _ (by assumption))

theorem execPllRelock_keeps {s0 s : State} (h : Keeps s0 s) (x0) : ∀ t, execPllRelock x0 s = .next t → Keeps s0 t := by
  intro t ht; simp only [execPllRelock, Host.Outcome.next.injEq] at ht
  subst ht
  repeat' first
    | (with_reducible first | exact h | apply State.wr_keeps | apply State.raise_keeps) | split

theorem execPowerOnReset_keeps {s0 s : State} (h : Keeps s0 s) (x0 x1) : ∀ t, execPowerOnReset x0 x1 s = .next t → Keeps s0 t := by
  intro t ht; simp only [execPowerOnReset, Host.Outcome.next.injEq] at ht
  subst ht
  repeat' first
    | (with_reducible first | exact h | apply State.wr_keeps | apply State.wrAll_keeps) | split
    | with_reducible refine Keeps.lit rfl rfl rfl rfl rfl rfl ?_

/-! ### Machine/Band.lean -/

set_option maxHeartbeats 200000
theorem State.bandEmit_keeps {s0 s : State} (h : Keeps s0 s) (x1 x2) : Keeps s0 (State.bandEmit s x1 x2) := by
  simp only [State.bandEmit]
  repeat' (with_reducible first | exact h | apply State.emit_keeps)

theorem State.setBandDir_keeps {s0 s : State} (h : Keeps s0 s) (x1 x2) : Keeps s0 (State.setBandDir s x1 x2) := by
  simp only [State.setBandDir]
  repeat' first
    | with_reducible exact h | split
    | with_reducible refine Keeps.lit rfl rfl rfl rfl rfl rfl ?_

theorem State.bandBare_keeps {s0 s : State} (h : Keeps s0 s) (x1 x2 x3) : Keeps s0 (State.bandBare s x1 x2 x3) := by
  simp only [State.bandBare]
  repeat' (with_reducible first | exact h | apply State.bandEmit_keeps)

theorem State.bandResume_keeps {s0 s : State} (h : Keeps s0 s) (x1) : Keeps s0 (State.bandResume s x1) := by
  simp only [State.bandResume]
  repeat' first
    | (with_reducible first | exact h | apply State.setBandDir_keeps | apply State.bandBare_keeps) | split

theorem State.nextVc_keeps {s0 s : State} (h : Keeps s0 s) (x1 x2) : Keeps s0 (State.nextVc s x1 x2).1 := by
  simp only [State.nextVc]
  repeat' first
    | (with_reducible first | exact h | apply State.draw_keeps) | split

theorem State.bandSend_keeps {s0 s : State} (h : Keeps s0 s) (x1) : Keeps s0 (State.bandSend s x1) := by
  simp only [State.bandSend]
  repeat' first
    | (with_reducible first
         | exact h | apply State.bandEmit_keeps | apply State.setBandDir_keeps | apply State.bandBare_keeps
         | apply State.nextVc_keeps)
    | split | (refine Keeps.of_fst (by assumption) ?_)

theorem execBandFlitSend_keeps {s0 s : State} (h : Keeps s0 s) (x0 x1) : ∀ t, execBandFlitSend x0 x1 s = .next t → Keeps s0 t := by
  intro t ht; simp only [execBandFlitSend, Host.Outcome.next.injEq] at ht
  subst ht
  repeat' first
    | (with_reducible first | exact h | apply State.setBandDir_keeps | apply State.bandSend_keeps) | split

theorem State.bandRetrain_keeps {s0 s : State} (h : Keeps s0 s) : Keeps s0 (State.bandRetrain s) := by
  simp only [State.bandRetrain]
  repeat' (with_reducible first | exact h | apply State.incSat_keeps | apply State.wrAll_keeps)

theorem execBandRetryLimit_keeps {s0 s : State} (h : Keeps s0 s) (x0) : ∀ t, execBandRetryLimit x0 s = .next t → Keeps s0 t := by
  intro t ht; simp only [execBandRetryLimit, Host.Outcome.next.injEq] at ht
  subst ht
  repeat' first
    | (with_reducible first | exact h | apply State.bandRetrain_keeps) | split

theorem execBandRetrain_keeps {s0 s : State} (h : Keeps s0 s) : ∀ t, execBandRetrain s = .next t → Keeps s0 t := by
  intro t ht; simp only [execBandRetrain, Host.Outcome.next.injEq] at ht
  subst ht
  repeat' (with_reducible first | exact h | apply State.gate_keeps | apply State.bandRetrain_keeps)

theorem State.bandMismatch_keeps {s0 s : State} (h : Keeps s0 s) (x1) : Keeps s0 (State.bandMismatch s x1) := by
  simp only [State.bandMismatch]
  repeat' first
    | (with_reducible first
         | exact h | apply State.inc_keeps | apply State.raise_keeps | apply State.setBandDir_keeps
         | apply State.bandBare_keeps)
    | split

theorem State.bandReplay_keeps {s0 s : State} (h : Keeps s0 s) (x1 x2) : Keeps s0 (State.bandReplay s x1 x2) := by
  simp only [State.bandReplay]
  repeat' first
    | (with_reducible first
         | exact h | assumption | apply State.inc_keeps | apply State.bandEmit_keeps | apply State.setBandDir_keeps
         | apply Keeps.foldl)
    | intro u _ hu | split

theorem execBandReplayRequest_keeps {s0 s : State} (h : Keeps s0 s) (x0 x1) : ∀ t, execBandReplayRequest x0 x1 s = .next t → Keeps s0 t := by
  intro t ht; simp only [execBandReplayRequest, Host.Outcome.next.injEq] at ht
  subst ht
  repeat' first
    | (with_reducible first | exact h | apply State.bandReplay_keeps) | split

theorem State.bandGood_keeps {s0 s : State} (h : Keeps s0 s) (x1 x2) : Keeps s0 (State.bandGood s x1 x2) := by
  simp only [State.bandGood]
  repeat' first
    | (with_reducible first
         | exact h | apply State.emit_keeps | apply State.setBandDir_keeps | apply State.bandReplay_keeps)
    | split

theorem State.bandTrained_keeps {s0 s : State} (h : Keeps s0 s) : Keeps s0 (State.bandTrained s) := by
  simp only [State.bandTrained]
  repeat' (with_reducible first
             | exact h | apply State.raise_keeps | apply State.wrAll_keeps | apply State.bandResume_keeps)

theorem execBandCrcMismatch_keeps {s0 s : State} (h : Keeps s0 s) (x0) : ∀ t, execBandCrcMismatch x0 s = .next t → Keeps s0 t := by
  intro t ht; simp only [execBandCrcMismatch, Host.Outcome.next.injEq] at ht
  subst ht
  repeat' first
    | (with_reducible first | exact h | apply State.bandMismatch_keeps) | split

theorem execBandFlitReceive_keeps {s0 s : State} (h : Keeps s0 s) (x0 x1) : ∀ t, execBandFlitReceive x0 x1 s = .next t → Keeps s0 t := by
  intro t ht; simp only [execBandFlitReceive, Host.Outcome.next.injEq] at ht
  subst ht
  repeat' first
    | (with_reducible first | exact h | apply State.bandMismatch_keeps | apply State.bandGood_keeps) | split

theorem State.bandFailed_keeps {s0 s : State} (h : Keeps s0 s) : Keeps s0 (State.bandFailed s) := by
  simp only [State.bandFailed]
  repeat' (with_reducible first | exact h | apply State.raise_keeps | apply State.wrAll_keeps)

end Sys2Proof.Machine
end

