-- ==== Sys2Proof/Laws/KeepsPath.lean ====
section
/-! SUPPORT. Laws/KeepsPath.lean: every operation and command of Machine/Lookup.lean, Machine/FramePath.lean keeps what `Keeps` names. -/

namespace Sys2Proof.Machine

/-! ### Machine/Lookup.lean -/

set_option maxHeartbeats 200000
theorem State.pipe_keeps {s0 s : State} (h : Keeps s0 s) (x1) : Keeps s0 (State.pipe s x1) := by
  simp only [State.pipe]
  repeat' first
    | with_reducible exact h | with_reducible refine Keeps.lit rfl rfl rfl rfl rfl rfl ?_

theorem State.pipeEnd_keeps {s0 s : State} (h : Keeps s0 s) (x1 x2) : Keeps s0 (State.pipeEnd s x1 x2) := by
  simp only [State.pipeEnd]
  repeat' (with_reducible first | exact h | apply State.pipe_keeps)

theorem State.pmmView_keeps {s0 s : State} (h : Keeps s0 s) : Keeps s0 (State.pmmView s) := by
  simp only [State.pmmView]
  repeat' first
    | (with_reducible first
         | exact h | assumption | apply State.wr_keeps | apply State.raise_keeps | apply Keeps.foldl)
    | intro u _ hu | split

theorem State.toScan_keeps {s0 s : State} (h : Keeps s0 s) (x1) : Keeps s0 (State.toScan s x1) := by
  simp only [State.toScan]
  repeat' first
    | (with_reducible first
         | exact h | apply State.pipe_keeps | apply State.pipeEnd_keeps | apply State.pmmView_keeps)
    | split

theorem State.toHost_keeps {s0 s : State} (h : Keeps s0 s) (x1) : Keeps s0 (State.toHost s x1) := by
  simp only [State.toHost]
  repeat' (with_reducible first | exact h | apply State.draw_keeps | apply State.toScan_keeps)

theorem State.deadDrop_keeps {s0 s : State} (h : Keeps s0 s) (x1 x2) : Keeps s0 (State.deadDrop s x1 x2) := by
  simp only [State.deadDrop]
  repeat' (with_reducible first | exact h | apply State.raise_keeps | apply State.pipeEnd_keeps)

theorem State.exmLookup_keeps {s0 s : State} (h : Keeps s0 s) (x1 x2) : Keeps s0 (State.exmLookup s x1 x2).1 := by
  simp only [State.exmLookup]
  repeat' first
    | (with_reducible first | exact h | apply State.cnt_keeps | apply State.rowTouch_keeps) | split

theorem State.learnRefused_keeps {s0 s : State} (h : Keeps s0 s) : Keeps s0 (State.learnRefused s) := by
  simp only [State.learnRefused]
  repeat' (with_reducible first | exact h | apply State.cnt_keeps | apply State.raise_keeps)

theorem State.learnReport_keeps {s0 s : State} (h : Keeps s0 s) (x1 x2 x3 x4 x5) : Keeps s0 (State.learnReport s x1 x2 x3 x4 x5) := by
  simp only [State.learnReport]
  repeat' first
    | (with_reducible first | exact h | apply State.cnt_keeps | apply State.raise_keeps | apply State.report_keeps)
    | split

theorem State.learn_keeps {s0 s : State} (h : Keeps s0 s) (x1) : Keeps s0 (State.learn s x1) := by
  simp only [State.learn]
  repeat' first
    | (with_reducible first
         | exact h | apply State.cnt_keeps | apply State.countRow_keeps | apply State.rowTouch_keeps
         | apply State.exmLookup_keeps | apply State.learnRefused_keeps | apply State.learnReport_keeps)
    | split | (refine Keeps.of_fst (by assumption) ?_)
    | with_reducible refine Keeps.lit rfl rfl rfl rfl rfl rfl ?_

theorem State.nextHop_keeps {s0 s : State} (h : Keeps s0 s) (x1 x2) : Keeps s0 (State.nextHop s x1 x2).1 := by
  simp only [State.nextHop]
  repeat' first
    | (with_reducible first | exact h | apply State.cnt_keeps | apply State.raise_keeps) | split

theorem State.resolve_keeps {s0 s : State} (h : Keeps s0 s) (x1 x2) : Keeps s0 (State.resolve s x1 x2) := by
  simp only [State.resolve]
  repeat' first
    | (with_reducible first
         | exact h | apply State.cnt_keeps | apply State.pipeEnd_keeps | apply State.toScan_keeps
         | apply State.deadDrop_keeps | apply State.nextHop_keeps)
    | split | (refine Keeps.of_fst (by assumption) ?_)

theorem State.choose_keeps {s0 s : State} (h : Keeps s0 s) (x1 x2 x3) : Keeps s0 (State.choose s x1 x2 x3) := by
  simp only [State.choose]
  repeat' first
    | (with_reducible first
         | exact h | apply State.cnt_keeps | apply State.pipeEnd_keeps | apply State.deadDrop_keeps
         | apply State.resolve_keeps)
    | split

theorem State.afterSecond_keeps {s0 s : State} (h : Keeps s0 s) (x1) : Keeps s0 (State.afterSecond s x1) := by
  simp only [State.afterSecond]
  repeat' first
    | (with_reducible first | exact h | apply State.deadDrop_keeps | apply State.choose_keeps) | split

theorem State.parkIn_keeps {s0 s : State} (h : Keeps s0 s) (x1 x2 x3) : Keeps s0 (State.parkIn s x1 x2 x3) := by
  simp only [State.parkIn]
  repeat' first
    | (with_reducible first
         | exact h | assumption | apply State.bump_keeps | apply State.cnt_keeps | apply State.inc_keeps
         | apply State.raiseIf_keeps | apply State.parkView_keeps | apply State.hbmPost_keeps | apply State.pipe_keeps
         | apply Keeps.foldl)
    | intro u _ hu

theorem State.park_keeps {s0 s : State} (h : Keeps s0 s) (x1 x2 x3) : Keeps s0 (State.park s x1 x2 x3) := by
  simp only [State.park]
  repeat' first
    | (with_reducible first | exact h | apply State.pipe_keeps | apply State.parkIn_keeps) | split

theorem State.afterFirst_keeps {s0 s : State} (h : Keeps s0 s) (x1) : Keeps s0 (State.afterFirst s x1) := by
  simp only [State.afterFirst]
  repeat' first
    | (with_reducible first
         | exact h | apply State.cnt_keeps | apply State.deadDrop_keeps | apply State.exmLookup_keeps
         | apply State.learn_keeps | apply State.choose_keeps | apply State.afterSecond_keeps
         | apply State.park_keeps)
    | split

theorem State.lookup_keeps {s0 s : State} (h : Keeps s0 s) (x1) : Keeps s0 (State.lookup s x1) := by
  simp only [State.lookup]
  repeat' first
    | (with_reducible first
         | exact h | apply State.cnt_keeps | apply State.pipeEnd_keeps | apply State.deadDrop_keeps
         | apply State.park_keeps | apply State.afterFirst_keeps)
    | split

theorem State.route_keeps {s0 s : State} (h : Keeps s0 s) (x1) : Keeps s0 (State.route s x1) := by
  simp only [State.route]
  repeat' first
    | (with_reducible first | exact h | apply State.toHost_keeps | apply State.lookup_keeps) | split

theorem execFenceComplete_keeps {s0 s : State} (h : Keeps s0 s) : ∀ t, execFenceComplete s = .next t → Keeps s0 t := by
  intro t ht; simp only [execFenceComplete, Host.Outcome.next.injEq] at ht
  subst ht
  repeat' first
    | (with_reducible first | exact h | apply State.wr_keeps | apply State.raise_keeps) | split

theorem State.act_keeps {s0 s : State} (h : Keeps s0 s) (x1) : Keeps s0 (State.act s x1) := by
  simp only [State.act]
  repeat' first
    | (with_reducible first
         | exact h | apply State.cnt_keeps | apply State.rsuQueueView_keeps | apply State.pipe_keeps
         | apply State.pipeEnd_keeps | apply State.route_keeps)
    | split

theorem State.fenceCmd_keeps {s0 s : State} (h : Keeps s0 s) : Keeps s0 (State.fenceCmd s) := by
  simp only [State.fenceCmd]
  repeat' first
    | (with_reducible first | exact h | apply State.wr_keeps)
    | with_reducible refine Keeps.lit rfl rfl rfl rfl rfl rfl ?_

theorem State.takePiped_keeps {s0 s : State} (h : Keeps s0 s) (x1) : ∀ r, State.takePiped s x1 = some r → Keeps s0 r.2 := by
  intro r ht; simp only [State.takePiped] at ht
  repeat' first
    | (split at ht) | (simp only [Option.some.injEq, reduceCtorEq] at ht) | (obtain ⟨rfl, _⟩ := ht)
    | with_reducible exact h | with_reducible refine Keeps.lit rfl rfl rfl rfl rfl rfl ?_

theorem State.parkNext_keeps {s0 s : State} (h : Keeps s0 s) (x1) : Keeps s0 (State.parkNext s x1) := by
  simp only [State.parkNext]
  repeat' first
    | (with_reducible first | exact h | apply State.parkIn_keeps) | split
    | (refine State.takePiped_keeps (s0 := s0) ?_ _ _ (by assumption))

theorem execFenceCmd_keeps {s0 s : State} (h : Keeps s0 s) : ∀ t, execFenceCmd s = .next t → Keeps s0 t := by
  intro t ht; simp only [execFenceCmd, Host.Outcome.next.injEq] at ht
  subst ht
  repeat' (with_reducible first | exact h | apply State.gate_keeps | apply State.fenceCmd_keeps)

theorem State.pmmRelease_keeps {s0 s : State} (h : Keeps s0 s) : Keeps s0 (State.pmmRelease s) := by
  simp only [State.pmmRelease]
  repeat' first
    | (with_reducible first | exact h | assumption | apply State.toScan_keeps | apply Keeps.foldl) | intro u _ hu
    | split | with_reducible refine Keeps.lit rfl rfl rfl rfl rfl rfl ?_

theorem execRsuSearchResult_keeps {s0 s : State} (h : Keeps s0 s) (x0) : ∀ t, execRsuSearchResult x0 s = .next t → Keeps s0 t := by
  intro t ht; simp only [execRsuSearchResult, Host.Outcome.next.injEq] at ht
  subst ht
  repeat' first
    | (with_reducible first
         | exact h | apply State.cnt_keeps | apply State.rsuOutcome_keeps | apply State.rsuQueueView_keeps
         | apply State.rsuParity_keeps | apply State.pipeEnd_keeps | apply State.route_keeps)
    | split | (refine Keeps.of_fst (by assumption) ?_)
    | (refine State.takePiped_keeps (s0 := s0) ?_ _ _ (by assumption))
    | with_reducible refine Keeps.lit rfl rfl rfl rfl rfl rfl ?_

theorem State.unpark_keeps {s0 s : State} (h : Keeps s0 s) (x1 x2) : Keeps s0 (State.unpark s x1 x2) := by
  simp only [State.unpark]
  repeat' first
    | (with_reducible first
         | exact h | apply State.raise_keeps | apply State.parkView_keeps | apply State.pipeEnd_keeps
         | apply State.afterSecond_keeps | apply State.afterFirst_keeps | apply State.parkNext_keeps)
    | split

theorem execPmmScanDone_keeps {s0 s : State} (h : Keeps s0 s) (x0 x1) : ∀ t, execPmmScanDone x0 x1 s = .next t → Keeps s0 t := by
  intro t ht; simp only [execPmmScanDone, Host.Outcome.next.injEq] at ht
  subst ht
  repeat' first
    | (with_reducible first
         | exact h | apply State.cnt_keeps | apply State.pipeEnd_keeps | apply State.pmmView_keeps
         | apply State.pmmRelease_keeps)
    | split | (refine State.takePiped_keeps (s0 := s0) ?_ _ _ (by assumption))

theorem execParkResume_keeps {s0 s : State} (h : Keeps s0 s) (x0 x1 x2) : ∀ t, execParkResume x0 x1 x2 s = .next t → Keeps s0 t := by
  intro t ht; simp only [execParkResume, Host.Outcome.next.injEq] at ht
  subst ht
  repeat' first
    | (with_reducible first | exact h | apply State.unpark_keeps) | split
    | (refine State.takePiped_keeps (s0 := s0) ?_ _ _ (by assumption))

/-! ### Machine/FramePath.lean -/

set_option maxHeartbeats 200000
theorem State.ordTimer_keeps {s0 s : State} (h : Keeps s0 s) (x1) : Keeps s0 (State.ordTimer s x1) := by
  simp only [State.ordTimer]
  repeat' (with_reducible first | exact h | apply State.setCtx_keeps)

theorem State.holdAdmit_keeps {s0 s : State} (h : Keeps s0 s) (x1 x2) : Keeps s0 (State.holdAdmit s x1 x2) := by
  simp only [State.holdAdmit]
  repeat' first
    | (with_reducible first
         | exact h | apply State.raise_keeps | apply State.macCnt_keeps | apply State.pauseSend_keeps)
    | split | with_reducible refine Keeps.lit rfl rfl rfl rfl rfl rfl ?_

theorem State.rxControl_keeps {s0 s : State} (h : Keeps s0 s) (x1 x2) : ∀ t, State.rxControl s x1 x2 = some t → Keeps s0 t := by
  intro t ht; simp only [State.rxControl] at ht
  repeat' first
    | (split at ht) | (simp only [Option.some.injEq, reduceCtorEq] at ht) | (obtain ⟨rfl, _⟩ := ht)
    | (with_reducible first | exact h | apply State.rxPause_keeps | apply State.rxPfc_keeps)

theorem State.twoStep_keeps {s0 s : State} (h : Keeps s0 s) (x1 x2 x3) : Keeps s0 (State.twoStep s x1 x2 x3) := by
  simp only [State.twoStep]
  repeat' first
    | (with_reducible first | exact h | apply State.draw_keeps | apply State.tsCapture_keeps) | split

theorem State.txBegin_keeps {s0 s : State} (h : Keeps s0 s) (x1 x2) : Keeps s0 (State.txBegin s x1 x2).1 := by
  simp only [State.txBegin]
  repeat' first
    | (with_reducible first
         | exact h | apply State.draw_keeps | apply State.macCnt_keeps | apply State.macsecTx_keeps
         | apply State.twoStep_keeps)
    | split | (refine Keeps.of_fst (by assumption) ?_)

theorem State.reassemble_keeps {s0 s : State} (h : Keeps s0 s) (x1 x2 x3 x4) : Keeps s0 (State.reassemble s x1 x2 x3 x4).1 := by
  simp only [State.reassemble]
  repeat' first
    | (with_reducible first | exact h | apply State.macCnt_keeps | apply State.setMac_keeps) | split

theorem State.ipfixCount_keeps {s0 s : State} (h : Keeps s0 s) (x1) : Keeps s0 (State.ipfixCount s x1).1 := by
  simp only [State.ipfixCount]
  repeat' first
    | (with_reducible first | exact h | apply State.setMac_keeps) | split

theorem State.flowCheck_keeps {s0 s : State} (h : Keeps s0 s) (x1) : Keeps s0 (State.flowCheck s x1) := by
  simp only [State.flowCheck]
  repeat' first
    | (with_reducible first | exact h | apply State.pauseSend_keeps) | split

theorem State.rxFrame_keeps {s0 s : State} (h : Keeps s0 s) (x1 x2 x3 x4 x5 x6) : Keeps s0 (State.rxFrame s x1 x2 x3 x4 x5 x6) := by
  simp only [State.rxFrame]
  repeat' first
    | (with_reducible first
         | exact h | apply State.tracePointAt_keeps | apply State.traceRx_keeps | apply State.macsecRx_keeps
         | apply State.bonTap_keeps | apply State.holdAdmit_keeps | apply State.ipfixCount_keeps
         | apply State.flowCheck_keeps)
    | split | (refine Keeps.of_fst (by assumption) ?_)

theorem State.rxWhole_keeps {s0 s : State} (h : Keeps s0 s) (x1 x2 x3 x4 x5 x6) : Keeps s0 (State.rxWhole s x1 x2 x3 x4 x5 x6) := by
  simp only [State.rxWhole]
  repeat' first
    | (with_reducible first | exact h | apply State.macCnt_keeps | apply State.bwRx_keeps | apply State.rxFrame_keeps)
    | split | (refine State.rxControl_keeps (s0 := s0) ?_ _ _ _ (by assumption))

theorem State.macRx_keeps {s0 s : State} (h : Keeps s0 s) (x1 x2 x3 x4 x5 x6) : Keeps s0 (State.macRx s x1 x2 x3 x4 x5 x6) := by
  simp only [State.macRx]
  repeat' first
    | (with_reducible first | exact h | apply State.reassemble_keeps | apply State.rxWhole_keeps) | split
    | (refine Keeps.of_fst (by assumption) ?_)

theorem State.loopBack_keeps {s0 s : State} (h : Keeps s0 s) (x1 x2 x3 x4) : Keeps s0 (State.loopBack s x1 x2 x3 x4) := by
  simp only [State.loopBack]
  repeat' first
    | (with_reducible first | exact h | apply State.macRx_keeps) | split

theorem State.txOut_keeps {s0 s : State} (h : Keeps s0 s) (x1 x2) : Keeps s0 (State.txOut s x1 x2) := by
  simp only [State.txOut]
  repeat' first
    | (with_reducible first | exact h | apply State.emit_keeps) | split

theorem State.txFragment_keeps {s0 s : State} (h : Keeps s0 s) (x1 x2) : Keeps s0 (State.txFragment s x1 x2) := by
  simp only [State.txFragment]
  repeat' (with_reducible first
             | exact h | apply State.draw_keeps | apply State.macCnt_keeps | apply State.setMac_keeps
             | apply State.loopBack_keeps | apply State.txOut_keeps)

theorem State.ordSend_keeps {s0 s : State} (h : Keeps s0 s) (x1) : Keeps s0 (State.ordSend s x1) := by
  simp only [State.ordSend]
  repeat' first
    | (with_reducible first
         | exact h | apply State.cnt_keeps | apply State.peak_keeps | apply State.tracePoint_keeps
         | apply State.serviceDispatch_keeps)
    | split | with_reducible refine Keeps.lit rfl rfl rfl rfl rfl rfl ?_

theorem State.eppDrop_keeps {s0 s : State} (h : Keeps s0 s) (x1) : Keeps s0 (State.eppDrop s x1) := by
  simp only [State.eppDrop]
  repeat' first
    | (with_reducible first | exact h | apply State.setMac_keeps) | split

theorem State.releaseRun_keeps {s0 s : State} (h : Keeps s0 s) (x1 x2) : Keeps s0 (State.releaseRun s x1 x2) := by
  induction x2 generalizing s x1 with
  | zero =>
    simp only [State.releaseRun]
    repeat' (with_reducible exact h)
  | succ x ih =>
    simp only [State.releaseRun]
    repeat' first
      | (with_reducible first | exact h | apply ih | apply State.setCtx_keeps | apply State.ordSend_keeps) | split

theorem execOrdGapTimeout_keeps {s0 s : State} (h : Keeps s0 s) (x0) : ∀ t, execOrdGapTimeout x0 s = .next t → Keeps s0 t := by
  intro t ht; simp only [execOrdGapTimeout, Host.Outcome.next.injEq] at ht
  subst ht
  repeat' first
    | (with_reducible first
         | exact h | apply State.cnt_keeps | apply State.raise_keeps | apply State.setCtx_keeps
         | apply State.ordView_keeps | apply State.ordTimer_keeps | apply State.releaseRun_keeps)
    | split

theorem State.ordTake_keeps {s0 s : State} (h : Keeps s0 s) (x1 x2) : Keeps s0 (State.ordTake s x1 x2) := by
  simp only [State.ordTake]
  repeat' first
    | (with_reducible first
         | exact h | apply State.cnt_keeps | apply State.raise_keeps | apply State.setCtx_keeps
         | apply State.ordView_keeps | apply State.ordTimer_keeps | apply State.releaseRun_keeps)
    | split

theorem State.traceHost_keeps {s0 s : State} (h : Keeps s0 s) (x1) : Keeps s0 (State.traceHost s x1).1 := by
  simp only [State.traceHost]
  repeat' first
    | (with_reducible first | exact h | apply State.traceTag_keeps) | split

theorem State.eppOut_keeps {s0 s : State} (h : Keeps s0 s) (x1) : Keeps s0 (State.eppOut s x1) := by
  simp only [State.eppOut]
  repeat' first
    | (with_reducible first
         | exact h | apply State.draw_keeps | apply State.setMac_keeps | apply State.lpiLeave_keeps)
    | split | with_reducible refine Keeps.lit rfl rfl rfl rfl rfl rfl ?_

theorem State.eppPass_keeps {s0 s : State} (h : Keeps s0 s) (x1 x2 x3 x4) : Keeps s0 (State.eppPass s x1 x2 x3 x4) := by
  simp only [State.eppPass]
  repeat' first
    | (with_reducible first
         | exact h | apply State.draw_keeps | apply State.inc_keeps | apply State.raise_keeps
         | apply State.tracePoint_keeps | apply State.eppDrop_keeps | apply State.eppOut_keeps)
    | split | with_reducible refine Keeps.lit rfl rfl rfl rfl rfl rfl ?_

theorem State.takeFrom_keeps {s0 s : State} (h : Keeps s0 s) (x1 x2) : Keeps s0 (State.takeFrom s x1 x2) := by
  simp only [State.takeFrom]
  repeat' first
    | (with_reducible first | exact h | apply State.setMac_keeps) | split

theorem State.interrupt_keeps {s0 s : State} (h : Keeps s0 s) (x1 x2 x3) : Keeps s0 (State.interrupt s x1 x2 x3) := by
  simp only [State.interrupt]
  repeat' first
    | (with_reducible first
         | exact h | apply State.setMac_keeps | apply State.txBegin_keeps | apply State.txFragment_keeps
         | apply State.takeFrom_keeps)
    | split

theorem execMscTakeFrame_keeps {s0 s : State} (h : Keeps s0 s) (x0) : ∀ t, execMscTakeFrame x0 s = .next t → Keeps s0 t := by
  intro t ht; simp only [execMscTakeFrame, Host.Outcome.next.injEq] at ht
  subst ht
  repeat' first
    | (with_reducible first | exact h | apply State.takeFrom_keeps | apply State.interrupt_keeps) | split

theorem State.pass_keeps {s0 s : State} (h : Keeps s0 s) (x1 x2) : Keeps s0 (State.pass s x1 x2) := by
  simp only [State.pass]
  repeat' first
    | (with_reducible first
         | exact h | apply State.cnt_keeps | apply State.classify_keeps | apply State.ipfixSample_keeps
         | apply State.pipeEnd_keeps | apply State.act_keeps)
    | split

theorem State.deal_keeps {s0 s : State} (h : Keeps s0 s) (x1 x2) : Keeps s0 (State.deal s x1 x2) := by
  simp only [State.deal]
  repeat' first
    | (with_reducible first
         | exact h | apply State.tracePoint_keeps | apply State.setCtx_keeps | apply State.ordView_keeps
         | apply State.flowCheck_keeps | apply State.traceHost_keeps | apply State.pass_keeps)
    | with_reducible refine Keeps.lit rfl rfl rfl rfl rfl rfl ?_

theorem execOrdResult_keeps {s0 s : State} (h : Keeps s0 s) (x0 x1) : ∀ t, execOrdResult x0 x1 s = .next t → Keeps s0 t := by
  intro t ht; simp only [execOrdResult, Host.Outcome.next.injEq] at ht
  subst ht
  repeat' first
    | (with_reducible first
         | exact h | apply State.cnt_keeps | apply State.inc_keeps | apply State.ordView_keeps
         | apply State.flowCheck_keeps | apply State.ordTake_keeps)
    | split | (refine State.takePiped_keeps (s0 := s0) ?_ _ _ (by assumption))

theorem execMacRxFrame_keeps {s0 s : State} (h : Keeps s0 s) (x0 x1 x2 x3 x4 x5) : ∀ t, execMacRxFrame x0 x1 x2 x3 x4 x5 s = .next t → Keeps s0 t := by
  intro t ht; simp only [execMacRxFrame, Host.Outcome.next.injEq] at ht
  subst ht
  repeat' first
    | (with_reducible first | exact h | apply State.macRx_keeps) | split

theorem State.txLeave_keeps {s0 s : State} (h : Keeps s0 s) (x1 x2) : Keeps s0 (State.txLeave s x1 x2) := by
  simp only [State.txLeave]
  repeat' first
    | (with_reducible first
         | exact h | apply State.tracePointAt_keeps | apply State.macCnt_keeps | apply State.cbsSpend_keeps
         | apply State.bonTap_keeps | apply State.bonStomp_keeps | apply State.bwTx_keeps | apply State.loopBack_keeps
         | apply State.txOut_keeps)
    | split

theorem State.txFrame_keeps {s0 s : State} (h : Keeps s0 s) (x1 x2 x3) : Keeps s0 (State.txFrame s x1 x2 x3) := by
  simp only [State.txFrame]
  repeat' first
    | (with_reducible first
         | exact h | apply State.setMac_keeps | apply State.txBegin_keeps | apply State.txLeave_keeps)
    | split

theorem execEppDeal_keeps {s0 s : State} (h : Keeps s0 s) (x0 x1) : ∀ t, execEppDeal x0 x1 s = .next t → Keeps s0 t := by
  intro t ht; simp only [execEppDeal, Host.Outcome.next.injEq] at ht
  subst ht
  repeat' first
    | (with_reducible first | exact h | apply State.poolView_keeps | apply State.eppPass_keeps) | split
    | with_reducible refine Keeps.lit rfl rfl rfl rfl rfl rfl ?_

theorem execDealFrame_keeps {s0 s : State} (h : Keeps s0 s) : ∀ t, execDealFrame s = .next t → Keeps s0 t := by
  intro t ht; simp only [execDealFrame, Host.Outcome.next.injEq] at ht
  subst ht
  repeat' first
    | (with_reducible first | exact h | apply State.deal_keeps) | split
    | with_reducible refine Keeps.lit rfl rfl rfl rfl rfl rfl ?_

theorem execMacTxFrame_keeps {s0 s : State} (h : Keeps s0 s) (x0) : ∀ t, execMacTxFrame x0 s = .next t → Keeps s0 t := by
  intro t ht; simp only [execMacTxFrame, Host.Outcome.next.injEq] at ht
  subst ht
  repeat' first
    | (with_reducible first | exact h | apply State.txFrame_keeps) | split

end Sys2Proof.Machine
end

