-- ==== Sys2Proof/Laws/KeepsBus.lean ====
section
/-! SUPPORT. Laws/KeepsBus.lean: every operation and command of Machine/Access.lean, Machine/Fire.lean, Machine/Bus.lean, Machine/Upset.lean, Machine/Tick.lean keeps what `Keeps` names. -/

namespace Sys2Proof.Machine

/-! ### Machine/Access.lean -/

set_option maxHeartbeats 200000
theorem State.lfuReset_keeps {s0 s : State} (h : Keeps s0 s) (x1) : Keeps s0 (State.lfuReset s x1) := by
  simp only [State.lfuReset]
  repeat' (with_reducible first
             | exact h | apply State.wrAll_keeps | apply State.setLfu_keeps | apply State.protEval_keeps)

theorem State.groupWrites_keeps {s0 s : State} (h : Keeps s0 s) (x1 x2 x3 x4) : ∀ t, State.groupWrites s x1 x2 x3 x4 = some t → Keeps s0 t := by
  intro t ht; simp only [State.groupWrites] at ht
  repeat' first
    | (split at ht) | (simp only [Option.some.injEq, reduceCtorEq] at ht) | (obtain ⟨rfl, _⟩ := ht)
    | (with_reducible first
         | exact h | apply State.raise_keeps | apply State.lfuClientWord_keeps | apply State.secWindowWrite_keeps
         | apply State.admProfileWrite_keeps | apply State.shpWrite_keeps)
    | (refine State.windowAccess_keeps (s0 := s0) ?_ _ _ _ (by assumption))
    | (refine State.vfmWrite_keeps (s0 := s0) ?_ _ _ _ (by assumption))

theorem State.windowRead_keeps {s0 s : State} (h : Keeps s0 s) (x1 x2 x3 x4) : ∀ r, State.windowRead s x1 x2 x3 x4 = some r → Keeps s0 r.1 := by
  intro r ht; simp only [State.windowRead] at ht
  repeat' first
    | (split at ht) | (simp only [Option.some.injEq, reduceCtorEq] at ht) | (obtain ⟨rfl, _⟩ := ht)
    | (with_reducible first | exact h | apply State.raise_keeps | apply State.legAlias_keeps)
    | (refine State.windowAccess_keeps (s0 := s0) ?_ _ _ _ (by assumption))
    | with_reducible refine Keeps.lit rfl rfl rfl rfl rfl rfl ?_

theorem State.resRead_keeps {s0 s : State} (h : Keeps s0 s) (x1 x2 x3 x4) : Keeps s0 (State.resRead s x1 x2 x3 x4).1 := by
  simp only [State.resRead]
  repeat' first
    | (with_reducible first | exact h | apply State.wr_keeps | apply State.draw_keeps) | split

theorem State.clearRc_keeps {s0 s : State} (h : Keeps s0 s) (x1 x2 x3) : Keeps s0 (State.clearRc s x1 x2 x3) := by
  simp only [State.clearRc]
  repeat' first
    | (with_reducible first | exact h | assumption | apply State.wr_keeps | apply Keeps.foldl) | intro u _ hu | split

theorem State.plainRead_keeps {s0 s : State} (h : Keeps s0 s) (x1 x2 x3 x4) : Keeps s0 (State.plainRead s x1 x2 x3 x4).1 := by
  simp only [State.plainRead]
  repeat' first
    | (with_reducible first | exact h | apply State.timeRead_keeps | apply State.clearRc_keeps) | split
    | with_reducible refine Keeps.lit rfl rfl rfl rfl rfl rfl ?_

theorem State.readWord_keeps {s0 s : State} (h : Keeps s0 s) (x1 x2 x3) : Keeps s0 (State.readWord s x1 x2 x3).1 := by
  simp only [State.readWord]
  repeat' first
    | (with_reducible first
         | exact h | apply State.pmc_keeps | apply State.resRead_keeps | apply State.plainRead_keeps)
    | split
    | (rename_i hr; split at hr; exact State.windowRead_keeps (State.pmc_keeps h _ _ _) _ _ _ _ _ hr; simp at hr)

theorem State.clearNative_keeps {s0 s : State} (h : Keeps s0 s) (x1) : Keeps s0 (State.clearNative s x1) := by
  simp only [State.clearNative]
  repeat' first
    | (with_reducible first | exact h | assumption | apply State.wr_keeps | apply Keeps.foldl) | intro u _ hu

theorem State.freeList_keeps {s0 s : State} (h : Keeps s0 s) (x1 x2) : Keeps s0 (State.freeList s x1 x2).2 := by
  exact ⟨h.pending, h.ticks, Nat.le_trans h.free (Nat.le_add_right _ _), h.regs, h.hbm, h.nt⟩

theorem State.freeIo_keeps {s0 s : State} (h : Keeps s0 s) : Keeps s0 (State.freeIo s).2 := by
  simp only [State.freeIo]
  repeat' first
    | (with_reducible first | exact h | apply State.draw_keeps | apply State.freeList_keeps) | split

theorem State.freeTags_keeps {s0 s : State} (h : Keeps s0 s) (x1) : Keeps s0 (State.freeTags s x1).2 := by
  simp only [State.freeTags]
  repeat' (with_reducible first | exact h | apply State.freeList_keeps)

theorem State.ordReset_keeps {s0 s : State} (h : Keeps s0 s) : Keeps s0 (State.ordReset s) := by
  simp only [State.ordReset]
  repeat' first
    | (with_reducible first | exact h | apply State.bump_keeps | apply State.ordView_keeps)
    | with_reducible refine Keeps.lit rfl rfl rfl rfl rfl rfl ?_

theorem State.enableRise_keeps {s0 s : State} (h : Keeps s0 s) (x1) : Keeps s0 (State.enableRise s x1) := by
  simp only [State.enableRise]
  repeat' first
    | (with_reducible first | exact h | apply State.carveCheck_keeps | apply State.fabEnable_keeps) | split

theorem State.mscReset_keeps {s0 s : State} (h : Keeps s0 s) (x1) : Keeps s0 (State.mscReset s x1) := by
  simp only [State.mscReset]
  repeat' first
    | (with_reducible first
         | exact h | assumption | apply State.wrAll_keeps | apply State.setMac_keeps | apply State.setPaused_keeps
         | apply State.tsView_keeps | apply Keeps.foldl)
    | intro u _ hu | split | with_reducible refine Keeps.lit rfl rfl rfl rfl rfl rfl ?_

theorem State.cageReset_keeps {s0 s : State} (h : Keeps s0 s) : Keeps s0 (State.cageReset s) := by
  simp only [State.cageReset]
  repeat' first
    | (with_reducible first
         | exact h | assumption | apply State.mmView_keeps | apply State.cageEvent_keeps | apply Keeps.foldl)
    | intro u _ hu | split | with_reducible refine Keeps.lit rfl rfl rfl rfl rfl rfl ?_

theorem State.lnpReset_keeps {s0 s : State} (h : Keeps s0 s) (x1) : Keeps s0 (State.lnpReset s x1) := by
  simp only [State.lnpReset]
  repeat' first
    | (with_reducible first | exact h | assumption | apply State.wrAll_keeps | apply Keeps.foldl) | intro u _ hu

theorem State.fiuReset_keeps {s0 s : State} (h : Keeps s0 s) (x1) : Keeps s0 (State.fiuReset s x1) := by
  simp only [State.fiuReset]
  repeat' first
    | (with_reducible first
         | exact h | assumption | apply State.linkOn_keeps | apply State.linkOff_keeps | apply Keeps.foldl)
    | intro u _ hu | split

theorem State.hbcReset_keeps {s0 s : State} (h : Keeps s0 s) (x1) : Keeps s0 (State.hbcReset s x1) := by
  simp only [State.hbcReset]
  repeat' first
    | (with_reducible first | exact h | assumption | apply State.setChan_keeps | apply Keeps.foldl) | intro u _ hu
    | with_reducible refine Keeps.lit rfl rfl rfl rfl rfl rfl ?_

theorem State.commitsEnd_keeps {s0 s : State} (h : Keeps s0 s) : Keeps s0 (State.commitsEnd s) := by
  simp only [State.commitsEnd]
  repeat' first
    | (with_reducible first
         | exact h | assumption | apply State.vstoreView_keeps | apply State.tdmaEnd_keeps | apply Keeps.foldl)
    | intro u _ hu | split | with_reducible refine Keeps.lit rfl rfl rfl rfl rfl rfl ?_

theorem State.unitReset_keeps {s0 s : State} (h : Keeps s0 s) (x1 x2) : Keeps s0 (State.unitReset s x1 x2) := by
  simp only [State.unitReset]
  repeat' first
    | (with_reducible first
         | exact h | assumption | apply State.wr_keeps | apply State.clsPauseView_keeps | apply State.svcView_keeps
         | apply State.ntPend_keeps | apply State.taqDiscard_keeps | apply State.setValid_keeps
         | apply State.ringAbort_keeps | apply State.shdView_keeps | apply State.strobeDone_keeps
         | apply State.linSoftReset_keeps | apply State.lfuReset_keeps | apply State.freeTags_keeps
         | apply State.ordReset_keeps | apply State.mscReset_keeps | apply State.cageReset_keeps
         | apply State.lnpReset_keeps | apply State.fiuReset_keeps | apply State.hbcReset_keeps
         | apply State.commitsEnd_keeps | apply Keeps.foldl)
    | intro u _ hu | split | with_reducible refine Keeps.lit rfl rfl rfl rfl rfl rfl ?_

theorem State.softStart_keeps {s0 s : State} (h : Keeps s0 s) (x1) : Keeps s0 (State.softStart s x1) := by
  simp only [State.softStart]
  repeat' first
    | (with_reducible first | exact h | apply State.softReset_keeps | apply State.unitReset_keeps) | split

theorem State.ctlWrite_keeps {s0 s : State} (h : Keeps s0 s) (x1 x2) : Keeps s0 (State.ctlWrite s x1 x2) := by
  simp only [State.ctlWrite]
  repeat' first
    | (with_reducible first
         | exact h | apply State.put_keeps | apply State.enableRise_keeps | apply State.softStart_keeps)
    | split

theorem State.maskWrite_keeps {s0 s : State} (h : Keeps s0 s) (x1 x2) : Keeps s0 (State.maskWrite s x1 x2) := by
  simp only [State.maskWrite]
  repeat' (with_reducible first | exact h | apply State.wr_keeps | apply State.edges_keeps)

theorem State.forceWrite_keeps {s0 s : State} (h : Keeps s0 s) (x1 x2) : Keeps s0 (State.forceWrite s x1 x2) := by
  simp only [State.forceWrite]
  repeat' first
    | (with_reducible first | exact h | assumption | apply State.raiseIf_keeps | apply Keeps.foldl) | intro u _ hu

theorem State.commonWrite_keeps {s0 s : State} (h : Keeps s0 s) (x1 x2 x3) : ∀ t, State.commonWrite s x1 x2 x3 = some t → Keeps s0 t := by
  intro t ht; simp only [State.commonWrite] at ht
  repeat' first
    | (split at ht) | (simp only [Option.some.injEq, reduceCtorEq] at ht) | (obtain ⟨rfl, _⟩ := ht)
    | (with_reducible first
         | exact h | apply State.put_keeps | apply State.localStrobe_keeps | apply State.clearNative_keeps
         | apply State.ctlWrite_keeps | apply State.maskWrite_keeps | apply State.forceWrite_keeps)

theorem State.freeBit_keeps {s0 s : State} (h : Keeps s0 s) : Keeps s0 (State.freeBit s).2 := by
  simp only [State.freeBit]
  repeat' (with_reducible first | exact h | apply State.draw_keeps)

theorem State.fieldWrite_keeps {s0 s : State} (h : Keeps s0 s) (x1 x2 x3 x4) : Keeps s0 (State.fieldWrite s x1 x2 x3 x4) := by
  simp only [State.fieldWrite]
  repeat' first
    | (with_reducible first | exact h | apply State.wr_keeps) | split

theorem State.storeWord_keeps {s0 s : State} (h : Keeps s0 s) (x1 x2 x3) : Keeps s0 (State.storeWord s x1 x2 x3) := by
  simp only [State.storeWord]
  repeat' first
    | (with_reducible first | exact h | assumption | apply State.fieldWrite_keeps | apply Keeps.foldl) | intro u _ hu
    | split

theorem State.freeLog_keeps {s0 s : State} (h : Keeps s0 s) : Keeps s0 (State.freeLog s).2 := by
  simp only [State.freeLog]
  repeat' (with_reducible first | exact h | apply State.freeList_keeps)

theorem State.freeImage_keeps {s0 s : State} (h : Keeps s0 s) : Keeps s0 (State.freeImage s).2 := by
  simp only [State.freeImage]
  repeat' first
    | (with_reducible first | exact h | apply State.freeList_keeps | apply State.freeBit_keeps) | split

theorem after_keeps {s0 s : State} (h : Keeps s0 s) (x0) (h0 : ∀ t, x0 = .next t → Keeps s0 t) : Keeps s0 (after x0 s) := by
  simp only [after]
  split
  · exact h0 _ rfl
  · exact h

theorem State.intRearm_keeps {s0 s : State} (h : Keeps s0 s) (x1) : Keeps s0 (State.intRearm s x1) := by
  simp only [State.intRearm]
  repeat' first
    | (with_reducible first | exact h | apply State.msix_keeps) | split

/-- Every operation of a table of operations keeps what `Keeps` names. -/
def OpsOk (s0 s : State) (l : List (Nat × (State → Host.Outcome State Fault Refusal))) : Prop :=
  ∀ e ∈ l, ∀ t, e.2 s = .next t → Keeps s0 t
theorem OpsOk.nil (s0 s : State) : OpsOk s0 s [] := fun _ h => absurd h List.not_mem_nil
theorem OpsOk.cons {s0 s : State} {n : Nat} {f : State → Host.Outcome State Fault Refusal} {l}
    (h : ∀ t, f s = .next t → Keeps s0 t) (hl : OpsOk s0 s l) : OpsOk s0 s ((n, f) :: l) := by
  intro e he; rcases List.mem_cons.1 he with rfl | he
  · exact h
  · exact hl e he
theorem tget_mem {α : Type} {t : Tbl α} {k : Nat} {x : α} (h : tget t k = some x) : (k, x) ∈ t := by
  induction t with
  | nil => simp [tget] at h
  | cons e t ih =>
    obtain ⟨j, y⟩ := e
    simp only [tget] at h
    split at h
    · simp_all
    · exact List.mem_cons_of_mem _ (ih h)
theorem byOp_keeps {s0 s : State} (h : Keeps s0 s) (x0 x1) (h1 : OpsOk s0 s x1) : Keeps s0 (byOp x0 x1 s) := by
  simp only [byOp]
  split
  · exact after_keeps h _ (h1 _ (tget_mem (by assumption)))
  · exact h

/-- Every hook of a page keeps what `Keeps` names. -/
def HooksOk (s0 s : State) (l : List Hook) : Prop := ∀ e ∈ l, ∀ p, Keeps s0 (e.2 p s)
theorem HooksOk.nil (s0 s : State) : HooksOk s0 s [] := fun _ h => absurd h List.not_mem_nil
theorem HooksOk.cons {s0 s : State} {n : Fld} {f : Nat → State → State} {l}
    (h : ∀ p, Keeps s0 (f p s)) (hl : HooksOk s0 s l) : HooksOk s0 s ((n, f) :: l) := by
  intro e he; rcases List.mem_cons.1 he with rfl | he
  · exact h
  · exact hl e he
theorem HooksOk.append {s0 s : State} {l k : List Hook} (hl : HooksOk s0 s l) (hk : HooksOk s0 s k) : HooksOk s0 s (l ++ k) := by
  intro e he; rcases List.mem_append.1 he with he | he
  · exact hl e he
  · exact hk e he
theorem hookAt_keeps {s0 s : State} {l : List Hook} (hl : HooksOk s0 s l) (off : Nat) : ∀ f, hookAt off l = some f → Keeps s0 (f s) := by
  induction l with
  | nil => intro f h; simp [hookAt] at h
  | cons e t ih =>
    intro f h
    simp only [hookAt] at h
    split at h
    · simp only [Option.some.injEq] at h; subst h; exact hl e (by simp) _
    · exact ih (fun e he => hl e (by simp [he])) f h
theorem hooksInfra_keeps {s0 s : State} (h : Keeps s0 s) (x1 x2) : HooksOk s0 s (hooksInfra (x1) (x2)) := by
  simp only [hooksInfra]
  repeat' first
    | with_reducible exact h | exact HooksOk.nil _ _ | exact OpsOk.nil _ _
    | (with_reducible first
         | refine HooksOk.cons ?_ ?_ | refine OpsOk.cons ?_ ?_ | apply byOp_keeps | apply State.put_keeps
         | apply State.strobe_keeps | apply State.synceWrite_keeps | refine execTaqCancel_keeps ?_ _ _
         | refine execTaqPost_keeps ?_ _ | refine execTaqRead_keeps ?_ _ _ | apply State.domWrite_keeps
         | apply State.thermCfgWrite_keeps | apply State.warmCmd_keeps | apply State.bandRetrain_keeps
         | apply State.storeWord_keeps)
    | split | intro _

theorem hooksMgmt_keeps {s0 s : State} (h : Keeps s0 s) (x1 x2 x3 x4) : HooksOk s0 s (hooksMgmt (x1) (x2) (x3) (x4)) := by
  simp only [hooksMgmt]
  repeat' first
    | (with_reducible first | exact h | assumption) | exact HooksOk.nil _ _ | exact OpsOk.nil _ _
    | (with_reducible first
         | refine HooksOk.cons ?_ ?_ | refine OpsOk.cons ?_ ?_ | apply byOp_keeps | apply after_keeps
         | apply State.wr_keeps | apply State.put_keeps | apply State.gate_keeps
         | refine execMscSaInvalidate_keeps ?_ _ _ | apply State.txFirWrite_keeps | apply State.portApply_keeps
         | apply State.secCtlWrite_keeps | refine execMscSaWrite_keeps ?_ _ _ | apply State.macCtlWrite_keeps
         | apply State.pnThrWrite_keeps | refine execMscSaRead_keeps ?_ _ _ | apply State.tsPop_keeps
         | apply State.preemptWrite_keeps | apply State.laneMapWrite_keeps | apply State.mmCommand_keeps
         | refine execMmRead_keeps ?_ _ _ _ | apply State.cageCtlWrite_keeps | refine execMmWrite_keeps ?_ _ _ _
         | refine execMmAbort_keeps ?_ _ _ | apply State.csbCtlWrite_keeps | apply State.protEval_keeps
         | apply State.otnTrigger_keeps | apply State.protCommand_keeps | apply State.flexeTrigger_keeps
         | apply State.pmLatch_keeps | apply State.laneCtlWrite_keeps | apply State.lfuCfgWrite_keeps
         | refine execBonSelectWin_keeps ?_ _ | refine execBonCfgTap_keeps ?_ _ | refine execBonCfgReport_keeps ?_ _
         | refine execBonSeal_keeps ?_ _ | refine execBonReportNow_keeps ?_ _ | refine execSpRestartStandby_keeps ?_ _
         | refine execSpHeartbeat_keeps ?_ _ | apply State.gpioWrite_keeps | refine execSpSwitchover_keeps ?_ _
         | apply State.fanDutyWrite_keeps | apply State.fanCfgWrite_keeps | refine execSecUnlock_keeps ?_ _
         | refine execFwArm_keeps ?_ _ _ | refine execSecChallenge_keeps ?_ _ | refine execFwReject_keeps ?_ _
         | refine execSvnAdvance_keeps ?_ _ _ | refine execFwDisarm_keeps ?_ _ | refine execFwStageConfig_keeps ?_ _ _
         | refine execFwVerify_keeps ?_ _ _ _ | refine execSecQuote_keeps ?_ _ | refine execFwActivateNow_keeps ?_ _
         | refine execFwuAbort_keeps ?_ _ | refine execFwStage_keeps ?_ _ _ _ | refine execFlashRead_keeps ?_ _ _
         | refine execTraceAbort_keeps ?_ _ | refine execTraceClear_keeps ?_ _ | refine execLogDump_keeps ?_ _ _
         | refine execTraceDump_keeps ?_ _ _ | refine execLogAbort_keeps ?_ _ | refine execLogAppend_keeps ?_ _
         | refine execSpTakeoverDone_keeps ?_ _ | apply State.freeBit_keeps | apply State.storeWord_keeps)
    | split | intro _ | with_reducible refine Keeps.lit rfl rfl rfl rfl rfl rfl ?_

theorem hooksPipe_keeps {s0 s : State} (h : Keeps s0 s) (x1 x2 x3) : HooksOk s0 s (hooksPipe (x1) (x2) (x3)) := by
  simp only [hooksPipe]
  repeat' first
    | with_reducible exact h | exact HooksOk.nil _ _ | exact OpsOk.nil _ _
    | (with_reducible first
         | refine HooksOk.cons ?_ ?_ | refine OpsOk.cons ?_ ?_ | apply byOp_keeps | apply after_keeps
         | apply State.wr_keeps | refine execClsAbort_keeps ?_ _ | refine execPatWrite_keeps ?_ _ _
         | refine execTplCommit_keeps ?_ _ _ | refine execClsRead_keeps ?_ _ _ | refine execTplRead_keeps ?_ _ _
         | refine execPatAbort_keeps ?_ _ | refine execPatRead_keeps ?_ _ _ | refine execClsInsert_keeps ?_ _ _ _
         | refine execTplInvalidate_keeps ?_ _ _ | refine execClsDelete_keeps ?_ _ _ | apply State.doorbell_keeps
         | apply State.ringAbort_keeps | apply State.lenCfgWrite_keeps | apply State.epochCmd_keeps
         | apply State.tblCfgBWrite_keeps | apply State.ringDisable_keeps | refine execShdMmPop_keeps ?_
         | apply State.tblCfgAWrite_keeps | apply State.rsuModeWrite_keeps | refine execMoveWindow_keeps ?_ _ _ _
         | refine execRsWrite_keeps ?_ _ _ _ | refine execRsInvalidate_keeps ?_ _ _ _
         | refine execRsRead_keeps ?_ _ _ _ | refine execRsAbort_keeps ?_ _ _ | apply State.bankCfgWrite_keeps
         | apply State.fenceCmd_keeps | apply State.freeTags_keeps | apply State.storeWord_keeps)
    | split | intro _

theorem hooksQd_keeps {s0 s : State} (h : Keeps s0 s) (x1 x2 x3) : HooksOk s0 s (hooksQd (x1) (x2) (x3)) := by
  simp only [hooksQd]
  repeat' first
    | with_reducible exact h | exact HooksOk.nil _ _ | exact OpsOk.nil _ _
    | (with_reducible first
         | refine HooksOk.cons ?_ ?_ | refine OpsOk.cons ?_ ?_ | apply byOp_keeps | apply State.wr_keeps
         | apply State.raise_keeps | apply State.wrAll_keeps | apply State.regionCfgWrite_keeps
         | apply State.refreshCfgWrite_keeps | apply State.regRateWrite_keeps | apply State.carveWrite_keeps
         | apply State.qprofWrite_keeps | apply State.brimCtlWrite_keeps | apply State.groupWrite_keeps
         | apply State.listWrite_keeps | refine execQsuFlush_keeps ?_ _ _ | apply State.fabWeightWrite_keeps
         | refine execNodeRead_keeps ?_ _ _ | refine execNodeWrite_keeps ?_ _ _ | refine execQsuAbort_keeps ?_ _
         | apply State.linkCtlWrite_keeps | apply State.snapSend_keeps | apply State.linkReadapt_keeps
         | apply State.storeWord_keeps)
    | split | intro _

theorem hooksHost_keeps {s0 s : State} (h : Keeps s0 s) (x1 x2 x3) : HooksOk s0 s (hooksHost (x1) (x2) (x3)) := by
  simp only [hooksHost]
  repeat' first
    | with_reducible exact h | exact HooksOk.nil _ _ | exact OpsOk.nil _ _
    | (with_reducible first
         | refine HooksOk.cons ?_ ?_ | refine OpsOk.cons ?_ ?_ | apply byOp_keeps | apply after_keeps
         | apply State.wr_keeps | apply State.put_keeps | apply State.wrAll_keeps | apply State.retrain_keeps
         | refine execNvWrite_keeps ?_ _ | refine execKwUnwrap_keeps ?_ _ _ _ _ _ | refine execIpsSaAbort_keeps ?_
         | refine execKwAbort_keeps ?_ | refine execNvRead_keeps ?_ _ | refine execNvResyncTx_keeps ?_ _
         | refine execIpsSaInvalidate_keeps ?_ _ | refine execNvResyncRx_keeps ?_ _ | refine execIpsSaWrite_keeps ?_ _
         | refine execIpsSaRead_keeps ?_ _ | refine execKwCheck_keeps ?_ _ _ _ | refine execKwLoadKek_keeps ?_ _ _
         | apply State.kekCfgWrite_keeps | refine execKwWrap_keeps ?_ _ _ _ | refine execSessDelete_keeps ?_ _
         | refine execTplWriteSvc_keeps ?_ _ | apply State.evtPop_keeps | refine execSessRead_keeps ?_ _
         | apply State.svcCtlWrite_keeps | refine execRspInvalidate_keeps ?_ _ | refine execTplReadSvc_keeps ?_ _
         | refine execRspRead_keeps ?_ _ | refine execSessWrite_keeps ?_ _ _ _ | refine execRspWrite_keeps ?_ _
         | refine execLogSwap_keeps ?_ _ _ | refine execQpDisable_keeps ?_ _ | refine execVfmAbort_keeps ?_
         | refine execReleaseQp_keeps ?_ _ | refine execVfFreeze_keeps ?_ _ | refine execLogStop_keeps ?_ _ _
         | refine execWriteCtx_keeps ?_ _ | refine execVfSave_keeps ?_ _ | refine execLogStart_keeps ?_ _
         | refine execReadCtx_keeps ?_ _ | refine execAssignQp_keeps ?_ _ | refine execVfRestore_keeps ?_ _ _
         | refine execQpEnable_keeps ?_ _ | refine execVfmMbxReply_keeps ?_ _ | refine execVfmMbxAck_keeps ?_ _
         | refine execVfUnfreeze_keeps ?_ _ | refine execQpAbort_keeps ?_ | apply State.storeWord_keeps
         | apply State.freeLog_keeps | apply State.freeImage_keeps)
    | split | intro _

theorem hooksOf_keeps {s0 s : State} (h : Keeps s0 s) (x1 x2 x3 x4) : HooksOk s0 s (hooksOf x1 x2 x3 x4) := by
  simp only [hooksOf]
  exact ((((hooksInfra_keeps h _ _).append (hooksMgmt_keeps h _ _ _ _)).append (hooksPipe_keeps h _ _ _)).append (hooksQd_keeps h _ _ _)).append (hooksHost_keeps h _ _ _)


theorem State.writeWord_keeps {s0 s : State} (h : Keeps s0 s) (x1 x2 x3 x4) : Keeps s0 (State.writeWord s x1 x2 x3 x4) := by
  simp only [State.writeWord]
  repeat' first
    | (with_reducible first
         | exact h | apply State.pmc_keeps | apply State.storeWord_keeps | apply State.intRearm_keeps)
    | split | (refine State.groupWrites_keeps (s0 := s0) ?_ _ _ _ _ _ (by assumption))
    | (refine State.commonWrite_keeps (s0 := s0) ?_ _ _ _ _ (by assumption))
    | exact hookAt_keeps (hooksOf_keeps (State.pmc_keeps h _ _ _) _ _ _ _) _ _ (by assumption)

/-! ### Machine/Fire.lean -/

set_option maxHeartbeats 200000
theorem State.undelivered_keeps {s0 s : State} (h : Keeps s0 s) : Keeps s0 (State.undelivered s) := by
  simp only [State.undelivered]
  repeat' (with_reducible first | exact h | apply State.cnt_keeps | apply State.raise_keeps)

theorem State.deliverTo_keeps {s0 s : State} (h : Keeps s0 s) (x1 x2) (h2 : ∀ u, Keeps s0 u → Keeps s0 (x2 u)) : Keeps s0 (State.deliverTo s x1 x2) := by
  simp only [State.deliverTo]
  repeat' first
    | (with_reducible first | exact h | apply State.undelivered_keeps | apply h2) | split

theorem State.maskLatch_keeps {s0 s : State} (h : Keeps s0 s) (x1) : Keeps s0 (State.maskLatch s x1) := by
  simp only [State.maskLatch]
  repeat' first
    | (with_reducible first
         | exact h | assumption | apply State.pmLatch_keeps | apply State.undelivered_keeps | apply Keeps.foldl)
    | intro u _ hu | split

theorem State.deliver_keeps {s0 s : State} (h : Keeps s0 s) (x1) : Keeps s0 (State.deliver s x1) := by
  simp only [State.deliver]
  repeat' first
    | (with_reducible first
         | exact h | assumption | apply State.cnt_keeps | apply State.strobe_keeps | apply State.unmapped_keeps
         | apply State.routeWrite_keeps | apply State.otnTrigger_keeps | apply State.flexeTrigger_keeps
         | apply State.bonRequest_keeps | apply State.fwTrigger_keeps | apply State.epochCmd_keeps
         | apply State.writeWord_keeps | apply State.deliverTo_keeps | apply State.maskLatch_keeps)
    | intro u hu | split

theorem State.fireEntry_keeps {s0 s : State} (h : Keeps s0 s) (x1 x2) : Keeps s0 (State.fireEntry s x1 x2) := by
  simp only [State.fireEntry]
  repeat' first
    | (with_reducible first
         | exact h | apply State.cnt_keeps | apply State.raise_keeps | apply State.taqView_keeps
         | apply State.deliver_keeps)
    | split | with_reducible refine Keeps.lit rfl rfl rfl rfl rfl rfl ?_

theorem State.fireDue_keeps {s0 s : State} (h : Keeps s0 s) (x1) : Keeps s0 (State.fireDue s x1) := by
  induction x1 generalizing s with
  | zero =>
    simp only [State.fireDue]
    repeat' (with_reducible exact h)
  | succ x ih =>
    simp only [State.fireDue]
    repeat' first
      | (with_reducible first | exact h | apply ih | apply State.fireEntry_keeps) | split

theorem execTaqFire_keeps {s0 s : State} (h : Keeps s0 s) : ∀ t, execTaqFire s = .next t → Keeps s0 t := by
  intro t ht; simp only [execTaqFire, Host.Outcome.next.injEq] at ht
  subst ht
  repeat' (with_reducible first | exact h | apply State.fireDue_keeps)

theorem State.fireOverdue_keeps {s0 s : State} (h : Keeps s0 s) : Keeps s0 (State.fireOverdue s) := by
  simp only [State.fireOverdue]
  repeat' first
    | (with_reducible first | exact h | apply State.fireDue_keeps) | split
    | with_reducible refine Keeps.lit rfl rfl rfl rfl rfl rfl ?_

theorem State.ntmCtlWrite_keeps {s0 s : State} (h : Keeps s0 s) (x1) : Keeps s0 (State.ntmCtlWrite s x1) := by
  simp only [State.ntmCtlWrite]
  repeat' first
    | (with_reducible first
         | exact h | apply State.put_keeps | apply State.setValid_keeps | apply State.storeWord_keeps
         | apply State.fireOverdue_keeps)
    | split | with_reducible refine Keeps.lit rfl rfl rfl rfl rfl rfl ?_

theorem execNtmValidWrite_keeps {s0 s : State} (h : Keeps s0 s) (x0) : ∀ t, execNtmValidWrite x0 s = .next t → Keeps s0 t := by
  intro t ht; simp only [execNtmValidWrite, Host.Outcome.next.injEq] at ht
  subst ht
  repeat' first
    | (with_reducible first | exact h | assumption | apply State.gate_keeps | apply State.ntmCtlWrite_keeps)
    | intro u hu

theorem State.ntSet_keeps {s0 s : State} (h : Keeps s0 s) : Keeps s0 (State.ntSet s).1 := by
  simp only [State.ntSet]
  repeat' first
    | (with_reducible first | exact h | apply State.draw_keeps) | split

theorem State.ntLoad_keeps {s0 s : State} (h : Keeps s0 s) (x1 x2 x3 x4) : Keeps s0 (State.ntLoad s x1 x2 x3 x4) := by
  have hb : Keeps s0 { s with nt := x1.norm, bonStepped := s.bonStepped || s.live pgBON } :=
    ⟨h.pending, h.ticks, h.free, h.regs, h.hbm, fun _ => NetTime.norm_ok _⟩
  unfold State.ntLoad
  extract_lets s1 s2
  have h1 : Keeps s0 s1 := State.logAppend_keeps (State.raise_keeps (State.cnt_keeps hb _ _ _) _ _) _ _ _ _ _ _ _
  refine State.fireOverdue_keeps ?_
  show Keeps s0 s2
  clear_value s1
  unfold s2
  split
  · exact h1
  · exact Keeps.foldl (fun u _ hu => State.pmLatch_keeps hu _ _) _ h1

theorem State.ppsEdge_keeps {s0 s : State} (h : Keeps s0 s) : Keeps s0 (State.ppsEdge s) := by
  simp only [State.ppsEdge]
  repeat' first
    | (with_reducible first
         | exact h | apply State.wr_keeps | apply State.cnt_keeps | apply State.raise_keeps | apply State.ntPend_keeps
         | apply State.ntSet_keeps | apply State.ntLoad_keeps)
    | split | with_reducible refine Keeps.lit rfl rfl rfl rfl rfl rfl ?_

theorem State.ntStepCmd_keeps {s0 s : State} (h : Keeps s0 s) : Keeps s0 (State.ntStepCmd s) := by
  simp only [State.ntStepCmd]
  repeat' first
    | (with_reducible first | exact h | apply State.raise_keeps | apply State.ntPend_keeps | apply State.ntLoad_keeps)
    | split

theorem execNtStep_keeps {s0 s : State} (h : Keeps s0 s) : ∀ t, execNtStep s = .next t → Keeps s0 t := by
  intro t ht; simp only [execNtStep, Host.Outcome.next.injEq] at ht
  subst ht
  repeat' (with_reducible first | exact h | apply State.gate_keeps | apply State.ntStepCmd_keeps)

theorem execPpsInEdge_keeps {s0 s : State} (h : Keeps s0 s) : ∀ t, execPpsInEdge s = .next t → Keeps s0 t := by
  intro t ht; simp only [execPpsInEdge, Host.Outcome.next.injEq] at ht
  subst ht
  repeat' (with_reducible first | exact h | apply State.gate_keeps | apply State.ppsEdge_keeps)

theorem State.ntSetNow_keeps {s0 s : State} (h : Keeps s0 s) : Keeps s0 (State.ntSetNow s) := by
  simp only [State.ntSetNow]
  repeat' (with_reducible first
             | exact h | apply State.ntPend_keeps | apply State.ntSet_keeps | apply State.ntLoad_keeps)

theorem State.ntCmd_keeps {s0 s : State} (h : Keeps s0 s) (x1) : Keeps s0 (State.ntCmd s x1) := by
  simp only [State.ntCmd]
  repeat' first
    | (with_reducible first
         | exact h | apply State.ntPend_keeps | apply State.ntStepCmd_keeps | apply State.ntSetNow_keeps)
    | split

theorem State.regWrite_keeps {s0 s : State} (h : Keeps s0 s) (x1 x2 x3 x4) : Keeps s0 (State.regWrite s x1 x2 x3 x4) := by
  simp only [State.regWrite]
  repeat' first
    | (with_reducible first
         | exact h | assumption | apply State.gate_keeps | apply State.pmc_keeps | apply State.writeWord_keeps
         | apply State.ntmCtlWrite_keeps | apply State.ntCmd_keeps)
    | intro u hu | split

theorem State.answer_keeps {s0 s : State} (h : Keeps s0 s) (x1 x2 x3 x4) : Keeps s0 (State.answer s x1 x2 x3 x4) := by
  simp only [State.answer]
  repeat' (with_reducible first | exact h | apply State.emit_keeps)

theorem State.regRead_keeps {s0 s : State} (h : Keeps s0 s) (x1 x2 x3) : Keeps s0 (State.regRead s x1 x2 x3) := by
  simp only [State.regRead]
  repeat' (with_reducible first | exact h | apply State.readWord_keeps | apply State.answer_keeps)

theorem execNtSetNow_keeps {s0 s : State} (h : Keeps s0 s) : ∀ t, execNtSetNow s = .next t → Keeps s0 t := by
  intro t ht; simp only [execNtSetNow, Host.Outcome.next.injEq] at ht
  subst ht
  repeat' (with_reducible first | exact h | apply State.gate_keeps | apply State.ntSetNow_keeps)

theorem State.busRead_keeps {s0 s : State} (h : Keeps s0 s) (x1 x2 x3 x4) : Keeps s0 (State.busRead s x1 x2 x3 x4) := by
  simp only [State.busRead]
  repeat' first
    | (with_reducible first
         | exact h | apply State.raise_keeps | apply State.unmapped_keeps | apply State.answer_keeps
         | apply State.regRead_keeps)
    | split | with_reducible refine Keeps.lit rfl rfl rfl rfl rfl rfl ?_

theorem State.busWrite_keeps {s0 s : State} (h : Keeps s0 s) (x1 x2 x3 x4 x5) : Keeps s0 (State.busWrite s x1 x2 x3 x4 x5) := by
  simp only [State.busWrite]
  repeat' first
    | (with_reducible first
         | exact h | assumption | apply State.raise_keeps | apply State.routeWrite_keeps
         | apply State.spRefusedWrite_keeps | apply State.regWrite_keeps)
    | intro u hu | split

/-! ### Machine/Bus.lean -/

set_option maxHeartbeats 200000
theorem State.barReads_keeps {s0 s : State} (h : Keeps s0 s) (x1 x2 x3 x4) : Keeps s0 (State.barReads s x1 x2 x3 x4) := by
  induction x4 generalizing s x1 x2 x3 with
  | zero =>
    simp only [State.barReads]
    repeat' (with_reducible exact h)
  | succ x ih =>
    simp only [State.barReads]
    repeat' (with_reducible first | exact h | apply ih | apply State.emit_keeps)

theorem State.barRead_keeps {s0 s : State} (h : Keeps s0 s) (x1 x2 x3 x4 x5 x6) : Keeps s0 (State.barRead s x1 x2 x3 x4 x5 x6) := by
  simp only [State.barRead]
  repeat' first
    | (with_reducible first
         | exact h | apply State.emit_keeps | apply State.cnt_keeps | apply State.raise_keeps
         | apply State.aerUncor_keeps | apply State.unsupportedReq_keeps | apply State.completerAbort_keeps
         | apply State.busRead_keeps | apply State.barReads_keeps)
    | split

theorem execPcieMemRead_keeps {s0 s : State} (h : Keeps s0 s) (x0 x1 x2 x3 x4 x5) : ∀ t, execPcieMemRead x0 x1 x2 x3 x4 x5 s = .next t → Keeps s0 t := by
  intro t ht; simp only [execPcieMemRead, Host.Outcome.next.injEq] at ht
  subst ht
  repeat' first
    | (with_reducible first | exact h | assumption | apply State.gate_keeps | apply State.barRead_keeps) | intro u hu

theorem execRegisterAccessTimeout_keeps {s0 s : State} (h : Keeps s0 s) (x0 x1 x2 x3) : ∀ t, execRegisterAccessTimeout x0 x1 x2 x3 s = .next t → Keeps s0 t := by
  intro t ht; simp only [execRegisterAccessTimeout, Host.Outcome.next.injEq] at ht
  subst ht
  repeat' first
    | (with_reducible first | exact h | apply State.raise_keeps | apply State.answer_keeps) | split

theorem State.performWait_keeps {s0 s : State} (h : Keeps s0 s) (x1) : Keeps s0 (State.performWait s x1) := by
  simp only [State.performWait]
  repeat' first
    | (with_reducible first | exact h | apply State.regWrite_keeps | apply State.regRead_keeps) | split

theorem execBandRetrainDone_keeps {s0 s : State} (h : Keeps s0 s) : ∀ t, execBandRetrainDone s = .next t → Keeps s0 t := by
  intro t ht; simp only [execBandRetrainDone, Host.Outcome.next.injEq] at ht
  subst ht
  repeat' first
    | (with_reducible first
         | exact h | assumption | apply State.felResume_keeps | apply State.bandTrained_keeps
         | apply State.performWait_keeps | apply Keeps.foldl)
    | intro u _ hu | split | with_reducible refine Keeps.lit rfl rfl rfl rfl rfl rfl ?_

theorem execUnmappedPageAccess_keeps {s0 s : State} (h : Keeps s0 s) (x0 x1 x2 x3) : ∀ t, execUnmappedPageAccess x0 x1 x2 x3 s = .next t → Keeps s0 t := by
  intro t ht; simp only [execUnmappedPageAccess, Host.Outcome.next.injEq] at ht
  subst ht
  repeat' first
    | (with_reducible first | exact h | apply State.busRead_keeps | apply State.busWrite_keeps) | split

theorem State.failWait_keeps {s0 s : State} (h : Keeps s0 s) (x1) : Keeps s0 (State.failWait s x1) := by
  simp only [State.failWait]
  repeat' first
    | (with_reducible first | exact h | apply State.raise_keeps | apply State.answer_keeps) | split

theorem execBandRetrainFail_keeps {s0 s : State} (h : Keeps s0 s) : ∀ t, execBandRetrainFail s = .next t → Keeps s0 t := by
  intro t ht; simp only [execBandRetrainFail, Host.Outcome.next.injEq] at ht
  subst ht
  repeat' first
    | (with_reducible first
         | exact h | assumption | apply State.bandFailed_keeps | apply State.failWait_keeps | apply Keeps.foldl)
    | intro u _ hu | split | with_reducible refine Keeps.lit rfl rfl rfl rfl rfl rfl ?_

theorem execRcFieldRead_keeps {s0 s : State} (h : Keeps s0 s) (x0 x1 x2 x3) : ∀ t, execRcFieldRead x0 x1 x2 x3 s = .next t → Keeps s0 t := by
  intro t ht; simp only [execRcFieldRead, Host.Outcome.next.injEq] at ht
  subst ht
  repeat' (with_reducible first | exact h | apply State.busRead_keeps)

theorem execIntForceWrite_keeps {s0 s : State} (h : Keeps s0 s) (x0 x1 x2) : ∀ t, execIntForceWrite x0 x1 x2 s = .next t → Keeps s0 t := by
  intro t ht; simp only [execIntForceWrite, Host.Outcome.next.injEq] at ht
  subst ht
  repeat' (with_reducible first | exact h | apply State.busWrite_keeps)

theorem execResultAliasRead_keeps {s0 s : State} (h : Keeps s0 s) (x0 x1 x2) : ∀ t, execResultAliasRead x0 x1 x2 s = .next t → Keeps s0 t := by
  intro t ht; simp only [execResultAliasRead, Host.Outcome.next.injEq] at ht
  subst ht
  repeat' (with_reducible first | exact h | apply State.busRead_keeps)

theorem execIntRearm_keeps {s0 s : State} (h : Keeps s0 s) (x0 x1) : ∀ t, execIntRearm x0 x1 s = .next t → Keeps s0 t := by
  intro t ht; simp only [execIntRearm, Host.Outcome.next.injEq] at ht
  subst ht
  repeat' (with_reducible first | exact h | apply State.busWrite_keeps)

theorem State.memWord_keeps {s0 s : State} (h : Keeps s0 s) (x1 x2 x3 x4) : Keeps s0 (State.memWord s x1 x2 x3 x4) := by
  simp only [State.memWord]
  repeat' first
    | (with_reducible first
         | exact h | assumption | apply State.gate_keeps | apply State.vecWrite_keeps
         | apply State.doorbellWrite_keeps | apply State.mbxWrite_keeps)
    | intro u hu | split

theorem execSoftResetComplete_keeps {s0 s : State} (h : Keeps s0 s) (x0) : ∀ t, execSoftResetComplete x0 s = .next t → Keeps s0 t := by
  intro t ht; simp only [execSoftResetComplete, Host.Outcome.next.injEq] at ht
  subst ht
  repeat' first
    | (with_reducible first | exact h | assumption | apply State.wr_keeps | apply State.gate_keeps) | intro u hu

theorem State.memWords_keeps {s0 s : State} (h : Keeps s0 s) (x1 x2 x3 x4 x5) : Keeps s0 (State.memWords s x1 x2 x3 x4 x5) := by
  induction x5 generalizing s x1 x2 x3 x4 with
  | nil =>
    simp only [State.memWords]
    repeat' (with_reducible exact h)
  | cons x l ih =>
    simp only [State.memWords]
    repeat' first
      | (with_reducible first | exact h | apply ih | apply State.draw_keeps | apply State.memWord_keeps) | split

theorem State.barWrite_keeps {s0 s : State} (h : Keeps s0 s) (x1 x2 x3 x4 x5 x6 x7) : Keeps s0 (State.barWrite s x1 x2 x3 x4 x5 x6 x7) := by
  simp only [State.barWrite]
  repeat' first
    | (with_reducible first
         | exact h | apply State.cnt_keeps | apply State.raise_keeps | apply State.aerUncor_keeps
         | apply State.unsupportedReq_keeps | apply State.completerAbort_keeps | apply State.busWrite_keeps
         | apply State.memWords_keeps)
    | split

theorem execPcieMemWrite_keeps {s0 s : State} (h : Keeps s0 s) (x0 x1 x2 x3 x4 x5 x6 x7) : ∀ t, execPcieMemWrite x0 x1 x2 x3 x4 x5 x6 x7 s = .next t → Keeps s0 t := by
  intro t ht; simp only [execPcieMemWrite, Host.Outcome.next.injEq] at ht
  subst ht
  repeat' first
    | (with_reducible first
         | exact h | assumption | apply State.gate_keeps | apply State.unsupportedReq_keeps
         | apply State.barWrite_keeps)
    | intro u hu | split

theorem execCntClearAll_keeps {s0 s : State} (h : Keeps s0 s) (x0 x1) : ∀ t, execCntClearAll x0 x1 s = .next t → Keeps s0 t := by
  intro t ht; simp only [execCntClearAll, Host.Outcome.next.injEq] at ht
  subst ht
  repeat' (with_reducible first | exact h | apply State.busWrite_keeps)

theorem execHbmWindowAccess_keeps {s0 s : State} (h : Keeps s0 s) (x0 x1) : ∀ t, execHbmWindowAccess x0 x1 s = .next t → Keeps s0 t := by
  intro t ht; simp only [execHbmWindowAccess, Host.Outcome.next.injEq] at ht
  subst ht
  repeat' first
    | (with_reducible first | exact h | apply State.busRead_keeps | apply State.busWrite_keeps) | split

theorem execRegisterWrite_keeps {s0 s : State} (h : Keeps s0 s) (x0 x1 x2 x3 x4) : ∀ t, execRegisterWrite x0 x1 x2 x3 x4 s = .next t → Keeps s0 t := by
  intro t ht; simp only [execRegisterWrite, Host.Outcome.next.injEq] at ht
  subst ht
  repeat' (with_reducible first | exact h | apply State.busWrite_keeps)

theorem execSoftReset_keeps {s0 s : State} (h : Keeps s0 s) (x0 x1) : ∀ t, execSoftReset x0 x1 s = .next t → Keeps s0 t := by
  intro t ht; simp only [execSoftReset, Host.Outcome.next.injEq] at ht
  subst ht
  repeat' (with_reducible first | exact h | apply State.busWrite_keeps)

theorem execCounterLoRead_keeps {s0 s : State} (h : Keeps s0 s) (x0 x1 x2) : ∀ t, execCounterLoRead x0 x1 x2 s = .next t → Keeps s0 t := by
  intro t ht; simp only [execCounterLoRead, Host.Outcome.next.injEq] at ht
  subst ht
  repeat' (with_reducible first | exact h | apply State.busRead_keeps)

theorem execMalformedSpAccess_keeps {s0 s : State} (h : Keeps s0 s) (x0 x1 x2 x3) : ∀ t, execMalformedSpAccess x0 x1 x2 x3 s = .next t → Keeps s0 t := by
  intro t ht; simp only [execMalformedSpAccess, Host.Outcome.next.injEq] at ht
  subst ht
  repeat' first
    | (with_reducible first | exact h | apply State.raise_keeps | apply State.answer_keeps) | split

/-! ### Machine/Upset.lean -/

set_option maxHeartbeats 200000
theorem State.upsetBrm_keeps {s0 s : State} (h : Keeps s0 s) (x1) : Keeps s0 (State.upsetBrm s x1) := by
  simp only [State.upsetBrm]
  repeat' first
    | (with_reducible first | exact h | apply State.raise_keeps | apply State.setQue_keeps) | split

theorem State.upsetLog_keeps {s0 s : State} (h : Keeps s0 s) (x1) : Keeps s0 (State.upsetLog s x1) := by
  simp only [State.upsetLog]
  repeat' first
    | (with_reducible first | exact h | apply State.raise_keeps) | split
    | with_reducible refine Keeps.lit rfl rfl rfl rfl rfl rfl ?_

theorem State.upsetIpp_keeps {s0 s : State} (h : Keeps s0 s) (x1 x2) : Keeps s0 (State.upsetIpp s x1 x2) := by
  simp only [State.upsetIpp]
  repeat' first
    | (with_reducible first | exact h | apply State.inc_keeps | apply State.raise_keeps | apply State.pipeEnd_keeps)
    | split | (refine State.takePiped_keeps (s0 := s0) ?_ _ _ (by assumption))

theorem State.upsetCls_keeps {s0 s : State} (h : Keeps s0 s) (x1) : Keeps s0 (State.upsetCls s x1) := by
  simp only [State.upsetCls]
  repeat' first
    | with_reducible exact h | split
    | with_reducible refine Keeps.lit rfl rfl rfl rfl rfl rfl ?_

theorem State.upsetMsc_keeps {s0 s : State} (h : Keeps s0 s) (x1 x2) : Keeps s0 (State.upsetMsc s x1 x2) := by
  simp only [State.upsetMsc]
  repeat' first
    | (with_reducible first | exact h | apply State.raise_keeps | apply State.setSa_keeps) | split

theorem State.upsetEpp_keeps {s0 s : State} (h : Keeps s0 s) (x1 x2) : Keeps s0 (State.upsetEpp s x1 x2) := by
  simp only [State.upsetEpp]
  repeat' first
    | (with_reducible first
         | exact h | apply State.inc_keeps | apply State.raise_keeps | apply State.poolView_keeps
         | apply State.eppDrop_keeps)
    | split | with_reducible refine Keeps.lit rfl rfl rfl rfl rfl rfl ?_

theorem State.upsetLfu_keeps {s0 s : State} (h : Keeps s0 s) (x1 x2) : Keeps s0 (State.upsetLfu s x1 x2) := by
  simp only [State.upsetLfu]
  repeat' first
    | (with_reducible first
         | exact h | apply State.wr_keeps | apply State.raise_keeps | apply State.clientViews_keeps
         | apply State.unbind_keeps)
    | split

theorem State.upsetPrs_keeps {s0 s : State} (h : Keeps s0 s) (x1) : Keeps s0 (State.upsetPrs s x1) := by
  simp only [State.upsetPrs]
  repeat' (with_reducible first | exact h | apply State.wr_keeps | apply State.raise_keeps)

theorem State.upsetOrd_keeps {s0 s : State} (h : Keeps s0 s) (x1) : Keeps s0 (State.upsetOrd s x1) := by
  simp only [State.upsetOrd]
  repeat' first
    | (with_reducible first | exact h | apply State.raise_keeps | apply State.setCtx_keeps) | split

theorem State.upsetStore_keeps {s0 s : State} (h : Keeps s0 s) (x1) : Keeps s0 (State.upsetStore s x1) := by
  simp only [State.upsetStore]
  repeat' first
    | (with_reducible first | exact h | apply State.raise_keeps) | split
    | with_reducible refine Keeps.lit rfl rfl rfl rfl rfl rfl ?_

theorem State.upsetRow_keeps {s0 s : State} (h : Keeps s0 s) (x1 x2) : Keeps s0 (State.upsetRow s x1 x2) := by
  simp only [State.upsetRow]
  repeat' first
    | with_reducible exact h | split
    | with_reducible refine Keeps.lit rfl rfl rfl rfl rfl rfl ?_

theorem State.upsetQueue_keeps {s0 s : State} (h : Keeps s0 s) (x1 x2) : Keeps s0 (State.upsetQueue s x1 x2) := by
  simp only [State.upsetQueue]
  repeat' first
    | (with_reducible first | exact h | apply State.raise_keeps | apply State.haltQueue_keeps) | split

theorem State.upsetMcr_keeps {s0 s : State} (h : Keeps s0 s) (x1) : Keeps s0 (State.upsetMcr s x1) := by
  simp only [State.upsetMcr]
  repeat' first
    | (with_reducible first
         | exact h | assumption | apply State.raise_keeps | apply State.replicaGone_keeps
         | apply State.residueTake_keeps | apply Keeps.foldl)
    | intro u _ hu | split

theorem State.upsetSch_keeps {s0 s : State} (h : Keeps s0 s) (x1 x2) : Keeps s0 (State.upsetSch s x1 x2) := by
  simp only [State.upsetSch]
  repeat' first
    | (with_reducible first | exact h | apply State.raise_keeps | apply State.settle_keeps) | split
    | with_reducible refine Keeps.lit rfl rfl rfl rfl rfl rfl ?_

theorem State.upsetPce_keeps {s0 s : State} (h : Keeps s0 s) (x1) : Keeps s0 (State.upsetPce s x1) := by
  simp only [State.upsetPce]
  repeat' first
    | (with_reducible first
         | exact h | assumption | apply State.raise_keeps | apply State.quarantine_keeps | apply State.readEnd_keeps
         | apply Keeps.foldl)
    | intro u _ hu | split

theorem State.upsetDma_keeps {s0 s : State} (h : Keeps s0 s) (x1) : Keeps s0 (State.upsetDma s x1) := by
  simp only [State.upsetDma]
  repeat' first
    | (with_reducible first | exact h | apply State.setQp_keeps | apply State.raise_keeps) | split

theorem State.upsetOfl_keeps {s0 s : State} (h : Keeps s0 s) (x1) : Keeps s0 (State.upsetOfl s x1) := by
  simp only [State.upsetOfl]
  repeat' first
    | (with_reducible first | exact h | apply State.wr_keeps | apply State.raise_keeps) | split
    | with_reducible refine Keeps.lit rfl rfl rfl rfl rfl rfl ?_

theorem State.upsetIps_keeps {s0 s : State} (h : Keeps s0 s) (x1) : Keeps s0 (State.upsetIps s x1) := by
  simp only [State.upsetIps]
  repeat' first
    | (with_reducible first | exact h | apply State.raise_keeps) | split
    | with_reducible refine Keeps.lit rfl rfl rfl rfl rfl rfl ?_

theorem State.upsetSvc_keeps {s0 s : State} (h : Keeps s0 s) (x1) : Keeps s0 (State.upsetSvc s x1) := by
  simp only [State.upsetSvc]
  repeat' first
    | (with_reducible first | exact h | apply State.raise_keeps | apply State.bfdDown_keeps) | split
    | with_reducible refine Keeps.lit rfl rfl rfl rfl rfl rfl ?_

theorem State.upset_keeps {s0 s : State} (h : Keeps s0 s) (x1 x2 x3) : Keeps s0 (State.upset s x1 x2 x3) := by
  simp only [State.upset]
  repeat' first
    | (with_reducible first
         | exact h | apply State.wr_keeps | apply State.raise_keeps | apply State.taqDiscard_keeps
         | apply State.bonLose_keeps | apply State.upsetBrm_keeps | apply State.upsetLog_keeps
         | apply State.upsetIpp_keeps | apply State.upsetCls_keeps | apply State.upsetMsc_keeps
         | apply State.upsetEpp_keeps | apply State.upsetLfu_keeps | apply State.upsetPrs_keeps
         | apply State.upsetOrd_keeps | apply State.upsetStore_keeps | apply State.upsetRow_keeps
         | apply State.upsetQueue_keeps | apply State.upsetMcr_keeps | apply State.upsetSch_keeps
         | apply State.upsetPce_keeps | apply State.upsetDma_keeps | apply State.upsetOfl_keeps
         | apply State.upsetIps_keeps | apply State.upsetSvc_keeps)
    | split | with_reducible refine Keeps.lit rfl rfl rfl rfl rfl rfl ?_

theorem State.upsetTick_keeps {s0 s : State} (h : Keeps s0 s) : Keeps s0 (State.upsetTick s) := by
  simp only [State.upsetTick]
  repeat' first
    | (with_reducible first | exact h | apply State.pmc_keeps | apply State.upset_keeps) | split

/-! ### Machine/Tick.lean -/

set_option maxHeartbeats 200000
theorem State.cycPage_keeps {s0 s : State} (h : Keeps s0 s) (x1) : Keeps s0 (State.cycPage s x1) := by
  simp only [State.cycPage]
  repeat' first
    | (with_reducible first | exact h | apply State.pmc_keeps | apply State.inc_keeps) | split

theorem State.bpTick_keeps {s0 s : State} (h : Keeps s0 s) : Keeps s0 (State.bpTick s) := by
  simp only [State.bpTick]
  repeat' first
    | (with_reducible first
         | exact h | assumption | apply State.bump_keeps | apply State.inc_keeps | apply Keeps.foldl)
    | intro u _ hu | split

theorem State.macTick_keeps {s0 s : State} (h : Keeps s0 s) : Keeps s0 (State.macTick s) := by
  simp only [State.macTick]
  repeat' first
    | (with_reducible first
         | exact h | assumption | apply State.cbsEarn_keeps | apply State.flowCheck_keeps | apply Keeps.foldl)
    | intro u _ hu

theorem State.ntTick_keeps {s0 s : State} (h : Keeps s0 s) : Keeps s0 (State.ntTick s) := by
  have hb : ∀ d : Int, Keeps s0 { s with nt := s.nt.shift d } := fun d =>
    ⟨h.pending, h.ticks, h.free, h.regs, h.hbm, fun _ => NetTime.shift_ok _ _⟩
  unfold State.ntTick
  split
  · exact hb _
  · exact h

theorem State.rateTick_keeps {s0 s : State} (h : Keeps s0 s) : Keeps s0 (State.rateTick s) := by
  simp only [State.rateTick]
  repeat' first
    | with_reducible exact h | with_reducible refine Keeps.lit rfl rfl rfl rfl rfl rfl ?_

theorem State.transferTick_keeps {s0 s : State} (h : Keeps s0 s) : Keeps s0 (State.transferTick s) := by
  simp only [State.transferTick]
  repeat' first
    | (with_reducible first
         | exact h | apply State.stageEnd_keeps | apply State.stageConfigEnd_keeps | apply State.traceDumpEnd_keeps
         | apply State.logDumpEnd_keeps | apply State.freeIo_keeps | apply State.freeBit_keeps)
    | split

theorem State.tapTick_keeps {s0 s : State} (h : Keeps s0 s) : Keeps s0 (State.tapTick s) := by
  simp only [State.tapTick]
  repeat' first
    | (with_reducible first | exact h | apply State.draw_keeps | apply State.tck_keeps) | split

/-- A clock changes no queue and counts itself. -/
theorem State.tick_parts {s0 s : State} (h : Keeps s0 s) : ∃ u, Keeps s0 u ∧ State.tick s = { u with ticks := s.ticks + 1 } := by
  unfold State.tick
  extract_lets s1 s2
  refine ⟨s2, ?_, rfl⟩
  refine State.upsetTick_keeps (State.tapTick_keeps (State.synceTick_keeps (State.ntTick_keeps (State.rateTick_keeps (State.hbmTick_keeps
    (State.linkTick_keeps (State.shaperTick_keeps (State.macTick_keeps (State.rsuTick_keeps (State.clsTick_keeps (State.transferTick_keeps
    (State.bpTick_keeps ?_))))))))))))
  exact Keeps.foldl (fun u _ hu => State.cycPage_keeps hu _) _ h

end Sys2Proof.Machine
end

