-- ==== Sys2Proof/Laws/Near.lean ====
section
/-! SUPPORT. Laws/Near.lean: what an operation leaves alone, as a relation between two states: registers outside a set of keys, the
cause bits that are set, and a chosen part of the state. -/

namespace Sys2Proof.Machine

/-- From s to t only registers with a key in K (and what side effects write) change, no cause bit falls, and the part π stays. -/
structure Near {α : Type} (K : Nat → Prop) (π : State → α) (s t : State) : Prop where
  regs : ∀ k, ¬ sideKey k → ¬ K k → tget t.regs k = tget s.regs k
  causes : ∀ p c, c < 16 → bit (s.rd p COMMON.INT_CAUSE_CAUSE) c = true → bit (t.rd p COMMON.INT_CAUSE_CAUSE) c = true
  part : π t = π s

variable {α : Type} {K : Nat → Prop} {π : State → α}

theorem Near.refl (s : State) : Near K π s s := ⟨fun _ _ _ => rfl, fun _ _ _ h => h, rfl⟩

theorem Near.trans {s t u : State} (h : Near K π s t) (g : Near K π t u) : Near K π s u where
  regs k a b := (g.regs k a b).trans (h.regs k a b)
  causes p c hc hb := g.causes p c hc (h.causes p c hc hb)
  part := g.part.trans h.part

theorem Near.calm {s t : State} (h : Calm s t) (hp : π t = π s) : Near K π s t := ⟨fun k a _ => h.regs k a, h.causes, hp⟩

theorem Near.wr {s : State} {p : Nat} {f : Fld} {i : Nat} (v : Nat) (hk : K (f.key p i)) (hc : f.key p i % 2097152 ≠ 1024)
    (hp : π (s.wr p f v i) = π s) : Near K π s (s.wr p f v i) where
  regs k _ b := by
    have : f.key p i ≠ k := fun e => b (e ▸ hk)
    simp only [State.wr]; split
    · exact tget_tdel_ne _ this
    · exact tget_tset_ne _ _ this
  causes q c _ hb := by
    rw [rd_wr_other s v]
    · exact hb
    · intro e
      apply hc
      rw [e]
      simp only [Fld.key, COMMON.INT_CAUSE_CAUSE]
      omega
  part := hp

theorem Near.rd {s t : State} (h : Near K π s t) {p : Nat} {f : Fld} {i : Nat} (a : ¬ sideKey (f.key p i)) (b : ¬ K (f.key p i)) :
    t.rd p f i = s.rd p f i := by simp only [State.rd, tgetD, h.regs _ a b]

theorem Near.foldl {β : Type} {f : State → β → State} (hf : ∀ u x, Near K π u (f u x)) (l : List β) (s : State) :
    Near K π s (l.foldl f s) := by
  induction l generalizing s with
  | nil => exact .refl s
  | cons x l ih => exact (hf s x).trans (ih _)

theorem Near.ite {s a b : State} {c : Prop} [Decidable c] (h : Near K π s a) (g : Near K π s b) : Near K π s (if c then a else b) := by
  by_cases hc : c
  · rw [if_pos hc]; exact h
  · rw [if_neg hc]; exact g

theorem Near.gate {s : State} {p : Nat} {f : State → State} (hf : Near K π s (f s)) : Near K π s (s.gate p f) := by
  simp only [State.gate]; split
  · exact hf
  · exact .refl s

/-- The keys of the client entries of the framing units and of the link bits of the MAC slots. -/
abbrev clientKey (k : Nat) : Prop := 0xB000 * 32 ≤ k % 2097152 ∨ ((32 * 2097152 ≤ k ∧ 0x104 * 32 ≤ k % 2097152 ∧ k % 2097152 < (0x104 + 1024) * 32) ∧ (k % 2097152 - 0x104 * 32) % 2048 = 0)

/-- What the client entries' operations never touch. -/
def clientRest (s : State) : BandState × Tbl Lfu × PipeState × QdState × NetTime × MgmtState × Nat :=
  (s.toBandState, s.lfus, s.toPipeState, s.toQdState, s.nt, s.toMgmtState, s.ticks)

theorem clientView_near (s : State) (i e : Nat) (hi : i < 16) (he : e < 64) : Near clientKey clientRest s (s.clientView i e) := by
  have h : ∀ (u : State) (f : Fld) (v : Nat), f.off = 0xB008 → f.stride = 16 → f.lo < 8 → Near clientKey clientRest u (u.wr (pgLFU i) f v e) := by
    intro u f v ho hs hl
    refine .wr v (.inl ?_) ?_ rfl
    · simp only [Fld.key, ho, hs]; omega
    · simp only [Fld.key, ho, hs]; omega
  have hm : ∀ (u : State) (g : Nat) (b : Bool), Near clientKey clientRest u (u.macLink g b) := by
    intro u g b
    refine .gate (.wr _ (.inr ?_) ?_ rfl)
    · simp only [Fld.key, MSC.MAC_STS_LINK, msc, pgMSC]; omega
    · simp only [Fld.key, MSC.MAC_STS_LINK, msc, pgMSC]; omega
  simp only [State.clientView]
  split
  · split
    · exact ((((h _ _ _ rfl rfl (by decide)).trans (h _ _ _ rfl rfl (by decide))).trans (h _ _ _ rfl rfl (by decide))).trans (hm _ _ _))
    · exact (((h _ _ _ rfl rfl (by decide)).trans (h _ _ _ rfl rfl (by decide))).trans (h _ _ _ rfl rfl (by decide)))
  · exact (((h _ _ _ rfl rfl (by decide)).trans (h _ _ _ rfl rfl (by decide))).trans (h _ _ _ rfl rfl (by decide)))

theorem Near.foldl_mem {β : Type} {f : State → β → State} (l : List β) (hf : ∀ u x, x ∈ l → Near K π u (f u x)) (s : State) :
    Near K π s (l.foldl f s) := by
  induction l generalizing s with
  | nil => exact .refl s
  | cons x l ih => exact (hf s x (by simp)).trans (ih (fun u y hy => hf u y (by simp [hy])) _)

theorem clientViews_near (s : State) (i : Nat) (hi : i < 16) : Near clientKey clientRest s (s.clientViews i) := by
  simp only [State.clientViews]
  exact .foldl_mem _ (fun u x hx => clientView_near u i x hi (by simpa using hx)) s

theorem clientRest_calm {s t : State} (h : Calm s t) (hm : t.toMgmtState = s.toMgmtState) : clientRest t = clientRest s := by
  have e : t.lfus = s.lfus := congrArg LineState.lfus h.line
  simp [clientRest, h.band, h.pipe, h.qd, h.nt, h.ticks, hm, e]

theorem inc_near {s : State} {i e n : Nat} (hi : i < 16) (he : e < 64) : Near clientKey clientRest s (s.inc (pgLFU i) LFU.CLIENT_STRADDLE_LOST n e) := by
  refine .wr _ (.inl ?_) ?_ rfl
  · simp only [Fld.key, LFU.CLIENT_STRADDLE_LOST]; omega
  · simp only [Fld.key, LFU.CLIENT_STRADDLE_LOST]; omega

theorem straddle_near (s : State) (i : Nat) (old new : Cal) (kind : Nat) (hi : i < 16) : Near clientKey clientRest s (s.straddle i old new kind) := by
  simp only [State.straddle]
  refine .foldl_mem _ (fun u x hx => ?_) s
  split
  · exact (Near.calm (Calm.draw u 1) rfl).trans (inc_near hi (by simpa using hx))
  · exact .refl u

theorem straddleMove_near (s : State) (i : Nat) (hi : i < 16) : Near clientKey clientRest s (s.straddleMove i) := by
  simp only [State.straddleMove]
  refine .foldl_mem _ (fun u x hx => ?_) s
  split
  · exact (Near.calm (Calm.draw u 1) rfl).trans (inc_near hi (by simpa using hx))
  · exact .refl u

/-- What is near over the client keys keeps power. -/
theorem Near.live {s t : State} (h : Near clientKey π s t) (p : Nat) : t.live p = s.live p := by
  have := dom_lt p
  simp only [State.live, State.domOn, State.on]
  rw [h.rd (by simp only [sideKey, sideCommon, Fld.key, PWR.DOM_STS_POWERED, pgPWR, pgCRWN, pgOBS, pgLOG, pgPCE]; omega)
    (by simp only [clientKey, Fld.key, PWR.DOM_STS_POWERED, pgPWR]; omega)]

theorem clientRest_parts {s t : State} (h : clientRest t = clientRest s) :
    t.toBandState = s.toBandState ∧ t.lfus = s.lfus ∧ t.toPipeState = s.toPipeState ∧ t.toQdState = s.toQdState ∧ t.nt = s.nt ∧
      t.toMgmtState = s.toMgmtState ∧ t.ticks = s.ticks := by
  simpa only [clientRest, Prod.mk.injEq] using h

section
variable (s : State) {i : Nat} (hi : i < 16)
include hi

theorem clientViews_rd {p : Nat} {f : Fld} {j : Nat} (a : ¬ sideKey (f.key p j)) (b : ¬ clientKey (f.key p j)) :
    (s.clientViews i).rd p f j = s.rd p f j := (clientViews_near s i hi).rd a b
theorem clientViews_lfus : (s.clientViews i).lfus = s.lfus := (clientRest_parts (clientViews_near s i hi).part).2.1
theorem clientViews_lfu (j : Nat) : (s.clientViews i).lfu j = s.lfu j := by simp only [State.lfu, clientViews_lfus s hi]
theorem clientViews_band : (s.clientViews i).toBandState = s.toBandState := (clientRest_parts (clientViews_near s i hi).part).1
theorem clientViews_pipe : (s.clientViews i).toPipeState = s.toPipeState := (clientRest_parts (clientViews_near s i hi).part).2.2.1
theorem clientViews_qd : (s.clientViews i).toQdState = s.toQdState := (clientRest_parts (clientViews_near s i hi).part).2.2.2.1
theorem clientViews_nt : (s.clientViews i).nt = s.nt := (clientRest_parts (clientViews_near s i hi).part).2.2.2.2.1
theorem clientViews_mgmt : (s.clientViews i).toMgmtState = s.toMgmtState := (clientRest_parts (clientViews_near s i hi).part).2.2.2.2.2.1
theorem clientViews_cause {p c : Nat} (hc : c < 16) (h : bit (s.rd p COMMON.INT_CAUSE_CAUSE) c = true) :
    bit ((s.clientViews i).rd p COMMON.INT_CAUSE_CAUSE) c = true := (clientViews_near s i hi).causes p c hc h

theorem straddle_rd (old new : Cal) (kind : Nat) {p : Nat} {f : Fld} {j : Nat} (a : ¬ sideKey (f.key p j)) (b : ¬ clientKey (f.key p j)) :
    (s.straddle i old new kind).rd p f j = s.rd p f j := (straddle_near s i old new kind hi).rd a b
theorem straddle_lfus (old new : Cal) (kind : Nat) : (s.straddle i old new kind).lfus = s.lfus := (clientRest_parts (straddle_near s i old new kind hi).part).2.1
theorem straddle_lfu (old new : Cal) (kind j : Nat) : (s.straddle i old new kind).lfu j = s.lfu j := by
  simp only [State.lfu, straddle_lfus s hi]
theorem straddle_band (old new : Cal) (kind : Nat) : (s.straddle i old new kind).toBandState = s.toBandState := (clientRest_parts (straddle_near s i old new kind hi).part).1
theorem straddle_pipe (old new : Cal) (kind : Nat) : (s.straddle i old new kind).toPipeState = s.toPipeState :=
  (clientRest_parts (straddle_near s i old new kind hi).part).2.2.1
theorem straddle_qd (old new : Cal) (kind : Nat) : (s.straddle i old new kind).toQdState = s.toQdState :=
  (clientRest_parts (straddle_near s i old new kind hi).part).2.2.2.1
theorem straddle_nt (old new : Cal) (kind : Nat) : (s.straddle i old new kind).nt = s.nt := (clientRest_parts (straddle_near s i old new kind hi).part).2.2.2.2.1
theorem straddle_mgmt (old new : Cal) (kind : Nat) : (s.straddle i old new kind).toMgmtState = s.toMgmtState :=
  (clientRest_parts (straddle_near s i old new kind hi).part).2.2.2.2.2.1
theorem straddle_live (old new : Cal) (kind p : Nat) : (s.straddle i old new kind).live p = s.live p :=
  (straddle_near s i old new kind hi).live p

theorem straddleMove_rd {p : Nat} {f : Fld} {j : Nat} (a : ¬ sideKey (f.key p j)) (b : ¬ clientKey (f.key p j)) :
    (s.straddleMove i).rd p f j = s.rd p f j := (straddleMove_near s i hi).rd a b
theorem straddleMove_lfus : (s.straddleMove i).lfus = s.lfus := (clientRest_parts (straddleMove_near s i hi).part).2.1
theorem straddleMove_lfu (j : Nat) : (s.straddleMove i).lfu j = s.lfu j := by simp only [State.lfu, straddleMove_lfus s hi]
theorem straddleMove_band : (s.straddleMove i).toBandState = s.toBandState := (clientRest_parts (straddleMove_near s i hi).part).1
theorem straddleMove_pipe : (s.straddleMove i).toPipeState = s.toPipeState := (clientRest_parts (straddleMove_near s i hi).part).2.2.1
theorem straddleMove_qd : (s.straddleMove i).toQdState = s.toQdState := (clientRest_parts (straddleMove_near s i hi).part).2.2.2.1
theorem straddleMove_nt : (s.straddleMove i).nt = s.nt := (clientRest_parts (straddleMove_near s i hi).part).2.2.2.2.1
theorem straddleMove_mgmt : (s.straddleMove i).toMgmtState = s.toMgmtState := (clientRest_parts (straddleMove_near s i hi).part).2.2.2.2.2.1
theorem straddleMove_live (p : Nat) : (s.straddleMove i).live p = s.live p := (straddleMove_near s i hi).live p
end

theorem live_wr_page (s : State) (q : Nat) (f : Fld) (v i p : Nat) (h : f.off + f.stride * i < 65536) (hl : f.lo < 32) (hq : q ≠ pgPWR) :
    (s.wr q f v i).live p = s.live p := by
  have := dom_lt p
  refine live_wr _ _ _ _ _ _ ?_
  simp only [Fld.key, PWR.DOM_STS_POWERED, pgPWR] at *
  generalize f.stride * i = z at *
  omega

/-- A client entry's words stay when its status is recomputed. -/
theorem clientView_word (s : State) {i e : Nat} (hi : i < 16) (he : e < 64) {f : Fld} (h0 : f.off = 0xB000) (h1 : f.stride = 16) (h2 : f.lo < 32) :
    (s.clientView i e).rd (pgLFU i) f e = s.rd (pgLFU i) f e := by
  have h : ∀ (u : State) (g : Fld) (v : Nat), g.off = 0xB008 → g.stride = 16 → g.lo < 8 →
      (u.wr (pgLFU i) g v e).rd (pgLFU i) f e = u.rd (pgLFU i) f e := by
    intro u g v a b c
    refine rd_wr_other _ _ ?_
    simp only [Fld.key, a, b, h0, h1]; omega
  have hm : ∀ (u : State) (g : Nat) (b : Bool), (u.macLink g b).rd (pgLFU i) f e = u.rd (pgLFU i) f e := by
    intro u g b
    simp only [State.macLink, State.gate]; split
    · refine rd_wr_other _ _ ?_
      simp only [Fld.key, MSC.MAC_STS_LINK, msc, pgMSC, pgLFU, h0, h1]; omega
    · rfl
  simp only [State.clientView, State.put]
  split
  · split
    · rw [hm, h _ _ _ rfl rfl (by decide), h _ _ _ rfl rfl (by decide), h _ _ _ rfl rfl (by decide)]
    · rw [h _ _ _ rfl rfl (by decide), h _ _ _ rfl rfl (by decide), h _ _ _ rfl rfl (by decide)]
  · rw [h _ _ _ rfl rfl (by decide), h _ _ _ rfl rfl (by decide), h _ _ _ rfl rfl (by decide)]

/-- The keys that the protection controller may write: PROT_STS (but the SF and SD bits), TX_APS, the switch count, the lost-frame counts and
the clients' status. -/
abbrev evalKey (k : Nat) : Prop :=
  clientKey k ∨ (0x1C8 * 32 ≤ k % 2097152 ∧ k % 2097152 < 0x1C8 * 32 + 14) ∨
    (0x1D4 * 32 ≤ k % 2097152 ∧ k % 2097152 < 0x1DC * 32)

/-- What the protection controller leaves alone. -/
def evalRest (s : State) : BandState × PipeState × QdState × NetTime × (Nat → Tbl OtnSlice × List Nat × Bool × Bool × Nat) :=
  (s.toBandState, s.toPipeState, s.toQdState, s.nt,
    fun j => ((s.lfu j).slices, (s.lfu j).run, (s.lfu j).txDue, (s.lfu j).rxDue, (s.lfu j).phase))

theorem evalRest_wr (s : State) (p : Nat) (f : Fld) (v i : Nat) : evalRest (s.wr p f v i) = evalRest s := rfl

theorem evalRest_calm {s t : State} (h : Calm s t) : evalRest t = evalRest s := by
  have e : ∀ j, t.lfu j = s.lfu j := fun j => by simp only [State.lfu, h.line]
  simp only [evalRest, h.band, h.pipe, h.qd, h.nt, e]

theorem evalRest_client {s t : State} (h : clientRest t = clientRest s) : evalRest t = evalRest s := by
  obtain ⟨a, b, c, d, e, _, _⟩ := clientRest_parts h
  have e' : ∀ j, t.lfu j = s.lfu j := fun j => by simp only [State.lfu, b]
  simp only [evalRest, a, c, d, e, e']

/-- An LFU's record that keeps its slices, counts, owed switches and phase. -/
theorem evalRest_setLfu (s : State) (i : Nat) (l : Lfu) (h : (l.slices, l.run, l.txDue, l.rxDue, l.phase) =
    ((s.lfu i).slices, (s.lfu i).run, (s.lfu i).txDue, (s.lfu i).rxDue, (s.lfu i).phase)) : evalRest (s.setLfu i l) = evalRest s := by
  simp only [evalRest, Prod.mk.injEq] at h ⊢
  refine ⟨rfl, rfl, rfl, rfl, funext fun j => ?_⟩
  by_cases e : i = j
  · subst e; simp [h]
  · have : (s.setLfu i l).lfu j = s.lfu j := by
      simp only [State.lfu, State.setLfu, tgetD]; rw [tget_tset_ne _ _ e]
    rw [this]

theorem setLfu_eval (s : State) (i : Nat) (l : Lfu) (h : (l.slices, l.run, l.txDue, l.rxDue, l.phase) =
    ((s.lfu i).slices, (s.lfu i).run, (s.lfu i).txDue, (s.lfu i).rxDue, (s.lfu i).phase)) : Near K evalRest s (s.setLfu i l) :=
  ⟨fun _ _ _ => rfl, fun _ _ _ h => h, evalRest_setLfu s i l h⟩

theorem eval_wr {s : State} {p : Nat} {f : Fld} (v : Nat) (h : evalKey (f.key 0 0)) (h2 : f.off < 65536) (h3 : f.lo < 32) :
    Near evalKey evalRest s (s.wr p f v) := by
  have e : f.key p 0 % 2097152 = f.key 0 0 % 2097152 := by simp only [Fld.key]; omega
  have e0 : f.key 0 0 < 2097152 := by simp only [Fld.key]; omega
  refine .wr v ?_ ?_ rfl
  · simp only [evalKey, clientKey] at h ⊢; rw [e]
    rcases h with h | h
    · left; left; omega
    · exact .inr h
  · rw [e]; simp only [evalKey, clientKey, Fld.key] at h ⊢; omega

theorem straddleMove_eval (s : State) (i : Nat) (hi : i < 16) : Near evalKey evalRest s (s.straddleMove i) := by
  simp only [State.straddleMove]
  refine .foldl_mem _ (fun u x hx => ?_) s
  have hx' : x < 64 := by simpa using hx
  split
  · refine (Near.calm (Calm.draw u 1) rfl).trans (.wr _ (.inl (.inl ?_)) ?_ rfl)
    · simp only [Fld.key, LFU.CLIENT_STRADDLE_LOST]; omega
    · simp only [Fld.key, LFU.CLIENT_STRADDLE_LOST]; omega
  · exact .refl u

theorem clientViews_eval (s : State) (i : Nat) (hi : i < 16) : Near evalKey evalRest s (s.clientViews i) := by
  have h := clientViews_near s i hi
  exact ⟨fun k a b => h.regs k a (fun c => b (.inl c)), h.causes, evalRest_client h.part⟩

theorem framerViews_eval (s : State) (i : Nat) (hi : i < 16) : Near evalKey evalRest s (s.framerViews i) := by
  have hp : pairOf i + 2 < 16 := by simp only [pairOf]; omega
  simp only [State.framerViews]; split
  · exact (clientViews_eval _ _ (by omega)).trans (clientViews_eval _ _ hp)
  · exact clientViews_eval _ _ hi

theorem protMove_eval (s : State) (i : Nat) (b : Bool) (hi : i < 16) : Near evalKey evalRest s (s.protMove i b) := by
  simp only [State.protMove, State.put, State.incSat]; split
  · exact .refl s
  · exact ((((eval_wr _ (by decide) (by decide) (by decide)).trans (eval_wr _ (by decide) (by decide) (by decide))).trans
      (straddleMove_eval _ i hi)).trans (.calm (Calm.raise _ _ _) (evalRest_calm (Calm.raise _ _ _)))).trans (framerViews_eval _ i hi)

theorem protPrepare_eval (s : State) (i : Nat) : Near evalKey evalRest s (s.protPrepare i) := by
  simp only [State.protPrepare]
  generalize rankOf (topReq _ _) = n
  have h : Near evalKey evalRest s (if s.startsWtr i then (s.setLfu i { s.lfu i with wtrFrom := s.ticks }).wr (pgLFU i) LFU.PROT_STS_WTR_RUN 1
      else if 12 < n then s.wr (pgLFU i) LFU.PROT_STS_WTR_RUN 0 else s) := by
    split
    · exact (setLfu_eval s i { s.lfu i with wtrFrom := s.ticks } rfl).trans (eval_wr (f := LFU.PROT_STS_WTR_RUN) _ (by decide) (by decide) (by decide))
    · split
      · exact eval_wr _ (by decide) (by decide) (by decide)
      · exact .refl s
  split
  · exact h.trans (setLfu_eval _ _ _ rfl)
  · exact h

theorem disagreeView_eval (s : State) (i : Nat) : Near K evalRest s (s.disagreeView i) := setLfu_eval _ _ _ rfl

theorem protEval_eval (s : State) (i : Nat) (hi : i < 16) : Near evalKey evalRest s (s.protEval i) := by
  simp only [State.protEval, State.put]; split
  · exact .refl s
  · refine Near.trans ?_ (protMove_eval _ i _ hi)
    have h (a b c : Nat) : Near evalKey evalRest s ((((s.protPrepare i).wr (pgLFU i) LFU.PROT_STS_LOCAL_REQ a).wr (pgLFU i) LFU.APS_TX_APS b).wr
        (pgLFU i) LFU.PROT_STS_BRIDGED c) :=
      (((protPrepare_eval s i).trans (eval_wr (f := LFU.PROT_STS_LOCAL_REQ) _ (by decide) (by decide) (by decide))).trans
        (eval_wr (f := LFU.APS_TX_APS) _ (by decide) (by decide) (by decide))).trans
        (eval_wr (f := LFU.PROT_STS_BRIDGED) _ (by decide) (by decide) (by decide))
    refine Near.trans ?_ (disagreeView_eval _ i)
    refine Near.ite ?_ (h _ _ _)
    exact (h _ _ _).trans (eval_wr (f := LFU.PROT_STS_PROT_FAIL) _ (by decide) (by decide) (by decide))

/-- The keys that the framer's status may write besides: LOS, SF and SD of OTN_STS, the SF and SD bits of PROT_STS, the received
APS values. -/
abbrev sigKey (k : Nat) : Prop :=
  clientKey k ∨ (0x1C8 * 32 ≤ k % 2097152 ∧ k % 2097152 < 0x1C9 * 32) ∨ (0x1CC * 32 ≤ k % 2097152 ∧ k % 2097152 < 0x1DC * 32) ∨
    k % 2097152 = 0x184 * 32 ∨ k % 2097152 = 0x184 * 32 + 10 ∨ k % 2097152 = 0x184 * 32 + 11

theorem Near.mono {α : Type} {K K' : Nat → Prop} {π : State → α} {s t : State} (h : Near K π s t) (g : ∀ k, K k → K' k) : Near K' π s t :=
  ⟨fun k a b => h.regs k a (fun c => b (g k c)), h.causes, h.part⟩

theorem eval_sig {s t : State} (h : Near evalKey evalRest s t) : Near sigKey evalRest s t := h.mono fun k hk => by
  simp only [evalKey, sigKey, clientKey] at *; omega

theorem sig_wr {s : State} {p : Nat} {f : Fld} (v : Nat) (h : sigKey (f.key 0 0)) (h2 : f.off < 65536) (h3 : f.lo < 32) :
    Near sigKey evalRest s (s.wr p f v) := by
  have e : f.key p 0 % 2097152 = f.key 0 0 % 2097152 := by simp only [Fld.key]; omega
  have e0 : f.key 0 0 < 2097152 := by simp only [Fld.key]; omega
  refine .wr v ?_ ?_ rfl
  · simp only [sigKey, clientKey] at h ⊢; rw [e]
    rcases h with h | h
    · left; left; omega
    · exact .inr h
  · rw [e]; simp only [sigKey, clientKey, Fld.key] at h ⊢; omega

theorem protSignal_sig (s : State) (i : Nat) (a b : Bool) (hi : i < 16) : Near sigKey evalRest s (s.protSignal i a b) := by
  have hb : ∀ n v (u : State), Near sigKey evalRest u (u.wr (pgLFU (pairOf i)) (protBit n) v) := by
    intro n v u
    unfold protBit; split <;> exact sig_wr _ (by decide) (by decide) (by decide)
  have hp : pairOf i < 16 := by simp only [pairOf]; omega
  simp only [State.protSignal]; split
  · exact (hb _ _ _).trans (eval_sig (protEval_eval _ _ hp))
  · split
    · exact (hb _ _ _).trans (eval_sig (protEval_eval _ _ hp))
    · exact setLfu_eval _ _ _ rfl

theorem otnSignal_sig (s : State) (i : Nat) (hi : i < 16) : Near sigKey evalRest s (s.otnSignal i) := by
  simp only [State.otnSignal, State.put]
  generalize ((s.otnLanes i).any fun g => !s.on (lnp g) LNP.LANE_STS_SIG_DET (g % 16)) = a
  have h : ∀ v m, Near sigKey evalRest s (State.setLfu ((s.wr (pgLFU i) LFU.OTN_STS_LOS (b2n a)).wr (pgLFU i) LFU.OTN_STS_SF v) i
      { ((s.wr (pgLFU i) LFU.OTN_STS_LOS (b2n a)).wr (pgLFU i) LFU.OTN_STS_SF v).lfu i with seen := m }) := fun v m =>
    ((sig_wr (f := LFU.OTN_STS_LOS) (p := pgLFU i) (b2n a) (by decide) (by decide) (by decide)).trans
      (sig_wr (f := LFU.OTN_STS_SF) v (by decide) (by decide) (by decide))).trans (setLfu_eval _ _ _ rfl)
  refine Near.ite ?_ ?_
  · exact h _ _
  · exact (((h _ _).trans (Near.calm (Calm.raiseIf _ _ _ _) (evalRest_calm (Calm.raiseIf _ _ _ _)))).trans (protSignal_sig _ _ _ _ hi)).trans
      (eval_sig (framerViews_eval _ _ hi))

theorem apsReceive_sig (s : State) (i v : Nat) (hi : i < 16) : Near sigKey evalRest s (s.apsReceive i v) := by
  have hp : pairOf i < 16 := by simp only [pairOf]; omega
  have hw : ∀ (u : State) (f : Fld) (x : Nat), sigKey (f.key 0 0) → f.off < 65536 → f.lo < 32 → Near sigKey evalRest u (u.wr (pgLFU (pairOf i)) f x) :=
    fun u f x a b c => sig_wr x a b c
  simp only [State.apsReceive]; split
  · exact .refl s
  · refine Near.ite ?_ ?_
    · refine Near.trans ?_ (eval_sig (protEval_eval _ _ hp))
      refine (Near.trans ?_ (hw _ LFU.APS_ACCEPTED_APS _ (by decide) (by decide) (by decide))).trans
        (hw _ LFU.PROT_STS_FAR_REQ _ (by decide) (by decide) (by decide))
      exact (hw _ LFU.APS_RAW_APS _ (by decide) (by decide) (by decide)).trans (setLfu_eval _ _ _ rfl)
    · exact (hw _ LFU.APS_RAW_APS _ (by decide) (by decide) (by decide)).trans (setLfu_eval _ _ _ rfl)

theorem topReq_le {sel : Bool} {l : List ProtReq} {n : Nat} (h : ∀ r ∈ l, r.rank ≤ n) : rankOf (topReq sel l) ≤ n := by
  have key : ∀ (l : List ProtReq) (a : Option ProtReq), rankOf a ≤ n → (∀ r ∈ l, r.rank ≤ n) →
      rankOf (l.foldl (fun (a : Option ProtReq) r => match a with
        | none => some r
        | some b => if b.rank < r.rank ∨ (b.rank = r.rank ∧ b.prot ≠ sel ∧ r.prot = sel) then some r else some b) a) ≤ n := by
    intro l
    induction l with
    | nil => intro a h _; exact h
    | cons x l ih =>
      intro a ha hl
      refine ih _ ?_ (fun r hr => hl r (by simp [hr]))
      cases a with
      | none => exact hl x (by simp)
      | some b => simp only; split
                  · exact hl x (by simp)
                  · exact ha
  exact key l none (Nat.zero_le _) h

theorem topReq_head {sel : Bool} {b : ProtReq} {l : List ProtReq} (h : ∀ r ∈ l, r.rank < b.rank) : topReq sel (b :: l) = some b := by
  simp only [topReq, List.foldl_cons]
  induction l with
  | nil => rfl
  | cons x l ih =>
    simp only [List.foldl_cons]
    have := h x (by simp)
    rw [if_neg (by omega)]
    exact ih (fun r hr => h r (by simp [hr]))

end Sys2Proof.Machine
end

