-- ==== Sys2Proof/WellFormed.lean ====
section
/-! DEFINITION. WellFormed.lean: the operands of a command that the device can meet: a page among 1,024, a lane or slot among
256, a link among 512, a tag of 8 bits and so on. The meanings do not rest on it: each treats an operand outside its range by itself. -/

namespace Sys2Proof

/-- The operands of a command lie in their ranges: instances and tables by the numbers the spec gives them, offsets in a page of
64 KiB (R42), tags of 8 bits (R60) or 14 bits (R550), register values of 32 bits (R6). -/
def Instr.wellFormed (i : Instr) : Bool :=
  match i with
  | .registerWrite who page off v _ => decide (who < 3) && decide (page < 1024) && decide (off < 65536) && decide (v < 4294967296) && decide (off % 4 = 0)
  | .malformedSpAccess who page off _ => decide (who < 3) && decide (page < 1024) && decide (off < 65536) && decide (0 < who)
  | .unmappedPageAccess who page off _ => decide (who < 3) && decide (page < 1024) && decide (off < 65536)
  | .registerAccessTimeout who page off _ => decide (who < 3) && decide (page < 1024) && decide (off < 65536)
  | .rcFieldRead who page off _ => decide (who < 3) && decide (page < 1024) && decide (off < 65536) && decide (off % 4 = 0)
  | .counterLoRead who page off => decide (who < 3) && decide (page < 1024) && decide (off < 65536)
  | .resultAliasRead who page off => decide (who < 3) && decide (page < 1024) && decide (off < 65536)
  | .intForceWrite who page v => decide (who < 3) && decide (page < 1024) && decide (v < 4294967296)
  | .intRearm who v => decide (who < 3) && decide (v < 4294967296)
  | .cntClearAll who page => decide (who < 3) && decide (page < 1024)
  | .softReset who page => decide (who < 3) && decide (page < 1024)
  | .softResetComplete page => decide (page < 1024)
  | .localStrobe page => decide (page < 1024)
  | .strobeFire => true
  | .snapInEdge => true
  | .gfreezeWrite _ => true
  | .bandFlitSend _ _ => true
  | .bandFlitReceive _ flit => decide (flit.length = 128)
  | .bandCrcMismatch _ => true
  | .bandReplayRequest _ seq => decide (seq < 4096)
  | .bandRetryLimit _ => true
  | .bandRetrain => true
  | .bandRetrainDone => true
  | .bandRetrainFail => true
  | .macRxFrame slot _ _ fcs _ _ => decide (slot < 256) && decide (fcs < 4294967296)
  | .dealFrame => true
  | .parkResume ctx seq _ => decide (ctx < 65536) && decide (seq < 65536)
  | .rsuSearchResult _ => true
  | .pmmScanDone ctx seq => decide (ctx < 65536) && decide (seq < 65536)
  | .ordResult ctx seq => decide (ctx < 65536) && decide (seq < 65536)
  | .ordGapTimeout ctx => decide (ctx < 65536)
  | .qdAdmitFrame _ _ => true
  | .spillWriteComplete pool buf => decide (pool < 6) && decide (buf < 16777216)
  | .brmReadback queue => decide (queue < 262144)
  | .readbackComplete queue _ => decide (queue < 262144)
  | .schedDecision port _ => decide (port < 256)
  | .mscTakeFrame slot => decide (slot < 256)
  | .eppDeal _ marks => decide (marks < 4)
  | .macTxFrame slot => decide (slot < 256)
  | .bufferFree pool buf requester => decide (pool < 6) && decide (buf < 16777216) && decide (requester < 16777216)
  | .voqDecision => true
  | .sprayCell => true
  | .felCellArrive link _ _ => decide (link < 512)
  | .felSlotSend link _ => decide (link < 512)
  | .linerCell link _ _ _ => decide (link < 512)
  | .linerTimeout source cls => decide (source < 4096) && decide (cls < 8)
  | .linerCtxIdle source cls => decide (source < 4096) && decide (cls < 8)
  | .linkEnable link => decide (link < 512)
  | .linkDisable link => decide (link < 512)
  | .linkAdaptDone link snr => decide (link < 512) && decide (snr < 256)
  | .linkAdaptTimeout link => decide (link < 512)
  | .superframeLock link => decide (link < 512)
  | .linkLockTimeout link => decide (link < 512)
  | .superframeLockLoss link => decide (link < 512)
  | .uncorrThreshold link => decide (link < 512)
  | .helloReceive link _ => decide (link < 512)
  | .helloSend link => decide (link < 512)
  | .helloTimeout link => decide (link < 512)
  | .linkForceDown link => decide (link < 512)
  | .linkHolddownExpiry link => decide (link < 512)
  | .linkDozeRequest link => decide (link < 512)
  | .dozeReqReceive link _ => decide (link < 512)
  | .dozeAckReceive link _ => decide (link < 512)
  | .linkWake link _ => decide (link < 512)
  | .linkWakeDone link => decide (link < 512)
  | .linkWakeTimeout link => decide (link < 512)
  | .reachSend link => decide (link < 512)
  | .reachReceive link _ => decide (link < 512)
  | .fcSend => true
  | .fcReceive link _ => decide (link < 512)
  | .unknownControlCell link _ => decide (link < 512)
  | .fabSnapSend => true
  | .strobeCellReceive link _ => decide (link < 512)
  | .fabricStrobeTarget => true
  | .mcrReplicate _ => true
  | .residueReady mcd rep => decide (mcd < 8192) && decide (rep < 1024)
  | .residueTimeout mcd => decide (mcd < 8192)
  | .residuePressure => true
  | .replicaCompletion mcd rep _ => decide (mcd < 8192) && decide (rep < 1024)
  | .qsuFlush _ tag => decide (tag < 256)
  | .qsuFlushComplete => true
  | .qsuAbort tag => decide (tag < 256)
  | .nodeWrite level tag => decide (level < 6) && decide (tag < 256) && decide (0 < level)
  | .nodeRead level tag => decide (level < 6) && decide (tag < 256) && decide (0 < level)
  | .shpProfileWrite profile word value => decide (profile < 4096) && decide (word < 32) && decide (value < 4294967296)
  | .admProfileWrite profile word value => decide (profile < 64) && decide (word < 32) && decide (value < 4294967296)
  | .mcrGroupWrite value => decide (value < 4294967296)
  | .mcrListWrite value => decide (value < 4294967296)
  | .laneCtlWrite lane v => decide (lane < 256) && decide (v < 4294967296)
  | .laneAdapt lane => decide (lane < 256)
  | .txFirWrite lane v => decide (lane < 256) && decide (v < 4294967296)
  | .portApply slot v => decide (slot < 256) && decide (v < 4294967296)
  | .serWindowEnd slot _ _ _ => decide (slot < 256)
  | .linkTrainingDone lane _ => decide (lane < 256)
  | .cdrLockLoss lane => decide (lane < 256)
  | .pauseWdTrip slot prio => decide (slot < 256) && decide (prio < 9)
  | .pauseWdRecoverEnd slot prio => decide (slot < 256) && decide (prio < 9)
  | .preemptVerify slot _ => decide (slot < 256)
  | .lpiEnter slot => decide (slot < 256)
  | .tsPop msc => decide (msc < 16)
  | .mscSaWrite msc tag => decide (msc < 16) && decide (tag < 256)
  | .mscSaRead msc tag => decide (msc < 16) && decide (tag < 256)
  | .mscSaInvalidate msc tag => decide (msc < 16) && decide (tag < 256)
  | .csbFrame _ => true
  | .cageDebounceDone cage => decide (cage < 64)
  | .cagePowerSlot => true
  | .cagePgTimeout cage => decide (cage < 64)
  | .cageResetHoldDone cage => decide (cage < 64)
  | .cageInitTimeout cage => decide (cage < 64)
  | .cageDatapathActivated cage _ => decide (cage < 64)
  | .cageManualReady cage => decide (cage < 64)
  | .cageForceLpmode cage _ => decide (cage < 64)
  | .cagePowerCycle cage => decide (cage < 64)
  | .cagePowerCycleEnd cage => decide (cage < 64)
  | .cageFaultClr cage => decide (cage < 64)
  | .cageRemovalDone cage => decide (cage < 64)
  | .mmRead master cage tag => decide (master < 8) && decide (cage < 64) && decide (tag < 256)
  | .mmWrite master cage tag => decide (master < 8) && decide (cage < 64) && decide (tag < 256)
  | .mmAbort master tag => decide (master < 8) && decide (tag < 256)
  | .mmTransactionDone master _ _ => decide (master < 8)
  | .mmStretchTimeout master => decide (master < 8)
  | .mmSdaStuck master => decide (master < 8)
  | .lfuClientWrite lfu entry value => decide (lfu < 16) && decide (entry < 64) && decide (value < 4294967296)
  | .flexeSwitchTrigger lfu => decide (lfu < 16)
  | .flexeOhFrame lfu => decide (lfu < 16)
  | .flexeOhReceive lfu _ _ _ _ _ _ _ _ => decide (lfu < 16)
  | .flexeCaReceive lfu cal => decide (lfu < 16) && decide (cal < 2)
  | .flexeCaTimeout lfu => decide (lfu < 16)
  | .flexeCrReceive lfu cal => decide (lfu < 16) && decide (cal < 2)
  | .flexeRxCChange lfu cal => decide (lfu < 16) && decide (cal < 2)
  | .otnEnable lfu => decide (lfu < 16)
  | .otnSwitchTrigger lfu => decide (lfu < 16)
  | .otnTxMapSwitch lfu => decide (lfu < 16)
  | .otnRxMapSwitch lfu => decide (lfu < 16)
  | .otnFrame lfu slice _ _ => decide (lfu < 16) && decide (slice < 32)
  | .otnLofDeclare lfu => decide (lfu < 16)
  | .otnLofClear lfu => decide (lfu < 16)
  | .protCommand lfu cmd => decide (lfu < 16) && decide (cmd < 8)
  | .protHoldoffExpiry lfu which => decide (lfu < 16) && decide (which < 4)
  | .protWtrExpiry lfu => decide (lfu < 16)
  | .protFailTimeout lfu => decide (lfu < 16)
  | .pmSecondLatch lfu => decide (lfu < 16)
  | .pmLatch lfu => decide (lfu < 16)
  | .pmLatchFreeRun lfu => decide (lfu < 16)
  | .tplCommit index tag => decide (index < 128) && decide (tag < 256)
  | .tplRead index tag => decide (index < 128) && decide (tag < 256)
  | .tplInvalidate index tag => decide (index < 128) && decide (tag < 256)
  | .clsInsert profile _ tag => decide (profile < 16) && decide (tag < 256)
  | .clsPause => true
  | .clsDelete profile tag => decide (profile < 16) && decide (tag < 256)
  | .clsRead profile tag => decide (profile < 16) && decide (tag < 256)
  | .clsAbort tag => decide (tag < 256)
  | .patWrite index tag => decide (index < 2048) && decide (tag < 256)
  | .patRead index tag => decide (index < 2048) && decide (tag < 256)
  | .patAbort tag => decide (tag < 256)
  | .epochCommitCmd _ => true
  | .epochDiscard => true
  | .epochCommitEffect => true
  | .epochDrained => true
  | .epochWriteBack rows => decide (rows < 4097)
  | .fenceCmd => true
  | .fenceComplete => true
  | .ageSweepStart table => decide (table < 16)
  | .ageSweepVisit table => decide (table < 16)
  | .shdCompare table row _ => decide (table < 16) && decide (row < 4294967296)
  | .shdRecheck table row _ => decide (table < 16) && decide (row < 4294967296)
  | .shdMmPop => true
  | .tdmaDoorbell ring count tag => decide (ring < 4) && decide (count < 128) && decide (tag < 256)
  | .tdmaRead ring _ => decide (ring < 4)
  | .tdmaWrite ring _ _ => decide (ring < 4)
  | .tdmaInsert ring _ _ => decide (ring < 4)
  | .tdmaDelete ring _ _ => decide (ring < 4)
  | .tdmaSearch ring _ _ => decide (ring < 4)
  | .tdmaLock ring _ => decide (ring < 4)
  | .tdmaUnlock ring _ => decide (ring < 4)
  | .tdmaUnlockDiscard ring _ => decide (ring < 4)
  | .tdmaEpochCommit ring _ => decide (ring < 4)
  | .tdmaAbort ring _ => decide (ring < 4)
  | .tdmaRingDisable ring _ => decide (ring < 4)
  | .rsWrite rsu bank tag => decide (rsu < 4) && decide (bank < 4) && decide (tag < 256)
  | .rsRead rsu bank tag => decide (rsu < 4) && decide (bank < 4) && decide (tag < 256)
  | .rsInvalidate rsu bank tag => decide (rsu < 4) && decide (bank < 4) && decide (tag < 256)
  | .moveWindow rsu bank tag => decide (rsu < 4) && decide (bank < 4) && decide (tag < 256)
  | .rsAbort rsu tag => decide (rsu < 4) && decide (tag < 256)
  | .hbmReadComplete channel result => decide (channel < 128) && decide (result < 4)
  | .hbmWriteDrain channel => decide (channel < 128)
  | .hbmParityAlert channel _ => decide (channel < 128)
  | .hbmRefresh channel => decide (channel < 128)
  | .hbmTempRead stack temp => decide (stack < 4) && decide (temp < 256)
  | .hbmScrub stack result _ => decide (stack < 4) && decide (result < 4)
  | .hbmWindowAccess offset _ => decide (offset < 65536)
  | .pcieLinkTrain speed _ _ => decide (speed < 8)
  | .pcieRetrain => true
  | .pcieConfigRequest fn offset enables _ => decide (fn < 1026) && decide (offset < 4096) && decide (enables < 16)
  | .pcieMemWrite fn bar offset _ _ _ _ _ => decide (fn < 1026) && decide (bar < 6) && decide (offset < 67108864)
  | .pcieMemRead fn bar offset count _ _ => decide (fn < 1026) && decide (bar < 6) && decide (offset < 67108864) && decide (count < 1024)
  | .pcieCompletion fn tag completer status _ _ _ => decide (fn < 1026) && decide (tag < 16384) && decide (completer < 65536) && decide (status < 8)
  | .pcieCompletionTimeout fn tag => decide (fn < 1026) && decide (tag < 16384)
  | .tagQuarantineExpiry fn tag => decide (fn < 1026) && decide (tag < 16384)
  | .bmeClear fn _ => decide (fn < 1026)
  | .flrStart fn _ => decide (fn < 1026)
  | .flrDeadline fn tag => decide (fn < 1026) && decide (tag < 16384)
  | .flrComplete fn => decide (fn < 1026)
  | .pcieHotReset => true
  | .perst => true
  | .vfEnable numVfs => decide (numVfs < 65536)
  | .vfRemove numVfs _ => decide (numVfs < 65536)
  | .msixUnmask fn vec => decide (fn < 1026) && decide (vec < 2048)
  | .pcieL1Exit => true
  | .txTailWrite qp index => decide (qp < 8192) && decide (index < 65536)
  | .rxTailWrite qp index => decide (qp < 8192) && decide (index < 65536)
  | .cqHeadWrite qp index => decide (qp < 8192) && decide (index < 65536)
  | .cqArm qp => decide (qp < 8192)
  | .txDescriptorFetch qp _ => decide (qp < 8192)
  | .txFrameComplete qp => decide (qp < 8192)
  | .rxFramePlace _ _ _ => true
  | .cqModerationTimeout qp => decide (qp < 8192)
  | .mbxSend vf => decide (vf < 1025)
  | .vfMbxTake vf => decide (vf < 1025)
  | .vfmMbxAck tag => decide (tag < 256)
  | .vfmMbxReply tag => decide (tag < 256)
  | .assignQp tag => decide (tag < 256)
  | .releaseQp tag => decide (tag < 256)
  | .vfFreeze tag => decide (tag < 256)
  | .vfFreezeComplete => true
  | .vfUnfreeze tag => decide (tag < 256)
  | .vfSave tag => decide (tag < 256)
  | .vfRestore tag _ => decide (tag < 256)
  | .logStart tag => decide (tag < 256)
  | .logSwap tag _ => decide (tag < 256)
  | .logStop tag _ => decide (tag < 256)
  | .vfmAbort => true
  | .writeCtx tag => decide (tag < 256)
  | .readCtx tag => decide (tag < 256)
  | .qpEnable tag => decide (tag < 256)
  | .qpDisable tag => decide (tag < 256)
  | .qpDrainComplete qp => decide (qp < 8192)
  | .qpAbort => true
  | .ipsEncrypt => true
  | .ipsDecrypt => true
  | .ipsSaWrite tag => decide (tag < 256)
  | .ipsSaRead tag => decide (tag < 256)
  | .ipsSaInvalidate tag => decide (tag < 256)
  | .ipsSaAbort => true
  | .kwWrap kek tag _ => decide (kek < 16) && decide (tag < 256)
  | .kwUnwrap kek target msc tag _ => decide (kek < 16) && decide (target < 4) && decide (msc < 16) && decide (tag < 256)
  | .kwCheck kek tag _ => decide (kek < 16) && decide (tag < 256)
  | .kwLoadKek kek tag => decide (kek < 16) && decide (tag < 256)
  | .kwAbort => true
  | .nvWrite tag => decide (tag < 256)
  | .nvRead tag => decide (tag < 256)
  | .nvResyncRx tag => decide (tag < 256)
  | .nvResyncTx tag => decide (tag < 256)
  | .bfdTxTimer session => decide (session < 65536)
  | .bfdRxPacket => true
  | .bfdDetectTimeout session => decide (session < 65536)
  | .sessWrite _ expect tag => decide (expect < 4) && decide (tag < 256)
  | .sessRead tag => decide (tag < 256)
  | .sessDelete tag => decide (tag < 256)
  | .tplWriteSvc tag => decide (tag < 256)
  | .tplReadSvc tag => decide (tag < 256)
  | .evtPop _ => true
  | .ipfixUpdate => true
  | .ipfixSweep => true
  | .ipfixTemplateSend => true
  | .responderFrame => true
  | .rspWrite tag => decide (tag < 256)
  | .rspRead tag => decide (tag < 256)
  | .rspInvalidate tag => decide (tag < 256)
  | .ntSetNow => true
  | .ntSetAtPps => true
  | .ntSetFromTod => true
  | .ntStep => true
  | .ntCancel => true
  | .ntmValidWrite v => decide (v < 4294967296)
  | .ntNowRead who _ => decide (who < 2)
  | .ppsInEdge => true
  | .ppsLoss => true
  | .ppsLossInvalidate => true
  | .ppsOutPulse => true
  | .todTxMessage => true
  | .todRxMessage bytes => decide (bytes.length = 16)
  | .synceSquelch k => decide (k < 4)
  | .synceResume k => decide (k < 4)
  | .taqPost tag => decide (tag < 256)
  | .taqCancel index tag => decide (index < 64) && decide (tag < 256)
  | .taqRead index tag => decide (index < 64) && decide (tag < 256)
  | .taqFire => true
  | .bonReportNow tag => decide (tag < 256)
  | .bonSelectWin tag => decide (tag < 256)
  | .bonCfgTap tag => decide (tag < 256)
  | .bonCfgReport tag => decide (tag < 256)
  | .bonSeal tag => decide (tag < 256)
  | .bonIntervalReport => true
  | .bonReportComplete => true
  | .bonChangeAttempt => true
  | .bonPowerUp _ => true
  | .spGrantRequest sp => decide (sp < 2)
  | .spHeartbeat sp => decide (sp < 2)
  | .spHeartbeatTimeout => true
  | .spSwitchover tag => decide (tag < 256)
  | .spRestartStandby tag => decide (tag < 256)
  | .spRestartRelease sp => decide (sp < 2)
  | .spTakeoverDone sp => decide (sp < 2)
  | .spTakeoverTimeout => true
  | .spHeldRelease sp => decide (sp < 2)
  | .spSyncComplete sp => decide (sp < 2)
  | .spHealthPost sp => decide (sp < 2)
  | .spHealthStale sp => decide (sp < 2)
  | .gauntletStep sp _ => decide (sp < 2)
  | .failsafeFan => true
  | .bootSlotSelect sp _ _ => decide (sp < 2)
  | .fwStage slot tag _ => decide (slot < 3) && decide (tag < 256)
  | .fwStageConfig tag _ => decide (tag < 256)
  | .fwVerify slot tag _ => decide (slot < 3) && decide (tag < 256)
  | .fwArm slot tag => decide (slot < 3) && decide (tag < 256)
  | .fwDisarm tag => decide (tag < 256)
  | .fwActivateNow tag => decide (tag < 256)
  | .fwReject tag => decide (tag < 256)
  | .fwTrialTimeout => true
  | .fwConfirm => true
  | .svnAdvance tag _ => decide (tag < 256)
  | .flashRead tag _ => decide (tag < 256)
  | .fwuAbort tag => decide (tag < 256)
  | .secQuote tag => decide (tag < 256)
  | .secChallenge tag => decide (tag < 256)
  | .secUnlock tag => decide (tag < 256)
  | .obsFlush => true
  | .obsFlushComplete _ => true
  | .bwWindowEnd => true
  | .traceClear tag => decide (tag < 256)
  | .traceDump tag _ => decide (tag < 256)
  | .traceAbort tag => decide (tag < 256)
  | .logAppend tag => decide (tag < 256)
  | .logDump tag _ => decide (tag < 256)
  | .logAbort tag => decide (tag < 256)
  | .legGather _ => true
  | .legAliasRead who entry => decide (who < 3) && decide (entry < 2064)
  | .domPowerOn dom => decide (dom < 24)
  | .domPowerOff dom => decide (dom < 24)
  | .domTransitionComplete dom => decide (dom < 24)
  | .thermRead fd qd => decide (fd < 256) && decide (qd < 256)
  | .hbmTripEscalate => true
  | .sysclkLoss => true
  | .refOutOfRange ref ppm => decide (ref < 3) && decide (ppm < 65536)
  | .pllLockLoss pll => decide (pll < 8)
  | .pllRelock pll => decide (pll < 8)
  | .powerOnReset _ devid => decide (devid < 4096)
  | .pwrgoodFall => true
  | .startupStep => true
  | .startupFail code => decide (code < 8)
  | .endpointRelease => true
  | .warmReset key => decide (key < 65536)
  | .strapChange _ devid => decide (devid < 4096)
  | .railFault rail => decide (rail < 7)
  | .jtagTrst => true
  | .portLinkStateChange slot _ _ _ _ _ _ => decide (slot < 256)
  | .laneCdrLock lane ctle snr => decide (lane < 256) && decide (ctle < 256) && decide (snr < 256)
  | .prbsCheckerLock lane _ _ => decide (lane < 256)
  | .pauseTimeExpiry slot prio => decide (slot < 256) && decide (prio < 9)
  | .lpiRxChange slot _ => decide (slot < 256)
  | .aspmL1Entry => true
  | .bonVddLoss => true
  | .sysclkRestore => true
  | .perstRelease => true
  | .todOkTimeout => true

end Sys2Proof
end

