-- ==== Sys2Proof/Tests/Slice0.lean ====
section
/-! SUPPORT. Tests/Slice0.lean: the block's own tests: ill-formed commands that WellFormed refuses, single steps with expected results
worked out by hand from the spec, and for each statement with hypotheses a state and operands that meet them. -/

namespace Sys2Proof.Tests

open Sys2Proof Sys2Proof.Machine

/-! ### Small states -/

/-- Field element (page, field, value, index) writes on a state. -/
def put4 (s : State) (l : List (Nat × Fld × Nat × Nat)) : State := l.foldl (fun st e => st.wr e.1 e.2.1 e.2.2.1 e.2.2.2) s

/-- The state at reset with all power domains on. -/
def wBase : State := put4 State.reset ((List.range 24).map fun d => (pgPWR, PWR.DOM_STS_POWERED, 1, d))

/-- All domains on, and the named field elements set. -/
def wst (l : List (Nat × Fld × Nat × Nat)) : State := put4 wBase l

/-- All domains on. -/
def wLine : State := wBase

/-- A port slot configured for Ethernet. -/
def wMac : State := { wBase with macs := tset [] 3 { mode := 1, paused := 0xFF, ignoring := 0xF0 } }
/-- A port with RS(544,514) whose degrade threshold is 5 symbol errors. -/
def wDeg : State := { wst [(0x10, LNP.DEG_SET_COUNT, 5, 0)] with macs := tset [] 3 { mode := 1, fec := 3 } }
/-- One lane enabled at RATE 2, for a one-lane port. -/
def wPort : State := wst [(0x10, LNP.LANE_CTL_RATE, 2, 0), (0x10, LNP.LANE_CTL_TX_EN, 1, 0), (0x10, LNP.LANE_CTL_RX_EN, 1, 0)]
/-- Start-up has come to its second step, and SNAP_IN requests the strobe. -/
def wUp : State := wst [(pgRST, RST.START_STS_STEP, 3, 0), (pgCRWN, CRWN.STROBE_CTL_PIN_EN, 1, 0)]
/-- Page 4 has an unmasked cause routed to vector 0 of function 1, which delivers it. -/
def wArm : State :=
  ({ wst [(pgRST, RST.START_STS_STEP, 3, 0), (pgCRWN, CRWN.INT_GCTL_HOST_EN, 1, 0), (4, COMMON.INT_CAUSE_CAUSE, 1, 0),
      (4, COMMON.INT_MASK_MASK, 0, 0), (pgCRWN, CRWN.VEC_MAP_MAP, 0x80, 1)] with
    fns := tset [] 1 { cfg := tset (tset [] 4 6) 0x50 0x80000000, vecs := tset [] 0 { mask := false } } })
/-- A trained Band with VC0 strict. -/
def wBand : State := wst [(pgBAND, BAND.BAND_STS_UP, 1, 0), (pgBAND, BAND.BAND_CTL_VC0_STRICT, 1, 0)]
/-- A flit of no content. -/
def wFlit : Flit := { vc := 0, kind := 0, seq := 0, ack := 0, payload := [] }
/-- 2,048 flits are retained. -/
def wFullBand : State := { wBand with bandFQ := { retained := List.replicate 2048 wFlit } }
/-- Cage 3 managed with AUTO, in a state, its module present. -/
def wCage (st : Nat) : State :=
  { wst [(pgCAGE, CAGE.CAGE_CTL_EN, 1, 3), (pgCAGE, CAGE.CAGE_CTL_AUTO, 1, 3), (pgCAGE, CAGE.CAGE_STS_STATE, st, 3)] with ticks := 10 ^ 12 }
def wCageWait : State := (wCage 1).setCage 3 { waiting := true }
def wCageHold : State := (wCage 2).setCage 3 { holding := true }
def wCageCyc : State := (wCage 4).setCage 3 { cycling := true }
def wCageMan : State := (wCage 3).wr pgCAGE CAGE.CAGE_CTL_AUTO 0 3
def wCageRaw : State := (wCage 6).wr pgCAGE CAGE.CAGE_STS_RAW_PRESENT 1 3
/-- Master 0 in a mode, with a length of 4 bytes outside the protected ones; a queued write. -/
def wMm : State := ((wCage 4).wr pgCAGE CAGE.MM_ADDR_LEN 4).wr pgCAGE CAGE.MM_CTL_MODE 1
def wMmC : MmCmd := { write := true, cage := 3, tag := 7, bank := 0, page := 0, offset := 0, len := 4 }
def wMmQ : State := { wMm with mmQueue := [(0, [wMmC])] }
/-- Framing unit 0 with some registers and the state of its engine. -/
def wLfu (l : List (Nat × Fld × Nat × Nat)) (x : Lfu) : State := (wst l).setLfu 0 x
/-- Framing unit 0 as an OTN framer on a port of mode 3 with one 200 Gb/s lane. -/
def wOtn (l : List (Nat × Fld × Nat × Nat)) (x : Lfu) : State :=
  { wst ((0x10, LNP.LANE_CTL_RATE, 3, 0) :: l) with macs := tset [] 0 { mode := 3 }, lfus := tset [] 0 x }
/-- A classifier entry of profile 0 with the all-zero key, where its key hashes to; an insert that waits for its pauses. -/
def wClsE : ClsEntry := { prof := 0, key := List.replicate 32 0, act := [1, 2, 3, 4] }
def wClsV : State := wst [(pgCLS, CLS.PROF_CFG_VALID, 1, 0)]
def wClsQ : Nat := wClsV.clsSlot 0 ((List.replicate 32 0).take (wClsV.clsLen 0))
def wCls : State := { wClsV with cls0 := [(wClsQ, wClsE)], cls1 := [(wClsQ, wClsE)] }
def wClsR : ClsRun := { tag := 9, result := [], moves := 12, slot := 0 }
def wClsRun : State := { wBase with clsRun := some wClsR }
def wClsRun2 : State := { wBase with clsRun := some { wClsR with first := true } }
/-- Ring 0 of table DMA ready, one descriptor outstanding, and the host function may write. -/
def wRingL (l : List (Nat × Fld × Nat × Nat)) : State :=
  { wst ([(pgTDMA, COMMON.PAGE_CTL_ENABLE, 1, 0), (pgTDMA, TDMA.RING_CTL_EN, 1, 0), (pgTDMA, TDMA.RING_STS_OUTSTANDING, 1, 0)] ++ l) with
    fns := tset [] 1 { cfg := tset [] 4 6 } }
def wRing : State := wRingL []
/-- Row 3 of table 5 locked by ring 0 with staged words. -/
def wLock : State := { wRing with locks := [(wRing.rowKey 5 false 3, ⟨0, some [99]⟩)] }
/-- Exact-match table 0 valid and on die, an entry image, the row that takes it, and the table with it. -/
def wExm : State := wRingL [(pgEXM, EXM.TBL_CFG_A_VALID, 1, 0)]
def wExmImg : List Nat := [17, 0, 0, 0, 5, 1, 0, 0]
def wExmRow : Nat := (((wExm.planOf 8 0 wExmImg).bind fun k => k.free fun r => wExm.rowUsed 8 (wExm.planRead k false r))).getD 0
def wExm2 : State := { wExm with rows := [(wExm.rowKey 8 false wExmRow, wExmImg)] }
/-- One staged row; one committed row; a commit that waits. -/
def wVs : State := { wBase with vstore := [⟨5, 3, [99], none⟩] }
def wVs2 : State := { wBase with vstore := [⟨5, 3, [99], some 0⟩] }
def wCommit : State := { wVs with commits := [⟨none⟩] }
/-- Aging enabled with a period for table 2; compare enabled for table 5; a difference under recheck. -/
def wAge : State := wst [(pgAGE, AGE.AGE_CTL_EN, 1, 0), (pgAGE, AGE.AGE_PERIOD_MS, 10, 2)]
def wShd : State :=
  { wst [(pgSHD, SHD.SHD_CTL_EN, 1, 0), (pgSHD, SHD.SHD_TBL_EN_MASK, 32, 0)] with
    fns := tset [] 1 { cfg := tset [] 4 6 }, shdAt := (5, 3), ticks := 10 ^ 12 }
def wShd2 : State := { wShd with rechecks := [⟨5, 3, wShd.rowKey 5 false 3, [0], [99], 0⟩] }
/-- A range-search entry at index 1 of bank 0, RS_INDEX at it with hole 2; channels 5 and 6 with a read and a write queued. -/
def wRsuE : RsuEntry := { prio := 9, valid := true, act := 77, ranges := List.replicate 10 (1, 2) }
def wRsu : State := { wst [(pgRSU 0, RSU.RS_INDEX_INDEX, 1, 0), (pgRSU 0, RSU.RS_INDEX_HOLE, 2, 0)] with rsu := [(1, wRsuE)] }
def wHbm : State :=
  { wst ((List.range 4).map fun i => (pgHBC i, HBC.STACK_STS_TRAINED, 1, 0)) with
    chans := [(5, { reads := [⟨1, 2, 3, 2⟩] }), (6, { writes := [⟨1, 2, 3, 2⟩] })] }
/-- A frame for a queue of the fabric, and the queueing die in operation with it at the Band's end. -/
def wFr : Frame := { bytes := List.replicate 60 0, nhType := 2, dest := 5 }
def wQdL (l : List (Nat × Fld × Nat × Nat)) : State :=
  wst ([(pgQSU, COMMON.PAGE_CTL_ENABLE, 1, 0), (pgADM, COMMON.PAGE_CTL_ENABLE, 1, 0), (pgBPM, COMMON.PAGE_CTL_ENABLE, 1, 0),
    (pgMCR, COMMON.PAGE_CTL_ENABLE, 1, 0), (pgBRM, COMMON.PAGE_CTL_ENABLE, 1, 0), (pgBPM, BPM.CARVE_STS_APPLIED, 1, 0), (pgBAND, BAND.BAND_STS_UP, 1, 0),
    (pgADM, ADM.PROF_Q_MAX, 1000, 0)] ++ l)
def wQd : State := { wQdL [] with toQd := [wFr] }
/-- A spilled buffer of queue 9; queue 9 with a frame in a place. -/
def wSpill : State := { wQdL [] with bufs := [(bufKey 4 0, { owner := 9, staged := 64 })] }
def wFrH (p : Place) : Frame := { wFr with place := p, qlen := 64, hold := .buffer 4 0 }
def wHbmQ (p : Place) : State := { wQdL [] with bufs := [(bufKey 4 0, { owner := 9 })], queues := [(9, { frames := [wFrH p] })] }
/-- Group 3 with one replica for queue 7, whose path of nodes is valid, and a multicast frame for it. -/
def wFrM : Frame := { bytes := List.replicate 60 0, nhType := 6, dest := 3 }
def wNodes : Tbl Node :=
  [(nodeKey 1 0, { words := [0x80000000, 0, 0, 100] }), (nodeKey 2 0, { words := [0x80000000, 1, 0, 0] }),
   (nodeKey 3 0, { words := [0x80000000, 1, 0, 0] }), (nodeKey 4 0, { words := [0x80000000, 1, 0, 0] }), (nodeKey 4 1, { words := [0x80000000, 1, 0, 0] }),
   (nodeKey 5 0, { words := [0x80000000, 1, 0, 0] }), (nodeKey 5 6, { words := [0x80000000, 1, 0, 0] }), (nodeKey 5 7, { words := [0x80000000, 1, 0, 0] })]
def wMc : State := { wQdL [] with toQd := [wFrM], groups := [(3, 0x80040000)], repList := [(0, 7)], nodes := wNodes }
/-- Descriptor 5 with one replica in a state, for queue 7 or 6. -/
def wRepl (st : RepState) : Replica := { queue := 7, frame := { wFr with qlen := 64 }, state := st }
def wMcdX (st : RepState) (n : Nat) : Mcd := { pool := 0, buf := 0, reps := [wRepl st], remain := n, wait := decide (st = .residue) }
def wResid (n q : Nat) : State :=
  { wQdL [] with mcds := [(5, wMcdX .residue n)], nodes := wNodes, queues := [(q, { residue := [(5, 0)] })] }
def wResidQ (n : Nat) : State := { wQdL [] with mcds := [(5, wMcdX .queued n)] }
/-- The scheduler in operation with one frame in queue 7 of port 0; a node write staged for level 4; MAC slot 3 with a frame. -/
def wSched : State :=
  { wQdL ((msc 0, MSC.MAC_STS_LINK, 1, 0) :: (List.range 5).map fun k => (pgSCH (k + 1), COMMON.PAGE_CTL_ENABLE, 1, 0)) with
    nodes := wNodes, queues := [(7, { frames := [{ wFr with qlen := 64 }] })] }
def wNodeW : State := wst [(pgSCH 4, SCH.NODE_IDX_INDEX, 9, 0)]
def wTake : State :=
  { wst [(msc 3, MSC.MAC_CTL_TX_EN, 1, 3), (msc 3, MSC.MAC_STS_LINK, 1, 3)] with macs := [(3, { mode := 1, txq := [[], [wFr], [], [], [], [], [], []] })] }
def wFlushQ : State := { wst [(pgQSU, QSU.QSU_CMD_Q_QUEUE, 9, 0)] with queues := [(9, { frames := [wFr] })] }
def wFlush : State := { wFlushQ with flush := some ⟨9, false, 7, 0, false, false⟩ }
/-- Link 3 in a state; receiving in it; in a tier-1 fabric element; a control cell and a one-cell data cell. -/
def wLnk (st : Nat) (l : List (Nat × Fld × Nat × Nat)) : State := wst ((pgFIU 0, FIU.LINK_STS_STATE, st, 3) :: (pgFIU 0, FIU.LANE_CTL_TX_EN, 1, 3) :: (pgFIU 0, FIU.LANE_CTL_RX_EN, 1, 3) :: l)
def wRx (st : Nat) (l : List (Nat × Fld × Nat × Nat)) : State := wLnk st ((pgFIU 0, FIU.LINK_STS_SF_LOCK, 1, 3) :: l)
def wElL : List (Nat × Fld × Nat × Nat) :=
  [(pgCRWN, CRWN.DEV_MODE_FABRIC, 1, 0), (pgFEL, COMMON.PAGE_CTL_ENABLE, 1, 0), (pgFEL, FEL.FEL_CFG_TIER, 1, 0)]
def wEl (st : Nat) : State := wLnk st wElL
def wCtl (ctype tier : Nat) (p : List Byte) : List Byte := cellBytes (2 ^ 126 + ctype * 2 ^ 120 + tier * 2 ^ 106) p
def wDat (dst len : Nat) : List Byte :=
  { dst := dst, src := 1, cls := 7, seq := 4, sof := true, eof := true, len := 16 + len, payload := [1] : Cell }.encode
/-- Link 3 receives and link 4 reaches device 5; an express VOQ for it; a frame being sprayed to it. -/
def wToFive (l : List (Nat × Fld × Nat × Nat)) : State :=
  { wQdL ([(pgFAB, COMMON.PAGE_CTL_ENABLE, 1, 0), (pgFIU 0, FIU.LINK_STS_STATE, 4, 3), (pgFIU 0, FIU.LINK_CTL_SPRAY_EN, 1, 3)] ++ l) with
    links := [(3, { reach := 32 })] }
def wVoq : State := { wToFive [] with queues := [(voq0 + 47, { frames := [{ wFr with qlen := 64 }] })] }
def wSpray : State := { wToFive [] with spray := [{ frame := wFr, dst := 5, cls := 7, sent := 0 }] }
def wElRx : State :=
  { wRx lACTIVE (wElL ++ [(pgBPM, COMMON.PAGE_CTL_ENABLE, 1, 0), (pgBPM, BPM.CARVE_STS_APPLIED, 1, 0), (pgFIU 0, FIU.LINK_STS_STATE, 4, 4),
      (pgFIU 0, FIU.LINK_STS_FAR_DEV, 5, 4)]) with links := [(4, { helloAt := some 0 })] }
/-- The Liner expects number 4 of source 1, class 7; it holds that cell. -/
def wLin : State :=
  { wRx lACTIVE [(pgLIN, COMMON.PAGE_CTL_ENABLE, 1, 0), (pgLIN, LIN.LIN_WIN_WINDOW, 64, 0)] with liner := [(15, { idle := false, next := 4 })] }
def wLinT : State := { wLin with liner := [(15, { idle := false, next := 3, held := [(4, ⟨[1], true, false, 0, 0, 0⟩)] })] }
/-- The endpoint released with PERST_N high; with a tag slot; with a pending vector that its function may send. -/
def wPcie : State := { wst [(pgRST, RST.START_STS_EP_RELEASED, 1, 0)] with perstHigh := true }
structure SlotBits where
  squashed : Bool := false
  quarantined : Bool := false
def wSlot (b : SlotBits) : TagSlot :=
  { fn := 0, tag := 7, qp := 5, first := 0, part := 0, len := 2, issued := 0, squashed := b.squashed, quarantined := b.quarantined }
def wTag (b : SlotBits) : State := { wPcie with tags := [wSlot b] }
def wPend : State := { wPcie with fns := [(1, { cfg := tset (tset [] 4 6) 0x50 0x80000000, vecs := [(3, { mask := true, pend := true })] })] }
/-- PF0 decodes memory and masters the bus; queue pair 5 is its own; VF 1 and VF 2 are enabled. -/
def wMem : State :=
  { wPcie with fns := [(0, { cfg := [(4, 6)] }), (1, { cfg := [(4, 6)] })], qps := [(5, { owner := some (0, 0) })], tags := [wSlot {}] }
def wVfs : State := { wPcie with fns := [(0, { cfg := [(4, 6), (0x308, 9), (0x310, 2)] })], vfs := [] }
/-- Queue pair 5, of PF0, with rings and CQ of 64 entries and buffers of 256 bytes; PF0 masters the bus. -/
def wQpX : QPair := { owner := some (0, 0), state := 1, ctx := [0, 0, 0, 0, 0, 0, 0x2666, 3, 0] }
def wQpL (l : List (Nat × Fld × Nat × Nat)) (x : QPair) : State :=
  { wst ([(pgRST, RST.START_STS_EP_RELEASED, 1, 0), (pgDMA, COMMON.PAGE_CTL_ENABLE, 1, 0)] ++ l) with
    perstHigh := true, fns := [(0, { cfg := [(4, 6), (0x50, 0x80000000)], vecs := [(3, { mask := false })] }), (1, { cfg := [(4, 6)] })], qps := [(5, x)] }
def wQp : State := wQpL [] wQpX
def wTxD : List Nat := [0x1000, 0, 0xC03C, 0, 0, 0, 0, 0]
def wTxF : TxFrame := { first := 0, descs := [wTxD], parts := [some (List.replicate 60 0)] }
def wTxQ : State := { wQpL [] { wQpX with txTail := 1, deficit := 5 } with txCur := 5 }
def wRxQ (n : Nat) : State :=
  { wQpL [] { wQpX with rxTail := n } with hostRx := [{ bytes := List.replicate 300 0, qp := 5 }] }
/-- Queue pair 5 selected; and disabled, with staged words that are in range. -/
structure QpBits where
  dis : Bool := false
def wSel (b : QpBits) : State := wQpL [(pgDMA, DMA.QP_SEL_QP, 5, 0)] { wQpX with state := b2n (!b.dis) }
def wCtxV : List Nat := [0, 0, 0, 0, 0, 0, 0x2666, 3, 0]
def wCtxW : State :=
  wQpL [(pgDMA, DMA.QP_SEL_QP, 5, 0), (pgDMA, DMA.CTX_W_WORD, 0x2666, 6), (pgDMA, DMA.CTX_W_WORD, 3, 7)] { wQpX with state := 0 }
/-- VF 1 of two, named by CMD_FN, in a state; with queue pair 9 of local index 2, frozen. -/
def wVfm (l : List (Nat × Fld × Nat × Nat)) (v : VfState) : State :=
  { wst ([(pgRST, RST.START_STS_EP_RELEASED, 1, 0), (pgVFM, VFM.CMD_FN_FN, 1, 0)] ++ l) with
    perstHigh := true, fns := [(0, { cfg := [(4, 6), (0x308, 9), (0x310, 2)] })], vfs := [(1, v)] }
def wRest : State := { wVfm [] { frozen := true } with qps := [(9, { wQpX with owner := some (1, 2) })] }
/-- An IPv4 frame of 34 bytes and one of 58 bytes with an ESP packet of SPI 1 and number 9, an outbound and an inbound SA in transport mode
that expect number 9 or above, the queues with one frame each. -/
def wIpB (proto len : Nat) : List Byte :=
  List.replicate 12 0 ++ [0x08, 0x00, 0x45, 0, 0, byteOf len, 0, 0, 0, 0, 64, byteOf proto, 0, 0, 10, 0, 0, 1, 10, 0, 0, 2]
def wIpF : Frame := { bytes := wIpB 17 20, l3 := some 14 }
def wEspF : Frame := { bytes := wIpB 50 44 ++ [0, 0, 0, 1, 0, 0, 0, 9] ++ List.replicate 16 0, l3 := some 14 }
def wSaO : IpsSa := { key := List.replicate 8 0, salt := 0, spi := 1, seq := 9, cfg := 3, cfg2 := 0 }
def wSaI (n : Nat) : IpsSa := { key := List.replicate 8 0, salt := 0, spi := 1, seq := n, cfg := 1, cfg2 := 0 }
def wIpsE : State := wst [(pgIPS, COMMON.PAGE_CTL_ENABLE, 1, 0)]
def wIps : State := { wIpsE with ipsSas := [(3, wSaO)], ipsHost := [{ frame := wIpF, sa := 3, enc := true }] }
def wIpsX : State := { wIps with ipsSas := [(3, { wSaO with seq := 2 ^ 32 })] }
def wIpsD (n : Nat) : State := { wIpsE with ipsSas := [(4, wSaI n)], ipsTransit := [{ frame := wEspF, sa := 4, enc := false }] }
def wIpsV : State := { wst [(pgIPS, IPS.SA_SEL_SA, 3, 0)] with ipsSas := [(3, wSaO)] }
/-- A key-encryption key in slot 1, exported or not; a connection. -/
def wKek (e : Nat) : State := { wBase with keks := [(1, List.replicate 8 0)], kekExport := [(1, e)] }
def wKekB : List Byte := wordsToBytes (List.replicate 8 0)
def wNv : State := { wBase with nvs := [(0, { words := [1, 2, 3, 4, 5, 6, 7] })] }
/-- The SVC page enabled with BFD; session 5 in a state, and a packet for it that gives a state; a flow; an ARP request and a Neighbor
Solicitation for an address that the responder holds. -/
def wSvc : State := wst [(pgSVC, COMMON.PAGE_CTL_ENABLE, 1, 0), (pgSVC, SVC.SVC_CTL_BFD_EN, 1, 0)]
def wBfdX (st : Nat) : List Nat := [4 + st, 9, 3300, 3300, 3300, 3300, 3] ++ List.replicate 13 0
def wBfdF (st : Nat) : Frame :=
  { bytes := List.replicate 12 0 ++ [0x08, 0, 0x45, 0, 0, 52, 0, 0, 0, 0, 255, 17, 0, 0] ++ [10, 0, 0, 1, 10, 0, 0, 2] ++
      [0, 0] ++ toBe 2 3784 ++ toBe 2 32 ++ [0, 0, 0x20, byteOf (64 * st), 3, 24] ++ toBe 4 9 ++ toBe 4 5 ++ toBe 4 3300 ++ toBe 4 3300 ++ toBe 4 0
    l3 := some 14 }
def wBfd (st rx : Nat) : State := { wSvc with sess := [(5, wBfdX st)], bfdIn := [wBfdF rx] }
def wFlow : Flow :=
  { key := [1, 2, 3, 4], v6 := false, fixed := [1, 2, 3, 4], octets := 64, packets := 1, first := 0, last := 0, exported := 0, tcp := 0 }
def wRspE : List Nat := [0x0A000002, 0, 0, 0, 0x2000, 0x02000000, 1]
def wRspE6 : List Nat := [0x20010000, 0, 0, 2, 0x3000, 0x02000000, 1]
def wRsp : State := { wSvc with rsp := [(0, wRspE)] }
def wRsp6 : State := { wSvc with rsp := [(0, wRspE6)] }
def wArp : Frame :=
  { bytes := List.replicate 12 0 ++ [0x08, 0x06, 0, 1, 8, 0, 6, 4, 0, 1] ++ List.replicate 10 0 ++ List.replicate 6 0 ++ [10, 0, 0, 2], l3 := some 14 }
def wNs : Frame :=
  { bytes := List.replicate 12 0 ++ [0x86, 0xDD, 0x60, 0, 0, 0, 0, 24, 58, 255] ++ List.replicate 15 0 ++ [1] ++ List.replicate 16 0 ++
      [135, 0, 0, 0, 0, 0, 0, 0] ++ [0x20, 0x01] ++ List.replicate 13 0 ++ [2], l3 := some 14 }
/-- All domains on, with registers set, for network time; entry 3 of the timed action queue pending, or due; a full queue. -/
def wNt (l : List (Nat × Fld × Nat × Nat)) : State := wst l
def wTaqE : TaqEntry := { raw := [0, 0, 0, 1, 0, 0], order := 0 }
def wTaq1 : State := { wNt [] with taq := [(3, wTaqE)] }
def wTaqV : State := wNt [(pgTAQ, TAQ.POST_TYPE_TYPE, 1, 0), (pgNTM, NTM.NTM_STS_VALID, 1, 0)]
def wTaqFull : State := { wNt [(pgTAQ, TAQ.POST_TYPE_TYPE, 1, 0)] with taq := (List.range 64).map fun i => (i, wTaqE) }
def wTaqD (n : Nat) : State := { wNt [(pgNTM, NTM.NTM_STS_VALID, n, 0), (pgCRWN, CRWN.STROBE_CTL_TAQ_EN, 0, 0)] with taq := [(3, wTaqE)] }
def wTaqL : State :=
  { wNt [(pgNTM, NTM.NTM_STS_VALID, 1, 0), (pgLKP, COMMON.PAGE_CTL_SOFT_RESET, 1, 0)] with taq := [(3, { wTaqE with raw := [0, 0, 0, 4, 0, 0] })] }
/-- The service processors in two roles; SP-A active and late, SP-B a healthy standby. -/
def wSp (a b : Nat) (x y : SpState) : State :=
  { wst [(pgSPA, SPA.IL_STS_ROLE_A, a, 0), (pgSPA, SPA.IL_STS_ROLE_B, b, 0)] with sps := [(0, x), (1, y)] }
def wSpH : State := { wSp 4 3 {} { healthyAt := some (10 ^ 9) } with ticks := 10 ^ 9 }
/-- MAC slot 3 of an Ethernet port with its link up and both directions on; with the head of a preempted frame; with a frame taken to send. -/
def wPortL (m : MacSlot) : State :=
  { wst [(msc 3, MSC.MAC_STS_LINK, 1, 3), (msc 3, MSC.MAC_CTL_RX_EN, 1, 3), (msc 3, MSC.MAC_CTL_TX_EN, 1, 3)] with macs := [(3, m)] }
def wRxP : State := wPortL { mode := 1 }
def wHead : List Byte × NetTime × Bool := ([1, 2], {}, false)
def wRxH : State := wPortL { mode := 1, partial_ := some wHead }
def wTxG (good : Bool) : State := wPortL { mode := 1, sending := [{ wFr with fcsGood := good }] }
/-- Pipelines in rotation with one frame in the ingress hold; with one frame inside that stands at a stage; a result that ORD holds. -/
def wPipeL : List (Nat × Fld × Nat × Nat) :=
  [(pgORD, COMMON.PAGE_CTL_ENABLE, 1, 0), (pgNHP, COMMON.PAGE_CTL_ENABLE, 1, 0), (pgNHP, NHP.NHP_CTL_EN, 1, 0), (pgBAND, BAND.BAND_STS_UP, 1, 0),
   (pgIPP 0, IPP.IPP_CTL_DEAL_EN, 1, 0), (pgEPP 0, EPP.EPP_CTL_DEAL_EN, 1, 0)]
def wPipe : State := wst wPipeL
def wHeldF : State := { wPipe with ingress := [wFr] }
def wPiped (st : PipeStage) : Piped := { frame := wFr, stage := st, pipe := 0 }
def wIn (st : PipeStage) : State := { wPipe with piped := [wPiped st] }
def wParkX : Piped := { wPiped .park2 with exm := some (some 9) }
def wParkD : State := { wPipe with piped := [wParkX], rows := [(wPipe.rowKey 24 false 9, [10, 5, 0, 0])] }
/-- A range-search profile 0 valid, with a bank that the search compares, and an entry that matches an empty key. -/
def wSrchE (act : Nat) : RsuEntry := { prio := 9, valid := true, act := act, ranges := List.replicate 10 (0, 0) }
def wSrch (l : List (Nat × Fld × Nat × Nat)) (r : Tbl RsuEntry) : State :=
  { wst ([(pgRSU 0, COMMON.PAGE_CTL_ENABLE, 1, 0), (pgRSU 0, RSU.PROF_CFG_VALID, 1, 0), (pgRSU 0, RSU.PROF_CFG_BANK_MASK, 1, 0)] ++ l) with
    piped := [wPiped .search], rsu := r }
def wOrdH : OrdHeld := { frame := wFr, drop := false, since := 0 }
def wOrdG : State := { wPipe with ords := [(0, { next := 4, held := [(7, wOrdH)], timer := some 0 })], ticks := 10 ^ 9 }
/-- A frame that the queueing die has given to the egress pipelines, for MAC slot 3. -/
def wOutF : Frame := { wFr with rewrite := noRewrite, outPort := 3, nhType := 3 }
def wOut (f : Frame) : State := { wst ((msc 3, MSC.MAC_STS_LINK, 1, 3) :: wPipeL) with toFd := [f], macs := [(3, { mode := 1, txq := List.replicate 8 [] })] }
def wPauseB : List Byte := List.replicate 12 0 ++ [0x88, 0x08, 0, 1] ++ List.replicate 44 0
def wTxL (good : Bool) : State := (wTxG good).wr (lnp 3) LNP.LANE_CTL_TX_EN 1 3 |>.wr (lnp 3) LNP.LANE_CTL_RATE 2 3
/-- The ingress hold with one frame on its way over the Band, whose bytes it holds. -/
def wFullHold (b : List Byte) : State := { wRxP with toQd := [{ bytes := b }] }
theorem wFullHold_used (b : List Byte) : (wFullHold b).holdUsed = b.length + 4 := Nat.zero_add _

/-! ### Well-formedness -/

theorem test_wf_refuses_1 : ([.registerWrite 3 0 0 0 true,
    .registerWrite 0 1024 0 0 true,
    .registerWrite 0 0 65536 0 true,
    .registerWrite 0 0 0 4294967296 true,
    .registerWrite 0 0 1 0 true,
    .malformedSpAccess 3 0 0 true,
    .malformedSpAccess 1 1024 0 true,
    .malformedSpAccess 1 0 65536 true,
    .malformedSpAccess 0 0 0 true,
    .unmappedPageAccess 3 0 0 true,
    .unmappedPageAccess 0 1024 0 true,
    .unmappedPageAccess 0 0 65536 true] : List Instr).all (fun i => !i.wellFormed) = true := by decide
theorem test_wf_refuses_2 : ([.registerAccessTimeout 3 0 0 true,
    .registerAccessTimeout 0 1024 0 true,
    .registerAccessTimeout 0 0 65536 true,
    .rcFieldRead 3 0 0 true,
    .rcFieldRead 0 1024 0 true,
    .rcFieldRead 0 0 65536 true,
    .rcFieldRead 0 0 1 true,
    .counterLoRead 3 0 0,
    .counterLoRead 0 1024 0,
    .counterLoRead 0 0 65536,
    .resultAliasRead 3 0 0,
    .resultAliasRead 0 1024 0] : List Instr).all (fun i => !i.wellFormed) = true := by decide
theorem test_wf_refuses_3 : ([.resultAliasRead 0 0 65536,
    .intForceWrite 3 0 0,
    .intForceWrite 0 1024 0,
    .intForceWrite 0 0 4294967296,
    .intRearm 3 0,
    .intRearm 0 4294967296,
    .cntClearAll 3 0,
    .cntClearAll 0 1024,
    .softReset 3 0,
    .softReset 0 1024,
    .softResetComplete 1024,
    .localStrobe 1024] : List Instr).all (fun i => !i.wellFormed) = true := by decide
theorem test_wf_refuses_4 : ([.bandFlitReceive true [],
    .bandReplayRequest true 4096,
    .macRxFrame 256 .whole [] 0 [] true,
    .macRxFrame 0 .whole [] 4294967296 [] true,
    .parkResume 65536 0 true,
    .parkResume 0 65536 true,
    .pmmScanDone 65536 0,
    .pmmScanDone 0 65536,
    .ordResult 65536 0,
    .ordResult 0 65536,
    .ordGapTimeout 65536,
    .spillWriteComplete 6 0] : List Instr).all (fun i => !i.wellFormed) = true := by decide
theorem test_wf_refuses_5 : ([.spillWriteComplete 0 16777216,
    .brmReadback 262144,
    .readbackComplete 262144 true,
    .schedDecision 256 true,
    .mscTakeFrame 256,
    .eppDeal true 4,
    .macTxFrame 256,
    .bufferFree 6 0 0,
    .bufferFree 0 16777216 0,
    .bufferFree 0 0 16777216,
    .felCellArrive 512 [] [],
    .felSlotSend 512 true] : List Instr).all (fun i => !i.wellFormed) = true := by decide
theorem test_wf_refuses_6 : ([.linerCell 512 [] [] true,
    .linerTimeout 4096 0,
    .linerTimeout 0 8,
    .linerCtxIdle 4096 0,
    .linerCtxIdle 0 8,
    .linkEnable 512,
    .linkDisable 512,
    .linkAdaptDone 512 0,
    .linkAdaptDone 0 256,
    .linkAdaptTimeout 512,
    .superframeLock 512,
    .linkLockTimeout 512] : List Instr).all (fun i => !i.wellFormed) = true := by decide
theorem test_wf_refuses_7 : ([.superframeLockLoss 512,
    .uncorrThreshold 512,
    .helloReceive 512 [],
    .helloSend 512,
    .helloTimeout 512,
    .linkForceDown 512,
    .linkHolddownExpiry 512,
    .linkDozeRequest 512,
    .dozeReqReceive 512 [],
    .dozeAckReceive 512 [],
    .linkWake 512 true,
    .linkWakeDone 512] : List Instr).all (fun i => !i.wellFormed) = true := by decide
theorem test_wf_refuses_8 : ([.linkWakeTimeout 512,
    .reachSend 512,
    .reachReceive 512 [],
    .fcReceive 512 [],
    .unknownControlCell 512 [],
    .strobeCellReceive 512 [],
    .residueReady 8192 0,
    .residueReady 0 1024,
    .residueTimeout 8192,
    .replicaCompletion 8192 0 true,
    .replicaCompletion 0 1024 true,
    .qsuFlush true 256] : List Instr).all (fun i => !i.wellFormed) = true := by decide
theorem test_wf_refuses_9 : ([.qsuAbort 256,
    .nodeWrite 6 0,
    .nodeWrite 1 256,
    .nodeWrite 0 0,
    .nodeRead 6 0,
    .nodeRead 1 256,
    .nodeRead 0 0,
    .shpProfileWrite 4096 0 0,
    .shpProfileWrite 0 32 0,
    .shpProfileWrite 0 0 4294967296,
    .admProfileWrite 64 0 0,
    .admProfileWrite 0 32 0] : List Instr).all (fun i => !i.wellFormed) = true := by decide
theorem test_wf_refuses_10 : ([.admProfileWrite 0 0 4294967296,
    .mcrGroupWrite 4294967296,
    .mcrListWrite 4294967296,
    .laneCtlWrite 256 0,
    .laneCtlWrite 0 4294967296,
    .laneAdapt 256,
    .txFirWrite 256 0,
    .txFirWrite 0 4294967296,
    .portApply 256 0,
    .portApply 0 4294967296,
    .serWindowEnd 256 0 0 0,
    .linkTrainingDone 256 true] : List Instr).all (fun i => !i.wellFormed) = true := by decide
theorem test_wf_refuses_11 : ([.cdrLockLoss 256,
    .pauseWdTrip 256 0,
    .pauseWdTrip 0 9,
    .pauseWdRecoverEnd 256 0,
    .pauseWdRecoverEnd 0 9,
    .preemptVerify 256 true,
    .lpiEnter 256,
    .tsPop 16,
    .mscSaWrite 16 0,
    .mscSaWrite 0 256,
    .mscSaRead 16 0,
    .mscSaRead 0 256] : List Instr).all (fun i => !i.wellFormed) = true := by decide
theorem test_wf_refuses_12 : ([.mscSaInvalidate 16 0,
    .mscSaInvalidate 0 256,
    .cageDebounceDone 64,
    .cagePgTimeout 64,
    .cageResetHoldDone 64,
    .cageInitTimeout 64,
    .cageDatapathActivated 64 true,
    .cageManualReady 64,
    .cageForceLpmode 64 true,
    .cagePowerCycle 64,
    .cagePowerCycleEnd 64,
    .cageFaultClr 64] : List Instr).all (fun i => !i.wellFormed) = true := by decide
theorem test_wf_refuses_13 : ([.cageRemovalDone 64,
    .mmRead 8 0 0,
    .mmRead 0 64 0,
    .mmRead 0 0 256,
    .mmWrite 8 0 0,
    .mmWrite 0 64 0,
    .mmWrite 0 0 256,
    .mmAbort 8 0,
    .mmAbort 0 256,
    .mmTransactionDone 8 [] true,
    .mmStretchTimeout 8,
    .mmSdaStuck 8] : List Instr).all (fun i => !i.wellFormed) = true := by decide
theorem test_wf_refuses_14 : ([.lfuClientWrite 16 0 0,
    .lfuClientWrite 0 64 0,
    .lfuClientWrite 0 0 4294967296,
    .flexeSwitchTrigger 16,
    .flexeOhFrame 16,
    .flexeOhReceive 16 [] [] [] false 0 0 0 0,
    .flexeCaReceive 16 0,
    .flexeCaReceive 0 2,
    .flexeCaTimeout 16,
    .flexeCrReceive 16 0,
    .flexeCrReceive 0 2,
    .flexeRxCChange 16 0] : List Instr).all (fun i => !i.wellFormed) = true := by decide
theorem test_wf_refuses_15 : ([.flexeRxCChange 0 2,
    .otnEnable 16,
    .otnSwitchTrigger 16,
    .otnTxMapSwitch 16,
    .otnRxMapSwitch 16,
    .otnFrame 16 0 [] {},
    .otnFrame 0 32 [] {},
    .otnLofDeclare 16,
    .otnLofClear 16,
    .protCommand 16 0,
    .protCommand 0 8,
    .protHoldoffExpiry 16 0] : List Instr).all (fun i => !i.wellFormed) = true := by decide
theorem test_wf_refuses_16 : ([.protHoldoffExpiry 0 4,
    .protWtrExpiry 16,
    .protFailTimeout 16,
    .pmSecondLatch 16,
    .pmLatch 16,
    .pmLatchFreeRun 16,
    .tplCommit 128 0,
    .tplCommit 0 256,
    .tplRead 128 0,
    .tplRead 0 256,
    .tplInvalidate 128 0,
    .tplInvalidate 0 256] : List Instr).all (fun i => !i.wellFormed) = true := by decide
theorem test_wf_refuses_17 : ([.clsInsert 16 true 0,
    .clsInsert 0 true 256,
    .clsDelete 16 0,
    .clsDelete 0 256,
    .clsRead 16 0,
    .clsRead 0 256,
    .clsAbort 256,
    .patWrite 2048 0,
    .patWrite 0 256,
    .patRead 2048 0,
    .patRead 0 256,
    .patAbort 256] : List Instr).all (fun i => !i.wellFormed) = true := by decide
theorem test_wf_refuses_18 : ([.epochWriteBack 4097,
    .ageSweepStart 16,
    .ageSweepVisit 16,
    .shdCompare 16 0 none,
    .shdCompare 0 4294967296 none,
    .shdRecheck 16 0 none,
    .shdRecheck 0 4294967296 none,
    .tdmaDoorbell 4 0 0,
    .tdmaDoorbell 0 128 0,
    .tdmaDoorbell 0 0 256,
    .tdmaRead 4 [],
    .tdmaWrite 4 [] none] : List Instr).all (fun i => !i.wellFormed) = true := by decide
theorem test_wf_refuses_19 : ([.tdmaInsert 4 [] none,
    .tdmaDelete 4 [] none,
    .tdmaSearch 4 [] none,
    .tdmaLock 4 [],
    .tdmaUnlock 4 [],
    .tdmaUnlockDiscard 4 [],
    .tdmaEpochCommit 4 [],
    .tdmaAbort 4 [],
    .tdmaRingDisable 4 [],
    .rsWrite 4 0 0,
    .rsWrite 0 4 0,
    .rsWrite 0 0 256] : List Instr).all (fun i => !i.wellFormed) = true := by decide
theorem test_wf_refuses_20 : ([.rsRead 4 0 0,
    .rsRead 0 4 0,
    .rsRead 0 0 256,
    .rsInvalidate 4 0 0,
    .rsInvalidate 0 4 0,
    .rsInvalidate 0 0 256,
    .moveWindow 4 0 0,
    .moveWindow 0 4 0,
    .moveWindow 0 0 256,
    .rsAbort 4 0,
    .rsAbort 0 256,
    .hbmReadComplete 128 0] : List Instr).all (fun i => !i.wellFormed) = true := by decide
theorem test_wf_refuses_21 : ([.hbmReadComplete 0 4,
    .hbmWriteDrain 128,
    .hbmParityAlert 128 true,
    .hbmRefresh 128,
    .hbmTempRead 4 0,
    .hbmTempRead 0 256,
    .hbmScrub 4 0 true,
    .hbmScrub 0 4 true,
    .hbmWindowAccess 65536 none,
    .pcieLinkTrain 8 0 true,
    .pcieConfigRequest 1026 0 0 none,
    .pcieConfigRequest 0 4096 0 none] : List Instr).all (fun i => !i.wellFormed) = true := by decide
theorem test_wf_refuses_22 : ([.pcieConfigRequest 0 0 16 none,
    .pcieMemWrite 1026 0 0 [] true true true true,
    .pcieMemWrite 0 6 0 [] true true true true,
    .pcieMemWrite 0 0 67108864 [] true true true true,
    .pcieMemRead 1026 0 0 0 true true,
    .pcieMemRead 0 6 0 0 true true,
    .pcieMemRead 0 0 67108864 0 true true,
    .pcieMemRead 0 0 0 1024 true true,
    .pcieCompletion 1026 0 0 0 [] true true,
    .pcieCompletion 0 16384 0 0 [] true true,
    .pcieCompletion 0 0 65536 0 [] true true,
    .pcieCompletion 0 0 0 8 [] true true] : List Instr).all (fun i => !i.wellFormed) = true := by decide
theorem test_wf_refuses_23 : ([.pcieCompletionTimeout 1026 0,
    .pcieCompletionTimeout 0 16384,
    .tagQuarantineExpiry 1026 0,
    .tagQuarantineExpiry 0 16384,
    .bmeClear 1026 0,
    .flrStart 1026 0,
    .flrDeadline 1026 0,
    .flrDeadline 0 16384,
    .flrComplete 1026,
    .vfEnable 65536,
    .vfRemove 65536 0,
    .msixUnmask 1026 0] : List Instr).all (fun i => !i.wellFormed) = true := by decide
theorem test_wf_refuses_24 : ([.msixUnmask 0 2048,
    .txTailWrite 8192 0,
    .txTailWrite 0 65536,
    .rxTailWrite 8192 0,
    .rxTailWrite 0 65536,
    .cqHeadWrite 8192 0,
    .cqHeadWrite 0 65536,
    .cqArm 8192,
    .txDescriptorFetch 8192 none,
    .txFrameComplete 8192,
    .cqModerationTimeout 8192,
    .mbxSend 1025] : List Instr).all (fun i => !i.wellFormed) = true := by decide
theorem test_wf_refuses_25 : ([.vfMbxTake 1025,
    .vfmMbxAck 256,
    .vfmMbxReply 256,
    .assignQp 256,
    .releaseQp 256,
    .vfFreeze 256,
    .vfUnfreeze 256,
    .vfSave 256,
    .vfRestore 256 none,
    .logStart 256,
    .logSwap 256 [],
    .logStop 256 []] : List Instr).all (fun i => !i.wellFormed) = true := by decide
theorem test_wf_refuses_26 : ([.writeCtx 256,
    .readCtx 256,
    .qpEnable 256,
    .qpDisable 256,
    .qpDrainComplete 8192,
    .ipsSaWrite 256,
    .ipsSaRead 256,
    .ipsSaInvalidate 256,
    .kwWrap 16 0 true,
    .kwWrap 0 256 true,
    .kwUnwrap 16 0 0 0 true,
    .kwUnwrap 0 4 0 0 true] : List Instr).all (fun i => !i.wellFormed) = true := by decide
theorem test_wf_refuses_27 : ([.kwUnwrap 0 0 16 0 true,
    .kwUnwrap 0 0 0 256 true,
    .kwCheck 16 0 true,
    .kwCheck 0 256 true,
    .kwLoadKek 16 0,
    .kwLoadKek 0 256,
    .nvWrite 256,
    .nvRead 256,
    .nvResyncRx 256,
    .nvResyncTx 256,
    .bfdTxTimer 65536,
    .bfdDetectTimeout 65536] : List Instr).all (fun i => !i.wellFormed) = true := by decide
theorem test_wf_refuses_28 : ([.sessWrite true 4 0,
    .sessWrite true 0 256,
    .sessRead 256,
    .sessDelete 256,
    .tplWriteSvc 256,
    .tplReadSvc 256,
    .rspWrite 256,
    .rspRead 256,
    .rspInvalidate 256,
    .ntmValidWrite 4294967296,
    .ntNowRead 2 true,
    .todRxMessage []] : List Instr).all (fun i => !i.wellFormed) = true := by decide
theorem test_wf_refuses_29 : ([.synceSquelch 4,
    .synceResume 4,
    .taqPost 256,
    .taqCancel 64 0,
    .taqCancel 0 256,
    .taqRead 64 0,
    .taqRead 0 256,
    .bonReportNow 256,
    .bonSelectWin 256,
    .bonCfgTap 256,
    .bonCfgReport 256,
    .bonSeal 256] : List Instr).all (fun i => !i.wellFormed) = true := by decide
theorem test_wf_refuses_30 : ([.spGrantRequest 2,
    .spHeartbeat 2,
    .spSwitchover 256,
    .spRestartStandby 256,
    .spRestartRelease 2,
    .spTakeoverDone 2,
    .spHeldRelease 2,
    .spSyncComplete 2,
    .spHealthPost 2,
    .spHealthStale 2,
    .gauntletStep 2 true,
    .bootSlotSelect 2 true []] : List Instr).all (fun i => !i.wellFormed) = true := by decide
theorem test_wf_refuses_31 : ([.fwStage 3 0 .hostError,
    .fwStage 0 256 .hostError,
    .fwStageConfig 256 .hostError,
    .fwVerify 3 0 true,
    .fwVerify 0 256 true,
    .fwArm 3 0,
    .fwArm 0 256,
    .fwDisarm 256,
    .fwActivateNow 256,
    .fwReject 256,
    .svnAdvance 256 true,
    .flashRead 256 true] : List Instr).all (fun i => !i.wellFormed) = true := by decide
theorem test_wf_refuses_32 : ([.fwuAbort 256,
    .secQuote 256,
    .secChallenge 256,
    .secUnlock 256,
    .traceClear 256,
    .traceDump 256 .written,
    .traceAbort 256,
    .logAppend 256,
    .logDump 256 .written,
    .logAbort 256,
    .legAliasRead 3 0,
    .legAliasRead 0 2064] : List Instr).all (fun i => !i.wellFormed) = true := by decide
theorem test_wf_refuses_33 : ([.domPowerOn 24,
    .domPowerOff 24,
    .domTransitionComplete 24,
    .thermRead 256 0,
    .thermRead 0 256,
    .refOutOfRange 3 0,
    .refOutOfRange 0 65536,
    .pllLockLoss 8,
    .pllRelock 8,
    .powerOnReset true 4096,
    .startupFail 8,
    .warmReset 65536] : List Instr).all (fun i => !i.wellFormed) = true := by decide
theorem test_wf_refuses_34 : ([.strapChange true 4096,
    .railFault 7,
    .portLinkStateChange 256 true true true true true true,
    .laneCdrLock 256 0 0,
    .laneCdrLock 0 256 0,
    .laneCdrLock 0 0 256,
    .prbsCheckerLock 256 true 0,
    .pauseTimeExpiry 256 0,
    .pauseTimeExpiry 0 9,
    .lpiRxChange 256 true] : List Instr).all (fun i => !i.wellFormed) = true := by decide
theorem test_wf_accepts_1 : ([.registerWrite 0 0 0 0 true,
    .malformedSpAccess 1 0 0 true,
    .unmappedPageAccess 0 0 0 true,
    .registerAccessTimeout 0 0 0 true,
    .rcFieldRead 0 0 0 true,
    .counterLoRead 0 0 0,
    .resultAliasRead 0 0 0,
    .intForceWrite 0 0 0,
    .intRearm 0 0,
    .cntClearAll 0 0,
    .softReset 0 0,
    .softResetComplete 0,
    .localStrobe 0,
    .bandReplayRequest true 0,
    .macRxFrame 0 .whole [] 0 [] true,
    .parkResume 0 0 true] : List Instr).all Instr.wellFormed = true := by decide
theorem test_wf_accepts_2 : ([.pmmScanDone 0 0,
    .ordResult 0 0,
    .ordGapTimeout 0,
    .spillWriteComplete 0 0,
    .brmReadback 0,
    .readbackComplete 0 true,
    .schedDecision 0 true,
    .mscTakeFrame 0,
    .eppDeal true 0,
    .macTxFrame 0,
    .bufferFree 0 0 0,
    .felCellArrive 0 [] [],
    .felSlotSend 0 true,
    .linerCell 0 [] [] true,
    .linerTimeout 0 0,
    .linerCtxIdle 0 0] : List Instr).all Instr.wellFormed = true := by decide
theorem test_wf_accepts_3 : ([.linkEnable 0,
    .linkDisable 0,
    .linkAdaptDone 0 0,
    .linkAdaptTimeout 0,
    .superframeLock 0,
    .linkLockTimeout 0,
    .superframeLockLoss 0,
    .uncorrThreshold 0,
    .helloReceive 0 [],
    .helloSend 0,
    .helloTimeout 0,
    .linkForceDown 0,
    .linkHolddownExpiry 0,
    .linkDozeRequest 0,
    .dozeReqReceive 0 [],
    .dozeAckReceive 0 []] : List Instr).all Instr.wellFormed = true := by decide
theorem test_wf_accepts_4 : ([.linkWake 0 true,
    .linkWakeDone 0,
    .linkWakeTimeout 0,
    .reachSend 0,
    .reachReceive 0 [],
    .fcReceive 0 [],
    .unknownControlCell 0 [],
    .strobeCellReceive 0 [],
    .residueReady 0 0,
    .residueTimeout 0,
    .replicaCompletion 0 0 true,
    .qsuFlush true 0,
    .qsuAbort 0,
    .nodeWrite 1 0,
    .nodeRead 1 0,
    .shpProfileWrite 0 0 0] : List Instr).all Instr.wellFormed = true := by decide
theorem test_wf_accepts_5 : ([.admProfileWrite 0 0 0,
    .mcrGroupWrite 0,
    .mcrListWrite 0,
    .laneCtlWrite 0 0,
    .laneAdapt 0,
    .txFirWrite 0 0,
    .portApply 0 0,
    .serWindowEnd 0 0 0 0,
    .linkTrainingDone 0 true,
    .cdrLockLoss 0,
    .pauseWdTrip 0 0,
    .pauseWdRecoverEnd 0 0,
    .preemptVerify 0 true,
    .lpiEnter 0,
    .tsPop 0,
    .mscSaWrite 0 0] : List Instr).all Instr.wellFormed = true := by decide
theorem test_wf_accepts_6 : ([.mscSaRead 0 0,
    .mscSaInvalidate 0 0,
    .cageDebounceDone 0,
    .cagePgTimeout 0,
    .cageResetHoldDone 0,
    .cageInitTimeout 0,
    .cageDatapathActivated 0 true,
    .cageManualReady 0,
    .cageForceLpmode 0 true,
    .cagePowerCycle 0,
    .cagePowerCycleEnd 0,
    .cageFaultClr 0,
    .cageRemovalDone 0,
    .mmRead 0 0 0,
    .mmWrite 0 0 0,
    .mmAbort 0 0] : List Instr).all Instr.wellFormed = true := by decide
theorem test_wf_accepts_7 : ([.mmTransactionDone 0 [] true,
    .mmStretchTimeout 0,
    .mmSdaStuck 0,
    .lfuClientWrite 0 0 0,
    .flexeSwitchTrigger 0,
    .flexeOhFrame 0,
    .flexeOhReceive 0 [] [] [] false 0 0 0 0,
    .flexeCaReceive 0 0,
    .flexeCaTimeout 0,
    .flexeCrReceive 0 0,
    .flexeRxCChange 0 0,
    .otnEnable 0,
    .otnSwitchTrigger 0,
    .otnTxMapSwitch 0,
    .otnRxMapSwitch 0,
    .otnFrame 0 0 [] {}] : List Instr).all Instr.wellFormed = true := by decide
theorem test_wf_accepts_8 : ([.otnLofDeclare 0,
    .otnLofClear 0,
    .protCommand 0 0,
    .protHoldoffExpiry 0 0,
    .protWtrExpiry 0,
    .protFailTimeout 0,
    .pmSecondLatch 0,
    .pmLatch 0,
    .pmLatchFreeRun 0,
    .tplCommit 0 0,
    .tplRead 0 0,
    .tplInvalidate 0 0,
    .clsInsert 0 true 0,
    .clsDelete 0 0,
    .clsRead 0 0,
    .clsAbort 0] : List Instr).all Instr.wellFormed = true := by decide
theorem test_wf_accepts_9 : ([.patWrite 0 0,
    .patRead 0 0,
    .patAbort 0,
    .epochWriteBack 0,
    .ageSweepStart 0,
    .ageSweepVisit 0,
    .shdCompare 0 0 none,
    .shdRecheck 0 0 none,
    .tdmaDoorbell 0 0 0,
    .tdmaRead 0 [],
    .tdmaWrite 0 [] none,
    .tdmaInsert 0 [] none,
    .tdmaDelete 0 [] none,
    .tdmaSearch 0 [] none,
    .tdmaLock 0 [],
    .tdmaUnlock 0 []] : List Instr).all Instr.wellFormed = true := by decide
theorem test_wf_accepts_10 : ([.tdmaUnlockDiscard 0 [],
    .tdmaEpochCommit 0 [],
    .tdmaAbort 0 [],
    .tdmaRingDisable 0 [],
    .rsWrite 0 0 0,
    .rsRead 0 0 0,
    .rsInvalidate 0 0 0,
    .moveWindow 0 0 0,
    .rsAbort 0 0,
    .hbmReadComplete 0 0,
    .hbmWriteDrain 0,
    .hbmParityAlert 0 true,
    .hbmRefresh 0,
    .hbmTempRead 0 0,
    .hbmScrub 0 0 true,
    .hbmWindowAccess 0 none] : List Instr).all Instr.wellFormed = true := by decide
theorem test_wf_accepts_11 : ([.pcieLinkTrain 0 0 true,
    .pcieConfigRequest 0 0 0 none,
    .pcieMemWrite 0 0 0 [] true true true true,
    .pcieMemRead 0 0 0 0 true true,
    .pcieCompletion 0 0 0 0 [] true true,
    .pcieCompletionTimeout 0 0,
    .tagQuarantineExpiry 0 0,
    .bmeClear 0 0,
    .flrStart 0 0,
    .flrDeadline 0 0,
    .flrComplete 0,
    .vfEnable 0,
    .vfRemove 0 0,
    .msixUnmask 0 0,
    .txTailWrite 0 0,
    .rxTailWrite 0 0] : List Instr).all Instr.wellFormed = true := by decide
theorem test_wf_accepts_12 : ([.cqHeadWrite 0 0,
    .cqArm 0,
    .txDescriptorFetch 0 none,
    .txFrameComplete 0,
    .cqModerationTimeout 0,
    .mbxSend 0,
    .vfMbxTake 0,
    .vfmMbxAck 0,
    .vfmMbxReply 0,
    .assignQp 0,
    .releaseQp 0,
    .vfFreeze 0,
    .vfUnfreeze 0,
    .vfSave 0,
    .vfRestore 0 none,
    .logStart 0] : List Instr).all Instr.wellFormed = true := by decide
theorem test_wf_accepts_13 : ([.logSwap 0 [],
    .logStop 0 [],
    .writeCtx 0,
    .readCtx 0,
    .qpEnable 0,
    .qpDisable 0,
    .qpDrainComplete 0,
    .ipsSaWrite 0,
    .ipsSaRead 0,
    .ipsSaInvalidate 0,
    .kwWrap 0 0 true,
    .kwUnwrap 0 0 0 0 true,
    .kwCheck 0 0 true,
    .kwLoadKek 0 0,
    .nvWrite 0,
    .nvRead 0] : List Instr).all Instr.wellFormed = true := by decide
theorem test_wf_accepts_14 : ([.nvResyncRx 0,
    .nvResyncTx 0,
    .bfdTxTimer 0,
    .bfdDetectTimeout 0,
    .sessWrite true 0 0,
    .sessRead 0,
    .sessDelete 0,
    .tplWriteSvc 0,
    .tplReadSvc 0,
    .rspWrite 0,
    .rspRead 0,
    .rspInvalidate 0,
    .ntmValidWrite 0,
    .ntNowRead 0 true,
    .synceSquelch 0,
    .synceResume 0] : List Instr).all Instr.wellFormed = true := by decide
theorem test_wf_accepts_15 : ([.taqPost 0,
    .taqCancel 0 0,
    .taqRead 0 0,
    .bonReportNow 0,
    .bonSelectWin 0,
    .bonCfgTap 0,
    .bonCfgReport 0,
    .bonSeal 0,
    .spGrantRequest 0,
    .spHeartbeat 0,
    .spSwitchover 0,
    .spRestartStandby 0,
    .spRestartRelease 0,
    .spTakeoverDone 0,
    .spHeldRelease 0,
    .spSyncComplete 0] : List Instr).all Instr.wellFormed = true := by decide
theorem test_wf_accepts_16 : ([.spHealthPost 0,
    .spHealthStale 0,
    .gauntletStep 0 true,
    .bootSlotSelect 0 true [],
    .fwStage 0 0 .hostError,
    .fwStageConfig 0 .hostError,
    .fwVerify 0 0 true,
    .fwArm 0 0,
    .fwDisarm 0,
    .fwActivateNow 0,
    .fwReject 0,
    .svnAdvance 0 true,
    .flashRead 0 true,
    .fwuAbort 0,
    .secQuote 0,
    .secChallenge 0] : List Instr).all Instr.wellFormed = true := by decide
theorem test_wf_accepts_17 : ([.secUnlock 0,
    .traceClear 0,
    .traceDump 0 .written,
    .traceAbort 0,
    .logAppend 0,
    .logDump 0 .written,
    .logAbort 0,
    .legAliasRead 0 0,
    .domPowerOn 0,
    .domPowerOff 0,
    .domTransitionComplete 0,
    .thermRead 0 0,
    .refOutOfRange 0 0,
    .pllLockLoss 0,
    .pllRelock 0,
    .powerOnReset true 0] : List Instr).all Instr.wellFormed = true := by decide
theorem test_wf_accepts_18 : ([.startupFail 0,
    .warmReset 0,
    .strapChange true 0,
    .railFault 0,
    .portLinkStateChange 0 true true true true true true,
    .laneCdrLock 0 0 0,
    .prbsCheckerLock 0 true 0,
    .pauseTimeExpiry 0 0,
    .lpiRxChange 0 true] : List Instr).all Instr.wellFormed = true := by decide

/-! ### Single steps -/



/-! ### Witnesses -/

theorem test_witness_step_runs_front_command :
  (∃ (c : Instr) (rest : List Instr) (s : State), s.pending = c :: rest) :=
  ⟨.strobeFire, [.dealFrame], { State.reset with pending := [.strobeFire, .dealFrame] }, by decide⟩

theorem test_witness_idle_step_is_one_tick :
  (∃ (s : State), s.pending = []) :=
  ⟨State.reset, by decide⟩

theorem test_witness_step_keeps_registers_ordered :
  (∃ (s t : State), s.RegsOrdered ∧ step s = .next t) :=
  ⟨{ State.reset with pending := [.strobeFire] }, _, by decide, rfl⟩

theorem test_witness_step_keeps_hbm_canonical :
  (∃ (s t : State), s.MemCanonical ∧ step s = .next t) :=
  ⟨{ State.reset with pending := [.strobeFire] }, _, by decide, rfl⟩

theorem test_witness_step_keeps_network_time :
  (∃ (s t : State), s.nt.ok ∧ step s = .next t) :=
  ⟨{ State.reset with pending := [.strobeFire] }, _, by simp [NetTime.ok]; decide, rfl⟩

theorem test_witness_lane_registers :
  (∃ (s : State) (lane : Nat) (v : Nat), lane < 256 ∧ s.live (lnp lane) = true ∧ s.laneRefused lane v = false) ∧
  (∃ (s : State) (lane : Nat), lane < 256 ∧ s.live (lnp lane) = true) ∧
  (∃ (s : State) (lane : Nat) (v : Nat), lane < 256 ∧ s.live (lnp lane) = true ∧ firTooBig v = false) ∧
  (∃ (s : State) (lane : Nat), lane < 256 ∧ s.live (lnp lane) = true ∧ s.laneOn lane = true ∧ s.on (lnp lane) LNP.LANE_CTL_RX_EN (lane % 16) = true) ∧
  (∃ (s : State) (lane : Nat), lane < 256 ∧ s.live (lnp lane) = true ∧ s.on (lnp lane) LNP.LANE_STS_CDR_LOCK (lane % 16) = true) ∧
  (∃ (s : State) (lane : Nat), lane < 256 ∧ s.live (lnp lane) = true ∧ s.on (lnp lane) LNP.PRBS_CTL_CHK_EN (lane % 16) = true) ∧
  (∃ (s : State) (lane : Nat), lane < 256 ∧ s.live (lnp lane) = true ∧ s.on (lnp lane) LNP.LANE_CTL_LT_EN (lane % 16) = true) :=
  ⟨⟨wLine, 3, 0, by decide⟩,
   ⟨wLine, 3, by decide⟩,
   ⟨wLine, 3, 0, by decide⟩,
   ⟨wst [(0x10, LNP.LANE_CTL_RATE, 3, 3), (0x10, LNP.LANE_CTL_RX_EN, 1, 3)], 3, by decide⟩,
   ⟨wst [(0x10, LNP.LANE_STS_CDR_LOCK, 1, 3)], 3, by decide⟩,
   ⟨wst [(0x10, LNP.PRBS_CTL_CHK_EN, 1, 3)], 3, by decide⟩,
   ⟨wst [(0x10, LNP.LANE_CTL_LT_EN, 1, 3)], 3, by decide⟩⟩

theorem test_witness_line_ports :
  (∃ (s : State) (slot : Nat) (v : Nat), slot < 256 ∧ s.live (lnp slot) = true ∧ s.fabric = false ∧ bits v 0 2 = 0) ∧
  (∃ (s : State) (slot : Nat) (v : Nat), slot < 256 ∧ s.live (lnp slot) = true ∧ s.fabric = false ∧ bits v 0 2 ≠ 0 ∧ s.portAccepted slot v = true) ∧
  (∃ (s : State) (slot : Nat) (corr : Nat) (uncorr : Nat) (syms : Nat) (n : Nat), slot < 256 ∧ s.live (lnp slot) = true ∧ (s.mac slot).mode ≠ 0 ∧ fecLimit (s.mac slot).fec = some n ∧ corr ≤ syms ∧ syms ≤ n * corr ∧ corr + uncorr ≤ 1024 * s.rd (lnp slot) LNP.SER_WINDOW_CW ∧ s.rd (lnp slot) LNP.DEG_SET_COUNT ≤ syms) ∧
  (∃ (s : State) (slot : Nat), slot < 256 ∧ s.live (lnp slot) = true ∧ (s.mac slot).mode = 1) ∧
  (∃ (s : State) (slot : Nat) (prio : Nat), slot < 256 ∧ s.live (msc slot) = true ∧ bit (s.mac slot).paused prio = true ∧ (s.mac slot).pauseEnd.getD prio 0 ≤ s.ticks) ∧
  (∃ (s : State) (slot : Nat) (prio : Nat), slot < 256 ∧ s.live (msc slot) = true ∧ bit (s.mac slot).paused prio = true ∧ s.rd (msc slot) MSC.PAUSE_WD_TIMEOUT_MS (slot % 16) ≠ 0 ∧ (s.mac slot).pauseFrom.getD prio 0 + ticksMs (s.rd (msc slot) MSC.PAUSE_WD_TIMEOUT_MS (slot % 16)) ≤ s.ticks) ∧
  (∃ (s : State) (slot : Nat) (prio : Nat), slot < 256 ∧ s.live (msc slot) = true ∧ bit (s.mac slot).ignoring prio = true ∧ (s.mac slot).tripAt.getD prio 0 + ticksMs (s.rd (msc slot) MSC.PAUSE_WD_RECOVER_MS (slot % 16)) ≤ s.ticks) :=
  ⟨⟨wLine, 3, 0, by decide⟩,
   ⟨wPort, 0, 0x321, by decide⟩,
   ⟨wDeg, 3, 1, 1, 7, 15, by decide⟩,
   ⟨wMac, 3, by decide⟩,
   ⟨wMac, 3, 2, by decide⟩,
   ⟨{ wMac.wr 0x20 MSC.PAUSE_WD_TIMEOUT_MS 5 3 with ticks := 4000000 }, 3, 2, by decide⟩,
   ⟨{ wMac with ticks := 2 ^ 40 }, 3, 4, by decide⟩⟩

theorem test_witness_line_mac :
  (∃ (s : State) (slot : Nat), slot < 256 ∧ s.live (msc slot) = true ∧ s.on (msc slot) MSC.PREEMPT_CTL_EN (slot % 16) = true ∧ s.on (msc slot) MSC.PREEMPT_CTL_VERIFY_DIS (slot % 16) = false) ∧
  (∃ (s : State) (slot : Nat), slot < 256 ∧ s.live (msc slot) = true ∧ s.on (msc slot) MSC.MAC_CTL_LPI_EN (slot % 16) = true ∧ (s.mac slot).idle = true ∧ s.on (msc slot) MSC.MAC_STS_LPI_TX (slot % 16) = false ∧ (s.mac slot).idleFrom + ticksUs (s.rd (msc slot) MSC.LPI_CTL_TX_IDLE_US (slot % 16)) ≤ s.ticks) ∧
  (∃ (s : State) (slot : Nat), slot < 256 ∧ s.live (msc slot) = true) ∧
  (∃ (s : State) (i : Nat), i < 16 ∧ s.live (pgMSC i) = true) ∧
  (∃ (s : State) (i : Nat), i < 16 ∧ s.live (pgMSC i) = true ∧ s.saCurrent i = false) ∧
  (∃ (s : State) (i : Nat), i < 16 ∧ s.live (pgMSC i) = true ∧ s.saCurrent i = true) ∧
  (∃ (s : State) (i : Nat), i < 16 ∧ s.live (pgMSC i) = true) ∧
  (∃ (s : State) (i : Nat), i < 16 ∧ s.live (pgMSC i) = true) :=
  ⟨⟨wst [(0x20, MSC.PREEMPT_CTL_EN, 1, 3)], 3, by decide⟩,
   ⟨{ wst [(0x20, MSC.MAC_CTL_LPI_EN, 1, 3)] with ticks := 2 ^ 40 }, 3, by decide⟩,
   ⟨wLine, 3, by decide⟩,
   ⟨wLine, 3, by decide⟩,
   ⟨wst [(0x23, MSC.SA_IDX_INDEX, 5, 0)], 3, by decide⟩,
   ⟨wst [(0x23, MSC.SA_IDX_DIR, 1, 0)], 3, by decide⟩,
   ⟨wLine, 3, by decide⟩,
   ⟨wLine, 3, by decide⟩⟩

theorem test_witness_register_accesses :
  (∃ (s : State) (who : Nat) (page : Nat), who < 3 ∧ page < 1024 ∧ page ≠ pgBON ∧ s.Reaches page 0xC ∧ s.spBarred who page 0xC = false) ∧
  (∃ (s : State) (who : Nat) (page : Nat), who < 3 ∧ page < 1024 ∧ s.Reaches page 0x20 ∧ s.spBarred who page 0x20 = false) ∧
  (∃ (s : State) (who : Nat), who < 3 ∧ s.Reaches pgLOG 0x110) ∧
  (∃ (s : State) (who : Nat), who < 3 ∧ s.Reaches pgTAQ 0x200) ∧
  (∃ (s : State) (who : Nat), who < 3 ∧ s.Reaches pgTAQ 0x980) :=
  ⟨⟨wLine, 0, 4, by decide⟩,
   ⟨wLine, 0, 4, by decide⟩,
   ⟨wLine, 0, by decide⟩,
   ⟨wLine, 0, by decide⟩,
   ⟨wLine, 0, by decide⟩⟩

theorem test_witness_access_errors :
  (∃ (s : State) (who : Nat), who < 3 ∧ s.live pgCRWN = true) ∧
  (∃ (s : State) (who : Nat), who < 3 ∧ s.live pgCRWN = true) :=
  ⟨⟨wLine, 1, by decide⟩,
   ⟨wLine, 1, by decide⟩⟩

theorem test_witness_unpopulated_pages :
  (∃ (s : State) (who : Nat) (page : Nat), who < 3 ∧ page < 1024 ∧ pageAt page = none ∧ s.live pgCRWN = true) ∧
  (∃ (s : State) (who : Nat) (page : Nat) (off : Nat), who < 3 ∧ page < 1024 ∧ pageAt page = none ∧ s.live pgCRWN = true ∧ s.spBarred who page off = false) :=
  ⟨⟨wLine, 1, 1023, by decide⟩,
   ⟨wLine, 0, 1023, 0, by decide⟩⟩

theorem test_witness_common_registers :
  (∃ (s : State) (who : Nat) (page : Nat), who < 3 ∧ page < 1024 ∧ s.Reaches page 0x28 ∧ s.spBarred who page 0x28 = false) ∧
  (∃ (s : State) (who : Nat) (v : Nat) (p : Nat), who < 3 ∧ s.Reaches pgCRWN 0x14C ∧ s.spBarred who pgCRWN 0x14C = false ∧ s.on pgCRWN CRWN.INT_GCTL_HOST_EN = true ∧ p ∈ pages ∧ s.live p = true ∧ s.summary p = true ∧ s.hostRoute p = true ∧ s.vecOf p = bits v 0 6 ∧ (s.fnS 1).delivers (bits v 0 6) = true) ∧
  (∃ (s : State) (who : Nat) (page : Nat), who < 3 ∧ page < 1024 ∧ page ≠ pgBON ∧ s.Reaches page 0xF0 ∧ s.spBarred who page 0xF0 = false) ∧
  (∃ (s : State) (who : Nat), who < 3 ∧ s.Reaches pgLOG 0x10 ∧ s.spBarred who pgLOG 0x10 = false ∧ s.on pgLOG COMMON.PAGE_CTL_SOFT_RESET = false) ∧
  (∃ (s : State) (page : Nat), page < 1024 ∧ s.live page = true) :=
  ⟨⟨wLine, 0, 4, by decide⟩,
   ⟨wArm, 0, 0, 4, by decide⟩,
   ⟨wLine, 0, 4, by decide⟩,
   ⟨wLine, 0, by decide⟩,
   ⟨wLine, 4, by decide⟩⟩

theorem test_witness_common_strobe :
  (∃ (s : State) (page : Nat), (pageAt page).isSome = true ∧ s.Reaches page 0x40 ∧ s.on page COMMON.PAGE_CTL_SNAP_EN = true ∧ s.on page COMMON.SNAP_CTL_HOLD = false) ∧
  (∃ (s : State), s.crownUp = true ∧ s.strobeAt = none) ∧
  (∃ (s : State), s.crownUp = true ∧ s.on pgCRWN CRWN.STROBE_CTL_PIN_EN = true ∧ s.strobeAt = none) ∧
  (∃ (s : State), s.crownUp = true) :=
  ⟨⟨wLine, 4, by decide⟩,
   ⟨wUp, by decide⟩,
   ⟨wUp, by decide⟩,
   ⟨wUp, by decide⟩⟩

set_option maxRecDepth 40000 in
theorem test_witness_band_flits :
  (∃ (s : State) (toQd : Bool) (waiting : List BandMsg) (p : List Byte), s.bandLive = true ∧ (s.bandDir toQd).retained.length < 2048 ∧ s.on pgBAND BAND.BAND_CTL_VC0_STRICT = true ∧ ((s.bandDir toQd).accept waiting).stream[0]? = some p ∧ p ≠ []) ∧
  (∃ (s : State) (toQd : Bool), s.bandLive = true ∧ 2048 ≤ (s.bandDir toQd).retained.length) ∧
  (∃ (s : State) (toQd : Bool) (flit : List Byte), s.bandLive = true ∧ flitGood flit = true ∧ (decodeFlit flit).kind = kDATA ∧ (decodeFlit flit).seq = (s.bandDir toQd).expect) ∧
  (∃ (s : State) (toQd : Bool), s.bandLive = true ∧ (s.bandDir toQd).replaying = false) ∧
  (∃ (s : State) (toQd : Bool) (seq : Nat) (k : Nat), s.bandLive = true ∧ ((s.bandDir toQd).retained.findIdx? fun f => decide (f.seq = seq % 4096)) = some k) :=
  ⟨⟨wBand, true, [.frame true [7]], [7], by decide⟩,
   ⟨wFullBand, true, ⟨by decide, Nat.le_of_eq (List.length_replicate (n := 2048) (a := wFlit)).symm⟩⟩,
   ⟨wBand, true, Flit.encode { vc := 1, kind := kDATA, seq := 0, ack := 0, payload := List.replicate 122 5 }, by decide⟩,
   ⟨wBand, true, by decide⟩,
   ⟨{ wBand with bandFQ := { retained := [{ vc := 0, kind := 0, seq := 0, ack := 0, payload := [] }] } }, true, 0, 0, by decide⟩⟩

theorem test_witness_band_retraining :
  (∃ (s : State), s.live pgBAND = true) ∧
  (∃ (s : State) (toQd : Bool), s.bandLive = true ∧ (s.bandDir toQd).replaying = true ∧ s.bandLimit ≤ (s.bandDir toQd).fails) ∧
  (∃ (s : State), s.live pgBAND = true ∧ s.on pgBAND BAND.BAND_STS_RETRAINING = true ∧ s.bandWait = []) ∧
  (∃ (s : State), s.live pgBAND = true ∧ s.on pgBAND BAND.BAND_STS_RETRAINING = true) :=
  ⟨⟨wBand, by decide⟩,
   ⟨{ wBand with bandFQ := { replaying := true, fails := 8 } }, true, by decide⟩,
   ⟨wst [(pgBAND, BAND.BAND_STS_RETRAINING, 1, 0)], by decide⟩,
   ⟨wst [(pgBAND, BAND.BAND_STS_RETRAINING, 1, 0)], by decide⟩⟩

theorem test_witness_power_domains :
  (∃ (s : State) (dom : Nat), dom ≠ 0 ∧ dom ≠ 21 ∧ dom < 24 ∧ s.warming = false ∧ tget s.domTrans dom = none ∧ s.serdesWait.contains dom = false ∧ s.domRefused dom true = false ∧ s.domOn dom = false ∧ (isSerdesDom dom && s.serdesBusy) = false) ∧
  (∃ (s : State) (dom : Nat), dom ≠ 0 ∧ dom ≠ 21 ∧ dom < 24 ∧ s.warming = false ∧ tget s.domTrans dom = none ∧ s.serdesWait.contains dom = false ∧ s.domRefused dom false = false ∧ s.domOn dom = true) ∧
  (∃ (s : State) (dom : Nat), 3 ≤ dom ∧ dom ≤ 10 ∧ s.warming = false ∧ tget s.domTrans dom = none ∧ s.serdesWait.contains dom = false ∧ s.domRefused dom false = false ∧ s.domOn dom = true) ∧
  (∃ (s : State) (dom : Nat), tget s.domTrans dom = some false ∧ tget s.domHeld dom = none ∧ s.serdesWait = []) ∧
  (∃ (s : State) (dom : Nat), 11 ≤ dom ∧ dom ≤ 18 ∧ tget s.domTrans dom = some true ∧ tget s.domHeld dom = none ∧ s.serdesWait = []) :=
  ⟨⟨State.reset, 3, by decide⟩,
   ⟨wBase, 3, by decide⟩,
   ⟨wBase, 3, by decide⟩,
   ⟨{ wBase with domTrans := [(3, false)] }, 3, by decide⟩,
   ⟨{ wBase with domTrans := [(13, true)] }, 13, by decide⟩⟩

theorem test_witness_temperature_and_clocks :
  (∃ (s : State) (fd : Nat) (qd : Nat), s.pwrgood = true ∧ max (fd % 256) (qd % 256) < s.rd pgPWR PWR.THERM_CFG_TJ_TRIP) ∧
  (∃ (s : State) (stack : Nat) (temp : Nat), stack < 4 ∧ s.live (pgHBC stack) = true ∧ temp < 105) ∧
  (∃ (s : State), s.active.isSome = true ∧ s.on pgSPA SPA.IL_STS_SWITCHING = false ∧ s.on pgPWR PWR.THERM_STS_TRIPPED = false ∧ (s.hbmTripAt.any fun e => decide (e.2 + ticksMs 30000 ≤ s.ticks)) = true) ∧
  (∃ (s : State), s.on pgCLK CLK.REF_STS_SYSCLK_OK = true ∧ s.live pgCLK = true) ∧
  (∃ (s : State), 1 ≤ s.rd pgRST RST.START_STS_STEP) ∧
  (∃ (ref : Nat), ref < 3) ∧
  (∃ (s : State) (pll : Nat), pll < 8 ∧ s.live pgCLK = true ∧ bit (s.rd pgCLK CLK.PLL_STS_LOCKED) pll = true) ∧
  (∃ (s : State) (pll : Nat), pll < 8 ∧ s.live pgCLK = true ∧ bit (s.rd pgCLK CLK.PLL_STS_LOCKED) pll = false ∧ (if pll = 7 then s.domOn 21 = true else 2 ≤ s.rd pgRST RST.START_STS_STEP)) ∧
  (∃ (s : State) (rail : Nat), rail < 7 ∧ s.pwrgood = true ∧ s.live pgPWR = true) :=
  ⟨⟨{ wBase with pwrgood := true }, 40, 50, by decide⟩,
   ⟨wBase, 1, 60, by decide⟩,
   ⟨{ wst [(pgSPA, SPA.IL_STS_ROLE_A, 4, 0)] with hbmTripAt := [(0, 0)], ticks := 30000 * 800000 }, by decide⟩,
   ⟨wst [(pgCLK, CLK.REF_STS_SYSCLK_OK, 1, 0)], by decide⟩,
   ⟨wUp, by decide⟩,
   ⟨1, by decide⟩,
   ⟨wst [(pgCLK, CLK.PLL_STS_LOCKED, 255, 0)], 3, by decide⟩,
   ⟨wUp, 3, by decide⟩,
   ⟨{ wBase with pwrgood := true }, 2, by decide⟩⟩

theorem test_witness_resets_and_start_up :
  (∃ (s : State), s.pwrgood = false) ∧
  (∃ (s : State), s.pwrgood = true) ∧
  (∃ (s : State), s.pwrgood = true ∧ s.on pgRST RST.START_STS_DONE = false ∧ s.rd pgRST RST.START_STS_FAIL = 0 ∧ s.rd pgRST RST.START_STS_STEP = 0) ∧
  (∃ (s : State), s.pwrgood = true ∧ s.on pgRST RST.START_STS_DONE = false ∧ s.rd pgRST RST.START_STS_FAIL = 0 ∧ s.rd pgRST RST.START_STS_STEP = 6) ∧
  (∃ (s : State), s.pwrgood = true ∧ s.on pgRST RST.START_STS_DONE = false ∧ s.rd pgRST RST.START_STS_FAIL = 0 ∧ s.rd pgRST RST.START_STS_STEP = 1) ∧
  (∃ (s : State) (key : Nat), s.warmRefused (key % 65536) = false) ∧
  (∃ (s : State) (key : Nat), s.warmRefused (key % 65536) = true ∧ s.live pgRST = true) ∧
  (∃ (s : State), s.perstHigh = false ∧ s.pwrgood = true) ∧
  (∃ (s : State), s.perstHigh = true ∧ s.live pgPCE = true ∧ s.rd pgRST RST.START_STS_FAIL ≠ 1 ∧ s.rd pgRST RST.START_STS_FAIL ≠ 3 ∧ 4 ≤ s.rd pgRST RST.START_STS_STEP ∧ s.perstAt + ticksMs 1 ≤ s.ticks ∧ s.on pgRST RST.START_STS_EP_RELEASED = false) :=
  ⟨⟨State.reset, by decide⟩,
   ⟨{ wBase with pwrgood := true }, by decide⟩,
   ⟨{ wBase with pwrgood := true }, by decide⟩,
   ⟨(wst [(pgRST, RST.START_STS_STEP, 6, 0)] |> fun s => { s with pwrgood := true }), by decide⟩,
   ⟨(wst [(pgRST, RST.START_STS_STEP, 1, 0)] |> fun s => { s with pwrgood := true }), by decide⟩,
   ⟨wst [(pgRST, RST.START_STS_DONE, 1, 0)], 0x5A3C, by decide⟩,
   ⟨wBase, 0, by decide⟩,
   ⟨{ wBase with pwrgood := true }, by decide⟩,
   ⟨(wst [(pgRST, RST.START_STS_STEP, 5, 0)] |> fun s => { s with perstHigh := true, ticks := 8000000 }), by decide⟩⟩

theorem test_witness_bonnet_mailbox :
  (∃ (s : State), s.live pgBON = true ∧ s.bonReport = none) ∧
  (∃ (s : State), s.live pgBON = true ∧ s.bonReport.isSome = true ∧ s.bonAsked ≠ some s.ticks) ∧
  (∃ (s : State), s.live pgBON = true ∧ bits (s.bonArg 0) 0 6 ≤ 34) ∧
  (∃ (s : State), s.live pgBON = true ∧ s.bonSealed = false ∧ bits (s.bonArg 0) 0 10 < 512) ∧
  (∃ (s : State), s.live pgBON = true ∧ s.bonSealed = true) ∧
  (∃ (s : State), s.live pgBON = true ∧ s.bonSealed = false ∧ (s.bonArg 0 = 0 ∨ (60 ≤ s.bonArg 0 ∧ s.bonArg 0 ≤ 86400))) ∧
  (∃ (s : State), s.live pgBON = true ∧ s.bonArg 0 = 0x5345414C ∧ s.bonArg 1 = s.rd pgCRWN CRWN.DEV_SERIAL_LO_SERIAL ∧ s.bonSealed = false ∧ s.ntValid = true ∧ s.bonReport = none) ∧
  (∃ (s : State) (h : List Byte), s.live pgBON = true ∧ s.bonReport = some h) ∧
  (∃ (s : State), s.live pgBON = true ∧ s.bonInterval ≠ 0 ∧ s.nt.sec % s.bonInterval = 0 ∧ s.nt.ns ≤ 1 ∧ s.bonReport = none) ∧
  (∃ (s : State), s.live pgBON = true ∧ s.bonSealed = true) ∧
  (∃ (s : State), s.domOn 21 = false ∧ s.rd pgBON BON.BON_STS_SEALED = 0) ∧
  (∃ (s : State), s.domOn 21 = true) :=
  ⟨⟨wBase, by decide⟩,
   ⟨{ wBase with bonReport := some [] }, by decide⟩,
   ⟨wBase, by decide⟩,
   ⟨wBase, by decide⟩,
   ⟨wst [(pgBON, BON.BON_STS_SEALED, 1, 0)], by decide⟩,
   ⟨wBase, by decide⟩,
   ⟨wst [(pgBON, BON.MBX_ARG_ARG, 0x5345414C, 0), (pgNTM, NTM.NTM_STS_VALID, 1, 0)], by decide⟩,
   ⟨{ wBase with bonReport := some [] }, [], by decide⟩,
   ⟨wBase, by decide⟩,
   ⟨wst [(pgBON, BON.BON_STS_SEALED, 1, 0)], by decide⟩,
   ⟨State.reset, by decide⟩,
   ⟨wBase, by decide⟩⟩

theorem test_witness_cage_states :
  (∃ (s : State) (cage : Nat), cage < 64 ∧ s.live pgCAGE = true ∧ s.cageEn cage = true ∧ s.cageHold = false ∧ s.on pgCAGE CAGE.CSB_STS_CHAIN_FAULT = false ∧ (s.cage cage).cycling = false ∧ s.cageSt cage = cgDebounce ∧ s.cageRan cage (s.rd pgCAGE CAGE.CAGE_TIMING_DEBOUNCE_MS) = true) ∧
  (∃ (s : State) (cage : Nat), cage < 64 ∧ s.live pgCAGE = true ∧ s.cageEn cage = true ∧ s.cageHold = false ∧ s.on pgCAGE CAGE.CSB_STS_CHAIN_FAULT = false ∧ (s.cage cage).cycling = false ∧ ((List.range 64).find? fun c => s.cageEn c && decide (s.cageSt c = cgDebounce) && (s.cage c).waiting) = some cage ∧ s.slotOpen = true) ∧
  (∃ (s : State) (cage : Nat), cage < 64 ∧ s.live pgCAGE = true ∧ s.cageEn cage = true ∧ s.cageHold = false ∧ s.on pgCAGE CAGE.CSB_STS_CHAIN_FAULT = false ∧ (s.cage cage).cycling = false ∧ s.cageSt cage = cgPowering ∧ (s.cage cage).holding = false ∧ s.cageRan cage (s.rd pgCAGE CAGE.CAGE_TIMING_PG_TIMEOUT_MS) = true) ∧
  (∃ (s : State) (cage : Nat), cage < 64 ∧ s.live pgCAGE = true ∧ s.cageEn cage = true ∧ s.cageHold = false ∧ s.on pgCAGE CAGE.CSB_STS_CHAIN_FAULT = false ∧ (s.cage cage).cycling = false ∧ s.cageSt cage = cgInit ∧ s.cageRan cage (s.rd pgCAGE CAGE.CMIS_TMO_INIT_TIMEOUT_MS) = true) ∧
  (∃ (s : State) (cage : Nat), cage < 64 ∧ s.live pgCAGE = true ∧ s.cageEn cage = true ∧ s.cageHold = false ∧ s.on pgCAGE CAGE.CSB_STS_CHAIN_FAULT = false ∧ (s.cage cage).cycling = false ∧ s.cageSt cage = cgInit ∧ s.on pgCAGE CAGE.CAGE_CTL_AUTO cage = true) ∧
  (∃ (s : State) (cage : Nat), cage < 64 ∧ s.live pgCAGE = true ∧ s.cageEn cage = true ∧ s.cageHold = false ∧ s.on pgCAGE CAGE.CSB_STS_CHAIN_FAULT = false ∧ (s.cage cage).cycling = false ∧ s.cageSt cage = cgPowering ∧ (s.cage cage).holding = true ∧ s.cageRan cage (s.rd pgCAGE CAGE.CAGE_TIMING_RESET_HOLD_MS) = true) ∧
  (∃ (s : State) (cage : Nat), cage < 64 ∧ s.live pgCAGE = true ∧ s.cageEn cage = true ∧ s.cageHold = false ∧ s.on pgCAGE CAGE.CSB_STS_CHAIN_FAULT = false ∧ (s.cage cage).cycling = false ∧ s.cageSt cage = cgInit ∧ s.on pgCAGE CAGE.CAGE_CTL_AUTO cage = true) ∧
  (∃ (s : State) (cage : Nat), cage < 64 ∧ s.live pgCAGE = true ∧ s.cageEn cage = true ∧ s.cageHold = false ∧ s.on pgCAGE CAGE.CSB_STS_CHAIN_FAULT = false ∧ (s.cage cage).cycling = false ∧ s.cageSt cage = cgInit ∧ s.on pgCAGE CAGE.CAGE_CTL_AUTO cage = false) ∧
  (∃ (s : State) (cage : Nat), cage < 64 ∧ s.live pgCAGE = true ∧ s.cageEn cage = true ∧ s.cageHold = false ∧ s.on pgCAGE CAGE.CSB_STS_CHAIN_FAULT = false ∧ (s.cage cage).cycling = true ∧ s.cageRan cage 100 = true) ∧
  (∃ (s : State) (cage : Nat), cage < 64 ∧ s.live pgCAGE = true ∧ s.cageEn cage = true ∧ s.cageHold = false ∧ s.on pgCAGE CAGE.CSB_STS_CHAIN_FAULT = false ∧ (s.cage cage).cycling = false ∧ s.cageSt cage = cgFault ∧ s.on pgCAGE CAGE.CAGE_STS_RAW_PRESENT cage = true) ∧
  (∃ (s : State) (cage : Nat), cage < 64 ∧ s.live pgCAGE = true ∧ s.cageEn cage = true ∧ s.cageHold = false ∧ s.on pgCAGE CAGE.CSB_STS_CHAIN_FAULT = false ∧ (s.cage cage).cycling = false ∧ s.cageSt cage = cgRemoving ∧ s.cageRan cage (s.rd pgCAGE CAGE.CAGE_TIMING_DEBOUNCE_MS) = true) ∧
  (∃ (s : State) (cage : Nat), cage < 64 ∧ s.live pgCAGE = true ∧ s.cageEn cage = true ∧ s.cageHold = false ∧ s.on pgCAGE CAGE.CSB_STS_CHAIN_FAULT = false ∧ (s.cage cage).cycling = false ∧ s.cageSt cage = cgReady) ∧
  (∃ (s : State) (cage : Nat), cage < 64 ∧ s.live pgCAGE = true ∧ s.cageEn cage = true ∧ s.cageHold = false ∧ s.on pgCAGE CAGE.CSB_STS_CHAIN_FAULT = false ∧ (s.cage cage).cycling = false ∧ 1 ≤ s.cageSt cage ∧ s.cageSt cage ≤ 6) :=
  ⟨⟨wCage 1, 3, by decide⟩,
   ⟨wCageWait, 3, by decide⟩,
   ⟨wCage 2, 3, by decide⟩,
   ⟨wCage 3, 3, by decide⟩,
   ⟨wCage 3, 3, by decide⟩,
   ⟨wCageHold, 3, by decide⟩,
   ⟨wCage 3, 3, by decide⟩,
   ⟨wCageMan, 3, by decide⟩,
   ⟨wCageCyc, 3, by decide⟩,
   ⟨wCageRaw, 3, by decide⟩,
   ⟨wCage 7, 3, by decide⟩,
   ⟨wCage 4, 3, by decide⟩,
   ⟨wCage 4, 3, by decide⟩⟩

theorem test_witness_cage_bus_and_masters :
  (∃ (s : State), s.live pgCAGE = true ∧ s.on pgCAGE CAGE.CSB_CTL_RUN = true ∧ s.rd pgCAGE CAGE.CSB_CTL_CAGES = 1 ∧ s.cageHold = false ∧ s.on pgCAGE CAGE.CSB_STS_CHAIN_FAULT = false ∧ ((List.range 64).all fun c => (s.cage c).deferred.isEmpty) = true) ∧
  (∃ (s : State) (master : Nat) (cage : Nat), master < 8 ∧ s.live pgCAGE = true ∧ cage / 8 = master ∧ s.rd pgCAGE CAGE.MM_ADDR_LEN master ≠ 0 ∧ s.rd pgCAGE CAGE.MM_ADDR_LEN master ≤ 128 ∧ s.mmMode master = true ∧ 3 ≤ s.cageSt cage ∧ s.cageSt cage ≤ 5) ∧
  (∃ (s : State) (master : Nat) (cage : Nat), master < 8 ∧ s.live pgCAGE = true ∧ cage / 8 = master ∧ s.rd pgCAGE CAGE.MM_ADDR_LEN master ≠ 0 ∧ s.rd pgCAGE CAGE.MM_ADDR_LEN master ≤ 128 ∧ s.mmMode master = true ∧ s.cageSt cage < 3) ∧
  (∃ (s : State) (master : Nat) (cage : Nat), master < 8 ∧ s.live pgCAGE = true ∧ cage / 8 = master ∧ s.rd pgCAGE CAGE.MM_ADDR_LEN master ≠ 0 ∧ s.rd pgCAGE CAGE.MM_ADDR_LEN master ≤ 128 ∧ s.mmMode master = true ∧ 3 ≤ s.cageSt cage ∧ s.cageSt cage ≤ 5 ∧ (s.on pgCAGE CAGE.CAGE_CTL_AUTO cage && mmProtected (s.rd pgCAGE CAGE.MM_ADDR_PAGE master) (s.rd pgCAGE CAGE.MM_ADDR_OFFSET master) (s.rd pgCAGE CAGE.MM_ADDR_LEN master)) = false) ∧
  (∃ (s : State) (master : Nat) (cage : Nat), master < 8 ∧ s.live pgCAGE = true ∧ cage / 8 = master ∧ s.rd pgCAGE CAGE.MM_ADDR_LEN master ≠ 0 ∧ s.rd pgCAGE CAGE.MM_ADDR_LEN master ≤ 128 ∧ s.mmMode master = true ∧ s.cageSt cage < 3) ∧
  (∃ (s : State) (master : Nat) (q : MmCmd) (l : List MmCmd), master < 8 ∧ s.live pgCAGE = true ∧ tgetD s.mmQueue master [] = q :: l ∧ q.step = 0) ∧
  (∃ (s : State) (master : Nat) (q : MmCmd) (l : List MmCmd), master < 8 ∧ s.live pgCAGE = true ∧ tgetD s.mmQueue master [] = q :: l ∧ q.step = 0) ∧
  (∃ (s : State) (master : Nat) (q : MmCmd) (l : List MmCmd), master < 8 ∧ s.live pgCAGE = true ∧ s.cageHold = false ∧ s.mmReady master = true ∧ tgetD s.mmQueue master [] = q :: l ∧ q.step = 0 ∧ q.write = true) ∧
  (∃ (s : State) (master : Nat), master < 8 ∧ s.live pgCAGE = true) :=
  ⟨⟨wst [(pgCAGE, CAGE.CSB_CTL_RUN, 1, 0), (pgCAGE, CAGE.CSB_CTL_CAGES, 1, 0)], by decide⟩,
   ⟨wMm, 0, 3, by decide⟩,
   ⟨wst [(pgCAGE, CAGE.MM_ADDR_LEN, 4, 0), (pgCAGE, CAGE.MM_CTL_MODE, 1, 0)], 0, 3, by decide⟩,
   ⟨wMm, 0, 3, by decide⟩,
   ⟨wst [(pgCAGE, CAGE.MM_ADDR_LEN, 4, 0), (pgCAGE, CAGE.MM_CTL_MODE, 1, 0)], 0, 3, by decide⟩,
   ⟨wMmQ, 0, wMmC, [], by decide⟩,
   ⟨wMmQ, 0, wMmC, [], by decide⟩,
   ⟨{ wMmQ with mmSince := [(0, (4, 2))] }, 0, wMmC, [], by decide⟩,
   ⟨wBase, 2, by decide⟩⟩

theorem test_witness_refused_domain_writes :
  (∃ (s : State) (dom : Nat), dom ≠ 0 ∧ dom ≠ 21 ∧ dom < 24 ∧ s.warming = false ∧ s.live pgPWR = true ∧ s.domRefused dom true = true) ∧
  (∃ (s : State) (dom : Nat), dom ≠ 0 ∧ dom ≠ 21 ∧ dom < 24 ∧ s.warming = false ∧ s.live pgPWR = true ∧ s.domRefused dom false = true) :=
  ⟨⟨wBase, 19, by decide⟩,
   ⟨wBase, 22, by decide⟩⟩

theorem test_witness_flexe_clients :
  (∃ (s : State) (lfu : Nat) (entry : Nat) (value : Nat), lfu < 16 ∧ s.live (pgLFU lfu) = true ∧ entry < 64 ∧ s.entryNamed lfu entry = false ∧ (bit value 0 && s.clientRefused lfu entry value) = false) ∧
  (∃ (s : State) (lfu : Nat), lfu < 16 ∧ s.live (pgLFU lfu) = true ∧ s.on (pgLFU lfu) LFU.SWITCH_STS_FLEXE_PENDING = false ∧ s.calBad lfu (txCal (1 - s.rd (pgLFU lfu) LFU.SWITCH_STS_FLEXE_TX_CAL)) = false) ∧
  (∃ (s : State) (lfu : Nat), lfu < 16 ∧ s.live (pgLFU lfu) = true ∧ s.on (pgLFU lfu) LFU.LFU_CFG_FLEXE_EN = true ∧ (s.lfu lfu).phase = 1 ∧ (s.lfu lfu).caOwed = none) ∧
  (∃ (s : State) (lfu : Nat), lfu < 16 ∧ s.live (pgLFU lfu) = true ∧ s.on (pgLFU lfu) LFU.LFU_CFG_FLEXE_EN = true ∧ (s.lfu lfu).phase = 2 ∧ (s.lfu lfu).caOwed = none) ∧
  (∃ (s : State) (lfu : Nat) (phys : List FlexePhy) (calA : List Nat) (calB : List Nat) (rpf : Bool) (skew : Nat) (crcErrs : Nat) (idleIns : Nat) (idleDel : Nat) (oh : FlexeOh), lfu < 16 ∧ s.live (pgLFU lfu) = true ∧ s.on (pgLFU lfu) LFU.LFU_CFG_FLEXE_EN = true ∧ oh = ⟨phys, calA, calB, rpf, skew, crcErrs, idleIns, idleDel⟩) ∧
  (∃ (s : State) (lfu : Nat) (cal : Nat), lfu < 16 ∧ s.live (pgLFU lfu) = true ∧ (s.lfu lfu).phase = 4 ∧ cal % 2 = (s.lfu lfu).newCal) ∧
  (∃ (s : State) (lfu : Nat), lfu < 16 ∧ s.live (pgLFU lfu) = true ∧ (s.lfu lfu).phase = 4 ∧ (s.lfu lfu).caFrom + ticksMs (s.rd (pgLFU lfu) LFU.FLEXE_CTL_CA_TIMEOUT_MS) ≤ s.ticks) ∧
  (∃ (s : State) (lfu : Nat), lfu < 16 ∧ s.live (pgLFU lfu) = true ∧ s.on (pgLFU lfu) LFU.FLEXE_CTL_CA_AUTO = true) ∧
  (∃ (s : State) (lfu : Nat) (cal : Nat), lfu < 16 ∧ s.live (pgLFU lfu) = true ∧ s.rd (pgLFU lfu) LFU.SWITCH_STS_FLEXE_RX_CAL ≠ cal % 2) :=
  ⟨⟨wst [(0x30, LFU.CLIENT_RATE_5G, 2, 3)], 0, 3, 0x105, by decide +kernel⟩,
   ⟨wBase, 0, by decide +kernel⟩,
   ⟨wLfu [(0x30, LFU.LFU_CFG_FLEXE_EN, 1, 0)] { phase := 1, newCal := 1 }, 0, by decide +kernel⟩,
   ⟨wLfu [(0x30, LFU.LFU_CFG_FLEXE_EN, 1, 0)] { phase := 2, newCal := 1 }, 0, by decide +kernel⟩,
   ⟨wLfu [(0x30, LFU.LFU_CFG_FLEXE_EN, 1, 0)] {}, 0, [], [], [], true, 1001, 0, 0, 0, { rpf := true, skew := 1001 }, by decide +kernel⟩,
   ⟨wLfu [] { phase := 4, newCal := 1 }, 0, 1, by decide +kernel⟩,
   ⟨{ wLfu [] { phase := 4, newCal := 1 } with ticks := 10 ^ 12 }, 0, by decide +kernel⟩,
   ⟨wBase, 0, by decide +kernel⟩,
   ⟨wBase, 0, 1, by decide +kernel⟩⟩

theorem test_witness_otn_framer :
  (∃ (s : State) (lfu : Nat), lfu < 16 ∧ s.live (pgLFU lfu) = true ∧ lfu % 2 = 0 ∧ s.on (pgLFU lfu) LFU.LFU_CFG_OTN_EN = false ∧ s.otnFits lfu = true) ∧
  (∃ (s : State) (lfu : Nat), lfu < 16 ∧ s.live (pgLFU lfu) = true ∧ lfu % 2 = 0 ∧ s.on (pgLFU lfu) LFU.PROT_CTL_EN = false ∧ ((lfu % 4 = 2 → s.on (pgLFU (lfu - 2)) LFU.PROT_CTL_EN = false)) ∧ s.on (pgLFU lfu) LFU.SWITCH_STS_OTN_PENDING = false ∧ s.mapBad lfu (s.standbyMap lfu) = false) ∧
  (∃ (s : State) (lfu : Nat), lfu < 16 ∧ s.live (pgLFU lfu) = true ∧ (s.lfu lfu).txDue = true ∧ (s.lfu lfu).rxDue = true) ∧
  (∃ (s : State) (lfu : Nat), lfu < 16 ∧ s.live (pgLFU lfu) = true ∧ (s.lfu lfu).rxDue = true ∧ (s.lfu lfu).txDue = false) ∧
  (∃ (s : State) (lfu : Nat) (slice : Nat) (hits : List (Nat × Nat)) (m : Nat), lfu < 16 ∧ s.live (pgLFU lfu) = true ∧ lfu % 2 = 0 ∧ s.on (pgLFU lfu) LFU.LFU_CFG_OTN_EN = true ∧ slice < s.rd (pgLFU lfu) LFU.OTN_CFG_N ∧ (tgetD (s.lfu lfu).slices slice {}).inFrame = true ∧ hitAt hits (tgetD (s.lfu lfu).slices slice {}).locked = some m) ∧
  (∃ (s : State) (lfu : Nat), lfu < 16 ∧ s.live (pgLFU lfu) = true ∧ lfu % 2 = 0 ∧ s.on (pgLFU lfu) LFU.LFU_CFG_OTN_EN = true ∧ s.on (pgLFU lfu) LFU.OTN_STS_OOF = true ∧ s.on (pgLFU lfu) LFU.OTN_STS_LOF = false ∧ s.lofPassed lfu (s.lfu lfu).oofAt = true) ∧
  (∃ (s : State) (lfu : Nat), lfu < 16 ∧ s.live (pgLFU lfu) = true ∧ lfu % 2 = 0 ∧ s.on (pgLFU lfu) LFU.OTN_STS_OOF = false ∧ s.on (pgLFU lfu) LFU.OTN_STS_OOM = false ∧ s.lofPassed lfu (s.lfu lfu).oofAt = true) :=
  ⟨⟨wOtn [] {}, 0, by decide⟩,
   ⟨wBase, 0, by decide⟩,
   ⟨wOtn [] { txDue := true, rxDue := true }, 0, by decide⟩,
   ⟨wOtn [] { rxDue := true }, 0, by decide⟩,
   ⟨wOtn [(0x30, LFU.LFU_CFG_OTN_EN, 1, 0)] { slices := [(0, { inFrame := true, locked := 5 })] }, 0, 0, [(5, 3)], 3, by decide⟩,
   ⟨{ wOtn [(0x30, LFU.LFU_CFG_OTN_EN, 1, 0), (0x30, LFU.OTN_STS_OOF, 1, 0)] {} with ticks := 10 ^ 12 }, 0, by decide⟩,
   ⟨{ wOtn [(0x30, LFU.OTN_STS_LOF, 1, 0)] {} with ticks := 10 ^ 12 }, 0, by decide⟩⟩

theorem test_witness_protection_and_performance :
  (∃ (s : State) (lfu : Nat), lfu < 16 ∧ s.live (pgLFU lfu) = true ∧ lfu % 4 = 0 ∧ s.on (pgLFU lfu) LFU.PROT_CTL_EN = true) ∧
  (∃ (s : State) (lfu : Nat), lfu < 16 ∧ s.live (pgLFU lfu) = true ∧ lfu % 4 = 0 ∧ s.on (pgLFU lfu) LFU.OTN_STS_SF = true ∧ (s.lfu lfu).heldFrom.getD 0 0 + ticksMs (100 * s.rd (pgLFU lfu) LFU.PROT_CTL_HOLDOFF) ≤ s.ticks) ∧
  (∃ (s : State) (lfu : Nat), lfu < 16 ∧ s.live (pgLFU lfu) = true ∧ lfu % 4 = 0 ∧ s.on (pgLFU lfu) LFU.PROT_STS_WTR_RUN = true ∧ (s.lfu lfu).wtrFrom + ticksMs (60000 * s.rd (pgLFU lfu) LFU.PROT_CTL_WTR_MIN) ≤ s.ticks) ∧
  (∃ (s : State) (lfu : Nat), lfu < 16 ∧ s.live (pgLFU lfu) = true ∧ lfu % 4 = 0 ∧ s.on (pgLFU lfu) LFU.PROT_CTL_EN = true ∧ s.disagreeLong lfu = true) ∧
  (∃ (s : State) (n : Nat) (lfu : Nat), lfu < 16 ∧ s.live (pgLFU lfu) = true ∧ s.on (pgLFU lfu) LFU.PM_CTL_AUTO_SEC = true ∧ s.on pgNTM NTM.NTM_STS_VALID = true ∧ s.secondWraps = true ∧ (s.lfu lfu).secAt ≠ some s.nt.sec ∧ n < 8) ∧
  (∃ (s : State) (n : Nat) (lfu : Nat), lfu < 16 ∧ s.live (pgLFU lfu) = true ∧ n < 8) ∧
  (∃ (s : State) (n : Nat) (lfu : Nat), lfu < 16 ∧ s.live (pgLFU lfu) = true ∧ s.on pgNTM NTM.NTM_STS_VALID = false ∧ (s.lfu lfu).latchAt + ticksMs 1000 ≤ s.ticks ∧ n < 8) :=
  ⟨⟨wLfu [(0x30, LFU.PROT_CTL_EN, 1, 0)] {}, 0, by decide⟩,
   ⟨wLfu [(0x30, LFU.OTN_STS_SF, 1, 0)] {}, 0, by decide⟩,
   ⟨{ wLfu [(0x30, LFU.PROT_STS_WTR_RUN, 1, 0)] {} with ticks := 10 ^ 14 }, 0, by decide⟩,
   ⟨{ wLfu [(0x30, LFU.PROT_CTL_EN, 1, 0), (0x30, LFU.PROT_CTL_ARCH, 1, 0), (0x30, LFU.APS_TX_APS, 0x10000, 0)] { disagreeFrom := some 0 } with ticks := 10 ^ 12 }, 0, by decide⟩,
   ⟨wst [(pgNTM, NTM.NTM_STS_VALID, 1, 0)], 1, 0, by decide⟩,
   ⟨wBase, 1, 0, by decide⟩,
   ⟨{ wBase with ticks := 10 ^ 12 }, 1, 0, by decide⟩⟩

theorem test_witness_parser_classifier_patterns :
  (∃ (s : State) (w : Nat), s.live pgPRS = true ∧ w < 16 ∧ s.tplBad = false) ∧
  (∃ (s : State) (w : Nat), s.live pgPRS = true ∧ w < 16) ∧
  (∃ (s : State), s.live pgPRS = true) ∧
  (∃ (s : State) (profile : Nat) (q : Nat) (e : ClsEntry), s.live pgCLS = true ∧ s.clsRun = none ∧ s.on pgCLS CLS.PROF_CFG_VALID (profile % 16) = true ∧ s.clsFind s.cls0 (profile % 16) (s.clsCmdKey (profile % 16)) = some (q, e)) ∧
  (∃ (s : State) (profile : Nat) (q : Nat) (e : ClsEntry), s.live pgCLS = true ∧ s.clsRun = none ∧ s.on pgCLS CLS.PROF_CFG_VALID (profile % 16) = true ∧ s.clsFind s.cls0 (profile % 16) (s.clsCmdKey (profile % 16)) = some (q, e)) ∧
  (∃ (s : State) (profile : Nat) (q : Nat) (e : ClsEntry), s.live pgCLS = true ∧ s.clsRun = none ∧ s.on pgCLS CLS.PROF_CFG_VALID (profile % 16) = true ∧ s.clsFind s.cls0 (profile % 16) (s.clsCmdKey (profile % 16)) = some (q, e)) ∧
  (∃ (s : State) (r : ClsRun) (k : Nat), s.clsRun = some r ∧ s.live pgCLS = true ∧ s.clsMayPause = true ∧ s.clsPauseEnd = none ∧ r.first = false ∧ k < 10) ∧
  (∃ (s : State) (r : ClsRun) (k : Nat), s.clsRun = some r ∧ s.live pgCLS = true ∧ s.clsMayPause = true ∧ s.clsPauseEnd = none ∧ r.first = true ∧ k < 10) ∧
  (∃ (r : ClsRun), r.first = false) ∧
  (∃ (r : ClsRun), r.first = true) ∧
  (∃ (s : State) (r : ClsRun), s.live pgCLS = true ∧ s.clsRun = some r ∧ r.first = false) ∧
  (∃ (s : State), s.live pgPMM = true) ∧
  (∃ (s : State), s.live pgPMM = true) ∧
  (∃ (s : State), s.live pgPMM = true ∧ s.rd pgPMM PMM.PAT_RES.valid = 1 ∧ s.rd pgPMM PMM.PAT_RES.status = 1) :=
  ⟨⟨wst [(pgPRS, PRS.TPL_STAGE_WORD, 0x80000000, 1)], 1, by decide⟩,
   ⟨wBase, 1, by decide⟩,
   ⟨wBase, by decide⟩,
   ⟨wCls, 0, wClsQ, wClsE, by decide⟩,
   ⟨wCls, 0, wClsQ, wClsE, by decide⟩,
   ⟨wCls, 0, wClsQ, wClsE, by decide⟩,
   ⟨wClsRun, wClsR, 3, by decide⟩,
   ⟨wClsRun2, { wClsR with first := true }, 3, by decide⟩,
   ⟨wClsR, by decide⟩,
   ⟨{ wClsR with first := true }, by decide⟩,
   ⟨wClsRun, wClsR, by decide⟩,
   ⟨wBase, by decide⟩,
   ⟨wBase, by decide⟩,
   ⟨wBase.result pgPMM PMM.PAT_RES 7 DONE, by decide⟩⟩

theorem test_witness_table_dma :
  (∃ (s : State) (ring : Nat) (count : Nat), ring < 4 ∧ s.live pgTDMA = true ∧ s.rd pgTDMA TDMA.RING_STS_OUTSTANDING ring + count % 128 ≤ 64) ∧
  (∃ (s : State) (ring : Nat) (desc : List Nat) (span : List (Nat × Bool)), s.ringReady ring = true ∧ desc ≠ [] ∧ descBad desc = false ∧ bits (desc.getD 0 0) 0 4 = 1 ∧ s.rowSpan (bits (desc.getD 0 0) 4 5) (bits (desc.getD 1 0) 0 29) (bits (desc.getD 4 0) 0 7) = some span ∧ (s.fnS 1).sends = true) ∧
  (∃ (s : State) (ring : Nat) (desc : List Nat) (img : List Nat) (im : List Nat) (id : Nat) (row : Nat), s.ringReady ring = true ∧ desc ≠ [] ∧ descBad desc = false ∧ bits (desc.getD 0 0) 0 4 = 2 ∧ bits (desc.getD 0 0) 4 5 = id ∧ bits (desc.getD 1 0) 0 29 = row ∧ bits (desc.getD 4 0) 0 7 = 1 ∧ bit (desc.getD 0 0) 9 = false ∧ im = img.take (s.rowWords id) ∧ bit (s.rowKey id false row) 33 = false ∧ s.rowPlace id row = some false ∧ bitmapOver id im = false ∧ tget s.locks (s.rowKey id false row) = none ∧ s.inOpen (s.rowKey id false row) = false ∧ s.inBack (s.rowKey id false row) = false) ∧
  (∃ (s : State) (ring : Nat) (desc : List Nat) (img : List Nat) (im : List Nat) (id : Nat) (row : Nat), s.ringReady ring = true ∧ desc ≠ [] ∧ descBad desc = false ∧ bits (desc.getD 0 0) 0 4 = 3 ∧ bits (desc.getD 0 0) 4 5 = id ∧ bit (desc.getD 0 0) 9 = false ∧ (s.planOf id (bits (desc.getD 4 0) 8 8) img).map (fun k => (k.hbm, k.image)) = some (false, im) ∧ (s.planOf id (bits (desc.getD 4 0) 8 8) img).bind (fun k => k.find (s.planRead k false)) = none ∧ (s.planOf id (bits (desc.getD 4 0) 8 8) img).bind (fun k => k.free fun r => s.rowUsed id (s.planRead k false r)) = some row ∧ s.rd pgLPM LPM.PREFIX_CNT_COUNT < 25165824 ∧ bit (s.rowKey id false row) 33 = false ∧ bitmapOver id im = false ∧ tget s.locks (s.rowKey id false row) = none ∧ s.inOpen (s.rowKey id false row) = false ∧ s.inBack (s.rowKey id false row) = false) ∧
  (∃ (s : State) (ring : Nat) (desc : List Nat) (img : List Nat) (im : List Nat) (id : Nat) (row : Nat), s.ringReady ring = true ∧ desc ≠ [] ∧ descBad desc = false ∧ bits (desc.getD 0 0) 0 4 = 4 ∧ bits (desc.getD 0 0) 4 5 = id ∧ bit (desc.getD 0 0) 9 = false ∧ (s.planOf id (bits (desc.getD 4 0) 8 8) img).map (fun k => k.hbm) = some false ∧ (s.planOf id (bits (desc.getD 4 0) 8 8) img).bind (fun k => k.find (s.planRead k false)) = some row ∧ bit (s.rowKey id false row) 33 = false ∧ im = s.rowBlank id ∧ bitmapOver id im = false ∧ tget s.locks (s.rowKey id false row) = none ∧ s.inOpen (s.rowKey id false row) = false ∧ s.inBack (s.rowKey id false row) = false) ∧
  (∃ (s : State) (ring : Nat) (desc : List Nat) (img : List Nat) (id : Nat) (row : Nat), s.ringReady ring = true ∧ desc ≠ [] ∧ descBad desc = false ∧ bits (desc.getD 0 0) 0 4 = 5 ∧ bits (desc.getD 0 0) 4 5 = id ∧ (s.planOf id (bits (desc.getD 4 0) 8 8) img).bind (fun k => k.find (s.planRead k false)) = some row ∧ (s.fnS 1).sends = true) ∧
  (∃ (s : State) (ring : Nat) (desc : List Nat) (id : Nat) (row : Nat), s.ringReady ring = true ∧ desc ≠ [] ∧ descBad desc = false ∧ bits (desc.getD 0 0) 0 4 = 6 ∧ bits (desc.getD 0 0) 4 5 = id ∧ bits (desc.getD 1 0) 0 29 = row ∧ s.rowPlace id row = some false ∧ tget s.locks (s.rowKey id false row) = none ∧ s.locks.length < 256) ∧
  (∃ (s : State) (ring : Nat) (desc : List Nat) (w : List Nat) (id : Nat) (row : Nat), s.ringReady ring = true ∧ desc ≠ [] ∧ descBad desc = false ∧ bits (desc.getD 0 0) 0 4 = 7 ∧ bits (desc.getD 0 0) 4 5 = id ∧ bits (desc.getD 1 0) 0 29 = row ∧ s.rowPlace id row = some false ∧ tget s.locks (s.rowKey id false row) = some ⟨ring, some w⟩ ∧ s.inBack (s.rowKey id false row) = false ∧ bit (s.rowKey id false row) 33 = false) ∧
  (∃ (s : State) (ring : Nat) (desc : List Nat) (w : List Nat) (id : Nat) (row : Nat), s.ringReady ring = true ∧ desc ≠ [] ∧ descBad desc = false ∧ bits (desc.getD 0 0) 0 4 = 8 ∧ bits (desc.getD 0 0) 4 5 = id ∧ bits (desc.getD 1 0) 0 29 = row ∧ s.rowPlace id row = some false ∧ tget s.locks (s.rowKey id false row) = some ⟨ring, some w⟩) ∧
  (∃ (s : State) (ring : Nat) (desc : List Nat), s.ringReady ring = true ∧ desc ≠ [] ∧ descBad desc = false ∧ bits (desc.getD 0 0) 0 4 = 9 ∧ s.rd pgLKP LKP.EPOCH_STS_EPOCH_DRAINED = 1 ∧ s.commits = [] ∧ s.rd pgLKP LKP.EPOCH_STS_GROUP_FAILED = 0) ∧
  (∃ (s : State) (ring : Nat), ring < 4 ∧ s.live pgTDMA = true) ∧
  (∃ (s : State) (ring : Nat), ring < 4 ∧ s.live pgTDMA = true) :=
  ⟨⟨wBase, 0, 3, by decide⟩,
   ⟨wRing, 0, [81, 3, 0x1000, 0, 1, 0, 0, 0], [(3, false)], by decide⟩,
   ⟨wRing, 0, [82, 3, 0x1000, 0, 1, 0, 0, 0], [99], [99], 5, 3, by decide⟩,
   ⟨wExm, 0, [131, 0, 0x1000, 0, 1, 0, 0, 0], wExmImg, wExmImg, 8, wExmRow, by decide⟩,
   ⟨wExm2, 0, [132, 0, 0x1000, 0, 1, 0, 0, 0], wExmImg, [0, 0, 0, 0, 0, 0, 0, 0], 8, wExmRow, by decide⟩,
   ⟨wExm2, 0, [133, 0, 0x1000, 0, 1, 0, 0, 0], wExmImg, 8, wExmRow, by decide⟩,
   ⟨wRing, 0, [86, 3, 0, 0, 1, 0, 0, 0], 5, 3, by decide⟩,
   ⟨wLock, 0, [87, 3, 0, 0, 1, 0, 0, 0], [99], 5, 3, by decide⟩,
   ⟨wLock, 0, [88, 3, 0, 0, 1, 0, 0, 0], [99], 5, 3, by decide⟩,
   ⟨wRing, 0, [9, 0, 0, 0, 1, 0, 0, 0], by decide⟩,
   ⟨wRing, 0, by decide⟩,
   ⟨wRing, 0, by decide⟩⟩

theorem test_witness_epochs_fences_sweeps :
  (∃ (s : State), s.live pgLKP = true ∧ s.rd pgLKP LKP.EPOCH_STS_EPOCH_DRAINED = 1 ∧ s.commits = [] ∧ s.rd pgLKP LKP.EPOCH_STS_GROUP_FAILED = 0) ∧
  (∃ (s : State), s.live pgLKP = true ∧ s.rd pgLKP LKP.EPOCH_STS_EPOCH_DRAINED = 0) ∧
  (∃ (s : State), s.live pgLKP = true) ∧
  (∃ (s : State) (q : CommitReq) (rest : List CommitReq), s.live pgLKP = true ∧ s.rd pgLKP LKP.EPOCH_STS_EPOCH_DRAINED = 1 ∧ s.commits = q :: rest ∧ s.rd pgLKP LKP.EPOCH_STS_GROUP_FAILED = 0) ∧
  (∃ (s : State), s.live pgLKP = true ∧ s.rd pgLKP LKP.EPOCH_STS_EPOCH_DRAINED = 0 ∧ s.drained = true) ∧
  (∃ (s : State) (v : VRow) (rest : List VRow) (x : Nat), s.live pgLKP = true ∧ s.rd pgLKP LKP.EPOCH_STS_EPOCH_DRAINED = 1 ∧ s.vstore = v :: rest ∧ v.epoch = some x ∧ bit v.key 33 = false ∧ s.shdRepairs = []) ∧
  (∃ (s : State), s.live pgNHP = true) ∧
  (∃ (s : State), s.live pgNHP = true ∧ s.on pgNHP NHP.FENCE_STS_BUSY = true ∧ s.oldFrames = 0) ∧
  (∃ (s : State) (table : Nat), table < 16 ∧ s.live pgAGE = true ∧ s.on pgAGE AGE.AGE_CTL_EN = true ∧ s.rd pgAGE AGE.AGE_PERIOD_MS table ≠ 0 ∧ s.sweepDue table = true ∧ tget s.sweeps table = none) ∧
  (∃ (s : State) (table : Nat) (w : Sweep), table < 16 ∧ s.live pgAGE = true ∧ s.on pgAGE AGE.AGE_CTL_EN = true ∧ s.rd pgAGE AGE.AGE_PERIOD_MS table ≠ 0 ∧ s.sweepDue table = true ∧ tget s.sweeps table = some w) ∧
  (∃ (s : State) (table : Nat) (w : Sweep), table < 16 ∧ s.live pgAGE = true ∧ s.on pgAGE AGE.AGE_CTL_EN = true ∧ tget s.sweeps table = some w ∧ (rateTake s.visitUs s.ticks (ticksUs 1) (s.rd pgAGE AGE.SWEEP_RATE_ROWS_PER_US)).isSome = true ∧ w.pos + 1 < s.exmSize table) ∧
  (∃ (s : State) (table : Nat) (row : Nat) (image : List Nat) (h : Bool), s.rowPlace table row = some h ∧ s.live pgSHD = true ∧ s.on pgSHD SHD.SHD_CTL_EN = true ∧ s.shdPlace = some (table, row) ∧ s.tagFree = true ∧ (s.fnS 1).sends = true ∧ (rateTake s.shdMs s.ticks (ticksMs 1) (s.rd pgSHD SHD.SHD_RATE_ROWS_PER_MS)).isSome = true ∧ s.shdSkips table row h = false ∧ s.rowSeen table h row ≠ image) ∧
  (∃ (s : State) (table : Nat) (row : Nat) (image : List Nat) (h : Bool) (m : Mismatch), s.rechecks.find? (fun m => m.table = table && m.row = row) = some m ∧ s.rowPlace table row = some h ∧ s.live pgSHD = true ∧ (s.fnS 1).sends = true ∧ s.tagFree = true ∧ m.since + ticksUs (s.rd pgSHD SHD.SHD_CTL_RECHECK_US) ≤ s.ticks ∧ s.rowSeen table h row = m.words ∧ image = m.image ∧ s.mmFifo.length < 32 ∧ s.on pgSHD SHD.SHD_CTL_REPAIR = false) ∧
  (∃ (s : State) (x : Nat × Nat) (rest : List (Nat × Nat)), s.live pgSHD = true ∧ s.mmFifo = x :: rest) :=
  ⟨⟨wVs, by decide⟩,
   ⟨wBase.wr pgLKP LKP.EPOCH_STS_EPOCH_DRAINED 0, by decide⟩,
   ⟨wVs, by decide⟩,
   ⟨wCommit, ⟨none⟩, [], by decide⟩,
   ⟨wBase.wr pgLKP LKP.EPOCH_STS_EPOCH_DRAINED 0, by decide⟩,
   ⟨wVs2, ⟨5, 3, [99], some 0⟩, [], 0, by decide⟩,
   ⟨wBase, by decide⟩,
   ⟨wBase.wr pgNHP NHP.FENCE_STS_BUSY 1, by decide⟩,
   ⟨wAge, 2, by decide⟩,
   ⟨{ wAge with sweeps := [(2, ⟨1, false⟩)] }, 2, ⟨1, false⟩, by decide⟩,
   ⟨{ wAge with sweeps := [(2, ⟨1, false⟩)] }, 2, ⟨1, false⟩, by decide⟩,
   ⟨wShd, 5, 3, [99], false, by decide⟩,
   ⟨wShd2, 5, 3, [99], false, ⟨5, 3, wShd.rowKey 5 false 3, [0], [99], 0⟩, by decide⟩,
   ⟨{ wShd with mmFifo := [(5, 3)] }, (5, 3), [], by decide⟩⟩

theorem test_witness_range_search :
  (∃ (s : State) (rsu : Nat) (bank : Nat), rsu < 4 ∧ s.live (pgRSU rsu) = true ∧ tget s.rsuRuns rsu = none ∧ ((rsu = 0 ∨ s.replica = false)) ∧ s.rd (pgRSU rsu) RSU.RS_INDEX_INDEX < 8192 / s.bankUnits (4 * rsu + bank % 4)) ∧
  (∃ (s : State) (rsu : Nat) (bank : Nat) (e : RsuEntry), rsu < 4 ∧ s.live (pgRSU rsu) = true ∧ tget s.rsuRuns rsu = none ∧ ((rsu = 0 ∨ s.replica = false)) ∧ s.rd (pgRSU rsu) RSU.RS_INDEX_INDEX < 8192 / s.bankUnits (4 * rsu + bank % 4) ∧ e = tgetD s.rsu ((4 * rsu + bank % 4) * 8192 + s.rd (pgRSU rsu) RSU.RS_INDEX_INDEX) {}) ∧
  (∃ (s : State) (rsu : Nat) (bank : Nat), rsu < 4 ∧ s.live (pgRSU rsu) = true ∧ tget s.rsuRuns rsu = none ∧ ((rsu = 0 ∨ s.replica = false)) ∧ s.rd (pgRSU rsu) RSU.RS_INDEX_INDEX < 8192 / s.bankUnits (4 * rsu + bank % 4)) ∧
  (∃ (s : State) (rsu : Nat) (bank : Nat) (h : Nat), rsu < 4 ∧ s.live (pgRSU rsu) = true ∧ tget s.rsuRuns rsu = none ∧ ((rsu = 0 ∨ s.replica = false)) ∧ s.rd (pgRSU rsu) RSU.RS_INDEX_INDEX < 8192 / s.bankUnits (4 * rsu + bank % 4) ∧ h = s.rd (pgRSU rsu) RSU.RS_INDEX_HOLE ∧ s.on (pgRSU rsu) RSU.RS_INDEX_AUTO = false ∧ h < 8192 / s.bankUnits (4 * rsu + bank % 4) ∧ (s.rsuAt (4 * rsu + bank % 4) h).valid = false ∧ (h - s.rd (pgRSU rsu) RSU.RS_INDEX_INDEX) + (s.rd (pgRSU rsu) RSU.RS_INDEX_INDEX - h) ≤ 64) ∧
  (∃ (s : State) (rsu : Nat) (r : RsuRun), rsu < 4 ∧ s.live (pgRSU rsu) = true ∧ tget s.rsuRuns rsu = some r ∧ r.made = 0) :=
  ⟨⟨wBase, 1, 2, by decide⟩,
   ⟨wRsu, 0, 0, wRsuE, by decide⟩,
   ⟨wRsu, 0, 0, by decide⟩,
   ⟨wRsu, 0, 0, 2, by decide⟩,
   ⟨{ wRsu with rsuRuns := [(0, ⟨9, 0, 1, 2, 2, 0, 0, false⟩)] }, 0, ⟨9, 0, 1, 2, 2, 0, 0, false⟩, by decide⟩⟩

theorem test_witness_hbm_channels :
  (∃ (s : State) (channel : Nat) (r : HbmReq) (rest : List HbmReq), channel < 128 ∧ s.live (pgHBC (channel / 32)) = true ∧ (s.chan channel).reads = r :: rest ∧ s.heldBy r.port = [] ∧ s.chanFailed channel = false ∧ s.hbmMayOpen channel r = true) ∧
  (∃ (s : State) (channel : Nat) (r : HbmReq) (rest : List HbmReq), channel < 128 ∧ s.live (pgHBC (channel / 32)) = true ∧ (s.chan channel).reads = r :: rest ∧ s.heldBy r.port = [] ∧ s.chanFailed channel = false ∧ s.hbmMayOpen channel r = true) ∧
  (∃ (s : State) (channel : Nat), channel < 128 ∧ s.live (pgHBC (channel / 32)) = true ∧ (s.chan channel).reads = [] ∧ s.hbmHeld = [] ∧ (s.chan channel).acts = [] ∧ (s.chan channel).writes.length ≤ s.rd (pgHBC (channel / 32)) HBC.WR_WM_WR_LO + 4) ∧
  (∃ (s : State) (channel : Nat), channel < 128 ∧ s.live (pgHBC (channel / 32)) = true ∧ s.chanFailed channel = false ∧ (s.chan channel).fails + 1 < max 1 (s.rd (pgHBC (channel / 32)) HBC.RETRY_CFG_REPLAY_LIMIT)) ∧
  (∃ (s : State) (channel : Nat), channel < 128 ∧ s.live (pgHBC (channel / 32)) = true ∧ s.chanFailed channel = false ∧ max 1 (s.rd (pgHBC (channel / 32)) HBC.RETRY_CFG_REPLAY_LIMIT) ≤ (s.chan channel).fails + 1) ∧
  (∃ (s : State) (channel : Nat), channel < 128 ∧ s.live (pgHBC (channel / 32)) = true ∧ (s.chan channel).refDue ≤ 64 * s.ticks ∧ s.on (pgHBC (channel / 32)) HBC.STACK_STS_SELF_REFRESH = false) ∧
  (∃ (s : State) (stack : Nat), stack < 4 ∧ s.live (pgHBC stack) = true ∧ s.on (pgHBC stack) HBC.SCRUB_CFG_EN = true ∧ s.scrubMay stack = true) ∧
  (∃ (s : State) (offset : Nat) (a : Nat), s.Reaches (pgHBC 0) 0x8000 ∧ 0 ≤ tgetD s.hbmTokens 4 0 ∧ a = s.rd (pgHBC 0) HBC.WIN_BASE_HI_ADDR * 2 ^ 32 + s.rd (pgHBC 0) HBC.WIN_BASE_LO_ADDR + 4 * (offset % 32768 / 4) ∧ a + 4 ≤ s.tableBytes ∧ ((s.hbmBursts ⟨4, false, a, 4, true⟩).all fun e => s.on (pgHBC (e.1 / 32)) HBC.STACK_STS_TRAINED) = true ∧ s.hbmFailed false a 4 = false) ∧
  (∃ (s : State) (offset : Nat) (a : Nat), s.Reaches (pgHBC 0) 0x8000 ∧ 0 ≤ tgetD s.hbmTokens 4 0 ∧ a = s.rd (pgHBC 0) HBC.WIN_BASE_HI_ADDR * 2 ^ 32 + s.rd (pgHBC 0) HBC.WIN_BASE_LO_ADDR + 4 * (offset % 32768 / 4) ∧ a + 4 ≤ s.tableBytes ∧ ((s.hbmBursts ⟨4, false, a, 4, false⟩).all fun e => s.on (pgHBC (e.1 / 32)) HBC.STACK_STS_TRAINED) = true ∧ s.hbmFailed false a 4 = false) :=
  ⟨⟨wHbm, 5, ⟨1, 2, 3, 2⟩, [], by decide⟩,
   ⟨wHbm, 5, ⟨1, 2, 3, 2⟩, [], by decide⟩,
   ⟨wHbm.wr (pgHBC 0) HBC.WR_WM_WR_LO 0, 6, by decide⟩,
   ⟨wHbm, 5, by decide⟩,
   ⟨wHbm.setChan 5 { fails := 7 }, 5, by decide⟩,
   ⟨wHbm.wr (pgHBC 0) HBC.STACK_STS_SELF_REFRESH 0, 5, by decide⟩,
   ⟨wst [(pgHBC 1, HBC.SCRUB_CFG_EN, 1, 0), (pgHBC 1, HBC.STACK_STS_TRAINED, 1, 0)], 1, by decide⟩,
   ⟨wHbm, 8, 8, by decide⟩,
   ⟨wHbm, 8, 8, by decide⟩⟩

theorem test_witness_buffers_and_admission :
  (∃ (s : State) (f : Frame) (rest : List Frame) (q : Nat) (b : Nat), s.toQd = f :: rest ∧ f.nhType ≠ 6 ∧ s.bandUp = true ∧ s.qdOn = true ∧ s.queueFor f false = some q ∧ f.cut = false ∧ f.ecn = none ∧ f.len ≤ 16384 ∧ s.queueClosed q = false ∧ s.expressOver q f.len = false ∧ s.admission q f.len true = none ∧ s.wantSpill q f = false ∧ s.pickBuf (chipPool (some f.len)) = some b) ∧
  (∃ (s : State) (pool : Nat) (buf : Nat) (r : BufRec), tget s.bufs (bufKey pool buf) = some r ∧ r.staged ≠ 0 ∧ 4 ≤ pool ∧ s.spillHeld 0 pool buf = false ∧ s.live pgBRM = true) ∧
  (∃ (s : State) (queue : Nat) (f : Frame), (s.que queue).nextBack = some f ∧ (s.que queue).headBack = true ∧ (s.que queue).frames.head? = some f ∧ s.enabled pgBRM = true ∧ s.readBack + f.qlen ≤ stageBytes) ∧
  (∃ (s : State) (queue : Nat) (p : Nat) (b : Nat) (f : Frame) (r : BufRec), (s.que queue).frames.find? (fun f => f.place = .reading) = some f ∧ s.live pgBRM = true ∧ s.backIssued f = true ∧ f.hold = .buffer p b ∧ tget s.bufs (bufKey p b) = some r ∧ r.owner = queue) ∧
  (∃ (s : State) (pool : Nat) (buf : Nat) (requester : Nat) (r : BufRec), pool < 6 ∧ buf < 2 ^ 24 ∧ requester < 2 ^ 24 ∧ s.live pgBPM = true ∧ tget s.bufs (bufKey pool buf) = some r ∧ r.owner = requester) ∧
  (∃ (s : State) (pool : Nat) (buf : Nat) (requester : Nat) (r : BufRec), pool < 6 ∧ buf < 2 ^ 24 ∧ requester < 2 ^ 24 ∧ s.live pgBPM = true ∧ tget s.bufs (bufKey pool buf) = some r ∧ r.owner ≠ requester) ∧
  (∃ (s : State) (profile : Nat) (value : Nat), s.Reaches pgADM 0x8000 ∧ profile < 64 ∧ s.rd pgADM ADM.PROF_MIN_GUAR profile ≤ value % 2 ^ 28) ∧
  (∃ (s : State) (profile : Nat) (value : Nat), s.Reaches pgADM 0x8000 ∧ profile < 64 ∧ value % 2 ^ 28 < s.rd pgADM ADM.PROF_MIN_GUAR profile) :=
  ⟨⟨wQd, wFr, [], 262184, 0, by decide +kernel⟩,
   ⟨wSpill, 4, 0, { owner := 9, staged := 64 }, by decide +kernel⟩,
   ⟨wHbmQ .hbm, 9, wFrH .hbm, by decide +kernel⟩,
   ⟨wHbmQ .reading, 9, 4, 0, wFrH .reading, { owner := 9 }, by decide +kernel⟩,
   ⟨wSpill, 4, 0, 9, { owner := 9, staged := 64 }, by decide +kernel⟩,
   ⟨wSpill, 4, 0, 8, { owner := 9, staged := 64 }, by decide +kernel⟩,
   ⟨wBase, 3, 99999, by decide +kernel⟩,
   ⟨wst [(pgADM, ADM.PROF_Q_MAX, 9, 3), (pgADM, ADM.PROF_MIN_GUAR, 5, 3)], 3, 4, by decide +kernel⟩⟩

theorem test_witness_multicast_replicas :
  (∃ (s : State) (f : Frame) (rest : List Frame) (m : Nat) (b : Nat), s.toQd = f :: rest ∧ f.nhType = 6 ∧ s.bandUp = true ∧ s.qdOn = true ∧ s.enabled pgMCR = true ∧ f.cut = false ∧ f.len ≤ 16384 ∧ bit (tgetD s.groups (f.dest % 65536) 0) 31 = true ∧ bits (tgetD s.groups (f.dest % 65536) 0) 18 11 ≠ 0 ∧ m < 8192 ∧ tget s.mcds m = none ∧ s.pickBuf (chipPool (some f.len)) = some b) ∧
  (∃ (s : State) (f : Frame) (rest : List Frame) (m : Nat) (b : Nat) (q : Nat) (e : Nat), s.toQd = f :: rest ∧ f.nhType = 6 ∧ s.bandUp = true ∧ s.qdOn = true ∧ s.enabled pgMCR = true ∧ f.cut = false ∧ f.len ≤ 16384 ∧ bit (tgetD s.groups (f.dest % 65536) 0) 31 = true ∧ bits (tgetD s.groups (f.dest % 65536) 0) 18 11 ≠ 0 ∧ m < 8192 ∧ tget s.mcds m = none ∧ s.pickBuf (chipPool (some f.len)) = some b ∧ bits (tgetD s.groups (f.dest % 65536) 0) 18 11 = 1 ∧ e = tgetD s.repList (bits (tgetD s.groups (f.dest % 65536) 0) 0 18) 0 ∧ bit e 31 = false ∧ q = e % 262144 ∧ f.ecn = none ∧ s.queueClosed q = false ∧ s.expressOver q f.len = false ∧ (s.que q).residue = [] ∧ s.admission q f.len false = none) ∧
  (∃ (s : State) (mcd : Nat) (rep : Nat) (y : Replica), s.live pgMCR = true ∧ (s.mcd mcd).wait = true ∧ (s.mcd mcd).reps[rep]? = some y ∧ y.state = .residue ∧ (s.que y.queue).residue.head? = some (mcd, rep) ∧ s.admission y.queue y.frame.qlen false = none ∧ y.frame.ecn = none) ∧
  (∃ (s : State) (mcd : Nat) (y : Replica), s.live pgMCR = true ∧ (s.mcd mcd).since + ticksUs (max 1 (s.rd pgMCR MCR.MCR_CTL_RES_TO_US)) ≤ s.ticks ∧ (s.mcd mcd).wait = true ∧ (s.mcd mcd).reps = [y] ∧ y.state = .residue ∧ (s.mcd mcd).remain ≤ 1 ∧ s.residueReady mcd 0 = false) ∧
  (∃ (s : State) (mcd : Nat) (y : Replica), s.live pgMCR = true ∧ s.pressedMcd = some mcd ∧ s.pressDue = true ∧ (s.mcd mcd).wait = true ∧ (s.mcd mcd).reps = [y] ∧ y.state = .residue ∧ (s.mcd mcd).remain ≤ 1 ∧ s.residueReady mcd 0 = false) ∧
  (∃ (s : State) (mcd : Nat) (rep : Nat) (x : Mcd) (y : Replica), s.live pgMCR = true ∧ tget s.mcds mcd = some x ∧ x.reps[rep]? = some y ∧ y.state = .queued ∧ 1 < x.remain) ∧
  (∃ (s : State) (mcd : Nat) (rep : Nat) (x : Mcd) (y : Replica), s.live pgMCR = true ∧ tget s.mcds mcd = some x ∧ x.reps[rep]? = some y ∧ y.state = .queued ∧ x.remain ≤ 1) ∧
  (∃ (s : State) (mcd : Nat), s.live pgMCR = true ∧ tget s.mcds mcd = none) ∧
  (∃ (s : State) (value : Nat), s.Reaches pgMCR MCR.GRP_DATA_LIST_BASE.off ∧ bits value 18 11 ≤ 1024 ∧ bits value 0 18 + bits value 18 11 ≤ 262144) ∧
  (∃ (s : State), s.Reaches pgMCR MCR.LIST_DATA_REPLICA.off) :=
  ⟨⟨wMc, wFrM, [], 5, 0, by decide +kernel⟩,
   ⟨wMc, wFrM, [], 5, 0, 7, 7, by decide +kernel⟩,
   ⟨wResid 1 7, 5, 0, wRepl .residue, by decide +kernel⟩,
   ⟨{ wResid 1 6 with ticks := 10 ^ 12 }, 5, wRepl .residue, by decide +kernel⟩,
   ⟨(wResid 1 6).wr pgMCR MCR.MCR_CTL_RES_PRESS_PM 0, 5, wRepl .residue, by decide +kernel⟩,
   ⟨wResidQ 2, 5, 0, wMcdX .queued 2, wRepl .queued, by decide +kernel⟩,
   ⟨wResidQ 1, 5, 0, wMcdX .queued 1, wRepl .queued, by decide +kernel⟩,
   ⟨wBase, 5, by decide +kernel⟩,
   ⟨wBase, 0x80040007, by decide +kernel⟩,
   ⟨wBase, by decide +kernel⟩⟩

theorem test_witness_scheduler_commands :
  (∃ (s : State) (port : Nat) (q : Nat) (path : List (Nat × Nat × Bool)), port < 256 ∧ s.schedOn = true ∧ ((s.elig 1 port).1 = true ∨ (s.elig 1 port).2 = true) ∧ (s.descend 4 1 port).map (fun x => x.2) = some path ∧ path.getLast?.map (fun x => x.2.1) = some q ∧ s.discards port = false) ∧
  (∃ (s : State) (slot : Nat) (q : Nat) (f : Frame) (rest : List Frame), s.macSends slot = true ∧ (s.mac slot).sending = [] ∧ s.pickQueue slot = some q ∧ (s.mac slot).txq.getD q [] = f :: rest) ∧
  (∃ (s : State) (level : Nat) (i : Nat), 1 ≤ level ∧ level ≤ 5 ∧ s.Reaches (pgSCH level) SCH.NODE_CMD_OP.off ∧ i = s.rd (pgSCH level) SCH.NODE_IDX_INDEX ∧ s.nodeErr level i (s.stagedNode level) = 0) ∧
  (∃ (s : State) (level : Nat) (i : Nat) (k : Nat), 1 ≤ level ∧ level ≤ 5 ∧ s.Reaches (pgSCH level) SCH.NODE_CMD_OP.off ∧ i = s.rd (pgSCH level) SCH.NODE_IDX_INDEX ∧ i < levelSize level ∧ k < 4) ∧
  (∃ (s : State) (profile : Nat) (value : Nat), s.Reaches pgSHP 0x8000 ∧ profile < 4096 ∧ bit value 31 = true) ∧
  (∃ (s : State) (profile : Nat), s.Reaches pgSHP 0x8000 ∧ profile < 4096) ∧
  (∃ (s : State) (q : Nat), s.Reaches pgQSU QSU.QSU_CMD_OP.off ∧ s.flush = none ∧ q = s.rd pgQSU QSU.QSU_CMD_Q_QUEUE ∧ q < 294912) ∧
  (∃ (s : State) (x : Flush), s.live pgQSU = true ∧ s.flush = some x ∧ x.sweep = false ∧ x.quiet = false) ∧
  (∃ (s : State) (x : Flush), s.Reaches pgQSU QSU.QSU_CMD_OP.off ∧ s.flush = some x ∧ x.dropped = 0 ∧ x.quiet = false) ∧
  (∃ (s : State) (v : Nat), s.enabled pgQSU = true ∧ s.enabled pgFAB = true ∧ s.voqList = [v] ∧ s.voqHeld v = false ∧ v % 8 = 7 ∧ (voqRun 0 (s.que (voq0 + v)).frames).1.all (fun f => !f.poison && !f.err && f.fcsGood) = true) :=
  ⟨⟨wSched, 0, 7, [(2, 0, true), (3, 0, true), (4, 1, true), (5, 7, true)], by decide +kernel⟩,
   ⟨wTake, 3, 1, wFr, [], by decide +kernel⟩,
   ⟨wNodeW, 4, 9, by decide +kernel⟩,
   ⟨wNodeW, 4, 9, 0, by decide +kernel⟩,
   ⟨wBase, 9, 0x80000005, by decide +kernel⟩,
   ⟨wBase, 9, by decide +kernel⟩,
   ⟨wFlushQ, 9, by decide +kernel⟩,
   ⟨wFlush, ⟨9, false, 7, 0, false, false⟩, by decide +kernel⟩,
   ⟨wFlush, ⟨9, false, 7, 0, false, false⟩, by decide +kernel⟩,
   ⟨wVoq, 47, by decide +kernel⟩⟩

theorem test_witness_fabric_link_states :
  (∃ (s : State) (link : Nat), link < s.linkCount ∧ s.Reaches (linkPage link) (0x100 + 32 * linkSlot link) ∧ s.linkState link = lOFF) ∧
  (∃ (s : State) (link : Nat), link < s.linkCount ∧ s.Reaches (linkPage link) (0x100 + 32 * linkSlot link)) ∧
  (∃ (s : State) (link : Nat), s.linkOk link = true ∧ s.linkState link = lADAPT) ∧
  (∃ (s : State) (link : Nat), s.linkOk link = true ∧ s.linkState link = lADAPT ∧ s.linkFor link (ticksMs (s.rd pgFAB FAB.TRAIN_TMO_ADAPT_MS)) = true) ∧
  (∃ (s : State) (link : Nat), s.linkOk link = true ∧ s.linkState link = lLOCK) ∧
  (∃ (s : State) (link : Nat), s.linkOk link = true ∧ s.linkState link = lLOCK ∧ s.linkFor link (ticksMs (s.rd pgFAB FAB.TRAIN_TMO_LOCK_MS)) = true) ∧
  (∃ (s : State) (link : Nat), s.linkOk link = true ∧ s.linkState link = lACTIVE) ∧
  (∃ (s : State) (link : Nat), s.linkOk link = true ∧ s.linkState link = lACTIVE ∧ s.rd pgFAB FAB.PCS_CFG_UNCORR_DOWN ≠ 0) ∧
  (∃ (s : State) (link : Nat), s.linkOk link = true ∧ s.linkState link = lHELLO ∧ s.helloLate link = true) ∧
  (∃ (s : State) (link : Nat), s.linkOk link = true ∧ s.linkState link = lACTIVE ∧ s.helloLate link = true) ∧
  (∃ (s : State) (link : Nat), link < s.linkCount ∧ s.Reaches (linkPage link) (0x100 + 32 * linkSlot link) ∧ s.linkState link = lACTIVE) ∧
  (∃ (s : State) (link : Nat), s.linkOk link = true ∧ s.linkState link = lDOWN ∧ s.lrd link FIU.LINK_CTL_EN = 1 ∧ s.linkFor link (ticksMs (s.rd pgFAB FAB.TRAIN_TMO_HOLDDOWN_MS)) = true) ∧
  (∃ (s : State) (link : Nat), link < s.linkCount ∧ s.Reaches (linkPage link) (0x100 + 32 * linkSlot link) ∧ s.linkState link = lACTIVE ∧ s.linkLaneTx link = true) ∧
  (∃ (s : State) (link : Nat), s.linkOk link = true ∧ s.linkState link = lDOZE) ∧
  (∃ (s : State) (link : Nat), s.linkOk link = true ∧ s.linkState link = lWAKE ∧ s.lrd link FIU.LINK_STS_SF_LOCK = 1 ∧ (s.link link).acked = true ∧ s.lrd link FIU.LINK_CTL_FORCE_DOWN = 0) ∧
  (∃ (s : State) (link : Nat), s.linkOk link = true ∧ s.linkState link = lWAKE ∧ s.linkFor link (ticksUs 10) = true) :=
  ⟨⟨wLnk lOFF [], 3, by decide +kernel⟩,
   ⟨wLnk lACTIVE [], 3, by decide +kernel⟩,
   ⟨wLnk lADAPT [], 3, by decide +kernel⟩,
   ⟨{ wLnk lADAPT [] with ticks := 10 ^ 12 }, 3, by decide +kernel⟩,
   ⟨wLnk lLOCK [], 3, by decide +kernel⟩,
   ⟨{ wLnk lLOCK [] with ticks := 10 ^ 12 }, 3, by decide +kernel⟩,
   ⟨wLnk lACTIVE [], 3, by decide +kernel⟩,
   ⟨wLnk lACTIVE [(pgFAB, FAB.PCS_CFG_UNCORR_DOWN, 5, 0)], 3, by decide +kernel⟩,
   ⟨{ wLnk lHELLO [] with ticks := 10 ^ 12 }, 3, by decide +kernel⟩,
   ⟨{ wLnk lACTIVE [] with ticks := 10 ^ 12 }, 3, by decide +kernel⟩,
   ⟨wLnk lACTIVE [], 3, by decide +kernel⟩,
   ⟨{ wLnk lDOWN [(pgFIU 0, FIU.LINK_CTL_EN, 1, 3)] with ticks := 10 ^ 12 }, 3, by decide +kernel⟩,
   ⟨wLnk lACTIVE [], 3, by decide +kernel⟩,
   ⟨wLnk lDOZE [], 3, by decide +kernel⟩,
   ⟨(wLnk lWAKE [(pgFIU 0, FIU.LINK_STS_SF_LOCK, 1, 3)]).setLink 3 { acked := true }, 3, by decide +kernel⟩,
   ⟨{ wLnk lWAKE [] with ticks := 10 ^ 12 }, 3, by decide +kernel⟩⟩

set_option maxRecDepth 40000 in
theorem test_witness_fabric_control_cells :
  (∃ (s : State) (link : Nat) (cell : List Byte), s.linkReceives link = true ∧ cellGood cell = true ∧ bits (beNat (cell.take 16)) 126 2 = 1 ∧ bits (beNat (cell.take 16)) 120 6 = 1 ∧ s.linkState link = lHELLO ∧ s.helloPasses link (beNat (cell.take 16)) (pad512 (cell.drop 16)) = true ∧ bit (beAt (pad512 (cell.drop 16)) 2 1) 1 = true ∧ s.lrd link FIU.LINK_CTL_FORCE_DOWN = 0) ∧
  (∃ (s : State) (link : Nat), s.linkOk link = true ∧ s.linkState link = lACTIVE ∧ s.linkLaneTx link = true ∧ (s.link link).sframe.length < 19) ∧
  (∃ (s : State) (link : Nat), s.linkOk link = true ∧ s.linkState link = lACTIVE ∧ s.linkLaneTx link = true ∧ (s.link link).sframe.length < 19 ∧ s.isElement = true) ∧
  (∃ (s : State) (link : Nat) (cell : List Byte), s.linkReceives link = true ∧ cellGood cell = true ∧ bits (beNat (cell.take 16)) 126 2 = 1 ∧ bits (beNat (cell.take 16)) 120 6 = 2) ∧
  (∃ (s : State) (l : Nat), s.isElement = true ∧ l ∈ s.activeLinks ∧ s.isUp l = false ∧ s.linkLaneTx l = true) ∧
  (∃ (s : State) (link : Nat) (cell : List Byte), s.linkReceives link = true ∧ cellGood cell = true ∧ bits (beNat (cell.take 16)) 126 2 = 1 ∧ bits (beNat (cell.take 16)) 120 6 = 3) ∧
  (∃ (s : State) (link : Nat) (cell : List Byte), s.linkReceives link = true ∧ cellGood cell = true ∧ bits (beNat (cell.take 16)) 126 2 = 1 ∧ bits (beNat (cell.take 16)) 120 6 = 5 ∧ s.linkState link = lACTIVE ∧ s.lrd link FIU.LINK_CTL_DOZE_ALLOW = 1 ∧ s.linkLaneTx link = true) ∧
  (∃ (s : State) (link : Nat) (cell : List Byte), s.linkReceives link = true ∧ cellGood cell = true ∧ bits (beNat (cell.take 16)) 126 2 = 1 ∧ bits (beNat (cell.take 16)) 120 6 = 6 ∧ s.linkState link = lACTIVE ∧ s.lrd link FIU.LINK_CTL_DOZE = 1) ∧
  (∃ (s : State) (link : Nat) (cell : List Byte), s.linkReceives link = true ∧ cellGood cell = true ∧ bits (beNat (cell.take 16)) 126 2 = 1 ∧ bits (beNat (cell.take 16)) 120 6 = 9 ∧ s.live pgFAB = true) ∧
  (∃ (s : State) (x : NetTime), s.Reaches pgFAB FAB.SNAP_CMD_SEND.off ∧ x = { s.nt.shift (s.rd pgFAB FAB.SNAP_CMD_LEAD_US * 1000 * 2 ^ 48 : Nat) with frac := 0 }) ∧
  (∃ (s : State) (link : Nat) (cell : List Byte) (x : NetTime), s.linkReceives link = true ∧ cellGood cell = true ∧ bits (beNat (cell.take 16)) 126 2 = 1 ∧ bits (beNat (cell.take 16)) 120 6 = 4 ∧ beAt (pad512 (cell.drop 16)) 0 2 ≠ s.rd pgFAB FAB.SNAP_STS_LAST_ID ∧ x = { sec := beAt (pad512 (cell.drop 16)) 2 6, ns := beAt (pad512 (cell.drop 16)) 8 4 % 2 ^ 30 } ∧ s.on pgCRWN CRWN.STROBE_CTL_FABRIC_EN = true ∧ x.lt s.nt = false) ∧
  (∃ (s : State) (x : NetTime), s.live pgFAB = true ∧ s.fabStrobe = some x ∧ s.nt.lt x = false ∧ s.strobeAt = none) :=
  ⟨⟨wRx lHELLO [], 3, wCtl 1 1 [0, 0, 2], by decide +kernel⟩,
   ⟨wLnk lACTIVE [], 3, by decide +kernel⟩,
   ⟨wEl lACTIVE, 3, by decide +kernel⟩,
   ⟨wRx lACTIVE [], 3, wCtl 2 1 [128], by decide +kernel⟩,
   ⟨wEl lACTIVE, 3, by decide +kernel⟩,
   ⟨wRx lACTIVE [], 3, wCtl 3 1 [128], by decide +kernel⟩,
   ⟨wRx lACTIVE [(pgFIU 0, FIU.LINK_CTL_DOZE_ALLOW, 1, 3)], 3, wCtl 5 1 [], by decide +kernel⟩,
   ⟨wRx lACTIVE [(pgFIU 0, FIU.LINK_CTL_DOZE, 1, 3)], 3, wCtl 6 1 [], by decide +kernel⟩,
   ⟨wRx lACTIVE [], 3, wCtl 9 1 [], by decide +kernel⟩,
   ⟨wBase, { wBase.nt.shift (wBase.rd pgFAB FAB.SNAP_CMD_LEAD_US * 1000 * 2 ^ 48 : Nat) with frac := 0 }, by decide +kernel⟩,
   ⟨wRx lACTIVE [(pgCRWN, CRWN.STROBE_CTL_FABRIC_EN, 1, 0)], 3, wCtl 4 1 [0, 9], { sec := 0, ns := 0 }, by decide +kernel⟩,
   ⟨{ wBase with fabStrobe := some {} }, {}, by decide +kernel⟩⟩

set_option maxRecDepth 40000 in
theorem test_witness_fabric_data_cells :
  (∃ (s : State) (x : Spray) (rest : List Spray) (e : Nat) (l : Nat), s.spray = x :: rest ∧ s.enabled pgFAB = true ∧ s.sprayLink x.dst = some (e, l) ∧ (s.link l).fifo.length < 4) ∧
  (∃ (s : State) (link : Nat) (j : Nat) (b : Nat) (cell : List Byte) (d : Cell), s.fabric = true ∧ s.live pgFEL = true ∧ s.isElement = true ∧ s.linkReceives link = true ∧ cellGood cell = true ∧ decodeCell cell = d ∧ d.type = 0 ∧ s.linkCrosses link = true ∧ d.hop < 3 ∧ d.cls = 7 ∧ s.maskOf d.dst = [j] ∧ (s.isUp link && s.isUp j) = false ∧ (s.felQueue (8192 + j)).length < s.rd pgFEL FEL.QLIMITS_EXP_QMAX ∧ s.enabled pgBPM = true ∧ s.on pgBPM BPM.CARVE_STS_APPLIED = true ∧ s.pickBuf 1 = some b) ∧
  (∃ (s : State) (link : Nat) (d : FelCell) (rest : List FelCell), s.linkOk link = true ∧ s.linkState link = lACTIVE ∧ s.isElement = true ∧ (s.link link).slotAt ≠ some (slotOf s.ticks) ∧ s.linkCrosses link = true ∧ s.linkLaneTx link = true ∧ s.felQueue (8192 + link) = d :: rest ∧ d.express = true) ∧
  (∃ (s : State) (link : Nat) (cell : List Byte) (d : Cell), s.fabric = false ∧ s.live pgLIN = true ∧ s.enabled pgLIN = true ∧ s.linkReceives link = true ∧ cellGood cell = true ∧ decodeCell cell = d ∧ d.type = 0 ∧ d.dst = s.ownId ∧ (s.lin (8 * d.src + d.cls)).idle = false ∧ (s.lin (8 * d.src + d.cls)).next = d.seq ∧ (s.lin (8 * d.src + d.cls)).held = [] ∧ d.sof = true ∧ d.eof = true ∧ d.seq < 2 ^ 20 ∧ 0 < s.linWindow ∧ s.linUsed < 65536) ∧
  (∃ (s : State) (source : Nat) (cls : Nat) (k : Nat) (q : Nat) (h : LinCell), source < 4096 ∧ cls < 8 ∧ k = 8 * source + cls ∧ s.live pgLIN = true ∧ (s.lin k).held = [(q, h)] ∧ q < 2 ^ 20 ∧ (s.lin k).idle = false ∧ s.linLate k = true ∧ (s.lin k).partial_ = none ∧ h.sof = true ∧ h.eof = false) ∧
  (∃ (s : State) (source : Nat) (cls : Nat), source < 4096 ∧ cls < 8 ∧ s.live pgLIN = true ∧ (s.lin (8 * source + cls)).held = [] ∧ (s.lin (8 * source + cls)).idle = false ∧ ticksUs (s.rd pgLIN LIN.LIN_IDLE_CTX_IDLE_US) ≤ s.ticks - (s.lin (8 * source + cls)).heardAt) :=
  ⟨⟨wSpray, { frame := wFr, dst := 5, cls := 7, sent := 0 }, [], 3, 3, by decide +kernel⟩,
   ⟨wElRx, 3, 4, 0, wDat 5 0, decodeCell (wDat 5 0), by decide +kernel⟩,
   ⟨(wEl lACTIVE).setFel 8195 [⟨[1], 5, true, 0⟩], 3, ⟨[1], 5, true, 0⟩, [], by decide +kernel⟩,
   ⟨wLin, 3, wDat 0 3, decodeCell (wDat 0 3), by decide +kernel⟩,
   ⟨{ wLinT with ticks := 10 ^ 12 }, 1, 7, 15, 4, ⟨[1], true, false, 0, 0, 0⟩, by decide +kernel⟩,
   ⟨{ wLin with ticks := 10 ^ 12 }, 1, 7, by decide +kernel⟩⟩

theorem test_witness_pcie_link_and_reads :
  (∃ (s : State) (speed : Nat) (lanes : Nat), s.live pgPCE = true ∧ s.perstHigh = true ∧ 8 ≤ lanes ∧ speed ≠ 0) ∧
  (∃ (s : State) (lanes : Nat), s.live pgPCE = true ∧ s.perstHigh = true ∧ lanes < 8) ∧
  (∃ (s : State), s.live pgPCE = true) ∧
  (∃ (s : State), s.live pgPCE = true ∧ s.on pgPCE PCE.LINK_STS_LINK_UP = true) ∧
  (∃ (s : State), s.live pgPCE = true) ∧
  (∃ (s : State) (fn : Nat) (tag : Nat) (data : List Byte) (x : TagSlot), s.live pgPCE = true ∧ s.tagOf fn tag = some x ∧ x.quarantined = false ∧ x.squashed = false ∧ x.len ≤ (x.got ++ data).length) ∧
  (∃ (s : State) (fn : Nat) (tag : Nat) (data : List Byte) (x : TagSlot), s.live pgPCE = true ∧ s.tagOf fn tag = some x ∧ x.quarantined = false ∧ x.squashed = false ∧ (x.got ++ data).length < x.len) ∧
  (∃ (s : State) (fn : Nat) (tag : Nat), s.live pgPCE = true ∧ s.tagOf fn tag = none) ∧
  (∃ (s : State) (fn : Nat) (tag : Nat) (x : TagSlot), s.live pgPCE = true ∧ s.tagOf fn tag = some x ∧ x.quarantined = false ∧ x.squashed = false ∧ s.timesOut x = true) ∧
  (∃ (s : State) (fn : Nat) (tag : Nat) (x : TagSlot), s.live pgPCE = true ∧ s.tagOf fn tag = some x ∧ x.quarantined = false ∧ x.squashed = true ∧ s.deadlinePassed x = true) ∧
  (∃ (s : State) (fn : Nat) (tag : Nat) (x : TagSlot), s.live pgPCE = true ∧ s.tagOf fn tag = some x ∧ x.quarantined = true ∧ x.issued + ticksMs 1000 ≤ s.ticks) ∧
  (∃ (s : State) (fn : Nat) (vec : Nat), s.live pgPCE = true ∧ vec < vectorsOf fn) ∧
  (∃ (s : State) (fn : Nat) (vec : Nat), s.live pgPCE = true ∧ vec < vectorsOf fn ∧ (tgetD (s.fnS fn).vecs vec {}).pend = true ∧ (s.fnS fn).sends = true ∧ (s.fnS fn).msixEn = true ∧ (s.fnS fn).msixMask = false) :=
  ⟨⟨wPcie, 4, 16, by decide⟩,
   ⟨wPcie, 7, by decide⟩,
   ⟨wPcie, by decide⟩,
   ⟨wst [(pgPCE, PCE.LINK_STS_LINK_UP, 1, 0)], by decide⟩,
   ⟨wPcie, by decide⟩,
   ⟨wTag {}, 0, 7, [1, 2], wSlot {}, by decide⟩,
   ⟨wTag {}, 0, 7, [1], wSlot {}, by decide⟩,
   ⟨wPcie, 0, 7, by decide⟩,
   ⟨{ wTag {} with ticks := 2 ^ 32 }, 0, 7, wSlot {}, by decide⟩,
   ⟨{ wTag { squashed := true } with ticks := 2 ^ 32 }, 0, 7, wSlot { squashed := true }, by decide⟩,
   ⟨{ wTag { quarantined := true } with ticks := 2 ^ 32 }, 0, 7, wSlot { quarantined := true }, by decide⟩,
   ⟨wPcie, 1, 3, by decide⟩,
   ⟨wPend, 1, 3, by decide⟩⟩

theorem test_witness_pcie_functions :
  (∃ (s : State) (fn : Nat), s.live pgPCE = true ∧ s.cfgReady fn = some true) ∧
  (∃ (s : State) (fn : Nat), s.live pgPCE = true ∧ s.cfgReady fn = some false) ∧
  (∃ (s : State) (fn : Nat) (offset : Nat) (enables : Nat) (o : Nat) (m : Nat), s.live pgPCE = true ∧ s.cfgReady fn = some true ∧ o = offset / 4 * 4 % 4096 ∧ (o ≠ 4 ∧ o ≠ 0x44 ∧ o ≠ 0x50 ∧ o ≠ 0x78 ∧ o ≠ 0x308 ∧ o ≠ 0x310) ∧ m = andBits (s.cfgMask fn o) (enableMask enables)) ∧
  (∃ (s : State) (fn : Nat) (bar : Nat) (offset : Nat), s.live pgPCE = true ∧ bar = 2 ∧ s.decodes fn bar offset 1 = true ∧ offset % 16 = 8 ∧ offset < 16 * vectorsOf fn) ∧
  (∃ (s : State) (fn : Nat) (bar : Nat) (offset : Nat) (w : Nat) (p : Nat), s.live pgPCE = true ∧ bar = 0 ∧ s.decodes fn bar offset 1 = true ∧ fn ≠ 1 ∧ s.doorbellQp fn offset = some p ∧ offset % 4096 = 0 ∧ s.live pgDMA = true ∧ (w % 65536 + 65536 - (s.qp p).txHead) % 65536 ≤ (s.qp p).txSize) ∧
  (∃ (s : State) (fn : Nat) (bar : Nat) (offset : Nat), s.live pgPCE = true ∧ bar = 2 ∧ s.decodes fn bar offset 1 = true) ∧
  (∃ (s : State) (fn : Nat), s.live pgPCE = true ∧ s.fnThere fn = true ∧ (s.fnS fn).bme = true) ∧
  (∃ (s : State) (fn : Nat), s.live pgPCE = true ∧ s.fnThere fn = true ∧ (s.fnS fn).flr = none ∧ fn ≠ 0) ∧
  (∃ (s : State), s.live pgPCE = true ∧ (s.fnS 0).flr = none) ∧
  (∃ (s : State) (fn : Nat) (start : Nat), s.live pgPCE = true ∧ (s.fnS fn).flr = some start ∧ (s.tags.any (fun y => decide (y.fn = fn) && !y.quarantined)) = false ∧ s.handsOff fn = false ∧ fn ≠ 1 ∧ (s.fnS fn).removing = false) ∧
  (∃ (s : State), s.live pgPCE = true) ∧
  (∃ (s : State) (numVfs : Nat), s.live pgPCE = true ∧ (s.fnS 0).flr = none ∧ s.numVfs = 0 ∧ s.fabric = false ∧ numVfs ≤ 1024) ∧
  (∃ (s : State), s.live pgPCE = true ∧ 0 < s.numVfs) :=
  ⟨⟨wPcie, 0, by decide⟩,
   ⟨wBase, 0, by decide⟩,
   ⟨wPcie, 0, 0x3C, 15, 0x3C, wPcie.cfgMask 0 0x3C, by decide⟩,
   ⟨wMem, 0, 2, 40, by decide⟩,
   ⟨wMem, 0, 0, 0x5000, 1, 5, by decide⟩,
   ⟨wMem, 0, 2, 40, by decide⟩,
   ⟨wMem, 0, by decide⟩,
   ⟨wMem, 1, by decide⟩,
   ⟨wMem, by decide⟩,
   ⟨{ wPcie with fns := [(0, { flr := some 5 })] }, 0, 5, by decide⟩,
   ⟨wPcie, by decide⟩,
   ⟨wPcie, 8, by decide⟩,
   ⟨wVfs, by decide⟩⟩

theorem test_witness_queue_pair_rings :
  (∃ (s : State) (qp : Nat) (index : Nat), qp < 8192 ∧ s.live pgDMA = true ∧ (s.qp qp).owner.isSome = true ∧ (index % 65536 + 65536 - (s.qp qp).txHead) % 65536 ≤ (s.qp qp).txSize) ∧
  (∃ (s : State) (qp : Nat) (index : Nat), qp < 8192 ∧ s.live pgDMA = true ∧ (s.qp qp).owner.isSome = true ∧ (s.qp qp).txSize < (index % 65536 + 65536 - (s.qp qp).txHead) % 65536 ∧ 7 < (s.qp qp).cnt.length) ∧
  (∃ (s : State) (qp : Nat) (index : Nat), qp < 8192 ∧ s.live pgDMA = true ∧ (s.qp qp).owner.isSome = true ∧ (index % 65536 + 65536 - (s.qp qp).rxHead) % 65536 ≤ (s.qp qp).rxSize) ∧
  (∃ (s : State) (qp : Nat) (index : Nat), qp < 8192 ∧ s.live pgDMA = true ∧ (s.qp qp).owner.isSome = true ∧ (s.qp qp).rxSize < (index % 65536 + 65536 - (s.qp qp).rxHead) % 65536 ∧ 7 < (s.qp qp).cnt.length) ∧
  (∃ (s : State) (qp : Nat) (index : Nat), qp < 8192 ∧ s.live pgDMA = true ∧ (s.qp qp).owner.isSome = true ∧ (index % 131072 + 131072 - (s.qp qp).cqHead) % 131072 ≤ (s.qp qp).cqHeld) ∧
  (∃ (s : State) (qp : Nat) (index : Nat), qp < 8192 ∧ s.live pgDMA = true ∧ (s.qp qp).owner.isSome = true ∧ (s.qp qp).cqHeld < (index % 131072 + 131072 - (s.qp qp).cqHead) % 131072 ∧ 7 < (s.qp qp).cnt.length) ∧
  (∃ (s : State) (qp : Nat), qp < 8192 ∧ s.live pgDMA = true ∧ (s.qp qp).owner.isSome = true ∧ (s.qp qp).unsig = 0) ∧
  (∃ (s : State) (qp : Nat), qp < 8192 ∧ s.live pgDMA = true ∧ (s.qp qp).owner.isSome = true ∧ (s.fnS (fnOf (s.qp qp).fn)).delivers (s.qp qp).vec = true ∧ 0 < (s.qp qp).unsig ∧ (s.qp qp).modCnt ≤ (s.qp qp).unsig) ∧
  (∃ (s : State) (qp : Nat), qp < 8192 ∧ s.live pgDMA = true ∧ (s.fnS (fnOf (s.qp qp).fn)).delivers (s.qp qp).vec = true ∧ (s.qp qp).arm = true ∧ 0 < (s.qp qp).unsig ∧ (s.qp qp).unsigAt + ticksUs (s.qp qp).modUs ≤ s.ticks) ∧
  (∃ (s : State) (qp : Nat) (l : List (List Nat)) (n : Nat) (reads : List (Nat × Nat)), qp < 8192 ∧ s.enabled pgDMA = true ∧ s.txActive.contains qp = true ∧ s.txCur = qp ∧ 0 < (s.qp qp).deficit ∧ s.pathAsleep = false ∧ s.tagRoom ≠ 0 ∧ txScan (s.qp qp).txPhase (s.qp qp).txHead (s.qp qp).txSize 0 0 (l.take (s.qp qp).txWork) = .frame n ∧ bits ((l.headD []).getD 2 0) 16 8 = 0 ∧ reads = (l.take n).flatMap (fun (d : List Nat) => chunks (s.mrrs (fnOf (s.qp qp).fn)) (bits (d.getD 2 0) 0 14) (d.getD 0 0 + d.getD 1 0 * 2 ^ 32) (bits (d.getD 2 0) 0 14)) ∧ reads.length ≤ s.tagRoom ∧ (s.issueReads (fnOf (s.qp qp).fn) qp (s.qp qp).txHead 0 reads).isSome = true) ∧
  (∃ (s : State) (qp : Nat) (f : TxFrame) (rest : List TxFrame), qp < 8192 ∧ s.live pgDMA = true ∧ (s.qp qp).frames = f :: rest ∧ f.done = true ∧ f.squashed = false ∧ (s.qp qp).cqFull = false ∧ f.bad = false ∧ bits ((f.descs.headD []).getD 2 0) 16 8 = 0 ∧ bit ((f.descs.headD []).getD 2 0) 24 = false) ∧
  (∃ (s : State) (qp : Nat) (f : TxFrame) (rest : List TxFrame), qp < 8192 ∧ s.live pgDMA = true ∧ (s.qp qp).frames = f :: rest ∧ f.done = true ∧ f.squashed = true ∧ 5 < (s.qp qp).cnt.length) ∧
  (∃ (s : State) (f : Frame) (rest : List Frame) (qp : Nat) (need : Nat) (l : List (List Nat)), s.hostRx = f :: rest ∧ s.enabled pgDMA = true ∧ s.pathAsleep = false ∧ s.tagRoom ≠ 0 ∧ qp = f.qp % 8192 ∧ (s.qp qp).owner.isSome = true ∧ (s.qp qp).fn = 0 ∧ (s.qp qp).state = 1 ∧ (s.fnS 0).sends = true ∧ f.ofl = 0 ∧ (s.qp qp).cqFull = false ∧ need = max 1 ((f.bytes.length + (s.qp qp).rxBuf - 1) / (s.qp qp).rxBuf) ∧ need ≤ 8 ∧ need ≤ (s.qp qp).rxWork ∧ need ≤ l.length ∧ rxBad (s.qp qp).rxPhase (s.qp qp).rxHead (s.qp qp).rxSize 0 (l.take need) = none) ∧
  (∃ (s : State) (f : Frame) (rest : List Frame) (qp : Nat) (need : Nat), s.hostRx = f :: rest ∧ s.enabled pgDMA = true ∧ s.pathAsleep = false ∧ s.tagRoom ≠ 0 ∧ qp = f.qp % 8192 ∧ (s.qp qp).owner.isSome = true ∧ (s.qp qp).fn = 0 ∧ (s.qp qp).state = 1 ∧ (s.fnS 0).sends = true ∧ f.ofl = 0 ∧ (s.qp qp).cqFull = false ∧ need = max 1 ((f.bytes.length + (s.qp qp).rxBuf - 1) / (s.qp qp).rxBuf) ∧ (s.qp qp).rxWork < need ∧ 4 < (s.qp qp).cnt.length) :=
  ⟨⟨wQp, 5, 64, by decide +kernel⟩,
   ⟨wQp, 5, 65, by decide +kernel⟩,
   ⟨wQp, 5, 64, by decide +kernel⟩,
   ⟨wQp, 5, 65, by decide +kernel⟩,
   ⟨wQpL [] { wQpX with cqTail := 4 }, 5, 4, by decide +kernel⟩,
   ⟨wQpL [] { wQpX with cqTail := 4 }, 5, 5, by decide +kernel⟩,
   ⟨wQp, 5, by decide +kernel⟩,
   ⟨wQpL [] { wQpX with unsig := 1 }, 5, by decide +kernel⟩,
   ⟨wQpL [] { wQpX with unsig := 1, arm := true }, 5, by decide +kernel⟩,
   ⟨wTxQ, 5, [wTxD], 1, [(0x1000, 60)], by decide +kernel⟩,
   ⟨wQpL [] { wQpX with frames := [wTxF] }, 5, wTxF, [], by decide +kernel⟩,
   ⟨wQpL [] { wQpX with frames := [{ wTxF with squashed := true }] }, 5, { wTxF with squashed := true }, [], by decide +kernel⟩,
   ⟨wRxQ 2, { bytes := List.replicate 300 0, qp := 5 }, [], 5, 2, [[0x2000, 0, 0x8000, 0], [0x3000, 0, 0x8000, 0]], by decide +kernel⟩,
   ⟨wRxQ 1, { bytes := List.replicate 300 0, qp := 5 }, [], 5, 2, by decide +kernel⟩⟩

theorem test_witness_queue_pair_commands :
  (∃ (s : State) (p : Nat) (w : List Nat), s.fabric = false ∧ s.live pgDMA = true ∧ s.qpRun = none ∧ p = s.qpSel ∧ (s.qp p).state = 0 ∧ w = (List.range 9).map (fun k => andBits (s.rd pgDMA DMA.CTX_W_WORD k) (ctxMask k)) ∧ ctxOk w (s.qp p).owner = true) ∧
  (∃ (s : State) (p : Nat), s.fabric = false ∧ s.live pgDMA = true ∧ s.qpRun = none ∧ p = s.qpSel ∧ (s.qp p).state ≠ 0) ∧
  (∃ (s : State) (p : Nat) (k : Nat), s.fabric = false ∧ s.live pgDMA = true ∧ s.qpRun = none ∧ p = s.qpSel ∧ k < 9) ∧
  (∃ (s : State) (p : Nat), s.fabric = false ∧ s.live pgDMA = true ∧ s.qpRun = none ∧ p = s.qpSel ∧ (s.qp p).state = 0 ∧ (s.qp p).owner.isSome = true ∧ ctxOk (s.qp p).ctx (s.qp p).owner = true) ∧
  (∃ (s : State) (p : Nat), s.fabric = false ∧ s.live pgDMA = true ∧ s.qpRun = none ∧ p = s.qpSel ∧ ((s.qp p).state = 1 ∨ (s.qp p).state = 3)) ∧
  (∃ (s : State) (qp : Nat) (tag : Nat), qp < 8192 ∧ s.live pgDMA = true ∧ (s.qp qp).state = 2 ∧ (s.qp qp).frames = [] ∧ (s.fnS (fnOf (s.qp qp).fn)).flr.isNone = true ∧ s.qpRun = some (qp, tag)) ∧
  (∃ (s : State) (tag : Nat) (p : Nat), s.live pgDMA = true ∧ s.qpRun = some (p, tag)) ∧
  (∃ (s : State) (n : Nat) (p : Nat) (i : Nat), s.fabric = false ∧ s.live pgVFM = true ∧ s.vfmRun = none ∧ n = s.cmdFn ∧ p = s.rd pgVFM VFM.CMD_QP_QP ∧ i = s.rd pgVFM VFM.CMD_LOCAL_INDEX ∧ s.vfThere n = true ∧ (s.fnS (fnOf n)).flr = none ∧ (s.qp p).owner = none ∧ (n = 0 ∨ (s.qpsOf n).all (fun e => decide (e.1 ≠ i)) = true)) ∧
  (∃ (s : State) (p : Nat), s.live pgVFM = true ∧ s.vfmRun = none ∧ p = s.rd pgVFM VFM.CMD_QP_QP ∧ s.vfThere (s.qp p).fn = true ∧ (s.fnS (fnOf (s.qp p).fn)).flr = none ∧ (s.qp p).state = 0) :=
  ⟨⟨wCtxW, 5, wCtxV, by decide⟩,
   ⟨wSel {}, 5, by decide⟩,
   ⟨wSel {}, 5, 6, by decide⟩,
   ⟨wSel { dis := true }, 5, by decide⟩,
   ⟨wSel {}, 5, by decide⟩,
   ⟨{ wQpL [] { wQpX with state := 2 } with qpRun := some (5, 7) }, 5, 7, by decide⟩,
   ⟨{ wQpL [] { wQpX with state := 2 } with qpRun := some (5, 7) }, 7, 5, by decide⟩,
   ⟨wVfm [(pgVFM, VFM.CMD_QP_QP, 9, 0), (pgVFM, VFM.CMD_LOCAL_INDEX, 2, 0)] {}, 1, 9, 2, by decide⟩,
   ⟨wVfm [(pgVFM, VFM.CMD_QP_QP, 9, 0)] {}, 9, by decide⟩⟩

theorem test_witness_virtual_function_commands :
  (∃ (s : State) (vf : Nat), vf ≠ 0 ∧ vf ≤ 1024 ∧ s.vfThere vf = true ∧ s.live pgVFM = true ∧ (s.vf vf).busy = false) ∧
  (∃ (s : State) (vf : Nat), vf ≠ 0 ∧ vf ≤ 1024 ∧ s.vfThere vf = true ∧ s.live pgVFM = true ∧ (s.vf vf).busy = true) ∧
  (∃ (s : State) (vf : Nat), vf ≠ 0 ∧ s.vfThere vf = true ∧ s.live pgVFM = true) ∧
  (∃ (s : State) (n : Nat), s.live pgVFM = true ∧ s.vfmRun = none ∧ n = s.cmdFn ∧ n ≠ 0 ∧ s.vfThere n = true ∧ (s.fnS (fnOf n)).flr = none ∧ n ≤ 1024) ∧
  (∃ (s : State) (n : Nat), s.live pgVFM = true ∧ s.vfmRun = none ∧ n = s.cmdFn ∧ n ≠ 0 ∧ s.vfThere n = true ∧ (s.fnS (fnOf n)).flr = none ∧ (s.vf n).reply = false) ∧
  (∃ (s : State) (n : Nat), s.live pgVFM = true ∧ s.vfmRun = none ∧ n = s.cmdFn ∧ n ≠ 0 ∧ s.vfThere n = true ∧ (s.fnS (fnOf n)).flr = none) ∧
  (∃ (s : State) (tag : Nat) (n : Nat), s.live pgVFM = true ∧ s.vfmRun = some (n, tag) ∧ s.vfQuiet n = true) ∧
  (∃ (s : State) (n : Nat), s.live pgVFM = true ∧ s.vfmRun = none ∧ n = s.cmdFn ∧ n ≠ 0 ∧ s.vfThere n = true ∧ (s.fnS (fnOf n)).flr = none ∧ (s.vf n).frozen = true) ∧
  (∃ (s : State) (n : Nat), s.live pgVFM = true ∧ s.vfmRun = none ∧ n = s.cmdFn ∧ n ≠ 0 ∧ s.vfThere n = true ∧ (s.fnS (fnOf n)).flr = none ∧ (s.vf n).frozen = false) ∧
  (∃ (s : State) (n : Nat) (a : Nat), s.live pgVFM = true ∧ s.vfmRun = none ∧ n = s.cmdFn ∧ n ≠ 0 ∧ s.vfThere n = true ∧ (s.fnS (fnOf n)).flr = none ∧ (s.vf n).frozen = true ∧ a = s.rd pgVFM VFM.CMD_ADDR_LO + s.rd pgVFM VFM.CMD_ADDR_HI * 2 ^ 32 ∧ (s.fnS 0).sends = true) ∧
  (∃ (s : State) (n : Nat) (k : Nat) (img : List Byte) (w : List Nat), s.live pgVFM = true ∧ s.vfmRun = none ∧ n = s.cmdFn ∧ n ≠ 0 ∧ s.vfThere n = true ∧ (s.fnS (fnOf n)).flr = none ∧ (s.vf n).frozen = true ∧ w = bytesToLeWords img ∧ imageOk w img ((s.qpsOf n).map (·.1)) = true ∧ ((s.qpsOf n).map (·.2)).Nodup ∧ k < (s.qpsOf n).length) ∧
  (∃ (s : State) (n : Nat) (image : Option (List Byte)), s.live pgVFM = true ∧ s.vfmRun = none ∧ n = s.cmdFn ∧ n ≠ 0 ∧ s.vfThere n = true ∧ (s.fnS (fnOf n)).flr = none ∧ (s.vf n).frozen = true ∧ imageOk (bytesToLeWords (image.getD [])) (image.getD []) ((s.qpsOf n).map (·.1)) = false) ∧
  (∃ (s : State) (n : Nat), s.live pgVFM = true ∧ s.vfmRun = none ∧ n = s.cmdFn ∧ n ≠ 0 ∧ s.vfThere n = true ∧ (s.fnS (fnOf n)).flr = none) ∧
  (∃ (s : State) (n : Nat), s.live pgVFM = true ∧ s.vfmRun = none ∧ n = s.cmdFn ∧ n ≠ 0 ∧ s.vfThere n = true ∧ (s.fnS (fnOf n)).flr = none ∧ (s.vf n).logging = true ∧ (s.vf n).dirty = []) ∧
  (∃ (s : State) (n : Nat), s.live pgVFM = true ∧ s.vfmRun = none ∧ n = s.cmdFn ∧ n ≠ 0 ∧ s.vfThere n = true ∧ (s.fnS (fnOf n)).flr = none ∧ (s.vf n).logging = true ∧ (s.vf n).dirty = []) ∧
  (∃ (s : State) (tag : Nat) (n : Nat), s.live pgVFM = true ∧ s.vfmRun = some (n, tag)) :=
  ⟨⟨wVfm [] {}, 1, by decide +kernel⟩,
   ⟨wVfm [] { busy := true }, 1, by decide +kernel⟩,
   ⟨wVfm [] {}, 1, by decide +kernel⟩,
   ⟨wVfm [] {}, 1, by decide +kernel⟩,
   ⟨wVfm [] {}, 1, by decide +kernel⟩,
   ⟨wVfm [] {}, 1, by decide +kernel⟩,
   ⟨{ wVfm [] { frozen := true } with vfmRun := some (1, 7) }, 7, 1, by decide +kernel⟩,
   ⟨wVfm [] { frozen := true }, 1, by decide +kernel⟩,
   ⟨wVfm [] {}, 1, by decide +kernel⟩,
   ⟨wVfm [] { frozen := true }, 1, 0, by decide +kernel⟩,
   ⟨wRest, 1, 0, (wRest.vfImage 1).1 ++ (wRest.vfImage 1).2, bytesToLeWords ((wRest.vfImage 1).1 ++ (wRest.vfImage 1).2), by decide +kernel⟩,
   ⟨wVfm [] { frozen := true }, 1, none, by decide +kernel⟩,
   ⟨wVfm [] {}, 1, by decide +kernel⟩,
   ⟨wVfm [] { logging := true }, 1, by decide +kernel⟩,
   ⟨wVfm [] { logging := true }, 1, by decide +kernel⟩,
   ⟨{ wVfm [] { frozen := true } with vfmRun := some (1, 7) }, 7, 1, by decide +kernel⟩⟩

theorem test_witness_ipsec_passes :
  (∃ (s : State) (it : IpsItem) (x : IpsSa) (u : State), s.enabled pgIPS = true ∧ s.fabric = false ∧ s.ipsTake true = some (it, u) ∧ tget s.ipsSas it.sa = some x ∧ x.valid = true ∧ x.out = true ∧ x.seq < x.space ∧ (s.espOut x x.seq it.frame it.frame.oflArg).isSome = true) ∧
  (∃ (s : State) (it : IpsItem) (x : IpsSa) (u : State), s.enabled pgIPS = true ∧ s.fabric = false ∧ s.ipsTake true = some (it, u) ∧ tget s.ipsSas it.sa = some x ∧ x.valid = true ∧ x.out = true ∧ x.space ≤ x.seq) ∧
  (∃ (s : State) (it : IpsItem) (x : IpsSa) (u : State) (o : Nat) (hl : Nat) (proto : Nat) (q : Nat) (v6 : Bool) (l : List Byte), s.enabled pgIPS = true ∧ s.fabric = false ∧ s.ipsTake false = some (it, u) ∧ it.frame.l3 = some o ∧ ipAt it.frame.bytes o = some (v6, hl, proto) ∧ l = espBytes it.frame.bytes o v6 ∧ tget s.ipsSas it.sa = some x ∧ x.valid = true ∧ x.out = false ∧ x.spi = beAt l (o + hl) 4 ∧ x.fullSeq (beAt l (o + hl + 4) 4) = some q ∧ x.fresh q = true) ∧
  (∃ (s : State) (it : IpsItem) (x : IpsSa) (u : State) (o : Nat) (hl : Nat) (proto : Nat) (q : Nat) (v6 : Bool) (l : List Byte), s.enabled pgIPS = true ∧ s.fabric = false ∧ s.ipsTake false = some (it, u) ∧ it.frame.l3 = some o ∧ ipAt it.frame.bytes o = some (v6, hl, proto) ∧ l = espBytes it.frame.bytes o v6 ∧ tget s.ipsSas it.sa = some x ∧ x.valid = true ∧ x.out = false ∧ x.spi = beAt l (o + hl) 4 ∧ x.fullSeq (beAt l (o + hl + 4) 4) = some q ∧ x.fresh q = false) ∧
  (∃ (s : State), s.fabric = false ∧ s.live pgIPS = true ∧ (tget s.ipsSas s.ipsSel).any IpsSa.valid = false) ∧
  (∃ (s : State), s.fabric = false ∧ s.live pgIPS = true ∧ (tget s.ipsSas s.ipsSel).any IpsSa.valid = true) ∧
  (∃ (s : State) (x : IpsSa), s.fabric = false ∧ s.live pgIPS = true ∧ tget s.ipsSas s.ipsSel = some x) ∧
  (∃ (s : State) (x : IpsSa), s.fabric = false ∧ s.live pgIPS = true ∧ tget s.ipsSas s.ipsSel = some x) ∧
  (∃ (s : State), s.fabric = false ∧ s.live pgIPS = true ∧ s.on pgIPS IPS.SA_RES.valid = true ∧ s.rd pgIPS IPS.SA_RES.status = 1) :=
  ⟨⟨wIps, { frame := wIpF, sa := 3, enc := true }, wSaO, ((wIps.ipsTake true).getD ({ frame := wIpF, sa := 0, enc := true }, wBase)).2, by decide⟩,
   ⟨wIpsX, { frame := wIpF, sa := 3, enc := true }, { wSaO with seq := 2 ^ 32 }, ((wIpsX.ipsTake true).getD ({ frame := wIpF, sa := 0, enc := true }, wBase)).2, by decide⟩,
   ⟨wIpsD 0, { frame := wEspF, sa := 4, enc := false }, wSaI 0, (((wIpsD 0).ipsTake false).getD ({ frame := wIpF, sa := 0, enc := true }, wBase)).2, 14, 20, 50, 9, false, espBytes wEspF.bytes 14 false, by decide⟩,
   ⟨wIpsD 200, { frame := wEspF, sa := 4, enc := false }, wSaI 200, (((wIpsD 200).ipsTake false).getD ({ frame := wIpF, sa := 0, enc := true }, wBase)).2, 14, 20, 50, 9, false, espBytes wEspF.bytes 14 false, by decide⟩,
   ⟨wIps, by decide⟩,
   ⟨wIpsV, by decide⟩,
   ⟨wIpsV, wSaO, by decide⟩,
   ⟨wIpsV, wSaO, by decide⟩,
   ⟨wst [(pgIPS, IPS.SA_RES.valid, 1, 0), (pgIPS, IPS.SA_RES.status, 1, 0)], by decide⟩⟩

theorem test_witness_key_wrap_and_nvme_commands :
  (∃ (s : State) (kek : Nat) (k : List Byte) (j : Nat), s.fabric = false ∧ s.live pgIPS = true ∧ s.kek (kek % 16) = some k ∧ j < 15) ∧
  (∃ (s : State) (kek : Nat), s.fabric = false ∧ s.live pgIPS = true ∧ s.kek (kek % 16) = none) ∧
  (∃ (s : State) (kek : Nat) (j : Nat) (k : List Byte), s.fabric = false ∧ s.live pgIPS = true ∧ s.kek (kek % 16) = some k ∧ j < 8) ∧
  (∃ (s : State) (kek : Nat) (j : Nat) (k : List Byte), s.fabric = false ∧ s.live pgIPS = true ∧ s.kek (kek % 16) = some k ∧ j < 8) ∧
  (∃ (s : State) (kek : Nat) (j : Nat) (k : List Byte), s.fabric = false ∧ s.live pgIPS = true ∧ s.kek (kek % 16) = some k ∧ j < 15 ∧ tgetD s.kekExport (kek % 16) 0 = 1) ∧
  (∃ (s : State) (kek : Nat) (k : List Byte), s.fabric = false ∧ s.live pgIPS = true ∧ s.kek (kek % 16) = some k ∧ tgetD s.kekExport (kek % 16) 0 ≠ 1) ∧
  (∃ (s : State) (kek : Nat) (k : List Byte), s.fabric = false ∧ s.live pgIPS = true ∧ s.kek (kek % 16) = some k) ∧
  (∃ (s : State) (kek : Nat), s.fabric = false ∧ s.live pgIPS = true ∧ kek % 16 ≠ 0) ∧
  (∃ (s : State) (kek : Nat), s.fabric = false ∧ s.live pgIPS = true ∧ kek % 16 = 0) ∧
  (∃ (s : State), s.fabric = false ∧ s.live pgIPS = true ∧ s.on pgIPS IPS.KW_RES.valid = true ∧ s.rd pgIPS IPS.KW_RES.status = 1) ∧
  (∃ (s : State), s.fabric = false ∧ s.live pgOFL = true ∧ 6 ≤ bits (s.nvStage 0) 5 5 ∧ bits (s.nvStage 0) 5 5 ≤ 16) ∧
  (∃ (s : State), s.fabric = false ∧ s.live pgOFL = true ∧ (bits (s.nvStage 0) 5 5 < 6 ∨ 16 < bits (s.nvStage 0) 5 5)) ∧
  (∃ (s : State) (j : Nat) (x : NvConn), s.fabric = false ∧ s.live pgOFL = true ∧ tget s.nvs (s.rd pgOFL OFL.NV_SEL_CONN) = some x ∧ j < 7) ∧
  (∃ (s : State) (x : NvConn), s.fabric = false ∧ s.live pgOFL = true ∧ tget s.nvs (s.rd pgOFL OFL.NV_SEL_CONN) = some x) ∧
  (∃ (s : State) (x : NvConn), s.fabric = false ∧ s.live pgOFL = true ∧ tget s.nvs (s.rd pgOFL OFL.NV_SEL_CONN) = some x) :=
  ⟨⟨wKek 0, 1, wKekB, 3, by decide⟩,
   ⟨wBase, 1, by decide⟩,
   ⟨wKek 0, 1, 2, wKekB, by decide⟩,
   ⟨wKek 0, 1, 2, wKekB, by decide⟩,
   ⟨wKek 1, 1, 2, wKekB, by decide⟩,
   ⟨wKek 0, 1, wKekB, by decide⟩,
   ⟨wKek 0, 1, wKekB, by decide⟩,
   ⟨wBase, 1, by decide⟩,
   ⟨wBase, 16, by decide⟩,
   ⟨wst [(pgIPS, IPS.KW_RES.valid, 1, 0), (pgIPS, IPS.KW_RES.status, 1, 0)], by decide⟩,
   ⟨wst [(pgOFL, OFL.NV_W_WORD, 0xC1, 0)], by decide⟩,
   ⟨wBase, by decide⟩,
   ⟨wNv, 3, { words := [1, 2, 3, 4, 5, 6, 7] }, by decide⟩,
   ⟨wNv, { words := [1, 2, 3, 4, 5, 6, 7] }, by decide⟩,
   ⟨wNv, { words := [1, 2, 3, 4, 5, 6, 7] }, by decide⟩⟩

theorem test_witness_bfd_sessions_and_templates :
  (∃ (s : State) (session : Nat) (n : Nat) (x : List Nat), s.bfdRuns = true ∧ n = session % 65536 ∧ x = s.sessOf n ∧ sessValid x = true ∧ s.bfdDue n = true) ∧
  (∃ (s : State) (f : Frame) (rest : List Frame) (ttl : Nat) (n : Nat) (p : List Byte) (x : List Nat), s.live pgSVC = true ∧ s.bfdIn = f :: rest ∧ bfdOf f = some (ttl, p) ∧ beAt p 8 4 ≠ 0 ∧ beAt p 8 4 / 65536 = s.rd pgSVC SVC.BFD_DISC_HI_DISC ∧ n = beAt p 8 4 % 65536 ∧ x = s.sessOf n ∧ sessValid x = true ∧ bit (beAt p 1 1) 2 = false ∧ bit (beAt p 1 1) 1 = false ∧ bit (beAt p 1 1) 0 = false ∧ (bit (sw x 0) 3 = true ∨ ttl = 255) ∧ sessState x = 3 ∧ beAt p 1 1 / 64 = 3 ∧ bit (beAt p 1 1) 5 = false ∧ bit (beAt p 1 1) 4 = false ∧ (beAt p 4 4 = sw x 1 ∧ beAt p 12 4 = sw x 4 ∧ beAt p 16 4 = sw x 5 ∧ beAt p 2 1 = bits (sw x 6) 0 8)) ∧
  (∃ (s : State) (f : Frame) (rest : List Frame) (ttl : Nat) (n : Nat) (p : List Byte) (x : List Nat), s.live pgSVC = true ∧ s.bfdIn = f :: rest ∧ bfdOf f = some (ttl, p) ∧ beAt p 8 4 ≠ 0 ∧ beAt p 8 4 / 65536 = s.rd pgSVC SVC.BFD_DISC_HI_DISC ∧ n = beAt p 8 4 % 65536 ∧ x = s.sessOf n ∧ sessValid x = true ∧ bit (beAt p 1 1) 2 = false ∧ bit (beAt p 1 1) 1 = false ∧ bit (beAt p 1 1) 0 = false ∧ (bit (sw x 0) 3 = true ∨ ttl = 255) ∧ sessState x = 3 ∧ beAt p 1 1 / 64 ≤ 1 ∧ s.bfdEvents.length < 256) ∧
  (∃ (s : State) (f : Frame) (rest : List Frame), s.live pgSVC = true ∧ s.bfdIn = f :: rest ∧ bfdOf f = none ∧ s.on pgSPA SPA.IL_STS_SWITCHING = false ∧ s.on pgSPA SPA.IL_STS_NO_ACTIVE = false) ∧
  (∃ (s : State) (session : Nat) (n : Nat) (x : List Nat), s.bfdRuns = true ∧ n = session % 65536 ∧ x = s.sessOf n ∧ sessValid x = true ∧ 2 ≤ sessState x ∧ s.bfdLate n = true ∧ s.bfdEvents.length < 256) ∧
  (∃ (s : State) (session : Nat) (n : Nat) (x : List Nat), s.bfdRuns = true ∧ n = session % 65536 ∧ x = s.sessOf n ∧ sessValid x = true ∧ 2 ≤ sessState x ∧ s.bfdLate n = true ∧ 256 ≤ s.bfdEvents.length) ∧
  (∃ (s : State) (cond : Bool) (expect : Nat), s.live pgSVC = true ∧ (cond = false ∨ sessState (s.sessOf (s.rd pgSVC SVC.SESS_IDX_INDEX)) = expect % 4)) ∧
  (∃ (s : State) (expect : Nat), s.live pgSVC = true ∧ sessState (s.sessOf (s.rd pgSVC SVC.SESS_IDX_INDEX)) ≠ expect % 4) ∧
  (∃ (s : State) (k : Nat), s.live pgSVC = true ∧ k < 20) ∧
  (∃ (s : State), s.live pgSVC = true) ∧
  (∃ (s : State), s.live pgSVC = true ∧ s.rd pgSVC SVC.SESS_IDX_INDEX < 4096) ∧
  (∃ (s : State) (k : Nat), s.live pgSVC = true ∧ s.rd pgSVC SVC.SESS_IDX_INDEX < 4096 ∧ k < 17) ∧
  (∃ (s : State), s.live pgSVC = true ∧ 4096 ≤ s.rd pgSVC SVC.SESS_IDX_INDEX) ∧
  (∃ (s : State), s.live pgSVC = true ∧ 4096 ≤ s.rd pgSVC SVC.SESS_IDX_INDEX) ∧
  (∃ (s : State) (byHost : Bool), s.live pgSVC = true ∧ byHost = s.on pgSVC SVC.SVC_CTL_EVT_HOST ∧ (byHost = true ∨ s.on pgSPA SPA.IL_STS_SWITCHING = false)) :=
  ⟨⟨wBfd 3 0, 5, 5, wBfdX 3, by decide +kernel⟩,
   ⟨wBfd 3 3, wBfdF 3, [], 255, 5, (wBfdF 3).bytes.drop 42, wBfdX 3, by decide +kernel⟩,
   ⟨wBfd 3 1, wBfdF 1, [], 255, 5, (wBfdF 1).bytes.drop 42, wBfdX 3, by decide +kernel⟩,
   ⟨{ wSvc with bfdIn := [wIpF] }, wIpF, [], by decide +kernel⟩,
   ⟨{ wBfd 3 0 with ticks := 10 ^ 9 }, 5, 5, wBfdX 3, by decide +kernel⟩,
   ⟨{ wBfd 3 0 with ticks := 10 ^ 9, bfdEvents := List.replicate 256 { session := 0, old := 3, new := 1, diag := 1, time := {} } }, 5, 5, wBfdX 3, by decide +kernel⟩,
   ⟨wSvc, false, 0, by decide +kernel⟩,
   ⟨wSvc, 3, by decide +kernel⟩,
   ⟨wSvc, 4, by decide +kernel⟩,
   ⟨wSvc, by decide +kernel⟩,
   ⟨wSvc, by decide +kernel⟩,
   ⟨wSvc, 3, by decide +kernel⟩,
   ⟨wst [(pgSVC, SVC.SESS_IDX_INDEX, 4096, 0)], by decide +kernel⟩,
   ⟨wst [(pgSVC, SVC.SESS_IDX_INDEX, 4096, 0)], by decide +kernel⟩,
   ⟨wSvc, false, by decide +kernel⟩⟩

theorem test_witness_flow_export_and_responder :
  (∃ (s : State) (u : Flow) (rest : List Flow), s.live pgSVC = true ∧ s.flowIn = u :: rest) ∧
  (∃ (s : State), s.enabled pgSVC = true ∧ s.sweepIpfixDue = true) ∧
  (∃ (s : State) (e : Nat × Flow) (r : Nat), s.enabled pgSVC = true ∧ s.sweepIpfixDue = true ∧ s.flows = [e] ∧ s.flowReason e.2 = some r) ∧
  (∃ (s : State), s.enabled pgSVC = true ∧ s.on pgSVC SVC.SVC_CTL_IPFIX_EN = true ∧ s.ipfixTplDue = true) ∧
  (∃ (s : State) (f : Frame) (rest : List Frame) (o : Nat) (a : List Byte) (e : List Nat), s.live pgSVC = true ∧ s.rspIn = f :: rest ∧ f.l3 = some o ∧ a = f.bytes.drop o ∧ 28 ≤ a.length ∧ beAt a 0 2 = 1 ∧ beAt a 2 2 = 0x0800 ∧ beAt a 4 2 = 0x0604 ∧ beAt a 6 2 = 1 ∧ s.rspFind (bits (f.act.getD 2 0) 0 12) false [beAt a 24 4] = some e) ∧
  (∃ (s : State) (f : Frame) (rest : List Frame) (o : Nat) (a : List Byte) (e : List Nat), s.live pgSVC = true ∧ s.rspIn = f :: rest ∧ f.l3 = some o ∧ a = f.bytes.drop o ∧ 64 ≤ a.length ∧ beAt a 0 1 / 16 = 6 ∧ beAt a 6 1 = 58 ∧ beAt a 7 1 = 255 ∧ beAt a 40 2 = 135 * 256 ∧ beAt a 8 16 ≠ 0 ∧ s.rspFind (bits (f.act.getD 2 0) 0 12) true (bytesToBeWords (slice a 48 16)) = some e) ∧
  (∃ (s : State) (f : Frame) (rest : List Frame) (o : Nat) (a : List Byte), s.live pgSVC = true ∧ s.rspIn = f :: rest ∧ f.l3 = some o ∧ a = f.bytes.drop o ∧ 28 ≤ a.length ∧ beAt a 0 2 = 1 ∧ beAt a 2 2 = 0x0800 ∧ beAt a 4 2 = 0x0604 ∧ beAt a 6 2 = 1 ∧ s.rspFind (bits (f.act.getD 2 0) 0 12) false [beAt a 24 4] = none ∧ s.on pgSPA SPA.IL_STS_SWITCHING = false ∧ s.on pgSPA SPA.IL_STS_NO_ACTIVE = false) ∧
  (∃ (s : State), s.live pgSVC = true) ∧
  (∃ (s : State) (k : Nat), s.live pgSVC = true ∧ k < 7) ∧
  (∃ (s : State), s.live pgSVC = true) :=
  ⟨⟨{ wSvc with flowIn := [wFlow] }, wFlow, [], by decide⟩,
   ⟨wSvc, by decide⟩,
   ⟨{ wSvc with flows := [(3, wFlow)] }, (3, wFlow), 4, by decide⟩,
   ⟨wst [(pgSVC, COMMON.PAGE_CTL_ENABLE, 1, 0), (pgSVC, SVC.SVC_CTL_IPFIX_EN, 1, 0)], by decide⟩,
   ⟨{ wRsp with rspIn := [wArp] }, wArp, [], 14, wArp.bytes.drop 14, wRspE, by decide⟩,
   ⟨{ wRsp6 with rspIn := [wNs] }, wNs, [], 14, wNs.bytes.drop 14, wRspE6, by decide⟩,
   ⟨{ wSvc with rspIn := [wArp] }, wArp, [], 14, wArp.bytes.drop 14, by decide⟩,
   ⟨wSvc, by decide⟩,
   ⟨wSvc, 3, by decide⟩,
   ⟨wSvc, by decide⟩⟩

theorem test_witness_network_time_commands :
  (∃ (s : State) (T : NetTime), s.live pgNTM = true ∧ s.rd pgNTM NTM.NT_SET_NS_NS < 1000000000 ∧ T = NetTime.norm { sec := s.rd pgNTM NTM.NT_SET_SEC_LO_SEC + s.rd pgNTM NTM.NT_SET_SEC_HI_SEC * 2 ^ 32, ns := s.rd pgNTM NTM.NT_SET_NS_NS } ∧ (s.ntValid = false ∨ s.taq.all (fun e => decide (T.whole < e.2.target)) = true)) ∧
  (∃ (s : State), s.live pgNTM = true ∧ 1000000000 ≤ s.rd pgNTM NTM.NT_SET_NS_NS ∧ s.taq = []) ∧
  (∃ (s : State), s.live pgNTM = true) ∧
  (∃ (s : State), s.live pgNTM = true) ∧
  (∃ (s : State), s.live pgNTM = true) ∧
  (∃ (s : State) (T : NetTime), s.live pgNTM = true ∧ (signedOf 32 (s.rd pgNTM NTM.STEP_NS_NS)) ≤ 999999999 ∧ -999999999 ≤ (signedOf 32 (s.rd pgNTM NTM.STEP_NS_NS)) ∧ T = (NetTime.ofTotal ((s.nt.total : Int) + (signedOf 32 (s.rd pgNTM NTM.STEP_SEC_SEC) * 1000000000 + (signedOf 32 (s.rd pgNTM NTM.STEP_NS_NS))) * (2 : Int) ^ 48).toNat).norm ∧ (s.ntValid = false ∨ s.taq.all (fun e => decide (T.whole < e.2.target)) = true)) ∧
  (∃ (s : State), s.live pgNTM = true ∧ (999999999 < (signedOf 32 (s.rd pgNTM NTM.STEP_NS_NS)) ∨ (signedOf 32 (s.rd pgNTM NTM.STEP_NS_NS)) < -999999999)) ∧
  (∃ (s : State) (v : Nat), s.live pgNTM = true ∧ bit v 0 = true ∧ s.ntValid = false ∧ s.taq.all (fun e => decide (s.nt.whole < e.2.target)) = true ∧ s.nt.ok) ∧
  (∃ (s : State) (v : Nat), s.live pgNTM = true ∧ bit v 0 = false) ∧
  (∃ (s : State), s.live pgNTM = true) ∧
  (∃ (s : State), s.live pgNTM = true ∧ s.ntPending ≠ 2 ∧ (s.ntPending ≠ 3 ∨ s.todSec = none)) ∧
  (∃ (s : State) (T : NetTime), s.live pgNTM = true ∧ s.ntPending = 2 ∧ s.rd pgNTM NTM.NT_SET_NS_NS < 1000000000 ∧ T = NetTime.norm { sec := s.rd pgNTM NTM.NT_SET_SEC_LO_SEC + s.rd pgNTM NTM.NT_SET_SEC_HI_SEC * 2 ^ 32, ns := s.rd pgNTM NTM.NT_SET_NS_NS } ∧ (s.ntValid = false ∨ s.taq.all (fun e => decide (T.whole < e.2.target)) = true)) ∧
  (∃ (s : State) (T : NetTime) (n : Nat), s.live pgNTM = true ∧ s.ntPending = 3 ∧ s.todSec = some n ∧ T = NetTime.norm { sec := n } ∧ (s.ntValid = false ∨ s.taq.all (fun e => decide (T.whole < e.2.target)) = true)) ∧
  (∃ (s : State) (n : Nat), s.live pgNTM = true ∧ s.ppsAt = some n ∧ s.on pgNTM NTM.NTM_STS_PPS_SEEN = true ∧ n + 880000000 ≤ s.ticks) ∧
  (∃ (s : State), s.live pgNTM = true ∧ s.ntValid = true ∧ s.on pgNTM NTM.NTM_CTL_PPS_LOSS_INVAL = true ∧ s.lossFrom + s.rd pgNTM NTM.PPS_LOSS_PPS_LOSS_S * 800000000 ≤ s.ticks) :=
  ⟨⟨wNt [(pgNTM, NTM.NT_SET_SEC_LO_SEC, 7, 0)], { sec := 7 }, by decide +kernel⟩,
   ⟨wNt [(pgNTM, NTM.NT_SET_NS_NS, 1000000001, 0)], by decide +kernel⟩,
   ⟨wBase, by decide +kernel⟩,
   ⟨wBase, by decide +kernel⟩,
   ⟨wBase, by decide +kernel⟩,
   ⟨wNt [(pgNTM, NTM.STEP_SEC_SEC, 7, 0)], { sec := 7 }, by decide +kernel⟩,
   ⟨wNt [(pgNTM, NTM.STEP_NS_NS, 1000000000, 0)], by decide +kernel⟩,
   ⟨wNt [], 1, by decide +kernel⟩,
   ⟨wNt [], 0, by decide +kernel⟩,
   ⟨wBase, by decide +kernel⟩,
   ⟨wBase, by decide +kernel⟩,
   ⟨{ wNt [(pgNTM, NTM.NT_SET_SEC_LO_SEC, 7, 0)] with ntPending := 2 }, { sec := 7 }, by decide +kernel⟩,
   ⟨{ wNt [] with ntPending := 3, todSec := some 7 }, { sec := 7 }, 7, by decide +kernel⟩,
   ⟨{ wNt [(pgNTM, NTM.NTM_STS_PPS_SEEN, 1, 0)] with ppsAt := some 0, ticks := 10 ^ 12 }, 0, by decide +kernel⟩,
   ⟨{ wNt [(pgNTM, NTM.NTM_STS_VALID, 1, 0), (pgNTM, NTM.NTM_CTL_PPS_LOSS_INVAL, 1, 0)] with ticks := 10 ^ 12 }, by decide +kernel⟩⟩

theorem test_witness_time_outputs_and_timed_actions :
  (∃ (s : State) (x : Nat), s.live pgNTM = true ∧ s.on pgNTM NTM.NTM_CTL_PPS_OUT_EN = true ∧ x = (s.nt.ns + s.rd pgNTM NTM.PPS_CFG_OUT_COMP) % 1000000000 ∧ (x ≤ 2 ∨ 999999998 ≤ x) ∧ s.ppsOutLast.any (fun n => decide (s.ticks < n + ticksMs 500)) = false) ∧
  (∃ (s : State) (n : Nat), s.live pgNTM = true ∧ s.ppsOutAt = some n ∧ s.on pgNTM NTM.NTM_CTL_TOD_TX_EN = true ∧ n + 160000000 ≤ s.ticks) ∧
  (∃ (s : State) (bytes : List Byte), s.live pgNTM = true ∧ s.on pgNTM NTM.NTM_CTL_TOD_RX_EN = true ∧ s.todGood bytes = true) ∧
  (∃ (s : State) (bytes : List Byte), s.live pgNTM = true ∧ s.on pgNTM NTM.NTM_CTL_TOD_RX_EN = true ∧ s.todGood bytes = false) ∧
  (∃ (s : State) (n : Nat), s.todAt = some n ∧ n + 880000000 ≤ s.ticks) ∧
  (∃ (s : State) (k : Nat), s.live pgNTM = true ∧ k < 4 ∧ s.on pgNTM NTM.SYNCE_CTL_EN k = true ∧ s.on pgNTM NTM.SYNCE_CTL_SQ_EN k = true ∧ s.on pgNTM NTM.SYNCE_CTL_SQUELCHED k = false ∧ s.synceGood k = false) ∧
  (∃ (s : State) (k : Nat), k < 4 ∧ s.on pgNTM NTM.SYNCE_CTL_SQUELCHED k = true ∧ s.synceGood k = true ∧ (tget s.synceAt k).any (fun n => decide (n + ticksMs 10 ≤ s.ticks)) = true) ∧
  (∃ (s : State) (i : Nat) (e : TaqEntry), s.live pgTAQ = true ∧ e = { raw := s.taqStaged, order := s.taqPosts } ∧ (¬ (e.type = 7 ∧ taqBadAddr (e.word 4) = true)) ∧ 1 ≤ e.type ∧ e.type ≤ 8 ∧ (List.range 64).find? (fun k => (tget s.taq k).isNone) = some i ∧ (¬ (s.ntValid = true ∧ e.target ≤ s.nt.whole ∧ bit (e.word 3) 4 = true))) ∧
  (∃ (s : State) (e : TaqEntry), s.live pgTAQ = true ∧ e = { raw := s.taqStaged, order := s.taqPosts } ∧ (e.type = 0 ∨ 8 < e.type)) ∧
  (∃ (s : State) (e : TaqEntry), s.live pgTAQ = true ∧ e = { raw := s.taqStaged, order := s.taqPosts } ∧ e.type = 7 ∧ taqBadAddr (e.word 4) = true) ∧
  (∃ (s : State) (i : Nat) (e : TaqEntry), s.live pgTAQ = true ∧ e = { raw := s.taqStaged, order := s.taqPosts } ∧ (¬ (e.type = 7 ∧ taqBadAddr (e.word 4) = true)) ∧ 1 ≤ e.type ∧ e.type ≤ 8 ∧ (List.range 64).find? (fun k => (tget s.taq k).isNone) = some i ∧ s.ntValid = true ∧ e.target ≤ s.nt.whole ∧ bit (e.word 3) 4 = true) ∧
  (∃ (s : State) (e : TaqEntry), s.live pgTAQ = true ∧ e = { raw := s.taqStaged, order := s.taqPosts } ∧ (¬ (e.type = 7 ∧ taqBadAddr (e.word 4) = true)) ∧ 1 ≤ e.type ∧ e.type ≤ 8 ∧ (List.range 64).find? (fun k => (tget s.taq k).isNone) = none) ∧
  (∃ (s : State) (index : Nat) (e : TaqEntry), s.live pgTAQ = true ∧ tget s.taq (index % 64) = some e) ∧
  (∃ (s : State) (index : Nat), s.live pgTAQ = true ∧ tget s.taq (index % 64) = none ∧ s.taqFired.contains (index % 64) = true) ∧
  (∃ (s : State) (index : Nat), s.live pgTAQ = true ∧ tget s.taq (index % 64) = none ∧ s.taqFired.contains (index % 64) = false) ∧
  (∃ (s : State) (index : Nat) (k : Nat) (e : TaqEntry), s.live pgTAQ = true ∧ tget s.taq (index % 64) = some e ∧ k < 6) ∧
  (∃ (s : State) (index : Nat), s.live pgTAQ = true ∧ tget s.taq (index % 64) = none) ∧
  (∃ (s : State) (i : Nat) (e : TaqEntry), s.ntValid = true ∧ s.live pgTAQ = true ∧ e.target ≤ s.nt.whole ∧ earliest s.taq = some (i, e)) ∧
  (∃ (s : State) (i : Nat) (e : TaqEntry), s.ntValid = true ∧ s.live pgTAQ = true ∧ e.target ≤ s.nt.whole ∧ s.taq = [(i, e)] ∧ e.type = 1 ∧ s.on pgCRWN CRWN.STROBE_CTL_TAQ_EN = false) ∧
  (∃ (s : State) (i : Nat) (e : TaqEntry), s.ntValid = true ∧ s.live pgTAQ = true ∧ e.target ≤ s.nt.whole ∧ s.taq = [(i, e)] ∧ e.type = 4 ∧ s.takesFiring pgLKP = false) ∧
  (∃ (s : State), s.taq.all (fun e => decide (s.nt.whole < e.2.target)) = true) :=
  ⟨⟨wNt [(pgNTM, NTM.NTM_CTL_PPS_OUT_EN, 1, 0)], 0, by decide +kernel⟩,
   ⟨{ wNt [(pgNTM, NTM.NTM_CTL_TOD_TX_EN, 1, 0)] with ppsOutAt := some 0, ticks := 10 ^ 12 }, 0, by decide +kernel⟩,
   ⟨{ wNt [(pgNTM, NTM.NTM_CTL_TOD_RX_EN, 1, 0)] with ppsAt := some 0, ticks := 80000000 }, todBytes 7 1 37 6, by decide +kernel⟩,
   ⟨wNt [(pgNTM, NTM.NTM_CTL_TOD_RX_EN, 1, 0)], [], by decide +kernel⟩,
   ⟨{ wNt [] with todAt := some 0, ticks := 10 ^ 12 }, 0, by decide +kernel⟩,
   ⟨wNt [(pgNTM, NTM.SYNCE_CTL_EN, 1, 2)], 2, by decide +kernel⟩,
   ⟨{ wNt [(pgNTM, NTM.SYNCE_CTL_EN, 1, 2), (pgNTM, NTM.SYNCE_CTL_SQUELCHED, 1, 2), (0x10, LNP.LANE_STS_CDR_LOCK, 1, 0)] with synceAt := [(2, 0)], ticks := 10 ^ 12 }, 2, by decide +kernel⟩,
   ⟨wNt [(pgTAQ, TAQ.POST_TYPE_TYPE, 1, 0)], 0, { raw := (wNt [(pgTAQ, TAQ.POST_TYPE_TYPE, 1, 0)]).taqStaged, order := 0 }, by decide +kernel⟩,
   ⟨wNt [], { raw := (wNt []).taqStaged, order := 0 }, by decide +kernel⟩,
   ⟨wNt [(pgTAQ, TAQ.POST_TYPE_TYPE, 7, 0), (pgTAQ, TAQ.POST_ADDR_ADDR, 1, 0)], { raw := (wNt [(pgTAQ, TAQ.POST_TYPE_TYPE, 7, 0), (pgTAQ, TAQ.POST_ADDR_ADDR, 1, 0)]).taqStaged, order := 0 }, by decide +kernel⟩,
   ⟨wTaqV, 0, { raw := wTaqV.taqStaged, order := 0 }, by decide +kernel⟩,
   ⟨wTaqFull, { raw := wTaqFull.taqStaged, order := 0 }, by decide +kernel⟩,
   ⟨wTaq1, 3, wTaqE, by decide +kernel⟩,
   ⟨{ wNt [] with taqFired := [3] }, 3, by decide +kernel⟩,
   ⟨wNt [], 3, by decide +kernel⟩,
   ⟨wTaq1, 3, 2, wTaqE, by decide +kernel⟩,
   ⟨wNt [], 3, by decide +kernel⟩,
   ⟨wTaqD 1, 3, wTaqE, by decide +kernel⟩,
   ⟨wTaqD 1, 3, wTaqE, by decide +kernel⟩,
   ⟨wTaqL, 3, { wTaqE with raw := [0, 0, 0, 4, 0, 0] }, by decide +kernel⟩,
   ⟨wNt [], by decide +kernel⟩⟩

theorem test_witness_service_processor_roles :
  (∃ (s : State) (sp : Nat), sp < 2 ∧ s.role sp = spBoot ∧ (s.sp sp).booted = true ∧ s.active = none) ∧
  (∃ (s : State) (sp : Nat) (k : Nat), sp < 2 ∧ s.role sp = spBoot ∧ (s.sp sp).booted = true ∧ s.active = some k) ∧
  (∃ (s : State) (sp : Nat), sp < 2 ∧ s.live (spPage sp) = true ∧ s.role sp = spActive) ∧
  (∃ (s : State) (sp : Nat), sp < 2 ∧ s.live (spPage sp) = true ∧ s.role sp ≠ spActive) ∧
  (∃ (s : State) (k : Nat), s.live pgSPA = true ∧ s.active = some k ∧ s.hbAt + ticksMs 10 ≤ s.ticks ∧ s.spHealthy (spOther k) = true) ∧
  (∃ (s : State) (k : Nat), s.live pgSPA = true ∧ s.active = some k ∧ s.hbAt + ticksMs 10 ≤ s.ticks ∧ s.spHealthy (spOther k) = false) ∧
  (∃ (s : State) (k : Nat), s.live pgSPA = true ∧ s.on pgSPA SPA.IL_STS_SWITCHING = false ∧ s.active = some k ∧ s.spHealthy (spOther k) = true) ∧
  (∃ (s : State), s.live pgSPA = true ∧ s.on pgSPA SPA.IL_STS_SWITCHING = true) ∧
  (∃ (s : State), s.live pgSPA = true ∧ s.on pgSPA SPA.IL_STS_SWITCHING = false ∧ ((∀ k, s.active = some k → s.spHealthy (spOther k) = false))) ∧
  (∃ (s : State) (k : Nat), s.live pgSPA = true ∧ (k = 0 ∨ k = 1) ∧ s.spWaits k = true) ∧
  (∃ (s : State), s.live pgSPA = true ∧ s.spWaits 0 = false ∧ s.spWaits 1 = false) ∧
  (∃ (s : State) (sp : Nat) (n : Nat), sp < 2 ∧ s.role sp = spHeld ∧ (s.sp sp).heldAt = some n ∧ (s.sp sp).restarted = true ∧ n + ticksMs 1 ≤ s.ticks) ∧
  (∃ (s : State) (sp : Nat) (n : Nat), sp < 2 ∧ s.role sp = spHeld ∧ (s.sp sp).heldAt = some n ∧ (s.sp sp).restarted = false ∧ n + ticksMs 1 ≤ s.ticks) ∧
  (∃ (s : State) (sp : Nat), sp < 2 ∧ s.role sp = spActive ∧ s.on pgSPA SPA.IL_STS_SWITCHING = false) ∧
  (∃ (s : State) (sp : Nat), sp < 2 ∧ s.role sp = spActive ∧ s.on pgSPA SPA.IL_STS_SWITCHING = true ∧ s.fwHeld = none ∧ s.secHeld = none ∧ s.thermHeld = []) ∧
  (∃ (s : State) (sp : Nat) (tag : Nat), sp < 2 ∧ s.role sp = spActive ∧ s.on pgSPA SPA.IL_STS_SWITCHING = true ∧ s.fwHeld = none ∧ s.secHeld = some (.quote tag) ∧ s.thermHeld = []) ∧
  (∃ (s : State) (n : Nat) (k : Nat), s.live pgSPA = true ∧ s.takeoverBy = some n ∧ s.active = some k ∧ n ≤ s.ticks) :=
  ⟨⟨wSp 1 0 { booted := true } {}, 0, by decide⟩,
   ⟨wSp 4 1 {} { booted := true }, 1, 0, by decide⟩,
   ⟨wSp 4 3 {} {}, 0, by decide⟩,
   ⟨wSp 4 3 {} {}, 1, by decide⟩,
   ⟨wSpH, 0, by decide⟩,
   ⟨{ wSp 4 2 {} {} with ticks := 10 ^ 9 }, 0, by decide⟩,
   ⟨wSpH, 0, by decide⟩,
   ⟨(wSp 4 3 {} {}).wr pgSPA SPA.IL_STS_SWITCHING 1, by decide⟩,
   ⟨wSp 4 2 {} {}, ⟨by decide, by decide, fun k h => by have e : some 0 = some k := (by decide : _ = (wSp 4 2 {} {}).active).trans h; cases e; decide⟩⟩,
   ⟨wSp 4 3 {} {}, 1, by decide⟩,
   ⟨wSp 4 1 {} {}, by decide⟩,
   ⟨{ wSp 4 5 {} { heldAt := some 0, restarted := true } with ticks := 10 ^ 9 }, 1, 0, by decide⟩,
   ⟨{ wSp 4 5 {} { heldAt := some 0, restarted := false } with ticks := 10 ^ 9 }, 1, 0, by decide⟩,
   ⟨wSp 4 3 {} {}, 0, by decide⟩,
   ⟨(wSp 4 3 {} {}).wr pgSPA SPA.IL_STS_SWITCHING 1, 0, by decide⟩,
   ⟨{ (wSp 4 3 {} {}).wr pgSPA SPA.IL_STS_SWITCHING 1 with secHeld := some (.quote 7) }, 0, 7, by decide⟩,
   ⟨{ wSp 4 3 {} {} with takeoverBy := some 0 }, 0, 0, by decide⟩⟩

theorem test_witness_service_processor_health :
  (∃ (s : State) (sp : Nat), sp < 2 ∧ s.role sp = spSync ∧ 1 ≤ (s.sp sp).passes) ∧
  (∃ (s : State) (sp : Nat), sp < 2 ∧ s.live (spPage sp) = true ∧ s.spWaits sp = true ∧ s.live pgSPA = true) ∧
  (∃ (s : State) (sp : Nat) (n : Nat), s.live pgSPA = true ∧ sp < 2 ∧ (s.sp sp).postAt = some n ∧ s.spWaits sp = true ∧ n + ticksMs 300 ≤ s.ticks) ∧
  (∃ (s : State) (sp : Nat), sp < 2 ∧ s.live (spPage sp) = true ∧ s.spWaits sp = true ∧ s.on pgSPA SPA.IL_STS_SWITCHING = false) ∧
  (∃ (s : State) (sp : Nat), sp < 2 ∧ s.live (spPage sp) = true ∧ s.spWaits sp = true ∧ s.on pgSPA SPA.IL_STS_SWITCHING = false) ∧
  (∃ (s : State) (n : Nat), s.noActiveAt = some n ∧ n + ticksMs (1000 * max (s.rd pgSPA SPA.FAN_CFG_FAILSAFE_S) 1) ≤ s.ticks ∧ s.failsafe = false) :=
  ⟨⟨wSp 4 2 {} { passes := 1 }, 1, by decide⟩,
   ⟨wSp 4 3 {} { okBits := 0x1FF }, 1, by decide⟩,
   ⟨{ wSp 4 3 {} { postAt := some 0 } with ticks := 10 ^ 9 }, 1, 0, by decide⟩,
   ⟨wSp 4 3 {} { step := 9 }, 1, by decide⟩,
   ⟨wSp 4 3 {} {}, 1, by decide⟩,
   ⟨{ wSp 5 5 {} {} with noActiveAt := some 0, ticks := 10 ^ 11 }, 0, by decide⟩⟩

theorem test_witness_firmware_images_and_arming :
  (∃ (s : State) (sp : Nat), sp < 2 ∧ s.live pgFWU = true ∧ s.role sp = spBoot ∧ (s.sp sp).booted = false ∧ s.role (spOther sp) ≠ spActive ∧ (s.sp (spOther sp)).booted = false) ∧
  (∃ (s : State) (sp : Nat), sp < 2 ∧ s.live pgFWU = true ∧ s.role sp = spBoot ∧ (s.sp sp).booted = false ∧ s.role (spOther sp) = spActive) ∧
  (∃ (s : State) (slot : Nat), slot < 3 ∧ s.live pgFWU = true ∧ s.fwRun = none ∧ s.fwHeld = none ∧ s.on pgSPA SPA.IL_STS_SWITCHING = false ∧ slot ≠ s.rd pgFWU FWU.FWU_STS_RUN_SLOT ∧ s.on pgFWU FWU.FWU_STS_TRIAL = false ∧ s.tagFree = true) ∧
  (∃ (s : State) (slot : Nat), slot < 3 ∧ s.live pgFWU = true ∧ s.fwRun = none ∧ s.fwHeld = none ∧ s.on pgSPA SPA.IL_STS_SWITCHING = false ∧ slot ≠ s.rd pgFWU FWU.FWU_STS_RUN_SLOT ∧ s.on pgFWU FWU.FWU_STS_TRIAL = false) ∧
  (∃ (s : State) (slot : Nat), slot < 3 ∧ s.live pgFWU = true ∧ s.fwRun = none ∧ s.fwHeld = none ∧ s.on pgSPA SPA.IL_STS_SWITCHING = false ∧ slot ≠ s.rd pgFWU FWU.FWU_STS_RUN_SLOT ∧ s.on pgFWU FWU.FWU_STS_TRIAL = false) ∧
  (∃ (s : State) (slot : Nat), slot < 3 ∧ s.live pgFWU = true ∧ s.fwRun = none ∧ s.fwHeld = none ∧ s.on pgSPA SPA.IL_STS_SWITCHING = false ∧ slot ≠ s.rd pgFWU FWU.FWU_STS_RUN_SLOT ∧ s.on pgFWU FWU.FWU_STS_TRIAL = false) ∧
  (∃ (s : State) (slot : Nat), slot < 3 ∧ s.live pgFWU = true ∧ s.fwRun = none ∧ s.fwHeld = none ∧ s.on pgSPA SPA.IL_STS_SWITCHING = false ∧ slot = s.rd pgFWU FWU.FWU_STS_RUN_SLOT) ∧
  (∃ (s : State) (slot : Nat), slot < 3 ∧ s.live pgFWU = true ∧ s.fwRun = none ∧ s.fwHeld = none ∧ s.on pgSPA SPA.IL_STS_SWITCHING = true) ∧
  (∃ (s : State), s.live pgFWU = true ∧ s.fwRun = none ∧ s.fwHeld = none ∧ s.on pgSPA SPA.IL_STS_SWITCHING = false) ∧
  (∃ (s : State) (slot : Nat), slot < 3 ∧ s.live pgFWU = true ∧ s.fwRun = none ∧ s.fwHeld = none ∧ s.on pgSPA SPA.IL_STS_SWITCHING = false) ∧
  (∃ (s : State) (slot : Nat), s.live pgFWU = true ∧ s.fwRun = none ∧ s.fwHeld = none ∧ s.on pgFWU FWU.FWU_STS_TRIAL = false ∧ slot < 2 ∧ s.fwPassed.contains slot = true) ∧
  (∃ (s : State), s.live pgFWU = true ∧ s.fwRun = none ∧ s.fwHeld = none ∧ s.on pgFWU FWU.FWU_STS_TRIAL = true) ∧
  (∃ (s : State) (slot : Nat), s.live pgFWU = true ∧ s.fwRun = none ∧ s.fwHeld = none ∧ s.on pgFWU FWU.FWU_STS_TRIAL = false ∧ s.fwPassed.contains slot = false) ∧
  (∃ (s : State), s.live pgFWU = true ∧ s.fwRun = none ∧ s.fwHeld = none ∧ s.on pgFWU FWU.FWU_STS_ARMED = true) ∧
  (∃ (s : State), s.live pgFWU = true ∧ s.fwRun = none ∧ s.fwHeld = none ∧ s.on pgFWU FWU.FWU_STS_ARMED = false ∧ s.fwFired = false) ∧
  (∃ (s : State), s.live pgFWU = true ∧ s.fwRun = none ∧ s.fwHeld = none ∧ s.on pgFWU FWU.FWU_STS_ARMED = false ∧ s.fwFired = true) ∧
  (∃ (s : State), s.live pgFWU = true ∧ s.fwRun = none ∧ s.fwHeld = none ∧ s.on pgFWU FWU.FWU_STS_ARMED = true ∧ s.on pgFWU FWU.FWU_STS_TRIAL = false) ∧
  (∃ (s : State), s.live pgFWU = true ∧ s.fwRun = none ∧ s.fwHeld = none ∧ s.on pgFWU FWU.FWU_STS_ARMED = false ∧ s.on pgFWU FWU.FWU_STS_TRIAL = false) ∧
  (∃ (s : State), s.live pgFWU = true ∧ s.fwRun = none ∧ s.fwHeld = none ∧ s.on pgFWU FWU.FWU_STS_TRIAL = true) ∧
  (∃ (s : State), s.live pgFWU = true ∧ s.fwRun = none ∧ s.fwHeld = none ∧ (s.fnS 1).sends = true) ∧
  (∃ (s : State), s.live pgFWU = true ∧ s.fwRun = none ∧ s.fwHeld = none) ∧
  (∃ (s : State) (tag : Nat) (a : Nat), s.live pgFWU = true ∧ s.fwRun = some (a, tag)) ∧
  (∃ (s : State) (tag : Nat) (x : FwTask), s.live pgFWU = true ∧ s.fwRun = none ∧ s.fwHeld = some x ∧ tag = fwTag x) :=
  ⟨⟨wSp 1 0 {} {}, 0, by decide⟩,
   ⟨wSp 4 1 {} {}, 1, by decide⟩,
   ⟨wBase, 1, by decide⟩,
   ⟨wBase, 1, by decide⟩,
   ⟨wBase, 1, by decide⟩,
   ⟨wBase, 1, by decide⟩,
   ⟨wBase, 0, by decide⟩,
   ⟨wst [(pgSPA, SPA.IL_STS_SWITCHING, 1, 0)], 1, by decide⟩,
   ⟨wBase, by decide⟩,
   ⟨wBase, 1, by decide⟩,
   ⟨{ wBase with fwPassed := [1] }, 1, by decide⟩,
   ⟨wst [(pgFWU, FWU.FWU_STS_TRIAL, 1, 0)], by decide⟩,
   ⟨wBase, 1, by decide⟩,
   ⟨wst [(pgFWU, FWU.FWU_STS_ARMED, 1, 0)], by decide⟩,
   ⟨wBase, by decide⟩,
   ⟨{ wBase with fwFired := true }, by decide⟩,
   ⟨wst [(pgFWU, FWU.FWU_STS_ARMED, 1, 0)], by decide⟩,
   ⟨wBase, by decide⟩,
   ⟨wst [(pgFWU, FWU.FWU_STS_TRIAL, 1, 0)], by decide⟩,
   ⟨{ wBase with fns := [(1, { cfg := [(4, 6)] })] }, by decide⟩,
   ⟨wBase, by decide⟩,
   ⟨{ wBase with fwRun := some (1, 7) }, 7, 1, by decide⟩,
   ⟨{ wBase with fwHeld := some (.stage 1 7 .running) }, 7, .stage 1 7 .running, by decide⟩⟩

theorem test_witness_firmware_trial_and_security :
  (∃ (s : State) (n : Nat), s.live pgFWU = true ∧ s.trialAt = some n ∧ n + ticksMs 900000 ≤ s.ticks) ∧
  (∃ (s : State), s.live pgFWU = true ∧ s.fwRun = none ∧ s.fwHeld = none ∧ s.on pgFWU FWU.FWU_STS_TRIAL = true) ∧
  (∃ (s : State), s.live pgFWU = true ∧ s.fwRun = none ∧ s.fwHeld = none ∧ s.on pgFWU FWU.FWU_STS_TRIAL = false) ∧
  (∃ (s : State), s.live pgFWU = true ∧ s.mayConfirm = true) ∧
  (∃ (s : State), s.live pgFWU = true ∧ s.fwRun = none ∧ s.fwHeld = none ∧ s.on pgFWU FWU.FWU_STS_TRIAL = false) ∧
  (∃ (s : State), s.live pgFWU = true ∧ s.fwRun = none ∧ s.fwHeld = none ∧ s.on pgFWU FWU.FWU_STS_TRIAL = true) ∧
  (∃ (s : State), s.live pgSEC = true ∧ s.secHeld = none ∧ s.on pgSPA SPA.IL_STS_SWITCHING = false) ∧
  (∃ (s : State), s.live pgSEC = true ∧ s.secHeld = none ∧ s.on pgSPA SPA.IL_STS_SWITCHING = true) ∧
  (∃ (s : State), s.live pgSEC = true ∧ s.secHeld = none ∧ s.on pgSPA SPA.IL_STS_SWITCHING = false) ∧
  (∃ (s : State), s.live pgSEC = true ∧ s.secHeld = none ∧ s.on pgSPA SPA.IL_STS_SWITCHING = false ∧ s.challenged = false) ∧
  (∃ (s : State), s.live pgSEC = true ∧ s.secHeld = none ∧ s.on pgSPA SPA.IL_STS_SWITCHING = false ∧ s.challenged = true) :=
  ⟨⟨{ wBase with trialAt := some 0, ticks := 10 ^ 13 }, 0, by decide⟩,
   ⟨wst [(pgFWU, FWU.FWU_STS_TRIAL, 1, 0)], by decide⟩,
   ⟨wBase, by decide⟩,
   ⟨{ wSp 4 3 {} {} with trialAt := some 0, takenOver := true }.wr pgSPA SPA.IL_STS_HEALTHY_B 1, by decide⟩,
   ⟨wBase, by decide⟩,
   ⟨wst [(pgFWU, FWU.FWU_STS_TRIAL, 1, 0)], by decide⟩,
   ⟨wBase, by decide⟩,
   ⟨wst [(pgSPA, SPA.IL_STS_SWITCHING, 1, 0)], by decide⟩,
   ⟨wBase, by decide⟩,
   ⟨wBase, by decide⟩,
   ⟨{ wBase with challenged := true }, by decide⟩⟩

theorem test_witness_observability_commands :
  (∃ (s : State) (q : Nat) (rest : List Nat), s.live pgOBS = true ∧ s.shadowDue = q :: rest ∧ s.shadowFlush = none ∧ (s.on pgOBS OBS.FLUSH_CTL_DEST = true ∨ s.fabric = false)) ∧
  (∃ (s : State) (q : Nat) (rest : List Nat) (f : ShadowFlush), s.live pgOBS = true ∧ s.shadowDue = q :: rest ∧ s.shadowFlush = some f) ∧
  (∃ (s : State) (f : ShadowFlush), s.live pgOBS = true ∧ s.shadowFlush = some f ∧ f.host = true ∧ (s.fnS 1).sends = true) ∧
  (∃ (s : State) (f : ShadowFlush), s.live pgOBS = true ∧ s.shadowFlush = some f ∧ f.host = false ∧ f.addr + f.image.length ≤ s.tableBytes) ∧
  (∃ (s : State) (f : ShadowFlush), s.live pgOBS = true ∧ s.shadowFlush = some f ∧ f.host = true) ∧
  (∃ (s : State) (p : Nat), s.live pgOBS = true ∧ s.on pgOBS OBS.BW_CFG_EN = true ∧ s.bwDue = true ∧ p < 256) ∧
  (∃ (s : State), s.live pgOBS = true ∧ s.traceRun = none) ∧
  (∃ (s : State), s.live pgOBS = true ∧ s.traceRun = none ∧ (s.fnS 1).sends = true) ∧
  (∃ (s : State), s.live pgOBS = true ∧ s.traceRun = none) ∧
  (∃ (s : State), s.live pgOBS = true ∧ s.traceRun = none) ∧
  (∃ (s : State) (tag : Nat) (r : DumpRun), s.live pgOBS = true ∧ s.traceRun = some r ∧ tag = r.tag) ∧
  (∃ (s : State), s.live pgLOG = true ∧ s.logRun = none ∧ s.domOn 1 = true ∧ (s.rd pgLOG LOG.APPEND_W_WORD 0 % 65536) / 4096 = 3) ∧
  (∃ (s : State), s.live pgLOG = true ∧ s.logRun = none ∧ (s.rd pgLOG LOG.APPEND_W_WORD 0 % 65536) / 4096 ≠ 3) ∧
  (∃ (s : State), s.live pgLOG = true ∧ s.logRun = none ∧ s.domOn 1 = false ∧ (s.rd pgLOG LOG.APPEND_W_WORD 0 % 65536) / 4096 = 3) ∧
  (∃ (s : State) (r : DumpRun), s.live pgLOG = true ∧ s.logRun = some r) ∧
  (∃ (s : State), s.live pgLOG = true ∧ s.logRun = none ∧ (s.fnS 1).sends = true) ∧
  (∃ (s : State), s.live pgLOG = true ∧ s.logRun = none) ∧
  (∃ (s : State), s.live pgLOG = true ∧ s.logRun = none) ∧
  (∃ (s : State) (tag : Nat) (r : DumpRun), s.live pgLOG = true ∧ s.logRun = some r ∧ tag = r.tag) ∧
  (∃ (s : State) (k : Nat) (d : Nat), s.live pgLEG = true ∧ s.on pgLEG LEG.LEG_CTL_EN = true ∧ s.legAt.all (fun n => decide (n + ticksUs (s.rd pgLEG LEG.LEG_CTL_GATHER_US) ≤ s.ticks)) = true ∧ k < 2048 ∧ d < 16) ∧
  (∃ (s : State) (entry : Nat), s.live pgLEG = true ∧ entry < 2064) :=
  ⟨⟨{ wBase with shadowDue := [4] }, 4, [], by decide⟩,
   ⟨{ wBase with shadowDue := [4], shadowFlush := some ⟨3, true, 0, []⟩ }, 4, [], ⟨3, true, 0, []⟩, by decide⟩,
   ⟨{ wBase with fns := [(1, { cfg := [(4, 6)] })], shadowFlush := some ⟨3, true, 0, [1]⟩ }, ⟨3, true, 0, [1]⟩, by decide⟩,
   ⟨{ wBase with shadowFlush := some ⟨3, false, 0, []⟩ }, ⟨3, false, 0, []⟩, by decide⟩,
   ⟨{ wBase with shadowFlush := some ⟨3, true, 0, [1]⟩ }, ⟨3, true, 0, [1]⟩, by decide⟩,
   ⟨{ wst [(pgOBS, OBS.BW_CFG_EN, 1, 0)] with ticks := 10 ^ 9 }, 3, by decide⟩,
   ⟨wBase, by decide⟩,
   ⟨{ wBase with fns := [(1, { cfg := [(4, 6)] })] }, by decide⟩,
   ⟨wBase, by decide⟩,
   ⟨wBase, by decide⟩,
   ⟨{ wBase with traceRun := some { tag := 7, addr := 0 } }, 7, { tag := 7, addr := 0 }, by decide⟩,
   ⟨wst [(pgLOG, LOG.APPEND_W_WORD, 0x3001, 0)], by decide⟩,
   ⟨wBase, by decide⟩,
   ⟨wst [(pgLOG, LOG.APPEND_W_WORD, 0x3001, 0), (pgPWR, PWR.DOM_STS_POWERED, 0, 1)], by decide⟩,
   ⟨{ wBase with logRun := some { tag := 7, addr := 0 } }, { tag := 7, addr := 0 }, by decide⟩,
   ⟨{ wBase with fns := [(1, { cfg := [(4, 6)] })] }, by decide⟩,
   ⟨wBase, by decide⟩,
   ⟨wBase, by decide⟩,
   ⟨{ wBase with logRun := some { tag := 7, addr := 0 } }, 7, { tag := 7, addr := 0 }, by decide⟩,
   ⟨wst [(pgLEG, LEG.LEG_CTL_EN, 1, 0)], 9, 4, by decide⟩,
   ⟨wBase, 5, by decide⟩⟩

theorem test_witness_port_frames :
  (∃ (s : State) (slot : Nat) (fcs : Nat) (n : Nat) (bytes : List Byte) (errs : List Nat), s.macHears slot = true ∧ s.slotLooped slot = false ∧ s.rxFault slot bytes fcs (errs.any fun m => s.fecMarks slot m) = some n) ∧
  (∃ (s : State) (slot : Nat) (fcs : Nat) (bytes : List Byte) (errs : List Nat), s.macHears slot = true ∧ s.slotLooped slot = false ∧ s.rxFault slot bytes fcs (errs.any fun m => s.fecMarks slot m) = none ∧ etherTypeAt bytes 12 = 0x8808 ∧ (beAt bytes 14 2 = 1 ∨ beAt bytes 14 2 = 0x0101)) ∧
  (∃ (s : State) (slot : Nat) (fcs : Nat) (bytes : List Byte) (errs : List Nat), s.macHears slot = true ∧ s.slotLooped slot = false ∧ s.rxFault slot bytes fcs (errs.any fun m => s.fecMarks slot m) = none ∧ etherTypeAt bytes 12 ≠ 0x8808 ∧ s.on (msc slot) MSC.SEC_CTL_RX_EN (slot % 16) = false ∧ s.holdUsed + s.rd (msc slot) MSC.MAC_CTL_MAX_FRAME (slot % 16) ≤ 4194304) ∧
  (∃ (s : State) (slot : Nat) (fcs : Nat) (bytes : List Byte) (errs : List Nat), s.macHears slot = true ∧ s.slotLooped slot = false ∧ s.rxFault slot bytes fcs (errs.any fun m => s.fecMarks slot m) = none ∧ etherTypeAt bytes 12 ≠ 0x8808 ∧ s.on (msc slot) MSC.SEC_CTL_RX_EN (slot % 16) = false ∧ 4194304 < s.holdUsed + s.rd (msc slot) MSC.MAC_CTL_MAX_FRAME (slot % 16)) ∧
  (∃ (s : State) (slot : Nat), s.macHears slot = true ∧ s.slotLooped slot = false ∧ (s.mac slot).partial_ = none) ∧
  (∃ (s : State) (slot : Nat) (k : Bool) (l : List Byte) (n : NetTime), s.macHears slot = true ∧ s.slotLooped slot = false ∧ (s.mac slot).partial_ = some (l, n, k)) ∧
  (∃ (s : State) (slot : Nat), s.macHears slot = true ∧ s.slotLooped slot = false) ∧
  (∃ (s : State) (i : Nat) (f : Frame) (rest : List Frame), s.toFd = f :: rest ∧ s.pickEpp = some i ∧ s.bandUp = true ∧ s.isHostPort f.outPort = false) ∧
  (∃ (s : State) (i : Nat) (f : Frame) (rest : List Frame), s.toFd = f :: rest ∧ s.pickEpp = some i ∧ s.bandUp = true ∧ f.poison = false ∧ f.err = false ∧ f.fcsGood = true ∧ f.rewrite = noRewrite ∧ f.ce = false ∧ s.isHostPort f.outPort = false ∧ s.live (msc f.outPort) = true) ∧
  (∃ (s : State) (i : Nat) (f : Frame) (rest : List Frame), s.toFd = f :: rest ∧ s.pickEpp = some i ∧ s.bandUp = true ∧ f.poison = false ∧ f.err = false ∧ f.fcsGood = true ∧ f.rewrite = noRewrite ∧ f.ce = false ∧ s.isHostPort f.outPort = true ∧ f.nhType = 3) ∧
  (∃ (s : State) (slot : Nat) (f : Frame), s.macSends slot = true ∧ (s.mac slot).sending = [f] ∧ (s.mac slot).cutTx = none ∧ f.err = false ∧ f.csumIns = none ∧ s.on (msc slot) MSC.PTP_CTL_ONE_STEP_EN (slot % 16) = false ∧ s.on (msc slot) MSC.SEC_CTL_TX_EN (slot % 16) = false ∧ 60 ≤ f.bytes.length ∧ f.bytes.length + 4 ≤ s.rd (msc slot) MSC.MAC_CTL_MAX_FRAME (slot % 16) ∧ bit f.ptp 2 = false ∧ (s.phyLanes slot).all (fun l => s.laneSends l) = true ∧ s.slotLooped slot = false ∧ f.fcsGood = true) ∧
  (∃ (s : State) (slot : Nat) (f : Frame), s.macSends slot = true ∧ (s.mac slot).sending = [f] ∧ (s.mac slot).cutTx = none ∧ f.err = false ∧ f.csumIns = none ∧ s.on (msc slot) MSC.PTP_CTL_ONE_STEP_EN (slot % 16) = false ∧ s.on (msc slot) MSC.SEC_CTL_TX_EN (slot % 16) = false ∧ 60 ≤ f.bytes.length ∧ f.bytes.length + 4 ≤ s.rd (msc slot) MSC.MAC_CTL_MAX_FRAME (slot % 16) ∧ bit f.ptp 2 = false ∧ (s.phyLanes slot).all (fun l => s.laneSends l) = true ∧ s.slotLooped slot = false ∧ f.fcsGood = false) :=
  ⟨⟨wRxP, 3, 0, 3, List.replicate 9 0, [], by decide +kernel⟩,
   ⟨wRxP, 3, crc32 (wPauseB), wPauseB, [], by decide +kernel⟩,
   ⟨wRxP, 3, crc32 (List.replicate 60 0), List.replicate 60 0, [], by decide +kernel⟩,
   ⟨wFullHold (List.replicate 4190000 0), 3, crc32 (List.replicate 60 0), List.replicate 60 0, [], ⟨by decide, by decide, by decide +kernel, by decide, by decide, by rw [wFullHold_used, List.length_replicate]; decide⟩⟩,
   ⟨wRxP, 3, by decide +kernel⟩,
   ⟨wRxH, 3, false, [1, 2], {}, by decide +kernel⟩,
   ⟨wRxH, 3, by decide +kernel⟩,
   ⟨wOut wOutF, 0, wOutF, [], by decide +kernel⟩,
   ⟨wOut wOutF, 0, wOutF, [], by decide +kernel⟩,
   ⟨wOut { wOutF with outPort := wBase.rd pgQSU QSU.HOST_PORT_PORT }, 0, { wOutF with outPort := wBase.rd pgQSU QSU.HOST_PORT_PORT }, [], by decide +kernel⟩,
   ⟨wTxL true, 3, { wFr with fcsGood := true }, by decide +kernel⟩,
   ⟨wTxL false, 3, { wFr with fcsGood := false }, by decide +kernel⟩⟩

theorem test_witness_pipeline_frames :
  (∃ (s : State) (f : Frame) (rest : List Frame) (i : Nat), s.ingress = f :: rest ∧ s.pickIpp = some i ∧ s.mayDeal = true) ∧
  (∃ (s : State) (f : Frame) (rest : List Frame) (i : Nat), s.ingress = f :: rest ∧ s.pickIpp = some i ∧ s.mayDeal = true ∧ s.enabled pgPRS = false) ∧
  (∃ (s : State) (f : Frame) (rest : List Frame) (i : Nat), s.ingress = f :: rest ∧ s.pickIpp = some i ∧ s.mayDeal = false) ∧
  (∃ (s : State) (ctx : Nat) (seq : Nat) (x : Piped) (rest : List Piped), s.piped = x :: rest ∧ x.frame.ctx = ctx ∧ x.frame.seq = seq ∧ (x.stage = .park1 ∨ x.stage = .park2) ∧ rest.all (fun y => decide (y.stage ≠ .full1) && decide (y.stage ≠ .full2)) = true ∧ s.bandUp = true ∧ s.readsOut (s.parkReads x) = true) ∧
  (∃ (s : State) (ctx : Nat) (seq : Nat) (x : Piped) (rest : List Piped), s.piped = x :: rest ∧ x.frame.ctx = ctx ∧ x.frame.seq = seq ∧ s.bandUp = false) ∧
  (∃ (s : State) (ctx : Nat) (seq : Nat) (x : Piped) (rest : List Piped) (nh : Nat) (w : List Nat), s.piped = x :: rest ∧ x.frame.ctx = ctx ∧ x.frame.seq = seq ∧ x.stage = .park2 ∧ rest.all (fun y => decide (y.stage ≠ .full1) && decide (y.stage ≠ .full2)) = true ∧ s.bandUp = true ∧ s.readsOut (s.parkReads x) = true ∧ s.readsFail (s.parkReads x) = false ∧ s.lpmDead x.frame (x.frame.aux.drop 4) = false ∧ bit (x.frame.act.getD 1 0) 31 = false ∧ x.exm = some (some nh) ∧ s.enabled pgNHP = true ∧ s.on pgNHP NHP.NHP_CTL_EN = true ∧ s.hopDead x.frame nh = false ∧ w = s.rowAt x.frame.epoch 24 false nh ∧ nhBad w = false ∧ bits (w.getD 0 0) 0 3 ≠ 4 ∧ x.frame.tooLong w = false ∧ s.on pgPMM PMM.PMM_STS_BP = false ∧ bit (x.frame.act.getD 0 0) 4 = false) ∧
  (∃ (s : State) (x : Piped) (rest : List Piped) (b : Nat) (u : Nat), s.piped = x :: rest ∧ x.stage = .search ∧ s.rsuBad x.frame (some (b, u)) = some (b, u)) ∧
  (∃ (s : State) (x : Piped) (rest : List Piped), s.piped = x :: rest ∧ x.stage = .search ∧ s.rsuBad x.frame none = none ∧ rsuWinner (s.rsuHits x.frame) = [] ∧ s.on (pgRSU 0) RSU.PROF_CFG_MISS_DROP x.frame.rsuProf = true) ∧
  (∃ (s : State) (x : Piped) (rest : List Piped) (a : Nat) (e : RsuEntry), s.piped = x :: rest ∧ x.stage = .search ∧ s.rsuBad x.frame none = none ∧ rsuWinner (s.rsuHits x.frame) = [(a, e)] ∧ bit e.act 25 = true) ∧
  (∃ (s : State) (x : Piped) (rest : List Piped) (a : Nat) (e : RsuEntry), s.piped = x :: rest ∧ x.stage = .search ∧ s.rsuBad x.frame none = none ∧ rsuWinner (s.rsuHits x.frame) = [(a, e)] ∧ bit e.act 25 = false ∧ bit ((x.frame.rsuApply e.act).act.getD 0 0) 6 = true ∧ bit ((x.frame.rsuApply e.act).act.getD 0 0) 4 = false ∧ s.on pgPMM PMM.PMM_STS_BP = false) ∧
  (∃ (s : State) (ctx : Nat) (seq : Nat) (x : Piped) (rest : List Piped), s.piped = x :: rest ∧ x.frame.ctx = ctx ∧ x.frame.seq = seq ∧ x.stage = .scan ∧ rest.all (fun y => decide (y.stage ≠ .held)) = true) ∧
  (∃ (s : State) (ctx : Nat) (seq : Nat) (x : Piped) (rest : List Piped), s.piped = x :: rest ∧ x.frame.ctx = ctx ∧ x.frame.seq = seq ∧ x.stage = .ready ∧ x.stale = false ∧ s.enabled pgORD = true ∧ seq = (s.ctx ctx).next ∧ (s.ctx ctx).held = [] ∧ x.drop = false ∧ x.frame.nhType ≠ 5) ∧
  (∃ (s : State) (ctx : Nat) (seq : Nat) (x : Piped) (rest : List Piped), s.piped = x :: rest ∧ x.frame.ctx = ctx ∧ x.frame.seq = seq ∧ x.stage = .ready ∧ x.stale = false ∧ s.enabled pgORD = true ∧ seq = (s.ctx ctx).next ∧ (s.ctx ctx).held = [] ∧ x.drop = true) ∧
  (∃ (s : State) (ctx : Nat) (seq : Nat) (x : Piped) (rest : List Piped), s.piped = x :: rest ∧ x.frame.ctx = ctx ∧ x.frame.seq = seq ∧ x.stage = .ready ∧ x.stale = false ∧ s.enabled pgORD = true ∧ seq ≠ (s.ctx ctx).next ∧ (seq + 65536 - (s.ctx ctx).next) % 65536 < 32768 ∧ tget (s.ctx ctx).held (s.ctx ctx).next = none) ∧
  (∃ (s : State) (ctx : Nat) (seq : Nat) (x : Piped) (rest : List Piped), s.piped = x :: rest ∧ x.frame.ctx = ctx ∧ x.frame.seq = seq ∧ x.stage = .ready ∧ x.stale = false ∧ s.enabled pgORD = true ∧ 32768 ≤ (seq + 65536 - (s.ctx ctx).next) % 65536) ∧
  (∃ (s : State) (ctx : Nat) (q : Nat) (h : OrdHeld), s.live pgORD = true ∧ s.gapDue ctx = true ∧ (s.ctx ctx).held = [(q, h)] ∧ h.drop = false ∧ h.frame.nhType ≠ 5) ∧
  (∃ (s : State) (ctx : Nat), s.gapDue ctx = false) :=
  ⟨⟨wHeldF, wFr, [], 0, by decide⟩,
   ⟨wHeldF, wFr, [], 0, by decide⟩,
   ⟨{ wHeldF with piped := [{ wPiped .ready with stale := true }] }, wFr, [], 0, by decide⟩,
   ⟨wIn .park2, 0, 0, wPiped .park2, [], by decide⟩,
   ⟨{ wIn .park2 with regs := [] }, 0, 0, wPiped .park2, [], by decide⟩,
   ⟨wParkD, 0, 0, wParkX, [], 9, [10, 5, 0, 0], by decide⟩,
   ⟨wSrch [] [], wPiped .search, [], 0, 5, by decide⟩,
   ⟨wSrch [(pgRSU 0, RSU.PROF_CFG_MISS_DROP, 1, 0)] [], wPiped .search, [], by decide⟩,
   ⟨wSrch [] [(0, wSrchE (2 ^ 25))], wPiped .search, [], 0, wSrchE (2 ^ 25), by decide⟩,
   ⟨wSrch [] [(0, wSrchE (2 ^ 26))], wPiped .search, [], 0, wSrchE (2 ^ 26), by decide⟩,
   ⟨wIn .scan, 0, 0, wPiped .scan, [], by decide⟩,
   ⟨wIn .ready, 0, 0, wPiped .ready, [], by decide⟩,
   ⟨{ wPipe with piped := [{ wPiped .ready with drop := true }] }, 0, 0, { wPiped .ready with drop := true }, [], by decide⟩,
   ⟨{ wPipe with piped := [{ wPiped .ready with frame := { wFr with seq := 7 } }] }, 0, 7, { wPiped .ready with frame := { wFr with seq := 7 } }, [], by decide⟩,
   ⟨{ wPipe with piped := [{ wPiped .ready with frame := { wFr with seq := 50000 } }] }, 0, 50000, { wPiped .ready with frame := { wFr with seq := 50000 } }, [], by decide⟩,
   ⟨wOrdG, 0, 7, wOrdH, by decide⟩,
   ⟨wPipe, 0, by decide⟩⟩

end Sys2Proof.Tests
end

/-! PROOFS. Power domains: a refused write of a power-domain control (R811). -/

namespace Sys2Proof.Machine

/-- Raising a cause reaches the block registers (offset 0x100 up) of four pages only; those of every other page lie outside the side keys. -/
theorem not_sideKey_of_block {q : Nat} {f : Fld} {i : Nat} (hlo : 0x100 ≤ f.at_ i) (hhi : f.at_ i < 0x10000) (hf : f.lo < 32)
    (hcrwn : q ≠ pgCRWN) (hobs : q ≠ pgOBS) (hlog : q ≠ pgLOG) (hpce : q ≠ pgPCE) : ¬ sideKey (f.key q i) := by
  have hmod : f.key q i % 2097152 = f.at_ i * 32 + f.lo := by simp only [Fld.key, Fld.at_] at *; omega
  have hdiv : f.key q i / 2097152 = q := by simp only [Fld.key, Fld.at_] at *; omega
  simp only [sideKey, sideCommon, hmod, hdiv, hcrwn, hobs, hlog, hpce, false_and, or_false]
  omega

/-- PWR_CNT1 is the register at 0x228 of the PWR page and no other. -/
theorem pwrCnt1_key_ne {q : Nat} {f : Fld} {i : Nat} (hhi : f.at_ i < 0x10000) (hf : f.lo < 32) (h : q = pgPWR → f.at_ i ≠ 0x228) :
    PWR.PWR_CNT.key pgPWR 1 ≠ f.key q i := by
  simp only [Fld.key, Fld.at_, PWR.PWR_CNT, pgPWR] at *
  omega

/-- Power is read from DOM_STS, which lies below the counters, so that a counted refusal keeps it. -/
theorem live_cnt_pwrCnt1 (s : State) (p : Nat) : (s.cnt pgPWR PWR.PWR_CNT 1).live p = s.live p := by
  have hdom := dom_lt p
  simp only [State.live, State.domOn, State.on]
  rw [State.rd_cnt_ne]
  · simp only [sideKey, sideCommon, Fld.key, PWR.DOM_STS_POWERED, pgPWR, pgCRWN, pgOBS, pgLOG, pgPCE]; omega
  · simp only [Fld.key, PWR.PWR_CNT, PWR.DOM_STS_POWERED]; omega

/-- What a refused write of DOM_CTL does (R811): PWR_CNT1 advances and cause 0 is raised. -/
def State.domRefuse (s : State) : State := (s.cnt pgPWR PWR.PWR_CNT 1).raise pgPWR 0

theorem State.domWrite_refused {s : State} {d : Nat} {on : Bool} (h0 : d ≠ 0) (h21 : d ≠ 21) (h24 : d < 24)
    (hw : s.warming = false) (hr : s.domRefused d on = true) : s.domWrite d on = s.domRefuse := by
  have hd : ¬ (d = 0 ∨ d = 21 ∨ 24 ≤ d ∨ s.warming = true) := by simp [h0, h21, h24, hw]
  rw [State.domWrite, if_neg hd, if_pos hr, State.domRefuse]

/-- Once counted, a refusal has only the side effects of raising a cause, so its frame is that of `Calm`. -/
theorem Calm.domRefuse (s : State) : Calm (s.cnt pgPWR PWR.PWR_CNT 1) s.domRefuse := .raise _ _ _

theorem State.domRefuse_count (s : State) : s.domRefuse.rd pgPWR PWR.PWR_CNT 1 = (s.rd pgPWR PWR.PWR_CNT 1 + 1) % 2 ^ 64 := by
  have hk : ¬ sideKey (PWR.PWR_CNT.key pgPWR 1) := by decide
  exact ((Calm.domRefuse s).rd hk).trans (State.rd_cnt_same s pgPWR PWR.PWR_CNT 1 hk)

theorem State.domRefuse_cause {s : State} (h : s.live pgPWR = true) : bit (s.domRefuse.rd pgPWR COMMON.INT_CAUSE_CAUSE) 0 = true :=
  State.raise_sets _ ((live_cnt_pwrCnt1 s pgPWR).trans h) (by decide)

theorem State.domRefuse_rd (s : State) {q : Nat} {f : Fld} {i : Nat} (hk : ¬ sideKey (f.key q i)) (hne : PWR.PWR_CNT.key pgPWR 1 ≠ f.key q i) :
    s.domRefuse.rd q f i = s.rd q f i :=
  ((Calm.domRefuse s).rd hk).trans (State.rd_cnt_ne s hk hne)

theorem State.domRefuse_mgmt (s : State) : s.domRefuse.toMgmtState = { s.toMgmtState with shadowDue := s.domRefuse.shadowDue } := by
  simpa only [State.cnt_toMgmtState] using (Calm.domRefuse s).mgmt

theorem State.domRefuse_host (s : State) : s.domRefuse.toHostState = { s.toHostState with fns := s.domRefuse.fns } := by
  simpa only [State.cnt_toHostState] using (Calm.domRefuse s).host

/-- The outcome of R811: the refusal is counted, its cause set, and nothing else of the block changes. -/
def OnlyRefused (s t : State) : Prop :=
  t.rd pgPWR PWR.PWR_CNT 1 = (s.rd pgPWR PWR.PWR_CNT 1 + 1) % 2 ^ 64 ∧
  bit (t.rd pgPWR COMMON.INT_CAUSE_CAUSE) 0 = true ∧
  (∀ (q : Nat) (f : Fld) (i : Nat), 0x100 ≤ f.at_ i → f.at_ i < 0x10000 → f.lo < 32 → q ≠ pgCRWN → q ≠ pgOBS → q ≠ pgLOG →
    q ≠ pgPCE → (q = pgPWR → f.at_ i ≠ 0x228) → t.rd q f i = s.rd q f i) ∧
  t.toMgmtState = { s.toMgmtState with shadowDue := t.shadowDue } ∧
  t.toHostState = { s.toHostState with fns := t.fns } ∧
  t.toBandState = s.toBandState ∧
  t.toLineState = s.toLineState ∧
  t.toPipeState = s.toPipeState ∧
  t.toQdState = s.toQdState ∧
  t.nt = s.nt

theorem State.domRefuse_onlyRefused {s : State} (hl : s.live pgPWR = true) : OnlyRefused s s.domRefuse := by
  have h := Calm.domRefuse s
  refine ⟨s.domRefuse_count, State.domRefuse_cause hl, fun q f i hlo hhi hf hcrwn hobs hlog hpce hcnt => ?_, s.domRefuse_mgmt,
    s.domRefuse_host, h.band.trans (s.cnt_toBandState _ _ _), h.line.trans (s.cnt_toLineState _ _ _),
    h.pipe.trans (s.cnt_toPipeState _ _ _), h.qd.trans (s.cnt_toQdState _ _ _), h.nt.trans (s.cnt_nt _ _ _)⟩
  exact s.domRefuse_rd (not_sideKey_of_block hlo hhi hf hcrwn hobs hlog hpce) (pwrCnt1_key_ne hhi hf hcnt)

theorem exec_domPowerOn (dom : Nat) (s : State) : exec (.domPowerOn dom) s = .next (s.domWrite dom true) := rfl
theorem exec_domPowerOff (dom : Nat) (s : State) : exec (.domPowerOff dom) s = .next (s.domWrite dom false) := rfl

/-- Settles O24: power-on and power-off are writes of DOM_CTL, and a refused one counts, raises PWR cause 0 and ends. -/
theorem refusedDomainWrites : Obligations.RefusedDomainWrites := by
  unfold Obligations.RefusedDomainWrites
  constructor
  · intro s dom h0 h21 h24 hw hl hr
    exact ⟨s.domRefuse, by rw [exec_domPowerOn, State.domWrite_refused h0 h21 h24 hw hr], State.domRefuse_onlyRefused hl⟩
  · intro s dom h0 h21 h24 hw hl hr
    exact ⟨s.domRefuse, by rw [exec_domPowerOff, State.domWrite_refused h0 h21 h24 hw hr], State.domRefuse_onlyRefused hl⟩

end Sys2Proof.Machine

/-! PROOFS. Steps: what every command and every timing clock keeps, from the lemmas of Laws/Keeps*.lean. -/

namespace Sys2Proof.Machine
set_option Elab.async false

/-- The meaning of every command ends in a next state: no arm of `exec` faults or refuses. -/
theorem exec_next (c : Instr) (s : State) : ∃ t, exec c s = .next t := by
  cases c <;> exact ⟨_, rfl⟩

/-- What every command keeps. -/
theorem exec_keeps (c : Instr) (s t : State) (ht : exec c s = .next t) : Keeps s t := by
  have h : Keeps s s := .refl s
  cases c with
  | registerWrite _ _ _ _ _ => exact execRegisterWrite_keeps h _ _ _ _ _ _ ht
  | malformedSpAccess _ _ _ _ => exact execMalformedSpAccess_keeps h _ _ _ _ _ ht
  | unmappedPageAccess _ _ _ _ => exact execUnmappedPageAccess_keeps h _ _ _ _ _ ht
  | registerAccessTimeout _ _ _ _ => exact execRegisterAccessTimeout_keeps h _ _ _ _ _ ht
  | rcFieldRead _ _ _ _ => exact execRcFieldRead_keeps h _ _ _ _ _ ht
  | counterLoRead _ _ _ => exact execCounterLoRead_keeps h _ _ _ _ ht
  | resultAliasRead _ _ _ => exact execResultAliasRead_keeps h _ _ _ _ ht
  | intForceWrite _ _ _ => exact execIntForceWrite_keeps h _ _ _ _ ht
  | intRearm _ _ => exact execIntRearm_keeps h _ _ _ ht
  | cntClearAll _ _ => exact execCntClearAll_keeps h _ _ _ ht
  | softReset _ _ => exact execSoftReset_keeps h _ _ _ ht
  | softResetComplete _ => exact execSoftResetComplete_keeps h _ _ ht
  | localStrobe _ => exact execLocalStrobe_keeps h _ _ ht
  | strobeFire => exact execStrobeFire_keeps h _ ht
  | snapInEdge => exact execSnapInEdge_keeps h _ ht
  | gfreezeWrite _ => exact execGfreezeWrite_keeps h _ _ ht
  | bandFlitSend _ _ => exact execBandFlitSend_keeps h _ _ _ ht
  | bandFlitReceive _ _ => exact execBandFlitReceive_keeps h _ _ _ ht
  | bandCrcMismatch _ => exact execBandCrcMismatch_keeps h _ _ ht
  | bandReplayRequest _ _ => exact execBandReplayRequest_keeps h _ _ _ ht
  | bandRetryLimit _ => exact execBandRetryLimit_keeps h _ _ ht
  | bandRetrain => exact execBandRetrain_keeps h _ ht
  | bandRetrainDone => exact execBandRetrainDone_keeps h _ ht
  | bandRetrainFail => exact execBandRetrainFail_keeps h _ ht
  | macRxFrame _ _ _ _ _ _ => exact execMacRxFrame_keeps h _ _ _ _ _ _ _ ht
  | dealFrame => exact execDealFrame_keeps h _ ht
  | parkResume _ _ _ => exact execParkResume_keeps h _ _ _ _ ht
  | rsuSearchResult _ => exact execRsuSearchResult_keeps h _ _ ht
  | pmmScanDone _ _ => exact execPmmScanDone_keeps h _ _ _ ht
  | ordResult _ _ => exact execOrdResult_keeps h _ _ _ ht
  | ordGapTimeout _ => exact execOrdGapTimeout_keeps h _ _ ht
  | qdAdmitFrame _ _ => exact execQdAdmitFrame_keeps h _ _ _ ht
  | spillWriteComplete _ _ => exact execSpillWriteComplete_keeps h _ _ _ ht
  | brmReadback _ => exact execBrmReadback_keeps h _ _ ht
  | readbackComplete _ _ => exact execReadbackComplete_keeps h _ _ _ ht
  | schedDecision _ _ => exact execSchedDecision_keeps h _ _ _ ht
  | mscTakeFrame _ => exact execMscTakeFrame_keeps h _ _ ht
  | eppDeal _ _ => exact execEppDeal_keeps h _ _ _ ht
  | macTxFrame _ => exact execMacTxFrame_keeps h _ _ ht
  | bufferFree _ _ _ => exact execBufferFree_keeps h _ _ _ _ ht
  | voqDecision => exact execVoqDecision_keeps h _ ht
  | sprayCell => exact execSprayCell_keeps h _ ht
  | felCellArrive _ _ _ => exact execFelCellArrive_keeps h _ _ _ _ ht
  | felSlotSend _ _ => exact execFelSlotSend_keeps h _ _ _ ht
  | linerCell _ _ _ _ => exact execLinerCell_keeps h _ _ _ _ _ ht
  | linerTimeout _ _ => exact execLinerTimeout_keeps h _ _ _ ht
  | linerCtxIdle _ _ => exact execLinerCtxIdle_keeps h _ _ _ ht
  | linkEnable _ => exact execLinkEnable_keeps h _ _ ht
  | linkDisable _ => exact execLinkDisable_keeps h _ _ ht
  | linkAdaptDone _ _ => exact execLinkAdaptDone_keeps h _ _ _ ht
  | linkAdaptTimeout _ => exact execLinkAdaptTimeout_keeps h _ _ ht
  | superframeLock _ => exact execSuperframeLock_keeps h _ _ ht
  | linkLockTimeout _ => exact execLinkLockTimeout_keeps h _ _ ht
  | superframeLockLoss _ => exact execSuperframeLockLoss_keeps h _ _ ht
  | uncorrThreshold _ => exact execUncorrThreshold_keeps h _ _ ht
  | helloReceive _ _ => exact execHelloReceive_keeps h _ _ _ ht
  | helloSend _ => exact execHelloSend_keeps h _ _ ht
  | helloTimeout _ => exact execHelloTimeout_keeps h _ _ ht
  | linkForceDown _ => exact execLinkForceDown_keeps h _ _ ht
  | linkHolddownExpiry _ => exact execLinkHolddownExpiry_keeps h _ _ ht
  | linkDozeRequest _ => exact execLinkDozeRequest_keeps h _ _ ht
  | dozeReqReceive _ _ => exact execDozeReqReceive_keeps h _ _ _ ht
  | dozeAckReceive _ _ => exact execDozeAckReceive_keeps h _ _ _ ht
  | linkWake _ _ => exact execLinkWake_keeps h _ _ _ ht
  | linkWakeDone _ => exact execLinkWakeDone_keeps h _ _ ht
  | linkWakeTimeout _ => exact execLinkWakeTimeout_keeps h _ _ ht
  | reachSend _ => exact execReachSend_keeps h _ _ ht
  | reachReceive _ _ => exact execReachReceive_keeps h _ _ _ ht
  | fcSend => exact execFcSend_keeps h _ ht
  | fcReceive _ _ => exact execFcReceive_keeps h _ _ _ ht
  | unknownControlCell _ _ => exact execUnknownControlCell_keeps h _ _ _ ht
  | fabSnapSend => exact execFabSnapSend_keeps h _ ht
  | strobeCellReceive _ _ => exact execStrobeCellReceive_keeps h _ _ _ ht
  | fabricStrobeTarget => exact execFabricStrobeTarget_keeps h _ ht
  | mcrReplicate _ => exact execMcrReplicate_keeps h _ _ ht
  | residueReady _ _ => exact execResidueReady_keeps h _ _ _ ht
  | residueTimeout _ => exact execResidueTimeout_keeps h _ _ ht
  | residuePressure => exact execResiduePressure_keeps h _ ht
  | replicaCompletion _ _ _ => exact execReplicaCompletion_keeps h _ _ _ _ ht
  | qsuFlush _ _ => exact execQsuFlush_keeps h _ _ _ ht
  | qsuFlushComplete => exact execQsuFlushComplete_keeps h _ ht
  | qsuAbort x => exact execQsuAbort_keeps h x _ ht
  | nodeWrite _ _ => exact execNodeWrite_keeps h _ _ _ ht
  | nodeRead _ _ => exact execNodeRead_keeps h _ _ _ ht
  | shpProfileWrite _ _ _ => exact execShpProfileWrite_keeps h _ _ _ _ ht
  | admProfileWrite _ _ _ => exact execAdmProfileWrite_keeps h _ _ _ _ ht
  | mcrGroupWrite _ => exact execMcrGroupWrite_keeps h _ _ ht
  | mcrListWrite _ => exact execMcrListWrite_keeps h _ _ ht
  | laneCtlWrite _ _ => exact execLaneCtlWrite_keeps h _ _ _ ht
  | laneAdapt _ => exact execLaneAdapt_keeps h _ _ ht
  | txFirWrite _ _ => exact execTxFirWrite_keeps h _ _ _ ht
  | portApply _ _ => exact execPortApply_keeps h _ _ _ ht
  | serWindowEnd _ _ _ _ => exact execSerWindowEnd_keeps h _ _ _ _ _ ht
  | linkTrainingDone _ _ => exact execLinkTrainingDone_keeps h _ _ _ ht
  | cdrLockLoss _ => exact execCdrLockLoss_keeps h _ _ ht
  | pauseWdTrip _ _ => exact execPauseWdTrip_keeps h _ _ _ ht
  | pauseWdRecoverEnd _ _ => exact execPauseWdRecoverEnd_keeps h _ _ _ ht
  | preemptVerify _ _ => exact execPreemptVerify_keeps h _ _ _ ht
  | lpiEnter _ => exact execLpiEnter_keeps h _ _ ht
  | tsPop _ => exact execTsPop_keeps h _ _ ht
  | mscSaWrite _ _ => exact execMscSaWrite_keeps h _ _ _ ht
  | mscSaRead _ _ => exact execMscSaRead_keeps h _ _ _ ht
  | mscSaInvalidate _ _ => exact execMscSaInvalidate_keeps h _ _ _ ht
  | csbFrame _ => exact execCsbFrame_keeps h _ _ ht
  | cageDebounceDone _ => exact execCageDebounceDone_keeps h _ _ ht
  | cagePowerSlot => exact execCagePowerSlot_keeps h _ ht
  | cagePgTimeout _ => exact execCagePgTimeout_keeps h _ _ ht
  | cageResetHoldDone _ => exact execCageResetHoldDone_keeps h _ _ ht
  | cageInitTimeout _ => exact execCageInitTimeout_keeps h _ _ ht
  | cageDatapathActivated _ _ => exact execCageDatapathActivated_keeps h _ _ _ ht
  | cageManualReady _ => exact execCageManualReady_keeps h _ _ ht
  | cageForceLpmode _ _ => exact execCageForceLpmode_keeps h _ _ _ ht
  | cagePowerCycle _ => exact execCagePowerCycle_keeps h _ _ ht
  | cagePowerCycleEnd _ => exact execCagePowerCycleEnd_keeps h _ _ ht
  | cageFaultClr _ => exact execCageFaultClr_keeps h _ _ ht
  | cageRemovalDone _ => exact execCageRemovalDone_keeps h _ _ ht
  | mmRead _ _ _ => exact execMmRead_keeps h _ _ _ _ ht
  | mmWrite _ _ _ => exact execMmWrite_keeps h _ _ _ _ ht
  | mmAbort m tag => exact execMmAbort_keeps h m tag _ ht
  | mmTransactionDone _ _ _ => exact execMmTransactionDone_keeps h _ _ _ _ ht
  | mmStretchTimeout _ => exact execMmStretchTimeout_keeps h _ _ ht
  | mmSdaStuck _ => exact execMmSdaStuck_keeps h _ _ ht
  | lfuClientWrite _ _ _ => exact execLfuClientWrite_keeps h _ _ _ _ ht
  | flexeSwitchTrigger _ => exact execFlexeSwitchTrigger_keeps h _ _ ht
  | flexeOhFrame _ => exact execFlexeOhFrame_keeps h _ _ ht
  | flexeOhReceive _ _ _ _ _ _ _ _ _ => exact execFlexeOhReceive_keeps h _ _ _ _ _ _ _ _ _ _ ht
  | flexeCaReceive _ _ => exact execFlexeCaReceive_keeps h _ _ _ ht
  | flexeCaTimeout _ => exact execFlexeCaTimeout_keeps h _ _ ht
  | flexeCrReceive _ _ => exact execFlexeCrReceive_keeps h _ _ _ ht
  | flexeRxCChange _ _ => exact execFlexeRxCChange_keeps h _ _ _ ht
  | otnEnable _ => exact execOtnEnable_keeps h _ _ ht
  | otnSwitchTrigger _ => exact execOtnSwitchTrigger_keeps h _ _ ht
  | otnTxMapSwitch _ => exact execOtnTxMapSwitch_keeps h _ _ ht
  | otnRxMapSwitch _ => exact execOtnRxMapSwitch_keeps h _ _ ht
  | otnFrame _ _ _ _ => exact execOtnFrame_keeps h _ _ _ _ _ ht
  | otnLofDeclare _ => exact execOtnLofDeclare_keeps h _ _ ht
  | otnLofClear _ => exact execOtnLofClear_keeps h _ _ ht
  | protCommand _ _ => exact execProtCommand_keeps h _ _ _ ht
  | protHoldoffExpiry _ _ => exact execProtHoldoffExpiry_keeps h _ _ _ ht
  | protWtrExpiry _ => exact execProtWtrExpiry_keeps h _ _ ht
  | protFailTimeout _ => exact execProtFailTimeout_keeps h _ _ ht
  | pmSecondLatch _ => exact execPmSecondLatch_keeps h _ _ ht
  | pmLatch _ => exact execPmLatch_keeps h _ _ ht
  | pmLatchFreeRun _ => exact execPmLatchFreeRun_keeps h _ _ ht
  | tplCommit _ _ => exact execTplCommit_keeps h _ _ _ ht
  | tplRead _ _ => exact execTplRead_keeps h _ _ _ ht
  | tplInvalidate _ _ => exact execTplInvalidate_keeps h _ _ _ ht
  | clsInsert _ _ _ => exact execClsInsert_keeps h _ _ _ _ ht
  | clsPause => exact execClsPause_keeps h _ ht
  | clsDelete _ _ => exact execClsDelete_keeps h _ _ _ ht
  | clsRead _ _ => exact execClsRead_keeps h _ _ _ ht
  | clsAbort tag => exact execClsAbort_keeps h tag _ ht
  | patWrite _ _ => exact execPatWrite_keeps h _ _ _ ht
  | patRead _ _ => exact execPatRead_keeps h _ _ _ ht
  | patAbort tag => exact execPatAbort_keeps h tag _ ht
  | epochCommitCmd _ => exact execEpochCommitCmd_keeps h _ _ ht
  | epochDiscard => exact execEpochDiscard_keeps h _ ht
  | epochCommitEffect => exact execEpochCommitEffect_keeps h _ ht
  | epochDrained => exact execEpochDrained_keeps h _ ht
  | epochWriteBack _ => exact execEpochWriteBack_keeps h _ _ ht
  | fenceCmd => exact execFenceCmd_keeps h _ ht
  | fenceComplete => exact execFenceComplete_keeps h _ ht
  | ageSweepStart _ => exact execAgeSweepStart_keeps h _ _ ht
  | ageSweepVisit _ => exact execAgeSweepVisit_keeps h _ _ ht
  | shdCompare _ _ _ => exact execShdCompare_keeps h _ _ _ _ ht
  | shdRecheck _ _ _ => exact execShdRecheck_keeps h _ _ _ _ ht
  | shdMmPop => exact execShdMmPop_keeps h _ ht
  | tdmaDoorbell _ _ _ => exact execTdmaDoorbell_keeps h _ _ _ _ ht
  | tdmaRead _ _ => exact execTdmaRead_keeps h _ _ _ ht
  | tdmaWrite _ _ _ => exact execTdmaWrite_keeps h _ _ _ _ ht
  | tdmaInsert _ _ _ => exact execTdmaInsert_keeps h _ _ _ _ ht
  | tdmaDelete _ _ _ => exact execTdmaDelete_keeps h _ _ _ _ ht
  | tdmaSearch _ _ _ => exact execTdmaSearch_keeps h _ _ _ _ ht
  | tdmaLock _ _ => exact execTdmaLock_keeps h _ _ _ ht
  | tdmaUnlock _ _ => exact execTdmaUnlock_keeps h _ _ _ ht
  | tdmaUnlockDiscard _ _ => exact execTdmaUnlockDiscard_keeps h _ _ _ ht
  | tdmaEpochCommit _ _ => exact execTdmaEpochCommit_keeps h _ _ _ ht
  | tdmaAbort x y => exact execTdmaAbort_keeps h x y _ ht
  | tdmaRingDisable _ _ => exact execTdmaRingDisable_keeps h _ _ _ ht
  | rsWrite _ _ _ => exact execRsWrite_keeps h _ _ _ _ ht
  | rsRead _ _ _ => exact execRsRead_keeps h _ _ _ _ ht
  | rsInvalidate _ _ _ => exact execRsInvalidate_keeps h _ _ _ _ ht
  | moveWindow _ _ _ => exact execMoveWindow_keeps h _ _ _ _ ht
  | rsAbort x y => exact execRsAbort_keeps h x y _ ht
  | hbmReadComplete _ _ => exact execHbmReadComplete_keeps h _ _ _ ht
  | hbmWriteDrain _ => exact execHbmWriteDrain_keeps h _ _ ht
  | hbmParityAlert _ _ => exact execHbmParityAlert_keeps h _ _ _ ht
  | hbmRefresh _ => exact execHbmRefresh_keeps h _ _ ht
  | hbmTempRead _ _ => exact execHbmTempRead_keeps h _ _ _ ht
  | hbmScrub _ _ _ => exact execHbmScrub_keeps h _ _ _ _ ht
  | hbmWindowAccess _ _ => exact execHbmWindowAccess_keeps h _ _ _ ht
  | pcieLinkTrain _ _ _ => exact execPcieLinkTrain_keeps h _ _ _ _ ht
  | pcieRetrain => exact execPcieRetrain_keeps h _ ht
  | pcieConfigRequest _ _ _ _ => exact execPcieConfigRequest_keeps h _ _ _ _ _ ht
  | pcieMemWrite _ _ _ _ _ _ _ _ => exact execPcieMemWrite_keeps h _ _ _ _ _ _ _ _ _ ht
  | pcieMemRead _ _ _ _ _ _ => exact execPcieMemRead_keeps h _ _ _ _ _ _ _ ht
  | pcieCompletion _ _ _ _ _ _ _ => exact execPcieCompletion_keeps h _ _ _ _ _ _ _ _ ht
  | pcieCompletionTimeout _ _ => exact execPcieCompletionTimeout_keeps h _ _ _ ht
  | tagQuarantineExpiry _ _ => exact execTagQuarantineExpiry_keeps h _ _ _ ht
  | bmeClear _ _ => exact execBmeClear_keeps h _ _ _ ht
  | flrStart _ _ => exact execFlrStart_keeps h _ _ _ ht
  | flrDeadline _ _ => exact execFlrDeadline_keeps h _ _ _ ht
  | flrComplete _ => exact execFlrComplete_keeps h _ _ ht
  | pcieHotReset => exact execPcieHotReset_keeps h _ ht
  | perst => exact execPerst_keeps h _ ht
  | vfEnable _ => exact execVfEnable_keeps h _ _ ht
  | vfRemove _ _ => exact execVfRemove_keeps h _ _ _ ht
  | msixUnmask _ _ => exact execMsixUnmask_keeps h _ _ _ ht
  | pcieL1Exit => exact execPcieL1Exit_keeps h _ ht
  | txTailWrite _ _ => exact execTxTailWrite_keeps h _ _ _ ht
  | rxTailWrite _ _ => exact execRxTailWrite_keeps h _ _ _ ht
  | cqHeadWrite _ _ => exact execCqHeadWrite_keeps h _ _ _ ht
  | cqArm _ => exact execCqArm_keeps h _ _ ht
  | txDescriptorFetch _ _ => exact execTxDescriptorFetch_keeps h _ _ _ ht
  | txFrameComplete _ => exact execTxFrameComplete_keeps h _ _ ht
  | rxFramePlace _ _ _ => exact execRxFramePlace_keeps h _ _ _ _ ht
  | cqModerationTimeout _ => exact execCqModerationTimeout_keeps h _ _ ht
  | mbxSend _ => exact execMbxSend_keeps h _ _ ht
  | vfMbxTake _ => exact execVfMbxTake_keeps h _ _ ht
  | vfmMbxAck _ => exact execVfmMbxAck_keeps h _ _ ht
  | vfmMbxReply _ => exact execVfmMbxReply_keeps h _ _ ht
  | assignQp _ => exact execAssignQp_keeps h _ _ ht
  | releaseQp _ => exact execReleaseQp_keeps h _ _ ht
  | vfFreeze _ => exact execVfFreeze_keeps h _ _ ht
  | vfFreezeComplete => exact execVfFreezeComplete_keeps h _ ht
  | vfUnfreeze _ => exact execVfUnfreeze_keeps h _ _ ht
  | vfSave _ => exact execVfSave_keeps h _ _ ht
  | vfRestore _ _ => exact execVfRestore_keeps h _ _ _ ht
  | logStart _ => exact execLogStart_keeps h _ _ ht
  | logSwap _ _ => exact execLogSwap_keeps h _ _ _ ht
  | logStop _ _ => exact execLogStop_keeps h _ _ _ ht
  | vfmAbort => exact execVfmAbort_keeps h _ ht
  | writeCtx _ => exact execWriteCtx_keeps h _ _ ht
  | readCtx _ => exact execReadCtx_keeps h _ _ ht
  | qpEnable _ => exact execQpEnable_keeps h _ _ ht
  | qpDisable _ => exact execQpDisable_keeps h _ _ ht
  | qpDrainComplete _ => exact execQpDrainComplete_keeps h _ _ ht
  | qpAbort => exact execQpAbort_keeps h _ ht
  | ipsEncrypt => exact execIpsEncrypt_keeps h _ ht
  | ipsDecrypt => exact execIpsDecrypt_keeps h _ ht
  | ipsSaWrite _ => exact execIpsSaWrite_keeps h _ _ ht
  | ipsSaRead _ => exact execIpsSaRead_keeps h _ _ ht
  | ipsSaInvalidate _ => exact execIpsSaInvalidate_keeps h _ _ ht
  | ipsSaAbort => exact execIpsSaAbort_keeps h _ ht
  | kwWrap _ _ _ => exact execKwWrap_keeps h _ _ _ _ ht
  | kwUnwrap _ _ _ _ _ => exact execKwUnwrap_keeps h _ _ _ _ _ _ ht
  | kwCheck _ _ _ => exact execKwCheck_keeps h _ _ _ _ ht
  | kwLoadKek _ _ => exact execKwLoadKek_keeps h _ _ _ ht
  | kwAbort => exact execKwAbort_keeps h _ ht
  | nvWrite _ => exact execNvWrite_keeps h _ _ ht
  | nvRead _ => exact execNvRead_keeps h _ _ ht
  | nvResyncRx _ => exact execNvResyncRx_keeps h _ _ ht
  | nvResyncTx _ => exact execNvResyncTx_keeps h _ _ ht
  | bfdTxTimer _ => exact execBfdTxTimer_keeps h _ _ ht
  | bfdRxPacket => exact execBfdRxPacket_keeps h _ ht
  | bfdDetectTimeout _ => exact execBfdDetectTimeout_keeps h _ _ ht
  | sessWrite _ _ _ => exact execSessWrite_keeps h _ _ _ _ ht
  | sessRead _ => exact execSessRead_keeps h _ _ ht
  | sessDelete _ => exact execSessDelete_keeps h _ _ ht
  | tplWriteSvc _ => exact execTplWriteSvc_keeps h _ _ ht
  | tplReadSvc _ => exact execTplReadSvc_keeps h _ _ ht
  | evtPop _ => exact execEvtPop_keeps h _ _ ht
  | ipfixUpdate => exact execIpfixUpdate_keeps h _ ht
  | ipfixSweep => exact execIpfixSweep_keeps h _ ht
  | ipfixTemplateSend => exact execIpfixTemplateSend_keeps h _ ht
  | responderFrame => exact execResponderFrame_keeps h _ ht
  | rspWrite _ => exact execRspWrite_keeps h _ _ ht
  | rspRead _ => exact execRspRead_keeps h _ _ ht
  | rspInvalidate _ => exact execRspInvalidate_keeps h _ _ ht
  | ntSetNow => exact execNtSetNow_keeps h _ ht
  | ntSetAtPps => exact execNtSetAtPps_keeps h _ ht
  | ntSetFromTod => exact execNtSetFromTod_keeps h _ ht
  | ntStep => exact execNtStep_keeps h _ ht
  | ntCancel => exact execNtCancel_keeps h _ ht
  | ntmValidWrite _ => exact execNtmValidWrite_keeps h _ _ ht
  | ntNowRead _ _ => exact execNtNowRead_keeps h _ _ _ ht
  | ppsInEdge => exact execPpsInEdge_keeps h _ ht
  | ppsLoss => exact execPpsLoss_keeps h _ ht
  | ppsLossInvalidate => exact execPpsLossInvalidate_keeps h _ ht
  | ppsOutPulse => exact execPpsOutPulse_keeps h _ ht
  | todTxMessage => exact execTodTxMessage_keeps h _ ht
  | todRxMessage _ => exact execTodRxMessage_keeps h _ _ ht
  | synceSquelch _ => exact execSynceSquelch_keeps h _ _ ht
  | synceResume _ => exact execSynceResume_keeps h _ _ ht
  | taqPost _ => exact execTaqPost_keeps h _ _ ht
  | taqCancel _ _ => exact execTaqCancel_keeps h _ _ _ ht
  | taqRead _ _ => exact execTaqRead_keeps h _ _ _ ht
  | taqFire => exact execTaqFire_keeps h _ ht
  | bonReportNow _ => exact execBonReportNow_keeps h _ _ ht
  | bonSelectWin _ => exact execBonSelectWin_keeps h _ _ ht
  | bonCfgTap _ => exact execBonCfgTap_keeps h _ _ ht
  | bonCfgReport _ => exact execBonCfgReport_keeps h _ _ ht
  | bonSeal _ => exact execBonSeal_keeps h _ _ ht
  | bonIntervalReport => exact execBonIntervalReport_keeps h _ ht
  | bonReportComplete => exact execBonReportComplete_keeps h _ ht
  | bonChangeAttempt => exact execBonChangeAttempt_keeps h _ ht
  | bonPowerUp _ => exact execBonPowerUp_keeps h _ _ ht
  | spGrantRequest _ => exact execSpGrantRequest_keeps h _ _ ht
  | spHeartbeat _ => exact execSpHeartbeat_keeps h _ _ ht
  | spHeartbeatTimeout => exact execSpHeartbeatTimeout_keeps h _ ht
  | spSwitchover _ => exact execSpSwitchover_keeps h _ _ ht
  | spRestartStandby _ => exact execSpRestartStandby_keeps h _ _ ht
  | spRestartRelease _ => exact execSpRestartRelease_keeps h _ _ ht
  | spTakeoverDone _ => exact execSpTakeoverDone_keeps h _ _ ht
  | spTakeoverTimeout => exact execSpTakeoverTimeout_keeps h _ ht
  | spHeldRelease _ => exact execSpHeldRelease_keeps h _ _ ht
  | spSyncComplete _ => exact execSpSyncComplete_keeps h _ _ ht
  | spHealthPost _ => exact execSpHealthPost_keeps h _ _ ht
  | spHealthStale _ => exact execSpHealthStale_keeps h _ _ ht
  | gauntletStep _ _ => exact execGauntletStep_keeps h _ _ _ ht
  | failsafeFan => exact execFailsafeFan_keeps h _ ht
  | bootSlotSelect _ _ _ => exact execBootSlotSelect_keeps h _ _ _ _ ht
  | fwStage _ _ _ => exact execFwStage_keeps h _ _ _ _ ht
  | fwStageConfig _ _ => exact execFwStageConfig_keeps h _ _ _ ht
  | fwVerify _ _ _ => exact execFwVerify_keeps h _ _ _ _ ht
  | fwArm _ _ => exact execFwArm_keeps h _ _ _ ht
  | fwDisarm _ => exact execFwDisarm_keeps h _ _ ht
  | fwActivateNow _ => exact execFwActivateNow_keeps h _ _ ht
  | fwReject _ => exact execFwReject_keeps h _ _ ht
  | fwTrialTimeout => exact execFwTrialTimeout_keeps h _ ht
  | fwConfirm => exact execFwConfirm_keeps h _ ht
  | svnAdvance _ _ => exact execSvnAdvance_keeps h _ _ _ ht
  | flashRead _ _ => exact execFlashRead_keeps h _ _ _ ht
  | fwuAbort x => exact execFwuAbort_keeps h x _ ht
  | secQuote _ => exact execSecQuote_keeps h _ _ ht
  | secChallenge _ => exact execSecChallenge_keeps h _ _ ht
  | secUnlock _ => exact execSecUnlock_keeps h _ _ ht
  | obsFlush => exact execObsFlush_keeps h _ ht
  | obsFlushComplete _ => exact execObsFlushComplete_keeps h _ _ ht
  | bwWindowEnd => exact execBwWindowEnd_keeps h _ ht
  | traceClear _ => exact execTraceClear_keeps h _ _ ht
  | traceDump _ _ => exact execTraceDump_keeps h _ _ _ ht
  | traceAbort x => exact execTraceAbort_keeps h x _ ht
  | logAppend _ => exact execLogAppend_keeps h _ _ ht
  | logDump _ _ => exact execLogDump_keeps h _ _ _ ht
  | logAbort x => exact execLogAbort_keeps h x _ ht
  | legGather _ => exact execLegGather_keeps h _ _ ht
  | legAliasRead _ _ => exact execLegAliasRead_keeps h _ _ _ ht
  | domPowerOn _ => exact execDomPowerOn_keeps h _ _ ht
  | domPowerOff _ => exact execDomPowerOff_keeps h _ _ ht
  | domTransitionComplete _ => exact execDomTransitionComplete_keeps h _ _ ht
  | thermRead _ _ => exact execThermRead_keeps h _ _ _ ht
  | hbmTripEscalate => exact execHbmTripEscalate_keeps h _ ht
  | sysclkLoss => exact execSysclkLoss_keeps h _ ht
  | refOutOfRange _ _ => exact execRefOutOfRange_keeps h _ _ _ ht
  | pllLockLoss _ => exact execPllLockLoss_keeps h _ _ ht
  | pllRelock _ => exact execPllRelock_keeps h _ _ ht
  | powerOnReset _ _ => exact execPowerOnReset_keeps h _ _ _ ht
  | pwrgoodFall => exact execPwrgoodFall_keeps h _ ht
  | startupStep => exact execStartupStep_keeps h _ ht
  | startupFail _ => exact execStartupFail_keeps h _ _ ht
  | endpointRelease => exact execEndpointRelease_keeps h _ ht
  | warmReset _ => exact execWarmReset_keeps h _ _ ht
  | strapChange _ _ => exact execStrapChange_keeps h _ _ _ ht
  | railFault _ => exact execRailFault_keeps h _ _ ht
  | jtagTrst => exact execJtagTrst_keeps h _ ht
  | portLinkStateChange _ _ _ _ _ _ _ => exact execPortLinkStateChange_keeps h _ _ _ _ _ _ _ _ ht
  | laneCdrLock _ _ _ => exact execLaneCdrLock_keeps h _ _ _ _ ht
  | prbsCheckerLock _ _ _ => exact execPrbsCheckerLock_keeps h _ _ _ _ ht
  | pauseTimeExpiry _ _ => exact execPauseTimeExpiry_keeps h _ _ _ ht
  | lpiRxChange _ _ => exact execLpiRxChange_keeps h _ _ _ ht
  | aspmL1Entry => exact execAspmL1Entry_keeps h _ ht
  | bonVddLoss => exact execBonVddLoss_keeps h _ ht
  | sysclkRestore => exact execSysclkRestore_keeps h _ ht
  | perstRelease => exact execPerstRelease_keeps h _ ht
  | todOkTimeout => exact execTodOkTimeout_keeps h _ ht

theorem exec_goes (c : Instr) (s : State) : ∃ t, exec c s = .next t ∧ Keeps s t := by
  obtain ⟨t, ht⟩ := exec_next c s
  exact ⟨t, ht, exec_keeps c s t ht⟩

theorem step_of_pending_nil {s : State} (h : s.pending = []) : step s = .next s.tick := by
  simp only [step, h]

theorem step_of_pending_cons {s : State} {c : Instr} {rest : List Instr} (h : s.pending = c :: rest) :
    step s = exec c { s with pending := rest } := by
  simp only [step, h]

/-- A step is a clock on an empty queue or a command taken from it: either way the three invariants of `Keeps` go from the state
before to the state after. -/
theorem step_keeps_invariants {s t : State} (h : step s = .next t) :
    (s.RegsOrdered → t.RegsOrdered) ∧ (s.MemCanonical → t.MemCanonical) ∧ (s.nt.ok → t.nt.ok) := by
  cases hp : s.pending with
  | nil =>
    obtain ⟨u, hu, htick⟩ := State.tick_parts (.refl s)
    rw [step_of_pending_nil hp, htick, Host.Outcome.next.injEq] at h
    subst h
    exact ⟨hu.regs, hu.hbm, hu.nt⟩
  | cons c rest =>
    rw [step_of_pending_cons hp] at h
    have hk := exec_keeps c _ t h
    exact ⟨hk.regs, hk.hbm, hk.nt⟩

/-- Settles O4: the order of the register keys is part of what every step keeps. -/
theorem stepKeepsRegistersOrdered : Obligations.StepKeepsRegistersOrdered :=
  fun _ _ hs h => (step_keeps_invariants h).1 hs

/-- Settles O5: so is the canonical form of HBM memory. -/
theorem stepKeepsHbmCanonical : Obligations.StepKeepsHbmCanonical :=
  fun _ _ hs h => (step_keeps_invariants h).2.1 hs

/-- Settles O6: and the range of network time. -/
theorem stepKeepsNetworkTime : Obligations.StepKeepsNetworkTime :=
  fun _ _ hs h => (step_keeps_invariants h).2.2 hs

/-- Settles O2: on an empty queue the step is `State.tick`, which keeps the queue and counts itself. -/
theorem idleStepIsOneTick : Obligations.IdleStepIsOneTick := by
  intro s hp
  obtain ⟨u, hu, htick⟩ := State.tick_parts (.refl s)
  refine ⟨s.tick, step_of_pending_nil hp, ?_, ?_⟩
  · rw [htick]; exact hu.pending.trans hp
  · rw [htick]

/-- Settles O3: every arm of `exec` answers a next state, and `Keeps` names what it keeps. -/
theorem everyCommandGoesOn : Obligations.EveryCommandGoesOn := by
  intro c s
  obtain ⟨t, ht, hk⟩ := exec_goes c s
  exact ⟨t, ht, hk.pending, hk.ticks, hk.free⟩

/-- Settles O1: a step on a queue that is not empty takes its front command. -/
theorem stepRunsFrontCommand : Obligations.StepRunsFrontCommand :=
  fun _ _ _ h => step_of_pending_cons h

/-- Settles O7: at reset every table is empty and network time is 0. -/
theorem invAtReset : Obligations.InvAtReset := by
  unfold Obligations.InvAtReset
  decide

end Sys2Proof.Machine

/-! PROOFS. Rules: a register field, the power of a page and a cause bit after the operations every unit uses, in the form the proofs of
the statements rewrite with: side conditions on the field's place only. -/

namespace Sys2Proof.Machine
set_option Elab.async false

/-! ### Lists by their last entry, numbers below a bound -/

/-- Induction over a list that grows at its end, as the folds of the model run. -/
theorem snoc_induction {α : Type u} {P : List α → Prop} (nil : P []) (append_singleton : ∀ l a, P l → P (l ++ [a])) (l : List α) : P l := by
  rw [← List.reverse_reverse l]
  induction l.reverse with
  | nil => exact nil
  | cons a l ih =>
    rw [List.reverse_cons]
    exact append_singleton _ _ ih

/-- A fact about one number below a bound, from the fact about all of them (which `decide` runs through). -/
theorem of_forall_lt {P : Nat → Prop} {n : Nat} (k : Nat) (hk : k < n) (h : ∀ j, j < n → P j) : P k := h k hk

/-! ### Fields that side effects leave alone -/

/-- Element i of field f of page q lies among the block registers (offset 0x100 up) of a page other than CRWN, OBS, LOG and PCE. -/
abbrev Fld.calmAt (f : Fld) (q i : Nat) : Prop :=
  256 ≤ f.off ∧ f.off + f.stride * i < 65536 ∧ f.lo < 32 ∧ q ≠ 0 ∧ q ≠ 6 ∧ q ≠ 7 ∧ q ≠ 240

theorem not_sideKey_of_calmAt {q : Nat} {f : Fld} {i : Nat} (h : f.calmAt q i) : ¬ sideKey (f.key q i) := by
  obtain ⟨hlo, hhi, hbit, hcrwn, hobs, hlog, hpce⟩ := h
  exact not_sideKey_of_block (f := f) (i := i) (by simp only [Fld.at_]; omega) (by simp only [Fld.at_]; omega) hbit hcrwn hobs hlog hpce

section
variable (s : State) {q : Nat} {g : Fld} {j : Nat}

theorem State.raise_rd (p c : Nat) (h : g.calmAt q j) : (s.raise p c).rd q g j = s.rd q g j :=
  s.rd_raise p c (not_sideKey_of_calmAt h)
theorem State.raiseIf_rd (b : Bool) (p c : Nat) (h : g.calmAt q j) : (s.raiseIf b p c).rd q g j = s.rd q g j :=
  (Calm.raiseIf s b p c).rd (not_sideKey_of_calmAt h)
theorem State.msix_rd (fn v : Nat) (h : g.calmAt q j) : (s.msix fn v).rd q g j = s.rd q g j :=
  s.rd_msix fn v (not_sideKey_of_calmAt h)
theorem State.post_rd (fn a : Nat) (d : List Byte) (ro : Bool) (h : g.calmAt q j) : (s.post fn a d ro).rd q g j = s.rd q g j :=
  (Calm.post s fn a d ro).rd (not_sideKey_of_calmAt h)
theorem State.pmc_rd (p e k : Nat) (h : g.calmAt q j) : (s.pmc p e k).rd q g j = s.rd q g j :=
  s.rd_pmc p e k (not_sideKey_of_calmAt h)

theorem State.bump_rd_ne {p : Nat} {f : Fld} {i : Nat} (n k : Nat) (h : g.calmAt q j) (hne : f.key p i ≠ g.key q j) :
    (s.bump p f i n k).rd q g j = s.rd q g j := by
  rw [State.bump, State.pmc_rd _ _ _ _ h, State.rd_wr_ne _ _ hne]
theorem State.cnt_rd_ne {p : Nat} {f : Fld} {n : Nat} (h : g.calmAt q j) (hne : f.key p n ≠ g.key q j) :
    (s.cnt p f n).rd q g j = s.rd q g j := s.bump_rd_ne n 1 h hne
theorem State.bump_rd_same (n k : Nat) (h : g.calmAt q j) : (s.bump q g j n k).rd q g j = (s.rd q g j + k) % 2 ^ g.w := by
  rw [State.bump, State.pmc_rd _ _ _ _ h, State.rd_wr_same]
end

/-! ### A state with parts replaced -/

section
variable (s : State) (b : BandState) (l : LineState) (u : PipeState) (q : QdState) (h : HostState) (m : MgmtState)

@[simp] theorem State.rd_parts (p : Nat) (f : Fld) (i : Nat) : (State.mk s.toCoreState b l u q h m).rd p f i = s.rd p f i := rfl
@[simp] theorem State.on_parts (p : Nat) (f : Fld) (i : Nat) : (State.mk s.toCoreState b l u q h m).on p f i = s.on p f i := rfl
@[simp] theorem State.live_parts (p : Nat) : (State.mk s.toCoreState b l u q h m).live p = s.live p := rfl
end

/-! ### Power -/

theorem State.live_of_regs {s t : State} (h : t.regs = s.regs) (p : Nat) : t.live p = s.live p := by
  unfold State.live State.domOn State.on State.rd
  rw [h]

theorem State.live_bump (s : State) (q : Nat) (f : Fld) (i n k p : Nat) (h : f.off + f.stride * i < 65536) (hl : f.lo < 32)
    (hq : q ≠ pgPWR) : (s.bump q f i n k).live p = s.live p :=
  (live_calm (Calm.pmc _ _ _ _) p).trans (live_wr_page s q f _ i p h hl hq)

theorem State.wr_live (s : State) {q : Nat} {f : Fld} {i : Nat} (v p : Nat) (h : f.off + f.stride * i < 65536 ∧ f.lo < 32 ∧ q ≠ 1) :
    (s.wr q f v i).live p = s.live p :=
  live_wr_page s q f v i p h.1 h.2.1 h.2.2
theorem State.ite_live (c : Prop) [Decidable c] (a b : State) (p : Nat) : (if c then a else b).live p = if c then a.live p else b.live p :=
  apply_ite (fun t : State => t.live p) c a b

theorem State.gate_of_live {s : State} {p : Nat} (h : s.live p = true) (f : State → State) : s.gate p f = f s := by
  rw [State.gate, if_pos h]

theorem State.lineGate_of_live {s : State} {p : Nat} (hf : s.fabric = false) (h : s.live p = true) (f : State → State) :
    s.lineGate p f = f s := by
  simp only [State.lineGate, hf, State.gate_of_live h, Bool.false_eq_true, if_false]

/-! ### Operations that write registers only -/

/-- From s to t nothing but the register table changes. -/
def OnlyRegs (s t : State) : Prop := ∃ r, t = { s with regs := r }

theorem OnlyRegs.refl (s : State) : OnlyRegs s s := ⟨s.regs, rfl⟩
theorem OnlyRegs.trans {s t u : State} (h : OnlyRegs s t) (g : OnlyRegs t u) : OnlyRegs s u := by
  obtain ⟨r, rfl⟩ := h
  obtain ⟨q, rfl⟩ := g
  exact ⟨q, rfl⟩
theorem OnlyRegs.wr {s t : State} (h : OnlyRegs s t) (p : Nat) (f : Fld) (v i : Nat) : OnlyRegs s (t.wr p f v i) := h.trans ⟨_, rfl⟩
theorem OnlyRegs.put {s t : State} (h : OnlyRegs s t) (p : Nat) (f : Fld) (b : Bool) (i : Nat) : OnlyRegs s (t.put p f b i) := h.wr p f _ i
theorem OnlyRegs.bump {s t : State} (h : OnlyRegs s t) (p : Nat) (f : Fld) (i n k : Nat) : OnlyRegs s (t.bump p f i n k) :=
  h.trans (t.bump_regs p f i n k)
theorem OnlyRegs.pmc {s t : State} (h : OnlyRegs s t) (p e k : Nat) : OnlyRegs s (t.pmc p e k) := h.trans (t.pmc_regs p e k)
theorem OnlyRegs.wrAll {s t : State} (h : OnlyRegs s t) (p i : Nat) (l : List (Fld × Nat)) : OnlyRegs s (t.wrAll p i l) := by
  induction l generalizing t with
  | nil => exact h
  | cons e l ih => exact ih (h.wr p e.1 e.2 i)
theorem OnlyRegs.wrWord {s t : State} (h : OnlyRegs s t) (p i w : Nat) (l : List Fld) : OnlyRegs s (t.wrWord p i w l) := by
  induction l generalizing t with
  | nil => exact h
  | cons f l ih => exact ih (h.wr p f _ i)
theorem OnlyRegs.foldl {α : Type} {f : State → α → State} (hf : ∀ u x, OnlyRegs u (f u x)) (l : List α) (s : State) :
    OnlyRegs s (l.foldl f s) := by
  induction l generalizing s with
  | nil => exact .refl s
  | cons a l ih => exact (hf s a).trans (ih _)
/-- Every part of the state stays. -/
theorem OnlyRegs.frame {s t : State} (h : OnlyRegs s t) :
    t.toBandState = s.toBandState ∧ t.toLineState = s.toLineState ∧ t.toPipeState = s.toPipeState ∧ t.toQdState = s.toQdState ∧
      t.toHostState = s.toHostState ∧ t.toMgmtState = s.toMgmtState ∧ t.nt = s.nt := by
  obtain ⟨r, rfl⟩ := h
  exact ⟨rfl, rfl, rfl, rfl, rfl, rfl, rfl⟩
/-- What reads no register reads the same afterwards. -/
theorem OnlyRegs.part {α : Type} {s t : State} (h : OnlyRegs s t) (π : State → α) (hπ : ∀ r, π { s with regs := r } = π s) : π t = π s := by
  obtain ⟨r, rfl⟩ := h
  exact hπ r

theorem OnlyRegs.inc {s t : State} (h : OnlyRegs s t) (p : Nat) (f : Fld) (k i : Nat) : OnlyRegs s (t.inc p f k i) := h.wr p f _ i
theorem OnlyRegs.resWords {s t : State} (h : OnlyRegs s t) (p : Nat) (r : ResSet) (i : Nat) (ws : List Nat) (k : Nat) :
    OnlyRegs s (t.resWords p r i ws k) := by
  induction ws generalizing t k with
  | nil => exact h
  | cons w ws ih =>
    simp only [State.resWords]
    split
    · exact ih (h.wr ..) _
    · exact h
theorem OnlyRegs.result {s t : State} (h : OnlyRegs s t) (p : Nat) (r : ResSet) (tag st : Nat) (ws : List Nat) (i : Nat) (late : Bool) :
    OnlyRegs s (t.result p r tag st ws i late) := ((((h.resWords ..).wr ..).wr ..).wr ..).wr ..
theorem OnlyRegs.resLate {s t : State} (h : OnlyRegs s t) (p : Nat) (r : ResSet) (i : Nat) : OnlyRegs s (t.resLate p r i) := by
  rw [State.resLate]
  split
  · exact h.wr ..
  · exact h

/-! ### Many elements written in turn -/

section
variable {β : Type} (l : List β) (p : β → Nat) (f : Fld) (v i : β → Nat)

theorem State.rd_foldl_wr_ne (s : State) {q : Nat} {g : Fld} {j : Nat} (h : ∀ x ∈ l, f.key (p x) (i x) ≠ g.key q j) :
    (l.foldl (fun (t : State) x => t.wr (p x) f (v x) (i x)) s).rd q g j = s.rd q g j := by
  induction l generalizing s with
  | nil => rfl
  | cons a l ih => rw [List.foldl_cons, ih _ fun x hx => h x (by simp [hx]), State.rd_wr_ne _ _ (h a (by simp))]

/-- An element written holds its value, where no other element has its place. -/
theorem State.rd_foldl_wr_mem (s : State) {x : β} (hx : x ∈ l) (h : ∀ y ∈ l, f.key (p y) (i y) = f.key (p x) (i x) → y = x) :
    (l.foldl (fun (t : State) x => t.wr (p x) f (v x) (i x)) s).rd (p x) f (i x) = v x % 2 ^ f.w := by
  induction l using snoc_induction with
  | nil => simp at hx
  | append_singleton l a ih =>
    rw [List.foldl_append, List.foldl_cons, List.foldl_nil]
    by_cases hk : f.key (p a) (i a) = f.key (p x) (i x)
    · rw [h a (by simp) hk, State.rd_wr_same]
    · rw [State.rd_wr_ne _ _ hk]
      refine ih ?_ fun y hy => h y (by simp [hy])
      rcases List.mem_append.1 hx with hx | hx
      · exact hx
      · exact absurd (List.mem_singleton.1 hx ▸ rfl) hk
end

/-! ### Flags -/

/-- A truth value fits every field. -/
theorem b2n_mod (b : Bool) (f : Fld) (h : 0 < f.w) : b2n b % 2 ^ f.w = b2n b := by
  have : 2 ≤ 2 ^ f.w := Nat.le_self_pow (Nat.ne_of_gt h) 2
  cases b
  · exact Nat.zero_mod _
  · exact Nat.mod_eq_of_lt this

/-- A bit field of a number fits its own width. -/
theorem bits_mod (v lo w : Nat) : bits v lo w % 2 ^ w = bits v lo w := Nat.mod_mod _ _

/-! ### A choice between two states -/

section
variable (c : Prop) [Decidable c] (a b : State)

theorem State.ite_rd (p : Nat) (f : Fld) (i : Nat) : (if c then a else b).rd p f i = if c then a.rd p f i else b.rd p f i :=
  apply_ite (fun t : State => t.rd p f i) c a b
theorem State.ite_mac (g : Nat) : (if c then a else b).mac g = if c then a.mac g else b.mac g := apply_ite (fun t : State => t.mac g) c a b
theorem State.ite_toBandState : (if c then a else b).toBandState = if c then a.toBandState else b.toBandState := apply_ite _ c a b
theorem State.ite_toLineState : (if c then a else b).toLineState = if c then a.toLineState else b.toLineState := apply_ite _ c a b
theorem State.ite_toPipeState : (if c then a else b).toPipeState = if c then a.toPipeState else b.toPipeState := apply_ite _ c a b
theorem State.ite_toQdState : (if c then a else b).toQdState = if c then a.toQdState else b.toQdState := apply_ite _ c a b
theorem State.ite_toHostState : (if c then a else b).toHostState = if c then a.toHostState else b.toHostState := apply_ite _ c a b
theorem State.ite_toMgmtState : (if c then a else b).toMgmtState = if c then a.toMgmtState else b.toMgmtState := apply_ite _ c a b
theorem State.ite_nt : (if c then a else b).nt = if c then a.nt else b.nt := apply_ite (fun t : State => t.nt) c a b
end

/-! ### A register command by PF1 that reaches its page -/

theorem State.regCmd_of_reaches {s : State} {p at_ : Nat} (h : s.Reaches p at_) (off v : Nat) (act : State → State) :
    s.regCmd p off v act = act s := by
  obtain ⟨k, i, hpage⟩ := reach_some h
  obtain ⟨hlive, hband, -⟩ := h
  by_cases hq : qdPage p = true
  · simp [State.regCmd, State.routeWrite, hpage, hq, hband hq, State.gate_of_live hlive]
  · simp [State.regCmd, State.routeWrite, hpage, hq, State.gate_of_live hlive]

/-! ### Near: the parts of the state that side effects leave alone -/

/-- The parts of the state that counting, causes and traces leave alone. -/
def coreParts (s : State) : BandState × LineState × PipeState × QdState × NetTime :=
  (s.toBandState, s.toLineState, s.toPipeState, s.toQdState, s.nt)

theorem coreParts_calm {s t : State} (h : Calm s t) : coreParts t = coreParts s := by
  simp only [coreParts, h.band, h.line, h.pipe, h.qd, h.nt]

theorem coreParts_eq {s t : State} (h : coreParts t = coreParts s) : t.toBandState = s.toBandState ∧ t.toLineState = s.toLineState ∧
    t.toPipeState = s.toPipeState ∧ t.toQdState = s.toQdState ∧ t.nt = s.nt := by
  simpa only [coreParts, Prod.mk.injEq] using h

section
variable {K : Nat → Prop} {s t : State}

theorem Near.wr_core (h : Near K coreParts s t) {p : Nat} {f : Fld} {i : Nat} (v : Nat) (hk : K (f.key p i)) (hc : f.key p i % 2097152 ≠ 1024) :
    Near K coreParts s (t.wr p f v i) := h.trans (.wr v hk hc rfl)
theorem Near.bump_core (h : Near K coreParts s t) {p : Nat} {f : Fld} {i : Nat} (n k : Nat) (hk : K (f.key p i))
    (hc : f.key p i % 2097152 ≠ 1024) : Near K coreParts s (t.bump p f i n k) :=
  (h.wr_core _ hk hc).trans (.calm (Calm.pmc _ _ _ _) (coreParts_calm (Calm.pmc _ _ _ _)))
theorem Near.raise_core (h : Near K coreParts s t) (p c : Nat) : Near K coreParts s (t.raise p c) :=
  h.trans (.calm (Calm.raise _ _ _) (coreParts_calm (Calm.raise _ _ _)))
theorem Near.raiseIf_core (h : Near K coreParts s t) (b : Bool) (p c : Nat) : Near K coreParts s (t.raiseIf b p c) :=
  h.trans (.calm (Calm.raiseIf _ _ _ _) (coreParts_calm (Calm.raiseIf _ _ _ _)))
end

end Sys2Proof.Machine

/-! PROOFS. Rules, second part: the words of a result set, causes that stay set, running maxima, and fields of closed places. -/

namespace Sys2Proof.Machine
set_option Elab.async false

/-! ### Result sets -/

section
variable (s : State) (p : Nat) (r : ResSet) (i : Nat)

theorem State.rd_resWords_lt (ws : List Nat) {k j : Nat} (h : j < k) :
    (s.resWords p r i ws k).rd p (r.word j) i = s.rd p (r.word j) i := by
  induction ws generalizing s k with
  | nil => rfl
  | cons w ws ih =>
    simp only [State.resWords]
    split
    · rw [ih _ (by omega), State.rd_wr_ne _ _ (by simp only [ResSet.word, Fld.key]; omega)]
    · rfl

/-- Data word j of a set written from word k on. -/
theorem State.rd_resWords (ws : List Nat) {k j : Nat} (hk : k ≤ j) (hj : j ≤ 15) (hlen : j < k + ws.length) :
    (s.resWords p r i ws k).rd p (r.word j) i = ws.getD (j - k) 0 % 2 ^ 32 := by
  induction ws generalizing s k with
  | nil => simp at hlen; omega
  | cons w ws ih =>
    simp only [State.resWords, if_pos (Nat.le_trans hk hj)]
    rcases Nat.eq_or_lt_of_le hk with rfl | hlt
    · rw [State.rd_resWords_lt _ _ _ _ _ (Nat.lt_succ_self k), State.rd_wr_same]
      simp [ResSet.word]
    · rw [ih _ hlt (by simp only [List.length_cons] at hlen; omega)]
      obtain ⟨d, rfl⟩ : ∃ d, j = k + 1 + d := ⟨j - (k + 1), by omega⟩
      rw [show k + 1 + d - k = d + 1 by omega, show k + 1 + d - (k + 1) = d by omega, List.getD_cons_succ]

/-- The data words of a result are the given ones, and 0 behind them (R61). -/
theorem State.rd_result_word (tag st : Nat) (ws : List Nat) (late : Bool) {k : Nat} (h : 1 ≤ k ∧ k ≤ 15) :
    (s.result p r tag st ws i late).rd p (r.word k) i = ws.getD (k - 1) 0 % 2 ^ 32 := by
  have hlen : (ws ++ List.replicate (15 - ws.length) 0).getD (k - 1) 0 = ws.getD (k - 1) 0 := by
    simp only [List.getD_eq_getElem?_getD, List.getElem?_append]
    split
    · rfl
    · rename_i hge
      rw [List.getElem?_eq_none (Nat.not_lt.1 hge), List.getElem?_replicate]
      split <;> rfl
  simp only [State.result]
  rw [State.rd_wr_ne, State.rd_wr_ne, State.rd_wr_ne, State.rd_wr_ne, State.rd_resWords _ _ _ _ _ h.1 h.2, hlen]
  · simp only [List.length_append, List.length_replicate]; omega
  all_goals (simp only [ResSet.word, ResSet.status, ResSet.tag, ResSet.late, ResSet.valid, Fld.key]; omega)

theorem State.rd_result_late (tag st : Nat) (ws : List Nat) (late : Bool) :
    (s.result p r tag st ws i late).rd p r.late i = b2n late := by
  simp only [State.result]
  rw [State.rd_wr_ne _ _ (by simp only [ResSet.late, ResSet.valid, Fld.key]; omega), State.rd_wr_same]
  exact b2n_mod _ _ Nat.one_pos

theorem State.result_live (tag st : Nat) (ws : List Nat) (late : Bool) (q : Nat) (h : p ≠ pgPWR ∧ r.off + r.stride * i + 64 ≤ 65536) :
    (s.result p r tag st ws i late).live q = s.live q := by
  have := dom_lt q
  simp only [State.live, State.domOn, State.on]
  rw [State.rd_result_ne]
  simp only [Fld.key, PWR.DOM_STS_POWERED, pgPWR] at h ⊢
  omega
end

/-! ### Running maxima -/

theorem State.peak_rd_ne (s : State) {p q : Nat} {f g : Fld} {i j : Nat} (v : Nat) (h : f.key p i ≠ g.key q j) :
    (s.peak p f v i).rd q g j = s.rd q g j := by
  rw [State.peak]
  split
  · exact State.rd_wr_ne _ _ h
  · rfl
theorem OnlyRegs.peak {s t : State} (h : OnlyRegs s t) (p : Nat) (f : Fld) (v i : Nat) : OnlyRegs s (t.peak p f v i) := by
  rw [State.peak]
  split
  · exact h.wr ..
  · exact h
theorem OnlyRegs.incSat {s t : State} (h : OnlyRegs s t) (p : Nat) (f : Fld) (i : Nat) : OnlyRegs s (t.incSat p f i) := h.wr ..

/-! ### Causes that stay set -/

section
variable {s : State} {q c : Nat}

theorem State.cause_of_pmc (p e k : Nat) (h : bit (s.rd q COMMON.INT_CAUSE_CAUSE) c = true) (hc : c < 16) :
    bit ((s.pmc p e k).rd q COMMON.INT_CAUSE_CAUSE) c = true := (Calm.pmc _ _ _ _).causes _ _ hc h

theorem State.cause_of_raise (p d : Nat) (hc : c < 16) (h : bit (s.rd q COMMON.INT_CAUSE_CAUSE) c = true) :
    bit ((s.raise p d).rd q COMMON.INT_CAUSE_CAUSE) c = true := (Calm.raise s p d).causes _ _ hc h

/-- A field written among the block registers leaves the causes. -/
theorem State.cause_wr {p : Nat} {f : Fld} {i : Nat} (v : Nat) (h : 256 ≤ f.off ∧ f.off + f.stride * i < 65536 ∧ f.lo < 32) :
    (s.wr p f v i).rd q COMMON.INT_CAUSE_CAUSE = s.rd q COMMON.INT_CAUSE_CAUSE :=
  State.rd_wr_ne _ _ (by simp only [Fld.key, COMMON.INT_CAUSE_CAUSE]; omega)

theorem State.cause_of_cnt {p : Nat} {f : Fld} {n : Nat} (h : bit (s.rd q COMMON.INT_CAUSE_CAUSE) c = true) (hc : c < 16)
    (hf : 256 ≤ f.off ∧ f.off + f.stride * n < 65536 ∧ f.lo < 32) : bit ((s.cnt p f n).rd q COMMON.INT_CAUSE_CAUSE) c = true :=
  State.cause_of_pmc _ _ _ (by rwa [State.cause_wr _ hf]) hc

theorem State.cause_result (s : State) (p : Nat) (r : ResSet) (tag st : Nat) (ws : List Nat) (i : Nat) (late : Bool) (q : Nat)
    (h : 256 ≤ r.off ∧ r.off + r.stride * i + 64 ≤ 65536) :
    (s.result p r tag st ws i late).rd q COMMON.INT_CAUSE_CAUSE = s.rd q COMMON.INT_CAUSE_CAUSE :=
  State.rd_result_ne _ _ _ _ _ (by simp only [Fld.key, COMMON.INT_CAUSE_CAUSE]; omega)
end

end Sys2Proof.Machine

/-! PROOFS. What a step has put out stays put out: an output event is only ever added in front of the others. -/

namespace Sys2Proof.Machine
set_option Elab.async false

/-- From s to t the output only grows. -/
def OutGrows (s t : State) : Prop := s.out <:+ t.out

namespace OutGrows
variable {s t u : State}

theorem refl (s : State) : OutGrows s s := List.suffix_refl _
theorem of_eq (h : t.out = s.out) : OutGrows s t := by
  simp only [OutGrows, h, List.suffix_refl]
theorem trans (h : OutGrows s t) (g : OutGrows t u) : OutGrows s u := List.IsSuffix.trans h g
theorem mem (h : OutGrows s t) {o : Out} (ho : o ∈ s.out) : o ∈ t.out := List.IsSuffix.mem ho h
theorem emit (h : OutGrows s t) (o : Out) : OutGrows s (t.emit o) := h.trans (List.suffix_cons ..)
theorem only (h : OnlyRegs s t) : OutGrows s t := by
  obtain ⟨r, rfl⟩ := h
  exact refl s
theorem ite {c : Prop} [Decidable c] (ht : OutGrows s t) (hu : OutGrows s u) : OutGrows s (if c then t else u) := by
  split
  · exact ht
  · exact hu
theorem foldl {α : Type} {f : State → α → State} (hf : ∀ u x, OutGrows u (f u x)) (l : List α) (s : State) : OutGrows s (l.foldl f s) := by
  induction l generalizing s with
  | nil => exact refl s
  | cons a l ih => exact (hf s a).trans (ih _)

theorem cnt (s : State) (p : Nat) (f : Fld) (n : Nat) : OutGrows s (s.cnt p f n) := of_eq (State.cnt_out ..)
theorem pmc (s : State) (p e k : Nat) : OutGrows s (s.pmc p e k) := only (s.pmc_regs p e k)

/-! ### Interrupts -/

theorem msix (s : State) (fn v : Nat) : OutGrows s (s.msix fn v) := by
  rw [State.msix]
  exact ite ((cnt ..).emit _) (of_eq rfl)
theorem spSignal (s : State) : OutGrows s s.spSignal := by
  rw [State.spSignal]
  split
  · exact (refl s).emit _
  · exact refl s
theorem hostEdges (s0 s : State) (p : Nat) : OutGrows s (State.hostEdges s0 s p) := by
  have hvec : OutGrows s (if ¬ s0.summary p ∧ s.summary p ∧ s.hostRoute p then s.msix 1 (s.vecOf p) else s) := ite (msix ..) (refl s)
  rw [State.hostEdges]
  exact ite (ite (hvec.trans (msix ..)) hvec) (refl s)
theorem edges (s0 s : State) (p : Nat) : OutGrows s (State.edges s0 s p) := by
  rw [State.edges]
  exact ite ((hostEdges ..).trans (spSignal _)) (hostEdges ..)
theorem firstErr (s : State) (p c : Nat) : OutGrows s (s.firstErr p c) := by
  rw [State.firstErr]
  exact ite (of_eq rfl) (refl s)
theorem cause (s : State) (p c : Nat) : OutGrows s (s.cause p c) := by
  have hset : OutGrows s ((s.wr p COMMON.INT_CAUSE_CAUSE (setBit (s.rd p COMMON.INT_CAUSE_CAUSE) c)).pmc p (0x100 + c) 1) :=
    (of_eq rfl : OutGrows s (s.wr p COMMON.INT_CAUSE_CAUSE (setBit (s.rd p COMMON.INT_CAUSE_CAUSE) c))).trans (pmc ..)
  exact (hset.trans (firstErr ..)).trans (edges ..)

/-! ### The log, the strobe and a cause -/

theorem logAppend (s : State) (page inst src event sev a0 a1 : Nat) : OutGrows s (s.logAppend page inst src event sev a0 a1) := by
  rw [State.logAppend]
  extract_lets seq e n s1 s2 s3
  have hput : OutGrows s s3 := ((of_eq rfl : OutGrows s ((s1.wr pgLOG LOG.HEAD_SEQ_SEQ (seq + 1)).wr pgLOG LOG.LOG_STS_COUNT (satAdd n 1 8192))).trans
    (cnt ..)).trans (cnt ..)
  exact ite (ite (hput.trans (cause ..)) hput) ((of_eq rfl : OutGrows s (s.inc pgLOG LOG.LOST_COUNT)).trans (cause ..))
theorem latchIf (s : State) (p seq : Nat) (t : NetTime) : OutGrows s (s.latchIf p seq t) := by
  rw [State.latchIf]
  exact ite (refl s) (ite (pmc ..) (of_eq rfl))
theorem fireStrobe (s : State) : OutGrows s s.fireStrobe := by
  unfold State.fireStrobe
  extract_lets seq src s1 s2
  have hcount : OutGrows s s1 := of_eq (State.cnt_out ..)
  have hout : OutGrows s s2 := ite (hcount.emit _) hcount
  clear_value s2
  generalize pages = l
  exact hout.trans (foldl (fun u p => latchIf u p seq s.nt) _ _)
theorem logHw (s : State) (p c : Nat) (b : Bool) : OutGrows s (s.logHw p c b) := by
  rw [State.logHw]
  extract_lets sev
  refine ite (refl s) ?_
  split
  · exact refl s
  · refine ite (of_eq rfl) (OutGrows.trans ?_ (logAppend ..))
    exact of_eq rfl
theorem raise1 (s : State) (p c : Nat) : OutGrows s (s.raise1 p c) := by
  rw [State.raise1]
  extract_lets s1
  exact ite (ite (cause ..) ((cause ..).trans (logHw ..))) (refl s)
theorem strobe (s : State) : OutGrows s s.strobe := by
  rw [State.strobe]
  split
  · exact ite ((cnt ..).trans (raise1 ..)) (fireStrobe s)
  · exact fireStrobe s
theorem raise (s : State) (p c : Nat) : OutGrows s (s.raise p c) := by
  rw [State.raise]
  extract_lets s1 s2
  have hfreeze : OutGrows s s2 := (raise1 s p c).trans (ite (of_eq rfl) (refl _))
  exact ite (ite (hfreeze.trans (strobe _)) hfreeze) (raise1 ..)
end OutGrows

end Sys2Proof.Machine

/-! PROOFS. The MACs: preemption, low power idle, the timestamp FIFO and the SA commands of MACsec. -/

namespace Sys2Proof.Machine
set_option Elab.async false
theorem State.tsView_onlyRegs (s : State) (i : Nat) : OnlyRegs s (s.tsView i) := by
  unfold State.tsView
  dsimp only
  split
  · exact ((OnlyRegs.refl s).wr _ _ _ _).wr _ _ _ _
  · exact ((OnlyRegs.refl s).wr _ _ _ _).wrAll _ _ _

/-- Settles O10, clause by clause: each command runs its operation, and `simp` reads the fields it wrote. -/
theorem lineMac : Obligations.LineMac := by
  unfold Obligations.LineMac
  refine ⟨?_, ?_, ?_, ?_, ?_, ?_, ?_, ?_⟩
  · intro s slot ok hslot hlive hen hdis
    refine ⟨_, congrArg Host.Outcome.next (if_pos ⟨hslot, hlive, hen⟩), ?_⟩
    cases ok <;>
      simp (disch := (simp +ground only [Fld.calmAt, Fld.key, msc, pgMSC, true_and, and_true]; try omega)) [hdis, State.raise_rd,
        State.rd_wr_ne, State.macCnt, State.bump_rd_ne] <;> decide
  · intro s slot hslot hlive hen hidle htx hdue
    refine ⟨_, congrArg Host.Outcome.next (if_pos ⟨hslot, hlive, hen, hidle, by simp [htx], hdue⟩), ?_⟩
    simp (disch := (simp +ground only [Fld.calmAt, Fld.key, msc, pgMSC, true_and, and_true]; try omega)) [State.macCnt, State.bump_rd_ne]
  · intro s slot on hslot hlive
    refine ⟨_, congrArg Host.Outcome.next (if_pos ⟨hslot, hlive⟩), ?_⟩
    dsimp only
    split <;>
      simp (disch := (simp +ground only [Fld.calmAt, Fld.key, msc, pgMSC, true_and, and_true]; try omega)) [State.macCnt,
        State.bump_rd_ne, State.put, b2n_mod]
  · intro s i hi hlive
    refine ⟨_, congrArg Host.Outcome.next ((if_pos hi).trans (State.gate_of_live hlive _)), ?_⟩
    obtain ⟨r, hr⟩ := State.tsView_onlyRegs { s with tsFifo := tset s.tsFifo i ((tgetD s.tsFifo i []).drop 1) } i
    rw [show s.tsPop i = _ from hr]
    exact ⟨tgetD_tset_same _ _ _ _, rfl, rfl, rfl, rfl, rfl⟩
  · intro s i tag hi hlive hcur
    refine ⟨_, congrArg Host.Outcome.next ((if_pos hi).trans (State.gate_of_live hlive _)), ?_⟩
    simp [State.saWrite, hcur, DONE]
  · intro s i tag hi hlive hcur
    refine ⟨_, congrArg Host.Outcome.next ((if_pos hi).trans (State.gate_of_live hlive _)), ?_⟩
    simp [State.saWrite, hcur, ERROR]
  · intro s i tag hi hlive
    refine ⟨_, congrArg Host.Outcome.next ((if_pos hi).trans (State.gate_of_live hlive _)), ?_⟩
    simp [State.saRead, DONE]
  · intro s i tag hi hlive
    refine ⟨_, congrArg Host.Outcome.next ((if_pos hi).trans (State.gate_of_live hlive _)), ?_⟩
    simp [State.saInvalidate, DONE]
end Sys2Proof.Machine

/-! PROOFS. SerDes lanes and line ports: LOS of the framers follows a lane without touching the SerDes pages; lane and port registers. -/

namespace Sys2Proof.Machine
set_option Elab.async false

/-- The keys of the MSC pages and all above them: every register that the framers' operations write lies there. -/
def fromMsc (k : Nat) : Prop := 32 * 2097152 ≤ k

/-- What the framers' operations never touch. -/
def offLine (s : State) : BandState × PipeState × QdState × NetTime := (s.toBandState, s.toPipeState, s.toQdState, s.nt)

theorem offLine_parts {s t : State} (h : offLine t = offLine s) :
    t.toBandState = s.toBandState ∧ t.toPipeState = s.toPipeState ∧ t.toQdState = s.toQdState ∧ t.nt = s.nt := by
  simpa only [offLine, Prod.mk.injEq] using h

theorem fromMsc_wr {s : State} {p : Nat} {f : Fld} {i : Nat} (v : Nat) (hp : 32 ≤ p)
    (h : 256 ≤ f.off ∧ f.off + f.stride * i < 65536 ∧ f.lo < 32) : Near fromMsc offLine s (s.wr p f v i) := by
  refine .wr v ?_ ?_ rfl <;> simp only [fromMsc, Fld.key] <;> omega

theorem fromMsc_calm {s t : State} (h : Calm s t) : Near fromMsc offLine s t :=
  .calm h (by simp only [offLine, h.band, h.pipe, h.qd, h.nt])

theorem fromMsc_setLfu (s : State) (i : Nat) (x : Lfu) : Near fromMsc offLine s (s.setLfu i x) := ⟨fun _ _ _ => rfl, fun _ _ _ h => h, rfl⟩

theorem fromMsc_macLink (s : State) (g : Nat) (b : Bool) : Near fromMsc offLine s (s.macLink g b) := by
  refine .gate (fromMsc_wr _ ?_ ?_)
  · simp only [msc, pgMSC]; omega
  · simp only [MSC.MAC_STS_LINK]; omega

theorem fromMsc_clientView (s : State) (i : Nat) {e : Nat} (he : e < 64) : Near fromMsc offLine s (s.clientView i e) := by
  have hw : ∀ (u : State) (f : Fld) (v : Nat), f.off = 0xB008 → f.stride = 16 → f.lo < 32 → Near fromMsc offLine u (u.wr (pgLFU i) f v e) :=
    fun u f v ho hs hl => fromMsc_wr v (by simp only [pgLFU]; omega) (by simp only [ho, hs]; omega)
  have h3 : ∀ a b c, Near fromMsc offLine s (((s.wr (pgLFU i) LFU.CLIENT_RX_UP a e).wr (pgLFU i) LFU.CLIENT_LF b e).wr (pgLFU i)
      LFU.CLIENT_RATE_MISMATCH c e) := fun a b c =>
    ((hw _ _ a rfl rfl (by decide)).trans (hw _ _ b rfl rfl (by decide))).trans (hw _ _ c rfl rfl (by decide))
  simp only [State.clientView, State.put]
  exact .ite (.ite ((h3 _ _ _).trans (fromMsc_macLink _ _ _)) (h3 _ _ _)) (h3 _ _ _)

theorem fromMsc_clientViews (s : State) (i : Nat) : Near fromMsc offLine s (s.clientViews i) :=
  .foldl_mem _ (fun u _ hx => fromMsc_clientView u i (by simpa using hx)) s

theorem fromMsc_framerViews (s : State) (i : Nat) : Near fromMsc offLine s (s.framerViews i) :=
  .ite ((fromMsc_clientViews _ _).trans (fromMsc_clientViews _ _)) (fromMsc_clientViews _ _)

/-- A field of an LFU page that is no array, written. -/
theorem fromMsc_lfu {s : State} {i : Nat} {f : Fld} (v : Nat) (h : 256 ≤ f.off ∧ f.off < 65536 ∧ f.lo < 32) :
    Near fromMsc offLine s (s.wr (pgLFU i) f v) := fromMsc_wr v (by simp only [pgLFU]; omega) (by omega)

theorem fromMsc_straddleMove (s : State) (i : Nat) : Near fromMsc offLine s (s.straddleMove i) := by
  refine .foldl_mem _ (fun u x hx => ?_) s
  have hx' : x < 64 := by simpa using hx
  refine .ite ((fromMsc_calm (Calm.draw u 1)).trans (fromMsc_wr _ ?_ ?_)) (.refl u)
  · simp only [pgLFU]; omega
  · simp only [LFU.CLIENT_STRADDLE_LOST]; omega

theorem fromMsc_protMove (s : State) (i : Nat) (b : Bool) : Near fromMsc offLine s (s.protMove i b) :=
  .ite (.refl s) (((((fromMsc_lfu _ (by decide)).trans (fromMsc_lfu _ (by decide))).trans (fromMsc_straddleMove _ i)).trans
    (fromMsc_calm (Calm.raise _ _ _))).trans (fromMsc_framerViews _ i))

theorem fromMsc_protPrepare (s : State) (i : Nat) : Near fromMsc offLine s (s.protPrepare i) := by
  have h : Near fromMsc offLine s (if s.startsWtr i then (s.setLfu i { s.lfu i with wtrFrom := s.ticks }).wr (pgLFU i) LFU.PROT_STS_WTR_RUN 1
      else if 12 < rankOf (topReq (s.on (pgLFU i) LFU.PROT_STS_SELECTED) (s.localReqs i ++ s.farReq i)) then
        s.wr (pgLFU i) LFU.PROT_STS_WTR_RUN 0 else s) :=
    .ite ((fromMsc_setLfu _ _ _).trans (fromMsc_lfu _ (by decide))) (.ite (fromMsc_lfu _ (by decide)) (.refl s))
  exact .ite (h.trans (fromMsc_setLfu _ _ _)) h

theorem fromMsc_protEval (s : State) (i : Nat) : Near fromMsc offLine s (s.protEval i) := by
  simp only [State.protEval, State.put]
  refine .ite (.refl s) (((Near.trans ?_ (fromMsc_setLfu _ _ _))).trans (fromMsc_protMove _ _ _))
  have h : ∀ a b c, Near fromMsc offLine s ((((s.protPrepare i).wr (pgLFU i) LFU.PROT_STS_LOCAL_REQ a).wr (pgLFU i) LFU.APS_TX_APS b).wr
      (pgLFU i) LFU.PROT_STS_BRIDGED c) := fun a b c =>
    (((fromMsc_protPrepare s i).trans (fromMsc_lfu _ (by decide))).trans (fromMsc_lfu _ (by decide))).trans (fromMsc_lfu _ (by decide))
  exact .ite ((h _ _ _).trans (fromMsc_lfu _ (by decide))) (h _ _ _)

theorem fromMsc_protSignal (s : State) (i : Nat) (a b : Bool) : Near fromMsc offLine s (s.protSignal i a b) := by
  have hb : ∀ n v (u : State), Near fromMsc offLine u (u.wr (pgLFU (pairOf i)) (protBit n) v) := by
    intro n v u
    unfold protBit; split <;> exact fromMsc_lfu _ (by decide)
  exact .ite ((hb _ _ _).trans (fromMsc_protEval _ _)) (.ite ((hb _ _ _).trans (fromMsc_protEval _ _)) (fromMsc_setLfu _ _ _))

theorem fromMsc_otnSignal (s : State) (i : Nat) : Near fromMsc offLine s (s.otnSignal i) := by
  simp only [State.otnSignal, State.put]
  have h : ∀ a v x, Near fromMsc offLine s (State.setLfu ((s.wr (pgLFU i) LFU.OTN_STS_LOS a).wr (pgLFU i) LFU.OTN_STS_SF v) i x) := fun a v x =>
    ((fromMsc_lfu _ (by decide)).trans (fromMsc_lfu _ (by decide))).trans (fromMsc_setLfu _ _ _)
  exact .ite (h _ _ _) ((((h _ _ _).trans (fromMsc_calm (Calm.raiseIf _ _ _ _))).trans (fromMsc_protSignal _ _ _ _)).trans
    (fromMsc_framerViews _ _))

/-- A lane's signal reaches the framers, whose registers lie above the SerDes pages. -/
theorem fromMsc_losFollow (s : State) (g : Nat) : Near fromMsc offLine s (s.losFollow g) :=
  .foldl (fun u x => .ite (fromMsc_otnSignal u x) (.refl u)) _ s

/-- A register of a SerDes page stays as a lane's signal reaches the framers. -/
theorem losFollow_rd (s : State) {g h : Nat} (hg : g < 256) {f : Fld} {i : Nat} (hf : 256 ≤ f.off ∧ f.off + f.stride * i < 65536 ∧ f.lo < 32) :
    (s.losFollow h).rd (lnp g) f i = s.rd (lnp g) f i := by
  refine (fromMsc_losFollow s h).rd (not_sideKey_of_calmAt ?_) ?_
  · simp only [Fld.calmAt, lnp, pgLNP]; omega
  · simp only [fromMsc, Fld.key, lnp, pgLNP]; omega

@[simp] theorem losFollow_toBandState (s : State) (g : Nat) : (s.losFollow g).toBandState = s.toBandState :=
  (offLine_parts (fromMsc_losFollow s g).part).1
@[simp] theorem losFollow_toPipeState (s : State) (g : Nat) : (s.losFollow g).toPipeState = s.toPipeState :=
  (offLine_parts (fromMsc_losFollow s g).part).2.1
@[simp] theorem losFollow_toQdState (s : State) (g : Nat) : (s.losFollow g).toQdState = s.toQdState :=
  (offLine_parts (fromMsc_losFollow s g).part).2.2.1

/-- Settles O8: each command writes the lane's fields, which nothing after it writes again. -/
theorem laneRegisters : Obligations.LaneRegisters := by
  unfold Obligations.LaneRegisters
  refine ⟨?_, ?_, ?_, ?_, ?_, ?_, ?_⟩
  · intro s lane v hlane hlive href
    refine ⟨_, congrArg Host.Outcome.next ((if_pos hlane).trans (State.gate_of_live hlive _)), ?_⟩
    simp (disch := (simp +ground only [Fld.key, true_and, and_true]; try omega)) [State.laneCtlWrite, losFollow_rd _ hlane,
      State.laneCtlStore, href, laneCtlFields, State.wrWord, State.wrAll, State.squelchView, State.put, State.laneDark, State.laneAdapt,
      State.ite_rd, State.ite_toBandState, State.ite_toPipeState, State.ite_toQdState, State.rd_wr_ne, bits_mod]
    exact ⟨rfl, rfl, rfl⟩
  · intro s lane hlane hlive
    refine ⟨_, congrArg Host.Outcome.next ((if_pos hlane).trans (State.gate_of_live hlive _)), ?_⟩
    simp [State.laneAdapt]
  · intro s lane v hlane hlive hfir
    refine ⟨_, congrArg Host.Outcome.next ((if_pos hlane).trans (State.gate_of_live hlive _)), ?_⟩
    simp (disch := (simp +ground only [Fld.key, true_and, and_true]; try omega)) [State.txFirWrite, hfir, State.wrWord, State.rd_wr_ne,
      bits_mod]
    exact ⟨rfl, rfl, rfl, rfl⟩
  · intro s lane ctle snr hlane hlive hon hrx
    refine ⟨_, congrArg Host.Outcome.next (if_pos ⟨hlane, hlive, hon, hrx⟩), ?_⟩
    simp (disch := (simp +ground only [Fld.key, true_and, and_true]; try omega)) [losFollow_rd _ hlane, State.wrAll, State.rd_wr_ne]
  · intro s lane hlane hlive hlock
    refine ⟨_, congrArg Host.Outcome.next (if_pos ⟨hlane, hlive, hlock⟩), ?_⟩
    simp (disch := (simp +ground only [Fld.calmAt, Fld.key, lnp, pgLNP, true_and, and_true]; try omega)) [losFollow_rd _ hlane,
      State.wrFree, State.raise_rd, State.rd_wr_ne]
    exact Nat.mod_mod _ _
  · intro s lane locked errs hlane hlive hchk
    refine ⟨_, congrArg Host.Outcome.next (if_pos ⟨hlane, hlive, hchk⟩), ?_⟩
    simp (disch := (simp +ground only [Fld.key, true_and, and_true]; try omega)) [State.put, State.inc, State.rd_wr_ne, b2n_mod]
  · intro s lane ok hlane hlive hlt
    refine ⟨_, congrArg Host.Outcome.next (if_pos ⟨hlane, hlive, hlt⟩), ?_⟩
    simp (disch := (simp +ground only [Fld.calmAt, Fld.key, lnp, pgLNP, true_and, and_true]; try omega)) [State.put, State.rd_wr_ne,
      State.raiseIf_rd, b2n_mod]

end Sys2Proof.Machine

/-! PROOFS. Line ports: the link of a MAC slot, the removal and configuration of a port, its counts and its pauses. -/

namespace Sys2Proof.Machine
set_option Elab.async false

section
variable (s : State) (g : Nat)

theorem macLink_onlyRegs (b : Bool) : OnlyRegs s (s.macLink g b) := by
  simp only [State.macLink, State.gate]
  split
  · exact (OnlyRegs.refl s).put _ _ _ _
  · exact .refl s

theorem macLink_rd (b : Bool) {p : Nat} {f : Fld} {i : Nat} (h : MSC.MAC_STS_LINK.key (msc g) (g % 16) ≠ f.key p i) :
    (s.macLink g b).rd p f i = s.rd p f i := by
  simp only [State.macLink, State.gate]
  split
  · exact State.rd_wr_ne s _ h
  · rfl

theorem lpiHold_onlyRegs : OnlyRegs s (s.lpiHold g) := by
  simp only [State.lpiHold, State.gate]
  split
  · exact .refl s
  · split
    · exact (OnlyRegs.refl s).wr _ _ _ _
    · exact .refl s

theorem lpiHold_rd {p : Nat} {f : Fld} {i : Nat} (h : MSC.MAC_CTL_LPI_EN.key (msc g) (g % 16) ≠ f.key p i) :
    (s.lpiHold g).rd p f i = s.rd p f i := by
  simp only [State.lpiHold, State.gate]
  split
  · rfl
  · split
    · exact State.rd_wr_ne s _ h
    · rfl

theorem portDown_rd_linkUp : (s.portDown g).rd (lnp g) LNP.PORT_STS_LINK_UP (g % 16) = 0 := by
  simp (disch := (simp +ground only [Fld.key, true_and, and_true]; try omega)) [State.portDown, State.wrAll, State.rd_wr_ne]
end

theorem macLink_mac (s : State) (g h : Nat) (b : Bool) : (s.macLink g b).mac h = s.mac h := (macLink_onlyRegs s g b).part (·.mac h) fun _ => rfl
theorem lpiHold_mac (s : State) (g h : Nat) : (s.lpiHold g).mac h = s.mac h := (lpiHold_onlyRegs s g).part (·.mac h) fun _ => rfl

theorem etherGone_frame (s : State) (g : Nat) :
    (s.etherGone g).toBandState = s.toBandState ∧ (s.etherGone g).toPipeState = s.toPipeState ∧ (s.etherGone g).toQdState = s.toQdState := by
  simp [State.etherGone, State.portDown, State.wrAll, (macLink_onlyRegs _ _ _).frame, State.ite_toBandState, State.ite_toPipeState,
    State.ite_toQdState]

theorem etherGone_rd_linkUp (s : State) (g : Nat) : (s.etherGone g).rd (lnp g) LNP.PORT_STS_LINK_UP (g % 16) = 0 := by
  have h : ∀ b, ((s.portDown g).macLink g b).rd (lnp g) LNP.PORT_STS_LINK_UP (g % 16) = 0 := fun b => by
    rw [macLink_rd, portDown_rd_linkUp]
    simp +ground only [Fld.key, lnp, msc, pgMSC, pgLNP]
    omega
  simp only [State.etherGone, State.ite_rd, h, portDown_rd_linkUp, ite_self]

/-- A context restarts in the pipeline only. -/
theorem ctxRestart_frame (s : State) (c : Nat) : (s.ctxRestart c).macs = s.macs ∧ (s.ctxRestart c).regs = s.regs ∧
    (s.ctxRestart c).toBandState = s.toBandState ∧ (s.ctxRestart c).toQdState = s.toQdState := ⟨rfl, rfl, rfl, rfl⟩
theorem ctxRestart_mac (s : State) (c g : Nat) : (s.ctxRestart c).mac g = s.mac g := rfl
theorem ctxRestart_rd (s : State) (c p : Nat) (f : Fld) (i : Nat) : (s.ctxRestart c).rd p f i = s.rd p f i := rfl

/-- Settles O9: a removed or configured port shows its slot's new configuration, and the other events write the fields they name. -/
theorem linePorts : Obligations.LinePorts := by
  unfold Obligations.LinePorts
  refine ⟨?_, ?_, ?_, ?_, ?_, ?_, ?_⟩
  · intro s slot v hslot hlive hfab hmode
    refine ⟨_, congrArg Host.Outcome.next ((if_pos hslot).trans (State.gate_of_live hlive _)), ?_⟩
    simp (disch := (simp +ground only [Fld.key, lnp, msc, pgMSC, pgLNP, true_and, and_true]; try omega)) [State.portApply, hfab, hmode,
      (lpiHold_onlyRegs _ _).frame, lpiHold_rd, lpiHold_mac, State.wrWord, portCfgFields, State.rd_wr_ne, etherGone_frame,
      etherGone_rd_linkUp]
  · intro s slot v hslot hlive hfab hmode hacc
    refine ⟨_, congrArg Host.Outcome.next ((if_pos hslot).trans (State.gate_of_live hlive _)), ?_⟩
    simp only [State.portApply, hfab, hmode, hacc, Bool.false_eq_true, if_false, if_true]
    generalize hu : (if bits v 0 2 = 1 then s else s.etherGone slot) = u
    have hband : u.toBandState = s.toBandState := by simp only [← hu, State.ite_toBandState, etherGone_frame, ite_self]
    have hqd : u.toQdState = s.toQdState := by simp only [← hu, State.ite_toQdState, etherGone_frame, ite_self]
    simp (disch := (simp +ground only [Fld.key, lnp, msc, pgMSC, pgLNP, true_and, and_true]; try omega)) [
      (lpiHold_onlyRegs _ _).frame, lpiHold_rd, lpiHold_mac, State.wrWord, portCfgFields, State.rd_wr_ne, State.gate, State.wrFree,
      State.ite_rd, State.ite_mac, State.ite_toBandState, State.ite_toQdState, ctxRestart_rd, ctxRestart_mac, ctxRestart_frame, hband, hqd]
    exact bits_mod v 0 2
  · intro s slot corr uncorr syms n hslot hlive hmode hfec h1 h2 h3 h4
    have hwin : s.windowCounts slot corr uncorr syms = true := by simp [State.windowCounts, hfec, h1, h2, h3]
    refine ⟨_, congrArg Host.Outcome.next (if_pos ⟨hslot, hlive, hmode, hwin⟩), ?_⟩
    simp (disch := (simp +ground only [Fld.calmAt, Fld.key, lnp, pgLNP, true_and, and_true]; try omega)) [h4, State.inc,
      State.raise_rd, State.rd_wr_ne]
  · intro s slot hslot hlive hmode
    refine ⟨_, congrArg Host.Outcome.next (if_pos ⟨hslot, hlive, by simp [hmode]⟩), ?_⟩
    simp only [State.portState, hmode, if_true]
    simp (disch := (simp +ground only [Fld.calmAt, Fld.key, lnp, msc, pgMSC, pgLNP, true_and, and_true]; try omega)) [(macLink_onlyRegs _ _ _).frame, macLink_rd, State.raiseIf_rd,
      State.wrAll, State.rd_wr_ne]
    decide
  · intro s slot prio hslot hlive hpause hend
    refine ⟨_, congrArg Host.Outcome.next (if_pos ⟨hslot, hlive, hpause, hend⟩), ?_⟩
    simp [State.setPaused, State.pauseView, State.put]
  · intro s slot prio hslot hlive hpause hto hfrom
    refine ⟨_, congrArg Host.Outcome.next (if_pos ⟨hslot, hlive, hpause, hto, hfrom⟩), ?_⟩
    simp [State.pauseView, State.put, State.macCnt]
  · intro s slot prio hslot hlive hig htrip
    refine ⟨_, congrArg Host.Outcome.next (if_pos ⟨hslot, hlive, hig, htrip⟩), ?_⟩
    simp [State.pauseView, State.put]
end Sys2Proof.Machine

/-! PROOFS. The OTN framer: a relation over the framer's keys keeps the alignment of a slice and the parts of the state beside the
line side, so a frame shows what the slice itself makes of it. -/

namespace Sys2Proof.Machine
set_option Elab.async false

/-- What a relation over the framer's keys says of the parts of the state. -/
theorem evalRest_parts {s t : State} (h : evalRest t = evalRest s) :
    t.toBandState = s.toBandState ∧ t.toPipeState = s.toPipeState ∧ t.toQdState = s.toQdState ∧ t.nt = s.nt := by
  simp only [evalRest, Prod.mk.injEq] at h
  obtain ⟨hband, hpipe, hqd, hnt, -⟩ := h
  exact ⟨hband, hpipe, hqd, hnt⟩

theorem evalRest_slices {s t : State} (h : evalRest t = evalRest s) (j : Nat) : (t.lfu j).slices = (s.lfu j).slices := by
  simp only [evalRest, Prod.mk.injEq] at h
  obtain ⟨-, -, -, -, hlfu⟩ := h
  exact congrArg (·.1) (congrFun hlfu j)

/-- What a frame of slice k shows of the slice's alignment, with the parts of the state that the framer leaves alone. -/
def frameView (s : State) (i k : Nat) : (Bool × Nat × Nat) × BandState × PipeState × QdState × NetTime :=
  let x := tgetD (s.lfu i).slices k {}
  ((x.inFrame, x.misses, x.mfas), s.toBandState, s.toPipeState, s.toQdState, s.nt)

theorem frameView_of_evalRest {s t : State} (h : evalRest t = evalRest s) (i k : Nat) : frameView t i k = frameView s i k := by
  obtain ⟨hband, hpipe, hqd, hnt⟩ := evalRest_parts h
  simp only [frameView, evalRest_slices h, hband, hpipe, hqd, hnt]

/-- A slice replaced by one that is aligned alike shows the same. -/
theorem frameView_setSlice (s : State) (i k : Nat) (l : Lfu) (y : OtnSlice) (hl : l.slices = tset (s.lfu i).slices k y)
    (hy : (y.inFrame, y.misses, y.mfas) = ((tgetD (s.lfu i).slices k {}).inFrame, (tgetD (s.lfu i).slices k {}).misses,
      (tgetD (s.lfu i).slices k {}).mfas)) : frameView (s.setLfu i l) i k = frameView s i k := by
  simp only [frameView, State.lfu_setLfu, hl, tgetD_tset_same, hy]
  rfl

theorem frameView_emit (s : State) (o : Out) (i k : Nat) : frameView (s.emit o) i k = frameView s i k := rfl

theorem otnSend_frameView (s : State) (i k a b : Nat) (pl : List Byte) : frameView (s.otnSend i k a b pl) i k = frameView s i k := by
  rw [State.otnSend]
  exact (frameView_emit _ _ _ _).trans (frameView_setSlice s i k _ _ rfl rfl)

theorem otnSignal_frameView (s : State) {i : Nat} (hi : i < 16) (k : Nat) : frameView (s.otnSignal i) i k = frameView s i k :=
  frameView_of_evalRest (otnSignal_sig s i hi).part i k

theorem frameView_wrAll (s : State) (p q : Nat) (l : List (Fld × Nat)) (i k : Nat) : frameView (s.wrAll p q l) i k = frameView s i k :=
  ((OnlyRegs.refl s).wrAll p q l).part (frameView · i k) fun _ => rfl

theorem otnOverhead_frameView (s : State) {i : Nat} (hi : i < 16) (k a b : Nat) (oh : OtnOh) :
    frameView (s.otnOverhead i k a b oh) i k = frameView s i k := by
  have hs : ∀ u : State, frameView (u.apsReceive i oh.aps) i k = frameView u i k := fun u =>
    frameView_of_evalRest (apsReceive_sig u i oh.aps hi).part i k
  have hr : ∀ (u : State) (c : Bool), frameView (u.raiseIf c (pgLFU i) 4) i k = frameView u i k := fun u c =>
    frameView_of_evalRest (evalRest_calm (Calm.raiseIf u c (pgLFU i) 4)) i k
  unfold State.otnOverhead
  extract_lets p l x y run slices skewed msiBad newFail s1 s2
  have h1 : frameView s1 i k = frameView s i k := (frameView_wrAll _ _ _ _ _ _).trans (frameView_setSlice s i k _ y rfl rfl)
  have h2 : frameView s2 i k = frameView s i k := (otnSignal_frameView _ hi k).trans ((hr _ _).trans h1)
  split
  · exact (hs s2).trans h2
  · exact h2

theorem otnOof_frameView (s : State) (i k : Nat) (b : Bool) : frameView (s.otnOof i b) i k = frameView s i k := by
  rw [State.otnOof]
  split <;> simp [frameView, State.put]

theorem otnOom_frameView (s : State) (i k : Nat) (b : Bool) : frameView (s.otnOom i b) i k = frameView s i k := by
  rw [State.otnOom]
  split <;> simp [frameView, State.put]

/-- A slice in frame whose FAS stands at its offset stays in frame and takes the frame's MFAS. -/
theorem sliceFrame_follow {s : State} {i k m : Nat} {hits : List (Nat × Nat)} (hin : (tgetD (s.lfu i).slices k {}).inFrame = true)
    (hit : hitAt hits (tgetD (s.lfu i).slices k {}).locked = some m) :
    frameView (s.sliceFrame i k hits) i k = ((true, 0, m), s.toBandState, s.toPipeState, s.toQdState, s.nt) := by
  unfold State.sliceFrame
  extract_lets p l x chk y missed run s1 oof s2
  refine (otnOom_frameView _ _ _ _).trans ((otnOof_frameView _ _ _ _).trans ?_)
  have hx : x.inFrame = true := hin
  have hy : (y.inFrame, y.misses, y.mfas) = (true, 0, m) := by
    have hh : hitAt hits x.locked = some m := hit
    simp [y, hx, OtnSlice.follow, hh]
  simpa [frameView, s1, tgetD_tset_same] using hy

theorem otnFrame_frameView (s : State) {i : Nat} (hi : i < 16) (k : Nat) (hits : List (Nat × Nat)) (oh : OtnOh) :
    frameView (s.otnFrame i k hits oh) i k = frameView (s.sliceFrame i k hits) i k := by
  unfold State.otnFrame
  extract_lets p s1 l x s2 sm pm
  have h2 : frameView s2 i k = frameView s1 i k := frameView_setSlice s1 i k _ _ rfl rfl
  split
  · exact (otnSend_frameView _ _ _ _ _ _).trans ((otnSignal_frameView _ hi k).trans h2)
  · exact (otnSend_frameView _ _ _ _ _ _).trans ((otnOverhead_frameView _ hi _ _ _ _).trans h2)

/-- Settles O26, clause by clause: a frame's alignment is what State.sliceFrame leaves, and LOF and LOM lie outside what the signal's view writes. -/
theorem otnFramer : Obligations.OtnFramer := by
  unfold Obligations.OtnFramer
  refine ⟨?_, ?_, ?_, ?_, ?_, ?_, ?_⟩
  · intro s i hi hlive heven hoff hfits
    refine ⟨_, congrArg Host.Outcome.next ((if_pos hi).trans (State.gate_of_live hlive _)), ?_⟩
    have hnot : ¬ (i % 2 = 1 ∨ s.on (pgLFU i) LFU.LFU_CFG_OTN_EN = true) := by simp [hoff, heven]
    simp -implicitDefEqProofs (disch := (simp +ground only [Fld.key, true_and, and_true]; try omega)) [State.otnEnable, if_neg hnot, hfits,
      State.rd_wr_ne]
    rfl
  · intro s i hi hlive heven hprot hpair hpend hmap
    refine ⟨_, congrArg Host.Outcome.next ((if_pos hi).trans (State.gate_of_live hlive _)), ?_⟩
    have hodd : ¬ i % 2 = 1 := by omega
    have hpair' : ¬ (i % 4 = 2 ∧ s.on (pgLFU (i - 2)) LFU.PROT_CTL_EN = true) := fun h => by simp [hpair h.1] at h
    simp [State.otnTrigger, hodd, hpair', hprot, hpend, hmap, State.otnArm]
    decide
  · intro s i hi hlive htx hrx
    refine ⟨_, congrArg Host.Outcome.next (if_pos ⟨hi, hlive, htx⟩), ?_⟩
    simp (disch := (simp +ground only [sideKey, sideCommon, clientKey, Fld.key, pgLFU, true_and, and_true]; try omega)) [State.otnDone,
      straddle_lfu _ hi, hrx, straddle_rd _ hi, straddle_band _ hi, straddle_pipe _ hi, straddle_qd _ hi, straddle_mgmt _ hi, straddle_nt _ hi, State.rd_wr_ne]
    rfl
  · intro s i hi hlive hrx htx
    refine ⟨_, congrArg Host.Outcome.next (if_pos ⟨hi, hlive, hrx⟩), ?_⟩
    simp (disch := (simp +ground only [sideKey, sideCommon, clientKey, Fld.key, pgLFU, true_and, and_true]; try omega)) [State.otnDone,
      straddle_lfu _ hi, htx, straddle_rd _ hi, straddle_band _ hi, straddle_pipe _ hi, straddle_qd _ hi, straddle_nt _ hi, clientViews_band _ hi, clientViews_pipe _ hi,
      clientViews_qd _ hi, clientViews_nt _ hi, clientViews_lfu _ hi, clientViews_rd _ hi, State.rd_raise, State.rd_wr_ne]
    rfl
  · intro s i k hits oh m hi hlive heven hen hk hin hit
    refine ⟨_, congrArg Host.Outcome.next (if_pos ⟨hi, heven, hlive, hen, hk⟩), ?_⟩
    have h := (otnFrame_frameView s hi k hits oh).trans (sliceFrame_follow hin hit)
    simp only [frameView, Prod.mk.injEq] at h
    obtain ⟨⟨hframe, hmiss, hmfas⟩, hband, hpipe, hqd, hnt⟩ := h
    exact ⟨hframe, hmiss, hmfas, hband, hpipe, hqd, hnt⟩
  · intro s i hi hlive heven hen hoof hlof hlong
    refine ⟨_, congrArg Host.Outcome.next (if_pos ⟨hi, heven, hlive, hen⟩), ?_⟩
    extract_lets p lof lom new s1 s2
    have hl : lof = true := by simp [lof, p, hoof, hlong]
    have hn : new = true := by simp [new, p, hl, hlof]
    have h1 : s1 = s.wr (pgLFU i) LFU.OTN_STS_LOF 1 := if_pos hl
    have h := otnSignal_sig (s2.raiseIf new (pgLFU i) 3) i hi
    obtain ⟨hband, hpipe, hqd, hnt⟩ := evalRest_parts h.part
    refine ⟨?_, h.causes _ _ (by decide) ?_, ?_⟩
    · rw [h.rd (by simp +ground only [sideKey, sideCommon, Fld.key, pgLFU, pgCRWN, pgOBS, pgLOG, pgPCE]; omega)
        (by simp +ground only [sigKey, clientKey, Fld.key, pgLFU]; omega)]
      simp (disch := (simp +ground only [Fld.calmAt, Fld.key, pgLFU, true_and, and_true]; try omega)) [State.raiseIf_rd, s2, h1, p, State.ite_rd, State.rd_wr_ne]
    · rw [State.raiseIf, if_pos hn]
      refine State.raise_sets _ ?_ (by decide)
      simp (disch := (simp +ground only [pgLFU, true_and, and_true]; try omega)) [s2, p, h1, State.ite_live, State.wr_live, hlive]
    · rw [hband, hpipe, hqd, hnt]
      simp [s2, h1, State.ite_toBandState, State.ite_toPipeState, State.ite_toQdState, State.ite_nt]
  · intro s i hi hlive heven hoof hoom hlong
    refine ⟨_, congrArg Host.Outcome.next (if_pos ⟨hi, heven, hlive, by simp [hoof], hlong⟩), ?_⟩
    extract_lets p s1 s2
    have h2 : s2 = (s.wr (pgLFU i) LFU.OTN_STS_LOF 0).wr (pgLFU i) LFU.OTN_STS_LOM 0 := if_neg (by simp [p, hoom])
    have h := otnSignal_sig s2 i hi
    obtain ⟨hband, hpipe, hqd, hnt⟩ := evalRest_parts h.part
    have hrd : ∀ f : Fld, f.off = 0x184 → f.lo < 10 → 0 < f.lo → (s2.otnSignal i).rd (pgLFU i) f = s2.rd (pgLFU i) f := by
      intro f ho hhi hlo
      exact h.rd (by simp +ground only [sideKey, sideCommon, Fld.key, ho, Nat.mul_zero, pgLFU, pgCRWN, pgOBS, pgLOG, pgPCE]; omega)
        (by simp +ground only [sigKey, clientKey, Fld.key, ho, Nat.mul_zero, pgLFU]; omega)
    refine ⟨?_, ?_, ?_⟩
    · rw [hrd _ rfl (by decide) (by decide), h2]
      simp (disch := (simp +ground only [Fld.key, pgLFU, true_and, and_true]; try omega)) [State.rd_wr_ne]
    · rw [hrd _ rfl (by decide) (by decide), h2]
      simp
    · rw [hband, hpipe, hqd, hnt, h2]
      exact ⟨rfl, rfl, rfl, rfl⟩

end Sys2Proof.Machine

/-! PROOFS. Performance latches: a client entry whose slot lies past the last MAC slot makes the link view of a selector move write
the latch's own sequence number. -/

namespace Sys2Proof.Machine
set_option Elab.async false

/-- Power on, the pair's controller of LFU 0 enabled without hold-off, the working framer at its SD threshold of 0 as a second wraps,
PM_STS.SEQ at 7, and client entry 0 terminated at slot 260: a value past the 8 bits of CLIENT_PORT, which a state may list all the
same. The MAC_STS word of that slot would be offset 0x204 of page 48, where LFU 0 has PM_STS. -/
def strayClient : State :=
  { regs := [(PWR.DOM_STS_POWERED.key pgPWR (domainOf (pgLFU 0)), 1), (LFU.LFU_CFG_OTN_EN.key (pgLFU 0) 0, 1),
      (LFU.PROT_CTL_EN.key (pgLFU 0) 0, 1), (LFU.PROT_CTL_HOLDOFF.key (pgLFU 0) 0, 0), (LFU.PM_CTL_AUTO_SEC.key (pgLFU 0) 0, 1),
      (LFU.PM_STS_SEQ.key (pgLFU 0) 0, 7), (LFU.OTN_SD_THR_COUNT.key (pgLFU 0) 0, 0), (LFU.CLIENT_VALID.key (pgLFU 0) 0, 1),
      (LFU.CLIENT_TERMINATE.key (pgLFU 0) 0, 1), (LFU.CLIENT_PORT.key (pgLFU 0) 0, 260),
      (NTM.NTM_STS_VALID.key pgNTM 0, 1)].foldl (fun r e => tset r e.1 e.2) State.reset.regs
    nt := { sec := 5 } }

/-- Refutes O27: on strayClient the second's judgement moves the selector, the link view that follows writes 0 over PM_STS.SEQ, and the
latch leaves it at 1 where the statement asks for 8. Settles O27. -/
theorem not_protectionAndPerformance : ¬ Obligations.ProtectionAndPerformance := by
  rintro ⟨-, -, -, -, hlatch, -⟩
  obtain ⟨t, ht, -, hseq, -⟩ := hlatch strayClient 0 0 (by decide) (by decide) (by decide) (by decide) (by decide) (by decide) (by decide)
  have hrun : (match exec (.pmSecondLatch 0) strayClient with
      | .next t => t.rd (pgLFU 0) LFU.PM_STS_SEQ
      | _ => 0) = 1 := by decide +kernel
  have hwas : strayClient.rd (pgLFU 0) LFU.PM_STS_SEQ = 7 := by decide
  rw [ht] at hrun
  simp only [hseq, hwas] at hrun
  exact absurd hrun (by decide)

end Sys2Proof.Machine

/-! PROOFS. Parser templates, the classifier's commands and pauses, and payload patterns. -/

namespace Sys2Proof.Machine
set_option Elab.async false

/-! ### Templates -/

/-- Words stored from a list of places, then a result: the words stand, and nothing but registers changes. -/
theorem State.tplCommit_onlyRegs (s : State) (t tag : Nat) (h : s.tplBad = false) : OnlyRegs s (s.tplCommit t tag) := by
  rw [State.tplCommit, if_neg (by simp [h])]
  exact (OnlyRegs.foldl (fun u _ => (OnlyRegs.refl u).wr ..) _ _).result ..

theorem State.tplRead_onlyRegs (s : State) (t tag : Nat) : OnlyRegs s (s.tplRead t tag) :=
  (OnlyRegs.foldl (fun u _ => (OnlyRegs.refl u).wr ..) _ _).result ..

theorem State.tplCommit_word (s : State) {t tag w : Nat} (hw : w < 16) (h : s.tplBad = false) :
    (s.tplCommit t tag).rd pgPRS PRS.TEMPLATE (16 * t + w) = andBits (s.rd pgPRS PRS.TPL_STAGE_WORD w) (tplMask w) % 2 ^ 32 := by
  rw [State.tplCommit, if_neg (by simp [h]), State.rd_result_ne _ _ _ _ _ (by simp +ground only [Fld.key]; omega)]
  refine State.rd_foldl_wr_mem (List.range 16) (fun _ => pgPRS) PRS.TEMPLATE (fun w => andBits (s.rd pgPRS PRS.TPL_STAGE_WORD w) (tplMask w))
    (fun w => 16 * t + w) s (List.mem_range.2 hw) fun y _ hy => ?_
  simp +ground only [Fld.key] at hy
  omega

theorem State.tplRead_word (s : State) {t tag w : Nat} (hw : w < 16) :
    (s.tplRead t tag).rd pgPRS PRS.TPL_STAGE_WORD w = s.tplWord t w % 2 ^ 32 := by
  rw [State.tplRead, State.rd_result_ne _ _ _ _ _ (by simp +ground only [Fld.key]; omega)]
  refine State.rd_foldl_wr_mem (List.range 16) (fun _ => pgPRS) PRS.TPL_STAGE_WORD (fun w => s.tplWord t w) (fun w => w) s
    (List.mem_range.2 hw) fun y _ hy => ?_
  simp +ground only [Fld.key] at hy
  omega

/-! ### The classifier -/

theorem State.clsPauseView_onlyRegs (s : State) (first on : Bool) : OnlyRegs s (s.clsPauseView first on) :=
  ((OnlyRegs.refl s).put ..).trans (OnlyRegs.foldl (fun u _ => (OnlyRegs.refl u).put ..) _ _)

theorem State.clsPauseView_cls (s : State) (first on : Bool) : (s.clsPauseView first on).rd pgCLS (copyPaused first) = b2n on := by
  have hne : ∀ p ∈ copyIpps first, IPP.IPP_STS_PAUSED.key p 0 ≠ (copyPaused first).key pgCLS 0 := by
    cases first <;> decide
  refine (State.rd_foldl_wr_ne (copyIpps first) (fun p => p) IPP.IPP_STS_PAUSED (fun _ => b2n on) (fun _ => 0) _ hne).trans ?_
  cases first <;> exact (State.rd_wr_same _ _ _ _ _).trans (b2n_mod _ _ (by decide))

theorem State.clsPauseView_ipp (s : State) (first on : Bool) {k : Nat} (hk : k < 10) :
    (s.clsPauseView first on).rd (pgIPP (if first then 10 + k else k)) IPP.IPP_STS_PAUSED = b2n on := by
  have hmem : pgIPP (if first then 10 + k else k) ∈ copyIpps first := List.mem_map.2 ⟨k, List.mem_range.2 hk, rfl⟩
  refine (State.rd_foldl_wr_mem (copyIpps first) (fun p => p) IPP.IPP_STS_PAUSED (fun _ => b2n on) (fun _ => 0) _ hmem
    fun y _ hy => ?_).trans (b2n_mod _ _ (by decide))
  simp only [Fld.key] at hy
  omega

/-- Both copies hold a table and the insert's result is DONE. -/
theorem State.clsDone_spec (s : State) (tag q moves : Nat) (t : Tbl ClsEntry) (paused late : Bool) :
    (s.clsDone tag q moves t paused late).cls0 = t ∧ (s.clsDone tag q moves t paused late).cls1 = t ∧
    (s.clsDone tag q moves t paused late).clsRun = none ∧
    (s.clsDone tag q moves t paused late).rd pgCLS CLS.CLS_RES.status = 1 ∧
    (s.clsDone tag q moves t paused late).rd pgCLS CLS.CLS_RES.tag = tag % 256 ∧
    (s.clsDone tag q moves t paused late).rd pgCLS CLS.CLS_RES.valid = 1 ∧
    (s.clsDone tag q moves t paused late).toBandState = s.toBandState ∧
    (s.clsDone tag q moves t paused late).toLineState = s.toLineState ∧
    (s.clsDone tag q moves t paused late).toQdState = s.toQdState ∧
    (s.clsDone tag q moves t paused late).toHostState = s.toHostState ∧
    (s.clsDone tag q moves t paused late).toMgmtState = s.toMgmtState ∧
    (s.clsDone tag q moves t paused late).nt = s.nt := by
  simp [State.clsDone, State.clsCount, DONE]

/-- A pause begins on its copy's ten pipelines. -/
theorem State.clsPauseStart_spec (s : State) (r : ClsRun) {k : Nat} (hk : k < 10) :
    (s.clsPauseStart r).rd pgCLS (copyPaused r.first) = 1 ∧
    (s.clsPauseStart r).rd (pgIPP (if r.first then 10 + k else k)) IPP.IPP_STS_PAUSED = 1 ∧
    (s.clsPauseStart r).rd pgCLS CLS.CLS_STS_WAIT_SPACING = 0 ∧
    (s.clsPauseStart r).clsPauseEnd = some (s.ticks + 1 + Config.freeValue s.free % 2 ^ 10 % 960) ∧
    (s.clsPauseStart r).clsRun = s.clsRun ∧
    (s.clsPauseStart r).cls0 = s.cls0 ∧
    (s.clsPauseStart r).cls1 = s.cls1 ∧
    (s.clsPauseStart r).toBandState = s.toBandState ∧
    (s.clsPauseStart r).toLineState = s.toLineState ∧
    (s.clsPauseStart r).toQdState = s.toQdState ∧
    (s.clsPauseStart r).nt = s.nt := by
  have hcls := State.clsPauseView_cls (s.draw 10).2 r.first true
  have hipp := State.clsPauseView_ipp (s.draw 10).2 r.first true hk
  have hw := State.clsPauseView_onlyRegs (s.draw 10).2 r.first true
  generalize hu : (s.draw 10).2.clsPauseView r.first true = u at hcls hipp hw
  have hstart : s.clsPauseStart r = ({ u.wr pgCLS CLS.CLS_STS_WAIT_SPACING 0 with
      clsPauseEnd := some (s.ticks + 1 + (s.draw 10).1 % 960) }.cnt pgCLS CLS.CLS_CNT 3).raise pgCLS 1 := by rw [← hu]; rfl
  obtain ⟨g, rfl⟩ := hw
  rw [hstart]
  refine ⟨?_, ?_, ?_, ?_⟩
  · refine Eq.trans ?_ hcls
    cases r.first <;> simp (disch := decide) [State.rd_raise, State.rd_cnt_ne, State.rd_wr_ne, copyPaused]
  · refine Eq.trans ?_ hipp
    generalize hq : (if r.first then 10 + k else k) = q
    have hq20 : q < 20 := by rw [← hq]; split <;> omega
    simp (disch := (simp +ground only [Fld.calmAt, Fld.key, pgIPP, true_and, and_true]; try omega)) [State.raise_rd, State.cnt_rd_ne, State.rd_wr_ne]
  · simp (disch := decide) [State.rd_raise, State.rd_cnt_ne]
  · simp [State.draw]

/-- After the second copy's pause the insert is done, but for BUSY. -/
theorem State.clsPauseOver_second (s : State) {r : ClsRun} (h : r.first = true) :
    ∃ u : State, s.clsPauseOver r = u.wr pgCLS COMMON.PAGE_STS_BUSY 0 ∧ u.cls0 = r.result ∧ u.cls1 = r.result ∧ u.clsRun = none ∧
      u.rd pgCLS CLS.CLS_RES.status = 1 ∧ u.rd pgCLS CLS.CLS_RES.tag = r.tag % 256 ∧ u.toBandState = s.toBandState ∧
      u.toLineState = s.toLineState ∧ u.toQdState = s.toQdState ∧ u.nt = s.nt := by
  obtain ⟨hband, hline, -, hqd, -, -, hnt⟩ := (s.clsPauseView_onlyRegs true false).frame
  obtain ⟨h0, h1, hrun, hstatus, htag, -, dband, dline, dqd, -, -, dnt⟩ := State.clsDone_spec
    ({ s.clsPauseView true false with clsPauseEnd := none, clsPaused := some s.ticks } : State) r.tag r.slot r.moves r.result true r.late
  refine ⟨_, ?_, h0, h1, hrun, hstatus, htag, dband.trans hband, dline.trans hline, dqd.trans hqd, dnt.trans hnt⟩
  simp only [State.clsPauseOver, h, if_true]

theorem exec_clsPause {s : State} {r : ClsRun} (hrun : s.clsRun = some r) (hlive : s.live pgCLS = true) (hmay : s.clsMayPause = true)
    (hend : s.clsPauseEnd = none) : exec .clsPause s = .next (s.clsPauseStart r) := by
  change execClsPause s = _
  simp [execClsPause, hrun, hlive, hmay, hend]

/-- Settles O28, clause by clause: a template, an entry or a pattern is stored as staged, and a pause is State.clsPauseStart. -/
theorem parserClassifierPatterns : Obligations.ParserClassifierPatterns := by
  unfold Obligations.ParserClassifierPatterns
  refine ⟨?_, ?_, ?_, ?_, ?_, ?_, ?_, ?_, ?_, ?_, ?_, ?_, ?_, ?_⟩
  · intro s index tag w hlive hw hbad
    refine ⟨_, congrArg Host.Outcome.next (State.gate_of_live hlive _), State.tplCommit_word s hw hbad, ?_⟩
    obtain ⟨hband, hline, hpipe, hqd, hhost, hmgmt, hnt⟩ := (State.tplCommit_onlyRegs s (index % 128) tag hbad).frame
    rw [hband, hline, hpipe, hqd, hhost, hmgmt, hnt]
    simp [State.tplCommit, hbad, DONE]
  · intro s index tag w hlive hw
    refine ⟨_, congrArg Host.Outcome.next (State.gate_of_live hlive _), State.tplRead_word s hw, ?_⟩
    obtain ⟨hband, hline, hpipe, hqd, hhost, hmgmt, hnt⟩ := (State.tplRead_onlyRegs s (index % 128) tag).frame
    rw [hband, hline, hpipe, hqd, hhost, hmgmt, hnt]
    simp [State.tplRead, DONE]
  · intro s index tag hlive
    refine ⟨_, congrArg Host.Outcome.next (State.gate_of_live hlive _), ?_⟩
    simp (disch := (simp +ground only [Fld.key]; omega)) [State.tplInvalidate, DONE, State.rd_result_ne]
    rfl
  · intro s profile tag q e hlive hrun hvalid hfind
    refine ⟨_, congrArg Host.Outcome.next (State.gate_of_live hlive _), ?_⟩
    obtain ⟨h0, h1, -, h⟩ := s.clsDone_spec tag q 0 (tset s.cls0 q { prof := profile % 16, key := s.clsCmdKey (profile % 16), act := (List.range 4).map fun k => s.rd pgCLS CLS.CMD_ACT_ACT k }) false false
    simp only [State.clsCmd, hrun, State.clsInsert, hvalid, hfind]
    exact ⟨h0, h1.trans h0.symm, h⟩
  · intro s profile tag q e hlive hrun hvalid hfind
    refine ⟨_, congrArg Host.Outcome.next (State.gate_of_live hlive _), ?_⟩
    obtain ⟨h0, h1, -, h⟩ := s.clsDone_spec tag q 0 (tdel s.cls0 q) false false
    simp only [State.clsCmd, hrun, State.clsDelete, hvalid, hfind]
    exact ⟨h0, h1.trans h0.symm, h⟩
  · intro s profile tag q e hlive hrun hvalid hfind
    refine ⟨_, congrArg Host.Outcome.next (State.gate_of_live hlive _), ?_⟩
    simp [State.clsCmd, hrun, State.clsRead, hvalid, hfind, DONE]
  · intro s r k hrun hlive hmay hend hfirst hk
    have h := s.clsPauseStart_spec r hk
    rw [hfirst, hrun] at h
    exact ⟨_, exec_clsPause hrun hlive hmay hend, h⟩
  · intro s r k hrun hlive hmay hend hfirst hk
    have h := s.clsPauseStart_spec r hk
    rw [hfirst, hrun] at h
    exact ⟨_, exec_clsPause hrun hlive hmay hend, h⟩
  · intro s r hfirst
    have hcls := s.clsPauseView_cls false false
    obtain ⟨g, hg⟩ := s.clsPauseView_onlyRegs false false
    rw [hg] at hcls
    rw [State.clsPauseOver, hfirst, hg]
    exact ⟨rfl, rfl, rfl, rfl, rfl, hcls, rfl, rfl, rfl, rfl⟩
  · intro s r hfirst
    obtain ⟨u, hu, h0, h1, hrun, hstatus, htag, hband, hline, hqd, hnt⟩ := s.clsPauseOver_second hfirst
    rw [hu]
    refine ⟨h0, h1, hrun, ?_, ?_, hband, hline, hqd, hnt⟩
    · rw [State.rd_wr_ne _ _ (by decide), hstatus]
    · rw [State.rd_wr_ne _ _ (by decide), htag]
  · intro s tag r hlive hrun hfirst
    refine ⟨_, congrArg Host.Outcome.next (State.gate_of_live hlive _), ?_⟩
    obtain ⟨g, hg⟩ := s.clsPauseView_onlyRegs false false
    simp (disch := decide) [State.clsAbort, hrun, hfirst, hg, State.rd_wr_ne, ABORTED]
  · intro s index tag hlive
    refine ⟨_, congrArg Host.Outcome.next (State.gate_of_live hlive _), ?_⟩
    simp [State.patWrite, DONE, tget_tset_same]
  · intro s index tag hlive
    refine ⟨_, congrArg Host.Outcome.next (State.gate_of_live hlive _), ?_⟩
    simp (disch := decide) [State.patRead, State.wrWord, List.range, List.range.loop, State.rd_result_ne, State.rd_wr_ne, DONE]
    exact ⟨rfl, rfl⟩
  · intro s tag hlive hvalid hdone
    refine ⟨_, congrArg Host.Outcome.next (State.gate_of_live hlive _), ?_⟩
    simp (disch := decide) [State.resLate, State.on, hvalid, hdone, DONE, State.rd_wr_ne]

end Sys2Proof.Machine

/-! PROOFS. Table DMA: the bound on stored prefixes also counts those that the open group will store. -/

namespace Sys2Proof.Machine
set_option Elab.async false

/-- An IPv4 route with a 16-bit mask to insert, by ring 0. -/
def prefixDesc : List Nat := [51, 0, 0, 0, 4097, 0, 0, 0]
def prefixImage : List Nat := [0x0A0B0000, 7]

/-- Ring 0 ready with one descriptor, the prefixes of length 16 valid, 25,165,823 prefixes stored (one below the bound of R274), and one
more staged in the open group. -/
def nearlyFull : State :=
  { regs := [(PWR.DOM_STS_POWERED.key pgPWR (domainOf pgTDMA), 1), (COMMON.PAGE_CTL_ENABLE.key pgTDMA 0, 1), (TDMA.RING_CTL_EN.key pgTDMA 0, 1),
      (TDMA.RING_STS_OUTSTANDING.key pgTDMA 0, 1), (LPM.LEN_CFG_VALID.key pgLPM 0, 1),
      (LPM.PREFIX_CNT_COUNT.key pgLPM 0, 25165823)].foldl (fun r e => tset r e.1 e.2) State.reset.regs
    fns := [(1, { cfg := [(4, 6)] })]
    vstore := [⟨3, State.reset.rowKey 3 false 100, [0x0A0C0000, 7], none⟩] }

/-- The row that the insert would take. -/
def nearlyFullRow : Nat :=
  ((nearlyFull.planOf 3 16 prefixImage).bind fun k => k.free fun r => nearlyFull.rowUsed 3 (nearlyFull.planRead k false r)).getD 0

/-- Refutes O29: the route staged in the open group counts against the bound of stored prefixes (State.prefixesAhead), so on nearlyFull the
INSERT ends NO_ROOM and stores nothing, although PREFIX_CNT is below the bound. Settles O29. -/
theorem not_tableDma : ¬ Obligations.TableDma := by
  rintro ⟨-, -, -, hinsert, -⟩
  obtain ⟨t, ht, hrow, -⟩ := hinsert nearlyFull 0 prefixDesc prefixImage prefixImage 3 nearlyFullRow (by decide +kernel) (by decide) (by decide)
    (by decide) (by decide) (by decide) (by decide +kernel) (by decide +kernel) (by decide +kernel) (by decide +kernel) (by decide +kernel)
    (by decide +kernel) (by decide +kernel) (by decide +kernel) (by decide +kernel)
  have hrun : (match exec (.tdmaInsert 0 prefixDesc (some prefixImage)) nearlyFull with
      | .next t => t.rows
      | _ => [(0, [])]) = [] := by decide +kernel
  rw [ht] at hrun
  simp only at hrun
  rw [hrun] at hrow
  exact absurd hrow (by decide +kernel)

end Sys2Proof.Machine

/-! PROOFS. The HBM window: a write ends the recheck of the row it reaches. -/

namespace Sys2Proof.Machine
set_option Elab.async false

/-- The four stacks trained and in power, no channel failed, the window at address 0, and a difference found in the HBM row at address 0 under
recheck. -/
def recheckedRow : State :=
  { regs := ((List.range 4).flatMap fun i => [(HBC.STACK_STS_TRAINED.key (pgHBC i) 0, 1),
      (PWR.DOM_STS_POWERED.key pgPWR (domainOf (pgHBC i)), 1)]).foldl (fun r e => tset r e.1 e.2) State.reset.regs
    rechecks := [⟨8, 0, State.reset.rowKey 8 true 0, [1], [2], 0⟩] }

/-- Refutes O32: the window's write of the row at address 0 ends its recheck (State.hbmPut, R298), which is part of the state that the
statement says stays. Settles O32. -/
theorem not_hbmChannels : ¬ Obligations.HbmChannels := by
  rintro ⟨-, -, -, -, -, -, -, hwindow, -⟩
  obtain ⟨t, ht, -, -, -, -, hpipe, -⟩ := hwindow recheckedRow 0 5 0 (by decide +kernel) (by decide) (by decide) (by decide +kernel)
    (by decide +kernel) (by decide +kernel)
  have hrun : (match exec (.hbmWindowAccess 0 (some 5)) recheckedRow with
      | .next t => t.rechecks.length
      | _ => 1) = 0 := by decide +kernel
  rw [ht] at hrun
  simp only at hrun
  rw [show t.rechecks = recheckedRow.rechecks from congrArg PipeState.rechecks hpipe] at hrun
  exact absurd hrun (by decide)

end Sys2Proof.Machine

/-! PROOFS. Buffers, admission, spill and read-back of the queueing die. -/

namespace Sys2Proof.Machine
set_option Elab.async false

/-! ### Views and traces -/

/-- The levels that BPM and BRM show of their buffers. -/
abbrev poolKey (k : Nat) : Prop :=
  (k / 2097152 = pgBPM ∧ 0x120 * 32 ≤ k % 2097152 ∧ k % 2097152 < 0x148 * 32) ∨
    (k / 2097152 = pgBRM ∧ (k % 2097152 = 0x104 * 32 ∨ 0x108 * 32 ≤ k % 2097152 ∧ k % 2097152 < 0x114 * 32))

theorem poolView_near (s : State) : Near poolKey coreParts s s.poolView := by
  unfold State.poolView
  split
  · exact .refl s
  · extract_lets s1 s2 sp rose s3 s4
    have h1 : Near poolKey coreParts s s1 := by
      refine .foldl_mem _ (fun u p hp => ?_) s
      have hp4 : p < 4 := List.mem_range.1 hp
      have hw : Near poolKey coreParts u (u.wr pgBPM BPM.POOL_FREE_COUNT (s.poolFree p) p) :=
        (Near.refl u).wr_core _ (by simp +ground only [poolKey, Fld.key]; omega) (by simp +ground only [Fld.key]; omega)
      rw [State.peak]
      split
      · exact hw.wr_core _ (by simp +ground only [poolKey, Fld.key]; omega) (by simp +ground only [Fld.key]; omega)
      · exact hw
    have h2 : Near poolKey coreParts s s2 := (h1.wr_core _ (by decide) (by decide)).wr_core _ (by decide) (by decide)
    have h3 : Near poolKey coreParts s s3 :=
      ((h2.wr_core _ (by decide) (by decide)).wr_core _ (by decide) (by decide)).wr_core _ (by decide) (by decide)
    exact (h3.wr_core _ (by decide) (by decide)).raiseIf_core _ _ _

/-- The registers of the observability page. -/
abbrev obsKey (k : Nat) : Prop := k / 2097152 = pgOBS

theorem traceWrite_near (s : State) (r : TraceRec) : Near obsKey coreParts s (s.traceWrite r) := by
  unfold State.traceWrite
  split
  · exact (Near.refl s).bump_core _ _ (by decide) (by decide)
  · extract_lets n s1 s2
    have h1 : Near obsKey coreParts s s1 := ⟨fun _ _ _ => rfl, fun _ _ _ h => h, rfl⟩
    have h2 : Near obsKey coreParts s s2 :=
      ((h1.wr_core _ (by decide) (by decide)).wr_core _ (by decide) (by decide)).bump_core _ _ (by decide) (by decide)
    split
    · exact (h2.wr_core _ (by decide) (by decide)).raise_core _ _
    · exact h2

theorem tracePoint_near (s : State) (f : Frame) (a b c d : Nat) : Near obsKey coreParts s (s.tracePoint f a b c d) := by
  rw [State.tracePoint, State.tracePointAt]
  split
  · exact .refl s
  · split
    · exact .refl s
    · exact traceWrite_near _ _

/-! ### Accesses to HBM -/

/-- What the regulators and channel queues of HBM leave alone: HBM itself and every other part of the queueing die. -/
def hbmParts (s : State) : BandState × LineState × PipeState × NetTime × QdState :=
  (s.toBandState, s.toLineState, s.toPipeState, s.nt, { s.toQdState with chans := [], hbmHeld := [], hbmTokens := [] })

theorem hbmParts_eq {s t : State} (h : hbmParts t = hbmParts s) : t.toBandState = s.toBandState ∧ t.toLineState = s.toLineState ∧
    t.toPipeState = s.toPipeState ∧ t.nt = s.nt ∧ t.hbm = s.hbm ∧ t.queues = s.queues ∧ t.bufs = s.bufs := by
  simp only [hbmParts, Prod.mk.injEq, QdState.mk.injEq] at h
  simp [h]

/-- The counters and the status of the regulators. -/
abbrev regulatorKey (k : Nat) : Prop := k / 2097152 = pgHBC 0 ∧ 8192 ≤ k % 2097152

theorem hbmEnqueue_near (s : State) (n : Nat) (r : HbmReq) (w : Bool) : Near regulatorKey hbmParts s (s.hbmEnqueue n r w) := by
  simp only [State.hbmEnqueue]
  split
  · exact .refl s
  · split <;> exact ⟨fun _ _ _ => rfl, fun _ _ _ h => h, rfl⟩

theorem hbmPump_near (s : State) {k : Nat} (hk : k < 6) (left : Nat) : Near regulatorKey hbmParts s (s.hbmPump k left) := by
  induction left generalizing s with
  | zero => exact .refl s
  | succ left ih =>
    unfold State.hbmPump
    split
    · exact .refl s
    · next x rest _ =>
      extract_lets tok s1 s2
      split
      · exact .refl s
      · have h1 : Near regulatorKey hbmParts s s1 := ⟨fun _ _ _ => rfl, fun _ _ _ h => h, rfl⟩
        have h2 : Near regulatorKey hbmParts s s2 := h1.trans (.foldl (fun u (e : Nat × HbmReq) => hbmEnqueue_near u e.1 e.2 x.write) _ _)
        refine (h2.trans (.wr _ ?_ ?_ rfl)).trans (ih _)
        · simp +ground only [regulatorKey, Fld.key]; omega
        · simp +ground only [Fld.key]; omega

theorem hbmPost_near (s : State) (x : HbmAcc) (hx : x.port < 6) : Near regulatorKey hbmParts s (s.hbmPost x) := by
  unfold State.hbmPost
  extract_lets s1
  have h1 : Near regulatorKey hbmParts s s1 := ⟨fun _ _ _ => rfl, fun _ _ _ h => h, rfl⟩
  exact (h1.trans (hbmPump_near s1 hx _)).trans (.wr _ (by decide) (by decide) rfl)

/-! ### Freeing buffers -/

theorem expressFree_onlyRegs (s : State) (e : Option (Nat × Nat)) : OnlyRegs s (s.expressFree e) := by
  cases e
  · exact .refl s
  · exact (OnlyRegs.refl s).wr ..

/-- Charges and returns of express bytes reach registers of the scheduler's pages and beyond only. -/
theorem expressFree_rd (s : State) (e : Option (Nat × Nat)) {p : Nat} {f : Fld} {i : Nat} (h : f.key p i < pgQSU * 2097152) :
    (s.expressFree e).rd p f i = s.rd p f i := by
  cases e with
  | none => rfl
  | some e => exact State.rd_wr_ne _ _ (by simp +ground only [Fld.key] at *; omega)

/-- A free in the owner's name. -/
theorem bpmFree_owner {s : State} {p b : Nat} {r : BufRec} (hr : tget s.bufs (bufKey p b) = some r) :
    s.bpmFree p b r.owner = (({ s with bufs := tdel s.bufs (bufKey p b) }.cnt pgBPM BPM.BPM_CNT 1).expressFree r.express).poolView := by
  simp only [State.bpmFree, hr, if_true]

/-- What a free in the owner's name leaves. -/
theorem bpmFree_owner_parts {s : State} {p b : Nat} {r : BufRec} (hr : tget s.bufs (bufKey p b) = some r) :
    coreParts (s.bpmFree p b r.owner) = (s.toBandState, s.toLineState, s.toPipeState, { s.toQdState with bufs := tdel s.bufs (bufKey p b) }, s.nt) := by
  rw [bpmFree_owner hr, (poolView_near _).part]
  obtain ⟨hband, hline, hpipe, hqd, -, -, hnt⟩ := (expressFree_onlyRegs ({ s with bufs := tdel s.bufs (bufKey p b) }.cnt pgBPM BPM.BPM_CNT 1) r.express).frame
  simp only [coreParts, hband, hline, hpipe, hqd, hnt]
  simp

theorem bpmFree_owner_rd {s : State} {p b : Nat} {r : BufRec} (hr : tget s.bufs (bufKey p b) = some r) {g : Fld} {q i : Nat}
    (hq : g.key q i < pgQSU * 2097152) (hside : ¬ sideKey (g.key q i)) (hpool : ¬ poolKey (g.key q i)) :
    (s.bpmFree p b r.owner).rd q g i = ({ s with bufs := tdel s.bufs (bufKey p b) }.cnt pgBPM BPM.BPM_CNT 1).rd q g i := by
  rw [bpmFree_owner hr, (poolView_near _).rd hside hpool, expressFree_rd _ _ hq]

/-! ### Admission on chip -/

/-- Buffer b of the frame's pool taken for queue q. -/
def State.chipTaken (s : State) (q b : Nat) (f : Frame) : State :=
  { s with
    bufs := tset s.bufs (bufKey (chipPool (some f.len)) b) { owner := q, express := s.expressOf q f.len }
    nextSlice := tset s.nextSlice (chipPool (some f.len)) ((b + 1) % 64)
    bpmUsed := true }

/-- The frame as it lies in that buffer. -/
def Frame.onChip (f : Frame) (q b : Nat) : Frame :=
  { f with queue := q, qlen := f.len, place := .chip, hold := .buffer (chipPool (some f.len)) b, cut := false }

theorem alloc_chip {s : State} {q b : Nat} {f : Frame} (hpick : s.pickBuf (chipPool (some f.len)) = some b) :
    s.alloc (chipPool (some f.len)) { owner := q, express := s.expressOf q f.len } false =
      (((s.chipTaken q b f).cnt pgBPM BPM.BPM_CNT 0).poolView, some b) := by
  simp [State.alloc, hpick, State.chipTaken]

/-- A frame stored on chip and queued: what R376 and R359 come to where nothing stands against the frame. -/
theorem admitFrame_chip {s : State} {q b : Nat} {f : Frame} (hcut : f.cut = false) (hecn : f.ecn = none) (hlen : f.len ≤ 16384)
    (hclosed : s.queueClosed q = false) (hexp : s.expressOver q f.len = false) (hadm : s.admission q f.len true = none)
    (hspill : s.wantSpill q f = false) (hpick : s.pickBuf (chipPool (some f.len)) = some b) :
    ∃ u, Near (fun k => poolKey k ∨ obsKey k) coreParts ((s.chipTaken q b f).cnt pgBPM BPM.BPM_CNT 0) u ∧
      s.admitFrame q f false = ((u.enqueue q (f.onChip q b)).expressCharge (s.expressOf q f.len)).poolView := by
  have hknown : f.known = some f.len := by simp [Frame.known, hcut]
  have hcharge : f.charge = f.len := by simp [Frame.charge, hknown]
  have hroom : ¬ bufBytes (chipPool (some f.len)) < f.len := by
    simp only [chipPool]
    repeat' split
    all_goals simp only [bufBytes]; omega
  have hplace : s.placeFrame q f (s.expressOf q f.len) false =
      (((s.chipTaken q b f).cnt pgBPM BPM.BPM_CNT 0).poolView, some (.chip, chipPool (some f.len), b)) := by
    have h16 : ¬ 16384 < f.len := by omega
    simp only [State.placeFrame, hspill, State.takeChip, hknown, if_neg h16, alloc_chip hpick, Bool.false_eq_true, if_false]
  refine ⟨(((s.chipTaken q b f).cnt pgBPM BPM.BPM_CNT 0).poolView).tracePoint f 4 0 q (admitTrace f .chip), ?_, ?_⟩
  · exact ((poolView_near _).mono fun _ h => .inl h).trans ((tracePoint_near _ _ _ _ _ _).mono fun _ h => .inr h)
  · simp only [State.admitFrame, hcharge, State.preDrop, hclosed, hexp, hadm, State.mark, hecn, hplace, State.cutThrough, hcut, State.store,
      if_neg hroom, Bool.false_and, Bool.false_eq_true, if_false, Frame.onChip]

theorem expressCharge_parts (s : State) (e : Option (Nat × Nat)) : coreParts { s.expressCharge e with police := s.police } = coreParts s := by
  cases e with
  | none => rfl
  | some e =>
    simp only [State.expressCharge]
    split <;> rfl

theorem expressCharge_rd (s : State) (e : Option (Nat × Nat)) {p : Nat} {f : Fld} {i : Nat} (h : f.key p i < pgQSU * 2097152) :
    (s.expressCharge e).rd p f i = s.rd p f i := by
  cases e with
  | none => rfl
  | some e =>
    simp only [State.expressCharge]
    split <;> exact State.rd_wr_ne _ _ (by simp +ground only [Fld.key] at *; omega)

theorem que_setQue' (s : State) (q : Nat) (x : Queue) : (s.setQue q x).que q = x := by
  simp only [State.que, State.setQue]
  split
  · next h => simp [tgetD, tget_tdel_same, h]
  · simp [tgetD, tget_tset_same]

theorem enqueue_que (s : State) (q : Nat) (f : Frame) :
    (s.enqueue q f).que q = { s.que q with frames := (s.que q).frames ++ [f], spill := (s.que q).spill || f.inHbm } := by
  simp only [State.enqueue, State.que, State.cnt, State.bump_toQdState]
  exact que_setQue' _ _ _

theorem refuseCap_onlyRegs (s : State) (p b r o : Nat) : OnlyRegs s (s.refuseCap p b r (some o)) := by
  simp only [State.refuseCap]
  split
  · exact .refl s
  · exact (((((OnlyRegs.refl s).wr ..).wr ..).wr ..).wr ..).wr ..

theorem refuseCap_cnt (s : State) (p b r o : Nat) : (s.refuseCap p b r (some o)).rd pgBPM BPM.BPM_CNT 4 = s.rd pgBPM BPM.BPM_CNT 4 := by
  simp only [State.refuseCap]
  split
  · rfl
  · simp (disch := decide) only [State.rd_wr_ne]

theorem refuseCap_live (s : State) (p b r o q : Nat) : (s.refuseCap p b r (some o)).live q = s.live q := by
  simp only [State.refuseCap]
  split
  · rfl
  · simp (disch := decide) only [State.wr_live]

theorem spillLeave_rd (s : State) (q p : Nat) (f : Fld) (i : Nat) : (s.spillLeave q).rd p f i = s.rd p f i := by
  simp only [State.spillLeave]
  split <;> rfl

theorem spillLeave_frames (s : State) (q : Nat) : ((s.spillLeave q).que q).frames = (s.que q).frames := by
  simp only [State.spillLeave]
  split
  · rw [que_setQue']
  · rfl

/-- The frame to read back lies in HBM. -/
theorem nextBack_place {x : Queue} {f : Frame} (h : x.nextBack = some f) : f.place = .hbm := by
  simp only [Queue.nextBack] at h
  split at h
  · split at h
    · next hp => exact Option.some.inj h ▸ hp
    · cases h
  · cases h

theorem firstAt_head {p : Place} {g : Frame → Frame} {l : List Frame} {f : Frame} (h : l.head? = some f) (hp : f.place = p) :
    firstAt p g l = g f :: l.tail := by
  cases l with
  | nil => cases h
  | cons a l =>
    cases h
    simp [firstAt, hp]

/-- Settles O33, clause by clause: an admitted frame takes its buffer and joins its queue, a free clears the buffer, a profile word is stored. -/
theorem buffersAndAdmission : Obligations.BuffersAndAdmission := by
  unfold Obligations.BuffersAndAdmission
  refine ⟨?_, ?_, ?_, ?_, ?_, ?_, ?_, ?_⟩
  · intro s f rest q b hhead hmc hband hon hqueue hcut hecn hlen hclosed hexp hadm hspill hpick
    obtain ⟨u, hu, hres⟩ := admitFrame_chip (s := { s with toQd := rest }) hcut hecn hlen hclosed hexp hadm hspill hpick
    have hexec : exec (.qdAdmitFrame false false) s = .next (State.admitFrame { s with toQd := rest } q f false) := by
      have hq : State.queueFor { s with toQd := rest } f false = some q := hqueue
      have ho : State.qdOn { s with toQd := rest } = true := hon
      change execQdAdmitFrame false false s = _
      simp [execQdAdmitFrame, hhead, hmc, hband, hq, ho]
    refine ⟨_, hexec, ?_⟩
    rw [hres]
    have hparts := hu.part
    simp only [coreParts, Prod.mk.injEq] at hparts
    obtain ⟨hband', hline, hpipe, hqd, hnt⟩ := hparts
    have hcharge := expressCharge_parts (u.enqueue q (f.onChip q b)) (State.expressOf { s with toQd := rest } q f.len)
    simp only [coreParts, Prod.mk.injEq] at hcharge
    obtain ⟨cband, cline, cpipe, cqd, cnt⟩ := hcharge
    obtain ⟨pband, pline, ppipe, pqd, pnt⟩ := coreParts_eq (poolView_near ((u.enqueue q (f.onChip q b)).expressCharge
      (State.expressOf { s with toQd := rest } q f.len))).part
    have hq : ∀ {α : Type} (g : QdState → α), (∀ x y, g { x with police := y } = g x) →
        g (((u.enqueue q (f.onChip q b)).expressCharge (State.expressOf { s with toQd := rest } q f.len)).poolView).toQdState =
          g (u.enqueue q (f.onChip q b)).toQdState := by
      intro α g hg
      rw [pqd, ← hg, ← hg (u.enqueue q (f.onChip q b)).toQdState]
      exact congrArg g cqd
    have hbufs : u.bufs = tset s.bufs (bufKey (chipPool (some f.len)) b) { owner := q, express := s.expressOf q f.len } := by
      have := congrArg QdState.bufs hqd
      simp only [State.chipTaken, State.bump_toQdState, State.cnt] at this
      exact this
    have hque : u.queues = s.queues := by
      have := congrArg QdState.queues hqd
      simpa [State.chipTaken] using this
    have hhbm : u.hbm = s.hbm := by
      have := congrArg QdState.hbm hqd
      simpa [State.chipTaken] using this
    have hcnt : u.rd pgADM ADM.ADM_CNT 0 = s.rd pgADM ADM.ADM_CNT 0 := by
      rw [hu.rd (by decide) (by decide), State.rd_cnt_ne _ (by decide) (by decide)]
      rfl
    refine ⟨?_, ?_, ?_, ?_, ?_, ?_, ?_, ?_⟩
    · have : (u.enqueue q (f.onChip q b)).toQd = rest := by
        simp only [State.enqueue, State.cnt, State.bump_toPipeState]
        exact (congrArg PipeState.toQd hpipe).trans (by simp [State.chipTaken])
      exact (congrArg PipeState.toQd (ppipe.trans cpipe)).trans this
    · refine (hq (fun x => (tgetD x.queues q {}).frames) fun _ _ => rfl).trans ?_
      refine (congrArg Queue.frames (enqueue_que u q (f.onChip q b))).trans ?_
      simp only [State.que, hque]
      rfl
    · refine (hq (fun x => tget x.bufs _) fun _ _ => rfl).trans ?_
      simp only [State.enqueue, State.cnt, State.bump_toQdState]
      exact (congrArg (tget · _) hbufs).trans (tget_tset_same _ _ _)
    · rw [(poolView_near _).rd (by decide) (by decide), expressCharge_rd _ _ (by decide), State.enqueue, State.rd_cnt_same _ _ _ _ (by decide)]
      rw [show (u.setQue q _).rd pgADM ADM.ADM_CNT 0 = u.rd pgADM ADM.ADM_CNT 0 from rfl, hcnt]
    · rw [pband, cband]
      simp [State.enqueue, State.setQue, hband', State.chipTaken]
    · rw [pline, cline]
      simp [State.enqueue, State.setQue, hline, State.chipTaken]
    · rw [pnt, cnt]
      simp [State.enqueue, State.setQue, hnt, State.chipTaken]
    · refine (hq (fun x => x.hbm) fun _ _ => rfl).trans ?_
      simp only [State.enqueue, State.cnt, State.bump_toQdState]
      exact hhbm
  · intro s pool buf r hbuf hstaged hpool hheld hlive
    have hcond : ¬ (r.staged = 0 ∨ pool < 4 ∨ ¬ s.live pgBRM ∨ s.spillHeld 0 pool buf) := by simp [hstaged, hlive, hheld]; omega
    change ∃ t, execSpillWriteComplete pool buf s = .next t ∧ _
    rw [execSpillWriteComplete]
    simp only [hbuf, if_neg hcond]
    refine ⟨_, rfl, ?_⟩
    generalize hx : Queue.mk _ _ _ _ _ = x
    have hframes : x.frames = markBuf pool buf (fun f => if f.place = .staged then { f with place := .hbm } else f) (s.que r.owner).frames := hx ▸ rfl
    generalize hu : State.put _ pgBRM BRM.BRIM_STS_WSTG_FULL false = u
    have hv := poolView_near u
    obtain ⟨pband, pline, ppipe, pqd, pnt⟩ := coreParts_eq hv.part
    rw [hv.rd (by decide) (by decide), pband, pline, ppipe, pnt]
    subst hu
    refine ⟨?_, ?_, ?_, rfl, rfl, rfl, rfl, ?_⟩
    · exact (congrArg (fun y : QdState => tget y.bufs (bufKey pool buf)) pqd).trans (tget_tset_same _ _ _)
    · refine (congrArg (fun y : QdState => (tgetD y.queues r.owner {}).frames) pqd).trans ?_
      exact (congrArg Queue.frames (que_setQue' _ r.owner x)).trans hframes
    · exact State.rd_wr_same _ _ _ _ _
    · exact (congrArg QdState.hbm pqd :)
  · intro s queue f hnext hhead hfirst hen hroom
    obtain ⟨x, hx⟩ : ∃ x, x = s.que queue := ⟨_, rfl⟩
    rw [← hx] at hnext hhead hfirst
    have hcond : ¬ (¬ s.enabled pgBRM ∨ ¬ x.headBack ∨
        ¬ (decide (State.backBytes x.frames + f.qlen ≤ s.admProf queue ADM.PROF_PREFETCH * 256) ||
          decide (x.frames.head? = some f)) ∨ stageBytes < s.readBack + f.qlen) := by
      simp [hen, hhead, hfirst]; omega
    change ∃ t, execBrmReadback queue s = .next t ∧ _
    rw [execBrmReadback]
    simp only [← hx, hnext, if_neg hcond]
    refine ⟨_, rfl, ?_⟩
    generalize hs1 : s.setQue queue _ = s1
    have hback : ∀ u, Near regulatorKey hbmParts s1 u →
        (u.poolView.que queue).frames = { f with place := .reading } :: x.frames.tail ∧
          u.poolView.toBandState = s.toBandState ∧ u.poolView.toLineState = s.toLineState ∧
          u.poolView.toPipeState = s.toPipeState ∧ u.poolView.nt = s.nt ∧ u.poolView.hbm = s.hbm := by
      intro u hu
      obtain ⟨pband, pline, ppipe, pqd, pnt⟩ := coreParts_eq (poolView_near u).part
      obtain ⟨hband, hline, hpipe, hnt, hhbm, hqueues, -⟩ := hbmParts_eq hu.part
      subst hs1
      refine ⟨?_, pband.trans hband, pline.trans hline, ppipe.trans hpipe, pnt.trans hnt, ?_⟩
      · have hq : (u.poolView.que queue) = (s.setQue queue { x with frames := firstAt .hbm (fun (g : Frame) => { g with place := .reading }) x.frames }).que queue := by
          simp only [State.que, pqd, hqueues]
        rw [hq, que_setQue']
        exact firstAt_head hfirst (nextBack_place hnext)
      · exact (congrArg QdState.hbm pqd).trans hhbm
    split
    · exact hback _ (hbmPost_near _ _ (by decide : 1 < 6))
    · exact hback _ (.refl s1)
  · rintro s _ p b f r hfind hlive hissued hhold hbuf rfl
    obtain ⟨x, hx⟩ : ∃ x, x = s.que r.owner := ⟨_, rfl⟩
    rw [← hx] at hfind ⊢
    have hcond : ¬ (¬ s.live pgBRM ∨ ¬ s.backIssued f) := by simp [hlive, hissued]
    change ∃ t, execReadbackComplete r.owner false s = .next t ∧ _
    rw [execReadbackComplete]
    simp only [← hx, hfind, if_neg hcond, hhold, Bool.or_false, Bool.false_eq_true, if_false]
    refine ⟨_, rfl, ?_⟩
    generalize hs1 : s.setQue r.owner _ = s1
    have hb1 : tget s1.bufs (bufKey p b) = some r := hs1 ▸ hbuf
    have hparts := bpmFree_owner_parts hb1
    simp only [coreParts, Prod.mk.injEq] at hparts
    obtain ⟨hband, hline, hpipe, hqd, hnt⟩ := hparts
    obtain ⟨pband, pline, ppipe, pqd, pnt⟩ := coreParts_eq (poolView_near (((s1.bpmFree p b r.owner).cnt pgBRM BRM.BRM_CNT 2).spillLeave r.owner)).part
    have hv := poolView_near (((s1.bpmFree p b r.owner).cnt pgBRM BRM.BRM_CNT 2).spillLeave r.owner)
    have hrd : ∀ {g : Fld} {q i : Nat}, g.key q i < pgQSU * 2097152 → ¬ sideKey (g.key q i) → ¬ poolKey (g.key q i) →
        BRM.BRM_CNT.key pgBRM 2 ≠ g.key q i →
        ((((s1.bpmFree p b r.owner).cnt pgBRM BRM.BRM_CNT 2).spillLeave r.owner).poolView).rd q g i =
          ({ s1 with bufs := tdel s1.bufs (bufKey p b) }.cnt pgBPM BPM.BPM_CNT 1).rd q g i := by
      intro g q i hlo hside hpool hne
      rw [hv.rd hside hpool, spillLeave_rd, State.rd_cnt_ne _ hside hne, bpmFree_owner_rd hb1 hlo hside hpool]
    have hrest : ∀ t : State, t.toBandState = (t.spillLeave r.owner).toBandState ∧ t.toLineState = (t.spillLeave r.owner).toLineState ∧
        t.toPipeState = (t.spillLeave r.owner).toPipeState ∧ t.nt = (t.spillLeave r.owner).nt ∧ t.hbm = (t.spillLeave r.owner).hbm ∧
        t.bufs = (t.spillLeave r.owner).bufs := by
      intro t
      simp only [State.spillLeave]
      split <;> exact ⟨rfl, rfl, rfl, rfl, rfl, rfl⟩
    obtain ⟨lband, lline, lpipe, lnt, lhbm, lbufs⟩ := hrest ((s1.bpmFree p b r.owner).cnt pgBRM BRM.BRM_CNT 2)
    rw [pband, pline, ppipe, pnt, ← lband, ← lline, ← lpipe, ← lnt]
    simp only [State.cnt_toBandState, State.cnt_toLineState, State.cnt_toPipeState, State.cnt_nt, hband, hline, hpipe, hnt]
    subst hs1
    refine ⟨?_, ?_, ?_, ?_, rfl, rfl, rfl, rfl, ?_⟩
    · refine (congrArg (fun y : QdState => tget y.bufs (bufKey p b)) pqd).trans ?_
      rw [← lbufs]
      simp only [State.cnt, State.bump_toQdState]
      exact (congrArg (fun y : QdState => tget y.bufs (bufKey p b)) hqd).trans (tget_tdel_same _ _)
    · refine (congrArg (fun y : QdState => (tgetD y.queues r.owner {}).frames) pqd).trans ?_
      refine (spillLeave_frames _ r.owner).trans ?_
      simp only [State.que, State.cnt, State.bump_toQdState]
      refine (congrArg (fun y : QdState => (tgetD y.queues r.owner {}).frames) hqd).trans ?_
      exact congrArg Queue.frames (que_setQue' s r.owner _)
    · rw [hv.rd (by decide) (by decide), spillLeave_rd, State.rd_cnt_same _ _ _ _ (by decide),
        bpmFree_owner_rd hb1 (by decide) (by decide) (by decide), State.rd_cnt_ne _ (by decide) (by decide)]
      rfl
    · rw [hrd (by decide) (by decide) (by decide) (by decide), State.rd_cnt_same _ _ _ _ (by decide)]
      rfl
    · refine (congrArg QdState.hbm pqd).trans ?_
      rw [← lhbm]
      simp only [State.cnt, State.bump_toQdState]
      exact (congrArg QdState.hbm hqd :)
  · intro s pool buf req r hpool hbufn hreq hlive hbuf howner
    refine ⟨_, congrArg Host.Outcome.next (State.gate_of_live hlive _), ?_⟩
    rw [Nat.mod_eq_of_lt hpool, Nat.mod_eq_of_lt hbufn, Nat.mod_eq_of_lt hreq, ← howner]
    have hparts := bpmFree_owner_parts hbuf
    simp only [coreParts, Prod.mk.injEq] at hparts
    obtain ⟨hband, hline, hpipe, hqd, hnt⟩ := hparts
    refine ⟨?_, ?_, ?_, hband, hline, hpipe, hnt, ?_⟩
    · exact (congrArg (fun x : QdState => tget x.bufs (bufKey pool buf)) hqd).trans (tget_tdel_same _ _)
    · rw [bpmFree_owner_rd hbuf (by decide) (by decide) (by decide), State.rd_cnt_same _ _ _ _ (by decide)]
      rfl
    · exact (congrArg QdState.queues hqd :)
    · exact (congrArg QdState.hbm hqd :)
  · intro s pool buf req r hpool hbufn hreq hlive hbuf howner
    refine ⟨_, congrArg Host.Outcome.next (State.gate_of_live hlive _), ?_⟩
    rw [Nat.mod_eq_of_lt hpool, Nat.mod_eq_of_lt hbufn, Nat.mod_eq_of_lt hreq]
    have hfree : s.bpmFree pool buf req = ((s.cnt pgBPM BPM.BPM_CNT 4).refuseCap pool buf req (some r.owner)).raise pgBPM 1 := by
      simp only [State.bpmFree, hbuf, if_neg howner]
    rw [hfree]
    obtain ⟨hband, hline, hpipe, hqd, -, -, hnt⟩ := (refuseCap_onlyRegs (s.cnt pgBPM BPM.BPM_CNT 4) pool buf req r.owner).frame
    refine ⟨?_, ?_, ?_, ?_, ?_, ?_, ?_, ?_, ?_⟩
    · simp [hqd]
    · rw [State.raise_rd _ _ _ (by decide), refuseCap_cnt, State.rd_cnt_same _ _ _ _ (by decide)]
    · refine State.raise_sets _ ?_ (by decide)
      rw [refuseCap_live, State.cnt, State.live_bump _ _ _ _ _ _ _ (by decide) (by decide) (by decide), hlive]
    · simp [hqd]
    · simp [hband]
    · simp [hline]
    · simp [hpipe]
    · simp [hnt]
    · simp [hqd]
  · intro s profile value hreach hprofile hmin
    refine ⟨_, congrArg Host.Outcome.next (State.regCmd_of_reaches hreach _ _ _), ?_⟩
    have hok : ¬ (decide (value % 2 ^ 28 < s.rd pgADM ADM.PROF_MIN_GUAR profile) = true) := by simpa using hmin
    have hwrite : s.admProfileWrite profile 0 value = s.wr pgADM ADM.PROF_Q_MAX value profile := if_neg hok
    rw [Nat.mod_eq_of_lt hprofile, hwrite, State.rd_wr_same, State.rd_wr_ne _ _ (by simp +ground only [Fld.key]; omega)]
    exact ⟨rfl, rfl, rfl, rfl, rfl, rfl, rfl, rfl, rfl⟩
  · intro s profile value hreach hprofile hmin
    refine ⟨_, congrArg Host.Outcome.next (State.regCmd_of_reaches hreach _ _ _), ?_⟩
    have hbad : s.admProfileWrite profile 0 value = s.raise pgADM 1 := if_pos (decide_eq_true hmin)
    rw [Nat.mod_eq_of_lt hprofile, hbad]
    refine ⟨?_, State.raise_sets _ hreach.1 (by decide), ?_⟩
    · refine State.raise_rd _ _ _ ⟨by decide, ?_, by decide, by decide, by decide, by decide, by decide⟩
      change 32768 + 32 * profile < 65536
      omega
    · simp

end Sys2Proof.Machine

/-! PROOFS. Multicast: a residue drop counted for a port past the last. -/

namespace Sys2Proof.Machine
set_option Elab.async false

/-- MCR in power, MCD 0 at its residue timeout with one replica for queue 0, whose level 2 node names level 1 node 261: a parent past the 256
ports, which a state may hold all the same. RESIDUE_DROP 261 would be offset 0xA28 of the MCR page, where MCR_CNT 3 is. -/
def strayPort : State :=
  { regs := tset State.reset.regs (PWR.DOM_STS_POWERED.key pgPWR (domainOf pgMCR)) 1
    ticks := 10 ^ 9
    bufs := [(0, { owner := 2 ^ 23 })]
    nodes := [(nodeKey 2 0, { words := [261] })]
    mcds := [(0, { pool := 0, buf := 0, wait := true, remain := 1, reps := [{ queue := 0, frame := {}, state := .residue }] })] }

/-- Refutes O34: on strayPort the drop is counted for port 261, which is MCR_CNT 3 again, so that the counter advances by two where the
statement asks for one. Settles O34. -/
theorem not_multicastReplicas : ¬ Obligations.MulticastReplicas := by
  rintro ⟨-, -, -, htimeout, -⟩
  obtain ⟨t, ht, -, -, hcnt, -⟩ := htimeout strayPort 0 { queue := 0, frame := {}, state := .residue } (by decide) (by decide) (by decide)
    (by decide) (by decide) (by decide) (by decide +kernel)
  have hrun : (match exec (.residueTimeout 0) strayPort with
      | .next t => t.rd pgMCR MCR.MCR_CNT 3
      | _ => 0) = 2 := by decide +kernel
  rw [ht] at hrun
  simp only [hcnt] at hrun
  exact absurd hrun (by decide)

end Sys2Proof.Machine

/-! PROOFS. Fabric links: an element's cells that a link leaving ACTIVE drops return express bytes to a port past the last. -/

namespace Sys2Proof.Machine
set_option Elab.async false

/-- A fabric element with link 0 ACTIVE and in power, one cell in its express queue, and that cell's buffer charged with one express byte of
port 253505: a port past the 256, which a buffer record may name all the same. EXP_LEVEL of that port would be offset 0x104 of page
0x0C0, where link 0 has LINK_STS. -/
def strayCharge : State :=
  { regs := [(CRWN.DEV_MODE_FABRIC.key pgCRWN 0, 1), (PWR.DOM_STS_POWERED.key pgPWR (domainOf (linkPage 0)), 1),
      (FIU.LINK_STS_STATE.key (linkPage 0) 0, lACTIVE)].foldl (fun r e => tset r e.1 e.2) State.reset.regs
    felq := [(8192, [{ bytes := [], dst := 0, express := true, buf := 0 }])]
    bufs := [(bufKey 1 0, { owner := 8192, express := some (253505, 1) })] }

/-- Refutes O36: on strayCharge the loss of lock takes link 0 DOWN, and the dropped cell's buffer, freed after it, takes one from
LINK_STS.STATE, so that the link does not end DOWN. Settles O36. -/
theorem not_fabricLinkStates : ¬ Obligations.FabricLinkStates := by
  rintro ⟨-, -, -, -, -, -, hloss, -⟩
  obtain ⟨t, ht, hdown, -⟩ := hloss strayCharge 0 (by decide) (by decide)
  have hrun : (match exec (.superframeLockLoss 0) strayCharge with
      | .next t => t.linkState 0
      | _ => lDOWN) = lDOWN - 1 := by decide +kernel
  rw [ht] at hrun
  simp only [hdown] at hrun
  exact absurd hrun (by decide)

end Sys2Proof.Machine

/-! PROOFS. Fabric control cells and data cells of an element: a cell's buffer that is charged to a port past the last. -/

namespace Sys2Proof.Machine
set_option Elab.async false

/-! ### A sound cell -/

theorem beNat_append_singleton (l : List Byte) (b : Byte) : beNat (l ++ [b]) = beNat l * 256 + b.toNat := by
  simp [beNat]

theorem beNat_append (a b : List Byte) : beNat (a ++ b) = beNat a * 256 ^ b.length + beNat b := by
  induction b using snoc_induction with
  | nil => simp [beNat]
  | append_singleton b x ih =>
    rw [← List.append_assoc, beNat_append_singleton, ih, beNat_append_singleton, List.length_append, List.length_singleton, Nat.pow_succ]
    rw [Nat.add_mul, Nat.mul_assoc, Nat.add_assoc]

theorem beNat_toBe (n v : Nat) : beNat (toBe n v) = v % 256 ^ n := by
  induction n generalizing v with
  | zero => simp [toBe, beNat, Nat.mod_one]
  | succ n ih =>
    rw [toBe, beNat_append_singleton, ih, Nat.pow_succ, Nat.mul_comm (256 ^ n), Nat.mod_mul]
    simp [byteOf, BitVec.toNat_ofNat]
    omega

theorem length_toBe (n v : Nat) : (toBe n v).length = n := by
  induction n generalizing v with
  | zero => rfl
  | succ n ih => simp [toBe, ih]

theorem crcReflBit_lt {c : Nat} (h : c < 2 ^ 32) : crcReflBit 0x82F63B78 c < 2 ^ 32 := by
  unfold crcReflBit
  split
  · exact Nat.xor_lt_two_pow (by omega) (by omega)
  · omega

theorem crc32c_lt (l : List Byte) : crc32c l < 2 ^ 32 := by
  have hbits : ∀ (k : List Nat) (c : Nat), c < 2 ^ 32 → k.foldl (fun a _ => crcReflBit 0x82F63B78 a) c < 2 ^ 32 := by
    intro k
    induction k with
    | nil => exact fun _ h => h
    | cons x k ih => exact fun c h => ih _ (crcReflBit_lt h)
  have hbytes : ∀ (l : List Byte) (c : Nat), c < 2 ^ 32 →
      l.foldl (fun a b => (List.range 8).foldl (fun a _ => crcReflBit 0x82F63B78 a) (Nat.xor a b.toNat)) c < 2 ^ 32 := by
    intro l
    induction l with
    | nil => exact fun _ h => h
    | cons b l ih => exact fun c h => ih _ (hbits _ _ (Nat.xor_lt_two_pow h (by have := b.isLt; omega)))
  exact Nat.xor_lt_two_pow (hbytes l _ (by decide)) (by decide)

theorem length_pad512 (l : List Byte) : (pad512 l).length = 512 := by
  rw [pad512, List.length_append, List.length_take, List.length_replicate]
  omega

theorem pad512_of_length {l : List Byte} (h : l.length = 512) : pad512 l = l := by
  rw [pad512, h, Nat.sub_self, List.take_of_length_le (Nat.le_of_eq h), List.replicate_zero, List.append_nil]

/-- A cell of twelve header bytes and no payload, with its CRC. -/
def emptyCell (head : List Byte) : List Byte := head ++ (toBe 4 (cellCrc head (pad512 [])) ++ pad512 [])

theorem emptyCell_take {head : List Byte} (h : head.length = 12) :
    (emptyCell head).take 16 = head ++ toBe 4 (cellCrc head (pad512 [])) := by
  rw [emptyCell, ← List.append_assoc, List.take_left' (by rw [List.length_append, h, length_toBe])]

theorem emptyCell_crc {head : List Byte} (h : head.length = 12) (p : List Byte) : cellCrc (emptyCell head) p = cellCrc head p := by
  rw [cellCrc, cellCrc, emptyCell, List.take_left' h, List.take_of_length_le (Nat.le_of_eq h)]

theorem emptyCell_good {head : List Byte} (h : head.length = 12) (htype : beAt head 0 1 / 64 ≠ 3) : cellGood (emptyCell head) = true := by
  have hpay : (emptyCell head).drop 16 = pad512 [] := by
    rw [emptyCell, ← List.append_assoc, List.drop_left' (by rw [List.length_append, h, length_toBe])]
  have hcrc : beAt (emptyCell head) 12 4 = cellCrc head (pad512 []) := by
    rw [beAt, slice, emptyCell, List.drop_left' h, List.take_left' (length_toBe _ _), beNat_toBe, Nat.mod_eq_of_lt]
    exact crc32c_lt _
  have hfirst : beAt (emptyCell head) 0 1 = beAt head 0 1 := by
    rw [beAt, beAt, slice, slice, emptyCell, List.drop_zero, List.drop_zero, List.take_append_of_le_length (by omega)]
  have hpad : pad512 (pad512 []) = pad512 [] := pad512_of_length (length_pad512 _)
  rw [cellGood, hcrc, hfirst, hpay, hpad, emptyCell_crc h]
  simp [htype]

/-! ### Control cells -/

/-- The header of a control cell that agrees to doze, from device 0. -/
def dozeHead : List Byte := [0x46, 0, 0, 0, 0, 0, 0, 0, 0, 0, 0, 0]
def dozeAck : List Byte := emptyCell dozeHead

theorem dozeAck_header : ∃ c < 2 ^ 32, beNat (dozeAck.take 16) = 0x46 * 2 ^ 120 + c := by
  refine ⟨cellCrc dozeHead (pad512 []), crc32c_lt _, ?_⟩
  rw [dozeAck, emptyCell_take rfl, beNat_append, length_toBe, beNat_toBe, Nat.mod_eq_of_lt]
  · rw [show beNat dozeHead * 256 ^ 4 = 0x46 * 2 ^ 120 by decide]
  · exact crc32c_lt _

/-- A good control cell of the awaited type is counted and acted on. -/
theorem controlIn_good {s : State} {l : Nat} {cell : List Byte} {isType : Nat → Bool} (f : State → Nat → List Byte → State)
    (hreceives : s.linkReceives l = true) (hgood : cellGood cell = true) (htype : bits (beNat (cell.take 16)) 126 2 = 1)
    (hctype : isType (bits (beNat (cell.take 16)) 120 6) = true) :
    s.controlIn l cell isType f = f (s.linkCnt l 6) (beNat (cell.take 16)) (pad512 (cell.drop 16)) := by
  rw [State.controlIn, if_neg (by simp [hreceives]), if_neg (by simp [hgood]), if_pos ⟨htype, hctype⟩]

theorem dozeAckReceive_good {s : State} {l : Nat} {cell : List Byte} (hreceives : s.linkReceives l = true) (hgood : cellGood cell = true)
    (htype : bits (beNat (cell.take 16)) 126 2 = 1) (hctype : bits (beNat (cell.take 16)) 120 6 = 6)
    (hactive : (s.linkCnt l 6).linkState l = lACTIVE ∧ (s.linkCnt l 6).lrd l FIU.LINK_CTL_DOZE = 1) :
    exec (.dozeAckReceive l cell) s = .next ((s.linkCnt l 6).dozeEnter l) := by
  change execDozeAckReceive l cell s = _
  rw [execDozeAckReceive, controlIn_good _ hreceives hgood htype (by rw [hctype]; decide), if_pos hactive]

/-- As strayCharge, link 0 with lock and receiver on, waiting for the answer to its doze request. -/
def strayDoze : State :=
  { strayCharge with
    regs := [(FIU.LINK_STS_SF_LOCK.key (linkPage 0) 0, 1), (FIU.LINK_CTL_DOZE.key (linkPage 0) 0, 1),
      (FIU.LANE_CTL_RX_EN.key (linkPage 0) 0, 1)].foldl (fun r e => tset r e.1 e.2) strayCharge.regs }

/-- Refutes O37: on strayDoze the answer takes link 0 to DOZE, and the dropped cell's buffer, freed after it, takes one from
LINK_STS.STATE, so that the link is shown ACTIVE. Settles O37. -/
theorem not_fabricControlCells : ¬ Obligations.FabricControlCells := by
  rintro ⟨-, -, -, -, -, -, -, hdoze, -⟩
  have hgood : cellGood dozeAck = true := emptyCell_good rfl (by decide)
  have hreceives : strayDoze.linkReceives 0 = true := by decide
  obtain ⟨c, hc, hheader⟩ := dozeAck_header
  have htype : bits (beNat (dozeAck.take 16)) 126 2 = 1 := by rw [hheader, bits]; omega
  have hctype : bits (beNat (dozeAck.take 16)) 120 6 = 6 := by rw [hheader, bits]; omega
  obtain ⟨t, ht, hstate, -⟩ := hdoze strayDoze 0 dozeAck hreceives hgood htype hctype (by decide) (by decide)
  have hactive : (strayDoze.linkCnt 0 6).linkState 0 = lACTIVE ∧ (strayDoze.linkCnt 0 6).lrd 0 FIU.LINK_CTL_DOZE = 1 := by decide
  rw [dozeAckReceive_good hreceives hgood htype hctype hactive] at ht
  rw [← Host.Outcome.next.inj ht] at hstate
  exact absurd hstate (by decide +kernel)

/-- An element of tier 1 whose link 0 is ACTIVE with a cell in its express queue; the cell's buffer is charged with one express byte of port
548496: EXP_LEVEL of that port would be offset 0x240 of page 0x0D2, where FEL_CNT 8 is. -/
def strayCount : State :=
  { strayCharge with
    regs := [(FIU.LANE_CTL_TX_EN.key (linkPage 0) 0, 1), (PWR.DOM_STS_POWERED.key pgPWR (domainOf pgFEL), 1),
      (COMMON.PAGE_CTL_ENABLE.key pgFEL 0, 1), (FEL.FEL_CFG_TIER.key pgFEL 0, 1), (FEL.FEL_CNT.key pgFEL 8, 5)].foldl (fun r e => tset r e.1 e.2) strayCharge.regs
    ticks := 1000
    bufs := [(bufKey 1 0, { owner := 8192, express := some (548496, 1) })] }

/-- Refutes O38: on strayCount the cell sent in its slot is counted in FEL_CNT 8, and its buffer, when it is freed, takes that count back.
Settles O38. -/
theorem not_fabricDataCells : ¬ Obligations.FabricDataCells := by
  rintro ⟨-, -, hsend, -⟩
  obtain ⟨t, ht, -, -, hcnt, -⟩ := hsend strayCount 0 { bytes := [], dst := 0, express := true, buf := 0 } [] (by decide) (by decide)
    (by decide) (by decide) (by decide) (by decide) (by decide) (by decide)
  have hrun : (match exec (.felSlotSend 0 false) strayCount with
      | .next t => t.rd pgFEL FEL.FEL_CNT 8
      | _ => 0) = 5 := by decide +kernel
  rw [ht] at hrun
  simp only [hcnt] at hrun
  exact absurd hrun (by decide)

end Sys2Proof.Machine

/-! PROOFS. PCIe functions: a hot reset while PF0 is in its function-level reset. -/

namespace Sys2Proof.Machine
set_option Elab.async false

/-- The endpoint in power with a first error held, PF0 in an FLR that began at tick 0, and VF Enable set with one VF. -/
def resettingPf0 : State :=
  { regs := [(PWR.DOM_STS_POWERED.key pgPWR (domainOf pgPCE), 1), (COMMON.FIRST_ERR_VALID.key pgPCE 0, 1)].foldl (fun r e => tset r e.1 e.2)
      State.reset.regs
    fns := [(0, { cfg := [(0x308, 1), (0x310, 1)], flr := some 0 })] }

/-- Refutes O40: a hot reset begins no second FLR of PF0 (State.flrStart, R564), so on resettingPf0 it leaves VF Enable as it is and NumVFs at
1, where the statement asks for 0. Settles O40. -/
theorem not_pcieFunctions : ¬ Obligations.PcieFunctions := by
  rintro ⟨-, -, -, -, -, -, -, -, -, -, hhot, -⟩
  obtain ⟨t, ht, -, -, -, hvfs, -⟩ := hhot resettingPf0 (by decide)
  have hrun : (match exec .pcieHotReset resettingPf0 with
      | .next t => t.numVfs
      | _ => 0) = 1 := by decide +kernel
  rw [ht] at hrun
  simp only [hvfs] at hrun
  exact absurd hrun (by decide)

end Sys2Proof.Machine

/-! PROOFS. Queue pairs: none fetches in fabric mode. -/

namespace Sys2Proof.Machine
set_option Elab.async false

/-- A device in fabric mode with the DMA page on, PF0 its own bus master, and queue pair 0 running with one TX descriptor posted and its turn
in the DWRR. -/
def fabricQueue : State :=
  { regs := [(PWR.DOM_STS_POWERED.key pgPWR (domainOf pgDMA), 1), (COMMON.PAGE_CTL_ENABLE.key pgDMA 0, 1),
      (CRWN.DEV_MODE_FABRIC.key pgCRWN 0, 1)].foldl (fun r e => tset r e.1 e.2) State.reset.regs
    fns := [(0, { cfg := [(4, 6)] })]
    qps := [(0, { owner := some (0, 0), state := 1, txTail := 1, txPhase := false, deficit := 1 })] }

/-- A descriptor of a whole frame of 64 bytes at host address 0. -/
def wholeFrame : List Nat := [0, 0, 2 ^ 14 + 64, 0, 0, 0, 0, 0]

/-- Refutes O41: the clause of an accepted run of TX descriptors does not ask for line mode, and in fabric mode no queue pair fetches (R29): on
fabricQueue the ring stays as it is. Settles O41. -/
theorem not_queuePairRings : ¬ Obligations.QueuePairRings := by
  rintro ⟨-, -, -, -, -, -, -, -, -, hfetch, -⟩
  obtain ⟨t, ht, hhead, -⟩ := hfetch fabricQueue 0 [wholeFrame] 1 _ (by decide) (by decide) (by decide) (by decide) (by decide) (by decide)
    (by decide) (by decide) (by decide) rfl (by decide +kernel) (by decide +kernel)
  have hrun : (match exec (.txDescriptorFetch 0 (some [wholeFrame])) fabricQueue with
      | .next t => (t.qp 0).txHead
      | _ => 1) = 0 := by decide +kernel
  rw [ht] at hrun
  simp only [hhead] at hrun
  exact absurd hrun (by decide)

end Sys2Proof.Machine

/-! PROOFS. Frames at the ports and in the pipelines: causes that leave a pending MSI-X vector at PF1. -/

namespace Sys2Proof.Machine
set_option Elab.async false

/-- Slot 0 receives with its link up, MAX_FRAME is past the room of the ingress hold, and page MSC0 routes its unmasked causes to
vector 0 of PF1. -/
def fullHold : State :=
  { regs := [(PWR.DOM_STS_POWERED.key pgPWR (domainOf (msc 0)), 1), (MSC.MAC_CTL_RX_EN.key (msc 0) 0, 1),
      (MSC.MAC_STS_LINK.key (msc 0) 0, 1), (MSC.MAC_CTL_MAX_FRAME.key (msc 0) 0, 4194305), (COMMON.FIRST_ERR_VALID.key (msc 0) 0, 1),
      (COMMON.INT_MASK_MASK.key (msc 0) 0, 0), (CRWN.INT_GCTL_HOST_EN.key pgCRWN 0, 1),
      (CRWN.VEC_MAP_MAP.key pgCRWN (msc 0 / 4), 0x80)].foldl (fun r e => tset r e.1 e.2) State.reset.regs }

/-- A received frame of 60 zero bytes. -/
def zeroFrame : List Byte := List.replicate 60 0

/-- Refutes O55: on fullHold a good frame finds no room, and the cause it raises sets the pending bit of the vector, which is host state.
Settles O55. -/
theorem not_portFrames : ¬ Obligations.PortFrames := by
  rintro ⟨-, -, -, hnoRoom, -⟩
  obtain ⟨t, ht, -, -, -, -, -, -, -, -, hhost⟩ := hnoRoom fullHold 0 (crc32 zeroFrame) zeroFrame [] (by decide) (by decide)
    (by decide +kernel) (by decide) (by decide) (by decide)
  have hrun : (match exec (.macRxFrame 0 .whole zeroFrame (crc32 zeroFrame) [] false) fullHold with
      | .next t => t.toHostState.fns.length
      | _ => 0) = fullHold.toHostState.fns.length + 1 := by decide +kernel
  rw [ht] at hrun
  simp only [hhost] at hrun
  exact absurd hrun (by decide)

/-- ORD enabled, with its causes routed to vector 0 of PF1, and one result in a pipeline, numbered 40,000 where its context expects 0. -/
def strayResult : State :=
  { regs := [(PWR.DOM_STS_POWERED.key pgPWR (domainOf pgORD), 1), (COMMON.PAGE_CTL_ENABLE.key pgORD 0, 1),
      (COMMON.FIRST_ERR_VALID.key pgORD 0, 1), (COMMON.INT_MASK_MASK.key pgORD 0, 0), (CRWN.INT_GCTL_HOST_EN.key pgCRWN 0, 1),
      (CRWN.VEC_MAP_MAP.key pgCRWN (pgORD / 4), 0x80808080)].foldl (fun r e => tset r e.1 e.2) State.reset.regs
    piped := [{ frame := { bytes := [], seq := 40000 }, stage := .ready, pipe := 0 }] }

/-- Refutes O56: on strayResult the result lies outside the window, and the cause it raises sets the pending bit of the vector, which is
host state. Settles O56. -/
theorem not_pipelineFrames : ¬ Obligations.PipelineFrames := by
  rintro ⟨-, -, -, -, -, -, -, -, -, -, -, -, -, -, houtside, -⟩
  obtain ⟨t, ht, -, -, -, -, -, -, hhost⟩ := houtside strayResult 0 40000 _ [] rfl rfl rfl rfl rfl (by decide) (by decide)
  have hrun : (match exec (.ordResult 0 40000) strayResult with
      | .next t => t.toHostState.fns.length
      | _ => 0) = strayResult.toHostState.fns.length + 1 := by decide +kernel
  rw [ht] at hrun
  simp only [hhost] at hrun
  exact absurd hrun (by decide)

end Sys2Proof.Machine

/-! PROOFS. Retraining of the Band: cells that waited for the Band reach the fabric element. -/

namespace Sys2Proof.Machine
set_option Elab.async false

/-- The Band retraining, with a cell that waits on the FD for the Band to carry it to the element. -/
def waitingCell : State :=
  { regs := [(PWR.DOM_STS_POWERED.key pgPWR (domainOf pgBAND), 1), (BAND.BAND_STS_RETRAINING.key pgBAND 0, 1),
      (COMMON.FIRST_ERR_VALID.key pgBAND 0, 1)].foldl (fun r e => tset r e.1 e.2) State.reset.regs
    felWait := [(256, [])] }

/-- Refutes O17: on waitingCell a retrain that succeeds lets the cell go (State.felResume, R19), and the cells that wait are part of the
queueing die's state. Settles O17. -/
theorem not_bandRetraining : ¬ Obligations.BandRetraining := by
  rintro ⟨-, -, hdone, -⟩
  obtain ⟨t, ht, -, -, -, -, -, -, hqd, -⟩ := hdone waitingCell (by decide) (by decide) rfl
  have hrun : (match exec .bandRetrainDone waitingCell with
      | .next t => t.toQdState.felWait.length
      | _ => 1) = 0 := by decide +kernel
  rw [ht] at hrun
  simp only [hqd] at hrun
  exact absurd hrun (by decide)

end Sys2Proof.Machine

/-! PROOFS. Flits of the Band: sending, receiving in order, replay. -/

namespace Sys2Proof.Machine
set_option Elab.async false

/-! ### The two directions -/

section
variable (s : State) (d : Bool) (b : BandDir)

@[simp] theorem State.bandDir_setBandDir : (s.setBandDir d b).bandDir d = b := by cases d <;> rfl
@[simp] theorem State.bandDir_setBandDir_not : (s.setBandDir (!d) b).bandDir d = s.bandDir d := by cases d <;> rfl
@[simp] theorem State.not_bandDir_setBandDir : (s.setBandDir d b).bandDir (!d) = s.bandDir (!d) := by cases d <;> rfl
theorem State.setBandDir_setBandDir (c : BandDir) : (s.setBandDir d b).setBandDir d c = s.setBandDir d c := by cases d <;> rfl

@[simp] theorem State.setBandDir_rd (p : Nat) (f : Fld) (i : Nat) : (s.setBandDir d b).rd p f i = s.rd p f i := by cases d <;> rfl
@[simp] theorem State.setBandDir_on (p : Nat) (f : Fld) (i : Nat) : (s.setBandDir d b).on p f i = s.on p f i := by cases d <;> rfl
@[simp] theorem State.setBandDir_out : (s.setBandDir d b).out = s.out := by cases d <;> rfl
@[simp] theorem State.setBandDir_regs : (s.setBandDir d b).regs = s.regs := by cases d <;> rfl
@[simp] theorem State.setBandDir_nt : (s.setBandDir d b).nt = s.nt := by cases d <;> rfl
@[simp] theorem State.setBandDir_toLineState : (s.setBandDir d b).toLineState = s.toLineState := by cases d <;> rfl
@[simp] theorem State.setBandDir_toPipeState : (s.setBandDir d b).toPipeState = s.toPipeState := by cases d <;> rfl
@[simp] theorem State.setBandDir_toQdState : (s.setBandDir d b).toQdState = s.toQdState := by cases d <;> rfl
@[simp] theorem State.setBandDir_toHostState : (s.setBandDir d b).toHostState = s.toHostState := by cases d <;> rfl
@[simp] theorem State.setBandDir_toMgmtState : (s.setBandDir d b).toMgmtState = s.toMgmtState := by cases d <;> rfl
@[simp] theorem State.bandDir_emit (o : Out) : (s.emit o).bandDir d = s.bandDir d := by cases d <;> rfl
end

theorem State.bandDir_of_band {s t : State} (h : t.toBandState = s.toBandState) (d : Bool) : t.bandDir d = s.bandDir d := by
  cases d
  · exact congrArg BandState.bandQF h
  · exact congrArg BandState.bandFQ h

/-- Messages that join a direction change its streams only. -/
theorem BandDir.accept_eq (b : BandDir) (l : List BandMsg) : b.accept l = { b with stream := (b.accept l).stream } := by
  unfold BandDir.accept
  induction l using snoc_induction with
  | nil => rfl
  | append_singleton l m ih => rw [List.foldl_append, List.foldl_cons, List.foldl_nil, ih]

theorem BandDir.accept_next (b : BandDir) (l : List BandMsg) : (b.accept l).next = b.next := by rw [b.accept_eq l]
theorem BandDir.accept_retained (b : BandDir) (l : List BandMsg) : (b.accept l).retained = b.retained := by rw [b.accept_eq l]

/-! ### Sending and receiving -/

/-- Under strict priority a direction whose VC0 waits sends from it (R16). -/
theorem State.nextVc_strict (s : State) (d : Bool) {waiting : List Nat} (hw : 0 ∈ waiting)
    (hs : s.on pgBAND BAND.BAND_CTL_VC0_STRICT = true) : s.nextVc d waiting = (s, some (0, (s.bandDir d).share)) := by
  simp [State.nextVc, hw, hs]

/-- Flits that leave in turn stand in the output, the last one first. -/
theorem State.bandEmit_foldl (d : Bool) (l : List Flit) (s : State) :
    l.foldl (fun (t : State) f => t.bandEmit d f) s = { s with out := (l.map fun f => Out.bandFlit d f.encode).reverse ++ s.out } := by
  induction l generalizing s with
  | nil => rfl
  | cons f l ih => rw [List.foldl_cons, ih]; simp [State.bandEmit, State.emit]

/-- The mismatch counter of a direction. -/
theorem State.crcErr_rd (s : State) (d : Bool) (k : Nat) :
    (s.inc pgBAND (if d then BAND.CRC_ERR_FQ else BAND.CRC_ERR_QF) k).rd pgBAND (if d then BAND.CRC_ERR_FQ else BAND.CRC_ERR_QF) =
      (s.rd pgBAND (if d then BAND.CRC_ERR_FQ else BAND.CRC_ERR_QF) + k) % 2 ^ 64 := by
  cases d <;> exact State.rd_wr_same ..

/-- Settles O16, clause by clause. -/
theorem bandFlits : Obligations.BandFlits := by
  unfold Obligations.BandFlits
  refine ⟨?_, ?_, ?_, ?_, ?_⟩
  · intro s d waiting p hlive hroom hstrict hp hne
    have hd : ((s.bandDir d).accept waiting).stream.getD 0 [] = p := by simp [List.getD, hp]
    have hready : 0 ∈ (List.range 5).filter fun v => !(((s.bandDir d).accept waiting).stream.getD v []).isEmpty := by
      simp [List.mem_filter, hp, hne]
    refine ⟨_, congrArg Host.Outcome.next (if_pos hlive), ?_⟩
    simp only [State.bandSend, State.bandDir_setBandDir, BandDir.accept_retained, Nat.not_le.2 hroom, if_false,
      State.nextVc_strict _ d hready ((State.setBandDir_on _ _ _ _ _ _).trans hstrict), hd, State.bandEmit, BandDir.accept_next]
    simp
  · intro s d waiting hlive hfull
    refine ⟨_, congrArg Host.Outcome.next (if_pos hlive), ?_⟩
    simp [State.bandSend, BandDir.accept_retained, BandDir.accept_next, hfull, State.bandBare, State.bandEmit]
  · intro s d flit hlive hgood hkind hseq
    refine ⟨_, congrArg Host.Outcome.next ((if_neg (not_not_intro hlive)).trans (if_pos hgood)), ?_⟩
    have hkeep : (s.bandDir d).discards (decodeFlit flit) = false := by
      simp [BandDir.discards, hkind, hseq, kDATA, kREPLAY]
    simp [State.bandGood, hkeep, hkind, hseq]
  · intro s d hlive hfresh
    have hpage : s.live pgBAND = true := by
      simp only [State.bandLive, Bool.and_eq_true] at hlive
      exact hlive.1
    have hlimit : ¬ s.bandLimit ≤ 0 := by simp [State.bandLimit]
    refine ⟨_, congrArg Host.Outcome.next (if_pos hlive), ?_⟩
    have hcause := State.raise_sets (s.inc pgBAND (if d then BAND.CRC_ERR_FQ else BAND.CRC_ERR_QF)) (p := pgBAND) (c := 0)
      ((State.wr_live _ _ _ (by cases d <;> decide)).trans hpage) (by decide)
    have hcount := State.crcErr_rd s d 1
    simp only [State.bandMismatch, hfresh, Bool.false_eq_true, false_and, if_false, hlimit, State.bandBare, State.bandEmit]
    refine ⟨?_, ?_, ?_, ?_, ?_⟩
    · simp
    · simpa using hcause
    · cases d <;> simp (disch := decide) [State.rd_raise] <;> exact hcount
    · simp [BandDir.lastGood]
    · simp [State.inc]
  · intro s d seq k hlive hk
    refine ⟨_, congrArg Host.Outcome.next (if_pos hlive), ?_⟩
    simp only [State.bandReplay, hk, State.bandEmit_foldl]
    refine ⟨?_, ?_, ?_⟩
    · cases d <;> rfl
    · simp [State.inc]
    · cases d <;> exact ⟨State.rd_wr_same .., rfl, rfl, rfl, rfl, rfl, rfl⟩

end Sys2Proof.Machine

/-! PROOFS. The common strobe, the local strobe and the global freeze. -/

namespace Sys2Proof.Machine
set_option Elab.async false

/-- A page that meets a strobe with SNAP_EN at 1 and HOLD at 0 latches its words (R55, R772). -/
theorem State.latchIf_latches {s : State} {p : Nat} (hlive : s.live p = true) (hen : s.on p COMMON.PAGE_CTL_SNAP_EN = true)
    (hhold : s.on p COMMON.SNAP_CTL_HOLD = false) (seq : Nat) (t : NetTime) : s.latchIf p seq t = s.latch p seq t := by
  simp [State.latchIf, hlive, hen, hhold]

theorem State.latch_seq (s : State) (p seq : Nat) (t : NetTime) :
    (s.latch p seq t).rd p COMMON.SNAP_SEQ_VALID = 1 ∧ (s.latch p seq t).rd p COMMON.SNAP_SEQ_SEQ = seq % 2 ^ 16 := by
  have h : ∀ u : State, (u.wr p COMMON.SNAP_SEQ_VALID 1).rd p COMMON.SNAP_SEQ_VALID = 1 := fun u => State.rd_wr_same ..
  have g : ∀ u : State, (u.wr p COMMON.SNAP_SEQ_SEQ seq).rd p COMMON.SNAP_SEQ_SEQ = seq % 2 ^ 16 := fun u => State.rd_wr_same ..
  constructor <;>
    simp (disch := (simp +ground only [Fld.key]; omega)) [State.latch, State.rd_wr_ne, h, g]

/-! ### The number and the time of the last strobe -/

/-- STROBE_SEQ and the tick of the last common strobe. -/
def strobeMark (s : State) : Nat × Option Nat := (s.rd pgCRWN CRWN.STROBE_SEQ_SEQ, s.strobeAt)

section
variable (s : State)

theorem strobeMark_wr {p : Nat} {f : Fld} {i : Nat} (v : Nat) (h : f.key p i ≠ CRWN.STROBE_SEQ_SEQ.key pgCRWN 0) :
    strobeMark (s.wr p f v i) = strobeMark s := by
  rw [strobeMark, strobeMark, State.rd_wr_ne _ _ h, State.wr_strobeAt]

theorem strobeMark_pmcAdd (p n k : Nat) : strobeMark (s.pmcAdd p n k).1 = strobeMark s := by
  have hpmc : COMMON.PMC.key p n ≠ CRWN.STROBE_SEQ_SEQ.key pgCRWN 0 := by simp +ground only [Fld.key]; omega
  have hovf : COMMON.PMC_SEL_OVF.key p n ≠ CRWN.STROBE_SEQ_SEQ.key pgCRWN 0 := by simp +ground only [Fld.key]; omega
  simp only [State.pmcAdd]
  split
  · exact strobeMark_wr _ _ hpmc
  · exact (strobeMark_wr _ _ hovf).trans (strobeMark_wr _ _ hpmc)

theorem strobeMark_pmcFrom (p ev k left n : Nat) (a b : Bool) : strobeMark (s.pmcFrom p ev k left n a b) = strobeMark s := by
  induction left generalizing s n a b with
  | zero => rfl
  | succ left ih =>
    have hadd : ∀ (c : Prop) [Decidable c] (m : Nat), strobeMark (if c then s.pmcAdd p n m else (s, false)).1 = strobeMark s := by
      intro c _ m
      split
      · exact strobeMark_pmcAdd _ _ _ _
      · rfl
    exact (ih _ _ _ _).trans (hadd _ _)

theorem strobeMark_pmc (p ev k : Nat) : strobeMark (s.pmc p ev k) = strobeMark s := by
  rw [State.pmc]
  split
  · rfl
  · exact strobeMark_pmcFrom _ _ _ _ _ _ _ _

theorem strobeMark_latch (p seq : Nat) (t : NetTime) : strobeMark (s.latch p seq t) = strobeMark s := by
  rw [State.latch, strobeMark_wr, strobeMark_wr, strobeMark_wr, strobeMark_wr]
  · rfl
  all_goals (simp +ground only [Fld.key]; omega)

theorem strobeMark_latchIf (p seq : Nat) (t : NetTime) : strobeMark (s.latchIf p seq t) = strobeMark s := by
  rw [State.latchIf]
  split
  · rfl
  · split
    · exact strobeMark_pmc _ _ _ _
    · exact strobeMark_latch _ _ _ _

theorem strobeMark_latchAll (l : List Nat) (seq : Nat) (t : NetTime) :
    strobeMark (l.foldl (fun (u : State) p => u.latchIf p seq t) s) = strobeMark s := by
  induction l generalizing s with
  | nil => rfl
  | cons p l ih => rw [List.foldl_cons, ih, strobeMark_latchIf]

/-- A strobe that fires advances STROBE_SEQ and notes the time (R771). -/
theorem State.fireStrobe_mark : strobeMark s.fireStrobe = ((s.rd pgCRWN CRWN.STROBE_SEQ_SEQ + 1) % 65536, some s.ticks) := by
  have hseq : strobeMark ((s.wr pgCRWN CRWN.STROBE_SEQ_SEQ ((s.rd pgCRWN CRWN.STROBE_SEQ_SEQ + 1) % 65536)).cnt pgOBS OBS.OBS_CNT 0) =
      ((s.rd pgCRWN CRWN.STROBE_SEQ_SEQ + 1) % 65536, s.strobeAt) := by
    rw [State.cnt, State.bump, strobeMark_pmc, strobeMark_wr _ _ (by decide), strobeMark, State.rd_wr_same]
    exact Prod.ext (Nat.mod_mod _ _) rfl
  have hmark : ∀ (u : State) (a : Option Nat) (d : List Nat), strobeMark { u with strobeAt := a, shadowDue := d } = ((strobeMark u).1, a) :=
    fun _ _ _ => rfl
  have hemit : ∀ (b : Bool) (u : State), strobeMark (if b then u.emit .snapOut else u) = strobeMark u := by
    intro b u
    cases b <;> rfl
  simp only [State.fireStrobe]
  generalize (s.wr pgCRWN CRWN.STROBE_SEQ_SEQ ((s.rd pgCRWN CRWN.STROBE_SEQ_SEQ + 1) % 65536)).cnt pgOBS OBS.OBS_CNT 0 = u at hseq ⊢
  rw [strobeMark_latchAll, hemit, hmark, hseq]
end

/-- With no strobe before, a request fires at once (R769). -/
theorem State.strobe_first {s : State} (h : s.strobeAt = none) : s.strobe = s.fireStrobe := by
  simp [State.strobe, h]

/-- Settles O15, clause by clause; a strobe that fires is calm (Calm.fireStrobe). -/
theorem commonStrobe : Obligations.CommonStrobe := by
  unfold Obligations.CommonStrobe
  have hfire : ∀ s : State, s.strobeAt = none →
      s.strobe.rd pgCRWN CRWN.STROBE_SEQ_SEQ = (s.rd pgCRWN CRWN.STROBE_SEQ_SEQ + 1) % 65536 ∧
      s.strobe.strobeAt = some s.ticks ∧
      s.strobe.toHostState = { s.toHostState with fns := s.strobe.fns } ∧
      s.strobe.toMgmtState = { s.toMgmtState with shadowDue := s.strobe.shadowDue } ∧
      s.strobe.toBandState = s.toBandState ∧
      s.strobe.toLineState = s.toLineState ∧
      s.strobe.toPipeState = s.toPipeState ∧
      s.strobe.toQdState = s.toQdState ∧
      s.strobe.nt = s.nt := by
    intro s hs
    rw [State.strobe_first hs]
    have h := Calm.fireStrobe s
    obtain ⟨hseq, hat⟩ := Prod.mk.inj s.fireStrobe_mark
    exact ⟨hseq, hat, h.host, h.mgmt, h.band, h.line, h.pipe, h.qd, h.nt⟩
  refine ⟨?_, ?_, ?_, ?_⟩
  · intro s page _ hreach hen hhold
    refine ⟨_, congrArg Host.Outcome.next (State.regCmd_of_reaches hreach _ _ _), ?_⟩
    rw [State.localStrobe, State.latchIf_latches hreach.1 hen hhold]
    obtain ⟨hvalid, hseq⟩ := s.latch_seq page (s.rd pgCRWN CRWN.STROBE_SEQ_SEQ) s.nt
    refine ⟨hvalid, hseq, ?_, ?_⟩
    · simp only [State.latch, State.wr_shadow]
      exact tget_tset_same ..
    · simp only [State.latch]
      generalize (snapOffsets.map _).filter _ = words
      exact ⟨rfl, rfl, rfl, rfl, rfl, rfl, rfl⟩
  · intro s hup hs
    exact ⟨_, congrArg Host.Outcome.next (if_pos hup), hfire s hs⟩
  · intro s hup hen hs
    exact ⟨_, congrArg Host.Outcome.next (if_pos ⟨hup, hen⟩), hfire s hs⟩
  · intro s v hup
    exact ⟨_, congrArg Host.Outcome.next (if_pos hup), (State.rd_wr_same ..).trans (b2n_mod _ _ (by decide)), rfl, rfl, rfl, rfl, rfl, rfl, rfl⟩

end Sys2Proof.Machine

/-! PROOFS. Rules of the service processors: roles, the state held of a processor, and log entries. -/

namespace Sys2Proof.Machine
set_option Elab.async false

/-! ### Log entries -/

section
variable (s : State) (page inst src event sev a0 a1 : Nat)

theorem State.logAppend_rd {q : Nat} {g : Fld} {j : Nat} (h : g.calmAt q j) :
    (s.logAppend page inst src event sev a0 a1).rd q g j = s.rd q g j :=
  (Calm.logAppend s page inst src event sev a0 a1).rd (not_sideKey_of_calmAt h)
@[simp] theorem State.logAppend_toBandState : (s.logAppend page inst src event sev a0 a1).toBandState = s.toBandState :=
  (Calm.logAppend s page inst src event sev a0 a1).band
@[simp] theorem State.logAppend_toLineState : (s.logAppend page inst src event sev a0 a1).toLineState = s.toLineState :=
  (Calm.logAppend s page inst src event sev a0 a1).line
@[simp] theorem State.logAppend_toPipeState : (s.logAppend page inst src event sev a0 a1).toPipeState = s.toPipeState :=
  (Calm.logAppend s page inst src event sev a0 a1).pipe
@[simp] theorem State.logAppend_toQdState : (s.logAppend page inst src event sev a0 a1).toQdState = s.toQdState :=
  (Calm.logAppend s page inst src event sev a0 a1).qd
@[simp] theorem State.logAppend_nt : (s.logAppend page inst src event sev a0 a1).nt = s.nt :=
  (Calm.logAppend s page inst src event sev a0 a1).nt
@[simp] theorem State.logAppend_ticks : (s.logAppend page inst src event sev a0 a1).ticks = s.ticks :=
  (Calm.logAppend s page inst src event sev a0 a1).ticks
theorem State.logAppend_mgmt : ∃ d, (s.logAppend page inst src event sev a0 a1).toMgmtState = { s.toMgmtState with shadowDue := d } :=
  ⟨_, (Calm.logAppend s page inst src event sev a0 a1).mgmt⟩
@[simp] theorem State.logAppend_sps : (s.logAppend page inst src event sev a0 a1).sps = s.sps := by
  obtain ⟨d, h⟩ := s.logAppend_mgmt page inst src event sev a0 a1
  rw [h]
@[simp] theorem State.logAppend_live (p : Nat) : (s.logAppend page inst src event sev a0 a1).live p = s.live p :=
  live_calm (Calm.logAppend ..) p
theorem State.cause_of_logAppend {q c : Nat} (hc : c < 16) (h : bit (s.rd q COMMON.INT_CAUSE_CAUSE) c = true) :
    bit ((s.logAppend page inst src event sev a0 a1).rd q COMMON.INT_CAUSE_CAUSE) c = true :=
  (Calm.logAppend s page inst src event sev a0 a1).causes _ _ hc h
end

section
variable (s : State) (page inst src event sev a0 a1 : Nat)

@[simp] theorem State.logAppend_flash : (s.logAppend page inst src event sev a0 a1).flash = s.flash := by
  obtain ⟨d, h⟩ := s.logAppend_mgmt page inst src event sev a0 a1
  rw [h]
@[simp] theorem State.logAppend_fellBack : (s.logAppend page inst src event sev a0 a1).fellBack = s.fellBack := by
  obtain ⟨d, h⟩ := s.logAppend_mgmt page inst src event sev a0 a1
  rw [h]
@[simp] theorem State.logAppend_trialAt : (s.logAppend page inst src event sev a0 a1).trialAt = s.trialAt := by
  obtain ⟨d, h⟩ := s.logAppend_mgmt page inst src event sev a0 a1
  rw [h]
@[simp] theorem State.logAppend_factory : (s.logAppend page inst src event sev a0 a1).factory = s.factory := by
  obtain ⟨d, h⟩ := s.logAppend_mgmt page inst src event sev a0 a1
  rw [h]
@[simp] theorem State.logAppend_eraseGen : (s.logAppend page inst src event sev a0 a1).eraseGen = s.eraseGen := by
  obtain ⟨d, h⟩ := s.logAppend_mgmt page inst src event sev a0 a1
  rw [h]
@[simp] theorem State.logAppend_challenged : (s.logAppend page inst src event sev a0 a1).challenged = s.challenged := by
  obtain ⟨d, h⟩ := s.logAppend_mgmt page inst src event sev a0 a1
  rw [h]
@[simp] theorem State.logAppend_keks : (s.logAppend page inst src event sev a0 a1).keks = s.keks := by
  rw [(Calm.logAppend s page inst src event sev a0 a1).host]
@[simp] theorem State.logAppend_ipsSas : (s.logAppend page inst src event sev a0 a1).ipsSas = s.ipsSas := by
  rw [(Calm.logAppend s page inst src event sev a0 a1).host]
end

/-! ### What the model holds of a processor -/

section
variable (s : State) (k : Nat) (x : SpState)

theorem State.sp_setSp_ne {j : Nat} (h : k ≠ j) : (s.setSp k x).sp j = s.sp j := tgetD_tset_ne _ _ _ h
theorem State.sp_of_sps {s t : State} (h : t.sps = s.sps) (k : Nat) : t.sp k = s.sp k := by rw [State.sp, h]; rfl
@[simp] theorem State.live_setSp (p : Nat) : (s.setSp k x).live p = s.live p := rfl
end

/-! ### Roles -/

theorem spPage_eq (k : Nat) : spPage k = 8 ∨ spPage k = 9 := by
  unfold spPage
  split
  · exact .inl rfl
  · exact .inr rfl
theorem ilRole_eq (k : Nat) : ilRole k = SPA.IL_STS_ROLE_A ∨ ilRole k = SPA.IL_STS_ROLE_B := by
  unfold ilRole
  split
  · exact .inl rfl
  · exact .inr rfl
theorem ilHealthy_eq (k : Nat) : ilHealthy k = SPA.IL_STS_HEALTHY_A ∨ ilHealthy k = SPA.IL_STS_HEALTHY_B := by
  unfold ilHealthy
  split
  · exact .inl rfl
  · exact .inr rfl

theorem State.setRole_only (s : State) (k r : Nat) : OnlyRegs s (s.setRole k r) := by
  rw [State.setRole]
  split
  · exact ((OnlyRegs.refl s).wr ..).wrAll ..
  · exact (((OnlyRegs.refl s).wr ..).wrAll ..).wr ..

/-- A register outside those that a role shows in reads the same. -/
theorem State.setRole_rd (s : State) (k r : Nat) {q : Nat} {g : Fld} {j : Nat} (hr : (ilRole k).key pgSPA 0 ≠ g.key q j)
    (hs : SPA.SP_STS_ROLE.key (spPage k) 0 ≠ g.key q j) (hg : SPA.SP_STS_GRANT.key (spPage k) 0 ≠ g.key q j)
    (hh : (ilHealthy k).key pgSPA 0 ≠ g.key q j) : (s.setRole k r).rd q g j = s.rd q g j := by
  have hshow : ((s.wr pgSPA (ilRole k) r).wrAll (spPage k) 0 [(SPA.SP_STS_ROLE, r), (SPA.SP_STS_GRANT, b2n (decide (r = spActive)))]).rd q g j =
      s.rd q g j := by
    simp only [State.wrAll]
    rw [State.rd_wr_ne _ _ hg, State.rd_wr_ne _ _ hs, State.rd_wr_ne _ _ hr]
  rw [State.setRole]
  split
  · exact hshow
  · rw [State.rd_wr_ne _ _ hh, hshow]

/-- The role given is the role read, and it fits its field. -/
theorem State.role_setRole (s : State) (k r : Nat) : (s.setRole k r).role k = r % 8 := by
  unfold State.setRole State.role ilRole ilHealthy spPage
  simp only [State.wrAll]
  by_cases hk : k = 0
  · simp only [hk, if_true]
    split
    · rw [State.rd_wr_ne _ _ (by decide), State.rd_wr_ne _ _ (by decide), State.rd_wr_same]; rfl
    · rw [State.rd_wr_ne _ _ (by decide), State.rd_wr_ne _ _ (by decide), State.rd_wr_ne _ _ (by decide), State.rd_wr_same]; rfl
  · simp only [hk, if_false]
    split
    · rw [State.rd_wr_ne _ _ (by decide), State.rd_wr_ne _ _ (by decide), State.rd_wr_same]; rfl
    · rw [State.rd_wr_ne _ _ (by decide), State.rd_wr_ne _ _ (by decide), State.rd_wr_ne _ _ (by decide), State.rd_wr_same]; rfl

/-- The other processor keeps its role. -/
theorem State.role_setRole_other (s : State) {k j : Nat} (r : Nat) (h : (k = 0) ≠ (j = 0)) : (s.setRole k r).role j = s.role j := by
  unfold State.role
  refine State.setRole_rd _ _ _ ?_ ?_ ?_ ?_ <;> by_cases hk : k = 0 <;> by_cases hj : j = 0 <;>
    simp [hk, hj, ilRole, ilHealthy, spPage] at h ⊢ <;> decide

/-! ### Outputs held at the start of a gap -/

/-- From s to t only registers from the CAGE page up and the lines' state change. -/
def CageUp (s t : State) : Prop :=
  ∃ r l, t = { s with regs := r, toLineState := l } ∧ ∀ k < 25165824, tget r k = tget s.regs k

namespace CageUp
variable {s t u : State}

theorem refl (s : State) : CageUp s s := ⟨s.regs, s.toLineState, rfl, fun _ _ => rfl⟩
theorem trans (h : CageUp s t) (g : CageUp t u) : CageUp s u := by
  obtain ⟨r, l, rfl, hr⟩ := h
  obtain ⟨q, m, rfl, hq⟩ := g
  exact ⟨q, m, rfl, fun k hk => (hq k hk).trans (hr k hk)⟩
theorem line (h : CageUp s t) (l : LineState) : CageUp s { t with toLineState := l } := h.trans ⟨t.regs, l, rfl, fun _ _ => rfl⟩
theorem wr (h : CageUp s t) (f : Fld) (v i : Nat) : CageUp s (t.wr pgCAGE f v i) := by
  refine h.trans ⟨_, t.toLineState, rfl, fun k hk => ?_⟩
  have hne : f.key pgCAGE i ≠ k := by
    rintro rfl
    simp only [Fld.key, pgCAGE] at hk
    omega
  split
  · exact tget_tdel_ne _ hne
  · exact tget_tset_ne _ _ hne
theorem ite {c : Prop} [Decidable c] (ht : CageUp s t) (hu : CageUp s u) : CageUp s (if c then t else u) := by
  split
  · exact ht
  · exact hu
theorem foldl {α : Type} {f : State → α → State} (hf : ∀ u x, CageUp u (f u x)) (l : List α) (s : State) : CageUp s (l.foldl f s) := by
  induction l generalizing s with
  | nil => exact refl s
  | cons a l ih => exact (hf s a).trans (ih _)
theorem rd (h : CageUp s t) {q : Nat} {g : Fld} {j : Nat} (hk : g.key q j < 25165824) : t.rd q g j = s.rd q g j := by
  obtain ⟨r, l, rfl, hr⟩ := h
  unfold State.rd tgetD
  rw [← hr _ hk]
theorem live (h : CageUp s t) (p : Nat) : t.live p = s.live p := by
  have := dom_lt p
  unfold State.live State.domOn State.on
  rw [h.rd]
  simp only [Fld.key, PWR.DOM_STS_POWERED, pgPWR]
  omega
/-- What stays beside the lines' state. -/
theorem frame (h : CageUp s t) : t.toBandState = s.toBandState ∧ t.toPipeState = s.toPipeState ∧ t.toQdState = s.toQdState ∧
    t.toHostState = s.toHostState ∧ t.toMgmtState = s.toMgmtState ∧ t.nt = s.nt ∧ t.ticks = s.ticks ∧ t.out = s.out := by
  obtain ⟨r, l, rfl, -⟩ := h
  exact ⟨rfl, rfl, rfl, rfl, rfl, rfl, rfl, rfl⟩

theorem resWords (h : CageUp s t) (m : Nat) (ws : List Nat) (k : Nat) : CageUp s (t.resWords pgCAGE CAGE.MM_RES m ws k) := by
  induction ws generalizing t k with
  | nil => exact h
  | cons w ws ih =>
    rw [State.resWords]
    exact ite (ih (h.wr ..) _) h
theorem mmResult (h : CageUp s t) (m tag st moved flags : Nat) : CageUp s (t.mmResult m tag st moved flags) := by
  simp only [State.mmResult, State.result]
  exact ((((h.resWords ..).wr ..).wr ..).wr ..).wr ..
theorem mmView (h : CageUp s t) (m : Nat) : CageUp s (t.mmView m) := by
  rw [State.mmView]
  split
  · exact (h.line _).wr ..
  · exact ((ite h (h.line _)).wr ..).wr ..
theorem mmPop (h : CageUp s t) (m : Nat) : CageUp s (t.mmPop m) := (h.line _).mmView m
theorem bringUp (h : CageUp s t) (c step : Nat) : CageUp s (t.bringUp c step) := by
  simp only [State.bringUp]
  exact ite (((h.line _).line _).mmView _) (h.line _)
theorem bringUpNext (h : CageUp s t) (q : MmCmd) (data : List Byte) (nack : Bool) : CageUp s (t.bringUpNext q data nack) := by
  simp only [State.bringUpNext]
  exact ite h (ite (h.bringUp ..) ((ite (h.line _) h).bringUp ..))
theorem mmEnd (h : CageUp s t) (m st moved flags : Nat) : CageUp s (t.mmEnd m st moved flags) := by
  rw [State.mmEnd]
  split
  · exact h
  · exact ite ((h.mmResult ..).mmPop m) ((h.mmPop m).bringUpNext ..)
theorem cagesHold (s : State) : CageUp s s.cagesHold := by
  rw [State.cagesHold]
  exact ite (((refl s).wr ..).trans (foldl (fun u m => (refl u).mmEnd ..) _ _)) (refl s)
end CageUp

/-! ### The gap begins -/

section
variable (s : State) (start : Nat)

theorem State.gapStart_rd {q : Nat} {g : Fld} {j : Nat} (hk : g.key q j < 25165824) (hs : SPA.IL_STS_SWITCHING.key pgSPA 0 ≠ g.key q j)
    (ho : SPA.IL_STS_OUT_HOLD.key pgSPA 0 ≠ g.key q j) : (s.gapStart start).rd q g j = s.rd q g j := by
  refine (CageUp.rd (CageUp.cagesHold _) hk).trans ?_
  simp only [State.wrAll]
  rw [State.rd_wr_ne _ _ ho, State.rd_wr_ne _ _ hs]
theorem State.gapStart_switching : (s.gapStart start).rd pgSPA SPA.IL_STS_SWITCHING = 1 := by
  refine (CageUp.rd (CageUp.cagesHold _) (by decide)).trans ?_
  simp only [State.wrAll]
  rw [State.rd_wr_ne _ _ (by decide), State.rd_wr_same]
  rfl
theorem State.gapStart_live (p : Nat) : (s.gapStart start).live p = s.live p := by
  refine (CageUp.live (CageUp.cagesHold _) p).trans ?_
  simp only [State.wrAll]
  rw [State.wr_live _ _ _ (by decide), State.wr_live _ _ _ (by decide)]
/-- The gap changes nothing of the state but the lines' and its own start. -/
theorem State.gapStart_only : ∃ r l n, s.gapStart start = { s with regs := r, toLineState := l, gapFrom := n } := by
  obtain ⟨r, l, h, -⟩ := CageUp.cagesHold (s.wrAll pgSPA 0 [(SPA.IL_STS_SWITCHING, 1), (SPA.IL_STS_OUT_HOLD, 1)])
  refine ⟨r, l, if s.gapFrom.isSome then s.gapFrom else some start, ?_⟩
  rw [State.gapStart, h]
  rfl
end

/-! ### Both processors restart -/

/-- A processor that is on is in BOOT. -/
def State.spReboot (s : State) (k : Nat) : State := if s.role k = spOff then s else s.spRelease k

theorem State.spRelease_only (s : State) (k : Nat) : ∃ r, s.spRelease k = { s with regs := r, sps := tset s.sps k {} } := by
  obtain ⟨r, h⟩ := s.setRole_only k spBoot
  exact ⟨r, by rw [State.spRelease, h]; rfl⟩

theorem State.spReboot_rd (s : State) (k : Nat) {q : Nat} {g : Fld} {j : Nat} (hr : (ilRole k).key pgSPA 0 ≠ g.key q j)
    (hs : SPA.SP_STS_ROLE.key (spPage k) 0 ≠ g.key q j) (hg : SPA.SP_STS_GRANT.key (spPage k) 0 ≠ g.key q j)
    (hh : (ilHealthy k).key pgSPA 0 ≠ g.key q j) : (s.spReboot k).rd q g j = s.rd q g j := by
  rw [State.spReboot]
  split
  · rfl
  · exact s.setRole_rd k spBoot hr hs hg hh
theorem State.role_spReboot (s : State) {k : Nat} (h : s.role k ≠ spOff) : (s.spReboot k).role k = spBoot := by
  rw [State.spReboot, if_neg h]
  exact s.role_setRole k spBoot
theorem State.role_spReboot_other (s : State) {k j : Nat} (h : (k = 0) ≠ (j = 0)) : (s.spReboot k).role j = s.role j := by
  rw [State.spReboot]
  split
  · rfl
  · exact s.role_setRole_other spBoot h
theorem State.spReboot_only (s : State) (k : Nat) : ∃ r l, s.spReboot k = { s with regs := r, sps := l } := by
  rw [State.spReboot]
  split
  · exact ⟨s.regs, s.sps, rfl⟩
  · obtain ⟨r, h⟩ := s.spRelease_only k
    exact ⟨r, _, h⟩

theorem State.spRestartBoth_eq (s : State) : s.spRestartBoth =
    { ((s.spReboot 0).spReboot 1).gapStart s.ticks with firstGrant := true, takeoverBy := none, takenOver := false } := by
  have hboth : [0, 1].foldl (fun (st : State) (k : Nat) => if st.role k = spOff then st else st.spRelease k) s = (s.spReboot 0).spReboot 1 := rfl
  rw [← hboth]
  rfl

/-- A register that the restart's gap shows. -/
theorem State.spRestartBoth_gap (s : State) (p : Nat) (f : Fld) (i : Nat) :
    s.spRestartBoth.rd p f i = (((s.spReboot 0).spReboot 1).gapStart s.ticks).rd p f i := by
  rw [State.spRestartBoth_eq, State.rd_parts]

section
variable (s : State)

/-- A register below the CAGE page that shows no role, health or gap reads the same. -/
theorem State.spRestartBoth_rd {q : Nat} {g : Fld} {j : Nat} (hk : g.key q j < 25165824)
    (hsts : g.key q j / 32 % 65536 ≠ 512 ∧ g.key q j / 32 % 65536 ≠ 256 ∨ g.key q j / 2097152 ≠ 8 ∧ g.key q j / 2097152 ≠ 9) :
    s.spRestartBoth.rd q g j = s.rd q g j := by
  have hne : ∀ f : Fld, f.lo < 32 → ∀ p, p = 8 ∨ p = 9 → f.off = 512 ∨ f.off = 256 → f.key p 0 ≠ g.key q j := by
    intro f hlo p hp ho
    simp only [Fld.key] at hsts ⊢
    omega
  rw [State.spRestartBoth_gap]
  refine (State.gapStart_rd _ _ hk (hne _ (by decide) _ (by decide) (by decide)) (hne _ (by decide) _ (by decide) (by decide))).trans ?_
  rw [State.spReboot_rd, State.spReboot_rd]
  all_goals exact hne _ (by decide) _ (by decide) (by decide)
theorem State.spRestartBoth_switching : s.spRestartBoth.rd pgSPA SPA.IL_STS_SWITCHING = 1 :=
  (s.spRestartBoth_gap ..).trans (State.gapStart_switching ..)
theorem State.role_spRestartBoth {k : Nat} (hk : k < 2) (h : s.role k ≠ spOff) : s.spRestartBoth.role k = spBoot := by
  have hgap : s.spRestartBoth.role k = ((s.spReboot 0).spReboot 1).role k := by
    refine (s.spRestartBoth_gap ..).trans (State.gapStart_rd _ _ ?_ ?_ ?_)
    all_goals apply of_forall_lt k hk; decide
  rw [hgap]
  obtain rfl | rfl : k = 0 ∨ k = 1 := by omega
  · rw [State.role_spReboot_other _ (by decide), State.role_spReboot _ h]
  · rw [State.role_spReboot]
    rwa [State.role_spReboot_other _ (by decide)]
/-- A restart changes nothing of the state but the lines', the processors' and the gap's. -/
theorem State.spRestartBoth_only : ∃ r l ps n, s.spRestartBoth =
    { s with regs := r, toLineState := l, sps := ps, gapFrom := n, firstGrant := true, takeoverBy := none, takenOver := false } := by
  obtain ⟨r0, l0, h0⟩ := s.spReboot_only 0
  obtain ⟨r1, l1, h1⟩ := (s.spReboot 0).spReboot_only 1
  obtain ⟨r, l, n, h⟩ := ((s.spReboot 0).spReboot 1).gapStart_only s.ticks
  exact ⟨r, l, l1, n, by rw [State.spRestartBoth_eq, h, h1, h0]⟩
end

end Sys2Proof.Machine

/-! PROOFS. Temperature readings, the thermal trip, reference clocks, PLLs and rails. -/

namespace Sys2Proof.Machine
set_option Elab.async false

/-- What a reading does to WARN, on a state that shows the reading. -/
def State.warnTo (s : State) (rise fall : Prop) [Decidable rise] [Decidable fall] : State :=
  if rise then ((s.wr pgPWR PWR.THERM_STS_WARN 1).cnt pgPWR PWR.PWR_CNT 2).raise pgPWR 1
  else if fall then s.wr pgPWR PWR.THERM_STS_WARN 0 else s

section
variable (s : State) (rise fall : Prop) [Decidable rise] [Decidable fall]

theorem State.warnTo_rd {g : Fld} {j : Nat} (h : g.calmAt pgPWR j) (hw : PWR.THERM_STS_WARN.key pgPWR 0 ≠ g.key pgPWR j)
    (hc : PWR.PWR_CNT.key pgPWR 2 ≠ g.key pgPWR j) : (s.warnTo rise fall).rd pgPWR g j = s.rd pgPWR g j := by
  rw [State.warnTo]
  split
  · rw [State.raise_rd _ _ _ h, State.cnt_rd_ne _ h hc, State.rd_wr_ne _ _ hw]
  · split
    · rw [State.rd_wr_ne _ _ hw]
    · rfl
theorem State.warnTo_core : coreParts (s.warnTo rise fall) = coreParts s := by
  rw [State.warnTo]
  split
  · simp [coreParts]
  · split <;> rfl
end

/-- A reading as the registers and their maxima show it. -/
def State.tempShown (s : State) (fd qd : Nat) : State :=
  ((s.wrAll pgPWR 0 [(PWR.TEMP_FD_C, fd), (PWR.TEMP_QD_C, qd)]).peak pgPWR PWR.TEMP_PEAK_FD_C (fd % 256)).peak pgPWR PWR.TEMP_PEAK_QD_C (qd % 256)

section
variable (s : State) (fd qd : Nat)

theorem State.tempShown_only : OnlyRegs s (s.tempShown fd qd) := (((OnlyRegs.refl s).wrAll ..).peak ..).peak ..
theorem State.tempShown_fd : (s.tempShown fd qd).rd pgPWR PWR.TEMP_FD_C = fd % 256 := by
  rw [State.tempShown, State.peak_rd_ne _ _ (by decide), State.peak_rd_ne _ _ (by decide)]
  simp only [State.wrAll]
  rw [State.rd_wr_ne _ _ (by decide), State.rd_wr_same]
  rfl
theorem State.tempShown_qd : (s.tempShown fd qd).rd pgPWR PWR.TEMP_QD_C = qd % 256 := by
  rw [State.tempShown, State.peak_rd_ne _ _ (by decide), State.peak_rd_ne _ _ (by decide)]
  simp only [State.wrAll]
  rw [State.rd_wr_same]
  rfl

theorem execThermRead_cool (hgood : s.pwrgood = true) (hcool : max (fd % 256) (qd % 256) < s.rd pgPWR PWR.THERM_CFG_TJ_TRIP) :
    execThermRead fd qd s = .next ((s.tempShown fd qd).warnTo
      (¬ s.on pgPWR PWR.THERM_STS_WARN = true ∧ s.rd pgPWR PWR.THERM_CFG_TJ_WARN < max (fd % 256) (qd % 256))
      (s.on pgPWR PWR.THERM_STS_WARN = true ∧ max (fd % 256) (qd % 256) + 5 ≤ s.rd pgPWR PWR.THERM_CFG_TJ_WARN)) :=
  congrArg Host.Outcome.next ((if_neg (not_not_intro hgood)).trans (if_neg fun h => Nat.not_le.2 hcool h.1))
end

/-- What a reading below 105 does to DOUBLED of its stack. -/
def State.doubledTo (s : State) (p : Nat) (up down : Prop) [Decidable up] [Decidable down] : State :=
  if up then (s.wr p HBC.STACK_STS_DOUBLED 1).raise p 4 else if down then s.wr p HBC.STACK_STS_DOUBLED 0 else s

section
variable (s : State) (p : Nat) (up down : Prop) [Decidable up] [Decidable down]

theorem State.doubledTo_rd {g : Fld} {j : Nat} (h : g.calmAt p j) (hd : HBC.STACK_STS_DOUBLED.key p 0 ≠ g.key p j) :
    (s.doubledTo p up down).rd p g j = s.rd p g j := by
  rw [State.doubledTo]
  split
  · rw [State.raise_rd _ _ _ h, State.rd_wr_ne _ _ hd]
  · split
    · rw [State.rd_wr_ne _ _ hd]
    · rfl
theorem State.doubledTo_core : coreParts (s.doubledTo p up down) = coreParts s := by
  rw [State.doubledTo]
  split
  · simp [coreParts]
  · split <;> rfl
@[simp] theorem State.doubledTo_toBandState : (s.doubledTo p up down).toBandState = s.toBandState := (coreParts_eq (s.doubledTo_core p up down)).1
@[simp] theorem State.doubledTo_toLineState : (s.doubledTo p up down).toLineState = s.toLineState := (coreParts_eq (s.doubledTo_core p up down)).2.1
@[simp] theorem State.doubledTo_toPipeState : (s.doubledTo p up down).toPipeState = s.toPipeState :=
  (coreParts_eq (s.doubledTo_core p up down)).2.2.1
@[simp] theorem State.doubledTo_nt : (s.doubledTo p up down).nt = s.nt := (coreParts_eq (s.doubledTo_core p up down)).2.2.2.2
end

/-- The power of a page is read in DOM_STS alone. -/
theorem State.live_of_powered {s t : State} (h : ∀ d < 32, t.rd pgPWR PWR.DOM_STS_POWERED d = s.rd pgPWR PWR.DOM_STS_POWERED d) (p : Nat) :
    t.live p = s.live p := by
  simp only [State.live, State.domOn, State.on, h _ (dom_lt p)]

/-- A reading below 105 of a stack that runs. -/
theorem execHbmTempRead_cool (s : State) {stack temp : Nat} (hstack : stack < 4) (hlive : s.live (pgHBC stack) = true) (htemp : temp < 105) :
    execHbmTempRead stack temp s = .next (({ (s.wr (pgHBC stack) HBC.STACK_STS_TEMP_C temp).put (pgHBC stack) HBC.STACK_STS_TRIP false with
        hbmTripAt := tdel s.hbmTripAt stack } : State).doubledTo (pgHBC stack)
      ((decide (s.rd (pgHBC stack) HBC.REFRESH_CFG_TEMP_HI_C < temp) || s.on (pgHBC stack) HBC.REFRESH_CFG_FORCE_2X || false) = true ∧
        ¬ s.on (pgHBC stack) HBC.STACK_STS_DOUBLED = true)
      ((decide (temp ≤ s.rd (pgHBC stack) HBC.REFRESH_CFG_TEMP_LO_C) && !s.on (pgHBC stack) HBC.REFRESH_CFG_FORCE_2X && !false) = true)) := by
  have htrip : decide (105 ≤ temp) = false := decide_eq_false (by omega)
  simp only [execHbmTempRead, hlive, show ¬ 4 ≤ stack by omega, htrip, Bool.false_and, Bool.false_eq_true, if_false, not_true_eq_false, or_self,
    State.doubledTo]

/-- A trip shows TRIPPED, also during start-up. -/
theorem State.thermTrip_tripped (s : State) : s.thermTrip.rd pgPWR PWR.THERM_STS_TRIPPED = 1 := by
  unfold State.thermTrip
  extract_lets s1 keep s2 s3 s4
  have hshown : s4.rd pgPWR PWR.THERM_STS_TRIPPED = 1 := by
    rw [State.raise_rd _ _ _ (by decide), State.cnt_rd_ne _ (by decide) (by decide)]
    simp only [s3, State.wrAll]
    rw [State.rd_wr_ne _ _ (by decide), State.rd_wr_ne _ _ (by decide), State.rd_wr_same]
    rfl
  split
  · exact hshown
  · rw [State.startFail, State.raise_rd _ _ _ (by decide), State.rd_wr_ne _ _ (by decide), hshown]

theorem refOk_calm (ref : Nat) : (refOk ref).calmAt pgCLK 0 ∧ 0 < (refOk ref).w := by
  unfold refOk
  split
  · decide
  · split <;> decide
theorem refOk_ne_ppm (ref : Nat) (h : ref < 3) : (refOk ref).key pgCLK 0 ≠ CLK.REF_PPM_PPM.key pgCLK ref := by
  apply of_forall_lt ref h; decide

/-- Settles O19, clause by clause. -/
theorem temperatureAndClocks : Obligations.TemperatureAndClocks := by
  unfold Obligations.TemperatureAndClocks
  refine ⟨?_, ?_, ?_, ?_, ?_, ?_, ?_, ?_, ?_⟩
  · intro s fd qd hgood hcool
    obtain ⟨hband, hline, hpipe, hqdp, -, -, hnt⟩ := (s.tempShown_only fd qd).frame
    obtain ⟨wband, wline, wpipe, wqd, wnt⟩ := coreParts_eq (State.warnTo_core (s.tempShown fd qd)
      (¬ s.on pgPWR PWR.THERM_STS_WARN = true ∧ s.rd pgPWR PWR.THERM_CFG_TJ_WARN < max (fd % 256) (qd % 256))
      (s.on pgPWR PWR.THERM_STS_WARN = true ∧ max (fd % 256) (qd % 256) + 5 ≤ s.rd pgPWR PWR.THERM_CFG_TJ_WARN))
    refine ⟨_, execThermRead_cool s fd qd hgood hcool, ?_, ?_, wband.trans hband, wline.trans hline, wpipe.trans hpipe, wqd.trans hqdp, wnt.trans hnt⟩
    · rw [State.warnTo_rd _ _ _ (by decide) (by decide) (by decide), State.tempShown_fd]
    · rw [State.warnTo_rd _ _ _ (by decide) (by decide) (by decide), State.tempShown_qd]
  · intro s stack temp hstack hlive htemp
    have hplace : Fld.calmAt HBC.STACK_STS_TEMP_C (pgHBC stack) 0 ∧ Fld.calmAt HBC.STACK_STS_TRIP (pgHBC stack) 0 ∧
        HBC.STACK_STS_DOUBLED.key (pgHBC stack) 0 ≠ HBC.STACK_STS_TEMP_C.key (pgHBC stack) 0 ∧
        HBC.STACK_STS_DOUBLED.key (pgHBC stack) 0 ≠ HBC.STACK_STS_TRIP.key (pgHBC stack) 0 ∧
        HBC.STACK_STS_TRIP.key (pgHBC stack) 0 ≠ HBC.STACK_STS_TEMP_C.key (pgHBC stack) 0 := by
      apply of_forall_lt stack hstack; decide
    obtain ⟨htc, htr, hdt, hdr, hne⟩ := hplace
    refine ⟨_, execHbmTempRead_cool s hstack hlive htemp, ?_, ?_, ?_⟩
    · rw [State.doubledTo_rd _ _ _ _ htc hdt, State.rd_parts, State.put, State.rd_wr_ne _ _ hne, State.rd_wr_same]
    · rw [State.doubledTo_rd _ _ _ _ htr hdr, State.rd_parts, State.put, State.rd_wr_same]
      rfl
    · simp [State.put]
  · intro s hact hgap hnot hold
    exact ⟨_, congrArg Host.Outcome.next (if_pos ⟨hact, by simp [hgap], by simp [hnot], hold⟩), s.thermTrip_tripped⟩
  · intro s hok hlive
    refine ⟨_, congrArg Host.Outcome.next (if_pos hok), ?_, State.raise_sets _ ((State.wr_live _ _ _ (by decide)).trans hlive) (by decide), ?_⟩
    · exact (State.raise_rd _ _ _ (by decide)).trans (State.rd_wr_same ..)
    · simp
  · intro s hstep
    refine ⟨_, congrArg Host.Outcome.next (if_pos hstep), State.rd_wr_same .., ?_⟩
    simp
  · intro s ref ppm href
    obtain ⟨hcalm, hwidth⟩ := refOk_calm ref
    refine ⟨_, congrArg Host.Outcome.next (if_neg (by omega)), ?_, ?_, ?_⟩
    · rw [State.raiseIf_rd _ _ _ _ (by apply of_forall_lt ref href; decide), State.put, State.rd_wr_ne _ _ (refOk_ne_ppm ref href), State.rd_wr_same]
      rfl
    · rw [State.raiseIf_rd _ _ _ _ hcalm, State.put, State.rd_wr_same, b2n_mod _ _ hwidth, ← decide_not]
      simp only [Nat.not_lt]
    · simp [State.put]
  · intro s pll hpll hlive hlocked
    refine ⟨_, congrArg Host.Outcome.next (if_pos ⟨hpll, hlocked⟩), ?_, State.raise_sets _ ?_ (by decide), ?_⟩
    · rw [State.raise_rd _ _ _ (by decide), State.rd_wr_ne _ _ (by decide), State.rd_wr_same]
    · rw [State.wr_live _ _ _ (by decide), State.wr_live _ _ _ (by decide), hlive]
    · simp
  · intro s pll hpll hlive hlost hmay
    refine ⟨_, congrArg Host.Outcome.next (if_pos ⟨hpll, by simp [hlost], hmay⟩), ?_,
      State.raise_sets _ ((State.wr_live _ _ _ (by decide)).trans hlive) (by decide), ?_⟩
    · rw [State.raise_rd _ _ _ (by decide), State.rd_wr_same]
    · simp
  · intro s rail hrail hgood hlive
    refine ⟨_, congrArg Host.Outcome.next (if_pos ⟨hrail, hgood⟩), ?_, State.raise_sets _ ?_ (by decide), ?_⟩
    · rw [State.raise_rd _ _ _ (by decide), State.cnt_rd_ne _ (by decide) (by decide), State.rd_wr_same]
    · refine (State.live_of_powered (fun d hd => ?_) pgPWR).trans hlive
      have hplace : Fld.calmAt PWR.DOM_STS_POWERED pgPWR d ∧ PWR.PWR_CNT.key pgPWR 4 ≠ PWR.DOM_STS_POWERED.key pgPWR d ∧
          PWR.RAIL_STS_IN_REG.key pgPWR 0 ≠ PWR.DOM_STS_POWERED.key pgPWR d := by
        apply of_forall_lt d hd; decide
      rw [State.cnt_rd_ne _ hplace.1 hplace.2.1, State.rd_wr_ne _ _ hplace.2.2]
    · simp

end Sys2Proof.Machine

/-! PROOFS. Health of the service processors: the end of the state copy, posts of the health word, Gauntlet steps and fail-safe fans. -/

namespace Sys2Proof.Machine
set_option Elab.async false

/-- Under the fail-safe, an enabled output is driven at the fail-safe duty. -/
theorem State.fanOut_failsafe {s : State} (h : s.failsafe = true) (k : Nat) :
    ((s.fanOut k).map fun d => (s.rd pgSPA SPA.FAN_CFG_PWM_HZ, d)) =
      if s.on pgSPA SPA.FAN_DUTY_EN k then some (s.rd pgSPA SPA.FAN_CFG_PWM_HZ, s.rd pgSPA SPA.FAN_CFG_FAILSAFE_DUTY) else none := by
  simp only [State.fanOut, h, if_true]
  split <;> rfl

/-- Every fan output driven is in the output. -/
theorem fan_mem_fansPut (s : State) {k : Nat} (h : k < 4) :
    Out.fan k ((s.fanOut k).map fun d => (s.rd pgSPA SPA.FAN_CFG_PWM_HZ, d)) ∈ s.fansPut.out := by
  simp only [State.fansPut, List.range, List.range.loop, List.foldl, State.fanPut, State.emit_out, State.rd_emit]
  obtain rfl | rfl | rfl | rfl : k = 0 ∨ k = 1 ∨ k = 2 ∨ k = 3 := by omega
  all_goals simp [State.fanOut]

section
variable (s : State) (k : Nat) (b : Bool)

theorem State.healthyTo_rd {q : Nat} {g : Fld} {j : Nat} (h : g.calmAt q j) (hne : (ilHealthy k).key pgSPA 0 ≠ g.key q j) :
    (s.healthyTo k b).rd q g j = s.rd q g j := by
  rw [State.healthyTo, State.raiseIf_rd _ _ _ _ h, State.put, State.rd_wr_ne _ _ hne]

theorem State.healthyTo_healthy : (s.healthyTo k b).rd pgSPA (ilHealthy k) = b2n b := by
  obtain h | h := ilHealthy_eq k <;>
    rw [State.healthyTo, h, State.raiseIf_rd _ _ _ _ (by decide), State.put, State.rd_wr_same, b2n_mod _ _ (by decide)]

theorem State.healthyTo_cause (hlive : s.live pgSPA = true) (h : s.on pgSPA (ilHealthy k) = true) :
    bit ((s.healthyTo k false).rd pgSPA COMMON.INT_CAUSE_CAUSE) 2 = true := by
  rw [State.healthyTo, h, State.put]
  refine State.raise_sets _ ((State.wr_live _ _ _ ?_).trans hlive) (by decide)
  obtain h | h := ilHealthy_eq k <;> rw [h] <;> decide

theorem State.healthyTo_core : coreParts (s.healthyTo k b) = coreParts s :=
  coreParts_calm (s := s.put pgSPA (ilHealthy k) b) (Calm.raiseIf _ _ _ _)

@[simp] theorem State.healthyTo_sps : (s.healthyTo k b).sps = s.sps := by
  simp [State.healthyTo, State.put]
@[simp] theorem State.healthyTo_toBandState : (s.healthyTo k b).toBandState = s.toBandState := (coreParts_eq (s.healthyTo_core k b)).1
@[simp] theorem State.healthyTo_toLineState : (s.healthyTo k b).toLineState = s.toLineState := (coreParts_eq (s.healthyTo_core k b)).2.1
@[simp] theorem State.healthyTo_toPipeState : (s.healthyTo k b).toPipeState = s.toPipeState := (coreParts_eq (s.healthyTo_core k b)).2.2.1
@[simp] theorem State.healthyTo_toQdState : (s.healthyTo k b).toQdState = s.toQdState := (coreParts_eq (s.healthyTo_core k b)).2.2.2.1
@[simp] theorem State.healthyTo_nt : (s.healthyTo k b).nt = s.nt := (coreParts_eq (s.healthyTo_core k b)).2.2.2.2

theorem State.healthPost_core (p j v n : Nat) (f g : Fld) (x : SpState) :
    coreParts ((((s.wr p f v).cnt p g n).setSp j x).healthyTo k b) = coreParts s := by
  simp [coreParts]

theorem execSpHealthPost_eq {sp : Nat} (hsp : sp < 2) (hlive : s.live (spPage sp) = true) (hwaits : s.spWaits sp = true) :
    execSpHealthPost sp s = .next ((((s.wr (spPage sp) SPA.HEALTH_WORD (s.healthWord sp)).cnt (spPage sp) SPA.SP_CNT 1).setSp sp
      { s.sp sp with postAt := some s.ticks, healthyAt := if (s.sp sp).okBits = 0x1FF then some s.ticks else (s.sp sp).healthyAt }).healthyTo sp
        (decide ((s.sp sp).okBits = 0x1FF))) := by
  simp only [execSpHealthPost, hsp, hlive, hwaits, and_self, if_true, decide_eq_true_eq]

/-- The state at the end of a Gauntlet step, before a failure is recorded. -/
def State.gauntletEnd (s : State) (k : Nat) (passed : Bool) : State :=
  let s1 := s.setSp k ({ s.sp k with okBits := putBit (s.sp k).okBits ((s.sp k).step - 1) passed }).advance
  if (s.sp k).step = 9 then s1.cnt (spPage k) SPA.SP_CNT 2 else s1

theorem State.gauntletEnd_core : coreParts (s.gauntletEnd k b) = coreParts s := by
  rw [State.gauntletEnd]
  split <;> simp [coreParts]
theorem State.gauntletEnd_toHostState : (s.gauntletEnd k b).toHostState = s.toHostState := by
  rw [State.gauntletEnd]
  split <;> simp
theorem State.gauntletEnd_sp :
    (s.gauntletEnd k b).sp k = ({ s.sp k with okBits := putBit (s.sp k).okBits ((s.sp k).step - 1) b }).advance := by
  rw [State.gauntletEnd]
  split
  · exact (State.sp_of_sps (congrArg MgmtState.sps (State.cnt_toMgmtState ..)) k).trans (State.sp_setSp ..)
  · exact State.sp_setSp ..
theorem State.gauntletEnd_cnt (h : (s.sp k).step = 9) (hc : Fld.calmAt SPA.SP_CNT (spPage k) 2) :
    (s.gauntletEnd k b).rd (spPage k) SPA.SP_CNT 2 = (s.rd (spPage k) SPA.SP_CNT 2 + 1) % 2 ^ 64 := by
  rw [State.gauntletEnd, if_pos h, State.cnt, State.bump_rd_same _ _ _ hc, State.setSp_rd]
  rfl
theorem State.gauntletEnd_rd {q : Nat} {g : Fld} {j : Nat} (h : g.calmAt q j) (hne : SPA.SP_CNT.key (spPage k) 2 ≠ g.key q j) :
    (s.gauntletEnd k b).rd q g j = s.rd q g j := by
  rw [State.gauntletEnd]
  split
  · rw [State.cnt_rd_ne _ h hne, State.setSp_rd]
  · rfl
theorem State.gauntletEnd_live (p : Nat) : (s.gauntletEnd k b).live p = s.live p := by
  have hp : spPage k ≠ pgPWR := by
    obtain h | h := spPage_eq k <;> rw [h] <;> decide
  rw [State.gauntletEnd]
  split
  · rw [State.cnt, State.live_bump _ _ _ _ _ _ _ (by decide) (by decide) hp, State.live_setSp]
  · rw [State.live_setSp]

theorem execGauntletStep_eq {sp : Nat} (hsp : sp < 2) (hlive : s.live (spPage sp) = true) (hwaits : s.spWaits sp = true)
    (hgap : s.on pgSPA SPA.IL_STS_SWITCHING = false) :
    execGauntletStep sp b s = .next (if b then s.gauntletEnd sp b
      else (((s.gauntletEnd sp b).cnt (spPage sp) SPA.SP_CNT 3).raise (spPage sp) 3).logAppend (pageCode (if sp = 0 then .spa else .spb)) 0
        (1 + sp) 0x2002 0 (s.sp sp).step (s.rd (spPage sp) SPA.HEALTH_WORD)) := by
  simp only [execGauntletStep, hsp, hlive, hwaits, hgap, State.gauntletEnd, Bool.false_eq_true, not_false_eq_true, and_self, if_true]
end

/-- Settles O51, clause by clause. -/
theorem serviceProcessorHealth : Obligations.ServiceProcessorHealth := by
  unfold Obligations.ServiceProcessorHealth
  refine ⟨?_, ?_, ?_, ?_, ?_, ?_⟩
  · intro s sp hsp hrole hpass
    obtain ⟨hband, hline, hpipe, hqd, hhost, hmgmt, hnt⟩ := (s.setRole_only sp spStandby).frame
    exact ⟨_, congrArg Host.Outcome.next (if_pos ⟨hsp, hrole, hpass⟩), s.role_setRole sp spStandby, by rw [hmgmt], hband, hpipe, hqd, hnt,
      hline, hhost, hmgmt⟩
  · intro s sp hsp hlive hwaits hspa
    have hplace : Fld.calmAt SPA.HEALTH_WORD (spPage sp) 0 ∧ Fld.calmAt SPA.SP_CNT (spPage sp) 1 ∧ SPA.SP_CNT.key (spPage sp) 1 ≠
        SPA.HEALTH_WORD.key (spPage sp) 0 ∧ (ilHealthy sp).key pgSPA 0 ≠ SPA.HEALTH_WORD.key (spPage sp) 0 ∧
        (ilHealthy sp).key pgSPA 0 ≠ SPA.SP_CNT.key (spPage sp) 1 := by
      apply of_forall_lt sp hsp; decide
    obtain ⟨hword, hcnt, hne, hhw, hhc⟩ := hplace
    refine ⟨_, execSpHealthPost_eq s hsp hlive hwaits, ?_, ?_, State.healthyTo_healthy .., ?_, ?_⟩
    · rw [State.healthyTo_rd _ _ _ hword hhw, State.setSp_rd, State.cnt_rd_ne _ hword hne, State.rd_wr_same]
      rfl
    · rw [State.sp_of_sps (State.healthyTo_sps ..), State.sp_setSp]
    · rw [State.healthyTo_rd _ _ _ hcnt hhc, State.setSp_rd, State.cnt, State.bump_rd_same _ _ _ hcnt, State.rd_wr_ne _ _ hne.symm]
      rfl
    · obtain ⟨hband, hline, hpipe, hqd, hnt⟩ := coreParts_eq (State.healthPost_core s sp _ _ _ _ _ _ _ _)
      exact ⟨hband, hpipe, hqd, hnt, hline⟩
  · intro s sp n hspa hsp hpost hwaits hold
    have hrun : execSpHealthStale sp s = .next (s.healthyTo sp false) := by
      simp only [execSpHealthStale, hpost, hsp, hwaits, hold, and_self, if_true]
    exact ⟨s.healthyTo sp false, hrun, s.healthyTo_healthy sp false, s.healthyTo_cause sp hspa, by simp⟩
  · intro s sp hsp hlive hwaits hgap
    have hcnt : Fld.calmAt SPA.SP_CNT (spPage sp) 2 := by apply of_forall_lt sp hsp; decide
    obtain ⟨hband, hline, hpipe, hqd, hnt⟩ := coreParts_eq (s.gauntletEnd_core sp true)
    exact ⟨_, execGauntletStep_eq s true hsp hlive hwaits hgap, s.gauntletEnd_sp sp true, (s.gauntletEnd_cnt sp true · hcnt), hband, hpipe, hqd, hnt,
      hline, s.gauntletEnd_toHostState sp true⟩
  · intro s sp hsp hlive hwaits hgap
    have hplace : Fld.calmAt SPA.SP_CNT (spPage sp) 3 ∧ SPA.SP_CNT.key (spPage sp) 2 ≠ SPA.SP_CNT.key (spPage sp) 3 ∧ spPage sp ≠ pgPWR := by
      apply of_forall_lt sp hsp; decide
    obtain ⟨hcnt, hne, hpwr⟩ := hplace
    obtain ⟨hband, hline, hpipe, hqd, hnt⟩ := coreParts_eq (s.gauntletEnd_core sp false)
    refine ⟨_, execGauntletStep_eq s false hsp hlive hwaits hgap, ?_, ?_, State.cause_of_logAppend _ _ _ _ _ _ _ _ (by decide) ?_, ?_⟩
    · rw [← s.gauntletEnd_sp sp false]
      exact State.sp_of_sps (by simp) sp
    · simp only [Bool.false_eq_true, if_false]
      rw [State.logAppend_rd _ _ _ _ _ _ _ _ hcnt, State.raise_rd _ _ _ hcnt, State.cnt, State.bump_rd_same _ _ _ hcnt,
        State.gauntletEnd_rd _ _ _ hcnt hne]
      rfl
    · exact State.raise_sets _ ((State.live_bump _ _ _ _ _ _ _ (by decide) (by decide) hpwr).trans ((State.gauntletEnd_live ..).trans hlive)) (by decide)
    · simp [hband, hpipe, hqd, hnt, hline]
  · intro s n hno hold hsafe
    have hrun : execFailsafeFan s = .next { s with failsafe := true }.fansPut := by
      simp only [execFailsafeFan, hno, hold, hsafe, Bool.false_eq_true, not_false_eq_true, and_self, if_true]
    refine ⟨_, hrun, rfl, fun k hk => ?_, rfl, rfl, rfl, rfl, rfl, rfl⟩
    have hmem := fan_mem_fansPut { s with failsafe := true } hk
    rwa [State.fanOut_failsafe rfl] at hmem

end Sys2Proof.Machine

/-! PROOFS. The cage state machine: what each event does to an enabled cage outside a switchover gap. -/

namespace Sys2Proof.Machine
set_option Elab.async false

/-! ### What a change of a cage leaves alone -/

/-- The pipelines, the queueing die and network time. -/
def State.offCage (s : State) : PipeState × QdState × NetTime := (s.toPipeState, s.toQdState, s.nt)

theorem State.offCage_eq {s t : State} (h : t.offCage = s.offCage) :
    t.toPipeState = s.toPipeState ∧ t.toQdState = s.toQdState ∧ t.nt = s.nt := by
  simpa only [State.offCage, Prod.mk.injEq] using h

section
variable (s : State) (c st : Nat)

theorem cageEnter_offCage : (s.cageEnter c st).offCage = s.offCage := by
  obtain ⟨-, -, hpipe, hqd, hnt⟩ := cageEnter_parts s c st
  simp only [State.offCage, hpipe, hqd, hnt]
theorem cagePresent_offCage (b : Bool) : (s.cagePresent c b).offCage = s.offCage := by
  obtain ⟨r, h⟩ := cageBit_parts (s.put pgCAGE CAGE.CAGE_STS_PRESENT b c) CAGE.PRES_LO_PRESENT CAGE.PRES_HI_PRESENT c b
  rw [State.cagePresent, h]
  rfl
theorem cageDebounce_offCage : (s.cageDebounce c).offCage = s.offCage := cageEnter_offCage ..
theorem cageReady_offCage : (s.cageReady c).offCage = s.offCage := cageEnter_offCage ..
theorem mmView_offCage (m : Nat) : (s.mmView m).offCage = s.offCage := by
  rw [State.mmView]
  split
  · rfl
  · split <;> rfl
theorem bringUp_offCage (n : Nat) : (s.bringUp c n).offCage = s.offCage := by
  simp only [State.bringUp]
  split
  · exact mmView_offCage ..
  · rfl
theorem cageInit_offCage : (s.cageInit c).offCage = s.offCage := by
  simp only [State.cageInit]
  split
  · exact (bringUp_offCage ..).trans ((mmView_offCage ..).trans (cageEnter_offCage ..))
  · exact cageEnter_offCage ..
end

/-! ### Presence and readiness -/

section
variable (s : State) (c : Nat)

theorem cagePresent_shows (b : Bool) (hc : c < 64) : (s.cagePresent c b).rd pgCAGE CAGE.CAGE_STS_PRESENT c = b2n b := by
  rw [State.cagePresent, rd_cageBit, State.put, State.rd_wr_same, b2n_mod _ _ (by decide)]
  all_goals simp only [Fld.key, CAGE.PRES_LO_PRESENT, CAGE.PRES_HI_PRESENT, CAGE.CAGE_STS_PRESENT, pgCAGE]; omega
theorem cagePresent_cage (b : Bool) (j : Nat) : (s.cagePresent c b).cage j = s.cage j := by
  obtain ⟨r, h⟩ := cageBit_parts (s.put pgCAGE CAGE.CAGE_STS_PRESENT b c) CAGE.PRES_LO_PRESENT CAGE.PRES_HI_PRESENT c b
  rw [State.cagePresent, h]
  rfl
theorem cageReady_state (hc : c < 64) :
    (s.cageReady c).cageSt c = (if s.on pgCAGE CAGE.CAGE_CTL_FORCE_LPMODE c then cgLowPower else cgReady) := by
  rw [State.cageReady, cageEnter_state _ _ _ hc]
  split <;> rfl
end

/-! ### A cause raised over a fault -/

/-- A cage in FAULT with a code and a cause: what the timeouts leave (R162). -/
theorem cageFault_raise (s : State) {c code cause : Nat} (hc : c < 64) (hlive : s.live pgCAGE = true) (hcause : cause < 16) :
    ((s.cageFault c code).raise pgCAGE cause).cageSt c = cgFault ∧
      ((s.cageFault c code).raise pgCAGE cause).rd pgCAGE CAGE.CAGE_STS_FAULT_CODE c = code % 2 ^ CAGE.CAGE_STS_FAULT_CODE.w ∧
      bit (((s.cageFault c code).raise pgCAGE cause).rd pgCAGE COMMON.INT_CAUSE_CAUSE) cause = true ∧
      ((s.cageFault c code).raise pgCAGE cause).toPipeState = s.toPipeState ∧
      ((s.cageFault c code).raise pgCAGE cause).toQdState = s.toQdState ∧ ((s.cageFault c code).raise pgCAGE cause).nt = s.nt := by
  obtain ⟨hstate, hcode, hpower, hpipe, hqd, hnt⟩ := cageFault_spec s c code hc
  have hplace : Fld.calmAt CAGE.CAGE_STS_STATE pgCAGE c ∧ Fld.calmAt CAGE.CAGE_STS_FAULT_CODE pgCAGE c := by
    simp only [Fld.calmAt, CAGE.CAGE_STS_STATE, CAGE.CAGE_STS_FAULT_CODE, pgCAGE]
    omega
  refine ⟨?_, ?_, State.raise_sets _ ((hpower _).trans hlive) hcause, by simp [hpipe], by simp [hqd], by simp [hnt]⟩
  · rw [State.cageSt, State.raise_rd _ _ _ hplace.1]
    exact hstate
  · rw [State.raise_rd _ _ _ hplace.2, hcode]

/-! ### An event of a cage that nothing holds -/

section
variable {s : State} {c : Nat} (hc : c < 64) (hlive : s.live pgCAGE = true) (hen : s.cageEn c = true) (hhold : s.cageHold = false)
  (hchain : s.on pgCAGE CAGE.CSB_STS_CHAIN_FAULT = false)

include hen hhold hchain in
theorem cageEvent_applies (e : CageEv) : s.cageEvent c e = s.cageApply c e := by
  simp [State.cageEvent, hen, hhold, hchain]
include hc hlive hen hhold hchain in
theorem cageCmd_applies (e : CageEv) : s.cageCmd c e = s.cageApply c e := by
  rw [State.cageCmd, if_pos hc, State.gate_of_live hlive, cageEvent_applies hen hhold hchain]
include hc hlive hen hhold hchain in
theorem cageTimer_applies {ms : Nat} (hran : s.cageRan c ms = true) (e : CageEv) : s.cageTimer c ms e = s.cageApply c e := by
  rw [State.cageTimer, if_pos hran, cageCmd_applies hc hlive hen hhold hchain]
end

/-- Settles O22: each event reaches the state table, whose rows are the laws of the entered states. -/
theorem cageStates : Obligations.CageStates := by
  unfold Obligations.CageStates
  refine ⟨?_, ?_, ?_, ?_, ?_, ?_, ?_, ?_, ?_, ?_, ?_, ?_, ?_⟩
  · intro s cage hc hlive hen hhold hchain hcyc hst hran
    refine ⟨_, congrArg Host.Outcome.next (cageTimer_applies hc hlive hen hhold hchain hran .debounced), ?_⟩
    simp only [State.cageApply, hcyc, hst, Bool.false_eq_true, false_and, if_false, if_true]
    exact ⟨by rw [cagePresent_cage, State.cage_setCage], cagePresent_shows _ _ _ hc, State.offCage_eq (cagePresent_offCage ..)⟩
  · intro s cage hc hlive hen hhold hchain hcyc hfind hopen
    have hwait := List.find?_some hfind
    simp only [Bool.and_eq_true, decide_eq_true_eq] at hwait
    obtain ⟨⟨-, hst⟩, hwaiting⟩ := hwait
    have hrun : execCagePowerSlot s = .next (s.cageApply cage .slot) := by
      simp only [execCagePowerSlot, hfind, hopen, if_true, cageCmd_applies hc hlive hen hhold hchain]
    refine ⟨_, hrun, ?_⟩
    simp only [State.cageApply, hcyc, hst, hwaiting, Bool.false_eq_true, false_and, and_self, if_false, if_true]
    exact ⟨cageEnter_state _ _ _ hc, State.offCage_eq (cageEnter_offCage ..)⟩
  · intro s cage hc hlive hen hhold hchain hcyc hst hholding hran
    refine ⟨_, congrArg Host.Outcome.next (cageTimer_applies hc hlive hen hhold hchain hran .pgTimeout), ?_⟩
    simp only [State.cageApply, hcyc, hst, hholding, Bool.false_eq_true, false_and, not_false_eq_true, and_self, if_false, if_true]
    exact cageFault_raise s hc hlive (by decide)
  · intro s cage hc hlive hen hhold hchain hcyc hst hran
    refine ⟨_, congrArg Host.Outcome.next (cageTimer_applies hc hlive hen hhold hchain hran .initTimeout), ?_⟩
    simp only [State.cageApply, hcyc, hst, Bool.false_eq_true, false_and, if_false, if_true]
    exact cageFault_raise s hc hlive (by decide)
  · intro s cage hc hlive hen hhold hchain hcyc hst hauto
    refine ⟨_, congrArg Host.Outcome.next (cageCmd_applies hc hlive hen hhold hchain .noApp), ?_⟩
    simp only [State.cageApply, hcyc, hst, hauto, Bool.false_eq_true, false_and, and_self, if_false, if_true]
    obtain ⟨hstate, hcode, -, hframe⟩ := cageFault_spec s cage 4 hc
    exact ⟨hstate, hcode, hframe⟩
  · intro s cage hc hlive hen hhold hchain hcyc hst hholding hran
    refine ⟨_, congrArg Host.Outcome.next (cageTimer_applies hc hlive hen hhold hchain hran .resetDone), ?_⟩
    simp only [State.cageApply, hcyc, hst, hholding, Bool.false_eq_true, false_and, and_self, if_false, if_true]
    exact ⟨cageInit_state _ _ hc, State.offCage_eq (cageInit_offCage ..)⟩
  · intro s cage hc hlive hen hhold hchain hcyc hst hauto
    refine ⟨_, congrArg Host.Outcome.next (cageCmd_applies hc hlive hen hhold hchain .activated), ?_⟩
    simp only [State.cageApply, hcyc, hst, hauto, Bool.false_eq_true, false_and, and_self, if_false, if_true]
    exact ⟨cageReady_state _ _ hc, State.offCage_eq (cageReady_offCage ..)⟩
  · intro s cage hc hlive hen hhold hchain hcyc hst hauto
    refine ⟨_, congrArg Host.Outcome.next (cageCmd_applies hc hlive hen hhold hchain .manualReady), ?_⟩
    simp only [State.cageApply, hcyc, hst, hauto, Bool.false_eq_true, false_and, not_false_eq_true, and_self, if_false, if_true]
    exact ⟨cageReady_state _ _ hc, State.offCage_eq (cageReady_offCage ..)⟩
  · intro s cage hc hlive hen hhold hchain hcyc hran
    refine ⟨_, congrArg Host.Outcome.next (cageTimer_applies hc hlive hen hhold hchain hran .cycleEnd), ?_⟩
    have hduring : CageEv.cycleEnd.duringCycle = true := by decide
    simp only [State.cageApply, hcyc, hduring, not_true_eq_false, and_false, if_false, if_true]
    exact ⟨cageDebounce_state _ _ hc, State.offCage_eq (cageDebounce_offCage ..)⟩
  · intro s cage hc hlive hen hhold hchain hcyc hst hraw
    refine ⟨_, congrArg Host.Outcome.next (cageCmd_applies hc hlive hen hhold hchain .faultClr), ?_⟩
    simp only [State.cageApply, hcyc, hst, hraw, Bool.false_eq_true, false_and, and_self, if_false, if_true]
    exact ⟨cageDebounce_state _ _ hc, State.offCage_eq (cageDebounce_offCage ..)⟩
  · intro s cage hc hlive hen hhold hchain hcyc hst hran
    refine ⟨_, congrArg Host.Outcome.next (cageTimer_applies hc hlive hen hhold hchain hran .removed), ?_⟩
    simp only [State.cageApply, hcyc, hst, Bool.false_eq_true, false_and, if_false, if_true]
    exact ⟨cageEnter_state _ _ _ hc, State.offCage_eq ((cageEnter_offCage ..).trans (cagePresent_offCage ..))⟩
  · intro s cage hc hlive hen hhold hchain hcyc hst
    have hplace : CAGE.CAGE_CTL_FORCE_LPMODE.key pgCAGE cage ≠ CAGE.CAGE_CTL_EN.key pgCAGE cage ∧
        CAGE.CAGE_CTL_FORCE_LPMODE.key pgCAGE cage ≠ CAGE.CAGE_STS_STATE.key pgCAGE cage ∧
        CAGE.CAGE_CTL_FORCE_LPMODE.key pgCAGE cage ≠ CAGE.CSB_STS_OUT_HOLD.key pgCAGE 0 ∧
        CAGE.CAGE_CTL_FORCE_LPMODE.key pgCAGE cage ≠ CAGE.CSB_STS_CHAIN_FAULT.key pgCAGE 0 := by
      simp only [Fld.key, CAGE.CAGE_CTL_FORCE_LPMODE, CAGE.CAGE_CTL_EN, CAGE.CAGE_STS_STATE, CAGE.CSB_STS_OUT_HOLD, CAGE.CSB_STS_CHAIN_FAULT, pgCAGE]
      omega
    obtain ⟨hne, hns, hnh, hnc⟩ := hplace
    have hst' : (s.put pgCAGE CAGE.CAGE_CTL_FORCE_LPMODE true cage).cageSt cage = cgReady := (State.rd_wr_ne _ _ hns).trans hst
    have hrun : execCageForceLpmode cage true s = .next ((s.put pgCAGE CAGE.CAGE_CTL_FORCE_LPMODE true cage).cageEnter cage cgLowPower) := by
      rw [execCageForceLpmode, if_pos hc, State.gate_of_live hlive, State.forceLp, cageEvent_applies]
      · simp only [State.cageApply, hst']
        simp [State.put, State.cage_wr, hcyc]
      · simpa only [State.cageEn, State.on, State.put, State.rd_wr_ne _ _ hne] using hen
      · simpa only [State.cageHold, State.on, State.put, State.rd_wr_ne _ _ hnh] using hhold
      · simpa only [State.on, State.put, State.rd_wr_ne _ _ hnc] using hchain
    refine ⟨_, hrun, cageEnter_state _ _ _ hc, ?_, State.offCage_eq (cageEnter_offCage ..)⟩
    rw [cageEnter_rd, State.put, State.rd_wr_same]
    · rfl
    all_goals simp only [sideKey, sideCommon, Fld.key, CAGE.CAGE_CTL_FORCE_LPMODE, CAGE.CAGE_STS_STATE, CAGE.CAGE_STS_SQUELCH_REQ,
      CAGE.CHANGE_LO_CHANGED, CAGE.CHANGE_HI_CHANGED, pgCAGE, pgCRWN, pgOBS, pgLOG, pgPCE]; omega
  · intro s cage hc hlive hen hhold hchain hcyc hlo hhi
    refine ⟨_, congrArg Host.Outcome.next (cageCmd_applies hc hlive hen hhold hchain .powerCycle), ?_⟩
    simp only [State.cageApply, hcyc, hlo, hhi, Bool.false_eq_true, false_and, and_self, if_false, if_true]
    have hsq := cageSquelchAll_sq (s.setCage cage { s.cage cage with cycling := true, waiting := false, holding := false, since := s.ticks }) cage true
    refine ⟨?_, ?_, ?_⟩
    · rw [State.cage, hsq.line]
      exact State.cage_setCage ..
    · rw [hsq.rd, State.put, State.rd_wr_same]
      · rfl
      all_goals simp only [sideKey, sideCommon, Fld.key, CAGE.CAGE_STS_SQUELCH_REQ, pgCAGE, pgCRWN, pgOBS, pgLOG, pgPCE]; omega
    · rw [State.cageSt, cageSquelchAll_rd]
      · rfl
      all_goals simp only [sideKey, sideCommon, Fld.key, CAGE.CAGE_STS_SQUELCH_REQ, CAGE.CAGE_STS_STATE, pgCAGE, pgCRWN, pgOBS, pgLOG, pgPCE]; omega

end Sys2Proof.Machine

/-! PROOFS. Time outputs and timed actions: PPS_OUT, ToD messages, SyncE outputs and the timed action queue. -/

namespace Sys2Proof.Machine
set_option Elab.async false

/-! ### The registers that show the queue -/

theorem State.taqView_only (s : State) : OnlyRegs s s.taqView := by
  unfold State.taqView
  extract_lets nx s1
  have hhead : OnlyRegs s s1 := (OnlyRegs.refl s).wrAll ..
  refine hhead.trans (.foldl (fun u i => ?_) _ _)
  split
  · exact (OnlyRegs.refl u).wrAll ..
  · exact (OnlyRegs.refl u).wrAll ..

/-- A register from the posting registers to the counters, or of an earlier page, reads the same. -/
theorem State.taqView_rd (s : State) {q : Nat} {g : Fld} {j : Nat}
    (h : g.key q j < 10494080 ∨ 12582912 ≤ g.key q j ∨ 10494464 ≤ g.key q j ∧ g.key q j < 10510336) : s.taqView.rd q g j = s.rd q g j := by
  have hfold : ∀ (l : List Nat), (∀ i ∈ l, i < 64) → ∀ u : State,
      (l.foldl (fun (st : State) i => match tget s.taq i with
        | some e => st.wrAll pgTAQ i [(TAQ.ENTRY_STS_PENDING, 1), (TAQ.ENTRY_STS_TYPE, e.type), (TAQ.ENTRY_STS_ARG, e.arg)]
        | none => st.wrAll pgTAQ i [(TAQ.ENTRY_STS_PENDING, 0), (TAQ.ENTRY_STS_TYPE, 0), (TAQ.ENTRY_STS_ARG, 0)]) u).rd q g j = u.rd q g j := by
    intro l
    induction l with
    | nil => exact fun _ _ => rfl
    | cons a l ih =>
      intro hl u
      have ha := hl a List.mem_cons_self
      rw [List.foldl_cons, ih fun i hi => hl i (List.mem_cons_of_mem _ hi)]
      split <;> simp only [State.wrAll] <;> rw [State.rd_wr_ne, State.rd_wr_ne, State.rd_wr_ne] <;>
        simp only [Fld.key, TAQ.ENTRY_STS_PENDING, TAQ.ENTRY_STS_TYPE, TAQ.ENTRY_STS_ARG, pgTAQ] at h ⊢ <;> omega
  unfold State.taqView
  extract_lets nx s1
  refine (hfold _ (fun i hi => List.mem_range.1 hi) _).trans ?_
  simp only [s1, State.wrAll]
  rw [State.rd_wr_ne, State.rd_wr_ne, State.rd_wr_ne, State.rd_wr_ne] <;>
    simp only [Fld.key, TAQ.TAQ_STS_USED, TAQ.TAQ_STS_NEXT_VALID, TAQ.NEXT_NS_NS, TAQ.NEXT_SEC_LO_SEC, pgTAQ] at h ⊢ <;> omega

theorem State.taqView_live (s : State) (p : Nat) : s.taqView.live p = s.live p := by
  have := dom_lt p
  simp only [State.live, State.domOn, State.on]
  rw [State.taqView_rd]
  simp only [Fld.key, PWR.DOM_STS_POWERED, pgPWR]
  omega

section
variable (s : State)
@[simp] theorem State.taqView_toBandState : s.taqView.toBandState = s.toBandState := s.taqView_only.frame.1
@[simp] theorem State.taqView_toLineState : s.taqView.toLineState = s.toLineState := s.taqView_only.frame.2.1
@[simp] theorem State.taqView_toPipeState : s.taqView.toPipeState = s.toPipeState := s.taqView_only.frame.2.2.1
@[simp] theorem State.taqView_toQdState : s.taqView.toQdState = s.toQdState := s.taqView_only.frame.2.2.2.1
@[simp] theorem State.taqView_toHostState : s.taqView.toHostState = s.toHostState := s.taqView_only.frame.2.2.2.2.1
@[simp] theorem State.taqView_toMgmtState : s.taqView.toMgmtState = s.toMgmtState := s.taqView_only.frame.2.2.2.2.2.1
@[simp] theorem State.taqView_nt : s.taqView.nt = s.nt := s.taqView_only.frame.2.2.2.2.2.2
end

/-! ### Refused posts -/

/-- A post that the queue does not take ends with its result, a counter and cause 2 (R687, R688). -/
def State.taqTurned (s : State) (tag st : Nat) (ws : List Nat) (n : Nat) : State :=
  ((s.result pgTAQ TAQ.TAQ_RES (tag % 256) st ws).cnt pgTAQ TAQ.TAQ_CNT n).raise pgTAQ 2

theorem State.taqTurned_spec {s t : State} {tag st err n : Nat} {ws : List Nat} (ht : t = s.taqTurned tag st ws n) (hlive : s.live pgTAQ = true) (hn : n < 8) (hst : st < 16)
    (hws : ws.getD 0 0 = err) (herr : err < 2 ^ 32) :
    t.taq = s.taq ∧ t.taqPosts = s.taqPosts ∧ t.rd pgTAQ (TAQ.TAQ_RES.word 1) = err ∧
      t.rd pgTAQ TAQ.TAQ_CNT n = (s.rd pgTAQ TAQ.TAQ_CNT n + 1) % 2 ^ 64 ∧ bit (t.rd pgTAQ COMMON.INT_CAUSE_CAUSE) 2 = true ∧
      t.rd pgTAQ TAQ.TAQ_RES.status = st ∧ t.rd pgTAQ TAQ.TAQ_RES.tag = tag % 256 ∧ t.rd pgTAQ TAQ.TAQ_RES.valid = 1 ∧
      t.toBandState = s.toBandState ∧ t.toLineState = s.toLineState ∧ t.toPipeState = s.toPipeState ∧ t.toQdState = s.toQdState ∧
      t.nt = s.nt := by
  subst ht
  have hcalm : Fld.calmAt TAQ.TAQ_CNT pgTAQ n := by
    simp only [Fld.calmAt, TAQ.TAQ_CNT, pgTAQ]
    omega
  have hres : ∀ g : Fld, g.calmAt pgTAQ 0 → TAQ.TAQ_CNT.key pgTAQ n ≠ g.key pgTAQ 0 →
      (s.taqTurned tag st ws n).rd pgTAQ g = (s.result pgTAQ TAQ.TAQ_RES (tag % 256) st ws).rd pgTAQ g := fun g hg hne =>
    (State.raise_rd _ _ _ hg).trans (State.cnt_rd_ne _ hg hne)
  refine ⟨by simp [State.taqTurned], by simp [State.taqTurned], ?_, ?_, State.raise_sets _ ?_ (by decide), ?_, ?_, ?_, ?_⟩
  · rw [hres _ (by decide) (by simp only [Fld.key, TAQ.TAQ_CNT, pgTAQ, ResSet.word, TAQ.TAQ_RES]; omega), State.rd_result_word _ _ _ _ _ _ _ _ (by decide),
      hws, Nat.mod_eq_of_lt herr]
  · rw [State.taqTurned, State.raise_rd _ _ _ hcalm, State.cnt, State.bump_rd_same _ _ _ hcalm, State.rd_result_ne]
    · rfl
    · simp only [Fld.key, TAQ.TAQ_CNT, TAQ.TAQ_RES, pgTAQ]
      omega
  · rw [State.cnt, State.live_bump _ _ _ _ _ _ _ (by simp only [TAQ.TAQ_CNT]; omega) (by decide) (by decide), State.result_live _ _ _ _ _ _ _ _ _ (by decide), hlive]
  · rw [hres _ (by decide) (by simp only [Fld.key, TAQ.TAQ_CNT, pgTAQ, ResSet.status, TAQ.TAQ_RES]; omega), State.rd_result_status, Nat.mod_eq_of_lt hst]
  · rw [hres _ (by decide) (by simp only [Fld.key, TAQ.TAQ_CNT, pgTAQ, ResSet.tag, TAQ.TAQ_RES]; omega), State.rd_result_tag, Nat.mod_mod]
  · rw [hres _ (by decide) (by simp only [Fld.key, TAQ.TAQ_CNT, pgTAQ, ResSet.valid, TAQ.TAQ_RES]; omega), State.rd_result_valid]
  · simp [State.taqTurned]

/-! ### Results of the queue's commands -/

section
variable (u : State) {tag st : Nat} (ws : List Nat) (late : Bool)

/-- The header of a result in the set of the queue. -/
theorem State.taqResult_head (hst : st < 16) :
    (u.result pgTAQ TAQ.TAQ_RES (tag % 256) st ws 0 late).rd pgTAQ TAQ.TAQ_RES.status = st ∧
      (u.result pgTAQ TAQ.TAQ_RES (tag % 256) st ws 0 late).rd pgTAQ TAQ.TAQ_RES.tag = tag % 256 ∧
      (u.result pgTAQ TAQ.TAQ_RES (tag % 256) st ws 0 late).rd pgTAQ TAQ.TAQ_RES.valid = 1 := by
  refine ⟨?_, ?_, State.rd_result_valid ..⟩
  · rw [State.rd_result_status, Nat.mod_eq_of_lt hst]
  · rw [State.rd_result_tag, Nat.mod_mod]
end

/-- A result counted afterwards reads the same. -/
theorem State.taqResult_cnt (u : State) {g : Fld} (h : g.calmAt pgTAQ 0) (hne : TAQ.TAQ_CNT.key pgTAQ 0 ≠ g.key pgTAQ 0) :
    (u.cnt pgTAQ TAQ.TAQ_CNT 0).rd pgTAQ g = u.rd pgTAQ g := State.cnt_rd_ne _ h hne

/-! ### Firing -/

/-- The state in which a fired entry takes effect: it has left the queue, is counted and signalled. -/
def State.fired (s : State) (i : Nat) (e : TaqEntry) : State :=
  let s1 := (({ s with taq := tdel s.taq i, taqFired := i :: s.taqFired.filter fun (k : Nat) => k ≠ i } : State).taqView.cnt pgTAQ TAQ.TAQ_CNT 1).raise pgTAQ 0
  if e.late then (s1.cnt pgTAQ TAQ.TAQ_CNT 2).raise pgTAQ 2 else s1

section
variable (s : State) (i : Nat) (e : TaqEntry)

theorem State.fireEntry_eq : s.fireEntry i e = (s.fired i e).deliver e := rfl

theorem State.fired_rd {q : Nat} {g : Fld} {j : Nat} (hside : ¬ sideKey (g.key q j))
    (hview : g.key q j < 10494080 ∨ 12582912 ≤ g.key q j ∨ 10494464 ≤ g.key q j ∧ g.key q j < 10510336) (h1 : TAQ.TAQ_CNT.key pgTAQ 1 ≠ g.key q j)
    (h2 : TAQ.TAQ_CNT.key pgTAQ 2 ≠ g.key q j) : (s.fired i e).rd q g j = s.rd q g j := by
  have hfirst : ((({ s with taq := tdel s.taq i, taqFired := i :: s.taqFired.filter fun (k : Nat) => k ≠ i } : State).taqView.cnt pgTAQ
      TAQ.TAQ_CNT 1).raise pgTAQ 0).rd q g j = s.rd q g j := by
    rw [State.rd_raise _ _ _ hside, State.rd_cnt_ne _ hside h1, State.taqView_rd _ hview]
    rfl
  rw [State.fired]
  split
  · rw [State.rd_raise _ _ _ hside, State.rd_cnt_ne _ hside h2, hfirst]
  · exact hfirst

theorem State.fired_cnt : (s.fired i e).rd pgTAQ TAQ.TAQ_CNT 1 = (s.rd pgTAQ TAQ.TAQ_CNT 1 + 1) % 2 ^ 64 := by
  have hfirst : ((({ s with taq := tdel s.taq i, taqFired := i :: s.taqFired.filter fun (k : Nat) => k ≠ i } : State).taqView.cnt pgTAQ
      TAQ.TAQ_CNT 1).raise pgTAQ 0).rd pgTAQ TAQ.TAQ_CNT 1 = (s.rd pgTAQ TAQ.TAQ_CNT 1 + 1) % 2 ^ 64 := by
    rw [State.raise_rd _ _ _ (by decide), State.cnt, State.bump_rd_same _ _ _ (by decide), State.taqView_rd _ (by decide)]
    rfl
  rw [State.fired]
  split
  · rw [State.raise_rd _ _ _ (by decide), State.cnt_rd_ne _ (by decide) (by decide), hfirst]
  · exact hfirst

theorem State.fired_live (p : Nat) : (s.fired i e).live p = s.live p := by
  have hfirst : ((({ s with taq := tdel s.taq i, taqFired := i :: s.taqFired.filter fun (k : Nat) => k ≠ i } : State).taqView.cnt pgTAQ
      TAQ.TAQ_CNT 1).raise pgTAQ 0).live p = s.live p := by
    rw [live_raise, State.cnt, State.live_bump _ _ _ _ _ _ _ (by decide) (by decide) (by decide), State.taqView_live]
    rfl
  rw [State.fired]
  split
  · rw [live_raise, State.cnt, State.live_bump _ _ _ _ _ _ _ (by decide) (by decide) (by decide), hfirst]
  · exact hfirst

theorem State.fired_cause (hlive : s.live pgTAQ = true) : bit ((s.fired i e).rd pgTAQ COMMON.INT_CAUSE_CAUSE) 0 = true := by
  have hfirst : bit (((({ s with taq := tdel s.taq i, taqFired := i :: s.taqFired.filter fun (k : Nat) => k ≠ i } : State).taqView.cnt pgTAQ
      TAQ.TAQ_CNT 1).raise pgTAQ 0).rd pgTAQ COMMON.INT_CAUSE_CAUSE) 0 = true := by
    refine State.raise_sets _ ?_ (by decide)
    rw [State.cnt, State.live_bump _ _ _ _ _ _ _ (by decide) (by decide) (by decide), State.taqView_live]
    exact hlive
  rw [State.fired]
  split
  · exact State.cause_of_raise _ _ (by decide) (State.cause_of_cnt hfirst (by decide) (by decide))
  · exact hfirst

@[simp] theorem State.fired_taq : (s.fired i e).taq = tdel s.taq i := by
  rw [State.fired]
  split <;> simp
@[simp] theorem State.fired_taqFired : (s.fired i e).taqFired = i :: s.taqFired.filter fun (k : Nat) => k ≠ i := by
  rw [State.fired]
  split <;> simp
theorem State.fired_core : coreParts (s.fired i e) = coreParts s := by
  rw [State.fired]
  split <;> simp [coreParts]
end

/-- A queue with no entry fires nothing. -/
theorem State.fireDue_nil {s : State} (h : s.taq = []) (n : Nat) : s.fireDue n = s := by
  cases n with
  | zero => rfl
  | succ n => simp only [State.fireDue, h, earliest]

theorem earliest_mem {l : List (Nat × TaqEntry)} {e : Nat × TaqEntry} (h : earliest l = some e) : e ∈ l := by
  induction l generalizing e with
  | nil => cases h
  | cons a l ih =>
    rw [earliest] at h
    split at h
    · cases h
      exact List.mem_cons_self
    · rename_i b hb
      split at h
      · cases h
        exact List.mem_cons_of_mem _ (ih hb)
      · cases h
        exact List.mem_cons_self

/-- The earliest entry fires first where its target has come. -/
theorem execTaqFire_due {s : State} {i : Nat} {e : TaqEntry} (hvalid : s.ntValid = true) (hlive : s.live pgTAQ = true) (hdue : e.target ≤ s.nt.whole)
    (hfirst : earliest s.taq = some (i, e)) : execTaqFire s = .next ((s.fireEntry i e).fireDue 63) := by
  show Host.Outcome.next (s.fireDue (63 + 1)) = _
  rw [State.fireDue, hfirst]
  simp only [hvalid, hlive, hdue, and_self, if_true]

/-- With one entry in the queue its firing is all that happens. -/
theorem execTaqFire_only {s u : State} {i : Nat} {e : TaqEntry} (hvalid : s.ntValid = true) (hlive : s.live pgTAQ = true)
    (hdue : e.target ≤ s.nt.whole) (hone : s.taq = [(i, e)]) (hu : (s.fired i e).deliver e = u) (hleft : u.taq = []) : execTaqFire s = .next u := by
  rw [execTaqFire_due hvalid hlive hdue (by rw [hone]; rfl), State.fireEntry_eq, hu, State.fireDue_nil hleft]

theorem tdel_one (i : Nat) (e : TaqEntry) : tdel [(i, e)] i = [] := by
  simp [tdel]

/-! ### ToD messages -/

/-- The bytes of a message taken into the registers. -/
def State.todTaken (s : State) (bytes : List Byte) : State :=
  (List.range 4).foldl (fun (st : State) (k : Nat) => st.wr pgNTM NTM.TOD_RX_BYTES (beAt bytes (4 * k) 4) k) s

theorem State.todTaken_only (s : State) (bytes : List Byte) : OnlyRegs s (s.todTaken bytes) :=
  OnlyRegs.foldl (fun u _ => (OnlyRegs.refl u).wr ..) _ s
theorem State.todTaken_bytes (s : State) (bytes : List Byte) {k : Nat} (hk : k < 4) :
    (s.todTaken bytes).rd pgNTM NTM.TOD_RX_BYTES k = beAt bytes (4 * k) 4 % 2 ^ 32 :=
  State.rd_foldl_wr_mem (List.range 4) (fun _ => pgNTM) NTM.TOD_RX_BYTES (fun k => beAt bytes (4 * k) 4) id s (List.mem_range.2 hk)
    fun y _ h => by simp only [Fld.key, NTM.TOD_RX_BYTES, id] at h; omega
theorem State.todTaken_cnt (s : State) (bytes : List Byte) : (s.todTaken bytes).rd pgNTM NTM.NTM_CNT 1 = s.rd pgNTM NTM.NTM_CNT 1 :=
  State.rd_foldl_wr_ne (List.range 4) (fun _ => pgNTM) NTM.TOD_RX_BYTES _ id s fun x hx => by
    simp only [List.mem_range] at hx
    apply of_forall_lt x hx; decide

theorem execTodRxMessage_good {s : State} {bytes : List Byte} (hlive : s.live pgNTM = true) (hen : s.on pgNTM NTM.NTM_CTL_TOD_RX_EN = true)
    (hgood : s.todGood bytes = true) : execTodRxMessage bytes s =
      .next { ((s.todTaken bytes).cnt pgNTM NTM.NTM_CNT 1).wr pgNTM NTM.NTM_STS_TOD_OK 1 with
        todSec := some (beAt bytes 2 6), todAt := some s.ticks } := by
  simp only [execTodRxMessage, hlive, hen, hgood, not_true_eq_false, or_self, if_false, if_true, State.todTaken]
theorem execTodRxMessage_bad {s : State} {bytes : List Byte} (hlive : s.live pgNTM = true) (hen : s.on pgNTM NTM.NTM_CTL_TOD_RX_EN = true)
    (hbad : s.todGood bytes = false) : execTodRxMessage bytes s = .next ((s.cnt pgNTM NTM.NTM_CNT 2).raise pgNTM 2) := by
  simp only [execTodRxMessage, hlive, hen, hbad, not_true_eq_false, or_self, Bool.false_eq_true, if_false]

/-! ### SyncE outputs -/

theorem State.syncePut_live (s : State) (k p : Nat) : (s.syncePut k).live p = s.live p := State.live_of_regs (State.emit_regs ..) p

/-- A squelched or resumed output carries what its registers say. -/
theorem State.syncePut_out (s : State) {k : Nat} (hk : k < 4) (v : Nat) :
    ((s.wr pgNTM NTM.SYNCE_CTL_SQUELCHED v k).syncePut k).out = .synce k (s.rd pgNTM NTM.SYNCE_CTL_LANE k) (s.rd pgNTM NTM.SYNCE_CTL_DIV_LOG2 k)
      (s.on pgNTM NTM.SYNCE_CTL_EN k && !decide (v % 2 = 1)) :: s.out := by
  have hplace : NTM.SYNCE_CTL_SQUELCHED.key pgNTM k ≠ NTM.SYNCE_CTL_LANE.key pgNTM k ∧
      NTM.SYNCE_CTL_SQUELCHED.key pgNTM k ≠ NTM.SYNCE_CTL_DIV_LOG2.key pgNTM k ∧
      NTM.SYNCE_CTL_SQUELCHED.key pgNTM k ≠ NTM.SYNCE_CTL_EN.key pgNTM k := by
    apply of_forall_lt k hk; decide
  obtain ⟨hlane, hdiv, hen⟩ := hplace
  simp only [State.syncePut, State.emit_out, State.wr_out, State.rd_wr_ne _ _ hlane, State.rd_wr_ne _ _ hdiv, State.on, State.rd_wr_ne _ _ hen,
    State.rd_wr_same]
  rfl

/-- Settles O49, clause by clause. -/
theorem timeOutputsAndTimedActions : Obligations.TimeOutputsAndTimedActions := by
  unfold Obligations.TimeOutputsAndTimedActions
  refine ⟨?_, ?_, ?_, ?_, ?_, ?_, ?_, ?_, ?_, ?_, ?_, ?_, ?_, ?_, ?_, ?_, ?_, ?_, ?_, ?_, ?_⟩
  · rintro s x hlive hen rfl hx hlast
    refine ⟨_, congrArg Host.Outcome.next (if_pos ⟨hlive, hen, hx, by simp [hlast]⟩), rfl, rfl, rfl, rfl, rfl, rfl, rfl, rfl, rfl⟩
  · intro s n hlive hat hen hold
    have hrun : execTodTxMessage s = .next { (s.draw 3).2.emit (.tod (todBytes (s.nt.sec + 1) (b2n s.ntValid + 2 * (s.draw 3).1)
        (s.rd pgNTM NTM.TOD_CFG_UTC_OFFSET) (s.rd pgNTM NTM.TOD_CFG_CLOCK_CLASS))) with ppsOutAt := none } := by
      simp only [execTodTxMessage, hat, hlive, hen, hold, and_self, if_true]
    refine ⟨_, hrun, ⟨(s.draw 3).1, ?_, rfl⟩, rfl, rfl, rfl, rfl, rfl, rfl, rfl⟩
    exact Nat.mod_lt _ (by decide)
  · intro s bytes hlive hen hgood
    obtain ⟨hband, hline, hpipe, hqd, hhost, -, hnt⟩ := (s.todTaken_only bytes).frame
    refine ⟨_, execTodRxMessage_good hlive hen hgood, rfl, rfl, ?_, fun k hk => ?_, ?_, ?_⟩
    · simp only [State.rd_parts, State.rd_wr_same]
      rfl
    · have hplace : NTM.NTM_STS_TOD_OK.key pgNTM 0 ≠ NTM.TOD_RX_BYTES.key pgNTM k ∧ Fld.calmAt NTM.TOD_RX_BYTES pgNTM k ∧
          NTM.NTM_CNT.key pgNTM 1 ≠ NTM.TOD_RX_BYTES.key pgNTM k := by
        apply of_forall_lt k hk; decide
      simp only [State.rd_parts]
      rw [State.rd_wr_ne _ _ hplace.1, State.cnt_rd_ne _ hplace.2.1 hplace.2.2, State.todTaken_bytes _ _ hk]
    · simp only [State.rd_parts]
      rw [State.rd_wr_ne _ _ (by decide), State.cnt, State.bump_rd_same _ _ _ (by decide), State.todTaken_cnt]
      rfl
    · simp [hband, hline, hpipe, hqd, hhost, hnt]
  · intro s bytes hlive hen hbad
    refine ⟨_, execTodRxMessage_bad hlive hen hbad, ?_, ?_, ?_,
      State.raise_sets _ ?_ (by decide), ?_⟩
    · simp
    · simp
    · rw [State.raise_rd _ _ _ (by decide), State.cnt, State.bump_rd_same _ _ _ (by decide)]
      rfl
    · exact (State.live_bump _ _ _ _ _ _ _ (by decide) (by decide) (by decide)).trans hlive
    · simp
  · intro s n hat hold
    have hrun : execTodOkTimeout s = .next (s.wr pgNTM NTM.NTM_STS_TOD_OK 0) := by
      simp only [execTodOkTimeout, hat, ticks1100ms, hold, if_true]
    exact ⟨_, hrun, State.rd_wr_same .., rfl, rfl, rfl, rfl, rfl, rfl, rfl⟩
  · intro s k hlive hk hen hsqen hsq hbad
    refine ⟨_, congrArg Host.Outcome.next (if_pos ⟨hk, hen, hsqen, by simp [hsq], by simp [hbad]⟩), ?_, ?_, ?_, State.raise_sets _ ?_ (by decide), ?_⟩
    · rw [State.raise_rd _ _ _ (by apply of_forall_lt k hk; decide), State.syncePut, State.rd_emit, State.rd_wr_same]
      rfl
    · simp [State.syncePut]
    · refine (OutGrows.raise _ _ _).mem ?_
      rw [State.syncePut_out _ hk]
      simp
    · rw [State.syncePut_live, State.wr_live _ _ _ ⟨by simp only [NTM.SYNCE_CTL_SQUELCHED]; omega, by decide, by decide⟩, State.live_parts, hlive]
    · simp [State.syncePut]
  · intro s k hk hsq hgood hat
    refine ⟨_, congrArg Host.Outcome.next (if_pos ⟨hk, hsq, hgood, hat⟩), ?_, ?_, rfl, rfl, rfl, rfl, rfl, rfl, rfl⟩
    · rw [State.syncePut, State.rd_emit, State.rd_wr_same]
      rfl
    · rw [State.syncePut_out _ hk]
      simp
  · rintro s tag i e hlive rfl haddr hlo hhi hfree hlate
    have hi : i < 64 := List.mem_range.1 (List.mem_of_find?_eq_some hfree)
    have htype : ¬ (({ raw := s.taqStaged, order := s.taqPosts } : TaqEntry).type = 0 ∨
        8 < ({ raw := s.taqStaged, order := s.taqPosts } : TaqEntry).type) := by omega
    have hrun : s.taqPost (tag % 256) = ((({ s with
        taq := tset s.taq i { ({ raw := s.taqStaged, order := s.taqPosts } : TaqEntry) with
          late := s.ntValid && decide (({ raw := s.taqStaged, order := s.taqPosts } : TaqEntry).target ≤ s.nt.whole) }
        taqPosts := s.taqPosts + 1, taqFired := s.taqFired.filter fun (k : Nat) => k ≠ i } : State).taqView.result pgTAQ TAQ.TAQ_RES (tag % 256) DONE
          [i]).cnt pgTAQ TAQ.TAQ_CNT 0) := by
      refine (if_neg haddr).trans ((if_neg htype).trans ?_)
      rw [hfree]
      exact if_neg fun h => hlate (by simpa [and_assoc] using h)
    refine ⟨_, congrArg Host.Outcome.next ((State.gate_of_live hlive _).trans hrun), ?_⟩
    obtain ⟨hstatus, htag, hvalid⟩ := State.taqResult_head ({ s with
      taq := tset s.taq i { ({ raw := s.taqStaged, order := s.taqPosts } : TaqEntry) with
        late := s.ntValid && decide (({ raw := s.taqStaged, order := s.taqPosts } : TaqEntry).target ≤ s.nt.whole) }
      taqPosts := s.taqPosts + 1, taqFired := s.taqFired.filter fun (k : Nat) => k ≠ i } : State).taqView (tag := tag) [i] false (st := DONE) (by decide)
    refine ⟨by simp, by simp, ?_, ?_, ?_, ?_, ?_, ?_⟩
    · rw [State.taqResult_cnt _ (by decide) (by decide), State.rd_result_word _ _ _ _ _ _ _ _ (by decide)]
      exact Nat.mod_eq_of_lt (Nat.lt_trans hi (by decide))
    · rw [State.cnt, State.bump_rd_same _ _ _ (by decide), State.rd_result_ne _ _ _ _ _ (by decide), State.taqView_rd _ (by decide)]
      rfl
    · rw [State.taqResult_cnt _ (by decide) (by decide), hstatus]
      rfl
    · rw [State.taqResult_cnt _ (by decide) (by decide), htag]
    · rw [State.taqResult_cnt _ (by decide) (by decide), hvalid]
    · simp
  · rintro s tag e hlive rfl htype
    have hbad : ¬ (({ raw := s.taqStaged, order := s.taqPosts } : TaqEntry).type = 7 ∧
        taqBadAddr (({ raw := s.taqStaged, order := s.taqPosts } : TaqEntry).word 4) = true) := fun h => by omega
    have hrun : s.taqPost (tag % 256) = s.taqTurned tag 4 [2] 5 := (if_neg hbad).trans (if_pos htype)
    exact ⟨_, congrArg Host.Outcome.next ((State.gate_of_live hlive _).trans hrun),
      State.taqTurned_spec rfl hlive (by decide) (by decide) rfl (by decide)⟩
  · rintro s tag e hlive rfl htype hbad
    have hrun : s.taqPost (tag % 256) = s.taqTurned tag 4 [3] 5 := if_pos ⟨htype, hbad⟩
    exact ⟨_, congrArg Host.Outcome.next ((State.gate_of_live hlive _).trans hrun),
      State.taqTurned_spec rfl hlive (by decide) (by decide) rfl (by decide)⟩
  · rintro s tag i e hlive rfl haddr hlo hhi hfree hvalid hpast hrej
    have htype : ¬ (({ raw := s.taqStaged, order := s.taqPosts } : TaqEntry).type = 0 ∨
        8 < ({ raw := s.taqStaged, order := s.taqPosts } : TaqEntry).type) := by omega
    have hrun : s.taqPost (tag % 256) = s.taqTurned tag 4 [1] 5 := by
      refine (if_neg haddr).trans ((if_neg htype).trans ?_)
      rw [hfree]
      exact if_pos ⟨by simp [hvalid, hpast], hrej⟩
    exact ⟨_, congrArg Host.Outcome.next ((State.gate_of_live hlive _).trans hrun),
      State.taqTurned_spec rfl hlive (by decide) (by decide) rfl (by decide)⟩
  · rintro s tag e hlive rfl haddr hlo hhi hfull
    have htype : ¬ (({ raw := s.taqStaged, order := s.taqPosts } : TaqEntry).type = 0 ∨
        8 < ({ raw := s.taqStaged, order := s.taqPosts } : TaqEntry).type) := by omega
    have hrun : s.taqPost (tag % 256) = s.taqTurned tag 3 [] 4 := by
      refine (if_neg haddr).trans ((if_neg htype).trans ?_)
      rw [hfull]
      rfl
    obtain ⟨htaq, -, -, hrest⟩ := State.taqTurned_spec (s := s) (tag := tag) (st := 3) (n := 4) (ws := []) rfl hlive (by decide) (by decide) rfl (by decide)
    exact ⟨_, congrArg Host.Outcome.next ((State.gate_of_live hlive _).trans hrun), htaq, hrest⟩
  · intro s index tag e hlive hent
    have hrun : s.taqCancel (index % 64) (tag % 256) = (({ s with taq := tdel s.taq (index % 64) } : State).taqView.cnt pgTAQ TAQ.TAQ_CNT 3).result pgTAQ TAQ.TAQ_RES (tag % 256) DONE [] := by
      simp only [State.taqCancel, hent]
    refine ⟨_, congrArg Host.Outcome.next ((State.gate_of_live hlive _).trans hrun), by simp, ?_, ?_⟩
    · rw [State.rd_result_ne _ _ _ _ _ (by decide), State.cnt, State.bump_rd_same _ _ _ (by decide), State.taqView_rd _ (by decide)]
      rfl
    · obtain ⟨hstatus, htag, hvalid⟩ := State.taqResult_head (({ s with taq := tdel s.taq (index % 64) } : State).taqView.cnt pgTAQ TAQ.TAQ_CNT 3)
        (tag := tag) [] false (st := DONE) (by decide)
      exact ⟨hstatus, htag, hvalid, by simp⟩
  · intro s index tag hlive hnone hfired
    have hrun : s.taqCancel (index % 64) (tag % 256) = s.result pgTAQ TAQ.TAQ_RES (tag % 256) DONE [] 0 true := by
      simp only [State.taqCancel, hnone, hfired, if_true]
    obtain ⟨hstatus, htag, hvalid⟩ := s.taqResult_head (tag := tag) [] true (st := DONE) (by decide)
    refine ⟨_, congrArg Host.Outcome.next ((State.gate_of_live hlive _).trans hrun), by simp, ?_, hstatus, htag, hvalid, by simp⟩
    rw [State.rd_result_late]
    rfl
  · intro s index tag hlive hnone hfired
    have hrun : s.taqCancel (index % 64) (tag % 256) = s.result pgTAQ TAQ.TAQ_RES (tag % 256) ERROR [4] := by
      simp only [State.taqCancel, hnone, hfired, Bool.false_eq_true, if_false]
    obtain ⟨hstatus, htag, hvalid⟩ := s.taqResult_head (tag := tag) [4] false (st := ERROR) (by decide)
    refine ⟨_, congrArg Host.Outcome.next ((State.gate_of_live hlive _).trans hrun), by simp, ?_, hstatus, htag, hvalid, by simp⟩
    rw [State.rd_result_word _ _ _ _ _ _ _ _ (by decide)]
    rfl
  · intro s index tag k e hlive hent hk
    have hrun : s.taqRead (index % 64) (tag % 256) = s.result pgTAQ TAQ.TAQ_RES (tag % 256) DONE e.raw := by
      simp only [State.taqRead, hent]
    obtain ⟨hstatus, htag, hvalid⟩ := s.taqResult_head (tag := tag) e.raw false (st := DONE) (by decide)
    refine ⟨_, congrArg Host.Outcome.next ((State.gate_of_live hlive _).trans hrun), ?_, hstatus, htag, hvalid, by simp⟩
    rw [State.rd_result_word _ _ _ _ _ _ _ _ (by omega), Nat.add_sub_cancel]
  · intro s index tag hlive hnone
    have hrun : s.taqRead (index % 64) (tag % 256) = s.result pgTAQ TAQ.TAQ_RES (tag % 256) ERROR [4] := by
      simp only [State.taqRead, hnone]
    obtain ⟨hstatus, htag, hvalid⟩ := s.taqResult_head (tag := tag) [4] false (st := ERROR) (by decide)
    refine ⟨_, congrArg Host.Outcome.next ((State.gate_of_live hlive _).trans hrun), ?_, hstatus, htag, hvalid, by simp⟩
    rw [State.rd_result_word _ _ _ _ _ _ _ _ (by decide)]
    rfl
  · intro s i e hvalid hlive hdue hfirst
    exact ⟨_, execTaqFire_due hvalid hlive hdue hfirst, rfl⟩
  · intro s i e hvalid hlive hdue hone htype hoff
    have hoff' : (s.fired i e).on pgCRWN CRWN.STROBE_CTL_TAQ_EN = false := by
      rw [State.on, State.fired_rd _ _ _ (by decide) (by decide) (by decide) (by decide)]
      exact hoff
    have hact : (s.fired i e).deliver e = (s.fired i e).cnt pgTAQ TAQ.TAQ_CNT 6 := by
      simp only [State.deliver, htype, hoff', Bool.false_eq_true, if_false]
    have hleft : ((s.fired i e).cnt pgTAQ TAQ.TAQ_CNT 6).taq = [] := by
      rw [State.cnt_toMgmtState, State.fired_taq, hone, tdel_one]
    obtain ⟨hband, hline, hpipe, hqd, hnt⟩ := coreParts_eq (s.fired_core i e)
    refine ⟨_, execTaqFire_only hvalid hlive hdue hone hact hleft, hleft, by simp, ?_, ?_, ?_, by simp [hband, hline, hpipe, hqd, hnt]⟩
    · rw [State.cnt_rd_ne _ (by decide) (by decide), State.fired_cnt]
    · rw [State.cnt, State.bump_rd_same _ _ _ (by decide), State.fired_rd _ _ _ (by decide) (by decide) (by decide) (by decide)]
      rfl
    · exact State.cause_of_cnt (s.fired_cause i e hlive) (by decide) (by decide)
  · intro s i e hvalid hlive hdue hone htype hoff
    have hoff' : (s.fired i e).takesFiring pgLKP = false := by
      rw [State.takesFiring, State.fired_live, State.on, State.fired_rd _ _ _ (by decide) (by decide) (by decide) (by decide)]
      exact hoff
    have hact : (s.fired i e).deliver e = ((s.fired i e).cnt pgTAQ TAQ.TAQ_CNT 7).raise pgTAQ 1 := by
      simp only [State.deliver, htype, State.deliverTo, hoff', Bool.false_eq_true, if_false, State.undelivered]
    have hleft : (((s.fired i e).cnt pgTAQ TAQ.TAQ_CNT 7).raise pgTAQ 1).taq = [] := by
      rw [State.raise_taq, State.cnt_toMgmtState, State.fired_taq, hone, tdel_one]
    obtain ⟨hband, hline, hpipe, hqd, hnt⟩ := coreParts_eq (s.fired_core i e)
    refine ⟨_, execTaqFire_only hvalid hlive hdue hone hact hleft, hleft, ?_, ?_, ?_, State.raise_sets _ ?_ (by decide),
      by simp [hband, hline, hpipe, hqd, hnt]⟩
    · rw [State.raise_rd _ _ _ (by decide), State.cnt_rd_ne _ (by decide) (by decide), State.fired_cnt]
    · rw [State.raise_rd _ _ _ (by decide), State.cnt, State.bump_rd_same _ _ _ (by decide),
        State.fired_rd _ _ _ (by decide) (by decide) (by decide) (by decide)]
      rfl
    · exact State.cause_of_raise _ _ (by decide) (State.cause_of_cnt (s.fired_cause i e hlive) (by decide) (by decide))
    · rw [State.cnt, State.live_bump _ _ _ _ _ _ _ (by decide) (by decide) (by decide), State.fired_live, hlive]
  · intro s hnone
    have hrun : s.fireDue (63 + 1) = s := by
      rw [State.fireDue]
      split
      · rename_i i e hfirst
        have hahead := List.all_eq_true.1 hnone _ (earliest_mem hfirst)
        exact if_neg fun h => by simp at hahead; omega
      · rfl
    exact ⟨_, congrArg Host.Outcome.next hrun, rfl⟩

end Sys2Proof.Machine

/-! PROOFS. Rules of the firmware: the flash, boot records, the fuse view, results of commands, fallback and activation. -/

namespace Sys2Proof.Machine
set_option Elab.async false

/-! ### Boot records and fuses -/

section
variable (s : State)

section
variable (off : Nat) (l : List Byte) (p : Nat)
@[simp] theorem State.flashWrite_rd (f : Fld) (i : Nat) : (s.flashWrite off l).rd p f i = s.rd p f i := rfl
@[simp] theorem State.flashWrite_live : (s.flashWrite off l).live p = s.live p := rfl
@[simp] theorem State.flashWrite_toBandState : (s.flashWrite off l).toBandState = s.toBandState := rfl
@[simp] theorem State.flashWrite_toLineState : (s.flashWrite off l).toLineState = s.toLineState := rfl
@[simp] theorem State.flashWrite_toPipeState : (s.flashWrite off l).toPipeState = s.toPipeState := rfl
@[simp] theorem State.flashWrite_toQdState : (s.flashWrite off l).toQdState = s.toQdState := rfl
@[simp] theorem State.flashWrite_toHostState : (s.flashWrite off l).toHostState = s.toHostState := rfl
@[simp] theorem State.flashWrite_nt : (s.flashWrite off l).nt = s.nt := rfl
end

/-- A boot record is bytes written to the flash. -/
theorem State.recWrite_eq (r : BootRec) : ∃ o l, s.recWrite r = s.flashWrite o l := ⟨_, _, rfl⟩

section
variable {s} {t : State} (h : t.flash = s.flash)
include h

theorem State.flashBytes_of_flash : t.flashBytes = s.flashBytes := by
  have hat : t.flashAt = s.flashAt := funext fun o => by rw [State.flashAt, h, State.flashAt]
  exact funext fun o => funext fun n => by rw [State.flashBytes, hat, State.flashBytes]
/-- The governing boot record follows from the flash. -/
theorem State.bootRec_of_flash : t.bootRec = s.bootRec := by
  have hcopy : ∀ c, t.recCopy c = s.recCopy c := fun c => by
    unfold State.recCopy State.flashBe
    rw [State.flashBytes_of_flash h]
  simp only [State.bootRec, hcopy]
/-- What a boot record writes follows from the flash. -/
theorem State.recWrite_flash (r : BootRec) : (t.recWrite r).flash = (s.recWrite r).flash := by
  simp only [State.recWrite, State.flashWrite, State.bootRec_of_flash h, h]
/-- The check of a slot reads the flash, the part number and the fuses. -/
theorem State.imgCheck_of_flash (hpart : t.rd pgCRWN CRWN.DEV_ID_PART = s.rd pgCRWN CRWN.DEV_ID_PART) (hkey : t.keyRevoked = s.keyRevoked)
    (hsvn : t.fuseSvn = s.fuseSvn) (n : Nat) (ok : Bool) : t.imgCheck n ok = s.imgCheck n ok := by
  unfold State.imgCheck State.imgSvn State.flashBe
  rw [State.flashBytes_of_flash h, hpart, hkey, hsvn]
theorem State.imgSvn_of_flash (n : Nat) : t.imgSvn n = s.imgSvn n := by
  unfold State.imgSvn State.flashBe
  rw [State.flashBytes_of_flash h]
end

theorem State.fuseView_only : OnlyRegs s s.fuseView := ((OnlyRegs.refl s).wrAll ..).wrAll ..
/-- A register that shows no fuse reads the same. -/
theorem State.fuseView_rd {q : Nat} {g : Fld} {j : Nat} (h1 : FWU.FWU_STS_FUSE_SVN.key pgFWU 0 ≠ g.key q j)
    (h2 : FWU.FWU_STS_FELL_BACK.key pgFWU 0 ≠ g.key q j) (h3 : SEC.SEC_STS_ERASE_GEN.key pgSEC 0 ≠ g.key q j)
    (h4 : SEC.SEC_STS_KEY_REVOKED.key pgSEC 0 ≠ g.key q j) (h5 : SEC.SEC_STS_FACTORY.key pgSEC 0 ≠ g.key q j) :
    s.fuseView.rd q g j = s.rd q g j := by
  simp only [State.fuseView, State.wrAll]
  rw [State.rd_wr_ne _ _ h5, State.rd_wr_ne _ _ h4, State.rd_wr_ne _ _ h3, State.rd_wr_ne _ _ h2, State.rd_wr_ne _ _ h1]
theorem State.fuseView_svn : s.fuseView.rd pgFWU FWU.FWU_STS_FUSE_SVN = s.fuseSvn % 128 := by
  simp only [State.fuseView, State.wrAll]
  rw [State.rd_wr_ne _ _ (by decide), State.rd_wr_ne _ _ (by decide), State.rd_wr_ne _ _ (by decide), State.rd_wr_ne _ _ (by decide), State.rd_wr_same]
  rfl
theorem State.fuseView_live (p : Nat) : s.fuseView.live p = s.live p := by
  simp only [State.fuseView, State.wrAll]
  simp (disch := decide) only [State.wr_live]
end

/-! ### A command of FWU_CMD -/

/-- A command that no other holds back starts with VALID cleared (R62, R868). -/
theorem State.fwStart_of_idle {s : State} (hlive : s.live pgFWU = true) (hrun : s.fwRun = none) (hheld : s.fwHeld = none) (f : State → State) :
    s.fwStart f = f (s.resStart pgFWU FWU.FWU_RES) := by
  rw [State.fwStart, if_pos ⟨hlive, by simp [hrun], by simp [hheld]⟩]

section
variable (s : State) {q : Nat} {g : Fld} {j : Nat}

/-- A register outside the result set reads the same when a command starts. -/
theorem State.fwStarted_rd (h : FWU.FWU_RES.valid.key pgFWU 0 ≠ g.key q j) : (s.resStart pgFWU FWU.FWU_RES).rd q g j = s.rd q g j :=
  State.rd_wr_ne _ _ h
theorem State.fwStarted_live (p : Nat) : (s.resStart pgFWU FWU.FWU_RES).live p = s.live p := State.wr_live _ _ _ (by decide)
theorem State.fwStarted_only : OnlyRegs s (s.resStart pgFWU FWU.FWU_RES) := (OnlyRegs.refl s).wr ..
end

/-- The header of a result of FWU. -/
theorem State.fwResult_head (u : State) {tag st : Nat} (ws : List Nat) (late : Bool) (hst : st < 16) :
    (u.result pgFWU FWU.FWU_RES tag st ws 0 late).rd pgFWU FWU.FWU_RES.status = st ∧
      (u.result pgFWU FWU.FWU_RES tag st ws 0 late).rd pgFWU FWU.FWU_RES.tag = tag % 256 ∧
      (u.result pgFWU FWU.FWU_RES tag st ws 0 late).rd pgFWU FWU.FWU_RES.valid = 1 :=
  ⟨by rw [State.rd_result_status, Nat.mod_eq_of_lt hst], State.rd_result_tag .., State.rd_result_valid ..⟩

section
variable (u : State) (tag : Nat)

theorem State.fwDone_head : (u.fwDone tag).rd pgFWU FWU.FWU_RES.status = 1 ∧ (u.fwDone tag).rd pgFWU FWU.FWU_RES.tag = tag % 256 ∧
    (u.fwDone tag).rd pgFWU FWU.FWU_RES.valid = 1 := State.fwResult_head _ [] false (by decide)
theorem State.fwDone_rd {q : Nat} {g : Fld} {j : Nat} (h : g.key q j < 20983808 ∨ 20985856 ≤ g.key q j) : (u.fwDone tag).rd q g j = u.rd q g j :=
  State.rd_result_ne _ _ _ _ _ (by simp only [FWU.FWU_RES, pgFWU]; omega)
theorem State.fwDone_only : ∃ r, u.fwDone tag = { u with regs := r, fwRun := none } := by
  obtain ⟨r, h⟩ := (OnlyRegs.refl { u with fwRun := none }).result pgFWU FWU.FWU_RES tag DONE [] 0 false
  exact ⟨r, h⟩
@[simp] theorem State.fwDone_fellBack : (u.fwDone tag).fellBack = u.fellBack := by
  obtain ⟨r, h⟩ := u.fwDone_only tag
  rw [h]
@[simp] theorem State.fwDone_trialAt : (u.fwDone tag).trialAt = u.trialAt := by
  obtain ⟨r, h⟩ := u.fwDone_only tag
  rw [h]
@[simp] theorem State.fwDone_flash : (u.fwDone tag).flash = u.flash := by
  obtain ⟨r, h⟩ := u.fwDone_only tag
  rw [h]
@[simp] theorem State.fwDone_fuseSvn : (u.fwDone tag).fuseSvn = u.fuseSvn := by
  obtain ⟨r, h⟩ := u.fwDone_only tag
  rw [h]
@[simp] theorem State.fwDone_fwPassed : (u.fwDone tag).fwPassed = u.fwPassed := by
  obtain ⟨r, h⟩ := u.fwDone_only tag
  rw [h]
@[simp] theorem State.fwDone_toBandState : (u.fwDone tag).toBandState = u.toBandState := by
  obtain ⟨r, h⟩ := u.fwDone_only tag
  rw [h]
@[simp] theorem State.fwDone_toLineState : (u.fwDone tag).toLineState = u.toLineState := by
  obtain ⟨r, h⟩ := u.fwDone_only tag
  rw [h]
@[simp] theorem State.fwDone_toPipeState : (u.fwDone tag).toPipeState = u.toPipeState := by
  obtain ⟨r, h⟩ := u.fwDone_only tag
  rw [h]
@[simp] theorem State.fwDone_toQdState : (u.fwDone tag).toQdState = u.toQdState := by
  obtain ⟨r, h⟩ := u.fwDone_only tag
  rw [h]
@[simp] theorem State.fwDone_toHostState : (u.fwDone tag).toHostState = u.toHostState := by
  obtain ⟨r, h⟩ := u.fwDone_only tag
  rw [h]
@[simp] theorem State.fwDone_nt : (u.fwDone tag).nt = u.nt := by
  obtain ⟨r, h⟩ := u.fwDone_only tag
  rw [h]

/-- An ERROR of a firmware command: its code in the first word, what it found in the second, and cause 5 (R759). -/
theorem State.fwError_head (err code : Nat) (herr : err < 2 ^ 32) (hlive : u.live pgFWU = true) :
    (u.fwError tag err code).rd pgFWU FWU.FWU_RES.status = 4 ∧ (u.fwError tag err code).rd pgFWU FWU.FWU_RES.tag = tag % 256 ∧
      (u.fwError tag err code).rd pgFWU FWU.FWU_RES.valid = 1 ∧ (u.fwError tag err code).rd pgFWU (FWU.FWU_RES.word 1) = err ∧
      (u.fwError tag err code).rd pgFWU (FWU.FWU_RES.word 2) = code % 2 ^ 32 ∧
      bit ((u.fwError tag err code).rd pgFWU COMMON.INT_CAUSE_CAUSE) 5 = true := by
  obtain ⟨hstatus, htag, hvalid⟩ := State.fwResult_head { u with fwRun := none } (tag := tag) [err, code] false (st := ERROR) (by decide)
  refine ⟨?_, ?_, ?_, ?_, ?_, State.raise_sets _ ?_ (by decide)⟩
  · rw [State.fwError, State.raise_rd _ _ _ (by decide), hstatus]
    rfl
  · rw [State.fwError, State.raise_rd _ _ _ (by decide), htag]
  · rw [State.fwError, State.raise_rd _ _ _ (by decide), hvalid]
  · rw [State.fwError, State.raise_rd _ _ _ (by decide), State.rd_result_word _ _ _ _ _ _ _ _ (by decide)]
    exact Nat.mod_eq_of_lt herr
  · rw [State.fwError, State.raise_rd _ _ _ (by decide), State.rd_result_word _ _ _ _ _ _ _ _ (by decide)]
    rfl
  · rw [State.result_live _ _ _ _ _ _ _ _ _ (by decide)]
    exact hlive
theorem State.fwError_rd (err code : Nat) {q : Nat} {g : Fld} {j : Nat} (hc : g.calmAt q j) (h : g.key q j < 20983808 ∨ 20985856 ≤ g.key q j) :
    (u.fwError tag err code).rd q g j = u.rd q g j := by
  rw [State.fwError, State.raise_rd _ _ _ hc, State.rd_result_ne _ _ _ _ _ (by simp only [FWU.FWU_RES, pgFWU]; omega)]
  rfl
@[simp] theorem State.fwError_fellBack (err code : Nat) : (u.fwError tag err code).fellBack = u.fellBack := by simp [State.fwError]
@[simp] theorem State.fwError_trialAt (err code : Nat) : (u.fwError tag err code).trialAt = u.trialAt := by simp [State.fwError]
@[simp] theorem State.fwError_flash (err code : Nat) : (u.fwError tag err code).flash = u.flash := by simp [State.fwError]
@[simp] theorem State.fwError_fuseSvn (err code : Nat) : (u.fwError tag err code).fuseSvn = u.fuseSvn := by simp [State.fwError]
@[simp] theorem State.fwError_fwPassed (err code : Nat) : (u.fwError tag err code).fwPassed = u.fwPassed := by simp [State.fwError]
@[simp] theorem State.fwError_toBandState (err code : Nat) : (u.fwError tag err code).toBandState = u.toBandState := by simp [State.fwError]
@[simp] theorem State.fwError_toLineState (err code : Nat) : (u.fwError tag err code).toLineState = u.toLineState := by simp [State.fwError]
@[simp] theorem State.fwError_toPipeState (err code : Nat) : (u.fwError tag err code).toPipeState = u.toPipeState := by simp [State.fwError]
@[simp] theorem State.fwError_toQdState (err code : Nat) : (u.fwError tag err code).toQdState = u.toQdState := by simp [State.fwError]
@[simp] theorem State.fwError_nt (err code : Nat) : (u.fwError tag err code).nt = u.nt := by simp [State.fwError]
end

/-! ### A fallback -/

/-- The parts of the state that neither a restart nor a fallback changes. -/
def State.offFirmware (s : State) : BandState × PipeState × QdState × NetTime := (s.toBandState, s.toPipeState, s.toQdState, s.nt)

theorem State.offFirmware_eq {s t : State} (h : t.offFirmware = s.offFirmware) :
    t.toBandState = s.toBandState ∧ t.toPipeState = s.toPipeState ∧ t.toQdState = s.toQdState ∧ t.nt = s.nt := by
  simpa only [State.offFirmware, Prod.mk.injEq] using h

/-- A fallback as it is recorded, before the processors restart. -/
def State.fellBackTo (s : State) (reason : Nat) : State :=
  let r := s.bootRec.1
  let s1 := s.recWrite { r with active := r.prev, bank := r.prevBank, trial := 0 }
  let s2 := (({ s1 with fellBack := true, trialAt := none }).wrAll pgFWU 0 [(FWU.FWU_STS_FB_REASON, reason), (FWU.FWU_STS_TRIAL, 0)]).fuseView
  ((s2.cnt pgFWU FWU.FWU_CNT 4).raise pgFWU 4).logAppend (pageCode .fwu) 0 s.fwSource 0x2005 1 reason (s.imgVersion r.active)

section
variable (s : State) (reason : Nat)

theorem State.fallback_eq : s.fallback reason true = (s.fellBackTo reason).spRestartBoth := by
  simp only [State.fallback, State.fellBackTo, if_true]

/-- The state in which a fallback is counted. -/
def State.fellBackShown (s : State) (reason : Nat) : State :=
  (({ s.recWrite { s.bootRec.1 with active := s.bootRec.1.prev, bank := s.bootRec.1.prevBank, trial := 0 } with
      fellBack := true, trialAt := none } : State).wrAll pgFWU 0 [(FWU.FWU_STS_FB_REASON, reason), (FWU.FWU_STS_TRIAL, 0)]).fuseView

theorem State.fellBackTo_eq : s.fellBackTo reason = (((s.fellBackShown reason).cnt pgFWU FWU.FWU_CNT 4).raise pgFWU 4).logAppend
    (pageCode .fwu) 0 s.fwSource 0x2005 1 reason (s.imgVersion s.bootRec.1.active) := by
  simp only [State.fellBackTo, State.fellBackShown]

theorem State.fellBackShown_only : ∃ r, s.fellBackShown reason = { s with
    regs := r, fellBack := true, trialAt := none
    flash := (s.recWrite { s.bootRec.1 with active := s.bootRec.1.prev, bank := s.bootRec.1.prevBank, trial := 0 }).flash } := by
  obtain ⟨o, l, hrec⟩ := s.recWrite_eq { s.bootRec.1 with active := s.bootRec.1.prev, bank := s.bootRec.1.prevBank, trial := 0 }
  obtain ⟨r, h⟩ := ((OnlyRegs.refl ({ s.flashWrite o l with fellBack := true, trialAt := none } : State)).wrAll pgFWU 0
    [(FWU.FWU_STS_FB_REASON, reason), (FWU.FWU_STS_TRIAL, 0)]).trans (State.fuseView_only _)
  refine ⟨r, ?_⟩
  rw [State.fellBackShown, hrec, h]
  rfl

theorem State.fellBackShown_rd {q : Nat} {g : Fld} {j : Nat} (h : g.key q j / 32 ≠ 655360 + 256 ∧ g.key q j / 32 ≠ 720896 + 256) :
    (s.fellBackShown reason).rd q g j = s.rd q g j := by
  have hne : ∀ f : Fld, f.off = 256 → f.lo < 32 → f.key pgFWU 0 ≠ g.key q j ∧ f.key pgSEC 0 ≠ g.key q j := by
    intro f ho hl
    simp only [Fld.key, pgFWU, pgSEC] at h ⊢
    omega
  rw [State.fellBackShown, State.fuseView_rd]
  · simp only [State.wrAll]
    rw [State.rd_wr_ne _ _ (hne _ rfl (by decide)).1, State.rd_wr_ne _ _ (hne _ rfl (by decide)).1, State.rd_parts, State.recWrite, State.flashWrite_rd]
  · exact (hne _ rfl (by decide)).1
  · exact (hne _ rfl (by decide)).1
  · exact (hne _ rfl (by decide)).2
  · exact (hne _ rfl (by decide)).2
  · exact (hne _ rfl (by decide)).2
theorem State.fellBackShown_reason : (s.fellBackShown reason).rd pgFWU FWU.FWU_STS_FB_REASON = reason % 8 := by
  rw [State.fellBackShown, State.fuseView_rd _ (by decide) (by decide) (by decide) (by decide) (by decide)]
  simp only [State.wrAll]
  rw [State.rd_wr_ne _ _ (by decide), State.rd_wr_same]
  rfl
theorem State.fellBackShown_trial : (s.fellBackShown reason).rd pgFWU FWU.FWU_STS_TRIAL = 0 := by
  rw [State.fellBackShown, State.fuseView_rd _ (by decide) (by decide) (by decide) (by decide) (by decide)]
  simp only [State.wrAll]
  rw [State.rd_wr_same]
  rfl
theorem State.fellBackShown_live (p : Nat) : (s.fellBackShown reason).live p = s.live p := by
  have := dom_lt p
  simp only [State.live, State.domOn, State.on]
  rw [State.fellBackShown_rd]
  simp only [Fld.key, PWR.DOM_STS_POWERED, pgPWR]
  omega

theorem State.fellBackTo_rd {q : Nat} {g : Fld} {j : Nat} (hc : g.calmAt q j) (hcnt : FWU.FWU_CNT.key pgFWU 4 ≠ g.key q j) :
    (s.fellBackTo reason).rd q g j = (s.fellBackShown reason).rd q g j := by
  rw [State.fellBackTo_eq, State.logAppend_rd _ _ _ _ _ _ _ _ hc, State.raise_rd _ _ _ hc, State.cnt_rd_ne _ hc hcnt]
theorem State.fellBackTo_cnt : (s.fellBackTo reason).rd pgFWU FWU.FWU_CNT 4 = (s.rd pgFWU FWU.FWU_CNT 4 + 1) % 2 ^ 64 := by
  rw [State.fellBackTo_eq, State.logAppend_rd _ _ _ _ _ _ _ _ (by decide), State.raise_rd _ _ _ (by decide), State.cnt,
    State.bump_rd_same _ _ _ (by decide), State.fellBackShown_rd _ _ (by decide)]
  rfl
theorem State.fellBackTo_cause (hlive : s.live pgFWU = true) : bit ((s.fellBackTo reason).rd pgFWU COMMON.INT_CAUSE_CAUSE) 4 = true := by
  rw [State.fellBackTo_eq]
  refine State.cause_of_logAppend _ _ _ _ _ _ _ _ (by decide) (State.raise_sets _ ?_ (by decide))
  rw [State.cnt, State.live_bump _ _ _ _ _ _ _ (by decide) (by decide) (by decide), State.fellBackShown_live, hlive]
/-- What a fallback changes beside registers. -/
theorem State.fellBackTo_frame : (s.fellBackTo reason).fellBack = true ∧ (s.fellBackTo reason).trialAt = none ∧
    (s.fellBackTo reason).flash = (s.recWrite { s.bootRec.1 with active := s.bootRec.1.prev, bank := s.bootRec.1.prevBank, trial := 0 }).flash ∧
    (s.fellBackTo reason).offFirmware = s.offFirmware := by
  obtain ⟨r, h⟩ := s.fellBackShown_only reason
  rw [State.fellBackTo_eq, h]
  simp [State.offFirmware]

/-! ### A fallback that restarts the processors -/

theorem State.fallback_frame : (s.fallback reason true).fellBack = true ∧ (s.fallback reason true).trialAt = none ∧
    (s.fallback reason true).flash =
      (s.recWrite { s.bootRec.1 with active := s.bootRec.1.prev, bank := s.bootRec.1.prevBank, trial := 0 }).flash ∧
    (s.fallback reason true).offFirmware = s.offFirmware := by
  have hframe := s.fellBackTo_frame reason
  rw [State.fallback_eq]
  generalize s.fellBackTo reason = u at hframe ⊢
  obtain ⟨r, l, ps, n, h⟩ := u.spRestartBoth_only
  rw [h]
  exact hframe
theorem State.fallback_reason : (s.fallback reason true).rd pgFWU FWU.FWU_STS_FB_REASON = reason % 8 := by
  rw [State.fallback_eq, State.spRestartBoth_rd _ (by decide) (by decide), State.fellBackTo_rd _ _ (by decide) (by decide), State.fellBackShown_reason]
theorem State.fallback_trial : (s.fallback reason true).rd pgFWU FWU.FWU_STS_TRIAL = 0 := by
  rw [State.fallback_eq, State.spRestartBoth_rd _ (by decide) (by decide), State.fellBackTo_rd _ _ (by decide) (by decide), State.fellBackShown_trial]
theorem State.fallback_role {k : Nat} (hk : k < 2) (h : s.role k ≠ spOff) : (s.fallback reason true).role k = spBoot := by
  rw [State.fallback_eq]
  refine State.role_spRestartBoth _ hk ?_
  rw [State.role, State.fellBackTo_rd, State.fellBackShown_rd]
  · exact h
  all_goals apply of_forall_lt k hk; decide
theorem State.fallback_switching : (s.fallback reason true).rd pgSPA SPA.IL_STS_SWITCHING = 1 := by
  rw [State.fallback_eq, State.spRestartBoth_switching]
theorem State.fallback_cnt : (s.fallback reason true).rd pgFWU FWU.FWU_CNT 4 = (s.rd pgFWU FWU.FWU_CNT 4 + 1) % 2 ^ 64 := by
  rw [State.fallback_eq, State.spRestartBoth_rd _ (by decide) (by decide), State.fellBackTo_cnt]
theorem State.fallback_cause (hlive : s.live pgFWU = true) : bit ((s.fallback reason true).rd pgFWU COMMON.INT_CAUSE_CAUSE) 4 = true := by
  rw [State.fallback_eq, State.spRestartBoth_rd _ (by decide) (by decide)]
  exact s.fellBackTo_cause reason hlive
end

end Sys2Proof.Machine

/-! PROOFS. A trial and its fallback, the advance of the fuses, and the commands of the SEC page. -/

namespace Sys2Proof.Machine
set_option Elab.async false

/-! ### Commands of the SEC page -/

section
variable {s : State} (hlive : s.live pgSEC = true) (hheld : s.secHeld = none)
include hlive hheld

theorem State.secStart_runs (hgap : s.on pgSPA SPA.IL_STS_SWITCHING = false) (c : SecTask) (f : State → State) : s.secStart c f = f s := by
  simp [State.secStart, State.gate_of_live hlive, hheld, hgap]
theorem State.secStart_waits (hgap : s.on pgSPA SPA.IL_STS_SWITCHING = true) (c : SecTask) (f : State → State) :
    s.secStart c f = { s.resStart pgSEC SEC.SEC_RES with secHeld := some c } := by
  simp [State.secStart, State.gate_of_live hlive, hheld, hgap]
end

/-- The header of a result of SEC, counted afterwards. -/
theorem State.secResult_head (u : State) {tag st n : Nat} (ws : List Nat) (hst : st < 16) (hn : n < 4) :
    ((u.result pgSEC SEC.SEC_RES tag st ws).cnt pgSEC SEC.SEC_CNT n).rd pgSEC SEC.SEC_RES.status = st ∧
      ((u.result pgSEC SEC.SEC_RES tag st ws).cnt pgSEC SEC.SEC_CNT n).rd pgSEC SEC.SEC_RES.tag = tag % 256 ∧
      ((u.result pgSEC SEC.SEC_RES tag st ws).cnt pgSEC SEC.SEC_CNT n).rd pgSEC SEC.SEC_RES.valid = 1 ∧
      ((u.result pgSEC SEC.SEC_RES tag st ws).cnt pgSEC SEC.SEC_CNT n).rd pgSEC (SEC.SEC_RES.word 1) = ws.getD 0 0 % 2 ^ 32 ∧
      ((u.result pgSEC SEC.SEC_RES tag st ws).cnt pgSEC SEC.SEC_CNT n).rd pgSEC SEC.SEC_CNT n = (u.rd pgSEC SEC.SEC_CNT n + 1) % 2 ^ 64 := by
  have hne : ∀ f : Fld, f.off < 512 → f.lo < 32 → SEC.SEC_CNT.key pgSEC n ≠ f.key pgSEC 0 := by
    intro f ho hl
    simp only [Fld.key, SEC.SEC_CNT]
    omega
  refine ⟨?_, ?_, ?_, ?_, ?_⟩
  · rw [State.cnt_rd_ne _ (by decide) (hne _ (by decide) (by decide)), State.rd_result_status, Nat.mod_eq_of_lt hst]
  · rw [State.cnt_rd_ne _ (by decide) (hne _ (by decide) (by decide)), State.rd_result_tag]
  · rw [State.cnt_rd_ne _ (by decide) (hne _ (by decide) (by decide)), State.rd_result_valid]
  · rw [State.cnt_rd_ne _ (by decide) (hne _ (by decide) (by decide)), State.rd_result_word _ _ _ _ _ _ _ _ (by decide)]
  · have hcalm : Fld.calmAt SEC.SEC_CNT pgSEC n := by
      apply of_forall_lt n hn; decide
    rw [State.cnt, State.bump_rd_same _ _ _ hcalm, State.rd_result_ne]
    · rfl
    · simp only [Fld.key, SEC.SEC_CNT, SEC.SEC_RES, pgSEC]
      omega

theorem State.secCounted_live (u : State) {tag st n : Nat} (ws : List Nat) (hn : n < 4) (p : Nat) :
    ((u.result pgSEC SEC.SEC_RES tag st ws).cnt pgSEC SEC.SEC_CNT n).live p = u.live p := by
  rw [State.cnt, State.live_bump _ _ _ _ _ _ _ (by simp only [SEC.SEC_CNT]; omega) (by decide) (by decide),
    State.result_live _ _ _ _ _ _ _ _ _ (by decide)]

/-- A refused unlock (R757). -/
def State.secRefused (s : State) (tag err : Nat) : State :=
  (((s.result pgSEC SEC.SEC_RES tag ERROR [err]).cnt pgSEC SEC.SEC_CNT 3).raise pgSEC 2).raise pgSEC 3

theorem State.secRefused_spec (s : State) (tag : Nat) (hlive : s.live pgSEC = true) {err : Nat} (herr : err < 2 ^ 32) :
    (s.secRefused tag err).rd pgSEC SEC.SEC_RES.status = 4 ∧ (s.secRefused tag err).rd pgSEC SEC.SEC_RES.tag = tag % 256 ∧
      (s.secRefused tag err).rd pgSEC SEC.SEC_RES.valid = 1 ∧ (s.secRefused tag err).rd pgSEC (SEC.SEC_RES.word 1) = err ∧
      (s.secRefused tag err).rd pgSEC SEC.SEC_CNT 3 = (s.rd pgSEC SEC.SEC_CNT 3 + 1) % 2 ^ 64 ∧
      bit ((s.secRefused tag err).rd pgSEC COMMON.INT_CAUSE_CAUSE) 2 = true ∧ bit ((s.secRefused tag err).rd pgSEC COMMON.INT_CAUSE_CAUSE) 3 = true := by
  obtain ⟨hstatus, htag, hvalid, hword, hcnt⟩ := s.secResult_head (tag := tag) (n := 3) (st := ERROR) [err] (by decide) (by decide)
  have hlive' := (s.secCounted_live (tag := tag) (st := ERROR) (n := 3) [err] (by decide) pgSEC).trans hlive
  refine ⟨?_, ?_, ?_, ?_, ?_, State.cause_of_raise _ _ (by decide) (State.raise_sets _ hlive' (by decide)),
    State.raise_sets _ ((live_raise ..).trans hlive') (by decide)⟩
  · rw [State.secRefused, State.raise_rd _ _ _ (by decide), State.raise_rd _ _ _ (by decide), hstatus]
    rfl
  · rw [State.secRefused, State.raise_rd _ _ _ (by decide), State.raise_rd _ _ _ (by decide), htag]
  · rw [State.secRefused, State.raise_rd _ _ _ (by decide), State.raise_rd _ _ _ (by decide), hvalid]
  · rw [State.secRefused, State.raise_rd _ _ _ (by decide), State.raise_rd _ _ _ (by decide), hword]
    exact Nat.mod_eq_of_lt herr
  · rw [State.secRefused, State.raise_rd _ _ _ (by decide), State.raise_rd _ _ _ (by decide), hcnt]

/-! ### The challenge -/

/-- Every element of a list of distinct places that takes free values holds one. -/
theorem State.rd_foldl_wrFree (p : Nat) (f : Fld) (l : List Nat) (s : State) {x : Nat} (hx : x ∈ l)
    (h : ∀ y ∈ l, f.key p y = f.key p x → y = x) :
    ∃ n, (l.foldl (fun (t : State) k => t.wrFree p f k) s).rd p f x = Config.freeValue n % 2 ^ f.w := by
  induction l using snoc_induction with
  | nil => simp at hx
  | append_singleton l a ih =>
    rw [List.foldl_append, List.foldl_cons, List.foldl_nil]
    by_cases hk : f.key p a = f.key p x
    · rw [h a (by simp) hk]
      exact ⟨_, (State.rd_wr_same ..).trans (Nat.mod_mod _ _)⟩
    · obtain ⟨n, hn⟩ := ih ((List.mem_append.1 hx).resolve_right fun hxa => hk (by rw [List.mem_singleton.1 hxa])) fun y hy => h y (by simp [hy])
      exact ⟨n, by rw [State.wrFree, State.rd_wr_ne _ _ hk, State.rd_draw, hn]⟩

theorem State.foldl_wrFree_only (p : Nat) (f : Fld) (l : List Nat) (s : State) :
    ∃ r n, l.foldl (fun (t : State) k => t.wrFree p f k) s = { s with regs := r, free := n } := by
  induction l generalizing s with
  | nil => exact ⟨s.regs, s.free, rfl⟩
  | cons a l ih =>
    obtain ⟨r, n, h⟩ := ih (s.wrFree p f a)
    exact ⟨r, n, h⟩

theorem State.foldl_wrFree_rd_ne (p : Nat) (f : Fld) (l : List Nat) (s : State) {q : Nat} {g : Fld} {j : Nat} (h : ∀ x ∈ l, f.key p x ≠ g.key q j) :
    (l.foldl (fun (t : State) k => t.wrFree p f k) s).rd q g j = s.rd q g j := by
  induction l generalizing s with
  | nil => rfl
  | cons a l ih =>
    rw [List.foldl_cons, ih _ fun x hx => h x (List.mem_cons_of_mem _ hx), State.wrFree, State.rd_wr_ne _ _ (h a List.mem_cons_self), State.rd_draw]

/-! ### The advance of the fuses -/

/-- What an advance that no trial bars does, by the check of the recovery image and the running SVN (R739, R740). -/
def State.svnAdvance (s : State) (tag : Nat) (flashOk : Bool) : State :=
  if s.imgCheck 2 flashOk ≠ 1 ∨ s.imgSvn 2 < s.rd pgFWU FWU.RUN_INFO_SVN then s.fwError tag 6 (s.imgCheck 2 flashOk)
  else if s.rd pgFWU FWU.RUN_INFO_SVN ≤ s.fuseSvn then s.fwError tag 7 0
  else ((({ s with fuseSvn := s.rd pgFWU FWU.RUN_INFO_SVN } : State).fuseView).bump pgFWU FWU.FWU_CNT 5 5
    (s.rd pgFWU FWU.RUN_INFO_SVN - s.fuseSvn)).fwDone tag

section
variable {s : State} (hlive : s.live pgFWU = true) (hidle : s.fwRun = none) (hheld : s.fwHeld = none) (tag : Nat) (flashOk : Bool)
include hlive hidle hheld

theorem execSvnAdvance_free (htrial : s.on pgFWU FWU.FWU_STS_TRIAL = false) :
    execSvnAdvance tag flashOk s = .next ((s.resStart pgFWU FWU.FWU_RES).svnAdvance tag flashOk) := by
  have htrial' : (s.resStart pgFWU FWU.FWU_RES).on pgFWU FWU.FWU_STS_TRIAL = false := by
    rw [State.on, State.fwStarted_rd _ (by decide)]
    exact htrial
  rw [execSvnAdvance, State.fwStart_of_idle hlive hidle hheld]
  simp only [htrial', Bool.false_eq_true, if_false, State.svnAdvance]
theorem execSvnAdvance_trial (htrial : s.on pgFWU FWU.FWU_STS_TRIAL = true) :
    execSvnAdvance tag flashOk s = .next ((s.resStart pgFWU FWU.FWU_RES).fwError tag 5 0) := by
  have htrial' : (s.resStart pgFWU FWU.FWU_RES).on pgFWU FWU.FWU_STS_TRIAL = true := by
    rw [State.on, State.fwStarted_rd _ (by decide)]
    exact htrial
  rw [execSvnAdvance, State.fwStart_of_idle hlive hidle hheld, if_pos htrial']
end

section
variable (s : State) (tag : Nat) (flashOk : Bool)

theorem State.svnAdvance_frame : (s.svnAdvance tag flashOk).flash = s.flash ∧ (s.svnAdvance tag flashOk).toBandState = s.toBandState ∧
    (s.svnAdvance tag flashOk).toLineState = s.toLineState ∧ (s.svnAdvance tag flashOk).toPipeState = s.toPipeState ∧
    (s.svnAdvance tag flashOk).toQdState = s.toQdState ∧ (s.svnAdvance tag flashOk).nt = s.nt := by
  rw [State.svnAdvance]
  split
  · simp
  · split
    · simp
    · obtain ⟨r, h⟩ := (State.fuseView_only ({ s with fuseSvn := s.rd pgFWU FWU.RUN_INFO_SVN } : State)).bump pgFWU FWU.FWU_CNT 5 5
        (s.rd pgFWU FWU.RUN_INFO_SVN - s.fuseSvn)
      rw [h]
      simp

theorem State.svnAdvance_result (hlive : s.live pgFWU = true) :
    if s.imgCheck 2 flashOk ≠ 1 ∨ s.imgSvn 2 < s.rd pgFWU FWU.RUN_INFO_SVN then
      (s.svnAdvance tag flashOk).rd pgFWU FWU.FWU_RES.status = 4 ∧ (s.svnAdvance tag flashOk).rd pgFWU (FWU.FWU_RES.word 1) = 6 ∧
        (s.svnAdvance tag flashOk).fuseSvn = s.fuseSvn
    else if s.rd pgFWU FWU.RUN_INFO_SVN ≤ s.fuseSvn then
      (s.svnAdvance tag flashOk).rd pgFWU FWU.FWU_RES.status = 4 ∧ (s.svnAdvance tag flashOk).rd pgFWU (FWU.FWU_RES.word 1) = 7 ∧
        (s.svnAdvance tag flashOk).fuseSvn = s.fuseSvn
    else (s.svnAdvance tag flashOk).rd pgFWU FWU.FWU_RES.status = 1 ∧ (s.svnAdvance tag flashOk).fuseSvn = s.rd pgFWU FWU.RUN_INFO_SVN ∧
      (s.svnAdvance tag flashOk).rd pgFWU FWU.FWU_STS_FUSE_SVN = s.rd pgFWU FWU.RUN_INFO_SVN % 128 := by
  split
  · rename_i hbad
    obtain ⟨hstatus, -, -, hword, -⟩ := s.fwError_head tag 6 (s.imgCheck 2 flashOk) (by decide) hlive
    rw [State.svnAdvance, if_pos hbad]
    exact ⟨hstatus, hword, State.fwError_fuseSvn ..⟩
  · rename_i hgood
    split
    · rename_i hlow
      obtain ⟨hstatus, -, -, hword, -⟩ := s.fwError_head tag 7 0 (by decide) hlive
      rw [State.svnAdvance, if_neg hgood, if_pos hlow]
      exact ⟨hstatus, hword, State.fwError_fuseSvn ..⟩
    · rename_i hhigh
      rw [State.svnAdvance, if_neg hgood, if_neg hhigh]
      refine ⟨(State.fwDone_head ..).1, ?_, ?_⟩
      · obtain ⟨r, h⟩ := (State.fuseView_only ({ s with fuseSvn := s.rd pgFWU FWU.RUN_INFO_SVN } : State)).bump pgFWU FWU.FWU_CNT 5 5
          (s.rd pgFWU FWU.RUN_INFO_SVN - s.fuseSvn)
        rw [State.fwDone_fuseSvn, h]
      · rw [State.fwDone_rd _ _ (by decide), State.bump_rd_ne _ _ _ (by decide) (by decide), State.fuseView_svn]
end

/-! ### The unlock -/

theorem bit_clrBit_same (v : Nat) : bit (clrBit v 0) 0 = false := by
  by_cases h : v % 2 = 1
  · simp [bit, clrBit, h]
    omega
  · simp [bit, clrBit, h]


/-- The customer keys as an unlock leaves them. -/
def State.keysErased (s : State) : State :=
  { s with keks := [(0, bytesToBeWords (Config.secretHmac
             (([0x4F, 0x4C, 0x35, 0x31, 0x32, 0x30, 0x20, 0x4B, 0x45, 0x4B, 0x30] : List Byte) ++ [byteOf (s.eraseGen + 1)])))]
           eraseGen := s.eraseGen + 1, factory := true
           sas := s.sas.map fun (e : Nat × MacSa) => (e.1, { e.2 with key := [], salt := [], inUse := false })
           ipsSas := s.ipsSas.map fun (e : Nat × IpsSa) => (e.1, { e.2 with key := [], salt := 0, cfg := clrBit e.2.cfg 0 }) }

theorem State.unlock_eq (s : State) : ∃ r a, s.unlock =
    ({ s.keysErased with regs := r } : State).logAppend (pageCode .sec) 0 s.fwSource 0x2006 1 a 0 := by
  have hview : ∀ u : State, ∃ r, (if u.fuseView.live pgBON then u.fuseView.inc pgBON BON.FACTORY_EV_COUNT else u.fuseView) = { u with regs := r } := by
    intro u
    split
    · exact (State.fuseView_only u).inc ..
    · exact State.fuseView_only u
  obtain ⟨r, h⟩ := hview s.keysErased
  refine ⟨r, s.eraseGen + 1, ?_⟩
  rw [← h]
  rfl

theorem State.keysErased_spec (s : State) : s.keysErased.keks.length = 1 ∧ s.keysErased.factory = true ∧ s.keysErased.eraseGen = s.eraseGen + 1 ∧
    (s.keysErased.sas.all fun e => e.2.key.isEmpty && !e.2.inUse) = true ∧
    (s.keysErased.ipsSas.all fun e => e.2.key.isEmpty && !e.2.valid) = true := by
  refine ⟨rfl, rfl, rfl, ?_, ?_⟩
  · simp [State.keysErased]
  · simp [State.keysErased, IpsSa.valid, bit_clrBit_same]

/-- Settles O53, clause by clause. -/
theorem firmwareTrialAndSecurity : Obligations.FirmwareTrialAndSecurity := by
  unfold Obligations.FirmwareTrialAndSecurity
  refine ⟨?_, ?_, ?_, ?_, ?_, ?_, ?_, ?_, ?_, ?_, ?_⟩
  · intro s n hlive hat hold
    have hrun : execFwTrialTimeout s = .next (s.fallback 1 true) := by
      simp only [execFwTrialTimeout, hat, hlive, hold, and_self, if_true]
    obtain ⟨hfell, htrial, hflash, hparts⟩ := s.fallback_frame 1
    exact ⟨_, hrun, hfell, htrial, s.fallback_reason 1, s.fallback_trial 1, hflash, fun k hk => s.fallback_role 1 hk, s.fallback_switching 1,
      s.fallback_cnt 1, s.fallback_cause 1 hlive, State.offFirmware_eq hparts⟩
  · intro s tag hlive hidle hheld htrial
    have htrial' : (s.resStart pgFWU FWU.FWU_RES).on pgFWU FWU.FWU_STS_TRIAL = true := by
      rw [State.on, State.fwStarted_rd _ (by decide)]
      exact htrial
    have hflash' : (s.resStart pgFWU FWU.FWU_RES).flash = s.flash := rfl
    have hrole' : ∀ k, (s.resStart pgFWU FWU.FWU_RES).role k = s.role k := fun k =>
      State.fwStarted_rd _ (by obtain h | h := ilRole_eq k <;> rw [h] <;> decide)
    have hcnt' : (s.resStart pgFWU FWU.FWU_RES).rd pgFWU FWU.FWU_CNT 4 = s.rd pgFWU FWU.FWU_CNT 4 := State.fwStarted_rd _ (by decide)
    have hlive' := (s.fwStarted_live pgFWU).trans hlive
    obtain ⟨hband, -, hpipe, hqd, -, -, hnt⟩ := s.fwStarted_only.frame
    have hrun : execFwReject tag s = .next (((s.resStart pgFWU FWU.FWU_RES).fallback 3 true).fwDone tag) := by
      rw [execFwReject, State.fwStart_of_idle hlive hidle hheld, if_pos htrial']
    generalize s.resStart pgFWU FWU.FWU_RES = u at *
    obtain ⟨hfell, htr, hflash, hparts⟩ := u.fallback_frame 3
    obtain ⟨hstatus, htag, hvalid⟩ := (u.fallback 3 true).fwDone_head tag
    obtain ⟨pband, ppipe, pqd, pnt⟩ := State.offFirmware_eq hparts
    refine ⟨_, hrun, ?_, ?_, ?_, ?_, ?_, fun k hk hon => ?_, ?_, ?_, ?_, hstatus, htag, hvalid, ?_⟩
    · rw [State.fwDone_fellBack, hfell]
    · rw [State.fwDone_trialAt, htr]
    · rw [State.fwDone_rd _ _ (by decide), State.fallback_reason]
    · rw [State.fwDone_rd _ _ (by decide), State.fallback_trial]
    · rw [State.fwDone_flash, hflash, State.bootRec_of_flash hflash', State.recWrite_flash hflash']
    · have hdown : ((u.fallback 3 true).fwDone tag).role k = (u.fallback 3 true).role k :=
        State.fwDone_rd _ _ (by obtain h | h := ilRole_eq k <;> rw [h] <;> decide)
      rw [hdown, State.fallback_role _ _ hk (by rwa [hrole'])]
    · rw [State.fwDone_rd _ _ (by decide), State.fallback_switching]
    · rw [State.fwDone_rd _ _ (by decide), State.fallback_cnt, hcnt']
    · rw [State.fwDone_rd _ _ (by decide)]
      exact u.fallback_cause 3 hlive'
    · simp only [State.fwDone_toBandState, State.fwDone_toPipeState, State.fwDone_toQdState, State.fwDone_nt]
      exact ⟨pband.trans hband, ppipe.trans hpipe, pqd.trans hqd, pnt.trans hnt⟩
  · intro s tag hlive hidle hheld htrial
    have htrial' : (s.resStart pgFWU FWU.FWU_RES).on pgFWU FWU.FWU_STS_TRIAL = false := by
      rw [State.on, State.fwStarted_rd _ (by decide)]
      exact htrial
    have hrun : execFwReject tag s = .next ((s.resStart pgFWU FWU.FWU_RES).result pgFWU FWU.FWU_RES tag DONE [] 0 true) := by
      rw [execFwReject, State.fwStart_of_idle hlive hidle hheld, if_neg (by simp [htrial'])]
    obtain ⟨hstatus, htag, hvalid⟩ := (s.resStart pgFWU FWU.FWU_RES).fwResult_head (tag := tag) [] true (st := DONE) (by decide)
    refine ⟨_, hrun, ?_, by simp [State.resStart], hstatus, htag, hvalid, by simp [State.resStart]⟩
    rw [State.rd_result_late]
    rfl
  · intro s hlive hmay
    obtain ⟨o, l, hrec⟩ := State.recWrite_eq ({ s with trialAt := none } : State) { s.bootRec.1 with trial := 0, prevBank := s.bootRec.1.bank }
    have hflash : (({ s with trialAt := none } : State).recWrite { s.bootRec.1 with trial := 0, prevBank := s.bootRec.1.bank }).flash =
        (s.recWrite { s.bootRec.1 with trial := 0, prevBank := s.bootRec.1.bank }).flash := State.recWrite_flash rfl _
    have hrun : execFwConfirm s = .next ((((((({ s with trialAt := none } : State).recWrite
        { s.bootRec.1 with trial := 0, prevBank := s.bootRec.1.bank }).wrAll pgFWU 0 [(FWU.FWU_STS_CONFIRMED, 1), (FWU.FWU_STS_TRIAL, 0)]).cnt
        pgFWU FWU.FWU_CNT 3).raise pgFWU 3).logAppend (pageCode .fwu) 0 s.fwSource 0x2004 0 (s.rd pgFWU FWU.RUN_VERSION_VERSION)
        (s.rd pgFWU FWU.RUN_INFO_SCHEMA))) := by
      simp only [execFwConfirm, hlive, hmay, and_self, if_true]
    rw [hrec] at hrun hflash
    refine ⟨_, hrun, ?_, ?_, ?_, ?_, ?_, State.cause_of_logAppend _ _ _ _ _ _ _ _ (by decide) (State.raise_sets _ ?_ (by decide)), ?_⟩
    · simp [State.wrAll, State.flashWrite]
    · rw [State.logAppend_rd _ _ _ _ _ _ _ _ (by decide), State.raise_rd _ _ _ (by decide), State.cnt_rd_ne _ (by decide) (by decide)]
      simp only [State.wrAll]
      rw [State.rd_wr_ne _ _ (by decide), State.rd_wr_same]
      rfl
    · rw [State.logAppend_rd _ _ _ _ _ _ _ _ (by decide), State.raise_rd _ _ _ (by decide), State.cnt_rd_ne _ (by decide) (by decide)]
      simp only [State.wrAll]
      rw [State.rd_wr_same]
      rfl
    · rw [← hflash]
      simp [State.wrAll]
    · rw [State.logAppend_rd _ _ _ _ _ _ _ _ (by decide), State.raise_rd _ _ _ (by decide), State.cnt, State.bump_rd_same _ _ _ (by decide)]
      simp only [State.wrAll]
      rw [State.rd_wr_ne _ _ (by decide), State.rd_wr_ne _ _ (by decide), State.flashWrite_rd]
      rfl
    · rw [State.cnt, State.live_bump _ _ _ _ _ _ _ (by decide) (by decide) (by decide)]
      simp only [State.wrAll]
      rw [State.wr_live _ _ _ (by decide), State.wr_live _ _ _ (by decide), State.flashWrite_live]
      exact hlive
    · simp [State.wrAll]
  · intro s tag flashOk hlive hidle hheld htrial
    have hresult := (s.resStart pgFWU FWU.FWU_RES).svnAdvance_result tag flashOk ((s.fwStarted_live pgFWU).trans hlive)
    have hcheck : (s.resStart pgFWU FWU.FWU_RES).imgCheck 2 flashOk = s.imgCheck 2 flashOk :=
      State.imgCheck_of_flash (s := s) (t := s.resStart pgFWU FWU.FWU_RES) rfl (State.fwStarted_rd _ (by decide)) rfl rfl 2 flashOk
    have hsvn : (s.resStart pgFWU FWU.FWU_RES).imgSvn 2 = s.imgSvn 2 := State.imgSvn_of_flash rfl 2
    have hrd : (s.resStart pgFWU FWU.FWU_RES).rd pgFWU FWU.RUN_INFO_SVN = s.rd pgFWU FWU.RUN_INFO_SVN := State.fwStarted_rd _ (by decide)
    obtain ⟨hflash, hband, hline, hpipe, hqd, hnt⟩ := (s.resStart pgFWU FWU.FWU_RES).svnAdvance_frame tag flashOk
    rw [hcheck, hsvn, hrd] at hresult
    exact ⟨_, execSvnAdvance_free hlive hidle hheld tag flashOk htrial, hresult, hflash, hband, hline, hpipe, hqd, hnt⟩
  · intro s tag flashOk hlive hidle hheld htrial
    obtain ⟨hstatus, htag, hvalid, hword, -⟩ := (s.resStart pgFWU FWU.FWU_RES).fwError_head tag 5 0 (by decide) ((s.fwStarted_live pgFWU).trans hlive)
    exact ⟨_, execSvnAdvance_trial hlive hidle hheld tag flashOk htrial, by simp [State.resStart], by simp [State.resStart], hword, hstatus, htag,
      hvalid, by simp [State.resStart]⟩
  · intro s tag hlive hheld hgap
    obtain ⟨hstatus, htag, hvalid, -, hcnt⟩ := State.secResult_head { s with quote := s.quoteHeader ++ Config.rsaSign 1 s.quoteHeader } (tag := tag)
      (n := 0) (st := DONE) [] (by decide) (by decide)
    refine ⟨_, congrArg Host.Outcome.next (State.secStart_runs hlive hheld hgap _ _), ?_, ?_, State.raise_sets _ ?_ (by decide), ?_, ?_, ?_, ?_⟩
    · simp [State.secQuote]
    · rw [State.secQuote, State.raise_rd _ _ _ (by decide), hcnt]
      rfl
    · rw [State.secCounted_live _ _ (by decide)]
      exact hlive
    · rw [State.secQuote, State.raise_rd _ _ _ (by decide), hstatus]
      rfl
    · rw [State.secQuote, State.raise_rd _ _ _ (by decide), htag]
    · rw [State.secQuote, State.raise_rd _ _ _ (by decide), hvalid]
    · simp [State.secQuote]
  · intro s tag hlive hheld hgap
    refine ⟨_, congrArg Host.Outcome.next (State.secStart_waits hlive hheld hgap _ _), rfl, rfl, ?_, rfl, rfl, rfl, rfl, rfl, rfl⟩
    exact State.rd_wr_same ..
  · intro s tag hlive hheld hgap
    have hrun : execSecChallenge tag s = .next (s.secChallenge tag) := by
      rw [execSecChallenge, State.secStart_runs hlive hheld hgap]
    obtain ⟨hstatus, htag, hvalid, -, hcnt⟩ := State.secResult_head
      ((List.range 8).foldl (fun (t : State) (k : Nat) => t.wrFree pgSEC SEC.CHALLENGE_DATA k) ({ s with challenged := true } : State)) (tag := tag)
      (n := 1) (st := DONE) [] (by decide) (by decide)
    obtain ⟨r, n, hdata⟩ := State.foldl_wrFree_only pgSEC SEC.CHALLENGE_DATA (List.range 8) ({ s with challenged := true } : State)
    refine ⟨_, hrun, ?_, fun k hk => ?_, hcnt.trans ?_, hstatus, htag, hvalid, ?_⟩
    · rw [State.secChallenge, hdata]
      simp
    · obtain ⟨m, hm⟩ := State.rd_foldl_wrFree pgSEC SEC.CHALLENGE_DATA (List.range 8) ({ s with challenged := true } : State) (List.mem_range.2 hk)
        fun y _ h => by simp only [Fld.key, SEC.CHALLENGE_DATA] at h; omega
      refine ⟨m, Eq.trans ?_ hm⟩
      have hplace : Fld.calmAt SEC.CHALLENGE_DATA pgSEC k ∧ SEC.SEC_CNT.key pgSEC 1 ≠ SEC.CHALLENGE_DATA.key pgSEC k ∧
          SEC.CHALLENGE_DATA.key pgSEC k < pgSEC * 2097152 + (SEC.SEC_RES.off + SEC.SEC_RES.stride * 0) * 32 := by
        apply of_forall_lt k hk; decide
      rw [State.secChallenge, State.cnt_rd_ne _ hplace.1 hplace.2.1, State.rd_result_ne _ _ _ _ _ (.inl hplace.2.2)]
    · rw [State.foldl_wrFree_rd_ne]
      · rfl
      · intro x hx
        simp only [List.mem_range] at hx
        apply of_forall_lt x hx; decide
    · rw [State.secChallenge, hdata]
      simp
  · intro s tag hlive hheld hgap hno
    have hrun : execSecUnlock tag s = .next (({ s with challenged := false } : State).secRefused tag 4) := by
      rw [execSecUnlock, State.secStart_runs hlive hheld hgap, State.secUnlock, if_pos (by simp [hno])]
      rfl
    obtain ⟨hstatus, htag, hvalid, hword, hcnt, h2, h3⟩ := State.secRefused_spec ({ s with challenged := false } : State) tag hlive (err := 4) (by decide)
    exact ⟨_, hrun, by simp [State.secRefused], by simp [State.secRefused], by simp [State.secRefused], hcnt, h2, h3, hstatus, htag, hvalid, hword,
      by simp [State.secRefused]⟩
  · intro s tag hlive hheld hgap hyes
    have hrun : execSecUnlock tag s = .next (s.secUnlock tag) := by
      rw [execSecUnlock, State.secStart_runs hlive hheld hgap]
    refine ⟨_, hrun, ?_⟩
    by_cases hbad : s.tokenGood = false
    · have hend : s.secUnlock tag = ({ s with challenged := false } : State).secRefused tag 2 := by
        rw [State.secUnlock, if_neg (by simp [hyes]), if_pos (by simp [hbad])]
        rfl
      obtain ⟨hstatus, -, -, hword, -⟩ := State.secRefused_spec ({ s with challenged := false } : State) tag hlive (err := 2) (by decide)
      rw [hend, if_pos hbad]
      exact ⟨by simp [State.secRefused], ⟨hstatus, hword, by simp [State.secRefused]⟩, by simp [State.secRefused]⟩
    · by_cases hgone : s.eraseGen = 8
      · have hend : s.secUnlock tag = ({ s with challenged := false } : State).secRefused tag 3 := by
          rw [State.secUnlock, if_neg (by simp [hyes]), if_neg (by simpa using hbad), if_pos hgone]
          rfl
        obtain ⟨hstatus, -, -, hword, -⟩ := State.secRefused_spec ({ s with challenged := false } : State) tag hlive (err := 3) (by decide)
        rw [hend, if_neg hbad, if_pos hgone]
        exact ⟨by simp [State.secRefused], ⟨hstatus, hword, by simp [State.secRefused]⟩, by simp [State.secRefused]⟩
      · have hend : s.secUnlock tag = (((({ s with challenged := false } : State).unlock.result pgSEC SEC.SEC_RES tag DONE).cnt pgSEC SEC.SEC_CNT 2).raise
            pgSEC 1) := by
          rw [State.secUnlock, if_neg (by simp [hyes]), if_neg (by simpa using hbad), if_neg hgone]
        obtain ⟨r, a, hunlock⟩ := ({ s with challenged := false } : State).unlock_eq
        obtain ⟨hkeks, hfactory, hgen, hsas, hips⟩ := ({ s with challenged := false } : State).keysErased_spec
        obtain ⟨hstatus, -⟩ := State.secResult_head ({ s with challenged := false } : State).unlock (tag := tag) (n := 2) (st := DONE) []
          (by decide) (by decide)
        rw [hend, if_neg hbad, if_neg hgone]
        refine ⟨?_, ⟨?_, ?_, ?_, ?_, ?_, ?_⟩, ?_⟩
        · rw [hunlock]
          simp [State.keysErased]
        · rw [State.raise_rd _ _ _ (by decide), hstatus]
          rfl
        all_goals rw [hunlock]
        · simp [hfactory]
        · simp [hgen]
        · simp [hkeks]
        · simpa using hsas
        · simpa using hips
        · simp [State.keysErased]

end Sys2Proof.Machine

/-! PROOFS. Firmware images: the slot chosen at boot, staging, checks, arming and activation. -/

namespace Sys2Proof.Machine
set_option Elab.async false

/-! ### The record of a check -/

theorem State.imgCheck_le (s : State) (n : Nat) (ok : Bool) : s.imgCheck n ok ≤ 9 := by
  unfold State.imgCheck
  simp only
  repeat' split
  all_goals omega

section
variable (s : State) (n code : Nat)

theorem State.imgRecord_only : ∃ r, s.imgRecord n code = { s with
    regs := r
    fwPassed := if code = 1 then n :: s.fwPassed.filter (fun (k : Nat) => k ≠ n) else s.fwPassed.filter (fun (k : Nat) => k ≠ n) } := by
  obtain ⟨r, h⟩ := (OnlyRegs.refl s).wrAll pgFWU n [(FWU.SLOT_VER_VERSION, if code = 1 then s.imgVersion n else 0),
    (FWU.SLOT_INFO_SVN, if code = 1 then s.imgSvn n else 0), (FWU.SLOT_INFO_SCHEMA, if code = 1 then s.imgSchema n else 0),
    (FWU.SLOT_INFO_CHECK, code)]
  refine ⟨r, ?_⟩
  simp only [State.imgRecord, h]
/-- A register below the slots' words, or above those of the three slots, reads the same. -/
theorem State.imgRecord_rd {q : Nat} {g : Fld} {j : Nat} (h : g.key q j < 20980736 ∨ n < 3 ∧ 20981504 ≤ g.key q j) :
    (s.imgRecord n code).rd q g j = s.rd q g j := by
  simp only [State.imgRecord, State.wrAll, State.rd_parts]
  rw [State.rd_wr_ne, State.rd_wr_ne, State.rd_wr_ne, State.rd_wr_ne] <;>
    simp only [Fld.key, FWU.SLOT_VER_VERSION, FWU.SLOT_INFO_SVN, FWU.SLOT_INFO_SCHEMA, FWU.SLOT_INFO_CHECK, pgFWU] at h ⊢ <;> omega
theorem State.imgRecord_check : (s.imgRecord n code).rd pgFWU FWU.SLOT_INFO_CHECK n = code % 16 := by
  simp only [State.imgRecord, State.wrAll, State.rd_parts]
  rw [State.rd_wr_same]
  rfl
theorem State.imgRecord_live (p : Nat) : (s.imgRecord n code).live p = s.live p := by
  have := dom_lt p
  simp only [State.live, State.domOn, State.on]
  rw [State.imgRecord_rd]
  simp only [Fld.key, PWR.DOM_STS_POWERED, pgPWR]
  omega
end

section
variable (s : State) (n code : Nat)
@[simp] theorem State.imgRecord_fwPassed : (s.imgRecord n code).fwPassed =
    if code = 1 then n :: s.fwPassed.filter (fun (k : Nat) => k ≠ n) else s.fwPassed.filter (fun (k : Nat) => k ≠ n) := by
  obtain ⟨r, h⟩ := s.imgRecord_only n code
  rw [h]
@[simp] theorem State.imgRecord_flash : (s.imgRecord n code).flash = s.flash := by
  obtain ⟨r, h⟩ := s.imgRecord_only n code
  rw [h]
@[simp] theorem State.imgRecord_sps : (s.imgRecord n code).sps = s.sps := by
  obtain ⟨r, h⟩ := s.imgRecord_only n code
  rw [h]
@[simp] theorem State.imgRecord_keyRevoked : (s.imgRecord n code).keyRevoked = s.keyRevoked := by
  obtain ⟨r, h⟩ := s.imgRecord_only n code
  rw [h]
@[simp] theorem State.imgRecord_fuseSvn : (s.imgRecord n code).fuseSvn = s.fuseSvn := by
  obtain ⟨r, h⟩ := s.imgRecord_only n code
  rw [h]
@[simp] theorem State.imgRecord_toHostState : (s.imgRecord n code).toHostState = s.toHostState := by
  obtain ⟨r, h⟩ := s.imgRecord_only n code
  rw [h]
@[simp] theorem State.imgRecord_toBandState : (s.imgRecord n code).toBandState = s.toBandState := by
  obtain ⟨r, h⟩ := s.imgRecord_only n code
  rw [h]
@[simp] theorem State.imgRecord_toLineState : (s.imgRecord n code).toLineState = s.toLineState := by
  obtain ⟨r, h⟩ := s.imgRecord_only n code
  rw [h]
@[simp] theorem State.imgRecord_toPipeState : (s.imgRecord n code).toPipeState = s.toPipeState := by
  obtain ⟨r, h⟩ := s.imgRecord_only n code
  rw [h]
@[simp] theorem State.imgRecord_toQdState : (s.imgRecord n code).toQdState = s.toQdState := by
  obtain ⟨r, h⟩ := s.imgRecord_only n code
  rw [h]
@[simp] theorem State.imgRecord_nt : (s.imgRecord n code).nt = s.nt := by
  obtain ⟨r, h⟩ := s.imgRecord_only n code
  rw [h]
end

/-! ### Choosing a slot at boot -/

/-- What the attempts at boot write: registers of the FWU page and the slots that passed. -/
def BootOnly (s t : State) : Prop := ∃ r l, t = { s with regs := r, fwPassed := l } ∧ ∀ k < 20979712, tget r k = tget s.regs k

namespace BootOnly
variable {s t u : State}
theorem refl (s : State) : BootOnly s s := ⟨s.regs, s.fwPassed, rfl, fun _ _ => rfl⟩
theorem trans (h : BootOnly s t) (g : BootOnly t u) : BootOnly s u := by
  obtain ⟨r, l, rfl, hr⟩ := h
  obtain ⟨q, m, rfl, hq⟩ := g
  exact ⟨q, m, rfl, fun k hk => (hq k hk).trans (hr k hk)⟩
theorem wr (h : BootOnly s t) (f : Fld) (v i : Nat) (hf : 256 ≤ f.off) : BootOnly s (t.wr pgFWU f v i) := by
  refine h.trans ⟨_, t.fwPassed, rfl, fun k hk => ?_⟩
  have hne : f.key pgFWU i ≠ k := by
    rintro rfl
    simp only [Fld.key, pgFWU] at hk
    omega
  split
  · exact tget_tdel_ne _ hne
  · exact tget_tset_ne _ _ hne
theorem passed (h : BootOnly s t) (l : List Nat) : BootOnly s { t with fwPassed := l } := h.trans ⟨t.regs, l, rfl, fun _ _ => rfl⟩
theorem imgRecord (h : BootOnly s t) (n code : Nat) : BootOnly s (t.imgRecord n code) := by
  simp only [State.imgRecord, State.wrAll]
  exact ((((h.wr _ _ _ (by decide)).wr _ _ _ (by decide)).wr _ _ _ (by decide)).wr _ _ _ (by decide)).passed _
theorem bootLog (h : BootOnly s t) (n v : Nat) : BootOnly s (t.wr pgFWU (bootLogOf n) v) := by
  refine h.wr _ _ _ ?_
  unfold bootLogOf
  split
  · decide
  · split <;> decide
theorem rd (h : BootOnly s t) {q : Nat} {g : Fld} {j : Nat} (hk : g.key q j < 20979712) : t.rd q g j = s.rd q g j := by
  obtain ⟨r, l, rfl, hr⟩ := h
  unfold State.rd tgetD
  rw [← hr _ hk]
theorem fuses (h : BootOnly s t) : t.flash = s.flash ∧ t.keyRevoked = s.keyRevoked ∧ t.fuseSvn = s.fuseSvn := by
  obtain ⟨r, l, rfl, -⟩ := h
  exact ⟨rfl, rfl, rfl⟩
/-- The checks go on as before. -/
theorem imgCheck (h : BootOnly s t) (n : Nat) (ok : Bool) : t.imgCheck n ok = s.imgCheck n ok := by
  have hpart := h.rd (g := CRWN.DEV_ID_PART) (q := pgCRWN) (j := 0) (by decide)
  obtain ⟨hflash, hkey, hsvn⟩ := h.fuses
  exact State.imgCheck_of_flash hflash hpart hkey hsvn n ok
theorem bootTry (s : State) (ok : Bool) (l : List Nat) : BootOnly s (s.bootTry ok l).1 := by
  induction l generalizing s with
  | nil => exact refl s
  | cons n l ih =>
    have hone : BootOnly s ((s.wr pgFWU (bootLogOf n) (s.imgCheck n ok)).imgRecord n (s.imgCheck n ok)) := ((refl s).bootLog ..).imgRecord ..
    simp only [State.bootTry]
    split
    · exact hone
    · exact hone.trans (ih _)
end BootOnly

/-- The first slot that passes is tried alone. -/
theorem bootTry_first (s : State) {ok : Bool} {n : Nat} {l : List Nat} (h : s.imgCheck n ok = 1) : (s.bootTry ok (n :: l)).2 = some n := by
  simp only [State.bootTry, h, if_true]
/-- Where no slot passes none is chosen. -/
theorem bootTry_none (s : State) {ok : Bool} {l : List Nat} (h : ∀ n ∈ l, s.imgCheck n ok ≠ 1) : (s.bootTry ok l).2 = none := by
  induction l generalizing s with
  | nil => rfl
  | cons n l ih =>
    have hone : BootOnly s ((s.wr pgFWU (bootLogOf n) (s.imgCheck n ok)).imgRecord n (s.imgCheck n ok)) := ((BootOnly.refl s).bootLog ..).imgRecord ..
    simp only [State.bootTry, h n List.mem_cons_self, if_false]
    exact ih _ fun m hm => by rw [hone.imgCheck]; exact h m (List.mem_cons_of_mem _ hm)

/-! ### The frame of a boot -/

theorem BootOnly.offFirmware {s t : State} (h : BootOnly s t) : t.offFirmware = s.offFirmware ∧ t.flash = s.flash ∧ t.sps = s.sps := by
  obtain ⟨r, l, rfl, -⟩ := h
  exact ⟨rfl, rfl, rfl⟩

section
variable (s : State)

theorem State.fallback_offFirmware (reason : Nat) (restart : Bool) : (s.fallback reason restart).offFirmware = s.offFirmware := by
  cases restart
  · have h : s.fallback reason false = s.fellBackTo reason := by
      simp only [State.fallback, State.fellBackTo, Bool.false_eq_true, if_false]
    rw [h]
    exact (s.fellBackTo_frame reason).2.2.2
  · exact (s.fallback_frame reason).2.2.2
theorem State.migrate_offFirmware (n : Nat) (bytes : List Byte) : (s.migrate n bytes).offFirmware = s.offFirmware := by
  rw [State.migrate]
  split
  · rfl
  · split
    · rw [State.recWrite]
      simp only [State.offFirmware, State.flashWrite_toBandState, State.flashWrite_toPipeState, State.flashWrite_toQdState, State.flashWrite_nt]
    · exact s.fallback_offFirmware 2 true

/-- The image in slot n as it is shown where it starts. -/
theorem State.bootShow_only (n : Nat) (trial : Bool) : ∃ r d a, s.bootShow n trial = { s with regs := r, runDigest := d, trialAt := a } := by
  obtain ⟨r, h⟩ := (OnlyRegs.refl s).wrAll pgFWU 0 [(FWU.FWU_STS_RUN_SLOT, n), (FWU.FWU_STS_TRIAL, b2n trial), (FWU.FWU_STS_NO_IMAGE, 0),
    (FWU.FWU_STS_CONFIRMED, if trial then 0 else s.rd pgFWU FWU.FWU_STS_CONFIRMED),
    (FWU.RUN_VERSION_VERSION, s.imgVersion n), (FWU.RUN_INFO_SVN, s.imgSvn n), (FWU.RUN_INFO_SCHEMA, s.imgSchema n)]
  exact ⟨r, s.flashBytes (slotBase n + 32) 32, if trial then some s.ticks else none, by simp only [State.bootShow, h]⟩
theorem State.bootShow_slot (n : Nat) (trial : Bool) : (s.bootShow n trial).rd pgFWU FWU.FWU_STS_RUN_SLOT = n % 4 := by
  simp only [State.bootShow, State.wrAll, State.rd_parts]
  rw [State.rd_wr_ne _ _ (by decide), State.rd_wr_ne _ _ (by decide), State.rd_wr_ne _ _ (by decide), State.rd_wr_ne _ _ (by decide),
    State.rd_wr_ne _ _ (by decide), State.rd_wr_ne _ _ (by decide), State.rd_wr_same]
  rfl

theorem State.bootSlot_offFirmware (k n : Nat) (bytes : List Byte) : (s.bootSlot k n bytes).offFirmware = s.offFirmware := by
  have hstart : ∀ t a, ((s.bootShow n t).setSp k a).offFirmware = s.offFirmware := by
    intro t a
    obtain ⟨r, d, x, h⟩ := s.bootShow_only n t
    rw [h]
    rfl
  have hcount : ∀ (u : State) r, (u.recWrite r).offFirmware = u.offFirmware := fun u r => by
    obtain ⟨o, l, h⟩ := u.recWrite_eq r
    rw [h]
    simp only [State.offFirmware, State.flashWrite_toBandState, State.flashWrite_toPipeState, State.flashWrite_toQdState, State.flashWrite_nt]
  simp only [State.bootSlot]
  split
  · split
    · rw [State.migrate_offFirmware, hcount, hstart]
    · rw [hcount, hstart]
  · exact hstart _ _
/-- A slot that is no trial starts as it is. -/
theorem State.bootSlot_untried {k n : Nat} (bytes : List Byte) (h : s.bootRec.1.trial = 0) :
    s.bootSlot k n bytes = (s.bootShow n false).setSp k { s.sp k with booted := true } := by
  simp [State.bootSlot, h]

/-- A processor that no partner leads tries the slots of the boot record. -/
theorem State.bootSelect_alone {k : Nat} (ok : Bool) (bytes : List Byte) (h : s.role (spOther k) ≠ spActive) (hb : (s.sp (spOther k)).booted = false) :
    ∃ t, BootOnly s t ∧ s.bootSelect k ok bytes =
      match t.bootTry ok (bootOrder s.bootRec.1).1 with
      | (u, some n) => (if (bootOrder s.bootRec.1).2 then u.fallback 4 false else u).bootSlot k n bytes
      | (u, none) => u.wr pgFWU FWU.FWU_STS_NO_IMAGE 1 := by
  refine ⟨s.wrAll pgFWU 0 [(FWU.BOOT_LOG_A, 0), (FWU.BOOT_LOG_B, 0), (FWU.BOOT_LOG_RECOVERY, 0)], ?_, ?_⟩
  · exact (((BootOnly.refl s).wr _ _ _ (by decide)).wr _ _ _ (by decide)).wr _ _ _ (by decide)
  · have hno : ¬ (s.role (spOther k) = spActive ∨ (s.sp (spOther k)).booted = true) := by simp [h, hb]
    simp only [State.bootSelect, hno, if_false] <;> rfl
theorem State.bootSelect_offFirmware {k : Nat} (ok : Bool) (bytes : List Byte) (h : s.role (spOther k) ≠ spActive)
    (hb : (s.sp (spOther k)).booted = false) : (s.bootSelect k ok bytes).offFirmware = s.offFirmware := by
  obtain ⟨t, ht, hsel⟩ := s.bootSelect_alone ok bytes h hb
  rw [hsel]
  have hu := (ht.trans (BootOnly.bootTry t ok (bootOrder s.bootRec.1).1)).offFirmware.1
  generalize t.bootTry ok (bootOrder s.bootRec.1).1 = x at hu
  obtain ⟨u, _ | n⟩ := x
  · exact hu
  · refine (State.bootSlot_offFirmware ..).trans ?_
    split
    · exact (State.fallback_offFirmware ..).trans hu
    · exact hu

/-- What a processor does whose partner runs slot n, which passes or not (R729, R736). -/
def State.followSlot (k n code : Nat) : State :=
  if code = 1 then (s.imgRecord n code).setSp k { s.sp k with booted := true } else s.imgRecord n code

theorem State.bootSelect_follow {k : Nat} (ok : Bool) (bytes : List Byte) (h : s.role (spOther k) = spActive) :
    s.bootSelect k ok bytes = s.followSlot k (s.rd pgFWU FWU.FWU_STS_RUN_SLOT) (s.imgCheck (s.rd pgFWU FWU.FWU_STS_RUN_SLOT) ok) := by
  rw [State.bootSelect, if_pos (.inl h), State.followSlot]
theorem State.followSlot_spec (k n : Nat) {code : Nat} (hcode : code < 16) (hb : (s.sp k).booted = false) :
    (s.followSlot k n code).flash = s.flash ∧ ((s.followSlot k n code).sp k).booted = decide (code = 1) ∧
    (s.followSlot k n code).rd pgFWU FWU.SLOT_INFO_CHECK n = code ∧ (s.followSlot k n code).toBandState = s.toBandState ∧
    (s.followSlot k n code).toLineState = s.toLineState ∧ (s.followSlot k n code).toPipeState = s.toPipeState ∧
    (s.followSlot k n code).toQdState = s.toQdState ∧ (s.followSlot k n code).nt = s.nt ∧
    (s.followSlot k n code).toHostState = s.toHostState := by
  have hcheck : (s.imgRecord n code).rd pgFWU FWU.SLOT_INFO_CHECK n = code := by rw [State.imgRecord_check, Nat.mod_eq_of_lt hcode]
  rw [State.followSlot]
  split
  · rename_i hone
    refine ⟨?_, ?_, (State.setSp_rd ..).trans hcheck, ?_⟩
    · simp [State.setSp]
    · rw [State.sp_setSp]
      simp only [hone, decide_true]
    · simp [State.setSp]
  · rename_i hone
    refine ⟨State.imgRecord_flash .., ?_, hcheck, ?_⟩
    · rw [State.sp_of_sps (s.imgRecord_sps n code), hb]
      simp only [hone, decide_false]
    · simp
end

/-! ### Staging -/

section
variable (s : State)

theorem State.fetch_only (fn a n : Nat) : ∃ r o, s.fetch fn a n = { s with regs := r, out := o } := by
  have hfold : ∀ (l : List (Nat × Nat)) (t : State), ∃ r o,
      l.foldl (fun (t : State) e => (t.cnt pgPCE PCE.PCE_CNT 1).emit (.hostRead fn e.1 e.2)) t = { t with regs := r, out := o } := by
    intro l
    induction l with
    | nil => exact fun t => ⟨t.regs, t.out, rfl⟩
    | cons e l ih =>
      intro t
      obtain ⟨q, hq⟩ := (OnlyRegs.refl t).bump pgPCE PCE.PCE_CNT 1 1 1
      obtain ⟨r, o, h⟩ := ih ((t.cnt pgPCE PCE.PCE_CNT 1).emit (.hostRead fn e.1 e.2))
      refine ⟨r, o, ?_⟩
      rw [List.foldl_cons, h, State.cnt, hq]
      rfl
  rw [State.fetch]
  split
  · exact hfold _ s
  · exact ⟨s.regs, s.out, rfl⟩
/-- The requests of a read change no register but their count and what follows from it. -/
theorem State.fetch_rd_at (fn a n : Nat) {q : Nat} {g : Fld} {j : Nat} (h : ¬ sideKey (g.key q j)) (hne : PCE.PCE_CNT.key pgPCE 1 ≠ g.key q j) :
    (s.fetch fn a n).rd q g j = s.rd q g j := by
  have hone : ∀ (t : State) (e : Nat × Nat), ((t.cnt pgPCE PCE.PCE_CNT 1).emit (.hostRead fn e.1 e.2)).rd q g j = t.rd q g j :=
    fun t e => (t.wr pgPCE PCE.PCE_CNT _ 1 |>.rd_pmc _ _ _ h).trans (State.rd_wr_ne _ _ hne)
  have hfold : ∀ (l : List (Nat × Nat)) (t : State),
      (l.foldl (fun (t : State) e => (t.cnt pgPCE PCE.PCE_CNT 1).emit (.hostRead fn e.1 e.2)) t).rd q g j = t.rd q g j := by
    intro l
    induction l with
    | nil => exact fun t => rfl
    | cons e l ih => exact fun t => (ih _).trans (hone t e)
  rw [State.fetch]
  split
  · exact hfold _ s
  · rfl
theorem State.fetch_rd (fn a n : Nat) {q : Nat} {g : Fld} {j : Nat} (h : g.calmAt q j) : (s.fetch fn a n).rd q g j = s.rd q g j := by
  refine s.fetch_rd_at fn a n (not_sideKey_of_calmAt h) ?_
  obtain ⟨-, hhi, hlo, -, -, -, hpce⟩ := h
  simp only [Fld.key, PCE.PCE_CNT, pgPCE]
  omega

/-- The state in which the transfer of a STAGE into slot n ends (R744). -/
def State.stageFetched (n : Nat) : State := ((s.resStart pgFWU FWU.FWU_RES).slotErase n).stageFetch (slotSize n)
end

section
variable (s : State) (n : Nat)

/-- Erasing writes bytes to the flash and takes the slot from those that passed. -/
theorem State.slotErase_eq : ∃ l, ∀ u : State, u.slotErase n =
    { u.flashWrite (slotBase n) l with fwPassed := u.fwPassed.filter (fun (k : Nat) => k ≠ n) } := ⟨_, fun u => by rw [State.slotErase]⟩
@[simp] theorem State.slotErase_rd (p : Nat) (f : Fld) (i : Nat) : (s.slotErase n).rd p f i = s.rd p f i := by
  obtain ⟨l, h⟩ := State.slotErase_eq n
  rw [h]
  rfl
@[simp] theorem State.slotErase_live (p : Nat) : (s.slotErase n).live p = s.live p := by
  obtain ⟨l, h⟩ := State.slotErase_eq n
  rw [h]
  rfl
/-- Erasing changes the flash, by the flash alone, and the slots that passed. -/
theorem State.slotErase_only : ∃ x, (∀ u : State, u.flash = s.flash → (u.slotErase n).flash = x) ∧
    s.slotErase n = { s with flash := x, fwPassed := s.fwPassed.filter (fun (k : Nat) => k ≠ n) } := by
  obtain ⟨l, h⟩ := State.slotErase_eq n
  refine ⟨flashPut s.flash (slotBase n) l, fun u hu => ?_, ?_⟩
  · rw [h, ← hu]
    rfl
  · rw [h]
    rfl
/-- An erased slot has not passed. -/
theorem State.slotErase_passed : (s.slotErase n).fwPassed.contains n = false := by
  obtain ⟨l, h⟩ := State.slotErase_eq n
  rw [h]
  simp

theorem State.stageFetched_only : ∃ r o l x, s.stageFetched n = { s with regs := r, out := o, fwPassed := l, flash := x } ∧
    x = (s.slotErase n).flash := by
  obtain ⟨x', hx', h'⟩ := (s.resStart pgFWU FWU.FWU_RES).slotErase_only n
  obtain ⟨r, o, hf⟩ := ((s.resStart pgFWU FWU.FWU_RES).slotErase n).fetch_only 1
    (((s.resStart pgFWU FWU.FWU_RES).slotErase n).rd pgFWU FWU.STG_ADDR_LO_ADDR + ((s.resStart pgFWU FWU.FWU_RES).slotErase n).rd pgFWU FWU.STG_ADDR_HI_ADDR * 2 ^ 32)
    (min (((s.resStart pgFWU FWU.FWU_RES).slotErase n).rd pgFWU FWU.STG_LEN_BYTES) (slotSize n))
  exact ⟨r, o, _, x', by rw [State.stageFetched, State.stageFetch, hf, h']; rfl, (hx' s rfl).symm⟩
theorem State.stageFetched_rd {q : Nat} {g : Fld} {j : Nat} (hc : g.calmAt q j) (h : FWU.FWU_RES.valid.key pgFWU 0 ≠ g.key q j) :
    (s.stageFetched n).rd q g j = s.rd q g j := by
  rw [State.stageFetched, State.stageFetch, State.fetch_rd _ _ _ _ hc, State.slotErase_rd, State.fwStarted_rd _ h]
theorem State.stageFetched_part : (s.stageFetched n).rd pgCRWN CRWN.DEV_ID_PART = s.rd pgCRWN CRWN.DEV_ID_PART := by
  rw [State.stageFetched, State.stageFetch, State.fetch_rd_at _ _ _ _ (by decide) (by decide), State.slotErase_rd, State.fwStarted_rd _ (by decide)]
theorem State.stageFetched_valid : (s.stageFetched n).rd pgFWU FWU.FWU_RES.valid = 0 := by
  rw [State.stageFetched, State.stageFetch, State.fetch_rd _ _ _ _ (by decide), State.slotErase_rd, State.resStart, State.rd_wr_same]
  rfl
theorem State.stageFetched_live (p : Nat) : (s.stageFetched n).live p = s.live p := by
  have := dom_lt p
  simp only [State.live, State.domOn, State.on]
  rw [State.stageFetched_rd]
  · simp only [Fld.calmAt, PWR.DOM_STS_POWERED, pgPWR]
    omega
  · simp only [Fld.key, PWR.DOM_STS_POWERED, pgPWR, FWU.FWU_RES, pgFWU]
    omega
end

/-- After an ERROR no command runs. -/
theorem State.fwError_idle (u : State) (tag err code : Nat) : (u.fwError tag err code).fwRun = none := by
  obtain ⟨r, h⟩ := (OnlyRegs.refl { u with fwRun := none }).result pgFWU FWU.FWU_RES tag ERROR [err, code] 0 false
  rw [State.fwError, State.raise_fwRun, h]

/-- An ERROR leaves the causes raised before it. -/
theorem State.fwError_cause (u : State) (tag err code : Nat) {c : Nat} (hc : c < 16) (h : bit (u.rd pgFWU COMMON.INT_CAUSE_CAUSE) c = true) :
    bit ((u.fwError tag err code).rd pgFWU COMMON.INT_CAUSE_CAUSE) c = true := by
  rw [State.fwError]
  refine State.cause_of_raise _ _ hc ?_
  rw [State.rd_result_ne _ _ _ _ _ (by decide), State.rd_parts]
  exact h

section
variable {s : State} {slot : Nat} (hslot : slot < 3) (hlive : s.live pgFWU = true) (hidle : s.fwRun = none) (hheld : s.fwHeld = none)
  (tag : Nat) (io : FlashIo)
include hslot hlive hidle hheld

/-- A STAGE of a slot that may be written erases its header and reads the image from the host (R744). -/
theorem execFwStage_runs (hgap : s.on pgSPA SPA.IL_STS_SWITCHING = false) (hrun : slot ≠ s.rd pgFWU FWU.FWU_STS_RUN_SLOT)
    (htrial : s.on pgFWU FWU.FWU_STS_TRIAL = false) : execFwStage slot tag io s = .next ((s.stageFetched slot).stageEnd slot tag io) := by
  have hgap' : (s.resStart pgFWU FWU.FWU_RES).on pgSPA SPA.IL_STS_SWITCHING = false := by
    rw [State.on, State.fwStarted_rd _ (by decide)]
    exact hgap
  have hkeep : ¬ (slot = (s.resStart pgFWU FWU.FWU_RES).rd pgFWU FWU.FWU_STS_RUN_SLOT ∨
      ((s.resStart pgFWU FWU.FWU_RES).on pgFWU FWU.FWU_STS_TRIAL = true ∧ slot = (s.resStart pgFWU FWU.FWU_RES).bootRec.1.prev)) := by
    rw [State.on, State.fwStarted_rd _ (by decide), State.fwStarted_rd _ (by decide)]
    rintro (h | ⟨h, -⟩)
    · exact hrun h
    · exact Bool.false_ne_true (htrial.symm.trans h)
  rw [execFwStage, if_pos hslot, State.fwStart_of_idle hlive hidle hheld, State.fwGap, hgap', if_neg Bool.false_ne_true, State.stage, if_neg hkeep,
    State.stageFetched]
/-- A STAGE of the running slot is refused. -/
theorem execFwStage_refused (hgap : s.on pgSPA SPA.IL_STS_SWITCHING = false) (hrun : slot = s.rd pgFWU FWU.FWU_STS_RUN_SLOT) :
    execFwStage slot tag io s = .next ((s.resStart pgFWU FWU.FWU_RES).fwError tag 1 0) := by
  have hgap' : (s.resStart pgFWU FWU.FWU_RES).on pgSPA SPA.IL_STS_SWITCHING = false := by
    rw [State.on, State.fwStarted_rd _ (by decide)]
    exact hgap
  rw [execFwStage, if_pos hslot, State.fwStart_of_idle hlive hidle hheld, State.fwGap, hgap', if_neg Bool.false_ne_true, State.stage,
    if_pos (.inl (by rw [State.fwStarted_rd _ (by decide)]; exact hrun))]
/-- In a switchover gap a STAGE waits. -/
theorem execFwStage_waits (hgap : s.on pgSPA SPA.IL_STS_SWITCHING = true) :
    execFwStage slot tag io s = .next { s.resStart pgFWU FWU.FWU_RES with fwHeld := some (.stage slot tag io) } := by
  have hgap' : (s.resStart pgFWU FWU.FWU_RES).on pgSPA SPA.IL_STS_SWITCHING = true := by
    rw [State.on, State.fwStarted_rd _ (by decide)]
    exact hgap
  rw [execFwStage, if_pos hslot, State.fwStart_of_idle hlive hidle hheld, State.fwGap, if_pos hgap']
end

/-! ### The end of a STAGE -/

/-- An image that arrived whole and passes its check. -/
def State.stagedGood (u : State) (n tag : Nat) : State := (((u.imgRecord n 1).cnt pgFWU FWU.FWU_CNT 0).raise pgFWU 0).fwDone tag
/-- One that fails it: its header is erased again. -/
def State.stagedBad (u : State) (n tag code : Nat) : State :=
  (((((u.imgRecord n code).cnt pgFWU FWU.FWU_CNT 0).slotErase n |>.cnt pgFWU FWU.FWU_CNT 1).raise pgFWU 0).raise pgFWU 1).fwError tag 2 code

theorem State.stageEnd_data {s : State} (n tag : Nat) (bytes : List Byte) (h : s.tagFree = true) {u : State}
    (hu : u = s.flashWrite (slotBase n) (bytes.take (min (s.rd pgFWU FWU.STG_LEN_BYTES) (slotSize n)))) : s.stageEnd n tag (.data bytes) =
    if u.imgCheck n true = 1 then u.stagedGood n tag else u.stagedBad n tag (u.imgCheck n true) := by
  subst hu
  simp only [State.stageEnd, h, not_true, if_false, State.stagedGood, State.stagedBad]
  split
  · rename_i hcode
    rw [hcode]
  · rfl

section
variable (u : State) (n tag code : Nat) (hn : n < 3) (hlive : u.live pgFWU = true)

theorem State.recorded_live (p : Nat) : ((u.imgRecord n code).cnt pgFWU FWU.FWU_CNT 0).live p = u.live p := by
  rw [State.cnt, State.live_bump _ _ _ _ _ _ _ (by decide) (by decide) (by decide), State.imgRecord_live]
include hn in
theorem State.recorded_cnt : ((u.imgRecord n code).cnt pgFWU FWU.FWU_CNT 0).rd pgFWU FWU.FWU_CNT 0 = (u.rd pgFWU FWU.FWU_CNT 0 + 1) % 2 ^ 64 := by
  rw [State.cnt, State.bump_rd_same _ _ _ (by decide), State.imgRecord_rd _ _ _ (.inr ⟨hn, by decide⟩)]
  rfl

include hn hlive in
theorem State.stagedGood_spec : (u.stagedGood n tag).rd pgFWU FWU.FWU_RES.status = 1 ∧ (u.stagedGood n tag).flash = u.flash ∧
    (u.stagedGood n tag).fwPassed.contains n = true ∧ (u.stagedGood n tag).fwRun = none ∧
    (u.stagedGood n tag).rd pgFWU FWU.FWU_CNT 0 = (u.rd pgFWU FWU.FWU_CNT 0 + 1) % 2 ^ 64 ∧
    bit ((u.stagedGood n tag).rd pgFWU COMMON.INT_CAUSE_CAUSE) 0 = true := by
  refine ⟨(State.fwDone_head ..).1, ?_, ?_, ?_, ?_, ?_⟩
  · simp [State.stagedGood, State.cnt, State.bump]
  · simp [State.stagedGood, State.cnt, State.bump]
  · obtain ⟨r, h⟩ := (((u.imgRecord n 1).cnt pgFWU FWU.FWU_CNT 0).raise pgFWU 0).fwDone_only tag
    rw [State.stagedGood, h]
  · rw [State.stagedGood, State.fwDone_rd _ _ (by decide), State.raise_rd _ _ _ (by decide), State.recorded_cnt _ _ _ hn]
  · rw [State.stagedGood, State.fwDone_rd _ _ (by decide)]
    exact State.raise_sets _ ((State.recorded_live ..).trans hlive) (by decide)
theorem State.stagedGood_frame : (u.stagedGood n tag).toBandState = u.toBandState ∧ (u.stagedGood n tag).toLineState = u.toLineState ∧
    (u.stagedGood n tag).toPipeState = u.toPipeState ∧ (u.stagedGood n tag).toQdState = u.toQdState ∧ (u.stagedGood n tag).nt = u.nt := by
  simp [State.stagedGood, State.cnt, State.bump]

/-- The state in which a failed image's command ends. -/
def State.stagedErased (u : State) (n code : Nat) : State := ((u.imgRecord n code).cnt pgFWU FWU.FWU_CNT 0).slotErase n |>.cnt pgFWU FWU.FWU_CNT 1

theorem State.stagedBad_eq : u.stagedBad n tag code = (((u.stagedErased n code).raise pgFWU 0).raise pgFWU 1).fwError tag 2 code := by
  rw [State.stagedBad, State.stagedErased]
theorem State.stagedErased_only : ∃ r l x, u.stagedErased n code = { u with regs := r, fwPassed := l, flash := x } ∧
    l.contains n = false ∧ x = (u.slotErase n).flash := by
  obtain ⟨r, h⟩ := u.imgRecord_only n code
  obtain ⟨r', h'⟩ := (OnlyRegs.refl (u.imgRecord n code)).bump pgFWU FWU.FWU_CNT 0 0 1
  have hp := ((u.imgRecord n code).cnt pgFWU FWU.FWU_CNT 0).slotErase_passed n
  obtain ⟨x, hx, he⟩ := ((u.imgRecord n code).cnt pgFWU FWU.FWU_CNT 0).slotErase_only n
  obtain ⟨r'', h''⟩ := (OnlyRegs.refl (((u.imgRecord n code).cnt pgFWU FWU.FWU_CNT 0).slotErase n)).bump pgFWU FWU.FWU_CNT 1 1 1
  have hflash : (u.slotErase n).flash = x := hx u (by simp [State.cnt, State.bump])
  refine ⟨r'', _, x, ?_, hp, hflash.symm⟩
  rw [State.stagedErased, State.cnt, h'', he, State.cnt, h', h]
theorem State.stagedErased_live (p : Nat) : (u.stagedErased n code).live p = u.live p := by
  rw [State.stagedErased, State.cnt, State.live_bump _ _ _ _ _ _ _ (by decide) (by decide) (by decide), State.slotErase_live, State.recorded_live]
include hn in
theorem State.stagedErased_cnt : (u.stagedErased n code).rd pgFWU FWU.FWU_CNT 0 = (u.rd pgFWU FWU.FWU_CNT 0 + 1) % 2 ^ 64 := by
  rw [State.stagedErased, State.cnt_rd_ne _ (by decide) (by decide), State.slotErase_rd, State.recorded_cnt _ _ _ hn]

include hn hlive in
theorem State.stagedBad_spec (hcode : code < 2 ^ 32) : (u.stagedBad n tag code).rd pgFWU FWU.FWU_RES.status = 4 ∧
    (u.stagedBad n tag code).rd pgFWU (FWU.FWU_RES.word 1) = 2 ∧ (u.stagedBad n tag code).rd pgFWU (FWU.FWU_RES.word 2) = code ∧
    (u.stagedBad n tag code).flash = (u.slotErase n).flash ∧ (u.stagedBad n tag code).fwPassed.contains n = false ∧
    (u.stagedBad n tag code).fwRun = none ∧ (u.stagedBad n tag code).rd pgFWU FWU.FWU_CNT 0 = (u.rd pgFWU FWU.FWU_CNT 0 + 1) % 2 ^ 64 ∧
    bit ((u.stagedBad n tag code).rd pgFWU COMMON.INT_CAUSE_CAUSE) 0 = true := by
  obtain ⟨r, l, x, h, hl, hx⟩ := u.stagedErased_only n code
  have hlive' := (u.stagedErased_live n code pgFWU).trans hlive
  have hcnt := u.stagedErased_cnt n code hn
  have hflash : (u.stagedErased n code).flash = x := by rw [h]
  have hpassed : (u.stagedErased n code).fwPassed = l := by rw [h]
  rw [State.stagedBad_eq]
  generalize u.stagedErased n code = v at *
  obtain ⟨hstatus, -, -, hone, htwo, -⟩ := State.fwError_head ((v.raise pgFWU 0).raise pgFWU 1) tag 2 code (by decide)
    ((live_raise ..).trans ((live_raise ..).trans hlive'))
  refine ⟨hstatus, hone, htwo.trans (Nat.mod_eq_of_lt hcode), ?_, ?_, ?_, ?_, ?_⟩
  · rw [State.fwError_flash, State.raise_flash, State.raise_flash, hflash, hx]
  · rw [State.fwError_fwPassed, State.raise_fwPassed, State.raise_fwPassed, hpassed, hl]
  · exact State.fwError_idle ..
  · rw [State.fwError_rd _ _ _ _ (by decide) (by decide), State.raise_rd _ _ _ (by decide), State.raise_rd _ _ _ (by decide), hcnt]
  · exact State.fwError_cause _ _ _ _ (by decide) <| State.cause_of_raise _ _ (by decide) (State.raise_sets _ hlive' (by decide))
theorem State.stagedBad_frame : (u.stagedBad n tag code).toBandState = u.toBandState ∧ (u.stagedBad n tag code).toLineState = u.toLineState ∧
    (u.stagedBad n tag code).toPipeState = u.toPipeState ∧ (u.stagedBad n tag code).toQdState = u.toQdState ∧
    (u.stagedBad n tag code).nt = u.nt := by
  obtain ⟨r, l, x, h, -⟩ := u.stagedErased_only n code
  rw [State.stagedBad_eq, h]
  simp
end

end Sys2Proof.Machine

/-! PROOFS. Firmware commands: configurations, checks and activation. -/

namespace Sys2Proof.Machine
set_option Elab.async false

/-! ### Staging a configuration -/

section
variable {s t : State} (h : t.flash = s.flash) (b : Nat)
include h

theorem State.bankGood_of_flash : t.bankGood b = s.bankGood b := by
  unfold State.bankGood State.flashBe
  rw [State.flashBytes_of_flash h]
theorem State.bankSchema_of_flash : t.bankSchema b = s.bankSchema b := by
  unfold State.bankSchema State.flashBe
  rw [State.flashBytes_of_flash h]
end

section
variable (s : State)

/-- The state in which the transfer of a configuration ends (R742). -/
def State.bankFetched : State := (s.resStart pgFWU FWU.FWU_RES).stageFetch 0x100000

theorem State.bankFetched_only : ∃ r o, s.bankFetched = { s with regs := r, out := o } := by
  obtain ⟨r, o, hf⟩ := (s.resStart pgFWU FWU.FWU_RES).fetch_only 1
    ((s.resStart pgFWU FWU.FWU_RES).rd pgFWU FWU.STG_ADDR_LO_ADDR + (s.resStart pgFWU FWU.FWU_RES).rd pgFWU FWU.STG_ADDR_HI_ADDR * 2 ^ 32)
    (min ((s.resStart pgFWU FWU.FWU_RES).rd pgFWU FWU.STG_LEN_BYTES) 0x100000)
  exact ⟨r, o, by rw [State.bankFetched, State.stageFetch, hf]; rfl⟩
theorem State.bankFetched_rd {q : Nat} {g : Fld} {j : Nat} (hc : g.calmAt q j) (h : FWU.FWU_RES.valid.key pgFWU 0 ≠ g.key q j) :
    s.bankFetched.rd q g j = s.rd q g j := by
  rw [State.bankFetched, State.stageFetch, State.fetch_rd _ _ _ _ hc, State.fwStarted_rd _ h]
theorem State.bankFetched_live (p : Nat) : s.bankFetched.live p = s.live p := by
  have := dom_lt p
  simp only [State.live, State.domOn, State.on]
  rw [State.bankFetched_rd]
  · simp only [Fld.calmAt, PWR.DOM_STS_POWERED, pgPWR]
    omega
  · simp only [Fld.key, PWR.DOM_STS_POWERED, pgPWR, FWU.FWU_RES, pgFWU]
    omega

theorem execFwStageConfig_runs {s : State} (hlive : s.live pgFWU = true) (hidle : s.fwRun = none) (hheld : s.fwHeld = none)
    (hgap : s.on pgSPA SPA.IL_STS_SWITCHING = false) (tag : Nat) (io : FlashIo) :
    execFwStageConfig tag io s = .next (s.bankFetched.stageConfigEnd tag io) := by
  have hgap' : (s.resStart pgFWU FWU.FWU_RES).on pgSPA SPA.IL_STS_SWITCHING = false := by
    rw [State.on, State.fwStarted_rd _ (by decide)]
    exact hgap
  rw [execFwStageConfig, State.fwStart_of_idle hlive hidle hheld, State.fwGap, hgap', if_neg Bool.false_ne_true, State.stageConfig,
    State.bankFetched]

/-- A configuration that arrived whole and is good governs. -/
def State.configGood (u : State) (r : BootRec) (tag : Nat) : State := (((u.cnt pgFWU FWU.FWU_CNT 0).recWrite r).raise pgFWU 0).fwDone tag

theorem State.stageConfigEnd_data {s : State} (tag : Nat) (bytes : List Byte) {b : Nat} (hb : b = 1 - s.bootRec.1.bank) {u : State}
    (hu : u = s.flashWrite (bankBase b) (bytes.take (min (s.rd pgFWU FWU.STG_LEN_BYTES) 0x100000))) :
    s.stageConfigEnd tag (.data bytes) =
      if u.bankGood b = true ∧ u.bankSchema b = s.rd pgFWU FWU.RUN_INFO_SCHEMA then u.configGood { s.bootRec.1 with bank := b } tag
      else (u.cnt pgFWU FWU.FWU_CNT 0).fwError tag 8 0 := by
  have hflash : (u.cnt pgFWU FWU.FWU_CNT 0).flash = u.flash := by simp [State.cnt, State.bump]
  rw [← State.bankGood_of_flash hflash, ← State.bankSchema_of_flash hflash]
  simp only [State.stageConfigEnd, State.configGood, ← hb, ← hu]
end

section
variable (u : State) (r : BootRec) (tag : Nat)

theorem State.configGood_spec : (u.configGood r tag).rd pgFWU FWU.FWU_RES.status = 1 ∧ (u.configGood r tag).flash = (u.recWrite r).flash ∧
    (u.configGood r tag).fwRun = none ∧ (u.configGood r tag).rd pgFWU FWU.FWU_CNT 0 = (u.rd pgFWU FWU.FWU_CNT 0 + 1) % 2 ^ 64 := by
  refine ⟨(State.fwDone_head ..).1, ?_, ?_, ?_⟩
  · rw [State.configGood, State.fwDone_flash, State.raise_flash]
    exact State.recWrite_flash (by simp [State.cnt, State.bump]) r
  · obtain ⟨q, h⟩ := (((u.cnt pgFWU FWU.FWU_CNT 0).recWrite r).raise pgFWU 0).fwDone_only tag
    rw [State.configGood, h]
  · rw [State.configGood, State.fwDone_rd _ _ (by decide), State.raise_rd _ _ _ (by decide), State.recWrite, State.flashWrite_rd, State.cnt,
      State.bump_rd_same _ _ _ (by decide)]
    rfl
theorem State.configGood_frame : (u.configGood r tag).toBandState = u.toBandState ∧ (u.configGood r tag).toLineState = u.toLineState ∧
    (u.configGood r tag).toPipeState = u.toPipeState ∧ (u.configGood r tag).toQdState = u.toQdState ∧ (u.configGood r tag).nt = u.nt := by
  simp [State.configGood, State.cnt, State.bump, State.recWrite]
end

/-! ### Checks -/

/-- What a VERIFY of slot n raises once its code is recorded (R759). -/
def State.verified (s : State) (n code : Nat) : State :=
  if code = 9 then ((s.imgRecord n code).raise pgFWU 0).raise pgFWU 6 else (s.imgRecord n code).raise pgFWU 0

section
variable (s : State) (n code : Nat)

theorem State.verified_rd {q : Nat} {g : Fld} {j : Nat} (hc : g.calmAt q j) : (s.verified n code).rd q g j = (s.imgRecord n code).rd q g j := by
  rw [State.verified]
  split
  · rw [State.raise_rd _ _ _ hc, State.raise_rd _ _ _ hc]
  · rw [State.raise_rd _ _ _ hc]
theorem State.verified_live (p : Nat) : (s.verified n code).live p = s.live p := by
  rw [State.verified]
  split <;> simp [live_raise, State.imgRecord_live]
theorem State.verified_cause (hlive : s.live pgFWU = true) : bit ((s.verified n code).rd pgFWU COMMON.INT_CAUSE_CAUSE) 0 = true := by
  have hset := State.raise_sets (s.imgRecord n code) (c := 0) ((State.imgRecord_live ..).trans hlive) (by decide)
  rw [State.verified]
  split
  · exact State.cause_of_raise _ _ (by decide) hset
  · exact hset
theorem State.verified_frame : (s.verified n code).fwPassed = (s.imgRecord n code).fwPassed ∧ (s.verified n code).flash = s.flash ∧
    (s.verified n code).toBandState = s.toBandState ∧ (s.verified n code).toLineState = s.toLineState ∧
    (s.verified n code).toPipeState = s.toPipeState ∧ (s.verified n code).toQdState = s.toQdState ∧ (s.verified n code).nt = s.nt := by
  rw [State.verified]
  split <;> simp
theorem State.imgRecord_contains : (s.imgRecord n code).fwPassed.contains n = decide (code = 1) := by
  rw [State.imgRecord_fwPassed]
  split
  · simp [*]
  · simp [*]

theorem State.fwVerify_eq (tag : Nat) (ok : Bool) : s.fwVerify n tag ok =
    if s.imgCheck n ok = 1 then (s.verified n (s.imgCheck n ok)).fwDone tag
    else (((s.verified n (s.imgCheck n ok)).cnt pgFWU FWU.FWU_CNT 1).raise pgFWU 1).fwError tag 2 (s.imgCheck n ok) := by
  simp only [State.fwVerify, State.verified]

theorem execFwVerify_runs {s : State} {slot : Nat} (hslot : slot < 3) (hlive : s.live pgFWU = true) (hidle : s.fwRun = none)
    (hheld : s.fwHeld = none) (hgap : s.on pgSPA SPA.IL_STS_SWITCHING = false) (tag : Nat) (ok : Bool) :
    execFwVerify slot tag ok s = .next ((s.resStart pgFWU FWU.FWU_RES).fwVerify slot tag ok) := by
  have hgap' : (s.resStart pgFWU FWU.FWU_RES).on pgSPA SPA.IL_STS_SWITCHING = false := by
    rw [State.on, State.fwStarted_rd _ (by decide)]
    exact hgap
  rw [execFwVerify, if_pos hslot, State.fwStart_of_idle hlive hidle hheld, State.fwGap, hgap', if_neg Bool.false_ne_true]

/-- What a VERIFY leaves (R759). -/
theorem State.fwVerify_spec (tag : Nat) (ok : Bool) (hn : n < 3) (hlive : s.live pgFWU = true) :
    (s.fwVerify n tag ok).rd pgFWU FWU.SLOT_INFO_CHECK n = s.imgCheck n ok ∧
    (s.fwVerify n tag ok).fwPassed.contains n = decide (s.imgCheck n ok = 1) ∧
    (s.fwVerify n tag ok).rd pgFWU FWU.FWU_RES.status = (if s.imgCheck n ok = 1 then 1 else 4) ∧
    (s.fwVerify n tag ok).flash = s.flash ∧ bit ((s.fwVerify n tag ok).rd pgFWU COMMON.INT_CAUSE_CAUSE) 0 = true ∧
    (s.fwVerify n tag ok).toBandState = s.toBandState ∧ (s.fwVerify n tag ok).toLineState = s.toLineState ∧
    (s.fwVerify n tag ok).toPipeState = s.toPipeState ∧ (s.fwVerify n tag ok).toQdState = s.toQdState ∧ (s.fwVerify n tag ok).nt = s.nt := by
  have hle := s.imgCheck_le n ok
  rw [State.fwVerify_eq]
  generalize s.imgCheck n ok = code at *
  have hcalm : FWU.SLOT_INFO_CHECK.calmAt pgFWU n := by
    apply of_forall_lt n hn; decide
  have hfar : FWU.SLOT_INFO_CHECK.key pgFWU n < 20983808 := by
    apply of_forall_lt n hn; decide
  have hcheck : (s.verified n code).rd pgFWU FWU.SLOT_INFO_CHECK n = code := by
    rw [State.verified_rd _ _ _ hcalm, State.imgRecord_check, Nat.mod_eq_of_lt (by omega)]
  have hpassed := s.imgRecord_contains n code
  have hcause := s.verified_cause n code hlive
  have hlive' := (s.verified_live n code pgFWU).trans hlive
  obtain ⟨hp, hflash, hband, hline, hpipe, hqd, hnt⟩ := s.verified_frame n code
  rw [← hp] at hpassed
  generalize s.verified n code = v at *
  split
  · refine ⟨?_, ?_, (State.fwDone_head ..).1, ?_, ?_, ?_⟩
    · rw [State.fwDone_rd _ _ (.inl hfar), hcheck]
    · rw [State.fwDone_fwPassed, hpassed]
    · rw [State.fwDone_flash, hflash]
    · rw [State.fwDone_rd _ _ (by decide), hcause]
    · simp [hband, hline, hpipe, hqd, hnt]
  · have hcnt : FWU.FWU_CNT.key pgFWU 1 ≠ FWU.SLOT_INFO_CHECK.key pgFWU n := by
      apply of_forall_lt n hn; decide
    have hcl : (v.cnt pgFWU FWU.FWU_CNT 1).live pgFWU = true := by
      rw [State.cnt, State.live_bump _ _ _ _ _ _ _ (by decide) (by decide) (by decide), hlive']
    refine ⟨?_, ?_, (State.fwError_head _ _ _ _ (by decide) ((live_raise ..).trans hcl)).1, ?_, ?_, ?_⟩
    · rw [State.fwError_rd _ _ _ _ hcalm (.inl hfar), State.raise_rd _ _ _ hcalm, State.cnt_rd_ne _ hcalm hcnt, hcheck]
    · rw [State.fwError_fwPassed, State.raise_fwPassed, State.cnt, State.bump, State.pmc_fwPassed]
      exact hpassed
    · rw [State.fwError_flash, State.raise_flash, State.cnt, State.bump, State.pmc_flash]
      exact hflash
    · exact State.fwError_cause _ _ _ _ (by decide) <| State.cause_of_raise _ _ (by decide) (State.cause_of_cnt hcause (by decide) (by decide))
    · simp [hband, hline, hpipe, hqd, hnt, State.cnt, State.bump]
end


/-! ### Activation -/

section
variable (s : State)

/-- The state in which an accepted trigger is counted (R746). -/
def State.firedArmed : State :=
  (({ s with fwFired := true } : State).wr pgFWU FWU.FWU_STS_ARMED 0).recWrite { s.bootRec.1 with
    active := s.rd pgFWU FWU.FWU_STS_ARMED_SLOT, prev := s.rd pgFWU FWU.FWU_STS_RUN_SLOT, trial := 1, boots := 0, prevBank := s.bootRec.1.bank }
/-- An accepted trigger as it is recorded, before the processors restart. -/
def State.triggered : State :=
  ((s.firedArmed.cnt pgFWU FWU.FWU_CNT 2).raise pgFWU 2).logAppend (pageCode .fwu) 0 s.fwSource 0x2003 0
    (s.imgVersion (s.rd pgFWU FWU.FWU_STS_ARMED_SLOT)) (s.rd pgFWU FWU.FWU_STS_ARMED_SLOT)

theorem State.fwTrigger_accepted (harmed : s.on pgFWU FWU.FWU_STS_ARMED = true) (htrial : s.on pgFWU FWU.FWU_STS_TRIAL = false) :
    s.fwTrigger = (s.triggered.spRestartBoth, true) := by
  have hno : ¬ (¬ s.on pgFWU FWU.FWU_STS_ARMED = true ∨ s.on pgFWU FWU.FWU_STS_TRIAL = true) := by simp [harmed, htrial]
  simp only [State.fwTrigger, hno, if_false, State.triggered, State.firedArmed]
theorem State.fwTrigger_refused (h : s.on pgFWU FWU.FWU_STS_ARMED = false ∨ s.on pgFWU FWU.FWU_STS_TRIAL = true) :
    s.fwTrigger = (s.cnt pgFWU FWU.FWU_CNT 6, false) := by
  have hbar : ¬ s.on pgFWU FWU.FWU_STS_ARMED = true ∨ s.on pgFWU FWU.FWU_STS_TRIAL = true := h.imp_left (by simp)
  simp only [State.fwTrigger, hbar, if_true]

theorem State.firedArmed_rd {q : Nat} {g : Fld} {j : Nat} (h : FWU.FWU_STS_ARMED.key pgFWU 0 ≠ g.key q j) : s.firedArmed.rd q g j = s.rd q g j := by
  rw [State.firedArmed, State.recWrite, State.flashWrite_rd, State.rd_wr_ne _ _ h]
  rfl
theorem State.firedArmed_armed : s.firedArmed.rd pgFWU FWU.FWU_STS_ARMED = 0 := by
  rw [State.firedArmed, State.recWrite, State.flashWrite_rd, State.rd_wr_same]
  rfl
theorem State.firedArmed_live (p : Nat) : s.firedArmed.live p = s.live p := by
  rw [State.firedArmed, State.recWrite, State.flashWrite_live, State.wr_live _ _ _ (by decide)]
  rfl
/-- What the trigger leaves beside registers. -/
theorem State.firedArmed_frame : s.firedArmed.fwFired = true ∧ s.firedArmed.offFirmware = s.offFirmware ∧
    s.firedArmed.flash = (s.recWrite { s.bootRec.1 with
      active := s.rd pgFWU FWU.FWU_STS_ARMED_SLOT, prev := s.rd pgFWU FWU.FWU_STS_RUN_SLOT, trial := 1, boots := 0
      prevBank := s.bootRec.1.bank }).flash := by
  refine ⟨?_, ?_, ?_⟩
  · obtain ⟨o, l, h⟩ := State.recWrite_eq (({ s with fwFired := true } : State).wr pgFWU FWU.FWU_STS_ARMED 0) { s.bootRec.1 with
      active := s.rd pgFWU FWU.FWU_STS_ARMED_SLOT, prev := s.rd pgFWU FWU.FWU_STS_RUN_SLOT, trial := 1, boots := 0, prevBank := s.bootRec.1.bank }
    rw [State.firedArmed, h]
    rfl
  · rw [State.firedArmed, State.recWrite]
    rfl
  · exact State.recWrite_flash rfl _

theorem State.triggered_rd {q : Nat} {g : Fld} {j : Nat} (hc : g.calmAt q j) (hcnt : FWU.FWU_CNT.key pgFWU 2 ≠ g.key q j)
    (h : FWU.FWU_STS_ARMED.key pgFWU 0 ≠ g.key q j) : s.triggered.rd q g j = s.rd q g j := by
  rw [State.triggered, State.logAppend_rd _ _ _ _ _ _ _ _ hc, State.raise_rd _ _ _ hc, State.cnt_rd_ne _ hc hcnt, State.firedArmed_rd _ h]

/-- What an accepted activation leaves (R745 to R747). -/
theorem State.activated_spec (tag : Nat) (hlive : s.live pgFWU = true) :
    (s.triggered.spRestartBoth.fwDone tag).fwFired = true ∧ (s.triggered.spRestartBoth.fwDone tag).rd pgFWU FWU.FWU_STS_ARMED = 0 ∧
    (s.triggered.spRestartBoth.fwDone tag).flash = (s.recWrite { s.bootRec.1 with
      active := s.rd pgFWU FWU.FWU_STS_ARMED_SLOT, prev := s.rd pgFWU FWU.FWU_STS_RUN_SLOT, trial := 1, boots := 0
      prevBank := s.bootRec.1.bank }).flash ∧
    (∀ k, k < 2 → s.role k ≠ spOff → (s.triggered.spRestartBoth.fwDone tag).role k = spBoot) ∧
    (s.triggered.spRestartBoth.fwDone tag).rd pgSPA SPA.IL_STS_SWITCHING = 1 ∧
    (s.triggered.spRestartBoth.fwDone tag).rd pgFWU FWU.FWU_CNT 2 = (s.rd pgFWU FWU.FWU_CNT 2 + 1) % 2 ^ 64 ∧
    bit ((s.triggered.spRestartBoth.fwDone tag).rd pgFWU COMMON.INT_CAUSE_CAUSE) 2 = true ∧
    (s.triggered.spRestartBoth.fwDone tag).offFirmware = s.offFirmware := by
  obtain ⟨hfired, hparts, hflash⟩ := s.firedArmed_frame
  have hlive' : (s.firedArmed.cnt pgFWU FWU.FWU_CNT 2).live pgFWU = true := by
    rw [State.cnt, State.live_bump _ _ _ _ _ _ _ (by decide) (by decide) (by decide), State.firedArmed_live, hlive]
  have hkeep : s.triggered.fwFired = true ∧ s.triggered.flash = s.firedArmed.flash ∧ s.triggered.offFirmware = s.offFirmware := by
    rw [State.triggered]
    rw [← hparts, ← hfired]
    generalize s.firedArmed = u
    obtain ⟨d, hm⟩ := State.logAppend_mgmt ((u.cnt pgFWU FWU.FWU_CNT 2).raise pgFWU 2) (pageCode .fwu) 0 s.fwSource 0x2003 0
      (s.imgVersion (s.rd pgFWU FWU.FWU_STS_ARMED_SLOT)) (s.rd pgFWU FWU.FWU_STS_ARMED_SLOT)
    refine ⟨?_, ?_, ?_⟩
    · rw [hm]
      simp [State.cnt, State.bump]
    · simp [State.cnt, State.bump]
    · simp [State.offFirmware, State.cnt, State.bump]
  have hzero : s.triggered.rd pgFWU FWU.FWU_STS_ARMED = 0 := by
    rw [State.triggered, State.logAppend_rd _ _ _ _ _ _ _ _ (by decide), State.raise_rd _ _ _ (by decide),
      State.cnt_rd_ne _ (by decide) (by decide), State.firedArmed_armed]
  have hcnt : s.triggered.rd pgFWU FWU.FWU_CNT 2 = (s.rd pgFWU FWU.FWU_CNT 2 + 1) % 2 ^ 64 := by
    rw [State.triggered, State.logAppend_rd _ _ _ _ _ _ _ _ (by decide), State.raise_rd _ _ _ (by decide), State.cnt,
      State.bump_rd_same _ _ _ (by decide), State.firedArmed_rd _ (by decide)]
    rfl
  have hcause : bit (s.triggered.rd pgFWU COMMON.INT_CAUSE_CAUSE) 2 = true := by
    rw [State.triggered]
    exact State.cause_of_logAppend _ _ _ _ _ _ _ _ (by decide) (State.raise_sets _ hlive' (by decide))
  have hrole : ∀ k, k < 2 → s.triggered.role k = s.role k := fun k hk => by
    refine State.triggered_rd _ ?_ ?_ ?_
    all_goals apply of_forall_lt k hk; decide
  obtain ⟨hfired', hflash', hparts'⟩ := hkeep
  generalize s.triggered = u at *
  obtain ⟨r, l, ps, n, h⟩ := u.spRestartBoth_only
  have hsame : u.spRestartBoth.fwFired = u.fwFired ∧ u.spRestartBoth.flash = u.flash ∧ u.spRestartBoth.offFirmware = u.offFirmware := by
    rw [h]
    exact ⟨rfl, rfl, rfl⟩
  have hdone : (u.spRestartBoth.fwDone tag).fwFired = u.spRestartBoth.fwFired := by
    obtain ⟨r, h⟩ := u.spRestartBoth.fwDone_only tag
    rw [h]
  refine ⟨?_, ?_, ?_, fun k hk hon => ?_, ?_, ?_, ?_, ?_⟩
  · rw [hdone, hsame.1, hfired']
  · rw [State.fwDone_rd _ _ (by decide), State.spRestartBoth_rd _ (by decide) (by decide), hzero]
  · rw [State.fwDone_flash, hsame.2.1, hflash', hflash]
  · have hdown : (u.spRestartBoth.fwDone tag).role k = u.spRestartBoth.role k :=
      State.fwDone_rd _ _ (by obtain h | h := ilRole_eq k <;> rw [h] <;> decide)
    rw [hdown, State.role_spRestartBoth _ hk (by rwa [hrole k hk])]
  · rw [State.fwDone_rd _ _ (by decide), State.spRestartBoth_switching]
  · rw [State.fwDone_rd _ _ (by decide), State.spRestartBoth_rd _ (by decide) (by decide), hcnt]
  · rw [State.fwDone_rd _ _ (by decide), State.spRestartBoth_rd _ (by decide) (by decide), hcause]
  · simp only [State.offFirmware, State.fwDone_toBandState, State.fwDone_toPipeState, State.fwDone_toQdState, State.fwDone_nt]
    exact hsame.2.2.trans hparts'
end

end Sys2Proof.Machine

/-! PROOFS. Firmware commands: arming, and the statement of images and arming. -/

namespace Sys2Proof.Machine
set_option Elab.async false

/-! ### Arming -/

/-- Slot n is armed (R745). -/
def State.armedAt (s : State) (n : Nat) : State :=
  ({ s with fwFired := false }).wrAll pgFWU 0 [(FWU.FWU_STS_ARMED, 1), (FWU.FWU_STS_ARMED_SLOT, n)]

section
variable (s : State)

theorem State.armedAt_only (n : Nat) : ∃ r, s.armedAt n = { s with regs := r, fwFired := false } := by
  obtain ⟨r, h⟩ := (OnlyRegs.refl ({ s with fwFired := false } : State)).wrAll pgFWU 0 [(FWU.FWU_STS_ARMED, 1), (FWU.FWU_STS_ARMED_SLOT, n)]
  exact ⟨r, by rw [State.armedAt, h]⟩
theorem State.armedAt_rd {n : Nat} (hn : n < 2) : (s.armedAt n).rd pgFWU FWU.FWU_STS_ARMED = 1 ∧
    (s.armedAt n).rd pgFWU FWU.FWU_STS_ARMED_SLOT = n := by
  simp only [State.armedAt, State.wrAll]
  rw [State.rd_wr_ne _ _ (by decide), State.rd_wr_same, State.rd_wr_same]
  exact ⟨rfl, Nat.mod_eq_of_lt hn⟩
end

/-! ### The statement -/

section
variable {s : State} (hlive : s.live pgFWU = true) (hidle : s.fwRun = none) (hheld : s.fwHeld = none) (slot tag : Nat)
include hlive hidle hheld

omit hlive hidle hheld in
/-- A bit of the page as a command finds it. -/
theorem State.fwStarted_on (f : Fld) (h : FWU.FWU_RES.valid.key pgFWU 0 ≠ f.key pgFWU 0) :
    (s.resStart pgFWU FWU.FWU_RES).on pgFWU f = s.on pgFWU f := by
  rw [State.on, State.fwStarted_rd _ h, State.on]

theorem execFwArm_trial (h : s.on pgFWU FWU.FWU_STS_TRIAL = true) :
    execFwArm slot tag s = .next ((s.resStart pgFWU FWU.FWU_RES).fwError tag 3 0) := by
  rw [execFwArm, State.fwStart_of_idle hlive hidle hheld, if_pos ((State.fwStarted_on _ (by decide)).trans h)]
theorem execFwArm_unpassed (h : s.on pgFWU FWU.FWU_STS_TRIAL = false) (hp : s.fwPassed.contains slot = false) :
    execFwArm slot tag s = .next ((s.resStart pgFWU FWU.FWU_RES).fwError tag 2 ((s.resStart pgFWU FWU.FWU_RES).rd pgFWU FWU.SLOT_INFO_CHECK (slot % 3))) := by
  have hp' : (s.resStart pgFWU FWU.FWU_RES).fwPassed.contains slot = false := hp
  rw [execFwArm, State.fwStart_of_idle hlive hidle hheld, State.fwStarted_on _ (by decide), h, if_neg Bool.false_ne_true, hp',
    if_neg (by simp)]
theorem execFwArm_passed (h : s.on pgFWU FWU.FWU_STS_TRIAL = false) (hs : slot < 2) (hp : s.fwPassed.contains slot = true) :
    execFwArm slot tag s = .next (((s.resStart pgFWU FWU.FWU_RES).armedAt slot).fwDone tag) := by
  have hp' : slot < 2 ∧ (s.resStart pgFWU FWU.FWU_RES).fwPassed.contains slot = true := ⟨hs, hp⟩
  rw [execFwArm, State.fwStart_of_idle hlive hidle hheld, State.fwStarted_on _ (by decide), h, if_neg Bool.false_ne_true,
    if_pos hp', State.armedAt]
theorem execFwActivateNow_accepted (harmed : s.on pgFWU FWU.FWU_STS_ARMED = true) (htrial : s.on pgFWU FWU.FWU_STS_TRIAL = false) :
    execFwActivateNow tag s = .next ((s.resStart pgFWU FWU.FWU_RES).triggered.spRestartBoth.fwDone tag) := by
  rw [execFwActivateNow, State.fwStart_of_idle hlive hidle hheld, State.fwTrigger_accepted]
  · rfl
  · rwa [State.fwStarted_on _ (by decide)]
  · rwa [State.fwStarted_on _ (by decide)]
theorem execFwActivateNow_refused (h : s.on pgFWU FWU.FWU_STS_ARMED = false ∨ s.on pgFWU FWU.FWU_STS_TRIAL = true) :
    execFwActivateNow tag s = .next (((s.resStart pgFWU FWU.FWU_RES).cnt pgFWU FWU.FWU_CNT 6).fwError tag
      (if s.on pgFWU FWU.FWU_STS_TRIAL then 3 else 4) 0) := by
  rw [execFwActivateNow, State.fwStart_of_idle hlive hidle hheld, State.fwTrigger_refused,
    State.fwStarted_on _ (by decide)]
  · rfl
  · rwa [State.fwStarted_on _ (by decide), State.fwStarted_on _ (by decide)]
end

section
variable (s : State) (tag err code : Nat)

/-- An ERROR of a command that changes nothing else. -/
theorem State.fwError_frame : (s.fwError tag err code).toBandState = s.toBandState ∧ (s.fwError tag err code).toLineState = s.toLineState ∧
    (s.fwError tag err code).toPipeState = s.toPipeState ∧ (s.fwError tag err code).toQdState = s.toQdState ∧ (s.fwError tag err code).nt = s.nt := by
  simp
/-- An activation refused is counted in FWU_CNT6. -/
theorem State.activateCounted_spec (herr : err < 2 ^ 32) (hlive : s.live pgFWU = true) :
    ((s.cnt pgFWU FWU.FWU_CNT 6).fwError tag err code).flash = s.flash ∧
    ((s.cnt pgFWU FWU.FWU_CNT 6).fwError tag err code).rd pgFWU FWU.FWU_CNT 6 = (s.rd pgFWU FWU.FWU_CNT 6 + 1) % 2 ^ 64 ∧
    ((s.cnt pgFWU FWU.FWU_CNT 6).fwError tag err code).rd pgFWU (FWU.FWU_RES.word 1) = err ∧
    ((s.cnt pgFWU FWU.FWU_CNT 6).fwError tag err code).rd pgFWU FWU.FWU_RES.status = 4 ∧
    ((s.cnt pgFWU FWU.FWU_CNT 6).fwError tag err code).rd pgFWU FWU.FWU_RES.tag = tag % 256 ∧
    ((s.cnt pgFWU FWU.FWU_CNT 6).fwError tag err code).rd pgFWU FWU.FWU_RES.valid = 1 ∧
    ((s.cnt pgFWU FWU.FWU_CNT 6).fwError tag err code).toBandState = s.toBandState ∧
    ((s.cnt pgFWU FWU.FWU_CNT 6).fwError tag err code).toLineState = s.toLineState ∧
    ((s.cnt pgFWU FWU.FWU_CNT 6).fwError tag err code).toPipeState = s.toPipeState ∧
    ((s.cnt pgFWU FWU.FWU_CNT 6).fwError tag err code).toQdState = s.toQdState ∧
    ((s.cnt pgFWU FWU.FWU_CNT 6).fwError tag err code).nt = s.nt := by
  have hlive' : (s.cnt pgFWU FWU.FWU_CNT 6).live pgFWU = true := by
    rw [State.cnt, State.live_bump _ _ _ _ _ _ _ (by decide) (by decide) (by decide), hlive]
  obtain ⟨hstatus, htag, hvalid, hword, -⟩ := (s.cnt pgFWU FWU.FWU_CNT 6).fwError_head tag err code herr hlive'
  refine ⟨?_, ?_, hword, hstatus, htag, hvalid, ?_⟩
  · simp [State.cnt, State.bump]
  · rw [State.fwError_rd _ _ _ _ (by decide) (by decide), State.cnt, State.bump_rd_same _ _ _ (by decide)]
    rfl
  · simp [State.cnt, State.bump]
end

section
variable {v e : State} (hflash : v.flash = e.flash) (off : Nat) (l : List Byte)
include hflash

theorem State.flashWrite_flash : (v.flashWrite off l).flash = (e.flashWrite off l).flash := by
  simp only [State.flashWrite, hflash]
theorem State.flashWrite_imgCheck (hpart : v.rd pgCRWN CRWN.DEV_ID_PART = e.rd pgCRWN CRWN.DEV_ID_PART) (hkey : v.keyRevoked = e.keyRevoked)
    (hsvn : v.fuseSvn = e.fuseSvn) (n : Nat) (ok : Bool) : (v.flashWrite off l).imgCheck n ok = (e.flashWrite off l).imgCheck n ok :=
  State.imgCheck_of_flash (State.flashWrite_flash hflash off l) hpart hkey hsvn n ok
end

/-- What the end of a STAGE with its bytes leaves, by the check of an image that lies in the slot as they make it (R744). -/
theorem State.stageEnd_spec {v u : State} {n : Nat} (tag : Nat) (bytes : List Byte) (hn : n < 3) (hlive : v.live pgFWU = true)
    (hfree : v.tagFree = true)
    (hflash : (v.flashWrite (slotBase n) (bytes.take (min (v.rd pgFWU FWU.STG_LEN_BYTES) (slotSize n)))).flash = u.flash)
    (hcheck : (v.flashWrite (slotBase n) (bytes.take (min (v.rd pgFWU FWU.STG_LEN_BYTES) (slotSize n)))).imgCheck n true = u.imgCheck n true) :
    (if u.imgCheck n true = 1 then
      (v.stageEnd n tag (.data bytes)).rd pgFWU FWU.FWU_RES.status = 1 ∧ (v.stageEnd n tag (.data bytes)).flash = u.flash ∧
        (v.stageEnd n tag (.data bytes)).fwPassed.contains n = true
    else (v.stageEnd n tag (.data bytes)).rd pgFWU FWU.FWU_RES.status = 4 ∧ (v.stageEnd n tag (.data bytes)).rd pgFWU (FWU.FWU_RES.word 1) = 2 ∧
      (v.stageEnd n tag (.data bytes)).rd pgFWU (FWU.FWU_RES.word 2) = u.imgCheck n true ∧
      (v.stageEnd n tag (.data bytes)).flash = (u.slotErase n).flash ∧ (v.stageEnd n tag (.data bytes)).fwPassed.contains n = false) ∧
    (v.stageEnd n tag (.data bytes)).fwRun = none ∧
    (v.stageEnd n tag (.data bytes)).rd pgFWU FWU.FWU_CNT 0 = (v.rd pgFWU FWU.FWU_CNT 0 + 1) % 2 ^ 64 ∧
    bit ((v.stageEnd n tag (.data bytes)).rd pgFWU COMMON.INT_CAUSE_CAUSE) 0 = true ∧
    (v.stageEnd n tag (.data bytes)).toBandState = v.toBandState ∧ (v.stageEnd n tag (.data bytes)).toLineState = v.toLineState ∧
    (v.stageEnd n tag (.data bytes)).toPipeState = v.toPipeState ∧ (v.stageEnd n tag (.data bytes)).toQdState = v.toQdState ∧
    (v.stageEnd n tag (.data bytes)).nt = v.nt := by
  have hlive' : (v.flashWrite (slotBase n) (bytes.take (min (v.rd pgFWU FWU.STG_LEN_BYTES) (slotSize n)))).live pgFWU = true := hlive
  rw [v.stageEnd_data n tag bytes hfree rfl]
  have hframe : ∀ w : State, w = v.flashWrite (slotBase n) (bytes.take (min (v.rd pgFWU FWU.STG_LEN_BYTES) (slotSize n))) →
      w.rd pgFWU FWU.FWU_CNT 0 = v.rd pgFWU FWU.FWU_CNT 0 ∧ w.toBandState = v.toBandState ∧ w.toLineState = v.toLineState ∧
      w.toPipeState = v.toPipeState ∧ w.toQdState = v.toQdState ∧ w.nt = v.nt := by
    rintro w rfl
    exact ⟨rfl, rfl, rfl, rfl, rfl, rfl⟩
  obtain ⟨hcnt, hband, hline, hpipe, hqd, hnt⟩ := hframe _ rfl
  generalize v.flashWrite (slotBase n) (bytes.take (min (v.rd pgFWU FWU.STG_LEN_BYTES) (slotSize n))) = w at *
  have hle := w.imgCheck_le n true
  rw [← hcheck]
  split
  · obtain ⟨hstatus, hfl, hpassed, hidle, hc, hcause⟩ := w.stagedGood_spec n tag hn hlive'
    obtain ⟨b, l, p, q, t⟩ := w.stagedGood_frame n tag
    exact ⟨⟨hstatus, hfl.trans hflash, hpassed⟩, hidle, hc.trans (by rw [hcnt]), hcause, b.trans hband, l.trans hline, p.trans hpipe,
      q.trans hqd, t.trans hnt⟩
  · obtain ⟨hstatus, hone, htwo, hfl, hpassed, hidle, hc, hcause⟩ := w.stagedBad_spec n tag (w.imgCheck n true) hn hlive' (by omega)
    obtain ⟨b, l, p, q, t⟩ := w.stagedBad_frame n tag (w.imgCheck n true)
    obtain ⟨x, hx, -⟩ := u.slotErase_only n
    exact ⟨⟨hstatus, hone, htwo, hfl.trans ((hx w hflash).trans (hx u rfl).symm), hpassed⟩, hidle, hc.trans (by rw [hcnt]), hcause,
      b.trans hband, l.trans hline, p.trans hpipe, q.trans hqd, t.trans hnt⟩

section
variable (s : State) (tag err code : Nat)

/-- What an ERROR of a command leaves that did nothing before it. -/
theorem State.fwRefused_spec (herr : err < 2 ^ 32) (hlive : s.live pgFWU = true) :
    ((s.resStart pgFWU FWU.FWU_RES).fwError tag err code).rd pgFWU FWU.FWU_STS_ARMED = s.rd pgFWU FWU.FWU_STS_ARMED ∧
    ((s.resStart pgFWU FWU.FWU_RES).fwError tag err code).rd pgFWU (FWU.FWU_RES.word 1) = err ∧
    ((s.resStart pgFWU FWU.FWU_RES).fwError tag err code).rd pgFWU FWU.FWU_RES.status = 4 ∧
    ((s.resStart pgFWU FWU.FWU_RES).fwError tag err code).rd pgFWU FWU.FWU_RES.tag = tag % 256 ∧
    ((s.resStart pgFWU FWU.FWU_RES).fwError tag err code).rd pgFWU FWU.FWU_RES.valid = 1 ∧
    ((s.resStart pgFWU FWU.FWU_RES).fwError tag err code).toBandState = s.toBandState ∧
    ((s.resStart pgFWU FWU.FWU_RES).fwError tag err code).toLineState = s.toLineState ∧
    ((s.resStart pgFWU FWU.FWU_RES).fwError tag err code).toPipeState = s.toPipeState ∧
    ((s.resStart pgFWU FWU.FWU_RES).fwError tag err code).toQdState = s.toQdState ∧
    ((s.resStart pgFWU FWU.FWU_RES).fwError tag err code).nt = s.nt := by
  obtain ⟨hstatus, htag, hvalid, hword, -⟩ := (s.resStart pgFWU FWU.FWU_RES).fwError_head tag err code herr ((s.fwStarted_live pgFWU).trans hlive)
  refine ⟨?_, hword, hstatus, htag, hvalid, State.fwError_frame ..⟩
  rw [State.fwError_rd _ _ _ _ (by decide) (by decide), State.fwStarted_rd _ (by decide)]
/-- What a refused activation leaves. -/
theorem State.activateRefused_spec (herr : err < 2 ^ 32) (hlive : s.live pgFWU = true) :
    (((s.resStart pgFWU FWU.FWU_RES).cnt pgFWU FWU.FWU_CNT 6).fwError tag err code).flash = s.flash ∧
    (((s.resStart pgFWU FWU.FWU_RES).cnt pgFWU FWU.FWU_CNT 6).fwError tag err code).rd pgFWU FWU.FWU_CNT 6 = (s.rd pgFWU FWU.FWU_CNT 6 + 1) % 2 ^ 64 ∧
    (((s.resStart pgFWU FWU.FWU_RES).cnt pgFWU FWU.FWU_CNT 6).fwError tag err code).rd pgFWU (FWU.FWU_RES.word 1) = err ∧
    (((s.resStart pgFWU FWU.FWU_RES).cnt pgFWU FWU.FWU_CNT 6).fwError tag err code).rd pgFWU FWU.FWU_RES.status = 4 ∧
    (((s.resStart pgFWU FWU.FWU_RES).cnt pgFWU FWU.FWU_CNT 6).fwError tag err code).rd pgFWU FWU.FWU_RES.tag = tag % 256 ∧
    (((s.resStart pgFWU FWU.FWU_RES).cnt pgFWU FWU.FWU_CNT 6).fwError tag err code).rd pgFWU FWU.FWU_RES.valid = 1 ∧
    (((s.resStart pgFWU FWU.FWU_RES).cnt pgFWU FWU.FWU_CNT 6).fwError tag err code).toBandState = s.toBandState ∧
    (((s.resStart pgFWU FWU.FWU_RES).cnt pgFWU FWU.FWU_CNT 6).fwError tag err code).toLineState = s.toLineState ∧
    (((s.resStart pgFWU FWU.FWU_RES).cnt pgFWU FWU.FWU_CNT 6).fwError tag err code).toPipeState = s.toPipeState ∧
    (((s.resStart pgFWU FWU.FWU_RES).cnt pgFWU FWU.FWU_CNT 6).fwError tag err code).toQdState = s.toQdState ∧
    (((s.resStart pgFWU FWU.FWU_RES).cnt pgFWU FWU.FWU_CNT 6).fwError tag err code).nt = s.nt := by
  obtain ⟨hflash, hcnt, hrest⟩ := State.activateCounted_spec (s.resStart pgFWU FWU.FWU_RES) tag err code herr ((s.fwStarted_live pgFWU).trans hlive)
  exact ⟨hflash, hcnt.trans (by rw [State.fwStarted_rd _ (by decide)]), hrest⟩
end

section
variable {s : State} (hlive : s.live pgFWU = true) (hidle : s.fwRun = none) (hheld : s.fwHeld = none) (tag : Nat)
include hlive hidle hheld

theorem execFwDisarm_armed (h : s.on pgFWU FWU.FWU_STS_ARMED = true) :
    execFwDisarm tag s = .next (((s.resStart pgFWU FWU.FWU_RES).wr pgFWU FWU.FWU_STS_ARMED 0).fwDone tag) := by
  rw [execFwDisarm, State.fwStart_of_idle hlive hidle hheld, if_pos ((State.fwStarted_on _ (by decide)).trans h)]
theorem execFwDisarm_idle (h : s.on pgFWU FWU.FWU_STS_ARMED = false) (hf : s.fwFired = false) :
    execFwDisarm tag s = .next ((s.resStart pgFWU FWU.FWU_RES).fwError tag 4 0) := by
  have hf' : (s.resStart pgFWU FWU.FWU_RES).fwFired = false := hf
  rw [execFwDisarm, State.fwStart_of_idle hlive hidle hheld, State.fwStarted_on _ (by decide), h, if_neg Bool.false_ne_true, hf',
    if_neg Bool.false_ne_true]
theorem execFwDisarm_late (h : s.on pgFWU FWU.FWU_STS_ARMED = false) (hf : s.fwFired = true) :
    execFwDisarm tag s = .next ((s.resStart pgFWU FWU.FWU_RES).result pgFWU FWU.FWU_RES tag DONE [] 0 true) := by
  have hf' : (s.resStart pgFWU FWU.FWU_RES).fwFired = true := hf
  rw [execFwDisarm, State.fwStart_of_idle hlive hidle hheld, State.fwStarted_on _ (by decide), h, if_neg Bool.false_ne_true, if_pos hf']
theorem execFlashRead_good (h : (s.fnS 1).sends = true) : execFlashRead tag true s =
    .next ((((s.resStart pgFWU FWU.FWU_RES).cnt pgPCE PCE.PCE_CNT 0).emit (.hostWrite 1
      (s.rd pgFWU FWU.STG_ADDR_LO_ADDR + s.rd pgFWU FWU.STG_ADDR_HI_ADDR * 2 ^ 32)
      (s.flashBytes (s.rd pgFWU FWU.STG_OFF_OFFSET) (min (s.rd pgFWU FWU.STG_LEN_BYTES) (0x4000000 - s.rd pgFWU FWU.STG_OFF_OFFSET))) false)).fwDone tag) := by
  have hsends : ((s.resStart pgFWU FWU.FWU_RES).fnS 1).sends = true := h
  have hbytes := State.flashBytes_of_flash (s := s) (t := s.resStart pgFWU FWU.FWU_RES) rfl
  simp only [execFlashRead, State.fwStart_of_idle hlive hidle hheld, if_true, State.post, hsends, hbytes]
  rw [State.fwStarted_rd _ (by decide), State.fwStarted_rd _ (by decide), State.fwStarted_rd _ (by decide), State.fwStarted_rd _ (by decide)]
theorem execFlashRead_bad : execFlashRead tag false s = .next (((s.resStart pgFWU FWU.FWU_RES).raise pgFWU 6).fwError tag 2 9) := by
  simp only [execFlashRead, State.fwStart_of_idle hlive hidle hheld, Bool.false_eq_true, if_false]
end

/-- What the end of a configuration's transfer leaves, with the bytes in the bank that does not govern (R742). -/
theorem State.stageConfigEnd_spec (v : State) (tag : Nat) (bytes : List Byte) (hlive : v.live pgFWU = true) :
    (if (v.flashWrite (bankBase (1 - v.bootRec.1.bank)) (bytes.take (min (v.rd pgFWU FWU.STG_LEN_BYTES) 0x100000))).bankGood (1 - v.bootRec.1.bank) = true ∧
      (v.flashWrite (bankBase (1 - v.bootRec.1.bank)) (bytes.take (min (v.rd pgFWU FWU.STG_LEN_BYTES) 0x100000))).bankSchema (1 - v.bootRec.1.bank) =
        v.rd pgFWU FWU.RUN_INFO_SCHEMA then
      (v.stageConfigEnd tag (.data bytes)).rd pgFWU FWU.FWU_RES.status = 1 ∧ (v.stageConfigEnd tag (.data bytes)).flash =
        ((v.flashWrite (bankBase (1 - v.bootRec.1.bank)) (bytes.take (min (v.rd pgFWU FWU.STG_LEN_BYTES) 0x100000))).recWrite
          { v.bootRec.1 with bank := 1 - v.bootRec.1.bank }).flash
    else (v.stageConfigEnd tag (.data bytes)).rd pgFWU FWU.FWU_RES.status = 4 ∧
      (v.stageConfigEnd tag (.data bytes)).rd pgFWU (FWU.FWU_RES.word 1) = 8 ∧ (v.stageConfigEnd tag (.data bytes)).flash =
        (v.flashWrite (bankBase (1 - v.bootRec.1.bank)) (bytes.take (min (v.rd pgFWU FWU.STG_LEN_BYTES) 0x100000))).flash) ∧
    (v.stageConfigEnd tag (.data bytes)).fwRun = none ∧
    (v.stageConfigEnd tag (.data bytes)).rd pgFWU FWU.FWU_CNT 0 = (v.rd pgFWU FWU.FWU_CNT 0 + 1) % 2 ^ 64 ∧
    (v.stageConfigEnd tag (.data bytes)).toBandState = v.toBandState ∧ (v.stageConfigEnd tag (.data bytes)).toLineState = v.toLineState ∧
    (v.stageConfigEnd tag (.data bytes)).toPipeState = v.toPipeState ∧ (v.stageConfigEnd tag (.data bytes)).toQdState = v.toQdState ∧
    (v.stageConfigEnd tag (.data bytes)).nt = v.nt := by
  rw [v.stageConfigEnd_data tag bytes rfl rfl]
  have hframe : ∀ w : State, w = v.flashWrite (bankBase (1 - v.bootRec.1.bank)) (bytes.take (min (v.rd pgFWU FWU.STG_LEN_BYTES) 0x100000)) →
      w.live pgFWU = true ∧ w.rd pgFWU FWU.FWU_CNT 0 = v.rd pgFWU FWU.FWU_CNT 0 ∧ w.toBandState = v.toBandState ∧ w.toLineState = v.toLineState ∧
      w.toPipeState = v.toPipeState ∧ w.toQdState = v.toQdState ∧ w.nt = v.nt := by
    rintro w rfl
    exact ⟨hlive, rfl, rfl, rfl, rfl, rfl, rfl⟩
  obtain ⟨hlive', hcnt, hband, hline, hpipe, hqd, hnt⟩ := hframe _ rfl
  generalize v.flashWrite (bankBase (1 - v.bootRec.1.bank)) (bytes.take (min (v.rd pgFWU FWU.STG_LEN_BYTES) 0x100000)) = w at *
  split
  · obtain ⟨hstatus, hfl, hidle, hc⟩ := w.configGood_spec { v.bootRec.1 with bank := 1 - v.bootRec.1.bank } tag
    obtain ⟨b, l, p, q, t⟩ := w.configGood_frame { v.bootRec.1 with bank := 1 - v.bootRec.1.bank } tag
    exact ⟨⟨hstatus, hfl⟩, hidle, hc.trans (by rw [hcnt]), b.trans hband, l.trans hline, p.trans hpipe, q.trans hqd, t.trans hnt⟩
  · have hcl : (w.cnt pgFWU FWU.FWU_CNT 0).live pgFWU = true := by
      rw [State.cnt, State.live_bump _ _ _ _ _ _ _ (by decide) (by decide) (by decide), hlive']
    obtain ⟨hstatus, -, -, hword, -⟩ := (w.cnt pgFWU FWU.FWU_CNT 0).fwError_head tag 8 0 (by decide) hcl
    refine ⟨⟨hstatus, hword, ?_⟩, State.fwError_idle .., ?_, ?_⟩
    · simp [State.cnt, State.bump]
    · rw [State.fwError_rd _ _ _ _ (by decide) (by decide), State.cnt, State.bump_rd_same _ _ _ (by decide), hcnt]
      rfl
    · simp [State.cnt, State.bump, hband, hline, hpipe, hqd, hnt]

/-- The result of a configuration follows from the flash. -/
theorem State.configResult_of_flash {t w u : State} {b n : Nat} {r : BootRec}
    (h : if w.bankGood b = true ∧ w.bankSchema b = n then t.rd pgFWU FWU.FWU_RES.status = 1 ∧ t.flash = (w.recWrite r).flash
      else t.rd pgFWU FWU.FWU_RES.status = 4 ∧ t.rd pgFWU (FWU.FWU_RES.word 1) = 8 ∧ t.flash = w.flash) (hflash : w.flash = u.flash) :
    if u.bankGood b = true ∧ u.bankSchema b = n then t.rd pgFWU FWU.FWU_RES.status = 1 ∧ t.flash = (u.recWrite r).flash
      else t.rd pgFWU FWU.FWU_RES.status = 4 ∧ t.rd pgFWU (FWU.FWU_RES.word 1) = 8 ∧ t.flash = u.flash := by
  rwa [State.bankGood_of_flash hflash, State.bankSchema_of_flash hflash, State.recWrite_flash hflash, hflash] at h

/-- Settles O52, clause by clause. -/
theorem firmwareImagesAndArming : Obligations.FirmwareImagesAndArming := by
  unfold Obligations.FirmwareImagesAndArming
  refine ⟨?_, ?_, ?_, ?_, ?_, ?_, ?_, ?_, ?_, ?_, ?_, ?_, ?_, ?_, ?_, ?_, ?_, ?_, ?_, ?_, ?_, ?_, ?_⟩
  · intro s sp ok bytes hsp hlive hrole hboot hother hrest
    have hrun : execBootSlotSelect sp ok bytes s = .next (s.bootSelect sp ok bytes) := by
      rw [execBootSlotSelect, if_pos ⟨hsp, hlive, hrole, by simp [hboot]⟩]
    obtain ⟨u, hu, hsel⟩ := s.bootSelect_alone ok bytes hother hrest
    refine ⟨_, hrun, fun htrial hpass => ?_, fun hnone => ?_, State.offFirmware_eq (s.bootSelect_offFirmware ok bytes hother hrest)⟩
    · have horder : ∃ l, bootOrder s.bootRec.1 = (s.bootRec.1.active :: l, false) := by
        simp [bootOrder, htrial]
      obtain ⟨l, horder⟩ := horder
      have hfirst := bootTry_first u (l := l) ((hu.imgCheck ..).trans hpass)
      have hx := hu.trans (BootOnly.bootTry u ok (s.bootRec.1.active :: l))
      rw [hsel, horder]
      generalize u.bootTry ok (s.bootRec.1.active :: l) = x at hfirst hx
      obtain ⟨v, w⟩ := x
      simp only at hfirst hx
      subst hfirst
      have htrial' : v.bootRec.1.trial = 0 := by rw [State.bootRec_of_flash hx.offFirmware.2.1, htrial]
      simp only [Bool.false_eq_true, if_false]
      rw [State.bootSlot_untried _ _ htrial']
      obtain ⟨r, d, a, hshow⟩ := v.bootShow_only s.bootRec.1.active false
      refine ⟨?_, (State.setSp_rd ..).trans (v.bootShow_slot _ false), ?_⟩
      · rw [State.sp_setSp]
      · rw [hshow]
        exact hx.offFirmware.2.1
    · have hno := bootTry_none u (ok := ok) (l := (bootOrder s.bootRec.1).1) fun n hn => by
        rw [hu.imgCheck]
        exact of_decide_eq_true (List.all_eq_true.1 hnone n hn)
      have hx := hu.trans (BootOnly.bootTry u ok (bootOrder s.bootRec.1).1)
      rw [hsel]
      generalize u.bootTry ok (bootOrder s.bootRec.1).1 = x at hno hx
      obtain ⟨v, w⟩ := x
      simp only at hno hx
      subst hno
      exact ⟨State.rd_wr_same .., hx.offFirmware.2.2, hx.offFirmware.2.1⟩
  · intro s sp ok bytes hsp hlive hrole hboot hother
    have hrun : execBootSlotSelect sp ok bytes s = .next (s.bootSelect sp ok bytes) := by
      rw [execBootSlotSelect, if_pos ⟨hsp, hlive, hrole, by simp [hboot]⟩]
    have hle := s.imgCheck_le (s.rd pgFWU FWU.FWU_STS_RUN_SLOT) ok
    rw [s.bootSelect_follow ok bytes hother] at hrun
    exact ⟨_, hrun, State.followSlot_spec s sp _ (by omega) hboot⟩
  · intro s slot tag bytes hslot hlive hidle hheld hgap hrun htrial hfree
    have hstart := execFwStage_runs hslot hlive hidle hheld tag (.data bytes) hgap hrun htrial
    obtain ⟨r, o, l, x, h, hx⟩ := s.stageFetched_only slot
    have hlen : (s.stageFetched slot).rd pgFWU FWU.STG_LEN_BYTES = s.rd pgFWU FWU.STG_LEN_BYTES := s.stageFetched_rd slot (by decide) (by decide)
    have hcnt : (s.stageFetched slot).rd pgFWU FWU.FWU_CNT 0 = s.rd pgFWU FWU.FWU_CNT 0 := s.stageFetched_rd slot (by decide) (by decide)
    have hpart : (s.stageFetched slot).rd pgCRWN CRWN.DEV_ID_PART = s.rd pgCRWN CRWN.DEV_ID_PART := s.stageFetched_part slot
    have hlive' := (s.stageFetched_live slot pgFWU).trans hlive
    have hfree' : (s.stageFetched slot).tagFree = true := by
      rw [h]
      exact hfree
    have hfacts : (s.stageFetched slot).flash = (s.slotErase slot).flash ∧ (s.stageFetched slot).keyRevoked = s.keyRevoked ∧
        (s.stageFetched slot).fuseSvn = s.fuseSvn := by
      rw [h, ← hx]
      exact ⟨rfl, rfl, rfl⟩
    have hframe : (s.stageFetched slot).toBandState = s.toBandState ∧ (s.stageFetched slot).toLineState = s.toLineState ∧
        (s.stageFetched slot).toPipeState = s.toPipeState ∧ (s.stageFetched slot).toQdState = s.toQdState ∧ (s.stageFetched slot).nt = s.nt := by
      rw [h]
      exact ⟨rfl, rfl, rfl, rfl, rfl⟩
    clear h
    generalize s.stageFetched slot = v at *
    obtain ⟨hband, hline, hpipe, hqd, hnt⟩ := hframe
    obtain ⟨hflash, hkey, hsvn⟩ := hfacts
    have herase : (s.slotErase slot).keyRevoked = s.keyRevoked ∧ (s.slotErase slot).fuseSvn = s.fuseSvn ∧
        (s.slotErase slot).rd pgCRWN CRWN.DEV_ID_PART = s.rd pgCRWN CRWN.DEV_ID_PART := by
      obtain ⟨x, -, he⟩ := s.slotErase_only slot
      rw [he]
      exact ⟨rfl, rfl, rfl⟩
    obtain ⟨ekey, esvn, epart⟩ := herase
    generalize s.slotErase slot = e at *
    have hsame := State.flashWrite_flash (e := e) hflash (slotBase slot) (bytes.take (min (v.rd pgFWU FWU.STG_LEN_BYTES) (slotSize slot)))
    have hcheck := State.flashWrite_imgCheck (e := e) hflash (slotBase slot)
      (bytes.take (min (v.rd pgFWU FWU.STG_LEN_BYTES) (slotSize slot))) (hpart.trans epart.symm) (hkey.trans ekey.symm) (hsvn.trans esvn.symm) slot true
    obtain ⟨hend, hrun, hc, hcause, b, l, p, q, t⟩ := State.stageEnd_spec tag bytes hslot hlive' hfree' hsame hcheck
    rw [hlen] at hend
    exact ⟨_, hstart, hend, hrun, hc.trans (by rw [hcnt]), hcause, b.trans hband, l.trans hline, p.trans hpipe, q.trans hqd, t.trans hnt⟩
  · intro s slot tag hslot hlive hidle hheld hgap hrun htrial
    have hstart := execFwStage_runs hslot hlive hidle hheld tag .running hgap hrun htrial
    have hvalid := s.stageFetched_valid slot
    obtain ⟨r, o, l, x, h, hx⟩ := s.stageFetched_only slot
    have hframe : (s.stageFetched slot).flash = (s.slotErase slot).flash ∧ (s.stageFetched slot).toBandState = s.toBandState ∧
        (s.stageFetched slot).toLineState = s.toLineState ∧ (s.stageFetched slot).toPipeState = s.toPipeState ∧
        (s.stageFetched slot).toQdState = s.toQdState ∧ (s.stageFetched slot).nt = s.nt ∧ (s.stageFetched slot).toHostState = s.toHostState := by
      rw [h, ← hx]
      exact ⟨rfl, rfl, rfl, rfl, rfl, rfl, rfl⟩
    clear h
    generalize s.stageFetched slot = v at *
    exact ⟨_, hstart, rfl, hvalid, hframe⟩
  · intro s slot tag hslot hlive hidle hheld hgap hrun htrial
    have hstart := execFwStage_runs hslot hlive hidle hheld tag .hostError hgap hrun htrial
    have hlive' := (s.stageFetched_live slot pgFWU).trans hlive
    have hframe : (s.stageFetched slot).toBandState = s.toBandState ∧ (s.stageFetched slot).toLineState = s.toLineState ∧
        (s.stageFetched slot).toPipeState = s.toPipeState ∧ (s.stageFetched slot).toQdState = s.toQdState ∧ (s.stageFetched slot).nt = s.nt := by
      obtain ⟨r, o, l, x, h, -⟩ := s.stageFetched_only slot
      rw [h]
      exact ⟨rfl, rfl, rfl, rfl, rfl⟩
    generalize s.stageFetched slot = v at *
    obtain ⟨hstatus, htag, hvalid, hword, -⟩ := v.fwError_head tag 9 0 (by decide) hlive'
    refine ⟨_, hstart, v.fwError_idle .., hword, hstatus, htag, hvalid, ?_⟩
    rw [State.stageEnd, State.fwError_toBandState, State.fwError_toLineState, State.fwError_toPipeState, State.fwError_toQdState, State.fwError_nt]
    exact hframe
  · intro s slot tag hslot hlive hidle hheld hgap hrun htrial
    have hstart := execFwStage_runs hslot hlive hidle hheld tag .flashError hgap hrun htrial
    have hlive' := (s.stageFetched_live slot pgFWU).trans hlive
    have hframe : (s.stageFetched slot).toBandState = s.toBandState ∧ (s.stageFetched slot).toLineState = s.toLineState ∧
        (s.stageFetched slot).toPipeState = s.toPipeState ∧ (s.stageFetched slot).toQdState = s.toQdState ∧ (s.stageFetched slot).nt = s.nt := by
      obtain ⟨r, o, l, x, h, -⟩ := s.stageFetched_only slot
      rw [h]
      exact ⟨rfl, rfl, rfl, rfl, rfl⟩
    generalize s.stageFetched slot = v at *
    have hrec := (v.imgRecord_live slot 9 pgFWU).trans hlive'
    obtain ⟨hstatus, htag, hvalid, hone, htwo, -⟩ := State.fwError_head ((v.imgRecord slot 9).raise pgFWU 6) tag 2 9 (by decide)
      ((live_raise ..).trans hrec)
    refine ⟨_, hstart, State.fwError_idle .., ?_, hone, htwo, hstatus, htag, hvalid,
      State.fwError_cause _ _ _ _ (by decide) (State.raise_sets _ hrec (by decide)), ?_⟩
    · rw [State.stageEnd, State.fwError_rd, State.raise_rd, State.imgRecord_check]
      all_goals apply of_forall_lt slot hslot; decide
    · simpa [State.stageEnd] using hframe
  · intro s slot tag io hslot hlive hidle hheld hgap hrun
    have hstart := execFwStage_refused hslot hlive hidle hheld tag io hgap hrun
    have hlive' := (s.fwStarted_live pgFWU).trans hlive
    obtain ⟨hband, hline, hpipe, hqd, -, -, hnt⟩ := s.fwStarted_only.frame
    have hkeep : (s.resStart pgFWU FWU.FWU_RES).flash = s.flash ∧ (s.resStart pgFWU FWU.FWU_RES).fwPassed = s.fwPassed := ⟨rfl, rfl⟩
    generalize s.resStart pgFWU FWU.FWU_RES = u at *
    obtain ⟨hstatus, htag, hvalid, hword, -⟩ := u.fwError_head tag 1 0 (by decide) hlive'
    obtain ⟨b, l, p, q, t⟩ := u.fwError_frame tag 1 0
    exact ⟨_, hstart, (State.fwError_flash ..).trans hkeep.1, (State.fwError_fwPassed ..).trans hkeep.2, hword, hstatus, htag, hvalid,
      b.trans hband, l.trans hline, p.trans hpipe, q.trans hqd, t.trans hnt⟩
  · intro s slot tag io hslot hlive hidle hheld hgap
    have hstart := execFwStage_waits hslot hlive hidle hheld tag io hgap
    exact ⟨_, hstart, rfl, rfl, State.rd_wr_same .., rfl, rfl, rfl, rfl, rfl, rfl⟩
  · intro s tag bytes hlive hidle hheld hgap
    have hstart := execFwStageConfig_runs hlive hidle hheld hgap tag (.data bytes)
    have hlen : s.bankFetched.rd pgFWU FWU.STG_LEN_BYTES = s.rd pgFWU FWU.STG_LEN_BYTES := s.bankFetched_rd (by decide) (by decide)
    have hschema : s.bankFetched.rd pgFWU FWU.RUN_INFO_SCHEMA = s.rd pgFWU FWU.RUN_INFO_SCHEMA := s.bankFetched_rd (by decide) (by decide)
    have hcnt : s.bankFetched.rd pgFWU FWU.FWU_CNT 0 = s.rd pgFWU FWU.FWU_CNT 0 := s.bankFetched_rd (by decide) (by decide)
    have hlive' := (s.bankFetched_live pgFWU).trans hlive
    have hframe : s.bankFetched.flash = s.flash ∧ s.bankFetched.toBandState = s.toBandState ∧ s.bankFetched.toLineState = s.toLineState ∧
        s.bankFetched.toPipeState = s.toPipeState ∧ s.bankFetched.toQdState = s.toQdState ∧ s.bankFetched.nt = s.nt := by
      obtain ⟨r, o, h⟩ := s.bankFetched_only
      rw [h]
      exact ⟨rfl, rfl, rfl, rfl, rfl, rfl⟩
    generalize s.bankFetched = v at *
    obtain ⟨hflash, hframe⟩ := hframe
    have hrec := State.bootRec_of_flash hflash
    obtain ⟨hend, hrun, hc, hparts⟩ := v.stageConfigEnd_spec tag bytes hlive'
    obtain ⟨b, l, p, q, t⟩ := hframe
    rw [hrec, hlen, hschema] at hend
    refine ⟨_, hstart, State.configResult_of_flash hend (State.flashWrite_flash hflash _ _), hrun, hc.trans (by rw [hcnt]), ?_⟩
    obtain ⟨b', l', p', q', t'⟩ := hparts
    exact ⟨b'.trans b, l'.trans l, p'.trans p, q'.trans q, t'.trans t⟩
  · intro s slot tag ok hslot hlive hidle hheld hgap
    have hstart := execFwVerify_runs hslot hlive hidle hheld hgap tag ok
    have hlive' := (s.fwStarted_live pgFWU).trans hlive
    have hpart : (s.resStart pgFWU FWU.FWU_RES).rd pgCRWN CRWN.DEV_ID_PART = s.rd pgCRWN CRWN.DEV_ID_PART := s.fwStarted_rd (by decide)
    have hcheck := State.imgCheck_of_flash (s := s) (t := s.resStart pgFWU FWU.FWU_RES) rfl hpart rfl rfl slot ok
    obtain ⟨hband, hline, hpipe, hqd, -, -, hnt⟩ := s.fwStarted_only.frame
    have hflash : (s.resStart pgFWU FWU.FWU_RES).flash = s.flash := rfl
    generalize s.resStart pgFWU FWU.FWU_RES = u at *
    obtain ⟨hc, hpassed, hstatus, hfl, hcause, b, l, p, q, t⟩ := u.fwVerify_spec slot tag ok hslot hlive'
    rw [hcheck] at hc hpassed hstatus
    exact ⟨_, hstart, hc, hpassed, hstatus, hfl.trans hflash, hcause, b.trans hband, l.trans hline, p.trans hpipe, q.trans hqd, t.trans hnt⟩
  · intro s slot tag hlive hidle hheld htrial hslot hpassed
    have hstart := execFwArm_passed hlive hidle hheld slot tag htrial hslot hpassed
    obtain ⟨harmed, hsl⟩ := (s.resStart pgFWU FWU.FWU_RES).armedAt_rd hslot
    obtain ⟨r, h⟩ := (s.resStart pgFWU FWU.FWU_RES).armedAt_only slot
    obtain ⟨hband, hline, hpipe, hqd, hhost, -, hnt⟩ := s.fwStarted_only.frame
    have hflash : (s.resStart pgFWU FWU.FWU_RES).flash = s.flash := rfl
    generalize s.resStart pgFWU FWU.FWU_RES = v at *
    have hkeep : (v.armedAt slot).fwFired = false ∧ (v.armedAt slot).flash = v.flash ∧ (v.armedAt slot).toBandState = v.toBandState ∧
        (v.armedAt slot).toLineState = v.toLineState ∧ (v.armedAt slot).toPipeState = v.toPipeState ∧
        (v.armedAt slot).toQdState = v.toQdState ∧ (v.armedAt slot).nt = v.nt ∧ (v.armedAt slot).toHostState = v.toHostState := by
      rw [h]
      exact ⟨rfl, rfl, rfl, rfl, rfl, rfl, rfl, rfl⟩
    clear h
    generalize v.armedAt slot = u at *
    obtain ⟨hfired, hfl, b, l, p, q, t, g⟩ := hkeep
    obtain ⟨hstatus, htag, hvalid⟩ := u.fwDone_head tag
    have hdone : (u.fwDone tag).fwFired = u.fwFired := by
      obtain ⟨r, h⟩ := u.fwDone_only tag
      rw [h]
    refine ⟨_, hstart, hdone.trans hfired, ?_, ?_, ?_, hstatus, htag, hvalid, ?_⟩
    · rw [State.fwDone_rd _ _ (by decide), harmed]
    · rw [State.fwDone_rd _ _ (by decide), hsl]
    · rw [State.fwDone_flash, hfl, hflash]
    · simp [b.trans hband, l.trans hline, p.trans hpipe, q.trans hqd, t.trans hnt, g.trans hhost]
  · intro s slot tag hlive hidle hheld htrial
    have hstart := execFwArm_trial hlive hidle hheld slot tag htrial
    exact ⟨_, hstart, State.fwRefused_spec s tag 3 0 (by decide) hlive⟩
  · intro s slot tag hlive hidle hheld htrial hpassed
    have hstart := execFwArm_unpassed hlive hidle hheld slot tag htrial hpassed
    exact ⟨_, hstart, State.fwRefused_spec s tag 2 _ (by decide) hlive⟩
  · intro s tag hlive hidle hheld harmed
    have hrun := execFwDisarm_armed hlive hidle hheld tag harmed
    obtain ⟨r, h⟩ := s.fwStarted_only.wr pgFWU FWU.FWU_STS_ARMED 0 0
    have hzero : ((s.resStart pgFWU FWU.FWU_RES).wr pgFWU FWU.FWU_STS_ARMED 0).rd pgFWU FWU.FWU_STS_ARMED = 0 := State.rd_wr_same ..
    generalize (s.resStart pgFWU FWU.FWU_RES).wr pgFWU FWU.FWU_STS_ARMED 0 = u at *
    obtain ⟨hstatus, htag, hvalid⟩ := u.fwDone_head tag
    refine ⟨_, hrun, ?_, ?_, hstatus, htag, hvalid, ?_⟩
    · rw [State.fwDone_rd _ _ (by decide), hzero]
    · rw [State.fwDone_flash, h]
    · simp [h]
  · intro s tag hlive hidle hheld harmed hfired
    have hrun := execFwDisarm_idle hlive hidle hheld tag harmed hfired
    obtain ⟨-, h⟩ := State.fwRefused_spec s tag 4 0 (by decide) hlive
    exact ⟨_, hrun, by rw [State.fwError_flash]; rfl, h⟩
  · intro s tag hlive hidle hheld harmed hfired
    have hrun := execFwDisarm_late hlive hidle hheld tag harmed hfired
    obtain ⟨r, h⟩ := s.fwStarted_only.result pgFWU FWU.FWU_RES tag DONE [] 0 true
    obtain ⟨hstatus, htag, hvalid⟩ := (s.resStart pgFWU FWU.FWU_RES).fwResult_head (tag := tag) [] true (st := DONE) (by decide)
    have hlate := State.rd_result_late (s.resStart pgFWU FWU.FWU_RES) pgFWU FWU.FWU_RES 0 tag DONE [] true
    generalize (s.resStart pgFWU FWU.FWU_RES).result pgFWU FWU.FWU_RES tag DONE [] 0 true = u at *
    refine ⟨_, hrun, hlate, ?_, hstatus, htag, hvalid, ?_⟩
    · rw [h]
    · simp [h]
  · intro s tag hlive hidle hheld harmed htrial
    have hrun := execFwActivateNow_accepted hlive hidle hheld tag harmed htrial
    have hlive' := (s.fwStarted_live pgFWU).trans hlive
    have hrd : ∀ f i, FWU.FWU_RES.valid.key pgFWU 0 ≠ f.key pgFWU i → (s.resStart pgFWU FWU.FWU_RES).rd pgFWU f i = s.rd pgFWU f i :=
      fun f i h => s.fwStarted_rd h
    have hrole : ∀ k, (s.resStart pgFWU FWU.FWU_RES).role k = s.role k := fun k =>
      s.fwStarted_rd (by obtain h | h := ilRole_eq k <;> rw [h] <;> decide)
    have hflash' : (s.resStart pgFWU FWU.FWU_RES).flash = s.flash := rfl
    obtain ⟨hband, -, hpipe, hqd, -, -, hnt⟩ := s.fwStarted_only.frame
    generalize s.resStart pgFWU FWU.FWU_RES = u at *
    obtain ⟨hfired, hzero, hflash, hdown, hsw, hcnt, hcause, hparts⟩ := u.activated_spec tag hlive'
    obtain ⟨hstatus, htag, hvalid⟩ := u.triggered.spRestartBoth.fwDone_head tag
    obtain ⟨pband, ppipe, pqd, pnt⟩ := State.offFirmware_eq hparts
    rw [hrd _ _ (by decide), hrd _ _ (by decide), State.bootRec_of_flash hflash', State.recWrite_flash hflash'] at hflash
    rw [hrd _ _ (by decide)] at hcnt
    exact ⟨_, hrun, hfired, hzero, hflash, fun k hk hon => hdown k hk (by rwa [hrole]), hsw, hcnt, hcause, hstatus, htag, hvalid,
      pband.trans hband, ppipe.trans hpipe, pqd.trans hqd, pnt.trans hnt⟩
  · intro s tag hlive hidle hheld harmed htrial
    have hrun := execFwActivateNow_refused hlive hidle hheld tag (.inl harmed)
    rw [htrial, if_neg Bool.false_ne_true] at hrun
    exact ⟨_, hrun, State.activateRefused_spec s tag 4 0 (by decide) hlive⟩
  · intro s tag hlive hidle hheld htrial
    have hrun := execFwActivateNow_refused hlive hidle hheld tag (.inr htrial)
    rw [if_pos htrial] at hrun
    exact ⟨_, hrun, State.activateRefused_spec s tag 3 0 (by decide) hlive⟩
  · intro s tag hlive hidle hheld hsends
    have hrun := execFlashRead_good hlive hidle hheld tag hsends
    obtain ⟨r, h⟩ := s.fwStarted_only.bump pgPCE PCE.PCE_CNT 0 0 1
    obtain ⟨hstatus, htag, hvalid⟩ := State.fwDone_head (((s.resStart pgFWU FWU.FWU_RES).cnt pgPCE PCE.PCE_CNT 0).emit (.hostWrite 1
      (s.rd pgFWU FWU.STG_ADDR_LO_ADDR + s.rd pgFWU FWU.STG_ADDR_HI_ADDR * 2 ^ 32)
      (s.flashBytes (s.rd pgFWU FWU.STG_OFF_OFFSET) (min (s.rd pgFWU FWU.STG_LEN_BYTES) (0x4000000 - s.rd pgFWU FWU.STG_OFF_OFFSET))) false)) tag
    refine ⟨_, hrun, ?_, ?_, hstatus, htag, hvalid, ?_⟩
    · obtain ⟨q, hq⟩ := State.fwDone_only (((s.resStart pgFWU FWU.FWU_RES).cnt pgPCE PCE.PCE_CNT 0).emit (.hostWrite 1
        (s.rd pgFWU FWU.STG_ADDR_LO_ADDR + s.rd pgFWU FWU.STG_ADDR_HI_ADDR * 2 ^ 32)
        (s.flashBytes (s.rd pgFWU FWU.STG_OFF_OFFSET) (min (s.rd pgFWU FWU.STG_LEN_BYTES) (0x4000000 - s.rd pgFWU FWU.STG_OFF_OFFSET))) false)) tag
      rw [hq, State.cnt, h]
      rfl
    · rw [State.fwDone_flash, State.cnt, h]
      rfl
    · rw [State.fwDone_toBandState, State.fwDone_toLineState, State.fwDone_toPipeState, State.fwDone_toQdState, State.fwDone_nt,
        State.fwDone_toHostState, State.cnt, h]
      exact ⟨rfl, rfl, rfl, rfl, rfl, rfl⟩
  · intro s tag hlive hidle hheld
    have hrun := execFlashRead_bad hlive hidle hheld tag
    have hlive' := (s.fwStarted_live pgFWU).trans hlive
    obtain ⟨hband, hline, hpipe, hqd, -, -, hnt⟩ := s.fwStarted_only.frame
    have hflash : (s.resStart pgFWU FWU.FWU_RES).flash = s.flash := rfl
    generalize s.resStart pgFWU FWU.FWU_RES = u at *
    obtain ⟨hstatus, htag, hvalid, hone, htwo, -⟩ := (u.raise pgFWU 6).fwError_head tag 2 9 (by decide) ((live_raise ..).trans hlive')
    refine ⟨_, hrun, ?_, State.fwError_cause _ _ _ _ (by decide) (State.raise_sets _ hlive' (by decide)), hone, htwo, hstatus, htag, hvalid, ?_⟩
    · rw [State.fwError_flash, State.raise_flash, hflash]
    · simp [hband, hline, hpipe, hqd, hnt]
  · intro s n tag a hlive hrun
    have hstart : execFwuAbort n s = .next (({ s with fwRun := none } : State).result pgFWU FWU.FWU_RES tag ABORTED) := by
      simp only [execFwuAbort, State.gate_of_live hlive, hrun]
    obtain ⟨r, h⟩ := (OnlyRegs.refl ({ s with fwRun := none } : State)).result pgFWU FWU.FWU_RES tag ABORTED [] 0 false
    obtain ⟨hstatus, htag, hvalid⟩ := State.fwResult_head { s with fwRun := none } (tag := tag) [] false (st := ABORTED) (by decide)
    generalize ({ s with fwRun := none } : State).result pgFWU FWU.FWU_RES tag ABORTED = u at *
    exact ⟨_, hstart, by rw [h], by rw [h], hstatus, htag, hvalid, by simp [h]⟩
  · intro s n tag x hlive hidle hheld htask
    have hstart : execFwuAbort n s = .next (({ s with fwHeld := none } : State).result pgFWU FWU.FWU_RES (fwTag x) ABORTED) := by
      simp only [execFwuAbort, State.gate_of_live hlive, hidle, hheld]
    rw [htask]
    obtain ⟨r, h⟩ := (OnlyRegs.refl ({ s with fwHeld := none } : State)).result pgFWU FWU.FWU_RES (fwTag x) ABORTED [] 0 false
    obtain ⟨hstatus, htag, hvalid⟩ := State.fwResult_head { s with fwHeld := none } (tag := fwTag x) [] false (st := ABORTED) (by decide)
    generalize ({ s with fwHeld := none } : State).result pgFWU FWU.FWU_RES (fwTag x) ABORTED = u at *
    exact ⟨_, hstart, by rw [h], by rw [h], hstatus, htag, hvalid, by simp [h]⟩

end Sys2Proof.Machine

/-! PROOFS. Rules for the host's units: results, causes that are not fatal, and interrupts, none of which touches the service units. -/

namespace Sys2Proof.Machine
set_option Elab.async false

/-- The header of a result. -/
theorem State.result_head (u : State) (p : Nat) (r : ResSet) (tag : Nat) {st : Nat} (ws : List Nat) (i : Nat) (late : Bool) (hst : st < 16) :
    (u.result p r tag st ws i late).rd p r.status i = st ∧ (u.result p r tag st ws i late).rd p r.tag i = tag % 256 ∧
      (u.result p r tag st ws i late).rd p r.valid i = 1 :=
  ⟨by rw [State.rd_result_status, Nat.mod_eq_of_lt hst], State.rd_result_tag .., State.rd_result_valid ..⟩

/-! ### What causes leave of the service units -/

section
variable (s : State)

@[simp] theorem State.pmc_toMgmtState (p e k : Nat) : (s.pmc p e k).toMgmtState = s.toMgmtState := pmc_mgmt s p e k
@[simp] theorem State.msix_toMgmtState (fn v : Nat) : (s.msix fn v).toMgmtState = s.toMgmtState := by
  simp only [State.msix]
  split <;> simp
@[simp] theorem State.post_toMgmtState (fn a : Nat) (d : List Byte) (ro : Bool) : (s.post fn a d ro).toMgmtState = s.toMgmtState := by
  simp only [State.post]
  split <;> simp
@[simp] theorem State.hostEdges_toMgmtState (s0 : State) (p : Nat) : (State.hostEdges s0 s p).toMgmtState = s.toMgmtState := by
  simp only [State.hostEdges]
  repeat' split
  all_goals simp
@[simp] theorem State.spSignal_toMgmtState : s.spSignal.toMgmtState = s.toMgmtState := by
  simp only [State.spSignal]
  split <;> simp
@[simp] theorem State.edges_toMgmtState (s0 : State) (p : Nat) : (State.edges s0 s p).toMgmtState = s.toMgmtState := by
  simp only [State.edges]
  split <;> simp
@[simp] theorem State.firstErr_toMgmtState (p c : Nat) : (s.firstErr p c).toMgmtState = s.toMgmtState := by
  simp only [State.firstErr]
  split <;> simp [State.wrFree]
@[simp] theorem State.cause_toMgmtState (p c : Nat) : (s.cause p c).toMgmtState = s.toMgmtState := by
  simp [State.cause]
@[simp] theorem State.logAppend_toMgmtState (page inst src event sev a0 a1 : Nat) :
    (s.logAppend page inst src event sev a0 a1).toMgmtState = s.toMgmtState := by
  simp only [State.logAppend]
  repeat' split
  all_goals simp [State.inc]
@[simp] theorem State.logHw_toMgmtState (p c : Nat) (first : Bool) : (s.logHw p c first).toMgmtState = s.toMgmtState := by
  simp only [State.logHw]
  repeat' split
  all_goals simp [State.inc]
@[simp] theorem State.raise1_toMgmtState (p c : Nat) : (s.raise1 p c).toMgmtState = s.toMgmtState := by
  simp only [State.raise1]
  repeat' split
  all_goals simp
/-- A cause that is not fatal requests no strobe and leaves the service units as they are. -/
theorem State.raise_toMgmtState {p c : Nat} (h : severityOf p c ≠ 2) : (s.raise p c).toMgmtState = s.toMgmtState := by
  rw [State.raise, if_neg fun hc => h hc.2, State.raise1_toMgmtState]
end

end Sys2Proof.Machine

/-! PROOFS. Commands of queue pairs: contexts, ENABLE, DISABLE and what it drops, ABORT, assignment and release. -/

namespace Sys2Proof.Machine
set_option Elab.async false

/-! ### The work of one queue pair -/

theorem State.qp_setQp_ne (s : State) {p k : Nat} (x : QPair) (h : k ≠ p) : (s.setQp p x).qp k = s.qp k := tgetD_tset_ne _ _ _ (Ne.symm h)

/-- From s to t the device works for queue pair p: the registers of the DMA page, the other parts of the device, the running command and
the other queue pairs stay, and queue pair p keeps its state and its frames. -/
structure QpQuiet (p : Nat) (s t : State) : Prop where
  reg : ∀ (f : Fld) (i : Nat), f.calmAt pgDMA i → t.rd pgDMA f i = s.rd pgDMA f i
  core : coreParts t = coreParts s
  mgmt : t.toMgmtState = s.toMgmtState
  run : t.qpRun = s.qpRun
  others : ∀ k, k ≠ p → t.qp k = s.qp k
  stays : (t.qp p).state = (s.qp p).state ∧ (t.qp p).frames = (s.qp p).frames

namespace QpQuiet
variable {p : Nat} {s t u : State}

theorem refl (s : State) : QpQuiet p s s := ⟨fun _ _ _ => rfl, rfl, rfl, rfl, fun _ _ => rfl, rfl, rfl⟩
theorem trans (h : QpQuiet p s t) (g : QpQuiet p t u) : QpQuiet p s u where
  reg f i hc := (g.reg f i hc).trans (h.reg f i hc)
  core := g.core.trans h.core
  mgmt := g.mgmt.trans h.mgmt
  run := g.run.trans h.run
  others k hk := (g.others k hk).trans (h.others k hk)
  stays := ⟨g.stays.1.trans h.stays.1, g.stays.2.trans h.stays.2⟩
theorem calm (h : Calm s t) (hm : t.toMgmtState = s.toMgmtState) : QpQuiet p s t where
  reg f i hc := h.rd (not_sideKey_of_calmAt hc)
  core := coreParts_calm h
  mgmt := hm
  run := by rw [h.host]
  others k _ := by rw [State.qp, State.qp, h.host]
  stays := by
    have hq : t.qp p = s.qp p := by rw [State.qp, State.qp, h.host]
    rw [hq]
    exact ⟨rfl, rfl⟩
theorem setQp (s : State) {x : QPair} (h : x.state = (s.qp p).state ∧ x.frames = (s.qp p).frames) : QpQuiet p s (s.setQp p x) where
  reg _ _ _ := rfl
  core := rfl
  mgmt := rfl
  run := rfl
  others _ hk := s.qp_setQp_ne x hk
  stays := by rwa [State.qp_setQp]
theorem setVf (s : State) (n : Nat) (v : VfState) : QpQuiet p s (s.setVf n v) := ⟨fun _ _ _ => rfl, rfl, rfl, rfl, fun _ _ => rfl, rfl, rfl⟩
theorem cntVfm (s : State) (n : Nat) (h : n < 5) : QpQuiet p s (s.cnt pgVFM VFM.VFM_CNT n) where
  reg f i hc := State.cnt_rd_ne _ hc (by
    obtain ⟨-, hhi, hlo, -⟩ := hc
    simp only [Fld.key, VFM.VFM_CNT, pgVFM, pgDMA]
    omega)
  core := by simp [coreParts, State.cnt, State.bump]
  mgmt := State.cnt_toMgmtState ..
  run := by simp [State.cnt, State.bump]
  others k _ := State.qp_cnt ..
  stays := by simp

theorem logMark (s : State) (n addr len : Nat) : QpQuiet p s (s.logMark n addr len) := by
  simp only [State.logMark]
  split
  · exact refl s
  · split
    · exact setVf s n _
    · exact ((setVf s n _).trans (cntVfm _ 3 (by decide))).trans (calm (Calm.raise _ _ _) (State.raise_toMgmtState _ (by decide)))
theorem hostPut (s : State) (n addr : Nat) (data : List Byte) (fd : Bool) : QpQuiet p s (s.hostPut n addr data fd) := by
  simp only [State.hostPut]
  split
  · exact calm (Calm.post _ _ _ _ _) (State.post_toMgmtState ..)
  · exact (calm (Calm.post _ _ _ _ _) (State.post_toMgmtState ..)).trans (logMark ..)
theorem cqSignal (s : State) : QpQuiet p s (s.cqSignal p) := by
  simp only [State.cqSignal]
  split
  · exact trans (t := s.setQp p { s.qp p with arm := false, unsig := 0 }) (setQp s ⟨rfl, rfl⟩) (calm (Calm.msix _ _ _) (State.msix_toMgmtState ..))
  · exact refl s
/-- A completion writes the host and the queue pair's own CQ. -/
theorem cqPut (s : State) (kind status bufs index : Nat) (words : List Nat) : QpQuiet p s (s.cqPut p kind status bufs index words) := by
  rw [State.cqPut]
  generalize (((kind + b2n (s.qp p).cqPhase * 4 + status * 16 + bufs * 256 + index * 65536) :: words) ++ List.replicate (7 - words.length) 0) = ws
  have hput := hostPut (p := p) s (s.qp p).fn ((s.qp p).cqBase + 32 * ((s.qp p).cqTail % (s.qp p).cqSize)) (leWordsToBytes ws) false
  refine trans ?_ (cqSignal _)
  exact hput.trans (setQp _ ⟨hput.stays.1.symm, hput.stays.2.symm⟩)
theorem qpCnt (s : State) (k n : Nat) : QpQuiet p s (s.qpCnt p k n) := setQp s ⟨rfl, rfl⟩
theorem txDropped (s : State) (f : TxFrame) : QpQuiet p s (s.txDropped p f) := (qpCnt s 5 1).trans (cqPut ..)
theorem foldl {α : Type} {f : State → α → State} (hf : ∀ u x, QpQuiet p u (f u x)) (l : List α) (s : State) : QpQuiet p s (l.foldl f s) := by
  induction l generalizing s with
  | nil => exact refl s
  | cons a l ih => exact (hf s a).trans (ih _)
end QpQuiet

/-! ### Commands -/

section
variable {s : State} (hf : s.fabric = false) (hlive : s.live pgDMA = true) (hidle : s.qpRun = none)
include hf hlive hidle

/-- A queue-pair command in line mode that no other holds back (R868). -/
theorem State.qpCmd_runs (f : State → State) : (s.lineGate pgDMA fun (t : State) => t.qpCmd f) = f s := by
  rw [State.lineGate_of_live hf hlive, State.qpCmd, if_neg (by simp [hidle])]
end

/-- A DISABLE before the frames that it cuts are dropped (R588). -/
def State.qpDraining (s : State) (tag : Nat) : State :=
  (({ s.resStart pgDMA DMA.QP_RES with qpRun := some (s.qpSel, tag) } : State).endReads s.qpSel
    (((s.qp s.qpSel).frames.filter fun (f : TxFrame) => !f.done).map fun (f : TxFrame) => f.first)).setQp s.qpSel
    { s.qp s.qpSel with state := 2, frames := (s.qp s.qpSel).frames.filter fun (f : TxFrame) => f.done }

theorem State.qpDisable_eq (s : State) (tag : Nat) (h : (s.qp s.qpSel).state = 1 ∨ (s.qp s.qpSel).state = 3) :
    s.qpDisable tag = ((s.qp s.qpSel).frames.filter fun (f : TxFrame) => !f.done).foldl (fun (t : State) f => t.txDropped s.qpSel f)
      (s.qpDraining tag) := by
  have hno : ¬ ((s.qp s.qpSel).state ≠ 1 ∧ (s.qp s.qpSel).state ≠ 3) := by omega
  simp only [State.qpDisable, hno, if_false, State.qpDraining]

/-- The running DISABLE of a queue pair ends DONE. -/
theorem State.qpRunDone_of_run {s : State} {p tag : Nat} (h : s.qpRun = some (p, tag)) :
    s.qpRunDone p = ({ s with qpRun := none } : State).result pgDMA DMA.QP_RES tag DONE := by
  simp only [State.qpRunDone, h, if_true]

/-- A VFM command about a function that is there and not in reset (R594, R868). -/
theorem State.vfmCmd_runs {s : State} (hidle : s.vfmRun = none) {n : Nat} (hthere : s.vfThere n = true)
    (hflr : (s.fnS (fnOf n)).flr = none) (tag : Nat) (f : State → State) : s.vfmCmd tag n false f = f (s.cnt pgVFM VFM.VFM_CNT 0) := by
  obtain ⟨r, h⟩ := (OnlyRegs.refl s).bump pgVFM VFM.VFM_CNT 0 0 1
  have hthere' : (s.cnt pgVFM VFM.VFM_CNT 0).vfThere n = true := by
    rw [State.cnt, h]
    exact hthere
  have hflr' : ((s.cnt pgVFM VFM.VFM_CNT 0).fnS (fnOf n)).flr = none := by
    rw [State.cnt, h]
    exact hflr
  simp [State.vfmCmd, hidle, hthere', hflr']

/-- What an assignment or a release leaves: queue pair p as it was given, and a result DONE. -/
theorem State.vfmQp_spec (s : State) (p tag : Nat) (x : QPair) :
    let t := ((s.cnt pgVFM VFM.VFM_CNT 0).setQp p x).vfmDone tag
    t.qp p = x ∧ (∀ k, k ≠ p → t.qp k = s.qp k) ∧ t.rd pgVFM VFM.VFM_RES.status = 1 ∧ t.rd pgVFM VFM.VFM_RES.tag = tag % 256 ∧
      t.rd pgVFM VFM.VFM_RES.valid = 1 ∧ t.toBandState = s.toBandState ∧ t.toLineState = s.toLineState ∧ t.toPipeState = s.toPipeState ∧
      t.toQdState = s.toQdState ∧ t.toMgmtState = s.toMgmtState ∧ t.nt = s.nt := by
  obtain ⟨hstatus, htag, hvalid⟩ := ((s.cnt pgVFM VFM.VFM_CNT 0).setQp p x).result_head pgVFM VFM.VFM_RES tag (st := DONE) [] 0 false (by decide)
  refine ⟨?_, fun k hk => ?_, hstatus, htag, hvalid, ?_⟩
  · rw [State.vfmDone, State.qp_result, State.qp_setQp]
  · rw [State.vfmDone, State.qp_result, State.qp_setQp_ne _ _ hk, State.qp_cnt]
  · simp [State.vfmDone]

/-- Settles O42, clause by clause. -/
theorem queuePairCommands : Obligations.QueuePairCommands := by
  unfold Obligations.QueuePairCommands
  refine ⟨?_, ?_, ?_, ?_, ?_, ?_, ?_, ?_, ?_⟩
  · intro s tag p w hf hlive hidle hp hstate hw hok
    subst hp
    have hgood : ¬ ((s.qp s.qpSel).state ≠ 0 ∨ ¬ ctxOk w (s.qp s.qpSel).owner = true) := by
      simp [hstate, hok]
    have hrun : execWriteCtx tag s = .next ((s.setQp s.qpSel { owner := (s.qp s.qpSel).owner, ctx := w, cnt := (s.qp s.qpSel).cnt }).result pgDMA DMA.QP_RES tag DONE) := by
      rw [execWriteCtx, State.qpCmd_runs hf hlive hidle]
      simp only [State.writeCtx, ← hw, hgood, if_false]
    obtain ⟨hstatus, htag, hvalid⟩ := State.result_head (s.setQp s.qpSel { owner := (s.qp s.qpSel).owner, ctx := w, cnt := (s.qp s.qpSel).cnt }) pgDMA DMA.QP_RES
      tag (st := DONE) [] 0 false (by decide)
    refine ⟨_, hrun, ?_, fun k hk => ?_, hstatus, htag, hvalid, ?_⟩
    · rw [State.qp_result, State.qp_setQp]
    · rw [State.qp_result, State.qp_setQp_ne _ _ hk]
    · simp
  · intro s tag p hf hlive hidle hp hstate
    subst hp
    have hbad : (s.qp s.qpSel).state ≠ 0 ∨ ¬ ctxOk ((List.range 9).map fun k => andBits (s.rd pgDMA DMA.CTX_W_WORD k) (ctxMask k))
        (s.qp s.qpSel).owner = true := .inl hstate
    have hrun : execWriteCtx tag s = .next (s.qpError tag) := by
      rw [execWriteCtx, State.qpCmd_runs hf hlive hidle]
      simp only [State.writeCtx, hbad, if_true]
    obtain ⟨hstatus, htag, hvalid⟩ := (s.draw 4).2.result_head pgDMA DMA.QP_RES tag (st := ERROR) [(s.draw 4).1] 0 false (by decide)
    refine ⟨_, hrun, ?_, ?_, ?_, ?_, ?_, ?_⟩
    · simp [State.qpError]
    · rw [State.qpError, State.raise_rd _ _ _ (by decide), hstatus]
      rfl
    · rw [State.qpError, State.raise_rd _ _ _ (by decide), htag]
    · rw [State.qpError, State.raise_rd _ _ _ (by decide), hvalid]
    · refine State.raise_sets _ ?_ (by decide)
      rw [State.result_live _ _ _ _ _ _ _ _ _ (by decide)]
      exact hlive
    · simp [State.qpError]
  · intro s tag p k hf hlive hidle hp hk
    subst hp
    have hrun : execReadCtx tag s = .next (s.result pgDMA DMA.QP_RES tag DONE (s.qp s.qpSel).ctx) := by
      rw [execReadCtx, State.qpCmd_runs hf hlive hidle]
    obtain ⟨hstatus, htag, hvalid⟩ := s.result_head pgDMA DMA.QP_RES tag (st := DONE) (s.qp s.qpSel).ctx 0 false (by decide)
    obtain ⟨hband, hline, hpipe, hqd, hhost, hmgmt, hnt⟩ := ((OnlyRegs.refl s).result pgDMA DMA.QP_RES tag DONE (s.qp s.qpSel).ctx 0 false).frame
    exact ⟨_, hrun, s.rd_result_word pgDMA DMA.QP_RES 0 tag DONE _ false ⟨by omega, by omega⟩, hstatus, htag, hvalid, hband, hline, hpipe, hqd,
      hmgmt, hnt, hhost⟩
  · intro s tag p hf hlive hidle hp hstate howner hok
    subst hp
    have hgood : ¬ ((s.qp s.qpSel).state ≠ 0 ∨ (s.qp s.qpSel).owner.isNone = true ∨ ¬ ctxOk (s.qp s.qpSel).ctx (s.qp s.qpSel).owner = true) := by
      simp [hstate, hok, Option.isSome_iff_ne_none.1 howner]
    have hrun : execQpEnable tag s = .next (((s.setQp s.qpSel { s.qp s.qpSel with state := 1 }).ctxRestart (256 + s.qpSel)).result pgDMA DMA.QP_RES tag DONE) := by
      rw [execQpEnable, State.qpCmd_runs hf hlive hidle]
      simp only [State.qpEnable, hgood, if_false]
    obtain ⟨hstatus, htag, hvalid⟩ := State.result_head ((s.setQp s.qpSel { s.qp s.qpSel with state := 1 }).ctxRestart (256 + s.qpSel)) pgDMA DMA.QP_RES
      tag (st := DONE) [] 0 false (by decide)
    refine ⟨_, hrun, ?_, fun k hk => ?_, hstatus, htag, hvalid, ?_⟩
    · rw [State.qp_result]
      exact State.qp_setQp ..
    · rw [State.qp_result]
      exact State.qp_setQp_ne _ _ hk
    · simp [State.ctxRestart]
  · intro s tag p hf hlive hidle hp hstate
    subst hp
    have hrun : execQpDisable tag s = .next (((s.qp s.qpSel).frames.filter fun (f : TxFrame) => !f.done).foldl
        (fun (t : State) f => t.txDropped s.qpSel f) (s.qpDraining tag)) := by
      rw [execQpDisable, State.qpCmd_runs hf hlive hidle, State.qpDisable_eq _ _ hstate]
    have hquiet := QpQuiet.foldl (p := s.qpSel) (f := fun (t : State) f => t.txDropped s.qpSel f) (fun u f => QpQuiet.txDropped u f)
      ((s.qp s.qpSel).frames.filter fun (f : TxFrame) => !f.done) (s.qpDraining tag)
    have hstart : s.qpDraining tag = ({ s with regs := (s.resStart pgDMA DMA.QP_RES).regs, qpRun := some (s.qpSel, tag)
                                               tags := (s.qpDraining tag).tags } : State).setQp s.qpSel
        { s.qp s.qpSel with state := 2, frames := (s.qp s.qpSel).frames.filter TxFrame.done } := by
      rfl
    have hvalid : (s.qpDraining tag).rd pgDMA DMA.QP_RES.valid = 0 := State.rd_wr_same ..
    generalize s.qpDraining tag = u at *
    generalize ((s.qp s.qpSel).frames.filter fun (f : TxFrame) => !f.done).foldl (fun (t : State) f => t.txDropped s.qpSel f) u = t at *
    obtain ⟨hstays, hframes⟩ := hquiet.stays
    have hqp : u.qp s.qpSel = { s.qp s.qpSel with state := 2, frames := (s.qp s.qpSel).frames.filter TxFrame.done } := by rw [hstart, State.qp_setQp]
    have hrest : coreParts u = coreParts s ∧ u.toMgmtState = s.toMgmtState ∧ u.qpRun = some (s.qpSel, tag) := by
      rw [hstart]
      exact ⟨rfl, rfl, rfl⟩
    have hothers : ∀ k, k ≠ s.qpSel → u.qp k = s.qp k := fun k hk => by
      rw [hstart, State.qp_setQp_ne _ _ hk]
      rfl
    obtain ⟨hcore, hmgmt, hq⟩ := hrest
    obtain ⟨hband, hline, hpipe, hqd, hnt⟩ := coreParts_eq (hquiet.core.trans hcore)
    exact ⟨_, hrun, by rw [hstays, hqp], by rw [hframes, hqp], hquiet.run.trans hq, (hquiet.reg _ 0 (by decide)).trans hvalid,
      fun k hk => (hquiet.others k hk).trans (hothers k hk), hband, hline, hpipe, hqd, hnt, hquiet.mgmt.trans hmgmt⟩
  · intro s qp tag hqp hlive hstate hframes hflr hrunning
    have hrun : execQpDrainComplete qp s = .next (({ s.setQp qp { s.qp qp with state := 0 } with qpRun := none } : State).result pgDMA DMA.QP_RES
        tag DONE) := by
      have hmod : qp % 8192 = qp := Nat.mod_eq_of_lt hqp
      have hdone : (s.setQp qp { s.qp qp with state := 0 }).qpRun = some (qp, tag) := hrunning
      have hgo : (s.qp qp).state = 2 ∧ (s.qp qp).frames = [] ∧ s.live pgDMA = true ∧ (s.fnS (fnOf (s.qp qp).fn)).flr.isNone = true :=
        ⟨hstate, hframes, hlive, hflr⟩
      rw [execQpDrainComplete, hmod, if_pos hgo, State.qpRunDone_of_run hdone]
    obtain ⟨hstatus, htag, hvalid⟩ := State.result_head ({ s.setQp qp { s.qp qp with state := 0 } with qpRun := none }) pgDMA DMA.QP_RES
      tag (st := DONE) [] 0 false (by decide)
    refine ⟨_, hrun, ?_, ?_, fun k hk => ?_, hstatus, htag, hvalid, ?_⟩
    · rw [State.qp_result]
      exact State.qp_setQp ..
    · simp
    · rw [State.qp_result]
      exact State.qp_setQp_ne _ _ hk
    · simp
  · intro s tag p hlive hrunning
    have hrun : execQpAbort s = .next (({ s with qpRun := none } : State).result pgDMA DMA.QP_RES tag ABORTED) := by
      simp only [execQpAbort, State.gate_of_live hlive, State.qpAbort, hrunning]
    obtain ⟨hstatus, htag, hvalid⟩ := State.result_head ({ s with qpRun := none }) pgDMA DMA.QP_RES tag (st := ABORTED) [] 0 false (by decide)
    exact ⟨_, hrun, by simp, by simp, hstatus, htag, hvalid, by simp⟩
  · intro s tag n p i hf hlive hidle hn hp hi hthere hflr howner hindex
    have hsame : (s.cnt pgVFM VFM.VFM_CNT 0).cmdFn = n ∧ (s.cnt pgVFM VFM.VFM_CNT 0).rd pgVFM VFM.CMD_QP_QP = p ∧
        (s.cnt pgVFM VFM.VFM_CNT 0).rd pgVFM VFM.CMD_LOCAL_INDEX = i := by
      rw [hn, hp, hi, State.cmdFn, State.cmdFn, State.cnt_rd_ne _ (by decide) (by decide), State.cnt_rd_ne _ (by decide) (by decide),
        State.cnt_rd_ne _ (by decide) (by decide)]
      exact ⟨rfl, rfl, rfl⟩
    have hqps : (s.cnt pgVFM VFM.VFM_CNT 0).qpsOf n = s.qpsOf n := by
      obtain ⟨r, h⟩ := (OnlyRegs.refl s).bump pgVFM VFM.VFM_CNT 0 0 1
      rw [State.cnt, h]
      rfl
    have hgood : ¬ (((s.cnt pgVFM VFM.VFM_CNT 0).qp p).owner.isSome = true ∨
        (n ≠ 0 ∧ ((s.cnt pgVFM VFM.VFM_CNT 0).qpsOf n).any (fun e => decide (e.1 = i)) = true)) := by
      rw [State.qp_cnt, howner, hqps]
      rintro (h | ⟨h, hany⟩)
      · exact absurd h (by simp)
      · obtain ⟨e, he, hei⟩ := List.any_eq_true.1 hany
        exact (of_decide_eq_true (List.all_eq_true.1 (hindex.resolve_left h) e he)) (of_decide_eq_true hei)
    have hrun : execAssignQp tag s = .next (((s.cnt pgVFM VFM.VFM_CNT 0).setQp p { s.qp p with owner := some (n, i) }).vfmDone tag) := by
      rw [execAssignQp, State.lineGate_of_live hf hlive, ← hn, State.vfmCmd_runs hidle hthere hflr]
      simp only [State.assignQp, hsame.1, hsame.2.1, hsame.2.2, hgood, if_false]
      rw [State.qp_cnt]
    exact ⟨_, hrun, s.vfmQp_spec p tag _⟩
  · intro s tag p hlive hidle hp hthere hflr hstate
    have hsame : (s.cnt pgVFM VFM.VFM_CNT 0).rd pgVFM VFM.CMD_QP_QP = p := by
      rw [hp, State.cnt_rd_ne _ (by decide) (by decide)]
    have hgood : ¬ (((s.cnt pgVFM VFM.VFM_CNT 0).qp p).state ≠ 0) := by
      rw [State.qp_cnt, hstate]
      decide
    have hrun : execReleaseQp tag s = .next (((s.cnt pgVFM VFM.VFM_CNT 0).setQp p { s.qp p with owner := none }).vfmDone tag) := by
      rw [execReleaseQp, State.gate_of_live hlive, ← hp, State.vfmCmd_runs hidle hthere hflr]
      simp only [State.releaseQp, hsame, hgood, if_false]
      rw [State.qp_cnt]
    exact ⟨_, hrun, s.vfmQp_spec p tag _⟩

end Sys2Proof.Machine

/-! PROOFS. Key wrap and NVMe/TCP commands, with the result of a command that ends in an error and a cause. -/

namespace Sys2Proof.Machine
set_option Elab.async false

/-! ### A result with its cause -/

section
variable (u : State) {p : Nat} {r : ResSet} (tag : Nat) {st : Nat} (ws : List Nat) (late : Bool) (c : Nat)
  (hr : 256 ≤ r.off ∧ r.off + 64 ≤ 65536) (hp : p ≠ 0 ∧ p ≠ 1 ∧ p ≠ 6 ∧ p ≠ 7 ∧ p ≠ 240)
include hr hp

/-- The words of a result are calm. -/
theorem ResSet.calmAt_word {k : Nat} (hk : k ≤ 15) : (r.word k).calmAt p 0 ∧ r.status.calmAt p 0 ∧ r.tag.calmAt p 0 ∧ r.valid.calmAt p 0 ∧
    r.late.calmAt p 0 := by
  simp only [Fld.calmAt, ResSet.word, ResSet.status, ResSet.tag, ResSet.valid, ResSet.late]
  omega
/-- A result and a cause after it: header and words as they were given, and the cause set. -/
theorem State.resultRaised_spec (hst : st < 16) (hlive : u.live p = true) (hc : c < 16) :
    ((u.result p r tag st ws 0 late).raise p c).rd p r.status = st ∧ ((u.result p r tag st ws 0 late).raise p c).rd p r.tag = tag % 256 ∧
    ((u.result p r tag st ws 0 late).raise p c).rd p r.valid = 1 ∧ bit (((u.result p r tag st ws 0 late).raise p c).rd p COMMON.INT_CAUSE_CAUSE) c = true ∧
    ∀ k, 1 ≤ k → k ≤ 15 → ((u.result p r tag st ws 0 late).raise p c).rd p (r.word k) = ws.getD (k - 1) 0 % 2 ^ 32 := by
  obtain ⟨hstatus, htag, hvalid⟩ := u.result_head p r tag ws 0 late hst
  obtain ⟨-, cstatus, ctag, cvalid, -⟩ := ResSet.calmAt_word (r := r) hr hp (k := 0) (by decide)
  refine ⟨?_, ?_, ?_, State.raise_sets _ ?_ hc, fun k h1 h15 => ?_⟩
  · rw [State.raise_rd _ _ _ cstatus, hstatus]
  · rw [State.raise_rd _ _ _ ctag, htag]
  · rw [State.raise_rd _ _ _ cvalid, hvalid]
  · rw [State.result_live _ _ _ _ _ _ _ _ _ ⟨hp.2.1, by omega⟩, hlive]
  · rw [State.raise_rd _ _ _ (ResSet.calmAt_word (r := r) hr hp h15).1, State.rd_result_word _ _ _ _ _ _ _ _ ⟨h1, h15⟩]
end

/-- An abort after the end of a command marks its result (R64). -/
theorem State.resLate_spec (s : State) (p : Nat) (r : ResSet) (hvalid : s.on p r.valid = true) (hdone : s.rd p r.status = 1) :
    (s.resLate p r).rd p r.late = 1 ∧ (s.resLate p r).rd p r.status = 1 := by
  rw [State.resLate, if_pos ⟨hvalid, hdone⟩]
  refine ⟨State.rd_wr_same .., ?_⟩
  rw [State.rd_wr_ne, hdone]
  simp only [ResSet.late, ResSet.status, Fld.key]
  omega

/-! ### Key wrap -/

/-- An error of a command of the IPS page (R652, R653). -/
theorem State.ipsError_spec (s : State) (tag : Nat) {e : Nat} (he : e < 2 ^ 32) (hlive : s.live pgIPS = true) :
    (s.ipsError IPS.KW_RES tag e).rd pgIPS IPS.KW_RES.status = 4 ∧ (s.ipsError IPS.KW_RES tag e).rd pgIPS (IPS.KW_RES.word 1) = e ∧
    bit ((s.ipsError IPS.KW_RES tag e).rd pgIPS COMMON.INT_CAUSE_CAUSE) 4 = true ∧
    (s.ipsError IPS.KW_RES tag e).rd pgIPS IPS.KW_RES.tag = tag % 256 ∧ (s.ipsError IPS.KW_RES tag e).rd pgIPS IPS.KW_RES.valid = 1 ∧
    (s.ipsError IPS.KW_RES tag e).toBandState = s.toBandState ∧ (s.ipsError IPS.KW_RES tag e).toPipeState = s.toPipeState ∧
    (s.ipsError IPS.KW_RES tag e).toLineState = s.toLineState ∧ (s.ipsError IPS.KW_RES tag e).toQdState = s.toQdState ∧
    (s.ipsError IPS.KW_RES tag e).nt = s.nt := by
  obtain ⟨hstatus, htag, hvalid, hcause, hword⟩ := s.resultRaised_spec (r := IPS.KW_RES) tag (st := ERROR) [e] false 4 (by decide) (by decide)
    (by decide) hlive (by decide)
  exact ⟨hstatus, (hword 1 (by decide) (by decide)).trans (Nat.mod_eq_of_lt he), hcause, htag, hvalid, by simp [State.ipsError]⟩

/-- A staged key: the words that a list has of the first eight. -/
def State.keyPut (s : State) (p : Nat) (f : Fld) (ws : List Nat) : State :=
  (List.range 8).foldl (fun (t : State) j => if j < ws.length then t.wr p f (ws.getD j 0) j else t) s

theorem State.keyPut_only (s : State) (p : Nat) (f : Fld) (ws : List Nat) : OnlyRegs s (s.keyPut p f ws) := by
  refine OnlyRegs.foldl (f := fun (t : State) j => if j < ws.length then t.wr p f (ws.getD j 0) j else t) (fun u j => ?_) _ _
  split
  · exact (OnlyRegs.refl u).wr ..
  · exact .refl u
/-- A word of the key that the list has. -/
theorem State.keyPut_rd (s : State) (p : Nat) {f : Fld} {ws : List Nat} {j : Nat} (hj : j < 8) (hlen : j < ws.length)
    (hf : f.stride = 4) : (s.keyPut p f ws).rd p f j = ws.getD j 0 % 2 ^ f.w := by
  have hstep : ∀ n ≤ 8, ((List.range n).foldl (fun (t : State) k => if k < ws.length then t.wr p f (ws.getD k 0) k else t) s).rd p f j =
      if j < n then ws.getD j 0 % 2 ^ f.w else s.rd p f j := by
    intro n hn
    induction n with
    | zero => rfl
    | succ n ih =>
      rw [List.range_succ, List.foldl_append, List.foldl_cons, List.foldl_nil]
      by_cases hjn : j = n
      · subst hjn
        rw [if_pos hlen, State.rd_wr_same, if_pos (Nat.lt_succ_self j)]
      · have hkeep : ∀ u : State, (if n < ws.length then u.wr p f (ws.getD n 0) n else u).rd p f j = u.rd p f j := fun u => by
          split
          · exact State.rd_wr_ne _ _ (by simp only [Fld.key, hf]; omega)
          · rfl
        rw [hkeep, ih (by omega)]
        have hiff : j < n ↔ j < n + 1 := by omega
        simp only [hiff]
  exact (hstep 8 (Nat.le_refl 8)).trans (if_pos hj)

section
variable {s : State} (hf : s.fabric = false) (hlive : s.live pgIPS = true) {kek : Nat} {k : List Byte} (hk : s.kek (kek % 16) = some k)
  (target msc tag : Nat) {len32 : Bool}
include hf hlive hk

/-- UNWRAP of a key whose check fails (R635). -/
theorem execKwUnwrap_bad (h : Config.keyUnwrap k (s.kwIn 0 (keyWords len32 + 2)) = none) :
    execKwUnwrap kek target msc tag len32 s = .next (s.ipsError IPS.KW_RES tag 2) := by
  rw [execKwUnwrap, State.lineGate_of_live hf hlive]
  simp only [State.kwUnwrap, hk, h]
/-- UNWRAP of a good key, by its target (R635). -/
theorem execKwUnwrap_good {key : List Byte} (h : Config.keyUnwrap k (s.kwIn 0 (keyWords len32 + 2)) = some key) :
    execKwUnwrap kek target msc tag len32 s = .next (
      if target = 1 then (s.keyPut pgIPS IPS.SA_KEY_KEY (bytesToBeWords key)).result pgIPS IPS.KW_RES tag DONE
      else if target = 2 then (s.keyPut (pgMSC (msc % 16)) MSC.SA_KEY_KEY (bytesToBeWords key).reverse).result pgIPS IPS.KW_RES tag DONE
      else if target = 0 ∧ tgetD s.kekExport (kek % 16) 0 = 1 then s.result pgIPS IPS.KW_RES tag DONE (bytesToBeWords key)
      else s.ipsError IPS.KW_RES tag 3) := by
  rw [execKwUnwrap, State.lineGate_of_live hf hlive]
  simp only [State.kwUnwrap, hk, h, State.keyPut]
end

/-- What a result DONE of KW leaves where only registers changed before it. -/
theorem State.kwDone_spec {s u : State} (h : OnlyRegs s u) (tag : Nat) (ws : List Nat) :
    (u.result pgIPS IPS.KW_RES tag DONE ws).rd pgIPS IPS.KW_RES.status = 1 ∧
    (u.result pgIPS IPS.KW_RES tag DONE ws).rd pgIPS IPS.KW_RES.tag = tag % 256 ∧
    (u.result pgIPS IPS.KW_RES tag DONE ws).rd pgIPS IPS.KW_RES.valid = 1 ∧
    (u.result pgIPS IPS.KW_RES tag DONE ws).toBandState = s.toBandState ∧ (u.result pgIPS IPS.KW_RES tag DONE ws).toPipeState = s.toPipeState ∧
    (u.result pgIPS IPS.KW_RES tag DONE ws).toLineState = s.toLineState ∧ (u.result pgIPS IPS.KW_RES tag DONE ws).toQdState = s.toQdState ∧
    (u.result pgIPS IPS.KW_RES tag DONE ws).nt = s.nt := by
  obtain ⟨hstatus, htag, hvalid⟩ := u.result_head pgIPS IPS.KW_RES tag (st := DONE) ws 0 false (by decide)
  obtain ⟨hband, hline, hpipe, hqd, -, -, hnt⟩ := (h.result pgIPS IPS.KW_RES tag DONE ws 0 false).frame
  exact ⟨hstatus, htag, hvalid, hband, hpipe, hline, hqd, hnt⟩

/-! ### NVMe/TCP -/

/-- The staged connection as WRITE stores it. -/
def State.nvStaged (s : State) : NvConn :=
  { words := (List.range 7).map fun k => andBits (s.nvStage k) (if k = 0 then 0x3FF else if k = 5 then 0xFFFFFFF0 else 0xFFFFFFFF)
    tx := { skip := s.nvStage 2 }, rx := { skip := s.nvStage 4 } }

/-- A command of NV_CMD that stores a connection ends DONE. -/
theorem State.nvStored_spec (s : State) (l : Tbl NvConn) (tag : Nat) :
    let t := ({ s with nvs := l } : State).result pgOFL OFL.NV_RES tag DONE
    t.nvs = l ∧ t.rd pgOFL OFL.NV_RES.status = 1 ∧ t.rd pgOFL OFL.NV_RES.tag = tag % 256 ∧ t.rd pgOFL OFL.NV_RES.valid = 1 ∧
      t.toBandState = s.toBandState ∧ t.toLineState = s.toLineState ∧ t.toPipeState = s.toPipeState ∧ t.toQdState = s.toQdState ∧
      t.toMgmtState = s.toMgmtState ∧ t.nt = s.nt := by
  obtain ⟨hstatus, htag, hvalid⟩ := ({ s with nvs := l } : State).result_head pgOFL OFL.NV_RES tag (st := DONE) [] 0 false (by decide)
  exact ⟨by simp, hstatus, htag, hvalid, by simp⟩

/-- Settles O45, clause by clause. -/
theorem keyWrapAndNvmeCommands : Obligations.KeyWrapAndNvmeCommands := by
  unfold Obligations.KeyWrapAndNvmeCommands
  refine ⟨?_, ?_, ?_, ?_, ?_, ?_, ?_, ?_, ?_, ?_, ?_, ?_, ?_, ?_, ?_⟩
  · intro s kek tag len32 k j hf hlive hk hj
    have hrun : execKwWrap kek tag len32 s = .next (s.result pgIPS IPS.KW_RES tag DONE
        (bytesToBeWords (Config.keyWrap k (s.kwIn 10 (keyWords len32))))) := by
      rw [execKwWrap, State.lineGate_of_live hf hlive]
      simp only [State.kwWrap, hk]
    generalize bytesToBeWords (Config.keyWrap k (s.kwIn 10 (keyWords len32))) = ws at *
    obtain ⟨hstatus, htag, hvalid⟩ := s.result_head pgIPS IPS.KW_RES tag (st := DONE) ws 0 false (by decide)
    obtain ⟨hband, hline, hpipe, hqd, hhost, hmgmt, hnt⟩ := ((OnlyRegs.refl s).result pgIPS IPS.KW_RES tag DONE ws 0 false).frame
    exact ⟨_, hrun, s.rd_result_word pgIPS IPS.KW_RES 0 tag DONE ws false ⟨by omega, by omega⟩, hstatus, htag, hvalid, hband, hline, hpipe, hqd,
      hmgmt, hnt, hhost⟩
  · intro s kek tag len32 hf hlive hk
    have hrun : execKwWrap kek tag len32 s = .next (s.ipsError IPS.KW_RES tag 4) := by
      rw [execKwWrap, State.lineGate_of_live hf hlive]
      simp only [State.kwWrap, hk]
    obtain ⟨hstatus, hword, hcause, htag, hvalid, hband, hpipe, hline, hqd, hnt⟩ := s.ipsError_spec tag (e := 4) (by decide) hlive
    exact ⟨_, hrun, hword, hcause, hstatus, htag, hvalid, hband, hline, hpipe, hqd, hnt⟩
  · intro s kek msc tag j len32 k hf hlive hk hj
    cases hkey : Config.keyUnwrap k (s.kwIn 0 (keyWords len32 + 2)) with
    | none =>
      refine ⟨_, execKwUnwrap_bad hf hlive hk 1 msc tag hkey, ?_⟩
      obtain ⟨hstatus, hword, -, hrest⟩ := s.ipsError_spec tag (e := 2) (by decide) hlive
      exact ⟨⟨hstatus, hword⟩, hrest⟩
    | some key =>
      refine ⟨_, execKwUnwrap_good hf hlive hk 1 msc tag hkey, ?_⟩
      obtain ⟨hstatus, hrest⟩ := State.kwDone_spec (s.keyPut_only pgIPS IPS.SA_KEY_KEY (bytesToBeWords key)) tag []
      refine ⟨⟨hstatus, fun hlen => ?_⟩, hrest⟩
      exact (State.rd_result_ne _ _ _ _ _ (by apply of_forall_lt j hj; decide)).trans (s.keyPut_rd pgIPS hj hlen rfl)
  · intro s kek msc tag j len32 k hf hlive hk hj
    cases hkey : Config.keyUnwrap k (s.kwIn 0 (keyWords len32 + 2)) with
    | none =>
      refine ⟨_, execKwUnwrap_bad hf hlive hk 2 msc tag hkey, ?_⟩
      obtain ⟨hstatus, hword, -, hrest⟩ := s.ipsError_spec tag (e := 2) (by decide) hlive
      exact ⟨⟨hstatus, hword⟩, hrest⟩
    | some key =>
      refine ⟨_, execKwUnwrap_good hf hlive hk 2 msc tag hkey, ?_⟩
      obtain ⟨hstatus, hrest⟩ := State.kwDone_spec (s.keyPut_only (pgMSC (msc % 16)) MSC.SA_KEY_KEY (bytesToBeWords key).reverse) tag []
      refine ⟨⟨hstatus, fun hlen => ?_⟩, hrest⟩
      have hmsc : msc % 16 < 16 := Nat.mod_lt _ (by decide)
      refine (State.rd_result_ne _ _ _ _ _ ?_).trans (s.keyPut_rd (pgMSC (msc % 16)) hj (by rwa [List.length_reverse]) rfl)
      generalize msc % 16 = m at hmsc ⊢
      simp only [Fld.key, MSC.SA_KEY_KEY, IPS.KW_RES, pgMSC, pgIPS]
      omega
  · intro s kek msc tag j len32 k hf hlive hk hj hexp
    cases hkey : Config.keyUnwrap k (s.kwIn 0 (keyWords len32 + 2)) with
    | none =>
      refine ⟨_, execKwUnwrap_bad hf hlive hk 0 msc tag hkey, ?_⟩
      obtain ⟨hstatus, hword, -, hrest⟩ := s.ipsError_spec tag (e := 2) (by decide) hlive
      exact ⟨⟨hstatus, hword⟩, hrest⟩
    | some key =>
      refine ⟨_, execKwUnwrap_good hf hlive hk 0 msc tag hkey, ?_⟩
      obtain ⟨hstatus, hrest⟩ := State.kwDone_spec (.refl s) tag (bytesToBeWords key)
      simp only [hexp, and_self, if_true]
      exact ⟨⟨hstatus, s.rd_result_word pgIPS IPS.KW_RES 0 tag DONE _ false ⟨by omega, by omega⟩⟩, hrest⟩
  · intro s kek msc tag len32 k hf hlive hk hexp
    cases hkey : Config.keyUnwrap k (s.kwIn 0 (keyWords len32 + 2)) with
    | none =>
      refine ⟨_, execKwUnwrap_bad hf hlive hk 0 msc tag hkey, ?_⟩
      obtain ⟨hstatus, hword, -, hrest⟩ := s.ipsError_spec tag (e := 2) (by decide) hlive
      exact ⟨⟨hstatus, hword⟩, hrest⟩
    | some key =>
      refine ⟨_, execKwUnwrap_good hf hlive hk 0 msc tag hkey, ?_⟩
      obtain ⟨hstatus, hword, -, hrest⟩ := s.ipsError_spec tag (e := 3) (by decide) hlive
      simp only [hexp, and_false, if_false]
      exact ⟨⟨hstatus, hword⟩, hrest⟩
  · intro s kek tag len32 k hf hlive hk
    have hrun : execKwCheck kek tag len32 s = .next (s.result pgIPS IPS.KW_RES tag DONE
        [b2n (decide (Config.keyUnwrap k (s.kwIn 0 (keyWords len32 + 2)) = some (s.kwIn 10 (keyWords len32))))]) := by
      rw [execKwCheck, State.lineGate_of_live hf hlive]
      simp only [State.kwCheck, hk]
    generalize decide (Config.keyUnwrap k (s.kwIn 0 (keyWords len32 + 2)) = some (s.kwIn 10 (keyWords len32))) = same at *
    obtain ⟨hstatus, htag, hvalid⟩ := s.result_head pgIPS IPS.KW_RES tag (st := DONE) [b2n same] 0 false (by decide)
    obtain ⟨hband, hline, hpipe, hqd, hhost, hmgmt, hnt⟩ := ((OnlyRegs.refl s).result pgIPS IPS.KW_RES tag DONE [b2n same] 0 false).frame
    refine ⟨_, hrun, ?_, fun j h1 h15 => ?_, hstatus, htag, hvalid, hband, hline, hpipe, hqd, hmgmt, hnt, hhost⟩
    · rw [State.rd_result_word _ _ _ _ _ _ _ _ (by decide)]
      cases same <;> rfl
    · rw [State.rd_result_word _ _ _ _ _ _ _ _ ⟨by omega, by omega⟩, Nat.add_sub_cancel, List.getD_eq_getElem?_getD,
        List.getElem?_eq_none (by simpa using h1), Option.getD_none, Nat.zero_mod]
  · intro s kek tag hf hlive hk
    have hrun : execKwLoadKek kek tag s = .next (({ s with
        keks := tset s.keks (kek % 16) ((List.range 8).map fun k => s.rd pgIPS IPS.KEK_DATA_KEY k) } : State).result pgIPS IPS.KW_RES tag DONE) := by
      rw [execKwLoadKek, State.lineGate_of_live hf hlive]
      simp only [State.kwLoadKek, hk, if_false]
    generalize tset s.keks (kek % 16) ((List.range 8).map fun k => s.rd pgIPS IPS.KEK_DATA_KEY k) = l at *
    obtain ⟨hstatus, htag, hvalid⟩ := ({ s with keks := l } : State).result_head pgIPS IPS.KW_RES tag (st := DONE) [] 0 false (by decide)
    exact ⟨_, hrun, by simp, hstatus, htag, hvalid, by simp⟩
  · intro s kek tag hf hlive hk
    have hrun : execKwLoadKek kek tag s = .next (s.ipsError IPS.KW_RES tag 3) := by
      rw [execKwLoadKek, State.lineGate_of_live hf hlive]
      simp only [State.kwLoadKek, hk, if_true]
    obtain ⟨hstatus, hword, -, htag, hvalid, hband, hpipe, hline, hqd, hnt⟩ := s.ipsError_spec tag (e := 3) (by decide) hlive
    exact ⟨_, hrun, by simp [State.ipsError], hword, hstatus, htag, hvalid, hband, hline, hpipe, hqd, hnt⟩
  · intro s hf hlive hvalid hdone
    have hrun : execKwAbort s = .next (s.resLate pgIPS IPS.KW_RES) := by
      rw [execKwAbort, State.lineGate_of_live hf hlive]
    obtain ⟨hlate, hstatus⟩ := s.resLate_spec pgIPS IPS.KW_RES hvalid hdone
    obtain ⟨hband, hline, hpipe, hqd, hhost, hmgmt, hnt⟩ := ((OnlyRegs.refl s).resLate pgIPS IPS.KW_RES 0).frame
    exact ⟨_, hrun, hlate, hstatus, hband, hline, hpipe, hqd, hmgmt, hnt, hhost⟩
  · intro s tag hf hlive hlo hhi
    have hgood : ¬ (bits (s.nvStage 0) 5 5 < 6 ∨ 16 < bits (s.nvStage 0) 5 5) := by omega
    have hrun : execNvWrite tag s = .next (({ s with nvs := tset s.nvs (s.rd pgOFL OFL.NV_SEL_CONN) s.nvStaged } : State).result pgOFL OFL.NV_RES tag DONE) := by
      rw [execNvWrite, State.lineGate_of_live hf hlive]
      simp only [State.nvWrite, hgood, if_false, State.nvStaged]
    exact ⟨_, hrun, s.nvStored_spec _ tag⟩
  · intro s tag hf hlive hbad
    have hrun : execNvWrite tag s = .next ((s.result pgOFL OFL.NV_RES tag ERROR).raise pgOFL 4) := by
      rw [execNvWrite, State.lineGate_of_live hf hlive]
      simp only [State.nvWrite, hbad, if_true]
    obtain ⟨hstatus, htag, hvalid, hcause, -⟩ := s.resultRaised_spec (r := OFL.NV_RES) tag (st := ERROR) [] false 4 (by decide) (by decide)
      (by decide) hlive (by decide)
    exact ⟨_, hrun, by simp, hcause, hstatus, htag, hvalid, by simp⟩
  · intro s tag j x hf hlive hx hj
    have hrun : execNvRead tag s = .next (s.result pgOFL OFL.NV_RES tag DONE x.words) := by
      rw [execNvRead, State.lineGate_of_live hf hlive]
      simp only [hx]
    obtain ⟨hstatus, htag, hvalid⟩ := s.result_head pgOFL OFL.NV_RES tag (st := DONE) x.words 0 false (by decide)
    obtain ⟨hband, hline, hpipe, hqd, hhost, hmgmt, hnt⟩ := ((OnlyRegs.refl s).result pgOFL OFL.NV_RES tag DONE x.words 0 false).frame
    exact ⟨_, hrun, s.rd_result_word pgOFL OFL.NV_RES 0 tag DONE _ false ⟨by omega, by omega⟩, hstatus, htag, hvalid, hband, hline, hpipe, hqd,
      hmgmt, hnt, hhost⟩
  · intro s tag x hf hlive hx
    have hrun : execNvResyncRx tag s = .next (({ s with
        nvs := tset s.nvs (s.rd pgOFL OFL.NV_SEL_CONN) { x with words := lset (lset (lset x.words 3 (s.nvStage 3)) 4 (s.nvStage 4)) 0 (setBit (x.words.getD 0 0) 4), rx := { skip := s.nvStage 4 } } } : State).result pgOFL OFL.NV_RES tag DONE) := by
      rw [execNvResyncRx, State.lineGate_of_live hf hlive]
      simp only [State.nvResync, tgetD, hx, Option.getD_some, Bool.false_eq_true, if_false]
    exact ⟨_, hrun, s.nvStored_spec _ tag⟩
  · intro s tag x hf hlive hx
    have hrun : execNvResyncTx tag s = .next (({ s with
        nvs := tset s.nvs (s.rd pgOFL OFL.NV_SEL_CONN) { x with words := lset (lset (lset x.words 1 (s.nvStage 1)) 2 (s.nvStage 2)) 0 (setBit (x.words.getD 0 0) 3), tx := { skip := s.nvStage 2 } } } : State).result pgOFL OFL.NV_RES tag DONE) := by
      rw [execNvResyncTx, State.lineGate_of_live hf hlive]
      simp only [State.nvResync, tgetD, hx, Option.getD_some, if_true]
    exact ⟨_, hrun, s.nvStored_spec _ tag⟩

end Sys2Proof.Machine

/-! PROOFS. Power-on reset, straps, start-up, warm reset and the release of the endpoint. -/

namespace Sys2Proof.Machine
set_option Elab.async false

/-! ### A power-on reset -/

/-- A table cut down to keys of another sort holds none of this one. -/
theorem tget_filter_none (t : Tbl Nat) (f : Nat × Nat → Bool) {k : Nat} (h : ∀ v, f (k, v) = false) : tget (t.filter f) k = none := by
  induction t with
  | nil => rfl
  | cons e t ih =>
    rw [List.filter_cons]
    split
    · rename_i he
      rw [tget, if_neg, ih]
      rintro rfl
      exact absurd he (by rw [h e.2]; decide)
    · exact ih

/-- What a power-on reset keeps and clears (R828). -/
theorem State.powerOnReset_kept (s : State) : s.powerOnReset.pwrgood = false ∧ s.powerOnReset.flash = s.flash ∧ s.powerOnReset.bonMeters = s.bonMeters ∧
      s.powerOnReset.hbm = [] := ⟨rfl, rfl, rfl, rfl⟩

/-- Start-up begins at step 0. -/
theorem State.powerOnReset_step (s : State) : s.powerOnReset.rd pgRST RST.START_STS_STEP = 0 := by
  have hnone := tget_filter_none s.regs (fun e => inPage pgBON e.1) (k := RST.START_STS_STEP.key pgRST 0) (fun v => by
    rw [inPage]
    exact decide_eq_false (by simp only; decide))
  simp only [State.powerOnReset, State.wrAll]
  rw [State.rd_wr_ne _ _ (by decide), State.rd_wr_ne _ _ (by decide), State.rd_wr_ne _ _ (by decide), State.rd_wr_ne _ _ (by decide),
    State.rd_wr_ne _ _ (by decide), State.rd_wr_ne _ _ (by decide), State.rd_wr_ne _ _ (by decide), State.rd_wr_ne _ _ (by decide),
    State.rd_wr_ne _ _ (by decide)]
  simp only [State.rd, tgetD, hnone]
  rfl

/-! ### Straps -/

/-- A register of the CRWN page that no side effect changes. -/
theorem State.raiseIf_role (s : State) (b : Bool) (p c : Nat) : (s.raiseIf b p c).fabric = s.fabric ∧
    (s.raiseIf b p c).rd pgCRWN CRWN.DEV_MODE_DEVICE_NUM = s.rd pgCRWN CRWN.DEV_MODE_DEVICE_NUM := by
  refine ⟨?_, (Calm.raiseIf s b p c).rd (by decide)⟩
  rw [State.fabric, State.fabric, State.on, State.on, (Calm.raiseIf s b p c).rd (by decide)]

/-- The live levels of the straps (R823). -/
def State.strapped (s : State) (fabmode : Bool) (devid : Nat) : State :=
  s.wrAll pgRST 0 [(RST.STRAP_RAW_FABMODE, b2n fabmode), (RST.STRAP_RAW_DEVID, devid)]

section
variable (s : State) (fabmode : Bool) (devid : Nat)

theorem State.strapped_only : OnlyRegs s (s.strapped fabmode devid) := (OnlyRegs.refl s).wrAll ..
theorem State.strapped_raw : (s.strapped fabmode devid).rd pgRST RST.STRAP_RAW_FABMODE = b2n fabmode ∧
    (s.strapped fabmode devid).rd pgRST RST.STRAP_RAW_DEVID = devid % 2 ^ RST.STRAP_RAW_DEVID.w := by
  simp only [State.strapped, State.wrAll]
  rw [State.rd_wr_ne _ _ (by decide), State.rd_wr_same, State.rd_wr_same]
  exact ⟨b2n_mod _ _ (by decide), rfl⟩
theorem State.strapped_rd {q : Nat} {g : Fld} {j : Nat} (h1 : RST.STRAP_RAW_FABMODE.key pgRST 0 ≠ g.key q j)
    (h2 : RST.STRAP_RAW_DEVID.key pgRST 0 ≠ g.key q j) : (s.strapped fabmode devid).rd q g j = s.rd q g j := by
  simp only [State.strapped, State.wrAll]
  rw [State.rd_wr_ne _ _ h2, State.rd_wr_ne _ _ h1]
end

/-- The state after a rise of PWRGOOD (R822). -/
def State.sampled (s : State) (fabmode : Bool) (devid : Nat) : State :=
  (({ s with pwrgood := true, startFrom := s.ticks }.wr pgPWR PWR.RAIL_STS_IN_REG
    (127 + (if bit (s.rd pgPWR PWR.RAIL_STS_IN_REG) 7 then 128 else 0))).strapped fabmode devid).wrAll pgCRWN 0
    [(CRWN.DEV_MODE_FABRIC, b2n fabmode), (CRWN.DEV_MODE_DEVICE_NUM, devid)]

section
variable (s : State) (fabmode : Bool) (devid : Nat)

theorem State.sampled_only : ∃ r, s.sampled fabmode devid = { s with regs := r, pwrgood := true, startFrom := s.ticks } := by
  obtain ⟨r, h⟩ := (((OnlyRegs.refl ({ s with pwrgood := true, startFrom := s.ticks } : State)).wr pgPWR PWR.RAIL_STS_IN_REG
    (127 + (if bit (s.rd pgPWR PWR.RAIL_STS_IN_REG) 7 then 128 else 0)) 0).trans (State.strapped_only _ fabmode devid)).wrAll pgCRWN 0
    [(CRWN.DEV_MODE_FABRIC, b2n fabmode), (CRWN.DEV_MODE_DEVICE_NUM, devid)]
  exact ⟨r, by rw [State.sampled, h]⟩
/-- The straps give the role and the device number. -/
theorem State.sampled_role : (s.sampled fabmode devid).fabric = fabmode ∧
    (s.sampled fabmode devid).rd pgCRWN CRWN.DEV_MODE_DEVICE_NUM = devid % 4096 := by
  have hrd : (s.sampled fabmode devid).rd pgCRWN CRWN.DEV_MODE_FABRIC = b2n fabmode ∧
      (s.sampled fabmode devid).rd pgCRWN CRWN.DEV_MODE_DEVICE_NUM = devid % 4096 := by
    simp only [State.sampled, State.wrAll]
    rw [State.rd_wr_ne _ _ (by decide), State.rd_wr_same, State.rd_wr_same]
    exact ⟨b2n_mod _ _ (by decide), rfl⟩
  refine ⟨?_, hrd.2⟩
  rw [State.fabric, State.on, hrd.1]
  cases fabmode <;> rfl
end

/-! ### A warm reset -/

/-- A warm reset before its registers of the RST page are written (R828). -/
def State.warmCleared (s : State) : State :=
  let s1 := warmDoms.foldl (fun (st : State) (d : Nat) =>
    (if st.domOn d then st.domDrop d else st).wrAll pgPWR d [(PWR.DOM_STS_POWERED, 0), (PWR.DOM_STS_BUSY, 0),
      (PWR.DOM_STS_HELD_OFF, 0), (PWR.DOM_CTL_ON, PWR.DOM_CTL_ON.rstAt pgPWR d)]) s
  let s2 := { s1 with log := s.log, domTrans := [], domHeld := [], serdesWait := [], takeoverBy := none, takenOver := false
                      warming := true, startFrom := s.ticks }
  (s2.wr pgLOG LOG.LOG_STS_COUNT (s.rd pgLOG LOG.LOG_STS_COUNT)).wr pgPWR PWR.THERM_STS_TRIPPED 0

theorem State.warmReset_eq (s : State) : s.warmReset = (s.warmCleared.wrAll pgRST 0 [(RST.START_STS_STEP, 1), (RST.START_STS_DONE, 0),
    (RST.START_STS_EP_RELEASED, 0), (RST.START_STS_FAIL, 0), (RST.RST_CAUSE_POR, 0), (RST.RST_CAUSE_WARM, 1),
    (RST.RST_CAUSE_THERMAL, b2n (s.on pgPWR PWR.THERM_STS_TRIPPED))]).incSat pgRST RST.WARM_CNT_COUNT := by
  rw [State.warmReset, State.warmCleared]
theorem State.warmCleared_kept (s : State) : s.warmCleared.log = s.log ∧ s.warmCleared.warming = true := by
  rw [State.warmCleared]
  exact ⟨rfl, rfl⟩

/-- What a warm reset leaves (R828, R829). -/
theorem State.warmReset_spec (s : State) : s.warmReset.rd pgRST RST.START_STS_STEP = 1 ∧ s.warmReset.rd pgRST RST.START_STS_DONE = 0 ∧
    s.warmReset.rd pgRST RST.RST_CAUSE_WARM = 1 ∧ s.warmReset.log = s.log ∧ s.warmReset.warming = true := by
  obtain ⟨hlog, hwarm⟩ := s.warmCleared_kept
  rw [State.warmReset_eq]
  generalize s.warmCleared = u at *
  obtain ⟨r, h⟩ := ((OnlyRegs.refl u).wrAll pgRST 0 [(RST.START_STS_STEP, 1), (RST.START_STS_DONE, 0),
    (RST.START_STS_EP_RELEASED, 0), (RST.START_STS_FAIL, 0), (RST.RST_CAUSE_POR, 0), (RST.RST_CAUSE_WARM, 1),
    (RST.RST_CAUSE_THERMAL, b2n (s.on pgPWR PWR.THERM_STS_TRIPPED))]).incSat pgRST RST.WARM_CNT_COUNT 0
  refine ⟨?_, ?_, ?_, by rw [h, hlog], by rw [h, hwarm]⟩
  all_goals simp only [State.incSat, State.wrAll]; simp (disch := decide) only [State.rd_wr_ne, State.rd_wr_same]; rfl

/-! ### Start-up -/

section
variable {s : State} (hgood : s.pwrgood = true) (hdone : s.on pgRST RST.START_STS_DONE = false) (hfail : s.rd pgRST RST.START_STS_FAIL = 0)
include hgood hdone hfail

/-- Start-up goes on where power is good and nothing has ended it (R824). -/
theorem execStartupStep_eq {n : Nat} (hn : s.rd pgRST RST.START_STS_STEP = n) {u : State} (hu : s.startStep (n + 1) = some u) :
    execStartupStep s = .next (if n + 1 = 7 then (u.wr pgRST RST.START_STS_STEP (n + 1)).raise pgRST 0 else u.wr pgRST RST.START_STS_STEP (n + 1)) := by
  have hgo : ¬ (¬ s.pwrgood = true ∨ s.on pgRST RST.START_STS_DONE = true ∨ s.rd pgRST RST.START_STS_FAIL ≠ 0) := by
    simp [hgood, hdone, hfail]
  rw [execStartupStep, if_neg hgo]
  simp only [hn, hu]
/-- The PLLs that do not lock end start-up in step 1 (R827). -/
theorem execStartupFail_pll (hn : s.rd pgRST RST.START_STS_STEP = 1) : execStartupFail 2 s = .next (s.startFail 2) := by
  have hgo : ¬ (¬ s.pwrgood = true ∨ s.on pgRST RST.START_STS_DONE = true ∨ s.rd pgRST RST.START_STS_FAIL ≠ 0) := by
    simp [hgood, hdone, hfail]
  simp [execStartupFail, hn, hgood, hdone, hfail]
end

/-- The references as step 1 shows them. -/
theorem State.startStep_one (s : State) : s.startStep 1 = some (s.wrAll pgCLK 0 [(CLK.REF_STS_SYSCLK_OK, 1), (CLK.REF_STS_LREF_OK, 1),
    (CLK.REF_STS_FREF_OK, 1), (CLK.REF_STS_PCIE_OK, 1)]) := rfl
/-- The end of start-up before step 7 is shown. -/
def State.started (s : State) : State :=
  { s with warming := false }.wrAll pgRST 0 [(RST.START_STS_DONE, 1),
    (RST.START_MS_MS, if (s.ticks - s.startFrom) / ticksMs 1 < 65536 then (s.ticks - s.startFrom) / ticksMs 1 else 65535)]
theorem State.startStep_seven (s : State) : s.startStep 7 = some s.started := by
  simp only [State.startStep, State.started]
theorem State.started_only (s : State) : ∃ r, s.started = { s with regs := r, warming := false } := by
  obtain ⟨r, h⟩ := (OnlyRegs.refl ({ s with warming := false } : State)).wrAll pgRST 0 [(RST.START_STS_DONE, 1),
    (RST.START_MS_MS, if (s.ticks - s.startFrom) / ticksMs 1 < 65536 then (s.ticks - s.startFrom) / ticksMs 1 else 65535)]
  exact ⟨r, by rw [State.started, h]⟩
theorem State.started_done (s : State) : s.started.rd pgRST RST.START_STS_DONE = 1 := by
  simp only [State.started, State.wrAll]
  rw [State.rd_wr_ne _ _ (by decide), State.rd_wr_same]
  rfl

/-- Settles O20, clause by clause. -/
theorem resetsAndStartUp : Obligations.ResetsAndStartUp := by
  unfold Obligations.ResetsAndStartUp
  refine ⟨?_, ?_, ?_, ?_, ?_, ?_, ?_, ?_, ?_, ?_, ?_⟩
  · intro s fabmode devid hgood
    have hrun : execPowerOnReset fabmode devid s = .next (s.sampled fabmode devid) := by
      rw [execPowerOnReset, if_neg (by simp [hgood]), State.sampled, State.strapped]
    obtain ⟨hfab, hdev⟩ := s.sampled_role fabmode devid
    obtain ⟨r, h⟩ := s.sampled_only fabmode devid
    refine ⟨_, hrun, ?_⟩
    rw [hfab, hdev, h]
    exact ⟨rfl, rfl, rfl, rfl, rfl, rfl, rfl, rfl, rfl⟩
  · intro s hgood
    obtain ⟨hoff, hflash, hmeters, hhbm⟩ := s.powerOnReset_kept
    have hrun : execPwrgoodFall s = .next s.powerOnReset := by rw [execPwrgoodFall, if_pos hgood]
    exact ⟨_, hrun, hoff, s.powerOnReset_step, hflash, hmeters, hhbm⟩
  · intro s fabmode devid
    obtain ⟨hfab, hdev⟩ := s.strapped_raw fabmode devid
    obtain ⟨hband, hline, hpipe, hqd, -, -, hnt⟩ := (s.strapped_only fabmode devid).frame
    have hnum : (s.strapped fabmode devid).rd pgCRWN CRWN.DEV_MODE_DEVICE_NUM = s.rd pgCRWN CRWN.DEV_MODE_DEVICE_NUM :=
      s.strapped_rd _ _ (by decide) (by decide)
    have hrole : (s.strapped fabmode devid).fabric = s.fabric := by
      rw [State.fabric, State.on, s.strapped_rd _ _ (by decide) (by decide)]
      rfl
    have hrun : execStrapChange fabmode devid s = .next (if s.pwrgood then (s.strapped fabmode devid).raiseIf
        (decide (fabmode ≠ s.fabric ∨ devid % 4096 ≠ s.devNum)) pgRST 3 else s.strapped fabmode devid) := by
      simp only [execStrapChange, State.strapped]
    generalize s.strapped fabmode devid = u at *
    refine ⟨_, hrun, ?_⟩
    split
    · obtain ⟨hf, hd⟩ := u.raiseIf_role (decide (fabmode ≠ s.fabric ∨ devid % 4096 ≠ s.devNum)) pgRST 3
      refine ⟨?_, ?_, hf.trans hrole, hd.trans hnum, by simp [hband, hline, hpipe, hqd, hnt]⟩
      · rw [State.raiseIf_rd _ _ _ _ (by decide), hfab]
      · rw [State.raiseIf_rd _ _ _ _ (by decide), hdev]
    · exact ⟨hfab, hdev, hrole, hnum, hband, hline, hpipe, hqd, hnt⟩
  · intro s hgood hdone hfail hstep
    have hrun := execStartupStep_eq hgood hdone hfail hstep s.startStep_one
    obtain ⟨hband, hline, hpipe, hqd, hhost, -, hnt⟩ := (((OnlyRegs.refl s).wrAll pgCLK 0 [(CLK.REF_STS_SYSCLK_OK, 1), (CLK.REF_STS_LREF_OK, 1),
      (CLK.REF_STS_FREF_OK, 1), (CLK.REF_STS_PCIE_OK, 1)]).wr pgRST RST.START_STS_STEP 1 0).frame
    refine ⟨_, hrun, State.rd_wr_same .., ?_, ?_, hband, hline, hpipe, hqd, hhost, hnt⟩
    all_goals rw [if_neg (by decide)]; simp only [State.wrAll]; simp (disch := decide) only [State.rd_wr_ne, State.rd_wr_same]; rfl
  · intro s hgood hdone hfail hstep
    have hrun := execStartupStep_eq hgood hdone hfail hstep s.startStep_seven
    have hd := s.started_done
    obtain ⟨r, h⟩ := s.started_only
    have hkeep : s.started.warming = false ∧ s.started.toBandState = s.toBandState ∧ s.started.toLineState = s.toLineState ∧
        s.started.toPipeState = s.toPipeState ∧ s.started.toQdState = s.toQdState ∧ s.started.nt = s.nt := by
      rw [h]
      exact ⟨rfl, rfl, rfl, rfl, rfl, rfl⟩
    clear h
    generalize s.started = u at *
    obtain ⟨hwarm, hband, hline, hpipe, hqd, hnt⟩ := hkeep
    rw [if_pos rfl] at hrun
    refine ⟨_, hrun, ?_, ?_, ?_, ?_⟩
    · rw [State.raise_rd _ _ _ (by decide), State.rd_wr_same]
      rfl
    · rw [State.raise_rd _ _ _ (by decide), State.rd_wr_ne _ _ (by decide), hd]
    · rw [State.raise_warming]
      exact hwarm
    · simp [hband, hline, hpipe, hqd, hnt]
  · intro s hgood hdone hfail hstep
    refine ⟨_, execStartupFail_pll hgood hdone hfail hstep, ?_, ?_, ?_⟩
    · rw [State.startFail, State.raise_rd _ _ _ (by decide), State.rd_wr_same]
      rfl
    · rw [State.startFail, State.raise_rd _ _ _ (by decide), State.rd_wr_ne _ _ (by decide), hstep]
    · simp [State.startFail]
  · intro s key hok
    have hrun : execWarmReset key s = .next s.warmReset := by
      rw [execWarmReset, State.warmCmd, hok, if_neg Bool.false_ne_true]
    exact ⟨_, hrun, s.warmReset_spec⟩
  · intro s key hbad hlive
    have hrun : execWarmReset key s = .next (s.raise pgRST 1) := by
      rw [execWarmReset, State.warmCmd, if_pos hbad]
    exact ⟨_, hrun, State.raise_sets s hlive (by decide), s.raise_rd _ _ (by decide), by simp⟩
  · intro s hlow hgood
    have hgo : ¬ (s.perstHigh = true ∨ ¬ s.pwrgood = true) := by simp [hlow, hgood]
    exact ⟨_, congrArg Host.Outcome.next (if_neg hgo), rfl, rfl, rfl, rfl, rfl, rfl, rfl, rfl, rfl⟩
  · intro s hhigh hlive h1 h3 hstep hsince hrel
    have hrun : execEndpointRelease s = .next (({ s with
        subsys := s.rd pgPCE PCE.SUBSYS_SVID + 65536 * s.rd pgPCE PCE.SUBSYS_SSID } : State).wr pgRST RST.START_STS_EP_RELEASED 1) := by
      simp [execEndpointRelease, hhigh, hlive, h1, h3, hstep, hsince, hrel]
    exact ⟨_, hrun, State.rd_wr_same .., rfl, rfl, rfl, rfl, rfl, rfl⟩
  · intro s
    exact ⟨_, rfl, rfl, rfl, rfl, rfl, rfl, rfl, rfl, rfl, rfl⟩

end Sys2Proof.Machine

/-! PROOFS. Roles of the service processors: grants, heartbeats, switchover, holds and takeover. -/

namespace Sys2Proof.Machine
set_option Elab.async false

theorem State.active_lt {s : State} {k : Nat} (h : s.active = some k) : k < 2 ∧ s.role k = spActive := by
  unfold State.active at h
  split at h
  · next h0 =>
    obtain rfl := Option.some.inj h
    exact ⟨by decide, h0⟩
  · split at h
    · next h1 =>
      obtain rfl := Option.some.inj h
      exact ⟨by decide, h1⟩
    · cases h

theorem spOther_lt (k : Nat) : spOther k < 2 := by
  unfold spOther
  split <;> decide
theorem spOther_ne (k : Nat) : (spOther k = 0) ≠ (k = 0) := by
  unfold spOther
  split
  · next h => simp [h]
  · next h => simp [h]

/-! ### The grant -/

theorem State.spSignal_only (s : State) : ∃ o, s.spSignal = { s with out := o } := by
  unfold State.spSignal
  split
  · exact ⟨_, rfl⟩
  · exact ⟨s.out, rfl⟩

theorem State.rd_out (s : State) (o : List Out) (q : Nat) (g : Fld) (j : Nat) : ({ s with out := o } : State).rd q g j = s.rd q g j := rfl

section
variable (s : State) (k : Nat)

/-- The state of a grant before the line of the new active processor is raised. -/
def State.spGranted (s : State) (k : Nat) : State :=
  { (s.setRole k spActive).wr pgSPA SPA.IL_STS_NO_ACTIVE 0 with
    hbAt := s.ticks, takeoverBy := s.takeoverTime.map fun (n : Nat) => s.ticks + n, firstGrant := false, takenOver := false, noActiveAt := none }

theorem State.spGrant_signals : s.spGrant k = if (s.spGranted k).spAsks then (s.spGranted k).spSignal else s.spGranted k := by
  delta State.spGrant State.spGranted
  exact rfl
theorem State.signalled_only (u : State) : ∃ o, (if u.spAsks then u.spSignal else u) = { u with out := o } := by
  split
  · exact u.spSignal_only
  · exact ⟨u.out, rfl⟩
theorem State.spGrant_eq : ∃ o, s.spGrant k = { s.spGranted k with out := o } := by
  rw [State.spGrant_signals]
  exact State.signalled_only _
theorem State.spGrant_only : ∃ r o, s.spGrant k = { s with
    regs := r, out := o, hbAt := s.ticks, takeoverBy := s.takeoverTime.map fun (n : Nat) => s.ticks + n, firstGrant := false, takenOver := false
    noActiveAt := none } := by
  obtain ⟨o, h⟩ := s.spGrant_eq k
  obtain ⟨r, hr⟩ := (s.setRole_only k spActive).wr pgSPA SPA.IL_STS_NO_ACTIVE 0 0
  exact ⟨r, o, by rw [h, State.spGranted, hr]⟩
theorem State.spGrant_shows (q : Nat) (g : Fld) (j : Nat) :
    (s.spGrant k).rd q g j = ((s.setRole k spActive).wr pgSPA SPA.IL_STS_NO_ACTIVE 0).rd q g j := by
  obtain ⟨o, h⟩ := s.spGrant_eq k
  rw [h, State.rd_out]
  exact State.rd_parts ..
theorem State.spGrant_noActive : (s.spGrant k).rd pgSPA SPA.IL_STS_NO_ACTIVE = 0 := by
  rw [State.spGrant_shows, State.rd_wr_same]
  rfl
theorem State.role_spGrant : (s.spGrant k).role k = spActive := by
  unfold State.role
  rw [State.spGrant_shows, State.rd_wr_ne]
  · exact s.role_setRole k spActive
  · obtain h | h := ilRole_eq k <;> rw [h] <;> decide
theorem State.role_spGrant_other {j : Nat} (h : (k = 0) ≠ (j = 0)) : (s.spGrant k).role j = s.role j := by
  unfold State.role
  rw [State.spGrant_shows, State.rd_wr_ne]
  · exact s.role_setRole_other spActive h
  · obtain h | h := ilRole_eq j <;> rw [h] <;> decide
/-- A register outside those of the roles and of NO_ACTIVE reads the same. -/
theorem State.spGrant_rd {q : Nat} {g : Fld} {j : Nat} (hn : SPA.IL_STS_NO_ACTIVE.key pgSPA 0 ≠ g.key q j)
    (hr : (ilRole k).key pgSPA 0 ≠ g.key q j) (hs : SPA.SP_STS_ROLE.key (spPage k) 0 ≠ g.key q j)
    (hg : SPA.SP_STS_GRANT.key (spPage k) 0 ≠ g.key q j) (hh : (ilHealthy k).key pgSPA 0 ≠ g.key q j) :
    (s.spGrant k).rd q g j = s.rd q g j := by
  rw [State.spGrant_shows, State.rd_wr_ne _ _ hn, s.setRole_rd k spActive hr hs hg hh]
end

theorem State.spPass_eq (s : State) (k : Nat) : s.spPass k = (s.put pgSPA SPA.SW_LAST_TO_B (decide (k = 1))).spGrant k := rfl

/-! ### Revocation -/

/-- What a gap leaves alone. -/
def State.offOutputs (s : State) : BandState × PipeState × QdState × NetTime := (s.toBandState, s.toPipeState, s.toQdState, s.nt)

theorem State.offOutputs_eq {s t : State} (h : t.offOutputs = s.offOutputs) :
    t.toBandState = s.toBandState ∧ t.toPipeState = s.toPipeState ∧ t.toQdState = s.toQdState ∧ t.nt = s.nt := by
  simpa only [State.offOutputs, Prod.mk.injEq] using h
theorem State.offOutputs_calm {s t : State} (h : Calm s t) : t.offOutputs = s.offOutputs := by
  simp only [State.offOutputs, h.band, h.pipe, h.qd, h.nt]
theorem State.offOutputs_regs {s t : State} (h : OnlyRegs s t) : t.offOutputs = s.offOutputs := by
  obtain ⟨r, rfl⟩ := h
  rfl

section
variable (s : State) (k cause start : Nat)

/-- The state of a revocation once the gap has begun. -/
def State.spTaken (s : State) (k start : Nat) : State := ((s.setRole k spHeld).setSp k {}).gapStart start
/-- The state of a revocation before its cause and its log entry. -/
def State.spNoted (s : State) (k cause start : Nat) : State :=
  { ((s.spTaken k start).wrAll pgSPA 0 [(SPA.SW_LAST_CAUSE, cause), (SPA.SW_NT_NS_NS, s.nt.ns), (SPA.SW_NT_SEC_SEC, s.nt.sec % 2 ^ 32)]).incSat
      pgSPA SPA.SWITCH_CNT_COUNT with takeoverBy := none }

theorem State.spRevoke_eq : s.spRevoke k cause start =
    ((s.spNoted k cause start).raise pgSPA 0).logAppend (pageCode .spa) 0 0 0x1002 0 cause s.hbNs := rfl
theorem State.spRevoke_calm : Calm (s.spNoted k cause start) (s.spRevoke k cause start) := (Calm.raise ..).trans (Calm.logAppend ..)

theorem State.spTaken_offOutputs : (s.spTaken k start).offOutputs = s.offOutputs ∧ (s.spTaken k start).ticks = s.ticks := by
  obtain ⟨r, hr⟩ := s.setRole_only k spHeld
  obtain ⟨q, l, n, hq⟩ := ((s.setRole k spHeld).setSp k {}).gapStart_only start
  rw [State.spTaken, hq, hr]
  exact ⟨rfl, rfl⟩
theorem State.spNoted_regs : ∃ r, s.spNoted k cause start = { s.spTaken k start with regs := r, takeoverBy := none } := by
  obtain ⟨r, hr⟩ := ((OnlyRegs.refl (s.spTaken k start)).wrAll pgSPA 0
    [(SPA.SW_LAST_CAUSE, cause), (SPA.SW_NT_NS_NS, s.nt.ns), (SPA.SW_NT_SEC_SEC, s.nt.sec % 2 ^ 32)]).incSat pgSPA SPA.SWITCH_CNT_COUNT 0
  exact ⟨r, by rw [State.spNoted, hr]⟩
theorem State.spRevoke_offOutputs : (s.spRevoke k cause start).offOutputs = s.offOutputs ∧ (s.spRevoke k cause start).ticks = s.ticks := by
  obtain ⟨r, h⟩ := s.spNoted_regs k cause start
  obtain ⟨hoff, hticks⟩ := s.spTaken_offOutputs k start
  have hcalm := s.spRevoke_calm k cause start
  have hkept : ∀ u : State, ({ u with regs := r, takeoverBy := none } : State).offOutputs = u.offOutputs ∧
      ({ u with regs := r, takeoverBy := none } : State).ticks = u.ticks := fun _ => ⟨rfl, rfl⟩
  have hnoted : (s.spNoted k cause start).offOutputs = (s.spTaken k start).offOutputs := (congrArg State.offOutputs h).trans (hkept _).1
  have hnotedTicks : (s.spNoted k cause start).ticks = (s.spTaken k start).ticks := (congrArg (fun t : State => t.ticks) h).trans (hkept _).2
  exact ⟨(State.offOutputs_calm hcalm).trans (hnoted.trans hoff), hcalm.ticks.trans (hnotedTicks.trans hticks)⟩

theorem State.spTaken_live (p : Nat) : (s.spTaken k start).live p = s.live p := by
  have := dom_lt p
  refine (State.gapStart_live _ _ _).trans ?_
  unfold State.live State.domOn State.on
  have hk : (s.setRole k spHeld).rd pgPWR PWR.DOM_STS_POWERED (domainOf p) = s.rd pgPWR PWR.DOM_STS_POWERED (domainOf p) := by
    obtain h1 | h1 := ilRole_eq k <;> obtain h2 | h2 := ilHealthy_eq k <;> obtain h3 | h3 := spPage_eq k
    all_goals
      refine s.setRole_rd k spHeld ?_ ?_ ?_ ?_ <;>
        simp only [h1, h2, h3, Fld.key, SPA.IL_STS_ROLE_A, SPA.IL_STS_ROLE_B, SPA.SP_STS_ROLE, SPA.SP_STS_GRANT, SPA.IL_STS_HEALTHY_A,
          SPA.IL_STS_HEALTHY_B, PWR.DOM_STS_POWERED, pgSPA, pgPWR] <;> omega
  rw [State.setSp_rd, hk]
theorem State.spNoted_live (p : Nat) : (s.spNoted k cause start).live p = s.live p := by
  unfold State.spNoted State.incSat State.wrAll
  simp only [State.live_parts]
  rw [State.wr_live _ _ _ (by decide)]
  simp only [State.wrAll]
  rw [State.wr_live _ _ _ (by decide), State.wr_live _ _ _ (by decide), State.wr_live _ _ _ (by decide), State.spTaken_live]
theorem State.spRevoke_live (p : Nat) : (s.spRevoke k cause start).live p = s.live p :=
  (live_calm (s.spRevoke_calm k cause start) p).trans (s.spNoted_live ..)

/-- A register of the interlock's status word is as the gap's start leaves it. -/
theorem State.spRevoke_sts {g : Fld} (hg : g.off = 0x200) (hlo : g.lo < 32) :
    (s.spRevoke k cause start).rd pgSPA g = (s.spTaken k start).rd pgSPA g := by
  have hcalm : g.calmAt pgSPA 0 := by
    simp only [Fld.calmAt, hg, pgSPA]
    omega
  refine ((s.spRevoke_calm k cause start).rd (not_sideKey_of_calmAt hcalm)).trans ?_
  simp only [State.spNoted, State.incSat, State.wrAll, State.rd_parts]
  rw [State.rd_wr_ne, State.rd_wr_ne, State.rd_wr_ne, State.rd_wr_ne]
  all_goals
    simp only [Fld.key, hg, SPA.SW_LAST_CAUSE, SPA.SW_NT_NS_NS, SPA.SW_NT_SEC_SEC, SPA.SWITCH_CNT_COUNT, pgSPA]
    omega
theorem State.spRevoke_role : (s.spRevoke k cause start).role k = spHeld := by
  unfold State.role
  have hk : ∀ g : Fld, g = SPA.IL_STS_ROLE_A ∨ g = SPA.IL_STS_ROLE_B → g.off = 0x200 ∧ g.lo < 32 ∧ g.key pgSPA 0 < 25165824 ∧
      SPA.IL_STS_SWITCHING.key pgSPA 0 ≠ g.key pgSPA 0 ∧ SPA.IL_STS_OUT_HOLD.key pgSPA 0 ≠ g.key pgSPA 0 := by
    rintro g (rfl | rfl) <;> decide
  obtain ⟨hoff, hlo, hlt, hs, ho⟩ := hk _ (ilRole_eq k)
  rw [s.spRevoke_sts k cause start hoff hlo, State.spTaken, State.gapStart_rd _ _ hlt hs ho, State.setSp_rd]
  exact s.role_setRole k spHeld
theorem State.spRevoke_switching : (s.spRevoke k cause start).rd pgSPA SPA.IL_STS_SWITCHING = 1 :=
  (s.spRevoke_sts k cause start rfl (by decide)).trans (State.gapStart_switching ..)
theorem State.gapStart_hold : (s.gapStart start).rd pgSPA SPA.IL_STS_OUT_HOLD = 1 := by
  refine (CageUp.rd (CageUp.cagesHold _) (by decide)).trans ?_
  simp only [State.wrAll]
  rw [State.rd_wr_same]
  rfl
theorem State.spRevoke_hold : (s.spRevoke k cause start).rd pgSPA SPA.IL_STS_OUT_HOLD = 1 :=
  (s.spRevoke_sts k cause start rfl (by decide)).trans (State.gapStart_hold ..)
theorem State.spRevoke_last (hc : cause < 8) : (s.spRevoke k cause start).rd pgSPA SPA.SW_LAST_CAUSE = cause := by
  refine ((s.spRevoke_calm k cause start).rd (not_sideKey_of_calmAt (by decide))).trans ?_
  simp only [State.spNoted, State.incSat, State.wrAll, State.rd_parts]
  rw [State.rd_wr_ne _ _ (by decide), State.rd_wr_ne _ _ (by decide), State.rd_wr_ne _ _ (by decide), State.rd_wr_same]
  exact Nat.mod_eq_of_lt hc
theorem State.spRevoke_cause (hlive : s.live pgSPA = true) : bit ((s.spRevoke k cause start).rd pgSPA COMMON.INT_CAUSE_CAUSE) 0 = true := by
  rw [State.spRevoke_eq]
  exact State.cause_of_logAppend _ _ _ _ _ _ _ _ (by decide) (State.raise_sets _ ((s.spNoted_live ..).trans hlive) (by decide))
end

/-! ### The grant passes, or no processor holds it -/

section
variable (s : State) {k : Nat}

/-- A register of the SPA page that shows no role, no health, no target and no absence of a grant reads the same after a pass. -/
theorem State.spPass_rd {g : Fld} (h : g.key pgSPA 0 / 32 ≠ SPA.SP_STS_ROLE.key pgSPA 0 / 32 ∧ g.key pgSPA 0 / 2097152 = pgSPA)
    (hk : g.key pgSPA 0 ∉ [SPA.IL_STS_NO_ACTIVE.key pgSPA 0, SPA.IL_STS_ROLE_A.key pgSPA 0, SPA.IL_STS_ROLE_B.key pgSPA 0,
      SPA.IL_STS_HEALTHY_A.key pgSPA 0, SPA.IL_STS_HEALTHY_B.key pgSPA 0, SPA.SW_LAST_TO_B.key pgSPA 0]) :
    (s.spPass k).rd pgSPA g = s.rd pgSPA g := by
  simp only [List.mem_cons, List.not_mem_nil, or_false, not_or] at hk
  obtain ⟨hna, hra, hrb, hha, hhb, htb⟩ := hk
  obtain ⟨hword, hpage⟩ := h
  have hown : ∀ f : Fld, f.off = 0x100 → f.lo < 32 → f.key (spPage k) 0 ≠ g.key pgSPA 0 := by
    intro f hf hlo
    obtain hp | hp := spPage_eq k <;> rw [hp] <;> simp only [Fld.key, hf, SPA.SP_STS_ROLE, pgSPA] at hword hpage ⊢ <;> omega
  rw [State.spPass_eq, State.spGrant_rd _ _ (Ne.symm hna) _ (hown _ rfl (by decide)) (hown _ rfl (by decide)), State.put,
    State.rd_wr_ne _ _ (Ne.symm htb)]
  · obtain h | h := ilHealthy_eq k <;> rw [h]
    · exact Ne.symm hha
    · exact Ne.symm hhb
  · obtain h | h := ilRole_eq k <;> rw [h]
    · exact Ne.symm hra
    · exact Ne.symm hrb
theorem State.spPass_offOutputs : (s.spPass k).offOutputs = s.offOutputs := by
  obtain ⟨r, o, h⟩ := (s.put pgSPA SPA.SW_LAST_TO_B (decide (k = 1))).spGrant_only k
  rw [State.spPass_eq, h]
  rfl
theorem State.role_spPass : (s.spPass k).role k = spActive := State.role_spGrant ..
theorem State.role_spPass_other {j : Nat} (h : (k = 0) ≠ (j = 0)) : (s.spPass k).role j = s.role j := by
  rw [State.spPass_eq, State.role_spGrant_other _ _ h]
  unfold State.role State.put
  refine State.rd_wr_ne _ _ ?_
  obtain h | h := ilRole_eq j <;> rw [h] <;> decide

theorem State.heldCount_only : ∃ l, s.heldCount = { s with sps := l } := by
  have hstep : ∀ (t : State) (k : Nat), ∃ l,
      (if t.role k = spHeld ∧ (t.sp k).heldAt.isNone then t.setSp k { t.sp k with heldAt := some t.ticks } else t) = { t with sps := l } := by
    intro t k
    split
    · exact ⟨_, rfl⟩
    · exact ⟨t.sps, rfl⟩
  obtain ⟨l0, h0⟩ := hstep s 0
  obtain ⟨l1, h1⟩ := hstep { s with sps := l0 } 1
  refine ⟨l1, ?_⟩
  simp only [State.heldCount, List.foldl]
  rw [h0, h1]

/-- The state with no processor granted, before its causes. -/
def State.ungranted (s : State) : State := { s.wr pgSPA SPA.IL_STS_NO_ACTIVE 1 with noActiveAt := some s.ticks }

theorem State.noActive_eq : ∃ l, s.noActive = { (s.ungranted.raise pgSPA 1).raise pgCRWN 2 with sps := l } :=
  State.heldCount_only ((s.ungranted.raise pgSPA 1).raise pgCRWN 2)
theorem State.noActive_calm : Calm s.ungranted ((s.ungranted.raise pgSPA 1).raise pgCRWN 2) := (Calm.raise ..).trans (Calm.raise ..)
theorem State.ungranted_rd (q : Nat) (g : Fld) (j : Nat) : s.ungranted.rd q g j = (s.wr pgSPA SPA.IL_STS_NO_ACTIVE 1).rd q g j := by
  rw [State.ungranted, State.rd_parts]
theorem State.ungranted_live (p : Nat) : s.ungranted.live p = s.live p := by
  rw [State.ungranted, State.live_parts, State.wr_live _ _ _ (by decide)]
theorem State.noActive_shown (q : Nat) (g : Fld) (j : Nat) : s.noActive.rd q g j = ((s.ungranted.raise pgSPA 1).raise pgCRWN 2).rd q g j := by
  obtain ⟨l, he⟩ := s.noActive_eq
  rw [he, State.rd_parts]
theorem State.noActive_rd {q : Nat} {g : Fld} {j : Nat} (h : g.calmAt q j) (hne : SPA.IL_STS_NO_ACTIVE.key pgSPA 0 ≠ g.key q j) :
    s.noActive.rd q g j = s.rd q g j := by
  rw [State.noActive_shown, State.raise_rd _ _ _ h, State.raise_rd _ _ _ h, State.ungranted_rd, State.rd_wr_ne _ _ hne]
theorem State.noActive_shows : s.noActive.rd pgSPA SPA.IL_STS_NO_ACTIVE = 1 := by
  rw [State.noActive_shown, State.raise_rd _ _ _ (by decide), State.raise_rd _ _ _ (by decide), State.ungranted_rd, State.rd_wr_same]
  rfl
theorem State.noActive_at : s.noActive.noActiveAt = some s.ticks := by
  obtain ⟨l, he⟩ := s.noActive_eq
  have hmgmt := s.noActive_calm.mgmt
  have hat : s.ungranted.noActiveAt = some s.ticks := rfl
  generalize (s.ungranted.raise pgSPA 1).raise pgCRWN 2 = u at he hmgmt
  rw [he]
  exact (congrArg MgmtState.noActiveAt hmgmt).trans hat
theorem State.noActive_offOutputs : s.noActive.offOutputs = s.offOutputs := by
  obtain ⟨l, he⟩ := s.noActive_eq
  have hcalm := State.offOutputs_calm s.noActive_calm
  have hoff : s.ungranted.offOutputs = s.offOutputs := rfl
  generalize (s.ungranted.raise pgSPA 1).raise pgCRWN 2 = u at he hcalm
  rw [he]
  exact hcalm.trans hoff
theorem State.noActive_causes {c : Nat} (hc : c < 16) (h : bit (s.rd pgSPA COMMON.INT_CAUSE_CAUSE) c = true) :
    bit (s.noActive.rd pgSPA COMMON.INT_CAUSE_CAUSE) c = true := by
  rw [State.noActive_shown]
  refine State.cause_of_raise _ _ hc (State.cause_of_raise _ _ hc ?_)
  rw [State.ungranted_rd, State.rd_wr_ne _ _ (by decide)]
  exact h
theorem State.noActive_cause (hlive : s.live pgSPA = true) : bit (s.noActive.rd pgSPA COMMON.INT_CAUSE_CAUSE) 1 = true := by
  rw [State.noActive_shown]
  exact State.cause_of_raise _ _ (by decide) (State.raise_sets _ ((s.ungranted_live _).trans hlive) (by decide))
theorem State.role_noActive : s.noActive.role k = s.role k := by
  obtain h | h := ilRole_eq k <;> (unfold State.role; rw [h]; exact s.noActive_rd (by decide) (by decide))
end

end Sys2Proof.Machine

/-! PROOFS. The end of a takeover: what the held changes of the cages leave alone. -/

namespace Sys2Proof.Machine
set_option Elab.async false

/-! ### Changes of the cages -/

/-- The keys of the pages from CAGE up. -/
abbrev cageKey (k : Nat) : Prop := 25165824 ≤ k

/-- What a change of a cage never touches. The due time of a shadow copy may move with a cause. -/
def cageRest (s : State) : (BandState × PipeState × QdState × NetTime × Nat) × MgmtState :=
  ((s.toBandState, s.toPipeState, s.toQdState, s.nt, s.ticks), { s.toMgmtState with shadowDue := [] })

abbrev CageWork (s t : State) : Prop := Near cageKey cageRest s t

namespace CageWork
variable {s t : State}

theorem ofCalm (h : Calm s t) : CageWork s t :=
  Near.calm h (by
    have hmgmt : { t.toMgmtState with shadowDue := [] } = { s.toMgmtState with shadowDue := [] } := by rw [h.mgmt]
    simp only [cageRest, h.band, h.pipe, h.qd, h.nt, h.ticks, hmgmt])
theorem line (h : CageWork s t) (l : LineState) : CageWork s { t with toLineState := l } := ⟨h.regs, h.causes, h.part⟩
theorem wr (h : CageWork s t) {p : Nat} {f : Fld} {i : Nat} (v : Nat) (hp : 12 ≤ p ∧ 256 ≤ f.off ∧ f.off + f.stride * i < 65536 ∧ f.lo < 32) :
    CageWork s (t.wr p f v i) := by
  refine h.trans (Near.wr v ?_ ?_ rfl) <;> simp only [cageKey, Fld.key] <;> omega
theorem put (h : CageWork s t) {p : Nat} {f : Fld} {i : Nat} (b : Bool) (hp : 12 ≤ p ∧ 256 ≤ f.off ∧ f.off + f.stride * i < 65536 ∧ f.lo < 32) :
    CageWork s (t.put p f b i) := h.wr _ hp
theorem raise (h : CageWork s t) (p c : Nat) : CageWork s (t.raise p c) := h.trans (ofCalm (Calm.raise ..))
theorem setCage (h : CageWork s t) (c : Nat) (x : Cage) : CageWork s (t.setCage c x) := h.line _

theorem cageSquelch (s : State) (g : Nat) (b : Bool) : CageWork s (s.cageSquelch g b) := by
  have hp : 12 ≤ lnp g := by
    simp only [lnp, pgLNP]
    omega
  have hshow : CageWork s ((s.put (lnp g) LNP.LANE_STS_CAGE_SQ b (g % 16)).squelchView g) := by
    refine CageWork.wr (CageWork.put (.refl s) _ ?_) _ ?_ <;>
      simp only [LNP.LANE_STS_CAGE_SQ, LNP.LANE_STS_SQUELCHED] <;> omega
  simp only [State.cageSquelch]
  split
  · split
    · exact hshow.raise ..
    · exact hshow
  · exact .refl s
theorem cageSquelchAll (h : CageWork s t) {c : Nat} (b : Bool) (hc : c < 64) : CageWork s (t.cageSquelchAll c b) := by
  have hreq : CageWork s (t.put pgCAGE CAGE.CAGE_STS_SQUELCH_REQ b c) := by
    refine h.put _ ?_
    simp only [pgCAGE, CAGE.CAGE_STS_SQUELCH_REQ]
    omega
  exact hreq.trans (Near.foldl (fun u g => cageSquelch u g b) _ _)
theorem cageBit (h : CageWork s t) {lo hi : Fld} (c : Nat) (b : Bool)
    (hp : (256 ≤ lo.off ∧ lo.off + lo.stride * 0 < 65536 ∧ lo.lo < 32) ∧ 256 ≤ hi.off ∧ hi.off + hi.stride * 0 < 65536 ∧ hi.lo < 32) :
    CageWork s (t.cageBit lo hi c b) := by
  rw [State.cageBit]
  exact Near.ite (h.wr _ ⟨by decide, hp.1⟩) (h.wr _ ⟨by decide, hp.2⟩)
theorem cagePresent (h : CageWork s t) {c : Nat} (b : Bool) (hc : c < 64) : CageWork s (t.cagePresent c b) := by
  refine CageWork.cageBit (h.put _ ?_) _ _ (by decide)
  simp only [pgCAGE, CAGE.CAGE_STS_PRESENT]
  omega
theorem cageSts (h : CageWork s t) {f : Fld} (v : Nat) {c : Nat} (hc : c < 64) (hf : f.off = 0xA04 ∧ f.stride ≤ 64 ∧ f.lo < 32) :
    CageWork s (t.wr pgCAGE f v c) := by
  have hstride : f.stride * c ≤ 64 * 64 := Nat.mul_le_mul hf.2.1 (Nat.le_of_lt hc)
  refine h.wr _ ?_
  simp only [pgCAGE]
  omega
theorem cageEnter (h : CageWork s t) {c : Nat} (st : Nat) (hc : c < 64) : CageWork s (t.cageEnter c st) := by
  have hshown : CageWork s (((t.setCage c { t.cage c with since := t.ticks }).wr pgCAGE CAGE.CAGE_STS_STATE st c).cageSquelchAll c
      (decide (st ≠ cgReady))) :=
    ((h.setCage ..).cageSts _ hc (by decide)).cageSquelchAll _ hc
  simp only [State.cageEnter]
  exact Near.ite ((hshown.cageBit _ _ (by decide)).raise ..) hshown
theorem cageDebounce (h : CageWork s t) {c : Nat} (hc : c < 64) : CageWork s (t.cageDebounce c) :=
  (((h.setCage ..).cageSts _ hc (by decide)).cageSts _ hc (by decide)).cageEnter _ hc
theorem cageFault (h : CageWork s t) {c : Nat} (code : Nat) (hc : c < 64) : CageWork s (t.cageFault c code) :=
  ((h.setCage ..).cageSts _ hc (by decide)).cageEnter _ hc
theorem cageReady (h : CageWork s t) {c : Nat} (hc : c < 64) : CageWork s (t.cageReady c) := h.cageEnter _ hc
theorem mmView (h : CageWork s t) {m : Nat} (hm : m < 8) : CageWork s (t.mmView m) := by
  have hsts : ∀ (u : State) (f : Fld) (v : Nat), 256 ≤ f.off ∧ f.off + f.stride * m < 65536 ∧ f.lo < 32 → CageWork u (u.wr pgCAGE f v m) :=
    fun u f v hf => CageWork.wr (.refl u) v ⟨by decide, hf⟩
  have hbusy : ∀ (u : State) (v : Nat), CageWork u (u.wr pgCAGE CAGE.MM_STS_BUSY v m) := fun u v =>
    hsts u _ v (by simp only [CAGE.MM_STS_BUSY]; omega)
  have hsel : ∀ (u : State) (v : Nat), CageWork u (u.wr pgCAGE CAGE.MM_STS_SEL v m) := fun u v =>
    hsts u _ v (by simp only [CAGE.MM_STS_SEL]; omega)
  rw [State.mmView]
  split
  · exact (h.line _).trans (hbusy ..)
  · exact ((Near.ite h (h.line _)).trans (hbusy ..)).trans (hsel ..)
theorem bringUp (h : CageWork s t) {c : Nat} (step : Nat) (hc : c < 64) : CageWork s (t.bringUp c step) := by
  simp only [State.bringUp]
  exact Near.ite (((h.setCage ..).line _).mmView (by omega)) (h.setCage ..)
theorem bringUpStart (h : CageWork s t) {c : Nat} (hc : c < 64) : CageWork s (t.bringUpStart c) :=
  ((h.line _).mmView (by omega)).bringUp 1 hc
theorem cageInit (h : CageWork s t) {c : Nat} (hc : c < 64) : CageWork s (t.cageInit c) := by
  have henter : CageWork s ((t.setCage c { t.cage c with holding := false, lp := true }).cageEnter c cgInit) := (h.setCage ..).cageEnter _ hc
  simp only [State.cageInit]
  exact Near.ite (henter.bringUpStart hc) henter
theorem cageOff (h : CageWork s t) {c : Nat} (hc : c < 64) : CageWork s (t.cageOff c) := by
  have hgone : CageWork s ((t.setCage c { lastOut := (t.cage c).lastOut }).cagePresent c false) := (h.setCage ..).cagePresent _ hc
  simp only [State.cageOff]
  exact Near.ite hgone (hgone.cageEnter _ hc)

/-- An event of a cage, by its row of the state table (R162). -/
theorem cageApply (h : CageWork s t) {c : Nat} (e : CageEv) (hc : c < 64) : CageWork s (t.cageApply c e) := by
  simp only [State.cageApply]
  refine Near.ite h ?_
  cases e with
  | inserted => exact Near.ite (h.cageDebounce hc) h
  | absent =>
    exact Near.ite (((h.setCage ..).cagePresent _ hc).cageEnter _ hc) (Near.ite ((h.setCage ..).cageEnter _ hc) h)
  | debounced => exact Near.ite ((h.setCage ..).cagePresent _ hc) h
  | slot => exact Near.ite (((h.setCage ..).line _).cageEnter _ hc) h
  | powerGood => exact Near.ite (h.setCage ..) h
  | pgTimeout => exact Near.ite ((h.cageFault _ hc).raise ..) h
  | resetDone => exact Near.ite (h.cageInit hc) h
  | initTimeout => exact Near.ite ((h.cageFault _ hc).raise ..) h
  | activated => exact Near.ite (h.cageReady hc) h
  | noApp => exact Near.ite (h.cageFault _ hc) h
  | manualReady => exact Near.ite (h.cageReady hc) h
  | forceLp v => exact Near.ite (h.cageEnter _ hc) (Near.ite (h.cageInit hc) h)
  | overcurrent => exact Near.ite ((h.cageFault _ hc).raise ..) h
  | powerCycle => exact Near.ite ((h.setCage ..).cageSquelchAll _ hc) h
  | cycleEnd => exact Near.ite (h.cageDebounce hc) h
  | faultClr => exact Near.ite (h.cageDebounce hc) h
  | removed => exact Near.ite ((h.cagePresent _ hc).cageEnter _ hc) h
  | off => exact h.cageOff hc

theorem cageFlush (s : State) {c : Nat} (hc : c < 64) : CageWork s (s.cageFlush c) :=
  (CageWork.setCage (.refl s) c _).trans (Near.foldl (fun u e => CageWork.cageApply (.refl u) e hc) _ _)
theorem cagesFlush (s : State) : CageWork s s.cagesFlush := by
  rw [State.cagesFlush]
  exact Near.ite (.refl s) (Near.foldl_mem _ (fun u c hc => cageFlush u (List.mem_range.1 hc)) s)
theorem cagesRelease (s : State) : CageWork s s.cagesRelease := by
  have hhold : CageWork s (s.wr pgCAGE CAGE.CSB_STS_OUT_HOLD 0) := CageWork.wr (.refl s) 0 (by decide)
  refine (hhold.trans (cagesFlush _)).trans (Near.foldl_mem _ (fun u c hc => ?_) _)
  have hlt : c < 64 := List.mem_range.1 (List.mem_filter.1 hc).1
  exact Near.ite (CageWork.bringUpStart (.refl u) hlt) (.refl u)
end CageWork

end Sys2Proof.Machine

/-! PROOFS. Roles of the service processors: the obligation. -/

namespace Sys2Proof.Machine
set_option Elab.async false

/-! ### The takeover ends the gap -/

/-- What the release of the held outputs leaves alone. -/
def gapRest (s : State) : (BandState × PipeState × QdState × NetTime) × MgmtState :=
  ((s.toBandState, s.toPipeState, s.toQdState, s.nt), { s.toMgmtState with shadowDue := [], sps := [] })

theorem gapRest_of_cageRest {s t : State} (h : cageRest t = cageRest s) : gapRest t = gapRest s :=
  congrArg (fun x : (BandState × PipeState × QdState × NetTime × Nat) × MgmtState =>
    ((x.1.1, x.1.2.1, x.1.2.2.1, x.1.2.2.2.1), { x.2 with sps := [] })) h
theorem gapRest_calm {s t : State} (h : Calm s t) : gapRest t = gapRest s := gapRest_of_cageRest (CageWork.ofCalm h).part

section
variable (s : State) (k : Nat)

theorem State.gapUs_lt : s.gapUs < 2 ^ 16 := by
  unfold State.gapUs
  split
  · omega
  · decide

/-- The state of a takeover before the outputs run again. -/
def State.gapEnded (s : State) : State :=
  { (s.wrAll pgSPA 0 [(SPA.IL_STS_SWITCHING, 0), (SPA.IL_STS_OUT_HOLD, 0), (SPA.IL_STS_NO_ACTIVE, 0), (SPA.GAP_LAST_US, s.gapUs)]).peak
      pgSPA SPA.GAP_MAX_US s.gapUs with gapFrom := none, takeoverBy := none, noActiveAt := none, failsafe := false }

/-- The fans run at once where they were fail-safe. -/
def State.fansFreed (s : State) (was : Bool) : State := if was then s.fansPut else s
/-- The held changes of the cages are applied. -/
def State.cagesFreed (s : State) : State := if s.live pgCAGE then s.cagesRelease else s

theorem State.takeover_eq : s.takeover k = ((s.gapEnded.fansFreed s.failsafe).cagesFreed.heldCount).logAppend
    (pageCode (if k = 0 then .spa else .spb)) 0 (1 + k) 0x2001 0 s.gapUs (s.role (spOther k)) := by
  delta State.takeover State.cagesFreed State.fansFreed State.gapEnded
  exact rfl

theorem State.takeover_near : Near cageKey gapRest s.gapEnded (s.takeover k) := by
  have hfans : Near cageKey gapRest s.gapEnded (s.gapEnded.fansFreed s.failsafe) := by
    refine Near.ite (Near.foldl (fun u j => ?_) _ _) (.refl _)
    exact Near.calm (Calm.emit ..) (gapRest_calm (Calm.emit ..))
  have hcages : ∀ u : State, Near cageKey gapRest u u.cagesFreed := by
    intro u
    refine Near.ite ?_ (.refl u)
    obtain ⟨hregs, hcauses, hpart⟩ := CageWork.cagesRelease u
    exact ⟨hregs, hcauses, gapRest_of_cageRest hpart⟩
  have hheld : ∀ u : State, Near cageKey gapRest u u.heldCount := by
    intro u
    obtain ⟨l, h⟩ := u.heldCount_only
    rw [h]
    exact ⟨fun _ _ _ => rfl, fun _ _ _ hb => hb, rfl⟩
  rw [State.takeover_eq]
  exact ((hfans.trans (hcages _)).trans (hheld _)).trans (Near.calm (Calm.logAppend ..) (gapRest_calm (Calm.logAppend ..)))

theorem State.gapEnded_only : ∃ r, s.gapEnded = { s with
    regs := r, gapFrom := none, takeoverBy := none, noActiveAt := none, failsafe := false } := by
  obtain ⟨r, h⟩ := ((OnlyRegs.refl s).wrAll pgSPA 0
    [(SPA.IL_STS_SWITCHING, 0), (SPA.IL_STS_OUT_HOLD, 0), (SPA.IL_STS_NO_ACTIVE, 0), (SPA.GAP_LAST_US, s.gapUs)]).peak pgSPA SPA.GAP_MAX_US s.gapUs 0
  exact ⟨r, by rw [State.gapEnded, h]⟩
theorem State.gapEnded_rd {g : Fld} (h : SPA.GAP_MAX_US.key pgSPA 0 ≠ g.key pgSPA 0) : s.gapEnded.rd pgSPA g =
    (s.wrAll pgSPA 0 [(SPA.IL_STS_SWITCHING, 0), (SPA.IL_STS_OUT_HOLD, 0), (SPA.IL_STS_NO_ACTIVE, 0), (SPA.GAP_LAST_US, s.gapUs)]).rd pgSPA g := by
  rw [State.gapEnded, State.rd_parts]
  exact State.peak_rd_ne _ _ h

/-- What a takeover leaves: no gap, no deadline, no held output, the length of the gap recorded, and the rest of the state as it was. -/
theorem State.takeover_spec : (s.takeover k).gapFrom = none ∧ (s.takeover k).takeoverBy = none ∧ (s.takeover k).failsafe = false ∧
    (s.takeover k).rd pgSPA SPA.IL_STS_SWITCHING = 0 ∧ (s.takeover k).rd pgSPA SPA.IL_STS_OUT_HOLD = 0 ∧
    (s.takeover k).rd pgSPA SPA.IL_STS_NO_ACTIVE = 0 ∧ (s.takeover k).rd pgSPA SPA.GAP_LAST_US = s.gapUs ∧
    (s.takeover k).takenOver = s.takenOver ∧ (s.takeover k).fwHeld = s.fwHeld ∧ (s.takeover k).secHeld = s.secHeld ∧
    (s.takeover k).thermHeld = s.thermHeld ∧ (s.takeover k).offOutputs = s.offOutputs := by
  have hnear := s.takeover_near k
  obtain ⟨r, hr⟩ := s.gapEnded_only
  have hpart := hnear.part
  have hrd : ∀ g : Fld, g.calmAt pgSPA 0 → g.key pgSPA 0 < 25165824 → SPA.GAP_MAX_US.key pgSPA 0 ≠ g.key pgSPA 0 →
      (s.takeover k).rd pgSPA g = (s.wrAll pgSPA 0 [(SPA.IL_STS_SWITCHING, 0), (SPA.IL_STS_OUT_HOLD, 0), (SPA.IL_STS_NO_ACTIVE, 0),
        (SPA.GAP_LAST_US, s.gapUs)]).rd pgSPA g := fun g hcalm hlt hne =>
    (hnear.rd (not_sideKey_of_calmAt hcalm) (Nat.not_le.2 hlt)).trans (s.gapEnded_rd hne)
  generalize s.takeover k = t at hpart hrd
  rw [hr] at hpart
  obtain ⟨hoff, hmgmt⟩ := Prod.mk.inj hpart
  have hkept {α : Type} (π : MgmtState → α) := congrArg π hmgmt
  refine ⟨hkept MgmtState.gapFrom, hkept MgmtState.takeoverBy, hkept MgmtState.failsafe, ?_, ?_, ?_, ?_, hkept MgmtState.takenOver,
    hkept MgmtState.fwHeld, hkept MgmtState.secHeld, hkept MgmtState.thermHeld, hoff⟩
  · rw [hrd _ (by decide) (by decide) (by decide)]
    simp only [State.wrAll]
    rw [State.rd_wr_ne _ _ (by decide), State.rd_wr_ne _ _ (by decide), State.rd_wr_ne _ _ (by decide), State.rd_wr_same]
    rfl
  · rw [hrd _ (by decide) (by decide) (by decide)]
    simp only [State.wrAll]
    rw [State.rd_wr_ne _ _ (by decide), State.rd_wr_ne _ _ (by decide), State.rd_wr_same]
    rfl
  · rw [hrd _ (by decide) (by decide) (by decide)]
    simp only [State.wrAll]
    rw [State.rd_wr_ne _ _ (by decide), State.rd_wr_same]
    rfl
  · rw [hrd _ (by decide) (by decide) (by decide)]
    simp only [State.wrAll]
    rw [State.rd_wr_same]
    exact Nat.mod_eq_of_lt s.gapUs_lt

theorem State.tasksResume_none (hfw : s.fwHeld = none) (hsec : s.secHeld = none) (htherm : s.thermHeld = []) :
    s.tasksResume = { s with fwHeld := none, secHeld := none, thermHeld := [] } := by
  simp only [State.tasksResume, State.fwResume, State.secResume, hfw, hsec, htherm, List.foldl]
theorem State.tasksResume_quote {tag : Nat} (hfw : s.fwHeld = none) (hsec : s.secHeld = some (.quote tag)) (htherm : s.thermHeld = []) :
    s.tasksResume = { ({ s with fwHeld := none, secHeld := none } : State).secQuote tag with thermHeld := [] } := by
  simp only [State.tasksResume, State.fwResume, State.secResume, hfw, hsec, htherm, List.foldl]

theorem execSpTakeoverDone_eq {sp : Nat} (hsp : sp < 2) (hrole : s.role sp = spActive) (hgap : s.on pgSPA SPA.IL_STS_SWITCHING = true) :
    execSpTakeoverDone sp s = .next (({ s with takenOver := true } : State).takeover sp).tasksResume := by
  simp only [execSpTakeoverDone, hsp, hrole, hgap, and_self, if_true]

/-- A quote answers with its header and its result, and leaves the interlock, the commands that wait and the rest as they were. -/
theorem State.secQuote_spec (tag : Nat) : (s.secQuote tag).quote.take 4 = toBe 4 0x51544531 ∧ (s.secQuote tag).rd pgSEC SEC.SEC_RES.status = 1 ∧
    (s.secQuote tag).rd pgSEC SEC.SEC_RES.tag = tag % 256 ∧ (s.secQuote tag).rd pgSEC SEC.SEC_RES.valid = 1 ∧
    (∃ d, (s.secQuote tag).toMgmtState = { s.toMgmtState with quote := s.quoteHeader ++ Config.rsaSign 1 s.quoteHeader, shadowDue := d }) ∧
    (s.secQuote tag).offOutputs = s.offOutputs ∧
    ∀ g : Fld, g.calmAt pgSPA 0 → g.key pgSPA 0 / 2097152 = pgSPA → (s.secQuote tag).rd pgSPA g = s.rd pgSPA g := by
  have hraised : s.secQuote tag = ((({ s with quote := s.quoteHeader ++ Config.rsaSign 1 s.quoteHeader } : State).result pgSEC SEC.SEC_RES tag
      DONE).cnt pgSEC SEC.SEC_CNT 0).raise pgSEC 0 := rfl
  obtain ⟨hstatus, htag, hvalid, -, -⟩ := State.secResult_head { s with quote := s.quoteHeader ++ Config.rsaSign 1 s.quoteHeader } (tag := tag)
    (st := DONE) (n := 0) [] (by decide) (by decide)
  obtain ⟨r, hr⟩ := ((OnlyRegs.refl ({ s with quote := s.quoteHeader ++ Config.rsaSign 1 s.quoteHeader } : State)).result pgSEC SEC.SEC_RES tag DONE []
    0 false).bump pgSEC SEC.SEC_CNT 0 0 1
  have hcounted : ((({ s with quote := s.quoteHeader ++ Config.rsaSign 1 s.quoteHeader } : State).result pgSEC SEC.SEC_RES tag DONE).cnt
      pgSEC SEC.SEC_CNT 0).toMgmtState = { s.toMgmtState with quote := s.quoteHeader ++ Config.rsaSign 1 s.quoteHeader } := by
    rw [State.cnt, hr]
  have hkept : ((({ s with quote := s.quoteHeader ++ Config.rsaSign 1 s.quoteHeader } : State).result pgSEC SEC.SEC_RES tag DONE).cnt
      pgSEC SEC.SEC_CNT 0).offOutputs = s.offOutputs := by
    rw [State.cnt, hr]
    rfl
  have hrd : ∀ g : Fld, g.calmAt pgSPA 0 → g.key pgSPA 0 / 2097152 = pgSPA → ((({ s with quote := s.quoteHeader ++ Config.rsaSign 1 s.quoteHeader } :
      State).result pgSEC SEC.SEC_RES tag DONE).cnt pgSEC SEC.SEC_CNT 0).rd pgSPA g = s.rd pgSPA g := by
    intro g hg hpage
    rw [State.cnt_rd_ne, State.rd_result_ne, State.rd_parts]
    · simp only [Fld.key, SEC.SEC_RES, pgSEC, pgSPA] at hpage ⊢
      omega
    · exact hg
    · simp only [Fld.key, SEC.SEC_CNT, pgSEC, pgSPA] at hpage ⊢
      omega
  have hquote : (s.quoteHeader ++ Config.rsaSign 1 s.quoteHeader).take 4 = toBe 4 0x51544531 := by
    simp only [State.quoteHeader, List.append_assoc]
    rw [List.take_left' (length_toBe 4 0x51544531)]
  rw [hraised]
  generalize (({ s with quote := s.quoteHeader ++ Config.rsaSign 1 s.quoteHeader } : State).result pgSEC SEC.SEC_RES tag DONE).cnt
    pgSEC SEC.SEC_CNT 0 = v at *
  generalize s.quoteHeader ++ Config.rsaSign 1 s.quoteHeader = q at *
  have hcalm := Calm.raise v pgSEC 0
  have hmgmt := hcalm.mgmt
  rw [hcounted] at hmgmt
  have hquoted := (congrArg MgmtState.quote hmgmt).trans rfl
  refine ⟨?_, ?_, ?_, ?_, ⟨_, hmgmt⟩, (State.offOutputs_calm hcalm).trans hkept, fun g hg hpage => ?_⟩
  · rw [hquoted]
    exact hquote
  · rw [State.raise_rd _ _ _ (by decide), hstatus]
    rfl
  · rw [State.raise_rd _ _ _ (by decide), htag]
  · rw [State.raise_rd _ _ _ (by decide), hvalid]
  · rw [State.raise_rd _ _ _ hg, hrd g hg hpage]
end

end Sys2Proof.Machine

/-! PROOFS. Roles of the service processors: the obligation, clause by clause. -/

namespace Sys2Proof.Machine
set_option Elab.async false

section
variable (s : State) (k : Nat)

/-- An error of a processor's command: result, cause, and the rest as it was. -/
theorem State.spError_spec (tag : Nat) {err : Nat} (herr : err < 2 ^ 32) (hlive : s.live pgSPA = true) :
    (s.spError (tag % 256) err).rd pgSPA (SPA.SP_RES.word 1) = err ∧ (s.spError (tag % 256) err).sps = s.sps ∧
    bit ((s.spError (tag % 256) err).rd pgSPA COMMON.INT_CAUSE_CAUSE) 7 = true ∧ (s.spError (tag % 256) err).rd pgSPA SPA.SP_RES.status = 4 ∧
    (s.spError (tag % 256) err).rd pgSPA SPA.SP_RES.tag = tag % 256 ∧ (s.spError (tag % 256) err).rd pgSPA SPA.SP_RES.valid = 1 ∧
    (s.spError (tag % 256) err).toBandState = s.toBandState ∧ (s.spError (tag % 256) err).toPipeState = s.toPipeState ∧
    (s.spError (tag % 256) err).toQdState = s.toQdState ∧ (s.spError (tag % 256) err).nt = s.nt ∧
    (s.spError (tag % 256) err).toLineState = s.toLineState := by
  obtain ⟨hstatus, htag, hvalid, hcause, hword⟩ := s.resultRaised_spec (r := SPA.SP_RES) (tag % 256) [err] false 7 (by decide) (by decide)
    (st := ERROR) (by decide) hlive (by decide)
  refine ⟨(hword 1 (by decide) (by decide)).trans (Nat.mod_eq_of_lt herr), ?_, hcause, hstatus, htag.trans (Nat.mod_mod _ _), hvalid, ?_, ?_, ?_, ?_, ?_⟩ <;>
    simp [State.spError]

/-- The switchover of the active processor to a healthy standby: what the grant's pass shows. -/
theorem State.spSwitch_spec {cause : Nat} (hcause : cause < 8) (start : Nat) (hlive : s.live pgSPA = true) :
    ((s.spRevoke k cause start).spPass (spOther k)).role k = spHeld ∧ ((s.spRevoke k cause start).spPass (spOther k)).role (spOther k) = spActive ∧
    ((s.spRevoke k cause start).spPass (spOther k)).rd pgSPA SPA.SW_LAST_CAUSE = cause ∧
    bit (((s.spRevoke k cause start).spPass (spOther k)).rd pgSPA COMMON.INT_CAUSE_CAUSE) 0 = true ∧
    ((s.spRevoke k cause start).spPass (spOther k)).rd pgSPA SPA.IL_STS_SWITCHING = 1 ∧
    ((s.spRevoke k cause start).spPass (spOther k)).rd pgSPA SPA.IL_STS_OUT_HOLD = 1 ∧
    ((s.spRevoke k cause start).spPass (spOther k)).offOutputs = s.offOutputs := by
  refine ⟨?_, State.role_spPass _, ?_, ?_, ?_, ?_, ?_⟩
  · rw [State.role_spPass_other _ (spOther_ne k), State.spRevoke_role]
  · rw [State.spPass_rd _ (by decide) (by decide), State.spRevoke_last _ _ _ _ hcause]
  · rw [State.spPass_rd _ (by decide) (by decide)]
    exact s.spRevoke_cause k cause start hlive
  · rw [State.spPass_rd _ (by decide) (by decide), State.spRevoke_switching]
  · rw [State.spPass_rd _ (by decide) (by decide), State.spRevoke_hold]
  · rw [State.spPass_offOutputs, (s.spRevoke_offOutputs k cause start).1]

/-- The end of a grant with no processor to take it. -/
theorem State.ungranted_spec {u : State} (hrole : u.role k = spHeld) (hsw : u.rd pgSPA SPA.IL_STS_SWITCHING = 1)
    (hhold : u.rd pgSPA SPA.IL_STS_OUT_HOLD = 1) (hoff : u.offOutputs = s.offOutputs) (hticks : u.ticks = s.ticks) :
    u.noActive.role k = spHeld ∧ u.noActive.noActiveAt = some s.ticks ∧ u.noActive.rd pgSPA SPA.IL_STS_NO_ACTIVE = 1 ∧
    u.noActive.rd pgSPA SPA.IL_STS_SWITCHING = 1 ∧ u.noActive.rd pgSPA SPA.IL_STS_OUT_HOLD = 1 ∧ u.noActive.offOutputs = s.offOutputs :=
  ⟨u.role_noActive.trans hrole, by rw [State.noActive_at, hticks], u.noActive_shows, by rw [State.noActive_rd _ (by decide) (by decide), hsw],
    by rw [State.noActive_rd _ (by decide) (by decide), hhold], u.noActive_offOutputs.trans hoff⟩

/-- The same with the cause that no standby was healthy (R719). -/
theorem State.lost_spec {u : State} (hrole : u.role k = spHeld) (hsw : u.rd pgSPA SPA.IL_STS_SWITCHING = 1)
    (hhold : u.rd pgSPA SPA.IL_STS_OUT_HOLD = 1) (hcause : bit (u.rd pgSPA COMMON.INT_CAUSE_CAUSE) 0 = true) (hlive : u.live pgSPA = true)
    (hoff : u.offOutputs = s.offOutputs) (hticks : u.ticks = s.ticks) :
    (u.wr pgSPA SPA.SW_LAST_CAUSE 4).noActive.role k = spHeld ∧ (u.wr pgSPA SPA.SW_LAST_CAUSE 4).noActive.rd pgSPA SPA.SW_LAST_CAUSE = 4 ∧
    (u.wr pgSPA SPA.SW_LAST_CAUSE 4).noActive.noActiveAt = some s.ticks ∧
    (u.wr pgSPA SPA.SW_LAST_CAUSE 4).noActive.rd pgSPA SPA.IL_STS_NO_ACTIVE = 1 ∧
    bit ((u.wr pgSPA SPA.SW_LAST_CAUSE 4).noActive.rd pgSPA COMMON.INT_CAUSE_CAUSE) 0 = true ∧
    bit ((u.wr pgSPA SPA.SW_LAST_CAUSE 4).noActive.rd pgSPA COMMON.INT_CAUSE_CAUSE) 1 = true ∧
    (u.wr pgSPA SPA.SW_LAST_CAUSE 4).noActive.rd pgSPA SPA.IL_STS_SWITCHING = 1 ∧
    (u.wr pgSPA SPA.SW_LAST_CAUSE 4).noActive.rd pgSPA SPA.IL_STS_OUT_HOLD = 1 ∧
    (u.wr pgSPA SPA.SW_LAST_CAUSE 4).noActive.toBandState = s.toBandState ∧ (u.wr pgSPA SPA.SW_LAST_CAUSE 4).noActive.toPipeState = s.toPipeState ∧
    (u.wr pgSPA SPA.SW_LAST_CAUSE 4).noActive.toQdState = s.toQdState ∧ (u.wr pgSPA SPA.SW_LAST_CAUSE 4).noActive.nt = s.nt := by
  have hrole' : (u.wr pgSPA SPA.SW_LAST_CAUSE 4).role k = spHeld := by
    refine Eq.trans ?_ hrole
    obtain h | h := ilRole_eq k <;> (unfold State.role; rw [h]; exact State.rd_wr_ne _ _ (by decide))
  obtain ⟨hheld, hat, hna, hsw', hhold', hoff'⟩ := s.ungranted_spec k (u := u.wr pgSPA SPA.SW_LAST_CAUSE 4) hrole'
    ((State.rd_wr_ne _ _ (by decide)).trans hsw) ((State.rd_wr_ne _ _ (by decide)).trans hhold) hoff hticks
  refine ⟨hheld, ?_, hat, hna, State.noActive_causes _ (by decide) ?_, State.noActive_cause _ ((State.wr_live _ _ _ (by decide)).trans hlive), hsw',
    hhold', State.offOutputs_eq hoff'⟩
  · rw [State.noActive_rd _ (by decide) (by decide), State.rd_wr_same]
    rfl
  · rw [State.rd_wr_ne _ _ (by decide)]
    exact hcause

/-- The result of a command that was done. -/
theorem State.spDone_spec (tag : Nat) : (s.result pgSPA SPA.SP_RES (tag % 256) DONE).rd pgSPA SPA.SP_RES.status = 1 ∧
    (s.result pgSPA SPA.SP_RES (tag % 256) DONE).rd pgSPA SPA.SP_RES.tag = tag % 256 ∧
    (s.result pgSPA SPA.SP_RES (tag % 256) DONE).rd pgSPA SPA.SP_RES.valid = 1 ∧
    (∀ g : Fld, g.off < 0x240 → g.lo < 32 → (s.result pgSPA SPA.SP_RES (tag % 256) DONE).rd pgSPA g = s.rd pgSPA g) := by
  obtain ⟨hstatus, htag, hvalid⟩ := s.result_head pgSPA SPA.SP_RES (tag % 256) (st := DONE) [] 0 false (by decide)
  refine ⟨hstatus, htag.trans (Nat.mod_mod _ _), hvalid, fun g ho hl => ?_⟩
  rw [State.rd_result_ne]
  simp only [Fld.key, SPA.SP_RES, pgSPA]
  omega

/-- A processor that waits for its grant is restarted. -/
def State.spRestart (s u : State) (k : Nat) : State :=
  if s.spWaits k then (u.setRole k spHeld).setSp k { heldAt := some s.ticks, restarted := true } else u

theorem State.spRestart_only (u : State) : ∃ r l, s.spRestart u k = { u with regs := r, sps := l } := by
  rw [State.spRestart]
  split
  · obtain ⟨r, h⟩ := u.setRole_only k spHeld
    exact ⟨r, _, by rw [h]; rfl⟩
  · exact ⟨u.regs, u.sps, rfl⟩
theorem State.spRestart_same (u : State) (h : s.spWaits k = true) :
    (s.spRestart u k).role k = spHeld ∧ (s.spRestart u k).sp k = { heldAt := some s.ticks, restarted := true } := by
  rw [State.spRestart, if_pos h]
  exact ⟨u.role_setRole k spHeld, State.sp_setSp ..⟩
theorem State.spRestart_other (u : State) {j : Nat} (h : (k = 0) ≠ (j = 0)) :
    (s.spRestart u k).role j = u.role j ∧ (s.spRestart u k).sp j = u.sp j := by
  rw [State.spRestart]
  split
  · obtain ⟨r, hr⟩ := u.setRole_only k spHeld
    have hne : k ≠ j := fun e => h (by rw [e])
    refine ⟨u.role_setRole_other spHeld h, (State.sp_setSp_ne _ _ _ hne).trans ?_⟩
    rw [hr]
    rfl
  · exact ⟨rfl, rfl⟩
theorem State.restarted_spec {k : Nat} (hk : k = 0 ∨ k = 1) (h : s.spWaits k = true) :
    (s.spRestart (s.spRestart s 0) 1).role k = spHeld ∧ (s.spRestart (s.spRestart s 0) 1).sp k = { heldAt := some s.ticks, restarted := true } := by
  obtain rfl | rfl := hk
  · obtain ⟨hrole, hsp⟩ := s.spRestart_other 1 (s.spRestart s 0) (j := 0) (by decide)
    rw [hrole, hsp]
    exact s.spRestart_same 0 s h
  · exact s.spRestart_same 1 _ h

theorem execSpRestartStandby_eq (tag : Nat) (hlive : s.live pgSPA = true) {k : Nat} (hk : k = 0 ∨ k = 1) (h : s.spWaits k = true) :
    execSpRestartStandby tag s = .next ((s.spRestart (s.spRestart s 0) 1).result pgSPA SPA.SP_RES (tag % 256) DONE) := by
  have hor : s.spWaits 0 = true ∨ s.spWaits 1 = true := by
    obtain rfl | rfl := hk
    · exact .inl h
    · exact .inr h
  rw [execSpRestartStandby, State.gate_of_live hlive, State.restartStandby, if_pos hor]
  rfl

/-- A held processor whose time is over boots. -/
theorem State.heldRelease_eq {n : Nat} {restarted : Bool} (hk : k < 2) (hrole : s.role k = spHeld) (hheld : (s.sp k).heldAt = some n)
    (hre : (s.sp k).restarted = restarted) (hn : n + ticksMs 1 ≤ s.ticks) : s.heldRelease k restarted = s.spRelease k := by
  simp only [State.heldRelease, hheld, hk, hrole, hre, hn, and_self, if_true]
theorem State.spRelease_spec : (s.spRelease k).role k = spBoot ∧ (s.spRelease k).sp k = {} ∧ (s.spRelease k).toBandState = s.toBandState ∧
    (s.spRelease k).toPipeState = s.toPipeState ∧ (s.spRelease k).toQdState = s.toQdState ∧ (s.spRelease k).nt = s.nt ∧
    (s.spRelease k).toLineState = s.toLineState ∧ (s.spRelease k).toHostState = s.toHostState := by
  refine ⟨s.role_setRole k spBoot, State.sp_setSp .., ?_⟩
  obtain ⟨r, h⟩ := s.spRelease_only k
  rw [h]
  exact ⟨rfl, rfl, rfl, rfl, rfl, rfl⟩

theorem spCnt_calm {sp n : Nat} (hn : n < 6) : Fld.calmAt SPA.SP_CNT (spPage sp) n := by
  obtain h | h := spPage_eq sp <;> rw [h] <;> simp only [Fld.calmAt, SPA.SP_CNT] <;> omega
theorem State.spCount_spec {sp n : Nat} (hn : n < 6) :
    (s.cnt (spPage sp) SPA.SP_CNT n).rd (spPage sp) SPA.SP_CNT n = (s.rd (spPage sp) SPA.SP_CNT n + 1) % 2 ^ 64 :=
  State.bump_rd_same _ _ _ (spCnt_calm hn)
end

/-- Settles O50, clause by clause: grants, heartbeats, revocations, commands, releases and takeovers. -/
theorem serviceProcessorRoles : Obligations.ServiceProcessorRoles := by
  unfold Obligations.ServiceProcessorRoles
  refine ⟨?_, ?_, ?_, ?_, ?_, ?_, ?_, ?_, ?_, ?_, ?_, ?_, ?_, ?_, ?_, ?_, ?_⟩
  · intro s sp hsp hrole hbooted hactive
    have hrun : execSpGrantRequest sp s = .next (s.spGrant sp) := by
      simp only [execSpGrantRequest, hsp, hrole, hbooted, hactive, and_self, if_true]
    obtain ⟨r, o, h⟩ := s.spGrant_only sp
    refine ⟨_, hrun, s.role_spGrant sp, ?_, ?_, ?_, s.spGrant_noActive sp, ?_⟩
    · rw [h]
    · rw [h]
    · rw [h]
    · rw [h]
      refine ⟨?_, rfl, rfl, rfl, rfl, rfl, rfl⟩
      simp only [State.takeoverTime]
      split
      · rfl
      · split <;> rfl
  · intro s sp k hsp hrole hbooted hactive
    have hrun : execSpGrantRequest sp s = .next (s.setRole sp spSync) := by
      simp only [execSpGrantRequest, hsp, hrole, hbooted, hactive, and_self, if_true]
    obtain ⟨r, h⟩ := s.setRole_only sp spSync
    refine ⟨_, hrun, s.role_setRole sp spSync, ?_⟩
    rw [h]
    exact ⟨rfl, rfl, rfl, rfl, rfl, rfl, rfl, rfl⟩
  · intro s sp hsp hlive hrole
    have hrun : execSpHeartbeat sp s = .next { s.cnt (spPage sp) SPA.SP_CNT 0 with hbAt := s.ticks, hbNs := s.nt.ns, hbSeen := true } := by
      simp only [execSpHeartbeat, hsp, State.gate_of_live hlive, hrole, if_true]
    refine ⟨_, hrun, rfl, rfl, rfl, ?_, by simp, by simp, by simp, by simp, by simp, by simp⟩
    rw [State.rd_parts]
    exact s.spCount_spec (by decide)
  · intro s sp hsp hlive hrole
    have hrun : execSpHeartbeat sp s = .next (s.cnt (spPage sp) SPA.SP_CNT 5) := by
      simp only [execSpHeartbeat, hsp, State.gate_of_live hlive, hrole, if_true, if_false]
    exact ⟨_, hrun, s.spCount_spec (by decide), by simp⟩
  · intro s k hlive hactive hmissed hhealthy
    have hrun : execSpHeartbeatTimeout s = .next ((s.spRevoke k 1 s.hbAt).spPass (spOther k)) := by
      simp only [execSpHeartbeatTimeout, hactive, hmissed, hhealthy, if_true]
    obtain ⟨hheld, hgranted, hlast, hcause, hsw, hhold, hoff⟩ := s.spSwitch_spec k (cause := 1) (by decide) s.hbAt hlive
    exact ⟨_, hrun, hheld, hgranted, hlast, hcause, hsw, hhold, State.offOutputs_eq hoff⟩
  · intro s k hlive hactive hmissed hhealthy
    have hrun : execSpHeartbeatTimeout s = .next (((s.spRevoke k 1 s.hbAt).wr pgSPA SPA.SW_LAST_CAUSE 4).noActive) := by
      simp only [execSpHeartbeatTimeout, hactive, hmissed, hhealthy, if_true, Bool.false_eq_true, if_false]
    obtain ⟨hoffs, hticks⟩ := s.spRevoke_offOutputs k 1 s.hbAt
    exact ⟨_, hrun, s.lost_spec k (s.spRevoke_role k 1 s.hbAt) (s.spRevoke_switching k 1 s.hbAt) (s.spRevoke_hold k 1 s.hbAt)
      (s.spRevoke_cause k 1 s.hbAt hlive) ((s.spRevoke_live k 1 s.hbAt pgSPA).trans hlive) hoffs hticks⟩
  · intro s tag k hlive hgap hactive hhealthy
    have hrun : execSpSwitchover tag s = .next (((s.spRevoke k 2 s.ticks).spPass (spOther k)).result pgSPA SPA.SP_RES (tag % 256) DONE) := by
      simp only [execSpSwitchover, State.gate_of_live hlive, State.switchover, hgap, hactive, hhealthy, if_true, Bool.false_eq_true, if_false]
    obtain ⟨hheld, hgranted, hlast, hcause, hsw, hhold, hoff⟩ := s.spSwitch_spec k (cause := 2) (by decide) s.ticks hlive
    generalize (s.spRevoke k 2 s.ticks).spPass (spOther k) = u at *
    obtain ⟨hstatus, htag, hvalid, hrd⟩ := u.spDone_spec tag
    have hrole : ∀ j, (u.result pgSPA SPA.SP_RES (tag % 256) DONE).role j = u.role j := by
      intro j
      obtain h | h := ilRole_eq j <;> (unfold State.role; rw [h]; exact hrd _ (by decide) (by decide))
    exact ⟨_, hrun, (hrole _).trans hheld, (hrole _).trans hgranted, (hrd _ (by decide) (by decide)).trans hlast,
      (congrArg (bit · 0) (hrd _ (by decide) (by decide))).trans hcause, (hrd _ (by decide) (by decide)).trans hsw,
      (hrd _ (by decide) (by decide)).trans hhold, hstatus, htag, hvalid,
      State.offOutputs_eq ((State.offOutputs_regs ((OnlyRegs.refl u).result ..)).trans hoff)⟩
  · intro s tag hlive hgap
    have hrun : execSpSwitchover tag s = .next (s.spError (tag % 256) 1) := by
      simp only [execSpSwitchover, State.gate_of_live hlive, State.switchover, hgap, if_true]
    exact ⟨_, hrun, s.spError_spec tag (by decide) hlive⟩
  · intro s tag hlive hgap hnone
    have hrun : execSpSwitchover tag s = .next (s.spError (tag % 256) 2) := by
      simp only [execSpSwitchover, State.gate_of_live hlive, State.switchover, hgap, Bool.false_eq_true, if_false]
      cases hactive : s.active with
      | none => rfl
      | some k => simp only [hnone k hactive, Bool.false_eq_true, if_false]
    exact ⟨_, hrun, s.spError_spec tag (by decide) hlive⟩
  · intro s tag k hlive hk hwaits
    obtain ⟨hrole, hsp⟩ := s.restarted_spec hk hwaits
    obtain ⟨r0, l0, h0⟩ := s.spRestart_only 0 s
    obtain ⟨r1, l1, h1⟩ := s.spRestart_only 1 (s.spRestart s 0)
    have honly : s.spRestart (s.spRestart s 0) 1 = { s with regs := r1, sps := l1 } := by rw [h1, h0]
    have hrun := execSpRestartStandby_eq s tag hlive hk hwaits
    generalize s.spRestart (s.spRestart s 0) 1 = u at *
    obtain ⟨hstatus, htag, hvalid, hrd⟩ := u.spDone_spec tag
    refine ⟨_, hrun, ?_, ?_, hstatus, htag, hvalid, ?_⟩
    · refine Eq.trans ?_ hrole
      obtain h | h := ilRole_eq k <;> (unfold State.role; rw [h]; exact hrd _ (by decide) (by decide))
    · rw [State.sp_of_sps (s := u) (by simp), hsp]
    · simp [honly]
  · intro s tag hlive h0 h1
    have hrun : execSpRestartStandby tag s = .next (s.spError (tag % 256) 3) := by
      simp only [execSpRestartStandby, State.gate_of_live hlive, State.restartStandby, h0, h1, Bool.false_eq_true, or_self, if_false]
    exact ⟨_, hrun, s.spError_spec tag (by decide) hlive⟩
  · intro s sp n hsp hrole hheld hre hn
    exact ⟨_, congrArg Host.Outcome.next (s.heldRelease_eq sp hsp hrole hheld hre hn), s.spRelease_spec sp⟩
  · intro s sp n hsp hrole hheld hre hn
    exact ⟨_, congrArg Host.Outcome.next (s.heldRelease_eq sp hsp hrole hheld hre hn), s.spRelease_spec sp⟩
  · intro s sp hsp hrole hgap
    have hrun : execSpTakeoverDone sp s = .next { s with takenOver := true } := by
      simp only [execSpTakeoverDone, hsp, hrole, hgap, and_self, if_true, Bool.false_eq_true, if_false]
    exact ⟨_, hrun, rfl⟩
  · intro s sp hsp hrole hgap hfw hsec htherm
    obtain ⟨hfrom, hby, hsafe, hsw, hhold, hna, hlast, htaken, hfwt, hsect, hthermt, hoff⟩ :=
      ({ s with takenOver := true } : State).takeover_spec sp
    have hrun := execSpTakeoverDone_eq s hsp hrole hgap
    generalize ({ s with takenOver := true } : State).takeover sp = t at *
    rw [t.tasksResume_none (hfwt.trans hfw) (hsect.trans hsec) (hthermt.trans htherm)] at hrun
    exact ⟨_, hrun, htaken, hfrom, hby, hsafe, hsw, hhold, hna, hlast, State.offOutputs_eq hoff⟩
  · intro s sp tag hsp hrole hgap hfw hsec htherm
    obtain ⟨hfrom, hby, hsafe, hsw, hhold, hna, hlast, htaken, hfwt, hsect, hthermt, hoff⟩ :=
      ({ s with takenOver := true } : State).takeover_spec sp
    have hrun := execSpTakeoverDone_eq s hsp hrole hgap
    generalize ({ s with takenOver := true } : State).takeover sp = t at *
    rw [t.tasksResume_quote (hfwt.trans hfw) (hsect.trans hsec) (hthermt.trans htherm)] at hrun
    obtain ⟨hquote, hstatus, htag, hvalid, ⟨d, hmgmt⟩, hkept, hrd⟩ := ({ t with fwHeld := none, secHeld := none } : State).secQuote_spec tag
    generalize ({ t with fwHeld := none, secHeld := none } : State).secQuote tag = u at *
    have hkeep {α : Type} (π : MgmtState → α) := congrArg π hmgmt
    have hshown : ∀ {g : Fld} {v : Nat}, g.calmAt pgSPA 0 → g.key pgSPA 0 / 2097152 = pgSPA → t.rd pgSPA g = v → u.rd pgSPA g = v := by
      intro g v hg hpage hv
      rw [hrd g hg hpage, State.rd_parts, hv]
    refine ⟨_, hrun, (hkeep MgmtState.takenOver).trans htaken, (hkeep MgmtState.gapFrom).trans hfrom, (hkeep MgmtState.takeoverBy).trans hby,
      (hkeep MgmtState.failsafe).trans hsafe, ?_⟩
    simp only [State.rd_parts]
    exact ⟨hshown (by decide) (by decide) hsw, hshown (by decide) (by decide) hhold, hshown (by decide) (by decide) hna,
      hshown (by decide) (by decide) hlast, hkeep MgmtState.secHeld, hquote, hstatus, htag, hvalid, State.offOutputs_eq (hkept.trans hoff)⟩
  · intro s n k hlive hby hactive hn
    have hrun : execSpTakeoverTimeout s = .next (s.spRevoke k 3 s.ticks).noActive := by
      simp only [execSpTakeoverTimeout, hby, hactive, hn, if_true]
    obtain ⟨hoffs, hticks⟩ := s.spRevoke_offOutputs k 3 s.ticks
    obtain ⟨hheld, hat, hna, hsw, hhold, hoff⟩ := s.ungranted_spec k (s.spRevoke_role k 3 s.ticks) (s.spRevoke_switching k 3 s.ticks)
      (s.spRevoke_hold k 3 s.ticks) hoffs hticks
    refine ⟨_, hrun, hheld, ?_, hat, hna, hsw, hhold, State.offOutputs_eq hoff⟩
    rw [State.noActive_rd _ (by decide) (by decide), State.spRevoke_last _ _ _ _ (by decide)]

end Sys2Proof.Machine

/-! PROOFS. Virtual function commands: mailboxes, FREEZE and UNFREEZE, SAVE and RESTORE, the dirty-page log and ABORT. -/

namespace Sys2Proof.Machine
set_option Elab.async false

/-! ### The bits of a mailbox register -/

theorem bit_clrBit_self (v c : Nat) : bit (clrBit v c) c = false := by
  by_cases h : bit v c = true
  · have hsub : (v - 2 ^ c) / 2 ^ c = v / 2 ^ c - 1 := by
      have := Nat.sub_mul_div v (2 ^ c) 1
      rwa [Nat.mul_one] at this
    have hodd : v / 2 ^ c % 2 = 1 := of_decide_eq_true h
    rw [clrBit, if_pos h, bit, hsub, decide_eq_false_iff_not]
    omega
  · rw [clrBit, if_neg h]
    exact eq_false_of_ne_true h
theorem bit_putBit_self (v c : Nat) (b : Bool) : bit (putBit v c b) c = b := by
  cases b with
  | false => exact bit_clrBit_self v c
  | true => simp [putBit, bit_setBit]

/-! ### Commands and their results -/

theorem State.vf_setVf_ne (s : State) {n k : Nat} (x : VfState) (h : k ≠ n) : (s.setVf n x).vf k = s.vf k := tgetD_tset_ne _ _ _ (Ne.symm h)

section
variable {s : State} (hlive : s.live pgVFM = true) (hidle : s.vfmRun = none) (hn : s.cmdFn ≠ 0) (hthere : s.vfThere s.cmdFn = true)
  (hflr : (s.fnS (fnOf s.cmdFn)).flr = none)

include hlive hidle hn hthere hflr in
/-- A command about a VF that is there and not in reset runs, counted (R594, R868). -/
theorem State.vfCmd_runs (tag : Nat) (f : State → State) :
    (s.gate pgVFM fun (t : State) => t.vfmCmd tag t.cmdFn true f) = f (s.cnt pgVFM VFM.VFM_CNT 0) := by
  obtain ⟨r, h⟩ := (OnlyRegs.refl s).bump pgVFM VFM.VFM_CNT 0 0 1
  have hthere' : (s.cnt pgVFM VFM.VFM_CNT 0).vfThere s.cmdFn = true := by
    rw [State.cnt, h]
    exact hthere
  have hflr' : ((s.cnt pgVFM VFM.VFM_CNT 0).fnS (fnOf s.cmdFn)).flr = none := by
    rw [State.cnt, h]
    exact hflr
  rw [State.gate_of_live hlive]
  simp [State.vfmCmd, hidle, hthere', hflr', hn]

theorem State.cmdFn_cnt (s : State) (n : Nat) (hn : n < 5) : (s.cnt pgVFM VFM.VFM_CNT n).cmdFn = s.cmdFn := by
  refine State.cnt_rd_ne _ (by decide) ?_
  simp only [Fld.key, VFM.VFM_CNT, VFM.CMD_FN_FN]
  omega
end

section
variable {s u : State} (tag : Nat)

/-- A command that ends DONE: its result, and the rest of the device as it was. -/
theorem State.vfmDone_spec (ws : List Nat) (hcore : coreParts u = coreParts s) (hmgmt : u.toMgmtState = s.toMgmtState) :
    (u.vfmDone tag ws).rd pgVFM VFM.VFM_RES.status = 1 ∧ (u.vfmDone tag ws).rd pgVFM VFM.VFM_RES.tag = tag % 256 ∧
    (u.vfmDone tag ws).rd pgVFM VFM.VFM_RES.valid = 1 ∧ (u.vfmDone tag ws).toBandState = s.toBandState ∧
    (u.vfmDone tag ws).toLineState = s.toLineState ∧ (u.vfmDone tag ws).toPipeState = s.toPipeState ∧ (u.vfmDone tag ws).toQdState = s.toQdState ∧
    (u.vfmDone tag ws).toMgmtState = s.toMgmtState ∧ (u.vfmDone tag ws).nt = s.nt := by
  obtain ⟨hstatus, htag, hvalid⟩ := u.result_head pgVFM VFM.VFM_RES tag (st := DONE) ws 0 false (by decide)
  obtain ⟨hband, hline, hpipe, hqd, hnt⟩ := coreParts_eq hcore
  obtain ⟨hband', hline', hpipe', hqd', -, hmgmt', hnt'⟩ := ((OnlyRegs.refl u).result pgVFM VFM.VFM_RES tag DONE ws 0 false).frame
  exact ⟨hstatus, htag, hvalid, hband'.trans hband, hline'.trans hline, hpipe'.trans hpipe, hqd'.trans hqd, hmgmt'.trans hmgmt, hnt'.trans hnt⟩
@[simp] theorem State.vf_vfmDone (u : State) (ws : List Nat) (n : Nat) : (u.vfmDone tag ws).vf n = u.vf n := State.vf_result ..

/-- A command that ends ERROR: its result and its cause, and the rest as it was. -/
theorem State.vfmError_spec {e : Nat} (he : e < 2 ^ 32) (hlive : u.live pgVFM = true) (hcore : coreParts u = coreParts s) :
    (u.vfmError tag e).rd pgVFM (VFM.VFM_RES.word 1) = e ∧ (u.vfmError tag e).rd pgVFM VFM.VFM_RES.status = 4 ∧
    (u.vfmError tag e).rd pgVFM VFM.VFM_RES.tag = tag % 256 ∧ (u.vfmError tag e).rd pgVFM VFM.VFM_RES.valid = 1 ∧
    (u.vfmError tag e).toBandState = s.toBandState ∧ (u.vfmError tag e).toLineState = s.toLineState ∧
    (u.vfmError tag e).toPipeState = s.toPipeState ∧ (u.vfmError tag e).toQdState = s.toQdState ∧ (u.vfmError tag e).nt = s.nt := by
  obtain ⟨hstatus, htag, hvalid, -, hword⟩ := u.resultRaised_spec (r := VFM.VFM_RES) tag [e] false 1 (by decide) (by decide) (st := ERROR) (by decide)
    hlive (by decide)
  obtain ⟨hband, hline, hpipe, hqd, hnt⟩ := coreParts_eq hcore
  refine ⟨(hword 1 (by decide) (by decide)).trans (Nat.mod_eq_of_lt he), hstatus, htag, hvalid, ?_⟩
  simp [State.vfmError, hband, hline, hpipe, hqd, hnt]
end

section
variable (s : State) (n : Nat) (v : VfState)

/-- The counted start of a command. -/
theorem State.vfmSeen_core : coreParts (s.cnt pgVFM VFM.VFM_CNT 0) = coreParts s := by simp [coreParts]

/-- A command that stores the state of its VF and ends DONE. -/
theorem State.vfStored_spec (tag : Nat) :
    (((s.cnt pgVFM VFM.VFM_CNT 0).setVf n v).vfmDone tag).vf n = v ∧
    (∀ k, k ≠ n → (((s.cnt pgVFM VFM.VFM_CNT 0).setVf n v).vfmDone tag).vf k = s.vf k) ∧
    (((s.cnt pgVFM VFM.VFM_CNT 0).setVf n v).vfmDone tag).rd pgVFM VFM.VFM_RES.status = 1 ∧
    (((s.cnt pgVFM VFM.VFM_CNT 0).setVf n v).vfmDone tag).rd pgVFM VFM.VFM_RES.tag = tag % 256 ∧
    (((s.cnt pgVFM VFM.VFM_CNT 0).setVf n v).vfmDone tag).rd pgVFM VFM.VFM_RES.valid = 1 ∧
    (((s.cnt pgVFM VFM.VFM_CNT 0).setVf n v).vfmDone tag).toBandState = s.toBandState ∧
    (((s.cnt pgVFM VFM.VFM_CNT 0).setVf n v).vfmDone tag).toLineState = s.toLineState ∧
    (((s.cnt pgVFM VFM.VFM_CNT 0).setVf n v).vfmDone tag).toPipeState = s.toPipeState ∧
    (((s.cnt pgVFM VFM.VFM_CNT 0).setVf n v).vfmDone tag).toQdState = s.toQdState ∧
    (((s.cnt pgVFM VFM.VFM_CNT 0).setVf n v).vfmDone tag).toMgmtState = s.toMgmtState ∧
    (((s.cnt pgVFM VFM.VFM_CNT 0).setVf n v).vfmDone tag).nt = s.nt := by
  refine ⟨?_, fun k hk => ?_, State.vfmDone_spec tag [] (s.vfmSeen_core) (State.cnt_toMgmtState ..)⟩
  · rw [State.vf_vfmDone, State.vf_setVf]
  · rw [State.vf_vfmDone, State.vf_setVf_ne _ _ hk, State.vf_cnt]

/-- The pending bit of a mailbox reads as it was set (R573). -/
theorem State.mbxPend_shows (b : Bool) :
    bit ((s.mbxPend n b).rd pgVFM VFM.MBX_PEND_VFS ((n - 1) / 32)) ((n - 1) % 32) = b := by
  have hlt : (n - 1) % 32 < 32 := Nat.mod_lt _ (by decide)
  rw [State.mbxPend, State.rd_wr_same]
  exact (bit_mod _ 32 _ hlt).trans (bit_putBit_self ..)
end

/-! ### Saving and restoring -/

/-- A message that waits for a vector of a function goes out. -/
def State.msixPass (fn : Nat) (s : State) (e : Nat × MsixVec) : State :=
  if (tgetD (s.fnS fn).vecs e.1 {}).pend ∧ (s.fnS fn).delivers e.1 then
    ((s.setFn fn { s.fnS fn with vecs := tset (s.fnS fn).vecs e.1 { tgetD (s.fnS fn).vecs e.1 {} with pend := false } }).cnt
      pgPCE PCE.PCE_CNT 0).emit (.msix fn e.1)
  else s

theorem State.msixFlush_eq (s : State) (fn : Nat) : s.msixFlush fn = (s.fnS fn).vecs.foldl (State.msixPass fn) s := rfl

/-- Messages that go out change only registers, output and functions. -/
theorem State.msixPass_only (fn : Nat) (s : State) (e : Nat × MsixVec) : ∃ r o f, s.msixPass fn e = { s with regs := r, out := o, fns := f } := by
  rw [State.msixPass]
  split
  · generalize { s.fnS fn with vecs := tset (s.fnS fn).vecs e.1 { tgetD (s.fnS fn).vecs e.1 {} with pend := false } } = x
    obtain ⟨q, hq⟩ := (OnlyRegs.refl (s.setFn fn x)).bump pgPCE PCE.PCE_CNT 0 0 1
    exact ⟨q, _, _, by rw [State.cnt, hq]; rfl⟩
  · exact ⟨s.regs, s.out, s.fns, rfl⟩
theorem State.msixFlush_only (s : State) (fn : Nat) : ∃ r o f, s.msixFlush fn = { s with regs := r, out := o, fns := f } := by
  rw [State.msixFlush_eq]
  generalize (s.fnS fn).vecs = l
  induction l generalizing s with
  | nil => exact ⟨s.regs, s.out, s.fns, rfl⟩
  | cons e l ih =>
    obtain ⟨r, o, f, h⟩ := s.msixPass_only fn e
    obtain ⟨r', o', f', h'⟩ := ih (s.msixPass fn e)
    exact ⟨r', o', f', by rw [List.foldl_cons, h', h]⟩

theorem State.msixFlush_kept (s : State) (fn : Nat) : coreParts (s.msixFlush fn) = coreParts s ∧ (s.msixFlush fn).toMgmtState = s.toMgmtState ∧
    (∀ n, (s.msixFlush fn).vf n = s.vf n) ∧ ∀ k, (s.msixFlush fn).qp k = s.qp k := by
  obtain ⟨r, o, f, h⟩ := s.msixFlush_only fn
  rw [h]
  exact ⟨rfl, rfl, fun _ => rfl, fun _ => rfl⟩

/-- Queue pairs load their records in turn (R602). -/
def State.loadAll (s : State) (qp : Nat → Nat) (rec : Nat → List Nat) (l : List Nat) : State :=
  l.foldl (fun (t : State) k => t.setQp (qp k) ((t.qp (qp k)).load (rec k))) s

section
variable (qp : Nat → Nat) (rec : Nat → List Nat)

theorem State.loadAll_only (l : List Nat) (s : State) : ∃ q, s.loadAll qp rec l = { s with qps := q } := by
  induction l generalizing s with
  | nil => exact ⟨s.qps, rfl⟩
  | cons k l ih =>
    obtain ⟨q, h⟩ := ih (s.setQp (qp k) ((s.qp (qp k)).load (rec k)))
    exact ⟨q, h⟩
theorem State.qp_loadAll_ne {p : Nat} (l : List Nat) (s : State) (h : ∀ k ∈ l, qp k ≠ p) : (s.loadAll qp rec l).qp p = s.qp p := by
  induction l generalizing s with
  | nil => rfl
  | cons k l ih =>
    have hstep := ih (s.setQp (qp k) ((s.qp (qp k)).load (rec k))) fun j hj => h j (List.mem_cons_of_mem _ hj)
    exact hstep.trans (s.qp_setQp_ne _ (h k List.mem_cons_self).symm)
/-- Each queue pair of a list without repetition holds its own record afterwards. -/
theorem State.qp_loadAll {l : List Nat} {k : Nat} (s : State) (hk : k ∈ l) (hnodup : (l.map qp).Nodup) :
    (s.loadAll qp rec l).qp (qp k) = (s.qp (qp k)).load (rec k) := by
  induction l generalizing s with
  | nil => cases hk
  | cons j l ih =>
    rw [List.map_cons, List.nodup_cons] at hnodup
    obtain ⟨hj, hrest⟩ := hnodup
    have hstep : s.loadAll qp rec (j :: l) = (s.setQp (qp j) ((s.qp (qp j)).load (rec j))).loadAll qp rec l := rfl
    rw [hstep]
    obtain rfl | hmem := List.mem_cons.1 hk
    · rw [State.qp_loadAll_ne, State.qp_setQp]
      exact fun i hi heq => hj (heq ▸ List.mem_map_of_mem hi)
    · rw [ih _ hmem hrest, State.qp_setQp_ne]
      exact fun heq => hj (heq ▸ List.mem_map_of_mem hmem)
end

end Sys2Proof.Machine

/-! PROOFS. Virtual function commands: the obligation. -/

namespace Sys2Proof.Machine
set_option Elab.async false

/-! ### The image of a VF -/

section
variable (s : State) (n : Nat)

theorem State.vfImage_cnt : (s.cnt pgVFM VFM.VFM_CNT 0).vfImage n = s.vfImage n := by
  obtain ⟨r, h⟩ := (OnlyRegs.refl s).bump pgVFM VFM.VFM_CNT 0 0 1
  rw [State.cnt, h]
  rfl
theorem State.fnS_cnt (k : Nat) : (s.cnt pgVFM VFM.VFM_CNT 0).fnS k = s.fnS k := by
  obtain ⟨r, h⟩ := (OnlyRegs.refl s).bump pgVFM VFM.VFM_CNT 0 0 1
  rw [State.cnt, h]
  rfl
theorem State.qpsOf_cnt : (s.cnt pgVFM VFM.VFM_CNT 0).qpsOf n = s.qpsOf n := by
  obtain ⟨r, h⟩ := (OnlyRegs.refl s).bump pgVFM VFM.VFM_CNT 0 0 1
  rw [State.cnt, h]
  rfl
theorem State.vfmSeen_live (p : Nat) : (s.cnt pgVFM VFM.VFM_CNT 0).live p = s.live p := State.live_bump _ _ _ _ _ _ _ (by decide) (by decide) (by decide)

/-- A posted write that the host takes. -/
theorem State.post_sends {fn : Nat} (h : (s.fnS fn).sends = true) (addr : Nat) (l : List Byte) (ro : Bool) :
    s.post fn addr l ro = (s.cnt pgPCE PCE.PCE_CNT 0).emit (.hostWrite fn addr l ro) := by
  rw [State.post, if_pos h]

/-- The image of a restore once its VF, with the queue pairs of a list, holds it (R602): rate, mailbox bits, pending vectors and queue pairs. -/
def State.vfLoaded (s : State) (n : Nat) (l : List (Nat × Nat)) (w : List Nat) : State :=
  let s1 := s.setVf n { s.vf n with rate := w.getD 2 0 % 2 ^ 22, busy := bit (w.getD 3 0) 0, reply := bit (w.getD 3 0) 1 }
  let vecs := (List.range 64).foldl (fun (t : Tbl MsixVec) k =>
    let e := tgetD t k {}
    let p := bit (w.getD (4 + k / 32) 0) (k % 32)
    if e.pend = p then t else tset t k { e with pend := p }) (s1.fnS (fnOf n)).vecs
  (s1.setFn (fnOf n) { s1.fnS (fnOf n) with vecs := vecs }).loadAll (fun k => (l.getD k (0, 0)).2)
    (fun k => (w.drop (16 + 16 * k)).take 16) (List.range l.length)

section
variable (l : List (Nat × Nat)) (w : List Nat)

theorem State.vfLoaded_spec : coreParts (s.vfLoaded n l w) = coreParts s ∧ (s.vfLoaded n l w).toMgmtState = s.toMgmtState ∧
    (s.vfLoaded n l w).vf n = { s.vf n with rate := w.getD 2 0 % 2 ^ 22, busy := bit (w.getD 3 0) 0, reply := bit (w.getD 3 0) 1 } ∧
    ∀ k, k ≠ n → (s.vfLoaded n l w).vf k = s.vf k := by
  simp only [State.vfLoaded]
  generalize List.foldl _ _ _ = vecs
  generalize { s.vf n with rate := w.getD 2 0 % 2 ^ 22, busy := bit (w.getD 3 0) 0, reply := bit (w.getD 3 0) 1 } = v
  generalize { (s.setVf n v).fnS (fnOf n) with vecs := vecs } = x
  obtain ⟨q, h⟩ := ((s.setVf n v).setFn (fnOf n) x).loadAll_only (fun k => (l.getD k (0, 0)).2)
    (fun k => (w.drop (16 + 16 * k)).take 16) (List.range l.length)
  rw [h]
  exact ⟨rfl, rfl, s.vf_setVf n v, fun k hk => s.vf_setVf_ne v hk⟩
theorem State.qp_vfLoaded {k : Nat} (hk : k < l.length) (hnodup : (l.map (·.2)).Nodup) :
    (s.vfLoaded n l w).qp (l.getD k (0, 0)).2 = (s.qp (l.getD k (0, 0)).2).load ((w.drop (16 + 16 * k)).take 16) := by
  have hlist : (List.range l.length).map (fun k => (l.getD k (0, 0)).2) = l.map (·.2) := by
    refine List.ext_getElem (by simp) fun j h1 h2 => ?_
    have hj : j < l.length := by simpa using h2
    rw [List.getElem_map, List.getElem_map, List.getElem_range, List.getD_eq_getElem?_getD, List.getElem?_eq_getElem hj, Option.getD_some]
  rw [State.vfLoaded]
  exact State.qp_loadAll (fun k => (l.getD k (0, 0)).2) (fun k => (w.drop (16 + 16 * k)).take 16) _ (List.mem_range.2 hk) (hlist ▸ hnodup)
end

/-- The host's image is read. -/
def State.vfFetched (s : State) (n : Nat) : State :=
  s.fetch 0 (s.rd pgVFM VFM.CMD_ADDR_LO + s.rd pgVFM VFM.CMD_ADDR_HI * 2 ^ 32) (64 + 64 * (s.qpsOf n).length)

theorem State.vfFetched_only : ∃ r o, s.vfFetched n = { s with regs := r, out := o } := s.fetch_only ..
theorem State.vfFetched_live (p : Nat) : (s.vfFetched n).live p = s.live p := by
  have := dom_lt p
  unfold State.live State.domOn State.on
  rw [State.vfFetched, State.fetch_rd]
  simp only [Fld.calmAt, PWR.DOM_STS_POWERED, pgPWR]
  omega

theorem State.vfRestore_good (tag : Nat) {img : List Byte} (hfrozen : (s.vf s.cmdFn).frozen = true)
    (hok : imageOk (bytesToLeWords img) img ((s.qpsOf s.cmdFn).map (·.1)) = true) : s.vfRestore tag (some img) =
    (((s.vfFetched s.cmdFn).vfLoaded s.cmdFn (s.qpsOf s.cmdFn) (bytesToLeWords img)).msixFlush (fnOf s.cmdFn)).vfmDone tag := by
  simp only [State.vfRestore, hfrozen, not_true_eq_false, if_false, Option.getD_some, hok]
  delta State.vfLoaded State.vfFetched State.loadAll
  exact rfl
theorem State.vfRestore_bad (tag : Nat) {image : Option (List Byte)} (hfrozen : (s.vf s.cmdFn).frozen = true)
    (hok : imageOk (bytesToLeWords (image.getD [])) (image.getD []) ((s.qpsOf s.cmdFn).map (·.1)) = false) :
    s.vfRestore tag image = (s.vfFetched s.cmdFn).vfmError tag 5 := by
  simp only [State.vfRestore, hfrozen, not_true_eq_false, if_false, hok, Bool.false_eq_true, not_false_eq_true, if_true, State.vfFetched]

/-- With no pending bits nothing is written to the log. -/
theorem State.logFlush_clean (h : (s.vf n).dirty = []) (words : List (Option Nat)) : s.logFlush n words = s := by
  cases words with
  | nil => rfl
  | cons w ws => simp only [State.logFlush, h, ite_self]
end

section
variable {s : State} (hlive : s.live pgVFM = true) (hidle : s.vfmRun = none) (hn : s.cmdFn ≠ 0) (hthere : s.vfThere s.cmdFn = true)
  (hflr : (s.fnS (fnOf s.cmdFn)).flr = none) (tag : Nat)

include hlive hidle hn hthere hflr in
/-- A SAVE writes the records and then the header (R601). -/
theorem execVfSave_eq (hfrozen : (s.vf s.cmdFn).frozen = true) (hsends : (s.fnS 0).sends = true) : execVfSave tag s =
    .next ((((((s.cnt pgVFM VFM.VFM_CNT 0).cnt pgPCE PCE.PCE_CNT 0).emit (.hostWrite 0
      (s.rd pgVFM VFM.CMD_ADDR_LO + s.rd pgVFM VFM.CMD_ADDR_HI * 2 ^ 32 + 64) (s.vfImage s.cmdFn).2 false)).cnt pgPCE PCE.PCE_CNT 0).emit (.hostWrite 0
      (s.rd pgVFM VFM.CMD_ADDR_LO + s.rd pgVFM VFM.CMD_ADDR_HI * 2 ^ 32) (s.vfImage s.cmdFn).1 false)).vfmDone tag [64 + (s.vfImage s.cmdFn).2.length]) := by
  have hlo : (s.cnt pgVFM VFM.VFM_CNT 0).rd pgVFM VFM.CMD_ADDR_LO = s.rd pgVFM VFM.CMD_ADDR_LO := State.cnt_rd_ne _ (by decide) (by decide)
  have hhi : (s.cnt pgVFM VFM.VFM_CNT 0).rd pgVFM VFM.CMD_ADDR_HI = s.rd pgVFM VFM.CMD_ADDR_HI := State.cnt_rd_ne _ (by decide) (by decide)
  have hsend : ((s.cnt pgVFM VFM.VFM_CNT 0).fnS 0).sends = true := (congrArg PciFn.sends (s.fnS_cnt 0)).trans hsends
  rw [execVfSave, State.vfCmd_runs hlive hidle hn hthere hflr]
  simp only [State.vfSave, State.cmdFn_cnt _ _ (show 0 < 5 by decide), State.vf_cnt, hfrozen, not_true_eq_false, if_false, hlo, hhi, State.vfImage_cnt]
  generalize s.cnt pgVFM VFM.VFM_CNT 0 = u at *
  rw [State.post_sends u hsend, State.post_sends]
  obtain ⟨r, h⟩ := (OnlyRegs.refl u).bump pgPCE PCE.PCE_CNT 0 0 1
  rw [State.cnt, h]
  exact hsend
end

/-- Settles O43, clause by clause. -/
theorem virtualFunctionCommands : Obligations.VirtualFunctionCommands := by
  unfold Obligations.VirtualFunctionCommands
  refine ⟨?_, ?_, ?_, ?_, ?_, ?_, ?_, ?_, ?_, ?_, ?_, ?_, ?_, ?_, ?_, ?_⟩
  · intro s vf hvf hle hthere hlive hbusy
    have hrun : execMbxSend vf s = .next ((((s.setVf vf { s.vf vf with request := (s.vf vf).mbxOut, busy := true }).mbxPend vf true).cnt
        pgVFM VFM.VFM_CNT 2).raise pgVFM 0) := by
      simp [execMbxSend, hvf, hthere, State.gate_of_live hlive, State.mbxSend, hbusy]
    have hcalm : Fld.calmAt VFM.MBX_PEND_VFS pgVFM ((vf - 1) / 32) ∧ VFM.VFM_CNT.key pgVFM 2 ≠ VFM.MBX_PEND_VFS.key pgVFM ((vf - 1) / 32) := by
      simp only [Fld.calmAt, Fld.key, VFM.MBX_PEND_VFS, VFM.VFM_CNT, pgVFM]
      omega
    refine ⟨_, hrun, ?_, ?_, State.raise_sets _ ?_ (by decide), ?_⟩
    · rw [State.vf_raise, State.vf_cnt, State.mbxPend, State.vf_wr, State.vf_setVf]
    · rw [State.raise_rd _ _ _ hcalm.1, State.cnt_rd_ne _ hcalm.1 hcalm.2, State.mbxPend_shows]
    · rw [State.cnt, State.live_bump _ _ _ _ _ _ _ (by decide) (by decide) (by decide), State.mbxPend, State.wr_live]
      · exact hlive
      · simp only [VFM.MBX_PEND_VFS, pgVFM]
        omega
    · simp [State.mbxPend]
  · intro s vf hvf hle hthere hlive hbusy
    have hrun : execMbxSend vf s = .next (s.cnt pgVFM VFM.VFM_CNT 1) := by
      simp [execMbxSend, hvf, hthere, State.gate_of_live hlive, State.mbxSend, hbusy]
    exact ⟨_, hrun, by simp, State.bump_rd_same _ _ _ (by decide), by simp⟩
  · intro s vf hvf hthere hlive
    have hrun : execVfMbxTake vf s = .next (s.setVf vf { s.vf vf with reply := false }) := by
      simp [execVfMbxTake, hvf, hthere, State.gate_of_live hlive]
    exact ⟨_, hrun, s.vf_setVf .., rfl, rfl, rfl, rfl, rfl, rfl, rfl⟩
  · rintro s tag _ hlive hidle rfl hn hthere hflr hle
    have hrun : execVfmMbxAck tag s = .next ((((s.cnt pgVFM VFM.VFM_CNT 0).setVf s.cmdFn { s.vf s.cmdFn with busy := false }).mbxPend
        s.cmdFn false).vfmDone tag) := by
      rw [execVfmMbxAck, State.vfCmd_runs hlive hidle hn hthere hflr, State.cmdFn_cnt _ _ (by decide), State.vf_cnt]
    refine ⟨_, hrun, ?_, ?_, fun k hk => ?_, State.vfmDone_spec tag [] (by simp [coreParts, State.mbxPend]) (by simp [State.mbxPend])⟩
    · rw [State.vf_vfmDone, State.mbxPend, State.vf_wr, State.vf_setVf]
    · rw [State.vfmDone, State.rd_result_ne, State.mbxPend_shows]
      simp only [Fld.key, VFM.VFM_RES, VFM.MBX_PEND_VFS, pgVFM]
      omega
    · rw [State.vf_vfmDone, State.mbxPend, State.vf_wr, State.vf_setVf_ne _ _ hk, State.vf_cnt]
  · rintro s tag _ hlive hidle rfl hn hthere hflr hreply
    have hdata : ∀ k ∈ List.range 8, (s.cnt pgVFM VFM.VFM_CNT 0).rd pgVFM VFM.MBX_REPLY_DATA k = s.rd pgVFM VFM.MBX_REPLY_DATA k := by
      intro k hk
      have hlt := List.mem_range.1 hk
      refine State.cnt_rd_ne _ ?_ ?_ <;> simp only [Fld.calmAt, Fld.key, VFM.VFM_CNT, VFM.MBX_REPLY_DATA, pgVFM] <;> omega
    have hrun : execVfmMbxReply tag s = .next ((((s.cnt pgVFM VFM.VFM_CNT 0).setVf s.cmdFn { s.vf s.cmdFn with
        mbxIn := (List.range 8).map fun k => s.rd pgVFM VFM.MBX_REPLY_DATA k, reply := true }).msix (fnOf s.cmdFn) (s.vf s.cmdFn).mbxVec).vfmDone
          tag) := by
      rw [execVfmMbxReply, State.vfCmd_runs hlive hidle hn hthere hflr]
      simp only [State.mbxReply, State.cmdFn_cnt _ _ (show 0 < 5 by decide), State.vf_cnt, hreply, Bool.false_eq_true, if_false,
        List.map_congr_left hdata]
    generalize (List.range 8).map (fun k => s.rd pgVFM VFM.MBX_REPLY_DATA k) = ws at *
    refine ⟨_, hrun, ?_, fun hdeliver => ?_, fun k hk => ?_, State.vfmDone_spec tag [] ?_ ?_⟩
    · rw [State.vf_vfmDone, State.vf_msix, State.vf_setVf]
    · have hfn : ((s.cnt pgVFM VFM.VFM_CNT 0).setVf s.cmdFn { s.vf s.cmdFn with mbxIn := ws, reply := true }).fnS (fnOf s.cmdFn) =
          s.fnS (fnOf s.cmdFn) := s.fnS_cnt _
      simp [State.vfmDone, State.msix, hfn, hdeliver]
    · rw [State.vf_vfmDone, State.vf_msix, State.vf_setVf_ne _ _ hk, State.vf_cnt]
    · simp [coreParts]
    · simp
  · rintro s tag _ hlive hidle rfl hn hthere hflr
    have hrun : execVfFreeze tag s = .next { ((s.cnt pgVFM VFM.VFM_CNT 0).setVf s.cmdFn { s.vf s.cmdFn with frozen := true }).resStart
        pgVFM VFM.VFM_RES with vfmRun := some (s.cmdFn, tag) } := by
      rw [execVfFreeze, State.vfCmd_runs hlive hidle hn hthere hflr, State.cmdFn_cnt _ _ (by decide), State.vf_cnt]
    obtain ⟨hband, hline, hpipe, hqd, hnt⟩ := coreParts_eq s.vfmSeen_core
    have hmgmt : (s.cnt pgVFM VFM.VFM_CNT 0).toMgmtState = s.toMgmtState := State.cnt_toMgmtState ..
    have hvf : ∀ k, (s.cnt pgVFM VFM.VFM_CNT 0).vf k = s.vf k := fun k => State.vf_cnt ..
    generalize s.cnt pgVFM VFM.VFM_CNT 0 = u at *
    refine ⟨_, hrun, u.vf_setVf s.cmdFn _, rfl, ?_, fun k hk => (u.vf_setVf_ne _ hk).trans (hvf k), hband, hline, hpipe, hqd, hmgmt, hnt⟩
    rw [State.rd_parts]
    exact State.rd_wr_same ..
  · intro s tag n hlive hrunning hquiet
    have hrun : execVfFreezeComplete s = .next (({ s with vfmRun := none } : State).vfmDone tag) := by
      simp only [execVfFreezeComplete, hrunning, hlive, hquiet, and_self, if_true]
    exact ⟨_, hrun, by simp [State.vfmDone], by simp [State.vfmDone], by simp [State.vfmDone], State.vfmDone_spec tag [] rfl rfl⟩
  · rintro s tag _ hlive hidle rfl hn hthere hflr hfrozen
    have hrun : execVfUnfreeze tag s = .next (((s.cnt pgVFM VFM.VFM_CNT 0).setVf s.cmdFn { s.vf s.cmdFn with frozen := false }).vfmDone tag) := by
      rw [execVfUnfreeze, State.vfCmd_runs hlive hidle hn hthere hflr]
      simp only [State.cmdFn_cnt _ _ (show 0 < 5 by decide), State.vf_cnt, hfrozen, if_true]
    exact ⟨_, hrun, s.vfStored_spec s.cmdFn _ tag⟩
  · rintro s tag _ hlive hidle rfl hn hthere hflr hfrozen
    have hrun : execVfUnfreeze tag s = .next ((s.cnt pgVFM VFM.VFM_CNT 0).vfmError tag 6) := by
      rw [execVfUnfreeze, State.vfCmd_runs hlive hidle hn hthere hflr]
      simp only [State.cmdFn_cnt _ _ (show 0 < 5 by decide), State.vf_cnt, hfrozen, Bool.false_eq_true, if_false]
    exact ⟨_, hrun, by simp [State.vfmError], State.vfmError_spec tag (by decide) ((s.vfmSeen_live _).trans hlive) s.vfmSeen_core⟩
  · rintro s tag _ _ hlive hidle rfl hn hthere hflr hfrozen rfl hsends
    have hrun := execVfSave_eq hlive hidle hn hthere hflr tag hfrozen hsends
    generalize s.rd pgVFM VFM.CMD_ADDR_LO + s.rd pgVFM VFM.CMD_ADDR_HI * 2 ^ 32 = a at *
    generalize s.vfImage s.cmdFn = im at *
    refine ⟨_, hrun, ?_, ?_, ?_, ?_, State.vfmDone_spec tag _ ?_ ?_⟩
    · simp [State.vfmDone]
    · rw [State.vfmDone, State.rd_result_word _ _ _ _ _ _ _ _ (by decide)]
      rfl
    · simp [State.vfmDone]
    · simp [State.vfmDone]
    · simp [coreParts]
    · simp
  · rintro s tag _ k img _ hlive hidle rfl hn hthere hflr hfrozen rfl hok hnodup hk
    have hrun : execVfRestore tag (some img) s = .next (((((s.cnt pgVFM VFM.VFM_CNT 0).vfFetched s.cmdFn).vfLoaded s.cmdFn (s.qpsOf s.cmdFn)
        (bytesToLeWords img)).msixFlush (fnOf s.cmdFn)).vfmDone tag) := by
      have hcmd := s.cmdFn_cnt 0 (by decide)
      rw [execVfRestore, State.vfCmd_runs hlive hidle hn hthere hflr, State.vfRestore_good, hcmd, State.qpsOf_cnt]
      · rw [hcmd, State.vf_cnt, hfrozen]
      · rw [hcmd, State.qpsOf_cnt, hok]
    obtain ⟨r, o, hfetch⟩ := (s.cnt pgVFM VFM.VFM_CNT 0).vfFetched_only s.cmdFn
    have hseen : coreParts ((s.cnt pgVFM VFM.VFM_CNT 0).vfFetched s.cmdFn) = coreParts s ∧
        ((s.cnt pgVFM VFM.VFM_CNT 0).vfFetched s.cmdFn).toMgmtState = s.toMgmtState ∧
        (∀ j, ((s.cnt pgVFM VFM.VFM_CNT 0).vfFetched s.cmdFn).vf j = s.vf j) ∧ ∀ j, ((s.cnt pgVFM VFM.VFM_CNT 0).vfFetched s.cmdFn).qp j = s.qp j := by
      rw [hfetch]
      exact ⟨s.vfmSeen_core, State.cnt_toMgmtState .., fun j => s.vf_cnt .., fun j => s.qp_cnt ..⟩
    generalize (s.cnt pgVFM VFM.VFM_CNT 0).vfFetched s.cmdFn = u at *
    obtain ⟨hcore, hmgmt, hvf, hqp⟩ := hseen
    obtain ⟨hcore', hmgmt', hvf', hothers⟩ := u.vfLoaded_spec s.cmdFn (s.qpsOf s.cmdFn) (bytesToLeWords img)
    have hload := u.qp_vfLoaded s.cmdFn (s.qpsOf s.cmdFn) (bytesToLeWords img) hk hnodup
    generalize u.vfLoaded s.cmdFn (s.qpsOf s.cmdFn) (bytesToLeWords img) = v at *
    obtain ⟨hcoreEnd, hmgmtEnd, hvfEnd, hqpEnd⟩ := v.msixFlush_kept (fnOf s.cmdFn)
    generalize v.msixFlush (fnOf s.cmdFn) = z at *
    refine ⟨_, hrun, ?_, ?_, fun j hj => ?_, State.vfmDone_spec tag [] (hcoreEnd.trans (hcore'.trans hcore)) (hmgmtEnd.trans (hmgmt'.trans hmgmt))⟩
    · rw [State.vf_vfmDone, hvfEnd, hvf', hvf]
    · rw [State.vfmDone, State.qp_result, hqpEnd, hload, hqp]
    · rw [State.vf_vfmDone, hvfEnd, hothers j hj, hvf]
  · rintro s tag _ image hlive hidle rfl hn hthere hflr hfrozen hok
    have hrun : execVfRestore tag image s = .next (((s.cnt pgVFM VFM.VFM_CNT 0).vfFetched s.cmdFn).vfmError tag 5) := by
      have hcmd := s.cmdFn_cnt 0 (by decide)
      rw [execVfRestore, State.vfCmd_runs hlive hidle hn hthere hflr, State.vfRestore_bad, hcmd]
      · rw [hcmd, State.vf_cnt, hfrozen]
      · rw [hcmd, State.qpsOf_cnt, hok]
    obtain ⟨r, o, hfetch⟩ := (s.cnt pgVFM VFM.VFM_CNT 0).vfFetched_only s.cmdFn
    have hseen : coreParts ((s.cnt pgVFM VFM.VFM_CNT 0).vfFetched s.cmdFn) = coreParts s ∧
        ((s.cnt pgVFM VFM.VFM_CNT 0).vfFetched s.cmdFn).toHostState = s.toHostState := by
      rw [hfetch]
      exact ⟨s.vfmSeen_core, State.cnt_toHostState ..⟩
    have hseenLive := ((s.cnt pgVFM VFM.VFM_CNT 0).vfFetched_live s.cmdFn pgVFM).trans ((s.vfmSeen_live _).trans hlive)
    generalize (s.cnt pgVFM VFM.VFM_CNT 0).vfFetched s.cmdFn = u at *
    obtain ⟨hcore, hhost⟩ := hseen
    refine ⟨_, hrun, ?_, ?_, State.vfmError_spec tag (by decide) hseenLive hcore⟩
    · simp [State.vfmError, hhost]
    · simp [State.vfmError, hhost]
  · rintro s tag _ hlive hidle rfl hn hthere hflr
    have hrun : execLogStart tag s = .next (((s.cnt pgVFM VFM.VFM_CNT 0).setVf s.cmdFn { s.vf s.cmdFn with
        logging := true, activeB := false, swaps := 0, dirty := [] }).vfmDone tag) := by
      rw [execLogStart, State.vfCmd_runs hlive hidle hn hthere hflr, State.cmdFn_cnt _ _ (by decide), State.vf_cnt]
    exact ⟨_, hrun, s.vfStored_spec s.cmdFn _ tag⟩
  · rintro s tag _ words hlive hidle rfl hn hthere hflr hlog hclean
    have hrun : execLogSwap tag words s = .next (((s.cnt pgVFM VFM.VFM_CNT 0).setVf s.cmdFn { s.vf s.cmdFn with
        activeB := !(s.vf s.cmdFn).activeB, swaps := ((s.vf s.cmdFn).swaps + 1) % 65536 }).vfmDone tag) := by
      rw [execLogSwap, State.vfCmd_runs hlive hidle hn hthere hflr]
      simp only [State.logEnd, State.cmdFn_cnt _ _ (show 0 < 5 by decide), State.vf_cnt, hlog, not_true_eq_false, if_false,
        State.logFlush_clean _ _ ((congrArg VfState.dirty (s.vf_cnt ..)).trans hclean), hclean, ne_eq, Bool.false_eq_true]
    exact ⟨_, hrun, s.vfStored_spec s.cmdFn _ tag⟩
  · rintro s tag _ words hlive hidle rfl hn hthere hflr hlog hclean
    have hrun : execLogStop tag words s = .next (((s.cnt pgVFM VFM.VFM_CNT 0).setVf s.cmdFn { s.vf s.cmdFn with logging := false }).vfmDone tag) := by
      rw [execLogStop, State.vfCmd_runs hlive hidle hn hthere hflr]
      simp only [State.logEnd, State.cmdFn_cnt _ _ (show 0 < 5 by decide), State.vf_cnt, hlog, not_true_eq_false, if_false,
        State.logFlush_clean _ _ ((congrArg VfState.dirty (s.vf_cnt ..)).trans hclean), hclean, ne_eq, if_true]
    exact ⟨_, hrun, s.vfStored_spec s.cmdFn _ tag⟩
  · intro s tag n hlive hrunning
    have hrun : execVfmAbort s = .next (({ s.setVf n { s.vf n with frozen := false } with vfmRun := none } : State).result pgVFM VFM.VFM_RES tag
        ABORTED) := by
      simp only [execVfmAbort, State.gate_of_live hlive, State.vfmAbort, hrunning]
    obtain ⟨hstatus, htag, hvalid⟩ := State.result_head ({ s.setVf n { s.vf n with frozen := false } with vfmRun := none }) pgVFM VFM.VFM_RES tag
      (st := ABORTED) [] 0 false (by decide)
    refine ⟨_, hrun, by simp, ?_, fun k hk => ?_, hstatus, htag, hvalid, by simp⟩
    · rw [State.vf_result]
      exact s.vf_setVf ..
    · rw [State.vf_result]
      exact s.vf_setVf_ne _ hk

end Sys2Proof.Machine

/-! PROOFS. IPsec: encryption and decryption passes and the commands of security associations. -/

namespace Sys2Proof.Machine
set_option Elab.async false

/-! ### The frame that an engine takes -/

/-- Picking a queue moves only the deficits and the turn. -/
theorem State.ipsPick_only {n : Nat} {s u : State} {host : Bool} (h : s.ipsPick n = some (host, u)) :
    ∃ d o, u = { s with ipsDef := d, ipsOnHost := o } := by
  induction n generalizing s with
  | zero => cases h
  | succ n ih =>
    rw [State.ipsPick] at h
    split at h
    · cases h
    · cases h
      exact ⟨_, _, rfl⟩
    · cases h
      exact ⟨_, _, rfl⟩
    · split at h
      · split at h
        · cases h
          exact ⟨u.ipsDef, u.ipsOnHost, rfl⟩
        · obtain ⟨d, o, rfl⟩ := ih h
          exact ⟨d, o, rfl⟩
      · split at h
        · cases h
          exact ⟨u.ipsDef, u.ipsOnHost, rfl⟩
        · obtain ⟨d, o, rfl⟩ := ih h
          exact ⟨d, o, rfl⟩

/-- What taking a frame for an engine leaves alone: everything but the two queues, their turn and the status of IPS. -/
structure IpsTaken (s u : State) : Prop where
  rd : ∀ (q : Nat) (g : Fld) (j : Nat), IPS.IPS_STS_HOST_FULL.key pgIPS 0 ≠ g.key q j → IPS.IPS_STS_TRANSIT_FULL.key pgIPS 0 ≠ g.key q j →
    u.rd q g j = s.rd q g j
  sas : u.ipsSas = s.ipsSas
  core : coreParts u = coreParts s

theorem State.ipsTake_taken {s u : State} {enc : Bool} {it : IpsItem} (h : s.ipsTake enc = some (it, u)) : IpsTaken s u := by
  have hview : ∀ t : State, IpsTaken t t.ipsView := fun t =>
    ⟨fun q g j h1 h2 => (State.rd_wr_ne _ _ h2).trans (State.rd_wr_ne _ _ h1), rfl, rfl⟩
  rw [State.ipsTake] at h
  split at h
  · cases h
  · next host v hpick =>
    obtain ⟨d, o, rfl⟩ := State.ipsPick_only hpick
    split at h
    · cases h
    · split at h
      · cases h
      · cases h
        obtain ⟨hrd, hsas, hcore⟩ := hview _
        exact ⟨hrd, hsas, hcore⟩

namespace IpsTaken
variable {s u : State} (h : IpsTaken s u)
include h

theorem live (p : Nat) : u.live p = s.live p := by
  have := dom_lt p
  unfold State.live State.domOn State.on
  rw [h.rd] <;> simp only [Fld.key, IPS.IPS_STS_HOST_FULL, IPS.IPS_STS_TRANSIT_FULL, PWR.DOM_STS_POWERED, pgIPS, pgPWR] <;> omega
theorem cnt {n : Nat} : u.rd pgIPS IPS.IPS_CNT n = s.rd pgIPS IPS.IPS_CNT n := by
  refine h.rd _ _ _ ?_ ?_ <;> simp only [Fld.key, IPS.IPS_CNT, IPS.IPS_STS_HOST_FULL, IPS.IPS_STS_TRANSIT_FULL] <;> omega
theorem oflWord (p : Nat) {w : Nat} (hw : w < 32) : u.oflWord p w = s.oflWord p w := by
  refine h.rd _ _ _ ?_ ?_ <;> simp only [Fld.key, OFL.PROFILE, IPS.IPS_STS_HOST_FULL, IPS.IPS_STS_TRANSIT_FULL, pgIPS, pgOFL] <;> omega
theorem oflTemplate (p : Nat) : u.oflTemplate p = s.oflTemplate p := by
  have hwords : (List.range 24).flatMap (fun k => toLe 4 (u.oflWord p (8 + k))) = (List.range 24).flatMap fun k => toLe 4 (s.oflWord p (8 + k)) := by
    rw [List.flatMap_def, List.flatMap_def]
    exact congrArg List.flatten (List.map_congr_left fun k hk => by rw [h.oflWord p (by have := List.mem_range.1 hk; omega)])
  rw [State.oflTemplate, State.oflTemplate, hwords, State.oflTplLen, State.oflTplLen, h.oflWord p (by decide)]
theorem fixUps (p arg : Nat) (inner l : List Byte) : u.fixUps p arg inner l = s.fixUps p arg inner l := by
  simp only [State.fixUps, List.range, List.range.loop, List.foldl]
  rw [h.oflWord p (w := 0) (by decide), h.oflWord p (w := 2 + 0) (by decide), h.oflWord p (w := 2 + 1) (by decide),
    h.oflWord p (w := 2 + 2) (by decide), h.oflWord p (w := 2 + 3) (by decide)]
theorem espOut (x : IpsSa) (seq : Nat) (f : Frame) (arg : Nat) : u.espOut x seq f arg = s.espOut x seq f arg := by
  simp only [State.espOut, h.fixUps, h.oflTemplate]
end IpsTaken

/-! ### Passes -/

/-- The counters of the IPS page stay inside it. -/
theorem ipsCnt_calm {n : Nat} (hn : n < 8) : Fld.calmAt IPS.IPS_CNT pgIPS n := by
  simp only [Fld.calmAt, IPS.IPS_CNT, pgIPS]
  omega

section
variable (s : State)

/-- A frame refused by a pass: counted, with its cause. -/
theorem State.ipsRefused_spec {u : State} (htaken : IpsTaken s u) (hlive : s.live pgIPS = true) {n c : Nat} (hn : n < 8) (hc : c < 16) :
    ((u.cnt pgIPS IPS.IPS_CNT n).raise pgIPS c).rd pgIPS IPS.IPS_CNT n = (s.rd pgIPS IPS.IPS_CNT n + 1) % 2 ^ 64 ∧
    bit (((u.cnt pgIPS IPS.IPS_CNT n).raise pgIPS c).rd pgIPS COMMON.INT_CAUSE_CAUSE) c = true ∧
    ((u.cnt pgIPS IPS.IPS_CNT n).raise pgIPS c).ipsSas = s.ipsSas ∧ ((u.cnt pgIPS IPS.IPS_CNT n).raise pgIPS c).ipsHost = u.ipsHost ∧
    ((u.cnt pgIPS IPS.IPS_CNT n).raise pgIPS c).ipsTransit = u.ipsTransit ∧
    ((u.cnt pgIPS IPS.IPS_CNT n).raise pgIPS c).ingress = s.ingress ∧
    ((u.cnt pgIPS IPS.IPS_CNT n).raise pgIPS c).toBandState = s.toBandState ∧ ((u.cnt pgIPS IPS.IPS_CNT n).raise pgIPS c).toLineState = s.toLineState ∧
    ((u.cnt pgIPS IPS.IPS_CNT n).raise pgIPS c).toPipeState = s.toPipeState ∧ ((u.cnt pgIPS IPS.IPS_CNT n).raise pgIPS c).toQdState = s.toQdState ∧
    ((u.cnt pgIPS IPS.IPS_CNT n).raise pgIPS c).nt = s.nt := by
  obtain ⟨hband, hline, hpipe, hqd, hnt⟩ := coreParts_eq htaken.core
  have hcalm := ipsCnt_calm hn
  refine ⟨?_, State.raise_sets _ ?_ hc, ?_⟩
  · rw [State.raise_rd _ _ _ hcalm, State.cnt, State.bump_rd_same _ _ _ hcalm, htaken.cnt]
    rfl
  · rw [State.cnt, State.live_bump _ _ _ _ _ _ _ (by simp only [IPS.IPS_CNT]; omega) (by decide) (by decide), htaken.live, hlive]
  · simp [hband, hline, hpipe, hqd, hnt, htaken.sas]

/-- The frame that a pass sends back to dealing (R626, R872). -/
def ipsOut (n : Nat) (x : IpsSa) (f : Frame) (l : List Byte) (dec : Bool) : Frame :=
  { bytes := l, fcsGood := true, port := f.port, ctx := 256 + x.loopQp, time := f.time, timeValid := f.timeValid, traced := f.traced
    traceId := f.traceId, srcDev := f.srcDev, startKey := bits x.cfg2 0 16
    slots := tset (tset [] 46 (toBe 4 (n + b2n dec * 65536))) 47 (toBe 4 (0x7FF + x.loopQp * 65536)), modified := true }

theorem State.ipsLoop_eq (n : Nat) (x : IpsSa) (f : Frame) (l : List Byte) (dec : Bool) :
    s.ipsLoop n x f l dec = { s with ingress := s.ingress ++ [ipsOut n x f l dec] } := rfl

/-- A frame that passes: its SA stored, counted with its bytes, with the threshold's cause where it warns, and back in dealing. -/
def State.ipsPassed (s : State) (n k : Nat) (x x' : IpsSa) (f : Frame) (l : List Byte) (dec warn : Bool) : State :=
  (((({ s with ipsSas := tset s.ipsSas n x' } : State).cnt pgIPS IPS.IPS_CNT k).bump pgIPS IPS.IPS_CNT 6 6 f.len).raiseIf warn pgIPS 1).ipsLoop
    n x f l dec

theorem State.ipsPassed_spec {u : State} (htaken : IpsTaken s u) (n : Nat) {k : Nat} (hk : k < 6) (x x' : IpsSa) (f : Frame) (l : List Byte)
    (dec warn : Bool) : (u.ipsPassed n k x x' f l dec warn).ingress = s.ingress ++ [ipsOut n x f l dec] ∧
    (u.ipsPassed n k x x' f l dec warn).ipsSas = tset s.ipsSas n x' ∧ (u.ipsPassed n k x x' f l dec warn).ipsHost = u.ipsHost ∧
    (u.ipsPassed n k x x' f l dec warn).ipsTransit = u.ipsTransit ∧
    (u.ipsPassed n k x x' f l dec warn).rd pgIPS IPS.IPS_CNT k = (s.rd pgIPS IPS.IPS_CNT k + 1) % 2 ^ 64 ∧
    (u.ipsPassed n k x x' f l dec warn).toBandState = s.toBandState ∧ (u.ipsPassed n k x x' f l dec warn).toPipeState = s.toPipeState ∧
    (u.ipsPassed n k x x' f l dec warn).toQdState = s.toQdState ∧ (u.ipsPassed n k x x' f l dec warn).nt = s.nt := by
  obtain ⟨hband, hline, hpipe, hqd, hnt⟩ := coreParts_eq htaken.core
  have hcalm := ipsCnt_calm (n := k) (by omega)
  have hne : IPS.IPS_CNT.key pgIPS 6 ≠ IPS.IPS_CNT.key pgIPS k := by
    simp only [Fld.key, IPS.IPS_CNT]
    omega
  rw [State.ipsPassed, State.ipsLoop_eq]
  generalize hu' : ({ u with ipsSas := tset u.ipsSas n x' } : State) = v
  have hv : v.rd pgIPS IPS.IPS_CNT k = s.rd pgIPS IPS.IPS_CNT k ∧ v.ipsSas = tset s.ipsSas n x' ∧ v.ipsHost = u.ipsHost ∧ v.ipsTransit = u.ipsTransit ∧
      v.toBandState = s.toBandState ∧ v.toLineState = s.toLineState ∧ v.toPipeState = s.toPipeState ∧ v.toQdState = s.toQdState ∧ v.nt = s.nt := by
    subst hu'
    exact ⟨htaken.cnt, by rw [htaken.sas], rfl, rfl, hband, hline, hpipe, hqd, hnt⟩
  obtain ⟨hcnt, hsas, hhost, htransit, hband', hline', hpipe', hqd', hnt'⟩ := hv
  refine ⟨by simp [hline'], by simp [hsas], by simp [hhost], by simp [htransit], ?_, by simp [hband'], by simp [hpipe'], by simp [hqd'], by simp [hnt']⟩
  rw [State.rd_parts, State.raiseIf_rd _ _ _ _ hcalm, State.bump_rd_ne _ _ _ hcalm hne, State.cnt, State.bump_rd_same _ _ _ hcalm, hcnt]
  rfl
end

section
variable {s u : State} {it : IpsItem} {x : IpsSa} (hen : s.enabled pgIPS = true) (hf : s.fabric = false)
include hen hf

theorem execIpsEncrypt_eq (htake : s.ipsTake true = some (it, u)) : execIpsEncrypt s = .next (u.ipsEncrypt it) := by
  simp [execIpsEncrypt, hen, hf, htake]
theorem execIpsDecrypt_eq (htake : s.ipsTake false = some (it, u)) : execIpsDecrypt s = .next (u.ipsDecrypt it) := by
  simp [execIpsDecrypt, hen, hf, htake]
end

section
variable {u : State} {it : IpsItem} {x : IpsSa} {o hl proto q : Nat} {v6 : Bool} (ho : it.frame.l3 = some o)
  (hip : ipAt it.frame.bytes o = some (v6, hl, proto)) (hsa : tget u.ipsSas it.sa = some x) (hvalid : x.valid = true) (hin : x.out = false)
  (hspi : x.spi = beAt (espBytes it.frame.bytes o v6) (o + hl) 4)
  (hseq : x.fullSeq (beAt (espBytes it.frame.bytes o v6) (o + hl + 4) 4) = some q)
include ho hip hsa hvalid hin hspi hseq

/-- A replay is refused (R625). -/
theorem State.ipsDecrypt_replay (hold : x.fresh q = false) : u.ipsDecrypt it = (u.cnt pgIPS IPS.IPS_CNT 3).raise pgIPS 0 := by
  simp [State.ipsDecrypt, ho, hip, hsa, hvalid, hin, ← hspi, hseq, hold]
/-- A packet whose check value fails is refused (R625). -/
theorem State.ipsDecrypt_bad (hfresh : x.fresh q = true)
    (hopen : Config.gcmOpen x.keyBytes (toBe 4 x.salt ++ slice (espBytes it.frame.bytes o v6) (o + hl + 8) 8) (x.aad q)
      ((espBytes it.frame.bytes o v6).drop (o + hl + 16)) = none) : u.ipsDecrypt it = (u.cnt pgIPS IPS.IPS_CNT 2).raise pgIPS 0 := by
  simp [State.ipsDecrypt, ho, hip, hsa, hvalid, hin, ← hspi, hseq, hfresh, hopen]
/-- A packet whose check value holds passes (R625). -/
theorem State.ipsDecrypt_good (hfresh : x.fresh q = true) {plain : List Byte}
    (hopen : Config.gcmOpen x.keyBytes (toBe 4 x.salt ++ slice (espBytes it.frame.bytes o v6) (o + hl + 8) 8) (x.aad q)
      ((espBytes it.frame.bytes o v6).drop (o + hl + 16)) = some plain) :
    u.ipsDecrypt it = u.ipsPassed it.sa 1 x (x.mark q) it.frame (espStrip x (espBytes it.frame.bytes o v6) o v6 hl plain) true false := by
  simp [State.ipsDecrypt, ho, hip, hsa, hvalid, hin, ← hspi, hseq, hfresh, hopen, State.ipsPassed, State.raiseIf]
end

/-- Settles O44, clause by clause. -/
theorem ipsecPasses : Obligations.IpsecPasses := by
  unfold Obligations.IpsecPasses
  refine ⟨?_, ?_, ?_, ?_, ?_, ?_, ?_, ?_, ?_⟩
  · intro s it x u hen hf htake hsa hvalid hout hspace hesp
    have htaken := State.ipsTake_taken htake
    obtain ⟨l, hl⟩ := Option.isSome_iff_exists.1 hesp
    have hrun : execIpsEncrypt s = .next (u.ipsPassed it.sa 0 x { x with
        seq := x.seq + 1, warned := x.warned || decide (bits x.cfg2 16 8 * x.space < (x.seq + 1) * 256) } it.frame l false
        (decide (bits x.cfg2 16 8 * x.space < (x.seq + 1) * 256) && !x.warned)) := by
      rw [execIpsEncrypt_eq hen hf htake]
      have hesp' := (htaken.espOut x x.seq it.frame it.frame.oflArg).trans hl
      simp [State.ipsEncrypt, htaken.sas, hsa, hvalid, hout, Nat.not_le.2 hspace, hesp', State.ipsPassed]
    obtain ⟨hing, hsas, hhost, htransit, hrest⟩ := s.ipsPassed_spec htaken it.sa (k := 0) (by decide) x { x with
        seq := x.seq + 1, warned := x.warned || decide (bits x.cfg2 16 8 * x.space < (x.seq + 1) * 256) } it.frame l false
        (decide (bits x.cfg2 16 8 * x.space < (x.seq + 1) * 256) && !x.warned)
    refine ⟨_, hrun, ?_, hsas, hhost, htransit, hrest⟩
    rw [hing, hl]
    rfl
  · intro s it x u hen hf htake hsa hvalid hout hspace
    have htaken := State.ipsTake_taken htake
    have hlive : s.live pgIPS = true := by
      simp only [State.enabled, Bool.and_eq_true] at hen
      exact hen.1
    have hrun : execIpsEncrypt s = .next ((u.cnt pgIPS IPS.IPS_CNT 5).raise pgIPS 2) := by
      rw [execIpsEncrypt_eq hen hf htake]
      simp [State.ipsEncrypt, htaken.sas, hsa, hvalid, hout, hspace]
    obtain ⟨hcnt, hcause, hsas, hhost, -, hing, hrest⟩ := s.ipsRefused_spec htaken hlive (n := 5) (c := 2) (by decide) (by decide)
    exact ⟨_, hrun, hing, hsas, hhost, hcnt, hcause, hrest⟩
  · rintro s it x u o hl proto q v6 _ hen hf htake ho hip rfl hsa hvalid hin hspi hseq hfresh
    have htaken := State.ipsTake_taken htake
    have hlive : s.live pgIPS = true := by
      simp only [State.enabled, Bool.and_eq_true] at hen
      exact hen.1
    have hsa' : tget u.ipsSas it.sa = some x := by rw [htaken.sas, hsa]
    have hrun := execIpsDecrypt_eq hen hf htake
    cases hopen : Config.gcmOpen x.keyBytes (toBe 4 x.salt ++ slice (espBytes it.frame.bytes o v6) (o + hl + 8) 8) (x.aad q)
        ((espBytes it.frame.bytes o v6).drop (o + hl + 16)) with
    | none =>
      rw [State.ipsDecrypt_bad ho hip hsa' hvalid hin hspi hseq hfresh hopen] at hrun
      obtain ⟨hcnt, hcause, hsas, -, htransit, hing, hband, -, hpipe, hqd, hnt⟩ := s.ipsRefused_spec htaken hlive (n := 2) (c := 0) (by decide) (by decide)
      exact ⟨_, hrun, ⟨hcnt, hsas, hing, hcause⟩, htransit, hband, hpipe, hqd, hnt⟩
    | some plain =>
      rw [State.ipsDecrypt_good ho hip hsa' hvalid hin hspi hseq hfresh hopen] at hrun
      obtain ⟨hing, hsas, -, htransit, hcnt, hrest⟩ := s.ipsPassed_spec htaken it.sa (k := 1) (by decide) x (x.mark q) it.frame
        (espStrip x (espBytes it.frame.bytes o v6) o v6 hl plain) true false
      exact ⟨_, hrun, ⟨hsas, hcnt, hing⟩, htransit, hrest⟩
  · rintro s it x u o hl proto q v6 _ hen hf htake ho hip rfl hsa hvalid hin hspi hseq hold
    have htaken := State.ipsTake_taken htake
    have hlive : s.live pgIPS = true := by
      simp only [State.enabled, Bool.and_eq_true] at hen
      exact hen.1
    have hsa' : tget u.ipsSas it.sa = some x := by rw [htaken.sas, hsa]
    have hrun := execIpsDecrypt_eq hen hf htake
    rw [State.ipsDecrypt_replay ho hip hsa' hvalid hin hspi hseq hold] at hrun
    obtain ⟨hcnt, hcause, hsas, -, htransit, hing, hrest⟩ := s.ipsRefused_spec htaken hlive (n := 3) (c := 0) (by decide) (by decide)
    exact ⟨_, hrun, hing, hsas, hcnt, hcause, htransit, hrest⟩
  · intro s tag hf hlive hfree
    have hrun : execIpsSaWrite tag s = .next (({ s with ipsSas := tset s.ipsSas s.ipsSel { key := (List.range 8).map (fun k => s.rd pgIPS IPS.SA_KEY_KEY k), salt := s.rd pgIPS IPS.SA_SALT_SALT, spi := s.rd pgIPS IPS.SA_SPI_SPI, seq := (s.rd pgIPS IPS.SA_SEQ_LO + s.rd pgIPS IPS.SA_SEQ_HI * 2 ^ 32), cfg := s.saCfgStage.1, cfg2 := s.saCfgStage.2, win := if (s.rd pgIPS IPS.SA_SEQ_LO + s.rd pgIPS IPS.SA_SEQ_HI * 2 ^ 32) = 0 then 0 else 1 } } :
        State).result pgIPS IPS.SA_RES tag DONE) := by
      rw [execIpsSaWrite, State.lineGate_of_live hf hlive]
      simp only [State.ipsSaWrite, hfree, Bool.false_eq_true, if_false]
    generalize tset s.ipsSas s.ipsSel _ = l at *
    obtain ⟨hstatus, htag, hvalid⟩ := State.result_head { s with ipsSas := l } pgIPS IPS.SA_RES tag (st := DONE) [] 0 false (by decide)
    exact ⟨_, hrun, by simp, hstatus, htag, hvalid, by simp⟩
  · intro s tag hf hlive hused
    have hrun : execIpsSaWrite tag s = .next (s.ipsError IPS.SA_RES tag 1) := by
      rw [execIpsSaWrite, State.lineGate_of_live hf hlive]
      simp only [State.ipsSaWrite, hused, if_true]
    obtain ⟨hstatus, htag, hvalid, hcause, hword⟩ := s.resultRaised_spec (r := IPS.SA_RES) tag (st := ERROR) [1] false 4 (by decide) (by decide)
      (by decide) hlive (by decide)
    exact ⟨_, hrun, by simp [State.ipsError], hword 1 (by decide) (by decide), hcause, hstatus, htag, hvalid, by simp [State.ipsError]⟩
  · intro s tag x hf hlive hsa
    have hrun : execIpsSaRead tag s = .next (s.result pgIPS IPS.SA_RES tag DONE [x.spi, x.seq % 2 ^ 32, x.seq / 2 ^ 32, x.cfg, x.cfg2]) := by
      rw [execIpsSaRead, State.lineGate_of_live hf hlive, State.ipsSaRead, hsa]
    obtain ⟨hstatus, htag, hvalid⟩ := s.result_head pgIPS IPS.SA_RES tag (st := DONE) [x.spi, x.seq % 2 ^ 32, x.seq / 2 ^ 32, x.cfg, x.cfg2] 0 false
      (by decide)
    have hword := fun (k : Nat) (hk : 1 ≤ k ∧ k ≤ 15) =>
      s.rd_result_word pgIPS IPS.SA_RES 0 tag DONE [x.spi, x.seq % 2 ^ 32, x.seq / 2 ^ 32, x.cfg, x.cfg2] false hk
    obtain ⟨hband, hline, hpipe, hqd, hhost, hmgmt, hnt⟩ := ((OnlyRegs.refl s).result pgIPS IPS.SA_RES tag DONE
      [x.spi, x.seq % 2 ^ 32, x.seq / 2 ^ 32, x.cfg, x.cfg2] 0 false).frame
    exact ⟨_, hrun, hword 1 (by decide), (hword 2 (by decide)).trans (Nat.mod_mod _ _), hword 3 (by decide), hword 4 (by decide), hword 5 (by decide),
      hstatus, htag, hvalid, hband, hline, hpipe, hqd, hmgmt, hnt, hhost⟩
  · intro s tag x hf hlive hsa
    have hrun : execIpsSaInvalidate tag s = .next (({ s with ipsSas := tset s.ipsSas s.ipsSel { x with cfg := clrBit x.cfg 0 } } : State).result
        pgIPS IPS.SA_RES tag DONE) := by
      rw [execIpsSaInvalidate, State.lineGate_of_live hf hlive, State.ipsSaInvalidate, hsa]
    generalize tset s.ipsSas s.ipsSel _ = l at *
    obtain ⟨hstatus, htag, hvalid⟩ := State.result_head { s with ipsSas := l } pgIPS IPS.SA_RES tag (st := DONE) [] 0 false (by decide)
    exact ⟨_, hrun, by simp, hstatus, htag, hvalid, by simp⟩
  · intro s hf hlive hvalid hdone
    have hrun : execIpsSaAbort s = .next (s.resLate pgIPS IPS.SA_RES) := by
      rw [execIpsSaAbort, State.lineGate_of_live hf hlive]
    obtain ⟨hlate, hstatus⟩ := s.resLate_spec pgIPS IPS.SA_RES hvalid hdone
    obtain ⟨hband, hline, hpipe, hqd, hhost, hmgmt, hnt⟩ := ((OnlyRegs.refl s).resLate pgIPS IPS.SA_RES 0).frame
    exact ⟨_, hrun, hlate, hstatus, hband, hline, hpipe, hqd, hmgmt, hnt, hhost⟩

end Sys2Proof.Machine

/-! PROOFS. Network time: sets, steps, VALID, reads, edges of PPS_IN and their loss. -/

namespace Sys2Proof.Machine
set_option Elab.async false

/-! ### Actions that are not due -/

/-- No action of the queue is due while network time is valid. -/
def State.noneDue (s : State) : Prop := s.ntValid = false ∨ ∀ e ∈ s.taq, s.nt.whole < e.2.target

theorem State.fireDue_of_noneDue {s : State} (h : s.noneDue) (n : Nat) : s.fireDue n = s := by
  cases n with
  | zero => rfl
  | succ n =>
    rw [State.fireDue]
    split
    · next i e he =>
      refine if_neg ?_
      rintro ⟨hvalid, -, hdue⟩
      obtain h | h := h
      · simp [h] at hvalid
      · exact absurd (h (i, e) (earliest_mem he)) (Nat.not_lt.2 hdue)
    · rfl

/-- With nothing due a change of network time only marks the entries. -/
theorem State.fireOverdue_of_noneDue {s : State} (h : s.noneDue) : ∃ l, s.fireOverdue = { s with taq := l } ∧ l.length = s.taq.length := by
  have hmarked : ∀ l : Tbl TaqEntry, (∀ e ∈ l, ∃ x ∈ s.taq, e.2.target = x.2.target) →
      ({ s with taq := l } : State).fireDue 64 = { s with taq := l } := by
    intro l hl
    refine State.fireDue_of_noneDue (s := { s with taq := l }) (h.imp id fun hall e he => ?_) 64
    obtain ⟨x, hx, htarget⟩ := hl e he
    rw [htarget]
    exact hall x hx
  rw [State.fireOverdue]
  split
  · refine ⟨_, hmarked _ fun e he => ?_, List.length_map ..⟩
    obtain ⟨x, hx, rfl⟩ := List.mem_map.1 he
    exact ⟨x, hx, rfl⟩
  · exact ⟨s.taq, rfl, rfl⟩

/-! ### The latches of a new second -/

/-- The keys of the framing units' pages and above. -/
abbrev lfuKey (k : Nat) : Prop := 100663296 ≤ k

/-- What latches of the framing units never touch. -/
def latchRest (s : State) : (BandState × PipeState × QdState × NetTime × Nat) × MgmtState :=
  ((s.toBandState, s.toPipeState, s.toQdState, s.nt, s.ticks), { s.toMgmtState with shadowDue := [] })

theorem latchRest_calm {s t : State} (h : Calm s t) : latchRest t = latchRest s := by
  have hmgmt : { t.toMgmtState with shadowDue := [] } = { s.toMgmtState with shadowDue := [] } := by rw [h.mgmt]
  simp only [latchRest, h.band, h.pipe, h.qd, h.nt, h.ticks, hmgmt]

theorem State.pmLatch_near (s : State) {i : Nat} (hi : i < 16) (b : Bool) : Near lfuKey latchRest s (s.pmLatch i b) := by
  have hwr : ∀ {u : State} (f : Fld) (v n : Nat), Near lfuKey latchRest s u → 256 ≤ f.off ∧ f.off + f.stride * n < 65536 ∧ f.lo < 32 →
      Near lfuKey latchRest s (u.wr (pgLFU i) f v n) := by
    intro u f v n h hf
    refine h.trans (Near.wr v ?_ ?_ rfl) <;> simp only [lfuKey, Fld.key, pgLFU] <;> omega
  have hcounts : Near lfuKey latchRest s ((List.range 8).foldl (fun t n => t.wr (pgLFU i) LFU.PM_CNT ((s.lfu i).run.getD n 0) n) s) := by
    refine Near.foldl_mem _ (fun u n hn => ?_) s
    have hlt := List.mem_range.1 hn
    refine Near.wr _ ?_ ?_ rfl <;> simp only [lfuKey, Fld.key, pgLFU, LFU.PM_CNT] <;> omega
  simp only [State.pmLatch, State.wrAll]
  generalize (List.range 8).foldl (fun t n => t.wr (pgLFU i) LFU.PM_CNT ((s.lfu i).run.getD n 0) n) s = u at hcounts ⊢
  have hshown := hwr LFU.PM_STS_VALID 1 0 (hwr LFU.PM_STS_NT_INVALID (b2n (!s.on pgNTM NTM.NTM_STS_VALID)) 0
    (hwr LFU.PM_STS_PARTIAL (b2n b) 0 (hwr LFU.PM_STS_SEQ (s.rd (pgLFU i) LFU.PM_STS_SEQ + 1) 0 (hwr LFU.PM_SEC_SEC s.nt.sec 0
      (hwr LFU.PM_DEF_FLEXE_DOWN (b2n ((s.lfu i).flexeDown || !s.on (pgLFU i) LFU.FLEXE_STS_GROUP_UP)) 0
        (hwr LFU.PM_DEF_DEF (orBits (s.lfu i).seen (s.otnDefects i)) 0 hcounts (by decide)) (by decide)) (by decide)) (by decide)) (by decide))
          (by decide)) (by decide)
  have hset : ∀ (v : State) (x : Lfu), Near lfuKey latchRest v (v.setLfu i x) := fun v x => ⟨fun _ _ _ => rfl, fun _ _ _ hb => hb, rfl⟩
  exact (hshown.trans (hset _ _)).trans (Near.calm (Calm.raise ..) (latchRest_calm (Calm.raise ..)))

/-! ### A change of network time -/

section
variable (s : State) (t : NetTime) {k : Nat} (a0 a1 : Nat)

/-- Network time as it was loaded, with its count. -/
def State.ntTaken (s : State) (t : NetTime) (k : Nat) : State :=
  ({ s with nt := t.norm, bonStepped := s.bonStepped || s.live pgBON } : State).cnt pgNTM NTM.NTM_CNT k
/-- The cause and the log entry of a step. -/
def State.ntNoted (s : State) (a0 a1 : Nat) : State := (s.raise pgNTM 5).logAppend (pageCode .ntm) 0 0 0x1003 0 a0 a1
/-- The latches of a new second. -/
def State.ntLatched (s : State) (same : Prop) [Decidable same] : State :=
  if same then s else ((List.range 16).filter fun i => s.enabled (pgLFU i)).foldl (fun (st : State) i => st.pmLatch i true) s

theorem State.ntLoad_eq : s.ntLoad t k a0 a1 = (((s.ntTaken t k).ntNoted a0 a1).ntLatched (t.sec = s.nt.sec)).fireOverdue := rfl

theorem State.ntNoted_calm : Calm s (s.ntNoted a0 a1) := (Calm.raise ..).trans (Calm.logAppend ..)
theorem State.ntLatched_near (same : Prop) [Decidable same] : Near lfuKey latchRest s (s.ntLatched same) :=
  Near.ite (.refl s) (Near.foldl_mem _ (fun u _ hi => u.pmLatch_near (List.mem_range.1 (List.mem_filter.1 hi).1) true) s)

theorem ntmCnt_calm (hk : k < 5) : Fld.calmAt NTM.NTM_CNT pgNTM k := by
  simp only [Fld.calmAt, NTM.NTM_CNT, pgNTM]
  omega

theorem State.ntTaken_only : ∃ r, s.ntTaken t k = { s with regs := r, nt := t.norm, bonStepped := s.bonStepped || s.live pgBON } := by
  obtain ⟨r, h⟩ := (OnlyRegs.refl ({ s with nt := t.norm, bonStepped := s.bonStepped || s.live pgBON } : State)).bump pgNTM NTM.NTM_CNT k k 1
  exact ⟨r, by rw [State.ntTaken, State.cnt, h]⟩
theorem State.ntTaken_rd {g : Fld} {j : Nat} (h : g.calmAt pgNTM j) (hne : NTM.NTM_CNT.key pgNTM k ≠ g.key pgNTM j) :
    (s.ntTaken t k).rd pgNTM g j = s.rd pgNTM g j := by
  rw [State.ntTaken, State.cnt_rd_ne _ h hne]
  rfl
theorem State.ntTaken_cnt (hk : k < 5) : (s.ntTaken t k).rd pgNTM NTM.NTM_CNT k = (s.rd pgNTM NTM.NTM_CNT k + 1) % 2 ^ 64 := by
  rw [State.ntTaken, State.cnt, State.bump_rd_same _ _ _ (ntmCnt_calm hk)]
  rfl
theorem State.ntTaken_live (hk : k < 5) (p : Nat) : (s.ntTaken t k).live p = s.live p := by
  rw [State.ntTaken, State.cnt, State.live_bump _ _ _ _ _ _ _ (by simp only [NTM.NTM_CNT]; omega) (by decide) (by decide)]
  rfl
theorem State.ntTaken_causes (hk : k < 5) {c : Nat} (hc : c < 16) (h : bit (s.rd pgNTM COMMON.INT_CAUSE_CAUSE) c = true) :
    bit ((s.ntTaken t k).rd pgNTM COMMON.INT_CAUSE_CAUSE) c = true := by
  rw [State.ntTaken]
  refine State.cause_of_cnt ?_ hc ?_
  · exact h
  · simp only [NTM.NTM_CNT]
    omega

/-- The state of a load before overdue actions, against the state with the time and its count. -/
theorem State.ntLatched_near' (same : Prop) [Decidable same] : Near lfuKey latchRest s ((s.ntNoted a0 a1).ntLatched same) :=
  (Near.calm (s.ntNoted_calm a0 a1) (latchRest_calm (s.ntNoted_calm a0 a1))).trans (State.ntLatched_near ..)

theorem latchRest_parts {s t : State} (h : latchRest t = latchRest s) : t.toBandState = s.toBandState ∧ t.toPipeState = s.toPipeState ∧
    t.toQdState = s.toQdState ∧ t.nt = s.nt ∧ ∃ d, t.toMgmtState = { s.toMgmtState with shadowDue := d } := by
  simp only [latchRest, Prod.mk.injEq] at h
  obtain ⟨⟨hband, hpipe, hqd, hnt, -⟩, hmgmt⟩ := h
  exact ⟨hband, hpipe, hqd, hnt, t.shadowDue, congrArg (fun m : MgmtState => { m with shadowDue := t.shadowDue }) hmgmt⟩

/-- What loading network time does where no action is due: the time, its count and its cause; other registers of NTM that no side effect
writes, the causes that are set and the rest of the device stay. -/
theorem State.ntLoad_spec (hk : k < 5) (hlive : s.live pgNTM = true)
    (hdue : s.ntValid = false ∨ s.taq.all (fun e => decide (t.norm.whole < e.2.target)) = true) :
    (s.ntLoad t k a0 a1).nt = t.norm ∧
    (s.ntLoad t k a0 a1).rd pgNTM NTM.NTM_CNT k = (s.rd pgNTM NTM.NTM_CNT k + 1) % 2 ^ 64 ∧
    bit ((s.ntLoad t k a0 a1).rd pgNTM COMMON.INT_CAUSE_CAUSE) 5 = true ∧
    (∀ (g : Fld) (j : Nat), g.calmAt pgNTM j → NTM.NTM_CNT.key pgNTM k ≠ g.key pgNTM j → (s.ntLoad t k a0 a1).rd pgNTM g j = s.rd pgNTM g j) ∧
    (∀ c, c < 16 → bit (s.rd pgNTM COMMON.INT_CAUSE_CAUSE) c = true → bit ((s.ntLoad t k a0 a1).rd pgNTM COMMON.INT_CAUSE_CAUSE) c = true) ∧
    (∃ l d, (s.ntLoad t k a0 a1).toMgmtState = { s.toMgmtState with bonStepped := s.bonStepped || s.live pgBON, taq := l, shadowDue := d } ∧
      l.length = s.taq.length) ∧
    (s.ntLoad t k a0 a1).toBandState = s.toBandState ∧ (s.ntLoad t k a0 a1).toPipeState = s.toPipeState ∧
    (s.ntLoad t k a0 a1).toQdState = s.toQdState := by
  rw [State.ntLoad_eq]
  obtain ⟨r, hv⟩ := s.ntTaken_only t (k := k)
  have hvrd : ∀ (g : Fld) (j : Nat), g.calmAt pgNTM j → NTM.NTM_CNT.key pgNTM k ≠ g.key pgNTM j → (s.ntTaken t k).rd pgNTM g j = s.rd pgNTM g j :=
    fun g j h hne => s.ntTaken_rd t h hne
  have hvcnt := s.ntTaken_cnt t hk
  have hvlive := (s.ntTaken_live t hk pgNTM).trans hlive
  have hvcauses := fun c hc h => s.ntTaken_causes t hk (c := c) hc h
  generalize s.ntTaken t k = v at *
  have hnear := v.ntLatched_near' a0 a1 (t.sec = s.nt.sec)
  have hcause : bit (((v.ntNoted a0 a1).ntLatched (t.sec = s.nt.sec)).rd pgNTM COMMON.INT_CAUSE_CAUSE) 5 = true :=
    (State.ntLatched_near _ _).causes pgNTM 5 (by decide) (State.cause_of_logAppend _ _ _ _ _ _ _ _ (by decide) (State.raise_sets _ hvlive (by decide)))
  generalize (v.ntNoted a0 a1).ntLatched (t.sec = s.nt.sec) = w at *
  have hkey : ∀ (g : Fld) (j : Nat), g.calmAt pgNTM j → w.rd pgNTM g j = v.rd pgNTM g j := by
    intro g j h
    refine hnear.rd (not_sideKey_of_calmAt h) ?_
    simp only [lfuKey, Fld.key, pgNTM, Fld.calmAt] at h ⊢
    omega
  obtain ⟨hband, hpipe, hqd, hnt, d, hmgmt⟩ := latchRest_parts hnear.part
  have hne : NTM.NTM_CNT.key pgNTM k ≠ NTM.NTM_STS_VALID.key pgNTM 0 := by
    simp only [Fld.key, NTM.NTM_CNT, NTM.NTM_STS_VALID]
    omega
  have hvalid : w.ntValid = s.ntValid := by
    unfold State.ntValid State.on
    rw [hkey _ _ (by decide), hvrd _ _ (by decide) hne]
  have hw : w.nt = t.norm ∧ w.taq = s.taq := by
    rw [hnt, hmgmt, hv]
    exact ⟨rfl, rfl⟩
  have hnone : w.noneDue := by
    rw [State.noneDue, hvalid, hw.1, hw.2]
    refine hdue.imp id fun hall e he => ?_
    exact of_decide_eq_true (List.all_eq_true.1 hall e he)
  obtain ⟨l, hfire, hlen⟩ := State.fireOverdue_of_noneDue hnone
  rw [hfire]
  refine ⟨hw.1, (hkey _ _ (ntmCnt_calm hk)).trans hvcnt, hcause, fun g j h hg => (hkey g j h).trans (hvrd g j h hg),
    fun c hc h => hnear.causes pgNTM c hc (hvcauses c hc h), ⟨l, d, ?_, hlen.trans (congrArg List.length hw.2)⟩, ?_, ?_, ?_⟩
  · rw [hmgmt, hv]
  · exact hband.trans (by rw [hv])
  · exact hpipe.trans (by rw [hv])
  · exact hqd.trans (by rw [hv])
end

end Sys2Proof.Machine

/-! PROOFS. Network time: the obligation. -/

namespace Sys2Proof.Machine
set_option Elab.async false

/-! ### Pending sets and the control word -/

section
variable (s : State) (op : Nat)

theorem State.ntPend_only : ∃ r, s.ntPend op = { s with regs := r, ntPending := op } := ⟨_, rfl⟩
theorem State.ntPend_rd {g : Fld} {j : Nat} (h : NTM.NTM_STS_SET_PENDING.key pgNTM 0 ≠ g.key pgNTM j) :
    (s.ntPend op).rd pgNTM g j = s.rd pgNTM g j := State.rd_wr_ne _ _ h
theorem State.ntPend_shows : (s.ntPend op).rd pgNTM NTM.NTM_STS_SET_PENDING = b2n (decide (op ≠ 0)) := by
  rw [State.ntPend, State.rd_parts, State.put, State.rd_wr_same, b2n_mod _ _ (by decide)]
theorem State.ntPend_live (p : Nat) : (s.ntPend op).live p = s.live p := State.wr_live _ _ _ (by decide)

/-- The staged seconds with some nanoseconds. -/
def State.ntStaged (s : State) (ns : Nat) : NetTime := ⟨s.rd pgNTM NTM.NT_SET_SEC_LO_SEC + s.rd pgNTM NTM.NT_SET_SEC_HI_SEC * 2 ^ 32, ns, 0⟩

/-- A set whose nanoseconds lie in a second. -/
theorem State.ntSet_in (h : s.rd pgNTM NTM.NT_SET_NS_NS < 1000000000) : s.ntSet = (s, s.ntStaged (s.rd pgNTM NTM.NT_SET_NS_NS)) := by
  rw [State.ntSet, if_pos h]
  rfl
theorem State.ntSet_out (h : 1000000000 ≤ s.rd pgNTM NTM.NT_SET_NS_NS) : s.ntSet = ((s.draw 30).2, s.ntStaged ((s.draw 30).1 % 1000000000)) := by
  rw [State.ntSet, if_neg (Nat.not_lt.2 h)]
  rfl

/-- The fields of NTM_CTL. -/
theorem ntmCtl_fields : ((pageFields .ntm).filter fun f => (f.idx 0x100).isSome) =
    [NTM.NTM_CTL_VALID, NTM.NTM_CTL_PPS_LOSS_INVAL, NTM.NTM_CTL_PPS_OUT_EN, NTM.NTM_CTL_TOD_TX_EN, NTM.NTM_CTL_TOD_RX_EN] := by
  decide +kernel

/-- A stored control word changes nothing but the control register. -/
theorem State.ntmCtl_stored (v : Nat) : ∃ r, s.storeWord pgNTM 0x100 v = { s with regs := r } ∧
    ∀ g : Fld, g.off ≠ 0x100 → g.lo < 32 → (s.storeWord pgNTM 0x100 v).rd pgNTM g = s.rd pgNTM g := by
  have hpage : pageAt pgNTM = some (.ntm, 0) := rfl
  have hfields : s.storeWord pgNTM 0x100 v = (((((s.wr pgNTM NTM.NTM_CTL_VALID (bits v 0 1)).wr pgNTM NTM.NTM_CTL_PPS_LOSS_INVAL (bits v 1 1)).wr
      pgNTM NTM.NTM_CTL_PPS_OUT_EN (bits v 2 1)).wr pgNTM NTM.NTM_CTL_TOD_TX_EN (bits v 3 1)).wr pgNTM NTM.NTM_CTL_TOD_RX_EN (bits v 4 1)) := by
    rw [storeWord_fields hpage, ntmCtl_fields]
    rfl
  rw [hfields]
  refine ⟨_, rfl, fun g hoff hlo => ?_⟩
  rw [State.rd_wr_ne, State.rd_wr_ne, State.rd_wr_ne, State.rd_wr_ne, State.rd_wr_ne] <;>
    simp only [Fld.key, NTM.NTM_CTL_VALID, NTM.NTM_CTL_PPS_LOSS_INVAL, NTM.NTM_CTL_PPS_OUT_EN, NTM.NTM_CTL_TOD_TX_EN, NTM.NTM_CTL_TOD_RX_EN] <;> omega

theorem State.setValid_only (v : Bool) : ∃ r, s.setValid v = { s with regs := r, ntArm := if v ∧ ¬ s.ntValid then s.ticks else s.ntArm } := by
  rw [State.setValid]
  split
  · exact ⟨_, rfl⟩
  · exact ⟨_, rfl⟩
theorem State.ntValid_setValid (v : Bool) : (s.setValid v).ntValid = v := by
  have h : (s.setValid v).rd pgNTM NTM.NTM_STS_VALID = b2n v := by
    rw [State.setValid, State.put, State.rd_wr_ne _ _ (by decide), State.put, State.rd_wr_same, b2n_mod _ _ (by decide)]
  unfold State.ntValid State.on
  rw [h]
  cases v <;> rfl

/-- The state of a written control word before VALID follows it. -/
def State.ntmCtlStored (s : State) (v : Nat) : State :=
  let s1 := (s.storeWord pgNTM 0x100 v).put pgNTM NTM.NTM_CTL_VALID (s.on pgNTM NTM.NTM_CTL_VALID)
  if bit v 1 && !s.on pgNTM NTM.NTM_CTL_PPS_LOSS_INVAL then { s1 with ntArm := s1.ticks } else s1

theorem State.ntmCtlStored_spec (v : Nat) : (s.ntmCtlStored v).ntValid = s.ntValid ∧ ∃ r a, s.ntmCtlStored v = { s with regs := r, ntArm := a } := by
  obtain ⟨r, hr, hrd⟩ := s.ntmCtl_stored v
  have hvalid : ∀ (u : State) (b : Bool), (∀ g : Fld, g.off ≠ 0x100 → g.lo < 32 → u.rd pgNTM g = s.rd pgNTM g) →
      (u.put pgNTM NTM.NTM_CTL_VALID b).ntValid = s.ntValid := by
    intro u b hu
    unfold State.ntValid State.on
    rw [State.put, State.rd_wr_ne _ _ (by decide), hu _ (by decide) (by decide)]
  have honly : ∀ b : Bool, ∃ q, (s.storeWord pgNTM 0x100 v).put pgNTM NTM.NTM_CTL_VALID b = { s with regs := q } := by
    intro b
    rw [hr]
    exact ⟨_, rfl⟩
  have hput := hvalid _ (s.on pgNTM NTM.NTM_CTL_VALID) hrd
  obtain ⟨q, hq⟩ := honly (s.on pgNTM NTM.NTM_CTL_VALID)
  rw [State.ntmCtlStored]
  generalize (s.storeWord pgNTM 0x100 v).put pgNTM NTM.NTM_CTL_VALID (s.on pgNTM NTM.NTM_CTL_VALID) = u at *
  split
  · exact ⟨hput, q, u.ticks, by rw [hq]⟩
  · exact ⟨hput, q, s.ntArm, hq⟩
theorem State.ntmCtlWrite_eq (v : Nat) : s.ntmCtlWrite v = if bit v 0 ∧ ¬ s.ntValid then ((s.ntmCtlStored v).setValid true).fireOverdue
    else (s.ntmCtlStored v).setValid (bit v 0) := rfl
end

/-! ### An edge of PPS_IN -/

section
variable (s : State)

/-- The captured edge, before the set that waits for it. -/
def State.ppsCaptured (s : State) : State :=
  (({ s with ppsAt := some s.ticks, ppsCap := s.nt.shift (-(((s.rd pgNTM NTM.PPS_CFG_IN_COMP * 2 ^ 48 : Nat)) : Int)), todSec := none } : State).cnt
    pgNTM NTM.NTM_CNT 0).raise pgNTM 0 |>.wr pgNTM NTM.NTM_STS_PPS_SEEN 1

theorem State.ppsEdge_plain (h2 : s.ntPending ≠ 2) (h3 : s.ntPending ≠ 3 ∨ s.todSec = none) : s.ppsEdge = s.ppsCaptured := by
  rw [State.ppsEdge, if_neg h2]
  split
  · next sec h3' htod => exact absurd htod (by obtain h | h := h3 <;> simp_all)
  · rfl
theorem State.ppsEdge_set (h : s.ntPending = 2) : s.ppsEdge = (((s.ppsCaptured.ntPend 0).ntSet).1.ntLoad ((s.ppsCaptured.ntPend 0).ntSet).2 3 0 0) := by
  simp only [State.ppsEdge, h, if_true, State.ppsCaptured]
theorem State.ppsEdge_tod {n : Nat} (h : s.ntPending = 3) (ht : s.todSec = some n) : s.ppsEdge = (s.ppsCaptured.ntPend 0).ntLoad { sec := n } 3 0 0 := by
  simp only [State.ppsEdge, h, ht, State.ppsCaptured]
  rfl

/-- What a captured edge shows, and what it leaves. -/
theorem State.ppsCaptured_mgmt : s.ppsCaptured.toMgmtState = { s.toMgmtState with
    ppsAt := some s.ticks, ppsCap := s.nt.shift (-(((s.rd pgNTM NTM.PPS_CFG_IN_COMP * 2 ^ 48 : Nat)) : Int)), todSec := none } := by
  rw [State.ppsCaptured, State.wr_toMgmtState, State.raise_toMgmtState _ (by decide)]
  exact State.cnt_toMgmtState _ _ _ _
theorem coreParts_cnt_raise_wr (p c : Nat) (f g : Fld) (v n : Nat) :
    coreParts (((s.cnt p f n).raise p c).wr p g v) = coreParts s := by
  have hraise : coreParts ((s.cnt p f n).raise p c) = coreParts (s.cnt p f n) := coreParts_calm (Calm.raise ..)
  have hcnt : coreParts (s.cnt p f n) = coreParts s := by simp [coreParts]
  exact hraise.trans hcnt
theorem State.ppsCaptured_parts : coreParts s.ppsCaptured = coreParts s := by
  rw [State.ppsCaptured, coreParts_cnt_raise_wr]
  rfl
theorem State.ppsCaptured_rd {g : Fld} {j : Nat} (h : g.calmAt pgNTM j) (hcnt : NTM.NTM_CNT.key pgNTM 0 ≠ g.key pgNTM j)
    (hseen : NTM.NTM_STS_PPS_SEEN.key pgNTM 0 ≠ g.key pgNTM j) : s.ppsCaptured.rd pgNTM g j = s.rd pgNTM g j := by
  rw [State.ppsCaptured, State.rd_wr_ne _ _ hseen, State.raise_rd _ _ _ h, State.cnt_rd_ne _ h hcnt]
  rfl
theorem State.ppsCaptured_seen : s.ppsCaptured.rd pgNTM NTM.NTM_STS_PPS_SEEN = 1 := by
  rw [State.ppsCaptured, State.rd_wr_same]
  rfl
theorem State.ppsCaptured_cnt : s.ppsCaptured.rd pgNTM NTM.NTM_CNT 0 = (s.rd pgNTM NTM.NTM_CNT 0 + 1) % 2 ^ 64 := by
  rw [State.ppsCaptured, State.rd_wr_ne _ _ (by decide), State.raise_rd _ _ _ (by decide), State.cnt, State.bump_rd_same _ _ _ (by decide)]
  rfl
theorem State.ppsCaptured_live : s.ppsCaptured.live pgNTM = s.live pgNTM := by
  rw [State.ppsCaptured, State.wr_live _ _ _ (by decide), live_calm (Calm.raise ..), State.cnt, State.live_bump _ _ _ _ _ _ _ (by decide) (by decide) (by decide)]
  rfl
theorem State.ppsCaptured_cause (h : s.live pgNTM = true) : bit (s.ppsCaptured.rd pgNTM COMMON.INT_CAUSE_CAUSE) 0 = true := by
  rw [State.ppsCaptured, State.cause_wr _ (by decide)]
  refine State.raise_sets _ ?_ (by decide)
  rw [State.cnt, State.live_bump _ _ _ _ _ _ _ (by decide) (by decide) (by decide)]
  exact h
theorem State.ppsCaptured_valid : s.ppsCaptured.ntValid = s.ntValid := by
  unfold State.ntValid State.on
  rw [State.ppsCaptured_rd _ (by decide) (by decide) (by decide)]
end

/-! ### A set that was or was not pending -/

/-- A set or a step with nothing due: network time, its count and cause 5, and no set pending any more. -/
theorem State.ntPend_load {s : State} {t : NetTime} {k : Nat} (a0 a1 : Nat) (hk : k < 5) (hlive : s.live pgNTM = true)
    (hdue : s.ntValid = false ∨ s.taq.all (fun e => decide (t.norm.whole < e.2.target)) = true) :
    ∃ v, (s.ntPend 0).ntLoad t k a0 a1 = v ∧ v.nt = t.norm ∧ v.ntPending = 0 ∧
    v.rd pgNTM NTM.NTM_CNT k = (s.rd pgNTM NTM.NTM_CNT k + 1) % 2 ^ 64 ∧
    bit (v.rd pgNTM COMMON.INT_CAUSE_CAUSE) 5 = true ∧
    (∀ (g : Fld) (j : Nat), g.calmAt pgNTM j → NTM.NTM_CNT.key pgNTM k ≠ g.key pgNTM j →
      NTM.NTM_STS_SET_PENDING.key pgNTM 0 ≠ g.key pgNTM j → v.rd pgNTM g j = s.rd pgNTM g j) ∧
    (∀ c, c < 16 → bit (s.rd pgNTM COMMON.INT_CAUSE_CAUSE) c = true → bit (v.rd pgNTM COMMON.INT_CAUSE_CAUSE) c = true) ∧
    v.taq.length = s.taq.length ∧ v.ppsAt = s.ppsAt ∧ v.ppsCap = s.ppsCap ∧ v.todSec = s.todSec ∧
    v.toBandState = s.toBandState ∧ v.toPipeState = s.toPipeState ∧ v.toQdState = s.toQdState := by
  have hrd := fun (g : Fld) (j : Nat) => s.ntPend_rd 0 (g := g) (j := j)
  have hlive' := (s.ntPend_live 0 pgNTM).trans hlive
  have hvalid : (s.ntPend 0).ntValid = s.ntValid := by
    unfold State.ntValid State.on
    rw [hrd _ _ (by decide)]
  obtain ⟨r, hr⟩ := s.ntPend_only 0
  have htaq : (s.ntPend 0).taq = s.taq := by rw [hr]
  obtain ⟨hnt, hcnt, hcause, hkept, hcauses, ⟨l, d, hmgmt, hlen⟩, hband, hpipe, hqd⟩ :=
    State.ntLoad_spec (s.ntPend 0) t a0 a1 hk hlive' (by rwa [hvalid, htaq])
  have hcntKey : NTM.NTM_STS_SET_PENDING.key pgNTM 0 ≠ NTM.NTM_CNT.key pgNTM k := by
    simp only [Fld.key, NTM.NTM_CNT, NTM.NTM_STS_SET_PENDING]
    omega
  generalize (s.ntPend 0).ntLoad t k a0 a1 = v at *
  have hm : v.ntPending = 0 ∧ v.taq.length = s.taq.length ∧ v.ppsAt = s.ppsAt ∧ v.ppsCap = s.ppsCap ∧ v.todSec = s.todSec := by
    rw [htaq] at hlen
    rw [hmgmt, hr]
    exact ⟨rfl, hlen, rfl, rfl, rfl⟩
  obtain ⟨hpend, htaqv, hat, hcap, htod⟩ := hm
  refine ⟨v, rfl, hnt, hpend, ?_, hcause, fun g j h hc hp => ?_, fun c hc hb => ?_, htaqv, hat, hcap, htod, ?_, ?_, ?_⟩
  · rw [hcnt, hrd _ _ hcntKey]
  · rw [hkept g j h hc, hrd _ _ hp]
  · exact hcauses c hc (by rwa [hrd _ _ (by decide)])
  · rw [hband, hr]
  · rw [hpipe, hr]
  · rw [hqd, hr]

/-- An edge of PPS_IN whose pending set or ToD message gives the time T. -/
theorem State.ppsCaptured_load {s : State} {t : NetTime} (hlive : s.live pgNTM = true)
    (hdue : s.ntValid = false ∨ s.taq.all (fun e => decide (t.norm.whole < e.2.target)) = true) :
    ∃ v, (s.ppsCaptured.ntPend 0).ntLoad t 3 0 0 = v ∧ v.ppsAt = some s.ticks ∧
      v.ppsCap = s.nt.shift (-(((s.rd pgNTM NTM.PPS_CFG_IN_COMP * 2 ^ 48 : Nat)) : Int)) ∧ v.todSec = none ∧
      v.rd pgNTM NTM.NTM_STS_PPS_SEEN = 1 ∧ v.rd pgNTM NTM.NTM_CNT 0 = (s.rd pgNTM NTM.NTM_CNT 0 + 1) % 2 ^ 64 ∧
      bit (v.rd pgNTM COMMON.INT_CAUSE_CAUSE) 0 = true ∧ v.nt = t.norm ∧ v.ntPending = 0 ∧
      v.toBandState = s.toBandState ∧ v.toPipeState = s.toPipeState ∧ v.toQdState = s.toQdState := by
  have hmgmt := s.ppsCaptured_mgmt
  have hparts := s.ppsCaptured_parts
  have hseen := s.ppsCaptured_seen
  have hcnt := s.ppsCaptured_cnt
  have hcause := s.ppsCaptured_cause hlive
  have hlive' := s.ppsCaptured_live.trans hlive
  have hvalid := s.ppsCaptured_valid
  generalize s.ppsCaptured = u at *
  have hm : u.taq = s.taq ∧ u.ppsAt = some s.ticks ∧
      u.ppsCap = s.nt.shift (-(((s.rd pgNTM NTM.PPS_CFG_IN_COMP * 2 ^ 48 : Nat)) : Int)) ∧ u.todSec = none := by
    rw [hmgmt]
    exact ⟨rfl, rfl, rfl, rfl⟩
  obtain ⟨htaq, hat, hcap, htod⟩ := hm
  simp only [coreParts, Prod.mk.injEq] at hparts
  obtain ⟨hband, -, hpipe, hqd, -⟩ := hparts
  obtain ⟨v, hv, hnt, hpend, -, -, hkept, hcauses, -, hat', hcap', htod', hband', hpipe', hqd'⟩ :=
    State.ntPend_load (s := u) (t := t) (k := 3) 0 0 (by decide) hlive' (by rwa [hvalid, htaq])
  exact ⟨v, hv, hat'.trans hat, hcap'.trans hcap, htod'.trans htod, (hkept _ _ (by decide) (by decide) (by decide)).trans hseen,
    (hkept _ _ (by decide) (by decide) (by decide)).trans hcnt, hcauses _ (by decide) hcause, hnt, hpend, hband'.trans hband,
    hpipe'.trans hpipe, hqd'.trans hqd⟩

/-- A pending set by NT_CMD. -/
theorem State.ntPend_spec {s : State} (op : Nat) : ∃ v, s.ntPend op = v ∧ v.ntPending = op ∧
    v.rd pgNTM NTM.NTM_STS_SET_PENDING = b2n (decide (op ≠ 0)) ∧ v.toBandState = s.toBandState ∧ v.toPipeState = s.toPipeState ∧
    v.toQdState = s.toQdState ∧ v.toLineState = s.toLineState ∧ v.toHostState = s.toHostState ∧ v.nt = s.nt := by
  have hshows := s.ntPend_shows op
  obtain ⟨r, hr⟩ := s.ntPend_only op
  refine ⟨_, rfl, ?_, hshows, ?_⟩
  · rw [hr]
  · rw [hr]
    exact ⟨rfl, rfl, rfl, rfl, rfl, rfl⟩

/-! ### The obligation -/

/-- Settles O48, clause by clause: the operations of NT_CMD by their equations, a set or a step with nothing due by `ntPend_load`, an edge of
PPS_IN by what its capture leaves. -/
theorem networkTimeCommands : Obligations.NetworkTimeCommands := by
  unfold Obligations.NetworkTimeCommands
  refine ⟨?_, ?_, ?_, ?_, ?_, ?_, ?_, ?_, ?_, ?_, ?_, ?_, ?_, ?_, ?_⟩
  · rintro s T hlive hns rfl hdue
    have hns' : (s.ntPend 0).rd pgNTM NTM.NT_SET_NS_NS < 1000000000 := by rwa [State.ntPend_rd _ _ (by decide)]
    have hstaged : (s.ntPend 0).ntStaged ((s.ntPend 0).rd pgNTM NTM.NT_SET_NS_NS) = s.ntStaged (s.rd pgNTM NTM.NT_SET_NS_NS) := by
      simp only [State.ntStaged]
      rw [State.ntPend_rd _ _ (by decide), State.ntPend_rd _ _ (by decide), State.ntPend_rd _ _ (by decide)]
    have hrun : exec .ntSetNow s = .next ((s.ntPend 0).ntLoad (s.ntStaged (s.rd pgNTM NTM.NT_SET_NS_NS)) 3 0 0) := by
      rw [← hstaged]
      refine congrArg Host.Outcome.next ((State.gate_of_live hlive _).trans ?_)
      rw [State.ntSetNow, State.ntSet_in _ hns']
    obtain ⟨v, hv, hnt, hpend, hcnt, hcause, -, -, hlen, -, -, -, hband, hpipe, hqd⟩ :=
      State.ntPend_load (s := s) (t := s.ntStaged (s.rd pgNTM NTM.NT_SET_NS_NS)) (k := 3) 0 0 (by decide) hlive hdue
    exact ⟨v, hv ▸ hrun, hnt, hpend, hcnt, hcause, hlen, hband, hpipe, hqd⟩
  · intro s hlive hns htaq
    have hns' : 1000000000 ≤ (s.ntPend 0).rd pgNTM NTM.NT_SET_NS_NS := by rwa [State.ntPend_rd _ _ (by decide)]
    have hstaged : ∀ n, (s.ntPend 0).ntStaged n = s.ntStaged n := by
      intro n
      simp only [State.ntStaged]
      rw [State.ntPend_rd _ _ (by decide), State.ntPend_rd _ _ (by decide)]
    have hrun : exec .ntSetNow s = .next ((((s.draw 30).2).ntPend 0).ntLoad (s.ntStaged (((s.ntPend 0).draw 30).1 % 1000000000)) 3 0 0) := by
      rw [← hstaged]
      refine congrArg Host.Outcome.next ((State.gate_of_live hlive _).trans ?_)
      rw [State.ntSetNow, State.ntSet_out _ hns']
      rfl
    obtain ⟨v, hv, hnt, hpend, hcnt, hcause, -, -, -, -, -, -, hband, hpipe, hqd⟩ :=
      State.ntPend_load (s := (s.draw 30).2) (t := s.ntStaged (((s.ntPend 0).draw 30).1 % 1000000000)) (k := 3) 0 0 (by decide) hlive
        (.inr (by rw [State.draw, htaq]; rfl))
    exact ⟨v, hv ▸ hrun, ⟨_, Nat.mod_lt _ (by decide), hnt⟩, hpend, hcnt, hcause, hband, hpipe, hqd⟩
  · intro s hlive
    obtain ⟨v, hv, hpend, hshows, hrest⟩ := State.ntPend_spec (s := s) 2
    exact ⟨v, congrArg Host.Outcome.next ((State.gate_of_live hlive _).trans hv), hpend, hshows, hrest⟩
  · intro s hlive
    obtain ⟨v, hv, hpend, hshows, hrest⟩ := State.ntPend_spec (s := s) 3
    exact ⟨v, congrArg Host.Outcome.next ((State.gate_of_live hlive _).trans hv), hpend, hshows, hrest⟩
  · intro s hlive
    obtain ⟨v, hv, hpend, hshows, hrest⟩ := State.ntPend_spec (s := s) 0
    exact ⟨v, congrArg Host.Outcome.next ((State.gate_of_live hlive _).trans hv), hpend, hshows, hrest⟩
  · rintro s T hlive hle hge rfl hdue
    have hstep : s.ntStepCmd = (s.ntPend 0).ntLoad (NetTime.ofTotal ((s.nt.total : Int) + (signedOf 32 (s.rd pgNTM NTM.STEP_SEC_SEC) *
        1000000000 + signedOf 32 (s.rd pgNTM NTM.STEP_NS_NS)) * (2 : Int) ^ 48).toNat) 4 (s.rd pgNTM NTM.STEP_NS_NS) (s.rd pgNTM NTM.STEP_SEC_SEC) :=
      if_neg (by omega)
    obtain ⟨v, hv, hnt, hpend, hcnt, hcause, -, -, -, -, -, -, hband, hpipe, hqd⟩ :=
      State.ntPend_load (s := s) (k := 4) (s.rd pgNTM NTM.STEP_NS_NS) (s.rd pgNTM NTM.STEP_SEC_SEC) (by decide) hlive hdue
    exact ⟨v, congrArg Host.Outcome.next ((State.gate_of_live hlive State.ntStepCmd).trans (hstep.trans hv)), hnt, hpend, hcnt, hcause, hband, hpipe, hqd⟩
  · intro s hlive hout
    have hrun : exec .ntStep s = .next (s.raise pgNTM 6) :=
      congrArg Host.Outcome.next ((State.gate_of_live hlive State.ntStepCmd).trans (if_pos hout))
    refine ⟨_, hrun, State.raise_sets _ hlive (by decide), ?_⟩
    rw [State.raise_toMgmtState _ (by decide)]
    simp
  · intro s v hlive hv hvalid hall hok
    obtain ⟨hstored, r, a, honly⟩ := s.ntmCtlStored_spec v
    have hrun : exec (.ntmValidWrite v) s = .next ((s.ntmCtlStored v).setValid true).fireOverdue := by
      refine congrArg Host.Outcome.next ((State.gate_of_live hlive _).trans ?_)
      rw [State.ntmCtlWrite_eq, if_pos ⟨hv, by simp [hvalid]⟩]
    obtain ⟨r', hset⟩ := (s.ntmCtlStored v).setValid_only true
    have hnow := (s.ntmCtlStored v).ntValid_setValid true
    rw [hstored, if_pos ⟨rfl, by simp [hvalid]⟩] at hset
    generalize (s.ntmCtlStored v).setValid true = u at *
    rw [honly] at hset
    have hdue : u.noneDue := .inr fun e he => of_decide_eq_true (by rw [hset] at he ⊢; exact List.all_eq_true.1 hall e he)
    obtain ⟨l, hfire, -⟩ := State.fireOverdue_of_noneDue hdue
    refine ⟨_, hrun, ?_⟩
    rw [hfire]
    refine ⟨hnow, ?_⟩
    rw [hset]
    exact ⟨rfl, rfl, rfl, rfl, rfl, rfl⟩
  · intro s v hlive hv
    obtain ⟨-, r, a, honly⟩ := s.ntmCtlStored_spec v
    have hrun : exec (.ntmValidWrite v) s = .next ((s.ntmCtlStored v).setValid false) := by
      refine congrArg Host.Outcome.next ((State.gate_of_live hlive _).trans ?_)
      rw [State.ntmCtlWrite_eq, if_neg (by simp [hv]), hv]
    obtain ⟨r', hset⟩ := (s.ntmCtlStored v).setValid_only false
    refine ⟨_, hrun, State.ntValid_setValid _ _, ?_⟩
    rw [hset, honly]
    exact ⟨rfl, rfl, rfl, rfl, rfl, rfl⟩
  · intro s who capture hlive
    refine ⟨_, congrArg Host.Outcome.next (if_pos hlive), ?_⟩
    cases capture
    · exact ⟨rfl, rfl, rfl, rfl, rfl, rfl, rfl, rfl, rfl⟩
    · exact ⟨rfl, rfl, rfl, rfl, rfl, rfl, rfl, rfl, rfl⟩
  · intro s hlive h2 h3
    have hrun : exec .ppsInEdge s = .next s.ppsCaptured :=
      congrArg Host.Outcome.next ((State.gate_of_live hlive State.ppsEdge).trans (s.ppsEdge_plain h2 h3))
    have hmgmt := s.ppsCaptured_mgmt
    have hparts := s.ppsCaptured_parts
    have hseen := s.ppsCaptured_seen
    have hcnt := s.ppsCaptured_cnt
    have hcause := s.ppsCaptured_cause hlive
    generalize s.ppsCaptured = u at *
    simp only [coreParts, Prod.mk.injEq] at hparts
    obtain ⟨hband, hline, hpipe, hqd, hnt⟩ := hparts
    refine ⟨u, hrun, ?_, ?_, ?_, hseen, hcnt, hcause, hband, hpipe, hqd, hline, hnt⟩ <;> rw [hmgmt]
  · rintro s T hlive hpend hns rfl hdue
    have hrd : ∀ f : Fld, f.calmAt pgNTM 0 → NTM.NTM_STS_SET_PENDING.key pgNTM 0 ≠ f.key pgNTM 0 → NTM.NTM_CNT.key pgNTM 0 ≠ f.key pgNTM 0 →
        NTM.NTM_STS_PPS_SEEN.key pgNTM 0 ≠ f.key pgNTM 0 → (s.ppsCaptured.ntPend 0).rd pgNTM f = s.rd pgNTM f := by
      intro f h hp hc hs
      rw [State.ntPend_rd _ _ hp, State.ppsCaptured_rd _ h hc hs]
    have hstaged : (s.ppsCaptured.ntPend 0).ntSet = (s.ppsCaptured.ntPend 0, s.ntStaged (s.rd pgNTM NTM.NT_SET_NS_NS)) := by
      rw [State.ntSet_in _ (by rwa [hrd _ (by decide) (by decide) (by decide) (by decide)])]
      simp only [State.ntStaged]
      rw [hrd _ (by decide) (by decide) (by decide) (by decide), hrd _ (by decide) (by decide) (by decide) (by decide),
        hrd _ (by decide) (by decide) (by decide) (by decide)]
    obtain ⟨v, hv, hrest⟩ := State.ppsCaptured_load (s := s) (t := s.ntStaged (s.rd pgNTM NTM.NT_SET_NS_NS)) hlive hdue
    refine ⟨v, ?_, hrest⟩
    refine congrArg Host.Outcome.next ((State.gate_of_live hlive State.ppsEdge).trans ?_)
    rw [s.ppsEdge_set hpend, hstaged, hv]
  · rintro s T n hlive hpend htod rfl hdue
    obtain ⟨v, hv, hrest⟩ := State.ppsCaptured_load (s := s) (t := { sec := n }) hlive hdue
    refine ⟨v, ?_, hrest⟩
    refine congrArg Host.Outcome.next ((State.gate_of_live hlive State.ppsEdge).trans ?_)
    rw [s.ppsEdge_tod hpend htod, hv]
  · intro s n hlive hat hon hlate
    have hrun : exec .ppsLoss s = .next ((s.wr pgNTM NTM.NTM_STS_PPS_SEEN 0).raise pgNTM 1) := by
      refine congrArg Host.Outcome.next ?_
      rw [hat]
      exact if_pos ⟨hon, hlate⟩
    have hcause := State.raise_sets (s := s.wr pgNTM NTM.NTM_STS_PPS_SEEN 0) (p := pgNTM) (c := 1)
      (by rwa [State.wr_live _ _ _ (by decide)]) (by decide)
    refine ⟨_, hrun, ?_, hcause, ?_⟩
    · rw [State.raise_rd _ _ _ (by decide), State.rd_wr_same]
      rfl
    · rw [State.raise_toMgmtState _ (by decide)]
      simp
  · intro s hlive hvalid hinval hlate
    have hrun : exec .ppsLossInvalidate s = .next ((s.setValid false).raise pgNTM 3) :=
      congrArg Host.Outcome.next (if_pos ⟨hvalid, hinval, hlate⟩)
    obtain ⟨r, hset⟩ := s.setValid_only false
    have hnow := s.ntValid_setValid false
    have hlive' : (s.setValid false).live pgNTM = true := by
      rw [State.setValid, State.put, State.wr_live _ _ _ (by decide), State.put, State.wr_live _ _ _ (by decide)]
      exact hlive
    rw [if_neg (by simp)] at hset
    generalize s.setValid false = u at *
    refine ⟨_, hrun, ?_, State.raise_sets _ hlive' (by decide), ?_⟩
    · unfold State.ntValid State.on at hnow ⊢
      rwa [State.raise_rd _ _ _ (by decide)]
    · have hparts : coreParts (u.raise pgNTM 3) = coreParts s := (coreParts_calm (Calm.raise ..)).trans (by rw [hset]; rfl)
      simp only [coreParts, Prod.mk.injEq] at hparts
      obtain ⟨hband, hline, hpipe, hqd, hnt⟩ := hparts
      exact ⟨hband, hpipe, hqd, hline, hnt⟩

end Sys2Proof.Machine

/-! PROOFS. BFD: control packets sent and received, detection, session and template commands. -/

namespace Sys2Proof.Machine
set_option Elab.async false

/-! ### Bytes replaced in a packet -/

theorem length_patch {l x : List Byte} {off : Nat} (h : off ≤ l.length) : (patch l off x).length = l.length := by
  simp only [patch, List.length_append, List.length_take, List.length_drop]
  omega
/-- What stands behind the replaced bytes stays. -/
theorem drop_patch {l x : List Byte} {off m : Nat} (h : off + x.length ≤ m) (hm : off + x.length ≤ l.length) : (patch l off x).drop m = l.drop m := by
  have hhead : (l.take off ++ x.take (l.length - off)).length = off + x.length := by
    simp only [List.length_append, List.length_take]
    omega
  rw [patch, List.drop_append, List.drop_of_length_le (by omega), List.nil_append, hhead, List.drop_drop]
  congr 1
  omega

/-- A UDP checksum leaves the bytes behind the UDP header. -/
theorem udpFix_tail {l : List Byte} {o hl k : Nat} (v6 : Bool) (h : o + hl + 8 + k ≤ l.length) :
    (udpFix l o hl v6).length = l.length ∧ (udpFix l o hl v6).drop (l.length - k) = l.drop (l.length - k) := by
  rw [udpFix]
  exact ⟨length_patch (by omega), drop_patch (by rw [length_toBe]; omega) (by rw [length_toBe]; omega)⟩
/-- An IPv4 header checksum leaves the bytes behind the header. -/
theorem ip4Fix_tail {l : List Byte} {o k : Nat} (h : o + 12 + k ≤ l.length) :
    (ip4Fix o l).length = l.length ∧ (ip4Fix o l).drop (l.length - k) = l.drop (l.length - k) := by
  rw [ip4Fix]
  have hz : (patch l (o + 10) [0, 0]).length = l.length := length_patch (by omega)
  have hzero : (patch l (o + 10) [0, 0]).drop (l.length - k) = l.drop (l.length - k) :=
    drop_patch (by simp only [List.length_cons, List.length_nil]; omega) (by simp only [List.length_cons, List.length_nil]; omega)
  exact ⟨(length_patch (by omega)).trans hz, (drop_patch (by rw [length_toBe]; omega) (by rw [length_toBe]; omega)).trans hzero⟩

theorem length_wordsToBytes (ws : List Nat) : (wordsToBytes ws).length = 4 * ws.length := by
  induction ws with
  | nil => rfl
  | cons w ws ih =>
    rw [wordsToBytes, List.flatMap_cons, List.length_append, length_toBe, ← wordsToBytes, ih, List.length_cons]
    omega

/-! ### The packet that is sent -/

/-- The UDP packet of a session. -/
def bfdUdp (x : List Nat) (pay : List Byte) : List Byte :=
  toBe 2 (bits (sw x 6) 16 16) ++ toBe 2 (if bit (sw x 0) 3 then 4784 else 3784) ++ toBe 2 (8 + pay.length) ++ [0, 0] ++ pay
/-- Its IP header, with two free values. -/
def bfdIp (x : List Nat) (udp : List Byte) (d0 d1 : Nat) : List Byte :=
  if bit (sw x 0) 4 then toBe 4 (6 * 2 ^ 28 + d0) ++ toBe 2 udp.length ++ toBe 1 17 ++ toBe 1 255 ++
    wordsToBytes ((List.range 4).map fun k => sw x (9 + k)) ++ wordsToBytes ((List.range 4).map fun k => sw x (13 + k))
  else toBe 1 0x45 ++ toBe 1 d0 ++ toBe 2 (20 + udp.length) ++ toBe 2 d1 ++ toBe 2 0 ++ toBe 1 255 ++ toBe 1 17 ++ [0, 0] ++
    toBe 4 (sw x 9) ++ toBe 4 (sw x 13)
/-- The packet with its checksums, behind o bytes of the template. -/
def bfdPacket (x : List Nat) (tpl : List Byte) (o : Nat) (pay : List Byte) (d0 d1 : Nat) : List Byte :=
  let l := tpl.take o ++ bfdIp x (bfdUdp x pay) d0 d1 ++ bfdUdp x pay
  udpFix (if bit (sw x 0) 4 then l else ip4Fix o l) o (if bit (sw x 0) 4 then 40 else 20) (bit (sw x 0) 4)

theorem length_bfdUdp (x : List Nat) (pay : List Byte) : (bfdUdp x pay).length = 8 + pay.length := by
  simp only [bfdUdp, List.length_append, length_toBe, List.length_cons, List.length_nil]
theorem length_bfdIp (x : List Nat) (udp : List Byte) (d0 d1 : Nat) : (bfdIp x udp d0 d1).length = if bit (sw x 0) 4 then 40 else 20 := by
  rw [bfdIp]
  split
  · simp only [List.length_append, length_toBe, length_wordsToBytes, List.length_map, List.length_range]
  · simp only [List.length_append, length_toBe, List.length_cons, List.length_nil]
theorem length_bfdPayload (s : State) (n : Nat) (x : List Nat) (c : Nat) : (s.bfdPayload n x c).length = 24 := by
  simp only [State.bfdPayload, List.length_append, length_toBe]

/-- A sent packet ends with its payload. -/
theorem bfdPacket_tail (x : List Nat) {tpl pay : List Byte} {o : Nat} (d0 d1 : Nat) (ho : o ≤ tpl.length) :
    (bfdPacket x tpl o pay d0 d1).drop ((bfdPacket x tpl o pay d0 d1).length - pay.length) = pay := by
  have hhead : (tpl.take o).length = o := by rw [List.length_take]; omega
  have hip := length_bfdIp x (bfdUdp x pay) d0 d1
  have hudp := length_bfdUdp x pay
  have hpay : (tpl.take o ++ bfdIp x (bfdUdp x pay) d0 d1 ++ bfdUdp x pay).drop
      ((tpl.take o ++ bfdIp x (bfdUdp x pay) d0 d1 ++ bfdUdp x pay).length - pay.length) = pay := by
    have hsplit : tpl.take o ++ bfdIp x (bfdUdp x pay) d0 d1 ++ bfdUdp x pay = (tpl.take o ++ bfdIp x (bfdUdp x pay) d0 d1 ++
        (toBe 2 (bits (sw x 6) 16 16) ++ toBe 2 (if bit (sw x 0) 3 then 4784 else 3784) ++ toBe 2 (8 + pay.length) ++ [0, 0])) ++ pay := by
      rw [bfdUdp]
      simp only [List.append_assoc]
    rw [hsplit, List.length_append, Nat.add_sub_cancel, List.drop_left]
  rw [bfdPacket]
  generalize hl : tpl.take o ++ bfdIp x (bfdUdp x pay) d0 d1 ++ bfdUdp x pay = l at *
  have hlen : l.length = o + (if bit (sw x 0) 4 then 40 else 20) + (8 + pay.length) := by
    rw [← hl, List.length_append, List.length_append, hhead, hip, hudp]
  by_cases h6 : bit (sw x 0) 4 = true
  · simp only [h6, if_true] at hlen ⊢
    obtain ⟨hfix, htail⟩ := udpFix_tail true (l := l) (o := o) (hl := 40) (k := pay.length) (by omega)
    rw [hfix, htail, hpay]
  · simp only [h6] at hlen ⊢
    obtain ⟨hip4, htail4⟩ := ip4Fix_tail (l := l) (o := o) (k := pay.length) (by simp at hlen; omega)
    obtain ⟨hfix, htail⟩ := udpFix_tail false (l := ip4Fix o l) (o := o) (hl := 20) (k := pay.length) (by simp at hlen; omega)
    simp only [Bool.false_eq_true, if_false]
    simp only [Bool.not_eq_true] at h6
    rw [hfix, htail, hip4, htail4, hpay]

theorem State.bfdSend_eq (s : State) (n : Nat) : ∃ tpl o d0 d1 f, o ≤ tpl.length ∧ f < 2 ∧ s.bfdSend n =
    (({ s with free := s.free + 3 } : State).cnt pgSVC SVC.SVC_CNT 0).sendTo (bits (sw (s.sessOf n) 7) 0 19) (bits (sw (s.sessOf n) 7) 19 8)
      (bits (sw (s.sessOf n) 8) 0 18) (bits (sw (s.sessOf n) 0) 5 3) (bfdPacket (s.sessOf n) tpl o (s.bfdPayload n (s.sessOf n) f) d0 d1) :=
  ⟨(s.svcTplOf (bits (sw (s.sessOf n) 8) 18 12)).1, _, _, _, _, Nat.min_le_right _ _, Nat.mod_lt _ (by decide), rfl⟩

end Sys2Proof.Machine

/-! PROOFS. BFD: the obligation. -/

namespace Sys2Proof.Machine
set_option Elab.async false

/-! ### The views of the SVC page -/

/-- The fields that the views of the SVC page write. -/
def svcViews : List Fld := [SVC.BFD_UP_COUNT, SVC.EVT_LEVEL_COUNT, SVC.FLOW_CNT_COUNT, SVC.EVT_HEAD_SESSION, SVC.EVT_HEAD_OLD, SVC.EVT_HEAD_NEW,
  SVC.EVT_HEAD_DIAG, SVC.EVT_HEAD_VALID, SVC.EVT_NS_NS, SVC.EVT_SEC_SEC]

section
variable (s : State)

theorem State.svcView_only : OnlyRegs s s.svcView := by
  rw [State.svcView]
  have hcounts := fun v w x => (((OnlyRegs.refl s).wr pgSVC SVC.BFD_UP_COUNT v 0).wr pgSVC SVC.EVT_LEVEL_COUNT w 0).wr pgSVC SVC.FLOW_CNT_COUNT x 0
  split
  · exact (hcounts _ _ _).wrAll ..
  · exact (hcounts _ _ _).wrAll ..
theorem State.svcView_rd {q : Nat} {g : Fld} {j : Nat} (h : ∀ f ∈ svcViews, f.key pgSVC 0 ≠ g.key q j) : s.svcView.rd q g j = s.rd q g j := by
  simp only [svcViews, List.mem_cons, List.not_mem_nil, or_false, forall_eq_or_imp, forall_eq] at h
  obtain ⟨h0, h1, h2, h3, h4, h5, h6, h7, h8, h9⟩ := h
  rw [State.svcView]
  split
  · simp only [State.wrAll]
    rw [State.rd_wr_ne _ _ h9, State.rd_wr_ne _ _ h8, State.rd_wr_ne _ _ h7, State.rd_wr_ne _ _ h6, State.rd_wr_ne _ _ h5, State.rd_wr_ne _ _ h4,
      State.rd_wr_ne _ _ h3, State.rd_wr_ne _ _ h2, State.rd_wr_ne _ _ h1, State.rd_wr_ne _ _ h0]
  · simp only [State.wrAll]
    rw [State.rd_wr_ne _ _ h9, State.rd_wr_ne _ _ h8, State.rd_wr_ne _ _ h7, State.rd_wr_ne _ _ h6, State.rd_wr_ne _ _ h5, State.rd_wr_ne _ _ h4,
      State.rd_wr_ne _ _ h3, State.rd_wr_ne _ _ h2, State.rd_wr_ne _ _ h1, State.rd_wr_ne _ _ h0]
end

/-- A cause of the SVC page and its views after it. -/
theorem State.raisedView_spec (u : State) {c : Nat} (hc : c < 16) (hlive : u.live pgSVC = true) :
    ∃ v, (u.raise pgSVC c).svcView = v ∧ v.sess = u.sess ∧ v.bfdEvents = u.bfdEvents ∧ v.bfdIn = u.bfdIn ∧
      bit (v.rd pgSVC COMMON.INT_CAUSE_CAUSE) c = true ∧ (∀ k, k < 12 → v.rd pgSVC SVC.SVC_CNT k = u.rd pgSVC SVC.SVC_CNT k) ∧
      v.toBandState = u.toBandState ∧ v.toLineState = u.toLineState ∧ v.toPipeState = u.toPipeState ∧ v.toQdState = u.toQdState ∧ v.nt = u.nt := by
  obtain ⟨r, hr⟩ := (u.raise pgSVC c).svcView_only
  have hcause := (u.raise pgSVC c).svcView_rd (q := pgSVC) (g := COMMON.INT_CAUSE_CAUSE) (j := 0) (by decide)
  have hcnt : ∀ k, k < 12 → (u.raise pgSVC c).svcView.rd pgSVC SVC.SVC_CNT k = u.rd pgSVC SVC.SVC_CNT k := by
    intro k hk
    rw [State.svcView_rd _ (by apply of_forall_lt k hk; decide), State.raise_rd _ _ _ (by apply of_forall_lt k hk; decide)]
  refine ⟨_, rfl, ?_, ?_, ?_, ?_, hcnt, ?_⟩
  · rw [hr, State.raise_sess]
  · rw [hr, State.raise_bfdEvents]
  · rw [hr, State.raise_bfdIn]
  · rw [hcause]
    exact State.raise_sets u hlive hc
  · rw [hr]
    simp

/-! ### A session that goes Down -/

/-- The words of session n set Down with a diagnostic. -/
def downWords (x : List Nat) (diag : Nat) : List Nat := lset x 0 (sw x 0 - sessState x + 1 - bits (sw x 0) 16 5 * 65536 + diag * 65536)
/-- The event of it. -/
def State.downEvent (s : State) (n diag : Nat) : BfdEvent := { session := n, old := sessState (s.sessOf n), new := 1, diag := diag, time := s.nt }

section
variable (s : State) (n diag : Nat)

/-- A fall to Down that finds room in the event FIFO. -/
theorem State.bfdDown_room (hlive : s.live pgSVC = true) (h : s.bfdEvents.length < 256) :
    ∃ v, s.bfdDown n diag = v ∧ v.sess = tset s.sess n (downWords (s.sessOf n) diag) ∧ v.bfdEvents = s.bfdEvents ++ [s.downEvent n diag] ∧
      v.bfdIn = s.bfdIn ∧ bit (v.rd pgSVC COMMON.INT_CAUSE_CAUSE) 0 = true ∧ v.rd pgSVC SVC.SVC_CNT 3 = s.rd pgSVC SVC.SVC_CNT 3 ∧
      v.toBandState = s.toBandState ∧ v.toLineState = s.toLineState ∧ v.toPipeState = s.toPipeState ∧ v.toQdState = s.toQdState ∧ v.nt = s.nt := by
  have hdown : s.bfdDown n diag = ({ s with sess := tset s.sess n (downWords (s.sessOf n) diag), bfdEvents := s.bfdEvents ++ [s.downEvent n diag] }.raise
      pgSVC 0).svcView := by
    rw [State.bfdDown, if_pos h]
    rfl
  obtain ⟨v, hv, hsess, hevents, hin, hcause, hcnt, hrest⟩ := State.raisedView_spec
    ({ s with sess := tset s.sess n (downWords (s.sessOf n) diag), bfdEvents := s.bfdEvents ++ [s.downEvent n diag] } : State) (c := 0) (by decide) hlive
  exact ⟨v, hdown.trans hv, hsess, hevents, hin, hcause, hcnt 3 (by decide), hrest⟩

/-- A fall to Down whose event finds the FIFO full. -/
theorem State.bfdDown_full (hlive : s.live pgSVC = true) (h : 256 ≤ s.bfdEvents.length) :
    ∃ v, s.bfdDown n diag = v ∧ v.sess = tset s.sess n (downWords (s.sessOf n) diag) ∧ v.bfdEvents = s.bfdEvents ∧
      v.bfdIn = s.bfdIn ∧ bit (v.rd pgSVC COMMON.INT_CAUSE_CAUSE) 1 = true ∧ v.rd pgSVC SVC.SVC_CNT 4 = (s.rd pgSVC SVC.SVC_CNT 4 + 1) % 2 ^ 64 ∧
      v.toBandState = s.toBandState ∧ v.toLineState = s.toLineState ∧ v.toPipeState = s.toPipeState ∧ v.toQdState = s.toQdState ∧ v.nt = s.nt := by
  have hdown : s.bfdDown n diag = ((({ s with sess := tset s.sess n (downWords (s.sessOf n) diag) } : State).cnt pgSVC SVC.SVC_CNT 4).raise
      pgSVC 1).svcView := by
    rw [State.bfdDown, if_neg (Nat.not_lt.2 h)]
    rfl
  have hu : ∀ u : State, u.live pgSVC = true → ∃ v, ((u.cnt pgSVC SVC.SVC_CNT 4).raise pgSVC 1).svcView = v ∧ v.sess = u.sess ∧
      v.bfdEvents = u.bfdEvents ∧ v.bfdIn = u.bfdIn ∧ bit (v.rd pgSVC COMMON.INT_CAUSE_CAUSE) 1 = true ∧
      v.rd pgSVC SVC.SVC_CNT 4 = (u.rd pgSVC SVC.SVC_CNT 4 + 1) % 2 ^ 64 ∧
      v.toBandState = u.toBandState ∧ v.toLineState = u.toLineState ∧ v.toPipeState = u.toPipeState ∧ v.toQdState = u.toQdState ∧ v.nt = u.nt := by
    intro u hu
    obtain ⟨v, hv, hsess, hevents, hin, hcause, hcnt, hrest⟩ := State.raisedView_spec (u.cnt pgSVC SVC.SVC_CNT 4) (c := 1) (by decide)
      (by rw [State.cnt, State.live_bump _ _ _ _ _ _ _ (by decide) (by decide) (by decide), hu])
    refine ⟨v, hv, hsess.trans (by simp), hevents.trans (by simp), hin.trans (by simp), hcause, ?_, by simpa using hrest⟩
    rw [hcnt 4 (by decide), State.cnt, State.bump_rd_same _ _ _ (by decide)]
    rfl
  obtain ⟨v, hv, hrest⟩ := hu { s with sess := tset s.sess n (downWords (s.sessOf n) diag) } hlive
  exact ⟨v, hdown.trans hv, hrest⟩
end

theorem State.bfdRuns_live {s : State} (h : s.bfdRuns = true) : s.live pgSVC = true := by
  simp only [State.bfdRuns, State.enabled, Bool.and_eq_true] at h
  exact h.1.2.1

/-- A detection time that passed, with room in the FIFO. -/
theorem State.detected_room (s : State) (n : Nat) (hlive : s.live pgSVC = true) (h : s.bfdEvents.length < 256) :
    ∃ v, (s.cnt pgSVC SVC.SVC_CNT 3).bfdDown n 1 = v ∧ v.sess = tset s.sess n (downWords (s.sessOf n) 1) ∧
      v.bfdEvents = s.bfdEvents ++ [s.downEvent n 1] ∧ bit (v.rd pgSVC COMMON.INT_CAUSE_CAUSE) 0 = true ∧
      v.rd pgSVC SVC.SVC_CNT 3 = (s.rd pgSVC SVC.SVC_CNT 3 + 1) % 2 ^ 64 ∧
      v.toBandState = s.toBandState ∧ v.toLineState = s.toLineState ∧ v.toPipeState = s.toPipeState ∧ v.toQdState = s.toQdState ∧ v.nt = s.nt := by
  have hcnt : (s.cnt pgSVC SVC.SVC_CNT 3).rd pgSVC SVC.SVC_CNT 3 = (s.rd pgSVC SVC.SVC_CNT 3 + 1) % 2 ^ 64 := by
    rw [State.cnt, State.bump_rd_same _ _ _ (by decide)]
    rfl
  have hlive' : (s.cnt pgSVC SVC.SVC_CNT 3).live pgSVC = true := by
    rw [State.cnt, State.live_bump _ _ _ _ _ _ _ (by decide) (by decide) (by decide), hlive]
  obtain ⟨v, hv, hsess, hevents, -, hcause, hv3, hrest⟩ := (s.cnt pgSVC SVC.SVC_CNT 3).bfdDown_room n 1 hlive' (by simpa using h)
  exact ⟨v, hv, by simpa [State.sessOf] using hsess, by simpa [State.downEvent, State.sessOf] using hevents, hcause, hv3.trans hcnt, by simpa using hrest⟩
/-- A detection time that passed, with the FIFO full. -/
theorem State.detected_full (s : State) (n : Nat) (hlive : s.live pgSVC = true) (h : 256 ≤ s.bfdEvents.length) :
    ∃ v, (s.cnt pgSVC SVC.SVC_CNT 3).bfdDown n 1 = v ∧ v.sess = tset s.sess n (downWords (s.sessOf n) 1) ∧
      v.bfdEvents = s.bfdEvents ∧ bit (v.rd pgSVC COMMON.INT_CAUSE_CAUSE) 1 = true ∧
      v.rd pgSVC SVC.SVC_CNT 4 = (s.rd pgSVC SVC.SVC_CNT 4 + 1) % 2 ^ 64 ∧
      v.toBandState = s.toBandState ∧ v.toLineState = s.toLineState ∧ v.toPipeState = s.toPipeState ∧ v.toQdState = s.toQdState ∧ v.nt = s.nt := by
  have hcnt : (s.cnt pgSVC SVC.SVC_CNT 3).rd pgSVC SVC.SVC_CNT 4 = s.rd pgSVC SVC.SVC_CNT 4 := State.cnt_rd_ne _ (by decide) (by decide)
  have hlive' : (s.cnt pgSVC SVC.SVC_CNT 3).live pgSVC = true := by
    rw [State.cnt, State.live_bump _ _ _ _ _ _ _ (by decide) (by decide) (by decide), hlive]
  obtain ⟨v, hv, hsess, hevents, -, hcause, hv4, hrest⟩ := (s.cnt pgSVC SVC.SVC_CNT 3).bfdDown_full n 1 hlive' (by simpa using h)
  exact ⟨v, hv, by simpa [State.sessOf] using hsess, by simpa using hevents, hcause, by rwa [hcnt] at hv4, by simpa using hrest⟩

/-! ### Results of the session commands -/

/-- A session command that ends in an error. -/
theorem State.svcError_spec (s : State) (tag : Nat) {e : Nat} (he : e < 2 ^ 32) (hlive : s.live pgSVC = true) :
    ∃ v, s.svcError SVC.SESS_RES tag e = v ∧ v.sess = s.sess ∧ v.svcTpl = s.svcTpl ∧ v.rd pgSVC (SVC.SESS_RES.word 1) = e ∧
      bit (v.rd pgSVC COMMON.INT_CAUSE_CAUSE) 4 = true ∧ v.rd pgSVC SVC.SESS_RES.status = 4 ∧
      v.rd pgSVC SVC.SESS_RES.tag = tag % 256 ∧ v.rd pgSVC SVC.SESS_RES.valid = 1 ∧
      v.toBandState = s.toBandState ∧ v.toLineState = s.toLineState ∧ v.toPipeState = s.toPipeState ∧ v.toQdState = s.toQdState ∧ v.nt = s.nt := by
  obtain ⟨hstatus, htag, hvalid, hcause, hword⟩ := s.resultRaised_spec (r := SVC.SESS_RES) tag (st := ERROR) [e] false 4 (by decide) (by decide)
    (by decide) hlive (by decide)
  exact ⟨_, rfl, by simp [State.svcError], by simp [State.svcError], (hword 1 (by decide) (by decide)).trans (Nat.mod_eq_of_lt he), hcause, hstatus,
    htag, hvalid, by simp [State.svcError]⟩

/-- A session command that ends DONE: registers only. -/
theorem State.svcDone_spec (u : State) (tag : Nat) : ∃ v r, u.result pgSVC SVC.SESS_RES tag DONE = v ∧ v = { u with regs := r } ∧
    v.rd pgSVC SVC.SESS_RES.status = 1 ∧ v.rd pgSVC SVC.SESS_RES.tag = tag % 256 ∧ v.rd pgSVC SVC.SESS_RES.valid = 1 ∧
    ∀ k, k < 20 → v.rd pgSVC SVC.SESS_W_WORD k = u.rd pgSVC SVC.SESS_W_WORD k := by
  obtain ⟨r, hr⟩ := (OnlyRegs.refl u).result pgSVC SVC.SESS_RES tag DONE [] 0 false
  obtain ⟨hstatus, htag, hvalid⟩ := u.result_head pgSVC SVC.SESS_RES tag (st := DONE) [] 0 false (by decide)
  exact ⟨_, r, rfl, hr, hstatus, htag, hvalid, fun k hk => State.rd_result_ne _ _ _ _ _ (by apply of_forall_lt k hk; decide)⟩

theorem State.sessLoad_only (s : State) (ws : List Nat) : OnlyRegs s (s.sessLoad ws) :=
  OnlyRegs.foldl (f := fun (t : State) k => t.wr pgSVC SVC.SESS_W_WORD (sw ws k) k) (fun u _ => (OnlyRegs.refl u).wr ..) _ _
theorem State.sessLoad_rd (s : State) (ws : List Nat) {k : Nat} (hk : k < 20) :
    (s.sessLoad ws).rd pgSVC SVC.SESS_W_WORD k = sw ws k % 2 ^ 32 :=
  State.rd_foldl_wr_mem (β := Nat) (List.range 20) (fun _ => pgSVC) SVC.SESS_W_WORD (sw ws) (fun k => k) s (List.mem_range.2 hk) fun y _ h => by
    simp only [Fld.key, SVC.SESS_W_WORD] at h
    omega

/-- A read into the staging registers. -/
theorem State.sessShown_spec (s : State) (ws : List Nat) (tag : Nat) : ∃ v, (s.sessLoad ws).result pgSVC SVC.SESS_RES tag DONE = v ∧
    (∀ k, k < 20 → v.rd pgSVC SVC.SESS_W_WORD k = sw ws k % 2 ^ 32) ∧
    v.rd pgSVC SVC.SESS_RES.status = 1 ∧ v.rd pgSVC SVC.SESS_RES.tag = tag % 256 ∧ v.rd pgSVC SVC.SESS_RES.valid = 1 ∧
    v.toBandState = s.toBandState ∧ v.toLineState = s.toLineState ∧ v.toPipeState = s.toPipeState ∧ v.toQdState = s.toQdState ∧
    v.toMgmtState = s.toMgmtState ∧ v.nt = s.nt ∧ v.toHostState = s.toHostState := by
  have hrd := fun k (hk : k < 20) => s.sessLoad_rd ws hk
  obtain ⟨r, hr⟩ := s.sessLoad_only ws
  generalize s.sessLoad ws = u at *
  obtain ⟨v, r', hv, hvr, hstatus, htag, hvalid, hword⟩ := u.svcDone_spec tag
  refine ⟨v, hv, fun k hk => (hword k hk).trans (hrd k hk), hstatus, htag, hvalid, ?_⟩
  rw [hvr, hr]
  exact ⟨rfl, rfl, rfl, rfl, rfl, rfl, rfl⟩

/-- A session or template changed, its views, and the result. -/
theorem State.sessDone_spec (u : State) (tag : Nat) : ∃ v r, u.svcView.result pgSVC SVC.SESS_RES tag DONE = v ∧ v = { u with regs := r } ∧
    v.rd pgSVC SVC.SESS_RES.status = 1 ∧ v.rd pgSVC SVC.SESS_RES.tag = tag % 256 ∧ v.rd pgSVC SVC.SESS_RES.valid = 1 := by
  obtain ⟨q, hq⟩ := u.svcView_only
  generalize u.svcView = w at *
  obtain ⟨v, r, hv, hvr, hstatus, htag, hvalid, -⟩ := w.svcDone_spec tag
  exact ⟨v, r, hv, by rw [hvr, hq], hstatus, htag, hvalid⟩

/-! ### Packets sent and received -/

/-- A frame counted and sent to a queue. -/
theorem State.counted_sendTo (u : State) (q d r c : Nat) (l : List Byte) : ∃ v, (u.cnt pgSVC SVC.SVC_CNT 0).sendTo q d r c l = v ∧
    v.toQd = u.toQd ++ [{ bytes := l, fcsGood := true, nhType := 8, queue := q, outPort := d, dest := d * 4096, rewrite := r, cls := c, modified := true, fence := u.fences }] ∧
    v.rd pgSVC SVC.SVC_CNT 0 = (u.rd pgSVC SVC.SVC_CNT 0 + 1) % 2 ^ 64 ∧ v.toHostState = u.toHostState ∧
    v.toBandState = u.toBandState ∧ v.toLineState = u.toLineState ∧ v.toQdState = u.toQdState ∧ v.toMgmtState = u.toMgmtState ∧ v.nt = u.nt := by
  refine ⟨_, rfl, ?_, ?_, ?_⟩
  · simp [State.sendTo]
  · rw [State.sendTo, State.rd_parts, State.cnt, State.bump_rd_same _ _ _ (by decide)]
    rfl
  · simp [State.sendTo]

/-- A packet that is for a session and neither refused nor dropped. -/
def State.bfdFor (s : State) (ttl : Nat) (p : List Byte) : Prop :=
  beAt p 8 4 ≠ 0 ∧ beAt p 8 4 / 65536 = s.rd pgSVC SVC.BFD_DISC_HI_DISC ∧ sessValid (s.sessOf (beAt p 8 4 % 65536)) = true ∧
    bit (beAt p 1 1) 2 = false ∧ bit (beAt p 1 1) 1 = false ∧ bit (beAt p 1 1) 0 = false ∧
    (bit (sw (s.sessOf (beAt p 8 4 % 65536)) 0) 3 = true ∨ ttl = 255)

section
variable {s : State} {f : Frame} {ttl : Nat} {p : List Byte}

theorem State.bfdRx_taken (hbfd : bfdOf f = some (ttl, p)) (h : s.bfdFor ttl p) : s.bfdRx f =
    if sessState (s.sessOf (beAt p 8 4 % 65536)) = 3 ∧ beAt p 1 1 / 64 = 3 ∧ ¬ bit (beAt p 1 1) 5 ∧ ¬ bit (beAt p 1 1) 4 ∧
        decide (beAt p 4 4 = sw (s.sessOf (beAt p 8 4 % 65536)) 1 ∧ beAt p 12 4 = sw (s.sessOf (beAt p 8 4 % 65536)) 4 ∧
          beAt p 16 4 = sw (s.sessOf (beAt p 8 4 % 65536)) 5 ∧ beAt p 2 1 = bits (sw (s.sessOf (beAt p 8 4 % 65536)) 6) 0 8) then
      ({ s with bfdHeard := tset s.bfdHeard (beAt p 8 4 % 65536) s.ticks } : State).cnt pgSVC SVC.SVC_CNT 1
    else if sessState (s.sessOf (beAt p 8 4 % 65536)) = 3 ∧ beAt p 1 1 / 64 ≤ 1 then
      ({ s with bfdHeard := tset s.bfdHeard (beAt p 8 4 % 65536) s.ticks } : State).bfdDown (beAt p 8 4 % 65536) 3
    else ({ s with bfdHeard := tset s.bfdHeard (beAt p 8 4 % 65536) s.ticks } : State).toSp f := by
  obtain ⟨hdisc, hhi, hvalid, h2, h1, h0, httl⟩ := h
  rw [State.bfdRx, hbfd]
  simp only
  rw [if_neg (by simp [hdisc, hhi, hvalid, h2, h1, h0]), if_neg (by obtain h | h := httl <;> simp [h])]

theorem State.bfdRx_none (hbfd : bfdOf f = none) : s.bfdRx f = s.toSp f := by
  rw [State.bfdRx, hbfd]

theorem execBfdRxPacket_eq {rest : List Frame} (hlive : s.live pgSVC = true) (hin : s.bfdIn = f :: rest) :
    exec .bfdRxPacket s = .next (({ s with bfdIn := rest } : State).bfdRx f) := by
  refine congrArg Host.Outcome.next ?_
  rw [hin]
  exact State.gate_of_live (s := { s with bfdIn := rest }) hlive (·.bfdRx f)
end

/-- A packet that a session counts. -/
theorem State.svcCounted (u : State) : ∃ v, u.cnt pgSVC SVC.SVC_CNT 1 = v ∧ v.toHostState = u.toHostState ∧
    v.rd pgSVC SVC.SVC_CNT 1 = (u.rd pgSVC SVC.SVC_CNT 1 + 1) % 2 ^ 64 ∧ v.out = u.out ∧ v.toBandState = u.toBandState ∧ v.toLineState = u.toLineState ∧
    v.toPipeState = u.toPipeState ∧ v.toQdState = u.toQdState ∧ v.toMgmtState = u.toMgmtState ∧ v.nt = u.nt := by
  refine ⟨_, rfl, by simp, ?_, by simp⟩
  rw [State.cnt, State.bump_rd_same _ _ _ (by decide)]
  rfl

/-- A frame handed to the active service processor. -/
theorem State.toSp_sent {u : State} (f : Frame) (hs : u.on pgSPA SPA.IL_STS_SWITCHING = false) (ha : u.on pgSPA SPA.IL_STS_NO_ACTIVE = false) :
    ∃ v, u.toSp f = v ∧ v.toHostState = u.toHostState ∧ v.out = .toProcessor f.bytes :: u.out ∧
      v.rd pgSVC SVC.SVC_CNT 2 = (u.rd pgSVC SVC.SVC_CNT 2 + 1) % 2 ^ 64 ∧ v.toBandState = u.toBandState ∧ v.toLineState = u.toLineState ∧
      v.toPipeState = u.toPipeState ∧ v.toQdState = u.toQdState ∧ v.toMgmtState = u.toMgmtState ∧ v.nt = u.nt := by
  have hsent : u.toSp f = (u.cnt pgSVC SVC.SVC_CNT 2).emit (.toProcessor f.bytes) := if_neg (by simp [hs, ha])
  refine ⟨_, hsent, ?_, ?_, ?_, ?_⟩
  · simp [State.emit]
  · simp [State.emit]
  · change (u.cnt pgSVC SVC.SVC_CNT 2).rd pgSVC SVC.SVC_CNT 2 = _
    rw [State.cnt, State.bump_rd_same _ _ _ (by decide)]
    rfl
  · simp [State.emit]

/-! ### The obligation -/

/-- Settles O46, clause by clause: a packet that is sent ends with its payload whatever the checksums, and a session goes Down by `bfdDown_room` or
`bfdDown_full`. -/
theorem bfdSessionsAndTemplates : Obligations.BfdSessionsAndTemplates := by
  unfold Obligations.BfdSessionsAndTemplates
  refine ⟨?_, ?_, ?_, ?_, ?_, ?_, ?_, ?_, ?_, ?_, ?_, ?_, ?_, ?_, ?_⟩
  · rintro s session n x hruns rfl rfl hvalid hdue
    have hrun : exec (.bfdTxTimer session) s = .next (({ s with bfdSent := tset s.bfdSent (session % 65536) s.ticks } : State).bfdSend (session % 65536)) :=
      congrArg Host.Outcome.next (if_pos ⟨hruns, hvalid, hdue⟩)
    obtain ⟨tpl, o, d0, d1, f, ho, hf, hsend⟩ := State.bfdSend_eq ({ s with bfdSent := tset s.bfdSent (session % 65536) s.ticks } : State) (session % 65536)
    obtain ⟨t, ht, hqd, hcnt, hhost, hrest⟩ := State.counted_sendTo
      ({ s with bfdSent := tset s.bfdSent (session % 65536) s.ticks, free := s.free + 3 } : State) (bits (sw (s.sessOf (session % 65536)) 7) 0 19)
      (bits (sw (s.sessOf (session % 65536)) 7) 19 8) (bits (sw (s.sessOf (session % 65536)) 8) 0 18) (bits (sw (s.sessOf (session % 65536)) 0) 5 3)
      (bfdPacket (s.sessOf (session % 65536)) tpl o (s.bfdPayload (session % 65536) (s.sessOf (session % 65536)) f) d0 d1)
    have htail := bfdPacket_tail (s.sessOf (session % 65536)) (pay := s.bfdPayload (session % 65536) (s.sessOf (session % 65536)) f) d0 d1 ho
    rw [length_bfdPayload] at htail
    exact ⟨t, hrun.trans (congrArg Host.Outcome.next (hsend.trans ht)), congrArg HostState.bfdSent hhost, ⟨_, f, hf, hqd, htail⟩, hcnt, hrest⟩
  · rintro s f rest ttl n p x hlive hin hbfd hdisc hhi rfl rfl hvalid h2 h1 h0 httl hup hst h5 h4 hsame
    have hrun := (execBfdRxPacket_eq hlive hin).trans (congrArg Host.Outcome.next ((State.bfdRx_taken (s := { s with bfdIn := rest }) hbfd
      ⟨hdisc, hhi, hvalid, h2, h1, h0, httl⟩).trans (if_pos ⟨hup, hst, by simp [h5], by simp [h4], decide_eq_true hsame⟩)))
    obtain ⟨v, hv, hhost, hrest⟩ := State.svcCounted { s with bfdIn := rest, bfdHeard := tset s.bfdHeard (beAt p 8 4 % 65536) s.ticks }
    exact ⟨v, hrun.trans (congrArg Host.Outcome.next hv), (congrArg HostState.bfdIn hhost :), (congrArg HostState.bfdHeard hhost :),
      (congrArg HostState.sess hhost :), hrest⟩
  · rintro s f rest ttl n p x hlive hin hbfd hdisc hhi rfl rfl hvalid h2 h1 h0 httl hup hst hroom
    have hrun := (execBfdRxPacket_eq hlive hin).trans (congrArg Host.Outcome.next ((State.bfdRx_taken (s := { s with bfdIn := rest }) hbfd
      ⟨hdisc, hhi, hvalid, h2, h1, h0, httl⟩).trans ((if_neg fun h => by omega).trans (if_pos ⟨hup, hst⟩))))
    obtain ⟨v, hv, hsess, hevents, hrestIn, hcause, -, hrest⟩ := State.bfdDown_room
      ({ s with bfdIn := rest, bfdHeard := tset s.bfdHeard (beAt p 8 4 % 65536) s.ticks } : State) (beAt p 8 4 % 65536) 3 hlive hroom
    exact ⟨v, hrun.trans (congrArg Host.Outcome.next hv), hrestIn, hsess, hevents, hcause, hrest⟩
  · intro s f rest hlive hin hbfd hgap hactive
    obtain ⟨v, hv, hhost, hrest⟩ := State.toSp_sent (u := { s with bfdIn := rest }) f hgap hactive
    exact ⟨v, (execBfdRxPacket_eq hlive hin).trans (congrArg Host.Outcome.next ((State.bfdRx_none hbfd).trans hv)),
      (congrArg HostState.bfdIn hhost :), (congrArg HostState.sess hhost :), hrest⟩
  · rintro s session n x hruns rfl rfl hvalid hst hlate hroom
    obtain ⟨v, hv, hrest⟩ := s.detected_room (session % 65536) (State.bfdRuns_live hruns) hroom
    exact ⟨v, (congrArg Host.Outcome.next (if_pos ⟨hruns, hvalid, hst, hlate⟩)).trans (congrArg Host.Outcome.next hv), hrest⟩
  · rintro s session n x hruns rfl rfl hvalid hst hlate hfull
    obtain ⟨v, hv, hrest⟩ := s.detected_full (session % 65536) (State.bfdRuns_live hruns) hfull
    exact ⟨v, (congrArg Host.Outcome.next (if_pos ⟨hruns, hvalid, hst, hlate⟩)).trans (congrArg Host.Outcome.next hv), hrest⟩
  · intro s cond expect tag hlive hcond
    have hrun : exec (.sessWrite cond expect tag) s = .next (({ s with sess := tset s.sess (s.rd pgSVC SVC.SESS_IDX_INDEX) s.sessStage, bfdHeard := tset s.bfdHeard (s.rd pgSVC SVC.SESS_IDX_INDEX) s.ticks } : State).svcView.result pgSVC SVC.SESS_RES tag DONE) := by
      refine congrArg Host.Outcome.next ((State.gate_of_live hlive _).trans (if_neg ?_))
      rintro ⟨hc, hne⟩
      obtain h | h := hcond
      · simp [h] at hc
      · exact hne h
    obtain ⟨v, r, hv, hvr, hstatus, htag, hvalid⟩ := State.sessDone_spec ({ s with sess := tset s.sess (s.rd pgSVC SVC.SESS_IDX_INDEX) s.sessStage, bfdHeard := tset s.bfdHeard (s.rd pgSVC SVC.SESS_IDX_INDEX) s.ticks } : State) tag
    refine ⟨v, hrun.trans (congrArg Host.Outcome.next hv), ?_, ?_, hstatus, htag, hvalid, ?_⟩ <;> rw [hvr]
    exact ⟨rfl, rfl, rfl, rfl, rfl, rfl⟩
  · intro s expect tag hlive hne
    obtain ⟨v, hv, hsess, -, hrest⟩ := s.svcError_spec tag (e := 1) (by decide) hlive
    exact ⟨v, congrArg Host.Outcome.next ((State.gate_of_live hlive _).trans ((if_pos ⟨rfl, hne⟩).trans hv)), hsess, hrest⟩
  · intro s tag k hlive hk
    obtain ⟨v, hv, hword, hrest⟩ := s.sessShown_spec (s.sessOf (s.rd pgSVC SVC.SESS_IDX_INDEX)) tag
    exact ⟨v, congrArg Host.Outcome.next ((State.gate_of_live hlive _).trans hv), hword k hk, hrest⟩
  · intro s tag hlive
    obtain ⟨v, r, hv, hvr, hstatus, htag, hvalid⟩ := State.sessDone_spec ({ s with sess := tdel s.sess (s.rd pgSVC SVC.SESS_IDX_INDEX), bfdSent := tdel s.bfdSent (s.rd pgSVC SVC.SESS_IDX_INDEX) } : State) tag
    refine ⟨v, congrArg Host.Outcome.next ((State.gate_of_live hlive _).trans hv), ?_, hstatus, htag, hvalid, ?_⟩ <;> rw [hvr]
    exact ⟨rfl, rfl, rfl, rfl, rfl, rfl⟩
  · intro s tag hlive hidx
    obtain ⟨v, r, hv, hvr, hstatus, htag, hvalid, -⟩ := State.svcDone_spec ({ s with svcTpl := tset s.svcTpl (s.rd pgSVC SVC.SESS_IDX_INDEX) ((List.range 17).map (fun k => andBits (s.rd pgSVC SVC.SESS_W_WORD k) (if k = 16 then 0xFF7F else 0xFFFFFFFF))) } : State) tag
    refine ⟨v, congrArg Host.Outcome.next ((State.gate_of_live hlive (·.svcTplWrite tag)).trans ((if_neg (Nat.not_le.2 hidx)).trans hv)), ?_, hstatus, htag, hvalid, ?_⟩ <;> rw [hvr]
    exact ⟨rfl, rfl, rfl, rfl, rfl, rfl⟩
  · intro s tag k hlive hidx hk
    obtain ⟨v, hv, hword, hrest⟩ := s.sessShown_spec (tgetD s.svcTpl (s.rd pgSVC SVC.SESS_IDX_INDEX) (List.replicate 17 0)) tag
    exact ⟨v, congrArg Host.Outcome.next ((State.gate_of_live hlive _).trans ((if_neg (Nat.not_le.2 hidx)).trans hv)), hword k (by omega), hrest⟩
  · intro s tag hlive hidx
    obtain ⟨v, hv, -, htpl, hrest⟩ := s.svcError_spec tag (e := 2) (by decide) hlive
    exact ⟨v, congrArg Host.Outcome.next ((State.gate_of_live hlive (·.svcTplWrite tag)).trans ((if_pos hidx).trans hv)), htpl, hrest⟩
  · intro s tag hlive hidx
    obtain ⟨v, hv, -, htpl, hrest⟩ := s.svcError_spec tag (e := 2) (by decide) hlive
    exact ⟨v, congrArg Host.Outcome.next ((State.gate_of_live hlive (·.svcTplRead tag)).trans ((if_pos hidx).trans hv)), htpl, hrest⟩
  · rintro s byHost hlive rfl hgap
    have hpop : s.evtPop (s.on pgSVC SVC.SVC_CTL_EVT_HOST) = ({ s with bfdEvents := s.bfdEvents.drop 1 } : State).svcView :=
      if_pos ⟨rfl, hgap.imp id fun h => by simp [h]⟩
    obtain ⟨r, hr⟩ := ({ s with bfdEvents := s.bfdEvents.drop 1 } : State).svcView_only
    refine ⟨_, congrArg Host.Outcome.next ((State.gate_of_live hlive _).trans (hpop.trans hr)), rfl, rfl, rfl, rfl, rfl, rfl, rfl, rfl⟩

end Sys2Proof.Machine

/-! PROOFS. PCIe link and reads. -/

namespace Sys2Proof.Machine
set_option Elab.async false

/-! ### The views of the PCE page -/

/-- The fields that the views of the PCE page write. -/
def pceViews : List Fld := [PCE.FN_STS_PF0_BME, PCE.FN_STS_PF1_BME, PCE.FN_STS_PF0_D3, PCE.FN_STS_PF1_D3, PCE.FN_STS_NUM_VFS,
  PCE.TAG_STS_OUTSTANDING, PCE.TAG_STS_QUARANTINED, PCE.FLR_STS_PF0_BUSY, PCE.FLR_STS_PF1_BUSY, PCE.FLR_STS_VF_BUSY_CNT]

theorem State.pceView_only (s : State) : OnlyRegs s s.pceView :=
  ((((((((((OnlyRegs.refl s).put ..).put ..).put ..).put ..).wr ..).wr ..).wr ..).put ..).put ..).wr ..
theorem State.pceView_rd (s : State) {q : Nat} {g : Fld} {j : Nat} (h : ∀ f ∈ pceViews, f.key pgPCE 0 ≠ g.key q j) : s.pceView.rd q g j = s.rd q g j := by
  simp only [pceViews, List.mem_cons, List.not_mem_nil, or_false, forall_eq_or_imp, forall_eq] at h
  obtain ⟨h0, h1, h2, h3, h4, h5, h6, h7, h8, h9⟩ := h
  simp only [State.pceView, State.put]
  rw [State.rd_wr_ne _ _ h9, State.rd_wr_ne _ _ h8, State.rd_wr_ne _ _ h7, State.rd_wr_ne _ _ h6, State.rd_wr_ne _ _ h5, State.rd_wr_ne _ _ h4,
    State.rd_wr_ne _ _ h3, State.rd_wr_ne _ _ h2, State.rd_wr_ne _ _ h1, State.rd_wr_ne _ _ h0]

/-! ### Slots -/

section
variable {s : State} {fn tag : Nat} {x : TagSlot}

theorem State.tagOf_place (h : s.tagOf fn tag = some x) : x.fn = fn ∧ x.tag = tag := of_decide_eq_true (List.find?_some (p := fun t : TagSlot => decide (t.fn = fn ∧ t.tag = tag)) h)
theorem State.tagOf_setTag_none : (s.setTag fn tag none).tagOf fn tag = none := by
  refine List.find?_eq_none.2 fun t ht => ?_
  obtain ⟨y, -, hy⟩ := List.mem_filterMap.1 ht
  split at hy
  · cases hy
  · next hne =>
    cases hy
    simpa using hne
/-- A slot that is changed in its place. -/
theorem State.tagOf_setTag_some {y : TagSlot} (h : s.tagOf fn tag = some x) (hy : y.fn = fn ∧ y.tag = tag) :
    (s.setTag fn tag (some y)).tagOf fn tag = some y := by
  have hfind : ∀ l : List TagSlot, l.find? (fun t => decide (t.fn = fn ∧ t.tag = tag)) = some x →
      (l.filterMap fun t => if t.fn = fn ∧ t.tag = tag then some y else some t).find? (fun t => decide (t.fn = fn ∧ t.tag = tag)) = some y := by
    intro l
    induction l with
    | nil => intro h; cases h
    | cons t l ih =>
      intro h
      by_cases ht : t.fn = fn ∧ t.tag = tag
      · simp [ht, hy]
      · rw [List.find?_cons_of_neg (by simpa using ht)] at h
        rw [List.filterMap_cons_some (by rw [if_neg ht]), List.find?_cons_of_neg (by simpa using ht)]
        exact ih h
  exact hfind s.tags h

/-- A slot changed or removed, with the views. -/
theorem State.slotDone_spec (u : State) (fn tag : Nat) (y : Option TagSlot) : ∃ v r l, (u.setTag fn tag y).pceView = v ∧ v = { u with regs := r, tags := l } ∧
    v.tagOf fn tag = (u.setTag fn tag y).tagOf fn tag ∧
    ∀ (g : Fld) (j : Nat), (∀ f ∈ pceViews, f.key pgPCE 0 ≠ g.key pgPCE j) → v.rd pgPCE g j = u.rd pgPCE g j := by
  obtain ⟨r, hr⟩ := (u.setTag fn tag y).pceView_only
  refine ⟨_, r, _, rfl, hr, ?_, fun g j h => State.pceView_rd _ h⟩
  rw [hr]
  rfl
end

/-! ### Errors of a request -/

section
variable (s : State)

theorem State.errMessage_only (t sev : Nat) : ∃ o, s.errMessage t sev = { s with out := o } := by
  rw [State.errMessage]
  split
  · exact ⟨_, rfl⟩
  · exact ⟨s.out, rfl⟩
theorem State.aerCor_only (fn b : Nat) : ∃ o f, s.aerCor fn b = { s with out := o, fns := f } := by
  rw [State.aerCor]
  split
  · exact ⟨s.out, _, rfl⟩
  · obtain ⟨o, ho⟩ := (s.setFn (aerFn fn) (((s.fnS (aerFn fn)).setDw 0x110 (setBit ((s.fnS (aerFn fn)).dw 0x110) b)).setDw 0x78
      (setBit ((s.fnS (aerFn fn)).dw 0x78) 16))).errMessage_only (aerFn fn) 0
    exact ⟨o, _, ho⟩
/-- Error reporting writes configuration space and output only, with free values. -/
theorem State.aerUncor_only (fn b : Nat) (advisory : Bool) : ∃ o f n, s.aerUncor fn b advisory = { s with out := o, fns := f, free := n } := by
  unfold State.aerUncor
  extract_lets t x mask first fatal x1 d0 d2 d3 x2 u
  obtain ⟨f, n, hu⟩ : ∃ f n, u = { s with fns := f, free := n } := by
    cases h : first
    · exact ⟨tset s.fns t x2, s.free, by simp only [u, h]; rfl⟩
    · exact ⟨tset s.fns t x2, s.free + 3, by simp only [u, h]; rfl⟩
  clear_value u
  split
  · exact ⟨s.out, f, n, hu⟩
  · split
    · obtain ⟨o, f', h⟩ := u.aerCor_only t 13
      exact ⟨o, f', n, by rw [h, hu]⟩
    · obtain ⟨o, h⟩ := u.errMessage_only t (if fatal then 2 else 1)
      exact ⟨o, f, n, by rw [h, hu]⟩
end

end Sys2Proof.Machine

/-! PROOFS. PCIe link and reads: the obligation. -/

namespace Sys2Proof.Machine
set_option Elab.async false

/-! ### Reads that end -/

theorem pceCnt_not_side {k : Nat} (hk : k < 13) (h0 : k ≠ 0) : ¬ sideKey (PCE.PCE_CNT.key pgPCE k) := by
  simp only [sideKey, sideCommon, pgCRWN, pgOBS, pgLOG, pgPCE, Fld.key, PCE.PCE_CNT]
  omega

section
variable (s : State)

theorem State.pceCnt_same {k : Nat} (hk : k < 13) (h0 : k ≠ 0) : (s.cnt pgPCE PCE.PCE_CNT k).rd pgPCE PCE.PCE_CNT k = (s.rd pgPCE PCE.PCE_CNT k + 1) % 2 ^ 64 := by
  rw [State.cnt, State.bump, (Calm.pmc _ _ _ _).rd (pceCnt_not_side hk h0), State.rd_wr_same]
  rfl
theorem State.readEnd_rd (x : TagSlot) (data : List Byte) (bad : Bool) (p : Nat) (f : Fld) (i : Nat) :
    (s.readEnd x data bad).rd p f i = s.rd p f i := rfl
/-- The bytes of a read among the parts of its frame. -/
theorem State.readEnd_frames (x : TagSlot) (data : List Byte) : ((s.readEnd x data false).qp x.qp).frames =
    (s.qp x.qp).frames.map fun f => if f.first = x.first then { f with parts := lset f.parts x.part (some data) } else f := by
  rw [State.readEnd, State.qp_setQp]
  simp only [Bool.or_false]
end

/-- A completion of the device: its count, and the answer to it. -/
theorem execPcieCompletion_eq {s : State} (hlive : s.live pgPCE = true) (fn tag completer : Nat) (data : List Byte) :
    exec (.pcieCompletion fn tag completer 0 data false false) s = .next (s.completion fn tag completer 0 data false false) :=
  congrArg Host.Outcome.next (State.gate_of_live hlive _)

section
variable {s : State} {fn tag : Nat} {x : TagSlot} (completer : Nat) {data : List Byte}

theorem State.tagOf_cnt (s : State) (f : Fld) (k fn tag : Nat) : (s.cnt pgPCE f k).tagOf fn tag = s.tagOf fn tag := by
  simp [State.tagOf]

theorem State.completion_whole (h : s.tagOf fn tag = some x) (hq : x.quarantined = false) (hs : x.squashed = false)
    (hlen : x.len ≤ (x.got ++ data).length) : s.completion fn tag completer 0 data false false =
      ((s.cnt pgPCE PCE.PCE_CNT 2).readEnd x ((x.got ++ data).take x.len) false).freeSlot x := by
  simp only [State.completion, State.tagOf_cnt, h, hq, hs, decide_eq_true hlen]
  simp
theorem State.completion_part (h : s.tagOf fn tag = some x) (hq : x.quarantined = false) (hs : x.squashed = false)
    (hlen : (x.got ++ data).length < x.len) : s.completion fn tag completer 0 data false false =
      (s.cnt pgPCE PCE.PCE_CNT 2).setTag fn tag (some { x with got := x.got ++ data }) := by
  simp only [State.completion, State.tagOf_cnt, h, hq, hs, decide_eq_false (Nat.not_le.2 hlen)]
  simp
end

/-! ### Completions without a read -/

theorem State.cause_sets (s : State) {p c : Nat} (hc : c < 16) : bit ((s.cause p c).rd p COMMON.INT_CAUSE_CAUSE) c = true := by
  have hset : bit ((s.wr p COMMON.INT_CAUSE_CAUSE (setBit (s.rd p COMMON.INT_CAUSE_CAUSE) c)).rd p COMMON.INT_CAUSE_CAUSE) c = true := by
    rw [State.rd_wr_same, show COMMON.INT_CAUSE_CAUSE.w = 16 from rfl, bit_mod _ _ _ hc, bit_setBit]
    simp
  exact (((Calm.pmc _ _ _ _).trans (.firstErr _ _ _)).trans (.edges _ _ _)).causes p c hc hset

/-- The capture of an unexpected completion. -/
def State.unexpected (s : State) (fn tag completer status : Nat) : State :=
  if s.on pgPCE PCE.UNEXP_CAP0_VALID then s
  else s.wrAll pgPCE 0 [(PCE.UNEXP_CAP0_REQ_ID, fn), (PCE.UNEXP_CAP0_TAG, tag), (PCE.UNEXP_CAP0_VALID, 1),
    (PCE.UNEXP_CAP1_CPL_ID, completer), (PCE.UNEXP_CAP1_STATUS, status)]
theorem State.unexpected_only (s : State) (fn tag completer status : Nat) : OnlyRegs s (s.unexpected fn tag completer status) := by
  rw [State.unexpected]
  split
  · exact .refl s
  · exact (OnlyRegs.refl s).wrAll ..
theorem State.unexpected_cnt (s : State) (fn tag completer status : Nat) :
    (s.unexpected fn tag completer status).rd pgPCE PCE.PCE_CNT 4 = s.rd pgPCE PCE.PCE_CNT 4 := by
  rw [State.unexpected]
  split
  · rfl
  · simp only [State.wrAll]
    rw [State.rd_wr_ne _ _ (by decide), State.rd_wr_ne _ _ (by decide), State.rd_wr_ne _ _ (by decide), State.rd_wr_ne _ _ (by decide),
      State.rd_wr_ne _ _ (by decide)]

/-- What a late completion leaves of the device. -/
theorem State.lateCompletion_spec (s : State) (fn tag completer status : Nat) : ∃ v, s.lateCompletion fn tag completer status = v ∧
    v.tags = s.tags ∧ v.qps = s.qps ∧ v.rd pgPCE PCE.PCE_CNT 4 = (s.rd pgPCE PCE.PCE_CNT 4 + 1) % 2 ^ 64 ∧
    bit (v.rd pgPCE COMMON.INT_CAUSE_CAUSE) 1 = true ∧ coreParts v = coreParts s := by
  have hlate : s.lateCompletion fn tag completer status = (((((s.cnt pgPCE PCE.PCE_CNT 4).unexpected fn tag completer status).logAppend (pageCode .pce) 0 0
      0x1001 0 (fn + tag * 65536) completer).aerUncor fn 16 true)).cause pgPCE 1 := rfl
  have hcnt : ((s.cnt pgPCE PCE.PCE_CNT 4).unexpected fn tag completer status).rd pgPCE PCE.PCE_CNT 4 = (s.rd pgPCE PCE.PCE_CNT 4 + 1) % 2 ^ 64 := by
    rw [State.unexpected_cnt, State.pceCnt_same _ (by decide) (by decide)]
  obtain ⟨r, hr⟩ := (s.cnt pgPCE PCE.PCE_CNT 4).unexpected_only fn tag completer status
  have hhost : ((s.cnt pgPCE PCE.PCE_CNT 4).unexpected fn tag completer status).toHostState = s.toHostState := by
    rw [hr]
    exact State.cnt_toHostState ..
  have hparts : coreParts ((s.cnt pgPCE PCE.PCE_CNT 4).unexpected fn tag completer status) = coreParts s := by
    rw [hr]
    simp [coreParts]
  rw [hlate]
  generalize (s.cnt pgPCE PCE.PCE_CNT 4).unexpected fn tag completer status = a at *
  have hlog := Calm.logAppend a (pageCode .pce) 0 0 0x1001 0 (fn + tag * 65536) completer
  generalize a.logAppend (pageCode .pce) 0 0 0x1001 0 (fn + tag * 65536) completer = b at *
  obtain ⟨o, f, n, haer⟩ := b.aerUncor_only fn 16 true
  have hcause := Calm.cause (b.aerUncor fn 16 true) pgPCE 1
  refine ⟨_, rfl, ?_, ?_, ?_, State.cause_sets _ (by decide), ?_⟩
  · have h : a.tags = s.tags := congrArg HostState.tags hhost
    rw [congrArg HostState.tags hcause.host, haer, ← h]
    exact (congrArg HostState.tags hlog.host :)
  · have h : a.qps = s.qps := congrArg HostState.qps hhost
    rw [congrArg HostState.qps hcause.host, haer, ← h]
    exact (congrArg HostState.qps hlog.host :)
  · rw [hcause.rd (by decide), ← hcnt, ← hlog.rd (by decide), haer]
    rfl
  · rw [coreParts_calm hcause, haer, ← hparts, ← coreParts_calm hlog]
    rfl

/-! ### Messages of vecUnmasked vectors -/

/-- The vector of a function. -/
def State.msixVec (s : State) (fn vec : Nat) : MsixVec := tgetD (s.fnS fn).vecs vec {}
/-- A vector of a function that sends is vecUnmasked. -/
def State.vecReady (s : State) (fn vec : Nat) : Prop :=
  (s.fnS fn).sends = true ∧ (s.fnS fn).msixEn = true ∧ (s.fnS fn).msixMask = false ∧ (s.msixVec fn vec).mask = false
/-- The message of a vector has gone out, and no other waits. -/
def State.vecSent (s : State) (fn vec : Nat) : Prop := Out.msix fn vec ∈ s.out ∧ (s.msixVec fn vec).pend = false

section
variable {s : State} {fn vec : Nat}

theorem State.vecReady_delivers (h : s.vecReady fn vec) : (s.fnS fn).delivers vec = true := by
  obtain ⟨hsends, hen, hall, hmask⟩ := h
  rw [State.msixVec] at hmask
  simp [PciFn.delivers, hsends, hen, hall, hmask]

/-- A message that goes out, with what it leaves. -/
theorem State.msixPass_cases (s : State) (fn : Nat) (e : Nat × MsixVec) : s.msixPass fn e = s ∧ ¬ ((s.msixVec fn e.1).pend ∧ (s.fnS fn).delivers e.1) ∨
    (s.msixPass fn e).out = .msix fn e.1 :: s.out ∧ (s.msixPass fn e).fnS fn = { s.fnS fn with vecs := tset (s.fnS fn).vecs e.1 { s.msixVec fn e.1 with pend := false } } := by
  rw [State.msixPass]
  split
  · refine .inr ⟨?_, ?_⟩
    · simp [State.emit, State.setFn]
    · simp [State.emit, State.setFn, State.fnS, State.msixVec, tgetD_tset_same]
  · next h => exact .inl ⟨rfl, h⟩

theorem State.msixPass_mask (e : Nat × MsixVec) : ((s.msixPass fn e).msixVec fn vec).mask = (s.msixVec fn vec).mask := by
  obtain ⟨h, -⟩ | ⟨-, h⟩ := s.msixPass_cases fn e
  · rw [h]
  · rw [State.msixVec, h]
    by_cases he : e.1 = vec
    · rw [he, tgetD_tset_same]
    · rw [tgetD_tset_ne _ _ _ he]
      rfl
theorem State.msixPass_ready (h : s.vecReady fn vec) (e : Nat × MsixVec) : (s.msixPass fn e).vecReady fn vec := by
  obtain ⟨hsends, hen, hall, hmask⟩ := h
  refine ⟨?_, ?_, ?_, (State.msixPass_mask e).trans hmask⟩
  all_goals
    obtain ⟨h, -⟩ | ⟨-, h⟩ := s.msixPass_cases fn e
    · rw [h]
      assumption
    · rw [h]
      assumption
theorem State.msixPass_sent (h : s.vecSent fn vec) (e : Nat × MsixVec) : (s.msixPass fn e).vecSent fn vec := by
  obtain ⟨hout, hpend⟩ := h
  obtain ⟨h, -⟩ | ⟨ho, hf⟩ := s.msixPass_cases fn e
  · rw [h]
    exact ⟨hout, hpend⟩
  · refine ⟨ho ▸ List.mem_cons_of_mem _ hout, ?_⟩
    rw [State.msixVec, hf]
    by_cases he : e.1 = vec
    · rw [he, tgetD_tset_same]
    · rw [tgetD_tset_ne _ _ _ he]
      exact hpend
/-- Its turn sends the message of a ready vector; another's leaves it waiting. -/
theorem State.msixPass_ready_pend (h : s.vecReady fn vec) (hp : (s.msixVec fn vec).pend = true) (e : Nat × MsixVec) :
    (e.1 = vec → (s.msixPass fn e).vecSent fn vec) ∧ (e.1 ≠ vec → ((s.msixPass fn e).msixVec fn vec).pend = true) := by
  obtain ⟨hsame, hnot⟩ | ⟨ho, hf⟩ := s.msixPass_cases fn e
  · refine ⟨fun he => absurd ⟨he ▸ hp, he ▸ State.vecReady_delivers h⟩ hnot, fun _ => by rw [hsame]; exact hp⟩
  · refine ⟨fun he => ⟨by rw [ho, he]; exact List.mem_cons_self, ?_⟩, fun he => ?_⟩
    · rw [State.msixVec, hf, he, tgetD_tset_same]
    · rw [State.msixVec, hf, tgetD_tset_ne _ _ _ he]
      exact hp

theorem State.msixFlush_mask (s : State) (fn vec : Nat) : ((s.msixFlush fn).msixVec fn vec).mask = (s.msixVec fn vec).mask := by
  rw [State.msixFlush_eq]
  generalize (s.fnS fn).vecs = l
  induction l generalizing s with
  | nil => rfl
  | cons e l ih => rw [List.foldl_cons, ih, State.msixPass_mask]
theorem State.msixAll_sent (l : Tbl MsixVec) (h : s.vecSent fn vec) : (l.foldl (State.msixPass fn) s).vecSent fn vec := by
  induction l generalizing s with
  | nil => exact h
  | cons e l ih => exact ih (State.msixPass_sent h e)
theorem State.msixAll_sends (l : Tbl MsixVec) (h : s.vecReady fn vec) (hp : (s.msixVec fn vec).pend = true) (hl : ∃ e ∈ l, e.1 = vec) :
    (l.foldl (State.msixPass fn) s).vecSent fn vec := by
  induction l generalizing s with
  | nil => simp at hl
  | cons e l ih =>
    obtain ⟨hsend, hwait⟩ := State.msixPass_ready_pend h hp e
    by_cases he : e.1 = vec
    · exact State.msixAll_sent l (hsend he)
    · obtain ⟨d, hd, hdv⟩ := hl
      exact ih (State.msixPass_ready h e) (hwait he) ⟨d, (List.mem_cons.1 hd).resolve_left fun hde => he (hde ▸ hdv), hdv⟩
/-- A flush sends the waiting message of a ready vector. -/
theorem State.msixFlush_sends (h : s.vecReady fn vec) (hp : (s.msixVec fn vec).pend = true) : (s.msixFlush fn).vecSent fn vec := by
  rw [State.msixFlush_eq]
  refine State.msixAll_sends _ h hp ?_
  cases hget : tget (s.fnS fn).vecs vec with
  | none =>
    rw [State.msixVec, tgetD, hget] at hp
    cases hp
  | some v => exact ⟨(vec, v), tget_mem hget, rfl⟩
end

/-- An vecUnmasked vector, before the messages that it lets go. -/
def State.vecUnmasked (s : State) (fn vec : Nat) : State :=
  s.setFn fn { s.fnS fn with vecs := tset (s.fnS fn).vecs vec { s.msixVec fn vec with mask := false } }
theorem State.vecUnmasked_fnS (s : State) (fn vec : Nat) :
    (s.vecUnmasked fn vec).fnS fn = { s.fnS fn with vecs := tset (s.fnS fn).vecs vec { s.msixVec fn vec with mask := false } } := by
  simp [State.vecUnmasked, State.setFn, State.fnS, tgetD_tset_same]
theorem State.vecUnmasked_vec (s : State) (fn vec : Nat) : (s.vecUnmasked fn vec).msixVec fn vec = { s.msixVec fn vec with mask := false } := by
  rw [State.msixVec, State.vecUnmasked_fnS, tgetD_tset_same]
theorem execMsixUnmask_eq {s : State} {fn vec : Nat} (hlive : s.live pgPCE = true) (h : vec < vectorsOf fn) :
    exec (.msixUnmask fn vec) s = .next ((s.vecUnmasked fn vec).msixFlush fn) :=
  congrArg Host.Outcome.next ((if_pos h).trans (State.gate_of_live hlive _))

/-! ### The link -/

/-- The link as it was trained, before the cause of a change. -/
def State.trained (s : State) (speed lanes : Nat) (reversed : Bool) : State :=
  ({ s with retraining := false } : State).wrAll pgPCE 0 [(PCE.LINK_STS_SPEED, min speed s.maxSpeed),
    (PCE.LINK_STS_WIDTH, if lanes < 16 ∨ s.on pgPCE PCE.LINK_CTL_MAX_X8 then 8 else 0), (PCE.LINK_STS_FLIT, b2n (decide (min speed s.maxSpeed = 4))),
    (PCE.LINK_STS_LINK_UP, 1), (PCE.LINK_STS_REVERSED, b2n reversed), (PCE.LINK_STS_L1, 0)]

section
variable (s : State) (speed lanes : Nat) (reversed : Bool)

theorem State.trained_speed : (s.trained speed lanes reversed).rd pgPCE PCE.LINK_STS_SPEED = min speed (max 1 (min 4 (s.rd pgPCE PCE.LINK_CTL_MAX_SPEED))) := by
  simp only [State.trained, State.wrAll]
  rw [State.rd_wr_ne _ _ (by decide), State.rd_wr_ne _ _ (by decide), State.rd_wr_ne _ _ (by decide), State.rd_wr_ne _ _ (by decide),
    State.rd_wr_ne _ _ (by decide), State.rd_wr_same, State.maxSpeed]
  refine Nat.mod_eq_of_lt ?_
  simp only [PCE.LINK_STS_SPEED]
  omega
theorem State.trained_width : (s.trained speed lanes reversed).rd pgPCE PCE.LINK_STS_WIDTH = if lanes < 16 ∨ s.on pgPCE PCE.LINK_CTL_MAX_X8 then 8 else 0 := by
  simp only [State.trained, State.wrAll]
  rw [State.rd_wr_ne _ _ (by decide), State.rd_wr_ne _ _ (by decide), State.rd_wr_ne _ _ (by decide), State.rd_wr_ne _ _ (by decide), State.rd_wr_same]
  split <;> rfl
theorem State.trained_up : (s.trained speed lanes reversed).rd pgPCE PCE.LINK_STS_LINK_UP = 1 := by
  simp only [State.trained, State.wrAll]
  rw [State.rd_wr_ne _ _ (by decide), State.rd_wr_ne _ _ (by decide), State.rd_wr_same]
  rfl
theorem State.trained_reversed : (s.trained speed lanes reversed).rd pgPCE PCE.LINK_STS_REVERSED = b2n reversed := by
  simp only [State.trained, State.wrAll]
  rw [State.rd_wr_ne _ _ (by decide), State.rd_wr_same, b2n_mod _ _ (by decide)]
theorem State.trained_l1 : (s.trained speed lanes reversed).rd pgPCE PCE.LINK_STS_L1 = 0 := by
  simp only [State.trained, State.wrAll]
  rw [State.rd_wr_same]
  rfl
theorem State.trained_only : ∃ r, s.trained speed lanes reversed = { s with regs := r, retraining := false } :=
  (OnlyRegs.refl ({ s with retraining := false } : State)).wrAll ..
theorem State.linkTrain_up (hl : 8 ≤ lanes) (hs : speed ≠ 0) : ∃ b, s.linkTrain speed lanes reversed = (s.trained speed lanes reversed).raiseIf b pgPCE 5 :=
  ⟨_, if_neg (by omega)⟩
theorem State.linkTrain_down (hl : lanes < 8) : s.linkTrain speed lanes reversed =
    ((({ s with retraining := false } : State).cnt pgPCE PCE.PCE_CNT 11).wr pgPCE PCE.LINK_STS_LINK_UP 0).wr pgPCE PCE.LINK_STS_L1 0 :=
  if_pos (.inl hl)
end

/-- A read that the host failed, or that was squashed, ends as the state u has it, and its slot goes into quarantine. -/
theorem State.quarantine_spec {u : State} {fn tag : Nat} {x : TagSlot} (h : u.tagOf fn tag = some x) : ∃ v r l, u.quarantine x = v ∧
    v = { u with regs := r, tags := l } ∧ v.tagOf fn tag = some { x with quarantined := true, issued := u.ticks } ∧
    ∀ (g : Fld) (j : Nat), (∀ f ∈ pceViews, f.key pgPCE 0 ≠ g.key pgPCE j) → v.rd pgPCE g j = u.rd pgPCE g j := by
  obtain ⟨rfl, rfl⟩ := State.tagOf_place h
  obtain ⟨v, r, l, hv, hvr, hslot, hrd⟩ := u.slotDone_spec x.fn x.tag (some { x with quarantined := true, issued := u.ticks })
  exact ⟨v, r, l, hv, hvr, hslot.trans (State.tagOf_setTag_some h ⟨rfl, rfl⟩), hrd⟩

/-- A read past its time, before its slot goes into quarantine. -/
theorem State.timedOut_spec (s : State) {fn tag : Nat} {x : TagSlot} (hlive : s.live pgPCE = true) (h : s.tagOf fn tag = some x) :
    ∃ u, (((s.cnt pgPCE PCE.PCE_CNT 3).aerUncor fn 14 false).raise pgPCE 0).readEnd x [] true = u ∧ u.tagOf fn tag = some x ∧ u.ticks = s.ticks ∧
      u.rd pgPCE PCE.PCE_CNT 3 = (s.rd pgPCE PCE.PCE_CNT 3 + 1) % 2 ^ 64 ∧ bit (u.rd pgPCE COMMON.INT_CAUSE_CAUSE) 0 = true ∧
      coreParts u = coreParts s := by
  have hcnt := s.pceCnt_same (k := 3) (by decide) (by decide)
  have hlive' : (s.cnt pgPCE PCE.PCE_CNT 3).live pgPCE = true := by
    rw [State.cnt, State.live_bump _ _ _ _ _ _ _ (by decide) (by decide) (by decide), hlive]
  obtain ⟨q, hq⟩ := (OnlyRegs.refl s).bump pgPCE PCE.PCE_CNT 3 3 1
  rw [State.cnt] at hcnt hlive' ⊢
  generalize s.bump pgPCE PCE.PCE_CNT 3 3 1 = a at *
  obtain ⟨o, f, n, haer⟩ := a.aerUncor_only fn 14 false
  rw [haer]
  have hb : ∀ b : State, b.live pgPCE = true → b.tagOf fn tag = some x →
      ((b.raise pgPCE 0).readEnd x [] true).tagOf fn tag = some x ∧ ((b.raise pgPCE 0).readEnd x [] true).ticks = b.ticks ∧
      ((b.raise pgPCE 0).readEnd x [] true).rd pgPCE PCE.PCE_CNT 3 = b.rd pgPCE PCE.PCE_CNT 3 ∧
      bit (((b.raise pgPCE 0).readEnd x [] true).rd pgPCE COMMON.INT_CAUSE_CAUSE) 0 = true ∧
      coreParts ((b.raise pgPCE 0).readEnd x [] true) = coreParts b := by
    intro b hb htag
    have hcalm := Calm.raise b pgPCE 0
    have hsets := State.raise_sets b hb (p := pgPCE) (c := 0) (by decide)
    have htags := State.raise_tags b pgPCE 0
    generalize b.raise pgPCE 0 = c at *
    have htag' : c.tagOf fn tag = some x := by rw [State.tagOf, htags, ← State.tagOf, htag]
    exact ⟨htag', hcalm.ticks, hcalm.rd (by decide), hsets, (show coreParts (c.readEnd x [] true) = coreParts c from rfl).trans (coreParts_calm hcalm)⟩
  obtain ⟨htag, hticks, hrd, hcause, hparts⟩ := hb { a with out := o, fns := f, free := n } hlive' (by rw [hq]; exact h)
  exact ⟨_, rfl, htag, hticks.trans (by rw [hq]), hrd.trans hcnt, hcause, hparts.trans (by rw [hq]; rfl)⟩

/-! ### The obligation -/

/-- Settles O39, clause by clause: what a slot shows after its change by `slotDone_spec`, the messages of a flush by induction over the vectors. -/
theorem pcieLinkAndReads : Obligations.PcieLinkAndReads := by
  unfold Obligations.PcieLinkAndReads
  refine ⟨?_, ?_, ?_, ?_, ?_, ?_, ?_, ?_, ?_, ?_, ?_, ?_, ?_⟩
  · intro s speed lanes reversed hlive hperst hlanes hspeed
    obtain ⟨c, htrain⟩ := s.linkTrain_up speed lanes reversed hlanes hspeed
    have hrun : exec (.pcieLinkTrain speed lanes reversed) s = .next ((s.trained speed lanes reversed).raiseIf c pgPCE 5) :=
      congrArg Host.Outcome.next ((if_pos hperst).trans ((State.gate_of_live hlive _).trans htrain))
    have hup := s.trained_up speed lanes reversed
    have hspeed := s.trained_speed speed lanes reversed
    have hwidth := s.trained_width speed lanes reversed
    have hreversed := s.trained_reversed speed lanes reversed
    have hl1 := s.trained_l1 speed lanes reversed
    obtain ⟨r, honly⟩ := s.trained_only speed lanes reversed
    generalize s.trained speed lanes reversed = u at *
    have hcalm := Calm.raiseIf u c pgPCE 5
    have hparts : coreParts (u.raiseIf c pgPCE 5) = coreParts s := (coreParts_calm hcalm).trans (by rw [honly]; rfl)
    simp only [coreParts, Prod.mk.injEq] at hparts
    obtain ⟨hband, hline, hpipe, hqd, hnt⟩ := hparts
    refine ⟨_, hrun, ?_, ?_, ?_, ?_, ?_, ?_, hband, hline, hpipe, hqd, hnt⟩
    · rw [hcalm.rd (by decide), hup]
    · rw [hcalm.rd (by decide), hspeed]
    · rw [hcalm.rd (by decide), hwidth]
    · rw [hcalm.rd (by decide), hreversed]
    · rw [hcalm.rd (by decide), hl1]
    · rw [congrArg HostState.retraining hcalm.host, honly]
  · intro s speed lanes reversed hlive hperst hlanes
    have hrun : exec (.pcieLinkTrain speed lanes reversed) s = .next (((({ s with retraining := false } : State).cnt pgPCE PCE.PCE_CNT 11).wr pgPCE PCE.LINK_STS_LINK_UP 0).wr
        pgPCE PCE.LINK_STS_L1 0) :=
      congrArg Host.Outcome.next ((if_pos hperst).trans ((State.gate_of_live hlive _).trans (s.linkTrain_down speed lanes reversed hlanes)))
    refine ⟨_, hrun, ?_, ?_, ?_⟩
    · rw [State.rd_wr_ne _ _ (by decide), State.rd_wr_same]
      rfl
    · rw [State.rd_wr_ne _ _ (by decide), State.rd_wr_ne _ _ (by decide), State.pceCnt_same _ (by decide) (by decide)]
      rfl
    · simp
  · intro s hlive
    refine ⟨_, congrArg Host.Outcome.next (State.gate_of_live hlive _), ?_, rfl, rfl, rfl, rfl, rfl, rfl, rfl⟩
    rw [State.retrain, State.rd_parts, State.rd_wr_same]
    rfl
  · intro s hlive hup
    refine ⟨_, congrArg Host.Outcome.next ((if_pos hup).trans (State.gate_of_live hlive _)), ?_, rfl, rfl, rfl, rfl, rfl, rfl, rfl⟩
    rw [State.rd_wr_same]
    rfl
  · intro s hlive
    refine ⟨_, congrArg Host.Outcome.next (State.gate_of_live hlive _), ?_, rfl, rfl, rfl, rfl, rfl, rfl, rfl⟩
    rw [State.rd_wr_same]
    rfl
  · intro s fn tag completer data x hlive htag hquar hsq hlen
    have hrun := (execPcieCompletion_eq hlive fn tag completer data).trans (congrArg Host.Outcome.next (State.completion_whole completer htag hquar hsq hlen))
    obtain ⟨hfn, ht⟩ := State.tagOf_place htag
    have hframes := (s.cnt pgPCE PCE.PCE_CNT 2).readEnd_frames x ((x.got ++ data).take x.len)
    have hcnt : ((s.cnt pgPCE PCE.PCE_CNT 2).readEnd x ((x.got ++ data).take x.len) false).rd pgPCE PCE.PCE_CNT 2 =
        (s.rd pgPCE PCE.PCE_CNT 2 + 1) % 2 ^ 64 := by
      rw [State.readEnd_rd, State.pceCnt_same _ (by decide) (by decide)]
    obtain ⟨q, hq⟩ := (OnlyRegs.refl s).bump pgPCE PCE.PCE_CNT 2 2 1
    have hcore : coreParts ((s.cnt pgPCE PCE.PCE_CNT 2).readEnd x ((x.got ++ data).take x.len) false) = coreParts s := by
      rw [State.cnt, hq]
      rfl
    have hmgmt : ((s.cnt pgPCE PCE.PCE_CNT 2).readEnd x ((x.got ++ data).take x.len) false).toMgmtState = s.toMgmtState := by
      rw [State.cnt, hq]
      rfl
    have hqp : (s.cnt pgPCE PCE.PCE_CNT 2).qp x.qp = s.qp x.qp := by
      rw [State.cnt, hq]
      rfl
    rw [hqp] at hframes
    generalize (s.cnt pgPCE PCE.PCE_CNT 2).readEnd x ((x.got ++ data).take x.len) false = u at *
    obtain ⟨v, r, l, hv, hvr, hslot, hrd⟩ := u.slotDone_spec fn tag none
    have hfree : u.freeSlot x = v := by rw [State.freeSlot, hfn, ht, hv]
    rw [hfree] at hrun
    simp only [coreParts, Prod.mk.injEq] at hcore
    obtain ⟨hband, hline, hpipe, hqd, hnt⟩ := hcore
    rw [State.tagOf_setTag_none] at hslot
    refine ⟨v, hrun, hslot, ?_, (hrd _ _ (by decide)).trans hcnt, ?_⟩
    · rw [hvr, ← hframes]
      rfl
    · rw [hvr]
      exact ⟨hband, hline, hpipe, hqd, hnt, hmgmt⟩
  · intro s fn tag completer data x hlive htag hquar hsq hlen
    have hrun := (execPcieCompletion_eq hlive fn tag completer data).trans (congrArg Host.Outcome.next (State.completion_part completer htag hquar hsq hlen))
    have hplace := State.tagOf_place htag
    refine ⟨_, hrun, ?_, ?_⟩
    · exact State.tagOf_setTag_some ((s.tagOf_cnt _ _ _ _).trans htag) hplace
    · simp [State.setTag]
  · intro s fn tag completer status data poisoned ecrc hlive htag
    have htag' : (s.cnt pgPCE PCE.PCE_CNT 2).tagOf fn tag = none := (s.tagOf_cnt _ _ _ _).trans htag
    have hlate : s.completion fn tag completer (status % 8) data poisoned ecrc = (s.cnt pgPCE PCE.PCE_CNT 2).lateCompletion fn tag completer (status % 8) := by
      simp only [State.completion, htag']
    have hcnt2 : (s.cnt pgPCE PCE.PCE_CNT 2).rd pgPCE PCE.PCE_CNT 4 = s.rd pgPCE PCE.PCE_CNT 4 := by
      rw [State.cnt, State.bump, (Calm.pmc _ _ _ _).rd (by decide), State.rd_wr_ne _ _ (by decide)]
    obtain ⟨v, hv, htags, hqps, hcnt, hcause, hparts⟩ := (s.cnt pgPCE PCE.PCE_CNT 2).lateCompletion_spec fn tag completer (status % 8)
    have hparts' : coreParts v = coreParts s := by rw [hparts]; simp [coreParts]
    simp only [coreParts, Prod.mk.injEq] at hparts'
    obtain ⟨hband, hline, hpipe, hqd, hnt⟩ := hparts'
    have hrun : exec (.pcieCompletion fn tag completer status data poisoned ecrc) s = .next v :=
      congrArg Host.Outcome.next ((State.gate_of_live hlive (·.completion fn tag completer (status % 8) data poisoned ecrc)).trans (hlate.trans hv))
    refine ⟨v, hrun, htags.trans (by simp), hqps.trans (by simp), ?_, hcause,
      hband, hline, hpipe, hqd, hnt⟩
    rw [hcnt, hcnt2]
  · intro s fn tag x hlive htag hquar hsq htime
    obtain ⟨u, hu, htag', hticks, hcnt, hcause, hparts⟩ := s.timedOut_spec hlive htag
    obtain ⟨v, r, l, hv, hvr, hslot, hrd⟩ := State.quarantine_spec htag'
    have hrun : exec (.pcieCompletionTimeout fn tag) s = .next v := by
      refine congrArg Host.Outcome.next ?_
      rw [htag]
      exact (if_neg (by simp [hquar, hsq, htime, hlive])).trans ((congrArg (State.quarantine · x) hu).trans hv)
    simp only [coreParts, Prod.mk.injEq] at hparts
    obtain ⟨hband, hline, hpipe, hqd, hnt⟩ := hparts
    rw [hticks] at hslot
    have hcause' := hrd COMMON.INT_CAUSE_CAUSE 0 (by decide)
    refine ⟨v, hrun, hslot, (hrd _ _ (by decide)).trans hcnt, by rw [hcause', hcause], ?_⟩
    rw [hvr]
    exact ⟨hband, hline, hpipe, hqd, hnt⟩
  · intro s fn tag x hlive htag hquar hsq hdead
    obtain ⟨q, hq⟩ := (OnlyRegs.refl s).bump pgPCE PCE.PCE_CNT 5 5 1
    have hcnt := s.pceCnt_same (k := 5) (by decide) (by decide)
    obtain ⟨v, r, l, hv, hvr, hslot, hrd⟩ := State.quarantine_spec ((s.tagOf_cnt PCE.PCE_CNT 5 fn tag).trans htag)
    have hrun : exec (.flrDeadline fn tag) s = .next v := by
      refine congrArg Host.Outcome.next ?_
      rw [htag]
      exact (if_neg (by simp [hquar, hsq, hdead, hlive])).trans hv
    refine ⟨v, hrun, ?_, (hrd _ _ (by decide)).trans hcnt, ?_⟩
    · rw [hslot, State.cnt, hq]
    · rw [hvr, State.cnt, hq]
      exact ⟨rfl, rfl, rfl, rfl, rfl, rfl⟩
  · intro s fn tag x hlive htag hquar hissued
    obtain ⟨v, r, l, hv, hvr, hslot, -⟩ := s.slotDone_spec fn tag none
    have hrun : exec (.tagQuarantineExpiry fn tag) s = .next v := by
      refine congrArg Host.Outcome.next ?_
      rw [htag]
      exact (if_pos ⟨hquar, hissued⟩).trans ((State.gate_of_live hlive _).trans hv)
    refine ⟨v, hrun, hslot.trans State.tagOf_setTag_none, ?_⟩
    rw [hvr]
    exact ⟨rfl, rfl, rfl, rfl, rfl, rfl, rfl⟩
  · intro s fn vec hlive hvec
    have hmask := (s.vecUnmasked fn vec).msixFlush_mask fn vec
    rw [State.vecUnmasked_vec] at hmask
    obtain ⟨r, o, f, honly⟩ := (s.vecUnmasked fn vec).msixFlush_only fn
    have hrun := execMsixUnmask_eq hlive hvec
    generalize (s.vecUnmasked fn vec).msixFlush fn = t at *
    refine ⟨t, hrun, hmask, ?_⟩
    rw [honly]
    exact ⟨rfl, rfl, rfl, rfl, rfl, rfl, rfl, rfl⟩
  · intro s fn vec hlive hvec hpend hsends hen hmask
    have hready : (s.vecUnmasked fn vec).vecReady fn vec := by
      rw [State.vecReady, State.vecUnmasked_vec, State.vecUnmasked_fnS]
      exact ⟨hsends, hen, hmask, rfl⟩
    obtain ⟨hout, hdone⟩ := State.msixFlush_sends hready (by rw [State.vecUnmasked_vec]; exact hpend)
    obtain ⟨r, o, f, honly⟩ := (s.vecUnmasked fn vec).msixFlush_only fn
    have hrun := execMsixUnmask_eq hlive hvec
    generalize (s.vecUnmasked fn vec).msixFlush fn = t at *
    refine ⟨t, hrun, hout, hdone, ?_⟩
    rw [honly]
    exact ⟨rfl, rfl, rfl, rfl, rfl, rfl⟩

end Sys2Proof.Machine

/-! PROOFS. Scheduler: what releasing the frames of a queue leaves, and the flush commands. -/

namespace Sys2Proof.Machine
set_option Elab.async false

/-! ### Kept: registers and parts that an operation leaves, causes apart -/

/-- From s to t every register but those of K and the side registers stays, and so does the part π. -/
structure Kept {α : Type} (K : Nat → Prop) (π : State → α) (s t : State) : Prop where
  regs : ∀ k, ¬ sideKey k → ¬ K k → tget t.regs k = tget s.regs k
  part : π t = π s

section
variable {α : Type} {K : Nat → Prop} {π : State → α} {s t u : State}

theorem Kept.refl (s : State) : Kept K π s s := ⟨fun _ _ _ => rfl, rfl⟩
theorem Kept.trans (h : Kept K π s t) (g : Kept K π t u) : Kept K π s u :=
  ⟨fun k a b => (g.regs k a b).trans (h.regs k a b), g.part.trans h.part⟩
theorem Near.kept (h : Near K π s t) : Kept K π s t := ⟨h.regs, h.part⟩
theorem Kept.calm (h : Calm s t) (hp : π t = π s) : Kept K π s t := ⟨fun k a _ => h.regs k a, hp⟩
theorem Kept.wr {p : Nat} {f : Fld} {i : Nat} (v : Nat) (hk : K (f.key p i)) (hp : π (s.wr p f v i) = π s) : Kept K π s (s.wr p f v i) := by
  refine ⟨fun k _ b => ?_, hp⟩
  have hne : f.key p i ≠ k := fun e => b (e ▸ hk)
  simp only [State.wr]
  split
  · exact tget_tdel_ne _ hne
  · exact tget_tset_ne _ _ hne
theorem Kept.rd (h : Kept K π s t) {p : Nat} {f : Fld} {i : Nat} (a : ¬ sideKey (f.key p i)) (b : ¬ K (f.key p i)) : t.rd p f i = s.rd p f i := by
  simp only [State.rd, tgetD, h.regs _ a b]
theorem Kept.foldl {β : Type} {f : State → β → State} (hf : ∀ u x, Kept K π u (f u x)) (l : List β) (s : State) : Kept K π s (l.foldl f s) := by
  induction l generalizing s with
  | nil => exact .refl s
  | cons x l ih => exact (hf s x).trans (ih _)
end

/-! ### Releasing frames -/

/-- The pages of the buffers, and the scheduler page from its counters on. -/
abbrev releaseKey (k : Nat) : Prop := 0xA0 * 2097152 ≤ k ∧ (k < 0xB0 * 2097152 ∨ 0xB0 * 2097152 + 0x200 * 32 ≤ k)

/-- What a released frame leaves alone: all but buffers and multicast descriptors. -/
def releaseRest (s : State) : BandState × LineState × PipeState × NetTime × QdState :=
  (s.toBandState, s.toLineState, s.toPipeState, s.nt, { s.toQdState with bufs := [], mcds := [] })

theorem releaseRest_core {s t : State} (h : coreParts t = coreParts s) : releaseRest t = releaseRest s := by
  obtain ⟨hband, hline, hpipe, hqd, hnt⟩ := coreParts_eq h
  simp only [releaseRest, hband, hline, hpipe, hqd, hnt]

theorem releaseRest_eq {s t : State} (h : releaseRest t = releaseRest s) : t.toBandState = s.toBandState ∧ t.toLineState = s.toLineState ∧
    t.toPipeState = s.toPipeState ∧ t.nt = s.nt ∧ t.hbm = s.hbm ∧ t.queues = s.queues ∧ t.flush = s.flush := by
  simp only [releaseRest, Prod.mk.injEq, QdState.mk.injEq] at h
  simp [h]

section
variable (s : State)

theorem Kept.releaseCnt {p : Nat} {f : Fld} {n : Nat} (h : releaseKey (f.key p n)) : Kept releaseKey releaseRest s (s.cnt p f n) :=
  (Kept.wr _ h rfl).trans (.calm (Calm.pmc _ _ _ _) (releaseRest_core (coreParts_calm (Calm.pmc _ _ _ _))))
theorem poolView_kept : Kept releaseKey releaseRest s s.poolView := by
  obtain ⟨hregs, -, hpart⟩ := poolView_near s
  refine ⟨fun k a b => hregs k a fun hk => b ?_, releaseRest_core hpart⟩
  simp only [poolKey, pgBPM, pgBRM] at hk
  omega
theorem mcrView_kept : Kept releaseKey releaseRest s s.mcrView := by
  rw [State.mcrView, State.peak]
  have hcounts : Kept releaseKey releaseRest s ((s.wr pgMCR MCR.MCD_STS_IN_USE s.mcds.length).wr pgMCR MCR.MCD_STS_WAITING
      (s.mcds.filter fun e => e.2.wait).length) := (Kept.wr _ (by decide) rfl).trans (.wr _ (by decide) rfl)
  split
  · exact hcounts.trans (.wr _ (by decide) rfl)
  · exact hcounts
theorem expressFree_kept (e : Option (Nat × Nat)) : Kept releaseKey releaseRest s (s.expressFree e) := by
  cases e with
  | none => exact .refl s
  | some e => exact .wr _ (by simp only [releaseKey, Fld.key, pgQSU, QSU.EXP_LEVEL_BYTES]; omega) rfl
theorem refuseCap_kept (p b r : Nat) (o : Option Nat) : Kept releaseKey releaseRest s (s.refuseCap p b r o) := by
  have hwr : ∀ (u : State) (f : Fld) (v : Nat), f.stride = 4 → f.off < 0x1000 → f.lo < 32 → Kept releaseKey releaseRest u (u.wr pgBPM f v) := by
    intro u f v hs ho hl
    exact .wr _ (by simp only [releaseKey, Fld.key, pgBPM, hs]; omega) rfl
  rw [State.refuseCap]
  split
  · exact .refl s
  · have hhead := (hwr s BPM.REFUSE_CAP0_REQUESTER r rfl (by decide) (by decide)).trans (hwr _ BPM.REFUSE_CAP0_VALID 1 rfl (by decide) (by decide))
    cases o with
    | none =>
      have hdraw : ∀ u : State, Kept releaseKey releaseRest u (u.wrFree pgBPM BPM.REFUSE_CAP1_OWNER) := fun u =>
        (show Kept releaseKey releaseRest u (u.draw BPM.REFUSE_CAP1_OWNER.w).2 from ⟨fun _ _ _ => rfl, rfl⟩).trans (hwr _ _ _ rfl (by decide) (by decide))
      exact ((hhead.trans (hdraw _)).trans (hwr _ _ _ rfl (by decide) (by decide))).trans (hwr _ _ _ rfl (by decide) (by decide))
    | some o =>
      exact ((hhead.trans (hwr _ _ _ rfl (by decide) (by decide))).trans (hwr _ _ _ rfl (by decide) (by decide))).trans
        (hwr _ _ _ rfl (by decide) (by decide))
theorem bpmFree_kept (p b r : Nat) : Kept releaseKey releaseRest s (s.bpmFree p b r) := by
  have hrefused : ∀ o, Kept releaseKey releaseRest s (((s.cnt pgBPM BPM.BPM_CNT 4).refuseCap p b r o).raise pgBPM 1) := fun o =>
    ((Kept.releaseCnt s (by decide)).trans (refuseCap_kept _ p b r o)).trans
      (.calm (Calm.raise ..) (releaseRest_core (coreParts_calm (Calm.raise ..))))
  unfold State.bpmFree
  split
  · exact hrefused _
  · next x _ =>
    split
    · have hdel : Kept releaseKey releaseRest s { s with bufs := tdel s.bufs (bufKey p b) } := ⟨fun _ _ _ => rfl, rfl⟩
      exact ((hdel.trans (Kept.releaseCnt _ (by decide))).trans (expressFree_kept _ _)).trans (poolView_kept _)
    · exact hrefused _
theorem setMcd_kept (m : Nat) (x : Mcd) : Kept releaseKey releaseRest s (s.setMcd m x) := ⟨fun _ _ _ => rfl, rfl⟩
theorem ownerMove_kept (m : Nat) (x : Mcd) (o : Nat) : Kept releaseKey releaseRest s (s.ownerMove m x o) := by
  unfold State.ownerMove
  split
  · exact .refl s
  · extract_lets s1
    have hbuf : Kept releaseKey releaseRest s s1 := by
      simp only [s1]
      split
      · exact ⟨fun _ _ _ => rfl, rfl⟩
      · exact .refl s
    exact (hbuf.trans (setMcd_kept _ m _)).trans (Kept.releaseCnt _ (by decide))
theorem mcdLess_kept (m : Nat) : Kept releaseKey releaseRest s (s.mcdLess m) := by
  rw [State.mcdLess]
  split
  · have hdel : Kept releaseKey releaseRest s { s with mcds := tdel s.mcds m } := ⟨fun _ _ _ => rfl, rfl⟩
    exact (hdel.trans (bpmFree_kept _ _ _ _)).trans (mcrView_kept _)
  · exact (setMcd_kept s m _).trans (mcrView_kept _)
theorem mcdSettle_kept (m : Nat) : Kept releaseKey releaseRest s (s.mcdSettle m) := by
  rw [State.mcdSettle]
  split
  · exact (setMcd_kept s m _).trans (mcrView_kept _)
  · exact .refl s
theorem replicaGone_kept (m r : Nat) (dropped : Bool) : Kept releaseKey releaseRest s (s.replicaGone m r dropped) := by
  unfold State.replicaGone
  extract_lets x ex y s1 s2
  have h1 : Kept releaseKey releaseRest s s1 := (setMcd_kept s m y).trans (expressFree_kept _ _)
  have h2 : Kept releaseKey releaseRest s s2 := by
    by_cases hc : dropped = true ∧ r = x.owner
    · simp only [s2, if_pos hc]
      exact h1.trans (ownerMove_kept _ _ _ _)
    · simp only [s2, if_neg hc]
      exact h1
  exact (h2.trans (mcdLess_kept _ _)).trans (mcdSettle_kept _ _)
/-- A released frame leaves queues, HBM and the flush as they are. -/
theorem release_kept (f : Frame) : Kept releaseKey releaseRest s (s.release f) := by
  rw [State.release]
  split
  · exact bpmFree_kept ..
  · exact replicaGone_kept ..
  · exact .refl s
theorem dropped_kept (l : List Frame) :
    Kept releaseKey releaseRest s (l.foldl (fun (t : State) f => (t.cnt pgQSU QSU.QSU_CNT 4).release f) s) :=
  .foldl (fun u f => (Kept.releaseCnt u (by decide)).trans (release_kept _ f)) l s

theorem settle_only : ∃ n, s.settle = { s with nodes := n } := ⟨_, rfl⟩
theorem spillLeave_only (q : Nat) : ∃ l, s.spillLeave q = { s with queues := l } := by
  rw [State.spillLeave]
  split
  · exact ⟨_, rfl⟩
  · exact ⟨s.queues, rfl⟩
end

/-- What follows a change of a queue: its spill state and the levels of the pools. -/
def State.queueShown (s : State) (q : Nat) : State := (s.spillLeave q).poolView

/-- What a queue leaves that shows its change. -/
theorem State.queueShown_spec (s : State) (q : Nat) : ((s.queueShown q).que q).frames = (s.que q).frames ∧
    (∀ k, ¬ sideKey k → ¬ releaseKey k → tget (s.queueShown q).regs k = tget s.regs k) ∧
    (s.queueShown q).toFd = s.toFd ∧ (s.queueShown q).spray = s.spray ∧ (s.queueShown q).voqLast = s.voqLast ∧ (s.queueShown q).flush = s.flush ∧
    (s.queueShown q).toBandState = s.toBandState ∧ (s.queueShown q).toLineState = s.toLineState ∧ (s.queueShown q).toPipeState = s.toPipeState ∧
    (s.queueShown q).nt = s.nt ∧ (s.queueShown q).hbm = s.hbm := by
  have hframes := spillLeave_frames s q
  obtain ⟨l, hl⟩ := spillLeave_only s q
  have hpool := poolView_near (s.spillLeave q)
  have hregs := (poolView_kept (s.spillLeave q)).regs
  obtain ⟨hband, hline, hpipe, hqd, hnt⟩ := coreParts_eq hpool.part
  rw [State.queueShown]
  generalize (s.spillLeave q).poolView = u at *
  refine ⟨?_, fun k a b => ?_, ?_, ?_, ?_, ?_, ?_, ?_, ?_, ?_, ?_⟩
  · rw [← hframes]
    exact congrArg (fun x : QdState => (tgetD x.queues q {}).frames) hqd
  · rw [hregs k a b, hl]
  · rw [congrArg QdState.toFd hqd, hl]
  · rw [congrArg QdState.spray hqd, hl]
  · rw [congrArg QdState.voqLast hqd, hl]
  · rw [congrArg QdState.flush hqd, hl]
  · rw [hband, hl]
  · rw [hline, hl]
  · rw [hpipe, hl]
  · rw [hnt, hl]
  · rw [congrArg QdState.hbm hqd, hl]

end Sys2Proof.Machine

/-! PROOFS. Scheduler: the descent of a decision changes nodes and counts only, and no node's words. -/

namespace Sys2Proof.Machine
set_option Elab.async false

/-! ### Nodes -/

/-- A level and an index that no other level's nodes share: below level 5 the index fits 18 bits. -/
def nodeProper (lvl i : Nat) : Prop := 1 ≤ lvl ∧ lvl ≤ 5 ∧ (lvl < 5 → i < 262144)

theorem nodeKey_inj {lvl i lvl' i' : Nat} (h : nodeProper lvl i) (h' : nodeProper lvl' i') (he : nodeKey lvl i = nodeKey lvl' i') :
    lvl = lvl' ∧ i = i' := by
  simp only [nodeProper, nodeKey] at *
  omega

/-- The counters of the node pages and what follows them there. -/
abbrev schKey (k : Nat) : Prop := 0xB1 * 2097152 ≤ k ∧ k < 0xB6 * 2097152

/-- From s to t only deficits, marks of choice and counts of nodes change. -/
structure Walked (s t : State) : Prop where
  only : ∃ r n, t = { s with regs := r, nodes := n }
  regs : ∀ k, ¬ sideKey k → ¬ schKey k → tget t.regs k = tget s.regs k
  words : ∀ lvl i, nodeProper lvl i → (t.node lvl i).words = (s.node lvl i).words

theorem Walked.refl (s : State) : Walked s s := ⟨⟨s.regs, s.nodes, rfl⟩, fun _ _ _ => rfl, fun _ _ _ => rfl⟩
theorem Walked.trans {s t u : State} (h : Walked s t) (g : Walked t u) : Walked s u := by
  obtain ⟨r, n, ht⟩ := h.only
  obtain ⟨r', n', hu⟩ := g.only
  exact ⟨⟨r', n', by rw [hu, ht]⟩, fun k a b => (g.regs k a b).trans (h.regs k a b), fun l i hp => (g.words l i hp).trans (h.words l i hp)⟩

theorem Walked.setNode {s t : State} (h : Walked s t) {lvl i : Nat} {n : Node} (hp : nodeProper lvl i) (hw : n.words = (t.node lvl i).words) :
    Walked s (t.setNode lvl i n) := by
  refine h.trans ⟨⟨t.regs, _, rfl⟩, fun _ _ _ => rfl, fun l j hj => ?_⟩
  by_cases he : nodeKey lvl i = nodeKey l j
  · obtain ⟨rfl, rfl⟩ := nodeKey_inj hp hj he
    rw [State.node, State.setNode, tgetD_tset_same, hw]
  · rw [State.node, State.setNode, tgetD_tset_ne _ _ _ he, State.node]
theorem Walked.cnt {s t : State} (h : Walked s t) {lvl n : Nat} (hl : 1 ≤ lvl ∧ lvl ≤ 5) (hn : n < 4) :
    Walked s (t.cnt (pgSCH lvl) SCH.SCH_CNT n) := by
  obtain ⟨r, hr⟩ := (OnlyRegs.refl t).bump (pgSCH lvl) SCH.SCH_CNT n n 1
  have hkept : Kept schKey coreParts t (t.cnt (pgSCH lvl) SCH.SCH_CNT n) :=
    (Kept.wr _ (by simp only [schKey, Fld.key, pgSCH, SCH.SCH_CNT]; omega) rfl).trans (.calm (Calm.pmc _ _ _ _) (coreParts_calm (Calm.pmc _ _ _ _)))
  refine h.trans ⟨⟨r, t.nodes, hr⟩, hkept.regs, fun l i _ => ?_⟩
  rw [State.cnt, hr]
  rfl

/-! ### Choosing a child -/

theorem nextIn_mem (l : List Nat) (c : Nat) : nextIn l c ∈ l ∨ nextIn l c = 0 := by
  rw [nextIn]
  cases hf : l.find? fun x => c < x with
  | some x => exact .inl (List.mem_of_find?_eq_some hf)
  | none =>
    cases l with
    | nil => exact .inr rfl
    | cons a l => exact .inl List.mem_cons_self
theorem rrNext_mem (l : List Nat) (o : Option Nat) : rrNext l o ∈ l ∨ rrNext l o = 0 := by
  cases o with
  | some c => exact nextIn_mem l c
  | none =>
    cases l with
    | nil => exact .inr rfl
    | cons a l => exact .inl List.mem_cons_self

/-- The children of a node that may be named at the next level. -/
theorem children_proper (s : State) {lvl i c : Nat} (h : 1 ≤ lvl ∧ lvl ≤ 4) (hc : c ∈ s.children lvl i ∨ c = 0) : nodeProper (lvl + 1) c := by
  refine ⟨by omega, by omega, fun hlt => ?_⟩
  obtain hc | rfl := hc
  · rw [State.children, if_neg (by omega)] at hc
    obtain ⟨e, -, rfl⟩ := List.mem_map.1 hc
    exact Nat.mod_lt _ (by decide)
  · decide
theorem topPrio_subset (s : State) (lvl i : Nat) (l : List Nat) : s.topPrio lvl i l ⊆ l := by
  rw [State.topPrio]
  split
  · exact List.Subset.refl l
  · exact fun x hx => (List.mem_filter.1 hx).1

/-- The weighted phase adds quanta to children and ends at one of them. -/
theorem dwrr_spec {s t : State} (h : Walked s t) {lvl : Nat} {l : List Nat} (hl : ∀ c, c ∈ l ∨ c = 0 → nodeProper (lvl + 1) c) (left : Nat) {cur : Nat}
    (hcur : nodeProper (lvl + 1) cur) : Walked s (t.dwrr lvl l left cur).1 ∧ nodeProper (lvl + 1) (t.dwrr lvl l left cur).2 := by
  induction left generalizing t cur with
  | zero => exact ⟨h, hcur⟩
  | succ left ih =>
    rw [State.dwrr]
    split
    · exact ⟨h, hcur⟩
    · refine ih ?_ (hl _ (nextIn_mem l cur))
      exact h.setNode hcur rfl

theorem pickChild_spec {s t : State} (h : Walked s t) {lvl i c : Nat} {w : Bool} {u : State} (hp : nodeProper lvl i) (hl : lvl ≤ 4)
    (hpick : t.pickChild lvl i = some (u, c, w)) : Walked s u ∧ nodeProper (lvl + 1) c := by
  have hkids : ∀ l : List Nat, (∀ x ∈ l, x ∈ t.children lvl i) → ∀ x, x ∈ l ∨ x = 0 → nodeProper (lvl + 1) x := fun l hsub x hx =>
    children_proper t ⟨hp.1, hl⟩ (hx.imp (hsub x) id)
  unfold State.pickChild at hpick
  extract_lets kids n xs cs ms ws start r src at hpick
  have hcs : ∀ x ∈ cs, x ∈ t.children lvl i := fun x hx => (List.mem_filter.1 hx).1
  have hws : ∀ x ∈ ws, x ∈ t.children lvl i := fun x hx => hcs x (topPrio_subset t lvl i cs hx)
  split at hpick
  · cases hpick
    exact ⟨h.setNode hp rfl, hkids xs (fun x hx => (List.mem_filter.1 hx).1) _ (rrNext_mem _ _)⟩
  · split at hpick
    · cases hpick
      exact ⟨h.setNode hp rfl, hkids ms (fun x hx => hcs x ((List.mem_filter.1 (topPrio_subset t lvl i _ hx)).1)) _ (rrNext_mem _ _)⟩
    · split at hpick
      · cases hpick
      · cases hpick
        have hproper := hkids ws hws
        have hstart : nodeProper (lvl + 1) start := by
          simp only [start]
          split
          · refine hproper _ ?_
            cases ws with
            | nil => exact .inr rfl
            | cons a l => exact .inl List.mem_cons_self
          · next k _ =>
            split
            · next hk => exact hproper _ (.inl (by simpa using hk))
            · exact hproper _ (nextIn_mem ws k)
        obtain ⟨hwalk, hend⟩ := dwrr_spec h hproper (ws.length * 1024) hstart
        exact ⟨hwalk.setNode hp rfl, hend⟩

/-- The descent of a decision. -/
theorem descend_spec {s t : State} (h : Walked s t) {left lvl i : Nat} {u : State} {path : List (Nat × Nat × Bool)} (hp : nodeProper lvl i)
    (hl : lvl + left = 5) (hd : t.descend left lvl i = some (u, path)) : Walked s u ∧ ∀ e ∈ path, 1 ≤ e.1 ∧ e.1 ≤ 5 := by
  induction left generalizing t lvl i path with
  | zero =>
    cases hd
    exact ⟨h, by simp⟩
  | succ left ih =>
    rw [State.descend] at hd
    split at hd
    · cases hd
    · next s1 c w hpick =>
      split at hd
      · cases hd
      · next s2 l hdesc =>
        cases hd
        obtain ⟨hwalk, hc⟩ := pickChild_spec h hp (by omega) hpick
        obtain ⟨hu, hpath⟩ := ih (hwalk.cnt ⟨hp.1, hp.2.1⟩ (by decide)) hc (by omega) hdesc
        refine ⟨hu, fun e he => ?_⟩
        obtain rfl | he := List.mem_cons.1 he
        · exact ⟨by simp only; omega, by simp only; omega⟩
        · exact hpath e he

end Sys2Proof.Machine

/-! PROOFS. Scheduler: grants, node and profile commands, and the obligation. -/

namespace Sys2Proof.Machine
set_option Elab.async false

/-! ### Frames that are granted -/

/-- What granted frames leave alone: all but buffers, the two ways out and the MACs' slots. -/
def sendRest (s : State) : BandState × PipeState × NetTime × QdState :=
  (s.toBandState, s.toPipeState, s.nt, { s.toQdState with bufs := [], toFd := [], spray := [] })

theorem sendRest_core {s t : State} (h : coreParts t = coreParts s) : sendRest t = sendRest s := by
  obtain ⟨hband, -, hpipe, hqd, hnt⟩ := coreParts_eq h
  simp only [sendRest, hband, hpipe, hqd, hnt]
theorem sendRest_eq {s t : State} (h : sendRest t = sendRest s) : t.toBandState = s.toBandState ∧ t.toPipeState = s.toPipeState ∧
    t.nt = s.nt ∧ t.hbm = s.hbm ∧ t.queues = s.queues ∧ t.voqLast = s.voqLast := by
  simp only [sendRest, Prod.mk.injEq, QdState.mk.injEq] at h
  simp [h]

/-- The registers of traces, and the count of granted frames. -/
abbrev tracedKey (k : Nat) : Prop := obsKey k ∨ k = QSU.QSU_CNT.key pgQSU 0

theorem traced_near (s : State) (f : Frame) (a b c d : Nat) :
    Near tracedKey coreParts s ((s.cnt pgQSU QSU.QSU_CNT 0).tracePoint f a b c d) :=
  ((Near.refl s).bump_core 0 1 (.inr rfl) (by decide)).trans ((tracePoint_near _ _ _ _ _ _).mono fun _ h => .inl h)
theorem grantHold_only (s : State) (f : Frame) : ∃ b, s.grantHold f = { s with bufs := b } := by
  rw [State.grantHold]
  split
  · split
    · exact ⟨_, rfl⟩
    · exact ⟨s.bufs, rfl⟩
  · exact ⟨s.bufs, rfl⟩

theorem discards_congr {s t : State} {p : Nat} (hhost : t.rd pgQSU QSU.HOST_PORT_PORT = s.rd pgQSU QSU.HOST_PORT_PORT)
    (hctl : t.rd pgQSU QSU.QSU_CTL_DOWN_DISCARD = s.rd pgQSU QSU.QSU_CTL_DOWN_DISCARD)
    (hlink : t.rd (msc p) MSC.MAC_STS_LINK (p % 16) = s.rd (msc p) MSC.MAC_STS_LINK (p % 16)) : t.discards p = s.discards p := by
  unfold State.discards State.isHostPort State.on
  rw [hhost, hctl, hlink]

/-- Registers that the discarding of a port's grants reads. -/
theorem discards_of_regs {s t : State} {p : Nat} (hp : p < 256)
    (h : ∀ (q : Nat) (f : Fld) (i : Nat), q < 0xA0 ∨ q = pgQSU ∧ f.off < 0x110 ∧ i = 0 → f.calmAt q i → t.rd q f i = s.rd q f i) : t.discards p = s.discards p := by
  refine discards_congr (h _ _ _ (.inr ⟨rfl, by decide, rfl⟩) (by decide)) (h _ _ _ (.inr ⟨rfl, by decide, rfl⟩) (by decide)) (h _ _ _ (.inl ?_) ?_)
  · simp only [msc, pgMSC]
    omega
  · simp only [Fld.calmAt, msc, pgMSC, MSC.MAC_STS_LINK]
    omega

section
variable {s : State} {p : Nat} (m : Nat)

/-- One frame granted to a port. -/
theorem grantFrame_spec (hp : p < 256) (hd : s.discards p = false) (f : Frame) :
    (s.grantFrame p m f).toFd = s.toFd ++ [{ f with outPort := p, macq := m }] ∧ sendRest (s.grantFrame p m f) = sendRest s ∧
      (s.grantFrame p m f).discards p = false := by
  have hnear := traced_near s f 5 0 f.queue (p % 256)
  have hdis : ((s.cnt pgQSU QSU.QSU_CNT 0).tracePoint f 5 0 f.queue (p % 256)).discards p = false := by
    rw [← hd]
    refine discards_of_regs hp fun q g i hq hg => hnear.rd (not_sideKey_of_calmAt hg) ?_
    simp only [tracedKey, obsKey, Fld.key, pgOBS, pgQSU, QSU.QSU_CNT, Fld.calmAt] at hq hg ⊢
    have hzero : i = 0 → g.stride * i = 0 := fun h => by rw [h, Nat.mul_zero]
    generalize g.stride * i = o at hg hzero ⊢
    omega
  obtain ⟨hband, -, hpipe, hqd, hnt⟩ := coreParts_eq hnear.part
  rw [State.grantFrame]
  generalize (s.cnt pgQSU QSU.QSU_CNT 0).tracePoint f 5 0 f.queue (p % 256) = u at *
  obtain ⟨b, hb⟩ := grantHold_only u f
  simp only [hd, Bool.false_eq_true, if_false, hb]
  have hfd : u.toFd = s.toFd := congrArg QdState.toFd hqd
  have hrest : sendRest u = sendRest s := by simp only [sendRest, hband, hpipe, hqd, hnt]
  split
  · exact ⟨congrArg (· ++ _) hfd, hrest, hdis⟩
  · exact ⟨congrArg (· ++ _) hfd, hrest, hdis⟩

theorem grantFrames_spec (hp : p < 256) (hd : s.discards p = false) (l : List Frame) :
    (l.foldl (fun (t : State) f => t.grantFrame p m f) s).toFd = s.toFd ++ l.map (fun f => { f with outPort := p, macq := m }) ∧
      sendRest (l.foldl (fun (t : State) f => t.grantFrame p m f) s) = sendRest s := by
  induction l generalizing s with
  | nil => exact ⟨by simp, rfl⟩
  | cons f l ih =>
    obtain ⟨hfd, hrest, hdis⟩ := grantFrame_spec m hp hd f
    obtain ⟨hfd', hrest'⟩ := ih hdis
    exact ⟨by rw [List.foldl_cons, hfd', hfd]; simp, hrest'.trans hrest⟩
end

/-- One good frame granted to the sprayer. -/
theorem voqFrame_spec (s : State) (v : Nat) {f : Frame} (hf : (!f.poison && !f.err && f.fcsGood) = true) :
    (s.voqFrame v f).spray = s.spray ++ [{ frame := f, dst := v / 8, cls := v % 8, sent := 0 }] ∧ sendRest (s.voqFrame v f) = sendRest s ∧
      (s.voqFrame v f).toLineState = s.toLineState := by
  simp only [Bool.and_eq_true, Bool.not_eq_true'] at hf
  obtain ⟨⟨hpoison, herr⟩, hfcs⟩ := hf
  obtain ⟨hband, hline, hpipe, hqd, hnt⟩ := coreParts_eq (traced_near s f 5 0 f.queue 0).part
  rw [State.voqFrame]
  generalize (s.cnt pgQSU QSU.QSU_CNT 0).tracePoint f 5 0 f.queue 0 = u at *
  obtain ⟨b, hb⟩ := grantHold_only u f
  simp only [hpoison, herr, hfcs, hb, Bool.false_eq_true, if_false, not_true, or_self]
  have hspray : u.spray = s.spray := congrArg QdState.spray hqd
  have hrest : sendRest u = sendRest s := by simp only [sendRest, hband, hpipe, hqd, hnt]
  exact ⟨congrArg (· ++ _) hspray, hrest, hline⟩
theorem voqFrames_spec (s : State) (v : Nat) {l : List Frame} (hl : l.all (fun f => !f.poison && !f.err && f.fcsGood) = true) :
    (l.foldl (fun (t : State) f => t.voqFrame v f) s).spray = s.spray ++ l.map (fun f => { frame := f, dst := v / 8, cls := v % 8, sent := 0 }) ∧
      sendRest (l.foldl (fun (t : State) f => t.voqFrame v f) s) = sendRest s ∧
      (l.foldl (fun (t : State) f => t.voqFrame v f) s).toLineState = s.toLineState := by
  induction l generalizing s with
  | nil => exact ⟨by simp, rfl, rfl⟩
  | cons f l ih =>
    rw [List.all_cons, Bool.and_eq_true] at hl
    obtain ⟨hf, hl⟩ := hl
    obtain ⟨hspray, hrest, hline⟩ := voqFrame_spec s v hf
    obtain ⟨hspray', hrest', hline'⟩ := ih (s.voqFrame v f) hl
    exact ⟨by rw [List.foldl_cons, hspray', hspray]; simp, hrest'.trans hrest, hline'.trans hline⟩

/-! ### A grant along a path -/

/-- A node of a grant: nodes and counts change. -/
theorem chargeNode_kept (s : State) {lvl : Nat} (hl : 1 ≤ lvl ∧ lvl ≤ 5) (i : Nat) (w : Bool) (l : List Frame) :
    ∃ r n, s.chargeNode lvl i w l = { s with regs := r, nodes := n } ∧ ∀ k, ¬ sideKey k → ¬ schKey k → tget r k = tget s.regs k := by
  have hcnt : ∀ (u : State) (k n : Nat), k < 4 → ∃ r, u.bump (pgSCH lvl) SCH.SCH_CNT k k n = { u with regs := r } ∧
      ∀ j, ¬ sideKey j → ¬ schKey j → tget r j = tget u.regs j := by
    intro u k n hk
    obtain ⟨r, hr⟩ := (OnlyRegs.refl u).bump (pgSCH lvl) SCH.SCH_CNT k k n
    have hkept : Kept schKey coreParts u (u.bump (pgSCH lvl) SCH.SCH_CNT k k n) :=
      (Kept.wr _ (by simp only [schKey, Fld.key, pgSCH, SCH.SCH_CNT]; omega) rfl).trans (.calm (Calm.pmc _ _ _ _) (coreParts_calm (Calm.pmc _ _ _ _)))
    exact ⟨r, hr, fun j a b => by rw [← hkept.regs j a b, hr]⟩
  unfold State.chargeNode
  extract_lets n bytes w2 y
  obtain ⟨r1, h1, k1⟩ := hcnt (s.setNode lvl i y) 1 1 (by decide)
  obtain ⟨r2, h2, k2⟩ := hcnt ((s.setNode lvl i y).bump (pgSCH lvl) SCH.SCH_CNT 1 1 1) 2 bytes (by decide)
  refine ⟨r2, _, h2.trans (by rw [h1]; rfl), fun k a b => (k2 k a b).trans ?_⟩
  rw [h1]
  exact k1 k a b

/-- The nodes of a path. -/
theorem chargeNodes_kept (s : State) (l : List Frame) (path : List (Nat × Nat × Bool)) (hp : ∀ e ∈ path, 1 ≤ e.1 ∧ e.1 ≤ 5) :
    ∃ r n, path.foldl (fun (t : State) e => t.chargeNode e.1 e.2.1 e.2.2 l) s = { s with regs := r, nodes := n } ∧
      ∀ k, ¬ sideKey k → ¬ schKey k → tget r k = tget s.regs k := by
  induction path generalizing s with
  | nil => exact ⟨s.regs, s.nodes, rfl, fun _ _ _ => rfl⟩
  | cons e path ih =>
    obtain ⟨r, n, h, hk⟩ := chargeNode_kept s (hp e List.mem_cons_self) e.2.1 e.2.2 l
    obtain ⟨r', n', h', hk'⟩ := ih (s.chargeNode e.1 e.2.1 e.2.2 l) fun d hd => hp d (List.mem_cons_of_mem _ hd)
    refine ⟨r', n', by rw [List.foldl_cons, h', h], fun k a b => (hk' k a b).trans ?_⟩
    rw [h]
    exact hk k a b

/-- A state whose queue q was replaced, and nodes and their counts changed. -/
theorem charged_parts {s u : State} {p q : Nat} {y : Queue} {r : Tbl Nat} {n : Tbl Node} (hp : p < 256)
    (hu : u = { s.setQue q y with regs := r, nodes := n }) (hr : ∀ k, ¬ sideKey k → ¬ schKey k → tget r k = tget s.regs k) :
    u.discards p = s.discards p ∧ u.toFd = s.toFd ∧ u.que q = y ∧ u.toBandState = s.toBandState ∧ u.toPipeState = s.toPipeState ∧
      u.nt = s.nt ∧ u.hbm = s.hbm := by
  have hur : u.regs = r := by rw [hu]
  have huq : u.queues = (s.setQue q y).queues := by rw [hu]
  have hparts : u.toFd = s.toFd ∧ u.toBandState = s.toBandState ∧ u.toPipeState = s.toPipeState ∧ u.nt = s.nt ∧ u.hbm = s.hbm := by
    rw [hu]
    exact ⟨rfl, rfl, rfl, rfl, rfl⟩
  clear hu
  obtain ⟨hfd, hrest⟩ := hparts
  refine ⟨discards_of_regs hp fun g f i hg hf => ?_, hfd, ?_, hrest⟩
  · have hsch : ¬ schKey (f.key g i) := by
      simp only [schKey, Fld.key, Fld.calmAt, pgQSU] at hg hf ⊢
      generalize f.stride * i = o at hf ⊢
      omega
    rw [State.rd, State.rd, tgetD, tgetD, hur, hr _ (not_sideKey_of_calmAt hf) hsch]
  · rw [← que_setQue' s q y, State.que, huq, State.que]

/-- What a whole grant of queue q leaves: its run gone from the queue and on its way to the front die. -/
theorem grant_spec {s : State} {p : Nat} (q : Nat) {path : List (Nat × Nat × Bool)} (hp : p < 256) (hd : s.discards p = false)
    (hpath : ∀ e ∈ path, 1 ≤ e.1 ∧ e.1 ≤ 5) : ∃ v, s.grant p q path = v ∧
      (v.que q).frames = (grantRun (s.slotBytes p) 0 (s.que q).frames).2 ∧
      v.toFd = s.toFd ++ (grantRun (s.slotBytes p) 0 (s.que q).frames).1.map (fun f => { f with outPort := p, macq := s.macqOf q }) ∧
      v.toBandState = s.toBandState ∧ v.toPipeState = s.toPipeState ∧ v.nt = s.nt ∧ v.hbm = s.hbm := by
  have hgrant : s.grant p q path = (((grantRun (s.slotBytes p) 0 (s.que q).frames).1.foldl (fun (t : State) f => t.grantFrame p (s.macqOf q) f)
      (((1, p, false) :: path).foldl (fun (t : State) e => t.chargeNode e.1 e.2.1 e.2.2 (grantRun (s.slotBytes p) 0 (s.que q).frames).1)
        (s.setQue q { s.que q with frames := (grantRun (s.slotBytes p) 0 (s.que q).frames).2 }))).queueShown q).settle := rfl
  rw [hgrant]
  generalize grantRun (s.slotBytes p) 0 (s.que q).frames = run
  obtain ⟨r, n, hcharged, hregs⟩ := chargeNodes_kept (s.setQue q { s.que q with frames := run.2 }) run.1 ((1, p, false) :: path) fun e he => by
    obtain rfl | he := List.mem_cons.1 he
    · exact ⟨Nat.le_refl 1, by simp⟩
    · exact hpath e he
  have hque := que_setQue' s q { s.que q with frames := run.2 }
  have hregs' : ∀ k, ¬ sideKey k → ¬ schKey k → tget r k = tget s.regs k := hregs
  obtain ⟨hdis, hfd, hqueue, hband, hpipe, hnt, hhbm⟩ := charged_parts hp hcharged hregs'
  rw [hd] at hdis
  generalize ((1, p, false) :: path).foldl (fun (t : State) e => t.chargeNode e.1 e.2.1 e.2.2 run.1)
    (s.setQue q { s.que q with frames := run.2 }) = a at *
  obtain ⟨hsent, hrest⟩ := grantFrames_spec (s.macqOf q) hp hdis run.1
  obtain ⟨band', pipe', nt', hbm', queues', -⟩ := sendRest_eq hrest
  generalize run.1.foldl (fun (t : State) f => t.grantFrame p (s.macqOf q) f) a = b at *
  obtain ⟨hframes, -, hfd', -, -, -, hband', -, hpipe', hnt', hhbm'⟩ := b.queueShown_spec q
  have hbque : b.que q = a.que q := congrArg (fun t : Tbl Queue => tgetD t q {}) queues'
  obtain ⟨m, hm⟩ := settle_only (b.queueShown q)
  refine ⟨_, rfl, ?_⟩
  rw [hm]
  refine ⟨?_, hfd'.trans (hsent.trans ?_), hband'.trans (band'.trans hband), hpipe'.trans (pipe'.trans hpipe), hnt'.trans (nt'.trans hnt),
    hhbm'.trans (hbm'.trans hhbm)⟩
  · exact hframes.trans (by rw [hbque, hqueue])
  · rw [hfd]

/-- The grant of a VOQ of express class. -/
theorem voqGrant_spec {s : State} {v : Nat} (hv : v % 8 = 7)
    (hgood : (voqRun 0 (s.que (voq0 + v)).frames).1.all (fun f => !f.poison && !f.err && f.fcsGood) = true) : ∃ t, s.voqGrant v = t ∧
      (t.que (voq0 + v)).frames = (voqRun 0 (s.que (voq0 + v)).frames).2 ∧
      t.spray = s.spray ++ (voqRun 0 (s.que (voq0 + v)).frames).1.map (fun f => { frame := f, dst := v / 8, cls := 7, sent := 0 }) ∧
      tget t.voqLast 7 = some (v / 8) ∧ t.toBandState = s.toBandState ∧ t.toLineState = s.toLineState ∧ t.toPipeState = s.toPipeState ∧
      t.nt = s.nt ∧ t.hbm = s.hbm := by
  have hgrant : s.voqGrant v = ((voqRun 0 (s.que (voq0 + v)).frames).1.foldl (fun (t : State) f => t.voqFrame v f)
      { s.setQue (voq0 + v) { s.que (voq0 + v) with frames := (voqRun 0 (s.que (voq0 + v)).frames).2 } with
        voqLast := tset s.voqLast (v % 8) (v / 8) }).queueShown (voq0 + v) := by
    rw [State.voqGrant, if_pos hv]
    rfl
  rw [hgrant]
  generalize voqRun 0 (s.que (voq0 + v)).frames = run at *
  have hstart : ∀ a : State, a = { s.setQue (voq0 + v) { s.que (voq0 + v) with frames := run.2 } with voqLast := tset s.voqLast (v % 8) (v / 8) } →
      a.que (voq0 + v) = { s.que (voq0 + v) with frames := run.2 } ∧ a.spray = s.spray ∧ tget a.voqLast 7 = some (v / 8) ∧
      a.toBandState = s.toBandState ∧ a.toLineState = s.toLineState ∧ a.toPipeState = s.toPipeState ∧ a.nt = s.nt ∧ a.hbm = s.hbm := by
    rintro a rfl
    refine ⟨que_setQue' s _ _, rfl, ?_, rfl, rfl, rfl, rfl, rfl⟩
    rw [hv]
    exact tget_tset_same ..
  obtain ⟨hque, hspray, hlast, hband, hline, hpipe, hnt, hhbm⟩ := hstart _ rfl
  generalize ({ s.setQue (voq0 + v) { s.que (voq0 + v) with frames := run.2 } with voqLast := tset s.voqLast (v % 8) (v / 8) } : State) = a at *
  obtain ⟨hsent, hrest, line'⟩ := voqFrames_spec a v hgood
  obtain ⟨band', pipe', nt', hbm', queues', last'⟩ := sendRest_eq hrest
  generalize run.1.foldl (fun (t : State) f => t.voqFrame v f) a = b at *
  obtain ⟨hframes, -, -, hspray', hlast', -, hband', hline', hpipe', hnt', hhbm'⟩ := b.queueShown_spec (voq0 + v)
  have hbque : b.que (voq0 + v) = a.que (voq0 + v) := congrArg (fun t : Tbl Queue => tgetD t (voq0 + v) {}) queues'
  refine ⟨_, rfl, ?_, ?_, ?_, hband'.trans (band'.trans hband), hline'.trans (line'.trans hline), hpipe'.trans (pipe'.trans hpipe),
    hnt'.trans (nt'.trans hnt), hhbm'.trans (hbm'.trans hhbm)⟩
  · rw [hframes, hbque, hque]
  · rw [hspray', hsent, hspray, hv]
  · rw [hlast', last', hlast]

/-! ### The words of nodes after a write -/

theorem words_map (l : Tbl Node) (g : Nat × Node → Nat × Node) (hkey : ∀ e, (g e).1 = e.1) (hwords : ∀ e, (g e).2.words = e.2.words) (k : Nat) (d : Node) :
    (tgetD (l.map g) k d).words = (tgetD l k d).words := by
  induction l with
  | nil => rfl
  | cons e l ih =>
    have hk := hkey e
    have hw := hwords e
    obtain ⟨a, x⟩ := e
    simp only [tgetD, List.map_cons] at ih ⊢
    generalize g (a, x) = y at hk hw ⊢
    obtain ⟨b, z⟩ := y
    simp only at hk hw
    subst hk
    simp only [tget]
    split
    · exact hw
    · exact ih
theorem settle_words (s : State) (lvl i : Nat) : (s.settle.node lvl i).words = (s.node lvl i).words := by
  refine words_map s.nodes _ (fun e => ?_) (fun e => ?_) _ _
  · dsimp only
    split <;> rfl
  · dsimp only
    split <;> rfl

/-- The nodes of a level, after a write without error. -/
def State.nodeStored (s : State) (lvl i : Nat) (w : List Nat) : State :=
  let moved := decide (2 ≤ lvl ∧ lvl ≤ 4 ∧ bits (w.getD 0 0) 0 18 ≠ bits ((s.node lvl i).word 0) 0 18)
  (s.setNode lvl i { s.node lvl i with words := w, deficit := if moved then 0 else (s.node lvl i).deficit }).settle
theorem nodeStored_words (s : State) (lvl i : Nat) (w : List Nat) : ((s.nodeStored lvl i w).node lvl i).words = w := by
  rw [State.nodeStored, settle_words, State.node, State.setNode, tgetD_tset_same]
theorem nodeWrite_good {s : State} {lvl : Nat} (tag : Nat) (h : s.nodeErr lvl (s.rd (pgSCH lvl) SCH.NODE_IDX_INDEX) (s.stagedNode lvl) = 0) :
    s.nodeWrite lvl tag = (s.nodeStored lvl (s.rd (pgSCH lvl) SCH.NODE_IDX_INDEX) (s.stagedNode lvl)).result (pgSCH lvl) SCH.NODE_RES tag DONE := by
  rw [State.nodeWrite, if_neg (by simp [h])]
  rfl

/-- The staged words of a node that is read. -/
def State.nodeShown (s : State) (lvl : Nat) (n : Node) : State :=
  (List.range 4).foldl (fun (t : State) k => t.wr (pgSCH lvl) SCH.NODE_W_WORD (n.word k) k) s
theorem nodeShown_only (s : State) (lvl : Nat) (n : Node) : OnlyRegs s (s.nodeShown lvl n) :=
  OnlyRegs.foldl (f := fun (t : State) k => t.wr (pgSCH lvl) SCH.NODE_W_WORD (n.word k) k) (fun u _ => (OnlyRegs.refl u).wr ..) _ _
theorem nodeShown_rd (s : State) (lvl : Nat) (n : Node) {k : Nat} (hk : k < 4) :
    (s.nodeShown lvl n).rd (pgSCH lvl) SCH.NODE_W_WORD k = n.word k % 2 ^ 32 :=
  State.rd_foldl_wr_mem (β := Nat) (List.range 4) (fun _ => pgSCH lvl) SCH.NODE_W_WORD n.word (fun k => k) s (List.mem_range.2 hk) fun y _ h => by
    simp only [Fld.key, SCH.NODE_W_WORD] at h
    omega
theorem nodeRead_good {s : State} {lvl : Nat} (tag : Nat) (h : s.rd (pgSCH lvl) SCH.NODE_IDX_INDEX < levelSize lvl) :
    ∃ ws, s.nodeRead lvl tag = (s.nodeShown lvl (s.node lvl (s.rd (pgSCH lvl) SCH.NODE_IDX_INDEX))).result (pgSCH lvl) SCH.NODE_RES tag DONE ws :=
  ⟨_, if_neg (Nat.not_le.2 h)⟩

/-! ### The flush -/

/-- A flush that begins, before its queue is shown. -/
def State.flushed (s : State) (sweep : Bool) (tag q : Nat) : State :=
  ((({ s with flush := some { queue := q, sweep := sweep, tag := tag, dropped := (s.que q).frames.length, late := false } } : State).resStart pgQSU
    QSU.QSU_RES).wr pgQSU COMMON.PAGE_STS_BUSY 1).dropAll q

theorem flushStart_good {s : State} (sweep : Bool) (tag : Nat) (hf : s.flush = none) (hq : s.rd pgQSU QSU.QSU_CMD_Q_QUEUE < 294912) :
    s.flushStart sweep tag = ((s.flushed sweep tag (s.rd pgQSU QSU.QSU_CMD_Q_QUEUE)).queueShown (s.rd pgQSU QSU.QSU_CMD_Q_QUEUE)).settle := by
  unfold State.flushStart
  rw [if_neg (by simp [hf]), if_neg (Nat.not_le.2 hq)]
  rfl

/-- What a flush that begins has done. -/
theorem flushed_spec (s : State) (sweep : Bool) (tag q : Nat) : ∃ v, s.flushed sweep tag q = v ∧
    v.flush = some { queue := q, sweep := sweep, tag := tag, dropped := (s.que q).frames.length, late := false } ∧ (v.que q).frames = [] ∧
    v.rd pgQSU COMMON.PAGE_STS_BUSY = 1 ∧ v.rd pgQSU QSU.QSU_RES.valid = 0 ∧ v.toBandState = s.toBandState ∧ v.toLineState = s.toLineState ∧
    v.toPipeState = s.toPipeState ∧ v.nt = s.nt ∧ v.hbm = s.hbm := by
  have hstart : ∀ a : State, a = (({ s with flush := some { queue := q, sweep := sweep, tag := tag, dropped := (s.que q).frames.length, late := false } } : State).resStart
      pgQSU QSU.QSU_RES).wr pgQSU COMMON.PAGE_STS_BUSY 1 → a.flush = some { queue := q, sweep := sweep, tag := tag, dropped := (s.que q).frames.length, late := false } ∧
      a.rd pgQSU COMMON.PAGE_STS_BUSY = 1 ∧ a.rd pgQSU QSU.QSU_RES.valid = 0 ∧ a.toBandState = s.toBandState ∧ a.toLineState = s.toLineState ∧
      a.toPipeState = s.toPipeState ∧ a.nt = s.nt ∧ a.hbm = s.hbm := by
    rintro a rfl
    refine ⟨rfl, ?_, ?_, rfl, rfl, rfl, rfl, rfl⟩
    · rw [State.rd_wr_same]
      rfl
    · rw [State.rd_wr_ne _ _ (by decide), State.resStart, State.rd_wr_same]
      rfl
  rw [State.flushed]
  obtain ⟨hflush, hbusy, hvalid, hband, hline, hpipe, hnt, hhbm⟩ := hstart _ rfl
  generalize (({ s with flush := some { queue := q, sweep := sweep, tag := tag, dropped := (s.que q).frames.length, late := false } } : State).resStart
      pgQSU QSU.QSU_RES).wr pgQSU COMMON.PAGE_STS_BUSY 1 = a at *
  have hempty : ((a.setQue q { a.que q with frames := [] }).que q).frames = [] := by rw [que_setQue']
  have hset : ∃ l, a.setQue q { a.que q with frames := [] } = { a with queues := l } := ⟨_, rfl⟩
  have hdrop := dropped_kept (a.setQue q { a.que q with frames := [] }) (a.que q).frames
  rw [State.dropAll]
  generalize (a.que q).frames.foldl (fun (t : State) f => (t.cnt pgQSU QSU.QSU_CNT 4).release f) (a.setQue q { a.que q with frames := [] }) = v at *
  generalize a.setQue q { a.que q with frames := [] } = b at *
  obtain ⟨l, hl⟩ := hset
  obtain ⟨band', line', pipe', nt', hbm', queues', flush'⟩ := releaseRest_eq hdrop.part
  refine ⟨v, rfl, ?_, ?_, ?_, ?_, ?_, ?_, ?_, ?_, ?_⟩
  · rw [flush', hl, hflush]
  · rw [← hempty]
    exact congrArg (fun t : Tbl Queue => (tgetD t q {}).frames) queues'
  · rw [hdrop.rd (by decide) (by decide), hl, State.rd_parts, hbusy]
  · rw [hdrop.rd (by decide) (by decide), hl, State.rd_parts, hvalid]
  · rw [band', hl, hband]
  · rw [line', hl, hline]
  · rw [pipe', hl, hpipe]
  · rw [nt', hl, hnt]
  · rw [hbm', hl, hhbm]

/-- A flush that begins, shown. -/
theorem flushStart_spec {s : State} (sweep : Bool) (tag : Nat) (hf : s.flush = none) (hq : s.rd pgQSU QSU.QSU_CMD_Q_QUEUE < 294912) :
    ∃ v, s.flushStart sweep tag = v ∧
    v.flush = some { queue := s.rd pgQSU QSU.QSU_CMD_Q_QUEUE, sweep := sweep, tag := tag, dropped := (s.que (s.rd pgQSU QSU.QSU_CMD_Q_QUEUE)).frames.length, late := false } ∧
    (v.que (s.rd pgQSU QSU.QSU_CMD_Q_QUEUE)).frames = [] ∧
    v.rd pgQSU COMMON.PAGE_STS_BUSY = 1 ∧ v.rd pgQSU QSU.QSU_RES.valid = 0 ∧ v.toBandState = s.toBandState ∧ v.toLineState = s.toLineState ∧
    v.toPipeState = s.toPipeState ∧ v.nt = s.nt ∧ v.hbm = s.hbm := by
  rw [flushStart_good sweep tag hf hq]
  generalize s.rd pgQSU QSU.QSU_CMD_Q_QUEUE = q
  obtain ⟨a, ha, hflush, hempty, hbusy, hvalid, hband, hline, hpipe, hnt, hhbm⟩ := flushed_spec s sweep tag q
  rw [ha]
  obtain ⟨hframes, hregs, -, -, -, hflush', hband', hline', hpipe', hnt', hhbm'⟩ := a.queueShown_spec q
  obtain ⟨n, hn⟩ := settle_only (a.queueShown q)
  have hrd : ∀ f : Fld, ¬ sideKey (f.key pgQSU 0) → ¬ releaseKey (f.key pgQSU 0) → (a.queueShown q).rd pgQSU f = a.rd pgQSU f := fun f hs hr => by
    rw [State.rd, State.rd, tgetD, tgetD, hregs _ hs hr]
  rw [hn]
  refine ⟨_, rfl, hflush'.trans hflush, hframes.trans hempty, ?_, ?_, hband'.trans hband, hline'.trans hline, hpipe'.trans hpipe, hnt'.trans hnt,
    hhbm'.trans hhbm⟩
  · rw [State.rd_parts, hrd _ (by decide) (by decide), hbusy]
  · rw [State.rd_parts, hrd _ (by decide) (by decide), hvalid]

end Sys2Proof.Machine

/-! PROOFS. Scheduler: the obligation. -/

namespace Sys2Proof.Machine
set_option Elab.async false

/-! ### The commands by their equations -/

theorem schedDecision_eq {s : State} {port q : Nat} {path : List (Nat × Nat × Bool)} (hport : port < 256) (hon : s.schedOn = true)
    (helig : (s.elig 1 port).1 = true ∨ (s.elig 1 port).2 = true) (hpath : (s.descend 4 1 port).map (fun x => x.2) = some path)
    (hq : path.getLast?.map (fun x => x.2.1) = some q) :
    ∃ s1, s.descend 4 1 port = some (s1, path) ∧ exec (.schedDecision port false) s = .next (s1.grant port q path) := by
  obtain ⟨⟨s1, p⟩, hd, rfl⟩ := Option.map_eq_some_iff.1 hpath
  refine ⟨s1, hd, congrArg Host.Outcome.next ?_⟩
  have hgo : ¬ (256 ≤ port ∨ ¬ s.schedOn ∨ (¬ (s.elig 1 port).1 ∧ ¬ (s.elig 1 port).2)) := by
    obtain h | h := helig <;> simp [h, hon, hport]
  simp only [if_neg hgo, hd, hq, Option.getD_some, Bool.false_eq_true, if_false]

theorem mscTakeFrame_eq {s : State} {slot q : Nat} {f : Frame} {rest : List Frame} (hsends : s.macSends slot = true)
    (hidle : (s.mac slot).sending = []) (hq : s.pickQueue slot = some q) (htx : (s.mac slot).txq.getD q [] = f :: rest) :
    exec (.mscTakeFrame slot) s = .next (s.setMac slot { s.mac slot with txq := lset (s.mac slot).txq q rest, sending := [f], idleFrom := s.ticks, credit := lset (s.mac slot).credit q ((s.mac slot).credit.getD q 0 - (f.qlen + 20)) }) := by
  refine congrArg Host.Outcome.next ?_
  rw [if_pos hsends, hidle, hq]
  simp only [State.takeFrom, htx, hidle]

theorem voqDecision_eq {s : State} {v : Nat} (hqsu : s.enabled pgQSU = true) (hfab : s.enabled pgFAB = true) (hlist : s.voqList = [v])
    (hheld : s.voqHeld v = false) (hv : v % 8 = 7) : ∃ d, exec .voqDecision s = .next (({ s with voqDef := d } : State).voqGrant v) := by
  have hclasses : ((List.range 7).filter fun c => [v].any fun v => v % 8 = c) = [] := by
    refine List.filter_eq_nil_iff.2 fun c hc => ?_
    have := List.mem_range.1 hc
    simp only [List.any_cons, List.any_nil, Bool.or_false, decide_eq_true_eq]
    omega
  have hnext : ∀ last, 8 * rrNext [v / 8] last + 7 = v := by
    intro last
    have hone : rrNext [v / 8] last = v / 8 := by
      cases last with
      | none => rfl
      | some c =>
        simp only [rrNext, nextIn, List.find?_cons, List.find?_nil, List.headD_cons]
        split <;> rfl
    omega
  refine ⟨s.voqDef.zipIdx.map fun (e : Int × Nat) => if ([] : List Nat).contains e.2 then e.1 else 0, congrArg Host.Outcome.next ?_⟩
  have hl : [v].filter (fun v => !s.voqHeld v) = [v] := by simp [hheld]
  have hany : ([v].any fun v => s.voqHeld v) = false := by simp [hheld]
  have hexpress : ([v].any fun v => decide (v % 8 = 7)) = true := by simp [hv]
  have hdevs : ([v].filter fun v => decide (v % 8 = 7)).map (· / 8) = [v / 8] := by simp [hv]
  rw [if_neg (by simp [hqsu, hfab])]
  simp only [hlist, hl, hany, hclasses, hexpress, Bool.false_eq_true, if_false, if_true, hdevs, hnext, List.cons_ne_nil]

theorem nodeStored_only (s : State) (lvl i : Nat) (w : List Nat) : ∃ n, s.nodeStored lvl i w = { s with nodes := n } := ⟨_, rfl⟩

/-- What a descent leaves of the state. -/
theorem walked_parts {s t : State} {p : Nat} (hp : p < 256) (h : Walked s t) : t.discards p = s.discards p ∧
    (∀ q, t.que q = s.que q) ∧ t.toFd = s.toFd ∧ t.toBandState = s.toBandState ∧ t.toPipeState = s.toPipeState ∧ t.nt = s.nt ∧ t.hbm = s.hbm := by
  refine ⟨discards_of_regs hp fun g f i hg hf => ?_, ?_⟩
  · have hsch : ¬ schKey (f.key g i) := by
      simp only [schKey, Fld.key, Fld.calmAt, pgQSU] at hg hf ⊢
      generalize f.stride * i = o at hf ⊢
      omega
    rw [State.rd, State.rd, tgetD, tgetD, h.regs _ (not_sideKey_of_calmAt hf) hsch]
  · obtain ⟨r, n, rfl⟩ := h.only
    exact ⟨fun _ => rfl, rfl, rfl, rfl, rfl, rfl⟩

/-! ### Flushes that end -/

/-- A flush that ends whole: its queue runs again, with the result and the cause. -/
def State.flushEnd (s : State) (x : Flush) : State :=
  ((({ s.setQue x.queue { s.que x.queue with halted := false } with flush := none } : State).wr pgQSU COMMON.PAGE_STS_BUSY 0).result pgQSU QSU.QSU_RES x.tag
    DONE [x.dropped, 0] 0 x.late).raise pgQSU 1
theorem flushEnd_spec (s : State) (x : Flush) (hlive : s.live pgQSU = true) : ∃ v, s.flushEnd x = v ∧ v.flush = none ∧
    (v.que x.queue).halted = false ∧ (v.que x.queue).frames = (s.que x.queue).frames ∧ v.rd pgQSU COMMON.PAGE_STS_BUSY = 0 ∧
    v.rd pgQSU QSU.QSU_RES.status = 1 ∧ v.rd pgQSU QSU.QSU_RES.tag = x.tag % 256 ∧ bit (v.rd pgQSU COMMON.INT_CAUSE_CAUSE) 1 = true ∧
    v.toBandState = s.toBandState ∧ v.toLineState = s.toLineState ∧ v.toPipeState = s.toPipeState ∧ v.nt = s.nt ∧ v.hbm = s.hbm := by
  have hstart : ∀ a : State, a = ({ s.setQue x.queue { s.que x.queue with halted := false } with flush := none } : State).wr pgQSU COMMON.PAGE_STS_BUSY 0 →
      a.flush = none ∧ a.que x.queue = { s.que x.queue with halted := false } ∧ a.rd pgQSU COMMON.PAGE_STS_BUSY = 0 ∧ a.live pgQSU = true ∧
      a.toBandState = s.toBandState ∧ a.toLineState = s.toLineState ∧ a.toPipeState = s.toPipeState ∧ a.nt = s.nt ∧ a.hbm = s.hbm := by
    rintro a rfl
    refine ⟨rfl, que_setQue' s _ _, ?_, ?_, rfl, rfl, rfl, rfl, rfl⟩
    · rw [State.rd_wr_same]
      rfl
    · rw [State.wr_live _ _ _ (by decide)]
      exact hlive
  rw [State.flushEnd]
  obtain ⟨hflush, hque, hbusy, hlive', hband, hline, hpipe, hnt, hhbm⟩ := hstart _ rfl
  generalize ({ s.setQue x.queue { s.que x.queue with halted := false } with flush := none } : State).wr pgQSU COMMON.PAGE_STS_BUSY 0 = a at *
  obtain ⟨hstatus, htag, -, hcause, -⟩ := a.resultRaised_spec (p := pgQSU) (r := QSU.QSU_RES) x.tag (st := DONE) [x.dropped, 0] x.late 1 (by decide)
    (by decide) (by decide) hlive' (by decide)
  obtain ⟨r, hr⟩ := (OnlyRegs.refl a).result pgQSU QSU.QSU_RES x.tag DONE [x.dropped, 0] 0 x.late
  have hbusy' : (a.result pgQSU QSU.QSU_RES x.tag DONE [x.dropped, 0] 0 x.late).rd pgQSU COMMON.PAGE_STS_BUSY = a.rd pgQSU COMMON.PAGE_STS_BUSY :=
    State.rd_result_ne _ _ _ _ _ (by decide)
  have hcalm := Calm.raise (a.result pgQSU QSU.QSU_RES x.tag DONE [x.dropped, 0] 0 x.late) pgQSU 1
  obtain ⟨band', line', pipe', qd', nt'⟩ := coreParts_eq (coreParts_calm hcalm)
  generalize (a.result pgQSU QSU.QSU_RES x.tag DONE [x.dropped, 0] 0 x.late).raise pgQSU 1 = v at *
  generalize a.result pgQSU QSU.QSU_RES x.tag DONE [x.dropped, 0] 0 x.late = b at *
  have hqd : v.toQdState = a.toQdState := qd'.trans (by rw [hr])
  have hvque : v.que x.queue = a.que x.queue := congrArg (fun d : QdState => tgetD d.queues x.queue {}) hqd
  refine ⟨v, rfl, (congrArg QdState.flush hqd).trans hflush, by rw [hvque, hque], by rw [hvque, hque], ?_, hstatus, htag, hcause,
    band'.trans (by rw [hr, hband]), line'.trans (by rw [hr, hline]), pipe'.trans (by rw [hr, hpipe]), nt'.trans (by rw [hr, hnt]),
    (congrArg QdState.hbm hqd).trans hhbm⟩
  rw [hcalm.rd (by decide), hbusy', hbusy]

/-- A flush that is aborted before it dropped a frame. -/
def State.flushAborted (s : State) (x : Flush) : State :=
  (({ s with flush := none } : State).wr pgQSU COMMON.PAGE_STS_BUSY 0).result pgQSU QSU.QSU_RES x.tag ABORTED
theorem flushAborted_spec (s : State) (x : Flush) : ∃ v, s.flushAborted x = v ∧ v.flush = none ∧ v.queues = s.queues ∧
    v.rd pgQSU COMMON.PAGE_STS_BUSY = 0 ∧ v.rd pgQSU QSU.QSU_RES.status = 2 ∧ v.rd pgQSU QSU.QSU_RES.tag = x.tag % 256 ∧
    v.toBandState = s.toBandState ∧ v.toLineState = s.toLineState ∧ v.toPipeState = s.toPipeState ∧ v.toHostState = s.toHostState ∧
    v.toMgmtState = s.toMgmtState ∧ v.nt = s.nt ∧ v.hbm = s.hbm := by
  rw [State.flushAborted]
  have hbusy : (({ s with flush := none } : State).wr pgQSU COMMON.PAGE_STS_BUSY 0).rd pgQSU COMMON.PAGE_STS_BUSY = 0 := by
    rw [State.rd_wr_same]
    rfl
  have honly : ∃ r, ({ s with flush := none } : State).wr pgQSU COMMON.PAGE_STS_BUSY 0 = { s with flush := none, regs := r } := ⟨_, rfl⟩
  generalize ({ s with flush := none } : State).wr pgQSU COMMON.PAGE_STS_BUSY 0 = a at *
  obtain ⟨r, hr⟩ := honly
  obtain ⟨hstatus, htag, -⟩ := a.result_head pgQSU QSU.QSU_RES x.tag (st := ABORTED) [] 0 false (by decide)
  obtain ⟨q, hq⟩ := (OnlyRegs.refl a).result pgQSU QSU.QSU_RES x.tag ABORTED [] 0 false
  have hkept : (a.result pgQSU QSU.QSU_RES x.tag ABORTED).rd pgQSU COMMON.PAGE_STS_BUSY = a.rd pgQSU COMMON.PAGE_STS_BUSY :=
    State.rd_result_ne _ _ _ _ _ (by decide)
  generalize a.result pgQSU QSU.QSU_RES x.tag ABORTED = v at *
  refine ⟨v, rfl, ?_, ?_, hkept.trans hbusy, hstatus, htag, ?_⟩
  · rw [hq, hr]
  · rw [hq, hr]
  · rw [hq, hr]
    exact ⟨rfl, rfl, rfl, rfl, rfl, rfl, rfl⟩

/-! ### The obligation -/

/-- Settles O35, clause by clause: a decision's descent changes no node's words (`descend_spec`), a grant sends its run (`grant_spec`,
`voqGrant_spec`), and released frames leave the flush and the queues (`flushStart_spec`). -/
theorem schedulerCommands : Obligations.SchedulerCommands := by
  unfold Obligations.SchedulerCommands
  refine ⟨?_, ?_, ?_, ?_, ?_, ?_, ?_, ?_, ?_, ?_⟩
  · intro s port q path hport hon helig hpath hq hdis
    obtain ⟨s1, hdesc, hrun⟩ := schedDecision_eq hport hon helig hpath hq
    have hproper : nodeProper 1 port := ⟨by decide, by decide, fun _ => by omega⟩
    obtain ⟨hwalk, hlevels⟩ := descend_spec (Walked.refl s) hproper rfl hdesc
    have hslot : s1.slotBytes port = s.slotBytes port := by
      unfold State.slotBytes Node.word
      rw [hwalk.words 1 port hproper]
    have hmacq : s1.macqOf q = s.macqOf q := by
      unfold State.macqOf Node.word
      rw [hwalk.words 5 q ⟨by decide, by decide, fun h => absurd h (by decide)⟩]
    obtain ⟨hdis', hsame⟩ := walked_parts hport hwalk
    obtain ⟨hque, hfd, hband, hpipe, hnt, hhbm⟩ := hsame
    obtain ⟨t, ht, hframes, hsent, hrest⟩ := grant_spec q hport (hdis'.trans hdis) hlevels
    rw [hslot, hque] at hframes
    rw [hslot, hque, hmacq, hfd] at hsent
    rw [hband, hpipe, hnt, hhbm] at hrest
    exact ⟨t, hrun.trans (congrArg Host.Outcome.next ht), hframes, hsent, hrest⟩
  · intro s slot q f rest hsends hidle hq htx
    exact ⟨_, mscTakeFrame_eq hsends hidle hq htx, State.mac_setMac .., rfl, rfl, rfl, rfl, rfl, rfl⟩
  · rintro s level tag i h1 h5 hreach rfl herr
    have hrun : exec (.nodeWrite level tag) s = .next (s.nodeWrite level tag) :=
      congrArg Host.Outcome.next ((if_pos ⟨h1, h5⟩).trans (State.regCmd_of_reaches hreach _ _ _))
    rw [nodeWrite_good tag herr] at hrun
    have hwords := nodeStored_words s level (s.rd (pgSCH level) SCH.NODE_IDX_INDEX) (s.stagedNode level)
    obtain ⟨n, hn⟩ := nodeStored_only s level (s.rd (pgSCH level) SCH.NODE_IDX_INDEX) (s.stagedNode level)
    generalize s.nodeStored level (s.rd (pgSCH level) SCH.NODE_IDX_INDEX) (s.stagedNode level) = u at *
    obtain ⟨hstatus, htag, hvalid⟩ := u.result_head (pgSCH level) SCH.NODE_RES tag (st := DONE) [] 0 false (by decide)
    obtain ⟨r, hr⟩ := (OnlyRegs.refl u).result (pgSCH level) SCH.NODE_RES tag DONE [] 0 false
    refine ⟨_, hrun, ?_, hstatus, htag, hvalid, ?_⟩
    · rw [hr]
      exact hwords
    · rw [hr, hn]
      exact ⟨rfl, rfl, rfl, rfl, rfl, rfl, rfl⟩
  · rintro s level tag i k h1 h5 hreach rfl hi hk
    obtain ⟨ws, hread⟩ := nodeRead_good tag hi
    have hrun : exec (.nodeRead level tag) s = .next (s.nodeRead level tag) :=
      congrArg Host.Outcome.next ((if_pos ⟨h1, h5⟩).trans (State.regCmd_of_reaches hreach _ _ _))
    rw [hread] at hrun
    have hword := nodeShown_rd s level (s.node level (s.rd (pgSCH level) SCH.NODE_IDX_INDEX)) hk
    obtain ⟨q, hq⟩ := nodeShown_only s level (s.node level (s.rd (pgSCH level) SCH.NODE_IDX_INDEX))
    generalize s.nodeShown level (s.node level (s.rd (pgSCH level) SCH.NODE_IDX_INDEX)) = u at *
    obtain ⟨hstatus, htag, hvalid⟩ := u.result_head (pgSCH level) SCH.NODE_RES tag (st := DONE) ws 0 false (by decide)
    obtain ⟨r, hr⟩ := (OnlyRegs.refl u).result (pgSCH level) SCH.NODE_RES tag DONE ws 0 false
    have hkept : (u.result (pgSCH level) SCH.NODE_RES tag DONE ws).rd (pgSCH level) SCH.NODE_W_WORD k = u.rd (pgSCH level) SCH.NODE_W_WORD k :=
      State.rd_result_ne _ _ _ _ _ (by simp only [Fld.key, SCH.NODE_W_WORD, SCH.NODE_RES]; omega)
    refine ⟨_, hrun, hkept.trans hword, ?_, hstatus, htag, hvalid, ?_⟩
    · rw [hr, hq]
    · rw [hr, hq]
      exact ⟨rfl, rfl, rfl, rfl, rfl, rfl, rfl⟩
  · intro s profile value hreach hprofile hvalid
    have hwrite : s.shpWrite profile 0 value = (({ s with shpDead := s.shpDead.filter fun x => x ≠ profile } : State).wr pgSHP SHP.PROF_A_RATE
        (min 1600000 (bits value 0 22)) profile).put pgSHP SHP.PROF_A_VALID true profile := by
      rw [State.shpWrite, if_pos rfl, if_neg (by simp [hvalid]), hvalid]
    have hrun : exec (.shpProfileWrite profile 0 value) s = .next (s.shpWrite profile 0 value) := by
      refine congrArg Host.Outcome.next ((State.regCmd_of_reaches hreach _ _ _).trans ?_)
      rw [Nat.mod_eq_of_lt hprofile]
    rw [hwrite] at hrun
    refine ⟨_, hrun, ?_, ?_, rfl, rfl, rfl, rfl, rfl, rfl, rfl, rfl, rfl, rfl⟩
    · rw [State.put, State.rd_wr_ne _ _ (by simp only [Fld.key, SHP.PROF_A_RATE, SHP.PROF_A_VALID]; omega), State.rd_wr_same]
      exact Nat.mod_eq_of_lt (by simp only [SHP.PROF_A_RATE]; omega)
    · rw [State.put, State.rd_wr_same]
      rfl
  · intro s profile value hreach hprofile
    have hwrite : s.shpWrite profile 1 value = s.wrWord pgSHP profile value [SHP.PROF_B_BURST, SHP.PROF_B_OVERHEAD] := if_neg (by decide)
    have hrun : exec (.shpProfileWrite profile 1 value) s = .next (s.shpWrite profile 1 value) := by
      refine congrArg Host.Outcome.next ((State.regCmd_of_reaches hreach _ _ _).trans ?_)
      rw [Nat.mod_eq_of_lt hprofile]
    rw [hwrite] at hrun
    refine ⟨_, hrun, ?_, ?_, ?_, rfl, rfl, rfl, rfl, rfl, rfl, rfl⟩
    · simp only [State.wrWord]
      rw [State.rd_wr_ne _ _ (by simp only [Fld.key, SHP.PROF_B_BURST, SHP.PROF_B_OVERHEAD]; omega), State.rd_wr_same, bits_mod]
    · simp only [State.wrWord]
      rw [State.rd_wr_same, bits_mod]
    · simp only [State.wrWord]
      rw [State.rd_wr_ne _ _ (by simp only [Fld.key, SHP.PROF_A_RATE, SHP.PROF_B_OVERHEAD]; omega),
        State.rd_wr_ne _ _ (by simp only [Fld.key, SHP.PROF_A_RATE, SHP.PROF_B_BURST]; omega)]
  · rintro s sweep tag q hreach hflush rfl hq
    obtain ⟨v, hv, hrest⟩ := flushStart_spec sweep (tag % 256) hflush hq
    exact ⟨v, congrArg Host.Outcome.next ((State.regCmd_of_reaches hreach _ _ _).trans hv), hrest⟩
  · intro s x hlive hflush hsweep hquiet
    obtain ⟨v, hv, hrest⟩ := flushEnd_spec s x hlive
    refine ⟨v, ?_, hrest⟩
    rw [← hv]
    refine congrArg Host.Outcome.next ?_
    simp only [hflush, hlive, hsweep, hquiet, not_true, if_false, Bool.false_eq_true]
    rfl
  · intro s tag x hreach hflush hdropped hquiet
    obtain ⟨v, hv, hrest⟩ := flushAborted_spec s x
    have habort : s.flushAbort = v := by
      rw [← hv]
      simp only [State.flushAbort, hflush, hdropped, hquiet, if_true, Bool.false_eq_true, if_false, State.flushAborted]
    exact ⟨v, congrArg Host.Outcome.next ((State.regCmd_of_reaches hreach _ _ _).trans habort), hrest⟩
  · intro s v hqsu hfab hlist hheld hv hgood
    obtain ⟨d, hrun⟩ := voqDecision_eq hqsu hfab hlist hheld hv
    obtain ⟨t, ht, hrest⟩ := voqGrant_spec (s := { s with voqDef := d }) hv hgood
    exact ⟨t, hrun.trans (congrArg Host.Outcome.next ht), hrest⟩

end Sys2Proof.Machine
